-- ==== Sys2Proof/Word.lean ====
section
/-! DEFINITION. Word.lean: the word types, the sparse table type, the descriptor of a register field and the
names of the four variants (spec/00_scope.md R1, R11, R13). -/
namespace Sys2Proof

/-- A Clerk word (R314). -/
abbrev Word := BitVec 32
/-- A main-core doubleword. -/
abbrev Dword := BitVec 64
abbrev Byte := BitVec 8

/-- A sparse table: keys strictly rising, no entry equal to the table's default value. -/
abbrev Table (α : Type) := List (Nat × α)

/-- The register access types of Table 0.6 (R13). -/
inductive Acc where
  | rw | ro | wo | w1c | rc | rws
  deriving DecidableEq, Repr

/-- One register field: the window offset of its register, its lowest bit, its width, its reset value (R13). -/
structure Fld where
  off : Nat
  lo  : Nat
  w   : Nat
  rst : Nat
  acc : Acc
  deriving DecidableEq, Repr

/-- The four ordering variants (R1, Table 0.2). -/
inductive Variant where
  | d9_256c | d9_192c | d9_128c | d9_128e
  deriving DecidableEq, Repr

/-- A unit that can be fenced (Table 16.2). -/
inductive UnitRef where
  | hart (h : Nat)
  | slice (s cause : Nat)          -- cause: LLC_STATUS.cause 2-5
  | rank (c r : Nat)
  | sub (c b : Nat)
  | chan (c : Nat)
  | port (g n : Nat)
  | link (k : Nat)
  | fabPort (k : Nat)
  | dma (d : Nat)
  | clerk (tile : Nat)
  | assayer (tile : Nat)
  | half (tile : Nat)
  deriving DecidableEq, Repr

/-- What the inputs showed over the beat that a boundary ends. -/
structure BeatIn where
  vinMv     : Nat := 12000                 -- VIN averaged over the beat, mV (R389)
  iin       : Nat := 0                     -- input current, 10 mA units
  sensors   : List (Nat × Int) := []       -- sensor number of PWR_THERM.sensor and its reading, in °C (R411)
  badCopies : List Nat := []               -- domains whose beat copy or edge disagreed (R36)
  bridge    : Bool := true                 -- the Toss cells' handshake came over the IO bridge (R329)
  pgN       : Bool := true                 -- power-good of the tiles, as the bridge reports it
  pgS       : Bool := true
  holds     : List (Nat × Bool) := []      -- orders of the Assayer: a domain, or 184 + e for its engine e; hold or release (R368)
  compared  : List (Nat × Nat) := []       -- outputs that the comparator of a checked pair compared (R90)
  otherMw   : Nat := 0                     -- power of every domain other than pairs, mW (R395)
  rated     : Bool := true                 -- the device is in its rated environment (R396)
  deriving DecidableEq, Repr

/-- One main-core access as the core presents it, after translation, whose outcome the privileged architecture gives: fault1, fault2 are
the causes of a fault that the translation of the first and of the second part ends in. -/
structure MemAcc where
  va     : Nat
  pa     : Nat
  pa2    : Nat := 0                        -- physical address of the second part of a page-crossing access
  size   : Nat
  pbmt   : Nat := 0                        -- 0 PMA, 1 NC, 2 IO (R59)
  pbmt2  : Nat := 0                        -- page type of the second part's page
  vector : Bool := false
  elem   : Nat := 0                        -- element of a vector access (R74)
  more   : Bool := false                   -- further elements of the same vector instruction follow
  pc     : Nat := 0                        -- address of the instruction
  fp     : Bool := false                   -- a scalar floating-point store
  early  : Bool := false                   -- an older branch, jump or memory instruction is not resolved or checked (R66)
  fault1 : Option Nat := none
  fault2 : Option Nat := none
  walk   : List Nat := []                  -- physical addresses of the page-table entries its translation reads (R66)
  page   : Nat := 12                       -- its page is 2^page bytes: 12, 16 (Svnapot), 21, 30, 39 or 48 (R55)
  fetch  : Bool := false                   -- fault1 is a fault of the instruction's own fetch
  deriving DecidableEq, Repr

/-- The page of an access that carries no data: virtual address, page type as MemAcc's pbmt, and whether an older branch, jump
or memory instruction is not yet resolved (R59, R66). -/
structure PageAt where
  addr  : Nat
  pbmt  : Nat := 0
  early : Bool := false
  deriving DecidableEq, Repr

/-- A request as it reaches a channel: tag and class are set by its source (R20, R147). -/
structure DAcc where
  pa    : Nat
  tag   : Nat
  write : Bool
  data  : Nat := 0
  cls   : Nat := 1
  dest  : Nat := 0                         -- 0 home slice, 1 reader at the home, 2 SerDes ingress, 3 fabric ingress
  port  : Nat := 0                         -- real-time port: 0 fabric, 1 CXL memory device
  mgmt  : Bool := false                    -- management marker of the Clerk or the Assayer (Table 1.3)
  removal : Bool := false                  -- write-back of a slice removal (R130)
  deriving DecidableEq, Repr

/-- A request that enters through a SerDes port (R270, R271): untranslated 0, translated 1, an ATS translation request 2, a page
request 3, whose data is its group index and flags, an access of the external host to BAR0 4 or to configuration space 5 (R279), or
a Precision Time Measurement request 6 (R267). -/
structure DevReq where
  dev   : Nat
  pasid : Option Nat := Option.none
  priv  : Bool := false
  exec  : Bool := false
  kind  : Nat := 0
  iova  : Nat
  write : Bool
  size  : Nat
  data  : Nat
  deriving DecidableEq, Repr

/-- The outcome of a training step (R144): a sweep point done, the SPD read, a step done (the last one names the rows
of the repair list that find no repair resource, by place in the list, R193), a sweep
done with the passing steps of each nibble as 128-bit masks, or a failure. The DIMM's figures come in the order
module type (1 RDIMM), device width, ECC (1 with ten devices per subchannel), ranks, stack, density, capacity, tRAS, CWL, tWR, tRP, tRCD, CL, tRFC (ps), then the speeds its SPD permits. -/
inductive TrainRep where
  | point
  | spd (present : Bool) (figures speeds : List Nat)
  | ok (unrepairable : List Nat)
  | sweep (eyes : List Nat)
  | fail
  deriving DecidableEq, Repr

/-- The board configuration of the Uluas image (Table 14.12). A key that is absent holds its default. -/
structure Board where
  split     : List Nat := []                    -- slots that slot_modes puts in split mode
  dramMap   : Option (List (Nat × Nat × Nat)) := none   -- base, size, channel mask; none: no dram_map key
  mirror    : Nat := 0
  speedMax  : Nat := 8000
  hppr      : Bool := false
  policy    : Nat := 0
  fixedId   : Option Nat := none
  eligible  : Bool := true
  linkWait  : Nat := 100
  lend      : List (Nat × Nat × Nat) := []      -- group, size, tenancy
  fsfLoad   : Nat := 0
  fsfEntry  : Option Nat := none
  fsfHand   : Option Nat := none
  recordReq : Bool := true
  svnCommit : Bool := false
  power     : List (Nat × Nat) := []            -- key and value of key 12
  deriving DecidableEq, Repr

/-- A component entry of an image (Table 14.10). -/
structure Comp where
  id     : Nat
  ver    : Nat := 1
  svn    : Nat := 0
  ctr    : Nat := 0                        -- fused counter that bounds svn
  digest : Nat := 0
  deriving DecidableEq, Repr

/-- A debug token (R366): valid when both owner signers' signatures verify. -/
structure Token where
  uid     : Nat
  enables : Nat
  counter : Nat
  hold    : Bool := false
  valid   : Bool := true
  digest  : Nat := 0
  deriving DecidableEq, Repr

/-- An Uluas image (R378): components, board configuration, debug token, and the bytes that the device executes or
places. -/
structure Image where
  comps   : List Comp := []
  board   : Board := {}
  token   : Option Token := none
  clerkFw : List Nat := []                 -- Clerk firmware, component 0x02
  asFw    : List Nat := []                 -- Assayer firmware, component 0x01
  fsf     : List Nat := []                 -- first-stage firmware, component 0x06
  deriving DecidableEq, Repr

/-- What reading and verifying one flash's image gives (R374): the first of the checks 1 to 5 or 7 that fails, 0 when all
pass (check 6 and the components of check 2 follow from the image). -/
structure FlashRep where
  fails : Nat := 0
  image : Image := {}
  deriving DecidableEq, Repr

/-- How a start-up step ended (Table 14.6). -/
inductive StartRep where
  | up                                                  -- step 1
  | fuses (code : Nat) (passN passS : Bool)             -- step 2: 0 read, 1 unreadable, 2 copies disagree; self-checks
  | image (a b : FlashRep) (bad : List Nat) (loaded : Bool)   -- step 3; bad: counters of records that do not verify
  | trained                                             -- step 4
  | filled                                              -- step 5
  | fabric                                              -- step 6
  | record (okA okB : Bool)                             -- step 7
  | released (digestOk : Bool) (rejected : List Nat)    -- step 8; pairs that rejected the patch
  deriving DecidableEq, Repr

/-- A function found below a port: device ID, port, memory BARs (base and size), and whether it has the FLR
capability (R272, R274). -/
structure FuncInfo where
  dev  : Nat
  port : Nat
  bars : List (Nat × Nat) := []
  flr  : Bool := true
  deriving DecidableEq, Repr

/-- What an ECAM write reaches: the place of these registers in configuration space is PCI's. -/
inductive EcamReg where
  | bar (i : Nat)                          -- a BAR register
  | command                                -- the Command register
  | msix                                   -- the MSI-X capability
  | devControl2 (timeoutNs : Nat)          -- Device Control 2; the completion timeout it selects
  | dpcRelease                             -- the write that releases DPC
  | other
  deriving DecidableEq, Repr

/-- A hello (Table 9.4). -/
structure HelloMsg where
  uid      : Nat
  bestUid  : Nat
  captain  : Nat
  epoch    : Nat
  bestHops : Nat
  devId    : Nat
  idHeld   : Bool
  idFixed  : Bool
  eligible : Bool
  port     : Nat
  variant  : Nat
  members  : Nat
  deriving DecidableEq, Repr

/-- A beat marker (Table 9.11); txOffset and echo are signed, in ps. -/
structure Marker where
  beat     : Nat
  time     : Nat
  epoch    : Nat
  hops     : Nat
  aligned  : Bool := false
  txOffset : Int := 0
  echo     : Int := 0
  deriving DecidableEq, Repr

/-- What a device's home range holds (R25): the ranges of its populated DRAM map, and of its CXL.mem and I/O windows that have
something behind them; base offset and size. -/
structure Extent where
  dram : List (Nat × Nat) := []
  wins : List (Nat × Nat) := []
  deriving DecidableEq, Repr

/-- A read's data, or the kind of Table 11.2 of the error it met, where it comes from outside this device's DRAM. -/
inductive FarRead where
  | data (v : Nat)
  | err (kind : Nat)
  deriving DecidableEq, Repr

/-- A join report (Table 9.5): the neighbour's unique ID and port for each up port; extent is what discovery learns of the
device's home range (R25). -/
structure JoinRec where
  uid      : Nat
  fixedId  : Option Nat := none
  prevId   : Option Nat := none
  variant  : Nat := 1
  eligible : Bool := true
  links    : List (Nat × Nat × Nat) := []  -- port, neighbour's unique ID, neighbour's port
  narrow   : List Nat := []                -- ports that run at x4
  extent   : Extent := {}
  deriving DecidableEq, Repr

/-- A link of the topology map: two members and their ports; x4: degraded (R232). -/
structure TLink where
  a  : Nat
  pa : Nat
  b  : Nat
  pb : Nat
  x4 : Bool := false
  deriving DecidableEq, Repr

/-- A TABLES message (Table 9.5): epoch, assigned ID, captain's ID, members with unique IDs, topology map, the 64 route
entries and the default grants; with it, what discovery has learnt of each member's home range (R25). -/
structure TablesMsg where
  epoch   : Nat
  devId   : Nat
  captain : Nat
  members : List (Nat × Nat)
  topo    : List TLink
  routes  : List Nat
  extents : List (Nat × Extent) := []
  grants  : List (Nat × Nat) := []         -- default grants: device and tenancy (R253)
  deriving DecidableEq, Repr

/-- One device's part of one direction of a sealed share (R255): tenancy, its two ends, the port it comes in by and the
port it leaves by (6: this device), the wheel, the wheel positions on the link it leaves by. -/
structure ShareSeg where
  ten  : Nat
  a    : Nat
  d    : Nat
  inP  : Nat
  outP : Nat
  wheel : Nat
  pos  : List Nat
  start : Nat := 0                         -- boundary at which the share takes effect, once the captain has named it
  deriving DecidableEq, Repr

/-- A Clerk-to-Clerk message with its content (Table 9.5). A SHARE_PLACE names one device's part of one direction of a share; at
the captain, with ports 7, it is an end's request to place a share of as many positions; with none at a path device it
releases what the share held there, and with a boundary at an end it names when the share takes effect (log entry 43). -/
inductive Msg where
  | joinReport (r : JoinRec)
  | tables (t : TablesMsg)
  | tablesAck (epoch digest : Nat)
  | commit (epoch beat : Nat)
  | sharePlace (g : ShareSeg)
  | shareAck (ten peer outcome : Nat)
  | sealQuery (ten : Nat) (reply isSealed : Bool)
  deriving DecidableEq, Repr

/-- A packet of the fabric (R248, R249, Table 9.9): destination and source device, epoch, kind, operation (an Atomic's,
a Maint's, or a Clerk-to-Clerk message's code), transaction ID, tag, address, data, byte enables (0: all of size), the
virtual channel it travels in (0-5, 6 sealed) and its escape state. -/
structure Pkt where
  dest   : Nat
  src    : Nat
  kind   : Nat
  epoch  : Nat := 0
  op     : Nat := 0
  xid    : Nat := 0
  tag    : Nat := 0
  pa     : Nat := 0
  size   : Nat := 64
  data   : Nat := 0
  cmp    : Nat := 0                        -- compare value of an Atomic that carries one
  be     : Nat := 0
  poison : Bool := false
  mgmt   : Bool := false
  vc     : Nat := 0
  esc    : Nat := 0
  msg    : Option Msg := none              -- content of a Clerk-to-Clerk message
  removal : Bool := false                  -- write-back of a slice removal, ordinary traffic (R130)
  deriving DecidableEq, Repr

/-- A flit (Table 9.3), decrypted; pos is its flit position in the beat. -/
structure Flit where
  seq      : Nat
  ackSeq   : Nat := 0
  ackValid : Bool := false
  nak      : Bool := false
  kind     : Nat
  vc       : Nat := 7
  credits  : List Nat := []
  pkts     : List Pkt := []
  pos      : Nat := 0
  deriving DecidableEq, Repr

/-- What the unit under test reports when its test ends (Table 17.11): the far end followed, bits checked per lane, beat
of the first error, errors per lane, logic and memory BIST passed, least and greatest mesh round trip. -/
structure TestRep where
  follow : Bool := true
  bits   : Nat := 0
  first  : Nat := 0
  errors : List Nat := []
  logic  : Bool := true
  memory : Bool := true
  least  : Nat := 0
  most   : Nat := 0
  deriving DecidableEq, Repr

inductive AmoOp where
  | lr | sc | swap | add | and | or | xor | min | max | minu | maxu | cas
  deriving DecidableEq, Repr

/-- What recomputes the context key (R62). -/
inductive KeyCause where
  | trap (priv : Nat)                      -- trap entry into mode 1 S, 3 M, 5 VS (R61 codes)
  | xret (priv : Nat)                      -- return into mode 0 U, 1 S, 3 M, 4 VU, 5 VS
  | satp (v : Nat)
  | vsatp (v : Nat)
  | hgatp (v : Nat)
  deriving DecidableEq, Repr

end Sys2Proof
end

