-- ==== Sys2Proof/Syntax.lean ====
section
/-! DEFINITION. Syntax.lean: the commands of the block, one constructor per row of spec/opcode_table.json, with the
row's operands. Types of composite operands stand in Word.lean. -/
namespace Sys2Proof

/-- A command (spec/opcode_table.json). -/
inductive Instr where
  /-- VIN_GOOD (R388). mv: VIN in mV; resetLow: RESET_N is low. -/
  | vinGood (mv : Nat) (resetLow : Bool)
  /-- VIN_LOST (R388). mv: VIN in mV; ns: how long it has stayed there. -/
  | vinLost (mv ns : Nat)
  /-- STRAPS_SAMPLED (R447). The 16 samples of the strap. -/
  | strapsSampled (samples : List Nat)
  /-- RESET_N_RISE (R448). lowNs: width of the low pulse that ends. -/
  | resetNRise (lowNs : Nat)
  /-- STARTUP_STEP_COMPLETE (R373). ms: milliseconds since VIN good or the warm reset; r: how the step ended. -/
  | startupStepComplete (ms : Nat) (r : StartRep)
  /-- STARTUP_STEP_TIMEOUT (R373). ms: milliseconds since VIN good or the warm reset. -/
  | startupStepTimeout (ms : Nat)
  /-- FLASH_READ_TIMEOUT (R374). flash: 0 A, 1 B; ms: how long the read has waited. -/
  | flashReadTimeout (flash ms : Nat)
  /-- TRAINING_STEP_DONE (R144). -/
  | trainingStepDone (c : Nat) (r : TrainRep)
  /-- TRAINING_TIMEOUT (R144). -/
  | trainingTimeout (c : Nat)
  /-- FILL_COMPLETE (R195). -/
  | fillComplete (c : Nat)
  /-- LINK_WAIT_EXPIRY (R238). -/
  | linkWaitExpiry
  /-- BEAT_BOUNDARY (R40). What the inputs show over the beat that ends. -/
  | beatBoundary (b : BeatIn)
  /-- SLEW_DONE (R51). -/
  | slewDone
  /-- SENSOR_RETIRE (R426). -/
  | sensorRetire (sensor : Nat)
  /-- COMMAND_STEP (R346). committed: the commit reached the hub during the beat before. -/
  | commandStep (mbx : Nat) (committed : Bool)
  /-- FENCE (R418). The unit whose detected fault is fenced now. -/
  | fence (u : UnitRef)
  /-- GUARD_INTERRUPT (R326). Every core reaches Clerk cycle 1,350. -/
  | guardInterrupt
  /-- REFCLK_LOSS (R34). ref: 0 REFCLK_A, 1 REFCLK_B; gapNs: time without a rising edge; ppm: how far its period over 1,000
  cycles is off 100 MHz. -/
  | refclkLoss (ref gapNs ppm : Nat)
  /-- REFCLK_RECOVERED (R34). cycles: consecutive good cycles since the first edge. -/
  | refclkRecovered (ref cycles : Nat)
  /-- REF_PREF_WRITE (R34). The value written to CLK_CTRL.ref_pref. -/
  | refPrefWrite (pref : Nat)
  /-- XTAL32_LOSS (R426). Time without an edge. -/
  | xtal32Loss (gapNs : Nat)
  /-- THERMAL_TRIP (R412). -/
  | thermalTrip (sensor : Nat) (degC : Int)
  /-- INPUT_CURRENT_LIMIT (R397). iin: 10 mA units; ns: how long the limit is exceeded. -/
  | inputCurrentLimit (iin ns : Nat)
  /-- THERMAL_HALVING (R397). -/
  | thermalHalving (pair : Nat) (degC : Int)
  /-- ENTROPY_HEALTH_FAIL (R57). -/
  | entropyHealthFail (tile : Nat)
  /-- MAIN_CORE_LOAD (R72). -/
  | mainCoreLoad (h : Nat) (a : MemAcc) (rd : Nat) (signed : Bool)
  /-- MAIN_CORE_STORE (R72). younger: lines of the younger instructions in flight. -/
  | mainCoreStore (h : Nat) (a : MemAcc) (v : Nat) (younger : List Nat)
  /-- MAIN_CORE_AMO (R72). -/
  | mainCoreAmo (h : Nat) (a : MemAcc) (op : AmoOp) (v cmp rd : Nat) (younger : List Nat)
  /-- CONTROL_WINDOW_ACCESS (R30). off: offset in this device's control window; rd: register a load writes. -/
  | controlWindowAccess (h va off size rd : Nat) (signed write : Bool) (v : Nat)
  /-- SIGNAL_PAGE_WRITE (R280). -/
  | signalPageWrite (h pa size v : Nat)
  /-- CBO_CLEAN (R60). -/
  | cboClean (h va pa : Nat)
  /-- CBO_FLUSH (R60). -/
  | cboFlush (h va pa : Nat)
  /-- CBO_INVAL (R60). -/
  | cboInval (h va pa : Nat)
  /-- CBO_ZERO (R206). -/
  | cboZero (h : Nat) (va : PageAt) (pa : Nat) (younger : List Nat)
  /-- PREFETCH_HINT (R60). kind: 0 prefetch.r, 1 prefetch.w, 2 prefetch.i; faults: a translation or protection check would
  fault. -/
  | prefetchHint (h : Nat) (pa : PageAt) (kind : Nat) (faults : Bool)
  /-- WRS_STO (R55). -/
  | wrsSto (h : Nat)
  /-- WRS_STO_TIMEOUT (R55). ns: time since the wait began. -/
  | wrsStoTimeout (h ns : Nat)
  /-- WRS_NTO (R55). -/
  | wrsNto (h : Nat)
  /-- SEED_READ (R57). ready: the tile's source has entropy ready. -/
  | seedRead (h rd : Nat) (ready : Bool)
  /-- CONTEXT_KEY_UPDATE (R62). -/
  | contextKeyUpdate (h : Nat) (c : KeyCause)
  /-- BRANCH_RETIRE (R64). len: bytes of the instruction; kind: 0 conditional branch, 1 jump, 2 call, 3 return, 4 indirect
  jump, 5 indirect call. -/
  | branchRetire (h pc len target kind : Nat) (taken : Bool)
  /-- USEFUL_HALVING (R64). -/
  | usefulHalving (core : Nat)
  /-- DZPREDCTL_CLEAR (R76). -/
  | dzpredctlClear (h : Nat)
  /-- DBYPASS_SET (R77). -/
  | dbypassSet (h : Nat)
  /-- DBYPASS_CLEAR (R78). -/
  | dbypassClear (h : Nat)
  /-- IBYPASS_SET (R75). -/
  | ibypassSet (h : Nat)
  /-- CORE_INTERRUPT (R74). irq: file * 256 + identity; pc: the oldest instruction not retired, where no access is waiting. -/
  | coreInterrupt (h irq pc : Nat)
  /-- SNOOP_INVALIDATION (R71). inFlight: the line holds fetched instructions not yet retired. -/
  | snoopInvalidation (core line : Nat) (inFlight : Bool)
  /-- MSI_WRITE (R210). -/
  | msiWrite (tag h file ident : Nat)
  /-- COMPARATOR_MISMATCH (R91). -/
  | comparatorMismatch (pair bus bit cause : Nat)
  /-- CORE_ARRAY_ERROR (R88). kind: bit of PAIR_ERRLAT. -/
  | coreArrayError (pair core kind : Nat)
  /-- CAPTURE_COMPLETE (R93). -/
  | captureComplete (pair : Nat)
  /-- LOGIC_BIST_RESULT (R95). -/
  | logicBistResult (pair : Nat) (passA passB : Bool)
  /-- ARRAY_MARCH_RESULT (R95). -/
  | arrayMarchResult (pair : Nat) (passA passB : Bool)
  /-- SURVIVOR_DRAIN_DONE (R97). -/
  | survivorDrainDone (pair : Nat)
  /-- STATE_COPY_DONE (R98). -/
  | stateCopyDone (pair : Nat) (digestOk : Bool)
  /-- HART_RESUME_LIBERO (R99). The failed pair whose hart resumes. -/
  | hartResumeLibero (pair : Nat)
  /-- SPLIT_CORE_ERROR (R108). badLines: dirty lines whose check fails. -/
  | splitCoreError (pair core kind : Nat) (badLines : List Nat)
  /-- PAIR_INJECT_B (R436). -/
  | pairInjectB (pair : Nat)
  /-- PAIR_MODE_WRITE (R84). -/
  | pairModeWrite (pair mode : Nat)
  /-- SLICE_REQUEST (R113). core: requester, pair * 2 + core; err: 0, or the row of Table 5.2 of an error the lookup meets. -/
  | sliceRequest (core pa tag : Nat) (excl : Bool) (err : Nat)
  /-- SLICE_FILL (R125). -/
  | sliceFill (slice line : Nat)
  /-- MAINTENANCE_ACCEPT (R125). op: 1 clean, 2 flush, 3 discard. -/
  | maintenanceAccept (slice core line tag op : Nat)
  /-- MAINTENANCE_COMPLETE (R126). -/
  | maintenanceComplete (slice line : Nat)
  /-- L2_EVICTION (R111). -/
  | l2Eviction (core line : Nat)
  /-- SLICE_DRAIN_WALK_DONE (R128). -/
  | sliceDrainWalkDone (slice : Nat)
  /-- HANDOVER_COMPLETE (R128). -/
  | handoverComplete (slice : Nat)
  /-- CACHE_PRELOAD_DONE (R123). -/
  | cachePreloadDone (mbx : Nat)
  /-- LLC_INJECT_DATA_CE (R436). -/
  | llcInjectDataCe (slice : Nat)
  /-- LLC_INJECT_DATA_UE (R436). -/
  | llcInjectDataUe (slice : Nat)
  /-- LLC_INJECT_TAG_PAR (R436). -/
  | llcInjectTagPar (slice : Nat)
  /-- DRAM_REQUEST (R205). -/
  | dramRequest (c : Nat) (q : DAcc)
  /-- COMMAND_OPPORTUNITY (R148). slot: slot of the frame; the next shared command on a subchannel; with none to serve, the patrol reads a line. -/
  | commandOpportunity (c sub slot : Nat)
  /-- ROW_IDLE_CLOSE (R152). bank: key of the bank; ns: time without an access. -/
  | rowIdleClose (c bank ns : Nat)
  /-- RT_PORT_REQUEST (R149). -/
  | rtPortRequest (c : Nat) (q : DAcc)
  /-- REFRESH_OWED (R161). -/
  | refreshOwed (c rank : Nat)
  /-- CLAIM_START (R156). block: entry of MC_SEAL_BLOCK. -/
  | claimStart (c block : Nat)
  /-- SEALED_SELECTION (R158). -/
  | sealedSelection (c block : Nat)
  /-- MR4_READING (R162). codes: the field of each device of the rank and the interval JESD79-5 assigns it, in thousandths of the 1x interval (0 for the high-temperature limit). -/
  | mr4Reading (c rank : Nat) (codes : List (Nat × Nat))
  /-- CATCH_UP_START (R163). -/
  | catchUpStart (c rank : Nat)
  /-- CATCH_UP_END (R163). -/
  | catchUpEnd (c rank slot : Nat)
  /-- REFRESH_RATE_RETURN (R165). -/
  | refreshRateReturn (c rank : Nat)
  /-- DRIFT_CHECK (R146). change: from the step-8 baseline, in delay steps. -/
  | driftCheck (c rank : Nat) (change : Int)
  /-- DRAM_READ_RETURN (R180). errs: device and pattern of errors of this burst beyond the stored ones. -/
  | dramReadReturn (c sub : Nat) (errs : List (Nat × Nat)) (phases : List (Nat × Bool))
  /-- FLIP_EXPIRY (R199). -/
  | flipExpiry (c : Nat)
  /-- DDR5_ALERT (R168). kind: 0 parity, 1 write CRC. -/
  | ddr5Alert (c sub kind slot : Nat)
  /-- ALERT_DEASSERT_TIMEOUT (R168). -/
  | alertDeassertTimeout (c sub ns : Nat)
  /-- RECOVERY_END (R169). -/
  | recoveryEnd (c sub slot : Nat)
  /-- WRITE_CRC_WINDOW_PASS (R167). -/
  | writeCrcWindowPass (c sub : Nat)
  /-- MC_INJECT_CA_PARITY (R436). -/
  | mcInjectCaParity (c sub : Nat)
  /-- MC_INJECT_WCRC (R436). -/
  | mcInjectWcrc (c sub : Nat)
  /-- SPARE_WINDOW_CLEAR (R191). -/
  | spareWindowClear (c : Nat)
  /-- DEVICE_SPARE (R191). -/
  | deviceSpare (c rank sub : Nat)
  /-- PATROL_LAP_END (R198). -/
  | patrolLapEnd (c : Nat)
  /-- RANGE_SCRUB_END (R196). -/
  | rangeScrubEnd
  /-- SOFT_REPAIR_DONE (R194). found: the bank group had a repair resource left. -/
  | softRepairDone (mbx : Nat) (found : Bool)
  /-- SELF_REFRESH_EXIT (R172). ok: recentring succeeded; codes: mode register 4 of each rank as MR4_READING; delays: recentred read and write delay of each nibble. -/
  | selfRefreshExit (c : Nat) (ok : Bool) (codes : List (Nat × Nat)) (delays : List (Nat × Nat))
  /-- SEAL_DRAINS_DONE (R218). t: the tenancy whose drains and sweep end. -/
  | sealDrainsDone (t : Nat)
  /-- UNSEAL_DRAIN_DONE (R220). -/
  | unsealDrainDone (t : Nat)
  /-- CLOSE_KEY_ERASE (R212). -/
  | closeKeyErase (t : Nat)
  /-- REKEY_SWEEP_DONE (R213). -/
  | rekeySweepDone (t : Nat)
  /-- FUNCTION_RESET_DONE (R274). -/
  | functionResetDone (g dev : Nat)
  /-- LINK_STAGE_DONE (R230). The port's present stage is complete. -/
  | linkStageDone (k : Nat)
  /-- LINK_STAGE_TIMEOUT (R230). failed: the stage failed before its timeout. -/
  | linkStageTimeout (k : Nat) (failed : Bool)
  /-- LINK_RETRY_TIMER (R230). -/
  | linkRetryTimer (k : Nat)
  /-- LINK_REKEY (R230). rx: the receive direction. -/
  | linkRekey (k : Nat) (rx : Bool)
  /-- KEYING_FLIT (R230). step: 0 identity proofs, 1 owner key hash, 2 link keys; ok: it succeeded. -/
  | keyingFlit (k step : Nat) (ok : Bool)
  /-- FLIT_RECEIVED (R231). corrected, uncorrectable: its codeword. -/
  | flitReceived (k : Nat) (corrected uncorrectable tagOk : Bool) (f : Flit)
  /-- NAK_RECEIVED (R231). -/
  | nakReceived (k ackSeq : Nat)
  /-- REPLAY_LIMIT (R233). -/
  | replayLimit (k : Nat)
  /-- BLOCK_LOCK_LOSS (R233). -/
  | blockLockLoss (k ns : Nat)
  /-- CODEWORD_TIMEOUT (R233). -/
  | codewordTimeout (k ns : Nat)
  /-- HELLO_TIMEOUT (R233). -/
  | helloTimeout (k : Nat)
  /-- FABRIC_LANE_FAILURE (R232). -/
  | fabricLaneFailure (k lane : Nat)
  /-- FABRIC_RETRAIN_DONE (R232). -/
  | fabricRetrainDone (k : Nat)
  /-- HELLO (R234). -/
  | hello (k : Nat) (h : HelloMsg)
  /-- CAPTAIN_SETTLE (R235). -/
  | captainSettle
  /-- LINK_STATE_NOTICE (R257). The link, by one end, and the switch boundary in the captain's numbering. -/
  | linkStateNotice (k dev port boundary : Nat)
  /-- FAILURE_BANK_SWITCH (R257). -/
  | failureBankSwitch
  /-- FAILURE_BANK_READY (R243). -/
  | failureBankReady
  /-- ROUTE_TABLES_COMPUTED (R241). -/
  | routeTablesComputed
  /-- JOIN_REPORT (R236). -/
  | joinReport (r : JoinRec)
  /-- TABLES (R242). -/
  | tables (t : TablesMsg)
  /-- TABLES_ACK (R242). -/
  | tablesAck (dev epoch digest : Nat)
  /-- COMMIT (R242). -/
  | commit (epoch boundary : Nat)
  /-- TABLE_SWITCH (R242). -/
  | tableSwitch
  /-- EPOCH_GRACE_END (R247). -/
  | epochGraceEnd
  /-- SHARE_PLACE (R255). -/
  | sharePlace (captain : Nat) (g : ShareSeg)
  /-- SHARE_ACK (R255). outcome: 0 placed, 1 released, 3 no room. -/
  | shareAck (dev ten peer outcome : Nat)
  /-- SEAL_QUERY (R255). dev: the device that asks or replies. -/
  | sealQuery (dev ten : Nat) (reply isSealed : Bool)
  /-- BEAT_MARKER (R262). tRx: the port's counter at its arrival, ps. -/
  | beatMarker (k tRx : Nat) (m : Marker)
  /-- MARKER_LOSS (R43). -/
  | markerLoss
  /-- CAPTAIN_UNREACHABLE (R260). -/
  | captainUnreachable
  /-- MEMBER_UNREACHABLE (R259). -/
  | memberUnreachable (dev : Nat)
  /-- RD_SHARED (R250). -/
  | rdShared (p : Pkt)
  /-- RD_OWN (R250). -/
  | rdOwn (p : Pkt)
  /-- RD_NC (R249). -/
  | rdNc (p : Pkt)
  /-- WR_NC (R249). -/
  | wrNc (p : Pkt)
  /-- WR_LINE (R248). -/
  | wrLine (p : Pkt)
  /-- EVICT (R249). -/
  | evict (p : Pkt)
  /-- MAINT (R250). op: 1 clean, 2 flush, 3 inval, 4 a line of mem.clear. -/
  | maint (p : Pkt)
  /-- ATOMIC (R249). -/
  | atomic (p : Pkt)
  /-- SNP_INV (R250). -/
  | snpInv (p : Pkt)
  /-- SNP_SHARE (R250). -/
  | snpShare (p : Pkt)
  /-- ACK (R248). completion: the requester's Ack of a response. -/
  | ack (src xid : Nat) (completion : Bool)
  /-- RETRY (R244). -/
  | retry (src xid : Nat)
  /-- GRANT (R244). -/
  | grant (src xid : Nat)
  /-- ERR (R252). -/
  | err (src xid : Nat)
  /-- SNP_RSP (R250). -/
  | snpRsp (src line : Nat)
  /-- DATA (R248). -/
  | data (src xid data : Nat)
  /-- POISON_DATA (R251). -/
  | poisonData (src xid : Nat)
  /-- SNP_DATA (R250). -/
  | snpData (src line data : Nat) (poison : Bool)
  /-- REQUEST_RESEND_TIMEOUT (R248). -/
  | requestResendTimeout (xid : Nat)
  /-- SNOOP_RESEND_TIMEOUT (R248). -/
  | snoopResendTimeout (dev line : Nat)
  /-- REQUEST_ERROR_TIMEOUT (R252). -/
  | requestErrorTimeout (xid : Nat)
  /-- SERDES_LANE_FAILURE (R287). lanes: group lanes that failed. -/
  | serdesLaneFailure (g n : Nat) (lanes : List Nat)
  /-- PORT_RETRAIN_DONE (R290). -/
  | portRetrainDone (g n : Nat)
  /-- PORT_RETRAIN_TIMEOUT (R290). -/
  | portRetrainTimeout (g n : Nat)
  /-- SERDES_LINK_UP (R290). funcs: functions found below the port. -/
  | serdesLinkUp (g n width speed : Nat) (flit : Bool) (funcs : List FuncInfo)
  /-- SERDES_LINK_DOWN (R288). -/
  | serdesLinkDown (g n : Nat)
  /-- PORT_TRAIN_RETRY (R290). -/
  | portTrainRetry (g n : Nat)
  /-- SERDES_INGRESS_REQUEST (R271). -/
  | serdesIngressRequest (g n : Nat) (q : DevReq)
  /-- ROOT_PORT_COMPLETION (R277). status: 0 successful, 1 Unsupported Request, 2 Completer Abort, 3 poisoned. -/
  | rootPortCompletion (xid status data : Nat)
  /-- COMPLETION_TIMEOUT (R278). ns: time since the request was sent. -/
  | completionTimeout (xid ns : Nat)
  /-- ECAM_WRITE (R273). off: offset in the function's configuration space; r: the register there. -/
  | ecamWrite (tag g dev off size v : Nat) (r : EcamReg)
  /-- CXL_MEM_DEVICE_REQUEST (R284). dpa: device physical address. -/
  | cxlMemDeviceRequest (g dpa : Nat) (write : Bool) (data : Nat)
  /-- IDENTIFY_MEMORY_DEVICE (R285). -/
  | identifyMemoryDevice (g : Nat)
  /-- GET_HEALTH_INFO (R285). -/
  | getHealthInfo (g : Nat)
  /-- GET_EVENT_RECORDS (R285). -/
  | getEventRecords (g log : Nat)
  /-- CLEAR_EVENT_RECORDS (R285). -/
  | clearEventRecords (g log : Nat) (handles : List Nat)
  /-- GET_POISON_LIST (R285). -/
  | getPoisonList (g dpa len : Nat)
  /-- GET_SUPPORTED_LOGS (R285). -/
  | getSupportedLogs (g : Nat)
  /-- GET_LOG (R285). -/
  | getLog (g log off len : Nat)
  /-- SET_TIMESTAMP (R285). -/
  | setTimestamp (g v : Nat)
  /-- CXL_UNSUPPORTED_OPCODE (R285). -/
  | cxlUnsupportedOpcode (g op : Nat)
  /-- DMA_ENABLE (R297). tag: 0 to 256 a tenancy, 512 the Clerk, 513 the Assayer; d: engine * 32 + channel. -/
  | dmaEnable (tag d : Nat)
  /-- DMA_ABORT (R306). -/
  | dmaAbort (tag d : Nat)
  /-- DMA_ABORT_DONE (R306). -/
  | dmaAbortDone (d : Nat)
  /-- DMA_PAUSE_SET (R304). -/
  | dmaPauseSet (tag d : Nat)
  /-- DMA_PAUSE_DONE (R304). -/
  | dmaPauseDone (d : Nat)
  /-- DMA_PAUSE_CLEAR (R304). -/
  | dmaPauseClear (tag d : Nat)
  /-- DMA_STOP (R305). -/
  | dmaStop (tag d : Nat)
  /-- DMA_RESUME_RETRY (R302). -/
  | dmaResumeRetry (tag d : Nat)
  /-- DMA_RESUME_MARK_BAD (R302). -/
  | dmaResumeMarkBad (tag d : Nat)
  /-- DMA_RESUME_DISABLE (R302). -/
  | dmaResumeDisable (tag d : Nat)
  /-- DMA_TAIL_WRITE (R297). -/
  | dmaTailWrite (tag d v : Nat)
  /-- DESCRIPTOR_FETCHED (R299). far: what the read of its 32 bytes gives where the ring is an outbound region's signal page, whose
  reads the spec leaves open; a read that leaves the device is a request, and its answer a command of its own. -/
  | descriptorFetched (d : Nat) (far : FarRead)
  /-- DMA_READ_RETURN (R298). n: bytes of the read; far: as for DESCRIPTOR_FETCHED. -/
  | dmaReadReturn (d n : Nat) (far : FarRead)
  /-- DESCRIPTOR_COMPLETE (R300). -/
  | descriptorComplete (d : Nat)
  /-- STATUS_WRITE_ACK (R300). -/
  | statusWriteAck (d : Nat)
  /-- DMA_BUS_ERROR (R301). kind, dir: Table 11.2; off: the lowest failing byte offset. -/
  | dmaBusError (d kind dir off : Nat)
  /-- DMA_RING_FAULT (R303). -/
  | dmaRingFault (d : Nat)
  /-- DOORBELL (R337). -/
  | doorbell (tag mbx : Nat)
  /-- RESULT_ACK (R337). -/
  | resultAck (tag mbx size v : Nat)
  /-- NOTICE_ACK (R349). -/
  | noticeAck (tag mbx size v : Nat)
  /-- MCTP_REQUEST (R352). -/
  | mctpRequest (code : Nat) (args : List Nat)
  /-- I3C_TRANSFER_TIMEOUT (R426). -/
  | i3cTransferTimeout (sclLowMs packetMs : Nat) (complete : Bool)
  /-- CLERK_CLAIM (R330). x: complex, 0 north, 1 south; v: the bit written. -/
  | clerkClaim (x v : Nat)
  /-- TOKEN_PASS (R328). -/
  | tokenPass
  /-- BRIDGE_LOST (R332). -/
  | bridgeLost
  /-- PEER_POWER_LOST (R329). -/
  | peerPowerLost
  /-- CLERK_SRAM_UE (R312). -/
  | clerkSramUe (c : Nat)
  /-- CLERK_INTERRUPT_ENTRY (R324). code: the pending interrupt that is taken. -/
  | clerkInterruptEntry (c code : Nat)
  /-- MGMT_RESPONSE (R321). region: 0 common store, 1 semaphores, 2 aperture. -/
  | mgmtResponse (c region : Nat)
  /-- MGMT_TIMEOUT (R321). -/
  | mgmtTimeout (c region : Nat)
  /-- CLERK_IPI_SEND (R325). c: the sending core. -/
  | clerkIpiSend (c mask : Nat)
  /-- SLL (R314). Clerk core c. -/
  | sll (c wd wa sh : Nat)
  /-- SRL (R314). Clerk core c. -/
  | srl (c wd wa sh : Nat)
  /-- SRA (R314). Clerk core c. -/
  | sra (c wd wa sh : Nat)
  /-- SLLV (R314). -/
  | sllv (c wd wa wb : Nat)
  /-- SRLV (R314). -/
  | srlv (c wd wa wb : Nat)
  /-- SRAV (R314). -/
  | srav (c wd wa wb : Nat)
  /-- ADD (R314). -/
  | add (c wd wa wb : Nat)
  /-- SUB (R314). -/
  | sub (c wd wa wb : Nat)
  /-- AND (R314). -/
  | and (c wd wa wb : Nat)
  /-- OR (R314). -/
  | or (c wd wa wb : Nat)
  /-- XOR (R314). -/
  | xor (c wd wa wb : Nat)
  /-- NOR (R314). -/
  | nor (c wd wa wb : Nat)
  /-- SLT (R314). -/
  | slt (c wd wa wb : Nat)
  /-- SLTU (R314). -/
  | sltu (c wd wa wb : Nat)
  /-- MUL (R314). -/
  | mul (c wd wa wb : Nat)
  /-- MULH (R314). -/
  | mulh (c wd wa wb : Nat)
  /-- MULHU (R314). -/
  | mulhu (c wd wa wb : Nat)
  /-- CLZ (R314). -/
  | clz (c wd wa : Nat)
  /-- ADDI (R314). imm: the 16-bit field. -/
  | addi (c wd wa imm : Nat)
  /-- ANDI (R314). imm: the 16-bit field. -/
  | andi (c wd wa imm : Nat)
  /-- ORI (R314). imm: the 16-bit field. -/
  | ori (c wd wa imm : Nat)
  /-- XORI (R314). imm: the 16-bit field. -/
  | xori (c wd wa imm : Nat)
  /-- SLTI (R314). imm: the 16-bit field. -/
  | slti (c wd wa imm : Nat)
  /-- SLTIU (R314). imm: the 16-bit field. -/
  | sltiu (c wd wa imm : Nat)
  /-- LUI (R314). -/
  | lui (c wd imm : Nat)
  /-- LW (R317). -/
  | lw (c wd wa imm : Nat)
  /-- LH (R317). -/
  | lh (c wd wa imm : Nat)
  /-- LHU (R317). -/
  | lhu (c wd wa imm : Nat)
  /-- LB (R317). -/
  | lb (c wd wa imm : Nat)
  /-- LBU (R317). -/
  | lbu (c wd wa imm : Nat)
  /-- SW (R318). Wd is the stored register. -/
  | sw (c wd wa imm : Nat)
  /-- SH (R318). Wd is the stored register. -/
  | sh (c wd wa imm : Nat)
  /-- SB (R318). Wd is the stored register. -/
  | sb (c wd wa imm : Nat)
  /-- BEQ (R319). an, hi: bits 15 and 14; off: the 14-bit field. -/
  | beq (c wa wb an hi off : Nat)
  /-- BNE (R319). an, hi: bits 15 and 14; off: the 14-bit field. -/
  | bne (c wa wb an hi off : Nat)
  /-- BLT (R319). an, hi: bits 15 and 14; off: the 14-bit field. -/
  | blt (c wa wb an hi off : Nat)
  /-- BGE (R319). an, hi: bits 15 and 14; off: the 14-bit field. -/
  | bge (c wa wb an hi off : Nat)
  /-- BLTU (R319). an, hi: bits 15 and 14; off: the 14-bit field. -/
  | bltu (c wa wb an hi off : Nat)
  /-- BGEU (R319). an, hi: bits 15 and 14; off: the 14-bit field. -/
  | bgeu (c wa wb an hi off : Nat)
  /-- J (R319). off: the 26-bit field. -/
  | j (c off : Nat)
  /-- JAL (R319). off: the 26-bit field. -/
  | jal (c off : Nat)
  /-- JALR (R319). -/
  | jalr (c wd wa imm : Nat)
  /-- JALG (R362). -/
  | jalg (c wd wa imm : Nat)
  /-- MLD (R321). -/
  | mld (c wd wa imm : Nat)
  /-- MST (R321). -/
  | mst (c wd wa imm : Nat)
  /-- MLDD (R321). -/
  | mldd (c wd wa imm : Nat)
  /-- MSTD (R321). -/
  | mstd (c wd wa imm : Nat)
  /-- WAIT (R314). -/
  | wait (c : Nat)
  /-- ERET (R323). -/
  | eret (c : Nat)
  /-- MSYNC (R321). -/
  | msync (c : Nat)
  /-- CHECKIN (R326). -/
  | checkin (c : Nat)
  /-- TRAP (R322). -/
  | trap (c sh : Nat)
  /-- GATE (R361). -/
  | gate (c : Nat)
  /-- DI (R314). -/
  | di (c : Nat)
  /-- EI (R314). -/
  | ei (c : Nat)
  /-- ASSAYER_HANG (R371). -/
  | assayerHang
  /-- HOLD_LIMIT (R369). -/
  | holdLimit
  /-- STANDBY_READY (R372). -/
  | standbyReady
  /-- STANDBY_TIMEOUT (R372). -/
  | standbyTimeout
  /-- DEBUG_TOKEN_ACCEPT (R366). -/
  | debugTokenAccept
  /-- ZEROIZE_DONE (R367). -/
  | zeroizeDone
  /-- CLOSE_MARKER_WRITTEN (R415). -/
  | closeMarkerWritten (okA okB : Bool)
  /-- POWER_OFF (R415). -/
  | powerOff
  /-- GET_VERSION (R385). conn: 0 MCTP, 1 + g the DOE mailbox of group g. -/
  | getVersion (conn : Nat)
  /-- GET_CAPABILITIES (R385). conn: 0 MCTP, 1 + g the DOE mailbox of group g. -/
  | getCapabilities (conn : Nat)
  /-- NEGOTIATE_ALGORITHMS (R385). offered: the requester offers ECDSA P-384 and SHA-384. -/
  | negotiateAlgorithms (conn : Nat) (offered : Bool)
  /-- GET_DIGESTS (R385). conn: 0 MCTP, 1 + g the DOE mailbox of group g. -/
  | getDigests (conn : Nat)
  /-- GET_CERTIFICATE (R385). Part of a slot's certificate chain. -/
  | getCertificate (conn slot off len : Nat)
  /-- CHALLENGE (R385). The requester's nonce. -/
  | challenge (conn slot nonce : Nat)
  /-- GET_MEASUREMENTS (R385). index: 0xFF for every index. -/
  | getMeasurements (conn index nonce : Nat)
  /-- KEY_EXCHANGE (R385). secret: the requester's ephemeral key. -/
  | keyExchange (conn slot secret : Nat)
  /-- FINISH (R385). ok: the requester's verify data is right. -/
  | finish (conn session : Nat) (ok : Bool)
  /-- END_SESSION (R385). The session that ends. -/
  | endSession (conn session : Nat)
  /-- VENDOR_DEFINED_REQUEST (R385). Part of a record. -/
  | vendorDefinedRequest (conn vendor counter off len : Nat)
  /-- IDCODE (R437). -/
  | idcode
  /-- SAMPLE_PRELOAD (R437). -/
  | samplePreload
  /-- EXTEST (R438). -/
  | extest
  /-- CLAMP (R438). -/
  | clamp
  /-- HIGHZ (R438). -/
  | highz
  /-- DZ_TOKEN (R366). The token presented. -/
  | dzToken (t : Token)
  /-- DZ_MBX (R354). A store to page 259 at offset off. -/
  | dzMbx (off size v : Nat)
  /-- DZ_DEBUG (R437). -/
  | dzDebug
  /-- DZ_ASSAYER (R437). -/
  | dzAssayer
  /-- BYPASS (R437). -/
  | bypass
  /-- DROWSE_GATE_START (R400). -/
  | drowseGateStart (pair : Nat)
  /-- DROWSE_GATE_DONE (R400). -/
  | drowseGateDone (pair : Nat)
  /-- GATED_PAIR_WAKE (R401). -/
  | gatedPairWake (pair : Nat)
  /-- IDLE_TIMER_EXPIRY (R410). -/
  | idleTimerExpiry
  /-- SLEEP_REQUEST (R403). -/
  | sleepRequest
  /-- DORMANT_DRAINS_DONE (R403). subNs: time from the last boundary to cycle L; phase: reference cycles from cycle L to the
  next oscillator edge (R48). -/
  | dormantDrainsDone (subNs phase : Nat)
  /-- I3C_WAKE_MATCH (R406). -/
  | i3cWakeMatch (tile addr : Nat)
  /-- WAKE_REFERENCE_GOOD (R408). ticks: oscillator periods counted across Dormant; phase: reference cycles from the first good
  reference edge to the first oscillator edge (R48). -/
  | wakeReferenceGood (ticks phase : Nat) (refA refB : Bool)
  /-- WAKE_COMPLETE (R408). badImages: harts whose image is uncorrectable in both stores. -/
  | wakeComplete (badImages : List Nat) (wakeUs : Nat)
  /-- PWR_PADS_RELEASE (R405). -/
  | pwrPadsRelease (mask : Nat)
  /-- TEST_END (R429). -/
  | testEnd (id : Nat) (r : TestRep)
  /-- LOOPBACK_FOLLOW (R434). -/
  | loopbackFollow (k : Nat)
  /-- INJECTION_EXPIRY (R436). Target 1 pair, 2 slice, 3 channel. -/
  | injectionExpiry (target unit : Nat)
  /-- REGISTER_WRITE (R13). A store by the Clerk or the Assayer. -/
  | registerWrite (asr : Bool) (off size v : Nat)
  /-- INVENTORY_LIST (R356). The mailbox whose taken command is carried out. -/
  | inventoryList (mbx : Nat)
  /-- POWER_STATUS (R414). The mailbox whose taken command is carried out. -/
  | powerStatus (mbx : Nat)
  /-- POWER_STATE (R415). The mailbox whose taken command is carried out. -/
  | powerState (mbx : Nat)
  /-- POWER_DOMAIN (R414). The mailbox whose taken command is carried out. -/
  | powerDomain (mbx : Nat)
  /-- POWER_DORMANT (R402). The mailbox whose taken command is carried out. -/
  | powerDormant (mbx : Nat)
  /-- POWER_IDLE (R410). The mailbox whose taken command is carried out. -/
  | powerIdle (mbx : Nat)
  /-- POWER_TDP (R414). The mailbox whose taken command is carried out. -/
  | powerTdp (mbx : Nat)
  /-- POWER_PADS (R405). The mailbox whose taken command is carried out. -/
  | powerPads (mbx : Nat)
  /-- TENANT_CREATE (R211). The mailbox whose taken command is carried out. -/
  | tenantCreate (mbx : Nat)
  /-- TENANT_GRANT (R207). The mailbox whose taken command is carried out. -/
  | tenantGrant (mbx : Nat)
  /-- TENANT_ASSIGN (R208). The mailbox whose taken command is carried out. -/
  | tenantAssign (mbx : Nat)
  /-- TENANT_LOAD (R211). The mailbox whose taken command is carried out. -/
  | tenantLoad (mbx : Nat)
  /-- TENANT_SEAL (R218). The mailbox whose taken command is carried out. -/
  | tenantSeal (mbx : Nat)
  /-- TENANT_UNSEAL (R220). The mailbox whose taken command is carried out. -/
  | tenantUnseal (mbx : Nat)
  /-- TENANT_REKEY (R213). The mailbox whose taken command is carried out. -/
  | tenantRekey (mbx : Nat)
  /-- TENANT_START (R221). The mailbox whose taken command is carried out. -/
  | tenantStart (mbx : Nat)
  /-- TENANT_CLOSE (R212). The mailbox whose taken command is carried out. -/
  | tenantClose (mbx : Nat)
  /-- TENANT_STATUS (R227). The mailbox whose taken command is carried out. -/
  | tenantStatus (mbx : Nat)
  /-- CORE_MODE (R84). The mailbox whose taken command is carried out. -/
  | coreMode (mbx : Nat)
  /-- CORE_START (R110). The mailbox whose taken command is carried out. -/
  | coreStart (mbx : Nat)
  /-- CORE_PARK (R110). The mailbox whose taken command is carried out. -/
  | corePark (mbx : Nat)
  /-- CORE_STATUS (R110). The mailbox whose taken command is carried out. -/
  | coreStatus (mbx : Nat)
  /-- CORE_REQUALIFY (R82). The mailbox whose taken command is carried out. -/
  | coreRequalify (mbx : Nat)
  /-- CORE_POLICY (R105). The mailbox whose taken command is carried out. -/
  | corePolicy (mbx : Nat)
  /-- MEM_STATUS (R201). The mailbox whose taken command is carried out. -/
  | memStatus (mbx : Nat)
  /-- MEM_SCRUB (R196). The mailbox whose taken command is carried out. -/
  | memScrub (mbx : Nat)
  /-- MEM_CLEAR (R201). The mailbox whose taken command is carried out. -/
  | memClear (mbx : Nat)
  /-- MEM_REPAIR (R194). The mailbox whose taken command is carried out. -/
  | memRepair (mbx : Nat)
  /-- MEM_SPARE (R191). The mailbox whose taken command is carried out. -/
  | memSpare (mbx : Nat)
  /-- MEM_FLIP (R199). The mailbox whose taken command is carried out. -/
  | memFlip (mbx : Nat)
  /-- CACHE_LOCK (R123). The mailbox whose taken command is carried out. -/
  | cacheLock (mbx : Nat)
  /-- CACHE_UNLOCK (R124). The mailbox whose taken command is carried out. -/
  | cacheUnlock (mbx : Nat)
  /-- CACHE_SLICE (R128). The mailbox whose taken command is carried out. -/
  | cacheSlice (mbx : Nat)
  /-- CACHE_STATUS (R138). The mailbox whose taken command is carried out. -/
  | cacheStatus (mbx : Nat)
  /-- FABRIC_STATUS (R264). The mailbox whose taken command is carried out. -/
  | fabricStatus (mbx : Nat)
  /-- FABRIC_ROUTE (R264). The mailbox whose taken command is carried out. -/
  | fabricRoute (mbx : Nat)
  /-- FABRIC_PORT (R264). The mailbox whose taken command is carried out. -/
  | fabricPort (mbx : Nat)
  /-- FABRIC_GRANT (R253). The mailbox whose taken command is carried out. -/
  | fabricGrant (mbx : Nat)
  /-- FABRIC_SHARE (R255). The mailbox whose taken command is carried out. -/
  | fabricShare (mbx : Nat)
  /-- PORT_STATUS (R293). The mailbox whose taken command is carried out. -/
  | portStatus (mbx : Nat)
  /-- PORT_CONFIG (R291). The mailbox whose taken command is carried out. -/
  | portConfig (mbx : Nat)
  /-- PORT_ASSIGN (R274). The mailbox whose taken command is carried out. -/
  | portAssign (mbx : Nat)
  /-- PORT_EP (R280). The mailbox whose taken command is carried out. -/
  | portEp (mbx : Nat)
  /-- PORT_CXLGRANT (R281). The mailbox whose taken command is carried out. -/
  | portCxlgrant (mbx : Nat)
  /-- DMA_ASSIGN (R295). The mailbox whose taken command is carried out. -/
  | dmaAssign (mbx : Nat)
  /-- DMA_STATUS (R310). The mailbox whose taken command is carried out. -/
  | dmaStatus (mbx : Nat)
  /-- RAS_READ (R358). The mailbox whose taken command is carried out. -/
  | rasRead (mbx : Nat)
  /-- TIME_GET (R357). The mailbox whose taken command is carried out. -/
  | timeGet (mbx : Nat)
  /-- TIME_SET (R357). The mailbox whose taken command is carried out. -/
  | timeSet (mbx : Nat)
  /-- DAYBOOK_STATUS (R387). The mailbox whose taken command is carried out. -/
  | daybookStatus (mbx : Nat)
  /-- DAYBOOK_READ (R387). The mailbox whose taken command is carried out. -/
  | daybookRead (mbx : Nat)
  /-- DAYBOOK_ATTEST (R386). The mailbox whose taken command is carried out. -/
  | daybookAttest (mbx : Nat)
  /-- TEST_LOOPBACK (R433). The mailbox whose taken command is carried out. -/
  | testLoopback (mbx : Nat)
  /-- TEST_BIST (R435). The mailbox whose taken command is carried out. -/
  | testBist (mbx : Nat)
  /-- TEST_INJECT (R436). The mailbox whose taken command is carried out. -/
  | testInject (mbx : Nat)
  /-- TEST_STATUS (R439). The mailbox whose taken command is carried out. -/
  | testStatus (mbx : Nat)
  /-- MAIN_CORE_WFI (R399). -/
  | mainCoreWfi (h : Nat)
  /-- CXL_MEM_RESPONSE (R282). -/
  | cxlMemResponse (xid data : Nat) (poison : Bool)
  /-- LOOPBACK_REQUEST_STOP (R434). -/
  | loopbackRequestStop (k : Nat)
  /-- PERST_INPUT (R445). low: the level that PERSTg_N takes. -/
  | perstInput (g : Nat) (low : Bool)
  deriving DecidableEq, Repr

end Sys2Proof
end

