-- ==== Sys2Proof/Decode.lean ====
section
/-! DEFINITION. Decode.lean: the command a word spells. No row of spec/opcode_table.json gives bits, so no word
spells a command. -/
namespace Sys2Proof

/-- The command spelled by the nbits-wide word w: none, for every word. -/
def decodeTableWord (_nbits _w : Nat) : Option Instr := none

end Sys2Proof
end

