-- ==== Sys2Proof/Machine/Aes.lean ====
section
/-! DEFINITION. Machine/Aes.lean: the AES-256 block cipher that R176 and R177 name, as FIPS 197 gives it. A block is a number of
16 bytes and a key one of 32, byte 0 in the low bits (log entry 9). -/
namespace Sys2Proof.Machine

/-! ## Bytes as elements of GF(2^8) -/

/-- Times x modulo x^8 + x^4 + x^3 + x + 1. -/
def gfDouble (b : Nat) : Nat := b * 2 % 256 ^^^ (if 128 ≤ b % 256 then 0x1B else 0)

/-- Product of two bytes, by the low n bits of the second. -/
def gfMulBits (a b : Nat) : Nat → Nat
  | 0 => 0
  | n + 1 => (if b % 2 = 1 then a else 0) ^^^ gfMulBits (gfDouble a) (b / 2) n

def gfMul (a b : Nat) : Nat := gfMulBits (a % 256) b 8

/-- a^(2^n - 1). -/
def gfOnes (a : Nat) : Nat → Nat
  | 0 => 1
  | n + 1 => gfMul a (gfMul (gfOnes a n) (gfOnes a n))

/-- The inverse, a^254; 0 gives 0. -/
def gfInv (a : Nat) : Nat := gfMul (gfOnes a 7) (gfOnes a 7)

/-- A byte rotated left by n places. -/
def rotByte (b n : Nat) : Nat := b * 2 ^ n % 256 + b * 2 ^ n / 256

/-- The S-box: the inverse, then the affine map. -/
def subByte (b : Nat) : Nat :=
  let v := gfInv (b % 256)
  v ^^^ rotByte v 1 ^^^ rotByte v 2 ^^^ rotByte v 3 ^^^ rotByte v 4 ^^^ 0x63

/-- The inverse S-box: the inverse affine map, then the inverse. -/
def subByteInv (b : Nat) : Nat := gfInv (rotByte (b % 256) 1 ^^^ rotByte (b % 256) 3 ^^^ rotByte (b % 256) 6 ^^^ 0x05)

/-! ## Words and the key schedule -/

/-- Byte i of a number. -/
def byteNo (v i : Nat) : Nat := v / 2 ^ (8 * i) % 256

/-- n bytes, each by f of its index, as a number. -/
def joinBytes (n : Nat) (f : Nat → Nat) : Nat := ((List.range n).map fun i => f i * 2 ^ (8 * i)).sum

def subWord (w : Nat) : Nat := joinBytes 4 fun i => subByte (byteNo w i)
def rotWord (w : Nat) : Nat := joinBytes 4 fun i => byteNo w ((i + 1) % 4)

/-- Round constant i of the key expansion. -/
def rcon : Nat → Nat
  | 0 => 1
  | n + 1 => gfDouble (rcon n)

/-- Word i of the schedule, from the words before it in reverse order. -/
def nextWord (ws : List Nat) (i : Nat) : Nat :=
  let prev := (ws[0]?).getD 0
  let t := if i % 8 = 0 then subWord (rotWord prev) ^^^ rcon (i / 8 - 1) else if i % 8 = 4 then subWord prev else prev
  (ws[7]?).getD 0 ^^^ t

/-- The 60 words of the schedule of a 256-bit key. -/
def keyWords (key : Nat) : List Nat :=
  ((List.range 52).foldl (fun ws i => nextWord ws (i + 8) :: ws)
    ((List.range 8).map fun i => key / 2 ^ (32 * i) % 2 ^ 32).reverse).reverse

/-- The round keys, 0 to 14. -/
def roundKey (ws : List Nat) (r : Nat) : Nat := ((List.range 4).map fun c => (ws[4 * r + c]?).getD 0 * 2 ^ (32 * c)).sum

/-! ## Rounds; byte r + 4c of a block is row r of column c -/

def subBytes (f : Nat → Nat) (b : Nat) : Nat := joinBytes 16 fun i => f (byteNo b i)
def shiftRows (b : Nat) : Nat := joinBytes 16 fun i => byteNo b ((i + 4 * (i % 4)) % 16)
def shiftRowsInv (b : Nat) : Nat := joinBytes 16 fun i => byteNo b ((i + 16 - 4 * (i % 4)) % 16)

/-- Each column times the matrix whose first row is m. -/
def mixBy (m : List Nat) (b : Nat) : Nat :=
  joinBytes 16 fun i => ((List.range 4).map fun j => gfMul ((m[(j + 4 - i % 4) % 4]?).getD 0) (byteNo b (i / 4 * 4 + j))).foldl (· ^^^ ·) 0

def mixColumns (b : Nat) : Nat := mixBy [2, 3, 1, 1] b
def mixColumnsInv (b : Nat) : Nat := mixBy [14, 11, 13, 9] b

/-- AES-256 on one block. -/
def aes256 (key block : Nat) : Nat :=
  let ws := keyWords key
  let b := (List.range 13).foldl (fun x r => mixColumns (shiftRows (subBytes subByte x)) ^^^ roundKey ws (r + 1))
    (block % 2 ^ 128 ^^^ roundKey ws 0)
  shiftRows (subBytes subByte b) ^^^ roundKey ws 14

/-- The inverse of AES-256 on one block. -/
def aes256Inv (key block : Nat) : Nat :=
  let ws := keyWords key
  let b := (List.range 13).foldl (fun x r => mixColumnsInv (subBytes subByteInv (shiftRowsInv x) ^^^ roundKey ws (13 - r)))
    (block % 2 ^ 128 ^^^ roundKey ws 14)
  subBytes subByteInv (shiftRowsInv b) ^^^ roundKey ws 0

end Sys2Proof.Machine
end

