-- ==== Sys2Proof/Config.lean ====
section
/-! DEFINITION. Config.lean: what the model leaves free. Each constant is opaque: no proof can see a value of it.
Hashes, key derivation and signatures are published standards that spec/ names and does not restate (log entry 9); mix64,
fold and rotate of R61 are named and not given (log entry 10); free values stand for every value spec/ leaves open
(log entry 8). -/
namespace Sys2Proof

/-- The n-th value the spec leaves open (log entry 8). -/
opaque Config.freeNat : Nat → Nat
/-- Bits of the keys of a tenancy's generation, drawn at random: data key 0, tweak key 1, tag key 2 (R178). -/
opaque Config.keyBits : Nat → Nat → Nat
/-- Bits of a link's key of one direction, agreed with ML-KEM-1024 (R230). -/
opaque Config.linkKey : Nat → Nat
/-- Bytes 8 to 119 of a flit of packets: which bytes of its slots a packet's fields take, the spec does not say (Table 9.3). -/
opaque Config.slotBytes : List Pkt → Nat
/-- Bytes 8 to 119 of a link-state notice: device, port and switch boundary (R257). -/
opaque Config.noticeBytes : Nat → Nat → Nat → Nat
/-- Bytes 8 to 119 of a part of keying (R230). -/
opaque Config.keyingBytes : Nat → Nat
/-- SHA-384 of a byte string, as a number (R211, R384, R386). -/
opaque Config.sha384 : List Nat → Nat
/-- HKDF: a key derived from a secret and a label (R363, R365). -/
opaque Config.hkdf : Nat → Nat → Nat
/-- The Assayer's hybrid signature over a byte string under a key (R384, R386). -/
opaque Config.sign : Nat → List Nat → Nat
/-- Public half of a key pair, as the bytes that R383 and R366 hash. -/
opaque Config.publicKey : Nat → List Nat
/-- The Alias endorsement, whose layout the spec does not give (Table 14.3). -/
opaque Config.endorsement : Nat → List Nat
/-- Version and SVN of the Assayer ROM, component 0x00 (R375). -/
opaque Config.romComp : Nat → Nat
/-- The certificate chain of SPDM slot 0 (R385). -/
opaque Config.certChain : Nat → List Nat
/-- mix64 of R61. -/
opaque Config.mix64 : Nat → Nat
/-- fold(history, length, width) of R61. -/
opaque Config.fold : Nat → Nat → Nat → Nat
/-- rotate(key, n) of R61. -/
opaque Config.rotate : Nat → Nat → Nat
/-- How the indirect predictor folds the fetch address and its path history of targets (Table 3.6). -/
opaque Config.targetFold : List Nat → Nat
/-- What a function's configuration space holds at a doubleword that the spec does not describe: group * 65536 + device ID, or 65535 for
the function that the group presents to its far end, and offset (R267, R269, R279). -/
opaque Config.funcConfig : Nat → Nat → Nat
/-- Where a function's configuration space places the capability structure of an ID: the function's own (R273, R278). -/
opaque Config.capOffset : Nat → Nat → Nat
/-- The completion timeout that a port takes within the range that its Device Control 2 code selects (R278). -/
opaque Config.ctoPlace : Nat → Nat
/-- Room that a fabric port has for packets of a VC; the spec gives none (R245, Table 9.3). -/
opaque Config.vcRoom : Nat → Nat
/-- Set of a line in a slice's fabric directory; the spec gives 4,096 sets and no index (R249). -/
opaque Config.fabSet : Nat → Nat
/-- The hops field of a route entry whose destination has no route (R241). -/
opaque Config.noRouteHops : Nat
/-- Which of its tile's sensors is nearest to a domain (Table 16.5); the spec gives no places. -/
opaque Config.nearSensor : Nat → Nat
/-- A byte of the Assayer's ROM (R360). -/
opaque Config.assayerRom : Nat → Nat
/-- Power of a pair at a frequency in 100 MHz units, in mW; the spec gives no figure (R395). -/
opaque Config.pairMw : Nat → Nat → Nat

end Sys2Proof
end

