-- ==== Sys2Proof/Machine/Regs.lean ====
section
/-! DEFINITION. Machine/Regs.lean: one descriptor per register field of the register tables of spec/ (R53, R109, R137,
R173, R200, R263, R292, R309, R325, R355, R413 and Table 3.10), the units present in each variant (R2) and the map from
a window offset to the fields that stand there (R27). Reserved bits have no descriptor: they read as zero (R15). -/
namespace Sys2Proof.Machine

/-- Window offset of DMA channel d (0-31 engine N, 32-63 engine S), Table 1.5. -/
def dmaBase (d : Nat) : Nat := 0x500000 + (d / 32) * 0x20000 + (d % 32) * 0x1000

/-- CLK_BEAT.beat, Table of R53 (RO). -/
def clkBeatBeat : Fld := .mk (0x0) 0 64 0x0 .ro
/-- CLK_TIME.time_ns, Table of R53 (RO). -/
def clkTimeTimeNs : Fld := .mk (0x8) 0 64 0x0 .ro
/-- CLK_STATUS.ref_sel, Table of R53 (RO). -/
def clkStatusRefSel : Fld := .mk (0x10) 0 1 0x0 .ro
/-- CLK_STATUS.refa_ok, Table of R53 (RO). -/
def clkStatusRefaOk : Fld := .mk (0x10) 1 1 0x0 .ro
/-- CLK_STATUS.refb_ok, Table of R53 (RO). -/
def clkStatusRefbOk : Fld := .mk (0x10) 2 1 0x0 .ro
/-- CLK_STATUS.holdover, Table of R53 (RO). -/
def clkStatusHoldover : Fld := .mk (0x10) 3 1 0x0 .ro
/-- CLK_STATUS.beat_master, Table of R53 (RO). -/
def clkStatusBeatMaster : Fld := .mk (0x10) 4 1 0x0 .ro
/-- CLK_STATUS.fab_aligned, Table of R53 (RO). -/
def clkStatusFabAligned : Fld := .mk (0x10) 5 1 0x0 .ro
/-- CLK_STATUS.slewing, Table of R53 (RO). -/
def clkStatusSlewing : Fld := .mk (0x10) 6 1 0x0 .ro
/-- CLK_STATUS.ao_source, Table of R53 (RO). -/
def clkStatusAoSource : Fld := .mk (0x10) 7 1 0x0 .ro
/-- CLK_STATUS.captain, Table of R53 (RO). -/
def clkStatusCaptain : Fld := .mk (0x10) 8 1 0x0 .ro
/-- CLK_FAB_BEAT_OFFSET.offset, Table of R53 (RO). -/
def clkFabBeatOffsetOffset : Fld := .mk (0x18) 0 64 0x0 .ro
/-- CLK_FAB_ALIGN.err_ns, Table of R53 (RO). -/
def clkFabAlignErrNs : Fld := .mk (0x20) 0 16 0x0 .ro
/-- CLK_FAB_ALIGN.max_err_ns, Table of R53 (RO). -/
def clkFabAlignMaxErrNs : Fld := .mk (0x20) 16 16 0x0 .ro
/-- CLK_SLEW_REMAIN.lead_ns, Table of R53 (RO). -/
def clkSlewRemainLeadNs : Fld := .mk (0x28) 0 64 0x0 .ro
/-- CLK_WAKE_INTERVAL.interval_ns, Table of R53 (RO). -/
def clkWakeIntervalIntervalNs : Fld := .mk (0x30) 0 64 0x0 .ro
/-- CLK_WAKE_UNCERT.uncert_ns, Table of R53 (RO). -/
def clkWakeUncertUncertNs : Fld := .mk (0x38) 0 64 0x0 .ro
/-- CLK_UNCERT_TOTAL.total_ns, Table of R53 (RO). -/
def clkUncertTotalTotalNs : Fld := .mk (0x40) 0 64 0x0 .ro
/-- CLK_WAKE_COUNT.wakes, Table of R53 (RO). -/
def clkWakeCountWakes : Fld := .mk (0x48) 0 32 0x0 .ro
/-- CLK_CTRL.ref_pref, Table of R53 (RW). -/
def clkCtrlRefPref : Fld := .mk (0x50) 0 1 0x0 .rw
/-- CLK_CTRL.ao_force_rc, Table of R53 (RW). -/
def clkCtrlAoForceRc : Fld := .mk (0x50) 1 1 0x0 .rw
/-- CLK_RC_TRIM.period_fs, Table of R53 (RW). -/
def clkRcTrimPeriodFs : Fld := .mk (0x58) 0 32 0x1DCD6500 .rw
/-- PAIR_STATUS.state, Table of R109 (RO). -/
def pairStatusState (p : Nat) : Fld := .mk (0x100000 + p * 0x1000 + 0x0) 0 4 0x0 .ro
/-- PAIR_STATUS.slot, Table of R109 (RO). -/
def pairStatusSlot (p : Nat) : Fld := .mk (0x100000 + p * 0x1000 + 0x0) 4 7 0x0 .ro
/-- PAIR_STATUS.slot_valid, Table of R109 (RO). -/
def pairStatusSlotValid (p : Nat) : Fld := .mk (0x100000 + p * 0x1000 + 0x0) 11 1 0x0 .ro
/-- PAIR_STATUS.core_a_failed, Table of R109 (RWS). -/
def pairStatusCoreAFailed (p : Nat) : Fld := .mk (0x100000 + p * 0x1000 + 0x0) 12 1 0x0 .rws
/-- PAIR_STATUS.core_b_failed, Table of R109 (RWS). -/
def pairStatusCoreBFailed (p : Nat) : Fld := .mk (0x100000 + p * 0x1000 + 0x0) 13 1 0x0 .rws
/-- PAIR_CTRL.mode, Table of R109 (RW). -/
def pairCtrlMode (p : Nat) : Fld := .mk (0x100000 + p * 0x1000 + 0x8) 0 1 0x1 .rw
/-- PAIR_CTRL.inject_b, Table of R109 (WO). -/
def pairCtrlInjectB (p : Nat) : Fld := .mk (0x100000 + p * 0x1000 + 0x8) 1 1 0x0 .wo
/-- PAIR_OWNER.owner_a, Table of R109 (RW). -/
def pairOwnerOwnerA (p : Nat) : Fld := .mk (0x100000 + p * 0x1000 + 0x10) 0 9 0x0 .rw
/-- PAIR_OWNER.owner_b, Table of R109 (RW). -/
def pairOwnerOwnerB (p : Nat) : Fld := .mk (0x100000 + p * 0x1000 + 0x10) 9 9 0x0 .rw
/-- PAIR_CMP_STATUS.mismatch, Table of R109 (W1C). -/
def pairCmpStatusMismatch (p : Nat) : Fld := .mk (0x100000 + p * 0x1000 + 0x18) 0 1 0x0 .w1c
/-- PAIR_CMP_STATUS.bus, Table of R109 (RO). -/
def pairCmpStatusBus (p : Nat) : Fld := .mk (0x100000 + p * 0x1000 + 0x18) 1 3 0x0 .ro
/-- PAIR_CMP_STATUS.bit, Table of R109 (RO). -/
def pairCmpStatusBit (p : Nat) : Fld := .mk (0x100000 + p * 0x1000 + 0x18) 4 9 0x0 .ro
/-- PAIR_CMP_STATUS.cause, Table of R109 (RO). -/
def pairCmpStatusCause (p : Nat) : Fld := .mk (0x100000 + p * 0x1000 + 0x18) 13 3 0x0 .ro
/-- PAIR_CMP_BEAT.beat, Table of R109 (RO). -/
def pairCmpBeatBeat (p : Nat) : Fld := .mk (0x100000 + p * 0x1000 + 0x20) 0 64 0x0 .ro
/-- PAIR_SUMMARY.compared, Table of R109 (RO). -/
def pairSummaryCompared (p : Nat) : Fld := .mk (0x100000 + p * 0x1000 + 0x28) 0 32 0x0 .ro
/-- PAIR_SUMMARY.corrected_a, Table of R109 (RO). -/
def pairSummaryCorrectedA (p : Nat) : Fld := .mk (0x100000 + p * 0x1000 + 0x28) 32 8 0x0 .ro
/-- PAIR_SUMMARY.corrected_b, Table of R109 (RO). -/
def pairSummaryCorrectedB (p : Nat) : Fld := .mk (0x100000 + p * 0x1000 + 0x28) 40 8 0x0 .ro
/-- PAIR_ERRLAT_A.l1i_par, Table of R109 (W1C). -/
def pairErrlatAL1iPar (p : Nat) : Fld := .mk (0x100000 + p * 0x1000 + 0x30) 0 1 0x0 .w1c
/-- PAIR_ERRLAT_B.l1i_par, Table of R109 (W1C). -/
def pairErrlatBL1iPar (p : Nat) : Fld := .mk (0x100000 + p * 0x1000 + 0x38) 0 1 0x0 .w1c
/-- PAIR_ERRLAT_A.l1d_ecc_ue, Table of R109 (W1C). -/
def pairErrlatAL1dEccUe (p : Nat) : Fld := .mk (0x100000 + p * 0x1000 + 0x30) 1 1 0x0 .w1c
/-- PAIR_ERRLAT_B.l1d_ecc_ue, Table of R109 (W1C). -/
def pairErrlatBL1dEccUe (p : Nat) : Fld := .mk (0x100000 + p * 0x1000 + 0x38) 1 1 0x0 .w1c
/-- PAIR_ERRLAT_A.l1d_tag_par, Table of R109 (W1C). -/
def pairErrlatAL1dTagPar (p : Nat) : Fld := .mk (0x100000 + p * 0x1000 + 0x30) 2 1 0x0 .w1c
/-- PAIR_ERRLAT_B.l1d_tag_par, Table of R109 (W1C). -/
def pairErrlatBL1dTagPar (p : Nat) : Fld := .mk (0x100000 + p * 0x1000 + 0x38) 2 1 0x0 .w1c
/-- PAIR_ERRLAT_A.l2_ecc_ue, Table of R109 (W1C). -/
def pairErrlatAL2EccUe (p : Nat) : Fld := .mk (0x100000 + p * 0x1000 + 0x30) 3 1 0x0 .w1c
/-- PAIR_ERRLAT_B.l2_ecc_ue, Table of R109 (W1C). -/
def pairErrlatBL2EccUe (p : Nat) : Fld := .mk (0x100000 + p * 0x1000 + 0x38) 3 1 0x0 .w1c
/-- PAIR_ERRLAT_A.l2_tag_par, Table of R109 (W1C). -/
def pairErrlatAL2TagPar (p : Nat) : Fld := .mk (0x100000 + p * 0x1000 + 0x30) 4 1 0x0 .w1c
/-- PAIR_ERRLAT_B.l2_tag_par, Table of R109 (W1C). -/
def pairErrlatBL2TagPar (p : Nat) : Fld := .mk (0x100000 + p * 0x1000 + 0x38) 4 1 0x0 .w1c
/-- PAIR_ERRLAT_A.rf_ecc_ue, Table of R109 (W1C). -/
def pairErrlatARfEccUe (p : Nat) : Fld := .mk (0x100000 + p * 0x1000 + 0x30) 5 1 0x0 .w1c
/-- PAIR_ERRLAT_B.rf_ecc_ue, Table of R109 (W1C). -/
def pairErrlatBRfEccUe (p : Nat) : Fld := .mk (0x100000 + p * 0x1000 + 0x38) 5 1 0x0 .w1c
/-- PAIR_ERRLAT_A.queue_par, Table of R109 (W1C). -/
def pairErrlatAQueuePar (p : Nat) : Fld := .mk (0x100000 + p * 0x1000 + 0x30) 6 1 0x0 .w1c
/-- PAIR_ERRLAT_B.queue_par, Table of R109 (W1C). -/
def pairErrlatBQueuePar (p : Nat) : Fld := .mk (0x100000 + p * 0x1000 + 0x38) 6 1 0x0 .w1c
/-- PAIR_ERRLAT_A.tlb_par, Table of R109 (W1C). -/
def pairErrlatATlbPar (p : Nat) : Fld := .mk (0x100000 + p * 0x1000 + 0x30) 7 1 0x0 .w1c
/-- PAIR_ERRLAT_B.tlb_par, Table of R109 (W1C). -/
def pairErrlatBTlbPar (p : Nat) : Fld := .mk (0x100000 + p * 0x1000 + 0x38) 7 1 0x0 .w1c
/-- PAIR_ERRLAT_A.test, Table of R109 (W1C). -/
def pairErrlatATest (p : Nat) : Fld := .mk (0x100000 + p * 0x1000 + 0x30) 8 1 0x0 .w1c
/-- PAIR_ERRLAT_B.test, Table of R109 (W1C). -/
def pairErrlatBTest (p : Nat) : Fld := .mk (0x100000 + p * 0x1000 + 0x38) 8 1 0x0 .w1c
/-- PAIR_ERRLAT_A.corrected, Table of R109 (RO). -/
def pairErrlatACorrected (p : Nat) : Fld := .mk (0x100000 + p * 0x1000 + 0x30) 16 16 0x0 .ro
/-- PAIR_ERRLAT_B.corrected, Table of R109 (RO). -/
def pairErrlatBCorrected (p : Nat) : Fld := .mk (0x100000 + p * 0x1000 + 0x38) 16 16 0x0 .ro
/-- PAIR_DECISION.step, Table of R109 (RO). -/
def pairDecisionStep (p : Nat) : Fld := .mk (0x100000 + p * 0x1000 + 0x40) 0 2 0x0 .ro
/-- PAIR_DECISION.outcome, Table of R109 (RO). -/
def pairDecisionOutcome (p : Nat) : Fld := .mk (0x100000 + p * 0x1000 + 0x40) 2 3 0x0 .ro
/-- PAIR_DECISION.pass, Table of R109 (RO). -/
def pairDecisionPass (p : Nat) : Fld := .mk (0x100000 + p * 0x1000 + 0x40) 5 4 0x0 .ro
/-- PAIR_DECISION.beats, Table of R109 (RO). -/
def pairDecisionBeats (p : Nat) : Fld := .mk (0x100000 + p * 0x1000 + 0x40) 16 8 0x0 .ro
/-- PAIR_SPARE.to_pair, Table of R109 (RO). -/
def pairSpareToPair (p : Nat) : Fld := .mk (0x100000 + p * 0x1000 + 0x48) 0 8 0x0 .ro
/-- PAIR_SPARE.from_pair, Table of R109 (RO). -/
def pairSpareFromPair (p : Nat) : Fld := .mk (0x100000 + p * 0x1000 + 0x48) 8 8 0x0 .ro
/-- PAIR_SPARE.resume_beats, Table of R109 (RO). -/
def pairSpareResumeBeats (p : Nat) : Fld := .mk (0x100000 + p * 0x1000 + 0x48) 16 16 0x0 .ro
/-- PAIR_SPARE.borrowed, Table of R109 (RO). -/
def pairSpareBorrowed (p : Nat) : Fld := .mk (0x100000 + p * 0x1000 + 0x48) 32 1 0x0 .ro
/-- PAIR_COUNT.mismatches, Table of R109 (RWS). -/
def pairCountMismatches (p : Nat) : Fld := .mk (0x100000 + p * 0x1000 + 0x50) 0 16 0x0 .rws
/-- PAIR_COUNT.undecided, Table of R109 (RWS). -/
def pairCountUndecided (p : Nat) : Fld := .mk (0x100000 + p * 0x1000 + 0x50) 16 16 0x0 .rws
/-- LLC_STATUS.state, Table of R137 (RO). -/
def llcStatusState (s : Nat) : Fld := .mk (0x200000 + s * 0x1000 + 0x0) 0 3 0x0 .ro
/-- LLC_STATUS.fenced, Table of R137 (RO). -/
def llcStatusFenced (s : Nat) : Fld := .mk (0x200000 + s * 0x1000 + 0x0) 3 1 0x0 .ro
/-- LLC_STATUS.cause, Table of R137 (RO). -/
def llcStatusCause (s : Nat) : Fld := .mk (0x200000 + s * 0x1000 + 0x0) 4 4 0x0 .ro
/-- LLC_STATUS.buckets, Table of R137 (RO). -/
def llcStatusBuckets (s : Nat) : Fld := .mk (0x200000 + s * 0x1000 + 0x0) 8 13 0x0 .ro
/-- LLC_ERR_COUNT.data_ce, Table of R137 (RWS). -/
def llcErrCountDataCe (s : Nat) : Fld := .mk (0x200000 + s * 0x1000 + 0x8) 0 16 0x0 .rws
/-- LLC_ERR_COUNT.data_ue, Table of R137 (RWS). -/
def llcErrCountDataUe (s : Nat) : Fld := .mk (0x200000 + s * 0x1000 + 0x8) 16 16 0x0 .rws
/-- LLC_ERR_COUNT.tag_err, Table of R137 (RWS). -/
def llcErrCountTagErr (s : Nat) : Fld := .mk (0x200000 + s * 0x1000 + 0x8) 32 16 0x0 .rws
/-- LLC_ERR_COUNT.dir_err, Table of R137 (RWS). -/
def llcErrCountDirErr (s : Nat) : Fld := .mk (0x200000 + s * 0x1000 + 0x8) 48 16 0x0 .rws
/-- LLC_ERR_LAST.set, Table of R137 (RO). -/
def llcErrLastSet (s : Nat) : Fld := .mk (0x200000 + s * 0x1000 + 0x10) 0 11 0x0 .ro
/-- LLC_ERR_LAST.way, Table of R137 (RO). -/
def llcErrLastWay (s : Nat) : Fld := .mk (0x200000 + s * 0x1000 + 0x10) 11 5 0x0 .ro
/-- LLC_ERR_LAST.tenancy, Table of R137 (RO). -/
def llcErrLastTenancy (s : Nat) : Fld := .mk (0x200000 + s * 0x1000 + 0x10) 16 9 0x0 .ro
/-- LLC_ERR_LAST.kind, Table of R137 (RO). -/
def llcErrLastKind (s : Nat) : Fld := .mk (0x200000 + s * 0x1000 + 0x10) 25 4 0x0 .ro
/-- LLC_ERR_LAST.beat, Table of R137 (RO). -/
def llcErrLastBeat (s : Nat) : Fld := .mk (0x200000 + s * 0x1000 + 0x10) 32 32 0x0 .ro
/-- LLC_DRAIN.lines_left, Table of R137 (RO). -/
def llcDrainLinesLeft (s : Nat) : Fld := .mk (0x200000 + s * 0x1000 + 0x18) 0 32 0x0 .ro
/-- LLC_DRAIN.victims_left, Table of R137 (RO). -/
def llcDrainVictimsLeft (s : Nat) : Fld := .mk (0x200000 + s * 0x1000 + 0x18) 32 7 0x0 .ro
/-- LLC_DRAIN.locks_released, Table of R137 (RO). -/
def llcDrainLocksReleased (s : Nat) : Fld := .mk (0x200000 + s * 0x1000 + 0x18) 40 8 0x0 .ro
/-- LLC_VICTIM.occupancy, Table of R137 (RO). -/
def llcVictimOccupancy (s : Nat) : Fld := .mk (0x200000 + s * 0x1000 + 0x20) 0 7 0x0 .ro
/-- LLC_VICTIM.recalls, Table of R137 (RO). -/
def llcVictimRecalls (s : Nat) : Fld := .mk (0x200000 + s * 0x1000 + 0x20) 32 32 0x0 .ro
/-- LLC_AMQ.occupancy, Table of R137 (RO). -/
def llcAmqOccupancy (s : Nat) : Fld := .mk (0x200000 + s * 0x1000 + 0x28) 0 6 0x0 .ro
/-- LLC_AMQ.waits, Table of R137 (RO). -/
def llcAmqWaits (s : Nat) : Fld := .mk (0x200000 + s * 0x1000 + 0x28) 32 32 0x0 .ro
/-- LLC_WAYS.shared_mask, Table of R137 (RO). -/
def llcWaysSharedMask (s : Nat) : Fld := .mk (0x200000 + s * 0x1000 + 0x30) 0 24 0xFFFFFF .ro
/-- LLC_WAYS.locked_mask, Table of R137 (RO). -/
def llcWaysLockedMask (s : Nat) : Fld := .mk (0x200000 + s * 0x1000 + 0x30) 24 24 0x0 .ro
/-- LLC_INJECT.data_ce, Table of R137 (WO). -/
def llcInjectDataCe (s : Nat) : Fld := .mk (0x200000 + s * 0x1000 + 0x38) 0 1 0x0 .wo
/-- LLC_INJECT.data_ue, Table of R137 (WO). -/
def llcInjectDataUe (s : Nat) : Fld := .mk (0x200000 + s * 0x1000 + 0x38) 1 1 0x0 .wo
/-- LLC_INJECT.tag_par, Table of R137 (WO). -/
def llcInjectTagPar (s : Nat) : Fld := .mk (0x200000 + s * 0x1000 + 0x38) 2 1 0x0 .wo
/-- LLC_PART.way_mask, Table of R137 (RW). -/
def llcPartWayMask (s n : Nat) : Fld := .mk (0x200000 + s * 0x1000 + 0x400 + n * 0x8) 0 24 0x0 .rw
/-- LLC_PART.sealed, Table of R137 (RW). -/
def llcPartSealed (s n : Nat) : Fld := .mk (0x200000 + s * 0x1000 + 0x400 + n * 0x8) 24 1 0x0 .rw
/-- LLC_PART.locked_ways, Table of R137 (RO). -/
def llcPartLockedWays (s n : Nat) : Fld := .mk (0x200000 + s * 0x1000 + 0x400 + n * 0x8) 32 24 0x0 .ro
/-- MC_STATUS.state, Table of R173 (RO). -/
def mcStatusState (c : Nat) : Fld := .mk (0x300000 + c * 0x10000 + 0x0) 0 4 0x0 .ro
/-- MC_STATUS.fail_code, Table of R173 (RO). -/
def mcStatusFailCode (c : Nat) : Fld := .mk (0x300000 + c * 0x10000 + 0x0) 4 8 0x0 .ro
/-- MC_STATUS.step, Table of R173 (RO). -/
def mcStatusStep (c : Nat) : Fld := .mk (0x300000 + c * 0x10000 + 0x0) 12 4 0x0 .ro
/-- MC_STATUS.progress, Table of R173 (RO). -/
def mcStatusProgress (c : Nat) : Fld := .mk (0x300000 + c * 0x10000 + 0x0) 16 16 0x0 .ro
/-- MC_DIMM.speed, Table of R173 (RO). -/
def mcDimmSpeed (c : Nat) : Fld := .mk (0x300000 + c * 0x10000 + 0x8) 0 16 0x0 .ro
/-- MC_DIMM.ranks, Table of R173 (RO). -/
def mcDimmRanks (c : Nat) : Fld := .mk (0x300000 + c * 0x10000 + 0x8) 16 2 0x0 .ro
/-- MC_DIMM.stack, Table of R173 (RO). -/
def mcDimmStack (c : Nat) : Fld := .mk (0x300000 + c * 0x10000 + 0x8) 18 2 0x0 .ro
/-- MC_DIMM.density, Table of R173 (RO). -/
def mcDimmDensity (c : Nat) : Fld := .mk (0x300000 + c * 0x10000 + 0x8) 20 4 0x0 .ro
/-- MC_DIMM.capacity_gb, Table of R173 (RO). -/
def mcDimmCapacityGb (c : Nat) : Fld := .mk (0x300000 + c * 0x10000 + 0x8) 24 12 0x0 .ro
/-- MC_SLOT_GRID.slots, Table of R173 (RO). -/
def mcSlotGridSlots (c : Nat) : Fld := .mk (0x300000 + c * 0x10000 + 0x10) 0 10 0x0 .ro
/-- MC_SLOT_GRID.pre, Table of R173 (RO). -/
def mcSlotGridPre (c : Nat) : Fld := .mk (0x300000 + c * 0x10000 + 0x10) 16 7 0x0 .ro
/-- MC_SLOT_GRID.post, Table of R173 (RO). -/
def mcSlotGridPost (c : Nat) : Fld := .mk (0x300000 + c * 0x10000 + 0x10) 24 7 0x0 .ro
/-- MC_SLOT_GRID.spacing, Table of R173 (RO). -/
def mcSlotGridSpacing (c : Nat) : Fld := .mk (0x300000 + c * 0x10000 + 0x10) 32 7 0x0 .ro
/-- MC_SLOT_GRID.window, Table of R173 (RO). -/
def mcSlotGridWindow (c : Nat) : Fld := .mk (0x300000 + c * 0x10000 + 0x10) 40 8 0x0 .ro
/-- MC_SLOT_GRID.blocks, Table of R173 (RO). -/
def mcSlotGridBlocks (c : Nat) : Fld := .mk (0x300000 + c * 0x10000 + 0x10) 48 6 0x0 .ro
/-- MC_SEL_LEAD.sel_lead_ps, Table of R173 (RO). -/
def mcSelLeadSelLeadPs (c : Nat) : Fld := .mk (0x300000 + c * 0x10000 + 0x18) 0 16 0x0 .ro
/-- MC_SCHED_CTRL.panic_fab, Table of R173 (RW). -/
def mcSchedCtrlPanicFab (c : Nat) : Fld := .mk (0x300000 + c * 0x10000 + 0x20) 0 6 0x30 .rw
/-- MC_SCHED_CTRL.panic_cxl, Table of R173 (RW). -/
def mcSchedCtrlPanicCxl (c : Nat) : Fld := .mk (0x300000 + c * 0x10000 + 0x20) 6 6 0x30 .rw
/-- MC_SCHED_CTRL.hyst, Table of R173 (RW). -/
def mcSchedCtrlHyst (c : Nat) : Fld := .mk (0x300000 + c * 0x10000 + 0x20) 12 4 0x8 .rw
/-- MC_SCHED_CTRL.wr_high, Table of R173 (RW). -/
def mcSchedCtrlWrHigh (c : Nat) : Fld := .mk (0x300000 + c * 0x10000 + 0x20) 16 6 0x30 .rw
/-- MC_SCHED_CTRL.wr_low, Table of R173 (RW). -/
def mcSchedCtrlWrLow (c : Nat) : Fld := .mk (0x300000 + c * 0x10000 + 0x20) 22 6 0x10 .rw
/-- MC_SCHED_CTRL.age_cap, Table of R173 (RW). -/
def mcSchedCtrlAgeCap (c : Nat) : Fld := .mk (0x300000 + c * 0x10000 + 0x20) 28 4 0x2 .rw
/-- MC_SCHED_CTRL.idle_close, Table of R173 (RW). -/
def mcSchedCtrlIdleClose (c : Nat) : Fld := .mk (0x300000 + c * 0x10000 + 0x20) 32 12 0x100 .rw
/-- MC_RT_STATUS.panics_fab, Table of R173 (RO). -/
def mcRtStatusPanicsFab (c : Nat) : Fld := .mk (0x300000 + c * 0x10000 + 0x28) 0 16 0x0 .ro
/-- MC_RT_STATUS.panics_cxl, Table of R173 (RO). -/
def mcRtStatusPanicsCxl (c : Nat) : Fld := .mk (0x300000 + c * 0x10000 + 0x28) 16 16 0x0 .ro
/-- MC_RT_STATUS.panic_fab, Table of R173 (RO). -/
def mcRtStatusPanicFab (c : Nat) : Fld := .mk (0x300000 + c * 0x10000 + 0x28) 32 1 0x0 .ro
/-- MC_RT_STATUS.panic_cxl, Table of R173 (RO). -/
def mcRtStatusPanicCxl (c : Nat) : Fld := .mk (0x300000 + c * 0x10000 + 0x28) 33 1 0x0 .ro
/-- MC_PRED_STATS.hits, Table of R173 (RO). -/
def mcPredStatsHits (c : Nat) : Fld := .mk (0x300000 + c * 0x10000 + 0x30) 0 32 0x0 .ro
/-- MC_PRED_STATS.misses, Table of R173 (RO). -/
def mcPredStatsMisses (c : Nat) : Fld := .mk (0x300000 + c * 0x10000 + 0x30) 32 32 0x0 .ro
/-- MC_DRIFT_CTRL.interval_beats, Table of R173 (RW). -/
def mcDriftCtrlIntervalBeats (c : Nat) : Fld := .mk (0x300000 + c * 0x10000 + 0x38) 0 16 0x100 .rw
/-- MC_DRIFT_CTRL.threshold, Table of R173 (RW). -/
def mcDriftCtrlThreshold (c : Nat) : Fld := .mk (0x300000 + c * 0x10000 + 0x38) 16 4 0x2 .rw
/-- MC_DRIFT_CTRL.alarm_steps, Table of R173 (RW). -/
def mcDriftCtrlAlarmSteps (c : Nat) : Fld := .mk (0x300000 + c * 0x10000 + 0x38) 20 8 0x18 .rw
/-- MC_DRIFT_STATUS.max_drift, Table of R173 (RO). -/
def mcDriftStatusMaxDrift (c : Nat) : Fld := .mk (0x300000 + c * 0x10000 + 0x40) 0 8 0x0 .ro
/-- MC_DRIFT_STATUS.alarm, Table of R173 (W1C). -/
def mcDriftStatusAlarm (c : Nat) : Fld := .mk (0x300000 + c * 0x10000 + 0x40) 8 1 0x0 .w1c
/-- MC_DRIFT_STATUS.adjustments, Table of R173 (RO). -/
def mcDriftStatusAdjustments (c : Nat) : Fld := .mk (0x300000 + c * 0x10000 + 0x40) 16 16 0x0 .ro
/-- MC_DRIFT_STATUS.last_beat, Table of R173 (RO). -/
def mcDriftStatusLastBeat (c : Nat) : Fld := .mk (0x300000 + c * 0x10000 + 0x40) 32 32 0x0 .ro
/-- MC_REFRESH0.owed, Table of R173 (RO). -/
def mcRefresh0Owed (c : Nat) : Fld := .mk (0x300000 + c * 0x10000 + 0x48) 0 4 0x0 .ro
/-- MC_REFRESH1.owed, Table of R173 (RO). -/
def mcRefresh1Owed (c : Nat) : Fld := .mk (0x300000 + c * 0x10000 + 0x50) 0 4 0x0 .ro
/-- MC_REFRESH0.doubled, Table of R173 (RO). -/
def mcRefresh0Doubled (c : Nat) : Fld := .mk (0x300000 + c * 0x10000 + 0x48) 4 1 0x0 .ro
/-- MC_REFRESH1.doubled, Table of R173 (RO). -/
def mcRefresh1Doubled (c : Nat) : Fld := .mk (0x300000 + c * 0x10000 + 0x50) 4 1 0x0 .ro
/-- MC_REFRESH0.catchup, Table of R173 (RO). -/
def mcRefresh0Catchup (c : Nat) : Fld := .mk (0x300000 + c * 0x10000 + 0x48) 5 1 0x0 .ro
/-- MC_REFRESH1.catchup, Table of R173 (RO). -/
def mcRefresh1Catchup (c : Nat) : Fld := .mk (0x300000 + c * 0x10000 + 0x50) 5 1 0x0 .ro
/-- MC_REFRESH0.rate_field, Table of R173 (RO). -/
def mcRefresh0RateField (c : Nat) : Fld := .mk (0x300000 + c * 0x10000 + 0x48) 8 3 0x0 .ro
/-- MC_REFRESH1.rate_field, Table of R173 (RO). -/
def mcRefresh1RateField (c : Nat) : Fld := .mk (0x300000 + c * 0x10000 + 0x50) 8 3 0x0 .ro
/-- MC_REFRESH0.postponed, Table of R173 (RO). -/
def mcRefresh0Postponed (c : Nat) : Fld := .mk (0x300000 + c * 0x10000 + 0x48) 16 16 0x0 .ro
/-- MC_REFRESH1.postponed, Table of R173 (RO). -/
def mcRefresh1Postponed (c : Nat) : Fld := .mk (0x300000 + c * 0x10000 + 0x50) 16 16 0x0 .ro
/-- MC_REFRESH0.catchups, Table of R173 (RO). -/
def mcRefresh0Catchups (c : Nat) : Fld := .mk (0x300000 + c * 0x10000 + 0x48) 32 16 0x0 .ro
/-- MC_REFRESH1.catchups, Table of R173 (RO). -/
def mcRefresh1Catchups (c : Nat) : Fld := .mk (0x300000 + c * 0x10000 + 0x50) 32 16 0x0 .ro
/-- MC_LOST.lost_slots, Table of R173 (RO). -/
def mcLostLostSlots (c : Nat) : Fld := .mk (0x300000 + c * 0x10000 + 0x58) 0 32 0x0 .ro
/-- MC_LOST.last_beat, Table of R173 (RO). -/
def mcLostLastBeat (c : Nat) : Fld := .mk (0x300000 + c * 0x10000 + 0x58) 32 32 0x0 .ro
/-- MC_RETRY.ca_alerts, Table of R173 (RO). -/
def mcRetryCaAlerts (c : Nat) : Fld := .mk (0x300000 + c * 0x10000 + 0x60) 0 16 0x0 .ro
/-- MC_RETRY.crc_alerts, Table of R173 (RO). -/
def mcRetryCrcAlerts (c : Nat) : Fld := .mk (0x300000 + c * 0x10000 + 0x60) 16 16 0x0 .ro
/-- MC_RETRY.replays, Table of R173 (RO). -/
def mcRetryReplays (c : Nat) : Fld := .mk (0x300000 + c * 0x10000 + 0x60) 32 16 0x0 .ro
/-- MC_RETRY.rereads, Table of R173 (RO). -/
def mcRetryRereads (c : Nat) : Fld := .mk (0x300000 + c * 0x10000 + 0x60) 48 16 0x0 .ro
/-- MC_RETRY_LAST.replayed, Table of R173 (RO). -/
def mcRetryLastReplayed (c : Nat) : Fld := .mk (0x300000 + c * 0x10000 + 0x68) 0 7 0x0 .ro
/-- MC_RETRY_LAST.kind, Table of R173 (RO). -/
def mcRetryLastKind (c : Nat) : Fld := .mk (0x300000 + c * 0x10000 + 0x68) 7 1 0x0 .ro
/-- MC_RETRY_LAST.sub, Table of R173 (RO). -/
def mcRetryLastSub (c : Nat) : Fld := .mk (0x300000 + c * 0x10000 + 0x68) 8 1 0x0 .ro
/-- MC_RETRY_LAST.stopped, Table of R173 (RO). -/
def mcRetryLastStopped (c : Nat) : Fld := .mk (0x300000 + c * 0x10000 + 0x68) 9 1 0x0 .ro
/-- MC_RETRY_LAST.beat, Table of R173 (RO). -/
def mcRetryLastBeat (c : Nat) : Fld := .mk (0x300000 + c * 0x10000 + 0x68) 32 32 0x0 .ro
/-- MC_INJECT.ca_parity, Table of R173 (WO). -/
def mcInjectCaParity (c : Nat) : Fld := .mk (0x300000 + c * 0x10000 + 0x70) 0 1 0x0 .wo
/-- MC_INJECT.wcrc, Table of R173 (WO). -/
def mcInjectWcrc (c : Nat) : Fld := .mk (0x300000 + c * 0x10000 + 0x70) 1 1 0x0 .wo
/-- MC_INJECT.sub, Table of R173 (WO). -/
def mcInjectSub (c : Nat) : Fld := .mk (0x300000 + c * 0x10000 + 0x70) 2 1 0x0 .wo
/-- MC_TRAIN_TIME.beats, Table of R173 (RO). -/
def mcTrainTimeBeats (c : Nat) : Fld := .mk (0x300000 + c * 0x10000 + 0x78) 0 32 0x0 .ro
/-- MC_NIBBLE.rd_delay, Table of R173 (RO). -/
def mcNibbleRdDelay (c n : Nat) : Fld := .mk (0x300000 + c * 0x10000 + 0x100 + n * 0x8) 0 7 0x0 .ro
/-- MC_NIBBLE.rd_width, Table of R173 (RO). -/
def mcNibbleRdWidth (c n : Nat) : Fld := .mk (0x300000 + c * 0x10000 + 0x100 + n * 0x8) 8 7 0x0 .ro
/-- MC_NIBBLE.wr_delay, Table of R173 (RO). -/
def mcNibbleWrDelay (c n : Nat) : Fld := .mk (0x300000 + c * 0x10000 + 0x100 + n * 0x8) 16 7 0x0 .ro
/-- MC_NIBBLE.wr_width, Table of R173 (RO). -/
def mcNibbleWrWidth (c n : Nat) : Fld := .mk (0x300000 + c * 0x10000 + 0x100 + n * 0x8) 24 7 0x0 .ro
/-- MC_SEAL_BLOCK.position, Table of R173 (RO). -/
def mcSealBlockPosition (c n : Nat) : Fld := .mk (0x300000 + c * 0x10000 + 0x1000 + n * 0x8) 0 9 0x0 .ro
/-- MC_SEAL_BLOCK.role, Table of R173 (RO). -/
def mcSealBlockRole (c n : Nat) : Fld := .mk (0x300000 + c * 0x10000 + 0x1000 + n * 0x8) 9 1 0x0 .ro
/-- MC_SEAL_BLOCK.valid, Table of R173 (RO). -/
def mcSealBlockValid (c n : Nat) : Fld := .mk (0x300000 + c * 0x10000 + 0x1000 + n * 0x8) 10 1 0x0 .ro
/-- MC_SEAL_BLOCK.owner, Table of R173 (RW). -/
def mcSealBlockOwner (c n : Nat) : Fld := .mk (0x300000 + c * 0x10000 + 0x1000 + n * 0x8) 12 9 0x0 .rw
/-- MC_SEAL_BLOCK.slot_en, Table of R173 (RW). -/
def mcSealBlockSlotEn (c n : Nat) : Fld := .mk (0x300000 + c * 0x10000 + 0x1000 + n * 0x8) 21 3 0x0 .rw
/-- MC_MIRROR.enabled, Table of R200 (RO). -/
def mcMirrorEnabled (c : Nat) : Fld := .mk (0x300000 + c * 0x10000 + 0x400) 0 1 0x0 .ro
/-- MC_MIRROR.partner, Table of R200 (RO). -/
def mcMirrorPartner (c : Nat) : Fld := .mk (0x300000 + c * 0x10000 + 0x400) 1 4 0x0 .ro
/-- MC_MIRROR.degraded, Table of R200 (RO). -/
def mcMirrorDegraded (c : Nat) : Fld := .mk (0x300000 + c * 0x10000 + 0x400) 5 1 0x0 .ro
/-- MC_MIRROR.partner_reads, Table of R200 (RO). -/
def mcMirrorPartnerReads (c : Nat) : Fld := .mk (0x300000 + c * 0x10000 + 0x400) 16 16 0x0 .ro
/-- MC_ECC_COUNT.corrected, Table of R200 (RWS). -/
def mcEccCountCorrected (c : Nat) : Fld := .mk (0x300000 + c * 0x10000 + 0x408) 0 16 0x0 .rws
/-- MC_ECC_COUNT.uncorrectable, Table of R200 (RWS). -/
def mcEccCountUncorrectable (c : Nat) : Fld := .mk (0x300000 + c * 0x10000 + 0x408) 16 16 0x0 .rws
/-- MC_ECC_COUNT.integrity, Table of R200 (RWS). -/
def mcEccCountIntegrity (c : Nat) : Fld := .mk (0x300000 + c * 0x10000 + 0x408) 32 16 0x0 .rws
/-- MC_ECC_COUNT.poison_written, Table of R200 (RWS). -/
def mcEccCountPoisonWritten (c : Nat) : Fld := .mk (0x300000 + c * 0x10000 + 0x408) 48 16 0x0 .rws
/-- MC_ECC_LAST.line, Table of R200 (RO). -/
def mcEccLastLine (c : Nat) : Fld := .mk (0x300000 + c * 0x10000 + 0x410) 0 40 0x0 .ro
/-- MC_ECC_LAST.device, Table of R200 (RO). -/
def mcEccLastDevice (c : Nat) : Fld := .mk (0x300000 + c * 0x10000 + 0x410) 40 4 0x0 .ro
/-- MC_ECC_LAST.kind, Table of R200 (RO). -/
def mcEccLastKind (c : Nat) : Fld := .mk (0x300000 + c * 0x10000 + 0x410) 44 3 0x0 .ro
/-- MC_ECC_LAST.sub, Table of R200 (RO). -/
def mcEccLastSub (c : Nat) : Fld := .mk (0x300000 + c * 0x10000 + 0x410) 47 1 0x0 .ro
/-- MC_ECC_LAST.rank, Table of R200 (RO). -/
def mcEccLastRank (c : Nat) : Fld := .mk (0x300000 + c * 0x10000 + 0x410) 48 1 0x0 .ro
/-- MC_ECC_LAST_BEAT.beat, Table of R200 (RO). -/
def mcEccLastBeatBeat (c : Nat) : Fld := .mk (0x300000 + c * 0x10000 + 0x418) 0 64 0x0 .ro
/-- MC_SPARE_CTRL.threshold, Table of R200 (RW). -/
def mcSpareCtrlThreshold (c : Nat) : Fld := .mk (0x300000 + c * 0x10000 + 0x420) 0 16 0x40 .rw
/-- MC_SPARE_CTRL.auto, Table of R200 (RW). -/
def mcSpareCtrlAuto (c : Nat) : Fld := .mk (0x300000 + c * 0x10000 + 0x420) 16 1 0x1 .rw
/-- MC_SPARE_CTRL.window_beats, Table of R200 (RW). -/
def mcSpareCtrlWindowBeats (c : Nat) : Fld := .mk (0x300000 + c * 0x10000 + 0x420) 24 32 0x100000 .rw
/-- MC_SPARE_STATUS.spared, Table of R200 (RWS). -/
def mcSpareStatusSpared (c : Nat) : Fld := .mk (0x300000 + c * 0x10000 + 0x428) 0 20 0x0 .rws
/-- MC_REPAIR.listed, Table of R200 (RO). -/
def mcRepairListed (c : Nat) : Fld := .mk (0x300000 + c * 0x10000 + 0x430) 0 7 0x0 .ro
/-- MC_REPAIR.soft, Table of R200 (RO). -/
def mcRepairSoft (c : Nat) : Fld := .mk (0x300000 + c * 0x10000 + 0x430) 8 7 0x0 .ro
/-- MC_REPAIR.hard, Table of R200 (RO). -/
def mcRepairHard (c : Nat) : Fld := .mk (0x300000 + c * 0x10000 + 0x430) 16 7 0x0 .ro
/-- MC_REPAIR.unrepairable, Table of R200 (RO). -/
def mcRepairUnrepairable (c : Nat) : Fld := .mk (0x300000 + c * 0x10000 + 0x430) 24 7 0x0 .ro
/-- MC_SCRUB.active, Table of R200 (RO). -/
def mcScrubActive (c : Nat) : Fld := .mk (0x300000 + c * 0x10000 + 0x438) 0 1 0x0 .ro
/-- MC_SCRUB.lines_done, Table of R200 (RO). -/
def mcScrubLinesDone (c : Nat) : Fld := .mk (0x300000 + c * 0x10000 + 0x438) 8 40 0x0 .ro
/-- MC_PATROL.running, Table of R200 (RO). -/
def mcPatrolRunning (c : Nat) : Fld := .mk (0x300000 + c * 0x10000 + 0x440) 0 1 0x0 .ro
/-- MC_PATROL.reason, Table of R200 (RO). -/
def mcPatrolReason (c : Nat) : Fld := .mk (0x300000 + c * 0x10000 + 0x440) 1 2 0x0 .ro
/-- MC_PATROL.lap_beats, Table of R200 (RO). -/
def mcPatrolLapBeats (c : Nat) : Fld := .mk (0x300000 + c * 0x10000 + 0x440) 8 32 0x0 .ro
/-- MC_PATROL.laps, Table of R200 (RO). -/
def mcPatrolLaps (c : Nat) : Fld := .mk (0x300000 + c * 0x10000 + 0x440) 40 24 0x0 .ro
/-- MC_FILL.lines_done, Table of R200 (RO). -/
def mcFillLinesDone (c : Nat) : Fld := .mk (0x300000 + c * 0x10000 + 0x448) 0 40 0x0 .ro
/-- MC_FILL_TIME.beats, Table of R200 (RO). -/
def mcFillTimeBeats (c : Nat) : Fld := .mk (0x300000 + c * 0x10000 + 0x450) 0 32 0x0 .ro
/-- MC_FLIP_CTRL.armed, Table of R200 (RW). -/
def mcFlipCtrlArmed (c : Nat) : Fld := .mk (0x300000 + c * 0x10000 + 0x458) 0 1 0x0 .rw
/-- MC_FLIP_CTRL.device_a, Table of R200 (RW). -/
def mcFlipCtrlDeviceA (c : Nat) : Fld := .mk (0x300000 + c * 0x10000 + 0x458) 1 4 0xF .rw
/-- MC_FLIP_CTRL.device_b, Table of R200 (RW). -/
def mcFlipCtrlDeviceB (c : Nat) : Fld := .mk (0x300000 + c * 0x10000 + 0x458) 5 4 0xF .rw
/-- MC_FLIP_LINE.line, Table of R200 (RW). -/
def mcFlipLineLine (c : Nat) : Fld := .mk (0x300000 + c * 0x10000 + 0x460) 0 40 0x0 .rw
/-- MC_FLIP_PAT_A.pattern, Table of R200 (RW). -/
def mcFlipPatAPattern (c : Nat) : Fld := .mk (0x300000 + c * 0x10000 + 0x468) 0 64 0x0 .rw
/-- MC_FLIP_PAT_B.pattern, Table of R200 (RW). -/
def mcFlipPatBPattern (c : Nat) : Fld := .mk (0x300000 + c * 0x10000 + 0x470) 0 64 0x0 .rw
/-- MC_FLIP_DONE.beat, Table of R200 (RO). -/
def mcFlipDoneBeat (c : Nat) : Fld := .mk (0x300000 + c * 0x10000 + 0x478) 0 64 0x0 .ro
/-- MC_DEV_CE.window, Table of R200 (RO). -/
def mcDevCeWindow (c n : Nat) : Fld := .mk (0x300000 + c * 0x10000 + 0x500 + n * 0x8) 0 16 0x0 .ro
/-- MC_DEV_CE.total, Table of R200 (RO). -/
def mcDevCeTotal (c n : Nat) : Fld := .mk (0x300000 + c * 0x10000 + 0x500 + n * 0x8) 16 32 0x0 .ro
/-- FAB_ID.device_id, Table of R263 (RO). -/
def fabIdDeviceId : Fld := .mk (0x400000 + 0x0) 0 6 0x0 .ro
/-- FAB_ID.member, Table of R263 (RO). -/
def fabIdMember : Fld := .mk (0x400000 + 0x0) 6 1 0x0 .ro
/-- FAB_ID.captain, Table of R263 (RO). -/
def fabIdCaptain : Fld := .mk (0x400000 + 0x0) 7 1 0x0 .ro
/-- FAB_ID.members, Table of R263 (RO). -/
def fabIdMembers : Fld := .mk (0x400000 + 0x0) 8 7 0x0 .ro
/-- FAB_ID.epoch, Table of R263 (RO). -/
def fabIdEpoch : Fld := .mk (0x400000 + 0x0) 16 32 0x0 .ro
/-- FAB_UID.uid, Table of R263 (RO). -/
def fabUidUid : Fld := .mk (0x400000 + 0x8) 0 64 0x0 .ro
/-- FAB_CAPTAIN_UID.uid, Table of R263 (RO). -/
def fabCaptainUidUid : Fld := .mk (0x400000 + 0x10) 0 64 0x0 .ro
/-- FAB_STATE.state, Table of R263 (RO). -/
def fabStateState : Fld := .mk (0x400000 + 0x18) 0 4 0x0 .ro
/-- FAB_STATE.hops, Table of R263 (RO). -/
def fabStateHops : Fld := .mk (0x400000 + 0x18) 4 4 0x0 .ro
/-- FAB_STATE.bank_ready, Table of R263 (RO). -/
def fabStateBankReady : Fld := .mk (0x400000 + 0x18) 8 1 0x0 .ro
/-- FAB_STATE.isolated, Table of R263 (RO). -/
def fabStateIsolated : Fld := .mk (0x400000 + 0x18) 9 1 0x0 .ro
/-- FAB_STATE.converge_beats, Table of R263 (RO). -/
def fabStateConvergeBeats : Fld := .mk (0x400000 + 0x18) 32 32 0x0 .ro
/-- FAB_CTRL.captain_eligible, Table of R263 (RW). -/
def fabCtrlCaptainEligible : Fld := .mk (0x400000 + 0x20) 0 1 0x1 .rw
/-- FAB_CTRL.fixed_id, Table of R263 (RW). -/
def fabCtrlFixedId : Fld := .mk (0x400000 + 0x20) 1 6 0x0 .rw
/-- FAB_CTRL.fixed_valid, Table of R263 (RW). -/
def fabCtrlFixedValid : Fld := .mk (0x400000 + 0x20) 7 1 0x0 .rw
/-- FAB_CTRL.link_wait_ms, Table of R263 (RW). -/
def fabCtrlLinkWaitMs : Fld := .mk (0x400000 + 0x20) 8 8 0x64 .rw
/-- FAB_MEMBERS.members, Table of R263 (RO). -/
def fabMembersMembers : Fld := .mk (0x400000 + 0x28) 0 64 0x0 .ro
/-- FAB_REACH.reach, Table of R263 (RO). -/
def fabReachReach : Fld := .mk (0x400000 + 0x30) 0 64 0x0 .ro
/-- FAB_EVENTS.switches, Table of R263 (RO). -/
def fabEventsSwitches : Fld := .mk (0x400000 + 0x38) 0 16 0x0 .ro
/-- FAB_EVENTS.elections, Table of R263 (RO). -/
def fabEventsElections : Fld := .mk (0x400000 + 0x38) 16 16 0x0 .ro
/-- FAB_EVENTS.refused, Table of R263 (RO). -/
def fabEventsRefused : Fld := .mk (0x400000 + 0x38) 32 16 0x0 .ro
/-- FAB_EVENTS.errors, Table of R263 (RO). -/
def fabEventsErrors : Fld := .mk (0x400000 + 0x38) 48 16 0x0 .ro
/-- FAB_PREV_ID.prev_id, Table of R263 (RWS). -/
def fabPrevIdPrevId : Fld := .mk (0x400000 + 0x40) 0 6 0x0 .rws
/-- FAB_PREV_ID.prev_valid, Table of R263 (RWS). -/
def fabPrevIdPrevValid : Fld := .mk (0x400000 + 0x40) 6 1 0x0 .rws
/-- FAB_GRANT.mask, Table of R263 (RW). -/
def fabGrantMask (s w : Nat) : Fld := .mk (0x400000 + 0x400 + s * 0x28 + w * 0x8) 0 64 0x0 .rw
/-- FAB_ROUTE.entry, Table of R263 (RO). -/
def fabRouteEntry (d : Nat) : Fld := .mk (0x400000 + 0xe00 + d * 0x8) 0 64 0x0 .ro
/-- FAB_PORT_STATUS.state, Table of R263 (RO). -/
def fabPortStatusState (k : Nat) : Fld := .mk (0x401000 + k * 0x1000 + 0x0) 0 4 0x0 .ro
/-- FAB_PORT_STATUS.width, Table of R263 (RO). -/
def fabPortStatusWidth (k : Nat) : Fld := .mk (0x401000 + k * 0x1000 + 0x0) 4 1 0x0 .ro
/-- FAB_PORT_STATUS.cause, Table of R263 (RO). -/
def fabPortStatusCause (k : Nat) : Fld := .mk (0x401000 + k * 0x1000 + 0x0) 5 3 0x0 .ro
/-- FAB_PORT_STATUS.nb_id, Table of R263 (RO). -/
def fabPortStatusNbId (k : Nat) : Fld := .mk (0x401000 + k * 0x1000 + 0x0) 8 6 0x0 .ro
/-- FAB_PORT_STATUS.nb_valid, Table of R263 (RO). -/
def fabPortStatusNbValid (k : Nat) : Fld := .mk (0x401000 + k * 0x1000 + 0x0) 14 1 0x0 .ro
/-- FAB_PORT_STATUS.nb_port, Table of R263 (RO). -/
def fabPortStatusNbPort (k : Nat) : Fld := .mk (0x401000 + k * 0x1000 + 0x0) 15 3 0x0 .ro
/-- FAB_PORT_NB_UID.uid, Table of R263 (RO). -/
def fabPortNbUidUid (k : Nat) : Fld := .mk (0x401000 + k * 0x1000 + 0x8) 0 64 0x0 .ro
/-- FAB_PORT_DELAY.delay_ps, Table of R263 (RO). -/
def fabPortDelayDelayPs (k : Nat) : Fld := .mk (0x401000 + k * 0x1000 + 0x10) 0 32 0x0 .ro
/-- FAB_PORT_FEC.corrected, Table of R263 (RO). -/
def fabPortFecCorrected (k : Nat) : Fld := .mk (0x401000 + k * 0x1000 + 0x18) 0 32 0x0 .ro
/-- FAB_PORT_FEC.uncorrectable, Table of R263 (RO). -/
def fabPortFecUncorrectable (k : Nat) : Fld := .mk (0x401000 + k * 0x1000 + 0x18) 32 32 0x0 .ro
/-- FAB_PORT_RETRY.replays, Table of R263 (RO). -/
def fabPortRetryReplays (k : Nat) : Fld := .mk (0x401000 + k * 0x1000 + 0x20) 0 32 0x0 .ro
/-- FAB_PORT_RETRY.tag_fail, Table of R263 (RO). -/
def fabPortRetryTagFail (k : Nat) : Fld := .mk (0x401000 + k * 0x1000 + 0x20) 32 16 0x0 .ro
/-- FAB_PORT_RETRY.failures, Table of R263 (RO). -/
def fabPortRetryFailures (k : Nat) : Fld := .mk (0x401000 + k * 0x1000 + 0x20) 48 16 0x0 .ro
/-- FAB_PORT_SHARE.reserved, Table of R263 (RO). -/
def fabPortShareReserved (k : Nat) : Fld := .mk (0x401000 + k * 0x1000 + 0x28) 0 9 0x0 .ro
/-- FAB_PORT_SHARE.shares, Table of R263 (RO). -/
def fabPortShareShares (k : Nat) : Fld := .mk (0x401000 + k * 0x1000 + 0x28) 9 8 0x0 .ro
/-- FAB_PORT_CTRL.enable, Table of R263 (RW). -/
def fabPortCtrlEnable (k : Nat) : Fld := .mk (0x401000 + k * 0x1000 + 0x30) 0 1 0x1 .rw
/-- FAB_PORT_CTRL.loopback, Table of R263 (RW). -/
def fabPortCtrlLoopback (k : Nat) : Fld := .mk (0x401000 + k * 0x1000 + 0x30) 1 2 0x0 .rw
/-- FAB_PORT_LAST_FAIL.beat, Table of R263 (RO). -/
def fabPortLastFailBeat (k : Nat) : Fld := .mk (0x401000 + k * 0x1000 + 0x38) 0 64 0x0 .ro
/-- PORT_STATUS.role, Table of R292 (RO). -/
def portStatusRole (a : Nat) : Fld := .mk (a + 0x40c) 0 4 0x0 .ro
/-- PORT_STATUS.state, Table of R292 (RO). -/
def portStatusState (a : Nat) : Fld := .mk (a + 0x40c) 4 4 0x0 .ro
/-- PORT_STATUS.width, Table of R292 (RO). -/
def portStatusWidth (a : Nat) : Fld := .mk (a + 0x40c) 8 5 0x0 .ro
/-- PORT_STATUS.speed, Table of R292 (RO). -/
def portStatusSpeed (a : Nat) : Fld := .mk (a + 0x40c) 13 3 0x0 .ro
/-- PORT_STATUS.degraded, Table of R292 (RO). -/
def portStatusDegraded (a : Nat) : Fld := .mk (a + 0x40c) 16 1 0x0 .ro
/-- PORT_STATUS.flit, Table of R292 (RO). -/
def portStatusFlit (a : Nat) : Fld := .mk (a + 0x40c) 17 1 0x0 .ro
/-- PORT_LANES.failed, Table of R292 (RO). -/
def portLanesFailed (a : Nat) : Fld := .mk (a + 0x410) 0 16 0x0 .ro
/-- PORT_ERR.lane_failures, Table of R292 (RO). -/
def portErrLaneFailures (a : Nat) : Fld := .mk (a + 0x414) 0 8 0x0 .ro
/-- PORT_ERR.link_downs, Table of R292 (RO). -/
def portErrLinkDowns (a : Nat) : Fld := .mk (a + 0x414) 8 8 0x0 .ro
/-- PORT_ERR.replays, Table of R292 (RO). -/
def portErrReplays (a : Nat) : Fld := .mk (a + 0x414) 16 16 0x0 .ro
/-- PORT_REFUSED.refused, Table of R292 (RO). -/
def portRefusedRefused (a : Nat) : Fld := .mk (a + 0x418) 0 32 0x0 .ro
/-- PORT_GROUP.bifurcation, Table of R292 (RO). -/
def portGroupBifurcation (a : Nat) : Fld := .mk (a + 0x41c) 0 3 0x0 .ro
/-- PORT_GROUP.group, Table of R292 (RO). -/
def portGroupGroup (a : Nat) : Fld := .mk (a + 0x41c) 3 3 0x0 .ro
/-- PORT_LEND_LO.base_lo, Table of R292 (RO). -/
def portLendLoBaseLo (a : Nat) : Fld := .mk (a + 0x420) 0 32 0x0 .ro
/-- PORT_LEND_HI.base_hi, Table of R292 (RO). -/
def portLendHiBaseHi (a : Nat) : Fld := .mk (a + 0x424) 0 14 0x0 .ro
/-- PORT_LEND_SIZE.units, Table of R292 (RO). -/
def portLendSizeUnits (a : Nat) : Fld := .mk (a + 0x428) 0 32 0x0 .ro
/-- PORT_LEND_TEN.tenancy, Table of R292 (RO). -/
def portLendTenTenancy (a : Nat) : Fld := .mk (a + 0x42c) 0 9 0x0 .ro
/-- PORT_CTRL.loopback, Table of R292 (RW). -/
def portCtrlLoopback (a : Nat) : Fld := .mk (a + 0x430) 0 2 0x0 .rw
/-- DMA_CTRL.enable, Table of R309 (RW). -/
def dmaCtrlEnable (d : Nat) : Fld := .mk (dmaBase d + 0x0) 0 1 0x0 .rw
/-- DMA_CTRL.pause, Table of R309 (RW). -/
def dmaCtrlPause (d : Nat) : Fld := .mk (dmaBase d + 0x0) 1 1 0x0 .rw
/-- DMA_CTRL.stop, Table of R309 (RW). -/
def dmaCtrlStop (d : Nat) : Fld := .mk (dmaBase d + 0x0) 2 1 0x0 .rw
/-- DMA_CTRL.irq_en, Table of R309 (RW). -/
def dmaCtrlIrqEn (d : Nat) : Fld := .mk (dmaBase d + 0x0) 3 1 0x0 .rw
/-- DMA_CTRL.resume, Table of R309 (WO). -/
def dmaCtrlResume (d : Nat) : Fld := .mk (dmaBase d + 0x0) 4 2 0x0 .wo
/-- DMA_CTRL.ring_log2, Table of R309 (RW). -/
def dmaCtrlRingLog2 (d : Nat) : Fld := .mk (dmaBase d + 0x0) 8 5 0x4 .rw
/-- DMA_STATUS.state, Table of R309 (RO). -/
def dmaStatusState (d : Nat) : Fld := .mk (dmaBase d + 0x8) 0 4 0x1 .ro
/-- DMA_STATUS.privileged, Table of R309 (RO). -/
def dmaStatusPrivileged (d : Nat) : Fld := .mk (dmaBase d + 0x8) 4 1 0x0 .ro
/-- DMA_STATUS.owner, Table of R309 (RO). -/
def dmaStatusOwner (d : Nat) : Fld := .mk (dmaBase d + 0x8) 5 9 0x0 .ro
/-- DMA_STATUS.bad_count, Table of R309 (RO). -/
def dmaStatusBadCount (d : Nat) : Fld := .mk (dmaBase d + 0x8) 32 32 0x0 .ro
/-- DMA_RING_BASE.base, Table of R309 (RW). -/
def dmaRingBaseBase (d : Nat) : Fld := .mk (dmaBase d + 0x10) 12 40 0x0 .rw
/-- DMA_HEAD.head, Table of R309 (RW). -/
def dmaHeadHead (d : Nat) : Fld := .mk (dmaBase d + 0x18) 0 16 0x0 .rw
/-- DMA_TAIL.tail, Table of R309 (RW). -/
def dmaTailTail (d : Nat) : Fld := .mk (dmaBase d + 0x20) 0 16 0x0 .rw
/-- DMA_MSI_ADDR.addr, Table of R309 (RW). -/
def dmaMsiAddrAddr (d : Nat) : Fld := .mk (dmaBase d + 0x28) 0 64 0x0 .rw
/-- DMA_MSI_DATA.data, Table of R309 (RW). -/
def dmaMsiDataData (d : Nat) : Fld := .mk (dmaBase d + 0x30) 0 32 0x0 .rw
/-- DMA_CUR_SRC.src, Table of R309 (RO). -/
def dmaCurSrcSrc (d : Nat) : Fld := .mk (dmaBase d + 0x38) 0 64 0x0 .ro
/-- DMA_CUR_DST.dst, Table of R309 (RO). -/
def dmaCurDstDst (d : Nat) : Fld := .mk (dmaBase d + 0x40) 0 64 0x0 .ro
/-- DMA_CUR_REMAIN.remain, Table of R309 (RO). -/
def dmaCurRemainRemain (d : Nat) : Fld := .mk (dmaBase d + 0x48) 0 31 0x0 .ro
/-- DMA_ERR.kind, Table of R309 (RO). -/
def dmaErrKind (d : Nat) : Fld := .mk (dmaBase d + 0x50) 0 4 0x0 .ro
/-- DMA_ERR.dir, Table of R309 (RO). -/
def dmaErrDir (d : Nat) : Fld := .mk (dmaBase d + 0x50) 4 1 0x0 .ro
/-- DMA_ERR.ring, Table of R309 (RO). -/
def dmaErrRing (d : Nat) : Fld := .mk (dmaBase d + 0x50) 5 1 0x0 .ro
/-- DMA_ERR.beat, Table of R309 (RO). -/
def dmaErrBeat (d : Nat) : Fld := .mk (dmaBase d + 0x50) 32 32 0x0 .ro
/-- DMA_ERR_ADDR.addr, Table of R309 (RO). -/
def dmaErrAddrAddr (d : Nat) : Fld := .mk (dmaBase d + 0x58) 0 64 0x0 .ro
/-- DMA_SNAP_BEAT.beat, Table of R309 (RO). -/
def dmaSnapBeatBeat (d : Nat) : Fld := .mk (dmaBase d + 0x60) 0 64 0x0 .ro
/-- DMA_SNAP_STATE.state, Table of R309 (RO). -/
def dmaSnapStateState (d : Nat) : Fld := .mk (dmaBase d + 0x68) 0 4 0x0 .ro
/-- DMA_SNAP_STATE.head, Table of R309 (RO). -/
def dmaSnapStateHead (d : Nat) : Fld := .mk (dmaBase d + 0x68) 16 16 0x0 .ro
/-- DMA_SNAP_BYTES.bytes, Table of R309 (RO). -/
def dmaSnapBytesBytes (d : Nat) : Fld := .mk (dmaBase d + 0x70) 0 64 0x0 .ro
/-- DMA_SNAP_TOTAL.total, Table of R309 (RO). -/
def dmaSnapTotalTotal (d : Nat) : Fld := .mk (dmaBase d + 0x78) 0 64 0x0 .ro
/-- CLERK_ID.core, Table of R325 (RO). -/
def clerkIdCore (c : Nat) : Fld := .mk (0x100000000 + c * 0x100 + 0x0) 0 2 0x0 .ro
/-- CLERK_ID.tile, Table of R325 (RO). -/
def clerkIdTile (c : Nat) : Fld := .mk (0x100000000 + c * 0x100 + 0x0) 2 1 0x0 .ro
/-- CLERK_ID.assayer, Table of R325 (RO). -/
def clerkIdAssayer (c : Nat) : Fld := .mk (0x100000000 + c * 0x100 + 0x0) 3 1 0x0 .ro
/-- CLERK_STATUS.ie, Table of R325 (RW). -/
def clerkStatusIe (c : Nat) : Fld := .mk (0x100000000 + c * 0x100 + 0x4) 0 1 0x0 .rw
/-- CLERK_STATUS.pie, Table of R325 (RW). -/
def clerkStatusPie (c : Nat) : Fld := .mk (0x100000000 + c * 0x100 + 0x4) 1 1 0x0 .rw
/-- CLERK_EPC.epc, Table of R325 (RW). -/
def clerkEpcEpc (c : Nat) : Fld := .mk (0x100000000 + c * 0x100 + 0x8) 0 32 0x0 .rw
/-- CLERK_CAUSE.code, Table of R325 (RO). -/
def clerkCauseCode (c : Nat) : Fld := .mk (0x100000000 + c * 0x100 + 0xc) 0 5 0x0 .ro
/-- CLERK_CAUSE.bd, Table of R325 (RO). -/
def clerkCauseBd (c : Nat) : Fld := .mk (0x100000000 + c * 0x100 + 0xc) 5 1 0x0 .ro
/-- CLERK_CAUSE.taken, Table of R325 (RO). -/
def clerkCauseTaken (c : Nat) : Fld := .mk (0x100000000 + c * 0x100 + 0xc) 6 1 0x0 .ro
/-- CLERK_CAUSE.interrupt, Table of R325 (RO). -/
def clerkCauseInterrupt (c : Nat) : Fld := .mk (0x100000000 + c * 0x100 + 0xc) 7 1 0x0 .ro
/-- CLERK_BTARGET.target, Table of R325 (RO). -/
def clerkBtargetTarget (c : Nat) : Fld := .mk (0x100000000 + c * 0x100 + 0x10) 0 32 0x0 .ro
/-- CLERK_TVAL.value, Table of R325 (RO). -/
def clerkTvalValue (c : Nat) : Fld := .mk (0x100000000 + c * 0x100 + 0x14) 0 32 0x0 .ro
/-- CLERK_VECTOR.base, Table of R325 (RW). -/
def clerkVectorBase (c : Nat) : Fld := .mk (0x100000000 + c * 0x100 + 0x18) 12 20 0x0 .rw
/-- CLERK_IE.enable, Table of R325 (RW). -/
def clerkIeEnable (c : Nat) : Fld := .mk (0x100000000 + c * 0x100 + 0x1c) 0 7 0x0 .rw
/-- CLERK_IP.pending, Table of R325 (W1C). -/
def clerkIpPending (c : Nat) : Fld := .mk (0x100000000 + c * 0x100 + 0x20) 0 7 0x0 .w1c
/-- CLERK_SLICE.cycle, Table of R325 (RO). -/
def clerkSliceCycle (c : Nat) : Fld := .mk (0x100000000 + c * 0x100 + 0x24) 0 12 0x0 .ro
/-- CLERK_SLICE.overruns, Table of R325 (RWS). -/
def clerkSliceOverruns (c : Nat) : Fld := .mk (0x100000000 + c * 0x100 + 0x24) 16 16 0x0 .rws
/-- CLERK_BEAT_LO.beat, Table of R325 (RO). -/
def clerkBeatLoBeat (c : Nat) : Fld := .mk (0x100000000 + c * 0x100 + 0x28) 0 32 0x0 .ro
/-- CLERK_BEAT_HI.beat, Table of R325 (RO). -/
def clerkBeatHiBeat (c : Nat) : Fld := .mk (0x100000000 + c * 0x100 + 0x2c) 0 32 0x0 .ro
/-- CLERK_WIN.ecam, Table of R325 (RW). -/
def clerkWinEcam (c : Nat) : Fld := .mk (0x100000000 + c * 0x100 + 0x30) 0 1 0x0 .rw
/-- CLERK_IPI.send, Table of R325 (WO). -/
def clerkIpiSend (c : Nat) : Fld := .mk (0x100000000 + c * 0x100 + 0x34) 0 4 0x0 .wo
/-- CLERK_MSTAT.outstanding, Table of R325 (RO). -/
def clerkMstatOutstanding (c : Nat) : Fld := .mk (0x100000000 + c * 0x100 + 0x38) 0 4 0x0 .ro
/-- CLERK_MSTAT.err, Table of R325 (W1C). -/
def clerkMstatErr (c : Nat) : Fld := .mk (0x100000000 + c * 0x100 + 0x38) 4 1 0x0 .w1c
/-- CLERK_MERR.address, Table of R325 (RO). -/
def clerkMerrAddress (c : Nat) : Fld := .mk (0x100000000 + c * 0x100 + 0x3c) 0 32 0x0 .ro
/-- CLERK_HB.checked, Table of R325 (RO). -/
def clerkHbChecked (c : Nat) : Fld := .mk (0x100000000 + c * 0x100 + 0x40) 0 4 0x0 .ro
/-- CLERK_HB.last, Table of R325 (RO). -/
def clerkHbLast (c : Nat) : Fld := .mk (0x100000000 + c * 0x100 + 0x40) 4 4 0x0 .ro
/-- CLERK_HB.peer_hb, Table of R325 (RO). -/
def clerkHbPeerHb (c : Nat) : Fld := .mk (0x100000000 + c * 0x100 + 0x40) 8 1 0x0 .ro
/-- CLERK_HB.peer_misses, Table of R325 (RO). -/
def clerkHbPeerMisses (c : Nat) : Fld := .mk (0x100000000 + c * 0x100 + 0x40) 9 3 0x0 .ro
/-- CLERK_TOSS.senior, Table of R325 (RO). -/
def clerkTossSenior (c : Nat) : Fld := .mk (0x100000000 + c * 0x100 + 0x44) 0 1 0x0 .ro
/-- CLERK_TOSS.claim, Table of R325 (RW). -/
def clerkTossClaim (c : Nat) : Fld := .mk (0x100000000 + c * 0x100 + 0x44) 1 1 0x0 .rw
/-- CLERK_TOSS.forced_junior, Table of R325 (RO). -/
def clerkTossForcedJunior (c : Nat) : Fld := .mk (0x100000000 + c * 0x100 + 0x44) 2 1 0x0 .ro
/-- CLERK_TOSS.bridge_ok, Table of R325 (RO). -/
def clerkTossBridgeOk (c : Nat) : Fld := .mk (0x100000000 + c * 0x100 + 0x44) 3 1 0x0 .ro
/-- CLERK_TOSS.peer_pg, Table of R325 (RO). -/
def clerkTossPeerPg (c : Nat) : Fld := .mk (0x100000000 + c * 0x100 + 0x44) 4 1 0x0 .ro
/-- CLERK_TOSS.peer_fenced, Table of R325 (RO). -/
def clerkTossPeerFenced (c : Nat) : Fld := .mk (0x100000000 + c * 0x100 + 0x44) 5 1 0x0 .ro
/-- CLERK_TOSS.pref, Table of R325 (RO). -/
def clerkTossPref (c : Nat) : Fld := .mk (0x100000000 + c * 0x100 + 0x44) 6 1 0x0 .ro
/-- CLERK_TOSS.event, Table of R325 (RO). -/
def clerkTossEvent (c : Nat) : Fld := .mk (0x100000000 + c * 0x100 + 0x44) 8 4 0x0 .ro
/-- MBX_GLOBAL.senior, Table of R355 (RO). -/
def mbxGlobalSenior : Fld := .mk (0xF00000 + 0x0) 0 1 0x0 .ro
/-- MBX_GLOBAL.junior_ok, Table of R355 (RO). -/
def mbxGlobalJuniorOk : Fld := .mk (0xF00000 + 0x0) 1 1 0x0 .ro
/-- MBX_GLOBAL.forced_junior, Table of R355 (RO). -/
def mbxGlobalForcedJunior : Fld := .mk (0xF00000 + 0x0) 2 1 0x0 .ro
/-- MBX_GLOBAL.failovers, Table of R355 (RWS). -/
def mbxGlobalFailovers : Fld := .mk (0xF00000 + 0x0) 8 8 0x0 .rws
/-- MBX_GLOBAL.taken_last, Table of R355 (RO). -/
def mbxGlobalTakenLast : Fld := .mk (0xF00000 + 0x0) 16 16 0x0 .ro
/-- MBX_GLOBAL.deferred, Table of R355 (RWS). -/
def mbxGlobalDeferred : Fld := .mk (0xF00000 + 0x0) 32 16 0x0 .rws
/-- MBX_STAT.state, Table of R355 (RO). -/
def mbxStatState (i : Nat) : Fld := .mk (0xF00000 + 0x1000 + i * 0x10) 0 2 0x0 .ro
/-- MBX_STAT.result, Table of R355 (RO). -/
def mbxStatResult (i : Nat) : Fld := .mk (0xF00000 + 0x1000 + i * 0x10) 2 3 0x0 .ro
/-- MBX_STAT.dropped, Table of R355 (RO). -/
def mbxStatDropped (i : Nat) : Fld := .mk (0xF00000 + 0x1000 + i * 0x10) 16 16 0x0 .ro
/-- MBX_STAT.abandoned, Table of R355 (RWS). -/
def mbxStatAbandoned (i : Nat) : Fld := .mk (0xF00000 + 0x1000 + i * 0x10) 32 16 0x0 .rws
/-- MBX_STAT.held, Table of R355 (RO). -/
def mbxStatHeld (i : Nat) : Fld := .mk (0xF00000 + 0x1000 + i * 0x10) 48 9 0x0 .ro
/-- MBX_COUNT.clamps, Table of R355 (RO). -/
def mbxCountClamps (i : Nat) : Fld := .mk (0xF00000 + 0x1008 + i * 0x10) 0 32 0x0 .ro
/-- MBX_COUNT.taken, Table of R355 (RO). -/
def mbxCountTaken (i : Nat) : Fld := .mk (0xF00000 + 0x1008 + i * 0x10) 32 32 0x0 .ro
/-- MBX_SEQ.seq, Table of R355 (RWS). -/
def mbxSeqSeq (i : Nat) : Fld := .mk (0xF00000 + 0x3000 + i * 0x8) 0 64 0x0 .rws
/-- MBX_NOTICE.overflow, Table of R355 (RWS). -/
def mbxNoticeOverflow (i : Nat) : Fld := .mk (0xF00000 + 0x4000 + i * 0x8) 0 32 0x0 .rws
/-- MBX_NOTICE.placed, Table of R355 (RWS). -/
def mbxNoticePlaced (i : Nat) : Fld := .mk (0xF00000 + 0x4000 + i * 0x8) 32 32 0x0 .rws
/-- PWR_STATUS.pkg_state, Table of R413 (RO). -/
def pwrStatusPkgState : Fld := .mk (0x10000 + 0x0) 0 3 0x0 .ro
/-- PWR_STATUS.last_declined, Table of R413 (RO). -/
def pwrStatusLastDeclined : Fld := .mk (0x10000 + 0x0) 3 1 0x0 .ro
/-- PWR_STATUS.last_entry, Table of R413 (RO). -/
def pwrStatusLastEntry : Fld := .mk (0x10000 + 0x0) 4 2 0x0 .ro
/-- PWR_STATUS.pairs_gated, Table of R413 (RO). -/
def pwrStatusPairsGated : Fld := .mk (0x10000 + 0x0) 8 8 0x0 .ro
/-- PWR_STATUS.declines, Table of R413 (RO). -/
def pwrStatusDeclines : Fld := .mk (0x10000 + 0x0) 16 16 0x0 .ro
/-- PWR_VIN.vin_mv, Table of R413 (RO). -/
def pwrVinVinMv : Fld := .mk (0x10000 + 0x8) 0 16 0x0 .ro
/-- PWR_VIN.iin, Table of R413 (RO). -/
def pwrVinIin : Fld := .mk (0x10000 + 0x8) 16 16 0x0 .ro
/-- PWR_VIN.envelope_w, Table of R413 (RO). -/
def pwrVinEnvelopeW : Fld := .mk (0x10000 + 0x8) 32 10 0x0 .ro
/-- PWR_CTRL.tdp_w, Table of R413 (RW). -/
def pwrCtrlTdpW : Fld := .mk (0x10000 + 0x10) 0 10 0x280 .rw
/-- PWR_CTRL.drowse, Table of R413 (RW). -/
def pwrCtrlDrowse : Fld := .mk (0x10000 + 0x10) 10 1 0x0 .rw
/-- PWR_CTRL.drowse_beats, Table of R413 (RW). -/
def pwrCtrlDrowseBeats : Fld := .mk (0x10000 + 0x10) 16 14 0x64 .rw
/-- PWR_CTRL.t_throttle, Table of R413 (RW). -/
def pwrCtrlTThrottle : Fld := .mk (0x10000 + 0x10) 30 8 0x5F .rw
/-- PWR_CTRL.hyst, Table of R413 (RW). -/
def pwrCtrlHyst : Fld := .mk (0x10000 + 0x10) 38 4 0x5 .rw
/-- PWR_LIMIT.current_events, Table of R413 (RO). -/
def pwrLimitCurrentEvents : Fld := .mk (0x10000 + 0x18) 0 16 0x0 .ro
/-- PWR_LIMIT.thermal_events, Table of R413 (RO). -/
def pwrLimitThermalEvents : Fld := .mk (0x10000 + 0x18) 16 16 0x0 .ro
/-- PWR_LIMIT.gated_beats, Table of R413 (RO). -/
def pwrLimitGatedBeats : Fld := .mk (0x10000 + 0x18) 32 16 0x0 .ro
/-- PWR_THERM.t_max, Table of R413 (RO). -/
def pwrThermTMax : Fld := .mk (0x10000 + 0x20) 0 8 0x0 .ro
/-- PWR_THERM.sensor, Table of R413 (RO). -/
def pwrThermSensor : Fld := .mk (0x10000 + 0x20) 16 16 0x0 .ro
/-- PWR_THERM.throttle_steps, Table of R413 (RO). -/
def pwrThermThrottleSteps : Fld := .mk (0x10000 + 0x20) 32 16 0x0 .ro
/-- PWR_THERM.throttling, Table of R413 (RO). -/
def pwrThermThrottling : Fld := .mk (0x10000 + 0x20) 48 1 0x0 .ro
/-- PWR_IDLE.idle_beats, Table of R413 (RW). -/
def pwrIdleIdleBeats : Fld := .mk (0x10000 + 0x28) 0 32 0x0 .rw
/-- PWR_IDLE.count, Table of R413 (RO). -/
def pwrIdleCount : Fld := .mk (0x10000 + 0x28) 32 32 0x0 .ro
/-- PWR_WAKE.addr, Table of R413 (RW). -/
def pwrWakeAddr : Fld := .mk (0x10000 + 0x30) 0 7 0x3A .rw
/-- PWR_WAKE.enable, Table of R413 (RW). -/
def pwrWakeEnable : Fld := .mk (0x10000 + 0x30) 7 1 0x1 .rw
/-- PWR_WAKE.latched, Table of R413 (W1C). -/
def pwrWakeLatched : Fld := .mk (0x10000 + 0x30) 8 1 0x0 .w1c
/-- PWR_WAKE.tile, Table of R413 (RO). -/
def pwrWakeTile : Fld := .mk (0x10000 + 0x30) 9 1 0x0 .ro
/-- PWR_PADS.held, Table of R413 (W1C). -/
def pwrPadsHeld : Fld := .mk (0x10000 + 0x38) 0 33 0x0 .w1c
/-- PWR_WAKE_TIME.wake_us, Table of R413 (RO). -/
def pwrWakeTimeWakeUs : Fld := .mk (0x10000 + 0x40) 0 32 0x0 .ro
/-- PWR_WAKE_TIME.entry_beats, Table of R413 (RO). -/
def pwrWakeTimeEntryBeats : Fld := .mk (0x10000 + 0x40) 32 32 0x0 .ro
/-- PWR_DOMAIN.state, Table of R413 (RO). -/
def pwrDomainState (d : Nat) : Fld := .mk (0x10000 + 0x100 + d * 0x8) 0 3 0x0 .ro
/-- PWR_DOMAIN.held, Table of R413 (RO). -/
def pwrDomainHeld (d : Nat) : Fld := .mk (0x10000 + 0x100 + d * 0x8) 3 1 0x0 .ro
/-- PWR_DOMAIN.fenced, Table of R413 (RO). -/
def pwrDomainFenced (d : Nat) : Fld := .mk (0x10000 + 0x100 + d * 0x8) 4 1 0x0 .ro
/-- PWR_DOMAIN.req_on, Table of R413 (RW). -/
def pwrDomainReqOn (d : Nat) : Fld := .mk (0x10000 + 0x100 + d * 0x8) 8 1 0x1 .rw
/-- PWR_DOMAIN.freq_req, Table of R413 (RW). -/
def pwrDomainFreqReq (d : Nat) : Fld := .mk (0x10000 + 0x100 + d * 0x8) 16 6 0x1A .rw
/-- PWR_DOMAIN.freq, Table of R413 (RO). -/
def pwrDomainFreq (d : Nat) : Fld := .mk (0x10000 + 0x100 + d * 0x8) 24 6 0x0 .ro
/-- PWR_DOMAIN.mv, Table of R413 (RO). -/
def pwrDomainMv (d : Nat) : Fld := .mk (0x10000 + 0x100 + d * 0x8) 32 16 0x0 .ro
/-- dzcachectl.dbypass, Table of R75 (RW). -/
def dzcachectlDbypass (h : Nat) : Fld := .mk (0x200000000 + h * 0x10000 + 0x3e00) 0 1 0x0 .rw
/-- dzcachectl.ibypass, Table of R75 (RW). -/
def dzcachectlIbypass (h : Nat) : Fld := .mk (0x200000000 + h * 0x10000 + 0x3e00) 1 1 0x0 .rw
/-- dzprefetch.l1_stride_en, Table of R75 (RW). -/
def dzprefetchL1StrideEn (h : Nat) : Fld := .mk (0x200000000 + h * 0x10000 + 0x3e08) 0 1 0x1 .rw
/-- dzprefetch.l2_stream_en, Table of R75 (RW). -/
def dzprefetchL2StreamEn (h : Nat) : Fld := .mk (0x200000000 + h * 0x10000 + 0x3e08) 1 1 0x1 .rw
/-- dzprefetch.l2_distance, Table of R75 (RW). -/
def dzprefetchL2Distance (h : Nat) : Fld := .mk (0x200000000 + h * 0x10000 + 0x3e08) 2 4 0x8 .rw
/-- dzpredctl.clear, Table of R75 (WO). -/
def dzpredctlClear (h : Nat) : Fld := .mk (0x200000000 + h * 0x10000 + 0x2e00) 0 1 0x0 .wo
/-- dztenant.tenancy, Table of R75 (RO). -/
def dztenantTenancy (h : Nat) : Fld := .mk (0x200000000 + h * 0x10000 + 0x6e00) 0 9 0x0 .ro
/-- dztenant.sealed, Table of R75 (RO). -/
def dztenantSealed (h : Nat) : Fld := .mk (0x200000000 + h * 0x10000 + 0x6e00) 9 1 0x0 .ro
/-- dzpair.pair_id, Table of R75 (RO). -/
def dzpairPairId (h : Nat) : Fld := .mk (0x200000000 + h * 0x10000 + 0x7e00) 0 8 0x0 .ro
/-- dzpair.checked, Table of R75 (RO). -/
def dzpairChecked (h : Nat) : Fld := .mk (0x200000000 + h * 0x10000 + 0x7e00) 8 1 0x0 .ro
/-- dzpair.tile, Table of R75 (RO). -/
def dzpairTile (h : Nat) : Fld := .mk (0x200000000 + h * 0x10000 + 0x7e00) 9 3 0x0 .ro
/-- dzpair.variant, Table of R75 (RO). -/
def dzpairVariant (h : Nat) : Fld := .mk (0x200000000 + h * 0x10000 + 0x7e00) 12 4 0x0 .ro

/-- The plain (unindexed) fields of one CLK block. -/
def clkPlain : List Fld :=
  [clkBeatBeat, clkTimeTimeNs, clkStatusRefSel, clkStatusRefaOk, clkStatusRefbOk, clkStatusHoldover, clkStatusBeatMaster, clkStatusFabAligned] ++
  [clkStatusSlewing, clkStatusAoSource, clkStatusCaptain, clkFabBeatOffsetOffset, clkFabAlignErrNs, clkFabAlignMaxErrNs, clkSlewRemainLeadNs, clkWakeIntervalIntervalNs] ++
  [clkWakeUncertUncertNs, clkUncertTotalTotalNs, clkWakeCountWakes, clkCtrlRefPref, clkCtrlAoForceRc, clkRcTrimPeriodFs]

/-- The plain (unindexed) fields of one PAIR block. -/
def pairPlain (p : Nat) : List Fld :=
  [pairStatusState p, pairStatusSlot p, pairStatusSlotValid p, pairStatusCoreAFailed p, pairStatusCoreBFailed p, pairCtrlMode p, pairCtrlInjectB p, pairOwnerOwnerA p] ++
  [pairOwnerOwnerB p, pairCmpStatusMismatch p, pairCmpStatusBus p, pairCmpStatusBit p, pairCmpStatusCause p, pairCmpBeatBeat p, pairSummaryCompared p, pairSummaryCorrectedA p] ++
  [pairSummaryCorrectedB p, pairErrlatAL1iPar p, pairErrlatBL1iPar p, pairErrlatAL1dEccUe p, pairErrlatBL1dEccUe p, pairErrlatAL1dTagPar p, pairErrlatBL1dTagPar p, pairErrlatAL2EccUe p] ++
  [pairErrlatBL2EccUe p, pairErrlatAL2TagPar p, pairErrlatBL2TagPar p, pairErrlatARfEccUe p, pairErrlatBRfEccUe p, pairErrlatAQueuePar p, pairErrlatBQueuePar p, pairErrlatATlbPar p] ++
  [pairErrlatBTlbPar p, pairErrlatATest p, pairErrlatBTest p, pairErrlatACorrected p, pairErrlatBCorrected p, pairDecisionStep p, pairDecisionOutcome p, pairDecisionPass p] ++
  [pairDecisionBeats p, pairSpareToPair p, pairSpareFromPair p, pairSpareResumeBeats p, pairSpareBorrowed p, pairCountMismatches p, pairCountUndecided p]

/-- The plain (unindexed) fields of one LLC block. -/
def llcPlain (s : Nat) : List Fld :=
  [llcStatusState s, llcStatusFenced s, llcStatusCause s, llcStatusBuckets s, llcErrCountDataCe s, llcErrCountDataUe s, llcErrCountTagErr s, llcErrCountDirErr s] ++
  [llcErrLastSet s, llcErrLastWay s, llcErrLastTenancy s, llcErrLastKind s, llcErrLastBeat s, llcDrainLinesLeft s, llcDrainVictimsLeft s, llcDrainLocksReleased s] ++
  [llcVictimOccupancy s, llcVictimRecalls s, llcAmqOccupancy s, llcAmqWaits s, llcWaysSharedMask s, llcWaysLockedMask s, llcInjectDataCe s, llcInjectDataUe s] ++
  [llcInjectTagPar s]
/-- The indexed fields of one LLC block whose register stands at in-block offset r. -/
def llcIndexed (s : Nat) (r : Nat) : List Fld :=
  if 0x400 ≤ r ∧ r < 0xc08 ∧ (r - 0x400) % 0x8 = 0 then [llcPartWayMask s ((r - 0x400) / 0x8), llcPartSealed s ((r - 0x400) / 0x8), llcPartLockedWays s ((r - 0x400) / 0x8)]
  else []

/-- The plain (unindexed) fields of one MC block. -/
def mcPlain (c : Nat) : List Fld :=
  [mcStatusState c, mcStatusFailCode c, mcStatusStep c, mcStatusProgress c, mcDimmSpeed c, mcDimmRanks c, mcDimmStack c, mcDimmDensity c] ++
  [mcDimmCapacityGb c, mcSlotGridSlots c, mcSlotGridPre c, mcSlotGridPost c, mcSlotGridSpacing c, mcSlotGridWindow c, mcSlotGridBlocks c, mcSelLeadSelLeadPs c] ++
  [mcSchedCtrlPanicFab c, mcSchedCtrlPanicCxl c, mcSchedCtrlHyst c, mcSchedCtrlWrHigh c, mcSchedCtrlWrLow c, mcSchedCtrlAgeCap c, mcSchedCtrlIdleClose c, mcRtStatusPanicsFab c] ++
  [mcRtStatusPanicsCxl c, mcRtStatusPanicFab c, mcRtStatusPanicCxl c, mcPredStatsHits c, mcPredStatsMisses c, mcDriftCtrlIntervalBeats c, mcDriftCtrlThreshold c, mcDriftCtrlAlarmSteps c] ++
  [mcDriftStatusMaxDrift c, mcDriftStatusAlarm c, mcDriftStatusAdjustments c, mcDriftStatusLastBeat c, mcRefresh0Owed c, mcRefresh1Owed c, mcRefresh0Doubled c, mcRefresh1Doubled c] ++
  [mcRefresh0Catchup c, mcRefresh1Catchup c, mcRefresh0RateField c, mcRefresh1RateField c, mcRefresh0Postponed c, mcRefresh1Postponed c, mcRefresh0Catchups c, mcRefresh1Catchups c] ++
  [mcLostLostSlots c, mcLostLastBeat c, mcRetryCaAlerts c, mcRetryCrcAlerts c, mcRetryReplays c, mcRetryRereads c, mcRetryLastReplayed c, mcRetryLastKind c] ++
  [mcRetryLastSub c, mcRetryLastStopped c, mcRetryLastBeat c, mcInjectCaParity c, mcInjectWcrc c, mcInjectSub c, mcTrainTimeBeats c, mcMirrorEnabled c] ++
  [mcMirrorPartner c, mcMirrorDegraded c, mcMirrorPartnerReads c, mcEccCountCorrected c, mcEccCountUncorrectable c, mcEccCountIntegrity c, mcEccCountPoisonWritten c, mcEccLastLine c] ++
  [mcEccLastDevice c, mcEccLastKind c, mcEccLastSub c, mcEccLastRank c, mcEccLastBeatBeat c, mcSpareCtrlThreshold c, mcSpareCtrlAuto c, mcSpareCtrlWindowBeats c] ++
  [mcSpareStatusSpared c, mcRepairListed c, mcRepairSoft c, mcRepairHard c, mcRepairUnrepairable c, mcScrubActive c, mcScrubLinesDone c, mcPatrolRunning c] ++
  [mcPatrolReason c, mcPatrolLapBeats c, mcPatrolLaps c, mcFillLinesDone c, mcFillTimeBeats c, mcFlipCtrlArmed c, mcFlipCtrlDeviceA c, mcFlipCtrlDeviceB c] ++
  [mcFlipLineLine c, mcFlipPatAPattern c, mcFlipPatBPattern c, mcFlipDoneBeat c]
/-- The indexed fields of one MC block whose register stands at in-block offset r. -/
def mcIndexed (c : Nat) (r : Nat) : List Fld :=
  if 0x100 ≤ r ∧ r < 0x240 ∧ (r - 0x100) % 0x8 = 0 then [mcNibbleRdDelay c ((r - 0x100) / 0x8), mcNibbleRdWidth c ((r - 0x100) / 0x8), mcNibbleWrDelay c ((r - 0x100) / 0x8), mcNibbleWrWidth c ((r - 0x100) / 0x8)]
  else if 0x1000 ≤ r ∧ r < 0x1200 ∧ (r - 0x1000) % 0x8 = 0 then [mcSealBlockPosition c ((r - 0x1000) / 0x8), mcSealBlockRole c ((r - 0x1000) / 0x8), mcSealBlockValid c ((r - 0x1000) / 0x8), mcSealBlockOwner c ((r - 0x1000) / 0x8), mcSealBlockSlotEn c ((r - 0x1000) / 0x8)]
  else if 0x500 ≤ r ∧ r < 0x640 ∧ (r - 0x500) % 0x8 = 0 then [mcDevCeWindow c ((r - 0x500) / 0x8), mcDevCeTotal c ((r - 0x500) / 0x8)]
  else []

/-- The plain (unindexed) fields of one FAB block. -/
def fabPlain : List Fld :=
  [fabIdDeviceId, fabIdMember, fabIdCaptain, fabIdMembers, fabIdEpoch, fabUidUid, fabCaptainUidUid, fabStateState] ++
  [fabStateHops, fabStateBankReady, fabStateIsolated, fabStateConvergeBeats, fabCtrlCaptainEligible, fabCtrlFixedId, fabCtrlFixedValid, fabCtrlLinkWaitMs] ++
  [fabMembersMembers, fabReachReach, fabEventsSwitches, fabEventsElections, fabEventsRefused, fabEventsErrors, fabPrevIdPrevId, fabPrevIdPrevValid]
/-- The indexed fields of one FAB block whose register stands at in-block offset r. -/
def fabIndexed (r : Nat) : List Fld :=
  if 0x400 ≤ r ∧ r < 0xe00 ∧ r % 8 = 0 then [fabGrantMask ((r - 0x400) / 0x28) ((r - 0x400) % 0x28 / 8)]
  else if 0xe00 ≤ r ∧ r < 0x1000 ∧ (r - 0xe00) % 0x8 = 0 then [fabRouteEntry ((r - 0xe00) / 0x8)]
  else []

/-- The plain (unindexed) fields of one FABP block. -/
def fabpPlain (k : Nat) : List Fld :=
  [fabPortStatusState k, fabPortStatusWidth k, fabPortStatusCause k, fabPortStatusNbId k, fabPortStatusNbValid k, fabPortStatusNbPort k, fabPortNbUidUid k, fabPortDelayDelayPs k] ++
  [fabPortFecCorrected k, fabPortFecUncorrectable k, fabPortRetryReplays k, fabPortRetryTagFail k, fabPortRetryFailures k, fabPortShareReserved k, fabPortShareShares k, fabPortCtrlEnable k] ++
  [fabPortCtrlLoopback k, fabPortLastFailBeat k]

/-- The plain (unindexed) fields of one PORT block. -/
def portPlain (a : Nat) : List Fld :=
  [portStatusRole a, portStatusState a, portStatusWidth a, portStatusSpeed a, portStatusDegraded a, portStatusFlit a, portLanesFailed a, portErrLaneFailures a] ++
  [portErrLinkDowns a, portErrReplays a, portRefusedRefused a, portGroupBifurcation a, portGroupGroup a, portLendLoBaseLo a, portLendHiBaseHi a, portLendSizeUnits a] ++
  [portLendTenTenancy a, portCtrlLoopback a]

/-- The plain (unindexed) fields of one DMA block. -/
def dmaPlain (d : Nat) : List Fld :=
  [dmaCtrlEnable d, dmaCtrlPause d, dmaCtrlStop d, dmaCtrlIrqEn d, dmaCtrlResume d, dmaCtrlRingLog2 d, dmaStatusState d, dmaStatusPrivileged d] ++
  [dmaStatusOwner d, dmaStatusBadCount d, dmaRingBaseBase d, dmaHeadHead d, dmaTailTail d, dmaMsiAddrAddr d, dmaMsiDataData d, dmaCurSrcSrc d] ++
  [dmaCurDstDst d, dmaCurRemainRemain d, dmaErrKind d, dmaErrDir d, dmaErrRing d, dmaErrBeat d, dmaErrAddrAddr d, dmaSnapBeatBeat d] ++
  [dmaSnapStateState d, dmaSnapStateHead d, dmaSnapBytesBytes d, dmaSnapTotalTotal d]

/-- The plain (unindexed) fields of one CLERK block. -/
def clerkPlain (c : Nat) : List Fld :=
  [clerkIdCore c, clerkIdTile c, clerkIdAssayer c, clerkStatusIe c, clerkStatusPie c, clerkEpcEpc c, clerkCauseCode c, clerkCauseBd c] ++
  [clerkCauseTaken c, clerkCauseInterrupt c, clerkBtargetTarget c, clerkTvalValue c, clerkVectorBase c, clerkIeEnable c, clerkIpPending c, clerkSliceCycle c] ++
  [clerkSliceOverruns c, clerkBeatLoBeat c, clerkBeatHiBeat c, clerkWinEcam c, clerkIpiSend c, clerkMstatOutstanding c, clerkMstatErr c, clerkMerrAddress c] ++
  [clerkHbChecked c, clerkHbLast c, clerkHbPeerHb c, clerkHbPeerMisses c, clerkTossSenior c, clerkTossClaim c, clerkTossForcedJunior c, clerkTossBridgeOk c] ++
  [clerkTossPeerPg c, clerkTossPeerFenced c, clerkTossPref c, clerkTossEvent c]

/-- The plain (unindexed) fields of one MBX block. -/
def mbxPlain : List Fld :=
  [mbxGlobalSenior, mbxGlobalJuniorOk, mbxGlobalForcedJunior, mbxGlobalFailovers, mbxGlobalTakenLast, mbxGlobalDeferred]
/-- The indexed fields of one MBX block whose register stands at in-block offset r. -/
def mbxIndexed (r : Nat) : List Fld :=
  if 0x1000 ≤ r ∧ r < 0x2040 ∧ (r - 0x1000) % 0x10 = 0 then [mbxStatState ((r - 0x1000) / 0x10), mbxStatResult ((r - 0x1000) / 0x10), mbxStatDropped ((r - 0x1000) / 0x10), mbxStatAbandoned ((r - 0x1000) / 0x10), mbxStatHeld ((r - 0x1000) / 0x10)]
  else if 0x1008 ≤ r ∧ r < 0x2048 ∧ (r - 0x1008) % 0x10 = 0 then [mbxCountClamps ((r - 0x1008) / 0x10), mbxCountTaken ((r - 0x1008) / 0x10)]
  else if 0x3000 ≤ r ∧ r < 0x3820 ∧ (r - 0x3000) % 0x8 = 0 then [mbxSeqSeq ((r - 0x3000) / 0x8)]
  else if 0x4000 ≤ r ∧ r < 0x4820 ∧ (r - 0x4000) % 0x8 = 0 then [mbxNoticeOverflow ((r - 0x4000) / 0x8), mbxNoticePlaced ((r - 0x4000) / 0x8)]
  else []

/-- The plain (unindexed) fields of one PWR block. -/
def pwrPlain : List Fld :=
  [pwrStatusPkgState, pwrStatusLastDeclined, pwrStatusLastEntry, pwrStatusPairsGated, pwrStatusDeclines, pwrVinVinMv, pwrVinIin, pwrVinEnvelopeW] ++
  [pwrCtrlTdpW, pwrCtrlDrowse, pwrCtrlDrowseBeats, pwrCtrlTThrottle, pwrCtrlHyst, pwrLimitCurrentEvents, pwrLimitThermalEvents, pwrLimitGatedBeats] ++
  [pwrThermTMax, pwrThermSensor, pwrThermThrottleSteps, pwrThermThrottling, pwrIdleIdleBeats, pwrIdleCount, pwrWakeAddr, pwrWakeEnable] ++
  [pwrWakeLatched, pwrWakeTile, pwrPadsHeld, pwrWakeTimeWakeUs, pwrWakeTimeEntryBeats]
/-- The indexed fields of one PWR block whose register stands at in-block offset r. -/
def pwrIndexed (r : Nat) : List Fld :=
  if 0x100 ≤ r ∧ r < 0x6c0 ∧ (r - 0x100) % 0x8 = 0 then (if (r - 0x100) / 0x8 < 136 then [pwrDomainFreqReq ((r - 0x100) / 0x8), pwrDomainFreq ((r - 0x100) / 0x8)] else []) ++
    [pwrDomainState ((r - 0x100) / 0x8), pwrDomainHeld ((r - 0x100) / 0x8), pwrDomainFenced ((r - 0x100) / 0x8), pwrDomainReqOn ((r - 0x100) / 0x8), pwrDomainMv ((r - 0x100) / 0x8)]
  else []

/-- The plain (unindexed) fields of one DZ block. -/
def dzPlain (h : Nat) : List Fld :=
  [dzcachectlDbypass h, dzcachectlIbypass h, dzprefetchL1StrideEn h, dzprefetchL2StreamEn h, dzprefetchL2Distance h, dzpredctlClear h, dztenantTenancy h, dztenantSealed h] ++
  [dzpairPairId h, dzpairChecked h, dzpairTile h, dzpairVariant h]

/-- Base of the DVSEC of port n (0-3) of SerDes group g in its ECAM window (R269, R292). -/
def portBase (g n : Nat) : Nat := 0x80000000 + g * 0x10000000 + n * 0x8000

/-- The register fields whose register stands at window offset off (Table 1.5), and none at a reserved offset.
Offsets from 0x1_0000_0000 up are the model's own keys of the Clerk cores' local registers and of the dz CSRs. -/
def fieldsAt (off : Nat) : List Fld :=
  let at' (l : List Fld) : List Fld := l.filter fun f => f.off == off
  if off < 0x10000 then at' clkPlain
  else if off < 0x20000 then at' pwrPlain ++ pwrIndexed (off - 0x10000)
  else if 0x100000 ≤ off ∧ off < 0x188000 then at' (pairPlain ((off - 0x100000) / 0x1000))
  else if 0x200000 ≤ off ∧ off < 0x280000 then
    at' (llcPlain ((off - 0x200000) / 0x1000)) ++ llcIndexed ((off - 0x200000) / 0x1000) ((off - 0x200000) % 0x1000)
  else if 0x300000 ≤ off ∧ off < 0x400000 then
    at' (mcPlain ((off - 0x300000) / 0x10000)) ++ mcIndexed ((off - 0x300000) / 0x10000) ((off - 0x300000) % 0x10000)
  else if 0x400000 ≤ off ∧ off < 0x401000 then at' fabPlain ++ fabIndexed (off - 0x400000)
  else if 0x401000 ≤ off ∧ off < 0x407000 then at' (fabpPlain ((off - 0x401000) / 0x1000))
  else if 0x500000 ≤ off ∧ off < 0x540000 then at' (dmaPlain ((off - 0x500000) / 0x1000))
  else if 0xF00000 ≤ off ∧ off < 0xF10000 then at' mbxPlain ++ mbxIndexed (off - 0xF00000)
  else if 0x80000000 ≤ off ∧ off < 0x100000000 then at' (portPlain (off / 0x8000 * 0x8000))
  else if 0x100000000 ≤ off ∧ off < 0x100001000 then at' (clerkPlain ((off - 0x100000000) / 0x100))
  else if 0x200000000 ≤ off then at' (dzPlain ((off - 0x200000000) / 0x10000))
  else []

/-- Read-only fields that the spec counts since cold reset: lost slots (Table 6.8), repairs and each device's corrections (Table 7.5),
and the corrected errors of a core (Table 4.7). -/
def sinceCold (k : Nat) : Bool :=
  let off := k / 64
  let lo := k % 64
  let r := off % 0x10000
  (decide (0x300000 ≤ off) && decide (off < 0x400000) && ((r == 0x58 && lo == 0) || (r == 0x430 && (lo == 8 || lo == 16)) ||
      (decide (0x500 ≤ r) && decide (r < 0x640) && lo == 16))) ||
    (decide (0x100000 ≤ off) && decide (off < 0x188000) && (off % 0x1000 == 0x30 || off % 0x1000 == 0x38) && lo == 16)

/-- A field keeps its value over a warm reset: access type RWS (R13), every CLK_ field (R53), and what is counted since cold
reset. -/
def stickyKey (k : Nat) : Bool :=
  decide (k / 64 < 0x10000) || sinceCold k || (fieldsAt (k / 64)).any fun f => f.lo == k % 64 && f.acc == .rws

end Sys2Proof.Machine
end

