-- ==== Sys2Proof/Machine/Table.lean ====
section
/-! DEFINITION. Machine/Table.lean: reading and writing the sparse tables that hold registers, memory and
per-unit records. A write of the default value removes the entry, so that equal contents are equal data. -/
namespace Sys2Proof.Machine

/-- The value at key k, d where the table lists none. -/
def tget {α : Type} (d : α) : Table α → Nat → α
  | [], _ => d
  | (j, v) :: r, k => if j = k then v else tget d r k

/-- The entry at key k of a table without a default. -/
def tfind {α : Type} : Table α → Nat → Option α
  | [], _ => none
  | (j, v) :: r, k => if j = k then some v else tfind r k

/-- The table with v at key k, in rising order of keys. -/
def tput {α : Type} : Table α → Nat → α → Table α
  | [], k, v => [(k, v)]
  | (j, u) :: r, k, v =>
    if k < j then (k, v) :: (j, u) :: r
    else if k = j then (k, v) :: r
    else (j, u) :: tput r k v

/-- The table without key k. -/
def tdel {α : Type} : Table α → Nat → Table α
  | [], _ => []
  | (j, u) :: r, k => if j = k then tdel r k else (j, u) :: tdel r k

/-- A write: the default value is stored as no entry. -/
def tset {α : Type} [DecidableEq α] (d : α) (t : Table α) (k : Nat) (v : α) : Table α :=
  if v = d then tdel t k else tput t k v

/-- The keys of a table rise strictly from above `lo`. -/
def risingFrom {α : Type} (lo : Nat) : Table α → Bool
  | [] => true
  | (j, _) :: r => decide (lo ≤ j) && risingFrom (j + 1) r

/-- The canonical form of a table: rising keys and no entry equal to the default. -/
def twf {α : Type} [DecidableEq α] (d : α) (t : Table α) : Bool :=
  risingFrom 0 t && t.all fun e => decide (e.2 ≠ d)

/-- Change the record at key k. -/
def tmod {α : Type} [DecidableEq α] (d : α) (t : Table α) (k : Nat) (f : α → α) : Table α :=
  tset d t k (f (tget d t k))

/-- Every number below n that satisfies p, ascending. -/
def numsBelow (n : Nat) (p : Nat → Bool) : List Nat := (List.range n).filter p

end Sys2Proof.Machine
end

