-- ==== Sys2Proof/Machine/State.lean ====
section
/-! DEFINITION. Machine/State.lean: everything the spec gives the block, as plain data: the register file, the
units' records beside their registers, what is due at later boundaries, and the queue of waiting commands. -/
namespace Sys2Proof.Machine

/-- Nothing the spec describes stops the block as a whole, so no meaning faults: the type has no constructor. -/
inductive Fault where
  deriving DecidableEq, Repr

/-- Why a command has no meaning. -/
inductive Refusal where
  /-- Raised by an arm of exec that has no meaning yet; safe, because no next state is claimed. -/
  | notModelled (mnemonic : String)
  deriving DecidableEq, Repr

/-- Bytes of a page, an argument block or a result, by offset; an unlisted byte is 0 (R335). -/
abbrev Bytes := Table Nat

/-- One record of a RAS log (Table 13.12a, R358). `slice` is the beat whose slice places it (R423). -/
structure RasRec where
  seq     : Nat
  beat    : Nat
  cls     : Nat
  kind    : Nat
  unit    : Nat
  cause   : Nat
  tenancy : Nat
  addr    : Nat
  detail  : List Nat
  slice   : Nat
  deriving DecidableEq, Repr

/-- A ring of records: the newest records, oldest first, and the number of the next one (R358). -/
structure RasLog where
  recs : List RasRec := []
  next : Nat := 1
  read : List Nat := []                 -- records held that ras.read has returned
  lost : Nat := 0                       -- records overwritten before they were read
  deriving DecidableEq, Repr

/-- A count of corrections of one cause in one unit, and the slice of its last record (R424). -/
structure CorrCount where
  count : Nat := 0
  last  : Option Nat := none
  deriving DecidableEq, Repr

/-- The RAS logs (R358, R424). -/
structure Ras where
  platform : RasLog := {}
  tenants  : Table RasLog := []
  corr     : Table CorrCount := []
  deriving DecidableEq, Repr

/-- A notice (Table 13.5): kind, number, boundary, payload bytes by entry offset. -/
structure Notice where
  kind    : Nat
  seq     : Nat
  beat    : Nat
  payload : Bytes
  deriving DecidableEq, Repr

/-- The result area of a page (Table 13.2). -/
structure Result where
  st      : Nat := 0
  clamped : Nat := 0
  code    : Nat := 0
  seq     : Nat := 0
  taken   : Nat := 0
  done    : Nat := 0
  data    : Bytes := []
  deriving DecidableEq, Repr

/-- How far a Taken command has come: taken and to be carried out, carried on over later boundaries, result staged. -/
inductive CmdPhase where
  | none | ready | started | staged
  deriving DecidableEq, Repr

/-- One mailbox (R334 to R350). The state and the counters stand in MBX_STAT, MBX_COUNT, MBX_SEQ and MBX_NOTICE. -/
structure Mbx where
  cmd     : Bytes := []             -- the command area as the owner last stored it
  copy    : Bytes := []             -- the command area copied at the doorbell (R337)
  latched : Nat := 0                -- beat of the doorbell (R339)
  taken   : Nat := 0                -- boundary at which the command was taken
  phase   : CmdPhase := .none
  staged  : Option (Nat × Result) := Option.none   -- beat of the slice that wrote the result, and the result
  res     : Result := {}            -- the published result
  entries : Table Notice := []      -- readable notices by entry
  produced : Nat := 0
  effAck  : Nat := 0
  nextSeq : Nat := 1
  placed  : List Notice := []       -- written in the last slice, readable at the next step 8
  queue   : List Notice := []       -- waiting for a free entry (R350)
  heldShown : Nat := 0              -- the page's held field (changes at step 8 only, R350)
  heldNow : Nat := 0                -- notices held at the end of the last slice
  overNow : Nat := 0                -- notices discarded so far
  overShown : Nat := 0              -- the page's overflow field
  i3cBusy : Bool := false           -- page 257: a request of the I3C target waits for its result (R352)
  deriving DecidableEq, Repr

/-- Fused and pin-level state of the package. -/
inductive DebugSt where
  | development | production | locked
  deriving DecidableEq, Repr

/-- One thermal sensor: last accepted reading, boundaries discarded in a row, retired (R426). -/
structure Sensor where
  last    : Option Int := Option.none
  badRuns : Nat := 0
  retired : Bool := false
  deriving DecidableEq, Repr

structure Chip where
  variant    : Variant := .d9_256c
  uid        : Nat := 0
  tossPref   : Nat := 0
  ownerKeyHash : Nat := 0
  serial     : Nat := 0
  uds        : Nat := 0
  stepping   : Nat := 0xA0              -- mimpid (Table 3.2)
  variantMask : Nat := 0
  debugState : DebugSt := .production
  counters   : Table Nat := []          -- anti-rollback counters 0-7 (R378)
  vinGood    : Bool := true
  off        : Bool := false            -- switched off under R415 or R412 until VIN is applied again
  fatal      : Bool := false            -- device-fatal stop of R417
  resetN     : Bool := true             -- level of RESET_N
  thermTrip  : Bool := false            -- THERMTRIP_N driven low (R412)
  i3cMv      : Nat := 1800              -- sideband level chosen by the straps (R447)
  strapsDone : Bool := false
  perstLow   : List Nat := []           -- groups whose PERSTg_N input is low (R445)
  sensors    : Table Sensor := []
  xtalFitted : Bool := false            -- XTAL32 has edges (R49)
  entropyDead : List Nat := []          -- tiles whose source failed its health test (R57)
  i3cAns     : Option (Nat × Nat × Bytes) := Option.none  -- the I3C target's last response: state, seq, data (R352)
  tapIr      : Nat := 0xFF              -- TAP instruction that acts (R437)
  deriving DecidableEq, Repr

/-- Beat and platform time beside the CLK_ registers. -/
structure TimeSt where
  started    : Bool := false            -- the first boundary has passed (R32)
  sub        : Nat := 0                 -- platform time gained since the last boundary, in ns (R45, R50)
  slewPhase  : Nat := 0                 -- beats of the running slew, modulo 100 (R47)
  setNext    : Option Nat := Option.none   -- time.set value due at the next boundary (R357)
  capBeat    : Nat := 0                 -- the captain's beat number and platform time at the latest boundary (R44, R51, R262)
  capTime    : Nat := 0
  capKnown   : Bool := false            -- a marker of the present captain has arrived
  holdBeats  : Nat := 0                 -- holdover beats since the last 1 ns of uncertainty (R422)
  lengthen   : Nat := 0                 -- ns by which the joining beat is lengthened (R42)
  adjust     : Int := 0                 -- ns by which the phase adjuster moves the next boundary (R41)
  oscPhase   : Nat := 0                 -- reference-cycle phase of an oscillator edge at entry into Dormant (R48)
  noMarker   : Nat := 0                 -- beats without a beat marker (R43)
  tLast      : Nat := 0                 -- R50
  bLast      : Nat := 0
  tEntry     : Nat := 0
  dormant    : Bool := false            -- between cycle L and wake: no boundary occurs (R37)
  wakeRefs   : Bool := false            -- a reference not good at the first boundary after wake counts as lost (R457)
  deriving DecidableEq, Repr

inductive HartSt where
  | offline | running | stopped | frozen | gated | saved | fenced
  deriving DecidableEq, Repr

inductive Priv where
  | u | s | m | vu | vs
  deriving DecidableEq, Repr

inductive WrsWait where
  | none | sto | nto
  deriving DecidableEq, Repr

/-- An exception raised on a hart: cause code of the privileged architecture, xtval, xepc. -/
structure Exc where
  cause : Nat
  tval  : Nat
  epc   : Nat
  deriving DecidableEq, Repr

/-- An access a hart has presented and not retired: its pc, its element where it is a vector access, and the events of
Table 3.11 it has met (R74, R80). -/
structure Access where
  pc    : Nat
  elem  : Option Nat
  codes : List Nat := []
  early : Bool := false                 -- older instructions are not yet resolved: it is not the oldest (R66)
  deriving DecidableEq, Repr

/-- One logical hart: the state image of Table 4.5 and its run state. -/
structure Hart where
  st    : HartSt := .offline
  wfi   : Bool := false
  wrs   : WrsWait := .none
  pc    : Nat := 0
  priv  : Priv := .m
  x     : Table Nat := []
  fp    : Table Nat := []
  vec   : Table Nat := []
  csr   : Table Nat := []               -- every CSR by number but the dz CSRs, which are registers
  resv  : Option Nat := Option.none     -- LR reservation: the line (Za64rs)
  resvAtSlice : Bool := false           -- the reservation is held at the slice (R78)
  pend  : List Nat := []                -- pending interrupts: file * 256 + identity; identity 0 is the timer compare
  enab  : List Nat := []                -- enabled identities, same numbering
  thr   : Table Nat := []               -- threshold per interrupt file
  mtimecmp : Nat := 0                   -- machine timer compare (R92, R401); 0: none set
  held  : List Nat := []                -- MSIs recorded while frozen (R92)
  exc   : Option Exc := Option.none     -- the last exception raised
  loaded : Nat := 0                     -- the last value delivered by a load
  access : Option Access := Option.none -- the access presented and not retired (R74)
  cbo    : Option Nat := Option.none    -- line of a cbo whose completion the hart waits for (R60)
  seed  : Nat := 0                      -- tenancy seed (R61, R63)
  ckey  : Nat := 0                      -- context key (R61)
  owner : Nat := 0                      -- owner kept while no pair is bound
  sparings : Nat := 0
  lastResume : Nat := 0
  fencedAt : Option Nat := Option.none  -- boundary of its last fence (R40, R102)
  deriving DecidableEq, Repr

inductive Mesi where
  | m | e | s
  deriving DecidableEq, Repr

/-- A line in a core's L2 (and, by inclusion, its L1D): data is the 512-bit line, byte 0 lowest. -/
structure CLine where
  tag    : Nat
  st     : Mesi
  poison : Bool
  data   : Nat
  deriving DecidableEq, Repr

/-- A tagged predictor entry (Table 3.6). -/
structure PredEnt where
  valid  : Bool := false
  tag    : Nat := 0
  ctr    : Int := 0
  useful : Nat := 0
  deriving DecidableEq, Repr

/-- An entry of the branch target buffers or of the indirect predictor (Table 3.6). -/
structure TargEnt where
  tag    : Nat
  target : Nat
  kind   : Nat                          -- 0 conditional, 1 jump, 2 call, 3 return, 4 indirect jump, 5 indirect call
  conf   : Nat := 0                     -- 2-bit confidence of the indirect predictor
  deriving DecidableEq, Repr

/-- The predictors and prefetchers of one physical core (Tables 3.6 and 3.7). -/
structure Pred where
  t0      : Table Nat := []             -- T0 counters; the cold state is 1, weakly not-taken
  tagged  : Table PredEnt := []         -- table i (1-6), entry n at key i * 4096 + n
  ubtb    : Table (Option TargEnt) := []  -- micro BTB, 64 entries
  btb     : Table (Option TargEnt) := []  -- main BTB, way w of set n at key n * 8 + w
  ind     : Table (Option TargEnt) := []  -- indirect target predictor, 2,048 entries
  ras     : List Nat := []              -- return addresses, newest first, 48
  targets : List Nat := []              -- path history of the indirect predictor: 32 targets, newest first
  ghist   : Nat := 0                    -- newest outcome in bit 0, 640 bits
  phist   : Nat := 0
  streams : List Nat := []              -- prefetch streams
  deriving DecidableEq, Repr

/-- One physical core's caches, store buffer and predictors. -/
structure Core where
  l2      : Table CLine := []           -- by line number pa >> 6
  l1i     : List Nat := []              -- lines held by the L1I
  l1d     : List Nat := []              -- lines held by the L1D, which the L2 includes (Table 3.3)
  dtlb    : List (Nat × Nat) := []      -- L1 DTLB: virtual page under its address space, page frame (Table 3.3)
  itlb    : List Nat := []              -- L1 ITLB: virtual page under its address space (Table 3.3)
  l2tlb   : List (Nat × Nat) := []      -- L2 TLB, as the L1 DTLB (Table 3.3)
  walks   : List Nat := []              -- page-walk caches: 2 MB region under its address space (Table 3.3)
  missQ   : List (Nat × Bool) := []     -- misses that wait in the L2 miss queue: line, exclusive (R66)
  hints   : List Nat := []              -- lines in flight that only a prefetch has asked for (R185)
  pred    : Pred := {}
  retired : Nat := 0                    -- retired conditional branches since the last halving (R64)
  badFills : List Nat := []             -- lines whose fill returned poison, until the access retires (R184, R185)
  deriving DecidableEq, Repr

/-- The entry of the comparator's side-effect record (R87): the released access, and its response when that has arrived:
0 and the data, or the cause of the exception it ends in. -/
structure SideEff where
  addr : Nat
  data : Nat
  size : Nat
  kind : Nat
  resp : Option (Nat × Nat)
  deriving DecidableEq, Repr

/-- A pair's sparing sequence, gating and armed faults, beside its PAIR_ registers. -/
structure Pair where
  libero    : Option Nat := Option.none     -- Libero reserved under R96
  survivor  : Option Nat := Option.none     -- 0 core A, 1 core B
  doomed    : Bool := false                 -- the hart is fenced after the drain (R105 policy 0, R106)
  single    : Bool := false                 -- the image is copied back into the survivor (R105 policy 1)
  images    : List Hart := []               -- the state buffer: the image of core A and of core B (R93)
  inbound   : List (Nat × Nat) := []        -- the inbound buffer of a frozen pair: lines and their data (R92)
  sideEff   : Option SideEff := Option.none
  replay    : Bool := false                 -- the recorded access is answered from the record when it comes again (R87)
  digestBad : Nat := 0                      -- failed digest checks (R98)
  resumeAt  : Option Nat := Option.none     -- boundary of the resume (R99)
  injectB   : Option Nat := Option.none     -- armed core-B fault: beat of expiry (R436)
  invert    : Bool := false                 -- a bit of core B's next write-data output is inverted (R109)
  idleBeats : Nat := 0                      -- boundaries with every hart in WFI or offline (R400)
  gating    : Bool := false                 -- drain and save under way (R400)
  saved     : Bool := false                 -- images in the tile save array
  restoreAt : Option Nat := Option.none     -- boundary of the resume under R401
  halved    : Bool := false                 -- limiter (R397)
  clkGated  : Bool := false                 -- clock-gated for this beat (R395)
  falling   : Bool := false                 -- its frequency falls (R411)
  throttle  : Nat := 0                      -- 100 MHz steps below the allocation (R411)
  reqMbx    : Option Nat := Option.none     -- mailbox whose core.requalify tests the pair
  corrA     : Nat := 0
  corrB     : Nat := 0
  drained   : Nat := 0                      -- dirty lines written back by the running drain
  prior     : Nat := 0                      -- PAIR_STATUS.state before a test
  parks     : List (Nat × Nat) := []        -- harts being parked and the mailbox, 512 + t for tenant.close of t, 1024 once drained
  deriving DecidableEq, Repr

/-- A line in a slice's data array or victim cache (Table 5.1). -/
structure SLine where
  tag    : Nat
  way    : Nat
  dirty  : Bool
  locked : Bool
  poison : Bool
  data   : Nat
  err    : Nat := 0            -- data error the array holds: 0 none, 1 correctable, 2 uncorrectable
  tagErr : Bool := false       -- the stored tag fails its address parity
  deriving DecidableEq, Repr

/-- A directory entry: tenancy tag, exclusive or shared, and the cores that hold the line (Table 5.1). -/
structure DirEnt where
  tag    : Nat
  excl   : Bool
  cores  : List Nat
  deriving DecidableEq, Repr

/-- A maintenance operation or request in the address-match queue (R125). -/
structure AmqEnt where
  line    : Nat
  core    : Nat
  op      : Nat          -- 0 request, 1 clean, 2 flush, 3 inval, 4 request for an exclusive copy
  tag     : Nat
  deriving DecidableEq, Repr

/-- A fill in flight (R125): the line, who asked for it and how. -/
structure Fill where
  line : Nat
  core : Nat
  tag  : Nat
  excl : Bool
  deriving DecidableEq, Repr

/-- An entry of a slice's fabric directory (R249): tag, held modified or exclusive by one device, devices. -/
structure FabEnt where
  tag  : Nat
  own  : Bool
  devs : List Nat
  deriving DecidableEq, Repr

/-- One LLC slice beside its LLC_ registers. -/
structure Slice where
  lines    : Table SLine := []
  victims  : List (Nat × SLine) := []      -- oldest first
  dir      : Table DirEnt := []
  fabDir   : Table FabEnt := []            -- fabric directory (R249)
  owned    : List Nat := []                -- lines of other devices that this one holds in state O (R249)
  amq      : List AmqEnt := []
  outside  : List AmqEnt := []             -- entries for which the queue had no room yet (R120)
  fills    : List Fill := []               -- fills in flight
  parked   : Table Nat := []               -- locked lines whose place is kept empty (R124): way + 1 by line
  fault    : List (Nat × Nat × List Nat) := []   -- detected faults that fence the slice: row of Table 5.2, way, tenancies told
  walkMbx  : Option Nat := Option.none     -- mailbox whose cache.slice removes the slice
  walkLines : Nat := 0
  lastOne  : Bool := false                 -- the last slice in service, kept draining (R129)
  injCe    : Bool := false
  injUe    : Bool := false
  injTag   : Bool := false
  released : Nat := 0                      -- locks released by removals since cold reset
  deriving DecidableEq, Repr

/-- A lock held by a tenancy (R123). -/
structure CLock where
  owner  : Nat
  id     : Nat
  base   : Nat
  size   : Nat
  ways   : Nat
  lines  : List Nat
  slices : List Nat
  held   : List (Nat × Nat) := []          -- ways reserved for this lock: slice and mask
  deriving DecidableEq, Repr

/-- Home tables and locks shared by the slices. -/
structure Mesh where
  base       : List Nat := []              -- slices in service at reset, ascending (R116)
  moved      : Table Nat := []             -- buckets moved by a removal: slice + 1 (R129)
  sealedHome : Table (List Nat) := []      -- 64 entries per sealed tenancy (R117)
  locks      : List CLock := []
  preload    : List (Nat × CLock) := []    -- mailbox and lock whose preload runs
  classes    : Table (List Nat) := []      -- tile: for each slot class r in use, tenancy * 64 + r (R134)
  owed       : List Nat := []              -- lines to be discarded once a frozen pair's drain gives them up (R92)
  deriving DecidableEq, Repr

/-- A DIMM as its SPD gives it (Table 6.1); times in ps. -/
structure DimmSpd where
  ranks   : Nat
  stack   : Nat               -- 0 monolithic, 1 3DS 2-high, 2 3DS 4-high
  density : Nat               -- 1 16 Gb, 2 24 Gb, 3 32 Gb
  capGb   : Nat
  speeds  : List Nat          -- the listed speeds its SPD permits
  tRAS : Nat
  tCWL : Nat
  tWR  : Nat
  tRP  : Nat
  tRCD : Nat
  tCL  : Nat
  tRFC : Nat
  deriving DecidableEq, Repr

/-- A stored line by what was written: tenancy tag, key generation and key, plaintext or the poison marker, and the
error pattern each device's symbol carries. Its ten symbols are `symbolsOf` (R174 to R178, R184; log entry 5). -/
structure DLine where
  tag    : Nat := 0
  gen    : Nat := 0
  key    : Nat := 0
  data   : Nat := 0
  poison : Bool := false
  err    : Table Nat := []
  deriving DecidableEq, Repr

/-- Who reads a line at its home without a place in a cache: the data is kept for it until its access ends (R59, R249, R298). -/
inductive Reader where
  | hart (h : Nat)
  | dma (d : Nat)
  | tracker (src xid : Nat)      -- a request of another device
  | iommu (g : Nat)
  | ingress (g : Nat)            -- a request of a device behind group g, or of its external host
  | mailbox (i : Nat)            -- a command of mailbox i
  deriving DecidableEq, Repr

/-- A read of a line at its home: under which tag, and the data and whether it is poison once it has come. -/
structure HomeRd where
  who  : Reader
  line : Nat
  tag  : Nat
  got  : Option (Nat × Bool) := Option.none
  deriving DecidableEq, Repr

/-- A request at a channel: line number of its offset (PA[45:6]), tag, class TC0-TC3, arrival beat, where a read's
data goes. -/
structure DReq where
  line   : Nat
  tag    : Nat
  write  : Bool
  data   : Nat := 0
  cls    : Nat
  port   : Nat := 0           -- real-time port: 0 fabric ingress, 1 CXL memory-device ingress
  dest   : Nat := 0           -- 0 a slice's fill, 1 a reader at the home, 2 the external host that a range is lent to, 4 range scrub, 5 rekey sweep
  who    : Option Reader := Option.none -- the reader of dest 1
  beatIn : Nat := 0
  reread : Nat := 0
  fwd    : Bool := false      -- data already forwarded; performed again by a replay (R168)
  poison : Bool := false      -- a write of the poison marker (R184)
  shared : Bool := false      -- shared traffic of an owner of blocks: a slice removal's write-back, or moved under R157
  seq    : Nat := 0           -- order of arrival at the hubs
  block  : Option Nat := Option.none   -- block that serves it: MC_SEAL_BLOCK entry + 64 * frame
  raw    : Option DLine := Option.none -- a write of symbols as they are, on one channel alone (R183, R197)
  origin : Option Nat := Option.none   -- of a read at the partner of a mirrored pair: the channel that read first (R189)
  tried  : Bool := false      -- the partner has been read (R189)
  twin   : Bool := false      -- a sealed read of the upper channel of a mirrored pair, performed beside the lower one's (R189)
  deriving DecidableEq, Repr

/-- The page predictor of one bank and its open row (R150, R152). -/
structure BankPred where
  last   : Option Nat := Option.none
  hist   : Nat := 0
  used   : Nat := 0
  count  : Nat := 0
  ctr    : Table Nat := []    -- 2-bit counters xor 1: cold is 0b01 (R151)
  opened : Option Nat := Option.none
  deriving DecidableEq, Repr

/-- A catch-up on one rank (R163, R164). -/
structure CatchUp where
  start  : Nat
  total  : Nat                -- refreshes owed at its start
  left   : Nat                -- those not yet issued
  used   : Nat := 0           -- ps by which real-time requests in panic have delayed it
  gap    : Nat := 0           -- the refresh after which it last admitted them
  gapPs  : Nat := 0           -- ps used there, at most 64 ns
  deriving DecidableEq, Repr

/-- A recovery on one subchannel (R168, R169). -/
structure Recov where
  start  : Nat
  alerts : Nat                -- recoveries in a row that met a further alert
  deriving DecidableEq, Repr

/-- A block whose selection has taken place: entry, frame, and the owner and enabled slots it was selected under (R157, R158). -/
structure SelBlock where
  entry : Nat
  frame : Nat
  owner : Nat
  slots : Nat
  deriving DecidableEq, Repr

/-- Slots of one tenancy lost on one subchannel and rank by an event still running (R166). -/
structure Loss where
  catchUp : Bool                      -- else a recovery
  ten   : Nat
  sub   : Nat
  rank  : Nat
  first : Nat
  last  : Nat
  count : Nat
  deriving DecidableEq, Repr

/-- A row on the repair list (R193). -/
structure RepRow where
  sub  : Nat
  rank : Nat
  row  : Nat                  -- chip, bank group, bank and row together
  bad  : Bool := false        -- no repair resource left
  deriving DecidableEq, Repr

/-- A DDR5 channel beside its MC_ registers. -/
structure Chan where
  dimm     : Option DimmSpd := Option.none
  trainStart : Nat := 0
  stepStart : Nat := 0                -- beat at which the training step began
  trained  : Bool := false            -- all eight steps passed
  lines    : Table DLine := []        -- by line number PA[45:6]
  queue    : Table (List DReq) := []  -- shared requests by subchannel, oldest first
  rt       : Table (List DReq) := []  -- real-time buffers by port
  sealedQ  : Table (List DReq) := []  -- by subchannel * 512 + tenancy
  flight   : Table (List DReq) := []  -- reads issued, by subchannel
  outside  : Table (List DReq) := []  -- requests that wait with their queue full, by subchannel
  retry    : Table (List DReq) := []  -- retry buffer by subchannel (R167)
  banks    : Table BankPred := []     -- by bankKey
  writeDrain : List Nat := []         -- subchannels draining writes (R148)
  tc3Gap   : Table Nat := []          -- slots since the last TC3 slot, by subchannel (R148)
  rem      : Table Nat := []          -- interval remainder in ns by rank (R161)
  accrued  : List Nat := []           -- ranks whose increment of this boundary has been counted (R161, R163)
  refreshing : List Nat := []         -- ranks whose window of this frame carries a refresh
  closed   : List Nat := []           -- those of them whose rows that window has closed (R152)
  stopped  : List Nat := []           -- subchannels stopped under R168 until their fence
  catchUps : Table (Option CatchUp) := []
  catchDue : List Nat := []           -- ranks whose catch-up starts at the next boundary (R163)
  returnDue : List Nat := []          -- ranks that return to the normal rate at a boundary (R165)
  beyond   : List Nat := []           -- ranks whose last reading asked for more than the doubled rate (R162)
  recov    : Table (Option Recov) := []
  catchPast : Table (Option Nat) := []    -- slot, counted from beat 0, in which a rank's last catch-up ended, until its notices
  recovPast : Table (Option Nat) := []    -- the same for a subchannel's last recovery
  losses   : List Loss := []
  chosen   : List SelBlock := []      -- blocks selected whose claim may not be over (R164, R169)
  lostDue  : List (Nat × Nat × Nat) := []  -- slots lost in frames that have not ended: frame, tenancy, count (R166)
  newOwner : Table Nat := []          -- MC_SEAL_BLOCK values due at step 6: entry, owner * 8 + slot_en + 1
  oldOwner : Table Nat := []          -- owner + 1 that entries had before this boundary (R157)
  wholeFrom : Nat := 0                -- first whole frame after self-refresh (R172)
  fencedRanks : List Nat := []
  fencedSubs  : List Nat := []
  repair   : List RepRow := []
  rowCorr  : Table Nat := []          -- corrections of a row by one device in the window (R193)
  spareDue : Table Nat := []          -- devices to be spared at the next boundary: rank * 2 + sub, device + 1
  drift    : Table Int := []          -- write delay change since training, by rank (R146)
  driftAt  : Table Nat := []          -- beat of a rank's last oscillator run + 1
  rdDue    : Table Nat := []          -- nibbles whose read delay moves in the rank's next refresh window: 1 late, 2 early (R146)
  mr4At    : Table Nat := []          -- beat of a rank's last reading of mode register 4 + 1 (R162)
  repairing : List Nat := []          -- ranks that a soft repair keeps quiet: subchannel * 2 + rank (R194)
  mirrorNo : Bool := false            -- configured but refused under R188
  patrolAt : Table Nat := []          -- lines the patrol has read since the latest trigger, by subchannel
  patrolPos : Table Nat := []         -- the line it reads next, in the order of the subchannel
  patrolBegan : Nat := 0
  fillBegan : Nat := 0
  injCa    : Option Nat := Option.none    -- armed command-parity fault: subchannel
  injCrc   : Option Nat := Option.none
  flipBeat : Nat := 0                 -- beat at which the flip mask was armed (R199)
  deriving DecidableEq, Repr

/-- A range of the DRAM map (R23): base, size, members in ascending channel order, and the capacity block at which it
starts on each channel is derived. -/
structure MapRange where
  base    : Nat
  size    : Nat
  members : List Nat
  deriving DecidableEq, Repr

/-- Keys of one tenancy (R178): a key number for each loaded generation, and the current generation. -/
structure KeyEnt where
  gen0 : Option Nat := Option.none
  gen1 : Option Nat := Option.none
  cur  : Option Nat := Option.none
  deriving DecidableEq, Repr

/-- The running range scrub (R196). -/
structure Scrub where
  base     : Nat
  size     : Nat
  began    : Nat
  since    : Nat := 0         -- beat from which the next line is asked for
  next     : Nat := 0         -- lines of the range passed
  lines    : Nat := 0
  corr     : Nat := 0
  poisoned : Nat := 0
  found    : Nat := 0
  deriving DecidableEq, Repr

/-- Memory of the device. -/
structure Mem where
  chans   : Table Chan := []
  map     : List MapRange := []
  locked  : Bool := false               -- the map is written and locked (R24)
  lent    : Table (Nat × Nat × Nat) := []   -- by group: base, size, lending tenancy (R283)
  keys    : Table KeyEnt := []
  nextKey : Nat := 1
  nextReq : Nat := 0                    -- requests that have reached the hubs
  speed   : Nat := 0                    -- speed of this start-up; 0 until the SPDs are read (R140)
  granules : Table Nat := []            -- owner of each 2 MB granule; 0 the platform (R204)
  cxlGranules : Table Nat := []         -- owner of each 1 GB granule of the CXL.mem windows: group * 4096 + index (R281)
  scrub   : Option Scrub := Option.none
  arrived : Table (Option (Nat × Nat × Bool)) := []   -- read data on its way to a slice, by line: tag, data, poison
  reads   : List HomeRd := []           -- reads at the home that have been asked for or have come
  held    : List (Reader × Nat) := []   -- accesses of no core to a line that have waited under R125, counted in LLC_AMQ.waits
  deriving DecidableEq, Repr

/-- Tenancy states (Table 8.1). -/
inductive TenSt where
  | free | opened | sealing | isSealed | closing
  deriving DecidableEq, Repr

/-- A rekey sweep (R213): old generation, next line of the tenancy's granules, counts. -/
structure Sweep where
  old    : Nat
  gs     : List Nat := []     -- the granules it runs over, in address order: those of the tenancy when it began
  since  : Nat := 0           -- beat from which the next line is asked for
  next   : Nat := 0
  swept  : Nat := 0
  failed : Nat := 0
  deriving DecidableEq, Repr

/-- A reservation made by tenant.seal (R215, R216): slices, way mask of each, slot classes as tile * 64 + class, blocks
as channel * 64 + entry with their slot_en. -/
structure SealPlan where
  slices  : List (Nat × Nat) := []
  classes : List Nat := []
  blocks  : List (Nat × Nat) := []
  home    : List Nat := []                 -- the sealed home table it will have, 64 slices (R117, R129)
  deriving DecidableEq, Repr

/-- One tenancy. -/
structure Tenant where
  st      : TenSt := .free
  meas    : Nat := 0                    -- measurement, a 48-byte value (R211)
  entry   : Nat := 0
  quota   : Nat := 0
  nSlices : Nat := 0
  ways    : Nat := 0
  classes : Nat := 0
  plan    : SealPlan := {}
  heldWays : Nat := 0                   -- ways the seal gave (R129)
  lost    : Nat := 0
  refused : Nat := 0
  notices : Nat := 0
  sweep   : Option Sweep := Option.none
  rekeyLines : Nat := 0
  rekeyFailed : Nat := 0
  mbx     : Nat := 0                    -- mailbox whose seal, unseal or close is under way
  degraded : Bool := false
  released : Bool := false              -- closing: resources have passed to tenancy 0 (R212)
  gone    : Nat := 0                    -- granules returned by the close
  unsealing : Bool := false             -- the drain of tenant.unseal runs (R220)
  deriving DecidableEq, Repr

/-- An entry of the event journal (Table 14.13a); both flashes hold the same journal (R381). -/
structure JEntry where
  close    : Bool
  seq      : Nat
  counter  : Nat
  beat     : Nat
  time     : Nat
  kind     : Nat
  detail   : List Nat
  consumed : Bool := false
  deriving DecidableEq, Repr

/-- A committed Daybook record: its counter, the digest of the record before it, its bytes as stored (R383, R384). -/
structure DayRec where
  counter : Nat
  prev    : Nat
  bytes   : List Nat
  deriving DecidableEq, Repr

/-- Start-up, the image in use and the flash regions the device writes (R373 to R384). -/
structure Boot where
  step    : Nat := 1                    -- the start-up status word (Table 14.8)
  stopped : Bool := false
  flash   : Nat := 0
  tile    : Nat := 0
  warm    : Bool := false
  code    : Nat := 0
  first   : Nat := 0
  failures : Nat := 0
  elapsed : Nat := 0
  image   : Image := {}                 -- the image in use
  board   : Board := {}
  upDone  : Bool := false               -- step 1 is complete and waits for RESET_N (R448)
  hold    : Bool := false               -- a token or the TAP holds start-up at the end of step 3 (R366, R438)
  counter : Nat := 1                    -- boot counter of the current start (R366)
  headOk  : Bool := false               -- the head has been located
  head    : Option (Nat × Nat) := Option.none   -- counter and digest of the head
  dayA    : Table DayRec := []          -- committed slots of flash A and flash B, by slot
  dayB    : Table DayRec := []
  readA   : Bool := true                -- the flash answered its latest read
  readB   : Bool := true
  onA     : Bool := false               -- this start's record is on flash A, on flash B
  onB     : Bool := false
  dirty   : Bool := false               -- event 12 belongs in the next record (R382)
  journal : List JEntry := []           -- entries not erased, oldest first (R382)
  jseq    : Nat := 0                    -- entries written, modulo 2^32
  jlost   : Nat := 0                    -- events discarded with the journal full (R381)
  deriving DecidableEq, Repr

/-- Where a request sent by this device came from, and who takes its answer. -/
inductive Origin where
  | slice (n core : Nat) (excl : Bool)     -- a miss of a core, in home slice n
  | hart (h rd size : Nat) (signed : Bool) (va : Nat) (more : Bool) -- a non-cacheable or I/O access of a hart, value to register rd
  | evict (n : Nat)                        -- a write-back or a clean notice of slice n
  | maint (n core : Nat)                   -- a maintenance operation that waits in slice n
  | dma (d off : Nat)                      -- a write of DMA channel d, at byte off of its descriptor
  | port (g dev : Nat)                     -- a read of function dev behind group g
  | tracker (src xid : Nat)                -- a request that another device has sent here
  | dmaRd (d at' n : Nat)                  -- a read of DMA channel d, of n bytes at at'
  | grant (mbx cl g base count ten : Nat)  -- the zeros of a port.cxlgrant (R293)
  | none
  deriving DecidableEq, Repr

/-- A request this device has sent and that has not been answered: over the fabric to device dev (R248), or, with
dev = 64 + g, over group g's link (R278, R282). Kinds as Table 9.9. -/
structure Out where
  xid    : Nat
  dev    : Nat
  kind   : Nat
  pa     : Nat
  tag    : Nat
  size   : Nat := 64
  data   : Nat := 0
  poison : Bool := false
  op     : Nat := 0          -- operation of a Maint or an Atomic
  cmp    : Nat := 0
  be     : Nat := 0
  removal : Bool := false    -- write-back of a slice removal: shared traffic all the way (R130)
  mgmt   : Bool := false     -- management marker of a privileged channel (R294)
  origin : Origin := .none
  sent   : Nat := 0          -- beat of the latest sending
  first  : Nat := 0          -- beat of the first sending
  gap    : Nat := 4          -- beats to the next resend (R248)
  held   : Bool := false     -- answered Retry: waits for Grant (R244)
  deriving DecidableEq, Repr

/-- A flit this device has sent on a port and that is not acknowledged (R231). -/
structure TxFlit where
  seq      : Nat
  kind     : Nat
  vc       : Nat
  pos      : Nat := 0                   -- flit position of a hello and of a sealed flit
  pkts     : List Pkt := []
  hello    : Option HelloMsg := Option.none
  notice   : Option (Nat × Nat × Nat) := Option.none   -- device, port and switch boundary of a link-state notice
  step     : Option Nat := Option.none  -- part of keying
  ackSeq   : Nat := 0                   -- last flit received in order
  ackValid : Bool := false
  nak      : Bool := false
  credits  : List Nat := []             -- credit returns of VC0-VC5
  key      : Option Nat := Option.none  -- number of the link key; none in a flit of kind 0 or 5
  count    : Nat := 0                   -- the count of its nonce
  deriving DecidableEq, Repr

/-- A fabric port beside its registers (R228 to R234). -/
structure FabPort where
  began   : Nat := 0                    -- beat at which the stage, the retrain or the wait began
  proved  : List Nat := []              -- keying steps done: 0 identity, 1 owner key hash, 2 link keys (R230)
  keyTx   : Option Nat := Option.none   -- number of the link key of each direction (R229)
  keyRx   : Option Nat := Option.none
  cntTx   : Nat := 0                    -- flits sent and received under the key, replays included
  cntRx   : Nat := 0
  seqTx   : Nat := 0                    -- next sequence number to send
  seqRx   : Nat := 0                    -- next sequence number expected
  nak     : Bool := false               -- flits are discarded until the replay arrives
  heard   : Bool := false               -- a flit has been received in order, so that ackSeq is valid
  nakDue  : Bool := false               -- the next flit carries a nak (R231)
  owed    : Table Nat := []             -- credits to be returned, by VC (Table 9.3)
  retry   : List TxFlit := []           -- the retry buffer, 1,024 flits
  sent    : List TxFlit := []           -- flits put out in this beat, replays included
  again   : Nat := 0                    -- replays of its oldest flit without acceptance
  credits : Table Nat := []             -- credits by VC
  half    : Nat := 0                    -- 0 lanes 0-3, 1 lanes 4-7 after a lane failure (R232)
  hello   : Option HelloMsg := Option.none  -- the latest hello (R234)
  quiet   : Nat := 0                    -- beats since it, while the link is up
  fails   : List Nat := []              -- beats of its failures (R419)
  held    : Table Nat := []             -- reserved flit positions of the transmit direction: tenancy (R255)
  oos     : Bool := false               -- taken out of service by fabric.port
  fenced  : Bool := false
  follow  : Bool := false               -- loop-back follower (R434)
  ctr     : Nat := 0                    -- 64-bit counter in ps, as at the last boundary (R261)
  sentAt  : List Nat := []              -- counter at departure of its last four markers, newest first (R262)
  rxAt    : Nat := 0                    -- counter at arrival of the neighbour's last
  edge    : Int := 0                    -- counter at the neighbour's boundary, as the last marker places it (R262)
  mark    : Option Marker := Option.none   -- the marker sent in this beat (R261)
  deriving DecidableEq, Repr

/-- A placed share of a tenancy with a peer (R255): this device is an end, or the captain that placed it. -/
structure Share where
  ten   : Nat
  a     : Nat
  d     : Nat
  k     : Nat
  placed : Bool := true                 -- unplaced after a failure: ordinary traffic (R255)
  deriving DecidableEq, Repr

/-- A fabric.share command under way (R255): mailbox, fields, whether the peer has the tenancy sealed, the devices whose
SHARE_ACK is awaited and the worst outcome. -/
structure ShareReq where
  mbx   : Nat
  share : Share
  clamped : Nat := 0
  sealedAt : Option Bool := Option.none
  awaited : List Nat := []
  hops  : Nat := 0
  outcome : Nat := 0                    -- the first refusal of a path device, as an outcome of Table 9.22
  deriving DecidableEq, Repr

/-- A request tracker of the home (R244, R248): the request, and the response kept until the completion Ack. -/
structure Trk where
  req  : Pkt
  resp : Option Pkt := Option.none
  deriving DecidableEq, Repr

/-- A snoop in flight (R250): device, line, invalidating or sharing, tag, beat of the latest sending. -/
structure Snp where
  dev  : Nat
  line : Nat
  inv  : Bool
  tag  : Nat
  sent : Nat
  deriving DecidableEq, Repr

/-- The device's part in the fabric beside the FAB_ registers. -/
structure Fabric where
  ports    : Table FabPort := []
  nextKey  : Nat := 1
  epoch    : Nat := 0                   -- epoch of the running election
  best     : Option Nat := Option.none  -- lowest eligible unique ID known in the epoch (R235)
  bestHops : Nat := 0
  parent   : Option Nat := Option.none
  stable   : Nat := 0                   -- beats for which best has stayed unchanged
  idHeld   : Bool := false              -- a device ID is held until the next cold or warm reset (R236)
  began    : Nat := 0                   -- boundary S from which discovery is counted (R243)
  joins    : List JoinRec := []         -- at the captain: reports of this epoch
  staged   : Option TablesMsg := Option.none
  acked    : List Nat := []             -- at the captain: members whose TABLES_ACK has come
  commit   : Option Nat := Option.none  -- commit beat of the staged table (R242)
  table    : Option TablesMsg := Option.none   -- the table in force
  prev     : Option (Nat × List Nat × Nat) := Option.none  -- epoch and routes before the last switch, and its beat (R247)
  bank     : Table (List Nat) := []     -- route tables by place of the lost link in the topology map (R243)
  swDue    : List (Nat × Nat) := []     -- links (device * 8 + port) lost and the boundaries of their switch (R257)
  noRoute  : Table Nat := []            -- beats for which no route has reached a member (R259)
  noCap    : Nat := 0                   -- beats without a route to the captain (R260)
  unreach  : List Nat := []             -- members to be left out of the next commit
  admitted : List Nat := []             -- devices already members, whose grants the platform's setting governs (R253)
  kept     : Table Nat := []            -- grants kept for devices not yet members: source * 257 + tenancy (R264)
  pma      : Nat := 0                   -- devices whose ranges the cores' PMA checkers let through (R25)
  extents  : Table Extent := []         -- what those checkers hold of each device's home range (R25)
  waiting  : List Pkt := []             -- packets waiting for a credit or for a switch (R245, R257)
  outCmd   : Option ShareReq := Option.none
  shares   : List Share := []
  segs     : List ShareSeg := []
  lanesOf  : List (Nat × Nat × Nat × Nat) := []   -- at the captain: device, port, position reserved, and the share's key (R255)
  book     : List Share := []           -- at the captain: every share it has placed or is to place again
  placing  : List ShareReq := []        -- at the captain: shares that other members have asked for
  resvs    : List (Nat × Nat) := []     -- reservations that other devices' LRs hold at this home: device and line (R78)
  prevLv   : Table Nat := []            -- levels of the members before the last switch (R247)
  relay    : Table Nat := []            -- port by which the join report of a unique ID has come, before a commit (R234)
  recommit : Table Nat := []            -- at the captain: commit beat sent again to a member (R242)
  trackers : List Trk := []
  starved  : List (Nat × Nat) := []     -- source and transaction answered Retry (R244)
  snoops   : List Snp := []
  deriving DecidableEq, Repr

/-- A run of device IDs bound to a tenancy (R271). -/
structure Assign where
  first : Nat
  count : Nat
  ten   : Nat
  deriving DecidableEq, Repr

/-- A window entry: a memory BAR of an assigned function (R272). -/
structure WinEnt where
  base : Nat
  size : Nat
  ten  : Nat
  dev  : Nat
  deriving DecidableEq, Repr

/-- An outbound region of an endpoint group (R280). -/
structure OutReg where
  enable : Bool := false
  owner  : Nat := 0
  base   : Nat := 0
  deriving DecidableEq, Repr

/-- An entry of the memory device's event log, its records numbered by handle (R284, R285). -/
structure CxlEvent where
  handle : Nat
  dpa    : Nat
  beat   : Nat
  deriving DecidableEq, Repr

/-- The last completion or mailbox answer the group gave to the far end: status (0 success, 1 Unsupported Request,
2 poisoned; for the CXL mailbox its return code) and data. -/
structure FarAns where
  status : Nat
  data   : Bytes := []
  deriving DecidableEq, Repr

/-- A SerDes group beside its PORT_ registers (R265 to R293). -/
structure Group where
  assigns  : List Assign := []
  windows  : List WinEnt := []
  resetting : List Nat := []           -- functions whose reset has not completed (R274)
  resetAt  : Table Nat := []           -- beat at which a function's reset was issued
  busReset : List Nat := []            -- root ports whose secondary bus is being reset (R274)
  ctx      : Table Nat := []           -- device contexts tenants supplied: dc_addr + 1 by device ID (R275)
  cached   : List Nat := []            -- functions whose translations the IOMMU may have cached
  funcs    : List FuncInfo := []       -- functions found below the group's ports
  outRegs  : Table OutReg := []
  bar2     : Nat := 21                 -- BAR2 size in force, log2
  bar2Set  : Nat := 21                 -- size latched at the next training
  page     : Bytes := []               -- the fixed page: the IOMMU's registers, then the component registers (R268)
  msis     : List (Nat × Nat) := []    -- MSIs of the IOMMU sent and not yet delivered: address and data
  toDevice : List Nat := []            -- ATS messages of the command queue sent to devices
  config   : Bytes := []               -- configuration space by ECAM offset in the segment, xor what the function holds there
  dpc      : List Nat := []            -- ports held down by DPC (R288)
  cto      : Table Nat := []           -- completion timeout programmed, ns; unlisted 10 ms (R278)
  downs    : List (Nat × Nat) := []    -- port and beat of each link down (R289)
  began    : Table Nat := []           -- beat at which training, retraining or the wait in Down began, by port
  widths   : Table Nat := []           -- width the retrain aims at, by port
  fresh    : List Nat := []            -- ports that train after port.config or a reset: their lanes are judged anew (R287)
  presence : List Nat := []            -- root ports whose hot-plug presence is set (R290)
  role4    : Bool := false             -- the group held role 4 at start-up (R291)
  kept     : Option (Nat × List Nat) := Option.none   -- bifurcation and roles kept over Dormant (R405)
  msix     : Table Nat := []           -- MSI-X vectors sent to the external host
  bar0     : Bytes := []               -- MSI-X table of the endpoint function, each vector control bit inverted (R279)
  msixPend : List Nat := []            -- its pending-bit array
  self     : Bytes := []               -- its configuration space, as the far end has written it, xor what the function holds there
  ans      : Option FarAns := Option.none
  events   : List CxlEvent := []
  nextEvent : Nat := 1
  poisoned : List Nat := []            -- device addresses of lines found poisoned (R284, R285)
  stamp    : Nat := 0                  -- CXL timestamp
  stampAt  : Nat := 0                  -- platform time at which it was set
  follow   : Bool := false
  deriving DecidableEq, Repr

/-- A fetched descriptor (Table 11.1). -/
structure Desc where
  at'    : Nat               -- its physical address
  irq    : Bool
  fence  : Bool
  srcLog : Nat
  dstLog : Nat
  len    : Nat
  src    : Nat
  dst    : Nat
  deriving DecidableEq, Repr

/-- A read that a DMA channel has sent to another device or through a port: its answer, error kind of Table 11.2 (0 none) and data, once
it has come. -/
structure DmaFar where
  addr : Nat
  n    : Nat
  ans  : Option (Nat × Nat) := Option.none
  deriving DecidableEq, Repr

/-- A DMA channel beside its DMA_ registers (R294 to R310). -/
structure DmaCh where
  desc   : Option Desc := Option.none
  done   : Nat := 0                             -- bytes of the descriptor written
  bad    : Option (Nat × Nat × Nat) := Option.none   -- kind, direction, lowest failing offset (Table 11.2)
  far    : List DmaFar := []                    -- reads outside this device's memory (R252, R296)
  msiDue : Bool := false                        -- the MSI waits for the status write's acknowledgement (R300)
  aborting : Bool := false                      -- enable was cleared, issued writes still complete (R306)
  bytes  : Nat := 0                             -- bytes written since the last boundary
  total  : Nat := 0                             -- bytes written since the channel was enabled
  msis   : List (Nat × Nat) := []               -- MSIs sent and not yet delivered: address and data
  deriving DecidableEq, Repr

/-- A test running or ended (R429 to R435, Table 17.11). -/
structure Test where
  kind     : Nat                       -- 1 loop-back, 2 BIST
  target   : Nat
  unit     : Nat
  mode     : Nat                       -- depth of a loop-back, mode of a BIST
  start    : Nat
  dur      : Nat                       -- beats the pattern or the march lasts
  ended    : Option Nat := Option.none
  outcome  : Nat := 0
  bits     : Nat := 0
  first    : Nat := 0
  detail   : Nat := 0
  errors   : List Nat := []
  reported : Bool := false
  prior    : Nat := 0                  -- state of the unit before the test
  switched : List Nat := []            -- domains switched on for it
  deriving DecidableEq, Repr

/-- An armed injection (R436): kind of Table 17.4, subchannel, beat of arming. -/
structure Arm where
  kind : Nat
  sub  : Nat
  beat : Nat
  deriving DecidableEq, Repr

/-- Where a Dormant entry stands (Table 15.4): conditions met, sleep request made, cycle L passed, waking. -/
inductive Sleep where
  | none | asked | asleep | latched | waking
  deriving DecidableEq, Repr

/-- Package power beside the PWR_ registers. -/
structure Power where
  sleep    : Sleep := .none
  entryB   : Nat := 0                  -- boundary b of the entry
  mbx      : Option Nat := Option.none -- mailbox whose power.dormant began it; none: the idle timer
  wakeSrc  : Nat := 0                  -- what ends the entry (R407): 1 I3C match, 2 doorbell of mailbox 257
  stopped  : List Nat := []            -- harts the sleep request stopped
  ports    : List Nat := []            -- fabric ports in service before the entry
  resumeAt : Option Nat := Option.none -- boundary at which the harts resume
  lastB    : Nat := 0                  -- last boundary before cycle L
  offMbx   : Option Nat := Option.none -- power-off asked for, marker being written (R415)
  offBeat  : Option Nat := Option.none -- boundary p + 100
  wasOn    : List Nat := []            -- domains on before the entry
  bad      : List Nat := []            -- harts whose image is uncorrectable in both stores (R404)
  deriving DecidableEq, Repr

inductive ClkSt where
  | inReset | running | waiting | stopped
  deriving DecidableEq, Repr

/-- A management access in flight (R321): region 0 common store, 1 semaphores, 2 aperture; `issued` in Clerk cycles. -/
structure MReq where
  region : Nat
  addr   : Nat
  size   : Nat
  write  : Bool
  val    : Nat
  reg    : Nat
  issued : Nat
  deriving DecidableEq, Repr

/-- The branch whose delay slot stands in the issue latch (R319). -/
structure Slot where
  br     : Nat
  target : Nat
  taken  : Bool
  deriving DecidableEq, Repr

/-- One Clerk or Assayer core (R313 to R324), beside its local registers: 0-3 complex N, 4-7 complex S, 8 and 9 the
Assayers N and S. -/
structure ClkCore where
  st     : ClkSt := .inReset
  w      : Table Nat := []
  fetch  : List (Nat × Option Nat) := []   -- issue latch, then the fetch buffer: address and word; none: no memory there
  path   : Nat := 0                        -- next address of the fetch path (R315)
  ahead  : Option Nat := Option.none       -- where the path goes after the delay slot it is at
  slot   : Option Slot := Option.none
  load   : Option (Nat × Nat) := Option.none   -- register and value of a load just issued (R317)
  sram   : Table Nat := []
  outst  : List MReq := []                 -- oldest first
  why    : Table Nat := []                 -- CLERK_TVAL value of each pending interrupt code
  deriving DecidableEq, Repr

/-- What the four cores of a complex share (Table 12.1). -/
structure Complex where
  store  : Table Nat := []                 -- common store, by offset from 0x0010_0000
  sem    : Table Nat := []
  fwd    : List (Nat × Nat × Nat) := []    -- stores to the mirror area forwarded in this beat: offset, size, value
  fenced : Bool := false
  deriving DecidableEq, Repr

/-- The Toss (R329 to R333). -/
structure Toss where
  holder : Option Nat := Option.none       -- tile that holds the token
  pass   : Option (Nat × Nat × Nat) := Option.none  -- passing: tile, boundary, event code
  misses : Table Nat := []                 -- consecutive boundaries without a complex's heartbeat
  bridge : Nat := 0                        -- consecutive boundaries without a handshake
  northOk : Bool := true                   -- the north complex was in service at the last handshake
  fencedAt : List Nat := []                -- complexes fenced at the last handshake
  pgLow  : List Nat := []                  -- tiles whose power-good the bridge reports lost
  unforce : List Nat := []                 -- forced-junior complexes that leave that state at the next boundary
  dead   : Bool := false                   -- the IO bridge has failed
  deriving DecidableEq, Repr

/-- What the SPDM responder answered last (R385), under the names of DSP0274. -/
inductive SpdmResp where
  | version (l : List Nat)
  | capabilities
  | algorithms
  | digests (slot0 : Nat)
  | certificate (l : List Nat)
  | challengeAuth (sig : Nat)
  | measurements (l : List (Nat × Nat)) (sig : Nat)
  | keyExchangeRsp (session sig : Nat)
  | finishRsp
  | endSessionAck
  | vendorDefined (l : List Nat)
  | error (code : Nat)
  deriving DecidableEq, Repr

/-- One SPDM connection: MCTP, or the DOE mailbox of a group. -/
structure Spdm where
  stage   : Nat := 0                    -- 0 nothing, 1 version, 2 capabilities, 3 algorithms agreed
  session : Option Nat := Option.none
  finished : Bool := false
  answer  : Option SpdmResp := Option.none   -- none: no responder answered
  deriving DecidableEq, Repr

/-- The Assayer (R360 to R372). -/
structure Assayer where
  hung    : Bool := false               -- treated as hung (R371)
  tile    : Option Nat := Option.none   -- tile of the running Assayer
  taking  : Option Nat := Option.none   -- boundary j since which the standby takes over (R372)
  absent  : Nat := 0                    -- consecutive boundaries without its heartbeat
  beaten  : Bool := false               -- its first heartbeat has come: the gate table is locked (R362)
  gates   : Table Nat := []             -- gate table, by byte
  window  : Table Nat := []             -- service window, by byte
  holds   : Table Nat := []             -- boundary + 1 at which a domain's hold was taken (R368)
  outage  : Option (Nat × Nat) := Option.none  -- open trust outage: beat, cause
  enables : Nat := 0                    -- enables a token has set (R366)
  wanted  : Nat := 0                    -- enables of an accepted token, set at the next boundary
  token   : Option Token := Option.none   -- token held until the head is known
  zeroing : Option Nat := Option.none   -- boundary at which a zeroization began (R367)
  zeroed  : Bool := false
  aliasUp   : Bool := false               -- the Alias keys are derived
  debugAlias : Bool := false            -- they are those of a debug Alias (R367)
  everSet : Nat := 0                    -- enables set since cold reset (Table 14.16)
  spdm    : Table Spdm := []            -- connections: 0 MCTP, 1 + g the DOE mailbox of group g
  abandon : Bool := false               -- a gate fault under JALG abandons the request in progress (R362)
  deriving DecidableEq, Repr

/-- An action due at a later boundary. -/
inductive Act where
  | setFld (f : Fld) (v : Nat)                     -- a register field takes a value
  | stage (mbx : Nat) (clamped : Nat) (data : Bytes)   -- a command's result is written (R340)
  | spare (c rank sub d : Nat)                      -- a device is spared (R191)
  | mode (n m : Nat)                               -- slot n switches mode (R84)
  | startHart (h pc opaq : Nat)                    -- a hart starts (R110)
  | cmdStart (mbx h pc opaq : Nat) (own : Option Nat)   -- core.start, or tenant.start by its owner (R110, R221)
  | stopHart (h mbx : Nat)                         -- a hart stops and its caches drain (core.park)
  | hartOffline (h : Nat)                          -- a parked hart is offline
  | drainSlice (n cause : Nat)                     -- a slice starts draining (R128)
  | handSlice (n : Nat)                            -- a drained slice starts handing over (R128)
  | switchBuckets (n : Nat)                        -- the buckets of a slice switch away from it (R129)
  | portRole (g n role : Nat)                      -- a port takes a role (R291)
  | portBif (g code : Nat)                         -- a group takes a bifurcation
  | portConf (mbx cl g code : Nat) (roles : List Nat)   -- port.config takes effect (R291)
  | portOwner (g first count ten : Nat)            -- functions change owner (R274)
  | portEp (g bar2 region : Nat) (enable : Bool) (owner base : Nat)   -- port.ep takes effect
  | cxlGrant (g first count ten : Nat)             -- CXL.mem granules change owner (R281)
  | dmaOwner (d ten : Nat)                         -- a DMA channel changes owner (R295)
  | openTenant (t : Nat)                           -- a created tenancy is open (R203)
  | giveHart (h t : Nat)                           -- a hart changes owner (R208)
  | assignHart (mbx h t : Nat)                     -- tenant.assign takes effect (R208)
  | catchUpStart (c rank : Nat)                    -- a rank's catch-up starts (R163)
  | rateReturn (c rank : Nat)                      -- a rank returns to the normal refresh rate (R165)
  | grant (base count t : Nat)                     -- granules change owner (R204)
  | measure (t value : Nat)                        -- a measurement is extended (R211)
  | tryAgain (mbx : Nat)                           -- mem.clear or tenant.load that waits for lines is tried again (R125, R206)
  | clearEnd (mbx clamped base size t n upto : Nat)    -- mem.clear ends once its writes are performed (R201)
  | sealStart (t mbx : Nat)                        -- Table 8.4, b + 1
  | sealApply (t : Nat)                            -- Table 8.4, S
  | unsealStart (t mbx : Nat)                      -- R220
  | unsealApply (t : Nat)
  | rekeyCurrent (t gen : Nat)                     -- the new generation is current (R213)
  | rekeyEnd (t : Nat)                             -- the old generation is erased (R213)
  | closeStart (t mbx : Nat)                         -- R212, steps 1 and 2
  | closeRelease (t : Nat)                         -- R212, step 3
  | keysErased (t : Nat)                           -- R212, step 4
  | fabPort (mbx k action : Nat)                   -- fabric.port takes effect (R264)
  | fabGrant (src ten : Nat) (allow : Bool)        -- a grant takes effect (R253)
  | shareOn (h : Share) (segs : List ShareSeg)     -- a share takes effect (R255)
  | testStart (mbx id : Nat)                       -- a test starts (R430)
  | domain (mbx d action : Nat)                    -- power.domain takes effect (R414)
  | switch (d : Nat) (on : Bool)                   -- a domain is switched (R392)
  | gatePair (p : Nat)                             -- a drained pair is power-gated (R400)
  | ungate (p : Nat)                               -- a gated pair's harts resume (R401)
  | pads (mask : Nat)                              -- pad groups are released (R405)
  | attest (mbx clamped dst : Nat) (nonce : List Nat)      -- a report is written (R386)
  | fenceHart (p cause det st : Nat)               -- the hart of a pair is fenced (R103, R105, R418)
  | fenceHalf (t : Nat)                            -- a half is fenced (R332)
  | fenceNotice (c sub rank t first count : Nat)   -- the first frame a fence affects has ended (R166)
  | shareOff (h : Share)                           -- a share is released (R256)
  | fence (u : UnitRef)                            -- a unit whose fault was detected is fenced (R418)
  | deviceSpare (c rank sub : Nat)                 -- a device that reached the threshold is spared (R191)
  | tokenPass                                      -- the token passes (R329)
  | decide (p step : Nat) (passA passB : Bool)     -- a step of a decision sequence in its slice (R95)
  deriving DecidableEq, Repr

/-- An action due at step `step` of Table 2.2 of boundary `beat`. -/
structure Due where
  beat : Nat
  step : Nat
  act  : Act
  deriving DecidableEq, Repr

/-- A journaled step of a mailbox command (R346). -/
structure JStep where
  mbx  : Nat
  beat : Nat
  act  : Act
  deriving DecidableEq, Repr

/-- The block's state. `regs` holds every register field that differs from its reset value, at key
window offset * 64 + lowest bit, as value xor reset value. -/
structure State where
  regs    : Table Nat
  chip    : Chip
  time    : TimeSt
  harts   : Table Hart          -- by hart ID
  cores   : Table Core          -- by pair * 2 + core (0 A, 1 B)
  pairs   : Table Pair
  slots   : Table Nat           -- slots waiting unbound: (boundary + 1) * 256 + the pair each had (R104)
  policy  : Nat                 -- core.policy: 0 fence, 1 single (R105)
  slices  : Table Slice
  mesh    : Mesh
  mem     : Mem
  tenants : Table Tenant
  mbx     : Table Mbx
  ras     : Ras
  outs    : List Out            -- requests sent and not answered, oldest first
  nextXid : Nat                 -- the next transaction ID; 0 names none
  fabric  : Fabric
  groups  : Table Group
  dma     : Table DmaCh         -- by channel: engine * 32 + channel
  clerk   : Table ClkCore
  cplx    : Table Complex        -- 0 north, 1 south
  toss    : Toss
  assayer : Assayer
  boot    : Boot
  tests   : Table (Option Test) -- by test ID (R429)
  armed   : Table (Option Arm)  -- by target * 256 + unit (R436)
  power   : Power
  due     : List Due            -- actions due at later boundaries (R38, R40)
  journal : List JStep          -- steps of commands in flight (R346)
  freeCtr : Nat                 -- the model's own: counts the free values handed out
  pending : List Instr          -- the commands waiting, first in first out
  deriving DecidableEq, Repr

/-- The device in the state in which VIN has just become good: registers at their reset values (R13, R14), start-up
step 1 under way (R373). -/
def State.reset : State where
  regs    := []
  chip    := {}
  time    := {}
  harts   := []
  cores   := []
  pairs   := []
  slots   := []
  policy  := 0
  slices  := []
  mesh    := {}
  mem     := {}
  tenants := []
  mbx     := []
  ras     := {}
  outs    := []
  nextXid := 1
  fabric  := {}
  groups  := []
  dma     := []
  clerk   := []
  cplx    := []
  toss    := {}
  assayer := {}
  boot    := {}
  tests   := []
  armed   := []
  power   := {}
  due     := []
  journal := []
  freeCtr := 0
  pending := []

end Sys2Proof.Machine
end

