-- ==== Sys2Proof/Machine/Ops.lean ====
section
/-! DEFINITION. Machine/Ops.lean: the named operations every meaning is written in: register fields, records of
the RAS logs, notices, bytes of pages, actions due later, free values. -/
namespace Sys2Proof.Machine

/-! ## Registers (R13) -/

/-- Key of a field in the register file. -/
def fkey (f : Fld) : Nat := f.off * 64 + f.lo

/-- The value of a register field. -/
def rd (s : State) (f : Fld) : Nat := tget 0 s.regs (fkey f) ^^^ f.rst

/-- A register field set by the device, cut to its width. -/
def wr (f : Fld) (v : Nat) (s : State) : State :=
  { s with regs := tset 0 s.regs (fkey f) ((v % 2 ^ f.w) ^^^ f.rst) }

/-- Add to a counter field, which saturates at its width. -/
def bump (f : Fld) (n : Nat) (s : State) : State :=
  wr f (min (rd s f + n) (2 ^ f.w - 1)) s

/-- Set a one-bit field from a condition. -/
def wrB (f : Fld) (b : Bool) (s : State) : State := wr f b.toNat s

/-- A one-bit field as a condition. -/
def rdB (s : State) (f : Fld) : Bool := rd s f != 0

/-- Number of the most recent boundary (CLK_BEAT, R53). -/
def beat (s : State) : Nat := rd s clkBeatBeat

/-- Platform time (CLK_TIME, R45). -/
def now (s : State) : Nat := rd s clkTimeTimeNs

/-! ## Free values -/

/-- A value the spec leaves open, below n: the next one of Config.freeNat. -/
def freeVal (n : Nat) (s : State) : Nat := Config.freeNat s.freeCtr % n

/-- The state after one free value has been taken. -/
def freeNext (s : State) : State := { s with freeCtr := s.freeCtr + 1 }

/-! ## Bytes -/

/-- Little-endian number of n bytes at an offset (R29; log entry 11). -/
def getLE (b : Bytes) (off : Nat) : Nat → Nat
  | 0 => 0
  | n + 1 => tget 0 b off % 256 + 256 * getLE b (off + 1) n

/-- Store n bytes of a number, lowest first. -/
def putLE (b : Bytes) (off : Nat) : Nat → Nat → Bytes
  | 0, _ => b
  | n + 1, v => putLE (tset 0 b off (v % 256)) (off + 1) n (v / 256)

/-- Bytes from a list of (offset, width in bytes, value). -/
def mkBytes (l : List (Nat × Nat × Nat)) : Bytes :=
  l.foldl (fun b e => putLE b e.1 e.2.1 e.2.2) []

/-- The n low bytes of a number as a list. -/
def bytesOf : Nat → Nat → List Nat
  | 0, _ => []
  | n + 1, v => v % 256 :: bytesOf n (v / 256)

/-- The number whose bytes are listed, lowest first. -/
def ofBytes : List Nat → Nat
  | [] => 0
  | b :: r => b % 256 + 256 * ofBytes r

/-! ## Actions due later (R38, R40, R346) -/

/-- An action the hardware or the Clerk applies at step k of boundary b. -/
def addDue (b k : Nat) (a : Act) (s : State) : State := { s with due := s.due ++ [⟨b, k, a⟩] }

/-- A command step staged and committed for boundary b (R346). -/
def addStep (mbx b : Nat) (a : Act) (s : State) : State := { s with journal := s.journal ++ [⟨mbx, b, a⟩] }

/-! ## Interrupts of the Clerk cores (R322, Table 12.7) -/

def clkOf (s : State) (c : Nat) : ClkCore := tget {} s.clerk c
def setClk (c : Nat) (r : ClkCore) (s : State) : State := { s with clerk := tset {} s.clerk c r }
def modClk (c : Nat) (f : ClkCore → ClkCore) (s : State) : State := setClk c (f (clkOf s c)) s

/-- The core is out of reset and not stopped. -/
def clkLive (s : State) (c : Nat) : Bool := (clkOf s c).st == .running || (clkOf s c).st == .waiting

/-- Interrupt `code` becomes pending on core c, with its CLERK_TVAL value. -/
def clkIrq (code val : Nat) (s : State) (c : Nat) : State :=
  if clkLive s c then
    wr (clerkIpPending c) (rd s (clerkIpPending c) ||| 2 ^ code) (modClk c (fun r => { r with why := tset 0 r.why code val }) s)
  else s

/-- Cores of both complexes, of one complex. -/
def clerkCores : List Nat := [0, 1, 2, 3, 4, 5, 6, 7]
def complexCores (x : Nat) : List Nat := [4 * x, 4 * x + 1, 4 * x + 2, 4 * x + 3]

/-! ## Records (R423, R424) -/

/-- Append a record to a ring of the given size (R358); a record that leaves unread is counted. -/
def logAdd (size : Nat) (g : RasLog) (r : RasRec) : RasLog :=
  let n := g.recs.length + 1 - size
  let out := (g.recs.take n).map (·.seq)
  { recs := (g.recs ++ [{ r with seq := g.next }]).drop n, next := g.next + 1
    read := g.read.filter fun q => !out.contains q
    lost := min (g.lost + (out.filter fun q => !g.read.contains q).length) (2 ^ 64 - 1) }

/-- A record for the platform log, placed in the slice of boundary sl; it is a unit event to the Clerk cores. -/
def recPlatform (sl cls kind unit cause ten addr : Nat) (detail : List Nat) (s : State) : State :=
  clerkCores.foldl (clkIrq 4 kind) { s with ras := { s.ras with
      platform := logAdd 1024 s.ras.platform ⟨0, beat s, cls, kind, unit, cause, ten, addr, detail, sl⟩ } }

/-- The mailbox record of mailbox i. -/
def mbxOf (s : State) (i : Nat) : Mbx := tget {} s.mbx i

def setMbx (i : Nat) (m : Mbx) (s : State) : State := { s with mbx := tset {} s.mbx i m }

/-- A notice handed to the Clerk for mailbox i; the next slice places it (R349, R350). -/
def notify (i kind : Nat) (payload : List (Nat × Nat × Nat)) (s : State) : State :=
  let m := mbxOf s i
  setMbx i { m with queue := m.queue ++ [⟨kind, 0, 0, mkBytes payload⟩] } s

/-- A record in tenant t's log, and its notice 0x000B (R424, R425). -/
def recTenant (sl kind unit cause t addr : Nat) (detail : List Nat) (s : State) : State :=
  let g := tget {} s.ras.tenants t
  let s1 : State := { s with ras := { s.ras with
      tenants := tset {} s.ras.tenants t (logAdd 16 g ⟨0, beat s, 3, kind, unit, cause, t, addr, detail, sl⟩) } }
  notify t 0x000B [(0x18, 8, g.next), (0x20, 1, 3)] s1

/-- Bit mask of the tenants concerned (R424): bit i - 1 for tenant i. -/
def tenantMask (ts : List Nat) : Nat :=
  ts.foldl (fun m t => if t = 0 then m else m ||| 2 ^ (t - 1)) 0

/-- A contained error or a refusal: the platform log only (R424). -/
def recContained (sl kind unit cause addr : Nat) (detail : List Nat) (s : State) : State :=
  recPlatform sl 2 kind unit cause 0 addr detail s

def recRefusal (sl kind unit cause ten addr : Nat) (s : State) : State :=
  recPlatform sl 5 kind unit cause ten addr [] s

/-- A tenancy-visible error (R424): each tenant's log, one platform record, the mask when several are concerned.
`uT` is the unit field of the tenants' records (R459), `dT` their detail. -/
def recVisible (sl kind unit cause : Nat) (ts : List Nat) (addr : Nat) (detail : List Nat) (uT : Nat) (dT : List Nat)
    (s : State) : State :=
  let ts' := ts.eraseDups
  let s1 := (ts'.filter (· != 0)).foldl (fun a t => recTenant sl kind uT cause t addr dT a) s
  match ts' with
  | [] => recPlatform sl 3 kind unit cause 0 addr detail s1
  | [t] => recPlatform sl 3 kind unit cause t addr detail s1
  | _ => recPlatform sl 3 kind unit cause 0x0200 addr (bytesOf 32 (tenantMask ts')) s1

/-- A log whose records from number k on name beat m as the beat of detection. -/
def stampFrom (k m : Nat) (g : RasLog) : RasLog :=
  { g with recs := g.recs.map fun r => if k ≤ r.seq then { r with beat := m } else r }

/-- The records that f places name m, an earlier beat, as the beat of detection (Table 13.12a). -/
def detectedAt (m : Nat) (f : State → State) (s : State) : State :=
  let t := f s
  { t with ras := { t.ras with
      platform := stampFrom s.ras.platform.next m t.ras.platform
      tenants := t.ras.tenants.map fun (e : Nat × RasLog) => (e.1, stampFrom (tget {} s.ras.tenants e.1).next m e.2) } }

/-- A corrected error, which no tenancy is told (R416): at most one record per unit and cause in every 1,000 beats, with the
count since the last (R424). -/
def recCorrected (sl kind unit cause addr : Nat) (s : State) : State :=
  let k := (kind * 65536 + cause) * 65536 + unit
  let c := tget {} s.ras.corr k
  let open' : Bool := match c.last with | none => true | some b => decide (b + 1000 ≤ sl)
  let s1 : State := { s with ras := { s.ras with
    corr := tset {} s.ras.corr k (if open' then ⟨0, some sl⟩ else ⟨c.count + 1, c.last⟩) } }
  if open' then recPlatform sl 1 kind unit cause 0 addr (bytesOf 4 (min (c.count + 1) (2 ^ 32 - 1))) s1 else s1

/-- An event of Table 14.15 enters the journal of both flashes (R381); the last free entry is kept for the close
marker, and an event that finds no other is counted. -/
def event (kind : Nat) (detail : List Nat) (s : State) : State :=
  let b := s.boot
  if b.journal.length < 16383 then
    { s with boot := { b with jseq := (b.jseq + 1) % 2 ^ 32, journal := b.journal ++
        [⟨false, b.jseq, b.counter, beat s, now s, kind, detail, false⟩] } }
  else { s with boot := { b with jlost := b.jlost + 1 } }

/-- The slice that places a record of an event between boundaries: the next one (R423). -/
def nextSlice (s : State) : Nat := beat s + 1

end Sys2Proof.Machine
end

