-- ==== Sys2Proof/Machine/Units.lean ====
section
/-! DEFINITION. Machine/Units.lean: which units each variant has (R1, R2, R10), where they stand, which domain
feeds them (R391), and how harts, slots and pairs are bound (R81). -/
namespace Sys2Proof.Machine

/-- Variant code of Table 0.4. -/
def variantCode : Variant → Nat
  | .d9_256c => 1
  | .d9_192c => 2
  | .d9_128c => 3
  | .d9_128e => 4

/-- Compute tiles present (Table 0.3). -/
def tiles : Variant → Nat
  | .d9_256c => 8
  | .d9_192c => 6
  | .d9_128c => 4
  | .d9_128e => 4

def vOf (s : State) : Variant := s.chip.variant

def tilePresent (s : State) (t : Nat) : Bool := decide (t < tiles (vOf s))
/-- Tile of a pair, position in the tile (R10). -/
def pairTile (p : Nat) : Nat := p / 17
def pairPos (p : Nat) : Nat := p % 17
def pairPresent (s : State) (p : Nat) : Bool :=
  decide (p < 17 * tiles (vOf s)) && !(vOf s == .d9_128e && pairPos p == 16)
def slicePresent (s : State) (n : Nat) : Bool := decide (n < 16 * tiles (vOf s))
/-- Channels 6, 7, 14 and 15 are absent from the 128 variants. -/
def chanPresent (s : State) (c : Nat) : Bool :=
  match vOf s with
  | .d9_128c | .d9_128e => decide (c < 16) && decide (c % 8 < 6)
  | _ => decide (c < 16)
/-- SerDes groups G3 and G7 are absent from the 128 variants. -/
def groupPresent (s : State) (g : Nat) : Bool :=
  match vOf s with
  | .d9_128c | .d9_128e => decide (g < 8) && decide (g % 4 < 3)
  | _ => decide (g < 8)
def fabPortPresent (s : State) (k : Nat) : Bool :=
  match vOf s with
  | .d9_256c => decide (k < 6)
  | .d9_192c => decide (k < 6) && k != 2 && k != 5
  | .d9_128c => k == 0 || k == 3
  | .d9_128e => false
def dmaPresent (d : Nat) : Bool := decide (d < 64)
/-- Harts of the variant: 32 for each present tile (R81, R110). -/
def hartCount (s : State) : Nat := 32 * tiles (vOf s)
def slotCount (s : State) : Nat := 16 * tiles (vOf s)

def presentPairs (s : State) : List Nat := numsBelow 136 (pairPresent s)
def presentSlices (s : State) : List Nat := numsBelow 128 (slicePresent s)
def presentChans (s : State) : List Nat := numsBelow 16 (chanPresent s)
def presentGroups (s : State) : List Nat := numsBelow 8 (groupPresent s)
def presentFabPorts (s : State) : List Nat := numsBelow 6 (fabPortPresent s)

/-- The variant has the CXL memory-device role (Table 0.2). -/
def memRole (s : State) : Bool := vOf s == .d9_256c || vOf s == .d9_192c

/-- A condition on an optional value: one that is absent meets it. -/
def optOk {α : Type} (p : α → Bool) : Option α → Bool
  | some v => p v
  | none => true

/-- IO tile (0 north, 1 south) of a channel, a group, a fabric port, a DMA channel (R10). -/
def chanTile (c : Nat) : Nat := c / 8
def groupTile (g : Nat) : Nat := g / 4
def fabTile (k : Nat) : Nat := k / 3
def dmaTile (d : Nat) : Nat := d / 32

/-- Domain d of Table 15.2 is present in the variant. -/
def domainPresent (s : State) (d : Nat) : Bool :=
  if d < 136 then pairPresent s d
  else if d < 144 then tilePresent s (d - 136)
  else if d < 160 then chanPresent s (d - 144)
  else if d < 168 then groupPresent s (d - 160)
  else if d < 174 then fabPortPresent s (d - 168)
  else decide (d < 184)

/-- A window offset below the model's own keys belongs to an absent unit (R8). -/
def offAbsent (s : State) (off : Nat) : Bool :=
  if 0x100000 ≤ off ∧ off < 0x188000 then !pairPresent s ((off - 0x100000) / 0x1000)
  else if 0x200000 ≤ off ∧ off < 0x280000 then !slicePresent s ((off - 0x200000) / 0x1000)
  else if 0x300000 ≤ off ∧ off < 0x400000 then !chanPresent s ((off - 0x300000) / 0x10000)
  else if 0x400000 ≤ off ∧ off < 0x401000 then vOf s == .d9_128e
  else if 0x401000 ≤ off ∧ off < 0x407000 then !fabPortPresent s ((off - 0x401000) / 0x1000)
  else if 0x10100 ≤ off ∧ off < 0x106C0 then !domainPresent s ((off - 0x10100) / 8)
  else if 0x80000000 ≤ off ∧ off < 0x100000000 then !groupPresent s ((off - 0x80000000) / 0x10000000)
  else false

/-! ## Harts, slots and pairs -/

def hartOf (s : State) (h : Nat) : Hart := tget {} s.harts h
def setHart (h : Nat) (r : Hart) (s : State) : State := { s with harts := tset {} s.harts h r }
def coreOf (s : State) (c : Nat) : Core := tget {} s.cores c
def setCore (c : Nat) (r : Core) (s : State) : State := { s with cores := tset {} s.cores c r }
def pairOf (s : State) (p : Nat) : Pair := tget {} s.pairs p
def setPair (p : Nat) (r : Pair) (s : State) : State := { s with pairs := tset {} s.pairs p r }
def sliceOf (s : State) (n : Nat) : Slice := tget {} s.slices n
def setSlice (n : Nat) (r : Slice) (s : State) : State := { s with slices := tset {} s.slices n r }

/-- The pair bound to slot n (R81). -/
def pairOfSlot (s : State) (n : Nat) : Option Nat :=
  (List.range 136).find? fun p => rdB s (pairStatusSlotValid p) && rd s (pairStatusSlot p) == n

/-- The slot is in split mode. -/
def slotSplit (s : State) (n : Nat) : Bool :=
  match pairOfSlot s n with
  | some p => rd s (pairCtrlMode p) == 0
  | none => false

/-- The pair that runs hart h. -/
def pairOfHart (s : State) (h : Nat) : Option Nat := pairOfSlot s (h / 2)

/-- A merged hart has no pair (R81). -/
def merged (s : State) (h : Nat) : Bool := h % 2 == 1 && !slotSplit s (h / 2)

/-- The physical core that runs hart h; in checked mode core A stands for the pair (R112). -/
def coreOfHart (s : State) (h : Nat) : Option Nat :=
  if merged s h then none
  else match pairOfHart s h with
    | some p => some (p * 2 + (if slotSplit s (h / 2) then h % 2 else (match (pairOf s p).survivor with
        | some k => if rd s (pairStatusState p) = 4 then k else 0
        | none => 0)))
    | none => none

/-- The hart that runs on core A or B (0, 1) of pair p. -/
def hartOfCore (s : State) (p k : Nat) : Option Nat :=
  if rdB s (pairStatusSlotValid p) then
    let n := rd s (pairStatusSlot p)
    if rd s (pairCtrlMode p) = 0 then some (2 * n + k) else some (2 * n)
  else none

/-- The harts bound to pair p. -/
def hartsOfPair (s : State) (p : Nat) : List Nat :=
  if rdB s (pairStatusSlotValid p) then
    let n := rd s (pairStatusSlot p)
    if rd s (pairCtrlMode p) = 0 then [2 * n, 2 * n + 1] else [2 * n]
  else []

/-- Tenancy that owns hart h: PAIR_OWNER of the bound pair, else the value kept for the slot (R20, R109); a merged hart
has no owner (R84). -/
def ownerOf (s : State) (h : Nat) : Nat :=
  match pairOfHart s h with
  | some p => if h % 2 = 0 then rd s (pairOwnerOwnerA p) else if slotSplit s (h / 2) then rd s (pairOwnerOwnerB p) else 0
  | none => (hartOf s h).owner

/-- Give hart h to tenancy t: its pair's PAIR_OWNER field and the value kept for the slot. -/
def setOwner (h t : Nat) (s : State) : State :=
  let s1 := setHart h { hartOf s h with owner := t } s
  match pairOfHart s h with
  | some p => if slotSplit s (h / 2) && h % 2 == 1 then wr (pairOwnerOwnerB p) t s1 else wr (pairOwnerOwnerA p) t s1
  | none => s1

/-- A hart that has been started and is not offline or fenced. -/
def hartStarted (s : State) (h : Nat) : Bool :=
  match (hartOf s h).st with
  | .offline | .fenced => false
  | _ => true

/-- Harts that hold a record, started ones first met in ascending order. -/
def startedHarts (s : State) : List Nat :=
  (s.harts.map (·.1)).filter (hartStarted s)

/-- A pair between its freeze and its resume: frozen, deciding, draining or copying (R92, R394). -/
def inSparing (s : State) (p : Nat) : Bool := [5, 6, 7, 8].contains (rd s (pairStatusState p))

/-- Free Liberos: pairs in the spare state (R82, R107). -/
def freeLiberos (s : State) : List Nat := numsBelow 136 fun p => rd s (pairStatusState p) == 9

/-- Write integer register rd of hart h; x0 stays zero. -/
def setX (h r v : Nat) (s : State) : State :=
  if r = 0 then s
  else let q := hartOf s h
    setHart h { q with x := tset 0 q.x r (v % 2 ^ 64) } s

/-- misa: MXL = 2 and I, M, A, F, D, C, B, V, H, S, U (Table 3.2). -/
def misaValue : Nat := 2 ^ 63 + ([8, 12, 0, 5, 3, 2, 1, 21, 7, 18, 20].map fun b => 2 ^ b).sum

/-- SXL and UXL of mstatus, UXL of sstatus and vsstatus, VSXL of hstatus: fixed at 2, 64 bits (Table 3.2). -/
def fixXlen (n v : Nat) : Nat :=
  if n = 0x300 then v - v / 2 ^ 32 % 16 * 2 ^ 32 + 0xA * 2 ^ 32
  else if n = 0x100 ∨ n = 0x200 ∨ n = 0x600 then v - v / 2 ^ 32 % 4 * 2 ^ 32 + 2 * 2 ^ 32
  else v

/-- Address mode of PMP entry k: 0 off, 1 TOR, 3 NAPOT. -/
def pmpMode (r : Hart) (k : Nat) : Nat := tget 0 r.csr (0x3A0 + k / 8 * 2) / 256 ^ (k % 8) % 256 / 8 % 4

/-- pmpaddr with a grain of 4 KB, G = 10 (Table 3.2 and the privileged architecture): bits 9:0 read as zeros, in NAPOT mode bits 8:0 as
ones. -/
def pmpGrain (r : Hart) (n v : Nat) : Nat :=
  if 0x3B0 ≤ n ∧ n < 0x3F0 then (if pmpMode r (n - 0x3B0) = 3 then v / 512 * 512 + 511 else v / 1024 * 1024) else v

/-- A CSR of hart h by number; misa, the identity CSRs, the XLEN fields and pmpaddr read as Table 3.2 states whatever is written. -/
def csrOf (s : State) (h n : Nat) : Nat :=
  if n = 0x301 then misaValue
  else if n = 0xF11 then 0x00000E65
  else if n = 0xF12 then 0x80000000000000D9
  else if n = 0xF13 then s.chip.stepping
  else if n = 0xF14 then h
  else pmpGrain (hartOf s h) n (fixXlen n (tget 0 (hartOf s h).csr n))
def setCsr (h n v : Nat) (s : State) : State :=
  let q := hartOf s h
  setHart h { q with csr := tset 0 q.csr n (v % 2 ^ 64) } s

/-! ## Counters (R56, R79, R80) -/

/-- Bit w of a mask. -/
def inMask (m w : Nat) : Bool := m / 2 ^ w % 2 == 1

/-- The inhibit bit of mhpmevent for a privilege mode. -/
def inhibitBit : Priv → Nat
  | .m => 62
  | .s => 61
  | .u => 60
  | .vs => 59
  | .vu => 58

/-- One more, or n more, of a 64-bit counter CSR; the overflow is told by a Bool. -/
def addCsr (h c n : Nat) (s : State) : State × Bool := (setCsr h c (csrOf s h c + n) s, decide (2 ^ 64 ≤ csrOf s h c + n))

/-- OF is set, and the local counter-overflow interrupt becomes pending as file 13 (Sscofpmf). -/
def overflow (h k : Nat) (s : State) : State :=
  let e := csrOf s h (0x323 + k)
  if inMask e 63 then s
  else
    let s1 := setCsr h (0x323 + k) (e + 2 ^ 63) s
    setHart h { hartOf s1 h with pend := ((hartOf s1 h).pend ++ [13 * 256]).eraseDups } s1

/-- n occurrences of an event are counted by each hpmcounter that selects it: mhpmevent 0x323 to 0x332, mhpmcounter 0xB03
to 0xB12, mcountinhibit 0x320 as the privileged architecture numbers them. A counter that wraps with OF clear sets OF and
raises the local counter-overflow interrupt. A frozen hart counts nothing (R92). -/
def countN (h code n : Nat) (s : State) : State :=
  if (hartOf s h).st = .frozen ∨ n = 0 then s
  else (List.range 16).foldl (fun a k =>
    let e := csrOf a h (0x323 + k)
    if e % 65536 = code ∧ inMask (e / 2 ^ 58) (inhibitBit (hartOf a h).priv - 58) = false ∧
        inMask (csrOf a h 0x320) (k + 3) = false then
      let (b, wraps) := addCsr h (0xB03 + k) n a
      if wraps then overflow h k b else b
    else a) s

def countEvent (h code : Nat) (s : State) : State := countN h code 1 s

/-- A retired instruction: event 0x0010 and minstret 0xB02, which mcountinhibit bit 2 stops. -/
def countInst (h : Nat) (s : State) : State :=
  let s1 := countEvent h 0x0010 s
  if (hartOf s h).st = .frozen ∨ inMask (csrOf s h 0x320) 2 then s1 else (addCsr h 0xB02 1 s1).1

/-- Core cycles of a hart in a beat: mcycle 0xB00, which mcountinhibit bit 0 stops. -/
def countCycles (h n : Nat) (s : State) : State :=
  if inMask (csrOf s h 0x320) 0 then s else (addCsr h 0xB00 n s).1

/-- The cores that run a hart on a pair: both in checked mode, one in split mode or in the single state. -/
def coresOfHart (s : State) (h : Nat) : List Nat :=
  match pairOfHart s h with
  | some p => if slotSplit s (h / 2) then [p * 2 + h % 2]
      else if rd s (pairStatusState p) = 4 then (coreOfHart s h).toList
      else [p * 2, p * 2 + 1]
  | none => []

/-! ## Debug enables (R365) -/

/-- The enables in force: bit 0 platform non-invasive, 1 platform invasive, 2 secure non-invasive, 3 secure invasive. -/
def enablesNow (s : State) : Nat := if s.chip.debugState = .development then 0xF else s.assayer.enables

def enabled (s : State) (k : Nat) : Bool := inMask (enablesNow s) k

/-! ## What speculation leaves behind (R64 to R66) -/

/-- An access of a reader ends: what it has read at the home, and its waits, are forgotten. -/
def dropReads (w : Reader) (s : State) : State :=
  { s with mem := { s.mem with reads := s.mem.reads.filter (·.who != w), held := s.mem.held.filter (·.1 != w) } }

/-- One line's access of a reader ends. -/
def dropRead (w : Reader) (line : Nat) (s : State) : State :=
  { s with mem := { s.mem with reads := s.mem.reads.filter fun r => !(r.who == w && r.line == line % 2 ^ 40),
                               held := s.mem.held.filter (· != (w, line)) } }

/-- Lines for which core c has a fill in flight. -/
def awaited (s : State) (c : Nat) : List Nat := s.slices.flatMap fun e => (e.2.fills.filter fun f => f.core == c).map (·.line)

/-- The instructions of a hart that are not retired are discarded: misses that wait in the L2 miss queue leave nothing
behind, and each is event 0x0103 (R66); poison that has come or comes for them is delivered to no later access (R185). -/
def squash (h : Nat) (s : State) : State :=
  (coresOfHart s h).foldl (fun a c =>
    countN h 0x0103 (coreOf a c).missQ.length (setCore c { coreOf a c with
      missQ := [], badFills := [], hints := ((coreOf a c).hints ++ awaited a c).eraseDups } a)) (dropReads (.hart h) s)

/-- A pipeline flush, event 0x0104. -/
def flush (h : Nat) (s : State) : State := countEvent h 0x0104 (squash h s)

/-- vstart (0x008) names the element of a vector access at which it ends (R55, R185). -/
def nameElem (h : Nat) (e : Option Nat) (s : State) : State :=
  match e with
  | some n => setCsr h 0x008 n s
  | none => s

/-- A flush that discards an access which had not yet been resolved: the events it has met are nobody's (R65, R79). -/
def dropAccess (h : Nat) (s : State) : State := setHart h { hartOf s h with access := none } s

/-- Raise an exception on hart h (log entry 12): cause and tval are kept with the pc of the instruction, whose access ends. -/
def raise (h cause tval : Nat) (s : State) : State :=
  let s1 := flush h s
  let r := hartOf s1 h
  nameElem h (r.access.bind (·.elem)) (setHart h { r with exc := some ⟨cause, tval, r.pc⟩, access := none } s1)

/-- An illegal-instruction (2) or virtual-instruction (22) exception: xtval takes the instruction (Sstvala), whose bits the
command does not carry, so a free value stands for them (log entry 34). -/
def raiseInstr (h cause : Nat) (s : State) : State := raise h cause (freeVal (2 ^ 32) s) (freeNext s)

/-- An access retires: of a vector instruction with further elements only the element is done; else the instruction and the
events that its access has met are counted (R74, R79, R80). -/
def endAccess (h : Nat) (more : Bool) (s : State) : State :=
  let r := hartOf s h
  if more then dropReads (.hart h) (setHart h { r with access := r.access.map fun x => { x with elem := x.elem.map (· + 1) } } s)
  else
    ((r.access.map (·.codes)).getD []).foldl (fun a c => countEvent h c a)
      (countInst h (dropReads (.hart h) (setHart h { r with access := none } s)))

/-- Write floating-point register f of hart h: a narrower value is NaN-boxed. -/
def setF (h f size v : Nat) (s : State) : State :=
  let q := hartOf s h
  setHart h { q with fp := tset 0 q.fp f (v % 2 ^ (8 * size) + (2 ^ 64 - 2 ^ (8 * size))) } s

/-- Write element e of size bytes in the group of vector registers that begins at v; VLEN is 256 bits. -/
def setVec (h v e size x : Nat) (s : State) : State :=
  let q := hartOf s h
  let k := v + e * size / 32
  let sh := 2 ^ (8 * (e * size % 32))
  let old := tget 0 q.vec k
  setHart h { q with vec := tset 0 q.vec k (old - old / sh % 2 ^ (8 * size) * sh + x % 2 ^ (8 * size) * sh) } s

def modPair (p : Nat) (f : Pair → Pair) (s : State) : State := setPair p (f (pairOf s p)) s

/-! ## Freeze (R91, R92) -/

/-- A pair in checked mode freezes. -/
def freeze (p bus bit cause : Nat) (s : State) : State :=
  if rd s (pairStatusState p) = 3 then
    let h := 2 * rd s (pairStatusSlot p)
    let r := hartOf s h
    let s1 := setHart h { r with st := .frozen, resv := none, wrs := .none } s
    clerkCores.foldl (clkIrq 3 p) <| wr (pairStatusState p) 5 (wr (pairCmpStatusMismatch p) 1 (wr (pairCmpStatusBus p) bus (wr (pairCmpStatusBit p) bit
      (wr (pairCmpStatusCause p) cause (wr (pairCmpBeatBeat p) (beat s) (bump (pairCountMismatches p) 1
        (wr (pairDecisionStep p) 0 (wr (pairDecisionOutcome p) 0 (wr (pairDecisionPass p) 0
          (modPair p (fun q => { q with libero := none, survivor := none, doomed := false, single := false,
                                        images := [], inbound := [], digestBad := 0, resumeAt := none }) s1))))))))))
  else s

/-- An inverted bit stands armed on core B's next write-data output of pair p (R109, R436). -/
def invertArmed (s : State) (p : Nat) : Bool := (pairOf s p).invert && rd s (pairStatusState p) == 3

/-- A pair presents a write-data output (Table 4.1), and f is what follows its release. Where an inverted bit is armed, the comparator
finds it on bus 1, and the output is discarded (R91); which bit it is, the spec leaves open (R109). -/
def presentPair (p : Nat) (f : State → State) (s : State) : State :=
  if invertArmed s p then freeNext (freeze p 1 (freeVal 288 s) 1 (modPair p (fun q => { q with invert := false }) s)) else f s

/-- The same for the pair of hart h. -/
def presentWrite (h : Nat) (f : State → State) (s : State) : State :=
  match pairOfHart s h with
  | some p => presentPair p f s
  | none => f s

/-! ## The side-effect record of a checked pair (R87) -/

/-- The released access of a checked pair is kept until its instruction retires. -/
def keepRecord (h : Nat) (r : SideEff) (s : State) : State :=
  match pairOfHart s h with
  | some p => if slotSplit s (h / 2) then s else setPair p { pairOf s p with sideEff := some r, replay := false } s
  | none => s

/-- The record's instruction has retired. -/
def dropRecord (h : Nat) (s : State) : State :=
  match pairOfHart s h with
  | some p => setPair p { pairOf s p with sideEff := none, replay := false } s
  | none => s

/-- The response of the recorded access arrives while the pair is frozen. -/
def answerRecord (h : Nat) (resp : Nat × Nat) (s : State) : State :=
  match pairOfHart s h with
  | some p => setPair p { pairOf s p with sideEff := (pairOf s p).sideEff.map fun r => { r with resp := some resp } } s
  | none => s

/-- A hart that executes its access again after sparing finds it in the record. -/
def recorded (s : State) (h addr size kind data : Nat) : Option SideEff :=
  match pairOfHart s h with
  | some p => (pairOf s p).sideEff.filter fun r =>
      (pairOf s p).replay && r.addr == addr && r.size == size && r.kind == kind && r.data == data
  | none => none

/-- A hart waits for the response of an access that is not cached, or for the end of a cache-block operation (R60, R67). -/
def awaits (s : State) (h : Nat) : Bool :=
  (hartOf s h).cbo.isSome || s.outs.any fun o => match o.origin with
    | .hart k .. => k == h
    | _ => false

/-- A hart that executes instructions. -/
def hartRuns (s : State) (h : Nat) : Bool :=
  (hartOf s h).st == .running && !(merged s h) && !((pairOfHart s h).any fun p => (pairOf s p).clkGated) && !awaits s h

/-- Platform time as VS- and VU-mode see it: htimedelta is added (chapter 2). -/
def guestTime (s : State) (h : Nat) : Nat := (now s + csrOf s h 0x605) % 2 ^ 64

/-- What a read of the time CSR returns on hart h (R45). -/
def timeCsr (s : State) (h : Nat) : Nat :=
  match (hartOf s h).priv with
  | .vs | .vu => guestTime s h
  | _ => now s

end Sys2Proof.Machine
end

