-- ==== Sys2Proof/Machine/Operands.lean ====
section
/-! DEFINITION. Machine/Operands.lean: the operand forms: fields of a mailbox command and their clamps (R343, R345),
bytes and parts of a main-core access (R73), lines of an address (R115). -/
namespace Sys2Proof.Machine

/-! ## Fields of a mailbox command -/

/-- Field of n bytes at offset off of the argument block, which begins at 0x010 (R335). -/
def arg (c : Bytes) (off n : Nat) : Nat := getLE c (0x10 + off) n

/-- Code of a copied command. -/
def argCode (c : Bytes) : Nat := getLE c 0 4

/-- Nearest legal value of a range (R345). -/
def clampR (lo hi v : Nat) : Nat := if v < lo then lo else if hi < v then hi else v

/-- 1 when a field was changed, for the clamped count of R345. -/
def chg (written applied : Nat) : Nat := if written = applied then 0 else 1

/-- A value beyond the numbering is clamped to the nearest present unit below it (R343). -/
def clampUnit (n : Nat) (present : Nat → Bool) (v : Nat) : Nat :=
  if v < n then v else ((numsBelow n present).reverse.head?).getD 0

/-- An enumerated code: the default when it is not defined. -/
def clampEnum (n dflt v : Nat) : Nat := if v < n then v else dflt

/-- Round down, round up to a multiple. -/
def roundDown (m v : Nat) : Nat := v / m * m
def roundUp (m v : Nat) : Nat := (v + m - 1) / m * m

/-! ## Addresses -/

/-- Line number of a physical address (R115). -/
def lineOf (pa : Nat) : Nat := pa % 2 ^ 52 / 64

/-- Bucket of a line (R115). -/
def bucketOf (l : Nat) : Nat :=
  (l % 4096) ^^^ (l / 2 ^ 12 % 4096) ^^^ (l / 2 ^ 24 % 4096) ^^^ (l / 2 ^ 36 % 1024)

/-- Set of a line in a slice (R115). -/
def setOf (l : Nat) : Nat :=
  (l % 2048) ^^^ (l / 2 ^ 11 % 2048) ^^^ (l / 2 ^ 22 % 2048) ^^^ (l / 2 ^ 33 % 2048) ^^^ (l / 2 ^ 44 % 4)

/-- Directory set of a line (R115). -/
def dirSetOf (l : Nat) : Nat :=
  (l % 8192) ^^^ (l / 2 ^ 13 % 8192) ^^^ (l / 2 ^ 26 % 8192) ^^^ (l / 2 ^ 39 % 128)

/-- Home device of an address and offset in its home range (R21). -/
def homeOf (pa : Nat) : Nat := pa / 2 ^ 46 % 64
def offOf (pa : Nat) : Nat := pa % 2 ^ 46

/-- Regions of a home range (Table 1.4). -/
inductive Region where
  | dram | cxl | io (group : Nat) | control | vacant
  deriving DecidableEq, Repr

def regionOf (off : Nat) : Region :=
  if off < 0x040000000000 then .dram
  else if off < 0x240000000000 then .cxl
  else if off < 0x340000000000 then .io ((off - 0x240000000000) / 0x020000000000)
  else if 0x3FF000000000 ≤ off ∧ off < 0x3FF100000000 then .control
  else .vacant

/-! ## Data of a line: 512 bits, byte 0 lowest -/

/-- n bytes at byte offset o of a line. -/
def lineGet (d o n : Nat) : Nat := d / 2 ^ (8 * o) % 2 ^ (8 * n)

/-- A line with n bytes at offset o replaced. -/
def linePut (d o n v : Nat) : Nat :=
  d - lineGet d o n * 2 ^ (8 * o) + (v % 2 ^ (8 * n)) * 2 ^ (8 * o)

/-- The parts of an access of n bytes at pa: one, or two when it crosses a 64-byte line (R73); pa2 is the physical
address of a second part on another page. -/
def partsOf (a : MemAcc) : List (Nat × Nat) :=
  let r := 64 - a.pa % 64
  if a.size ≤ r then [(a.pa, a.size)]
  else [(a.pa, r), (if a.va % 4096 + a.size ≤ 4096 then a.pa + r else a.pa2, a.size - r)]

/-- Signed value of an n-byte number, as a 64-bit number. -/
def sext (n v : Nat) : Nat :=
  if v % 2 ^ (8 * n) < 2 ^ (8 * n - 1) then v % 2 ^ (8 * n)
  else 2 ^ 64 - (2 ^ (8 * n) - v % 2 ^ (8 * n))

end Sys2Proof.Machine
end

