-- ==== Sys2Proof/Machine/Mailbox.lean ====
section
/-! DEFINITION. Machine/Mailbox.lean: pages, doorbells, results and notices (R334 to R351). The commands themselves
stand in their chapters' files. -/
namespace Sys2Proof.Machine

/-! ## Results -/

/-- Write the command's result in the current slice (R340): DONE, with the count of clamped fields. -/
def stageDone (i clamped : Nat) (data : Bytes) (s : State) : State :=
  let m := mbxOf s i
  let r : Result := { st := 2, clamped := min clamped 0xFFFF, code := argCode m.copy, seq := rd s (mbxSeqSeq i),
                      taken := m.taken, data := data }
  let s1 := setMbx i { m with phase := .staged, staged := some (beat s, r) } s
  if clamped = 0 then s1 else bump (mbxCountClamps i) 1 s1

/-- DENIED, ABSENT or UNAVAILABLE (R342): no data, clamped 0, no count. -/
def stageRefused (i st : Nat) (s : State) : State :=
  let m := mbxOf s i
  setMbx i { m with phase := .staged, staged := some (beat s,
    { st := st, code := argCode m.copy, seq := rd s (mbxSeqSeq i), taken := m.taken }) } s

/-- Step 8: a result staged in an earlier beat is published (R340). -/
def publishOne (b : Nat) (s : State) (i : Nat) : State :=
  let m := mbxOf s i
  match m.staged with
  | some (k, r) =>
    if k < b then
      wr (mbxStatState i) 3 (wr (mbxStatResult i) r.st
        (setMbx i { m with phase := .none, staged := none, res := { r with done := b } } s))
    else s
  | none => s

/-- Step 8: notices of the last slice become readable, with produced, held and overflow (R349, R350). -/
def publishNotices (s : State) (i : Nat) : State :=
  let m := mbxOf s i
  let m1 : Mbx := { m with
    entries := m.placed.foldl (fun e n => tput e ((n.seq - 1) % 15) n) m.entries
    produced := m.produced + m.placed.length
    placed := [], heldShown := m.heldNow, overShown := m.overNow }
  wr (mbxStatHeld i) m.heldNow (wr (mbxNoticeOverflow i) (min m.overNow (2 ^ 32 - 1)) (setMbx i m1 s))

/-- The slice places waiting notices in free entries, holds at most 256 and discards the rest (R349, R350). -/
def placeNotices (b : Nat) (s : State) (i : Nat) : State :=
  let m := mbxOf s i
  let n := min (15 - (m.nextSeq - 1 - m.effAck)) m.queue.length
  let new := (m.queue.take n).zipIdx.map fun (x, j) => { x with seq := m.nextSeq + j, beat := b }
  let rest := m.queue.drop n
  let m1 : Mbx := { m with placed := m.placed ++ new, nextSeq := m.nextSeq + n, queue := rest.take 256,
                           heldNow := min rest.length 256, overNow := m.overNow + (rest.length - 256) }
  bump (mbxNoticePlaced i) n (setMbx i m1 s)

/-- Mailboxes that hold anything. -/
def mbxIds (s : State) : List Nat :=
  (List.range 260).filter fun i => rd s (mbxStatState i) != 0 || (tfind s.mbx i).isSome

/-! ## Doorbell and acknowledges (R337) -/

/-- Window offset of a byte of page i. -/
def pageOff (i off : Nat) : Nat := 0x01000000 + i * 0x1000 + off

/-- The doorbell of mailbox i; the senior's cores learn of it. -/
def doorbell (i : Nat) (s : State) : State :=
  let m := mbxOf s i
  if rd s (mbxStatState i) = 0 ∨ rd s (mbxStatState i) = 3 then
    let s1 := setMbx i { m with copy := m.cmd, latched := beat s, phase := .none, res := {} } s
    let s2 := wr (mbxStatState i) 1 (wr (mbxSeqSeq i) (rd s (mbxSeqSeq i) + 1) s1)
    match s.toss.holder with
    | some x => (complexCores x).foldl (clkIrq 2 i) s2
    | none => s2
  else bump (mbxStatDropped i) 1 s

/-- A store to ack: 8 bytes wide, and only the published seq ends Complete (R336, R337). The field keeps what reached it. -/
def ackResult (i size v : Nat) (s : State) : State :=
  let m := mbxOf s i
  if size = 8 then
    let c := putLE m.cmd 0x408 8 v
    if rd s (mbxStatState i) = 3 ∧ v = m.res.seq then wr (mbxStatState i) 0 (setMbx i { m with cmd := c, res := {} } s)
    else setMbx i { m with cmd := c } s
  else s

/-- A store to notice_ack (R349). -/
def ackNotice (i size v : Nat) (s : State) : State :=
  let m := mbxOf s i
  if size = 8 then
    let e := if m.produced < v then m.produced else if v < m.effAck then m.effAck else v
    setMbx i { m with effAck := e } s
  else s

/-- A refused access: one record, and no word to the requester (R30). -/
def refuseWindow (tag off : Nat) (s : State) : State :=
  recRefusal (nextSlice s) 11 0 0x0B01 tag off s

/-- The party named by `tag` owns mailbox i (Table 13.1): tenancies own 0-256; 257 the I3C target, 258 the Clerk,
259 the debug port name themselves by the mailbox number. -/
def ownsMbx (tag i : Nat) : Bool := decide (i < 260) && tag == i

/-- A store of `size` bytes to page i (R336): command-area bytes are kept, the three control fields act and keep what
reached them, other offsets are discarded. -/
def pageWrite (i off size v : Nat) (s : State) : State :=
  if off < 0x400 then
    let m := mbxOf s i
    setMbx i { m with cmd := if off < 4 ∨ 0x10 ≤ off then putLE m.cmd off size v else m.cmd } s
  else if off < 0x408 then
    let m := mbxOf s i
    doorbell i (setMbx i { m with cmd := putLE m.cmd off size v } s)
  else if off = 0x408 then ackResult i size v s
  else if off = 0x410 then ackNotice i size v s
  else s

/-- The result area as it reads (R337, R340, Table 13.2): 64 bytes of header and the data, from 0x800. -/
def resultBytes (s : State) (i : Nat) : Bytes :=
  let m := mbxOf s i
  let st := rd s (mbxStatState i)
  if st = 3 then
    m.res.data.foldl (fun b e => tset 0 b (0x840 + e.1) e.2)
      (mkBytes [(0x800, 1, m.res.st), (0x802, 2, m.res.clamped), (0x804, 4, m.res.code), (0x808, 8, m.res.seq),
                (0x810, 8, m.res.taken), (0x818, 8, m.res.done)])
  else if st = 0 then []
  else mkBytes [(0x800, 1, 1), (0x804, 4, argCode m.copy), (0x808, 8, rd s (mbxSeqSeq i))]

/-- A notice entry's bytes (Table 13.5). -/
def noticeBytes (n : Notice) : Bytes :=
  n.payload.foldl (fun b e => tset 0 b e.1 e.2) (mkBytes [(0, 2, n.kind), (8, 8, n.seq), (0x10, 8, n.beat)])

/-- Byte at offset off of page i (Table 13.2). -/
def pageByte (s : State) (i off : Nat) : Nat :=
  let m := mbxOf s i
  if off < 0x410 then tget 0 m.cmd off
  else if 0x410 ≤ off ∧ off < 0x418 then m.effAck / 256 ^ (off - 0x410) % 256
  else if 0x800 ≤ off ∧ off < 0xC00 then tget 0 (resultBytes s i) off
  else if 0xC00 ≤ off ∧ off < 0xC10 then
    tget 0 (mkBytes [(0xC00, 8, m.produced), (0xC08, 4, m.heldShown), (0xC0C, 4, min m.overShown (2 ^ 32 - 1))]) off
  else if 0xC40 ≤ off then
    match m.entries.find? (fun e => e.1 == (off - 0xC40) / 0x40) with
    | some e => tget 0 (noticeBytes e.2) ((off - 0xC40) % 0x40)
    | none => 0
  else 0

/-- A load of n bytes from page i. -/
def pageRead (s : State) (i off : Nat) : Nat → Nat
  | 0 => 0
  | n + 1 => pageByte s i off + 256 * pageRead s i (off + 1) n

/-- Warm reset: Idle, and a Latched or Taken command is abandoned (R337); sequence numbers stay (R348). The page's
command area, results and notices are cleared. -/
def abandonMbx (s : State) (i : Nat) : State :=
  let st := rd s (mbxStatState i)
  let s1 := if st = 1 ∨ st = 2 then bump (mbxStatAbandoned i) 1 s else s
  wr (mbxStatState i) 0 (setMbx i {} s1)

/-! ## Carrying out a taken command -/

/-- The copied command of mailbox i when it has been taken, is to be carried out and has this code. -/
def takenCmd (s : State) (i code : Nat) : Option Bytes :=
  let m := mbxOf s i
  if rd s (mbxStatState i) = 2 ∧ m.phase = .ready ∧ argCode m.copy = code then some m.copy else none

/-- Carry out the command of mailbox i if it waits to be; otherwise nothing happens (log entry 13). -/
def onCmd (i code : Nat) (f : Bytes → State → State) (s : State) : State :=
  match takenCmd s i code with
  | some c => f c (setMbx i { mbxOf s i with phase := .started } s)
  | none => s

/-! ## Register fields -/

/-- The legal value of a WARL field nearest to v. -/
def warl (f : Fld) (v : Nat) : Nat :=
  let mc := decide (0x300000 ≤ f.off) && decide (f.off < 0x400000)
  let o := f.off % 0x10000
  if f = pwrCtrlTdpW then clampR 320 640 v
  else if f = pwrCtrlDrowseBeats then clampR 10 10000 v
  else if f = pwrCtrlTThrottle then clampR 70 105 v
  else if f = pwrCtrlHyst then max 1 v
  else if 0x10100 ≤ f.off ∧ f.off < 0x106C0 ∧ f.lo = 16 then clampR 10 36 v
  else if mc ∧ o = 0x20 ∧ (f.lo = 0 ∨ f.lo = 6 ∨ f.lo = 28) then max 1 v
  else if mc ∧ o = 0x20 ∧ f.lo = 32 then max 16 v
  else if mc ∧ o = 0x38 then (if f.lo = 0 then max 16 v else if f.lo = 16 then max 1 v else clampR 1 64 v)
  else if mc ∧ o = 0x420 ∧ f.lo = 0 then max 1 v
  else if mc ∧ o = 0x420 ∧ f.lo = 24 then max 1000 v
  else if 0x200000000 ≤ f.off ∧ o = 0x3E08 ∧ f.lo = 2 then max 1 v
  else v

/-- A write of the bits in mask m of a register with value w to one field (R13): RW and RWS take the written bits, W1C
clears them, the others ignore the write. -/
def fieldStore (w m : Nat) (s : State) (f : Fld) : State :=
  let fw := w / 2 ^ f.lo % 2 ^ f.w
  let fm := m / 2 ^ f.lo % 2 ^ f.w
  let old := rd s f
  if fm = 0 then s
  else match f.acc with
    | .rw | .rws => wr f (warl f (old - (old &&& fm) + (fw &&& fm))) s
    | .w1c => wr f (old - (old &&& (fw &&& fm))) s
    | .ro | .wo | .rc => s

end Sys2Proof.Machine
end

