-- ==== Sys2Proof/Machine/Time.lean ====
section
/-! DEFINITION. Machine/Time.lean: reference clocks, the beat number and platform time (R32 to R53, R422, R426, R457). -/
namespace Sys2Proof.Machine

def setTime (t : TimeSt) (s : State) : State := { s with time := t }

/-- ok bit of a reference: 0 REFCLK_A, 1 REFCLK_B. -/
def refOk (r : Nat) : Fld := if r = 0 then clkStatusRefaOk else clkStatusRefbOk

/-- Both references are lost: holdover starts, with a contained error of the beat master's domain (R35, R422). -/
def enterHoldover (sl : Nat) (s : State) : State :=
  recContained sl 10 (rd s clkStatusBeatMaster) 0x0A02 0 [] (wr clkStatusHoldover 1 (setTime { s.time with holdBeats := 0 } s))

/-- A lost reference outside Dormant: record, then switchover when the other is good, holdover when neither is (R34, R35). -/
def refLost (sl r : Nat) (s : State) : State :=
  let s1 := recContained sl 10 r 0x0A01 0 [] s
  if rdB s (refOk (1 - r)) then wr clkStatusRefSel (1 - r) s1
  else if rdB s clkStatusHoldover then s1 else enterHoldover sl s1

/-- No rising edge for 200 ns, or a period over 1,000 cycles outside 100 MHz ± 300 ppm, clears the ok bit; in Dormant, and
until the first boundary after the wake, nothing else happens (R426, R457). -/
def refclkLoss (r gapNs ppm : Nat) (s : State) : State :=
  if r < 2 ∧ (200 ≤ gapNs ∨ 300 < ppm) ∧ rdB s (refOk r) then
    let s1 := wr (refOk r) 0 s
    if s.time.dormant ∨ s.time.wakeRefs then s1 else refLost (nextSlice s) r s1
  else s

/-- 1,000 good cycles set the ok bit again (R34); what the generator does waits for a boundary. -/
def refclkRecovered (r cycles : Nat) (s : State) : State :=
  if r < 2 ∧ 1000 ≤ cycles then wr (refOk r) 1 s else s

/-- A reference has been qualified. -/
def refGood (s : State) : Bool := rdB s (refOk 0) || rdB s (refOk 1)

/-- At a boundary the generator runs from the preferred reference while that is good, else from the other one (R34), and
leaves holdover when either is good (R35). -/
def refBoundary (b : Nat) (s : State) : State :=
  if refGood s then
    let pref := rd s clkCtrlRefPref
    let s1 := wr clkStatusRefSel (if rdB s (refOk pref) then pref else 1 - pref) s
    if rdB s clkStatusHoldover then
      recContained b 10 (rd s clkStatusBeatMaster) 0x0A02 0 [] (wr clkStatusHoldover 0 s1)
    else s1
  else s

/-- At the first boundary after a wake each reference that is not good counts as lost (R457). -/
def refWake (b : Nat) (s : State) : State :=
  if s.time.wakeRefs then
    let s1 := setTime { s.time with wakeRefs := false } s
    let s2 := if rdB s1 (refOk 0) then s1 else refLost b 0 s1
    if rdB s2 (refOk 1) then s2 else refLost b 1 s2
  else s

/-- Holdover adds 1 ns of uncertainty for every 5 beats (R422). -/
def holdoverBeat (s : State) : State :=
  if rdB s clkStatusHoldover then
    if s.time.holdBeats + 1 = 5 then bump clkUncertTotalTotalNs 1 (setTime { s.time with holdBeats := 0 } s)
    else setTime { s.time with holdBeats := s.time.holdBeats + 1 } s
  else s

/-- What this beat takes from the lead of a slew: 10 ns on one beat in every 100, and no more than the lead, so that the time
does not fall below the captain's (R47, R51; log entry 31). -/
def slewDrop (s : State) : Nat :=
  if rdB s clkStatusSlewing ∧ s.time.slewPhase = 99 then min 10 (rd s clkSlewRemainLeadNs) else 0

/-- What the beat adds to platform time (Table 2.3): 1,000 ns and the lengthening of a join beat, less what a slew takes. -/
def beatGain (s : State) : Nat := 1000 - slewDrop s + s.time.lengthen

/-- Platform time of the next boundary without a setting (R357, Table 13.10). -/
def nextTime (s : State) : Nat := now s - s.time.sub + beatGain s

/-- Length of the beat in ps: 1,000 ns, its lengthening and the move of the phase adjuster (R41, R42). -/
def beatPs (s : State) : Nat := (1000 + s.time.lengthen + s.time.adjust).toNat * 1000

/-- The ports' counters at the boundary (R261). -/
def portClocks (s : State) : State :=
  let ps := beatPs s
  let count := fun (e : Nat × FabPort) => (e.1, { e.2 with ctr := (e.2.ctr + ps) % 2 ^ 64 })
  { s with fabric := { s.fabric with ports := s.fabric.ports.map count } }

/-- Step 1: beat number and platform time (R32, R46, R47). -/
def advanceTime (s : State) : State :=
  let t := s.time
  if t.started then
    let n := nextTime s
    let v := match t.setNext with | some x => if n < x then x else n | none => n
    let s1 := setTime { t with sub := 0, setNext := none, lengthen := 0, adjust := 0,
                               capBeat := t.capBeat + 1, capTime := t.capTime + 1000
                               slewPhase := if rdB s clkStatusSlewing then (t.slewPhase + 1) % 100 else 0 }
                      (portClocks s)
    wr clkSlewRemainLeadNs (rd s clkSlewRemainLeadNs - slewDrop s) (wr clkBeatBeat (beat s + 1) (wr clkTimeTimeNs v s1))
  else
    wr clkBeatBeat 0 (wr clkTimeTimeNs 0 (setTime { t with started := true, sub := 0, setNext := none } s))

/-- A slew ends when the lead is gone (R51). -/
def slewDone (s : State) : State :=
  if rdB s clkStatusSlewing ∧ rd s clkSlewRemainLeadNs = 0 then
    wr clkStatusSlewing 0 (setTime { s.time with slewPhase := 0 } s)
  else s

/-- Size of the signed boundary error in ns. -/
def absErr (e : Int) : Nat := e.natAbs

/-- No slew runs. -/
def stopSlew (s : State) : State :=
  wr clkStatusSlewing 0 (wr clkSlewRemainLeadNs 0 (setTime { s.time with slewPhase := 0 } s))

/-- A new captain, or a joining: beat and time are compared with it at the first boundary aligned to it (R42, R44, R51). -/
def realign (s : State) : State :=
  wr clkStatusFabAligned 0 (setTime { s.time with capKnown := false, lengthen := 0, adjust := 0 } s)

/-- The device is its own captain: its time follows only its ordinary beats and settings, and its beat number is the captain's
(R44, R52, R53). -/
def ownCaptain (s : State) : State := wr clkFabBeatOffsetOffset 0 (stopSlew (realign s))

/-- The first aligned boundary: the captain's beat number when higher, else the offset (R44). -/
def takeBeat (s : State) : State :=
  if beat s < s.time.capBeat then wr clkFabBeatOffsetOffset 0 (wr clkBeatBeat s.time.capBeat s)
  else wr clkFabBeatOffsetOffset (beat s - s.time.capBeat) s

/-- The captain's time when higher; a lead over it is slewed away (R51), and shrinks when the captain is set forward (R52). -/
def takeTime (slew : Bool) (s : State) : State :=
  if now s < s.time.capTime then wr clkTimeTimeNs s.time.capTime (stopSlew s)
  else if slew then wr clkSlewRemainLeadNs (now s - s.time.capTime) (wr clkStatusSlewing 1 s)
  else s

/-- Error of this boundary against the parent's in whole ns, its own less the parent's: the port's counter at the boundary
against where the parent's marker places its boundary (R262; log entry 31). -/
def parentErr (s : State) : Int :=
  match s.fabric.parent with
  | some k =>
    let p := tget {} s.fabric.ports k
    (((p.ctr : Int) - p.edge + 500000).emod 1000000 - 500000).tdiv 1000
  | none => 0

/-- A member's alignment at a boundary of error e. A beat is lengthened by what brings the next boundary onto the captain's
(R42); the first boundary within ±10 ns sets fab_aligned and compares beat number and time (R44, R51); from then the adjuster
moves the edge by 1 ns a beat (R41), the largest error is kept, and a captain set forward is followed (R52). -/
def alignTo (e : Int) (s : State) : State :=
  let s0 := wr clkFabAlignErrNs (e.emod 65536).toNat s
  let near := setTime { s0.time with adjust := -e.sign } s0
  if rdB s clkStatusFabAligned then
    takeTime (rdB s clkStatusSlewing) (wr clkFabAlignMaxErrNs (max (rd s clkFabAlignMaxErrNs) (absErr e)) near)
  else if absErr e ≤ 10 then
    takeTime (decide (s.time.capTime < now s)) (takeBeat (wr clkFabAlignMaxErrNs (absErr e) (wr clkStatusFabAligned 1 near)))
  else setTime { s0.time with lengthen := ((-e).emod 1000).toNat } s0

/-- A member, and a device that has found its captain and is joining, aligns to the captain's markers; without them, and as
captain, it runs from its own reference (R41 to R44). -/
def alignBoundary (s : State) : State :=
  if (rdB s fabIdMember ∨ 4 ≤ rd s fabStateState) ∧ rdB s fabIdCaptain = false ∧ s.time.capKnown then alignTo (parentErr s) s else s

/-- Domains whose copy or edge disagreed adopt the master's value; a contained error each (R36). -/
def copyCheck (b : Nat) (bad : List Nat) (s : State) : State :=
  bad.foldl (fun a d => recContained b 10 d 0x0A03 0 [] a) s

/-- The Dormant timekeeping source: XTAL32 when fitted and not overruled (Table 2.4). -/
def aoSource (s : State) : State :=
  wrB clkStatusAoSource (s.chip.xtalFitted && !rdB s clkCtrlAoForceRc) s

/-! ## Meanings -/

/-- REFCLK_LOSS (R34, R35, R426, R457). -/
def execRefclkLoss (ref gapNs ppm : Nat) (s : State) : Host.Outcome State Fault Refusal :=
  .next (refclkLoss ref gapNs ppm s)

/-- REFCLK_RECOVERED (R34). -/
def execRefclkRecovered (ref cycles : Nat) (s : State) : Host.Outcome State Fault Refusal :=
  .next (refclkRecovered ref cycles s)

/-- REF_PREF_WRITE (R34, R53): the field takes the value; the switchover comes at the next boundary. -/
def execRefPrefWrite (pref : Nat) (s : State) : Host.Outcome State Fault Refusal := .next (wr clkCtrlRefPref pref s)

/-- XTAL32_LOSS (R426): no edge for 100 µs. -/
def execXtal32Loss (gapNs : Nat) (s : State) : Host.Outcome State Fault Refusal :=
  .next (if 100000 ≤ gapNs then wr clkStatusAoSource 0 { s with chip := { s.chip with xtalFitted := false } } else s)

/-- SLEW_DONE (R51). -/
def execSlewDone (s : State) : Host.Outcome State Fault Refusal := .next (slewDone s)

/-- SENSOR_RETIRE (R426): 16 boundaries discarded in a row retire the sensor until cold reset. -/
def execSensorRetire (sensor : Nat) (s : State) : Host.Outcome State Fault Refusal :=
  let r := tget {} s.chip.sensors sensor
  .next (if 16 ≤ r.badRuns ∧ r.retired = false then
    recContained (nextSlice s) 10 sensor 0x0A04 0 []
      { s with chip := { s.chip with sensors := tset {} s.chip.sensors sensor { r with retired := true } } }
  else s)

end Sys2Proof.Machine
end

