-- ==== Sys2Proof/Machine/Dram.lean ====
section
/-! DEFINITION. Machine/Dram.lean: the DRAM map (R23), the place of a line in its channel (R143), stored lines, their
symbols, and the outcomes of a read (R174 to R193). -/
namespace Sys2Proof.Machine

def setMem (m : Mem) (s : State) : State := { s with mem := m }
def chanOf (s : State) (c : Nat) : Chan := tget {} s.mem.chans c
def setChan (c : Nat) (r : Chan) (s : State) : State :=
  { s with mem := { s.mem with chans := tset {} s.mem.chans c r } }
def modChan (c : Nat) (f : Chan → Chan) (s : State) : State := setChan c (f (chanOf s c)) s

/-! ## The DRAM map (R23, R460) -/

/-- blocks_on(q, c) of R23: blocks of n that fall on position i of m members. -/
def blocksAt (n m i : Nat) : Nat := if m ≤ i then 0 else (n + (m - 1 - i)) / m

/-- blocks_on(q, c). -/
def blocksOn (q : MapRange) (c : Nat) : Nat :=
  match q.members.findIdx? (· == c) with
  | some i => blocksAt (q.size / 4096) q.members.length i
  | none => 0

/-- Channel (member) and block in the channel of an offset (R23), going through the ranges in ascending base. -/
def locateIn (off : Nat) : List MapRange → List MapRange → Option (Nat × Nat)
  | _, [] => none
  | before, q :: rest =>
    if q.base ≤ off ∧ off < q.base + q.size then
      let blk := (off - q.base) / 4096
      let m := q.members.length
      match q.members[blk % m]? with
      | some c => some (c, (before.map (blocksOn · c)).sum + blk / m)
      | none => none
    else locateIn off (q :: before) rest

def locate (s : State) (off : Nat) : Option (Nat × Nat) := locateIn off [] s.mem.map

/-- Bytes in the map. -/
def mappedBytes (s : State) : Nat := (s.mem.map.map (·.size)).sum

/-- Line of the map nearest to an offset outside it (R201). -/
def nearestLine (s : State) (off : Nat) : Nat :=
  let o := roundDown 64 off
  if (locate s o).isSome then o
  else
    let cands := s.mem.map.map fun q => if o < q.base then q.base else q.base + q.size - 64
    cands.foldl (fun best c =>
      let dist := fun x => if o ≤ x then x - o else o - x
      if dist c < dist best then c else best) (cands.head?.getD 0)

/-- Where a line lies in its channel (R143). -/
structure Coord where
  chan : Nat
  sub  : Nat
  rank : Nat
  chip : Nat
  bg   : Nat
  bank : Nat
  col  : Nat
  row  : Nat
  deriving DecidableEq, Repr

def chipBits (stack : Nat) : Nat := if stack = 0 then 0 else if stack = 1 then 1 else 2

/-- R143 for block b of channel c and line l of the block. -/
def coordIn (d : DimmSpd) (c b l : Nat) : Coord :=
  let low := b / 2 % 8
  let up := b / 1024
  let rank := if d.ranks = 2 then up % 2 else 0
  let up1 := if d.ranks = 2 then up / 2 else up
  let cb := 2 ^ chipBits d.stack
  { chan := c, sub := b % 2, rank := rank, chip := up1 % cb, bg := (l % 8) ^^^ low, bank := b / 256 % 4,
    col := b / 16 % 16 * 8 + l / 8 % 8, row := up1 / cb * 8 + low }

/-- The coordinates of an offset of the device's own DRAM. -/
def coord (s : State) (off : Nat) : Option Coord :=
  match locate s off with
  | some (c, b) =>
    match (chanOf s c).dimm with
    | some d => some (coordIn d c b (off % 4096 / 64))
    | none => none
  | none => none

/-- One number for a bank of every die (R150), and for a row of it (R193). -/
def bankKey (k : Coord) : Nat := (((k.sub * 2 + k.rank) * 4 + k.chip) * 8 + k.bg) * 4 + k.bank
def rowKey (k : Coord) : Nat := ((k.row * 4 + k.chip) * 8 + k.bg) * 4 + k.bank

/-- Physical address of a line of this device's DRAM. -/
def ownPa (s : State) (line : Nat) : Nat := rd s fabIdDeviceId * 2 ^ 46 + line * 64

/-! ## Mirroring (R188 to R190) -/

def mirrored (s : State) (c : Nat) : Bool := rdB s (mcMirrorEnabled c)

/-- The channels that store a line of member c: both of a mirrored pair, lower first. -/
def copies (s : State) (c : Nat) : List Nat := if mirrored s c then [c, c + 1] else [c]

/-- The part of a channel that holds these coordinates is fenced, or the channel is left out (R420). -/
def partFenced (s : State) (c : Nat) (k : Coord) : Bool :=
  rd s (mcStatusState c) == 5 || rd s (mcStatusState c) == 6 || (chanOf s c).fencedSubs.contains k.sub || (chanOf s c).fencedRanks.contains k.rank

/-! ## Keys (R178) -/

def keyEnt (s : State) (t : Nat) : KeyEnt := tget {} s.mem.keys t

/-- The key loaded for a generation. -/
def keyGen (e : KeyEnt) (g : Nat) : Option Nat := if g = 0 then e.gen0 else e.gen1

/-! ## Encryption and the tag (R176, R177) -/

/-- Times α in the field of XTS (IEEE Std 1619): shift, and feed bit 127 back as 0x87. -/
def xtsNext (t : Nat) : Nat := t * 2 % 2 ^ 128 ^^^ (if t / 2 ^ 127 % 2 = 1 then 0x87 else 0)

/-- Tweak of AES block j of a line. -/
def xtsTweak (key tweak : Nat) : Nat → Nat
  | 0 => aes256 (Config.keyBits key 1) tweak
  | j + 1 => xtsNext (xtsTweak key tweak j)

/-- AES block j of a line. -/
def block128 (v j : Nat) : Nat := v / 2 ^ (128 * j) % 2 ^ 128

/-- The four AES blocks of a line under the tweaks of XTS, by f. -/
def xtsLine (f : Nat → Nat → Nat) (key tweak v : Nat) : Nat :=
  ((List.range 4).map fun j =>
    let t := xtsTweak key tweak j
    ((f (Config.keyBits key 0) (block128 v j ^^^ t)) % 2 ^ 128 ^^^ t) * 2 ^ (128 * j)).sum

def xtsEncrypt (key tweak v : Nat) : Nat := xtsLine aes256 key tweak v
def xtsDecrypt (key tweak v : Nat) : Nat := xtsLine aes256Inv key tweak v

/-- Bit i of a block as GHASH numbers them (SP 800-38D): from the top bit of byte 0. -/
def ghashBit (x i : Nat) : Nat := x / 2 ^ (i / 8 * 8 + (7 - i % 8)) % 2

/-- Times x in the field of GHASH: one place on, bit 127 fed back as 0xE1 in byte 0. -/
def ghashNext (v : Nat) : Nat :=
  ((List.range 127).map fun i => ghashBit v i * 2 ^ ((i + 1) / 8 * 8 + (7 - (i + 1) % 8))).sum ^^^ (if ghashBit v 127 = 1 then 0xE1 else 0)

/-- Product of two blocks in that field. -/
def ghashMul (x y : Nat) : Nat :=
  ((List.range 128).foldl (fun (a : Nat × Nat) i => (if ghashBit x i = 1 then a.1 ^^^ a.2 else a.1, ghashNext a.2)) (0, y)).1

/-- GHASH of blocks under h. -/
def ghash (h : Nat) (blocks : List Nat) : Nat := blocks.foldl (fun y b => ghashMul (y ^^^ b) h) 0

/-- The tag of a line's ciphertext; `a` is the address block of R177. -/
def tag56 (key a ct : Nat) : Nat :=
  let k := Config.keyBits key 2
  aes256 k (ghash (aes256 k 0) ((List.range 4).map (block128 ct) ++ [a])) % 2 ^ 56

/-! ## Symbols and checks -/

/-- Poison marker of R184. -/
def DLine.marker : DLine := { poison := true }

/-- Symbol of device d (0 to 7, 9) before errors: ciphertext, or tag and meta byte (Tables 7.1, R175 to R177). -/
def cleanSymbol (pa : Nat) (l : DLine) (d : Nat) : Nat :=
  let tweak := pa % 2 ^ 46 / 64 + l.tag * 2 ^ 40
  let ct := if l.poison then 0 else xtsEncrypt l.key tweak l.data
  if d < 8 then ct / 2 ^ (64 * d) % 2 ^ 64
  else if l.poison then 0x80 * 2 ^ 56
  else tag56 l.key (tweak + l.gen * 2 ^ 56) ct + l.gen * 2 ^ 56

/-- The ten stored symbols of a line, the parity on device 8, with the errors they carry (Table 7.1). -/
def symbolsOf (pa : Nat) (l : DLine) : List Nat :=
  let cs := [0, 1, 2, 3, 4, 5, 6, 7, 9].map (cleanSymbol pa l)
  let par := cs.foldl (· ^^^ ·) 0
  (cs.take 8 ++ [par] ++ cs.drop 8).zipIdx.map fun (v, d) => v ^^^ tget 0 l.err d

/-- What a read's check gives (R180). -/
inductive ROut where
  | clean
  | rebuilt
  | corrected (d : Nat)
  | corrPoison (d : Nat)
  | stored
  | integrity
  | uncorr
  deriving DecidableEq, Repr

/-- Error patterns of a line with those of one burst added. -/
def addErr (e : Table Nat) (x : List (Nat × Nat)) : Table Nat :=
  x.foldl (fun a p => if p.1 < 10 then tset 0 a p.1 (tget 0 a p.1 ^^^ (p.2 % 2 ^ 64)) else a) e

/-- s of R180: with consistent stored parity it is the XOR of the error patterns. -/
def syndrome (e : Table Nat) : Nat := (List.range 10).foldl (fun a d => a ^^^ tget 0 e d) 0

/-- No error left in what the tag covers: devices 0 to 7 and 9 (R177; log entry 5). -/
def tagClean (e : Table Nat) : Bool := [0, 1, 2, 3, 4, 5, 6, 7, 9].all fun d => tget 0 e d == 0

/-- A candidate passes when it is the poison marker, or its tag verifies under tenancy t (R178, R180). -/
def passes (keys : Table KeyEnt) (t : Nat) (l : DLine) (e : Table Nat) : Bool :=
  tagClean e && (l.poison || (l.tag == t && keyGen (tget {} keys t) l.gen == some l.key))

/-- R180 for a line read for tenancy t, device `sp` spared. -/
def checkLine (keys : Table KeyEnt) (t : Nat) (l : DLine) (sp : Option Nat) (e : Table Nat) : ROut :=
  let syn := syndrome e
  match sp with
  | some d =>
    if passes keys t l (addErr e [(d, syn)]) then (if l.poison then .stored else if syn = 0 then .clean else .rebuilt)
    else .integrity
  | none =>
    if syn = 0 then
      if passes keys t l e then (if l.poison then .stored else .clean) else .integrity
    else
      match (List.range 10).filter fun d => passes keys t l (addErr e [(d, syn)]) with
      | [d] => if l.poison then .corrPoison d else .corrected d
      | _ => .uncorr

/-- Outcomes that lead to a reread (R182). -/
def ROut.bad : ROut → Bool
  | .integrity | .uncorr => true
  | _ => false

/-- Device spared on a rank and subchannel (MC_SPARE_STATUS, R191). -/
def sparedDev (s : State) (c rank sub : Nat) : Option Nat :=
  let v := rd s (mcSpareStatusSpared c) / 2 ^ (5 * (rank * 2 + sub)) % 32
  if v / 16 % 2 = 1 then some (v % 16) else none

def lineAt (s : State) (c line : Nat) : DLine := tget {} (chanOf s c).lines line

def setLine (c line : Nat) (l : DLine) (s : State) : State :=
  modChan c (fun r => { r with lines := tset {} r.lines line l }) s

/-- Last-event registers of a channel (Table 7.5). -/
def eccLast (c line device kind : Nat) (k : Coord) (s : State) : State :=
  wr (mcEccLastLine c) line (wr (mcEccLastDevice c) device (wr (mcEccLastKind c) kind
    (wr (mcEccLastSub c) k.sub (wr (mcEccLastRank c) k.rank (wr (mcEccLastBeatBeat c) (beat s) s)))))

/-- An entry of the repair list names the row of these coordinates. -/
def RepRow.names (x : RepRow) (k : Coord) : Bool := x.sub == k.sub && x.rank == k.rank && x.row == rowKey k

/-- Put a row on the repair list, at most 64 rows (R193). -/
def listRow (c : Nat) (k : Coord) (s : State) : State :=
  let r := chanOf s c
  if r.repair.any (·.names k) || decide (64 ≤ r.repair.length) then s
  else wr (mcRepairListed c) (r.repair.length + 1)
    (setChan c { r with repair := r.repair ++ [⟨k.sub, k.rank, rowKey k, false⟩] } s)

/-- A row without a repair resource: listed as unrepairable, once (R193). -/
def markRow (c : Nat) (k : Coord) (s : State) : State :=
  let s1 := listRow c k s
  let l := (chanOf s1 c).repair.map fun x => if x.names k then { x with bad := true } else x
  wr (mcRepairUnrepairable c) (l.filter (·.bad)).length (modChan c (fun r => { r with repair := l }) s1)

/-- Count a correction at device d: counters, the sparing threshold, the row's corrections (R180, R191, R193). -/
def countCorrection (sl c line d : Nat) (k : Coord) (s : State) : State :=
  let n := k.rank * 20 + k.sub * 10 + d
  let s1 := eccLast c line d 1 k (bump (mcEccCountCorrected c) 1
    (bump (mcDevCeWindow c n) 1 (bump (mcDevCeTotal c n) 1 s)))
  let s2 := recCorrected sl 3 c 0x0301 0 s1
  let e := k.rank * 2 + k.sub
  let s3 := if rdB s2 (mcSpareCtrlAuto c) ∧ rd s2 (mcSpareCtrlThreshold c) ≤ rd s2 (mcDevCeWindow c n)
              ∧ (sparedDev s2 c k.rank k.sub).isNone then
      let r := chanOf s2 c
      let cur := tget 0 r.spareDue e
      let better := cur = 0 ∨ rd s2 (mcDevCeWindow c (k.rank * 20 + k.sub * 10 + (cur - 1))) < rd s2 (mcDevCeWindow c n)
        ∨ (rd s2 (mcDevCeWindow c (k.rank * 20 + k.sub * 10 + (cur - 1))) = rd s2 (mcDevCeWindow c n) ∧ d < cur - 1)
      if better then setChan c { r with spareDue := tset 0 r.spareDue e (d + 1) } s2 else s2
    else s2
  let rk := ((rowKey k * 2 + k.sub) * 2 + k.rank) * 16 + d
  let r := chanOf s3 c
  let cnt := tget 0 r.rowCorr rk + 1
  let s4 := setChan c { r with rowCorr := tset 0 r.rowCorr rk cnt } s3
  if cnt = 4 then listRow c k s4 else s4

/-- Store the poison marker (R184). -/
def storePoison (sl c line : Nat) (k : Coord) (s : State) : State :=
  recContained sl 3 c 0x0305 (ownPa s line) [] (eccLast c line 0xF 5 k
    (bump (mcEccCountPoisonWritten c) 1 (setLine c line DLine.marker s)))

/-- The record of R186 to the reader. -/
def readRecord (sl c line tag cause : Nat) (s : State) : State :=
  recVisible sl 3 c cause [tag] (ownPa s line) [] c [] s

/-- Plaintext delivered by an outcome; none is poison (Table 7.2). -/
def delivered (l : DLine) : ROut → Option Nat
  | .clean | .rebuilt | .corrected _ => some l.data
  | _ => none

/-- Access to a fenced part without a partner (R420): the reader's or writer's record. -/
def lostLine (sl c line tag : Nat) (s : State) : State := readRecord sl c line tag 0x0306 s

/-- The error patterns of an armed flip mask (R199). -/
def flipErr (s : State) (c : Nat) : Table Nat :=
  addErr [] ((if rd s (mcFlipCtrlDeviceA c) < 10 then [(rd s (mcFlipCtrlDeviceA c), rd s (mcFlipPatAPattern c))] else []) ++
    (if rd s (mcFlipCtrlDeviceB c) < 10 then [(rd s (mcFlipCtrlDeviceB c), rd s (mcFlipPatBPattern c))] else []))

/-- Store an encoded line on one channel; an armed flip mask is applied to a tag-0 write of its line (R179, R199). -/
def storeLine (c line : Nat) (l : DLine) (s : State) : State :=
  if rdB s (mcFlipCtrlArmed c) ∧ rd s (mcFlipLineLine c) = line ∧ l.tag = 0 then
    wr (mcFlipCtrlArmed c) 0 (wr (mcFlipDoneBeat c) (beat s) (setLine c line { l with err := flipErr s c } s))
  else setLine c line l s

/-- A whole-line write under tenancy t (R179, R189, R420). -/
def writeLine (sl line tag data : Nat) (s : State) : State :=
  match coord s (line * 64) with
  | none => s
  | some k =>
    let e := keyEnt s tag
    match e.cur with
    | none => recContained sl 3 k.chan 0x030B 0 [] s
    | some g =>
      let l : DLine := { tag := tag, gen := g, key := (keyGen e g).getD 0, data := data % 2 ^ 512 }
      match (copies s k.chan).filter fun c => !partFenced s c k with
      | [] => lostLine sl k.chan line tag s
      | cs => cs.foldl (fun a c => storeLine c line l a) s

/-- A poison marker written for a lost line, on every copy (R184). -/
def poisonLine (sl line : Nat) (s : State) : State :=
  match coord s (line * 64) with
  | none => s
  | some k => ((copies s k.chan).filter fun c => !partFenced s c k).foldl (fun a c => storePoison sl c line k a) s

end Sys2Proof.Machine
end

