-- ==== Sys2Proof/Machine/DramCtl.lean ====
section
/-! DEFINITION. Machine/DramCtl.lean: the channel controller: classes and queues, the page predictor, sealed blocks,
refresh, replay after an alert (R142 to R173), and the owner check at the hub (R205). -/
namespace Sys2Proof.Machine

def tenantOf (s : State) (t : Nat) : Tenant := tget {} s.tenants t
def setTenant (t : Nat) (r : Tenant) (s : State) : State := { s with tenants := tset {} s.tenants t r }
def isSealed (s : State) (t : Nat) : Bool := t != 0 && (tenantOf s t).st == .isSealed

/-- A notice of R225 to a sealed tenancy, counted. -/
def sealNotice (t kind : Nat) (payload : List (Nat × Nat × Nat)) (s : State) : State :=
  let r := tenantOf s t
  notify t kind payload (setTenant t { r with notices := r.notices + 1 } s)

/-! ## Granules (R204, R205) -/

def granuleOwner (s : State) (off : Nat) : Nat := tget 0 s.mem.granules (off / 2 ^ 21)

/-- The request may be performed: its tag owns the granule, or it carries the management marker. -/
def granuleOk (s : State) (off tag : Nat) (mgmt : Bool) : Bool := mgmt || granuleOwner s off == tag

/-- A refused request: a record and one more in the requester's refused count (R205). -/
def refuseGranule (kind unit pa tag : Nat) (s : State) : State :=
  let r := tenantOf s tag
  recRefusal (nextSlice s) kind unit 0x0B02 tag pa (setTenant tag { r with refused := r.refused + 1 } s)

/-! ## Slots and blocks -/

def ranksOf (s : State) (c : Nat) : Nat := max 1 (rd s (mcDimmRanks c))

/-- Number of set bits among the three data slots. -/
def slotCountOf (en : Nat) : Nat := en % 2 + en / 2 % 2 + en / 4 % 2

/-- Enabled data slots a tenancy owns on a subchannel (R157). -/
def ownedSlots (s : State) (c sub t : Nat) : Nat :=
  ((List.range 32).map fun i =>
    if rd s (mcSealBlockOwner c (sub * 32 + i)) = t then slotCountOf (rd s (mcSealBlockSlotEn c (sub * 32 + i))) else 0).sum

/-- Rank that role r names in frame f (R155). -/
def roleRank (s : State) (c r f : Nat) : Nat := (r + f) % ranksOf s c

/-- sel_lead in slots, rounded up. -/
def selSlots (s : State) (c : Nat) : Nat :=
  (rd s (mcSelLeadSelLeadPs c) * rd s (mcDimmSpeed c) + 15999999) / 16000000

/-- Owner of a block in frame f, the present one or a neighbour of it: one selected before the last boundary keeps the owner it
was selected under (R157). -/
def ownerIn (s : State) (c e f : Nat) : Nat :=
  let old := tget 0 (chanOf s c).oldOwner e
  if old ≠ 0 ∧ (f < beat s ∨ (f = beat s ∧ rd s (mcSealBlockPosition c e) < selSlots s c)) then old - 1
  else rd s (mcSealBlockOwner c e)

/-- Entry e is a block that a tenancy owns in frame f. -/
def ownedIn (s : State) (c e f : Nat) : Bool := rdB s (mcSealBlockValid c e) && ownerIn s c e f != 0

/-- The frames whose claims can reach into the present one, and first slot of each, counted from the frame before (R155). -/
def nearFrames (s : State) (n : Nat) : List (Nat × Nat) :=
  (if beat s = 0 then [] else [(beat s - 1, 0)]) ++ [(beat s, n), (beat s + 1, 2 * n)]

/-- First slot of the claim of block n in frame f, counted from beat 0. -/
def claimFrom (s : State) (c n f : Nat) : Nat :=
  f * rd s (mcSlotGridSlots c) + rd s (mcSealBlockPosition c n) - rd s (mcSlotGridPre c)

/-- Last slot of that claim. -/
def claimTo (s : State) (c n f : Nat) : Nat :=
  f * rd s (mcSlotGridSlots c) + rd s (mcSealBlockPosition c n) + 4 + rd s (mcSlotGridPost c)

def catchingUp (s : State) (c rank : Nat) : Bool := (tget none (chanOf s c).catchUps rank).isSome
def recovering (s : State) (c sub : Nat) : Bool := (tget none (chanOf s c).recov sub).isSome

/-- A block that a tenancy owns in frame f stands: no catch-up of its rank that runs, or that ended after its claim began, has made it
lost, since a catch-up coincides with no claim (R164). -/
def blockStands (s : State) (c e f : Nat) : Bool :=
  let rank := roleRank s c (rd s (mcSealBlockRole c e)) f
  ownedIn s c e f && !catchingUp s c rank && !(tget none (chanOf s c).catchPast rank).any (decide <| claimFrom s c e f < ·)

/-- Rank `rank` of a subchannel is claimed at a slot of the present frame (R155, R156). -/
def claimedAt (s : State) (c sub rank slot : Nat) : Bool :=
  let n := rd s (mcSlotGridSlots c)
  (List.range 32).any fun i => (nearFrames s n).any fun (f, base) =>
    let e := sub * 32 + i
    let k := base + rd s (mcSealBlockPosition c e)
    blockStands s c e f && roleRank s c (rd s (mcSealBlockRole c e)) f == rank &&
      decide (k ≤ n + slot + rd s (mcSlotGridPre c)) && decide (n + slot ≤ k + 4 + rd s (mcSlotGridPost c))

/-- The slot belongs to an owned block of the subchannel, whose five slots carry no other burst (R159, R160). -/
def sealedSlot (s : State) (c sub slot : Nat) : Bool :=
  (List.range 32).any fun i =>
    let k := rd s (mcSealBlockPosition c (sub * 32 + i))
    blockStands s c (sub * 32 + i) (beat s) && decide (k ≤ slot) && decide (slot ≤ k + 4)

/-- A soft repair keeps a rank of the subchannel quiet (R194). -/
def underRepair (s : State) (c sub rank : Nat) : Bool := (chanOf s c).repairing.contains (sub * 2 + rank)

/-- First slot of the refresh window of a rank in the present frame (R154, R155). -/
def windowOf (s : State) (c rank : Nat) : Option Nat :=
  ((List.range (ranksOf s c)).find? fun r => roleRank s c r (beat s) == rank).map fun r =>
    roundDown 5 (r * rd s (mcSlotGridSlots c) / ranksOf s c)

/-- A rank whose window of this frame carries a refresh is quiet in that window (R155, R161). -/
def refreshAt (s : State) (c rank slot : Nat) : Bool :=
  (chanOf s c).refreshing.contains rank && (windowOf s c rank).any fun ws =>
    decide (ws ≤ slot) && decide (slot < ws + rd s (mcSlotGridWindow c))

/-! ## Arrival (R147, R149, R158) -/

def queueOf (s : State) (c sub : Nat) : List DReq := tget [] (chanOf s c).queue sub
def rtOf (s : State) (c port : Nat) : List DReq := tget [] (chanOf s c).rt port
def sealedOf (s : State) (c sub t : Nat) : List DReq := tget [] (chanOf s c).sealedQ (sub * 512 + t)
def flightOf (s : State) (c sub : Nat) : List DReq := tget [] (chanOf s c).flight sub

def setQueue (c sub : Nat) (q : List DReq) (s : State) : State :=
  modChan c (fun r => { r with queue := tset [] r.queue sub q }) s
def setRt (c port : Nat) (q : List DReq) (s : State) : State :=
  modChan c (fun r => { r with rt := tset [] r.rt port q }) s
def setSealedQ (c sub t : Nat) (q : List DReq) (s : State) : State :=
  modChan c (fun r => { r with sealedQ := tset [] r.sealedQ (sub * 512 + t) q }) s
def setFlight (c sub : Nat) (q : List DReq) (s : State) : State :=
  modChan c (fun r => { r with flight := tset [] r.flight sub q }) s

def panicLevel (port c : Nat) : Fld := if port = 0 then mcSchedCtrlPanicFab c else mcSchedCtrlPanicCxl c
def panicFlag (port c : Nat) : Fld := if port = 0 then mcRtStatusPanicFab c else mcRtStatusPanicCxl c
def panicCount (port c : Nat) : Fld := if port = 0 then mcRtStatusPanicsFab c else mcRtStatusPanicsCxl c

/-- Enter or leave panic by the buffer's fill (R149). -/
def judgePanic (c port : Nat) (s : State) : State :=
  let n := (rtOf s c port).length
  let lvl := rd s (panicLevel port c)
  if rdB s (panicFlag port c) then
    if n + rd s (mcSchedCtrlHyst c) ≤ lvl then wr (panicFlag port c) 0 s else s
  else if lvl < n then bump (panicCount port c) 1 (wr (panicFlag port c) 1 s) else s

/-- The request belongs in its owner's queue of sealed accesses (R158). -/
def sealedPath (s : State) (c sub : Nat) (q : DReq) : Bool :=
  isSealed s q.tag && ownedSlots s c sub q.tag != 0 && !q.shared

/-- There is room for the request: 8 entries for each enabled slot, 64 entries of a real-time port, 64 reads and 64 writes
(R147, R158). -/
def hasRoom (s : State) (c sub : Nat) (q : DReq) : Bool :=
  if sealedPath s c sub q then decide ((sealedOf s c sub q.tag).length < 8 * ownedSlots s c sub q.tag)
  else if q.cls = 0 then decide ((rtOf s c q.port).length < 64)
  else decide (((queueOf s c sub).filter fun r => r.write == q.write).length < 64)

/-- The write queue has reached wr_high: the subchannel drains its writes (R148). -/
def judgeDrain (c sub : Nat) (s : State) : State :=
  if rd s (mcSchedCtrlWrHigh c) ≤ ((queueOf s c sub).filter (·.write)).length then
    modChan c (fun r => { r with writeDrain := if r.writeDrain.contains sub then r.writeDrain else sub :: r.writeDrain }) s
  else s

/-- The request takes its place in its class: sealed owners in their own queue, the rest shared (R147, R158). -/
def putReq (c sub : Nat) (q : DReq) (s : State) : State :=
  if sealedPath s c sub q then setSealedQ c sub q.tag (sealedOf s c sub q.tag ++ [q]) s
  else if q.cls = 0 then judgePanic c q.port (setRt c q.port (rtOf s c q.port ++ [q]) s)
  else judgeDrain c sub (setQueue c sub (queueOf s c sub ++ [q]) s)

def outsideOf (s : State) (c sub : Nat) : List DReq := tget [] (chanOf s c).outside sub
def setOutside (c sub : Nat) (q : List DReq) (s : State) : State :=
  modChan c (fun r => { r with outside := tset [] r.outside sub q }) s

/-- A request arrives; with its queue full it waits outside. -/
def enqueue (c sub : Nat) (q : DReq) (s : State) : State :=
  let q1 := { q with seq := s.mem.nextReq }
  let s1 := setMem { s.mem with nextReq := s.mem.nextReq + 1 } s
  if hasRoom s c sub q then putReq c sub q1 s1 else setOutside c sub (outsideOf s c sub ++ [q1]) s1

/-- The requests outside that find room enter, oldest first. -/
def admitOutside (c sub : Nat) (s : State) : State :=
  (outsideOf s c sub).foldl (fun a q =>
    if hasRoom a c sub q then putReq c sub q (setOutside c sub ((outsideOf a c sub).erase q) a) else a) s

/-! ## Writes that wait for a line, and the order of one line's requests (log entry 37) -/

/-- The requests that wait on a subchannel of a channel. -/
def waitingAt (s : State) (c sub : Nat) : List DReq :=
  queueOf s c sub ++ rtOf s c 0 ++ rtOf s c 1 ++
    (((chanOf s c).sealedQ.filter fun e => e.1 / 512 == sub).map (·.2)).flatten ++ outsideOf s c sub

/-- Requests for a line on every channel that stores it: those that wait, and the reads in flight. -/
def lineReqs (s : State) (line : Nat) : List DReq :=
  match coord s (line * 64) with
  | some k => (copies s k.chan).flatMap fun c => (waitingAt s c k.sub ++ flightOf s c k.sub).filter fun q => q.line == line
  | none => []

/-- No older request for the line must come first: a write waits for every older one, a read for the older writes. -/
def inOrder (s : State) (q : DReq) : Bool :=
  (lineReqs s q.line).all fun r => !(decide (r.seq < q.seq) && (r.write || q.write))

/-- A write to the line still waits at its channel. -/
def writeWaiting (s : State) (line : Nat) : Bool := (lineReqs s line).any (·.write)

/-- A write that gives the line new data waits; a write-back of symbols (R183) gives it none. -/
def dataWaits (s : State) (line : Nat) : Bool := (lineReqs s line).any fun q => q.write && q.raw.isNone

/-- Perform a write that channel c has issued: the line, or the poison marker, on every copy (R179, R184); symbols written back
on this channel alone (R183, R197). -/
def performWrite (c : Nat) (q : DReq) (s : State) : State :=
  match q.raw, coord s (q.line * 64) with
  | some l, some k => if q.poison then storePoison (nextSlice s) c q.line k s else setLine c q.line l s
  | _, _ => if q.poison then poisonLine (nextSlice s) q.line s else writeLine (nextSlice s) q.line q.tag q.data s

/-- The write queue has fallen to wr_low: the drain ends (R148). -/
def endDrain (c sub : Nat) (s : State) : State :=
  if ((queueOf s c sub).filter (·.write)).length ≤ rd s (mcSchedCtrlWrLow c) then
    modChan c (fun r => { r with writeDrain := r.writeDrain.filter (· != sub) }) s
  else s

/-- Take a waiting request away. -/
def unqueue (c sub : Nat) (q : DReq) (s : State) : State :=
  let s1 := setQueue c sub ((queueOf s c sub).erase q) s
  let s2 := setOutside c sub ((outsideOf s1 c sub).erase q) s1
  let s3 := if sealedPath s c sub q then setSealedQ c sub q.tag ((sealedOf s2 c sub q.tag).erase q) s2 else s2
  if q.cls = 0 then judgePanic c q.port (setRt c q.port ((rtOf s3 c q.port).erase q) s3) else s3

/-- Remove a request from where it waits; one outside takes its place. -/
def dequeue (c sub : Nat) (q : DReq) (s : State) : State := admitOutside c sub (endDrain c sub (unqueue c sub q s))

/-- The write-backs of corrected symbols and markers that wait for a line are dropped: a write to it enters a write queue (R183,
R197). -/
def dropFixes (line : Nat) (s : State) : State :=
  match coord s (line * 64) with
  | some k => (copies s k.chan).foldl (fun a c =>
      ((waitingAt a c k.sub).filter fun q => q.raw.isSome && q.line == line).foldl (fun b q => dequeue c k.sub q b) a) s
  | none => s

/-- Hand read data to the external host of the group that lends the line; a failed check is poison on its link and
enters the device's event log (R284). -/
def deliverLent (q : DReq) (v : Option Nat) (s : State) : State :=
  match s.mem.lent.find? fun e => e.2.1 ≤ q.line * 64 && q.line * 64 < e.2.1 + e.2.2.1 with
  | some (g, base, _, _) =>
    let r := tget {} s.groups g
    let dpa := q.line * 64 - base
    { s with groups := tset {} s.groups g (match v with
        | some d => { r with ans := some ⟨0, putLE [] 0 64 d⟩ }
        | none => { r with ans := some ⟨2, []⟩, events := r.events ++ [⟨r.nextEvent, dpa, beat s⟩], nextEvent := r.nextEvent + 1,
                           poisoned := if r.poisoned.contains dpa then r.poisoned else r.poisoned ++ [dpa] }) }
  | none => s

/-- Data for a reader at the home is kept for it. A younger write of the line that waits makes it old: the reader asks again. -/
def deliverHome (q : DReq) (v : Option Nat) (s : State) : State :=
  let mine := fun (r : HomeRd) => some r.who == q.who && r.line == q.line && r.got.isNone
  setMem { s.mem with reads := if dataWaits s q.line then s.mem.reads.filter (!mine ·)
    else s.mem.reads.map fun r => if mine r then { r with got := some (v.getD 0, v.isNone) } else r } s

/-- Hand read data or poison to where it was asked for; a slice takes it with its fill. -/
def deliver (q : DReq) (v : Option Nat) (s : State) : State :=
  if q.fwd then s
  else if q.dest = 1 then deliverHome q v s
  else if q.dest = 2 then deliverLent q v s
  else setMem { s.mem with arrived := tset none s.mem.arrived q.line (some (q.tag, v.getD 0, v.isNone)) } s

/-- Reads queued on a subchannel. -/
def readsAt (s : State) (c sub : Nat) : Nat := ((queueOf s c sub).filter fun q => !q.write).length

/-- The channel that takes a request: of a mirrored pair, for a shared read the one with fewer queued reads, ties to the lower
(R189), else the lower; the partner where that one is fenced (R420). -/
def takingChan (s : State) (k : Coord) (q : DReq) : Nat :=
  match (copies s k.chan).filter fun x => !partFenced s x k with
  | [a, b] => if q.write = false ∧ sealedPath s a k.sub q = false ∧ readsAt s b k.sub < readsAt s a k.sub then b else a
  | x :: _ => x
  | [] => k.chan

/-- Data read before a write of the line is no longer what the line holds. -/
def forgetReads (line : Nat) (s : State) : State :=
  setMem { s.mem with reads := s.mem.reads.filter fun r => !(r.line == line && r.got.isSome) } s

/-- A checked request enters a queue, or is lost with the part that would serve it (R420). -/
def takeReq (k : Coord) (q : DReq) (s : State) : State :=
  if (copies s k.chan).all fun x => partFenced s x k then
    let s1 := lostLine (nextSlice s) k.chan q.line q.tag s
    if q.write then s1 else deliver q none s1
  else
    let s1 := if q.write then forgetReads q.line (dropFixes q.line s) else s
    enqueue (takingChan s1 k q) k.sub q s1

/-- A request reaches the hub of channel c (R205, R420). -/
def dramRequest (c : Nat) (a : DAcc) (s : State) : State :=
  let off := a.pa % 2 ^ 46
  match coord s off with
  | none => s
  | some k =>
    if (copies s k.chan).contains c then
      if granuleOk s off a.tag a.mgmt then
        takeReq k { line := off / 64, tag := a.tag, write := a.write, data := a.data, cls := if a.removal then 2 else a.cls,
                    port := a.port, dest := a.dest, beatIn := beat s, shared := a.removal } s
      else refuseGranule 3 c a.pa a.tag s
    else s

/-- What a write to a line's home is: a write-back, or a write of a DMA channel or a SerDes port; traffic of a slice removal; another
device's. -/
inductive WrHow where
  | plain | removal | fabric
  deriving DecidableEq, Repr

/-- A write that its owner check has passed: a TC2 request, and TC0 from the fabric ingress port (Table 6.5, R249); of a slice
removal, shared traffic (R130). -/
def dramWrite (how : WrHow) (line tag data : Nat) (poison : Bool) (s : State) : State :=
  match coord s (line * 64) with
  | some k => takeReq k { line := line, tag := tag, write := true, data := data, cls := if how = .fabric then 0 else 2,
                          beatIn := beat s, poison := poison, shared := how == .removal } s
  | none => s

/-- Class of a reader's requests: TC0 of the fabric ingress port for another device, else demand reads (Table 6.5, R249). -/
def Reader.cls : Reader → Nat
  | .tracker .. => 0
  | _ => 1

/-- A reader asks for a line of this device's DRAM. -/
def askRead (w : Reader) (line tag : Nat) (s : State) : State :=
  match coord s (line * 64) with
  | some k => takeReq k { line := line, tag := tag, write := false, cls := w.cls, dest := 1, who := some w, beatIn := beat s }
      (setMem { s.mem with reads := s.mem.reads ++ [⟨w, line, tag, none⟩] } s)
  | none => s

/-! ## Page predictor (R150 to R152) -/

def bankOf (s : State) (c b : Nat) : BankPred := tget {} (chanOf s c).banks b
def setBank (c b : Nat) (p : BankPred) (s : State) : State :=
  modChan c (fun r => { r with banks := tset {} r.banks b p }) s

/-- Counter h of a bank's table; 0b01 when cold. -/
def ctrOf (p : BankPred) (h : Nat) : Nat := tget 0 p.ctr h ^^^ 1

/-- R150 on a shared access to a row. -/
def predict (row : Nat) (p : BankPred) : BankPred :=
  let hit := p.last == some row
  let ctr := if 1 ≤ p.count then
      tset 0 p.ctr p.used ((if hit then min 3 (ctrOf p p.used + 1) else ctrOf p p.used - 1) ^^^ 1)
    else p.ctr
  let hist := (p.hist * 2 + hit.toNat) % 16
  let count := min 64 (p.count + 1)
  let p1 : BankPred := { p with ctr := ctr, hist := hist, last := some row, count := count, used := hist }
  { p1 with opened := if count = 64 ∧ 2 ≤ ctrOf p1 hist then some row else none }

/-- A shared access: the statistics and the predictor of its bank (R150, Table 6.8). -/
def sharedAccess (c : Nat) (k : Coord) (s : State) : State :=
  let p := bankOf s c (bankKey k)
  let s1 := if p.opened = some (rowKey k) then bump (mcPredStatsHits c) 1 s else bump (mcPredStatsMisses c) 1 s
  setBank c (bankKey k) (predict (rowKey k) p) s1

/-- A request's shared access to its line's bank on channel c, and for a write and a range scrub on its partner too, which performs it
as well (R150, R189, R197); a sealed access leaves the predictor alone (R151). -/
def accessLine (c : Nat) (q : DReq) (s : State) : State :=
  match coord s (q.line * 64) with
  | some k =>
    if sealedPath s c k.sub q then s
    else (if (q.write && q.raw.isNone) || q.dest == 4 then copies s k.chan else [c]).foldl (fun a x => sharedAccess x k a) s
  | none => s

/-- Close the open rows of a rank on a subchannel (R152, R156, R161). -/
def closeRank (c sub rank : Nat) (s : State) : State :=
  modChan c (fun r => { r with banks := r.banks.map fun (b, p) =>
    if b / 128 = sub * 2 + rank then (b, { p with opened := none }) else (b, p) }) s

/-- Close the open rows of a rank on both subchannels. -/
def closeBoth (c rank : Nat) (s : State) : State := closeRank c 0 rank (closeRank c 1 rank s)

/-- A refresh window of this frame that has begun closes its rank's rows (R152). -/
def closeWindows (c slot : Nat) (s : State) : State :=
  ((chanOf s c).refreshing.filter fun r => !(chanOf s c).closed.contains r && (windowOf s c r).any (decide <| · ≤ slot)).foldl
    (fun a r => modChan c (fun x => { x with closed := r :: x.closed }) (closeBoth c r a)) s

/-! ## The retry buffer (R167) -/

/-- Keep a command in the 64-entry retry buffer (R167). -/
def keepRetry (c sub : Nat) (q : DReq) (s : State) : State :=
  modChan c (fun r =>
    let l := tget [] r.retry sub ++ [q]
    { r with retry := tset [] r.retry sub (l.drop (l.length - 64)) }) s

/-- Every copy of a command leaves the retry buffer. -/
def dropRetry (c sub : Nat) (q : DReq) (s : State) : State :=
  modChan c (fun r => { r with retry := tset [] r.retry sub ((tget [] r.retry sub).filter fun x => x.seq != q.seq || x.write != q.write) }) s

/-- The copies of a command whose data has been forwarded leave the retry buffer. -/
def dropForwarded (c sub : Nat) (q : DReq) (s : State) : State :=
  modChan c (fun r => { r with retry := tset [] r.retry sub ((tget [] r.retry sub).filter fun x =>
    x.seq != q.seq || x.write != q.write || !x.fwd) }) s

/-- Another command brings a read's data: its own is forwarded no more, and it stays in the buffer (R168, R170). -/
def markForwarded (c sub : Nat) (q : DReq) (s : State) : State :=
  modChan c (fun r => { r with retry := tset [] r.retry sub ((tget [] r.retry sub).map fun x =>
    if x.seq = q.seq ∧ x.write = q.write then { x with fwd := true } else x) }) s

/-- The next command of a subchannel takes an armed injection with it, the next write one on its CRC (MC_INJECT, Table 6.8). -/
def useInjection (c sub : Nat) (write : Bool) (s : State) : State :=
  modChan c (fun r => { r with
    injCa := if r.injCa = some sub then none else r.injCa
    injCrc := if write ∧ r.injCrc = some sub then none else r.injCrc }) s

/-- A read that a channel issues and that passes its checks at once goes through its retry buffer. -/
def passRead (c line : Nat) (s : State) : State :=
  match coord s (line * 64) with
  | some k =>
    let q : DReq := { line := line, tag := 0, write := false, cls := 3, seq := s.mem.nextReq }
    dropRetry c k.sub q (keepRetry c k.sub q (useInjection c k.sub false (setMem { s.mem with nextReq := s.mem.nextReq + 1 } s)))
  | none => s

/-- The same on every channel that stores the line. -/
def passReads (line : Nat) (s : State) : State :=
  match coord s (line * 64) with
  | some k => (copies s k.chan).foldl (fun a c => passRead c line a) s
  | none => s

/-- A write goes into the retry buffer of every channel that performs it. -/
def keepWrite (c sub : Nat) (q : DReq) (s : State) : State :=
  match coord s (q.line * 64) with
  | some k => (if q.raw.isSome then [c] else copies s k.chan).foldl (fun a x => keepRetry x sub q a) s
  | none => keepRetry c sub q s

/-! ## Write-backs of symbols, and reads of stored lines -/

/-- A write-back of symbols to channel c is not queued: a write of the line has entered a write queue first, one of symbols waits at
the channel already, or the part that holds the line is fenced there (R183, R190, R197). -/
def fixBarred (s : State) (c line : Nat) (k : Coord) : Bool :=
  dataWaits s line || ((waitingAt s c k.sub).any fun q => q.raw.isSome && q.line == line) ||
    partFenced s c k

/-- A write-back of symbols to one channel: a TC2 write of that channel (R183, R197), one for a line. -/
def fixWrite (c line : Nat) (l : DLine) (s : State) : State :=
  match coord s (line * 64) with
  | some k =>
    if fixBarred s c line k then s
    else enqueue c k.sub { line := line, tag := l.tag, write := true, cls := 2, beatIn := beat s, raw := some l, shared := true } s
  | none => s

/-- The poison marker as such a write (R197). -/
def fixPoison (c line : Nat) (s : State) : State :=
  match coord s (line * 64) with
  | some k =>
    if fixBarred s c line k then s
    else enqueue c k.sub { line := line, tag := 0, write := true, cls := 2, beatIn := beat s, poison := true,
                           raw := some DLine.marker, shared := true } s
  | none => s

/-- What a delivered outcome leaves behind (R181, R183, R186, R193); the corrected symbols are written back as a TC2 write. -/
def afterRead (sl c line tag : Nat) (k : Coord) (o : ROut) (s : State) : State :=
  match o with
  | .clean | .rebuilt => s
  | .corrected d => fixWrite c line { lineAt s c line with err := [] } (countCorrection sl c line d k s)
  | .corrPoison d => readRecord sl c line tag 0x0304 (fixWrite c line DLine.marker (countCorrection sl c line d k s))
  | .stored => readRecord sl c line tag 0x0304 (eccLast c line 0xF 4 k s)
  | .integrity =>
    readRecord sl c line tag 0x0303 (eccLast c line 0xF 3 k (bump (mcEccCountIntegrity c) 1 s))
  | .uncorr =>
    listRow c k (readRecord sl c line tag 0x0302 (eccLast c line 0xF 2 k (bump (mcEccCountUncorrectable c) 1 s)))

/-- The two rereads of a line that a channel finds bad (R170). -/
def rereads (c : Nat) (o : ROut) (s : State) : State := if o.bad then bump (mcRetryRereads c) 2 s else s

/-- A queued read whose channel stops under it, by a fence or for self-refresh (R170, R180 to R189): the channel, then its mirror
partner, then the rereads of both, which find what is stored. -/
def readLine (sl line tag : Nat) (s : State) : State × Option Nat :=
  match coord s (line * 64) with
  | none => (s, none)
  | some k =>
    let live := (copies s k.chan).filter fun c => !partFenced s c k
    let out := fun c => checkLine s.mem.keys tag (lineAt s c line) (sparedDev s c k.rank k.sub) (lineAt s c line).err
    match live with
    | [] => (lostLine sl k.chan line tag s, none)
    | c :: rest =>
      let o := out c
      if o.bad then
        match rest with
        | p :: _ =>
          let o2 := out p
          match delivered (lineAt s p line) o2 with
          | some v => (fixWrite c line { lineAt s p line with err := [] }
              (bump (mcMirrorPartnerReads c) 1 (afterRead sl p line tag k o2 s)), some v)
          | none => (afterRead sl c line tag k o (rereads c o (rereads p o2 s)), none)
        | [] => (afterRead sl c line tag k o (rereads c o s), none)
      else (afterRead sl c line tag k o s, delivered (lineAt s c line) o)

/-- A scrub's judgement of a channel's copy of a line (R197): 0 clean, 1 corrected, 2 corrected by no loaded key, 3 the marker. -/
def scrubJudge (s : State) (line : Nat) (k : Coord) (c : Nat) : Nat :=
  let l := lineAt s c line
  if syndrome l.err = 0 ∨ (sparedDev s c k.rank k.sub).isSome then (if l.poison then 3 else 0)
  else match checkLine s.mem.keys l.tag l none l.err with
    | .corrected _ | .corrPoison _ => 1
    | _ => 2

/-- What a correction by a scrub leaves: its count, and the line to be written back. -/
def scrubCount (sl c line : Nat) (k : Coord) (s : State) : State :=
  match checkLine s.mem.keys (lineAt s c line).tag (lineAt s c line) none (lineAt s c line).err with
  | .corrected d | .corrPoison d => countCorrection sl c line d k s
  | _ => s

/-- A scrub's treatment of a line on these of its channels (R197): 0 clean, 1 corrected, 2 poison written, 3 marker found. A
write-back and a marker are TC2 writes, and act at once where a repair rewrites the row (`now`). -/
def scrubCopies (chs : List Nat) (now : Bool) (sl line : Nat) (s : State) : State × Nat :=
  match coord s (line * 64) with
  | none => (s, 0)
  | some k =>
    let live := (copies s k.chan).filter fun c => !partFenced s c k
    let put := fun c l (a : State) => if now then setLine c line l (dropFixes line a) else fixWrite c line l a
    let mark := fun c (a : State) => if now then storePoison sl c line k (dropFixes line a) else fixPoison c line a
    let good := live.find? fun c => scrubJudge s line k c != 2
    (live.filter chs.contains).foldl (fun (a : State × Nat) c =>
      match scrubJudge s line k c with
      | 0 => a
      | 3 => (a.1, max a.2 (if a.2 = 0 then 3 else a.2))
      | 1 => (put c { lineAt s c line with err := [] } (scrubCount sl c line k a.1), 1)
      | _ => match good with
        | some p => (put c { lineAt s p line with err := [] } a.1, 1)
        | none => (listRow c k (live.foldl (fun b x => mark x b) a.1), 2)) (s, 0)

/-- A scrub's treatment of a line on every channel that stores it. -/
def scrubLine (sl line : Nat) (s : State) : State × Nat :=
  match coord s (line * 64) with
  | none => (s, 0)
  | some k => scrubCopies (copies s k.chan) false sl line s

/-! ## Catch-ups (R163, R164) -/

/-- One slot in ps, at least. -/
def slotPs (s : State) (c : Nat) : Nat := 16000000 / max 1 (rd s (mcDimmSpeed c))

/-- ps from the start of a catch-up to a slot of the present frame. -/
def catchPs (s : State) (c slot : Nat) (u : CatchUp) : Nat :=
  (beat s - u.start) * 1000000 + slot * 16000000 / max 1 (rd s (mcDimmSpeed c))

/-- ps from a catch-up's start to its first refresh: t_quiet and a precharge, and the delay it has suffered (R163, R164). -/
def catchLead (s : State) (c : Nat) (u : CatchUp) : Nat :=
  match (chanOf s c).dimm with
  | some d => max d.tRAS (d.tCWL + slotPs s c + d.tWR) + d.tRP + u.used
  | none => u.used

def tRfcOf (s : State) (c : Nat) : Nat := max 1 (((chanOf s c).dimm.map (·.tRFC)).getD 1)

/-- Refreshes of a catch-up that have ended t ps after its start. -/
def catchDone (s : State) (c t : Nat) (u : CatchUp) : Nat :=
  if t < catchLead s c u then 0 else min u.total ((t - catchLead s c u) / tRfcOf s c)

/-- The next refresh of the catch-up is due at this slot, and a real-time request in panic may still delay it: 64 ns at most
between two refreshes. The requests of one gap follow each other (log entry 37). -/
def catchGap (s : State) (c slot : Nat) (u : CatchUp) : Bool :=
  let t := catchPs s c slot u
  let i := catchDone s c t u
  decide (1 ≤ i) && decide (i < u.total) && decide (t < catchLead s c u + i * tRfcOf s c + slotPs s c) &&
    decide ((if u.gap = i then u.gapPs else 0) + slotPs s c ≤ 64000)

/-- The rank is open to a request: no catch-up runs on it, or one that admits a real-time request in panic now. -/
def catchAdmits (s : State) (c rank slot : Nat) (panic : Bool) : Bool :=
  match tget none (chanOf s c).catchUps rank with
  | none => true
  | some u => panic && catchGap s c slot u

/-- A request served during a catch-up delays it by a slot; the rows of an earlier gap have been closed by the refresh. -/
def catchDelay (c rank slot : Nat) (s : State) : State :=
  match tget none (chanOf s c).catchUps rank with
  | none => s
  | some u =>
    let i := catchDone s c (catchPs s c slot u) u
    let u1 := { u with used := u.used + slotPs s c, gap := i, gapPs := (if u.gap = i then u.gapPs else 0) + slotPs s c }
    modChan c (fun r => { r with catchUps := tset none r.catchUps rank (some u1) }) (if u.gap = i then s else closeBoth c rank s)

/-! ## Rekey sweep, one line (R213) -/

/-- Line number of the n-th line of the tenancy's granules, in address order. -/
def sweepLine (s : State) (t n : Nat) : Option Nat :=
  match (tenantOf s t).sweep with
  | some w => (w.gs[n / 32768]?).map fun g => g * 32768 + n % 32768
  | none => none

/-- The channel that serves a line's sweep: the first that stores it on a part in service (R189, R190). -/
def sweepChan (s : State) (k : Coord) : Option Nat := (copies s k.chan).find? fun c => !partFenced s c k

/-- A stored line passes its check under tenancy t. -/
def readableLine (s : State) (t c line : Nat) (k : Coord) : Bool :=
  match checkLine s.mem.keys t (lineAt s c line) (sparedDev s c k.rank k.sub) (lineAt s c line).err with
  | .clean | .rebuilt | .corrected _ => true
  | _ => false

/-- Re-encode a line under the current keys on every channel that stores it: shared traffic but for a sealed tenancy, whose own slots
carry it (R150, R151, R213). -/
def rekeyWrite (t line : Nat) (l : DLine) (k : Coord) (s : State) : State :=
  let q : DReq := { line := line, tag := t, write := true, data := l.data, cls := 3, seq := s.mem.nextReq }
  (copies s k.chan).foldl (fun a c => setLine c line l (useInjection c k.sub true a))
    (keepWrite k.chan k.sub q (setMem { s.mem with nextReq := s.mem.nextReq + 1 } (accessLine k.chan q (dropFixes line s))))

/-- Treat the next line of tenancy t's sweep (R213): a line that no channel serves is counted as failed (DESIGN CHOICE, log
entry 42), one of a mirrored pair is read on the second channel where the first does not pass. -/
def rekeyLine (t : Nat) (s : State) : State :=
  let r := tenantOf s t
  match r.sweep with
  | none => s
  | some w =>
    match sweepLine s t w.next with
    | none => s
    | some line =>
      let w1 : Sweep := { w with next := w.next + 1, swept := w.swept + 1, since := beat s }
      let count := fun (failed : Bool) => setTenant t { r with sweep := some { w1 with failed := w.failed + failed.toNat } } s
      match coord s (line * 64) with
      | none => count true
      | some k =>
        let live := (copies s k.chan).filter fun c => !partFenced s c k
        match (live.find? fun c => readableLine s t c line k).or live.head? with
        | none => count true
        | some c =>
          let cur := (keyEnt s t).cur.getD 0
          let l := lineAt s c line
          let keep := l.poison || l.gen == cur
          let ok := readableLine s t c line k && l.gen == w.old
          let s1 := passRead c line (count (!keep && !ok))
          if !keep && ok && !writeWaiting s line then
            rekeyWrite t line { tag := t, gen := cur, key := (keyGen (keyEnt s t) cur).getD 0, data := l.data } k s1
          else s1

/-- The next line of tenancy t's sweep lies on this channel, subchannel and rank. -/
def sweepOn (s : State) (t c sub rank : Nat) : Bool :=
  match (tenantOf s t).sweep with
  | some w => (sweepLine s t w.next).any fun line => (coord s (line * 64)).any fun k =>
      sweepChan s k == some c && k.sub == sub && k.rank == rank
  | none => false

/-- The next line of tenancy t's sweep, if it lies on this channel, and the beat from which it waits. -/
def sweepNext (s : State) (t c : Nat) : Option (Nat × Nat × Nat) :=
  match (tenantOf s t).sweep with
  | some w => match sweepLine s t w.next with
    | some line => if (coord s (line * 64)).any (fun k => sweepChan s k == some c) then some (t, line, w.since) else none
    | none => none
  | none => none

/-- A tenancy whose next sweep line no channel serves: it is passed over. -/
def sweepSkip (s : State) : Option Nat :=
  (s.tenants.map (·.1)).find? fun t => match (tenantOf s t).sweep with
    | some w => (sweepLine s t w.next).any fun line => (coord s (line * 64)).all fun k => (sweepChan s k).isNone
    | none => false

/-- An open tenancy's next sweep line on this channel (R213). -/
def sweepHere (s : State) (c : Nat) : Option (Nat × Nat × Nat) :=
  (s.tenants.map (·.1)).findSome? fun t => if isSealed s t then none else sweepNext s t c

/-! ## Patrol (R198) -/

/-- Lines of a channel's installed capacity (R195). -/
def chanLines (s : State) (c : Nat) : Nat := rd s (mcDimmCapacityGb c) * 2 ^ 24

/-- Line number of line n mod 64 of block b of a channel (R23), going through the ranges. -/
def patrolIn (c b l : Nat) : List MapRange → Option Nat
  | [] => none
  | q :: rest =>
    if b < blocksOn q c then
      some ((q.base + (b * q.members.length + (q.members.findIdx? (· == c)).getD 0) * 4096) / 64 + l)
    else patrolIn c (b - blocksOn q c) l rest

/-- The n-th line the map places on a subchannel; lines beyond the map hold the fill. The upper channel of a mirrored pair stores
the lines of the lower (R188). -/
def patrolLine (s : State) (c sub n : Nat) : Option Nat :=
  patrolIn (if mirrored s c then c / 2 * 2 else c) (2 * (n / 64) + sub) (n % 64) s.mem.map

/-- Lines of a subchannel's installed capacity. -/
def subLines (s : State) (c : Nat) : Nat := chanLines s c / 2

/-- The patrol reads a subchannel's next line and treats the channel's copy as R197 states. -/
def patrolRead (c sub : Nat) (s : State) : State :=
  let r := chanOf s c
  let pos := tget 0 r.patrolPos sub
  let s1 := setChan c { r with patrolAt := tset 0 r.patrolAt sub (tget 0 r.patrolAt sub + 1),
                               patrolPos := tset 0 r.patrolPos sub ((pos + 1) % max 1 (subLines s c)) } s
  match patrolLine s c sub pos with
  | some line => (scrubCopies [c] false (nextSlice s) line (passRead c line s1)).1
  | none => s1

/-- Every line of the channel has been read since the latest trigger; a fenced subchannel has none to read. -/
def lapCovered (s : State) (c : Nat) : Bool :=
  [0, 1].all fun b => (chanOf s c).fencedSubs.contains b || decide (subLines s c ≤ tget 0 (chanOf s c).patrolAt b)

/-! ## Range scrub (R196, R197) -/

/-- The running range scrub's next line lies on this channel. -/
def scrubHere (s : State) (c : Nat) : Option (Nat × Scrub) :=
  match s.mem.scrub with
  | some w =>
    if w.next < w.size / 64 then
      let line := w.base / 64 + w.next
      if (coord s (line * 64)).any (fun k => (copies s k.chan).contains c) then some (line, w) else none
    else none
  | none => none

/-- Read and treat the next line of the range scrub. -/
def scrubNext (c line : Nat) (w : Scrub) (s : State) : State :=
  let (s1, o) := scrubLine (nextSlice s) line (passReads line s)
  let on := match coord s (line * 64) with
    | some k => copies s k.chan
    | none => [c]
  on.foldl (fun a x => bump (mcScrubLinesDone x) 1 a) (setMem { s1.mem with scrub := some { w with
    next := w.next + 1, lines := w.lines + 1, since := beat s,
    corr := w.corr + (if o = 1 then 1 else 0), poisoned := w.poisoned + (if o = 2 then 1 else 0),
    found := w.found + (if o = 3 then 1 else 0) } } s1)

/-! ## Choice of the next shared request (R148) -/

/-- The slot and the request's rank are free for it: no owned block, claim or refresh, no catch-up that does not let it through, and
its line's older requests served (R148, R159, R164). -/
def rankFree (s : State) (c sub slot : Nat) (panic : Bool) (q : DReq) : Bool :=
  match coord s (q.line * 64) with
  | none => false
  | some k => k.sub == sub && !sealedSlot s c sub slot && !claimedAt s c sub k.rank slot && !refreshAt s c k.rank slot &&
      catchAdmits s c k.rank slot panic && !(chanOf s c).fencedRanks.contains k.rank && !underRepair s c sub k.rank && inOrder s q

/-- The request hits the open row of its bank. -/
def pageHit (s : State) (c : Nat) (q : DReq) : Bool :=
  match coord s (q.line * 64) with
  | none => false
  | some k => (bankOf s c (bankKey k)).opened == some (rowKey k)

/-- The oldest: by the beat of arrival, then by the order of arrival, then by place. -/
def oldest : List DReq → Option DReq
  | [] => none
  | q :: r => match oldest r with
    | some p => if p.beatIn < q.beatIn ∨ (p.beatIn = q.beatIn ∧ p.seq < q.seq) then some p else some q
    | none => some q

/-- Within a class page hits come first, then the oldest; a reread stands at the head of the queue (R148, R170). -/
def firstOf (s : State) (c : Nat) (l : List DReq) : Option DReq :=
  ((l.find? fun q => q.reread != 0).or (oldest (l.filter (pageHit s c)))).or (oldest l)

/-- The next line of a rekey sweep of an open tenancy, or else of the range scrub, that lies on this channel: a TC3 request
that has waited since the line before it was served (R196, R213). -/
def backLines (s : State) (c : Nat) : List DReq :=
  (match sweepHere s c with
   | some (t, line, since) => [{ line := line, tag := t, write := false, cls := 3, dest := 5, beatIn := since }]
   | none => []) ++
  (match scrubHere s c with
   | some (line, w) => [{ line := line, tag := 0, write := false, cls := 3, dest := 4, beatIn := w.since }]
   | none => [])

/-- TC3 may have this slot: no TC1 or TC2 request waits, or nine slots have passed since its last. -/
def backTurn (s : State) (c sub : Nat) : Bool :=
  ((queueOf s c sub).all fun q => q.cls != 1 && q.cls != 2) || decide (9 ≤ tget 0 (chanOf s c).tc3Gap sub)

/-- The shared request served at this opportunity, in the order of R148. -/
def pickShared (s : State) (c sub slot : Nat) : Option DReq :=
  let q := (queueOf s c sub ++ backLines s c).filter fun r => rankFree s c sub slot false r && (r.cls != 3 || backTurn s c sub)
  let rtAll := rtOf s c 0 ++ rtOf s c 1
  let panicked := rtAll.filter fun r => rdB s (panicFlag r.port c) && rankFree s c sub slot true r
  let calm := rtAll.filter fun r => !rdB s (panicFlag r.port c) && rankFree s c sub slot false r
  let old := (q ++ calm).filter fun r => decide (r.beatIn + rd s (mcSchedCtrlAgeCap c) < beat s)
  let tc := fun n => q.filter fun r => r.cls == n
  let drain := (chanOf s c).writeDrain.contains sub
  (oldest panicked).or ((oldest old).or
    ((if drain then firstOf s c (tc 2) else none).or
      ((firstOf s c (tc 1)).or ((firstOf s c calm).or ((firstOf s c (tc 2)).or (firstOf s c (tc 3)))))))

/-- Send a command: an armed injection is used up (R173), a read goes in flight, a write is stored. -/
def issue (c sub : Nat) (q : DReq) (s : State) : State :=
  let s0 := useInjection c sub q.write s
  if q.write then performWrite c q (keepWrite c sub q s0)
  else
    let s1 := keepRetry c sub q s0
    setFlight c sub (flightOf s1 c sub ++ [q]) s1

/-! ## A command opportunity -/

/-- A slot that carries nothing else, for the patrol (R198): no queued shared request, no enabled data slot of an owned block,
no claim, no refresh and no catch-up. -/
def slotIdle (s : State) (c sub slot : Nat) : Bool :=
  (queueOf s c sub).isEmpty && !((rtOf s c 0 ++ rtOf s c 1).any fun q => (coord s (q.line * 64)).any fun k => k.sub == sub) &&
    !sealedSlot s c sub slot &&
    (List.range (ranksOf s c)).all fun r => !claimedAt s c sub r slot && !refreshAt s c r slot && !catchingUp s c r &&
      !underRepair s c sub r

/-- The patrol's turn in an idle slot of a subchannel: a TC3 read of its next line there. -/
def patrolTurn (c sub : Nat) (s : State) : State :=
  match patrolLine s c sub (tget 0 (chanOf s c).patrolPos sub) with
  | some line => patrolRead c sub (accessLine c { line := line, tag := 0, write := false, cls := 3 } s)
  | none => patrolRead c sub s

/-- A line of the range scrub that lies on no channel, or on fenced parts alone, is passed over: no opportunity serves it, and its
read would return poison (R420). -/
def scrubSkip (s : State) : Option (Nat × Scrub) :=
  match s.mem.scrub with
  | some w =>
    let gone := match coord s (w.base + w.next * 64) with
      | some k => (copies s k.chan).all fun c => partFenced s c k
      | none => true
    if (decide (w.next < w.size / 64) && gone) then some (w.base / 64 + w.next, w) else none
  | none => none

/-- Serve a request: a catch-up it delays, whose refresh has closed the rows of an earlier gap, its bank's predictor, and what it is
for. -/
def serve (c sub slot : Nat) (k : Coord) (q : DReq) (s : State) : State :=
  let s1 := accessLine c q (catchDelay c k.rank slot s)
  if q.dest = 5 then rekeyLine q.tag s1
  else if q.dest = 4 then (match s1.mem.scrub with
    | some w => scrubNext c q.line w s1
    | none => s1)
  else issue c sub q (dequeue c sub q s1)

/-- R148 to R152, R196, R198, R213: rows that a refresh closes, then the next shared request, else a patrol line. -/
def commandOpportunity (c sub slot : Nat) (s : State) : State :=
  if rd s (mcStatusState c) ≠ 3 ∨ recovering s c sub ∨ (chanOf s c).stopped.contains sub
     ∨ (chanOf s c).fencedSubs.contains sub then s
  else
    let s0 := closeWindows c slot s
    let gap := fun (back : Bool) (a : State) => modChan c (fun r => { r with
      tc3Gap := tset 0 r.tc3Gap sub (if back then 0 else tget 0 r.tc3Gap sub + 1) }) a
    match pickShared s0 c sub slot with
    | some q =>
      match coord s0 (q.line * 64) with
      | some k => gap (q.cls == 3) (serve c sub slot k q s0)
      | none => s0
    | none =>
      match scrubSkip s0, sweepSkip s0 with
      | some (line, w), _ => scrubNext c line w s0
      | none, some t => rekeyLine t s0
      | none, none => gap false (if rdB s0 (mcPatrolRunning c) ∧ slotIdle s0 c sub slot then patrolTurn c sub s0 else s0)

/-! ## Sealed selection (R158, R164, R166) -/

/-- A block of a mirrored pair is lost once, on both channels (R166): the owner's count and its notices take it from the lower one while
that is in service. -/
def countsLoss (s : State) (c : Nat) : Bool :=
  !(mirrored s c && c % 2 == 1 && rd s (mcStatusState (rd s (mcMirrorPartner c))) == 3)

/-- Slots lost in frame f are added to their owner's count at the boundary after it; the controller's own count and the beat of the
last loss stand at once (R166). -/
def noteLoss (c t n f : Nat) (s : State) : State :=
  modChan c (fun r => { r with lostDue := if countsLoss s c then r.lostDue ++ [(f, t, n)] else r.lostDue })
    (wr (mcLostLastBeat c) (f % 2 ^ 32) (bump (mcLostLostSlots c) n s))

/-- Losses of the event running on a subchannel and rank, a catch-up or a recovery, in frame f: one entry a tenancy (R166). -/
def addLoss (isCatch : Bool) (c t sub rank n f : Nat) (s : State) : State :=
  let known := fun (l : Loss) => l.catchUp == isCatch && l.ten == t && l.sub == sub && l.rank == rank
  modChan c (fun r => { r with losses :=
    if (!countsLoss s c) then r.losses
    else if (r.losses.any known) then r.losses.map fun l => if (known l) then { l with last := f, count := l.count + n } else l
    else r.losses ++ [⟨isCatch, t, sub, rank, f, f, n⟩] }) (noteLoss c t n f s)

/-- The slots lost in frames that have ended are added to their owners' counts, of 64 bits (R166, Table 8.25). -/
def addLost (c : Nat) (s : State) : State :=
  ((chanOf s c).lostDue.filter fun e => decide (e.1 < beat s)).foldl (fun a (_, t, n) =>
      let ten := tenantOf a t
      setTenant t { ten with lost := min (2 ^ 64 - 1) (ten.lost + n) } a)
    (modChan c (fun r => { r with lostDue := r.lostDue.filter fun e => !decide (e.1 < beat s) }) s)

/-- The subchannel or rank is fenced on channel c, or all of the channel is. -/
def fencedAt (s : State) (c sub rank : Nat) : Bool :=
  rd s (mcStatusState c) == 5 || (chanOf s c).fencedSubs.contains sub || (chanOf s c).fencedRanks.contains rank

/-- The claim of block n in frame f, at whose selection point the state is s, meets a catch-up of its rank: one that runs, one
that ended after the claim began, or one that starts at the next boundary, which the claim reaches (R164). -/
def meetsCatchUp (s : State) (c n f rank : Nat) : Bool :=
  catchingUp s c rank || (tget none (chanOf s c).catchPast rank).any (decide <| claimFrom s c n f < ·) ||
    (decide ((beat s + 1) * rd s (mcSlotGridSlots c) ≤ claimTo s c n f) && (chanOf s c).catchDue.contains rank)

/-- The claim meets a recovery on its subchannel, one that runs or one that ended after the claim began (R169). -/
def meetsRecovery (s : State) (c n f : Nat) : Bool :=
  recovering s c (n / 32) || (tget none (chanOf s c).recovPast (n / 32)).any (decide <| claimFrom s c n f < ·)

/-- The event on a block is met by the other channel of a mirrored pair (R189, R190). -/
def partnerServes (s : State) (c sub rank : Nat) : Bool :=
  mirrored s c && (let p := rd s (mcMirrorPartner c)
    !catchingUp s p rank && !recovering s p sub && rd s (mcStatusState p) == 3 && !fencedAt s p sub rank)

/-- The partner of a mirrored pair serves the block alone: neither event meets its claim there (R189). -/
def partnerTakes (s : State) (c n f rank : Nat) : Bool :=
  let p := rd s (mcMirrorPartner c)
  partnerServes s c (n / 32) rank && !meetsCatchUp s p n f rank && !meetsRecovery s p n f

/-- Greedy choice of at most n accesses of distinct bank groups and one direction, oldest first. -/
def chooseSealed (s : State) (dir : Bool) : Nat → List Nat → List DReq → List DReq
  | 0, _, _ => []
  | _, _, [] => []
  | n + 1, used, q :: r =>
    match coord s (q.line * 64) with
    | some k =>
      if q.write = dir ∧ ¬ used.contains k.bg then q :: chooseSealed s dir n (k.bg :: used) r
      else chooseSealed s dir (n + 1) used r
    | none => chooseSealed s dir (n + 1) used r

/-- The frame a block's selection or claim belongs to when it starts in the present frame (R155, R158). -/
def blockFrame (s : State) (c n lead : Nat) : Nat :=
  if rd s (mcSealBlockPosition c n) < lead then beat s + 1 else beat s

/-- A chosen access is performed by both channels of a mirrored pair in the same block, or by the partner alone where an event meets the
claim on this one (R189). -/
def issueSealed (c n f rank : Nat) (q : DReq) (s : State) : State :=
  let p := rd s (mcMirrorPartner c)
  let here := !meetsCatchUp s c n f rank && !meetsRecovery s c n f && !fencedAt s c (n / 32) rank
  if q.write || !partnerTakes s c n f rank then issue c (n / 32) q s
  else if here then issue p (n / 32) { q with twin := true } (issue c (n / 32) q s)
  else issue p (n / 32) q s

/-- At a block's selection point. -/
def sealedSelection (c n : Nat) (s : State) : State :=
  let t := rd s (mcSealBlockOwner c n)
  let sub := n / 32
  let f := blockFrame s c n (selSlots s c)
  if rdB s (mcSealBlockValid c n) = false ∨ t = 0 ∨ (rd s (mcStatusState c) ≠ 3 ∧ rd s (mcStatusState c) ≠ 5)
     ∨ f < (chanOf s c).wholeFrom then s
  else
    let rank := roleRank s c (rd s (mcSealBlockRole c n)) f
    let slots := slotCountOf (rd s (mcSealBlockSlotEn c n))
    if fencedAt s c sub rank && !partnerServes s c sub rank then noteLoss c t slots f s
    else if meetsCatchUp s c n f rank && !partnerTakes s c n f rank then addLoss true c t sub rank slots f s
    else if meetsRecovery s c n f && !partnerTakes s c n f rank then addLoss false c t sub rank slots f s
    else
      let elig := (sealedOf s c sub t).filter fun q => inOrder s q && (coord s (q.line * 64)).any fun k => k.rank == rank
      let chosen := match elig with
        | [] => []
        | q :: _ => chooseSealed s q.write slots [] elig
      let s1 := admitOutside c sub (chosen.foldl (fun a q =>
        issueSealed c n f rank { q with block := some (n + 64 * f) } (setSealedQ c sub t ((sealedOf a c sub t).erase q) a))
        (modChan c (fun r => { r with chosen := (r.chosen.filter fun b => decide (beat s ≤ b.frame + 1)) ++ [⟨n, f, t, slots⟩] }) s))
      if chosen.length < slots ∧ sweepOn s t c sub rank then rekeyLine t s1 else s1

/-! ## Read returns (R167, R170, R180 to R189) -/

/-- The phase detector finds the preamble of a burst late or early at these devices: their nibbles' read delays move by one step in
the rank's next refresh window (R146). DESIGN CHOICE (log entry 37): of several reports for a nibble before that window, the last one
decides. -/
def trackRead (c : Nat) (k : Coord) (phases : List (Nat × Bool)) (s : State) : State :=
  phases.foldl (fun a (d, late) =>
    if 10 ≤ d then a
    else modChan c (fun r => { r with rdDue := tset 0 r.rdDue (k.rank * 20 + k.sub * 10 + d) (if late then 1 else 2) }) a) s

/-- The moves due on a rank, in its window: one step each. A step past 127 or below 0 goes round (log entry 37). -/
def moveDelays (c rank : Nat) (s : State) : State :=
  (List.range 20).foldl (fun a i =>
    let n := rank * 20 + i
    match tget 0 (chanOf a c).rdDue n with
    | 0 => a
    | v => wr (mcNibbleRdDelay c n) ((rd a (mcNibbleRdDelay c n) + if v = 1 then 1 else 127) % 128)
        (modChan c (fun r => { r with rdDue := tset 0 r.rdDue n 0 }) a)) s

/-- What a read of the partner's copy gives (R189). -/
def partnerOut (s : State) (c : Nat) (k : Coord) (q : DReq) : ROut :=
  let p := rd s (mcMirrorPartner c)
  checkLine s.mem.keys q.tag (lineAt s p q.line) (sparedDev s p k.rank k.sub) (lineAt s p q.line).err

/-- The partner, which has performed a sealed access in the same block, gives its data where its part is in service (R189). -/
def partnerGives (s : State) (c : Nat) (k : Coord) (q : DReq) : Option Nat :=
  if mirrored s k.chan ∧ partFenced s (rd s (mcMirrorPartner c)) k = false then
    delivered (lineAt s (rd s (mcMirrorPartner c)) q.line) (partnerOut s c k q)
  else none

/-- A read request is queued again: a TC1 request at the head of the queue, or one of the owner's next eligible slots (R170). With the
queue full it waits outside, before the others (R147). -/
def readAgain (c sub : Nat) (q : DReq) (s : State) : State :=
  let q1 := { q with cls := 1, block := none, fwd := false }
  if hasRoom s c sub q1 = false then setOutside c sub (q1 :: outsideOf s c sub) s
  else if sealedPath s c sub q then setSealedQ c sub q.tag (q1 :: sealedOf s c sub q.tag) s
  else setQueue c sub (q1 :: queueOf s c sub) s

/-- A bad read is read once more on its channel (R170). -/
def rereadHere (c sub : Nat) (q : DReq) (s : State) : State :=
  readAgain c sub { q with reread := q.reread + 1 } (markForwarded c sub q (bump (mcRetryRereads c) 1 s))

/-- A read leaves the retry buffer of every channel that has performed it. -/
def dropRetries (sub : Nat) (k : Coord) (q : DReq) (s : State) : State :=
  (copies s k.chan).foldl (fun a c => dropRetry c sub q a) s

/-- The outcome of a read is final: what it leaves behind, and its data or poison, with which it leaves the retry buffers (R167, R170,
R182, R186). -/
def finishRead (c sub : Nat) (k : Coord) (q : DReq) (o : ROut) (s : State) : State :=
  let l := lineAt s c q.line
  let s1 := afterRead (nextSlice s) c q.line q.tag k o (dropRetries sub k q s)
  let s2 := if 0 < q.reread ∧ (o = .clean ∨ o = .rebuilt) then
      recCorrected (nextSlice s) 3 c 0x0301 0 (bump (mcEccCountCorrected c) 1 s1) else s1
  deliver q (delivered l o) s2

/-- The partner's data stands for a channel's: it is delivered, and written back to the channel that read first (R183, R189). -/
def partnerData (c p sub : Nat) (k : Coord) (q : DReq) (o : ROut) (s : State) : State :=
  let pl := lineAt s p q.line
  deliver q (delivered pl o) (fixWrite c q.line { pl with err := [] } (bump (mcMirrorPartnerReads c) 1 (dropRetries sub k q s)))

/-- The same, with what the partner's read leaves behind. -/
def partnerRead (c p sub : Nat) (k : Coord) (q : DReq) (o : ROut) (s : State) : State :=
  partnerData c p sub k q o (afterRead (nextSlice s) p q.line q.tag k o s)

/-- The partner's read of the same sealed access is still in flight. -/
def twinFlies (s : State) (p sub : Nat) (q : DReq) : Bool := (flightOf s p sub).any fun x => x.twin && x.seq == q.seq

/-- That read now stands for the access (R189). -/
def twinStands (p sub : Nat) (q : DReq) (origin : Option Nat) (s : State) : State :=
  setFlight p sub ((flightOf s p sub).map fun x => if x.twin ∧ x.seq = q.seq then { x with twin := false, origin := origin } else x) s

/-- A sealed read of the upper channel beside the lower one's: only its corrections and their write-backs count (R183, R189). -/
def twinRead (c sub : Nat) (k : Coord) (q : DReq) (o : ROut) (s : State) : State :=
  let s1 := dropRetry c sub q s
  match o with
  | .corrected d => fixWrite c q.line { lineAt s c q.line with err := [] } (countCorrection (nextSlice s) c q.line d k s1)
  | .corrPoison d => fixWrite c q.line DLine.marker (countCorrection (nextSlice s) c q.line d k s1)
  | _ => s1

/-- A read's checked outcome at the channel that read (R170, R189). A shared read of a mirrored pair whose outcome is bad goes to the
other channel, is read there twice more, and then comes back for the rereads of the first, unless that one's part is fenced by then
(R190). -/
def judgeRead (c sub : Nat) (k : Coord) (q : DReq) (o : ROut) (s : State) : State :=
  let p := rd s (mcMirrorPartner c)
  let plain := (delivered (lineAt s c q.line) o).isSome
  match q.origin with
  | some c0 =>
    if plain then partnerRead c0 c sub k q o s
    else if o.bad ∧ q.reread < 2 then rereadHere c sub q s
    else if partFenced s c0 k then finishRead c sub k q o s
    else readAgain c0 sub { q with origin := none, tried := true, reread := 1 }
      (bump (mcRetryRereads c0) 1 (markForwarded c sub q s))
  | none =>
    if o.bad = false then finishRead c sub k q o s
    else if sealedPath s c sub q ∧ q.reread = 0 ∧ twinFlies s p sub q then twinStands p sub q (some c) (markForwarded c sub q s)
    else if sealedPath s c sub q ∧ q.reread = 0 ∧ (partnerGives s c k q).isSome then
      partnerData c p sub k q (partnerOut s c k q) s
    else if sealedPath s c sub q = false ∧ q.tried = false ∧ q.reread = 0 ∧ mirrored s k.chan ∧ partFenced s p k = false then
      readAgain p sub { q with origin := some c } (markForwarded c sub q s)
    else if q.reread < 2 then rereadHere c sub q s
    else finishRead c sub k q o s

/-- The oldest read of the subchannel comes back with these burst errors, its preamble late or early at these devices. -/
def dramReadReturn (c sub : Nat) (errs : List (Nat × Nat)) (phases : List (Nat × Bool)) (s : State) : State :=
  match flightOf s c sub with
  | [] => s
  | q :: rest =>
    let s0 := setFlight c sub rest s
    match coord s (q.line * 64) with
    | none => s0
    | some k =>
      let s1 := trackRead c k phases s0
      let l := lineAt s c q.line
      let o := checkLine s.mem.keys q.tag l (sparedDev s c k.rank k.sub) (addErr l.err errs)
      if q.twin then (if partFenced s c k then dropRetry c sub q s1 else twinRead c sub k q o s1)
      else if partFenced s c k then
        let (s2, v) := readLine (nextSlice s) q.line q.tag (dropRetry c sub q s1)
        deliver q v s2
      else if q.fwd then (if o.bad then s1 else dropForwarded c sub q s1)
      else judgeRead c sub k q o s1

/-! ## Refresh (R161 to R165) -/

def refOwed (c r : Nat) : Fld := if r = 0 then mcRefresh0Owed c else mcRefresh1Owed c
def refDoubled (c r : Nat) : Fld := if r = 0 then mcRefresh0Doubled c else mcRefresh1Doubled c
def refCatchup (c r : Nat) : Fld := if r = 0 then mcRefresh0Catchup c else mcRefresh1Catchup c
def refRate (c r : Nat) : Fld := if r = 0 then mcRefresh0RateField c else mcRefresh1RateField c
def refPostponed (c r : Nat) : Fld := if r = 0 then mcRefresh0Postponed c else mcRefresh1Postponed c
def refCatchups (c r : Nat) : Fld := if r = 0 then mcRefresh0Catchups c else mcRefresh1Catchups c

def tRefi (s : State) (c r : Nat) : Nat := if rdB s (refDoubled c r) then 1950 else 3900
def remOf (s : State) (c r : Nat) : Nat := tget 0 (chanOf s c).rem r
def setRem (c r v : Nat) (s : State) : State := modChan c (fun x => { x with rem := tset 0 x.rem r v }) s

/-- Refreshes that have fallen due are added to owed, once for each boundary (R161). Where a catch-up's doubled remainder brings more
than 8 in all, which the spec both adds and rules out, the excess is dropped (DESIGN CHOICE, log entry 42). -/
def accrue (c r : Nat) (s : State) : State :=
  if (chanOf s c).accrued.contains r then s
  else
    let t := tRefi s c r
    modChan c (fun x => { x with accrued := r :: x.accrued })
      (setRem c r (remOf s c r % t) (wr (refOwed c r) (min 8 (rd s (refOwed c r) + remOf s c r / t)) s))

/-- Shared requests queued for a rank. -/
def queuedFor (s : State) (c r : Nat) : Nat :=
  ((queueOf s c 0 ++ queueOf s c 1 ++ rtOf s c 0 ++ rtOf s c 1).filter fun q =>
    (coord s (q.line * 64)).any fun k => k.rank == r).length

/-- The refreshes that a running catch-up has issued by this boundary are owed no more (R161, R163). -/
def catchIssued (c r : Nat) (s : State) : State :=
  match tget none (chanOf s c).catchUps r with
  | none => s
  | some u =>
    let n := catchDone s c (catchPs s c 0 u) u
    wr (refOwed c r) (rd s (refOwed c r) - (n - (u.total - u.left)))
      (modChan c (fun x => { x with catchUps := tset none x.catchUps r (some { u with left := min u.left (u.total - n) }) }) s)

/-- R161 for one rank: accrue, then refresh in this frame's window, once a frame, or postpone. The window quiets the rank, and the
read delays that are due move in it (R146). A channel being filled is refreshed too. -/
def refreshOwed (c r : Nat) (s : State) : State :=
  if (rd s (mcStatusState c) ≠ 3 ∧ rd s (mcStatusState c) ≠ 2) ∨ ranksOf s c ≤ r then s
  else
    let s1 := accrue c r (catchIssued c r s)
    let owed := rd s1 (refOwed c r)
    if catchingUp s c r ∨ owed = 0 ∨ (chanOf s c).refreshing.contains r then s1
    else if 4 ≤ owed ∨ queuedFor s1 c r < 8 then
      moveDelays c r (wr (refOwed c r) (owed - 1) (modChan c (fun x => { x with refreshing := r :: x.refreshing }) s1))
    else bump (refPostponed c r) 1 s1

/-- Mode register 4 of a rank is read once every 16 frames, on a channel whose ranks have refresh windows (R162). -/
def mr4Due (s : State) (c r : Nat) : Bool :=
  (rd s (mcStatusState c) == 3 || rd s (mcStatusState c) == 2) &&
    (tget 0 (chanOf s c).mr4At r == 0 || decide (tget 0 (chanOf s c).mr4At r + 15 ≤ beat s))

/-- A reading of mode register 4 (R162): codes with the interval assigned to each, in thousandths of the 1x interval. -/
def mr4Reading (c r : Nat) (codes : List (Nat × Nat)) (s : State) : State :=
  match (if mr4Due s c r then codes else []) with
  | [] => s
  | x :: rest =>
    let short := rest.foldl (fun b p => if p.2 < b.2 then p else b) x
    let s1 := wr (refRate c r) short.1 (modChan c (fun x => { x with mr4At := tset 0 x.mr4At r (beat s + 1) }) s)
    let need := decide (short.2 < 1000)
    let past := decide (short.2 < 500)
    let ch := chanOf s1 c
    let s2 := if past ∧ ¬ ch.beyond.contains r then recContained (nextSlice s) 3 c 0x030C 0 [] s1 else s1
    let ch2 := { chanOf s2 c with beyond := if past then (if ch.beyond.contains r then ch.beyond else r :: ch.beyond)
                                            else ch.beyond.filter (· != r) }
    setChan c (if need then
        { ch2 with returnDue := ch2.returnDue.filter (· != r),
                   catchDue := if rdB s (refDoubled c r) ∨ ch2.catchDue.contains r then ch2.catchDue else r :: ch2.catchDue }
      else { ch2 with catchDue := ch2.catchDue.filter (· != r),
                      returnDue := if rdB s (refDoubled c r) ∧ ¬ ch2.returnDue.contains r then r :: ch2.returnDue
                                   else ch2.returnDue }) s2

/-- Notices for what an ended event lost on a channel (R166). -/
def lossNotices (c : Nat) (p : Loss → Bool) (s : State) : State :=
  let l := (chanOf s c).losses.filter p
  let s1 := modChan c (fun r => { r with losses := r.losses.filter fun x => !p x }) s
  l.foldl (fun a x => sealNotice x.ten 0x0001
    [(0x18, 1, c), (0x19, 1, x.sub), (0x1A, 1, x.rank), (0x20, 8, x.first), (0x28, 8, x.last), (0x30, 4, x.count)] a) s1

/-- A slot of the present frame, counted from beat 0. -/
def slotNo (s : State) (c slot : Nat) : Nat := beat s * rd s (mcSlotGridSlots c) + slot

/-- R163: the last tRFC ends, in this slot; the refreshes owed at the start have been issued. Its notices follow at the boundary
after the last frame it affects (R166). -/
def catchUpEnd (c r slot : Nat) (s : State) : State :=
  match tget none (chanOf s c).catchUps r with
  | none => s
  | some u =>
    wr (refCatchup c r) 0 (wr (refOwed c r) (rd s (refOwed c r) - u.left) (closeBoth c r
      (modChan c (fun x => { x with catchUps := tset none x.catchUps r none,
                                    catchPast := tset none x.catchPast r (some (slotNo s c slot)) }) s)))

/-- An owned block of the present frame has a claim that began before slot e, on the rank or subchannel that f names. -/
def claimedBefore (s : State) (c e : Nat) (f : Nat → Nat → Bool) : Bool :=
  (List.range 64).any fun n => ownedIn s c n (beat s) && decide (claimFrom s c n (beat s) < e) &&
    f (n / 32) (roleRank s c (rd s (mcSealBlockRole c n)) (beat s))

/-- The events on a channel that affect no block of the frame that begins have affected their last: notices (R166). -/
def endEvents (c : Nat) (s : State) : State :=
  let s1 := [0, 1].foldl (fun a r => match tget none (chanOf a c).catchPast r with
    | some e => if claimedBefore a c e (fun _ x => x == r) then a
        else lossNotices c (fun l => l.catchUp && l.rank == r) (modChan c (fun x => { x with catchPast := tset none x.catchPast r none }) a)
    | none => a) s
  [0, 1].foldl (fun a b => match tget none (chanOf a c).recovPast b with
    | some e => if claimedBefore a c e (fun x _ => x == b) then a
        else lossNotices c (fun l => !l.catchUp && l.sub == b) (modChan c (fun x => { x with recovPast := tset none x.recovPast b none }) a)
    | none => a) s1

/-- The rank is fenced on the channel, or all of the channel is out of service: a refresh-rate change due for it has no effect (R40). -/
def rankOut (s : State) (c r : Nat) : Bool :=
  rd s (mcStatusState c) == 5 || rd s (mcStatusState c) == 6 || (chanOf s c).fencedRanks.contains r

/-- R165: back to 3,900 ns; not while a catch-up runs. The increment of the boundary comes first, as at a catch-up (DEDUCED from
R163, log entry 42). -/
def rateReturn (c r : Nat) (s : State) : State :=
  if rankOut s c r = false ∧ (chanOf s c).returnDue.contains r ∧ rdB s (refDoubled c r) ∧ ¬ catchingUp s c r then
    let s1 := accrue c r s
    wr (refDoubled c r) 0 (wr (refOwed c r) ((rd s1 (refOwed c r) + 1) / 2) (setRem c r (remOf s1 c r / 2)
      (modChan c (fun x => { x with returnDue := x.returnDue.filter (· != r) }) s1)))
  else s

/-! ## Drift (R146) -/

/-- The rank's oscillator may run: interval_beats since its last run, in a window that quiets the rank for a refresh. -/
def driftDue (s : State) (c r : Nat) : Bool :=
  (chanOf s c).refreshing.contains r &&
    (tget 0 (chanOf s c).driftAt r == 0 || decide (tget 0 (chanOf s c).driftAt r - 1 + rd s (mcDriftCtrlIntervalBeats c) ≤ beat s))

/-- The oscillator's change from the baseline, in steps. A write delay moved past 127 or below 0 goes round (log entry 37). -/
def driftCheck (c r : Nat) (change : Int) (s : State) : State :=
  if driftDue s c r = false then s
  else
    let ch := { chanOf s c with driftAt := tset 0 (chanOf s c).driftAt r (beat s + 1) }
    let d := change - tget 0 ch.drift r
    let tot := change.natAbs
    let s1 := if rd s (mcDriftCtrlThreshold c) ≤ d.natAbs then
        let s0 := setChan c { ch with drift := tset 0 ch.drift r change } s
        let moved := (List.range 20).foldl (fun a i =>
          wr (mcNibbleWrDelay c (r * 20 + i)) (Int.toNat ((Int.ofNat (rd a (mcNibbleWrDelay c (r * 20 + i))) + d) % 128)) a) s0
        wr (mcDriftStatusLastBeat c) (beat s % 2 ^ 32) (bump (mcDriftStatusAdjustments c) 1 moved)
      else setChan c ch s
    let s2 := wr (mcDriftStatusMaxDrift c) (max (rd s1 (mcDriftStatusMaxDrift c)) (min 255 tot)) s1
    if rd s (mcDriftCtrlAlarmSteps c) ≤ tot ∧ ¬ rdB s (mcDriftStatusAlarm c) then
      recContained (nextSlice s) 3 c 0x0309 0 [] (wr (mcDriftStatusAlarm c) 1 s2)
    else s2

/-! ## Alerts (R167 to R169) -/

/-- The controller stops a subchannel: no command until its fence (R168). -/
def stopSub (c sub : Nat) (s : State) : State :=
  recContained (nextSlice s) 3 c 0x0308 0 [] (wr (mcRetryLastStopped c) 1 (wr (mcRetryLastSub c) sub
    (modChan c (fun r => { r with stopped := if r.stopped.contains sub then r.stopped else sub :: r.stopped }) s)))

/-- The requests of a lost block go back to the head of their owner's queue (R166). -/
def unserve (c : Nat) (b : SelBlock) (s : State) : State :=
  let sub := b.entry / 32
  let mine := fun (q : DReq) => q.block == some (b.entry + 64 * b.frame) && q.tag == b.owner
  let back := (flightOf s c sub).filter (fun q => mine q && !q.twin) ++ (tget [] (chanOf s c).retry sub).filter fun q => mine q && q.write
  let s1 := setFlight c sub ((flightOf s c sub).filter (!mine ·)) s
  let s2 := modChan c (fun r => { r with retry := tset [] r.retry sub ((tget [] r.retry sub).filter (!mine ·)) }) s1
  setSealedQ c sub b.owner ((back.map fun q => { q with block := none }) ++ sealedOf s2 c sub b.owner) s2

/-- An event on this channel alone leaves the block to the partner: its read of an access, where it still flies, stands for the access, and
this channel performs none of them (R189). -/
def handOver (c : Nat) (b : SelBlock) (s : State) : State :=
  let sub := b.entry / 32
  let p := rd s (mcMirrorPartner c)
  let mine := fun (q : DReq) => q.block == some (b.entry + 64 * b.frame) && q.tag == b.owner && (q.twin || twinFlies s p sub q)
  ((flightOf s c sub).filter mine).foldl (fun a q => if q.twin then a else twinStands p sub q none a)
    (setFlight c sub ((flightOf s c sub).filter (!mine ·)) s)

/-- Rank of a selected block in its frame. -/
def SelBlock.rank (b : SelBlock) (s : State) (c : Nat) : Nat := roleRank s c (rd s (mcSealBlockRole c b.entry)) b.frame

/-- An event that starts in a slot, a catch-up or a recovery, loses the blocks already selected whose claim covers the slot, under
the owner and mask they were selected with (R157, R164, R169), but those that the partner of a mirrored pair performs alone
(R189). -/
def loseSelected (isCatch : Bool) (c slot : Nat) (hit : SelBlock → Bool) (s : State) : State :=
  let at' := slotNo s c slot
  ((chanOf s c).chosen.filter fun b => hit b && decide (claimFrom s c b.entry b.frame ≤ at') &&
      decide (at' ≤ claimTo s c b.entry b.frame)).foldl (fun a b =>
    let rank := b.rank a c
    if partnerTakes a c b.entry b.frame rank then handOver c b a
    else unserve c b (addLoss isCatch c b.owner (b.entry / 32) rank b.slots b.frame
      (modChan c (fun r => { r with chosen := r.chosen.erase b }) a))) s

/-- R163: the catch-up starts: the increment of this boundary at the normal rate, then owed and rem count double. -/
def catchUpStart (c r : Nat) (s : State) : State :=
  if rankOut s c r = false ∧ (chanOf s c).catchDue.contains r ∧ ¬ catchingUp s c r then
    let s0 := loseSelected true c 0 (fun b => b.rank s c == r) s
    let s1 := accrue c r s0
    let owed := min 8 (2 * rd s1 (refOwed c r))
    let s2 := bump (refCatchups c r) 1 (wr (refCatchup c r) 1 (wr (refDoubled c r) 1 (wr (refOwed c r) owed
      (setRem c r (2 * remOf s1 c r) s1))))
    closeBoth c r (modChan c (fun x => { x with
      catchDue := x.catchDue.filter (· != r)
      catchUps := tset none x.catchUps r (some { start := beat s, total := owed, left := owed }) }) s2)
  else s

/-- ALERT_n asserted, in service or while the channel is filled: the subchannel stops issuing. A recovery starts, or starts again; the third further alert stops the
subchannel. -/
def ddr5Alert (c sub kind slot : Nat) (s : State) : State :=
  if (rd s (mcStatusState c) ≠ 3 ∧ rd s (mcStatusState c) ≠ 2) ∨ (chanOf s c).stopped.contains sub then s
  else
    let s1 := (if kind = 0 then bump (mcRetryCaAlerts c) 1 else bump (mcRetryCrcAlerts c) 1)
      (wr (mcRetryLastBeat c) (beat s % 2 ^ 32) (wr (mcRetryLastSub c) sub (wr (mcRetryLastKind c) kind
        (wr (mcRetryLastReplayed c) 0 (wr (mcRetryLastStopped c) 0 s)))))
    let s2 := if recovering s c sub then s1 else loseSelected false c slot (fun b => b.entry / 32 == sub) s1
    let r : Recov := match tget none (chanOf s c).recov sub with
      | none => ⟨beat s, 0⟩
      | some x => { x with alerts := x.alerts + 1 }
    let s3 := closeRank c sub 0 (closeRank c sub 1
      (modChan c (fun x => { x with recov := tset none x.recov sub (some r) }) s2))
    if 3 ≤ r.alerts then stopSub c sub s3 else s3

/-- Every command still in the retry buffer is reissued in its order (R168): a write stores the same line again, a read is in
flight again. -/
def replay (c sub : Nat) (s : State) : State :=
  let l := tget [] (chanOf s c).retry sub
  let reads := l.filter fun q => !q.write
  wr (mcRetryLastReplayed c) l.length (bump (mcRetryReplays c) l.length
    (setFlight c sub ((flightOf s c sub).filter (fun q => reads.all fun x => x.seq != q.seq) ++ reads) s))

/-- The first command that is not a reissue, in this slot, ends the recovery; the replay is behind it (R168, R169). -/
def recoveryEnd (c sub slot : Nat) (s : State) : State :=
  if recovering s c sub ∧ (chanOf s c).stopped.contains sub = false then
    modChan c (fun x => { x with recov := tset none x.recov sub none,
                                 recovPast := tset none x.recovPast sub (some (slotNo s c slot)) }) (replay c sub s)
  else s

/-! ## Meanings -/

/-- DRAM_REQUEST (R205, R147, R158, R420). -/
def execDramRequest (c : Nat) (q : DAcc) (s : State) : Host.Outcome State Fault Refusal := .next (dramRequest c q s)

/-- COMMAND_OPPORTUNITY (R148, R150, R198, R213). -/
def execCommandOpportunity (c sub slot : Nat) (s : State) : Host.Outcome State Fault Refusal :=
  .next (commandOpportunity c sub slot s)

/-- ROW_IDLE_CLOSE (R152). -/
def execRowIdleClose (c bank ns : Nat) (s : State) : Host.Outcome State Fault Refusal :=
  .next (if rd s (mcSchedCtrlIdleClose c) ≤ ns then setBank c bank { bankOf s c bank with opened := none } s else s)

/-- RT_PORT_REQUEST (R149): into the port's buffer, after the owner check of R205. -/
def execRtPortRequest (c : Nat) (q : DAcc) (s : State) : Host.Outcome State Fault Refusal :=
  .next (dramRequest c { q with cls := 0, port := q.port % 2 } s)

/-- REFRESH_OWED (R161). -/
def execRefreshOwed (c rank : Nat) (s : State) : Host.Outcome State Fault Refusal := .next (refreshOwed c rank s)

/-- CLAIM_START (R152, R156): an owned block's claim precharges the banks of its rank. -/
def execClaimStart (c block : Nat) (s : State) : Host.Outcome State Fault Refusal :=
  .next (if ownedIn s c block (blockFrame s c block (rd s (mcSlotGridPre c))) then
    closeRank c (block / 32) (roleRank s c (rd s (mcSealBlockRole c block)) (blockFrame s c block (rd s (mcSlotGridPre c)))) s
  else s)

/-- SEALED_SELECTION (R158, R159, R166). -/
def execSealedSelection (c block : Nat) (s : State) : Host.Outcome State Fault Refusal := .next (sealedSelection c block s)

/-- MR4_READING (R162, R163, R165). -/
def execMr4Reading (c rank : Nat) (codes : List (Nat × Nat)) (s : State) : Host.Outcome State Fault Refusal :=
  .next (mr4Reading c rank codes s)

/-- CATCH_UP_START (R163): at step 6 of the next boundary. -/
def execCatchUpStart (c rank : Nat) (s : State) : Host.Outcome State Fault Refusal :=
  .next (addDue (beat s + 1) 6 (.catchUpStart c rank) s)

/-- CATCH_UP_END (R163, R164, R166). -/
def execCatchUpEnd (c rank slot : Nat) (s : State) : Host.Outcome State Fault Refusal := .next (catchUpEnd c rank slot s)

/-- REFRESH_RATE_RETURN (R165): at step 6 of the next boundary. -/
def execRefreshRateReturn (c rank : Nat) (s : State) : Host.Outcome State Fault Refusal :=
  .next (addDue (beat s + 1) 6 (.rateReturn c rank) s)

/-- DRIFT_CHECK (R146). -/
def execDriftCheck (c rank : Nat) (change : Int) (s : State) : Host.Outcome State Fault Refusal :=
  .next (driftCheck c rank change s)

/-- DRAM_READ_RETURN (R146, R167, R170, R180 to R189). -/
def execDramReadReturn (c sub : Nat) (errs : List (Nat × Nat)) (phases : List (Nat × Bool)) (s : State) :
    Host.Outcome State Fault Refusal := .next (dramReadReturn c sub errs phases s)

/-- FLIP_EXPIRY (R199): a mask not applied within 1,000,000 beats disarms. -/
def execFlipExpiry (c : Nat) (s : State) : Host.Outcome State Fault Refusal :=
  .next (if rdB s (mcFlipCtrlArmed c) ∧ (chanOf s c).flipBeat + 1000000 ≤ beat s then wr (mcFlipCtrlArmed c) 0 s else s)

/-- DDR5_ALERT (R168). -/
def execDdr5Alert (c sub kind slot : Nat) (s : State) : Host.Outcome State Fault Refusal :=
  .next (ddr5Alert c sub kind slot s)

/-- ALERT_DEASSERT_TIMEOUT (R168): more than 1,000 ns. -/
def execAlertDeassertTimeout (c sub ns : Nat) (s : State) : Host.Outcome State Fault Refusal :=
  .next (if 1000 < ns ∧ recovering s c sub then stopSub c sub s else s)

/-- RECOVERY_END (R169). -/
def execRecoveryEnd (c sub slot : Nat) (s : State) : Host.Outcome State Fault Refusal := .next (recoveryEnd c sub slot s)

/-- WRITE_CRC_WINDOW_PASS (R167): the oldest write leaves the retry buffer. -/
def execWriteCrcWindowPass (c sub : Nat) (s : State) : Host.Outcome State Fault Refusal :=
  .next (match (tget [] (chanOf s c).retry sub).find? (·.write) with
    | some q => dropRetry c sub q s
    | none => s)

/-- SPARE_WINDOW_CLEAR (R191): at each multiple of window_beats. -/
def execSpareWindowClear (c : Nat) (s : State) : Host.Outcome State Fault Refusal :=
  .next (if beat s % max 1 (rd s (mcSpareCtrlWindowBeats c)) = 0 then
    (List.range 40).foldl (fun a n => wr (mcDevCeWindow c n) 0 a) (modChan c (fun r => { r with rowCorr := [] }) s)
  else s)

/-- A recovery trigger of the patrol (R198): a lap starts at the first line, or the running one becomes a recovery lap, which goes on
from where it is and has every line to read again. -/
def patrolTrigger (c reason : Nat) (s : State) : State :=
  let on := rdB s (mcPatrolRunning c)
  wr (mcPatrolRunning c) 1 (wr (mcPatrolReason c) reason
    (modChan c (fun r => { r with patrolAt := [], patrolPos := if on then r.patrolPos else [],
                                  patrolBegan := if on then r.patrolBegan else beat s }) s))

/-- Spare device d of a rank and subchannel (R191, R192, Table 16.3). -/
def spareDevice (sl c rank sub d : Nat) (s : State) : State :=
  let e := rank * 2 + sub
  if (sparedDev s c rank sub).isSome then s
  else patrolTrigger c 3 (recContained sl 3 c 0x0307 0 [rank, sub, d]
    (wr (mcSpareStatusSpared c) (rd s (mcSpareStatusSpared c) + (16 + d) * 2 ^ (5 * e)
      - rd s (mcSpareStatusSpared c) / 2 ^ (5 * e) % 32 * 2 ^ (5 * e)) s))

/-- The device of a rank and subchannel that reached the threshold is spared (R191). -/
def deviceSpare (c rank sub : Nat) (s : State) : State :=
  let due := tget 0 (chanOf s c).spareDue (rank * 2 + sub)
  if due = 0 then s
  else modChan c (fun r => { r with spareDue := tset 0 r.spareDue (rank * 2 + sub) 0 })
    (spareDevice (beat s) c rank sub (due - 1) s)

/-- PATROL_LAP_END (R198): every line since the latest trigger has been read. A recovery lap and the lap
of a test are the last (Table 17.4), but the patrol of start-up goes on until release. -/
def execPatrolLapEnd (c : Nat) (s : State) : Host.Outcome State Fault Refusal :=
  .next (if rdB s (mcPatrolRunning c) ∧ lapCovered s c then
    let s1 := bump (mcPatrolLaps c) 1 (wr (mcPatrolLapBeats c) (beat s - (chanOf s c).patrolBegan) s)
    modChan c (fun r => { r with patrolAt := [], patrolBegan := beat s })
      (if s.boot.step = 9 then wr (mcPatrolRunning c) 0 (wr (mcPatrolReason c) 0 s1) else wr (mcPatrolReason c) 1 s1)
  else s)

end Sys2Proof.Machine
end

