-- ==== Sys2Proof/Machine/Flags.lean ====
section
/-! DEFINITION. Machine/Flags.lean: the computations whose result decides something: comparisons and results of atomic
operations, and the arithmetic and conditions of the Clerk core (R78, R315 to R317). -/
namespace Sys2Proof.Machine

/-- Signed value of an n-byte number. -/
def toSigned (n v : Nat) : Int :=
  let w := v % 2 ^ (8 * n)
  if w < 2 ^ (8 * n - 1) then (w : Int) else (w : Int) - (2 ^ (8 * n) : Nat)

/-- What an atomic operation of n bytes stores: old value, operand, compare value (RISC-V A, Zacas). -/
def amoStore (op : AmoOp) (n old v cmp : Nat) : Nat :=
  match op with
  | .lr => old
  | .sc => v
  | .swap => v
  | .add => (old + v) % 2 ^ (8 * n)
  | .and => old &&& v
  | .or => old ||| v
  | .xor => old ^^^ v
  | .min => if toSigned n old ≤ toSigned n v then old else v
  | .max => if toSigned n old ≤ toSigned n v then v else old
  | .minu => if old ≤ v % 2 ^ (8 * n) then old else v
  | .maxu => if old ≤ v % 2 ^ (8 * n) then v else old
  | .cas => if old = cmp % 2 ^ (8 * n) then v else old

/-- Number of an operation in a packet, and back. -/
def amoCode : AmoOp → Nat
  | .lr => 0
  | .sc => 1
  | .swap => 2
  | .add => 3
  | .and => 4
  | .or => 5
  | .xor => 6
  | .min => 7
  | .max => 8
  | .minu => 9
  | .maxu => 10
  | .cas => 11

def amoOf (n : Nat) : AmoOp :=
  ([AmoOp.lr, .sc, .swap, .add, .and, .or, .xor, .min, .max, .minu, .maxu, .cas][n]?).getD .cas

/-- Result of an access with byte enables: bytes of v where be has a 1, of old elsewhere; be = 0 enables all. -/
def mergeBytes (old v be : Nat) : Nat → Nat
  | 0 => 0
  | n + 1 => mergeBytes old v be n + (if be = 0 ∨ be / 2 ^ n % 2 = 1 then v / 256 ^ n % 256 else old / 256 ^ n % 256) * 256 ^ n

/-! ## Clerk core (R313, R314) -/

/-- A field of n bits, sign-extended to 32. -/
def sx (n v : Nat) : Nat := if v % 2 ^ n < 2 ^ (n - 1) then v % 2 ^ n else 2 ^ 32 - 2 ^ n + v % 2 ^ n

/-- Signed value of a 32-bit word. -/
def s32 (v : Nat) : Int := toSigned 4 v

/-- wa shifted right, copies of bit 31 from above. -/
def sra32 (a n : Nat) : Nat := if a < 2 ^ 31 then a / 2 ^ n else a / 2 ^ n + (2 ^ 32 - 2 ^ (32 - n))

/-- High 32 bits of the signed product. -/
def mulh (a b : Nat) : Nat := ((s32 a * s32 b / 2 ^ 32) % 2 ^ 32).toNat

/-- Leading zero bits of a word, 32 for 0. -/
def clz (a : Nat) : Nat := ((List.range 32).find? fun i => a / 2 ^ (31 - i) % 2 == 1).getD 32

/-- Condition of BEQ, BNE, BLT, BGE, BLTU, BGEU, numbered in the order of op 0x10 to 0x15. -/
def clkCond (k a b : Nat) : Bool :=
  match k with
  | 0 => a == b
  | 1 => a != b
  | 2 => decide (s32 a < s32 b)
  | 3 => decide (s32 b ≤ s32 a)
  | 4 => decide (a < b)
  | _ => decide (b ≤ a)

end Sys2Proof.Machine
end

