-- ==== Sys2Proof/Machine/Route.lean ====
section
/-! DEFINITION. Machine/Route.lean: the route computation, packets on the fabric ports, sealed shares, and snoops of
other devices (R231, R240, R241, R244 to R250, R255, R256). -/
namespace Sys2Proof.Machine

/-! ## Graph (R240, R241) -/

/-- Neighbours of v over a set of links: port and neighbour. -/
def nbrs (topo : List TLink) (v : Nat) : List (Nat × Nat) :=
  topo.flatMap fun l => (if l.a = v then [(l.pa, l.b)] else []) ++ (if l.b = v then [(l.pb, l.a)] else [])

/-- One round of shortening distances; 1000 stands for infinite. -/
def relax (topo : List TLink) (ms : List Nat) (t : List (Nat × Nat)) : List (Nat × Nat) :=
  ms.map fun v => (v, (nbrs topo v).foldl (fun m e => min m (tget 1000 t e.2 + 1)) (tget 1000 t v))

def rounds {α : Type} (f : α → α) : Nat → α → α
  | 0, a => a
  | n + 1, a => rounds f n (f a)

/-- Hop distances of all members to d. -/
def distTo (topo : List TLink) (ms : List Nat) (d : Nat) : List (Nat × Nat) :=
  rounds (relax topo ms) ms.length [(d, 0)]

/-- The up direction: from x to y when rank(y) < rank(x), ranks being (level, ID). -/
def upHop (lv : List (Nat × Nat)) (x y : Nat) : Bool :=
  tget 1000 lv y < tget 1000 lv x || (tget 1000 lv y == tget 1000 lv x && decide (y < x))

/-- Escape state after a hop (Table 9.6). -/
def escNext (st : Nat) (up : Bool) : Option Nat :=
  match st, up with
  | 0, true => some 0
  | 0, false => some 1
  | 1, true => some 2
  | 1, false => some 1
  | 2, true => some 2
  | 2, false => some 3
  | 3, false => some 3
  | _, _ => none

/-- One round of shortening escape distances, keyed v * 4 + state. -/
def relaxEsc (topo : List TLink) (lv : List (Nat × Nat)) (ms : List Nat) (t : List (Nat × Nat)) : List (Nat × Nat) :=
  ms.flatMap fun v => (List.range 4).map fun st =>
    (v * 4 + st, (nbrs topo v).foldl (fun m e => match escNext st (upHop lv v e.2) with
      | some s2 => min m (tget 1000 t (e.2 * 4 + s2) + 1)
      | none => m) (tget 1000 t (v * 4 + st)))

def escDist (topo : List TLink) (lv : List (Nat × Nat)) (ms : List Nat) (d : Nat) : List (Nat × Nat) :=
  rounds (relaxEsc topo lv ms) (2 * ms.length) ((List.range 4).map fun st => (d * 4 + st, 0))

/-- Ports ascending from d mod 6, wrapping. -/
def portOrder (d : Nat) (l : List (Nat × Nat)) : List (Nat × Nat) :=
  (List.range 6).flatMap fun i => l.filter fun e => e.1 == (d % 6 + i) % 6

/-- The local entry, and the route entry of member x for destination d (R241, Table 9.13). -/
def routeEntry (topo : List TLink) (ms : List Nat) (cap x d : Nat) : Nat :=
  if x = d then 6 * 299593 + 2 ^ 27
  else
    let lv := distTo topo ms cap
    let dist := distTo topo ms d
    let ed := escDist topo lv ms d
    let order := portOrder d (nbrs topo x)
    let dx := tget 1000 dist x
    let minimal := (order.filter fun e => tget 1000 dist e.2 + 1 == dx && dx < 1000).map (·.1)
    let nth := fun i => (minimal[i]?).getD 7
    let esc := fun st => ((order.find? fun e => match escNext st (upHop lv x e.2) with
      | some s2 => tget 1000 ed (e.2 * 4 + s2) + 1 == tget 1000 ed (x * 4 + st) && tget 1000 ed (x * 4 + st) < 1000
      | none => false).map (·.1)).getD 7
    nth 0 + nth 1 * 8 + nth 2 * 64 + esc 0 * 2 ^ 9 + esc 1 * 2 ^ 12 + esc 2 * 2 ^ 15 + esc 3 * 2 ^ 18 +
      (if dx < 1000 then dx % 64 * 2 ^ 21 + 2 ^ 27 else Config.noRouteHops % 64 * 2 ^ 21)

/-- The 64 entries of member x. -/
def routeTable (topo : List TLink) (ms : List Nat) (cap x : Nat) : List Nat :=
  (List.range 64).map fun d => routeEntry topo ms cap x d

/-! ## Ports and links -/

/-- Physical address of an offset of this device. -/
def paOf (s : State) (off : Nat) : Nat := rd s fabIdDeviceId * 2 ^ 46 + off

/-! ## SerDes groups, and the HDM decoders of their host ports (R268, R281) -/

def groupOf (s : State) (g : Nat) : Group := tget {} s.groups g
def setGroup (g : Nat) (r : Group) (s : State) : State := { s with groups := tset {} s.groups g r }
def modGroup (g : Nat) (f : Group → Group) (s : State) : State := setGroup g (f (groupOf s g)) s

/-- Place in the fixed page of the component registers' HDM decoder capability: its header in the CXL.mem registers, 4 KB into the block,
points to it. The layout is the CXL specification's (PRESUMED, log entry 45). -/
def hdmAt : Nat := 0x11020

/-- Decoders of a group: 4 for each of up to 4 host ports (Table 10.4). -/
def hdmCount : Nat := 16

/-- Register of decoder j: base and size as two words each, control, targets. -/
def hdmReg (s : State) (g j x : Nat) : Nat := getLE (groupOf s g).page (hdmAt + 0x10 + 0x20 * j + x) 4

/-- Base and size of decoder j, in units of 256 MB in the words' upper bits. -/
def hdmBase (s : State) (g j : Nat) : Nat := hdmReg s g j 0 / 2 ^ 28 * 2 ^ 28 + hdmReg s g j 4 * 2 ^ 32
def hdmSize (s : State) (g j : Nat) : Nat := hdmReg s g j 8 / 2 ^ 28 * 2 ^ 28 + hdmReg s g j 12 * 2 ^ 32

/-- Control bit 9 asks for a commit and bit 10 tells of it; bits 3:0 and 7:4 are the granularity and the ways, as powers of two. -/
def hdmCommitted (s : State) (g j : Nat) : Bool := inMask (hdmReg s g j 16) 10

/-- The committed decoder that covers an offset of this device. -/
def hdmFind (s : State) (g off : Nat) : Option Nat :=
  (List.range hdmCount).find? fun j =>
    hdmCommitted s g j && decide (hdmBase s g j ≤ paOf s off) && decide (paOf s off < hdmBase s g j + hdmSize s g j)

def hdmCovers (s : State) (g off : Nat) : Bool := (hdmFind s g off).isSome

/-- The host port that an offset is decoded to: interleaved 1, 2 or 4 ways over the decoder's targets at 256 bytes to 16 KB (Table 10.4). -/
def hdmPort (s : State) (g off : Nat) : Nat :=
  match hdmFind s g off with
  | some j =>
    let ways := 2 ^ min 2 (hdmReg s g j 16 / 16 % 16)
    let k := paOf s off / 2 ^ (8 + min 6 (hdmReg s g j 16 % 16)) % ways
    hdmReg s g j 20 / 256 ^ k % 256
  | none => 0

def myId (s : State) : Nat := rd s fabIdDeviceId
def fportOf (s : State) (k : Nat) : FabPort := tget {} s.fabric.ports k
def setFab (f : Fabric) (s : State) : State := { s with fabric := f }
def modPort (k : Nat) (f : FabPort → FabPort) (s : State) : State :=
  setFab { s.fabric with ports := tset {} s.fabric.ports k (f (fportOf s k)) } s
def portUp (s : State) (k : Nat) : Bool := rd s (fabPortStatusState k) == 4
def upPorts (s : State) : List Nat := (presentFabPorts s).filter (portUp s)
/-- Levels of the members in the table in force (R240). -/
def levelsNow (s : State) : List (Nat × Nat) :=
  match s.fabric.table with
  | some t => distTo t.topo (t.members.map (·.1)) t.captain
  | none => []

/-- Field i of a route entry: 0 primary, 1 alt1, 2 alt2, 3 to 6 the escape ports. -/
def entryPort (e i : Nat) : Nat := e / 8 ^ i % 8
def entryReach (e : Nat) : Bool := e / 2 ^ 27 % 2 == 1

/-- The device has a route to d: it is d, or its entry reaches d. -/
def hasRoute (s : State) (d : Nat) : Bool := d == myId s || (decide (d < 64) && entryReach (rd s (fabRouteEntry d)))

/-- Class of a packet kind (Tables 9.8 and 9.9). -/
def pktVc (kind : Nat) : Nat :=
  if kind = 0x10 ∨ kind = 0x11 then 1 else if kind = 0x20 ∨ kind = 0x21 then 2 else if kind = 0x30 then 3 else 0

/-- A flit's header as it leaves a port (Table 9.3), and the key and the count of its nonce (R229). DESIGN CHOICE (log entry 43):
flits of kinds 0 and 5 take no sequence number and no count, as the retry buffer does not hold them. -/
def stampFlit (p : FabPort) (f : TxFlit) : TxFlit :=
  { f with ackSeq := (p.seqRx + 4095) % 4096, ackValid := p.heard, nak := p.nakDue
           credits := (List.range 6).map fun v => min 31 (tget 0 p.owed v)
           key := if f.kind = 0 ∨ f.kind = 5 then none else p.keyTx, count := p.cntTx }

/-- The credits that a flit has returned are owed no longer. -/
def creditsPaid (l : List Nat) (t : Table Nat) : Table Nat :=
  l.zipIdx.foldl (fun a (c, v) => if c = 0 then a else tset 0 a v (tget 0 a v - c)) t

/-- A flit is put out by port p: one that is sequenced stays in the retry buffer (R231). -/
def flitOut (p : FabPort) (f : TxFlit) : FabPort :=
  let g := stampFlit p { f with seq := p.seqTx }
  let q := { p with sent := p.sent ++ [g], nakDue := false, owed := creditsPaid g.credits p.owed }
  if f.kind = 0 ∨ f.kind = 5 then q
  else { q with retry := p.retry ++ [g], seqTx := (p.seqTx + 1) % 4096, cntTx := p.cntTx + 1 }

def putFlit (k : Nat) (f : TxFlit) (s : State) : State := modPort k (fun p => flitOut p f) s

/-- A flit with packets. -/
def txFlit (k kind vc pos : Nat) (pkts : List Pkt) (s : State) : State :=
  putFlit k { seq := 0, kind := kind, vc := vc, pos := pos, pkts := pkts } s

/-- Port k has a credit of a VC and room in its retry buffer. -/
def canSend (s : State) (k vc : Nat) : Bool :=
  decide (k < 6) && portUp s k && decide (0 < tget 0 (fportOf s k).credits vc) && decide ((fportOf s k).retry.length < 1024)

/-- A packet leaves by port k on its VC. -/
def putOut (k : Nat) (p : Pkt) (s : State) : State :=
  let s1 := modPort k (fun q => { q with credits := tset 0 q.credits p.vc (tget 0 q.credits p.vc - 1) }) s
  txFlit k 1 p.vc 0 [p] s1

/-- Candidate with the most credits, first on ties (R245). -/
def bestPort (s : State) (vc : Nat) : List Nat → Option Nat
  | [] => none
  | k :: r => match bestPort s vc r with
    | some j => if tget 0 (fportOf s k).credits vc < tget 0 (fportOf s j).credits vc then some j else some k
    | none => some k

/-- Levels of the members under the epoch a packet is marked with (R247). -/
def levelsOf (s : State) (epoch : Nat) : List (Nat × Nat) :=
  if epoch = rd s fabIdEpoch then levelsNow s else s.fabric.prevLv

/-- The escape hop of a packet in state st: port and the packet as it leaves. -/
def escHop (s : State) (e st : Nat) (p : Pkt) : Option (Nat × Pkt) :=
  let k := entryPort e (3 + st)
  if k < 6 then
    match escNext st (upHop (levelsOf s p.epoch) (myId s) (rd s (fabPortStatusNbId k))) with
    | some st2 => some (k, { p with vc := if st2 ≤ 1 then 4 else 5, esc := st2 })
    | none => none
  else none

/-- The route entry for a packet's destination under its epoch (R247); none discards the packet. -/
def entryFor (s : State) (p : Pkt) : Option Nat :=
  if p.epoch = rd s fabIdEpoch then some (rd s (fabRouteEntry p.dest))
  else match s.fabric.prev with
    | some (e, l, _) => if p.epoch = e then some ((l[p.dest]?).getD 0) else none
    | none => none

/-- The packet waits for a port to free or for a switch. -/
def waitPkt (p : Pkt) (s : State) : State := setFab { s.fabric with waiting := s.fabric.waiting ++ [p] } s

/-- One hop of a packet (R245). -/
def routeOne (p : Pkt) (s : State) : State :=
  match entryFor s p with
  | none => s
  | some e =>
    let go := fun (h : Option (Nat × Pkt)) => match h with
      | some (k, q) => if canSend s k q.vc then putOut k q s else waitPkt p s
      | none => waitPkt p s
    if 4 ≤ p.vc then go (escHop s e p.esc p)
    else
      match bestPort s p.vc (([0, 1, 2].map (entryPort e)).filter fun k => canSend s k p.vc) with
      | some k => putOut k p s
      | none => go (escHop s e 0 p)

/-! ## Sealed shares on this device (R255, R256) -/

/-- Step of a wheel. -/
def wheelStep (w : Nat) : Nat := if w = 820 then 96 else 48

/-- Flit position of wheel position q on port k. -/
def flitPos (s : State) (k w q : Nat) : Nat := if w = 410 ∧ rd s (fabPortStatusWidth k) = 0 then 2 * q else q

/-- Wheel position of a flit position on port k. -/
def wheelPos (s : State) (k w f : Nat) : Nat := if w = 410 ∧ rd s (fabPortStatusWidth k) = 0 then f / 2 else f

/-- The beat's slots of the fabric are this device's to use: it is the captain, or its boundaries are aligned (R42). -/
def slotsUsable (s : State) : Bool := rdB s fabIdCaptain || rdB s clkStatusFabAligned

/-- The flit position of wheel position q is free in this beat: each carries one flit (R256). -/
def posFree (s : State) (g : ShareSeg) (q : Nat) : Bool :=
  (fportOf s g.outP).sent.all fun f => !(f.kind == 2 && f.pos == flitPos s g.outP g.wheel q)

/-- A flit's packets of a sealed share leave together by segment g at its wheel position q, where the link is up (R233), slots may
be used, the position is free in this beat and the retry buffer has room. -/
def sendInShare (g : ShareSeg) (q : Nat) (l : List Pkt) (s : State) : State :=
  if portUp s g.outP ∧ slotsUsable s ∧ posFree s g q ∧ (fportOf s g.outP).retry.length < 1024 then
    txFlit g.outP 2 6 (flitPos s g.outP g.wheel q) (l.map fun p => { p with vc := 6 }) s
  else l.foldl (fun a p => waitPkt { p with vc := 6 } a) s

/-- A free position of segment g takes the packet; which of them, the spec leaves open. -/
def sendAnyPos (g : ShareSeg) (p : Pkt) (s : State) : State :=
  let l := g.pos.filter (posFree s g)
  match l[freeVal l.length s]? with
  | some q => sendInShare g q [p] (freeNext s)
  | none => waitPkt { p with vc := 6 } s

/-- Waiting packets try again, oldest first; a sealed share's in the slots of its segment. -/
def pumpWaiting (s : State) : State :=
  s.fabric.waiting.foldl (fun a p =>
    if p.vc = 6 then
      match a.fabric.segs.find? fun g => g.ten == p.tag && g.a == p.src && g.d == p.dest && decide (g.outP < 6) with
      | some g => sendAnyPos g p a
      | none => routeOne { p with vc := pktVc p.kind } a
    else routeOne p a) (setFab { s.fabric with waiting := [] } s)

/-- The segment by which this device starts tenancy t's packets to d. -/
def shareSeg (s : State) (t d : Nat) : Option ShareSeg :=
  s.fabric.segs.find? fun g => g.ten == t && g.a == myId s && g.d == d && g.inP == 6 &&
    s.fabric.shares.all fun h => !(h.ten == t && (h.a == d || h.d == d)) || h.placed

/-- Registers that follow a port's reserved positions. -/
def showShare (k : Nat) (s : State) : State :=
  let h := (fportOf s k).held
  wr (fabPortShareReserved k) h.length (wr (fabPortShareShares k)
    ((s.fabric.segs.filter fun g => g.outP == k || g.inP == k).map fun g => (g.ten, min g.a g.d, max g.a g.d)).eraseDups.length s)

/-- Mark the flit positions of a segment. -/
def markPos (g : ShareSeg) (t : Nat) (s : State) : State :=
  let mark := fun (h : Table Nat) => g.pos.foldl (fun a x => tset 0 a (flitPos s g.outP g.wheel x) t) h
  modPort g.outP (fun q => { q with held := mark q.held }) s

/-- The segments that a test names are released on this device. -/
def dropSegsIf (mine : ShareSeg → Bool) (s : State) : State :=
  let gone := s.fabric.segs.filter mine
  let s1 := setFab { s.fabric with segs := s.fabric.segs.filter fun g => !mine g } s
  gone.foldl (fun b g => if g.outP < 6 then showShare g.outP (markPos g 0 b) else b) s1

/-- The segments of tenancy t with ends a and d are released on this device. -/
def dropSegs (t a d : Nat) (s : State) : State :=
  dropSegsIf (fun g => g.ten == t && ((g.a == a && g.d == d) || (g.a == d && g.d == a))) s

/-- A segment is reserved on this device, in place of an earlier one of the same direction; for tenancy t it is two flit buffers as
well (R255). -/
def putSeg (g : ShareSeg) (s : State) : State :=
  let s0 := dropSegsIf (fun x => x.ten == g.ten && x.a == g.a && x.d == g.d) s
  let s1 := setFab { s0.fabric with segs := s0.fabric.segs ++ [g] } s0
  if g.outP < 6 then showShare g.outP (markPos g g.ten s1) else s1

/-- Flit buffers that the shares across this device reserve for a tenancy: 2 for each share (R255). -/
def shareBuffers (s : State) (t : Nat) : Nat :=
  2 * ((s.fabric.segs.filter fun g => g.ten == t && g.inP != 6 && g.outP != 6).map fun g => (min g.a g.d, max g.a g.d)).eraseDups.length

/-! ## Clerk-to-Clerk messages (Table 9.5) -/

/-- A message's code. -/
def msgCode : Msg → Nat
  | .joinReport _ => 1
  | .tables _ => 2
  | .tablesAck _ _ => 3
  | .commit _ _ => 4
  | .sharePlace _ => 5
  | .shareAck _ _ _ => 6
  | .sealQuery _ _ _ => 7

/-- The eight bytes of a message that land in page 258 (log entry 32): its first field. -/
def msgWord : Msg → Nat
  | .joinReport r => r.uid
  | .tables t => t.epoch
  | .tablesAck e _ => e
  | .commit e b => e * 2 ^ 32 + b % 2 ^ 32
  | .sharePlace g => g.ten
  | .shareAck t d o => t + d * 2 ^ 16 + o * 2 ^ 24
  | .sealQuery t r y => t + r.toNat * 2 ^ 16 + y.toNat * 2 ^ 17

/-- A message goes towards the captain: a member's answers and reports. -/
def upMsg : Msg → Bool
  | .joinReport _ | .tablesAck _ _ | .shareAck _ _ _ => true
  | _ => false

/-- The unique ID that a device ID stands for in a message of the captain before the commit. -/
def uidOf (s : State) (d : Nat) : Msg → Option Nat
  | .tables t => (t.members.find? fun e => e.1 == d).map (·.2)
  | _ => (s.fabric.staged.or s.fabric.table).bind fun t => (t.members.find? fun e => e.1 == d).map (·.2)

/-- The port of a message before the first commit: over the parent port towards the captain, and back by the port that the member's
report came by (R234). -/
def relayPort (s : State) (d : Nat) (m : Msg) : Option Nat :=
  if upMsg m ∧ rdB s fabIdCaptain = false then s.fabric.parent
  else (uidOf s d m).bind fun u => (tfind s.fabric.relay u).or ((upPorts s).find? fun k => rd s (fabPortNbUidUid k) == u)

/-- A message that goes hop by hop is at its end: the captain for a report or an answer, else the member it names. -/
def relayDone (s : State) (d : Nat) (m : Msg) : Bool :=
  if upMsg m then rdB s fabIdCaptain else uidOf s d m == some s.chip.uid

/-- One hop of a message before the first commit. -/
def relayMsg (p : Pkt) (m : Msg) (s : State) : State :=
  match relayPort s p.dest m with
  | some k => if canSend s k p.vc then putOut k p s else waitPkt p s
  | none => waitPkt p s

/-! ## Sending -/

/-- A packet of this device starts (R245, R252, R256): a sealed tenancy's in its share; before the first commit, a
message over the parent port. A request without a route stays unsent until it completes with an error. -/
def sendPkt (p0 : Pkt) (s : State) : State :=
  let p := { p0 with src := myId s, epoch := rd s fabIdEpoch, vc := pktVc p0.kind, esc := 0 }
  match if p.mgmt || p.removal then none else shareSeg s p.tag p.dest with
  | some g => sendAnyPos g p s
  | none =>
    if hasRoute s p.dest then routeOne p s
    else match p.msg with
    | some m => relayMsg p m s
    | none => if p.kind < 0x10 then s else waitPkt p s

/-- A Clerk-to-Clerk message of Table 9.5 to device d. -/
def sendMsg (d : Nat) (m : Msg) (s : State) : State :=
  sendPkt { dest := d, src := 0, kind := 0x40, op := msgCode m, data := msgWord m, mgmt := true, msg := some m } s

/-- A share by tenancy and ends, in either order. -/
def shareKey (t a d : Nat) : Nat := t * 4096 + min a d * 64 + max a d
def keyOfShare (h : Share) : Nat := shareKey h.ten h.a h.d

/-- The device that is captain, by the table in force. -/
def captainId (s : State) : Nat := match s.fabric.table with
  | some t => t.captain
  | none => myId s

/-- At the captain a share's flit positions are free, and every other device of its paths is told to release them (R256). -/
def dropLanes (t a d : Nat) (s : State) : State :=
  let mine := fun (u : Nat × Nat × Nat × Nat) => u.2.2.2 == shareKey t a d
  let devs := ((s.fabric.lanesOf.filter mine).map (·.1)).eraseDups.filter (· != myId s)
  let s1 := dropSegs t a d (setFab { s.fabric with lanesOf := s.fabric.lanesOf.filter (fun u => !mine u) } s)
  devs.foldl (fun b x => sendMsg x (.sharePlace { ten := t, a := a, d := d, inP := 7, outP := 7, wheel := 820, pos := [] }) b) s1

/-- The captain takes a share out of its book and releases what it held. -/
def freeLanes (t a d : Nat) (s : State) : State :=
  dropLanes t a d (setFab { s.fabric with book := s.fabric.book.filter fun h => keyOfShare h != shareKey t a d } s)

/-- A share of this device ends (R256): both ends are told, the peer by a message, and the captain frees what it held. -/
def endShare (h : Share) (s : State) : State :=
  let peer := if h.a = myId s then h.d else h.a
  let b := dropSegs h.ten h.a h.d (setFab { s.fabric with shares := s.fabric.shares.filter (· != h) } s)
  let c := if rdB s fabIdCaptain then freeLanes h.ten h.a h.d b
    else if captainId s = peer then b else sendMsg (captainId s) (.shareAck h.ten peer 1) b
  sealNotice h.ten 0x0008 [(0x18, 1, peer), (0x19, 1, h.k), (0x1A, 1, 1)] (sendMsg peer (.shareAck h.ten peer 1) c)

/-- The shares of tenancy t end on this device. -/
def releaseShares (t : Nat) (s : State) : State :=
  (s.fabric.shares.filter fun h => h.ten == t && (h.a == myId s || h.d == myId s)).foldl (fun a h => endShare h a) s

/-! ## Request trackers (R244, R248) -/

/-- The response of a request: data, poison, Ack or Err. -/
def respPkt (p : Pkt) (kind op data : Nat) : Pkt :=
  { dest := p.src, src := 0, kind := kind, op := op, xid := p.xid, tag := p.tag, pa := p.pa, size := p.size, data := data,
    poison := kind == 0x30 && op == 1 }

/-- The home's answer is sent and kept until the completion Ack. -/
def finishTrk (p : Pkt) (kind op data : Nat) (s : State) : State :=
  let r := respPkt p kind op data
  let ts := s.fabric.trackers.map fun t => if t.req.src = p.src ∧ t.req.xid = p.xid then { t with resp := some r } else t
  sendPkt r (setFab { s.fabric with trackers := ts } s)

def trkOf (s : State) (src xid : Nat) : Option Trk := s.fabric.trackers.find? fun t => t.req.src == src && t.req.xid == xid

/-! ## Fabric directory and snoops of other devices (R249, R250) -/

def fabDirOf (s : State) (n line : Nat) : Option FabEnt := tfind (sliceOf s n).fabDir line

def putFabDir (n line : Nat) (e : FabEnt) (s : State) : State :=
  let r := sliceOf s n
  setSlice n { r with fabDir := if e.devs.isEmpty then tdel r.fabDir line else tput r.fabDir line e } s

/-- A device whose completion Ack for the line has not arrived is not snooped (R250). -/
def ackOwed (s : State) (dev line : Nat) : Bool :=
  s.fabric.trackers.any fun t => t.req.src == dev && t.req.pa / 64 == line && t.resp.isSome && t.req.kind != 5 && t.req.kind != 6

/-- A snoop to device dev, unless one is in flight or its Ack is owed. -/
def sendSnoop (dev line : Nat) (inv : Bool) (tag : Nat) (s : State) : State :=
  if (s.fabric.snoops.any fun q => q.dev == dev && q.line == line) || ackOwed s dev line then s
  else sendPkt { dest := dev, src := 0, kind := if inv then 0x10 else 0x11, tag := tag, pa := line * 64 }
    (setFab { s.fabric with snoops := s.fabric.snoops ++ [⟨dev, line, inv, tag, beat s⟩] } s)

/-- Devices whose copies stand in the way of an access by device `who`, or by this device's own units (none). -/
def inWay (s : State) (n line : Nat) (excl : Bool) (who : Option Nat) : List Nat :=
  match fabDirOf s n line with
  | some e => if e.own || excl then e.devs.filter fun d => some d != who else []
  | none => []

/-- A core's pair is between its freeze and the end of its drain (R92, R97). -/
def coreFrozen (s : State) (core : Nat) : Bool := inSparing s (core / 2)

/-- A core gives up a line only with a write-data output in which an inverted bit is armed (R109): the comparator stops it (R91). -/
def outputTrips (s : State) (core line : Nat) : Bool :=
  invertArmed s (core / 2) && (tfind (coreOf s core).l2 line).any fun l => l.st == .m

/-- A core's line stays where it is: its pair is frozen, or would freeze on giving it up. -/
def coreHolds (s : State) (line core : Nat) : Bool := coreFrozen s core || outputTrips s core line

/-- A snoop that the access needs waits for the drain of a frozen pair (Table 4.2): the directory names one of its cores. -/
def heldByFrozen (s : State) (n line : Nat) (excl : Bool) : Bool :=
  match tfind (sliceOf s n).dir line with
  | some e => (e.excl || excl) && e.cores.any (coreHolds s line)
  | none => false

/-- The snoop of a modified line makes its pair present the data: where the inverted bit is armed, the pair freezes (R91, R109). -/
def snoopTrips (n line : Nat) (excl : Bool) (s : State) : State :=
  match tfind (sliceOf s n).dir line with
  | some e => if e.excl || excl then (e.cores.filter fun c => outputTrips s c line).foldl (fun a c => presentPair (c / 2) id a) s else s
  | none => s

/-- Snoop what stands in the way, here and on other devices; the access may go on when nothing does. -/
def clearWay (n line : Nat) (excl : Bool) (who : Option Nat) (s : State) : State :=
  let tag := ((fabDirOf s n line).map (·.tag)).getD 0
  (inWay s n line excl who).foldl (fun a d => sendSnoop d line excl tag a) (snoopTrips n line excl s)

def wayClear (s : State) (n line : Nat) (excl : Bool) (who : Option Nat) : Bool :=
  (inWay s n line excl who).isEmpty && !heldByFrozen s n line excl

/-- Entries of a set that a tag may hold: a sealed tenancy's shares reserve one way each (R255). -/
def fabWays (s : State) (n t : Nat) : Nat :=
  let res := s.fabric.shares.filter fun h => rdB s (llcPartSealed n h.ten) && (h.a == myId s || h.d == myId s)
  let own := (res.filter fun h => h.ten == t).length
  if own ≠ 0 then own else 8 - res.length

/-- Room for a new entry: with the set full, an entry that replacement chooses is invalidated first (R249). -/
def fabRoom (n line tag : Nat) (s : State) : State × Bool :=
  if (fabDirOf s n line).isSome then (s, true)
  else
    let shared := fun (t : Nat) => s.fabric.shares.any fun h => h.ten == t && rdB s (llcPartSealed n t)
    let same := (sliceOf s n).fabDir.filter fun e =>
      Config.fabSet e.1 % 4096 == Config.fabSet line % 4096 && (if shared tag then e.2.tag == tag else !shared e.2.tag)
    if same.length < fabWays s n tag then (s, true)
    else match same[freeVal same.length s]? with
      | some (k, _) => (clearWay n k true none (freeNext s), false)
      | none => (s, false)

end Sys2Proof.Machine
end

