-- ==== Sys2Proof/Machine/Flit.lean ====
section
/-! DEFINITION. Machine/Flit.lean: the 128 bytes of a flit as they stand on a link: header, payload, and the tag of AES-256-GCM or the
CRC-32C (R229, R234, Tables 9.3 and 9.4). Numbers hold byte 0 lowest. -/
namespace Sys2Proof.Machine

/-! ## CRC-32C -/

/-- One bit of the reflected CRC-32C. -/
def crcBit (c : Nat) : Nat := if c % 2 = 1 then c / 2 ^^^ 0x82F63B78 else c / 2

/-- One byte. -/
def crcByte (c b : Nat) : Nat := (List.range 8).foldl (fun x _ => crcBit x) (c ^^^ b % 256)

/-- CRC-32C of a byte string. -/
def crc32c (l : List Nat) : Nat := l.foldl crcByte 0xFFFFFFFF ^^^ 0xFFFFFFFF

/-! ## AES-256-GCM -/

/-- A number of n bytes with its bytes in reverse order. -/
def swapBytes (n v : Nat) : Nat := ofBytes (bytesOf n v).reverse

/-- Counter block i of a 96-bit nonce (SP 800-38D). -/
def gcmBlock (nonce i : Nat) : Nat := swapBytes 16 (nonce % 2 ^ 96 * 2 ^ 32 + i % 2 ^ 32)

/-- n bytes under the key stream. -/
def gcmStream (key nonce n v : Nat) : Nat :=
  ((List.range ((n + 15) / 16)).map fun j => (v / 2 ^ (128 * j) % 2 ^ 128 ^^^ aes256 key (gcmBlock nonce (j + 2))) * 2 ^ (128 * j)).sum % 2 ^ (8 * n)

/-- The blocks of n bytes, the last one filled with zeros. -/
def gcmBlocks (n v : Nat) : List Nat := (List.range ((n + 15) / 16)).map fun j => v % 2 ^ (8 * n) / 2 ^ (128 * j) % 2 ^ 128

/-- The tag over authenticated data of na bytes and ciphertext of nc bytes. -/
def gcmTag (key nonce na aad nc ct : Nat) : Nat :=
  ghash (aes256 key 0) (gcmBlocks na aad ++ gcmBlocks nc ct ++ [swapBytes 16 (8 * na * 2 ^ 64 + 8 * nc)]) ^^^ aes256 key (gcmBlock nonce 1)

/-! ## The flit -/

/-- Bytes 0 to 7 (Table 9.3). -/
def flitHeader (f : TxFlit) : Nat :=
  f.seq % 4096 + f.ackSeq % 4096 * 2 ^ 12 + f.ackValid.toNat * 2 ^ 24 + f.nak.toNat * 2 ^ 25 + f.kind % 8 * 2 ^ 26 + f.vc % 8 * 2 ^ 29 +
    (f.credits.zipIdx.map fun (c, v) => c % 32 * 2 ^ (32 + 5 * v)).sum

/-- The payload of a hello (Table 9.4). -/
def helloBytes (h : HelloMsg) : Nat :=
  h.uid % 2 ^ 64 + h.bestUid % 2 ^ 64 * 2 ^ 64 + h.captain % 2 ^ 64 * 2 ^ 128 + h.epoch % 2 ^ 32 * 2 ^ 192 + h.bestHops % 256 * 2 ^ 224 +
    (h.devId % 64 + h.idHeld.toNat * 64 + h.idFixed.toNat * 128) * 2 ^ 232 +
    (h.eligible.toNat + h.port % 8 * 2 + h.variant % 16 * 16) * 2 ^ 240 + h.members % 2 ^ 64 * 2 ^ 256

/-- Slots of 16 bytes that a packet takes: 5 with a line, else 1. -/
def pktSlots (p : Pkt) : Nat := if p.kind = 4 ∨ p.kind = 5 ∨ p.kind = 8 ∨ p.kind = 0x30 then 5 else 1

/-- Bytes 8 to 119 before encryption. -/
def flitPayload (f : TxFlit) : Nat :=
  (match f.hello, f.notice, f.step with
    | some h, _, _ => helloBytes h
    | none, some (d, p, b), _ => Config.noticeBytes d p b
    | none, none, some n => Config.keyingBytes n
    | none, none, none => if f.pkts = [] then 0 else Config.slotBytes f.pkts) % 2 ^ 896

/-- The nonce: the direction bit, then the 95-bit count of flits sent. -/
def flitNonce (dir : Nat) (f : TxFlit) : Nat := dir % 2 * 2 ^ 95 + f.count % 2 ^ 95

/-- The direction bit of what this device sends on port k. DESIGN CHOICE (log entry 43): 0 from the device with the lower unique ID. -/
def linkDir (s : State) (k : Nat) : Nat := if s.chip.uid < rd s (fabPortNbUidUid k) then 0 else 1

/-- Bytes 8 to 119 on the link: encrypted in kinds 1 to 4. -/
def flitBody (dir : Nat) (f : TxFlit) : Nat :=
  match f.key with
  | some n => gcmStream (Config.linkKey n) (flitNonce dir f) 112 (flitPayload f)
  | none => flitPayload f

/-- Bytes 120 to 127: the tag, cut to 64 bits, or the CRC-32C over bytes 0 to 119. -/
def flitTrailer (dir : Nat) (f : TxFlit) : Nat :=
  match f.key with
  | some n => gcmTag (Config.linkKey n) (flitNonce dir f) 8 (flitHeader f) 112 (flitBody dir f) % 2 ^ 64
  | none => crc32c (bytesOf 120 (flitHeader f + flitPayload f * 2 ^ 64))

/-- The flit on the link. -/
def flitBytes (dir : Nat) (f : TxFlit) : Nat := flitHeader f + flitBody dir f * 2 ^ 64 + flitTrailer dir f * 2 ^ 960

end Sys2Proof.Machine
end

