-- ==== Sys2Proof/Machine/Train.lean ====
section
/-! DEFINITION. Machine/Train.lean: training of the channels (R139 to R145, R153, R154), mirroring, the DRAM map and lent
ranges (R188, R283, R460), the fill (R195), self-refresh (R171, R172). -/
namespace Sys2Proof.Machine

/-! ## Leaving a channel out (R140) -/

/-- Failure code of a training step (Table 6.4). Step 1 has two codes there; its timeout or failure is reported as 0x01
(DESIGN CHOICE, log entry 37). -/
def trainCode (step : Nat) : Nat := if step = 1 then 1 else step + 1

/-- The channel is left out: state, code, the time its training took, record. -/
def leaveOut (c code : Nat) (s : State) : State :=
  recContained (nextSlice s) 3 c 0x030A 0 [code] (wr (mcTrainTimeBeats c) (beat s - (chanOf s c).trainStart)
    (wr (mcStatusState c) 6 (wr (mcStatusFailCode c) code s)))

/-- Timeout of a training step in ms (Table 6.4). -/
def trainLimitMs (step : Nat) : Nat :=
  match step with
  | 1 => 50
  | 2 => 200
  | 3 => 100
  | 4 => 300
  | 5 => 150
  | 6 => 400
  | 7 => 250
  | _ => 50

/-- Organizations of Table 6.1: ranks, stack, density; the highest speed of each. -/
def dimmTop (d : DimmSpd) : Option Nat :=
  let cap := (if d.density = 1 then 32 else if d.density = 2 then 48 else 64) * d.ranks * 2 ^ chipBits d.stack
  if d.density < 1 ∨ 3 < d.density ∨ d.capGb ≠ cap then none
  else if (d.ranks = 1 ∨ d.ranks = 2) ∧ d.stack = 0 then some 8000
  else if d.ranks = 2 ∧ d.stack = 1 then some 6400
  else if d.ranks = 2 ∧ d.stack = 2 ∧ d.density = 1 then some 5600
  else none

/-- The listed speeds. -/
def listedSpeeds : List Nat := [8000, 7200, 6400, 5600, 4800]

/-- Channels still in training. -/
def trainingChans (s : State) : List Nat := (presentChans s).filter fun c => rd s (mcStatusState c) == 1

/-- The one speed of R140: the highest listed speed that the SPD and the organization of every channel still in
training and the cap of the board permit; 4800 where they permit none together (DESIGN CHOICE, log entry 37). -/
def commonSpeed (s : State) : Nat :=
  let ok := fun v => decide (v ≤ s.boot.board.speedMax) && (trainingChans s).all fun c =>
    match (chanOf s c).dimm with
    | some d => d.speeds.contains v && decide (v ≤ (dimmTop d).getD 0)
    | none => false
  (listedSpeeds.find? ok).getD 4800

/-- When no channel is in step 1 any more, the speed of this start-up is settled, once, and every channel takes it. -/
def setSpeed (s : State) : State :=
  if s.mem.speed = 0 ∧ (trainingChans s).all (fun c => rd s (mcStatusStep c) != 1) then
    let v := commonSpeed s
    (trainingChans s).foldl (fun a c => wr (mcDimmSpeed c) v a) (setMem { s.mem with speed := v } s)
  else s

/-! ## Eyes (R145) -/

/-- A run of passing steps: its first step and its length. -/
structure Run where
  left : Nat := 0
  len  : Nat := 0
  deriving DecidableEq, Repr

/-- Longest run of passing steps from step i on; `cur` is the run under way. `late` says which of two equally long
runs counts, which the spec leaves open. -/
def longestRun (eye : Nat) (late : Bool) : Nat → Nat → Run → Run → Run
  | 0, _, _, best => best
  | n + 1, i, cur, best =>
    if eye / 2 ^ i % 2 = 1 then
      let cur1 : Run := if cur.len = 0 then ⟨i, 1⟩ else ⟨cur.left, cur.len + 1⟩
      longestRun eye late n (i + 1) cur1 (if best.len < cur1.len ∨ (late ∧ best.len = cur1.len) then cur1 else best)
    else longestRun eye late n (i + 1) {} best

/-- The eye of a 128-step sweep. -/
def eyeOf (late : Bool) (eye : Nat) : Run := longestRun eye late 128 0 {} {}

/-- Centre of an eye. -/
def Run.centre (r : Run) : Nat := (r.left + (r.left + r.len - 1)) / 2

/-- The delay keeps 6 steps on each side of it in the eye. -/
def Run.spare (r : Run) (d : Nat) : Bool := decide (r.left + 6 ≤ d) && decide (d + 6 ≤ r.left + r.len - 1)

/-- Delay and eye width of nibble n (rank * 20 + sub * 10 + device); none is failure 0x0A. -/
def nibbleOf (late : Bool) (ranks : Nat) (eyes : List Nat) (n : Nat) : Option (Nat × Nat) :=
  let r := eyeOf late (eyes[n]?.getD 0)
  let q := eyeOf late (eyes[(n + 20) % 40]?.getD 0)
  if ranks = 2 then
    let d := (r.centre + q.centre) / 2
    if 12 ≤ r.len ∧ 12 ≤ q.len ∧ r.spare d ∧ q.spare d then some (d, r.len) else none
  else if 12 ≤ r.len then some (r.centre, r.len) else none

/-- A step with its sweep points passed; the next begins. -/
def nextStep (c : Nat) (s : State) : State :=
  wr (mcStatusStep c) (rd s (mcStatusStep c) + 1) (wr (mcStatusProgress c) 0 (modChan c (fun x => { x with stepStart := beat s }) s))

/-- The delays of a sweep of step 4 (reads) or 6 (writes). An eye of all 128 steps leaves 0 in its 7-bit width field (DESIGN
CHOICE, log entry 37). -/
def applySweep (c step : Nat) (eyes : List Nat) (s : State) : State :=
  let ranks := rd s (mcDimmRanks c)
  let late := freeVal 2 s == 1
  let ns := List.range (20 * ranks)
  if ns.all fun n => (nibbleOf late ranks eyes n).isSome then
    nextStep c (ns.foldl (fun a n =>
      match nibbleOf late ranks eyes n with
      | some (d, w) =>
        if step = 4 then wr (mcNibbleRdDelay c n) d (wr (mcNibbleRdWidth c n) w a)
        else wr (mcNibbleWrDelay c n) d (wr (mcNibbleWrWidth c n) w a)
      | none => a) (freeNext s))
  else leaveOut c 0x0A (wr (mcStatusProgress c) 128 (freeNext s))

/-! ## The grid (R153, R154) -/

def ceilDiv (a b : Nat) : Nat := (a + b - 1) / b

/-- One slot in units of ps times MT/s. -/
def slotUnit : Nat := 16000000

structure GridLen where
  slots   : Nat
  pre     : Nat
  post    : Nat
  spacing : Nat
  window  : Nat
  deriving DecidableEq, Repr

/-- The lengths of R153 for a DIMM at speed v. -/
def gridLen (d : DimmSpd) (v : Nat) : GridLen :=
  let quiet := max (d.tRAS * v) ((d.tCWL + d.tWR) * v + slotUnit)
  { slots := v / 16
    pre := ceilDiv (quiet + (d.tRP + d.tRCD + d.tCL) * v - slotUnit) slotUnit
    post := ceilDiv ((d.tWR + d.tRP - 2000) * v) slotUnit
    spacing := roundUp 5 (ceilDiv (3 * slotUnit + (d.tWR + d.tRP + d.tCL + d.tRCD) * v) slotUnit)
    window := roundUp 5 (ceilDiv (quiet + (d.tRP + d.tRFC) * v) slotUnit) }

/-- sel_lead in ps; where the slot is no whole number of ps, the spec does not state the rounding and `up` decides. -/
def selLeadPs (d : DimmSpd) (v : Nat) (up : Bool) : Nat :=
  d.tCL + d.tRCD + 10000 - (if up then slotUnit / v else ceilDiv slotUnit v)

/-- First slot of a role's refresh window. -/
def windowStart (s ranks r : Nat) : Nat := roundDown 5 (r * s / ranks)

/-- Blocks at positions k and p of a frame of s slots share a slot. -/
def meets (s k p : Nat) : Bool :=
  (List.range 5).any fun i => (List.range 5).any fun j => (k + i) % s == (p + j) % s

/-- The placing loop of R154 for one role; the fuel exceeds the positions a frame can have. -/
def placeRole (g : GridLen) (r limit : Nat) : Nat → Nat → List (Nat × Nat) → List (Nat × Nat)
  | 0, _, l => l
  | n + 1, k, l =>
    if k + 5 + g.post ≤ limit then
      placeRole g r limit n (k + g.spacing)
        (if l.any fun p => meets g.slots k p.1 then l else l ++ [(k % g.slots, r)])
    else l

/-- Insert by position. -/
def insertPos (x : Nat × Nat) : List (Nat × Nat) → List (Nat × Nat)
  | [] => [x]
  | y :: r => if x.1 < y.1 then x :: y :: r else y :: insertPos x r

/-- The blocks of a subchannel in ascending position, at most 32 (R154). -/
def gridBlocks (g : GridLen) (ranks : Nat) : List (Nat × Nat) :=
  let all := (List.range ranks).foldl (fun l r =>
    let ws := windowStart g.slots ranks r
    placeRole g r (ws + g.slots) 128 (roundUp 5 (ws + g.window + g.pre)) l) []
  (all.foldl (fun l x => insertPos x l) []).take 32

/-- Report the grid in MC_SLOT_GRID, MC_SEL_LEAD and MC_SEAL_BLOCK of both subchannels. -/
def reportGrid (c : Nat) (d : DimmSpd) (s : State) : State :=
  let v := rd s (mcDimmSpeed c)
  let g := gridLen d v
  let bl := gridBlocks g d.ranks
  let s1 := wr (mcSlotGridSlots c) g.slots (wr (mcSlotGridPre c) g.pre (wr (mcSlotGridPost c) g.post
    (wr (mcSlotGridSpacing c) g.spacing (wr (mcSlotGridWindow c) g.window (wr (mcSlotGridBlocks c) bl.length
      (wr (mcSelLeadSelLeadPs c) (selLeadPs d v (freeVal 2 s == 1)) (freeNext s)))))))
  bl.zipIdx.foldl (fun a (x, i) =>
    [i, i + 32].foldl (fun b n => wr (mcSealBlockPosition c n) x.1 (wr (mcSealBlockRole c n) x.2
      (wr (mcSealBlockValid c n) 1 b))) a) s1

/-! ## Training steps (R144) -/

/-- Repairs of the listed rows before the fill (R193); `bad` are the rows that find no resource. -/
def startRepairs (c : Nat) (bad : List Nat) (s : State) : State :=
  let l := (chanOf s c).repair.zipIdx.map fun (r, i) => { r with bad := bad.contains i }
  let good := (l.filter fun r => !r.bad).length
  let kept := if s.boot.board.hppr then l.filter (·.bad) else l
  let s1 := if s.boot.board.hppr then bump (mcRepairHard c) good s else bump (mcRepairSoft c) good s
  wr (mcRepairListed c) kept.length (wr (mcRepairUnrepairable c) (kept.filter (·.bad)).length
    (modChan c (fun x => { x with repair := kept }) s1))

/-- Training of a channel begins at a step. -/
def startTraining (c step : Nat) (s : State) : State :=
  wr (mcStatusState c) 1 (wr (mcStatusFailCode c) 0 (wr (mcStatusStep c) step (wr (mcStatusProgress c) 0
    (wr (mcDriftStatusMaxDrift c) 0 (modChan c (fun x => { x with
      trainStart := beat s, stepStart := beat s, trained := false, drift := [], driftAt := [], rdDue := [] }) s)))))

/-- What the SPD gives (R139): the DIMM, or none when it is no registered DIMM of x4 devices with ECC, is not in Table 6.1, or
permits no listed speed under its SPD (R140). -/
def spdOf (f speeds : List Nat) : Option DimmSpd :=
  match f with
  | [kind, width, ecc, ranks, stack, density, cap, tRAS, tCWL, tWR, tRP, tRCD, tCL, tRFC] =>
    let d : DimmSpd := { ranks, stack, density, capGb := cap, speeds, tRAS, tCWL, tWR, tRP, tRCD, tCL, tRFC }
    if kind = 1 ∧ width = 4 ∧ ecc = 1 ∧ (dimmTop d).isSome ∧ listedSpeeds.any speeds.contains then some d else none
  | _ => none

/-- A training step or sweep point ends (R144, R145, R153, R154, R193). -/
def trainingStepDone (c : Nat) (r : TrainRep) (s : State) : State :=
  if rd s (mcStatusState c) ≠ 1 ∨ (chanOf s c).trained then s
  else
    let step := rd s (mcStatusStep c)
    match r with
    | .fail => setSpeed (leaveOut c (trainCode step) s)
    | .point => if step = 4 ∨ step = 6 then bump (mcStatusProgress c) 1 s else s
    | .spd present f speeds =>
      if step ≠ 1 then s
      else if present = false then setSpeed (leaveOut c 0x01 s)
      else match spdOf f speeds with
        | none => setSpeed (leaveOut c 0x02 s)
        | some d =>
          setSpeed (nextStep c (wr (mcDimmRanks c) d.ranks (wr (mcDimmStack c) d.stack (wr (mcDimmDensity c) d.density
            (wr (mcDimmCapacityGb c) d.capGb (modChan c (fun x => { x with dimm := some d }) s))))))
    | .sweep eyes =>
      if step = 4 ∨ step = 6 then
        applySweep c step eyes s
      else s
    | .ok bad =>
      if step = 2 ∨ step = 3 ∨ step = 5 ∨ step = 7 then nextStep c s
      else if step = 8 then
        match (chanOf s c).dimm with
        | some d =>
          let back := fun (a : State) => if s.mem.locked then wr (mcStatusState c) 3 a else a
          back <| startRepairs c bad (reportGrid c d (wr (mcTrainTimeBeats c) (beat s - (chanOf s c).trainStart)
            (modChan c (fun x => { x with trained := true }) s)))
        | none => s
      else s

/-- TRAINING_STEP_DONE (R139, R140, R144, R145, R153, R154). -/
def execTrainingStepDone (c : Nat) (r : TrainRep) (s : State) : Host.Outcome State Fault Refusal :=
  .next (trainingStepDone c r s)

/-- TRAINING_TIMEOUT (R140, R144): the running step has exceeded its timeout. -/
def execTrainingTimeout (c : Nat) (s : State) : Host.Outcome State Fault Refusal :=
  let step := rd s (mcStatusStep c)
  .next (if rd s (mcStatusState c) = 1 ∧ (chanOf s c).trained = false
      ∧ trainLimitMs step * 1000 < beat s - (chanOf s c).stepStart then setSpeed (leaveOut c (trainCode step) s)
    else s)

/-! ## Mirroring and the DRAM map (R188, R283, R460) -/

/-- Map channels: present and not left out (R460). -/
def mapChans (s : State) : List Nat := (presentChans s).filter fun c => rd s (mcStatusState c) != 6

/-- The DIMMs of a configured pair allow mirroring (R188). -/
def pairMirrors (s : State) (k : Nat) : Bool :=
  let m := mapChans s
  m.contains (2 * k) && m.contains (2 * k + 1) &&
    (match (chanOf s (2 * k)).dimm, (chanOf s (2 * k + 1)).dimm with
     | some a, some b => a.ranks == b.ranks && a.stack == b.stack && a.density == b.density && a.capGb == b.capGb
     | _, _ => false)

/-- Decide mirroring pair by pair. -/
def decideMirror (s : State) : State :=
  (List.range 8).foldl (fun a k =>
    let want := s.boot.board.mirror / 2 ^ k % 2 == 1
    let ok := want && pairMirrors s k
    [2 * k, 2 * k + 1].foldl (fun b c =>
      if chanPresent s c then
        wrB (mcMirrorEnabled c) ok (wr (mcMirrorPartner c) (if ok then c ^^^ 1 else 0) (wr (mcMirrorDegraded c) 0
          (modChan c (fun x => { x with mirrorNo := want && !ok }) b)))
      else b) a) s

/-- Members of the map, named by the lower channel of a mirrored pair (R460). -/
def mapMembers (s : State) : List Nat := (mapChans s).filter fun c => !(mirrored s c && c % 2 == 1)

/-- Installed capacity of a channel in 4 KB blocks. -/
def capBlocks (s : State) (c : Nat) : Nat := rd s (mcDimmCapacityGb c) * 2 ^ 18

/-- A dram_map key is well formed (R460). -/
def mapOk (s : State) (l : List (Nat × Nat × Nat)) : Bool :=
  decide (1 ≤ l.length) && decide (l.length ≤ 16) &&
  l.all (fun (b, z, m) => b % 4096 == 0 && z % 4096 == 0 && z != 0 && decide (b + z ≤ 0x040000000000) && m != 0 &&
    decide (m < 2 ^ 16) && (List.range 16).all fun c => m / 2 ^ c % 2 == 0 || chanPresent s c) &&
  (l.zipIdx.all fun (x, i) => l.zipIdx.all fun (y, j) =>
    i == j || decide (x.1 + x.2.1 ≤ y.1) || decide (y.1 + y.2.1 ≤ x.1))

/-- Members named by a mask: left-out channels cleared, mirrored pairs by their member. -/
def maskMembers (s : State) (m : Nat) : List Nat :=
  (mapMembers s).filter fun c => m / 2 ^ c % 2 == 1 || (mirrored s c && m / 2 ^ (c + 1) % 2 == 1)

/-- Insert a range by base. -/
def insertRange (x : MapRange) : List MapRange → List MapRange
  | [] => [x]
  | y :: r => if x.base < y.base then x :: y :: r else y :: insertRange x r

/-- Blocks of a channel already used by ranges. -/
def usedBlocks (l : List MapRange) (c : Nat) : Nat := (l.map (blocksOn · c)).sum

/-- Most blocks a range over these members can have after the ranges before it. -/
def fitBlocks (s : State) (before : List MapRange) (ms : List Nat) : Nat :=
  let m := ms.length
  (ms.zipIdx.map fun (c, i) => (capBlocks s c - usedBlocks before c) * m + i).foldl min (2 ^ 60)

/-- Ranges in ascending base, each shortened to what fits, empty ones dropped. -/
def fitRanges (s : State) : List MapRange → List MapRange → List MapRange
  | before, [] => before
  | before, q :: r =>
    let n := min (q.size / 4096) (fitBlocks s before q.members)
    fitRanges s (if n = 0 then before else before ++ [{ q with size := n * 4096 }]) r

def mb256 : Nat := 0x10000000

/-- Installed local DRAM in bytes: the map channels' capacity, a mirrored pair counted once. -/
def installedBytes (s : State) : Nat := ((mapMembers s).map fun c => capBlocks s c * 4096).sum

/-- Size of the default range before lending. -/
def defaultSize (s : State) : Nat :=
  (((mapChans s).map (capBlocks s)).foldl min (2 ^ 60)) * 4096 * (mapMembers s).length

/-- Lent sizes after the limit of half the installed DRAM (R283): group, size, tenancy; a second group naming a
lending tenancy in use is refused. -/
def lendSizes (s : State) : List (Nat × Nat × Nat) :=
  (s.boot.board.lend.foldl (fun (a : List (Nat × Nat × Nat)) (x : Nat × Nat × Nat) =>
    let total := (a.map fun y => y.2.1).sum
    if a.any (fun y => y.2.2 == x.2.2 || y.1 == x.1) then a
    else a ++ [(x.1, min (roundDown mb256 x.2.1) (roundDown mb256 (installedBytes s / 2 - total)), x.2.2)]) [])

/-- Place one lent range after the map so far (R283), no channel beyond its capacity (R460). DESIGN CHOICE (log entry 44): lent ranges
follow a key of 16 ranges too; the limit of 16 is taken as one on the key. -/
def placeLent (s : State) (keyed : Bool) (a : List MapRange × List (Nat × Nat × Nat × Nat)) (x : Nat × Nat × Nat) :
    List MapRange × List (Nat × Nat × Nat × Nat) :=
  let ms := mapMembers s
  let start := roundUp mb256 ((a.1.map fun q => q.base + q.size).foldl max 0)
  let free := ((mapMembers s).map fun c => capBlocks s c - usedBlocks a.1 c).foldl min (2 ^ 60)
  let size := min (min (if keyed then min x.2.1 (roundDown mb256 (free * 4096 * ms.length)) else x.2.1)
    (roundDown mb256 (fitBlocks s a.1 ms * 4096))) (roundDown mb256 (0x040000000000 - start))
  if size = 0 then a else (a.1 ++ [⟨start, size, ms⟩], a.2 ++ [(x.1, start, size, x.2.2)])

/-- Create the lending tenancy: open, generation-0 keys, owner of every granule of its range; the group holds role 4 from
start-up, its domain switched on at the boundary before its port takes the role (R266, R283, R291). -/
def makeLender (group base size t : Nat) (s : State) : State :=
  let k := s.mem.nextKey
  let gr := (List.range (size / 2 ^ 21)).foldl (fun g i => tset 0 g (base / 2 ^ 21 + i) t) s.mem.granules
  let b := portBase group 0
  let s0 := wr (portLendLoBaseLo b) (base % 2 ^ 32) (wr (portLendHiBaseHi b) (base / 2 ^ 32) (wr (portLendSizeUnits b) (size / 2 ^ 28)
    (wr (portLendTenTenancy b) t s)))
  let s1 := addDue (beat s + 2) 9 (.portRole group 0 4) (addDue (beat s + 1) 4 (.switch (160 + group) true)
    { s0 with groups := tmod {} s.groups group (fun q => { q with role4 := true }) })
  setTenant t { tenantOf s t with st := .opened }
    { s1 with mem := { s.mem with granules := gr, nextKey := k + 1, lent := tput s.mem.lent group (base, size, t),
                                  keys := tset {} s.mem.keys t { gen0 := some k, cur := some 0 } } }

/-- The map as R460 and R283 build it. -/
def builtMap (s : State) : List MapRange × List (Nat × Nat × Nat × Nat) :=
  let key := s.boot.board.dramMap.getD []
  let keyed := mapOk s key
  let ls := lendSizes s
  let total := (ls.map fun x => x.2.1).sum
  let base : List MapRange :=
    if keyed then
      fitRanges s [] ((key.filterMap fun (b, z, m) =>
        let ms := maskMembers s m
        if ms.isEmpty then none else some ⟨b, z, ms⟩).foldl (fun l q => insertRange q l) [])
    else
      let z := if ls.isEmpty then defaultSize s else roundDown mb256 (defaultSize s - total)
      if z = 0 then [] else [⟨0, z, mapMembers s⟩]
  ls.foldl (placeLent s keyed) (base, [])

/-- DRAM_MAP_BUILD (R24, R188, R283, R460): mirroring, the map, lent ranges, and the fill of every map channel. The
platform's generation-0 key is key 0. -/
def buildMap (s : State) : State :=
  let s0 := decideMirror s
  let s1 := if optOk (mapOk s0) s0.boot.board.dramMap then s0 else event 13 [2] s0
  let (map, lent) := builtMap s1
  let s2 := setMem { s1.mem with map := map, locked := true, lent := [], granules := [], nextKey := 1,
                                 keys := tset {} [] 0 { gen0 := some 0, cur := some 0 } } s1
  let s3 := lent.foldl (fun a x => makeLender x.1 x.2.1 x.2.2.1 x.2.2.2 a) s2
  let s4 := s3.boot.board.lend.foldl (fun a x =>
    if lent.any fun y => y.1 == x.1 then a
    else if lent.any fun y => y.2.2.2 == x.2.2 then event 9 [x.1, x.2.2] a else a) s3
  (mapChans s4).foldl (fun a c => wr (mcStatusState c) 2 (wr (mcFillLinesDone c) 0
    (modChan c (fun x => { x with fillBegan := beat s, lines := [] }) a))) s4

/-! ## Fill (R195) -/

/-- Start of the patrol at the end of the fill (R198). -/
def startPatrol (c reason : Nat) (s : State) : State :=
  wr (mcPatrolRunning c) 1 (wr (mcPatrolReason c) reason
    (modChan c (fun x => { x with patrolAt := [], patrolPos := [], patrolBegan := beat s }) s))

/-- What the fill leaves in a bank's predictor: its writes are shared accesses (R147, R150), far more than 64 to a bank, but R195 gives
their order in part only, so which rows and outcomes they were is open. -/
def fillBank (n : Nat) : BankPred :=
  let f := fun (i m : Nat) => Config.freeNat (n + i) % m
  let ctr : Table Nat := (List.range 16).foldl (fun t h => tset 0 t h (f (3 + h) 4)) []
  let p : BankPred := { last := some (f 0 (2 ^ 28)), hist := f 1 16, used := f 1 16, count := 64, ctr := ctr }
  { p with opened := if 2 ≤ ctrOf p p.hist then p.last else none }

/-- The predictors and the counts of a channel after its fill; hits and misses together are its lines. -/
def fillPredict (c : Nat) (s : State) : State :=
  let ranks := ranksOf s c
  let chips := 2 ^ chipBits (rd s (mcDimmStack c))
  let here := (List.range 512).filter fun b => decide (b / 128 % 2 < ranks) && decide (b / 32 % 4 < chips)
  let hits := freeVal (chanLines s c + 1) s
  freeNext (bump (mcPredStatsHits c) hits (bump (mcPredStatsMisses c) (chanLines s c - hits)
    (modChan c (fun x => { x with banks := here.map fun b => (b, fillBank (s.freeCtr + b)) }) s)))

/-- The last line of the fill is written: every line holds zeros under the platform key, generation 0. -/
def fillComplete (c : Nat) (s : State) : State :=
  if rd s (mcStatusState c) = 2 then
    startPatrol c 1 (wr (mcStatusState c) 3 (wr (mcFillTimeBeats c) (beat s - (chanOf s c).fillBegan)
      (wr (mcFillLinesDone c) (chanLines s c) (fillPredict c (modChan c (fun x => { x with lines := [] }) s)))))
  else s

/-- FILL_COMPLETE (R195, R198). -/
def execFillComplete (c : Nat) (s : State) : Host.Outcome State Fault Refusal := .next (fillComplete c s)

/-! ## Self-refresh (R171, R172) -/

/-- Put a request among others in the order of arrival. -/
def insertSeq (q : DReq) : List DReq → List DReq
  | [] => [q]
  | x :: r => if q.seq < x.seq then q :: x :: r else x :: insertSeq q r

/-- Every queued request of a channel completes, in the order of arrival. -/
def drainQueues (c : Nat) (s : State) : State :=
  let r := chanOf s c
  let all := ([r.flight, r.queue, r.rt, r.sealedQ, r.outside].flatMap fun t => (t.map (·.2)).flatten).foldl (fun l q => insertSeq q l) []
  let s1 := modChan c (fun x => { x with queue := [], rt := [], sealedQ := [], outside := [], flight := [], retry := [], writeDrain := [] }) s
  all.foldl (fun a q =>
    match coord a (q.line * 64) with
    | none => a
    | some k =>
      let c' := if (copies a k.chan).contains c then c else k.chan
      let a1 := accessLine c' q a
      if q.write then performWrite c' q a1
      else let (b, v) := readLine (nextSlice a) q.line q.tag a1
        deliver q v b) s1

/-- A running catch-up issues its last refreshes, and a recovery its reissues, before the channel sleeps (R171). -/
def endRefreshes (c : Nat) (s : State) : State :=
  let s1 := (List.range (ranksOf s c)).foldl (fun a r => catchUpEnd c r 0 a) s
  [0, 1].foldl (fun a b => recoveryEnd c b 0 a) s1

/-- Entry into self-refresh (R171): requests and owed refreshes done, banks precharged. -/
def selfRefreshEnter (c : Nat) (s : State) : State :=
  if rd s (mcStatusState c) = 3 then
    wr (mcStatusState c) 4 (wr (mcRefresh0Owed c) 0 (wr (mcRefresh1Owed c) 0 (wr (mcRtStatusPanicFab c) 0
      (wr (mcRtStatusPanicCxl c) 0 (modChan c (fun x => { x with banks := x.banks.map fun (b, p) => (b, { p with opened := none }) })
        (drainQueues c (endRefreshes c s)))))))
  else s

/-- Rate of a rank as mode register 4 gives it after exit: owed and rem restart at 0 (R172). -/
def exitRate (c : Nat) (s : State) (r : Nat × Nat × Nat) : State :=
  let s1 := wr (refOwed c r.1) 0 (setRem c r.1 0 (wr (refRate c r.1) r.2.1 (wrB (refDoubled c r.1) (decide (r.2.2 < 1000)) s)))
  let known := (chanOf s1 c).beyond.contains r.1
  if r.2.2 < 500 then
    if known then s1
    else recContained (nextSlice s1) 3 c 0x030C 0 [] (modChan c (fun x => { x with beyond := r.1 :: x.beyond }) s1)
  else modChan c (fun x => { x with beyond := x.beyond.filter (· != r.1) }) s1

/-- Exit from self-refresh (R172): the rates read hold whether or not the recentring succeeds; a failed one enters training
from step 2. The grid starts again with the first whole frame. -/
def selfRefreshExit (c : Nat) (ok : Bool) (codes delays : List (Nat × Nat)) (s : State) : State :=
  if rd s (mcStatusState c) = 4 then
    let s1 := modChan c (fun x => { x with banks := [], catchDue := [], returnDue := [], refreshing := [], closed := [],
                                           catchUps := [], chosen := [], rdDue := [], mr4At := [],
                                           wholeFrom := beat s + 1 }) s
    let s2 := (codes.zipIdx.map fun (x, i) => (i, x)).foldl (exitRate c) s1
    if ok then
      wr (mcStatusState c) 3 (delays.zipIdx.foldl (fun a (d, n) =>
        wr (mcNibbleRdDelay c n) d.1 (wr (mcNibbleWrDelay c n) d.2 a)) s2)
    else startTraining c 2 s2
  else s

/-- SELF_REFRESH_EXIT (R151, R172). -/
def execSelfRefreshExit (c : Nat) (ok : Bool) (codes delays : List (Nat × Nat)) (s : State) :
    Host.Outcome State Fault Refusal := .next (selfRefreshExit c ok codes delays s)

end Sys2Proof.Machine
end

