-- ==== Sys2Proof/Machine/Cache.lean ====
section
/-! DEFINITION. Machine/Cache.lean: private L2s, slices, directories, victim recall, ordering of maintenance against
fills, and array errors (R111 to R127). -/
namespace Sys2Proof.Machine

/-! ## Requests that leave the device -/

/-- The packet of a request. -/
def outPkt (o : Out) : Pkt :=
  { dest := o.dev, src := 0, kind := o.kind, op := o.op, xid := o.xid, tag := o.tag, pa := o.pa, size := o.size, data := o.data,
    cmp := o.cmp, be := o.be, poison := o.poison, removal := o.removal, mgmt := o.mgmt }

/-- Send a request over the fabric or a CXL link (R248, R278). -/
def sendOut (o : Out) (s : State) : State :=
  let q := { o with xid := s.nextXid, sent := beat s, first := beat s }
  let s1 : State := { s with outs := s.outs ++ [q], nextXid := s.nextXid + 1 }
  if o.dev < 64 then sendPkt (outPkt q) s1 else s1

/-- The line lies in this device's home range (R21). -/
def ownLine (s : State) (line : Nat) : Bool := line / 2 ^ 40 == rd s fabIdDeviceId

/-- Where a line's home serves it: another device, or group g of this one as 64 + g. -/
def outDev (s : State) (line : Nat) : Nat :=
  if ownLine s line then 64 + (line % 2 ^ 40 * 64 - 0x040000000000) / 0x040000000000 else line / 2 ^ 40

/-- The line is in this device's own local DRAM range. -/
def ownDram (s : State) (line : Nat) : Bool :=
  ownLine s line && regionOf (line % 2 ^ 40 * 64) == .dram

/-- A request to a line that this device does not perform: the record names the channel of a local line, the port that a line in a
CXL.mem window is decoded to (port 0 where no decoder covers it), which counts it (R205, R281, R292). -/
def refuseLine (pa tag : Nat) (s : State) : State :=
  match regionOf (offOf pa) with
  | .dram => refuseGranule 3 ((coord s (offOf pa)).elim 0 (·.chan)) pa tag s
  | _ =>
    let g := (offOf pa - 0x040000000000) / 0x040000000000
    let n := hdmPort s g (offOf pa) % 4
    bump (portRefusedRefused (portBase g n)) 1 (refuseGranule 4 (g * 4 + n) pa tag s)

/-- Write a line back to its home (R111, R179): a request at its channel, or a packet; `poison` writes it as poison. -/
def writeBack (how : WrHow) (tag line data : Nat) (poison : Bool) (s : State) : State :=
  if ownDram s line then
    if granuleOk s (line % 2 ^ 40 * 64) tag false then
      dramWrite how (line % 2 ^ 40) tag data poison s
    else refuseLine (line * 64) tag s
  else sendOut { xid := 0, dev := outDev s line, kind := 5, pa := line * 64, tag := tag, data := data, poison := poison,
                 removal := how == .removal } s

/-- A write-back of this device's caches that no slice removal asks for. -/
def writeHome (tag line data : Nat) (poison : Bool) (s : State) : State := writeBack .plain tag line data poison s

/-! ## Home slice (R115, R116) -/

/-- Slice that is home to a bucket. -/
def bucketSlice (s : State) (b : Nat) : Nat :=
  match tget 0 s.mesh.moved b with
  | 0 => (s.mesh.base[b % max 1 s.mesh.base.length]?).getD 0
  | n + 1 => n

/-- Home slice of a line under a tag. -/
def homeSlice (s : State) (t line : Nat) : Nat :=
  if isSealed s t ∧ tget [] s.mesh.sealedHome t ≠ [] then ((tget [] s.mesh.sealedHome t)[bucketOf line % 64]?).getD 0
  else bucketSlice s (bucketOf line)

/-- Buckets of which a slice is home. -/
def bucketsOf (s : State) (n : Nat) : List Nat := (List.range 4096).filter fun b => bucketSlice s b == n

/-! ## Ways -/

/-- Ways of a mask, ascending. -/
def waysOf (m : Nat) : List Nat := (List.range 24).filter (inMask m)

def maskOf (l : List Nat) : Nat := l.eraseDups.foldl (fun m w => m + 2 ^ w) 0

/-- Tenancies that hold a sealed mask in slice n. -/
def partTenants (s : State) (n : Nat) : List Nat := (List.range 257).filter fun t => rdB s (llcPartSealed n t)

/-- Ways a tag may allocate in slice n (R118, R119): its own sealed ways that no other sealed mask names, or the shared
pool; never a locked way. A tenancy that is sealing allocates nowhere (R218). -/
def eligible (s : State) (n t : Nat) : List Nat :=
  let own := if isSealed s t ∧ rdB s (llcPartSealed n t) then
      (waysOf (rd s (llcPartWayMask n t))).filter fun w =>
        (partTenants s n).all fun u => u == t || !inMask (rd s (llcPartWayMask n u)) w
    else if isSealed s t || (tenantOf s t).st == .sealing then [] else waysOf (rd s (llcWaysSharedMask n))
  own.filter fun w => !inMask (rd s (llcWaysLockedMask n)) w

/-- Recompute the shared pool: every way named in no sealed mask (R118). -/
def sharedPool (n : Nat) (s : State) : State :=
  wr (llcWaysSharedMask n) (maskOf ((List.range 24).filter fun w =>
    (partTenants s n).all fun t => !inMask (rd s (llcPartWayMask n t)) w)) s

/-- Drop a mask's highest ways until 2 ways stay shared (R119). -/
def trimMask (s : State) (n t : Nat) : Nat → Nat → Nat
  | 0, m => m
  | k + 1, m =>
    let shared := (List.range 24).filter fun w =>
      !inMask m w && (partTenants s n).all fun u => u == t || !inMask (rd s (llcPartWayMask n u)) w
    if shared.length < 2 then trimMask s n t k (maskOf ((waysOf m).take ((waysOf m).length - 1))) else m

/-- A write of LLC_PART[t] of slice n takes effect (R119). -/
def applyPart (n t mask : Nat) (sealed : Bool) (s : State) : State :=
  let m := if sealed then trimMask s n t 24 mask else mask
  let s1 := sharedPool n (wr (llcPartWayMask n t) m (wrB (llcPartSealed n t) sealed s))
  match (waysOf m).find? fun w => sealed && (partTenants s1 n).any fun u => u != t && inMask (rd s1 (llcPartWayMask n u)) w with
  | some w => recContained (nextSlice s1) 2 n 0x020A 0 [w] s1
  | none => s1

/-! ## Private caches -/

def l2Of (s : State) (core line : Nat) : Option CLine := tfind (coreOf s core).l2 line

def putL2 (core line : Nat) (l : CLine) (s : State) : State :=
  let c := coreOf s core
  setCore core { c with l2 := tput c.l2 line l } s

/-- A line leaves a core: L2, L1I and a reservation on it (R55, R111). -/
def dropL2 (core line : Nat) (s : State) : State :=
  let c := coreOf s core
  let s1 := setCore core { c with l2 := tdel c.l2 line, l1i := c.l1i.filter (· != line), l1d := c.l1d.filter (· != line) } s
  match hartOfCore s1 (core / 2) (core % 2) with
  | some h =>
    let r := hartOf s1 h
    if r.resv = some line then setHart h { r with resv := none, wrs := .none } s1 else s1
  | none => s1

/-! ## Slice contents -/

/-- Dirty lines of a slice that are still to be written back, and its victims. -/
def Slice.dirtyLines (r : Slice) : Nat := (r.lines.filter (·.2.dirty)).length

/-- Store a slice's record; its occupancy registers follow, and while it drains what is left to drain (Table 5.5). -/
def putSlice (n : Nat) (r : Slice) (s : State) : State :=
  let s1 := wr (llcVictimOccupancy n) r.victims.length (wr (llcAmqOccupancy n) r.amq.length (setSlice n r s))
  if rd s (llcStatusState n) = 2 then
    wr (llcDrainLinesLeft n) r.dirtyLines (wr (llcDrainVictimsLeft n) r.victims.length s1)
  else s1

def arrOf (s : State) (n line : Nat) : Option SLine := tfind (sliceOf s n).lines line
def vicOf (s : State) (n line : Nat) : Option SLine := ((sliceOf s n).victims.find? fun e => e.1 == line).map (·.2)
def dirOf (s : State) (n line : Nat) : Option DirEnt := tfind (sliceOf s n).dir line

/-- A line stands in the data array; an older copy in the victim cache is no longer there (R122), and no place is kept for it. -/
def putArr (n line : Nat) (l : SLine) (s : State) : State :=
  let r := sliceOf s n
  putSlice n { r with lines := tput r.lines line l, victims := r.victims.filter (fun e => e.1 != line), parked := tset 0 r.parked line 0 } s

/-- Remove a line from the data array and the victim cache; the place of a locked line stays reserved (R124). -/
def dropArr (n line : Nat) (s : State) : State :=
  let r := sliceOf s n
  let place := match tfind r.lines line with
    | some l => if l.locked then l.way + 1 else tget 0 r.parked line
    | none => tget 0 r.parked line
  putSlice n { r with lines := tdel r.lines line, victims := r.victims.filter (fun e => e.1 != line), parked := tset 0 r.parked line place } s

def putDir (n line : Nat) (e : DirEnt) (s : State) : State :=
  let r := sliceOf s n
  setSlice n { r with dir := if e.cores.isEmpty then tdel r.dir line else tput r.dir line e } s

/-- A clean line of another device's range leaves this device: its home gets a notice (Table 9.9). -/
def evictNotice (n line tag : Nat) (s : State) : State :=
  if ownLine s line ∨ (tfind (sliceOf s n).dir line).isSome then s
  else sendOut { xid := 0, dev := outDev s line, kind := 6, pa := line * 64, tag := tag, origin := .evict n } s

/-- Dirty data of a line in the L2s its entry names. -/
def dirtyIn (s : State) (line : Nat) (cores : List Nat) : Option (Nat × Bool) :=
  cores.findSome? fun c => match l2Of s c line with
    | some l => if l.st = .m then some (l.data, l.poison) else none
    | none => none

/-- Invalidate every L2 copy that the directory names but core `keep`'s; the dirty data taken back. -/
def takeBack (n line : Nat) (keep : Option Nat) (s : State) : State × Option (Nat × Bool) :=
  match dirOf s n line with
  | none => (s, none)
  | some e =>
    let out := e.cores.filter fun c => some c != keep
    let s1 := out.foldl (fun a c => dropL2 c line a) s
    (putDir n line { e with cores := e.cores.filter fun c => some c == keep } s1, dirtyIn s line out)

/-! ## Errors met by a lookup (R127, Table 5.2) -/

/-- Class of a row: corrected, contained or visible. -/
def rowErrors (n row : Nat) (s : State) : State :=
  if row ≤ 3 then (if row = 1 then bump (llcErrCountDataCe n) 1 s else bump (llcErrCountDataUe n) 1 s)
  else if row ≤ 7 then bump (llcErrCountTagErr n) 1 s else bump (llcErrCountDirErr n) 1 s

def rowLast (n row line way tag : Nat) (s : State) : State :=
  wr (llcErrLastSet n) (setOf line) (wr (llcErrLastWay n) way (wr (llcErrLastTenancy n) tag
    (wr (llcErrLastKind n) row (wr (llcErrLastBeat n) (beat s) s))))

/-- The row that applies once it is known whether the line is dirty. -/
def rowOf (row : Nat) (dirty : Bool) : Nat :=
  if row = 2 ∨ row = 3 then (if dirty then 3 else 2)
  else if row = 4 ∨ row = 5 then (if dirty then 5 else 4) else row

/-- Open or sealed tenancies, and the platform. -/
def liveTenants (s : State) : List Nat :=
  0 :: (s.tenants.map (·.1)).filter fun t => (tenantOf s t).st != .free

/-- A fault that fences the slice is noted until the fence (R418); a further one before it is noted beside it. -/
def sliceFault (n row way : Nat) (ts : List Nat) (s : State) : State :=
  let r := sliceOf s n
  setSlice n { r with fault := r.fault ++ [(row, way, ts)] } s

/-- Every L2 line of a directory set is taken back with write-back (row 9); the slice's own older copy goes. A line of a frozen
pair waits for the drain that gives it up (R92). -/
def backInvalidate (n set : Nat) (s : State) : State :=
  ((sliceOf s n).dir.filter fun e => dirSetOf e.1 == set && !e.2.cores.any (coreHolds s e.1)).foldl (fun a e =>
    let (b, d) := takeBack n e.1 none a
    match d with
    | some (v, p) => writeHome e.2.tag e.1 v p (dropArr n e.1 b)
    | none => b) s

/-- The corrected line is written into the array, or its place in the victim cache (row 1). -/
def correctLine (n line : Nat) (s : State) : State :=
  match arrOf s n line with
  | some x => putArr n line { x with err := 0 } s
  | none =>
    let r := sliceOf s n
    setSlice n { r with victims := r.victims.map fun e => if e.1 = line then (e.1, { e.2 with err := 0 }) else e } s

/-- The last slice in service (R129). -/
def lastSlice (s : State) (n : Nat) : Bool :=
  (presentSlices s).all fun m => m == n || rd s (llcStatusState m) != 1

/-- An array error at a lookup of a line (Table 5.2). -/
def arrayError (n line tag row : Nat) (s : State) : State :=
  let found := arrOf s n line
  let l := (found.or (vicOf s n line)).getD { tag := tag, way := 0, dirty := false, locked := false, poison := false, data := 0 }
  let way := match found with | some x => x.way | none => if (vicOf s n line).isSome then 0x1F else 0
  let row := rowOf row l.dirty
  let s1 := rowLast n row line way l.tag (rowErrors n row s)
  let sl := nextSlice s
  match row with
  | 1 => recCorrected sl 2 n 0x0201 0 (correctLine n line s1)
  | 2 => recContained sl 2 n 0x0202 0 [way] (dropArr n line s1)
  | 3 => recVisible sl 2 n 0x0203 [l.tag] (line * 64) [way] n [way] (writeHome l.tag line 0 true (dropArr n line s1))
  | 4 => recContained sl 2 n 0x0204 0 [way] (dropArr n line s1)
  | 5 => sliceFault n 5 way [l.tag] (dropArr n line s1)
  | 6 => recCorrected sl 2 n 0x0206 0 s1
  | 7 =>
    let own := (partTenants s n).filter fun t => inMask (rd s (llcPartWayMask n t)) way
    sliceFault n 7 way (if own.isEmpty then liveTenants s |>.filter (fun t => !isSealed s t) else own) (dropArr n line s1)
  | 8 => recCorrected sl 2 n 0x0208 0 s1
  | 9 => let s2 := backInvalidate n (dirSetOf line) s1
         if lastSlice s n ∧ rd s (llcStatusState n) = 2 then s2 else sliceFault n 9 0 [] s2
  | _ => s

/-- Row of Table 5.2 that a held copy of a line shows when it is read; 0 for none. -/
def errRow (l : Option SLine) : Nat :=
  match l with
  | some l => if l.tagErr then 4 else if l.err = 1 then 1 else if l.err = 2 then 2 else 0
  | none => 0

/-- A copy that the slice holds is read, to be written back, moved or served: an error of it is met (R127). -/
def readHeld (n line : Nat) (s : State) : State :=
  let held := (arrOf s n line).or (vicOf s n line)
  match errRow held with
  | 0 => s
  | row => arrayError n line ((held.map (·.tag)).getD 0) row s

/-! ## Places (R118, R121 to R124) -/

/-- The oldest of 64 entries of the victim cache leaves it to make room, written back if dirty (R122); an error of it is met first,
which may take it away. -/
def ageVictim (n : Nat) (s : State) : State :=
  match (sliceOf s n).victims with
  | (line0, _) :: _ =>
    if (sliceOf s n).victims.length < 64 then s
    else
      let s1 := readHeld n line0 s
      match vicOf s1 n line0 with
      | some l0 =>
        let s2 := putSlice n { sliceOf s1 n with victims := (sliceOf s1 n).victims.filter fun e => e.1 != line0 } s1
        if l0.dirty then writeHome l0.tag line0 l0.data l0.poison s2 else evictNotice n line0 l0.tag s2
      | none => s1
  | [] => s

/-- A line enters the victim cache. -/
def toVictim (n line : Nat) (l : SLine) (s : State) : State :=
  let s1 := ageVictim n s
  putSlice n { sliceOf s1 n with victims := (sliceOf s1 n).victims ++ [(line, { l with locked := false })] } s1

/-- A way is named in the mask of a sealed tenancy. -/
def sealedWay (s : State) (n w : Nat) : Bool := (partTenants s n).any fun t => inMask (rd s (llcPartWayMask n t)) w

/-- A line displaced from its way (R121): lines of a sealed tenancy's ways never enter the victim cache, whoever put them
there. -/
def displace (n line : Nat) (l : SLine) (s : State) : State :=
  let s1 := dropArr n line s
  if isSealed s l.tag ∨ sealedWay s n l.way then (if l.dirty then writeHome l.tag line l.data l.poison s1 else s1) else toVictim n line l s1

/-- A line of the array that occupies way w of the set of `line`. -/
def occupant (s : State) (n line w : Nat) : Option (Nat × SLine) :=
  (sliceOf s n).lines.find? fun e => setOf e.1 == setOf line && e.2.way == w && e.1 != line

/-- Errors armed by LLC_INJECT fall on the next line written under tenancy tag 0 (Tables 5.5 and 17.4). -/
def armErrors (n : Nat) (l : SLine) (s : State) : State × SLine :=
  let r := sliceOf s n
  if l.tag = 0 then
    (setSlice n { r with injCe := false, injUe := false, injTag := false } s,
     { l with err := if r.injUe then 2 else if r.injCe then 1 else l.err, tagErr := r.injTag || l.tagErr })
  else (s, l)

/-- Write a line into a given way. -/
def intoWay (n line w : Nat) (l : SLine) (s : State) : State :=
  let s0 := match occupant s n line w with
    | some (k, _) => readHeld n k s
    | none => s
  let s1 := match occupant s0 n line w with
    | some (k, o) => displace n k o s0
    | none => s0
  let (s2, l2) := armErrors n { l with way := w } s1
  putArr n line l2 s2

/-- The way that a lock of the line's tenancy keeps for it, plus 1; 0 for none (R124). -/
def keptWay (s : State) (n line tag : Nat) : Nat :=
  if s.mesh.locks.any fun k => k.owner == tag && k.lines.contains line then tget 0 (sliceOf s n).parked line else 0

/-- Place a line in its set (R118, R123, R124, R128): its parked locked place, its present way, a free way, or a way
that replacement chooses, which the spec leaves open. Without a way a dirty line is written through to its home. -/
def placeLine (n line : Nat) (l : SLine) (s : State) : State :=
  match arrOf s n line with
  | some o => let (s1, l1) := armErrors n { l with way := o.way, locked := o.locked } s
              putArr n line l1 s1
  | none =>
    let through := fun (a : State) => if l.dirty then writeHome l.tag line l.data l.poison (dropArr n line a) else a
    if rd s (llcStatusState n) ≠ 1 then through s
    else
      match keptWay s n line l.tag with
      | w + 1 => intoWay n line w { l with locked := true } s
      | 0 =>
        let ways := eligible s n l.tag
        match ways.find? fun w => (occupant s n line w).isNone with
        | some w => intoWay n line w l s
        | none =>
          match ways[freeVal ways.length s]? with
          | some w => intoWay n line w l (freeNext s)
          | none => through s

/-! ## Directory (R111, R112) -/

/-- Dirty data taken from an L2 goes into the slice. -/
def keepDirty (n line tag : Nat) (d : Option (Nat × Bool)) (s : State) : State :=
  match d with
  | some (v, p) => placeLine n line { tag := tag, way := 0, dirty := true, locked := false, poison := p, data := v } s
  | none => s

/-- Directory set full: one entry, which replacement chooses, leaves with its copies (R112). -/
def dirRoom (n line : Nat) (s : State) : State :=
  let same := ((sliceOf s n).dir.filter fun e => dirSetOf e.1 == dirSetOf line && e.1 != line)
  let may := same.filter fun e => !e.2.cores.any (coreHolds s e.1)
  if same.length < 16 then s
  else match may[freeVal may.length s]? with
    | some (k, e) =>
      let (s1, d) := takeBack n k none (freeNext s)
      keepDirty n k e.tag d s1
    | none => s

/-- Record a core's copy. -/
def grant (n line tag core : Nat) (excl : Bool) (s : State) : State :=
  let s1 := if (dirOf s n line).isSome then s else dirRoom n line s
  match dirOf s1 n line with
  | some e => putDir n line { tag := tag, excl := excl, cores := if excl then [core] else if e.cores.contains core then e.cores else core :: e.cores } s1
  | none => putDir n line { tag := tag, excl := excl, cores := [core] } s1

/-! ## Serving a request (R112, R113, R122) -/

/-- A copy under another tag belongs to a sealed tenancy: it is never taken over (R113). -/
def sealedCopy (s : State) (n line tag : Nat) : Bool :=
  (((arrOf s n line).or (vicOf s n line)).any fun l => l.tag != tag && isSealed s l.tag) ||
    ((dirOf s n line).any fun e => e.tag != tag && isSealed s e.tag)

/-- A copy of the line stands under another tag. -/
def otherTag (s : State) (n line tag : Nat) : Bool :=
  (((arrOf s n line).or (vicOf s n line)).any fun l => l.tag != tag) || ((dirOf s n line).any fun e => e.tag != tag)

/-- R113: copies of the line under another tag are written back and invalidated. -/
def takeOver (n line tag : Nat) (s : State) : State :=
  let s := if otherTag s n line tag then readHeld n line s else s
  let other := ((arrOf s n line).or (vicOf s n line)).filter fun l => l.tag != tag
  let dirOther := (dirOf s n line).filter fun e => e.tag != tag
  if other.isNone ∧ dirOther.isNone then s
  else
    let (s1, d) := takeBack n line none s
    let old := match dirOther, other with | some e, _ => e.tag | none, some l => l.tag | none, none => tag
    let s2 := dropArr n line s1
    match d, other with
    | some (v, p), _ => writeHome old line v p s2
    | none, some l => if l.dirty then writeHome l.tag line l.data l.poison s2 else s2
    | none, none => s2

/-- A line that only the victim cache holds is recalled: counted, and moved back into its set where the slice allocates (R122). -/
def recallVictim (n line : Nat) (s : State) : State :=
  match arrOf s n line, vicOf s n line with
  | none, some l =>
    let s1 := bump (llcVictimRecalls n) 1 s
    if rd s1 (llcStatusState n) = 1 then placeLine n line l (dropArr n line s1) else s1
  | _, _ => s

/-- What the slice holds of a line. -/
def heldData (s : State) (n line : Nat) : Option (Nat × Bool) :=
  ((arrOf s n line).or (vicOf s n line)).map fun l => (l.data, l.poison)

/-- Data of a line in the slice or in an L2 that the directory names, after snoops; a victim hit is recalled. -/
def lookup (n line tag core : Nat) (excl : Bool) (err : Nat) (s : State) : State × Option (Nat × Bool) :=
  let s0 := takeOver n line tag s
  let s1 := if err ≠ 0 then arrayError n line tag err s0 else readHeld n line s0
  let dirty := dirtyIn s1 line (((dirOf s1 n line).map (·.cores)).getD [])
  -- snoops: an exclusive request takes every other copy, a shared one the modified data
  let s2 := if excl then (takeBack n line (some core) s1).1
    else match dirOf s1 n line with
      | some e => if e.excl then
          putDir n line { e with excl := false } (e.cores.foldl (fun a c => match l2Of a c line with
            | some l => putL2 c line { l with st := .s } a
            | none => a) s1)
        else s1
      | none => s1
  let s3 := recallVictim n line s2
  match dirty with
  | some (v, p) => (keepDirty n line tag dirty s3, some (v, p))
  | none => (s3, heldData s2 n line)

/-- A fill that only the slice asked for reaches no core (R78). -/
def noCore : Nat := 272

/-- The line reaches a core's L2: exclusive for a store, shared otherwise. DESIGN CHOICE (log entry 36): a core that only
reads is granted S even where it is the line's one reader; the spec does not say whether it gets E. A frozen pair takes the data into its
inbound buffer (Table 4.2). -/
def fillCore (n line tag core : Nat) (excl : Bool) (d : Nat) (p : Bool) (s : State) : State :=
  if core = noCore then s
  else if coreFrozen s core then
    setPair (core / 2) { pairOf s (core / 2) with inbound := (pairOf s (core / 2)).inbound ++ [(line, d)] } s
  else putL2 core line { tag := tag, st := if excl then .e else .s, poison := p, data := d } (grant n line tag core excl s)

/-- A maintenance operation on the line is in the queue (R125). -/
def opWaits (s : State) (n line : Nat) : Bool :=
  (sliceOf s n).amq.any fun e => e.line == line && (e.op == 1 || e.op == 2 || e.op == 3)

/-- A fill of the line is in flight. -/
def filling (s : State) (n line : Nat) : Bool := (sliceOf s n).fills.any fun f => f.line == line

/-! ## Miss buffers and queue entries (R120) -/

/-- A sealed tenancy with ways in the slice: 2 miss buffers and 1 queue entry are reserved to it. -/
def reservesIn (s : State) (n t : Nat) : Bool := isSealed s t && rdB s (llcPartSealed n t)

/-- Tenancies whose requests draw on the same buffers as those of t: itself where it has a reservation, else all that
have none. -/
def sameShare (s : State) (n t u : Nat) : Bool := if reservesIn s n t then u == t else !reservesIn s n u

/-- Reservations in a slice. -/
def reservations (s : State) (n : Nat) : Nat := ((partTenants s n).filter (reservesIn s n)).length

/-- Of `all` buffers of which each reservation takes `each`, t may use one more than `tags` hold. -/
def shareLeft (s : State) (n t all each : Nat) (tags : List Nat) : Bool :=
  decide ((tags.filter (sameShare s n t)).length < (if reservesIn s n t then each else all - each * reservations s n))

def amqRoom (s : State) (n t : Nat) (q : List AmqEnt) : Bool := shareLeft s n t 48 1 (q.map (·.tag))
def missRoom (s : State) (n t : Nat) : Bool := shareLeft s n t 64 2 ((sliceOf s n).fills.map (·.tag))

/-- A request for a line, as opposed to a maintenance operation. -/
def isReq (e : AmqEnt) : Bool := e.op == 0 || e.op == 4

/-- An entry enters the address-match queue, or waits outside it for an entry of its share, in order; it is counted where it waits under
R125 (`waits`). The request that a core already has there for the line stands for the new one too: the core's one miss. -/
def enterAmq (n : Nat) (e : AmqEnt) (waits : Bool) (s : State) : State :=
  let r := sliceOf s n
  if isReq e ∧ (r.amq.contains e ∨ r.outside.contains e) then s
  else
    let s1 := if amqRoom s n e.tag r.amq ∧ (r.outside.all fun x => !sameShare s n e.tag x.tag) then putSlice n { r with amq := r.amq ++ [e] } s
      else setSlice n { r with outside := r.outside ++ [e] } s
    if waits then bump (llcAmqWaits n) 1 s1 else s1

/-- Entries that waited outside take the room that is there, oldest first in each share. -/
def amqAdmit (n : Nat) (s : State) : State :=
  let r := sliceOf s n
  let (q, out) := r.outside.foldl (fun (x : List AmqEnt × List AmqEnt) e =>
    if amqRoom s n e.tag x.1 && x.2.all (fun y => !sameShare s n e.tag y.tag) then (x.1 ++ [e], x.2) else (x.1, x.2 ++ [e]))
    (r.amq, [])
  putSlice n { r with amq := q, outside := out } s

/-- Owner of the 1 GB granule of a CXL.mem window (R281). -/
def cxlOwner (s : State) (off : Nat) : Nat := tget 0 s.mem.cxlGranules ((off - 0x040000000000) / 2 ^ 30)

/-- The checks of R205, R207 and R281 on a request to a line of this device; another device's home checks its own. -/
def mayReach (s : State) (tag line : Nat) : Bool :=
  if ownLine s line then
    let off := line % 2 ^ 40 * 64
    match regionOf off with
    | .dram => granuleOk s off tag false
    | .cxl => !isSealed s tag && cxlOwner s off == tag
    | _ => true
  else !(isSealed s tag && regionOf (line % 2 ^ 40 * 64) == .cxl)

/-- A miss takes a buffer and is sent to the line's home (R114); without a buffer it waits in the queue (R120). -/
def sendMiss (n line tag core : Nat) (excl : Bool) (s : State) : State :=
  let r := sliceOf s n
  if missRoom s n tag = false then enterAmq n ⟨line, core, if excl then 4 else 0, tag⟩ false s
  else
    let own := if excl then r.owned else r.owned.filter (· != line)
    let s1 := setSlice n { r with fills := r.fills ++ [⟨line, core, tag, excl⟩], owned := own } s
    if ownDram s line then
      match coord s (line % 2 ^ 40 * 64) with
      | some k => dramRequest k.chan { pa := line * 64, tag := tag, write := false } s1
      | none => s1
    else sendOut { xid := 0, dev := outDev s line, kind := if excl then 2 else 1, pa := line * 64, tag := tag, origin := .slice n core excl } s1

/-- A request that nothing holds up is served (R113); a line of another device is written only in state O, and a line
that a sealed tenancy's copy bars goes to its home, which refuses it. -/
def serveRequest (n core line tag : Nat) (excl : Bool) (err : Nat) (s : State) : State :=
  if sealedCopy s n line tag then sendMiss n line tag core excl s
  else
    let (s1, d) := lookup n line tag core excl err s
    let must := excl && !ownLine s line && !(sliceOf s n).owned.contains line
    match d, must with
    | some (v, p), false => fillCore n line tag core excl v p s1
    | _, _ => sendMiss n line tag core excl s1

/-- A request of core `core` reaches its home slice: it waits behind maintenance operations and a fill in flight of the
line (R125), and until copies on other devices that stand in its way are snooped (R249). One that fails the owner check
goes no further, and a frozen pair's output is not released (R91). -/
def sliceRequest (core line tag : Nat) (excl : Bool) (err : Nat) (s : State) : State :=
  let n := homeSlice s tag line
  if coreFrozen s core then s
  else if mayReach s tag line = false then refuseLine (line * 64) tag s
  else if opWaits s n line ∨ filling s n line ∨ wayClear s n line (excl || otherTag s n line tag) none = false then
    enterAmq n ⟨line, core, if excl then 4 else 0, tag⟩ (opWaits s n line || filling s n line)
      (clearWay n line (excl || otherTag s n line tag) none s)
  else serveRequest n core line tag excl err s

/-- The first queued request that no operation ahead of it, no fill and no other device holds up. -/
def nextReady (s : State) (n : Nat) : Option AmqEnt :=
  let q := (sliceOf s n).amq
  (q.zipIdx.find? fun (e : AmqEnt × Nat) => isReq e.1 && ((q.take e.2).all fun x => isReq x || x.line != e.1.line) &&
    !filling s n e.1.line && wayClear s n e.1.line (e.1.op == 4 || otherTag s n e.1.line e.1.tag) none && missRoom s n e.1.tag).map (·.1)

/-- Queued requests are served in order as they become ready. -/
def serveReady (n : Nat) : Nat → State → State
  | 0, s => s
  | k + 1, s =>
    match nextReady s n with
    | some e =>
      let r := sliceOf s n
      serveReady n k (serveRequest n e.core e.line e.tag (e.op == 4) 0 (amqAdmit n (putSlice n { r with amq := r.amq.erase e } s)))
    | none => s

/-- The data of a fill in flight is delivered into the slice and the core (R125); poison allocates nothing and is left
for the access that waits, or dropped with a prefetch (R184, R185), and a line that its tag may no longer reach enters no cache
(R206). Requests that waited for it are served. -/
def completeFill (n line d : Nat) (p : Bool) (s : State) : State :=
  let r := sliceOf s n
  match r.fills.find? fun f => f.line == line with
  | none => s
  | some f =>
    let own := if f.excl ∧ p = false ∧ ownLine s line = false then line :: r.owned else r.owned
    let s1 := setSlice n { r with fills := r.fills.erase f, owned := own.eraseDups } s
    let s2 := if p then
        let c := coreOf s1 f.core
        setCore f.core { c with badFills := if c.hints.contains line then c.badFills else (line :: c.badFills).eraseDups,
                                hints := c.hints.filter (· != line) } s1
      else if mayReach s1 f.tag line = false then s1
      else
        fillCore n line f.tag f.core f.excl d false
          (placeLine n line { tag := f.tag, way := 0, dirty := false, locked := false, poison := false, data := d } s1)
    serveReady n 48 s2

/-- Read data that has arrived for a slice completes the fill. -/
def sliceFill (n line : Nat) (s : State) : State :=
  match tget none s.mem.arrived (line % 2 ^ 40) with
  | some (_, d, p) =>
    if filling s n line then
      completeFill n line d p (setMem { s.mem with arrived := tset none s.mem.arrived (line % 2 ^ 40) none } s)
    else s
  | none => s

/-! ## Maintenance (R125, R126) -/

/-- Clean a line: every dirty copy is written to its home; an error of the slice's copy is met. -/
def cleanLine (n line : Nat) (s : State) : State :=
  let s := readHeld n line s
  let cores := ((dirOf s n line).map (·.cores)).getD []
  let held := (arrOf s n line).or (vicOf s n line)
  let tag := ((dirOf s n line).map (·.tag)).getD ((held.map (·.tag)).getD 0)
  match dirtyIn s line cores with
  | some (v, p) =>
    let s1 := cores.foldl (fun a c => match l2Of a c line with
      | some l => putL2 c line { l with st := .e } a
      | none => a) s
    let s2 := match arrOf s1 n line with
      | some l => putArr n line { l with data := v, poison := p, dirty := false } s1
      | none => dropArr n line s1
    writeHome tag line v p s2
  | none => match arrOf s n line with
    | some l => if l.dirty then writeHome l.tag line l.data l.poison (putArr n line { l with dirty := false } s) else s
    | none => match vicOf s n line with
      | some l => if l.dirty then
          let r := sliceOf s n
          writeHome l.tag line l.data l.poison (putSlice n { r with victims := r.victims.map fun e =>
            if e.1 = line then (e.1, { e.2 with dirty := false }) else e } s)
        else s
      | none => s

/-- Every copy of a line on the device goes, without write-back. -/
def dropCopies (n line : Nat) (s : State) : State := dropArr n line (takeBack n line none s).1

/-- Discard every copy of a line on the device without write-back; where a frozen pair holds one, its home slice holds the snoop until
the drain that gives the line up (R92). -/
def discardLine (n line : Nat) (s : State) : State :=
  if (dirOf s n line).any fun e => e.cores.any (coreFrozen s) then
    { s with mesh := { s.mesh with owed := (line :: s.mesh.owed).eraseDups } }
  else dropCopies n line s

/-- Discards that the drain of pair p lets the home slices perform, before its dirty lines reach them (R92, R97). -/
def dropOwed (p : Nat) (s : State) : State :=
  let mine := s.mesh.owed.filter fun l => (presentSlices s).any fun n => (dirOf s n l).any fun e => e.cores.any fun c => c / 2 == p
  mine.foldl (fun a l => (presentSlices s).foldl (fun b n => if (dirOf b n l).isSome then dropCopies n l b else b) a)
    { s with mesh := { s.mesh with owed := s.mesh.owed.filter fun l => !mine.contains l } }

/-- Flush: write back the dirty copy, then no copy remains. -/
def flushLine (n line : Nat) (s : State) : State := discardLine n line (cleanLine n line s)

/-- Copies of a line that a slice's arrays and the L2s hold. -/
def lineCached (s : State) (n line : Nat) : Bool :=
  (arrOf s n line).isSome || (vicOf s n line).isSome || (dirOf s n line).isSome

/-- An operation is accepted: it enters the queue, behind a fill in flight or an earlier operation. A frozen pair's is not
released (R91). -/
def maintAccept (n core line tag op : Nat) (s : State) : State :=
  if (op = 1 ∨ op = 2 ∨ op = 3) ∧ coreFrozen s core = false then
    let s1 := enterAmq n ⟨line, core, op, tag⟩ (filling s n line || opWaits s n line) s
    if ownLine s line then s1
    else sendOut { xid := 0, dev := outDev s line, kind := 7, pa := line * 64, tag := tag, op := op, origin := .maint n core } s1
  else s

/-- The home device has answered every Maint of this line. -/
def maintAnswered (s : State) (line : Nat) : Bool := s.outs.all fun o => !(o.kind == 7 && o.pa / 64 == line)

/-- A write of the line waits at a channel of this device, or its write-back to another home has not been answered: its data has not
been written to its home (R126). -/
def homeWaits (s : State) (line : Nat) : Bool :=
  if ownDram s line then writeWaiting s (line % 2 ^ 40) else s.outs.any fun o => o.kind == 5 && o.pa / 64 == line

/-- The core of a completed operation is told: the hart that waits for it goes on, and the instruction retires (R60). -/
def cboDone (core line : Nat) (s : State) : State :=
  match hartOfCore s (core / 2) (core % 2) with
  | some h =>
    let r := hartOf s h
    if r.cbo = some line then countEvent h 0x001D (countInst h (setHart h { r with cbo := none } s)) else s
  | none => s

/-- The oldest operation on the line completes (R126), and its core is told; requests behind it, up to the next operation,
are released. -/
def maintComplete (n line : Nat) (s : State) : State :=
  let r := sliceOf s n
  match r.amq.find? fun e => e.line == line && (e.op == 1 || e.op == 2 || e.op == 3) with
  | none => s
  | some e =>
    if filling s n line ∨ maintAnswered s line = false then s
    else if wayClear s n line (e.op != 1) none = false then clearWay n line (e.op != 1) none s
    else
      let s1 := if e.op = 1 then cleanLine n line s else if e.op = 2 then flushLine n line s else discardLine n line s
      if e.op = 1 ∧ homeWaits s1 line then s1
      else
        let r1 := sliceOf s1 n
        serveReady n 48 (cboDone e.core line (amqAdmit n (putSlice n { r1 with amq := r1.amq.erase e } s1)))

/-! ## Evictions (R111) -/

/-- An L2 evicts a line: a notice when clean, the line when dirty. A frozen pair evicts nothing (R91, R92). -/
def l2Evict (core line : Nat) (s : State) : State :=
  match if coreFrozen s core then none else l2Of s core line with
  | none => s
  | some l =>
    let n := homeSlice s l.tag line
    let s1 := dropL2 core line s
    let s2 := match dirOf s1 n line with
      | some e => putDir n line { e with cores := e.cores.filter (· != core) } s1
      | none => s1
    if l.st = .m then presentPair (core / 2) (fun _ => keepDirty n line l.tag (some (l.data, l.poison)) s2) s else s2

/-! ## Access at the home without allocation (R59, R78) -/

/-- What an access finds of a line: its data and whether it is poison; a read of this device's memory that is awaited; or nothing here,
where the line has another home. -/
inductive Seen where
  | data (v : Nat) (poison : Bool)
  | wait
  | far
  deriving DecidableEq, Repr

/-- What a reader has asked for of a line under a tag. -/
def readOf (s : State) (w : Reader) (line tag : Nat) : Option HomeRd :=
  s.mem.reads.find? fun r => r.who == w && r.line == line && r.tag == tag

/-- What this device's memory holds of a line: the reader asks its channel, and finds the data once it has come (R147, R158, R249);
so does what a CXL.mem port has answered. -/
def homeRead (w : Reader) (line tag : Nat) (s : State) : State × Seen :=
  match if ownLine s line then readOf s w (line % 2 ^ 40) tag else none with
  | some r => (s, match r.got with
      | some (v, p) => .data v p
      | none => .wait)
  | none => if ownDram s line then (askRead w (line % 2 ^ 40) tag s, .wait) else (s, .far)

/-- A line that a reader has asked a CXL.mem port for has come. -/
def gotLine (w : Reader) (line tag v : Nat) (poison : Bool) (s : State) : State :=
  setMem { s.mem with reads := s.mem.reads ++ [⟨w, line % 2 ^ 40, tag, some (v, poison)⟩] } s

/-- Current contents of a line under a tag: the dirty copy, the slice's, or memory's. A copy under another tag is taken over first, but
for a sealed tenancy's (R113); an error of the slice's copy is met, and a victim hit recalled (R122, R127). -/
def currentLine (w : Reader) (line tag : Nat) (s : State) : State × Seen :=
  let n := homeSlice s tag line
  if sealedCopy s n line tag then homeRead w line tag s
  else
    let s0 := readHeld n line (takeOver n line tag s)
    match (dirtyIn s0 line (((dirOf s0 n line).map (·.cores)).getD [])).or (heldData s0 n line) with
    | some x => (recallVictim n line s0, .data x.1 x.2)
    | none => homeRead w line tag s0

/-- What an access of no core to a line needs of the other copies: an exclusive one, or one that takes over a copy under another tag,
all of them. -/
def ncExcl (s : State) (tag line : Nat) (excl : Bool) : Bool := excl || otherTag s (homeSlice s tag line) line tag

/-- A maintenance operation or a fill in flight is ahead of an access to the line (R125). -/
def lineBusy (s : State) (tag line : Nat) : Bool :=
  opWaits s (homeSlice s tag line) line || filling s (homeSlice s tag line) line

/-- Nothing holds up an access of no core to a line at its slice: no maintenance operation, no fill in flight, no copy on
another device or in a frozen pair (R92, R125, R249). -/
def ncClear (s : State) (tag line : Nat) (excl : Bool) : Bool :=
  !lineBusy s tag line && wayClear s (homeSlice s tag line) line (ncExcl s tag line excl) none

/-- Lines that a slice's queue, fills or directories name. -/
def namedLines (s : State) : List Nat :=
  (presentSlices s).flatMap fun n => let r := sliceOf s n
    r.amq.map (·.line) ++ r.fills.map (·.line) ++ r.fabDir.map (·.1) ++ r.dir.map (·.1)

/-- Lines of a range that are held up for an access under tag t: only lines that a slice names can be. -/
def rangeHeld (s : State) (t base size : Nat) (excl : Bool) : List Nat :=
  (namedLines s).filter fun l => decide (base / 64 ≤ l) && decide (l < (base + size) / 64) && !ncClear s t l excl

/-- A wait under R125 of an access of no core is counted, once (R137). -/
def countWait (w : Reader) (tag line : Nat) (s : State) : State :=
  if lineBusy s tag line && !s.mem.held.contains (w, line) then
    bump (llcAmqWaits (homeSlice s tag line)) 1 (setMem { s.mem with held := s.mem.held ++ [(w, line)] } s)
  else s

/-- An access of no core waits: other devices' copies that stand in its way are snooped, and a wait under R125 is counted, once. -/
def ncOpen (w : Reader) (tag line : Nat) (excl : Bool) (s : State) : State :=
  let n := homeSlice s tag line
  countWait w tag line (clearWay n line (ncExcl s tag line excl) none s)

/-- Reservations on a written line are lost, but one that the writing hart itself holds (R55, R78). -/
def breakResv (h : Option Nat) (line : Nat) (s : State) : State :=
  (s.harts.filter fun e => some e.1 != h && e.2.resv == some line).foldl (fun a e =>
    setHart e.1 { hartOf a e.1 with resv := none, wrs := .none } a)
    (setFab { s.fabric with resvs := s.fabric.resvs.filter fun e => e.2 != line } s)

/-- The hart that accesses. -/
def Reader.asHart : Reader → Option Nat
  | .hart h => some h
  | _ => none

/-- How an access's write reaches its channel. -/
def Reader.how : Reader → WrHow
  | .tracker .. => .fabric
  | _ => .plain

/-- Copies are taken back and dropped, then the line is written at its home or in the slice, which holds the line's
reservations (R78). -/
def writeAtHome (w : Reader) (line tag d : Nat) (s : State) : State :=
  let n := homeSlice s tag line
  let s := if sealedCopy s n line tag then s else takeOver n line tag s
  let s1 := breakResv w.asHart line (takeBack n line none s).1
  match (if sealedCopy s n line tag then none else arrOf s n line) with
  | some l => putArr n line { l with data := d, dirty := true, poison := false } s1
  | none => writeBack w.how tag line d false (dropArr n line s1)

/-! ## Meanings -/

/-- SLICE_REQUEST (R113, R122, R112, R127). -/
def execSliceRequest (core pa tag : Nat) (excl : Bool) (err : Nat) (s : State) : Host.Outcome State Fault Refusal :=
  .next (sliceRequest core (lineOf pa) tag excl err s)

/-- MAINTENANCE_ACCEPT (R125). -/
def execMaintenanceAccept (slice core line tag op : Nat) (s : State) : Host.Outcome State Fault Refusal :=
  .next (maintAccept slice core line tag op s)

/-- L2_EVICTION (R111). -/
def execL2Eviction (core line : Nat) (s : State) : Host.Outcome State Fault Refusal := .next (l2Evict core line s)

end Sys2Proof.Machine
end

