-- ==== Sys2Proof/Machine/CacheCmd.lean ====
section
/-! DEFINITION. Machine/CacheCmd.lean: locks (R123, R124), removal of a slice (R128 to R130), and the cache.* commands
(R138). -/
namespace Sys2Proof.Machine

/-! ## Sealed capacity of slices (R119, R215) -/

/-- Ways of a slice that can still be sealed, ascending: unlocked shared ways, 2 of the shared pool left. -/
def freeWays (s : State) (n : Nat) : List Nat :=
  let sh := waysOf (rd s (llcWaysSharedMask n))
  let fr := sh.filter fun w => !inMask (rd s (llcWaysLockedMask n)) w
  fr.take (sh.length - 2)

/-- Ways of a slice that no seal has reserved or holds, two left to the shared pool. -/
def sealableWays (s : State) (n : Nat) : List Nat :=
  let held := (s.tenants.map fun e => ((e.2.plan.slices.find? fun x => x.1 == n).map (·.2)).getD 0).foldl (· ||| ·) 0
  let fr := (freeWays s n).filter fun w => !inMask held w
  fr.take ((freeWays s n).length - (waysOf held).length)

/-- Tiles on which a tenancy owns a hart that runs on a pair. -/
def tilesOf (s : State) (t : Nat) : List Nat :=
  ((List.range (hartCount s)).filterMap fun h =>
    if ownerOf s h = t ∧ ¬ merged s h then (pairOfHart s h).map pairTile else none).eraseDups

/-- Slices in service in the order of R215: the tenancy's tiles first, each part ascending. -/
def sliceOrder (s : State) (t : Nat) : List Nat :=
  let live := (presentSlices s).filter fun n => rd s (llcStatusState n) == 1
  let near := fun n => (tilesOf s t).contains (n / 16)
  live.filter near ++ live.filter fun n => !near n

/-- Ways a sealed tenancy holds in slices that are in service. -/
def waysHeld (s : State) (t : Nat) : Nat :=
  (((presentSlices s).filter fun n => rd s (llcStatusState n) == 1 && rdB s (llcPartSealed n t)).map fun n =>
    (waysOf (rd s (llcPartWayMask n t))).length).sum

/-- A sealed tenancy is degraded while it holds fewer ways than its seal gave it (R129). -/
def judgeDegraded (t : Nat) (s : State) : State :=
  let r := tenantOf s t
  if r.st = .isSealed then setTenant t { r with degraded := decide (waysHeld s t < r.heldWays) } s else s

/-! ## Slot classes (R134, R215, R219) -/

def classesAt (s : State) (tile : Nat) : List Nat := tget [] s.mesh.classes tile
/-- Classes of a tile that no tenancy holds; at most 32 of the 64 slots are reserved. -/
def freeClasses (s : State) (tile : Nat) : List Nat :=
  (List.range 32).filter fun r => (classesAt s tile).all fun x => x % 64 != r
def holdClasses (tile t : Nat) (rs : List Nat) (s : State) : State :=
  { s with mesh := { s.mesh with classes := tset [] s.mesh.classes tile (classesAt s tile ++ rs.map fun r => t * 64 + r) } }
def dropClasses (t : Nat) (s : State) : State :=
  let cl := (s.mesh.classes.map fun e => (e.1, e.2.filter fun x => x / 64 != t)).filter (fun e => decide (e.2 ≠ []))
  { s with mesh := { s.mesh with classes := cl } }

/-- A sealed tenancy, or one that is being sealed, that comes to a tile where it holds no slot class takes as many as its seal gives it
(R134, R217, R219). -/
def needClass (tile t : Nat) (s : State) : State :=
  if (isSealed s t ∨ (tenantOf s t).plan.slices ≠ []) ∧ (classesAt s tile).all (fun x => x / 64 != t) then
    holdClasses tile t ((freeClasses s tile).take (max 1 (tenantOf s t).classes)) s
  else s

/-- Slot of the wheel that a class r of a tile occupies on the h-th link of a path; a tile bridge, a hub crossing (2 hops)
and the IO bridge are links of the path, so that a class fixes the tenancy's matching slots there (R134). -/
def slotOnLink (r h : Nat) : Nat := (r + h) % 64

/-! ## Removal (R128 to R130) -/

/-- A slice in service starts draining. -/
def startDrain (n cause : Nat) (s : State) : State :=
  if rd s (llcStatusState n) = 1 then
    wr (llcStatusState n) 2 (wr (llcStatusCause n) cause (wrB (llcStatusFenced n) (decide (2 ≤ cause))
      (wr (llcDrainLinesLeft n) (sliceOf s n).dirtyLines (wr (llcDrainVictimsLeft n) (sliceOf s n).victims.length
        (wr (llcDrainLocksReleased n) 0
          (setSlice n { sliceOf s n with walkLines := 0, lastOne := lastSlice s n } s))))))
  else s

/-- The result of a cache.slice that removes nothing. -/
def sliceRefused (n i outcome : Nat) (s : State) : State :=
  stageDone i (chg (arg (mbxOf s i).copy 0 1) n) (mkBytes [(0, 1, n), (1, 1, outcome)]) (setSlice n { sliceOf s n with walkMbx := none } s)

/-- Draining starts at a boundary (Table 5.3). Where a fence of the same boundary has come first, a cache.slice finds its slice out of
service, or the last one (R40, R129, R138). -/
def drainSlice (n cause : Nat) (s : State) : State :=
  match if cause = 1 then (sliceOf s n).walkMbx else none with
  | some i =>
    if rd s (llcStatusState n) ≠ 1 then sliceRefused n i 1 s
    else if lastSlice s n then sliceRefused n i 2 s
    else startDrain n cause s
  | none => startDrain n cause s

/-- Release the locked ways of a slice, those of a lock still being preloaded too, and tell each owner (R128, R130). -/
def releaseLocks (n : Nat) (s : State) : State :=
  let hit := (s.mesh.locks ++ s.mesh.preload.map (·.2)).filter fun k => k.slices.contains n
  let locks := (s.mesh.locks.map fun k => { k with
    slices := k.slices.filter (· != n), held := k.held.filter (fun e => e.1 != n), lines := k.lines.filter fun l => homeSlice s k.owner l != n }).filter fun k =>
      !k.slices.isEmpty
  let gone := fun (k : CLock) => { k with slices := k.slices.filter (· != n), held := k.held.filter (fun e => e.1 != n) }
  let s1 : State := { s with mesh := { s.mesh with locks := locks, preload := s.mesh.preload.map fun e => (e.1, gone e.2) } }
  let s2 := hit.foldl (fun a k => notify k.owner 0x0009 [(0x18, 1, k.id), (0x19, 1, n)]
    (wr (llcPartLockedWays n k.owner) 0 a)) s1
  wr (llcWaysLockedMask n) 0 (wr (llcDrainLocksReleased n) hit.length
    (setSlice n { sliceOf s2 n with parked := [], released := min 255 ((sliceOf s2 n).released + hit.length) } s2))

/-- What the walk does with a line or a victim, whose way reads 0x1F: a dirty one is written back, as poison where its check fails; of
one whose tag fails its parity no address is known, so it is lost and its tenancy told (Tables 5.2 and 5.3). What it meets is entered in
LLC_ERR_COUNT and LLC_ERR_LAST, and reported (R127). -/
def drainLine (n : Nat) (victim : Bool) (s : State) (e : Nat × SLine) : State :=
  if e.2.dirty = false then s
  else
    let row := rowOf (errRow (some e.2)) true
    let way := if victim then 0x1F else e.2.way
    let s1 := if row = 0 then s else rowLast n row e.1 way e.2.tag (rowErrors n row s)
    let sl := nextSlice s
    let s2 := match row with
      | 1 => recCorrected sl 2 n 0x0201 0 s1
      | 3 => recVisible sl 2 n 0x0203 [e.2.tag] (e.1 * 64) [way] n [way] s1
      | 5 => recVisible sl 2 n 0x0205 [e.2.tag] 0 [way] n [way] s1
      | _ => s1
    if e.2.tagErr then s2 else writeBack .removal e.2.tag e.1 e.2.data (e.2.poison || e.2.err == 2) s2

/-- Lines and victims that a walk writes back. -/
def Slice.walked (r : Slice) : Nat := ((r.lines ++ r.victims).filter fun e => e.2.dirty && !e.2.tagErr).length

/-- Every sealed tenancy with ways in the slice hears of a removal (R130), as degraded where it is. -/
def noticeParts (n : Nat) (ts : List Nat) (s : State) : State :=
  ts.foldl (fun a t => sealNotice t 0x0003 [(0x18, 1, n), (0x19, 1, (tenantOf a t).degraded.toNat)] a) s

/-- The walk ends (R128): every line and victim is written back, as poison where its check fails, and invalidated. The
last slice in service stays draining (R129). -/
def drainWalk (n : Nat) (s : State) : State :=
  if rd s (llcStatusState n) = 2 then
    let r := sliceOf s n
    let s1 := r.victims.foldl (drainLine n true) (r.lines.foldl (drainLine n false) s)
    let gone := { sliceOf s1 n with lines := [], victims := [], walkLines := r.walked }
    let s3 := releaseLocks n (putSlice n gone s1)
    if r.lastOne then noticeParts n ((partTenants s n).filter (isSealed s)) ((s3.tenants.map (·.1)).foldl (fun a t => judgeDegraded t a) s3)
    else addDue (beat s + 1) 2 (.handSlice n) s3
  else s

/-- Slice of a list of (slice, count) with the lowest count, first on ties. -/
def fewest : List (Nat × Nat) → Option (Nat × Nat)
  | [] => none
  | x :: r => match fewest r with
    | some y => if y.2 < x.2 then some y else some x
    | none => some x

/-- Give items one by one, in order, to the slice that then has the fewest (R129). -/
def dealOut : List Nat → List (Nat × Nat) → List (Nat × Nat)
  | [], _ => []
  | b :: r, cs =>
    match fewest cs with
    | some (n, _) => (b, n) :: dealOut r (cs.map fun c => if c.1 = n then (c.1, c.2 + 1) else c)
    | none => []

/-- LLC_STATUS.buckets of every present slice. -/
def countBuckets (s : State) : State :=
  (presentSlices s).foldl (fun a n => wr (llcStatusBuckets n) (bucketsOf a n).length a) s

/-- Give a tenancy that has lost its only slice ways of another that no pending seal has reserved, and a slot class on
that slice's tile (R129, R134). -/
def newPartition (t lost : Nat) (s : State) : State × Option Nat :=
  let had := (waysOf (rd s (llcPartWayMask lost t))).length
  let order := (sliceOrder s t).filter (· != lost)
  let most := (order.map fun n => (sealableWays s n).length).foldl max 0
  let pick := match order.find? fun n => decide (had ≤ (sealableWays s n).length) with
    | some n => some n
    | none => if most = 0 then none else order.find? fun n => (sealableWays s n).length == most
  match pick with
  | some n => (needClass (n / 16) t (applyPart n t (maskOf ((sealableWays s n).take had)) true s), some n)
  | none => (s, none)

/-- The slices that take over what slice n was home to: those in service, or the last one, which stays home though it drains (R129). -/
def heirs (s : State) (n : Nat) : List Nat :=
  match (presentSlices s).filter fun m => m != n && rd s (llcStatusState m) == 1 with
  | [] => (presentSlices s).filter fun m => m != n && rd s (llcStatusState m) == 2 && (sliceOf s m).lastOne
  | l => l

/-- Entries of a home table that name slice n are dealt to the slice of `cands` that then has the fewest (R129). -/
def dealHome (n : Nat) (home cands : List Nat) : List Nat :=
  let idx := (home.zipIdx.filter fun e => e.1 == n).map (·.2)
  let given := dealOut idx (cands.map fun m => (m, (home.filter (· == m)).length))
  home.zipIdx.map fun (m, i) => match given.find? fun g => g.1 == i with
    | some g => g.2
    | none => m

/-- Sealed home entries of tenancy t that name slice n move (R129). Where the tenancy has lost its only slice and no slice in service
has a way free, its home table goes on naming the removed slice, which serves its lines without allocation: the spec names no home for
this case (DESIGN CHOICE, log entry 42). -/
def rehomeSealed (n t : Nat) (s : State) : State :=
  let home := tget [] s.mesh.sealedHome t
  if home.contains n then
    let others := (presentSlices s).filter fun m => m != n && home.contains m
    let (s1, cands) := if others.isEmpty then
        (let (a, o) := newPartition t n s
         (a, match o with | some m => [m] | none => (presentSlices s).filter fun m => m != n && (sliceOf s m).lastOne))
      else (s, others)
    { s1 with mesh := { s1.mesh with sealedHome := tset [] s1.mesh.sealedHome t (dealHome n home cands) } }
  else s

/-- A slice that a tenancy's seal has reserved leaves the reservation, and its home entries are dealt out as R129 states; with the last
one the Clerk reserves ways of another, as R129 gives them, and a slot class on its tile (R134, R215, R217, R218). -/
def replanSlice (n t : Nat) (s : State) : State :=
  let p := (tenantOf s t).plan
  match p.slices.find? fun e => e.1 == n with
  | none => s
  | some (_, m) =>
    let rest := p.slices.filter fun e => e.1 != n
    let order := (sliceOrder s t).filter (· != n)
    let had := (waysOf m).length
    let most := (order.map fun k => (sealableWays s k).length).foldl max 0
    let pick := (order.find? fun k => decide (had ≤ (sealableWays s k).length)).or
      (if most = 0 then none else order.find? fun k => (sealableWays s k).length == most)
    match rest, pick with
    | [], some k =>
      needClass (k / 16) t (setTenant t { tenantOf s t with plan := { p with
        slices := [(k, maskOf ((sealableWays s k).take had))], home := dealHome n p.home [k] } } s)
    | l, _ => setTenant t { tenantOf s t with plan := { p with slices := l, home := dealHome n p.home (l.map (·.1)) } } s

/-- A valid directory entry goes to the new home slice of its bucket, which makes room for it in its set (R112); so do the fabric
directory's entries and the lines held in state O (R249). -/
def moveDirectory (n : Nat) (s : State) : State :=
  let r := sliceOf s n
  let s1 := r.fabDir.foldl (fun a (line, e) =>
    let m := homeSlice a e.tag line
    setSlice m { sliceOf a m with fabDir := tput (sliceOf a m).fabDir line e } a) (setSlice n { r with dir := [], fabDir := [], owned := [] } s)
  let s2 := r.owned.foldl (fun a line => match tfind r.dir line with
    | some e =>
      let m := homeSlice a e.tag line
      setSlice m { sliceOf a m with owned := (line :: (sliceOf a m).owned).eraseDups } a
    | none => a) s1
  r.dir.foldl (fun a (line, e) =>
    let m := homeSlice a e.tag line
    putDir m line e (dirRoom m line a)) s2

/-- Requests, operations and fills of slice n that are still in flight, of the tags of p, are forwarded to the new homes (Table 5.3). -/
def forwardFlight (n : Nat) (p : Nat → Bool) (s : State) : State :=
  let r := sliceOf s n
  let s1 := putSlice n { r with amq := r.amq.filter (!p ·.tag), outside := r.outside.filter (!p ·.tag), fills := r.fills.filter (!p ·.tag) } s
  let s2 := (r.fills.filter (p ·.tag)).foldl (fun a f =>
    let m := homeSlice a f.tag f.line
    setSlice m { sliceOf a m with fills := (sliceOf a m).fills ++ [f] } a) s1
  let s3 := ((r.amq ++ r.outside).filter (p ·.tag)).foldl (fun a e => enterAmq (homeSlice a e.tag e.line) e false a) s2
  { s3 with outs := s3.outs.map fun o => if p o.tag = false then o else match o.origin with
      | .slice m core excl => if m = n then { o with origin := .slice (homeSlice s3 o.tag (o.pa / 64)) core excl } else o
      | .maint m core => if m = n then { o with origin := .maint (homeSlice s3 o.tag (o.pa / 64)) core } else o
      | .evict m => if m = n then { o with origin := .evict (homeSlice s3 o.tag (o.pa / 64)) } else o
      | _ => o }

/-- Step 2: the tables switch away from the slice and it is out of service (R128 to R130). -/
def switchBuckets (n : Nat) (s : State) : State :=
  if rd s (llcStatusState n) = 3 then
    let given := dealOut (bucketsOf s n) ((heirs s n).map fun m => (m, (bucketsOf s m).length))
    let s1 : State := { s with mesh := { s.mesh with moved := given.foldl (fun o g => tset 0 o g.1 (g.2 + 1)) s.mesh.moved } }
    let parts := (partTenants s n)
    let s2 := (s.tenants.map (·.1)).foldl (fun a t => replanSlice n t a) (parts.foldl (fun a t => rehomeSealed n t a) s1)
    let s3 := countBuckets (wr (llcStatusState n) 4 (forwardFlight n (fun _ => true) (moveDirectory n s2)))
    let s4 := parts.foldl (fun a t => judgeDegraded t (applyPart n t 0 false a)) s3
    let s5 := noticeParts n parts s4
    match (sliceOf s5 n).walkMbx with
    | some i => stageDone i (arg (mbxOf s5 i).copy 0 1 |> fun v => chg v n) (mkBytes [(0, 1, n), (4, 4, (sliceOf s5 n).walkLines), (8, 8, beat s5)])
        (setSlice n { sliceOf s5 n with walkMbx := none } s5)
    | none => s5
  else s

/-- The hand-over starts at a boundary. -/
def handSlice (n : Nat) (s : State) : State := if rd s (llcStatusState n) = 2 then wr (llcStatusState n) 3 s else s

/-- SLICE_DRAIN_WALK_DONE (R128, R130). -/
def execSliceDrainWalkDone (slice : Nat) (s : State) : Host.Outcome State Fault Refusal := .next (drainWalk slice s)

/-- HANDOVER_COMPLETE (R128, R129): the switch follows at the next boundary. -/
def execHandoverComplete (slice : Nat) (s : State) : Host.Outcome State Fault Refusal :=
  .next (if rd s (llcStatusState slice) = 3 then addDue (beat s + 1) 2 (.switchBuckets slice) s else s)

/-! ## Locks (R123, R124) -/

/-- Locks a tenancy holds. -/
def locksOf (s : State) (t : Nat) : List CLock := s.mesh.locks.filter fun k => k.owner == t

/-- Lines of a range, ascending. -/
def rangeLines (base size : Nat) : List Nat := (List.range (size / 64)).map fun i => base / 64 + i

/-- Most ways the owner may still lock in a slice. -/
def lockLimit (s : State) (t n : Nat) : Nat :=
  let locked := (waysOf (rd s (llcPartLockedWays n t))).length
  if t = 0 then min 4 ((waysOf (rd s (llcWaysSharedMask n))).length - 2) - locked
  else (waysOf (rd s (llcPartWayMask n t))).length - 1 - locked

/-- k ways of a list; which, the spec leaves open. -/
def pickWays : Nat → List Nat → State → State × List Nat
  | 0, _, s => (s, [])
  | k + 1, l, s =>
    match l[freeVal l.length s]? with
    | some w =>
      let (s1, r) := pickWays k (l.filter (· != w)) (freeNext s)
      (s1, w :: r)
    | none => (s, [])

/-- Reserve ways in one slice for a lock: the lock's list of slices and masks grows by the slice. -/
def reserveWays (t k : Nat) (a : State × List (Nat × Nat)) (n : Nat) : State × List (Nat × Nat) :=
  let (s1, ws) := pickWays k (eligible a.1 n t) a.1
  (wr (llcWaysLockedMask n) (rd s1 (llcWaysLockedMask n) ||| maskOf ws)
    (wr (llcPartLockedWays n t) (rd s1 (llcPartLockedWays n t) ||| maskOf ws) s1), a.2 ++ [(n, maskOf ws)])

/-- Mask of the ways that a lock holds in slice n. -/
def lockMask (k : CLock) (n : Nat) : Nat := ((k.held.find? fun e => e.1 == n).map (·.2)).getD 0

/-- A way that lock k has reserved, of the line's set, without a locked line. -/
def reservedWay (s : State) (k : CLock) (n line : Nat) : Option Nat :=
  (waysOf (lockMask k n)).find? fun w => match occupant s n line w with
    | some (_, l) => !l.locked
    | none => true

/-- Way in which the preload of lock k places a line: of a slice in service, where the owner may reach the line. -/
def preloadWay (s : State) (k : CLock) (line : Nat) : Option Nat :=
  let n := homeSlice s k.owner line
  if rd s (llcStatusState n) = 1 ∧ mayReach s k.owner line then reservedWay s k n line else none

/-- Preload one line into a reserved way of a slice in service; it counts as placed when it finds one. A line that reads as poison, or
that the lock's owner no longer owns, enters no cache (R184, R206). -/
def preloadLine (i : Nat) (k : CLock) (a : State × List Nat) (line : Nat) : State × List Nat :=
  let s := a.1
  let t := k.owner
  let n := homeSlice s t line
  match preloadWay s k line with
  | some w =>
    let (s1, d) := currentLine (.mailbox i) line t s
    match d with
    | .data v false =>
      let dirty := ((arrOf s1 n line).or (vicOf s1 n line)).any (·.dirty)
      (intoWay n line w { tag := t, way := w, dirty := dirty, locked := true, poison := false, data := v } (dropArr n line s1), line :: a.2)
    | _ => (s1, a.2)
  | none => a

/-- The granules of a range all belong to a tenancy. -/
def ownsRange (s : State) (t base size : Nat) : Bool :=
  (List.range (size / 4096)).all fun i =>
    let pa := base + i * 4096
    homeOf pa == rd s fabIdDeviceId && (locate s (offOf pa)).isSome && granuleOwner s (offOf pa) == t

/-- Lowest free lock number. -/
def freeLockId (s : State) (t : Nat) : Nat :=
  ((List.range 8).find? fun i => (locksOf s t).all fun k => k.id != i).getD 0

/-- The command acts for the mailbox's owner; only mailboxes 0 to 256 reach it (R138). Where the owner may lock no way in a slice that
the range reaches, the lock is reported as held with no way applied: the spec does not say what is returned then (DESIGN CHOICE, log
entry 42). -/
def cacheLock (i : Nat) (c : Bytes) (s : State) : State :=
  let base := roundDown 4096 (arg c 0 8)
  let size := clampR 4096 0x40000000 (roundUp 4096 (arg c 8 8))
  let slices := (rangeLines base size).map (homeSlice s i) |>.eraseDups
  let limit := (slices.map (lockLimit s i)).foldl min 24
  let ways := clampR (min 1 limit) limit (arg c 0x10 1)
  let cl := chg (arg c 0 8) base + chg (arg c 8 8) size + chg (arg c 0x10 1) ways
  let echo := [(0, 8, base), (8, 8, size), (0x10, 1, ways)]
  if ownsRange s i base size = false then stageDone i cl (mkBytes (echo ++ [(0x11, 1, 1)])) s
  else if 8 ≤ (locksOf s i).length then stageDone i cl (mkBytes (echo ++ [(0x11, 1, 2)])) s
  else
    let (s1, held) := slices.foldl (reserveWays i ways) (s, [])
    let k : CLock := { owner := i, id := freeLockId s i, base, size, ways, lines := [], slices, held }
    { s1 with mesh := { s1.mesh with preload := s1.mesh.preload ++ [(i, k)] } }

/-- An accepted operation, a fill in flight, another device's copy or a frozen pair's holds up the preload of a line (R92, R125,
R249). -/
def preloadHeld (s : State) (k : CLock) : List Nat := (rangeLines k.base k.size).filter fun l => !ncClear s k.owner l false

/-- The contents of lines that a reader needs are asked for; whether each is known. -/
def askLines (w : Reader) (t : Nat) (ls : List Nat) (s : State) : State × Bool :=
  ls.foldl (fun a l => match currentLine w l t a.1 with
    | (b, .wait) => (b, false)
    | (b, _) => (b, a.2)) (s, true)

/-- The preload of mailbox i's lock ends: the lines stand in the reserved ways, the lock is held, and the result is
written at the next boundary. It waits for what holds up one of its lines, and for its reads of memory. -/
def preloadDone (i : Nat) (s : State) : State :=
  match s.mesh.preload.find? fun e => e.1 == i with
  | none => s
  | some (_, k) =>
    if preloadHeld s k ≠ [] then (preloadHeld s k).foldl (fun a l => ncOpen (.mailbox i) k.owner l false a) s
    else
    let (s0, ready) := askLines (.mailbox i) k.owner ((rangeLines k.base k.size).filter fun l => (preloadWay s k l).isSome) s
    if ready = false then s0
    else
    let (s1, placed) := (rangeLines k.base k.size).foldl (preloadLine i k) (s0, [])
    let s2 : State := { dropReads (.mailbox i) s1 with mesh := { s1.mesh with
      preload := s1.mesh.preload.filter fun e => e.1 != i, locks := s1.mesh.locks ++ [{ k with lines := placed }] } }
    let c := (mbxOf s i).copy
    let cl := chg (arg c 0 8) k.base + chg (arg c 8 8) k.size + chg (arg c 0x10 1) k.ways
    addDue (beat s + 1) 9 (.stage i cl (mkBytes [(0, 8, k.base), (8, 8, k.size), (0x10, 1, k.ways), (0x12, 1, k.id),
      (0x14, 4, placed.length), (0x18, 4, k.size / 64 - placed.length)])) s2

/-- A lock's lines, those that stand in the ways it holds, become ordinary lines of the same ways, and the ways are unlocked (R124). -/
def dropLock (k : CLock) (s : State) : State :=
  let s1 : State := { s with mesh := { s.mesh with locks := s.mesh.locks.erase k } }
  let s2 := k.lines.foldl (fun a line =>
    let n := homeSlice a k.owner line
    match arrOf a n line with
    | some l => if inMask (lockMask k n) l.way then putArr n line { l with locked := false } a else a
    | none => if inMask (lockMask k n) (tget 0 (sliceOf a n).parked line - 1) then
        setSlice n { sliceOf a n with parked := tset 0 (sliceOf a n).parked line 0 } a else a) s1
  k.held.foldl (fun a e =>
    wr (llcWaysLockedMask e.1) (rd a (llcWaysLockedMask e.1) &&& (0xFFFFFF - e.2))
      (wr (llcPartLockedWays e.1 k.owner) (rd a (llcPartLockedWays e.1 k.owner) &&& (0xFFFFFF - e.2)) a)) s2

def cacheUnlock (i : Nat) (c : Bytes) (s : State) : State :=
  let id := min 7 (arg c 0 1)
  let cl := chg (arg c 0 1) id
  match (locksOf s i).find? fun k => k.id == id with
  | some k => stageDone i cl (mkBytes [(0, 1, id)]) (dropLock k s)
  | none => stageDone i cl (mkBytes [(0, 1, id), (1, 1, 1)]) s

/-! ## cache.slice and cache.status (R138) -/

def cacheSlice (i : Nat) (c : Bytes) (s : State) : State :=
  let n := clampUnit 128 (slicePresent s) (arg c 0 1)
  let cl := chg (arg c 0 1) n
  let st := rd s (llcStatusState n)
  if st ≠ 1 then stageDone i cl (mkBytes [(0, 1, n), (1, 1, 1)]) s
  else if lastSlice s n then stageDone i cl (mkBytes [(0, 1, n), (1, 1, 2)]) s
  else addStep i (beat s + 1) (.drainSlice n 1) (setSlice n { sliceOf s n with walkMbx := some i } s)

def cacheStatus (i : Nat) (c : Bytes) (s : State) : State :=
  let n := clampUnit 128 (slicePresent s) (arg c 0 1)
  stageDone i (chg (arg c 0 1) n) (mkBytes [(0, 1, n), (1, 1, rd s (llcStatusState n)), (2, 2, rd s (llcStatusBuckets n)),
    (4, 1, (waysOf (rd s (llcWaysSharedMask n))).length), (5, 1, (partTenants s n).length),
    (6, 1, (s.mesh.locks.filter fun k => k.slices.contains n).length), (7, 1, (sliceOf s n).released),
    (8, 2, rd s (llcErrCountDataCe n)), (10, 2, rd s (llcErrCountDataUe n)), (12, 2, rd s (llcErrCountTagErr n)),
    (14, 2, rd s (llcErrCountDirErr n))]) s

/-- CACHE_LOCK (R123, R138). -/
def execCacheLock (mbx : Nat) (s : State) : Host.Outcome State Fault Refusal := .next (onCmd mbx 0x0601 (cacheLock mbx) s)

/-- CACHE_PRELOAD_DONE (R123). -/
def execCachePreloadDone (mbx : Nat) (s : State) : Host.Outcome State Fault Refusal := .next (preloadDone mbx s)

/-- CACHE_UNLOCK (R124, R138). -/
def execCacheUnlock (mbx : Nat) (s : State) : Host.Outcome State Fault Refusal :=
  .next (onCmd mbx 0x0602 (cacheUnlock mbx) s)

/-- CACHE_SLICE (R128, R130, R138). -/
def execCacheSlice (mbx : Nat) (s : State) : Host.Outcome State Fault Refusal := .next (onCmd mbx 0x0603 (cacheSlice mbx) s)

/-- CACHE_STATUS (R138). -/
def execCacheStatus (mbx : Nat) (s : State) : Host.Outcome State Fault Refusal := .next (onCmd mbx 0x0604 (cacheStatus mbx) s)

end Sys2Proof.Machine
end

