-- ==== Sys2Proof/Machine/MemCmd.lean ====
section
/-! DEFINITION. Machine/MemCmd.lean: the mem.* commands (R201) and what they start: range scrub, clearing, repair,
sparing by command, the flip mask (R191, R193, R194, R196, R199). -/
namespace Sys2Proof.Machine

/-- Nearest line of the device's own DRAM map to a physical address (R201), as an offset. -/
def clampPa (s : State) (pa : Nat) : Nat :=
  if homeOf pa = rd s fabIdDeviceId then nearestLine s (offOf pa)
  else if pa < rd s fabIdDeviceId * 2 ^ 46 then nearestLine s 0 else nearestLine s (2 ^ 46 - 64)

/-- End of the DRAM map. -/
def mapEnd (s : State) : Nat := (s.mem.map.map fun q => q.base + q.size).foldl max 0

def mirrorCode (s : State) (c : Nat) : Nat :=
  if (chanOf s c).mirrorNo then 3 else if rdB s (mcMirrorDegraded c) then 2 else if mirrored s c then 1 else 0

def memStatus (i : Nat) (a : Bytes) (s : State) : State :=
  let c := clampUnit 16 (chanPresent s) (arg a 0 1)
  let spared := (List.range 4).foldl (fun m e => if (sparedDev s c (e / 2) (e % 2)).isSome then m + 2 ^ e else m) 0
  stageDone i (chg (arg a 0 1) c) (mkBytes [(0, 1, c), (1, 1, rd s (mcStatusState c)), (2, 1, mirrorCode s c),
    (3, 1, spared), (4, 1, rd s (mcRepairListed c)), (5, 1, rd s (mcPatrolReason c)),
    (8, 2, rd s (mcEccCountCorrected c)), (10, 2, rd s (mcEccCountUncorrectable c)), (12, 2, rd s (mcEccCountIntegrity c)),
    (14, 2, rd s (mcEccCountPoisonWritten c)), (0x10, 4, rd s (mcPatrolLapBeats c)), (0x14, 4, rd s (mcFillTimeBeats c)),
    (0x18, 8, (s.mem.scrub.map (·.lines)).getD 0)]) s

/-- Channels that hold lines of a range of the map, both of a mirrored pair: in each part of it, the members of its first blocks. -/
def rangeChans (s : State) (base size : Nat) : List Nat :=
  (s.mem.map.flatMap fun q =>
    let lo := max base q.base
    let hi := min (base + size) (q.base + q.size)
    (List.range (min q.members.length ((hi - lo) / 4096))).flatMap fun i =>
      match q.members[((lo - q.base) / 4096 + i) % q.members.length]? with
      | some c => copies s c
      | none => []).eraseDups

/-- mem.scrub: the pass starts at the boundary after the command is taken. -/
def memScrub (i : Nat) (a : Bytes) (s : State) : State :=
  let base := roundDown 4096 (clampPa s (arg a 0 8))
  let size := clampR 4096 (mapEnd s - base) (roundUp 4096 (arg a 8 8))
  let cl := chg (arg a 0 8) (paOf s base) + chg (arg a 8 8) size
  let echo := [(0, 8, paOf s base), (8, 8, size)]
  if s.mem.scrub.isSome then stageDone i cl (mkBytes (echo ++ [(0x10, 1, 1)])) s
  else
    let w : Scrub := { base := base, size := size, began := beat s + 1, since := beat s + 1 }
    let s1 := (presentChans s).foldl (fun b c => wr (mcScrubActive c) ((rangeChans s base size).contains c).toNat
      (wr (mcScrubLinesDone c) 0 b)) (setMem { s.mem with scrub := some w } s)
    stageDone i cl (mkBytes (echo ++ [(0x18, 8, beat s + 1)])) s1

/-- The pass ends: the summary goes to mailbox 0 (R196, Table 7.10). -/
def scrubEnd (s : State) : State :=
  match s.mem.scrub with
  | some w =>
    if w.size / 64 ≤ w.next then
      notify 0 0x000A [(0x18, 8, paOf s w.base), (0x20, 8, w.size), (0x28, 8, w.lines), (0x30, 4, w.corr),
          (0x34, 4, w.poisoned), (0x38, 4, w.found), (0x3C, 4, beat s + 1 - w.began)]
        ((presentChans s).foldl (fun b c => wr (mcScrubActive c) 0 b) (setMem { s.mem with scrub := none } s))
    else s
  | none => s

/-- A line cleared under a tenancy (R206, "mem.clear"): the granule check, no cached copy left, zeros under its keys. -/
def clearLine (t line : Nat) (s : State) : State :=
  if granuleOk s (line % 2 ^ 40 * 64) t false then
    let n := homeSlice s t line
    dramWrite .plain (line % 2 ^ 40) t 0 false (dropArr n line (takeBack n line none s).1)
  else refuseLine (line * 64) t s

/-- Lines of a range that are to be cleared and that something holds up: a copy on another device or in a frozen pair, an operation or
a fill (R92, R125, R249). -/
def clearHeld (s : State) (t base size : Nat) : List Nat :=
  (rangeHeld s t base size true).filter fun l => granuleOk s (l % 2 ^ 40 * 64) t false

/-- Clear a range under a tenancy. -/
def clearRange (t base size : Nat) (s : State) : State := (rangeLines base size).foldl (fun a l => clearLine t l a) s

/-- A write that clears a line of the range still waits at a channel: one of the requests before number `upto`. -/
def clearWaits (s : State) (base size upto : Nat) : Bool :=
  (presentChans s).any fun c => [0, 1].any fun b => (waitingAt s c b).any fun q =>
    q.write && decide (base / 64 ≤ q.line) && decide (q.line < (base + size) / 64) && decide (q.seq < upto)

/-- mem.clear completes at the boundary after its last line is written. -/
def clearEnd (i cl base size t n upto : Nat) (s : State) : State :=
  if clearWaits s base size upto then addDue (beat s + 1) 9 (.clearEnd i cl base size t n upto) s
  else stageDone i cl (mkBytes [(0, 8, paOf s base), (8, 8, size), (0x10, 2, t), (0x14, 4, n), (0x18, 8, beat s)]) s

/-- A range holds memory of a sealed tenancy other than `t`. -/
def holdsSealed (s : State) (t base size : Nat) : Bool :=
  (List.range (size / 4096)).any fun i =>
    let o := granuleOwner s (offOf (base + i * 4096))
    isSealed s o && o != t

/-- mem.clear. DESIGN CHOICE (log entry 42): a size that passes the end of the map is cut there, which counts as a clamp, as mem.scrub's
is; Table 7.11 does not name the end of the map. -/
def memClear (i : Nat) (a : Bytes) (s : State) : State :=
  let base := roundDown 4096 (clampPa s (arg a 0 8))
  let size := min (clampR 4096 0x40000000 (roundUp 4096 (arg a 8 8))) (max 4096 (mapEnd s - base))
  let t := if 1 ≤ i ∧ i ≤ 256 then i else min 256 (arg a 0x10 2)
  let cl := chg (arg a 0 8) (paOf s base) + chg (arg a 8 8) size + chg (arg a 0x10 2) t
  let echo := [(0, 8, paOf s base), (8, 8, size), (0x10, 2, t)]
  if (isSealed s t && i != t) || holdsSealed s i base size then stageDone i cl (mkBytes (echo ++ [(0x12, 1, 1)])) s
  else if clearHeld s t (paOf s base) size ≠ [] then
    addDue (beat s + 1) 9 (.tryAgain i) ((clearHeld s t (paOf s base) size).foldl (fun a l => ncOpen (.mailbox i) t l true a) s)
  else
    let n := ((rangeLines base size).filter fun l => granuleOwner s (l * 64) == t && (coord s (l * 64)).isSome).length
    let s1 := clearRange t (paOf s base) size (dropReads (.mailbox i) s)
    addDue (beat s + 1) 9 (.clearEnd i cl base size t n s1.mem.nextReq) s1

/-! ## Repair (R193, R194) -/

/-- A subchannel holds owned blocks. -/
def subOwned (s : State) (c sub : Nat) : Bool :=
  (List.range 32).any fun n => rdB s (mcSealBlockValid c (sub * 32 + n)) && rd s (mcSealBlockOwner c (sub * 32 + n)) != 0

/-- The row of a line is on the list. -/
def rowListed (s : State) (c : Nat) (k : Coord) : Bool :=
  (chanOf s c).repair.any fun r => r.sub == k.sub && r.rank == k.rank && r.row == rowKey k

/-- mem.repair: mode 1 on a subchannel without owned blocks starts the repair, which keeps the row's rank quiet on that subchannel
until SOFT_REPAIR_DONE ends it (R194). -/
def memRepair (i : Nat) (a : Bytes) (s : State) : State :=
  let off := clampPa s (arg a 0 8)
  let mode := clampEnum 2 0 (arg a 8 1)
  let cl := chg (arg a 0 8) (paOf s off) + chg (arg a 8 1) mode
  let echo := [(0, 8, paOf s off), (8, 1, mode)]
  match coord s off with
  | none => stageDone i cl (mkBytes (echo ++ [(9, 1, 3), (0x10, 8, beat s)])) s
  | some k =>
    let c := k.chan
    if mode = 1 ∧ subOwned s c k.sub = false then
      modChan c (fun r => { r with repairing := (k.sub * 2 + k.rank) :: r.repairing }) s
    else
      let full := (chanOf s c).repair.length = 64 ∧ rowListed s c k = false
      let out := if full then 3 else if mode = 1 then 2 else 0
      stageDone i cl (mkBytes (echo ++ [(9, 1, out), (0x10, 8, beat s)])) (listRow c k s)

/-- The lines of a row. -/
def rowLines (s : State) (c : Nat) (k : Coord) : List Nat :=
  (chanOf s c).lines.filterMap fun e => match coord s (e.1 * 64) with
    | some q => if rowKey q = rowKey k ∧ q.rank = k.rank ∧ q.sub = k.sub then some e.1 else none
    | none => none

/-- The row's rewriting ends (R194): lines are corrected as R197 states or replaced by the marker. `found` is whether
the bank group had a repair resource. -/
def softRepairDone (i : Nat) (found : Bool) (s : State) : State :=
  let a := (mbxOf s i).copy
  let m := mbxOf s i
  if m.phase = .started ∧ argCode a = 0x0504 ∧ rd s (mbxStatState i) = 2 then
    let off := clampPa s (arg a 0 8)
    let cl := chg (arg a 0 8) (paOf s off) + chg (arg a 8 1) (clampEnum 2 0 (arg a 8 1))
    match coord s off with
    | none => s
    | some k =>
      let c := k.chan
      let s0 := modChan c (fun r => { r with repairing := r.repairing.erase (k.sub * 2 + k.rank) }) s
      let (s1, bad) := if found then (rowLines s c k).foldl (fun (x : State × Nat) l =>
          let (s2, o) := scrubCopies (copies s c) true (nextSlice s) l x.1
          (s2, if o = 2 then x.2 + 1 else x.2)) (s0, 0) else (s0, 0)
      let s2 := if found then patrolTrigger c 3 (bump (mcRepairSoft c) 1 s1) else markRow c k s1
      addDue (beat s + 1) 9 (.stage i cl (mkBytes [(0, 8, paOf s off), (8, 1, 1), (9, 1, if found then 1 else 4), (0xA, 1, bad),
        (0x10, 8, beat s + 1)])) s2
  else s

/-! ## Sparing by command, flip (R191, R199) -/

/-- mem.spare: the device is spared at step 2 of the next boundary. -/
def memSpare (i : Nat) (a : Bytes) (s : State) : State :=
  let c := clampUnit 16 (chanPresent s) (arg a 0 1)
  let rank := min (ranksOf s c - 1) (arg a 1 1)
  let sub := min 1 (arg a 2 1)
  let d := min 9 (arg a 3 1)
  let cl := chg (arg a 0 1) c + chg (arg a 1 1) rank + chg (arg a 2 1) sub + chg (arg a 3 1) d
  let echo := [(0, 1, c), (1, 1, rank), (2, 1, sub), (3, 1, d)]
  if (sparedDev s c rank sub).isSome then stageDone i cl (mkBytes (echo ++ [(4, 1, 1)])) s
  else addStep i (beat s + 1) (.stage i cl (mkBytes (echo ++ [(8, 8, beat s + 1)])))
    (addStep i (beat s + 1) (.spare c rank sub d) s)

/-- mem.flip: the mask takes the place of one not yet applied. DESIGN CHOICE (log entry 42): a device_b of 0x84, as near to 9 as to 0xFF,
becomes 9. -/
def memFlip (i : Nat) (a : Bytes) (s : State) : State :=
  let off := clampPa s (arg a 0 8)
  let da := min 9 (arg a 8 1)
  let wb := arg a 9 1
  let db := if 0x85 ≤ wb then 0xF else min 9 wb
  let same := db = da
  let pa := if same then arg a 0x10 8 ^^^ arg a 0x18 8 else arg a 0x10 8
  let dbA := if same then 0xF else db
  let dbOut := if dbA = 0xF then 0xFF else dbA
  let cl := chg (arg a 0 8) (paOf s off) + chg (arg a 8 1) da + chg wb dbOut
  match locate s off with
  | none => stageDone i cl (mkBytes [(0, 8, paOf s off), (8, 1, da), (9, 1, dbOut)]) s
  | some (c, _) =>
    let s1 := wr (mcFlipCtrlArmed c) 1 (wr (mcFlipCtrlDeviceA c) da (wr (mcFlipCtrlDeviceB c) dbA
      (wr (mcFlipLineLine c) (off / 64) (wr (mcFlipPatAPattern c) pa (wr (mcFlipPatBPattern c) (arg a 0x18 8)
        (modChan c (fun r => { r with flipBeat := beat s }) s))))))
    stageDone i cl (mkBytes [(0, 8, paOf s off), (8, 1, da), (9, 1, dbOut), (0xA, 1, rd s (mcFlipCtrlArmed c)), (0x10, 1, c)]) s1

/-- MEM_STATUS (R201). -/
def execMemStatus (mbx : Nat) (s : State) : Host.Outcome State Fault Refusal := .next (onCmd mbx 0x0501 (memStatus mbx) s)
/-- MEM_SCRUB (R196, R201). -/
def execMemScrub (mbx : Nat) (s : State) : Host.Outcome State Fault Refusal := .next (onCmd mbx 0x0502 (memScrub mbx) s)
/-- RANGE_SCRUB_END (R196). -/
def execRangeScrubEnd (s : State) : Host.Outcome State Fault Refusal := .next (scrubEnd s)
/-- MEM_CLEAR (R179, R201). -/
def execMemClear (mbx : Nat) (s : State) : Host.Outcome State Fault Refusal := .next (onCmd mbx 0x0503 (memClear mbx) s)
/-- MEM_REPAIR (R193, R194, R201). -/
def execMemRepair (mbx : Nat) (s : State) : Host.Outcome State Fault Refusal := .next (onCmd mbx 0x0504 (memRepair mbx) s)
/-- SOFT_REPAIR_DONE (R194). -/
def execSoftRepairDone (mbx : Nat) (found : Bool) (s : State) : Host.Outcome State Fault Refusal :=
  .next (softRepairDone mbx found s)
/-- MEM_SPARE (R191, R201). -/
def execMemSpare (mbx : Nat) (s : State) : Host.Outcome State Fault Refusal := .next (onCmd mbx 0x0505 (memSpare mbx) s)
/-- MEM_FLIP (R199, R201). -/
def execMemFlip (mbx : Nat) (s : State) : Host.Outcome State Fault Refusal := .next (onCmd mbx 0x0506 (memFlip mbx) s)

end Sys2Proof.Machine
end

