-- ==== Sys2Proof/Machine/Pair.lean ====
section
/-! DEFINITION. Machine/Pair.lean: slots and harts, the freeze, the decision sequence, sparing, the single state, split
cores (R81 to R109), and the core.* commands (R110). -/
namespace Sys2Proof.Machine

/-! ## Small pieces -/

/-- Error latch bit k of core 0 (A) or 1 (B) of a pair (Table 4.7). -/
def errFld (p core k : Nat) : Fld :=
  match k with
  | 0 => if core = 0 then pairErrlatAL1iPar p else pairErrlatBL1iPar p
  | 1 => if core = 0 then pairErrlatAL1dEccUe p else pairErrlatBL1dEccUe p
  | 2 => if core = 0 then pairErrlatAL1dTagPar p else pairErrlatBL1dTagPar p
  | 3 => if core = 0 then pairErrlatAL2EccUe p else pairErrlatBL2EccUe p
  | 4 => if core = 0 then pairErrlatAL2TagPar p else pairErrlatBL2TagPar p
  | 5 => if core = 0 then pairErrlatARfEccUe p else pairErrlatBRfEccUe p
  | 6 => if core = 0 then pairErrlatAQueuePar p else pairErrlatBQueuePar p
  | 7 => if core = 0 then pairErrlatATlbPar p else pairErrlatBTlbPar p
  | _ => if core = 0 then pairErrlatATest p else pairErrlatBTest p

/-- A core has a latched uncorrectable or parity error; the test bit counts (Table 4.7). -/
def latched (s : State) (p core : Nat) : Bool := (List.range 9).any fun k => rdB s (errFld p core k)

def failedFld (p core : Nat) : Fld := if core = 0 then pairStatusCoreAFailed p else pairStatusCoreBFailed p

/-- A core's predictors and prefetchers are cleared to the cold state (Table 3.7). DESIGN CHOICE (log entry 34): the count of
retired branches since the last halving begins again; the spec does not say whether it does. -/
def coldPred (core : Nat) (s : State) : State := setCore core { coreOf s core with pred := {}, retired := 0 } s

/-- Code of a privilege mode in a context key (R61). -/
def privCode : Priv → Nat
  | .u => 0
  | .s => 1
  | .m => 3
  | .vu => 4
  | .vs => 5

def inGuest : Priv → Bool
  | .vu | .vs => true
  | _ => false

/-- The context key of R61: satp 0x180, vsatp 0x280, hgatp 0x680. -/
def contextKey (s : State) (h : Nat) : Nat :=
  let r := hartOf s h
  let vmid := if inGuest r.priv then csrOf s h 0x680 / 2 ^ 44 % 2 ^ 14 else 0
  let asid := if inGuest r.priv then csrOf s h 0x280 / 2 ^ 44 % 2 ^ 16
    else if r.priv = .m then 0 else csrOf s h 0x180 / 2 ^ 44 % 2 ^ 16
  Config.mix64 ((r.seed ^^^ privCode r.priv * 2 ^ 60 ^^^ vmid * 2 ^ 32 ^^^ asid) % 2 ^ 64) % 2 ^ 64

def rekey (h : Nat) (s : State) : State := setHart h { hartOf s h with ckey := contextKey s h } s

/-- A new tenancy seed, which the Clerk chooses, and the cold state (R63). -/
def newSeed (h : Nat) (s : State) : State :=
  let s1 := freeNext (setHart h { hartOf s h with seed := freeVal (2 ^ 64) s } s)
  rekey h ((coresOfHart s h).foldl (fun a c => coldPred c a) s1)

/-- dztenant and dzpair of a hart: its owner, and the pair that runs it (Table 3.10). -/
def showHart (h : Nat) (s : State) : State :=
  let s1 := wr (dztenantTenancy h) (ownerOf s h) (wrB (dztenantSealed h) (isSealed s (ownerOf s h)) s)
  match pairOfHart s h with
  | some p => wr (dzpairPairId h) p (wrB (dzpairChecked h) (!slotSplit s (h / 2) && rd s (pairStatusState p) != 4)
      (wr (dzpairTile h) (pairTile p) (wr (dzpairVariant h) (variantCode (vOf s)) s1)))
  | none => s1

/-- A hart without architectural state, of which its interrupt files are a part (R83, R110, Table 4.5): its owner and its counts
of sparing stay. -/
def blankHart (r : Hart) : Hart :=
  { owner := r.owner, seed := r.seed, ckey := r.ckey, sparings := r.sparings, lastResume := r.lastResume, fencedAt := r.fencedAt }

/-- A core whose caches, TLBs, miss queue and predictors are in the state of a core that has run nothing (Tables 3.7, 4.5). -/
def freshCores (p : Nat) (s : State) : State := setCore (2 * p) {} (setCore (2 * p + 1) {} s)

/-- A pair joins the Liberos: powered, its clock gated, its caches invalid, its predictors cold (R82). -/
def makeSpare (p : Nat) (s : State) : State :=
  wr (pairStatusState p) 9 (freshCores p (modPair p (fun q => { q with clkGated := true }) s))

/-- Where a hart stands that a sequence lets go on: stopped while its tenancy is sealing or unsealing (R218, R220). -/
def goesOnAs (s : State) (h : Nat) : HartSt :=
  let t := tenantOf s (ownerOf s h)
  if ownerOf s h ≠ 0 ∧ (t.st = .sealing ∨ t.unsealing) then .stopped else .running

/-- State a bound pair shows for its harts: offline, split, checked, or single when a core has failed (Table 4.7, R105). -/
def showPair (p : Nat) (s : State) : State :=
  if rdB s (pairStatusSlotValid p) then
    let live := (hartsOfPair s p).any fun h => (hartOf s h).st != .offline && (hartOf s h).st != .fenced
    let st := rd s (pairStatusState p)
    if st = 1 ∨ st = 2 ∨ st = 3 ∨ st = 4 ∨ st = 0 then
      let failed := rdB s (pairStatusCoreAFailed p) || rdB s (pairStatusCoreBFailed p)
      wr (pairStatusState p) (if live then (if rd s (pairCtrlMode p) = 0 then 2 else if failed then 4 else 3) else 1) s
    else s
  else s

def showSlot (h : Nat) (s : State) : State :=
  match pairOfHart s h with
  | some p => showPair p s
  | none => s

/-- The held MSIs of a hart become pending again, and its timer compares are judged against platform time (R92):
stimecmp 0x14D, vstimecmp 0x24D; the timer of a mode is identity 0 of file 0 (M), 1 (S) or 2 (VS). -/
def wakeFiles (h : Nat) (s : State) : State :=
  let r := hartOf s h
  let due := fun n => tget 0 r.csr n != 0 && decide (tget 0 r.csr n ≤ if n = 0x24D then guestTime s h else now s)
  let tm := (if r.mtimecmp != 0 && decide (r.mtimecmp ≤ now s) then [0] else []) ++ (if due 0x14D then [256] else []) ++ (if due 0x24D then [512] else [])
  setHart h { r with pend := (r.pend ++ r.held ++ tm).eraseDups, held := [] } s

/-! ## Liberos (R96, R104) -/

/-- Tiles in the order of R96 from tile t. -/
def tileOrder (s : State) (t : Nat) : List Nat :=
  ((List.range 8).map fun k => (t + k) % 8).filter (tilePresent s)

/-- The free Libero that R96 chooses for tile t. -/
def pickLibero (s : State) (t : Nat) : Option Nat :=
  (tileOrder s t).findSome? fun u => (freeLiberos s).find? fun p => pairTile p == u

/-- A Libero is reserved for a frozen pair and seeded; it clears to the cold state (R96). -/
def reserveLibero (p : Nat) (s : State) : State :=
  if (rd s (pairStatusState p) = 5 ∨ rd s (pairStatusState p) = 6) ∧ (pairOf s p).libero = none then
    match pickLibero s (pairTile p) with
    | some l => modPair p (fun q => { q with libero := some l })
        (wr (pairStatusState l) 0xA (modPair l (fun q => { q with clkGated := false }) (coldPred (2 * l) (coldPred (2 * l + 1) s))))
    | none => s
  else s

/-- A reservation that the outcome does not use returns the Libero to spare. -/
def releaseLibero (p : Nat) (s : State) : State :=
  match (pairOf s p).libero with
  | some l => makeSpare l (modPair p (fun q => { q with libero := none }) s)
  | none => s

/-- A slot's pair is taken over by Libero l: PAIR_SPARE of both (Table 4.7). -/
def noteSpare (p l : Nat) (s : State) : State :=
  wr (pairSpareToPair p) l (wr (pairSpareFromPair l) p ([p, l].foldl (fun a x =>
    wrB (pairSpareBorrowed x) (decide (pairTile l ≠ pairTile p)) a) s))

/-- Bind a slot to a pair, in checked mode, its harts offline. -/
def bindSlot (n p : Nat) (s : State) : State :=
  let s1 := modPair p (fun q => { q with clkGated := false }) <| wr (pairStatusSlot p) n (wr (pairStatusSlotValid p) 1 (wr (pairCtrlMode p) 1 (wr (pairStatusState p) 1
    (wr (pairOwnerOwnerA p) (hartOf s (2 * n)).owner (wr (pairOwnerOwnerB p) 0 s)))))
  setHart (2 * n) { blankHart (hartOf s1 (2 * n)) with st := .offline }
    { s1 with slots := tset 0 s1.slots n 0 }

/-- The waiting slot that became unbound first, ties to the lowest (R104); entries hold (boundary + 1) * 256 + the pair it had. -/
def firstWaiting (s : State) : Option (Nat × Nat) :=
  s.slots.foldl (fun b e => match b with
    | none => some e
    | some x => if e.2 / 256 < x.2 / 256 then some e else some x) none

/-- SLOT_REBIND (R104): free Liberos are bound to waiting slots. -/
def rebindSlots : Nat → State → State
  | 0, s => s
  | k + 1, s =>
    match firstWaiting s with
    | some (n, v) => match pickLibero s (pairTile (v % 256)) with
      | some l => rebindSlots k (noteSpare (v % 256) l (bindSlot n l s))
      | none => s
    | none => s

/-- Take a slot from its pair and bind it again as R104 states. -/
def unbindSlot (p : Nat) (s : State) : State :=
  let n := rd s (pairStatusSlot p)
  let s1 := wr (pairStatusSlot p) 0 (wr (pairStatusSlotValid p) 0 (wr (pairOwnerOwnerA p) 0 (wr (pairOwnerOwnerB p) 0 s)))
  rebindSlots 128 { s1 with slots := tset 0 s1.slots n ((beat s + 2) * 256 + p) }

/-! ## Drains (R97) -/

/-- A core's drain is about to present its dirty lines: where the inverted bit of its pair is armed, the pair freezes instead, and the
drain is the sequence's (R91, R109). -/
def drainTrips (core : Nat) (s : State) : State :=
  if invertArmed s (core / 2) ∧ (coreOf s core).l2.any (fun e => e.2.st == .m) then presentPair (core / 2) id s else s

/-- Every line of a core's L2 goes back to its home slice when dirty, and leaves the core; the dirty ones counted. -/
def drainCore (core : Nat) (s : State) : State × Nat :=
  let ls := (coreOf s core).l2
  ((ls.foldl (fun a e =>
    let n := homeSlice a e.2.tag e.1
    let b := dropL2 core e.1 (match dirOf a n e.1 with
      | some d => putDir n e.1 { d with cores := d.cores.filter (· != core) } a
      | none => a)
    if e.2.st = .m then keepDirty n e.1 e.2.tag (some (e.2.data, e.2.poison)) b else b) s),
   (ls.filter fun e => e.2.st == .m).length)

/-- A core's lines are discarded without write-back. -/
def discardCore (core : Nat) (s : State) : State :=
  (coreOf s core).l2.foldl (fun a e =>
    let n := homeSlice a e.2.tag e.1
    dropL2 core e.1 (match dirOf a n e.1 with
      | some d => putDir n e.1 { d with cores := d.cores.filter (· != core) } a
      | none => a)) s

/-- Drain with poison for the lines whose check fails (R108). -/
def drainBad (core : Nat) (bad : List Nat) (s : State) : State :=
  (coreOf s core).l2.foldl (fun a e =>
    let n := homeSlice a e.2.tag e.1
    let b := dropL2 core e.1 (match dirOf a n e.1 with
      | some d => putDir n e.1 { d with cores := d.cores.filter (· != core) } a
      | none => a)
    if e.2.st = .m then
      (if bad.contains e.1 then writeHome e.2.tag e.1 0 true b else keepDirty n e.1 e.2.tag (some (e.2.data, e.2.poison)) b)
    else b) s

/-- Dirty lines whose check fails in a core that has latched an error of kind 0 to 8: none where no data or tag array of the
L1D or L2 is at fault, else a free choice, since the command does not name them (log entry 35). -/
def badLinesOf (core kind : Nat) (s : State) : State × List Nat :=
  if kind = 1 ∨ kind = 2 ∨ kind = 3 ∨ kind = 4 then
    ((coreOf s core).l2.filter fun e => e.2.st == .m).foldl (fun a e =>
      (freeNext a.1, if freeVal 2 a.1 = 1 then e.1 :: a.2 else a.2)) (s, [])
  else (s, [])

/-- R103: a dirty line equal in both cores' L2s is written back once, every other is poisoned. The model holds a checked
pair's lines once, on core A's bit (R112); which of them a fault has made unequal no command says, so a free value decides
(log entry 35). -/
def drainCompared (core : Nat) (s : State) : State :=
  (coreOf s core).l2.foldl (fun a e =>
    let n := homeSlice a e.2.tag e.1
    let b := dropL2 core e.1 (match dirOf a n e.1 with
      | some d => putDir n e.1 { d with cores := d.cores.filter (· != core) } a
      | none => a)
    if e.2.st = .m then
      (if freeVal 2 b = 0 then keepDirty n e.1 e.2.tag (some (e.2.data, e.2.poison)) (freeNext b)
       else writeHome e.2.tag e.1 0 true (freeNext b))
    else b) s

/-! ## Fencing a hart (R103, R105, R108) -/

/-- Detail bytes of a platform record about a pair: the hart bound to it (Table 16.3a). -/
def hartDetail (h : Nat) : List Nat := [h % 256, h / 256]

/-- The hart of a checked pair is fenced at step 2 of the boundary after the fault (R418): state discarded, tenant and
platform told, the pair out of service in the given state, the slot bound again (R103, R104). The records name det as the
beat of detection. -/
def fenceHart (p cause det st : Nat) (s : State) : State :=
  if rd s (pairStatusState p) = 0xB ∨ rd s (pairStatusState p) = 0xC then s
  else
    let h := 2 * rd s (pairStatusSlot p)
    let own := ownerOf s h
    let s1 := releaseLibero p (setHart h { blankHart (hartOf s h) with st := .offline, fencedAt := some (beat s) } s)
    let s2 := detectedAt det (recVisible (beat s) 1 p cause [own] 0 (hartDetail h) h []) s1
    event 2 [1, p, cause] (unbindSlot p (wr (pairStatusState p) st (modPair p (fun q => { q with sideEff := none, images := [], inbound := [] }) s2)))

/-- A fault ends the hart bound to a pair: the fence falls due at step 2 of the next boundary (R418). -/
def fenceHartDue (p cause det st : Nat) (s : State) : State := addDue (beat s + 1) 2 (.fenceHart p cause det st) s

/-! ## The decision sequence (R94, R95) -/

/-- Policy in force: always fence on the D9-128E (R105, R106). -/
def policyOf (s : State) : Nat := if vOf s = .d9_128e then 0 else s.policy

/-- A step decides (Table 4.4): `outcome` 1 A broken, 2 B broken, 3 both, 4 undecided; `beats` is d - m. -/
def decideAs (p outcome beats : Nat) (s : State) : State :=
  let s0 := wr (pairDecisionOutcome p) outcome (wr (pairDecisionBeats p) beats s)
  if outcome = 1 ∨ outcome = 2 then
    let s1 := reserveLibero p (wr (failedFld p (outcome - 1)) 1 s0)
    let none' := (pairOf s1 p).libero.isNone
    let e := vOf s == .d9_128e
    let s2 := if e then releaseLibero p s1 else s1
    addDue (beat s + 1) 2 (.setFld (pairStatusState p) 7) (modPair p (fun q => { q with
      survivor := some (2 - outcome), doomed := e || (none' && policyOf s == 0), single := !e && none' && policyOf s == 1 }) s2)
  else
    let s1 := (presentSlices s).foldl (fun a m => serveReady m 48 a) (drainCompared (2 * p) (discardCore (2 * p + 1) (dropOwed p s0)))
    if outcome = 3 then fenceHartDue p 0x0103 (rd s (pairCmpBeatBeat p)) 0xB (wr (pairStatusCoreAFailed p) 1 (wr (pairStatusCoreBFailed p) 1 s1))
    else fenceHartDue p 0x0102 (rd s (pairCmpBeatBeat p)) 0xC (bump (pairCountUndecided p) 1 s1)

/-- A step of the decision sequence in the Clerk's slice (R94, R95): step 1 reads the latches; steps 2 and 3 read the results
passA and passB. The sequence stops at the first step that decides; d - m is what the beat number shows. -/
def decideStep (p step : Nat) (passA passB : Bool) (s : State) : State :=
  let beats := beat s - rd s (pairCmpBeatBeat p)
  if step = 1 then
    if rd s (pairStatusState p) = 5 then
      let s1 := wr (pairStatusState p) 6 (wr (pairDecisionStep p) 1 s)
      let a := latched s p 0
      let b := latched s p 1
      if a && !b then decideAs p 1 beats s1 else if b && !a then decideAs p 2 beats s1 else s1
    else s
  else if rd s (pairStatusState p) = 6 ∧ rd s (pairDecisionStep p) + 1 = step ∧ rd s (pairDecisionOutcome p) = 0 then
    let s1 := wr (pairDecisionStep p) step (wr (pairDecisionPass p)
      (if step = 2 then passA.toNat + 2 * passB.toNat else rd s (pairDecisionPass p) % 4 + 4 * passA.toNat + 8 * passB.toNat) s)
    if passA && passB then (if step = 3 then decideAs p 4 beats s1 else s1)
    else if passA then decideAs p 2 beats s1
    else if passB then decideAs p 1 beats s1
    else decideAs p 3 beats s1
  else s

/-- The Clerk takes a step in the slice of boundary m + k, at the earliest (R95). -/
def decideFrom (p k step : Nat) (passA passB : Bool) (s : State) : State :=
  let at' := rd s (pairCmpBeatBeat p) + k
  if beat s < at' then addDue at' 9 (.decide p step passA passB) s else decideStep p step passA passB s

/-- Both images are in the state buffer (R93); step 1 runs in the slice of boundary m + 3. -/
def captureComplete (p : Nat) (s : State) : State :=
  if rd s (pairStatusState p) = 5 ∧ (pairOf s p).images = [] then
    let r := hartOf s (2 * rd s (pairStatusSlot p))
    decideFrom p 3 1 true true (modPair p (fun q => { q with images := [r, r] }) s)
  else s

/-- The survivor's lines have left it: the snoops that the home slices held are answered from the new copies (R97). The
state copy starts, or the hart ends as R105 states. -/
def survivorDrain (p : Nat) (s : State) : State :=
  let q := pairOf s p
  let (s0, n) := drainCore (2 * p) (dropOwed p s)
  let s1 := (presentSlices s0).foldl (fun a m => serveReady m 48 a) (discardCore (2 * p + 1) s0)
  let s2 := modPair p (fun x => { x with drained := n }) s1
  if q.doomed then fenceHartDue p 0x0108 (rd s (pairCmpBeatBeat p)) 0xB s2 else wr (pairStatusState p) 8 s2

/-- A digest is checked (R98): the second bad one fences the hart. -/
def stateCopyDone (p : Nat) (ok : Bool) (s : State) : State :=
  if rd s (pairStatusState p) = 8 ∧ (pairOf s p).resumeAt = none ∧ (pairOf s p).digestBad < 2 then
    if ok then modPair p (fun q => { q with resumeAt := some (beat s + 1), images := [] }) s
    else if (pairOf s p).digestBad = 0 then modPair p (fun q => { q with digestBad := 1 }) s
    else fenceHartDue p 0x0104 (rd s (pairCmpBeatBeat p)) 0xB (modPair p (fun q => { q with digestBad := 2 }) s)
  else s

/-- A park that finds its hart offline or fenced: outcome 1 of Table 4.13 (R40). -/
def notParked (h mbx : Nat) (s : State) : State :=
  if 512 ≤ mbx then s else stageDone mbx (chg (arg (mbxOf s mbx).copy 0 2) h) (mkBytes [(0, 2, h), (2, 1, 1)]) s

/-- Step 5: the hart stops and its state is discarded; the drain engine starts. A park of a hart in the single state ends it. One
that is in a sparing sequence is stopped when that has ended (R102), and one that step 2 has fenced stays so (R40). -/
def stopHart (h mbx : Nat) (s : State) : State :=
  match pairOfHart s h with
  | some p =>
    if inSparing s p then addDue (beat s + 1) 5 (.stopHart h mbx) s
    else if hartStarted s h then modPair p (fun q => { q with parks := q.parks ++ [(h, mbx)] })
      (setHart h { blankHart (hartOf s h) with st := .stopped } s)
    else notParked h mbx s
  | none => notParked h mbx s

/-- The hart resumes (R99, R105) at the boundary after the digest check. -/
def hartResume (p : Nat) (s : State) : State :=
  let q := pairOf s p
  let h := 2 * rd s (pairStatusSlot p)
  let m := rd s (pairCmpBeatBeat p)
  match q.resumeAt with
  | none => s
  | some b =>
    if beat s < b then s
    else
      let r := hartOf s h
      let back := fun (x : Hart) => wakeFiles h (setHart h { x with st := goesOnAs s h, resv := none, access := none, cbo := none } s)
      let parks := fun (a : State) => q.parks.foldl (fun b x => stopHart x.1 (if x.2 = 1024 then 512 else x.2) b) a
      match q.libero with
      | some l =>
        let s0 := back { r with sparings := min 255 (r.sparings + 1), lastResume := beat s }
        let s1 := wr (pairStatusState l) 3 (wr (pairStatusSlot l) (h / 2) (wr (pairStatusSlotValid l) 1 (wr (pairCtrlMode l) 1
          (wr (pairOwnerOwnerA l) (rd s (pairOwnerOwnerA p)) (wr (pairOwnerOwnerB l) 0 s0)))))
        let s2 := wr (pairStatusState p) 0xB (wr (pairStatusSlot p) 0 (wr (pairStatusSlotValid p) 0 (wr (pairOwnerOwnerA p) 0
          (wr (pairOwnerOwnerB p) 0 s1))))
        let s3 := freshCores p ([p, l].foldl (fun a x => wr (pairSpareResumeBeats x) (beat s - m) a) (noteSpare p l s2))
        let s4 := needClass (pairTile l) (ownerOf s3 h) (showHart h
          (setPair p {} (setPair l { pairOf s3 l with sideEff := q.sideEff, replay := q.sideEff.isSome } s3)))
        parks (event 1 [h, p, l] (detectedAt m (recContained (beat s) 1 p 0x0101 0 (hartDetail h ++ [l])) s4))
      | none =>
        let s0 := freshCores p (setPair p { survivor := q.survivor, sideEff := q.sideEff, replay := q.sideEff.isSome } (back r))
        parks (detectedAt m (recContained (beat s) 1 p 0x0109 0 (hartDetail h)) (showHart h (wr (pairStatusState p) 4
          (wr (pairSpareResumeBeats p) (beat s - m) s0))))

/-! ## Errors outside a freeze (R88, R105, R108) -/

/-- R108: the hart of a split core is fenced; the other core keeps running. -/
def splitError (p core kind : Nat) (bad : List Nat) (s : State) : State :=
  if rd s (pairStatusState p) = 2 ∧ kind ≤ 8 then
    match hartOfCore s p core with
    | some h =>
      if (hartOf s h).st = .fenced then s else
      let own := ownerOf s h
      let s1 := drainBad (p * 2 + core) bad (wr (errFld p core kind) 1 (wr (failedFld p core) 1 s))
      let s2 := setHart h { blankHart (hartOf s1 h) with st := .fenced, fencedAt := some (beat s) } s1
      event 2 [1, p, 0x0105] (showPair p (recVisible (nextSlice s) 1 p 0x0105 [own] 0 (hartDetail h) h [] s2))
    | none => s
  else s

/-- An uncorrectable or parity error of kind 0 to 8 is latched, or a corrected one counted (kind 9 and above). It freezes a
checked pair, and fences the hart of a split core or of a single state (R88, R105, R108). -/
def arrayFault (p core kind : Nat) (s : State) : State :=
  if 8 < kind then
    let f := if core = 0 then pairErrlatACorrected p else pairErrlatBCorrected p
    bump f 1 (modPair p (fun q => if core = 0 then { q with corrA := q.corrA + 1 } else { q with corrB := q.corrB + 1 }) s)
  else
    let s1 := wr (errFld p core kind) 1 s
    let (s2, bad) := badLinesOf (2 * p + core) kind s1
    if rd s (pairStatusState p) = 3 then freeze p 0 0 (if core = 0 then 2 else 3) s1
    else if rd s (pairStatusState p) = 2 then splitError p core kind bad s2
    else if rd s (pairStatusState p) = 4 ∧ (pairOf s p).survivor = some core then
      let h := 2 * rd s (pairStatusSlot p)
      fenceHartDue p 0x0105 (beat s) 0xB (setHart h { hartOf s2 h with st := .frozen }
        (wr (failedFld p core) 1 (drainBad (2 * p + core) bad s2)))
    else s1

/-! ## Mode, start, park (R84, R110, R225) -/

/-- Every hart of slot n is offline. -/
def slotOffline (s : State) (n : Nat) : Bool :=
  [2 * n, 2 * n + 1].all fun h => merged s h || (hartOf s h).st == .offline || (hartOf s h).st == .fenced

/-- The core that hart h of a split slot runs on has failed (R108). -/
def coreFailed (s : State) (h : Nat) : Bool :=
  match pairOfHart s h with
  | some p => slotSplit s (h / 2) && rdB s (failedFld p (h % 2))
  | none => false

/-- Slot n switches mode at step 5 (R84), and core B, which changes hands between the slot's harts, comes to its mode with every
structure of Table 3.8 cleared (R69); a pair with a failed core never enters checked mode, and the failed core's hart
stays fenced (R108). -/
def applyMode (n m : Nat) (s : State) : State :=
  match pairOfSlot s n with
  | some p =>
    if slotOffline s n ∧ (m = 0 ∨ (rdB s (pairStatusCoreAFailed p) = false ∧ rdB s (pairStatusCoreBFailed p) = false)) then
      let own := rd s (pairOwnerOwnerA p)
      let s1 := wr (pairCtrlMode p) m (wr (pairOwnerOwnerB p) (if m = 0 then own else 0) (setCore (2 * p + 1) {} (drainCore (2 * p + 1) s).1))
      let st := fun h => if coreFailed s1 h then HartSt.fenced else .offline
      let s2 := setHart (2 * n + 1) { blankHart (hartOf s1 (2 * n + 1)) with st := st (2 * n + 1), owner := if m = 0 then own else 0 } s1
      let s3 := setHart (2 * n) { blankHart (hartOf s2 (2 * n)) with st := st (2 * n) } s2
      wr (pairStatusState p) 1 (newSeed (2 * n) (if m = 0 then newSeed (2 * n + 1) s3 else s3))
    else s
  | none => s

/-- The Afulem CSRs of a hart that software writes, at their reset values (Table 3.10). -/
def resetDz (h : Nat) (s : State) : State :=
  [dzcachectlDbypass h, dzcachectlIbypass h, dzprefetchL1StrideEn h, dzprefetchL2StreamEn h, dzprefetchL2Distance h].foldl
    (fun a f => wr f f.rst a) s

/-- Registers of a started hart (R110): M-mode at pc, a0 the hart ID, a1 the opaque value (x10 and x11), and every other
register at its reset value; dztenant and dzpair hold the actual values (R75). -/
def startHart (h pc opaq : Nat) (s : State) : State :=
  let r := hartOf s h
  if r.st = .offline ∧ coreFailed s h = false then
    showSlot h (rekey h (showHart h (resetDz h (setHart h { blankHart r with
      st := .running, priv := .m, pc := pc / 2 * 2, enab := [], thr := [],
      x := tset 0 (tset 0 [] 10 (h % 2 ^ 64)) 11 (opaq % 2 ^ 64) } s))))
  else s

/-- The parked hart is offline. -/
def hartOffline (h : Nat) (s : State) : State :=
  match pairOfHart s h with
  | some p =>
    if (hartOf s h).st = .stopped then
      showPair p (setHart h { hartOf s h with st := .offline } (modPair p (fun q => { q with parks := q.parks.filter (·.1 != h) }) s))
    else s
  | none => s

/-- The drains of parked harts of a pair end: results for their mailboxes, offline at the next boundary. One that has been fenced
meanwhile is reported as already offline (R40). -/
def parkDrains (p : Nat) (s : State) : State :=
  let ps := (pairOf s p).parks.filter (·.2 != 1024)
  ps.foldl (fun a (h, i) =>
    if (hartOf a h).st ≠ .stopped then (if (hartOf a h).st = .frozen then a else notParked h i a) else
    let cores := (coreOfHart a h).toList
    let a := cores.foldl (fun x c => drainTrips c x) a
    if (hartOf a h).st ≠ .stopped then a else
    let (b, n) := cores.foldl (fun (x : State × Nat) c => let (y, k) := drainCore c x.1; (y, x.2 + k)) (a, 0)
    let b1 := addDue (beat s + 1) 5 (.hartOffline h) b
    if 512 ≤ i then b1
    else addDue (beat s + 1) 9 (.stage i (chg (arg (mbxOf s i).copy 0 2) h)
      (mkBytes [(0, 2, h), (4, 4, n), (8, 8, beat s + 1)])) b1)
    (modPair p (fun q => { q with parks := q.parks.map fun x =>
      if (hartOf ((coreOfHart s x.1).toList.foldl (fun a c => drainTrips c a) s) x.1).st = .frozen then x else (x.1, 1024) }) s)

/-- The drain of a pair ends (R97): of a survivor, or of parked harts. -/
def drainDone (p : Nat) (s : State) : State :=
  if rd s (pairStatusState p) = 7 then survivorDrain p s else parkDrains p s

/-! ## core.* (R110) -/

/-- Highest hart of the variant. -/
def clampHart (s : State) (h : Nat) : Nat := min (hartCount s - 1) h

def coreMode (i : Nat) (c : Bytes) (s : State) : State :=
  let w := arg c 0 2
  let h := clampHart s w / 2 * 2
  let m := clampEnum 2 1 (arg c 2 1)
  let cl := chg w h + chg (arg c 2 1) m
  let out := fun o b => stageDone i cl (mkBytes [(0, 2, h), (2, 1, m), (3, 1, o), (8, 8, b)])
  match pairOfSlot s (h / 2) with
  | none => out 3 0 s
  | some p =>
    if slotOffline s (h / 2) = false then out 1 0 s
    else if m = 1 ∧ (rdB s (pairStatusCoreAFailed p) ∨ rdB s (pairStatusCoreBFailed p)) then out 2 0 s
    else addStep i (beat s + 1) (.stage i cl (mkBytes [(0, 2, h), (2, 1, m), (8, 8, beat s + 1)]))
      (addStep i (beat s + 1) (.mode (h / 2) m) s)

/-- The pair that runs hart h is being tested by core.requalify: DESIGN CHOICE (log entry 35), its harts do not start, with the outcome of a
failed one; the spec names none (R82, R110). -/
def underRequal (s : State) (h : Nat) : Bool := (pairOfHart s h).any fun p => rd s (pairStatusState p) == 0xD

def coreStart (i : Nat) (c : Bytes) (s : State) : State :=
  let h := clampHart s (arg c 0 2)
  let cl := chg (arg c 0 2) h
  let out := fun o => stageDone i cl (mkBytes [(0, 2, h), (2, 1, o)])
  if merged s h then out 2 s
  else if (pairOfHart s h).isNone ∨ (hartOf s h).st = .fenced ∨ coreFailed s h ∨ underRequal s h then out 3 s
  else if (hartOf s h).st ≠ .offline then out 1 s
  else
    let t := ownerOf s h
    let pc := if isSealed s t then (tenantOf s t).entry else arg c 8 8
    let off := (pairOfHart s h).filter fun p => rd s (pwrDomainState p) == 1 || rd s (pwrDomainState p) == 4
    let b := beat s + (if off.isSome then 3 else 1)
    addStep i b (.cmdStart i h pc (arg c 0x10 8) none)
      (match off with
       | some p => addDue (beat s + 1) 4 (.switch p true) s
       | none => s)

/-- core.start, or tenant.start by the hart's owner, takes effect at step 5, where what has happened to the hart at this boundary
decides its outcome (R40, R208). -/
def startFor (i h pc opaq : Nat) (own : Option Nat) (s : State) : State :=
  let fin := fun o b => stageDone i (chg (arg (mbxOf s i).copy 0 2) h) (mkBytes [(0, 2, h), (2, 1, o), (8, 8, b)])
  if own.any (· != ownerOf s h) then fin 3 0 s
  else if (pairOfHart s h).isNone ∨ (hartOf s h).st = .fenced ∨ coreFailed s h ∨ underRequal s h ∨ (hartOf s h).fencedAt = some (beat s) then
    fin (if own.isSome then 1 else 3) 0 s
  else if (hartOf s h).st ≠ .offline then fin 1 0 s
  else fin 0 (beat s) (startHart h pc opaq s)

/-- A sealed owner hears of a park at the boundary it takes effect (R225). -/
def corePark (i : Nat) (c : Bytes) (s : State) : State :=
  let h := clampHart s (arg c 0 2)
  let cl := chg (arg c 0 2) h
  let out := fun o => stageDone i cl (mkBytes [(0, 2, h), (2, 1, o)])
  if merged s h then out 2 s
  else if (hartOf s h).st = .offline ∨ (hartOf s h).st = .fenced then out 1 s
  else
    let t := ownerOf s h
    let s1 := addStep i (beat s + 1) (.stopHart h i) s
    if isSealed s t then sealNotice t 0x0002 [(0x18, 2, h), (0x1A, 1, 1), (0x20, 8, beat s + 1)] s1 else s1

/-- The state of an unbound slot's hart is reported as 1, offline: DESIGN CHOICE (log entry 35), Table 4.15 names no value
for it. -/
def coreStatus (i : Nat) (c : Bytes) (s : State) : State :=
  let h := clampHart s (arg c 0 2)
  let p := if merged s h then none else pairOfHart s h
  stageDone i (chg (arg c 0 2) h) (mkBytes [(0, 2, h), (2, 1, p.getD 0xFF),
    (3, 1, if merged s h then 0xF0 else (p.map fun x => rd s (pairStatusState x)).getD 1), (4, 2, ownerOf s h),
    (6, 1, (freeLiberos s).length), (7, 1, (hartOf s h).sparings), (8, 8, (hartOf s h).lastResume)]) s

/-- A pair whose split core has failed. -/
def failedSplit (s : State) (p : Nat) : Bool :=
  rdB s (pairStatusSlotValid p) && rd s (pairCtrlMode p) == 0 && (rdB s (pairStatusCoreAFailed p) || rdB s (pairStatusCoreBFailed p))

def coreRequalify (i : Nat) (c : Bytes) (s : State) : State :=
  let p := clampUnit 136 (pairPresent s) (arg c 0 1)
  let cl := chg (arg c 0 1) p
  let st := rd s (pairStatusState p)
  let out := fun o => stageDone i cl (mkBytes [(0, 1, p), (1, 1, o)])
  if st = 0xB ∨ st = 0xC then
    wr (pairStatusState p) 0xD (wr (pairDecisionPass p) 0 (modPair p (fun q => { q with reqMbx := some i, prior := st }) s))
  else if failedSplit s p then
    (if (hartsOfPair s p).all fun h => (hartOf s h).st == .offline || (hartOf s h).st == .fenced then
      wr (pairStatusState p) 0xD (wr (pairDecisionPass p) 0 (modPair p (fun q => { q with reqMbx := some i, prior := 1 }) s))
     else out 3 s)
  else out 2 s

/-- The march of a requalification ends: the outcome of Table 4.17. DESIGN CHOICE (log entry 35): where it passes, the error
latches of both cores are cleared with the failures. -/
def requalified (p i : Nat) (s : State) : State :=
  let pass := rd s (pairDecisionPass p)
  let good := pass = 15
  let q := pairOf s p
  let s1 := modPair p (fun x => { x with reqMbx := none }) s
  let clear := fun (a : State) => wr (pairStatusCoreAFailed p) 0 (wr (pairStatusCoreBFailed p) 0
    ((List.range 9).foldl (fun b k => wr (errFld p 0 k) 0 (wr (errFld p 1 k) 0 b)) a))
  let s2 :=
    if good then
      if rdB s (pairStatusSlotValid p) then
        (hartsOfPair s p).foldl (fun a h => if (hartOf a h).st = .fenced then setHart h { hartOf a h with st := .offline } a else a)
          (wr (pairStatusState p) 1 (freshCores p (clear s1)))
      else rebindSlots 128 (makeSpare p (clear s1))
    else wr (pairStatusState p) q.prior s1
  addDue (beat s + 1) 9 (.stage i (chg (arg (mbxOf s i).copy 0 1) p)
    (mkBytes [(0, 1, p), (1, 1, if good then 0 else 1), (2, 1, pass)])) s2

/-- The result of logic BIST: of the decision sequence or of core.requalify. -/
def bistResult (p : Nat) (a b : Bool) (s : State) : State :=
  if (pairOf s p).reqMbx.isSome ∧ rd s (pairStatusState p) = 0xD then
    wr (pairDecisionPass p) (a.toNat + 2 * b.toNat) s
  else if rd s (pairStatusState p) = 6 ∧ rd s (pairDecisionStep p) = 1 ∧ rd s (pairDecisionOutcome p) = 0 then
    decideFrom p 100 2 a b s
  else s

def marchResult (p : Nat) (a b : Bool) (s : State) : State :=
  match (pairOf s p).reqMbx with
  | some i =>
    if rd s (pairStatusState p) = 0xD then
      requalified p i (wr (pairDecisionPass p) (rd s (pairDecisionPass p) % 4 + 4 * a.toNat + 8 * b.toNat) s)
    else s
  | none =>
    if rd s (pairStatusState p) = 6 ∧ rd s (pairDecisionStep p) = 2 ∧ rd s (pairDecisionOutcome p) = 0 then
      decideFrom p 180 3 a b s
    else s

def corePolicy (i : Nat) (c : Bytes) (s : State) : State :=
  let v := if vOf s = .d9_128e then 0 else clampEnum 2 0 (arg c 0 1)
  stageDone i (chg (arg c 0 1) v) (mkBytes [(0, 1, v)]) { s with policy := v }

/-- PAIR_CTRL.inject_b: armed, it sets errlat_b.test and inverts a bit of core B's next write-data output (R436). -/
def injectB (p : Nat) (s : State) : State :=
  if (pairOf s p).injectB.isSome then
    wr (pairErrlatBTest p) 1 (modPair p (fun q => { q with injectB := none, invert := true }) s)
  else s

/-! ## Meanings -/

/-- COMPARATOR_MISMATCH (R85, R89, R91). -/
def execComparatorMismatch (pair bus bit cause : Nat) (s : State) : Host.Outcome State Fault Refusal :=
  .next (freeze pair bus bit cause s)
/-- CORE_ARRAY_ERROR (R88, R105). -/
def execCoreArrayError (pair core kind : Nat) (s : State) : Host.Outcome State Fault Refusal :=
  .next (arrayFault pair core kind s)
/-- CAPTURE_COMPLETE (R93 to R95). -/
def execCaptureComplete (pair : Nat) (s : State) : Host.Outcome State Fault Refusal := .next (captureComplete pair s)
/-- LOGIC_BIST_RESULT (R94, R95, R82). -/
def execLogicBistResult (pair : Nat) (passA passB : Bool) (s : State) : Host.Outcome State Fault Refusal :=
  .next (bistResult pair passA passB s)
/-- ARRAY_MARCH_RESULT (R94, R95, R82). -/
def execArrayMarchResult (pair : Nat) (passA passB : Bool) (s : State) : Host.Outcome State Fault Refusal :=
  .next (marchResult pair passA passB s)
/-- SURVIVOR_DRAIN_DONE (R97, R105, R110). -/
def execSurvivorDrainDone (pair : Nat) (s : State) : Host.Outcome State Fault Refusal := .next (drainDone pair s)
/-- STATE_COPY_DONE (R98, R103). -/
def execStateCopyDone (pair : Nat) (digestOk : Bool) (s : State) : Host.Outcome State Fault Refusal :=
  .next (stateCopyDone pair digestOk s)
/-- HART_RESUME_LIBERO (R99, R105). -/
def execHartResumeLibero (pair : Nat) (s : State) : Host.Outcome State Fault Refusal := .next (hartResume pair s)
/-- SPLIT_CORE_ERROR (R108). -/
def execSplitCoreError (pair core kind : Nat) (badLines : List Nat) (s : State) : Host.Outcome State Fault Refusal :=
  .next (splitError pair core kind badLines s)
/-- PAIR_INJECT_B (R109, R436). -/
def execPairInjectB (pair : Nat) (s : State) : Host.Outcome State Fault Refusal := .next (injectB pair s)
/-- PAIR_MODE_WRITE (R84, R109): the Clerk's write takes effect at step 5 of the next boundary. -/
def execPairModeWrite (pair mode : Nat) (s : State) : Host.Outcome State Fault Refusal :=
  .next (if rdB s (pairStatusSlotValid pair) ∧ mode < 2 then
    addDue (beat s + 1) 5 (.mode (rd s (pairStatusSlot pair)) mode) s else s)
/-- CORE_MODE (R84, R110). -/
def execCoreMode (mbx : Nat) (s : State) : Host.Outcome State Fault Refusal := .next (onCmd mbx 0x0401 (coreMode mbx) s)
/-- CORE_START (R110, R221). -/
def execCoreStart (mbx : Nat) (s : State) : Host.Outcome State Fault Refusal := .next (onCmd mbx 0x0402 (coreStart mbx) s)
/-- CORE_PARK (R110, R225). -/
def execCorePark (mbx : Nat) (s : State) : Host.Outcome State Fault Refusal := .next (onCmd mbx 0x0403 (corePark mbx) s)
/-- CORE_STATUS (R110). -/
def execCoreStatus (mbx : Nat) (s : State) : Host.Outcome State Fault Refusal := .next (onCmd mbx 0x0404 (coreStatus mbx) s)
/-- CORE_REQUALIFY (R82, R110). -/
def execCoreRequalify (mbx : Nat) (s : State) : Host.Outcome State Fault Refusal :=
  .next (onCmd mbx 0x0405 (coreRequalify mbx) s)
/-- CORE_POLICY (R105, R110). -/
def execCorePolicy (mbx : Nat) (s : State) : Host.Outcome State Fault Refusal := .next (onCmd mbx 0x0406 (corePolicy mbx) s)

end Sys2Proof.Machine
end

