-- ==== Sys2Proof/Machine/Hart.lean ====
section
/-! DEFINITION. Machine/Hart.lean: what a hart does beside loads and stores: waits, the seed CSR, context keys and
branch training, cache bypass, interrupts and WFI (R55 to R64, R70 to R80, R210, R399). -/
namespace Sys2Proof.Machine

/-! ## Waits (R55) -/

/-- An interrupt is pending and enabled. -/
def irqPending (s : State) (h : Nat) : Bool := (hartOf s h).pend.any fun x => (hartOf s h).enab.contains x || x % 256 == 0

/-- mstatus.TW or hstatus.VTW ends a wait below machine mode. -/
def twEnds (s : State) (h : Nat) : Bool :=
  ((hartOf s h).priv != .m && inMask (csrOf s h 0x300 / 2 ^ 21) 0) || (inGuest (hartOf s h).priv && inMask (csrOf s h 0x600 / 2 ^ 21) 0)

/-- wrs.sto and wrs.nto wait only while the reservation is held and nothing ends the wait; the instruction is counted as it
retires. -/
def wrsWait (h : Nat) (w : WrsWait) (s : State) : State :=
  let s1 := if hartRuns s h then countInst h s else s
  let r := hartOf s1 h
  if hartRuns s h ∧ r.resv.isSome ∧ irqPending s h = false ∧ (w = .sto ∨ twEnds s h = false) then
    setHart h { r with wrs := w } s1
  else s1

/-- The limit of wrs.sto: 1,000 ns. -/
def wrsTimeout (h ns : Nat) (s : State) : State :=
  let r := hartOf s h
  if r.wrs = .sto ∧ 1000 ≤ ns then setHart h { r with wrs := .none } s else s

/-! ## Package states Active and Idle (R399) -/

/-- Every started hart is in WFI. -/
def allWfi (s : State) : Bool := (startedHarts s).all fun h => (hartOf s h).wfi

def judgeIdle (s : State) : State :=
  if rd s pwrStatusPkgState = 0 ∧ allWfi s then wr pwrStatusPkgState 1 s
  else if rd s pwrStatusPkgState = 1 ∧ allWfi s = false then wr pwrStatusPkgState 0 s
  else s

/-- WFI: with an interrupt pending it completes at once. -/
def wfi (h : Nat) (s : State) : State :=
  let s1 := if hartRuns s h then countInst h s else s
  if hartRuns s h ∧ irqPending s h = false then judgeIdle (setHart h { hartOf s1 h with wfi := true } s1) else s1

/-- A pending interrupt ends WFI and the waits of Zawrs. -/
def wakeHart (h : Nat) (s : State) : State :=
  if irqPending s h then judgeIdle (setHart h { hartOf s h with wfi := false, wrs := .none } s) else s

/-! ## Interrupts (R74, R92, R210) -/

/-- Cause number of an interrupt by file (0 M, 1 S, 2 to 8 guest, 13 the local counter overflow) and identity (0 the timer), as
the privileged architecture numbers them. -/
def irqCause (irq : Nat) : Nat :=
  2 ^ 63 + (match irq / 256, irq % 256 with
    | 0, 0 => 7
    | 0, _ => 11
    | 1, 0 => 5
    | 1, _ => 9
    | 13, _ => 13
    | _, 0 => 6
    | _, _ => 10)

/-- An interrupt is taken at an instruction boundary, before the oldest instruction that has not retired. An access that has been
presented and not retired is discarded and changes nothing: where it is the oldest, xepc names it, and vstart of a vector access (0x008)
the first element not done; else xepc is pc, the address of the oldest. -/
def takeInterrupt (h irq pc : Nat) (s : State) : State :=
  let r := hartOf s h
  if hartRuns s h ∧ r.pend.contains irq ∧ (r.enab.contains irq ∨ irq % 256 = 0) then
    let s1 := match r.access with
      | some x => if x.early then dropAccess h (setHart h { r with pc := pc } s) else s
      | none => setHart h { r with pc := pc } s
    raise h (irqCause irq) 0 (wakeHart h s1)
  else s

/-- An MSI reaches an interrupt file: 255 identities, files M, S and 7 guest files (Tables 3.1, 3.2). -/
def msiWrite (tag h file ident : Nat) (s : State) : State :=
  if h < hartCount s ∧ file < 9 ∧ 1 ≤ ident ∧ ident < 256 then
    let t := ownerOf s h
    if tag = t ∨ (tag = 0 ∧ isSealed s t = false) then
      let r := hartOf s h
      let x := file * 256 + ident
      if r.st = .frozen then setHart h { r with held := (r.held ++ [x]).eraseDups } s
      else wakeHart h (setHart h { r with pend := (r.pend ++ [x]).eraseDups } s)
    else recRefusal (nextSlice s) 1 ((pairOfHart s h).getD 0xFFFF) 0x0B02 tag 0 s
  else s

/-! ## The seed CSR (R57) -/

/-- A tile's entropy source is fenced off until the next warm reset. -/
def entropyFail (t : Nat) (s : State) : State :=
  if tilePresent s t ∧ s.chip.entropyDead.contains t = false then
    recContained (nextSlice s) 10 t 0x0A05 0 [] { s with chip := { s.chip with entropyDead := t :: s.chip.entropyDead } }
  else s

/-- Exception of a read of seed that writes it, as Zkr states: SSEED and USEED are bits 9 and 8 of mseccfg (0x747). -/
def seedFault (s : State) (h : Nat) : Option Nat :=
  let on := fun k => inMask (csrOf s h 0x747) k
  match (hartOf s h).priv with
  | .m => none
  | .s => if on 9 then none else some 2
  | .u => if on 8 then none else some 2
  | .vs | .vu => if on 9 then some 22 else some 2

/-- A read of seed: OPST in bits 31:30 is DEAD (3), WAIT (1) or ES16 (2) with 16 bits of entropy, which are free. -/
def seedRead (h rd' : Nat) (ready : Bool) (s : State) : State :=
  if hartRuns s h then
    match seedFault s h, pairOfHart s h with
    | some c, _ => raiseInstr h c s
    | none, some p =>
      countInst h (if s.chip.entropyDead.contains (pairTile p) then setX h rd' (3 * 2 ^ 30) s
        else if ready then setX h rd' (2 * 2 ^ 30 + freeVal 65536 s) (freeNext s)
        else setX h rd' (2 ^ 30) s)
    | none, none => s
  else s

/-! ## Context keys (R61, R62) -/

def privOf : Nat → Priv
  | 0 => .u
  | 1 => .s
  | 4 => .vu
  | 5 => .vs
  | _ => .m

/-- A translation mode that Table 3.2 lists: Bare, Sv39, Sv48, Sv57, or their x4 forms. -/
def legalMode (v : Nat) : Bool := [0, 8, 9, 10].contains (v / 2 ^ 60 % 16)

/-- A write of satp or vsatp with a mode that is not implemented changes nothing (the privileged architecture; log entry 34). -/
def satpWrite (h c v : Nat) (s : State) : State := if legalMode v then setCsr h c v s else s

/-- A write of hgatp: a mode that is not implemented keeps the old one; VMID has 14 bits, and the root table is 16 KB aligned
(Table 3.2 and the privileged architecture; log entry 34). -/
def hgatpWrite (h v : Nat) (s : State) : State :=
  let mode := if legalMode v then v / 2 ^ 60 % 16 else csrOf s h 0x680 / 2 ^ 60 % 16
  setCsr h 0x680 (mode * 2 ^ 60 + v / 2 ^ 44 % 2 ^ 14 * 2 ^ 44 + v % 2 ^ 44 / 4 * 4) s

/-- The key is recomputed after the change; a write of these CSRs and an xRET are instructions that retire, a trap is not. -/
def keyUpdate (h : Nat) (c : KeyCause) (s : State) : State :=
  if hartRuns s h then
    rekey h (match c with
      | .trap p => setHart h { hartOf s h with priv := privOf p } s
      | .xret p => setHart h { hartOf (countInst h s) h with priv := privOf p } (countInst h s)
      | .satp v => countInst h (satpWrite h 0x180 v s)
      | .vsatp v => countInst h (satpWrite h 0x280 v s)
      | .hgatp v => countInst h (hgatpWrite h v s))
  else s

/-! ## Branch training (R64) -/

/-- History length and tag width of tagged table i (Table 3.6). -/
def histLen (i : Nat) : Nat := ([5, 13, 35, 92, 243, 640][i - 1]?).getD 0
def tagWidth (i : Nat) : Nat := 7 + i

/-- index(i) and tag(i) of R61. -/
def predIndex (key pc : Nat) (p : Pred) (i : Nat) : Nat :=
  (pc / 2 ^^^ Config.fold p.ghist (histLen i) 12 ^^^ Config.fold p.phist (min (histLen i) 32) 12 ^^^ Config.rotate key (9 * i)) % 4096
def predTag (key pc : Nat) (p : Pred) (i : Nat) : Nat :=
  (pc / 2 ^^^ Config.fold p.ghist (histLen i) (tagWidth i) ^^^ Config.rotate key (32 + 5 * i)) % 2 ^ tagWidth i
def baseIndex (key pc : Nat) : Nat := (pc / 2 ^^^ key) % 16384

def predEnt (key pc : Nat) (p : Pred) (i : Nat) : PredEnt := tget {} p.tagged (i * 4096 + predIndex key pc p i)
def setEnt (key pc : Nat) (p : Pred) (i : Nat) (e : PredEnt) (t : Table PredEnt) : Table PredEnt :=
  tset {} t (i * 4096 + predIndex key pc p i) e

/-- The longest matching table, or 0. -/
def provider (key pc : Nat) (p : Pred) : Nat :=
  ([6, 5, 4, 3, 2, 1].find? fun i => (predEnt key pc p i).valid && (predEnt key pc p i).tag == predTag key pc p i).getD 0

/-- T0's counter; the table holds it xor 1, so that an unlisted counter is weakly not-taken. -/
def baseCtr (key pc : Nat) (p : Pred) : Nat := tget 0 p.t0 (baseIndex key pc) ^^^ 1
def basePred (key pc : Nat) (p : Pred) : Bool := decide (2 ≤ baseCtr key pc p)
def predicted (key pc : Nat) (p : Pred) : Bool :=
  if provider key pc p = 0 then basePred key pc p else decide (0 ≤ (predEnt key pc p (provider key pc p)).ctr)

/-- The provider's counter moves towards the outcome, and its useful counter where it differed from T0. -/
def trainProvider (key pc : Nat) (taken : Bool) (p : Pred) : Pred :=
  let i := provider key pc p
  if i = 0 then
    let c := if taken then min 3 (baseCtr key pc p + 1) else baseCtr key pc p - 1
    { p with t0 := tset 0 p.t0 (baseIndex key pc) (c ^^^ 1) }
  else
    let e := predEnt key pc p i
    let right := decide (0 ≤ e.ctr) == taken
    let u := if decide (0 ≤ e.ctr) == basePred key pc p then e.useful else if right then min 3 (e.useful + 1) else e.useful - 1
    { p with tagged := setEnt key pc p i { e with ctr := if taken then min 3 (e.ctr + 1) else max (-4) (e.ctr - 1), useful := u } p.tagged }

/-- After a misprediction: allocate the lowest longer table with a useless entry, else age every longer one. -/
def allocate (key pc i : Nat) (taken : Bool) (p : Pred) : Pred :=
  let longer := (List.range 7).filter fun j => i < j
  match longer.find? fun j => (predEnt key pc p j).useful == 0 with
  | some j => { p with tagged := setEnt key pc p j ⟨true, predTag key pc p j, if taken then 0 else -1, 0⟩ p.tagged }
  | none => { p with tagged := longer.foldl (fun t j => setEnt key pc p j { predEnt key pc p j with useful := (predEnt key pc p j).useful - 1 } t) p.tagged }

/-- Tables written at the retire of a branch whose target was taken: micro BTB by fetch address, main BTB by fetch address and
key, in the way of a matching tag, else a free one, else one that the spec leaves open (k). DESIGN CHOICE (log entry 34): every
retired taken branch is written, with its target; the spec gives these tables no update rule. -/
def trainBtb (key pc target kind k : Nat) (p : Pred) : Pred :=
  let x := pc / 2 ^^^ key
  let way := fun w => tget none p.btb (x % 1024 * 8 + w)
  let w := ((List.range 8).find? fun w => (way w).any fun e => e.tag == x / 1024).getD
    (((List.range 8).find? fun w => (way w).isNone).getD (k % 8))
  { p with ubtb := tset none p.ubtb (x % 64) (some { tag := x / 64, target := target, kind := kind }),
           btb := tset none p.btb (x % 1024 * 8 + w) (some { tag := x / 1024, target := target, kind := kind }) }

/-- Index and tag of the indirect predictor: fetch address and path history of 32 targets, folded, and the key. -/
def indirectAt (key pc : Nat) (p : Pred) : Nat := Config.targetFold (pc :: p.targets) ^^^ key

/-- The target that a jump of this kind is predicted to: a return by the stack, an indirect jump by its predictor, and else by
the main BTB (Table 3.7 and the text after it). -/
def predictedTarget (key pc kind : Nat) (p : Pred) : Option Nat :=
  let x := pc / 2 ^^^ key
  let btb := (List.range 8).findSome? fun w => ((tget none p.btb (x % 1024 * 8 + w)).filter fun e => e.tag == x / 1024).map (·.target)
  let ind := ((tget none p.ind (indirectAt key pc p % 2048)).filter fun e => e.tag == indirectAt key pc p / 2048).map (·.target)
  if kind = 3 then p.ras.head?.or btb else if kind = 4 ∨ kind = 5 then ind.or btb else btb

/-- The indirect predictor learns a target: a matching entry gains or loses confidence, one without confidence is replaced; and
the target joins the path history. DESIGN CHOICE (log entry 34): the spec gives no update rule. -/
def trainIndirect (key pc target kind : Nat) (p : Pred) : Pred :=
  let i := indirectAt key pc p
  let fresh : TargEnt := { tag := i / 2048, target := target, kind := kind }
  let e := match tget none p.ind (i % 2048) with
    | some e => if e.tag = i / 2048 ∧ e.target = target then { e with conf := min 3 (e.conf + 1) }
        else if e.conf = 0 then fresh else { e with conf := e.conf - 1 }
    | none => fresh
  { p with ind := tset none p.ind (i % 2048) (some e), targets := (target :: p.targets).take 32 }

/-- A call pushes its return address, a return pops the newest; the stack holds 48. -/
def trainStack (pc len kind : Nat) (p : Pred) : Pred :=
  { p with ras := if kind = 2 ∨ kind = 5 then ((pc + len) :: p.ras).take 48 else if kind = 3 then p.ras.drop 1 else p.ras }

/-- A retired branch or jump was fetched past wrongly (R64 and the text before it): what is taken without a target in the BTB, a direct
jump or call among it, is predicted as fall-through; a return that finds neither stack nor BTB entry is waited for. -/
def mispredicted (key pc target kind : Nat) (taken : Bool) (p : Pred) : Bool :=
  let t := predictedTarget key pc kind p
  if kind = 0 then (if predicted key pc p && t.isSome then !taken || t != some target else taken)
  else if kind = 3 then t.isSome && t != some target
  else t != some target

/-- One retired conditional branch in one core. What the path history takes of a branch the spec does not state. -/
def trainCore (key pc target fr : Nat) (taken : Bool) (c : Core) : Core :=
  let p := c.pred
  let i := provider key pc p
  let p1 := trainProvider key pc taken p
  let p2 := if mispredicted key pc target 0 taken p && i < 6 then allocate key pc i taken { p1 with ghist := p.ghist, phist := p.phist } else p1
  { c with retired := c.retired + 1, pred := { p2 with ghist := (p.ghist * 2 + taken.toNat) % 2 ^ 640, phist := fr } }

/-- One retired branch or jump in one core: only what retires trains the tables (R64). -/
def trainBranch (key pc len target kind fr : Nat) (taken : Bool) (c : Core) : Core :=
  let c1 := if kind = 0 then trainCore key pc target fr taken c else c
  let p1 := if kind = 4 ∨ kind = 5 then trainIndirect key pc target kind c1.pred else c1.pred
  let p2 := trainStack pc len kind p1
  { c1 with pred := if taken then trainBtb key pc target kind fr p2 else p2 }

/-- A branch or jump retires: a misprediction squashes what follows it (R64, R66). -/
def branchRetire (h pc len target kind : Nat) (taken : Bool) (s : State) : State :=
  if hartRuns s h then
    let key := (hartOf s h).ckey
    let f := freeVal (2 ^ 640) s
    let miss := (coresOfHart s h).head?.elim false fun c => mispredicted key pc target kind taken (coreOf s c).pred
    let s1 := (coresOfHart s h).foldl (fun a c => setCore c (trainBranch key pc len target kind f (taken || kind != 0) (coreOf a c)) a) (freeNext s)
    let s2 := countInst h (if kind = 0 then countEvent h 0x0011 s1 else s1)
    let told := if kind = 0 then countEvent h 0x0012 s2 else if 3 ≤ kind then countEvent h 0x001E s2 else s2
    if miss then dropAccess h (flush h told) else s2
  else s

/-- Every 262,144 retired branches each useful counter is halved. -/
def usefulHalving (core : Nat) (s : State) : State :=
  let c := coreOf s core
  if 262144 ≤ c.retired then
    let t := (c.pred.tagged.map fun e => (e.1, { e.2 with useful := e.2.useful / 2 })).filter fun e => decide (e.2 ≠ {})
    setCore core { c with retired := c.retired - 262144, pred := { c.pred with tagged := t } } s
  else s

/-! ## Afulem CSRs (R75 to R78) -/

/-- dzpredctl.clear: permitted in M and HS, and complete after 2,048 core cycles (event 0x0204); virtual instruction (22) in
VS, illegal instruction (2) in U and VU. -/
def predClear (h : Nat) (s : State) : State :=
  if hartRuns s h then
    match (hartOf s h).priv with
    | .m | .s => countN h 0x0204 2048 (countInst h ((coresOfHart s h).foldl (fun a c => coldPred c a) s))
    | .vs => raiseInstr h 22 s
    | .u | .vu => raiseInstr h 2 s
  else s

/-- A write of a machine-level CSR by the mode that may make it; any other mode raises an illegal instruction. -/
def csrM (h : Nat) (f : State → State) (s : State) : State :=
  if hartRuns s h then (if (hartOf s h).priv = .m then countInst h (f s) else raiseInstr h 2 s) else s

/-- dbypass 0 to 1: the dirty lines are written back and every line leaves before the write completes. How many core cycles
that takes beyond 2 for each line is open (event 0x0203). An armed fault that the drain meets freezes the pair, and nothing is written
(R109). -/
def dbypassOn (h : Nat) (a : State) : State :=
  if rdB a (dzcachectlDbypass h) then a
  else
    let a := (coresOfHart a h).foldl (fun b c => drainTrips c b) a
    if hartRuns a h = false then a
    else
    let (b, n) := (coresOfHart a h).foldl (fun (x : State × Nat) c => let (y, k) := drainCore c x.1; (y, x.2 + k)) (a, 0)
    wr (dzcachectlDbypass h) 1 (countN h 0x0203 (2 * n + freeVal (2 ^ 32) b) (freeNext b))

def bypassSet (h : Nat) (s : State) : State := csrM h (dbypassOn h) s

def bypassClear (h : Nat) (s : State) : State := csrM h (wr (dzcachectlDbypass h) 0) s

/-- ibypass written 1: the L1I is invalidated first. -/
def ibypassOn (h : Nat) (a : State) : State :=
  wr (dzcachectlIbypass h) 1 ((coresOfHart a h).foldl (fun b c => setCore c { coreOf b c with l1i := [] } b) a)

def ibypassSet (h : Nat) (s : State) : State := csrM h (ibypassOn h) s

/-! ## Writes of other CSRs (R55, R75, R79, R87) -/

/-- Codes of Table 3.11. -/
def eventCodes : List Nat := (List.range 15).map (0x10 + ·) ++ (List.range 6).map (0x100 + ·) ++ (List.range 5).map (0x200 + ·)

/-- mhpmevent: an unsupported code sets the code field to 0; bits 63:58 are kept, bits 57:16 are reserved (R79). -/
def eventLegal (v : Nat) : Nat := (if eventCodes.contains (v % 65536) then v % 65536 else 0) + v / 2 ^ 58 % 64 * 2 ^ 58

/-- A trap vector: direct and vectored modes, base aligned to 64 bytes (Table 3.2); another mode keeps the old one. -/
def tvecLegal (old v : Nat) : Nat := v / 64 * 64 + (if v % 4 < 2 then v % 4 else old % 4)

/-- Configuration byte of PMP entry k: eight in each even register from 0x3A0 (Table 3.2 and the privileged architecture). -/
def pmpCfg (s : State) (h k : Nat) : Nat := csrOf s h (0x3A0 + k / 8 * 2) / 256 ^ (k % 8) % 256

/-- mseccfg (0x747) of Smepmp: MML bit 0, MMWP bit 1, RLB bit 2. -/
def secBit (s : State) (h k : Nat) : Bool := inMask (csrOf s h 0x747) k

/-- A PMP configuration byte: a locked entry keeps its own unless RLB lets it be written; NA4 is not selectable with a grain of 4 KB and
keeps the old mode; bits 6:5 are zero. -/
def pmpByte (rlb : Bool) (old v : Nat) : Nat :=
  if 128 ≤ old ∧ rlb = false then old else v / 128 * 128 + (if v / 8 % 4 = 2 then old / 8 % 4 else v / 8 % 4) * 8 + v % 8

def pmpCfgLegal (rlb : Bool) (old v : Nat) : Nat :=
  ofBytes ((List.range 8).map fun k => pmpByte rlb (old / 256 ^ k % 256) (v / 256 ^ k % 256))

/-- A write of mseccfg: MML and MMWP stay set, and RLB is not set while an entry is locked (Smepmp). -/
def seccfgLegal (s : State) (h v : Nat) : Nat :=
  let old := csrOf s h 0x747
  let locked := (List.range 64).any fun k => decide (128 ≤ pmpCfg s h k)
  v / 8 * 8 + (if inMask v 2 && (inMask old 2 || !locked) then 4 else 0) + ((v % 4) ||| (old % 4))

/-- pmpaddr of entry k may be written: neither it nor, as the top of a range, the entry above is locked, or RLB is set. -/
def pmpAddrOpen (s : State) (h k : Nat) : Bool :=
  secBit s h 2 || decide (pmpCfg s h k < 128) && !(decide (k < 63) && decide (128 ≤ pmpCfg s h (k + 1)) && pmpCfg s h (k + 1) / 8 % 4 == 1)

/-- Interrupt file that mtopei (0x35C), stopei (0x15C) or vstopei (0x25C) claims from: the guest file that hstatus.VGEIN names. -/
def claimFile (s : State) (h n : Nat) : Nat :=
  if n = 0x35C then 0 else if n = 0x15C then 1 else 1 + csrOf s h 0x600 / 2 ^ 12 % 64

/-- A claim: the pending and enabled identity that comes first in the file, the lowest below its threshold, is no longer pending. It
is performed by the oldest instruction, which retires with it, so the comparator's record does not outlive it (R87). -/
def imsicClaim (h n : Nat) (s : State) : State :=
  let r := hartOf s h
  let f := claimFile s h n
  let t := tget 0 r.thr f
  let may := (List.range 256).filter fun i => i != 0 && r.pend.contains (f * 256 + i) && r.enab.contains (f * 256 + i) &&
    (t == 0 || decide (i < t))
  match may.head? with
  | some i => setHart h { r with pend := r.pend.filter (· != f * 256 + i), loaded := i * 65536 + i } s
  | none => setHart h { r with loaded := 0 } s

/-- Effect of a permitted write of CSR n. What Table 3.2, Table 3.10 and R79 do not restrict is stored as written. -/
def csrStore (h n v : Nat) (s : State) : State :=
  if n = 0x7C0 then
    let s1 := if inMask v 0 then dbypassOn h s else wr (dzcachectlDbypass h) 0 s
    if inMask v 1 then ibypassOn h s1 else wr (dzcachectlIbypass h) 0 s1
  else if n = 0x7C1 then
    [dzprefetchL1StrideEn h, dzprefetchL2StreamEn h, dzprefetchL2Distance h].foldl (fieldStore v (2 ^ 64 - 1)) s
  else if n = 0x180 ∨ n = 0x280 then rekey h (satpWrite h n v s)
  else if n = 0x680 then rekey h (hgatpWrite h v s)
  else if n = 0x301 then s
  else if 0x323 ≤ n ∧ n < 0x333 then setCsr h n (eventLegal v) s
  else if (0x333 ≤ n ∧ n < 0x340) ∨ (0xB13 ≤ n ∧ n < 0xB20) then s
  else if n = 0x305 ∨ n = 0x105 ∨ n = 0x205 then setCsr h n (tvecLegal (csrOf s h n) v) s
  else if n = 0x5C0 then s
  else if n = 0x747 then setCsr h n (seccfgLegal s h v) s
  else if 0x3A0 ≤ n ∧ n < 0x3B0 then setCsr h n (pmpCfgLegal (secBit s h 2) (csrOf s h n) v) s
  else if 0x3B0 ≤ n ∧ n < 0x3F0 then (if pmpAddrOpen s h (n - 0x3B0) then setCsr h n (v % 2 ^ 54) s else s)
  else if n = 0x35C ∨ n = 0x15C ∨ n = 0x25C then imsicClaim h n s
  else setCsr h n v s

/-- In VS-mode the supervisor CSRs that have a VS counterpart stand for it (the privileged architecture). -/
def csrSeen (p : Priv) (n : Nat) : Nat :=
  if p = .vs ∧ [0x100, 0x104, 0x105, 0x140, 0x141, 0x142, 0x143, 0x144, 0x14D, 0x150, 0x151, 0x15C, 0x180].contains n then n + 0x100
  else n

/-- The CSRs of R54 and Table 3.1, numbered as the RISC-V specifications number them (PRESUMED, log entry 45), and the Afulem CSRs; those
of an absent extension (srmcfg 0x181 of Ssqosid) are not among them. -/
def csrExists (n : Nat) : Bool :=
  [0x001, 0x002, 0x003, 0x008, 0x009, 0x00A, 0x00F, 0x011, 0x015, 0x100, 0x104, 0x105, 0x106, 0x10A, 0x10C, 0x10D, 0x10E, 0x10F,
   0x140, 0x141, 0x142, 0x143, 0x144, 0x14D, 0x150, 0x151, 0x152, 0x153, 0x155, 0x156, 0x157, 0x15C, 0x180, 0x5A8, 0x5C0].contains n ||
  [0x200, 0x204, 0x205, 0x240, 0x241, 0x242, 0x243, 0x244, 0x24D, 0x250, 0x251, 0x252, 0x253, 0x255, 0x256, 0x257, 0x25C, 0x280,
   0x600, 0x602, 0x603, 0x604, 0x605, 0x606, 0x607, 0x608, 0x609, 0x60A, 0x60C, 0x60D, 0x60E, 0x60F, 0x643, 0x644, 0x645, 0x646, 0x647,
   0x64A, 0x680, 0x6A8].contains n ||
  [0x300, 0x301, 0x302, 0x303, 0x304, 0x305, 0x306, 0x308, 0x309, 0x30A, 0x30C, 0x30D, 0x30E, 0x30F, 0x320, 0x340, 0x341, 0x342, 0x343,
   0x344, 0x34A, 0x34B, 0x350, 0x351, 0x352, 0x353, 0x355, 0x356, 0x357, 0x35C, 0x747, 0x7A0, 0x7A1, 0x7A2, 0x7A3, 0x7A4, 0x7A5, 0x7A8,
   0x7C0, 0x7C1, 0xB00, 0xB02].contains n ||
  (0x323 ≤ n && n < 0x340) || (0x3A0 ≤ n && n < 0x3B0 && n % 2 == 0) || (0x3B0 ≤ n && n < 0x3F0) || (0xB03 ≤ n && n < 0xB20)

/-- Exception that a write of CSR n raises in a mode: bits 11:10 of the number mark the read-only ones, bits 9:8 the lowest mode that
may reach it; a guest's write of what HS-mode reaches is a virtual instruction. -/
def csrFault (p : Priv) (n : Nat) : Option Nat :=
  let low := n / 256 % 4
  if n / 1024 % 4 = 3 ∨ csrExists n = false then some 2
  else if n = 0x5C0 ∧ p = .vs then some 22          -- permitted in HS-mode (text before R75)
  else match p with
    | .m => none
    | .s => if low = 3 then some 2 else none
    | .u => if low = 0 then none else some 2
    | .vs => if low = 3 then some 2 else if low = 2 then some 22 else none
    | .vu => if low = 3 then some 2 else if low = 0 then none else some 22

/-- A CSR write of hart h (REGISTER_WRITE; log entry 41). dzpredctl answers as R76 states. -/
def csrWrite (h n v : Nat) (s : State) : State :=
  if hartRuns s h = false then s
  else if n = 0x5C0 ∧ inMask v 0 then predClear h s
  else match csrFault (hartOf s h).priv n with
    | some c => raiseInstr h c s
    | none => countInst h (csrStore h (csrSeen (hartOf s h).priv n) v s)

/-! ## Snoops (R71) -/

/-- An invalidation snoop takes the line, its dirty data into the home slice; instructions of it in flight are fetched
again and counted as event 0x0018. -/
def snoopInv (core line : Nat) (inFlight : Bool) (s : State) : State :=
  let s1 := l2Evict core line s
  match hartOfCore s1 (core / 2) (core % 2) with
  | some h => if inFlight then
      (let s2 := countEvent h 0x0018 (flush h s1)
       if (hartOf s2 h).access.any (·.early) then dropAccess h s2 else s2) else s1
  | none => s1

/-! ## Meanings -/

/-- ENTROPY_HEALTH_FAIL (R57). -/
def execEntropyHealthFail (tile : Nat) (s : State) : Host.Outcome State Fault Refusal := .next (entropyFail tile s)
/-- WRS_STO (R55). -/
def execWrsSto (h : Nat) (s : State) : Host.Outcome State Fault Refusal := .next (wrsWait h .sto s)
/-- WRS_STO_TIMEOUT (R55). -/
def execWrsStoTimeout (h ns : Nat) (s : State) : Host.Outcome State Fault Refusal := .next (wrsTimeout h ns s)
/-- WRS_NTO (R55). -/
def execWrsNto (h : Nat) (s : State) : Host.Outcome State Fault Refusal := .next (wrsWait h .nto s)
/-- SEED_READ (R57). -/
def execSeedRead (h rd : Nat) (ready : Bool) (s : State) : Host.Outcome State Fault Refusal := .next (seedRead h rd ready s)
/-- CONTEXT_KEY_UPDATE (R62). -/
def execContextKeyUpdate (h : Nat) (c : KeyCause) (s : State) : Host.Outcome State Fault Refusal := .next (keyUpdate h c s)
/-- BRANCH_RETIRE (R64). -/
def execBranchRetire (h pc len target kind : Nat) (taken : Bool) (s : State) : Host.Outcome State Fault Refusal :=
  .next (branchRetire h pc len target kind taken s)
/-- USEFUL_HALVING (R64). -/
def execUsefulHalving (core : Nat) (s : State) : Host.Outcome State Fault Refusal := .next (usefulHalving core s)
/-- DZPREDCTL_CLEAR (R75, R76). -/
def execDzpredctlClear (h : Nat) (s : State) : Host.Outcome State Fault Refusal := .next (predClear h s)
/-- DBYPASS_SET (R77). -/
def execDbypassSet (h : Nat) (s : State) : Host.Outcome State Fault Refusal := .next (bypassSet h s)
/-- DBYPASS_CLEAR (R78). -/
def execDbypassClear (h : Nat) (s : State) : Host.Outcome State Fault Refusal := .next (bypassClear h s)
/-- IBYPASS_SET (R75). -/
def execIbypassSet (h : Nat) (s : State) : Host.Outcome State Fault Refusal := .next (ibypassSet h s)
/-- CORE_INTERRUPT (R74): between the parts of an access or not, the access is done whole or not at
all. -/
def execCoreInterrupt (h irq pc : Nat) (s : State) : Host.Outcome State Fault Refusal :=
  .next (takeInterrupt h irq pc s)
/-- SNOOP_INVALIDATION (R71). -/
def execSnoopInvalidation (core line : Nat) (inFlight : Bool) (s : State) : Host.Outcome State Fault Refusal :=
  .next (snoopInv core line inFlight s)
/-- MSI_WRITE (R210). -/
def execMsiWrite (tag h file ident : Nat) (s : State) : Host.Outcome State Fault Refusal := .next (msiWrite tag h file ident s)
/-- MAIN_CORE_WFI (R399). -/
def execMainCoreWfi (h : Nat) (s : State) : Host.Outcome State Fault Refusal := .next (wfi h s)

end Sys2Proof.Machine
end

