-- ==== Sys2Proof/Machine/Iommu.lean ====
section
/-! DEFINITION. Machine/Iommu.lean: the IOMMU of a SerDes group (R270 to R275): its registers, device and process directories,
the two stages of translation, MSI addresses, its queues and its counters. The spec names the RISC-V IOMMU specification for
these and does not restate it; their layout is taken from it (log entry 38). -/
namespace Sys2Proof.Machine

/-- Tenancy of a device ID of a group. -/
def devTenancy (s : State) (g dev : Nat) : Nat :=
  (((groupOf s g).assigns.find? fun a => a.first ≤ dev && dev < a.first + a.count).map (·.ten)).getD 0

/-- Bits hi to lo of a value. -/
def bits (v hi lo : Nat) : Nat := v / 2 ^ lo % 2 ^ (hi + 1 - lo)

/-- Physical address of the page that bits 53 to 10 of an entry name. -/
def entPage (e : Nat) : Nat := bits e 53 10 * 4096

/-! ## Registers, in the first 4 KB of the fixed page (R268) -/

/-- The capabilities of Table 10.6: Sv39 to Sv57 in both stages, flat MSI tables, hardware A/D update, ATS, MSI interrupts,
counters, 52-bit addresses, process directories of 8, 17 and 20 bits. -/
def iomCaps : Nat :=
  0x10 + 2 ^ 9 + 2 ^ 10 + 2 ^ 11 + 2 ^ 17 + 2 ^ 18 + 2 ^ 19 + 2 ^ 22 + 2 ^ 24 + 2 ^ 25 + 2 ^ 30 + 52 * 2 ^ 32 + 2 ^ 38 + 2 ^ 39 + 2 ^ 40

def iomReg (s : State) (g off n : Nat) : Nat := getLE (groupOf s g).page off n
def setIom (g off n v : Nat) (s : State) : State := modGroup g (fun q => { q with page := putLE q.page off n v }) s

/-- Set or clear a bit of a 32-bit register. -/
def iomFlag (g off i : Nat) (on : Bool) (s : State) : State :=
  let v := iomReg s g off 4
  setIom g off 4 (v - v / 2 ^ i % 2 * 2 ^ i + on.toNat * 2 ^ i) s

def iomBit (s : State) (g off i : Nat) : Bool := iomReg s g off 4 / 2 ^ i % 2 == 1

/-- Component registers that only read: the CXL.mem capability header with one entry, the HDM decoder capability, which is found at
`hdmAt`, and its own: 16 decoders (code 8), 4 targets, both interleave granularity ranges. -/
def compFixed : Nat → Option Nat
  | 0x11000 => some (0x0001 + 2 ^ 16 + 2 ^ 20 + 2 ^ 24)
  | 0x11004 => some (0x0005 + 2 ^ 16 + 0x020 * 2 ^ 20)
  | 0x11020 => some (8 + 4 * 16 + 2 ^ 8 + 2 ^ 9)
  | _ => none

/-- A component register as 4 bytes. -/
def compRead (s : State) (g x : Nat) : Nat := (compFixed x).getD (getLE (groupOf s g).page x 4)

/-- A store to a component register: a decoder that is committed and locked keeps its registers, and a commit that is asked for is told. -/
def compWrite (g x v : Nat) (s : State) : State :=
  let put := fun (w : Nat) => modGroup g (fun q => { q with page := putLE q.page x 4 w }) s
  if (compFixed x).isSome then s
  else if hdmAt + 0x10 ≤ x ∧ x < hdmAt + 0x10 + 0x20 * hdmCount then
    let j := (x - hdmAt - 0x10) / 0x20
    if hdmCommitted s g j ∧ inMask (hdmReg s g j 16) 8 then s
    else if (x - hdmAt - 0x10) % 0x20 = 16 then
      put (v % 2 ^ 32 - v / 2 ^ 10 % 2 * 2 ^ 10 + v / 2 ^ 9 % 2 * 2 ^ 10)
    else put v
  else put v

/-- What a register reads: the capabilities are constant. -/
def fixedRead (s : State) (g x size : Nat) : Nat :=
  if groupPresent s g = false then 0
  else if x < 8 then iomCaps / 2 ^ (8 * x) % 256 ^ size
  else if 0x1000 ≤ x then (compRead s g (x / 4 * 4) + compRead s g (x / 4 * 4 + 4) * 2 ^ 32) / 256 ^ (x % 4) % 256 ^ size
  else getLE (groupOf s g).page x size

/-- Entries of a queue. -/
def queueLen (s : State) (g base : Nat) : Nat := 2 ^ (bits (iomReg s g base 8) 4 0 + 1)

/-- An interrupt of cause i (0 command queue, 1 fault queue, 2 counters, 3 page requests): pending, and its MSI unless its
vector is masked. -/
def iomInterrupt (g i : Nat) (s : State) : State :=
  if iomBit s g 84 i then s
  else
    let v := bits (iomReg s g 760 8) (4 * i + 3) (4 * i)
    let e := 768 + 16 * v
    let s1 := iomFlag g 84 i true s
    if iomReg s g (e + 12) 4 % 2 = 1 then s1
    else modGroup g (fun q => { q with msis := q.msis ++ [(getLE q.page e 8, getLE q.page (e + 8) 4)] }) s1

/-! ## Memory as the IOMMU reaches it: this device's own DRAM, under a tag -/

/-- How an access of the IOMMU ends: a value, an access fault, corrupted data, or a wait for its read of memory. -/
inductive IomMem where
  | val (v : Nat)
  | denied
  | corrupt
  | wait
  deriving DecidableEq, Repr

/-- The line of a physical address is reached under the tag. -/
def iomReach (s : State) (tag pa : Nat) : Bool :=
  ownDram s (lineOf pa) && (coord s (offOf pa)).isSome && granuleOk s (offOf pa) tag false

def iomRead (w : Reader) (tag pa n : Nat) (s : State) : State × IomMem :=
  if iomReach s tag pa then
    if ncClear s tag (lineOf pa) false = false then (ncOpen w tag (lineOf pa) false s, .wait)
    else match currentLine w (lineOf pa) tag s with
      | (s1, .data v false) => (s1, .val (lineGet v (pa % 64) n))
      | (s1, .wait) => (s1, .wait)
      | (s1, _) => (s1, .corrupt)
  else (s, .denied)

/-- A write of n bytes, merged into the line that it reads first; bytes of a poisoned line stay poison, and the write is lost. -/
def iomWrite (w : Reader) (tag pa n v : Nat) (s : State) : State × IomMem :=
  if iomReach s tag pa then
    if ncClear s tag (lineOf pa) true = false then (ncOpen w tag (lineOf pa) true s, .wait)
    else match currentLine w (lineOf pa) tag s with
      | (s1, .data x false) => (writeAtHome w (lineOf pa) tag (linePut x (pa % 64) n v) s1, .val 0)
      | (s1, .wait) => (s1, .wait)
      | (s1, _) => (s1, .corrupt)
  else (s, .denied)

/-! ## Counters -/

/-- Count an event: 1 untranslated, 2 translated, 3 translation requests, 4 misses, 5 device and 6 process directory walks, 7 first
and 8 second stage walks, in every running counter programmed for it whose filter the request passes. -/
def iomCount (g ev : Nat) (q : DevReq) (gscid pscid : Nat) (s : State) : State :=
  (List.range 8).foldl (fun a i =>
    let e := iomReg a g (352 + 8 * i) 8
    let byId := bits e 62 62 == 0
    let pass := (bits e 60 60 == 0 || bits e 35 16 == (if byId then q.pasid.getD 0 else pscid)) &&
      (bits e 61 61 == 0 || bits e 59 36 == (if byId then q.dev else gscid))
    if bits e 14 0 = ev ∧ pass ∧ iomBit a g 92 (i + 1) = false then
      let v := iomReg a g (104 + 8 * i) 8 + 1
      let b := setIom g (104 + 8 * i) 8 (v % 2 ^ 64) a
      if v = 2 ^ 64 ∧ bits e 63 63 = 0 then
        iomInterrupt g 2 (iomFlag g 88 (i + 1) true (setIom g (352 + 8 * i) 8 (e + 2 ^ 63) b))
      else b
    else a) s

/-! ## Stages of translation -/

/-- A translation's outcome: an address, a fault with its cause and second value, or a wait for a read of memory. -/
inductive IomAns where
  | ok (pa : Nat)
  | fault (cause val2 : Nat)
  | wait
  deriving DecidableEq, Repr

/-- Access fault, page fault and guest page fault of an access: fetch 0, read 1, write 2. -/
def accessCause (acc : Nat) : Nat := if acc = 0 then 1 else if acc = 1 then 5 else 7
def pageCause (acc : Nat) : Nat := if acc = 0 then 12 else if acc = 1 then 13 else 15
def guestCause (acc : Nat) : Nat := if acc = 0 then 20 else if acc = 1 then 21 else 23

/-- Levels of a mode: 8 Sv39, 9 Sv48, 10 Sv57, and their x4 forms. -/
def stageLevels (mode : Nat) : Option Nat := if mode = 8 then some 3 else if mode = 9 then some 4 else if mode = 10 then some 5 else none

/-- What a stage asks of a leaf. -/
structure Stage where
  acc   : Nat
  user  : Bool              -- the access is a user access
  sum   : Bool              -- supervisor accesses reach user pages
  guest : Bool              -- the second stage
  ad    : Bool              -- hardware updates A and D
  addr  : Nat               -- the address translated
  tag   : Nat
  grp   : Nat               -- the group whose IOMMU translates
  implicit : Bool := false  -- for a table of the first stage
  deriving DecidableEq, Repr

/-- The fault of the stage. -/
def Stage.fault (x : Stage) : IomAns :=
  if x.guest then .fault (guestCause x.acc) (x.addr / 4 * 4 + x.implicit.toNat) else .fault (pageCause x.acc) 0

/-- The leaf allows the access. -/
def Stage.allows (x : Stage) (pte : Nat) : Bool :=
  (if x.acc = 0 then inMask pte 3 else if x.acc = 1 then inMask pte 1 else inMask pte 2) &&
  (if x.guest then inMask pte 4
   else if x.user then inMask pte 4 else !inMask pte 4 || (x.sum && x.acc != 0))

/-- An entry that is not valid or has a reserved bit set; bit 63 is N, of a leaf of level 0 alone (Svnapot, R55). -/
def badPte (pte : Nat) : Bool := !inMask pte 0 || (inMask pte 2 && !inMask pte 1) || bits pte 62 54 != 0

/-- A leaf of level l maps a page of its level, or, with N set in level 0, a naturally aligned 64 KB page (Svnapot). -/
def leafSize (l pte : Nat) : Nat := if inMask pte 63 then 16 else 12 + 9 * l

/-- A leaf of level l is aligned to its size; with N set it is of level 0 and its low number bits say 64 KB. -/
def leafFits (l pte : Nat) : Bool :=
  if inMask pte 63 then l == 0 && bits pte 13 10 == 8 else bits pte 53 10 % 2 ^ (9 * l) == 0

/-- A leaf of level l: its page and the offset; A and D are set in memory where hardware does so. -/
def leaf (x : Stage) (l ea pte : Nat) (s : State) : State × IomAns :=
  if x.allows pte = false ∨ leafFits l pte = false then (s, x.fault)
  else
    let want := pte ||| 0x40 ||| (if x.acc = 2 then 0x80 else 0)
    let pa := entPage pte / 2 ^ leafSize l pte * 2 ^ leafSize l pte + x.addr % 2 ^ leafSize l pte
    if want = pte then (s, .ok pa)
    else if x.ad = false then (s, x.fault)
    else match iomWrite (.iommu x.grp) x.tag ea 8 want s with
      | (s1, .val _) => (s1, .ok pa)
      | (s1, .wait) => (s1, .wait)
      | (s1, _) => (s1, .fault (accessCause x.acc) 0)

/-- The walk of a stage from level l downwards, the table at a; `place` gives the physical address of an entry. The top level's
index is 2 bits wider in the second stage. -/
def walk (place : Nat → State → State × IomAns) (x : Stage) (top : Nat) : Nat → Nat → State → State × IomAns
  | 0, _, s => (s, x.fault)
  | l + 1, a, s =>
    let idx := bits x.addr (12 + 9 * l + 8 + (if x.guest ∧ l + 1 = top then 2 else 0)) (12 + 9 * l)
    match place (a + idx * 8) s with
    | (s1, .fault c v) => (s1, .fault c v)
    | (s1, .wait) => (s1, .wait)
    | (s1, .ok ea) =>
      match iomRead (.iommu x.grp) x.tag ea 8 s1 with
      | (s2, .wait) => (s2, .wait)
      | (s2, .denied) => (s2, .fault (accessCause x.acc) 0)
      | (s2, .corrupt) => (s2, .fault 274 0)
      | (s2, .val pte) =>
        if badPte pte then (s2, x.fault)
        else if inMask pte 1 ∨ inMask pte 3 then leaf x l ea pte s2
        else if bits pte 7 4 % 2 = 1 ∨ bits pte 7 6 ≠ 0 ∨ inMask pte 63 then (s2, x.fault)
        else walk place x top l (entPage pte) s2

/-- The second stage under an hgatp: bare, or a walk; an address beyond its width is a guest page fault. -/
def secondStage (hgatp : Nat) (x : Stage) (s : State) : State × IomAns :=
  match stageLevels (bits hgatp 63 60) with
  | none => (s, .ok x.addr)
  | some n => if 2 ^ (14 + 9 * n) ≤ x.addr then (s, x.fault)
    else walk (fun a b => (b, .ok a)) x n n (bits hgatp 43 0 * 4096) s

/-- The first stage under an satp, its tables in the guest's addresses. -/
def firstStage (satp hgatp : Nat) (gade : Bool) (x : Stage) (s : State) : State × IomAns :=
  match stageLevels (bits satp 63 60) with
  | none => (s, .ok x.addr)
  | some n =>
    let top := bits x.addr 63 (11 + 9 * n)
    if top ≠ 0 ∧ top ≠ 2 ^ (53 - 9 * n) - 1 then (s, x.fault)
    else walk (fun a b => secondStage hgatp { x with acc := 1, guest := true, ad := gade, addr := a, implicit := true } b) x n n
      (bits satp 43 0 * 4096) s

/-! ## Contexts -/

/-- A device context in the extended format: tc, iohgatp, ta, fsc, msiptp, MSI mask and pattern, and the tag under which it and
its tables are read (R275). -/
structure DevCtx where
  tc     : Nat
  hgatp  : Nat
  ta     : Nat
  fsc    : Nat
  msiptp : Nat
  mask   : Nat
  pat    : Nat
  tag    : Nat
  grp    : Nat                -- the group whose IOMMU reads them
  own    : Bool               -- supplied by a tenant
  deriving DecidableEq, Repr

/-- A search's outcome with what was found. -/
inductive IomFound (α : Type) where
  | got (x : α)
  | fault (cause : Nat)
  | wait
  deriving DecidableEq, Repr

/-- The context is well formed: known modes, flat MSI tables alone, little-endian, PRI under ATS. -/
def ctxOk (c : DevCtx) : Bool :=
  let h := bits c.hgatp 63 60
  let f := bits c.fsc 63 60
  bits c.tc 31 12 == 0 && !inMask c.tc 10 && !inMask c.tc 11 && !inMask c.tc 3 && (!inMask c.tc 2 || inMask c.tc 1) &&
    (h == 0 || (stageLevels h).isSome) && (if inMask c.tc 5 then decide (f ≤ 3) else f == 0 || (stageLevels f).isSome) &&
    decide (bits c.msiptp 63 60 ≤ 1)

/-- Read a context at its place. -/
def readCtx (g tag pa : Nat) (own : Bool) (s : State) : State × IomFound DevCtx :=
  match iomRead (.iommu g) tag pa 64 s with
  | (s1, .wait) => (s1, .wait)
  | (s1, .denied) => (s1, .fault 257)
  | (s1, .corrupt) => (s1, .fault 268)
  | (s1, .val v) =>
    let d := fun i => v / 2 ^ (64 * i) % 2 ^ 64
    let c : DevCtx := { tc := d 0, hgatp := d 1, ta := d 2, fsc := d 3, msiptp := d 4, mask := bits (d 5) 51 0,
                        pat := bits (d 6) 51 0, tag := tag, grp := g, own := own }
    if inMask c.tc 0 = false then (s1, .fault 258) else if ctxOk c = false then (s1, .fault 259) else (s1, .got c)

/-- Index of a device ID at a level of the directory: 6 bits, then 9 and 9. -/
def ddi (dev l : Nat) : Nat := if l = 0 then bits dev 5 0 else if l = 1 then bits dev 14 6 else bits dev 23 15

/-- The directory from level l downwards. -/
def ddtWalk (g dev : Nat) : Nat → Nat → State → State × IomFound DevCtx
  | 0, a, s => readCtx g 0 (a + ddi dev 0 * 64) false s
  | l + 1, a, s =>
    match iomRead (.iommu g) 0 (a + ddi dev (l + 1) * 8) 8 s with
    | (s1, .wait) => (s1, .wait)
    | (s1, .denied) => (s1, .fault 257)
    | (s1, .corrupt) => (s1, .fault 268)
    | (s1, .val e) =>
      if inMask e 0 = false then (s1, .fault 258)
      else if bits e 9 1 ≠ 0 ∨ bits e 63 54 ≠ 0 then (s1, .fault 259)
      else ddtWalk g dev l (entPage e) s1

/-- Directory levels of ddtp.mode: 2 one, 3 two, 4 three. -/
def ddtLevels (mode : Nat) : Option Nat := if 2 ≤ mode ∧ mode ≤ 4 then some (mode - 2) else none

/-- A process context: its ta and satp. -/
def readProc (c : DevCtx) (acc gpa : Nat) (s : State) : State × IomFound (Nat × Nat) :=
  match secondStage c.hgatp { acc := 1, user := true, sum := false, guest := true, ad := inMask c.tc 7, addr := gpa, tag := c.tag, grp := c.grp,
                              implicit := true } s with
  | (s1, .fault k _) => (s1, .fault (if k = 21 then guestCause acc else 265))
  | (s1, .wait) => (s1, .wait)
  | (s1, .ok pa) => match iomRead (.iommu c.grp) c.tag pa 16 s1 with
    | (s2, .wait) => (s2, .wait)
    | (s2, .denied) => (s2, .fault 265)
    | (s2, .corrupt) => (s2, .fault 269)
    | (s2, .val v) => (s2, .got (v % 2 ^ 64, v / 2 ^ 64))

/-- Index of a process ID at a level: 8 bits, then 9 and 3. -/
def pdi (pid l : Nat) : Nat := if l = 0 then bits pid 7 0 else if l = 1 then bits pid 16 8 else bits pid 19 17

/-- The process directory from level l downwards. -/
def pdtWalk (c : DevCtx) (pid acc : Nat) : Nat → Nat → State → State × IomFound (Nat × Nat)
  | 0, a, s =>
    match readProc c acc (a + pdi pid 0 * 16) s with
    | (s1, .got (ta, fsc)) =>
      if inMask ta 0 = false then (s1, .fault 266)
      else if bits fsc 63 60 ≠ 0 ∧ (stageLevels (bits fsc 63 60)).isNone then (s1, .fault 267)
      else (s1, .got (ta, fsc))
    | (s1, .wait) => (s1, .wait)
    | (s1, .fault k) => (s1, .fault k)
  | l + 1, a, s =>
    match readProc c acc (a + pdi pid (l + 1) * 8) s with
    | (s1, .got (e, _)) =>
      if inMask e 0 = false then (s1, .fault 266)
      else if bits e 9 1 ≠ 0 ∨ bits e 63 54 ≠ 0 then (s1, .fault 267)
      else pdtWalk c pid acc l (entPage e) s1
    | (s1, .wait) => (s1, .wait)
    | (s1, .fault k) => (s1, .fault k)

/-! ## MSI addresses -/

/-- The bits of a page number at the places of a mask, gathered. -/
def gather (mask v : Nat) : Nat :=
  (((List.range 52).filter (inMask mask)).zipIdx.map fun (i, j) => (v / 2 ^ i % 2) * 2 ^ j).sum

/-- The address names a virtual interrupt file of the context. -/
def isMsi (c : DevCtx) (gpa : Nat) : Bool :=
  bits c.msiptp 63 60 == 1 && (gpa / 4096 ||| c.mask) == (c.pat ||| c.mask)

/-- Flat mode: the entry of the interrupt file gives its page. -/
def msiTranslate (c : DevCtx) (acc gpa : Nat) (s : State) : State × IomAns :=
  match iomRead (.iommu c.grp) c.tag (bits c.msiptp 43 0 * 4096 + gather c.mask (gpa / 4096) * 16) 16 s with
  | (s1, .wait) => (s1, .wait)
  | (s1, .denied) => (s1, .fault 261 gpa)
  | (s1, .corrupt) => (s1, .fault 270 gpa)
  | (s1, .val e) =>
    if inMask e 0 = false then (s1, .fault 262 gpa)
    else if bits e 2 1 ≠ 3 ∨ inMask e 63 ∨ bits e 9 3 ≠ 0 ∨ bits e 62 54 ≠ 0 then (s1, .fault 263 gpa)
    else if acc = 0 then (s1, .fault 1 gpa)
    else (s1, .ok (entPage e + gpa % 4096))

/-! ## One request -/

/-- The access a request makes. -/
def reqAcc (q : DevReq) : Nat := if q.write then 2 else if q.exec then 0 else 1

/-- The device context of a request: the tenant's own where it has supplied one (R275), else the directory's; none is the
identity of ddtp.mode 1. -/
def findCtx (g : Nat) (q : DevReq) (s : State) : State × IomFound (Option DevCtx) :=
  let own := tget 0 (groupOf s g).ctx q.dev
  let ddtp := iomReg s g 16 8
  if own ≠ 0 then
    match readCtx g (devTenancy s g q.dev) (own - 1) true (iomCount g 5 q 0 0 s) with
    | (s1, .got c) => (s1, .got (some c))
    | (s1, .wait) => (s1, .wait)
    | (s1, .fault k) => (s1, .fault k)
  else if bits ddtp 3 0 = 0 then (s, .fault 256)
  else if bits ddtp 3 0 = 1 then (if q.kind = 0 then (s, .got none) else (s, .fault 260))
  else match ddtLevels (bits ddtp 3 0) with
    | none => (s, .fault 256)
    | some l =>
      if (if l = 0 then 2 ^ 6 else if l = 1 then 2 ^ 15 else 2 ^ 24) ≤ q.dev then (s, .fault 260)
      else match ddtWalk g q.dev l (entPage ddtp) (iomCount g 5 q 0 0 s) with
        | (s1, .got c) => (s1, .got (some c))
        | (s1, .wait) => (s1, .wait)
        | (s1, .fault k) => (s1, .fault k)

/-- The first-stage satp of a request, its PSCID, and whether it may reach user pages as a supervisor: the context's own, or its
process's. -/
def findProc (g : Nat) (c : DevCtx) (q : DevReq) (s : State) : State × IomFound (Nat × Nat × Bool × Bool) :=
  let mode := bits c.fsc 63 60
  if inMask c.tc 5 = false then
    if q.pasid.isSome then (s, .fault 260) else (s, .got (c.fsc, bits c.ta 31 12, true, false))
  else match q.pasid.or (if inMask c.tc 9 then some 0 else none) with
    | none => (s, .got (0, 0, true, false))
    | some pid =>
      if mode = 0 then (s, .got (0, 0, true, false))
      else if (if mode = 1 then 2 ^ 8 else if mode = 2 then 2 ^ 17 else 2 ^ 20) ≤ pid then (s, .fault 260)
      else match pdtWalk c pid (reqAcc q) (mode - 1) (bits c.fsc 43 0 * 4096) (iomCount g 6 q (bits c.hgatp 59 44) 0 s) with
        | (s1, .got (ta, fsc)) =>
          if q.priv ∧ inMask ta 1 = false then (s1, .fault 260)
          else (s1, .got (fsc, bits ta 31 12, !(q.priv && inMask ta 1), inMask ta 2))
        | (s1, .wait) => (s1, .wait)
        | (s1, .fault k) => (s1, .fault k)

/-- Translate a request's address under its context: first stage, MSI address, second stage. -/
def translateIn (g : Nat) (c : DevCtx) (q : DevReq) (s : State) : State × IomAns :=
  match findProc g c q s with
  | (s1, .fault k) => (s1, .fault k 0)
  | (s1, .wait) => (s1, .wait)
  | (s1, .got (satp, pscid, user, sum)) =>
    let gscid := bits c.hgatp 59 44
    let x : Stage := { acc := (reqAcc q), user := user, sum := sum, guest := false, ad := inMask c.tc 8, addr := q.iova, tag := c.tag, grp := g }
    match firstStage satp c.hgatp (inMask c.tc 7) x (iomCount g 7 q gscid pscid s1) with
    | (s2, .fault k v) => (s2, .fault k v)
    | (s2, .wait) => (s2, .wait)
    | (s2, .ok gpa) =>
      if isMsi c gpa then msiTranslate c (reqAcc q) gpa s2
      else secondStage c.hgatp { x with guest := true, ad := inMask c.tc 7, addr := gpa } (iomCount g 8 q gscid pscid s2)

/-! ## Queues -/

/-- Transaction type of a fault record. -/
def ttyp (q : DevReq) : Nat :=
  if q.kind = 2 then 8 else if q.kind = 3 then 9
  else (if q.kind = 1 then 4 else 0) + (if q.write then 3 else if q.exec then 1 else 2)

/-- A queue takes an entry: at its tail, unless it is off, in error, or full. Queue registers: base, head, tail, csr. False: the entry
waits for the read of the line it goes to. -/
def pushQueue (g base csr irq n v : Nat) (s : State) : State × Bool :=
  let head := iomReg s g (base + 8) 4
  let tail := iomReg s g (base + 12) 4
  if iomBit s g csr 16 = false ∨ iomBit s g csr 8 ∨ iomBit s g csr 9 then (s, true)
  else
    let tell := fun (a : State) => if iomBit s g csr 1 then iomInterrupt g irq a else a
    if (tail + 1) % queueLen s g base = head then (tell (iomFlag g csr 9 true s), true)
    else match iomWrite (.iommu g) 0 (entPage (iomReg s g base 8) + tail * n) n v s with
      | (s1, .val _) => (tell (setIom g (base + 12) 4 ((tail + 1) % queueLen s g base) s1), true)
      | (s1, .wait) => (s1, false)
      | (s1, _) => (tell (iomFlag g csr 8 true s1), true)

/-- The causes that a context's DTF bit does not suppress. -/
def alwaysTold (cause : Nat) : Bool := [256, 257, 258, 259, 268, 272, 273].contains cause

/-- A fault record in the fault queue (32 bytes). -/
def faultRecord (g cause val2 : Nat) (q : DevReq) (s : State) : State × Bool :=
  let pid := q.pasid.getD 0
  pushQueue g 40 76 1 32 (cause % 4096 + pid % 2 ^ 20 * 2 ^ 12 + q.pasid.isSome.toNat * 2 ^ 32 + q.priv.toNat * 2 ^ 33 +
    ttyp q * 2 ^ 34 + q.dev * 2 ^ 40 + q.iova % 2 ^ 64 * 2 ^ 128 + val2 % 2 ^ 64 * 2 ^ 192) s

/-- A fault of a request: under a tenant's context the tenant's record and no platform queue (R275), else the fault queue. -/
def tellFault (g unit cause val2 : Nat) (dtf : Bool) (q : DevReq) (s : State) : State × Bool :=
  let t := devTenancy s g q.dev
  if tget 0 (groupOf s g).ctx q.dev ≠ 0 then
    (recVisible (nextSlice s) 4 unit 0x0404 [t] 0 [] unit (bytesOf 8 cause ++ bytesOf 8 q.iova) s, true)
  else if dtf ∧ alwaysTold cause = false then (s, true)
  else faultRecord g cause val2 q s

/-- A translation request is told of a page fault by its answer alone. -/
def isPageFault (cause : Nat) : Bool := [12, 13, 15, 20, 21, 23].contains cause

/-- Translate a request (R270, R271): its physical address, or the fault, told. Requests that use ATS need EN_ATS. -/
def iomTry (g unit : Nat) (q : DevReq) (s : State) : State × IomAns :=
  let told := fun (x : State × Bool) (k v : Nat) => (x.1, if x.2 then IomAns.fault k v else .wait)
  match findCtx g q (iomCount g (q.kind + 1) q 0 0 s) with
  | (s1, .fault k) => told (tellFault g unit k 0 false q s1) k 0
  | (s1, .wait) => (s1, .wait)
  | (s1, .got none) => (s1, .ok q.iova)
  | (s1, .got (some c)) =>
    if q.kind ≠ 0 ∧ inMask c.tc 1 = false then told (tellFault g unit 260 0 (inMask c.tc 4) q s1) 260 0
    else if q.kind = 1 then (s1, .ok q.iova)
    else match translateIn g c q (iomCount g 4 q 0 0 s1) with
      | (s2, .ok pa) => (s2, .ok pa)
      | (s2, .wait) => (s2, .wait)
      | (s2, .fault k v) => if q.kind = 2 ∧ isPageFault k then (s2, .fault k v) else told (tellFault g unit k v (inMask c.tc 4) q s2) k v

/-- A request that waits for a read of memory leaves the IOMMU as it was, and is tried again; one that ends forgets what it has read. -/
def iomTranslate (g unit : Nat) (q : DevReq) (s : State) : State × IomAns :=
  match iomTry g unit q s with
  | (s1, .wait) => ({ s1 with groups := s.groups }, .wait)
  | (s1, a) => (dropReads (.iommu g) s1, a)

/-- The answer to a page request: 0 success, 3 response failure, 4 invalid request. A queued one is answered later, by ATS.PRGR. -/
inductive PageAns where
  | queued
  | answer (code : Nat)
  | wait
  deriving DecidableEq, Repr

/-- A page request (PRI): the record enters the page request queue; under a tenant's context it is invalid (R275). -/
def pageTry (g : Nat) (q : DevReq) (s : State) : State × PageAns :=
  let told := fun (x : State × Bool) (a : PageAns) => (x.1, if x.2 then a else .wait)
  if tget 0 (groupOf s g).ctx q.dev ≠ 0 then (s, .answer 4)
  else match findCtx g q s with
    | (s1, .got (some c)) =>
      if inMask c.tc 2 = false then told (tellFault g 0 260 0 (inMask c.tc 4) q s1) (.answer 4)
      else if iomBit s1 g 80 16 = false ∨ iomBit s1 g 80 8 then (s1, .answer 3)
      else if iomBit s1 g 80 9 ∨ (iomReg s1 g 68 4 + 1) % queueLen s1 g 56 = iomReg s1 g 64 4 then
        told (pushQueue g 56 80 3 16 0 s1) (.answer 0)
      else told (pushQueue g 56 80 3 16 (q.pasid.getD 0 % 2 ^ 20 * 2 ^ 12 + q.pasid.isSome.toNat * 2 ^ 32 + q.priv.toNat * 2 ^ 33 +
          q.exec.toNat * 2 ^ 34 + q.dev * 2 ^ 40 + (q.iova / 4096 * 4096 + q.data % 4096) % 2 ^ 64 * 2 ^ 64) s1) .queued
    | (s1, .fault k) => told (tellFault g 0 k 0 false q s1) (.answer (if k = 258 ∨ k = 260 then 4 else 3))
    | (s1, .got none) => (s1, .answer 4)
    | (s1, .wait) => (s1, .wait)

/-- A page request that waits for a read of memory leaves the IOMMU as it was, and is tried again. -/
def pageRequest (g : Nat) (q : DevReq) (s : State) : State × PageAns :=
  match pageTry g q s with
  | (s1, .wait) => ({ s1 with groups := s.groups }, .wait)
  | (s1, a) => (dropReads (.iommu g) s1, a)

/-! ## The command queue and register writes -/

/-- What the command queue reads and writes is another reader's than what the requests of the group do. -/
def queueReader (g : Nat) : Reader := .iommu (64 + g)

/-- One command of 16 bytes: none is a command error, else how its access to memory ends. -/
def iomCommand (g v : Nat) (s : State) : State × Option IomMem :=
  let op := bits v 6 0
  let f := bits v 9 7
  if op = 1 ∧ f ≤ 1 then (modGroup g (fun q => { q with cached := [] }) s, some (.val 0))
  else if op = 2 ∧ f = 0 ∧ inMask v 11 = false then
    if inMask v 10 then
      let (s1, done) := iomWrite (queueReader g) 0 (v / 2 ^ 64 * 4) 4 (bits v 63 32) s
      (s1, some done)
    else (s, some (.val 0))
  else if op = 3 ∧ f ≤ 1 then
    (modGroup g (fun q => { q with cached := if inMask v 33 then q.cached.filter (· != bits v 63 40) else [] }) s, some (.val 0))
  else if op = 4 ∧ f ≤ 1 then (modGroup g (fun q => { q with toDevice := q.toDevice ++ [v] }) s, some (.val 0))
  else (s, none)

/-- Commands from head to tail, at most n; an error stops the queue, and one that waits for memory goes on in the next beat. -/
def runCommands (g : Nat) : Nat → State → State
  | 0, s => s
  | n + 1, s =>
    let head := iomReg s g 32 4
    let tell := fun (a : State) => if iomBit s g 72 1 then iomInterrupt g 0 a else a
    if iomBit s g 72 16 = false ∨ iomBit s g 72 8 ∨ iomBit s g 72 9 ∨ iomBit s g 72 10 ∨ head = iomReg s g 36 4 then s
    else match iomRead (queueReader g) 0 (entPage (iomReg s g 24 8) + head * 16) 16 s with
      | (s1, .val v) =>
        match iomCommand g v s1 with
        | (s2, some (.val _)) => runCommands g n (dropReads (queueReader g) (setIom g 32 4 ((head + 1) % queueLen s g 24) s2))
        | (s2, some .wait) => s2
        | (s2, some _) => tell (iomFlag g 72 8 true s2)
        | (s2, none) => tell (iomFlag g 72 10 true s2)
      | (s1, .wait) => s1
      | (s1, _) => tell (iomFlag g 72 8 true s1)

/-- In each beat a command queue that waits for memory goes on. -/
def queuesBeat (s : State) : State := (presentGroups s).foldl (fun a g => runCommands g (queueLen a g 24) a) s

/-- Bits that a store writes and bits that a one clears, of the register at an offset (8 bytes where the register has 8). -/
def iomMasks (x : Nat) : Nat × Nat :=
  if x = 16 then (0x003FFFFFFFFFFC0F, 0)
  else if x = 24 ∨ x = 40 ∨ x = 56 then (0x003FFFFFFFFFFC1F, 0)
  else if x = 36 ∨ x = 48 ∨ x = 64 then (0xFFFFFFFF, 0)
  else if x = 72 then (3, 0xF00) else if x = 76 ∨ x = 80 then (3, 0x300)
  else if x = 84 then (0, 0xF) else if x = 92 then (0x1FF, 0)
  else if x = 96 ∨ (104 ≤ x ∧ x < 168 ∧ x % 8 = 0) ∨ (352 ≤ x ∧ x < 416 ∧ x % 8 = 0) then (2 ^ 64 - 1, 0)
  else if x = 760 then (0xFFFF, 0)
  else if 768 ≤ x ∧ x < 1024 then (if x % 16 = 0 then (0x00FFFFFFFFFFFFFC, 0) else if x % 16 = 8 then (0xFFFFFFFF, 0) else (1, 0))
  else (0, 0)

/-- Width of the register at an offset, in bytes. -/
def iomWidth (x : Nat) : Nat :=
  if (32 ≤ x ∧ x < 40) ∨ (48 ≤ x ∧ x < 56) ∨ (64 ≤ x ∧ x < 96) ∨ (768 ≤ x ∧ 8 ≤ x % 16) then 4 else 8

/-- A queue is switched on or off by its enable bit: switched on, it starts empty. -/
def switchQueue (g csr idx : Nat) (s : State) : State :=
  let want := iomBit s g csr 0
  if want = iomBit s g csr 16 then s
  else if want then setIom g idx 4 0 (iomFlag g csr 16 want s)
  else iomFlag g csr 16 want s

/-- The store of a value to one register, and what follows from it. -/
def iomStore (g x v : Nat) (s : State) : State :=
  let n := iomWidth x
  let (wrm, clr) := iomMasks x
  let old := iomReg s g x n
  let v1 := ((old ^^^ (old &&& wrm)) ||| (v &&& wrm))
  let v2 := v1 ^^^ (v1 &&& (v &&& clr))
  let v3 := if x = 16 ∧ 4 < bits v2 3 0 then old
    else if x = 36 then v2 % queueLen s g 24 else if x = 48 then v2 % queueLen s g 40 else if x = 64 then v2 % queueLen s g 56 else v2
  let s1 := setIom g x n v3 s
  if x = 36 then runCommands g (queueLen s1 g 24) s1
  else if x = 72 then (let s2 := switchQueue g 72 32 s1; runCommands g (queueLen s2 g 24) s2)
  else if x = 76 then switchQueue g 76 52 s1
  else if x = 80 then switchQueue g 80 68 s1
  else s1

/-- A store of 4 or 8 aligned bytes to the fixed page: the IOMMU's registers, or the component registers (R268). -/
def fixedWrite (g x size v : Nat) (s : State) : State :=
  if groupPresent s g = false then s
  else if 0x1000 ≤ x then
    (if size = 8 then compWrite g (x + 4) (v / 2 ^ 32 % 2 ^ 32) (compWrite g x (v % 2 ^ 32) s) else compWrite g (x / 4 * 4) (v % 2 ^ 32) s)
  else
    let r := if iomWidth x = 8 then x / 8 * 8 else x
    if size = 8 ∧ iomWidth x = 4 then iomStore g (x + 4) (v / 2 ^ 32) (iomStore g x (v % 2 ^ 32) s)
    else if size = 4 ∧ iomWidth x = 8 then
      let old := iomReg s g r 8
      iomStore g r (if x = r then old / 2 ^ 32 * 2 ^ 32 + v % 2 ^ 32 else old % 2 ^ 32 + v % 2 ^ 32 * 2 ^ 32) s
    else iomStore g x v s

end Sys2Proof.Machine
end

