-- ==== Sys2Proof/Machine/Serdes.lean ====
section
/-! DEFINITION. Machine/Serdes.lean: SerDes groups, roles and links, tenancy of device traffic, windows, the endpoint
and memory-device roles, and the port.* commands (R265 to R293). -/
namespace Sys2Proof.Machine

/-! ## Ports of a group -/

/-- Ports and widths of a bifurcation code (Table 10.1). -/
def bifPorts : Nat → List (Nat × Nat)
  | 0 => [(0, 16)]
  | 1 => [(0, 8), (2, 8)]
  | 2 => [(0, 8), (2, 4), (3, 4)]
  | 3 => [(0, 4), (1, 4), (2, 8)]
  | _ => [(0, 4), (1, 4), (2, 4), (3, 4)]

def bifOf (s : State) (g : Nat) : Nat := rd s (portGroupBifurcation (portBase g 0))
def portsOf (s : State) (g : Nat) : List Nat := (bifPorts (bifOf s g)).map (·.1)
def portWidth (s : State) (g n : Nat) : Nat := (((bifPorts (bifOf s g)).find? fun e => e.1 == n).map (·.2)).getD 0
def portState (s : State) (g n : Nat) : Nat := rd s (portStatusState (portBase g n))
def portRole (s : State) (g n : Nat) : Nat := rd s (portStatusRole (portBase g n))

/-- A port value that names no port is the port whose lanes include lane 4 * port. -/
def clampPort (s : State) (g n : Nat) : Nat := (((portsOf s g).filter fun p => p ≤ min 3 n).reverse.head?).getD 0

/-- Unit number of a port in records (the numbering of Table 17.2). -/
def portUnit (g n : Nat) : Nat := g * 4 + n

/-- Base of a group's window, and an address's offset in it. -/
def winBase (g : Nat) : Nat := 0x240000000000 + g * 0x020000000000

/-- Offset of the fixed page in a group's window (R268); that of an absent group stays at its address (R8). -/
def fixedBase : Nat := 0x01FFFFFE0000

/-- A group's ports after a reset: bifurcation 0, P0 disabled, nothing lent, lanes to be judged anew (R287, R291, R292). -/
def portsReset (g : Nat) (s : State) : State :=
  wr (portStatusState (portBase g 0)) 1
    ((List.range 4).foldl (fun a n => [portLendLoBaseLo, portLendHiBaseHi, portLendSizeUnits, portLendTenTenancy].foldl
      (fun b f => wr (f (portBase g n)) 0 b) (wr (portGroupGroup (portBase g n)) g (wr (portGroupBifurcation (portBase g n)) 0 a)))
      (modGroup g (fun q => { q with fresh := List.range 4, presence := [] }) s))

/-- The group is in endpoint role, in memory-device role. -/
def isEndpoint (s : State) (g : Nat) : Bool := portRole s g 0 == 2
def isMemDevice (s : State) (g : Nat) : Bool := portRole s g 0 == 4

/-- An offset of the CXL.mem windows that a decoder of its group sends to a host port (R26, R281). -/
def decoded (s : State) (off : Nat) : Bool :=
  let g := (off - 0x040000000000) / 0x040000000000
  groupPresent s g && hdmCovers s g off && portRole s g (clampPort s g (hdmPort s g off)) == 3

/-- The port whose part of the group's window holds an address (R268); an endpoint port has all of it. -/
def portAt (s : State) (g pa : Nat) : Nat :=
  if isEndpoint s g then 0 else clampPort s g ((offOf pa - winBase g) / 0x008000000000)

/-- Every port of the group is disabled, or absent (R266). -/
def allDisabled (s : State) (g : Nat) : Bool := (List.range 4).all fun n => decide (portState s g n ≤ 1)

/-! ## DMA channels: their state, and bus errors -/

def dmaOf (s : State) (d : Nat) : DmaCh := tget {} s.dma d
def setDma (d : Nat) (r : DmaCh) (s : State) : State := { s with dma := tset {} s.dma d r }
def modDma (d : Nat) (f : DmaCh → DmaCh) (s : State) : State := setDma d (f (dmaOf s d)) s

def dmaState (s : State) (d : Nat) : Nat := rd s (dmaStatusState d)
def setDmaState (d v : Nat) (s : State) : State := wr (dmaStatusState d) v s

/-- Channels 28 to 31 of each engine are privileged (R294). -/
def dmaPriv (d : Nat) : Bool := decide (28 ≤ d % 32)
/-! ## Ring (R297) -/

def ringSize (s : State) (d : Nat) : Nat := 2 ^ rd s (dmaCtrlRingLog2 d)
/-- The ring is aligned to its size. -/
def ringBase (s : State) (d : Nat) : Nat := roundDown (32 * ringSize s d) (rd s (dmaRingBaseBase d) * 4096)
def headOf (s : State) (d : Nat) : Nat := rd s (dmaHeadHead d) % ringSize s d
def ringEmpty (s : State) (d : Nat) : Bool := headOf s d == rd s (dmaTailTail d) % ringSize s d
def descAt (s : State) (d : Nat) : Nat := ringBase s d + 32 * headOf s d

/-- A bus error: an ordinary channel's descriptor becomes BAD, a privileged channel halts (R301, R302). -/
def dmaError (d kind dir off addr : Nat) (ring : Bool) (s : State) : State :=
  let s1 := wr (dmaErrKind d) kind (wr (dmaErrDir d) dir (wrB (dmaErrRing d) ring (wr (dmaErrBeat d) (beat s) s)))
  if dmaPriv d then
    recContained (nextSlice s) 6 d 0x0601 0 [] (setDmaState d 6 (wr (dmaErrAddrAddr d) addr
      (modDma d (fun r => { r with bad := some (kind, dir, off) }) s1)))
  else modDma d (fun r => { r with bad := some (kind, dir, off) }) s1

/-- A failed descriptor fetch or status write (R303). -/
def dmaRingFault (d kind dir : Nat) (s : State) : State :=
  let a := descAt s d
  if dmaPriv d then dmaError d kind dir 0 a true s
  else
    let s1 := setDmaState d 7 (wr (dmaErrKind d) kind (wr (dmaErrDir d) dir (wr (dmaErrRing d) 1 (wr (dmaErrBeat d) (beat s)
      (wr (dmaErrAddrAddr d) a s)))))
    if rdB s (dmaCtrlIrqEn d) then
      modDma d (fun r => { r with desc := none, bad := none, done := 0,
                                  msis := r.msis ++ [(rd s (dmaMsiAddrAddr d) / 8 * 8, rd s (dmaMsiDataData d))] }) s1
    else modDma d (fun r => { r with desc := none, bad := none, done := 0 }) s1

/-- Offset that stands for the status word among a descriptor's writes. -/
def statusOff : Nat := 2 ^ 32

/-- A write of the channel has failed: the descriptor is BAD at its lowest failing byte (R301), or, for its status word, the
ring is at fault (R303). -/
def dmaLost (d kind off : Nat) (s : State) : State :=
  let lower : Bool := match (dmaOf s d).bad with
    | some (_, _, o) => decide (o ≤ off)
    | none => false
  if off = statusOff then dmaRingFault d kind 1 s
  else if (dmaOf s d).desc.isNone ∨ lower then s else dmaError d kind 1 off (rd s (dmaCurDstDst d)) false s

/-! ## Answers to requests that left through a port or the fabric -/

/-- How a request ended: data, refused by a port (Unsupported Request, Completer Abort), poison, or an error response or
timeout of the fabric, with its kind of Table 11.2 (R26, R252). -/
inductive Ans where
  | data (v : Nat)
  | refused
  | poison
  | err (kind : Nat)
  deriving DecidableEq, Repr

/-- A load's value as its register takes it. -/
def extend (size : Nat) (signed : Bool) (v : Nat) : Nat := if signed then sext size v else v % 2 ^ (8 * size)

/-- A load's value reaches its register: 0 to 31 integer, 32 to 63 floating-point, from 64 element e of vector register v as
64 + 32 * e + v. -/
def deliverLoad (h r size : Nat) (signed : Bool) (v : Nat) (s : State) : State :=
  let s1 := setHart h { hartOf s h with loaded := v % 2 ^ (8 * size) } s
  if r < 32 then setX h r (extend size signed v) s1
  else if r < 64 then setF h (r - 32) size v s1
  else setVec h (r % 32) ((r - 64) / 32) size v s1

/-- What an atomic that another device has performed leaves on its hart: LR holds its reservation at the home's slice, SC returns
whether it has failed there, every other operation the old value (R78). -/
def deliverFarAtomic (h r size op line v : Nat) (s : State) : State :=
  if op = 1 then setX h r (if v = 0 then 0 else 1) (setHart h { hartOf s h with resv := none } s)
  else
    let s1 := if op = 0 then setHart h { hartOf s h with resv := some line, resvAtSlice := true } s else s
    if size = 16 then (if r = 0 then s1 else setX h (r + 1) (v / 2 ^ 64) (setX h r v s1)) else setX h r (sext size v) s1

/-- The response of a hart's access: it retires with its value or its exception; a frozen pair keeps the response in the
record (R87, R92), and a hart that was stopped for good takes none. -/
def hartAnswer (o : Out) (h r size : Nat) (sg : Bool) (va : Nat) (more : Bool) (resp : Nat × Nat) (s : State) : State :=
  match (hartOf s h).st with
  | .frozen => answerRecord h resp s
  | .offline | .fenced => s
  | _ =>
    let s1 := dropRecord h s
    if resp.1 ≠ 0 then raise h resp.1 va s1
    else endAccess h more (if o.kind = 4 then s1 else if o.kind = 8 then deliverFarAtomic h r size o.op (o.pa / 64) resp.2 s1 else deliverLoad h r size sg resp.2 s1)

/-- Result of port.cxlgrant (Table 10.19). -/
def grantResult (g out ten n base size b : Nat) : Bytes :=
  mkBytes [(0, 1, g), (1, 1, out), (2, 2, ten), (4, 4, n), (8, 8, base), (0x10, 8, size), (0x18, 8, b)]

/-- The zeros of a port.cxlgrant are in the device: the granules change owner at the next boundary (R293). DESIGN CHOICE (log entry 44):
where the port could not write them the outcome is 3, and a new owner that has left Open meanwhile gives outcome 2. -/
def grantDone (i cl g base count ten : Nat) (ok : Bool) (s : State) : State :=
  let first := (base - (0x040000000000 + g * 0x040000000000)) / 2 ^ 30
  if ok ∧ (tenantOf s ten).st = .opened then
    addStep i (beat s + 1) (.stage i cl (grantResult g 0 ten count base (count * 2 ^ 30) (beat s + 1)))
      (addStep i (beat s + 1) (.cxlGrant g first count ten) s)
  else stageDone i cl (grantResult g (if ok then 2 else 3) ten 0 base (count * 2 ^ 30) 0) s

/-- An answer as a DMA channel takes it: the kind of error of Table 11.2, 0 for none, and the data. -/
def Ans.forDma : Ans → Nat × Nat
  | .data v => (0, v)
  | .refused => (5, 0)
  | .poison => (3, 0)
  | .err k => (k, 0)

/-- The answer of a request reaches the party that waits for it (Tables 7.3 and 10.7). -/
def takeAnswer (o : Out) (a : Ans) (s : State) : State :=
  let s1 : State := { s with outs := s.outs.filter fun x => x.xid != o.xid }
  match o.origin with
  | .slice n _ _ => match a with
    | .data v => completeFill n (o.pa / 64) v false s1
    | _ => completeFill n (o.pa / 64) 0 true s1
  | .hart h r size sg va more => hartAnswer o h r size sg va more (match a with
      | .data v => (0, v)
      | .refused => (if o.kind = 4 ∨ o.kind = 8 then 7 else 5, 0)
      | .poison | .err _ => (19, 0)) s1
  | .port g _ => modGroup g (fun q => { q with ans := some (match a with
      | .data v => ⟨0, putLE [] 0 o.size v⟩
      | .refused | .err _ => ⟨1, []⟩
      | .poison => ⟨2, []⟩) }) s1
  | .tracker src xid => match trkOf s1 src xid with
    | some t =>
      if !isEndpoint s (o.dev - 64) && regionOf (offOf o.pa) == .cxl then
        gotLine (.tracker src xid) (o.pa / 64) o.tag (match a with | .data v => v | _ => 0) (decide (a.forDma.1 ≠ 0)) s1
      else match a with
      | .data v => finishTrk t.req 0x30 0 v s1
      | .refused | .err _ => finishTrk t.req 0x20 3 0 s1
      | .poison => finishTrk t.req 0x30 1 0 s1
    | none => s1
  | .dma d off => if a.forDma.1 = 0 then s1 else dmaLost d a.forDma.1 off s1
  | .dmaRd d at' n => modDma d (fun c => { c with far := c.far.map fun f =>
      if f.addr = at' ∧ f.n = n ∧ f.ans = none then { f with ans := some a.forDma } else f }) s1
  | .grant i cl g base count ten => grantDone i cl g base count ten (a.forDma.1 == 0) s1
  | _ => s1

/-- Requests waiting at group g's ports. -/
def portOuts (s : State) (g : Nat) : List Out := s.outs.filter fun o => o.dev == 64 + g

/-- The port a request to the group uses: an endpoint's only one; by address in the window (R268), by decoder in the CXL.mem window. -/
def outPort (s : State) (g : Nat) (o : Out) : Nat :=
  if isEndpoint s g then 0
  else match regionOf (offOf o.pa) with
  | .io _ => portAt s g o.pa
  | _ => clampPort s g (hdmPort s g (offOf o.pa))

def isRead (o : Out) : Bool := o.kind == 1 || o.kind == 2 || o.kind == 3 || o.kind == 8

/-- A request for CXL.mem of a host port. -/
def cxlOut (s : State) (o : Out) : Bool := decide (64 ≤ o.dev) && !isEndpoint s (o.dev - 64) && regionOf (offOf o.pa) == .cxl

/-- A posted write: through a port, and not to CXL.mem (Table 10.7). -/
def postedOut (s : State) (o : Out) : Bool := decide (64 ≤ o.dev) && !isRead o && !cxlOut s o

/-- A port has its 1,024 non-posted requests outstanding (Table 10.3): a further one waits. -/
def tagsFull (s : State) (g : Nat) (o : Out) : Bool :=
  decide (1024 ≤ ((portOuts s g).filter fun x => !postedOut s x && outPort s g x == outPort s g o).length)

/-- Functions whose windows hold an address (R272). -/
def funcsAt (s : State) (g pa : Nat) : List Nat :=
  ((groupOf s g).windows.filter fun w => decide (w.base ≤ pa) && decide (pa < w.base + w.size)).map (·.dev)

/-! ## AER, DPC and link down (R278, R282, R288) -/

/-- An AER or DPC event of a port: the platform's record, and a visible one for each assignee of a function below it. -/
def aerEvent (g n : Nat) (devs : List Nat) (s : State) : State :=
  let q := groupOf s g
  let ten := fun d => ((q.assigns.find? fun a => a.first ≤ d && d < a.first + a.count).map (·.ten)).getD 0
  let named := devs.filter fun d => ten d != 0
  let s1 := recContained (nextSlice s) 4 (portUnit g n) 0x0403 0 [] s
  named.foldl (fun a d => recTenant (nextSlice a) 4 (portUnit g n) 0x0403 (ten d) 0 [d % 256, d / 256] a) s1

/-- Functions below a port. -/
def funcsBelow (s : State) (g n : Nat) : List Nat := ((groupOf s g).funcs.filter fun f => f.port == n).map (·.dev)

/-- Requests of a root port end: reads with Unsupported Request, writes dropped (R288). -/
def endRoot (g n : Nat) (s : State) : State :=
  ((portOuts s g).filter fun o => outPort s g o == n).foldl (fun a o => takeAnswer o .refused a) s

/-- Requests of a host port end: reads deliver poison, writes are lost, and each tenancy is told (R282). A posted write has no answer
that would tell when it has arrived; one of this beat counts as lost (DESIGN CHOICE, log entry 44), an older one as delivered. -/
def endHost (g n : Nat) (s : State) : State :=
  ((portOuts s g).filter fun o => outPort s g o == n).foldl (fun a o =>
    let b := takeAnswer o .poison a
    if postedOut s o ∧ o.sent ≠ beat s then b
    else recVisible (nextSlice a) 4 (portUnit g n) 0x0405 [o.tag] o.pa [] (portUnit g n) [] b) s

/-- Outstanding requests end as at a link down. -/
def endRequests (g n : Nat) (s : State) : State :=
  if portRole s g n = 1 then endRoot g n s else if portRole s g n = 3 then endHost g n s else s

/-- A port goes down (R288). -/
def linkDown (g n : Nat) (s : State) : State :=
  let b := portBase g n
  let s1 := recContained (nextSlice s) 4 (portUnit g n) 0x0402 0 []
    (bump (portErrLinkDowns b) 1 (wr (portStatusState b) 5 (wr (portStatusWidth b) 0 (endRequests g n s))))
  let s2 := modGroup g (fun q => { q with downs := q.downs ++ [(n, beat s)], began := tset 0 q.began n (beat s),
                                          dpc := if portRole s g n = 1 then (n :: q.dpc).eraseDups else q.dpc }) s1
  if portRole s g n = 1 then aerEvent g n (funcsBelow s g n) s2 else s2

/-- Link downs of a port in the last 1,000,000 beats (R289). -/
def recentDowns (s : State) (g n : Nat) : Nat :=
  ((groupOf s g).downs.filter fun d => d.1 == n && decide (beat s < d.2 + 1000000)).length

/-- A port is fenced (R289, Table 16.2). -/
def fencePort (g n : Nat) (s : State) : State :=
  wr (portStatusState (portBase g n)) 6 (endRequests g n s)

/-! ## Lanes and training (R287, R290) -/

/-- Widest of the whole, the aligned halves and quarters of a port's lanes without a failed lane, 0 if there is none (R287). -/
def goodWidth (first w failed : Nat) : Nat :=
  (((([1, 2, 4].map fun k => w / k).filter (0 < ·)).find? fun v =>
    (List.range (w / v)).any fun i => (List.range v).all fun j => !inMask failed (first + i * v + j))).getD 0

def laneFailure (g n : Nat) (lanes : List Nat) (s : State) : State :=
  let b := portBase g n
  if portState s g n = 3 then
    let m := rd s (portLanesFailed b) ||| maskOf lanes
    let w := goodWidth (4 * n) (portWidth s g n) m
    recContained (nextSlice s) 4 (portUnit g n) 0x0401 0 [] (wr (portStatusState b) 4 (wr (portLanesFailed b) m
      (bump (portErrLaneFailures b) lanes.length
        (modGroup g (fun q => { q with began := tset 0 q.began n (beat s), widths := tset 0 q.widths n w }) s))))
  else s

def retrainDone (g n : Nat) (s : State) : State :=
  let b := portBase g n
  if portState s g n = 4 ∧ beat s ≤ tget 0 (groupOf s g).began n + 20 ∧ tget 0 (groupOf s g).widths n ≠ 0 then
    wr (portStatusState b) 3 (wr (portStatusDegraded b) 1 (wr (portStatusWidth b) (tget 0 (groupOf s g).widths n)
      (bump (portErrReplays b) 1 s)))
  else s

def retrainTimeout (g n : Nat) (s : State) : State :=
  if portState s g n = 4 ∧ tget 0 (groupOf s g).began n + 20 ≤ beat s then linkDown g n s else s

/-- Widest a port may train to: all its lanes after port.config or a reset, else what its failed lanes leave (R287). -/
def widthCap (s : State) (g n : Nat) : Nat :=
  if (groupOf s g).fresh.contains n then portWidth s g n
  else goodWidth (4 * n) (portWidth s g n) (rd s (portLanesFailed (portBase g n)))

/-- A training port's link comes up, a root port's hot-plug presence is set, and the functions below a root or host port become known
(R274, R279, R287, R290). -/
def linkUp (g n width speed : Nat) (flit : Bool) (funcs : List FuncInfo) (s : State) : State :=
  let b := portBase g n
  if portState s g n = 2 ∧ widthCap s g n ≠ 0 then
    let s1 := modGroup g (fun q =>
      let gone := q.funcs.filter (fun f => f.port == n)
      { q with bar2 := if isEndpoint s g then q.bar2Set else q.bar2, fresh := q.fresh.filter (· != n),
               presence := if portRole s g n = 1 then (n :: q.presence).eraseDups else q.presence,
               config := q.config.filter fun e => !((gone ++ funcs).any fun f => f.dev == e.1 / 4096),
               funcs := q.funcs.filter (fun f => f.port != n) ++ (funcs.map fun f => { f with port := n }) }) s
    let s2 := if (groupOf s g).fresh.contains n then wr (portStatusDegraded b) 0 (wr (portLanesFailed b) 0 s1) else s1
    wr (portStatusState b) 3 (wr (portStatusWidth b) (min width (widthCap s g n)) (wr (portStatusSpeed b) (min 6 speed)
      (wrB (portStatusFlit b) flit s2)))
  else s

/-- Training is retried every 100 ms; a port that is down trains again after 100 ms, a root port once DPC is released. -/
def trainRetry (g n : Nat) (s : State) : State :=
  let began := tget 0 (groupOf s g).began n
  if began + 100000 ≤ beat s ∧ (portState s g n = 2 ∨ (portState s g n = 5 ∧ portRole s g n ≠ 1)) then
    wr (portStatusState (portBase g n)) 2 (modGroup g (fun q => { q with began := tset 0 q.began n (beat s) }) s)
  else s

/-- Platform firmware releases DPC. -/
def releaseDpc (g n : Nat) (s : State) : State :=
  if portState s g n = 5 ∧ (groupOf s g).dpc.contains n then
    wr (portStatusState (portBase g n)) 2
      (modGroup g (fun q => { q with dpc := q.dpc.filter (· != n), began := tset 0 q.began n (beat s) }) s)
  else s

/-! ## Tenancy of device traffic (R271 to R276) -/

/-- An inbound region of the endpoint function (R279). -/
def isInbound (s : State) (g dev : Nat) : Bool := isEndpoint s g && dev / 256 == 0xFF && decide (dev % 256 < 8)

def funcOf (s : State) (g dev : Nat) : Option FuncInfo := (groupOf s g).funcs.find? fun f => f.dev == dev
/-- A function that port.assign may name: one that is there, or that is assigned still (DESIGN CHOICE, log entry 44). -/
def funcPresent (s : State) (g dev : Nat) : Bool := isInbound s g dev || (funcOf s g dev).isSome || devTenancy s g dev != 0

/-- The function's device is the only one below its root port. -/
def aloneBelow (s : State) (g : Nat) (f : FuncInfo) : Bool :=
  (groupOf s g).funcs.all fun x => x.port != f.port || x.dev / 8 == f.dev / 8

/-- Assignments without the device IDs of a run. -/
def cutAssigns (first count : Nat) (l : List Assign) : List Assign :=
  l.flatMap fun a =>
    (if a.first < first then [{ a with count := min a.count (first - a.first) }] else []) ++
    (if first + count < a.first + a.count then
      [{ a with first := max a.first (first + count), count := a.first + a.count - max a.first (first + count) }] else [])

/-- Functions change owner (R274): the IOMMU's cached translations go, a reset is issued, and the window entries name the
new owner. The reset of a function without FLR is one of the secondary bus, with every function of its port. -/
def changeOwner (g first count ten : Nat) (s : State) : State :=
  let mine := fun d => first ≤ d && d < first + count
  modGroup g (fun q =>
    let fs := q.funcs.filter fun f => mine f.dev
    let bus := ((fs.filter fun f => !f.flr).map (·.port)).eraseDups
    let hit := (fs ++ q.funcs.filter fun f => bus.contains f.port).map (·.dev)
    { q with
      assigns := cutAssigns first count q.assigns ++ (if ten = 0 then [] else [⟨first, count, ten⟩])
      cached := q.cached.filter fun d => !mine d
      ctx := q.ctx.filter fun e => !mine e.1
      resetting := (q.resetting ++ hit).eraseDups
      resetAt := hit.foldl (fun t d => tset 0 t d (beat s)) q.resetAt
      busReset := (q.busReset ++ bus).eraseDups
      windows := q.windows.filter (fun w => !mine w.dev) ++
        fs.flatMap fun f => f.bars.map fun b => ⟨b.1, b.2, ten, f.dev⟩ }) s

def functionResetDone (g dev : Nat) (s : State) : State :=
  modGroup g (fun q =>
    let left := q.resetting.filter (· != dev)
    { q with resetting := left, resetAt := tdel q.resetAt dev,
             busReset := q.busReset.filter fun n => q.funcs.any fun f => f.port == n && left.contains f.dev }) s

/-- At tenant.close: functions, contexts, outbound regions and CXL.mem granules pass to tenancy 0 (R276). -/
def closeDevices (t : Nat) (s : State) : State :=
  let s1 := (presentGroups s).foldl (fun a g =>
    let b := ((groupOf a g).assigns.filter fun x => x.ten == t).foldl (fun c x => changeOwner g x.first x.count 0 c) a
    modGroup g (fun q => { q with outRegs := (q.outRegs.map fun e =>
      if e.2.owner = t then (e.1, { e.2 with owner := 0, enable := false }) else e).filter fun e => decide (e.2 ≠ {}) }) b) s
  setMem { s1.mem with cxlGranules := s1.mem.cxlGranules.filter fun e => e.2 != t } s1

/-- A tenancy owns an outbound region (R280). -/
def ownsOutbound (s : State) (t : Nat) : Bool :=
  (presentGroups s).any fun g => (groupOf s g).outRegs.any fun e => e.2.owner == t

/-! ## Accesses to a group's window (R268, R272, R280) -/

/-- What an access to a group's window reaches. -/
inductive IoAt where
  | refused
  | vacant                       -- nothing behind it (R25)
  | page (x : Nat)               -- the fixed page
  | port (n : Nat)
  | host (addr : Nat)            -- outbound: an address of the external host
  | signal (r x : Nat)           -- the signal page of region r
  deriving DecidableEq, Repr

/-- R272: an address of a root or host port's window under a tag. -/
def windowOk (s : State) (g tag pa : Nat) : Bool :=
  match (groupOf s g).windows.find? fun w => w.base ≤ pa && pa < w.base + w.size with
  | some w => !(groupOf s g).resetting.contains w.dev &&
      (w.ten == tag || (tag == 0 && (w.ten == 0 || (tenantOf s w.ten).st == .opened)))
  | none => tag == 0

def ioAt (s : State) (g tag pa size : Nat) : IoAt :=
  let x := offOf pa - winBase g
  if fixedBase ≤ x then
    (if tag = 0 ∧ (size = 4 ∨ size = 8) ∧ x % size = 0 then .page (x - fixedBase) else .refused)
  else if isEndpoint s g then
    let r := x / 0x2000000000
    let e := tget {} (groupOf s g).outRegs r
    if e.enable && e.owner == tag then
      (if 0x2000000000 - 4096 ≤ x % 0x2000000000 then .signal r (x % 4096) else .host (e.base + x % 0x2000000000))
    else .refused
  else
    let n := clampPort s g (x / 0x008000000000)
    if portRole s g n = 1 ∨ portRole s g n = 3 then (if windowOk s g tag pa then .port n else .refused) else .vacant

/-- A refused access to a group's window (R205, R272): the platform's record, the tenancy's count, PORT_REFUSED of its port. -/
def refuseIo (g tag pa : Nat) (s : State) : State :=
  bump (portRefusedRefused (portBase g (portAt s g pa))) 1 (refuseGranule 4 (portUnit g (portAt s g pa)) pa tag s)

/-- MSI-X vector v of the endpoint function is not masked in its table (R279). -/
def vecOpen (s : State) (g v : Nat) : Bool := inMask (getLE (groupOf s g).bar0 (16 * v + 12) 4) 0

/-- A vector is sent to the host; a masked one is pending. -/
def sendVector (g v : Nat) (s : State) : State :=
  if vecOpen s g v then modGroup g (fun q => { q with msix := tset 0 q.msix v (tget 0 q.msix v + 1), msixPend := q.msixPend.filter (· != v) }) s
  else modGroup g (fun q => { q with msixPend := (v :: q.msixPend).eraseDups }) s

/-- A write to the signal page (R280). -/
def signalWrite (g off size v : Nat) (s : State) : State :=
  if off = 0 ∧ size = 4 ∧ v % 2 ^ 32 < 16 then sendVector g (v % 2 ^ 32) s else s

/-- A doubleword of BAR0 of the endpoint function: the MSI-X table, whose vectors a reset masks, and the pending bits (R279). -/
def bar0Dword (s : State) (g off : Nat) : Nat :=
  if off < 0x100 then getLE (groupOf s g).bar0 off 4 ^^^ (if off % 16 = 12 then 1 else 0)
  else if off = 0x1000 then maskOf (groupOf s g).msixPend
  else 0

/-- A doubleword is stored in BAR0: only the table takes it. -/
def bar0Store (g off v : Nat) (s : State) : State :=
  if off < 0x100 then
    modGroup g (fun q => { q with bar0 := putLE q.bar0 off 4 (if off % 16 = 12 then v % 2 ^^^ 1 else v % 2 ^ 32) }) s
  else s

/-- Pending vectors that are no longer masked are sent. -/
def sendPending (g : Nat) (s : State) : State :=
  ((groupOf s g).msixPend.filter (vecOpen s g)).foldl (fun a v => sendVector g v a) s

def execSignalPage (h pa size v : Nat) (s : State) : State :=
  match regionOf (offOf pa) with
  | .io g =>
    if homeOf pa = rd s fabIdDeviceId ∧ hartRuns s h then
      match ioAt s g (ownerOf s h) pa size with
      | .signal _ x => signalWrite g x size v s
      | .refused => raise h 7 pa (refuseIo g (ownerOf s h) pa s)
      | _ => s
    else s
  | _ => s

/-! ## Requests from outside (R271, R279, R284) -/

def farAnswer (g status : Nat) (data : Bytes) (s : State) : State :=
  modGroup g (fun q => { q with ans := some ⟨status, data⟩ }) s

/-- A translated request to what an address of port p's window names. A write to a peer's window is posted. -/
def ingressIo (g dev pa : Nat) (write : Bool) (size data p : Nat) (s : State) : IoAt → State
  | .port _ => ingressOut pa s
  | .host a => ingressOut a s
  | .refused => farAnswer g 1 [] (refuseIo p (devTenancy s g dev) pa s)
  | .page x => if write then fixedWrite p x size data s else farAnswer g 0 (putLE [] 0 size (fixedRead s p x size)) s
  | .signal _ x => if write then signalWrite p x size data s else farAnswer g 0 (putLE [] 0 size (freeVal (2 ^ 64) s)) (freeNext s)
  | .vacant => farAnswer g 1 [] s
where
  ingressOut (addr : Nat) (s : State) : State :=
    sendOut { xid := 0, dev := 64 + p, kind := if write then 4 else 3, pa := addr, tag := devTenancy s g dev, size := size, data := data,
              origin := if write then .none else .port g dev } s

/-- A translated request to a line of this device's DRAM, under its tag: done, or to come again. -/
def ingressLine (g tag pa : Nat) (write : Bool) (size data : Nat) (s : State) : State × Bool :=
  let line := lineOf pa
  let w : Reader := .ingress g
  if ncClear s tag line write = false then (ncOpen w tag line write s, false)
  else if write ∧ size = 64 ∧ pa % 64 = 0 then (dropRead w line (writeAtHome w line tag data s), true)
  else match currentLine w line tag s with
    | (s1, .data v false) =>
      (dropRead w line (if write then writeAtHome w line tag (linePut v (pa % 64) size data) s1
        else farAnswer g 0 (putLE [] 0 size (lineGet v (pa % 64) size)) s1), true)
    | (s1, .wait) => (s1, false)
    | (s1, _) => (dropRead w line (if write then s1 else farAnswer g 2 [] s1), true)

/-- A translated request to main memory that dev answers, a CXL.mem port or another device: a copy in this device's slices answers a
read, and is written back and dropped before a write leaves (R59, R113). -/
def ingressFar (g dev pa : Nat) (write : Bool) (size data to' : Nat) (s : State) : State × Bool :=
  let line := lineOf pa
  let tag := devTenancy s g dev
  let n := homeSlice s tag line
  let w : Reader := .ingress g
  let o : Out := { xid := 0, dev := to', kind := if write then 4 else 3, pa := pa, tag := tag, size := size, data := data, origin := .port g dev }
  if ncClear s tag line write = false then (ncOpen w tag line write s, false)
  else if 64 ≤ to' ∧ tagsFull s (to' - 64) o then (s, false)
  else if write then
    (dropRead w line (sendOut o (breakResv none line (if lineCached s n line then flushLine n line s else s))), true)
  else if lineCached s n line = false then (dropRead w line (sendOut o s), true)
  else match currentLine w line tag s with
    | (s1, .data v false) => (dropRead w line (farAnswer g 0 (putLE [] 0 size (lineGet v (pa % 64) size)) s1), true)
    | (s1, .data _ true) => (dropRead w line (farAnswer g 2 [] s1), true)
    | (s1, .far) => (dropRead w line (sendOut o s1), true)
    | (s1, .wait) => (s1, false)

/-- A translated request to a region of this device: the state, and whether it is done. -/
def ingressAt (g dev pa : Nat) (write : Bool) (size data : Nat) (s : State) : Region → State × Bool
  | .dram =>
    let tag := devTenancy s g dev
    if (coord s (offOf pa)).isNone then (farAnswer g 1 [] s, true)
    else if granuleOk s (offOf pa) tag false = false then (farAnswer g 1 [] (refuseGranule 4 (portUnit g 0) pa tag s), true)
    else ingressLine g tag pa write size data s
  | .cxl =>
    if decoded s (offOf pa) = false then (farAnswer g 1 [] s, true)
    else if mayReach s (devTenancy s g dev) (lineOf pa) then ingressFar g dev pa write size data (outDev s (lineOf pa)) s
    else (farAnswer g 1 [] (refuseLine pa (devTenancy s g dev) s), true)
  | .io p => (ingressIo g dev pa write size data p s (ioAt s p (devTenancy s g dev) pa size), true)
  | _ => (farAnswer g 1 [] s, true)

/-- A translated inbound request reaches its address under its tag; only lines of this device's DRAM and CXL.mem, peers'
windows and other devices are reached (R26, R28). -/
def ingress (g dev pa : Nat) (write : Bool) (size data : Nat) (s : State) : State × Bool :=
  if regionOf (offOf pa) = .control then (farAnswer g 1 [] s, true)
  else if ownLine s (lineOf pa) then ingressAt g dev pa write size data s (regionOf (offOf pa))
  else match regionOf (offOf pa) with
    | .dram | .cxl => ingressFar g dev pa write size data (homeOf pa) s
    | _ => (sendOut { xid := 0, dev := homeOf pa, kind := if write then 4 else 3, pa := pa, tag := devTenancy s g dev, size := size,
                      data := data, origin := .port g dev } s, true)

/-- A request to the endpoint function's BAR2: the inbound region of its offset names its device ID (R279). -/
def inboundReq (s : State) (g : Nat) (q : DevReq) : DevReq :=
  if isEndpoint s g then { q with dev := 0xFF00 + q.iova / 2 ^ ((groupOf s g).bar2 - 3) } else q

/-- What a device learns of its translation request: the page's address with its permissions, none on a page fault. -/
def atsAnswer (g : Nat) (q : DevReq) (pa : Option Nat) (s : State) : State :=
  match pa with
  | some a => farAnswer g 0 (putLE [] 0 8 (a / 4096 * 4096 + (if q.write then 3 else 1))) s
  | none => farAnswer g 0 (putLE [] 0 8 0) s

/-! ### The function that the group presents (R279, R285) -/

/-- Its configuration space: vendor and device ID, the endpoint's class code and two BARs; the rest is free and takes what the far
end writes (DESIGN CHOICE, log entry 45). -/
def selfDword (s : State) (g off : Nat) : Nat :=
  let q := groupOf s g
  let bars := getLE q.self 0x10 8 / 2 ^ 16 * 2 ^ 16 + 4 + (getLE q.self 0x18 8 / 2 ^ q.bar2 * 2 ^ q.bar2 + 12) * 2 ^ 64
  let free := Config.funcConfig (g * 65536 + 65535) off % 2 ^ 32
  if off = 0 then 0x1F9D + (if isEndpoint s g then 0xD911 else 0xD912) * 2 ^ 16
  else if isEndpoint s g ∧ off = 8 then free % 2 ^ 16 + 0x0580 * 2 ^ 16
  else if isEndpoint s g ∧ 0x10 ≤ off ∧ off < 0x28 then bars / 2 ^ (8 * (off - 0x10)) % 2 ^ 32
  else free ^^^ getLE q.self off 4

def selfStore (g off v : Nat) (s : State) : State :=
  let raw := if isEndpoint s g ∧ 0x10 ≤ off ∧ off < 0x28 then v % 2 ^ 32 else v % 2 ^ 32 ^^^ Config.funcConfig (g * 65536 + 65535) off % 2 ^ 32
  modGroup g (fun q => { q with self := putLE q.self off 4 raw }) s

/-- An access of the far end to doublewords of the function: read, or merged and stored. -/
def dwordAccess (g : Nat) (q : DevReq) (read : State → Nat → Nat) (store : Nat → Nat → State → State) (s : State) : State :=
  let d := q.iova / 4 * 4
  let old := read s d + read s (d + 4) * 2 ^ 32
  if q.write then
    let new := linePut old (q.iova % 4) q.size q.data
    let s1 := store d (new % 2 ^ 32) s
    if q.iova % 4 + q.size ≤ 4 then s1 else store (d + 4) (new / 2 ^ 32 % 2 ^ 32) s1
  else farAnswer g 0 (putLE [] 0 q.size (old / 256 ^ (q.iova % 4) % 256 ^ q.size)) s

/-- A request through a port: translated by the IOMMU, tagged by its device ID (R270, R271, R275). Kind 4 reaches BAR0 of the endpoint
function, kind 5 the configuration space of the function that the group presents, and a root port answers kind 6 with platform time
(Table 10.3). One that memory has not answered comes again, and has left no trace in the group. -/
def ingressRequest (g n : Nat) (q0 : DevReq) (s : State) : State :=
  let q := inboundReq s g q0
  if portState s g n = 3 ∧ q0.kind = 5 ∧ (isEndpoint s g ∨ isMemDevice s g) then dwordAccess g q0 (fun a => selfDword a g) (selfStore g) s
  else if portState s g n = 3 ∧ isMemDevice s g = false then
    if q0.kind = 4 ∧ isEndpoint s g then
      if 0x10000 ≤ q0.iova then farAnswer g 1 [] s
      else sendPending g (dwordAccess g q0 (fun a => bar0Dword a g) (bar0Store g) s)
    else if q0.kind = 6 ∧ portRole s g n = 1 then farAnswer g 0 (putLE [] 0 8 (now s)) s
    else if 4 ≤ q0.kind then farAnswer g 1 [] s
    else if (groupOf s g).resetting.contains q.dev then farAnswer g 1 [] s
    else if isEndpoint s g ∧ 0xFF08 ≤ q.dev then farAnswer g 1 [] s
    else if q.kind = 3 then
      match pageRequest g q s with
      | (s1, .queued) => s1
      | (s1, .answer c) => farAnswer g c [] s1
      | (s1, .wait) => s1
    else match iomTranslate g (portUnit g n) q s with
      | (s1, .ok pa) =>
        let s2 := modGroup g (fun x => { x with cached := (q.dev :: x.cached).eraseDups }) s1
        if q.kind = 2 then atsAnswer g q (some pa) s2
        else
          let r := ingress g q.dev pa q.write q.size q.data s2
          if r.2 then r.1 else { r.1 with groups := s.groups }
      | (s1, .fault k _) => if q.kind = 2 ∧ isPageFault k then atsAnswer g q none s1 else farAnswer g 1 [] s1
      | (s1, .wait) => s1
  else s

/-- Lending tenancy and lent range of a group. -/
def lentOf (s : State) (g : Nat) : Option (Nat × Nat × Nat) :=
  if (tget (0, 0, 0) s.mem.lent g).2.1 = 0 then none else some (tget (0, 0, 0) s.mem.lent g)

/-- A request of the external host to the lent range (R284). -/
def memDeviceRequest (g dpa : Nat) (write : Bool) (data : Nat) (s : State) : State :=
  match lentOf s g with
  | some (base, size, t) =>
    if portState s g 0 = 3 ∧ isMemDevice s g ∧ size ≤ dpa then farAnswer g 1 [] s
    else if portState s g 0 = 3 ∧ isMemDevice s g then
      let off := base + dpa
      match coord s off with
      | some k => dramRequest k.chan { pa := rd s fabIdDeviceId * 2 ^ 46 + off, tag := t, write := write, data := data,
                                       cls := 0, dest := 2, port := 1 } s
      | none => s
    else s
  | none => s

/-! ## Completions (R277, R278, R282) -/

def outOf (s : State) (xid : Nat) : Option Out := s.outs.find? fun o => o.xid == xid

/-- A port's completion of a read, or an error on a posted write (Table 10.7): an error is recorded by AER, and names the functions
whose windows hold the address (R278). -/
def rootCompletion (xid status data : Nat) (s : State) : State :=
  match outOf s xid with
  | some o =>
    let err := fun (a : Ans) => aerEvent (o.dev - 64) (outPort s (o.dev - 64) o) (funcsAt s (o.dev - 64) o.pa) (takeAnswer o a s)
    if 64 ≤ o.dev ∧ (isRead o ∨ (postedOut s o ∧ status ≠ 0)) then
      if status = 0 then takeAnswer o (.data data) s else if status = 3 then err .poison else err .refused
    else s
  | none => s

/-- The timeout programmed for a port; 10 ms where none was. -/
def timeoutNs (s : State) (g n : Nat) : Nat := let v := tget 0 (groupOf s g).cto n; if v = 0 then 10000000 else v

def completionTimeout (xid ns : Nat) (s : State) : State :=
  match outOf s xid with
  | some o =>
    if 64 ≤ o.dev ∧ isRead o ∧ timeoutNs s (o.dev - 64) (outPort s (o.dev - 64) o) ≤ ns then
      aerEvent (o.dev - 64) (outPort s (o.dev - 64) o) (funcsAt s (o.dev - 64) o.pa) (takeAnswer o .poison s)
    else s
  | none => s

/-- A CXL.mem response from a memory device: data or poison for a read, the end of a write. -/
def cxlResponse (xid data : Nat) (poison : Bool) (s : State) : State :=
  match outOf s xid with
  | some o =>
    if cxlOut s o then takeAnswer o (if poison then .poison else .data data) s else s
  | none => s

/-! ## Configuration space (R267, R269, R273) -/

/-- Offset in a segment of a function's configuration space. -/
def ecamOff (dev off : Nat) : Nat := dev * 4096 + off

/-- BAR0 of the IOMMU function reads as the fixed page (Table 10.5). -/
def iommuBar (g : Nat) : Nat := winBase g + 0x01FFFFFE0000

/-- The function of a port: bus 0, device n, function 0. -/
def portFunc (s : State) (g dev : Nat) : Bool := decide (dev % 8 = 0) && (portsOf s g).contains (dev / 8)

/-- Something answers in the configuration space of a device ID: a port's function, the IOMMU, or a function below a port that
is not being reset (R274). -/
def cfgPresent (s : State) (g dev : Nat) : Bool :=
  portFunc s g dev || dev == 0xF8 || ((funcOf s g dev).isSome && !(groupOf s g).resetting.contains dev)

/-- What a function holds before anything is written to it, as two doublewords from the one at `off`. -/
def cfgFree (g dev off : Nat) : Nat :=
  Config.funcConfig (g * 65536 + dev) (off / 4 * 4) % 2 ^ 32 + Config.funcConfig (g * 65536 + dev) (off / 4 * 4 + 4) % 2 ^ 32 * 2 ^ 32

/-- What the spec gives of the functions of the device itself (R269): which bits of a doubleword, and their values. -/
def cfgFixed (s : State) (g dev off : Nat) : Nat × Nat :=
  let all := 2 ^ 32 - 1
  if portFunc s g dev then
    let root := portRole s g (dev / 8) == 1
    match off with
    | 0x0 => (all, 0x1F9D + (if root then 0xD910 else 0xD914) * 2 ^ 16)
    | 0xC => (0x7F0000, if root then 0x010000 else 0)
    | 0x400 => (0xFFFFF, 0x10023)
    | 0x404 => (0xFFF0FFFF, 0x1F9D + 0x040 * 2 ^ 20)
    | 0x408 => (0xFFFF, 1)
    | _ => if !root && decide (0x10 ≤ off) && decide (off < 0x28) then (all, 0) else (0, 0)
  else if dev = 0xF8 then
    match off with
    | 0x0 => (all, 0x1F9D + 0xD913 * 2 ^ 16)
    | 0x8 => (0xFFFF0000, 0x0806 * 2 ^ 16)
    | 0xC => (0x7F0000, 0)
    | 0x10 => (all, (paOf s (iommuBar g) + 4) % 2 ^ 32)
    | 0x14 => (all, paOf s (iommuBar g) / 2 ^ 32 % 2 ^ 32)
    | _ => (0, 0)
  else (0, 0)

/-- A doubleword of configuration space: all ones where nothing answers. -/
def cfgDword (s : State) (g dev off : Nat) : Nat :=
  let v := (cfgFree g dev off % 2 ^ 32) ^^^ getLE (groupOf s g).config (ecamOff dev off) 4
  let f := cfgFixed s g dev off
  if cfgPresent s g dev then v - (v &&& f.1) + f.2 else 2 ^ 32 - 1

/-- The timeout that a Device Control 2 code selects, in ns: a code of ranges A to D one within its bounds, any other the
default (R278). -/
def ctoNs (code : Nat) : Nat :=
  let within := fun (lo hi : Nat) => lo + Config.ctoPlace code % (hi - lo + 1)
  match code with
  | 1 => within 50000 100000
  | 2 => within 1000000 10000000
  | 5 => within 16000000 55000000
  | 6 => within 65000000 210000000
  | 9 => within 260000000 900000000
  | 10 => within 1000000000 3500000000
  | 13 => within 4000000000 13000000000
  | 14 => within 17000000000 64000000000
  | _ => 10000000

/-- What a write to a function's configuration space reaches. The places of BARs and Command are PCI's; those of a capability the
function's own. -/
def ecamReg (s : State) (g dev off size v : Nat) : EcamReg :=
  let cap := fun id => Config.capOffset (g * 65536 + dev) id
  let hits := fun (a n : Nat) => decide (a < off + size) && decide (off < a + n)
  if hits 4 2 then .command
  else if hits 0x10 0x18 then .bar ((off - 0x10) / 8)
  else if hits (cap 0x11) 12 then .msix
  else if hits (cap 0x10 + 0x28) 2 then .devControl2 (ctoNs (linePut 0 (off % 4) size v / 256 ^ ((cap 0x10 + 0x28) % 4) % 16))
  else if portFunc s g dev && hits (cap 0x1001D + 8) 2 then .dpcRelease
  else .other

/-- R273: writes the device discards. -/
def ecamProtected (s : State) (g dev : Nat) (r : EcamReg) : Bool :=
  let t := devTenancy s g dev
  t != 0 && (isSealed s t || (match r with | .bar _ | .command | .msix => true | _ => false))

/-- The 32-bit PORT_ registers that an access to the window covers hold a field (R292). -/
def isDvsec (off size : Nat) : Bool := (List.range ((off % 4 + size + 3) / 4)).any fun i => fieldsAt (off / 4 * 4 + 4 * i) != []

/-- A store to the 32-bit PORT_ registers of a DVSEC (R292). -/
def dvsecStore (off size v : Nat) (s : State) : State :=
  (List.range ((off % 4 + size + 3) / 4)).foldl (fun a i =>
    (fieldsAt (off / 4 * 4 + 4 * i)).foldl
      (fieldStore (v % 256 ^ size * 256 ^ (off % 4) / 2 ^ (32 * i)) ((256 ^ size - 1) * 256 ^ (off % 4) / 2 ^ (32 * i))) a) s

/-- A write to configuration space by tag 0; any other tag is refused (Table 1.5, R30). -/
def ecamWrite (tag g dev off size v : Nat) (r : EcamReg) (s : State) : State :=
  let w := 0x80000000 + g * 0x10000000 + ecamOff dev off
  if tag ≠ 0 then refuseWindow tag w s
  else if groupPresent s g = false then s
  else if isDvsec w size then dvsecStore w size v s
  else if ecamProtected s g dev r ∨ (groupOf s g).resetting.contains dev ∨ isInbound s g dev ∨ cfgPresent s g dev = false then s
  else if dev = 0xF8 ∧ r = .bar 0 then s
  else
    let free := cfgFree g dev off / 256 ^ (off % 4) % 256 ^ size
    let s1 := modGroup g (fun q => { q with config := putLE q.config (ecamOff dev off) size (v % 256 ^ size ^^^ free) }) s
    match r with
    | .bar i => modGroup g (fun q => { q with funcs := q.funcs.map fun f => if f.dev = dev then
        { f with bars := f.bars.zipIdx.map fun (b, j) => if j = i then (barBase b.1, b.2) else b } else f }) s1
    | .devControl2 ns => if portFunc s g dev then modGroup g (fun q => { q with cto := tset 0 q.cto (dev / 8) (ctoLegal ns) }) s1 else s1
    | .dpcRelease => releaseDpc g (dev / 8) s1
    | _ => s1
where
  barBase (old : Nat) : Nat := linePut old ((off - 0x10) % 8) size v / 16 * 16
  ctoLegal (ns : Nat) : Nat := if ns < 50000 ∨ 64000000000 < ns then 0 else ns

/-! ## The memory device's mailbox (R285) -/

/-- Answer an opcode in the memory-device role. -/
def cxlMailbox (g status : Nat) (f : State → Bytes) (upd : Group → Group) (s : State) : State :=
  if isMemDevice s g then farAnswer g status (f s) (modGroup g upd s) else s

def eventBytes (l : List CxlEvent) : Bytes :=
  mkBytes ((0x14, 2, l.length) :: l.zipIdx.flatMap fun (e, i) =>
    [(0x20 + i * 128 + 0x10, 1, 128), (0x20 + i * 128 + 0x14, 2, e.handle), (0x20 + i * 128 + 0x18, 8, e.beat),
     (0x20 + i * 128 + 0x30, 8, e.dpa)])

def poisonBytes (l : List Nat) : Bytes :=
  mkBytes ((0xA, 2, l.length) :: l.zipIdx.flatMap fun (a, i) => [(0x20 + i * 16, 8, a), (0x28 + i * 16, 4, 1)])

/-- Opcodes listed by the command effects log. -/
def cxlOpcodes : List Nat := [0x4000, 0x4200, 0x0100, 0x0101, 0x4300, 0x0400, 0x0401, 0x0301]

/-! ## port.* (R291, R293) -/

/-- The number of a group, clamped to a present group when it is beyond the numbering. -/
def clampGroup (s : State) (v : Nat) : Nat := clampUnit 8 (groupPresent s) v

/-- The present group nearest to a value among those that a command may name, the lower of two (DESIGN CHOICE, log entry 44); where there
is none, as above, and the outcome tells. -/
def clampGroupTo (s : State) (ok : Nat → Bool) (v : Nat) : Nat :=
  let far := fun (g : Nat) => max v g - min v g
  match (presentGroups s).filter ok with
  | [] => clampGroup s v
  | g :: l => l.foldl (fun a x => if far x < far a then x else a) g

def portStatusCmd (i : Nat) (c : Bytes) (s : State) : State :=
  let g := clampGroup s (arg c 0 1)
  let n := clampPort s g (arg c 1 1)
  let b := portBase g n
  let (base, size, t) := tget (0, 0, 0) s.mem.lent g
  stageDone i (chg (arg c 0 1) g + chg (arg c 1 1) n) (mkBytes [(0, 1, g), (1, 1, n), (2, 1, portRole s g n),
    (3, 1, portState s g n), (4, 1, rd s (portStatusWidth b)), (5, 1, rd s (portStatusSpeed b)), (6, 2, rd s (portLanesFailed b)),
    (8, 1, rd s (portErrLaneFailures b)), (9, 1, rd s (portErrLinkDowns b)), (10, 2, rd s (portErrReplays b)),
    (0xC, 2, (groupOf s g).assigns.length), (0xE, 2, if size = 0 then 0 else t), (0x10, 8, base), (0x18, 8, size)]) s

/-- Domain of a group is on. -/
def serdesOn (s : State) (g : Nat) : Bool := rd s (pwrDomainState (160 + g)) == 2

/-- A port takes a role (Table 10.8); assigned functions of one that is disabled stay its functions (R291). -/
def takeRole (g n role : Nat) (s : State) : State :=
  let b := portBase g n
  if portState s g n = 6 then s
  else if role = 0 then
    wr (portStatusState b) 1 (wr (portStatusRole b) 0 (wr (portStatusWidth b) 0 (wr (portStatusDegraded b) 0
      (modGroup g (fun q => { q with dpc := q.dpc.filter (· != n), presence := q.presence.filter (· != n),
                                     funcs := q.funcs.filter fun f => f.port != n || devTenancy s g f.dev != 0 }) (endRequests g n s)))))
  else if portState s g n = 1 then
    wr (portStatusState b) 2 (wr (portStatusRole b) role
      (modGroup g (fun q => { q with began := tset 0 q.began n (beat s), fresh := (n :: q.fresh).eraseDups }) s))
  else s

/-- The bifurcation has a port n. -/
def inBif (code n : Nat) : Bool := (bifPorts code).any fun e => e.1 == n

/-- A group takes a bifurcation: ports outside it become absent; a fenced port stays fenced (R289). -/
def takeBif (g code : Nat) (s : State) : State :=
  if code = bifOf s g then s
  else (List.range 4).foldl (fun a n =>
    wr (portStatusState (portBase g n)) (if portState s g n = 6 then 6 else if inBif code n then 1 else 0)
      (wr (portGroupBifurcation (portBase g n)) code a)) s

/-- A function of the port is assigned (R291): one below it, or an inbound region that it had as an endpoint. -/
def portAssigned (s : State) (g n : Nat) : Bool :=
  ((funcsBelow s g n).any fun d => devTenancy s g d != 0) ||
    (n == 0 && (List.range 8).any fun r => (funcOf s g (0xFF00 + r)).isNone && devTenancy s g (0xFF00 + r) != 0)

/-- Outcome of port.config's checks (Table 10.13). DESIGN CHOICE (log entry 44): where several apply, the lowest code; a fenced port,
which no command disables, is one that is not disabled. -/
def configOutcome (s : State) (g code : Nat) (roles : List Nat) : Nat :=
  let role := fun n => (roles[n]?).getD 0
  let now := portsOf s g
  let ports := (bifPorts code).map (·.1)
  let same := fun n => role n == portRole s g n
  if code ≠ bifOf s g ∧ now.any (fun n => portState s g n == 6 || (portState s g n != 1 && role n != 0)) then 1
  else if code = bifOf s g ∧ ports.any (fun n => !same n && portState s g n != 1 && (role n != 0 || portState s g n == 6)) then 2
  else if code ≠ 0 ∧ ports.any (fun n => role n == 2 || role n == 4) then 3
  else if (role 0 = 4 ∧ (groupOf s g).role4 = false) ∨ (portRole s g 0 = 4 ∧ role 0 ≠ 4 ∧ role 0 ≠ 0) ∨
      ((groupOf s g).role4 ∧ role 0 ≠ 0 ∧ role 0 ≠ 4) ∨ ports.any (fun n => n != 0 && role n == 4) then 4
  else if ports.any (fun n => role n != 0 && !same n && portAssigned s g n) then 5
  else 0

/-- Result of port.config (Table 10.13). -/
def confResult (g code : Nat) (roles : List Nat) (out b : Nat) : Bytes :=
  mkBytes ([(0, 1, g), (1, 1, code), (6, 1, out), (8, 8, b)] ++ roles.zipIdx.map fun (r, n) => (2 + n, 1, r))

/-- The group's domain goes off at the next boundary once every port is disabled (R266). -/
def offWhenDisabled (g : Nat) (s : State) : State :=
  if allDisabled s g ∧ serdesOn s g then addDue (beat s + 1) 4 (.switch (160 + g) false) s else s

/-- port.config takes effect; a fence of this boundary comes before it, so its checks are made again (R40). -/
def applyConf (i cl g code : Nat) (roles : List Nat) (s : State) : State :=
  let out := configOutcome s g code roles
  if out ≠ 0 then offWhenDisabled g (stageDone i cl (confResult g code roles out 0) s)
  else
    let s1 := takeBif g code (if code ≠ bifOf s g then (portsOf s g).foldl (fun a n => takeRole g n 0 a) s else s)
    let s2 := roles.zipIdx.foldl (fun a (r, n) => if inBif code n ∧ r ≠ portRole a g n then takeRole g n r a else a) s1
    offWhenDisabled g (stageDone i cl (confResult g code roles 0 (beat s)) s2)

/-- port.config (R291, R293). DESIGN CHOICE (log entry 44): the beat of a result with another outcome than 0 is 0, as in port.assign and
port.cxlgrant. -/
def portConfig (i : Nat) (c : Bytes) (s : State) : State :=
  let g := clampGroup s (arg c 0 1)
  let code := clampEnum 5 (bifOf s g) (arg c 1 1)
  let roles := (List.range 4).map fun n => if inBif code n then clampEnum 5 0 (arg c (2 + n) 1) else 0
  let cl := chg (arg c 0 1) g + chg (arg c 1 1) code +
    (((List.range 4).filter (inBif code)).map fun n => chg (arg c (2 + n) 1) (clampEnum 5 0 (arg c (2 + n) 1))).sum
  let out := configOutcome s g code roles
  if out ≠ 0 then stageDone i cl (confResult g code roles out 0) s
  else if roles.any (· != 0) ∧ serdesOn s g = false then
    addStep i (beat s + 2) (.portConf i cl g code roles) (addDue (beat s + 1) 4 (.switch (160 + g) true) s)
  else addStep i (beat s + 1) (.portConf i cl g code roles) s

/-- Every granule of a context's 64 bytes belongs to the caller. -/
def ctxOwned (s : State) (t addr : Nat) : Bool :=
  homeOf addr == rd s fabIdDeviceId && (coord s (offOf addr)).isSome && granuleOwner s (offOf addr) == t

/-- port.assign (R273 to R275, R293). DESIGN CHOICE (log entry 44): where several outcomes apply, the lowest code; none stands in the
spec's order. -/
def portAssign (i : Nat) (c : Bytes) (s : State) : State :=
  let g := clampGroup s (arg c 0 1)
  let act := clampEnum 3 0 (arg c 1 1)
  let dev := arg c 2 2
  let n := clampR 1 8 (arg c 4 1)
  let t := if 1 ≤ i ∧ i ≤ 256 then i else min 256 (arg c 6 2)
  let dc := roundDown 64 (arg c 8 8)
  let cl := chg (arg c 0 1) g + chg (arg c 1 1) act + chg (arg c 4 1) n + chg (arg c 6 2) t + (if act = 1 then chg (arg c 8 8) dc else 0)
  let res := fun o b => mkBytes [(0, 1, g), (1, 1, act), (2, 2, dev), (4, 1, n), (5, 1, o), (6, 2, t), (8, 8, b)]
  let devs := (List.range n).map (dev + ·)
  let fin := fun o => stageDone i cl (res o 0)
  if devs.any (fun d => !funcPresent s g d) then fin 1 s
  else if act = 0 then
    if isSealed s t ∨ devs.any (fun d => isSealed s (devTenancy s g d) && devTenancy s g d != t) then fin 2 s
    else if t ≠ 0 ∧ ((tenantOf s t).st = .free ∨ (tenantOf s t).st = .closing) then fin 3 s
    else if 256 < (cutAssigns dev n (groupOf s g).assigns).length + (if t = 0 then 0 else 1) then fin 5 s
    else if t ≠ 0 ∧ devs.any (fun d => (funcOf s g d).any fun f => !f.flr && !aloneBelow s g f) then fin 7 s
    else addStep i (beat s + 1) (.stage i cl (res 0 (beat s + 1))) (addStep i (beat s + 1) (.portOwner g dev n t) s)
  else if devs.any (fun d => devTenancy s g d != t) then fin 4 s
  else if act = 1 then
    if devs.any (fun d => !ctxOwned s t (dc + 64 * (d - dev))) then fin 6 s
    else addStep i (beat s + 1) (.stage i cl (res 0 (beat s + 1)))
      (modGroup g (fun q => { q with ctx := devs.foldl (fun x d => tset 0 x d (dc + 64 * (d - dev) + 1)) q.ctx }) s)
  else addStep i (beat s + 1) (.stage i cl (res 0 (beat s + 1)))
    (modGroup g (fun q => { q with cached := q.cached.filter fun d => !devs.contains d }) s)

/-- Nearest legal value of region: 0 to 15, or 0xFF. -/
def clampRegion (v : Nat) : Nat := if v < 16 then v else if v - 15 ≤ 0xFF - v then 15 else 0xFF

def clampBar2 (v : Nat) : Nat := if v = 0 then 0 else if v ≤ 10 then 0 else clampR 21 40 v

def applyEp (g bar2 r : Nat) (en : Bool) (owner base : Nat) (s : State) : State :=
  modGroup g (fun q => { q with bar2Set := if bar2 = 0 then q.bar2Set else bar2,
                                outRegs := if r = 0xFF then q.outRegs else tset {} q.outRegs r ⟨en, owner, base⟩ }) s

def portEp (i : Nat) (c : Bytes) (s : State) : State :=
  let g := clampGroupTo s (isEndpoint s) (arg c 0 1)
  let bar2 := clampBar2 (arg c 1 1)
  let r := clampRegion (arg c 2 1)
  let en := clampEnum 2 0 (arg c 3 1)
  let ow := min 256 (arg c 4 2)
  let base := roundDown 4096 (arg c 8 8)
  let cl := chg (arg c 0 1) g + chg (arg c 1 1) bar2 + chg (arg c 2 1) r + chg (arg c 3 1) en + chg (arg c 4 2) ow + chg (arg c 8 8) base
  let res := fun o => mkBytes [(0, 1, g), (1, 1, bar2), (2, 1, r), (3, 1, en), (4, 2, ow), (6, 1, o), (8, 8, base)]
  if isEndpoint s g = false then stageDone i cl (res 1) s
  else
    let bad := r ≠ 0xFF ∧ ow ≠ 0 ∧ (tenantOf s ow).st ≠ .opened
    addStep i (beat s + 1) (.stage i cl (res (if bad then 2 else 0)))
      (addStep i (beat s + 1) (.portEp g bar2 (if bad then 0xFF else r) (en == 1) ow base) s)

/-- Every cached line of a set leaves the slices and L2s without write-back. -/
def discardLines (p : Nat → Bool) (s : State) : State :=
  (presentSlices s).foldl (fun a n =>
    let r := sliceOf a n
    let ls := (r.lines.map (·.1) ++ r.victims.map (·.1) ++ r.dir.map (·.1)).eraseDups.filter p
    ls.foldl (fun b l => discardLine n l b) a) s

/-- CXL.mem granules change owner, and the former owner's cached lines in them are invalidated without write-back (R293). -/
def cxlChange (g first count ten : Nat) (s : State) : State :=
  let ids := (List.range count).map fun k => g * 4096 + first + k
  let s1 := setMem { s.mem with cxlGranules := ids.foldl (fun t k => tset 0 t k ten) s.mem.cxlGranules } s
  let lo := rd s fabIdDeviceId * 2 ^ 40 + (0x040000000000 + (g * 4096 + first) * 2 ^ 30) / 64
  discardLines (fun l => lo ≤ l && l < lo + count * 2 ^ 24) s1

/-- Outcome of port.cxlgrant (Table 10.19): lowest code that applies. -/
def cxlOutcome (s : State) (g base count t : Nat) : Nat :=
  let offs := (List.range count).map fun k => base + k * 2 ^ 30
  let owners := (offs.map (cxlOwner s)).eraseDups
  let good := if t = 0 then owners.length ≤ 1 && owners.all (fun o => o == 0 || (tenantOf s o).st == .opened)
    else owners.all (· == 0)
  if good = false then 1
  else if t ≠ 0 ∧ (tenantOf s t).st ≠ .opened then 2
  else if offs.any (fun o => !hdmCovers s g o) then 3
  else 0

/-- A port of the group is a CXL host port. -/
def hasHostPort (s : State) (g : Nat) : Bool := (List.range 4).any fun n => portRole s g n == 3

/-- port.cxlgrant: granules for a tenant are first written with zeros through their port, by one request that spans them (DESIGN CHOICE,
log entry 44). -/
def portCxlgrant (i : Nat) (c : Bytes) (s : State) : State :=
  let g := clampGroupTo s (hasHostPort s) (arg c 0 1)
  let lo := 0x040000000000 + g * 0x040000000000
  let base := roundDown (2 ^ 30) (clampR lo (lo + 0x040000000000 - 2 ^ 30) (arg c 8 8))
  let size := min (clampR (2 ^ 30) (2 ^ 42) (roundUp (2 ^ 30) (arg c 0x10 8))) (lo + 0x040000000000 - base)
  let t := min 256 (arg c 0x18 2)
  let cl := chg (arg c 0 1) g + chg (arg c 8 8) base + chg (arg c 0x10 8) size + chg (arg c 0x18 2) t
  let k := size / 2 ^ 30
  let out := cxlOutcome s g base k t
  if out ≠ 0 then stageDone i cl (grantResult g out t 0 base size 0) s
  else if t = 0 then addStep i (beat s + 1) (.stage i cl (grantResult g 0 t k base size (beat s + 1)))
    (addStep i (beat s + 1) (.cxlGrant g ((base - lo) / 2 ^ 30) k t) s)
  else sendOut { xid := 0, dev := 64 + g, kind := 5, pa := paOf s base, tag := 0, size := size, origin := .grant i cl g base k t } s

/-! ## What the groups do by themselves -/

/-- A group at a boundary: the queues of its IOMMU; a reset ends within 100 ms (R274); a posted write that no error has met for
10,000 beats is forgotten (DESIGN CHOICE, log entry 44). -/
def groupBeat (g : Nat) (s : State) : State :=
  let q := groupOf s g
  let s1 := (q.resetting.filter fun d => decide (tget 0 q.resetAt d + 100000 ≤ beat s)).foldl (fun a d => functionResetDone g d a) s
  { s1 with outs := s1.outs.filter fun o => !(o.dev == 64 + g && postedOut s1 o && decide (o.sent + 10000 ≤ beat s1)) }

def groupsBeat (s : State) : State := (presentGroups s).foldl (fun a g => groupBeat g a) (queuesBeat s)

/-! ## Meanings -/

/-- FUNCTION_RESET_DONE (R274). -/
def execFunctionResetDone (g dev : Nat) (s : State) : Host.Outcome State Fault Refusal := .next (functionResetDone g dev s)
/-- SERDES_LANE_FAILURE (R287). -/
def execSerdesLaneFailure (g n : Nat) (lanes : List Nat) (s : State) : Host.Outcome State Fault Refusal :=
  .next (laneFailure g n lanes s)
/-- PORT_RETRAIN_DONE (R290). -/
def execPortRetrainDone (g n : Nat) (s : State) : Host.Outcome State Fault Refusal := .next (retrainDone g n s)
/-- PORT_RETRAIN_TIMEOUT (R290). -/
def execPortRetrainTimeout (g n : Nat) (s : State) : Host.Outcome State Fault Refusal := .next (retrainTimeout g n s)
/-- SERDES_LINK_UP (R290). -/
def execSerdesLinkUp (g n width speed : Nat) (flit : Bool) (funcs : List FuncInfo) (s : State) :
    Host.Outcome State Fault Refusal := .next (linkUp g n width speed flit funcs s)
/-- SERDES_LINK_DOWN (R288, R289). -/
def execSerdesLinkDown (g n : Nat) (s : State) : Host.Outcome State Fault Refusal :=
  .next (if portState s g n = 3 then linkDown g n s else s)
/-- PORT_TRAIN_RETRY (R290). -/
def execPortTrainRetry (g n : Nat) (s : State) : Host.Outcome State Fault Refusal := .next (trainRetry g n s)
/-- SERDES_INGRESS_REQUEST (R271, R275). -/
def execSerdesIngressRequest (g n : Nat) (q : DevReq) (s : State) : Host.Outcome State Fault Refusal :=
  .next (ingressRequest g n q s)
/-- ROOT_PORT_COMPLETION (R277). -/
def execRootPortCompletion (xid status data : Nat) (s : State) : Host.Outcome State Fault Refusal :=
  .next (rootCompletion xid status data s)
/-- COMPLETION_TIMEOUT (R278). -/
def execCompletionTimeout (xid ns : Nat) (s : State) : Host.Outcome State Fault Refusal := .next (completionTimeout xid ns s)
/-- ECAM_WRITE (R273). -/
def execEcamWrite (tag g dev off size v : Nat) (r : EcamReg) (s : State) : Host.Outcome State Fault Refusal :=
  .next (ecamWrite tag g dev off size v r s)
/-- CXL_MEM_DEVICE_REQUEST (R284). -/
def execCxlMemDeviceRequest (g dpa : Nat) (write : Bool) (data : Nat) (s : State) : Host.Outcome State Fault Refusal :=
  .next (memDeviceRequest g dpa write data s)
/-- CXL_MEM_RESPONSE (R282). -/
def execCxlMemResponse (xid data : Nat) (poison : Bool) (s : State) : Host.Outcome State Fault Refusal :=
  .next (cxlResponse xid data poison s)
/-- IDENTIFY_MEMORY_DEVICE (R285): the lent size in units of 256 MB. -/
def execIdentifyMemoryDevice (g : Nat) (s : State) : Host.Outcome State Fault Refusal :=
  .next (cxlMailbox g 0 (fun a => mkBytes [(0x10, 8, rd a (portLendSizeUnits (portBase g 0))),
    (0x18, 8, rd a (portLendSizeUnits (portBase g 0)))]) id s)
/-- GET_HEALTH_INFO (R285): 18 bytes of state that the spec does not give. -/
def execGetHealthInfo (g : Nat) (s : State) : Host.Outcome State Fault Refusal :=
  .next (if isMemDevice s g then freeNext (cxlMailbox g 0 (fun a => putLE [] 0 18 (freeVal (2 ^ 144) a)) id s) else s)
/-- GET_EVENT_RECORDS (R285): the log of failed checks is the failure log, number 2; the others are empty. -/
def execGetEventRecords (g log : Nat) (s : State) : Host.Outcome State Fault Refusal :=
  .next (cxlMailbox g 0 (fun a => eventBytes (if log = 2 then (groupOf a g).events else [])) id s)
/-- CLEAR_EVENT_RECORDS (R285): no handles clear the whole log. -/
def execClearEventRecords (g log : Nat) (handles : List Nat) (s : State) : Host.Outcome State Fault Refusal :=
  .next (cxlMailbox g 0 (fun _ => []) (fun q => if log = 2 then
    { q with events := if handles = [] then [] else q.events.filter fun e => !handles.contains e.handle } else q) s)
/-- GET_POISON_LIST (R285). -/
def execGetPoisonList (g dpa len : Nat) (s : State) : Host.Outcome State Fault Refusal :=
  .next (cxlMailbox g 0 (fun a => poisonBytes ((groupOf a g).poisoned.filter fun x => dpa ≤ x && x < dpa + len * 64)) id s)
/-- GET_SUPPORTED_LOGS (R285): the command effects log. -/
def execGetSupportedLogs (g : Nat) (s : State) : Host.Outcome State Fault Refusal :=
  .next (cxlMailbox g 0 (fun _ => mkBytes [(0, 2, 1), (0x18, 4, cxlOpcodes.length * 4)]) id s)
/-- GET_LOG (R285). -/
def execGetLog (g log off len : Nat) (s : State) : Host.Outcome State Fault Refusal :=
  .next (cxlMailbox g 0 (fun _ => if log = 0 then
    ((mkBytes (cxlOpcodes.zipIdx.map fun (x, i) => (i * 4, 4, x))).filter fun e => off ≤ e.1 && e.1 < off + len).map
      fun e => (e.1 - off, e.2) else []) id s)
/-- SET_TIMESTAMP (R285). -/
def execSetTimestamp (g v : Nat) (s : State) : Host.Outcome State Fault Refusal :=
  .next (cxlMailbox g 0 (fun _ => []) (fun q => { q with stamp := v, stampAt := now s }) s)
/-- CXL_UNSUPPORTED_OPCODE (R285). -/
def execCxlUnsupportedOpcode (g op : Nat) (s : State) : Host.Outcome State Fault Refusal :=
  .next (if cxlOpcodes.contains op then s else cxlMailbox g 3 (fun _ => []) id s)
/-- SIGNAL_PAGE_WRITE (R280). -/
def execSignalPageWrite (h pa size v : Nat) (s : State) : Host.Outcome State Fault Refusal :=
  .next (execSignalPage h pa size v s)
/-- PERST_INPUT (R445): an input in endpoint and memory-device roles, an output in the others. -/
def execPerstInput (g : Nat) (low : Bool) (s : State) : Host.Outcome State Fault Refusal :=
  .next (if portRole s g 0 = 2 ∨ portRole s g 0 = 4 then
    { s with chip := { s.chip with perstLow :=
      if low then (g :: s.chip.perstLow).eraseDups else s.chip.perstLow.filter (· != g) } } else s)
/-- PORT_STATUS (R293). -/
def execPortStatus (mbx : Nat) (s : State) : Host.Outcome State Fault Refusal := .next (onCmd mbx 0x0801 (portStatusCmd mbx) s)
/-- PORT_CONFIG (R291, R293). -/
def execPortConfig (mbx : Nat) (s : State) : Host.Outcome State Fault Refusal := .next (onCmd mbx 0x0802 (portConfig mbx) s)
/-- PORT_ASSIGN (R273 to R275, R293). -/
def execPortAssign (mbx : Nat) (s : State) : Host.Outcome State Fault Refusal := .next (onCmd mbx 0x0803 (portAssign mbx) s)
/-- PORT_EP (R279, R280, R293). -/
def execPortEp (mbx : Nat) (s : State) : Host.Outcome State Fault Refusal := .next (onCmd mbx 0x0804 (portEp mbx) s)
/-- PORT_CXLGRANT (R281, R293). -/
def execPortCxlgrant (mbx : Nat) (s : State) : Host.Outcome State Fault Refusal :=
  .next (onCmd mbx 0x0805 (portCxlgrant mbx) s)

end Sys2Proof.Machine
end

