-- ==== Sys2Proof/Machine/Dma.lean ====
section
/-! DEFINITION. Machine/Dma.lean: DMA channels, their rings and descriptors, errors, stopping, and the dma.* commands
(R294 to R310). -/
namespace Sys2Proof.Machine

/-- Tag of the channel's requests: 0 with the management marker for a privileged one. -/
def dmaTag (s : State) (d : Nat) : Nat := if dmaPriv d then 0 else rd s (dmaStatusOwner d)

/-- Who reaches a channel's page: an ordinary channel's owner, the Clerk (512) and the Assayer (513); a privileged
channel's owner only (R294, R295). -/
def dmaReach (s : State) (tag d : Nat) : Bool :=
  if dmaPriv d then (if d % 32 < 30 then tag == 512 else tag == 513)
  else tag == 512 || tag == 513 || tag == rd s (dmaStatusOwner d)

/-- A write to the channel's page by a party that reaches it; any other is refused (R30). -/
def dmaBy (tag d off : Nat) (f : State → State) (s : State) : State :=
  if dmaPresent d then (if dmaReach s tag d then f s else refuseWindow tag (dmaBase d + off) s) else s

/-- Address of byte i (R298). -/
def dmaAddr (a k i : Nat) : Nat := if k = 0 then a + i else a / 2 ^ k * 2 ^ k + (a + i) % 2 ^ k

/-! ## Memory accesses of a channel -/

/-- What an access of the channel meets: this device's DRAM; main memory or a window that device to' answers, 64 + g for a port of group
g, under the address it gets; a group's fixed page; a signal page; or an error of Table 11.2. -/
inductive DmaAt where
  | here
  | far (to' addr : Nat)
  | page (g x : Nat)
  | signal (g x : Nat)
  | err (kind : Nat)
  deriving DecidableEq, Repr

def dmaAt (s : State) (d pa size : Nat) : DmaAt :=
  let tag := dmaTag s d
  if regionOf (offOf pa) = .control then .err 1
  else if ownLine s (lineOf pa) = false then .far (homeOf pa) pa
  else match regionOf (offOf pa) with
  | .dram => if (coord s (offOf pa)).isNone then .err 1
             else if granuleOk s (offOf pa) tag (dmaPriv d) then .here else .err 2
  | .cxl => if decoded s (offOf pa) = false then .err 1
            else if dmaPriv d || mayReach s tag (lineOf pa) then .far (outDev s (lineOf pa)) pa else .err 2
  | .io g => match ioAt s g tag pa size with
    | .port _ => .far (64 + g) pa
    | .host a => .far (64 + g) a
    | .page x => .page g x
    | .signal _ x => .signal g x
    | .refused => .err 2
    | .vacant => .err 1
  | _ => .err 1

/-- The record of a refused access (R205, R272, R281). -/
def dmaRefused (d pa kind : Nat) (s : State) : State :=
  if kind = 2 then match regionOf (offOf pa) with
    | .io g => refuseIo g (dmaTag s d) pa s
    | _ => refuseLine pa (dmaTag s d) s
  else s

/-- An address of another device to which there is no route (R252). -/
def noRoute (s : State) (pa : Nat) : Bool := !ownLine s (lineOf pa) && !hasRoute s (homeOf pa)

/-- A request of the channel to another device or through a port; a privileged channel's carries the management marker (R294). -/
def dmaOut (s : State) (d to' addr kind n v : Nat) (origin : Origin) : Out :=
  { xid := 0, dev := to', kind := kind, pa := addr, tag := dmaTag s d, size := n, data := v, mgmt := dmaPriv d, origin := origin }

/-- A port has no tag left for a request of the channel (Table 10.3). -/
def dmaStuck (s : State) (d to' addr kind n : Nat) : Bool := decide (64 ≤ to') && tagsFull s (to' - 64) (dmaOut s d to' addr kind n 0 .none)

/-- What a read of the channel gives: a value, the error's kind, or nothing yet: its command comes again. -/
inductive DmaGot where
  | val (v : Nat)
  | err (kind : Nat)
  | wait
  deriving DecidableEq, Repr

/-- A line under its tag, at its home here or as a copy that this device's slice holds of a line from elsewhere; far: no copy is here. -/
def dmaLine (d pa : Nat) (tag : Nat) (s : State) : State × Seen :=
  if ncClear s tag (lineOf pa) false = false then (ncOpen (.dma d) tag (lineOf pa) false s, .wait)
  else if ownDram s (lineOf pa) ∨ lineCached s (homeSlice s tag (lineOf pa)) (lineOf pa) then currentLine (.dma d) (lineOf pa) tag s
  else (s, .far)

/-- A read that leaves this device: sent once, and answered when its answer has come. -/
def dmaAway (d pa n to' addr : Nat) (s : State) : State × DmaGot :=
  match (dmaOf s d).far.find? fun f => f.addr == pa && f.n == n with
  | some f => match f.ans with
    | some (0, v) => (s, .val (v % 2 ^ (8 * n)))
    | some (k, _) => (s, .err k)
    | none => (s, .wait)
  | none =>
    if noRoute s pa then (bump fabEventsErrors 1 s, .err 4)
    else if dmaStuck s d to' addr 3 n then (s, .wait)
    else (sendOut (dmaOut s d to' addr 3 n 0 (.dmaRd d pa n)) (modDma d (fun r => { r with far := r.far ++ [{ addr := pa, n := n }] }) s), .wait)

/-- Read n bytes that do not cross a line. `open'` is what a signal page gives, which the spec leaves open. -/
def dmaRead (d pa n : Nat) (open' : FarRead) (s : State) : State × DmaGot :=
  match dmaAt s d pa n with
  | .err k => (dmaRefused d pa k s, .err k)
  | .page g x => (s, .val (fixedRead s g x n))
  | .signal _ _ => (s, match open' with
    | .data v => .val (v % 2 ^ (8 * n))
    | .err k => .err k)
  | .far to' addr =>
    if (64 ≤ to' ∧ regionOf (offOf pa) ≠ .cxl) ∨ (dmaOf s d).far ≠ [] then dmaAway d pa n to' addr s
    else match dmaLine d pa (dmaTag s d) s with
      | (s1, .data x false) => (s1, .val (lineGet x (pa % 64) n))
      | (s1, .data _ true) => (s1, .err 3)
      | (s1, .wait) => (s1, .wait)
      | (s1, .far) => dmaAway d pa n to' addr s1
  | .here => match dmaLine d pa (granuleOwner s (offOf pa)) s with
    | (s1, .data x false) => (s1, .val (lineGet x (pa % 64) n))
    | (s1, .wait) => (s1, .wait)
    | (s1, _) => (s1, .err 3)

/-- A write of the channel: byte of its descriptor, address, bytes, data. -/
structure DmaWr where
  off  : Nat
  addr : Nat
  n    : Nat
  data : Nat
  deriving DecidableEq, Repr

/-- What a write needs before it is made: its line free of copies elsewhere, and for a part-line write the line that it merges into at
the home (R179), none where that is poison. No answer: its command comes again. -/
def dmaNeeds (d : Nat) (w : DmaWr) (s : State) : State × Option (Option Nat) :=
  match dmaAt s d w.addr w.n with
  | .here =>
    let t := granuleOwner s (offOf w.addr)
    if ncClear s t (lineOf w.addr) true = false then (ncOpen (.dma d) t (lineOf w.addr) true s, none)
    else if w.n = 64 then (s, some none)
    else match currentLine (.dma d) (lineOf w.addr) t s with
      | (s1, .data x false) => (s1, some (some x))
      | (s1, .wait) => (s1, none)
      | (s1, _) => (s1, some none)
  | .far to' addr =>
    if dmaStuck s d to' addr 4 w.n then (s, none)
    else if isLine w.addr && !ncClear s (dmaTag s d) (lineOf w.addr) true then (ncOpen (.dma d) (dmaTag s d) (lineOf w.addr) true s, none)
    else (s, some none)
  | _ => (s, some none)
where
  isLine (pa : Nat) : Bool := match regionOf (offOf pa) with
    | .dram | .cxl => true
    | _ => false

/-- Every write's needs together; the first that is not met ends it. -/
def dmaPrepare (d : Nat) : List DmaWr → State → State × Option (List (Option Nat))
  | [], s => (s, some [])
  | w :: r, s => match dmaNeeds d w s with
    | (s1, none) => (s1, none)
    | (s1, some x) => match dmaPrepare d r s1 with
      | (s2, none) => (s2, none)
      | (s2, some l) => (s2, some (x :: l))

/-- Make a write whose needs are met: none, or the error's kind. A write to a port's window is posted: no completion is awaited
(Table 10.7). -/
def dmaWrite (d : Nat) (w : DmaWr) (old : Option Nat) (s : State) : State × Option Nat :=
  match dmaAt s d w.addr w.n with
  | .err k => (dmaRefused d w.addr k s, some k)
  | .page g x => (fixedWrite g x w.n w.data s, none)
  | .signal g x => (signalWrite g x w.n w.data s, none)
  | .far to' addr =>
    if noRoute s w.addr then (bump fabEventsErrors 1 s, some 4)
    else
      let n := homeSlice s (dmaTag s d) (lineOf w.addr)
      let s1 := if lineCached s n (lineOf w.addr) then flushLine n (lineOf w.addr) s else s
      let s2 := if ownLine s (lineOf w.addr) ∧ regionOf (offOf w.addr) = .cxl then breakResv none (lineOf w.addr) s1 else s1
      (sendOut (dmaOut s d to' addr 4 w.n w.data (.dma d w.off)) s2, none)
  | .here =>
    let put := fun (v : Nat) => writeAtHome (.dma d) (lineOf w.addr) (granuleOwner s (offOf w.addr)) v s
    if w.n = 64 then (put w.data, none)
    else match old with
      | some x => (put (linePut x (w.addr % 64) w.n w.data), none)
      | none => (s, some 3)

/-- The reads that a command of the channel has waited for are over. -/
def dmaEndReads (d : Nat) (s : State) : State := dropReads (.dma d) (modDma d (fun r => { r with far := [] }) s)

/-! ## Descriptors (R299 to R303) -/

/-- The channel is active when its ring holds work, idle otherwise. -/
def dmaSettle (d : Nat) (s : State) : State := setDmaState d (if ringEmpty s d then 2 else 3) s

/-- R299: a descriptor that is BAD with kind 6. -/
def badDesc (q : Desc) : Bool :=
  decide (2 ^ 30 < q.len) || (1 ≤ q.srcLog && decide (q.srcLog ≤ 11)) || decide (30 < q.srcLog) ||
    (1 ≤ q.dstLog && decide (q.dstLog ≤ 11)) || decide (30 < q.dstLog)

def decodeDesc (a v : Nat) : Desc :=
  { at' := a, irq := inMask v 0, fence := inMask v 1, srcLog := v / 2 ^ 8 % 32, dstLog := v / 2 ^ 16 % 32,
    len := v / 2 ^ 32 % 2 ^ 32, src := v / 2 ^ 64 % 2 ^ 64, dst := v / 2 ^ 128 % 2 ^ 64 }

/-- The descriptor at DMA_HEAD has been fetched. -/
def descFetched (d : Nat) (open' : FarRead) (s : State) : State :=
  if dmaState s d = 3 ∧ (dmaOf s d).desc.isNone ∧ ringEmpty s d = false ∧ (dmaOf s d).aborting = false then
    match dmaRead d (descAt s d) 32 open' s with
    | (s1, .wait) => s1
    | (s1, .err k) => dmaRingFault d k 0 (dmaEndReads d s1)
    | (s1, .val x) =>
      let q := decodeDesc (descAt s d) x
      wr (dmaCurSrcSrc d) q.src (wr (dmaCurDstDst d) q.dst (wr (dmaCurRemainRemain d) (min q.len (2 ^ 31 - 1))
        (modDma d (fun r => { r with desc := some q, done := 0, bad := if badDesc q then some (6, 0, 0) else none })
          (dmaEndReads d s1))))
  else s

/-- The bytes of one read at their wrapped addresses, line by line. -/
def dmaChunks (q : Desc) : Nat → Nat → Nat → Nat → List DmaWr
  | 0, _, _, _ => []
  | _, _, 0, _ => []
  | k + 1, i, n, v =>
    let a := dmaAddr q.dst q.dstLog i
    let m := min n (64 - a % 64)
    { off := i, addr := a, n := m, data := v % 2 ^ (8 * m) } :: dmaChunks q k (i + m) (n - m) (v / 2 ^ (8 * m))

/-- Write the chunks in order: the offset after the last that was written, and the error of the first that fails. -/
def dmaSpread (d : Nat) : List (DmaWr × Option Nat) → Nat → State → State × Nat × Option Nat
  | [], i, s => (s, i, none)
  | (w, old) :: r, _, s => match dmaWrite d w old s with
    | (s1, some k) => (s1, w.off, some k)
    | (s1, none) => dmaSpread d r (w.off + w.n) s1

/-- Read data has arrived and is written (R298); an error ends the descriptor at its lowest failing byte. -/
def readReturn (d n : Nat) (open' : FarRead) (s : State) : State :=
  let r := dmaOf s d
  match r.desc with
  | none => s
  | some q =>
    if r.bad.isSome ∨ r.aborting ∨ q.len ≤ r.done ∨ (dmaState s d ≠ 3 ∧ dmaState s d ≠ 4 ∧ dmaState s d ≠ 8) then s
    else
      let a := dmaAddr q.src q.srcLog r.done
      let m := min (min n (q.len - r.done)) (64 - a % 64)
      match dmaRead d a m open' s with
      | (s1, .wait) => s1
      | (s1, .err k) => dmaError d k 0 r.done a false (dmaEndReads d s1)
      | (s1, .val x) =>
        let ws := dmaChunks q 3 r.done m x
        match dmaPrepare d ws s1 with
        | (s2, none) => s2
        | (s2, some olds) =>
          let (s3, i, e) := dmaSpread d (ws.zip olds) r.done (dmaEndReads d s2)
          let s4 := wr (dmaCurSrcSrc d) (dmaAddr q.src q.srcLog i) (wr (dmaCurDstDst d) (dmaAddr q.dst q.dstLog i)
            (wr (dmaCurRemainRemain d) (q.len - i)
              (modDma d (fun c => { c with done := i, bytes := c.bytes + (i - r.done), total := c.total + (i - r.done) }) s3)))
          match e with
          | some k => dmaError d k 1 i (dmaAddr q.dst q.dstLog i) false s4
          | none => s4

/-- Status word (Table 11.2). -/
def statusWord (q : Desc) (bad : Option (Nat × Nat × Nat)) : Nat :=
  match bad with
  | none => 1 + q.len * 2 ^ 32
  | some (k, dir, off) => 2 + k * 16 + dir * 256 + off * 2 ^ 32

/-- The descriptor's status is written and DMA_HEAD advances (R300, R301, R305). -/
def finishDesc (d : Nat) (q : Desc) (s : State) : State :=
  let r := dmaOf s d
  let w : DmaWr := { off := statusOff, addr := q.at' + 0x18, n := 8, data := statusWord q r.bad }
  match dmaNeeds d w s with
  | (s0, none) => s0
  | (s0, some old) => match dmaWrite d w old (dmaEndReads d s0) with
  | (s1, some k) => dmaRingFault d k 1 s1
  | (s1, none) =>
    let s2 := if r.bad.isSome then bump (dmaStatusBadCount d) 1 s1 else s1
    let s3 := wr (dmaHeadHead d) ((headOf s d + 1) % ringSize s d)
      (modDma d (fun c => { c with desc := none, done := 0, bad := none, msiDue := c.msiDue || q.irq }) s2)
    if dmaState s d = 8 then setDmaState d 9 s3
    else if dmaState s d = 4 then s3
    else dmaSettle d s3

/-- A write of the channel waits for its answer from elsewhere. -/
def dmaWaits (s : State) (d : Nat) : Bool :=
  s.outs.any fun o => !postedOut s o && match o.origin with
    | .dma x _ => x == d
    | _ => false

/-- Every write of the descriptor has been acknowledged or has failed. -/
def descComplete (d : Nat) (s : State) : State :=
  let r := dmaOf s d
  match r.desc with
  | none => s
  | some q =>
    if r.aborting ∨ dmaState s d = 6 ∨ dmaState s d = 7 ∨ dmaWaits s d then s
    else if r.done = q.len ∨ r.bad.isSome then finishDesc d q s
    else s

/-- The status write is acknowledged: the MSI of an irq descriptor is sent. -/
def statusAck (d : Nat) (s : State) : State :=
  if (dmaOf s d).msiDue ∧ dmaWaits s d = false then
    modDma d (fun r => { r with msiDue := false,
                                msis := r.msis ++ [(rd s (dmaMsiAddrAddr d) / 8 * 8, rd s (dmaMsiDataData d))] }) s
  else s

/-! ## Control (R304 to R307) -/

def dmaEnable (d : Nat) (s : State) : State :=
  if dmaState s d = 1 ∧ ¬ rdB s (pwrDomainFenced (180 + dmaTile d)) then dmaSettle d (wr (dmaCtrlEnable d) 1 (modDma d (fun r => { msis := r.msis, bytes := r.bytes }) s))
  else s

def dmaAbort (d : Nat) (s : State) : State :=
  if dmaState s d ≠ 1 ∧ dmaState s d ≠ 0 then
    wr (dmaCtrlEnable d) 0 (modDma d (fun r => { r with aborting := true, msiDue := false }) s)
  else wr (dmaCtrlEnable d) 0 s

def dmaAbortDone (d : Nat) (s : State) : State :=
  if (dmaOf s d).aborting then
    setDmaState d 1 (wr (dmaCtrlPause d) 0 (wr (dmaCtrlStop d) 0
      (modDma d (fun r => { msis := r.msis, bytes := r.bytes, total := r.total }) (dmaEndReads d s))))
  else s

def dmaPause (d : Nat) (s : State) : State :=
  if dmaPriv d then s
  else
    let s1 := wr (dmaCtrlPause d) 1 s
    if dmaState s d = 3 then setDmaState d 4 s1 else if dmaState s d = 2 then setDmaState d 5 s1 else s1

/-- The drain ends: a descriptor with every byte written or BAD completes first. -/
def dmaPauseDone (d : Nat) (s : State) : State :=
  if dmaState s d = 4 then setDmaState d 5 (descComplete d s) else s

def dmaPauseClear (d : Nat) (s : State) : State :=
  if dmaPriv d then s
  else
    let s1 := wr (dmaCtrlPause d) 0 s
    if dmaState s d = 4 ∨ dmaState s d = 5 then (if (dmaOf s d).desc.isSome then setDmaState d 3 s1 else dmaSettle d s1) else s1

def dmaStop (d : Nat) (s : State) : State :=
  if dmaPriv d then
    let s1 := wr (dmaCtrlStop d) 1 s
    if dmaState s d = 3 then setDmaState d (if (dmaOf s d).desc.isSome then 8 else 9) s1
    else if dmaState s d = 2 then setDmaState d 9 s1 else s1
  else s

/-- resume = 1: retry from the CUR_ registers; a stop set before takes effect now (R305). -/
def resumeRetry (d : Nat) (s : State) : State :=
  if dmaPriv d ∧ dmaState s d = 6 then
    setDmaState d (if rdB s (dmaCtrlStop d) then 8 else 3) (modDma d (fun r => { r with bad := none }) s)
  else s

/-- resume = 2: the status BAD is written and the next descriptor follows. -/
def resumeMarkBad (d : Nat) (s : State) : State :=
  if dmaPriv d ∧ dmaState s d = 6 then
    let s1 := setDmaState d (if rdB s (dmaCtrlStop d) then 8 else 3) s
    match (dmaOf s d).desc with
    | some q => finishDesc d q s1
    | none => modDma d (fun r => { r with bad := none }) s1
  else s

/-- resume = 3: disabled, DMA_HEAD at the failed descriptor. -/
def resumeDisable (d : Nat) (s : State) : State :=
  if dmaPriv d ∧ dmaState s d = 6 then
    setDmaState d 1 (wr (dmaCtrlEnable d) 0 (wr (dmaCtrlStop d) 0
      (modDma d (fun r => { msis := r.msis, bytes := r.bytes, total := r.total }) (dmaEndReads d s))))
  else s

/-- Advancing DMA_TAIL hands descriptors over. -/
def tailWrite (d v : Nat) (s : State) : State :=
  let s1 := wr (dmaTailTail d) v s
  if dmaState s d = 2 then dmaSettle d s1 else s1

/-- A write to DMA_CTRL as a whole (R309). -/
def ctrlWrite (d v : Nat) (s : State) : State :=
  let s0 := wr (dmaCtrlRingLog2 d) (clampR 4 16 (v / 256 % 32)) (wrB (dmaCtrlIrqEn d) (inMask v 3) s)
  let s1 := if inMask v 0 then dmaEnable d s0 else dmaAbort d s0
  let s2 := if inMask v 1 then (if rdB s1 (dmaCtrlPause d) then s1 else dmaPause d s1)
    else if rdB s1 (dmaCtrlPause d) then dmaPauseClear d s1 else s1
  let s3 := if inMask v 2 then dmaStop d s2 else s2
  match v / 16 % 4 with
  | 1 => resumeRetry d s3
  | 2 => resumeMarkBad d s3
  | 3 => resumeDisable d s3
  | _ => s3

/-- A store to a channel's page: register by offset. -/
def dmaStore (d off v : Nat) (s : State) : State :=
  if off = 0 then ctrlWrite d v s
  else if off = 0x10 then wr (dmaRingBaseBase d) (v / 4096) s
  else if off = 0x18 then (if dmaState s d = 1 then wr (dmaHeadHead d) v s else s)
  else if off = 0x20 then tailWrite d v s
  else if off = 0x28 then wr (dmaMsiAddrAddr d) v s
  else if off = 0x30 then wr (dmaMsiDataData d) v s
  else s

/-- The channels' registers after a reset (R294, R309). -/
def dmaReset (s : State) : State :=
  (List.range 64).foldl (fun a d => wrB (dmaStatusPrivileged d) (dmaPriv d) a) s

/-- A channel changes owner: its registers return to their reset values (R295). -/
def dmaGive (d ten : Nat) (s : State) : State :=
  if dmaState s d = 1 then
    wr (dmaStatusOwner d) ten (setDma d {} { s with regs := s.regs.filter fun e =>
      !(decide (dmaBase d * 64 ≤ e.1) && decide (e.1 < (dmaBase d + 0x1000) * 64)) })
  else s

/-- Channels of a tenancy. -/
def dmaOwned (s : State) (t : Nat) : List Nat := (List.range 64).filter fun d => !dmaPriv d && rd s (dmaStatusOwner d) == t

/-- Step 7: the snapshot of a channel (R308). -/
def dmaSnapshot (b : Nat) (s : State) (d : Nat) : State :=
  let r := dmaOf s d
  wr (dmaSnapBeatBeat d) b (wr (dmaSnapStateState d) (dmaState s d) (wr (dmaSnapStateHead d) (rd s (dmaHeadHead d))
    (wr (dmaSnapBytesBytes d) r.bytes (wr (dmaSnapTotalTotal d) r.total (setDma d { r with bytes := 0 } s)))))

/-- A channel is active, pausing, halted or in ring fault (Table 15.13). -/
def dmaBusy (s : State) (d : Nat) : Bool :=
  let v := dmaState s d
  v == 3 || v == 4 || v == 6 || v == 7 || v == 8

/-! ## dma.* (R310) -/

def dmaAssign (i : Nat) (c : Bytes) (s : State) : State :=
  let e := min 1 (arg c 0 1)
  let k := min 27 (arg c 1 1)
  let t := if 1 ≤ i ∧ i ≤ 256 then 0 else min 256 (arg c 2 2)
  let d := e * 32 + k
  let own := rd s (dmaStatusOwner d)
  let cl := chg (arg c 0 1) e + chg (arg c 1 1) k + chg (arg c 2 2) t
  let res := fun o b => mkBytes [(0, 1, e), (1, 1, k), (2, 2, t), (4, 1, o), (8, 8, b)]
  let fin := fun o => stageDone i cl (res o 0) s
  if 1 ≤ i ∧ i ≤ 256 ∧ own ≠ i then fin 4
  else if dmaState s d ≠ 1 then fin 1
  else if t ≠ 0 ∧ ((tenantOf s t).st = .free ∨ (tenantOf s t).st = .closing) then fin 2
  else if isSealed s own ∧ own ≠ t ∧ i ≠ own then fin 3
  else addStep i (beat s + 1) (.stage i cl (res 0 (beat s + 1))) (addStep i (beat s + 1) (.dmaOwner d t) s)

def dmaStatusCmd (i : Nat) (c : Bytes) (s : State) : State :=
  let e := min 1 (arg c 0 1)
  let k := min 31 (arg c 1 1)
  let d := e * 32 + k
  let cl := chg (arg c 0 1) e + chg (arg c 1 1) k
  if 1 ≤ i ∧ i ≤ 256 ∧ (dmaPriv d ∨ rd s (dmaStatusOwner d) ≠ i) then
    stageDone i cl (mkBytes [(0, 1, e), (1, 1, k), (2, 1, 0xFF)]) s
  else
    stageDone i cl (mkBytes [(0, 1, e), (1, 1, k), (2, 1, rd s (dmaSnapStateState d)), (4, 2, rd s (dmaStatusOwner d)),
      (6, 2, rd s (dmaSnapStateHead d)), (8, 4, rd s (dmaStatusBadCount d)), (0x10, 8, rd s (dmaSnapTotalTotal d)),
      (0x18, 8, rd s (dmaSnapBeatBeat d))]) s

/-! ## Meanings -/

/-- DMA_ENABLE (R297). -/
def execDmaEnable (tag d : Nat) (s : State) : Host.Outcome State Fault Refusal := .next (dmaBy tag d 0 (dmaEnable d) s)
/-- DMA_ABORT (R306). -/
def execDmaAbort (tag d : Nat) (s : State) : Host.Outcome State Fault Refusal := .next (dmaBy tag d 0 (dmaAbort d) s)
/-- DMA_ABORT_DONE (R306). -/
def execDmaAbortDone (d : Nat) (s : State) : Host.Outcome State Fault Refusal := .next (dmaAbortDone d s)
/-- DMA_PAUSE_SET (R304). -/
def execDmaPauseSet (tag d : Nat) (s : State) : Host.Outcome State Fault Refusal := .next (dmaBy tag d 0 (dmaPause d) s)
/-- DMA_PAUSE_DONE (R304). -/
def execDmaPauseDone (d : Nat) (s : State) : Host.Outcome State Fault Refusal := .next (dmaPauseDone d s)
/-- DMA_PAUSE_CLEAR (R304). -/
def execDmaPauseClear (tag d : Nat) (s : State) : Host.Outcome State Fault Refusal :=
  .next (dmaBy tag d 0 (dmaPauseClear d) s)
/-- DMA_STOP (R305). -/
def execDmaStop (tag d : Nat) (s : State) : Host.Outcome State Fault Refusal := .next (dmaBy tag d 0 (dmaStop d) s)
/-- DMA_RESUME_RETRY (R302). -/
def execDmaResumeRetry (tag d : Nat) (s : State) : Host.Outcome State Fault Refusal :=
  .next (dmaBy tag d 0 (resumeRetry d) s)
/-- DMA_RESUME_MARK_BAD (R302). -/
def execDmaResumeMarkBad (tag d : Nat) (s : State) : Host.Outcome State Fault Refusal :=
  .next (dmaBy tag d 0 (resumeMarkBad d) s)
/-- DMA_RESUME_DISABLE (R302). -/
def execDmaResumeDisable (tag d : Nat) (s : State) : Host.Outcome State Fault Refusal :=
  .next (dmaBy tag d 0 (resumeDisable d) s)
/-- DMA_TAIL_WRITE (R297). -/
def execDmaTailWrite (tag d v : Nat) (s : State) : Host.Outcome State Fault Refusal :=
  .next (dmaBy tag d 0x20 (tailWrite d v) s)
/-- DESCRIPTOR_FETCHED (R297, R299). -/
def execDescriptorFetched (d : Nat) (open' : FarRead) (s : State) : Host.Outcome State Fault Refusal := .next (descFetched d open' s)
/-- DMA_READ_RETURN (R298). -/
def execDmaReadReturn (d n : Nat) (open' : FarRead) (s : State) : Host.Outcome State Fault Refusal := .next (readReturn d n open' s)
/-- DESCRIPTOR_COMPLETE (R300). -/
def execDescriptorComplete (d : Nat) (s : State) : Host.Outcome State Fault Refusal := .next (descComplete d s)
/-- STATUS_WRITE_ACK (R300). -/
def execStatusWriteAck (d : Nat) (s : State) : Host.Outcome State Fault Refusal := .next (statusAck d s)
/-- DMA_BUS_ERROR (R301, R302). -/
def execDmaBusError (d kind dir off : Nat) (s : State) : Host.Outcome State Fault Refusal :=
  .next (match (dmaOf s d).desc with
    | some q =>
      if (dmaOf s d).bad.isNone ∧ (dmaOf s d).aborting = false ∧ off < q.len then
        dmaError d kind dir off (if dir = 0 then dmaAddr q.src q.srcLog off else dmaAddr q.dst q.dstLog off) false s
      else s
    | none => s)
/-- DMA_RING_FAULT (R303): the fetch or status write that failed is one whose answer comes from elsewhere. -/
def execDmaRingFault (d : Nat) (s : State) : Host.Outcome State Fault Refusal :=
  .next (if dmaState s d = 3 ∨ dmaState s d = 4 ∨ dmaState s d = 8 then
    dmaRingFault d 5 (if (dmaOf s d).desc.isSome then 1 else 0) s else s)
/-- DMA_ASSIGN (R295, R296, R310). -/
def execDmaAssign (mbx : Nat) (s : State) : Host.Outcome State Fault Refusal := .next (onCmd mbx 0x0901 (dmaAssign mbx) s)
/-- DMA_STATUS (R310). -/
def execDmaStatus (mbx : Nat) (s : State) : Host.Outcome State Fault Refusal :=
  .next (onCmd mbx 0x0902 (dmaStatusCmd mbx) s)

end Sys2Proof.Machine
end

