-- ==== Sys2Proof/Machine/Tenancy.lean ====
section
/-! DEFINITION. Machine/Tenancy.lean: tenancies, their harts, granules, keys and measurement, sealing, unsealing,
rekeying and closing, and the tenant.* commands (R202 to R227). -/
namespace Sys2Proof.Machine

def modTenant (t : Nat) (f : Tenant → Tenant) (s : State) : State := setTenant t (f (tenantOf s t)) s

/-- Harts that tenancy t owns. -/
def hartsOf (s : State) (t : Nat) : List Nat :=
  (List.range (hartCount s)).filter fun h => ownerOf s h == t && !merged s h

/-- Granules that tenancy t owns. -/
def granulesOf (s : State) (t : Nat) : List Nat := (s.mem.granules.filter fun e => e.2 == t).map (·.1)

/-- A lending tenancy (R283, R286). -/
def isLending (s : State) (t : Nat) : Bool := t != 0 && s.mem.lent.any fun e => e.2.2.2 == t

/-! ## Harts change owner (R208) -/

/-- A hart passes to tenancy t while it is offline: structures cleared, interrupt files cleared, new seed, dztenant. A
sealed owner's hart takes a slot class on its tile where the owner holds none (R219). -/
def giveHart (h t : Nat) (s : State) : State :=
  let s1 := setOwner h t s
  let s2 := (coresOfHart s1 h).foldl (fun a c => let b := (drainCore c a).1; setCore c {} b) s1
  let r := hartOf s2 h
  let s3 := setHart h { blankHart r with st := r.st, owner := r.owner } s2
  let s4 := showHart h (newSeed h s3)
  match pairOfHart s4 h with
  | some p => needClass (pairTile p) t s4
  | none => s4

/-- tenant.assign takes effect at step 5: the hart passes to t where it still stands offline (R40, R102, R208). -/
def assignHart (i h t : Nat) (s : State) : State :=
  let c := (mbxOf s i).copy
  let fin := fun o b => stageDone i (chg (arg c 0 2) h + chg (arg c 2 2) t) (mkBytes [(0, 2, h), (2, 2, t), (4, 1, o), (8, 8, b)])
  if (hartOf s h).st = .offline ∧ (hartOf s h).fencedAt ≠ some (beat s) then fin 0 (beat s) (giveHart h t s) else fin 1 0 s

/-- DESIGN CHOICE (log entry 40): where several outcomes of Table 8.12 apply, the first of 2, 1, 3, 4, 5 is reported. -/
def tenantAssign (i : Nat) (c : Bytes) (s : State) : State :=
  let h := clampHart s (arg c 0 2)
  let t := min 256 (arg c 2 2)
  let cl := chg (arg c 0 2) h + chg (arg c 2 2) t
  let res := fun o b => mkBytes [(0, 2, h), (2, 2, t), (4, 1, o), (8, 8, b)]
  let fin := fun o => stageDone i cl (res o 0) s
  let r209 := slotSplit s (h / 2) && (let o := ownerOf s (h / 2 * 2 + (1 - h % 2)); o != t && (isSealed s o || isSealed s t))
  let noClass := isSealed s t && (pairOfHart s h).any fun p =>
    (classesAt s (pairTile p)).all (fun x => x / 64 != t) && (freeClasses s (pairTile p)).isEmpty
  if merged s h then fin 2
  else if (hartOf s h).st ≠ .offline then fin 1
  else if t ≠ 0 ∧ ((tenantOf s t).st = .free ∨ (tenantOf s t).st = .closing) then fin 3
  else if r209 then fin 4
  else if noClass then fin 5
  else
    let old := ownerOf s h
    let s1 := addStep i (beat s + 1) (.assignHart i h t) s
    if isSealed s old ∧ old ≠ t then sealNotice old 0x0002 [(0x18, 2, h), (0x1A, 1, 2), (0x20, 8, beat s + 1)] s1 else s1

/-- DESIGN CHOICE (log entry 40): where several outcomes apply, the first of 2, 3, 1 is reported; a hart whose slot is unbound, for which
Table 8.22 names no outcome, is reported as 1, and so is one whose pair requalifies (log entry 35). -/
def tenantStart (i : Nat) (c : Bytes) (s : State) : State :=
  let h := clampHart s (arg c 0 2)
  let cl := chg (arg c 0 2) h
  let fin := fun o => stageDone i cl (mkBytes [(0, 2, h), (2, 1, o)]) s
  if merged s h then fin 2
  else if ownerOf s h ≠ i then fin 3
  else if (hartOf s h).st ≠ .offline ∨ (pairOfHart s h).isNone then fin 1
  else addStep i (beat s + 1) (.cmdStart i h (arg c 8 8) (arg c 0x10 8) (some i)) s

/-! ## Creation, keys (R211) -/

/-- Draw keys for a generation of tenancy t. -/
def drawKey (t gen : Nat) (s : State) : State :=
  let e := keyEnt s t
  let k := s.mem.nextKey
  setMem { s.mem with nextKey := k + 1,
                      keys := tset {} s.mem.keys t (if gen = 0 then { e with gen0 := some k } else { e with gen1 := some k }) } s

/-- Erase both generations of tenancy t (R212, R363). -/
def eraseKeys (t : Nat) (s : State) : State := setMem { s.mem with keys := tset {} s.mem.keys t {} } s

/-- A created tenancy is open, its generation 0 current and its measurement zero. -/
def openTenant (t : Nat) (s : State) : State :=
  setTenant t { st := .opened } (setMem { s.mem with keys := tset {} s.mem.keys t { keyEnt s t with cur := some 0 } } s)

/-- The tenancy a command acts on: the caller's own from mailboxes 1 to 256, else the field (R227). -/
def tenField (i v : Nat) : Nat := if 1 ≤ i ∧ i ≤ 256 then i else clampR 1 256 v

def tenantCreate (i : Nat) (c : Bytes) (s : State) : State :=
  let t := tenField i (arg c 0 2)
  let cl := chg (arg c 0 2) t
  if (tenantOf s t).st ≠ .free then stageDone i cl (mkBytes [(0, 2, t), (2, 1, 1)]) s
  else addStep i (beat s + 1) (.stage i cl (mkBytes [(0, 2, t), (8, 8, beat s + 1)]))
    (addStep i (beat s + 1) (.openTenant t) (drawKey t 0 s))

/-! ## Granules (R204, R219, R286) -/

/-- Granules pass to an owner: cleared under a tenant's keys, or their cached lines dropped (Table 8.9). -/
def grantApply (base count t : Nat) (s : State) : State :=
  let ids := (List.range count).map fun k => base / 2 ^ 21 + k
  let s1 := setMem { s.mem with granules := ids.foldl (fun g k => tset 0 g k t) s.mem.granules } s
  if t = 0 then
    let lo := rd s fabIdDeviceId * 2 ^ 40 + base / 64
    discardLines (fun l => lo ≤ l && l < lo + count * 32768) s1
  else clearRange t (paOf s base) (count * 2 ^ 21) s1

/-- Outcome of tenant.grant's checks (Table 8.10). DESIGN CHOICE (log entry 40): where several apply, the first of 3, 2, 1 is
reported; lent granules count as owned by no open tenant before that (R286). -/
def grantOutcome (s : State) (base size t : Nat) : Nat :=
  let gs := (List.range (size / 2 ^ 21)).map fun k => base + k * 2 ^ 21
  let owners := (gs.map (granuleOwner s)).eraseDups
  let mapped := gs.all fun g => (coord s g).isSome
  if owners.any (isLending s) then 1
  else if owners.any (isSealed s) then 3
  else if t ≠ 0 ∧ (tenantOf s t).st ≠ .opened then 2
  else if t ≠ 0 then (if mapped && owners.all (· == 0) then 0 else 1)
  else if mapped && decide (owners.length = 1) && owners.all (fun o => (tenantOf s o).st == .opened && !isLending s o) then 0
  else 1

def tenantGrant (i : Nat) (c : Bytes) (s : State) : State :=
  let base := roundDown (2 ^ 21) (clampPa s (roundDown (2 ^ 21) (arg c 0 8)))
  let size := clampR (2 ^ 21) (2 ^ 40) (roundUp (2 ^ 21) (arg c 8 8))
  let t := min 256 (arg c 0x10 2)
  let cl := chg (arg c 0 8) (paOf s base) + chg (arg c 8 8) size + chg (arg c 0x10 2) t
  let o := grantOutcome s base size t
  let k := size / 2 ^ 21
  let res := fun o n b => mkBytes [(0, 8, paOf s base), (8, 8, size), (0x10, 2, t), (0x12, 1, o), (0x14, 4, n), (0x18, 8, b)]
  let held := if t = 0 then [] else rangeHeld s 0 (paOf s base) size true
  if o ≠ 0 then stageDone i cl (res o 0 0) s
  else if held ≠ [] then addDue (beat s + 1) 9 (.tryAgain i) (held.foldl (fun a l => ncOpen (.mailbox i) 0 l true a) s)
  else addStep i (beat s + 1) (.stage i cl (res 0 k (beat s + 1))) (addStep i (beat s + 1) (.grant base k t) (dropReads (.mailbox i) s))

/-! ## Loading and the measurement (R211) -/

/-- m := sha384(m || bytes). -/
def extendMeas (m : Nat) (l : List Nat) : Nat := Config.sha384 (bytesOf 48 m ++ l)

/-- A range of this device's DRAM whose granules all belong to t. -/
def rangeOwned (s : State) (t pa size : Nat) : Bool :=
  decide (homeOf pa = rd s fabIdDeviceId) && (List.range (size / 4096)).all fun k =>
    granuleOwner s (offOf pa + k * 4096) == t && (coord s (offOf pa + k * 4096)).isSome

/-- One line of the image, as it was read under tag 0: written under the tenancy's keys; its 64 bytes. A source line that reads as
poison writes nothing, and what the image's bytes are there is open. -/
def loadLine (i t dst : Nat) (v : Seen) (a : State × List Nat) : State × List Nat :=
  match v with
  | .data d false => (writeAtHome (.mailbox i) (lineOf dst) t d a.1, a.2 ++ bytesOf 64 d)
  | _ => (freeNext a.1, a.2 ++ bytesOf 64 (freeVal (2 ^ 512) a.1))

/-- Lines of a copy that something holds up: the source is read, the destination written (R92, R125, R249). -/
def loadHeld (s : State) (t src dst size : Nat) : List (Nat × Nat × Bool) :=
  ((rangeHeld s 0 src size false).map fun l => (0, l, false)) ++ (rangeHeld s t dst size true).map fun l => (t, l, true)

def tenantLoad (i : Nat) (c : Bytes) (s : State) : State :=
  let src := roundDown 4096 (arg c 0 8)
  let dst := roundDown 4096 (arg c 8 8)
  let size := clampR 4096 (2 ^ 30) (roundUp 4096 (arg c 0x10 8))
  let t := clampR 1 256 (arg c 0x18 2)
  let cl := chg (arg c 0 8) src + chg (arg c 8 8) dst + chg (arg c 0x10 8) size + chg (arg c 0x18 2) t
  let res := fun o b => mkBytes [(0, 8, src), (8, 8, dst), (0x10, 8, size), (0x18, 2, t), (0x1A, 1, o), (0x20, 8, b)]
  if (tenantOf s t).st ≠ .opened then stageDone i cl (res 1 0) s
  else if rangeOwned s 0 src size = false ∨ rangeOwned s t dst size = false then stageDone i cl (res 2 0) s
  else if loadHeld s t src dst size ≠ [] then
    addDue (beat s + 1) 9 (.tryAgain i) ((loadHeld s t src dst size).foldl (fun a e => ncOpen (.mailbox i) e.1 e.2.1 e.2.2 a) s)
  else
    let (s0, ready) := askLines (.mailbox i) 0 (rangeLines src size) s
    if ready = false then addDue (beat s + 1) 9 (.tryAgain i) s0
    else
    let seen := (rangeLines src size).map fun l => (currentLine (.mailbox i) l 0 s0).2
    let (s1, img) := seen.zipIdx.foldl (fun a (v, k) => loadLine i t (dst + k * 64) v a) (dropReads (.mailbox i) s0, [])
    let m := extendMeas (tenantOf s t).meas (bytesOf 48 (Config.sha384 img) ++ bytesOf 8 dst ++ bytesOf 8 size ++ bytesOf 4 (arg c 0x1C 4))
    addStep i (beat s + 1) (.stage i cl (res 0 (beat s + 1))) (addStep i (beat s + 1) (.measure t m) s1)

/-! ## Sealing (R215 to R218) -/

/-- The partition R215 chooses: slices in order, the lowest free ways of each. -/
def pickSlices (s : State) (t k w : Nat) : Option (List (Nat × Nat)) :=
  let fit := ((sliceOrder s t).filter fun n => decide (w ≤ (sealableWays s n).length)).take k
  if fit.length = k then some (fit.map fun n => (n, maskOf ((sealableWays s n).take w))) else none

/-- Channels that hold a granule of tenancy t, mirror partners included. -/
def chansOf (s : State) (t : Nat) : List Nat :=
  let gs := granulesOf s t
  let ms := s.mem.map.flatMap fun q =>
    if gs.any fun g => g * 2 ^ 21 < q.base + q.size && q.base < (g + 1) * 2 ^ 21 then q.members else []
  (List.range 16).filter fun c => ms.any fun m => (copies s m).contains c

/-- Entries of a subchannel's grid without an owner or a reservation, ascending position. -/
def freeBlocks (s : State) (c sub : Nat) : List Nat :=
  ((List.range 32).map (sub * 32 + ·)).filter fun n =>
    rdB s (mcSealBlockValid c n) && rd s (mcSealBlockOwner c n) == 0 && tget 0 (chanOf s c).newOwner n / 8 == 0 &&
      s.tenants.all fun e => e.2.plan.blocks.all fun b => b.1 != c * 64 + n

/-- R216: take blocks role by role. -/
def takeBlocks (s : State) (c ranks : Nat) : Nat → Nat → List Nat → List Nat
  | 0, _, _ => []
  | k + 1, role, fr =>
    match (fr.find? fun n => rd s (mcSealBlockRole c n) == role).or fr.head? with
    | some n => n :: takeBlocks s c ranks k ((role + 1) % ranks) (fr.erase n)
    | none => []

/-- Blocks of a quota on one subchannel with their slot_en, or none when too few are free. -/
def placeBlocks (s : State) (c sub n : Nat) : Option (List (Nat × Nat)) :=
  let ranks := ranksOf s c
  let want := max ((n + 2) / 3) (min n ranks)
  let pick := takeBlocks s c ranks want 0 (freeBlocks s c sub)
  if pick.length = want then
    some (pick.zipIdx.map fun (b, i) => (c * 64 + b, 2 ^ (n / want + (if i < n % want then 1 else 0)) - 1))
  else none

def placeQuota (s : State) (t q : Nat) : Option (List (Nat × Nat)) :=
  (chansOf s t).foldl (fun o c => match o, placeBlocks s c 0 (q / 2), placeBlocks s c 1 (q / 2) with
    | some l, some a, some b => some (l ++ a ++ b)
    | _, _, _ => none) (some [])

/-- The home table of a partition (R117): entries in proportion to the ways, largest remainders rounded up. -/
def homeCounts (parts : List (Nat × Nat)) : List (Nat × Nat) :=
  let tot := (parts.map fun e => (waysOf e.2).length).sum
  let base := parts.map fun e => (e.1, 64 * (waysOf e.2).length / max 1 tot, 64 * (waysOf e.2).length % max 1 tot)
  let left := 64 - (base.map fun (e : Nat × Nat × Nat) => e.2.1).sum
  let order := base.mergeSort fun (a b : Nat × Nat × Nat) => decide (b.2.2 < a.2.2) || (a.2.2 == b.2.2 && decide (a.1 ≤ b.1))
  let up := (order.take left).map fun (e : Nat × Nat × Nat) => e.1
  base.map fun (e : Nat × Nat × Nat) => (e.1, e.2.1 + (if up.contains e.1 then 1 else 0))

def homeRounds : Nat → List (Nat × Nat) → List Nat
  | 0, _ => []
  | k + 1, l => (l.filter fun e => 0 < e.2).map (·.1) ++ homeRounds k (l.map fun e => (e.1, e.2 - 1))

def homeTable (parts : List (Nat × Nat)) : List Nat :=
  (homeRounds 64 (homeCounts (parts.mergeSort fun a b => decide (a.1 ≤ b.1)))).take 64

/-- A split slot with two owners of which t is one (R209). -/
def sharesPair (s : State) (t : Nat) : Bool :=
  (List.range (slotCount s)).any fun n =>
    slotSplit s n && ownerOf s (2 * n) != ownerOf s (2 * n + 1) && (ownerOf s (2 * n) == t || ownerOf s (2 * n + 1) == t)

/-- The entry address does not lie in the tenancy's granules. DESIGN CHOICE (log entry 40): a tenancy with no granule here may enter at
an address of another device or of a window, whose owner this device does not hold (R217). -/
def entryBad (s : State) (t entry : Nat) : Bool :=
  !ctxOwned s t (entry / 2 * 2) &&
    (granulesOf s t != [] || (homeOf entry == rd s fabIdDeviceId && regionOf (offOf entry) == .dram))

/-- The checks and reservations at boundary b. DESIGN CHOICE (log entry 40): where several checks fail, the first is reported in the
order state, sweep, entry, R209, outbound region, blocks, ways, classes. -/
def sealPlan (s : State) (t q k w r entry : Nat) : Nat ⊕ SealPlan :=
  if (tenantOf s t).st ≠ .opened then .inl 1
  else if (tenantOf s t).sweep.isSome then .inl 5
  else if entryBad s t entry then .inl 6
  else if sharesPair s t then .inl 7
  else if ownsOutbound s t then .inl 8
  else match placeQuota s t q with
    | none => .inl 2
    | some bl =>
      match pickSlices s t k w with
      | none => .inl 3
      | some sl =>
        let tl := (tilesOf s t ++ sl.map fun (e : Nat × Nat) => e.1 / 16).eraseDups
        if tl.any fun x => (freeClasses s x).length < r then .inl 4
        else .inr { slices := sl, home := homeTable sl, blocks := bl, classes := tl.flatMap fun x => ((freeClasses s x).take r).map fun j => x * 64 + j }

/-- Greatest legal quota: 6 blocks' worth of the smallest grid in service; which channel's grid bounds it where they differ, the spec does
not say (DESIGN CHOICE, log entry 40). -/
def maxQuota (s : State) : Nat :=
  let l := ((presentChans s).filter fun c => rd s (mcStatusState c) == 3).map fun c => rd s (mcSlotGridBlocks c)
  max 2 (6 * (l.foldl min (l.headD 0)))

def tenantSeal (i : Nat) (c : Bytes) (s : State) : State :=
  let t := tenField i (arg c 0 2)
  let q := clampR 2 (maxQuota s) (arg c 2 1 + arg c 2 1 % 2)
  let k := clampR 1 16 (arg c 3 1)
  let w := clampR 1 22 (arg c 4 1)
  let r := clampR 1 4 (arg c 5 1)
  let entry := arg c 8 8 / 2 * 2
  let cl := chg (arg c 0 2) t + chg (arg c 2 1) q + chg (arg c 3 1) k + chg (arg c 4 1) w + chg (arg c 5 1) r
  match sealPlan s t q k w r entry with
  | .inl o => stageDone i cl (mkBytes [(0, 2, t), (2, 1, q), (3, 1, k), (4, 1, w), (5, 1, r), (6, 1, o), (8, 8, entry)]) s
  | .inr p =>
    let s1 := p.classes.foldl (fun a x => holdClasses (x / 64) t [x % 64] a) s
    let f := fun (x : Tenant) => { x with plan := p, quota := q, nSlices := k, ways := w, classes := r, entry := entry, mbx := i }
    addStep i (beat s + 1) (.sealStart t i) (modTenant t f s1)

/-- A hart stops at an instruction boundary and keeps its state; a gated pair is restored, and its harts then stand stopped. -/
def holdHarts (t : Nat) (s : State) : State :=
  (hartsOf s t).foldl (fun a h =>
    match (hartOf a h).st, pairOfHart a h with
    | .running, _ => setHart h { hartOf a h with st := .stopped } a
    | .gated, some p => if (pairOf a p).restoreAt.isSome then a
        else addDue (beat s + 4) 5 (.ungate p) (addDue (beat s + 1) 4 (.switch p true)
          (setPair p { pairOf a p with restoreAt := some (beat s + 4) } a))
    | _, _ => a) s

/-- A hart of the tenancy is in a sparing sequence, which the tenancy's own waits for (R102). -/
def sparingIn (s : State) (t : Nat) : Bool := (hartsOf s t).any fun h => (pairOfHart s h).any (inSparing s)

/-- Every hart of the tenancy has stopped or is offline: none runs, is in a sparing sequence or is being restored. -/
def allHeld (s : State) (t : Nat) : Bool :=
  !sparingIn s t && (hartsOf s t).all fun h => (hartOf s h).st != .gated && (hartOf s h).st != .running

/-- A result that waits to be written for mailbox i is void. -/
def dropStage (i : Nat) (s : State) : State :=
  { s with due := s.due.filter fun d => match d.act with
      | .stage j _ _ => j != i
      | _ => true }

/-- A tenant.seal that a tenant.close has overtaken: its reservations are released, and it reports outcome 1, not open (Table 8.1).
DESIGN CHOICE (log entry 40): the spec names no outcome for it. A result of it that waits to be written is void. -/
def sealAbandoned (t i : Nat) (s0 : State) : State :=
  let s := dropStage i s0
  let c := (mbxOf s i).copy
  let r := tenantOf s t
  let cl := chg (arg c 0 2) t + chg (arg c 2 1) r.quota + chg (arg c 3 1) r.nSlices + chg (arg c 4 1) r.ways + chg (arg c 5 1) r.classes
  stageDone i cl (mkBytes [(0, 2, t), (2, 1, r.quota), (3, 1, r.nSlices), (4, 1, r.ways), (5, 1, r.classes), (6, 1, 1), (8, 8, r.entry)])
    (modTenant t (fun x => { x with plan := {} }) (dropClasses t s))

/-- b + 1 of Table 8.4. -/
def sealStart (t i : Nat) (s : State) : State :=
  if (tenantOf s t).st ≠ .opened then sealAbandoned t i s
  else if sparingIn s t then addDue (beat s + 1) 5 (.sealStart t i) s
  else holdHarts t (modTenant t (fun x => { x with st := .sealing, mbx := i }) s)

/-- A line of the tenancy leaves a slice, after its check (R127): written back where it is dirty. -/
def flushHeld (t n line : Nat) (s : State) : State :=
  match (arrOf s n line).or (vicOf s n line) with
  | some l => dropArr n line (if l.dirty then writeHome t line l.data l.poison s else s)
  | none => s

/-- The harts' caches drain, and every slice writes back and invalidates the tenancy's lines. -/
def drainTenant (t : Nat) (s : State) : State :=
  let s1 := (hartsOf s t).foldl (fun a h => (coresOfHart a h).foldl (fun b c => (drainCore c b).1) a) s
  (presentSlices s1).foldl (fun a n =>
    let r := sliceOf a n
    let mine := ((r.lines ++ r.victims).filter fun e => e.2.tag == t).map (·.1)
    mine.foldl (fun b l => flushHeld t n l (readHeld n l b)) a) s1

/-- The first core whose drain would present an inverted bit freezes its pair (R91, R109); the drain then waits for it (R102). -/
def drainsTrip (t : Nat) (s : State) : State :=
  (hartsOf s t).foldl (fun a h => (coresOfHart a h).foldl (fun b c => drainTrips c b) a) s

/-- What the slices hold of the tenancy's lines in flight, and which devices have copies of them, goes to the lines' new home slices when
its home table changes (R218, R220, R222, R249). -/
def rehomeFlight (t : Nat) (s : State) : State :=
  (presentSlices s).foldl (fun a n =>
    let r := sliceOf a n
    let b := setSlice n { r with fabDir := r.fabDir.filter fun e => e.2.tag != t } a
    forwardFlight n (· == t) ((r.fabDir.filter fun e => e.2.tag == t).foldl (fun c e => putFabDir (homeSlice c t e.1) e.1 e.2 c) b)) s

/-- Harts stopped by the sequence, other than those being parked, resume with a new seed; held MSIs become pending and
timer compares are judged. -/
def releaseHarts (t : Nat) (s : State) : State :=
  (hartsOf s t).foldl (fun a h =>
    let parked := (pairOfHart a h).any fun p => (pairOf a p).parks.any fun x => x.1 == h
    let b := showHart h (newSeed h a)
    if (hartOf b h).st = .stopped ∧ parked = false then wakeFiles h (setHart h { hartOf b h with st := .running } b) else b) s

/-- Step 5 of S. DESIGN CHOICE (log entry 40): the last field of R211's seal formula, harts, is the number of harts owned, in 2 bytes, and
the word seal its four letters. What has come into the shared pool since the drain leaves it; tables, partitions and seeds; the blocks
follow at step 6 (R157). -/
def sealApply (t : Nat) (s : State) : State :=
  let r := tenantOf s t
  if r.st = .sealing then
    let s1 := r.plan.slices.foldl (fun a e => applyPart e.1 t e.2 true a) (drainTenant t s)
    let s2 := rehomeFlight t { s1 with mesh := { s1.mesh with sealedHome := tset [] s1.mesh.sealedHome t r.plan.home } }
    let s3 := r.plan.blocks.foldl (fun a e => modChan (e.1 / 64) (fun x =>
      { x with newOwner := tset 0 x.newOwner (e.1 % 64) (t * 8 + e.2 + 1) }) a) s2
    let m := extendMeas r.meas ([0x73, 0x65, 0x61, 0x6C, r.quota, r.nSlices, r.ways, r.classes] ++ bytesOf 8 r.entry ++
      bytesOf 2 (hartsOf s t).length)
    releaseHarts t (judgeDegraded t
      (modTenant t (fun x => { x with st := .isSealed, plan := {}, meas := m, heldWays := r.nSlices * r.ways }) s3))
  else s

/-- The drains and the sweep of a seal end: S is the next boundary. -/
def sealDrainsDone (t : Nat) (s : State) : State :=
  let r := tenantOf s t
  if r.st = .sealing ∧ allHeld s t ∧ sparingIn (drainsTrip t s) t then drainsTrip t s
  else if r.st = .sealing ∧ allHeld s t then
    let i := r.mbx
    let c := (mbxOf s i).copy
    let cl := chg (arg c 0 2) t + chg (arg c 2 1) r.quota + chg (arg c 3 1) r.nSlices + chg (arg c 4 1) r.ways + chg (arg c 5 1) r.classes
    addDue (beat s + 1) 9 (.stage i cl (mkBytes [(0, 2, t), (2, 1, r.quota), (3, 1, r.nSlices), (4, 1, r.ways), (5, 1, r.classes),
        (7, 1, ((r.plan.blocks.map fun e => e.1 / 64).eraseDups).length), (8, 8, r.entry), (0x10, 8, beat s + 1)]))
      (addDue (beat s + 1) 5 (.sealApply t) (drainTenant t s))
  else if r.st = .sealing then holdHarts t s
  else s

/-! ## Unsealing (R220) -/

/-- Blocks that tenancy t owns on the device: channel * 64 + entry. -/
def blocksOf (s : State) (t : Nat) : List Nat :=
  (List.range 16).flatMap fun c => ((List.range 64).filter fun n => rd s (mcSealBlockOwner c n) == t).map (c * 64 + ·)

/-- The sealed resources return to the shared pool and the grid. -/
def releaseSealed (t : Nat) (s : State) : State :=
  let s0 := releaseShares t s
  let s1 := (presentSlices s0).foldl (fun a n => if rdB a (llcPartSealed n t) then applyPart n t 0 false a else a) s0
  let s2 := (blocksOf s1 t).foldl (fun a b => modChan (b / 64) (fun x => { x with newOwner := tset 0 x.newOwner (b % 64) 1 }) a) s1
  dropClasses t { s2 with mesh := { s2.mesh with sealedHome := tset [] s2.mesh.sealedHome t [] } }

def tenantUnseal (i : Nat) (c : Bytes) (s : State) : State :=
  let t := tenField i (arg c 0 2)
  let cl := chg (arg c 0 2) t
  if isSealed s t = false then stageDone i cl (mkBytes [(0, 2, t), (2, 1, 1)]) s
  else addStep i (beat s + 1) (.unsealStart t i) s

/-- A tenant.unseal that a tenant.close has overtaken reports outcome 1, not sealed (DESIGN CHOICE, log entry 40). -/
def unsealAbandoned (t i : Nat) (s : State) : State :=
  stageDone i (chg (arg (mbxOf s i).copy 0 2) t) (mkBytes [(0, 2, t), (2, 1, 1)])
    (modTenant t (fun x => { x with unsealing := false }) (dropStage i s))

def unsealStart (t i : Nat) (s : State) : State :=
  if isSealed s t = false then unsealAbandoned t i s
  else if sparingIn s t then addDue (beat s + 1) 5 (.unsealStart t i) s
  else holdHarts t (modTenant t (fun x => { x with unsealing := true, mbx := i }) s)

def unsealApply (t : Nat) (s : State) : State :=
  if isSealed s t then
    let s1 := (locksOf s t).foldl (fun a k => dropLock k a) (drainTenant t s)
    let s2 := rehomeFlight t (releaseSealed t s1)
    let clr := fun (x : Tenant) => { x with quota := 0, nSlices := 0, ways := 0, classes := 0, entry := 0, heldWays := 0 }
    releaseHarts t (modTenant t (fun x => { clr x with st := .opened, unsealing := false, degraded := false }) s2)
  else s

def unsealDrainDone (t : Nat) (s : State) : State :=
  if (tenantOf s t).unsealing ∧ (tenantOf s t).st = .isSealed ∧ allHeld s t ∧ sparingIn (drainsTrip t s) t then drainsTrip t s
  else if (tenantOf s t).unsealing ∧ (tenantOf s t).st = .isSealed ∧ allHeld s t then
    let i := (tenantOf s t).mbx
    addDue (beat s + 1) 9 (.stage i (chg (arg (mbxOf s i).copy 0 2) t) (mkBytes [(0, 2, t), (8, 8, beat s + 1)]))
      (addDue (beat s + 1) 5 (.unsealApply t) (drainTenant t s))
  else if (tenantOf s t).unsealing ∧ (tenantOf s t).st = .isSealed then holdHarts t s
  else s

/-! ## Rekeying (R213) -/

def tenantRekey (i : Nat) (c : Bytes) (s : State) : State :=
  let t := tenField i (arg c 0 2)
  let cl := chg (arg c 0 2) t
  let r := tenantOf s t
  let fin := fun o => stageDone i cl (mkBytes [(0, 2, t), (2, 1, o)]) s
  if r.st ≠ .opened ∧ r.st ≠ .isSealed then fin 2
  else if r.st = .isSealed ∧ i = 0 then fin 3
  else if r.sweep.isSome then fin 1
  else
    let g := 1 - (keyEnt s t).cur.getD 1
    addStep i (beat s + 1) (.stage i cl (mkBytes [(0, 2, t), (3, 1, g), (8, 8, beat s + 1)]))
      (addStep i (beat s + 1) (.rekeyCurrent t g) (drawKey t g s))

def rekeyCurrent (t g : Nat) (s : State) : State :=
  modTenant t (fun x => { x with sweep := some { old := 1 - g, gs := granulesOf s t }, rekeyLines := 0, rekeyFailed := 0 })
    (setMem { s.mem with keys := tset {} s.mem.keys t { keyEnt s t with cur := some g } } s)

/-- The old generation is erased and the notice placed. -/
def rekeyEnd (t : Nat) (s : State) : State :=
  match (tenantOf s t).sweep with
  | some w =>
    let e := keyEnt s t
    let s1 := setMem { s.mem with keys := tset {} s.mem.keys t (if w.old = 0 then { e with gen0 := none } else { e with gen1 := none }) } s
    let s2 := modTenant t (fun x => { x with sweep := none, rekeyLines := w.swept, rekeyFailed := w.failed }) s1
    let p := [(0x18, 1, 1 - w.old), (0x20, 8, w.swept), (0x28, 8, w.failed)]
    if isSealed s t then sealNotice t 0x0006 p s2 else notify t 0x0006 p s2
  | none => s

/-- The sweep has passed its last line. -/
def rekeySweepDone (t : Nat) (s : State) : State :=
  match (tenantOf s t).sweep with
  | some w => if (sweepLine s t w.next).isNone then addDue (beat s + 1) 5 (.rekeyEnd t) s else s
  | none => s

/-! ## Closing (R212) -/

/-- DESIGN CHOICE (log entry 40): a tenancy that is closing already, for which Table 8.24 names no outcome, is reported as 1. -/
def tenantClose (i : Nat) (c : Bytes) (s : State) : State :=
  let t := tenField i (arg c 0 2)
  let cl := chg (arg c 0 2) t
  let r := tenantOf s t
  if r.st = .free ∨ r.st = .closing then stageDone i cl (mkBytes [(0, 2, t), (2, 1, 1)]) s
  else
    let s1 := addStep i (beat s + 1) (.closeStart t i) s
    if r.st = .isSealed then sealNotice t 0x0007 [(0x18, 2, t)] s1 else notify t 0x0007 [(0x18, 2, t)] s1

/-- Lines under tag t leave every slice and L2 without write-back. -/
def dropTenantLines (t : Nat) (s : State) : State :=
  (presentSlices s).foldl (fun a n =>
    let r := sliceOf a n
    let ls := ((r.lines.filter fun e => e.2.tag == t).map (·.1) ++ (r.victims.filter fun e => e.2.tag == t).map (·.1) ++
      (r.dir.filter fun e => e.2.tag == t).map (·.1)).eraseDups
    ls.foldl (fun b l => discardLine n l b) a) s

/-- Harts of the tenancy that still run or stand stopped. -/
def liveHarts (s : State) (t : Nat) : List Nat :=
  (hartsOf s t).filter fun h => (hartOf s h).st != .offline && (hartOf s h).st != .fenced

/-- What was under way for the tenancy ends with its command (Table 8.1). -/
def abandon (t : Nat) (s : State) : State :=
  let r := tenantOf s t
  if r.st = .sealing then sealAbandoned t r.mbx s else if r.unsealing then unsealAbandoned t r.mbx s else s

/-- Boundary after the close is taken: once no hart of the tenancy is in a sparing sequence (R102), its harts are parked, its DMA
channels aborted, and a seal or unseal under way is abandoned (R212). Another close has come first where it closes already. -/
def closeStart (t i : Nat) (s : State) : State :=
  let r := tenantOf s t
  if r.st = .closing ∨ r.st = .free then stageDone i (chg (arg (mbxOf s i).copy 0 2) t) (mkBytes [(0, 2, t), (2, 1, 1)]) s
  else if sparingIn s t then addDue (beat s + 1) 5 (.closeStart t i) s
  else
    let s1 := (liveHarts s t).foldl (fun a h => stopHart h (512 + t) a) s
    let s2 := (dmaOwned s1 t).foldl (fun a d => dmaAbort d a) s1
    addDue (beat s + 1) 5 (.closeRelease t) (modTenant t (fun x => { x with st := .closing, plan := {}, sweep := none, mbx := i })
      (abandon t s2))

/-- A hart of the tenancy that runs again, after a sparing sequence, is parked. -/
def parkRunning (t : Nat) (s : State) : State :=
  ((hartsOf s t).filter fun h => (hartOf s h).st == .running).foldl (fun a h => stopHart h (512 + t) a) s

/-- A cache.lock of the tenancy that is still being preloaded ends without a lock, and its ways are free again. DESIGN CHOICE (log
entry 40): it reports outcome 1, as for a range that is not the caller's. -/
def dropPreload (t : Nat) (s : State) : State :=
  (s.mesh.preload.filter fun e => e.2.owner == t).foldl (fun a (i, k) =>
    let c := (mbxOf a i).copy
    stageDone i (chg (arg c 0 8) k.base + chg (arg c 8 8) k.size + chg (arg c 0x10 1) k.ways)
      (mkBytes [(0, 8, k.base), (8, 8, k.size), (0x10, 1, k.ways), (0x11, 1, 1)])
      (dropReads (.mailbox i) (dropLock k { a with mesh := { a.mesh with preload := a.mesh.preload.filter (· != (i, k)) } }))) s

/-- Once its harts are offline everything it held passes to tenancy 0 (R212, R276, R306). -/
def closeRelease (t : Nat) (s : State) : State :=
  if (tenantOf s t).st = .closing then
    if liveHarts s t = [] then
      let s1 := dropTenantLines t s
      let s2 := (hartsOf s t).foldl (fun a h => giveHart h 0 a) s1
      let s3 := rehomeFlight t (releaseSealed t (dropPreload t ((locksOf s2 t).foldl (fun a k => dropLock k a) s2)))
      let s4 := (dmaOwned s3 t).foldl (fun a d => dmaGive d 0 (setDmaState d 1 a)) s3
      let n := (granulesOf s4 t).length
      let s5 := closeDevices t (setMem { s4.mem with granules := s4.mem.granules.filter (fun e => e.2 != t),
                                                        reads := s4.mem.reads.filter (·.tag != t) } s4)
      modTenant t (fun x => { x with released := true, gone := n }) s5
    else addDue (beat s + 1) 5 (.closeRelease t) (parkRunning t s)
  else s

/-- A write under tag t still waits at a channel. -/
def writeWaits (s : State) (t : Nat) : Bool :=
  s.mem.chans.any fun e =>
    (e.2.queue ++ e.2.sealedQ ++ e.2.outside ++ e.2.retry ++ e.2.rt).any fun q => q.2.any fun r => r.write && r.tag == t

/-- The last write-back has reached its channel: both key generations are erased at the next boundary. -/
def closeKeyErase (t : Nat) (s : State) : State :=
  let r := tenantOf s t
  if r.st = .closing ∧ r.released ∧ writeWaits s t = false then
    let i := r.mbx
    addDue (beat s + 1) 9 (.stage i (chg (arg (mbxOf s i).copy 0 2) t) (mkBytes [(0, 2, t), (4, 4, r.gone), (8, 8, beat s + 1)]))
      (addDue (beat s + 1) 5 (.keysErased t) s)
  else s

def keysErased (t : Nat) (s : State) : State := setTenant t {} (eraseKeys t s)

/-! ## tenant.status -/

def tenCode : TenSt → Nat
  | .free => 0
  | .opened => 1
  | .sealing => 2
  | .isSealed => 3
  | .closing => 4

/-- Granules of the platform: those of the map that no tenant owns. -/
def granuleCount (s : State) (t : Nat) : Nat :=
  if t = 0 then ((s.mem.map.map fun q => (q.base + q.size + 2 ^ 21 - 1) / 2 ^ 21 - q.base / 2 ^ 21).sum) - s.mem.granules.length
  else (granulesOf s t).length

/-- DESIGN CHOICE (log entry 40): tenancy 0, to which Table 8.1 gives no state, reports state 1 (open) and no blocks. -/
def tenantStatus (i : Nat) (c : Bytes) (s : State) : State :=
  let t := if 1 ≤ i ∧ i ≤ 256 then i else min 256 (arg c 0 2)
  let r := tenantOf s t
  let fl := r.degraded.toNat + 2 * r.sweep.isSome.toNat + 4 * (keyEnt s t).cur.getD 0
  let on := r.st = .isSealed
  stageDone i (chg (arg c 0 2) t) (mkBytes [(0, 2, t), (2, 1, if t = 0 then 1 else tenCode r.st), (3, 1, fl),
    (4, 2, (hartsOf s t).length), (6, 1, if on then r.quota else 0), (7, 1, if on then r.ways else 0), (8, 4, granuleCount s t),
    (0xC, 2, if t = 0 then 0 else (blocksOf s t).length), (0xE, 1, if on then ((presentSlices s).filter fun n => rd s (llcPartWayMask n t) != 0).length else 0), (0xF, 1, if on then r.classes else 0),
    (0x10, 8, r.lost), (0x18, 4, min r.refused (2 ^ 32 - 1)), (0x1C, 4, min r.notices (2 ^ 32 - 1)), (0x20, 8, if on then r.entry else 0),
    (0x28, 8, match r.sweep with | some w => w.swept | none => r.rekeyLines), (0x30, 48, r.meas)]) s

/-! ## Meanings -/

/-- TENANT_CREATE (R203, R211). -/
def execTenantCreate (mbx : Nat) (s : State) : Host.Outcome State Fault Refusal := .next (onCmd mbx 0x0301 (tenantCreate mbx) s)
/-- TENANT_GRANT (R204, R207, R219). -/
def execTenantGrant (mbx : Nat) (s : State) : Host.Outcome State Fault Refusal := .next (onCmd mbx 0x0302 (tenantGrant mbx) s)
/-- TENANT_ASSIGN (R208, R209). -/
def execTenantAssign (mbx : Nat) (s : State) : Host.Outcome State Fault Refusal := .next (onCmd mbx 0x0303 (tenantAssign mbx) s)
/-- TENANT_LOAD (R211). -/
def execTenantLoad (mbx : Nat) (s : State) : Host.Outcome State Fault Refusal := .next (onCmd mbx 0x0304 (tenantLoad mbx) s)
/-- TENANT_SEAL (R215 to R218). -/
def execTenantSeal (mbx : Nat) (s : State) : Host.Outcome State Fault Refusal := .next (onCmd mbx 0x0305 (tenantSeal mbx) s)
/-- TENANT_UNSEAL (R220). -/
def execTenantUnseal (mbx : Nat) (s : State) : Host.Outcome State Fault Refusal := .next (onCmd mbx 0x0306 (tenantUnseal mbx) s)
/-- TENANT_REKEY (R213). -/
def execTenantRekey (mbx : Nat) (s : State) : Host.Outcome State Fault Refusal := .next (onCmd mbx 0x0307 (tenantRekey mbx) s)
/-- TENANT_START (R221). -/
def execTenantStart (mbx : Nat) (s : State) : Host.Outcome State Fault Refusal := .next (onCmd mbx 0x0308 (tenantStart mbx) s)
/-- TENANT_CLOSE (R212). -/
def execTenantClose (mbx : Nat) (s : State) : Host.Outcome State Fault Refusal := .next (onCmd mbx 0x0309 (tenantClose mbx) s)
/-- TENANT_STATUS (R227). -/
def execTenantStatus (mbx : Nat) (s : State) : Host.Outcome State Fault Refusal := .next (onCmd mbx 0x030A (tenantStatus mbx) s)
/-- SEAL_DRAINS_DONE (R218). -/
def execSealDrainsDone (t : Nat) (s : State) : Host.Outcome State Fault Refusal := .next (sealDrainsDone t s)
/-- UNSEAL_DRAIN_DONE (R220). -/
def execUnsealDrainDone (t : Nat) (s : State) : Host.Outcome State Fault Refusal := .next (unsealDrainDone t s)
/-- CLOSE_KEY_ERASE (R212). -/
def execCloseKeyErase (t : Nat) (s : State) : Host.Outcome State Fault Refusal := .next (closeKeyErase t s)
/-- REKEY_SWEEP_DONE (R213). -/
def execRekeySweepDone (t : Nat) (s : State) : Host.Outcome State Fault Refusal := .next (rekeySweepDone t s)

end Sys2Proof.Machine
end

