-- ==== Sys2Proof/Machine/Fabric.lean ====
section
/-! DEFINITION. Machine/Fabric.lean: links between devices, discovery and route tables, packets and coherence between
devices, sealed shares, failures, beat markers, and the fabric.* commands (R228 to R264). -/
namespace Sys2Proof.Machine

def portState5 (s : State) (k : Nat) : Nat := rd s (fabPortStatusState k)
def modFab (f : Fabric → Fabric) (s : State) : State := setFab (f s.fabric) s

/-- Beat number in the captain's numbering (R44). -/
def capBeatNow (s : State) : Nat := beat s - rd s clkFabBeatOffsetOffset

/-! ## Bringing a link up (R230 to R233) -/

/-- FAB_STATE.isolated: whether a port is held isolated. -/
def showIsolated (s : State) : State := wrB fabStateIsolated ((presentFabPorts s).any fun k => portState5 s k == 5) s

/-- A port starts bring-up: training. DESIGN CHOICE (log entry 43): no VC of the link holds a credit until the neighbour has returned
some; what this device returns first is the room it has for each VC, which the spec does not give (Config.vcRoom). -/
def bringUp (k : Nat) (s : State) : State :=
  showIsolated (wr (fabPortStatusState k) 2 (wr (fabPortStatusCause k) 0 (wr (fabPortStatusWidth k) 0
    (modPort k (fun p => { fails := p.fails, held := p.held, began := beat s
                           owed := (List.range 6).map fun v => (v, Config.vcRoom v) }) s))))

/-- A port goes down and waits 100 ms. -/
def goDown (k cause : Nat) (s : State) : State :=
  showIsolated (wr (fabPortStatusState k) 1 (wr (fabPortStatusCause k) cause (wr (fabPortStatusNbValid k) 0
    (modPort k (fun p => { p with began := beat s, keyTx := none, keyRx := none, proved := [] }) s))))

/-- A link is held isolated (R228, R230, R236, R237). -/
def isolatePort (k cause : Nat) (s : State) : State :=
  recContained (nextSlice s) 5 k 0x0504 0 [cause]
    (wr (fabPortStatusState k) 5 (wr (fabPortStatusCause k) cause (wr fabStateIsolated 1 s)))

/-- A new election in an epoch (R235, R260): the device itself is best when it is eligible. -/
def startElection (e : Nat) (s : State) : State :=
  let own := rdB s fabCtrlCaptainEligible
  bump fabEventsElections 1 (wr fabStateState 3 (wr fabStateConvergeBeats 0
    (modFab (fun f => { f with epoch := e, best := if own then some s.chip.uid else none, bestHops := 0, parent := none,
                               stable := 0, began := beat s, joins := [], staged := none, acked := [], commit := none, noCap := 0,
                               relay := [] }) s)))

/-- The link is up: hellos flow; S moves (R243); a device that waited forms or joins a fabric (R238). -/
def linkUp5 (k : Nat) (s : State) : State :=
  let s1 := wr (fabPortStatusState k) 4 (modPort k (fun p => { p with quiet := 0, hello := none }) s)
  if rd s fabStateState = 2 then startElection s.fabric.epoch s1 else modFab (fun f => { f with began := beat s }) s1

/-- This device's part of keying goes out: 0 identity, 1 owner key hash, 2 link keys (R230). -/
def sendKeying (k step : Nat) (s : State) : State := putFlit k { seq := 0, kind := 5, vc := 7, step := some step } s

/-- A stage ends (R230): no link is keyed while the Assayer is hung; keying ends with all three parts done. -/
def stageDone5 (k : Nat) (s : State) : State :=
  if (fportOf s k).follow then s
  else if portState5 s k = 2 then
    if s.assayer.hung then isolatePort k 5 s
    else sendKeying k 0 (wr (fabPortStatusState k) 3 (modPort k (fun p => { p with began := beat s, proved := [] }) s))
  else if portState5 s k = 3 ∧ [0, 1, 2].all (fportOf s k).proved.contains then linkUp5 k s
  else s

/-- A stage fails or reaches its timeout: 50 ms of training, 20 ms of keying. -/
def stageTimeout5 (k : Nat) (failed : Bool) (s : State) : State :=
  let t := beat s - (fportOf s k).began
  if portState5 s k = 2 ∧ (fportOf s k).follow = false ∧ (failed ∨ 50000 ≤ t) then goDown k 0 s
  else if portState5 s k = 3 ∧ (failed ∨ 20000 ≤ t) then goDown k 4 s
  else s

/-- A port is isolated only because its Assayer was hung, which it is no longer. -/
def assayerBack (s : State) (k : Nat) : Bool := portState5 s k == 5 && rd s (fabPortStatusCause k) == 5 && !s.assayer.hung

/-- An enabled port tries again 100 ms after it went down or failed, or was isolated for want of an Assayer. -/
def retryTimer5 (k : Nat) (s : State) : State :=
  if (portState5 s k = 1 ∨ portState5 s k = 6 ∨ assayerBack s k) ∧ 100000 ≤ beat s - (fportOf s k).began ∧ rdB s (fabPortCtrlEnable k) ∧
      (fportOf s k).oos = false ∧ (fportOf s k).fenced = false then bringUp k s
  else s

/-- One part of keying: identity, owner key hash, link keys; the hash must match, the rest must succeed. -/
def keyingFlit (k step : Nat) (ok : Bool) (s : State) : State :=
  let p := fportOf s k
  if portState5 s k = 3 ∧ step < 3 ∧ (List.range step).all p.proved.contains then
    if s.assayer.hung then isolatePort k 5 s
    else if ok = false then (if step = 1 then isolatePort k 1 s else goDown k 4 s)
    else if step = 2 then
      let n := s.fabric.nextKey
      modFab (fun f => { f with nextKey := n + 2 })
        (modPort k (fun q => { q with proved := (2 :: q.proved).eraseDups, keyTx := some n, keyRx := some (n + 1), cntTx := 0,
                                      cntRx := 0 }) s)
    else sendKeying k (step + 1) (modPort k (fun q => { q with proved := (step :: q.proved).eraseDups }) s)
  else s

/-- A direction is rekeyed after 2^40 flits; traffic goes on. -/
def linkRekey (k : Nat) (rx : Bool) (s : State) : State :=
  let p := fportOf s k
  let n := s.fabric.nextKey
  if portUp s k ∧ s.assayer.hung = false ∧ 2 ^ 40 ≤ (if rx then p.cntRx else p.cntTx) then
    modFab (fun f => { f with nextKey := n + 1 }) (modPort k (fun q =>
      if rx then { q with keyRx := some n, cntRx := 0 } else { q with keyTx := some n, cntTx := 0 }) s)
  else s

/-! ## Link failure (R232, R233, R257) -/

/-- Devices and ports of the escape path from a to d, by the rule every device shares (R255). -/
def pathLinks (topo : List TLink) (ms : List Nat) (cap d : Nat) : Nat → Nat → Nat → List (Nat × Nat)
  | 0, _, _ => []
  | n + 1, x, st =>
    if x = d then []
    else
      let k := entryPort (routeEntry topo ms cap x d) (3 + st)
      match (nbrs topo x).find? fun e => e.1 == k with
      | some (_, y) => match escNext st (upHop (distTo topo ms cap) x y) with
        | some st2 => (x, k) :: pathLinks topo ms cap d n y st2
        | none => []
      | none => []

/-- The path of a direction under the table in force. -/
def pathOf (s : State) (a d : Nat) : List (Nat × Nat) :=
  match s.fabric.table with
  | some t => pathLinks t.topo (t.members.map (·.1)) t.captain d 64 a 0
  | none => []

/-- The link by either end in the topology map. -/
def linkAt (t : TablesMsg) (dev port : Nat) : Option TLink :=
  t.topo.find? fun l => (l.a == dev && l.pa == port) || (l.b == dev && l.pb == port)

/-- A path between a and d uses the link of a device's port. -/
def usesLink (s : State) (dev port a d : Nat) : Bool :=
  let other := match s.fabric.table.bind fun t => linkAt t dev port with
    | some l => if l.a = dev ∧ l.pa = port then (l.b, l.pb) else (l.a, l.pa)
    | none => (dev, port)
  (pathOf s a d ++ pathOf s d a).any fun e => e == (dev, port) || e == other

/-- Shares whose path uses a lost link travel as ordinary traffic until placed again: their segments on this device are released,
and an end is told (R255, R257). -/
def unplaceShares (dev port : Nat) (s : State) : State :=
  let uses := fun (h : Share) => h.placed && usesLink s dev port h.a h.d
  let hit := s.fabric.shares.filter uses
  let off := fun (l : List Share) => l.map fun h => if uses h then { h with placed := false } else h
  let s1 := dropSegsIf (fun g => usesLink s dev port g.a g.d) (modFab (fun f => { f with shares := off f.shares, book := off f.book }) s)
  hit.foldl (fun a h => if h.a = myId s ∨ h.d = myId s then
    sealNotice h.ten 0x0008 [(0x18, 1, if h.a = myId s then h.d else h.a), (0x19, 1, h.k), (0x1A, 1, 2)] a else a) s1

/-- A link-state notice of a device's port and its switch boundary goes out on every up port but one (R257). -/
def floodNotice (but dev port b : Nat) (s : State) : State :=
  ((upPorts s).filter (· != but)).foldl (fun a k => putFlit k { seq := 0, kind := 4, vc := 7, notice := some (dev, port, b) } a) s

/-- The captain starts to compute again. -/
def recomputeNow (s : State) : State :=
  wr fabStateState 7 (modFab (fun f => { f with began := beat s, acked := [], commit := none }) s)

/-- After a change of the topology rediscovery begins, from which S counts (R243), and the captain computes again (R257). -/
def recompute (s : State) : State :=
  if rdB s fabIdMember = false then s
  else if rdB s fabIdCaptain then recomputeNow s else modFab (fun f => { f with began := beat s }) s

/-- What this device tells of its own home range: its DRAM map, the CXL.mem windows of groups with a host port, and the I/O
windows of groups with a port in a role (R25; log entry 33). -/
def ownExtent (s : State) : Extent :=
  let role := fun (p : Nat → Bool) => (presentGroups s).filter fun g => (portsOf s g).any fun n => p (portRole s g n)
  { dram := s.mem.map.map fun q => (q.base, q.size)
    wins := (role (· == 3)).map (fun g => (0x040000000000 + g * 0x040000000000, 0x040000000000)) ++
      (role (· != 0)).map fun g => (0x240000000000 + g * 0x020000000000, 0x020000000000) }

/-- The device's own join report. DEDUCED (log entry 43): an ID that the device holds stays with it until its next cold or warm reset
(R236, R239), and Table 9.5 names no held ID, so it is reported as a fixed one. -/
def ownJoin (s : State) : JoinRec :=
  { uid := s.chip.uid
    fixedId := if s.fabric.idHeld then some (myId s) else if rdB s fabCtrlFixedValid then some (rd s fabCtrlFixedId) else none
    prevId := if rdB s fabPrevIdPrevValid then some (rd s fabPrevIdPrevId) else none
    variant := variantCode (vOf s), eligible := rdB s fabCtrlCaptainEligible
    links := (upPorts s).map fun k => (k, rd s (fabPortNbUidUid k), rd s (fabPortStatusNbPort k))
    narrow := (upPorts s).filter fun k => rdB s (fabPortStatusWidth k)
    extent := ownExtent s }

/-- The device runs alone (R239). -/
def runAlone (s : State) : State :=
  let d := if vOf s = .d9_128e then 0 else if s.fabric.idHeld then myId s else if rdB s fabCtrlFixedValid then rd s fabCtrlFixedId else 0
  wr fabStateState 1 (wr fabIdDeviceId d (wr clkStatusCaptain 1 (wr fabIdMembers 1 (wr fabIdMember 0 (wr fabIdCaptain 1
    (wr fabCaptainUidUid s.chip.uid (wr fabMembersMembers (2 ^ d) (wr fabReachReach (2 ^ d)
      (wr (fabRouteEntry d) (routeEntry [] [d] d d d) (wr fabPrevIdPrevId d (wr fabPrevIdPrevValid 1
        (modFab (fun f => { f with idHeld := true, table := none, pma := 2 ^ d }) (ownCaptain s)))))))))))))

/-- A joining device whose links have all gone is not admitted, or has lost its captain: it runs alone (R236). -/
def joinLost (s : State) : State :=
  if (rd s fabStateState = 3 ∨ rd s fabStateState = 4) ∧ upPorts s = [] ∧ s.fabric.table.isNone then runAlone s else s

/-- The links of a device that has a captain have changed: it reports to the captain again. -/
def reportAgain (s : State) : State :=
  if rdB s fabIdCaptain then s
  else if rd s fabStateState = 4 then sendMsg 64 (.joinReport (ownJoin s)) s
  else if rdB s fabIdMember then sendMsg (captainId s) (.joinReport (ownJoin s)) s else s

/-- Members and their IDs in the table in force. -/
def membersNow (s : State) : List (Nat × Nat) := match s.fabric.table with
  | some t => t.members
  | none => []

/-- At the captain the reports name a lost link no longer. -/
def dropReported (dev port : Nat) (s : State) : State :=
  let u := if dev = myId s then some s.chip.uid else ((membersNow s).find? fun e => e.1 == dev).map (·.2)
  modFab (fun f => { f with joins := f.joins.map fun j => { j with links := j.links.filter fun l =>
    !((some j.uid == u && l.1 == port) || (some l.2.1 == u && l.2.2 == port)) } }) s

/-- An end declares the link of port k failed: it stops, its unacknowledged packets wait to be routed again, a notice
names the boundary after detection plus 3 (R233, R257). -/
def linkFailed (k next : Nat) (s : State) : State :=
  if portState5 s k = 4 then
    let p := fportOf s k
    let back := p.retry.flatMap (·.pkts)
    let s1 := modPort k (fun q => { q with retry := [], nak := false, nakDue := false, again := 0, credits := [], began := beat s,
                                           seqTx := 0, seqRx := 0, heard := false,
                                           owed := (List.range 6).map (fun v => (v, Config.vcRoom v)),
                                           fails := (q.fails.filter fun b => beat s < b + 1000000) ++ [beat s] }) s
    let s2 := modFab (fun f => { f with waiting := f.waiting ++ back, swDue := f.swDue ++ [(myId s * 8 + k, capBeatNow s + 4)] }) s1
    let s3 := bump (fabPortRetryFailures k) 1 (wr (fabPortLastFailBeat k) (beat s) (wr (fabPortStatusState k) next s2))
    joinLost (reportAgain (recompute (unplaceShares (myId s) k (floodNotice k (myId s) k (capBeatNow s + 4)
      (dropReported (myId s) k (recContained (nextSlice s) 5 k 0x0501 0 [] s3))))))
  else s

/-- A lane fails: both ends retrain at x4 on lanes 0-3, or on 4-7 when 0-3 include it; at x4 the link fails. -/
def laneFailure5 (k lane : Nat) (s : State) : State :=
  if portState5 s k = 4 ∧ lane < 8 then
    let p := fportOf s k
    if rdB s (fabPortStatusWidth k) then (if lane / 4 = p.half then linkFailed k 6 s else s)
    else modPort k (fun q => { q with half := if lane < 4 then 1 else 0 }) (linkFailed k 8 s)
  else s

/-- The retrain ends: the link is up at x4, and each end tells the captain; its shares are placed again at the commit. -/
def retrainDone5 (k : Nat) (s : State) : State :=
  if portState5 s k = 8 then recompute (reportAgain (pumpWaiting (wr (fabPortStatusWidth k) 1 (linkUp5 k s)))) else s

/-- Four failures within 1,000,000 beats fence the port (R419, Table 16.2). -/
def recentFails (s : State) (k : Nat) : Nat := ((fportOf s k).fails.filter fun b => beat s < b + 1000000).length

/-! ## Hellos and the election (R234 to R239) -/

/-- Members of the fabric this device belongs to. -/
def myMembers (s : State) : Nat := let m := rd s fabMembersMembers; if m = 0 then 2 ^ myId s else m

/-- The device has committed, or runs alone. -/
def settled (s : State) : Bool := [1, 5, 6, 7].contains (rd s fabStateState)

/-- A best_uid received in the running epoch (R235). -/
def hearBest (k : Nat) (h : HelloMsg) (s : State) : State :=
  if rd s fabStateState = 3 ∧ h.epoch = s.fabric.epoch ∧ h.bestUid ≠ 2 ^ 64 - 1 then
    let f := s.fabric
    let n := h.bestHops + 1
    match f.best with
    | none => setFab { f with best := some h.bestUid, bestHops := n, parent := some k, stable := 0 } s
    | some b =>
      if h.bestUid < b then setFab { f with best := some h.bestUid, bestHops := n, parent := some k, stable := 0 } s
      else if h.bestUid = b ∧ b ≠ s.chip.uid then
        if n < f.bestHops ∨ f.parent.isNone then setFab { f with bestHops := n, parent := some k } s
        else if n = f.bestHops ∧ f.parent.any (fun p => k < p) then setFab { f with parent := some k } s
        else s
      else s
  else s

/-- The table in force names a device of unique ID u: its ID. -/
def memberOf (s : State) (u : Nat) : Option Nat :=
  s.fabric.table.bind fun t => (t.members.find? fun e => e.2 == u).map (·.1)

/-- A commit beat at least 100 beats ahead; how far, the spec leaves open (R242). -/
def commitBeat (s : State) : Nat := capBeatNow s + 100 + Config.freeNat s.freeCtr

/-- A member that has not switched to the table in force is sent COMMIT again, for a later beat, once the beat it was sent last has
passed (R242). -/
def commitAgain (d : Nat) (s : State) : State :=
  if rdB s fabIdCaptain ∧ s.fabric.staged.isNone ∧ tget 0 s.fabric.recommit d ≤ capBeatNow s then
    let b := commitBeat s
    sendMsg d (.commit (rd s fabIdEpoch) b) (freeNext (modFab (fun f => { f with recommit := tset 0 f.recommit d b }) s))
  else s

/-- A neighbour's hello shows an epoch before the one in force, though the table names it: it has missed the COMMIT. -/
def helloLate (h : HelloMsg) (s : State) : State :=
  match memberOf s h.uid with
  | some d => if h.epoch < rd s fabIdEpoch then commitAgain d s else s
  | none => s

/-- A hello of a later epoch calls for an election: its sender elects, or this device joins. A member that hears only of a commit it
has missed, or that is still to come, keeps its table (R242, R260). -/
def callsElection (s : State) (h : HelloMsg) : Bool :=
  decide (s.fabric.epoch < h.epoch) && rd s fabStateState != 0 &&
    (h.captain == 0 || (!settled s && s.fabric.staged.all fun t => t.epoch != h.epoch))

/-- The first hello over a link that came up after the commit: the link enters the tables (R236, R243). -/
def linkNews (s : State) : State :=
  if settled s ∧ rdB s fabIdMember then reportAgain (recompute s) else s

/-- A hello on an up port. -/
def hello (k : Nat) (h : HelloMsg) (s : State) : State :=
  if portUp s k then
    let first := (fportOf s k).hello.isNone
    let s1 := wr (fabPortNbUidUid k) h.uid (wr (fabPortStatusNbPort k) h.port (wrB (fabPortStatusNbValid k) h.idHeld
      (wr (fabPortStatusNbId k) h.devId (modPort k (fun p => { p with hello := some h, quiet := 0 }) s))))
    if h.uid = s.chip.uid then isolatePort k 6 s1
    else if settled s ∧ h.captain ≠ 0 ∧ h.captain ≠ rd s fabCaptainUidUid then
      if h.members &&& myMembers s = 0 then startElection (max h.epoch s.fabric.epoch + 1) s1 else isolatePort k 2 s1
    else if callsElection s h then hearBest k h (startElection h.epoch s1)
    else
      let s2 := helloLate h (hearBest k h s1)
      if first then linkNews s2 else s2
  else s

/-- The hello this device sends on port k (Table 9.4). -/
def ownHello (s : State) (k : Nat) : HelloMsg :=
  { uid := s.chip.uid
    bestUid := s.fabric.best.getD (if rdB s fabCtrlCaptainEligible then s.chip.uid else 2 ^ 64 - 1)
    captain := if settled s then rd s fabCaptainUidUid else 0
    epoch := s.fabric.epoch, bestHops := s.fabric.bestHops, devId := myId s, idHeld := s.fabric.idHeld
    idFixed := rdB s fabCtrlFixedValid, eligible := rdB s fabCtrlCaptainEligible, port := k, variant := variantCode (vOf s)
    members := myMembers s }

/-- One hello flit in flit position 0 of the beat, where the retry buffer has room (R234). -/
def sendHello (k : Nat) (s : State) : State :=
  if (fportOf s k).retry.length < 1024 then putFlit k { seq := 0, kind := 3, vc := 7, hello := some (ownHello s k) } s else s

/-- best has stayed unchanged for 64 beats (R235). -/
def captainSettle (s : State) : State :=
  if rd s fabStateState = 3 ∧ 64 ≤ s.fabric.stable then
    match s.fabric.best with
    | none => runAlone s
    | some b =>
      let s1 := wr fabStateState 4 (wr fabCaptainUidUid b (wr fabStateHops (min 15 s.fabric.bestHops) s))
      if b = s.chip.uid then modFab (fun f => { f with joins := [ownJoin s1] }) (wr fabIdCaptain 1 (ownCaptain s1))
      else sendMsg 64 (.joinReport (ownJoin s1)) (wr fabIdCaptain 0 (wr clkStatusCaptain 0 (realign s1)))
  else s

/-- A report reaches the captain (R236); a captain that has committed, or runs alone, computes again. -/
def joinReport (r : JoinRec) (s : State) : State :=
  let s1 := modFab (fun f => { f with joins := f.joins.filter (fun j => j.uid != r.uid) ++ [r] }) s
  if rdB s fabIdCaptain ∧ (rd s fabStateState = 4 ∨ rd s fabStateState = 7) then s1
  else if rdB s fabIdCaptain ∧ settled s then recomputeNow s1
  else s

/-! ## Admission, IDs and tables (R236, R240 to R243) -/

/-- Place of a unique ID among the reports. -/
def joinIx (l : List JoinRec) (uid : Nat) : Option Nat := l.findIdx? fun j => j.uid == uid

/-- Links between devices that have reported, by places of the reports: an end whose report is older than the link need not name
it, and one that both ends name counts once. -/
def joinLinks (l : List JoinRec) : List TLink :=
  l.zipIdx.flatMap fun (j, i) => j.links.filterMap fun (p, u, q) => match joinIx l u with
    | some n => match l[n]? with
      | some o => if (i < n ∨ (i = n ∧ p < q)) ∨ o.links.contains (q, j.uid, p) = false then
          some { a := i, pa := p, b := n, pb := q, x4 := j.narrow.contains p || o.narrow.contains q } else none
      | none => none
    | none => none

/-- Reports within 8 hops of the captain. -/
def withinReach (l : List JoinRec) (cap : Nat) : List JoinRec :=
  match joinIx l cap with
  | some c => let d := distTo (joinLinks l) (List.range l.length) c
    (l.zipIdx.filter fun e => tget 1000 d e.2 ≤ 8).map (·.1)
  | none => []

/-- Take the IDs of reports, in order, where free. -/
def takeIds (want : JoinRec → Option Nat) : List JoinRec → List (Nat × Nat) → List (Nat × Nat)
  | [], t => t
  | j :: r, t => match want j with
    | some d => if t.any (fun e => e.1 == d || e.2 == j.uid) then takeIds want r t else takeIds want r (t ++ [(d, j.uid)])
    | none => takeIds want r t

/-- IDs under R236: those that devices hold already stay with them, then fixed, then previous, then the lowest free; a device whose
fixed ID is taken is not admitted. -/
def assignIds (held : List (Nat × Nat)) (l : List JoinRec) : List (Nat × Nat) :=
  let sorted := l.mergeSort fun a b => decide (a.uid ≤ b.uid)
  let t1 := takeIds (·.fixedId) sorted (held.filter fun e => sorted.any fun j => j.uid == e.2 && j.fixedId == some e.1)
  let rest := sorted.filter fun j => j.fixedId.isNone
  let t2 := takeIds (·.prevId) rest t1
  (rest.filter fun j => t2.all fun e => e.2 != j.uid).foldl (fun t j =>
    match (List.range 64).find? fun d => t.all fun e => e.1 != d with
    | some d => t ++ [(d, j.uid)]
    | none => t) t2

/-- The tables of a fabric for its member d. -/
def tablesFor (epoch cap : Nat) (ids : List (Nat × Nat)) (topo : List TLink) (d : Nat) : TablesMsg :=
  { epoch := epoch, devId := d, captain := cap, members := ids, topo := topo, routes := routeTable topo (ids.map (·.1)) cap d
    grants := ids.map fun e => (e.1, 0) }

/-- Topology map by IDs. -/
def idTopo (l : List JoinRec) (ids : List (Nat × Nat)) : List TLink :=
  let idOf := fun i => (l[i]?).bind fun j => (ids.find? fun e => e.2 == j.uid).map (·.1)
  (joinLinks l).filterMap fun t => match idOf t.a, idOf t.b with
    | some x, some y => some { t with a := x, b := y }
    | _, _ => none

/-- Digest of a TABLES message. -/
def tablesDigest (t : TablesMsg) : Nat :=
  Config.sha384 ([t.epoch, t.devId, t.captain] ++ t.members.flatMap (fun e => [e.1, e.2]) ++
    t.topo.flatMap (fun l => [l.a, l.pa, l.b, l.pb, l.x4.toNat]) ++ t.routes ++ t.grants.flatMap fun e => [e.1, e.2])

/-- The cores' PMA checkers take in the member set and the extents of a staged table; a device that leaves stays until the
table is in force (R25, R242). -/
def programPma (t : TablesMsg) (s : State) : State :=
  modFab (fun f => { f with pma := t.members.foldl (fun m x => m ||| 2 ^ x.1) f.pma
                            extents := t.extents.foldl (fun e x => tset {} e x.1 x.2) f.extents }) s

/-- With every acknowledgement of its table the captain names the commit beat (R242): its own, and the others by COMMIT. -/
def nameCommit (t : TablesMsg) (s : State) : State :=
  if t.members.all fun e => s.fabric.acked.contains e.1 then
    let b := commitBeat s
    (t.members.filter fun e => e.1 != t.devId).foldl (fun a e => sendMsg e.1 (.commit t.epoch b) a)
      (freeNext (modFab (fun f => { f with commit := some b }) s))
  else s

/-- Reports that the captain computes with: its own as it is now, and the others that have come. -/
def reports (s : State) : List JoinRec := ownJoin s :: s.fabric.joins.filter fun j => j.uid != s.chip.uid

/-- The captain finishes IDs and tables, stages its own and sends the others. -/
def routesComputed (s : State) : State :=
  if rdB s fabIdCaptain ∧ (rd s fabStateState = 4 ∨ rd s fabStateState = 7) then
    let l := (withinReach (reports s) s.chip.uid).filter fun j =>
      s.fabric.unreach.all fun d => ((membersNow s).find? fun e => e.1 == d).map (·.2) != some j.uid
    let ids := assignIds (membersNow s) l
    match ids.find? fun e => e.2 == s.chip.uid with
    | some (d, _) =>
      let e := max s.fabric.epoch (rd s fabIdEpoch + 1)
      let topo := idTopo l ids
      let ex := ids.filterMap fun x => (l.find? fun j => j.uid == x.2).map fun j => (x.1, j.extent)
      let own := { tablesFor e d ids topo d with extents := ex }
      let s1 := programPma own (modFab (fun f => { f with staged := some own, acked := [d], commit := none }) s)
      nameCommit own ((ids.filter fun x => x.1 != d).foldl (fun a x =>
        sendMsg x.1 (.tables { tablesFor e d ids topo x.1 with extents := ex }) a) s1)
    | none => s
  else s

/-- A member stages its tables, programs the PMA checkers (R25) and answers. -/
def tablesIn (t : TablesMsg) (s : State) : State :=
  if rdB s fabIdCaptain = false ∧ rd s fabIdEpoch < t.epoch ∧ t.devId < 64 then
    sendMsg t.captain (.tablesAck t.epoch (tablesDigest t % 2 ^ 384))
      (programPma t (modFab (fun f => { f with staged := some t, commit := none }) s))
  else s

/-- The captain collects acknowledgements; one of the table that is in force already asks for its COMMIT again. -/
def tablesAck (dev epoch digest : Nat) (s : State) : State :=
  match s.fabric.staged with
  | some t =>
    let mine := tablesFor t.epoch t.captain t.members t.topo dev
    if rdB s fabIdCaptain ∧ epoch = t.epoch ∧ s.fabric.commit.isNone ∧ t.members.any (fun e => e.1 == dev) ∧
        digest = tablesDigest mine % 2 ^ 384 then
      nameCommit t (modFab (fun f => { f with acked := (dev :: f.acked).eraseDups }) s)
    else s
  | none => if epoch = rd s fabIdEpoch ∧ (membersNow s).any (fun e => e.1 == dev) then commitAgain dev s else s

/-- A member records the commit beat of its staged table; a beat already past is not taken. -/
def commitIn (epoch b : Nat) (s : State) : State :=
  match s.fabric.staged with
  | some t => if t.epoch = epoch ∧ capBeatNow s < b then modFab (fun f => { f with commit := some b }) s else s
  | none => s

/-! ## Members that leave (R253, R259) -/

def clearGrants (d : Nat) (s : State) : State :=
  (List.range 5).foldl (fun a w => wr (fabGrantMask d w) 0 a) s

def grantBit (d t : Nat) (on : Bool) (s : State) : State :=
  let m := rd s (fabGrantMask d (t / 64))
  let o := m / 2 ^ (t % 64) % 2 = 1
  if on ∧ ¬ o then wr (fabGrantMask d (t / 64)) (m + 2 ^ (t % 64)) s
  else if ¬ on ∧ o then wr (fabGrantMask d (t / 64)) (m - 2 ^ (t % 64)) s else s

def granted (s : State) (d t : Nat) : Bool := rd s (fabGrantMask d (t / 64)) / 2 ^ (t % 64) % 2 == 1

/-- A line lost with a departed member: its tenancy is told. -/
def departLine (tag line : Nat) (s : State) : State :=
  recVisible (nextSlice s) 5 0 0x0503 [tag] (line * 64) [] 0 [] s

/-- A tracker is free for a source: 32 of the 4,096 are reserved to each. -/
def trackerFree (s : State) (src : Nat) : Bool :=
  let n := fun d => (s.fabric.trackers.filter fun t => t.req.src == d).length
  decide (n src < 32) || decide (((List.range 64).map fun d => n d - 32).sum < 2048)

/-- n trackers have become free: for each the first source that waits and for which one is free is told (R244). -/
def grantFreed : Nat → State → State
  | 0, s => s
  | n + 1, s => match s.fabric.starved.find? fun e => trackerFree s e.1 with
    | some e => grantFreed n (sendPkt { dest := e.1, src := 0, kind := 0x20, op := 2, xid := e.2 }
        (modFab (fun f => { f with starved := f.starved.erase e }) s))
    | none => s

/-- At each home, entries naming the lost member are cleared, lines it held in state O become poison; its own lines
cached here are invalidated, dirty ones lost. -/
def lostMember (d : Nat) (s : State) : State :=
  let s1 := (presentSlices s).foldl (fun a n =>
    ((sliceOf a n).fabDir.filter fun e => e.2.devs.contains d).foldl (fun b e =>
      let c := putFabDir n e.1 { e.2 with devs := e.2.devs.filter (· != d) } b
      if e.2.own then departLine e.2.tag e.1 (writeHome e.2.tag e.1 0 true c) else c) a) s
  let s2 := (presentSlices s1).foldl (fun a n =>
    let r := sliceOf a n
    let mine := (((r.lines ++ r.victims).map fun e => (e.1, e.2.tag)) ++ r.dir.map fun e => (e.1, e.2.tag)).eraseDups.filter
      fun (e : Nat × Nat) => e.1 / 2 ^ 40 == d
    mine.foldl (fun b e =>
      let dirty := (dirtyIn b e.1 (((dirOf b n e.1).map (·.cores)).getD [])).isSome ||
        ((arrOf b n e.1).or (vicOf b n e.1)).any (·.dirty)
      let c := discardLine n e.1 b
      if dirty then departLine e.2 e.1 c else c) a) s1
  grantFreed (s2.fabric.trackers.filter fun t => t.req.src == d).length
    (modFab (fun f => { f with trackers := f.trackers.filter fun t => t.req.src != d, snoops := f.snoops.filter fun q => q.dev != d,
                               starved := f.starved.filter fun e => e.1 != d,
                               kept := f.kept.filter fun e => e.1 / 257 != d }) (clearGrants d s2))

/-- Grants of a member that a commit admits: tenancy 0, as its TABLES say too, and those fabric.grant kept. -/
def admitGrants (l : List (Nat × Nat)) (d : Nat) (s : State) : State :=
  let k := (s.fabric.kept.filter fun e => e.1 / 257 == d).map fun e => e.1 % 257
  let g := (l.filter fun e => e.1 == d).map (·.2)
  modFab (fun f => { f with kept := f.kept.filter fun e => e.1 / 257 != d })
    ((0 :: (g ++ k)).foldl (fun a t => grantBit d t true a) (clearGrants d s))

/-! ## The switch (R242, R247, R253) -/

def oldRoutes (s : State) : List Nat := (List.range 64).map fun d => rd s (fabRouteEntry d)
def putRoutes (l : List Nat) (s : State) : State :=
  let s1 := l.zipIdx.foldl (fun a (e, d) => if d < 64 then wr (fabRouteEntry d) e a else a) s
  wr fabReachReach (((List.range 64).filter fun d => entryReach ((l[d]?).getD 0)).foldl (fun m d => m + 2 ^ d) 0) s1

/-- A neighbour lies more than 8 hops from the captain, by its latest hello. -/
def nbFar (s : State) (k : Nat) : Bool := (fportOf s k).hello.any fun h => decide (8 < h.bestHops)

/-- Links to devices that were not admitted are held isolated: beyond 8 hops, or an ID conflict (R236). -/
def isolateOthers (t : TablesMsg) (s : State) : State :=
  (upPorts s).foldl (fun a k =>
    if t.members.any fun e => e.2 == rd s (fabPortNbUidUid k) then a else isolatePort k (if nbFar s k then 3 else 2) a) s

/-- Unique ID of a table's captain. -/
def captainUid (t : TablesMsg) : Option Nat := (t.members.find? fun e => e.1 == t.captain).map (·.2)

/-- The staged table and the new epoch take effect. -/
def applyTable (t : TablesMsg) (s : State) : State :=
  let mask := t.members.foldl (fun m x => m ||| 2 ^ x.1) 0
  let others := (t.members.map (·.1)).filter (· != t.devId)
  let left := s.fabric.admitted.filter fun d => !others.contains d
  let new := others.filter fun d => !s.fabric.admitted.contains d
  let cap := t.captain == t.devId
  let s1 := modFab (fun f => { f with prev := some (rd s fabIdEpoch, oldRoutes s, beat s), staged := none, commit := none,
                                      table := some t, admitted := others, idHeld := true, pma := mask, unreach := [], epoch := t.epoch, bank := [], swDue := [],
                                      noRoute := [], prevLv := levelsNow s, relay := [], recommit := [] }) s
  let s2 := putRoutes t.routes s1
  let s3 := wr fabIdDeviceId t.devId (wrB fabIdMember (decide (2 ≤ t.members.length)) (wrB fabIdCaptain cap
    (wr fabIdMembers t.members.length (wr fabIdEpoch t.epoch (wr fabMembersMembers mask (wrB clkStatusCaptain cap
      (wr fabCaptainUidUid (((t.members.find? fun e => e.1 == t.captain).map (·.2)).getD 0) s2)))))))
  let s4 := wr fabStateState 5 (wr fabStateHops (min 15 (tget 0 (distTo t.topo (t.members.map (·.1)) t.captain) t.devId))
    (wr fabStateBankReady 0 (wr fabStateConvergeBeats (beat s - s.fabric.began) (wr fabPrevIdPrevId t.devId (wr fabPrevIdPrevValid 1 s3)))))
  let s5 := new.foldl (fun a d => admitGrants t.grants d a) (left.foldl (fun a d => lostMember d a) s4)
  let s6 := (presentFabPorts s5).foldl (fun a k => match t.members.find? fun e => e.2 == rd a (fabPortNbUidUid k) with
    | some (d, _) => if portUp a k then wr (fabPortStatusNbId k) d (wr (fabPortStatusNbValid k) 1 a) else a
    | none => a) s5
  let s7 := if cap ∨ t.members.length < 2 then ownCaptain s6
    else if s.fabric.table.isNone ∨ (s.fabric.table.bind captainUid = captainUid t ∧ rdB s fabIdMember) then s6 else realign s6
  pumpWaiting (isolateOthers t s7)

/-! ## Placing shares (R255) -/

/-- Device and port of every link direction of a path, with the wheel its widths give. -/
def wheelOf (topo : List TLink) (path : List (Nat × Nat)) : Nat :=
  if path.any fun e => topo.any fun l => l.x4 && ((l.a == e.1 && l.pa == e.2) || (l.b == e.1 && l.pb == e.2)) then 410 else 820

def isX4 (topo : List TLink) (e : Nat × Nat) : Bool :=
  topo.any fun l => l.x4 && ((l.a == e.1 && l.pa == e.2) || (l.b == e.1 && l.pb == e.2))

/-- Wheel positions of k packets from p0 on link j. -/
def wheelPositions (w k p0 j : Nat) : List Nat := (List.range k).map fun i => (p0 + i * (w / k) + wheelStep w * j) % w

/-- Flit positions they name on a link. -/
def flitPositions (topo : List TLink) (w : Nat) (e : Nat × Nat) (l : List Nat) : List Nat :=
  l.map fun q => if w = 410 ∧ isX4 topo e = false then 2 * q else q

/-- Every position is free on every link, within the limits of 256 and 128. -/
def placeFits (topo : List TLink) (used : List (Nat × Nat × Nat × Nat)) (w k p0 : Nat) (path : List (Nat × Nat)) : Bool :=
  path.zipIdx.all fun (e, j) =>
    let here := used.filter fun u => u.1 == e.1 && u.2.1 == e.2
    decide (here.length + k ≤ (if isX4 topo e then 128 else 256)) &&
      (flitPositions topo w e (wheelPositions w k p0 j)).all fun f => here.all fun u => u.2.2.1 != f

/-- The captain's placement of one direction: the lowest p0 that fits, and the reserved positions. -/
def placeDir (topo : List TLink) (used : List (Nat × Nat × Nat × Nat)) (key k : Nat) (path : List (Nat × Nat)) :
    Option (List (Nat × Nat × Nat × Nat) × List (Nat × Nat × Nat)) :=
  let w := wheelOf topo path
  match (List.range w).find? fun p0 => placeFits topo used w k p0 path with
  | some p0 => some (used ++ path.zipIdx.flatMap (fun (e, j) =>
      (flitPositions topo w e (wheelPositions w k p0 j)).map fun f => (e.1, e.2, f, key)), path.zipIdx.map fun (e, j) => (e.1, e.2, (p0 + wheelStep w * j) % w))
  | none => none

/-- The segments that a placed direction gives each device of its path, its end included. -/
def dirSegs (topo : List TLink) (t k a d : Nat) (path : List (Nat × Nat)) (starts : List (Nat × Nat × Nat)) : List (Nat × ShareSeg) :=
  let w := wheelOf topo path
  let inOf := fun j => if j = 0 then 6 else match path[j - 1]? with
    | some (x, p) => match topo.find? fun l => (l.a == x && l.pa == p) || (l.b == x && l.pb == p) with
      | some l => if l.a = x ∧ l.pa = p then l.pb else l.pa
      | none => 6
    | none => 6
  (starts.zipIdx.map fun (e, j) => (e.1, { ten := t, a := a, d := d, inP := inOf j, outP := e.2.1, wheel := w,
                                           pos := (List.range k).map fun i => (e.2.2 + i * (w / k)) % w })) ++
    [(d, { ten := t, a := a, d := d, inP := inOf path.length, outP := 6, wheel := w, pos := [] })]

/-- Place both directions of a share: the captain's reservations and every device's segments. -/
def placeShare (s : State) (h : Share) : Option (List (Nat × Nat × Nat × Nat) × List (Nat × ShareSeg)) :=
  match s.fabric.table with
  | some t =>
    let p1 := pathOf s h.a h.d
    let p2 := pathOf s h.d h.a
    match placeDir t.topo s.fabric.lanesOf (keyOfShare h) h.k p1 with
    | some (u1, st1) => match placeDir t.topo u1 (keyOfShare h) h.k p2 with
      | some (u2, st2) => some (u2, dirSegs t.topo h.ten h.k h.a h.d p1 st1 ++ dirSegs t.topo h.ten h.k h.d h.a p2 st2)
      | none => none
    | none => none
  | none => none

/-- Shares that end on this device for a tenancy. -/
def sharesHere (s : State) (t : Nat) : List Share := s.fabric.shares.filter fun h => h.ten == t && (h.a == myId s || h.d == myId s)

/-- A fabric-directory way is left in each slice of the tenancy's partition. -/
def dirWaysLeft (s : State) (t : Nat) : Bool :=
  ((presentSlices s).filter fun n => rdB s (llcPartSealed n t)).all fun n =>
    decide ((s.fabric.shares.filter fun h => rdB s (llcPartSealed n h.ten) && (h.a == myId s || h.d == myId s)).length < 8)

/-- What the captain has placed of a share goes to the devices of its paths. -/
def sendSegs (segs : List (Nat × ShareSeg)) (s : State) : State :=
  segs.foldl (fun a g => if g.1 = myId s then putSeg g.2 a else sendMsg g.1 (.sharePlace g.2) a) s

/-- An end of a share that could not be placed again learns of it: its packets stay ordinary traffic (R255). -/
def unplacedHere (h : Share) (s : State) : State :=
  sealNotice h.ten 0x0008 [(0x18, 1, if h.a = myId s then h.d else h.a), (0x19, 1, h.k), (0x1A, 1, 2)] s

/-- No position fits a share of the captain's book: it stays unplaced, and both ends are told. -/
def tellUnplaced (h : Share) (s : State) : State :=
  [(h.a, h.d), (h.d, h.a)].foldl (fun a e =>
    if e.1 = myId s then unplacedHere h a else sendMsg e.1 (.shareAck h.ten e.2 3) a) s

/-- The captain places one share again: what it held is released on every device of its old paths, and it waits for the devices of
the new ones. -/
def replaceShare (h : Share) (s : State) : State :=
  let b := dropLanes h.ten h.a h.d s
  match placeShare b h with
  | some (u, segs) =>
    let on := fun (l : List Share) => l.map fun x => if keyOfShare x = keyOfShare h then { x with placed := true } else x
    let q : ShareReq := { mbx := 260, share := { h with placed := true }, awaited := (segs.map (·.1)).filter (· != myId s) }
    sendSegs segs (modFab (fun f => { f with lanesOf := u, book := on f.book, placing := f.placing ++ [q] }) b)
  | none => tellUnplaced h b

/-- At a commit the captain places again the shares that are unplaced, each on its own (R255, R257). -/
def replaceShares (s : State) : State :=
  if rdB s fabIdCaptain then (s.fabric.book.filter fun h => !h.placed).foldl (fun a h => replaceShare h a) s else s

/-- An end's request to the captain to place a share (log entry 43). -/
def askPlace (h : Share) (s : State) : State :=
  sendMsg (captainId s) (.sharePlace { ten := h.ten, a := h.a, d := h.d, inP := 7, outP := 7, wheel := 820, pos := List.range h.k }) s

/-- Under another captain than before, the shares that this device has asked for are asked for again. -/
def askAgain (old : Nat) (s : State) : State :=
  if captainId s = old then s
  else
    let mine := s.fabric.shares.filter fun h => h.a == myId s
    if rdB s fabIdCaptain then modFab (fun f => { f with book := f.book ++ mine.map fun h => { h with placed := false } }) s
    else mine.foldl (fun a h => askPlace h a) s

/-- The captain's COMMIT goes out again, for a later beat, to the other members (R242). DESIGN CHOICE (log entry 43): it does not know
which of them have missed the first, so each is sent it once; a member that has switched has nothing staged and takes no notice. -/
def commitMissed (s : State) : State := s.fabric.admitted.foldl (fun a d => commitAgain d a) s

/-- TABLE_SWITCH: the commit beat has come. -/
def tableSwitch (s : State) : State :=
  match s.fabric.staged, s.fabric.commit with
  | some t, some b => if b ≤ capBeatNow s then commitMissed (replaceShares (askAgain (captainId s) (applyTable t s))) else s
  | _, _ => s

/-- Packets of the epoch before the switch are discarded 2 beats after it. -/
def graceEnd (s : State) : State :=
  match s.fabric.prev with
  | some (_, _, b) => if b + 2 ≤ beat s then
      modFab (fun f => { f with prev := none, waiting := f.waiting.filter fun p => p.epoch == rd s fabIdEpoch }) s else s
  | none => s

/-- The tables for the loss of each single link are complete (R243). -/
def bankReady (s : State) : State :=
  match s.fabric.table with
  | some t => if rd s fabStateState = 5 then
      wr fabStateBankReady 1 (modFab (fun f => { f with bank := ((t.topo.take 192).zipIdx.map fun (l, i) =>
        (i, routeTable (t.topo.erase l) (t.members.map (·.1)) t.captain t.devId)) }) s)
    else s
  | none => s

/-- The bank's table for a lost link takes effect at the boundary its notice names (R257). -/
def bankSwitch (s : State) : State :=
  match s.fabric.table, s.fabric.swDue.find? fun e => e.2 ≤ capBeatNow s with
  | some t, some (id, b) =>
    let s1 := modFab (fun f => { f with swDue := f.swDue.erase (id, b) }) s
    match t.topo.findIdx? fun l => (l.a == id / 8 && l.pa == id % 8) || (l.b == id / 8 && l.pb == id % 8) with
    | some i =>
      if rdB s fabStateBankReady then
        match tfind s.fabric.bank i with
        | some r =>
          let s2 := modFab (fun f => { f with table := some { t with topo := t.topo.eraseIdx i, routes := r }, bank := [] }) (putRoutes r s1)
          pumpWaiting (recompute (wr fabStateState 6 (wr fabStateBankReady 0 (bump fabEventsSwitches 1 s2))))
        | none => s1
      else s1
    | none => s1
  | _, _ => s

/-- A link-state notice: sent on once, and the switch scheduled at the named boundary or the next one. -/
def linkNotice (k dev port b : Nat) (s : State) : State :=
  let id := dev * 8 + port
  let same := match s.fabric.table.bind fun t => linkAt t dev port with
    | some l => [l.a * 8 + l.pa, l.b * 8 + l.pb]
    | none => [id]
  if portUp s k = false ∨ s.fabric.table.isNone ∨ s.fabric.swDue.any (fun e => same.contains e.1) ∨
      ((s.fabric.table.bind fun t => linkAt t dev port).isNone) then s
  else
    recompute (unplaceShares dev port (floodNotice k dev port b (dropReported dev port (modFab (fun f => { f with swDue := f.swDue ++
      [(id, if b ≤ capBeatNow s then capBeatNow s + 1 else b)] }) s))))

/-! ## Elections after a loss (R43, R259, R260) -/

def markerLoss (s : State) : State :=
  if 8 ≤ s.time.noMarker ∧ rdB s fabIdMember ∧ rdB s fabIdCaptain = false then
    startElection (s.fabric.epoch + 1) (realign { s with time := { s.time with noMarker := 0 } })
  else s

def captainUnreachable (s : State) : State :=
  if 8 ≤ s.fabric.noCap ∧ rdB s fabIdMember then startElection (s.fabric.epoch + 1) s else s

def memberUnreachable (d : Nat) (s : State) : State :=
  if 1000 ≤ tget 0 s.fabric.noRoute d ∧ s.fabric.admitted.contains d then
    recompute (modFab (fun f => { f with unreach := (d :: f.unreach).eraseDups }) s)
  else s

/-! ## Beat markers (R261, R262) -/

/-- The captain's platform time at the next boundary, as this device holds it. -/
def markTime (s : State) : Nat :=
  if rdB s fabIdCaptain = false ∧ s.time.capKnown then s.time.capTime + 1000
  else max (nextTime s) (s.time.setNext.getD 0)

/-- A number as its low n bits hold it, signed. -/
def signedBits (n : Nat) (x : Int) : Int := (x + 2 ^ (n - 1)).emod (2 ^ n) - 2 ^ (n - 1)

/-- Counter in ps after which part of the beat gap, the last 5.3 ns of the beat at most, the marker leaves: before the boundary that it
names, by an offset that the spec leaves open (R261, Table 9.2). -/
def gapOffset (s : State) : Int := -1 - (freeVal 5300 s : Int)

/-- The marker of this beat leaves port k in the beat gap. -/
def sendMarker (k : Nat) (s : State) : State :=
  let off := gapOffset s
  let p := fportOf s k
  let at' : Nat := (((p.ctr + beatPs s : Nat) : Int) + off).toNat % 2 ^ 64
  let m : Marker := { beat := capBeatNow s + 1, time := markTime s, epoch := s.fabric.epoch, hops := rd s fabStateHops
                      aligned := rdB s clkStatusFabAligned, txOffset := off, echo := signedBits 32 ((p.rxAt : Int) - at') }
  modPort k (fun q => { q with sentAt := (at' :: q.sentAt).take 4, mark := some m }) (freeNext s)

/-- Delay of the link when the arriving marker echoes the one that left at counter t (R262). -/
def delayFrom (tRx t : Nat) (m : Marker) : Int := (signedBits 64 ((tRx : Int) - t) + m.echo) / 2

/-- Departure of the marker that an arriving one echoes. DEDUCED (log entry 43): departures lie a beat apart, so one beat more or less
changes the delay by half a beat; a delay is at most 250 ns (Table 9.2), and only one of them gives such a delay. -/
def echoedAt (p : FabPort) (tRx : Nat) (m : Marker) : Nat :=
  (p.sentAt.find? fun t => decide (0 ≤ delayFrom tRx t m) && decide (delayFrom tRx t m < 500000)).getD (p.sentAt.head?.getD 0)

/-- A marker arrives on port k at counter tRx: the delay of the link, the place of the neighbour's boundary, and, from the
parent port, the captain's beat and time (R262). DEDUCED (log entry 43): a parent that is neither the captain nor aligned to it does
not know the captain's numbering yet, so its numbers are not taken. -/
def beatMarker (k tRx : Nat) (m : Marker) (s : State) : State :=
  if portUp s k ∧ m.hops ≤ 10 then
    let delay := delayFrom tRx (echoedAt (fportOf s k) tRx m) m
    let s1 := modPort k (fun q => { q with rxAt := tRx, edge := tRx - delay - m.txOffset })
      (wr (fabPortDelayDelayPs k) (delay % 2 ^ 32).toNat s)
    if s.fabric.parent = some k then
      if m.aligned ∨ m.hops = 0 then
        { s1 with time := { s1.time with capBeat := m.beat, capTime := m.time, capKnown := true, noMarker := 0 } }
      else { s1 with time := { s1.time with noMarker := 0 } }
    else s1
  else s

/-- What a beat adds to the fabric's counts, and its markers. -/
def fabricBeat (s : State) : State :=
  let s0 := modFab (fun f => { f with ports := f.ports.map fun e => (e.1, { e.2 with sent := [] }) }) s
  let s1 := pumpWaiting ((upPorts s).foldl (fun a k => sendMarker k (sendHello k (modPort k (fun p => { p with quiet := p.quiet + 1 }) a))) s0)
  let f := s1.fabric
  let lost := f.admitted.filter fun d => !hasRoute s1 d
  let cap := match f.table with | some t => t.captain | none => myId s1
  setFab { f with stable := if rd s fabStateState = 3 then f.stable + 1 else 0,
                  noRoute := lost.foldl (fun t d => tset 0 t d (tget 0 f.noRoute d + 1)) [],
                  noCap := if rdB s fabIdMember && !hasRoute s1 cap then f.noCap + 1 else 0 } s1

/-! ## Requests at the home (R244, R248 to R253) -/

/-- The port toward a device, for the unit field of its records. -/
def portToward (s : State) (d : Nat) : Nat := entryPort (rd s (fabRouteEntry d)) 0

def errPkt (p : Pkt) : Pkt := respPkt p 0x20 3 0

/-- The home can serve the address under the tag (R26, R205, R207, R281). -/
def canServe (s : State) (p : Pkt) : Bool :=
  match regionOf (offOf p.pa) with
  | .dram => (coord s (offOf p.pa)).isSome && granuleOk s (offOf p.pa) p.tag p.mgmt
  | .cxl => decoded s (offOf p.pa) && mayReach s p.tag (lineOf p.pa)
  | .io g => match ioAt s g p.tag p.pa p.size with
    | .refused => false
    | .vacant => false
    | _ => p.kind == 3 || p.kind == 4
  | .control => p.kind == 3 || p.kind == 4
  | .vacant => false

/-- Whether a request needs every other copy gone, and whose own copy may stay. -/
def needExcl (p : Pkt) : Bool := p.kind == 2 || p.kind == 4 || p.kind == 8 || (p.kind == 7 && p.op != 1)
def mayKeep (p : Pkt) : Option Nat := if p.kind == 1 || p.kind == 2 then some p.src else none

/-- Reader of a tracked request. -/
def pktReader (p : Pkt) : Reader := .tracker p.src p.xid

/-- The answer of a request, whose reads of the line are over. -/
def answerTrk (p : Pkt) (kind op data : Nat) (s : State) : State := finishTrk p kind op data (dropReads (pktReader p) s)

/-- The answer to a request of the line: the data f makes of what the home holds, poison where that is poison; while its read of
memory is awaited the request stays in its tracker, and is tried again at each boundary. -/
def answerLine (p : Pkt) (v : Seen) (f : Nat → Nat) (s : State) : State :=
  match v with
  | .data d false => answerTrk p 0x30 0 (f d) s
  | .wait => s
  | _ => answerTrk p 0x30 1 0 s

/-- A line that a CXL.mem port of this device holds is asked for there, once. -/
def askPort (p : Pkt) (line : Nat) (r : State × Seen) : State × Seen :=
  match r with
  | (s, .far) => (if s.outs.any fun o => o.origin == .tracker p.src p.xid then s
      else sendOut { xid := 0, dev := outDev s line, kind := 3, pa := line * 64, tag := p.tag, origin := .tracker p.src p.xid } s, .wait)
  | x => x

/-- The current contents of a line at its home for a tracked request. -/
def trkLine (p : Pkt) (line : Nat) (s : State) : State × Seen := askPort p line (currentLine (pktReader p) line p.tag s)

/-- The line as the home slice finds it for another device: in its array, else in memory. -/
def homeLine (p : Pkt) (n line : Nat) (excl : Bool) (s : State) : State × Seen :=
  let (s1, h) := lookup n line p.tag 100000 excl 0 s
  match h with
  | some (v, x) => (s1, .data v x)
  | none => trkLine p line s1

/-- A shared read: the device is added to the line's sharers. -/
def performShared (p : Pkt) (n line : Nat) (s : State) : State :=
  let (s1, v) := homeLine p n line false s
  let ds := ((fabDirOf s1 n line).map (·.devs)).getD []
  match v with
  | .data _ false => answerLine p v id (putFabDir n line { tag := p.tag, own := false, devs := (p.src :: ds).eraseDups } s1)
  | _ => answerLine p v id s1

/-- A read for ownership: the device becomes the line's owner, and the home's own copy goes, written back where it is dirty. -/
def performOwn (p : Pkt) (n line : Nat) (s : State) : State :=
  let (s1, v) := homeLine p n line true s
  match v with
  | .data d false =>
    let dirty := ((arrOf s1 n line).or (vicOf s1 n line)).any (·.dirty)
    let s2 := if dirty then writeBack .fabric p.tag line d false s1 else s1
    answerLine p v id (putFabDir n line { tag := p.tag, own := true, devs := [p.src] } (breakResv none line (dropArr n line s2)))
  | _ => answerLine p v id s1

/-- A write of all of a line, which needs nothing of it, or of part of it. -/
def performNc (p : Pkt) (line : Nat) (s : State) : State :=
  let o := p.pa % 64
  if p.be = 0 ∧ p.size = 64 then answerTrk p 0x20 0 0 (writeAtHome (pktReader p) line p.tag p.data s)
  else match trkLine p line s with
    | (s1, .data d false) => answerTrk p 0x20 0 0
        (writeAtHome (pktReader p) line p.tag (linePut d o p.size (mergeBytes (lineGet d o p.size) p.data p.be p.size)) s1)
    | (s1, .wait) => s1
    | (s1, _) => answerTrk p 0x20 0 0 s1

/-- The reservation that a device's LR takes at the line's home slice (R78). DESIGN CHOICE (log entry 43): a packet names its device and
no hart, so a device holds one reservation here. -/
def takeResv (src line : Nat) (s : State) : State :=
  modFab (fun f => { f with resvs := (src, line) :: f.resvs.filter fun e => e.1 != src }) s

/-- An atomic operation: performed at the home, and answered with what was there before; an SC, which is performed only under its
device's reservation, with 0 where it has stored and 1 where it has not. -/
def performAtomic (p : Pkt) (line : Nat) (s : State) : State :=
  let (s1, v) := trkLine p line s
  let o := p.pa % 64
  match v with
  | .data d false =>
    let old := lineGet d o p.size
    if p.op = 0 then answerLine p (.data old false) id (takeResv p.src line s1)
    else if p.op = 1 ∧ s1.fabric.resvs.contains (p.src, line) = false then answerLine p (.data 1 false) id s1
    else answerLine p (.data (if p.op = 1 then 0 else old) false) id
      (writeAtHome (pktReader p) line p.tag (linePut d o p.size (amoStore (amoOf p.op) p.size old p.data p.cmp)) s1)
  | _ => answerLine p v id s1

/-- An eviction notice: the device no longer holds the line. -/
def performEvict (p : Pkt) (n line : Nat) (s : State) : State :=
  answerTrk p 0x20 0 0 (match fabDirOf s n line with
    | some e => putFabDir n line { e with devs := e.devs.filter (· != p.src) } s
    | none => s)

/-- A cache-maintenance request: clean, flush, zero or invalidate. A clean or a flush ends once its data is in memory (R126). -/
def performMaint (p : Pkt) (n line : Nat) (s : State) : State :=
  let s1 := if p.op = 1 then cleanLine n line s else if p.op = 2 then flushLine n line s
    else if p.op = 4 then writeAtHome (pktReader p) line p.tag 0 (discardLine n line s) else discardLine n line s
  if (p.op = 1 ∨ p.op = 2) ∧ homeWaits s1 line then s1 else answerTrk p 0x20 0 0 s1

/-- The request is performed at the home slice and answered. A read that adds a holder first needs room in the directory for
other devices. -/
def performReq (p : Pkt) (s : State) : State :=
  let line := lineOf p.pa
  let n := homeSlice s p.tag line
  match p.kind with
  | 1 => let (s1, r) := fabRoom n line p.tag s; if r then performShared p n line s1 else s1
  | 2 => let (s1, r) := fabRoom n line p.tag s; if r then performOwn p n line s1 else s1
  | 3 => let (s1, v) := trkLine p line s; answerLine p v (fun d => lineGet d (p.pa % 64) p.size) s1
  | 4 => performNc p line s
  | 5 => answerTrk p 0x20 0 0 (writeBack (if p.removal then .removal else .fabric) p.tag line p.data p.poison s)
  | 6 => performEvict p n line s
  | 7 => performMaint p n line s
  | _ => performAtomic p line s

/-- A tracked request to what an address of group g's window names. A read that finds the port without a tag waits (Table 10.3). -/
def serveIo (g : Nat) (p : Pkt) (s : State) : IoAt → State
  | .signal _ x => if p.kind = 3 then finishTrk p 0x30 0 (freeVal (2 ^ 64) s) (freeNext s)
      else finishTrk p 0x20 0 0 (signalWrite g x p.size p.data s)
  | .page x => if p.kind = 3 then finishTrk p 0x30 0 (fixedRead s g x p.size) s
      else finishTrk p 0x20 0 0 (fixedWrite g x p.size p.data s)
  | .host a => toPort a s
  | _ => toPort p.pa s
where
  toPort (addr : Nat) (s : State) : State :=
    let o : Out := { xid := 0, dev := 64 + g, kind := p.kind, pa := addr, tag := p.tag, size := p.size, data := p.data }
    if p.kind ≠ 3 then finishTrk p 0x20 0 0 (sendOut o s)
    else if tagsFull s g o ∨ s.outs.any (fun x => x.origin == .tracker p.src p.xid) then s
    else sendOut { o with origin := .tracker p.src p.xid } s

/-- A tracked request to a line whose home slice is here: it comes after the operations and fills that are ahead of it (R125), and once
no copy elsewhere stands in its way. -/
def serveLine (p : Pkt) (s : State) : State :=
  let line := lineOf p.pa
  let n := homeSlice s p.tag line
  if p.kind = 5 ∨ p.kind = 6 then performReq p s
  else if lineBusy s p.tag line then countWait (pktReader p) p.tag line s
  else if wayClear s n line (needExcl p) (mayKeep p) then performReq p s
  else clearWay n line (needExcl p) (mayKeep p) s

/-- A tracked request to a region of this device. -/
def serveAt (p : Pkt) (s : State) : Region → State
  | .dram | .cxl => serveLine p s
  | .io g => serveIo g p s (ioAt s g p.tag p.pa p.size)
  | .control => -- another device's main core: refused here, and its core is not told (R28, R30)
    finishTrk p (if p.kind = 3 then 0x30 else 0x20) 0 0 (refuseWindow p.tag (offOf p.pa - 0x3FF000000000) s)
  | .vacant => s

/-- A tracked request goes on once no copy elsewhere stands in its way. -/
def serveTrk (p : Pkt) (s : State) : State := serveAt p s (regionOf (offOf p.pa))

/-- A packet whose tag is not granted to its sender is refused: recorded and counted (R253). -/
def refusePkt (src pa tag : Nat) (s : State) : State := bump fabEventsRefused 1 (refuseGranule 5 (portToward s src) pa tag s)

/-- A refused packet that is no request is answered by an Err, which names no transaction (R253; log entry 43). -/
def refuseAns (src pa tag : Nat) (s : State) : State :=
  sendPkt { dest := src, src := 0, kind := 0x20, op := 3, tag := tag, pa := pa } (refusePkt src pa tag s)

/-- A packet is accepted by its tag, or by the management marker (R253). -/
def admits (s : State) (p : Pkt) : Bool := granted s p.src p.tag || p.mgmt

/-- What the home cannot serve is refused; one that a port's checks refuse counts in its PORT_REFUSED too (R272, R281). -/
def refuseServe (p : Pkt) (s : State) : State :=
  let a := refuseGranule 5 (portToward s p.src) p.pa p.tag s
  match regionOf (offOf p.pa) with
  | .io g => if ioAt s g p.tag p.pa p.size = .refused then bump (portRefusedRefused (portBase g (portAt s g p.pa))) 1 a else a
  | .cxl => if decoded s (offOf p.pa) then
      let g := (offOf p.pa - 0x040000000000) / 0x040000000000
      bump (portRefusedRefused (portBase g (clampPort s g (hdmPort s g (offOf p.pa))))) 1 a else a
  | _ => a

/-- A request packet reaches its home: it takes a tracker, which keeps the answer, an error among them, until the completion Ack
(R244, R248). -/
def fabRequest (p : Pkt) (s : State) : State :=
  match trkOf s p.src p.xid with
  | some t => match t.resp with
    | some r => sendPkt r s
    | none => s
  | none =>
    if trackerFree s p.src = false then
      sendPkt (respPkt p 0x20 1 0) (modFab (fun f => { f with starved := f.starved ++ [(p.src, p.xid)] }) s)
    else
      let s1 := modFab (fun f => { f with trackers := f.trackers ++ [⟨p, none⟩] }) s
      if admits s p = false then finishTrk p 0x20 3 0 (refusePkt p.src p.pa p.tag s1)
      else if canServe s p = false then finishTrk p 0x20 3 0 (refuseServe p s1)
      else serveTrk p s1

/-- Requests that have not been answered and that a test names are tried again, oldest first. -/
def pumpTrks (f : Trk → Bool) (s : State) : State :=
  (s.fabric.trackers.filter fun t => t.resp.isNone && f t).foldl (fun a t =>
    if (trkOf a t.req.src t.req.xid).any fun x => x.resp.isNone then serveTrk t.req a else a) s

/-- Requests that wait for a line, then those that wait for room in its set of the directory for other devices, are tried again; then
the slice's own. -/
def pumpLine (line : Nat) (s : State) : State :=
  let set := fun (l : Nat) => Config.fabSet l % 4096
  let s1 := pumpTrks (fun t => lineOf t.req.pa != line && set (lineOf t.req.pa) == set line)
    (pumpTrks (fun t => lineOf t.req.pa == line) s)
  (presentSlices s1).foldl (fun a n => serveReady n 48 a) s1

/-! ## Snoops of this device (R250) -/

/-- This device has requested the line and not received it. -/
def requested (s : State) (line : Nat) : Bool :=
  s.outs.any fun o => (o.kind == 1 || o.kind == 2) && decide (o.dev < 64) && o.pa / 64 == line

def snoopIn (p : Pkt) (inv : Bool) (s : State) : State :=
  let line := lineOf p.pa
  let n := homeSlice s p.tag line
  let none' : Pkt := { dest := p.src, src := 0, kind := 0x21, tag := p.tag, pa := p.pa }
  if admits s p = false then sendPkt (errPkt p) (refusePkt p.src p.pa p.tag s)
  else if requested s line then sendPkt none' s
  else if heldByFrozen s n line true then snoopTrips n line true s  -- held until the drain gives the line up (Table 4.2); sent again
  else
    let s := readHeld n line s
    let d := (dirtyIn s line (((dirOf s n line).map (·.cores)).getD [])).or
      (((arrOf s n line).or (vicOf s n line)).bind fun l => if l.dirty then some (l.data, l.poison) else none)
    let r := sliceOf s n
    let s0 := setSlice n { r with owned := r.owned.filter (· != line) } s
    let s1 := if inv then discardLine n line s0
      else
        let a := (((dirOf s0 n line).map (·.cores)).getD []).foldl (fun b c => match l2Of b c line with
          | some l => putL2 c line { l with st := .s } b
          | none => b) s0
        let b := match dirOf a n line with | some e => putDir n line { e with excl := false } a | none => a
        let q := sliceOf b n
        let now := fun (l : SLine) => match d with
          | some (v, px) => { l with data := v, poison := px, dirty := false }
          | none => l
        putSlice n { q with lines := q.lines.map (fun e => if e.1 = line then (e.1, now e.2) else e),
                            victims := q.victims.map (fun e => if e.1 = line then (e.1, now e.2) else e) } b
    match d with
    | some (v, px) => sendPkt { none' with kind := 0x30, op := 2, data := v, poison := px } s1
    | none => sendPkt none' s1

/-- A snoop's answer reaches the home: with data, the line is written at its home. -/
def snoopAnswer (dev line : Nat) (d : Option (Nat × Bool)) (s : State) : State :=
  match s.fabric.snoops.find? fun q => q.dev == dev && q.line == line with
  | some q =>
    if granted s dev q.tag = false then refuseAns dev (line * 64) q.tag s
    else
    let n := homeSlice s q.tag line
    let s1 := modFab (fun f => { f with snoops := f.snoops.erase q }) s
    let s2 := match d with | some (v, p) => writeBack .fabric q.tag line v p (dropArr n line s1) | none => s1
    let s3 := match fabDirOf s2 n line with
      | some e => putFabDir n line (if q.inv then { e with devs := e.devs.filter (· != dev) } else { e with own := false }) s2
      | none => s2
    pumpLine line s3
  | none => s

/-- A snoop without an answer is sent again after 4 beats. -/
def snoopResend (dev line : Nat) (s : State) : State :=
  match s.fabric.snoops.find? fun q => q.dev == dev && q.line == line with
  | some q => if q.sent + 4 ≤ beat s then
      sendPkt { dest := dev, src := 0, kind := if q.inv then 0x10 else 0x11, tag := q.tag, pa := line * 64 }
        (modFab (fun f => { f with snoops := f.snoops.map fun x => if x = q then { x with sent := beat s } else x }) s)
    else s
  | none => s

/-! ## Answers to this device's requests (R248, R251, R252) -/

def outTo (s : State) (src xid : Nat) : Option Out := s.outs.find? fun o => o.xid == xid && o.dev == src

/-- The requester's completion Ack. -/
def sendAck (src xid : Nat) (s : State) : State := sendPkt { dest := src, src := 0, kind := 0x20, op := 4, xid := xid } s

/-- The answer to a request, when its tag is granted to the home. DESIGN CHOICE (log entry 43): an answer that is refused under R253
completes its request with an error. -/
def answered (src xid : Nat) (o : Out) (a : Ans) (s : State) : State :=
  sendAck src xid (if granted s src o.tag then takeAnswer o a s else takeAnswer o (.err 1) (refuseAns src o.pa o.tag s))

/-- Data, or poison: delivered once; a duplicate is only acknowledged again. -/
def dataIn (src xid : Nat) (a : Ans) (s : State) : State :=
  match outTo s src xid with
  | some o => if isRead o then answered src xid o a s else s
  | none => sendAck src xid s

/-- The end of a write, of a notice or of maintenance; or, at the home, the completion Ack, which carries tag 0: the tracker is free
and a waiting source is told. -/
def ackIn (src xid : Nat) (completion : Bool) (s : State) : State :=
  if completion then
    match trkOf s src xid with
    | some t => if granted s src 0 = false then refuseAns src t.req.pa 0 s
      else if t.resp.isSome then
        pumpLine (lineOf t.req.pa) (grantFreed 1 (modFab (fun f => { f with trackers := f.trackers.erase t }) s))
      else s
    | none => s
  else match outTo s src xid with
    | some o => if isRead o then s else answered src xid o (.data 0) s
    | none => sendAck src xid s

/-- Retry: the request waits for a Grant. -/
def retryIn (src xid : Nat) (s : State) : State :=
  match outTo s src xid with
  | some o => if granted s src o.tag then { s with outs := s.outs.map fun x => if x.xid = xid then { x with held := true } else x }
      else refuseAns src o.pa o.tag s
  | none => s

/-- Grant, which carries tag 0 (log entry 43): the request goes out again. -/
def grantIn (src xid : Nat) (s : State) : State :=
  match outTo s src xid with
  | some o => if granted s src 0 = false then refuseAns src o.pa 0 s
    else if o.held then
      sendPkt (outPkt o) { s with outs := s.outs.map fun x => if x.xid = xid then { x with held := false, sent := beat s } else x }
    else s
  | none => s

/-- A request completes with an error for want of a route or of an answer (R252), of a kind of Table 11.2: cause 19 on a main core, a
bus error of a DMA channel, Unsupported Request on a SerDes ingress (R26), and a visible record for its tenancy. -/
def outError (kind : Nat) (o : Out) (s : State) : State :=
  let s1 := bump fabEventsErrors 1 (takeAnswer o (.err kind) s)
  recVisible (nextSlice s) 5 (portToward s o.dev) 0x0502 [o.tag] o.pa [] (portToward s o.dev) [] s1

/-- The home has refused the request (R251), which completes with an error; the home recorded the refusal. A completion Ack frees its
tracker, also for a duplicate (R248). -/
def errIn (src xid : Nat) (s : State) : State :=
  match outTo s src xid with
  | some o => answered src xid o (.err 1) s
  | none => sendAck src xid s

/-- No response within the interval: the same request again, the interval doubled up to 1,024 beats. -/
def requestResend (xid : Nat) (s : State) : State :=
  match outOf s xid with
  | some o => if o.dev < 64 ∧ o.held = false ∧ o.sent + o.gap ≤ beat s then
      sendPkt (outPkt o) { s with outs := s.outs.map fun x =>
        if x.xid = xid then { x with sent := beat s, gap := min 1024 (2 * x.gap) } else x }
    else s
  | none => s

/-- 16,384 beats without a response, or no route to the home. -/
def requestError (xid : Nat) (s : State) : State :=
  match outOf s xid with
  | some o => if o.dev < 64 ∧ (o.first + 16384 ≤ beat s ∨ hasRoute s o.dev = false) then outError 4 o s else s
  | none => s

/-! ## Flits (R231, R245, R256) -/

/-- A packet that has reached its destination. DESIGN CHOICE (log entry 32): the eight data bytes of a Clerk-to-Clerk message
land at page offset 0x10 of page 258 (R31, R353). -/
def deliverPkt (p : Pkt) (s : State) : State :=
  if p.kind = 0x10 ∨ p.kind = 0x11 then snoopIn p (p.kind == 0x10) s
  else if p.kind = 0x20 then
    (if p.op = 0 then ackIn p.src p.xid false s else if p.op = 1 then retryIn p.src p.xid s
     else if p.op = 2 then grantIn p.src p.xid s else if p.op = 3 then errIn p.src p.xid s else ackIn p.src p.xid true s)
  else if p.kind = 0x21 then snoopAnswer p.src (lineOf p.pa) none s
  else if p.kind = 0x30 then
    (if p.op = 2 then snoopAnswer p.src (lineOf p.pa) (some (p.data, p.poison)) s
     else dataIn p.src p.xid (if p.op = 1 then .poison else .data p.data) s)
  else if p.kind = 0x40 then pageWrite 258 0x10 8 p.data s
  else fabRequest p s

/-- The acknowledged flits leave the retry buffer. -/
def ackFlits (k upTo : Nat) (s : State) : State :=
  modPort k (fun p => match p.retry.findIdx? fun f => f.seq == upTo with
    | some i => { p with retry := p.retry.drop (i + 1), again := 0 }
    | none => p) s

/-- The flits of the retry buffer go out again, each under a count of its own (R229). -/
def replayed (p : FabPort) : FabPort :=
  let out := p.retry.zipIdx.map fun (f, i) => { stampFlit p f with nak := p.nakDue && i == 0, credits := [], count := p.cntTx + i }
  { p with sent := p.sent ++ out, nakDue := p.nakDue && out.isEmpty, cntTx := p.cntTx + p.retry.length }

/-- A nak: the sender replays from its retry buffer; every replayed flit counts under the key. -/
def nakIn (k upTo : Nat) (s : State) : State :=
  if portUp s k then
    bump (fabPortRetryReplays k) 1 (modPort k (fun p => replayed { p with again := p.again + 1 }) (ackFlits k upTo s))
  else s

/-- A packet of a share that does not stand on this device goes on as ordinary traffic (R255, R257). -/
def asOrdinary (p : Pkt) (s : State) : State :=
  if p.dest = myId s then deliverPkt p s else routeOne { p with vc := pktVc p.kind } s

/-- A sealed flit carries packets of one tenancy between two ends: it leaves whole for the next link in its share's position, or
ends here (R256). -/
def sealedFlit (k : Nat) (f : Flit) (s : State) : State :=
  match f.pkts with
  | [] => s
  | p :: _ =>
    let l := f.pkts.filter fun x => x.tag == p.tag && x.src == p.src && x.dest == p.dest
    match s.fabric.segs.find? fun g => g.ten == p.tag && g.inP == k && g.a == p.src && g.d == p.dest with
    | some g => if g.outP = 6 then l.foldl (fun a x => deliverPkt x a) s
      else
        let q := (wheelPos s k g.wheel f.pos + wheelStep g.wheel) % g.wheel
        if g.pos.contains q then sendInShare g q l s else s
    | none => l.foldl (fun a x => asOrdinary x a) s

/-- A nak with the last sequence number in order, in an idle flit, at once; later flits are discarded until the replay arrives
(R231). -/
def sendNak (k : Nat) (s : State) : State := putFlit k { seq := 0, kind := 0, vc := 7 } (modPort k (fun p => { p with nak := true, nakDue := true }) s)

/-- A flit that cannot be read is discarded with a nak. DESIGN CHOICE (log entry 43): also while a replay is awaited, since it may be
the replayed flit itself; before the link is up nothing is replayed. -/
def badFlit (k : Nat) (s : State) : State := if portUp s k then sendNak k s else s

/-- A flit out of its order: one after a loss that has been answered, or a duplicate in a replay, is only discarded. -/
def misplacedFlit (k : Nat) (f : Flit) (s : State) : State :=
  if (fportOf s k).nak ∨ 2048 ≤ (f.seq + 4096 - (fportOf s k).seqRx) % 4096 then s else sendNak k s

/-- A packet of an epoch before the table in force is discarded, unless routers still route it by the table before (R247). -/
def expired (s : State) (p : Pkt) : Bool := decide (p.epoch < rd s fabIdEpoch) && (entryFor s p).isNone

/-- A Clerk-to-Clerk message that comes before the commit, on port k: the port is kept as the way back to the device that reports;
it ends here or goes on (R234). -/
def relayIn (k : Nat) (p : Pkt) (m : Msg) (s : State) : State :=
  let s1 := match m with
    | .joinReport r => modFab (fun f => { f with relay := tset 64 f.relay r.uid k }) s
    | _ => s
  if relayDone s p.dest m then deliverPkt p s1 else relayMsg { p with vc := 0 } m s1

/-- A packet of a flit that has come on port k: it ends here or goes on (R245). -/
def packetIn (k vc : Nat) (p : Pkt) (s : State) : State :=
  if expired s p then s
  else match (if s.fabric.table.isNone || !hasRoute s p.dest then p.msg else none) with
  | some m => relayIn k p m s
  | none => if p.dest = myId s then deliverPkt p s else routeOne { p with vc := vc } s

/-- Credits that a flit returns (Table 9.3). -/
def takeCredits (l : List Nat) (t : Table Nat) : Table Nat :=
  l.zipIdx.foldl (fun a (c, vc) => tset 0 a vc (tget 0 a vc + c)) t

/-- A flit that is in order: acknowledgement or nak, credits, packets. DESIGN CHOICE (log entry 43): the credit of a packet is owed back
as soon as the packet is taken out of its flit. -/
def flitTaken (k : Nat) (f : Flit) (s : State) : State :=
  let owes := f.kind == 1 && decide (f.vc < 6)
  let s1 := modPort k (fun p => { p with credits := takeCredits f.credits p.credits
                                         owed := if owes then tset 0 p.owed f.vc (tget 0 p.owed f.vc + f.pkts.length) else p.owed }) s
  let s2 := if f.nak then nakIn k f.ackSeq s1 else if f.ackValid then ackFlits k f.ackSeq s1 else s1
  let s3 := if f.kind = 1 then f.pkts.foldl (fun a p => packetIn k f.vc p a) s2 else if f.kind = 2 then sealedFlit k f s2 else s2
  pumpWaiting s3

/-- A flit: discarded when its codeword is uncorrectable, its tag or CRC fails, or it is out of order, and with it every later flit
(R231). Before the link is up only flits of kinds 0 and 5 travel, which are not sequenced (R230; log entry 43). -/
def flitReceived (k : Nat) (corrected uncorrectable tagOk : Bool) (f : Flit) (s : State) : State :=
  if portState5 s k = 4 ∨ (portState5 s k = 3 ∧ (f.kind = 0 ∨ f.kind = 5)) then
    let s0 := if corrected then bump (fabPortFecCorrected k) 1 s else s
    if uncorrectable then badFlit k (bump (fabPortFecUncorrectable k) 1 s0)
    else if tagOk = false then badFlit k (bump (fabPortRetryTagFail k) 1 s0)
    else if f.kind = 0 ∨ f.kind = 5 then (if (fportOf s k).nak then s0 else flitTaken k f s0)
    else if f.seq ≠ (fportOf s k).seqRx then misplacedFlit k f s0
    else flitTaken k f (modPort k (fun p => { p with nak := false, heard := true, seqRx := (p.seqRx + 1) % 4096, cntRx := p.cntRx + 1 }) s0)
  else s

/-! ## Sealed shares: messages and the command (R255) -/

/-- The command's result. -/
def shareResult (q : ShareReq) (o hops b : Nat) (rel : Bool) : Bytes :=
  mkBytes [(0, 2, q.share.ten), (2, 1, q.share.d), (3, 1, q.share.k), (4, 1, rel.toNat), (5, 1, o), (6, 1, hops), (8, 8, b)]

def finishShare (q : ShareReq) (o b : Nat) (s : State) : State :=
  stageDone q.mbx q.clamped (shareResult q o q.hops b false) (modFab (fun f => { f with outCmd := none }) s)

/-- A member other than this device, nearest to a value. -/
def clampMember (s : State) (v : Nat) : Nat :=
  let l := s.fabric.admitted
  if l.contains v then v
  else ((l.mergeSort fun a b => decide ((if a ≤ v then v - a else a - v) < (if b ≤ v then v - b else b - v)) ||
    ((if a ≤ v then v - a else a - v) == (if b ≤ v then v - b else b - v) && decide (a ≤ b))).head?).getD (min 63 v)

def fabricShare (i : Nat) (c : Bytes) (s : State) : State :=
  let t := clampR 1 256 (arg c 0 2)
  let d := clampMember s (arg c 2 1)
  let k := clampR 1 32 (arg c 3 1)
  let rel := clampEnum 2 0 (arg c 4 1)
  let cl := chg (arg c 0 2) t + chg (arg c 2 1) d + chg (arg c 3 1) k + chg (arg c 4 1) rel
  let q : ShareReq := { mbx := i, share := { ten := t, a := myId s, d := d, k := k }, clamped := cl,
                        hops := (pathOf s (myId s) d).length }
  let fin := fun o => stageDone i cl (shareResult q o q.hops 0 (rel == 1)) s
  let has := (sharesHere s t).find? fun h => h.a == d || h.d == d
  if rel = 1 then
    match has with
    | some h => addStep i (beat s + 1) (.stage i cl (shareResult q 1 q.hops (beat s + 1) true))
        (addStep i (beat s + 1) (.shareOff h) s)
    | none => fin 5
  else if isSealed s t = false then fin 2
  else if hasRoute s d = false ∨ d = myId s then fin 4
  else if 8 ≤ (sharesHere s t).length then fin 6
  else sendMsg d (.sealQuery t false false) (modFab (fun f => { f with outCmd := some q }) s)

/-- The captain places a share, and the command then waits for its path devices; none where no position fits. -/
def placeFor (q : ShareReq) (s : State) : State × Option ShareReq :=
  match placeShare s q.share with
  | some (u, segs) =>
    (sendSegs segs (modFab (fun f => { f with lanesOf := u, book := f.book ++ [q.share] }) s),
      some { q with sealedAt := some true, awaited := (segs.map (·.1)).filter (· != myId s) })
  | none => (s, none)

/-- An endpoint answers whether the tenancy is sealed there; the answer lets the captain place the share. -/
def sealQuery (dev t : Nat) (reply isSealed' : Bool) (s : State) : State :=
  if reply = false then sendMsg dev (.sealQuery t true (isSealed s t)) s
  else match s.fabric.outCmd with
    | some q =>
      if q.share.d = dev ∧ q.share.ten = t ∧ q.sealedAt.isNone then
        if isSealed' = false then finishShare q 2 0 s
        else if dirWaysLeft s t = false then finishShare q 3 0 s
        else if rdB s fabIdCaptain then
          let (s1, r) := placeFor q s
          match r with
          | some q1 => modFab (fun f => { f with outCmd := some q1 }) s1
          | none => finishShare q 3 0 s1
        else askPlace q.share (modFab (fun f => { f with outCmd := some { q with sealedAt := some true } }) s)
      else s
    | none => s

/-- What stands against a device's part of a share, as an outcome of Table 9.22 (R255): a position taken, the limit of the link's
direction; at an end, the tenancy not sealed, eight shares held, or no way of the directory left. -/
def placeRefused (s : State) (g : ShareSeg) : Nat :=
  let s := dropSegsIf (fun x => x.ten == g.ten && x.a == g.a && x.d == g.d) s
  let clash := decide (g.outP < 6) && g.pos.any fun q => tget 0 (fportOf s g.outP).held (flitPos s g.outP g.wheel q) != 0
  let full := decide (g.outP < 6) &&
    decide ((if rd s (fabPortStatusWidth g.outP) = 1 then 128 else 256) < (fportOf s g.outP).held.length + g.pos.length)
  let others := (sharesHere s g.ten).filter fun h => keyOfShare h != shareKey g.ten g.a g.d
  if (g.outP = 6 ∨ g.inP = 6) ∧ isSealed s g.ten = false then 2
  else if (g.outP = 6 ∨ g.inP = 6) ∧ 8 ≤ others.length then 6
  else if clash ∨ full ∨ ((g.outP = 6 ∨ g.inP = 6) ∧ others.length = (sharesHere s g.ten).length ∧ dirWaysLeft s g.ten = false) then 3
  else 0

/-- A path device reserves the positions and 2 flit buffers, and answers. -/
def placeHere (cap : Nat) (g : ShareSeg) (s : State) : State :=
  let o := placeRefused s g
  sendMsg cap (.shareAck g.ten (if g.a = cap then g.d else g.a) o) (if o = 0 then putSeg g s else s)

/-- The share that a segment or a request is of. -/
def shareOf (g : ShareSeg) : Share := { ten := g.ten, a := g.a, d := g.d, k := g.pos.length }

/-- An end learns the boundary, in the captain's numbering, at which a share takes effect (R255), the next one where that has passed;
the command that asked for it answers there. -/
def shareFrom (h : Share) (b : Nat) (s : State) : State :=
  let b' := max (beat s + 1) (b + rd s clkFabBeatOffsetOffset)
  let s1 := addDue b' 5 (.shareOn h []) s
  match s.fabric.outCmd with
  | some q => if keyOfShare q.share = keyOfShare h then
      addDue b' 9 (.stage q.mbx q.clamped (shareResult q 0 q.hops b' false)) (modFab (fun f => { f with outCmd := none }) s1)
    else s1
  | none => s1

/-- The captain names the boundary at which a share takes effect, and tells both ends; how far ahead, the spec leaves open
(R255). -/
def nameStart (h : Share) (s : State) : State :=
  let b := capBeatNow s + 1 + freeVal 4000 s
  [h.a, h.d].foldl (fun a e => if e = myId s then shareFrom h b a
    else sendMsg e (.sharePlace { ten := h.ten, a := h.a, d := h.d, inP := 7, outP := 7, wheel := 820, pos := List.range h.k, start := b }) a)
    (freeNext s)

/-- A member asks the captain to place a share (log entry 43). -/
def placeAsked (g : ShareSeg) (s : State) : State :=
  let (s1, r) := placeFor { mbx := 260, share := shareOf g } s
  match r with
  | some q => modFab (fun f => { f with placing := f.placing ++ [q] }) s1
  | none => sendMsg g.a (.shareAck g.ten g.d 3) s1

/-- SHARE_PLACE: a device's part, a release, the boundary at which a share takes effect, or at the captain an end's request. -/
def sharePlace (cap : Nat) (g : ShareSeg) (s : State) : State :=
  if g.inP = 7 then
    if g.pos = [] then dropSegs g.ten g.a g.d s
    else if g.start ≠ 0 then shareFrom (shareOf g) g.start s
    else if rdB s fabIdCaptain then placeAsked g s else s
  else placeHere cap g s

/-- One outcome reaches the command that waits for it; a device answers for each direction it lies on. -/
def ackShare (dev o : Nat) (q : ShareReq) : ShareReq :=
  { q with awaited := q.awaited.erase dev, outcome := if q.outcome = 0 then o else q.outcome }

/-- The outcomes of this device's own command are all there. -/
def ownPlaced (q : ShareReq) (s : State) : State :=
  if q.outcome ≠ 0 then finishShare q q.outcome 0 (if rdB s fabIdCaptain then freeLanes q.share.ten q.share.a q.share.d s else s)
  else if rdB s fabIdCaptain then nameStart q.share s else s

/-- The outcomes of another member's share, or of one placed again, are all there: it takes effect, or its end is told why not. -/
def otherPlaced (q : ShareReq) (s : State) : State :=
  let s1 := modFab (fun f => { f with placing := f.placing.filter fun x => keyOfShare x.share != keyOfShare q.share }) s
  if q.outcome = 0 then nameStart q.share s1
  else sendMsg q.share.a (.shareAck q.share.ten q.share.d q.outcome) (freeLanes q.share.ten q.share.a q.share.d s1)

/-- A share whose end says that it has been released (R256). -/
def shareReleased (dev t peer : Nat) (s : State) : State :=
  let s1 := if rdB s fabIdCaptain then freeLanes t dev peer s else s
  match s.fabric.shares.find? fun h => keyOfShare h == shareKey t dev peer && peer == myId s with
  | some h => addDue (beat s + 1) 5 (.shareOff h) s1
  | none => s1

/-- An outcome that is not for a command of this device: of a share another member has asked for, or for an end of one that stands. -/
def shareAckOther (dev t peer outcome : Nat) (s : State) : State :=
  match s.fabric.placing.find? fun q => q.share.ten == t && (q.share.d == peer || q.share.a == peer) && q.awaited.contains dev with
  | some q =>
    let q1 := ackShare dev outcome q
    if q1.awaited.isEmpty then otherPlaced q1 s
    else modFab (fun f => { f with placing := f.placing.map fun x => if x = q then q1 else x }) s
  | none => match s.fabric.shares.find? fun h => keyOfShare h == shareKey t (myId s) peer with
    | some h => if outcome = 3 ∧ h.placed = false then unplacedHere h s else s
    | none => s

/-- The outcomes reach the captain; with all of them it names the boundary at which the share takes effect. Outcome 1 is a release;
outcome 3 for a share that stands means that no position fits it now. -/
def shareAck (dev t peer outcome : Nat) (s : State) : State :=
  if outcome = 1 then shareReleased dev t peer s
  else match s.fabric.outCmd with
    | some q =>
      if q.share.ten = t ∧ q.share.d = peer ∧ q.sealedAt = some true then
        let q1 := ackShare dev outcome q
        if q1.awaited.isEmpty then ownPlaced q1 s else modFab (fun f => { f with outCmd := some q1 }) s
      else shareAckOther dev t peer outcome s
    | none => shareAckOther dev t peer outcome s

def shareOn (h : Share) (s : State) : State :=
  modFab (fun f => { f with shares := f.shares.filter (fun x => keyOfShare x != keyOfShare h) ++ [h] }) s

def shareOff (h : Share) (s : State) : State := if s.fabric.shares.contains h then endShare h s else s

/-! ## fabric.status, fabric.route, fabric.port, fabric.grant (R264) -/

def fabricStatus (i : Nat) (_ : Bytes) (s : State) : State :=
  stageDone i 0 (mkBytes [(0, 1, myId s), (1, 1, rd s fabStateState), (2, 1, rd s fabStateHops),
    (3, 1, rd s fabStateBankReady + 2 * rd s fabStateIsolated + 4 * rd s clkStatusFabAligned), (4, 4, rd s fabIdEpoch),
    (8, 8, rd s fabCaptainUidUid), (0x10, 8, rd s fabMembersMembers), (0x18, 8, rd s fabReachReach),
    (0x20, 4, rd s fabStateConvergeBeats)]) s

def fabricRoute (i : Nat) (c : Bytes) (s : State) : State :=
  let d := min 63 (arg c 0 1)
  stageDone i (chg (arg c 0 1) d) (mkBytes [(0, 1, d), (8, 8, rd s (fabRouteEntry d))]) s

/-- Nearest present port of a value beyond the numbering. -/
def fabPortResult (k action outcome : Nat) (s : State) : Bytes :=
  mkBytes [(0, 1, k), (1, 1, action), (2, 1, outcome), (3, 1, portState5 s k),
    (4, 1, if rdB s (fabPortStatusNbValid k) then rd s (fabPortStatusNbId k) else 0xFF),
    (5, 1, if rdB s (fabPortStatusWidth k) then 4 else 8), (8, 4, rd s (fabPortDelayDelayPs k)), (0xC, 4, rd s (fabPortRetryReplays k))]

def fabricPort (i : Nat) (c : Bytes) (s : State) : State :=
  let k := clampUnit 6 (fabPortPresent s) (arg c 0 1)
  let a := clampEnum 3 0 (arg c 1 1)
  let cl := chg (arg c 0 1) k + chg (arg c 1 1) a
  let already := (a = 1 ∧ (fportOf s k).oos) ∨ (a = 2 ∧ (fportOf s k).oos = false)
  if a = 0 ∨ already then stageDone i cl (fabPortResult k a (if a ≠ 0 then 1 else 0) s) s
  else addStep i (beat s + 1) (.fabPort i k a) s

/-- The port leaves or returns to service; the result shows the state after it. -/
def fabPortApply (i k a : Nat) (s : State) : State :=
  let c := (mbxOf s i).copy
  let s1 := if a = 1 then
      showIsolated (modPort k (fun p => { p with oos := true }) (wr (fabPortStatusState k) 7 (linkFailed k 7 s)))
    else bringUp k (modPort k (fun p => { p with oos := false }) s)
  stageDone i (chg (arg c 0 1) k + chg (arg c 1 1) a) (fabPortResult k a 0 s1) s1

def fabricGrant (i : Nat) (c : Bytes) (s : State) : State :=
  let d0 := min 63 (arg c 0 1)
  let d := if d0 = myId s then (if d0 = 63 then 62 else d0 + 1) else d0
  let t := min 256 (arg c 2 2)
  let al := clampEnum 2 0 (arg c 4 1)
  stageDone i (chg (arg c 0 1) d + chg (arg c 2 2) t + chg (arg c 4 1) al) (mkBytes [(0, 1, d), (2, 2, t), (4, 1, al)])
    (addDue (beat s + 1) 5 (.fabGrant d t (al == 1)) s)

/-- A grant takes effect; one for a device that is not yet a member is kept. -/
def fabGrantApply (d t : Nat) (allow : Bool) (s : State) : State :=
  if s.fabric.admitted.contains d then grantBit d t allow s
  else modFab (fun f => { f with kept := tset 0 f.kept (d * 257 + t) allow.toNat }) s

/-! ## Meanings -/

/-- LINK_STAGE_DONE (R230, R238, R239). -/
def execLinkStageDone (k : Nat) (s : State) : Host.Outcome State Fault Refusal := .next (stageDone5 k s)
/-- LINK_STAGE_TIMEOUT (R230). -/
def execLinkStageTimeout (k : Nat) (failed : Bool) (s : State) : Host.Outcome State Fault Refusal := .next (stageTimeout5 k failed s)
/-- LINK_RETRY_TIMER (R230). -/
def execLinkRetryTimer (k : Nat) (s : State) : Host.Outcome State Fault Refusal := .next (retryTimer5 k s)
/-- LINK_REKEY (R230). -/
def execLinkRekey (k : Nat) (rx : Bool) (s : State) : Host.Outcome State Fault Refusal := .next (linkRekey k rx s)
/-- KEYING_FLIT (R230). -/
def execKeyingFlit (k step : Nat) (ok : Bool) (s : State) : Host.Outcome State Fault Refusal := .next (keyingFlit k step ok s)
/-- FLIT_RECEIVED (R231, R245, R256). -/
def execFlitReceived (k : Nat) (corrected uncorrectable tagOk : Bool) (f : Flit) (s : State) : Host.Outcome State Fault Refusal :=
  .next (flitReceived k corrected uncorrectable tagOk f s)
/-- NAK_RECEIVED (R231). -/
def execNakReceived (k ackSeq : Nat) (s : State) : Host.Outcome State Fault Refusal := .next (nakIn k ackSeq s)
/-- REPLAY_LIMIT (R233). -/
def execReplayLimit (k : Nat) (s : State) : Host.Outcome State Fault Refusal :=
  .next (if 8 ≤ (fportOf s k).again then linkFailed k 6 s else s)
/-- BLOCK_LOCK_LOSS (R233). -/
def execBlockLockLoss (k ns : Nat) (s : State) : Host.Outcome State Fault Refusal := .next (if 100 ≤ ns then linkFailed k 6 s else s)
/-- CODEWORD_TIMEOUT (R233). -/
def execCodewordTimeout (k ns : Nat) (s : State) : Host.Outcome State Fault Refusal := .next (if 200 ≤ ns then linkFailed k 6 s else s)
/-- HELLO_TIMEOUT (R233). -/
def execHelloTimeout (k : Nat) (s : State) : Host.Outcome State Fault Refusal :=
  .next (if 4 ≤ (fportOf s k).quiet then linkFailed k 6 s else s)
/-- FABRIC_LANE_FAILURE (R232). -/
def execFabricLaneFailure (k lane : Nat) (s : State) : Host.Outcome State Fault Refusal := .next (laneFailure5 k lane s)
/-- FABRIC_RETRAIN_DONE (R232). -/
def execFabricRetrainDone (k : Nat) (s : State) : Host.Outcome State Fault Refusal := .next (retrainDone5 k s)
/-- HELLO (R228, R234, R235, R237). -/
def execHello (k : Nat) (h : HelloMsg) (s : State) : Host.Outcome State Fault Refusal := .next (hello k h s)
/-- CAPTAIN_SETTLE (R235, R239). -/
def execCaptainSettle (s : State) : Host.Outcome State Fault Refusal := .next (captainSettle s)
/-- LINK_STATE_NOTICE (R257). -/
def execLinkStateNotice (k dev port boundary : Nat) (s : State) : Host.Outcome State Fault Refusal := .next (linkNotice k dev port boundary s)
/-- FAILURE_BANK_SWITCH (R257). -/
def execFailureBankSwitch (s : State) : Host.Outcome State Fault Refusal := .next (bankSwitch s)
/-- FAILURE_BANK_READY (R243). -/
def execFailureBankReady (s : State) : Host.Outcome State Fault Refusal := .next (bankReady s)
/-- ROUTE_TABLES_COMPUTED (R236, R240, R241). -/
def execRouteTablesComputed (s : State) : Host.Outcome State Fault Refusal := .next (routesComputed s)
/-- JOIN_REPORT (R236). -/
def execJoinReport (r : JoinRec) (s : State) : Host.Outcome State Fault Refusal := .next (joinReport r s)
/-- TABLES (R242, R25). -/
def execTables (t : TablesMsg) (s : State) : Host.Outcome State Fault Refusal := .next (tablesIn t s)
/-- TABLES_ACK (R242). -/
def execTablesAck (dev epoch digest : Nat) (s : State) : Host.Outcome State Fault Refusal := .next (tablesAck dev epoch digest s)
/-- COMMIT (R242). -/
def execCommit (epoch boundary : Nat) (s : State) : Host.Outcome State Fault Refusal := .next (commitIn epoch boundary s)
/-- TABLE_SWITCH (R242, R247, R253, R255, R259). -/
def execTableSwitch (s : State) : Host.Outcome State Fault Refusal := .next (tableSwitch s)
/-- EPOCH_GRACE_END (R247). -/
def execEpochGraceEnd (s : State) : Host.Outcome State Fault Refusal := .next (graceEnd s)
/-- SHARE_PLACE (R255). -/
def execSharePlace (captain : Nat) (g : ShareSeg) (s : State) : Host.Outcome State Fault Refusal := .next (sharePlace captain g s)
/-- SHARE_ACK (R255, R256). -/
def execShareAck (dev ten peer outcome : Nat) (s : State) : Host.Outcome State Fault Refusal := .next (shareAck dev ten peer outcome s)
/-- SEAL_QUERY (R255). -/
def execSealQuery (dev ten : Nat) (reply isSealed : Bool) (s : State) : Host.Outcome State Fault Refusal :=
  .next (sealQuery dev ten reply isSealed s)
/-- BEAT_MARKER (R262). -/
def execBeatMarker (k tRx : Nat) (m : Marker) (s : State) : Host.Outcome State Fault Refusal :=
  .next (beatMarker k tRx m s)
/-- MARKER_LOSS (R43, R260). -/
def execMarkerLoss (s : State) : Host.Outcome State Fault Refusal := .next (markerLoss s)
/-- CAPTAIN_UNREACHABLE (R260). -/
def execCaptainUnreachable (s : State) : Host.Outcome State Fault Refusal := .next (captainUnreachable s)
/-- MEMBER_UNREACHABLE (R259). -/
def execMemberUnreachable (dev : Nat) (s : State) : Host.Outcome State Fault Refusal := .next (memberUnreachable dev s)
/-- SLICE_FILL (R120, R125): requests of other devices that wait for the line go on. -/
def execSliceFill (slice line : Nat) (s : State) : Host.Outcome State Fault Refusal := .next (pumpLine line (sliceFill slice line s))
/-- MAINTENANCE_COMPLETE (R125, R126). -/
def execMaintenanceComplete (slice line : Nat) (s : State) : Host.Outcome State Fault Refusal :=
  .next (pumpLine line (maintComplete slice line s))
/-- RD_SHARED (R249, R250). -/
def execRdShared (p : Pkt) (s : State) : Host.Outcome State Fault Refusal := .next (fabRequest { p with kind := 1 } s)
/-- RD_OWN (R249, R250). -/
def execRdOwn (p : Pkt) (s : State) : Host.Outcome State Fault Refusal := .next (fabRequest { p with kind := 2 } s)
/-- RD_NC (R249). -/
def execRdNc (p : Pkt) (s : State) : Host.Outcome State Fault Refusal := .next (fabRequest { p with kind := 3 } s)
/-- WR_NC (R249). -/
def execWrNc (p : Pkt) (s : State) : Host.Outcome State Fault Refusal := .next (fabRequest { p with kind := 4 } s)
/-- WR_LINE (R248). -/
def execWrLine (p : Pkt) (s : State) : Host.Outcome State Fault Refusal := .next (fabRequest { p with kind := 5 } s)
/-- EVICT (R249). -/
def execEvict (p : Pkt) (s : State) : Host.Outcome State Fault Refusal := .next (fabRequest { p with kind := 6 } s)
/-- MAINT (R250). -/
def execMaint (p : Pkt) (s : State) : Host.Outcome State Fault Refusal := .next (fabRequest { p with kind := 7 } s)
/-- ATOMIC (R249). -/
def execAtomic (p : Pkt) (s : State) : Host.Outcome State Fault Refusal := .next (fabRequest { p with kind := 8 } s)
/-- SNP_INV (R250). -/
def execSnpInv (p : Pkt) (s : State) : Host.Outcome State Fault Refusal := .next (snoopIn p true s)
/-- SNP_SHARE (R250). -/
def execSnpShare (p : Pkt) (s : State) : Host.Outcome State Fault Refusal := .next (snoopIn p false s)
/-- ACK (R248). -/
def execAck (src xid : Nat) (completion : Bool) (s : State) : Host.Outcome State Fault Refusal := .next (ackIn src xid completion s)
/-- RETRY (R244). -/
def execRetry (src xid : Nat) (s : State) : Host.Outcome State Fault Refusal := .next (retryIn src xid s)
/-- GRANT (R244). -/
def execGrant (src xid : Nat) (s : State) : Host.Outcome State Fault Refusal := .next (grantIn src xid s)
/-- ERR (R252). -/
def execErr (src xid : Nat) (s : State) : Host.Outcome State Fault Refusal := .next (errIn src xid s)
/-- SNP_RSP (R250). -/
def execSnpRsp (src line : Nat) (s : State) : Host.Outcome State Fault Refusal := .next (snoopAnswer src line none s)
/-- DATA (R248). -/
def execData (src xid data : Nat) (s : State) : Host.Outcome State Fault Refusal := .next (dataIn src xid (.data data) s)
/-- POISON_DATA (R251). -/
def execPoisonData (src xid : Nat) (s : State) : Host.Outcome State Fault Refusal := .next (dataIn src xid .poison s)
/-- SNP_DATA (R250). -/
def execSnpData (src line data : Nat) (poison : Bool) (s : State) : Host.Outcome State Fault Refusal :=
  .next (snoopAnswer src line (some (data, poison)) s)
/-- REQUEST_RESEND_TIMEOUT (R248). -/
def execRequestResendTimeout (xid : Nat) (s : State) : Host.Outcome State Fault Refusal := .next (requestResend xid s)
/-- SNOOP_RESEND_TIMEOUT (R248). -/
def execSnoopResendTimeout (dev line : Nat) (s : State) : Host.Outcome State Fault Refusal := .next (snoopResend dev line s)
/-- REQUEST_ERROR_TIMEOUT (R248, R252). -/
def execRequestErrorTimeout (xid : Nat) (s : State) : Host.Outcome State Fault Refusal := .next (requestError xid s)
/-- FABRIC_STATUS (R264). -/
def execFabricStatus (mbx : Nat) (s : State) : Host.Outcome State Fault Refusal := .next (onCmd mbx 0x0701 (fabricStatus mbx) s)
/-- FABRIC_ROUTE (R264). -/
def execFabricRoute (mbx : Nat) (s : State) : Host.Outcome State Fault Refusal := .next (onCmd mbx 0x0702 (fabricRoute mbx) s)
/-- FABRIC_PORT (R233, R264). -/
def execFabricPort (mbx : Nat) (s : State) : Host.Outcome State Fault Refusal := .next (onCmd mbx 0x0703 (fabricPort mbx) s)
/-- FABRIC_GRANT (R253, R264). -/
def execFabricGrant (mbx : Nat) (s : State) : Host.Outcome State Fault Refusal := .next (onCmd mbx 0x0704 (fabricGrant mbx) s)
/-- FABRIC_SHARE (R255, R264). -/
def execFabricShare (mbx : Nat) (s : State) : Host.Outcome State Fault Refusal := .next (onCmd mbx 0x0705 (fabricShare mbx) s)

end Sys2Proof.Machine
end

