-- ==== Sys2Proof/Machine/MainCore.lean ====
section
/-! DEFINITION. Machine/MainCore.lean: what a main core's loads, stores, atomics and cache-block operations do, and its
accesses to the control window and the mailbox pages (R20 to R31, R59, R60, R66 to R73, R77, R78, R205, R277, R280). -/
namespace Sys2Proof.Machine

/-! ## Registers as words -/

/-- The 64-bit register at an offset: its fields, reserved bits 0, write-only fields 0 (R13, R15); 0 for an absent
unit (R8). -/
def regRead (s : State) (off : Nat) : Nat :=
  if offAbsent s off then 0
  else (fieldsAt off).foldl (fun v f => if f.acc = .wo then v else v + rd s f * 2 ^ f.lo) 0

/-- A 4- or 8-byte part of the register that holds an offset. -/
def regPart (s : State) (off size : Nat) : Nat := regRead s (off / 8 * 8) / 256 ^ (off % 8) % 256 ^ size

/-- A read of a segment of configuration space: its PORT_ registers, and else the function's own dwords; 0 for an absent group. -/
def ecamRead (s : State) (off size : Nat) : Nat :=
  let g := (off - 0x80000000) / 0x10000000
  let dword := fun (a : Nat) =>
    let x := (a - 0x80000000) % 0x10000000
    if fieldsAt a ≠ [] ∧ cfgPresent s g (x / 4096) then regRead s a else cfgDword s g (x / 4096) (x % 4096)
  if groupPresent s g = false then 0
  else (dword (off / 4 * 4) + dword (off / 4 * 4 + 4) * 2 ^ 32) / 256 ^ (off % 4) % 256 ^ size

/-! ## Checks before an access (R25, R72, R73, Table 3.9) -/

/-- A device's range is routed by the cores' PMA checkers (R25): this device's own, or a member's. -/
def rangeKnown (s : State) (d : Nat) : Bool := d == myId s || inMask s.fabric.pma d

/-- An offset lies in one of the ranges, base and size. -/
def inRanges (l : List (Nat × Nat)) (off : Nat) : Bool := l.any fun e => decide (e.1 ≤ off) && decide (off < e.1 + e.2)

/-- Something stands behind the address: the populated map, a decoded range, a port or region of a window (R25). -/
def populated (s : State) (pa : Nat) : Bool :=
  let off := offOf pa
  if homeOf pa = myId s then
    match regionOf off with
    | .dram => (coord s off).isSome
    | .cxl => decoded s off
    | .io g => (groupPresent s g || decide (fixedBase ≤ off - winBase g)) && ioAt s g 0 pa 4 != .vacant
    | .control => true
    | .vacant => false
  else rangeKnown s (homeOf pa) &&
    match regionOf off with
    | .dram => inRanges (tget {} s.fabric.extents (homeOf pa)).dram off
    | .cxl | .io _ => inRanges (tget {} s.fabric.extents (homeOf pa)).wins off
    | .control => true
    | .vacant => false

/-- Main memory that is cacheable for this access (R59, R78). -/
def isMain (pa : Nat) : Bool :=
  match regionOf (offOf pa) with
  | .dram | .cxl => true
  | _ => false

/-- An access is not cached: its page is of type NC or IO, or the core bypasses its caches. -/
def byPage (s : State) (h pbmt : Nat) : Bool := pbmt != 0 || rdB s (dzcachectlDbypass h)
def bypassed (s : State) (h : Nat) (a : MemAcc) : Bool := byPage s h a.pbmt

/-- Events that the access has met (Table 3.11). -/
def noteCodes (h : Nat) (cs : List Nat) (s : State) : State :=
  let r := hartOf s h
  setHart h { r with access := r.access.map fun x => { x with codes := (x.codes ++ cs).eraseDups } } s

/-- An entry joins a structure of n places; with all in use one leaves that the spec leaves open, chosen by k. -/
def joinPlaces {α : Type} [BEq α] (n k : Nat) (x : α) (l : List α) : List α :=
  if l.contains x then l else if l.length < n then x :: l else x :: l.eraseIdx (k % n)

/-- Mode in which a hart's loads and stores are translated and checked: in machine mode with mstatus.MPRV (bit 17) the one that MPP
(bits 12:11) and MPV (bit 39) name (the privileged architecture). -/
def dataMode (s : State) (h : Nat) : Priv :=
  let st := csrOf s h 0x300
  if (hartOf s h).priv = .m ∧ inMask st 17 then
    match st / 2 ^ 11 % 4, inMask st 39 with
    | 3, _ => .m
    | 0, v => if v then .vu else .u
    | _, v => if v then .vs else .s
  else (hartOf s h).priv

/-- The address space of a mode's translations: ASID, with VMID in a guest. -/
def spaceOf (s : State) (h : Nat) (p : Priv) : Nat :=
  if inGuest p then 2 ^ 32 + csrOf s h 0x680 / 2 ^ 44 % 2 ^ 14 * 2 ^ 16 + csrOf s h 0x280 / 2 ^ 44 % 2 ^ 16
  else csrOf s h 0x180 / 2 ^ 44 % 2 ^ 16

/-- A page of size 2^k as the TLBs hold it, under its address space. -/
def pageKey (s : State) (h : Nat) (p : Priv) (va k : Nat) : Nat := va / 2 ^ k + 2 ^ 52 * (spaceOf s h p + 2 ^ 40 * k)

/-- The entry of the L1 DTLB that an access uses: its page, of 4 KB, of 64 KB under Svnapot (R55) or of a larger leaf; machine mode is
not translated. -/
def tlbEntry (s : State) (h : Nat) (a : MemAcc) : Option (Nat × Nat) :=
  if dataMode s h = .m then none else some (pageKey s h (dataMode s h) a.va a.page, a.pa / 2 ^ a.page)

/-- The entry of the L1 ITLB that an instruction uses. -/
def fetchEntry (s : State) (h : Nat) (a : MemAcc) : Option Nat :=
  if (hartOf s h).priv = .m then none else some (pageKey s h (hartOf s h).priv a.pc 12)

/-- A data translation is held by a core's TLBs, and its upper levels by the page-walk caches. -/
def holdData (k walk : Nat) (e : Option (Nat × Nat)) (c : Core) : Core :=
  match e with
  | some x => { c with dtlb := joinPlaces 96 k x c.dtlb, l2tlb := joinPlaces 4096 k x c.l2tlb,
                       walks := if c.l2tlb.contains x then c.walks else joinPlaces 64 k walk c.walks }
  | none => c

/-- An instruction's translation is held by a core's L1 ITLB. -/
def holdFetch (k : Nat) (e : Option Nat) (c : Core) : Core :=
  match e with
  | some x => { c with itlb := joinPlaces 64 k x c.itlb }
  | none => c

/-- Translations of an instruction and of its access, below machine mode: the TLBs and the page-walk caches of the core take them
(Table 3.3), and the misses of the first level are noted (0x0016, 0x0017). -/
def translate (h : Nat) (a : MemAcc) (s : State) : State :=
  match coreOfHart s h with
  | some core =>
    let c := coreOf s core
    let k := Config.freeNat s.freeCtr
    let d := tlbEntry s h a
    let i := fetchEntry s h a
    freeNext (noteCodes h ((if d.any fun e => !c.dtlb.contains e then [0x0016] else []) ++ (if i.any fun e => !c.itlb.contains e then [0x0017] else []))
      (setCore core (holdFetch k i (holdData k (pageKey s h (dataMode s h) a.va 21) d c)) s))
  | none => s

/-- Events that belong to the access itself: misaligned, the last element of a vector instruction, floating point. -/
def ownCodes (a : MemAcc) (fp : Bool) : List Nat :=
  (if a.pa % a.size ≠ 0 then [0x0019] else []) ++ (if a.vector && !a.more then [0x001A] else []) ++ (if fp then [0x001B] else [])

/-- The access is presented: its pc is the hart's, and what an earlier attempt of it has met stays noted (R74). -/
def present (h : Nat) (a : MemAcc) (fp : Bool) (s : State) : State :=
  let r := hartOf s h
  let e := if a.vector then some a.elem else none
  noteCodes h (ownCodes a fp) (setHart h { r with
    pc := a.pc, access := some ⟨a.pc, e, ((r.access.filter fun x => x.pc == a.pc).map (·.codes)).getD [], a.early⟩ } s)

/-! ## PMP (Table 3.2: 64 entries with a grain of 4 KB; Smepmp as the privileged architecture states it, log entry 45) -/

/-- The range of PMP entry k, base and end: TOR from the entry below, NAPOT by the trailing ones of its address; the grain hides what is
below 4 KB. -/
def pmpRange (s : State) (h k : Nat) : Option (Nat × Nat) :=
  let a := csrOf s h (0x3B0 + k)
  let n := a ||| 511
  match pmpCfg s h k / 8 % 4 with
  | 1 => some (if k = 0 then 0 else csrOf s h (0x3AF + k) / 1024 * 4096, a / 1024 * 4096)
  | 3 => some ((n &&& (n + 1)) * 4, (n &&& (n + 1)) * 4 + ((n ^^^ (n + 1)) + 1) * 4)
  | _ => none

/-- What a matching entry lets data accesses do, to be read and to be written: without MML its R and W bits, which bind machine mode only
when it is locked; with MML the truth table of Smepmp. -/
def pmpGives (mml machine : Bool) (cfg : Nat) : Bool × Bool :=
  let l := decide (128 ≤ cfg)
  let r := inMask cfg 0
  let w := inMask cfg 1
  let x := inMask cfg 2
  if !mml then (if machine && !l then (true, true) else (r, w))
  else match l, r, w with
    | false, false, true => if machine then (true, true) else (true, x)
    | true, false, true => (machine && x, false)
    | true, true, true => if x then (true, false) else (machine, machine)
    | _, _, _ => if machine = l then (r, w) else (false, false)

/-- The PMP denies a data access of n bytes: the lowest entry that matches any byte decides and has to match all; with no match machine
mode may, unless MMWP is set, and no other mode. -/
def pmpDenies (s : State) (h pa n : Nat) (read write : Bool) : Bool :=
  let m := dataMode s h == .m
  let hit := (List.range 64).findSome? fun k => (pmpRange s h k).bind fun x =>
    if x.1 < pa + n ∧ pa < x.2 then some (k, decide (x.1 ≤ pa) && decide (pa + n ≤ x.2)) else none
  match hit with
  | some (k, whole) => !whole || (read && !(pmpGives (secBit s h 0) m (pmpCfg s h k)).1) || (write && !(pmpGives (secBit s h 0) m (pmpCfg s h k)).2)
  | none => !m || secBit s h 1

/-- Fault of the alignment and attribute rules for the part of an access at pa whose page has type pbmt (Table 3.9); `ls` is 4
for a load, 6 for a store, `ac` 5 or 7; an AMO, LR or SC as `amo`. DESIGN CHOICE (log entry 44): a misaligned access to the CXL.mem window
that is NC, IO or under dbypass meets two rows of the table, and the row of NC, IO and dbypass is applied. -/
def attrFault (s : State) (h : Nat) (a : MemAcc) (pa pbmt : Nat) (ls ac : Nat) (amo lrsc : Bool) : Option Nat :=
  let mis := a.pa % a.size != 0
  let beyond := byPage s h pbmt && decide (64 < a.pa % 64 + a.size)
  match regionOf (offOf pa) with
  | .control => if a.vector || amo || !(a.size == 4 || a.size == 8) || mis then some ac else none
  | .io _ => if amo || mis then some ac else none
  | .vacant => some ac
  | .dram =>
    if mis then
      if lrsc then some ls
      else if amo then (if byPage s h pbmt || 16 < a.pa % 16 + a.size then some ls else none)
      else if beyond then some ls else none
    else none
  | .cxl => if mis then (if amo || lrsc || !byPage s h pbmt || beyond then some ls else none) else none

/-- First byte beyond the boundary that a second part lies behind (R73). -/
def secondVa (a : MemAcc) : Nat := if 4096 < a.va % 4096 + a.size then (a.va / 4096 + 1) * 4096 else (a.va / 64 + 1) * 64

/-- Page type of the second part: of its own page where the access crosses one. -/
def secondType (a : MemAcc) : Nat := if 4096 < a.va % 4096 + a.size then a.pbmt2 else a.pbmt

/-- The exception of one part of an access, of n bytes at pa: its translation's, an access fault of the PMA and PMP checks, or one of
Table 3.9. An AMO other than LR and SC reads and writes. -/
def partFault (s : State) (h : Nat) (a : MemAcc) (ls ac : Nat) (amo lrsc : Bool) (fault : Option Nat) (pa n pbmt : Nat) : Option Nat :=
  match fault with
  | some c => some c
  | none => if populated s pa = false ∨ pmpDenies s h pa n (ls == 4 || (amo && !lrsc)) (ls == 6) then some ac
      else attrFault s h a pa pbmt ls ac amo lrsc

/-- The exception of an access: cause and xtval, the lowest-addressed part that faults first (R73); of a fault of the instruction's own
fetch xtval is the instruction's address. -/
def accessFault (s : State) (h : Nat) (a : MemAcc) (ls ac : Nat) (amo lrsc : Bool) : Option (Nat × Nat) :=
  match partFault s h a ls ac amo lrsc a.fault1 a.pa (min a.size (64 - a.pa % 64)) a.pbmt with
  | some c => some (c, if a.fetch && a.fault1.isSome then a.pc else a.va)
  | none => match partsOf a with
    | _ :: (pa2, n) :: _ => (partFault s h a ls ac amo lrsc a.fault2 pa2 n (secondType a)).map fun c => (c, secondVa a)
    | _ => none

/-! ## A line for a core -/

/-- What became of a request for a line. -/
inductive Got where
  | line (d : Nat)
  | wait                       -- sent; the access comes again when the line is there
  | refused
  | poison
  deriving DecidableEq, Repr

/-- A miss that is not yet safe waits in the core's L2 miss queue (R66). -/
def holdMiss (core line : Nat) (excl : Bool) (s : State) : State :=
  let c := coreOf s core
  if c.missQ.any (·.1 == line) then s else setCore core { c with missQ := c.missQ ++ [(line, excl)] } s

/-- A miss that has become safe leaves the queue, and a line that a prefetch has asked for is asked for by an access. -/
def freeMiss (core line : Nat) (s : State) : State :=
  let c := coreOf s core
  setCore core { c with missQ := c.missQ.filter (·.1 != line), hints := c.hints.filter (· != line) } s

/-- A copy of the line in a core that serves an access under the tag. -/
def hitOf (s : State) (core tag line : Nat) (excl : Bool) : Option CLine :=
  (l2Of s core line).filter fun l => l.tag == tag && (!excl || l.st != Mesi.s)

/-- A line that a core has reached. -/
def gotHit (l : CLine) : Got := if l.poison then .poison else .line l.data

/-- A request of the core for the line waits at the line's home slice or its fill is in flight. -/
def underWay (s : State) (core tag line : Nat) : Bool :=
  let r := sliceOf s (homeSlice s tag line)
  (r.fills.any fun f => f.line == line && f.core == core) || ((r.amq ++ r.outside).any fun e => isReq e && e.line == line && e.core == core)

/-- The line reaches a core, exclusive for a store (R111 to R114, R205); a line whose fill returned poison is delivered once. A
miss that is early, with older branches, jumps or memory instructions not yet resolved, leaves nothing behind but its
entry in the miss queue (R66). A request that the home slice serves at once gives the line; else the access waits for it. -/
def getLine (core tag line : Nat) (excl early : Bool) (s : State) : State × Got :=
  match hitOf s core tag line excl with
  | some l => (s, gotHit l)
  | none =>
    if early then (holdMiss core line excl s, .wait)
    else
    let s := freeMiss core line s
    let c := coreOf s core
    if mayReach s tag line = false then (refuseLine (line * 64) tag s, .refused)
    else if c.badFills.contains line then
      (setCore core { c with badFills := c.badFills.filter (· != line) } s, .poison)
    else if underWay s core tag line then (s, .wait)
    else
      let s1 := sliceRequest core line tag excl 0 s
      match hitOf s1 core tag line excl with
      | some l => (s1, gotHit l)
      | none => (s1, .wait)

/-- A prefetch asks for a line (R68): poison that an access has asked for is left to that access, and poison that comes for the
prefetch is dropped (R185). -/
def hintLine (core tag line : Nat) (excl early : Bool) (s : State) : State :=
  let c := coreOf s core
  let asked := filling s (homeSlice s tag line) line && !c.hints.contains line
  if c.badFills.contains line then s
  else
    let (s1, g) := getLine core tag line excl early s
    if g = .wait ∧ asked = false ∧ early = false then setCore core { coreOf s1 core with hints := line :: (coreOf s1 core).hints } s1 else s1

/-! ## Page walks (R66, R73, R185) -/

/-- The page-table entries of a walk, each through the core's L2 as a load: one that is not reached ends the walk. An entry outside main
memory or in no memory at all is an access fault (`refused`). -/
def walkLines (h core tag : Nat) (early : Bool) : List Nat → State → State × Option Got
  | [], s => (s, none)
  | pa :: r, s =>
    if isMain pa = false ∨ populated s pa = false then (s, some .refused)
    else
      let (s1, g) := getLine core tag (lineOf pa) false early s
      match g with
      | .line _ => walkLines h core tag early r s1
      | _ => (s1, some g)

/-- A core walks the page tables for an access: the TLBs do not hold its translation, and the instruction's own fetch has not faulted.
DESIGN CHOICE (log entry 45): under dbypass, when the L2 stays empty and the spec names loads, stores and AMOs only, the walk's reads
are not modelled. -/
def walker (s : State) (h : Nat) (a : MemAcc) : Option Nat :=
  match coreOfHart s h, tlbEntry s h a with
  | some core, some e =>
    if (coreOf s core).l2tlb.contains e || (a.fetch && a.fault1.isSome) || rdB s (dzcachectlDbypass h) then none else some core
  | _, _ => none

/-- A presented access is translated, its walk first, and then goes on as f; ac is its access fault. -/
def walked (h : Nat) (a : MemAcc) (ac : Nat) (f : State → State) (s : State) : State :=
  let (s1, g) := match walker s h a with
    | some core => walkLines h core (ownerOf s h) a.early a.walk s
    | none => (s, none)
  match g with
  | some .wait => s1
  | some .poison => raise h 19 a.va s1
  | some _ => raise h ac a.va s1
  | none => f (if a.fault1.isSome then s1 else translate h a s1)

/-- Store bytes into a line the core holds exclusive. -/
def putBytes (core tag line o n v : Nat) (s : State) : State :=
  match l2Of s core line with
  | some l => putL2 core line { l with tag := tag, st := .m, data := linePut l.data o n v } s
  | none => s

/-! ## Retirement: counts, training and prefetches (R64, R68, R70, R79, R80) -/

/-- What an access meets on its way: L1D, L2 and LLC misses, and the wait of R66. -/
def metCodes (s : State) (core tag : Nat) (a : MemAcc) : List Nat :=
  let ls := (partsOf a).map fun p => lineOf p.1
  let out := ls.filter fun l => (l2Of s core l).isNone
  (if ls.any (fun l => !(coreOf s core).l1d.contains l) then [0x0013] else []) ++ (if out = [] then [] else [0x0014]) ++
    (if out.any (fun l => !lineCached s (homeSlice s tag l) l) then [0x0015] else []) ++
    (if ls.any (fun l => (coreOf s core).missQ.any (·.1 == l)) then [0x001C] else [])

/-- A cached access meets its events, and the speculative ones are counted (0x0101, 0x0102). -/
def meet (h core tag : Nat) (a : MemAcc) (s : State) : State :=
  let cs := metCodes s core tag a
  noteCodes h cs (countEvent h 0x0101 (if cs.contains 0x0013 then countEvent h 0x0102 s else s))

/-- A performed access leaves its lines in the L1D. -/
def fillFirst (core : Nat) (a : MemAcc) (s : State) : State :=
  let c := coreOf s core
  let k := Config.freeNat s.freeCtr
  let l1d := (partsOf a).foldl (fun l p => joinPlaces 1024 k (lineOf p.1) l) c.l1d
  freeNext (setCore core { c with l1d := l1d } s)

/-- Lines of the page of a retired access that the prefetchers that are enabled may fetch: the stride prefetcher any, the stream
prefetcher the l2_distance lines ahead. -/
def prefetchable (s : State) (h line : Nat) : List Nat :=
  let page := (List.range 64).map (line / 64 * 64 + ·)
  page.filter fun l => l != line && (rdB s (dzprefetchL1StrideEn h) ||
    (rdB s (dzprefetchL2StreamEn h) && decide (line < l) && decide (l ≤ line + rd s (dzprefetchL2Distance h))))

/-- A prefetch of either prefetcher after a retired access: whether one is issued and of which line is a free value, within
the page, to cacheable main memory, under the core's tag (R68); event 0x0105. -/
def hwPrefetch (h : Nat) (a : MemAcc) (s : State) : State :=
  let l := prefetchable s h (lineOf a.pa)
  match coreOfHart s h, (if l = [] then none else l[freeVal (l.length + 1) s]?) with
  | some core, some x =>
    let tag := ownerOf s h
    if bypassed s h a ∨ populated s (x * 64) = false ∨ mayReach s tag x = false then s
    else countEvent h 0x0105 (hintLine core tag x false false (freeNext s))
  | _, _ => s

/-- A retired load or store trains the prefetchers that are enabled, those of both cores of a checked pair alike (R56); what
they hold the spec does not state. A prefetch may follow. -/
def trainPrefetch (h : Nat) (a : MemAcc) (s : State) : State :=
  if rdB s (dzprefetchL1StrideEn h) || rdB s (dzprefetchL2StreamEn h) then
    let f := Config.freeNat s.freeCtr
    hwPrefetch h a ((coresOfHart s h).foldl (fun b c => let r := coreOf b c
      setCore c { r with pred := { r.pred with streams := [f] } } b) (freeNext s))
  else s

/-- An access to main memory retires. -/
def retire (h : Nat) (a : MemAcc) (s : State) : State := trainPrefetch h a (endAccess h a.more s)

/-- A store whose line holds younger instructions in flight: they are discarded and fetched again (R70). -/
def refetch (h : Nat) (lines younger : List Nat) (s : State) : State :=
  if lines.any younger.contains then countEvent h 0x0018 (flush h s) else s

/-! ## The control window (R27 to R31, R87) -/

/-- Mailbox page number of an offset. -/
def pageNo (off : Nat) : Nat := (off - 0x01000000) / 0x1000

/-- Table 1.5: what tag may read or write at an offset. DESIGN CHOICE (log entry 32): an offset inside a granted block at which
no register stands counts as reserved, so its access is refused and recorded under R30. -/
def windowReach (s : State) (tag off : Nat) (write : Bool) : Bool :=
  if off < 0x10000 then !write && (fieldsAt (off / 8 * 8)) != []
  else if 0x500000 ≤ off ∧ off < 0x540000 then
    let d := (off - 0x500000) / 0x1000
    !dmaPriv d && dmaReach s tag d && (fieldsAt (off / 8 * 8)) != []
  else if 0xF00000 ≤ off ∧ off < 0xF10000 then !write && tag == 0 && (fieldsAt (off / 8 * 8)) != []
  else if 0x01000000 ≤ off ∧ off < 0x01104000 then decide (pageNo off ≤ 256) && tag == pageNo off
  else if 0x80000000 ≤ off ∧ off < 0x100000000 then tag == 0
  else false

/-- A read the window grants. -/
def windowRead (s : State) (off size : Nat) : Nat :=
  if 0x01000000 ≤ off ∧ off < 0x01104000 then pageRead s (pageNo off) ((off - 0x01000000) % 0x1000) size
  else if 0x80000000 ≤ off then ecamRead s off size
  else regPart s off size

/-- A part of a register that is stored as a whole. -/
def mergePart (old off size v : Nat) : Nat := linePut old (off % 8) size v

/-- A write the window grants. -/
def windowWrite (tag off size v : Nat) (s : State) : State :=
  if 0x01000000 ≤ off ∧ off < 0x01104000 then pageWrite (pageNo off) ((off - 0x01000000) % 0x1000) size v s
  else if 0x80000000 ≤ off then
    let x := (off - 0x80000000) % 0x10000000
    let g := (off - 0x80000000) / 0x10000000
    ecamWrite tag g (x / 4096) (x % 4096) size v (ecamReg s g (x / 4096) (x % 4096) size v) s
  else dmaStore ((off - 0x500000) / 0x1000) (off / 8 * 8 % 0x1000) (mergePart (regRead s (off / 8 * 8)) off size v) s

/-- An aligned 4- or 8-byte access of hart h to this device's window: performed once, or refused in silence (R30). It retires
with it, so that the comparator's record does not outlive it (R87). -/
def windowAccess (h off size r : Nat) (signed write : Bool) (v : Nat) (s : State) : State :=
  let tag := ownerOf s h
  if windowReach s tag off write then
    if write then windowWrite tag off size v s else deliverLoad h r size signed (windowRead s off size) s
  else
    let s1 := refuseWindow tag off s
    if write then s1 else deliverLoad h r size signed 0 s1

/-- An access of a hart to the window by its offset, which stands for the load or store it comes from: what an earlier access of the
hart has met is none of its own. -/
def controlWindow (h va off size r : Nat) (signed write : Bool) (v : Nat) (s : State) : State :=
  if hartRuns s h then
    if (size = 4 ∨ size = 8) ∧ off % size = 0 ∧ off < 2 ^ 32 then
      let act := fun b => endAccess h false (windowAccess h off size r signed write v b)
      if write then presentWrite h act (dropAccess h s) else act (dropAccess h s)
    else raise h (if write then 7 else 5) va s
  else s

/-! ## Accesses that are not cached (R59, R67, R78, R268, R277, R280) -/

/-- A store is posted; one to main memory under page type IO, which is strongly ordered, is awaited (R59). -/
def posted (kind : Nat) (a : MemAcc) : Bool := kind == 4 && !(a.pbmt == 2 && isMain a.pa)

/-- A request that a hart waits for has been sent and is not answered: an access of this kind is never repeated (R67). -/
def hartWaits (s : State) (h : Nat) : Bool :=
  s.outs.any fun q => match q.origin with
    | .hart x _ _ _ _ _ => x == h
    | _ => false

/-- A request of hart h to another device or to a port of this one. What it waits for is kept in the comparator's record until it
retires, and a hart that executes it again after sparing takes the recorded response instead (R87). Of a port whose 1,024 outstanding
requests are all in use it waits (R267). -/
def farAccess (h dev kind r : Nat) (a : MemAcc) (signed : Bool) (v op cmp : Nat) (s : State) : State :=
  let o : Origin := if posted kind a then .none else .hart h r a.size signed a.va a.more
  let q : Out := { xid := 0, dev := dev, kind := kind, pa := a.pa, tag := ownerOf s h, size := a.size, data := v, op := op, cmp := cmp, origin := o }
  if posted kind a then sendOut q s
  else if hartWaits s h ∨ (64 ≤ dev ∧ tagsFull s (dev - 64) q) then s
  else match recorded s h a.pa a.size kind v with
    | some x => match x.resp with
      | some resp => hartAnswer q h r a.size signed a.va a.more resp s
      | none => s
    | none => sendOut q (keepRecord h { addr := a.pa, data := v, size := a.size, kind := kind, resp := none } s)

/-- A load of what an address of group g's window names. -/
def ioLoadAt (h g r : Nat) (a : MemAcc) (signed : Bool) (s : State) : IoAt → State
  | .page x => endAccess h a.more (deliverLoad h r a.size signed (fixedRead s g x a.size) s)
  | .port _ => farAccess h (64 + g) 3 r a signed 0 0 0 s
  | .host x => farAccess h (64 + g) 3 r { a with pa := x, pbmt := 0 } signed 0 0 0 s
  | .signal _ _ => endAccess h a.more (deliverLoad h r a.size signed (freeVal (2 ^ 64) s) (freeNext s))
  | .refused => raise h 5 a.va (refuseIo g (ownerOf s h) a.pa s)
  | .vacant => raise h 5 a.va s

/-- A load from a group's window. -/
def ioLoad (h g r : Nat) (a : MemAcc) (signed : Bool) (s : State) : State :=
  ioLoadAt h g r a signed s (ioAt s g (ownerOf s h) a.pa a.size)

/-- A store to what an address of group g's window names. -/
def ioStoreAt (h g : Nat) (a : MemAcc) (v : Nat) (s : State) : IoAt → State
  | .page x => presentWrite h (fun b => endAccess h a.more (fixedWrite g x a.size v b)) s
  | .signal _ x => presentWrite h (fun b => endAccess h a.more (signalWrite g x a.size v b)) s
  | .refused => raise h 7 a.va (refuseIo g (ownerOf s h) a.pa s)
  | .vacant => raise h 7 a.va s
  | .host x => presentWrite h (fun b => endAccess h a.more (farAccess h (64 + g) 4 0 { a with pa := x, pbmt := 0 } false v 0 0 b)) s
  | .port _ => presentWrite h (fun b => endAccess h a.more (farAccess h (64 + g) 4 0 a false v 0 0 b)) s

/-- A store to a group's window: posted, so it ends here. -/
def ioStore (h g : Nat) (a : MemAcc) (v : Nat) (s : State) : State :=
  ioStoreAt h g a v s (ioAt s g (ownerOf s h) a.pa a.size)

/-- A non-cacheable load of main memory: at the home slice, or of a copy that this device's slice holds of a line of another home or
of a CXL.mem window; nothing is allocated (R59). -/
def ncLoad (h r : Nat) (a : MemAcc) (signed : Bool) (s : State) : State :=
  let line := lineOf a.pa
  let tag := ownerOf s h
  if a.early then s
  else if mayReach s tag line = false then raise h 5 a.va (refuseLine a.pa tag s)
  else if ncClear s tag line false = false then ncOpen (.hart h) tag line false s
  else
    let (s1, d) := currentLine (.hart h) line tag s
    match d with
    | .data v p => if p then raise h 19 a.va s1 else retire h a (deliverLoad h r a.size signed (lineGet v (a.pa % 64) a.size) s1)
    | .wait => s1
    | .far => farAccess h (outDev s line) 3 r a signed 0 0 0 s1

/-- A non-cacheable store to main memory: performed at the home; this device's copy of a line with another home is written
back and dropped first. -/
def ncStore (h : Nat) (a : MemAcc) (v : Nat) (younger : List Nat) (s : State) : State :=
  let line := lineOf a.pa
  let tag := ownerOf s h
  let n := homeSlice s tag line
  let wrote := fun b => refetch h [line] younger b
  let done := fun b => retire h a (wrote b)
  if a.early then s
  else if mayReach s tag line = false then raise h 7 a.va (refuseLine a.pa tag s)
  else if ncClear s tag line true = false then ncOpen (.hart h) tag line true s
  else if ownDram s line then
    let (s1, d) := currentLine (.hart h) line tag s
    match d with
    | .data x p => if p then raise h 19 a.va s1
        else presentWrite h (fun b => done (writeAtHome (.hart h) line tag (linePut x (a.pa % 64) a.size v) b)) s1
    | _ => s1
  else if hartWaits s h then s
  else presentWrite h (fun b =>
    let s1 := farAccess h (outDev b line) 4 0 a false v 0 0 (breakResv (some h) line (flushLine n line b))
    if posted 4 a then done s1 else wrote s1) s

/-! ## Loads and stores -/

/-- The lines of an access, in order, each for the core; the first that waits, is refused or is poison ends it. -/
def getLines (core tag : Nat) (excl early : Bool) : List (Nat × Nat) → State → State × List Nat × Option (Nat × Got)
  | [], s => (s, [], none)
  | (pa, _) :: r, s =>
    let (s1, g) := getLine core tag (lineOf pa) excl early s
    match g with
    | .line d =>
      let (s2, ds, e) := getLines core tag excl early r s1
      (s2, d :: ds, e.map fun x => (x.1 + 1, x.2))
    | _ => (s1, [], some (0, g))

/-- Bytes of the parts of a load, the first part lowest. -/
def joinParts : List (Nat × Nat) → List Nat → Nat
  | (pa, n) :: r, d :: ds => lineGet d (pa % 64) n + joinParts r ds * 2 ^ (8 * n)
  | _, _ => 0

/-- The parts of a store go into the lines together. -/
def storeParts (core tag : Nat) : List (Nat × Nat) → Nat → State → State
  | [], _, s => s
  | (pa, n) :: r, v, s => storeParts core tag r (v / 2 ^ (8 * n)) (putBytes core tag (lineOf pa) (pa % 64) n v s)

/-- What ends an access that found no line: part i. -/
def failed (h : Nat) (a : MemAcc) (ac : Nat) (i : Nat) (g : Got) (s : State) : State :=
  let va := if i = 0 then a.va else secondVa a
  match g with
  | .refused => raise h ac va s
  | .poison => raise h 19 a.va s
  | _ => s

/-- A cached load: its parts are read together with all their lines present (R73). -/
def cachedLoad (h core : Nat) (a : MemAcc) (r : Nat) (signed : Bool) (s : State) : State :=
  let ps := partsOf a
  let tag := ownerOf s h
  let (s1, ds, e) := getLines core tag false a.early ps (meet h core tag a s)
  match e with
  | some (i, g) => failed h a 5 i g s1
  | none => retire h a (fillFirst core a (deliverLoad h r a.size signed (joinParts ps ds) s1))

/-- A load of a hart that runs, once it is presented. An access that is not cached is performed as the oldest instruction
only (R67). -/
def loadAt (h : Nat) (a : MemAcc) (r : Nat) (signed : Bool) (s : State) : State :=
  match accessFault s h a 4 5 false false with
  | some (c, t) => raise h c t s
  | none =>
    match regionOf (offOf a.pa) with
    | .control => if a.early then s
        else if homeOf a.pa = myId s then
          endAccess h a.more (windowAccess h (offOf a.pa - 0x3FF000000000) a.size r signed false 0 s)
        else farAccess h (homeOf a.pa) 3 r a signed 0 0 0 s
    | .io g => if a.early then s
        else if homeOf a.pa = myId s then ioLoad h g r a signed s
        else farAccess h (homeOf a.pa) 3 r a signed 0 0 0 s
    | .vacant => s
    | _ =>
      if bypassed s h a then ncLoad h r a signed s
      else match coreOfHart s h with
      | some core => cachedLoad h core a r signed s
      | none => s

def load (h : Nat) (a : MemAcc) (r : Nat) (signed : Bool) (s : State) : State :=
  if hartRuns s h = false ∨ a.size = 0 then s
  else walked h a 5 (loadAt h a r signed) (present h a (decide (32 ≤ r ∧ r < 64)) s)

/-- A cached store: its parts are written together, both lines held writable (R73). -/
def cachedStore (h core : Nat) (a : MemAcc) (v : Nat) (younger : List Nat) (s : State) : State :=
  let ps := partsOf a
  let tag := ownerOf s h
  let (s1, _, e) := getLines core tag true a.early ps (meet h core tag a s)
  match e with
  | some (i, g) => failed h a 7 i g s1
  | none =>
    let lines := ps.map fun p => lineOf p.1
    presentWrite h (fun b => retire h a (refetch h lines younger (fillFirst core a
      (lines.foldl (fun x l => breakResv (some h) l x) (storeParts core tag ps v b))))) s1

/-- A store of a hart that runs, once it is presented. -/
def storeAt (h : Nat) (a : MemAcc) (v : Nat) (younger : List Nat) (s : State) : State :=
  match accessFault s h a 6 7 false false with
  | some (c, t) => raise h c t s
  | none =>
    match regionOf (offOf a.pa) with
    | .control => if a.early then s
        else if homeOf a.pa = myId s then
          presentWrite h (fun b => endAccess h a.more (windowAccess h (offOf a.pa - 0x3FF000000000) a.size 0 false true v b)) s
        else presentWrite h (fun b => endAccess h a.more (farAccess h (homeOf a.pa) 4 0 a false v 0 0 b)) s
    | .io g => if a.early then s
        else if homeOf a.pa = myId s then ioStore h g a v s
        else presentWrite h (fun b => endAccess h a.more (farAccess h (homeOf a.pa) 4 0 a false v 0 0 b)) s
    | .vacant => s
    | _ =>
      if bypassed s h a then ncStore h a v younger s
      else match coreOfHart s h with
      | some core => cachedStore h core a v younger s
      | none => s

def store (h : Nat) (a : MemAcc) (v : Nat) (younger : List Nat) (s : State) : State :=
  if hartRuns s h = false ∨ a.size = 0 then s else walked h a 7 (storeAt h a v younger) (present h a a.fp s)

/-! ## Atomics (R54, R55, R72, R78) -/

/-- The register an atomic writes; a 16-byte one writes a pair. -/
def deliverAmo (h r n v : Nat) (s : State) : State :=
  if n = 16 then (if r = 0 then s else setX h (r + 1) (v / 2 ^ 64) (setX h r v s)) else setX h r (sext n v) s

/-- What is left to do once the old value is known: reservation, conditional store, result. Whether anything was stored is told:
an LR and a failing SC store nothing (R70). -/
def amoFinish (h : Nat) (op : AmoOp) (n old r line : Nat) (put : State → State) (s : State) : State × Bool :=
  let held := (hartOf s h).resv == some line
  match op with
  | .lr => (deliverAmo h r n old (setHart h { hartOf s h with resv := some line, resvAtSlice := rdB s (dzcachectlDbypass h) } s), false)
  | .sc =>
    let s1 := if held then breakResv (some h) line (put s) else s
    (setX h r (if held then 0 else 1) (setHart h { hartOf s1 h with resv := none } s1), held)
  | _ => (deliverAmo h r n old (breakResv (some h) line (put s)), true)

/-- An atomic that is performed retires; where it stored, younger instructions of the line are fetched again. -/
def amoDone (h : Nat) (a : MemAcc) (younger : List Nat) (x : State × Bool) : State :=
  retire h a (if x.2 then refetch h [lineOf a.pa] younger x.1 else x.1)

/-- An atomic that writes presents its data; an LR has none. -/
def presentAmo (h : Nat) (op : AmoOp) (f : State → State) (s : State) : State :=
  if op = .lr then f s else presentWrite h f s

/-- An atomic on a line in a CXL.mem window of this device: its home slice fetches the line, and performs the atomic when the access
comes again (R78). -/
def amoFetch (h n tag : Nat) (a : MemAcc) (s : State) : State :=
  let line := lineOf a.pa
  let c := coreOf s noCore
  if c.badFills.contains line then raise h 19 a.va (setCore noCore { c with badFills := c.badFills.filter (· != line) } s)
  else sendMiss n line tag noCore true s

/-- An atomic at the home slice, without allocation in the core (R78); a copy of a line of another device is written back first. -/
def amoAtHome (h : Nat) (a : MemAcc) (op : AmoOp) (v cmp r : Nat) (younger : List Nat) (s : State) : State :=
  let line := lineOf a.pa
  let tag := ownerOf s h
  let n := homeSlice s tag line
  let o := a.pa % 64
  if a.early then s
  else if mayReach s tag line = false then raise h (if op = .lr then 5 else 7) a.va (refuseLine a.pa tag s)
  else if ncClear s tag line true = false then ncOpen (.hart h) tag line true s
  else if ownLine s line then
    let (s1, d) := currentLine (.hart h) line tag s
    match d with
    | .data x p =>
      let old := lineGet x o a.size
      if p then raise h 19 a.va s1
      else presentAmo h op (fun b => amoDone h a younger (amoFinish h op a.size old r line
        (writeAtHome (.hart h) line tag (linePut x o a.size (amoStore op a.size old v cmp))) b)) s1
    | .wait => s1
    | .far => amoFetch h n tag a s1
  else if hartWaits s h then s
  else if op = .sc ∧ (hartOf s h).resv ≠ some line then endAccess h a.more (setX h r 1 s)
  else presentAmo h op (fun b =>
    let s1 := farAccess h (outDev b line) 8 r a true v (amoCode op) cmp (flushLine n line b)
    if op = .lr then s1 else refetch h [line] younger s1) s

/-- An atomic in the core's own caches. -/
def amoCached (h core : Nat) (a : MemAcc) (op : AmoOp) (v cmp r : Nat) (younger : List Nat) (s : State) : State :=
  let line := lineOf a.pa
  let tag := ownerOf s h
  let o := a.pa % 64
  let (s1, g) := getLine core tag line true a.early (meet h core tag a s)
  match g with
  | .line d =>
    let old := lineGet d o a.size
    presentAmo h op (fun b => amoDone h a younger (amoFinish h op a.size old r line
      (putBytes core tag line o a.size (amoStore op a.size old v cmp)) (fillFirst core a b))) s1
  | _ => failed h a (if op = .lr then 5 else 7) 0 g s1

def amoAt (h : Nat) (a : MemAcc) (op : AmoOp) (v cmp r : Nat) (younger : List Nat) (s : State) : State :=
  let ls := if op = .lr then 4 else 6
  let ac := if op = .lr then 5 else 7
  match accessFault s h a ls ac true (op == .lr || op == .sc) with
  | some (c, t) => raise h c t s
  | none =>
    if isMain a.pa = false then s
    else if bypassed s h a then amoAtHome h a op v cmp r younger s
    else match coreOfHart s h with
    | some core => amoCached h core a op v cmp r younger s
    | none => s

def amo (h : Nat) (a : MemAcc) (op : AmoOp) (v cmp r : Nat) (younger : List Nat) (s : State) : State :=
  if hartRuns s h = false ∨ a.size = 0 then s else walked h a (if op = .lr then 5 else 7) (amoAt h a op v cmp r younger) (present h a false s)

/-! ## Cache-block operations (R60) -/

/-- Bits [lo+w-1:lo] of the envcfg CSRs that govern a mode: menvcfg below M, senvcfg for U, henvcfg in guests. -/
def envBits (s : State) (h lo w : Nat) : List Nat :=
  let f := fun n => csrOf s h n / 2 ^ lo % 2 ^ w
  match (hartOf s h).priv with
  | .m => []
  | .s => [f 0x30A]
  | .u => [f 0x30A, f 0x10A]
  | .vs => [f 0x30A, f 0x60A]
  | .vu => [f 0x30A, f 0x60A, f 0x10A]

/-- A cache-block instruction that its envcfg fields do not enable raises illegal instruction, or virtual instruction
where only a guest's fields stop it. -/
def envFault (s : State) (h lo w : Nat) : Option Nat :=
  match envBits s h lo w with
  | [] => none
  | m :: r => if m = 0 then some 2 else if r.contains 0 then (if inGuest (hartOf s h).priv then some 22 else some 2) else none

def cboAcc (va pa : Nat) : MemAcc := { va := va / 64 * 64, pa := pa / 64 * 64, size := 64 }

/-- An operation on a line: op 1 clean, 2 flush, 3 inval, which a mode may do where the PMP lets it read or write the block. The hart waits until the home slice reports that it is done there,
and the instruction retires then (R60). -/
def cbo (h va pa op : Nat) (s : State) : State :=
  let tag := ownerOf s h
  let line := lineOf pa
  if isMain pa = false ∨ populated s (pa / 64 * 64) = false then raise h 7 va s
  else if pmpDenies s h (pa / 64 * 64) 64 true false && pmpDenies s h (pa / 64 * 64) 64 false true then raise h 7 va s
  else if mayReach s tag line = false then raise h 7 va (refuseLine pa tag s)
  else match coreOfHart s h with
  | some core => setHart h { hartOf s h with cbo := some line } (maintAccept (homeSlice s tag line) core line tag op s)
  | none => s

def cboGated (h va pa op lo w : Nat) (s : State) : State :=
  if hartRuns s h then
    match envFault s h lo w with
    | some c => raiseInstr h c s
    | none => cbo h va pa op s
  else s

/-- cbo.inval flushes where an envcfg CBIE field holds 01, and discards where every field holds 11. -/
def cboInval (h va pa : Nat) (s : State) : State :=
  cboGated h va pa (if (envBits s h 4 2).contains 1 then 2 else 3) 4 2 s

/-- A line that nothing holds up and that this device may write becomes zero in a core that did not read it (R179): every other copy
goes, the slice's with it, and the core holds the line modified. -/
def zeroLine (core tag line : Nat) (s : State) : State :=
  let n := homeSlice s tag line
  let s0 := freeMiss core line s
  let s1 := setCore core { coreOf s0 core with badFills := (coreOf s0 core).badFills.filter (· != line) } s0
  putL2 core line { tag := tag, st := .m, poison := false, data := 0 } (grant n line tag core true (dropCopies n line s1))

/-- The instruction has written its line and retires, counted as event 0x001D; younger instructions of the line are fetched again. -/
def zeroed (h line : Nat) (younger : List Nat) (f : State → State) (s : State) : State :=
  presentWrite h (fun b => dropReads (.hart h) (countEvent h 0x001D (countInst h
    (refetch h [line] younger (breakResv (some h) line (f b)))))) s

/-- Zeros for a line of another home: a write of the whole line goes there. One under page type IO is awaited, and the instruction
retires with its answer. -/
def zeroFar (h : Nat) (a : MemAcc) (younger : List Nat) (s : State) : State :=
  let line := lineOf a.pa
  let n := homeSlice s (ownerOf s h) line
  let send := fun b => farAccess h (outDev b line) 4 0 a false 0 0 0 (discardLine n line b)
  if posted 4 a then zeroed h line younger send s
  else if hartWaits s h then s
  else presentWrite h (fun b => refetch h [line] younger (send (breakResv (some h) line
    (setHart h { hartOf b h with access := some ⟨(hartOf b h).pc, none, [0x001D], false⟩ } b)))) s

/-- cbo.zero at the home slice, its line not cached here. -/
def zeroHome (h : Nat) (a : MemAcc) (younger : List Nat) (s : State) : State :=
  if ownDram s (lineOf a.pa) then zeroed h (lineOf a.pa) younger (writeAtHome (.hart h) (lineOf a.pa) (ownerOf s h) 0) s
  else zeroFar h a younger s

/-- cbo.zero: the whole line becomes zero, ordered as a store (R125); poison and markers are replaced, and nothing is read (R179).
DEDUCED (log entry 45): zeros for a line of another home that this device does not own go there as a write. -/
def cboZeroAt (h : Nat) (at_ : PageAt) (pa : Nat) (younger : List Nat) (s : State) : State :=
  let tag := ownerOf s h
  let line := lineOf pa
  let n := homeSlice s tag line
  let a := { cboAcc at_.addr pa with pbmt := at_.pbmt }
  if isMain pa = false ∨ populated s a.pa = false ∨ pmpDenies s h a.pa 64 false true then raise h 7 at_.addr s
  else if mayReach s tag line = false then raise h 7 at_.addr (refuseLine pa tag s)
  else match coreOfHart s h with
  | some core =>
    let away := byPage s h at_.pbmt
    if at_.early ∧ (away ∨ (hitOf s core tag line true).isNone) then (if away then s else holdMiss core line true s)
    else if ncClear s tag line true = false then ncOpen (.hart h) tag line true s
    else if away ∨ sealedCopy s n line tag then zeroHome h a younger s
    else if ownLine s line ∨ (sliceOf s n).owned.contains line then zeroed h line younger (zeroLine core tag line) s
    else zeroFar h a younger s
  | none => s

def cboZero (h : Nat) (at_ : PageAt) (pa : Nat) (younger : List Nat) (s : State) : State :=
  if hartRuns s h then
    match envFault s h 7 1 with
    | some c => raiseInstr h c s
    | none => cboZeroAt h at_ pa younger s
  else s

/-- A line held by the L1I, which the L2 includes. -/
def fillFetch (core line : Nat) (s : State) : State :=
  let c := coreOf s core
  setCore core { c with l1i := joinPlaces 1024 (Config.freeNat s.freeCtr) line c.l1i } (freeNext s)

/-- A hint is bypassed: its page is not cacheable, or the caches it would fill are bypassed, those of fetches by ibypass. -/
def hintBypassed (s : State) (h pbmt kind : Nat) : Bool :=
  if kind = 2 then pbmt != 0 || rdB s (dzcachectlIbypass h) else byPage s h pbmt

/-- A hint to anything but cacheable main memory, or one that would fault, is dropped: kind 0 for reading, 1 for writing, 2 for
fetching. It retires in either case, once it is no longer early. -/
def prefetch (h : Nat) (pa : PageAt) (kind : Nat) (faults : Bool) (s : State) : State :=
  let line := lineOf pa.addr
  let fin := fun b => if pa.early then b else countInst h b
  if hartRuns s h = false then s
  else if faults ∨ isMain pa.addr = false ∨ hintBypassed s h pa.pbmt kind ∨ populated s pa.addr = false ∨
      pmpDenies s h pa.addr 1 (kind == 0) (kind == 1) ∨ mayReach s (ownerOf s h) line = false then fin s
  else match coreOfHart s h with
  | some core =>
    let s1 := hintLine core (ownerOf s h) line (kind == 1) pa.early s
    fin (if kind = 2 ∧ (l2Of s1 core line).isSome then fillFetch core line s1 else s1)
  | none => s

/-! ## Mailbox fields (R336, R337, R349) -/

/-- A store to a control field of page i by the party `tag`; a party that does not own the page is refused, and so is the debug
access port without its enable (R31, R365). -/
def mbxStore (tag i off size v : Nat) (s : State) : State :=
  if ownsMbx tag i && (i != 259 || enabled s 0) then pageWrite i off size v s else refuseWindow tag (pageOff i off) s

/-! ## Meanings -/

/-- MAIN_CORE_LOAD (R20 to R25, R59, R72, R73, R205, R277). -/
def execMainCoreLoad (h : Nat) (a : MemAcc) (rd : Nat) (signed : Bool) (s : State) : Host.Outcome State Fault Refusal :=
  .next (load h a rd signed s)
/-- MAIN_CORE_STORE (R70, R72, R73, R205). -/
def execMainCoreStore (h : Nat) (a : MemAcc) (v : Nat) (younger : List Nat) (s : State) : Host.Outcome State Fault Refusal :=
  .next (store h a v younger s)
/-- MAIN_CORE_AMO (R55, R72, R78). -/
def execMainCoreAmo (h : Nat) (a : MemAcc) (op : AmoOp) (v cmp rd : Nat) (younger : List Nat) (s : State) :
    Host.Outcome State Fault Refusal := .next (amo h a op v cmp rd younger s)
/-- CONTROL_WINDOW_ACCESS (R27 to R31, R67, R87). -/
def execControlWindowAccess (h va off size rd : Nat) (signed write : Bool) (v : Nat) (s : State) : Host.Outcome State Fault Refusal :=
  .next (controlWindow h va off size rd signed write v s)
/-- CBO_CLEAN (R60). -/
def execCboClean (h va pa : Nat) (s : State) : Host.Outcome State Fault Refusal := .next (cboGated h va pa 1 6 1 s)
/-- CBO_FLUSH (R60). -/
def execCboFlush (h va pa : Nat) (s : State) : Host.Outcome State Fault Refusal := .next (cboGated h va pa 2 6 1 s)
/-- CBO_INVAL (R60). -/
def execCboInval (h va pa : Nat) (s : State) : Host.Outcome State Fault Refusal := .next (cboInval h va pa s)
/-- CBO_ZERO (R60, R70, R179). -/
def execCboZero (h : Nat) (va : PageAt) (pa : Nat) (younger : List Nat) (s : State) : Host.Outcome State Fault Refusal :=
  .next (cboZero h va pa younger s)
/-- PREFETCH_HINT (R60). -/
def execPrefetchHint (h : Nat) (pa : PageAt) (kind : Nat) (faults : Bool) (s : State) : Host.Outcome State Fault Refusal :=
  .next (prefetch h pa kind faults s)
/-- DOORBELL (R337). -/
def execDoorbell (tag mbx : Nat) (s : State) : Host.Outcome State Fault Refusal := .next (mbxStore tag mbx 0x400 8 0 s)
/-- RESULT_ACK (R336, R337). -/
def execResultAck (tag mbx size v : Nat) (s : State) : Host.Outcome State Fault Refusal := .next (mbxStore tag mbx 0x408 size v s)
/-- NOTICE_ACK (R336, R349). -/
def execNoticeAck (tag mbx size v : Nat) (s : State) : Host.Outcome State Fault Refusal := .next (mbxStore tag mbx 0x410 size v s)

end Sys2Proof.Machine
end

