-- ==== Sys2Proof/Machine/Domain.lean ====
section
/-! DEFINITION. Machine/Domain.lean: the power domains of Table 15.2, what each needs and how it is switched (R391, R392),
and the Assayer's holds on them (R368). -/
namespace Sys2Proof.Machine

/-- Domains of which one must be on while d is on (Table 15.2). -/
def needsOf (d : Nat) : List Nat :=
  if d < 136 then [136 + d / 17]
  else if d < 144 then [180, 181]
  else if d < 160 then [180 + chanTile (d - 144)]
  else if d < 168 then [180 + groupTile (d - 160)]
  else if d < 174 then [180 + fabTile (d - 168)]
  else if d < 176 then [180 + (d - 174)]
  else if d < 182 then [182 + d % 2]
  else []

def domState (s : State) (d : Nat) : Nat := rd s (pwrDomainState d)
def domOn (s : State) (d : Nat) : Bool := domState s d == 2
def domHeld (s : State) (d : Nat) : Bool := rdB s (pwrDomainHeld d)

/-- R392: a domain switches on only while one it needs is on, off only while none that needs it is on. The domain of a fenced
unit is not switched on (R40). -/
def maySwitch (s : State) (d : Nat) (on : Bool) : Bool :=
  if on then !rdB s (pwrDomainFenced d) && ((needsOf d).isEmpty || (needsOf d).any (domOn s))
  else (List.range 184).all fun e => !((needsOf e).contains d && domOn s e)

/-- The domain's state changes; the voltage of a domain the spec does not state. -/
def setDomain (d : Nat) (on : Bool) (s : State) : State :=
  if domainPresent s d then
    if on then wr (pwrDomainState d) 2 (wr (pwrDomainMv d) (freeVal (2 ^ 16) s) (freeNext s))
    else wr (pwrDomainState d) (if domHeld s d then 4 else 1) (wr (pwrDomainMv d) 0 (wr (pwrDomainFreq d) 0 s))
  else s

/-- Switch a domain where R392 lets it. -/
def switchDomain (d : Nat) (on : Bool) (s : State) : State :=
  if domOn s d = on then s else if maySwitch s d on then setDomain d on s else s

/-- A domain's unit is fenced (PWR_DOMAIN.fenced). -/
def fenceDomain (d : Nat) (s : State) : State := wr (pwrDomainFenced d) 1 s

/-- A switch due at step 4: a held domain leaves it deferred to the next boundary (R368). -/
def dueSwitch (d : Nat) (on : Bool) (s : State) : State :=
  if on = false ∧ 160 ≤ d ∧ d < 168 ∧ allDisabled s (d - 160) = false then s
  else if domHeld s d then addDue (beat s + 1) 4 (.switch d on) s else switchDomain d on s

/-- Any domain is held. -/
def anyHeld (s : State) : Bool := (List.range 184).any (domHeld s)

end Sys2Proof.Machine
end

