-- ==== Sys2Proof/Machine/Tests.lean ====
section
/-! DEFINITION. Machine/Tests.lean: loop-backs, self-tests and error injections (R429 to R436, R439). -/
namespace Sys2Proof.Machine

/-! ## Units under test -/

/-- The units a test occupies, as (kind, number): 1 pair, 2 slice, 3 channel, 4 SerDes port, 5 fabric port, 6 DMA
engine, 12 I3C target, 13 mesh. -/
def testUnits (kind target unit : Nat) : List (Nat × Nat) :=
  if kind = 1 then [((([4, 5, 3, 12, 13][target - 1]?).getD 13), if target = 5 then 0 else unit)]
  else if target = 4 then (List.range 4).map fun n => (4, unit * 4 + n)
  else [(target, unit)]

def runningTests (s : State) : List (Nat × Test) :=
  s.tests.filterMap fun e => match e.2 with
    | some t => if t.ended.isNone then some (e.1, t) else none
    | none => none

/-- A unit is under test (R430). -/
def underTest (s : State) (u : Nat × Nat) : Bool :=
  (runningTests s).any fun e => (testUnits e.2.kind e.2.target e.2.unit).contains u

/-- Lowest free ID (R429): its test has ended and been reported once, or ended 1,000,000 beats ago. -/
def freeTestId (s : State) : Option Nat :=
  (List.range 8).find? fun i => match tget none s.tests i with
    | none => true
    | some t => match t.ended with
      | none => false
      | some e => t.reported || decide (e + 1000000 ≤ beat s)

/-- Domains a test needs. -/
def testDomains (kind target unit : Nat) : List Nat :=
  (testUnits kind target unit).filterMap fun u =>
    match u.1 with
    | 1 => some u.2
    | 2 => some (136 + u.2 / 16)
    | 3 => some (144 + u.2)
    | 4 => some (160 + u.2 / 4)
    | 5 => some (168 + u.2)
    | 6 => some (174 + u.2)
    | _ => none

/-! ## Which units may be tested (Tables 17.2 and 17.3) -/

def serdesIdle (s : State) (g n : Nat) : Bool := portRole s g n == 0 || portState s g n == 6

def loopTestable (s : State) (target unit depth : Nat) : Bool :=
  match target with
  | 1 => serdesIdle s (unit / 4) (unit % 4)
  | 2 => [5, 6, 7].contains (portState5 s unit)
  | 3 => (rd s (mcStatusState unit) == 5 || rd s (mcStatusState unit) == 6) && (depth == 1 || (chanOf s unit).dimm.isSome)
  | _ => true

def bistTestable (s : State) (target unit mode : Nat) : Bool :=
  let active := rd s pwrStatusPkgState == 0 || rd s pwrStatusPkgState == 2
  let memOk := fun d => mode == 1 || (active && !domHeld s d)
  match target with
  | 1 => ([9, 11, 12].contains (rd s (pairStatusState unit)) ||
      (rdB s (pairStatusSlotValid unit) && (hartsOfPair s unit).all fun h => (hartOf s h).st == .offline)) && memOk unit
  | 2 => rd s (llcStatusState unit) == 4 && memOk (136 + unit / 16)
  | 3 => if mode = 4 then rd s (mcStatusState unit) == 3 else rd s (mcStatusState unit) == 5 || rd s (mcStatusState unit) == 6
  | 4 => (portsOf s unit).all fun n => portState s unit n == 1 || portState s unit n == 6
  | 5 => [5, 6, 7].contains (portState5 s unit)
  | _ => (List.range 32).all fun i => let st := dmaState s (unit * 32 + i)
      if i < 28 then st == 1 else st == 1 || st == 9

/-- Beats of a self-test (Table 17.3); a patrol lap has 100,000,000. -/
def bistBeats (target mode : Nat) : Nat :=
  let e := ([(96, 350), (40, 120), (20, 10), (30, 10), (20, 10), (20, 5)][target - 1]?).getD (0, 0)
  match mode with
  | 1 => e.1
  | 2 => e.2
  | 4 => 100000000
  | _ => e.1 + e.2

/-! ## Start -/

/-- The outcome of a start and, when it starts, its ID (Table 17.7). -/
def testAdmit (s : State) (kind target unit : Nat) (testable : Bool) : Nat × Nat :=
  if testable = false then (1, 0)
  else match freeTestId s with
    | none => (2, 0)
    | some i => if (testUnits kind target unit).any (underTest s) then (3, 0) else (0, i)

/-- State of the unit that its test replaces. -/
def unitState (s : State) (kind target unit : Nat) : Nat :=
  if kind = 2 ∧ target = 1 then rd s (pairStatusState unit) else 0

/-- Start or refuse a test whose applied fields are `fields` (24 bytes). -/
def startTest (i cl kind target unit mode dur slack : Nat) (fields : List (Nat × Nat × Nat)) (testable : Bool) (s : State) : State :=
  let (o, id) := testAdmit s kind target unit testable
  let st := beat s + 1
  if o = 0 then
    let t : Test := { kind := kind, target := target, unit := unit, mode := mode, start := st, dur := dur,
                      prior := unitState s kind target unit }
    addStep i st (.stage i cl (mkBytes (fields ++ [(0x18, 1, 0), (0x19, 1, id), (0x20, 8, st + dur + slack)])))
      (addStep i st (.testStart i id) { s with tests := tset none s.tests id (some t) })
  else stageDone i cl (mkBytes (fields ++ [(0x18, 1, o)])) s

/-- Step 4 of the boundary at which a test starts: its domains are switched on, a held one when it is released (R368), and its
register field is written. A test that a fence of this boundary has ended does not start (R40, R432). -/
def testStart (id : Nat) (s : State) : State :=
  match tget none s.tests id with
  | none => s
  | some t =>
    if t.ended.isSome then s else
    let off := (testDomains t.kind t.target t.unit).eraseDups.filter fun d => domState s d == 1
    let s1 := off.foldl (fun a d => dueSwitch d true a) s
    let s2 : State := { s1 with tests := tset none s1.tests id (some { t with switched := off }) }
    if t.kind = 1 then
      match t.target with
      | 1 => wr (portCtrlLoopback (portBase (t.unit / 4) (t.unit % 4))) (t.mode - 2) s2
      | 2 => wr (fabPortCtrlLoopback t.unit) (t.mode - 1) s2
      | _ => s2
    else match t.target with
      | 1 => wr (pairStatusState t.unit) 0xD s2
      | 3 => if t.mode = 4 then startPatrol t.unit 2 s2 else s2
      | _ => s2

/-- Lane mask applied (Table 17.6). -/
def laneMask (s : State) (target unit v : Nat) : Nat :=
  let n := match target with
    | 1 => portWidth s (unit / 4) (unit % 4)
    | 2 => 8
    | 3 => 20
    | 4 => 2
    | _ => 1
  if v % 2 ^ n = 0 then 2 ^ n - 1 else v % 2 ^ n

/-- A mesh stop: tile in bits 2:0, stop 0-34 in bits 8:3. -/
def clampStop (s : State) (v : Nat) : Nat := min (tiles (vOf s) - 1) (v % 8) + min 34 (v / 8) * 8

def testLoopback (i : Nat) (c : Bytes) (s : State) : State :=
  let tg := let v := arg c 0 1; if 1 ≤ v ∧ v ≤ 5 then v else 1
  let u := match tg with
    | 1 => clampUnit 32 (fun x => groupPresent s (x / 4)) (arg c 1 1)
    | 2 => clampUnit 6 (fabPortPresent s) (arg c 1 1)
    | 3 => clampUnit 16 (chanPresent s) (arg c 1 1)
    | 4 => min 1 (arg c 1 1)
    | _ => arg c 1 1
  let ok : Nat → Bool := fun d => match tg with
    | 1 => decide (2 ≤ d) && decide (d ≤ 4)
    | 2 => decide (1 ≤ d) && decide (d ≤ 4)
    | 3 => d == 1 || d == 2
    | _ => d == 1
  let dp := if ok (arg c 2 1) then arg c 2 1 else if tg ≤ 2 then 2 else 1
  let pt := clampEnum 4 2 (arg c 3 1)
  let ln := laneMask s tg u (arg c 4 4)
  let bt := clampR 1 1000000 (arg c 8 4)
  let sb := if tg = 5 then clampStop s (arg c 0xC 2) else arg c 0xC 2
  let sa := if tg = 5 then clampStop s (arg c 0xE 2) else arg c 0xE 2
  let cl := chg (arg c 0 1) tg + chg (arg c 1 1) u + chg (arg c 2 1) dp + chg (arg c 3 1) pt + chg (arg c 4 4) ln +
    chg (arg c 8 4) bt + chg (arg c 0xC 2) sb + chg (arg c 0xE 2) sa
  startTest i cl 1 tg u dp bt 25 [(0, 1, tg), (1, 1, u), (2, 1, dp), (3, 1, pt), (4, 4, ln), (8, 4, bt), (0xC, 2, sb),
    (0xE, 2, sa), (0x10, 8, arg c 0x10 8)] (loopTestable s tg u dp) s

/-- Units of test.bist and test.inject. -/
def clampTestUnit (s : State) (target v : Nat) : Nat :=
  match target with
  | 1 => clampUnit 136 (pairPresent s) v
  | 2 => clampUnit 128 (slicePresent s) v
  | 3 => clampUnit 16 (chanPresent s) v
  | 4 => clampUnit 8 (groupPresent s) v
  | 5 => clampUnit 6 (fabPortPresent s) v
  | _ => min 1 v

def testBist (i : Nat) (c : Bytes) (s : State) : State :=
  let tg := let v := arg c 0 1; if 1 ≤ v ∧ v ≤ 6 then v else 1
  let u := clampTestUnit s tg (arg c 1 1)
  let md := let v := arg c 2 1; if v = 1 ∨ v = 2 ∨ v = 3 ∨ (v = 4 ∧ tg = 3) then v else 3
  startTest i (chg (arg c 0 1) tg + chg (arg c 1 1) u + chg (arg c 2 1) md) 2 tg u md (bistBeats tg md) 0
    [(0, 1, tg), (1, 1, u), (2, 1, md)] (bistTestable s tg u md) s

/-! ## End -/

/-- Another running test needs the domain. -/
def testNeeds (s : State) (d : Nat) : Bool := (runningTests s).any fun e => (testDomains e.2.kind e.2.target e.2.unit).contains d

/-- The unit returns to the state it held, and its domains are switched off again at the next step 4 (R38, R430), but for one that
another test needs; a patrol lap of the test stops with it, and a failing pair is retired. -/
def leaveTest (t : Test) (s : State) : State :=
  let s1 :=
    if t.kind = 1 then
      match t.target with
      | 1 => wr (portCtrlLoopback (portBase (t.unit / 4) (t.unit % 4))) 0 s
      | 2 => wr (fabPortCtrlLoopback t.unit) 0 s
      | _ => s
    else if t.target = 1 ∧ rd s (pairStatusState t.unit) = 0xD then
      if t.outcome = 1 ∧ t.prior ≠ 0xB then
        let a := wr (pairStatusState t.unit) 0xB s
        if rdB a (pairStatusSlotValid t.unit) then unbindSlot t.unit a else a
      else
        let a := wr (pairStatusState t.unit) t.prior s
        if t.prior = 9 then rebindSlots 128 a else a
    else if t.target = 3 ∧ t.mode = 4 ∧ rd s (mcPatrolReason t.unit) = 2 then wr (mcPatrolRunning t.unit) 0 (wr (mcPatrolReason t.unit) 0 s)
    else s
  (t.switched.reverse.filter fun d => !testNeeds s d).foldl (fun a d => addDue (beat s) 4 (.switch d false) a) s1

/-- A test ends with its outcome. -/
def endTest (id : Nat) (t : Test) (s : State) : State :=
  leaveTest t { s with tests := tset none s.tests id (some { t with ended := some (beat s) }) }

/-- A fence or a sleep request interrupts the tests of these units (R432). -/
def interruptTests (p : Nat × Nat → Bool) (s : State) : State :=
  (runningTests s).foldl (fun a (e : Nat × Test) =>
    if (testUnits e.2.kind e.2.target e.2.unit).any p then endTest e.1 { e.2 with outcome := 2 } a else a) s

/-- What a test has found when it ends: the far end did not follow (outcome 4), errors on a lane or a failed part
(outcome 1), a lap not complete (outcome 3), or a pass. -/
def testResult (s : State) (t : Test) (r : TestRep) : Test :=
  if t.kind = 1 then
    { t with outcome := if r.follow = false ∧ t.mode = 4 ∧ t.target ≤ 2 then 4 else if r.errors.any (· != 0) then 1 else 0
             bits := r.bits, first := if r.errors.any (· != 0) then r.first else 0
             detail := if t.target = 5 then min r.least 65535 + min r.most 65535 * 65536 else 0
             errors := (r.errors.take 20).map (min (2 ^ 32 - 1)) }
  else if t.mode = 4 then
    let done := rd s (mcPatrolRunning t.unit) = 0
    { t with outcome := if done then 0 else 3, detail := rd s (mcPatrolLapBeats t.unit) }
  else
    let l := t.mode == 2 || r.logic
    let m := t.mode == 1 || r.memory
    { t with outcome := if l && m then 0 else 1, first := r.first,
             detail := (r.logic && t.mode != 2).toNat + 2 * (r.memory && t.mode != 1).toNat }

def testEnd (id : Nat) (r : TestRep) (s : State) : State :=
  match tget none s.tests id with
  | some t =>
    if t.ended.isNone ∧ t.start + t.dur ≤ beat s ∨ t.ended.isNone ∧ t.start ≤ beat s ∧
        ((t.kind = 1 ∧ r.follow = false) ∨ (t.kind = 2 ∧ t.mode = 4 ∧ rd s (mcPatrolRunning t.unit) = 0)) then
      endTest id (testResult s t r) s
    else s
  | none => s

/-- test.status: a reported test that has ended frees its ID (R429). -/
def testStatus (i : Nat) (c : Bytes) (s : State) : State :=
  let id := min 7 (arg c 0 1)
  let cl := chg (arg c 0 1) id
  match tget none s.tests id with
  | none => stageDone i cl (mkBytes [(0, 1, id)]) s
  | some t =>
    let e := t.ended.isSome
    let s1 : State := if e then { s with tests := tset none s.tests id (some { t with reported := true }) } else s
    stageDone i cl (mkBytes ([(0, 1, id), (1, 1, t.kind), (2, 1, if e then 2 else 1), (3, 1, if e then t.outcome else 0),
      (4, 1, t.target), (5, 1, t.unit), (6, 1, t.mode), (8, 8, t.start), (0x10, 8, t.ended.getD 0), (0x18, 8, t.bits),
      (0x20, 8, t.first), (0x28, 4, t.detail)] ++ t.errors.zipIdx.map fun (v, n) => (0x40 + 4 * n, 4, v))) s1

/-! ## Injections (R436) -/

def armKey (target unit : Nat) : Nat := target * 256 + unit

/-- Table 17.4: the state an injection needs. -/
def injectOutcome (s : State) (target unit sub : Nat) : Nat :=
  match target with
  | 1 => if rd s (pairStatusState unit) = 3 ∧ (hartsOfPair s unit).all (fun h => hartRuns s h && ownerOf s h == 0) then 0 else 1
  | 2 => if rd s (llcStatusState unit) = 1 then 0 else 1
  | _ => if rd s (mcStatusState unit) ≠ 3 then 1 else if subOwned s unit sub then 2 else 0

/-- Undo what an arming has set and forget it. -/
def disarm (target unit : Nat) (s : State) : State :=
  let s1 : State := { s with armed := tset none s.armed (armKey target unit) none }
  match target with
  | 1 => modPair unit (fun q => { q with injectB := none }) s1
  | 2 => setSlice unit { sliceOf s1 unit with injCe := false, injUe := false, injTag := false } s1
  | _ => modChan unit (fun r => { r with injCa := none, injCrc := none }) s1

def testInject (i : Nat) (c : Bytes) (s : State) : State :=
  let tg := let v := arg c 0 1; if 1 ≤ v ∧ v ≤ 3 then v else 2
  let u := clampTestUnit s tg (arg c 1 1)
  let k := clampEnum ([1, 3, 2][tg - 1]?.getD 1) 0 (arg c 2 1)
  let sb := if tg = 3 then min 1 (arg c 3 1) else arg c 3 1
  let cl := chg (arg c 0 1) tg + chg (arg c 1 1) u + chg (arg c 2 1) k + chg (arg c 3 1) sb
  let o := injectOutcome s tg u sb
  let old := (tget none s.armed (armKey tg u)).isSome
  let out := fun r => stageDone i cl (mkBytes [(0, 1, tg), (1, 1, u), (2, 1, k), (3, 1, sb), (4, 1, r)])
  if o ≠ 0 then out o s
  else
    let s1 := disarm tg u s
    let s2 : State := { s1 with armed := tset none s1.armed (armKey tg u) (some ⟨k, sb, beat s⟩) }
    out (if old then 3 else 0)
      (if tg = 1 then modPair u (fun q => { q with injectB := some (beat s + 1000000) }) s2 else s2)

/-- An armed injection of this kind (R436). -/
def isArmed (s : State) (target unit kind : Nat) : Option Arm :=
  match tget none s.armed (armKey target unit) with
  | some a => if a.kind = kind ∧ beat s < a.beat + 1000000 then some a else none
  | none => none

/-- A write of LLC_INJECT; discarded unless test.inject has armed that kind. -/
def llcInject (n kind : Nat) (s : State) : State :=
  match isArmed s 2 n kind with
  | some a => setSlice n (let r := sliceOf s n
      match kind with
      | 0 => { r with injCe := true }
      | 1 => { r with injUe := true }
      | _ => { r with injTag := true }) { s with armed := tset none s.armed (armKey 2 n) (some ⟨3, 0, a.beat⟩) }
  | none => s

/-- A write of MC_INJECT on an armed subchannel. -/
def mcInject (c sub kind : Nat) (s : State) : State :=
  match isArmed s 3 c kind with
  | some a => if a.sub = sub then
      modChan c (fun r => if kind = 0 then { r with injCa := some sub } else { r with injCrc := some sub })
        { s with armed := tset none s.armed (armKey 3 c) (some ⟨3, sub, a.beat⟩) }
    else s
  | none => s

def injectionExpiry (target unit : Nat) (s : State) : State :=
  match tget none s.armed (armKey target unit) with
  | some a => if a.beat + 1000000 ≤ beat s then disarm target unit s else s
  | none => s

/-! ## Loop-back followers (R434) -/

def loopbackFollow (k : Nat) (s : State) : State :=
  if portState5 s k = 1 ∨ portState5 s k = 2 ∨ portState5 s k = 6 then
    wr (fabPortStatusState k) 2 (modPort k (fun p => { p with follow := true }) s)
  else s

def followStop (k : Nat) (s : State) : State := if (fportOf s k).follow then bringUp k s else s

/-! ## Meanings -/

/-- LLC_INJECT_DATA_CE (R436, R137). -/
def execLlcInjectDataCe (slice : Nat) (s : State) : Host.Outcome State Fault Refusal := .next (llcInject slice 0 s)
/-- LLC_INJECT_DATA_UE (R436, R137). -/
def execLlcInjectDataUe (slice : Nat) (s : State) : Host.Outcome State Fault Refusal := .next (llcInject slice 1 s)
/-- LLC_INJECT_TAG_PAR (R436, R137). -/
def execLlcInjectTagPar (slice : Nat) (s : State) : Host.Outcome State Fault Refusal := .next (llcInject slice 2 s)
/-- MC_INJECT_CA_PARITY (R436, R173). -/
def execMcInjectCaParity (c sub : Nat) (s : State) : Host.Outcome State Fault Refusal := .next (mcInject c sub 0 s)
/-- MC_INJECT_WCRC (R436, R173). -/
def execMcInjectWcrc (c sub : Nat) (s : State) : Host.Outcome State Fault Refusal := .next (mcInject c sub 1 s)
/-- TEST_END (R429, R430, R433, R435). -/
def execTestEnd (id : Nat) (r : TestRep) (s : State) : Host.Outcome State Fault Refusal := .next (testEnd id r s)
/-- LOOPBACK_FOLLOW (R434). -/
def execLoopbackFollow (k : Nat) (s : State) : Host.Outcome State Fault Refusal := .next (loopbackFollow k s)
/-- INJECTION_EXPIRY (R436). -/
def execInjectionExpiry (target unit : Nat) (s : State) : Host.Outcome State Fault Refusal := .next (injectionExpiry target unit s)
/-- TEST_LOOPBACK (R429, R433, R439). -/
def execTestLoopback (mbx : Nat) (s : State) : Host.Outcome State Fault Refusal := .next (onCmd mbx 0x0D01 (testLoopback mbx) s)
/-- TEST_BIST (R429, R435, R439). -/
def execTestBist (mbx : Nat) (s : State) : Host.Outcome State Fault Refusal := .next (onCmd mbx 0x0D02 (testBist mbx) s)
/-- TEST_INJECT (R436, R439). -/
def execTestInject (mbx : Nat) (s : State) : Host.Outcome State Fault Refusal := .next (onCmd mbx 0x0D03 (testInject mbx) s)
/-- TEST_STATUS (R439). -/
def execTestStatus (mbx : Nat) (s : State) : Host.Outcome State Fault Refusal := .next (onCmd mbx 0x0D04 (testStatus mbx) s)
/-- LOOPBACK_REQUEST_STOP (R434). -/
def execLoopbackRequestStop (k : Nat) (s : State) : Host.Outcome State Fault Refusal := .next (followStop k s)

end Sys2Proof.Machine
end

