-- ==== Sys2Proof/Machine/Power.lean ====
section
/-! DEFINITION. Machine/Power.lean: the envelope and the pairs' clocks, sensors and thermal limits, Drowse, Dormant and the
power commands (R388 to R415, R426, R457). -/
namespace Sys2Proof.Machine

def setPower (p : Power) (s : State) : State := { s with power := p }

/-! ## Sensors (R411, R426) -/

def sensorOf (s : State) (n : Nat) : Sensor := tget {} s.chip.sensors n

/-- The sensor that stands in for another (Table 16.5). -/
def neighbour (n : Nat) : Nat :=
  if n < 136 then 184 + 4 * (n / 17) + Config.nearSensor n % 4
  else if n < 160 then 216 + 2 * chanTile (n - 144) + Config.nearSensor n % 2
  else if n < 168 then 216 + 2 * groupTile (n - 160) + Config.nearSensor n % 2
  else if n < 184 then 216 + 2 * fabTile (n - 168) + Config.nearSensor n % 2
  else if n < 216 then 184 + 4 * ((n - 184) / 4) + ((n - 184) % 4 + 1) % 4
  else 216 + 2 * ((n - 216) / 2) + (1 - (n - 216) % 2)

/-- A reading that is taken: in range, near the previous one, of a sensor not retired. -/
def readingOk (q : Sensor) (v : Int) : Bool :=
  !q.retired && decide (-40 ≤ v) && decide (v ≤ 150) &&
    (match q.last with | some p => decide ((v - p).natAbs ≤ 20) | none => true)

/-- Every reading of the boundary is taken or discarded; a discarded one is recorded. -/
def takeReading (b : Nat) (s : State) (e : Nat × Int) : State :=
  let q := sensorOf s e.1
  let put := fun (r : Sensor) (a : State) => { a with chip := { a.chip with sensors := tset {} a.chip.sensors e.1 r } }
  if readingOk q e.2 then put { q with last := some e.2, badRuns := 0 } s
  else if q.retired then s
  else recContained b 10 e.1 0x0A04 0 [] (put { q with badRuns := q.badRuns + 1 } s)

/-- A sensor's reading of this boundary: none when it was discarded or its sensor is retired. -/
def goodReading (s : State) (n : Nat) : Option Int :=
  let q := sensorOf s n
  if q.retired || q.badRuns != 0 then none else q.last

/-- The reading in force: the sensor's, else its neighbour's. -/
def reading (s : State) (n : Nat) : Option Int :=
  match goodReading s n with
  | some v => some v
  | none => if (sensorOf s n).last.isNone && (sensorOf s n).badRuns == 0 then none else goodReading s (neighbour n)

/-- Reading of a pair, in °C: with both sensors discarded it counts as t_throttle + 1. -/
def pairReading (s : State) (p : Nat) : Option Int :=
  let th : Int := rd s pwrCtrlTThrottle
  match reading s p with
  | some v => some v
  | none => if (sensorOf s p).retired || (sensorOf s p).badRuns != 0 then some (th + 1) else none

/-- PWR_THERM: the highest reading and its sensor; domains other than pairs above t_throttle + 10 °C are recorded. -/
def thermRegs (b : Nat) (s : State) : State :=
  let vs := s.chip.sensors.filterMap fun e => (goodReading s e.1).map fun v => (e.1, v)
  let top := vs.foldl (fun (a : Option (Nat × Int)) e => match a with
    | some x => if x.2 < e.2 then some e else a
    | none => some e) none
  let s1 := match top with
    | some (n, v) => wr pwrThermTMax (v.emod 256).toNat (wr pwrThermSensor n s)
    | none => s
  let limit : Int := rd s pwrCtrlTThrottle + 10
  vs.foldl (fun a e => if 136 ≤ e.1 ∧ limit < e.2 then recContained b 10 e.1 0x0A04 0 [] a else a) s1

/-! ## Envelope and clocks (R389, R394, R395, R397, R398, R411) -/

/-- The envelope in mW for a VIN average in mV (R389). -/
def envelopeMw (s : State) (vinMv : Nat) : Nat := min (rd s pwrCtrlTdpW * 1000) (vinMv * 558 / 10)

def serveSealed (s : State) (p : Nat) : Bool := (hartsOfPair s p).any fun h => isSealed s (ownerOf s h)

/-- Powered pairs. -/
def pairsOn (s : State) : List Nat := (presentPairs s).filter (domOn s)

/-- Power of pairs with their requests capped. -/
def pairsMw (s : State) (ps : List Nat) (cap : Nat) : Nat :=
  (ps.map fun p => Config.pairMw p (min (rd s (pwrDomainFreqReq p)) cap)).sum

/-- Pairs clock-gated, in descending order, until the rest fits at 1.0 GHz. -/
def gateUntil (s : State) (budget : Nat) : List Nat → List Nat
  | [] => []
  | p :: r => if pairsMw s (p :: r) 10 ≤ budget then [] else p :: gateUntil s budget r

/-- Cap in 100 MHz units that makes these pairs fit, and the pairs gated when none does. -/
def fitPairs (s : State) (ps : List Nat) (budget : Nat) : Nat × List Nat :=
  match ((List.range 27).map (36 - ·)).find? fun cap => decide (pairsMw s ps cap ≤ budget) with
  | some cap => (cap, [])
  | none => (10, gateUntil s budget ps.reverse)

/-- R395: caps of the sealed pairs and of the others, and the gated pairs; a Libero's clock is gated already (R82). -/
def allocate' (s : State) (otherMw envelope : Nat) : Nat × Nat × List Nat :=
  let on := (pairsOn s).filter fun p => rd s (pairStatusState p) != 9
  let sl := on.filter (serveSealed s)
  let rest := on.filter fun p => !serveSealed s p
  let b := envelope - otherMw
  let own := pairsMw s sl 36
  if own ≤ b then let r := fitPairs s rest (b - own); (36, r.1, r.2)
  else let q := fitPairs s sl b; (q.1, 10, rest ++ q.2)

/-- R396: with tdp_w at 640 W, VIN at or above 11.47 V and the device in its rated environment, the envelope covers every pair at
2.6 GHz, and none is granted less (log entry 39). -/
def floorGrant (inp : BeatIn) (s : State) (a : Nat × Nat × List Nat) : Nat × Nat × List Nat :=
  if rd s pwrCtrlTdpW = 640 ∧ 11470 ≤ inp.vinMv ∧ inp.rated then (max 26 a.1, max 26 a.2.1, []) else a

/-- Notice 0x0005 to the sealed owners of the pair's harts. -/
def clockNotice (p : Nat) (s : State) : State :=
  (hartsOfPair s p).foldl (fun a h => if isSealed a (ownerOf a h) then
    sealNotice (ownerOf a h) 0x0005 [(0x18, 2, h), (0x1C, 4, rd a (pwrDomainFreq p) * 100)] a else a) s

/-- One pair's throttle and frequency at a boundary. -/
def setClock (capS capR : Nat) (gated : List Nat) (s : State) (p : Nat) : State :=
  let q := pairOf s p
  let alloc := max 10 (min (rd s (pwrDomainFreqReq p)) (if serveSealed s p then capS else capR))
  let th : Int := rd s pwrCtrlTThrottle
  let hy : Int := rd s pwrCtrlHyst
  let fall : Bool := match pairReading s p with
    | some v => decide (th < v) || (decide (th - hy < v) && q.falling)
    | none => q.falling
  let steps := if fall then min (alloc - 10) (q.throttle + 1) else q.throttle - 1
  let f := if inSparing s p then rd s (pwrDomainFreq p) else alloc - steps
  let s1 := if fall ∧ q.throttle < alloc - 10 then bump pwrThermThrottleSteps 1 s else s
  let s2 := wr (pwrDomainFreq p) f (modPair p (fun x => { x with
    falling := fall, throttle := steps, halved := false, clkGated := rd s (pairStatusState p) == 9 || (gated.contains p && !inSparing s p) }) s1)
  if q.halved ∨ rd s (pwrDomainFreq p) ≠ f ∨ q.clkGated ≠ (pairOf s2 p).clkGated then clockNotice p s2 else s2

/-- Step 4: the envelope, every pair's frequency, the thermal throttle. -/
def clockBeat (inp : BeatIn) (s : State) : State :=
  let env := envelopeMw s inp.vinMv
  let s1 := wr pwrVinVinMv inp.vinMv (wr pwrVinIin inp.iin (wr pwrVinEnvelopeW (env / 1000) s))
  let (cs, cr, g) := floorGrant inp s1 (allocate' s1 inp.otherMw env)
  let s2 := (pairsOn s1).foldl (setClock cs cr g) s1
  let s3 := if g = [] then s2 else bump pwrLimitGatedBeats 1 s2
  wrB pwrThermThrottling (s3.pairs.any fun e => e.2.throttle != 0) s3

/-- The limiter halves a pair until the next boundary (R397). -/
def halve (s : State) (p : Nat) : State :=
  if (pairOf s p).halved then s
  else wr (pwrDomainFreq p) (rd s (pwrDomainFreq p) / 2) (modPair p (fun q => { q with halved := true }) s)

def inputLimit (iin ns : Nat) (s : State) : State :=
  if 6200 < iin ∧ 200 ≤ ns then
    let ps := (pairsOn s).filter fun p => (!serveSealed s p || decide (2200 ≤ ns)) && !(pairOf s p).halved
    if ps = [] then s else bump pwrLimitCurrentEvents 1 (ps.foldl halve s)
  else s

def thermalHalving (p : Nat) (degC : Int) (s : State) : State :=
  let limit : Int := rd s pwrCtrlTThrottle + 10
  if domOn s p ∧ p < 136 ∧ limit < degC ∧ (pairOf s p).halved = false then bump pwrLimitThermalEvents 1 (halve s p) else s

/-! ## Drowse (R399 to R401) -/

/-- Every hart of the pair is in WFI or offline. -/
def pairIdle (s : State) (p : Nat) : Bool :=
  (hartsOfPair s p).all fun h => (hartOf s h).wfi || (hartOf s h).st == .offline || (hartOf s h).st == .gated

/-- Boundaries for which a pair has been idle. -/
def countIdle (s : State) (p : Nat) : State :=
  modPair p (fun q => { q with idleBeats := if pairIdle s p then q.idleBeats + 1 else 0 }) s

/-- R400 lets the pair be gated. -/
def mayGate (s : State) (p : Nat) : Bool :=
  rdB s pwrCtrlDrowse && rdB s (pairStatusSlotValid p) && domOn s p && !domHeld s p && !serveSealed s p &&
    (! (List.contains [9, 10] (rd s (pairStatusState p)))) && !inSparing s p && pairIdle s p &&
    decide (rd s pwrCtrlDrowseBeats ≤ (pairOf s p).idleBeats)

def pairWaked (s : State) (p : Nat) : Bool := (hartsOfPair s p).any (irqPending s)

def gateStart (p : Nat) (s : State) : State :=
  if mayGate s p ∧ (pairOf s p).gating = false then modPair p (fun q => { q with gating := true }) s else s

/-- The drain writes the L2 back and the images stand in the save array; PD_PAIR switches off at the next step 4. An armed fault that the
drain meets freezes the pair instead (R109). -/
def gateDone (p : Nat) (s : State) : State :=
  if (pairOf s p).gating ∧ (pairOf s p).saved = false then
    let s := drainTrips (2 * p) s
    if inSparing s p then modPair p (fun q => { q with gating := false }) s
    else
    let s1 := (drainCore (2 * p + 1) (drainCore (2 * p) s).1).1
    addDue (beat s + 1) 4 (.gatePair p) (modPair p (fun q => { q with saved := true }) s1)
  else s

/-- Drowse is reached when every pair that may be gated is gated; a restored pair ends it. -/
def judgeDrowse (s : State) : State :=
  let n := (presentPairs s).filter fun p => domState s p == 3
  let s1 := wr pwrStatusPairsGated n.length s
  if rd s pwrStatusPkgState ≤ 2 then
    if n ≠ [] ∧ (presentPairs s).all (fun p => !mayGate s p) then wr pwrStatusPkgState 2 s1
    else if rd s pwrStatusPkgState = 2 then wr pwrStatusPkgState (if allWfi s then 1 else 0) s1 else s1
  else s1

/-- Gating is abandoned: the hart goes on unchanged. -/
def gateAbandon (s : State) (p : Nat) : State :=
  if (pairOf s p).gating ∧ pairWaked s p then modPair p (fun q => { q with gating := false, saved := false }) s else s

def gatePair (p : Nat) (s : State) : State :=
  if (pairOf s p).gating ∧ (pairOf s p).saved then
    if domHeld s p then addDue (beat s + 1) 4 (.gatePair p) s
    else
      let s1 := (hartsOfPair s p).foldl (fun a h =>
        if (hartOf a h).st = .running then setHart h { hartOf a h with st := .gated } a else a) s
      judgeDrowse (wr (pwrDomainState p) 3 (wr (pwrDomainMv p) 0 (wr (pwrDomainFreq p) 0 s1)))
  else s

/-- An interrupt for a gated hart: on at the next step 4, restored within 2 beats, resumed within 4. -/
def gatedWake (p : Nat) (s : State) : State :=
  if domState s p = 3 ∧ pairWaked s p ∧ (pairOf s p).restoreAt.isNone then
    addDue (beat s + 4) 5 (.ungate p) (addDue (beat s + 1) 4 (.switch p true)
      (modPair p (fun q => { q with restoreAt := some (beat s + 4) }) s))
  else s

/-- The harts resume with the owner's seed, the caches and predictors cold. -/
def ungate (p : Nat) (s : State) : State :=
  if (pairOf s p).restoreAt.isSome then
    if domOn s p then
      let s1 := (hartsOfPair s p).foldl (fun a h => if (hartOf a h).st = .gated then
          wakeHart h (rekey h (setHart h { hartOf a h with st := goesOnAs a h } a)) else a) (freshCores p s)
      judgeDrowse (modPair p (fun q => { q with restoreAt := none, gating := false, saved := false, idleBeats := 0 }) s1)
    else addDue (beat s + 1) 5 (.ungate p) s
  else s

/-! ## Dormant (R402 to R410) -/

/-- Number of members of the fabric. -/
def memberCount (s : State) : Nat := ((List.range 64).filter fun d => inMask (rd s fabMembersMembers) d).length

/-- R402: 0 when Dormant may be entered, else the outcome of Table 15.13. -/
def sleepOutcome (s : State) : Nat :=
  if (startedHarts s).any fun h => isSealed s (ownerOf s h) then 2
  else if rdB s fabIdMember ∧ 2 ≤ memberCount s then 3
  else if (presentGroups s).any fun g => (portRole s g 0 == 2 || portRole s g 0 == 4) && (portState s g 0 == 3 || portState s g 0 == 4) then 4
  else if (List.range 64).any fun d => [3, 4, 6, 7, 8].contains (dmaState s d) then 5
  else 0

/-- Entry begins at this boundary as b of Table 15.4. -/
def beginSleep (mbx : Option Nat) (s : State) : State :=
  wr pwrStatusPkgState 3 (wr pwrStatusLastEntry (if mbx.isSome then 1 else 2)
    (setPower { s.power with sleep := .asked, entryB := beat s, mbx := mbx, wakeSrc := 0 } s))

def powerDormant (i : Nat) (_ : Bytes) (s : State) : State :=
  let o := sleepOutcome s
  if o ≠ 0 ∨ s.power.sleep ≠ .none then stageDone i 0 (mkBytes [(0, 1, o)]) s else beginSleep (some i) s

def idleExpiry (s : State) : State :=
  if rd s pwrIdleIdleBeats ≠ 0 ∧ rd s pwrIdleIdleBeats ≤ rd s pwrIdleCount ∧ sleepOutcome s = 0 ∧ s.power.sleep = .none then
    beginSleep none s
  else s

/-- The sleep request: harts stop, tests end, ports go to role 0 or out of service. -/
def sleepRequest (s : State) : State :=
  if s.power.sleep = .asked ∧ s.power.entryB < beat s ∧ anyHeld s = false then
    let hs := (startedHarts s).filter fun h => (hartOf s h).st == .running
    let fp := (presentFabPorts s).filter fun k => (fportOf s k).oos == false && (fportOf s k).fenced == false
    let s1 := interruptTests (fun _ => true) s
    let s2 := hs.foldl (fun a h => setHart h { hartOf a h with st := .stopped } a) s1
    let s3 := (presentGroups s).foldl (fun a g =>
      let b := modGroup g (fun q => { q with kept := some (bifOf a g, (List.range 4).map fun n => portRole a g n) }) a
      (portsOf b g).foldl (fun x n => takeRole g n 0 x) b) s2
    let s4 := fp.foldl (fun a k => modPort k (fun q => { q with oos := true }) (wr (fabPortStatusState k) 7 (linkFailed k 7 a))) s3
    setPower { s4.power with sleep := .asleep, entryB := beat s - 1, stopped := hs, ports := fp } (showIsolated s4)
  else s

/-- The ports of a released group take back role and bifurcation and train (R405). -/
def retakePort (s : State) (g : Nat) : State :=
  match (groupOf s g).kept with
  | some (code, roles) =>
    let s1 := takeBif g code s
    modGroup g (fun q => { q with kept := none })
      (roles.zipIdx.foldl (fun a (r, n) => if r = 0 then a else takeRole g n r a) s1)
  | none => s

def returnFab (s : State) (k : Nat) : State :=
  if s.power.ports.contains k then
    bringUp k (modPort k (fun q => { q with oos := false }) (setPower { s.power with ports := s.power.ports.filter (· != k) } s))
  else s

/-- Result of power.dormant (Table 15.12). -/
def dormantResult (s : State) (outcome src entered resumed : Nat) : Bytes :=
  mkBytes [(0, 1, outcome), (1, 1, src), (8, 8, entered), (0x10, 8, rd s clkWakeIntervalIntervalNs),
           (0x18, 8, rd s clkWakeUncertUncertNs), (0x20, 8, resumed)]

/-- Harts that stand stopped or saved go on. -/
def resumeHarts (s : State) : State :=
  s.power.stopped.foldl (fun a h => wakeHart h (setHart h { hartOf a h with st := .running } a)) s

/-- A wake latched up to cycle L, or a doorbell on mailbox 257, ends the entry (R407). -/
def declineSleep (s : State) : State :=
  let p := s.power
  let s1 := (presentGroups s).foldl retakePort (resumeHarts s)
  let s2 := p.ports.foldl returnFab s1
  let s3 := bump pwrStatusDeclines 1 (wr pwrStatusLastDeclined 1 (wr pwrIdleCount 0
    (wr pwrStatusPkgState (if allWfi s2 then 1 else 0) (setPower { s2.power with sleep := .none, stopped := [], mbx := none } s2))))
  match p.mbx with
  | some i => stageDone i 0 (dormantResult s3 1 p.wakeSrc 0 (beat s3)) s3
  | none => s3

/-- Mailbox 257 has a latched command. -/
def doorbell257 (s : State) : Bool := rd s (mbxStatState 257) == 1

/-- A slice writes back its dirty lines, each read as R127 states; its arrays are then switched off. -/
def emptySlice (s : State) (n : Nat) : State :=
  let r := sliceOf s n
  let s1 := (r.lines ++ r.victims).foldl (fun a e => dropArr n e.1 (cleanLine n e.1 a)) s
  putSlice n { sliceOf s1 n with dir := [] } s1

/-- Pads latched in cycle L: every group of Table 15.5 that the variant has. -/
def allPads (s : State) : Nat :=
  maskOf (presentChans s ++ (presentGroups s).map (16 + ·) ++ (presentFabPorts s).map (24 + ·) ++ [30, 31, 32])

/-- From the end of the drains and of the 1,000 beats of the RC trim, which began with the sleep request, to cycle L and after (R48,
Table 15.4). -/
def drainsDone (subNs phase : Nat) (s : State) : State :=
  if s.power.sleep = .asleep ∧ s.power.wakeSrc = 0 ∧ doorbell257 s = false ∧ s.power.entryB + 1001 ≤ beat s then
    let s1 := (presentPairs s).foldl (fun a p => (drainCore (2 * p + 1) (drainCore (2 * p) a).1).1) s
    let s2 := (presentSlices s).foldl emptySlice s1
    let s3 := wr clkRcTrimPeriodFs (freeVal (2 ^ 32) s2) (freeNext s2)
    let s4 := (presentChans s).foldl (fun a c => selfRefreshEnter c a) s3
    let s5 := s.power.stopped.foldl (fun a h => setHart h { hartOf a h with st := .saved } a) s4
    let s6 := setTime { s5.time with tEntry := now s - s.time.sub + subNs, tLast := now s - s.time.sub, bLast := beat s
                                     oscPhase := phase, dormant := true } s5
    let on := (List.range 182).filter (domOn s)
    let s7 := on.foldl (fun a d => setDomain d false a) s6
    wr pwrPadsHeld (allPads s) (wr pwrWakeTimeEntryBeats (beat s - s.power.entryB)
      (setPower { s7.power with sleep := .latched, wasOn := on, lastB := beat s } s7))
  else s

/-- A match on the I3C sideband latches a wake (R406). -/
def wakeMatch (tile addr : Nat) (s : State) : State :=
  if (s.power.sleep = .asleep ∨ s.power.sleep = .latched) ∧ rdB s pwrWakeEnable ∧ addr = rd s pwrWakeAddr ∧ addr ≠ 0x7E ∧
      rd s pwrWakeLatched = 0 then
    let s1 := wr pwrWakeLatched 1 (wr pwrWakeTile (tile % 2) s)
    if s.power.sleep = .asleep then setPower { s1.power with wakeSrc := 1 } s1 else s1
  else s

/-- Uncertainty of a wake in ns (R49). -/
def wakeUncert (s : State) (elapsed : Nat) : Nat :=
  (elapsed * (if rdB s clkStatusAoSource then 50 else 1000) + 999999) / 1000000 + 100

/-- Period of the always-on oscillator in fs: 32.768 kHz, or what CLK_RC_TRIM holds (R48). -/
def oscPeriod (s : State) : Nat :=
  if rdB s clkStatusAoSource then 30517578125 else rd s clkRcTrimPeriodFs

/-- The interval from cycle L to the first good reference edge, in ns: the counted oscillator periods lie between the first
edge after cycle L and the first edge after the reference returned, each placed by its phase in reference cycles of 10 ns
(R48; log entry 31). -/
def oscInterval (ticks phase : Nat) (s : State) : Nat :=
  s.time.oscPhase * 10 + ticks * oscPeriod s / 1000000 - phase * 10

/-- The first good reference edge after Dormant: beat number, platform time and references (R48 to R50). -/
def restoreTime (interval : Nat) (refA refB : Bool) (s : State) : State :=
  let e := interval / 10 * 10
  let t := s.time.tEntry + e
  let sk := (t - s.time.tLast) / 1000
  let u := wakeUncert s e
  let pref := rd s clkCtrlRefPref
  let good := if pref = 0 then refA else refB
  let s1 := wrB clkStatusRefaOk refA (wrB clkStatusRefbOk refB (wr clkStatusRefSel (if good then pref else 1 - pref) s))
  let s2 := wr clkBeatBeat (s.time.bLast + sk) (wr clkTimeTimeNs t (wr clkWakeIntervalIntervalNs e (wr clkWakeUncertUncertNs u
    (bump clkUncertTotalTotalNs u (bump clkWakeCountWakes 1 s1)))))
  setTime { s2.time with sub := t - s.time.tLast - sk * 1000, dormant := false, wakeRefs := true } s2

/-- After a latched wake, hubs, Clerks, Assayers and channels are switched on at the first boundary; a reset that ended Dormant
goes on with the start-up steps (R408). -/
def wakeReference (ticks phase : Nat) (refA refB : Bool) (s : State) : State :=
  let interval := oscInterval ticks phase s
  if s.time.dormant = false ∨ (refA = false ∧ refB = false) then s
  else if s.power.sleep = .latched ∧ rdB s pwrWakeLatched then
    let s3 := restoreTime interval refA refB s
    let s4 := ([180, 181, 176, 177, 178, 179] ++ (List.range 16).map (144 + ·)).foldl (fun a d =>
      if s.power.wasOn.contains d then addDue (beat s3 + 1) 4 (.switch d true) a else a) s3
    let held := rd s4 pwrPadsHeld
    wr pwrPadsHeld (held - held % 2 ^ 16 - (held / 2 ^ 30 % 8) * 2 ^ 30) (wr pwrStatusPkgState 4
      (setPower { s4.power with sleep := .waking } s4))
  else if s.power.sleep = .none then restoreTime interval refA refB s
  else s

/-- Every channel has left self-refresh: the tiles and pairs are switched on at step 4 of the next boundary (R38), each after what it
needs, and the harts resume there. -/
def wakeComplete (badImages : List Nat) (wakeUs : Nat) (s : State) : State :=
  if s.power.sleep = .waking ∧ s.power.resumeAt.isNone ∧ (presentChans s).all (fun c => rd s (mcStatusState c) != 4) then
    let s1 := s.power.wasOn.reverse.foldl (fun a d => if domOn a d then a else addDue (beat s + 1) 4 (.switch d true) a) s
    wr pwrWakeTimeWakeUs wakeUs (setPower { s1.power with resumeAt := some (beat s + 1), bad := badImages } s1)
  else s

/-- A hart whose image is uncorrectable is lost (R404): its owner is told, and it is offline. -/
def lostImage (s : State) (h : Nat) : State :=
  let own := ownerOf s h
  event 2 [1, (pairOfHart s h).getD 0, 0x0106] (recVisible (beat s) 1 ((pairOfHart s h).getD 0) 0x0106 [own] 0 (hartDetail h) h []
    (setHart h { blankHart (hartOf s h) with st := .offline } s))

/-- Step 5 of the boundary at which the harts resume. -/
def wakeHarts (s : State) : State :=
  let p := s.power
  let s1 := (presentPairs s).foldl (fun a q => coldPred (2 * q) (coldPred (2 * q + 1) a)) s
  let bad := p.stopped.filter p.bad.contains
  let s2 := bad.foldl lostImage (resumeHarts (setPower { p with stopped := p.stopped.filter fun h => !p.bad.contains h } s1))
  let s3 := wr pwrStatusPkgState 0 (wr pwrIdleCount 0 (setPower { s2.power with
    sleep := .none, stopped := [], resumeAt := none, mbx := none, bad := [], wasOn := [] } s2))
  match p.mbx with
  | some i => stageDone i 0 (dormantResult s3 0 1 p.lastB (beat s)) s3
  | none => s3

/-- Step 5: a declined entry ends, or the harts resume after a wake. -/
def sleepBoundary (s : State) : State :=
  let s0 := if s.power.sleep = .asleep ∧ s.power.wakeSrc = 0 ∧ doorbell257 s then setPower { s.power with wakeSrc := 2 } s else s
  if s0.power.sleep = .asleep ∧ s0.power.wakeSrc ≠ 0 then declineSleep s0
  else if s0.power.sleep = .waking ∧ s0.power.resumeAt = some (beat s) then wakeHarts s0
  else s0

/-- A beat is idle (R410). -/
def beatIdle (s : State) : Bool :=
  allWfi s && (s.harts.all fun e => !irqPending s e.1) && ((List.range 64).all fun d => dmaState s d != 3) &&
    ((mbxIds s).all fun i => rd s (mbxStatState i) != 1 && rd s (mbxStatState i) != 2) && sleepOutcome s == 0 && s.power.sleep == .none

def idleBeat (s : State) : State :=
  if beatIdle s then wr pwrIdleCount (min (rd s pwrIdleCount + 1) (2 ^ 32 - 1)) s else wr pwrIdleCount 0 s

/-! ## Pads (R405) -/

def releasePads (mask : Nat) (s : State) : State :=
  let held := rd s pwrPadsHeld
  let m := mask &&& held
  let s1 := wr pwrPadsHeld (held - m) s
  let s2 := ((List.range 8).filter fun g => inMask m (16 + g)).foldl retakePort s1
  ((List.range 6).filter fun k => inMask m (24 + k)).foldl returnFab s2

def padsWrite (mask : Nat) (s : State) : State := addDue (beat s + 1) 4 (.pads (mask % 2 ^ 33)) s

/-! ## power.* commands (R414, R415) -/

def powerStatus (i : Nat) (_ : Bytes) (s : State) : State :=
  let fl := rd s pwrCtrlDrowse + 2 * rd s pwrThermThrottling + 4 * rd s pwrWakeEnable + 8 * rd s pwrWakeLatched
  stageDone i 0 (mkBytes [(0, 1, rd s pwrStatusPkgState), (1, 1, fl), (2, 2, rd s pwrVinVinMv), (4, 2, rd s pwrVinIin),
    (6, 2, rd s pwrVinEnvelopeW), (8, 2, rd s pwrCtrlTdpW), (0xA, 1, rd s pwrThermTMax), (0xB, 1, rd s pwrWakeAddr),
    (0xC, 2, rd s pwrStatusPairsGated), (0xE, 2, rd s pwrStatusDeclines), (0x10, 8, rd s pwrPadsHeld),
    (0x18, 4, rd s pwrIdleIdleBeats), (0x1C, 4, rd s pwrIdleCount), (0x20, 4, rd s pwrWakeTimeWakeUs),
    (0x24, 4, rd s pwrThermThrottleSteps)]) s

def powerState (i : Nat) (c : Bytes) (s : State) : State :=
  let t := clampEnum 3 0 (arg c 0 1)
  let d := clampR 10 10000 (arg c 2 2)
  let cl := chg (arg c 0 1) t + chg (arg c 2 2) d
  if t = 2 then
    if arg c 4 4 = 0x4F464621 then
      wr pwrStatusPkgState 5 (setPower { s.power with offMbx := some i } s)
    else stageDone i cl (mkBytes [(0, 1, t), (1, 1, 1), (2, 2, d)]) s
  else stageDone i cl (mkBytes [(0, 1, t), (2, 2, d)]) (wr pwrCtrlDrowse t (wr pwrCtrlDrowseBeats d s))

/-- The close marker is written, or its timeouts have passed: p is the next boundary (R370, R415). -/
def closeMarker (okA okB : Bool) (s : State) : State :=
  match s.power.offMbx with
  | some i =>
    let p := beat s + 1
    let b := s.boot
    let s1 : State := if okA || okB then { s with boot := { b with
        jseq := (b.jseq + 1) % 2 ^ 32, journal := b.journal ++ [⟨true, b.jseq, b.counter, beat s, now s, 0, [], false⟩] } } else s
    let c := (mbxOf s i).copy
    addDue p 9 (.stage i (chg (arg c 2 2) (clampR 10 10000 (arg c 2 2)))
        (mkBytes [(0, 1, 2), (2, 2, clampR 10 10000 (arg c 2 2)), (8, 8, p + 100)]))
      (setPower { s1.power with offMbx := none, offBeat := some (p + 100) } s1)
  | none => s

/-- Pairs, channels, groups, ports and engines that power.domain may switch. -/
def cmdSwitchable (s : State) (d : Nat) : Bool :=
  if d < 136 then true
  else if d < 144 then false
  else if d < 160 then [5, 6].contains (rd s (mcStatusState (d - 144)))
  else if d < 168 then (portsOf s (d - 160)).all fun n => portState s (d - 160) n == 1
  else if d < 174 then portState5 s (d - 168) == 7
  else if d < 176 then (List.range 32).all fun i => dmaState s ((d - 174) * 32 + i) == 1
  else false

/-- A Libero, or a pair with a started hart. -/
def pairBusy (s : State) (p : Nat) : Bool :=
  [9, 10].contains (rd s (pairStatusState p)) || (hartsOfPair s p).any (hartStarted s)

def domainOutcome (s : State) (d action : Nat) : Nat :=
  if action = 0 then 0
  else if action = 3 then (if d < 136 then 0 else 2)
  else if cmdSwitchable s d = false then 2
  else if d < 136 ∧ pairBusy s d then 4
  else if domOn s d = (action == 2) then 1
  else if maySwitch s d (action == 2) = false then 3
  else 0

def domainResult (s : State) (d action outcome freq b : Nat) : Bytes :=
  mkBytes [(0, 2, d), (2, 1, action), (3, 1, outcome), (4, 2, freq), (6, 1, domState s d), (7, 1, rd s (pwrDomainHeld d)),
    (8, 2, rd s (pwrDomainFreq d) * 100), (0xA, 2, rd s (pwrDomainMv d)), (0x10, 8, b)]

/-- Requested frequency applied, in MHz. -/
def clampFreq (v : Nat) : Nat := clampR 1000 3600 (roundDown 100 v)

def powerDomain (i : Nat) (c : Bytes) (s : State) : State :=
  let d := clampUnit 184 (domainPresent s) (arg c 0 2)
  let a := clampEnum 4 0 (arg c 2 1)
  let f := if a = 3 then clampFreq (arg c 4 2) else arg c 4 2
  let cl := chg (arg c 0 2) d + chg (arg c 2 1) a + chg (arg c 4 2) f
  let o := domainOutcome s d a
  if o = 0 ∧ a ≠ 0 then addStep i (beat s + 1) (.domain i d a) s
  else stageDone i cl (domainResult s d a o f (beat s)) s

/-- The boundary at which a permitted switch or a frequency takes effect; a held domain defers it. -/
def domainApply (i d a : Nat) (s : State) : State :=
  let c := (mbxOf s i).copy
  let f := if a = 3 then clampFreq (arg c 4 2) else arg c 4 2
  let o := domainOutcome s d a
  if domHeld s d then addStep i (beat s + 1) (.domain i d a) s
  else if o ≠ 0 then stageDone i (chg (arg c 0 2) d + chg (arg c 2 1) a + chg (arg c 4 2) f) (domainResult s d a o f (beat s)) s
  else
    let s1 := if a = 3 then wr (pwrDomainFreqReq d) (f / 100) s
      else wrB (pwrDomainReqOn d) (a == 2) (switchDomain d (a == 2) s)
    stageDone i (chg (arg c 0 2) d + chg (arg c 2 1) a + chg (arg c 4 2) f) (domainResult s1 d a 0 f (beat s)) s1

def powerIdle (i : Nat) (c : Bytes) (s : State) : State :=
  let n := let v := arg c 0 4; if v = 0 then 0 else clampR 1000 4000000000 v
  let a := clampR 8 0x77 (arg c 4 1)
  let e := clampEnum 2 1 (arg c 5 1)
  stageDone i (chg (arg c 0 4) n + chg (arg c 4 1) a + chg (arg c 5 1) e)
    (mkBytes [(0, 4, n), (4, 1, a), (5, 1, e), (8, 4, rd s pwrIdleCount)])
    (wr pwrIdleIdleBeats n (wr pwrWakeAddr a (wr pwrWakeEnable e s)))

def powerTdp (i : Nat) (c : Bytes) (s : State) : State :=
  let w := clampR 320 640 (arg c 0 2)
  let t := clampR 70 105 (arg c 2 1)
  let h := clampR 1 15 (arg c 3 1)
  let s1 := wr pwrCtrlTdpW w (wr pwrCtrlTThrottle t (wr pwrCtrlHyst h s))
  stageDone i (chg (arg c 0 2) w + chg (arg c 2 1) t + chg (arg c 3 1) h)
    (mkBytes [(0, 2, w), (2, 1, t), (3, 1, h), (4, 2, envelopeMw s1 (rd s pwrVinVinMv) / 1000), (8, 8, beat s + 1)]) s1

def powerPads (i : Nat) (c : Bytes) (s : State) : State :=
  let v := arg c 0 8
  let held := rd s pwrPadsHeld
  let m := v &&& held
  stageDone i (chg v m) (mkBytes [(0, 8, m), (8, 8, held - m), (0x10, 8, beat s + 1)]) (addDue (beat s + 1) 4 (.pads m) s)

/-! ## Meanings -/

/-- INPUT_CURRENT_LIMIT (R397). -/
def execInputCurrentLimit (iin ns : Nat) (s : State) : Host.Outcome State Fault Refusal := .next (inputLimit iin ns s)
/-- THERMAL_HALVING (R397). -/
def execThermalHalving (pair : Nat) (degC : Int) (s : State) : Host.Outcome State Fault Refusal := .next (thermalHalving pair degC s)
/-- CLOSE_MARKER_WRITTEN (R370, R415). -/
def execCloseMarkerWritten (okA okB : Bool) (s : State) : Host.Outcome State Fault Refusal := .next (closeMarker okA okB s)
/-- DROWSE_GATE_START (R400). -/
def execDrowseGateStart (pair : Nat) (s : State) : Host.Outcome State Fault Refusal := .next (gateStart pair s)
/-- DROWSE_GATE_DONE (R400). -/
def execDrowseGateDone (pair : Nat) (s : State) : Host.Outcome State Fault Refusal := .next (gateDone pair s)
/-- GATED_PAIR_WAKE (R401). -/
def execGatedPairWake (pair : Nat) (s : State) : Host.Outcome State Fault Refusal := .next (gatedWake pair s)
/-- IDLE_TIMER_EXPIRY (R410). -/
def execIdleTimerExpiry (s : State) : Host.Outcome State Fault Refusal := .next (idleExpiry s)
/-- SLEEP_REQUEST (R403, R432). -/
def execSleepRequest (s : State) : Host.Outcome State Fault Refusal := .next (sleepRequest s)
/-- DORMANT_DRAINS_DONE (R403 to R405). -/
def execDormantDrainsDone (subNs phase : Nat) (s : State) : Host.Outcome State Fault Refusal :=
  .next (drainsDone subNs phase s)
/-- I3C_WAKE_MATCH (R406, R407). -/
def execI3cWakeMatch (tile addr : Nat) (s : State) : Host.Outcome State Fault Refusal := .next (wakeMatch tile addr s)
/-- WAKE_REFERENCE_GOOD (R48 to R50, R408). -/
def execWakeReferenceGood (ticks phase : Nat) (refA refB : Bool) (s : State) : Host.Outcome State Fault Refusal :=
  .next (wakeReference ticks phase refA refB s)
/-- WAKE_COMPLETE (R404, R408). -/
def execWakeComplete (badImages : List Nat) (wakeUs : Nat) (s : State) : Host.Outcome State Fault Refusal :=
  .next (wakeComplete badImages wakeUs s)
/-- PWR_PADS_RELEASE (R405). -/
def execPwrPadsRelease (mask : Nat) (s : State) : Host.Outcome State Fault Refusal := .next (padsWrite mask s)
/-- POWER_STATUS (R414). -/
def execPowerStatus (mbx : Nat) (s : State) : Host.Outcome State Fault Refusal := .next (onCmd mbx 0x0201 (powerStatus mbx) s)
/-- POWER_STATE (R415). -/
def execPowerState (mbx : Nat) (s : State) : Host.Outcome State Fault Refusal := .next (onCmd mbx 0x0202 (powerState mbx) s)
/-- POWER_DOMAIN (R392, R414). -/
def execPowerDomain (mbx : Nat) (s : State) : Host.Outcome State Fault Refusal := .next (onCmd mbx 0x0203 (powerDomain mbx) s)
/-- POWER_DORMANT (R402). -/
def execPowerDormant (mbx : Nat) (s : State) : Host.Outcome State Fault Refusal := .next (onCmd mbx 0x0204 (powerDormant mbx) s)
/-- POWER_IDLE (R410, R414). -/
def execPowerIdle (mbx : Nat) (s : State) : Host.Outcome State Fault Refusal := .next (onCmd mbx 0x0205 (powerIdle mbx) s)
/-- POWER_TDP (R414). -/
def execPowerTdp (mbx : Nat) (s : State) : Host.Outcome State Fault Refusal := .next (onCmd mbx 0x0206 (powerTdp mbx) s)
/-- POWER_PADS (R405, R414). -/
def execPowerPads (mbx : Nat) (s : State) : Host.Outcome State Fault Refusal := .next (onCmd mbx 0x0207 (powerPads mbx) s)

end Sys2Proof.Machine
end

