-- ==== Sys2Proof/Machine/Window.lean ====
section
/-! DEFINITION. Machine/Window.lean: what a store of the Clerk or the Assayer does in the control window: each field acts
as its access type says, and the fields whose write does more have their effect (R13, R15, R27, R31, R331). -/
namespace Sys2Proof.Machine

/-! ## Register fields -/

/-- A field that takes part in a write. -/
def hit (m : Nat) (f : Fld) : Bool := m / 2 ^ f.lo % 2 ^ f.w != 0

/-- The value a write gives a field that is taken later or elsewhere. -/
def written (s : State) (w m : Nat) (f : Fld) : Nat :=
  let fm := m / 2 ^ f.lo % 2 ^ f.w
  let old := rd s f % 2 ^ f.w
  old - (old &&& fm) + (w / 2 ^ f.lo % 2 ^ f.w &&& fm)

/-- PAIR_CTRL and PAIR_OWNER: mode and owner take effect at step 5 of the next boundary (R84, R208), a
core's new owner with a new seed and cleared structures (R63, R69); inject_b only when
armed (R436). -/
def pairStore (p o w m : Nat) (s : State) : State :=
  if o = 8 then
    let s1 := if hit m (pairCtrlMode p) ∧ rdB s (pairStatusSlotValid p) then
        addDue (beat s + 1) 5 (.mode (rd s (pairStatusSlot p)) (written s w m (pairCtrlMode p))) s else s
    if hit (w &&& m) (pairCtrlInjectB p) then injectB p s1 else s1
  else
    let f := fun (a : State) (x : Fld) (k : Nat) => if hit m x then addDue (beat s + 1) 5 (match hartOfCore s p k with
      | some h => if h % 2 = k then .giveHart h (written s w m x) else .setFld x (written s w m x)
      | none => .setFld x (written s w m x)) a else a
    f (f s (pairOwnerOwnerA p) 0) (pairOwnerOwnerB p) 1

/-- LLC_INJECT: each bit acts only while test.inject has armed it. -/
def llcInjectStore (n w m : Nat) (s : State) : State :=
  [0, 1, 2].foldl (fun a k => if inMask (w &&& m) k then llcInject n k a else a) s

/-- MC_SEAL_BLOCK: owner and slot_en of a valid entry are taken at step 6 of the next boundary (R173, R226). -/
def sealBlockStore (c e w m : Nat) (s : State) : State :=
  if rdB s (mcSealBlockValid c e) ∧ (hit m (mcSealBlockOwner c e) ∨ hit m (mcSealBlockSlotEn c e)) then
    let v := written s w m (mcSealBlockOwner c e) * 8 + written s w m (mcSealBlockSlotEn c e) + 1
    modChan c (fun r => { r with newOwner := tset 0 r.newOwner e v }) s
  else s

/-- A field with the values that stores of this beat have given it for the next boundary. -/
def pendingFld (s : State) (f : Fld) : Nat :=
  (s.due.foldl (fun (v : Option Nat) d => match d.act with
    | .setFld g x => if g = f then some x else v
    | _ => v) none).getD (rd s f)

/-- MC_ fields: a W1C field is cleared at once, any other takes its value at the next boundary (R173, R200). The write drain
starts at least one entry above its stop, at 63 where the stop is 63 (log entry 32); a flip mask that a store arms is armed from that
boundary (R199). -/
def mcStore (off w m : Nat) (s : State) : State :=
  let c := (off - 0x300000) / 0x10000
  let val := fun (f : Fld) => written (wr f (pendingFld s f) s) w m f
  let levels := hit m (mcSchedCtrlWrHigh c) || hit m (mcSchedCtrlWrLow c)
  let legal := fun (f : Fld) =>
    if f = mcSchedCtrlWrHigh c then max (val f) (min 63 (val (mcSchedCtrlWrLow c) + 1)) else warl f (val f)
  let s1 := (fieldsAt off).foldl (fun a f => match f.acc with
    | .rw | .rws => if hit m f ∨ (f = mcSchedCtrlWrHigh c ∧ levels) then addDue (beat s + 1) 6 (.setFld f (legal f)) a else a
    | _ => fieldStore w m a f) s
  if off % 0x10000 = 0x458 ∧ hit m (mcFlipCtrlArmed c) ∧ val (mcFlipCtrlArmed c) = 1 then
    modChan c (fun r => { r with flipBeat := beat s + 1 }) s1
  else s1

/-- A store of the bits in mask m to the 64-bit register at an offset. -/
def regStore (off w m : Nat) (s : State) : State :=
  if offAbsent s off then s
  else if 0x500000 ≤ off ∧ off < 0x540000 then
    dmaStore ((off - 0x500000) / 0x1000) (off % 0x1000) (let o := regRead s off; o - (o &&& m) + (w &&& m)) s
  else if 0x100000 ≤ off ∧ off < 0x188000 ∧ (off % 0x1000 = 8 ∨ off % 0x1000 = 0x10) then
    pairStore ((off - 0x100000) / 0x1000) (off % 0x1000) w m s
  else if 0x200000 ≤ off ∧ off < 0x280000 ∧ off % 0x1000 = 0x38 then llcInjectStore ((off - 0x200000) / 0x1000) w m s
  else if 0x200000 ≤ off ∧ off < 0x280000 ∧ (fieldsAt off).any (fun f => f.acc == .rw) then
    let n := (off - 0x200000) / 0x1000
    match (List.range 257).find? fun t => (llcPartWayMask n t).off == off with
    | some t => applyPart n t (written s w m (llcPartWayMask n t)) (written s w m (llcPartSealed n t) != 0) s
    | none => s
  else if 0x300000 ≤ off ∧ off < 0x400000 ∧ off % 0x10000 = 0x70 then
    let c := (off - 0x300000) / 0x10000
    let sub := w / 4 % 2
    let s1 := if inMask (w &&& m) 0 then mcInject c sub 0 s else s
    if inMask (w &&& m) 1 then mcInject c sub 1 s1 else s1
  else if 0x300000 ≤ off ∧ off < 0x400000 ∧
      (List.range 64).any (fun e => (mcSealBlockOwner ((off - 0x300000) / 0x10000) e).off == off) then
    let c := (off - 0x300000) / 0x10000
    match (List.range 64).find? fun e => (mcSealBlockOwner c e).off == off with
    | some e => sealBlockStore c e w m s
    | none => s
  else if 0x300000 ≤ off ∧ off < 0x400000 then mcStore off w m s
  else if off = 0x10038 then padsWrite (w &&& m) s
  else
    let s1 := (fieldsAt off).foldl (fieldStore w m) s
    if off = 0x50 then aoSource s1
    else if 0x10100 ≤ off ∧ off < 0x106C0 then
      let d := (off - 0x10100) / 8
      if hit m (pwrDomainReqOn d) then addDue (beat s + 1) 4 (.switch d (rdB s1 (pwrDomainReqOn d))) s1 else s1
    else s1

/-! ## Accesses of the Clerk (R27, R31) -/

/-- Window offsets that a complex reaches: every block, and of the pages all but those of the BMC and of the debug port. -/
def clerkReach (asr : Bool) (off : Nat) : Bool :=
  if 0x01000000 ≤ off ∧ off < 0x01104000 then pageNo off != 257 && pageNo off != 259 && !(asr && pageNo off == 258)
  else decide (0x80000000 ≤ off) || fieldsAt (off / 8 * 8) != []

/-- The unit behind a window offset is fenced (R321). -/
def offFenced (s : State) (off : Nat) : Bool :=
  if 0x200000 ≤ off ∧ off < 0x280000 then rdB s (llcStatusFenced ((off - 0x200000) / 0x1000)) && rd s (llcStatusState ((off - 0x200000) / 0x1000)) == 4
  else if 0x300000 ≤ off ∧ off < 0x400000 then rd s (mcStatusState ((off - 0x300000) / 0x10000)) == 5
  else if 0x401000 ≤ off ∧ off < 0x407000 then (fportOf s ((off - 0x401000) / 0x1000)).fenced
  else false

/-- Access types of the fields that only the Clerk writes: RW and W1C in PWR_ and MC_, RW and RWS in PAIR_, LLC_ and FAB_ (R109, R137,
R173, R200, R263, R413). -/
def clerkTypes (off : Nat) : List Acc :=
  if (0x10000 ≤ off ∧ off < 0x20000) ∨ (0x300000 ≤ off ∧ off < 0x400000) then [.rw, .w1c]
  else if 0x100000 ≤ off ∧ off < 0x407000 then [.rw, .rws]
  else []

/-- A field that only the Clerk writes. -/
def clerkOnly (f : Fld) : Bool := (clerkTypes f.off).contains f.acc

/-- Of the bits that a store of the Assayer names, those outside the fields that only the Clerk writes. -/
def assayerMask (off m : Nat) : Nat :=
  ((fieldsAt off).filter clerkOnly).foldl (fun a f => a - (a &&& (2 ^ f.w - 1) * 2 ^ f.lo)) m

/-- What the Clerk, or the Assayer, may reach: every block, and of the channels of R294 those that are theirs. -/
def mayReachWindow (asr : Bool) (s : State) (off : Nat) : Bool :=
  clerkReach asr off && (!(decide (0x500000 ≤ off) && decide (off < 0x540000)) || dmaReach s (if asr then 513 else 512) ((off - 0x500000) / 0x1000))

/-- A read by the Clerk or the Assayer; one at a reserved offset is refused (R30). -/
def clerkRead (asr : Bool) (off size : Nat) (s : State) : State × Nat :=
  if mayReachWindow asr s off then (s, windowRead s off size) else (refuseWindow 0 off s, 0)

/-- A store to a mailbox page by the Clerk or the Assayer, which reach every page (R27): the result data that the device
writes, and else as a store of the owner. -/
def pagePoke (i o size v : Nat) (s : State) : State :=
  if 0x840 ≤ o ∧ o < 0xC00 then
    setMbx i { mbxOf s i with res := { (mbxOf s i).res with data := putLE (mbxOf s i).res.data (o - 0x840) size v } } s
  else pageWrite i o size v s

/-- A store by complex x (0 north, 1 south), or by its tile's Assayer: stores of a forced-junior complex to a page are discarded
and recorded, and so is one at a reserved offset (R30). -/
def clerkWrite (asr : Bool) (x off size v : Nat) (s : State) : State :=
  if mayReachWindow asr s off = false then refuseWindow 0 off s
  else if 0x01000000 ≤ off ∧ off < 0x01104000 then
    if rdB s (clerkTossForcedJunior (4 * x)) then refuseWindow 0 off s
    else pagePoke (pageNo off) ((off - 0x01000000) % 0x1000) size v s
  else if 0x80000000 ≤ off then
    let y := (off - 0x80000000) % 0x10000000
    let g := (off - 0x80000000) / 0x10000000
    ecamWrite 0 g (y / 4096) (y % 4096) size v (ecamReg s g (y / 4096) (y % 4096) size v) s
  else
    let m := (256 ^ size - 1) * 256 ^ (off % 8)
    let m1 := if asr then assayerMask (off / 8 * 8) m else m
    if m1 = 0 then s else regStore (off / 8 * 8) (v % 256 ^ size * 256 ^ (off % 8)) m1 s

/-- The tile whose complex serves: the holder of the token. -/
def seniorTile (s : State) : Nat := s.toss.holder.getD 0

/-! ## Meanings -/

/-- A CSR of a hart as a register offset: the model's own key of R75's registers, hart times 0x10000 and number times 8 above
0x2_0000_0000 (log entry 41). -/
def isCsrKey (off : Nat) : Bool := decide (0x200000000 ≤ off)

/-- REGISTER_WRITE (R13, R55, R75, R79): a store by the senior Clerk or the Assayer, or a hart's write of one of its CSRs. -/
def execRegisterWrite (asr : Bool) (off size v : Nat) (s : State) : Host.Outcome State Fault Refusal :=
  .next (if isCsrKey off then
    (if size = 8 ∧ off % 8 = 0 then csrWrite ((off - 0x200000000) / 0x10000) (off / 8 % 4096) v s else s)
   else if (size = 4 ∨ size = 8) ∧ off % size = 0 then clerkWrite asr (seniorTile s) off size v s else s)

end Sys2Proof.Machine
end

