-- ==== Sys2Proof/Machine/Clerk.lean ====
section
/-! DEFINITION. Machine/Clerk.lean: the Clerk core: fetch path, issue, delay slots, loads and stores, management
accesses, traps and interrupts, and the claim of seniority (R311 to R326, R330, R331, R361, R362). -/
namespace Sys2Proof.Machine

/-! ## Words -/

def opOf (w : Nat) : Nat := w / 2 ^ 26 % 64
/-- Bits [25:21], [20:16], [15:11], [10:6], [5:0] and [15:0]. -/
def fieldD (w : Nat) : Nat := w / 2 ^ 21 % 32
def fieldA (w : Nat) : Nat := w / 2 ^ 16 % 32
def fieldB (w : Nat) : Nat := w / 2 ^ 11 % 32
def fieldSh (w : Nat) : Nat := w / 2 ^ 6 % 32
def fieldFn (w : Nat) : Nat := w % 64
def fieldImm (w : Nat) : Nat := w % 2 ^ 16

/-- Tables 12.4 and 12.5 define the word. -/
def definedWord (w : Nat) : Bool :=
  if opOf w = 0 then [0, 1, 2, 4, 5, 6].contains (fieldFn w) || (decide (0x10 ≤ fieldFn w) && decide (fieldFn w ≤ 0x1B))
  else if opOf w = 0x1E then decide (fieldFn w < 8)
  else decide (opOf w < 0x1E)

/-- A branch or jump. -/
def isBranch (w : Nat) : Bool := decide (0x10 ≤ opOf w) && decide (opOf w ≤ 0x19)

def isAlu (fn wd wa wb w : Nat) : Bool := opOf w == 0 && fieldFn w == fn && fieldD w == wd && fieldA w == wa && fieldB w == wb
def isShift (fn wd wa sh w : Nat) : Bool := opOf w == 0 && fieldFn w == fn && fieldD w == wd && fieldA w == wa && fieldSh w == sh
def isImm (op wd wa imm w : Nat) : Bool := opOf w == op && fieldD w == wd && fieldA w == wa && fieldImm w == imm
def isB (op wa wb an hi off w : Nat) : Bool :=
  opOf w == op && fieldD w == wa && fieldA w == wb && w / 2 ^ 15 % 2 == an && w / 2 ^ 14 % 2 == hi && w % 2 ^ 14 == off
def isJ (op off w : Nat) : Bool := opOf w == op && w % 2 ^ 26 == off
def isSys (fn w : Nat) : Bool := opOf w == 0x1E && fieldFn w == fn

/-! ## Memory of a core (Tables 12.2 and 14.1) -/

def isAssayerCore (c : Nat) : Bool := decide (8 ≤ c)
/-- Complex (or tile) of a core. -/
def complexOf (c : Nat) : Nat := if c < 8 then c / 4 else c - 8
def sramSize (c : Nat) : Nat := if isAssayerCore c then 0x80000 else 0x40000
/-- Place of the local registers. -/
def localBase (c : Nat) : Nat := sramSize c
/-- Window-style key of a local register. -/
def localOff (c o : Nat) : Nat := 0x100000000 + c * 0x100 + o

/-- The word a fetch finds; none where the core cannot fetch. -/
def fetchWord (c : Nat) (r : ClkCore) (a : Nat) : Option Nat :=
  if a % 4 ≠ 0 then none
  else if a < sramSize c then some (getLE r.sram a 4)
  else if isAssayerCore c ∧ 0x90000 ≤ a ∧ a < 0xA0000 then
    some (ofBytes ((List.range 4).map fun i => Config.assayerRom (a - 0x90000 + i)))
  else none

/-- Where the fetch path leaves the sequence: the target of J, JAL and of a B instruction with hi = 1 (R315). -/
def followed (a w : Nat) : Option Nat :=
  if opOf w = 0x16 ∨ opOf w = 0x17 then some ((a + 4 * sx 26 w) % 2 ^ 32)
  else if 0x10 ≤ opOf w ∧ opOf w ≤ 0x15 ∧ w / 2 ^ 14 % 2 = 1 then some ((a + 4 * sx 14 w) % 2 ^ 32)
  else none

/-- Fetch the next instruction on the fetch path. -/
def fetchNext (c : Nat) (r : ClkCore) : ClkCore :=
  let a := r.path
  let w := fetchWord c r a
  let q := { r with fetch := r.fetch ++ [(a, w)] }
  match r.ahead with
  | some t => { q with path := t, ahead := none }
  | none => { q with path := (a + 4) % 2 ^ 32, ahead := w.bind (followed a) }

/-- The latch and both places of the buffer are filled again. -/
def refill (c : Nat) : Nat → ClkCore → ClkCore
  | 0, r => r
  | n + 1, r => if r.fetch.length < 3 then refill c n (fetchNext c r) else r

/-- Fetch restarts at an address; `t`: the path goes there after that instruction. -/
def restart (c a : Nat) (t : Option Nat) (r : ClkCore) : ClkCore :=
  refill c 3 { r with fetch := [], path := a % 2 ^ 32, ahead := t }

/-! ## Registers and time -/

def regW (r : ClkCore) (i : Nat) : Nat := if i = 0 then 0 else tget 0 r.w i
def putW (w : Table Nat) (i v : Nat) : Table Nat := if i = 0 then w else tset 0 w i (v % 2 ^ 32)
def putOpt (w : Table Nat) (x : Option (Nat × Nat)) : Table Nat :=
  match x with
  | some (i, v) => putW w i v
  | none => w

/-- Clerk cycles pass on core c, within the beat. -/
def tick (c n : Nat) (s : State) : State := wr (clerkSliceCycle c) (min 1499 (rd s (clerkSliceCycle c) + n)) s
def clkNow (s : State) (c : Nat) : Nat := beat s * 1500 + rd s (clerkSliceCycle c)

/-! ## Traps (R322, R323) -/

/-- An exception of the instruction in the latch. -/
def clkTrap (c code tval : Nat) (s : State) : State :=
  let r := clkOf s c
  let a := (r.fetch.head?.map (·.1)).getD 0
  let bd := r.slot.isSome
  let epc := match r.slot with | some q => q.br | none => a
  let s1 := wr (clerkEpcEpc c) epc (wr (clerkCauseCode c) code (wrB (clerkCauseBd c) bd (wr (clerkCauseInterrupt c) 0
    (wr (clerkTvalValue c) tval (wr (clerkStatusPie c) (rd s (clerkStatusIe c)) (wr (clerkStatusIe c) 0 s))))))
  let s2 := match r.slot with
    | some q => wr (clerkBtargetTarget c) q.target (wrB (clerkCauseTaken c) q.taken s1)
    | none => wr (clerkCauseTaken c) 0 s1
  tick c 3 (setClk c (restart c (rd s (clerkVectorBase c) * 4096 + code * 0x40) none
    { r with w := putOpt r.w r.load, load := none, slot := none, st := .running }) s2)

/-- Enabled interrupts that are pending. -/
def clkPending (s : State) (c : Nat) : Nat := rd s (clerkIeEnable c) &&& rd s (clerkIpPending c)

/-- Core c issues the instruction in its latch, when the command names that instruction: an undefined word and an address
without memory trap; in WAIT nothing issues until an enabled interrupt is pending. -/
def clkIssue (c : Nat) (m : Nat → Bool) (f : Nat → ClkCore → State → State) (s : State) : State :=
  let r := clkOf s c
  if r.st = .running ∨ (r.st = .waiting ∧ clkPending s c ≠ 0 ∧ rd s (clerkStatusIe c) = 0) then
    match r.fetch with
    | (a, none) :: _ => clkTrap c 18 a s
    | (a, some w) :: _ =>
      if definedWord w = false then clkTrap c 16 w s
      else if m w then f a r (modClk c (fun q => { q with st := .running }) s)
      else s
    | [] => s
  else s

/-- The instruction completes: a pending load writes its register, then the instruction its own (R317). -/
def complete (c cost : Nat) (res ld : Option (Nat × Nat)) (s : State) : State :=
  tick c cost (modClk c (fun r => refill c 3 { r with
    w := putOpt (putOpt r.w r.load) res, load := ld, fetch := r.fetch.tail, slot := none }) s)

/-! ## ALU -/

/-- An instruction with two registers. -/
def aluOp (c fn wd wa wb : Nat) (f : Nat → Nat → Nat) (s : State) : State :=
  clkIssue c (isAlu fn wd wa wb) (fun _ r => complete c 1 (some (wd, f (regW r wa) (regW r wb))) none) s
/-- A shift by sh. -/
def shiftOp (c fn wd wa sh : Nat) (f : Nat → Nat) (s : State) : State :=
  clkIssue c (isShift fn wd wa sh) (fun _ r => complete c 1 (some (wd, f (regW r wa))) none) s
/-- An instruction with an immediate field. -/
def immOp (c op wd wa imm : Nat) (f : Nat → Nat) (s : State) : State :=
  clkIssue c (isImm op wd wa imm) (fun _ r => complete c 1 (some (wd, f (regW r wa))) none) s

/-! ## Loads and stores (R317, R318) -/

/-- What a load finds; none: the access faults. -/
def clkLoad (s : State) (c a n : Nat) : Option Nat :=
  let r := clkOf s c
  if a < sramSize c then some (getLE r.sram a n)
  else if localBase c ≤ a ∧ a < localBase c + 0x100 then
    if n = 4 then some (regRead s (localOff c (a - localBase c)) % 2 ^ 32) else none
  else if isAssayerCore c then
    if 0x90000 ≤ a ∧ a < 0xA0000 then some (ofBytes ((List.range n).map fun i => Config.assayerRom (a - 0x90000 + i)))
    else if 0xA0000 ≤ a ∧ a < 0xA0100 then some (getLE s.assayer.gates (a - 0xA0000) n)
    else if 0xB0000 ≤ a ∧ a < 0xB1000 then some (getLE s.assayer.window (a - 0xB0000) n)
    else none
  else none

/-- CLERK_TOSS.event and interrupt 6 on every core. -/
def tossEvent (e : Nat) (s : State) : State :=
  clerkCores.foldl (fun a c => clkIrq 6 e (wr (clerkTossEvent c) e a) c) s

/-- CLERK_TOSS.claim of complex x (R330, R331): granted when the holder was absent at the last two boundaries. -/
def claim (x v : Nat) (s : State) : State :=
  let show' := fun (f : Nat → Fld) (b : Nat) (a : State) => (complexCores x).foldl (fun y c => wr (f c) b y) a
  let s1 := show' clerkTossClaim (v % 2) s
  if v % 2 = 0 then
    if rdB s (clerkTossForcedJunior (4 * x)) then { s1 with toss := { s1.toss with unforce := x :: s1.toss.unforce } } else s1
  else match s.toss.holder with
    | none => s1
    | some h =>
      if h = x ∨ (tget {} s.cplx x).fenced ∨ s.toss.pass.isSome then s1
      else if 2 ≤ tget 0 s.toss.misses h then { s1 with toss := { s1.toss with pass := some (x, beat s + 1, 2) } }
      else event 7 [x] (recContained (nextSlice s) 7 x 0x0702 0 [] (tossEvent 3 (show' clerkTossForcedJunior 1 s1)))

/-- CLERK_IPI: interrupt 5 on the named cores of the sender's complex. -/
def sendIpi (c mask : Nat) (s : State) : State :=
  if isAssayerCore c then s
  else ((List.range 4).filter (inMask mask)).foldl (fun a k => clkIrq 5 (c % 4) a (complexOf c * 4 + k)) s

/-- A store to a local register. -/
def localStore (c o v : Nat) (s : State) : State :=
  if o = 0x34 then sendIpi c (v % 16) s
  else if o = 0x44 then (if isAssayerCore c then s else claim (complexOf c) (v / 2 % 2) s)
  else (fieldsAt (localOff c o)).foldl (fieldStore v (2 ^ 32 - 1)) s

/-- A store; none: the access faults. -/
def clkStore (c a n v : Nat) (s : State) : Option State :=
  if a < sramSize c then some (modClk c (fun r => { r with sram := putLE r.sram a n (v % 256 ^ n) }) s)
  else if localBase c ≤ a ∧ a < localBase c + 0x100 then
    if n = 4 then some (localStore c (a - localBase c) v s) else none
  else if isAssayerCore c then
    if 0xA0000 ≤ a ∧ a < 0xA0100 then
      some (if s.assayer.beaten then s else { s with assayer := { s.assayer with gates := putLE s.assayer.gates (a - 0xA0000) n (v % 256 ^ n) } })
    else if 0xB0000 ≤ a ∧ a < 0xB1000 then
      some { s with assayer := { s.assayer with window := putLE s.assayer.window (a - 0xB0000) n (v % 256 ^ n) } }
    else none
  else none

def effAddr (r : ClkCore) (wa imm : Nat) : Nat := (regW r wa + sx 16 imm) % 2 ^ 32

/-- A load of n bytes: the value reaches wd after the next instruction has issued. -/
def loadOp (c op wd wa imm n : Nat) (f : Nat → Nat) (s : State) : State :=
  clkIssue c (isImm op wd wa imm) (fun _ r a =>
    let x := effAddr r wa imm
    if x % n ≠ 0 then clkTrap c 17 x a
    else match clkLoad a c x n with
      | some v => complete c 2 none (some (wd, f v)) a
      | none => clkTrap c 18 x a) s

def storeOp (c op ws wa imm n : Nat) (s : State) : State :=
  clkIssue c (isImm op ws wa imm) (fun _ r a =>
    let x := effAddr r wa imm
    if x % n ≠ 0 then clkTrap c 17 x a
    else match clkStore c x n (regW r ws) a with
      | some b => complete c 2 none none b
      | none => clkTrap c 18 x a) s

/-! ## Branches (R319, R320) -/

/-- A branch at a is resolved: `guess` says that the fetch path goes to the target; `an` suppresses the delay slot of a
branch not taken. -/
def resolve (c a target : Nat) (taken guess an : Bool) (res : Option (Nat × Nat)) (cost : Nat) (s : State) : State :=
  let sup := an && !taken
  let s1 := modClk c (fun r =>
    let q := { r with w := putOpt (putOpt r.w r.load) res, load := none,
                      slot := if sup then none else some ⟨a, target, taken⟩ }
    if taken = guess then refill c 3 { q with fetch := if sup then r.fetch.tail.tail else r.fetch.tail }
    else if taken then restart c (a + 4) (some target) q
    else restart c (if sup then a + 8 else a + 4) none q) s
  tick c (cost + sup.toNat) s1

/-- A branch in a delay slot is an illegal instruction. -/
def onBranch (c : Nat) (m : Nat → Bool) (f : Nat → ClkCore → State → State) (s : State) : State :=
  clkIssue c m (fun a r x => if r.slot.isSome then clkTrap c 16 (((r.fetch.head?.bind (·.2))).getD 0) x else f a r x) s

def condBranch (c k wa wb an hi off : Nat) (s : State) : State :=
  onBranch c (isB (0x10 + k) wa wb an hi off) (fun a r x =>
    let t := clkCond k (regW r wa) (regW r wb)
    let g := hi == 1
    resolve c a ((a + 4 * sx 14 off) % 2 ^ 32) t g (an == 1) none (if t == g then 1 else 3) x) s

def jumpOp (c op off : Nat) (link : Bool) (s : State) : State :=
  onBranch c (isJ op off) (fun a _ x =>
    resolve c a ((a + 4 * sx 26 off) % 2 ^ 32) true true false (if link then some (31, a + 8) else none) 1 x) s

/-- JALR, and JALG with its check of the word at the target (R362). -/
def jumpReg (c op wd wa imm : Nat) (gate : Bool) (s : State) : State :=
  onBranch c (isImm op wd wa imm) (fun a r x =>
    let t := effAddr r wa imm
    if t % 4 ≠ 0 then clkTrap c 17 t x
    else if gate ∧ fetchWord c r t ≠ some 0x78000005 then
      clkTrap c 19 t (if isAssayerCore c then { x with assayer := { x.assayer with abandon := true } } else x)
    else resolve c a t true false false (some (wd, a + 8)) 3 x) s

/-! ## Management accesses (R321) -/

/-- Region of a management access; none: the access faults. -/
def mgmtRegion (c a n : Nat) (write : Bool) : Option Nat :=
  if 0x80000000 ≤ a then some 2
  else if isAssayerCore c then none
  else if 0x100000 ≤ a ∧ a < 0x108000 then (if write then none else some 0)
  else if 0x108000 ≤ a ∧ a < 0x120000 then some 0
  else if 0x120000 ≤ a ∧ a < 0x120100 then (if n = 4 then some 1 else none)
  else none

def showOutst (c : Nat) (s : State) : State := wr (clerkMstatOutstanding c) (clkOf s c).outst.length s

/-- MLD, MST, MLDD, MSTD: the request is issued; with 8 outstanding the core waits. DESIGN CHOICE (log entry 44): R314 speaks of an even
register; MLDD and MSTD with an odd one take the register after it, modulo 32, for bits [63:32]. -/
def mgmtOp (c op wd wa imm n : Nat) (write : Bool) (s : State) : State :=
  clkIssue c (isImm op wd wa imm) (fun _ r x =>
    let a := effAddr r wa imm
    if a % n ≠ 0 then clkTrap c 17 a x
    else match mgmtRegion c a n write with
      | none => clkTrap c 18 a x
      | some g =>
        if 8 ≤ r.outst.length then x
        else
          let v := if n = 8 then regW r wd + 2 ^ 32 * regW r ((wd + 1) % 32) else regW r wd
          let q : MReq := { region := g, addr := a, size := n, write := write, val := if write then v else 0, reg := wd, issued := clkNow x c }
          showOutst c (complete c 1 none none (modClk c (fun y => { y with outst := y.outst ++ [q] }) x))) s

def cplxOf (s : State) (x : Nat) : Complex := tget {} s.cplx x
def modCplx (x : Nat) (f : Complex → Complex) (s : State) : State := { s with cplx := tset {} s.cplx x (f (cplxOf s x)) }

/-- Window offset of an aperture address. -/
def apertureOff (s : State) (c a : Nat) : Nat := rd s (clerkWinEcam c) * 0x80000000 + (a - 0x80000000)

/-- A store to the common store; the senior's stores to its mirror area are forwarded (R327). -/
def commonStore (x o n v : Nat) (s : State) : State :=
  let s1 := modCplx x (fun q => { q with store := putLE q.store o n (v % 256 ^ n) }) s
  if 0x10000 ≤ o ∧ s.toss.holder = some x ∧ s.toss.dead = false then
    modCplx x (fun q => { q with fwd := q.fwd ++ [(o, n, v % 256 ^ n)] }) s1
  else s1

/-- A request is performed: the value a load brings. -/
def mgmtPerform (c : Nat) (q : MReq) (s : State) : State × Nat :=
  let x := complexOf c
  match q.region with
  | 0 => if q.write then (commonStore x (q.addr - 0x100000) q.size q.val s, 0)
         else (s, getLE (cplxOf s x).store (q.addr - 0x100000) q.size)
  | 1 =>
    let k := (q.addr - 0x120000) / 4
    if q.write then (modCplx x (fun y => { y with sem := tset 0 y.sem k (q.val % 2 ^ 32) }) s, 0)
    else (modCplx x (fun y => { y with sem := tset 0 y.sem k 1 }) s, tget 0 (cplxOf s x).sem k)
  | _ =>
    let off := apertureOff s c q.addr
    if q.write then (clerkWrite (decide (8 ≤ c)) x off q.size q.val s, 0) else clerkRead (decide (8 ≤ c)) off q.size s

/-- A response's value enters its register, or its pair of registers. -/
def mgmtDeliver (c : Nat) (q : MReq) (v : Nat) (s : State) : State :=
  if q.write then s
  else modClk c (fun r => { r with
    w := if q.size = 8 then putW (putW r.w q.reg v) ((q.reg + 1) % 32) (v / 2 ^ 32) else putW r.w q.reg v }) s

/-- A request leaves the outstanding ones. -/
def dropReq (c : Nat) (q : MReq) (s : State) : State :=
  showOutst c (modClk c (fun r => { r with outst := r.outst.erase q }) s)

/-- A request completes with an error: a load writes 0, the first address is kept. -/
def mgmtError (c : Nat) (q : MReq) (s : State) : State :=
  let s1 := mgmtDeliver c q 0 (dropReq c q s)
  if rdB s (clerkMstatErr c) then s1 else wr (clerkMstatErr c) 1 (wr (clerkMerrAddress c) q.addr s1)

/-- The oldest request of core c in a region. -/
def oldestReq (s : State) (c region : Nat) : Option MReq := (clkOf s c).outst.find? fun q => q.region == region

def mgmtResponse (c region : Nat) (s : State) : State :=
  match oldestReq s c region with
  | some q =>
    if q.region = 2 ∧ offFenced s (apertureOff s c q.addr) then mgmtError c q s
    else let (s1, v) := mgmtPerform c q (dropReq c q s)
      mgmtDeliver c q v s1
  | none => s

def mgmtTimeout (c region : Nat) (s : State) : State :=
  match oldestReq s c region with
  | some q => if q.issued + 180 ≤ clkNow s c then mgmtError c q s else s
  | none => s

/-! ## System instructions -/

def sysOp (c fn cost : Nat) (f : State → State) (s : State) : State :=
  clkIssue c (isSys fn) (fun _ _ x => complete c cost none none (f x)) s

/-- WAIT: issue stops. -/
def waitOp (c : Nat) (s : State) : State :=
  clkIssue c (isSys 0) (fun _ _ x => modClk c (fun r => { r with st := .waiting }) (complete c 1 none none x)) s

/-- ERET (R323): a recorded delay slot is replayed, then the recorded target or EPC + 8. -/
def eretOp (c : Nat) (s : State) : State :=
  clkIssue c (isSys 1) (fun _ _ x =>
    let epc := rd x (clerkEpcEpc c)
    let tk := rdB x (clerkCauseTaken c)
    let tg := rd x (clerkBtargetTarget c)
    let s1 := wr (clerkStatusIe c) (rd x (clerkStatusPie c)) x
    let go := fun (r : ClkCore) => { r with w := putOpt r.w r.load, load := none }
    tick c 3 (modClk c (fun r =>
      if rdB x (clerkCauseBd c) then
        restart c (epc + 4) (if tk then some tg else none) { go r with slot := some ⟨epc, tg, tk⟩ }
      else restart c epc none { go r with slot := none }) s1)) s

/-- MSYNC: with requests outstanding it waits; an error raises exception 21. -/
def msyncOp (c : Nat) (s : State) : State :=
  clkIssue c (isSys 2) (fun _ r x =>
    if r.outst ≠ [] then x
    else if rdB x (clerkMstatErr c) then clkTrap c 21 (rd x (clerkMerrAddress c)) x
    else complete c 1 none none x) s

/-- CHECKIN: the core's bit of CLERK_HB.checked, in every core of the complex. -/
def checkIn (c : Nat) (s : State) : State :=
  let cs := if isAssayerCore c then [c] else complexCores (complexOf c)
  let b := if isAssayerCore c then 0 else c % 4
  let s1 := if isAssayerCore c then { s with assayer := { s.assayer with beaten := true } } else s
  cs.foldl (fun a k => wr (clerkHbChecked k) (rd a (clerkHbChecked k) ||| 2 ^ b) a) s1

def trapOp (c sh : Nat) (s : State) : State :=
  clkIssue c (fun w => isSys 4 w && fieldSh w == sh) (fun _ _ x => clkTrap c 20 sh x) s

/-! ## Interrupts (R324, R326) -/

/-- An enabled interrupt is taken, at a boundary that is not between a branch and its delay slot nor between a load and
the next instruction, once no management access is outstanding. -/
def interruptEntry (c code : Nat) (s : State) : State :=
  let r := clkOf s c
  if clkLive s c ∧ rdB s (clerkStatusIe c) ∧ code < 7 ∧ inMask (clkPending s c) code ∧ r.slot.isNone ∧ r.load.isNone ∧ r.outst = [] then
    let a := (r.fetch.head?.map (·.1)).getD 0
    let s1 := wr (clerkEpcEpc c) a (wr (clerkCauseCode c) code (wr (clerkCauseBd c) 0 (wr (clerkCauseTaken c) 0
      (wr (clerkCauseInterrupt c) 1 (wr (clerkTvalValue c) (tget 0 r.why code) (wr (clerkStatusPie c) 1 (wr (clerkStatusIe c) 0 s)))))))
    tick c 3 (setClk c (restart c (rd s (clerkVectorBase c) * 4096 + code * 0x40) none { r with st := .running }) s1)
  else s

/-- Clerk cycle 1,350: interrupt 1, and an overrun of each core that is not in WAIT. -/
def guardInterrupt (s : State) : State :=
  (clerkCores ++ [8, 9]).foldl (fun a c =>
    if clkLive a c then
      let b := clkIrq 1 0 (wr (clerkSliceCycle c) (max 1350 (rd a (clerkSliceCycle c))) a) c
      if (clkOf a c).st = ClkSt.waiting then b else bump (clerkSliceOverruns c) 1 b
    else a) s

/-- Release from reset: pc and every register 0, interrupts disabled (R313). -/
def releaseCore (c : Nat) (s : State) : State :=
  wr (clerkIdCore c) (if isAssayerCore c then 0 else c % 4) (wr (clerkIdTile c) (complexOf c) (wrB (clerkIdAssayer c) (isAssayerCore c)
    (wr (clerkStatusIe c) 0 (modClk c (fun r => restart c 0 none { sram := r.sram, st := .running }) s))))

/-- A core held in reset. -/
def holdCore (c : Nat) (keep : Bool) (s : State) : State :=
  modClk c (fun r => { sram := if keep then r.sram else [] }) s

/-! ## Meanings -/

/-- GUARD_INTERRUPT (R326). -/
def execGuardInterrupt (s : State) : Host.Outcome State Fault Refusal := .next (guardInterrupt s)
/-- CLERK_CLAIM (R330, R331). -/
def execClerkClaim (x v : Nat) (s : State) : Host.Outcome State Fault Refusal := .next (if x < 2 then claim x v s else s)
/-- CLERK_SRAM_UE (R312). -/
def execClerkSramUe (c : Nat) (s : State) : Host.Outcome State Fault Refusal :=
  .next (if clkLive s c then modClk c (fun r => { r with st := .stopped }) s else s)
/-- CLERK_INTERRUPT_ENTRY (R324). -/
def execClerkInterruptEntry (c code : Nat) (s : State) : Host.Outcome State Fault Refusal := .next (interruptEntry c code s)
/-- MGMT_RESPONSE (R321). -/
def execMgmtResponse (c region : Nat) (s : State) : Host.Outcome State Fault Refusal := .next (mgmtResponse c region s)
/-- MGMT_TIMEOUT (R321). -/
def execMgmtTimeout (c region : Nat) (s : State) : Host.Outcome State Fault Refusal := .next (mgmtTimeout c region s)
/-- CLERK_IPI_SEND (R325). -/
def execClerkIpiSend (c mask : Nat) (s : State) : Host.Outcome State Fault Refusal := .next (if c < 8 then sendIpi c (mask % 16) s else s)
/-- SLL (R314). -/
def execSll (c wd wa sh : Nat) (s : State) : Host.Outcome State Fault Refusal := .next (shiftOp c 0 wd wa sh (fun a => a * 2 ^ sh) s)
/-- SRL (R314). -/
def execSrl (c wd wa sh : Nat) (s : State) : Host.Outcome State Fault Refusal := .next (shiftOp c 1 wd wa sh (fun a => a / 2 ^ sh) s)
/-- SRA (R314). -/
def execSra (c wd wa sh : Nat) (s : State) : Host.Outcome State Fault Refusal := .next (shiftOp c 2 wd wa sh (fun a => sra32 a sh) s)
/-- SLLV (R314). -/
def execSllv (c wd wa wb : Nat) (s : State) : Host.Outcome State Fault Refusal := .next (aluOp c 0x4 wd wa wb (fun a b => a * 2 ^ (b % 32)) s)
/-- SRLV (R314). -/
def execSrlv (c wd wa wb : Nat) (s : State) : Host.Outcome State Fault Refusal := .next (aluOp c 0x5 wd wa wb (fun a b => a / 2 ^ (b % 32)) s)
/-- SRAV (R314). -/
def execSrav (c wd wa wb : Nat) (s : State) : Host.Outcome State Fault Refusal := .next (aluOp c 0x6 wd wa wb (fun a b => sra32 a (b % 32)) s)
/-- ADD (R314). -/
def execAdd (c wd wa wb : Nat) (s : State) : Host.Outcome State Fault Refusal := .next (aluOp c 0x10 wd wa wb (fun a b => a + b) s)
/-- SUB (R314). -/
def execSub (c wd wa wb : Nat) (s : State) : Host.Outcome State Fault Refusal := .next (aluOp c 0x11 wd wa wb (fun a b => a + (2 ^ 32 - b)) s)
/-- AND (R314). -/
def execAnd (c wd wa wb : Nat) (s : State) : Host.Outcome State Fault Refusal := .next (aluOp c 0x12 wd wa wb (fun a b => a &&& b) s)
/-- OR (R314). -/
def execOr (c wd wa wb : Nat) (s : State) : Host.Outcome State Fault Refusal := .next (aluOp c 0x13 wd wa wb (fun a b => a ||| b) s)
/-- XOR (R314). -/
def execXor (c wd wa wb : Nat) (s : State) : Host.Outcome State Fault Refusal := .next (aluOp c 0x14 wd wa wb (fun a b => a ^^^ b) s)
/-- NOR (R314). -/
def execNor (c wd wa wb : Nat) (s : State) : Host.Outcome State Fault Refusal := .next (aluOp c 0x15 wd wa wb (fun a b => 2 ^ 32 - 1 - (a ||| b)) s)
/-- SLT (R314). -/
def execSlt (c wd wa wb : Nat) (s : State) : Host.Outcome State Fault Refusal := .next (aluOp c 0x16 wd wa wb (fun a b => (decide (s32 a < s32 b)).toNat) s)
/-- SLTU (R314). -/
def execSltu (c wd wa wb : Nat) (s : State) : Host.Outcome State Fault Refusal := .next (aluOp c 0x17 wd wa wb (fun a b => (decide (a < b)).toNat) s)
/-- MUL (R314). -/
def execMul (c wd wa wb : Nat) (s : State) : Host.Outcome State Fault Refusal := .next (aluOp c 0x18 wd wa wb (fun a b => a * b) s)
/-- MULH (R314). -/
def execMulh (c wd wa wb : Nat) (s : State) : Host.Outcome State Fault Refusal := .next (aluOp c 0x19 wd wa wb (mulh) s)
/-- MULHU (R314). -/
def execMulhu (c wd wa wb : Nat) (s : State) : Host.Outcome State Fault Refusal := .next (aluOp c 0x1A wd wa wb (fun a b => a * b / 2 ^ 32) s)
/-- CLZ (R314). -/
def execClz (c wd wa : Nat) (s : State) : Host.Outcome State Fault Refusal :=
  .next (clkIssue c (fun w => opOf w == 0 && fieldFn w == 0x1B && fieldD w == wd && fieldA w == wa)
    (fun _ r => complete c 1 (some (wd, clz (regW r wa))) none) s)
/-- ADDI (R314). -/
def execAddi (c wd wa imm : Nat) (s : State) : Host.Outcome State Fault Refusal := .next (immOp c 1 wd wa imm (fun a => a + sx 16 imm) s)
/-- ANDI (R314). -/
def execAndi (c wd wa imm : Nat) (s : State) : Host.Outcome State Fault Refusal := .next (immOp c 2 wd wa imm (fun a => a &&& imm) s)
/-- ORI (R314). -/
def execOri (c wd wa imm : Nat) (s : State) : Host.Outcome State Fault Refusal := .next (immOp c 3 wd wa imm (fun a => a ||| imm) s)
/-- XORI (R314). -/
def execXori (c wd wa imm : Nat) (s : State) : Host.Outcome State Fault Refusal := .next (immOp c 4 wd wa imm (fun a => a ^^^ imm) s)
/-- SLTI (R314). -/
def execSlti (c wd wa imm : Nat) (s : State) : Host.Outcome State Fault Refusal := .next (immOp c 5 wd wa imm (fun a => (decide (s32 a < s32 (sx 16 imm))).toNat) s)
/-- SLTIU (R314). -/
def execSltiu (c wd wa imm : Nat) (s : State) : Host.Outcome State Fault Refusal := .next (immOp c 6 wd wa imm (fun a => (decide (a < sx 16 imm)).toNat) s)
/-- LUI (R314). -/
def execLui (c wd imm : Nat) (s : State) : Host.Outcome State Fault Refusal :=
  .next (clkIssue c (fun w => opOf w == 7 && fieldD w == wd && fieldImm w == imm)
    (fun _ _ => complete c 1 (some (wd, imm * 2 ^ 16)) none) s)
/-- LW (R317). -/
def execLw (c wd wa imm : Nat) (s : State) : Host.Outcome State Fault Refusal := .next (loadOp c 8 wd wa imm 4 (id) s)
/-- LH (R317). -/
def execLh (c wd wa imm : Nat) (s : State) : Host.Outcome State Fault Refusal := .next (loadOp c 9 wd wa imm 2 (sx 16) s)
/-- LHU (R317). -/
def execLhu (c wd wa imm : Nat) (s : State) : Host.Outcome State Fault Refusal := .next (loadOp c 10 wd wa imm 2 (id) s)
/-- LB (R317). -/
def execLb (c wd wa imm : Nat) (s : State) : Host.Outcome State Fault Refusal := .next (loadOp c 11 wd wa imm 1 (sx 8) s)
/-- LBU (R317). -/
def execLbu (c wd wa imm : Nat) (s : State) : Host.Outcome State Fault Refusal := .next (loadOp c 12 wd wa imm 1 (id) s)
/-- SW (R318). -/
def execSw (c wd wa imm : Nat) (s : State) : Host.Outcome State Fault Refusal := .next (storeOp c 13 wd wa imm 4 s)
/-- SH (R318). -/
def execSh (c wd wa imm : Nat) (s : State) : Host.Outcome State Fault Refusal := .next (storeOp c 14 wd wa imm 2 s)
/-- SB (R318). -/
def execSb (c wd wa imm : Nat) (s : State) : Host.Outcome State Fault Refusal := .next (storeOp c 15 wd wa imm 1 s)
/-- BEQ (R319, R320). -/
def execBeq (c wa wb an hi off : Nat) (s : State) : Host.Outcome State Fault Refusal := .next (condBranch c 0 wa wb an hi off s)
/-- BNE (R319, R320). -/
def execBne (c wa wb an hi off : Nat) (s : State) : Host.Outcome State Fault Refusal := .next (condBranch c 1 wa wb an hi off s)
/-- BLT (R319, R320). -/
def execBlt (c wa wb an hi off : Nat) (s : State) : Host.Outcome State Fault Refusal := .next (condBranch c 2 wa wb an hi off s)
/-- BGE (R319, R320). -/
def execBge (c wa wb an hi off : Nat) (s : State) : Host.Outcome State Fault Refusal := .next (condBranch c 3 wa wb an hi off s)
/-- BLTU (R319, R320). -/
def execBltu (c wa wb an hi off : Nat) (s : State) : Host.Outcome State Fault Refusal := .next (condBranch c 4 wa wb an hi off s)
/-- BGEU (R319, R320). -/
def execBgeu (c wa wb an hi off : Nat) (s : State) : Host.Outcome State Fault Refusal := .next (condBranch c 5 wa wb an hi off s)
/-- J (R319). -/
def execJ (c off : Nat) (s : State) : Host.Outcome State Fault Refusal := .next (jumpOp c 0x16 off false s)
/-- JAL (R319). -/
def execJal (c off : Nat) (s : State) : Host.Outcome State Fault Refusal := .next (jumpOp c 0x17 off true s)
/-- JALR (R319). -/
def execJalr (c wd wa imm : Nat) (s : State) : Host.Outcome State Fault Refusal := .next (jumpReg c 0x18 wd wa imm false s)
/-- JALG (R319, R362). -/
def execJalg (c wd wa imm : Nat) (s : State) : Host.Outcome State Fault Refusal := .next (jumpReg c 0x19 wd wa imm true s)
/-- MLD (R321). -/
def execMld (c wd wa imm : Nat) (s : State) : Host.Outcome State Fault Refusal := .next (mgmtOp c 0x1A wd wa imm 4 false s)
/-- MST (R321). -/
def execMst (c wd wa imm : Nat) (s : State) : Host.Outcome State Fault Refusal := .next (mgmtOp c 0x1B wd wa imm 4 true s)
/-- MLDD (R321). -/
def execMldd (c wd wa imm : Nat) (s : State) : Host.Outcome State Fault Refusal := .next (mgmtOp c 0x1C wd wa imm 8 false s)
/-- MSTD (R321). -/
def execMstd (c wd wa imm : Nat) (s : State) : Host.Outcome State Fault Refusal := .next (mgmtOp c 0x1D wd wa imm 8 true s)
/-- WAIT (R314). -/
def execWait (c : Nat) (s : State) : Host.Outcome State Fault Refusal := .next (waitOp c s)
/-- ERET (R323). -/
def execEret (c : Nat) (s : State) : Host.Outcome State Fault Refusal := .next (eretOp c s)
/-- MSYNC (R321). -/
def execMsync (c : Nat) (s : State) : Host.Outcome State Fault Refusal := .next (msyncOp c s)
/-- CHECKIN (R314, R326). -/
def execCheckin (c : Nat) (s : State) : Host.Outcome State Fault Refusal := .next (sysOp c 3 1 (checkIn c) s)
/-- TRAP (R314, R322). -/
def execTrap (c sh : Nat) (s : State) : Host.Outcome State Fault Refusal := .next (trapOp c sh s)
/-- GATE (R361). -/
def execGate (c : Nat) (s : State) : Host.Outcome State Fault Refusal := .next (sysOp c 5 1 id s)
/-- DI (R314). -/
def execDi (c : Nat) (s : State) : Host.Outcome State Fault Refusal := .next (sysOp c 6 1 (wr (clerkStatusIe c) 0) s)
/-- EI (R314). -/
def execEi (c : Nat) (s : State) : Host.Outcome State Fault Refusal := .next (sysOp c 7 1 (wr (clerkStatusIe c) 1) s)

end Sys2Proof.Machine
end

