-- ==== Sys2Proof/Machine/Fence.lean ====
section
/-! DEFINITION. Machine/Fence.lean: what fencing a unit removes and who is told (R418 to R421, Tables 16.2 and 16.3), and
the device-fatal stop (R417). The fences of harts, Clerk complexes and Assayers stand with the units they end: R103, R105
and R108 in Machine/Pair.lean, R328 in Machine/Toss.lean, R371 in Machine/Assayer.lean. -/
namespace Sys2Proof.Machine

/-- The journal entry and the platform record share the boundary of the fence; kind as Table 13.12a. -/
def fenceEvent (kind unit cause : Nat) (s : State) : State := event 2 [kind, unit, cause] s

/-! ## Slices (R127, R128) -/

/-- LLC_STATUS.cause of a row of Table 5.2. -/
def sliceCause (row : Nat) : Nat := if row = 5 then 2 else if row = 7 then 3 else 4

/-- Record of a noted fault: its tenancies are told (Table 5.2). -/
def recSliceFault (n : Nat) (s : State) (f : Nat × Nat × List Nat) : State :=
  if f.1 = 9 then recContained (beat s) 2 n 0x0209 0 [] s
  else recVisible (beat s) 2 n (0x0200 + f.1) f.2.2 0 [f.2.1] n [f.2.1] s

/-- The noted faults: their records; the first one fences the slice and starts the drain of R128. -/
def fenceSlice (n : Nat) (s : State) : State :=
  let r := sliceOf s n
  match r.fault with
  | [] => s
  | f :: _ =>
    let s1 := r.fault.foldl (recSliceFault n) (setSlice n { r with fault := [] } s)
    if rdB s (llcStatusFenced n) then s1
    else fenceEvent 2 n (0x0200 + f.1) (interruptTests (· == (2, n)) (drainSlice n (sliceCause f.1) s1))

/-- A slice that failed the start-up memory BIST never enters service. -/
def failSlice (n : Nat) (s : State) : State :=
  if s.boot.step ≠ 9 ∧ rd s (llcStatusState n) = 1 then
    countBuckets { (fenceEvent 2 n 0 (wr (llcStatusState n) 4 (wr (llcStatusCause n) 5 (wr (llcStatusFenced n) 1 s)))) with
      mesh := { s.mesh with base := s.mesh.base.filter (· != n) } }
  else s

/-! ## Channels and their parts (R166, R190, R420). The fence itself is no record of Table 16.3: the accesses that meet it are
(cause 0x0306), and the stop of a subchannel is (0x0308). -/

/-- Tenancies that own an enabled slot on a subchannel. -/
def slotOwners (s : State) (c sub : Nat) : List Nat :=
  (((List.range 32).map fun i => rd s (mcSealBlockOwner c (sub * 32 + i))).filter (· != 0)).eraseDups

/-- Enabled slots that tenancy t has on a subchannel's rank in frame f. -/
def rankSlots (s : State) (c sub rank t f : Nat) : Nat :=
  ((List.range 32).map fun i =>
    let e := sub * 32 + i
    if rd s (mcSealBlockOwner c e) = t ∧ roleRank s c (rd s (mcSealBlockRole c e)) f = rank then
      slotCountOf (rd s (mcSealBlockSlotEn c e)) else 0).sum

/-- Parts of a channel, as subchannel and rank. -/
def partsOfChan (s : State) (c : Nat) : List (Nat × Nat) :=
  [0, 1].flatMap fun b => (List.range (ranksOf s c)).map fun r => (b, r)

/-- What the requests that have left a channel's queues change: a write drain may end, and a port leave panic (R148, R149). -/
def judgeQueues (c : Nat) (s : State) : State := judgePanic c 0 (judgePanic c 1 (endDrain c 0 (endDrain c 1 s)))

/-- A mirrored pair is degraded: a recovery lap of the patrol starts on the channels that go on (R190, R198). -/
def degrade (c : Nat) (s : State) : State :=
  if mirrored s c then
    let p := rd s (mcMirrorPartner c)
    ([c, p].filter fun x => rd s (mcStatusState x) == 3).foldl (fun a x => patrolTrigger x 3 a)
      (wr (mcMirrorDegraded c) 1 (wr (mcMirrorDegraded p) 1 s))
  else s

/-- Lines of a fenced part that a queue still holds: they go to the partner's queue, or are lost (R420). -/
def moveLost (c : Nat) (s : State) : State :=
  let lost := fun (q : DReq) => (coord s (q.line * 64)).any fun k => partFenced s c k
  let keep := fun (t : Table (List DReq)) => t.foldl (fun a e => tset [] a e.1 (e.2.filter fun q => !lost q)) ([] : Table (List DReq))
  let ch := chanOf s c
  let out := ([ch.queue, ch.rt, ch.sealedQ, ch.outside].flatMap fun t => (t.map (·.2)).flatten).filter lost
  let s1 := setChan c { ch with queue := keep ch.queue, rt := keep ch.rt, sealedQ := keep ch.sealedQ, outside := keep ch.outside, retry := keep ch.retry } s
  judgeQueues c <| out.foldl (fun a q => match coord a (q.line * 64) with
    | none => a
    | some k =>
      if (copies a k.chan).all fun x => partFenced a x k then
        let b := lostLine (beat a) c q.line q.tag a
        if q.write then b else deliver q none b
      else if q.raw.isSome then a
      else enqueue (rd a (mcMirrorPartner c)) k.sub q a) s1

/-- The blocks selected before the fence whose slots fall after its boundary are lost, but those that a mirror partner performs (R166,
R190). -/
def loseFenced (c : Nat) (parts : List (Nat × Nat)) (s : State) : State :=
  ((chanOf s c).chosen.filter fun b => decide (beat s ≤ b.frame) && parts.contains (b.entry / 32, b.rank s c)).foldl (fun a b =>
    if partnerServes a c (b.entry / 32) (b.rank a c) then handOver c b a
    else unserve c b (noteLoss c b.owner b.slots b.frame (modChan c (fun r => { r with chosen := r.chosen.erase b }) a))) s

/-- What the owners of blocks on the parts just fenced are told: lost slots at the end of the first frame that the fence affects
for them, and the fence
itself with the rank, 0xFF for the whole channel. Blocks that a mirror partner serves are not lost (R190). -/
def tellOwners (c rank : Nat) (parts : List (Nat × Nat)) (s : State) : State :=
  let hit := parts.filter fun p => !partnerServes s c p.1 p.2
  let s1 := hit.foldl (fun a p => (slotOwners a c p.1).foldl (fun y t =>
    match [beat y, beat y + 1].find? fun f => rankSlots y c p.1 p.2 t f != 0 with
    | some f => addDue (f + 1) 8 (.fenceNotice c p.1 p.2 t f (rankSlots y c p.1 p.2 t f)) y
    | none => y) a) s
  let ts := ((hit.flatMap fun p => slotOwners s c p.1).filter (isSealed s)).eraseDups
  ts.foldl (fun a t => sealNotice t 0x0004 [(0x18, 1, c), (0x19, 1, rank)] a) s1

/-- The notice of lost slots of a fence that continues (R166). -/
def fenceNotice (c sub rank t first count : Nat) (s : State) : State :=
  sealNotice t 0x0001 [(0x18, 1, c), (0x19, 1, sub), (0x1A, 1, rank), (0x20, 8, first),
    (0x28, 8, 0xFFFFFFFFFFFFFFFF), (0x30, 4, count)] s

/-- A channel fenced during its fill is left out, and the map is built and filled again (R195). -/
def fillAgain (c : Nat) (filling : Bool) (s : State) : State :=
  if filling then
    let s1 := wr (mcStatusState c) 6 s
    if mapChans s1 = [] then s1 else buildMap s1
  else s

/-- A whole channel is fenced. -/
def fenceChan (c : Nat) (s : State) : State :=
  if rd s (mcStatusState c) = 5 ∨ rd s (mcStatusState c) = 0 then s
  else
    let parts := partsOfChan s c
    let s1 := fenceDomain (144 + c) (wr (mcStatusState c) 5 s)
    let s2 := degrade c s1
    let s3 := interruptTests (· == (3, c)) (fenceEvent 3 c 0x0306 (moveLost c (loseFenced c parts s2)))
    fillAgain c (rd s (mcStatusState c) == 2) (tellOwners c 0xFF parts s3)

/-- A rank is fenced. -/
def fenceRank (c r : Nat) (s : State) : State :=
  let ch := chanOf s c
  if ch.fencedRanks.contains r ∨ rd s (mcStatusState c) = 5 ∨ ranksOf s c ≤ r then s
  else
    let s1 := moveLost c (loseFenced c [(0, r), (1, r)] (setChan c { ch with fencedRanks := r :: ch.fencedRanks } s))
    let s2 := degrade c s1
    tellOwners c r [(0, r), (1, r)] (fenceEvent 3 c 0x0306 s2)

/-- A stopped subchannel is fenced; with both gone the channel is. -/
def fenceSub (c b : Nat) (s : State) : State :=
  let ch := chanOf s c
  if ch.fencedSubs.contains b ∨ rd s (mcStatusState c) = 5 ∨ 2 ≤ b then s
  else if ch.fencedSubs.contains (1 - b) then
    fenceChan c (setChan c { ch with fencedSubs := [0, 1], stopped := [] } s)
  else
    let parts := (List.range (ranksOf s c)).map fun r => (b, r)
    let s1 := moveLost c (loseFenced c parts
      (setChan c { ch with fencedSubs := b :: ch.fencedSubs, stopped := ch.stopped.filter (· != b) } s))
    let s2 := degrade c s1
    tellOwners c 0xFF parts (fenceEvent 3 c 0x0308 s2)

/-! ## Ports, links and DMA channels -/

/-- A SerDes port is fenced (R289); assignees below it are told as at an AER event (R278). -/
def fenceSerdes (g n : Nat) (s : State) : State :=
  if portState s g n = 6 ∨ portState s g n = 0 then s
  else
    let s1 := fencePort g n s
    let s2 := if (portsOf s1 g).all fun m => portState s1 g m == 6 then fenceDomain (160 + g) s1 else s1
    interruptTests (· == (4, portUnit g n)) (fenceEvent 4 (portUnit g n) 0x0402 (recContained (beat s) 4 (portUnit g n) 0x0402 0 [] s2))

/-- A fabric port is fenced: its link is lost and its domain is off until the next reset. -/
def fenceFab (k : Nat) (s : State) : State :=
  if (fportOf s k).fenced ∨ fabPortPresent s k = false then s
  else
    let s1 := modPort k (fun p => { p with fenced := true }) (linkFailed k 6 s)
    interruptTests (· == (5, k)) (fenceEvent 5 k 0x0501 (recContained (beat s) 5 k 0x0501 0 []
      (fenceDomain (168 + k) (switchDomain (168 + k) false (showIsolated (wr (fabPortStatusState k) 6 s1))))))

/-- A DMA channel with an error in its own state is aborted; a privileged one halts (R302, R306, Table 16.3). -/
def fenceDma (d : Nat) (s : State) : State :=
  if 64 ≤ d ∨ dmaState s d = 1 ∨ dmaState s d = 0 ∨ (dmaOf s d).aborting then s
  else if dmaPriv d then
    if dmaState s d = 6 then s else fenceEvent 6 d 0x0601 (recContained (beat s) 6 d 0x0601 0 [] (setDmaState d 6 s))
  else
    let own := rd s (dmaStatusOwner d)
    fenceEvent 6 d 0x0601 (interruptTests (· == (6, dmaTile d)) (recVisible (beat s) 6 d 0x0601 [own] 0 [] d [] (dmaAbort d s)))

/-! ## Halves (R421) and the device-fatal stop (R417) -/

/-- A hub serves nothing once its half is fenced. -/
def halfFenced (s : State) (t : Nat) : Bool := rdB s (pwrDomainFenced (180 + t))

/-- The surviving always-on domains stop with code 0xF0 until a reset. -/
def deviceFatal (s : State) : State :=
  { s with chip := { s.chip with fatal := true }
           boot := { s.boot with stopped := true, code := 0xF0, first := if s.boot.first = 0 then 0xF0 else s.boot.first,
                                 failures := min 255 (s.boot.failures + 1) } }

/-- A Clerk complex is held in reset and fenced until the next warm or cold reset (R328). -/
def fenceComplex (x : Nat) (s : State) : State :=
  fenceDomain (176 + x) (modCplx x (fun q => { q with fenced := true, fwd := [] })
    ((complexCores x).foldl (fun a c => holdCore c true a) s))

/-- Every unit of the IO tile is fenced with its hub; seniority on it moves under R328. -/
def fenceHalf (t : Nat) (s : State) : State :=
  if 2 ≤ t ∨ halfFenced s t then s
  else
    let s1 := fenceDomain (180 + t) s
    let s2 := ((presentChans s1).filter fun c => chanTile c == t).foldl (fun a c => fenceChan c a) s1
    let s3 := (((presentGroups s2).filter fun g => groupTile g == t).flatMap fun g => (portsOf s2 g).map fun n => (g, n)).foldl
      (fun a (p : Nat × Nat) => fenceSerdes p.1 p.2 a) s2
    let s4 := ((presentFabPorts s3).filter fun k => fabTile k == t).foldl (fun a k => fenceFab k a) s3
    let s5 := ((List.range 64).filter fun d => dmaTile d == t).foldl (fun a d => fenceDma d a) s4
    let s6 := fenceEvent 9 t 0x0902 (recPlatform (beat s) 3 9 t 0x0902 0 0 [] s5)
    let s7 := if s6.toss.holder = some t then
        (if s6.toss.pass.isSome then s6 else { s6 with toss := { s6.toss with pass := some (1 - t, beat s + 1, 2) } })
      else fenceComplex t s6
    if halfFenced s7 (1 - t) then deviceFatal s7 else s7

/-- The fault of a unit takes effect. A fence that its own chapter brings about with another step (harts, complexes,
Assayers), and one whose fault is not there, leaves the state as it is (log entry 13). -/
def fenceUnit (u : UnitRef) (s : State) : State :=
  match u with
  | .slice n cause => if 128 ≤ n then s else if cause = 5 then failSlice n s else fenceSlice n s
  | .rank c r => if chanPresent s c then fenceRank c r s else s
  | .sub c b => if chanPresent s c then fenceSub c b s else s
  | .chan c => if chanPresent s c then fenceChan c s else s
  | .port g n => if groupPresent s g ∧ 4 ≤ recentDowns s g n then fenceSerdes g n s else s
  | .link k => if fabPortPresent s k then linkFailed k 6 s else s
  | .fabPort k => if fabPortPresent s k ∧ 4 ≤ recentFails s k then fenceFab k s else s
  | .dma d => fenceDma d s
  | .half t => if t < 2 ∧ halfFenced s t = false then event 8 [t] (tossEvent 5 (fenceHalf t s)) else s
  | .hart _ | .clerk _ | .assayer _ => s

end Sys2Proof.Machine
end

