-- ==== Sys2Proof/Machine/Toss.lean ====
section
/-! DEFINITION. Machine/Toss.lean: heartbeats, the handshake of the Toss cells and what passes with the token (R327 to
R333, R371, R372, R458). -/
namespace Sys2Proof.Machine

def setToss (t : Toss) (s : State) : State := { s with toss := t }

/-! ## Step 8: heartbeats and handshake -/

/-- All four cores of the complex executed CHECKIN in the beat that ends (R328). -/
def heartbeat (s : State) (x : Nat) : Bool := rd s (clerkHbChecked (4 * x)) == 0xF

/-- The junior complex is in service (R458): not fenced, heartbeat present, bridge handshake exchanged. -/
def juniorOk (s : State) (bridge : Bool) : Bool :=
  match s.toss.holder with
  | some h => !(cplxOf s (1 - h)).fenced && heartbeat s (1 - h) && bridge
  | none => false

/-- Tiles whose power-good the bridge reports lost. -/
def lowTiles (pgN pgS : Bool) : List Nat := (if pgN then [] else [0]) ++ (if pgS then [] else [1])

/-- What the cores of complex x read of a sample (Table 12.8). -/
def showBeat (x : Nat) (peer bridge pg : Bool) (misses : Nat) (s : State) : State :=
  (complexCores x).foldl (fun a c =>
    let a1 := wr (clerkHbLast c) (rd a (clerkHbChecked c)) (wr (clerkHbChecked c) 0 a)
    wrB (clerkHbPeerHb c) (peer && bridge) (wr (clerkHbPeerMisses c) (min 7 misses) (wrB (clerkTossBridgeOk c) bridge
      (wrB (clerkTossPeerPg c) pg (wrB (clerkTossPeerFenced c) (cplxOf s (1 - x)).fenced a1))))) s

/-- The junior applies what the senior forwarded in the beat (R327). -/
def applyMirror (h : Nat) (bridge : Bool) (s : State) : State :=
  let f := (cplxOf s h).fwd
  let s1 := modCplx h (fun q => { q with fwd := [] }) s
  if bridge then modCplx (1 - h) (fun q => { q with store := f.foldl (fun t (o, n, v) => putLE t o n v) q.store }) s1 else s1

/-- Step 8 of a boundary for both complexes (R327 to R329, R458). -/
def sampleHearts (bridge pgN pgS : Bool) (s : State) : State :=
  let n := heartbeat s 0
  let z := heartbeat s 1
  let miss := fun (x : Nat) (b : Bool) => if b then 0 else tget 0 s.toss.misses x + 1
  let t := s.toss
  let t1 : Toss := { t with
    misses := tset 0 (tset 0 t.misses 0 (miss 0 n)) 1 (miss 1 z)
    bridge := if bridge then 0 else t.bridge + 1
    northOk := if bridge then !(cplxOf s 0).fenced else t.northOk
    fencedAt := if bridge then [0, 1].filter fun x => (cplxOf s x).fenced else t.fencedAt
    pgLow := lowTiles pgN pgS }
  let ok := juniorOk s bridge
  let s1 := wrB mbxGlobalJuniorOk ok (setToss t1 s)
  let s2 := match t.holder with | some h => applyMirror h bridge s1 | none => s1
  showBeat 1 n bridge pgN (miss 0 n) (showBeat 0 z bridge pgS (miss 1 z) s2)

/-- A forced-junior complex whose firmware wrote 0 leaves that state (R331). -/
def leaveForced (s : State) : State :=
  s.toss.unforce.foldl (fun a x => (complexCores x).foldl (fun y c => wr (clerkTossForcedJunior c) 0 y) a)
    (setToss { s.toss with unforce := [] } s)

/-! ## The Assayer's side of a change of seniority (R372) -/

/-- The Assayer's record, its core aside, when a new one starts on a tile. -/
def assayerFresh (a : Assayer) (t : Nat) (j : Option Nat) : Assayer :=
  { a with tile := some t, taking := j, hung := false, absent := 0, beaten := false, gates := [], window := [], spdm := [] }

/-- The former senior's Assayer is held in reset with its SRAM cleared, and the standby starts. -/
def passAssayer (old new : Nat) (s : State) : State :=
  let s1 := releaseCore (8 + new) (holdCore (8 + old) false s)
  { s1 with assayer := assayerFresh s1.assayer new (some (beat s)) }

/-! ## The token -/

/-- Tile t holds the token: both cells, the cores' CLERK_TOSS, the beat master, the tile that serves the pages. -/
def giveToken (t : Nat) (s : State) : State :=
  let s1 := setToss { s.toss with holder := some t, pass := none } s
  let s2 := (clerkCores).foldl (fun a c => wrB (clerkTossSenior c) (c / 4 == t) a) s1
  wr clkStatusBeatMaster t (wr mbxGlobalSenior t { s2 with boot := { s2.boot with tile := t } })

/-- Step 1 of the boundary at which the token passes (R328): failover in every respect. -/
def passToken (s : State) : State :=
  match s.toss.pass with
  | some (t, b, e) =>
    if b ≤ beat s ∧ t < 2 then
      let old := 1 - t
      let s1 := passAssayer old t (giveToken t (fenceComplex old s))
      event 14 [t] (detectedAt (beat s - 1) (recContained (beat s) 7 old 0x0701 0 []) (bump mbxGlobalFailovers 1 (tossEvent e s1)))
    else s
  | none => s

/-- The bridge heartbeat is absent at two boundaries in a row and both power-goods are reported (R332). -/
def bridgeLost (s : State) : State :=
  match s.toss.holder with
  | some x =>
    if 2 ≤ s.toss.bridge ∧ s.toss.pgLow = [] ∧ s.toss.dead = false then
      let y := if s.toss.northOk then 0 else x
      let s1 := setToss { s.toss with dead := true, pass := if y = x then s.toss.pass else some (y, beat s + 1, 4) } s
      addDue (beat s + 1) 2 (.fenceHalf (1 - y)) (event 8 [1 - y]
        (recContained (nextSlice s) 9 2 0x0901 0 [] (tossEvent 4 s1)))
    else s
  | none => s

/-- The holder's power-good and heartbeat are both lost: the token goes to the other tile and the half is lost. -/
def peerPowerLost (s : State) : State :=
  match s.toss.holder with
  | some x =>
    if s.toss.pgLow.contains x ∧ 1 ≤ tget 0 s.toss.misses x ∧ s.toss.pass.isNone then
      addDue (beat s + 1) 2 (.fenceHalf x) (event 8 [x] (setToss { s.toss with pass := some (1 - x, beat s + 1, 6) } s))
    else s
  | none => s

/-! ## Meanings -/

/-- BRIDGE_LOST (R329, R332). -/
def execBridgeLost (s : State) : Host.Outcome State Fault Refusal := .next (bridgeLost s)
/-- PEER_POWER_LOST (R329). -/
def execPeerPowerLost (s : State) : Host.Outcome State Fault Refusal := .next (peerPowerLost s)

end Sys2Proof.Machine
end

