-- ==== Sys2Proof/Machine/Assayer.lean ====
section
/-! DEFINITION. Machine/Assayer.lean: gates, held domains, heartbeat and hang, the standby, debug enables, zeroization, and
the TAP instructions that those enables open (R360 to R372, R437, R438). -/
namespace Sys2Proof.Machine

def setAssayer (a : Assayer) (s : State) : State := { s with assayer := a }
def modAssayer (f : Assayer → Assayer) (s : State) : State := setAssayer (f s.assayer) s

/-! ## Gates (R361, R362) -/

/-- Core of the running Assayer. -/
def assayerCore (s : State) : Option Nat := s.assayer.tile.map (8 + ·)

/-- Word at an address of the Assayer that its dispatcher may reach: SRAM or ROM. -/
def assayerWord (s : State) (a : Nat) : Option Nat :=
  match assayerCore s with
  | some c => if a % 4 = 0 ∧ (a < 0x80000 ∨ (0x90000 ≤ a ∧ a < 0xA0000)) then clkLoad s c a 4 else none
  | none => none

/-- Gate g leads to a GATE instruction. -/
def gateOk (s : State) (g : Nat) : Bool := assayerWord s (getLE s.assayer.gates (4 * g) 4) == some 0x78000005

/-- The gate a mailbox command needs (Table 14.2); tenant.close erases without one when the Assayer is hung (R363). DESIGN CHOICE (log
entry 40): tenant.unseal is turned away like tenant.seal while the Assayer is hung, although R344 does not list it. -/
def gateOf (code : Nat) : Option Nat :=
  if code = 0x0301 ∨ code = 0x0307 then some 1
  else if code = 0x0305 ∨ code = 0x0306 then some 2
  else if code = 0x0C03 then some 3
  else none

/-! ## Holds (R368, R369) -/

/-- The hold of domain or engine d ends. -/
def endHold (d : Nat) (s : State) : State :=
  let s1 := modAssayer (fun a => { a with holds := tset 0 a.holds d 0 }) s
  if d < 184 then (if domState s1 d = 4 then wr (pwrDomainState d) 1 (wr (pwrDomainHeld d) 0 s1) else wr (pwrDomainHeld d) 0 s1) else s1

/-- Step 3: the Assayer's orders of the beat take effect at boundary b. -/
def applyHolds (b : Nat) (l : List (Nat × Bool)) (s : State) : State :=
  l.foldl (fun a e =>
    if s.assayer.hung ∨ s.assayer.tile.isNone ∨ 190 ≤ e.1 ∨ (e.1 < 184 ∧ domainPresent s e.1 = false) then a
    else if e.2 then
      if tget 0 a.assayer.holds e.1 ≠ 0 then a
      else
        let a1 := modAssayer (fun x => { x with holds := tset 0 x.holds e.1 (b + 1) }) a
        if e.1 < 184 then wr (pwrDomainHeld e.1) 1 a1 else a1
    else endHold e.1 a) s

/-- Every hold ends. -/
def endHolds (s : State) : State := (s.assayer.holds.map (·.1)).foldl (fun a d => endHold d a) s

/-- Tile of the running Assayer, as its records name it (R459). -/
def assayerTile (s : State) : Nat := s.assayer.tile.getD 0

/-- A hold taken 2,000 beats ago or more ends, as a contained error against the Assayer. -/
def holdLimit (s : State) : State :=
  (s.assayer.holds.filter fun e => decide (e.2 + 1999 ≤ beat s)).foldl (fun a e =>
    recContained (nextSlice s) 8 (assayerTile s) 0x0802 0 [] (endHold e.1 a)) s

/-! ## Heartbeat and hang (R371) -/

/-- Step 8: the running Assayer's heartbeat is sampled; the watch is suspended while a standby takes over. -/
def sampleAssayer (s : State) : State :=
  match assayerCore s with
  | some c =>
    let ok := rd s (clerkHbChecked c) != 0
    let s1 := wr (clerkHbLast c) (rd s (clerkHbChecked c)) (wr (clerkHbChecked c) 0 s)
    if s.assayer.hung ∨ s.assayer.taking.isSome then s1
    else modAssayer (fun a => { a with absent := if ok then 0 else a.absent + 1 }) s1
  | none => s

/-- Privileged channels 30 and 31 of both engines stop as under R305 (R307). -/
def stopAssayerDma (s : State) : State := [30, 31, 62, 63].foldl (fun a d => dmaStop d a) s

/-- The Assayer is treated as hung from now on; cause 1 heartbeat, 2 standby not ready. -/
def treatHung (cause : Nat) (s : State) : State :=
  let t := assayerTile s
  let s1 := endHolds (stopAssayerDma (holdCore (8 + t) false s))
  recContained (nextSlice s) 8 t 0x0801 0 [] (event 3 [beat s, 0, cause]
    (modAssayer (fun a => { a with hung := true, taking := none, gates := [], window := [], spdm := []
                                   outage := some (beat s, cause) }) s1))

/-- 1,000 boundaries in a row without the heartbeat. -/
def assayerHang (s : State) : State :=
  if 1000 ≤ s.assayer.absent ∧ s.assayer.hung = false then treatHung 1 s else s

/-! ## The standby (R372) -/

/-- The Clerk closes an open outage note with the beat. -/
def closeOutage (s : State) : State :=
  match s.assayer.outage with
  | some (b, cause) => event 3 [b, beat s, cause] (modAssayer (fun a => { a with outage := none }) s)
  | none => s

/-- The standby is ready: its Alias keys are derived. -/
def standbyReady (s : State) : State :=
  match s.assayer.taking with
  | some j => if beat s ≤ j + 2000 then closeOutage (modAssayer (fun a => { a with taking := none, absent := 0, aliasUp := true }) s) else s
  | none => s

/-- Not ready by j + 2,000: treated as hung from that boundary; an outage that is open stays the same one. -/
def standbyTimeout (s : State) : State :=
  match s.assayer.taking with
  | some j =>
    if j + 2000 ≤ beat s then
      match s.assayer.outage with
      | some o => let a := treatHung 2 { s with boot := s.boot }
                  modAssayer (fun x => { x with outage := some o }) a
      | none => treatHung 2 s
    else s
  | none => s

/-! ## Debug enables (R365 to R367) -/

/-- Enables that Table 14.4 lets a token set. -/
def tokenMask (s : State) : Nat := if s.chip.debugState = .locked then 3 else 0xF

/-- A token is acceptable (R366). -/
def tokenGood (s : State) (t : Token) : Bool :=
  t.valid && t.uid == s.chip.uid && t.counter == s.boot.counter && s.boot.headOk && !s.assayer.hung &&
    s.assayer.tile.isSome && s.assayer.taking.isNone

/-- Accept a token: its enables take effect at the next boundary, and start-up may hold at the end of step 3. -/
def acceptToken (t : Token) (s : State) : State :=
  if tokenGood s t then
    let w := t.enables % 16 &&& tokenMask s
    let s1 := modAssayer (fun a => { a with wanted := a.wanted ||| w }) { s with boot := { s.boot with hold := s.boot.hold || (t.hold && decide (s.boot.step ≤ 3)) } }
    event 4 [w, t.digest] s1
  else s

/-- The token presented through DZ_TOKEN is checked once the head is known. -/
def tokenAccept (s : State) : State :=
  match s.assayer.token with
  | some t => if s.boot.headOk then acceptToken t (modAssayer (fun a => { a with token := none }) s) else s
  | none => s

/-- Every key-store entry of every channel and fabric port is erased, and every fabric link goes down. -/
def zeroizeKeys (s : State) : State :=
  (presentFabPorts s).foldl (fun a k => modPort k (fun p => { p with keyTx := none, keyRx := none, proved := [] }) (linkFailed k 1 a))
    (setMem { s.mem with keys := [] } s)

/-- At a boundary: accepted enables are set. On a production part the secure invasive enable first zeroizes. -/
def applyEnables (s : State) : State :=
  let a := s.assayer
  if a.wanted = 0 then s
  else
    let now' := if inMask a.wanted 3 ∧ s.chip.debugState = .production ∧ a.zeroed = false then a.wanted &&& 7 else a.wanted
    let rest := a.wanted - now'
    let s1 := setAssayer { a with enables := a.enables ||| now', everSet := a.everSet ||| now', wanted := rest } s
    if rest = 0 ∨ a.zeroing.isSome then s1
    else modAssayer (fun x => { x with zeroing := some (beat s), aliasUp := false }) (zeroizeKeys (event 5 [] s1))

/-- Zeroization ends within 100 beats; the enable follows at the next boundary, and the debug Alias is derived. -/
def zeroizeDone (s : State) : State :=
  match s.assayer.zeroing with
  | some b => if beat s ≤ b + 100 then modAssayer (fun a => { a with zeroing := none, zeroed := true, aliasUp := true, debugAlias := true }) s else s
  | none => s

/-- Isolation no longer holds: an invasive enable has been set since cold reset (R223, R367). -/
def everInvasive (s : State) : Bool := inMask s.assayer.everSet 1 || inMask s.assayer.everSet 3

/-! ## The TAP (R437, R438) -/

/-- Load an instruction: without its enable it acts as BYPASS. -/
def tapLoad (code : Nat) (need : Option Nat) (s : State) : State :=
  let c := match need with | some k => if enabled s k then code else 0xFF | none => code
  { s with chip := { s.chip with tapIr := c } }

/-- EXTEST, CLAMP and HIGHZ take effect while start-up has not passed step 3, and then hold it at the end of that step. -/
def tapPins (code : Nat) (s : State) : State :=
  if enabled s 1 ∧ s.boot.step ≤ 3 then tapLoad code (some 1) { s with boot := { s.boot with hold := true } }
  else tapLoad 0xFF none s

/-! ## Meanings -/

/-- ASSAYER_HANG (R307, R369, R371). -/
def execAssayerHang (s : State) : Host.Outcome State Fault Refusal := .next (assayerHang s)
/-- HOLD_LIMIT (R369). -/
def execHoldLimit (s : State) : Host.Outcome State Fault Refusal := .next (holdLimit s)
/-- STANDBY_READY (R372). -/
def execStandbyReady (s : State) : Host.Outcome State Fault Refusal := .next (standbyReady s)
/-- STANDBY_TIMEOUT (R372). -/
def execStandbyTimeout (s : State) : Host.Outcome State Fault Refusal := .next (standbyTimeout s)
/-- DEBUG_TOKEN_ACCEPT (R366). -/
def execDebugTokenAccept (s : State) : Host.Outcome State Fault Refusal := .next (tokenAccept s)
/-- ZEROIZE_DONE (R367). -/
def execZeroizeDone (s : State) : Host.Outcome State Fault Refusal := .next (zeroizeDone s)
/-- IDCODE (R437). -/
def execIdcode (s : State) : Host.Outcome State Fault Refusal := .next (tapLoad 0x01 none s)
/-- SAMPLE_PRELOAD (R437). -/
def execSamplePreload (s : State) : Host.Outcome State Fault Refusal := .next (tapLoad 0x02 none s)
/-- EXTEST (R437, R438). -/
def execExtest (s : State) : Host.Outcome State Fault Refusal := .next (tapPins 0x03 s)
/-- CLAMP (R437, R438). -/
def execClamp (s : State) : Host.Outcome State Fault Refusal := .next (tapPins 0x04 s)
/-- HIGHZ (R437, R438). -/
def execHighz (s : State) : Host.Outcome State Fault Refusal := .next (tapPins 0x05 s)
/-- DZ_TOKEN (R366): the data register presents a token, which is held until the head is known. -/
def execDzToken (t : Token) (s : State) : Host.Outcome State Fault Refusal :=
  .next (modAssayer (fun a => { a with token := some t }) (tapLoad 0x10 none s))
/-- DZ_MBX (R354): a store of the debug port to page 259, which it reaches under the platform non-invasive enable. -/
def execDzMbx (off size v : Nat) (s : State) : Host.Outcome State Fault Refusal :=
  .next (let s1 := tapLoad 0x11 (some 0) s
    if s1.chip.tapIr = 0x11 ∧ off < 0x1000 ∧ (size = 4 ∨ size = 8) ∧ off % size = 0 then pageWrite 259 off size v s1 else s1)
/-- DZ_DEBUG (R437). -/
def execDzDebug (s : State) : Host.Outcome State Fault Refusal := .next (tapLoad 0x12 (some 1) s)
/-- DZ_ASSAYER (R437, Table 14.5). -/
def execDzAssayer (s : State) : Host.Outcome State Fault Refusal := .next (tapLoad 0x13 (some 2) s)
/-- BYPASS (R437). -/
def execBypass (s : State) : Host.Outcome State Fault Refusal := .next (tapLoad 0xFF none s)

end Sys2Proof.Machine
end

