-- ==== Sys2Proof/Machine/Inventory.lean ====
section
/-! DEFINITION. Machine/Inventory.lean: the conditions of the availability promise (R427), inventory.list, time.* and
ras.read (R356 to R358). -/
namespace Sys2Proof.Machine

/-! ## The availability promise (Table 16.6) -/

/-- Slots in split mode, in checked mode; a slot that waits for a Libero is in checked mode, in which it will be bound. -/
def splitSlots (s : State) : List Nat := numsBelow (slotCount s) (slotSplit s)
def checkedSlots (s : State) : List Nat :=
  numsBelow (slotCount s) fun n => !slotSplit s n

/-- Every sensor within 0 to 105 °C (Table 18.4). -/
def tempsRated (s : State) : Bool :=
  s.chip.sensors.all fun e => match e.2.last with
    | some v => decide (0 ≤ v) && decide (v ≤ 105)
    | none => true

/-- The conditions of Table 16.6 that do not hold, as the reasons of Table 13.8. -/
def reasons (s : State) : Nat :=
  maskOf (([(0, (freeLiberos s).isEmpty), (1, !(splitSlots s).isEmpty || (presentPairs s).any fun p => rd s (pairStatusState p) == 4),
    (2, (mapChans s).any fun c => rd s (mcSpareStatusSpared c) != 0 && !(mirrored s c && !rdB s (mcMirrorDegraded c))),
    (3, !(rdB s (refOk 0) && rdB s (refOk 1))), (4, !(s.boot.readA && s.boot.readB)), (5, !tempsRated s),
    (6, !rdB s mbxGlobalJuniorOk), (7, vOf s == .d9_128e)].filter (·.2)).map (·.1))

/-- flags.avail. -/
def avail (s : State) : Bool := reasons s == 0

/-- The cores are released (Table 14.8). -/
def released (s : State) : Bool := s.boot.step == 9

/-- The Assayer runs and serves requests. -/
def assayerUp (s : State) : Bool := s.assayer.tile.isSome && !s.assayer.hung && s.assayer.taking.isNone

/-! ## inventory.list (Table 13.8) -/

/-- Nibbles n of a list, two to a byte. -/
def nibbles (off : Nat) (l : List Nat) : List (Nat × Nat × Nat) :=
  (List.range ((l.length + 1) / 2)).map fun i => (off + i, 1, (l[2 * i]?).getD 0 % 16 + 16 * ((l[2 * i + 1]?).getD 0 % 16))

/-- Flags of Table 13.8. -/
def invFlags (s : State) : Nat :=
  (avail s).toNat + 2 * (s.toss.holder.getD 0) + 4 * (rdB s mbxGlobalJuniorOk).toNat + 8 * (assayerUp s).toNat +
    16 * (rdB s fabIdMember).toNat + 32 * (released s).toNat

/-- One channel's byte. -/
def chanByte (s : State) (c : Nat) : Nat :=
  let m := if mirrored s c then (if rdB s (mcMirrorDegraded c) then 2 else 1) else 0
  rd s (mcStatusState c) % 16 + 16 * m + 64 * (if rd s (mcSpareStatusSpared c) = 0 then 0 else 1)

/-- Installed local DRAM in bytes: every DIMM of a present channel (Table 13.7). -/
def dimmBytes (s : State) : Nat := ((presentChans s).map fun c => rd s (mcDimmCapacityGb c) * 2 ^ 30).sum

def inventoryList (i : Nat) (s : State) : State :=
  let groups := (presentGroups s).flatMap fun g =>
    [(0xA0 + 8 * g, 1, 1), (0xA1 + 8 * g, 1, bifOf s g)] ++ ((portsOf s g).map fun n => (0xA2 + 8 * g + n, 1, portRole s g n))
  stageDone i 0 (mkBytes (
    [(0, 1, variantCode (vOf s)), (1, 1, invFlags s), (2, 1, (freeLiberos s).length), (3, 1, 2 ^ tiles (vOf s) - 1),
     (4, 2, reasons s), (6, 1, if rdB s fabIdMember then myId s else 0), (7, 1, s.chip.stepping)] ++
    nibbles 0x08 ((List.range 136).map fun p => if pairPresent s p then rd s (pairStatusState p) else 0) ++
    nibbles 0x50 ((List.range 128).map fun n => if slicePresent s n then rd s (llcStatusState n) else 0) ++
    ((presentChans s).map fun c => (0x90 + c, 1, chanByte s c)) ++ groups ++
    ((presentFabPorts s).map fun k => (0xE0 + k, 1, rd s (fabPortStatusState k) % 16 + 16 * (rdB s (fabPortStatusWidth k)).toNat)) ++
    [(0xE6, 1, if vOf s == .d9_128c || vOf s == .d9_128e then 0 else 1), (0xE8, 2, hartCount s), (0xEA, 2, (startedHarts s).length),
     (0xEC, 2, (checkedSlots s).length), (0xEE, 2, (splitSlots s).length), (0xF0, 8, dimmBytes s),
     (0xF8, 8, mappedBytes s), (0x100, 8, (s.mem.lent.map fun e => e.2.2.1).sum)])) s

/-! ## time.* (R357) -/

def timeGet (i : Nat) (s : State) : State :=
  let st := rd s clkStatusRefSel + 2 * rd s clkStatusRefaOk + 4 * rd s clkStatusRefbOk + 8 * rd s clkStatusHoldover +
    16 * rd s clkStatusBeatMaster + 32 * rd s clkStatusFabAligned + 64 * rd s clkStatusSlewing + 128 * rd s clkStatusAoSource +
    256 * rd s clkStatusCaptain
  stageDone i 0 (mkBytes [(0, 8, beat s), (8, 8, now s), (0x10, 2, st), (0x18, 8, rd s clkUncertTotalTotalNs),
    (0x20, 8, rd s clkSlewRemainLeadNs)]) s

/-- Highest time that may be set. -/
def timeMax : Nat := 0x7FFFFFFFFFFFFFF8

/-- The time is taken at step 1 of the next boundary; the result follows in that boundary's slice. -/
def timeSet (i : Nat) (c : Bytes) (s : State) : State :=
  let w := arg c 0 8
  let t := min timeMax (w / 10 * 10)
  if t ≤ nextTime s then
    stageDone i (chg w (nextTime s)) (mkBytes [(0, 8, nextTime s), (8, 1, 1)]) s
  else
    addStep i (beat s + 1) (.stage i (chg w t) (mkBytes [(0, 8, t), (0x10, 8, beat s + 1)]))
      (setTime { s.time with setNext := some t } s)

/-! ## ras.read (R358) -/

/-- The log a mailbox reads. -/
def logOf (s : State) (i : Nat) : RasLog := if 1 ≤ i ∧ i ≤ 256 then tget {} s.ras.tenants i else s.ras.platform

def setLog (i : Nat) (g : RasLog) (s : State) : State :=
  { s with ras := if 1 ≤ i ∧ i ≤ 256 then { s.ras with tenants := tset {} s.ras.tenants i g } else { s.ras with platform := g } }

/-- Records readable now: placed in an earlier slice (R423). -/
def readableRecs (s : State) (g : RasLog) : List RasRec := g.recs.takeWhile fun r => decide (r.slice < beat s)

/-- One more than the number of the newest readable record. -/
def readLimit (s : State) (g : RasLog) : Nat :=
  match (readableRecs s g).getLast? with
  | some r => r.seq + 1
  | none => match g.recs with
    | r :: _ => r.seq
    | [] => g.next

/-- A record's bytes (Table 13.12a) at an offset. -/
def recBytes (o : Nat) (r : RasRec) : List (Nat × Nat × Nat) :=
  [(o, 8, r.seq), (o + 8, 8, r.beat), (o + 0x10, 1, r.cls), (o + 0x11, 1, r.kind), (o + 0x12, 2, r.unit),
   (o + 0x14, 2, r.cause), (o + 0x16, 2, r.tenancy), (o + 0x18, 8, r.addr)] ++
  ((r.detail.take 32).zipIdx.map fun (b, j) => (o + 0x20 + j, 1, b))

def rasRead (i : Nat) (c : Bytes) (s : State) : State :=
  let g := logOf s i
  let w := arg c 0 8
  let n := clampR 1 14 (arg c 8 1)
  let vis := readableRecs s g
  let lim := readLimit s g
  let old := match vis with | r :: _ => r.seq | [] => lim
  let cur := if w = 0 then old else clampR old lim w
  let out := (vis.filter fun r => decide (cur ≤ r.seq)).take n
  let seqs := out.map (·.seq)
  let cl := (if w = 0 then 0 else chg w cur) + chg (arg c 8 1) n
  stageDone i cl (mkBytes ([(0, 8, cur), (8, 8, cur + out.length), (0x10, 1, out.length), (0x18, 8, g.lost)] ++
    (out.zipIdx.flatMap fun (r, j) => recBytes (0x40 + 0x40 * j) r)))
    (setLog i { g with read := g.read.filter (fun q => !seqs.contains q) ++ seqs } s)

/-! ## Meanings -/

/-- INVENTORY_LIST (R6, R356). -/
def execInventoryList (mbx : Nat) (s : State) : Host.Outcome State Fault Refusal :=
  .next (onCmd mbx 0x0101 (fun _ => inventoryList mbx) s)
/-- TIME_GET (R357). -/
def execTimeGet (mbx : Nat) (s : State) : Host.Outcome State Fault Refusal := .next (onCmd mbx 0x0B01 (fun _ => timeGet mbx) s)
/-- TIME_SET (R52, R357). -/
def execTimeSet (mbx : Nat) (s : State) : Host.Outcome State Fault Refusal := .next (onCmd mbx 0x0B02 (timeSet mbx) s)
/-- RAS_READ (R358). -/
def execRasRead (mbx : Nat) (s : State) : Host.Outcome State Fault Refusal := .next (onCmd mbx 0x0A01 (rasRead mbx) s)

end Sys2Proof.Machine
end

