-- ==== Sys2Proof/Machine/Daybook.lean ====
section
/-! DEFINITION. Machine/Daybook.lean: CBOR as records use it, Daybook records and attestation reports, the daybook.*
commands and the SPDM responder (R364, R377, R381 to R387). -/
namespace Sys2Proof.Machine

/-! ## CBOR in its deterministic encoding (RFC 8949, R383) -/

/-- n bytes of a number, highest first. -/
def bytesBE (n v : Nat) : List Nat := (bytesOf n v).reverse

/-- Head of a data item. -/
def cborHead (major v : Nat) : List Nat :=
  if v < 24 then [major * 32 + v]
  else if v < 2 ^ 8 then [major * 32 + 24, v]
  else if v < 2 ^ 16 then (major * 32 + 25) :: bytesBE 2 v
  else if v < 2 ^ 32 then (major * 32 + 26) :: bytesBE 4 v
  else (major * 32 + 27) :: bytesBE 8 v

def cborUint (v : Nat) : List Nat := cborHead 0 v
/-- The integer -1 - v. -/
def cborNint (v : Nat) : List Nat := cborHead 1 v
def cborBytes (l : List Nat) : List Nat := cborHead 2 l.length ++ l
def cborText (l : List Nat) : List Nat := cborHead 3 l.length ++ l
def cborArr (l : List (List Nat)) : List Nat := cborHead 4 l.length ++ l.flatten
/-- A map whose keys are given in rising order. -/
def cborMap (l : List (List Nat × List Nat)) : List Nat := cborHead 5 l.length ++ (l.flatMap fun e => e.1 ++ e.2)
/-- A map with small unsigned keys. -/
def cborKeys (l : List (Nat × List Nat)) : List Nat := cborMap (l.map fun e => (cborUint e.1, e.2))
/-- A digest as a byte string of 48 bytes. -/
def cborDigest (d : Nat) : List Nat := cborBytes (bytesOf 48 d)

/-! ## Keys (Table 14.3) -/

/-- Digest of the Assayer firmware in use. -/
def fwDigest (s : State) (id : Nat) : Nat := ((s.boot.image.comps.find? fun c => c.id == id).map (·.digest)).getD 0

def debugCode : DebugSt → Nat
  | .development => 0
  | .production => 1
  | .locked => 2

/-- CDI1; after a zeroization that of the debug Alias, which includes the enables. -/
def cdi1 (s : State) : Nat :=
  let fw := (s.boot.image.comps.find? fun c => c.id == 1).getD { id := 1 }
  Config.hkdf (Config.hkdf s.chip.uds 0) (Config.sha384 (bytesOf 48 fw.digest ++ bytesOf 2 fw.svn ++
    bytesOf 48 s.chip.ownerKeyHash ++ [debugCode s.chip.debugState + (if s.assayer.debugAlias then 128 else 0)]))

/-- Alias keys: 1 ECDSA P-384, 2 ML-DSA-87. -/
def aliasKey (s : State) (k : Nat) : Nat := Config.hkdf (cdi1 s) k

/-! ## COSE_Sign (R383) -/

/-- The two signers: algorithm, key, bytes of a signature. -/
def signers : List (Nat × Nat × Nat) := [(34, 1, 96), (49, 2, 4627)]

/-- "Signature". -/
def sigText : List Nat := [0x53, 0x69, 0x67, 0x6E, 0x61, 0x74, 0x75, 0x72, 0x65]

/-- A COSE_Sign object of CBOR tag 98 over a payload. -/
def coseSign (s : State) (payload : List Nat) : List Nat :=
  let body := cborBytes (cborMap [(cborUint 3, cborUint 60)])
  let one := fun (a : Nat × Nat × Nat) =>
    let prot := cborBytes (cborMap [(cborUint 1, cborNint a.1)])
    let kid := (bytesOf 48 (Config.sha384 (Config.publicKey (aliasKey s a.2.1)))).take 8
    let msg := cborArr [cborText sigText, body, prot, cborBytes [], cborBytes payload]
    cborArr [prot, cborMap [(cborUint 4, cborBytes kid)], cborBytes (bytesOf a.2.2 (Config.sign (aliasKey s a.2.1) msg))]
  cborHead 6 98 ++ cborArr [body, cborMap [(cborNint 70000, cborBytes (Config.endorsement (cdi1 s)))], cborBytes payload,
    cborArr (signers.map one)]

/-! ## The record (Table 14.14) -/

/-- The start-up status word (Table 14.8). -/
def statusWord14 (b : Boot) : Nat :=
  b.step % 16 + 16 * b.stopped.toNat + 32 * (b.flash % 2) + 64 * (b.tile % 2) + 128 * b.warm.toNat + 256 * (b.code % 256) +
    2 ^ 16 * (b.first % 256) + 2 ^ 24 * min 255 b.failures + 2 ^ 32 * min (2 ^ 32 - 1) b.elapsed

/-- Measurements: component 0x00, the ROM, then the components in manifest order (R375). -/
def measurements (s : State) : List Comp :=
  { id := 0, ver := Config.romComp 0, svn := Config.romComp 1,
    digest := Config.sha384 ((List.range 0x10000).map Config.assayerRom) } :: s.boot.image.comps

/-- Key 6. -/
def fuseDigest (s : State) : Nat :=
  Config.sha384 (bytesOf 16 s.chip.variantMask ++ bytesOf 48 s.chip.ownerKeyHash ++
    ((List.range 8).map fun k => tget 0 s.chip.counters k % 256) ++ [s.chip.tossPref % 256, debugCode s.chip.debugState] ++
    bytesOf 16 s.chip.serial)

/-- Key 8. -/
def configDigest (s : State) : Nat :=
  Config.sha384 (cborKeys
    [(1, cborDigest (fwDigest s 5)),
     (2, cborArr (s.mem.map.map fun q => cborArr [cborUint q.base, cborUint q.size, cborUint (maskOf q.members)])),
     (3, cborBytes ((List.range 16).map fun i => 255 - maskOf ((List.range 8).filter fun j => s.boot.board.split.contains (8 * i + j)))),
     (4, cborUint (maskOf ((List.range 8).filter fun k => mirrored s (2 * k)))),
     (5, cborArr (s.mem.lent.map fun e => cborArr [cborUint e.1, cborUint e.2.1, cborUint e.2.2.1, cborUint e.2.2.2])),
     (6, cborUint (((mapChans s).map fun c => rd s (mcDimmSpeed c)).foldl max 0))])

/-- One event map (R383). -/
def eventMap (e : JEntry) : List Nat :=
  cborKeys [(1, cborUint e.kind), (2, cborUint e.counter), (3, cborUint e.beat), (4, cborUint e.time),
    (5, cborArr (e.detail.map fun v => if v < 2 ^ 64 then cborUint v else cborDigest v))]

/-- Events that await the next record. -/
def openEvents (s : State) : List JEntry := s.boot.journal.filter fun e => !e.consumed && !e.close

/-- Payload of this start's record. -/
def recordPayload (s : State) : List Nat :=
  let ev := openEvents s
  let (ctr, prev) := match s.boot.head with | some (c, d) => (c + 1, d) | none => (1, 0)
  cborKeys
    [(1, cborUint 1), (2, cborBytes (bytesOf 16 s.chip.serial)), (3, cborUint (variantCode (vOf s))), (4, cborUint ctr),
     (5, cborDigest prev), (6, cborDigest (fuseDigest s)),
     (7, cborArr ((measurements s).map fun c =>
       cborKeys [(1, cborUint c.id), (2, cborUint c.ver), (3, cborUint c.svn), (4, cborDigest c.digest)])),
     (8, cborDigest (configDigest s)), (9, cborArr ((ev.take 256).map eventMap)), (10, cborUint (now s)),
     (11, cborUint (beat s)), (12, cborUint s.chip.uid), (13, cborUint (statusWord14 s.boot)),
     (14, cborUint (s.boot.jlost + (ev.length - 256))), (15, cborUint (if s.boot.head.isSome then 1 else 2))]

/-! ## Slots (R384) -/

/-- The committed records of both flashes. -/
def allRecords (b : Boot) : List DayRec := (b.dayA ++ b.dayB).map (·.2)

/-- The head: the record of highest counter among those that verify. -/
def findHead (b : Boot) (bad : List Nat) : Option DayRec :=
  ((allRecords b).filter fun r => !bad.contains r.counter).foldl (fun a r => match a with
    | some x => if x.counter < r.counter then some r else a
    | none => some r) none

/-- Slot of the record with a counter. -/
def slotOf (b : Boot) (c : Nat) : Option Nat := ((b.dayA ++ b.dayB).find? fun e => e.2.counter == c).map (·.1)

/-- The slot after the head's, in ring order. -/
def nextSlot (b : Boot) : Nat :=
  match b.head with
  | some (c, _) => ((slotOf b c).map fun n => (n + 1) % 512).getD 0
  | none => 0

/-- Erase sectors of 1,024 entries once all of one are consumed (R382). -/
def eraseSectors (l : List JEntry) : List JEntry :=
  l.filter fun e =>
    let g := l.filter fun x => x.seq / 1024 == e.seq / 1024
    !(g.length == 1024 && g.all (·.consumed))

/-- Step 7: the record is written to the next slot of each flash that takes it; its events are consumed. -/
def appendRecord (okA okB : Bool) (s : State) : State :=
  let s0 := if s.boot.dirty then event 12 [] { s with boot := { s.boot with dirty := false } } else s
  if okA = false ∧ okB = false then s0
  else
    let b := s0.boot
    let r : DayRec := { counter := (match b.head with | some (c, _) => c + 1 | none => 1),
                        prev := (match b.head with | some (_, d) => d | none => 0), bytes := coseSign s0 (recordPayload s0) }
    let n := nextSlot b
    let j := eraseSectors (b.journal.map fun e => { e with consumed := true })
    let b1 : Boot := { b with
      dayA := if okA then tput b.dayA n r else b.dayA, dayB := if okB then tput b.dayB n r else b.dayB
      onA := okA, onB := okB, head := some (r.counter, Config.sha384 r.bytes), counter := r.counter, journal := j, jlost := 0 }
    let s1 : State := { s0 with boot := b1 }
    if okA ∧ okB then s1 else event 15 [if okA then 0 else 1] s1

/-- Anti-rollback counters reach the highest svn of the components they bound (R379). -/
def commitSvn (s : State) : State :=
  if s.boot.board.svnCommit then
    (List.range 8).foldl (fun a k =>
      let top := ((s.boot.image.comps.filter fun c => c.ctr == k).map (·.svn)).foldl max 0
      if tget 0 a.chip.counters k < top then
        event 11 [k, min 64 top] { a with chip := { a.chip with counters := tset 0 a.chip.counters k (min 64 top) } }
      else a) s
  else s

/-- Head digest. -/
def headDigest (s : State) : Nat := (s.boot.head.map (·.2)).getD 0

/-! ## Attestation (R386) -/

/-- Payload of a report for tenancy t (Table 14.16). -/
def reportPayload (s : State) (t : Nat) (nonce : List Nat) : List Nat :=
  let r := tenantOf s t
  let sealMap := if r.st = .isSealed then
      cborKeys [(1, cborUint r.quota), (2, cborUint r.nSlices), (3, cborUint r.ways), (4, cborUint r.classes),
                (5, cborUint r.entry), (6, cborUint (hartsOf s t).length)]
    else cborKeys []
  cborKeys
    [(1, cborUint 1), (2, cborUint t), (3, cborBytes nonce), (4, cborUint (if t = 0 then 1 else tenCode r.st)),
     (5, cborDigest (if t = 0 then headDigest s else r.meas)), (6, sealMap), (7, cborUint s.boot.counter),
     (8, cborDigest (headDigest s)), (9, cborUint (enablesNow s % 16 + 16 * ((s.assayer.everSet ||| enablesNow s) % 16))),
     (10, cborUint (now s)), (11, cborArr [cborUint s.chip.uid, cborUint (variantCode (vOf s))]), (12, cborUint (avail s).toNat)]

/-- Lines of n bytes from base. -/
def bytesLines (base n : Nat) : List Nat := (List.range ((n + 63) / 64)).map fun k => lineOf (base + 64 * k)

/-- Bytes of a report go to memory under the caller's tag, line by line; the last line keeps what it held (`old`) beyond them. -/
def writeBytes (i t base : Nat) (l : List Nat) (old : Nat) (s : State) : State :=
  (bytesLines base l.length).zipIdx.foldl (fun a (line, k) =>
    let part := (l.drop (64 * k)).take 64
    writeAtHome (.mailbox i) line t (linePut old 0 part.length (ofBytes part)) a) s

/-- The caller of a mailbox: its tenancy. -/
def callerOf (i : Nat) : Nat := if i ≤ 256 then i else 0

/-- The last line of a report of n bytes, as it stands where the report does not fill it. -/
def lastBytes (i t base n : Nat) (s : State) : State × Seen :=
  if n % 64 = 0 then (s, .data 0 false) else currentLine (.mailbox i) (lineOf (base + n)) t s

/-- The report is signed and written; the result follows. A boundary later it is tried again where a line of it is held up (R125) or its
last line, which it fills in part, has not been read yet. -/
def attest (i cl dst : Nat) (nonce : List Nat) (s : State) : State :=
  let t := callerOf i
  let r := coseSign s (reportPayload s t nonce)
  let again := addStep i (beat s + 1) (.attest i cl dst nonce)
  match (bytesLines dst r.length).filter fun l => !ncClear s t l true with
  | [] => match lastBytes i t dst r.length s with
    | (s1, .data old _) => stageDone i cl (mkBytes [(0, 8, dst), (8, 1, nonce.length), (9, 1, 0), (0xC, 4, r.length),
        (0x10, 48, Config.sha384 r), (0x40, 8, beat s)]) (dropReads (.mailbox i) (writeBytes i t dst r old s1))
    | (s1, _) => again s1
  | held => again (held.foldl (fun a l => ncOpen (.mailbox i) t l true a) s)

def daybookAttest (i : Nat) (c : Bytes) (s : State) : State :=
  let n := clampR 16 64 (arg c 0x40 1)
  let dst := roundDown 4096 (arg c 0x48 8)
  let cl := chg (arg c 0x40 1) n + chg (arg c 0x48 8) dst
  if rangeOwned s (callerOf i) dst 0x4000 then
    addStep i (beat s + 1) (.attest i cl dst ((List.range n).map fun j => arg c j 1)) s
  else stageDone i cl (mkBytes [(0, 8, dst), (8, 1, n), (9, 1, 1)]) s

/-! ## daybook.status and daybook.read (R387) -/

def assayerState (s : State) : Nat :=
  if s.assayer.hung then 2 else if s.assayer.taking.isSome then 1 else if s.assayer.tile.isSome then 0 else 3

def daybookStatus (i : Nat) (s : State) : State :=
  let b := s.boot
  let low := (allRecords b).foldl (fun m r => if m = 0 ∨ r.counter < m then r.counter else m) 0
  let fl := b.readA.toNat + 2 * b.readB.toNat + 4 * (b.flash % 2) + 8 * b.onA.toNat + 16 * b.onB.toNat
  stageDone i 0 (mkBytes [(0, 8, statusWord14 b), (8, 8, if 7 < b.step ∨ b.onA ∨ b.onB then b.counter else 0), (0x10, 8, low),
    (0x18, 48, headDigest s), (0x48, 1, assayerState s), (0x49, 1, fl),
    (0x4A, 1, enablesNow s % 16 + 16 * ((s.assayer.everSet ||| enablesNow s) % 16)), (0x4B, 1, s.assayer.holds.length),
    (0x4C, 4, (openEvents s).length), (0x50, 8, (s.assayer.outage.map (·.1)).getD 0)]) s

/-- The held counter nearest to one asked for; 0 asks for the newest. -/
def nearestRecord (b : Boot) (w : Nat) : Option DayRec :=
  let far := fun (r : DayRec) => if r.counter < w then w - r.counter else r.counter - w
  if w = 0 then findHead b []
  else (allRecords b).foldl (fun a r => match a with
    | some x => if far r < far x then some r else a
    | none => some r) none

/-- The flash that serves a record: 0 A, 1 B, 2 neither answered. -/
def servedBy (b : Boot) (r : DayRec) : Nat :=
  if b.readA ∧ b.dayA.any (fun e => e.2.counter == r.counter) then 0
  else if b.readB ∧ b.dayB.any (fun e => e.2.counter == r.counter) then 1 else 2

def daybookRead (i : Nat) (c : Bytes) (s : State) : State :=
  match nearestRecord s.boot (arg c 0 8) with
  | none => stageDone i 0 (mkBytes [(0x12, 1, if s.boot.readA ∨ s.boot.readB then 0 else 2)]) s
  | some r =>
    let w := arg c 0 8
    let off := min (r.bytes.length - 1) (arg c 8 4)
    let n := min (clampR 1 896 (arg c 0xC 2)) (r.bytes.length - off)
    let cl := (if w = 0 then 0 else chg w r.counter) + chg (arg c 8 4) off + chg (arg c 0xC 2) n
    let o := servedBy s.boot r
    let data := if o = 2 then [] else (r.bytes.drop off).take n
    stageDone i cl (mkBytes ([(0, 8, r.counter), (8, 4, off), (0xC, 4, r.bytes.length), (0x10, 2, data.length), (0x12, 1, o)] ++
      (data.zipIdx.map fun (x, j) => (0x20 + j, 1, x)))) s

/-! ## SPDM (R385) -/

def spdmOf (s : State) (k : Nat) : Spdm := tget {} s.assayer.spdm k
def setSpdm (k : Nat) (x : Spdm) (s : State) : State := modAssayer (fun a => { a with spdm := tset {} a.spdm k x }) s

/-- Errors of DSP0274. -/
def errInvalid : Nat := 0x01
def errBusy : Nat := 0x03
def errUnexpected : Nat := 0x04
def errUnsupported : Nat := 0x07

/-- Answer a request on connection k: no responder while the Assayer is hung or not started, Busy while the standby takes
over, an error when the connection is not at the stage the request needs. -/
def spdm (k need : Nat) (f : Spdm → Spdm) (s : State) : State :=
  if 9 ≤ k ∨ (1 ≤ k ∧ groupPresent s (k - 1) = false) then s
  else
    let x := spdmOf s k
    if s.assayer.hung ∨ s.assayer.tile.isNone then setSpdm k { x with answer := none } s
    else if s.assayer.taking.isSome then setSpdm k { x with answer := some (.error errBusy) } s
    else if x.stage < need then setSpdm k { x with answer := some (.error errUnexpected) } s
    else setSpdm k (f x) s

def answer (r : SpdmResp) (x : Spdm) : Spdm := { x with answer := some r }

/-- Value of a measurement index. -/
def measAt (s : State) (i : Nat) : Option Nat :=
  if 1 ≤ i ∧ i ≤ 8 then ((measurements s)[i - 1]?).map (·.digest)
  else if i = 0x10 then some (fuseDigest s)
  else if i = 0x11 then some (configDigest s)
  else if i = 0x12 then some (headDigest s)
  else none

/-- Measurements asked for: one, or all. -/
def measList (s : State) (i : Nat) : List (Nat × Nat) :=
  (if i = 0xFF then [1, 2, 3, 4, 5, 6, 7, 8, 0x10, 0x11, 0x12] else [i]).filterMap fun j => (measAt s j).map fun v => (j, v)

/-- A vendor request returns part of a record as daybook.read does. -/
def vendorPart (s : State) (counter off len : Nat) : SpdmResp :=
  match nearestRecord s.boot counter with
  | some r => if servedBy s.boot r = 2 then .error errInvalid
              else .vendorDefined ((r.bytes.drop (min (r.bytes.length - 1) off)).take (clampR 1 1024 len))
  | none => .error errInvalid

/-! ## Meanings -/

/-- DAYBOOK_STATUS (R387). -/
def execDaybookStatus (mbx : Nat) (s : State) : Host.Outcome State Fault Refusal :=
  .next (onCmd mbx 0x0C01 (fun _ => daybookStatus mbx) s)
/-- DAYBOOK_READ (R387). -/
def execDaybookRead (mbx : Nat) (s : State) : Host.Outcome State Fault Refusal := .next (onCmd mbx 0x0C02 (daybookRead mbx) s)
/-- DAYBOOK_ATTEST (R386). -/
def execDaybookAttest (mbx : Nat) (s : State) : Host.Outcome State Fault Refusal := .next (onCmd mbx 0x0C03 (daybookAttest mbx) s)

/-- GET_VERSION (R385): versions 1.2 and 1.3; the connection starts again. -/
def execGetVersion (conn : Nat) (s : State) : Host.Outcome State Fault Refusal :=
  .next (spdm conn 0 (fun _ => { stage := 1, answer := some (.version [0x12, 0x13]) }) s)
/-- GET_CAPABILITIES (R385). -/
def execGetCapabilities (conn : Nat) (s : State) : Host.Outcome State Fault Refusal :=
  .next (spdm conn 1 (fun x => answer .capabilities { x with stage := max 2 x.stage }) s)
/-- NEGOTIATE_ALGORITHMS (R385): ECDSA P-384 and SHA-384 only. -/
def execNegotiateAlgorithms (conn : Nat) (offered : Bool) (s : State) : Host.Outcome State Fault Refusal :=
  .next (spdm conn 2 (fun x => if offered then answer .algorithms { x with stage := 3 } else answer (.error errInvalid) x) s)
/-- GET_DIGESTS (R385): slot 0. -/
def execGetDigests (conn : Nat) (s : State) : Host.Outcome State Fault Refusal :=
  .next (spdm conn 3 (answer (.digests (Config.sha384 (Config.certChain (cdi1 s))))) s)
/-- GET_CERTIFICATE (R385). -/
def execGetCertificate (conn slot off len : Nat) (s : State) : Host.Outcome State Fault Refusal :=
  .next (spdm conn 3 (answer (if slot = 0 then .certificate (((Config.certChain (cdi1 s)).drop off).take len) else .error errInvalid)) s)
/-- CHALLENGE (R385). -/
def execChallenge (conn slot nonce : Nat) (s : State) : Host.Outcome State Fault Refusal :=
  .next (spdm conn 3 (answer (if slot = 0 then .challengeAuth (Config.sign (aliasKey s 1) (bytesOf 32 nonce)) else .error errInvalid)) s)
/-- GET_MEASUREMENTS (R385): with signature. -/
def execGetMeasurements (conn index nonce : Nat) (s : State) : Host.Outcome State Fault Refusal :=
  .next (spdm conn 3 (answer (if measList s index = [] then .error errInvalid
    else .measurements (measList s index) (Config.sign (aliasKey s 1) (bytesOf 32 nonce ++ [index])))) s)
/-- KEY_EXCHANGE (R385): a session whose number the spec leaves open. -/
def execKeyExchange (conn slot secret : Nat) (s : State) : Host.Outcome State Fault Refusal :=
  .next (spdm conn 3 (fun x =>
    if slot = 0 then answer (.keyExchangeRsp (freeVal (2 ^ 32) s) (Config.sign (aliasKey s 1) (bytesOf 96 secret)))
      { x with session := some (freeVal (2 ^ 32) s), finished := false }
    else answer (.error errInvalid) x) (freeNext s))
/-- FINISH (R385). -/
def execFinish (conn session : Nat) (ok : Bool) (s : State) : Host.Outcome State Fault Refusal :=
  .next (spdm conn 3 (fun x => if x.session = some session ∧ ok then answer .finishRsp { x with finished := true }
    else answer (.error errInvalid) x) s)
/-- END_SESSION (R385). -/
def execEndSession (conn session : Nat) (s : State) : Host.Outcome State Fault Refusal :=
  .next (spdm conn 3 (fun x => if x.session = some session ∧ x.finished then
      answer .endSessionAck { x with session := none, finished := false }
    else answer (.error errUnexpected) x) s)
/-- VENDOR_DEFINED_REQUEST (R385): vendor ID 0x1F9D, part of a record. -/
def execVendorDefinedRequest (conn vendor counter off len : Nat) (s : State) : Host.Outcome State Fault Refusal :=
  .next (spdm conn 3 (answer (if vendor = 0x1F9D then vendorPart s counter off len else .error errUnsupported)) s)

end Sys2Proof.Machine
end

