-- ==== Sys2Proof/Machine/Startup.lean ====
section
/-! DEFINITION. Machine/Startup.lean: the start-up steps, image selection, the board configuration and the handoff to the
first-stage firmware (R81 to R83, R116, R238, R373 to R379). -/
namespace Sys2Proof.Machine

def modBoot (f : Boot → Boot) (s : State) : State := { s with boot := f s.boot }

/-! ## The status word (Table 14.8) -/

/-- A failure is recorded with its code. -/
def bootFail (code : Nat) (s : State) : State :=
  modBoot (fun b => { b with code := code, first := if b.first = 0 then code else b.first, failures := min 255 (b.failures + 1) }) s

/-- A failure that ends start-up: the device waits for a reset. -/
def bootStop (code : Nat) (s : State) : State := modBoot (fun b => { b with stopped := true }) (bootFail code s)

/-- The next step begins. -/
def setStep (n ms : Nat) (s : State) : State :=
  modBoot (fun b => { b with step := n, elapsed := min (2 ^ 32 - 1) ms }) s

/-! ## The board configuration (R379, Table 14.12) -/

/-- Range of a value of key 12. -/
def powerRange : Nat → Nat × Nat
  | 1 => (320, 640)
  | 2 => (0, 1)
  | 3 => (10, 10000)
  | 4 => (70, 105)
  | 5 => (1000, 4000000000)
  | 6 => (8, 0x77)
  | _ => (0, 1)

/-- A value of key 12 in its range; idle_beats may also be 0. -/
def powerValueOk (e : Nat × Nat) : Bool :=
  (decide ((powerRange e.1).1 ≤ e.2) && decide (e.2 ≤ (powerRange e.1).2)) || (e.1 == 5 && e.2 == 0)

def powerKeyKnown (e : Nat × Nat) : Bool := decide (1 ≤ e.1) && decide (e.1 ≤ 7)

/-- A local DRAM offset. -/
def dramOffOk (v : Nat) : Bool := decide (v < 0x040000000000)
/-- An entry of key 8 that the variant can take: a present group that may hold the memory-device role, and a tenant (R2, R283). -/
def lendOk (s : State) (x : Nat × Nat × Nat) : Bool :=
  memRole s && groupPresent s x.1 && decide (1 ≤ x.2.2) && decide (x.2.2 ≤ 256)

/-- The configuration with every value out of its range replaced by the default, and the keys replaced; key 2 is
judged where the map is built (R460). -/
def boardIn (s : State) (b : Board) : Board × List Nat :=
  let speed := decide (4800 ≤ b.speedMax) && decide (b.speedMax ≤ 8000)
  let policy := decide (b.policy ≤ 1)
  let fixed := optOk (fun v => decide (v < 64)) b.fixedId
  let wait := decide (b.linkWait ≤ 255)
  let load := dramOffOk b.fsfLoad
  let entry := optOk dramOffOk b.fsfEntry
  let hand := optOk dramOffOk b.fsfHand
  let power := (b.power.filter powerKeyKnown).all powerValueOk
  ({ b with speedMax := if speed then b.speedMax else 8000, policy := if policy then b.policy else 0
            fixedId := if fixed then b.fixedId else none, linkWait := if wait then b.linkWait else 100
            fsfLoad := if load then b.fsfLoad else 0, fsfEntry := if entry then b.fsfEntry else none
            fsfHand := if hand then b.fsfHand else none
            lend := b.lend.filter (lendOk s)
            power := (b.power.filter powerKeyKnown).filter powerValueOk },
   ([(4, speed), (6, policy), (7, fixed && wait), (8, b.lend.all (lendOk s)), (9, load && entry && hand), (12, power)].filter fun e => !e.2).map (·.1))

/-- The Clerk loads one register field of key 12. -/
def loadPower (s : State) (e : Nat × Nat) : State :=
  match e.1 with
  | 1 => wr pwrCtrlTdpW e.2 s
  | 2 => wr pwrCtrlDrowse e.2 s
  | 3 => wr pwrCtrlDrowseBeats e.2 s
  | 4 => wr pwrCtrlTThrottle e.2 s
  | 5 => wr pwrIdleIdleBeats e.2 s
  | 6 => wr pwrWakeAddr e.2 s
  | 7 => wr pwrWakeEnable e.2 s
  | _ => s

/-- The registers and settings that the board configuration gives: FAB_CTRL, PWR_CTRL, PWR_IDLE, PWR_WAKE, core policy. A
D9-128E takes no fixed ID: it is always device 0 (R4). -/
def applyBoard (b : Board) (s : State) : State :=
  let s1 : State := { b.power.foldl loadPower s with policy := b.policy }
  let fixed := if vOf s = .d9_128e then none else b.fixedId
  wrB fabCtrlCaptainEligible b.eligible (wrB fabCtrlFixedValid fixed.isSome (wr fabCtrlFixedId (fixed.getD 0)
    (wr fabCtrlLinkWaitMs b.linkWait s1)))

/-! ## Image selection (R374, R378) -/

/-- Components 0x01 to 0x06 each appear exactly once. -/
def compsOnce (i : Image) : Bool :=
  [1, 2, 3, 4, 5, 6].all fun n => (i.comps.filter fun c => c.id == n).length == 1

/-- The first check that fails, 0 when all pass. -/
def imageCheck (s : State) (r : FlashRep) : Nat :=
  if r.fails = 1 then 1
  else if r.fails = 2 ∨ compsOnce r.image = false then 2
  else if r.fails = 3 ∨ r.fails = 4 ∨ r.fails = 5 then r.fails
  else if r.image.comps.any fun c => decide (c.svn < tget 0 s.chip.counters c.ctr) then 6
  else if r.fails = 7 then 7
  else 0

/-- Firmware bytes in an SRAM. -/
def sramOf (l : List Nat) : Table Nat :=
  (l.zipIdx.filter fun (e : Nat × Nat) => e.1 % 256 != 0).map fun (e : Nat × Nat) => (e.2, e.1 % 256)

/-- The running Assayer starts on the token tile with the head handed over; both Assayers' and every Clerk core's SRAM are
loaded (R360, R374, R375). -/
def loadImage (f : Nat) (img : Image) (bad : List Nat) (s : State) : State :=
  let t := s.toss.holder.getD 0
  let (brd, keys) := boardIn s img.board
  let h := findHead s.boot bad
  let s1 := modBoot (fun b => { b with flash := f, image := img, board := brd, headOk := true
                                       head := h.map fun r => (r.counter, Config.sha384 r.bytes)
                                       counter := (h.map fun r => r.counter + 1).getD 1 }) s
  let s2 := [8, 9].foldl (fun a c => modClk c (fun r => { r with sram := sramOf img.asFw }) a) s1
  let s3 := clerkCores.foldl (fun a c => modClk c (fun r => { r with sram := sramOf img.clerkFw }) a) s2
  let s4 := modAssayer (fun a => { a with tile := some t, aliasUp := true }) (releaseCore (8 + t) s3)
  let s5 := keys.foldl (fun a k => event 13 [k] a) s4
  match img.token with
  | some k => acceptToken k s5
  | none => s5

/-! ## Step 4: the units -/

/-- Slot n is bound to its pair in the mode of the board configuration (R81, R83). -/
def bindAtReset (s : State) (n : Nat) : State :=
  let p := n / 16 * 17 + n % 16
  wr (pairCtrlMode p) (if s.boot.board.split.contains n then 0 else 1) (bindSlot n p s)

/-- Pairs, slices, ports and DMA channels after reset (R81, R82, R116, R294, R391). -/
def initUnits (s : State) : State :=
  let s1 := (List.range (slotCount s)).foldl bindAtReset s
  let spares := if vOf s = .d9_128e then [] else (List.range (tiles (vOf s))).map fun t => 17 * t + 16
  let s2 := spares.foldl (fun a p => makeSpare p a) s1
  let s3 := (presentSlices s).foldl (fun a n => wr (llcStatusState n) 1 a) s2
  let s4 := countBuckets { s3 with mesh := { s3.mesh with base := presentSlices s } }
  let s5 := dmaReset ((presentGroups s).foldl (fun a g => portsReset g a) s4)
  let on := (List.range (tiles (vOf s))).map (136 + ·) ++ presentPairs s ++ (presentChans s).map (144 + ·) ++ [174, 175]
  on.foldl (fun a d => addDue (beat s + 1) 4 (.switch d true) a) s5

/-- Step 4 begins: Clerk firmware starts in both complexes, and every present channel trains. -/
def beginTraining (ms : Nat) (s : State) : State :=
  let s1 := initUnits (applyBoard s.boot.board (setStep 4 ms s))
  let live := clerkCores.filter fun c => !(cplxOf s (c / 4)).fenced
  let s2 := live.foldl (fun a c => releaseCore c a) s1
  (presentChans s).foldl (fun a c => startTraining c 1 a) (setMem { s2.mem with speed := 0 } s2)

/-- Step 3 ends (R374, R375): the image of the first flash that passes, or a stop. -/
def imageStep (ms : Nat) (a b : FlashRep) (bad : List Nat) (loaded : Bool) (s : State) : State :=
  if s.boot.headOk then s
  else
    let ra := imageCheck s a
    let rb := imageCheck s b
    let s1 := modBoot (fun x => { x with readA := ra != 1, readB := if ra = 0 then x.readB else rb != 1 }) s
    let s2 := if ra = 0 then loadImage 0 a.image bad s1
      else if rb = 0 then
        let y := loadImage 1 b.image bad (bootFail (0x30 + ra) s1)
        event 10 [0x30 + ra] y
      else bootStop (0x38 + rb) (bootFail (0x30 + ra) s1)
    if s2.boot.stopped then s2
    else if loaded = false then bootStop 0x30 s2
    else if s2.boot.hold then s2
    else beginTraining ms s2

/-! ## Steps 1 and 2 -/

/-- The always-on domains are up; a low RESET_N holds the start at the end of step 1 (R448). Every other present domain is
off. -/
def upStep (ms : Nat) (s : State) : State :=
  let s1 := ((List.range 182).filter (domainPresent s)).foldl (fun a d => wr (pwrDomainState d) 1 a) s
  let s2 := [182, 183].foldl (fun a d => setDomain d true a) s1
  if s.chip.resetN then setStep 2 ms s2 else modBoot (fun b => { b with upDone := true }) s2

/-- Step 2 ends: fuses sensed, and the token goes to a complex that passes its self-check (Table 12.11). -/
def fuseStep (ms code : Nat) (passN passS : Bool) (s : State) : State :=
  if code = 1 then bootStop 0x21 s
  else if code ≠ 0 then bootStop 0x22 s
  else
    let pass := fun (t : Nat) => if t = 0 then passN else passS
    let pref := s.chip.tossPref % 2
    let s1 := clerkCores.foldl (fun a c => wr (clerkTossPref c) pref a) s
    let s2 := ([0, 1].filter fun x => !pass x).foldl (fun a x => fenceComplex x a) s1
    let t := if pass pref then pref else 1 - pref
    if pass t = false then bootStop 0x23 s2
    else
      let s3 := giveToken t (tossEvent 1 s2)
      let s4 := if t = pref then s3 else event 6 [pref] s3
      let s5 := [180, 181, 176, 177, 178, 179].foldl (fun a d => addDue (beat s + 1) 4 (.switch d true) a) s4
      setStep 3 ms s5

/-! ## Steps 4 to 7 -/

/-- Every channel still in training has passed its last step. -/
def trainingDone (s : State) : Bool := (trainingChans s).all fun c => (chanOf s c).trained

def trainedStep (ms : Nat) (s : State) : State :=
  if trainingDone s = false then s
  else if mapChans s = [] then bootStop 0x40 s
  else setStep 5 ms (buildMap s)

/-- Channels still filling. -/
def fillingChans (s : State) : List Nat := (presentChans s).filter fun c => rd s (mcStatusState c) == 2

/-- Step 6 begins: the fabric ports are powered and start bring-up (R238). -/
def beginFabric (ms : Nat) (s : State) : State :=
  let s1 := (presentFabPorts s).foldl (fun a k => addDue (beat s + 1) 4 (.switch (168 + k) true) (bringUp k (wr (fabPortCtrlEnable k) 1 a))) s
  setStep 6 ms (wr fabStateState 2 (modFab (fun f => { f with began := beat s }) s1))

def filledStep (ms : Nat) (s : State) : State :=
  if fillingChans s ≠ [] then s
  else if (mapChans s).all fun c => rd s (mcStatusState c) != 3 then bootStop 0x50 s
  else beginFabric ms s

def fabricStep (ms : Nat) (s : State) : State := if settled s then setStep 7 ms s else s

/-- Step 7 ends: the record is appended, counters are advanced (R379, R384). -/
def recordStep (ms : Nat) (okA okB : Bool) (s : State) : State :=
  let s1 := appendRecord okA okB s
  if okA ∨ okB then setStep 8 ms (commitSvn s1)
  else if s.boot.board.recordReq then bootStop 0x70 s1
  else setStep 8 ms (commitSvn (bootFail 0x70 s1))

/-! ## Step 8 (R376) -/

/-- Bytes of the handoff block (Table 14.7). -/
def handoffBytes (s : State) : List Nat :=
  bytesOf 4 0x42485A44 ++ bytesOf 4 1 ++ bytesOf 8 s.boot.counter ++ bytesOf 48 (headDigest s) ++
    bytesOf 8 (statusWord14 s.boot) ++ [myId s % 256, s.mem.map.length % 256] ++ bytesOf 2 (hartCount s) ++ bytesOf 4 0 ++
    (s.mem.map.flatMap fun q => bytesOf 8 q.base ++ bytesOf 8 q.size ++ bytesOf 8 (maskOf q.members))

/-- A line of the platform's lock stands in a reserved way with the bytes of it that have just been written. -/
def lockFresh (k : CLock) (bytes : List Nat) (a : State × List Nat) (x : Nat × Nat) : State × List Nat :=
  let n := homeSlice a.1 k.owner x.1
  match preloadWay a.1 k x.1 with
  | some w =>
    let l : SLine := { tag := k.owner, way := w, dirty := false, locked := true, poison := false, data := ofBytes ((bytes.drop (64 * x.2)).take 64) }
    (intoWay n x.1 w l (dropArr n x.1 a.1), x.1 :: a.2)
  | none => a

/-- The platform's lock 0 holds a range, just written with these bytes and zeros behind them, with 2 ways per slice. -/
def platformLock (base size : Nat) (bytes : List Nat) (s : State) : State :=
  let ns := ((rangeLines base size).map (homeSlice s 0)).eraseDups
  let (s1, held) := ns.foldl (reserveWays 0 2) (s, [])
  let k : CLock := { owner := 0, id := 0, base, size, ways := 2, lines := [], slices := ns, held }
  let (s2, placed) := (rangeLines base size).zipIdx.foldl (lockFresh k bytes) (s1, [])
  { s2 with mesh := { s2.mesh with locks := s2.mesh.locks ++ [{ k with lines := placed }] } }

/-- A pair that rejects the core patch is retired. -/
def rejectPair (s : State) (p : Nat) : State :=
  if pairPresent s p = false then s
  else
    let s1 := recContained (nextSlice s) 1 p 0x0107 0 [] (wr (pairStatusState p) 0xB (bootFail 0x81 s))
    if rdB s (pairStatusSlotValid p) then unbindSlot p s1 else s1

/-- Offsets of the board's fsf key with their defaults. -/
def fsfEntryOff (b : Board) : Nat := b.fsfEntry.getD b.fsfLoad
def fsfHandOff (b : Board) : Nat := b.fsfHand.getD (b.fsfLoad + 0x800000)

/-- Step 8 ends: the start-up patrols stop (R198), the patch is applied, the first-stage firmware and the handoff block are placed in memory that step 5 has filled with zeros, and hart 0 starts at the
next boundary. -/
def releaseStep (ms : Nat) (digestOk : Bool) (rejected : List Nat) (s : State) : State :=
  if digestOk = false then bootStop 0x80 s
  else
    let b := s.boot.board
    let s1 := rejected.foldl rejectPair s
    let fw := s.boot.image.fsf
    let s2 := platformLock (paOf s b.fsfLoad) (roundUp 4096 fw.length) fw (writeBytes 0 0 (paOf s b.fsfLoad) fw 0 s1)
    let s3 := setStep 9 ms ((presentChans s2).foldl (fun a c =>
      if rd a (mcPatrolReason c) = 1 then wr (mcPatrolRunning c) 0 (wr (mcPatrolReason c) 0 a) else a) s2)
    let s4 := writeBytes 0 0 (paOf s (fsfHandOff b)) (handoffBytes s3) 0 s3
    addDue (beat s + 1) 5 (.startHart 0 (paOf s (fsfEntryOff b)) (paOf s (fsfHandOff b))) s4

/-! ## The steps' ends and timeouts (R373) -/

/-- Start-up is under way. -/
def starting (s : State) : Bool := s.chip.vinGood && !s.chip.off && !s.chip.fatal && !s.boot.stopped && decide (s.boot.step ≤ 8)

/-- A step ends as reported; a report that is not of the step in progress changes nothing (log entry 13). -/
def stepComplete (ms : Nat) (r : StartRep) (s : State) : State :=
  if starting s = false then s
  else match s.boot.step, r with
    | 1, .up => if s.boot.upDone then s else upStep ms s
    | 2, .fuses code passN passS => fuseStep ms code passN passS s
    | 3, .image a b bad loaded => imageStep ms a b bad loaded s
    | 4, .trained => trainedStep ms s
    | 5, .filled => filledStep ms s
    | 6, .fabric => fabricStep ms s
    | 7, .record okA okB => recordStep ms okA okB s
    | 8, .released digestOk rejected => releaseStep ms digestOk rejected s
    | _, _ => s

/-- Time of the fill of a channel in ms, as Table 7.4 gives it: its capacity at the peak rate. -/
def fillMs (s : State) (c : Nat) : Nat := rd s (mcDimmCapacityGb c) * 2 ^ 30 / (rd s (mcDimmSpeed c) * 8000)

/-- Timeout of a step in ms (Table 14.6). -/
def stepLimitMs (s : State) : Nat :=
  match s.boot.step with
  | 1 => 20
  | 2 => 15
  | 3 => 500
  | 4 => 1500
  | 5 => ((mapChans s).map (fillMs s)).foldl max 0 * 11 / 10
  | 6 => rd s fabCtrlLinkWaitMs + 5
  | _ => 100

/-- Channels that have not ended their training are left out; with none trained start-up stops. -/
def trainTimeout (ms : Nat) (s : State) : State :=
  trainedStep ms (((trainingChans s).filter fun c => !(chanOf s c).trained).foldl
    (fun a c => leaveOut c (trainCode (rd a (mcStatusStep c))) a) s)

/-- Channels that have not ended their fill are left out; the others fill again under a new map (R195). -/
def fillTimeout (ms : Nat) (s : State) : State :=
  let s1 := (fillingChans s).foldl (fun a c => wr (mcStatusState c) 6 a) s
  if fillingChans s = [] then s
  else if mapChans s1 = [] then bootStop 0x50 s1
  else setStep 5 ms (buildMap s1)

/-- A step reaches its timeout. -/
def stepTimeout (ms : Nat) (s : State) : State :=
  if starting s = false ∨ ms < s.boot.elapsed + stepLimitMs s then s
  else match s.boot.step with
    | 2 => bootStop 0x21 s
    | 3 => if s.boot.hold then s else bootStop 0x30 s
    | 4 => trainTimeout ms s
    | 5 => fillTimeout ms s
    | 6 => if settled s then s else setStep 7 ms (bootFail 0x60 (runAlone s))
    | 7 => recordStep ms false false s
    | 8 => bootStop 0x80 s
    | _ => s

/-- link_wait_ms ends with no link up: the device runs alone (R238). -/
def linkWaitExpiry (s : State) : State :=
  if s.boot.step = 6 ∧ rd s fabStateState = 2 ∧ upPorts s = [] ∧ rd s fabCtrlLinkWaitMs * 1000 ≤ beat s - s.fabric.began then
    bootFail 0x60 (runAlone s)
  else s

/-! ## Meanings -/

/-- STARTUP_STEP_COMPLETE (R373 to R379). -/
def execStartupStepComplete (ms : Nat) (r : StartRep) (s : State) : Host.Outcome State Fault Refusal := .next (stepComplete ms r s)
/-- STARTUP_STEP_TIMEOUT (R373). -/
def execStartupStepTimeout (ms : Nat) (s : State) : Host.Outcome State Fault Refusal := .next (stepTimeout ms s)
/-- LINK_WAIT_EXPIRY (R238, R239). -/
def execLinkWaitExpiry (s : State) : Host.Outcome State Fault Refusal := .next (linkWaitExpiry s)
/-- FLASH_READ_TIMEOUT (R374, R426): the flash counts as unreadable for that read. -/
def execFlashReadTimeout (flash ms : Nat) (s : State) : Host.Outcome State Fault Refusal :=
  .next (if 10 ≤ ms ∧ flash < 2 then modBoot (fun b => if flash = 0 then { b with readA := false } else { b with readB := false }) s
    else s)

end Sys2Proof.Machine
end

