-- ==== Sys2Proof/Machine/Package.lean ====
section
/-! DEFINITION. Machine/Package.lean: what the pins of the package do: VIN, straps, RESET_N, the thermal trip, power-off, and
the I3C target (R14, R352, R377, R388, R412, R415, R447, R448). -/
namespace Sys2Proof.Machine

/-! ## Resets (R14) -/

/-- What a channel keeps over a reset: its repair list, which stands in flash (R193). -/
def keepRepair (l : Table Chan) : Table Chan :=
  l.foldl (fun t e => tset {} t e.1 { repair := e.2.repair }) []

/-- What a slice keeps over a warm reset: its count of locks released since cold reset (Table 5.13). -/
def keepReleased (l : Table Slice) : Table Slice :=
  l.foldl (fun t e => tset {} t e.1 { released := e.2.released }) []

/-- A start has happened before, and its last journal entry is no close marker (R382). -/
def uncleanEnd (b : Boot) : Bool :=
  match b.journal.getLast? with
  | some e => !e.close
  | none => !(allRecords b).isEmpty

/-- What flash holds over every reset. -/
def keepFlash (b : Boot) : Boot :=
  { dayA := b.dayA, dayB := b.dayB, journal := b.journal, jseq := b.jseq, jlost := b.jlost }

/-- The device as the application of VIN finds it: fuses, pins of the board and flash as they are, everything else at
reset. -/
def coldState (s : State) : State :=
  let c := s.chip
  { State.reset with
    chip := { variant := c.variant, uid := c.uid, tossPref := c.tossPref, ownerKeyHash := c.ownerKeyHash, serial := c.serial
              uds := c.uds, stepping := c.stepping, variantMask := c.variantMask, debugState := c.debugState
              counters := c.counters, perstLow := c.perstLow, xtalFitted := c.xtalFitted, resetN := c.resetN }
    boot := keepFlash s.boot, mem := { chans := keepRepair s.mem.chans }, freeCtr := s.freeCtr, pending := s.pending }

/-- VIN rises to 1.7 V: a cold reset, and step 1 begins (R388). -/
def vinGood (resetLow : Bool) (s : State) : State :=
  let s1 := coldState s
  { s1 with chip := { s1.chip with resetN := !resetLow }, boot := { s1.boot with dirty := uncleanEnd s.boot } }

/-- VIN is lost: device-fatal; everything but fuses and flash is gone (R388, R417). -/
def vinLost (s : State) : State :=
  let s1 := coldState s
  { s1 with chip := { s1.chip with vinGood := false, fatal := true } }

/-- TAP instructions that act without a debug enable, or pass when every enable is set. -/
def tapAfter (c : Chip) : Nat :=
  if c.debugState = .development ∨ c.tapIr = 0x01 ∨ c.tapIr = 0x02 ∨ c.tapIr = 0x10 then c.tapIr else 0xFF

/-- A warm reset (R14, R373, Table 0.6): RWS registers, the CLK_ block, the RAS logs, the ledger, the fuses and flash stay;
start-up begins again at step 2. -/
def warmReset (s : State) : State :=
  let s1 := (mbxIds s).foldl abandonMbx s
  let a := s.assayer
  let ir := tapAfter s.chip
  let unclean := s.boot.stopped && s.boot.code == 0xF0
  let s2 : State := { State.reset with
    regs := s1.regs.filter fun e => stickyKey e.1
    chip := { s.chip with fatal := false, resetN := true, entropyDead := [], i3cAns := none, tapIr := ir }
    time := { s.time with setNext := none, lengthen := 0, noMarker := 0, capKnown := false }
    ras := s.ras, mbx := s1.mbx, mem := { chans := keepRepair s.mem.chans }, nextXid := s.nextXid, slices := keepReleased s.slices
    assayer := { holds := a.holds, outage := a.outage, everSet := a.everSet, token := a.token }
    boot := { keepFlash s.boot with step := 2, warm := true, upDone := true, dirty := s.boot.dirty || unclean
                                    hold := ir == 3 || ir == 4 || ir == 5 }
    freeCtr := s.freeCtr, pending := s.pending }
  let s3 := ((List.range 182).filter (domainPresent s2)).foldl (fun y d => wr (pwrDomainState d) 1 y) s2
  let s4 := [182, 183].foldl (fun y d => setDomain d true y) s3
  (a.holds.map (·.1)).foldl (fun y d => if d < 184 then wr (pwrDomainHeld d) 1 y else y) s4

/-- RESET_N acts on its rising edge, after the filter of Table 16.4; between 500 ns and 2 µs the spec leaves open whether a
pulse acts (R448). -/
def resetRise (lowNs : Nat) (s : State) : State :=
  let act := fun (y : State) =>
    if y.boot.step = 1 then
      let y1 : State := { y with chip := { y.chip with resetN := true } }
      if y.boot.upDone then setStep 2 y.boot.elapsed y1 else y1
    else warmReset y
  if s.chip.vinGood = false ∨ s.chip.off ∨ lowNs < 500 then s
  else if 2000 ≤ lowNs then act s
  else if freeVal 2 s = 1 then act (freeNext s)
  else freeNext s

/-! ## Straps (R447, Table 16.4) -/

/-- Level of the I3C sideband that a strap value selects, in mV; STRAP_IOV in bits 1 and 0, STRAP_RSVD0 and 1 above. -/
def strapMv : Nat → Option Nat
  | 0 => some 1800
  | 1 => some 1200
  | _ => none

/-- Sixteen samples that agree on a used value set the level; else the default and a contained record, whose kind and cause
the spec does not give. -/
def straps (l : List Nat) (s : State) : State :=
  if s.chip.vinGood = false ∨ s.chip.off ∨ s.chip.strapsDone ∨ l.length ≠ 16 then s
  else
    let v := (l.head?).getD 0
    let done := fun (mv : Nat) (y : State) => { y with chip := { y.chip with i3cMv := mv, strapsDone := true } }
    match if l.all (· == v) then strapMv v else none with
    | some mv => done mv s
    | none =>
      let kind := freeVal 256 s
      let s1 := freeNext s
      recContained (nextSlice s) kind 0 (freeVal (2 ^ 16) s1) 0 [] (done 1800 (freeNext s1))

/-! ## Thermal trip and power-off (R412, R415) -/

/-- Every key store, and the SRAM of both Assayers, is cleared. -/
def clearSecrets (s : State) : State :=
  let s1 := (presentFabPorts s).foldl (fun a k => modPort k (fun p => { p with keyTx := none, keyRx := none, proved := [] }) a) s
  holdCore 8 false (holdCore 9 false (setMem { s1.mem with keys := [] } s1))

/-- A sensor reads 125 °C or more. -/
def thermalTrip (n : Nat) (v : Int) (s : State) : State :=
  if 125 ≤ v ∧ readingOk (sensorOf s n) v ∧ s.chip.vinGood ∧ s.chip.off = false then
    let s1 := clearSecrets s
    let s2 := (List.range 182).foldl (fun a d => setDomain d false a) s1
    { s2 with chip := { s2.chip with thermTrip := true, fatal := true, off := true } }
  else s

/-- At p + 100 every domain switches off, and the device stays off until VIN is applied again. -/
def powerOff (s : State) : State :=
  match s.power.offBeat with
  | some p =>
    if p ≤ beat s then
      let s1 := coldState s
      { s1 with chip := { s1.chip with off := true } }
    else s
  | none => s

/-! ## The I3C target (R352, R377) -/

/-- The senior Clerk serves mailbox 257. -/
def clerkServes (s : State) : Bool :=
  match s.toss.holder with
  | some x => decide (4 ≤ s.boot.step) && !s.chip.fatal && (clkOf s (4 * x)).st != .inReset
  | none => false

/-- The target answers: straps sampled, always-on domains up, and no sleep request stands (R406). -/
def targetUp (s : State) : Bool :=
  s.chip.vinGood && !s.chip.off && s.chip.strapsDone && (decide (2 ≤ s.boot.step) || s.boot.upDone) &&
    (s.power.sleep == .none || s.power.sleep == .asked)

def setI3c (a : Nat × Nat × Bytes) (s : State) : State := { s with chip := { s.chip with i3cAns := some a } }

/-- A request of the BMC: answered at once before the Clerk serves or while another waits; else it enters page 257. -/
def mctpRequest (code : Nat) (args : List Nat) (s : State) : State :=
  if targetUp s = false then s
  else if clerkServes s = false then
    setI3c (5, 0, mkBytes [(0x800, 1, 5), (0x804, 4, code), (0x840, 8, statusWord14 s.boot)]) s
  else
    let m := mbxOf s 257
    if m.i3cBusy then
      setI3c (1, rd s (mbxSeqSeq 257), mkBytes [(0x800, 1, 1), (0x804, 4, argCode m.copy), (0x808, 8, rd s (mbxSeqSeq 257))]) s
    else
      let area := (args.take 0x3F0).zipIdx.foldl (fun (b : Bytes) (e : Nat × Nat) => tset 0 b (0x10 + e.2) (e.1 % 256))
        (putLE m.cmd 0 4 code)
      doorbell 257 (setMbx 257 { m with cmd := area, i3cBusy := true } { s with chip := { s.chip with i3cAns := none } })

/-- Publication of page 257: the target returns the result and writes the ack. -/
def i3cReturn (s : State) : State :=
  let m := mbxOf s 257
  if m.i3cBusy ∧ rd s (mbxStatState 257) = 3 then
    ackResult 257 8 m.res.seq (setMbx 257 { m with i3cBusy := false } (setI3c (m.res.st, m.res.seq, resultBytes s 257) s))
  else s

/-- A transfer that times out is discarded, and there is no response (Table 16.4). -/
def i3cTimeout (sclLowMs packetMs : Nat) (complete : Bool) (s : State) : State :=
  if 25 < sclLowMs ∨ (100 < packetMs ∧ complete = false) then { s with chip := { s.chip with i3cAns := none } } else s

/-! ## Meanings -/

/-- VIN_GOOD (R14, R388, R448). -/
def execVinGood (mv : Nat) (resetLow : Bool) (s : State) : Host.Outcome State Fault Refusal :=
  .next (if 1700 ≤ mv ∧ s.chip.vinGood = false then vinGood resetLow s else s)
/-- VIN_LOST (R388, R417). -/
def execVinLost (mv ns : Nat) (s : State) : Host.Outcome State Fault Refusal :=
  .next (if mv < 1600 ∧ 10000 ≤ ns ∧ s.chip.vinGood then vinLost s else s)
/-- STRAPS_SAMPLED (R447). -/
def execStrapsSampled (samples : List Nat) (s : State) : Host.Outcome State Fault Refusal := .next (straps samples s)
/-- RESET_N_RISE (R14, R448). -/
def execResetNRise (lowNs : Nat) (s : State) : Host.Outcome State Fault Refusal := .next (resetRise lowNs s)
/-- THERMAL_TRIP (R412). -/
def execThermalTrip (sensor : Nat) (degC : Int) (s : State) : Host.Outcome State Fault Refusal := .next (thermalTrip sensor degC s)
/-- POWER_OFF (R415). -/
def execPowerOff (s : State) : Host.Outcome State Fault Refusal := .next (powerOff s)
/-- MCTP_REQUEST (R352, R377). -/
def execMctpRequest (code : Nat) (args : List Nat) (s : State) : Host.Outcome State Fault Refusal := .next (mctpRequest code args s)
/-- I3C_TRANSFER_TIMEOUT (R426, Table 16.4). -/
def execI3cTransferTimeout (sclLowMs packetMs : Nat) (complete : Bool) (s : State) : Host.Outcome State Fault Refusal :=
  .next (i3cTimeout sclLowMs packetMs complete s)

end Sys2Proof.Machine
end

