-- ==== Sys2Proof/Machine/Settle.lean ====
section
/-! DEFINITION. Machine/Settle.lean: taking a latched command and settling it: which mailboxes may issue it, which units it
names, which services it needs (R339, R342 to R344, R353, R354, R359). -/
namespace Sys2Proof.Machine

/-! ## Who may issue a command (Table 13.12) -/

/-- Code, then whether mailbox 0, mailboxes 1 to 256 and mailbox 257 may issue it. -/
def commandIndex : List (Nat × Bool × Bool × Bool) :=
  [(0x0101, true, true, true), (0x0201, true, false, true), (0x0202, true, false, false), (0x0203, true, false, false),
   (0x0204, true, false, false), (0x0205, true, false, false), (0x0206, true, false, false), (0x0207, true, false, false),
   (0x0301, true, false, false), (0x0302, true, false, false), (0x0303, true, false, false), (0x0304, true, false, false),
   (0x0305, true, false, false), (0x0306, false, true, false), (0x0307, true, true, false), (0x0308, false, true, false),
   (0x0309, true, true, false), (0x030A, true, true, true), (0x0401, true, false, false), (0x0402, true, false, false),
   (0x0403, true, false, false), (0x0404, true, false, true), (0x0405, true, false, false), (0x0406, true, false, false)] ++
  [(0x0501, true, false, true), (0x0502, true, false, false), (0x0503, true, true, false), (0x0504, true, false, false),
   (0x0505, true, false, false), (0x0506, true, false, false), (0x0601, true, true, false), (0x0602, true, true, false),
   (0x0603, true, false, false), (0x0604, true, false, true), (0x0701, true, false, true), (0x0702, true, false, true),
   (0x0703, true, false, false), (0x0704, true, false, false), (0x0705, true, false, false), (0x0801, true, false, true),
   (0x0802, true, false, false), (0x0803, true, true, false), (0x0804, true, false, false), (0x0805, true, false, false)] ++
  [(0x0901, true, true, false), (0x0902, true, true, true), (0x0A01, true, true, true), (0x0B01, true, true, true),
   (0x0B02, true, false, false), (0x0C01, true, false, true), (0x0C02, true, false, true), (0x0C03, true, true, false),
   (0x0D01, true, false, false), (0x0D02, true, false, false), (0x0D03, true, false, false), (0x0D04, true, false, true)]

def isTestCode (code : Nat) : Bool := code / 256 == 0x0D

/-- The index permits the code to mailbox i; 259 is judged by the debug enables (R354), 258 issues none (R353). -/
def indexPermits (s : State) (i code : Nat) : Bool :=
  match commandIndex.find? fun e => e.1 == code with
  | none => false
  | some (_, p0, pT, p257) =>
    if i = 0 then p0
    else if i ≤ 256 then pT
    else if i = 257 then p257
    else if i = 259 then (p257 && enabled s 0) || (isTestCode code && enabled s 1)
    else false

/-- Action of port.assign: an undefined code counts as its default, 0. -/
def assignAction (c : Bytes) : Nat := clampEnum 3 0 (arg c 1 1)

/-- The tenancy that a tenant.* or port.assign command names. -/
def namedTenancy (i : Nat) (c : Bytes) : Option Nat :=
  let code := argCode c
  if code = 0x0302 then some (min 256 (arg c 0x10 2))
  else if code = 0x0303 then some (min 256 (arg c 2 2))
  else if code = 0x0304 then some (tenField i (arg c 0x18 2))
  else if code = 0x0307 ∨ code = 0x0309 then some (tenField i (arg c 0 2))
  else if code = 0x0803 then some (if i = 0 then min 256 (arg c 6 2) else i)
  else none

/-- The commands of R286 that name a lending tenancy. -/
def lendingDenied (s : State) (i : Nat) (c : Bytes) : Bool :=
  match namedTenancy i c with
  | some t => isLending s t && (argCode c != 0x0307 || isSealed s t)
  | none => false

/-- A rule of the command's chapter denies it to this mailbox (R342, item 2). -/
def chapterDenies (s : State) (i : Nat) (c : Bytes) : Bool :=
  let code := argCode c
  ((code == 0x0601 || code == 0x0602) && i != 0 && !isSealed s i) ||
    (code == 0x0B02 && rdB s fabIdMember && !rdB s clkStatusCaptain) ||
    (code == 0x0803 && (if i = 0 then assignAction c != 0 else assignAction c == 0)) ||
    lendingDenied s i c

/-! ## Units the variant lacks (R4, R5, R7, R343) -/

/-- A value within the numbering that names an absent unit. -/
def lacks (n : Nat) (present : Nat → Bool) (v : Nat) : Bool := decide (v < n) && !present v

/-- Unit field of a test by its kind. -/
def testUnitAbsent (s : State) (kind u : Nat) : Bool :=
  match kind with
  | 1 => lacks 136 (pairPresent s) u
  | 2 => lacks 128 (slicePresent s) u
  | 3 => lacks 16 (chanPresent s) u
  | 4 => lacks 8 (groupPresent s) u
  | 5 => lacks 6 (fabPortPresent s) u
  | _ => false

/-- Units of test.loopback: SerDes port, fabric port, channel, or the tiles of two mesh stops. -/
def loopUnitAbsent (s : State) (c : Bytes) : Bool :=
  let tg := let v := arg c 0 1; if 1 ≤ v ∧ v ≤ 5 then v else 1
  match tg with
  | 1 => lacks 32 (fun x => groupPresent s (x / 4)) (arg c 1 1)
  | 2 => lacks 6 (fabPortPresent s) (arg c 1 1)
  | 3 => lacks 16 (chanPresent s) (arg c 1 1)
  | 5 => !tilePresent s (arg c 0xC 2 % 8) || !tilePresent s (arg c 0xE 2 % 8)
  | _ => false

/-- port.config asks for the memory-device role on a variant without it (R5). -/
def role4Absent (s : State) (c : Bytes) : Bool :=
  let code := clampEnum 5 (bifOf s (clampGroup s (arg c 0 1))) (arg c 1 1)
  (vOf s == .d9_128c || vOf s == .d9_128e) && (bifPorts code).any fun e => arg c (2 + e.1) 1 == 4

/-- power.pads names the pad group of an absent channel, group or fabric port (Table 15.5, R414). -/
def padAbsent (s : State) (v : Nat) : Bool :=
  (List.range 30).any fun b => v / 2 ^ b % 2 == 1 &&
    !(if b < 16 then chanPresent s b else if b < 24 then groupPresent s (b - 16) else fabPortPresent s (b - 24))

/-- The command names a unit or role that the variant lacks. -/
def namesAbsent (s : State) (c : Bytes) : Bool :=
  let code := argCode c
  if code / 256 = 7 ∧ vOf s = .d9_128e then true
  else if code = 0x0203 then lacks 184 (domainPresent s) (arg c 0 2)
  else if code = 0x0207 then padAbsent s (arg c 0 8)
  else if code = 0x0405 then lacks 136 (pairPresent s) (arg c 0 1)
  else if code = 0x0603 ∨ code = 0x0604 then lacks 128 (slicePresent s) (arg c 0 1)
  else if code = 0x0501 ∨ code = 0x0505 then lacks 16 (chanPresent s) (arg c 0 1)
  else if code = 0x0703 then lacks 6 (fabPortPresent s) (arg c 0 1)
  else if code / 256 = 8 then lacks 8 (groupPresent s) (arg c 0 1) || (code == 0x0802 && role4Absent s c)
  else if code = 0x0D01 then loopUnitAbsent s c
  else if code = 0x0D02 then testUnitAbsent s (let v := arg c 0 1; if 1 ≤ v ∧ v ≤ 6 then v else 1) (arg c 1 1)
  else if code = 0x0D03 then testUnitAbsent s (let v := arg c 0 1; if 1 ≤ v ∧ v ≤ 3 then v else 2) (arg c 1 1)
  else false

/-! ## Services (R344, R361, R363) -/

/-- Commands that mailbox 257 may give before the cores are released. -/
def earlyCode (code : Nat) : Bool := code == 0x0101 || code == 0x0B01 || code == 0x0A01 || code == 0x0C01

/-- A service that the command needs is not available. -/
def serviceMissing (s : State) (i code : Nat) : Bool :=
  (i == 257 && !released s && !earlyCode code) ||
    (match gateOf code with
     | some g => s.assayer.hung || !gateOk s g
     | none => false)

/-- The state with which the command is settled when it is taken; none: it is carried out (R342). -/
def settle (s : State) (i : Nat) (c : Bytes) : Option Nat :=
  if indexPermits s i (argCode c) = false ∨ chapterDenies s i c then some 3
  else if namesAbsent s c then some 4
  else if serviceMissing s i (argCode c) then some 5
  else none

/-! ## Commands that wait (R102, R218, R372, R430) -/

/-- Harts the command names; tenant.seal, tenant.unseal and tenant.close name those of their tenancy. -/
def namedHarts (s : State) (i : Nat) (c : Bytes) : List Nat :=
  let code := argCode c
  if code = 0x0401 then let n := clampHart s (arg c 0 2) / 2; [2 * n, 2 * n + 1]
  else if code = 0x0402 ∨ code = 0x0403 ∨ code = 0x0404 ∨ code = 0x0303 ∨ code = 0x0308 then [clampHart s (arg c 0 2)]
  else if code = 0x0305 ∨ code = 0x0306 ∨ code = 0x0309 then hartsOf s (tenField i (arg c 0 2))
  else []

/-- Pairs the command names. -/
def namedPairs (s : State) (i : Nat) (c : Bytes) : List Nat :=
  let code := argCode c
  (namedHarts s i c).filterMap (pairOfHart s) ++
    (if code = 0x0405 then [clampUnit 136 (pairPresent s) (arg c 0 1)]
     else if code = 0x0203 ∧ arg c 0 2 < 136 then [arg c 0 2]
     else if (code = 0x0D02 ∧ clampEnum 7 1 (arg c 0 1) ≤ 1) ∨ (code = 0x0D03 ∧ arg c 0 1 = 1) then [clampUnit 136 (pairPresent s) (arg c 1 1)]
     else [])

/-- Units the command names, as the tests number them. -/
def namedUnits (s : State) (i : Nat) (c : Bytes) : List (Nat × Nat) :=
  let code := argCode c
  let serdes : Nat → List (Nat × Nat) := fun g => (List.range 4).map fun n => (4, g * 4 + n)
  let pairs : List (Nat × Nat) := (namedPairs s i c).map fun p => (1, p)
  let units : List (Nat × Nat) :=
    if code = 0x0203 then
       let d := min 183 (arg c 0 2)
       if 144 ≤ d ∧ d < 160 then [(3, d - 144)]
       else if 160 ≤ d ∧ d < 168 then serdes (d - 160)
       else if 168 ≤ d ∧ d < 174 then [(5, d - 168)]
       else if 174 ≤ d ∧ d < 176 then [(6, d - 174)]
       else []
     else if code = 0x0603 ∨ code = 0x0604 then [(2, clampUnit 128 (slicePresent s) (arg c 0 1))]
     else if code = 0x0501 ∨ code = 0x0505 then [(3, clampUnit 16 (chanPresent s) (arg c 0 1))]
     else if code = 0x0703 then [(5, clampUnit 6 (fabPortPresent s) (arg c 0 1))]
     else if code / 256 = 8 then serdes (clampGroup s (arg c 0 1))
     else if code / 256 = 9 then [(6, min 1 (arg c 0 1))]
     else []
  pairs ++ units

/-- A pair is in a sparing sequence, as the frozen pair or as its reserved Libero. -/
def spareBusy (s : State) (p : Nat) : Bool := inSparing s p || rd s (pairStatusState p) == 10

/-- A hart's tenancy is in its seal or unseal sequence. -/
def sealBusy (s : State) (h : Nat) : Bool :=
  let t := tenantOf s (ownerOf s h)
  ownerOf s h != 0 && (t.st == .sealing || t.unsealing)

/-- The command is not taken yet, and its result area reads BUSY. -/
def mustWait (s : State) (i : Nat) (c : Bytes) : Bool :=
  let code := argCode c
  (namedPairs s i c).any (spareBusy s) ||
    ((code == 0x0401 || code == 0x0403 || code == 0x0303) && (namedHarts s i c).any (sealBusy s)) ||
    (!isTestCode code && (namedUnits s i c).any (underTest s)) ||
    ((gateOf code).isSome && s.assayer.taking.isSome)

/-! ## Taking (R339) -/

/-- The senior's mailbox core runs, and no sleep request stands. -/
def takesCommands (s : State) : Bool :=
  match s.toss.holder with
  | some x => clkLive s (4 * x) && s.power.sleep == .none
  | none => false

/-- Mailbox i's latched command is taken at boundary b. -/
def takeOne (b : Nat) (s : State) (i : Nat) : State :=
  let m := mbxOf s i
  let s1 := wr (mbxStatState i) 2 (bump (mbxCountTaken i) 1 (setMbx i { m with taken := b, phase := .ready } s))
  match settle s i m.copy with
  | none => s1
  | some st => stageRefused i st s1

/-- Latched commands that may be taken now, in ascending mailbox order. -/
def takeable (s : State) : List Nat :=
  (mbxIds s).filter fun i => rd s (mbxStatState i) == 1 && !mustWait s i (mbxOf s i).copy

/-- The senior takes every latched command; those beyond the first 32 count as deferred. -/
def takeAll (b : Nat) (s : State) : State :=
  if takesCommands s then
    let l := takeable s
    bump mbxGlobalDeferred (l.length - 32) (wr mbxGlobalTakenLast l.length (l.foldl (takeOne b) s))
  else wr mbxGlobalTakenLast 0 s

end Sys2Proof.Machine
end

