-- ==== Sys2Proof/Machine/Boundary.lean ====
section
/-! DEFINITION. Machine/Boundary.lean: the actions due at a boundary in the order of Table 2.2, and the steps of commands
(R37 to R40, R142, R157, R161, R326, R346). -/
namespace Sys2Proof.Machine

/-! ## Actions due -/

/-- A command that waits for lines is tried again. -/
def tryAgain (i : Nat) (s : State) : State :=
  let c := (mbxOf s i).copy
  if argCode c = 0x0503 then memClear i c s else if argCode c = 0x0304 then tenantLoad i c s
  else if argCode c = 0x0302 then tenantGrant i c s else s

/-- Carry out an action. -/
def applyAct (s : State) (a : Act) : State :=
  match a with
  | .setFld f v => wr f v s
  | .stage i cl d => stageDone i cl d s
  | .spare c rank sub d => spareDevice (beat s) c rank sub d s
  | .mode n m => applyMode n m s
  | .startHart h pc o => startHart h pc o s
  | .cmdStart i h pc o own => startFor i h pc o own s
  | .stopHart h i => stopHart h i s
  | .hartOffline h => hartOffline h s
  | .drainSlice n cause => drainSlice n cause s
  | .handSlice n => handSlice n s
  | .switchBuckets n => switchBuckets n s
  | .portRole g n role => takeRole g n role s
  | .portBif g code => takeBif g code s
  | .portConf i cl g code roles => applyConf i cl g code roles s
  | .portOwner g first count t => changeOwner g first count t s
  | .portEp g bar2 r en owner base => applyEp g bar2 r en owner base s
  | .cxlGrant g first count t => cxlChange g first count t s
  | .dmaOwner d t => dmaGive d t s
  | .openTenant t => openTenant t s
  | .giveHart h t => if (hartOf s h).st = .offline ∧ (hartOf s h).fencedAt ≠ some (beat s) then giveHart h t s else s
  | .assignHart i h t => assignHart i h t s
  | .catchUpStart c r => catchUpStart c r s
  | .rateReturn c r => rateReturn c r s
  | .grant base count t => grantApply base count t s
  | .measure t v => modTenant t (fun x => { x with meas := v }) s
  | .tryAgain i => tryAgain i s
  | .clearEnd i cl base size t n upto => clearEnd i cl base size t n upto s
  | .sealStart t i => sealStart t i s
  | .sealApply t => sealApply t s
  | .unsealStart t i => unsealStart t i s
  | .unsealApply t => unsealApply t s
  | .rekeyCurrent t g => rekeyCurrent t g s
  | .rekeyEnd t => rekeyEnd t s
  | .closeStart t i => closeStart t i s
  | .closeRelease t => closeRelease t s
  | .keysErased t => keysErased t s
  | .fabPort i k x => fabPortApply i k x s
  | .fabGrant d t allow => fabGrantApply d t allow s
  | .shareOn h segs => segs.foldl (fun b g => putSeg g b) (shareOn h s)
  | .shareOff h => shareOff h s
  | .testStart _ id => testStart id s
  | .domain i d x => domainApply i d x s
  | .switch d on => dueSwitch d on s
  | .gatePair p => gatePair p s
  | .ungate p => ungate p s
  | .pads m => releasePads m s
  | .attest i cl dst nonce => attest i cl dst nonce s
  | .fenceHart p cause det st => fenceHart p cause det st s
  | .fenceHalf t => detectedAt (beat s - 1) (fenceHalf t) s
  | .fenceNotice c sub rank t first count => fenceNotice c sub rank t first count s
  | .fence u => detectedAt (beat s - 1) (fenceUnit u) s
  | .deviceSpare c rank sub => deviceSpare c rank sub s
  | .tokenPass => passToken s
  | .decide p step a b => decideStep p step a b s

/-- Kind of a unit (Table 13.12a), in the order of which fences of one boundary are applied (R418). -/
def unitKind : UnitRef → Nat
  | .hart _ => 1
  | .slice .. => 2
  | .rank .. | .sub .. | .chan _ => 3
  | .port .. => 4
  | .link _ | .fabPort _ => 5
  | .dma _ => 6
  | .clerk _ => 7
  | .assayer _ => 8
  | .half _ => 9

/-- Place of an action among those of one step: fences by kind, what else the step holds, then device sparings (Table 2.2). -/
def actRank : Act → Nat
  | .fenceHart .. => 1
  | .fence u => unitKind u
  | .fenceHalf _ => 9
  | .spare .. | .deviceSpare .. => 11
  | _ => 10

/-- The step of Table 2.2 at which a step of a mailbox command takes effect; what the table does not name takes effect as the
Clerk's slice starts. -/
def actStep : Act → Nat
  | .spare .. | .deviceSpare .. | .fence _ | .fenceHart .. | .fenceHalf _ | .switchBuckets _ | .drainSlice .. => 2
  | .domain .. | .switch .. | .gatePair _ | .pads _ | .testStart .. => 4
  | .mode .. | .startHart .. | .cmdStart .. | .assignHart .. | .stopHart .. | .hartOffline _ | .portOwner .. | .cxlGrant .. | .dmaOwner .. | .openTenant _
  | .giveHart .. | .grant .. | .sealStart .. | .sealApply _ | .unsealStart .. | .unsealApply _ | .rekeyCurrent .. | .rekeyEnd _
  | .closeStart .. | .closeRelease _ | .keysErased _ | .fabGrant .. | .shareOn .. | .shareOff _ | .ungate _ => 5
  | .catchUpStart .. | .rateReturn .. => 6
  | _ => 9

/-- Everything due at step k of this boundary: in the order of Table 2.2, and else as it was ordered. -/
def applyDue (k : Nat) (s : State) : State :=
  let now' := s.due.filter fun d => d.step == k && decide (d.beat ≤ beat s)
  ((List.range 12).flatMap fun r => now'.filter fun d => actRank d.act == r).foldl (fun a d => applyAct a d.act)
    { s with due := s.due.filter fun d => !(d.step == k && decide (d.beat ≤ beat s)) }

/-! ## Step 1 -/

/-- Timer compares that platform time has passed raise their interrupts on running and gated harts (R92, R357, R401). -/
def timers (s : State) : State :=
  s.harts.foldl (fun a e =>
    match (hartOf a e.1).st with
    | .running | .gated => wakeHart e.1 (wakeFiles e.1 a)
    | _ => a) s

/-- Beat number, platform time, references and alignment (R32 to R36, R41 to R51). -/
def stepTime (inp : BeatIn) (s : State) : State :=
  let s1 := advanceTime s
  let b := beat s1
  let s2 := holdoverBeat (refBoundary b (refWake b s1))
  let s3 := copyCheck b inp.badCopies (alignBoundary (aoSource s2))
  timers (applyEnables (leaveForced (setTime { s3.time with noMarker := s3.time.noMarker + 1 } s3)))

/-! ## Step 4 -/

/-- Switching, the envelope and the clocks, and gating that an interrupt abandons (R389, R392, R395, R400, R411). -/
def stepPower (inp : BeatIn) (s : State) : State :=
  let s1 := thermRegs (beat s) (inp.sensors.foldl (takeReading (beat s)) s)
  let s2 := (s1.pairs.map (·.1)).foldl gateAbandon s1
  clockBeat inp (applyDue 4 s2)

/-! ## Step 6 -/

/-- Blocks of a channel whose owner or mask was written take the new values, and their old owners are kept for the blocks that
were selected before; queues that lost slots shrink, and what no longer fits moves to shared traffic in its order (R157). It enters the shared queue, or the
port's buffer, also where that holds 64 already: the spec does not say where it waits then (DESIGN CHOICE, log entry 42). -/
def newOwners (c : Nat) (s : State) : State :=
  let l := (chanOf s c).newOwner
  let s0 := modChan c (fun r => { r with newOwner := [], oldOwner := l.map fun e => (e.1, rd s (mcSealBlockOwner c e.1) + 1) }) s
  let s1 := l.foldl (fun a (e : Nat × Nat) =>
    wr (mcSealBlockOwner c e.1) ((e.2 - 1) / 8) (wr (mcSealBlockSlotEn c e.1) ((e.2 - 1) % 8) a)) s0
  (if l.isEmpty then [] else (chanOf s1 c).sealedQ).foldl (fun a (e : Nat × List DReq) =>
    let sub := e.1 / 512
    let t := e.1 % 512
    let n := 8 * ownedSlots a c sub t
    (e.2.drop n).foldl (fun b q => putReq c sub { q with shared := true } b) (setSealedQ c sub t (e.2.take n) a)) s1

/-- The windows of the frame that ends have closed the rows of the ranks they refreshed (R152). -/
def endWindows (c : Nat) (s : State) : State :=
  let r := chanOf s c
  modChan c (fun x => { x with refreshing := [], closed := [], accrued := [] })
    ((r.refreshing.filter fun k => !r.closed.contains k).foldl (fun a k => closeBoth c k a) s)

/-- Lines that the fill has written by a boundary: one in every slot of both subchannels (R38, R195). -/
def fillBeat (c : Nat) (s : State) : State :=
  if rd s (mcStatusState c) = 2 then
    wr (mcFillLinesDone c) (min (chanLines s c) (rd s (mcFillLinesDone c) + 2 * rd s (mcSlotGridSlots c))) s
  else s

/-- A channel's new frame: new owners, the slots lost in the frame that ends, the notices of events that are over, 1,000 ns added to
each rank's remainder, and the windows planned anew (R142, R157, R161, R166). -/
def startFrame (s : State) (c : Nat) : State :=
  let s1 := addLost c (fillBeat c (newOwners c s))
  if rd s1 (mcStatusState c) = 3 ∨ rd s1 (mcStatusState c) = 2 then
    (List.range (ranksOf s1 c)).foldl (fun a r => setRem c r (remOf a c r + 1000) a) (endWindows c (endEvents c s1))
  else s1

/-! ## Step 8 -/

/-- The comparator's summary of a pair: the outputs compared in the beat ending, saturating, and the corrected errors (R90). A
pair that was checked at the end of that beat (`was`), or that froze in it, has compared; any other has compared none. -/
def summary (compared : List (Nat × Nat)) (was : List Nat) (s : State) (p : Nat) : State :=
  if rd s (pairStatusState p) ≠ 0 then
    let q := pairOf s p
    let on := was.contains p ∨ (inSparing s p ∧ rd s (pairCmpBeatBeat p) + 1 = beat s)
    let n := if on then ((compared.find? fun e => e.1 == p).map (·.2)).getD 0 else 0
    wr (pairSummaryCompared p) (min (2 ^ 32 - 1) n) (wr (pairSummaryCorrectedA p) (min 255 q.corrA)
      (wr (pairSummaryCorrectedB p) (min 255 q.corrB) (setPair p { q with corrA := 0, corrB := 0 } s)))
  else s

/-- What a hart has spent in the beat that ends beside its core cycles: front-end and back-end stalls and cycles with the reorder
buffer full, no more than the cycles each, and micro-operations issued; how many the spec leaves open (R80). -/
def stallBeat (h n : Nat) (s : State) : State :=
  [0x0200, 0x0201, 0x0202, 0x0100].foldl (fun a c =>
    countN h c (freeVal (if c = 0x0100 then 16 * n + 1 else n + 1) a) (freeNext a)) s

/-- Core cycles of the beat that ends, in every hart that ran in it (`ran`) and runs on a clocked pair (R56, R92): one that this boundary
has started has spent none (R110). -/
def cycleBeat (ran : List Nat) (s : State) : State :=
  s.harts.foldl (fun a e => match pairOfHart a e.1 with
    | some p => if ran.contains e.1 ∧ e.2.st = .running ∧ (pairOf a p).clkGated = false then
        let n := rd a (pwrDomainFreq p) * beatGain a / 10
        stallBeat e.1 n (countCycles e.1 n a)
      else a
    | none => a) s

/-- Results and notices are published, heartbeats and comparators sampled, for the pairs that were checked and the harts that ran in the
beat that ends. -/
def stepSample (inp : BeatIn) (was ran : List Nat) (s : State) : State :=
  let b := beat s
  let ids := mbxIds s
  let s1 := ids.foldl publishNotices (ids.foldl (publishOne b) s)
  let s2 := applyDue 8 (i3cReturn s1)
  let s3 := cycleBeat ran ((presentPairs s).foldl (summary inp.compared was) s2)
  sampleAssayer (sampleHearts inp.bridge inp.pgN inp.pgS s3)

/-! ## Step 9 -/

/-- Clerk cycle 0 of the beat: CLERK_SLICE, CLERK_BEAT and interrupt 0 of every core that runs (R326). -/
def slicePulse (b : Nat) (s : State) : State :=
  (clerkCores ++ [8, 9]).foldl (fun a c =>
    if clkLive a c then
      clkIrq 0 b (wr (clerkSliceCycle c) 0 (wr (clerkBeatLoBeat c) (b % 2 ^ 32) (wr (clerkBeatHiBeat c) (b / 2 ^ 32) a))) c
    else a) s

/-- Pairs that wait for a Libero. -/
def frozenPairs (s : State) : List Nat :=
  (presentPairs s).filter fun p => rd s (pairStatusState p) == 5 || rd s (pairStatusState p) == 6

/-- The Clerk task slice begins: requests of other devices that wait at a home are tried again, function resets and command queues go on,
what is due takes effect, commands are taken, Liberos reserved, notices placed. -/
def stepSlice (s : State) : State :=
  let b := beat s
  let s1 := idleBeat (judgeDrowse (groupsBeat (pumpTrks (fun _ => true) (fabricBeat (slicePulse b s)))))
  let s2 := (presentPairs s1).foldl countIdle s1
  let s3 := takeAll b (applyDue 9 s2)
  let s4 := (frozenPairs s3).foldl (fun a p => reserveLibero p a) s3
  (mbxIds s4).foldl (placeNotices b) s4

/-! ## The boundary -/

/-- Boundaries occur while the device has power and is not in Dormant (R37), from the moment a reference has been qualified
(R32). -/
def beatRuns (s : State) : Bool := s.chip.vinGood && !s.chip.off && !s.time.dormant && (s.time.started || refGood s)

/-- One boundary, in the order of Table 2.2. -/
def boundary (inp : BeatIn) (s : State) : State :=
  if beatRuns s then
    let was := (presentPairs s).filter fun p => rd s (pairStatusState p) == 3
    let ran := (s.harts.filter fun e => e.2.st == .running).map (·.1)
    let s1 := applyDue 2 (applyDue 1 (stepTime inp s))
    let s3 := applyHolds (beat s1) inp.holds s1
    let s4 := stepPower inp s3
    let s5 := sleepBoundary (applyDue 5 s4)
    let s6 := (presentChans s5).foldl (fun a c => judgeQueues c a) (applyDue 6 ((presentChans s5).foldl startFrame s5))
    let s7 := (List.range 64).foldl (dmaSnapshot (beat s6)) s6
    stepSlice (stepSample inp was ran s7)
  else s

/-! ## Steps of commands (R346, R347) -/

/-- The steps of mailbox i's command that are staged for the next boundary. -/
def dueSteps (s : State) (i : Nat) : List JStep := s.journal.filter fun j => j.mbx == i && decide (j.beat ≤ beat s + 1)

/-- The steps staged for the next boundary take effect there, each at its step of Table 2.2, when their commit has reached the
hub in the beat before; else they are staged again for the boundary after. A command whose request the Assayer abandoned ends
UNAVAILABLE. -/
def commandStep (i : Nat) (committed : Bool) (s : State) : State :=
  let l := dueSteps s i
  let rest := s.journal.filter fun j => !(j.mbx == i && decide (j.beat ≤ beat s + 1))
  if l = [] then s
  else if s.assayer.abandon ∧ (gateOf (argCode (mbxOf s i).copy)).isSome then
    stageRefused i 5 (modAssayer (fun a => { a with abandon := false })
      { s with journal := s.journal.filter fun j => j.mbx != i })
  else if committed then l.foldl (fun a j => addDue (beat s + 1) (actStep j.act) j.act a) { s with journal := rest }
  else { s with journal := rest ++ l.map fun j => { j with beat := beat s + 2 } }

/-! ## Between boundaries -/

/-- One reference cycle passes with no command waiting: platform time advances by 10 ns and never reaches the value of the next
boundary; a compare it passes raises its timer (R45; log entry 1). -/
def refCycle (s : State) : State :=
  if beatRuns s ∧ s.time.started ∧ s.time.sub + 10 < beatGain s then
    timers (wr clkTimeTimeNs (now s + 10) (setTime { s.time with sub := s.time.sub + 10 } s))
  else s

/-! ## Meanings -/

/-- BEAT_BOUNDARY (R40). -/
def execBeatBoundary (b : BeatIn) (s : State) : Host.Outcome State Fault Refusal := .next (boundary b s)
/-- COMMAND_STEP (R346, R347). -/
def execCommandStep (mbx : Nat) (committed : Bool) (s : State) : Host.Outcome State Fault Refusal :=
  .next (commandStep mbx committed s)

/-- TOKEN_PASS (R307, R328, R329, R332, R372): the token that a transition of Table 12.11 gives away passes at step 1 of the
next boundary, whose step 9 finds the new senior. -/
def execTokenPass (s : State) : Host.Outcome State Fault Refusal :=
  .next (if s.toss.pass.isSome then addDue (beat s + 1) 1 .tokenPass s else s)
/-- FENCE (R418 to R421): the unit in which a fault has been detected is fenced at step 2 of the next boundary. -/
def execFence (u : UnitRef) (s : State) : Host.Outcome State Fault Refusal := .next (addDue (beat s + 1) 2 (.fence u) s)

/-- DEVICE_SPARE (R191): the device that has reached the threshold is spared at step 2 of the next boundary, after its
fences. -/
def execDeviceSpare (c rank sub : Nat) (s : State) : Host.Outcome State Fault Refusal :=
  .next (addDue (beat s + 1) 2 (.deviceSpare c rank sub) s)

end Sys2Proof.Machine
end

