-- ==== Sys2Proof/Machine/Dispatch.lean ====
section
/-! DEFINITION. Machine/Dispatch.lean: the meaning of each command, one arm per constructor of Instr. -/
namespace Sys2Proof.Machine

def exec (i : Instr) (s : State) : Host.Outcome State Fault Refusal :=
  match i with
  | .vinGood mv resetLow => Sys2Proof.Machine.execVinGood mv resetLow s
  | .vinLost mv ns => Sys2Proof.Machine.execVinLost mv ns s
  | .strapsSampled samples => Sys2Proof.Machine.execStrapsSampled samples s
  | .resetNRise lowNs => Sys2Proof.Machine.execResetNRise lowNs s
  | .startupStepComplete ms r => Sys2Proof.Machine.execStartupStepComplete ms r s
  | .startupStepTimeout ms => Sys2Proof.Machine.execStartupStepTimeout ms s
  | .flashReadTimeout flash ms => Sys2Proof.Machine.execFlashReadTimeout flash ms s
  | .trainingStepDone c r => Sys2Proof.Machine.execTrainingStepDone c r s
  | .trainingTimeout c => Sys2Proof.Machine.execTrainingTimeout c s
  | .fillComplete c => Sys2Proof.Machine.execFillComplete c s
  | .linkWaitExpiry => Sys2Proof.Machine.execLinkWaitExpiry s
  | .beatBoundary b => Sys2Proof.Machine.execBeatBoundary b s
  | .slewDone => Sys2Proof.Machine.execSlewDone s
  | .sensorRetire sensor => Sys2Proof.Machine.execSensorRetire sensor s
  | .commandStep mbx committed => Sys2Proof.Machine.execCommandStep mbx committed s
  | .fence u => Sys2Proof.Machine.execFence u s
  | .guardInterrupt => Sys2Proof.Machine.execGuardInterrupt s
  | .refclkLoss ref gapNs ppm => Sys2Proof.Machine.execRefclkLoss ref gapNs ppm s
  | .refclkRecovered ref cycles => Sys2Proof.Machine.execRefclkRecovered ref cycles s
  | .refPrefWrite pref => Sys2Proof.Machine.execRefPrefWrite pref s
  | .xtal32Loss gapNs => Sys2Proof.Machine.execXtal32Loss gapNs s
  | .thermalTrip sensor degC => Sys2Proof.Machine.execThermalTrip sensor degC s
  | .inputCurrentLimit iin ns => Sys2Proof.Machine.execInputCurrentLimit iin ns s
  | .thermalHalving pair degC => Sys2Proof.Machine.execThermalHalving pair degC s
  | .entropyHealthFail tile => Sys2Proof.Machine.execEntropyHealthFail tile s
  | .mainCoreLoad h a rd signed => Sys2Proof.Machine.execMainCoreLoad h a rd signed s
  | .mainCoreStore h a v younger => Sys2Proof.Machine.execMainCoreStore h a v younger s
  | .mainCoreAmo h a op v cmp rd younger => Sys2Proof.Machine.execMainCoreAmo h a op v cmp rd younger s
  | .controlWindowAccess h va off size rd signed write v => Sys2Proof.Machine.execControlWindowAccess h va off size rd signed write v s
  | .signalPageWrite h pa size v => Sys2Proof.Machine.execSignalPageWrite h pa size v s
  | .cboClean h va pa => Sys2Proof.Machine.execCboClean h va pa s
  | .cboFlush h va pa => Sys2Proof.Machine.execCboFlush h va pa s
  | .cboInval h va pa => Sys2Proof.Machine.execCboInval h va pa s
  | .cboZero h va pa younger => Sys2Proof.Machine.execCboZero h va pa younger s
  | .prefetchHint h pa kind faults => Sys2Proof.Machine.execPrefetchHint h pa kind faults s
  | .wrsSto h => Sys2Proof.Machine.execWrsSto h s
  | .wrsStoTimeout h ns => Sys2Proof.Machine.execWrsStoTimeout h ns s
  | .wrsNto h => Sys2Proof.Machine.execWrsNto h s
  | .seedRead h rd ready => Sys2Proof.Machine.execSeedRead h rd ready s
  | .contextKeyUpdate h c => Sys2Proof.Machine.execContextKeyUpdate h c s
  | .branchRetire h pc len target kind taken => Sys2Proof.Machine.execBranchRetire h pc len target kind taken s
  | .usefulHalving core => Sys2Proof.Machine.execUsefulHalving core s
  | .dzpredctlClear h => Sys2Proof.Machine.execDzpredctlClear h s
  | .dbypassSet h => Sys2Proof.Machine.execDbypassSet h s
  | .dbypassClear h => Sys2Proof.Machine.execDbypassClear h s
  | .ibypassSet h => Sys2Proof.Machine.execIbypassSet h s
  | .coreInterrupt h irq pc => Sys2Proof.Machine.execCoreInterrupt h irq pc s
  | .snoopInvalidation core line inFlight => Sys2Proof.Machine.execSnoopInvalidation core line inFlight s
  | .msiWrite tag h file ident => Sys2Proof.Machine.execMsiWrite tag h file ident s
  | .comparatorMismatch pair bus bit cause => Sys2Proof.Machine.execComparatorMismatch pair bus bit cause s
  | .coreArrayError pair core kind => Sys2Proof.Machine.execCoreArrayError pair core kind s
  | .captureComplete pair => Sys2Proof.Machine.execCaptureComplete pair s
  | .logicBistResult pair passA passB => Sys2Proof.Machine.execLogicBistResult pair passA passB s
  | .arrayMarchResult pair passA passB => Sys2Proof.Machine.execArrayMarchResult pair passA passB s
  | .survivorDrainDone pair => Sys2Proof.Machine.execSurvivorDrainDone pair s
  | .stateCopyDone pair digestOk => Sys2Proof.Machine.execStateCopyDone pair digestOk s
  | .hartResumeLibero pair => Sys2Proof.Machine.execHartResumeLibero pair s
  | .splitCoreError pair core kind badLines => Sys2Proof.Machine.execSplitCoreError pair core kind badLines s
  | .pairInjectB pair => Sys2Proof.Machine.execPairInjectB pair s
  | .pairModeWrite pair mode => Sys2Proof.Machine.execPairModeWrite pair mode s
  | .sliceRequest core pa tag excl err => Sys2Proof.Machine.execSliceRequest core pa tag excl err s
  | .sliceFill slice line => Sys2Proof.Machine.execSliceFill slice line s
  | .maintenanceAccept slice core line tag op => Sys2Proof.Machine.execMaintenanceAccept slice core line tag op s
  | .maintenanceComplete slice line => Sys2Proof.Machine.execMaintenanceComplete slice line s
  | .l2Eviction core line => Sys2Proof.Machine.execL2Eviction core line s
  | .sliceDrainWalkDone slice => Sys2Proof.Machine.execSliceDrainWalkDone slice s
  | .handoverComplete slice => Sys2Proof.Machine.execHandoverComplete slice s
  | .cachePreloadDone mbx => Sys2Proof.Machine.execCachePreloadDone mbx s
  | .llcInjectDataCe slice => Sys2Proof.Machine.execLlcInjectDataCe slice s
  | .llcInjectDataUe slice => Sys2Proof.Machine.execLlcInjectDataUe slice s
  | .llcInjectTagPar slice => Sys2Proof.Machine.execLlcInjectTagPar slice s
  | .dramRequest c q => Sys2Proof.Machine.execDramRequest c q s
  | .commandOpportunity c sub slot => Sys2Proof.Machine.execCommandOpportunity c sub slot s
  | .rowIdleClose c bank ns => Sys2Proof.Machine.execRowIdleClose c bank ns s
  | .rtPortRequest c q => Sys2Proof.Machine.execRtPortRequest c q s
  | .refreshOwed c rank => Sys2Proof.Machine.execRefreshOwed c rank s
  | .claimStart c block => Sys2Proof.Machine.execClaimStart c block s
  | .sealedSelection c block => Sys2Proof.Machine.execSealedSelection c block s
  | .mr4Reading c rank codes => Sys2Proof.Machine.execMr4Reading c rank codes s
  | .catchUpStart c rank => Sys2Proof.Machine.execCatchUpStart c rank s
  | .catchUpEnd c rank slot => Sys2Proof.Machine.execCatchUpEnd c rank slot s
  | .refreshRateReturn c rank => Sys2Proof.Machine.execRefreshRateReturn c rank s
  | .driftCheck c rank change => Sys2Proof.Machine.execDriftCheck c rank change s
  | .dramReadReturn c sub errs phases => Sys2Proof.Machine.execDramReadReturn c sub errs phases s
  | .flipExpiry c => Sys2Proof.Machine.execFlipExpiry c s
  | .ddr5Alert c sub kind slot => Sys2Proof.Machine.execDdr5Alert c sub kind slot s
  | .alertDeassertTimeout c sub ns => Sys2Proof.Machine.execAlertDeassertTimeout c sub ns s
  | .recoveryEnd c sub slot => Sys2Proof.Machine.execRecoveryEnd c sub slot s
  | .writeCrcWindowPass c sub => Sys2Proof.Machine.execWriteCrcWindowPass c sub s
  | .mcInjectCaParity c sub => Sys2Proof.Machine.execMcInjectCaParity c sub s
  | .mcInjectWcrc c sub => Sys2Proof.Machine.execMcInjectWcrc c sub s
  | .spareWindowClear c => Sys2Proof.Machine.execSpareWindowClear c s
  | .deviceSpare c rank sub => Sys2Proof.Machine.execDeviceSpare c rank sub s
  | .patrolLapEnd c => Sys2Proof.Machine.execPatrolLapEnd c s
  | .rangeScrubEnd => Sys2Proof.Machine.execRangeScrubEnd s
  | .softRepairDone mbx found => Sys2Proof.Machine.execSoftRepairDone mbx found s
  | .selfRefreshExit c ok codes delays => Sys2Proof.Machine.execSelfRefreshExit c ok codes delays s
  | .sealDrainsDone t => Sys2Proof.Machine.execSealDrainsDone t s
  | .unsealDrainDone t => Sys2Proof.Machine.execUnsealDrainDone t s
  | .closeKeyErase t => Sys2Proof.Machine.execCloseKeyErase t s
  | .rekeySweepDone t => Sys2Proof.Machine.execRekeySweepDone t s
  | .functionResetDone g dev => Sys2Proof.Machine.execFunctionResetDone g dev s
  | .linkStageDone k => Sys2Proof.Machine.execLinkStageDone k s
  | .linkStageTimeout k failed => Sys2Proof.Machine.execLinkStageTimeout k failed s
  | .linkRetryTimer k => Sys2Proof.Machine.execLinkRetryTimer k s
  | .linkRekey k rx => Sys2Proof.Machine.execLinkRekey k rx s
  | .keyingFlit k step ok => Sys2Proof.Machine.execKeyingFlit k step ok s
  | .flitReceived k corrected uncorrectable tagOk f => Sys2Proof.Machine.execFlitReceived k corrected uncorrectable tagOk f s
  | .nakReceived k ackSeq => Sys2Proof.Machine.execNakReceived k ackSeq s
  | .replayLimit k => Sys2Proof.Machine.execReplayLimit k s
  | .blockLockLoss k ns => Sys2Proof.Machine.execBlockLockLoss k ns s
  | .codewordTimeout k ns => Sys2Proof.Machine.execCodewordTimeout k ns s
  | .helloTimeout k => Sys2Proof.Machine.execHelloTimeout k s
  | .fabricLaneFailure k lane => Sys2Proof.Machine.execFabricLaneFailure k lane s
  | .fabricRetrainDone k => Sys2Proof.Machine.execFabricRetrainDone k s
  | .hello k h => Sys2Proof.Machine.execHello k h s
  | .captainSettle => Sys2Proof.Machine.execCaptainSettle s
  | .linkStateNotice k dev port boundary => Sys2Proof.Machine.execLinkStateNotice k dev port boundary s
  | .failureBankSwitch => Sys2Proof.Machine.execFailureBankSwitch s
  | .failureBankReady => Sys2Proof.Machine.execFailureBankReady s
  | .routeTablesComputed => Sys2Proof.Machine.execRouteTablesComputed s
  | .joinReport r => Sys2Proof.Machine.execJoinReport r s
  | .tables t => Sys2Proof.Machine.execTables t s
  | .tablesAck dev epoch digest => Sys2Proof.Machine.execTablesAck dev epoch digest s
  | .commit epoch boundary => Sys2Proof.Machine.execCommit epoch boundary s
  | .tableSwitch => Sys2Proof.Machine.execTableSwitch s
  | .epochGraceEnd => Sys2Proof.Machine.execEpochGraceEnd s
  | .sharePlace captain g => Sys2Proof.Machine.execSharePlace captain g s
  | .shareAck dev ten peer outcome => Sys2Proof.Machine.execShareAck dev ten peer outcome s
  | .sealQuery dev ten reply isSealed => Sys2Proof.Machine.execSealQuery dev ten reply isSealed s
  | .beatMarker k tRx m => Sys2Proof.Machine.execBeatMarker k tRx m s
  | .markerLoss => Sys2Proof.Machine.execMarkerLoss s
  | .captainUnreachable => Sys2Proof.Machine.execCaptainUnreachable s
  | .memberUnreachable dev => Sys2Proof.Machine.execMemberUnreachable dev s
  | .rdShared p => Sys2Proof.Machine.execRdShared p s
  | .rdOwn p => Sys2Proof.Machine.execRdOwn p s
  | .rdNc p => Sys2Proof.Machine.execRdNc p s
  | .wrNc p => Sys2Proof.Machine.execWrNc p s
  | .wrLine p => Sys2Proof.Machine.execWrLine p s
  | .evict p => Sys2Proof.Machine.execEvict p s
  | .maint p => Sys2Proof.Machine.execMaint p s
  | .atomic p => Sys2Proof.Machine.execAtomic p s
  | .snpInv p => Sys2Proof.Machine.execSnpInv p s
  | .snpShare p => Sys2Proof.Machine.execSnpShare p s
  | .ack src xid completion => Sys2Proof.Machine.execAck src xid completion s
  | .retry src xid => Sys2Proof.Machine.execRetry src xid s
  | .grant src xid => Sys2Proof.Machine.execGrant src xid s
  | .err src xid => Sys2Proof.Machine.execErr src xid s
  | .snpRsp src line => Sys2Proof.Machine.execSnpRsp src line s
  | .data src xid data => Sys2Proof.Machine.execData src xid data s
  | .poisonData src xid => Sys2Proof.Machine.execPoisonData src xid s
  | .snpData src line data poison => Sys2Proof.Machine.execSnpData src line data poison s
  | .requestResendTimeout xid => Sys2Proof.Machine.execRequestResendTimeout xid s
  | .snoopResendTimeout dev line => Sys2Proof.Machine.execSnoopResendTimeout dev line s
  | .requestErrorTimeout xid => Sys2Proof.Machine.execRequestErrorTimeout xid s
  | .serdesLaneFailure g n lanes => Sys2Proof.Machine.execSerdesLaneFailure g n lanes s
  | .portRetrainDone g n => Sys2Proof.Machine.execPortRetrainDone g n s
  | .portRetrainTimeout g n => Sys2Proof.Machine.execPortRetrainTimeout g n s
  | .serdesLinkUp g n width speed flit funcs => Sys2Proof.Machine.execSerdesLinkUp g n width speed flit funcs s
  | .serdesLinkDown g n => Sys2Proof.Machine.execSerdesLinkDown g n s
  | .portTrainRetry g n => Sys2Proof.Machine.execPortTrainRetry g n s
  | .serdesIngressRequest g n q => Sys2Proof.Machine.execSerdesIngressRequest g n q s
  | .rootPortCompletion xid status data => Sys2Proof.Machine.execRootPortCompletion xid status data s
  | .completionTimeout xid ns => Sys2Proof.Machine.execCompletionTimeout xid ns s
  | .ecamWrite tag g dev off size v r => Sys2Proof.Machine.execEcamWrite tag g dev off size v r s
  | .cxlMemDeviceRequest g dpa write data => Sys2Proof.Machine.execCxlMemDeviceRequest g dpa write data s
  | .identifyMemoryDevice g => Sys2Proof.Machine.execIdentifyMemoryDevice g s
  | .getHealthInfo g => Sys2Proof.Machine.execGetHealthInfo g s
  | .getEventRecords g log => Sys2Proof.Machine.execGetEventRecords g log s
  | .clearEventRecords g log handles => Sys2Proof.Machine.execClearEventRecords g log handles s
  | .getPoisonList g dpa len => Sys2Proof.Machine.execGetPoisonList g dpa len s
  | .getSupportedLogs g => Sys2Proof.Machine.execGetSupportedLogs g s
  | .getLog g log off len => Sys2Proof.Machine.execGetLog g log off len s
  | .setTimestamp g v => Sys2Proof.Machine.execSetTimestamp g v s
  | .cxlUnsupportedOpcode g op => Sys2Proof.Machine.execCxlUnsupportedOpcode g op s
  | .dmaEnable tag d => Sys2Proof.Machine.execDmaEnable tag d s
  | .dmaAbort tag d => Sys2Proof.Machine.execDmaAbort tag d s
  | .dmaAbortDone d => Sys2Proof.Machine.execDmaAbortDone d s
  | .dmaPauseSet tag d => Sys2Proof.Machine.execDmaPauseSet tag d s
  | .dmaPauseDone d => Sys2Proof.Machine.execDmaPauseDone d s
  | .dmaPauseClear tag d => Sys2Proof.Machine.execDmaPauseClear tag d s
  | .dmaStop tag d => Sys2Proof.Machine.execDmaStop tag d s
  | .dmaResumeRetry tag d => Sys2Proof.Machine.execDmaResumeRetry tag d s
  | .dmaResumeMarkBad tag d => Sys2Proof.Machine.execDmaResumeMarkBad tag d s
  | .dmaResumeDisable tag d => Sys2Proof.Machine.execDmaResumeDisable tag d s
  | .dmaTailWrite tag d v => Sys2Proof.Machine.execDmaTailWrite tag d v s
  | .descriptorFetched d far => Sys2Proof.Machine.execDescriptorFetched d far s
  | .dmaReadReturn d n far => Sys2Proof.Machine.execDmaReadReturn d n far s
  | .descriptorComplete d => Sys2Proof.Machine.execDescriptorComplete d s
  | .statusWriteAck d => Sys2Proof.Machine.execStatusWriteAck d s
  | .dmaBusError d kind dir off => Sys2Proof.Machine.execDmaBusError d kind dir off s
  | .dmaRingFault d => Sys2Proof.Machine.execDmaRingFault d s
  | .doorbell tag mbx => Sys2Proof.Machine.execDoorbell tag mbx s
  | .resultAck tag mbx size v => Sys2Proof.Machine.execResultAck tag mbx size v s
  | .noticeAck tag mbx size v => Sys2Proof.Machine.execNoticeAck tag mbx size v s
  | .mctpRequest code args => Sys2Proof.Machine.execMctpRequest code args s
  | .i3cTransferTimeout sclLowMs packetMs complete => Sys2Proof.Machine.execI3cTransferTimeout sclLowMs packetMs complete s
  | .clerkClaim x v => Sys2Proof.Machine.execClerkClaim x v s
  | .tokenPass => Sys2Proof.Machine.execTokenPass s
  | .bridgeLost => Sys2Proof.Machine.execBridgeLost s
  | .peerPowerLost => Sys2Proof.Machine.execPeerPowerLost s
  | .clerkSramUe c => Sys2Proof.Machine.execClerkSramUe c s
  | .clerkInterruptEntry c code => Sys2Proof.Machine.execClerkInterruptEntry c code s
  | .mgmtResponse c region => Sys2Proof.Machine.execMgmtResponse c region s
  | .mgmtTimeout c region => Sys2Proof.Machine.execMgmtTimeout c region s
  | .clerkIpiSend c mask => Sys2Proof.Machine.execClerkIpiSend c mask s
  | .sll c wd wa sh => Sys2Proof.Machine.execSll c wd wa sh s
  | .srl c wd wa sh => Sys2Proof.Machine.execSrl c wd wa sh s
  | .sra c wd wa sh => Sys2Proof.Machine.execSra c wd wa sh s
  | .sllv c wd wa wb => Sys2Proof.Machine.execSllv c wd wa wb s
  | .srlv c wd wa wb => Sys2Proof.Machine.execSrlv c wd wa wb s
  | .srav c wd wa wb => Sys2Proof.Machine.execSrav c wd wa wb s
  | .add c wd wa wb => Sys2Proof.Machine.execAdd c wd wa wb s
  | .sub c wd wa wb => Sys2Proof.Machine.execSub c wd wa wb s
  | .and c wd wa wb => Sys2Proof.Machine.execAnd c wd wa wb s
  | .or c wd wa wb => Sys2Proof.Machine.execOr c wd wa wb s
  | .xor c wd wa wb => Sys2Proof.Machine.execXor c wd wa wb s
  | .nor c wd wa wb => Sys2Proof.Machine.execNor c wd wa wb s
  | .slt c wd wa wb => Sys2Proof.Machine.execSlt c wd wa wb s
  | .sltu c wd wa wb => Sys2Proof.Machine.execSltu c wd wa wb s
  | .mul c wd wa wb => Sys2Proof.Machine.execMul c wd wa wb s
  | .mulh c wd wa wb => Sys2Proof.Machine.execMulh c wd wa wb s
  | .mulhu c wd wa wb => Sys2Proof.Machine.execMulhu c wd wa wb s
  | .clz c wd wa => Sys2Proof.Machine.execClz c wd wa s
  | .addi c wd wa imm => Sys2Proof.Machine.execAddi c wd wa imm s
  | .andi c wd wa imm => Sys2Proof.Machine.execAndi c wd wa imm s
  | .ori c wd wa imm => Sys2Proof.Machine.execOri c wd wa imm s
  | .xori c wd wa imm => Sys2Proof.Machine.execXori c wd wa imm s
  | .slti c wd wa imm => Sys2Proof.Machine.execSlti c wd wa imm s
  | .sltiu c wd wa imm => Sys2Proof.Machine.execSltiu c wd wa imm s
  | .lui c wd imm => Sys2Proof.Machine.execLui c wd imm s
  | .lw c wd wa imm => Sys2Proof.Machine.execLw c wd wa imm s
  | .lh c wd wa imm => Sys2Proof.Machine.execLh c wd wa imm s
  | .lhu c wd wa imm => Sys2Proof.Machine.execLhu c wd wa imm s
  | .lb c wd wa imm => Sys2Proof.Machine.execLb c wd wa imm s
  | .lbu c wd wa imm => Sys2Proof.Machine.execLbu c wd wa imm s
  | .sw c wd wa imm => Sys2Proof.Machine.execSw c wd wa imm s
  | .sh c wd wa imm => Sys2Proof.Machine.execSh c wd wa imm s
  | .sb c wd wa imm => Sys2Proof.Machine.execSb c wd wa imm s
  | .beq c wa wb an hi off => Sys2Proof.Machine.execBeq c wa wb an hi off s
  | .bne c wa wb an hi off => Sys2Proof.Machine.execBne c wa wb an hi off s
  | .blt c wa wb an hi off => Sys2Proof.Machine.execBlt c wa wb an hi off s
  | .bge c wa wb an hi off => Sys2Proof.Machine.execBge c wa wb an hi off s
  | .bltu c wa wb an hi off => Sys2Proof.Machine.execBltu c wa wb an hi off s
  | .bgeu c wa wb an hi off => Sys2Proof.Machine.execBgeu c wa wb an hi off s
  | .j c off => Sys2Proof.Machine.execJ c off s
  | .jal c off => Sys2Proof.Machine.execJal c off s
  | .jalr c wd wa imm => Sys2Proof.Machine.execJalr c wd wa imm s
  | .jalg c wd wa imm => Sys2Proof.Machine.execJalg c wd wa imm s
  | .mld c wd wa imm => Sys2Proof.Machine.execMld c wd wa imm s
  | .mst c wd wa imm => Sys2Proof.Machine.execMst c wd wa imm s
  | .mldd c wd wa imm => Sys2Proof.Machine.execMldd c wd wa imm s
  | .mstd c wd wa imm => Sys2Proof.Machine.execMstd c wd wa imm s
  | .wait c => Sys2Proof.Machine.execWait c s
  | .eret c => Sys2Proof.Machine.execEret c s
  | .msync c => Sys2Proof.Machine.execMsync c s
  | .checkin c => Sys2Proof.Machine.execCheckin c s
  | .trap c sh => Sys2Proof.Machine.execTrap c sh s
  | .gate c => Sys2Proof.Machine.execGate c s
  | .di c => Sys2Proof.Machine.execDi c s
  | .ei c => Sys2Proof.Machine.execEi c s
  | .assayerHang => Sys2Proof.Machine.execAssayerHang s
  | .holdLimit => Sys2Proof.Machine.execHoldLimit s
  | .standbyReady => Sys2Proof.Machine.execStandbyReady s
  | .standbyTimeout => Sys2Proof.Machine.execStandbyTimeout s
  | .debugTokenAccept => Sys2Proof.Machine.execDebugTokenAccept s
  | .zeroizeDone => Sys2Proof.Machine.execZeroizeDone s
  | .closeMarkerWritten okA okB => Sys2Proof.Machine.execCloseMarkerWritten okA okB s
  | .powerOff => Sys2Proof.Machine.execPowerOff s
  | .getVersion conn => Sys2Proof.Machine.execGetVersion conn s
  | .getCapabilities conn => Sys2Proof.Machine.execGetCapabilities conn s
  | .negotiateAlgorithms conn offered => Sys2Proof.Machine.execNegotiateAlgorithms conn offered s
  | .getDigests conn => Sys2Proof.Machine.execGetDigests conn s
  | .getCertificate conn slot off len => Sys2Proof.Machine.execGetCertificate conn slot off len s
  | .challenge conn slot nonce => Sys2Proof.Machine.execChallenge conn slot nonce s
  | .getMeasurements conn index nonce => Sys2Proof.Machine.execGetMeasurements conn index nonce s
  | .keyExchange conn slot secret => Sys2Proof.Machine.execKeyExchange conn slot secret s
  | .finish conn session ok => Sys2Proof.Machine.execFinish conn session ok s
  | .endSession conn session => Sys2Proof.Machine.execEndSession conn session s
  | .vendorDefinedRequest conn vendor counter off len => Sys2Proof.Machine.execVendorDefinedRequest conn vendor counter off len s
  | .idcode => Sys2Proof.Machine.execIdcode s
  | .samplePreload => Sys2Proof.Machine.execSamplePreload s
  | .extest => Sys2Proof.Machine.execExtest s
  | .clamp => Sys2Proof.Machine.execClamp s
  | .highz => Sys2Proof.Machine.execHighz s
  | .dzToken t => Sys2Proof.Machine.execDzToken t s
  | .dzMbx off size v => Sys2Proof.Machine.execDzMbx off size v s
  | .dzDebug => Sys2Proof.Machine.execDzDebug s
  | .dzAssayer => Sys2Proof.Machine.execDzAssayer s
  | .bypass => Sys2Proof.Machine.execBypass s
  | .drowseGateStart pair => Sys2Proof.Machine.execDrowseGateStart pair s
  | .drowseGateDone pair => Sys2Proof.Machine.execDrowseGateDone pair s
  | .gatedPairWake pair => Sys2Proof.Machine.execGatedPairWake pair s
  | .idleTimerExpiry => Sys2Proof.Machine.execIdleTimerExpiry s
  | .sleepRequest => Sys2Proof.Machine.execSleepRequest s
  | .dormantDrainsDone subNs phase => Sys2Proof.Machine.execDormantDrainsDone subNs phase s
  | .i3cWakeMatch tile addr => Sys2Proof.Machine.execI3cWakeMatch tile addr s
  | .wakeReferenceGood ticks phase refA refB => Sys2Proof.Machine.execWakeReferenceGood ticks phase refA refB s
  | .wakeComplete badImages wakeUs => Sys2Proof.Machine.execWakeComplete badImages wakeUs s
  | .pwrPadsRelease mask => Sys2Proof.Machine.execPwrPadsRelease mask s
  | .testEnd id r => Sys2Proof.Machine.execTestEnd id r s
  | .loopbackFollow k => Sys2Proof.Machine.execLoopbackFollow k s
  | .injectionExpiry target unit => Sys2Proof.Machine.execInjectionExpiry target unit s
  | .registerWrite asr off size v => Sys2Proof.Machine.execRegisterWrite asr off size v s
  | .inventoryList mbx => Sys2Proof.Machine.execInventoryList mbx s
  | .powerStatus mbx => Sys2Proof.Machine.execPowerStatus mbx s
  | .powerState mbx => Sys2Proof.Machine.execPowerState mbx s
  | .powerDomain mbx => Sys2Proof.Machine.execPowerDomain mbx s
  | .powerDormant mbx => Sys2Proof.Machine.execPowerDormant mbx s
  | .powerIdle mbx => Sys2Proof.Machine.execPowerIdle mbx s
  | .powerTdp mbx => Sys2Proof.Machine.execPowerTdp mbx s
  | .powerPads mbx => Sys2Proof.Machine.execPowerPads mbx s
  | .tenantCreate mbx => Sys2Proof.Machine.execTenantCreate mbx s
  | .tenantGrant mbx => Sys2Proof.Machine.execTenantGrant mbx s
  | .tenantAssign mbx => Sys2Proof.Machine.execTenantAssign mbx s
  | .tenantLoad mbx => Sys2Proof.Machine.execTenantLoad mbx s
  | .tenantSeal mbx => Sys2Proof.Machine.execTenantSeal mbx s
  | .tenantUnseal mbx => Sys2Proof.Machine.execTenantUnseal mbx s
  | .tenantRekey mbx => Sys2Proof.Machine.execTenantRekey mbx s
  | .tenantStart mbx => Sys2Proof.Machine.execTenantStart mbx s
  | .tenantClose mbx => Sys2Proof.Machine.execTenantClose mbx s
  | .tenantStatus mbx => Sys2Proof.Machine.execTenantStatus mbx s
  | .coreMode mbx => Sys2Proof.Machine.execCoreMode mbx s
  | .coreStart mbx => Sys2Proof.Machine.execCoreStart mbx s
  | .corePark mbx => Sys2Proof.Machine.execCorePark mbx s
  | .coreStatus mbx => Sys2Proof.Machine.execCoreStatus mbx s
  | .coreRequalify mbx => Sys2Proof.Machine.execCoreRequalify mbx s
  | .corePolicy mbx => Sys2Proof.Machine.execCorePolicy mbx s
  | .memStatus mbx => Sys2Proof.Machine.execMemStatus mbx s
  | .memScrub mbx => Sys2Proof.Machine.execMemScrub mbx s
  | .memClear mbx => Sys2Proof.Machine.execMemClear mbx s
  | .memRepair mbx => Sys2Proof.Machine.execMemRepair mbx s
  | .memSpare mbx => Sys2Proof.Machine.execMemSpare mbx s
  | .memFlip mbx => Sys2Proof.Machine.execMemFlip mbx s
  | .cacheLock mbx => Sys2Proof.Machine.execCacheLock mbx s
  | .cacheUnlock mbx => Sys2Proof.Machine.execCacheUnlock mbx s
  | .cacheSlice mbx => Sys2Proof.Machine.execCacheSlice mbx s
  | .cacheStatus mbx => Sys2Proof.Machine.execCacheStatus mbx s
  | .fabricStatus mbx => Sys2Proof.Machine.execFabricStatus mbx s
  | .fabricRoute mbx => Sys2Proof.Machine.execFabricRoute mbx s
  | .fabricPort mbx => Sys2Proof.Machine.execFabricPort mbx s
  | .fabricGrant mbx => Sys2Proof.Machine.execFabricGrant mbx s
  | .fabricShare mbx => Sys2Proof.Machine.execFabricShare mbx s
  | .portStatus mbx => Sys2Proof.Machine.execPortStatus mbx s
  | .portConfig mbx => Sys2Proof.Machine.execPortConfig mbx s
  | .portAssign mbx => Sys2Proof.Machine.execPortAssign mbx s
  | .portEp mbx => Sys2Proof.Machine.execPortEp mbx s
  | .portCxlgrant mbx => Sys2Proof.Machine.execPortCxlgrant mbx s
  | .dmaAssign mbx => Sys2Proof.Machine.execDmaAssign mbx s
  | .dmaStatus mbx => Sys2Proof.Machine.execDmaStatus mbx s
  | .rasRead mbx => Sys2Proof.Machine.execRasRead mbx s
  | .timeGet mbx => Sys2Proof.Machine.execTimeGet mbx s
  | .timeSet mbx => Sys2Proof.Machine.execTimeSet mbx s
  | .daybookStatus mbx => Sys2Proof.Machine.execDaybookStatus mbx s
  | .daybookRead mbx => Sys2Proof.Machine.execDaybookRead mbx s
  | .daybookAttest mbx => Sys2Proof.Machine.execDaybookAttest mbx s
  | .testLoopback mbx => Sys2Proof.Machine.execTestLoopback mbx s
  | .testBist mbx => Sys2Proof.Machine.execTestBist mbx s
  | .testInject mbx => Sys2Proof.Machine.execTestInject mbx s
  | .testStatus mbx => Sys2Proof.Machine.execTestStatus mbx s
  | .mainCoreWfi h => Sys2Proof.Machine.execMainCoreWfi h s
  | .cxlMemResponse xid data poison => Sys2Proof.Machine.execCxlMemResponse xid data poison s
  | .loopbackRequestStop k => Sys2Proof.Machine.execLoopbackRequestStop k s
  | .perstInput g low => Sys2Proof.Machine.execPerstInput g low s

end Sys2Proof.Machine
end

