-- ==== Sys2Proof/Safety.lean ====
section
/-! DEFINITION. Safety.lean: the notions the statements about the whole machine are written in: its parts, what no command
may change, and the canonical form of what it stores. -/
namespace Sys2Proof.Machine

/-- The parts of State, its queue of commands apart. -/
inductive Part where
  | regs | chip | time | harts | cores | pairs | slots | policy | slices | mesh | mem | tenants | mbx | ras | outs | nextXid
  | fabric | groups | dma | clerk | cplx | toss | assayer | boot | tests | armed | power | due | journal | freeCtr
  deriving DecidableEq, Repr

/-- The part p of t is the part p of s. -/
def samePart (p : Part) (s t : State) : Prop :=
  match p with
  | .regs => t.regs = s.regs
  | .chip => t.chip = s.chip
  | .time => t.time = s.time
  | .harts => t.harts = s.harts
  | .cores => t.cores = s.cores
  | .pairs => t.pairs = s.pairs
  | .slots => t.slots = s.slots
  | .policy => t.policy = s.policy
  | .slices => t.slices = s.slices
  | .mesh => t.mesh = s.mesh
  | .mem => t.mem = s.mem
  | .tenants => t.tenants = s.tenants
  | .mbx => t.mbx = s.mbx
  | .ras => t.ras = s.ras
  | .outs => t.outs = s.outs
  | .nextXid => t.nextXid = s.nextXid
  | .fabric => t.fabric = s.fabric
  | .groups => t.groups = s.groups
  | .dma => t.dma = s.dma
  | .clerk => t.clerk = s.clerk
  | .cplx => t.cplx = s.cplx
  | .toss => t.toss = s.toss
  | .assayer => t.assayer = s.assayer
  | .boot => t.boot = s.boot
  | .tests => t.tests = s.tests
  | .armed => t.armed = s.armed
  | .power => t.power = s.power
  | .due => t.due = s.due
  | .journal => t.journal = s.journal
  | .freeCtr => t.freeCtr = s.freeCtr

/-- Every part. -/
def allParts : List Part :=
  [.regs, .chip, .time, .harts, .cores, .pairs, .slots, .policy, .slices, .mesh, .mem, .tenants, .mbx, .ras, .outs, .nextXid,
   .fabric, .groups, .dma, .clerk, .cplx, .toss, .assayer, .boot, .tests, .armed, .power, .due, .journal, .freeCtr]

/-- The parts that an access to a line may write, wherever it ends: the registers, the caches of harts and cores, slices,
DRAM, requests on their way, the fabric, and the logs, notices and interrupts of what it finds in error. -/
def lineParts : List Part :=
  [.regs, .harts, .cores, .slices, .mem, .tenants, .mbx, .ras, .outs, .nextXid, .fabric, .clerk, .freeCtr]

/-- The parts that a command may write; every other part it leaves as it was. -/
def touched (i : Instr) : List Part :=
  match i with
  | .vinGood .. | .vinLost .. | .powerOff .. => allParts.filter fun p => decide (p ≠ .freeCtr)
  | .strapsSampled .. => [.regs, .chip, .ras, .clerk, .freeCtr]
  | .resetNRise .. => allParts.filter fun p => decide (p ≠ .ras ∧ p ≠ .nextXid)
  | .startupStepComplete .. =>
    lineParts ++ [.chip, .pairs, .slots, .policy, .mesh, .groups, .cplx, .toss, .assayer, .boot, .due]
  | .startupStepTimeout .. => [.regs, .chip, .time, .mem, .tenants, .ras, .fabric, .groups, .clerk, .boot, .due]
  | .flashReadTimeout .. => [.boot]
  | .trainingStepDone .. => [.regs, .mem, .ras, .clerk, .freeCtr]
  | .trainingTimeout .. | .mr4Reading .. | .driftCheck .. | .alertDeassertTimeout .. | .selfRefreshExit .. =>
    [.regs, .mem, .ras, .clerk]
  | .fillComplete .. => [.regs, .mem, .freeCtr]
  | .linkWaitExpiry .. => [.regs, .time, .fabric, .boot]
  | .beatBoundary .. => allParts.filter fun p => decide (p ≠ .policy ∧ p ≠ .armed)
  | .slewDone .. => [.regs, .time]
  | .sensorRetire .. | .entropyHealthFail .. => [.regs, .chip, .ras, .clerk]
  | .commandStep .. => allParts.filter fun p => decide (p ≠ .time ∧ p ≠ .policy ∧ p ≠ .armed)
  | .fence .. | .pairModeWrite .. | .handoverComplete .. | .catchUpStart .. | .refreshRateReturn ..
  | .deviceSpare .. | .closeKeyErase .. | .rekeySweepDone .. | .tokenPass .. | .pwrPadsRelease .. =>
    [.due]
  | .guardInterrupt .. | .clerkInterruptEntry .. | .mgmtTimeout .. | .clerkIpiSend .. | .sll .. | .srl ..
  | .sra .. | .sllv .. | .srlv .. | .srav .. | .add .. | .sub .. | .and .. | .or .. | .xor .. | .nor .. | .slt ..
  | .sltu .. | .mul .. | .mulh .. | .mulhu .. | .clz .. | .addi .. | .andi .. | .ori .. | .xori .. | .slti ..
  | .sltiu .. | .lui .. | .lw .. | .lh .. | .lhu .. | .lb .. | .lbu .. | .beq .. | .bne .. | .blt .. | .bge ..
  | .bltu .. | .bgeu .. | .j .. | .jal .. | .mld .. | .mst .. | .mldd .. | .mstd .. | .wait .. | .eret ..
  | .msync .. | .trap .. | .gate .. | .di .. | .ei .. =>
    [.regs, .clerk]
  | .refclkLoss .. => [.regs, .time, .ras, .clerk]
  | .refclkRecovered .. | .refPrefWrite .. | .flipExpiry .. | .portRetrainDone .. => [.regs]
  | .xtal32Loss .. => [.regs, .chip]
  | .thermalTrip .. => [.regs, .chip, .mem, .fabric, .clerk, .freeCtr]
  | .inputCurrentLimit .. | .thermalHalving .. | .pairInjectB .. => [.regs, .pairs]
  | .mainCoreLoad .. | .mainCoreStore .. | .controlWindowAccess .. | .dmaPauseDone .. | .dmaResumeMarkBad ..
  | .dmaReadReturn .. | .descriptorComplete .. =>
    lineParts ++ [.pairs, .mesh, .groups, .dma]
  | .mainCoreAmo .. | .cboZero .. | .sliceFill .. | .maintenanceComplete .. | .rdShared .. | .rdOwn .. | .rdNc ..
  | .wrNc .. | .wrLine .. | .evict .. | .maint .. | .atomic .. | .snpInv .. | .snpShare .. | .snpRsp ..
  | .snpData .. | .serdesIngressRequest .. =>
    lineParts ++ [.pairs, .mesh, .groups]
  | .signalPageWrite .. => [.regs, .harts, .cores, .mem, .tenants, .ras, .groups, .clerk]
  | .cboClean .. | .cboFlush .. | .cboInval .. =>
    [.regs, .harts, .cores, .slices, .mem, .tenants, .ras, .outs, .nextXid, .fabric, .clerk, .freeCtr]
  | .prefetchHint .. | .dbypassSet .. | .snoopInvalidation .. | .sliceRequest .. | .l2Eviction .. =>
    lineParts ++ [.pairs, .groups]
  | .wrsSto .. | .wrsStoTimeout .. | .wrsNto .. | .contextKeyUpdate .. => [.harts]
  | .seedRead .. | .branchRetire .. | .dzpredctlClear .. => [.harts, .cores, .mem, .freeCtr]
  | .usefulHalving .. => [.cores]
  | .dbypassClear .. | .ibypassSet .. => [.regs, .harts, .cores, .mem, .freeCtr]
  | .coreInterrupt .. => [.regs, .harts, .cores, .mem]
  | .msiWrite .. => [.regs, .harts, .ras, .clerk]
  | .comparatorMismatch .. => [.regs, .harts, .pairs, .clerk]
  | .coreArrayError .. => lineParts ++ [.pairs, .groups, .boot, .due]
  | .captureComplete .. | .logicBistResult .. | .survivorDrainDone .. | .cachePreloadDone .. =>
    lineParts ++ [.pairs, .mesh, .groups, .due]
  | .arrayMarchResult .. => lineParts ++ [.pairs, .slots, .mesh, .groups, .due]
  | .stateCopyDone .. | .gatedPairWake .. => [.pairs, .due]
  | .hartResumeLibero .. => [.regs, .harts, .cores, .pairs, .mesh, .mbx, .ras, .clerk, .boot, .due]
  | .splitCoreError .. => lineParts ++ [.groups, .boot]
  | .maintenanceAccept .. => [.regs, .slices, .outs, .nextXid, .fabric, .freeCtr]
  | .sliceDrainWalkDone .. =>
    [.regs, .slices, .mesh, .mem, .tenants, .mbx, .ras, .outs, .nextXid, .fabric, .groups, .clerk, .due, .freeCtr]
  | .llcInjectDataCe .. | .llcInjectDataUe .. | .llcInjectTagPar .. => [.slices, .armed]
  | .dramRequest .. | .rtPortRequest .. | .cxlMemDeviceRequest .. =>
    [.regs, .mem, .tenants, .mbx, .ras, .groups, .clerk]
  | .commandOpportunity .. | .sealedSelection .. => [.regs, .harts, .cores, .mem, .tenants, .mbx, .ras, .clerk]
  | .rowIdleClose .. | .claimStart .. | .writeCrcWindowPass .. => [.mem]
  | .refreshOwed .. | .catchUpEnd .. | .recoveryEnd .. | .spareWindowClear .. | .patrolLapEnd .. => [.regs, .mem]
  | .dramReadReturn .. => [.regs, .mem, .mbx, .ras, .groups, .clerk]
  | .ddr5Alert .. => [.regs, .mem, .tenants, .ras, .clerk]
  | .mcInjectCaParity .. | .mcInjectWcrc .. => [.mem, .armed]
  | .rangeScrubEnd .. | .memScrub .. | .memRepair .. | .memFlip .. => [.regs, .mem, .mbx]
  | .softRepairDone .. => [.regs, .mem, .ras, .clerk, .due]
  | .sealDrainsDone .. | .unsealDrainDone .. | .drowseGateDone .. => lineParts ++ [.pairs, .groups, .due]
  | .functionResetDone .. | .identifyMemoryDevice .. | .getEventRecords .. | .clearEventRecords ..
  | .getPoisonList .. | .getSupportedLogs .. | .getLog .. | .setTimestamp .. | .cxlUnsupportedOpcode .. =>
    [.groups]
  | .linkStageDone .. | .keyingFlit .. => [.regs, .ras, .fabric, .clerk]
  | .linkStageTimeout .. | .linkRetryTimer .. | .nakReceived .. | .failureBankReady .. | .joinReport ..
  | .captainUnreachable .. | .memberUnreachable .. | .loopbackFollow .. | .loopbackRequestStop .. =>
    [.regs, .fabric]
  | .linkRekey .. | .commit .. | .epochGraceEnd .. => [.fabric]
  | .flitReceived .. | .ack .. => lineParts ++ [.pairs, .mesh, .groups, .dma, .journal]
  | .replayLimit .. | .blockLockLoss .. | .codewordTimeout .. | .helloTimeout .. | .fabricLaneFailure .. =>
    [.regs, .time, .tenants, .mbx, .ras, .fabric, .clerk, .freeCtr]
  | .fabricRetrainDone .. | .failureBankSwitch .. => [.regs, .fabric, .freeCtr]
  | .hello .. => [.regs, .ras, .fabric, .clerk, .freeCtr]
  | .captainSettle .. => [.regs, .time, .fabric, .freeCtr]
  | .linkStateNotice .. => [.regs, .tenants, .mbx, .fabric]
  | .routeTablesComputed .. | .tables .. | .tablesAck .. | .snoopResendTimeout .. => [.fabric, .freeCtr]
  | .tableSwitch .. => lineParts ++ [.time, .mesh, .groups]
  | .sharePlace .. => [.regs, .fabric, .due, .freeCtr]
  | .shareAck .. => [.regs, .tenants, .mbx, .fabric, .due, .freeCtr]
  | .sealQuery .. => [.regs, .mbx, .fabric, .freeCtr]
  | .beatMarker .. | .markerLoss .. => [.regs, .time, .fabric]
  | .retry .. | .grant .. => [.regs, .tenants, .ras, .outs, .fabric, .clerk, .freeCtr]
  | .err .. | .data .. | .poisonData .. | .requestErrorTimeout .. | .portRetrainTimeout .. | .serdesLinkDown ..
  | .rootPortCompletion .. | .completionTimeout .. | .cxlMemResponse .. =>
    lineParts ++ [.pairs, .groups, .dma, .journal]
  | .requestResendTimeout .. => [.outs, .fabric, .freeCtr]
  | .serdesLaneFailure .. | .ecamWrite .. => [.regs, .ras, .groups, .clerk]
  | .serdesLinkUp .. | .portTrainRetry .. => [.regs, .groups]
  | .getHealthInfo .. => [.groups, .freeCtr]
  | .dmaEnable .. | .dmaAbort .. | .dmaResumeRetry .. | .dmaBusError .. | .dmaRingFault .. =>
    [.regs, .ras, .dma, .clerk]
  | .dmaAbortDone .. => [.regs, .mem, .dma]
  | .dmaPauseSet .. | .dmaPauseClear .. | .dmaStop .. | .dmaTailWrite .. => [.regs, .ras, .clerk]
  | .dmaResumeDisable .. => [.regs, .mem, .ras, .dma, .clerk]
  | .descriptorFetched .. => lineParts ++ [.pairs, .groups, .dma]
  | .statusWriteAck .. => [.dma]
  | .doorbell .. | .resultAck .. | .noticeAck .. => [.regs, .mbx, .ras, .clerk]
  | .mctpRequest .. | .dzMbx .. => [.regs, .chip, .mbx, .clerk]
  | .i3cTransferTimeout .. | .idcode .. | .samplePreload .. | .dzDebug .. | .dzAssayer .. | .bypass ..
  | .perstInput .. =>
    [.chip]
  | .clerkClaim .. => [.regs, .ras, .clerk, .toss, .boot]
  | .bridgeLost .. => [.regs, .ras, .clerk, .toss, .boot, .due]
  | .peerPowerLost .. => [.toss, .boot, .due]
  | .clerkSramUe .. => [.clerk]
  | .mgmtResponse .. => lineParts ++ [.pairs, .mesh, .groups, .dma, .cplx, .armed, .due]
  | .sw .. | .sh .. | .sb .. => [.regs, .ras, .clerk, .toss, .assayer, .boot]
  | .jalr .. | .jalg .. | .checkin .. => [.regs, .clerk, .assayer]
  | .assayerHang .. | .standbyTimeout .. => [.regs, .ras, .clerk, .assayer, .boot]
  | .holdLimit .. => [.regs, .ras, .clerk, .assayer]
  | .standbyReady .. | .debugTokenAccept .. => [.assayer, .boot]
  | .zeroizeDone .. | .getVersion .. | .getCapabilities .. | .negotiateAlgorithms .. | .getDigests ..
  | .getCertificate .. | .challenge .. | .getMeasurements .. | .finish .. | .endSession ..
  | .vendorDefinedRequest .. =>
    [.assayer]
  | .closeMarkerWritten .. => [.boot, .power, .due]
  | .keyExchange .. => [.assayer, .freeCtr]
  | .extest .. | .clamp .. | .highz .. => [.chip, .boot]
  | .dzToken .. => [.chip, .assayer]
  | .drowseGateStart .. => [.pairs]
  | .idleTimerExpiry .. | .i3cWakeMatch .. => [.regs, .power]
  | .sleepRequest .. => lineParts ++ [.time, .pairs, .slots, .groups, .dma, .tests, .power, .due, .journal]
  | .dormantDrainsDone .. => lineParts ++ [.time, .groups, .power]
  | .wakeReferenceGood .. => [.regs, .time, .power, .due]
  | .wakeComplete .. => [.regs, .power, .due, .freeCtr]
  | .testEnd .. => [.regs, .harts, .pairs, .slots, .tests, .due, .freeCtr]
  | .injectionExpiry .. => [.pairs, .slices, .mem, .armed]
  | .registerWrite .. => lineParts ++ [.pairs, .mesh, .groups, .dma, .armed, .due]
  | .inventoryList .. | .powerStatus .. | .powerIdle .. | .powerTdp .. | .tenantStatus .. | .coreStatus ..
  | .memStatus .. | .cacheStatus .. | .fabricStatus .. | .fabricRoute .. | .portStatus .. | .dmaStatus ..
  | .timeGet .. | .daybookStatus .. | .daybookRead .. =>
    [.regs, .mbx]
  | .powerState .. | .powerDormant .. => [.regs, .mbx, .power]
  | .powerDomain .. | .tenantStart .. | .coreMode .. | .memSpare .. | .fabricPort .. | .portEp .. | .dmaAssign ..
  | .daybookAttest .. =>
    [.regs, .mbx, .journal]
  | .powerPads .. | .fabricGrant .. => [.regs, .mbx, .due]
  | .tenantCreate .. | .tenantRekey .. => [.regs, .mem, .mbx, .journal]
  | .tenantGrant .. => [.regs, .harts, .pairs, .mem, .mbx, .fabric, .clerk, .due, .journal, .freeCtr]
  | .tenantAssign .. | .tenantUnseal .. | .tenantClose .. | .corePark .. => [.regs, .tenants, .mbx, .journal]
  | .tenantLoad .. => lineParts ++ [.pairs, .groups, .due, .journal]
  | .tenantSeal .. => [.regs, .mesh, .tenants, .mbx, .journal]
  | .coreStart .. | .portConfig .. => [.regs, .mbx, .due, .journal]
  | .coreRequalify .. => [.regs, .pairs, .mbx]
  | .corePolicy .. => [.regs, .policy, .mbx]
  | .memClear .. =>
    [.regs, .harts, .cores, .pairs, .slices, .mem, .tenants, .mbx, .ras, .fabric, .groups, .clerk, .due, .freeCtr]
  | .cacheLock .. => [.regs, .mesh, .mbx, .freeCtr]
  | .cacheUnlock .. => [.regs, .slices, .mesh, .mbx]
  | .cacheSlice .. => [.regs, .slices, .mbx, .journal]
  | .fabricShare .. => [.regs, .mbx, .fabric, .journal, .freeCtr]
  | .portAssign .. => [.regs, .mbx, .groups, .journal]
  | .portCxlgrant .. => [.regs, .mbx, .outs, .nextXid, .fabric, .journal, .freeCtr]
  | .rasRead .. => [.regs, .mbx, .ras]
  | .timeSet .. => [.regs, .time, .mbx, .journal]
  | .testLoopback .. | .testBist .. => [.regs, .mbx, .tests, .journal]
  | .testInject .. => [.regs, .pairs, .slices, .mem, .mbx, .armed]
  | .testStatus .. => [.regs, .mbx, .tests]
  | .mainCoreWfi .. => [.regs, .harts]

/-- What is fused into the chip when it is made (R2, R234, chapter 14): its variant, identity, Toss preference, the hash of the
owner's key, serial number, unique device secret, stepping and variant mask. -/
def fusedOf (s : State) : Variant × Nat × Nat × Nat × Nat × Nat × Nat × Nat :=
  (s.chip.variant, s.chip.uid, s.chip.tossPref, s.chip.ownerKeyHash, s.chip.serial, s.chip.uds, s.chip.stepping,
   s.chip.variantMask)

/-- The DRAM of every channel is in canonical form: keys rise, and no entry equals what an unlisted key reads as. -/
def dramWf (t : Table Chan) : Bool := twf {} t && t.all fun e => twf {} e.2.lines

/-- Memory.wf of the block: the register file and the DRAM are in canonical form. -/
def Memory.wf (s : State) : Bool := twf 0 s.regs && dramWf s.mem.chans

/-! ## What the statements observe -/

/-- The platform log of t ends with a record that s did not hold: class, kind, unit and cause as given, detected in the beat
that s is in (R423, R424). -/
def recordedIn (cls kind unit cause : Nat) (s t : State) : Prop :=
  ∃ r, t.ras.platform.recs.getLast? = some r ∧ r.seq = s.ras.platform.next ∧ r.beat = beat s ∧ r.cls = cls ∧
    r.kind = kind ∧ r.unit = unit ∧ r.cause = cause

/-- Mailbox i of s holds a taken command with this code, to be carried out, whose copied command area is c (R339). -/
def takenAs (s : State) (i code : Nat) (c : Bytes) : Prop := takenCmd s i code = some c

/-- In t mailbox i has the DONE result of its command staged in the beat of s: the code of the command, the sequence number,
the count of clamped fields and the result data (R340, R345). -/
def doneIn (s t : State) (i clamped : Nat) (data : Bytes) : Prop :=
  (mbxOf t i).phase = .staged ∧
  (mbxOf t i).staged = some (beat s,
    ⟨2, min clamped 0xFFFF, argCode (mbxOf s i).copy, rd s (mbxSeqSeq i), (mbxOf s i).taken, 0, data⟩)

/-- In t the command of mailbox i goes on over later boundaries: it has started and no result is staged (R341, R346). -/
def goesOn (t : State) (i : Nat) : Prop := (mbxOf t i).phase = .started

/-- Every register field but those listed reads in t as in s. -/
def otherFields (l : List Fld) (s t : State) : Prop := ∀ f : Fld, (∀ g ∈ l, fkey f ≠ fkey g) → rd t f = rd s f

/-- A counter field of t stands n above its value in s, or at its largest value. -/
def counted (f : Fld) (n : Nat) (s t : State) : Prop := rd t f = min (rd s f + n) (2 ^ f.w - 1)

/-- The fields that show a Clerk core's pending interrupts, which every record placed in a log raises (R322). -/
def irqFields : List Fld := clerkCores.map clerkIpPending

/-! ## What the statements observe of a Clerk or Assayer core -/

/-- Core c runs, and its issue latch holds the word w fetched from a (R315). -/
def clkAt (s : State) (c a w : Nat) : Prop := (clkOf s c).st = .running ∧ ∃ rest, (clkOf s c).fetch = (a, some w) :: rest

/-- The registers of core c after an instruction: its own result, else the load that was pending, else as before; w0 is 0
(R313, R317). -/
def regsAfter (c : Nat) (res : Option (Nat × Nat)) (s t : State) : Prop :=
  ∀ i, i ≠ 0 → regW (clkOf t c) i =
    match res with
    | some (d, v) => if i = d then v % 2 ^ 32 else pendingOr s i
    | none => pendingOr s i
where
  pendingOr (s : State) (i : Nat) : Nat :=
    match (clkOf s c).load with
    | some (d, v) => if i = d then v % 2 ^ 32 else regW (clkOf s c) i
    | none => regW (clkOf s c) i

/-- Core c took `cost` Clerk cycles within the beat (R316). -/
def tookCycles (c cost : Nat) (s t : State) : Prop := rd t (clerkSliceCycle c) = min 1499 (rd s (clerkSliceCycle c) + cost)

/-- The other cores stand as they did. -/
def otherCores (c : Nat) (s t : State) : Prop := ∀ k, k ≠ c → clkOf t k = clkOf s k

/-- An instruction that is no branch completed: its result, the load it leaves pending, the next word in the latch. -/
def retires (c cost : Nat) (res ld : Option (Nat × Nat)) (s t : State) : Prop :=
  regsAfter c res s t ∧ (clkOf t c).load = ld ∧ (clkOf t c).slot = none ∧ (clkOf s c).fetch.tail <+: (clkOf t c).fetch ∧
    tookCycles c cost s t ∧ otherCores c s t

/-- Memory of the core, its outstanding accesses and every register field but the cycle count are as before. -/
def sameLocal (c : Nat) (s t : State) : Prop :=
  (clkOf t c).sram = (clkOf s c).sram ∧ (clkOf t c).outst = (clkOf s c).outst ∧ otherFields [clerkSliceCycle c] s t

/-- An exception of the instruction in the latch was taken: the saved registers, interrupts off, and fetch from the vector
(R322, R323). -/
def trapped (c code tval : Nat) (s t : State) : Prop :=
  rd t (clerkCauseCode c) = code ∧ rd t (clerkCauseInterrupt c) = 0 ∧ rd t (clerkTvalValue c) = tval % 2 ^ 32 ∧
  rd t (clerkStatusIe c) = 0 ∧ rd t (clerkStatusPie c) = rd s (clerkStatusIe c) % 2 ∧
  (match (clkOf s c).slot with
    | some q => rd t (clerkEpcEpc c) = q.br % 2 ^ 32 ∧ rd t (clerkCauseBd c) = 1 ∧ rd t (clerkCauseTaken c) = q.taken.toNat ∧
        rd t (clerkBtargetTarget c) = q.target % 2 ^ 32
    | none => rd t (clerkCauseBd c) = 0 ∧ ∀ e, (clkOf s c).fetch.head? = some e → rd t (clerkEpcEpc c) = e.1 % 2 ^ 32) ∧
  (clkOf t c).fetch.head?.map (·.1) = some ((rd s (clerkVectorBase c) * 4096 + code * 0x40) % 2 ^ 32) ∧
  regsAfter c none s t ∧ (clkOf t c).load = none ∧ (clkOf t c).slot = none ∧ (clkOf t c).st = .running ∧
  (clkOf t c).sram = (clkOf s c).sram ∧ (clkOf t c).outst = (clkOf s c).outst ∧ tookCycles c 3 s t ∧ otherCores c s t ∧
  otherFields [clerkCauseCode c, clerkCauseInterrupt c, clerkCauseBd c, clerkCauseTaken c, clerkTvalValue c, clerkStatusIe c,
    clerkStatusPie c, clerkEpcEpc c, clerkBtargetTarget c, clerkSliceCycle c] s t

/-- A branch at a was resolved (R319, R320): the delay slot it leaves, or none when it is suppressed; the path ahead, fetched
again where the guess was wrong. -/
def branched (c a target : Nat) (taken guess an : Bool) (res : Option (Nat × Nat)) (cost : Nat) (s t : State) : Prop :=
  regsAfter c res s t ∧ (clkOf t c).load = none ∧
  (clkOf t c).slot = (if an && !taken then none else some ⟨a, target, taken⟩) ∧
  (taken = guess → (if an && !taken then (clkOf s c).fetch.tail.tail else (clkOf s c).fetch.tail) <+: (clkOf t c).fetch) ∧
  (taken = true → guess = false → ((clkOf t c).fetch.map (·.1)).take 2 = [(a + 4) % 2 ^ 32, target]) ∧
  (taken = false → guess = true →
    (clkOf t c).fetch.head?.map (·.1) = some ((if an then a + 8 else a + 4) % 2 ^ 32)) ∧
  tookCycles c (cost + (an && !taken).toNat) s t ∧ otherCores c s t ∧ sameLocal c s t

/-- The request that a checked DRAM access becomes, in class cls and from real-time port `port` (R147). -/
def reqOf (s : State) (q : DAcc) (cls port : Nat) : DReq :=
  { line := q.pa % 2 ^ 46 / 64, tag := q.tag, write := q.write, data := q.data, cls, port, dest := q.dest, beatIn := beat s,
    seq := s.mem.nextReq }

/-- A conditional branch at a of outcome taken has issued: its target lies off words after it, hi is its static guess and an
annuls the delay slot when it is not taken (R319, R320). -/
def branchDone (c a an hi off : Nat) (taken : Bool) (s t : State) : Prop :=
  branched c a ((a + 4 * sx 14 off) % 2 ^ 32) taken (hi == 1) (an == 1) none (if taken = (hi == 1) then 1 else 3) s t

/-- The management access q of core c has issued and waits for its answer (R321). -/
def mgmtIssued (c : Nat) (q : MReq) (s t : State) : Prop :=
  retires c 1 none none s t ∧ (clkOf t c).sram = (clkOf s c).sram ∧ (clkOf t c).outst = (clkOf s c).outst ++ [q] ∧
  rd t (clerkMstatOutstanding c) = (clkOf s c).outst.length + 1 ∧
  otherFields [clerkSliceCycle c, clerkMstatOutstanding c] s t

/-- The bytes of core c's SRAM: n bytes of v from x on, every other byte as before (R318). -/
def sramStored (c x n v : Nat) (s t : State) : Prop :=
  ∀ y, tget 0 (clkOf t c).sram y = if x ≤ y ∧ y < x + n then v / 256 ^ (y - x) % 256 else tget 0 (clkOf s c).sram y

/-! ## What the statements observe of a hart -/

/-- The memory controllers stand as they did; only what readers had asked for of lines at their homes may differ. -/
def dramKept (s t : State) : Prop := t.mem = { s.mem with reads := t.mem.reads, held := t.mem.held }

/-- The translation of an access needs no walk: a TLB of its core holds it, or nothing is read for it (Table 3.3). -/
def noWalk (s : State) (h : Nat) (a : MemAcc) : Prop := walker s h a = none ∨ a.walk = []

/-- The other harts stand as they did. -/
def otherHarts (h : Nat) (s t : State) : Prop := ∀ k, k ≠ h → hartOf t k = hartOf s k

/-- The counter CSRs and their event selectors, which every retired instruction and every event may change (R79). -/
def counterCsr (n : Nat) : Bool := (decide (0xB00 ≤ n) && decide (n ≤ 0xB12)) || (decide (0x323 ≤ n) && decide (n ≤ 0x332))

/-- Every CSR of hart h but its counters is as before. -/
def csrsKept (h : Nat) (s t : State) : Prop :=
  ∀ n, counterCsr n = false → tget 0 (hartOf t h).csr n = tget 0 (hartOf s h).csr n

/-- Mode, floating-point and vector registers, CSRs but the counters, reservation and last exception of hart h are as before. -/
def hartKept (h : Nat) (s t : State) : Prop :=
  (hartOf t h).priv = (hartOf s h).priv ∧ (hartOf t h).fp = (hartOf s h).fp ∧ (hartOf t h).vec = (hartOf s h).vec ∧
  (hartOf t h).resv = (hartOf s h).resv ∧ (hartOf t h).exc = (hartOf s h).exc ∧ csrsKept h s t

/-- The same, and its pc. -/
def hartRest (h : Nat) (s t : State) : Prop := (hartOf t h).pc = (hartOf s h).pc ∧ hartKept h s t

/-- Integer register r of hart h took the value v; x0 takes none, and every other register is as before. -/
def gotX (h r v : Nat) (s t : State) : Prop :=
  ∀ i, i ≠ 0 → tget 0 (hartOf t h).x i = if i = r then v % 2 ^ 64 else tget 0 (hartOf s h).x i

/-- Every L2 holds the lines it held. -/
def sameL2 (s t : State) : Prop := ∀ c line, l2Of t c line = l2Of s c line

/-- Hart h raised an exception at the instruction at pc, which changed nothing else (R73); what its cores had begun ahead of it
is discarded, the misses that wait in their miss queues among it (R64, R66). A vector access names its element in vstart (R74). -/
def raised (h pc cause tval : Nat) (s t : State) : Prop :=
  (hartOf t h).exc = some ⟨cause, tval, pc⟩ ∧ (hartOf t h).x = (hartOf s h).x ∧ (hartOf t h).fp = (hartOf s h).fp ∧
  (hartOf t h).vec = (hartOf s h).vec ∧ (hartOf t h).resv = (hartOf s h).resv ∧
  (∀ n, counterCsr n = false → n ≠ 0x008 → tget 0 (hartOf t h).csr n = tget 0 (hartOf s h).csr n) ∧ otherHarts h s t ∧ sameL2 s t ∧
  (∀ c, (coreOf t c).pred = (coreOf s c).pred) ∧ (∀ c ∈ coresOfHart s h, (coreOf t c).missQ = []) ∧
  samePart .slices s t ∧ dramKept s t ∧ samePart .outs s t

/-- No prefetcher of hart h is enabled (R68, R75). -/
def quiet (s : State) (h : Nat) : Prop := rdB s (dzprefetchL1StrideEn h) = false ∧ rdB s (dzprefetchL2StreamEn h) = false

/-- The pair of hart h has no inverted write-data output armed (R109). -/
def noInvert (s : State) (h : Nat) : Prop := ∀ p, pairOfHart s h = some p → invertArmed s p = false

/-- Hart h's pair has one armed: the comparator saw the data that the pair was to put out, froze pair and hart, and no cache, slice,
memory or other device has it (R86, R109). -/
def comparedBad (h : Nat) (s t : State) : Prop :=
  ∀ p, pairOfHart s h = some p → rd t (pairStatusState p) = 5 ∧ rd t (pairCmpStatusBus p) = 1 ∧ (pairOf t p).invert = false ∧
    (hartOf t (2 * rd s (pairStatusSlot p))).st = .frozen ∧ sameL2 s t ∧ samePart .slices s t ∧ samePart .mem s t ∧
    samePart .outs s t

/-- An access of hart h that its core answers from its L2: no walk, no fault, cacheable main memory, within one line, which the core
holds under the hart's tag. -/
def l2Hit (s : State) (h : Nat) (a : MemAcc) (core : Nat) (l : CLine) : Prop :=
  hartRuns s h = true ∧ a.size ≠ 0 ∧ noWalk s h a ∧ isMain a.pa = true ∧ bypassed s h a = false ∧ coreOfHart s h = some core ∧
  a.size ≤ 64 - a.pa % 64 ∧ l2Of s core (lineOf a.pa) = some l ∧ l.tag = ownerOf s h ∧ l.poison = false

/-- Hart h may send a request to device or port dev now: none of its own is outstanding, and a port has a free tag (R67, R267). -/
def mayAsk (s : State) (h dev : Nat) : Prop := hartWaits s h = false ∧ (64 ≤ dev → ∀ o, tagsFull s (dev - 64) o = false)

/-- In t a request stands behind those of s, under the next number: where it goes, what it asks of which address under which tag, and
who waits for it; registers of harts, slices and memory are as before. -/
def askedFor (dev kind pa tag : Nat) (origin : Origin) (s t : State) : Prop :=
  (∃ o, t.outs = s.outs ++ [o] ∧ o.xid = s.nextXid ∧ o.dev = dev ∧ o.kind = kind ∧ o.pa = pa ∧ o.tag = tag ∧ o.origin = origin) ∧
  samePart .harts s t ∧ samePart .slices s t ∧ samePart .mem s t

/-- Slice n has accepted operation e of hart h, which waits for it (R60): in its queue where its share has room and none of that share
waits outside, else behind those (R120); the home of another device's line is asked too (R126). -/
def cboTaken (h n : Nat) (e : AmqEnt) (s t : State) : Prop :=
  (hartOf t h).cbo = some e.line ∧ hartRuns t h = false ∧ (hartOf t h).x = (hartOf s h).x ∧ hartRest h s t ∧ otherHarts h s t ∧
  (sliceOf t n).lines = (sliceOf s n).lines ∧ samePart .mem s t ∧
  (amqRoom s n e.tag (sliceOf s n).amq = true → (∀ x ∈ (sliceOf s n).outside, sameShare s n e.tag x.tag = false) →
    (sliceOf t n).amq = (sliceOf s n).amq ++ [e] ∧ (sliceOf t n).outside = (sliceOf s n).outside) ∧
  (amqRoom s n e.tag (sliceOf s n).amq = false →
    (sliceOf t n).amq = (sliceOf s n).amq ∧ (sliceOf t n).outside = (sliceOf s n).outside ++ [e]) ∧
  (ownLine s e.line = true → t.outs = s.outs) ∧
  (ownLine s e.line = false → ∃ o, t.outs = s.outs ++ [o] ∧ o.kind = 7 ∧ o.dev = outDev s e.line ∧ o.pa = e.line * 64 ∧
    o.tag = e.tag ∧ o.op = e.op ∧ o.origin = .maint n e.core)

/-- What the home does with request q, which arrives as command i, up to the slice (R244, R248, R249, R251, R253): a duplicate gets
the answer again, a source without a tracker waits, a refused request is answered with an error that its tracker keeps, one of a
line goes to its home slice, or waits for the line's operation or for the snoops that it needs; one of an I/O window goes to the
group's link. -/
def homeTakes (i : Instr) (q : Pkt) (s : State) : Prop :=
  let line := lineOf q.pa
  let n := homeSlice s q.tag line
  let s1 := modFab (fun f => { f with trackers := f.trackers ++ [⟨q, none⟩] }) s
  (∀ k r, trkOf s q.src q.xid = some k → k.resp = some r → exec i s = .next (sendPkt r s)) ∧
  (∀ k, trkOf s q.src q.xid = some k → k.resp = none → exec i s = .next s) ∧
  (trkOf s q.src q.xid = none → trackerFree s q.src = false → ∃ t, exec i s = .next t ∧
    t.fabric.starved = s.fabric.starved ++ [(q.src, q.xid)] ∧ t.fabric.trackers = s.fabric.trackers ∧ samePart .mem s t ∧
    samePart .slices s t) ∧
  (trkOf s q.src q.xid = none → trackerFree s q.src = true →
    (granted s q.src q.tag = false → q.mgmt = false → ∃ t, exec i s = .next t ∧ counted fabEventsRefused 1 s t ∧
      recordedIn 5 5 (portToward s q.src) 0x0B02 s t ∧
      t.fabric.trackers = s.fabric.trackers ++ [⟨q, some (respPkt q 0x20 3 0)⟩] ∧ samePart .mem s t ∧
      samePart .slices s t ∧ (tenantOf t q.tag).refused = (tenantOf s q.tag).refused + 1) ∧
    (admits s q = true → canServe s q = false → ∃ t, exec i s = .next t ∧
      recordedIn 5 5 (portToward s q.src) 0x0B02 s t ∧
      t.fabric.trackers = s.fabric.trackers ++ [⟨q, some (respPkt q 0x20 3 0)⟩] ∧ samePart .mem s t ∧
      samePart .slices s t ∧ (tenantOf t q.tag).refused = (tenantOf s q.tag).refused + 1 ∧
      (∀ g, regionOf (offOf q.pa) = .io g → ioAt s g q.tag q.pa q.size = .refused →
        counted (portRefusedRefused (portBase g (portAt s g q.pa))) 1 s t)) ∧
    (admits s q = true → canServe s q = true →
      (regionOf (offOf q.pa) = .dram ∨ regionOf (offOf q.pa) = .cxl →
        (q.kind = 5 ∨ q.kind = 6 → exec i s = .next (performReq q s1)) ∧
        (q.kind ≠ 5 → q.kind ≠ 6 → lineBusy s q.tag line = true → exec i s = .next (countWait (pktReader q) q.tag line s1)) ∧
        (q.kind ≠ 5 → q.kind ≠ 6 → lineBusy s q.tag line = false → wayClear s n line (needExcl q) (mayKeep q) = true →
          exec i s = .next (performReq q s1)) ∧
        (q.kind ≠ 5 → q.kind ≠ 6 → lineBusy s q.tag line = false → wayClear s n line (needExcl q) (mayKeep q) = false →
          exec i s = .next (clearWay n line (needExcl q) (mayKeep q) s1))) ∧
      (∀ g, regionOf (offOf q.pa) = .io g → exec i s = .next (serveIo g q s1 (ioAt s g q.tag q.pa q.size))) ∧
      (regionOf (offOf q.pa) = .control → ∃ t, exec i s = .next t ∧ samePart .mem s t ∧ samePart .slices s t ∧
        t.fabric.trackers = s.fabric.trackers ++ [⟨q, some (respPkt q (if q.kind = 3 then 0x30 else 0x20) 0 0)⟩])))

/-- Request q of a line of this device's DRAM is accepted at home slice n, which holds the line as l under the request's tag, good and
with no copy in a core, and nothing stands in the way of it or is under way for it. -/
def homeHolds (s : State) (q : Pkt) (n line : Nat) (l : SLine) : Prop :=
  trkOf s q.src q.xid = none ∧ trackerFree s q.src = true ∧ admits s q = true ∧ canServe s q = true ∧
  regionOf (offOf q.pa) = .dram ∧ lineBusy s q.tag line = false ∧ wayClear s n line (needExcl q) (mayKeep q) = true ∧
  dirOf s n line = none ∧
  arrOf s n line = some l ∧ l.tag = q.tag ∧ l.err = 0 ∧ l.tagErr = false ∧ l.poison = false

/-- In t the trackers are those of s and one more, of request q, with this answer kept (R248). -/
def answeredTrk (q r : Pkt) (s t : State) : Prop := t.fabric.trackers = s.fabric.trackers ++ [⟨q, some r⟩]

/-- The flash contents of t are those of s: the Daybook regions and the event journal (R380, R381). -/
def sameFlash (s t : State) : Prop :=
  t.boot.dayA = s.boot.dayA ∧ t.boot.dayB = s.boot.dayB ∧ t.boot.journal = s.boot.journal

/-- What EXTEST, CLAMP and HIGHZ leave (R438): loaded where platform invasive debug is enabled and no step after 3 has begun,
and the boot then held; else the bypass code and no other effect. -/
def pinsTaken (code : Nat) (s t : State) : Prop :=
  (∀ p, p ≠ .chip → p ≠ .boot → samePart p s t) ∧
  (enabled s 1 = true → s.boot.step ≤ 3 → t.chip.tapIr = code ∧ t.boot.hold = true ∧ t.boot.step = s.boot.step) ∧
  (enabled s 1 = false ∨ 3 < s.boot.step → t.chip.tapIr = 0xFF ∧ samePart .boot s t)

end Sys2Proof.Machine
end

