-- ==== Sys2Proof/WellFormed.lean ====
section
/-! DEFINITION. WellFormed.lean: which operands name a unit, a register or a field, and the numbers each kind admits. A
command whose unit is out of range or absent changes nothing (log entry 13); well-formedness is about the command alone. -/
namespace Sys2Proof

/-- Kinds of operand that have a limit. -/
inductive OperandKind where
  /-- hart ID (R5). -/
  | hart
  /-- pair (Table 0.2). -/
  | pair
  /-- core, pair * 2 + core. -/
  | core
  /-- core of a pair, 0 A and 1 B. -/
  | half
  /-- LLC slice. -/
  | slice
  /-- tile. -/
  | tile
  /-- memory channel. -/
  | chan
  /-- subchannel. -/
  | sub
  /-- rank. -/
  | rank
  /-- entry of MC_SEAL_BLOCK. -/
  | block
  /-- mailbox (Table 13.1). -/
  | mailbox
  /-- party that names itself by a tenancy or a mailbox number, or as the Clerk (512) or the Assayer (513) to a DMA channel (R294). -/
  | tag
  /-- tenancy. -/
  | tenancy
  /-- flash A or B. -/
  | flash
  /-- REFCLK A or B. -/
  | ref
  /-- fabric port. -/
  | fabPort
  /-- device ID (R21). -/
  | device
  /-- lane of a fabric port. -/
  | lane8
  /-- SERDES group. -/
  | group
  /-- port of a group. -/
  | portOf
  /-- bus, device and function number. -/
  | function
  /-- DMA channel, engine * 32 + channel. -/
  | dmaChan
  /-- Clerk complex, 0 north and 1 south. -/
  | complex
  /-- Clerk core, the Assayer cores being 8 and 9. -/
  | clerkCore
  /-- register of a Clerk core (R313). -/
  | clerkReg
  /-- register x0 to x31 of a hart. -/
  | coreReg
  /-- register a load writes: x0 to x31, f0 to f31 from 32, and element e of vector register v as 64 + 32 e + v. -/
  | destReg
  /-- kind of a request that enters through a SerDes port. -/
  | reqKind
  /-- field sh (R314). -/
  | sh5
  /-- field imm (R314). -/
  | imm16
  /-- branch offset (R314). -/
  | off14
  /-- jump offset (R314). -/
  | off26
  /-- one-bit field. -/
  | bit
  deriving DecidableEq, Repr

/-- The numbers of a kind lie below this. -/
def OperandKind.limit : OperandKind → Nat
  | .hart => 256
  | .pair => 136
  | .core => 272
  | .half => 2
  | .slice => 128
  | .tile => 8
  | .chan => 16
  | .sub => 2
  | .rank => 2
  | .block => 64
  | .mailbox => 260
  | .tag => 514
  | .tenancy => 257
  | .flash => 2
  | .ref => 2
  | .fabPort => 6
  | .device => 64
  | .lane8 => 8
  | .group => 8
  | .portOf => 4
  | .function => 65536
  | .dmaChan => 64
  | .complex => 2
  | .clerkCore => 10
  | .clerkReg => 32
  | .coreReg => 32
  | .destReg => 1088
  | .reqKind => 7
  | .sh5 => 32
  | .imm16 => 65536
  | .off14 => 16384
  | .off26 => 67108864
  | .bit => 2

/-- The operands of a command that have a limit, with their kinds. -/
def operandsOf : Instr → List (OperandKind × Nat)
  | .vinGood _ _ => []
  | .vinLost _ _ => []
  | .strapsSampled _ => []
  | .resetNRise _ => []
  | .startupStepComplete _ _ => []
  | .startupStepTimeout _ => []
  | .flashReadTimeout flash _ => [(.flash, flash)]
  | .trainingStepDone c _ => [(.chan, c)]
  | .trainingTimeout c => [(.chan, c)]
  | .fillComplete c => [(.chan, c)]
  | .linkWaitExpiry => []
  | .beatBoundary _ => []
  | .slewDone => []
  | .sensorRetire _ => []
  | .commandStep mbx _ => [(.mailbox, mbx)]
  | .fence _ => []
  | .guardInterrupt => []
  | .refclkLoss ref _ _ => [(.ref, ref)]
  | .refclkRecovered ref _ => [(.ref, ref)]
  | .refPrefWrite _ => []
  | .xtal32Loss _ => []
  | .thermalTrip _ _ => []
  | .inputCurrentLimit _ _ => []
  | .thermalHalving pair _ => [(.pair, pair)]
  | .entropyHealthFail tile => [(.tile, tile)]
  | .mainCoreLoad h _ rd _ => [(.hart, h), (.destReg, rd)]
  | .mainCoreStore h _ _ _ => [(.hart, h)]
  | .mainCoreAmo h _ _ _ _ rd _ => [(.hart, h), (.coreReg, rd)]
  | .controlWindowAccess h _ _ _ rd _ _ _ => [(.hart, h), (.coreReg, rd)]
  | .signalPageWrite h _ _ _ => [(.hart, h)]
  | .cboClean h _ _ => [(.hart, h)]
  | .cboFlush h _ _ => [(.hart, h)]
  | .cboInval h _ _ => [(.hart, h)]
  | .cboZero h _ _ _ => [(.hart, h)]
  | .prefetchHint h _ _ _ => [(.hart, h)]
  | .wrsSto h => [(.hart, h)]
  | .wrsStoTimeout h _ => [(.hart, h)]
  | .wrsNto h => [(.hart, h)]
  | .seedRead h rd _ => [(.hart, h), (.coreReg, rd)]
  | .contextKeyUpdate h _ => [(.hart, h)]
  | .branchRetire h _ _ _ _ _ => [(.hart, h)]
  | .usefulHalving core => [(.core, core)]
  | .dzpredctlClear h => [(.hart, h)]
  | .dbypassSet h => [(.hart, h)]
  | .dbypassClear h => [(.hart, h)]
  | .ibypassSet h => [(.hart, h)]
  | .coreInterrupt h _ _ => [(.hart, h)]
  | .snoopInvalidation core _ _ => [(.core, core)]
  | .msiWrite tag h _ _ => [(.tag, tag), (.hart, h)]
  | .comparatorMismatch pair _ _ _ => [(.pair, pair)]
  | .coreArrayError pair core _ => [(.pair, pair), (.half, core)]
  | .captureComplete pair => [(.pair, pair)]
  | .logicBistResult pair _ _ => [(.pair, pair)]
  | .arrayMarchResult pair _ _ => [(.pair, pair)]
  | .survivorDrainDone pair => [(.pair, pair)]
  | .stateCopyDone pair _ => [(.pair, pair)]
  | .hartResumeLibero pair => [(.pair, pair)]
  | .splitCoreError pair core _ _ => [(.pair, pair), (.half, core)]
  | .pairInjectB pair => [(.pair, pair)]
  | .pairModeWrite pair _ => [(.pair, pair)]
  | .sliceRequest core _ tag _ _ => [(.core, core), (.tag, tag)]
  | .sliceFill slice _ => [(.slice, slice)]
  | .maintenanceAccept slice core _ tag _ => [(.slice, slice), (.core, core), (.tag, tag)]
  | .maintenanceComplete slice _ => [(.slice, slice)]
  | .l2Eviction core _ => [(.core, core)]
  | .sliceDrainWalkDone slice => [(.slice, slice)]
  | .handoverComplete slice => [(.slice, slice)]
  | .cachePreloadDone mbx => [(.mailbox, mbx)]
  | .llcInjectDataCe slice => [(.slice, slice)]
  | .llcInjectDataUe slice => [(.slice, slice)]
  | .llcInjectTagPar slice => [(.slice, slice)]
  | .dramRequest c _ => [(.chan, c)]
  | .commandOpportunity c sub _ => [(.chan, c), (.sub, sub)]
  | .rowIdleClose c _ _ => [(.chan, c)]
  | .rtPortRequest c _ => [(.chan, c)]
  | .refreshOwed c rank => [(.chan, c), (.rank, rank)]
  | .claimStart c block => [(.chan, c), (.block, block)]
  | .sealedSelection c block => [(.chan, c), (.block, block)]
  | .mr4Reading c rank _ => [(.chan, c), (.rank, rank)]
  | .catchUpStart c rank => [(.chan, c), (.rank, rank)]
  | .catchUpEnd c rank _ => [(.chan, c), (.rank, rank)]
  | .refreshRateReturn c rank => [(.chan, c), (.rank, rank)]
  | .driftCheck c rank _ => [(.chan, c), (.rank, rank)]
  | .dramReadReturn c sub _ _ => [(.chan, c), (.sub, sub)]
  | .flipExpiry c => [(.chan, c)]
  | .ddr5Alert c sub _ _ => [(.chan, c), (.sub, sub)]
  | .alertDeassertTimeout c sub _ => [(.chan, c), (.sub, sub)]
  | .recoveryEnd c sub _ => [(.chan, c), (.sub, sub)]
  | .writeCrcWindowPass c sub => [(.chan, c), (.sub, sub)]
  | .mcInjectCaParity c sub => [(.chan, c), (.sub, sub)]
  | .mcInjectWcrc c sub => [(.chan, c), (.sub, sub)]
  | .spareWindowClear c => [(.chan, c)]
  | .deviceSpare c rank sub => [(.chan, c), (.rank, rank), (.sub, sub)]
  | .patrolLapEnd c => [(.chan, c)]
  | .rangeScrubEnd => []
  | .softRepairDone mbx _ => [(.mailbox, mbx)]
  | .selfRefreshExit c _ _ _ => [(.chan, c)]
  | .sealDrainsDone t => [(.tenancy, t)]
  | .unsealDrainDone t => [(.tenancy, t)]
  | .closeKeyErase t => [(.tenancy, t)]
  | .rekeySweepDone t => [(.tenancy, t)]
  | .functionResetDone g dev => [(.group, g), (.function, dev)]
  | .linkStageDone k => [(.fabPort, k)]
  | .linkStageTimeout k _ => [(.fabPort, k)]
  | .linkRetryTimer k => [(.fabPort, k)]
  | .linkRekey k _ => [(.fabPort, k)]
  | .keyingFlit k _ _ => [(.fabPort, k)]
  | .flitReceived k _ _ _ _ => [(.fabPort, k)]
  | .nakReceived k _ => [(.fabPort, k)]
  | .replayLimit k => [(.fabPort, k)]
  | .blockLockLoss k _ => [(.fabPort, k)]
  | .codewordTimeout k _ => [(.fabPort, k)]
  | .helloTimeout k => [(.fabPort, k)]
  | .fabricLaneFailure k lane => [(.fabPort, k), (.lane8, lane)]
  | .fabricRetrainDone k => [(.fabPort, k)]
  | .hello k _ => [(.fabPort, k)]
  | .captainSettle => []
  | .linkStateNotice k dev _ _ => [(.fabPort, k), (.device, dev)]
  | .failureBankSwitch => []
  | .failureBankReady => []
  | .routeTablesComputed => []
  | .joinReport _ => []
  | .tables _ => []
  | .tablesAck dev _ _ => [(.device, dev)]
  | .commit _ _ => []
  | .tableSwitch => []
  | .epochGraceEnd => []
  | .sharePlace captain _ => [(.device, captain)]
  | .shareAck dev ten peer _ => [(.device, dev), (.tenancy, ten), (.device, peer)]
  | .sealQuery dev ten _ _ => [(.device, dev), (.tenancy, ten)]
  | .beatMarker k _ _ => [(.fabPort, k)]
  | .markerLoss => []
  | .captainUnreachable => []
  | .memberUnreachable dev => [(.device, dev)]
  | .rdShared _ => []
  | .rdOwn _ => []
  | .rdNc _ => []
  | .wrNc _ => []
  | .wrLine _ => []
  | .evict _ => []
  | .maint _ => []
  | .atomic _ => []
  | .snpInv _ => []
  | .snpShare _ => []
  | .ack src _ _ => [(.device, src)]
  | .retry src _ => [(.device, src)]
  | .grant src _ => [(.device, src)]
  | .err src _ => [(.device, src)]
  | .snpRsp src _ => [(.device, src)]
  | .data src _ _ => [(.device, src)]
  | .poisonData src _ => [(.device, src)]
  | .snpData src _ _ _ => [(.device, src)]
  | .requestResendTimeout _ => []
  | .snoopResendTimeout dev _ => [(.device, dev)]
  | .requestErrorTimeout _ => []
  | .serdesLaneFailure g n _ => [(.group, g), (.portOf, n)]
  | .portRetrainDone g n => [(.group, g), (.portOf, n)]
  | .portRetrainTimeout g n => [(.group, g), (.portOf, n)]
  | .serdesLinkUp g n _ _ _ _ => [(.group, g), (.portOf, n)]
  | .serdesLinkDown g n => [(.group, g), (.portOf, n)]
  | .portTrainRetry g n => [(.group, g), (.portOf, n)]
  | .serdesIngressRequest g n q => [(.group, g), (.portOf, n), (.function, q.dev), (.reqKind, q.kind)]
  | .rootPortCompletion _ _ _ => []
  | .completionTimeout _ _ => []
  | .ecamWrite tag g dev _ _ _ _ => [(.tag, tag), (.group, g), (.function, dev)]
  | .cxlMemDeviceRequest g _ _ _ => [(.group, g)]
  | .identifyMemoryDevice g => [(.group, g)]
  | .getHealthInfo g => [(.group, g)]
  | .getEventRecords g _ => [(.group, g)]
  | .clearEventRecords g _ _ => [(.group, g)]
  | .getPoisonList g _ _ => [(.group, g)]
  | .getSupportedLogs g => [(.group, g)]
  | .getLog g _ _ _ => [(.group, g)]
  | .setTimestamp g _ => [(.group, g)]
  | .cxlUnsupportedOpcode g _ => [(.group, g)]
  | .dmaEnable tag d => [(.tag, tag), (.dmaChan, d)]
  | .dmaAbort tag d => [(.tag, tag), (.dmaChan, d)]
  | .dmaAbortDone d => [(.dmaChan, d)]
  | .dmaPauseSet tag d => [(.tag, tag), (.dmaChan, d)]
  | .dmaPauseDone d => [(.dmaChan, d)]
  | .dmaPauseClear tag d => [(.tag, tag), (.dmaChan, d)]
  | .dmaStop tag d => [(.tag, tag), (.dmaChan, d)]
  | .dmaResumeRetry tag d => [(.tag, tag), (.dmaChan, d)]
  | .dmaResumeMarkBad tag d => [(.tag, tag), (.dmaChan, d)]
  | .dmaResumeDisable tag d => [(.tag, tag), (.dmaChan, d)]
  | .dmaTailWrite tag d _ => [(.tag, tag), (.dmaChan, d)]
  | .descriptorFetched d _ => [(.dmaChan, d)]
  | .dmaReadReturn d _ _ => [(.dmaChan, d)]
  | .descriptorComplete d => [(.dmaChan, d)]
  | .statusWriteAck d => [(.dmaChan, d)]
  | .dmaBusError d _ _ _ => [(.dmaChan, d)]
  | .dmaRingFault d => [(.dmaChan, d)]
  | .doorbell tag mbx => [(.tag, tag), (.mailbox, mbx)]
  | .resultAck tag mbx _ _ => [(.tag, tag), (.mailbox, mbx)]
  | .noticeAck tag mbx _ _ => [(.tag, tag), (.mailbox, mbx)]
  | .mctpRequest _ _ => []
  | .i3cTransferTimeout _ _ _ => []
  | .clerkClaim x _ => [(.complex, x)]
  | .tokenPass => []
  | .bridgeLost => []
  | .peerPowerLost => []
  | .clerkSramUe c => [(.clerkCore, c)]
  | .clerkInterruptEntry c _ => [(.clerkCore, c)]
  | .mgmtResponse c _ => [(.clerkCore, c)]
  | .mgmtTimeout c _ => [(.clerkCore, c)]
  | .clerkIpiSend c _ => [(.clerkCore, c)]
  | .sll c wd wa sh => [(.clerkCore, c), (.clerkReg, wd), (.clerkReg, wa), (.sh5, sh)]
  | .srl c wd wa sh => [(.clerkCore, c), (.clerkReg, wd), (.clerkReg, wa), (.sh5, sh)]
  | .sra c wd wa sh => [(.clerkCore, c), (.clerkReg, wd), (.clerkReg, wa), (.sh5, sh)]
  | .sllv c wd wa wb => [(.clerkCore, c), (.clerkReg, wd), (.clerkReg, wa), (.clerkReg, wb)]
  | .srlv c wd wa wb => [(.clerkCore, c), (.clerkReg, wd), (.clerkReg, wa), (.clerkReg, wb)]
  | .srav c wd wa wb => [(.clerkCore, c), (.clerkReg, wd), (.clerkReg, wa), (.clerkReg, wb)]
  | .add c wd wa wb => [(.clerkCore, c), (.clerkReg, wd), (.clerkReg, wa), (.clerkReg, wb)]
  | .sub c wd wa wb => [(.clerkCore, c), (.clerkReg, wd), (.clerkReg, wa), (.clerkReg, wb)]
  | .and c wd wa wb => [(.clerkCore, c), (.clerkReg, wd), (.clerkReg, wa), (.clerkReg, wb)]
  | .or c wd wa wb => [(.clerkCore, c), (.clerkReg, wd), (.clerkReg, wa), (.clerkReg, wb)]
  | .xor c wd wa wb => [(.clerkCore, c), (.clerkReg, wd), (.clerkReg, wa), (.clerkReg, wb)]
  | .nor c wd wa wb => [(.clerkCore, c), (.clerkReg, wd), (.clerkReg, wa), (.clerkReg, wb)]
  | .slt c wd wa wb => [(.clerkCore, c), (.clerkReg, wd), (.clerkReg, wa), (.clerkReg, wb)]
  | .sltu c wd wa wb => [(.clerkCore, c), (.clerkReg, wd), (.clerkReg, wa), (.clerkReg, wb)]
  | .mul c wd wa wb => [(.clerkCore, c), (.clerkReg, wd), (.clerkReg, wa), (.clerkReg, wb)]
  | .mulh c wd wa wb => [(.clerkCore, c), (.clerkReg, wd), (.clerkReg, wa), (.clerkReg, wb)]
  | .mulhu c wd wa wb => [(.clerkCore, c), (.clerkReg, wd), (.clerkReg, wa), (.clerkReg, wb)]
  | .clz c wd wa => [(.clerkCore, c), (.clerkReg, wd), (.clerkReg, wa)]
  | .addi c wd wa imm => [(.clerkCore, c), (.clerkReg, wd), (.clerkReg, wa), (.imm16, imm)]
  | .andi c wd wa imm => [(.clerkCore, c), (.clerkReg, wd), (.clerkReg, wa), (.imm16, imm)]
  | .ori c wd wa imm => [(.clerkCore, c), (.clerkReg, wd), (.clerkReg, wa), (.imm16, imm)]
  | .xori c wd wa imm => [(.clerkCore, c), (.clerkReg, wd), (.clerkReg, wa), (.imm16, imm)]
  | .slti c wd wa imm => [(.clerkCore, c), (.clerkReg, wd), (.clerkReg, wa), (.imm16, imm)]
  | .sltiu c wd wa imm => [(.clerkCore, c), (.clerkReg, wd), (.clerkReg, wa), (.imm16, imm)]
  | .lui c wd imm => [(.clerkCore, c), (.clerkReg, wd), (.imm16, imm)]
  | .lw c wd wa imm => [(.clerkCore, c), (.clerkReg, wd), (.clerkReg, wa), (.imm16, imm)]
  | .lh c wd wa imm => [(.clerkCore, c), (.clerkReg, wd), (.clerkReg, wa), (.imm16, imm)]
  | .lhu c wd wa imm => [(.clerkCore, c), (.clerkReg, wd), (.clerkReg, wa), (.imm16, imm)]
  | .lb c wd wa imm => [(.clerkCore, c), (.clerkReg, wd), (.clerkReg, wa), (.imm16, imm)]
  | .lbu c wd wa imm => [(.clerkCore, c), (.clerkReg, wd), (.clerkReg, wa), (.imm16, imm)]
  | .sw c wd wa imm => [(.clerkCore, c), (.clerkReg, wd), (.clerkReg, wa), (.imm16, imm)]
  | .sh c wd wa imm => [(.clerkCore, c), (.clerkReg, wd), (.clerkReg, wa), (.imm16, imm)]
  | .sb c wd wa imm => [(.clerkCore, c), (.clerkReg, wd), (.clerkReg, wa), (.imm16, imm)]
  | .beq c wa wb an hi off => [(.clerkCore, c), (.clerkReg, wa), (.clerkReg, wb), (.bit, an), (.bit, hi), (.off14, off)]
  | .bne c wa wb an hi off => [(.clerkCore, c), (.clerkReg, wa), (.clerkReg, wb), (.bit, an), (.bit, hi), (.off14, off)]
  | .blt c wa wb an hi off => [(.clerkCore, c), (.clerkReg, wa), (.clerkReg, wb), (.bit, an), (.bit, hi), (.off14, off)]
  | .bge c wa wb an hi off => [(.clerkCore, c), (.clerkReg, wa), (.clerkReg, wb), (.bit, an), (.bit, hi), (.off14, off)]
  | .bltu c wa wb an hi off => [(.clerkCore, c), (.clerkReg, wa), (.clerkReg, wb), (.bit, an), (.bit, hi), (.off14, off)]
  | .bgeu c wa wb an hi off => [(.clerkCore, c), (.clerkReg, wa), (.clerkReg, wb), (.bit, an), (.bit, hi), (.off14, off)]
  | .j c off => [(.clerkCore, c), (.off26, off)]
  | .jal c off => [(.clerkCore, c), (.off26, off)]
  | .jalr c wd wa imm => [(.clerkCore, c), (.clerkReg, wd), (.clerkReg, wa), (.imm16, imm)]
  | .jalg c wd wa imm => [(.clerkCore, c), (.clerkReg, wd), (.clerkReg, wa), (.imm16, imm)]
  | .mld c wd wa imm => [(.clerkCore, c), (.clerkReg, wd), (.clerkReg, wa), (.imm16, imm)]
  | .mst c wd wa imm => [(.clerkCore, c), (.clerkReg, wd), (.clerkReg, wa), (.imm16, imm)]
  | .mldd c wd wa imm => [(.clerkCore, c), (.clerkReg, wd), (.clerkReg, wa), (.imm16, imm)]
  | .mstd c wd wa imm => [(.clerkCore, c), (.clerkReg, wd), (.clerkReg, wa), (.imm16, imm)]
  | .wait c => [(.clerkCore, c)]
  | .eret c => [(.clerkCore, c)]
  | .msync c => [(.clerkCore, c)]
  | .checkin c => [(.clerkCore, c)]
  | .trap c sh => [(.clerkCore, c), (.sh5, sh)]
  | .gate c => [(.clerkCore, c)]
  | .di c => [(.clerkCore, c)]
  | .ei c => [(.clerkCore, c)]
  | .assayerHang => []
  | .holdLimit => []
  | .standbyReady => []
  | .standbyTimeout => []
  | .debugTokenAccept => []
  | .zeroizeDone => []
  | .closeMarkerWritten _ _ => []
  | .powerOff => []
  | .getVersion _ => []
  | .getCapabilities _ => []
  | .negotiateAlgorithms _ _ => []
  | .getDigests _ => []
  | .getCertificate _ _ _ _ => []
  | .challenge _ _ _ => []
  | .getMeasurements _ _ _ => []
  | .keyExchange _ _ _ => []
  | .finish _ _ _ => []
  | .endSession _ _ => []
  | .vendorDefinedRequest _ _ _ _ _ => []
  | .idcode => []
  | .samplePreload => []
  | .extest => []
  | .clamp => []
  | .highz => []
  | .dzToken _ => []
  | .dzMbx _ _ _ => []
  | .dzDebug => []
  | .dzAssayer => []
  | .bypass => []
  | .drowseGateStart pair => [(.pair, pair)]
  | .drowseGateDone pair => [(.pair, pair)]
  | .gatedPairWake pair => [(.pair, pair)]
  | .idleTimerExpiry => []
  | .sleepRequest => []
  | .dormantDrainsDone _ _ => []
  | .i3cWakeMatch tile _ => [(.tile, tile)]
  | .wakeReferenceGood _ _ _ _ => []
  | .wakeComplete _ _ => []
  | .pwrPadsRelease _ => []
  | .testEnd _ _ => []
  | .loopbackFollow k => [(.fabPort, k)]
  | .injectionExpiry _ _ => []
  | .registerWrite _ _ _ _ => []
  | .inventoryList mbx => [(.mailbox, mbx)]
  | .powerStatus mbx => [(.mailbox, mbx)]
  | .powerState mbx => [(.mailbox, mbx)]
  | .powerDomain mbx => [(.mailbox, mbx)]
  | .powerDormant mbx => [(.mailbox, mbx)]
  | .powerIdle mbx => [(.mailbox, mbx)]
  | .powerTdp mbx => [(.mailbox, mbx)]
  | .powerPads mbx => [(.mailbox, mbx)]
  | .tenantCreate mbx => [(.mailbox, mbx)]
  | .tenantGrant mbx => [(.mailbox, mbx)]
  | .tenantAssign mbx => [(.mailbox, mbx)]
  | .tenantLoad mbx => [(.mailbox, mbx)]
  | .tenantSeal mbx => [(.mailbox, mbx)]
  | .tenantUnseal mbx => [(.mailbox, mbx)]
  | .tenantRekey mbx => [(.mailbox, mbx)]
  | .tenantStart mbx => [(.mailbox, mbx)]
  | .tenantClose mbx => [(.mailbox, mbx)]
  | .tenantStatus mbx => [(.mailbox, mbx)]
  | .coreMode mbx => [(.mailbox, mbx)]
  | .coreStart mbx => [(.mailbox, mbx)]
  | .corePark mbx => [(.mailbox, mbx)]
  | .coreStatus mbx => [(.mailbox, mbx)]
  | .coreRequalify mbx => [(.mailbox, mbx)]
  | .corePolicy mbx => [(.mailbox, mbx)]
  | .memStatus mbx => [(.mailbox, mbx)]
  | .memScrub mbx => [(.mailbox, mbx)]
  | .memClear mbx => [(.mailbox, mbx)]
  | .memRepair mbx => [(.mailbox, mbx)]
  | .memSpare mbx => [(.mailbox, mbx)]
  | .memFlip mbx => [(.mailbox, mbx)]
  | .cacheLock mbx => [(.mailbox, mbx)]
  | .cacheUnlock mbx => [(.mailbox, mbx)]
  | .cacheSlice mbx => [(.mailbox, mbx)]
  | .cacheStatus mbx => [(.mailbox, mbx)]
  | .fabricStatus mbx => [(.mailbox, mbx)]
  | .fabricRoute mbx => [(.mailbox, mbx)]
  | .fabricPort mbx => [(.mailbox, mbx)]
  | .fabricGrant mbx => [(.mailbox, mbx)]
  | .fabricShare mbx => [(.mailbox, mbx)]
  | .portStatus mbx => [(.mailbox, mbx)]
  | .portConfig mbx => [(.mailbox, mbx)]
  | .portAssign mbx => [(.mailbox, mbx)]
  | .portEp mbx => [(.mailbox, mbx)]
  | .portCxlgrant mbx => [(.mailbox, mbx)]
  | .dmaAssign mbx => [(.mailbox, mbx)]
  | .dmaStatus mbx => [(.mailbox, mbx)]
  | .rasRead mbx => [(.mailbox, mbx)]
  | .timeGet mbx => [(.mailbox, mbx)]
  | .timeSet mbx => [(.mailbox, mbx)]
  | .daybookStatus mbx => [(.mailbox, mbx)]
  | .daybookRead mbx => [(.mailbox, mbx)]
  | .daybookAttest mbx => [(.mailbox, mbx)]
  | .testLoopback mbx => [(.mailbox, mbx)]
  | .testBist mbx => [(.mailbox, mbx)]
  | .testInject mbx => [(.mailbox, mbx)]
  | .testStatus mbx => [(.mailbox, mbx)]
  | .mainCoreWfi h => [(.hart, h)]
  | .cxlMemResponse _ _ _ => []
  | .loopbackRequestStop k => [(.fabPort, k)]
  | .perstInput g _ => [(.group, g)]

/-- One check: the operand lies below the limit of its kind. -/
def operandOk (o : OperandKind × Nat) : Bool := decide (o.2 < o.1.limit)

/-- A command is well formed when every operand that has a limit lies below it. -/
def Instr.wf (i : Instr) : Bool := (operandsOf i).all operandOk

end Sys2Proof
end

