-- ==== Sys2Proof/Certificates/Slice0/Obligations.lean ====
section
/-! DEFINITION. Certificates/Slice0/Obligations.lean: the statements about the block, whole-machine rules first, then the
families of commands in the table's order. -/
open Sys2Proof Sys2Proof.Machine

/-! ## The whole block -/

/-- One step takes the command at the front of the queue and runs it on the state with the queue's rest. With no command
waiting one cycle of the reference clock passes, which is the model's choice (log entry 1): platform time advances by 10 ns
while it stays below its value at the next boundary, and nothing happens while no beat runs. -/
def Obligations.StepRunsTheFrontCommand : Prop :=
  ∀ s : State,
    (∀ i rest, s.pending = i :: rest → step s = exec i { s with pending := rest }) ∧
    (s.pending = [] → step s = .next (refCycle s)) ∧
    (s.pending = [] → beatRuns s = false ∨ s.time.started = false ∨ beatGain s ≤ s.time.sub + 10 → step s = .next s) ∧
    (s.pending = [] → beatRuns s = true → s.time.started = true → s.time.sub + 10 < beatGain s → now s + 10 < 2 ^ 64 →
      ∃ t, step s = .next t ∧ now t = now s + 10 ∧ beat t = beat s ∧ t.pending = [] ∧ samePart .mem s t ∧
        samePart .slices s t ∧ samePart .outs s t)

/-- Every command, in every state, is answered by a next state; it leaves the queue, the fuses and every part of the state
that is not among those the command may touch exactly as they were. -/
def Obligations.CommandsCompleteWithinTheirParts : Prop :=
  ∀ (i : Instr) (s : State), ∃ t, exec i s = .next t ∧ t.pending = s.pending ∧ fusedOf t = fusedOf s ∧
    ∀ p : Part, p ∉ touched i → samePart p s t

/-- The register file and the DRAM of every channel stay in canonical form over every step. -/
def Obligations.StepKeepsStoredTables : Prop :=
  ∀ s t : State, Memory.wf s = true → step s = .next t → Memory.wf t = true

/-- What is fused into the chip, its variant among it, no step changes (R2, R379). -/
def Obligations.StepKeepsFuses : Prop := ∀ s t : State, step s = .next t → fusedOf t = fusedOf s

/-- At reset every register field reads its reset value, and the stored tables are in canonical form. -/
def Obligations.ResetRegistersReadTheirResetValues : Prop :=
  Memory.wf State.reset = true ∧ (∀ f : Fld, rd State.reset f = f.rst) ∧ State.reset.pending = []

/-! ## Supply, resets and start-up -/

/-- VIN_GOOD, VIN_LOST, POWER_OFF and RESET_N_RISE. A good VIN starts a cold reset: step 1, every register at its reset value,
fuses and flash as they were. VIN below 1.6 V for 10 µs is device-fatal. At its boundary a power-off leaves the device off. A
RESET_N pulse of 2 µs or more, after step 1, starts a warm reset at step 2 that keeps the CLK_ registers, the beat number and
platform time among them, and the logs; one shorter than 500 ns changes nothing. -/
def Obligations.SupplyAndResetInputs : Prop :=
  ∀ s : State,
    (∀ mv low, 1700 ≤ mv → s.chip.vinGood = false → ∃ t, exec (.vinGood mv low) s = .next t ∧ t.chip.vinGood = true ∧
      t.chip.resetN = !low ∧ t.boot.step = 1 ∧ t.boot.stopped = false ∧ t.chip.fatal = false ∧ t.chip.off = false ∧
      (∀ f : Fld, rd t f = f.rst) ∧ fusedOf t = fusedOf s ∧ sameFlash s t) ∧
    (∀ mv ns, mv < 1600 → 10000 ≤ ns → s.chip.vinGood = true → ∃ t, exec (.vinLost mv ns) s = .next t ∧
      t.chip.vinGood = false ∧ t.chip.fatal = true ∧ fusedOf t = fusedOf s ∧ sameFlash s t) ∧
    (∀ p, s.power.offBeat = some p → p ≤ beat s → ∃ t, exec .powerOff s = .next t ∧ t.chip.off = true ∧
      (∀ d, rd t (pwrDomainState d) = 0) ∧ fusedOf t = fusedOf s ∧ sameFlash s t) ∧
    (∀ lowNs, 2000 ≤ lowNs → s.chip.vinGood = true → s.chip.off = false → s.boot.step ≠ 1 →
      ∃ t, exec (.resetNRise lowNs) s = .next t ∧ t.boot.step = 2 ∧ t.boot.warm = true ∧ t.boot.stopped = false ∧
        t.chip.fatal = false ∧ rd t clkBeatBeat = rd s clkBeatBeat ∧ rd t clkTimeTimeNs = rd s clkTimeTimeNs ∧
        rd t clkUncertTotalTotalNs = rd s clkUncertTotalTotalNs ∧ samePart .ras s t ∧ sameFlash s t ∧
        t.harts = [] ∧ t.tenants = [] ∧ t.mem.keys = []) ∧
    (∀ lowNs, lowNs < 500 → exec (.resetNRise lowNs) s = .next s)

/-- STARTUP_STEP_COMPLETE (R373, Table 14.6) completes at every step it is sent for: a step that ends well begins the next one,
and its named failures stop start-up with the code of Table 14.6. -/
def Obligations.StartupStepsFollowInOrder : Prop :=
  ∀ (s : State) (ms : Nat), starting s = true → ms < 2 ^ 32 →
    (s.boot.step = 1 → s.boot.upDone = false → s.chip.resetN = true → ∃ t, exec (.startupStepComplete ms .up) s = .next t ∧
      t.boot.step = 2 ∧ t.boot.elapsed = ms) ∧
    (s.boot.step = 1 → s.boot.upDone = false → s.chip.resetN = false → ∃ t, exec (.startupStepComplete ms .up) s = .next t ∧
      t.boot.step = 1 ∧ t.boot.upDone = true) ∧
    (∀ passN passS, s.boot.step = 2 → (if s.chip.tossPref % 2 = 0 then passN else passS) = true →
      ∃ t, exec (.startupStepComplete ms (.fuses 0 passN passS)) s = .next t ∧ t.boot.step = 3 ∧ t.boot.elapsed = ms ∧
        t.toss.holder = some (s.chip.tossPref % 2)) ∧
    (∀ code passN passS, s.boot.step = 2 → ∃ t, exec (.startupStepComplete ms (.fuses code passN passS)) s = .next t ∧
      (code = 1 → t.boot.stopped = true ∧ t.boot.code = 0x21) ∧
      (code = 2 → t.boot.stopped = true ∧ t.boot.code = 0x22) ∧
      (code = 0 → passN = false → passS = false → t.boot.stopped = true ∧ t.boot.code = 0x23)) ∧
    (∀ a b bad, s.boot.step = 3 → s.boot.headOk = false → s.boot.hold = false → a.image.token = none → imageCheck s a = 0 →
      ∃ t, exec (.startupStepComplete ms (.image a b bad true)) s = .next t ∧ t.boot.step = 4 ∧ t.boot.elapsed = ms ∧
        t.boot.headOk = true) ∧
    (∀ a b bad loaded, s.boot.step = 3 → s.boot.headOk = false → imageCheck s a ≠ 0 → imageCheck s b ≠ 0 →
      ∃ t, exec (.startupStepComplete ms (.image a b bad loaded)) s = .next t ∧ t.boot.stopped = true ∧
        t.boot.code = 0x38 + imageCheck s b) ∧
    (s.boot.step = 4 → trainingDone s = true → mapChans s ≠ [] → ∃ t, exec (.startupStepComplete ms .trained) s = .next t ∧
      t.boot.step = 5 ∧ t.boot.elapsed = ms) ∧
    (s.boot.step = 4 → trainingDone s = true → mapChans s = [] → ∃ t, exec (.startupStepComplete ms .trained) s = .next t ∧
      t.boot.stopped = true ∧ t.boot.code = 0x40) ∧
    (s.boot.step = 5 → fillingChans s = [] → (∃ c ∈ mapChans s, rd s (mcStatusState c) = 3) →
      ∃ t, exec (.startupStepComplete ms .filled) s = .next t ∧ t.boot.step = 6 ∧ t.boot.elapsed = ms ∧
        rd t fabStateState = 2) ∧
    (s.boot.step = 5 → fillingChans s = [] → (∀ c ∈ mapChans s, rd s (mcStatusState c) ≠ 3) →
      ∃ t, exec (.startupStepComplete ms .filled) s = .next t ∧ t.boot.stopped = true ∧ t.boot.code = 0x50) ∧
    (s.boot.step = 6 → settled s = true → ∃ t, exec (.startupStepComplete ms .fabric) s = .next t ∧ t.boot.step = 7 ∧
      t.boot.elapsed = ms) ∧
    (∀ okA okB, s.boot.step = 7 → okA = true ∨ okB = true → ∃ t, exec (.startupStepComplete ms (.record okA okB)) s = .next t ∧
      t.boot.step = 8 ∧ t.boot.elapsed = ms) ∧
    (s.boot.step = 7 → s.boot.board.recordReq = true → ∃ t, exec (.startupStepComplete ms (.record false false)) s = .next t ∧
      t.boot.stopped = true ∧ t.boot.code = 0x70) ∧
    (s.boot.step = 8 → ∃ t, exec (.startupStepComplete ms (.released true [])) s = .next t ∧ t.boot.step = 9 ∧
      ∃ pc opq, (⟨beat s + 1, 5, .startHart 0 pc opq⟩ : Due) ∈ t.due) ∧
    (∀ rejected, s.boot.step = 8 → ∃ t, exec (.startupStepComplete ms (.released false rejected)) s = .next t ∧
      t.boot.stopped = true ∧ t.boot.code = 0x80)

/-- STARTUP_STEP_TIMEOUT, FLASH_READ_TIMEOUT, LINK_WAIT_EXPIRY, STRAPS_SAMPLED and CLOSE_MARKER_WRITTEN. -/
def Obligations.StartupTimeoutsStrapsAndCloseMarker : Prop :=
  ∀ s : State,
    (∀ ms, starting s = true → s.boot.elapsed + stepLimitMs s ≤ ms → ∃ t, exec (.startupStepTimeout ms) s = .next t ∧
      (s.boot.step = 2 → t.boot.stopped = true ∧ t.boot.code = 0x21) ∧
      (s.boot.step = 3 → s.boot.hold = false → t.boot.stopped = true ∧ t.boot.code = 0x30) ∧
      (s.boot.step = 8 → t.boot.stopped = true ∧ t.boot.code = 0x80)) ∧
    (∀ ms, ms < s.boot.elapsed + stepLimitMs s → exec (.startupStepTimeout ms) s = .next s) ∧
    (∀ ms flash, 10 ≤ ms → flash < 2 → ∃ t, exec (.flashReadTimeout flash ms) s = .next t ∧
      t.boot.readA = (s.boot.readA && flash != 0) ∧ t.boot.readB = (s.boot.readB && flash != 1)) ∧
    (s.boot.step = 6 → rd s fabStateState = 2 → upPorts s = [] → s.fabric.began ≤ beat s →
      rd s fabCtrlLinkWaitMs * 1000 ≤ beat s - s.fabric.began →
      ∃ t, exec .linkWaitExpiry s = .next t ∧ t.boot.code = 0x60 ∧ t.boot.stopped = s.boot.stopped) ∧
    (∀ v, s.chip.vinGood = true → s.chip.off = false → s.chip.strapsDone = false →
      ∃ t, exec (.strapsSampled (List.replicate 16 v)) s = .next t ∧ t.chip.strapsDone = true ∧
        t.chip.i3cMv = (if v = 1 then 1200 else 1800) ∧ (v < 2 → samePart .ras s t) ∧
        (2 ≤ v → ∃ kind cause, recordedIn 2 (kind % 256) 0 (cause % 65536) s t)) ∧
    (∀ i okA okB, s.power.offMbx = some i → ∃ t, exec (.closeMarkerWritten okA okB) s = .next t ∧
      t.power.offMbx = none ∧ t.power.offBeat = some (beat s + 101) ∧
      t.boot.journal.length = s.boot.journal.length + (okA || okB).toNat ∧ ∃ clamped data,
        (⟨beat s + 1, 9, .stage i clamped data⟩ : Due) ∈ t.due)

/-! ## Clocks, the beat and platform time -/

/-- REFCLK_LOSS, REFCLK_RECOVERED, REF_PREF_WRITE, XTAL32_LOSS and SLEW_DONE. A reference without an edge for 200 ns, or more
than 300 ppm off, loses its ok bit. Outside Dormant and its wake that is a contained error: the generator runs from the other
reference while that is good, and else in holdover. In Dormant and its wake nothing else happens. -/
def Obligations.ReferenceClocks : Prop :=
  ∀ s : State,
    (∀ r gap ppm, r < 2 → 200 ≤ gap ∨ 300 < ppm → rdB s (refOk r) = true → ∃ t, exec (.refclkLoss r gap ppm) s = .next t ∧
      rd t (refOk r) = 0 ∧ rd t (refOk (1 - r)) = rd s (refOk (1 - r)) ∧
      otherFields ([refOk r, clkStatusRefSel, clkStatusHoldover] ++ irqFields) s t ∧
      (s.time.dormant = true ∨ s.time.wakeRefs = true →
        otherFields [refOk r] s t ∧ samePart .ras s t ∧ samePart .time s t ∧ samePart .clerk s t) ∧
      (s.time.dormant = false → s.time.wakeRefs = false → rdB s (refOk (1 - r)) = true →
        rd t clkStatusRefSel = 1 - r ∧ rd t clkStatusHoldover = rd s clkStatusHoldover ∧ recordedIn 2 10 r 0x0A01 s t) ∧
      (s.time.dormant = false → s.time.wakeRefs = false → rdB s (refOk (1 - r)) = false →
        rd t clkStatusRefSel = rd s clkStatusRefSel ∧ rdB t clkStatusHoldover = true ∧
        (rdB s clkStatusHoldover = true → recordedIn 2 10 r 0x0A01 s t) ∧
        (rdB s clkStatusHoldover = false → t.time.holdBeats = 0 ∧ t.ras.platform.next = s.ras.platform.next + 2))) ∧
    (∀ r gap ppm, gap < 200 → ppm ≤ 300 → exec (.refclkLoss r gap ppm) s = .next s) ∧
    (∀ r cycles, r < 2 → 1000 ≤ cycles → ∃ t, exec (.refclkRecovered r cycles) s = .next t ∧ rd t (refOk r) = 1 ∧
      otherFields [refOk r] s t) ∧
    (∀ r cycles, cycles < 1000 → exec (.refclkRecovered r cycles) s = .next s) ∧
    (∀ v, ∃ t, exec (.refPrefWrite v) s = .next t ∧ rd t clkCtrlRefPref = v % 2 ∧ otherFields [clkCtrlRefPref] s t) ∧
    (∀ gap, 100000 ≤ gap → ∃ t, exec (.xtal32Loss gap) s = .next t ∧ rd t clkStatusAoSource = 0 ∧
      t.chip.xtalFitted = false ∧ otherFields [clkStatusAoSource] s t) ∧
    (rdB s clkStatusSlewing = true → rd s clkSlewRemainLeadNs = 0 → ∃ t, exec .slewDone s = .next t ∧
      rd t clkStatusSlewing = 0 ∧ t.time.slewPhase = 0 ∧ otherFields [clkStatusSlewing] s t) ∧
    (rd s clkSlewRemainLeadNs ≠ 0 → exec .slewDone s = .next s)

/-- SENSOR_RETIRE, ENTROPY_HEALTH_FAIL, THERMAL_TRIP, INPUT_CURRENT_LIMIT and THERMAL_HALVING. -/
def Obligations.SensorsAndPowerLimits : Prop :=
  ∀ s : State,
    (∀ n, 16 ≤ (sensorOf s n).badRuns → (sensorOf s n).retired = false → ∃ t, exec (.sensorRetire n) s = .next t ∧
      (sensorOf t n).retired = true ∧ recordedIn 2 10 n 0x0A04 s t ∧ (∀ m, m ≠ n → sensorOf t m = sensorOf s m) ∧
      otherFields irqFields s t) ∧
    (∀ n, (sensorOf s n).badRuns < 16 → exec (.sensorRetire n) s = .next s) ∧
    (∀ x, tilePresent s x = true → x ∉ s.chip.entropyDead → ∃ t, exec (.entropyHealthFail x) s = .next t ∧
      t.chip.entropyDead = x :: s.chip.entropyDead ∧ recordedIn 2 10 x 0x0A05 s t ∧ otherFields irqFields s t) ∧
    (∀ n v, 125 ≤ v → readingOk (sensorOf s n) v = true → s.chip.vinGood = true → s.chip.off = false →
      ∃ t, exec (.thermalTrip n v) s = .next t ∧ t.chip.thermTrip = true ∧ t.chip.fatal = true ∧ t.chip.off = true ∧
        t.mem.keys = [] ∧ (clkOf t 8).sram = [] ∧ (clkOf t 9).sram = [] ∧
        (∀ d, d < 182 → domainPresent s d = true → rd t (pwrDomainState d) = if domHeld s d = true then 4 else 1) ∧
        (∀ k ∈ presentFabPorts s, (fportOf t k).keyTx = none ∧ (fportOf t k).keyRx = none) ∧ fusedOf t = fusedOf s) ∧
    (∀ n v, v < 125 → exec (.thermalTrip n v) s = .next s) ∧
    (∀ iin ns, 6200 < iin → 200 ≤ ns → ∃ t, exec (.inputCurrentLimit iin ns) s = .next t ∧
      (∀ p ∈ pairsOn s, (pairOf s p).halved = false → serveSealed s p = false ∨ 2200 ≤ ns → (pairOf t p).halved = true ∧
        rd t (pwrDomainFreq p) = rd s (pwrDomainFreq p) / 2 % 64 ∧ counted pwrLimitCurrentEvents 1 s t) ∧
      (∀ p, (pairOf s p).halved = true ∨ p ∉ pairsOn s ∨ (serveSealed s p = true ∧ ns < 2200) → pairOf t p = pairOf s p ∧
        rd t (pwrDomainFreq p) = rd s (pwrDomainFreq p))) ∧
    (∀ p (v : Int), domOn s p = true → p < 136 → (rd s pwrCtrlTThrottle : Int) + 10 < v → (pairOf s p).halved = false →
      ∃ t, exec (.thermalHalving p v) s = .next t ∧ (pairOf t p).halved = true ∧
        rd t (pwrDomainFreq p) = rd s (pwrDomainFreq p) / 2 % 64 ∧ counted pwrLimitThermalEvents 1 s t ∧
        otherFields [pwrDomainFreq p, pwrLimitThermalEvents] s t ∧ (∀ q, q ≠ p → pairOf t q = pairOf s q))

/-- BEAT_BOUNDARY: no boundary occurs in Dormant, without power or before a reference is qualified; else the actions of Table
2.2 follow in its order, and what is due at one step is carried out there: fences first by their kind, device sparings last.
COMMAND_STEP and GUARD_INTERRUPT. A command's steps staged for the next boundary take effect there together, each at its step
of Table 2.2, when they are committed, and else are staged again for the boundary after; a command whose request the Assayer
abandoned ends UNAVAILABLE. -/
def Obligations.BoundariesAndCommandSteps : Prop :=
  (∀ (s : State) (b : BeatIn),
    (s.time.dormant = true ∨ s.chip.vinGood = false ∨ s.chip.off = true ∨ (s.time.started = false ∧ refGood s = false) →
      exec (.beatBoundary b) s = .next s) ∧
    (s.time.dormant = false → s.chip.vinGood = true → s.chip.off = false → s.time.started = true ∨ refGood s = true →
      ∃ s1 s2 s3 s4 s5 s6 t, s1 = stepTime b s ∧ s2 = applyDue 2 (applyDue 1 s1) ∧ s3 = applyHolds (beat s2) b.holds s2 ∧
        s4 = sleepBoundary (applyDue 5 (stepPower b s3)) ∧
        s5 = (presentChans s4).foldl (fun a c => judgeQueues c a) (applyDue 6 ((presentChans s4).foldl startFrame s4)) ∧
        s6 = (List.range 64).foldl (dmaSnapshot (beat s5)) s5 ∧
        t = stepSlice (stepSample b ((presentPairs s).filter fun p => rd s (pairStatusState p) == 3)
          ((s.harts.filter fun e => e.2.st == .running).map (·.1)) s6) ∧ exec (.beatBoundary b) s = .next t) ∧
    (∀ d k, s.due = [d] → d.step = k → d.beat ≤ beat s → applyDue k s = applyAct { s with due := [] } d.act) ∧
    (∀ d e k, s.due = [d, e] → d.step = k → e.step = k → d.beat ≤ beat s → e.beat ≤ beat s →
      applyDue k s = if actRank e.act < actRank d.act then applyAct (applyAct { s with due := [] } e.act) d.act
        else applyAct (applyAct { s with due := [] } d.act) e.act)) ∧
  (∀ s : State,
    (∀ i c, dueSteps s i = [] → exec (.commandStep i c) s = .next s) ∧
    (∀ i, s.assayer.abandon = false → ∃ t, exec (.commandStep i false) s = .next t ∧
      (∀ j ∈ dueSteps s i, (⟨j.mbx, beat s + 2, j.act⟩ : JStep) ∈ t.journal) ∧ dueSteps t i = [] ∧ samePart .regs s t ∧
      samePart .mbx s t ∧ t.journal.length = s.journal.length) ∧
    (∀ i, s.assayer.abandon = false → ∃ t, exec (.commandStep i true) s = .next t ∧ dueSteps t i = [] ∧
      t.due = s.due ++ (dueSteps s i).map (fun j => ⟨beat s + 1, actStep j.act, j.act⟩) ∧ samePart .regs s t ∧
      samePart .mem s t ∧ samePart .tenants s t ∧ samePart .mbx s t) ∧
    (∀ i c, s.assayer.abandon = true → (gateOf (argCode (mbxOf s i).copy)).isSome = true → dueSteps s i ≠ [] →
      ∃ t, exec (.commandStep i c) s = .next t ∧ t.assayer.abandon = false ∧ (∀ j ∈ t.journal, j.mbx ≠ i) ∧
        (mbxOf t i).staged = some (beat s,
          ⟨5, 0, argCode (mbxOf s i).copy, rd s (mbxSeqSeq i), (mbxOf s i).taken, 0, []⟩)) ∧
    (∃ t, exec .guardInterrupt s = .next t ∧ ∀ c, c < 10 →
      (clkLive s c = true → rd t (clerkIpPending c) = (rd s (clerkIpPending c) ||| 2) % 2 ^ (clerkIpPending c).w ∧
        rd t (clerkSliceCycle c) = max 1350 (rd s (clerkSliceCycle c)) % 2 ^ (clerkSliceCycle c).w ∧
        ((clkOf s c).st = .running → counted (clerkSliceOverruns c) 1 s t) ∧
        ((clkOf s c).st = .waiting → rd t (clerkSliceOverruns c) = rd s (clerkSliceOverruns c))) ∧
      (clkLive s c = false → clkOf t c = clkOf s c ∧ rd t (clerkIpPending c) = rd s (clerkIpPending c) ∧
        rd t (clerkSliceCycle c) = rd s (clerkSliceCycle c))))

/-- The first boundary is beat 0 at time 0. Every later one adds 1 to the beat number and 1,000 ns to platform time, or 990 ns
on one beat in every 100 of a slew, which shortens the lead by 10 ns, or by what is left of it; a join beat is longer by what
is to be added, and a time set forward takes effect. -/
def Obligations.BeatAndPlatformTimeAdvance : Prop :=
  ∀ s : State, beat s < 2 ^ 64 - 1 → nextTime s < 2 ^ 64 →
    (s.time.started = false → beat (advanceTime s) = 0 ∧ now (advanceTime s) = 0 ∧ (advanceTime s).time.started = true) ∧
    (s.time.started = true → beat (advanceTime s) = beat s + 1 ∧ (advanceTime s).time.sub = 0 ∧
      (s.time.setNext = none → rdB s clkStatusSlewing = false → now (advanceTime s) = now s - s.time.sub + 1000 + s.time.lengthen) ∧
      (s.time.setNext = none → rdB s clkStatusSlewing = true → s.time.slewPhase ≠ 99 →
        now (advanceTime s) = now s - s.time.sub + 1000 + s.time.lengthen ∧
        rd (advanceTime s) clkSlewRemainLeadNs = rd s clkSlewRemainLeadNs) ∧
      (s.time.setNext = none → rdB s clkStatusSlewing = true → s.time.slewPhase = 99 →
        now (advanceTime s) = now s - s.time.sub + (1000 - min 10 (rd s clkSlewRemainLeadNs)) + s.time.lengthen ∧
        rd (advanceTime s) clkSlewRemainLeadNs = rd s clkSlewRemainLeadNs - 10) ∧
      (∀ v, s.time.setNext = some v → v < 2 ^ 64 → now (advanceTime s) = max v (nextTime s))) ∧
    (∀ mv low, 1700 ≤ mv → s.chip.vinGood = false → ∃ t, exec (.vinGood mv low) s = .next t ∧ now t = 0 ∧
      t.time.started = false) ∧
    (∀ lowNs, 2000 ≤ lowNs → s.chip.vinGood = true → s.chip.off = false → s.boot.step ≠ 1 →
      ∃ t, exec (.resetNRise lowNs) s = .next t ∧ now t = now s ∧ beat t = beat s ∧ t.time.started = s.time.started)

/-! ## The Clerk and Assayer cores -/

/-- The ALU instructions with two registers (Table 12.5): each writes its result to wd, takes one cycle and changes nothing
else. Shifts by sh, CLZ, the immediate instructions and LUI (Tables 12.4 and 12.5). -/
def Obligations.ClerkArithmeticInstructions : Prop :=
  (∀ (s : State) (c a w : Nat), clkAt s c a w →
    (∀ wd wa wb, isAlu 0x4 wd wa wb w = true → ∃ t, exec (.sllv c wd wa wb) s = .next t ∧ sameLocal c s t ∧
      retires c 1 (some (wd, regW (clkOf s c) wa * 2 ^ (regW (clkOf s c) wb % 32))) none s t) ∧
    (∀ wd wa wb, isAlu 0x5 wd wa wb w = true → ∃ t, exec (.srlv c wd wa wb) s = .next t ∧ sameLocal c s t ∧
      retires c 1 (some (wd, regW (clkOf s c) wa / 2 ^ (regW (clkOf s c) wb % 32))) none s t) ∧
    (∀ wd wa wb, isAlu 0x6 wd wa wb w = true → ∃ t, exec (.srav c wd wa wb) s = .next t ∧ sameLocal c s t ∧
      retires c 1 (some (wd, sra32 (regW (clkOf s c) wa) (regW (clkOf s c) wb % 32))) none s t) ∧
    (∀ wd wa wb, isAlu 0x10 wd wa wb w = true → ∃ t, exec (.add c wd wa wb) s = .next t ∧ sameLocal c s t ∧
      retires c 1 (some (wd, regW (clkOf s c) wa + regW (clkOf s c) wb)) none s t) ∧
    (∀ wd wa wb, isAlu 0x11 wd wa wb w = true → ∃ t, exec (.sub c wd wa wb) s = .next t ∧ sameLocal c s t ∧
      retires c 1 (some (wd, regW (clkOf s c) wa + (2 ^ 32 - regW (clkOf s c) wb))) none s t) ∧
    (∀ wd wa wb, isAlu 0x12 wd wa wb w = true → ∃ t, exec (.and c wd wa wb) s = .next t ∧ sameLocal c s t ∧
      retires c 1 (some (wd, regW (clkOf s c) wa &&& regW (clkOf s c) wb)) none s t) ∧
    (∀ wd wa wb, isAlu 0x13 wd wa wb w = true → ∃ t, exec (.or c wd wa wb) s = .next t ∧ sameLocal c s t ∧
      retires c 1 (some (wd, regW (clkOf s c) wa ||| regW (clkOf s c) wb)) none s t) ∧
    (∀ wd wa wb, isAlu 0x14 wd wa wb w = true → ∃ t, exec (.xor c wd wa wb) s = .next t ∧ sameLocal c s t ∧
      retires c 1 (some (wd, regW (clkOf s c) wa ^^^ regW (clkOf s c) wb)) none s t) ∧
    (∀ wd wa wb, isAlu 0x15 wd wa wb w = true → ∃ t, exec (.nor c wd wa wb) s = .next t ∧ sameLocal c s t ∧
      retires c 1 (some (wd, 2 ^ 32 - 1 - (regW (clkOf s c) wa ||| regW (clkOf s c) wb))) none s t) ∧
    (∀ wd wa wb, isAlu 0x16 wd wa wb w = true → ∃ t, exec (.slt c wd wa wb) s = .next t ∧ sameLocal c s t ∧
      retires c 1 (some (wd, if s32 (regW (clkOf s c) wa) < s32 (regW (clkOf s c) wb) then 1 else 0)) none s t) ∧
    (∀ wd wa wb, isAlu 0x17 wd wa wb w = true → ∃ t, exec (.sltu c wd wa wb) s = .next t ∧ sameLocal c s t ∧
      retires c 1 (some (wd, if regW (clkOf s c) wa < regW (clkOf s c) wb then 1 else 0)) none s t) ∧
    (∀ wd wa wb, isAlu 0x18 wd wa wb w = true → ∃ t, exec (.mul c wd wa wb) s = .next t ∧ sameLocal c s t ∧
      retires c 1 (some (wd, regW (clkOf s c) wa * regW (clkOf s c) wb)) none s t) ∧
    (∀ wd wa wb, isAlu 0x19 wd wa wb w = true → ∃ t, exec (.mulh c wd wa wb) s = .next t ∧ sameLocal c s t ∧
      retires c 1 (some (wd, mulh (regW (clkOf s c) wa) (regW (clkOf s c) wb))) none s t) ∧
    (∀ wd wa wb, isAlu 0x1a wd wa wb w = true → ∃ t, exec (.mulhu c wd wa wb) s = .next t ∧ sameLocal c s t ∧
      retires c 1 (some (wd, regW (clkOf s c) wa * regW (clkOf s c) wb / 2 ^ 32)) none s t)) ∧
  (∀ (s : State) (c a w : Nat), clkAt s c a w →
    (∀ wd wa sh, isShift 0 wd wa sh w = true → ∃ t, exec (.sll c wd wa sh) s = .next t ∧ sameLocal c s t ∧
      retires c 1 (some (wd, regW (clkOf s c) wa * 2 ^ sh)) none s t) ∧
    (∀ wd wa sh, isShift 1 wd wa sh w = true → ∃ t, exec (.srl c wd wa sh) s = .next t ∧ sameLocal c s t ∧
      retires c 1 (some (wd, regW (clkOf s c) wa / 2 ^ sh)) none s t) ∧
    (∀ wd wa sh, isShift 2 wd wa sh w = true → ∃ t, exec (.sra c wd wa sh) s = .next t ∧ sameLocal c s t ∧
      retires c 1 (some (wd, sra32 (regW (clkOf s c) wa) sh)) none s t) ∧
    (∀ wd wa, opOf w = 0 → fieldFn w = 0x1B → fieldD w = wd → fieldA w = wa → ∃ t, exec (.clz c wd wa) s = .next t ∧ sameLocal c s t ∧
      retires c 1 (some (wd, clz (regW (clkOf s c) wa))) none s t) ∧
    (∀ wd wa imm, isImm 1 wd wa imm w = true → ∃ t, exec (.addi c wd wa imm) s = .next t ∧ sameLocal c s t ∧
      retires c 1 (some (wd, regW (clkOf s c) wa + sx 16 imm)) none s t) ∧
    (∀ wd wa imm, isImm 2 wd wa imm w = true → ∃ t, exec (.andi c wd wa imm) s = .next t ∧ sameLocal c s t ∧
      retires c 1 (some (wd, regW (clkOf s c) wa &&& imm)) none s t) ∧
    (∀ wd wa imm, isImm 3 wd wa imm w = true → ∃ t, exec (.ori c wd wa imm) s = .next t ∧ sameLocal c s t ∧
      retires c 1 (some (wd, regW (clkOf s c) wa ||| imm)) none s t) ∧
    (∀ wd wa imm, isImm 4 wd wa imm w = true → ∃ t, exec (.xori c wd wa imm) s = .next t ∧ sameLocal c s t ∧
      retires c 1 (some (wd, regW (clkOf s c) wa ^^^ imm)) none s t) ∧
    (∀ wd wa imm, isImm 5 wd wa imm w = true → ∃ t, exec (.slti c wd wa imm) s = .next t ∧ sameLocal c s t ∧
      retires c 1 (some (wd, if s32 (regW (clkOf s c) wa) < s32 (sx 16 imm) then 1 else 0)) none s t) ∧
    (∀ wd wa imm, isImm 6 wd wa imm w = true → ∃ t, exec (.sltiu c wd wa imm) s = .next t ∧ sameLocal c s t ∧
      retires c 1 (some (wd, if regW (clkOf s c) wa < sx 16 imm then 1 else 0)) none s t) ∧
    (∀ wd imm, opOf w = 7 → fieldD w = wd → fieldImm w = imm → ∃ t, exec (.lui c wd imm) s = .next t ∧ sameLocal c s t ∧
      retires c 1 (some (wd, imm * 2 ^ 16)) none s t))

/-- Loads (R317): the value reaches wd with the next instruction; until then it stands pending. A misaligned address and one
that finds no memory raise exceptions 17 and 18. Stores (R318): the bytes in the core's SRAM and no other; a store elsewhere
is what its local register or window makes of it, and one that finds no place, or is misaligned, raises its exception. -/
def Obligations.ClerkLoadsAndStores : Prop :=
  (∀ (s : State) (c a w : Nat), clkAt s c a w →
    (∀ wd wa imm, isImm 8 wd wa imm w = true → ∃ t, exec (.lw c wd wa imm) s = .next t ∧
      (effAddr (clkOf s c) wa imm % 4 ≠ 0 → trapped c 17 (effAddr (clkOf s c) wa imm) s t) ∧
      (effAddr (clkOf s c) wa imm % 4 = 0 → clkLoad s c (effAddr (clkOf s c) wa imm) 4 = none →
        trapped c 18 (effAddr (clkOf s c) wa imm) s t) ∧
      (∀ v, effAddr (clkOf s c) wa imm % 4 = 0 → clkLoad s c (effAddr (clkOf s c) wa imm) 4 = some v →
        retires c 2 none (some (wd, v)) s t ∧ sameLocal c s t)) ∧
    (∀ wd wa imm, isImm 9 wd wa imm w = true → ∃ t, exec (.lh c wd wa imm) s = .next t ∧
      (effAddr (clkOf s c) wa imm % 2 ≠ 0 → trapped c 17 (effAddr (clkOf s c) wa imm) s t) ∧
      (effAddr (clkOf s c) wa imm % 2 = 0 → clkLoad s c (effAddr (clkOf s c) wa imm) 2 = none →
        trapped c 18 (effAddr (clkOf s c) wa imm) s t) ∧
      (∀ v, effAddr (clkOf s c) wa imm % 2 = 0 → clkLoad s c (effAddr (clkOf s c) wa imm) 2 = some v →
        retires c 2 none (some (wd, sx 16 v)) s t ∧ sameLocal c s t)) ∧
    (∀ wd wa imm, isImm 10 wd wa imm w = true → ∃ t, exec (.lhu c wd wa imm) s = .next t ∧
      (effAddr (clkOf s c) wa imm % 2 ≠ 0 → trapped c 17 (effAddr (clkOf s c) wa imm) s t) ∧
      (effAddr (clkOf s c) wa imm % 2 = 0 → clkLoad s c (effAddr (clkOf s c) wa imm) 2 = none →
        trapped c 18 (effAddr (clkOf s c) wa imm) s t) ∧
      (∀ v, effAddr (clkOf s c) wa imm % 2 = 0 → clkLoad s c (effAddr (clkOf s c) wa imm) 2 = some v →
        retires c 2 none (some (wd, v)) s t ∧ sameLocal c s t)) ∧
    (∀ wd wa imm, isImm 11 wd wa imm w = true → ∃ t, exec (.lb c wd wa imm) s = .next t ∧
      (clkLoad s c (effAddr (clkOf s c) wa imm) 1 = none →
        trapped c 18 (effAddr (clkOf s c) wa imm) s t) ∧
      (∀ v, clkLoad s c (effAddr (clkOf s c) wa imm) 1 = some v →
        retires c 2 none (some (wd, sx 8 v)) s t ∧ sameLocal c s t)) ∧
    (∀ wd wa imm, isImm 12 wd wa imm w = true → ∃ t, exec (.lbu c wd wa imm) s = .next t ∧
      (clkLoad s c (effAddr (clkOf s c) wa imm) 1 = none →
        trapped c 18 (effAddr (clkOf s c) wa imm) s t) ∧
      (∀ v, clkLoad s c (effAddr (clkOf s c) wa imm) 1 = some v →
        retires c 2 none (some (wd, v)) s t ∧ sameLocal c s t))) ∧
  (∀ (s : State) (c a w : Nat), clkAt s c a w →
    (∀ ws wa imm, isImm 13 ws wa imm w = true → ∃ t, exec (.sw c ws wa imm) s = .next t ∧
      (effAddr (clkOf s c) wa imm % 4 ≠ 0 → trapped c 17 (effAddr (clkOf s c) wa imm) s t) ∧
      (effAddr (clkOf s c) wa imm % 4 = 0 → effAddr (clkOf s c) wa imm < sramSize c →
        sramStored c (effAddr (clkOf s c) wa imm) 4 (regW (clkOf s c) ws) s t ∧ retires c 2 none none s t ∧
        (clkOf t c).outst = (clkOf s c).outst ∧ otherFields [clerkSliceCycle c] s t) ∧
      (∀ b, effAddr (clkOf s c) wa imm % 4 = 0 → sramSize c ≤ effAddr (clkOf s c) wa imm →
        clkStore c (effAddr (clkOf s c) wa imm) 4 (regW (clkOf s c) ws) (modClk c (fun q => { q with st := .running }) s) =
          some b → t = complete c 2 none none b) ∧
      (effAddr (clkOf s c) wa imm % 4 = 0 → clkStore c (effAddr (clkOf s c) wa imm) 4 (regW (clkOf s c) ws) s = none →
        trapped c 18 (effAddr (clkOf s c) wa imm) s t)) ∧
    (∀ ws wa imm, isImm 14 ws wa imm w = true → ∃ t, exec (.sh c ws wa imm) s = .next t ∧
      (effAddr (clkOf s c) wa imm % 2 ≠ 0 → trapped c 17 (effAddr (clkOf s c) wa imm) s t) ∧
      (effAddr (clkOf s c) wa imm % 2 = 0 → effAddr (clkOf s c) wa imm < sramSize c →
        sramStored c (effAddr (clkOf s c) wa imm) 2 (regW (clkOf s c) ws) s t ∧ retires c 2 none none s t ∧
        (clkOf t c).outst = (clkOf s c).outst ∧ otherFields [clerkSliceCycle c] s t) ∧
      (∀ b, effAddr (clkOf s c) wa imm % 2 = 0 → sramSize c ≤ effAddr (clkOf s c) wa imm →
        clkStore c (effAddr (clkOf s c) wa imm) 2 (regW (clkOf s c) ws) (modClk c (fun q => { q with st := .running }) s) =
          some b → t = complete c 2 none none b) ∧
      (effAddr (clkOf s c) wa imm % 2 = 0 → clkStore c (effAddr (clkOf s c) wa imm) 2 (regW (clkOf s c) ws) s = none →
        trapped c 18 (effAddr (clkOf s c) wa imm) s t)) ∧
    (∀ ws wa imm, isImm 15 ws wa imm w = true → ∃ t, exec (.sb c ws wa imm) s = .next t ∧
      (effAddr (clkOf s c) wa imm < sramSize c →
        sramStored c (effAddr (clkOf s c) wa imm) 1 (regW (clkOf s c) ws) s t ∧ retires c 2 none none s t ∧
        (clkOf t c).outst = (clkOf s c).outst ∧ otherFields [clerkSliceCycle c] s t) ∧
      (∀ b, sramSize c ≤ effAddr (clkOf s c) wa imm →
        clkStore c (effAddr (clkOf s c) wa imm) 1 (regW (clkOf s c) ws) (modClk c (fun q => { q with st := .running }) s) =
          some b → t = complete c 2 none none b) ∧
      (clkStore c (effAddr (clkOf s c) wa imm) 1 (regW (clkOf s c) ws) s = none →
        trapped c 18 (effAddr (clkOf s c) wa imm) s t)))

/-- BEQ, BNE, BLT, BGE, BLTU and BGEU (R319, R320) complete at a core that runs and whose front word is theirs, outside a
delay slot: the outcome follows from the registers at the branch's own issue, the hint changes the cost only, and an
suppresses the delay slot of a branch not taken. In a delay slot a branch raises exception 16. J, JAL, JALR and JALG (R319,
R362) complete outside a delay slot: the link, the delay slot and the target. A target that is not a multiple of 4 and a JALG
whose target holds no GATE raise exceptions 17 and 19 instead, and each of the four raises exception 16 in a delay slot. -/
def Obligations.ClerkBranchesAndJumps : Prop :=
  (∀ (s : State) (c a w wa wb an hi off : Nat), clkAt s c a w →
    ((clkOf s c).slot = none → isB 0x10 wa wb an hi off w = true → ∃ t, exec (.beq c wa wb an hi off) s = .next t ∧
      branchDone c a an hi off (decide (regW (clkOf s c) wa = regW (clkOf s c) wb)) s t) ∧
    ((clkOf s c).slot = none → isB 0x11 wa wb an hi off w = true → ∃ t, exec (.bne c wa wb an hi off) s = .next t ∧
      branchDone c a an hi off (decide (regW (clkOf s c) wa ≠ regW (clkOf s c) wb)) s t) ∧
    ((clkOf s c).slot = none → isB 0x12 wa wb an hi off w = true → ∃ t, exec (.blt c wa wb an hi off) s = .next t ∧
      branchDone c a an hi off (decide (s32 (regW (clkOf s c) wa) < s32 (regW (clkOf s c) wb))) s t) ∧
    ((clkOf s c).slot = none → isB 0x13 wa wb an hi off w = true → ∃ t, exec (.bge c wa wb an hi off) s = .next t ∧
      branchDone c a an hi off (decide (s32 (regW (clkOf s c) wb) ≤ s32 (regW (clkOf s c) wa))) s t) ∧
    ((clkOf s c).slot = none → isB 0x14 wa wb an hi off w = true → ∃ t, exec (.bltu c wa wb an hi off) s = .next t ∧
      branchDone c a an hi off (decide (regW (clkOf s c) wa < regW (clkOf s c) wb)) s t) ∧
    ((clkOf s c).slot = none → isB 0x15 wa wb an hi off w = true → ∃ t, exec (.bgeu c wa wb an hi off) s = .next t ∧
      branchDone c a an hi off (decide (regW (clkOf s c) wb ≤ regW (clkOf s c) wa)) s t) ∧
    (∀ (i : Instr) (op : Nat), (clkOf s c).slot ≠ none → (i, op) ∈ [(Instr.beq c wa wb an hi off, 0x10),
        (.bne c wa wb an hi off, 0x11), (.blt c wa wb an hi off, 0x12), (.bge c wa wb an hi off, 0x13),
        (.bltu c wa wb an hi off, 0x14), (.bgeu c wa wb an hi off, 0x15)] →
      isB op wa wb an hi off w = true → ∃ t, exec i s = .next t ∧ trapped c 16 w s t)) ∧
  (∀ (s : State) (c a w : Nat), clkAt s c a w →
    (∀ off, (clkOf s c).slot = none → isJ 0x16 off w = true → ∃ t, exec (.j c off) s = .next t ∧
      branched c a ((a + 4 * sx 26 off) % 2 ^ 32) true true false none 1 s t) ∧
    (∀ off, (clkOf s c).slot = none → isJ 0x17 off w = true → ∃ t, exec (.jal c off) s = .next t ∧
      branched c a ((a + 4 * sx 26 off) % 2 ^ 32) true true false (some (31, a + 8)) 1 s t) ∧
    (∀ wd wa imm, (clkOf s c).slot = none → isImm 0x18 wd wa imm w = true → effAddr (clkOf s c) wa imm % 4 = 0 →
      ∃ t, exec (.jalr c wd wa imm) s = .next t ∧
        branched c a (effAddr (clkOf s c) wa imm) true false false (some (wd, a + 8)) 3 s t) ∧
    (∀ wd wa imm, (clkOf s c).slot = none → isImm 0x19 wd wa imm w = true → effAddr (clkOf s c) wa imm % 4 = 0 →
      fetchWord c (clkOf s c) (effAddr (clkOf s c) wa imm) = some 0x78000005 → ∃ t, exec (.jalg c wd wa imm) s = .next t ∧
        branched c a (effAddr (clkOf s c) wa imm) true false false (some (wd, a + 8)) 3 s t) ∧
    (∀ wd wa imm, (clkOf s c).slot = none → isImm 0x18 wd wa imm w = true → effAddr (clkOf s c) wa imm % 4 ≠ 0 →
      ∃ t, exec (.jalr c wd wa imm) s = .next t ∧ trapped c 17 (effAddr (clkOf s c) wa imm) s t) ∧
    (∀ wd wa imm, (clkOf s c).slot = none → isImm 0x19 wd wa imm w = true → effAddr (clkOf s c) wa imm % 4 ≠ 0 →
      ∃ t, exec (.jalg c wd wa imm) s = .next t ∧ trapped c 17 (effAddr (clkOf s c) wa imm) s t) ∧
    (∀ wd wa imm, (clkOf s c).slot = none → isImm 0x19 wd wa imm w = true → effAddr (clkOf s c) wa imm % 4 = 0 →
      fetchWord c (clkOf s c) (effAddr (clkOf s c) wa imm) ≠ some 0x78000005 → ∃ t, exec (.jalg c wd wa imm) s = .next t ∧
        trapped c 19 (effAddr (clkOf s c) wa imm) s t ∧ (isAssayerCore c = true → t.assayer.abandon = true)) ∧
    (∀ off wd wa imm (i : Instr), (clkOf s c).slot ≠ none →
      (i = .j c off ∧ isJ 0x16 off w = true) ∨ (i = .jal c off ∧ isJ 0x17 off w = true) ∨
        (i = .jalr c wd wa imm ∧ isImm 0x18 wd wa imm w = true) ∨ (i = .jalg c wd wa imm ∧ isImm 0x19 wd wa imm w = true) →
      ∃ t, exec i s = .next t ∧ trapped c 16 w s t))

/-- MLD, MST, MLDD and MSTD (R321) complete when their address is aligned, a management access may reach its region and fewer
than eight are outstanding: the access joins the core's outstanding ones. With eight of those nothing issues; a misaligned
address raises exception 17, and one that no management access reaches exception 18. MGMT_RESPONSE and MGMT_TIMEOUT (R321):
the oldest access of a region completes; a load's value enters its register, a semaphore reads its value and becomes 1, and
after 180 cycles without a response the access ends with an error. -/
def Obligations.ClerkManagementAccessesAndResponses : Prop :=
  (∀ (s : State) (c a w wd wa imm : Nat), clkAt s c a w →
    (∀ g, isImm 0x1A wd wa imm w = true → effAddr (clkOf s c) wa imm % 4 = 0 →
      mgmtRegion c (effAddr (clkOf s c) wa imm) 4 false = some g → (clkOf s c).outst.length < 8 →
      ∃ t, exec (.mld c wd wa imm) s = .next t ∧ mgmtIssued c ⟨g, effAddr (clkOf s c) wa imm, 4, false, 0, wd, clkNow s c⟩ s t) ∧
    (∀ g, isImm 0x1B wd wa imm w = true → effAddr (clkOf s c) wa imm % 4 = 0 →
      mgmtRegion c (effAddr (clkOf s c) wa imm) 4 true = some g → (clkOf s c).outst.length < 8 →
      ∃ t, exec (.mst c wd wa imm) s = .next t ∧
        mgmtIssued c ⟨g, effAddr (clkOf s c) wa imm, 4, true, regW (clkOf s c) wd, wd, clkNow s c⟩ s t) ∧
    (∀ g, isImm 0x1C wd wa imm w = true → effAddr (clkOf s c) wa imm % 8 = 0 →
      mgmtRegion c (effAddr (clkOf s c) wa imm) 8 false = some g → (clkOf s c).outst.length < 8 →
      ∃ t, exec (.mldd c wd wa imm) s = .next t ∧ mgmtIssued c ⟨g, effAddr (clkOf s c) wa imm, 8, false, 0, wd, clkNow s c⟩ s t) ∧
    (∀ g, isImm 0x1D wd wa imm w = true → effAddr (clkOf s c) wa imm % 8 = 0 →
      mgmtRegion c (effAddr (clkOf s c) wa imm) 8 true = some g → (clkOf s c).outst.length < 8 →
      ∃ t, exec (.mstd c wd wa imm) s = .next t ∧ mgmtIssued c ⟨g, effAddr (clkOf s c) wa imm, 8, true,
        regW (clkOf s c) wd + 2 ^ 32 * regW (clkOf s c) ((wd + 1) % 32), wd, clkNow s c⟩ s t) ∧
    (∀ (i : Instr) (op n : Nat) (wr : Bool), (i, op, n, wr) ∈ [(Instr.mld c wd wa imm, 0x1A, 4, false),
        (.mst c wd wa imm, 0x1B, 4, true), (.mldd c wd wa imm, 0x1C, 8, false), (.mstd c wd wa imm, 0x1D, 8, true)] →
      isImm op wd wa imm w = true → ∃ t, exec i s = .next t ∧
        (effAddr (clkOf s c) wa imm % n ≠ 0 → trapped c 17 (effAddr (clkOf s c) wa imm) s t) ∧
        (effAddr (clkOf s c) wa imm % n = 0 → mgmtRegion c (effAddr (clkOf s c) wa imm) n wr = none →
          trapped c 18 (effAddr (clkOf s c) wa imm) s t) ∧
        (∀ g, effAddr (clkOf s c) wa imm % n = 0 → mgmtRegion c (effAddr (clkOf s c) wa imm) n wr = some g →
          8 ≤ (clkOf s c).outst.length → clkOf t c = clkOf s c ∧ otherCores c s t ∧ samePart .regs s t))) ∧
  (∀ (s : State) (c : Nat) (q : MReq), oldestReq s c q.region = some q →
    (q.region = 0 → q.write = false → q.size = 4 → ∃ t, exec (.mgmtResponse c 0) s = .next t ∧
      (clkOf t c).outst = (clkOf s c).outst.erase q ∧
      (∀ i, i ≠ 0 → regW (clkOf t c) i =
        if i = q.reg then getLE (cplxOf s (complexOf c)).store (q.addr - 0x100000) 4 % 2 ^ 32 else regW (clkOf s c) i) ∧
      samePart .cplx s t ∧ otherFields [clerkMstatOutstanding c] s t) ∧
    (q.region = 0 → q.write = true → ∃ t, exec (.mgmtResponse c 0) s = .next t ∧
      (clkOf t c).outst = (clkOf s c).outst.erase q ∧
      (cplxOf t (complexOf c)).store =
        putLE (cplxOf s (complexOf c)).store (q.addr - 0x100000) q.size (q.val % 256 ^ q.size) ∧
      (∀ x, x ≠ complexOf c → cplxOf t x = cplxOf s x) ∧ otherFields [clerkMstatOutstanding c] s t) ∧
    (q.region = 1 → q.write = false → q.size = 4 → ∃ t, exec (.mgmtResponse c 1) s = .next t ∧
      (∀ i, i ≠ 0 → regW (clkOf t c) i =
        if i = q.reg then tget 0 (cplxOf s (complexOf c)).sem ((q.addr - 0x120000) / 4) % 2 ^ 32 else regW (clkOf s c) i) ∧
      tget 0 (cplxOf t (complexOf c)).sem ((q.addr - 0x120000) / 4) = 1) ∧
    (q.region = 1 → q.write = true → ∃ t, exec (.mgmtResponse c 1) s = .next t ∧
      tget 0 (cplxOf t (complexOf c)).sem ((q.addr - 0x120000) / 4) = q.val % 2 ^ 32) ∧
    (q.region = 2 → offFenced s (apertureOff s c q.addr) = true → q.size = 4 → ∃ t, exec (.mgmtResponse c 2) s = .next t ∧
      (clkOf t c).outst = (clkOf s c).outst.erase q ∧ rdB t (clerkMstatErr c) = true ∧
      (rdB s (clerkMstatErr c) = false → rd t (clerkMerrAddress c) = q.addr % 2 ^ 32) ∧
      (q.write = false → q.reg ≠ 0 → regW (clkOf t c) q.reg = 0)) ∧
    (clkNow s c < q.issued + 180 → exec (.mgmtTimeout c q.region) s = .next s) ∧
    (q.issued + 180 ≤ clkNow s c → q.size = 4 → ∃ t, exec (.mgmtTimeout c q.region) s = .next t ∧
      (clkOf t c).outst = (clkOf s c).outst.erase q ∧ rdB t (clerkMstatErr c) = true ∧
      (rdB s (clerkMstatErr c) = false → rd t (clerkMerrAddress c) = q.addr % 2 ^ 32) ∧
      (rdB s (clerkMstatErr c) = true → rd t (clerkMerrAddress c) = rd s (clerkMerrAddress c)) ∧
      (q.write = false → q.reg ≠ 0 → regW (clkOf t c) q.reg = 0)))

/-- WAIT, ERET, MSYNC, CHECKIN, TRAP, GATE, DI and EI (Table 12.5, R321, R323) complete at a core that runs and whose front
word is theirs; MSYNC waits while an access is outstanding, and raises exception 21 after one that failed. A word that Tables
12.4 and 12.5 do not define raises exception 16 with the word, and an address without memory exception 18 with the address,
whatever instruction the command names. -/
def Obligations.ClerkSystemInstructionsAndTraps : Prop :=
  (∀ (s : State) (c a w : Nat), clkAt s c a w →
    (isSys 0 w = true → ∃ t, exec (.wait c) s = .next t ∧ (clkOf t c).st = .waiting ∧ retires c 1 none none s t ∧
      sameLocal c s t) ∧
    (isSys 1 w = true → ∃ t, exec (.eret c) s = .next t ∧ rd t (clerkStatusIe c) = rd s (clerkStatusPie c) % 2 ∧
      regsAfter c none s t ∧ (clkOf t c).load = none ∧ tookCycles c 3 s t ∧ otherCores c s t ∧
      otherFields [clerkStatusIe c, clerkSliceCycle c] s t ∧
      (rdB s (clerkCauseBd c) = false → (clkOf t c).slot = none ∧
        (clkOf t c).fetch.head?.map (·.1) = some (rd s (clerkEpcEpc c) % 2 ^ 32)) ∧
      (rdB s (clerkCauseBd c) = true →
        (clkOf t c).slot = some ⟨rd s (clerkEpcEpc c), rd s (clerkBtargetTarget c), rdB s (clerkCauseTaken c)⟩ ∧
        (clkOf t c).fetch.head?.map (·.1) = some ((rd s (clerkEpcEpc c) + 4) % 2 ^ 32) ∧
        (rdB s (clerkCauseTaken c) = true →
          ((clkOf t c).fetch.map (·.1)).take 2 = [(rd s (clerkEpcEpc c) + 4) % 2 ^ 32, rd s (clerkBtargetTarget c)]))) ∧
    (isSys 2 w = true → (clkOf s c).outst = [] → rdB s (clerkMstatErr c) = false → ∃ t, exec (.msync c) s = .next t ∧
      retires c 1 none none s t ∧ sameLocal c s t) ∧
    (isSys 2 w = true → (clkOf s c).outst = [] → rdB s (clerkMstatErr c) = true → ∃ t, exec (.msync c) s = .next t ∧
      trapped c 21 (rd s (clerkMerrAddress c)) s t) ∧
    (isSys 2 w = true → (clkOf s c).outst ≠ [] → ∃ t, exec (.msync c) s = .next t ∧ clkOf t c = clkOf s c ∧
      samePart .regs s t) ∧
    (isSys 3 w = true → ∃ t, exec (.checkin c) s = .next t ∧ retires c 1 none none s t ∧
      (c < 8 → ∀ k ∈ complexCores (complexOf c), rd t (clerkHbChecked k) = (rd s (clerkHbChecked k) ||| 2 ^ (c % 4)) % 16) ∧
      (8 ≤ c → rd t (clerkHbChecked c) = (rd s (clerkHbChecked c) ||| 1) % 16 ∧ t.assayer.beaten = true)) ∧
    (∀ sh, isSys 4 w = true → fieldSh w = sh → ∃ t, exec (.trap c sh) s = .next t ∧ trapped c 20 sh s t) ∧
    (isSys 5 w = true → ∃ t, exec (.gate c) s = .next t ∧ retires c 1 none none s t ∧ sameLocal c s t) ∧
    (isSys 6 w = true → ∃ t, exec (.di c) s = .next t ∧ retires c 1 none none s t ∧ rd t (clerkStatusIe c) = 0 ∧
      otherFields [clerkStatusIe c, clerkSliceCycle c] s t) ∧
    (isSys 7 w = true → ∃ t, exec (.ei c) s = .next t ∧ retires c 1 none none s t ∧ rd t (clerkStatusIe c) = 1 ∧
      otherFields [clerkStatusIe c, clerkSliceCycle c] s t)) ∧
  (∀ (s : State) (c a : Nat) (rest : List (Nat × Option Nat)), (clkOf s c).st = .running →
    (∀ w wd wa wb, (clkOf s c).fetch = (a, some w) :: rest → definedWord w = false →
      ∃ t, exec (.add c wd wa wb) s = .next t ∧ trapped c 16 w s t) ∧
    (∀ wd wa wb, (clkOf s c).fetch = (a, none) :: rest → ∃ t, exec (.add c wd wa wb) s = .next t ∧ trapped c 18 a s t))

/-- CLERK_INTERRUPT_ENTRY, CLERK_IPI_SEND, CLERK_SRAM_UE and CLERK_CLAIM. -/
def Obligations.ClerkInterruptsAndClaims : Prop :=
  ∀ s : State,
    (∀ c code, clkLive s c = true → rdB s (clerkStatusIe c) = true → code < 7 → inMask (clkPending s c) code = true →
      (clkOf s c).slot = none → (clkOf s c).load = none → (clkOf s c).outst = [] →
      ∃ t, exec (.clerkInterruptEntry c code) s = .next t ∧ rd t (clerkCauseCode c) = code ∧
        rd t (clerkCauseInterrupt c) = 1 ∧ rd t (clerkCauseBd c) = 0 ∧ rd t (clerkStatusIe c) = 0 ∧
        rd t (clerkStatusPie c) = 1 ∧ rd t (clerkTvalValue c) = tget 0 (clkOf s c).why code % 2 ^ 32 ∧
        (∀ e, (clkOf s c).fetch.head? = some e → rd t (clerkEpcEpc c) = e.1 % 2 ^ 32) ∧
        (clkOf t c).fetch.head?.map (·.1) = some ((rd s (clerkVectorBase c) * 4096 + code * 0x40) % 2 ^ 32) ∧
        (clkOf t c).st = .running ∧ (clkOf t c).w = (clkOf s c).w ∧ tookCycles c 3 s t ∧ otherCores c s t) ∧
    (∀ c code, rdB s (clerkStatusIe c) = false ∨ (clkOf s c).slot ≠ none ∨ (clkOf s c).load ≠ none ∨
        (clkOf s c).outst ≠ [] → exec (.clerkInterruptEntry c code) s = .next s) ∧
    (∀ c mask, c < 8 → ∃ t, exec (.clerkIpiSend c mask) s = .next t ∧ ∀ k, k < 4 →
      (inMask (mask % 16) k = true → clkLive s (complexOf c * 4 + k) = true →
        rd t (clerkIpPending (complexOf c * 4 + k)) = (rd s (clerkIpPending (complexOf c * 4 + k)) ||| 32) % 2 ^ 7 ∧
        tget 0 (clkOf t (complexOf c * 4 + k)).why 5 = c % 4) ∧
      (inMask (mask % 16) k = false ∨ clkLive s (complexOf c * 4 + k) = false →
        clkOf t (complexOf c * 4 + k) = clkOf s (complexOf c * 4 + k) ∧
        rd t (clerkIpPending (complexOf c * 4 + k)) = rd s (clerkIpPending (complexOf c * 4 + k)))) ∧
    (∀ c, clkLive s c = true → ∃ t, exec (.clerkSramUe c) s = .next t ∧ (clkOf t c).st = .stopped ∧
      (clkOf t c).w = (clkOf s c).w ∧ otherCores c s t ∧ samePart .regs s t) ∧
    (∀ x h v, x < 2 → v % 2 = 1 → s.toss.holder = some h → h ≠ x → (cplxOf s x).fenced = false → s.toss.pass = none →
      ∃ t, exec (.clerkClaim x v) s = .next t ∧ (∀ c ∈ complexCores x, rd t (clerkTossClaim c) = 1) ∧
        (2 ≤ tget 0 s.toss.misses h → t.toss.pass = some (x, beat s + 1, 2)) ∧
        (tget 0 s.toss.misses h < 2 → t.toss.pass = none ∧ (∀ c ∈ complexCores x, rd t (clerkTossForcedJunior c) = 1) ∧
          recordedIn 2 7 x 0x0702 s t)) ∧
    (∀ x v, x < 2 → v % 2 = 1 → s.toss.holder = some x → ∃ t, exec (.clerkClaim x v) s = .next t ∧ samePart .toss s t ∧
      samePart .ras s t ∧ samePart .boot s t) ∧
    (∀ x v, x < 2 → v % 2 = 0 → ∃ t, exec (.clerkClaim x v) s = .next t ∧
      (∀ c ∈ complexCores x, rd t (clerkTossClaim c) = 0) ∧
      (rdB s (clerkTossForcedJunior (4 * x)) = true → x ∈ t.toss.unforce))

/-! ## Main cores -/

/-- MAIN_CORE_LOAD, MAIN_CORE_STORE and MAIN_CORE_AMO that the core answers from its own L2 complete. A load's bytes reach
its register, sign- or zero-extended, NaN-boxed, or as an element of a vector. A store and an atomic write the line, which
becomes modified, and end other harts' reservations of it (R70); LR takes a reservation, SC stores only under one and reports
which. The retired access trains the prefetchers that are enabled (R68), and a store of a pair with an inverted output armed
presents it and freezes the pair (R109). A fault is raised with its cause and address, and its element (R74). A miss that is
early waits in the core's miss queue and changes nothing else that outlives it (R66). The same commands wherever their lines
or registers stand, from the state in which the access is presented and translated: with all lines at the core, held in L2,
fetched or split over two (R73), the access is performed; else what the lines' requests left stands, and it is repeated or
ends in its exception. Not cached, it is performed at the home slice, or goes to the home as a request that the hart waits
for (R59, R67, R78), as do loads of other devices' windows and of ports; a store is posted. A translation that no TLB holds
is walked first, each page-table entry through the L2 as a load (R66). CBO_CLEAN, CBO_FLUSH, CBO_INVAL, CBO_ZERO and
PREFETCH_HINT. The first three are accepted by the home slice, and their hart waits until it reports them done (R60); those
that their envcfg fields do not enable raise their exception, and those to what is no main memory, what PMP denies (log entry
45) or what belongs to another tenancy an access fault. CBO_ZERO clears its line without reading it (R179): in the core that
takes it for itself, at its home where its page or dbypass keeps it out of the caches, or as a write sent to the line's home.
One that runs ahead waits as a miss does (R66). A hint that would fault, or whose cache is bypassed, is dropped, and another
asks for its line. -/
def Obligations.MainCoreAccessesAndCacheBlocks : Prop :=
  ((∀ (s : State) (h : Nat) (a : MemAcc),
    (∀ core l r sg, l2Hit s h a core l → r < 32 → accessFault s h a 4 5 false false = none →
      ∃ t u, exec (.mainCoreLoad h a r sg) s = .next t ∧ t = trainPrefetch h a u ∧ (quiet s h → t = u) ∧
        gotX h r (extend a.size sg (lineGet l.data (a.pa % 64) a.size)) s u ∧ (hartOf u h).pc = a.pc ∧ hartKept h s u ∧
        otherHarts h s u ∧ sameL2 s u ∧ samePart .regs s u ∧ samePart .slices s u ∧ dramKept s u ∧ samePart .outs s u) ∧
    (∀ core l r sg, l2Hit s h a core l → 32 ≤ r → r < 64 → a.size ≤ 8 → accessFault s h a 4 5 false false = none →
      ∃ t u, exec (.mainCoreLoad h a r sg) s = .next t ∧ t = trainPrefetch h a u ∧ (quiet s h → t = u) ∧
        (∀ i, tget 0 (hartOf u h).fp i = if i = r - 32 then
          lineGet l.data (a.pa % 64) a.size % 2 ^ (8 * a.size) + (2 ^ 64 - 2 ^ (8 * a.size)) else tget 0 (hartOf s h).fp i) ∧
        (hartOf u h).x = (hartOf s h).x ∧ (hartOf u h).vec = (hartOf s h).vec ∧ otherHarts h s u ∧ sameL2 s u ∧
        samePart .regs s u ∧ dramKept s u) ∧
    (∀ core l r sg, l2Hit s h a core l → 64 ≤ r → a.size ≤ 32 → (r - 64) / 32 * a.size % 32 + a.size ≤ 32 →
      accessFault s h a 4 5 false false = none →
      ∃ t u, exec (.mainCoreLoad h a r sg) s = .next t ∧ t = trainPrefetch h a u ∧ (quiet s h → t = u) ∧
        tget 0 (hartOf u h).vec (r % 32 + (r - 64) / 32 * a.size / 32) / 2 ^ (8 * ((r - 64) / 32 * a.size % 32)) % 2 ^ (8 * a.size) =
          lineGet l.data (a.pa % 64) a.size ∧
        (∀ k, k ≠ r % 32 + (r - 64) / 32 * a.size / 32 → tget 0 (hartOf u h).vec k = tget 0 (hartOf s h).vec k) ∧
        (hartOf u h).x = (hartOf s h).x ∧ (hartOf u h).fp = (hartOf s h).fp ∧ otherHarts h s u ∧ sameL2 s u ∧
        samePart .regs s u ∧ dramKept s u) ∧
    (∀ c x r sg, hartRuns s h = true → a.size ≠ 0 → noWalk s h a → accessFault s h a 4 5 false false = some (c, x) →
      ∃ t, exec (.mainCoreLoad h a r sg) s = .next t ∧ raised h a.pc c x s t ∧ samePart .regs s t ∧
        tget 0 (hartOf t h).csr 0x008 = if a.vector = true then a.elem % 2 ^ 64 else tget 0 (hartOf s h).csr 0x008) ∧
    (∀ core l v y, l2Hit s h a core l → l.st ≠ .s → noInvert s h → accessFault s h a 6 7 false false = none →
      ∃ t u, exec (.mainCoreStore h a v y) s = .next t ∧ t = trainPrefetch h a u ∧ (quiet s h → t = u) ∧
        l2Of u core (lineOf a.pa) = some { l with st := .m, data := linePut l.data (a.pa % 64) a.size v } ∧
        (∀ c n, c ≠ core ∨ n ≠ lineOf a.pa → l2Of u c n = l2Of s c n) ∧
        (∀ k, k ≠ h → (hartOf s k).resv = some (lineOf a.pa) → (hartOf u k).resv = none) ∧
        (hartOf u h).x = (hartOf s h).x ∧ (hartOf u h).pc = a.pc ∧ hartKept h s u ∧ samePart .regs s u ∧ samePart .slices s u ∧
        dramKept s u ∧ samePart .outs s u) ∧
    (∀ core l v y p, l2Hit s h a core l → l.st ≠ .s → pairOfHart s h = some p → invertArmed s p = true →
      accessFault s h a 6 7 false false = none → ∃ t, exec (.mainCoreStore h a v y) s = .next t ∧ comparedBad h s t) ∧
    (∀ c x v y, hartRuns s h = true → a.size ≠ 0 → noWalk s h a → accessFault s h a 6 7 false false = some (c, x) →
      ∃ t, exec (.mainCoreStore h a v y) s = .next t ∧ raised h a.pc c x s t ∧ samePart .regs s t ∧
        tget 0 (hartOf t h).csr 0x008 = if a.vector = true then a.elem % 2 ^ 64 else tget 0 (hartOf s h).csr 0x008) ∧
    (∀ core l op v cmp r y, l2Hit s h a core l → l.st ≠ .s → op ≠ .lr → op ≠ .sc → a.size = 4 ∨ a.size = 8 → noInvert s h →
      accessFault s h a 6 7 true false = none →
      ∃ t u, exec (.mainCoreAmo h a op v cmp r y) s = .next t ∧ t = trainPrefetch h a u ∧ (quiet s h → t = u) ∧
        gotX h r (sext a.size (lineGet l.data (a.pa % 64) a.size)) s u ∧
        l2Of u core (lineOf a.pa) = some ⟨l.tag, .m, l.poison, linePut l.data (a.pa % 64) a.size
          (amoStore op a.size (lineGet l.data (a.pa % 64) a.size) v cmp)⟩ ∧
        (∀ c n, c ≠ core ∨ n ≠ lineOf a.pa → l2Of u c n = l2Of s c n) ∧ samePart .regs s u ∧ dramKept s u) ∧
    (∀ core l op v cmp r y, l2Hit s h a core l → l.st ≠ .s → op ≠ .lr → op ≠ .sc → a.size = 16 → noInvert s h →
      accessFault s h a 6 7 true false = none →
      ∃ t u, exec (.mainCoreAmo h a op v cmp r y) s = .next t ∧ t = trainPrefetch h a u ∧ (quiet s h → t = u) ∧
        l2Of u core (lineOf a.pa) = some ⟨l.tag, .m, l.poison, linePut l.data (a.pa % 64) 16
          (amoStore op 16 (lineGet l.data (a.pa % 64) 16) v cmp)⟩ ∧
        (∀ i, i ≠ 0 → tget 0 (hartOf u h).x i = if r = 0 then tget 0 (hartOf s h).x i
          else if i = r then lineGet l.data (a.pa % 64) 16 % 2 ^ 64
          else if i = r + 1 then lineGet l.data (a.pa % 64) 16 / 2 ^ 64 % 2 ^ 64 else tget 0 (hartOf s h).x i)) ∧
    (∀ core l op v cmp r y p, l2Hit s h a core l → l.st ≠ .s → op ≠ .lr → pairOfHart s h = some p → invertArmed s p = true →
      accessFault s h a 6 7 true (op == .sc) = none → ∃ t, exec (.mainCoreAmo h a op v cmp r y) s = .next t ∧ comparedBad h s t) ∧
    (∀ core l v cmp r y, l2Hit s h a core l → l.st ≠ .s → a.size = 4 ∨ a.size = 8 → accessFault s h a 4 5 true true = none →
      ∃ t u, exec (.mainCoreAmo h a .lr v cmp r y) s = .next t ∧ t = trainPrefetch h a u ∧ (quiet s h → t = u) ∧
        (hartOf u h).resv = some (lineOf a.pa) ∧
        gotX h r (sext a.size (lineGet l.data (a.pa % 64) a.size)) s u ∧ sameL2 s u) ∧
    (∀ core l v cmp r y, l2Hit s h a core l → l.st ≠ .s → noInvert s h → accessFault s h a 6 7 true true = none →
      ∃ t u, exec (.mainCoreAmo h a .sc v cmp r y) s = .next t ∧ t = trainPrefetch h a u ∧ (quiet s h → t = u) ∧
        (hartOf u h).resv = none ∧
        ((hartOf s h).resv = some (lineOf a.pa) → gotX h r 0 s u ∧ l2Of u core (lineOf a.pa) = some { l with
          st := .m, data := linePut l.data (a.pa % 64) a.size (amoStore .sc a.size (lineGet l.data (a.pa % 64) a.size) v cmp) }) ∧
        ((hartOf s h).resv ≠ some (lineOf a.pa) → gotX h r 1 s u ∧ sameL2 s u)) ∧
    (∀ c x op v cmp r y, hartRuns s h = true → a.size ≠ 0 → noWalk s h a →
      accessFault s h a (if op = .lr then 4 else 6) (if op = .lr then 5 else 7) true (op == .lr || op == .sc) = some (c, x) →
      ∃ t, exec (.mainCoreAmo h a op v cmp r y) s = .next t ∧ raised h a.pc c x s t ∧ samePart .regs s t) ∧
    (∀ core r sg, hartRuns s h = true → a.size ≠ 0 → noWalk s h a → isMain a.pa = true → bypassed s h a = false →
      coreOfHart s h = some core → a.size ≤ 64 - a.pa % 64 → l2Of s core (lineOf a.pa) = none → a.early = true →
      accessFault s h a 4 5 false false = none → ∃ t, exec (.mainCoreLoad h a r sg) s = .next t ∧
        (∃ e, (lineOf a.pa, e) ∈ (coreOf t core).missQ) ∧ (hartOf t h).x = (hartOf s h).x ∧ hartKept h s t ∧ sameL2 s t ∧
        samePart .regs s t ∧ samePart .slices s t ∧ samePart .mem s t ∧ samePart .outs s t)) ∧
  (∀ (s p0 p : State) (h : Nat) (a : MemAcc) (tag line n : Nat), hartRuns s h = true → a.size ≠ 0 → p = translate h a p0 →
    tag = ownerOf p h → line = lineOf a.pa → n = homeSlice p tag line →
    (∀ r sg core s1, p0 = present h a (decide (32 ≤ r ∧ r < 64)) s → walker p0 h a = some core →
      (walkLines h core (ownerOf p0 h) a.early a.walk p0 = (s1, none) → exec (.mainCoreLoad h a r sg) s =
        .next (loadAt h a r sg (if a.fault1.isSome then s1 else translate h a s1))) ∧
      (walkLines h core (ownerOf p0 h) a.early a.walk p0 = (s1, some .wait) → exec (.mainCoreLoad h a r sg) s = .next s1) ∧
      (walkLines h core (ownerOf p0 h) a.early a.walk p0 = (s1, some .poison) →
        exec (.mainCoreLoad h a r sg) s = .next (raise h 19 a.va s1)) ∧
      (walkLines h core (ownerOf p0 h) a.early a.walk p0 = (s1, some .refused) →
        exec (.mainCoreLoad h a r sg) s = .next (raise h 5 a.va s1))) ∧
    (∀ v y core s1, p0 = present h a a.fp s → walker p0 h a = some core →
      walkLines h core (ownerOf p0 h) a.early a.walk p0 = (s1, none) → exec (.mainCoreStore h a v y) s =
        .next (storeAt h a v y (if a.fault1.isSome then s1 else translate h a s1))) ∧
    (∀ op v cmp r y core s1, p0 = present h a false s → walker p0 h a = some core →
      walkLines h core (ownerOf p0 h) a.early a.walk p0 = (s1, none) → exec (.mainCoreAmo h a op v cmp r y) s =
        .next (amoAt h a op v cmp r y (if a.fault1.isSome then s1 else translate h a s1))) ∧
    (∀ r sg, p0 = present h a (decide (32 ≤ r ∧ r < 64)) s → noWalk p0 h a → accessFault p h a 4 5 false false = none →
      (∀ core s1 ds, isMain a.pa = true → bypassed p h a = false → coreOfHart p h = some core →
        getLines core tag false a.early (partsOf a) (meet h core tag a p) = (s1, ds, none) →
        exec (.mainCoreLoad h a r sg) s =
          .next (retire h a (fillFirst core a (deliverLoad h r a.size sg (joinParts (partsOf a) ds) s1)))) ∧
      (∀ core s1 ds i g, isMain a.pa = true → bypassed p h a = false → coreOfHart p h = some core →
        getLines core tag false a.early (partsOf a) (meet h core tag a p) = (s1, ds, some (i, g)) →
        exec (.mainCoreLoad h a r sg) s = .next (failed h a 5 i g s1)) ∧
      (∀ s1 v, isMain a.pa = true → bypassed p h a = true → a.early = false → mayReach p tag line = true →
        ncClear p tag line false = true → currentLine (.hart h) line tag p = (s1, .data v false) →
        exec (.mainCoreLoad h a r sg) s = .next (retire h a (deliverLoad h r a.size sg (lineGet v (a.pa % 64) a.size) s1))) ∧
      (∀ s1 v, isMain a.pa = true → bypassed p h a = true → a.early = false → mayReach p tag line = true →
        ncClear p tag line false = true → currentLine (.hart h) line tag p = (s1, .data v true) →
        exec (.mainCoreLoad h a r sg) s = .next (raise h 19 a.va s1)) ∧
      (∀ s1, isMain a.pa = true → bypassed p h a = true → a.early = false → mayReach p tag line = true →
        ncClear p tag line false = true → currentLine (.hart h) line tag p = (s1, .wait) → exec (.mainCoreLoad h a r sg) s = .next s1) ∧
      (∀ s1, isMain a.pa = true → bypassed p h a = true → a.early = false → mayReach p tag line = true →
        ncClear p tag line false = true → currentLine (.hart h) line tag p = (s1, .far) →
        exec (.mainCoreLoad h a r sg) s = .next (farAccess h (outDev p line) 3 r a sg 0 0 0 s1) ∧
        (ownerOf s1 h = tag → mayAsk s1 h (outDev p line) → (∀ q, recorded s1 h a.pa a.size 3 0 ≠ some q) → outDev p line ≥ 64 →
          askedFor (outDev p line) 3 a.pa tag (.hart h r a.size sg a.va a.more) s1 (farAccess h (outDev p line) 3 r a sg 0 0 0 s1))) ∧
      (isMain a.pa = true → bypassed p h a = true → a.early = false → mayReach p tag line = false →
        exec (.mainCoreLoad h a r sg) s = .next (raise h 5 a.va (refuseLine a.pa tag p))) ∧
      (isMain a.pa = true → bypassed p h a = true → a.early = false → mayReach p tag line = true →
        ncClear p tag line false = false → exec (.mainCoreLoad h a r sg) s = .next (ncOpen (.hart h) tag line false p)) ∧
      (∀ g, regionOf (offOf a.pa) = .io g → a.early = false → homeOf a.pa = myId p →
        exec (.mainCoreLoad h a r sg) s = .next (ioLoadAt h g r a sg p (ioAt p g tag a.pa a.size))) ∧
      (∀ g x, regionOf (offOf a.pa) = .io g → a.early = false → homeOf a.pa = myId p → ioAt p g tag a.pa a.size = .page x →
        exec (.mainCoreLoad h a r sg) s = .next (endAccess h a.more (deliverLoad h r a.size sg (fixedRead p g x a.size) p))) ∧
      (∀ g x, regionOf (offOf a.pa) = .io g → a.early = false → homeOf a.pa = myId p → ioAt p g tag a.pa a.size = .port x →
        mayAsk p h (64 + g) → (∀ q, recorded p h a.pa a.size 3 0 ≠ some q) →
        ∃ t, exec (.mainCoreLoad h a r sg) s = .next t ∧ askedFor (64 + g) 3 a.pa tag (.hart h r a.size sg a.va a.more) p t) ∧
      (∀ g x, regionOf (offOf a.pa) = .io g → a.early = false → homeOf a.pa = myId p → ioAt p g tag a.pa a.size = .host x →
        mayAsk p h (64 + g) → (∀ q, recorded p h x a.size 3 0 ≠ some q) →
        ∃ t, exec (.mainCoreLoad h a r sg) s = .next t ∧ askedFor (64 + g) 3 x tag (.hart h r a.size sg a.va a.more) p t) ∧
      (∀ g x, regionOf (offOf a.pa) = .io g → a.early = false → homeOf a.pa = myId p → ioAt p g tag a.pa a.size = .port x →
        hartWaits p h = true → exec (.mainCoreLoad h a r sg) s = .next p) ∧
      (regionOf (offOf a.pa) = .control → a.early = false → homeOf a.pa = myId p → exec (.mainCoreLoad h a r sg) s =
        .next (endAccess h a.more (windowAccess h (offOf a.pa - 0x3FF000000000) a.size r sg false 0 p))) ∧
      (∀ g, regionOf (offOf a.pa) = .control ∨ regionOf (offOf a.pa) = .io g → a.early = false → homeOf a.pa ≠ myId p →
        exec (.mainCoreLoad h a r sg) s = .next (farAccess h (homeOf a.pa) 3 r a sg 0 0 0 p)) ∧
      (isMain a.pa = false ∨ bypassed p h a = true → a.early = true → exec (.mainCoreLoad h a r sg) s = .next p)) ∧
    (∀ v y, p0 = present h a a.fp s → noWalk p0 h a → accessFault p h a 6 7 false false = none →
      (∀ core s1 ds, isMain a.pa = true → bypassed p h a = false → coreOfHart p h = some core →
        getLines core tag true a.early (partsOf a) (meet h core tag a p) = (s1, ds, none) →
        exec (.mainCoreStore h a v y) s = .next (presentWrite h (fun b => retire h a (refetch h ((partsOf a).map fun x => lineOf x.1) y
          (fillFirst core a (((partsOf a).map fun x => lineOf x.1).foldl (fun x l => breakResv (some h) l x)
            (storeParts core tag (partsOf a) v b))))) s1)) ∧
      (∀ core s1 ds i g, isMain a.pa = true → bypassed p h a = false → coreOfHart p h = some core →
        getLines core tag true a.early (partsOf a) (meet h core tag a p) = (s1, ds, some (i, g)) →
        exec (.mainCoreStore h a v y) s = .next (failed h a 7 i g s1)) ∧
      (∀ s1 x, isMain a.pa = true → bypassed p h a = true → a.early = false → mayReach p tag line = true →
        ncClear p tag line true = true → ownDram p line = true → currentLine (.hart h) line tag p = (s1, .data x false) →
        exec (.mainCoreStore h a v y) s = .next (presentWrite h (fun b => retire h a (refetch h [line] y
          (writeAtHome (.hart h) line tag (linePut x (a.pa % 64) a.size v) b))) s1)) ∧
      (∀ s1 d, isMain a.pa = true → bypassed p h a = true → a.early = false → mayReach p tag line = true →
        ncClear p tag line true = true → ownDram p line = true → currentLine (.hart h) line tag p = (s1, d) →
        (∀ x, d = .data x true → exec (.mainCoreStore h a v y) s = .next (raise h 19 a.va s1)) ∧
        (d = .wait → exec (.mainCoreStore h a v y) s = .next s1)) ∧
      (isMain a.pa = true → bypassed p h a = true → a.early = false → mayReach p tag line = true → ncClear p tag line true = true →
        ownDram p line = false → hartWaits p h = false → a.pbmt ≠ 2 → exec (.mainCoreStore h a v y) s = .next (presentWrite h (fun b =>
          retire h a (refetch h [line] y (farAccess h (outDev b line) 4 0 a false v 0 0 (breakResv (some h) line (flushLine n line b))))) p)) ∧
      (isMain a.pa = true → bypassed p h a = true → a.early = false → mayReach p tag line = true → ncClear p tag line true = true →
        ownDram p line = false → hartWaits p h = false → a.pbmt = 2 → exec (.mainCoreStore h a v y) s = .next (presentWrite h (fun b =>
          refetch h [line] y (farAccess h (outDev b line) 4 0 a false v 0 0 (breakResv (some h) line (flushLine n line b)))) p)) ∧
      (isMain a.pa = true → bypassed p h a = true → a.early = false → mayReach p tag line = false →
        exec (.mainCoreStore h a v y) s = .next (raise h 7 a.va (refuseLine a.pa tag p))) ∧
      (isMain a.pa = true → bypassed p h a = true → a.early = false → mayReach p tag line = true → ncClear p tag line true = false →
        exec (.mainCoreStore h a v y) s = .next (ncOpen (.hart h) tag line true p)) ∧
      (∀ g, regionOf (offOf a.pa) = .io g → a.early = false → homeOf a.pa = myId p →
        exec (.mainCoreStore h a v y) s = .next (ioStoreAt h g a v p (ioAt p g tag a.pa a.size))) ∧
      (∀ g x, regionOf (offOf a.pa) = .io g → a.early = false → homeOf a.pa = myId p → ioAt p g tag a.pa a.size = .port x →
        noInvert p h → ∃ t u, exec (.mainCoreStore h a v y) s = .next t ∧ t = endAccess h a.more u ∧
          askedFor (64 + g) 4 a.pa tag .none p u ∧ ∀ o ∈ u.outs, o ∉ p.outs → o.data = v) ∧
      (∀ g x, regionOf (offOf a.pa) = .io g → a.early = false → homeOf a.pa = myId p → ioAt p g tag a.pa a.size = .host x →
        noInvert p h → ∃ t u, exec (.mainCoreStore h a v y) s = .next t ∧ t = endAccess h a.more u ∧
          askedFor (64 + g) 4 x tag .none p u ∧ ∀ o ∈ u.outs, o ∉ p.outs → o.data = v) ∧
      (regionOf (offOf a.pa) = .control → a.early = false → homeOf a.pa = myId p → exec (.mainCoreStore h a v y) s =
        .next (presentWrite h (fun b => endAccess h a.more
          (windowAccess h (offOf a.pa - 0x3FF000000000) a.size 0 false true v b)) p)) ∧
      (∀ g, regionOf (offOf a.pa) = .control ∨ regionOf (offOf a.pa) = .io g → a.early = false → homeOf a.pa ≠ myId p →
        exec (.mainCoreStore h a v y) s =
          .next (presentWrite h (fun b => endAccess h a.more (farAccess h (homeOf a.pa) 4 0 a false v 0 0 b)) p)) ∧
      (isMain a.pa = false ∨ bypassed p h a = true → a.early = true → exec (.mainCoreStore h a v y) s = .next p)) ∧
    (∀ op v cmp r y, p0 = present h a false s → noWalk p0 h a → isMain a.pa = true →
      accessFault p h a (if op = .lr then 4 else 6) (if op = .lr then 5 else 7) true (op == .lr || op == .sc) = none →
      (∀ core s1 d, bypassed p h a = false → coreOfHart p h = some core →
        getLine core tag line true a.early (meet h core tag a p) = (s1, .line d) →
        exec (.mainCoreAmo h a op v cmp r y) s = .next (presentAmo h op (fun b => amoDone h a y
          (amoFinish h op a.size (lineGet d (a.pa % 64) a.size) r line (putBytes core tag line (a.pa % 64) a.size
            (amoStore op a.size (lineGet d (a.pa % 64) a.size) v cmp)) (fillFirst core a b))) s1)) ∧
      (∀ core s1 g, bypassed p h a = false → coreOfHart p h = some core → (∀ d, g ≠ .line d) →
        getLine core tag line true a.early (meet h core tag a p) = (s1, g) →
        exec (.mainCoreAmo h a op v cmp r y) s = .next (failed h a (if op = .lr then 5 else 7) 0 g s1)) ∧
      (∀ s1 x, bypassed p h a = true → a.early = false → mayReach p tag line = true → ncClear p tag line true = true →
        ownLine p line = true → currentLine (.hart h) line tag p = (s1, .data x false) →
        exec (.mainCoreAmo h a op v cmp r y) s = .next (presentAmo h op (fun b => amoDone h a y
          (amoFinish h op a.size (lineGet x (a.pa % 64) a.size) r line (writeAtHome (.hart h) line tag (linePut x (a.pa % 64) a.size
            (amoStore op a.size (lineGet x (a.pa % 64) a.size) v cmp))) b)) s1)) ∧
      (∀ s1, bypassed p h a = true → a.early = false → mayReach p tag line = true → ncClear p tag line true = true →
        ownLine p line = true → currentLine (.hart h) line tag p = (s1, .far) →
        exec (.mainCoreAmo h a op v cmp r y) s = .next (amoFetch h n tag a s1)) ∧
      (∀ s1, bypassed p h a = true → a.early = false → mayReach p tag line = true → ncClear p tag line true = true →
        ownLine p line = true → currentLine (.hart h) line tag p = (s1, .wait) → exec (.mainCoreAmo h a op v cmp r y) s = .next s1) ∧
      (∀ s1 x, bypassed p h a = true → a.early = false → mayReach p tag line = true → ncClear p tag line true = true →
        ownLine p line = true → currentLine (.hart h) line tag p = (s1, .data x true) →
        exec (.mainCoreAmo h a op v cmp r y) s = .next (raise h 19 a.va s1)) ∧
      (bypassed p h a = true → a.early = false → mayReach p tag line = true → ncClear p tag line true = true → ownLine p line = false →
        hartWaits p h = false → op ≠ .lr → op ≠ .sc ∨ (hartOf p h).resv = some line → exec (.mainCoreAmo h a op v cmp r y) s = .next (presentWrite h (fun b =>
          refetch h [line] y (farAccess h (outDev b line) 8 r a true v (amoCode op) cmp (flushLine n line b))) p)) ∧
      (bypassed p h a = true → a.early = false → mayReach p tag line = true → ncClear p tag line true = true → ownLine p line = false →
        hartWaits p h = false → op = .lr → exec (.mainCoreAmo h a op v cmp r y) s =
          .next (farAccess h (outDev p line) 8 r a true v (amoCode op) cmp (flushLine n line p))) ∧
      (bypassed p h a = true → a.early = false → mayReach p tag line = true → ncClear p tag line true = true → ownLine p line = false →
        hartWaits p h = false → op = .sc → (hartOf p h).resv ≠ some line → exec (.mainCoreAmo h a op v cmp r y) s = .next (endAccess h a.more (setX h r 1 p))) ∧
      (bypassed p h a = true → a.early = false → mayReach p tag line = false → exec (.mainCoreAmo h a op v cmp r y) s =
        .next (raise h (if op = .lr then 5 else 7) a.va (refuseLine a.pa tag p))) ∧
      (bypassed p h a = true → a.early = false → mayReach p tag line = true → ncClear p tag line true = false →
        exec (.mainCoreAmo h a op v cmp r y) s = .next (ncOpen (.hart h) tag line true p)) ∧
      (bypassed p h a = true → a.early = true → exec (.mainCoreAmo h a op v cmp r y) s = .next p)))) ∧
  (∀ (s : State) (h va pa tag line n : Nat) (pt : PageAt) (no noW : Bool), hartRuns s h = true → tag = ownerOf s h → line = lineOf pa →
    n = homeSlice s tag line → noW = pmpDenies s h (pa / 64 * 64) 64 false true →
    no = (pmpDenies s h (pa / 64 * 64) 64 true false && noW) →
    (∀ core, envFault s h 6 1 = none → isMain pa = true → populated s (pa / 64 * 64) = true → no = false → mayReach s tag line = true →
      coreOfHart s h = some core → coreFrozen s core = false →
      ∃ t, exec (.cboClean h va pa) s = .next t ∧ cboTaken h n ⟨line, core, 1, tag⟩ s t) ∧
    (∀ core, envFault s h 6 1 = none → isMain pa = true → populated s (pa / 64 * 64) = true → no = false → mayReach s tag line = true →
      coreOfHart s h = some core → coreFrozen s core = false →
      ∃ t, exec (.cboFlush h va pa) s = .next t ∧ cboTaken h n ⟨line, core, 2, tag⟩ s t) ∧
    (∀ core, envFault s h 4 2 = none → isMain pa = true → populated s (pa / 64 * 64) = true → no = false → mayReach s tag line = true →
      coreOfHart s h = some core → coreFrozen s core = false → ∃ t, exec (.cboInval h va pa) s = .next t ∧
      cboTaken h n ⟨line, core, if (envBits s h 4 2).contains 1 then 2 else 3, tag⟩ s t) ∧
    (∀ c, envFault s h 6 1 = some c → ∃ t v, exec (.cboClean h va pa) s = .next t ∧ raised h (hartOf s h).pc c v s t ∧
      samePart .regs s t) ∧
    (∀ c, envFault s h 6 1 = some c → ∃ t v, exec (.cboFlush h va pa) s = .next t ∧ raised h (hartOf s h).pc c v s t ∧
      samePart .regs s t) ∧
    (∀ c, envFault s h 4 2 = some c → ∃ t v, exec (.cboInval h va pa) s = .next t ∧ raised h (hartOf s h).pc c v s t ∧
      samePart .regs s t) ∧
    (isMain pa = false ∨ populated s (pa / 64 * 64) = false ∨ no = true →
      (envFault s h 6 1 = none → ∃ t, exec (.cboClean h va pa) s = .next t ∧ raised h (hartOf s h).pc 7 va s t) ∧
      (envFault s h 6 1 = none → ∃ t, exec (.cboFlush h va pa) s = .next t ∧ raised h (hartOf s h).pc 7 va s t) ∧
      (envFault s h 4 2 = none → ∃ t, exec (.cboInval h va pa) s = .next t ∧ raised h (hartOf s h).pc 7 va s t)) ∧
    (∀ y, isMain pa = false ∨ populated s (pa / 64 * 64) = false ∨ noW = true → envFault s h 7 1 = none →
      ∃ t, exec (.cboZero h pt pa y) s = .next t ∧ raised h (hartOf s h).pc 7 pt.addr s t) ∧
    (isMain pa = true → populated s (pa / 64 * 64) = true → no = false → mayReach s tag line = false →
      (envFault s h 6 1 = none → exec (.cboClean h va pa) s = .next (raise h 7 va (refuseLine pa tag s))) ∧
      (envFault s h 6 1 = none → exec (.cboFlush h va pa) s = .next (raise h 7 va (refuseLine pa tag s))) ∧
      (envFault s h 4 2 = none → exec (.cboInval h va pa) s = .next (raise h 7 va (refuseLine pa tag s)))) ∧
    (∀ y, isMain pa = true → populated s (pa / 64 * 64) = true → noW = false → mayReach s tag line = false → envFault s h 7 1 = none →
      exec (.cboZero h pt pa y) s = .next (raise h 7 pt.addr (refuseLine pa tag s))) ∧
    (∀ core y, envFault s h 7 1 = none → isMain pa = true → populated s (pa / 64 * 64) = true → noW = false →
      mayReach s tag line = true → coreOfHart s h = some core →
      (byPage s h pt.pbmt = false → pt.early = false ∨ hitOf s core tag line true ≠ none → noInvert s h →
        ownLine s line = true ∨ line ∈ (sliceOf s n).owned → ncClear s tag line true = true → sealedCopy s n line tag = false →
        ∃ t, exec (.cboZero h pt pa y) s = .next t ∧ l2Of t core line = some ⟨tag, .m, false, 0⟩ ∧ (hartOf t h).x = (hartOf s h).x ∧
          (dirOf s n line = none → ((sliceOf s n).dir.filter fun e => dirSetOf e.1 == dirSetOf line && e.1 != line).length < 16 →
            dramKept s t ∧ ∀ c k, c ≠ core ∨ k ≠ line → l2Of t c k = l2Of s c k)) ∧
      (pt.early = true → byPage s h pt.pbmt = true → exec (.cboZero h pt pa y) s = .next s) ∧
      (pt.early = true → byPage s h pt.pbmt = false → hitOf s core tag line true = none →
        exec (.cboZero h pt pa y) s = .next (holdMiss core line true s)) ∧
      (pt.early = false → ncClear s tag line true = false → exec (.cboZero h pt pa y) s = .next (ncOpen (.hart h) tag line true s)) ∧
      (pt.early = false → ncClear s tag line true = true → byPage s h pt.pbmt = true ∨ sealedCopy s n line tag = true →
        ownDram s line = true → exec (.cboZero h pt pa y) s = .next (zeroed h line y (writeAtHome (.hart h) line tag 0) s)) ∧
      (pt.early = false → ncClear s tag line true = true →
        ((byPage s h pt.pbmt = true ∨ sealedCopy s n line tag = true) ∧ ownDram s line = false) ∨
          (ownLine s line = false ∧ line ∉ (sliceOf s n).owned) →
        (pt.pbmt ≠ 2 → exec (.cboZero h pt pa y) s = .next (zeroed h line y (fun b =>
          farAccess h (outDev b line) 4 0 { cboAcc pt.addr pa with pbmt := pt.pbmt } false 0 0 0 (discardLine n line b)) s)) ∧
        (pt.pbmt = 2 → hartWaits s h = true → exec (.cboZero h pt pa y) s = .next s) ∧
        (pt.pbmt = 2 → mayAsk s h (outDev s line) → noInvert s h → ∃ t, exec (.cboZero h pt pa y) s = .next t ∧
          (hartOf t h).x = (hartOf s h).x))) ∧
    (∀ c y, envFault s h 7 1 = some c → ∃ t v, exec (.cboZero h pt pa y) s = .next t ∧ raised h (hartOf s h).pc c v s t) ∧
    (∀ (q : PageAt) k b, q.addr = pa → b = true ∨ isMain pa = false ∨ hintBypassed s h q.pbmt k = true ∨ populated s pa = false ∨
        pmpDenies s h pa 1 (k == 0) (k == 1) = true ∨ mayReach s tag line = false →
      (q.early = true → exec (.prefetchHint h q k b) s = .next s) ∧
      (q.early = false → exec (.prefetchHint h q k b) s = .next (countInst h s))) ∧
    (∀ (q : PageAt) core k, q.addr = pa → isMain pa = true → hintBypassed s h q.pbmt k = false → populated s pa = true →
      pmpDenies s h pa 1 (k == 0) (k == 1) = false → mayReach s tag line = true → coreOfHart s h = some core →
      (k ≠ 2 ∨ l2Of (hintLine core tag line false q.early s) core line = none → exec (.prefetchHint h q k false) s = .next
        (if q.early then hintLine core tag line (k == 1) q.early s else countInst h (hintLine core tag line (k == 1) q.early s))) ∧
      (∀ l, k = 2 → l2Of s core line = some l → l.tag = tag → line ∉ (coreOf s core).badFills →
        ∃ t, exec (.prefetchHint h q 2 false) s = .next t ∧ line ∈ (coreOf t core).l1i ∧
          sameL2 s t ∧ samePart .slices s t ∧ samePart .mem s t)))

/-- CONTROL_WINDOW_ACCESS completes: an aligned access of 4 or 8 bytes that Table 1.5 grants is performed, a load's value
reaching its register; one that it does not grant is refused with a record and reads as 0, or is discarded; any other raises
an access fault. REGISTER_WRITE (R13, R30, R31, R173, R413, Table 0.6): a store to read-only registers does nothing, one at
an offset where no register stands is refused, one to PWR_IDLE changes its writable field only, one to PWR_PADS releases pads
at the next boundary, and one to MC_SCHED_CTRL takes effect at step 6 of the next boundary; the Assayer writes no register of
the blocks that the Clerk alone writes. -/
def Obligations.ControlWindowAndRegisterWrites : Prop :=
  (∀ (s : State) (h va off size r v : Nat) (sg : Bool), hartRuns s h = true → r < 32 →
    ((size = 4 ∨ size = 8) → off % size = 0 → off < 2 ^ 32 → windowReach s (ownerOf s h) off false = true →
      ∃ t, exec (.controlWindowAccess h va off size r sg false 0) s = .next t ∧
        gotX h r (extend size sg (windowRead s off size)) s t ∧ hartRest h s t ∧ otherHarts h s t ∧ samePart .regs s t ∧
        samePart .mbx s t ∧ samePart .ras s t ∧ dramKept s t ∧ samePart .cores s t) ∧
    ((size = 4 ∨ size = 8) → off % size = 0 → off < 2 ^ 32 → windowReach s (ownerOf s h) off true = true →
      0x01000000 ≤ off → off < 0x01100000 → noInvert s h →
      ∃ t, exec (.controlWindowAccess h va off size r sg true v) s = .next t ∧
        mbxOf t (pageNo off) = mbxOf (pageWrite (pageNo off) ((off - 0x01000000) % 0x1000) size v s) (pageNo off) ∧
        (hartOf t h).x = (hartOf s h).x ∧ hartRest h s t ∧ otherHarts h s t ∧ dramKept s t ∧ samePart .cores s t) ∧
    ((size = 4 ∨ size = 8) → off % size = 0 → off < 2 ^ 32 → windowReach s (ownerOf s h) off false = false →
      ∃ t, exec (.controlWindowAccess h va off size r sg false 0) s = .next t ∧
        gotX h r 0 s t ∧ hartRest h s t ∧ recordedIn 5 11 0 0x0B01 s t ∧ otherFields irqFields s t ∧ samePart .mbx s t) ∧
    ((size = 4 ∨ size = 8) → off % size = 0 → off < 2 ^ 32 → windowReach s (ownerOf s h) off true = true →
      exec (.controlWindowAccess h va off size r sg true v) s =
        .next (presentWrite h (fun b => endAccess h false (windowWrite (ownerOf b h) off size v b)) (dropAccess h s))) ∧
    (∀ p, (size = 4 ∨ size = 8) → off % size = 0 → off < 2 ^ 32 → pairOfHart s h = some p → invertArmed s p = true →
      ∃ t, exec (.controlWindowAccess h va off size r sg true v) s = .next t ∧ comparedBad h s t) ∧
    ((size = 4 ∨ size = 8) → off % size = 0 → off < 2 ^ 32 → windowReach s (ownerOf s h) off true = false → noInvert s h →
      ∃ t, exec (.controlWindowAccess h va off size r sg true v) s = .next t ∧
        (hartOf t h).x = (hartOf s h).x ∧ recordedIn 5 11 0 0x0B01 s t ∧ otherFields irqFields s t ∧ samePart .mbx s t) ∧
    (∀ w, (size ≠ 4 ∧ size ≠ 8) ∨ off % size ≠ 0 ∨ 2 ^ 32 ≤ off → ∃ t, exec (.controlWindowAccess h va off size r sg w v) s = .next t ∧
      raised h (hartOf s h).pc (if w then 7 else 5) va s t ∧ samePart .regs s t)) ∧
  (∀ s : State,
    (∀ a off size v, off % size ≠ 0 ∨ (size ≠ 4 ∧ size ≠ 8) → exec (.registerWrite a off size v) s = .next s) ∧
    (∀ a off size v, 0x20000 ≤ off → off < 0x100000 → size = 4 ∨ size = 8 → off % size = 0 →
      ∃ t, exec (.registerWrite a off size v) s = .next t ∧ recordedIn 5 11 0 0x0B01 s t ∧ otherFields irqFields s t) ∧
    (∀ a v, exec (.registerWrite a 0x10 8 v) s = .next s ∧ exec (.registerWrite a 0 8 v) s = .next s) ∧
    (∀ off size v, 0x10000 ≤ off → off < 0x20000 → fieldsAt (off / 8 * 8) ≠ [] →
      ∃ t, exec (.registerWrite true off size v) s = .next t ∧ samePart .regs s t) ∧
    (∀ off size v, 0x100000 ≤ off → off < 0x407000 → fieldsAt (off / 8 * 8) ≠ [] →
      assayerMask (off / 8 * 8) ((256 ^ size - 1) * 256 ^ (off % 8)) = 0 → exec (.registerWrite true off size v) s = .next s) ∧
    (∀ off size v, 0x100000 ≤ off → off < 0x407000 → fieldsAt (off / 8 * 8) ≠ [] →
      (∀ f ∈ fieldsAt (off / 8 * 8), clerkOnly f = false) →
      exec (.registerWrite true off size v) s = exec (.registerWrite false off size v) s) ∧
    (∀ v size, size = 4 ∨ size = 8 → ∃ t, exec (.registerWrite false 0x10028 size v) s = .next t ∧
      rd t pwrIdleIdleBeats = v % 2 ^ 32 ∧ rd t pwrIdleCount = rd s pwrIdleCount ∧ otherFields [pwrIdleIdleBeats] s t) ∧
    (∀ v, ∃ t, exec (.registerWrite false 0x10038 8 v) s = .next t ∧ samePart .regs s t ∧
      t.due = s.due ++ [⟨beat s + 1, 4, .pads (v % 2 ^ 33)⟩]) ∧
    (∀ c v, c < 16 → chanPresent s c = true → ∃ t, exec (.registerWrite false (0x300020 + c * 0x10000) 8 v) s = .next t ∧
      samePart .regs s t ∧
      (⟨beat s + 1, 6, .setFld (mcSchedCtrlWrLow c) (v / 2 ^ 22 % 64)⟩ : Due) ∈ t.due ∧
      (⟨beat s + 1, 6, .setFld (mcSchedCtrlAgeCap c) (max 1 (v / 2 ^ 28 % 16))⟩ : Due) ∈ t.due ∧
      (⟨beat s + 1, 6, .setFld (mcSchedCtrlIdleClose c) (max 16 (v / 2 ^ 32 % 4096))⟩ : Due) ∈ t.due ∧
      (v / 2 ^ 22 % 64 < v / 2 ^ 16 % 64 → (⟨beat s + 1, 6, .setFld (mcSchedCtrlWrHigh c) (v / 2 ^ 16 % 64)⟩ : Due) ∈ t.due)))

/-- WRS_STO, WRS_STO_TIMEOUT, WRS_NTO, MAIN_CORE_WFI, SEED_READ, CONTEXT_KEY_UPDATE, BRANCH_RETIRE and USEFUL_HALVING. How the
target tables, the return stack and the indirect predictor learn is the model's choice (log entry 34). -/
def Obligations.WaitsSeedsKeysAndBranches : Prop :=
  ∀ (s : State) (h : Nat),
    (hartRuns s h = true → (hartOf s h).resv.isSome = true → irqPending s h = false →
      ∃ t, exec (.wrsSto h) s = .next t ∧ (hartOf t h).wrs = .sto ∧ (hartOf t h).x = (hartOf s h).x ∧ hartRest h s t ∧
        otherHarts h s t) ∧
    (hartRuns s h = true → (hartOf s h).resv.isSome = true → irqPending s h = false → twEnds s h = false →
      ∃ t, exec (.wrsNto h) s = .next t ∧ (hartOf t h).wrs = .nto ∧ (hartOf t h).x = (hartOf s h).x ∧ hartRest h s t ∧
        otherHarts h s t) ∧
    ((hartOf s h).resv = none → ∀ i ∈ [Instr.wrsSto h, .wrsNto h], ∃ t, exec i s = .next t ∧
      (hartOf t h).wrs = (hartOf s h).wrs ∧ (hartOf t h).x = (hartOf s h).x ∧ hartRest h s t ∧ otherHarts h s t) ∧
    (∀ ns, (hartOf s h).wrs = .sto → 1000 ≤ ns → ∃ t, exec (.wrsStoTimeout h ns) s = .next t ∧ (hartOf t h).wrs = .none ∧
      otherHarts h s t) ∧
    (∀ ns, ns < 1000 → exec (.wrsStoTimeout h ns) s = .next s) ∧
    (hartRuns s h = true → irqPending s h = false → ∃ t, exec (.mainCoreWfi h) s = .next t ∧ (hartOf t h).wfi = true ∧
      hartRest h s t ∧ otherHarts h s t) ∧
    (hartRuns s h = true → irqPending s h = true → ∃ t, exec (.mainCoreWfi h) s = .next t ∧
      (hartOf t h).wfi = (hartOf s h).wfi ∧ (hartOf t h).x = (hartOf s h).x ∧ hartRest h s t ∧ otherHarts h s t ∧
      samePart .regs s t) ∧
    (∀ c r b, hartRuns s h = true → seedFault s h = some c → ∃ t v, exec (.seedRead h r b) s = .next t ∧
      raised h (hartOf s h).pc c v s t ∧ samePart .regs s t) ∧
    (∀ p r, hartRuns s h = true → seedFault s h = none → pairOfHart s h = some p →
      (pairTile p ∈ s.chip.entropyDead → ∀ b, ∃ t, exec (.seedRead h r b) s = .next t ∧ gotX h r (3 * 2 ^ 30) s t) ∧
      (pairTile p ∉ s.chip.entropyDead → ∃ t, exec (.seedRead h r false) s = .next t ∧ gotX h r (2 ^ 30) s t) ∧
      (pairTile p ∉ s.chip.entropyDead → ∃ t v, v < 65536 ∧ exec (.seedRead h r true) s = .next t ∧
        gotX h r (2 * 2 ^ 30 + v) s t ∧ t.freeCtr = s.freeCtr + 1)) ∧
    (hartRuns s h = true → (∀ p, ∃ t, exec (.contextKeyUpdate h (.trap p)) s = .next t ∧ (hartOf t h).priv = privOf p ∧
        (hartOf t h).ckey = contextKey t h ∧ (hartOf t h).csr = (hartOf s h).csr ∧ otherHarts h s t) ∧
      (∀ p, ∃ t, exec (.contextKeyUpdate h (.xret p)) s = .next t ∧ (hartOf t h).priv = privOf p ∧
        (hartOf t h).ckey = contextKey t h ∧ otherHarts h s t) ∧
      (∀ v n c, (n, c) ∈ [(0x180, KeyCause.satp v), (0x280, .vsatp v)] →
        ∃ t, exec (.contextKeyUpdate h c) s = .next t ∧
          csrOf t h n = (if legalMode v = true then v % 2 ^ 64 else csrOf s h n) ∧ (hartOf t h).ckey = contextKey t h ∧
          (∀ m, m ≠ n → counterCsr m = false → csrOf t h m = csrOf s h m) ∧ otherHarts h s t) ∧
      (∀ v, ∃ t, exec (.contextKeyUpdate h (.hgatp v)) s = .next t ∧
        csrOf t h 0x680 / 2 ^ 60 % 16 = (if legalMode v = true then v / 2 ^ 60 % 16 else csrOf s h 0x680 / 2 ^ 60 % 16) ∧
        csrOf t h 0x680 / 2 ^ 44 % 2 ^ 16 = v / 2 ^ 44 % 2 ^ 14 ∧ csrOf t h 0x680 % 2 ^ 44 = v % 2 ^ 44 / 4 * 4 ∧
        (hartOf t h).ckey = contextKey t h ∧ (∀ m, m ≠ 0x680 → counterCsr m = false → csrOf t h m = csrOf s h m) ∧
        otherHarts h s t)) ∧
    (∀ pc len tg tk, hartRuns s h = true → ∃ t, exec (.branchRetire h pc len tg 0 tk) s = .next t ∧ sameL2 s t ∧
      samePart .regs s t ∧ ∀ c ∈ coresOfHart s h, (coreOf t c).retired = (coreOf s c).retired + 1 ∧
      (coreOf t c).pred.ghist = ((coreOf s c).pred.ghist * 2 + tk.toNat) % 2 ^ 640 ∧
      (tk = true → ∃ w, w < 8 ∧ tget none (coreOf t c).pred.btb ((pc / 2 ^^^ (hartOf s h).ckey) % 1024 * 8 + w) =
        some ⟨(pc / 2 ^^^ (hartOf s h).ckey) / 1024, tg, 0, 0⟩) ∧
      (tk = false → (coreOf t c).pred.btb = (coreOf s c).pred.btb) ∧ (coreOf t c).pred.ras = (coreOf s c).pred.ras ∧
      (provider (hartOf s h).ckey pc (coreOf s c).pred = 0 → predicted (hartOf s h).ckey pc (coreOf s c).pred = tk →
        baseCtr (hartOf s h).ckey pc (coreOf t c).pred = if tk = true then
          min 3 (baseCtr (hartOf s h).ckey pc (coreOf s c).pred + 1) else baseCtr (hartOf s h).ckey pc (coreOf s c).pred - 1)) ∧
    (∀ pc len tg tk, hartRuns s h = true → ∃ t, exec (.branchRetire h pc len tg 2 tk) s = .next t ∧
      ∀ c ∈ coresOfHart s h, (coreOf t c).pred.ras = ((pc + len) :: (coreOf s c).pred.ras).take 48 ∧
        (coreOf t c).pred.t0 = (coreOf s c).pred.t0 ∧ (coreOf t c).retired = (coreOf s c).retired) ∧
    (∀ pc len tg tk, hartRuns s h = true → ∃ t, exec (.branchRetire h pc len tg 3 tk) s = .next t ∧
      ∀ c ∈ coresOfHart s h, (coreOf t c).pred.ras = (coreOf s c).pred.ras.drop 1 ∧
        (coreOf t c).retired = (coreOf s c).retired) ∧
    (∀ pc len tg tk, hartRuns s h = true → ∃ t, exec (.branchRetire h pc len tg 1 tk) s = .next t ∧ sameL2 s t ∧
      ∀ c ∈ coresOfHart s h, (coreOf t c).pred.ras = (coreOf s c).pred.ras ∧ (coreOf t c).retired = (coreOf s c).retired ∧
        (coreOf t c).pred.ghist = (coreOf s c).pred.ghist ∧ (coreOf t c).pred.t0 = (coreOf s c).pred.t0) ∧
    (∀ pc len tg tk, hartRuns s h = true → ∃ t, exec (.branchRetire h pc len tg 4 tk) s = .next t ∧ sameL2 s t ∧
      ∀ c ∈ coresOfHart s h, (coreOf t c).pred.targets = (tg :: (coreOf s c).pred.targets).take 32 ∧
        (coreOf t c).pred.ras = (coreOf s c).pred.ras ∧ (coreOf t c).retired = (coreOf s c).retired) ∧
    (∀ pc len tg tk, hartRuns s h = true → ∃ t, exec (.branchRetire h pc len tg 5 tk) s = .next t ∧ sameL2 s t ∧
      ∀ c ∈ coresOfHart s h, (coreOf t c).pred.targets = (tg :: (coreOf s c).pred.targets).take 32 ∧
        (coreOf t c).pred.ras = ((pc + len) :: (coreOf s c).pred.ras).take 48 ∧ (coreOf t c).retired = (coreOf s c).retired) ∧
    (∀ pc len tg k tk c cs, hartRuns s h = true → coresOfHart s h = c :: cs →
      mispredicted (hartOf s h).ckey pc tg k tk (coreOf s c).pred = true →
      ∃ t, exec (.branchRetire h pc len tg k tk) s = .next t ∧ (hartOf t h).access = none ∧ (hartOf t h).x = (hartOf s h).x ∧
        ∀ d ∈ coresOfHart s h, (coreOf t d).missQ = []) ∧
    (∀ c, 262144 ≤ (coreOf s c).retired → ∃ t, exec (.usefulHalving c) s = .next t ∧
      (coreOf t c).retired = (coreOf s c).retired - 262144 ∧ (∀ d, d ≠ c → coreOf t d = coreOf s d) ∧
      (∀ k e, (k, e) ∈ (coreOf s c).pred.tagged → (⟨e.valid, e.tag, e.ctr, e.useful / 2⟩ : PredEnt) ≠ ⟨false, 0, 0, 0⟩ →
        (k, ⟨e.valid, e.tag, e.ctr, e.useful / 2⟩) ∈ (coreOf t c).pred.tagged)) ∧
    (∀ c, (coreOf s c).retired < 262144 → exec (.usefulHalving c) s = .next s)

/-- DZPREDCTL_CLEAR, DBYPASS_SET, DBYPASS_CLEAR and IBYPASS_SET in the modes that may write them and in those that may not,
CORE_INTERRUPT, SNOOP_INVALIDATION and MSI_WRITE. -/
def Obligations.BypassInterruptsAndSnoops : Prop :=
  ∀ (s : State) (h : Nat), h < 256 →
    (hartRuns s h = true → (hartOf s h).priv = .m ∨ (hartOf s h).priv = .s → ∃ t, exec (.dzpredctlClear h) s = .next t ∧
      ∀ c ∈ coresOfHart s h, (coreOf t c).pred = {} ∧ (coreOf t c).retired = 0 ∧ (coreOf t c).l2 = (coreOf s c).l2) ∧
    (hartRuns s h = true → (hartOf s h).priv = .vs → ∃ t v, exec (.dzpredctlClear h) s = .next t ∧
      raised h (hartOf s h).pc 22 v s t) ∧
    (hartRuns s h = true → (hartOf s h).priv = .u ∨ (hartOf s h).priv = .vu → ∃ t v, exec (.dzpredctlClear h) s = .next t ∧
      raised h (hartOf s h).pc 2 v s t) ∧
    (∀ p, hartRuns s h = true → (hartOf s h).priv = .m → rdB s (dzcachectlDbypass h) = false → pairOfHart s h = some p →
      invertArmed s p = true → h = 2 * rd s (pairStatusSlot p) →
      (∃ c ∈ coresOfHart s h, c / 2 = p ∧ (coreOf s c).l2.any (fun e => e.2.st == .m) = true) →
      ∃ t, exec (.dbypassSet h) s = .next t ∧ comparedBad h s t) ∧
    (hartRuns s h = true → (hartOf s h).priv = .m → rdB s (dzcachectlDbypass h) = false → noInvert s h →
      ∃ t, exec (.dbypassSet h) s = .next t ∧ rd t (dzcachectlDbypass h) = 1 ∧ ∀ c ∈ coresOfHart s h, (coreOf t c).l2 = []) ∧
    (hartRuns s h = true → (hartOf s h).priv = .m → ∃ t, exec (.dbypassClear h) s = .next t ∧
      rd t (dzcachectlDbypass h) = 0 ∧ otherFields [dzcachectlDbypass h] s t) ∧
    (hartRuns s h = true → (hartOf s h).priv = .m → ∃ t, exec (.ibypassSet h) s = .next t ∧
      rd t (dzcachectlIbypass h) = 1 ∧ otherFields [dzcachectlIbypass h] s t ∧
      ∀ c ∈ coresOfHart s h, (coreOf t c).l1i = [] ∧ (coreOf t c).l2 = (coreOf s c).l2) ∧
    (hartRuns s h = true → (hartOf s h).priv ≠ .m →
      ∀ i ∈ [Instr.dbypassSet h, .dbypassClear h, .ibypassSet h], ∃ t v, exec i s = .next t ∧
        raised h (hartOf s h).pc 2 v s t ∧ samePart .regs s t) ∧
    (∀ irq pc, hartRuns s h = true → irq ∈ (hartOf s h).pend → irq ∈ (hartOf s h).enab → ∃ t, exec (.coreInterrupt h irq pc) s =
      .next t ∧ (hartOf t h).wfi = false ∧ (hartOf t h).wrs = .none ∧ (hartOf t h).x = (hartOf s h).x ∧ otherHarts h s t ∧
      (hartOf t h).access = none ∧
      ((hartOf s h).access = none → (hartOf t h).exc = some ⟨irqCause irq, 0, pc⟩) ∧
      (∀ x, (hartOf s h).access = some x → x.early = true → (hartOf t h).exc = some ⟨irqCause irq, 0, pc⟩) ∧
      (∀ x, (hartOf s h).access = some x → x.early = false → (hartOf t h).exc = some ⟨irqCause irq, 0, (hartOf s h).pc⟩ ∧
        ∀ e, x.elem = some e → csrOf t h 0x008 = e % 2 ^ 64)) ∧
    (∀ irq pc, irq ∉ (hartOf s h).pend → exec (.coreInterrupt h irq pc) s = .next s) ∧
    (∀ core line f, coreFrozen s core = false → invertArmed s (core / 2) = false →
      ∃ t, exec (.snoopInvalidation core line f) s = .next t ∧ l2Of t core line = none) ∧
    (∀ core line l, coreFrozen s core = false → invertArmed s (core / 2) = true → core / 2 < 136 → l2Of s core line = some l →
      l.st = .m → ∃ t, exec (.snoopInvalidation core line false) s = .next t ∧ l2Of t core line = some l ∧
        rd t (pairStatusState (core / 2)) = 5 ∧ rd t (pairCmpStatusBus (core / 2)) = 1) ∧
    (∀ core line, coreFrozen s core = true → exec (.snoopInvalidation core line false) s = .next s) ∧
    (∀ tag file ident, h < hartCount s → file < 9 → 1 ≤ ident → ident < 256 → tag = ownerOf s h →
      ∃ t, exec (.msiWrite tag h file ident) s = .next t ∧ otherHarts h s t ∧
        ((hartOf s h).st = .frozen → file * 256 + ident ∈ (hartOf t h).held ∧ (hartOf t h).pend = (hartOf s h).pend) ∧
        ((hartOf s h).st ≠ .frozen → file * 256 + ident ∈ (hartOf t h).pend ∧ (hartOf t h).held = (hartOf s h).held)) ∧
    (∀ tag file ident, h < hartCount s → file < 9 → 1 ≤ ident → ident < 256 → tag ≠ ownerOf s h → tag ≠ 0 →
      ∃ t, exec (.msiWrite tag h file ident) s = .next t ∧ samePart .harts s t ∧
        recordedIn 5 1 ((pairOfHart s h).getD 0xFFFF) 0x0B02 s t)

/-! ## Checked pairs -/

/-- COMPARATOR_MISMATCH, CORE_ARRAY_ERROR, PAIR_INJECT_B, SPLIT_CORE_ERROR and PAIR_MODE_WRITE. A mismatch freezes a checked
pair and its hart; an array error is latched, and freezes a checked pair; the hart of a split core in error is fenced. -/
def Obligations.PairErrorsFreezeOrFence : Prop :=
  ∀ (s : State) (p : Nat), p < 136 →
    (∀ bus bit cause, rd s (pairStatusState p) = 3 → ∃ t, exec (.comparatorMismatch p bus bit cause) s = .next t ∧
      rd t (pairStatusState p) = 5 ∧ rd t (pairCmpStatusMismatch p) = 1 ∧ rd t (pairCmpStatusBus p) = bus % 8 ∧
      rd t (pairCmpStatusBit p) = bit % 512 ∧ rd t (pairCmpStatusCause p) = cause % 8 ∧
      rd t (pairCmpBeatBeat p) = beat s % 2 ^ 64 ∧ counted (pairCountMismatches p) 1 s t ∧
      (hartOf t (2 * rd s (pairStatusSlot p))).st = .frozen ∧ (hartOf t (2 * rd s (pairStatusSlot p))).resv = none ∧
      (hartOf t (2 * rd s (pairStatusSlot p))).x = (hartOf s (2 * rd s (pairStatusSlot p))).x ∧
      otherHarts (2 * rd s (pairStatusSlot p)) s t) ∧
    (∀ bus bit cause, rd s (pairStatusState p) ≠ 3 → exec (.comparatorMismatch p bus bit cause) s = .next s) ∧
    (∀ core kind, core < 2 → kind ≤ 8 → rd s (pairStatusState p) ≠ 2 → ∃ t, exec (.coreArrayError p core kind) s = .next t ∧
      rd t (errFld p core kind) = 1 ∧
      (rd s (pairStatusState p) = 3 → rd t (pairStatusState p) = 5 ∧ rd t (pairCmpStatusCause p) = 2 + core) ∧
      (rd s (pairStatusState p) = 4 → (pairOf s p).survivor = some core → rd t (failedFld p core) = 1 ∧
        (hartOf t (2 * rd s (pairStatusSlot p))).st = .frozen ∧
        (⟨beat s + 1, 2, .fenceHart p 0x0105 (beat s) 0xB⟩ : Due) ∈ t.due)) ∧
    (∀ core kind h, core < 2 → kind ≤ 8 → rd s (pairStatusState p) = 2 → hartOfCore s p core = some h →
      (hartOf s h).st ≠ .fenced → ∃ t, exec (.coreArrayError p core kind) s = .next t ∧ (hartOf t h).st = .fenced) ∧
    (∀ core kind, 8 < kind → ∃ t, exec (.coreArrayError p core kind) s = .next t ∧
      counted (if core = 0 then pairErrlatACorrected p else pairErrlatBCorrected p) 1 s t ∧ samePart .harts s t) ∧
    ((pairOf s p).injectB.isSome = true → ∃ t, exec (.pairInjectB p) s = .next t ∧ rd t (pairErrlatBTest p) = 1 ∧
      (pairOf t p).injectB = none ∧ (pairOf t p).invert = true ∧ otherFields [pairErrlatBTest p] s t) ∧
    (∀ h g, pairOfHart s h = some p → (pairOf s p).invert = true → rd s (pairStatusState p) = 3 →
      comparedBad h s (presentWrite h g s)) ∧
    (∀ h g, pairOfHart s h = some p → (pairOf s p).invert = false ∨ rd s (pairStatusState p) ≠ 3 → presentWrite h g s = g s) ∧
    (∀ core kind bad h, core < 2 → kind ≤ 8 → rd s (pairStatusState p) = 2 → hartOfCore s p core = some h →
      (hartOf s h).st ≠ .fenced → ∃ t, exec (.splitCoreError p core kind bad) s = .next t ∧ (hartOf t h).st = .fenced ∧
        rd t (errFld p core kind) = 1 ∧ rd t (failedFld p core) = 1 ∧ (coreOf t (p * 2 + core)).l2 = []) ∧
    (∀ m, rdB s (pairStatusSlotValid p) = true → m < 2 → ∃ t, exec (.pairModeWrite p m) s = .next t ∧
      t.due = s.due ++ [⟨beat s + 1, 5, .mode (rd s (pairStatusSlot p)) m⟩])

/-- CAPTURE_COMPLETE, LOGIC_BIST_RESULT and ARRAY_MARCH_RESULT: both images are in the state buffer, and the steps of the
decision sequence are taken in the slices of boundaries m + 3, m + 100 and m + 180 at the earliest (R93 to R95). They name
the broken core, both, or neither, and the beat counted (Table 4.4). SURVIVOR_DRAIN_DONE, STATE_COPY_DONE and
HART_RESUME_LIBERO: the drain ends in the state copy or in the hart's fence, a second bad digest fences it, and the hart goes
on on its Libero, which takes the slot and the owner. -/
def Obligations.DecisionAndSparingSequences : Prop :=
  (∀ (s : State) (p : Nat), p < 136 →
    (rd s (pairStatusState p) = 5 → (pairOf s p).images = [] → ∃ t, exec (.captureComplete p) s = .next t ∧
      (pairOf t p).images = [hartOf s (2 * rd s (pairStatusSlot p)), hartOf s (2 * rd s (pairStatusSlot p))] ∧
      (beat s < rd s (pairCmpBeatBeat p) + 3 → samePart .regs s t ∧
        t.due = s.due ++ [⟨rd s (pairCmpBeatBeat p) + 3, 9, .decide p 1 true true⟩]) ∧
      (rd s (pairCmpBeatBeat p) + 3 ≤ beat s →
        ((pairOf s p).libero ≠ some p → rd t (pairStatusState p) = 6) ∧ rd t (pairDecisionStep p) = 1 ∧
        (latched s p 0 = latched s p 1 → rd t (pairDecisionOutcome p) = rd s (pairDecisionOutcome p)) ∧
        (∀ k, k < 2 → latched s p k = true → latched s p (1 - k) = false → rd t (pairDecisionOutcome p) = 1 + k ∧
          rd t (failedFld p k) = 1 ∧ (pairOf t p).survivor = some (1 - k) ∧
          rd t (pairDecisionBeats p) = (beat s - rd s (pairCmpBeatBeat p)) % 256 ∧
          (⟨beat s + 1, 2, .setFld (pairStatusState p) 7⟩ : Due) ∈ t.due))) ∧
    (rd s (pairStatusState p) ≠ 5 ∨ (pairOf s p).images ≠ [] → exec (.captureComplete p) s = .next s) ∧
    (∀ a b, rd s (pairStatusState p) = 6 → rd s (pairDecisionStep p) = 1 → rd s (pairDecisionOutcome p) = 0 →
      beat s < rd s (pairCmpBeatBeat p) + 100 → exec (.logicBistResult p a b) s =
        .next { s with due := s.due ++ [⟨rd s (pairCmpBeatBeat p) + 100, 9, .decide p 2 a b⟩] }) ∧
    (∀ a b, rd s (pairStatusState p) = 6 → rd s (pairDecisionStep p) = 1 → rd s (pairDecisionOutcome p) = 0 →
      rd s (pairCmpBeatBeat p) + 100 ≤ beat s → ∃ t, exec (.logicBistResult p a b) s = .next t ∧ rd t (pairDecisionStep p) = 2 ∧
        rd t (pairDecisionPass p) = a.toNat + 2 * b.toNat ∧
        rd t (pairDecisionOutcome p) = (if a && b then 0 else if a then 2 else if b then 1 else 3) ∧
        (a = true → b = false → rd t (failedFld p 1) = 1 ∧ (pairOf t p).survivor = some 0) ∧
        (a = false → b = true → rd t (failedFld p 0) = 1 ∧ (pairOf t p).survivor = some 1) ∧
        (a = false → b = false → rd t (failedFld p 0) = 1 ∧ rd t (failedFld p 1) = 1 ∧
          (⟨beat s + 1, 2, .fenceHart p 0x0103 (rd s (pairCmpBeatBeat p)) 0xB⟩ : Due) ∈ t.due)) ∧
    (∀ a b, (pairOf s p).reqMbx = none → rd s (pairStatusState p) = 6 → rd s (pairDecisionStep p) = 2 →
      rd s (pairDecisionOutcome p) = 0 → beat s < rd s (pairCmpBeatBeat p) + 180 → exec (.arrayMarchResult p a b) s =
        .next { s with due := s.due ++ [⟨rd s (pairCmpBeatBeat p) + 180, 9, .decide p 3 a b⟩] }) ∧
    (∀ a b, (pairOf s p).reqMbx = none → rd s (pairStatusState p) = 6 → rd s (pairDecisionStep p) = 2 →
      rd s (pairDecisionOutcome p) = 0 → rd s (pairCmpBeatBeat p) + 180 ≤ beat s →
      ∃ t, exec (.arrayMarchResult p a b) s = .next t ∧ rd t (pairDecisionStep p) = 3 ∧
        rd t (pairDecisionPass p) = rd s (pairDecisionPass p) % 4 + 4 * a.toNat + 8 * b.toNat ∧
        rd t (pairDecisionOutcome p) = (if a && b then 4 else if a then 2 else if b then 1 else 3) ∧
        (a = true → b = true → counted (pairCountUndecided p) 1 s t ∧
          (⟨beat s + 1, 2, .fenceHart p 0x0102 (rd s (pairCmpBeatBeat p)) 0xC⟩ : Due) ∈ t.due)) ∧
    (∀ k a b, applyAct s (.decide p k a b) = decideStep p k a b s)) ∧
  (∀ (s : State) (p : Nat), p < 136 →
    (rd s (pairStatusState p) = 7 → ∃ t u, exec (.survivorDrainDone p) s = .next t ∧
      u = discardCore (2 * p + 1) (drainCore (2 * p) (dropOwed p s)).1 ∧ (coreOf u (2 * p)).l2 = [] ∧ (coreOf u (2 * p + 1)).l2 = [] ∧
      t.slices = ((presentSlices s).foldl (fun a m => serveReady m 48 a) u).slices ∧
      ((pairOf s p).doomed = false → rd t (pairStatusState p) = 8) ∧
      ((pairOf s p).doomed = true →
        (⟨beat s + 1, 2, .fenceHart p 0x0108 (rd s (pairCmpBeatBeat p)) 0xB⟩ : Due) ∈ t.due)) ∧
    (∀ ok, rd s (pairStatusState p) = 8 → (pairOf s p).resumeAt = none → (pairOf s p).digestBad < 2 →
      ∃ t, exec (.stateCopyDone p ok) s = .next t ∧
        (ok = true → (pairOf t p).resumeAt = some (beat s + 1) ∧ (pairOf t p).images = [] ∧ t.due = s.due) ∧
        (ok = false → (pairOf s p).digestBad = 0 → (pairOf t p).digestBad = 1 ∧ t.due = s.due) ∧
        (ok = false → (pairOf s p).digestBad = 1 → (pairOf t p).digestBad = 2 ∧
          t.due = s.due ++ [⟨beat s + 1, 2, .fenceHart p 0x0104 (rd s (pairCmpBeatBeat p)) 0xB⟩])) ∧
    (∀ b l, (pairOf s p).resumeAt = some b → b ≤ beat s → (pairOf s p).libero = some l → l < 136 → l ≠ p →
      (pairOf s p).parks = [] → (∀ q, q ≠ p → rdB s (pairStatusSlotValid q) = true →
        rd s (pairStatusSlot q) ≠ rd s (pairStatusSlot p)) → ∃ t, exec (.hartResumeLibero p) s = .next t ∧ rd t (pairStatusState l) = 3 ∧ rd t (pairStatusState p) = 0xB ∧
        rd t (pairStatusSlot l) = rd s (pairStatusSlot p) % 128 ∧ rd t (pairStatusSlotValid l) = 1 ∧
        rd t (pairStatusSlotValid p) = 0 ∧ rd t (pairOwnerOwnerA l) = rd s (pairOwnerOwnerA p) % 512 ∧
        rd t (pairSpareToPair p) = l ∧ rd t (pairSpareFromPair l) = p ∧
        rd t (dzpairPairId (2 * rd s (pairStatusSlot p))) = l ∧ (pairOf t l).sideEff = (pairOf s p).sideEff ∧
        (hartOf t (2 * rd s (pairStatusSlot p))).st = goesOnAs s (2 * rd s (pairStatusSlot p)) ∧
        coreOf t (2 * p) = {} ∧ coreOf t (2 * p + 1) = {} ∧
        (hartOf t (2 * rd s (pairStatusSlot p))).x = (hartOf s (2 * rd s (pairStatusSlot p))).x ∧
        (hartOf t (2 * rd s (pairStatusSlot p))).pc = (hartOf s (2 * rd s (pairStatusSlot p))).pc ∧
        (hartOf t (2 * rd s (pairStatusSlot p))).sparings = min 255 ((hartOf s (2 * rd s (pairStatusSlot p))).sparings + 1) ∧
        otherHarts (2 * rd s (pairStatusSlot p)) s t) ∧
    (∀ b, (pairOf s p).resumeAt = some b → b ≤ beat s → (pairOf s p).libero = none → (pairOf s p).parks = [] →
      ∃ t, exec (.hartResumeLibero p) s = .next t ∧ rd t (pairStatusState p) = 4 ∧
        (hartOf t (2 * rd s (pairStatusSlot p))).st = goesOnAs s (2 * rd s (pairStatusSlot p)) ∧
        (hartOf t (2 * rd s (pairStatusSlot p))).x = (hartOf s (2 * rd s (pairStatusSlot p))).x ∧
        (hartOf t (2 * rd s (pairStatusSlot p))).pc = (hartOf s (2 * rd s (pairStatusSlot p))).pc ∧
        (pairOf t p).survivor = (pairOf s p).survivor ∧ coreOf t (2 * p) = {} ∧ coreOf t (2 * p + 1) = {} ∧
        otherHarts (2 * rd s (pairStatusSlot p)) s t) ∧
    (∀ b, (pairOf s p).resumeAt = some b → beat s < b → exec (.hartResumeLibero p) s = .next s))

/-- CORE_MODE, CORE_START, CORE_PARK, CORE_STATUS, CORE_REQUALIFY and CORE_POLICY: the result, or the steps that the command
leaves for later boundaries. -/
def Obligations.CoreCommands : Prop :=
  ∀ (s : State) (i : Nat) (c : Bytes),
    (takenAs s i 0x0401 c → ∃ t h m cl, h = clampHart s (arg c 0 2) / 2 * 2 ∧ m = clampEnum 2 1 (arg c 2 1) ∧
      cl = chg (arg c 0 2) h + chg (arg c 2 1) m ∧ exec (.coreMode i) s = .next t ∧
      (pairOfSlot s (h / 2) = none → doneIn s t i cl (mkBytes [(0, 2, h), (2, 1, m), (3, 1, 3), (8, 8, 0)])) ∧
      (∀ p, pairOfSlot s (h / 2) = some p → slotOffline s (h / 2) = false →
        doneIn s t i cl (mkBytes [(0, 2, h), (2, 1, m), (3, 1, 1), (8, 8, 0)])) ∧
      (∀ p, pairOfSlot s (h / 2) = some p → slotOffline s (h / 2) = true →
        m = 0 ∨ (rdB s (pairStatusCoreAFailed p) = false ∧ rdB s (pairStatusCoreBFailed p) = false) → goesOn t i ∧
        t.journal = s.journal ++ [⟨i, beat s + 1, .mode (h / 2) m⟩,
          ⟨i, beat s + 1, .stage i cl (mkBytes [(0, 2, h), (2, 1, m), (8, 8, beat s + 1)])⟩]) ∧
      (∀ p, pairOfSlot s (h / 2) = some p → slotOffline s (h / 2) = true → m = 1 →
        rdB s (pairStatusCoreAFailed p) = true ∨ rdB s (pairStatusCoreBFailed p) = true →
        doneIn s t i cl (mkBytes [(0, 2, h), (2, 1, m), (3, 1, 2), (8, 8, 0)]))) ∧
    (takenAs s i 0x0402 c → ∃ t h cl, h = clampHart s (arg c 0 2) ∧ cl = chg (arg c 0 2) h ∧
      exec (.coreStart i) s = .next t ∧
      (merged s h = true → doneIn s t i cl (mkBytes [(0, 2, h), (2, 1, 2)])) ∧
      (merged s h = false → pairOfHart s h = none ∨ (hartOf s h).st = .fenced ∨ coreFailed s h = true ∨ underRequal s h = true →
        doneIn s t i cl (mkBytes [(0, 2, h), (2, 1, 3)])) ∧
      (∀ p, merged s h = false → pairOfHart s h = some p → (hartOf s h).st ≠ .fenced → coreFailed s h = false →
        underRequal s h = false → (hartOf s h).st ≠ .offline → doneIn s t i cl (mkBytes [(0, 2, h), (2, 1, 1)])) ∧
      (∀ p, merged s h = false → pairOfHart s h = some p → (hartOf s h).st = .offline → coreFailed s h = false → underRequal s h = false →
        ∃ pc b, (isSealed s (ownerOf s h) = false → pc = arg c 8 8) ∧
          (isSealed s (ownerOf s h) = true → pc = (tenantOf s (ownerOf s h)).entry) ∧ goesOn t i ∧
          (rd s (pwrDomainState p) = 1 ∨ rd s (pwrDomainState p) = 4 → b = beat s + 3 ∧ ⟨beat s + 1, 4, .switch p true⟩ ∈ t.due) ∧
          (rd s (pwrDomainState p) ≠ 1 → rd s (pwrDomainState p) ≠ 4 → b = beat s + 1 ∧ t.due = s.due) ∧
          t.journal = s.journal ++ [⟨i, b, .cmdStart i h pc (arg c 0x10 8) none⟩])) ∧
    (∀ h pc opq t, pairOfHart s h ≠ none → (hartOf s h).st = .offline → coreFailed s h = false →
      underRequal s h = false → (hartOf s h).fencedAt ≠ some (beat s) → t = applyAct s (.cmdStart i h pc opq none) → (hartOf t h).st = .running ∧ (hartOf t h).priv = .m ∧
        (hartOf t h).pc = pc / 2 * 2 ∧ tget 0 (hartOf t h).x 10 = h % 2 ^ 64 ∧ tget 0 (hartOf t h).x 11 = opq % 2 ^ 64 ∧
        (∀ r, r ≠ 10 → r ≠ 11 → tget 0 (hartOf t h).x r = 0) ∧ otherHarts h s t ∧
        doneIn s t i (chg (arg (mbxOf s i).copy 0 2) h) (mkBytes [(0, 2, h), (2, 1, 0), (8, 8, beat s)])) ∧
    (takenAs s i 0x0403 c → ∃ t h cl, h = clampHart s (arg c 0 2) ∧ cl = chg (arg c 0 2) h ∧
      exec (.corePark i) s = .next t ∧
      (merged s h = true → doneIn s t i cl (mkBytes [(0, 2, h), (2, 1, 2)])) ∧
      (merged s h = false → (hartOf s h).st = .offline ∨ (hartOf s h).st = .fenced →
        doneIn s t i cl (mkBytes [(0, 2, h), (2, 1, 1)])) ∧
      (merged s h = false → (hartOf s h).st ≠ .offline → (hartOf s h).st ≠ .fenced →
        t.journal = s.journal ++ [⟨i, beat s + 1, .stopHart h i⟩])) ∧
    (takenAs s i 0x0404 c → ∃ t h, h = clampHart s (arg c 0 2) ∧ exec (.coreStatus i) s = .next t ∧
      (∀ p, merged s h = false → pairOfHart s h = some p → doneIn s t i (chg (arg c 0 2) h) (mkBytes [(0, 2, h), (2, 1, p),
        (3, 1, rd s (pairStatusState p)), (4, 2, ownerOf s h), (6, 1, (freeLiberos s).length), (7, 1, (hartOf s h).sparings),
        (8, 8, (hartOf s h).lastResume)])) ∧
      (merged s h = true → doneIn s t i (chg (arg c 0 2) h) (mkBytes [(0, 2, h), (2, 1, 0xFF), (3, 1, 0xF0),
        (4, 2, ownerOf s h), (6, 1, (freeLiberos s).length), (7, 1, (hartOf s h).sparings), (8, 8, (hartOf s h).lastResume)]))) ∧
    (takenAs s i 0x0405 c → ∃ t p, p = clampUnit 136 (pairPresent s) (arg c 0 1) ∧ exec (.coreRequalify i) s = .next t ∧
      (rd s (pairStatusState p) = 0xB ∨ rd s (pairStatusState p) = 0xC → rd t (pairStatusState p) = 0xD ∧
        (pairOf t p).reqMbx = some i ∧ (pairOf t p).prior = rd s (pairStatusState p) ∧ goesOn t i) ∧
      (rd s (pairStatusState p) ≠ 0xB → rd s (pairStatusState p) ≠ 0xC → failedSplit s p = false →
        doneIn s t i (chg (arg c 0 1) p) (mkBytes [(0, 1, p), (1, 1, 2)]))) ∧
    (takenAs s i 0x0406 c → ∃ t v, v = (if vOf s = .d9_128e then 0 else clampEnum 2 0 (arg c 0 1)) ∧
      exec (.corePolicy i) s = .next t ∧ t.policy = v ∧ doneIn s t i (chg (arg c 0 1) v) (mkBytes [(0, 1, v)]))

/-! ## Slices -/

/-- SLICE_REQUEST and SLICE_FILL. A request behind a maintenance operation or a fill in flight waits in the queue (R125), as
does a miss without a buffer (R120). A line that the slice holds reaches the core, which the directory then names; one recalled
from the victim cache is counted (R122). A miss is a fill in flight; a request that may not reach the line, or that comes from a
frozen pair, goes no further. Arrived data ends the fill; poison allocates nothing. What other devices' requests of the line waited for
is then looked at again (R125). -/
def Obligations.SliceRequestsAndFills : Prop :=
  ∀ (s : State) (core pa tag n line : Nat) (excl : Bool), line = lineOf pa → n = homeSlice s tag line → n < 128 →
    core < 272 →
    (coreFrozen s core = true → exec (.sliceRequest core pa tag excl 0) s = .next s) ∧
    (coreFrozen s core = false → mayReach s tag line = false → ∃ t, exec (.sliceRequest core pa tag excl 0) s = .next t ∧
      samePart .slices s t ∧ samePart .cores s t ∧ samePart .outs s t ∧ samePart .mem s t) ∧
    (coreFrozen s core = false → mayReach s tag line = true → opWaits s n line = true ∨ filling s n line = true →
      wayClear s n line (excl || otherTag s n line tag) none = true → (sliceOf s n).outside = [] → amqRoom s n tag (sliceOf s n).amq = true →
      ⟨line, core, if excl then 4 else 0, tag⟩ ∉ (sliceOf s n).amq →
      ∃ t, exec (.sliceRequest core pa tag excl 0) s = .next t ∧
        (sliceOf t n).amq = (sliceOf s n).amq ++ [⟨line, core, if excl then 4 else 0, tag⟩] ∧
        (sliceOf t n).lines = (sliceOf s n).lines ∧ samePart .cores s t ∧ samePart .mem s t ∧ samePart .outs s t) ∧
    (∀ l, coreFrozen s core = false → mayReach s tag line = true → opWaits s n line = false → filling s n line = false →
      wayClear s n line (excl || otherTag s n line tag) none = true → dirOf s n line = none →
      (arrOf s n line).or (vicOf s n line) = some l → l.tag = tag → l.err = 0 → l.tagErr = false →
      excl = false ∨ ownLine s line = true → ∃ t, exec (.sliceRequest core pa tag excl 0) s = .next t ∧
        l2Of t core line = some ⟨tag, if excl then .e else .s, l.poison, l.data⟩ ∧
        (∃ cores, dirOf t n line = some ⟨tag, excl, cores⟩ ∧ core ∈ cores) ∧
        (arrOf s n line = none → counted (llcVictimRecalls n) 1 s t)) ∧
    (coreFrozen s core = false → mayReach s tag line = true → opWaits s n line = false → filling s n line = false →
      wayClear s n line (excl || otherTag s n line tag) none = true → dirOf s n line = none → arrOf s n line = none → vicOf s n line = none →
      missRoom s n tag = true → ∃ t, exec (.sliceRequest core pa tag excl 0) s = .next t ∧ samePart .cores s t ∧
        (sliceOf t n).fills = (sliceOf s n).fills ++ [⟨line, core, tag, excl⟩] ∧
        (ownDram s line = true → samePart .outs s t) ∧
        (ownDram s line = false → ∃ o, t.outs = s.outs ++ [o] ∧ o.xid = s.nextXid ∧ o.dev = outDev s line ∧
          o.kind = (if excl then 2 else 1) ∧ o.pa = line * 64 ∧ o.tag = tag ∧ o.origin = .slice n core excl)) ∧
    (∀ l, missRoom s n tag = false → coreFrozen s core = false → mayReach s tag line = true → opWaits s n line = false →
      filling s n line = false → wayClear s n line (excl || otherTag s n line tag) none = true → dirOf s n line = none →
      (arrOf s n line).or (vicOf s n line) = none → (sliceOf s n).outside = [] → amqRoom s n tag (sliceOf s n).amq = true →
      l = (⟨line, core, if excl then 4 else 0, tag⟩ : AmqEnt) → l ∉ (sliceOf s n).amq →
      ∃ t, exec (.sliceRequest core pa tag excl 0) s = .next t ∧ (sliceOf t n).amq = (sliceOf s n).amq ++ [l] ∧
        (sliceOf t n).fills = (sliceOf s n).fills ∧ samePart .cores s t ∧ samePart .mem s t ∧ samePart .outs s t) ∧
    (∀ m f tg d, tget none s.mem.arrived (line % 2 ^ 40) = some (tg, d, false) → m < 128 → f.core < 272 →
      coreFrozen s f.core = false →
      (sliceOf s m).fills.find? (fun f => f.line == line) = some f → (sliceOf s m).amq = [] → mayReach s f.tag line = true →
      ∃ t, exec (.sliceFill m line) s = .next (pumpLine line t) ∧
        (sliceOf t m).fills = (sliceOf s m).fills.erase f ∧
        l2Of t f.core line = some ⟨f.tag, if f.excl then .e else .s, false, d⟩ ∧
        (∃ cores, dirOf t m line = some ⟨f.tag, f.excl, cores⟩ ∧ f.core ∈ cores) ∧
        (f.excl = true → ownLine s line = false → line ∈ (sliceOf t m).owned) ∧
        (∀ w, (sliceOf s m).dir = [] → arrOf s m line = none → rd s (llcStatusState m) = 1 → tget 0 (sliceOf s m).parked line = 0 →
          (eligible s m f.tag).find? (fun w => (occupant s m line w).isNone) = some w →
          ∃ l, arrOf t m line = some l ∧ l.tag = f.tag ∧ l.way = w ∧ l.data = d ∧ l.dirty = false ∧ l.poison = false)) ∧
    (∀ m f tg d, tget none s.mem.arrived (line % 2 ^ 40) = some (tg, d, true) →
      (sliceOf s m).fills.find? (fun f => f.line == line) = some f → (sliceOf s m).amq = [] →
      ∃ t, exec (.sliceFill m line) s = .next (pumpLine line t) ∧
        (sliceOf t m).fills = (sliceOf s m).fills.erase f ∧ (sliceOf t m).lines = (sliceOf s m).lines ∧
        (line ∉ (coreOf s f.core).hints → line ∈ (coreOf t f.core).badFills) ∧
        (line ∈ (coreOf s f.core).hints → (coreOf t f.core).badFills = (coreOf s f.core).badFills ∧
          line ∉ (coreOf t f.core).hints) ∧ (∀ c, (coreOf t c).l2 = (coreOf s c).l2) ∧ samePart .regs s t) ∧
    (∀ m f tg d, tget none s.mem.arrived (line % 2 ^ 40) = some (tg, d, false) → mayReach s f.tag line = false →
      (sliceOf s m).fills.find? (fun f => f.line == line) = some f → (sliceOf s m).amq = [] →
      ∃ t, exec (.sliceFill m line) s = .next (pumpLine line t) ∧ (sliceOf t m).fills = (sliceOf s m).fills.erase f ∧
        (sliceOf t m).lines = (sliceOf s m).lines ∧ samePart .cores s t ∧ samePart .regs s t) ∧
    (∀ m, filling s m line = false → exec (.sliceFill m line) s = .next (pumpLine line s)) ∧
    (∀ m, tget none s.mem.arrived (line % 2 ^ 40) = none → exec (.sliceFill m line) s = .next (pumpLine line s)) ∧
    ((∀ x ∈ s.fabric.trackers, x.resp ≠ none ∨ (lineOf x.req.pa ≠ line ∧
        Config.fabSet (lineOf x.req.pa) % 4096 ≠ Config.fabSet line % 4096)) → (∀ m ∈ presentSlices s, nextReady s m = none) →
      pumpLine line s = s)

/-- MAINTENANCE_ACCEPT, MAINTENANCE_COMPLETE and L2_EVICTION (R111, R125, R126). An operation enters the queue, and on a line
of another device its home is asked too. A flush or an invalidation leaves no copy of the line in the slice or in the cores
that its directory named, and the hart that waits for it goes on (R60); a clean leaves the line clean and sends dirty data
home, and is complete once the home holds it; the home of another device's line answers the write-back first (R126). What
waited for the line is then looked at again. An evicted line leaves the core; the slice's copy takes its dirty data. A frozen
pair's core is heard by none of them (R91). SLICE_DRAIN_WALK_DONE, HANDOVER_COMPLETE and CACHE_PRELOAD_DONE (R123, R128), and
LLC_INJECT_DATA_CE, LLC_INJECT_DATA_UE and LLC_INJECT_TAG_PAR, which act when test.inject has armed that kind (R436). -/
def Obligations.SliceMaintenanceAndRemoval : Prop :=
  (∀ (s : State) (n core line tag op : Nat),
    (1 ≤ op → op ≤ 3 → coreFrozen s core = false → (sliceOf s n).outside = [] → amqRoom s n tag (sliceOf s n).amq = true →
      ∃ t, exec (.maintenanceAccept n core line tag op) s = .next t ∧
      (sliceOf t n).amq = (sliceOf s n).amq ++ [⟨line, core, op, tag⟩] ∧ (sliceOf t n).lines = (sliceOf s n).lines ∧
      samePart .cores s t ∧ samePart .mem s t ∧ (ownLine s line = true → t.outs = s.outs) ∧
      (ownLine s line = false → ∃ o, t.outs = s.outs ++ [o] ∧ o.kind = 7 ∧ o.dev = outDev s line ∧ o.pa = line * 64 ∧
        o.tag = tag ∧ o.op = op ∧ o.origin = .maint n core)) ∧
    (op = 0 ∨ 3 < op ∨ coreFrozen s core = true → exec (.maintenanceAccept n core line tag op) s = .next s) ∧
    (∀ e, (sliceOf s n).amq.find? (fun e => e.line == line && (e.op == 1 || e.op == 2 || e.op == 3)) = some e →
      n < 128 → e.core < 272 → filling s n line = false → maintAnswered s line = true →
      wayClear s n line (e.op != 1) none = true →
      (∀ x ∈ (sliceOf s n).amq, isReq x = false) → (sliceOf s n).outside = [] →
      (e.op ≠ 1 → ∃ t, exec (.maintenanceComplete n line) s = .next (pumpLine line t) ∧ (sliceOf t n).amq = (sliceOf s n).amq.erase e ∧
        arrOf t n line = none ∧ vicOf t n line = none ∧ dirOf t n line = none ∧
        (∀ d, dirOf s n line = some d → ∀ c ∈ d.cores, l2Of t c line = none) ∧
        (∀ h, hartOfCore s (e.core / 2) (e.core % 2) = some h → (hartOf s h).cbo = some line → (hartOf t h).cbo = none)) ∧
      (∀ l, e.op = 1 → dirOf s n line = none → arrOf s n line = some l → errRow (some l) = 0 → l.dirty = true →
        ownLine s line = false →
        ∃ t, exec (.maintenanceComplete n line) s = .next (pumpLine line t) ∧ (sliceOf t n).amq = (sliceOf s n).amq ∧
          arrOf t n line = some { l with dirty := false } ∧ ∃ o, t.outs = s.outs ++ [o] ∧ o.kind = 5 ∧ o.dev = outDev s line ∧
            o.pa = line * 64 ∧ o.data = l.data ∧ o.tag = l.tag) ∧
      (∀ l, e.op = 1 → dirOf s n line = none → arrOf s n line = some l → errRow (some l) = 0 → l.dirty = true →
        ownDram s line = true → ∃ t, exec (.maintenanceComplete n line) s = .next (pumpLine line t) ∧ arrOf t n line = some { l with dirty := false } ∧
          (sliceOf t n).amq = (if writeWaiting t (line % 2 ^ 40) then (sliceOf s n).amq else (sliceOf s n).amq.erase e)) ∧
      (∀ l, e.op = 1 → dirOf s n line = none → arrOf s n line = some l → errRow (some l) = 0 → l.dirty = false →
        homeWaits s line = false →
        ∃ t, exec (.maintenanceComplete n line) s = .next (pumpLine line t) ∧ (sliceOf t n).amq = (sliceOf s n).amq.erase e ∧
          arrOf t n line = some l ∧ samePart .mem s t ∧ samePart .outs s t)) ∧
    (opWaits s n line = false → exec (.maintenanceComplete n line) s = .next (pumpLine line s)) ∧
    (∀ l, l2Of s core line = some l → coreFrozen s core = false → l.st ≠ .m ∨ invertArmed s (core / 2) = false →
      ∃ t, exec (.l2Eviction core line) s = .next t ∧ l2Of t core line = none ∧
      (∀ e, dirOf t (homeSlice s l.tag line) line = some e → core ∉ e.cores) ∧
      (l.st ≠ .m → (∀ m k, arrOf t m k = arrOf s m k) ∧ samePart .mem s t ∧ samePart .outs s t) ∧
      (∀ o, l.st = .m → arrOf s (homeSlice s l.tag line) line = some o →
        ∃ r, arrOf t (homeSlice s l.tag line) line = some r ∧ r.tag = l.tag ∧ r.way = o.way ∧ r.dirty = true ∧
          r.data = l.data ∧ r.poison = l.poison)) ∧
    (∀ l, l2Of s core line = some l → coreFrozen s core = false → l.st = .m → invertArmed s (core / 2) = true → core / 2 < 136 →
      ∃ t, exec (.l2Eviction core line) s = .next t ∧ rd t (pairStatusState (core / 2)) = 5 ∧
        rd t (pairCmpStatusBus (core / 2)) = 1 ∧ sameL2 s t ∧ samePart .slices s t ∧ samePart .mem s t) ∧
    (l2Of s core line = none ∨ coreFrozen s core = true → exec (.l2Eviction core line) s = .next s)) ∧
  (∀ (s : State) (n : Nat), n < 128 →
    (rd s (llcStatusState n) = 2 → ∃ t, exec (.sliceDrainWalkDone n) s = .next t ∧ (sliceOf t n).lines = [] ∧
      (sliceOf t n).victims = [] ∧ (sliceOf t n).parked = [] ∧ rd t (llcDrainLinesLeft n) = 0 ∧
      rd t (llcDrainVictimsLeft n) = 0 ∧ rd t (llcWaysLockedMask n) = 0 ∧ rd t (llcStatusState n) = 2 ∧
      (∀ k ∈ t.mesh.locks, n ∉ k.slices) ∧
      ((sliceOf s n).lastOne = false → t.due = s.due ++ [⟨beat s + 1, 2, .handSlice n⟩]) ∧
      ((sliceOf s n).lastOne = true → t.due = s.due)) ∧
    (rd s (llcStatusState n) ≠ 2 → exec (.sliceDrainWalkDone n) s = .next s) ∧
    (rd s (llcStatusState n) = 3 →
      exec (.handoverComplete n) s = .next { s with due := s.due ++ [⟨beat s + 1, 2, .switchBuckets n⟩] }) ∧
    (rd s (llcStatusState n) ≠ 3 → exec (.handoverComplete n) s = .next s) ∧
    (∀ i j k, s.mesh.preload.find? (fun e => e.1 == i) = some (j, k) → preloadHeld s k ≠ [] → exec (.cachePreloadDone i) s =
      .next ((preloadHeld s k).foldl (fun a l => ncOpen (.mailbox i) k.owner l false a) s)) ∧
    (∀ i j k s0, s.mesh.preload.find? (fun e => e.1 == i) = some (j, k) → preloadHeld s k = [] →
      askLines (.mailbox i) k.owner ((rangeLines k.base k.size).filter fun l => (preloadWay s k l).isSome) s = (s0, false) →
      exec (.cachePreloadDone i) s = .next s0) ∧
    (∀ i j k s0, s.mesh.preload.find? (fun e => e.1 == i) = some (j, k) → preloadHeld s k = [] →
      askLines (.mailbox i) k.owner ((rangeLines k.base k.size).filter fun l => (preloadWay s k l).isSome) s = (s0, true) → ∃ t placed, exec (.cachePreloadDone i) s = .next t ∧
      t.mesh.preload = s.mesh.preload.filter (fun e => e.1 != i) ∧ t.mesh.locks = s.mesh.locks ++ [{ k with lines := placed }] ∧
      (∀ l ∈ placed, l ∈ rangeLines k.base k.size) ∧
      t.due = s.due ++ [⟨beat s + 1, 9, .stage i
        (chg (arg (mbxOf s i).copy 0 8) k.base + chg (arg (mbxOf s i).copy 8 8) k.size + chg (arg (mbxOf s i).copy 0x10 1) k.ways)
        (mkBytes [(0, 8, k.base), (8, 8, k.size), (0x10, 1, k.ways), (0x12, 1, k.id), (0x14, 4, placed.length),
          (0x18, 4, k.size / 64 - placed.length)])⟩]) ∧
    (∀ i, s.mesh.preload.find? (fun e => e.1 == i) = none → exec (.cachePreloadDone i) s = .next s) ∧
    (isArmed s 2 n 0 = none → exec (.llcInjectDataCe n) s = .next s) ∧
    (∀ a, isArmed s 2 n 0 = some a → ∃ t, exec (.llcInjectDataCe n) s = .next t ∧
      sliceOf t n = { sliceOf s n with injCe := true } ∧ (∀ m, m ≠ n → sliceOf t m = sliceOf s m) ∧
      tget none t.armed (armKey 2 n) = some ⟨3, 0, a.beat⟩ ∧ samePart .regs s t) ∧
    (isArmed s 2 n 1 = none → exec (.llcInjectDataUe n) s = .next s) ∧
    (∀ a, isArmed s 2 n 1 = some a → ∃ t, exec (.llcInjectDataUe n) s = .next t ∧
      sliceOf t n = { sliceOf s n with injUe := true } ∧ (∀ m, m ≠ n → sliceOf t m = sliceOf s m) ∧
      tget none t.armed (armKey 2 n) = some ⟨3, 0, a.beat⟩ ∧ samePart .regs s t) ∧
    (isArmed s 2 n 2 = none → exec (.llcInjectTagPar n) s = .next s) ∧
    (∀ a, isArmed s 2 n 2 = some a → ∃ t, exec (.llcInjectTagPar n) s = .next t ∧
      sliceOf t n = { sliceOf s n with injTag := true } ∧ (∀ m, m ≠ n → sliceOf t m = sliceOf s m) ∧
      tget none t.armed (armKey 2 n) = some ⟨3, 0, a.beat⟩ ∧ samePart .regs s t))

/-- CACHE_LOCK, CACHE_UNLOCK, CACHE_SLICE and CACHE_STATUS (R123, R124, R128, R138): the outcome, the lock whose preload
begins or which ends, and the slice that is to drain, unless a fence of the boundary took it or made it the last (R40). -/
def Obligations.CacheCommands : Prop :=
  ∀ (s : State) (i : Nat) (c : Bytes), i < 260 →
    (takenAs s i 0x0601 c → ∃ t base size slices limit ways cl, base = roundDown 4096 (arg c 0 8) ∧
      size = clampR 4096 0x40000000 (roundUp 4096 (arg c 8 8)) ∧ slices = ((rangeLines base size).map (homeSlice s i)).eraseDups ∧
      limit = (slices.map (lockLimit s i)).foldl min 24 ∧ ways = clampR (min 1 limit) limit (arg c 0x10 1) ∧
      cl = chg (arg c 0 8) base + chg (arg c 8 8) size + chg (arg c 0x10 1) ways ∧ exec (.cacheLock i) s = .next t ∧
      (ownsRange s i base size = false →
        doneIn s t i cl (mkBytes [(0, 8, base), (8, 8, size), (0x10, 1, ways), (0x11, 1, 1)]) ∧ samePart .mesh s t) ∧
      (ownsRange s i base size = true → 8 ≤ (locksOf s i).length →
        doneIn s t i cl (mkBytes [(0, 8, base), (8, 8, size), (0x10, 1, ways), (0x11, 1, 2)]) ∧ samePart .mesh s t) ∧
      (ownsRange s i base size = true → (locksOf s i).length < 8 → goesOn t i ∧ t.mesh.locks = s.mesh.locks ∧
        ∃ held, held.map Prod.fst = slices ∧
        t.mesh.preload = s.mesh.preload ++ [(i, ⟨i, freeLockId s i, base, size, ways, [], slices, held⟩)])) ∧
    (takenAs s i 0x0602 c → ∃ t, exec (.cacheUnlock i) s = .next t ∧
      ((locksOf s i).find? (fun k => k.id == min 7 (arg c 0 1)) = none →
        doneIn s t i (chg (arg c 0 1) (min 7 (arg c 0 1))) (mkBytes [(0, 1, min 7 (arg c 0 1)), (1, 1, 1)]) ∧ samePart .mesh s t) ∧
      (∀ k, (locksOf s i).find? (fun k => k.id == min 7 (arg c 0 1)) = some k → (∀ e ∈ k.held, e.1 < 128) → (∀ l ∈ k.lines, homeSlice s k.owner l < 128) → k.owner < 257 →
        doneIn s t i (chg (arg c 0 1) (min 7 (arg c 0 1))) (mkBytes [(0, 1, min 7 (arg c 0 1))]) ∧
        t.mesh.locks = s.mesh.locks.erase k)) ∧
    (takenAs s i 0x0603 c → ∃ t n cl, n = clampUnit 128 (slicePresent s) (arg c 0 1) ∧ cl = chg (arg c 0 1) n ∧
      exec (.cacheSlice i) s = .next t ∧ samePart .mesh s t ∧
      (rd s (llcStatusState n) ≠ 1 → doneIn s t i cl (mkBytes [(0, 1, n), (1, 1, 1)])) ∧
      (rd s (llcStatusState n) = 1 → lastSlice s n = true → doneIn s t i cl (mkBytes [(0, 1, n), (1, 1, 2)])) ∧
      (rd s (llcStatusState n) = 1 → lastSlice s n = false → goesOn t i ∧
        t.journal = s.journal ++ [⟨i, beat s + 1, .drainSlice n 1⟩] ∧ (sliceOf t n).walkMbx = some i)) ∧
    (∀ n, (sliceOf s n).walkMbx = some i →
      (rd s (llcStatusState n) ≠ 1 → doneIn s (applyAct s (.drainSlice n 1)) i (chg (arg (mbxOf s i).copy 0 1) n)
        (mkBytes [(0, 1, n), (1, 1, 1)])) ∧
      (rd s (llcStatusState n) = 1 → lastSlice s n = true → doneIn s (applyAct s (.drainSlice n 1)) i
        (chg (arg (mbxOf s i).copy 0 1) n) (mkBytes [(0, 1, n), (1, 1, 2)])) ∧
      (rd s (llcStatusState n) = 1 → lastSlice s n = false → n < 128 → rd (applyAct s (.drainSlice n 1)) (llcStatusState n) = 2)) ∧
    (takenAs s i 0x0604 c → ∃ t n, n = clampUnit 128 (slicePresent s) (arg c 0 1) ∧ exec (.cacheStatus i) s = .next t ∧
      samePart .slices s t ∧ doneIn s t i (chg (arg c 0 1) n) (mkBytes [(0, 1, n), (1, 1, rd s (llcStatusState n)),
        (2, 2, rd s (llcStatusBuckets n)), (4, 1, (waysOf (rd s (llcWaysSharedMask n))).length),
        (5, 1, (partTenants s n).length), (6, 1, (s.mesh.locks.filter fun k => k.slices.contains n).length),
        (7, 1, (sliceOf s n).released), (8, 2, rd s (llcErrCountDataCe n)), (10, 2, rd s (llcErrCountDataUe n)),
        (12, 2, rd s (llcErrCountTagErr n)), (14, 2, rd s (llcErrCountDirErr n))]))

/-! ## Fences -/

/-- FENCE (R127, R195, R289, R306, R418 to R421): what is fenced with no test under way. A fence that its own chapter brings
about leaves all but the stamps of the log alone. The command completes at once: the unit is fenced at step 2 of the next
boundary (R40), where the other clauses hold. -/
def Obligations.FencesOfUnits : Prop :=
  ∀ s : State, (∀ u, exec (.fence u) s = .next { s with due := s.due ++ [⟨beat s + 1, 2, .fence u⟩] }) ∧
   (runningTests s = [] →
    (∀ h, ∀ u ∈ [UnitRef.hart h, .clerk h, .assayer h], ∃ t, t = applyAct s (.fence u) ∧ ∀ p, p ≠ .ras → samePart p s t) ∧
    (∀ n, n < 128 → s.boot.step ≠ 9 → rd s (llcStatusState n) = 1 → ∃ t, t = applyAct s (.fence (.slice n 5)) ∧
      rd t (llcStatusState n) = 4 ∧ rd t (llcStatusCause n) = 5 ∧ rd t (llcStatusFenced n) = 1 ∧
      t.mesh.base = s.mesh.base.filter (· != n)) ∧
    (∀ n c row way ts, n < 128 → c ≠ 5 → (sliceOf s n).fault = [(row, way, ts)] → rd s (llcStatusFenced n) = 0 →
      rd s (llcStatusState n) = 1 → ∃ t, t = applyAct s (.fence (.slice n c)) ∧ rd t (llcStatusState n) = 2 ∧
        rd t (llcStatusCause n) = (if row = 5 then 2 else if row = 7 then 3 else 4) ∧ rd t (llcStatusFenced n) = 1 ∧
        (sliceOf t n).fault = []) ∧
    (∀ c, chanPresent s c = true → rd s (mcStatusState c) = 3 → ∃ t, t = applyAct s (.fence (.chan c)) ∧
      rd t (mcStatusState c) = 5 ∧ rd t (pwrDomainFenced (144 + c)) = 1) ∧
    (∀ c r, chanPresent s c = true → rd s (mcStatusState c) ≠ 5 → r < ranksOf s c → r ∉ (chanOf s c).fencedRanks →
      ∃ t, t = applyAct s (.fence (.rank c r)) ∧ (chanOf t c).fencedRanks = r :: (chanOf s c).fencedRanks) ∧
    (∀ c b, chanPresent s c = true → rd s (mcStatusState c) ≠ 5 → b < 2 → (chanOf s c).fencedSubs = [] →
      ∃ t, t = applyAct s (.fence (.sub c b)) ∧ (chanOf t c).fencedSubs = [b] ∧ b ∉ (chanOf t c).stopped) ∧
    (∀ g n, groupPresent s g = true → n < 4 → 4 ≤ recentDowns s g n → portState s g n ≠ 6 → portState s g n ≠ 0 →
      ∃ t, t = applyAct s (.fence (.port g n)) ∧ portState t g n = 6) ∧
    (∀ k, fabPortPresent s k = true → portState5 s k = 4 → ∃ t, t = applyAct s (.fence (.link k)) ∧ portState5 t k = 6 ∧
      counted (fabPortRetryFailures k) 1 s t) ∧
    (∀ k, fabPortPresent s k = true → 4 ≤ recentFails s k → (fportOf s k).fenced = false →
      ∃ t, t = applyAct s (.fence (.fabPort k)) ∧ portState5 t k = 6 ∧ (fportOf t k).fenced = true ∧
        domOn t (168 + k) = false ∧ rd t (pwrDomainFenced (168 + k)) = 1) ∧
    (∀ d, d < 64 → dmaState s d ≠ 0 → dmaState s d ≠ 1 → dmaState s d ≠ 6 → (dmaOf s d).aborting = false →
      ∃ t, t = applyAct s (.fence (.dma d)) ∧ (dmaPriv d = true → dmaState t d = 6) ∧
        (dmaPriv d = false → (dmaOf t d).aborting = true ∧ rd t (dmaCtrlEnable d) = 0)) ∧
    (∀ x, x < 2 → halfFenced s x = false → ∃ t, t = applyAct s (.fence (.half x)) ∧ halfFenced t x = true ∧
      (s.toss.holder = some x → s.toss.pass = none → t.toss.pass = some (1 - x, beat s + 1, 2)) ∧
      (s.toss.holder ≠ some x → (cplxOf t x).fenced = true ∧ rd t (pwrDomainFenced (176 + x)) = 1) ∧
      (halfFenced s (1 - x) = true → t.chip.fatal = true ∧ t.boot.code = 0xF0 ∧ t.boot.stopped = true)) ∧
    (∀ x, halfFenced s x = true → ∃ t, t = applyAct s (.fence (.half x)) ∧ ∀ p, p ≠ .ras → samePart p s t))

/-! ## DDR5 channels -/

/-- TRAINING_STEP_DONE, TRAINING_TIMEOUT, FILL_COMPLETE and SELF_REFRESH_EXIT (R139, R140, R144, R145, R153, R154, R172,
R195). -/
def Obligations.TrainingFillAndSelfRefresh : Prop :=
  ∀ (s : State) (c : Nat), c < 16 →
    (rd s (mcStatusState c) = 1 → (chanOf s c).trained = false →
      (∃ t, exec (.trainingStepDone c .fail) s = .next t ∧ rd t (mcStatusState c) = 6 ∧
        rd t (mcStatusFailCode c) = trainCode (rd s (mcStatusStep c)) % 256 ∧ recordedIn 2 3 c 0x030A s t ∧
        rd t (mcTrainTimeBeats c) = (beat s - (chanOf s c).trainStart) % 2 ^ 32) ∧
      (rd s (mcStatusStep c) = 4 ∨ rd s (mcStatusStep c) = 6 → ∃ t, exec (.trainingStepDone c .point) s = .next t ∧
        counted (mcStatusProgress c) 1 s t ∧ otherFields [mcStatusProgress c] s t) ∧
      (rd s (mcStatusStep c) = 1 → ∀ f v, (∃ t, exec (.trainingStepDone c (.spd false f v)) s = .next t ∧
          rd t (mcStatusState c) = 6 ∧ rd t (mcStatusFailCode c) = 1) ∧
        (spdOf f v = none → ∃ t, exec (.trainingStepDone c (.spd true f v)) s = .next t ∧
          rd t (mcStatusState c) = 6 ∧ rd t (mcStatusFailCode c) = 2) ∧
        (∀ d, spdOf f v = some d → ∃ t, exec (.trainingStepDone c (.spd true f v)) s = .next t ∧
          rd t (mcStatusStep c) = 2 ∧ rd t (mcStatusProgress c) = 0 ∧ (chanOf t c).dimm = some d ∧
          rd t (mcDimmRanks c) = d.ranks ∧ rd t (mcDimmCapacityGb c) = d.capGb ∧
          (chanPresent s c = true → s.mem.speed = 0 → (∀ x ∈ trainingChans s, x ≠ c → rd s (mcStatusStep x) ≠ 1) →
            rd t (mcDimmSpeed c) = commonSpeed t ∧ t.mem.speed = commonSpeed t) ∧
          (s.mem.speed ≠ 0 → rd t (mcDimmSpeed c) = rd s (mcDimmSpeed c)))) ∧
      (∀ bad, rd s (mcStatusStep c) ∈ [2, 3, 5, 7] → ∃ t, exec (.trainingStepDone c (.ok bad)) s = .next t ∧
        rd t (mcStatusStep c) = rd s (mcStatusStep c) + 1 ∧ rd t (mcStatusProgress c) = 0 ∧ rd t (mcStatusState c) = 1) ∧
      (∀ eyes, rd s (mcStatusStep c) = 4 ∨ rd s (mcStatusStep c) = 6 → rd s (mcDimmRanks c) ≤ 2 →
        ∃ t, exec (.trainingStepDone c (.sweep eyes)) s = .next t ∧
          ((∃ n, n < 20 * rd s (mcDimmRanks c) ∧ ∀ late, nibbleOf late (rd s (mcDimmRanks c)) eyes n = none) →
            rd t (mcStatusState c) = 6 ∧ rd t (mcStatusFailCode c) = 0x0A ∧ rd t (mcStatusProgress c) = 128) ∧
          ((∀ n, n < 20 * rd s (mcDimmRanks c) → ∀ late, (nibbleOf late (rd s (mcDimmRanks c)) eyes n).isSome = true) →
            rd t (mcStatusStep c) = rd s (mcStatusStep c) + 1 ∧ rd t (mcStatusState c) = 1 ∧ rd t (mcStatusProgress c) = 0 ∧
            ∀ n d w, n < 20 * rd s (mcDimmRanks c) → (∀ late, nibbleOf late (rd s (mcDimmRanks c)) eyes n = some (d, w)) →
              (rd s (mcStatusStep c) = 4 → rd t (mcNibbleRdDelay c n) = d % 128 ∧ rd t (mcNibbleRdWidth c n) = w % 128) ∧
              (rd s (mcStatusStep c) = 6 → rd t (mcNibbleWrDelay c n) = d % 128 ∧ rd t (mcNibbleWrWidth c n) = w % 128))) ∧
      (∀ bad d, rd s (mcStatusStep c) = 8 → (chanOf s c).dimm = some d → ∃ t g,
        exec (.trainingStepDone c (.ok bad)) s = .next t ∧ g = gridLen d (rd s (mcDimmSpeed c)) ∧ (chanOf t c).trained = true ∧
        rd t (mcStatusState c) = (if s.mem.locked then 3 else 1) ∧ rd t (mcSlotGridSlots c) = g.slots % 1024 ∧
        rd t (mcSlotGridPre c) = g.pre % 128 ∧ rd t (mcSlotGridPost c) = g.post % 128 ∧
        rd t (mcSlotGridSpacing c) = g.spacing % 128 ∧ rd t (mcSlotGridWindow c) = g.window % 256 ∧
        rd t (mcSlotGridBlocks c) = (gridBlocks g d.ranks).length ∧
        ∀ i x, (gridBlocks g d.ranks)[i]? = some x → ∀ n ∈ [i, i + 32], rd t (mcSealBlockPosition c n) = x.1 % 512 ∧
          rd t (mcSealBlockRole c n) = x.2 % 2 ∧ rd t (mcSealBlockValid c n) = 1) ∧
      (trainLimitMs (rd s (mcStatusStep c)) * 1000 < beat s - (chanOf s c).stepStart → ∃ t,
        exec (.trainingTimeout c) s = .next t ∧ rd t (mcStatusState c) = 6 ∧
        rd t (mcStatusFailCode c) = trainCode (rd s (mcStatusStep c)) % 256 ∧ recordedIn 2 3 c 0x030A s t) ∧
      (beat s - (chanOf s c).stepStart ≤ trainLimitMs (rd s (mcStatusStep c)) * 1000 →
        exec (.trainingTimeout c) s = .next s)) ∧
    (∀ r, rd s (mcStatusState c) ≠ 1 → exec (.trainingStepDone c r) s = .next s ∧ exec (.trainingTimeout c) s = .next s) ∧
    (rd s (mcStatusState c) = 2 → ∃ t, exec (.fillComplete c) s = .next t ∧ rd t (mcStatusState c) = 3 ∧
      rd t (mcFillLinesDone c) = chanLines s c % 2 ^ 40 ∧
      rd t (mcFillTimeBeats c) = (beat s - (chanOf s c).fillBegan) % 2 ^ 32 ∧ rd t (mcPatrolRunning c) = 1 ∧
      rd t (mcPatrolReason c) = 1 ∧ (∀ line, lineAt t c line = {}) ∧ otherFields [mcStatusState c, mcFillLinesDone c,
        mcFillTimeBeats c, mcPatrolRunning c, mcPatrolReason c, mcPredStatsHits c, mcPredStatsMisses c] s t) ∧
    (rd s (mcStatusState c) ≠ 2 → exec (.fillComplete c) s = .next s) ∧
    (∀ codes delays, rd s (mcStatusState c) = 4 →
      (∃ t, exec (.selfRefreshExit c true codes delays) s = .next t ∧ rd t (mcStatusState c) = 3 ∧ (chanOf t c).banks = [] ∧
        (chanOf t c).catchUps = [] ∧ (chanOf t c).wholeFrom = beat s + 1) ∧
      (∃ t, exec (.selfRefreshExit c false codes delays) s = .next t ∧ rd t (mcStatusState c) = 1 ∧ rd t (mcStatusStep c) = 2 ∧
        (chanOf t c).trained = false ∧ (chanOf t c).lines = (chanOf s c).lines ∧ (chanOf t c).catchUps = [])) ∧
    (∀ ok codes delays, rd s (mcStatusState c) ≠ 4 → exec (.selfRefreshExit c ok codes delays) s = .next s)

/-- DRAM_REQUEST, RT_PORT_REQUEST, COMMAND_OPPORTUNITY, ROW_IDLE_CLOSE, CLAIM_START and SEALED_SELECTION (R147 to R158, R164,
R166, R205, R420). A request that its owner check passes enters its queue, or waits outside a full one; a command opportunity
serves the request that R148 picks, and a selection the owner's oldest requests of one direction, or loses the block's slots. -/
def Obligations.DramRequestsAndCommands : Prop :=
  ∀ (s : State) (c : Nat), c < 16 →
    (∀ q k, coord s (q.pa % 2 ^ 46) = some k → c ∈ copies s k.chan →
      (granuleOk s (q.pa % 2 ^ 46) q.tag q.mgmt = false → ∀ i ∈ [Instr.dramRequest c q, .rtPortRequest c q],
        ∃ t, exec i s = .next t ∧ samePart .mem s t ∧ recordedIn 5 3 c 0x0B02 s t ∧
          (tenantOf t q.tag).refused = (tenantOf s q.tag).refused + 1) ∧
      (granuleOk s (q.pa % 2 ^ 46) q.tag q.mgmt = true → mirrored s k.chan = false → partFenced s c k = false →
        isSealed s q.tag = false → q.removal = false → q.cls ≠ 0 →
        (q.write = true → ∀ r ∈ waitingAt s c k.sub, r.raw = none ∨ r.line ≠ q.pa % 2 ^ 46 / 64) →
        ∃ t, exec (.dramRequest c q) s = .next t ∧ samePart .regs s t ∧
          (((queueOf s c k.sub).filter fun r => r.write == q.write).length < 64 →
            queueOf t c k.sub = queueOf s c k.sub ++ [reqOf s q q.cls q.port] ∧ outsideOf t c k.sub = outsideOf s c k.sub) ∧
          (64 ≤ ((queueOf s c k.sub).filter fun r => r.write == q.write).length →
            outsideOf t c k.sub = outsideOf s c k.sub ++ [reqOf s q q.cls q.port] ∧ queueOf t c k.sub = queueOf s c k.sub)) ∧
      (granuleOk s (q.pa % 2 ^ 46) q.tag q.mgmt = true → mirrored s k.chan = false → partFenced s c k = false →
        isSealed s q.tag = false → q.removal = false → (rtOf s c (q.port % 2)).length < 64 →
        (q.write = true → ∀ r ∈ waitingAt s c k.sub, r.raw = none ∨ r.line ≠ q.pa % 2 ^ 46 / 64) →
        ∃ t, exec (.rtPortRequest c q) s = .next t ∧
          rtOf t c (q.port % 2) = rtOf s c (q.port % 2) ++ [reqOf s q 0 (q.port % 2)] ∧
          (rd s (panicLevel (q.port % 2) c) < (rtOf s c (q.port % 2)).length + 1 →
            rdB t (panicFlag (q.port % 2) c) = true)) ∧
      (granuleOk s (q.pa % 2 ^ 46) q.tag q.mgmt = true → (∀ x ∈ copies s k.chan, partFenced s x k = true) → q.write = true →
        ∃ t, exec (.dramRequest c q) s = .next t ∧ samePart .mem s t ∧ recordedIn 3 3 k.chan 0x0306 s t)) ∧
    (∀ sub slot, rd s (mcStatusState c) ≠ 3 → exec (.commandOpportunity c sub slot) s = .next s) ∧
    (∀ sub slot q k, rd s (mcStatusState c) = 3 → recovering s c sub = false → sub ∉ (chanOf s c).stopped →
      sub ∉ (chanOf s c).fencedSubs → (chanOf s c).refreshing = [] → catchingUp s c k.rank = false →
      outsideOf s c sub = [] → pickShared s c sub slot = some q → q.dest < 4 → coord s (q.line * 64) = some k →
      sealedPath s c sub q = false →
      (q.write = false → ∃ t, exec (.commandOpportunity c sub slot) s = .next t ∧
        queueOf t c sub = (queueOf s c sub).erase q ∧ flightOf t c sub = flightOf s c sub ++ [q] ∧
        counted (if (bankOf s c (bankKey k)).opened = some (rowKey k) then mcPredStatsHits c else mcPredStatsMisses c) 1 s t ∧
        (bankOf t c (bankKey k)).last = some (rowKey k)) ∧
      (∀ g, q.write = true → q.raw = none → q.poison = false → mirrored s k.chan = false → partFenced s k.chan k = false →
        (keyEnt s q.tag).cur = some g → rdB s (mcFlipCtrlArmed k.chan) = false →
        ∃ t, exec (.commandOpportunity c sub slot) s = .next t ∧ queueOf t c sub = (queueOf s c sub).erase q ∧
        lineAt t k.chan q.line = ⟨q.tag, g, (keyGen (keyEnt s q.tag) g).getD 0, q.data % 2 ^ 512, false, []⟩ ∧
        (∀ x l, x ≠ k.chan ∨ l ≠ q.line → lineAt t x l = lineAt s x l))) ∧
    (∀ bank ns, rd s (mcSchedCtrlIdleClose c) ≤ ns → ∃ t, exec (.rowIdleClose c bank ns) s = .next t ∧
      (bankOf t c bank).opened = none ∧ (∀ b, b ≠ bank → bankOf t c b = bankOf s c b)) ∧
    (∀ bank ns, ns < rd s (mcSchedCtrlIdleClose c) → exec (.rowIdleClose c bank ns) s = .next s) ∧
    (∀ n f, f = blockFrame s c n (rd s (mcSlotGridPre c)) → ownedIn s c n f = true →
      ∃ t r, exec (.claimStart c n) s = .next t ∧ r = roleRank s c (rd s (mcSealBlockRole c n)) f ∧
      (∀ b, b / 128 = n / 32 * 2 + r → (bankOf t c b).opened = none) ∧
      (∀ b, b / 128 ≠ n / 32 * 2 + r → bankOf t c b = bankOf s c b)) ∧
    (∀ n, ownedIn s c n (blockFrame s c n (rd s (mcSlotGridPre c))) = false → exec (.claimStart c n) s = .next s) ∧
    (∀ n, rd s (mcSealBlockOwner c n) = 0 ∨ rdB s (mcSealBlockValid c n) = false → exec (.sealedSelection c n) s = .next s) ∧
    (∀ n x f r slots, n < 64 → rdB s (mcSealBlockValid c n) = true → rd s (mcSealBlockOwner c n) = x → x ≠ 0 →
      rd s (mcStatusState c) = 3 → f = blockFrame s c n (selSlots s c) → (chanOf s c).wholeFrom ≤ f →
      r = roleRank s c (rd s (mcSealBlockRole c n)) f → slots = slotCountOf (rd s (mcSealBlockSlotEn c n)) →
      (fencedAt s c (n / 32) r = true → partnerServes s c (n / 32) r = false →
        ∃ t, exec (.sealedSelection c n) s = .next t ∧ counted (mcLostLostSlots c) slots s t ∧
          rd t (mcLostLastBeat c) = f % 2 ^ 32 ∧
          (chanOf t c).lostDue = (chanOf s c).lostDue ++ (if countsLoss s c then [(f, x, slots)] else []) ∧
          samePart .tenants s t ∧ (∀ y, sealedOf t c (n / 32) y = sealedOf s c (n / 32) y)) ∧
      (fencedAt s c (n / 32) r = false → mirrored s c = false → meetsCatchUp s c n f r = true ∨ meetsRecovery s c n f = true →
        ∃ t, exec (.sealedSelection c n) s = .next t ∧ counted (mcLostLostSlots c) slots s t ∧
          rd t (mcLostLastBeat c) = f % 2 ^ 32 ∧ (chanOf t c).lostDue = (chanOf s c).lostDue ++ [(f, x, slots)] ∧
          samePart .tenants s t ∧ (∀ y, sealedOf t c (n / 32) y = sealedOf s c (n / 32) y) ∧
          ∃ l ∈ (chanOf t c).losses, l.ten = x ∧ l.sub = n / 32 ∧ l.rank = r ∧ l.last = f ∧
            l.catchUp = meetsCatchUp s c n f r) ∧
      (∀ q rest, fencedAt s c (n / 32) r = false → meetsCatchUp s c n f r = false → meetsRecovery s c n f = false →
        sweepOn s x c (n / 32) r = false → q.write = false → rd s (mcMirrorPartner c) ≠ c → outsideOf s c (n / 32) = [] →
        (sealedOf s c (n / 32) x).filter (fun q => inOrder s q && (coord s (q.line * 64)).any fun k => k.rank == r) = q :: rest →
        ∃ t, exec (.sealedSelection c n) s = .next t ∧ samePart .regs s t ∧
          flightOf t c (n / 32) = flightOf s c (n / 32) ++
            (chooseSealed s false slots [] (q :: rest)).map fun q => { q with block := some (n + 64 * f) })) ∧
    (∀ m, rd s (mcStatusState c) = 3 → (chanOf s c).lostDue = m →
      (∀ e ∈ m, e.1 < beat s) → ∀ x, (tenantOf s x).lost < 2 ^ 64 →
      (chanOf (addLost c s) c).lostDue = [] ∧ (tenantOf (addLost c s) x).lost =
        min (2 ^ 64 - 1) ((tenantOf s x).lost + ((m.filter (fun e => e.2.1 == x)).map (fun e => e.2.2)).sum))

/-- DRAM_READ_RETURN and WRITE_CRC_WINDOW_PASS (R146, R167, R180 to R187): the outcome of the check decides what is delivered,
what is counted and recorded, and whether the line is read again; the corrected symbols wait as a TC2 write, a bad shared read of a
mirrored pair goes to the partner, and a late or early preamble moves its nibble's read delay in the next refresh window. What a reader
at the line's home asked for is kept for it, and the upper channel's read of a sealed access delivers nothing beside the lower one's. -/
def Obligations.DramReadReturns : Prop :=
  (∀ (s : State) (c sub : Nat) (errs : List (Nat × Nat)) (q : DReq) (rest : List DReq) (k : Coord) (r : HomeRd), c < 16 →
    flightOf s c sub = q :: rest → coord s (q.line * 64) = some k → partFenced s c k = false → q.dest = 1 → q.fwd = false →
    q.origin = none → q.twin = false → dataWaits s q.line = false → r ∈ s.mem.reads → some r.who = q.who → r.line = q.line →
    r.got = none →
    (checkLine s.mem.keys q.tag (lineAt s c q.line) (sparedDev s c k.rank k.sub) (addErr (lineAt s c q.line).err errs) = .clean →
      ∃ t, exec (.dramReadReturn c sub errs []) s = .next t ∧ t.mem.arrived = s.mem.arrived ∧
        { r with got := some ((lineAt s c q.line).data, false) } ∈ t.mem.reads) ∧
    (checkLine s.mem.keys q.tag (lineAt s c q.line) (sparedDev s c k.rank k.sub) (addErr (lineAt s c q.line).err errs) = .stored →
      ∃ t, exec (.dramReadReturn c sub errs []) s = .next t ∧ t.mem.arrived = s.mem.arrived ∧
        { r with got := some (0, true) } ∈ t.mem.reads)) ∧
  (∀ (s : State) (c sub : Nat) (errs : List (Nat × Nat)) (q : DReq) (rest : List DReq) (k : Coord), c < 16 →
    flightOf s c sub = q :: rest → coord s (q.line * 64) = some k → partFenced s c k = false → q.twin = true →
    ∃ t, exec (.dramReadReturn c sub errs []) s = .next t ∧ flightOf t c sub = rest ∧ t.mem.arrived = s.mem.arrived ∧
      t.mem.reads = s.mem.reads) ∧
  ∀ (s : State) (c sub : Nat) (errs : List (Nat × Nat)) (q : DReq) (rest : List DReq) (k : Coord) (o : ROut), c < 16 →
    flightOf s c sub = q :: rest → coord s (q.line * 64) = some k → partFenced s c k = false → q.dest ≠ 1 → q.dest ≠ 2 → q.fwd = false →
    q.origin = none → q.twin = false →
    o = checkLine s.mem.keys q.tag (lineAt s c q.line) (sparedDev s c k.rank k.sub) (addErr (lineAt s c q.line).err errs) →
    (o = .clean ∨ o = .rebuilt → ∃ t, exec (.dramReadReturn c sub errs []) s = .next t ∧ flightOf t c sub = rest ∧
      tget none t.mem.arrived q.line = some (q.tag, (lineAt s c q.line).data, false) ∧
      (q.reread = 0 → samePart .regs s t ∧ samePart .ras s t)) ∧
    (∀ d, o = .corrected d → ∃ t, exec (.dramReadReturn c sub errs []) s = .next t ∧ flightOf t c sub = rest ∧
      tget none t.mem.arrived q.line = some (q.tag, (lineAt s c q.line).data, false) ∧
      lineAt t c q.line = lineAt s c q.line ∧
      (fixBarred s c q.line k = false → ∃ r ∈ waitingAt t c k.sub, r.line = q.line ∧
        r.write = true ∧ r.cls = 2 ∧ r.raw = some { lineAt s c q.line with err := [] }) ∧ counted (mcEccCountCorrected c) 1 s t ∧
      rd t (mcEccLastKind c) = 1 ∧ rd t (mcEccLastDevice c) = d ∧ rd t (mcEccLastLine c) = q.line % 2 ^ 40) ∧
    (o = .stored → ∃ t, exec (.dramReadReturn c sub errs []) s = .next t ∧
      tget none t.mem.arrived q.line = some (q.tag, 0, true) ∧ recordedIn 3 3 c 0x0304 s t) ∧
    (o.bad = true → mirrored s k.chan = false → q.reread < 2 → isSealed s q.tag = false →
      ((queueOf s c sub).filter fun r => r.write == q.write).length < 64 → ∃ t, exec (.dramReadReturn c sub errs []) s = .next t ∧ flightOf t c sub = rest ∧ counted (mcRetryRereads c) 1 s t ∧
        queueOf t c sub = { q with reread := q.reread + 1, cls := 1, block := none } :: queueOf s c sub ∧
        (∀ l, lineAt t c l = lineAt s c l) ∧ samePart .ras s t) ∧
    (o.bad = true → mirrored s k.chan = false → 2 ≤ q.reread → ∃ t, exec (.dramReadReturn c sub errs []) s = .next t ∧
      flightOf t c sub = rest ∧ tget none t.mem.arrived q.line = some (q.tag, 0, true) ∧
      (o = .uncorr → counted (mcEccCountUncorrectable c) 1 s t ∧ recordedIn 3 3 c 0x0302 s t) ∧
      (o = .integrity → counted (mcEccCountIntegrity c) 1 s t ∧ recordedIn 3 3 c 0x0303 s t)) ∧
    (∀ d late n, d < 10 → n = k.rank * 20 + k.sub * 10 + d → n < 40 → o = .clean → q.reread = 0 →
      ∃ t, exec (.dramReadReturn c sub errs [(d, late)]) s = .next t ∧ samePart .regs s t ∧
        tget 0 (chanOf t c).rdDue n = if late then 1 else 2) ∧
    (∀ r n, r < 2 → n / 20 = r → tget 0 (chanOf s c).rdDue n ≤ 2 →
      rd (moveDelays c r s) (mcNibbleRdDelay c n) = (rd s (mcNibbleRdDelay c n) +
        (if tget 0 (chanOf s c).rdDue n = 0 then 0 else if tget 0 (chanOf s c).rdDue n = 1 then 1 else 127)) % 128 ∧
      tget 0 (chanOf (moveDelays c r s) c).rdDue n = 0) ∧
    (∀ p, o.bad = true → isSealed s q.tag = false → q.tried = false → q.reread = 0 → mirrored s k.chan = true →
      rd s (mcMirrorPartner c) = p → partFenced s p k = false →
      ((queueOf s p sub).filter fun r => r.write == q.write).length < 64 → ∃ t, exec (.dramReadReturn c sub errs []) s = .next t ∧
        flightOf t c sub = rest ∧ queueOf t p sub = { q with origin := some c, cls := 1, block := none } :: queueOf s p sub ∧
        samePart .regs s t ∧ samePart .ras s t) ∧
    (∀ w, (tget [] (chanOf s c).retry sub).find? (·.write) = some w → ∃ t, exec (.writeCrcWindowPass c sub) s = .next t ∧
      tget [] (chanOf t c).retry sub =
        (tget [] (chanOf s c).retry sub).filter (fun x => x.seq != w.seq || x.write != w.write) ∧
      flightOf t c sub = flightOf s c sub ∧ samePart .regs s t) ∧
    ((tget [] (chanOf s c).retry sub).find? (·.write) = none → exec (.writeCrcWindowPass c sub) s = .next s)

/-- REFRESH_OWED, MR4_READING, CATCH_UP_START, CATCH_UP_END and REFRESH_RATE_RETURN (R161 to R166). The losses of a catch-up
are told at the boundary after the last frame that it affects. A rank that a fence of the same boundary took starts neither
(R40). DRIFT_CHECK, DDR5_ALERT, ALERT_DEASSERT_TIMEOUT, RECOVERY_END, MC_INJECT_CA_PARITY and MC_INJECT_WCRC (R146, R168,
R169, R173, R436). A drift check is taken when interval_beats have passed and the rank is quiet; the end of a recovery finds
the retry buffer reissued. -/
def Obligations.RefreshAlertsAndRecovery : Prop :=
  (∀ (s : State) (c r owed rm : Nat), c < 16 → r < 2 →
    owed = (if (chanOf s c).accrued.contains r then rd s (refOwed c r)
      else min 8 (rd s (refOwed c r) + remOf s c r / tRefi s c r)) →
    rm = (if (chanOf s c).accrued.contains r then remOf s c r else remOf s c r % tRefi s c r) →
    (rd s (mcStatusState c) = 3 ∨ rd s (mcStatusState c) = 2 → r < ranksOf s c → catchingUp s c r = false →
      r ∉ (chanOf s c).refreshing → ∃ t, exec (.refreshOwed c r) s = .next t ∧
      remOf t c r = rm ∧ r ∈ (chanOf t c).accrued ∧
      (owed = 0 → rd t (refOwed c r) = 0) ∧
      (0 < owed → 4 ≤ owed ∨ queuedFor s c r < 8 → rd t (refOwed c r) = owed - 1 ∧ r ∈ (chanOf t c).refreshing) ∧
      (0 < owed → owed < 4 → 8 ≤ queuedFor s c r → rd t (refOwed c r) = owed ∧ counted (refPostponed c r) 1 s t)) ∧
    (rd s (mcStatusState c) = 3 ∨ rd s (mcStatusState c) = 2 → r < ranksOf s c → catchingUp s c r = false →
      r ∈ (chanOf s c).refreshing → ∃ t, exec (.refreshOwed c r) s = .next t ∧ rd t (refOwed c r) = owed ∧
        remOf t c r = rm ∧ (chanOf t c).refreshing = (chanOf s c).refreshing) ∧
    (ranksOf s c ≤ r → exec (.refreshOwed c r) s = .next s) ∧
    exec (.catchUpStart c r) s = .next { s with due := s.due ++ [⟨beat s + 1, 6, .catchUpStart c r⟩] } ∧
    exec (.refreshRateReturn c r) s = .next { s with due := s.due ++ [⟨beat s + 1, 6, .rateReturn c r⟩] } ∧
    (rankOut s c r = true → applyAct s (.catchUpStart c r) = s ∧ applyAct s (.rateReturn c r) = s) ∧
    (rankOut s c r = false → r ∈ (chanOf s c).catchDue → catchingUp s c r = false → ∃ t, t = applyAct s (.catchUpStart c r) ∧
      rd t (refOwed c r) = min 8 (2 * owed) ∧ rdB t (refDoubled c r) = true ∧ rdB t (refCatchup c r) = true ∧
      remOf t c r = 2 * rm ∧ counted (refCatchups c r) 1 s t ∧ r ∉ (chanOf t c).catchDue ∧
      tget none (chanOf t c).catchUps r = some ⟨beat s, min 8 (2 * owed), min 8 (2 * owed), 0, 0, 0⟩ ∧
      ∀ b, b / 128 = r ∨ b / 128 = 2 + r → (bankOf t c b).opened = none) ∧
    (r ∉ (chanOf s c).catchDue → applyAct s (.catchUpStart c r) = s) ∧
    (∀ u slot, tget none (chanOf s c).catchUps r = some u → ∃ t, exec (.catchUpEnd c r slot) s = .next t ∧
      rdB t (refCatchup c r) = false ∧ rd t (refOwed c r) = rd s (refOwed c r) - u.left ∧ catchingUp t c r = false ∧
      tget none (chanOf t c).catchPast r = some (slotNo s c slot) ∧ (chanOf t c).losses = (chanOf s c).losses ∧
      ∀ b, b / 128 = r ∨ b / 128 = 2 + r → (bankOf t c b).opened = none) ∧
    (∀ slot, catchingUp s c r = false → exec (.catchUpEnd c r slot) s = .next s) ∧
    (∀ e, tget none (chanOf s c).catchPast r = some e → claimedBefore s c e (fun _ x => x == r) = false →
      (∀ l ∈ (chanOf (endEvents c s) c).losses, l ∈ (chanOf s c).losses ∧ ¬ (l.catchUp = true ∧ l.rank = r))) ∧
    (rankOut s c r = false → r ∈ (chanOf s c).returnDue → rdB s (refDoubled c r) = true → catchingUp s c r = false →
      ∃ t, t = applyAct s (.rateReturn c r) ∧ rdB t (refDoubled c r) = false ∧
        rd t (refOwed c r) = (owed + 1) / 2 ∧ remOf t c r = rm / 2 ∧ r ∉ (chanOf t c).returnDue ∧
        otherFields [refDoubled c r, refOwed c r] s t) ∧
    (rdB s (refDoubled c r) = false → applyAct s (.rateReturn c r) = s) ∧
    (∀ codes, mr4Due s c r = false → exec (.mr4Reading c r codes) s = .next s) ∧
    (∀ code iv, mr4Due s c r = true → ∃ t, exec (.mr4Reading c r [(code, iv)]) s = .next t ∧ rd t (refRate c r) = code % 8 ∧
      tget 0 (chanOf t c).mr4At r = beat s + 1 ∧
      (iv < 1000 → rdB s (refDoubled c r) = false → r ∈ (chanOf t c).catchDue ∧ r ∉ (chanOf t c).returnDue) ∧
      (1000 ≤ iv → rdB s (refDoubled c r) = true → r ∈ (chanOf t c).returnDue ∧ r ∉ (chanOf t c).catchDue) ∧
      (iv < 500 → r ∉ (chanOf s c).beyond → recordedIn 2 3 c 0x030C s t ∧ r ∈ (chanOf t c).beyond) ∧
      (500 ≤ iv → samePart .ras s t ∧ r ∉ (chanOf t c).beyond)) ∧
    exec (.mr4Reading c r []) s = .next s) ∧
  (∀ (s : State) (c sub : Nat), c < 16 →
    (∀ r change, r < 2 → driftDue s c r = true → ∃ t, exec (.driftCheck c r change) s = .next t ∧
      tget 0 (chanOf t c).driftAt r = beat s + 1 ∧
      rd t (mcDriftStatusMaxDrift c) = max (rd s (mcDriftStatusMaxDrift c)) (min 255 change.natAbs) % 256 ∧
      (rd s (mcDriftCtrlThreshold c) ≤ (change - tget 0 (chanOf s c).drift r).natAbs →
        tget 0 (chanOf t c).drift r = change ∧ counted (mcDriftStatusAdjustments c) 1 s t ∧
        ∀ i, i < 20 → (rd t (mcNibbleWrDelay c (r * 20 + i)) : Int) =
          (rd s (mcNibbleWrDelay c (r * 20 + i)) + (change - tget 0 (chanOf s c).drift r)) % 128) ∧
      ((change - tget 0 (chanOf s c).drift r).natAbs < rd s (mcDriftCtrlThreshold c) →
        tget 0 (chanOf t c).drift r = tget 0 (chanOf s c).drift r ∧
        ∀ n, n < 40 → rd t (mcNibbleWrDelay c n) = rd s (mcNibbleWrDelay c n)) ∧
      (rd s (mcDriftCtrlAlarmSteps c) ≤ change.natAbs → rdB s (mcDriftStatusAlarm c) = false →
        rd t (mcDriftStatusAlarm c) = 1 ∧ recordedIn 2 3 c 0x0309 s t) ∧
      (change.natAbs < rd s (mcDriftCtrlAlarmSteps c) → samePart .ras s t)) ∧
    (∀ r change, driftDue s c r = false → exec (.driftCheck c r change) s = .next s) ∧
    (∀ kind slot, rd s (mcStatusState c) = 3 ∨ rd s (mcStatusState c) = 2 → sub ∉ (chanOf s c).stopped → ∃ t, exec (.ddr5Alert c sub kind slot) s = .next t ∧
      counted (if kind = 0 then mcRetryCaAlerts c else mcRetryCrcAlerts c) 1 s t ∧
      rd t (mcRetryReplays c) = rd s (mcRetryReplays c) ∧ rd t (mcRetryLastReplayed c) = 0 ∧
      rd t (mcRetryLastBeat c) = beat s % 2 ^ 32 ∧
      (tget none (chanOf s c).recov sub = none → tget none (chanOf t c).recov sub = some ⟨beat s, 0⟩ ∧
        sub ∉ (chanOf t c).stopped ∧ samePart .ras s t) ∧
      (∀ x, tget none (chanOf s c).recov sub = some x → tget none (chanOf t c).recov sub = some ⟨x.start, x.alerts + 1⟩ ∧
        (x.alerts < 2 → sub ∉ (chanOf t c).stopped) ∧
        (2 ≤ x.alerts → sub ∈ (chanOf t c).stopped ∧ rd t (mcRetryLastStopped c) = 1 ∧ recordedIn 2 3 c 0x0308 s t))) ∧
    (∀ kind slot, rd s (mcStatusState c) ≠ 3 → rd s (mcStatusState c) ≠ 2 → exec (.ddr5Alert c sub kind slot) s = .next s) ∧
    (∀ ns, 1000 < ns → recovering s c sub = true → ∃ t, exec (.alertDeassertTimeout c sub ns) s = .next t ∧
      sub ∈ (chanOf t c).stopped ∧ rd t (mcRetryLastStopped c) = 1 ∧ recordedIn 2 3 c 0x0308 s t) ∧
    (∀ ns, ns ≤ 1000 ∨ recovering s c sub = false → exec (.alertDeassertTimeout c sub ns) s = .next s) ∧
    (∀ slot, recovering s c sub = true → sub ∉ (chanOf s c).stopped → ∃ t, exec (.recoveryEnd c sub slot) s = .next t ∧
      recovering t c sub = false ∧ counted (mcRetryReplays c) (tget [] (chanOf s c).retry sub).length s t ∧
      (∀ q ∈ tget [] (chanOf s c).retry sub, q.write = false → q ∈ flightOf t c sub) ∧
      tget none (chanOf t c).recovPast sub = some (slotNo s c slot) ∧ (chanOf t c).losses = (chanOf s c).losses) ∧
    (∀ slot, recovering s c sub = false ∨ sub ∈ (chanOf s c).stopped → exec (.recoveryEnd c sub slot) s = .next s) ∧
    (∀ e, sub < 2 → tget none (chanOf s c).recovPast sub = some e → claimedBefore s c e (fun x _ => x == sub) = false →
      (∀ l ∈ (chanOf (endEvents c s) c).losses, l ∈ (chanOf s c).losses ∧ ¬ (l.catchUp = false ∧ l.sub = sub))) ∧
    (∀ a, isArmed s 3 c 0 = some a → a.sub = sub → ∃ t, exec (.mcInjectCaParity c sub) s = .next t ∧
      (chanOf t c).injCa = some sub ∧ (chanOf t c).injCrc = (chanOf s c).injCrc ∧
      tget none t.armed (armKey 3 c) = some ⟨3, sub, a.beat⟩) ∧
    (∀ a, isArmed s 3 c 1 = some a → a.sub = sub → ∃ t, exec (.mcInjectWcrc c sub) s = .next t ∧
      (chanOf t c).injCrc = some sub ∧ (chanOf t c).injCa = (chanOf s c).injCa ∧
      tget none t.armed (armKey 3 c) = some ⟨3, sub, a.beat⟩) ∧
    (isArmed s 3 c 0 = none → exec (.mcInjectCaParity c sub) s = .next s) ∧
    (isArmed s 3 c 1 = none → exec (.mcInjectWcrc c sub) s = .next s))

/-- FLIP_EXPIRY, SPARE_WINDOW_CLEAR, DEVICE_SPARE, PATROL_LAP_END, RANGE_SCRUB_END and SOFT_REPAIR_DONE (R191 to R199). DEVICE_SPARE
acts at step 2 of the next boundary (R40), where the device that has reached the threshold is spared. -/
def Obligations.SparingPatrolAndScrub : Prop :=
  ∀ (s : State) (c : Nat), c < 16 →
    (rdB s (mcFlipCtrlArmed c) = true → (chanOf s c).flipBeat + 1000000 ≤ beat s → ∃ t, exec (.flipExpiry c) s = .next t ∧
      rd t (mcFlipCtrlArmed c) = 0 ∧ otherFields [mcFlipCtrlArmed c] s t) ∧
    (beat s < (chanOf s c).flipBeat + 1000000 → exec (.flipExpiry c) s = .next s) ∧
    (beat s % max 1 (rd s (mcSpareCtrlWindowBeats c)) = 0 → ∃ t, exec (.spareWindowClear c) s = .next t ∧
      (∀ n, n < 40 → rd t (mcDevCeWindow c n) = 0 ∧ rd t (mcDevCeTotal c n) = rd s (mcDevCeTotal c n)) ∧
      (chanOf t c).rowCorr = [] ∧ (chanOf t c).lines = (chanOf s c).lines) ∧
    (beat s % max 1 (rd s (mcSpareCtrlWindowBeats c)) ≠ 0 → exec (.spareWindowClear c) s = .next s) ∧
    (∀ rank sub d, rank < 2 → sub < 2 → d < 10 → tget 0 (chanOf s c).spareDue (rank * 2 + sub) = d + 1 →
      sparedDev s c rank sub = none → rd s (mcSpareStatusSpared c) < 2 ^ 20 →
      ∃ t, t = applyAct s (.deviceSpare c rank sub) ∧ sparedDev t c rank sub = some d ∧
        (∀ r b, r < 2 → b < 2 → (r, b) ≠ (rank, sub) → sparedDev t c r b = sparedDev s c r b) ∧
        tget 0 (chanOf t c).spareDue (rank * 2 + sub) = 0 ∧ rd t (mcPatrolRunning c) = 1 ∧ rd t (mcPatrolReason c) = 3 ∧
        (chanOf t c).patrolAt = [] ∧ recordedIn 2 3 c 0x0307 s t) ∧
    (∀ rank sub, tget 0 (chanOf s c).spareDue (rank * 2 + sub) = 0 → applyAct s (.deviceSpare c rank sub) = s) ∧
    (∀ rank sub, exec (.deviceSpare c rank sub) s = .next { s with due := s.due ++ [⟨beat s + 1, 2, .deviceSpare c rank sub⟩] }) ∧
    (rdB s (mcPatrolRunning c) = true → lapCovered s c = true → ∃ t, exec (.patrolLapEnd c) s = .next t ∧
      counted (mcPatrolLaps c) 1 s t ∧
      rd t (mcPatrolLapBeats c) = (beat s - (chanOf s c).patrolBegan) % 2 ^ 32 ∧ (chanOf t c).patrolAt = [] ∧
      (chanOf t c).patrolPos = (chanOf s c).patrolPos ∧
      (s.boot.step ≠ 9 → rdB t (mcPatrolRunning c) = true ∧ rd t (mcPatrolReason c) = 1) ∧
      (s.boot.step = 9 → rd t (mcPatrolRunning c) = 0 ∧ rd t (mcPatrolReason c) = 0)) ∧
    (rdB s (mcPatrolRunning c) = false ∨ lapCovered s c = false → exec (.patrolLapEnd c) s = .next s) ∧
    (∀ w, s.mem.scrub = some w → w.size / 64 ≤ w.next → ∃ t, exec .rangeScrubEnd s = .next t ∧ t.mem.scrub = none ∧
      (∀ x ∈ presentChans s, rd t (mcScrubActive x) = 0) ∧
      (mbxOf t 0).queue = (mbxOf s 0).queue ++ [⟨0x000A, 0, 0, mkBytes [(0x18, 8, paOf s w.base), (0x20, 8, w.size),
        (0x28, 8, w.lines), (0x30, 4, w.corr), (0x34, 4, w.poisoned), (0x38, 4, w.found), (0x3C, 4, beat s + 1 - w.began)]⟩]) ∧
    (s.mem.scrub = none → exec .rangeScrubEnd s = .next s) ∧
    (∀ i a found k cl, (mbxOf s i).phase = .started → (mbxOf s i).copy = a → argCode a = 0x0504 → rd s (mbxStatState i) = 2 →
      coord s (clampPa s (arg a 0 8)) = some k → k.chan < 16 →
      cl = chg (arg a 0 8) (paOf s (clampPa s (arg a 0 8))) + chg (arg a 8 1) (clampEnum 2 0 (arg a 8 1)) →
      ∃ t bad, exec (.softRepairDone i found) s = .next t ∧ (found = false → bad = 0) ∧
        t.due = s.due ++ [⟨beat s + 1, 9, .stage i cl (mkBytes [(0, 8, paOf s (clampPa s (arg a 0 8))), (8, 1, 1),
          (9, 1, if found then 1 else 4), (0xA, 1, bad), (0x10, 8, beat s + 1)])⟩] ∧
        (found = true → counted (mcRepairSoft k.chan) 1 s t ∧ rd t (mcPatrolReason k.chan) = 3) ∧
        (found = false → ((chanOf s k.chan).repair.any (·.names k) = true ∨ (chanOf s k.chan).repair.length < 64) →
          (∀ r ∈ (chanOf t k.chan).repair, r.names k = true → r.bad = true) ∧
          (chanOf t k.chan).repair.any (·.names k) = true ∧
          rd t (mcRepairUnrepairable k.chan) = ((chanOf t k.chan).repair.filter (·.bad)).length % 128 ∧
          (chanOf t k.chan).repairing = (chanOf s k.chan).repairing.erase (k.sub * 2 + k.rank))) ∧
    (∀ i found, (mbxOf s i).phase ≠ .started → exec (.softRepairDone i found) s = .next s)

/-- MEM_STATUS, MEM_SCRUB, MEM_CLEAR, MEM_REPAIR, MEM_SPARE and MEM_FLIP (R191 to R201). -/
def Obligations.MemoryCommands : Prop :=
  ∀ (s : State) (i : Nat) (a : Bytes), i < 260 →
    (takenAs s i 0x0501 a → ∃ t c spared, c = clampUnit 16 (chanPresent s) (arg a 0 1) ∧ exec (.memStatus i) s = .next t ∧
      (∀ e, e < 4 → inMask spared e = (sparedDev s c (e / 2) (e % 2)).isSome) ∧ spared < 16 ∧
      doneIn s t i (chg (arg a 0 1) c) (mkBytes [(0, 1, c), (1, 1, rd s (mcStatusState c)), (2, 1, mirrorCode s c),
        (3, 1, spared), (4, 1, rd s (mcRepairListed c)), (5, 1, rd s (mcPatrolReason c)),
        (8, 2, rd s (mcEccCountCorrected c)), (10, 2, rd s (mcEccCountUncorrectable c)),
        (12, 2, rd s (mcEccCountIntegrity c)), (14, 2, rd s (mcEccCountPoisonWritten c)),
        (0x10, 4, rd s (mcPatrolLapBeats c)), (0x14, 4, rd s (mcFillTimeBeats c)),
        (0x18, 8, (s.mem.scrub.map (·.lines)).getD 0)])) ∧
    (takenAs s i 0x0502 a → ∃ t base size cl, base = roundDown 4096 (clampPa s (arg a 0 8)) ∧
      size = clampR 4096 (mapEnd s - base) (roundUp 4096 (arg a 8 8)) ∧
      cl = chg (arg a 0 8) (paOf s base) + chg (arg a 8 8) size ∧ exec (.memScrub i) s = .next t ∧
      (s.mem.scrub.isSome = true → doneIn s t i cl (mkBytes [(0, 8, paOf s base), (8, 8, size), (0x10, 1, 1)]) ∧
        samePart .mem s t) ∧
      (s.mem.scrub = none → doneIn s t i cl (mkBytes [(0, 8, paOf s base), (8, 8, size), (0x18, 8, beat s + 1)]) ∧
        t.mem.scrub = some { base, size, began := beat s + 1, since := beat s + 1 } ∧
        ∀ c ∈ presentChans s, rd t (mcScrubActive c) = ((rangeChans s base size).contains c).toNat ∧
          rd t (mcScrubLinesDone c) = 0)) ∧
    (takenAs s i 0x0503 a → ∃ t base size ten cl, base = roundDown 4096 (clampPa s (arg a 0 8)) ∧
      size = min (clampR 4096 0x40000000 (roundUp 4096 (arg a 8 8))) (max 4096 (mapEnd s - base)) ∧
      ten = (if 1 ≤ i ∧ i ≤ 256 then i else min 256 (arg a 0x10 2)) ∧
      cl = chg (arg a 0 8) (paOf s base) + chg (arg a 8 8) size + chg (arg a 0x10 2) ten ∧ exec (.memClear i) s = .next t ∧
      ((isSealed s ten = true ∧ i ≠ ten) ∨ holdsSealed s i base size = true →
        doneIn s t i cl (mkBytes [(0, 8, paOf s base), (8, 8, size), (0x10, 2, ten), (0x12, 1, 1)]) ∧ samePart .mem s t) ∧
      ((isSealed s ten = false ∨ i = ten) → holdsSealed s i base size = false → clearHeld s ten (paOf s base) size ≠ [] →
        goesOn t i ∧ t.due = s.due ++ [⟨beat s + 1, 9, .tryAgain i⟩] ∧ dramKept s t) ∧
      ((isSealed s ten = false ∨ i = ten) → holdsSealed s i base size = false → clearHeld s ten (paOf s base) size = [] →
        goesOn t i ∧ ∃ n,
        n = ((rangeLines base size).filter fun l => granuleOwner s (l * 64) == ten && (coord s (l * 64)).isSome).length ∧
        t.due = s.due ++ [⟨beat s + 1, 9, .clearEnd i cl base size ten n t.mem.nextReq⟩])) ∧
    (∀ cl base size ten n upto,
      (clearWaits s base size upto = false → doneIn s (applyAct s (.clearEnd i cl base size ten n upto)) i cl
        (mkBytes [(0, 8, paOf s base), (8, 8, size), (0x10, 2, ten), (0x14, 4, n), (0x18, 8, beat s)])) ∧
      (clearWaits s base size upto = true → applyAct s (.clearEnd i cl base size ten n upto) =
        { s with due := s.due ++ [⟨beat s + 1, 9, .clearEnd i cl base size ten n upto⟩] })) ∧
    (takenAs s i 0x0504 a → ∃ t off mode cl, off = clampPa s (arg a 0 8) ∧ mode = clampEnum 2 0 (arg a 8 1) ∧
      cl = chg (arg a 0 8) (paOf s off) + chg (arg a 8 1) mode ∧ exec (.memRepair i) s = .next t ∧
      (coord s off = none → doneIn s t i cl (mkBytes [(0, 8, paOf s off), (8, 1, mode), (9, 1, 3), (0x10, 8, beat s)])) ∧
      (∀ k, coord s off = some k → mode = 1 → subOwned s k.chan k.sub = false → goesOn t i ∧
        (chanOf t k.chan).repairing = (k.sub * 2 + k.rank) :: (chanOf s k.chan).repairing ∧ underRepair t k.chan k.sub k.rank = true ∧
        ∀ l, lineAt t k.chan l = lineAt s k.chan l) ∧
      (∀ k, coord s off = some k → k.chan < 16 → mode = 0 → rowListed s k.chan k = true →
        doneIn s t i cl (mkBytes [(0, 8, paOf s off), (8, 1, 0), (9, 1, 0), (0x10, 8, beat s)]) ∧ samePart .mem s t) ∧
      (∀ k, coord s off = some k → k.chan < 16 → mode = 0 → rowListed s k.chan k = false →
        (chanOf s k.chan).repair.length < 64 →
        doneIn s t i cl (mkBytes [(0, 8, paOf s off), (8, 1, 0), (9, 1, 0), (0x10, 8, beat s)]) ∧
        (chanOf t k.chan).repair = (chanOf s k.chan).repair ++ [⟨k.sub, k.rank, rowKey k, false⟩] ∧
        rd t (mcRepairListed k.chan) = (chanOf s k.chan).repair.length + 1)) ∧
    (takenAs s i 0x0505 a → ∃ t c rank sub d cl, c = clampUnit 16 (chanPresent s) (arg a 0 1) ∧
      rank = min (ranksOf s c - 1) (arg a 1 1) ∧ sub = min 1 (arg a 2 1) ∧ d = min 9 (arg a 3 1) ∧
      cl = chg (arg a 0 1) c + chg (arg a 1 1) rank + chg (arg a 2 1) sub + chg (arg a 3 1) d ∧
      exec (.memSpare i) s = .next t ∧
      ((sparedDev s c rank sub).isSome = true →
        doneIn s t i cl (mkBytes [(0, 1, c), (1, 1, rank), (2, 1, sub), (3, 1, d), (4, 1, 1)])) ∧
      (sparedDev s c rank sub = none → goesOn t i ∧ t.journal = s.journal ++ [⟨i, beat s + 1, .spare c rank sub d⟩,
        ⟨i, beat s + 1, .stage i cl (mkBytes [(0, 1, c), (1, 1, rank), (2, 1, sub), (3, 1, d), (8, 8, beat s + 1)])⟩])) ∧
    (takenAs s i 0x0506 a → ∀ c b da db out pat, locate s (clampPa s (arg a 0 8)) = some (c, b) → c < 16 →
      da = min 9 (arg a 8 1) →
      db = (if 0x85 ≤ arg a 9 1 ∨ min 9 (arg a 9 1) = da then 0xF else min 9 (arg a 9 1)) →
      out = (if db = 0xF then 0xFF else db) →
      pat = (if arg a 9 1 < 0x85 ∧ min 9 (arg a 9 1) = da then arg a 0x10 8 ^^^ arg a 0x18 8 else arg a 0x10 8) →
      ∃ t, exec (.memFlip i) s = .next t ∧
        rd t (mcFlipCtrlArmed c) = 1 ∧ rd t (mcFlipCtrlDeviceA c) = da ∧ rd t (mcFlipCtrlDeviceB c) = db ∧
        rd t (mcFlipLineLine c) = clampPa s (arg a 0 8) / 64 % 2 ^ 40 ∧ rd t (mcFlipPatAPattern c) = pat % 2 ^ 64 ∧
        rd t (mcFlipPatBPattern c) = arg a 0x18 8 % 2 ^ 64 ∧ (chanOf t c).flipBeat = beat s ∧
        doneIn s t i (chg (arg a 0 8) (paOf s (clampPa s (arg a 0 8))) + chg (arg a 8 1) da + chg (arg a 9 1) out)
          (mkBytes [(0, 8, paOf s (clampPa s (arg a 0 8))), (8, 1, da), (9, 1, out), (0xA, 1, rd s (mcFlipCtrlArmed c)),
            (0x10, 1, c)]))

/-! ## Tenancies -/

/-- TENANT_CREATE, TENANT_GRANT, TENANT_ASSIGN, TENANT_LOAD and TENANT_START (R203, R204, R208, R211, R221): the outcome, or
the steps that the command leaves for the next boundary. -/
def Obligations.TenantResourceCommands : Prop :=
  ∀ (s : State) (i : Nat) (c : Bytes), i < 260 →
    (takenAs s i 0x0301 c → ∃ t x cl, x = tenField i (arg c 0 2) ∧ cl = chg (arg c 0 2) x ∧
      exec (.tenantCreate i) s = .next t ∧
      ((tenantOf s x).st ≠ .free → doneIn s t i cl (mkBytes [(0, 2, x), (2, 1, 1)]) ∧ samePart .mem s t) ∧
      ((tenantOf s x).st = .free → goesOn t i ∧ keyEnt t x = { keyEnt s x with gen0 := some s.mem.nextKey } ∧
        t.mem.nextKey = s.mem.nextKey + 1 ∧ t.journal = s.journal ++ [⟨i, beat s + 1, .openTenant x⟩,
          ⟨i, beat s + 1, .stage i cl (mkBytes [(0, 2, x), (8, 8, beat s + 1)])⟩])) ∧
    (takenAs s i 0x0302 c → ∃ t base size x cl o, base = roundDown (2 ^ 21) (clampPa s (roundDown (2 ^ 21) (arg c 0 8))) ∧
      size = clampR (2 ^ 21) (2 ^ 40) (roundUp (2 ^ 21) (arg c 8 8)) ∧ x = min 256 (arg c 0x10 2) ∧
      cl = chg (arg c 0 8) (paOf s base) + chg (arg c 8 8) size + chg (arg c 0x10 2) x ∧ o = grantOutcome s base size x ∧
      exec (.tenantGrant i) s = .next t ∧
      (o ≠ 0 → doneIn s t i cl (mkBytes [(0, 8, paOf s base), (8, 8, size), (0x10, 2, x), (0x12, 1, o), (0x14, 4, 0),
        (0x18, 8, 0)])) ∧
      (o = 0 → x ≠ 0 → rangeHeld s 0 (paOf s base) size true ≠ [] → goesOn t i ∧ t.journal = s.journal ∧
        t.due = s.due ++ [⟨beat s + 1, 9, .tryAgain i⟩] ∧ dramKept s t) ∧
      (o = 0 → x = 0 ∨ rangeHeld s 0 (paOf s base) size true = [] → goesOn t i ∧
        t.journal = s.journal ++ [⟨i, beat s + 1, .grant base (size / 2 ^ 21) x⟩,
        ⟨i, beat s + 1, .stage i cl (mkBytes [(0, 8, paOf s base), (8, 8, size), (0x10, 2, x), (0x12, 1, 0),
          (0x14, 4, size / 2 ^ 21), (0x18, 8, beat s + 1)])⟩])) ∧
    (takenAs s i 0x0303 c → ∃ t h x cl, h = clampHart s (arg c 0 2) ∧ x = min 256 (arg c 2 2) ∧
      cl = chg (arg c 0 2) h + chg (arg c 2 2) x ∧ exec (.tenantAssign i) s = .next t ∧
      (merged s h = true → doneIn s t i cl (mkBytes [(0, 2, h), (2, 2, x), (4, 1, 2), (8, 8, 0)])) ∧
      (merged s h = false → (hartOf s h).st ≠ .offline →
        doneIn s t i cl (mkBytes [(0, 2, h), (2, 2, x), (4, 1, 1), (8, 8, 0)])) ∧
      (merged s h = false → (hartOf s h).st = .offline → x ≠ 0 → (tenantOf s x).st = .free →
        doneIn s t i cl (mkBytes [(0, 2, h), (2, 2, x), (4, 1, 3), (8, 8, 0)])) ∧
      (merged s h = false → (hartOf s h).st = .offline → x = 0 ∨ (tenantOf s x).st = .opened → slotSplit s (h / 2) = false →
        goesOn t i ∧ t.journal = s.journal ++ [⟨i, beat s + 1, .assignHart i h x⟩])) ∧
    (∀ h x cl, cl = chg (arg (mbxOf s i).copy 0 2) h + chg (arg (mbxOf s i).copy 2 2) x →
      ((hartOf s h).st = .offline → (hartOf s h).fencedAt ≠ some (beat s) → applyAct s (.assignHart i h x) = stageDone i cl
        (mkBytes [(0, 2, h), (2, 2, x), (4, 1, 0), (8, 8, beat s)]) (giveHart h x s)) ∧
      ((hartOf s h).st ≠ .offline ∨ (hartOf s h).fencedAt = some (beat s) → ∃ t, t = applyAct s (.assignHart i h x) ∧ samePart .harts s t ∧
        doneIn s t i cl (mkBytes [(0, 2, h), (2, 2, x), (4, 1, 1), (8, 8, 0)]))) ∧
    (takenAs s i 0x0304 c → ∃ t src dst size x cl, src = roundDown 4096 (arg c 0 8) ∧ dst = roundDown 4096 (arg c 8 8) ∧
      size = clampR 4096 (2 ^ 30) (roundUp 4096 (arg c 0x10 8)) ∧ x = clampR 1 256 (arg c 0x18 2) ∧
      cl = chg (arg c 0 8) src + chg (arg c 8 8) dst + chg (arg c 0x10 8) size + chg (arg c 0x18 2) x ∧
      exec (.tenantLoad i) s = .next t ∧
      ((tenantOf s x).st ≠ .opened → doneIn s t i cl (mkBytes [(0, 8, src), (8, 8, dst), (0x10, 8, size), (0x18, 2, x),
        (0x1A, 1, 1), (0x20, 8, 0)]) ∧ samePart .mem s t) ∧
      ((tenantOf s x).st = .opened → rangeOwned s 0 src size = false ∨ rangeOwned s x dst size = false →
        doneIn s t i cl (mkBytes [(0, 8, src), (8, 8, dst), (0x10, 8, size), (0x18, 2, x), (0x1A, 1, 2), (0x20, 8, 0)]) ∧
          samePart .mem s t) ∧
      ((tenantOf s x).st = .opened → rangeOwned s 0 src size = true → rangeOwned s x dst size = true →
        loadHeld s x src dst size ≠ [] → goesOn t i ∧ t.due = s.due ++ [⟨beat s + 1, 9, .tryAgain i⟩] ∧ dramKept s t ∧
        samePart .tenants s t) ∧
      (∀ s0, (tenantOf s x).st = .opened → rangeOwned s 0 src size = true → rangeOwned s x dst size = true →
        loadHeld s x src dst size = [] → askLines (.mailbox i) 0 (rangeLines src size) s = (s0, false) → goesOn t i ∧
        t.due = s.due ++ [⟨beat s + 1, 9, .tryAgain i⟩] ∧ t.journal = s.journal) ∧
      (∀ s0, (tenantOf s x).st = .opened → rangeOwned s 0 src size = true → rangeOwned s x dst size = true →
        loadHeld s x src dst size = [] → askLines (.mailbox i) 0 (rangeLines src size) s = (s0, true) → goesOn t i ∧
        ∃ img, t.journal = s.journal ++ [⟨i, beat s + 1, .measure x (extendMeas (tenantOf s x).meas
            (bytesOf 48 (Config.sha384 img) ++ bytesOf 8 dst ++ bytesOf 8 size ++ bytesOf 4 (arg c 0x1C 4)))⟩,
          ⟨i, beat s + 1, .stage i cl (mkBytes [(0, 8, src), (8, 8, dst), (0x10, 8, size), (0x18, 2, x), (0x1A, 1, 0),
            (0x20, 8, beat s + 1)])⟩])) ∧
    (takenAs s i 0x0308 c → ∃ t h cl, h = clampHart s (arg c 0 2) ∧ cl = chg (arg c 0 2) h ∧
      exec (.tenantStart i) s = .next t ∧
      (merged s h = true → doneIn s t i cl (mkBytes [(0, 2, h), (2, 1, 2)])) ∧
      (merged s h = false → ownerOf s h ≠ i → doneIn s t i cl (mkBytes [(0, 2, h), (2, 1, 3)])) ∧
      (merged s h = false → ownerOf s h = i → (hartOf s h).st ≠ .offline ∨ pairOfHart s h = none →
        doneIn s t i cl (mkBytes [(0, 2, h), (2, 1, 1)])) ∧
      (∀ p, merged s h = false → ownerOf s h = i → (hartOf s h).st = .offline → pairOfHart s h = some p → goesOn t i ∧
        t.journal = s.journal ++ [⟨i, beat s + 1, .cmdStart i h (arg c 8 8) (arg c 0x10 8) (some i)⟩]))

/-- TENANT_SEAL, TENANT_UNSEAL, TENANT_REKEY, TENANT_CLOSE and TENANT_STATUS (R212 to R220, R227). -/
def Obligations.TenantSealCommands : Prop :=
  ∀ (s : State) (i : Nat) (c : Bytes), i < 260 →
    (takenAs s i 0x0305 c → ∃ t x q k w r entry cl, x = tenField i (arg c 0 2) ∧
      q = clampR 2 (maxQuota s) (arg c 2 1 + arg c 2 1 % 2) ∧ k = clampR 1 16 (arg c 3 1) ∧ w = clampR 1 22 (arg c 4 1) ∧
      r = clampR 1 4 (arg c 5 1) ∧ entry = arg c 8 8 / 2 * 2 ∧
      cl = chg (arg c 0 2) x + chg (arg c 2 1) q + chg (arg c 3 1) k + chg (arg c 4 1) w + chg (arg c 5 1) r ∧
      exec (.tenantSeal i) s = .next t ∧
      (∀ o, sealPlan s x q k w r entry = .inl o → samePart .tenants s t ∧ doneIn s t i cl (mkBytes [(0, 2, x), (2, 1, q),
        (3, 1, k), (4, 1, w), (5, 1, r), (6, 1, o), (8, 8, entry)])) ∧
      (∀ p, sealPlan s x q k w r entry = .inr p → goesOn t i ∧ t.journal = s.journal ++ [⟨i, beat s + 1, .sealStart x i⟩] ∧
        (tenantOf t x).plan = p ∧ (tenantOf t x).mbx = i ∧ (tenantOf t x).quota = q ∧ (tenantOf t x).nSlices = k ∧ (tenantOf t x).ways = w ∧
        (tenantOf t x).classes = r ∧ (tenantOf t x).entry = entry ∧ (tenantOf t x).st = (tenantOf s x).st ∧
        (∀ y, y ≠ x → tenantOf t y = tenantOf s y))) ∧
    (takenAs s i 0x0306 c → ∃ t x cl, x = tenField i (arg c 0 2) ∧ cl = chg (arg c 0 2) x ∧
      exec (.tenantUnseal i) s = .next t ∧
      (isSealed s x = false → doneIn s t i cl (mkBytes [(0, 2, x), (2, 1, 1)])) ∧
      (isSealed s x = true → goesOn t i ∧ t.journal = s.journal ++ [⟨i, beat s + 1, .unsealStart x i⟩] ∧
        samePart .tenants s t)) ∧
    (takenAs s i 0x0307 c → ∃ t x cl, x = tenField i (arg c 0 2) ∧ cl = chg (arg c 0 2) x ∧
      exec (.tenantRekey i) s = .next t ∧
      ((tenantOf s x).st ≠ .opened → (tenantOf s x).st ≠ .isSealed →
        doneIn s t i cl (mkBytes [(0, 2, x), (2, 1, 2)]) ∧ samePart .mem s t) ∧
      ((tenantOf s x).st = .isSealed → i = 0 → doneIn s t i cl (mkBytes [(0, 2, x), (2, 1, 3)]) ∧ samePart .mem s t) ∧
      ((tenantOf s x).st = .opened → (tenantOf s x).sweep.isSome = true →
        doneIn s t i cl (mkBytes [(0, 2, x), (2, 1, 1)]) ∧ samePart .mem s t) ∧
      (∀ g, (tenantOf s x).st = .opened → (tenantOf s x).sweep = none → g = 1 - (keyEnt s x).cur.getD 1 → goesOn t i ∧
        keyGen (keyEnt t x) g = some s.mem.nextKey ∧ (keyEnt t x).cur = (keyEnt s x).cur ∧
        t.journal = s.journal ++ [⟨i, beat s + 1, .rekeyCurrent x g⟩,
          ⟨i, beat s + 1, .stage i cl (mkBytes [(0, 2, x), (3, 1, g), (8, 8, beat s + 1)])⟩])) ∧
    (takenAs s i 0x0309 c → ∃ t x cl, x = tenField i (arg c 0 2) ∧ cl = chg (arg c 0 2) x ∧
      exec (.tenantClose i) s = .next t ∧
      ((tenantOf s x).st = .free ∨ (tenantOf s x).st = .closing → doneIn s t i cl (mkBytes [(0, 2, x), (2, 1, 1)])) ∧
      ((tenantOf s x).st ≠ .free → (tenantOf s x).st ≠ .closing → goesOn t i ∧
        t.journal = s.journal ++ [⟨i, beat s + 1, .closeStart x i⟩] ∧
        (mbxOf t x).queue = (mbxOf s x).queue ++ [⟨7, 0, 0, mkBytes [(0x18, 2, x)]⟩])) ∧
    (takenAs s i 0x030A c → ∃ t x r fl on, x = (if 1 ≤ i ∧ i ≤ 256 then i else min 256 (arg c 0 2)) ∧ r = tenantOf s x ∧
      fl = r.degraded.toNat + 2 * r.sweep.isSome.toNat + 4 * (keyEnt s x).cur.getD 0 ∧ on = (r.st == .isSealed) ∧
      exec (.tenantStatus i) s = .next t ∧ samePart .tenants s t ∧ samePart .mem s t ∧
      doneIn s t i (chg (arg c 0 2) x) (mkBytes [(0, 2, x), (2, 1, if x = 0 then 1 else tenCode r.st), (3, 1, fl),
        (4, 2, (hartsOf s x).length), (6, 1, if on then r.quota else 0), (7, 1, if on then r.ways else 0),
        (8, 4, granuleCount s x), (0xC, 2, if x = 0 then 0 else (blocksOf s x).length),
        (0xE, 1, if on then ((presentSlices s).filter fun n => rd s (llcPartWayMask n x) != 0).length else 0),
        (0xF, 1, if on then r.classes else 0), (0x10, 8, r.lost), (0x18, 4, min r.refused (2 ^ 32 - 1)),
        (0x1C, 4, min r.notices (2 ^ 32 - 1)), (0x20, 8, if on then r.entry else 0),
        (0x28, 8, match r.sweep with | some w => w.swept | none => r.rekeyLines), (0x30, 48, r.meas)]))

/-- SEAL_DRAINS_DONE, UNSEAL_DRAIN_DONE, CLOSE_KEY_ERASE, REKEY_SWEEP_DONE and FUNCTION_RESET_DONE (R212, R213, R218, R220,
R274): the drains leave no line of the tenancy in a slice, and the change follows at the next boundary. A drain that meets an armed
fault freezes its pair first (R109), and a sequence that a close has overtaken ends with its result void (log entry 40). -/
def Obligations.TenancySequencesEnd : Prop :=
  ∀ (s : State) (x i cl : Nat), i = (tenantOf s x).mbx →
    ((tenantOf s x).st = .sealing → allHeld s x = true → sparingIn (drainsTrip x s) x = true →
      exec (.sealDrainsDone x) s = .next (drainsTrip x s)) ∧
    ((tenantOf s x).unsealing = true → (tenantOf s x).st = .isSealed → allHeld s x = true → sparingIn (drainsTrip x s) x = true →
      exec (.unsealDrainDone x) s = .next (drainsTrip x s)) ∧
    ((tenantOf s x).st = .sealing → allHeld s x = true → sparingIn (drainsTrip x s) x = false → cl = chg (arg (mbxOf s i).copy 0 2) x + chg (arg (mbxOf s i).copy 2 1) (tenantOf s x).quota +
        chg (arg (mbxOf s i).copy 3 1) (tenantOf s x).nSlices + chg (arg (mbxOf s i).copy 4 1) (tenantOf s x).ways +
        chg (arg (mbxOf s i).copy 5 1) (tenantOf s x).classes →
      ∃ t, exec (.sealDrainsDone x) s = .next t ∧ (∀ n ∈ presentSlices s, ∀ e ∈ (sliceOf t n).lines, e.2.tag ≠ x) ∧
        t.due = s.due ++ [⟨beat s + 1, 5, .sealApply x⟩, ⟨beat s + 1, 9, .stage i cl (mkBytes [(0, 2, x),
          (2, 1, (tenantOf s x).quota), (3, 1, (tenantOf s x).nSlices), (4, 1, (tenantOf s x).ways),
          (5, 1, (tenantOf s x).classes), (7, 1, (((tenantOf s x).plan.blocks.map fun e => e.1 / 64).eraseDups).length),
          (8, 8, (tenantOf s x).entry), (0x10, 8, beat s + 1)])⟩]) ∧
    ((tenantOf s x).st = .sealing → allHeld s x = false → exec (.sealDrainsDone x) s = .next (holdHarts x s)) ∧
    (∀ t, t = holdHarts x s → samePart .tenants s t ∧ samePart .mem s t ∧ samePart .slices s t ∧
      ∀ h ∈ hartsOf s x, (hartOf t h).st ≠ .running) ∧
    ((tenantOf s x).st ≠ .sealing → exec (.sealDrainsDone x) s = .next s) ∧
    ((tenantOf s x).unsealing = true → (tenantOf s x).st = .isSealed → allHeld s x = true → sparingIn (drainsTrip x s) x = false →
      ∃ t, exec (.unsealDrainDone x) s = .next t ∧
      (∀ n ∈ presentSlices s, ∀ e ∈ (sliceOf t n).lines, e.2.tag ≠ x) ∧
      t.due = s.due ++ [⟨beat s + 1, 5, .unsealApply x⟩, ⟨beat s + 1, 9, .stage i (chg (arg (mbxOf s i).copy 0 2) x)
        (mkBytes [(0, 2, x), (8, 8, beat s + 1)])⟩]) ∧
    ((tenantOf s x).unsealing = true → (tenantOf s x).st = .isSealed → allHeld s x = false →
      exec (.unsealDrainDone x) s = .next (holdHarts x s)) ∧
    ((tenantOf s x).unsealing = false ∨ (tenantOf s x).st ≠ .isSealed → exec (.unsealDrainDone x) s = .next s) ∧
    (∀ j, (tenantOf s x).st = .opened → sparingIn s x = false → ∃ t, t = applyAct s (.sealStart x j) ∧
      (tenantOf t x).st = .sealing ∧ (tenantOf t x).mbx = j ∧ ∀ h ∈ hartsOf s x, (hartOf t h).st ≠ .running) ∧
    (∀ j, (tenantOf s x).st = .opened → sparingIn s x = true →
      applyAct s (.sealStart x j) = { s with due := s.due ++ [⟨beat s + 1, 5, .sealStart x j⟩] }) ∧
    (∀ j, isSealed s x = true → sparingIn s x = false → ∃ t, t = applyAct s (.unsealStart x j) ∧
      (tenantOf t x).unsealing = true ∧ (tenantOf t x).mbx = j ∧ ∀ h ∈ hartsOf s x, (hartOf t h).st ≠ .running) ∧
    (∀ j, (tenantOf s x).st ≠ .opened → (tenantOf (applyAct s (.sealStart x j)) x).plan = {} ∧
      (∀ d ∈ (applyAct s (.sealStart x j)).due, ∀ k b, d.act ≠ .stage j k b)) ∧
    (∀ j, isSealed s x = false → ∃ t, t = applyAct s (.unsealStart x j) ∧
      doneIn s t j (chg (arg (mbxOf s j).copy 0 2) x) (mkBytes [(0, 2, x), (2, 1, 1)]) ∧ ∀ d ∈ t.due, ∀ k b, d.act ≠ .stage j k b) ∧
    (∀ j, (tenantOf s x).st = .closing ∨ (tenantOf s x).st = .free → ∃ t, t = applyAct s (.closeStart x j) ∧
      samePart .tenants s t ∧ doneIn s t j (chg (arg (mbxOf s j).copy 0 2) x) (mkBytes [(0, 2, x), (2, 1, 1)])) ∧
    (∀ j, (tenantOf s x).st = .opened ∨ (tenantOf s x).st = .isSealed → sparingIn s x = true →
      applyAct s (.closeStart x j) = { s with due := s.due ++ [⟨beat s + 1, 5, .closeStart x j⟩] }) ∧
    ((tenantOf s x).st = .closing → (tenantOf s x).released = true → writeWaits s x = false →
      exec (.closeKeyErase x) s = .next { s with due := s.due ++ [⟨beat s + 1, 5, .keysErased x⟩, ⟨beat s + 1, 9,
        .stage i (chg (arg (mbxOf s i).copy 0 2) x) (mkBytes [(0, 2, x), (4, 4, (tenantOf s x).gone), (8, 8, beat s + 1)])⟩] }) ∧
    (writeWaits s x = true → exec (.closeKeyErase x) s = .next s) ∧
    (∀ w, (tenantOf s x).sweep = some w → sweepLine s x w.next = none →
      exec (.rekeySweepDone x) s = .next { s with due := s.due ++ [⟨beat s + 1, 5, .rekeyEnd x⟩] }) ∧
    ((tenantOf s x).sweep = none → exec (.rekeySweepDone x) s = .next s) ∧
    (∀ g dev, ∃ t, exec (.functionResetDone g dev) s = .next t ∧
      (groupOf t g).resetting = (groupOf s g).resetting.filter (· != dev) ∧
      (groupOf t g).assigns = (groupOf s g).assigns ∧ ∀ k, k ≠ g → groupOf t k = groupOf s k)

/-! ## Links between devices -/

/-- LINK_STAGE_DONE, LINK_STAGE_TIMEOUT, LINK_RETRY_TIMER, KEYING_FLIT, LINK_REKEY, LOOPBACK_FOLLOW and
LOOPBACK_REQUEST_STOP (R228 to R230, R434). -/
def Obligations.LinksComeUpAndAreKeyed : Prop :=
  ∀ (s : State) (k : Nat), k < 6 →
    (portState5 s k = 2 → (fportOf s k).follow = false → ∃ t, exec (.linkStageDone k) s = .next t ∧
      (s.assayer.hung = false → portState5 t k = 3 ∧ (fportOf t k).proved = [] ∧ (fportOf t k).began = beat s ∧
        samePart .ras s t) ∧
      (s.assayer.hung = true → portState5 t k = 5 ∧ rd t (fabPortStatusCause k) = 5 ∧ rd t fabStateIsolated = 1 ∧
        recordedIn 2 5 k 0x0504 s t)) ∧
    (portState5 s k = 3 → (fportOf s k).follow = false → (∀ n, n < 3 → n ∈ (fportOf s k).proved) →
      ∃ t, exec (.linkStageDone k) s = .next t ∧ portState5 t k = 4 ∧
        (rd s fabStateState = 2 → rd t fabStateState = 3 ∧ counted fabEventsElections 1 s t) ∧
        (rd s fabStateState ≠ 2 → rd t fabStateState = rd s fabStateState) ∧
        (rd s fabStateState ≠ 2 → t.fabric.began = beat s)) ∧
    (∀ x, (portState5 s k = 2 ∧ (fportOf s k).follow = false ∧ x = 0) ∨ (portState5 s k = 3 ∧ x = 4) →
      ∃ t, exec (.linkStageTimeout k true) s = .next t ∧ portState5 t k = 1 ∧ rd t (fabPortStatusCause k) = x ∧
        (fportOf t k).keyTx = none ∧ (fportOf t k).keyRx = none ∧ (fportOf t k).began = beat s) ∧
    (beat s - (fportOf s k).began < 20000 → exec (.linkStageTimeout k false) s = .next s) ∧
    (portState5 s k = 1 ∨ portState5 s k = 6 ∨ assayerBack s k = true → 100000 ≤ beat s - (fportOf s k).began → rdB s (fabPortCtrlEnable k) = true →
      (fportOf s k).oos = false → (fportOf s k).fenced = false → ∃ t, exec (.linkRetryTimer k) s = .next t ∧
        portState5 t k = 2 ∧ (fportOf t k).fails = (fportOf s k).fails) ∧
    (beat s - (fportOf s k).began < 100000 → exec (.linkRetryTimer k) s = .next s) ∧
    (portState5 s k = 3 → s.assayer.hung = false →
      (∃ t g, exec (.keyingFlit k 0 true) s = .next t ∧ 0 ∈ (fportOf t k).proved ∧ portState5 t k = 3 ∧
        (fportOf t k).sent = (fportOf s k).sent ++ [g] ∧ g.kind = 5 ∧ g.step = some 1) ∧
      (∃ t, exec (.keyingFlit k 0 false) s = .next t ∧ portState5 t k = 1 ∧ rd t (fabPortStatusCause k) = 4) ∧
      (0 ∈ (fportOf s k).proved → ∃ t, exec (.keyingFlit k 1 false) s = .next t ∧ portState5 t k = 5 ∧
        rd t (fabPortStatusCause k) = 1 ∧ recordedIn 2 5 k 0x0504 s t) ∧
      (0 ∈ (fportOf s k).proved → 1 ∈ (fportOf s k).proved → ∃ t, exec (.keyingFlit k 2 true) s = .next t ∧
        2 ∈ (fportOf t k).proved ∧ (fportOf t k).keyTx = some s.fabric.nextKey ∧
        (fportOf t k).keyRx = some (s.fabric.nextKey + 1) ∧ t.fabric.nextKey = s.fabric.nextKey + 2 ∧
        (fportOf t k).cntTx = 0 ∧ (fportOf t k).cntRx = 0)) ∧
    (portUp s k = true → s.assayer.hung = false →
      (2 ^ 40 ≤ (fportOf s k).cntTx → ∃ t, exec (.linkRekey k false) s = .next t ∧
        (fportOf t k).keyTx = some s.fabric.nextKey ∧ (fportOf t k).cntTx = 0 ∧ (fportOf t k).keyRx = (fportOf s k).keyRx ∧
        t.fabric.nextKey = s.fabric.nextKey + 1) ∧
      (2 ^ 40 ≤ (fportOf s k).cntRx → ∃ t, exec (.linkRekey k true) s = .next t ∧
        (fportOf t k).keyRx = some s.fabric.nextKey ∧ (fportOf t k).cntRx = 0 ∧ (fportOf t k).keyTx = (fportOf s k).keyTx ∧
        t.fabric.nextKey = s.fabric.nextKey + 1) ∧
      ((fportOf s k).cntTx < 2 ^ 40 → exec (.linkRekey k false) s = .next s)) ∧
    (portState5 s k = 1 ∨ portState5 s k = 2 ∨ portState5 s k = 6 → ∃ t, exec (.loopbackFollow k) s = .next t ∧
      portState5 t k = 2 ∧ (fportOf t k).follow = true ∧ otherFields [fabPortStatusState k] s t) ∧
    (portState5 s k = 4 → exec (.loopbackFollow k) s = .next s) ∧
    ((fportOf s k).follow = true → ∃ t, exec (.loopbackRequestStop k) s = .next t ∧ portState5 t k = 2 ∧
      (fportOf t k).follow = false) ∧
    ((fportOf s k).follow = false → exec (.loopbackRequestStop k) s = .next s)

/-- REPLAY_LIMIT, BLOCK_LOCK_LOSS, CODEWORD_TIMEOUT, HELLO_TIMEOUT, FABRIC_LANE_FAILURE and FABRIC_RETRAIN_DONE (R232, R233):
a link declared failed is counted and recorded, and its packets wait to be routed again. FLIT_RECEIVED and NAK_RECEIVED
(R231). -/
def Obligations.LinkFailuresAndFlits : Prop :=
  ∀ (s : State) (k : Nat), k < 6 →
    (portState5 s k = 4 →
      (∀ i ns, (i = Instr.blockLockLoss k ns ∧ 100 ≤ ns) ∨ (i = .codewordTimeout k ns ∧ 200 ≤ ns) → ∃ t, exec i s = .next t ∧
        portState5 t k = 6 ∧ counted (fabPortRetryFailures k) 1 s t ∧ rd t (fabPortLastFailBeat k) = beat s % 2 ^ 64 ∧
        recordedIn 2 5 k 0x0501 s t) ∧
      (8 ≤ (fportOf s k).again → ∃ t, exec (.replayLimit k) s = .next t ∧ portState5 t k = 6 ∧
        counted (fabPortRetryFailures k) 1 s t ∧ recordedIn 2 5 k 0x0501 s t) ∧
      (4 ≤ (fportOf s k).quiet → ∃ t, exec (.helloTimeout k) s = .next t ∧ portState5 t k = 6 ∧
        counted (fabPortRetryFailures k) 1 s t ∧ recordedIn 2 5 k 0x0501 s t) ∧
      (∀ lane, lane < 8 → ∃ t, exec (.fabricLaneFailure k lane) s = .next t ∧
        (rdB s (fabPortStatusWidth k) = false → portState5 t k = 8 ∧ (fportOf t k).half = (if lane < 4 then 1 else 0)) ∧
        (rdB s (fabPortStatusWidth k) = true → lane / 4 = (fportOf s k).half → portState5 t k = 6) ∧
        (rdB s (fabPortStatusWidth k) = true → lane / 4 ≠ (fportOf s k).half → t = s))) ∧
    (∀ ns, (ns < 100 ∨ portState5 s k ≠ 4 → exec (.blockLockLoss k ns) s = .next s) ∧
      (ns < 200 ∨ portState5 s k ≠ 4 → exec (.codewordTimeout k ns) s = .next s)) ∧
    (∀ lane, 8 ≤ lane ∨ portState5 s k ≠ 4 → exec (.fabricLaneFailure k lane) s = .next s) ∧
    ((fportOf s k).again < 8 ∨ portState5 s k ≠ 4 → exec (.replayLimit k) s = .next s) ∧
    ((fportOf s k).quiet < 4 ∨ portState5 s k ≠ 4 → exec (.helloTimeout k) s = .next s) ∧
    (portState5 s k = 8 → ∃ t, exec (.fabricRetrainDone k) s = .next t ∧ portState5 t k = 4 ∧
      rd t (fabPortStatusWidth k) = 1) ∧
    (portState5 s k ≠ 8 → exec (.fabricRetrainDone k) s = .next s) ∧
    (∀ f corrected, portState5 s k = 4 →
      (∀ ok, ∃ t, exec (.flitReceived k corrected true ok f) s = .next t ∧ (fportOf t k).nak = true ∧
        (fportOf t k).seqRx = (fportOf s k).seqRx ∧ counted (fabPortFecUncorrectable k) 1 s t) ∧
      (∃ t, exec (.flitReceived k corrected false false f) s = .next t ∧ (fportOf t k).nak = true ∧
        (fportOf t k).seqRx = (fportOf s k).seqRx ∧ counted (fabPortRetryTagFail k) 1 s t) ∧
      (f.kind ≠ 0 → f.kind ≠ 5 → f.seq ≠ (fportOf s k).seqRx →
        (fportOf s k).nak = true ∨ 2048 ≤ (f.seq + 4096 - (fportOf s k).seqRx) % 4096 →
        ∃ t, exec (.flitReceived k corrected false true f) s = .next t ∧ fportOf t k = fportOf s k ∧
        counted (fabPortFecCorrected k) corrected.toNat s t) ∧
      (f.kind ≠ 0 → f.kind ≠ 5 → f.seq ≠ (fportOf s k).seqRx → (fportOf s k).nak = false →
        (f.seq + 4096 - (fportOf s k).seqRx) % 4096 < 2048 →
        ∃ t g, exec (.flitReceived k corrected false true f) s = .next t ∧ (fportOf t k).nak = true ∧
        (fportOf t k).seqRx = (fportOf s k).seqRx ∧ (fportOf t k).sent = (fportOf s k).sent ++ [g] ∧ g.kind = 0 ∧ g.nak = true ∧
        counted (fabPortFecCorrected k) corrected.toNat s t) ∧
      (f.kind = 0 ∨ f.kind = 5 → (fportOf s k).nak = true → ∃ t, exec (.flitReceived k corrected false true f) s = .next t ∧
        fportOf t k = fportOf s k ∧ counted (fabPortFecCorrected k) corrected.toNat s t) ∧
      (f.kind = 0 ∨ f.kind = 5 → (fportOf s k).nak = false → ∃ t, exec (.flitReceived k corrected false true f) s = .next t ∧
        (fportOf t k).nak = (fportOf s k).nak ∧ (fportOf t k).seqRx = (fportOf s k).seqRx ∧
        (fportOf t k).cntRx = (fportOf s k).cntRx ∧ counted (fabPortFecCorrected k) corrected.toNat s t) ∧
      (f.seq = (fportOf s k).seqRx → f.kind ≠ 0 → f.kind ≠ 5 → ∃ t, exec (.flitReceived k corrected false true f) s = .next t ∧
        (fportOf t k).nak = false ∧ (fportOf t k).seqRx = ((fportOf s k).seqRx + 1) % 4096 ∧
        (fportOf t k).cntRx = (fportOf s k).cntRx + 1 ∧ counted (fabPortFecCorrected k) corrected.toNat s t)) ∧
    (∀ f corrected tagOk, portState5 s k = 3 → f.kind = 0 ∨ f.kind = 5 → ∃ t,
      exec (.flitReceived k corrected true tagOk f) s = .next t ∧ fportOf t k = fportOf s k ∧
      counted (fabPortFecUncorrectable k) 1 s t) ∧
    (∀ f corrected bad tagOk, portState5 s k ≠ 4 → portState5 s k ≠ 3 ∨ (f.kind ≠ 0 ∧ f.kind ≠ 5) →
      exec (.flitReceived k corrected bad tagOk f) s = .next s) ∧
    (∀ p f, p = fportOf s k → portState5 s k = 4 → ∃ t g, exec (.flitReceived k false true true f) s = .next t ∧
      (fportOf t k).sent = p.sent ++ [g] ∧ g.kind = 0 ∧ g.nak = true ∧ g.ackSeq = (p.seqRx + 4095) % 4096) ∧
    (∀ a, portUp s k = true → (fportOf s k).retry.findIdx? (fun f => f.seq == a) = none →
      ∃ t, exec (.nakReceived k a) s = .next t ∧ counted (fabPortRetryReplays k) 1 s t ∧
        (fportOf t k).again = (fportOf s k).again + 1 ∧ (fportOf t k).retry = (fportOf s k).retry ∧
        (fportOf t k).cntTx = (fportOf s k).cntTx + (fportOf s k).retry.length) ∧
    (∀ a n, portUp s k = true → (fportOf s k).retry.findIdx? (fun f => f.seq == a) = some n →
      ∃ t, exec (.nakReceived k a) s = .next t ∧ (fportOf t k).again = 1 ∧
        (fportOf t k).retry = (fportOf s k).retry.drop (n + 1)) ∧
    (∀ a, portUp s k = false → exec (.nakReceived k a) s = .next s)

/-- HELLO, CAPTAIN_SETTLE, JOIN_REPORT, ROUTE_TABLES_COMPUTED, MARKER_LOSS, CAPTAIN_UNREACHABLE and MEMBER_UNREACHABLE (R43,
R234 to R241, R259, R260). -/
def Obligations.DiscoveryAndElection : Prop :=
  ∀ s : State,
    (∀ k h, k < 6 → portUp s k = true → h.uid = s.chip.uid → ∃ t, exec (.hello k h) s = .next t ∧ portState5 t k = 5 ∧
      rd t (fabPortStatusCause k) = 6 ∧ recordedIn 2 5 k 0x0504 s t) ∧
    (∀ k h, k < 6 → portUp s k = true → h.uid ≠ s.chip.uid → settled s = false ∨ h.captain = 0 ∨ h.captain = rd s fabCaptainUidUid → h.epoch ≤ s.fabric.epoch →
      ∃ t, exec (.hello k h) s = .next t ∧ (fportOf t k).hello = some h ∧ (fportOf t k).quiet = 0 ∧
        rd t (fabPortNbUidUid k) = h.uid % 2 ^ 64 ∧ rd t (fabPortStatusNbPort k) = h.port % 8 ∧
        rd t (fabPortStatusNbId k) = h.devId % 64 ∧
        (∀ b, rd s fabStateState = 3 → h.epoch = s.fabric.epoch → s.fabric.best = some b → h.bestUid < b →
          h.bestUid ≠ 2 ^ 64 - 1 → t.fabric.best = some h.bestUid ∧ t.fabric.bestHops = h.bestHops + 1 ∧
          t.fabric.parent = some k ∧ t.fabric.stable = 0) ∧
        (rd s fabStateState ≠ 3 → t.fabric.best = s.fabric.best ∧ t.fabric.parent = s.fabric.parent)) ∧
    (∀ k h, k < 6 → portUp s k = true → h.uid ≠ s.chip.uid → callsElection s h = true →
      settled s = false ∨ h.captain = 0 ∨ h.captain = rd s fabCaptainUidUid → ∃ t, exec (.hello k h) s = .next t ∧
        rd t fabStateState = 3 ∧ t.fabric.epoch = h.epoch ∧ t.fabric.staged = none ∧ counted fabEventsElections 1 s t) ∧
    (∀ k h, portUp s k = false → exec (.hello k h) s = .next s) ∧
    (rd s fabStateState = 3 → 64 ≤ s.fabric.stable → ∃ t, exec .captainSettle s = .next t ∧
      (s.fabric.best = none → rd t fabStateState = 1 ∧ rd t fabIdCaptain = 1 ∧ rd t fabIdMember = 0 ∧ rd t fabIdMembers = 1 ∧
        rd t clkStatusCaptain = 1 ∧ t.fabric.idHeld = true ∧ t.fabric.table = none) ∧
      (∀ b, s.fabric.best = some b → rd t fabStateState = 4 ∧ rd t fabCaptainUidUid = b % 2 ^ 64 ∧
        rd t fabIdCaptain = (if b = s.chip.uid then 1 else 0) ∧
        (b = s.chip.uid → ∃ j, t.fabric.joins = [j] ∧ j.uid = s.chip.uid))) ∧
    (s.fabric.stable < 64 → exec .captainSettle s = .next s) ∧
    (∀ r, rdB s fabIdCaptain = true → rd s fabStateState = 4 ∨ rd s fabStateState = 7 → ∃ t, exec (.joinReport r) s = .next t ∧
      t.fabric.joins = s.fabric.joins.filter (fun j => j.uid != r.uid) ++ [r] ∧ samePart .regs s t) ∧
    (∀ r, rdB s fabIdCaptain = true → rd s fabStateState = 1 ∨ rd s fabStateState = 5 ∨ rd s fabStateState = 6 →
      ∃ t, exec (.joinReport r) s = .next t ∧ t.fabric.joins = s.fabric.joins.filter (fun j => j.uid != r.uid) ++ [r] ∧
        rd t fabStateState = 7 ∧ t.fabric.acked = [] ∧ t.fabric.commit = none) ∧
    (∀ r, rdB s fabIdCaptain = false → exec (.joinReport r) s = .next s ∧ exec .routeTablesComputed s = .next s) ∧
    (∀ l d u, rdB s fabIdCaptain = true → rd s fabStateState = 4 → s.fabric.table = none →
      l = withinReach (reports s) s.chip.uid →
      (assignIds [] l).find? (fun e => e.2 == s.chip.uid) = some (d, u) → ∃ t, exec .routeTablesComputed s = .next t ∧
        t.fabric.staged = some { tablesFor (max s.fabric.epoch (rd s fabIdEpoch + 1)) d (assignIds [] l)
            (idTopo l (assignIds [] l)) d with
          extents := (assignIds [] l).filterMap fun x => (l.find? fun j => j.uid == x.2).map fun j => (x.1, j.extent) } ∧
        t.fabric.acked = [d] ∧ ((∃ e ∈ assignIds [] l, e.1 ≠ d) → t.fabric.commit = none) ∧
        ((∀ e ∈ assignIds [] l, e.1 = d) → ∃ b, t.fabric.commit = some b ∧ capBeatNow s + 100 ≤ b) ∧ t.fabric.epoch = s.fabric.epoch) ∧
    (8 ≤ s.time.noMarker → rdB s fabIdMember = true → rdB s fabIdCaptain = false → ∃ t, exec .markerLoss s = .next t ∧
      rd t fabStateState = 3 ∧ rd t clkStatusFabAligned = 0 ∧ t.fabric.epoch = s.fabric.epoch + 1 ∧ t.time.capKnown = false ∧
      counted fabEventsElections 1 s t) ∧
    (s.time.noMarker < 8 → exec .markerLoss s = .next s) ∧
    (8 ≤ s.fabric.noCap → rdB s fabIdMember = true → ∃ t, exec .captainUnreachable s = .next t ∧ rd t fabStateState = 3 ∧
      t.fabric.epoch = s.fabric.epoch + 1 ∧ t.fabric.noCap = 0 ∧ counted fabEventsElections 1 s t ∧
      t.fabric.best = (if rdB s fabCtrlCaptainEligible = true then some s.chip.uid else none)) ∧
    (s.fabric.noCap < 8 → exec .captainUnreachable s = .next s) ∧
    (∀ d, 1000 ≤ tget 0 s.fabric.noRoute d → d ∈ s.fabric.admitted → ∃ t, exec (.memberUnreachable d) s = .next t ∧
      d ∈ t.fabric.unreach ∧ (rdB s fabIdCaptain = true → rdB s fabIdMember = true → rd t fabStateState = 7)) ∧
    (∀ d, tget 0 s.fabric.noRoute d < 1000 → exec (.memberUnreachable d) s = .next s)

/-- TABLES, TABLES_ACK, COMMIT, TABLE_SWITCH, EPOCH_GRACE_END, LINK_STATE_NOTICE, FAILURE_BANK_READY, FAILURE_BANK_SWITCH and
BEAT_MARKER (R242, R243, R247, R257, R262); the marker that each beat sends on every port that is up (R261). -/
def Obligations.RouteTablesAndMarkers : Prop :=
  ∀ s : State,
    (∀ m, rdB s fabIdCaptain = false → rd s fabIdEpoch < m.epoch → m.devId < 64 → ∃ t, exec (.tables m) s = .next t ∧
      t.fabric.staged = some m ∧ t.fabric.commit = none ∧
      t.fabric.pma = m.members.foldl (fun a x => a ||| 2 ^ x.1) s.fabric.pma ∧
      t.fabric.extents = m.extents.foldl (fun e x => tset {} e x.1 x.2) s.fabric.extents) ∧
    (∀ m, m.epoch ≤ rd s fabIdEpoch → exec (.tables m) s = .next s) ∧
    (∀ m d, s.fabric.staged = some m → rdB s fabIdCaptain = true → s.fabric.commit = none → m.members.any (fun e => e.1 == d) →
      ∃ t, exec (.tablesAck d m.epoch (tablesDigest (tablesFor m.epoch m.captain m.members m.topo d) % 2 ^ 384)) s = .next t ∧
        d ∈ t.fabric.acked ∧ ((∀ e ∈ m.members, e.1 = d ∨ e.1 ∈ s.fabric.acked) →
          ∃ b, t.fabric.commit = some b ∧ capBeatNow s + 100 ≤ b) ∧
        ((∃ e ∈ m.members, e.1 ≠ d ∧ e.1 ∉ s.fabric.acked) → t.fabric.commit = none)) ∧
    (∀ m d x, s.fabric.staged = none → s.fabric.table = some m → m.members.any (fun e => e.1 == d) = true →
      rdB s fabIdCaptain = true → tget 0 s.fabric.recommit d ≤ capBeatNow s → ∃ t, exec (.tablesAck d (rd s fabIdEpoch) x) s = .next t ∧
        capBeatNow s + 100 ≤ tget 0 t.fabric.recommit d ∧ t.fabric.table = some m) ∧
    (∀ m b, s.fabric.staged = some m → capBeatNow s < b → ∃ t, exec (.commit m.epoch b) s = .next t ∧
      t.fabric.commit = some b ∧ samePart .regs s t) ∧
    (∀ e b, b ≤ capBeatNow s → exec (.commit e b) s = .next s) ∧
    (∀ m b, s.fabric.staged = some m → s.fabric.commit = some b → b ≤ capBeatNow s → (∀ e ∈ m.members, e.1 < 64) →
      (∀ d ∈ s.fabric.admitted, d ≠ m.devId ∧ d ∈ m.members.map (·.1)) → ∃ t, exec .tableSwitch s = .next t ∧
        rd t fabIdDeviceId = m.devId % 64 ∧ rd t fabIdEpoch = m.epoch % 2 ^ 32 ∧ rd t fabStateState = 5 ∧
        rdB t fabIdCaptain = (m.captain == m.devId) ∧ rdB t fabIdMember = decide (2 ≤ m.members.length) ∧
        (∀ d e, d < 64 → m.routes[d]? = some e → rd t (fabRouteEntry d) = e % 2 ^ 64) ∧ t.fabric.staged = none ∧
        t.fabric.commit = none ∧ t.fabric.table = some m ∧ t.fabric.idHeld = true ∧
        t.fabric.prev = some (rd s fabIdEpoch, oldRoutes s, beat s)) ∧
    (∀ b, s.fabric.commit = some b → capBeatNow s < b → exec .tableSwitch s = .next s) ∧
    (∀ e l b, s.fabric.prev = some (e, l, b) → b + 2 ≤ beat s → ∃ t, exec .epochGraceEnd s = .next t ∧ t.fabric.prev = none ∧
      (∀ p, p ∈ t.fabric.waiting ↔ p ∈ s.fabric.waiting ∧ p.epoch = rd s fabIdEpoch) ∧ samePart .regs s t) ∧
    (∀ e l b, s.fabric.prev = some (e, l, b) → beat s < b + 2 → exec .epochGraceEnd s = .next s) ∧
    (∀ k d p b m l, portUp s k = true → s.fabric.table = some m → linkAt m d p = some l →
      (∀ e ∈ s.fabric.swDue, e.1 ≠ l.a * 8 + l.pa ∧ e.1 ≠ l.b * 8 + l.pb) → ∃ t, exec (.linkStateNotice k d p b) s = .next t ∧
        t.fabric.swDue = s.fabric.swDue ++ [(d * 8 + p, if b ≤ capBeatNow s then capBeatNow s + 1 else b)]) ∧
    (∀ k d p b, portUp s k = false → exec (.linkStateNotice k d p b) s = .next s) ∧
    (∀ m, s.fabric.table = some m → rd s fabStateState = 5 → ∃ t, exec .failureBankReady s = .next t ∧
      rd t fabStateBankReady = 1 ∧ (∀ n l, m.topo[n]? = some l → n < 192 →
        (n, routeTable (m.topo.erase l) (m.members.map (·.1)) m.captain m.devId) ∈ t.fabric.bank) ∧
      otherFields [fabStateBankReady] s t) ∧
    (rd s fabStateState ≠ 5 → exec .failureBankReady s = .next s) ∧
    (∀ m id b n r, s.fabric.table = some m → s.fabric.swDue.find? (fun e => e.2 ≤ capBeatNow s) = some (id, b) →
      m.topo.findIdx? (fun l => (l.a == id / 8 && l.pa == id % 8) || (l.b == id / 8 && l.pb == id % 8)) = some n →
      rdB s fabStateBankReady = true → tfind s.fabric.bank n = some r → ∃ t, exec .failureBankSwitch s = .next t ∧
        t.fabric.swDue = s.fabric.swDue.erase (id, b) ∧ counted fabEventsSwitches 1 s t ∧ rd t fabStateBankReady = 0 ∧
        rd t fabStateState = (if rdB s fabIdCaptain = true ∧ rdB s fabIdMember = true then 7 else 6) ∧
        (∀ d e, d < 64 → r[d]? = some e → rd t (fabRouteEntry d) = e % 2 ^ 64) ∧
        t.fabric.table = some { m with topo := m.topo.eraseIdx n, routes := r }) ∧
    (s.fabric.swDue = [] → exec .failureBankSwitch s = .next s) ∧
    (∀ k (tRx : Nat) m (d : Int), k < 6 → portUp s k = true → m.hops ≤ 10 → d = delayFrom tRx (echoedAt (fportOf s k) tRx m) m →
      ∃ t, exec (.beatMarker k tRx m) s = .next t ∧ (rd t (fabPortDelayDelayPs k) : Int) = d % 2 ^ 32 ∧
        (fportOf t k).rxAt = tRx ∧ (fportOf t k).edge = tRx - d - m.txOffset ∧ otherFields [fabPortDelayDelayPs k] s t ∧
        (s.fabric.parent = some k → m.aligned = true ∨ m.hops = 0 → t.time.capBeat = m.beat ∧ t.time.capTime = m.time ∧
          t.time.capKnown = true ∧ t.time.noMarker = 0) ∧
        (s.fabric.parent = some k → m.aligned = false → m.hops ≠ 0 →
          t.time = { s.time with noMarker := 0 }) ∧
        (s.fabric.parent ≠ some k → samePart .time s t)) ∧
    (∀ k (tRx : Nat) m, portUp s k = false ∨ 10 < m.hops → exec (.beatMarker k tRx m) s = .next s) ∧
    (∀ k ∈ upPorts s, ∃ m, (fportOf (fabricBeat s) k).mark = some m ∧ m.beat = capBeatNow s + 1 ∧ m.time = markTime s ∧
      m.epoch = s.fabric.epoch ∧ m.hops = rd s fabStateHops ∧ m.aligned = rdB s clkStatusFabAligned) ∧
    (∀ k ∈ upPorts s, (fportOf s k).retry.length < 1024 → ∃ g ∈ (fportOf (fabricBeat s) k).sent, g.kind = 3 ∧
      g.hello = some (ownHello s k))

/-- SHARE_PLACE, SHARE_ACK and SEAL_QUERY (R255, R256). -/
def Obligations.SealedShares : Prop :=
  ∀ s : State,
    (∀ cap g, g.outP < 6 → g.inP < 6 → (∀ x ∈ s.fabric.segs, ¬ (x.ten = g.ten ∧ x.a = g.a ∧ x.d = g.d)) →
      (∀ q ∈ g.pos, tget 0 (fportOf s g.outP).held (flitPos s g.outP g.wheel q) = 0) →
      (fportOf s g.outP).held.length + g.pos.length ≤ 128 → ∃ t, exec (.sharePlace cap g) s = .next t ∧
        t.fabric.segs = s.fabric.segs ++ [g] ∧ samePart .due s t ∧
        (g.ten ≠ 0 → ∀ q ∈ g.pos, tget 0 (fportOf t g.outP).held (flitPos s g.outP g.wheel q) = g.ten)) ∧
    (∀ cap g q, g.outP < 6 → g.inP < 6 → (∀ x ∈ s.fabric.segs, ¬ (x.ten = g.ten ∧ x.a = g.a ∧ x.d = g.d)) → q ∈ g.pos → tget 0 (fportOf s g.outP).held (flitPos s g.outP g.wheel q) ≠ 0 →
      ∃ t, exec (.sharePlace cap g) s = .next t ∧ t.fabric.segs = s.fabric.segs ∧ samePart .due s t) ∧
    (∀ cap g, g.outP < 6 → g.inP = 6 → isSealed s g.ten = true → (∀ x ∈ s.fabric.segs, ¬ (x.ten = g.ten ∧ x.a = g.a ∧ x.d = g.d)) →
      (∀ q ∈ g.pos, tget 0 (fportOf s g.outP).held (flitPos s g.outP g.wheel q) = 0) →
      (fportOf s g.outP).held.length + g.pos.length ≤ 128 → (sharesHere s g.ten).length < 8 → dirWaysLeft s g.ten = true →
      (∀ x ∈ s.fabric.shares, keyOfShare x ≠ shareKey g.ten g.a g.d) →
      ∃ t, exec (.sharePlace cap g) s = .next t ∧ t.fabric.segs = s.fabric.segs ++ [g] ∧ samePart .due s t) ∧
    (∀ cap g b, g.inP = 7 → g.pos ≠ [] → g.start ≠ 0 → b = max (beat s + 1) (g.start + rd s clkFabBeatOffsetOffset) →
      (∀ q ∈ s.fabric.outCmd, keyOfShare q.share ≠ shareKey g.ten g.a g.d) → exec (.sharePlace cap g) s =
        .next { s with due := s.due ++ [⟨b, 5, .shareOn ⟨g.ten, g.a, g.d, g.pos.length, true⟩ []⟩] }) ∧
    (∀ cap g b q, g.inP = 7 → g.pos ≠ [] → g.start ≠ 0 → b = max (beat s + 1) (g.start + rd s clkFabBeatOffsetOffset) →
      s.fabric.outCmd = some q → keyOfShare q.share = shareKey g.ten g.a g.d → ∃ t, exec (.sharePlace cap g) s = .next t ∧
        t.fabric.outCmd = none ∧ t.due = s.due ++ [⟨b, 5, .shareOn ⟨g.ten, g.a, g.d, g.pos.length, true⟩ []⟩,
          ⟨b, 9, .stage q.mbx q.clamped (shareResult q 0 q.hops b false)⟩]) ∧
    (∀ cap g, g.outP = 6 ∨ g.inP = 6 → g.inP ≠ 7 → isSealed s g.ten = false → ∃ t, exec (.sharePlace cap g) s = .next t ∧
      t.fabric.segs = s.fabric.segs ∧ samePart .due s t) ∧
    (∀ cap g, g.inP = 7 → g.pos = [] → ∃ t, exec (.sharePlace cap g) s = .next t ∧
      t.fabric.segs = s.fabric.segs.filter (fun x => !(x.ten == g.ten && ((x.a == g.a && x.d == g.d) || (x.a == g.d && x.d == g.a)))) ∧
      samePart .due s t) ∧
    (∀ cap g h u segs, g.inP = 7 → g.pos ≠ [] → g.start = 0 → rdB s fabIdCaptain = true → h = (⟨g.ten, g.a, g.d, g.pos.length, true⟩ : Share) →
      placeShare s h = some (u, segs) → ∃ t, exec (.sharePlace cap g) s = .next t ∧ t.fabric.lanesOf = u ∧
        t.fabric.book = s.fabric.book ++ [h] ∧ ∃ q, t.fabric.placing = s.fabric.placing ++ [q] ∧ q.share = h) ∧
    (∀ d x h, rdB s fabIdCaptain = false → s.fabric.shares.find? (fun h => keyOfShare h == shareKey x d (myId s)) =
      some h → exec (.shareAck d x (myId s) 1) s = .next { s with due := s.due ++ [⟨beat s + 1, 5, .shareOff h⟩] }) ∧
    (∀ d q, s.fabric.outCmd = some q → q.sealedAt = some true → q.awaited.erase d = [] → q.outcome = 0 →
      rdB s fabIdCaptain = true → q.share.a = myId s → q.share.d ≠ myId s →
      ∃ t n b, exec (.shareAck d q.share.ten q.share.d 0) s = .next t ∧ t.fabric.outCmd = none ∧ capBeatNow s < n ∧
        b = max (beat s + 1) (n + rd s clkFabBeatOffsetOffset) ∧
        t.due = s.due ++ [⟨b, 5, .shareOn q.share []⟩, ⟨b, 9, .stage q.mbx q.clamped (shareResult q 0 q.hops b false)⟩]) ∧
    (∀ d q, s.fabric.outCmd = some q → q.sealedAt = some true → q.awaited.erase d = [] → q.outcome = 0 →
      rdB s fabIdCaptain = false → exec (.shareAck d q.share.ten q.share.d 0) s = .next s) ∧
    (∀ d q o, s.fabric.outCmd = some q → q.sealedAt = some true → q.awaited.erase d = [] → q.outcome = 0 → o ≠ 0 → o ≠ 1 → q.mbx < 260 →
      ∃ t, exec (.shareAck d q.share.ten q.share.d o) s = .next t ∧ t.fabric.outCmd = none ∧ samePart .due s t ∧
        doneIn s t q.mbx q.clamped (shareResult q o q.hops 0 false)) ∧
    (s.fabric.outCmd = none → s.fabric.placing = [] → ∀ d x peer, exec (.shareAck d x peer 0) s = .next s ∧
      ∀ b, exec (.sealQuery d x true b) s = .next s) ∧
    (∀ d x b, exec (.sealQuery d x false b) s = .next (sendMsg d (.sealQuery x true (isSealed s x)) s)) ∧
    (∀ q, s.fabric.outCmd = some q → q.sealedAt = none → q.mbx < 260 → dirWaysLeft s q.share.ten = false →
      ∃ t, exec (.sealQuery q.share.d q.share.ten true true) s = .next t ∧ t.fabric.outCmd = none ∧
        doneIn s t q.mbx q.clamped (shareResult q 3 q.hops 0 false)) ∧
    (∀ q, s.fabric.outCmd = some q → q.sealedAt = none → q.mbx < 260 →
      ∃ t, exec (.sealQuery q.share.d q.share.ten true false) s = .next t ∧ t.fabric.outCmd = none ∧
        doneIn s t q.mbx q.clamped (shareResult q 2 q.hops 0 false)) ∧
    (∀ q u segs, s.fabric.outCmd = some q → q.sealedAt = none → rdB s fabIdCaptain = true → dirWaysLeft s q.share.ten = true →
      placeShare s q.share = some (u, segs) → ∃ t, exec (.sealQuery q.share.d q.share.ten true true) s = .next t ∧
        t.fabric.lanesOf = u ∧ t.fabric.book = s.fabric.book ++ [q.share] ∧
        t.fabric.outCmd = some { q with sealedAt := some true, awaited := (segs.map (·.1)).filter (· != myId s) }) ∧
    (∀ q, s.fabric.outCmd = some q → q.sealedAt = none → rdB s fabIdCaptain = false → dirWaysLeft s q.share.ten = true →
      ∃ t, exec (.sealQuery q.share.d q.share.ten true true) s = .next t ∧
        t.fabric.outCmd = some { q with sealedAt := some true } ∧ samePart .mbx s t)

/-! ## Requests between devices -/

/-- RD_SHARED to ATOMIC at the home (R78, R244, R248 to R253): what becomes of each request up to its home slice, and, for a line that
the slice holds, what the request does there and the answer that its tracker keeps. -/
def Obligations.FabricRequestsAtTheHome : Prop :=
  ∀ (s : State) (p : Pkt) (line n : Nat), line = lineOf p.pa → n = homeSlice s p.tag line →
    homeTakes (.rdShared p) { p with kind := 1 } s ∧ homeTakes (.rdOwn p) { p with kind := 2 } s ∧
    homeTakes (.rdNc p) { p with kind := 3 } s ∧ homeTakes (.wrNc p) { p with kind := 4 } s ∧
    homeTakes (.wrLine p) { p with kind := 5 } s ∧ homeTakes (.evict p) { p with kind := 6 } s ∧
    homeTakes (.maint p) { p with kind := 7 } s ∧ homeTakes (.atomic p) { p with kind := 8 } s ∧
    (∀ q l, q = { p with kind := 1 } → homeHolds s q n line l → (fabRoom n line p.tag s).2 = true →
      ∃ t devs, exec (.rdShared p) s = .next t ∧ answeredTrk q (respPkt q 0x30 0 l.data) s t ∧
        fabDirOf t n line = some ⟨p.tag, false, devs⟩ ∧ p.src ∈ devs) ∧
    (∀ q l, q = { p with kind := 2 } → homeHolds s q n line l → (fabRoom n line p.tag s).2 = true →
      ∃ t, exec (.rdOwn p) s = .next t ∧ answeredTrk q (respPkt q 0x30 0 l.data) s t ∧
        fabDirOf t n line = some ⟨p.tag, true, [p.src]⟩ ∧ arrOf t n line = none ∧ vicOf t n line = none ∧
        ∀ h, h ∈ s.harts.map (·.1) → (hartOf t h).resv ≠ some line) ∧
    (∀ q l, q = { p with kind := 3 } → homeHolds s q n line l → ∃ t, exec (.rdNc p) s = .next t ∧ samePart .slices s t ∧
      answeredTrk q (respPkt q 0x30 0 (lineGet l.data (p.pa % 64) p.size)) s t) ∧
    (∀ q l d, q = { p with kind := 4 } → homeHolds s q n line l →
      d = (if p.be = 0 ∧ p.size = 64 then p.data
        else linePut l.data (p.pa % 64) p.size (mergeBytes (lineGet l.data (p.pa % 64) p.size) p.data p.be p.size)) →
      ∃ t, exec (.wrNc p) s = .next t ∧ arrOf t n line = some { l with data := d, dirty := true, poison := false } ∧
        answeredTrk q (respPkt q 0x20 0 0) s t) ∧
    (∀ q l, q = { p with kind := 5 } → homeHolds s q n line l → ∃ t, exec (.wrLine p) s = .next t ∧ samePart .slices s t ∧
      answeredTrk q (respPkt q 0x20 0 0) s t) ∧
    (∀ q l, q = { p with kind := 6 } → homeHolds s q n line l → ∃ t, exec (.evict p) s = .next t ∧
      answeredTrk q (respPkt q 0x20 0 0) s t ∧ dramKept s t ∧ (sliceOf t n).lines = (sliceOf s n).lines ∧
      ∀ e, fabDirOf t n line = some e → p.src ∉ e.devs) ∧
    (∀ q l, q = { p with kind := 7 } → homeHolds s q n line l → ∃ t, exec (.maint p) s = .next t ∧
      (p.op ≠ 1 → p.op ≠ 2 → answeredTrk q (respPkt q 0x20 0 0) s t) ∧
      (p.op = 1 ∨ p.op = 2 → l.dirty = false → homeWaits s line = false → answeredTrk q (respPkt q 0x20 0 0) s t) ∧
      (p.op = 1 ∨ p.op = 2 → l.dirty = false → homeWaits s line = true →
        t.fabric.trackers = s.fabric.trackers ++ [⟨q, none⟩]) ∧
      (p.op = 1 → arrOf t n line = some { l with dirty := false }) ∧
      (p.op ≠ 1 → arrOf t n line = none ∧ vicOf t n line = none)) ∧
    (∀ q, q = { p with kind := 3 } → trkOf s p.src p.xid = none → trackerFree s p.src = true → admits s q = true →
      canServe s q = true → regionOf (offOf p.pa) = .cxl → ownDram s line = false → lineBusy s p.tag line = false →
      wayClear s n line false none = true → arrOf s n line = none → vicOf s n line = none → dirOf s n line = none →
      readOf s (pktReader q) (line % 2 ^ 40) p.tag = none → (∀ o ∈ s.outs, o.origin ≠ .tracker p.src p.xid) →
      ∃ t o, exec (.rdNc p) s = .next t ∧ t.outs = s.outs ++ [o] ∧ o.xid = s.nextXid ∧ o.kind = 3 ∧ o.dev = outDev s line ∧
        o.pa = line * 64 ∧ o.tag = p.tag ∧ o.origin = .tracker p.src p.xid ∧
        t.fabric.trackers = s.fabric.trackers ++ [⟨q, none⟩] ∧ samePart .mem s t ∧ samePart .slices s t) ∧
    (∀ q l old, q = { p with kind := 8 } → homeHolds s q n line l → old = lineGet l.data (p.pa % 64) p.size →
      (p.op = 0 → ∃ t, exec (.atomic p) s = .next t ∧ answeredTrk q (respPkt q 0x30 0 old) s t ∧ (p.src, line) ∈ t.fabric.resvs ∧
        samePart .slices s t) ∧
      (p.op = 1 → (p.src, line) ∉ s.fabric.resvs → ∃ t, exec (.atomic p) s = .next t ∧ answeredTrk q (respPkt q 0x30 0 1) s t ∧
        samePart .slices s t) ∧
      (p.op = 1 → (p.src, line) ∈ s.fabric.resvs → ∃ t, exec (.atomic p) s = .next t ∧
        answeredTrk q (respPkt q 0x30 0 0) s t ∧ (∀ e ∈ t.fabric.resvs, e.2 ≠ line) ∧
        ∃ r, arrOf t n line = some r ∧ r.dirty = true ∧
          r.data = linePut l.data (p.pa % 64) p.size (amoStore (amoOf p.op) p.size old p.data p.cmp)) ∧
      (p.op ≠ 0 → p.op ≠ 1 → ∃ t, exec (.atomic p) s = .next t ∧ answeredTrk q (respPkt q 0x30 0 old) s t ∧
        (∀ e ∈ t.fabric.resvs, e.2 ≠ line) ∧ ∃ r, arrOf t n line = some r ∧ r.dirty = true ∧
          r.data = linePut l.data (p.pa % 64) p.size (amoStore (amoOf p.op) p.size old p.data p.cmp)))

/-- DATA, POISON_DATA, ERR, ACK, RETRY, GRANT and the resend and error timeouts of a request (R244, R248, R251, R252).
SNP_INV, SNP_SHARE, SNP_RSP, SNP_DATA and SNOOP_RESEND_TIMEOUT (R248, R250). -/
def Obligations.FabricAnswersAndSnoops : Prop :=
  (∀ (s : State) (src xid : Nat),
    (∀ o h r size sg va more, outTo s src xid = some o → isRead o = true → o.origin = .hart h r size sg va more →
      (hartOf s h).st = .running → granted s src o.tag = true →
      (∀ d, r < 32 → o.kind = 3 → ∃ t, exec (.data src xid d) s = .next t ∧ gotX h r (extend size sg d) s t ∧
        (hartOf t h).loaded = d % 2 ^ (8 * size) ∧ (more = false → (hartOf t h).access = none) ∧
        t.outs = s.outs.filter (fun x => x.xid != xid) ∧ otherHarts h s t) ∧
      (∃ t, exec (.poisonData src xid) s = .next t ∧ (hartOf t h).exc = some ⟨19, va, (hartOf s h).pc⟩ ∧
        (hartOf t h).x = (hartOf s h).x ∧ t.outs = s.outs.filter (fun x => x.xid != xid) ∧ otherHarts h s t) ∧
      (∃ t, exec (.err src xid) s = .next t ∧ (hartOf t h).exc = some ⟨19, va, (hartOf s h).pc⟩ ∧
        t.outs = s.outs.filter (fun x => x.xid != xid) ∧ samePart .ras s t ∧ samePart .regs s t)) ∧
    (∀ o h r size sg va more d i, outTo s src xid = some o → isRead o = true → o.origin = .hart h r size sg va more →
      (hartOf s h).st = .running → granted s src o.tag = false →
      i = Instr.data src xid d ∨ i = .poisonData src xid ∨ i = .err src xid → ∃ t, exec i s = .next t ∧
        (hartOf t h).exc = some ⟨19, va, (hartOf s h).pc⟩ ∧ (hartOf t h).x = (hartOf s h).x ∧ counted fabEventsRefused 1 s t ∧
        recordedIn 5 5 (portToward s src) 0x0B02 s t) ∧
    (∀ o, outTo s src xid = some o → isRead o = false → ∀ d, exec (.data src xid d) s = .next s ∧
      exec (.poisonData src xid) s = .next s) ∧
    (outTo s src xid = none → exec (.err src xid) s = .next (sendAck src xid s) ∧ exec (.retry src xid) s = .next s ∧
      exec (.grant src xid) s = .next s ∧ exec (.ack src xid false) s = .next (sendAck src xid s) ∧
      exec (.poisonData src xid) s = .next (sendAck src xid s) ∧ ∀ d, exec (.data src xid d) s = .next (sendAck src xid s)) ∧
    (∀ o, outTo s src xid = some o → isRead o = false → granted s src o.tag = true →
      o.origin = .none ∨ (∃ n, o.origin = .evict n) ∨ (∃ n c, o.origin = .maint n c) ∨ (∃ d f, o.origin = .dma d f) → ∃ t, exec (.ack src xid false) s = .next t ∧
      t.outs = s.outs.filter (fun x => x.xid != xid) ∧ samePart .harts s t ∧ samePart .slices s t) ∧
    (∀ o h r size sg va, outTo s src xid = some o → o.kind = 4 → o.origin = .hart h r size sg va false →
      (hartOf s h).st = .running → granted s src o.tag = true → ∃ t, exec (.ack src xid false) s = .next t ∧ (hartOf t h).access = none ∧
        (hartOf t h).x = (hartOf s h).x ∧ t.outs = s.outs.filter (fun x => x.xid != xid) ∧ otherHarts h s t) ∧
    (∀ o, outTo s src xid = some o → isRead o = true → exec (.ack src xid false) s = .next s) ∧
    (∀ k, trkOf s src xid = some k → granted s src 0 = false →
      exec (.ack src xid true) s = .next (refuseAns src k.req.pa 0 s)) ∧
    (∀ k, trkOf s src xid = some k → granted s src 0 = true → k.resp = none → exec (.ack src xid true) s = .next s) ∧
    (∀ k, trkOf s src xid = some k → granted s src 0 = true → k.resp.isSome = true → (∀ x ∈ s.fabric.trackers, x.resp.isSome = true) →
      (∀ n, (sliceOf s n).amq = []) → ∃ t, exec (.ack src xid true) s = .next t ∧
        t.fabric.trackers = s.fabric.trackers.erase k ∧
        (∀ u, u = modFab (fun f => { f with trackers := f.trackers.erase k }) s →
          t.fabric.starved = match s.fabric.starved.find? (fun e => trackerFree u e.1) with
            | some e => s.fabric.starved.erase e
            | none => s.fabric.starved)) ∧
    (trkOf s src xid = none → exec (.ack src xid true) s = .next s) ∧
    (∀ o, outTo s src xid = some o → granted s src o.tag = true → ∃ t, exec (.retry src xid) s = .next t ∧
      t.outs = s.outs.map (fun x => if x.xid = xid then { x with held := true } else x) ∧ samePart .fabric s t) ∧
    (∀ o, outTo s src xid = some o → granted s src o.tag = false →
      exec (.retry src xid) s = .next (refuseAns src o.pa o.tag s)) ∧
    (∀ o, outTo s src xid = some o → granted s src 0 = false → exec (.grant src xid) s = .next (refuseAns src o.pa 0 s)) ∧
    (∀ o, outTo s src xid = some o → granted s src 0 = true → o.held = true → ∃ t, exec (.grant src xid) s = .next t ∧
      t.outs = s.outs.map (fun x => if x.xid = xid then { x with held := false, sent := beat s } else x)) ∧
    (∀ o, outTo s src xid = some o → granted s src 0 = true → o.held = false → exec (.grant src xid) s = .next s) ∧
    (∀ o, outOf s xid = some o → o.dev < 64 → o.held = false → o.sent + o.gap ≤ beat s →
      ∃ t, exec (.requestResendTimeout xid) s = .next t ∧ samePart .regs s t ∧ t.outs = s.outs.map (fun x =>
        if x.xid = xid then { x with sent := beat s, gap := min 1024 (2 * x.gap) } else x)) ∧
    (∀ o, outOf s xid = some o → beat s < o.sent + o.gap → exec (.requestResendTimeout xid) s = .next s) ∧
    (∀ o h r size sg va more, outOf s xid = some o → o.dev < 64 → o.origin = .hart h r size sg va more →
      (hartOf s h).st = .running → o.first + 16384 ≤ beat s →
      ∃ t, exec (.requestErrorTimeout xid) s = .next t ∧ (hartOf t h).exc = some ⟨19, va, (hartOf s h).pc⟩ ∧
        t.outs = s.outs.filter (fun x => x.xid != xid) ∧ counted fabEventsErrors 1 s t ∧
        recordedIn 3 5 (portToward s o.dev) 0x0502 s t) ∧
    (∀ o, outOf s xid = some o → beat s < o.first + 16384 → hasRoute s o.dev = true →
      exec (.requestErrorTimeout xid) s = .next s)) ∧
  (∀ (s : State) (p : Pkt) (line n dev : Nat), line = lineOf p.pa → n = homeSlice s p.tag line →
    (∀ i, i = Instr.snpInv p ∨ i = .snpShare p → granted s p.src p.tag = false → p.mgmt = false → ∃ t, exec i s = .next t ∧
      counted fabEventsRefused 1 s t ∧ recordedIn 5 5 (portToward s p.src) 0x0B02 s t ∧ samePart .slices s t ∧ samePart .cores s t ∧
      samePart .mem s t) ∧
    (admits s p = true → requested s line = false → heldByFrozen s n line true = false →
      errRow ((arrOf s n line).or (vicOf s n line)) ≤ 1 → ∃ t, exec (.snpInv p) s = .next t ∧ arrOf t n line = none ∧ vicOf t n line = none ∧
      dirOf t n line = none ∧ line ∉ (sliceOf t n).owned ∧
      (∀ e, dirOf s n line = some e → ∀ c ∈ e.cores, l2Of t c line = none) ∧ samePart .mem s t) ∧
    (∀ l i, i = Instr.snpInv p ∨ i = .snpShare p → admits s p = true → requested s line = false → arrOf s n line = some l →
      dirOf s n line = none → l.tagErr = false → l.err = 2 → l.dirty = true → ∃ t, exec i s = .next t ∧
        arrOf t n line = none ∧ vicOf t n line = none ∧ recordedIn 3 2 n 0x0203 s t) ∧
    (admits s p = true → requested s line = false → heldByFrozen s n line true = false →
      errRow ((arrOf s n line).or (vicOf s n line)) ≤ 1 → ∃ t, exec (.snpShare p) s = .next t ∧ line ∉ (sliceOf t n).owned ∧
      (∀ e, dirOf t n line = some e → e.excl = false) ∧
      (∀ e, dirOf s n line = some e → ∀ c ∈ e.cores, ∀ l, l2Of t c line = some l → l.st = .s) ∧ samePart .mem s t) ∧
    (admits s p = true → requested s line = false → heldByFrozen s n line true = true →
      ∀ i ∈ [Instr.snpInv p, .snpShare p], exec i s = .next (snoopTrips n line true s)) ∧
    (admits s p = true → requested s line = true → ∀ i ∈ [Instr.snpInv p, .snpShare p], ∃ t, exec i s = .next t ∧ samePart .slices s t ∧
      samePart .cores s t ∧ samePart .mem s t) ∧
    (∀ q m, s.fabric.snoops.find? (fun q => q.dev == dev && q.line == line) = some q → m = homeSlice s q.tag line →
      granted s dev q.tag = true →
      (∀ x ∈ s.fabric.trackers, x.resp.isSome = true) → (∀ k, (sliceOf s k).amq = []) →
      (∃ t, exec (.snpRsp dev line) s = .next t ∧ t.fabric.snoops = s.fabric.snoops.erase q ∧
        (q.inv = true → ∀ e, fabDirOf t m line = some e → dev ∉ e.devs) ∧
        (q.inv = false → ∀ e, fabDirOf t m line = some e → e.own = false) ∧ arrOf t m line = arrOf s m line) ∧
      (∀ d, ∃ t, exec (.snpData dev line d false) s = .next t ∧ t.fabric.snoops = s.fabric.snoops.erase q ∧
        (q.inv = true → ∀ e, fabDirOf t m line = some e → dev ∉ e.devs) ∧ arrOf t m line = none ∧ vicOf t m line = none)) ∧
    (∀ q d b, s.fabric.snoops.find? (fun q => q.dev == dev && q.line == line) = some q → granted s dev q.tag = false →
      exec (.snpRsp dev line) s = .next (refuseAns dev (line * 64) q.tag s) ∧
      exec (.snpData dev line d b) s = .next (refuseAns dev (line * 64) q.tag s)) ∧
    (s.fabric.snoops.find? (fun q => q.dev == dev && q.line == line) = none →
      exec (.snpRsp dev line) s = .next s ∧ exec (.snoopResendTimeout dev line) s = .next s ∧
      ∀ d b, exec (.snpData dev line d b) s = .next s) ∧
    (∀ q, s.fabric.snoops.find? (fun q => q.dev == dev && q.line == line) = some q → q.sent + 4 ≤ beat s →
      ∃ t, exec (.snoopResendTimeout dev line) s = .next t ∧ samePart .regs s t ∧
        t.fabric.snoops = s.fabric.snoops.map (fun x => if x = q then { x with sent := beat s } else x)) ∧
    (∀ q, s.fabric.snoops.find? (fun q => q.dev == dev && q.line == line) = some q → beat s < q.sent + 4 →
      exec (.snoopResendTimeout dev line) s = .next s))

/-- FABRIC_STATUS, FABRIC_ROUTE, FABRIC_PORT, FABRIC_GRANT and FABRIC_SHARE (R253, R255, R264). -/
def Obligations.FabricCommands : Prop :=
  ∀ (s : State) (i : Nat) (c : Bytes), i < 260 →
    (takenAs s i 0x0701 c → ∃ t, exec (.fabricStatus i) s = .next t ∧ doneIn s t i 0 (mkBytes [(0, 1, myId s),
      (1, 1, rd s fabStateState), (2, 1, rd s fabStateHops),
      (3, 1, rd s fabStateBankReady + 2 * rd s fabStateIsolated + 4 * rd s clkStatusFabAligned), (4, 4, rd s fabIdEpoch),
      (8, 8, rd s fabCaptainUidUid), (0x10, 8, rd s fabMembersMembers), (0x18, 8, rd s fabReachReach),
      (0x20, 4, rd s fabStateConvergeBeats)])) ∧
    (takenAs s i 0x0702 c → ∃ t d, d = min 63 (arg c 0 1) ∧ exec (.fabricRoute i) s = .next t ∧
      doneIn s t i (chg (arg c 0 1) d) (mkBytes [(0, 1, d), (8, 8, rd s (fabRouteEntry d))])) ∧
    (takenAs s i 0x0703 c → ∃ t k a cl, k = clampUnit 6 (fabPortPresent s) (arg c 0 1) ∧ a = clampEnum 3 0 (arg c 1 1) ∧
      cl = chg (arg c 0 1) k + chg (arg c 1 1) a ∧ exec (.fabricPort i) s = .next t ∧
      (a = 0 → doneIn s t i cl (fabPortResult k 0 0 s)) ∧
      (a = 1 → (fportOf s k).oos = true → doneIn s t i cl (fabPortResult k 1 1 s)) ∧
      (a = 2 → (fportOf s k).oos = false → doneIn s t i cl (fabPortResult k 2 1 s)) ∧
      ((a = 1 ∧ (fportOf s k).oos = false) ∨ (a = 2 ∧ (fportOf s k).oos = true) →
        goesOn t i ∧ t.journal = s.journal ++ [⟨i, beat s + 1, .fabPort i k a⟩])) ∧
    (takenAs s i 0x0704 c → ∃ t d x al, x = min 256 (arg c 2 2) ∧ al = clampEnum 2 0 (arg c 4 1) ∧
      exec (.fabricGrant i) s = .next t ∧ (d ≠ myId s ∨ 63 < myId s) ∧ d < 64 ∧
      (min 63 (arg c 0 1) ≠ myId s → d = min 63 (arg c 0 1)) ∧
      t.due = s.due ++ [⟨beat s + 1, 5, .fabGrant d x (al == 1)⟩] ∧
      doneIn s t i (chg (arg c 0 1) d + chg (arg c 2 2) x + chg (arg c 4 1) al) (mkBytes [(0, 1, d), (2, 2, x), (4, 1, al)])) ∧
    (takenAs s i 0x0705 c → ∃ t x d k rel cl, ∃ q : ShareReq, x = clampR 1 256 (arg c 0 2) ∧ d = clampMember s (arg c 2 1) ∧
      k = clampR 1 32 (arg c 3 1) ∧ rel = clampEnum 2 0 (arg c 4 1) ∧
      cl = chg (arg c 0 2) x + chg (arg c 2 1) d + chg (arg c 3 1) k + chg (arg c 4 1) rel ∧
      q = ⟨i, ⟨x, myId s, d, k, true⟩, cl, none, [], (pathOf s (myId s) d).length, 0⟩ ∧
      exec (.fabricShare i) s = .next t ∧
      (rel = 1 → (sharesHere s x).find? (fun h => h.a == d || h.d == d) = none →
        doneIn s t i cl (shareResult q 5 q.hops 0 true)) ∧
      (∀ h, rel = 1 → (sharesHere s x).find? (fun h => h.a == d || h.d == d) = some h → goesOn t i ∧
        t.journal = s.journal ++ [⟨i, beat s + 1, .shareOff h⟩, ⟨i, beat s + 1, .stage i cl
          (shareResult q 1 q.hops (beat s + 1) true)⟩]) ∧
      (rel = 0 → isSealed s x = false → doneIn s t i cl (shareResult q 2 q.hops 0 false)) ∧
      (rel = 0 → isSealed s x = true → hasRoute s d = false ∨ d = myId s → doneIn s t i cl (shareResult q 4 q.hops 0 false)) ∧
      (rel = 0 → isSealed s x = true → hasRoute s d = true → d ≠ myId s → 8 ≤ (sharesHere s x).length →
        doneIn s t i cl (shareResult q 6 q.hops 0 false)) ∧
      (rel = 0 → isSealed s x = true → hasRoute s d = true → d ≠ myId s → (sharesHere s x).length < 8 →
        goesOn t i ∧ t.fabric.outCmd = some q ∧ samePart .journal s t))

/-! ## SerDes groups -/

/-- SERDES_LINK_UP, SERDES_LANE_FAILURE, PORT_RETRAIN_DONE, PORT_RETRAIN_TIMEOUT, SERDES_LINK_DOWN, PORT_TRAIN_RETRY (Table
10.8, R287 to R290) and PERST_INPUT (R445). -/
def Obligations.SerdesLinksTrainAndFail : Prop :=
  ∀ (s : State) (g n : Nat), g < 8 → n < 4 →
    (∀ width speed flit funcs, portState s g n = 2 → widthCap s g n ≠ 0 →
      ∃ t, exec (.serdesLinkUp g n width speed flit funcs) s = .next t ∧
      portState t g n = 3 ∧ rd t (portStatusWidth (portBase g n)) = min width (widthCap s g n) ∧
      rd t (portStatusSpeed (portBase g n)) = min 6 speed ∧ rd t (portStatusFlit (portBase g n)) = flit.toNat ∧
      (n ∈ (groupOf s g).fresh → rd t (portStatusDegraded (portBase g n)) = 0 ∧ rd t (portLanesFailed (portBase g n)) = 0) ∧
      (n ∉ (groupOf s g).fresh → rd t (portStatusDegraded (portBase g n)) = rd s (portStatusDegraded (portBase g n)) ∧
        rd t (portLanesFailed (portBase g n)) = rd s (portLanesFailed (portBase g n))) ∧ n ∉ (groupOf t g).fresh ∧
      (portRole s g n = 1 → n ∈ (groupOf t g).presence) ∧ (groupOf t g).funcs = (groupOf s g).funcs.filter (fun f => f.port != n) ++ (funcs.map fun f => { f with port := n }) ∧
      portRole t g n = portRole s g n) ∧
    (∀ width speed flit funcs, portState s g n ≠ 2 ∨ widthCap s g n = 0 → exec (.serdesLinkUp g n width speed flit funcs) s = .next s) ∧
    (∀ lanes, portState s g n = 3 → ∃ t, exec (.serdesLaneFailure g n lanes) s = .next t ∧ portState t g n = 4 ∧
      rd t (portLanesFailed (portBase g n)) = (rd s (portLanesFailed (portBase g n)) ||| maskOf lanes) % 2 ^ 16 ∧
      counted (portErrLaneFailures (portBase g n)) lanes.length s t ∧ recordedIn 2 4 (portUnit g n) 0x0401 s t ∧
      samePart .tenants s t ∧ samePart .outs s t) ∧
    (portState s g n = 4 → tget 0 (groupOf s g).widths n = 0 → exec (.portRetrainDone g n) s = .next s) ∧
    (portState s g n = 4 → beat s ≤ tget 0 (groupOf s g).began n + 20 → tget 0 (groupOf s g).widths n ≠ 0 →
      ∃ t, exec (.portRetrainDone g n) s = .next t ∧
      portState t g n = 3 ∧ rd t (portStatusDegraded (portBase g n)) = 1 ∧ counted (portErrReplays (portBase g n)) 1 s t ∧
      rd t (portStatusWidth (portBase g n)) = tget 0 (groupOf s g).widths n % 32 ∧
      otherFields [portStatusState (portBase g n), portStatusDegraded (portBase g n), portStatusWidth (portBase g n),
        portErrReplays (portBase g n)] s t) ∧
    (portState s g n ≠ 4 → exec (.portRetrainDone g n) s = .next s ∧ exec (.portRetrainTimeout g n) s = .next s) ∧
    (portState s g n ≠ 3 → exec (.serdesLinkDown g n) s = .next s) ∧
    (∀ i, portOuts s g = [] → (i = .serdesLinkDown g n ∧ portState s g n = 3) ∨ (i = .portRetrainTimeout g n ∧
        portState s g n = 4 ∧ tget 0 (groupOf s g).began n + 20 ≤ beat s) →
      ∃ t, exec i s = .next t ∧ portState t g n = 5 ∧ rd t (portStatusWidth (portBase g n)) = 0 ∧
        counted (portErrLinkDowns (portBase g n)) 1 s t ∧ (groupOf t g).downs = (groupOf s g).downs ++ [(n, beat s)] ∧
        samePart .outs s t ∧ (portRole s g n ≠ 1 → recordedIn 2 4 (portUnit g n) 0x0402 s t) ∧
        (portRole s g n = 1 → n ∈ (groupOf t g).dpc ∧ t.ras.platform.next = s.ras.platform.next + 2)) ∧
    (portState s g n = 2 ∨ (portState s g n = 5 ∧ portRole s g n ≠ 1) → tget 0 (groupOf s g).began n + 100000 ≤ beat s →
      ∃ t, exec (.portTrainRetry g n) s = .next t ∧ portState t g n = 2 ∧ tget 0 (groupOf t g).began n = beat s ∧
        otherFields [portStatusState (portBase g n)] s t) ∧
    (beat s < tget 0 (groupOf s g).began n + 100000 ∨ (portState s g n = 5 ∧ portRole s g n = 1) →
      exec (.portTrainRetry g n) s = .next s) ∧
    (∀ low, portRole s g 0 = 2 ∨ portRole s g 0 = 4 → ∃ t, exec (.perstInput g low) s = .next t ∧
      (g ∈ t.chip.perstLow ↔ low = true) ∧ (∀ k, k ≠ g → (k ∈ t.chip.perstLow ↔ k ∈ s.chip.perstLow)) ∧
      ∀ p, p ≠ .chip → samePart p s t) ∧
    (∀ low, portRole s g 0 ≠ 2 → portRole s g 0 ≠ 4 → exec (.perstInput g low) s = .next s)

/-- SERDES_INGRESS_REQUEST, ECAM_WRITE, SIGNAL_PAGE_WRITE, and the answers ROOT_PORT_COMPLETION, COMPLETION_TIMEOUT and
CXL_MEM_RESPONSE (R269 to R282). -/
def Obligations.SerdesTraffic : Prop :=
  ∀ s : State,
    (∀ g n q, portState s g n ≠ 3 ∨ (isMemDevice s g = true ∧ q.kind ≠ 5) → exec (.serdesIngressRequest g n q) s = .next s) ∧
    (∀ g n q, portState s g n = 3 → q.kind = 5 → isEndpoint s g = true ∨ isMemDevice s g = true → q.write = false →
      q.iova = 0 → q.size = 4 → ∃ t, exec (.serdesIngressRequest g n q) s = .next t ∧ (groupOf t g).ans =
        some ⟨0, putLE [] 0 4 (0x1F9D + (if isEndpoint s g then 0xD911 else 0xD912) * 2 ^ 16)⟩ ∧ ∀ p, p ≠ .groups → samePart p s t) ∧
    (∀ g n q v, portState s g n = 3 → isMemDevice s g = false → isEndpoint s g = true → q.kind = 4 → q.write = false →
      q.iova = 16 * v + 12 → v < 16 → q.size = 4 → (groupOf s g).msixPend = [] →
      ∃ t, exec (.serdesIngressRequest g n q) s = .next t ∧
        (groupOf t g).ans = some ⟨0, putLE [] 0 4 (getLE (groupOf s g).bar0 (16 * v + 12) 4 ^^^ 1)⟩ ∧
        ∀ p, p ≠ .groups → samePart p s t) ∧
    (∀ g n q, portState s g n = 3 → isMemDevice s g = false → isEndpoint s g = true → q.kind = 4 → 0x10000 ≤ q.iova →
      exec (.serdesIngressRequest g n q) s = .next (farAnswer g 1 [] s)) ∧
    (∀ g n q, portState s g n = 3 → isMemDevice s g = false → isEndpoint s g = false → 4 ≤ q.kind →
      q.kind ≠ 6 ∨ portRole s g n ≠ 1 → exec (.serdesIngressRequest g n q) s = .next (farAnswer g 1 [] s)) ∧
    (∀ g n q, portState s g n = 3 → isMemDevice s g = false → q.kind = 6 → portRole s g n = 1 →
      exec (.serdesIngressRequest g n q) s = .next (farAnswer g 0 (putLE [] 0 8 (now s)) s)) ∧
    (∀ g n q, portState s g n = 3 → isMemDevice s g = false → q.kind < 4 → (inboundReq s g q).dev ∈ (groupOf s g).resetting →
      ∃ t, exec (.serdesIngressRequest g n q) s = .next t ∧ (groupOf t g).ans = some ⟨1, []⟩ ∧
        ∀ p, p ≠ .groups → samePart p s t) ∧
    (∀ g n q r, r = inboundReq s g q → portState s g n = 3 → isMemDevice s g = false → r.dev ∉ (groupOf s g).resetting →
      r.kind < 3 → isEndpoint s g = false ∨ r.dev < 0xFF08 →
      (tget 0 (groupOf s g).ctx r.dev = 0 → iomReg s g 16 8 % 16 = 0 → iomBit s g 76 16 = false →
        ∃ t, exec (.serdesIngressRequest g n q) s = .next t ∧ (groupOf t g).ans = some ⟨1, []⟩ ∧ dramKept s t ∧
        ∀ p, p ≠ .groups → p ≠ .mem → samePart p s t) ∧
      (tget 0 (groupOf s g).ctx r.dev ≠ 0 → iomReach s (devTenancy s g r.dev) (tget 0 (groupOf s g).ctx r.dev - 1) = false →
        ∃ t, exec (.serdesIngressRequest g n q) s = .next t ∧ (groupOf t g).ans = some ⟨1, []⟩ ∧ dramKept s t ∧
          samePart .slices s t ∧ samePart .outs s t ∧ recordedIn 3 4 (portUnit g n) 0x0404 s t) ∧
      (∀ s2, tget 0 (groupOf s g).ctx r.dev = 0 → iomReg s g 16 8 % 16 = 1 → r.kind = 0 →
        s2 = modGroup g (fun x => { x with cached := (r.dev :: x.cached).eraseDups }) (dropReads (.iommu g) (iomCount g 1 r 0 0 s)) →
        (∀ o, ownLine s (lineOf r.iova) = false → regionOf (offOf r.iova) = .dram ∨ regionOf (offOf r.iova) = .cxl →
          homeOf r.iova < 64 → ncClear s2 (devTenancy s g r.dev) (lineOf r.iova) r.write = true →
          lineCached s2 (homeSlice s2 (devTenancy s g r.dev) (lineOf r.iova)) (lineOf r.iova) = false →
          o = ({ xid := 0, dev := homeOf r.iova, kind := if r.write then 4 else 3, pa := r.iova, tag := devTenancy s g r.dev,
                 size := r.size, data := r.data, origin := .port g r.dev } : Out) →
          exec (.serdesIngressRequest g n q) s = .next (dropRead (.ingress g) (lineOf r.iova)
            (sendOut o (if r.write then breakResv none (lineOf r.iova) s2 else s2)))) ∧
        (ownLine s (lineOf r.iova) = false → regionOf (offOf r.iova) ≠ .control → regionOf (offOf r.iova) ≠ .dram →
          regionOf (offOf r.iova) ≠ .cxl →
          exec (.serdesIngressRequest g n q) s = .next (sendOut { xid := 0, dev := homeOf r.iova
                                                                  kind := if r.write then 4 else 3, pa := r.iova
                                                                  tag := devTenancy s g r.dev, size := r.size
                                                                  data := r.data, origin := .port g r.dev } s2)) ∧
        (regionOf (offOf r.iova) = .control → exec (.serdesIngressRequest g n q) s = .next (farAnswer g 1 [] s2)) ∧
        (ownLine s (lineOf r.iova) = true → regionOf (offOf r.iova) = .cxl → decoded s2 (offOf r.iova) = false →
          exec (.serdesIngressRequest g n q) s = .next (farAnswer g 1 [] s2)) ∧
        (ownLine s (lineOf r.iova) = true → regionOf (offOf r.iova) = .dram → (coord s (offOf r.iova)).isSome = true →
          (granuleOk s (offOf r.iova) (devTenancy s g r.dev) false = false →
            exec (.serdesIngressRequest g n q) s = .next (farAnswer g 1 []
              (refuseGranule 4 (portUnit g 0) r.iova (devTenancy s g r.dev) s2))) ∧
          (granuleOk s (offOf r.iova) (devTenancy s g r.dev) false = true →
            ncClear s2 (devTenancy s g r.dev) (lineOf r.iova) r.write = true → r.write = true → r.size = 64 → r.iova % 64 = 0 →
            exec (.serdesIngressRequest g n q) s = .next (dropRead (.ingress g) (lineOf r.iova)
              (writeAtHome (.ingress g) (lineOf r.iova) (devTenancy s g r.dev) r.data s2))) ∧
          (granuleOk s (offOf r.iova) (devTenancy s g r.dev) false = true →
            ncClear s2 (devTenancy s g r.dev) (lineOf r.iova) r.write = false → exec (.serdesIngressRequest g n q) s =
              .next { ncOpen (.ingress g) (devTenancy s g r.dev) (lineOf r.iova) r.write s2 with groups := s.groups }) ∧
          (∀ s1 v, granuleOk s (offOf r.iova) (devTenancy s g r.dev) false = true →
            ncClear s2 (devTenancy s g r.dev) (lineOf r.iova) r.write = true →
            currentLine (.ingress g) (lineOf r.iova) (devTenancy s g r.dev) s2 = (s1, .data v false) →
            (r.write = false → ∃ t, exec (.serdesIngressRequest g n q) s = .next t ∧
              (groupOf t g).ans = some ⟨0, putLE [] 0 r.size (lineGet v (r.iova % 64) r.size)⟩ ∧ dramKept s1 t ∧
              samePart .slices s1 t) ∧
            (r.write = true → r.size ≠ 64 ∨ r.iova % 64 ≠ 0 → exec (.serdesIngressRequest g n q) s =
              .next (dropRead (.ingress g) (lineOf r.iova) (writeAtHome (.ingress g) (lineOf r.iova) (devTenancy s g r.dev)
                (linePut v (r.iova % 64) r.size r.data) s1))))))) ∧
    (∀ tag g dev off size v r, tag ≠ 0 → ∃ t, exec (.ecamWrite tag g dev off size v r) s = .next t ∧
      recordedIn 5 11 0 0x0B01 s t ∧ samePart .groups s t ∧ otherFields irqFields s t) ∧
    (∀ g dev off size v r, groupPresent s g = false → exec (.ecamWrite 0 g dev off size v r) s = .next s) ∧
    (∀ g dev off size v r, isDvsec (0x80000000 + g * 0x10000000 + ecamOff dev off) size = true →
      ∃ t, exec (.ecamWrite 0 g dev off size v r) s = .next t ∧ ∀ p, p ≠ .regs → samePart p s t) ∧
    (∀ g dev off size v r, isDvsec (0x80000000 + g * 0x10000000 + ecamOff dev off) size = false →
      ecamProtected s g dev r = true ∨ dev ∈ (groupOf s g).resetting ∨ isInbound s g dev = true ∨ cfgPresent s g dev = false ∨
        (dev = 0xF8 ∧ r = .bar 0) →
      exec (.ecamWrite 0 g dev off size v r) s = .next s) ∧
    (∀ g dev off size v r, groupPresent s g = true → ecamProtected s g dev r = false → dev ∉ (groupOf s g).resetting →
      isInbound s g dev = false → cfgPresent s g dev = true → dev ≠ 0xF8 ∨ r ≠ .bar 0 →
      isDvsec (0x80000000 + g * 0x10000000 + ecamOff dev off) size = false → ∃ t, exec (.ecamWrite 0 g dev off size v r) s = .next t ∧
        (groupOf t g).config = putLE (groupOf s g).config (ecamOff dev off) size
          (v % 256 ^ size ^^^ (cfgFree g dev off / 256 ^ (off % 4) % 256 ^ size)) ∧
        (∀ ns, r = .devControl2 ns → portFunc s g dev = true →
          tget 0 (groupOf t g).cto (dev / 8) = if ns < 50000 ∨ 64000000000 < ns then 0 else ns) ∧
        (r = .dpcRelease → dev / 8 < 4 → g < 8 → portState s g (dev / 8) = 5 → dev / 8 ∈ (groupOf s g).dpc →
          portState t g (dev / 8) = 2 ∧ dev / 8 ∉ (groupOf t g).dpc)) ∧
    (∀ h pa size v g r, regionOf (offOf pa) = .io g → homeOf pa = rd s fabIdDeviceId → hartRuns s h = true →
      ioAt s g (ownerOf s h) pa size = .signal r 0 → size = 4 → v < 16 →
      ∃ t, exec (.signalPageWrite h pa size v) s = .next t ∧ (∀ p, p ≠ .groups → samePart p s t) ∧
        (vecOpen s g v = true → tget 0 (groupOf t g).msix v = tget 0 (groupOf s g).msix v + 1) ∧
        (vecOpen s g v = false → v ∈ (groupOf t g).msixPend ∧ (groupOf t g).msix = (groupOf s g).msix)) ∧
    (∀ h pa size v g, regionOf (offOf pa) = .io g → homeOf pa = rd s fabIdDeviceId → hartRuns s h = true →
      ioAt s g (ownerOf s h) pa size = .refused → ∃ t, exec (.signalPageWrite h pa size v) s = .next t ∧
        raised h (hartOf s h).pc 7 pa s t ∧ samePart .groups s t ∧ recordedIn 5 4 (portUnit g (portAt s g pa)) 0x0B02 s t ∧
        counted (portRefusedRefused (portBase g (portAt s g pa))) 1 s t) ∧
    (∀ xid status data ns poison, outOf s xid = none → exec (.rootPortCompletion xid status data) s = .next s ∧
      exec (.completionTimeout xid ns) s = .next s ∧ exec (.cxlMemResponse xid data poison) s = .next s) ∧
    (∀ xid o h r size sg va more, outOf s xid = some o → o.origin = .hart h r size sg va more → 64 ≤ o.dev → isRead o = true →
      (hartOf s h).st = .running →
      (∀ data, r < 32 → o.kind ≠ 8 → ∃ t, exec (.rootPortCompletion xid 0 data) s = .next t ∧
        gotX h r (extend size sg data) s t ∧ (hartOf t h).loaded = data % 2 ^ (8 * size) ∧
        t.outs = s.outs.filter (fun x => x.xid != o.xid) ∧ otherHarts h s t ∧ samePart .ras s t) ∧
      (∀ i ns data, (i = .rootPortCompletion xid 3 data) ∨
          (timeoutNs s (o.dev - 64) (outPort s (o.dev - 64) o) ≤ ns ∧ i = .completionTimeout xid ns) →
        ∃ t, exec i s = .next t ∧ (hartOf t h).exc = some ⟨19, va, (hartOf s h).pc⟩ ∧ (hartOf t h).x = (hartOf s h).x ∧
          otherHarts h s t ∧ t.outs = s.outs.filter (fun x => x.xid != o.xid) ∧
          recordedIn 2 4 (portUnit (o.dev - 64) (outPort s (o.dev - 64) o)) 0x0403 s t) ∧
      (∀ data status, status = 1 ∨ status = 2 → ∃ t, exec (.rootPortCompletion xid status data) s = .next t ∧
        (hartOf t h).exc = some ⟨if o.kind = 8 then 7 else 5, va, (hartOf s h).pc⟩ ∧ (hartOf t h).x = (hartOf s h).x ∧
        otherHarts h s t ∧ t.outs = s.outs.filter (fun x => x.xid != o.xid) ∧
        recordedIn 2 4 (portUnit (o.dev - 64) (outPort s (o.dev - 64) o)) 0x0403 s t) ∧
      (∀ ns, ns < timeoutNs s (o.dev - 64) (outPort s (o.dev - 64) o) → exec (.completionTimeout xid ns) s = .next s)) ∧
    (∀ xid o data, outOf s xid = some o → 64 ≤ o.dev → isRead o = false →
      exec (.rootPortCompletion xid 0 data) s = .next s ∧ (∀ ns, exec (.completionTimeout xid ns) s = .next s) ∧
      (∀ status, status ≠ 0 → postedOut s o = true → o.origin = .none → ∃ t,
        exec (.rootPortCompletion xid status data) s = .next t ∧ t.outs = s.outs.filter (fun x => x.xid != o.xid) ∧
        recordedIn 2 4 (portUnit (o.dev - 64) (outPort s (o.dev - 64) o)) 0x0403 s t)) ∧
    (∀ xid o data poison, outOf s xid = some o → o.dev < 64 ∨ isEndpoint s (o.dev - 64) = true ∨ regionOf (offOf o.pa) ≠ .cxl →
      exec (.cxlMemResponse xid data poison) s = .next s) ∧
    (∀ xid o g d data poison, outOf s xid = some o → o.origin = .port g d → 64 ≤ o.dev → isEndpoint s (o.dev - 64) = false →
      regionOf (offOf o.pa) = .cxl →
      ∃ t, exec (.cxlMemResponse xid data poison) s = .next t ∧ t.outs = s.outs.filter (fun x => x.xid != o.xid) ∧
        (groupOf t g).ans = some (if poison then ⟨2, []⟩ else ⟨0, putLE [] 0 o.size data⟩) ∧
        ∀ p, p ≠ .outs → p ≠ .groups → samePart p s t)

/-- The memory-device role: CXL_MEM_DEVICE_REQUEST (R284) and the mailbox opcodes (R285). FUNCTION_RESET_DONE (R274). -/
def Obligations.CxlMemoryDevice : Prop :=
  ∀ (s : State) (g : Nat),
    (∀ dpa w data base size x k, lentOf s g = some (base, size, x) → portState s g 0 = 3 → isMemDevice s g = true →
      dpa < size → coord s (base + dpa) = some k → ∃ t, exec (.cxlMemDeviceRequest g dpa w data) s = .next t ∧
        exec (.dramRequest k.chan { pa := rd s fabIdDeviceId * 2 ^ 46 + (base + dpa), tag := x, write := w, data := data,
                                    cls := 0, dest := 2, port := 1 }) s = .next t) ∧
    (∀ dpa w data base size x, lentOf s g = some (base, size, x) → portState s g 0 = 3 → isMemDevice s g = true → size ≤ dpa →
      exec (.cxlMemDeviceRequest g dpa w data) s = .next (farAnswer g 1 [] s)) ∧
    (∀ dpa w data, lentOf s g = none ∨ portState s g 0 ≠ 3 → exec (.cxlMemDeviceRequest g dpa w data) s = .next s) ∧
    (isMemDevice s g = true →
      (∃ t, exec (.identifyMemoryDevice g) s = .next t ∧ (groupOf t g).ans = some ⟨0, mkBytes
        [(0x10, 8, rd s (portLendSizeUnits (portBase g 0))), (0x18, 8, rd s (portLendSizeUnits (portBase g 0)))]⟩) ∧
      (∃ t v, exec (.getHealthInfo g) s = .next t ∧ (groupOf t g).ans = some ⟨0, putLE [] 0 18 v⟩) ∧
      (∀ log, ∃ t, exec (.getEventRecords g log) s = .next t ∧
        (groupOf t g).ans = some ⟨0, eventBytes (if log = 2 then (groupOf s g).events else [])⟩ ∧
        (groupOf t g).events = (groupOf s g).events) ∧
      (∀ handles, ∃ t, exec (.clearEventRecords g 2 handles) s = .next t ∧ (groupOf t g).ans = some ⟨0, []⟩ ∧
        (handles = [] → (groupOf t g).events = []) ∧
        (handles ≠ [] → ∀ e, e ∈ (groupOf t g).events ↔ e ∈ (groupOf s g).events ∧ e.handle ∉ handles)) ∧
      (∀ dpa len, ∃ t, exec (.getPoisonList g dpa len) s = .next t ∧ (groupOf t g).ans = some ⟨0, poisonBytes
        ((groupOf s g).poisoned.filter fun x => dpa ≤ x && x < dpa + len * 64)⟩) ∧
      (∃ t, exec (.getSupportedLogs g) s = .next t ∧ (groupOf t g).ans = some ⟨0, mkBytes [(0, 2, 1), (0x18, 4, 32)]⟩) ∧
      (∀ log off len, log ≠ 0 → ∃ t, exec (.getLog g log off len) s = .next t ∧ (groupOf t g).ans = some ⟨0, []⟩) ∧
      (∀ v, ∃ t, exec (.setTimestamp g v) s = .next t ∧ (groupOf t g).stamp = v ∧ (groupOf t g).stampAt = now s ∧
        (groupOf t g).ans = some ⟨0, []⟩) ∧
      (∀ op, op ∉ cxlOpcodes → ∃ t, exec (.cxlUnsupportedOpcode g op) s = .next t ∧ (groupOf t g).ans = some ⟨3, []⟩)) ∧
    (isMemDevice s g = false → ∀ i ∈ [Instr.identifyMemoryDevice g, .getHealthInfo g, .getEventRecords g 2,
      .clearEventRecords g 2 [], .getPoisonList g 0 1, .getSupportedLogs g, .getLog g 0 0 64, .setTimestamp g 1],
      exec i s = .next s) ∧
    (∀ dev, ∃ t, exec (.functionResetDone g dev) s = .next t ∧
      (∀ x, x ∈ (groupOf t g).resetting ↔ x ∈ (groupOf s g).resetting ∧ x ≠ dev))

/-- PORT_STATUS, PORT_CONFIG, PORT_ASSIGN, PORT_EP and PORT_CXLGRANT (R273, R275, R279 to R281, R291, R293). -/
def Obligations.PortCommands : Prop :=
  ∀ (s : State) (i : Nat) (c : Bytes), i < 260 →
    (takenAs s i 0x0801 c → ∃ t g n, g = clampGroup s (arg c 0 1) ∧ n = clampPort s g (arg c 1 1) ∧
      exec (.portStatus i) s = .next t ∧ samePart .groups s t ∧
      doneIn s t i (chg (arg c 0 1) g + chg (arg c 1 1) n) (mkBytes [(0, 1, g), (1, 1, n), (2, 1, portRole s g n),
        (3, 1, portState s g n), (4, 1, rd s (portStatusWidth (portBase g n))), (5, 1, rd s (portStatusSpeed (portBase g n))),
        (6, 2, rd s (portLanesFailed (portBase g n))), (8, 1, rd s (portErrLaneFailures (portBase g n))),
        (9, 1, rd s (portErrLinkDowns (portBase g n))), (10, 2, rd s (portErrReplays (portBase g n))),
        (0xC, 2, (groupOf s g).assigns.length),
        (0xE, 2, if (tget (0, 0, 0) s.mem.lent g).2.1 = 0 then 0 else (tget (0, 0, 0) s.mem.lent g).2.2),
        (0x10, 8, (tget (0, 0, 0) s.mem.lent g).1), (0x18, 8, (tget (0, 0, 0) s.mem.lent g).2.1)])) ∧
    (takenAs s i 0x0802 c → ∃ t g code, ∃ roles : List Nat, g = clampGroup s (arg c 0 1) ∧
      code = clampEnum 5 (bifOf s g) (arg c 1 1) ∧
      roles = ((List.range 4).map fun n => if (bifPorts code).any (fun e => e.1 == n) then clampEnum 5 0 (arg c (2 + n) 1) else 0) ∧
      exec (.portConfig i) s = .next t ∧
      (configOutcome s g code roles ≠ 0 → samePart .journal s t ∧ samePart .groups s t ∧ ∃ cl, doneIn s t i cl
        (mkBytes ([(0, 1, g), (1, 1, code), (6, 1, configOutcome s g code roles), (8, 8, 0)] ++
          roles.zipIdx.map fun (r, n) => (2 + n, 1, r)))) ∧
      (configOutcome s g code roles = 0 → (∀ r ∈ roles, r = 0) ∨ serdesOn s g = true → goesOn t i ∧ samePart .due s t ∧
        ∃ cl, t.journal = s.journal ++ [⟨i, beat s + 1, .portConf i cl g code roles⟩]) ∧
      (configOutcome s g code roles = 0 → (∃ r ∈ roles, r ≠ 0) → serdesOn s g = false → goesOn t i ∧
        t.due = s.due ++ [⟨beat s + 1, 4, .switch (160 + g) true⟩] ∧
        ∃ cl, t.journal = s.journal ++ [⟨i, beat s + 2, .portConf i cl g code roles⟩]) ∧
      (∀ cl n, n < 4 → configOutcome s g code roles ≠ 0 → portState (applyConf i cl g code roles s) g n = portState s g n)) ∧
    (takenAs s i 0x0803 c → ∃ t g a x, g = clampGroup s (arg c 0 1) ∧ a = clampEnum 3 0 (arg c 1 1) ∧
      x = (if 1 ≤ i ∧ i ≤ 256 then i else min 256 (arg c 6 2)) ∧ exec (.portAssign i) s = .next t ∧
      (funcPresent s g (arg c 2 2) = false → samePart .groups s t ∧ samePart .journal s t ∧
        ∃ cl, doneIn s t i cl (mkBytes [(0, 1, g), (1, 1, a), (2, 2, arg c 2 2), (4, 1, clampR 1 8 (arg c 4 1)), (5, 1, 1),
          (6, 2, x), (8, 8, 0)])) ∧
      (a = 0 → arg c 4 1 = 1 → funcPresent s g (arg c 2 2) = true → isSealed s x = false →
        isSealed s (devTenancy s g (arg c 2 2)) = false → x = 0 →
        (cutAssigns (arg c 2 2) 1 (groupOf s g).assigns).length ≤ 256 → goesOn t i ∧ samePart .groups s t ∧
          (⟨i, beat s + 1, .portOwner g (arg c 2 2) 1 0⟩ : JStep) ∈ t.journal) ∧
      (a = 2 → arg c 4 1 = 1 → funcPresent s g (arg c 2 2) = true → devTenancy s g (arg c 2 2) = x → goesOn t i ∧
        arg c 2 2 ∉ (groupOf t g).cached) ∧
      (∀ a8, a = 1 → arg c 4 1 = 1 → funcPresent s g (arg c 2 2) = true → devTenancy s g (arg c 2 2) = x →
        a8 = roundDown 64 (arg c 8 8) → (ctxOwned s x a8 = true → goesOn t i ∧ tget 0 (groupOf t g).ctx (arg c 2 2) = a8 + 1) ∧
        (ctxOwned s x a8 = false → samePart .groups s t ∧ ∃ cl, doneIn s t i cl (mkBytes [(0, 1, g), (1, 1, 1), (2, 2, arg c 2 2),
          (4, 1, 1), (5, 1, 6), (6, 2, x), (8, 8, 0)])))) ∧
    (takenAs s i 0x0804 c → ∃ t g b r, g = clampGroupTo s (isEndpoint s) (arg c 0 1) ∧ b = clampBar2 (arg c 1 1) ∧ r = clampRegion (arg c 2 1) ∧
      exec (.portEp i) s = .next t ∧
      (isEndpoint s g = false → samePart .journal s t ∧ ∃ cl, doneIn s t i cl (mkBytes [(0, 1, g), (1, 1, b), (2, 1, r),
        (3, 1, clampEnum 2 0 (arg c 3 1)), (4, 2, min 256 (arg c 4 2)), (6, 1, 1), (8, 8, roundDown 4096 (arg c 8 8))])) ∧
      (isEndpoint s g = true → (tenantOf s (min 256 (arg c 4 2))).st = .opened → goesOn t i ∧ samePart .groups s t ∧
        (⟨i, beat s + 1, .portEp g b r (clampEnum 2 0 (arg c 3 1) == 1) (min 256 (arg c 4 2)) (roundDown 4096 (arg c 8 8))⟩ :
          JStep) ∈ t.journal)) ∧
    (takenAs s i 0x0805 c → ∃ t g lo base size x o, g = clampGroupTo s (hasHostPort s) (arg c 0 1) ∧
      lo = 0x040000000000 + g * 0x040000000000 ∧
      base = roundDown (2 ^ 30) (clampR lo (lo + 0x040000000000 - 2 ^ 30) (arg c 8 8)) ∧
      size = min (clampR (2 ^ 30) (2 ^ 42) (roundUp (2 ^ 30) (arg c 0x10 8))) (lo + 0x040000000000 - base) ∧
      x = min 256 (arg c 0x18 2) ∧ o = cxlOutcome s g base (size / 2 ^ 30) x ∧ exec (.portCxlgrant i) s = .next t ∧
      samePart .mem s t ∧
      (o ≠ 0 → samePart .journal s t ∧ ∃ cl, doneIn s t i cl (mkBytes [(0, 1, g), (1, 1, o), (2, 2, x), (4, 4, 0),
        (8, 8, base), (0x10, 8, size), (0x18, 8, 0)])) ∧
      (o = 0 → x = 0 → goesOn t i ∧ samePart .outs s t ∧
        (⟨i, beat s + 1, .cxlGrant g ((base - lo) / 2 ^ 30) (size / 2 ^ 30) x⟩ : JStep) ∈ t.journal) ∧
      (o = 0 → x ≠ 0 → goesOn t i ∧ samePart .journal s t ∧ ∃ w cl, t.outs = s.outs ++ [w] ∧ w.kind = 5 ∧ w.dev = 64 + g ∧
        w.pa = paOf s base ∧ w.size = size ∧ w.data = 0 ∧ w.origin = .grant i cl g base (size / 2 ^ 30) x))

/-! ## DMA -/

/-- The writes of a channel's registers: DMA_ENABLE, DMA_ABORT, DMA_PAUSE_SET, DMA_PAUSE_CLEAR, DMA_TAIL_WRITE and the
resumes; DMA_ABORT_DONE and DMA_PAUSE_DONE (R294, R295, R297, R302, R304, R306). A party that does not reach the channel is
refused. DESCRIPTOR_FETCHED, DMA_READ_RETURN, DESCRIPTOR_COMPLETE, STATUS_WRITE_ACK, DMA_BUS_ERROR and DMA_RING_FAULT (R297
to R303); DMA_ASSIGN and DMA_STATUS (R295, R296, R310). -/
def Obligations.DmaChannels : Prop :=
  (∀ (s : State) (d : Nat), d < 64 →
    (∀ tag v, dmaReach s tag d = false → ∀ i ∈ [Instr.dmaEnable tag d, .dmaAbort tag d, .dmaPauseSet tag d,
        .dmaPauseClear tag d, .dmaStop tag d, .dmaResumeRetry tag d, .dmaResumeMarkBad tag d, .dmaResumeDisable tag d,
        .dmaTailWrite tag d v],
      ∃ t, exec i s = .next t ∧ recordedIn 5 11 0 0x0B01 s t ∧ samePart .dma s t ∧ otherFields irqFields s t) ∧
    (∀ tag, dmaReach s tag d = true →
      (dmaState s d = 1 → rdB s (pwrDomainFenced (180 + dmaTile d)) = false → ∃ t, exec (.dmaEnable tag d) s = .next t ∧
        dmaState t d = (if ringEmpty s d then 2 else 3) ∧ rd t (dmaCtrlEnable d) = 1 ∧ (dmaOf t d).desc = none ∧
        (dmaOf t d).total = 0 ∧ (∀ k, k ≠ d → dmaOf t k = dmaOf s k) ∧
        otherFields [dmaStatusState d, dmaCtrlEnable d] s t) ∧
      (dmaState s d ≠ 1 ∨ rdB s (pwrDomainFenced (180 + dmaTile d)) = true → exec (.dmaEnable tag d) s = .next s) ∧
      (∃ t, exec (.dmaAbort tag d) s = .next t ∧ rd t (dmaCtrlEnable d) = 0 ∧ otherFields [dmaCtrlEnable d] s t ∧
        (dmaState s d = 0 ∨ dmaState s d = 1 → samePart .dma s t) ∧
        (dmaState s d ≠ 0 → dmaState s d ≠ 1 → (dmaOf t d).aborting = true ∧ (dmaOf t d).msiDue = false ∧
          (dmaOf t d).desc = (dmaOf s d).desc)) ∧
      (∀ v, ∃ t, exec (.dmaTailWrite tag d v) s = .next t ∧ rd t (dmaTailTail d) = v % 2 ^ 16 ∧ samePart .dma s t ∧
        otherFields [dmaTailTail d, dmaStatusState d] s t ∧
        (dmaState s d ≠ 2 → dmaState t d = dmaState s d) ∧
        (dmaState s d = 2 → dmaState t d = (if headOf s d = v % 2 ^ 16 % ringSize s d then 2 else 3))) ∧
      (dmaPriv d = false →
        (∃ t, exec (.dmaPauseSet tag d) s = .next t ∧ rd t (dmaCtrlPause d) = 1 ∧ samePart .dma s t ∧
          otherFields [dmaCtrlPause d, dmaStatusState d] s t ∧
          (dmaState s d = 3 → dmaState t d = 4) ∧ (dmaState s d = 2 → dmaState t d = 5) ∧
          (dmaState s d ≠ 2 → dmaState s d ≠ 3 → dmaState t d = dmaState s d)) ∧
        (∃ t, exec (.dmaPauseClear tag d) s = .next t ∧ rd t (dmaCtrlPause d) = 0 ∧ samePart .dma s t ∧
          otherFields [dmaCtrlPause d, dmaStatusState d] s t ∧
          (dmaState s d = 4 ∨ dmaState s d = 5 → (dmaOf s d).desc ≠ none → dmaState t d = 3) ∧
          (dmaState s d = 4 ∨ dmaState s d = 5 → (dmaOf s d).desc = none →
            dmaState t d = (if ringEmpty s d then 2 else 3)) ∧
          (dmaState s d ≠ 4 → dmaState s d ≠ 5 → dmaState t d = dmaState s d)) ∧
        exec (.dmaStop tag d) s = .next s ∧ exec (.dmaResumeRetry tag d) s = .next s) ∧
      (dmaPriv d = true → dmaState s d = 6 →
        (rdB s (dmaCtrlStop d) = false → ∃ t, exec (.dmaResumeRetry tag d) s = .next t ∧ dmaState t d = 3 ∧
          (dmaOf t d).bad = none ∧ (dmaOf t d).desc = (dmaOf s d).desc ∧ (dmaOf t d).done = (dmaOf s d).done) ∧
        (∃ t, exec (.dmaResumeDisable tag d) s = .next t ∧ dmaState t d = 1 ∧ rd t (dmaCtrlEnable d) = 0 ∧
          rd t (dmaCtrlStop d) = 0 ∧ rd t (dmaHeadHead d) = rd s (dmaHeadHead d) ∧ (dmaOf t d).desc = none) ∧
        (∀ q w s0, (dmaOf s d).desc = some q → rdB s (dmaCtrlStop d) = false → w = (⟨statusOff, q.at' + 0x18, 8, statusWord q (dmaOf s d).bad⟩ : DmaWr) →
          dmaNeeds d w (setDmaState d 3 s) = (s0, none) → exec (.dmaResumeMarkBad tag d) s = .next s0) ∧
        (∀ q w s0 old s1, (dmaOf s d).desc = some q → rdB s (dmaCtrlStop d) = false → w = (⟨statusOff, q.at' + 0x18, 8, statusWord q (dmaOf s d).bad⟩ : DmaWr) →
          dmaNeeds d w (setDmaState d 3 s) = (s0, some old) → dmaWrite d w old (dmaEndReads d s0) = (s1, none) →
          ∃ t, exec (.dmaResumeMarkBad tag d) s = .next t ∧ (dmaOf t d).desc = none ∧ (dmaOf t d).bad = none ∧
            rd t (dmaHeadHead d) = (headOf s d + 1) % ringSize s d % 2 ^ 16 ∧ samePart .mem s1 t))) ∧
    ((dmaOf s d).aborting = true → ∃ t, exec (.dmaAbortDone d) s = .next t ∧ dmaState t d = 1 ∧ rd t (dmaCtrlPause d) = 0 ∧
      rd t (dmaCtrlStop d) = 0 ∧ (dmaOf t d).aborting = false ∧ (dmaOf t d).desc = none ∧
      (∀ k, k ≠ d → dmaOf t k = dmaOf s k)) ∧
    ((dmaOf s d).aborting = false → exec (.dmaAbortDone d) s = .next s) ∧
    (dmaState s d = 4 → (dmaOf s d).desc = none → ∃ t, exec (.dmaPauseDone d) s = .next t ∧ dmaState t d = 5 ∧
      samePart .dma s t ∧ samePart .mem s t ∧ otherFields [dmaStatusState d] s t) ∧
    (∀ q, dmaState s d = 4 → (dmaOf s d).desc = some q → (dmaOf s d).done ≠ q.len → (dmaOf s d).bad = none →
      ∃ t, exec (.dmaPauseDone d) s = .next t ∧ dmaState t d = 5 ∧ samePart .dma s t ∧ samePart .mem s t ∧
        otherFields [dmaStatusState d] s t) ∧
    (dmaState s d ≠ 4 → exec (.dmaPauseDone d) s = .next s)) ∧
  (∀ s : State,
    (∀ d far, d < 64 → dmaState s d = 3 → (dmaOf s d).desc = none → ringEmpty s d = false → (dmaOf s d).aborting = false →
      (∀ s1, dmaRead d (descAt s d) 32 far s = (s1, .wait) → exec (.descriptorFetched d far) s = .next s1) ∧
      (∀ s1 x, dmaRead d (descAt s d) 32 far s = (s1, .val x) → ∃ t, exec (.descriptorFetched d far) s = .next t ∧
        (dmaOf t d).desc = some (decodeDesc (descAt s d) x) ∧ (dmaOf t d).done = 0 ∧
        (dmaOf t d).bad = (if badDesc (decodeDesc (descAt s d) x) then some (6, 0, 0) else none) ∧
        rd t (dmaCurSrcSrc d) = x / 2 ^ 64 % 2 ^ 64 ∧ rd t (dmaCurDstDst d) = x / 2 ^ 128 % 2 ^ 64 ∧ dramKept s1 t) ∧
      (∀ s1 k, dmaRead d (descAt s d) 32 far s = (s1, .err k) → dmaPriv d = false →
        ∃ t, exec (.descriptorFetched d far) s = .next t ∧ dmaState t d = 7 ∧ rd t (dmaErrKind d) = k % 16 ∧
          rd t (dmaErrDir d) = 0 ∧ rd t (dmaErrRing d) = 1 ∧ (dmaOf t d).desc = none) ∧
      (∀ s1 k, dmaRead d (descAt s d) 32 far s = (s1, .err k) → dmaPriv d = true →
        ∃ t, exec (.descriptorFetched d far) s = .next t ∧ dmaState t d = 6 ∧ recordedIn 2 6 d 0x0601 s1 t)) ∧
    (∀ d pa n far to' a, dmaAt s d pa n = .far to' a → (dmaOf s d).far = [] → ncClear s (dmaTag s d) (lineOf pa) false = true →
      ownDram s (lineOf pa) = false → lineCached s (homeSlice s (dmaTag s d) (lineOf pa)) (lineOf pa) = false →
      (noRoute s pa = true → dmaRead d pa n far s = (bump fabEventsErrors 1 s, .err 4)) ∧
      (noRoute s pa = false → dmaStuck s d to' a 3 n = false → ∃ s1 o, dmaRead d pa n far s = (s1, .wait) ∧
        s1.outs = s.outs ++ [o] ∧ o.kind = 3 ∧ o.dev = to' ∧ o.pa = a ∧ o.size = n ∧ o.tag = dmaTag s d ∧ o.mgmt = dmaPriv d ∧
        o.origin = .dmaRd d pa n)) ∧
    (∀ d pa n far to' a v k, dmaAt s d pa n = .far to' a → (dmaOf s d).far = [⟨pa, n, some (k, v)⟩] →
      dmaRead d pa n far s = (s, if k = 0 then .val (v % 2 ^ (8 * n)) else .err k)) ∧
    (∀ d far, dmaState s d ≠ 3 → exec (.descriptorFetched d far) s = .next s) ∧
    (∀ d n far q a m, d < 64 → (dmaOf s d).desc = some q → (dmaOf s d).bad = none → (dmaOf s d).aborting = false →
      (dmaOf s d).done < q.len → dmaState s d = 3 ∨ dmaState s d = 4 ∨ dmaState s d = 8 →
      a = dmaAddr q.src q.srcLog (dmaOf s d).done → m = min (min n (q.len - (dmaOf s d).done)) (64 - a % 64) →
      (∀ s1, dmaRead d a m far s = (s1, .wait) → exec (.dmaReadReturn d n far) s = .next s1) ∧
      (∀ s1 x s2, dmaRead d a m far s = (s1, .val x) → dmaPrepare d (dmaChunks q 3 (dmaOf s d).done m x) s1 = (s2, none) →
        exec (.dmaReadReturn d n far) s = .next s2) ∧
      (∀ s1 x ws s0 olds s2 k j, dmaRead d a m far s = (s1, .val x) → ws = dmaChunks q 3 (dmaOf s d).done m x →
        dmaPrepare d ws s1 = (s0, some olds) → dmaSpread d (ws.zip olds) (dmaOf s d).done (dmaEndReads d s0) = (s2, k, some j) →
        ∃ t, exec (.dmaReadReturn d n far) s = .next t ∧ (dmaOf t d).done = k ∧ (dmaOf t d).bad = some (j, 1, k) ∧
          rd t (dmaErrKind d) = j % 16 ∧ rd t (dmaErrDir d) = 1 ∧ (dmaPriv d = true → dmaState t d = 6)) ∧
      (∀ s1 x ws s0 olds s2 k, dmaRead d a m far s = (s1, .val x) → ws = dmaChunks q 3 (dmaOf s d).done m x →
        dmaPrepare d ws s1 = (s0, some olds) → dmaSpread d (ws.zip olds) (dmaOf s d).done (dmaEndReads d s0) = (s2, k, none) →
        ∃ t, exec (.dmaReadReturn d n far) s = .next t ∧ (dmaOf t d).done = k ∧ (dmaOf t d).bad = (dmaOf s2 d).bad ∧
          rd t (dmaCurRemainRemain d) = (q.len - k) % 2 ^ 31 ∧ rd t (dmaCurSrcSrc d) = dmaAddr q.src q.srcLog k % 2 ^ 64 ∧
          rd t (dmaCurDstDst d) = dmaAddr q.dst q.dstLog k % 2 ^ 64 ∧
          (dmaOf t d).total = (dmaOf s2 d).total + (k - (dmaOf s d).done) ∧ samePart .mem s2 t ∧ samePart .outs s2 t) ∧
      (∀ s1 k, dmaRead d a m far s = (s1, .err k) → ∃ t, exec (.dmaReadReturn d n far) s = .next t ∧
        (dmaOf t d).bad = some (k, 0, (dmaOf s d).done) ∧ rd t (dmaErrKind d) = k % 16 ∧ rd t (dmaErrDir d) = 0 ∧
        (dmaPriv d = true → dmaState t d = 6))) ∧
    (∀ a k i, (k = 0 → dmaAddr a k i = a + i) ∧ (k ≠ 0 → dmaAddr a k i / 2 ^ k = a / 2 ^ k ∧
      dmaAddr a k i % 2 ^ k = (a + i) % 2 ^ k)) ∧
    (∀ d q w s0, d < 64 → (dmaOf s d).desc = some q → (dmaOf s d).aborting = false → dmaState s d = 3 →
      (dmaOf s d).done = q.len ∨ (dmaOf s d).bad ≠ none → dmaWaits s d = false → w = (⟨statusOff, q.at' + 0x18, 8, statusWord q (dmaOf s d).bad⟩ : DmaWr) →
      dmaNeeds d w s = (s0, none) → exec (.descriptorComplete d) s = .next s0) ∧
    (∀ d q w s0 old s1, d < 64 → (dmaOf s d).desc = some q → (dmaOf s d).aborting = false → dmaState s d = 3 →
      (dmaOf s d).done = q.len ∨ (dmaOf s d).bad ≠ none → dmaWaits s d = false → w = (⟨statusOff, q.at' + 0x18, 8, statusWord q (dmaOf s d).bad⟩ : DmaWr) →
      dmaNeeds d w s = (s0, some old) → dmaWrite d w old (dmaEndReads d s0) = (s1, none) →
      ∃ t, exec (.descriptorComplete d) s = .next t ∧ (dmaOf t d).desc = none ∧ (dmaOf t d).bad = none ∧
        rd t (dmaHeadHead d) = (headOf s d + 1) % ringSize s d % 2 ^ 16 ∧ samePart .mem s1 t ∧
        (dmaOf t d).msiDue = ((dmaOf s1 d).msiDue || q.irq) ∧
        ((dmaOf s d).bad ≠ none → counted (dmaStatusBadCount d) 1 s1 t) ∧
        ((dmaOf s d).bad = none → rd t (dmaStatusBadCount d) = rd s1 (dmaStatusBadCount d))) ∧
    (∀ d q, (dmaOf s d).desc = some q → (dmaOf s d).done ≠ q.len → (dmaOf s d).bad = none →
      exec (.descriptorComplete d) s = .next s) ∧
    (∀ d, dmaWaits s d = true → exec (.descriptorComplete d) s = .next s ∧ exec (.statusWriteAck d) s = .next s) ∧
    (∀ d q src xid o off, d < 64 → dmaPriv d = false → (dmaOf s d).desc = some q → (dmaOf s d).bad = none →
      outTo s src xid = some o → o.origin = .dma d off → off ≠ statusOff → ∃ t, exec (.err src xid) s = .next t ∧
        (dmaOf t d).bad = some (1, 1, off) ∧ rd t (dmaErrKind d) = 1 ∧ rd t (dmaErrDir d) = 1 ∧ rd t (dmaErrRing d) = 0 ∧
        t.outs = s.outs.filter (fun x => x.xid != o.xid)) ∧
    (∀ d, (dmaOf s d).msiDue = true → dmaWaits s d = false → ∃ t, exec (.statusWriteAck d) s = .next t ∧ (dmaOf t d).msiDue = false ∧
      (dmaOf t d).msis = (dmaOf s d).msis ++ [(rd s (dmaMsiAddrAddr d) / 8 * 8, rd s (dmaMsiDataData d))] ∧
      ∀ p, p ≠ .dma → samePart p s t) ∧
    (∀ d, (dmaOf s d).msiDue = false → exec (.statusWriteAck d) s = .next s) ∧
    (∀ d q k dir off, d < 64 → dmaPriv d = false → (dmaOf s d).desc = some q → (dmaOf s d).bad = none →
      (dmaOf s d).aborting = false → off < q.len → ∃ t, exec (.dmaBusError d k dir off) s = .next t ∧
        (dmaOf t d).bad = some (k, dir, off) ∧ dmaState t d = dmaState s d ∧ rd t (dmaErrKind d) = k % 16 ∧
        rd t (dmaErrDir d) = dir % 2 ∧ rd t (dmaErrRing d) = 0 ∧ rd t (dmaErrBeat d) = beat s % 2 ^ 32 ∧ samePart .ras s t) ∧
    (∀ d k dir off, (dmaOf s d).desc = none ∨ (dmaOf s d).bad ≠ none → exec (.dmaBusError d k dir off) s = .next s) ∧
    (∀ d, d < 64 → dmaPriv d = false → dmaState s d = 3 ∨ dmaState s d = 4 ∨ dmaState s d = 8 →
      ∃ t, exec (.dmaRingFault d) s = .next t ∧ dmaState t d = 7 ∧ rd t (dmaErrKind d) = 5 ∧ rd t (dmaErrRing d) = 1 ∧
        rd t (dmaErrDir d) = (dmaOf s d).desc.isSome.toNat ∧ (dmaOf t d).desc = none ∧
        (dmaOf t d).msis = (dmaOf s d).msis ++ (if rdB s (dmaCtrlIrqEn d)
          then [(rd s (dmaMsiAddrAddr d) / 8 * 8, rd s (dmaMsiDataData d))] else [])) ∧
    (∀ i c, i < 260 → takenAs s i 0x0901 c → ∃ t e k x d cl, e = min 1 (arg c 0 1) ∧ k = min 27 (arg c 1 1) ∧
      x = (if 1 ≤ i ∧ i ≤ 256 then 0 else min 256 (arg c 2 2)) ∧ d = e * 32 + k ∧
      cl = chg (arg c 0 1) e + chg (arg c 1 1) k + chg (arg c 2 2) x ∧ exec (.dmaAssign i) s = .next t ∧ samePart .dma s t ∧
      (1 ≤ i → i ≤ 256 → rd s (dmaStatusOwner d) ≠ i →
        doneIn s t i cl (mkBytes [(0, 1, e), (1, 1, k), (2, 2, x), (4, 1, 4), (8, 8, 0)])) ∧
      (i = 0 ∨ 256 < i ∨ rd s (dmaStatusOwner d) = i → dmaState s d ≠ 1 →
        doneIn s t i cl (mkBytes [(0, 1, e), (1, 1, k), (2, 2, x), (4, 1, 1), (8, 8, 0)])) ∧
      (i = 0 ∨ 256 < i ∨ rd s (dmaStatusOwner d) = i → dmaState s d = 1 → x = 0 ∨ (tenantOf s x).st = .opened →
        isSealed s (rd s (dmaStatusOwner d)) = false → goesOn t i ∧ t.journal = s.journal ++ [⟨i, beat s + 1, .dmaOwner d x⟩,
          ⟨i, beat s + 1, .stage i cl (mkBytes [(0, 1, e), (1, 1, k), (2, 2, x), (4, 1, 0), (8, 8, beat s + 1)])⟩])) ∧
    (∀ i c, i < 260 → takenAs s i 0x0902 c → ∃ t e k d cl, e = min 1 (arg c 0 1) ∧ k = min 31 (arg c 1 1) ∧
      d = e * 32 + k ∧ cl = chg (arg c 0 1) e + chg (arg c 1 1) k ∧ exec (.dmaStatus i) s = .next t ∧
      (1 ≤ i → i ≤ 256 → dmaPriv d = true ∨ rd s (dmaStatusOwner d) ≠ i →
        doneIn s t i cl (mkBytes [(0, 1, e), (1, 1, k), (2, 1, 0xFF)])) ∧
      (i = 0 ∨ 256 < i → doneIn s t i cl (mkBytes [(0, 1, e), (1, 1, k), (2, 1, rd s (dmaSnapStateState d)),
        (4, 2, rd s (dmaStatusOwner d)), (6, 2, rd s (dmaSnapStateHead d)), (8, 4, rd s (dmaStatusBadCount d)),
        (0x10, 8, rd s (dmaSnapTotalTotal d)), (0x18, 8, rd s (dmaSnapBeatBeat d))]))))

/-- R305: a privileged channel has no pause. A stop lets the descriptor in progress complete and its status be written, and
the channel is stopped before the next one; a halt before then comes first, and the stop applies after the resume. -/
def Obligations.PrivilegedDmaChannelsStop : Prop :=
  ∀ (s : State) (d tag : Nat), d < 64 → dmaPriv d = true → dmaReach s tag d = true →
    (exec (.dmaPauseSet tag d) s = .next s ∧ exec (.dmaPauseClear tag d) s = .next s) ∧
    (∃ t, exec (.dmaStop tag d) s = .next t ∧ rd t (dmaCtrlStop d) = 1 ∧ samePart .dma s t ∧
      otherFields [dmaCtrlStop d, dmaStatusState d] s t ∧
      (dmaState s d = 3 → (dmaOf s d).desc ≠ none → dmaState t d = 8) ∧
      (dmaState s d = 3 → (dmaOf s d).desc = none → dmaState t d = 9) ∧ (dmaState s d = 2 → dmaState t d = 9) ∧
      (dmaState s d ≠ 2 → dmaState s d ≠ 3 → dmaState t d = dmaState s d)) ∧
    (∀ q w s0 old s1, dmaState s d = 8 → (dmaOf s d).desc = some q → (dmaOf s d).aborting = false →
      (dmaOf s d).done = q.len ∨ (dmaOf s d).bad ≠ none → dmaWaits s d = false → w = (⟨statusOff, q.at' + 0x18, 8, statusWord q (dmaOf s d).bad⟩ : DmaWr) →
      dmaNeeds d w s = (s0, some old) → dmaWrite d w old (dmaEndReads d s0) = (s1, none) →
      ∃ t, exec (.descriptorComplete d) s = .next t ∧ dmaState t d = 9 ∧ (dmaOf t d).desc = none ∧
        rd t (dmaHeadHead d) = (headOf s d + 1) % ringSize s d % 2 ^ 16 ∧ samePart .mem s1 t ∧ samePart .slices s1 t) ∧
    (∀ far, dmaState s d = 9 → exec (.descriptorFetched d far) s = .next s) ∧
    (∀ q k dir off, dmaState s d = 8 → (dmaOf s d).desc = some q → (dmaOf s d).bad = none → (dmaOf s d).aborting = false →
      off < q.len → ∃ t, exec (.dmaBusError d k dir off) s = .next t ∧ dmaState t d = 6 ∧
        rd t (dmaCtrlStop d) = rd s (dmaCtrlStop d) ∧ (dmaOf t d).bad = some (k, dir, off) ∧
        recordedIn 2 6 d 0x0601 s t) ∧
    (dmaState s d = 6 → rdB s (dmaCtrlStop d) = true →
      (∃ t, exec (.dmaResumeRetry tag d) s = .next t ∧ dmaState t d = 8 ∧ (dmaOf t d).bad = none ∧
        (dmaOf t d).desc = (dmaOf s d).desc) ∧
      (∀ q w s0 old s1, (dmaOf s d).desc = some q → w = (⟨statusOff, q.at' + 0x18, 8, statusWord q (dmaOf s d).bad⟩ : DmaWr) →
        dmaNeeds d w (setDmaState d 8 s) = (s0, some old) → dmaWrite d w old (dmaEndReads d s0) = (s1, none) →
        ∃ t, exec (.dmaResumeMarkBad tag d) s = .next t ∧ dmaState t d = 9 ∧ (dmaOf t d).desc = none ∧
          samePart .mem s1 t))

/-! ## Mailboxes and the Toss -/

/-- DOORBELL, RESULT_ACK and NOTICE_ACK (R30, R336, R337, R349), MCTP_REQUEST and I3C_TRANSFER_TIMEOUT (R352), TOKEN_PASS,
BRIDGE_LOST and PEER_POWER_LOST (R328, R329, R332, R372): a pass of the token is step 1 of the next boundary (R40). -/
def Obligations.MailboxFieldsAndTheToken : Prop :=
  ∀ s : State,
    (∀ tag i size v, i < 260 → tag ≠ i ∨ (i = 259 ∧ enabled s 0 = false) → ∀ c ∈ [Instr.doorbell tag i, .resultAck tag i size v, .noticeAck tag i size v],
      ∃ t, exec c s = .next t ∧ recordedIn 5 11 0 0x0B01 s t ∧ samePart .mbx s t ∧ otherFields irqFields s t) ∧
    (∀ i, i < 260 → (i = 259 → enabled s 0 = true) → rd s (mbxStatState i) = 0 ∨ rd s (mbxStatState i) = 3 → ∃ t, exec (.doorbell i i) s = .next t ∧
      rd t (mbxStatState i) = 1 ∧ rd t (mbxSeqSeq i) = (rd s (mbxSeqSeq i) + 1) % 2 ^ 64 ∧
      (mbxOf t i).copy = putLE (mbxOf s i).cmd 0x400 8 0 ∧ (mbxOf t i).latched = beat s ∧ (mbxOf t i).res = {} ∧
      (∀ k, k ≠ i → mbxOf t k = mbxOf s k) ∧
      (s.toss.holder = none → otherFields [mbxStatState i, mbxSeqSeq i] s t) ∧
      ∀ x, s.toss.holder = some x → x < 2 → otherFields ([mbxStatState i, mbxSeqSeq i] ++ irqFields) s t ∧
        ∀ c ∈ complexCores x, clkLive s c = true → inMask (rd t (clerkIpPending c)) 2 = true) ∧
    (∀ i, i < 260 → (i = 259 → enabled s 0 = true) → rd s (mbxStatState i) = 1 ∨ rd s (mbxStatState i) = 2 → ∃ t, exec (.doorbell i i) s = .next t ∧
      counted (mbxStatDropped i) 1 s t ∧ otherFields [mbxStatDropped i] s t ∧ (mbxOf t i).copy = (mbxOf s i).copy ∧
      (mbxOf t i).phase = (mbxOf s i).phase) ∧
    (∀ i v, i < 260 → (i = 259 → enabled s 0 = true) → rd s (mbxStatState i) = 3 → v = (mbxOf s i).res.seq → ∃ t, exec (.resultAck i i 8 v) s = .next t ∧
      rd t (mbxStatState i) = 0 ∧ (mbxOf t i).res = {} ∧ otherFields [mbxStatState i] s t) ∧
    (∀ i v, i < 260 → (i = 259 → enabled s 0 = true) → rd s (mbxStatState i) ≠ 3 ∨ v ≠ (mbxOf s i).res.seq → ∃ t, exec (.resultAck i i 8 v) s = .next t ∧
      (mbxOf t i).res = (mbxOf s i).res ∧ samePart .regs s t) ∧
    (∀ i v, i < 260 → (i = 259 → enabled s 0 = true) → exec (.resultAck i i 4 v) s = .next s ∧ exec (.noticeAck i i 4 v) s = .next s) ∧
    (∀ i v, i < 260 → (i = 259 → enabled s 0 = true) → ∃ t, exec (.noticeAck i i 8 v) s = .next t ∧ samePart .regs s t ∧
      (mbxOf t i).effAck = (if (mbxOf s i).produced < v then (mbxOf s i).produced else if v < (mbxOf s i).effAck
        then (mbxOf s i).effAck else v) ∧ (mbxOf t i).entries = (mbxOf s i).entries) ∧
    (∀ code args, targetUp s = false → exec (.mctpRequest code args) s = .next s) ∧
    (∀ code args, targetUp s = true → clerkServes s = false → ∃ t, exec (.mctpRequest code args) s = .next t ∧
      t.chip.i3cAns = some (5, 0, mkBytes [(0x800, 1, 5), (0x804, 4, code), (0x840, 8, statusWord14 s.boot)]) ∧
      ∀ p, p ≠ .chip → samePart p s t) ∧
    (∀ code args, targetUp s = true → clerkServes s = true → (mbxOf s 257).i3cBusy = true →
      ∃ t ans, exec (.mctpRequest code args) s = .next t ∧ t.chip.i3cAns = some (1, rd s (mbxSeqSeq 257), ans) ∧
        ∀ p, p ≠ .chip → samePart p s t) ∧
    (∀ code args, targetUp s = true → clerkServes s = true → (mbxOf s 257).i3cBusy = false →
      rd s (mbxStatState 257) = 0 ∨ rd s (mbxStatState 257) = 3 → ∃ t, exec (.mctpRequest code args) s = .next t ∧
        rd t (mbxStatState 257) = 1 ∧ rd t (mbxSeqSeq 257) = (rd s (mbxSeqSeq 257) + 1) % 2 ^ 64 ∧
        argCode (mbxOf t 257).copy = code % 2 ^ 32 ∧ (mbxOf t 257).i3cBusy = true ∧ t.chip.i3cAns = none) ∧
    (∀ scl pkt ok, 25 < scl ∨ (100 < pkt ∧ ok = false) → ∃ t, exec (.i3cTransferTimeout scl pkt ok) s = .next t ∧
      t.chip.i3cAns = none ∧ ∀ p, p ≠ .chip → samePart p s t) ∧
    (∀ scl pkt, scl ≤ 25 → exec (.i3cTransferTimeout scl pkt true) s = .next s) ∧
    (∀ x b e, s.toss.pass = some (x, b, e) → b ≤ beat s → x < 2 → s.toss.holder = some (1 - x) →
      ∃ t, t = applyAct s .tokenPass ∧ t.toss.holder = some x ∧ t.toss.pass = none ∧ rd t mbxGlobalSenior = x ∧
        rd t clkStatusBeatMaster = x ∧ counted mbxGlobalFailovers 1 s t ∧ (cplxOf t (1 - x)).fenced = true ∧
        t.assayer.tile = some x ∧ t.assayer.taking = some (beat s) ∧ t.assayer.hung = false ∧
        (∀ c, c < 8 → rd t (clerkTossSenior c) = (if c / 4 = x then 1 else 0))) ∧
    (s.toss.pass ≠ none → ∃ t, exec .tokenPass s = .next t ∧ t.due = s.due ++ [⟨beat s + 1, 1, .tokenPass⟩] ∧
      ∀ p, p ≠ .due → samePart p s t) ∧
    (s.toss.pass = none → exec .tokenPass s = .next s) ∧
    (∀ x y, s.toss.holder = some x → x < 2 → 2 ≤ s.toss.bridge → s.toss.pgLow = [] → s.toss.dead = false →
      y = (if s.toss.northOk then 0 else x) → ∃ t, exec .bridgeLost s = .next t ∧ t.toss.dead = true ∧
        (y = x → t.toss.pass = s.toss.pass) ∧ (y ≠ x → t.toss.pass = some (y, beat s + 1, 4)) ∧
        t.due = s.due ++ [⟨beat s + 1, 2, .fenceHalf (1 - y)⟩] ∧ recordedIn 2 9 2 0x0901 s t ∧
        t.toss.holder = s.toss.holder) ∧
    (s.toss.bridge < 2 ∨ s.toss.pgLow ≠ [] → exec .bridgeLost s = .next s) ∧
    (∀ x, s.toss.holder = some x → x ∈ s.toss.pgLow → 1 ≤ tget 0 s.toss.misses x → s.toss.pass = none →
      ∃ t, exec .peerPowerLost s = .next t ∧ t.toss.pass = some (1 - x, beat s + 1, 6) ∧
        t.due = s.due ++ [⟨beat s + 1, 2, .fenceHalf x⟩] ∧ samePart .regs s t ∧ t.toss.holder = some x) ∧
    (∀ x, s.toss.holder = some x → x ∉ s.toss.pgLow → exec .peerPowerLost s = .next s)

/-! ## The Assayer, debug and the TAP -/

/-- ASSAYER_HANG, HOLD_LIMIT, STANDBY_READY and STANDBY_TIMEOUT (R369, R371, R372); DEBUG_TOKEN_ACCEPT and ZEROIZE_DONE (R366,
R367); the instructions of the TAP, each under its enable (R437, R438). -/
def Obligations.AssayerDebugAndTap : Prop :=
  ∀ s : State,
    (1000 ≤ s.assayer.absent → s.assayer.hung = false → ∃ t, exec .assayerHang s = .next t ∧ t.assayer.hung = true ∧
      t.assayer.taking = none ∧ t.assayer.gates = [] ∧ t.assayer.outage = some (beat s, 1) ∧
      (clkOf t (8 + assayerTile s)).sram = [] ∧ (clkOf t (8 + assayerTile s)).st = .inReset ∧
      (∀ d, tget 0 t.assayer.holds d = 0) ∧ (∀ d ∈ [30, 31, 62, 63], rd t (dmaCtrlStop d) = 1) ∧
      recordedIn 2 8 (assayerTile s) 0x0801 s t) ∧
    (s.assayer.absent < 1000 ∨ s.assayer.hung = true → exec .assayerHang s = .next s) ∧
    (∃ t, exec .holdLimit s = .next t ∧
      (∀ d k, (d, k) ∈ s.assayer.holds → k + 1999 ≤ beat s → tget 0 t.assayer.holds d = 0 ∧
        (d < 184 → rd t (pwrDomainHeld d) = 0)) ∧
      t.ras.platform.next = s.ras.platform.next + (s.assayer.holds.filter fun e => decide (e.2 + 1999 ≤ beat s)).length) ∧
    ((∀ d k, (d, k) ∈ s.assayer.holds → beat s < k + 1999) → exec .holdLimit s = .next s) ∧
    (∀ j, s.assayer.taking = some j → beat s ≤ j + 2000 → ∃ t, exec .standbyReady s = .next t ∧ t.assayer.taking = none ∧
      t.assayer.absent = 0 ∧ t.assayer.aliasUp = true ∧ t.assayer.outage = none ∧ t.assayer.hung = s.assayer.hung ∧
      samePart .regs s t) ∧
    (∀ j, s.assayer.taking = some j → j + 2000 < beat s → exec .standbyReady s = .next s) ∧
    (∀ j, s.assayer.taking = some j → j + 2000 ≤ beat s → ∃ t, exec .standbyTimeout s = .next t ∧ t.assayer.hung = true ∧
      t.assayer.taking = none ∧ t.assayer.outage = some (s.assayer.outage.getD (beat s, 2)) ∧
      recordedIn 2 8 (assayerTile s) 0x0801 s t) ∧
    (∀ j, s.assayer.taking = some j → beat s < j + 2000 → exec .standbyTimeout s = .next s) ∧
    (s.assayer.taking = none → exec .standbyReady s = .next s ∧ exec .standbyTimeout s = .next s) ∧
    (∀ k, s.assayer.token = some k → s.boot.headOk = true → ∃ t, exec .debugTokenAccept s = .next t ∧
      t.assayer.token = none ∧ t.assayer.enables = s.assayer.enables ∧
      (tokenGood s k = true → t.assayer.wanted = s.assayer.wanted ||| (k.enables % 16 &&& tokenMask s) ∧
        t.boot.hold = (s.boot.hold || (k.hold && decide (s.boot.step ≤ 3)))) ∧
      (tokenGood s k = false → t.assayer.wanted = s.assayer.wanted ∧ ∀ p, p ≠ .assayer → samePart p s t)) ∧
    (s.assayer.token = none ∨ s.boot.headOk = false → exec .debugTokenAccept s = .next s) ∧
    (∀ b, s.assayer.zeroing = some b → beat s ≤ b + 100 → ∃ t, exec .zeroizeDone s = .next t ∧ t.assayer.zeroing = none ∧
      t.assayer.zeroed = true ∧ t.assayer.debugAlias = true ∧ t.assayer.wanted = s.assayer.wanted ∧
      ∀ p, p ≠ .assayer → samePart p s t) ∧
    (s.assayer.zeroing = none → exec .zeroizeDone s = .next s) ∧
    (∃ t, exec .idcode s = .next t ∧ t.chip.tapIr = 0x01 ∧ ∀ p, p ≠ .chip → samePart p s t) ∧
    (∃ t, exec .samplePreload s = .next t ∧ t.chip.tapIr = 0x02 ∧ ∀ p, p ≠ .chip → samePart p s t) ∧
    (∃ t, exec .bypass s = .next t ∧ t.chip.tapIr = 0xFF ∧ ∀ p, p ≠ .chip → samePart p s t) ∧
    (∃ t, exec .dzDebug s = .next t ∧ t.chip.tapIr = (if enabled s 1 then 0x12 else 0xFF) ∧ ∀ p, p ≠ .chip → samePart p s t) ∧
    (∃ t, exec .dzAssayer s = .next t ∧ t.chip.tapIr = (if enabled s 2 then 0x13 else 0xFF) ∧ ∀ p, p ≠ .chip → samePart p s t) ∧
    (∃ t, exec .extest s = .next t ∧ pinsTaken 0x03 s t) ∧
    (∃ t, exec .clamp s = .next t ∧ pinsTaken 0x04 s t) ∧
    (∃ t, exec .highz s = .next t ∧ pinsTaken 0x05 s t) ∧
    (∀ k, ∃ t, exec (.dzToken k) s = .next t ∧ t.chip.tapIr = 0x10 ∧ t.assayer.token = some k ∧
      ∀ p, p ≠ .chip → p ≠ .assayer → samePart p s t) ∧
    (∀ off size v, enabled s 0 = false → ∃ t, exec (.dzMbx off size v) s = .next t ∧ t.chip.tapIr = 0xFF ∧
      ∀ p, p ≠ .chip → samePart p s t) ∧
    (∀ off size v, enabled s 0 = true → 0x10 ≤ off → off < 0x400 → size = 4 ∨ size = 8 → off % size = 0 →
      ∃ t, exec (.dzMbx off size v) s = .next t ∧ t.chip.tapIr = 0x11 ∧
        (mbxOf t 259).cmd = putLE (mbxOf s 259).cmd off size v ∧ ∀ p, p ≠ .chip → p ≠ .mbx → samePart p s t) ∧
    (∀ size v, enabled s 0 = true → size = 4 ∨ size = 8 → rd s (mbxStatState 259) = 0 → ∃ t,
      exec (.dzMbx 0x400 size v) s = .next t ∧ rd t (mbxStatState 259) = 1)

/-- The SPDM responder (R385): no responder answers while the Assayer is hung or not started, Busy while the standby takes
over, an error before the connection has reached the stage a request needs, else the answer. The number of a session is free
(log entry 8), and what signatures and keys are is not modelled (log entry 9). -/
def Obligations.SpdmResponder : Prop :=
  ∀ (s : State) (k : Nat),
    (9 ≤ k ∨ (1 ≤ k ∧ groupPresent s (k - 1) = false) → exec (.getVersion k) s = .next s ∧ exec (.getDigests k) s = .next s) ∧
    (k < 9 → k = 0 ∨ groupPresent s (k - 1) = true →
      (s.assayer.hung = true ∨ s.assayer.tile = none → ∀ i ∈ [Instr.getVersion k, .getCapabilities k,
          .negotiateAlgorithms k true, .getDigests k, .getCertificate k 0 0 64, .challenge k 0 0, .getMeasurements k 1 0,
          .keyExchange k 0 0, .finish k 0 true, .endSession k 0, .vendorDefinedRequest k 0x1F9D 0 0 64],
        ∃ t, exec i s = .next t ∧ spdmOf t k = { spdmOf s k with answer := none }) ∧
      (s.assayer.hung = false → s.assayer.tile ≠ none → s.assayer.taking ≠ none → ∀ i ∈ [Instr.getVersion k,
          .getCapabilities k, .getDigests k, .challenge k 0 0],
        ∃ t, exec i s = .next t ∧ spdmOf t k = { spdmOf s k with answer := some (.error 0x03) }) ∧
      (s.assayer.hung = false → s.assayer.tile ≠ none → s.assayer.taking = none →
        (∃ t, exec (.getVersion k) s = .next t ∧ (spdmOf t k).stage = 1 ∧ (spdmOf t k).session = none ∧
          (spdmOf t k).answer = some (.version [0x12, 0x13]) ∧ (∀ j, j ≠ k → spdmOf t j = spdmOf s j)) ∧
        ((spdmOf s k).stage = 0 → ∃ t, exec (.getCapabilities k) s = .next t ∧
          spdmOf t k = { spdmOf s k with answer := some (.error 0x04) }) ∧
        (1 ≤ (spdmOf s k).stage → ∃ t, exec (.getCapabilities k) s = .next t ∧ (spdmOf t k).answer = some .capabilities ∧
          (spdmOf t k).stage = max 2 (spdmOf s k).stage) ∧
        (2 ≤ (spdmOf s k).stage →
          (∃ t, exec (.negotiateAlgorithms k true) s = .next t ∧ (spdmOf t k).answer = some .algorithms ∧
            (spdmOf t k).stage = 3) ∧
          (∃ t, exec (.negotiateAlgorithms k false) s = .next t ∧
            spdmOf t k = { spdmOf s k with answer := some (.error 0x01) })) ∧
        ((spdmOf s k).stage < 3 → ∀ i ∈ [Instr.getDigests k, .getCertificate k 0 0 64, .challenge k 0 0,
            .getMeasurements k 1 0, .finish k 0 true, .endSession k 0, .vendorDefinedRequest k 0x1F9D 0 0 64],
          ∃ t, exec i s = .next t ∧ spdmOf t k = { spdmOf s k with answer := some (.error 0x04) }) ∧
        (3 ≤ (spdmOf s k).stage →
          (∃ t, exec (.getDigests k) s = .next t ∧
            (spdmOf t k).answer = some (.digests (Config.sha384 (Config.certChain (cdi1 s))))) ∧
          (∀ slot off len, ∃ t, exec (.getCertificate k slot off len) s = .next t ∧ (spdmOf t k).answer = some
            (if slot = 0 then .certificate (((Config.certChain (cdi1 s)).drop off).take len) else .error 0x01)) ∧
          (∀ nonce, ∃ t, exec (.challenge k 0 nonce) s = .next t ∧
            (spdmOf t k).answer = some (.challengeAuth (Config.sign (aliasKey s 1) (bytesOf 32 nonce)))) ∧
          (∀ index nonce, ∃ t, exec (.getMeasurements k index nonce) s = .next t ∧
            (measList s index = [] → (spdmOf t k).answer = some (.error 0x01)) ∧
            (measList s index ≠ [] → ∃ sig, (spdmOf t k).answer = some (.measurements (measList s index) sig))) ∧
          (∀ secret, ∃ t n sig, exec (.keyExchange k 0 secret) s = .next t ∧ n < 2 ^ 32 ∧ (spdmOf t k).session = some n ∧
            (spdmOf t k).finished = false ∧ (spdmOf t k).answer = some (.keyExchangeRsp n sig)) ∧
          (∀ n, (spdmOf s k).session = some n →
            (∃ t, exec (.finish k n true) s = .next t ∧ (spdmOf t k).answer = some .finishRsp ∧
              (spdmOf t k).finished = true) ∧
            (∃ t, exec (.finish k n false) s = .next t ∧ (spdmOf t k).answer = some (.error 0x01) ∧
              (spdmOf t k).finished = (spdmOf s k).finished) ∧
            ((spdmOf s k).finished = true → ∃ t, exec (.endSession k n) s = .next t ∧ (spdmOf t k).session = none ∧
              (spdmOf t k).answer = some .endSessionAck)) ∧
          (∀ vendor counter off len, ∃ t, exec (.vendorDefinedRequest k vendor counter off len) s = .next t ∧
            (spdmOf t k).answer = some (if vendor = 0x1F9D then vendorPart s counter off len else .error 0x07)))))

/-! ## Commands that report, and tests -/

/-- INVENTORY_LIST, TIME_GET, TIME_SET, RAS_READ, DAYBOOK_STATUS, DAYBOOK_READ and DAYBOOK_ATTEST (R356 to R358, R386, R387). -/
def Obligations.ReportingCommands : Prop :=
  ∀ (s : State) (i : Nat) (c : Bytes), i < 260 →
    (takenAs s i 0x0101 c → ∃ t data, exec (.inventoryList i) s = .next t ∧ doneIn s t i 0 data ∧ getLE data 0 1 = variantCode (vOf s) ∧
      getLE data 1 1 = invFlags s % 256 ∧ getLE data 2 1 = (freeLiberos s).length % 256 ∧ getLE data 4 2 = reasons s % 65536 ∧
      getLE data 0xE8 2 = hartCount s % 65536 ∧ getLE data 0xF0 8 = dimmBytes s % 2 ^ 64 ∧
      getLE data 0xF8 8 = mappedBytes s % 2 ^ 64 ∧ ∀ p, p ≠ .mbx → samePart p s t) ∧
    (takenAs s i 0x0B01 c → ∃ t, exec (.timeGet i) s = .next t ∧ (∀ p, p ≠ .mbx → samePart p s t) ∧
      doneIn s t i 0 (mkBytes [(0, 8, beat s), (8, 8, now s),
        (0x10, 2, rd s clkStatusRefSel + 2 * rd s clkStatusRefaOk + 4 * rd s clkStatusRefbOk + 8 * rd s clkStatusHoldover +
          16 * rd s clkStatusBeatMaster + 32 * rd s clkStatusFabAligned + 64 * rd s clkStatusSlewing +
          128 * rd s clkStatusAoSource + 256 * rd s clkStatusCaptain),
        (0x18, 8, rd s clkUncertTotalTotalNs), (0x20, 8, rd s clkSlewRemainLeadNs)])) ∧
    (takenAs s i 0x0B02 c → ∃ t w x, w = arg c 0 8 ∧ x = min 0x7FFFFFFFFFFFFFF8 (w / 10 * 10) ∧
      exec (.timeSet i) s = .next t ∧ now t = now s ∧
      (x ≤ nextTime s → t.time.setNext = s.time.setNext ∧
        doneIn s t i (chg w (nextTime s)) (mkBytes [(0, 8, nextTime s), (8, 1, 1)])) ∧
      (nextTime s < x → goesOn t i ∧ t.time.setNext = some x ∧
        t.journal = s.journal ++ [⟨i, beat s + 1, .stage i (chg w x) (mkBytes [(0, 8, x), (0x10, 8, beat s + 1)])⟩])) ∧
    (takenAs s i 0x0A01 c → ∃ t w n lim old cur, ∃ out : List RasRec, w = arg c 0 8 ∧ n = clampR 1 14 (arg c 8 1) ∧
      lim = readLimit s (logOf s i) ∧
      old = (match readableRecs s (logOf s i) with | r :: _ => r.seq | [] => lim) ∧
      cur = (if w = 0 then old else clampR old lim w) ∧
      out = ((readableRecs s (logOf s i)).filter fun r => decide (cur ≤ r.seq)).take n ∧ exec (.rasRead i) s = .next t ∧
      (logOf t i).recs = (logOf s i).recs ∧ (∀ r ∈ out, r.seq ∈ (logOf t i).read) ∧
      doneIn s t i ((if w = 0 then 0 else chg w cur) + chg (arg c 8 1) n)
        (mkBytes ([(0, 8, cur), (8, 8, cur + out.length), (0x10, 1, out.length), (0x18, 8, (logOf s i).lost)] ++
          (out.zipIdx.flatMap fun (r, j) => recBytes (0x40 + 0x40 * j) r)))) ∧
    (takenAs s i 0x0C01 c → ∃ t data, exec (.daybookStatus i) s = .next t ∧ doneIn s t i 0 data ∧
      getLE data 0 8 = statusWord14 s.boot % 2 ^ 64 ∧ getLE data 0x18 48 = headDigest s % 2 ^ 384 ∧
      getLE data 0x48 1 = assayerState s ∧ getLE data 0x4C 4 = (openEvents s).length % 2 ^ 32 ∧
      getLE data 0x50 8 = (s.assayer.outage.map (·.1)).getD 0 % 2 ^ 64 ∧ ∀ p, p ≠ .mbx → samePart p s t) ∧
    (takenAs s i 0x0C02 c → ∃ t, exec (.daybookRead i) s = .next t ∧ sameFlash s t ∧
      (nearestRecord s.boot (arg c 0 8) = none →
        doneIn s t i 0 (mkBytes [(0x12, 1, if s.boot.readA ∨ s.boot.readB then 0 else 2)])) ∧
      (∀ r, nearestRecord s.boot (arg c 0 8) = some r → servedBy s.boot r = 2 → ∃ cl off, doneIn s t i cl
        (mkBytes [(0, 8, r.counter), (8, 4, off), (0xC, 4, r.bytes.length), (0x10, 2, 0), (0x12, 1, 2)])) ∧
      (∀ r, nearestRecord s.boot (arg c 0 8) = some r → servedBy s.boot r ≠ 2 → arg c 8 4 < r.bytes.length →
        1 ≤ arg c 0xC 2 → arg c 0xC 2 ≤ 896 → arg c 8 4 + arg c 0xC 2 ≤ r.bytes.length → ∃ cl, doneIn s t i cl
        (mkBytes ([(0, 8, r.counter), (8, 4, arg c 8 4), (0xC, 4, r.bytes.length), (0x10, 2, arg c 0xC 2),
          (0x12, 1, servedBy s.boot r)] ++
          ((r.bytes.drop (arg c 8 4)).take (arg c 0xC 2)).zipIdx.map fun (x, j) => (0x20 + j, 1, x))))) ∧
    (takenAs s i 0x0C03 c → ∃ t n dst cl, n = clampR 16 64 (arg c 0x40 1) ∧ dst = roundDown 4096 (arg c 0x48 8) ∧
      cl = chg (arg c 0x40 1) n + chg (arg c 0x48 8) dst ∧ exec (.daybookAttest i) s = .next t ∧ samePart .mem s t ∧
      (rangeOwned s (callerOf i) dst 0x4000 = false → doneIn s t i cl (mkBytes [(0, 8, dst), (8, 1, n), (9, 1, 1)])) ∧
      (rangeOwned s (callerOf i) dst 0x4000 = true → goesOn t i ∧ t.journal = s.journal ++
        [⟨i, beat s + 1, .attest i cl dst ((List.range n).map fun j => arg c j 1)⟩]))

/-- TEST_END and INJECTION_EXPIRY; TEST_BIST, TEST_LOOPBACK, TEST_INJECT and TEST_STATUS (R429, R430, R433, R435, R436, R439). -/
def Obligations.TestCommands : Prop :=
  ∀ s : State,
    (∀ id r, tget none s.tests id = none → exec (.testEnd id r) s = .next s) ∧
    (∀ id r k e, tget none s.tests id = some k → k.ended = some e → exec (.testEnd id r) s = .next s) ∧
    (∀ id r k, tget none s.tests id = some k → k.ended = none → k.kind = 2 → k.target ≠ 1 → k.mode ≠ 4 →
      k.start + k.dur ≤ beat s → k.switched = [] → ∃ t u, exec (.testEnd id r) s = .next t ∧ tget none t.tests id = some u ∧
        u.ended = some (beat s) ∧ u.start = k.start ∧
        u.outcome = (if (k.mode = 2 ∨ r.logic = true) ∧ (k.mode = 1 ∨ r.memory = true) then 0 else 1) ∧
        samePart .regs s t ∧ (∀ j, j ≠ id → tget none t.tests j = tget none s.tests j)) ∧
    (∀ id r k, tget none s.tests id = some k → k.ended = none → k.kind = 2 → k.target ≠ 1 → k.mode ≠ 4 →
      k.start + k.dur ≤ beat s → (∀ j e, (j, some e) ∈ s.tests → j ≠ id → e.ended ≠ none) → (s.tests.map (·.1)).Nodup →
      ∃ t, exec (.testEnd id r) s = .next t ∧ samePart .regs s t ∧
        t.due = s.due ++ k.switched.reverse.map fun d => ⟨beat s, 4, .switch d false⟩) ∧
    (∀ id r k, tget none s.tests id = some k → k.ended = none → k.kind = 2 → k.target = 3 → k.mode = 4 → k.unit < 16 →
      rd s (mcPatrolReason k.unit) = 2 → k.start ≤ beat s → rd s (mcPatrolRunning k.unit) = 0 ∨ k.start + k.dur ≤ beat s →
      ∃ t, exec (.testEnd id r) s = .next t ∧ rd t (mcPatrolRunning k.unit) = 0 ∧ rd t (mcPatrolReason k.unit) = 0) ∧
    (∀ id r k, tget none s.tests id = some k → k.ended = none → k.kind = 1 → k.target = 3 → k.start + k.dur ≤ beat s →
      k.switched = [] → ∃ t u, exec (.testEnd id r) s = .next t ∧ tget none t.tests id = some u ∧ u.ended = some (beat s) ∧
        u.bits = r.bits ∧ ((∃ x ∈ r.errors, x ≠ 0) → u.outcome = 1) ∧ ((∀ x ∈ r.errors, x = 0) → u.outcome = 0)) ∧
    (∀ x u a, tget none s.armed (armKey x u) = some a → a.beat + 1000000 ≤ beat s →
      ∃ t, exec (.injectionExpiry x u) s = .next t ∧ tget none t.armed (armKey x u) = none ∧ samePart .regs s t ∧
        (x = 1 → (pairOf t u).injectB = none)) ∧
    (∀ x u, tget none s.armed (armKey x u) = none → exec (.injectionExpiry x u) s = .next s) ∧
    (∀ i c, i < 260 → takenAs s i 0x0D02 c → ∃ t g u m o, g = (if 1 ≤ arg c 0 1 ∧ arg c 0 1 ≤ 6 then arg c 0 1 else 1) ∧
      u = clampTestUnit s g (arg c 1 1) ∧
      m = (if arg c 2 1 = 1 ∨ arg c 2 1 = 2 ∨ arg c 2 1 = 3 ∨ (arg c 2 1 = 4 ∧ g = 3) then arg c 2 1 else 3) ∧
      o = testAdmit s 2 g u (bistTestable s g u m) ∧ exec (.testBist i) s = .next t ∧
      (o.1 ≠ 0 → samePart .tests s t ∧
        ∃ cl, doneIn s t i cl (mkBytes [(0, 1, g), (1, 1, u), (2, 1, m), (0x18, 1, o.1)])) ∧
      (o.1 = 0 → goesOn t i ∧ (⟨i, beat s + 1, .testStart i o.2⟩ : JStep) ∈ t.journal ∧ ∃ k, tget none t.tests o.2 = some k ∧
        k.kind = 2 ∧ k.target = g ∧ k.unit = u ∧ k.mode = m ∧ k.start = beat s + 1 ∧ k.dur = bistBeats g m ∧
        k.ended = none)) ∧
    (∀ i c, i < 260 → takenAs s i 0x0D01 c → arg c 0 1 = 4 → ∃ t u o, u = min 1 (arg c 1 1) ∧
      o = testAdmit s 1 4 u true ∧ exec (.testLoopback i) s = .next t ∧
      (o.1 ≠ 0 → samePart .tests s t ∧ samePart .journal s t) ∧
      (o.1 = 0 → goesOn t i ∧ (⟨i, beat s + 1, .testStart i o.2⟩ : JStep) ∈ t.journal ∧ ∃ k, tget none t.tests o.2 = some k ∧
        k.kind = 1 ∧ k.target = 4 ∧ k.unit = u ∧ k.mode = 1 ∧ k.dur = clampR 1 1000000 (arg c 8 4))) ∧
    (∀ i c, i < 260 → takenAs s i 0x0D03 c → arg c 0 1 = 2 → ∃ t u k o, u = clampTestUnit s 2 (arg c 1 1) ∧
      k = clampEnum 3 0 (arg c 2 1) ∧ o = injectOutcome s 2 u (arg c 3 1) ∧ exec (.testInject i) s = .next t ∧
      (o ≠ 0 → samePart .armed s t ∧ ∃ cl, doneIn s t i cl
        (mkBytes [(0, 1, 2), (1, 1, u), (2, 1, k), (3, 1, arg c 3 1), (4, 1, o)])) ∧
      (o = 0 → tget none t.armed (armKey 2 u) = some ⟨k, arg c 3 1, beat s⟩ ∧ ∃ cl, doneIn s t i cl
        (mkBytes [(0, 1, 2), (1, 1, u), (2, 1, k), (3, 1, arg c 3 1),
          (4, 1, if (tget none s.armed (armKey 2 u)).isSome then 3 else 0)]))) ∧
    (∀ i c, i < 260 → takenAs s i 0x0D04 c → ∃ t id cl, id = min 7 (arg c 0 1) ∧ cl = chg (arg c 0 1) id ∧
      exec (.testStatus i) s = .next t ∧
      (tget none s.tests id = none → samePart .tests s t ∧ doneIn s t i cl (mkBytes [(0, 1, id)])) ∧
      (∀ k e, tget none s.tests id = some k → k.ended = some e →
        tget none t.tests id = some { k with reported := true } ∧
        doneIn s t i cl (mkBytes ([(0, 1, id), (1, 1, k.kind), (2, 1, 2), (3, 1, k.outcome), (4, 1, k.target), (5, 1, k.unit),
          (6, 1, k.mode), (8, 8, k.start), (0x10, 8, e), (0x18, 8, k.bits), (0x20, 8, k.first), (0x28, 4, k.detail)] ++
          k.errors.zipIdx.map fun (v, n) => (0x40 + 4 * n, 4, v)))) ∧
      (∀ k, tget none s.tests id = some k → k.ended = none → samePart .tests s t ∧ ∃ data, doneIn s t i cl data ∧
        (k.errors = [] → getLE data 2 1 = 1 ∧ getLE data 3 1 = 0)))

/-! ## Package power -/

/-- DROWSE_GATE_START, DROWSE_GATE_DONE and GATED_PAIR_WAKE (R400, R401); IDLE_TIMER_EXPIRY, SLEEP_REQUEST,
DORMANT_DRAINS_DONE, I3C_WAKE_MATCH, WAKE_REFERENCE_GOOD, WAKE_COMPLETE and PWR_PADS_RELEASE (R48 to R50, R402 to R410). -/
def Obligations.DrowseAndDormant : Prop :=
  ∀ s : State,
    (∀ p, mayGate s p = true → (pairOf s p).gating = false → ∃ t, exec (.drowseGateStart p) s = .next t ∧
      (pairOf t p).gating = true ∧ (pairOf t p).saved = (pairOf s p).saved ∧ ∀ q, q ≠ .pairs → samePart q s t) ∧
    (∀ p, mayGate s p = false → exec (.drowseGateStart p) s = .next s) ∧
    (∀ p u, (pairOf s p).gating = true → (pairOf s p).saved = false → u = drainTrips (2 * p) s → inSparing u p = false →
      ∃ t, exec (.drowseGateDone p) s = .next t ∧ (pairOf t p).saved = true ∧ (⟨beat s + 1, 4, .gatePair p⟩ : Due) ∈ t.due) ∧
    (∀ p u, (pairOf s p).gating = true → (pairOf s p).saved = false → u = drainTrips (2 * p) s → inSparing u p = true →
      exec (.drowseGateDone p) s = .next (modPair p (fun q => { q with gating := false }) u)) ∧
    (∀ p, (pairOf s p).gating = false → exec (.drowseGateDone p) s = .next s) ∧
    (∀ p, domState s p = 3 → pairWaked s p = true → (pairOf s p).restoreAt = none →
      ∃ t, exec (.gatedPairWake p) s = .next t ∧ (pairOf t p).restoreAt = some (beat s + 4) ∧
        t.due = s.due ++ [⟨beat s + 1, 4, .switch p true⟩, ⟨beat s + 4, 5, .ungate p⟩] ∧ samePart .regs s t) ∧
    (∀ p, pairWaked s p = false → exec (.gatedPairWake p) s = .next s) ∧
    (rd s pwrIdleIdleBeats ≠ 0 → rd s pwrIdleIdleBeats ≤ rd s pwrIdleCount → sleepOutcome s = 0 → s.power.sleep = .none →
      ∃ t, exec .idleTimerExpiry s = .next t ∧ t.power.sleep = .asked ∧ t.power.entryB = beat s ∧ t.power.mbx = none ∧
        rd t pwrStatusPkgState = 3 ∧ rd t pwrStatusLastEntry = 2 ∧ otherFields [pwrStatusPkgState, pwrStatusLastEntry] s t) ∧
    (rd s pwrIdleIdleBeats = 0 ∨ sleepOutcome s ≠ 0 → exec .idleTimerExpiry s = .next s) ∧
    (s.power.sleep = .asked → s.power.entryB < beat s → anyHeld s = false → s.outs = [] → upPorts s = [] → runningTests s = [] →
      ∃ t, exec .sleepRequest s = .next t ∧ t.power.sleep = .asleep ∧ t.power.entryB = beat s - 1 ∧
        t.power.stopped = (startedHarts s).filter (fun h => (hartOf s h).st == .running) ∧
        (∀ h ∈ t.power.stopped, (hartOf t h).st = .stopped ∧ (hartOf t h).x = (hartOf s h).x ∧
          (hartOf t h).pc = (hartOf s h).pc) ∧
        (∀ k ∈ t.power.ports, rd t (fabPortStatusState k) = 7 ∧ (fportOf t k).oos = true)) ∧
    (s.power.sleep ≠ .asked ∨ anyHeld s = true → exec .sleepRequest s = .next s) ∧
    (∀ ns phase, s.power.sleep = .asleep → s.power.wakeSrc = 0 → doorbell257 s = false → s.power.entryB + 1001 ≤ beat s →
      ∃ t, exec (.dormantDrainsDone ns phase) s = .next t ∧ t.power.sleep = .latched ∧ t.power.lastB = beat s ∧
        t.time.dormant = true ∧ t.time.bLast = beat s ∧ t.time.tLast = now s - s.time.sub ∧
        t.time.tEntry = now s - s.time.sub + ns ∧ t.time.oscPhase = phase ∧ rd t pwrPadsHeld = allPads s ∧
        (∀ h ∈ s.power.stopped, (hartOf t h).st = .saved) ∧
        (∀ d, d < 182 → domOn s d = true → domainPresent s d = true → domOn t d = false)) ∧
    (∀ ns phase, s.power.sleep ≠ .asleep ∨ s.power.wakeSrc ≠ 0 ∨ doorbell257 s = true ∨ beat s < s.power.entryB + 1001 →
      exec (.dormantDrainsDone ns phase) s = .next s) ∧
    (∀ tile addr, s.power.sleep = .asleep ∨ s.power.sleep = .latched → rdB s pwrWakeEnable = true → addr = rd s pwrWakeAddr →
      addr ≠ 0x7E → rd s pwrWakeLatched = 0 → ∃ t, exec (.i3cWakeMatch tile addr) s = .next t ∧ rd t pwrWakeLatched = 1 ∧
        rd t pwrWakeTile = tile % 2 ∧ otherFields [pwrWakeLatched, pwrWakeTile] s t ∧ t.power.sleep = s.power.sleep ∧
        (s.power.sleep = .asleep → t.power.wakeSrc = 1)) ∧
    (∀ tile addr, addr ≠ rd s pwrWakeAddr → exec (.i3cWakeMatch tile addr) s = .next s) ∧
    (∀ ticks phase a b e u, s.time.dormant = true → a = true ∨ b = true → s.power.sleep = .latched → rdB s pwrWakeLatched = true →
      e = (s.time.oscPhase * 10 + ticks * oscPeriod s / 1000000 - phase * 10) / 10 * 10 → u = wakeUncert s e → s.time.tEntry + e < 2 ^ 64 →
      s.time.bLast + (s.time.tEntry + e - s.time.tLast) / 1000 < 2 ^ 64 →
      ∃ t, exec (.wakeReferenceGood ticks phase a b) s = .next t ∧ t.time.dormant = false ∧ t.time.wakeRefs = true ∧ t.power.sleep = .waking ∧
        now t = s.time.tEntry + e ∧ beat t = s.time.bLast + (s.time.tEntry + e - s.time.tLast) / 1000 ∧
        rd t clkStatusRefaOk = a.toNat ∧ rd t clkStatusRefbOk = b.toNat ∧ rd t pwrStatusPkgState = 4 ∧
        counted clkUncertTotalTotalNs u s t ∧ counted clkWakeCountWakes 1 s t) ∧
    (∀ ticks phase a b, s.time.dormant = false ∨ (a = false ∧ b = false) →
      exec (.wakeReferenceGood ticks phase a b) s = .next s) ∧
    (∀ bad us, s.power.sleep = .waking → s.power.resumeAt = none → (∀ c ∈ presentChans s, rd s (mcStatusState c) ≠ 4) →
      ∃ t, exec (.wakeComplete bad us) s = .next t ∧ t.power.resumeAt = some (beat s + 1) ∧ t.power.bad = bad ∧
        rd t pwrWakeTimeWakeUs = us % 2 ^ 32 ∧ t.power.sleep = .waking ∧ otherFields [pwrWakeTimeWakeUs] s t ∧
        ∀ d ∈ s.power.wasOn, domOn s d = false → (⟨beat s + 1, 4, .switch d true⟩ : Due) ∈ t.due) ∧
    (∀ bad us, s.power.sleep ≠ .waking ∨ s.power.resumeAt ≠ none → exec (.wakeComplete bad us) s = .next s) ∧
    (∀ mask, ∃ t, exec (.pwrPadsRelease mask) s = .next t ∧ t.due = s.due ++ [⟨beat s + 1, 4, .pads (mask % 2 ^ 33)⟩] ∧
      ∀ p, p ≠ .due → samePart p s t)

/-- POWER_STATUS, POWER_STATE, POWER_DOMAIN, POWER_DORMANT, POWER_IDLE, POWER_TDP and POWER_PADS (R392, R402, R405, R414,
R415). -/
def Obligations.PowerCommands : Prop :=
  ∀ (s : State) (i : Nat) (c : Bytes), i < 260 →
    (takenAs s i 0x0201 c → ∃ t, exec (.powerStatus i) s = .next t ∧ (∀ p, p ≠ .mbx → samePart p s t) ∧
      doneIn s t i 0 (mkBytes [(0, 1, rd s pwrStatusPkgState),
        (1, 1, rd s pwrCtrlDrowse + 2 * rd s pwrThermThrottling + 4 * rd s pwrWakeEnable + 8 * rd s pwrWakeLatched),
        (2, 2, rd s pwrVinVinMv), (4, 2, rd s pwrVinIin), (6, 2, rd s pwrVinEnvelopeW), (8, 2, rd s pwrCtrlTdpW),
        (0xA, 1, rd s pwrThermTMax), (0xB, 1, rd s pwrWakeAddr), (0xC, 2, rd s pwrStatusPairsGated),
        (0xE, 2, rd s pwrStatusDeclines), (0x10, 8, rd s pwrPadsHeld), (0x18, 4, rd s pwrIdleIdleBeats),
        (0x1C, 4, rd s pwrIdleCount), (0x20, 4, rd s pwrWakeTimeWakeUs), (0x24, 4, rd s pwrThermThrottleSteps)])) ∧
    (takenAs s i 0x0202 c → ∃ t x d cl, x = clampEnum 3 0 (arg c 0 1) ∧ d = clampR 10 10000 (arg c 2 2) ∧
      cl = chg (arg c 0 1) x + chg (arg c 2 2) d ∧ exec (.powerState i) s = .next t ∧
      (x < 2 → rd t pwrCtrlDrowse = x ∧ rd t pwrCtrlDrowseBeats = d ∧ samePart .power s t ∧
        doneIn s t i cl (mkBytes [(0, 1, x), (2, 2, d)])) ∧
      (x = 2 → arg c 4 4 ≠ 0x4F464621 → samePart .power s t ∧ doneIn s t i cl (mkBytes [(0, 1, 2), (1, 1, 1), (2, 2, d)])) ∧
      (x = 2 → arg c 4 4 = 0x4F464621 → goesOn t i ∧ t.power.offMbx = some i ∧ rd t pwrStatusPkgState = 5)) ∧
    (takenAs s i 0x0203 c → ∃ t d a f cl o, d = clampUnit 184 (domainPresent s) (arg c 0 2) ∧ a = clampEnum 4 0 (arg c 2 1) ∧
      f = (if a = 3 then clampFreq (arg c 4 2) else arg c 4 2) ∧
      cl = chg (arg c 0 2) d + chg (arg c 2 1) a + chg (arg c 4 2) f ∧ o = domainOutcome s d a ∧
      exec (.powerDomain i) s = .next t ∧ domState t d = domState s d ∧
      (o = 0 → a ≠ 0 → goesOn t i ∧ t.journal = s.journal ++ [⟨i, beat s + 1, .domain i d a⟩]) ∧
      (o ≠ 0 ∨ a = 0 → samePart .journal s t ∧ doneIn s t i cl (mkBytes [(0, 2, d), (2, 1, a), (3, 1, o), (4, 2, f),
        (6, 1, domState s d), (7, 1, rd s (pwrDomainHeld d)), (8, 2, rd s (pwrDomainFreq d) * 100),
        (0xA, 2, rd s (pwrDomainMv d)), (0x10, 8, beat s)]))) ∧
    (takenAs s i 0x0204 c → ∃ t, exec (.powerDormant i) s = .next t ∧
      (sleepOutcome s ≠ 0 → samePart .power s t ∧ doneIn s t i 0 (mkBytes [(0, 1, sleepOutcome s)])) ∧
      (sleepOutcome s = 0 → s.power.sleep = .none → goesOn t i ∧ t.power.sleep = .asked ∧ t.power.mbx = some i ∧
        t.power.entryB = beat s ∧ rd t pwrStatusPkgState = 3 ∧ rd t pwrStatusLastEntry = 1)) ∧
    (takenAs s i 0x0205 c → ∃ t n a e, n = (if arg c 0 4 = 0 then 0 else clampR 1000 4000000000 (arg c 0 4)) ∧
      a = clampR 8 0x77 (arg c 4 1) ∧ e = clampEnum 2 1 (arg c 5 1) ∧ exec (.powerIdle i) s = .next t ∧
      rd t pwrIdleIdleBeats = n ∧ rd t pwrWakeAddr = a ∧ rd t pwrWakeEnable = e ∧
      doneIn s t i (chg (arg c 0 4) n + chg (arg c 4 1) a + chg (arg c 5 1) e)
        (mkBytes [(0, 4, n), (4, 1, a), (5, 1, e), (8, 4, rd s pwrIdleCount)])) ∧
    (takenAs s i 0x0206 c → ∃ t w x h data, w = clampR 320 640 (arg c 0 2) ∧ x = clampR 70 105 (arg c 2 1) ∧
      h = clampR 1 15 (arg c 3 1) ∧ exec (.powerTdp i) s = .next t ∧ rd t pwrCtrlTdpW = w ∧ rd t pwrCtrlTThrottle = x ∧
      rd t pwrCtrlHyst = h ∧ doneIn s t i (chg (arg c 0 2) w + chg (arg c 2 1) x + chg (arg c 3 1) h) data ∧
      getLE data 0 2 = w ∧ getLE data 4 2 = min (w * 1000) (rd s pwrVinVinMv * 558 / 10) / 1000 ∧
      getLE data 8 8 = (beat s + 1) % 2 ^ 64) ∧
    (takenAs s i 0x0207 c → ∃ t m, m = arg c 0 8 &&& rd s pwrPadsHeld ∧ exec (.powerPads i) s = .next t ∧
      t.due = s.due ++ [⟨beat s + 1, 4, .pads m⟩] ∧ rd t pwrPadsHeld = rd s pwrPadsHeld ∧
      doneIn s t i (chg (arg c 0 8) m) (mkBytes [(0, 8, m), (8, 8, rd s pwrPadsHeld - m), (0x10, 8, beat s + 1)]))

/-! ## Absent units -/

/-- R8: the registers of a unit that the variant does not have read as zero, a write to them is discarded, and neither ends in
an error. -/
def Obligations.RegistersOfAbsentUnits : Prop :=
  ∀ (s : State) (off size : Nat), offAbsent s off = true → size = 4 ∨ size = 8 → off % size = 0 →
    windowRead s off size = 0 ∧ ∀ asr, (clerkRead asr off size s).2 = 0 ∧ (mayReachWindow asr s off = true →
      clerkRead asr off size s = (s, 0) ∧ ∀ v, exec (.registerWrite asr off size v) s = .next s)
end

