-- ==== Sys2Proof/Laws/Table.lean ====
section
/-! SUPPORT. Laws/Table.lean: what reading a table gives after a write, and that every write keeps the canonical form. -/
set_option Elab.async false
namespace Sys2Proof.Machine

theorem tget_tput_same {α : Type} (d : α) (t : Table α) (k : Nat) (v : α) : tget d (tput t k v) k = v := by
  induction t with
  | nil => simp [tput, tget]
  | cons e r ih =>
    obtain ⟨j, u⟩ := e
    simp only [tput]
    split
    · simp [tget]
    · split
      · simp [tget]
      · simp only [tget]; rw [if_neg (by omega)]; exact ih

theorem tget_tput_ne {α : Type} (d : α) (t : Table α) (k i : Nat) (v : α) (h : i ≠ k) :
    tget d (tput t k v) i = tget d t i := by
  induction t with
  | nil => simp only [tput, tget]; rw [if_neg (by omega)]
  | cons e r ih =>
    obtain ⟨j, u⟩ := e
    simp only [tput]
    split
    · simp only [tget]; rw [if_neg (by omega)]
    · split
      · simp only [tget]; rw [if_neg (by omega), if_neg (by omega)]
      · simp only [tget]; rw [ih]

theorem tget_tdel_same {α : Type} (d : α) (t : Table α) (k : Nat) : tget d (tdel t k) k = d := by
  induction t with
  | nil => rfl
  | cons e r ih =>
    obtain ⟨j, u⟩ := e
    simp only [tdel]
    split
    · exact ih
    · simp only [tget]; rw [if_neg (by assumption)]; exact ih

theorem tget_tdel_ne {α : Type} (d : α) (t : Table α) (k i : Nat) (h : i ≠ k) : tget d (tdel t k) i = tget d t i := by
  induction t with
  | nil => rfl
  | cons e r ih =>
    obtain ⟨j, u⟩ := e
    simp only [tdel]
    split
    · simp only [tget]; rw [if_neg (by omega)]; exact ih
    · simp only [tget]; rw [ih]

/-- A read after a write to the same key gives the value written. -/
@[simp] theorem tget_tset_same {α : Type} [DecidableEq α] (d : α) (t : Table α) (k : Nat) (v : α) :
    tget d (tset d t k v) k = v := by
  unfold tset
  split
  · rw [tget_tdel_same]; exact Eq.symm (by assumption)
  · exact tget_tput_same d t k v

/-- A write leaves every other key alone. -/
theorem tget_tset_ne {α : Type} [DecidableEq α] (d : α) (t : Table α) (k i : Nat) (v : α) (h : i ≠ k) :
    tget d (tset d t k v) i = tget d t i := by
  unfold tset
  split
  · exact tget_tdel_ne d t k i h
  · exact tget_tput_ne d t k i v h

/-- Reading a table after a write, as one case split. -/
theorem tget_tset {α : Type} [DecidableEq α] (d : α) (t : Table α) (k i : Nat) (v : α) :
    tget d (tset d t k v) i = if i = k then v else tget d t i := by
  split
  · subst_vars; exact tget_tset_same d t _ v
  · exact tget_tset_ne d t k i v (by assumption)

theorem risingFrom_mono {α : Type} (t : Table α) (lo lo' : Nat) (h : risingFrom lo t = true) (hl : lo' ≤ lo) : risingFrom lo' t = true := by
  cases t with
  | nil => rfl
  | cons e r => obtain ⟨j, v⟩ := e; simp only [risingFrom, Bool.and_eq_true, decide_eq_true_eq] at *; exact ⟨by omega, h.2⟩

theorem risingFrom_tput {α : Type} (t : Table α) (lo k : Nat) (v : α) (h : risingFrom lo t = true) (hk : lo ≤ k) : risingFrom lo (tput t k v) = true := by
  induction t generalizing lo with
  | nil => simp [tput, risingFrom, hk]
  | cons e r ih =>
    obtain ⟨j, u⟩ := e
    simp only [risingFrom, Bool.and_eq_true, decide_eq_true_eq] at h
    simp only [tput]
    split
    · simp only [risingFrom, Bool.and_eq_true, decide_eq_true_eq]; exact ⟨hk, by omega, h.2⟩
    · split
      · simp only [risingFrom, Bool.and_eq_true, decide_eq_true_eq]; subst_vars; exact ⟨hk, h.2⟩
      · simp only [risingFrom, Bool.and_eq_true, decide_eq_true_eq]; exact ⟨h.1, ih _ h.2 (by omega)⟩

theorem risingFrom_tdel {α : Type} (t : Table α) (lo k : Nat) (h : risingFrom lo t = true) : risingFrom lo (tdel t k) = true := by
  induction t generalizing lo with
  | nil => rfl
  | cons e r ih =>
    obtain ⟨j, u⟩ := e
    simp only [risingFrom, Bool.and_eq_true, decide_eq_true_eq] at h
    simp only [tdel]
    split
    · exact ih _ (risingFrom_mono _ _ _ h.2 (by omega))
    · simp only [risingFrom, Bool.and_eq_true, decide_eq_true_eq]; exact ⟨h.1, ih _ h.2⟩

theorem mem_tput {α : Type} (t : Table α) (k : Nat) (v : α) (e : Nat × α) (h : e ∈ tput t k v) : e = (k, v) ∨ e ∈ t := by
  induction t with
  | nil => simp [tput] at h; exact .inl h
  | cons x r ih =>
    obtain ⟨j, u⟩ := x
    simp only [tput] at h
    split at h
    · grind
    · split at h
      · grind
      · grind

theorem mem_tdel {α : Type} (t : Table α) (k : Nat) (e : Nat × α) (h : e ∈ tdel t k) : e ∈ t := by
  induction t with
  | nil => simp [tdel] at h
  | cons x r ih =>
    obtain ⟨j, u⟩ := x
    simp only [tdel] at h
    split at h
    · grind
    · grind

/-- A write keeps the canonical form. -/
theorem twf_tset {α : Type} [DecidableEq α] (d : α) (t : Table α) (k : Nat) (v : α) (h : twf d t = true) : twf d (tset d t k v) = true := by
  simp only [twf, Bool.and_eq_true, List.all_eq_true, decide_eq_true_eq] at *
  unfold tset
  split
  · exact ⟨risingFrom_tdel _ _ _ h.1, fun e he => h.2 e (mem_tdel _ _ _ he)⟩
  · refine ⟨risingFrom_tput _ _ _ _ h.1 (Nat.zero_le _), fun e he => ?_⟩
    rcases mem_tput _ _ _ _ he with rfl | he
    · assumption
    · exact h.2 e he

theorem risingFrom_filter {α : Type} (p : Nat × α → Bool) (t : Table α) (lo : Nat) (h : risingFrom lo t = true) : risingFrom lo (t.filter p) = true := by
  induction t generalizing lo with
  | nil => rfl
  | cons e r ih =>
    obtain ⟨j, u⟩ := e
    simp only [risingFrom, Bool.and_eq_true, decide_eq_true_eq] at h
    rw [List.filter_cons]
    split
    · simp only [risingFrom, Bool.and_eq_true, decide_eq_true_eq]; exact ⟨h.1, ih _ h.2⟩
    · exact ih _ (risingFrom_mono _ _ _ h.2 (by omega))

/-- Removing entries keeps the canonical form. -/
theorem twf_filter {α : Type} [DecidableEq α] (d : α) (p : Nat × α → Bool) (t : Table α) (h : twf d t = true) : twf d (t.filter p) = true := by
  simp only [twf, Bool.and_eq_true, List.all_eq_true, decide_eq_true_eq] at *
  exact ⟨risingFrom_filter _ _ _ h.1, fun e he => h.2 e (List.mem_filter.mp he).1⟩

/-- What holds of the default and of every entry holds of what a read gives. -/
theorem tget_of_all {α : Type} (p : α → Prop) (d : α) (t : Table α) (k : Nat) (hd : p d) (h : ∀ e ∈ t, p e.2) :
    p (tget d t k) := by
  induction t with
  | nil => exact hd
  | cons e r ih =>
    obtain ⟨j, v⟩ := e
    simp only [tget]
    split
    · exact h (j, v) (by simp)
    · exact ih fun e he => h e (by simp [he])

theorem twf_nil {α : Type} [DecidableEq α] (d : α) : twf d ([] : Table α) = true := rfl

end Sys2Proof.Machine
end

