-- ==== Sys2Proof/Laws/Keeps.lean ====
section
/-! SUPPORT. Laws/Keeps.lean: the relation that every operation of the model keeps, and its rules for the forms of definition
that operations are built from. -/
set_option Elab.async false
namespace Sys2Proof.Machine

/-- Every part of F is a part of W: sets of parts as numbers, bit `Part.num p` for part p. -/
abbrev Sub (F W : Nat) : Prop := F ||| W = W

theorem sub_of {F G W : Nat} (hW : Sub F W) (h : Sub G F) : Sub G W := by
  unfold Sub at *
  rw [← hW, ← Nat.or_assoc, h]

/-- The number of a part. -/
def Part.num : Part → Nat
  | .regs => 0 | .chip => 1 | .time => 2 | .harts => 3 | .cores => 4 | .pairs => 5 | .slots => 6 | .policy => 7
  | .slices => 8 | .mesh => 9 | .mem => 10 | .tenants => 11 | .mbx => 12 | .ras => 13 | .outs => 14 | .nextXid => 15
  | .fabric => 16 | .groups => 17 | .dma => 18 | .clerk => 19 | .cplx => 20 | .toss => 21 | .assayer => 22 | .boot => 23
  | .tests => 24 | .armed => 25 | .power => 26 | .due => 27 | .journal => 28 | .freeCtr => 29

theorem sub_bit {F W k : Nat} (h : Sub F W) (hw : W.testBit k = false) : F.testBit k = false := by
  unfold Sub at h
  rw [← h, Nat.testBit_or] at hw
  cases hf : F.testBit k
  · rfl
  · rw [hf] at hw; cases hw

/-- The queue and what is fused into the chip: no operation changes them. -/
abbrev fixedOf (s : State) : List Instr × Variant × Nat × Nat × Nat × Nat × Nat × Nat × Nat :=
  (s.pending, s.chip.variant, s.chip.uid, s.chip.tossPref, s.chip.ownerKeyHash, s.chip.serial, s.chip.uds, s.chip.stepping,
   s.chip.variantMask)

/-- s is a state that an operation on q0 may reach when it writes no part outside W: the queue and the fuses are those of q0,
the canonical forms of q0 still hold, and every part outside W is the part of q0. -/
def Keeps (W : Nat) (q0 s : State) : Prop :=
  fixedOf s = fixedOf q0 ∧ (twf 0 q0.regs = true → twf 0 s.regs = true) ∧
  (dramWf q0.mem.chans = true → dramWf s.mem.chans = true) ∧ ∀ p : Part, W.testBit p.num = false → samePart p q0 s

theorem keeps_refl (W : Nat) (s : State) : Keeps W s s :=
  ⟨rfl, id, id, fun p _ => by cases p <;> rfl⟩

theorem keeps_ite {W : Nat} {q0 : State} (c : Prop) [Decidable c] (a b : State) (ha : Keeps W q0 a) (hb : Keeps W q0 b) :
    Keeps W q0 (if c then a else b) := by split <;> assumption

theorem foldl_keeps {W : Nat} {q0 : State} {β : Type} (g : State → β → State) (l : List β) (s : State) (hs : Keeps W q0 s)
    (h : ∀ a x, Keeps W q0 a → Keeps W q0 (g a x)) : Keeps W q0 (l.foldl g s) := by
  induction l generalizing s with
  | nil => exact hs
  | cons x r ih => exact ih _ (h _ _ hs)

theorem foldr_keeps {W : Nat} {q0 : State} {β : Type} (g : β → State → State) (l : List β) (s : State) (hs : Keeps W q0 s)
    (h : ∀ a x, Keeps W q0 a → Keeps W q0 (g x a)) : Keeps W q0 (l.foldr g s) := by
  induction l with
  | nil => exact hs
  | cons x r ih => exact h _ _ ih

theorem foldl_fst_keeps {W : Nat} {q0 : State} {β γ : Type} (g : State × γ → β → State × γ) (l : List β) (s : State × γ)
    (hs : Keeps W q0 s.1) (h : ∀ a x, Keeps W q0 a.1 → Keeps W q0 (g a x).1) : Keeps W q0 (l.foldl g s).1 := by
  induction l generalizing s with
  | nil => exact hs
  | cons x r ih => exact ih _ (h _ _ hs)

theorem keeps_fst {W : Nat} {α : Type} {q0 a : State} {b : α} {p : State × α} (h : Keeps W q0 p.1) (e : p = (a, b)) :
    Keeps W q0 a := by subst e; exact h

theorem keeps_fst2 {W : Nat} {α β : Type} {q0 a : State} {b : α} {c : β} {p : State × α × β} (h : Keeps W q0 p.1)
    (e : p = (a, b, c)) : Keeps W q0 a := by subst e; exact h

/-- A state built from s with new parts of F, the registers and the DRAM not among them. -/
theorem keeps_lit {W F : Nat} {q0 s : State} {chip time harts cores pairs slots policy slices mesh mem tenants mbx ras outs nextXid fabric groups dma clerk cplx toss assayer boot tests armed power due journal freeCtr}
    (hW : Sub F W) (hk : Keeps W q0 s)
    (hf : (s.pending, chip.variant, chip.uid, chip.tossPref, chip.ownerKeyHash, chip.serial, chip.uds, chip.stepping,
      chip.variantMask) = fixedOf s := by exact rfl)
    (hm : mem.chans = s.mem.chans := by exact rfl)
    (h_chip : chip = s.chip ∨ F.testBit 1 = true := by first | exact Or.inr rfl | exact Or.inl rfl)
    (h_time : time = s.time ∨ F.testBit 2 = true := by first | exact Or.inr rfl | exact Or.inl rfl)
    (h_harts : harts = s.harts ∨ F.testBit 3 = true := by first | exact Or.inr rfl | exact Or.inl rfl)
    (h_cores : cores = s.cores ∨ F.testBit 4 = true := by first | exact Or.inr rfl | exact Or.inl rfl)
    (h_pairs : pairs = s.pairs ∨ F.testBit 5 = true := by first | exact Or.inr rfl | exact Or.inl rfl)
    (h_slots : slots = s.slots ∨ F.testBit 6 = true := by first | exact Or.inr rfl | exact Or.inl rfl)
    (h_policy : policy = s.policy ∨ F.testBit 7 = true := by first | exact Or.inr rfl | exact Or.inl rfl)
    (h_slices : slices = s.slices ∨ F.testBit 8 = true := by first | exact Or.inr rfl | exact Or.inl rfl)
    (h_mesh : mesh = s.mesh ∨ F.testBit 9 = true := by first | exact Or.inr rfl | exact Or.inl rfl)
    (h_mem : mem = s.mem ∨ F.testBit 10 = true := by first | exact Or.inr rfl | exact Or.inl rfl)
    (h_tenants : tenants = s.tenants ∨ F.testBit 11 = true := by first | exact Or.inr rfl | exact Or.inl rfl)
    (h_mbx : mbx = s.mbx ∨ F.testBit 12 = true := by first | exact Or.inr rfl | exact Or.inl rfl)
    (h_ras : ras = s.ras ∨ F.testBit 13 = true := by first | exact Or.inr rfl | exact Or.inl rfl)
    (h_outs : outs = s.outs ∨ F.testBit 14 = true := by first | exact Or.inr rfl | exact Or.inl rfl)
    (h_nextXid : nextXid = s.nextXid ∨ F.testBit 15 = true := by first | exact Or.inr rfl | exact Or.inl rfl)
    (h_fabric : fabric = s.fabric ∨ F.testBit 16 = true := by first | exact Or.inr rfl | exact Or.inl rfl)
    (h_groups : groups = s.groups ∨ F.testBit 17 = true := by first | exact Or.inr rfl | exact Or.inl rfl)
    (h_dma : dma = s.dma ∨ F.testBit 18 = true := by first | exact Or.inr rfl | exact Or.inl rfl)
    (h_clerk : clerk = s.clerk ∨ F.testBit 19 = true := by first | exact Or.inr rfl | exact Or.inl rfl)
    (h_cplx : cplx = s.cplx ∨ F.testBit 20 = true := by first | exact Or.inr rfl | exact Or.inl rfl)
    (h_toss : toss = s.toss ∨ F.testBit 21 = true := by first | exact Or.inr rfl | exact Or.inl rfl)
    (h_assayer : assayer = s.assayer ∨ F.testBit 22 = true := by first | exact Or.inr rfl | exact Or.inl rfl)
    (h_boot : boot = s.boot ∨ F.testBit 23 = true := by first | exact Or.inr rfl | exact Or.inl rfl)
    (h_tests : tests = s.tests ∨ F.testBit 24 = true := by first | exact Or.inr rfl | exact Or.inl rfl)
    (h_armed : armed = s.armed ∨ F.testBit 25 = true := by first | exact Or.inr rfl | exact Or.inl rfl)
    (h_power : power = s.power ∨ F.testBit 26 = true := by first | exact Or.inr rfl | exact Or.inl rfl)
    (h_due : due = s.due ∨ F.testBit 27 = true := by first | exact Or.inr rfl | exact Or.inl rfl)
    (h_journal : journal = s.journal ∨ F.testBit 28 = true := by first | exact Or.inr rfl | exact Or.inl rfl)
    (h_freeCtr : freeCtr = s.freeCtr ∨ F.testBit 29 = true := by first | exact Or.inr rfl | exact Or.inl rfl) :
    Keeps W q0 (State.mk s.regs chip time harts cores pairs slots policy slices mesh mem tenants mbx ras outs nextXid fabric groups dma clerk cplx toss assayer boot tests armed power due journal freeCtr s.pending) := by
  refine ⟨hf.trans hk.1, hk.2.1, fun h => hm ▸ hk.2.2.1 h, fun p hw => ?_⟩
  have h1 := hk.2.2.2 p hw
  have hb := sub_bit hW hw
  cases p
  case regs => exact h1
  case chip =>
    rcases h_chip with h2 | h2
    · exact Eq.trans h2 h1
    · exact absurd (hb.symm.trans h2) (by decide)
  case time =>
    rcases h_time with h2 | h2
    · exact Eq.trans h2 h1
    · exact absurd (hb.symm.trans h2) (by decide)
  case harts =>
    rcases h_harts with h2 | h2
    · exact Eq.trans h2 h1
    · exact absurd (hb.symm.trans h2) (by decide)
  case cores =>
    rcases h_cores with h2 | h2
    · exact Eq.trans h2 h1
    · exact absurd (hb.symm.trans h2) (by decide)
  case pairs =>
    rcases h_pairs with h2 | h2
    · exact Eq.trans h2 h1
    · exact absurd (hb.symm.trans h2) (by decide)
  case slots =>
    rcases h_slots with h2 | h2
    · exact Eq.trans h2 h1
    · exact absurd (hb.symm.trans h2) (by decide)
  case policy =>
    rcases h_policy with h2 | h2
    · exact Eq.trans h2 h1
    · exact absurd (hb.symm.trans h2) (by decide)
  case slices =>
    rcases h_slices with h2 | h2
    · exact Eq.trans h2 h1
    · exact absurd (hb.symm.trans h2) (by decide)
  case mesh =>
    rcases h_mesh with h2 | h2
    · exact Eq.trans h2 h1
    · exact absurd (hb.symm.trans h2) (by decide)
  case mem =>
    rcases h_mem with h2 | h2
    · exact Eq.trans h2 h1
    · exact absurd (hb.symm.trans h2) (by decide)
  case tenants =>
    rcases h_tenants with h2 | h2
    · exact Eq.trans h2 h1
    · exact absurd (hb.symm.trans h2) (by decide)
  case mbx =>
    rcases h_mbx with h2 | h2
    · exact Eq.trans h2 h1
    · exact absurd (hb.symm.trans h2) (by decide)
  case ras =>
    rcases h_ras with h2 | h2
    · exact Eq.trans h2 h1
    · exact absurd (hb.symm.trans h2) (by decide)
  case outs =>
    rcases h_outs with h2 | h2
    · exact Eq.trans h2 h1
    · exact absurd (hb.symm.trans h2) (by decide)
  case nextXid =>
    rcases h_nextXid with h2 | h2
    · exact Eq.trans h2 h1
    · exact absurd (hb.symm.trans h2) (by decide)
  case fabric =>
    rcases h_fabric with h2 | h2
    · exact Eq.trans h2 h1
    · exact absurd (hb.symm.trans h2) (by decide)
  case groups =>
    rcases h_groups with h2 | h2
    · exact Eq.trans h2 h1
    · exact absurd (hb.symm.trans h2) (by decide)
  case dma =>
    rcases h_dma with h2 | h2
    · exact Eq.trans h2 h1
    · exact absurd (hb.symm.trans h2) (by decide)
  case clerk =>
    rcases h_clerk with h2 | h2
    · exact Eq.trans h2 h1
    · exact absurd (hb.symm.trans h2) (by decide)
  case cplx =>
    rcases h_cplx with h2 | h2
    · exact Eq.trans h2 h1
    · exact absurd (hb.symm.trans h2) (by decide)
  case toss =>
    rcases h_toss with h2 | h2
    · exact Eq.trans h2 h1
    · exact absurd (hb.symm.trans h2) (by decide)
  case assayer =>
    rcases h_assayer with h2 | h2
    · exact Eq.trans h2 h1
    · exact absurd (hb.symm.trans h2) (by decide)
  case boot =>
    rcases h_boot with h2 | h2
    · exact Eq.trans h2 h1
    · exact absurd (hb.symm.trans h2) (by decide)
  case tests =>
    rcases h_tests with h2 | h2
    · exact Eq.trans h2 h1
    · exact absurd (hb.symm.trans h2) (by decide)
  case armed =>
    rcases h_armed with h2 | h2
    · exact Eq.trans h2 h1
    · exact absurd (hb.symm.trans h2) (by decide)
  case power =>
    rcases h_power with h2 | h2
    · exact Eq.trans h2 h1
    · exact absurd (hb.symm.trans h2) (by decide)
  case due =>
    rcases h_due with h2 | h2
    · exact Eq.trans h2 h1
    · exact absurd (hb.symm.trans h2) (by decide)
  case journal =>
    rcases h_journal with h2 | h2
    · exact Eq.trans h2 h1
    · exact absurd (hb.symm.trans h2) (by decide)
  case freeCtr =>
    rcases h_freeCtr with h2 | h2
    · exact Eq.trans h2 h1
    · exact absurd (hb.symm.trans h2) (by decide)

/-- A state whose registers are r, in canonical form where those of q0 are, and else is s. -/
theorem keeps_regs {W : Nat} {q0 s : State} (r : Table Nat) (hk : Keeps W q0 s)
    (hr : twf 0 q0.regs = true → twf 0 r = true) (hW : Sub 0x1 W) : Keeps W q0 { s with regs := r } := by
  refine ⟨hk.1, hr, hk.2.2.1, fun p hw => ?_⟩
  have h1 := hk.2.2.2 p hw
  cases p
  case regs => exact absurd (sub_bit hW hw) (by decide)
  all_goals exact h1

/-- A state whose memory is m, in canonical form where that of q0 is, and else is s. -/
theorem keeps_mem {W : Nat} {q0 s : State} (m : Mem) (hk : Keeps W q0 s)
    (hm : dramWf q0.mem.chans = true → dramWf m.chans = true) (hW : Sub 0x400 W) : Keeps W q0 { s with mem := m } := by
  refine ⟨hk.1, hk.2.1, hm, fun p hw => ?_⟩
  have h1 := hk.2.2.2 p hw
  cases p
  case mem => exact absurd (sub_bit hW hw) (by decide)
  all_goals exact h1

theorem dramWf_tset (t : Table Chan) (c : Nat) (r : Chan) (h : dramWf t = true) (hr : twf {} r.lines = true) :
    dramWf (tset {} t c r) = true := by
  simp only [dramWf, Bool.and_eq_true, List.all_eq_true] at *
  refine ⟨twf_tset _ _ _ _ h.1, fun e he => ?_⟩
  unfold tset at he
  split at he
  · exact h.2 e (mem_tdel _ _ _ he)
  · rcases mem_tput _ _ _ _ he with rfl | he
    · exact hr
    · exact h.2 e he

theorem dramWf_get (t : Table Chan) (c : Nat) (h : dramWf t = true) : twf {} (tget {} t c).lines = true := by
  simp only [dramWf, Bool.and_eq_true, List.all_eq_true] at h
  exact tget_of_all (fun r : Chan => twf {} r.lines = true) {} t c rfl h.2

theorem dramWf_keepRepair (l : Table Chan) : dramWf (keepRepair l) = true := by
  unfold keepRepair
  have : ∀ (l t : Table Chan), dramWf t = true →
      dramWf (l.foldl (fun t e => tset {} t e.1 { repair := e.2.repair }) t) = true := by
    intro l
    induction l with
    | nil => exact fun t h => h
    | cons e r ih => exact fun t h => ih _ (dramWf_tset _ _ _ h rfl)
  exact this l [] rfl

theorem keeps_chan {W : Nat} {q0 s : State} (h : Keeps W q0 s) (c : Nat) :
    dramWf q0.mem.chans = true → twf {} (chanOf s c).lines = true := fun hq => dramWf_get _ _ (h.2.2.1 hq)

theorem keeps_ok {W : Nat} {q0 s : State} (h : Keeps W q0 s) (hq : dramWf q0.mem.chans = true) :
    dramWf s.mem.chans = true := h.2.2.1 hq

end Sys2Proof.Machine
end

