-- ==== Sys2Proof/Laws/KeepsOps.lean ====
section
/-! SUPPORT. Laws/KeepsOps.lean: every operation on registers, records, mailboxes, time and DRAM keeps `Keeps`: it
    changes neither the queue nor the fuses, it keeps the
canonical forms, and it writes no part of State outside the set its lemma names. -/
set_option Elab.async false
namespace Sys2Proof.Machine

/-! ## Ops -/

theorem wr_keeps {W : Nat} {q0 : State} (f : Fld) (v : Nat) (s : State) (hk : Keeps W q0 s) (hW : Sub 0x1 W := by
    first | assumption | exact sub_of (by assumption) (by decide)) : Keeps W q0 (wr f v s) :=
  keeps_regs _ hk (fun h => twf_tset _ _ _ _ (hk.2.1 h)) hW

theorem bump_keeps {W : Nat} {q0 : State} (f : Fld) (n : Nat) (s : State) (hk : Keeps W q0 s) (hW : Sub 0x1 W) :
    Keeps W q0 (bump f n s) := by
  unfold bump
  with_reducible repeat' (first | assumption | apply wr_keeps)

theorem wrB_keeps {W : Nat} {q0 : State} (f : Fld) (b : Bool) (s : State) (hk : Keeps W q0 s) (hW : Sub 0x1 W) :
    Keeps W q0 (wrB f b s) := by
  unfold wrB
  with_reducible repeat' (first | assumption | apply wr_keeps)

theorem freeNext_keeps {W : Nat} {q0 : State} (s : State) (hk : Keeps W q0 s)
    (hW : Sub 0x20000000 W := by first | assumption | exact sub_of (by assumption) (by decide)) : Keeps W q0
    (freeNext s) := by
  unfold freeNext
  with_reducible repeat' (first
    | assumption | exact sub_of (by assumption) (by decide) | refine keeps_lit (by assumption) ?_)

theorem addDue_keeps {W : Nat} {q0 : State} (b k : Nat) (a : Act) (s : State) (hk : Keeps W q0 s) (hW : Sub 0x8000000
    W) : Keeps W q0 (addDue b k a s) := by
  unfold addDue
  with_reducible repeat' (first
    | assumption | exact sub_of (by assumption) (by decide) | refine keeps_lit (by assumption) ?_)

theorem addStep_keeps {W : Nat} {q0 : State} (mbx b : Nat) (a : Act) (s : State) (hk : Keeps W q0 s) (hW : Sub
    0x10000000 W) : Keeps W q0 (addStep mbx b a s) := by
  unfold addStep
  with_reducible repeat' (first
    | assumption | exact sub_of (by assumption) (by decide) | refine keeps_lit (by assumption) ?_)

theorem setClk_keeps {W : Nat} {q0 : State} (c : Nat) (r : ClkCore) (s : State) (hk : Keeps W q0 s) (hW : Sub 0x80000
    W) : Keeps W q0 (setClk c r s) := by
  unfold setClk
  with_reducible repeat' (first
    | assumption | exact sub_of (by assumption) (by decide) | refine keeps_lit (by assumption) ?_)

theorem modClk_keeps {W : Nat} {q0 : State} (c : Nat) (f : ClkCore → ClkCore) (s : State) (hk : Keeps W q0 s) (hW :
    Sub 0x80000 W := by first | assumption | exact sub_of (by assumption) (by decide)) : Keeps W q0 (modClk c f s) :=
    by
  unfold modClk
  with_reducible repeat' (first | assumption | apply setClk_keeps)

theorem clkIrq_keeps {W : Nat} {q0 : State} (code val : Nat) (s : State) (c : Nat) (hk : Keeps W q0 s) (hW : Sub
    0x80001 W) : Keeps W q0 (clkIrq code val s c) := by
  unfold clkIrq
  with_reducible repeat' (first
    | assumption | apply wr_keeps | apply modClk_keeps | exact sub_of (by assumption) (by decide) | split)

theorem recPlatform_keeps {W : Nat} {q0 : State} (sl cls kind unit cause ten addr : Nat) (detail : List Nat) (s :
    State) (hk : Keeps W q0 s) (hW : Sub 0x82001 W) : Keeps W q0 (recPlatform sl cls kind unit cause ten addr detail
    s) := by
  unfold recPlatform
  with_reducible repeat' (first
    | assumption | apply clkIrq_keeps | exact sub_of (by assumption) (by decide) | refine foldl_keeps _ _ _ ?_ ?_
    | intro _ _ _ | intro _ | refine keeps_lit (by assumption) ?_)

theorem setMbx_keeps {W : Nat} {q0 : State} (i : Nat) (m : Mbx) (s : State) (hk : Keeps W q0 s) (hW : Sub 0x1000 W) :
    Keeps W q0 (setMbx i m s) := by
  unfold setMbx
  with_reducible repeat' (first
    | assumption | exact sub_of (by assumption) (by decide) | refine keeps_lit (by assumption) ?_)

theorem notify_keeps {W : Nat} {q0 : State} (i kind : Nat) (payload : List (Nat × Nat × Nat)) (s : State) (hk : Keeps
    W q0 s) (hW : Sub 0x1000 W) : Keeps W q0 (notify i kind payload s) := by
  unfold notify
  with_reducible repeat' (first | assumption | apply setMbx_keeps)

theorem recTenant_keeps {W : Nat} {q0 : State} (sl kind unit cause t addr : Nat) (detail : List Nat) (s : State) (hk
    : Keeps W q0 s) (hW : Sub 0x3000 W) : Keeps W q0 (recTenant sl kind unit cause t addr detail s) := by
  unfold recTenant
  with_reducible repeat' (first
    | assumption | apply notify_keeps | exact sub_of (by assumption) (by decide)
    | refine keeps_lit (by assumption) ?_)

theorem recContained_keeps {W : Nat} {q0 : State} (sl kind unit cause addr : Nat) (detail : List Nat) (s : State) (hk
    : Keeps W q0 s) (hW : Sub 0x82001 W := by first | assumption | exact sub_of (by assumption) (by decide)) : Keeps
    W q0 (recContained sl kind unit cause addr detail s) := by
  unfold recContained
  with_reducible repeat' (first | assumption | apply recPlatform_keeps)

theorem recRefusal_keeps {W : Nat} {q0 : State} (sl kind unit cause ten addr : Nat) (s : State) (hk : Keeps W q0 s)
    (hW : Sub 0x82001 W) : Keeps W q0 (recRefusal sl kind unit cause ten addr s) := by
  unfold recRefusal
  with_reducible repeat' (first | assumption | apply recPlatform_keeps)

theorem recVisible_keeps {W : Nat} {q0 : State} (sl kind unit cause : Nat) (ts : List Nat) (addr : Nat) (detail :
    List Nat) (uT : Nat) (dT : List Nat)     (s : State) (hk : Keeps W q0 s) (hW : Sub 0x83001 W) : Keeps W q0
    (recVisible sl kind unit cause ts addr detail uT dT s) := by
  unfold recVisible
  with_reducible repeat' (first
    | assumption | apply recTenant_keeps | apply recPlatform_keeps | exact sub_of (by assumption) (by decide)
    | refine foldl_keeps _ _ _ ?_ ?_ | split | simp only [] | intro _ _ _)

theorem detectedAt_keeps {W : Nat} {q0 : State} (m : Nat) (f : State → State) (s : State) (h_f : ∀ a, Keeps W q0 a →
    Keeps W q0 (f a)) (hk : Keeps W q0 s) (hW : Sub 0x2000 W) : Keeps W q0 (detectedAt m f s) := by
  unfold detectedAt
  with_reducible repeat' (first
    | assumption | exact sub_of (by assumption) (by decide) | apply h_f | refine keeps_lit (by assumption) ?_)

theorem recCorrected_keeps {W : Nat} {q0 : State} (sl kind unit cause addr : Nat) (s : State) (hk : Keeps W q0 s) (hW
    : Sub 0x82001 W) : Keeps W q0 (recCorrected sl kind unit cause addr s) := by
  unfold recCorrected
  with_reducible repeat' (first
    | assumption | apply recPlatform_keeps | exact sub_of (by assumption) (by decide) | split | simp only []
    | refine keeps_lit (by assumption) ?_)

theorem event_keeps {W : Nat} {q0 : State} (kind : Nat) (detail : List Nat) (s : State) (hk : Keeps W q0 s) (hW : Sub
    0x800000 W) : Keeps W q0 (event kind detail s) := by
  unfold event
  with_reducible repeat' (first
    | assumption | exact sub_of (by assumption) (by decide) | split | simp only []
    | refine keeps_lit (by assumption) ?_)

/-! ## Units -/

theorem setHart_keeps {W : Nat} {q0 : State} (h : Nat) (r : Hart) (s : State) (hk : Keeps W q0 s) (hW : Sub 0x8 W) :
    Keeps W q0 (setHart h r s) := by
  unfold setHart
  with_reducible repeat' (first
    | assumption | exact sub_of (by assumption) (by decide) | refine keeps_lit (by assumption) ?_)

theorem setCore_keeps {W : Nat} {q0 : State} (c : Nat) (r : Core) (s : State) (hk : Keeps W q0 s) (hW : Sub 0x10 W) :
    Keeps W q0 (setCore c r s) := by
  unfold setCore
  with_reducible repeat' (first
    | assumption | exact sub_of (by assumption) (by decide) | refine keeps_lit (by assumption) ?_)

theorem setPair_keeps {W : Nat} {q0 : State} (p : Nat) (r : Pair) (s : State) (hk : Keeps W q0 s) (hW : Sub 0x20 W) :
    Keeps W q0 (setPair p r s) := by
  unfold setPair
  with_reducible repeat' (first
    | assumption | exact sub_of (by assumption) (by decide) | refine keeps_lit (by assumption) ?_)

theorem setSlice_keeps {W : Nat} {q0 : State} (n : Nat) (r : Slice) (s : State) (hk : Keeps W q0 s) (hW : Sub 0x100
    W) : Keeps W q0 (setSlice n r s) := by
  unfold setSlice
  with_reducible repeat' (first
    | assumption | exact sub_of (by assumption) (by decide) | refine keeps_lit (by assumption) ?_)

theorem setOwner_keeps {W : Nat} {q0 : State} (h t : Nat) (s : State) (hk : Keeps W q0 s) (hW : Sub 0x9 W) : Keeps W
    q0 (setOwner h t s) := by
  unfold setOwner
  with_reducible repeat' (first
    | assumption | apply setHart_keeps | apply wr_keeps | exact sub_of (by assumption) (by decide) | split)

theorem setX_keeps {W : Nat} {q0 : State} (h r v : Nat) (s : State) (hk : Keeps W q0 s) (hW : Sub 0x8 W) : Keeps W q0
    (setX h r v s) := by
  unfold setX
  with_reducible repeat' (first | assumption | apply setHart_keeps | exact sub_of (by assumption) (by decide) | split)

theorem setCsr_keeps {W : Nat} {q0 : State} (h n v : Nat) (s : State) (hk : Keeps W q0 s) (hW : Sub 0x8 W) : Keeps W
    q0 (setCsr h n v s) := by
  unfold setCsr
  with_reducible repeat' (first | assumption | apply setHart_keeps)

theorem addCsr_keeps {W : Nat} {q0 : State} (h c n : Nat) (s : State) (hk : Keeps W q0 s)
    (hW : Sub 0x8 W := by first | assumption | exact sub_of (by assumption) (by decide)) :
    Keeps W q0 (addCsr h c n s).1 := by
  unfold addCsr
  repeat' (first
    | with_reducible assumption | exact sub_of (by assumption) (by decide) | with_reducible apply setCsr_keeps
    | with_reducible refine foldl_keeps _ _ _ ?_ ?_ | with_reducible refine foldl_fst_keeps _ _ _ ?_ ?_ | intro _ _ _
    | intro _ | with_reducible refine keeps_ite _ _ _ ?_ ?_ | split
    | with_reducible refine keeps_fst ?_ (by assumption) | with_reducible refine keeps_fst2 ?_ (by assumption)
    | simp only [])

theorem overflow_keeps {W : Nat} {q0 : State} (h k : Nat) (s : State) (hk : Keeps W q0 s)
    (hW : Sub 0x8 W := by first | assumption | exact sub_of (by assumption) (by decide)) :
    Keeps W q0 (overflow h k s) := by
  unfold overflow
  repeat' (first
    | with_reducible assumption | exact sub_of (by assumption) (by decide) | with_reducible apply setHart_keeps
    | with_reducible apply setCsr_keeps | with_reducible refine foldl_keeps _ _ _ ?_ ?_
    | with_reducible refine foldl_fst_keeps _ _ _ ?_ ?_ | intro _ _ _ | intro _
    | with_reducible refine keeps_ite _ _ _ ?_ ?_ | split | with_reducible refine keeps_fst ?_ (by assumption)
    | with_reducible refine keeps_fst2 ?_ (by assumption) | simp only [])

theorem countN_keeps {W : Nat} {q0 : State} (h code n : Nat) (s : State) (hk : Keeps W q0 s)
    (hW : Sub 0x8 W := by first | assumption | exact sub_of (by assumption) (by decide)) :
    Keeps W q0 (countN h code n s) := by
  unfold countN
  repeat' (first
    | with_reducible assumption | exact sub_of (by assumption) (by decide) | with_reducible apply addCsr_keeps
    | with_reducible apply overflow_keeps | with_reducible refine foldl_keeps _ _ _ ?_ ?_
    | with_reducible refine foldl_fst_keeps _ _ _ ?_ ?_ | intro _ _ _ | intro _
    | with_reducible refine keeps_ite _ _ _ ?_ ?_ | split | with_reducible refine keeps_fst ?_ (by assumption)
    | with_reducible refine keeps_fst2 ?_ (by assumption) | simp only [])

theorem countEvent_keeps {W : Nat} {q0 : State} (h code : Nat) (s : State) (hk : Keeps W q0 s)
    (hW : Sub 0x8 W := by first | assumption | exact sub_of (by assumption) (by decide)) :
    Keeps W q0 (countEvent h code s) := by
  unfold countEvent
  repeat' (first
    | with_reducible assumption | exact sub_of (by assumption) (by decide) | with_reducible apply countN_keeps
    | with_reducible refine foldl_keeps _ _ _ ?_ ?_ | with_reducible refine foldl_fst_keeps _ _ _ ?_ ?_ | intro _ _ _
    | intro _ | with_reducible refine keeps_ite _ _ _ ?_ ?_ | split
    | with_reducible refine keeps_fst ?_ (by assumption) | with_reducible refine keeps_fst2 ?_ (by assumption)
    | simp only [])

theorem countInst_keeps {W : Nat} {q0 : State} (h : Nat) (s : State) (hk : Keeps W q0 s)
    (hW : Sub 0x8 W := by first | assumption | exact sub_of (by assumption) (by decide)) :
    Keeps W q0 (countInst h s) := by
  unfold countInst
  repeat' (first
    | with_reducible assumption | exact sub_of (by assumption) (by decide) | with_reducible apply addCsr_keeps
    | with_reducible apply countEvent_keeps | with_reducible refine foldl_keeps _ _ _ ?_ ?_
    | with_reducible refine foldl_fst_keeps _ _ _ ?_ ?_ | intro _ _ _ | intro _
    | with_reducible refine keeps_ite _ _ _ ?_ ?_ | split | with_reducible refine keeps_fst ?_ (by assumption)
    | with_reducible refine keeps_fst2 ?_ (by assumption) | simp only [])

theorem countCycles_keeps {W : Nat} {q0 : State} (h n : Nat) (s : State) (hk : Keeps W q0 s)
    (hW : Sub 0x8 W := by first | assumption | exact sub_of (by assumption) (by decide)) :
    Keeps W q0 (countCycles h n s) := by
  unfold countCycles
  repeat' (first
    | with_reducible assumption | exact sub_of (by assumption) (by decide) | with_reducible apply addCsr_keeps
    | with_reducible refine foldl_keeps _ _ _ ?_ ?_ | with_reducible refine foldl_fst_keeps _ _ _ ?_ ?_ | intro _ _ _
    | intro _ | with_reducible refine keeps_ite _ _ _ ?_ ?_ | split
    | with_reducible refine keeps_fst ?_ (by assumption) | with_reducible refine keeps_fst2 ?_ (by assumption)
    | simp only [])

theorem dropReads_keeps {W : Nat} {q0 : State} (w : Reader) (s : State) (hk : Keeps W q0 s)
    (hW : Sub 0x400 W := by first | assumption | exact sub_of (by assumption) (by decide)) :
    Keeps W q0 (dropReads w s) := by
  unfold dropReads
  repeat' (first
    | with_reducible assumption | exact sub_of (by assumption) (by decide)
    | with_reducible exact twf_tset _ _ _ _ (by assumption)
    | with_reducible refine keeps_chan (W := W) ?_ _ (by assumption) | with_reducible exact twf_nil _
    | with_reducible refine keeps_ok (W := W) ?_ (by assumption) | with_reducible refine foldl_keeps _ _ _ ?_ ?_
    | with_reducible refine foldl_fst_keeps _ _ _ ?_ ?_ | intro _ _ _ | intro _
    | with_reducible refine keeps_ite _ _ _ ?_ ?_ | split | with_reducible refine keeps_fst ?_ (by assumption)
    | with_reducible refine keeps_fst2 ?_ (by assumption) | simp only []
    | with_reducible refine keeps_lit (by assumption) ?_
    | (refine keeps_mem _ ?_ ?_ (sub_of (by assumption) (by decide))))

theorem dropRead_keeps {W : Nat} {q0 : State} (w : Reader) (line : Nat) (s : State) (hk : Keeps W q0 s)
    (hW : Sub 0x400 W := by first | assumption | exact sub_of (by assumption) (by decide)) :
    Keeps W q0 (dropRead w line s) := by
  unfold dropRead
  repeat' (first
    | with_reducible assumption | exact sub_of (by assumption) (by decide)
    | with_reducible exact twf_tset _ _ _ _ (by assumption)
    | with_reducible refine keeps_chan (W := W) ?_ _ (by assumption) | with_reducible exact twf_nil _
    | with_reducible refine keeps_ok (W := W) ?_ (by assumption) | with_reducible refine foldl_keeps _ _ _ ?_ ?_
    | with_reducible refine foldl_fst_keeps _ _ _ ?_ ?_ | intro _ _ _ | intro _
    | with_reducible refine keeps_ite _ _ _ ?_ ?_ | split | with_reducible refine keeps_fst ?_ (by assumption)
    | with_reducible refine keeps_fst2 ?_ (by assumption) | simp only []
    | with_reducible refine keeps_lit (by assumption) ?_
    | (refine keeps_mem _ ?_ ?_ (sub_of (by assumption) (by decide))))

theorem squash_keeps {W : Nat} {q0 : State} (h : Nat) (s : State) (hk : Keeps W q0 s)
    (hW : Sub 0x418 W := by first | assumption | exact sub_of (by assumption) (by decide)) :
    Keeps W q0 (squash h s) := by
  unfold squash
  repeat' (first
    | with_reducible assumption | exact sub_of (by assumption) (by decide)
    | with_reducible exact twf_tset _ _ _ _ (by assumption)
    | with_reducible refine keeps_chan (W := W) ?_ _ (by assumption) | with_reducible exact twf_nil _
    | with_reducible refine keeps_ok (W := W) ?_ (by assumption) | with_reducible apply setCore_keeps
    | with_reducible apply countN_keeps | with_reducible apply dropReads_keeps
    | with_reducible refine foldl_keeps _ _ _ ?_ ?_ | with_reducible refine foldl_fst_keeps _ _ _ ?_ ?_ | intro _ _ _
    | intro _ | with_reducible refine keeps_ite _ _ _ ?_ ?_ | split
    | with_reducible refine keeps_fst ?_ (by assumption) | with_reducible refine keeps_fst2 ?_ (by assumption)
    | simp only [])

theorem flush_keeps {W : Nat} {q0 : State} (h : Nat) (s : State) (hk : Keeps W q0 s)
    (hW : Sub 0x418 W := by first | assumption | exact sub_of (by assumption) (by decide)) :
    Keeps W q0 (flush h s) := by
  unfold flush
  repeat' (first
    | with_reducible assumption | exact sub_of (by assumption) (by decide) | with_reducible apply countEvent_keeps
    | with_reducible apply squash_keeps | with_reducible refine foldl_keeps _ _ _ ?_ ?_
    | with_reducible refine foldl_fst_keeps _ _ _ ?_ ?_ | intro _ _ _ | intro _
    | with_reducible refine keeps_ite _ _ _ ?_ ?_ | split | with_reducible refine keeps_fst ?_ (by assumption)
    | with_reducible refine keeps_fst2 ?_ (by assumption) | simp only [])

theorem nameElem_keeps {W : Nat} {q0 : State} (h : Nat) (e : Option Nat) (s : State) (hk : Keeps W q0 s)
    (hW : Sub 0x8 W := by first | assumption | exact sub_of (by assumption) (by decide)) :
    Keeps W q0 (nameElem h e s) := by
  unfold nameElem
  repeat' (first
    | with_reducible assumption | exact sub_of (by assumption) (by decide) | with_reducible apply setCsr_keeps
    | with_reducible refine foldl_keeps _ _ _ ?_ ?_ | with_reducible refine foldl_fst_keeps _ _ _ ?_ ?_ | intro _ _ _
    | intro _ | with_reducible refine keeps_ite _ _ _ ?_ ?_ | split
    | with_reducible refine keeps_fst ?_ (by assumption) | with_reducible refine keeps_fst2 ?_ (by assumption)
    | simp only [])

theorem dropAccess_keeps {W : Nat} {q0 : State} (h : Nat) (s : State) (hk : Keeps W q0 s)
    (hW : Sub 0x8 W := by first | assumption | exact sub_of (by assumption) (by decide)) :
    Keeps W q0 (dropAccess h s) := by
  unfold dropAccess
  repeat' (first
    | with_reducible assumption | exact sub_of (by assumption) (by decide) | with_reducible apply setHart_keeps
    | with_reducible refine foldl_keeps _ _ _ ?_ ?_ | with_reducible refine foldl_fst_keeps _ _ _ ?_ ?_ | intro _ _ _
    | intro _ | with_reducible refine keeps_ite _ _ _ ?_ ?_ | split
    | with_reducible refine keeps_fst ?_ (by assumption) | with_reducible refine keeps_fst2 ?_ (by assumption)
    | simp only [])

theorem raise_keeps {W : Nat} {q0 : State} (h cause tval : Nat) (s : State) (hk : Keeps W q0 s)
    (hW : Sub 0x418 W := by first | assumption | exact sub_of (by assumption) (by decide)) :
    Keeps W q0 (raise h cause tval s) := by
  unfold raise
  repeat' (first
    | with_reducible assumption | exact sub_of (by assumption) (by decide) | with_reducible apply setHart_keeps
    | with_reducible apply flush_keeps | with_reducible apply nameElem_keeps
    | with_reducible refine foldl_keeps _ _ _ ?_ ?_ | with_reducible refine foldl_fst_keeps _ _ _ ?_ ?_ | intro _ _ _
    | intro _ | with_reducible refine keeps_ite _ _ _ ?_ ?_ | split
    | with_reducible refine keeps_fst ?_ (by assumption) | with_reducible refine keeps_fst2 ?_ (by assumption)
    | simp only [])

theorem raiseInstr_keeps {W : Nat} {q0 : State} (h cause : Nat) (s : State) (hk : Keeps W q0 s)
    (hW : Sub 0x20000418 W := by first | assumption | exact sub_of (by assumption) (by decide)) :
    Keeps W q0 (raiseInstr h cause s) := by
  unfold raiseInstr
  repeat' (first
    | with_reducible assumption | exact sub_of (by assumption) (by decide) | with_reducible apply freeNext_keeps
    | with_reducible apply raise_keeps | with_reducible refine foldl_keeps _ _ _ ?_ ?_
    | with_reducible refine foldl_fst_keeps _ _ _ ?_ ?_ | intro _ _ _ | intro _
    | with_reducible refine keeps_ite _ _ _ ?_ ?_ | split | with_reducible refine keeps_fst ?_ (by assumption)
    | with_reducible refine keeps_fst2 ?_ (by assumption) | simp only [])

theorem endAccess_keeps {W : Nat} {q0 : State} (h : Nat) (more : Bool) (s : State) (hk : Keeps W q0 s)
    (hW : Sub 0x408 W := by first | assumption | exact sub_of (by assumption) (by decide)) :
    Keeps W q0 (endAccess h more s) := by
  unfold endAccess
  repeat' (first
    | with_reducible assumption | exact sub_of (by assumption) (by decide)
    | with_reducible exact twf_tset _ _ _ _ (by assumption)
    | with_reducible refine keeps_chan (W := W) ?_ _ (by assumption) | with_reducible exact twf_nil _
    | with_reducible refine keeps_ok (W := W) ?_ (by assumption) | with_reducible apply setHart_keeps
    | with_reducible apply countEvent_keeps | with_reducible apply countInst_keeps
    | with_reducible apply dropReads_keeps | with_reducible refine foldl_keeps _ _ _ ?_ ?_
    | with_reducible refine foldl_fst_keeps _ _ _ ?_ ?_ | intro _ _ _ | intro _
    | with_reducible refine keeps_ite _ _ _ ?_ ?_ | split | with_reducible refine keeps_fst ?_ (by assumption)
    | with_reducible refine keeps_fst2 ?_ (by assumption) | simp only [])

theorem setF_keeps {W : Nat} {q0 : State} (h f size v : Nat) (s : State) (hk : Keeps W q0 s)
    (hW : Sub 0x8 W := by first | assumption | exact sub_of (by assumption) (by decide)) :
    Keeps W q0 (setF h f size v s) := by
  unfold setF
  repeat' (first
    | with_reducible assumption | exact sub_of (by assumption) (by decide) | with_reducible apply setHart_keeps
    | with_reducible refine foldl_keeps _ _ _ ?_ ?_ | with_reducible refine foldl_fst_keeps _ _ _ ?_ ?_ | intro _ _ _
    | intro _ | with_reducible refine keeps_ite _ _ _ ?_ ?_ | split
    | with_reducible refine keeps_fst ?_ (by assumption) | with_reducible refine keeps_fst2 ?_ (by assumption)
    | simp only [])

theorem setVec_keeps {W : Nat} {q0 : State} (h v e size x : Nat) (s : State) (hk : Keeps W q0 s)
    (hW : Sub 0x8 W := by first | assumption | exact sub_of (by assumption) (by decide)) :
    Keeps W q0 (setVec h v e size x s) := by
  unfold setVec
  repeat' (first
    | with_reducible assumption | exact sub_of (by assumption) (by decide) | with_reducible apply setHart_keeps
    | with_reducible refine foldl_keeps _ _ _ ?_ ?_ | with_reducible refine foldl_fst_keeps _ _ _ ?_ ?_ | intro _ _ _
    | intro _ | with_reducible refine keeps_ite _ _ _ ?_ ?_ | split
    | with_reducible refine keeps_fst ?_ (by assumption) | with_reducible refine keeps_fst2 ?_ (by assumption)
    | simp only [])

theorem modPair_keeps {W : Nat} {q0 : State} (p : Nat) (f : Pair → Pair) (s : State) (hk : Keeps W q0 s) (hW : Sub
    0x20 W) : Keeps W q0 (modPair p f s) := by
  unfold modPair
  with_reducible repeat' (first | assumption | apply setPair_keeps)

theorem freeze_keeps {W : Nat} {q0 : State} (p bus bit cause : Nat) (s : State) (hk : Keeps W q0 s)
    (hW : Sub 0x80029 W := by first | assumption | exact sub_of (by assumption) (by decide)) :
    Keeps W q0 (freeze p bus bit cause s) := by
  unfold freeze
  repeat' (first
    | with_reducible assumption | exact sub_of (by assumption) (by decide) | with_reducible apply wr_keeps
    | with_reducible apply bump_keeps | with_reducible apply clkIrq_keeps | with_reducible apply setHart_keeps
    | with_reducible apply modPair_keeps | with_reducible refine foldl_keeps _ _ _ ?_ ?_
    | with_reducible refine foldl_fst_keeps _ _ _ ?_ ?_ | intro _ _ _ | intro _
    | with_reducible refine keeps_ite _ _ _ ?_ ?_ | split | with_reducible refine keeps_fst ?_ (by assumption)
    | with_reducible refine keeps_fst2 ?_ (by assumption) | simp only [])

theorem presentPair_keeps {W : Nat} {q0 : State} (p : Nat) (f : State → State) (s : State) (h_f : ∀ a, Keeps W q0 a
    → Keeps W q0 (f a)) (hk : Keeps W q0 s)
    (hW : Sub 0x20080029 W := by first | assumption | exact sub_of (by assumption) (by decide)) :
    Keeps W q0 (presentPair p f s) := by
  unfold presentPair
  repeat' (first
    | with_reducible assumption | exact sub_of (by assumption) (by decide) | with_reducible apply freeNext_keeps
    | with_reducible apply modPair_keeps | with_reducible apply freeze_keeps | with_reducible apply h_f
    | with_reducible refine foldl_keeps _ _ _ ?_ ?_ | with_reducible refine foldl_fst_keeps _ _ _ ?_ ?_ | intro _ _ _
    | intro _ | with_reducible refine keeps_ite _ _ _ ?_ ?_ | split
    | with_reducible refine keeps_fst ?_ (by assumption) | with_reducible refine keeps_fst2 ?_ (by assumption)
    | simp only [])

theorem presentWrite_keeps {W : Nat} {q0 : State} (h : Nat) (f : State → State) (s : State) (h_f : ∀ a, Keeps W q0 a
    → Keeps W q0 (f a)) (hk : Keeps W q0 s)
    (hW : Sub 0x20080029 W := by first | assumption | exact sub_of (by assumption) (by decide)) :
    Keeps W q0 (presentWrite h f s) := by
  unfold presentWrite
  repeat' (first
    | with_reducible assumption | exact sub_of (by assumption) (by decide) | with_reducible apply presentPair_keeps
    | with_reducible apply h_f | with_reducible refine foldl_keeps _ _ _ ?_ ?_
    | with_reducible refine foldl_fst_keeps _ _ _ ?_ ?_ | intro _ _ _ | intro _
    | with_reducible refine keeps_ite _ _ _ ?_ ?_ | split | with_reducible refine keeps_fst ?_ (by assumption)
    | with_reducible refine keeps_fst2 ?_ (by assumption) | simp only [])

theorem keepRecord_keeps {W : Nat} {q0 : State} (h : Nat) (r : SideEff) (s : State) (hk : Keeps W q0 s)
    (hW : Sub 0x20 W := by first | assumption | exact sub_of (by assumption) (by decide)) :
    Keeps W q0 (keepRecord h r s) := by
  unfold keepRecord
  repeat' (first
    | with_reducible assumption | exact sub_of (by assumption) (by decide) | with_reducible apply setPair_keeps
    | with_reducible refine foldl_keeps _ _ _ ?_ ?_ | with_reducible refine foldl_fst_keeps _ _ _ ?_ ?_ | intro _ _ _
    | intro _ | with_reducible refine keeps_ite _ _ _ ?_ ?_ | split
    | with_reducible refine keeps_fst ?_ (by assumption) | with_reducible refine keeps_fst2 ?_ (by assumption)
    | simp only [])

theorem dropRecord_keeps {W : Nat} {q0 : State} (h : Nat) (s : State) (hk : Keeps W q0 s)
    (hW : Sub 0x20 W := by first | assumption | exact sub_of (by assumption) (by decide)) :
    Keeps W q0 (dropRecord h s) := by
  unfold dropRecord
  repeat' (first
    | with_reducible assumption | exact sub_of (by assumption) (by decide) | with_reducible apply setPair_keeps
    | with_reducible refine foldl_keeps _ _ _ ?_ ?_ | with_reducible refine foldl_fst_keeps _ _ _ ?_ ?_ | intro _ _ _
    | intro _ | with_reducible refine keeps_ite _ _ _ ?_ ?_ | split
    | with_reducible refine keeps_fst ?_ (by assumption) | with_reducible refine keeps_fst2 ?_ (by assumption)
    | simp only [])

theorem answerRecord_keeps {W : Nat} {q0 : State} (h : Nat) (resp : Nat × Nat) (s : State) (hk : Keeps W q0 s)
    (hW : Sub 0x20 W := by first | assumption | exact sub_of (by assumption) (by decide)) :
    Keeps W q0 (answerRecord h resp s) := by
  unfold answerRecord
  repeat' (first
    | with_reducible assumption | exact sub_of (by assumption) (by decide) | with_reducible apply setPair_keeps
    | with_reducible refine foldl_keeps _ _ _ ?_ ?_ | with_reducible refine foldl_fst_keeps _ _ _ ?_ ?_ | intro _ _ _
    | intro _ | with_reducible refine keeps_ite _ _ _ ?_ ?_ | split
    | with_reducible refine keeps_fst ?_ (by assumption) | with_reducible refine keeps_fst2 ?_ (by assumption)
    | simp only [])

/-! ## Operands -/

/-! ## Flags -/

/-! ## Mailbox -/

theorem stageDone_keeps {W : Nat} {q0 : State} (i clamped : Nat) (data : Bytes) (s : State) (hk : Keeps W q0 s) (hW :
    Sub 0x1001 W) : Keeps W q0 (stageDone i clamped data s) := by
  unfold stageDone
  with_reducible repeat' (first
    | assumption | apply setMbx_keeps | apply bump_keeps | exact sub_of (by assumption) (by decide) | split)

theorem stageRefused_keeps {W : Nat} {q0 : State} (i st : Nat) (s : State) (hk : Keeps W q0 s) (hW : Sub 0x1000 W) :
    Keeps W q0 (stageRefused i st s) := by
  unfold stageRefused
  with_reducible repeat' (first | assumption | apply setMbx_keeps)

theorem publishOne_keeps {W : Nat} {q0 : State} (b : Nat) (s : State) (i : Nat) (hk : Keeps W q0 s) (hW : Sub 0x1001
    W) : Keeps W q0 (publishOne b s i) := by
  unfold publishOne
  with_reducible repeat' (first
    | assumption | apply wr_keeps | apply setMbx_keeps | exact sub_of (by assumption) (by decide) | split
    | simp only [])

theorem publishNotices_keeps {W : Nat} {q0 : State} (s : State) (i : Nat) (hk : Keeps W q0 s) (hW : Sub 0x1001 W) :
    Keeps W q0 (publishNotices s i) := by
  unfold publishNotices
  with_reducible repeat' (first
    | assumption | apply wr_keeps | apply setMbx_keeps | exact sub_of (by assumption) (by decide))

theorem placeNotices_keeps {W : Nat} {q0 : State} (b : Nat) (s : State) (i : Nat) (hk : Keeps W q0 s) (hW : Sub
    0x1001 W) : Keeps W q0 (placeNotices b s i) := by
  unfold placeNotices
  with_reducible repeat' (first
    | assumption | apply bump_keeps | apply setMbx_keeps | exact sub_of (by assumption) (by decide))

theorem doorbell_keeps {W : Nat} {q0 : State} (i : Nat) (s : State) (hk : Keeps W q0 s) (hW : Sub 0x81001 W) : Keeps
    W q0 (doorbell i s) := by
  unfold doorbell
  with_reducible repeat' (first
    | assumption | apply setMbx_keeps | apply wr_keeps | apply clkIrq_keeps | apply bump_keeps
    | exact sub_of (by assumption) (by decide) | refine foldl_keeps _ _ _ ?_ ?_ | split | intro _ _ _)

theorem ackResult_keeps {W : Nat} {q0 : State} (i size v : Nat) (s : State) (hk : Keeps W q0 s) (hW : Sub 0x1001 W) :
    Keeps W q0 (ackResult i size v s) := by
  unfold ackResult
  with_reducible repeat' (first
    | assumption | apply wr_keeps | apply setMbx_keeps | exact sub_of (by assumption) (by decide) | split
    | simp only [])

theorem ackNotice_keeps {W : Nat} {q0 : State} (i size v : Nat) (s : State) (hk : Keeps W q0 s) (hW : Sub 0x1000 W) :
    Keeps W q0 (ackNotice i size v s) := by
  unfold ackNotice
  with_reducible repeat' (first | assumption | apply setMbx_keeps | exact sub_of (by assumption) (by decide) | split)

theorem refuseWindow_keeps {W : Nat} {q0 : State} (tag off : Nat) (s : State) (hk : Keeps W q0 s) (hW : Sub 0x82001 W
    := by first | assumption | exact sub_of (by assumption) (by decide)) : Keeps W q0 (refuseWindow tag off s) := by
  unfold refuseWindow
  with_reducible repeat' (first | assumption | apply recRefusal_keeps)

theorem pageWrite_keeps {W : Nat} {q0 : State} (i off size v : Nat) (s : State) (hk : Keeps W q0 s) (hW : Sub 0x81001
    W) : Keeps W q0 (pageWrite i off size v s) := by
  unfold pageWrite
  with_reducible repeat' (first
    | assumption | apply setMbx_keeps | apply doorbell_keeps | apply ackResult_keeps | apply ackNotice_keeps
    | exact sub_of (by assumption) (by decide) | split)

theorem abandonMbx_keeps {W : Nat} {q0 : State} (s : State) (i : Nat) (hk : Keeps W q0 s) (hW : Sub 0x1001 W := by
    first | assumption | exact sub_of (by assumption) (by decide)) : Keeps W q0 (abandonMbx s i) := by
  unfold abandonMbx
  with_reducible repeat' (first
    | assumption | apply bump_keeps | apply wr_keeps | apply setMbx_keeps
    | exact sub_of (by assumption) (by decide) | split)

theorem onCmd_keeps {W : Nat} {q0 : State} (i code : Nat) (f : Bytes → State → State) (s : State) (h_f : ∀ a0 a1,
    Keeps W q0 a1 → Keeps W q0 (f a0 a1)) (hk : Keeps W q0 s) (hW : Sub 0x1000 W) : Keeps W q0 (onCmd i code f s) :=
    by
  unfold onCmd
  with_reducible repeat' (first
    | assumption | apply setMbx_keeps | exact sub_of (by assumption) (by decide) | apply h_f | split)

theorem fieldStore_keeps {W : Nat} {q0 : State} (w m : Nat) (s : State) (f : Fld) (hk : Keeps W q0 s) (hW : Sub 0x1
    W) : Keeps W q0 (fieldStore w m s f) := by
  unfold fieldStore
  with_reducible repeat' (first
    | assumption | apply wr_keeps | exact sub_of (by assumption) (by decide) | split | simp only [])

/-! ## Time -/

theorem setTime_keeps {W : Nat} {q0 : State} (t : TimeSt) (s : State) (hk : Keeps W q0 s) (hW : Sub 0x4 W) : Keeps W
    q0 (setTime t s) := by
  unfold setTime
  with_reducible repeat' (first
    | assumption | exact sub_of (by assumption) (by decide) | refine keeps_lit (by assumption) ?_)

theorem enterHoldover_keeps {W : Nat} {q0 : State} (sl : Nat) (s : State) (hk : Keeps W q0 s) (hW : Sub 0x82005 W) :
    Keeps W q0 (enterHoldover sl s) := by
  unfold enterHoldover
  with_reducible repeat' (first
    | assumption | apply recContained_keeps | apply wr_keeps | apply setTime_keeps
    | exact sub_of (by assumption) (by decide))

theorem refLost_keeps {W : Nat} {q0 : State} (sl r : Nat) (s : State) (hk : Keeps W q0 s)
    (hW : Sub 0x82005 W := by first | assumption | exact sub_of (by assumption) (by decide)) :
    Keeps W q0 (refLost sl r s) := by
  unfold refLost
  repeat' (first
    | with_reducible assumption | exact sub_of (by assumption) (by decide) | with_reducible apply wr_keeps
    | with_reducible apply recContained_keeps | with_reducible apply enterHoldover_keeps
    | with_reducible refine foldl_keeps _ _ _ ?_ ?_ | with_reducible refine foldl_fst_keeps _ _ _ ?_ ?_ | intro _ _ _
    | intro _ | with_reducible refine keeps_ite _ _ _ ?_ ?_ | split
    | with_reducible refine keeps_fst ?_ (by assumption) | with_reducible refine keeps_fst2 ?_ (by assumption)
    | simp only [])

theorem refclkLoss_keeps {W : Nat} {q0 : State} (r gapNs ppm : Nat) (s : State) (hk : Keeps W q0 s)
    (hW : Sub 0x82005 W := by first | assumption | exact sub_of (by assumption) (by decide)) :
    Keeps W q0 (refclkLoss r gapNs ppm s) := by
  unfold refclkLoss
  repeat' (first
    | with_reducible assumption | exact sub_of (by assumption) (by decide) | with_reducible apply wr_keeps
    | with_reducible apply refLost_keeps | with_reducible refine foldl_keeps _ _ _ ?_ ?_
    | with_reducible refine foldl_fst_keeps _ _ _ ?_ ?_ | intro _ _ _ | intro _
    | with_reducible refine keeps_ite _ _ _ ?_ ?_ | split | with_reducible refine keeps_fst ?_ (by assumption)
    | with_reducible refine keeps_fst2 ?_ (by assumption) | simp only [])

theorem refclkRecovered_keeps {W : Nat} {q0 : State} (r cycles : Nat) (s : State) (hk : Keeps W q0 s) (hW : Sub 0x1
    W) : Keeps W q0 (refclkRecovered r cycles s) := by
  unfold refclkRecovered
  with_reducible repeat' (first | assumption | apply wr_keeps | exact sub_of (by assumption) (by decide) | split)

theorem refBoundary_keeps {W : Nat} {q0 : State} (b : Nat) (s : State) (hk : Keeps W q0 s)
    (hW : Sub 0x82001 W := by first | assumption | exact sub_of (by assumption) (by decide)) :
    Keeps W q0 (refBoundary b s) := by
  unfold refBoundary
  repeat' (first
    | with_reducible assumption | exact sub_of (by assumption) (by decide) | with_reducible apply wr_keeps
    | with_reducible apply recContained_keeps | with_reducible refine foldl_keeps _ _ _ ?_ ?_
    | with_reducible refine foldl_fst_keeps _ _ _ ?_ ?_ | intro _ _ _ | intro _
    | with_reducible refine keeps_ite _ _ _ ?_ ?_ | split | with_reducible refine keeps_fst ?_ (by assumption)
    | with_reducible refine keeps_fst2 ?_ (by assumption) | simp only [])

theorem refWake_keeps {W : Nat} {q0 : State} (b : Nat) (s : State) (hk : Keeps W q0 s) (hW : Sub 0x82005 W) : Keeps W
    q0 (refWake b s) := by
  unfold refWake
  with_reducible repeat' (first
    | assumption | apply setTime_keeps | apply refLost_keeps | exact sub_of (by assumption) (by decide) | split
    | simp only [])

theorem holdoverBeat_keeps {W : Nat} {q0 : State} (s : State) (hk : Keeps W q0 s) (hW : Sub 0x5 W) : Keeps W q0
    (holdoverBeat s) := by
  unfold holdoverBeat
  with_reducible repeat' (first
    | assumption | apply bump_keeps | apply setTime_keeps | exact sub_of (by assumption) (by decide) | split)

theorem portClocks_keeps {W : Nat} {q0 : State} (s : State) (hk : Keeps W q0 s)
    (hW : Sub 0x10000 W := by first | assumption | exact sub_of (by assumption) (by decide)) :
    Keeps W q0 (portClocks s) := by
  unfold portClocks
  repeat' (first
    | with_reducible assumption | exact sub_of (by assumption) (by decide)
    | with_reducible refine foldl_keeps _ _ _ ?_ ?_ | with_reducible refine foldl_fst_keeps _ _ _ ?_ ?_ | intro _ _ _
    | intro _ | with_reducible refine keeps_ite _ _ _ ?_ ?_ | split
    | with_reducible refine keeps_fst ?_ (by assumption) | with_reducible refine keeps_fst2 ?_ (by assumption)
    | simp only [] | with_reducible refine keeps_lit (by assumption) ?_)

theorem advanceTime_keeps {W : Nat} {q0 : State} (s : State) (hk : Keeps W q0 s)
    (hW : Sub 0x10005 W := by first | assumption | exact sub_of (by assumption) (by decide)) :
    Keeps W q0 (advanceTime s) := by
  unfold advanceTime
  repeat' (first
    | with_reducible assumption | exact sub_of (by assumption) (by decide) | with_reducible apply wr_keeps
    | with_reducible apply setTime_keeps | with_reducible apply portClocks_keeps
    | with_reducible refine foldl_keeps _ _ _ ?_ ?_ | with_reducible refine foldl_fst_keeps _ _ _ ?_ ?_ | intro _ _ _
    | intro _ | with_reducible refine keeps_ite _ _ _ ?_ ?_ | split
    | with_reducible refine keeps_fst ?_ (by assumption) | with_reducible refine keeps_fst2 ?_ (by assumption)
    | simp only [])

theorem slewDone_keeps {W : Nat} {q0 : State} (s : State) (hk : Keeps W q0 s) (hW : Sub 0x5 W) : Keeps W q0 (slewDone
    s) := by
  unfold slewDone
  with_reducible repeat' (first
    | assumption | apply wr_keeps | apply setTime_keeps | exact sub_of (by assumption) (by decide) | split)

theorem stopSlew_keeps {W : Nat} {q0 : State} (s : State) (hk : Keeps W q0 s)
    (hW : Sub 0x5 W := by first | assumption | exact sub_of (by assumption) (by decide)) :
    Keeps W q0 (stopSlew s) := by
  unfold stopSlew
  repeat' (first
    | with_reducible assumption | exact sub_of (by assumption) (by decide) | with_reducible apply wr_keeps
    | with_reducible apply setTime_keeps | with_reducible refine foldl_keeps _ _ _ ?_ ?_
    | with_reducible refine foldl_fst_keeps _ _ _ ?_ ?_ | intro _ _ _ | intro _
    | with_reducible refine keeps_ite _ _ _ ?_ ?_ | split | with_reducible refine keeps_fst ?_ (by assumption)
    | with_reducible refine keeps_fst2 ?_ (by assumption) | simp only [])

theorem realign_keeps {W : Nat} {q0 : State} (s : State) (hk : Keeps W q0 s)
    (hW : Sub 0x5 W := by first | assumption | exact sub_of (by assumption) (by decide)) :
    Keeps W q0 (realign s) := by
  unfold realign
  repeat' (first
    | with_reducible assumption | exact sub_of (by assumption) (by decide) | with_reducible apply wr_keeps
    | with_reducible apply setTime_keeps | with_reducible refine foldl_keeps _ _ _ ?_ ?_
    | with_reducible refine foldl_fst_keeps _ _ _ ?_ ?_ | intro _ _ _ | intro _
    | with_reducible refine keeps_ite _ _ _ ?_ ?_ | split | with_reducible refine keeps_fst ?_ (by assumption)
    | with_reducible refine keeps_fst2 ?_ (by assumption) | simp only [])

theorem ownCaptain_keeps {W : Nat} {q0 : State} (s : State) (hk : Keeps W q0 s)
    (hW : Sub 0x5 W := by first | assumption | exact sub_of (by assumption) (by decide)) :
    Keeps W q0 (ownCaptain s) := by
  unfold ownCaptain
  repeat' (first
    | with_reducible assumption | exact sub_of (by assumption) (by decide) | with_reducible apply wr_keeps
    | with_reducible apply stopSlew_keeps | with_reducible apply realign_keeps
    | with_reducible refine foldl_keeps _ _ _ ?_ ?_ | with_reducible refine foldl_fst_keeps _ _ _ ?_ ?_ | intro _ _ _
    | intro _ | with_reducible refine keeps_ite _ _ _ ?_ ?_ | split
    | with_reducible refine keeps_fst ?_ (by assumption) | with_reducible refine keeps_fst2 ?_ (by assumption)
    | simp only [])

theorem takeBeat_keeps {W : Nat} {q0 : State} (s : State) (hk : Keeps W q0 s)
    (hW : Sub 0x1 W := by first | assumption | exact sub_of (by assumption) (by decide)) :
    Keeps W q0 (takeBeat s) := by
  unfold takeBeat
  repeat' (first
    | with_reducible assumption | exact sub_of (by assumption) (by decide) | with_reducible apply wr_keeps
    | with_reducible refine foldl_keeps _ _ _ ?_ ?_ | with_reducible refine foldl_fst_keeps _ _ _ ?_ ?_ | intro _ _ _
    | intro _ | with_reducible refine keeps_ite _ _ _ ?_ ?_ | split
    | with_reducible refine keeps_fst ?_ (by assumption) | with_reducible refine keeps_fst2 ?_ (by assumption)
    | simp only [])

theorem takeTime_keeps {W : Nat} {q0 : State} (slew : Bool) (s : State) (hk : Keeps W q0 s)
    (hW : Sub 0x5 W := by first | assumption | exact sub_of (by assumption) (by decide)) :
    Keeps W q0 (takeTime slew s) := by
  unfold takeTime
  repeat' (first
    | with_reducible assumption | exact sub_of (by assumption) (by decide) | with_reducible apply wr_keeps
    | with_reducible apply stopSlew_keeps | with_reducible refine foldl_keeps _ _ _ ?_ ?_
    | with_reducible refine foldl_fst_keeps _ _ _ ?_ ?_ | intro _ _ _ | intro _
    | with_reducible refine keeps_ite _ _ _ ?_ ?_ | split | with_reducible refine keeps_fst ?_ (by assumption)
    | with_reducible refine keeps_fst2 ?_ (by assumption) | simp only [])

theorem alignTo_keeps {W : Nat} {q0 : State} (e : Int) (s : State) (hk : Keeps W q0 s)
    (hW : Sub 0x5 W := by first | assumption | exact sub_of (by assumption) (by decide)) :
    Keeps W q0 (alignTo e s) := by
  unfold alignTo
  repeat' (first
    | with_reducible assumption | exact sub_of (by assumption) (by decide) | with_reducible apply wr_keeps
    | with_reducible apply setTime_keeps | with_reducible apply takeBeat_keeps | with_reducible apply takeTime_keeps
    | with_reducible refine foldl_keeps _ _ _ ?_ ?_ | with_reducible refine foldl_fst_keeps _ _ _ ?_ ?_ | intro _ _ _
    | intro _ | with_reducible refine keeps_ite _ _ _ ?_ ?_ | split
    | with_reducible refine keeps_fst ?_ (by assumption) | with_reducible refine keeps_fst2 ?_ (by assumption)
    | simp only [])

theorem alignBoundary_keeps {W : Nat} {q0 : State} (s : State) (hk : Keeps W q0 s)
    (hW : Sub 0x5 W := by first | assumption | exact sub_of (by assumption) (by decide)) :
    Keeps W q0 (alignBoundary s) := by
  unfold alignBoundary
  repeat' (first
    | with_reducible assumption | exact sub_of (by assumption) (by decide) | with_reducible apply alignTo_keeps
    | with_reducible refine foldl_keeps _ _ _ ?_ ?_ | with_reducible refine foldl_fst_keeps _ _ _ ?_ ?_ | intro _ _ _
    | intro _ | with_reducible refine keeps_ite _ _ _ ?_ ?_ | split
    | with_reducible refine keeps_fst ?_ (by assumption) | with_reducible refine keeps_fst2 ?_ (by assumption)
    | simp only [])

theorem copyCheck_keeps {W : Nat} {q0 : State} (b : Nat) (bad : List Nat) (s : State) (hk : Keeps W q0 s) (hW : Sub
    0x82001 W) : Keeps W q0 (copyCheck b bad s) := by
  unfold copyCheck
  with_reducible repeat' (first
    | assumption | apply recContained_keeps | exact sub_of (by assumption) (by decide)
    | refine foldl_keeps _ _ _ ?_ ?_ | intro _ _ _)

theorem aoSource_keeps {W : Nat} {q0 : State} (s : State) (hk : Keeps W q0 s) (hW : Sub 0x1 W) : Keeps W q0 (aoSource
    s) := by
  unfold aoSource
  with_reducible repeat' (first | assumption | apply wrB_keeps)

/-! ## Dram -/

theorem setMem_keeps {W : Nat} {q0 : State} (m : Mem) (s : State) (h_m : dramWf q0.mem.chans = true → dramWf m.chans
    = true) (hk : Keeps W q0 s) (hW : Sub 0x400 W := by first | assumption | exact sub_of (by assumption) (by
    decide)) : Keeps W q0 (setMem m s) :=
  keeps_mem _ hk h_m hW

theorem setChan_keeps {W : Nat} {q0 : State} (c : Nat) (r : Chan) (s : State) (h_r : dramWf q0.mem.chans = true → twf
    {} r.lines = true) (hk : Keeps W q0 s)
    (hW : Sub 0x400 W := by first | assumption | exact sub_of (by assumption) (by decide)) : Keeps W q0 (setChan c r
    s) :=
  keeps_mem _ hk (fun h => dramWf_tset _ _ _ (hk.2.2.1 h) (h_r h)) hW

theorem modChan_keeps {W : Nat} {q0 : State} (c : Nat) (f : Chan → Chan) (s : State) (h_f : ∀ r, twf {} r.lines =
    true → twf {} (f r).lines = true) (hk : Keeps W q0 s)
    (hW : Sub 0x400 W := by first | assumption | exact sub_of (by assumption) (by decide)) : Keeps W q0 (modChan c f
    s) :=
  setChan_keeps _ _ _ (fun h => h_f _ (dramWf_get _ _ (hk.2.2.1 h))) hk

theorem setLine_keeps {W : Nat} {q0 : State} (c line : Nat) (l : DLine) (s : State) (hk : Keeps W q0 s) (hW : Sub
    0x400 W := by first | assumption | exact sub_of (by assumption) (by decide)) : Keeps W q0 (setLine c line l s) :=
    modChan_keeps _ _ _ (fun _ h => twf_tset _ _ _ _ h) hk

theorem eccLast_keeps {W : Nat} {q0 : State} (c line device kind : Nat) (k : Coord) (s : State) (hk : Keeps W q0 s)
    (hW : Sub 0x1 W) : Keeps W q0 (eccLast c line device kind k s) := by
  unfold eccLast
  with_reducible repeat' (first | assumption | apply wr_keeps)

theorem listRow_keeps {W : Nat} {q0 : State} (c : Nat) (k : Coord) (s : State) (hk : Keeps W q0 s)
    (hW : Sub 0x401 W := by first | assumption | exact sub_of (by assumption) (by decide)) :
    Keeps W q0 (listRow c k s) := by
  unfold listRow
  repeat' (first
    | with_reducible assumption | exact sub_of (by assumption) (by decide)
    | with_reducible exact twf_tset _ _ _ _ (by assumption)
    | with_reducible refine keeps_chan (W := W) ?_ _ (by assumption) | with_reducible exact twf_nil _
    | with_reducible refine keeps_ok (W := W) ?_ (by assumption) | with_reducible apply wr_keeps
    | with_reducible apply setChan_keeps | with_reducible refine foldl_keeps _ _ _ ?_ ?_
    | with_reducible refine foldl_fst_keeps _ _ _ ?_ ?_ | intro _ _ _ | intro _
    | with_reducible refine keeps_ite _ _ _ ?_ ?_ | split | with_reducible refine keeps_fst ?_ (by assumption)
    | with_reducible refine keeps_fst2 ?_ (by assumption) | simp only [])

theorem markRow_keeps {W : Nat} {q0 : State} (c : Nat) (k : Coord) (s : State) (hk : Keeps W q0 s)
    (hW : Sub 0x401 W := by first | assumption | exact sub_of (by assumption) (by decide)) :
    Keeps W q0 (markRow c k s) := by
  unfold markRow
  repeat' (first
    | with_reducible assumption | exact sub_of (by assumption) (by decide)
    | with_reducible exact twf_tset _ _ _ _ (by assumption)
    | with_reducible refine keeps_chan (W := W) ?_ _ (by assumption) | with_reducible exact twf_nil _
    | with_reducible refine keeps_ok (W := W) ?_ (by assumption) | with_reducible apply wr_keeps
    | with_reducible apply modChan_keeps | with_reducible apply listRow_keeps
    | with_reducible refine foldl_keeps _ _ _ ?_ ?_ | with_reducible refine foldl_fst_keeps _ _ _ ?_ ?_ | intro _ _ _
    | intro _ | with_reducible refine keeps_ite _ _ _ ?_ ?_ | split
    | with_reducible refine keeps_fst ?_ (by assumption) | with_reducible refine keeps_fst2 ?_ (by assumption)
    | simp only [])

theorem countCorrection_keeps {W : Nat} {q0 : State} (sl c line d : Nat) (k : Coord) (s : State) (hk : Keeps W q0 s)
    (hW : Sub 0x82401 W) : Keeps W q0 (countCorrection sl c line d k s) := by
  unfold countCorrection
  with_reducible repeat' (first
    | assumption | apply eccLast_keeps | apply bump_keeps | apply recCorrected_keeps | apply setChan_keeps
    | apply listRow_keeps | exact sub_of (by assumption) (by decide)
    | refine keeps_chan (W := W) ?_ _ (by assumption) | split | simp only []
    | exact twf_tset _ _ _ _ (by assumption) | exact twf_nil _ | refine keeps_ok (W := W) ?_ (by assumption)
    | refine keeps_chan (W := W) ?_ _ (by assumption) | intro _ _ _ | intro _)

theorem storePoison_keeps {W : Nat} {q0 : State} (sl c line : Nat) (k : Coord) (s : State) (hk : Keeps W q0 s) (hW :
    Sub 0x82401 W) : Keeps W q0 (storePoison sl c line k s) := by
  unfold storePoison
  with_reducible repeat' (first
    | assumption | apply recContained_keeps | apply eccLast_keeps | apply bump_keeps | apply setLine_keeps
    | exact sub_of (by assumption) (by decide))

theorem readRecord_keeps {W : Nat} {q0 : State} (sl c line tag cause : Nat) (s : State) (hk : Keeps W q0 s) (hW : Sub
    0x83001 W) : Keeps W q0 (readRecord sl c line tag cause s) := by
  unfold readRecord
  with_reducible repeat' (first | assumption | apply recVisible_keeps)

theorem lostLine_keeps {W : Nat} {q0 : State} (sl c line tag : Nat) (s : State) (hk : Keeps W q0 s) (hW : Sub 0x83001
    W) : Keeps W q0 (lostLine sl c line tag s) := by
  unfold lostLine
  with_reducible repeat' (first | assumption | apply readRecord_keeps)

theorem storeLine_keeps {W : Nat} {q0 : State} (c line : Nat) (l : DLine) (s : State) (hk : Keeps W q0 s) (hW : Sub
    0x401 W) : Keeps W q0 (storeLine c line l s) := by
  unfold storeLine
  with_reducible repeat' (first
    | assumption | apply wr_keeps | apply setLine_keeps | exact sub_of (by assumption) (by decide) | split)

theorem writeLine_keeps {W : Nat} {q0 : State} (sl line tag data : Nat) (s : State) (hk : Keeps W q0 s) (hW : Sub
    0x83401 W) : Keeps W q0 (writeLine sl line tag data s) := by
  unfold writeLine
  with_reducible repeat' (first
    | assumption | apply recContained_keeps | apply lostLine_keeps | apply storeLine_keeps
    | exact sub_of (by assumption) (by decide) | refine foldl_keeps _ _ _ ?_ ?_ | split | simp only []
    | intro _ _ _)

theorem poisonLine_keeps {W : Nat} {q0 : State} (sl line : Nat) (s : State) (hk : Keeps W q0 s) (hW : Sub 0x82401 W)
    : Keeps W q0 (poisonLine sl line s) := by
  unfold poisonLine
  with_reducible repeat' (first
    | assumption | apply storePoison_keeps | exact sub_of (by assumption) (by decide)
    | refine foldl_keeps _ _ _ ?_ ?_ | split | intro _ _ _)

/-! ## DramCtl -/

theorem setTenant_keeps {W : Nat} {q0 : State} (t : Nat) (r : Tenant) (s : State) (hk : Keeps W q0 s) (hW : Sub 0x800
    W) : Keeps W q0 (setTenant t r s) := by
  unfold setTenant
  with_reducible repeat' (first
    | assumption | exact sub_of (by assumption) (by decide) | refine keeps_lit (by assumption) ?_)

theorem sealNotice_keeps {W : Nat} {q0 : State} (t kind : Nat) (payload : List (Nat × Nat × Nat)) (s : State) (hk :
    Keeps W q0 s) (hW : Sub 0x1800 W) : Keeps W q0 (sealNotice t kind payload s) := by
  unfold sealNotice
  with_reducible repeat' (first
    | assumption | apply notify_keeps | apply setTenant_keeps | exact sub_of (by assumption) (by decide))

theorem refuseGranule_keeps {W : Nat} {q0 : State} (kind unit pa tag : Nat) (s : State) (hk : Keeps W q0 s) (hW : Sub
    0x82801 W := by first | assumption | exact sub_of (by assumption) (by decide)) : Keeps W q0 (refuseGranule kind
    unit pa tag s) := by
  unfold refuseGranule
  with_reducible repeat' (first
    | assumption | apply recRefusal_keeps | apply setTenant_keeps | exact sub_of (by assumption) (by decide))

theorem setQueue_keeps {W : Nat} {q0 : State} (c sub : Nat) (q : List DReq) (s : State) (hk : Keeps W q0 s) (hW : Sub
    0x400 W) : Keeps W q0 (setQueue c sub q s) := by
  unfold setQueue
  with_reducible repeat' (first
    | assumption | apply modChan_keeps | exact sub_of (by assumption) (by decide)
    | exact twf_tset _ _ _ _ (by assumption) | exact twf_nil _ | refine keeps_ok (W := W) ?_ (by assumption)
    | refine keeps_chan (W := W) ?_ _ (by assumption) | intro _ _ _ | intro _)

theorem setRt_keeps {W : Nat} {q0 : State} (c port : Nat) (q : List DReq) (s : State) (hk : Keeps W q0 s) (hW : Sub
    0x400 W) : Keeps W q0 (setRt c port q s) := by
  unfold setRt
  with_reducible repeat' (first
    | assumption | apply modChan_keeps | exact sub_of (by assumption) (by decide)
    | exact twf_tset _ _ _ _ (by assumption) | exact twf_nil _ | refine keeps_ok (W := W) ?_ (by assumption)
    | refine keeps_chan (W := W) ?_ _ (by assumption) | intro _ _ _ | intro _)

theorem setSealedQ_keeps {W : Nat} {q0 : State} (c sub t : Nat) (q : List DReq) (s : State) (hk : Keeps W q0 s) (hW :
    Sub 0x400 W) : Keeps W q0 (setSealedQ c sub t q s) := by
  unfold setSealedQ
  with_reducible repeat' (first
    | assumption | apply modChan_keeps | exact sub_of (by assumption) (by decide)
    | exact twf_tset _ _ _ _ (by assumption) | exact twf_nil _ | refine keeps_ok (W := W) ?_ (by assumption)
    | refine keeps_chan (W := W) ?_ _ (by assumption) | intro _ _ _ | intro _)

theorem setFlight_keeps {W : Nat} {q0 : State} (c sub : Nat) (q : List DReq) (s : State) (hk : Keeps W q0 s) (hW :
    Sub 0x400 W) : Keeps W q0 (setFlight c sub q s) := by
  unfold setFlight
  with_reducible repeat' (first
    | assumption | apply modChan_keeps | exact sub_of (by assumption) (by decide)
    | exact twf_tset _ _ _ _ (by assumption) | exact twf_nil _ | refine keeps_ok (W := W) ?_ (by assumption)
    | refine keeps_chan (W := W) ?_ _ (by assumption) | intro _ _ _ | intro _)

theorem judgePanic_keeps {W : Nat} {q0 : State} (c port : Nat) (s : State) (hk : Keeps W q0 s)
    (hW : Sub 0x1 W := by first | assumption | exact sub_of (by assumption) (by decide)) :
    Keeps W q0 (judgePanic c port s) := by
  unfold judgePanic
  repeat' (first
    | with_reducible assumption | exact sub_of (by assumption) (by decide) | with_reducible apply wr_keeps
    | with_reducible apply bump_keeps | with_reducible refine foldl_keeps _ _ _ ?_ ?_
    | with_reducible refine foldl_fst_keeps _ _ _ ?_ ?_ | intro _ _ _ | intro _
    | with_reducible refine keeps_ite _ _ _ ?_ ?_ | split | with_reducible refine keeps_fst ?_ (by assumption)
    | with_reducible refine keeps_fst2 ?_ (by assumption) | simp only [])

theorem judgeDrain_keeps {W : Nat} {q0 : State} (c sub : Nat) (s : State) (hk : Keeps W q0 s)
    (hW : Sub 0x400 W := by first | assumption | exact sub_of (by assumption) (by decide)) :
    Keeps W q0 (judgeDrain c sub s) := by
  unfold judgeDrain
  repeat' (first
    | with_reducible assumption | exact sub_of (by assumption) (by decide)
    | with_reducible exact twf_tset _ _ _ _ (by assumption)
    | with_reducible refine keeps_chan (W := W) ?_ _ (by assumption) | with_reducible exact twf_nil _
    | with_reducible refine keeps_ok (W := W) ?_ (by assumption) | with_reducible apply modChan_keeps
    | with_reducible refine foldl_keeps _ _ _ ?_ ?_ | with_reducible refine foldl_fst_keeps _ _ _ ?_ ?_ | intro _ _ _
    | intro _ | with_reducible refine keeps_ite _ _ _ ?_ ?_ | split
    | with_reducible refine keeps_fst ?_ (by assumption) | with_reducible refine keeps_fst2 ?_ (by assumption)
    | simp only [])

theorem putReq_keeps {W : Nat} {q0 : State} (c sub : Nat) (q : DReq) (s : State) (hk : Keeps W q0 s)
    (hW : Sub 0x401 W := by first | assumption | exact sub_of (by assumption) (by decide)) :
    Keeps W q0 (putReq c sub q s) := by
  unfold putReq
  repeat' (first
    | with_reducible assumption | exact sub_of (by assumption) (by decide)
    | with_reducible exact twf_tset _ _ _ _ (by assumption)
    | with_reducible refine keeps_chan (W := W) ?_ _ (by assumption) | with_reducible exact twf_nil _
    | with_reducible refine keeps_ok (W := W) ?_ (by assumption) | with_reducible apply setQueue_keeps
    | with_reducible apply setRt_keeps | with_reducible apply setSealedQ_keeps | with_reducible apply judgePanic_keeps
    | with_reducible apply judgeDrain_keeps | with_reducible refine foldl_keeps _ _ _ ?_ ?_
    | with_reducible refine foldl_fst_keeps _ _ _ ?_ ?_ | intro _ _ _ | intro _
    | with_reducible refine keeps_ite _ _ _ ?_ ?_ | split | with_reducible refine keeps_fst ?_ (by assumption)
    | with_reducible refine keeps_fst2 ?_ (by assumption) | simp only [])

theorem setOutside_keeps {W : Nat} {q0 : State} (c sub : Nat) (q : List DReq) (s : State) (hk : Keeps W q0 s)
    (hW : Sub 0x400 W := by first | assumption | exact sub_of (by assumption) (by decide)) :
    Keeps W q0 (setOutside c sub q s) := by
  unfold setOutside
  repeat' (first
    | with_reducible assumption | exact sub_of (by assumption) (by decide)
    | with_reducible exact twf_tset _ _ _ _ (by assumption)
    | with_reducible refine keeps_chan (W := W) ?_ _ (by assumption) | with_reducible exact twf_nil _
    | with_reducible refine keeps_ok (W := W) ?_ (by assumption) | with_reducible apply modChan_keeps
    | with_reducible refine foldl_keeps _ _ _ ?_ ?_ | with_reducible refine foldl_fst_keeps _ _ _ ?_ ?_ | intro _ _ _
    | intro _ | with_reducible refine keeps_ite _ _ _ ?_ ?_ | split
    | with_reducible refine keeps_fst ?_ (by assumption) | with_reducible refine keeps_fst2 ?_ (by assumption)
    | simp only [])

theorem enqueue_keeps {W : Nat} {q0 : State} (c sub : Nat) (q : DReq) (s : State) (hk : Keeps W q0 s)
    (hW : Sub 0x401 W := by first | assumption | exact sub_of (by assumption) (by decide)) :
    Keeps W q0 (enqueue c sub q s) := by
  unfold enqueue
  repeat' (first
    | with_reducible assumption | exact sub_of (by assumption) (by decide)
    | with_reducible exact twf_tset _ _ _ _ (by assumption)
    | with_reducible refine keeps_chan (W := W) ?_ _ (by assumption) | with_reducible exact twf_nil _
    | with_reducible refine keeps_ok (W := W) ?_ (by assumption) | with_reducible apply setMem_keeps
    | with_reducible apply putReq_keeps | with_reducible apply setOutside_keeps
    | with_reducible refine foldl_keeps _ _ _ ?_ ?_ | with_reducible refine foldl_fst_keeps _ _ _ ?_ ?_ | intro _ _ _
    | intro _ | with_reducible refine keeps_ite _ _ _ ?_ ?_ | split
    | with_reducible refine keeps_fst ?_ (by assumption) | with_reducible refine keeps_fst2 ?_ (by assumption)
    | simp only [])

theorem admitOutside_keeps {W : Nat} {q0 : State} (c sub : Nat) (s : State) (hk : Keeps W q0 s)
    (hW : Sub 0x401 W := by first | assumption | exact sub_of (by assumption) (by decide)) :
    Keeps W q0 (admitOutside c sub s) := by
  unfold admitOutside
  repeat' (first
    | with_reducible assumption | exact sub_of (by assumption) (by decide)
    | with_reducible exact twf_tset _ _ _ _ (by assumption)
    | with_reducible refine keeps_chan (W := W) ?_ _ (by assumption) | with_reducible exact twf_nil _
    | with_reducible refine keeps_ok (W := W) ?_ (by assumption) | with_reducible apply putReq_keeps
    | with_reducible apply setOutside_keeps | with_reducible refine foldl_keeps _ _ _ ?_ ?_
    | with_reducible refine foldl_fst_keeps _ _ _ ?_ ?_ | intro _ _ _ | intro _
    | with_reducible refine keeps_ite _ _ _ ?_ ?_ | split | with_reducible refine keeps_fst ?_ (by assumption)
    | with_reducible refine keeps_fst2 ?_ (by assumption) | simp only [])

theorem performWrite_keeps {W : Nat} {q0 : State} (c : Nat) (q : DReq) (s : State) (hk : Keeps W q0 s)
    (hW : Sub 0x83401 W := by first | assumption | exact sub_of (by assumption) (by decide)) :
    Keeps W q0 (performWrite c q s) := by
  unfold performWrite
  repeat' (first
    | with_reducible assumption | exact sub_of (by assumption) (by decide)
    | with_reducible exact twf_tset _ _ _ _ (by assumption)
    | with_reducible refine keeps_chan (W := W) ?_ _ (by assumption) | with_reducible exact twf_nil _
    | with_reducible refine keeps_ok (W := W) ?_ (by assumption) | with_reducible apply setLine_keeps
    | with_reducible apply storePoison_keeps | with_reducible apply writeLine_keeps
    | with_reducible apply poisonLine_keeps | with_reducible refine foldl_keeps _ _ _ ?_ ?_
    | with_reducible refine foldl_fst_keeps _ _ _ ?_ ?_ | intro _ _ _ | intro _
    | with_reducible refine keeps_ite _ _ _ ?_ ?_ | split | with_reducible refine keeps_fst ?_ (by assumption)
    | with_reducible refine keeps_fst2 ?_ (by assumption) | simp only [])

theorem endDrain_keeps {W : Nat} {q0 : State} (c sub : Nat) (s : State) (hk : Keeps W q0 s)
    (hW : Sub 0x400 W := by first | assumption | exact sub_of (by assumption) (by decide)) :
    Keeps W q0 (endDrain c sub s) := by
  unfold endDrain
  repeat' (first
    | with_reducible assumption | exact sub_of (by assumption) (by decide)
    | with_reducible exact twf_tset _ _ _ _ (by assumption)
    | with_reducible refine keeps_chan (W := W) ?_ _ (by assumption) | with_reducible exact twf_nil _
    | with_reducible refine keeps_ok (W := W) ?_ (by assumption) | with_reducible apply modChan_keeps
    | with_reducible refine foldl_keeps _ _ _ ?_ ?_ | with_reducible refine foldl_fst_keeps _ _ _ ?_ ?_ | intro _ _ _
    | intro _ | with_reducible refine keeps_ite _ _ _ ?_ ?_ | split
    | with_reducible refine keeps_fst ?_ (by assumption) | with_reducible refine keeps_fst2 ?_ (by assumption)
    | simp only [])

theorem unqueue_keeps {W : Nat} {q0 : State} (c sub : Nat) (q : DReq) (s : State) (hk : Keeps W q0 s)
    (hW : Sub 0x401 W := by first | assumption | exact sub_of (by assumption) (by decide)) :
    Keeps W q0 (unqueue c sub q s) := by
  unfold unqueue
  repeat' (first
    | with_reducible assumption | exact sub_of (by assumption) (by decide)
    | with_reducible exact twf_tset _ _ _ _ (by assumption)
    | with_reducible refine keeps_chan (W := W) ?_ _ (by assumption) | with_reducible exact twf_nil _
    | with_reducible refine keeps_ok (W := W) ?_ (by assumption) | with_reducible apply setQueue_keeps
    | with_reducible apply setRt_keeps | with_reducible apply setSealedQ_keeps | with_reducible apply judgePanic_keeps
    | with_reducible apply setOutside_keeps | with_reducible refine foldl_keeps _ _ _ ?_ ?_
    | with_reducible refine foldl_fst_keeps _ _ _ ?_ ?_ | intro _ _ _ | intro _
    | with_reducible refine keeps_ite _ _ _ ?_ ?_ | split | with_reducible refine keeps_fst ?_ (by assumption)
    | with_reducible refine keeps_fst2 ?_ (by assumption) | simp only [])

theorem dequeue_keeps {W : Nat} {q0 : State} (c sub : Nat) (q : DReq) (s : State) (hk : Keeps W q0 s)
    (hW : Sub 0x401 W := by first | assumption | exact sub_of (by assumption) (by decide)) :
    Keeps W q0 (dequeue c sub q s) := by
  unfold dequeue
  repeat' (first
    | with_reducible assumption | exact sub_of (by assumption) (by decide)
    | with_reducible exact twf_tset _ _ _ _ (by assumption)
    | with_reducible refine keeps_chan (W := W) ?_ _ (by assumption) | with_reducible exact twf_nil _
    | with_reducible refine keeps_ok (W := W) ?_ (by assumption) | with_reducible apply admitOutside_keeps
    | with_reducible apply unqueue_keeps | with_reducible apply endDrain_keeps
    | with_reducible refine foldl_keeps _ _ _ ?_ ?_ | with_reducible refine foldl_fst_keeps _ _ _ ?_ ?_ | intro _ _ _
    | intro _ | with_reducible refine keeps_ite _ _ _ ?_ ?_ | split
    | with_reducible refine keeps_fst ?_ (by assumption) | with_reducible refine keeps_fst2 ?_ (by assumption)
    | simp only [])

theorem dropFixes_keeps {W : Nat} {q0 : State} (line : Nat) (s : State) (hk : Keeps W q0 s)
    (hW : Sub 0x401 W := by first | assumption | exact sub_of (by assumption) (by decide)) :
    Keeps W q0 (dropFixes line s) := by
  unfold dropFixes
  repeat' (first
    | with_reducible assumption | exact sub_of (by assumption) (by decide)
    | with_reducible exact twf_tset _ _ _ _ (by assumption)
    | with_reducible refine keeps_chan (W := W) ?_ _ (by assumption) | with_reducible exact twf_nil _
    | with_reducible refine keeps_ok (W := W) ?_ (by assumption) | with_reducible apply dequeue_keeps
    | with_reducible refine foldl_keeps _ _ _ ?_ ?_ | with_reducible refine foldl_fst_keeps _ _ _ ?_ ?_ | intro _ _ _
    | intro _ | with_reducible refine keeps_ite _ _ _ ?_ ?_ | split
    | with_reducible refine keeps_fst ?_ (by assumption) | with_reducible refine keeps_fst2 ?_ (by assumption)
    | simp only [])

theorem deliverLent_keeps {W : Nat} {q0 : State} (q : DReq) (v : Option Nat) (s : State) (hk : Keeps W q0 s) (hW :
    Sub 0x20000 W) : Keeps W q0 (deliverLent q v s) := by
  unfold deliverLent
  with_reducible repeat' (first
    | assumption | exact sub_of (by assumption) (by decide) | split | refine keeps_lit (by assumption) ?_)

theorem deliverHome_keeps {W : Nat} {q0 : State} (q : DReq) (v : Option Nat) (s : State) (hk : Keeps W q0 s)
    (hW : Sub 0x400 W := by first | assumption | exact sub_of (by assumption) (by decide)) :
    Keeps W q0 (deliverHome q v s) := by
  unfold deliverHome
  repeat' (first
    | with_reducible assumption | exact sub_of (by assumption) (by decide)
    | with_reducible exact twf_tset _ _ _ _ (by assumption)
    | with_reducible refine keeps_chan (W := W) ?_ _ (by assumption) | with_reducible exact twf_nil _
    | with_reducible refine keeps_ok (W := W) ?_ (by assumption) | with_reducible apply setMem_keeps
    | with_reducible refine foldl_keeps _ _ _ ?_ ?_ | with_reducible refine foldl_fst_keeps _ _ _ ?_ ?_ | intro _ _ _
    | intro _ | with_reducible refine keeps_ite _ _ _ ?_ ?_ | split
    | with_reducible refine keeps_fst ?_ (by assumption) | with_reducible refine keeps_fst2 ?_ (by assumption)
    | simp only [])

theorem deliver_keeps {W : Nat} {q0 : State} (q : DReq) (v : Option Nat) (s : State) (hk : Keeps W q0 s)
    (hW : Sub 0x20400 W := by first | assumption | exact sub_of (by assumption) (by decide)) :
    Keeps W q0 (deliver q v s) := by
  unfold deliver
  repeat' (first
    | with_reducible assumption | exact sub_of (by assumption) (by decide)
    | with_reducible exact twf_tset _ _ _ _ (by assumption)
    | with_reducible refine keeps_chan (W := W) ?_ _ (by assumption) | with_reducible exact twf_nil _
    | with_reducible refine keeps_ok (W := W) ?_ (by assumption) | with_reducible apply setMem_keeps
    | with_reducible apply deliverLent_keeps | with_reducible apply deliverHome_keeps
    | with_reducible refine foldl_keeps _ _ _ ?_ ?_ | with_reducible refine foldl_fst_keeps _ _ _ ?_ ?_ | intro _ _ _
    | intro _ | with_reducible refine keeps_ite _ _ _ ?_ ?_ | split
    | with_reducible refine keeps_fst ?_ (by assumption) | with_reducible refine keeps_fst2 ?_ (by assumption)
    | simp only [])

theorem forgetReads_keeps {W : Nat} {q0 : State} (line : Nat) (s : State) (hk : Keeps W q0 s)
    (hW : Sub 0x400 W := by first | assumption | exact sub_of (by assumption) (by decide)) :
    Keeps W q0 (forgetReads line s) := by
  unfold forgetReads
  repeat' (first
    | with_reducible assumption | exact sub_of (by assumption) (by decide)
    | with_reducible exact twf_tset _ _ _ _ (by assumption)
    | with_reducible refine keeps_chan (W := W) ?_ _ (by assumption) | with_reducible exact twf_nil _
    | with_reducible refine keeps_ok (W := W) ?_ (by assumption) | with_reducible apply setMem_keeps
    | with_reducible refine foldl_keeps _ _ _ ?_ ?_ | with_reducible refine foldl_fst_keeps _ _ _ ?_ ?_ | intro _ _ _
    | intro _ | with_reducible refine keeps_ite _ _ _ ?_ ?_ | split
    | with_reducible refine keeps_fst ?_ (by assumption) | with_reducible refine keeps_fst2 ?_ (by assumption)
    | simp only [])

theorem takeReq_keeps {W : Nat} {q0 : State} (k : Coord) (q : DReq) (s : State) (hk : Keeps W q0 s)
    (hW : Sub 0xA3401 W := by first | assumption | exact sub_of (by assumption) (by decide)) :
    Keeps W q0 (takeReq k q s) := by
  unfold takeReq
  repeat' (first
    | with_reducible assumption | exact sub_of (by assumption) (by decide)
    | with_reducible exact twf_tset _ _ _ _ (by assumption)
    | with_reducible refine keeps_chan (W := W) ?_ _ (by assumption) | with_reducible exact twf_nil _
    | with_reducible refine keeps_ok (W := W) ?_ (by assumption) | with_reducible apply lostLine_keeps
    | with_reducible apply enqueue_keeps | with_reducible apply dropFixes_keeps | with_reducible apply deliver_keeps
    | with_reducible apply forgetReads_keeps | with_reducible refine foldl_keeps _ _ _ ?_ ?_
    | with_reducible refine foldl_fst_keeps _ _ _ ?_ ?_ | intro _ _ _ | intro _
    | with_reducible refine keeps_ite _ _ _ ?_ ?_ | split | with_reducible refine keeps_fst ?_ (by assumption)
    | with_reducible refine keeps_fst2 ?_ (by assumption) | simp only [])

theorem dramRequest_keeps {W : Nat} {q0 : State} (c : Nat) (a : DAcc) (s : State) (hk : Keeps W q0 s)
    (hW : Sub 0xA3C01 W := by first | assumption | exact sub_of (by assumption) (by decide)) :
    Keeps W q0 (dramRequest c a s) := by
  unfold dramRequest
  repeat' (first
    | with_reducible assumption | exact sub_of (by assumption) (by decide)
    | with_reducible exact twf_tset _ _ _ _ (by assumption)
    | with_reducible refine keeps_chan (W := W) ?_ _ (by assumption) | with_reducible exact twf_nil _
    | with_reducible refine keeps_ok (W := W) ?_ (by assumption) | with_reducible apply refuseGranule_keeps
    | with_reducible apply takeReq_keeps | with_reducible refine foldl_keeps _ _ _ ?_ ?_
    | with_reducible refine foldl_fst_keeps _ _ _ ?_ ?_ | intro _ _ _ | intro _
    | with_reducible refine keeps_ite _ _ _ ?_ ?_ | split | with_reducible refine keeps_fst ?_ (by assumption)
    | with_reducible refine keeps_fst2 ?_ (by assumption) | simp only [])

theorem dramWrite_keeps {W : Nat} {q0 : State} (how : WrHow) (line tag data : Nat) (poison : Bool) (s : State) (hk :
    Keeps W q0 s)
    (hW : Sub 0xA3401 W := by first | assumption | exact sub_of (by assumption) (by decide)) :
    Keeps W q0 (dramWrite how line tag data poison s) := by
  unfold dramWrite
  repeat' (first
    | with_reducible assumption | exact sub_of (by assumption) (by decide)
    | with_reducible exact twf_tset _ _ _ _ (by assumption)
    | with_reducible refine keeps_chan (W := W) ?_ _ (by assumption) | with_reducible exact twf_nil _
    | with_reducible refine keeps_ok (W := W) ?_ (by assumption) | with_reducible apply takeReq_keeps
    | with_reducible refine foldl_keeps _ _ _ ?_ ?_ | with_reducible refine foldl_fst_keeps _ _ _ ?_ ?_ | intro _ _ _
    | intro _ | with_reducible refine keeps_ite _ _ _ ?_ ?_ | split
    | with_reducible refine keeps_fst ?_ (by assumption) | with_reducible refine keeps_fst2 ?_ (by assumption)
    | simp only [])

theorem askRead_keeps {W : Nat} {q0 : State} (w : Reader) (line tag : Nat) (s : State) (hk : Keeps W q0 s)
    (hW : Sub 0xA3401 W := by first | assumption | exact sub_of (by assumption) (by decide)) :
    Keeps W q0 (askRead w line tag s) := by
  unfold askRead
  repeat' (first
    | with_reducible assumption | exact sub_of (by assumption) (by decide)
    | with_reducible exact twf_tset _ _ _ _ (by assumption)
    | with_reducible refine keeps_chan (W := W) ?_ _ (by assumption) | with_reducible exact twf_nil _
    | with_reducible refine keeps_ok (W := W) ?_ (by assumption) | with_reducible apply setMem_keeps
    | with_reducible apply takeReq_keeps | with_reducible refine foldl_keeps _ _ _ ?_ ?_
    | with_reducible refine foldl_fst_keeps _ _ _ ?_ ?_ | intro _ _ _ | intro _
    | with_reducible refine keeps_ite _ _ _ ?_ ?_ | split | with_reducible refine keeps_fst ?_ (by assumption)
    | with_reducible refine keeps_fst2 ?_ (by assumption) | simp only [])

theorem setBank_keeps {W : Nat} {q0 : State} (c b : Nat) (p : BankPred) (s : State) (hk : Keeps W q0 s) (hW : Sub
    0x400 W) : Keeps W q0 (setBank c b p s) := by
  unfold setBank
  with_reducible repeat' (first
    | assumption | apply modChan_keeps | exact sub_of (by assumption) (by decide)
    | exact twf_tset _ _ _ _ (by assumption) | exact twf_nil _ | refine keeps_ok (W := W) ?_ (by assumption)
    | refine keeps_chan (W := W) ?_ _ (by assumption) | intro _ _ _ | intro _)

theorem sharedAccess_keeps {W : Nat} {q0 : State} (c : Nat) (k : Coord) (s : State) (hk : Keeps W q0 s) (hW : Sub
    0x401 W) : Keeps W q0 (sharedAccess c k s) := by
  unfold sharedAccess
  with_reducible repeat' (first
    | assumption | apply bump_keeps | apply setBank_keeps | exact sub_of (by assumption) (by decide) | split)

theorem accessLine_keeps {W : Nat} {q0 : State} (c : Nat) (q : DReq) (s : State) (hk : Keeps W q0 s)
    (hW : Sub 0x401 W := by first | assumption | exact sub_of (by assumption) (by decide)) :
    Keeps W q0 (accessLine c q s) := by
  unfold accessLine
  repeat' (first
    | with_reducible assumption | exact sub_of (by assumption) (by decide)
    | with_reducible exact twf_tset _ _ _ _ (by assumption)
    | with_reducible refine keeps_chan (W := W) ?_ _ (by assumption) | with_reducible exact twf_nil _
    | with_reducible refine keeps_ok (W := W) ?_ (by assumption) | with_reducible apply sharedAccess_keeps
    | with_reducible refine foldl_keeps _ _ _ ?_ ?_ | with_reducible refine foldl_fst_keeps _ _ _ ?_ ?_ | intro _ _ _
    | intro _ | with_reducible refine keeps_ite _ _ _ ?_ ?_ | split
    | with_reducible refine keeps_fst ?_ (by assumption) | with_reducible refine keeps_fst2 ?_ (by assumption)
    | simp only [])

theorem closeRank_keeps {W : Nat} {q0 : State} (c sub rank : Nat) (s : State) (hk : Keeps W q0 s) (hW : Sub 0x400 W)
    : Keeps W q0 (closeRank c sub rank s) := by
  unfold closeRank
  with_reducible repeat' (first
    | assumption | apply modChan_keeps | exact sub_of (by assumption) (by decide)
    | exact twf_tset _ _ _ _ (by assumption) | exact twf_nil _ | refine keeps_ok (W := W) ?_ (by assumption)
    | refine keeps_chan (W := W) ?_ _ (by assumption) | intro _ _ _ | intro _)

theorem closeBoth_keeps {W : Nat} {q0 : State} (c rank : Nat) (s : State) (hk : Keeps W q0 s)
    (hW : Sub 0x400 W := by first | assumption | exact sub_of (by assumption) (by decide)) :
    Keeps W q0 (closeBoth c rank s) := by
  unfold closeBoth
  repeat' (first
    | with_reducible assumption | exact sub_of (by assumption) (by decide)
    | with_reducible exact twf_tset _ _ _ _ (by assumption)
    | with_reducible refine keeps_chan (W := W) ?_ _ (by assumption) | with_reducible exact twf_nil _
    | with_reducible refine keeps_ok (W := W) ?_ (by assumption) | with_reducible apply closeRank_keeps
    | with_reducible refine foldl_keeps _ _ _ ?_ ?_ | with_reducible refine foldl_fst_keeps _ _ _ ?_ ?_ | intro _ _ _
    | intro _ | with_reducible refine keeps_ite _ _ _ ?_ ?_ | split
    | with_reducible refine keeps_fst ?_ (by assumption) | with_reducible refine keeps_fst2 ?_ (by assumption)
    | simp only [])

theorem closeWindows_keeps {W : Nat} {q0 : State} (c slot : Nat) (s : State) (hk : Keeps W q0 s)
    (hW : Sub 0x400 W := by first | assumption | exact sub_of (by assumption) (by decide)) :
    Keeps W q0 (closeWindows c slot s) := by
  unfold closeWindows
  repeat' (first
    | with_reducible assumption | exact sub_of (by assumption) (by decide)
    | with_reducible exact twf_tset _ _ _ _ (by assumption)
    | with_reducible refine keeps_chan (W := W) ?_ _ (by assumption) | with_reducible exact twf_nil _
    | with_reducible refine keeps_ok (W := W) ?_ (by assumption) | with_reducible apply modChan_keeps
    | with_reducible apply closeBoth_keeps | with_reducible refine foldl_keeps _ _ _ ?_ ?_
    | with_reducible refine foldl_fst_keeps _ _ _ ?_ ?_ | intro _ _ _ | intro _
    | with_reducible refine keeps_ite _ _ _ ?_ ?_ | split | with_reducible refine keeps_fst ?_ (by assumption)
    | with_reducible refine keeps_fst2 ?_ (by assumption) | simp only [])

theorem keepRetry_keeps {W : Nat} {q0 : State} (c sub : Nat) (q : DReq) (s : State) (hk : Keeps W q0 s) (hW : Sub
    0x400 W) : Keeps W q0 (keepRetry c sub q s) := by
  unfold keepRetry
  with_reducible repeat' (first
    | assumption | apply modChan_keeps | exact sub_of (by assumption) (by decide)
    | exact twf_tset _ _ _ _ (by assumption) | exact twf_nil _ | refine keeps_ok (W := W) ?_ (by assumption)
    | refine keeps_chan (W := W) ?_ _ (by assumption) | intro _ _ _ | intro _)

theorem dropRetry_keeps {W : Nat} {q0 : State} (c sub : Nat) (q : DReq) (s : State) (hk : Keeps W q0 s)
    (hW : Sub 0x400 W := by first | assumption | exact sub_of (by assumption) (by decide)) :
    Keeps W q0 (dropRetry c sub q s) := by
  unfold dropRetry
  repeat' (first
    | with_reducible assumption | exact sub_of (by assumption) (by decide)
    | with_reducible exact twf_tset _ _ _ _ (by assumption)
    | with_reducible refine keeps_chan (W := W) ?_ _ (by assumption) | with_reducible exact twf_nil _
    | with_reducible refine keeps_ok (W := W) ?_ (by assumption) | with_reducible apply modChan_keeps
    | with_reducible refine foldl_keeps _ _ _ ?_ ?_ | with_reducible refine foldl_fst_keeps _ _ _ ?_ ?_ | intro _ _ _
    | intro _ | with_reducible refine keeps_ite _ _ _ ?_ ?_ | split
    | with_reducible refine keeps_fst ?_ (by assumption) | with_reducible refine keeps_fst2 ?_ (by assumption)
    | simp only [])

theorem dropForwarded_keeps {W : Nat} {q0 : State} (c sub : Nat) (q : DReq) (s : State) (hk : Keeps W q0 s)
    (hW : Sub 0x400 W := by first | assumption | exact sub_of (by assumption) (by decide)) :
    Keeps W q0 (dropForwarded c sub q s) := by
  unfold dropForwarded
  repeat' (first
    | with_reducible assumption | exact sub_of (by assumption) (by decide)
    | with_reducible exact twf_tset _ _ _ _ (by assumption)
    | with_reducible refine keeps_chan (W := W) ?_ _ (by assumption) | with_reducible exact twf_nil _
    | with_reducible refine keeps_ok (W := W) ?_ (by assumption) | with_reducible apply modChan_keeps
    | with_reducible refine foldl_keeps _ _ _ ?_ ?_ | with_reducible refine foldl_fst_keeps _ _ _ ?_ ?_ | intro _ _ _
    | intro _ | with_reducible refine keeps_ite _ _ _ ?_ ?_ | split
    | with_reducible refine keeps_fst ?_ (by assumption) | with_reducible refine keeps_fst2 ?_ (by assumption)
    | simp only [])

theorem markForwarded_keeps {W : Nat} {q0 : State} (c sub : Nat) (q : DReq) (s : State) (hk : Keeps W q0 s)
    (hW : Sub 0x400 W := by first | assumption | exact sub_of (by assumption) (by decide)) :
    Keeps W q0 (markForwarded c sub q s) := by
  unfold markForwarded
  repeat' (first
    | with_reducible assumption | exact sub_of (by assumption) (by decide)
    | with_reducible exact twf_tset _ _ _ _ (by assumption)
    | with_reducible refine keeps_chan (W := W) ?_ _ (by assumption) | with_reducible exact twf_nil _
    | with_reducible refine keeps_ok (W := W) ?_ (by assumption) | with_reducible apply modChan_keeps
    | with_reducible refine foldl_keeps _ _ _ ?_ ?_ | with_reducible refine foldl_fst_keeps _ _ _ ?_ ?_ | intro _ _ _
    | intro _ | with_reducible refine keeps_ite _ _ _ ?_ ?_ | split
    | with_reducible refine keeps_fst ?_ (by assumption) | with_reducible refine keeps_fst2 ?_ (by assumption)
    | simp only [])

theorem useInjection_keeps {W : Nat} {q0 : State} (c sub : Nat) (write : Bool) (s : State) (hk : Keeps W q0 s)
    (hW : Sub 0x400 W := by first | assumption | exact sub_of (by assumption) (by decide)) :
    Keeps W q0 (useInjection c sub write s) := by
  unfold useInjection
  repeat' (first
    | with_reducible assumption | exact sub_of (by assumption) (by decide)
    | with_reducible exact twf_tset _ _ _ _ (by assumption)
    | with_reducible refine keeps_chan (W := W) ?_ _ (by assumption) | with_reducible exact twf_nil _
    | with_reducible refine keeps_ok (W := W) ?_ (by assumption) | with_reducible apply modChan_keeps
    | with_reducible refine foldl_keeps _ _ _ ?_ ?_ | with_reducible refine foldl_fst_keeps _ _ _ ?_ ?_ | intro _ _ _
    | intro _ | with_reducible refine keeps_ite _ _ _ ?_ ?_ | split
    | with_reducible refine keeps_fst ?_ (by assumption) | with_reducible refine keeps_fst2 ?_ (by assumption)
    | simp only [])

theorem passRead_keeps {W : Nat} {q0 : State} (c line : Nat) (s : State) (hk : Keeps W q0 s)
    (hW : Sub 0x400 W := by first | assumption | exact sub_of (by assumption) (by decide)) :
    Keeps W q0 (passRead c line s) := by
  unfold passRead
  repeat' (first
    | with_reducible assumption | exact sub_of (by assumption) (by decide)
    | with_reducible exact twf_tset _ _ _ _ (by assumption)
    | with_reducible refine keeps_chan (W := W) ?_ _ (by assumption) | with_reducible exact twf_nil _
    | with_reducible refine keeps_ok (W := W) ?_ (by assumption) | with_reducible apply setMem_keeps
    | with_reducible apply keepRetry_keeps | with_reducible apply dropRetry_keeps
    | with_reducible apply useInjection_keeps | with_reducible refine foldl_keeps _ _ _ ?_ ?_
    | with_reducible refine foldl_fst_keeps _ _ _ ?_ ?_ | intro _ _ _ | intro _
    | with_reducible refine keeps_ite _ _ _ ?_ ?_ | split | with_reducible refine keeps_fst ?_ (by assumption)
    | with_reducible refine keeps_fst2 ?_ (by assumption) | simp only [])

theorem passReads_keeps {W : Nat} {q0 : State} (line : Nat) (s : State) (hk : Keeps W q0 s)
    (hW : Sub 0x400 W := by first | assumption | exact sub_of (by assumption) (by decide)) :
    Keeps W q0 (passReads line s) := by
  unfold passReads
  repeat' (first
    | with_reducible assumption | exact sub_of (by assumption) (by decide)
    | with_reducible exact twf_tset _ _ _ _ (by assumption)
    | with_reducible refine keeps_chan (W := W) ?_ _ (by assumption) | with_reducible exact twf_nil _
    | with_reducible refine keeps_ok (W := W) ?_ (by assumption) | with_reducible apply passRead_keeps
    | with_reducible refine foldl_keeps _ _ _ ?_ ?_ | with_reducible refine foldl_fst_keeps _ _ _ ?_ ?_ | intro _ _ _
    | intro _ | with_reducible refine keeps_ite _ _ _ ?_ ?_ | split
    | with_reducible refine keeps_fst ?_ (by assumption) | with_reducible refine keeps_fst2 ?_ (by assumption)
    | simp only [])

theorem keepWrite_keeps {W : Nat} {q0 : State} (c sub : Nat) (q : DReq) (s : State) (hk : Keeps W q0 s)
    (hW : Sub 0x400 W := by first | assumption | exact sub_of (by assumption) (by decide)) :
    Keeps W q0 (keepWrite c sub q s) := by
  unfold keepWrite
  repeat' (first
    | with_reducible assumption | exact sub_of (by assumption) (by decide)
    | with_reducible exact twf_tset _ _ _ _ (by assumption)
    | with_reducible refine keeps_chan (W := W) ?_ _ (by assumption) | with_reducible exact twf_nil _
    | with_reducible refine keeps_ok (W := W) ?_ (by assumption) | with_reducible apply keepRetry_keeps
    | with_reducible refine foldl_keeps _ _ _ ?_ ?_ | with_reducible refine foldl_fst_keeps _ _ _ ?_ ?_ | intro _ _ _
    | intro _ | with_reducible refine keeps_ite _ _ _ ?_ ?_ | split
    | with_reducible refine keeps_fst ?_ (by assumption) | with_reducible refine keeps_fst2 ?_ (by assumption)
    | simp only [])

theorem fixWrite_keeps {W : Nat} {q0 : State} (c line : Nat) (l : DLine) (s : State) (hk : Keeps W q0 s)
    (hW : Sub 0x401 W := by first | assumption | exact sub_of (by assumption) (by decide)) :
    Keeps W q0 (fixWrite c line l s) := by
  unfold fixWrite
  repeat' (first
    | with_reducible assumption | exact sub_of (by assumption) (by decide)
    | with_reducible exact twf_tset _ _ _ _ (by assumption)
    | with_reducible refine keeps_chan (W := W) ?_ _ (by assumption) | with_reducible exact twf_nil _
    | with_reducible refine keeps_ok (W := W) ?_ (by assumption) | with_reducible apply enqueue_keeps
    | with_reducible refine foldl_keeps _ _ _ ?_ ?_ | with_reducible refine foldl_fst_keeps _ _ _ ?_ ?_ | intro _ _ _
    | intro _ | with_reducible refine keeps_ite _ _ _ ?_ ?_ | split
    | with_reducible refine keeps_fst ?_ (by assumption) | with_reducible refine keeps_fst2 ?_ (by assumption)
    | simp only [])

theorem fixPoison_keeps {W : Nat} {q0 : State} (c line : Nat) (s : State) (hk : Keeps W q0 s)
    (hW : Sub 0x401 W := by first | assumption | exact sub_of (by assumption) (by decide)) :
    Keeps W q0 (fixPoison c line s) := by
  unfold fixPoison
  repeat' (first
    | with_reducible assumption | exact sub_of (by assumption) (by decide)
    | with_reducible exact twf_tset _ _ _ _ (by assumption)
    | with_reducible refine keeps_chan (W := W) ?_ _ (by assumption) | with_reducible exact twf_nil _
    | with_reducible refine keeps_ok (W := W) ?_ (by assumption) | with_reducible apply enqueue_keeps
    | with_reducible refine foldl_keeps _ _ _ ?_ ?_ | with_reducible refine foldl_fst_keeps _ _ _ ?_ ?_ | intro _ _ _
    | intro _ | with_reducible refine keeps_ite _ _ _ ?_ ?_ | split
    | with_reducible refine keeps_fst ?_ (by assumption) | with_reducible refine keeps_fst2 ?_ (by assumption)
    | simp only [])

theorem afterRead_keeps {W : Nat} {q0 : State} (sl c line tag : Nat) (k : Coord) (o : ROut) (s : State) (hk : Keeps
    W q0 s)
    (hW : Sub 0x83401 W := by first | assumption | exact sub_of (by assumption) (by decide)) :
    Keeps W q0 (afterRead sl c line tag k o s) := by
  unfold afterRead
  repeat' (first
    | with_reducible assumption | exact sub_of (by assumption) (by decide)
    | with_reducible exact twf_tset _ _ _ _ (by assumption)
    | with_reducible refine keeps_chan (W := W) ?_ _ (by assumption) | with_reducible exact twf_nil _
    | with_reducible refine keeps_ok (W := W) ?_ (by assumption) | with_reducible apply bump_keeps
    | with_reducible apply eccLast_keeps | with_reducible apply listRow_keeps
    | with_reducible apply countCorrection_keeps | with_reducible apply readRecord_keeps
    | with_reducible apply fixWrite_keeps | with_reducible refine foldl_keeps _ _ _ ?_ ?_
    | with_reducible refine foldl_fst_keeps _ _ _ ?_ ?_ | intro _ _ _ | intro _
    | with_reducible refine keeps_ite _ _ _ ?_ ?_ | split | with_reducible refine keeps_fst ?_ (by assumption)
    | with_reducible refine keeps_fst2 ?_ (by assumption) | simp only [])

theorem rereads_keeps {W : Nat} {q0 : State} (c : Nat) (o : ROut) (s : State) (hk : Keeps W q0 s)
    (hW : Sub 0x1 W := by first | assumption | exact sub_of (by assumption) (by decide)) :
    Keeps W q0 (rereads c o s) := by
  unfold rereads
  repeat' (first
    | with_reducible assumption | exact sub_of (by assumption) (by decide) | with_reducible apply bump_keeps
    | with_reducible refine foldl_keeps _ _ _ ?_ ?_ | with_reducible refine foldl_fst_keeps _ _ _ ?_ ?_ | intro _ _ _
    | intro _ | with_reducible refine keeps_ite _ _ _ ?_ ?_ | split
    | with_reducible refine keeps_fst ?_ (by assumption) | with_reducible refine keeps_fst2 ?_ (by assumption)
    | simp only [])

theorem readLine_keeps {W : Nat} {q0 : State} (sl line tag : Nat) (s : State) (hk : Keeps W q0 s)
    (hW : Sub 0x83401 W := by first | assumption | exact sub_of (by assumption) (by decide)) :
    Keeps W q0 (readLine sl line tag s).1 := by
  unfold readLine
  repeat' (first
    | with_reducible assumption | exact sub_of (by assumption) (by decide)
    | with_reducible exact twf_tset _ _ _ _ (by assumption)
    | with_reducible refine keeps_chan (W := W) ?_ _ (by assumption) | with_reducible exact twf_nil _
    | with_reducible refine keeps_ok (W := W) ?_ (by assumption) | with_reducible apply bump_keeps
    | with_reducible apply lostLine_keeps | with_reducible apply fixWrite_keeps | with_reducible apply afterRead_keeps
    | with_reducible apply rereads_keeps | with_reducible refine foldl_keeps _ _ _ ?_ ?_
    | with_reducible refine foldl_fst_keeps _ _ _ ?_ ?_ | intro _ _ _ | intro _
    | with_reducible refine keeps_ite _ _ _ ?_ ?_ | split | with_reducible refine keeps_fst ?_ (by assumption)
    | with_reducible refine keeps_fst2 ?_ (by assumption) | simp only [])

theorem scrubCount_keeps {W : Nat} {q0 : State} (sl c line : Nat) (k : Coord) (s : State) (hk : Keeps W q0 s)
    (hW : Sub 0x82401 W := by first | assumption | exact sub_of (by assumption) (by decide)) :
    Keeps W q0 (scrubCount sl c line k s) := by
  unfold scrubCount
  repeat' (first
    | with_reducible assumption | exact sub_of (by assumption) (by decide)
    | with_reducible exact twf_tset _ _ _ _ (by assumption)
    | with_reducible refine keeps_chan (W := W) ?_ _ (by assumption) | with_reducible exact twf_nil _
    | with_reducible refine keeps_ok (W := W) ?_ (by assumption) | with_reducible apply countCorrection_keeps
    | with_reducible refine foldl_keeps _ _ _ ?_ ?_ | with_reducible refine foldl_fst_keeps _ _ _ ?_ ?_ | intro _ _ _
    | intro _ | with_reducible refine keeps_ite _ _ _ ?_ ?_ | split
    | with_reducible refine keeps_fst ?_ (by assumption) | with_reducible refine keeps_fst2 ?_ (by assumption)
    | simp only [])

theorem scrubCopies_keeps {W : Nat} {q0 : State} (chs : List Nat) (now : Bool) (sl line : Nat) (s : State) (hk :
    Keeps W q0 s)
    (hW : Sub 0x82401 W := by first | assumption | exact sub_of (by assumption) (by decide)) :
    Keeps W q0 (scrubCopies chs now sl line s).1 := by
  unfold scrubCopies
  repeat' (first
    | with_reducible assumption | exact sub_of (by assumption) (by decide)
    | with_reducible exact twf_tset _ _ _ _ (by assumption)
    | with_reducible refine keeps_chan (W := W) ?_ _ (by assumption) | with_reducible exact twf_nil _
    | with_reducible refine keeps_ok (W := W) ?_ (by assumption) | with_reducible apply setLine_keeps
    | with_reducible apply listRow_keeps | with_reducible apply storePoison_keeps
    | with_reducible apply dropFixes_keeps | with_reducible apply fixWrite_keeps
    | with_reducible apply fixPoison_keeps | with_reducible apply scrubCount_keeps
    | with_reducible refine foldl_keeps _ _ _ ?_ ?_ | with_reducible refine foldl_fst_keeps _ _ _ ?_ ?_ | intro _ _ _
    | intro _ | with_reducible refine keeps_ite _ _ _ ?_ ?_ | split
    | with_reducible refine keeps_fst ?_ (by assumption) | with_reducible refine keeps_fst2 ?_ (by assumption)
    | simp only [])

theorem scrubLine_keeps {W : Nat} {q0 : State} (sl line : Nat) (s : State) (hk : Keeps W q0 s)
    (hW : Sub 0x82401 W := by first | assumption | exact sub_of (by assumption) (by decide)) :
    Keeps W q0 (scrubLine sl line s).1 := by
  unfold scrubLine
  repeat' (first
    | with_reducible assumption | exact sub_of (by assumption) (by decide)
    | with_reducible exact twf_tset _ _ _ _ (by assumption)
    | with_reducible refine keeps_chan (W := W) ?_ _ (by assumption) | with_reducible exact twf_nil _
    | with_reducible refine keeps_ok (W := W) ?_ (by assumption) | with_reducible apply scrubCopies_keeps
    | with_reducible refine foldl_keeps _ _ _ ?_ ?_ | with_reducible refine foldl_fst_keeps _ _ _ ?_ ?_ | intro _ _ _
    | intro _ | with_reducible refine keeps_ite _ _ _ ?_ ?_ | split
    | with_reducible refine keeps_fst ?_ (by assumption) | with_reducible refine keeps_fst2 ?_ (by assumption)
    | simp only [])

theorem catchDelay_keeps {W : Nat} {q0 : State} (c rank slot : Nat) (s : State) (hk : Keeps W q0 s)
    (hW : Sub 0x400 W := by first | assumption | exact sub_of (by assumption) (by decide)) :
    Keeps W q0 (catchDelay c rank slot s) := by
  unfold catchDelay
  repeat' (first
    | with_reducible assumption | exact sub_of (by assumption) (by decide)
    | with_reducible exact twf_tset _ _ _ _ (by assumption)
    | with_reducible refine keeps_chan (W := W) ?_ _ (by assumption) | with_reducible exact twf_nil _
    | with_reducible refine keeps_ok (W := W) ?_ (by assumption) | with_reducible apply modChan_keeps
    | with_reducible apply closeBoth_keeps | with_reducible refine foldl_keeps _ _ _ ?_ ?_
    | with_reducible refine foldl_fst_keeps _ _ _ ?_ ?_ | intro _ _ _ | intro _
    | with_reducible refine keeps_ite _ _ _ ?_ ?_ | split | with_reducible refine keeps_fst ?_ (by assumption)
    | with_reducible refine keeps_fst2 ?_ (by assumption) | simp only [])

theorem rekeyWrite_keeps {W : Nat} {q0 : State} (t line : Nat) (l : DLine) (k : Coord) (s : State) (hk : Keeps W q0
    s)
    (hW : Sub 0x401 W := by first | assumption | exact sub_of (by assumption) (by decide)) :
    Keeps W q0 (rekeyWrite t line l k s) := by
  unfold rekeyWrite
  repeat' (first
    | with_reducible assumption | exact sub_of (by assumption) (by decide)
    | with_reducible exact twf_tset _ _ _ _ (by assumption)
    | with_reducible refine keeps_chan (W := W) ?_ _ (by assumption) | with_reducible exact twf_nil _
    | with_reducible refine keeps_ok (W := W) ?_ (by assumption) | with_reducible apply setMem_keeps
    | with_reducible apply setLine_keeps | with_reducible apply dropFixes_keeps
    | with_reducible apply accessLine_keeps | with_reducible apply useInjection_keeps
    | with_reducible apply keepWrite_keeps | with_reducible refine foldl_keeps _ _ _ ?_ ?_
    | with_reducible refine foldl_fst_keeps _ _ _ ?_ ?_ | intro _ _ _ | intro _
    | with_reducible refine keeps_ite _ _ _ ?_ ?_ | split | with_reducible refine keeps_fst ?_ (by assumption)
    | with_reducible refine keeps_fst2 ?_ (by assumption) | simp only [])

theorem rekeyLine_keeps {W : Nat} {q0 : State} (t : Nat) (s : State) (hk : Keeps W q0 s)
    (hW : Sub 0xC19 W := by first | assumption | exact sub_of (by assumption) (by decide)) :
    Keeps W q0 (rekeyLine t s) := by
  unfold rekeyLine
  repeat' (first
    | with_reducible assumption | exact sub_of (by assumption) (by decide)
    | with_reducible exact twf_tset _ _ _ _ (by assumption)
    | with_reducible refine keeps_chan (W := W) ?_ _ (by assumption) | with_reducible exact twf_nil _
    | with_reducible refine keeps_ok (W := W) ?_ (by assumption) | with_reducible apply setTenant_keeps
    | with_reducible apply passRead_keeps | with_reducible apply rekeyWrite_keeps | with_reducible apply failed_keeps
    | with_reducible refine foldl_keeps _ _ _ ?_ ?_ | with_reducible refine foldl_fst_keeps _ _ _ ?_ ?_ | intro _ _ _
    | intro _ | with_reducible refine keeps_ite _ _ _ ?_ ?_ | split
    | with_reducible refine keeps_fst ?_ (by assumption) | with_reducible refine keeps_fst2 ?_ (by assumption)
    | simp only [])

theorem patrolRead_keeps {W : Nat} {q0 : State} (c sub : Nat) (s : State) (hk : Keeps W q0 s)
    (hW : Sub 0x82401 W := by first | assumption | exact sub_of (by assumption) (by decide)) :
    Keeps W q0 (patrolRead c sub s) := by
  unfold patrolRead
  repeat' (first
    | with_reducible assumption | exact sub_of (by assumption) (by decide)
    | with_reducible exact twf_tset _ _ _ _ (by assumption)
    | with_reducible refine keeps_chan (W := W) ?_ _ (by assumption) | with_reducible exact twf_nil _
    | with_reducible refine keeps_ok (W := W) ?_ (by assumption) | with_reducible apply setChan_keeps
    | with_reducible apply passRead_keeps | with_reducible apply scrubCopies_keeps
    | with_reducible refine foldl_keeps _ _ _ ?_ ?_ | with_reducible refine foldl_fst_keeps _ _ _ ?_ ?_ | intro _ _ _
    | intro _ | with_reducible refine keeps_ite _ _ _ ?_ ?_ | split
    | with_reducible refine keeps_fst ?_ (by assumption) | with_reducible refine keeps_fst2 ?_ (by assumption)
    | simp only [])

theorem scrubNext_keeps {W : Nat} {q0 : State} (c line : Nat) (w : Scrub) (s : State) (hk : Keeps W q0 s)
    (hW : Sub 0x82401 W := by first | assumption | exact sub_of (by assumption) (by decide)) :
    Keeps W q0 (scrubNext c line w s) := by
  unfold scrubNext
  repeat' (first
    | with_reducible assumption | exact sub_of (by assumption) (by decide)
    | with_reducible exact twf_tset _ _ _ _ (by assumption)
    | with_reducible refine keeps_chan (W := W) ?_ _ (by assumption) | with_reducible exact twf_nil _
    | with_reducible refine keeps_ok (W := W) ?_ (by assumption) | with_reducible apply bump_keeps
    | with_reducible apply setMem_keeps | with_reducible apply passReads_keeps | with_reducible apply scrubLine_keeps
    | with_reducible refine foldl_keeps _ _ _ ?_ ?_ | with_reducible refine foldl_fst_keeps _ _ _ ?_ ?_ | intro _ _ _
    | intro _ | with_reducible refine keeps_ite _ _ _ ?_ ?_ | split
    | with_reducible refine keeps_fst ?_ (by assumption) | with_reducible refine keeps_fst2 ?_ (by assumption)
    | simp only [])

theorem issue_keeps {W : Nat} {q0 : State} (c sub : Nat) (q : DReq) (s : State) (hk : Keeps W q0 s)
    (hW : Sub 0x83401 W := by first | assumption | exact sub_of (by assumption) (by decide)) :
    Keeps W q0 (issue c sub q s) := by
  unfold issue
  repeat' (first
    | with_reducible assumption | exact sub_of (by assumption) (by decide)
    | with_reducible exact twf_tset _ _ _ _ (by assumption)
    | with_reducible refine keeps_chan (W := W) ?_ _ (by assumption) | with_reducible exact twf_nil _
    | with_reducible refine keeps_ok (W := W) ?_ (by assumption) | with_reducible apply setFlight_keeps
    | with_reducible apply performWrite_keeps | with_reducible apply keepRetry_keeps
    | with_reducible apply useInjection_keeps | with_reducible apply keepWrite_keeps
    | with_reducible refine foldl_keeps _ _ _ ?_ ?_ | with_reducible refine foldl_fst_keeps _ _ _ ?_ ?_ | intro _ _ _
    | intro _ | with_reducible refine keeps_ite _ _ _ ?_ ?_ | split
    | with_reducible refine keeps_fst ?_ (by assumption) | with_reducible refine keeps_fst2 ?_ (by assumption)
    | simp only [])

theorem patrolTurn_keeps {W : Nat} {q0 : State} (c sub : Nat) (s : State) (hk : Keeps W q0 s)
    (hW : Sub 0x82401 W := by first | assumption | exact sub_of (by assumption) (by decide)) :
    Keeps W q0 (patrolTurn c sub s) := by
  unfold patrolTurn
  repeat' (first
    | with_reducible assumption | exact sub_of (by assumption) (by decide)
    | with_reducible exact twf_tset _ _ _ _ (by assumption)
    | with_reducible refine keeps_chan (W := W) ?_ _ (by assumption) | with_reducible exact twf_nil _
    | with_reducible refine keeps_ok (W := W) ?_ (by assumption) | with_reducible apply accessLine_keeps
    | with_reducible apply patrolRead_keeps | with_reducible refine foldl_keeps _ _ _ ?_ ?_
    | with_reducible refine foldl_fst_keeps _ _ _ ?_ ?_ | intro _ _ _ | intro _
    | with_reducible refine keeps_ite _ _ _ ?_ ?_ | split | with_reducible refine keeps_fst ?_ (by assumption)
    | with_reducible refine keeps_fst2 ?_ (by assumption) | simp only [])

theorem serve_keeps {W : Nat} {q0 : State} (c sub slot : Nat) (k : Coord) (q : DReq) (s : State) (hk : Keeps W q0 s)
    (hW : Sub 0x83C19 W := by first | assumption | exact sub_of (by assumption) (by decide)) :
    Keeps W q0 (serve c sub slot k q s) := by
  unfold serve
  repeat' (first
    | with_reducible assumption | exact sub_of (by assumption) (by decide)
    | with_reducible exact twf_tset _ _ _ _ (by assumption)
    | with_reducible refine keeps_chan (W := W) ?_ _ (by assumption) | with_reducible exact twf_nil _
    | with_reducible refine keeps_ok (W := W) ?_ (by assumption) | with_reducible apply dequeue_keeps
    | with_reducible apply accessLine_keeps | with_reducible apply catchDelay_keeps
    | with_reducible apply rekeyLine_keeps | with_reducible apply scrubNext_keeps | with_reducible apply issue_keeps
    | with_reducible refine foldl_keeps _ _ _ ?_ ?_ | with_reducible refine foldl_fst_keeps _ _ _ ?_ ?_ | intro _ _ _
    | intro _ | with_reducible refine keeps_ite _ _ _ ?_ ?_ | split
    | with_reducible refine keeps_fst ?_ (by assumption) | with_reducible refine keeps_fst2 ?_ (by assumption)
    | simp only [])

theorem commandOpportunity_keeps {W : Nat} {q0 : State} (c sub slot : Nat) (s : State) (hk : Keeps W q0 s)
    (hW : Sub 0x83C19 W := by first | assumption | exact sub_of (by assumption) (by decide)) :
    Keeps W q0 (commandOpportunity c sub slot s) := by
  unfold commandOpportunity
  repeat' (first
    | with_reducible assumption | exact sub_of (by assumption) (by decide)
    | with_reducible exact twf_tset _ _ _ _ (by assumption)
    | with_reducible refine keeps_chan (W := W) ?_ _ (by assumption) | with_reducible exact twf_nil _
    | with_reducible refine keeps_ok (W := W) ?_ (by assumption) | with_reducible apply modChan_keeps
    | with_reducible apply closeWindows_keeps | with_reducible apply rekeyLine_keeps
    | with_reducible apply scrubNext_keeps | with_reducible apply patrolTurn_keeps | with_reducible apply serve_keeps
    | with_reducible refine foldl_keeps _ _ _ ?_ ?_ | with_reducible refine foldl_fst_keeps _ _ _ ?_ ?_ | intro _ _ _
    | intro _ | with_reducible refine keeps_ite _ _ _ ?_ ?_ | split
    | with_reducible refine keeps_fst ?_ (by assumption) | with_reducible refine keeps_fst2 ?_ (by assumption)
    | simp only [])

theorem noteLoss_keeps {W : Nat} {q0 : State} (c t n f : Nat) (s : State) (hk : Keeps W q0 s)
    (hW : Sub 0x401 W := by first | assumption | exact sub_of (by assumption) (by decide)) :
    Keeps W q0 (noteLoss c t n f s) := by
  unfold noteLoss
  repeat' (first
    | with_reducible assumption | exact sub_of (by assumption) (by decide)
    | with_reducible exact twf_tset _ _ _ _ (by assumption)
    | with_reducible refine keeps_chan (W := W) ?_ _ (by assumption) | with_reducible exact twf_nil _
    | with_reducible refine keeps_ok (W := W) ?_ (by assumption) | with_reducible apply wr_keeps
    | with_reducible apply bump_keeps | with_reducible apply modChan_keeps
    | with_reducible refine foldl_keeps _ _ _ ?_ ?_ | with_reducible refine foldl_fst_keeps _ _ _ ?_ ?_ | intro _ _ _
    | intro _ | with_reducible refine keeps_ite _ _ _ ?_ ?_ | split
    | with_reducible refine keeps_fst ?_ (by assumption) | with_reducible refine keeps_fst2 ?_ (by assumption)
    | simp only [])

theorem addLoss_keeps {W : Nat} {q0 : State} (isCatch : Bool) (c t sub rank n f : Nat) (s : State) (hk : Keeps W q0
    s)
    (hW : Sub 0x401 W := by first | assumption | exact sub_of (by assumption) (by decide)) :
    Keeps W q0 (addLoss isCatch c t sub rank n f s) := by
  unfold addLoss
  repeat' (first
    | with_reducible assumption | exact sub_of (by assumption) (by decide)
    | with_reducible exact twf_tset _ _ _ _ (by assumption)
    | with_reducible refine keeps_chan (W := W) ?_ _ (by assumption) | with_reducible exact twf_nil _
    | with_reducible refine keeps_ok (W := W) ?_ (by assumption) | with_reducible apply modChan_keeps
    | with_reducible apply noteLoss_keeps | with_reducible refine foldl_keeps _ _ _ ?_ ?_
    | with_reducible refine foldl_fst_keeps _ _ _ ?_ ?_ | intro _ _ _ | intro _
    | with_reducible refine keeps_ite _ _ _ ?_ ?_ | split | with_reducible refine keeps_fst ?_ (by assumption)
    | with_reducible refine keeps_fst2 ?_ (by assumption) | simp only [])

theorem addLost_keeps {W : Nat} {q0 : State} (c : Nat) (s : State) (hk : Keeps W q0 s)
    (hW : Sub 0xC00 W := by first | assumption | exact sub_of (by assumption) (by decide)) :
    Keeps W q0 (addLost c s) := by
  unfold addLost
  repeat' (first
    | with_reducible assumption | exact sub_of (by assumption) (by decide)
    | with_reducible exact twf_tset _ _ _ _ (by assumption)
    | with_reducible refine keeps_chan (W := W) ?_ _ (by assumption) | with_reducible exact twf_nil _
    | with_reducible refine keeps_ok (W := W) ?_ (by assumption) | with_reducible apply modChan_keeps
    | with_reducible apply setTenant_keeps | with_reducible refine foldl_keeps _ _ _ ?_ ?_
    | with_reducible refine foldl_fst_keeps _ _ _ ?_ ?_ | intro _ _ _ | intro _
    | with_reducible refine keeps_ite _ _ _ ?_ ?_ | split | with_reducible refine keeps_fst ?_ (by assumption)
    | with_reducible refine keeps_fst2 ?_ (by assumption) | simp only [])

theorem issueSealed_keeps {W : Nat} {q0 : State} (c n f rank : Nat) (q : DReq) (s : State) (hk : Keeps W q0 s)
    (hW : Sub 0x83401 W := by first | assumption | exact sub_of (by assumption) (by decide)) :
    Keeps W q0 (issueSealed c n f rank q s) := by
  unfold issueSealed
  repeat' (first
    | with_reducible assumption | exact sub_of (by assumption) (by decide)
    | with_reducible exact twf_tset _ _ _ _ (by assumption)
    | with_reducible refine keeps_chan (W := W) ?_ _ (by assumption) | with_reducible exact twf_nil _
    | with_reducible refine keeps_ok (W := W) ?_ (by assumption) | with_reducible apply issue_keeps
    | with_reducible refine foldl_keeps _ _ _ ?_ ?_ | with_reducible refine foldl_fst_keeps _ _ _ ?_ ?_ | intro _ _ _
    | intro _ | with_reducible refine keeps_ite _ _ _ ?_ ?_ | split
    | with_reducible refine keeps_fst ?_ (by assumption) | with_reducible refine keeps_fst2 ?_ (by assumption)
    | simp only [])

theorem sealedSelection_keeps {W : Nat} {q0 : State} (c n : Nat) (s : State) (hk : Keeps W q0 s)
    (hW : Sub 0x83C19 W := by first | assumption | exact sub_of (by assumption) (by decide)) :
    Keeps W q0 (sealedSelection c n s) := by
  unfold sealedSelection
  repeat' (first
    | with_reducible assumption | exact sub_of (by assumption) (by decide)
    | with_reducible exact twf_tset _ _ _ _ (by assumption)
    | with_reducible refine keeps_chan (W := W) ?_ _ (by assumption) | with_reducible exact twf_nil _
    | with_reducible refine keeps_ok (W := W) ?_ (by assumption) | with_reducible apply modChan_keeps
    | with_reducible apply setSealedQ_keeps | with_reducible apply admitOutside_keeps
    | with_reducible apply rekeyLine_keeps | with_reducible apply noteLoss_keeps | with_reducible apply addLoss_keeps
    | with_reducible apply issueSealed_keeps | with_reducible refine foldl_keeps _ _ _ ?_ ?_
    | with_reducible refine foldl_fst_keeps _ _ _ ?_ ?_ | intro _ _ _ | intro _
    | with_reducible refine keeps_ite _ _ _ ?_ ?_ | split | with_reducible refine keeps_fst ?_ (by assumption)
    | with_reducible refine keeps_fst2 ?_ (by assumption) | simp only [])

theorem trackRead_keeps {W : Nat} {q0 : State} (c : Nat) (k : Coord) (phases : List (Nat × Bool)) (s : State) (hk :
    Keeps W q0 s)
    (hW : Sub 0x400 W := by first | assumption | exact sub_of (by assumption) (by decide)) :
    Keeps W q0 (trackRead c k phases s) := by
  unfold trackRead
  repeat' (first
    | with_reducible assumption | exact sub_of (by assumption) (by decide)
    | with_reducible exact twf_tset _ _ _ _ (by assumption)
    | with_reducible refine keeps_chan (W := W) ?_ _ (by assumption) | with_reducible exact twf_nil _
    | with_reducible refine keeps_ok (W := W) ?_ (by assumption) | with_reducible apply modChan_keeps
    | with_reducible refine foldl_keeps _ _ _ ?_ ?_ | with_reducible refine foldl_fst_keeps _ _ _ ?_ ?_ | intro _ _ _
    | intro _ | with_reducible refine keeps_ite _ _ _ ?_ ?_ | split
    | with_reducible refine keeps_fst ?_ (by assumption) | with_reducible refine keeps_fst2 ?_ (by assumption)
    | simp only [])

theorem moveDelays_keeps {W : Nat} {q0 : State} (c rank : Nat) (s : State) (hk : Keeps W q0 s)
    (hW : Sub 0x401 W := by first | assumption | exact sub_of (by assumption) (by decide)) :
    Keeps W q0 (moveDelays c rank s) := by
  unfold moveDelays
  repeat' (first
    | with_reducible assumption | exact sub_of (by assumption) (by decide)
    | with_reducible exact twf_tset _ _ _ _ (by assumption)
    | with_reducible refine keeps_chan (W := W) ?_ _ (by assumption) | with_reducible exact twf_nil _
    | with_reducible refine keeps_ok (W := W) ?_ (by assumption) | with_reducible apply wr_keeps
    | with_reducible apply modChan_keeps | with_reducible refine foldl_keeps _ _ _ ?_ ?_
    | with_reducible refine foldl_fst_keeps _ _ _ ?_ ?_ | intro _ _ _ | intro _
    | with_reducible refine keeps_ite _ _ _ ?_ ?_ | split | with_reducible refine keeps_fst ?_ (by assumption)
    | with_reducible refine keeps_fst2 ?_ (by assumption) | simp only [])

theorem readAgain_keeps {W : Nat} {q0 : State} (c sub : Nat) (q : DReq) (s : State) (hk : Keeps W q0 s)
    (hW : Sub 0x400 W := by first | assumption | exact sub_of (by assumption) (by decide)) :
    Keeps W q0 (readAgain c sub q s) := by
  unfold readAgain
  repeat' (first
    | with_reducible assumption | exact sub_of (by assumption) (by decide)
    | with_reducible exact twf_tset _ _ _ _ (by assumption)
    | with_reducible refine keeps_chan (W := W) ?_ _ (by assumption) | with_reducible exact twf_nil _
    | with_reducible refine keeps_ok (W := W) ?_ (by assumption) | with_reducible apply setQueue_keeps
    | with_reducible apply setSealedQ_keeps | with_reducible apply setOutside_keeps
    | with_reducible refine foldl_keeps _ _ _ ?_ ?_ | with_reducible refine foldl_fst_keeps _ _ _ ?_ ?_ | intro _ _ _
    | intro _ | with_reducible refine keeps_ite _ _ _ ?_ ?_ | split
    | with_reducible refine keeps_fst ?_ (by assumption) | with_reducible refine keeps_fst2 ?_ (by assumption)
    | simp only [])

theorem rereadHere_keeps {W : Nat} {q0 : State} (c sub : Nat) (q : DReq) (s : State) (hk : Keeps W q0 s)
    (hW : Sub 0x401 W := by first | assumption | exact sub_of (by assumption) (by decide)) :
    Keeps W q0 (rereadHere c sub q s) := by
  unfold rereadHere
  repeat' (first
    | with_reducible assumption | exact sub_of (by assumption) (by decide)
    | with_reducible exact twf_tset _ _ _ _ (by assumption)
    | with_reducible refine keeps_chan (W := W) ?_ _ (by assumption) | with_reducible exact twf_nil _
    | with_reducible refine keeps_ok (W := W) ?_ (by assumption) | with_reducible apply bump_keeps
    | with_reducible apply markForwarded_keeps | with_reducible apply readAgain_keeps
    | with_reducible refine foldl_keeps _ _ _ ?_ ?_ | with_reducible refine foldl_fst_keeps _ _ _ ?_ ?_ | intro _ _ _
    | intro _ | with_reducible refine keeps_ite _ _ _ ?_ ?_ | split
    | with_reducible refine keeps_fst ?_ (by assumption) | with_reducible refine keeps_fst2 ?_ (by assumption)
    | simp only [])

theorem dropRetries_keeps {W : Nat} {q0 : State} (sub : Nat) (k : Coord) (q : DReq) (s : State) (hk : Keeps W q0 s)
    (hW : Sub 0x400 W := by first | assumption | exact sub_of (by assumption) (by decide)) :
    Keeps W q0 (dropRetries sub k q s) := by
  unfold dropRetries
  repeat' (first
    | with_reducible assumption | exact sub_of (by assumption) (by decide)
    | with_reducible exact twf_tset _ _ _ _ (by assumption)
    | with_reducible refine keeps_chan (W := W) ?_ _ (by assumption) | with_reducible exact twf_nil _
    | with_reducible refine keeps_ok (W := W) ?_ (by assumption) | with_reducible apply dropRetry_keeps
    | with_reducible refine foldl_keeps _ _ _ ?_ ?_ | with_reducible refine foldl_fst_keeps _ _ _ ?_ ?_ | intro _ _ _
    | intro _ | with_reducible refine keeps_ite _ _ _ ?_ ?_ | split
    | with_reducible refine keeps_fst ?_ (by assumption) | with_reducible refine keeps_fst2 ?_ (by assumption)
    | simp only [])

theorem finishRead_keeps {W : Nat} {q0 : State} (c sub : Nat) (k : Coord) (q : DReq) (o : ROut) (s : State) (hk :
    Keeps W q0 s)
    (hW : Sub 0xA3401 W := by first | assumption | exact sub_of (by assumption) (by decide)) :
    Keeps W q0 (finishRead c sub k q o s) := by
  unfold finishRead
  repeat' (first
    | with_reducible assumption | exact sub_of (by assumption) (by decide)
    | with_reducible exact twf_tset _ _ _ _ (by assumption)
    | with_reducible refine keeps_chan (W := W) ?_ _ (by assumption) | with_reducible exact twf_nil _
    | with_reducible refine keeps_ok (W := W) ?_ (by assumption) | with_reducible apply bump_keeps
    | with_reducible apply recCorrected_keeps | with_reducible apply deliver_keeps
    | with_reducible apply afterRead_keeps | with_reducible apply dropRetries_keeps
    | with_reducible refine foldl_keeps _ _ _ ?_ ?_ | with_reducible refine foldl_fst_keeps _ _ _ ?_ ?_ | intro _ _ _
    | intro _ | with_reducible refine keeps_ite _ _ _ ?_ ?_ | split
    | with_reducible refine keeps_fst ?_ (by assumption) | with_reducible refine keeps_fst2 ?_ (by assumption)
    | simp only [])

theorem partnerData_keeps {W : Nat} {q0 : State} (c p sub : Nat) (k : Coord) (q : DReq) (o : ROut) (s : State) (hk :
    Keeps W q0 s)
    (hW : Sub 0x20401 W := by first | assumption | exact sub_of (by assumption) (by decide)) :
    Keeps W q0 (partnerData c p sub k q o s) := by
  unfold partnerData
  repeat' (first
    | with_reducible assumption | exact sub_of (by assumption) (by decide)
    | with_reducible exact twf_tset _ _ _ _ (by assumption)
    | with_reducible refine keeps_chan (W := W) ?_ _ (by assumption) | with_reducible exact twf_nil _
    | with_reducible refine keeps_ok (W := W) ?_ (by assumption) | with_reducible apply bump_keeps
    | with_reducible apply deliver_keeps | with_reducible apply fixWrite_keeps
    | with_reducible apply dropRetries_keeps | with_reducible refine foldl_keeps _ _ _ ?_ ?_
    | with_reducible refine foldl_fst_keeps _ _ _ ?_ ?_ | intro _ _ _ | intro _
    | with_reducible refine keeps_ite _ _ _ ?_ ?_ | split | with_reducible refine keeps_fst ?_ (by assumption)
    | with_reducible refine keeps_fst2 ?_ (by assumption) | simp only [])

theorem partnerRead_keeps {W : Nat} {q0 : State} (c p sub : Nat) (k : Coord) (q : DReq) (o : ROut) (s : State) (hk :
    Keeps W q0 s)
    (hW : Sub 0xA3401 W := by first | assumption | exact sub_of (by assumption) (by decide)) :
    Keeps W q0 (partnerRead c p sub k q o s) := by
  unfold partnerRead
  repeat' (first
    | with_reducible assumption | exact sub_of (by assumption) (by decide)
    | with_reducible exact twf_tset _ _ _ _ (by assumption)
    | with_reducible refine keeps_chan (W := W) ?_ _ (by assumption) | with_reducible exact twf_nil _
    | with_reducible refine keeps_ok (W := W) ?_ (by assumption) | with_reducible apply afterRead_keeps
    | with_reducible apply partnerData_keeps | with_reducible refine foldl_keeps _ _ _ ?_ ?_
    | with_reducible refine foldl_fst_keeps _ _ _ ?_ ?_ | intro _ _ _ | intro _
    | with_reducible refine keeps_ite _ _ _ ?_ ?_ | split | with_reducible refine keeps_fst ?_ (by assumption)
    | with_reducible refine keeps_fst2 ?_ (by assumption) | simp only [])

theorem twinStands_keeps {W : Nat} {q0 : State} (p sub : Nat) (q : DReq) (origin : Option Nat) (s : State) (hk :
    Keeps W q0 s)
    (hW : Sub 0x400 W := by first | assumption | exact sub_of (by assumption) (by decide)) :
    Keeps W q0 (twinStands p sub q origin s) := by
  unfold twinStands
  repeat' (first
    | with_reducible assumption | exact sub_of (by assumption) (by decide)
    | with_reducible exact twf_tset _ _ _ _ (by assumption)
    | with_reducible refine keeps_chan (W := W) ?_ _ (by assumption) | with_reducible exact twf_nil _
    | with_reducible refine keeps_ok (W := W) ?_ (by assumption) | with_reducible apply setFlight_keeps
    | with_reducible refine foldl_keeps _ _ _ ?_ ?_ | with_reducible refine foldl_fst_keeps _ _ _ ?_ ?_ | intro _ _ _
    | intro _ | with_reducible refine keeps_ite _ _ _ ?_ ?_ | split
    | with_reducible refine keeps_fst ?_ (by assumption) | with_reducible refine keeps_fst2 ?_ (by assumption)
    | simp only [])

theorem twinRead_keeps {W : Nat} {q0 : State} (c sub : Nat) (k : Coord) (q : DReq) (o : ROut) (s : State) (hk :
    Keeps W q0 s)
    (hW : Sub 0x82401 W := by first | assumption | exact sub_of (by assumption) (by decide)) :
    Keeps W q0 (twinRead c sub k q o s) := by
  unfold twinRead
  repeat' (first
    | with_reducible assumption | exact sub_of (by assumption) (by decide)
    | with_reducible exact twf_tset _ _ _ _ (by assumption)
    | with_reducible refine keeps_chan (W := W) ?_ _ (by assumption) | with_reducible exact twf_nil _
    | with_reducible refine keeps_ok (W := W) ?_ (by assumption) | with_reducible apply countCorrection_keeps
    | with_reducible apply dropRetry_keeps | with_reducible apply fixWrite_keeps
    | with_reducible refine foldl_keeps _ _ _ ?_ ?_ | with_reducible refine foldl_fst_keeps _ _ _ ?_ ?_ | intro _ _ _
    | intro _ | with_reducible refine keeps_ite _ _ _ ?_ ?_ | split
    | with_reducible refine keeps_fst ?_ (by assumption) | with_reducible refine keeps_fst2 ?_ (by assumption)
    | simp only [])

theorem judgeRead_keeps {W : Nat} {q0 : State} (c sub : Nat) (k : Coord) (q : DReq) (o : ROut) (s : State) (hk :
    Keeps W q0 s)
    (hW : Sub 0xA3401 W := by first | assumption | exact sub_of (by assumption) (by decide)) :
    Keeps W q0 (judgeRead c sub k q o s) := by
  unfold judgeRead
  repeat' (first
    | with_reducible assumption | exact sub_of (by assumption) (by decide)
    | with_reducible exact twf_tset _ _ _ _ (by assumption)
    | with_reducible refine keeps_chan (W := W) ?_ _ (by assumption) | with_reducible exact twf_nil _
    | with_reducible refine keeps_ok (W := W) ?_ (by assumption) | with_reducible apply bump_keeps
    | with_reducible apply markForwarded_keeps | with_reducible apply readAgain_keeps
    | with_reducible apply rereadHere_keeps | with_reducible apply finishRead_keeps
    | with_reducible apply partnerData_keeps | with_reducible apply partnerRead_keeps
    | with_reducible apply twinStands_keeps | with_reducible refine foldl_keeps _ _ _ ?_ ?_
    | with_reducible refine foldl_fst_keeps _ _ _ ?_ ?_ | intro _ _ _ | intro _
    | with_reducible refine keeps_ite _ _ _ ?_ ?_ | split | with_reducible refine keeps_fst ?_ (by assumption)
    | with_reducible refine keeps_fst2 ?_ (by assumption) | simp only [])

theorem dramReadReturn_keeps {W : Nat} {q0 : State} (c sub : Nat) (errs : List (Nat × Nat)) (phases : List (Nat ×
    Bool)) (s : State) (hk : Keeps W q0 s)
    (hW : Sub 0xA3401 W := by first | assumption | exact sub_of (by assumption) (by decide)) :
    Keeps W q0 (dramReadReturn c sub errs phases s) := by
  unfold dramReadReturn
  repeat' (first
    | with_reducible assumption | exact sub_of (by assumption) (by decide)
    | with_reducible exact twf_tset _ _ _ _ (by assumption)
    | with_reducible refine keeps_chan (W := W) ?_ _ (by assumption) | with_reducible exact twf_nil _
    | with_reducible refine keeps_ok (W := W) ?_ (by assumption) | with_reducible apply setFlight_keeps
    | with_reducible apply deliver_keeps | with_reducible apply dropRetry_keeps
    | with_reducible apply dropForwarded_keeps | with_reducible apply readLine_keeps
    | with_reducible apply trackRead_keeps | with_reducible apply twinRead_keeps
    | with_reducible apply judgeRead_keeps | with_reducible refine foldl_keeps _ _ _ ?_ ?_
    | with_reducible refine foldl_fst_keeps _ _ _ ?_ ?_ | intro _ _ _ | intro _
    | with_reducible refine keeps_ite _ _ _ ?_ ?_ | split | with_reducible refine keeps_fst ?_ (by assumption)
    | with_reducible refine keeps_fst2 ?_ (by assumption) | simp only [])

theorem setRem_keeps {W : Nat} {q0 : State} (c r v : Nat) (s : State) (hk : Keeps W q0 s) (hW : Sub 0x400 W) : Keeps
    W q0 (setRem c r v s) := by
  unfold setRem
  with_reducible repeat' (first
    | assumption | apply modChan_keeps | exact sub_of (by assumption) (by decide)
    | exact twf_tset _ _ _ _ (by assumption) | exact twf_nil _ | refine keeps_ok (W := W) ?_ (by assumption)
    | refine keeps_chan (W := W) ?_ _ (by assumption) | intro _ _ _ | intro _)

theorem accrue_keeps {W : Nat} {q0 : State} (c r : Nat) (s : State) (hk : Keeps W q0 s)
    (hW : Sub 0x401 W := by first | assumption | exact sub_of (by assumption) (by decide)) :
    Keeps W q0 (accrue c r s) := by
  unfold accrue
  repeat' (first
    | with_reducible assumption | exact sub_of (by assumption) (by decide)
    | with_reducible exact twf_tset _ _ _ _ (by assumption)
    | with_reducible refine keeps_chan (W := W) ?_ _ (by assumption) | with_reducible exact twf_nil _
    | with_reducible refine keeps_ok (W := W) ?_ (by assumption) | with_reducible apply wr_keeps
    | with_reducible apply modChan_keeps | with_reducible apply setRem_keeps
    | with_reducible refine foldl_keeps _ _ _ ?_ ?_ | with_reducible refine foldl_fst_keeps _ _ _ ?_ ?_ | intro _ _ _
    | intro _ | with_reducible refine keeps_ite _ _ _ ?_ ?_ | split
    | with_reducible refine keeps_fst ?_ (by assumption) | with_reducible refine keeps_fst2 ?_ (by assumption)
    | simp only [])

theorem catchIssued_keeps {W : Nat} {q0 : State} (c r : Nat) (s : State) (hk : Keeps W q0 s)
    (hW : Sub 0x401 W := by first | assumption | exact sub_of (by assumption) (by decide)) :
    Keeps W q0 (catchIssued c r s) := by
  unfold catchIssued
  repeat' (first
    | with_reducible assumption | exact sub_of (by assumption) (by decide)
    | with_reducible exact twf_tset _ _ _ _ (by assumption)
    | with_reducible refine keeps_chan (W := W) ?_ _ (by assumption) | with_reducible exact twf_nil _
    | with_reducible refine keeps_ok (W := W) ?_ (by assumption) | with_reducible apply wr_keeps
    | with_reducible apply modChan_keeps | with_reducible refine foldl_keeps _ _ _ ?_ ?_
    | with_reducible refine foldl_fst_keeps _ _ _ ?_ ?_ | intro _ _ _ | intro _
    | with_reducible refine keeps_ite _ _ _ ?_ ?_ | split | with_reducible refine keeps_fst ?_ (by assumption)
    | with_reducible refine keeps_fst2 ?_ (by assumption) | simp only [])

theorem refreshOwed_keeps {W : Nat} {q0 : State} (c r : Nat) (s : State) (hk : Keeps W q0 s)
    (hW : Sub 0x401 W := by first | assumption | exact sub_of (by assumption) (by decide)) :
    Keeps W q0 (refreshOwed c r s) := by
  unfold refreshOwed
  repeat' (first
    | with_reducible assumption | exact sub_of (by assumption) (by decide)
    | with_reducible exact twf_tset _ _ _ _ (by assumption)
    | with_reducible refine keeps_chan (W := W) ?_ _ (by assumption) | with_reducible exact twf_nil _
    | with_reducible refine keeps_ok (W := W) ?_ (by assumption) | with_reducible apply wr_keeps
    | with_reducible apply bump_keeps | with_reducible apply modChan_keeps | with_reducible apply moveDelays_keeps
    | with_reducible apply accrue_keeps | with_reducible apply catchIssued_keeps
    | with_reducible refine foldl_keeps _ _ _ ?_ ?_ | with_reducible refine foldl_fst_keeps _ _ _ ?_ ?_ | intro _ _ _
    | intro _ | with_reducible refine keeps_ite _ _ _ ?_ ?_ | split
    | with_reducible refine keeps_fst ?_ (by assumption) | with_reducible refine keeps_fst2 ?_ (by assumption)
    | simp only [])

theorem mr4Reading_keeps {W : Nat} {q0 : State} (c r : Nat) (codes : List (Nat × Nat)) (s : State) (hk : Keeps W q0
    s)
    (hW : Sub 0x82401 W := by first | assumption | exact sub_of (by assumption) (by decide)) :
    Keeps W q0 (mr4Reading c r codes s) := by
  unfold mr4Reading
  repeat' (first
    | with_reducible assumption | exact sub_of (by assumption) (by decide)
    | with_reducible exact twf_tset _ _ _ _ (by assumption)
    | with_reducible refine keeps_chan (W := W) ?_ _ (by assumption) | with_reducible exact twf_nil _
    | with_reducible refine keeps_ok (W := W) ?_ (by assumption) | with_reducible apply wr_keeps
    | with_reducible apply recContained_keeps | with_reducible apply setChan_keeps
    | with_reducible apply modChan_keeps | with_reducible refine foldl_keeps _ _ _ ?_ ?_
    | with_reducible refine foldl_fst_keeps _ _ _ ?_ ?_ | intro _ _ _ | intro _
    | with_reducible refine keeps_ite _ _ _ ?_ ?_ | split | with_reducible refine keeps_fst ?_ (by assumption)
    | with_reducible refine keeps_fst2 ?_ (by assumption) | simp only [])

theorem lossNotices_keeps {W : Nat} {q0 : State} (c : Nat) (p : Loss → Bool) (s : State) (hk : Keeps W q0 s) (hW :
    Sub 0x1C00 W) : Keeps W q0 (lossNotices c p s) := by
  unfold lossNotices
  with_reducible repeat' (first
    | assumption | apply modChan_keeps | apply sealNotice_keeps | exact sub_of (by assumption) (by decide)
    | refine foldl_keeps _ _ _ ?_ ?_ | exact twf_tset _ _ _ _ (by assumption) | exact twf_nil _
    | refine keeps_ok (W := W) ?_ (by assumption) | refine keeps_chan (W := W) ?_ _ (by assumption) | intro _ _ _
    | intro _)

theorem catchUpEnd_keeps {W : Nat} {q0 : State} (c r slot : Nat) (s : State) (hk : Keeps W q0 s)
    (hW : Sub 0x401 W := by first | assumption | exact sub_of (by assumption) (by decide)) :
    Keeps W q0 (catchUpEnd c r slot s) := by
  unfold catchUpEnd
  repeat' (first
    | with_reducible assumption | exact sub_of (by assumption) (by decide)
    | with_reducible exact twf_tset _ _ _ _ (by assumption)
    | with_reducible refine keeps_chan (W := W) ?_ _ (by assumption) | with_reducible exact twf_nil _
    | with_reducible refine keeps_ok (W := W) ?_ (by assumption) | with_reducible apply wr_keeps
    | with_reducible apply modChan_keeps | with_reducible apply closeBoth_keeps
    | with_reducible refine foldl_keeps _ _ _ ?_ ?_ | with_reducible refine foldl_fst_keeps _ _ _ ?_ ?_ | intro _ _ _
    | intro _ | with_reducible refine keeps_ite _ _ _ ?_ ?_ | split
    | with_reducible refine keeps_fst ?_ (by assumption) | with_reducible refine keeps_fst2 ?_ (by assumption)
    | simp only [])

theorem endEvents_keeps {W : Nat} {q0 : State} (c : Nat) (s : State) (hk : Keeps W q0 s)
    (hW : Sub 0x1C00 W := by first | assumption | exact sub_of (by assumption) (by decide)) :
    Keeps W q0 (endEvents c s) := by
  unfold endEvents
  repeat' (first
    | with_reducible assumption | exact sub_of (by assumption) (by decide)
    | with_reducible exact twf_tset _ _ _ _ (by assumption)
    | with_reducible refine keeps_chan (W := W) ?_ _ (by assumption) | with_reducible exact twf_nil _
    | with_reducible refine keeps_ok (W := W) ?_ (by assumption) | with_reducible apply modChan_keeps
    | with_reducible apply lossNotices_keeps | with_reducible refine foldl_keeps _ _ _ ?_ ?_
    | with_reducible refine foldl_fst_keeps _ _ _ ?_ ?_ | intro _ _ _ | intro _
    | with_reducible refine keeps_ite _ _ _ ?_ ?_ | split | with_reducible refine keeps_fst ?_ (by assumption)
    | with_reducible refine keeps_fst2 ?_ (by assumption) | simp only [])

theorem rateReturn_keeps {W : Nat} {q0 : State} (c r : Nat) (s : State) (hk : Keeps W q0 s)
    (hW : Sub 0x401 W := by first | assumption | exact sub_of (by assumption) (by decide)) :
    Keeps W q0 (rateReturn c r s) := by
  unfold rateReturn
  repeat' (first
    | with_reducible assumption | exact sub_of (by assumption) (by decide)
    | with_reducible exact twf_tset _ _ _ _ (by assumption)
    | with_reducible refine keeps_chan (W := W) ?_ _ (by assumption) | with_reducible exact twf_nil _
    | with_reducible refine keeps_ok (W := W) ?_ (by assumption) | with_reducible apply wr_keeps
    | with_reducible apply modChan_keeps | with_reducible apply setRem_keeps | with_reducible apply accrue_keeps
    | with_reducible refine foldl_keeps _ _ _ ?_ ?_ | with_reducible refine foldl_fst_keeps _ _ _ ?_ ?_ | intro _ _ _
    | intro _ | with_reducible refine keeps_ite _ _ _ ?_ ?_ | split
    | with_reducible refine keeps_fst ?_ (by assumption) | with_reducible refine keeps_fst2 ?_ (by assumption)
    | simp only [])

theorem driftCheck_keeps {W : Nat} {q0 : State} (c r : Nat) (change : Int) (s : State) (hk : Keeps W q0 s)
    (hW : Sub 0x82401 W := by first | assumption | exact sub_of (by assumption) (by decide)) :
    Keeps W q0 (driftCheck c r change s) := by
  unfold driftCheck
  repeat' (first
    | with_reducible assumption | exact sub_of (by assumption) (by decide)
    | with_reducible exact twf_tset _ _ _ _ (by assumption)
    | with_reducible refine keeps_chan (W := W) ?_ _ (by assumption) | with_reducible exact twf_nil _
    | with_reducible refine keeps_ok (W := W) ?_ (by assumption) | with_reducible apply wr_keeps
    | with_reducible apply bump_keeps | with_reducible apply recContained_keeps | with_reducible apply setChan_keeps
    | with_reducible refine foldl_keeps _ _ _ ?_ ?_ | with_reducible refine foldl_fst_keeps _ _ _ ?_ ?_ | intro _ _ _
    | intro _ | with_reducible refine keeps_ite _ _ _ ?_ ?_ | split
    | with_reducible refine keeps_fst ?_ (by assumption) | with_reducible refine keeps_fst2 ?_ (by assumption)
    | simp only [])

theorem stopSub_keeps {W : Nat} {q0 : State} (c sub : Nat) (s : State) (hk : Keeps W q0 s)
    (hW : Sub 0x82401 W := by first | assumption | exact sub_of (by assumption) (by decide)) :
    Keeps W q0 (stopSub c sub s) := by
  unfold stopSub
  repeat' (first
    | with_reducible assumption | exact sub_of (by assumption) (by decide)
    | with_reducible exact twf_tset _ _ _ _ (by assumption)
    | with_reducible refine keeps_chan (W := W) ?_ _ (by assumption) | with_reducible exact twf_nil _
    | with_reducible refine keeps_ok (W := W) ?_ (by assumption) | with_reducible apply wr_keeps
    | with_reducible apply recContained_keeps | with_reducible apply modChan_keeps
    | with_reducible refine foldl_keeps _ _ _ ?_ ?_ | with_reducible refine foldl_fst_keeps _ _ _ ?_ ?_ | intro _ _ _
    | intro _ | with_reducible refine keeps_ite _ _ _ ?_ ?_ | split
    | with_reducible refine keeps_fst ?_ (by assumption) | with_reducible refine keeps_fst2 ?_ (by assumption)
    | simp only [])

theorem unserve_keeps {W : Nat} {q0 : State} (c : Nat) (b : SelBlock) (s : State) (hk : Keeps W q0 s)
    (hW : Sub 0x400 W := by first | assumption | exact sub_of (by assumption) (by decide)) :
    Keeps W q0 (unserve c b s) := by
  unfold unserve
  repeat' (first
    | with_reducible assumption | exact sub_of (by assumption) (by decide)
    | with_reducible exact twf_tset _ _ _ _ (by assumption)
    | with_reducible refine keeps_chan (W := W) ?_ _ (by assumption) | with_reducible exact twf_nil _
    | with_reducible refine keeps_ok (W := W) ?_ (by assumption) | with_reducible apply modChan_keeps
    | with_reducible apply setSealedQ_keeps | with_reducible apply setFlight_keeps
    | with_reducible refine foldl_keeps _ _ _ ?_ ?_ | with_reducible refine foldl_fst_keeps _ _ _ ?_ ?_ | intro _ _ _
    | intro _ | with_reducible refine keeps_ite _ _ _ ?_ ?_ | split
    | with_reducible refine keeps_fst ?_ (by assumption) | with_reducible refine keeps_fst2 ?_ (by assumption)
    | simp only [])

theorem handOver_keeps {W : Nat} {q0 : State} (c : Nat) (b : SelBlock) (s : State) (hk : Keeps W q0 s)
    (hW : Sub 0x400 W := by first | assumption | exact sub_of (by assumption) (by decide)) :
    Keeps W q0 (handOver c b s) := by
  unfold handOver
  repeat' (first
    | with_reducible assumption | exact sub_of (by assumption) (by decide)
    | with_reducible exact twf_tset _ _ _ _ (by assumption)
    | with_reducible refine keeps_chan (W := W) ?_ _ (by assumption) | with_reducible exact twf_nil _
    | with_reducible refine keeps_ok (W := W) ?_ (by assumption) | with_reducible apply setFlight_keeps
    | with_reducible apply twinStands_keeps | with_reducible refine foldl_keeps _ _ _ ?_ ?_
    | with_reducible refine foldl_fst_keeps _ _ _ ?_ ?_ | intro _ _ _ | intro _
    | with_reducible refine keeps_ite _ _ _ ?_ ?_ | split | with_reducible refine keeps_fst ?_ (by assumption)
    | with_reducible refine keeps_fst2 ?_ (by assumption) | simp only [])

theorem loseSelected_keeps {W : Nat} {q0 : State} (isCatch : Bool) (c slot : Nat) (hit : SelBlock → Bool) (s :
    State) (hk : Keeps W q0 s)
    (hW : Sub 0x401 W := by first | assumption | exact sub_of (by assumption) (by decide)) :
    Keeps W q0 (loseSelected isCatch c slot hit s) := by
  unfold loseSelected
  repeat' (first
    | with_reducible assumption | exact sub_of (by assumption) (by decide)
    | with_reducible exact twf_tset _ _ _ _ (by assumption)
    | with_reducible refine keeps_chan (W := W) ?_ _ (by assumption) | with_reducible exact twf_nil _
    | with_reducible refine keeps_ok (W := W) ?_ (by assumption) | with_reducible apply modChan_keeps
    | with_reducible apply addLoss_keeps | with_reducible apply unserve_keeps | with_reducible apply handOver_keeps
    | with_reducible refine foldl_keeps _ _ _ ?_ ?_ | with_reducible refine foldl_fst_keeps _ _ _ ?_ ?_ | intro _ _ _
    | intro _ | with_reducible refine keeps_ite _ _ _ ?_ ?_ | split
    | with_reducible refine keeps_fst ?_ (by assumption) | with_reducible refine keeps_fst2 ?_ (by assumption)
    | simp only [])

theorem catchUpStart_keeps {W : Nat} {q0 : State} (c r : Nat) (s : State) (hk : Keeps W q0 s)
    (hW : Sub 0x401 W := by first | assumption | exact sub_of (by assumption) (by decide)) :
    Keeps W q0 (catchUpStart c r s) := by
  unfold catchUpStart
  repeat' (first
    | with_reducible assumption | exact sub_of (by assumption) (by decide)
    | with_reducible exact twf_tset _ _ _ _ (by assumption)
    | with_reducible refine keeps_chan (W := W) ?_ _ (by assumption) | with_reducible exact twf_nil _
    | with_reducible refine keeps_ok (W := W) ?_ (by assumption) | with_reducible apply wr_keeps
    | with_reducible apply bump_keeps | with_reducible apply modChan_keeps | with_reducible apply closeBoth_keeps
    | with_reducible apply setRem_keeps | with_reducible apply accrue_keeps | with_reducible apply loseSelected_keeps
    | with_reducible refine foldl_keeps _ _ _ ?_ ?_ | with_reducible refine foldl_fst_keeps _ _ _ ?_ ?_ | intro _ _ _
    | intro _ | with_reducible refine keeps_ite _ _ _ ?_ ?_ | split
    | with_reducible refine keeps_fst ?_ (by assumption) | with_reducible refine keeps_fst2 ?_ (by assumption)
    | simp only [])

theorem ddr5Alert_keeps {W : Nat} {q0 : State} (c sub kind slot : Nat) (s : State) (hk : Keeps W q0 s)
    (hW : Sub 0x82401 W := by first | assumption | exact sub_of (by assumption) (by decide)) :
    Keeps W q0 (ddr5Alert c sub kind slot s) := by
  unfold ddr5Alert
  repeat' (first
    | with_reducible assumption | exact sub_of (by assumption) (by decide)
    | with_reducible exact twf_tset _ _ _ _ (by assumption)
    | with_reducible refine keeps_chan (W := W) ?_ _ (by assumption) | with_reducible exact twf_nil _
    | with_reducible refine keeps_ok (W := W) ?_ (by assumption) | with_reducible apply wr_keeps
    | with_reducible apply bump_keeps | with_reducible apply modChan_keeps | with_reducible apply closeRank_keeps
    | with_reducible apply stopSub_keeps | with_reducible apply loseSelected_keeps
    | with_reducible refine foldl_keeps _ _ _ ?_ ?_ | with_reducible refine foldl_fst_keeps _ _ _ ?_ ?_ | intro _ _ _
    | intro _ | with_reducible refine keeps_ite _ _ _ ?_ ?_ | split
    | with_reducible refine keeps_fst ?_ (by assumption) | with_reducible refine keeps_fst2 ?_ (by assumption)
    | simp only [])

theorem replay_keeps {W : Nat} {q0 : State} (c sub : Nat) (s : State) (hk : Keeps W q0 s)
    (hW : Sub 0x401 W := by first | assumption | exact sub_of (by assumption) (by decide)) :
    Keeps W q0 (replay c sub s) := by
  unfold replay
  repeat' (first
    | with_reducible assumption | exact sub_of (by assumption) (by decide)
    | with_reducible exact twf_tset _ _ _ _ (by assumption)
    | with_reducible refine keeps_chan (W := W) ?_ _ (by assumption) | with_reducible exact twf_nil _
    | with_reducible refine keeps_ok (W := W) ?_ (by assumption) | with_reducible apply wr_keeps
    | with_reducible apply bump_keeps | with_reducible apply setFlight_keeps
    | with_reducible refine foldl_keeps _ _ _ ?_ ?_ | with_reducible refine foldl_fst_keeps _ _ _ ?_ ?_ | intro _ _ _
    | intro _ | with_reducible refine keeps_ite _ _ _ ?_ ?_ | split
    | with_reducible refine keeps_fst ?_ (by assumption) | with_reducible refine keeps_fst2 ?_ (by assumption)
    | simp only [])

theorem recoveryEnd_keeps {W : Nat} {q0 : State} (c sub slot : Nat) (s : State) (hk : Keeps W q0 s)
    (hW : Sub 0x401 W := by first | assumption | exact sub_of (by assumption) (by decide)) :
    Keeps W q0 (recoveryEnd c sub slot s) := by
  unfold recoveryEnd
  repeat' (first
    | with_reducible assumption | exact sub_of (by assumption) (by decide)
    | with_reducible exact twf_tset _ _ _ _ (by assumption)
    | with_reducible refine keeps_chan (W := W) ?_ _ (by assumption) | with_reducible exact twf_nil _
    | with_reducible refine keeps_ok (W := W) ?_ (by assumption) | with_reducible apply modChan_keeps
    | with_reducible apply replay_keeps | with_reducible refine foldl_keeps _ _ _ ?_ ?_
    | with_reducible refine foldl_fst_keeps _ _ _ ?_ ?_ | intro _ _ _ | intro _
    | with_reducible refine keeps_ite _ _ _ ?_ ?_ | split | with_reducible refine keeps_fst ?_ (by assumption)
    | with_reducible refine keeps_fst2 ?_ (by assumption) | simp only [])

theorem patrolTrigger_keeps {W : Nat} {q0 : State} (c reason : Nat) (s : State) (hk : Keeps W q0 s)
    (hW : Sub 0x401 W := by first | assumption | exact sub_of (by assumption) (by decide)) :
    Keeps W q0 (patrolTrigger c reason s) := by
  unfold patrolTrigger
  repeat' (first
    | with_reducible assumption | exact sub_of (by assumption) (by decide)
    | with_reducible exact twf_tset _ _ _ _ (by assumption)
    | with_reducible refine keeps_chan (W := W) ?_ _ (by assumption) | with_reducible exact twf_nil _
    | with_reducible refine keeps_ok (W := W) ?_ (by assumption) | with_reducible apply wr_keeps
    | with_reducible apply modChan_keeps | with_reducible refine foldl_keeps _ _ _ ?_ ?_
    | with_reducible refine foldl_fst_keeps _ _ _ ?_ ?_ | intro _ _ _ | intro _
    | with_reducible refine keeps_ite _ _ _ ?_ ?_ | split | with_reducible refine keeps_fst ?_ (by assumption)
    | with_reducible refine keeps_fst2 ?_ (by assumption) | simp only [])

theorem spareDevice_keeps {W : Nat} {q0 : State} (sl c rank sub d : Nat) (s : State) (hk : Keeps W q0 s) (hW : Sub
    0x82401 W) : Keeps W q0 (spareDevice sl c rank sub d s) := by
  unfold spareDevice
  with_reducible repeat' (first
    | assumption | apply patrolTrigger_keeps | apply recContained_keeps | apply wr_keeps
    | exact sub_of (by assumption) (by decide) | split)

theorem deviceSpare_keeps {W : Nat} {q0 : State} (c rank sub : Nat) (s : State) (hk : Keeps W q0 s)
    (hW : Sub 0x82401 W := by first | assumption | exact sub_of (by assumption) (by decide)) :
    Keeps W q0 (deviceSpare c rank sub s) := by
  unfold deviceSpare
  repeat' (first
    | with_reducible assumption | exact sub_of (by assumption) (by decide)
    | with_reducible exact twf_tset _ _ _ _ (by assumption)
    | with_reducible refine keeps_chan (W := W) ?_ _ (by assumption) | with_reducible exact twf_nil _
    | with_reducible refine keeps_ok (W := W) ?_ (by assumption) | with_reducible apply modChan_keeps
    | with_reducible apply spareDevice_keeps | with_reducible refine foldl_keeps _ _ _ ?_ ?_
    | with_reducible refine foldl_fst_keeps _ _ _ ?_ ?_ | intro _ _ _ | intro _
    | with_reducible refine keeps_ite _ _ _ ?_ ?_ | split | with_reducible refine keeps_fst ?_ (by assumption)
    | with_reducible refine keeps_fst2 ?_ (by assumption) | simp only [])

/-! ## Route -/

theorem setGroup_keeps {W : Nat} {q0 : State} (g : Nat) (r : Group) (s : State) (hk : Keeps W q0 s) (hW : Sub 0x20000
    W) : Keeps W q0 (setGroup g r s) := by
  unfold setGroup
  with_reducible repeat' (first
    | assumption | exact sub_of (by assumption) (by decide) | refine keeps_lit (by assumption) ?_)

theorem modGroup_keeps {W : Nat} {q0 : State} (g : Nat) (f : Group → Group) (s : State) (hk : Keeps W q0 s) (hW : Sub
    0x20000 W := by first | assumption | exact sub_of (by assumption) (by decide)) : Keeps W q0 (modGroup g f s) := by
  unfold modGroup
  with_reducible repeat' (first | assumption | apply setGroup_keeps)

theorem setFab_keeps {W : Nat} {q0 : State} (f : Fabric) (s : State) (hk : Keeps W q0 s) (hW : Sub 0x10000 W) : Keeps
    W q0 (setFab f s) := by
  unfold setFab
  with_reducible repeat' (first
    | assumption | exact sub_of (by assumption) (by decide) | refine keeps_lit (by assumption) ?_)

theorem modPort_keeps {W : Nat} {q0 : State} (k : Nat) (f : FabPort → FabPort) (s : State) (hk : Keeps W q0 s) (hW :
    Sub 0x10000 W) : Keeps W q0 (modPort k f s) := by
  unfold modPort
  with_reducible repeat' (first | assumption | apply setFab_keeps)

theorem putFlit_keeps {W : Nat} {q0 : State} (k : Nat) (f : TxFlit) (s : State) (hk : Keeps W q0 s)
    (hW : Sub 0x10000 W := by first | assumption | exact sub_of (by assumption) (by decide)) :
    Keeps W q0 (putFlit k f s) := by
  unfold putFlit
  repeat' (first
    | with_reducible assumption | exact sub_of (by assumption) (by decide) | with_reducible apply modPort_keeps
    | with_reducible refine foldl_keeps _ _ _ ?_ ?_ | with_reducible refine foldl_fst_keeps _ _ _ ?_ ?_ | intro _ _ _
    | intro _ | with_reducible refine keeps_ite _ _ _ ?_ ?_ | split
    | with_reducible refine keeps_fst ?_ (by assumption) | with_reducible refine keeps_fst2 ?_ (by assumption)
    | simp only [])

theorem txFlit_keeps {W : Nat} {q0 : State} (k kind vc pos : Nat) (pkts : List Pkt) (s : State) (hk : Keeps W q0 s)
    (hW : Sub 0x10000 W := by first | assumption | exact sub_of (by assumption) (by decide)) :
    Keeps W q0 (txFlit k kind vc pos pkts s) := by
  unfold txFlit
  repeat' (first
    | with_reducible assumption | exact sub_of (by assumption) (by decide) | with_reducible apply putFlit_keeps
    | with_reducible refine foldl_keeps _ _ _ ?_ ?_ | with_reducible refine foldl_fst_keeps _ _ _ ?_ ?_ | intro _ _ _
    | intro _ | with_reducible refine keeps_ite _ _ _ ?_ ?_ | split
    | with_reducible refine keeps_fst ?_ (by assumption) | with_reducible refine keeps_fst2 ?_ (by assumption)
    | simp only [])

theorem putOut_keeps {W : Nat} {q0 : State} (k : Nat) (p : Pkt) (s : State) (hk : Keeps W q0 s) (hW : Sub 0x10000 W)
    : Keeps W q0 (putOut k p s) := by
  unfold putOut
  with_reducible repeat' (first
    | assumption | apply modPort_keeps | apply txFlit_keeps)

theorem waitPkt_keeps {W : Nat} {q0 : State} (p : Pkt) (s : State) (hk : Keeps W q0 s) (hW : Sub 0x10000 W) : Keeps W
    q0 (waitPkt p s) := by
  unfold waitPkt
  with_reducible repeat' (first | assumption | apply setFab_keeps)

theorem routeOne_keeps {W : Nat} {q0 : State} (p : Pkt) (s : State) (hk : Keeps W q0 s) (hW : Sub 0x10000 W) : Keeps
    W q0 (routeOne p s) := by
  unfold routeOne
  with_reducible repeat' (first
    | assumption | apply putOut_keeps | apply waitPkt_keeps | exact sub_of (by assumption) (by decide) | split
    | simp only [])

theorem sendInShare_keeps {W : Nat} {q0 : State} (g : ShareSeg) (q : Nat) (l : List Pkt) (s : State) (hk : Keeps W
    q0 s)
    (hW : Sub 0x10000 W := by first | assumption | exact sub_of (by assumption) (by decide)) :
    Keeps W q0 (sendInShare g q l s) := by
  unfold sendInShare
  repeat' (first
    | with_reducible assumption | exact sub_of (by assumption) (by decide) | with_reducible apply txFlit_keeps
    | with_reducible apply waitPkt_keeps | with_reducible refine foldl_keeps _ _ _ ?_ ?_
    | with_reducible refine foldl_fst_keeps _ _ _ ?_ ?_ | intro _ _ _ | intro _
    | with_reducible refine keeps_ite _ _ _ ?_ ?_ | split | with_reducible refine keeps_fst ?_ (by assumption)
    | with_reducible refine keeps_fst2 ?_ (by assumption) | simp only [])

theorem sendAnyPos_keeps {W : Nat} {q0 : State} (g : ShareSeg) (p : Pkt) (s : State) (hk : Keeps W q0 s)
    (hW : Sub 0x20010000 W := by first | assumption | exact sub_of (by assumption) (by decide)) :
    Keeps W q0 (sendAnyPos g p s) := by
  unfold sendAnyPos
  repeat' (first
    | with_reducible assumption | exact sub_of (by assumption) (by decide) | with_reducible apply freeNext_keeps
    | with_reducible apply waitPkt_keeps | with_reducible apply sendInShare_keeps
    | with_reducible refine foldl_keeps _ _ _ ?_ ?_ | with_reducible refine foldl_fst_keeps _ _ _ ?_ ?_ | intro _ _ _
    | intro _ | with_reducible refine keeps_ite _ _ _ ?_ ?_ | split
    | with_reducible refine keeps_fst ?_ (by assumption) | with_reducible refine keeps_fst2 ?_ (by assumption)
    | simp only [])

theorem pumpWaiting_keeps {W : Nat} {q0 : State} (s : State) (hk : Keeps W q0 s)
    (hW : Sub 0x20010000 W := by first | assumption | exact sub_of (by assumption) (by decide)) :
    Keeps W q0 (pumpWaiting s) := by
  unfold pumpWaiting
  repeat' (first
    | with_reducible assumption | exact sub_of (by assumption) (by decide) | with_reducible apply setFab_keeps
    | with_reducible apply routeOne_keeps | with_reducible apply sendAnyPos_keeps
    | with_reducible refine foldl_keeps _ _ _ ?_ ?_ | with_reducible refine foldl_fst_keeps _ _ _ ?_ ?_ | intro _ _ _
    | intro _ | with_reducible refine keeps_ite _ _ _ ?_ ?_ | split
    | with_reducible refine keeps_fst ?_ (by assumption) | with_reducible refine keeps_fst2 ?_ (by assumption)
    | simp only [])

theorem showShare_keeps {W : Nat} {q0 : State} (k : Nat) (s : State) (hk : Keeps W q0 s) (hW : Sub 0x1 W) : Keeps W
    q0 (showShare k s) := by
  unfold showShare
  with_reducible repeat' (first | assumption | apply wr_keeps)

theorem markPos_keeps {W : Nat} {q0 : State} (g : ShareSeg) (t : Nat) (s : State) (hk : Keeps W q0 s) (hW : Sub
    0x10000 W) : Keeps W q0 (markPos g t s) := by
  unfold markPos
  with_reducible repeat' (first | assumption | apply modPort_keeps)

theorem dropSegsIf_keeps {W : Nat} {q0 : State} (mine : ShareSeg → Bool) (s : State) (hk : Keeps W q0 s)
    (hW : Sub 0x10001 W := by first | assumption | exact sub_of (by assumption) (by decide)) :
    Keeps W q0 (dropSegsIf mine s) := by
  unfold dropSegsIf
  repeat' (first
    | with_reducible assumption | exact sub_of (by assumption) (by decide) | with_reducible apply setFab_keeps
    | with_reducible apply showShare_keeps | with_reducible apply markPos_keeps
    | with_reducible refine foldl_keeps _ _ _ ?_ ?_ | with_reducible refine foldl_fst_keeps _ _ _ ?_ ?_ | intro _ _ _
    | intro _ | with_reducible refine keeps_ite _ _ _ ?_ ?_ | split
    | with_reducible refine keeps_fst ?_ (by assumption) | with_reducible refine keeps_fst2 ?_ (by assumption)
    | simp only [])

theorem dropSegs_keeps {W : Nat} {q0 : State} (t a d : Nat) (s : State) (hk : Keeps W q0 s)
    (hW : Sub 0x10001 W := by first | assumption | exact sub_of (by assumption) (by decide)) :
    Keeps W q0 (dropSegs t a d s) := by
  unfold dropSegs
  repeat' (first
    | with_reducible assumption | exact sub_of (by assumption) (by decide) | with_reducible apply dropSegsIf_keeps
    | with_reducible refine foldl_keeps _ _ _ ?_ ?_ | with_reducible refine foldl_fst_keeps _ _ _ ?_ ?_ | intro _ _ _
    | intro _ | with_reducible refine keeps_ite _ _ _ ?_ ?_ | split
    | with_reducible refine keeps_fst ?_ (by assumption) | with_reducible refine keeps_fst2 ?_ (by assumption)
    | simp only [])

theorem putSeg_keeps {W : Nat} {q0 : State} (g : ShareSeg) (s : State) (hk : Keeps W q0 s)
    (hW : Sub 0x10001 W := by first | assumption | exact sub_of (by assumption) (by decide)) :
    Keeps W q0 (putSeg g s) := by
  unfold putSeg
  repeat' (first
    | with_reducible assumption | exact sub_of (by assumption) (by decide) | with_reducible apply setFab_keeps
    | with_reducible apply showShare_keeps | with_reducible apply markPos_keeps
    | with_reducible apply dropSegsIf_keeps | with_reducible refine foldl_keeps _ _ _ ?_ ?_
    | with_reducible refine foldl_fst_keeps _ _ _ ?_ ?_ | intro _ _ _ | intro _
    | with_reducible refine keeps_ite _ _ _ ?_ ?_ | split | with_reducible refine keeps_fst ?_ (by assumption)
    | with_reducible refine keeps_fst2 ?_ (by assumption) | simp only [])

theorem relayMsg_keeps {W : Nat} {q0 : State} (p : Pkt) (m : Msg) (s : State) (hk : Keeps W q0 s)
    (hW : Sub 0x10000 W := by first | assumption | exact sub_of (by assumption) (by decide)) :
    Keeps W q0 (relayMsg p m s) := by
  unfold relayMsg
  repeat' (first
    | with_reducible assumption | exact sub_of (by assumption) (by decide) | with_reducible apply putOut_keeps
    | with_reducible apply waitPkt_keeps | with_reducible refine foldl_keeps _ _ _ ?_ ?_
    | with_reducible refine foldl_fst_keeps _ _ _ ?_ ?_ | intro _ _ _ | intro _
    | with_reducible refine keeps_ite _ _ _ ?_ ?_ | split | with_reducible refine keeps_fst ?_ (by assumption)
    | with_reducible refine keeps_fst2 ?_ (by assumption) | simp only [])

theorem sendPkt_keeps {W : Nat} {q0 : State} (p0 : Pkt) (s : State) (hk : Keeps W q0 s)
    (hW : Sub 0x20010000 W := by first | assumption | exact sub_of (by assumption) (by decide)) :
    Keeps W q0 (sendPkt p0 s) := by
  unfold sendPkt
  repeat' (first
    | with_reducible assumption | exact sub_of (by assumption) (by decide) | with_reducible apply waitPkt_keeps
    | with_reducible apply routeOne_keeps | with_reducible apply sendAnyPos_keeps
    | with_reducible apply relayMsg_keeps | with_reducible refine foldl_keeps _ _ _ ?_ ?_
    | with_reducible refine foldl_fst_keeps _ _ _ ?_ ?_ | intro _ _ _ | intro _
    | with_reducible refine keeps_ite _ _ _ ?_ ?_ | split | with_reducible refine keeps_fst ?_ (by assumption)
    | with_reducible refine keeps_fst2 ?_ (by assumption) | simp only [])

theorem sendMsg_keeps {W : Nat} {q0 : State} (d : Nat) (m : Msg) (s : State) (hk : Keeps W q0 s)
    (hW : Sub 0x20010000 W := by first | assumption | exact sub_of (by assumption) (by decide)) :
    Keeps W q0 (sendMsg d m s) := by
  unfold sendMsg
  repeat' (first
    | with_reducible assumption | exact sub_of (by assumption) (by decide) | with_reducible apply sendPkt_keeps
    | with_reducible refine foldl_keeps _ _ _ ?_ ?_ | with_reducible refine foldl_fst_keeps _ _ _ ?_ ?_ | intro _ _ _
    | intro _ | with_reducible refine keeps_ite _ _ _ ?_ ?_ | split
    | with_reducible refine keeps_fst ?_ (by assumption) | with_reducible refine keeps_fst2 ?_ (by assumption)
    | simp only [])

theorem dropLanes_keeps {W : Nat} {q0 : State} (t a d : Nat) (s : State) (hk : Keeps W q0 s)
    (hW : Sub 0x20010001 W := by first | assumption | exact sub_of (by assumption) (by decide)) :
    Keeps W q0 (dropLanes t a d s) := by
  unfold dropLanes
  repeat' (first
    | with_reducible assumption | exact sub_of (by assumption) (by decide) | with_reducible apply setFab_keeps
    | with_reducible apply dropSegs_keeps | with_reducible apply sendMsg_keeps
    | with_reducible refine foldl_keeps _ _ _ ?_ ?_ | with_reducible refine foldl_fst_keeps _ _ _ ?_ ?_ | intro _ _ _
    | intro _ | with_reducible refine keeps_ite _ _ _ ?_ ?_ | split
    | with_reducible refine keeps_fst ?_ (by assumption) | with_reducible refine keeps_fst2 ?_ (by assumption)
    | simp only [])

theorem freeLanes_keeps {W : Nat} {q0 : State} (t a d : Nat) (s : State) (hk : Keeps W q0 s)
    (hW : Sub 0x20010001 W := by first | assumption | exact sub_of (by assumption) (by decide)) :
    Keeps W q0 (freeLanes t a d s) := by
  unfold freeLanes
  repeat' (first
    | with_reducible assumption | exact sub_of (by assumption) (by decide) | with_reducible apply setFab_keeps
    | with_reducible apply dropLanes_keeps | with_reducible refine foldl_keeps _ _ _ ?_ ?_
    | with_reducible refine foldl_fst_keeps _ _ _ ?_ ?_ | intro _ _ _ | intro _
    | with_reducible refine keeps_ite _ _ _ ?_ ?_ | split | with_reducible refine keeps_fst ?_ (by assumption)
    | with_reducible refine keeps_fst2 ?_ (by assumption) | simp only [])

theorem endShare_keeps {W : Nat} {q0 : State} (h : Share) (s : State) (hk : Keeps W q0 s)
    (hW : Sub 0x20011801 W := by first | assumption | exact sub_of (by assumption) (by decide)) :
    Keeps W q0 (endShare h s) := by
  unfold endShare
  repeat' (first
    | with_reducible assumption | exact sub_of (by assumption) (by decide) | with_reducible apply sealNotice_keeps
    | with_reducible apply setFab_keeps | with_reducible apply dropSegs_keeps | with_reducible apply sendMsg_keeps
    | with_reducible apply freeLanes_keeps | with_reducible refine foldl_keeps _ _ _ ?_ ?_
    | with_reducible refine foldl_fst_keeps _ _ _ ?_ ?_ | intro _ _ _ | intro _
    | with_reducible refine keeps_ite _ _ _ ?_ ?_ | split | with_reducible refine keeps_fst ?_ (by assumption)
    | with_reducible refine keeps_fst2 ?_ (by assumption) | simp only [])

theorem releaseShares_keeps {W : Nat} {q0 : State} (t : Nat) (s : State) (hk : Keeps W q0 s)
    (hW : Sub 0x20011801 W := by first | assumption | exact sub_of (by assumption) (by decide)) :
    Keeps W q0 (releaseShares t s) := by
  unfold releaseShares
  repeat' (first
    | with_reducible assumption | exact sub_of (by assumption) (by decide) | with_reducible apply endShare_keeps
    | with_reducible refine foldl_keeps _ _ _ ?_ ?_ | with_reducible refine foldl_fst_keeps _ _ _ ?_ ?_ | intro _ _ _
    | intro _ | with_reducible refine keeps_ite _ _ _ ?_ ?_ | split
    | with_reducible refine keeps_fst ?_ (by assumption) | with_reducible refine keeps_fst2 ?_ (by assumption)
    | simp only [])

theorem finishTrk_keeps {W : Nat} {q0 : State} (p : Pkt) (kind op data : Nat) (s : State) (hk : Keeps W q0 s) (hW :
    Sub 0x20010000 W := by first | assumption | exact sub_of (by assumption) (by decide)) : Keeps W q0 (finishTrk p
    kind op data s) := by
  unfold finishTrk
  with_reducible repeat' (first
    | assumption | apply sendPkt_keeps | apply setFab_keeps | exact sub_of (by assumption) (by decide))

theorem putFabDir_keeps {W : Nat} {q0 : State} (n line : Nat) (e : FabEnt) (s : State) (hk : Keeps W q0 s) (hW : Sub
    0x100 W) : Keeps W q0 (putFabDir n line e s) := by
  unfold putFabDir
  with_reducible repeat' (first | assumption | apply setSlice_keeps)

theorem sendSnoop_keeps {W : Nat} {q0 : State} (dev line : Nat) (inv : Bool) (tag : Nat) (s : State) (hk : Keeps W q0
    s) (hW : Sub 0x20010000 W) : Keeps W q0 (sendSnoop dev line inv tag s) := by
  unfold sendSnoop
  with_reducible repeat' (first
    | assumption | apply sendPkt_keeps | apply setFab_keeps | exact sub_of (by assumption) (by decide) | split)

theorem snoopTrips_keeps {W : Nat} {q0 : State} (n line : Nat) (excl : Bool) (s : State) (hk : Keeps W q0 s)
    (hW : Sub 0x20080029 W := by first | assumption | exact sub_of (by assumption) (by decide)) :
    Keeps W q0 (snoopTrips n line excl s) := by
  unfold snoopTrips
  split
  · split
    · exact foldl_keeps _ _ _ hk fun a c ha => presentPair_keeps _ _ _ (fun _ h => h) ha (sub_of hW (by decide))
    · exact hk
  · exact hk

theorem clearWay_keeps {W : Nat} {q0 : State} (n line : Nat) (excl : Bool) (who : Option Nat) (s : State) (hk :
    Keeps W q0 s)
    (hW : Sub 0x20090029 W := by first | assumption | exact sub_of (by assumption) (by decide)) :
    Keeps W q0 (clearWay n line excl who s) := by
  unfold clearWay
  repeat' (first
    | with_reducible assumption | exact sub_of (by assumption) (by decide) | with_reducible apply sendSnoop_keeps
    | with_reducible apply snoopTrips_keeps | with_reducible refine foldl_keeps _ _ _ ?_ ?_
    | with_reducible refine foldl_fst_keeps _ _ _ ?_ ?_ | intro _ _ _ | intro _
    | with_reducible refine keeps_ite _ _ _ ?_ ?_ | split | with_reducible refine keeps_fst ?_ (by assumption)
    | with_reducible refine keeps_fst2 ?_ (by assumption) | simp only [])

theorem fabRoom_keeps {W : Nat} {q0 : State} (n line tag : Nat) (s : State) (hk : Keeps W q0 s) (hW : Sub 0x20090029 W) : Keeps W q0 (fabRoom n line tag s).1 := by
  unfold fabRoom
  with_reducible repeat' (first
    | assumption | apply clearWay_keeps | apply freeNext_keeps | exact sub_of (by assumption) (by decide) | split
    | simp only [])

/-! ## Train -/

theorem leaveOut_keeps {W : Nat} {q0 : State} (c code : Nat) (s : State) (hk : Keeps W q0 s)
    (hW : Sub 0x82001 W := by first | assumption | exact sub_of (by assumption) (by decide)) :
    Keeps W q0 (leaveOut c code s) := by
  unfold leaveOut
  repeat' (first
    | with_reducible assumption | exact sub_of (by assumption) (by decide) | with_reducible apply wr_keeps
    | with_reducible apply recContained_keeps | with_reducible refine foldl_keeps _ _ _ ?_ ?_
    | with_reducible refine foldl_fst_keeps _ _ _ ?_ ?_ | intro _ _ _ | intro _
    | with_reducible refine keeps_ite _ _ _ ?_ ?_ | split | with_reducible refine keeps_fst ?_ (by assumption)
    | with_reducible refine keeps_fst2 ?_ (by assumption) | simp only [])

theorem setSpeed_keeps {W : Nat} {q0 : State} (s : State) (hk : Keeps W q0 s)
    (hW : Sub 0x401 W := by first | assumption | exact sub_of (by assumption) (by decide)) :
    Keeps W q0 (setSpeed s) := by
  unfold setSpeed
  repeat' (first
    | with_reducible assumption | exact sub_of (by assumption) (by decide)
    | with_reducible exact twf_tset _ _ _ _ (by assumption)
    | with_reducible refine keeps_chan (W := W) ?_ _ (by assumption) | with_reducible exact twf_nil _
    | with_reducible refine keeps_ok (W := W) ?_ (by assumption) | with_reducible apply wr_keeps
    | with_reducible apply setMem_keeps | with_reducible refine foldl_keeps _ _ _ ?_ ?_
    | with_reducible refine foldl_fst_keeps _ _ _ ?_ ?_ | intro _ _ _ | intro _
    | with_reducible refine keeps_ite _ _ _ ?_ ?_ | split | with_reducible refine keeps_fst ?_ (by assumption)
    | with_reducible refine keeps_fst2 ?_ (by assumption) | simp only [])

theorem nextStep_keeps {W : Nat} {q0 : State} (c : Nat) (s : State) (hk : Keeps W q0 s) (hW : Sub 0x401 W) : Keeps W
    q0 (nextStep c s) := by
  unfold nextStep
  with_reducible repeat' (first
    | assumption | apply wr_keeps | apply modChan_keeps | exact sub_of (by assumption) (by decide)
    | exact twf_tset _ _ _ _ (by assumption) | exact twf_nil _ | refine keeps_ok (W := W) ?_ (by assumption)
    | refine keeps_chan (W := W) ?_ _ (by assumption) | intro _ _ _ | intro _)

theorem applySweep_keeps {W : Nat} {q0 : State} (c step : Nat) (eyes : List Nat) (s : State) (hk : Keeps W q0 s)
    (hW : Sub 0x20082401 W := by first | assumption | exact sub_of (by assumption) (by decide)) :
    Keeps W q0 (applySweep c step eyes s) := by
  unfold applySweep
  repeat' (first
    | with_reducible assumption | exact sub_of (by assumption) (by decide)
    | with_reducible exact twf_tset _ _ _ _ (by assumption)
    | with_reducible refine keeps_chan (W := W) ?_ _ (by assumption) | with_reducible exact twf_nil _
    | with_reducible refine keeps_ok (W := W) ?_ (by assumption) | with_reducible apply wr_keeps
    | with_reducible apply freeNext_keeps | with_reducible apply leaveOut_keeps | with_reducible apply nextStep_keeps
    | with_reducible refine foldl_keeps _ _ _ ?_ ?_ | with_reducible refine foldl_fst_keeps _ _ _ ?_ ?_ | intro _ _ _
    | intro _ | with_reducible refine keeps_ite _ _ _ ?_ ?_ | split
    | with_reducible refine keeps_fst ?_ (by assumption) | with_reducible refine keeps_fst2 ?_ (by assumption)
    | simp only [])

theorem reportGrid_keeps {W : Nat} {q0 : State} (c : Nat) (d : DimmSpd) (s : State) (hk : Keeps W q0 s) (hW : Sub
    0x20000001 W) : Keeps W q0 (reportGrid c d s) := by
  unfold reportGrid
  with_reducible repeat' (first
    | assumption | apply wr_keeps | apply freeNext_keeps | exact sub_of (by assumption) (by decide)
    | refine foldl_keeps _ _ _ ?_ ?_ | intro _ _ _)

theorem startRepairs_keeps {W : Nat} {q0 : State} (c : Nat) (bad : List Nat) (s : State) (hk : Keeps W q0 s) (hW :
    Sub 0x401 W) : Keeps W q0 (startRepairs c bad s) := by
  unfold startRepairs
  with_reducible repeat' (first
    | assumption | apply bump_keeps | apply wr_keeps | apply modChan_keeps
    | exact sub_of (by assumption) (by decide) | split | exact twf_tset _ _ _ _ (by assumption) | exact twf_nil _
    | refine keeps_ok (W := W) ?_ (by assumption) | refine keeps_chan (W := W) ?_ _ (by assumption) | intro _ _ _
    | intro _)

theorem startTraining_keeps {W : Nat} {q0 : State} (c step : Nat) (s : State) (hk : Keeps W q0 s)
    (hW : Sub 0x401 W := by first | assumption | exact sub_of (by assumption) (by decide)) :
    Keeps W q0 (startTraining c step s) := by
  unfold startTraining
  repeat' (first
    | with_reducible assumption | exact sub_of (by assumption) (by decide)
    | with_reducible exact twf_tset _ _ _ _ (by assumption)
    | with_reducible refine keeps_chan (W := W) ?_ _ (by assumption) | with_reducible exact twf_nil _
    | with_reducible refine keeps_ok (W := W) ?_ (by assumption) | with_reducible apply wr_keeps
    | with_reducible apply modChan_keeps | with_reducible refine foldl_keeps _ _ _ ?_ ?_
    | with_reducible refine foldl_fst_keeps _ _ _ ?_ ?_ | intro _ _ _ | intro _
    | with_reducible refine keeps_ite _ _ _ ?_ ?_ | split | with_reducible refine keeps_fst ?_ (by assumption)
    | with_reducible refine keeps_fst2 ?_ (by assumption) | simp only [])

theorem trainingStepDone_keeps {W : Nat} {q0 : State} (c : Nat) (r : TrainRep) (s : State) (hk : Keeps W q0 s)
    (hW : Sub 0x20082401 W := by first | assumption | exact sub_of (by assumption) (by decide)) :
    Keeps W q0 (trainingStepDone c r s) := by
  unfold trainingStepDone
  repeat' (first
    | with_reducible assumption | exact sub_of (by assumption) (by decide)
    | with_reducible exact twf_tset _ _ _ _ (by assumption)
    | with_reducible refine keeps_chan (W := W) ?_ _ (by assumption) | with_reducible exact twf_nil _
    | with_reducible refine keeps_ok (W := W) ?_ (by assumption) | with_reducible apply wr_keeps
    | with_reducible apply bump_keeps | with_reducible apply modChan_keeps | with_reducible apply leaveOut_keeps
    | with_reducible apply setSpeed_keeps | with_reducible apply nextStep_keeps
    | with_reducible apply applySweep_keeps | with_reducible apply reportGrid_keeps
    | with_reducible apply startRepairs_keeps | with_reducible refine foldl_keeps _ _ _ ?_ ?_
    | with_reducible refine foldl_fst_keeps _ _ _ ?_ ?_ | intro _ _ _ | intro _
    | with_reducible refine keeps_ite _ _ _ ?_ ?_ | split | with_reducible refine keeps_fst ?_ (by assumption)
    | with_reducible refine keeps_fst2 ?_ (by assumption) | simp only [])

theorem decideMirror_keeps {W : Nat} {q0 : State} (s : State) (hk : Keeps W q0 s) (hW : Sub 0x401 W) : Keeps W q0
    (decideMirror s) := by
  unfold decideMirror
  with_reducible repeat' (first
    | assumption | apply wrB_keeps | apply wr_keeps | apply modChan_keeps
    | exact sub_of (by assumption) (by decide) | refine foldl_keeps _ _ _ ?_ ?_ | split
    | exact twf_tset _ _ _ _ (by assumption) | exact twf_nil _ | refine keeps_ok (W := W) ?_ (by assumption)
    | refine keeps_chan (W := W) ?_ _ (by assumption) | intro _ _ _ | intro _)

theorem makeLender_keeps {W : Nat} {q0 : State} (group base size t : Nat) (s : State) (hk : Keeps W q0 s)
    (hW : Sub 0x8020C01 W := by first | assumption | exact sub_of (by assumption) (by decide)) :
    Keeps W q0 (makeLender group base size t s) := by
  unfold makeLender
  repeat' (first
    | with_reducible assumption | exact sub_of (by assumption) (by decide)
    | with_reducible exact twf_tset _ _ _ _ (by assumption)
    | with_reducible refine keeps_chan (W := W) ?_ _ (by assumption) | with_reducible exact twf_nil _
    | with_reducible refine keeps_ok (W := W) ?_ (by assumption) | with_reducible apply wr_keeps
    | with_reducible apply addDue_keeps | with_reducible apply setTenant_keeps
    | with_reducible refine foldl_keeps _ _ _ ?_ ?_ | with_reducible refine foldl_fst_keeps _ _ _ ?_ ?_ | intro _ _ _
    | intro _ | with_reducible refine keeps_ite _ _ _ ?_ ?_ | split
    | with_reducible refine keeps_fst ?_ (by assumption) | with_reducible refine keeps_fst2 ?_ (by assumption)
    | simp only [] | with_reducible refine keeps_lit (by assumption) ?_
    | (refine keeps_mem _ ?_ ?_ (sub_of (by assumption) (by decide))))

theorem buildMap_keeps {W : Nat} {q0 : State} (s : State) (hk : Keeps W q0 s)
    (hW : Sub 0x8820C01 W := by first | assumption | exact sub_of (by assumption) (by decide)) :
    Keeps W q0 (buildMap s) := by
  unfold buildMap
  repeat' (first
    | with_reducible assumption | exact sub_of (by assumption) (by decide)
    | with_reducible exact twf_tset _ _ _ _ (by assumption)
    | with_reducible refine keeps_chan (W := W) ?_ _ (by assumption) | with_reducible exact twf_nil _
    | with_reducible refine keeps_ok (W := W) ?_ (by assumption) | with_reducible apply wr_keeps
    | with_reducible apply event_keeps | with_reducible apply setMem_keeps | with_reducible apply modChan_keeps
    | with_reducible apply decideMirror_keeps | with_reducible apply makeLender_keeps
    | with_reducible refine foldl_keeps _ _ _ ?_ ?_ | with_reducible refine foldl_fst_keeps _ _ _ ?_ ?_ | intro _ _ _
    | intro _ | with_reducible refine keeps_ite _ _ _ ?_ ?_ | split
    | with_reducible refine keeps_fst ?_ (by assumption) | with_reducible refine keeps_fst2 ?_ (by assumption)
    | simp only [])

theorem startPatrol_keeps {W : Nat} {q0 : State} (c reason : Nat) (s : State) (hk : Keeps W q0 s)
    (hW : Sub 0x401 W := by first | assumption | exact sub_of (by assumption) (by decide)) :
    Keeps W q0 (startPatrol c reason s) := by
  unfold startPatrol
  repeat' (first
    | with_reducible assumption | exact sub_of (by assumption) (by decide)
    | with_reducible exact twf_tset _ _ _ _ (by assumption)
    | with_reducible refine keeps_chan (W := W) ?_ _ (by assumption) | with_reducible exact twf_nil _
    | with_reducible refine keeps_ok (W := W) ?_ (by assumption) | with_reducible apply wr_keeps
    | with_reducible apply modChan_keeps | with_reducible refine foldl_keeps _ _ _ ?_ ?_
    | with_reducible refine foldl_fst_keeps _ _ _ ?_ ?_ | intro _ _ _ | intro _
    | with_reducible refine keeps_ite _ _ _ ?_ ?_ | split | with_reducible refine keeps_fst ?_ (by assumption)
    | with_reducible refine keeps_fst2 ?_ (by assumption) | simp only [])

theorem fillPredict_keeps {W : Nat} {q0 : State} (c : Nat) (s : State) (hk : Keeps W q0 s)
    (hW : Sub 0x20000401 W := by first | assumption | exact sub_of (by assumption) (by decide)) :
    Keeps W q0 (fillPredict c s) := by
  unfold fillPredict
  repeat' (first
    | with_reducible assumption | exact sub_of (by assumption) (by decide)
    | with_reducible exact twf_tset _ _ _ _ (by assumption)
    | with_reducible refine keeps_chan (W := W) ?_ _ (by assumption) | with_reducible exact twf_nil _
    | with_reducible refine keeps_ok (W := W) ?_ (by assumption) | with_reducible apply bump_keeps
    | with_reducible apply freeNext_keeps | with_reducible apply modChan_keeps
    | with_reducible refine foldl_keeps _ _ _ ?_ ?_ | with_reducible refine foldl_fst_keeps _ _ _ ?_ ?_ | intro _ _ _
    | intro _ | with_reducible refine keeps_ite _ _ _ ?_ ?_ | split
    | with_reducible refine keeps_fst ?_ (by assumption) | with_reducible refine keeps_fst2 ?_ (by assumption)
    | simp only [])

theorem fillComplete_keeps {W : Nat} {q0 : State} (c : Nat) (s : State) (hk : Keeps W q0 s)
    (hW : Sub 0x20000401 W := by first | assumption | exact sub_of (by assumption) (by decide)) :
    Keeps W q0 (fillComplete c s) := by
  unfold fillComplete
  repeat' (first
    | with_reducible assumption | exact sub_of (by assumption) (by decide)
    | with_reducible exact twf_tset _ _ _ _ (by assumption)
    | with_reducible refine keeps_chan (W := W) ?_ _ (by assumption) | with_reducible exact twf_nil _
    | with_reducible refine keeps_ok (W := W) ?_ (by assumption) | with_reducible apply wr_keeps
    | with_reducible apply modChan_keeps | with_reducible apply startPatrol_keeps
    | with_reducible apply fillPredict_keeps | with_reducible refine foldl_keeps _ _ _ ?_ ?_
    | with_reducible refine foldl_fst_keeps _ _ _ ?_ ?_ | intro _ _ _ | intro _
    | with_reducible refine keeps_ite _ _ _ ?_ ?_ | split | with_reducible refine keeps_fst ?_ (by assumption)
    | with_reducible refine keeps_fst2 ?_ (by assumption) | simp only [])

theorem drainQueues_keeps {W : Nat} {q0 : State} (c : Nat) (s : State) (hk : Keeps W q0 s)
    (hW : Sub 0xA3401 W := by first | assumption | exact sub_of (by assumption) (by decide)) :
    Keeps W q0 (drainQueues c s) := by
  unfold drainQueues
  repeat' (first
    | with_reducible assumption | exact sub_of (by assumption) (by decide)
    | with_reducible exact twf_tset _ _ _ _ (by assumption)
    | with_reducible refine keeps_chan (W := W) ?_ _ (by assumption) | with_reducible exact twf_nil _
    | with_reducible refine keeps_ok (W := W) ?_ (by assumption) | with_reducible apply modChan_keeps
    | with_reducible apply performWrite_keeps | with_reducible apply deliver_keeps
    | with_reducible apply accessLine_keeps | with_reducible apply readLine_keeps
    | with_reducible refine foldl_keeps _ _ _ ?_ ?_ | with_reducible refine foldl_fst_keeps _ _ _ ?_ ?_ | intro _ _ _
    | intro _ | with_reducible refine keeps_ite _ _ _ ?_ ?_ | split
    | with_reducible refine keeps_fst ?_ (by assumption) | with_reducible refine keeps_fst2 ?_ (by assumption)
    | simp only [])

theorem endRefreshes_keeps {W : Nat} {q0 : State} (c : Nat) (s : State) (hk : Keeps W q0 s)
    (hW : Sub 0x401 W := by first | assumption | exact sub_of (by assumption) (by decide)) :
    Keeps W q0 (endRefreshes c s) := by
  unfold endRefreshes
  repeat' (first
    | with_reducible assumption | exact sub_of (by assumption) (by decide)
    | with_reducible exact twf_tset _ _ _ _ (by assumption)
    | with_reducible refine keeps_chan (W := W) ?_ _ (by assumption) | with_reducible exact twf_nil _
    | with_reducible refine keeps_ok (W := W) ?_ (by assumption) | with_reducible apply catchUpEnd_keeps
    | with_reducible apply recoveryEnd_keeps | with_reducible refine foldl_keeps _ _ _ ?_ ?_
    | with_reducible refine foldl_fst_keeps _ _ _ ?_ ?_ | intro _ _ _ | intro _
    | with_reducible refine keeps_ite _ _ _ ?_ ?_ | split | with_reducible refine keeps_fst ?_ (by assumption)
    | with_reducible refine keeps_fst2 ?_ (by assumption) | simp only [])

theorem selfRefreshEnter_keeps {W : Nat} {q0 : State} (c : Nat) (s : State) (hk : Keeps W q0 s)
    (hW : Sub 0xA3401 W := by first | assumption | exact sub_of (by assumption) (by decide)) :
    Keeps W q0 (selfRefreshEnter c s) := by
  unfold selfRefreshEnter
  repeat' (first
    | with_reducible assumption | exact sub_of (by assumption) (by decide)
    | with_reducible exact twf_tset _ _ _ _ (by assumption)
    | with_reducible refine keeps_chan (W := W) ?_ _ (by assumption) | with_reducible exact twf_nil _
    | with_reducible refine keeps_ok (W := W) ?_ (by assumption) | with_reducible apply wr_keeps
    | with_reducible apply modChan_keeps | with_reducible apply drainQueues_keeps
    | with_reducible apply endRefreshes_keeps | with_reducible refine foldl_keeps _ _ _ ?_ ?_
    | with_reducible refine foldl_fst_keeps _ _ _ ?_ ?_ | intro _ _ _ | intro _
    | with_reducible refine keeps_ite _ _ _ ?_ ?_ | split | with_reducible refine keeps_fst ?_ (by assumption)
    | with_reducible refine keeps_fst2 ?_ (by assumption) | simp only [])

theorem exitRate_keeps {W : Nat} {q0 : State} (c : Nat) (s : State) (r : Nat × Nat × Nat) (hk : Keeps W q0 s) (hW :
    Sub 0x82401 W) : Keeps W q0 (exitRate c s r) := by
  unfold exitRate
  with_reducible repeat' (first
    | assumption | apply wr_keeps | apply setRem_keeps | apply wrB_keeps | apply recContained_keeps
    | apply modChan_keeps | exact sub_of (by assumption) (by decide) | split | simp only []
    | exact twf_tset _ _ _ _ (by assumption) | exact twf_nil _ | refine keeps_ok (W := W) ?_ (by assumption)
    | refine keeps_chan (W := W) ?_ _ (by assumption) | intro _ _ _ | intro _)

theorem selfRefreshExit_keeps {W : Nat} {q0 : State} (c : Nat) (ok : Bool) (codes delays : List (Nat × Nat)) (s :
    State) (hk : Keeps W q0 s)
    (hW : Sub 0x82401 W := by first | assumption | exact sub_of (by assumption) (by decide)) :
    Keeps W q0 (selfRefreshExit c ok codes delays s) := by
  unfold selfRefreshExit
  repeat' (first
    | with_reducible assumption | exact sub_of (by assumption) (by decide)
    | with_reducible exact twf_tset _ _ _ _ (by assumption)
    | with_reducible refine keeps_chan (W := W) ?_ _ (by assumption) | with_reducible exact twf_nil _
    | with_reducible refine keeps_ok (W := W) ?_ (by assumption) | with_reducible apply wr_keeps
    | with_reducible apply modChan_keeps | with_reducible apply startTraining_keeps
    | with_reducible apply exitRate_keeps | with_reducible refine foldl_keeps _ _ _ ?_ ?_
    | with_reducible refine foldl_fst_keeps _ _ _ ?_ ?_ | intro _ _ _ | intro _
    | with_reducible refine keeps_ite _ _ _ ?_ ?_ | split | with_reducible refine keeps_fst ?_ (by assumption)
    | with_reducible refine keeps_fst2 ?_ (by assumption) | simp only [])

end Sys2Proof.Machine
end

