-- ==== Sys2Proof/Laws/KeepsCache.lean ====
section
/-! SUPPORT. Laws/KeepsCache.lean: every operation on caches, core pairs and harts keeps `Keeps`: it changes neither
    the queue nor the fuses, it keeps the
canonical forms, and it writes no part of State outside the set its lemma names. -/
set_option Elab.async false
namespace Sys2Proof.Machine

/-! ## Cache -/

theorem sendOut_keeps {W : Nat} {q0 : State} (o : Out) (s : State) (hk : Keeps W q0 s) (hW : Sub 0x2001C000 W := by
    first | assumption | exact sub_of (by assumption) (by decide)) : Keeps W q0 (sendOut o s) := by
  unfold sendOut
  with_reducible repeat' (first
    | assumption | apply sendPkt_keeps | exact sub_of (by assumption) (by decide) | split
    | refine keeps_lit (by assumption) ?_)

theorem refuseLine_keeps {W : Nat} {q0 : State} (pa tag : Nat) (s : State) (hk : Keeps W q0 s)
    (hW : Sub 0x82801 W := by first | assumption | exact sub_of (by assumption) (by decide)) :
    Keeps W q0 (refuseLine pa tag s) := by
  unfold refuseLine
  repeat' (first
    | with_reducible assumption | exact sub_of (by assumption) (by decide) | with_reducible apply bump_keeps
    | with_reducible apply refuseGranule_keeps | with_reducible refine foldl_keeps _ _ _ ?_ ?_
    | with_reducible refine foldl_fst_keeps _ _ _ ?_ ?_ | intro _ _ _ | intro _
    | with_reducible refine keeps_ite _ _ _ ?_ ?_ | split | with_reducible refine keeps_fst ?_ (by assumption)
    | with_reducible refine keeps_fst2 ?_ (by assumption) | simp only [])

theorem writeBack_keeps {W : Nat} {q0 : State} (how : WrHow) (tag line data : Nat) (poison : Bool) (s : State) (hk :
    Keeps W q0 s)
    (hW : Sub 0x200BFC01 W := by first | assumption | exact sub_of (by assumption) (by decide)) :
    Keeps W q0 (writeBack how tag line data poison s) := by
  unfold writeBack
  repeat' (first
    | with_reducible assumption | exact sub_of (by assumption) (by decide)
    | with_reducible exact twf_tset _ _ _ _ (by assumption)
    | with_reducible refine keeps_chan (W := W) ?_ _ (by assumption) | with_reducible exact twf_nil _
    | with_reducible refine keeps_ok (W := W) ?_ (by assumption) | with_reducible apply dramWrite_keeps
    | with_reducible apply sendOut_keeps | with_reducible apply refuseLine_keeps
    | with_reducible refine foldl_keeps _ _ _ ?_ ?_ | with_reducible refine foldl_fst_keeps _ _ _ ?_ ?_ | intro _ _ _
    | intro _ | with_reducible refine keeps_ite _ _ _ ?_ ?_ | split
    | with_reducible refine keeps_fst ?_ (by assumption) | with_reducible refine keeps_fst2 ?_ (by assumption)
    | simp only [])

theorem writeHome_keeps {W : Nat} {q0 : State} (tag line data : Nat) (poison : Bool) (s : State) (hk : Keeps W q0 s)
    (hW : Sub 0x200BFC01 W := by first | assumption | exact sub_of (by assumption) (by decide)) :
    Keeps W q0 (writeHome tag line data poison s) := by
  unfold writeHome
  repeat' (first
    | with_reducible assumption | exact sub_of (by assumption) (by decide)
    | with_reducible exact twf_tset _ _ _ _ (by assumption)
    | with_reducible refine keeps_chan (W := W) ?_ _ (by assumption) | with_reducible exact twf_nil _
    | with_reducible refine keeps_ok (W := W) ?_ (by assumption) | with_reducible apply writeBack_keeps
    | with_reducible refine foldl_keeps _ _ _ ?_ ?_ | with_reducible refine foldl_fst_keeps _ _ _ ?_ ?_ | intro _ _ _
    | intro _ | with_reducible refine keeps_ite _ _ _ ?_ ?_ | split
    | with_reducible refine keeps_fst ?_ (by assumption) | with_reducible refine keeps_fst2 ?_ (by assumption)
    | simp only [])

theorem sharedPool_keeps {W : Nat} {q0 : State} (n : Nat) (s : State) (hk : Keeps W q0 s) (hW : Sub 0x1 W) : Keeps W
    q0 (sharedPool n s) := by
  unfold sharedPool
  with_reducible repeat' (first | assumption | apply wr_keeps)

theorem applyPart_keeps {W : Nat} {q0 : State} (n t mask : Nat) (sealed : Bool) (s : State) (hk : Keeps W q0 s) (hW :
    Sub 0x82001 W) : Keeps W q0 (applyPart n t mask sealed s) := by
  unfold applyPart
  with_reducible repeat' (first
    | assumption | apply sharedPool_keeps | apply wr_keeps | apply wrB_keeps | apply recContained_keeps
    | exact sub_of (by assumption) (by decide) | split | simp only [])

theorem putL2_keeps {W : Nat} {q0 : State} (core line : Nat) (l : CLine) (s : State) (hk : Keeps W q0 s) (hW : Sub
    0x10 W) : Keeps W q0 (putL2 core line l s) := by
  unfold putL2
  with_reducible repeat' (first | assumption | apply setCore_keeps)

theorem dropL2_keeps {W : Nat} {q0 : State} (core line : Nat) (s : State) (hk : Keeps W q0 s)
    (hW : Sub 0x18 W := by first | assumption | exact sub_of (by assumption) (by decide)) :
    Keeps W q0 (dropL2 core line s) := by
  unfold dropL2
  repeat' (first
    | with_reducible assumption | exact sub_of (by assumption) (by decide) | with_reducible apply setHart_keeps
    | with_reducible apply setCore_keeps | with_reducible refine foldl_keeps _ _ _ ?_ ?_
    | with_reducible refine foldl_fst_keeps _ _ _ ?_ ?_ | intro _ _ _ | intro _
    | with_reducible refine keeps_ite _ _ _ ?_ ?_ | split | with_reducible refine keeps_fst ?_ (by assumption)
    | with_reducible refine keeps_fst2 ?_ (by assumption) | simp only [])

theorem putSlice_keeps {W : Nat} {q0 : State} (n : Nat) (r : Slice) (s : State) (hk : Keeps W q0 s)
    (hW : Sub 0x101 W := by first | assumption | exact sub_of (by assumption) (by decide)) :
    Keeps W q0 (putSlice n r s) := by
  unfold putSlice
  repeat' (first
    | with_reducible assumption | exact sub_of (by assumption) (by decide) | with_reducible apply wr_keeps
    | with_reducible apply setSlice_keeps | with_reducible refine foldl_keeps _ _ _ ?_ ?_
    | with_reducible refine foldl_fst_keeps _ _ _ ?_ ?_ | intro _ _ _ | intro _
    | with_reducible refine keeps_ite _ _ _ ?_ ?_ | split | with_reducible refine keeps_fst ?_ (by assumption)
    | with_reducible refine keeps_fst2 ?_ (by assumption) | simp only [])

theorem putArr_keeps {W : Nat} {q0 : State} (n line : Nat) (l : SLine) (s : State) (hk : Keeps W q0 s)
    (hW : Sub 0x101 W := by first | assumption | exact sub_of (by assumption) (by decide)) :
    Keeps W q0 (putArr n line l s) := by
  unfold putArr
  repeat' (first
    | with_reducible assumption | exact sub_of (by assumption) (by decide) | with_reducible apply putSlice_keeps
    | with_reducible refine foldl_keeps _ _ _ ?_ ?_ | with_reducible refine foldl_fst_keeps _ _ _ ?_ ?_ | intro _ _ _
    | intro _ | with_reducible refine keeps_ite _ _ _ ?_ ?_ | split
    | with_reducible refine keeps_fst ?_ (by assumption) | with_reducible refine keeps_fst2 ?_ (by assumption)
    | simp only [])

theorem dropArr_keeps {W : Nat} {q0 : State} (n line : Nat) (s : State) (hk : Keeps W q0 s)
    (hW : Sub 0x101 W := by first | assumption | exact sub_of (by assumption) (by decide)) :
    Keeps W q0 (dropArr n line s) := by
  unfold dropArr
  repeat' (first
    | with_reducible assumption | exact sub_of (by assumption) (by decide) | with_reducible apply putSlice_keeps
    | with_reducible refine foldl_keeps _ _ _ ?_ ?_ | with_reducible refine foldl_fst_keeps _ _ _ ?_ ?_ | intro _ _ _
    | intro _ | with_reducible refine keeps_ite _ _ _ ?_ ?_ | split
    | with_reducible refine keeps_fst ?_ (by assumption) | with_reducible refine keeps_fst2 ?_ (by assumption)
    | simp only [])

theorem putDir_keeps {W : Nat} {q0 : State} (n line : Nat) (e : DirEnt) (s : State) (hk : Keeps W q0 s) (hW : Sub
    0x100 W) : Keeps W q0 (putDir n line e s) := by
  unfold putDir
  with_reducible repeat' (first | assumption | apply setSlice_keeps)

theorem evictNotice_keeps {W : Nat} {q0 : State} (n line tag : Nat) (s : State) (hk : Keeps W q0 s) (hW : Sub
    0x2001C000 W) : Keeps W q0 (evictNotice n line tag s) := by
  unfold evictNotice
  with_reducible repeat' (first | assumption | apply sendOut_keeps | exact sub_of (by assumption) (by decide) | split)

theorem takeBack_keeps {W : Nat} {q0 : State} (n line : Nat) (keep : Option Nat) (s : State) (hk : Keeps W q0 s) (hW
    : Sub 0x118 W) : Keeps W q0 (takeBack n line keep s).1 := by
  unfold takeBack
  with_reducible repeat' (first
    | assumption | apply dropL2_keeps | apply putDir_keeps | exact sub_of (by assumption) (by decide)
    | refine foldl_keeps _ _ _ ?_ ?_ | split | intro _ _ _)

theorem rowErrors_keeps {W : Nat} {q0 : State} (n row : Nat) (s : State) (hk : Keeps W q0 s) (hW : Sub 0x1 W) : Keeps
    W q0 (rowErrors n row s) := by
  unfold rowErrors
  with_reducible repeat' (first | assumption | apply bump_keeps | exact sub_of (by assumption) (by decide) | split)

theorem rowLast_keeps {W : Nat} {q0 : State} (n row line way tag : Nat) (s : State) (hk : Keeps W q0 s) (hW : Sub 0x1
    W) : Keeps W q0 (rowLast n row line way tag s) := by
  unfold rowLast
  with_reducible repeat' (first | assumption | apply wr_keeps)

theorem sliceFault_keeps {W : Nat} {q0 : State} (n row way : Nat) (ts : List Nat) (s : State) (hk : Keeps W q0 s)
    (hW : Sub 0x100 W := by first | assumption | exact sub_of (by assumption) (by decide)) :
    Keeps W q0 (sliceFault n row way ts s) := by
  unfold sliceFault
  repeat' (first
    | with_reducible assumption | exact sub_of (by assumption) (by decide) | with_reducible apply setSlice_keeps
    | with_reducible refine foldl_keeps _ _ _ ?_ ?_ | with_reducible refine foldl_fst_keeps _ _ _ ?_ ?_ | intro _ _ _
    | intro _ | with_reducible refine keeps_ite _ _ _ ?_ ?_ | split
    | with_reducible refine keeps_fst ?_ (by assumption) | with_reducible refine keeps_fst2 ?_ (by assumption)
    | simp only [])

theorem backInvalidate_keeps {W : Nat} {q0 : State} (n set : Nat) (s : State) (hk : Keeps W q0 s)
    (hW : Sub 0x200BFD19 W := by first | assumption | exact sub_of (by assumption) (by decide)) :
    Keeps W q0 (backInvalidate n set s) := by
  unfold backInvalidate
  repeat' (first
    | with_reducible assumption | exact sub_of (by assumption) (by decide)
    | with_reducible exact twf_tset _ _ _ _ (by assumption)
    | with_reducible refine keeps_chan (W := W) ?_ _ (by assumption) | with_reducible exact twf_nil _
    | with_reducible refine keeps_ok (W := W) ?_ (by assumption) | with_reducible apply writeHome_keeps
    | with_reducible apply dropArr_keeps | with_reducible apply takeBack_keeps
    | with_reducible refine foldl_keeps _ _ _ ?_ ?_ | with_reducible refine foldl_fst_keeps _ _ _ ?_ ?_ | intro _ _ _
    | intro _ | with_reducible refine keeps_ite _ _ _ ?_ ?_ | split
    | with_reducible refine keeps_fst ?_ (by assumption) | with_reducible refine keeps_fst2 ?_ (by assumption)
    | simp only [])

theorem correctLine_keeps {W : Nat} {q0 : State} (n line : Nat) (s : State) (hk : Keeps W q0 s)
    (hW : Sub 0x101 W := by first | assumption | exact sub_of (by assumption) (by decide)) :
    Keeps W q0 (correctLine n line s) := by
  unfold correctLine
  repeat' (first
    | with_reducible assumption | exact sub_of (by assumption) (by decide) | with_reducible apply setSlice_keeps
    | with_reducible apply putArr_keeps | with_reducible refine foldl_keeps _ _ _ ?_ ?_
    | with_reducible refine foldl_fst_keeps _ _ _ ?_ ?_ | intro _ _ _ | intro _
    | with_reducible refine keeps_ite _ _ _ ?_ ?_ | split | with_reducible refine keeps_fst ?_ (by assumption)
    | with_reducible refine keeps_fst2 ?_ (by assumption) | simp only [])

theorem arrayError_keeps {W : Nat} {q0 : State} (n line tag row : Nat) (s : State) (hk : Keeps W q0 s)
    (hW : Sub 0x200BFD19 W := by first | assumption | exact sub_of (by assumption) (by decide)) :
    Keeps W q0 (arrayError n line tag row s) := by
  unfold arrayError
  repeat' (first
    | with_reducible assumption | exact sub_of (by assumption) (by decide)
    | with_reducible exact twf_tset _ _ _ _ (by assumption)
    | with_reducible refine keeps_chan (W := W) ?_ _ (by assumption) | with_reducible exact twf_nil _
    | with_reducible refine keeps_ok (W := W) ?_ (by assumption) | with_reducible apply recContained_keeps
    | with_reducible apply recVisible_keeps | with_reducible apply recCorrected_keeps
    | with_reducible apply writeHome_keeps | with_reducible apply dropArr_keeps | with_reducible apply rowErrors_keeps
    | with_reducible apply rowLast_keeps | with_reducible apply sliceFault_keeps
    | with_reducible apply backInvalidate_keeps | with_reducible apply correctLine_keeps
    | with_reducible refine foldl_keeps _ _ _ ?_ ?_ | with_reducible refine foldl_fst_keeps _ _ _ ?_ ?_ | intro _ _ _
    | intro _ | with_reducible refine keeps_ite _ _ _ ?_ ?_ | split
    | with_reducible refine keeps_fst ?_ (by assumption) | with_reducible refine keeps_fst2 ?_ (by assumption)
    | simp only [])

theorem readHeld_keeps {W : Nat} {q0 : State} (n line : Nat) (s : State) (hk : Keeps W q0 s)
    (hW : Sub 0x200BFD19 W := by first | assumption | exact sub_of (by assumption) (by decide)) :
    Keeps W q0 (readHeld n line s) := by
  unfold readHeld
  repeat' (first
    | with_reducible assumption | exact sub_of (by assumption) (by decide)
    | with_reducible exact twf_tset _ _ _ _ (by assumption)
    | with_reducible refine keeps_chan (W := W) ?_ _ (by assumption) | with_reducible exact twf_nil _
    | with_reducible refine keeps_ok (W := W) ?_ (by assumption) | with_reducible apply arrayError_keeps
    | with_reducible refine foldl_keeps _ _ _ ?_ ?_ | with_reducible refine foldl_fst_keeps _ _ _ ?_ ?_ | intro _ _ _
    | intro _ | with_reducible refine keeps_ite _ _ _ ?_ ?_ | split
    | with_reducible refine keeps_fst ?_ (by assumption) | with_reducible refine keeps_fst2 ?_ (by assumption)
    | simp only [])

theorem ageVictim_keeps {W : Nat} {q0 : State} (n : Nat) (s : State) (hk : Keeps W q0 s)
    (hW : Sub 0x200BFD19 W := by first | assumption | exact sub_of (by assumption) (by decide)) :
    Keeps W q0 (ageVictim n s) := by
  unfold ageVictim
  repeat' (first
    | with_reducible assumption | exact sub_of (by assumption) (by decide)
    | with_reducible exact twf_tset _ _ _ _ (by assumption)
    | with_reducible refine keeps_chan (W := W) ?_ _ (by assumption) | with_reducible exact twf_nil _
    | with_reducible refine keeps_ok (W := W) ?_ (by assumption) | with_reducible apply writeHome_keeps
    | with_reducible apply putSlice_keeps | with_reducible apply evictNotice_keeps
    | with_reducible apply readHeld_keeps | with_reducible refine foldl_keeps _ _ _ ?_ ?_
    | with_reducible refine foldl_fst_keeps _ _ _ ?_ ?_ | intro _ _ _ | intro _
    | with_reducible refine keeps_ite _ _ _ ?_ ?_ | split | with_reducible refine keeps_fst ?_ (by assumption)
    | with_reducible refine keeps_fst2 ?_ (by assumption) | simp only [])

theorem toVictim_keeps {W : Nat} {q0 : State} (n line : Nat) (l : SLine) (s : State) (hk : Keeps W q0 s)
    (hW : Sub 0x200BFD19 W := by first | assumption | exact sub_of (by assumption) (by decide)) :
    Keeps W q0 (toVictim n line l s) := by
  unfold toVictim
  repeat' (first
    | with_reducible assumption | exact sub_of (by assumption) (by decide)
    | with_reducible exact twf_tset _ _ _ _ (by assumption)
    | with_reducible refine keeps_chan (W := W) ?_ _ (by assumption) | with_reducible exact twf_nil _
    | with_reducible refine keeps_ok (W := W) ?_ (by assumption) | with_reducible apply putSlice_keeps
    | with_reducible apply ageVictim_keeps | with_reducible refine foldl_keeps _ _ _ ?_ ?_
    | with_reducible refine foldl_fst_keeps _ _ _ ?_ ?_ | intro _ _ _ | intro _
    | with_reducible refine keeps_ite _ _ _ ?_ ?_ | split | with_reducible refine keeps_fst ?_ (by assumption)
    | with_reducible refine keeps_fst2 ?_ (by assumption) | simp only [])

theorem displace_keeps {W : Nat} {q0 : State} (n line : Nat) (l : SLine) (s : State) (hk : Keeps W q0 s)
    (hW : Sub 0x200BFD19 W := by first | assumption | exact sub_of (by assumption) (by decide)) :
    Keeps W q0 (displace n line l s) := by
  unfold displace
  repeat' (first
    | with_reducible assumption | exact sub_of (by assumption) (by decide)
    | with_reducible exact twf_tset _ _ _ _ (by assumption)
    | with_reducible refine keeps_chan (W := W) ?_ _ (by assumption) | with_reducible exact twf_nil _
    | with_reducible refine keeps_ok (W := W) ?_ (by assumption) | with_reducible apply writeHome_keeps
    | with_reducible apply dropArr_keeps | with_reducible apply toVictim_keeps
    | with_reducible refine foldl_keeps _ _ _ ?_ ?_ | with_reducible refine foldl_fst_keeps _ _ _ ?_ ?_ | intro _ _ _
    | intro _ | with_reducible refine keeps_ite _ _ _ ?_ ?_ | split
    | with_reducible refine keeps_fst ?_ (by assumption) | with_reducible refine keeps_fst2 ?_ (by assumption)
    | simp only [])

theorem armErrors_keeps {W : Nat} {q0 : State} (n : Nat) (l : SLine) (s : State) (hk : Keeps W q0 s) (hW : Sub 0x100
    W) : Keeps W q0 (armErrors n l s).1 := by
  unfold armErrors
  with_reducible repeat' (first
    | assumption | apply setSlice_keeps | exact sub_of (by assumption) (by decide) | split)

theorem intoWay_keeps {W : Nat} {q0 : State} (n line w : Nat) (l : SLine) (s : State) (hk : Keeps W q0 s)
    (hW : Sub 0x200BFD19 W := by first | assumption | exact sub_of (by assumption) (by decide)) :
    Keeps W q0 (intoWay n line w l s) := by
  unfold intoWay
  repeat' (first
    | with_reducible assumption | exact sub_of (by assumption) (by decide)
    | with_reducible exact twf_tset _ _ _ _ (by assumption)
    | with_reducible refine keeps_chan (W := W) ?_ _ (by assumption) | with_reducible exact twf_nil _
    | with_reducible refine keeps_ok (W := W) ?_ (by assumption) | with_reducible apply putArr_keeps
    | with_reducible apply readHeld_keeps | with_reducible apply displace_keeps | with_reducible apply armErrors_keeps
    | with_reducible refine foldl_keeps _ _ _ ?_ ?_ | with_reducible refine foldl_fst_keeps _ _ _ ?_ ?_ | intro _ _ _
    | intro _ | with_reducible refine keeps_ite _ _ _ ?_ ?_ | split
    | with_reducible refine keeps_fst ?_ (by assumption) | with_reducible refine keeps_fst2 ?_ (by assumption)
    | simp only [])

theorem placeLine_keeps {W : Nat} {q0 : State} (n line : Nat) (l : SLine) (s : State) (hk : Keeps W q0 s)
    (hW : Sub 0x200BFD19 W := by first | assumption | exact sub_of (by assumption) (by decide)) :
    Keeps W q0 (placeLine n line l s) := by
  unfold placeLine
  repeat' (first
    | with_reducible assumption | exact sub_of (by assumption) (by decide)
    | with_reducible exact twf_tset _ _ _ _ (by assumption)
    | with_reducible refine keeps_chan (W := W) ?_ _ (by assumption) | with_reducible exact twf_nil _
    | with_reducible refine keeps_ok (W := W) ?_ (by assumption) | with_reducible apply freeNext_keeps
    | with_reducible apply writeHome_keeps | with_reducible apply putArr_keeps | with_reducible apply dropArr_keeps
    | with_reducible apply armErrors_keeps | with_reducible apply intoWay_keeps
    | with_reducible refine foldl_keeps _ _ _ ?_ ?_ | with_reducible refine foldl_fst_keeps _ _ _ ?_ ?_ | intro _ _ _
    | intro _ | with_reducible refine keeps_ite _ _ _ ?_ ?_ | split
    | with_reducible refine keeps_fst ?_ (by assumption) | with_reducible refine keeps_fst2 ?_ (by assumption)
    | simp only [])

theorem keepDirty_keeps {W : Nat} {q0 : State} (n line tag : Nat) (d : Option (Nat × Bool)) (s : State) (hk : Keeps W
    q0 s) (hW : Sub 0x200BFD19 W) : Keeps W q0 (keepDirty n line tag d s) := by
  unfold keepDirty
  with_reducible repeat' (first
    | assumption | apply placeLine_keeps | exact sub_of (by assumption) (by decide) | split)

theorem dirRoom_keeps {W : Nat} {q0 : State} (n line : Nat) (s : State) (hk : Keeps W q0 s)
    (hW : Sub 0x200BFD19 W := by first | assumption | exact sub_of (by assumption) (by decide)) :
    Keeps W q0 (dirRoom n line s) := by
  unfold dirRoom
  repeat' (first
    | with_reducible assumption | exact sub_of (by assumption) (by decide)
    | with_reducible exact twf_tset _ _ _ _ (by assumption)
    | with_reducible refine keeps_chan (W := W) ?_ _ (by assumption) | with_reducible exact twf_nil _
    | with_reducible refine keeps_ok (W := W) ?_ (by assumption) | with_reducible apply freeNext_keeps
    | with_reducible apply takeBack_keeps | with_reducible apply keepDirty_keeps
    | with_reducible refine foldl_keeps _ _ _ ?_ ?_ | with_reducible refine foldl_fst_keeps _ _ _ ?_ ?_ | intro _ _ _
    | intro _ | with_reducible refine keeps_ite _ _ _ ?_ ?_ | split
    | with_reducible refine keeps_fst ?_ (by assumption) | with_reducible refine keeps_fst2 ?_ (by assumption)
    | simp only [])

theorem grant_keeps {W : Nat} {q0 : State} (n line tag core : Nat) (excl : Bool) (s : State) (hk : Keeps W q0 s) (hW
    : Sub 0x200BFD19 W) : Keeps W q0 (grant n line tag core excl s) := by
  unfold grant
  with_reducible repeat' (first
    | assumption | apply dirRoom_keeps | apply putDir_keeps | exact sub_of (by assumption) (by decide) | split
    | simp only [])

theorem takeOver_keeps {W : Nat} {q0 : State} (n line tag : Nat) (s : State) (hk : Keeps W q0 s)
    (hW : Sub 0x200BFD19 W := by first | assumption | exact sub_of (by assumption) (by decide)) :
    Keeps W q0 (takeOver n line tag s) := by
  unfold takeOver
  repeat' (first
    | with_reducible assumption | exact sub_of (by assumption) (by decide)
    | with_reducible exact twf_tset _ _ _ _ (by assumption)
    | with_reducible refine keeps_chan (W := W) ?_ _ (by assumption) | with_reducible exact twf_nil _
    | with_reducible refine keeps_ok (W := W) ?_ (by assumption) | with_reducible apply writeHome_keeps
    | with_reducible apply dropArr_keeps | with_reducible apply takeBack_keeps | with_reducible apply readHeld_keeps
    | with_reducible refine foldl_keeps _ _ _ ?_ ?_ | with_reducible refine foldl_fst_keeps _ _ _ ?_ ?_ | intro _ _ _
    | intro _ | with_reducible refine keeps_ite _ _ _ ?_ ?_ | split
    | with_reducible refine keeps_fst ?_ (by assumption) | with_reducible refine keeps_fst2 ?_ (by assumption)
    | simp only [])

theorem recallVictim_keeps {W : Nat} {q0 : State} (n line : Nat) (s : State) (hk : Keeps W q0 s)
    (hW : Sub 0x200BFD19 W := by first | assumption | exact sub_of (by assumption) (by decide)) :
    Keeps W q0 (recallVictim n line s) := by
  unfold recallVictim
  repeat' (first
    | with_reducible assumption | exact sub_of (by assumption) (by decide)
    | with_reducible exact twf_tset _ _ _ _ (by assumption)
    | with_reducible refine keeps_chan (W := W) ?_ _ (by assumption) | with_reducible exact twf_nil _
    | with_reducible refine keeps_ok (W := W) ?_ (by assumption) | with_reducible apply bump_keeps
    | with_reducible apply dropArr_keeps | with_reducible apply placeLine_keeps
    | with_reducible refine foldl_keeps _ _ _ ?_ ?_ | with_reducible refine foldl_fst_keeps _ _ _ ?_ ?_ | intro _ _ _
    | intro _ | with_reducible refine keeps_ite _ _ _ ?_ ?_ | split
    | with_reducible refine keeps_fst ?_ (by assumption) | with_reducible refine keeps_fst2 ?_ (by assumption)
    | simp only [])

theorem lookup_keeps {W : Nat} {q0 : State} (n line tag core : Nat) (excl : Bool) (err : Nat) (s : State)
    (hk : Keeps W q0 s) (hW : Sub 0x200BFD19 W := by first | assumption | exact sub_of (by assumption) (by decide)) :
    Keeps W q0 (lookup n line tag core excl err s).1 := by
  have h0 : Keeps W q0 (takeOver n line tag s) := takeOver_keeps _ _ _ _ hk hW
  unfold lookup
  extract_lets s0 s1 d s2 s3
  have h1 : Keeps W q0 s1 := by
    simp only [s1]; split
    · exact arrayError_keeps _ _ _ _ _ h0 (sub_of hW (by decide))
    · exact readHeld_keeps _ _ _ h0 hW
  have h2 : Keeps W q0 s2 := by
    simp only [s2]; split
    · exact takeBack_keeps _ _ _ _ h1 (sub_of hW (by decide))
    · split
      · split
        · refine putDir_keeps _ _ _ _ (foldl_keeps _ _ _ h1 fun a c h => ?_) (sub_of hW (by decide))
          split
          · exact putL2_keeps _ _ _ _ h (sub_of hW (by decide))
          · exact h
        · exact h1
      · exact h1
  have h3 : Keeps W q0 s3 := recallVictim_keeps _ _ _ h2 hW
  clear_value s3 d
  rcases d with _ | ⟨v, p⟩
  · exact h3
  · exact keepDirty_keeps _ _ _ _ _ h3 hW

theorem fillCore_keeps {W : Nat} {q0 : State} (n line tag core : Nat) (excl : Bool) (d : Nat) (p : Bool) (s : State)
    (hk : Keeps W q0 s)
    (hW : Sub 0x200BFD39 W := by first | assumption | exact sub_of (by assumption) (by decide)) :
    Keeps W q0 (fillCore n line tag core excl d p s) := by
  unfold fillCore
  repeat' (first
    | with_reducible assumption | exact sub_of (by assumption) (by decide)
    | with_reducible exact twf_tset _ _ _ _ (by assumption)
    | with_reducible refine keeps_chan (W := W) ?_ _ (by assumption) | with_reducible exact twf_nil _
    | with_reducible refine keeps_ok (W := W) ?_ (by assumption) | with_reducible apply setPair_keeps
    | with_reducible apply putL2_keeps | with_reducible apply grant_keeps
    | with_reducible refine foldl_keeps _ _ _ ?_ ?_ | with_reducible refine foldl_fst_keeps _ _ _ ?_ ?_ | intro _ _ _
    | intro _ | with_reducible refine keeps_ite _ _ _ ?_ ?_ | split
    | with_reducible refine keeps_fst ?_ (by assumption) | with_reducible refine keeps_fst2 ?_ (by assumption)
    | simp only [])

theorem enterAmq_keeps {W : Nat} {q0 : State} (n : Nat) (e : AmqEnt) (waits : Bool) (s : State) (hk : Keeps W q0 s)
    (hW : Sub 0x101 W := by first | assumption | exact sub_of (by assumption) (by decide)) :
    Keeps W q0 (enterAmq n e waits s) := by
  unfold enterAmq
  repeat' (first
    | with_reducible assumption | exact sub_of (by assumption) (by decide) | with_reducible apply bump_keeps
    | with_reducible apply setSlice_keeps | with_reducible apply putSlice_keeps
    | with_reducible refine foldl_keeps _ _ _ ?_ ?_ | with_reducible refine foldl_fst_keeps _ _ _ ?_ ?_ | intro _ _ _
    | intro _ | with_reducible refine keeps_ite _ _ _ ?_ ?_ | split
    | with_reducible refine keeps_fst ?_ (by assumption) | with_reducible refine keeps_fst2 ?_ (by assumption)
    | simp only [])

theorem amqAdmit_keeps {W : Nat} {q0 : State} (n : Nat) (s : State) (hk : Keeps W q0 s)
    (hW : Sub 0x101 W := by first | assumption | exact sub_of (by assumption) (by decide)) :
    Keeps W q0 (amqAdmit n s) := by
  unfold amqAdmit
  repeat' (first
    | with_reducible assumption | exact sub_of (by assumption) (by decide) | with_reducible apply putSlice_keeps
    | with_reducible refine foldl_keeps _ _ _ ?_ ?_ | with_reducible refine foldl_fst_keeps _ _ _ ?_ ?_ | intro _ _ _
    | intro _ | with_reducible refine keeps_ite _ _ _ ?_ ?_ | split
    | with_reducible refine keeps_fst ?_ (by assumption) | with_reducible refine keeps_fst2 ?_ (by assumption)
    | simp only [])

theorem sendMiss_keeps {W : Nat} {q0 : State} (n line tag core : Nat) (excl : Bool) (s : State) (hk : Keeps W q0 s)
    (hW : Sub 0x200BFD01 W := by first | assumption | exact sub_of (by assumption) (by decide)) :
    Keeps W q0 (sendMiss n line tag core excl s) := by
  unfold sendMiss
  repeat' (first
    | with_reducible assumption | exact sub_of (by assumption) (by decide)
    | with_reducible exact twf_tset _ _ _ _ (by assumption)
    | with_reducible refine keeps_chan (W := W) ?_ _ (by assumption) | with_reducible exact twf_nil _
    | with_reducible refine keeps_ok (W := W) ?_ (by assumption) | with_reducible apply setSlice_keeps
    | with_reducible apply dramRequest_keeps | with_reducible apply sendOut_keeps
    | with_reducible apply enterAmq_keeps | with_reducible refine foldl_keeps _ _ _ ?_ ?_
    | with_reducible refine foldl_fst_keeps _ _ _ ?_ ?_ | intro _ _ _ | intro _
    | with_reducible refine keeps_ite _ _ _ ?_ ?_ | split | with_reducible refine keeps_fst ?_ (by assumption)
    | with_reducible refine keeps_fst2 ?_ (by assumption) | simp only [])

theorem serveRequest_keeps {W : Nat} {q0 : State} (n core line tag : Nat) (excl : Bool) (err : Nat) (s : State) (hk
    : Keeps W q0 s)
    (hW : Sub 0x200BFD39 W := by first | assumption | exact sub_of (by assumption) (by decide)) :
    Keeps W q0 (serveRequest n core line tag excl err s) := by
  unfold serveRequest
  repeat' (first
    | with_reducible assumption | exact sub_of (by assumption) (by decide)
    | with_reducible exact twf_tset _ _ _ _ (by assumption)
    | with_reducible refine keeps_chan (W := W) ?_ _ (by assumption) | with_reducible exact twf_nil _
    | with_reducible refine keeps_ok (W := W) ?_ (by assumption) | with_reducible apply lookup_keeps
    | with_reducible apply fillCore_keeps | with_reducible apply sendMiss_keeps
    | with_reducible refine foldl_keeps _ _ _ ?_ ?_ | with_reducible refine foldl_fst_keeps _ _ _ ?_ ?_ | intro _ _ _
    | intro _ | with_reducible refine keeps_ite _ _ _ ?_ ?_ | split
    | with_reducible refine keeps_fst ?_ (by assumption) | with_reducible refine keeps_fst2 ?_ (by assumption)
    | simp only [])

theorem sliceRequest_keeps {W : Nat} {q0 : State} (core line tag : Nat) (excl : Bool) (err : Nat) (s : State) (hk :
    Keeps W q0 s)
    (hW : Sub 0x200BFD39 W := by first | assumption | exact sub_of (by assumption) (by decide)) :
    Keeps W q0 (sliceRequest core line tag excl err s) := by
  unfold sliceRequest
  repeat' (first
    | with_reducible assumption | exact sub_of (by assumption) (by decide)
    | with_reducible exact twf_tset _ _ _ _ (by assumption)
    | with_reducible refine keeps_chan (W := W) ?_ _ (by assumption) | with_reducible exact twf_nil _
    | with_reducible refine keeps_ok (W := W) ?_ (by assumption) | with_reducible apply clearWay_keeps
    | with_reducible apply refuseLine_keeps | with_reducible apply enterAmq_keeps
    | with_reducible apply serveRequest_keeps | with_reducible refine foldl_keeps _ _ _ ?_ ?_
    | with_reducible refine foldl_fst_keeps _ _ _ ?_ ?_ | intro _ _ _ | intro _
    | with_reducible refine keeps_ite _ _ _ ?_ ?_ | split | with_reducible refine keeps_fst ?_ (by assumption)
    | with_reducible refine keeps_fst2 ?_ (by assumption) | simp only [])

theorem serveReady_keeps {W : Nat} {q0 : State} (n k : Nat) (s : State) (hk : Keeps W q0 s)
    (hW : Sub 0x200BFD39 W := by first | assumption | exact sub_of (by assumption) (by decide)) :
    Keeps W q0 (serveReady n k s) := by
  induction k generalizing s with
  | zero => exact hk
  | succ k ih =>
    unfold serveReady
    split
    · exact ih _ (serveRequest_keeps _ _ _ _ _ _ _ (amqAdmit_keeps _ _ (putSlice_keeps _ _ _ hk (sub_of hW (by decide)))))
    · exact hk

theorem completeFill_keeps {W : Nat} {q0 : State} (n line d : Nat) (p : Bool) (s : State) (hk : Keeps W q0 s)
    (hW : Sub 0x200BFD39 W := by first | assumption | exact sub_of (by assumption) (by decide)) :
    Keeps W q0 (completeFill n line d p s) := by
  unfold completeFill
  repeat' (first
    | with_reducible assumption | exact sub_of (by assumption) (by decide)
    | with_reducible exact twf_tset _ _ _ _ (by assumption)
    | with_reducible refine keeps_chan (W := W) ?_ _ (by assumption) | with_reducible exact twf_nil _
    | with_reducible refine keeps_ok (W := W) ?_ (by assumption) | with_reducible apply setCore_keeps
    | with_reducible apply setSlice_keeps | with_reducible apply placeLine_keeps | with_reducible apply fillCore_keeps
    | with_reducible apply serveReady_keeps | with_reducible refine foldl_keeps _ _ _ ?_ ?_
    | with_reducible refine foldl_fst_keeps _ _ _ ?_ ?_ | intro _ _ _ | intro _
    | with_reducible refine keeps_ite _ _ _ ?_ ?_ | split | with_reducible refine keeps_fst ?_ (by assumption)
    | with_reducible refine keeps_fst2 ?_ (by assumption) | simp only [])

theorem sliceFill_keeps {W : Nat} {q0 : State} (n line : Nat) (s : State) (hk : Keeps W q0 s) (hW : Sub 0x200BFD39 W)
    : Keeps W q0 (sliceFill n line s) := by
  unfold sliceFill
  with_reducible repeat' (first
    | assumption | apply completeFill_keeps | apply setMem_keeps | exact sub_of (by assumption) (by decide)
    | refine keeps_ok (W := W) ?_ (by assumption) | split | exact twf_tset _ _ _ _ (by assumption)
    | exact twf_nil _ | refine keeps_ok (W := W) ?_ (by assumption)
    | refine keeps_chan (W := W) ?_ _ (by assumption) | intro _ _ _ | intro _)

theorem cleanLine_keeps {W : Nat} {q0 : State} (n line : Nat) (s : State) (hk : Keeps W q0 s)
    (hW : Sub 0x200BFD19 W := by first | assumption | exact sub_of (by assumption) (by decide)) :
    Keeps W q0 (cleanLine n line s) := by
  unfold cleanLine
  repeat' (first
    | with_reducible assumption | exact sub_of (by assumption) (by decide)
    | with_reducible exact twf_tset _ _ _ _ (by assumption)
    | with_reducible refine keeps_chan (W := W) ?_ _ (by assumption) | with_reducible exact twf_nil _
    | with_reducible refine keeps_ok (W := W) ?_ (by assumption) | with_reducible apply writeHome_keeps
    | with_reducible apply putL2_keeps | with_reducible apply putSlice_keeps | with_reducible apply putArr_keeps
    | with_reducible apply dropArr_keeps | with_reducible apply readHeld_keeps
    | with_reducible refine foldl_keeps _ _ _ ?_ ?_ | with_reducible refine foldl_fst_keeps _ _ _ ?_ ?_ | intro _ _ _
    | intro _ | with_reducible refine keeps_ite _ _ _ ?_ ?_ | split
    | with_reducible refine keeps_fst ?_ (by assumption) | with_reducible refine keeps_fst2 ?_ (by assumption)
    | simp only [])

theorem dropCopies_keeps {W : Nat} {q0 : State} (n line : Nat) (s : State) (hk : Keeps W q0 s)
    (hW : Sub 0x119 W := by first | assumption | exact sub_of (by assumption) (by decide)) :
    Keeps W q0 (dropCopies n line s) := by
  unfold dropCopies
  repeat' (first
    | with_reducible assumption | exact sub_of (by assumption) (by decide) | with_reducible apply dropArr_keeps
    | with_reducible apply takeBack_keeps | with_reducible refine foldl_keeps _ _ _ ?_ ?_
    | with_reducible refine foldl_fst_keeps _ _ _ ?_ ?_ | intro _ _ _ | intro _
    | with_reducible refine keeps_ite _ _ _ ?_ ?_ | split | with_reducible refine keeps_fst ?_ (by assumption)
    | with_reducible refine keeps_fst2 ?_ (by assumption) | simp only [])

theorem discardLine_keeps {W : Nat} {q0 : State} (n line : Nat) (s : State) (hk : Keeps W q0 s)
    (hW : Sub 0x319 W := by first | assumption | exact sub_of (by assumption) (by decide)) :
    Keeps W q0 (discardLine n line s) := by
  unfold discardLine
  repeat' (first
    | with_reducible assumption | exact sub_of (by assumption) (by decide) | with_reducible apply dropCopies_keeps
    | with_reducible refine foldl_keeps _ _ _ ?_ ?_ | with_reducible refine foldl_fst_keeps _ _ _ ?_ ?_ | intro _ _ _
    | intro _ | with_reducible refine keeps_ite _ _ _ ?_ ?_ | split
    | with_reducible refine keeps_fst ?_ (by assumption) | with_reducible refine keeps_fst2 ?_ (by assumption)
    | simp only [] | with_reducible refine keeps_lit (by assumption) ?_)

theorem dropOwed_keeps {W : Nat} {q0 : State} (p : Nat) (s : State) (hk : Keeps W q0 s)
    (hW : Sub 0x319 W := by first | assumption | exact sub_of (by assumption) (by decide)) :
    Keeps W q0 (dropOwed p s) := by
  unfold dropOwed
  repeat' (first
    | with_reducible assumption | exact sub_of (by assumption) (by decide) | with_reducible apply dropCopies_keeps
    | with_reducible refine foldl_keeps _ _ _ ?_ ?_ | with_reducible refine foldl_fst_keeps _ _ _ ?_ ?_ | intro _ _ _
    | intro _ | with_reducible refine keeps_ite _ _ _ ?_ ?_ | split
    | with_reducible refine keeps_fst ?_ (by assumption) | with_reducible refine keeps_fst2 ?_ (by assumption)
    | simp only [] | with_reducible refine keeps_lit (by assumption) ?_)

theorem flushLine_keeps {W : Nat} {q0 : State} (n line : Nat) (s : State) (hk : Keeps W q0 s) (hW : Sub 0x200BFF19 W)
    : Keeps W q0 (flushLine n line s) := by
  unfold flushLine
  with_reducible repeat' (first
    | assumption | apply discardLine_keeps | apply cleanLine_keeps | exact sub_of (by assumption) (by decide))

theorem maintAccept_keeps {W : Nat} {q0 : State} (n core line tag op : Nat) (s : State) (hk : Keeps W q0 s)
    (hW : Sub 0x2001C101 W := by first | assumption | exact sub_of (by assumption) (by decide)) :
    Keeps W q0 (maintAccept n core line tag op s) := by
  unfold maintAccept
  repeat' (first
    | with_reducible assumption | exact sub_of (by assumption) (by decide) | with_reducible apply sendOut_keeps
    | with_reducible apply enterAmq_keeps | with_reducible refine foldl_keeps _ _ _ ?_ ?_
    | with_reducible refine foldl_fst_keeps _ _ _ ?_ ?_ | intro _ _ _ | intro _
    | with_reducible refine keeps_ite _ _ _ ?_ ?_ | split | with_reducible refine keeps_fst ?_ (by assumption)
    | with_reducible refine keeps_fst2 ?_ (by assumption) | simp only [])

theorem cboDone_keeps {W : Nat} {q0 : State} (core line : Nat) (s : State) (hk : Keeps W q0 s)
    (hW : Sub 0x8 W := by first | assumption | exact sub_of (by assumption) (by decide)) :
    Keeps W q0 (cboDone core line s) := by
  unfold cboDone
  repeat' (first
    | with_reducible assumption | exact sub_of (by assumption) (by decide) | with_reducible apply setHart_keeps
    | with_reducible apply countEvent_keeps | with_reducible apply countInst_keeps
    | with_reducible refine foldl_keeps _ _ _ ?_ ?_ | with_reducible refine foldl_fst_keeps _ _ _ ?_ ?_ | intro _ _ _
    | intro _ | with_reducible refine keeps_ite _ _ _ ?_ ?_ | split
    | with_reducible refine keeps_fst ?_ (by assumption) | with_reducible refine keeps_fst2 ?_ (by assumption)
    | simp only [])

theorem maintComplete_keeps {W : Nat} {q0 : State} (n line : Nat) (s : State) (hk : Keeps W q0 s)
    (hW : Sub 0x200BFF39 W := by first | assumption | exact sub_of (by assumption) (by decide)) :
    Keeps W q0 (maintComplete n line s) := by
  unfold maintComplete
  repeat' (first
    | with_reducible assumption | exact sub_of (by assumption) (by decide)
    | with_reducible exact twf_tset _ _ _ _ (by assumption)
    | with_reducible refine keeps_chan (W := W) ?_ _ (by assumption) | with_reducible exact twf_nil _
    | with_reducible refine keeps_ok (W := W) ?_ (by assumption) | with_reducible apply clearWay_keeps
    | with_reducible apply putSlice_keeps | with_reducible apply amqAdmit_keeps | with_reducible apply serveReady_keeps
    | with_reducible apply cleanLine_keeps | with_reducible apply discardLine_keeps
    | with_reducible apply flushLine_keeps | with_reducible apply cboDone_keeps
    | with_reducible refine foldl_keeps _ _ _ ?_ ?_ | with_reducible refine foldl_fst_keeps _ _ _ ?_ ?_ | intro _ _ _
    | intro _ | with_reducible refine keeps_ite _ _ _ ?_ ?_ | split
    | with_reducible refine keeps_fst ?_ (by assumption) | with_reducible refine keeps_fst2 ?_ (by assumption)
    | simp only [])

theorem l2Evict_keeps {W : Nat} {q0 : State} (core line : Nat) (s : State) (hk : Keeps W q0 s)
    (hW : Sub 0x200BFD39 W := by first | assumption | exact sub_of (by assumption) (by decide)) :
    Keeps W q0 (l2Evict core line s) := by
  unfold l2Evict
  repeat' (first
    | with_reducible assumption | exact sub_of (by assumption) (by decide)
    | with_reducible exact twf_tset _ _ _ _ (by assumption)
    | with_reducible refine keeps_chan (W := W) ?_ _ (by assumption) | with_reducible exact twf_nil _
    | with_reducible refine keeps_ok (W := W) ?_ (by assumption) | with_reducible apply presentPair_keeps
    | with_reducible apply dropL2_keeps | with_reducible apply putDir_keeps | with_reducible apply keepDirty_keeps
    | with_reducible refine foldl_keeps _ _ _ ?_ ?_ | with_reducible refine foldl_fst_keeps _ _ _ ?_ ?_ | intro _ _ _
    | intro _ | with_reducible refine keeps_ite _ _ _ ?_ ?_ | split
    | with_reducible refine keeps_fst ?_ (by assumption) | with_reducible refine keeps_fst2 ?_ (by assumption)
    | simp only [])

theorem homeRead_keeps {W : Nat} {q0 : State} (w : Reader) (line tag : Nat) (s : State) (hk : Keeps W q0 s)
    (hW : Sub 0xA3401 W := by first | assumption | exact sub_of (by assumption) (by decide)) :
    Keeps W q0 (homeRead w line tag s).1 := by
  unfold homeRead
  repeat' (first
    | with_reducible assumption | exact sub_of (by assumption) (by decide)
    | with_reducible exact twf_tset _ _ _ _ (by assumption)
    | with_reducible refine keeps_chan (W := W) ?_ _ (by assumption) | with_reducible exact twf_nil _
    | with_reducible refine keeps_ok (W := W) ?_ (by assumption) | with_reducible apply askRead_keeps
    | with_reducible refine foldl_keeps _ _ _ ?_ ?_ | with_reducible refine foldl_fst_keeps _ _ _ ?_ ?_ | intro _ _ _
    | intro _ | with_reducible refine keeps_ite _ _ _ ?_ ?_ | split
    | with_reducible refine keeps_fst ?_ (by assumption) | with_reducible refine keeps_fst2 ?_ (by assumption)
    | simp only [])

theorem gotLine_keeps {W : Nat} {q0 : State} (w : Reader) (line tag v : Nat) (poison : Bool) (s : State) (hk : Keeps
    W q0 s)
    (hW : Sub 0x400 W := by first | assumption | exact sub_of (by assumption) (by decide)) :
    Keeps W q0 (gotLine w line tag v poison s) := by
  unfold gotLine
  repeat' (first
    | with_reducible assumption | exact sub_of (by assumption) (by decide)
    | with_reducible exact twf_tset _ _ _ _ (by assumption)
    | with_reducible refine keeps_chan (W := W) ?_ _ (by assumption) | with_reducible exact twf_nil _
    | with_reducible refine keeps_ok (W := W) ?_ (by assumption) | with_reducible apply setMem_keeps
    | with_reducible refine foldl_keeps _ _ _ ?_ ?_ | with_reducible refine foldl_fst_keeps _ _ _ ?_ ?_ | intro _ _ _
    | intro _ | with_reducible refine keeps_ite _ _ _ ?_ ?_ | split
    | with_reducible refine keeps_fst ?_ (by assumption) | with_reducible refine keeps_fst2 ?_ (by assumption)
    | simp only [])

theorem currentLine_keeps {W : Nat} {q0 : State} (w : Reader) (line tag : Nat) (s : State) (hk : Keeps W q0 s)
    (hW : Sub 0x200BFD19 W := by first | assumption | exact sub_of (by assumption) (by decide)) :
    Keeps W q0 (currentLine w line tag s).1 := by
  unfold currentLine
  extract_lets n s0
  have h0 : Keeps W q0 s0 := readHeld_keeps _ _ _ (takeOver_keeps _ _ _ _ hk hW) hW
  split
  · exact homeRead_keeps _ _ _ _ hk (sub_of hW (by decide))
  · split
    · exact recallVictim_keeps _ _ _ h0 hW
    · exact homeRead_keeps _ _ _ _ h0 (sub_of hW (by decide))

theorem countWait_keeps {W : Nat} {q0 : State} (w : Reader) (tag line : Nat) (s : State) (hk : Keeps W q0 s)
    (hW : Sub 0x401 W := by first | assumption | exact sub_of (by assumption) (by decide)) :
    Keeps W q0 (countWait w tag line s) := by
  unfold countWait
  repeat' (first
    | with_reducible assumption | exact sub_of (by assumption) (by decide)
    | with_reducible exact twf_tset _ _ _ _ (by assumption)
    | with_reducible refine keeps_chan (W := W) ?_ _ (by assumption) | with_reducible exact twf_nil _
    | with_reducible refine keeps_ok (W := W) ?_ (by assumption) | with_reducible apply bump_keeps
    | with_reducible apply setMem_keeps | with_reducible refine foldl_keeps _ _ _ ?_ ?_
    | with_reducible refine foldl_fst_keeps _ _ _ ?_ ?_ | intro _ _ _ | intro _
    | with_reducible refine keeps_ite _ _ _ ?_ ?_ | split | with_reducible refine keeps_fst ?_ (by assumption)
    | with_reducible refine keeps_fst2 ?_ (by assumption) | simp only [])

theorem ncOpen_keeps {W : Nat} {q0 : State} (w : Reader) (tag line : Nat) (excl : Bool) (s : State) (hk : Keeps W q0
    s)
    (hW : Sub 0x20090429 W := by first | assumption | exact sub_of (by assumption) (by decide)) :
    Keeps W q0 (ncOpen w tag line excl s) := by
  unfold ncOpen
  repeat' (first
    | with_reducible assumption | exact sub_of (by assumption) (by decide)
    | with_reducible exact twf_tset _ _ _ _ (by assumption)
    | with_reducible refine keeps_chan (W := W) ?_ _ (by assumption) | with_reducible exact twf_nil _
    | with_reducible refine keeps_ok (W := W) ?_ (by assumption) | with_reducible apply clearWay_keeps
    | with_reducible apply countWait_keeps | with_reducible refine foldl_keeps _ _ _ ?_ ?_
    | with_reducible refine foldl_fst_keeps _ _ _ ?_ ?_ | intro _ _ _ | intro _
    | with_reducible refine keeps_ite _ _ _ ?_ ?_ | split | with_reducible refine keeps_fst ?_ (by assumption)
    | with_reducible refine keeps_fst2 ?_ (by assumption) | simp only [])

theorem breakResv_keeps {W : Nat} {q0 : State} (h : Option Nat) (line : Nat) (s : State) (hk : Keeps W q0 s)
    (hW : Sub 0x10008 W := by first | assumption | exact sub_of (by assumption) (by decide)) :
    Keeps W q0 (breakResv h line s) := by
  unfold breakResv
  repeat' (first
    | with_reducible assumption | exact sub_of (by assumption) (by decide) | with_reducible apply setHart_keeps
    | with_reducible apply setFab_keeps | with_reducible refine foldl_keeps _ _ _ ?_ ?_
    | with_reducible refine foldl_fst_keeps _ _ _ ?_ ?_ | intro _ _ _ | intro _
    | with_reducible refine keeps_ite _ _ _ ?_ ?_ | split | with_reducible refine keeps_fst ?_ (by assumption)
    | with_reducible refine keeps_fst2 ?_ (by assumption) | simp only [])

theorem writeAtHome_keeps {W : Nat} {q0 : State} (w : Reader) (line tag d : Nat) (s : State) (hk : Keeps W q0 s)
    (hW : Sub 0x200BFD19 W := by first | assumption | exact sub_of (by assumption) (by decide)) :
    Keeps W q0 (writeAtHome w line tag d s) := by
  unfold writeAtHome
  repeat' (first
    | with_reducible assumption | exact sub_of (by assumption) (by decide)
    | with_reducible exact twf_tset _ _ _ _ (by assumption)
    | with_reducible refine keeps_chan (W := W) ?_ _ (by assumption) | with_reducible exact twf_nil _
    | with_reducible refine keeps_ok (W := W) ?_ (by assumption) | with_reducible apply writeBack_keeps
    | with_reducible apply putArr_keeps | with_reducible apply dropArr_keeps | with_reducible apply takeBack_keeps
    | with_reducible apply takeOver_keeps | with_reducible apply breakResv_keeps
    | with_reducible refine foldl_keeps _ _ _ ?_ ?_ | with_reducible refine foldl_fst_keeps _ _ _ ?_ ?_ | intro _ _ _
    | intro _ | with_reducible refine keeps_ite _ _ _ ?_ ?_ | split
    | with_reducible refine keeps_fst ?_ (by assumption) | with_reducible refine keeps_fst2 ?_ (by assumption)
    | simp only [])

/-! ## CacheCmd -/

theorem judgeDegraded_keeps {W : Nat} {q0 : State} (t : Nat) (s : State) (hk : Keeps W q0 s) (hW : Sub 0x800 W) :
    Keeps W q0 (judgeDegraded t s) := by
  unfold judgeDegraded
  with_reducible repeat' (first
    | assumption | apply setTenant_keeps | exact sub_of (by assumption) (by decide) | split | simp only [])

theorem holdClasses_keeps {W : Nat} {q0 : State} (tile t : Nat) (rs : List Nat) (s : State) (hk : Keeps W q0 s) (hW :
    Sub 0x200 W) : Keeps W q0 (holdClasses tile t rs s) := by
  unfold holdClasses
  with_reducible repeat' (first
    | assumption | exact sub_of (by assumption) (by decide) | refine keeps_lit (by assumption) ?_)

theorem dropClasses_keeps {W : Nat} {q0 : State} (t : Nat) (s : State) (hk : Keeps W q0 s) (hW : Sub 0x200 W) : Keeps
    W q0 (dropClasses t s) := by
  unfold dropClasses
  with_reducible repeat' (first
    | assumption | exact sub_of (by assumption) (by decide) | refine keeps_lit (by assumption) ?_)

theorem needClass_keeps {W : Nat} {q0 : State} (tile t : Nat) (s : State) (hk : Keeps W q0 s)
    (hW : Sub 0x200 W := by first | assumption | exact sub_of (by assumption) (by decide)) :
    Keeps W q0 (needClass tile t s) := by
  unfold needClass
  repeat' (first
    | with_reducible assumption | exact sub_of (by assumption) (by decide) | with_reducible apply holdClasses_keeps
    | with_reducible refine foldl_keeps _ _ _ ?_ ?_ | with_reducible refine foldl_fst_keeps _ _ _ ?_ ?_ | intro _ _ _
    | intro _ | with_reducible refine keeps_ite _ _ _ ?_ ?_ | split
    | with_reducible refine keeps_fst ?_ (by assumption) | with_reducible refine keeps_fst2 ?_ (by assumption)
    | simp only [])

theorem startDrain_keeps {W : Nat} {q0 : State} (n cause : Nat) (s : State) (hk : Keeps W q0 s)
    (hW : Sub 0x101 W := by first | assumption | exact sub_of (by assumption) (by decide)) :
    Keeps W q0 (startDrain n cause s) := by
  unfold startDrain
  repeat' (first
    | with_reducible assumption | exact sub_of (by assumption) (by decide) | with_reducible apply wr_keeps
    | with_reducible apply wrB_keeps | with_reducible apply setSlice_keeps
    | with_reducible refine foldl_keeps _ _ _ ?_ ?_ | with_reducible refine foldl_fst_keeps _ _ _ ?_ ?_ | intro _ _ _
    | intro _ | with_reducible refine keeps_ite _ _ _ ?_ ?_ | split
    | with_reducible refine keeps_fst ?_ (by assumption) | with_reducible refine keeps_fst2 ?_ (by assumption)
    | simp only [])

theorem sliceRefused_keeps {W : Nat} {q0 : State} (n i outcome : Nat) (s : State) (hk : Keeps W q0 s)
    (hW : Sub 0x1101 W := by first | assumption | exact sub_of (by assumption) (by decide)) :
    Keeps W q0 (sliceRefused n i outcome s) := by
  unfold sliceRefused
  repeat' (first
    | with_reducible assumption | exact sub_of (by assumption) (by decide) | with_reducible apply setSlice_keeps
    | with_reducible apply stageDone_keeps | with_reducible refine foldl_keeps _ _ _ ?_ ?_
    | with_reducible refine foldl_fst_keeps _ _ _ ?_ ?_ | intro _ _ _ | intro _
    | with_reducible refine keeps_ite _ _ _ ?_ ?_ | split | with_reducible refine keeps_fst ?_ (by assumption)
    | with_reducible refine keeps_fst2 ?_ (by assumption) | simp only [])

theorem drainSlice_keeps {W : Nat} {q0 : State} (n cause : Nat) (s : State) (hk : Keeps W q0 s)
    (hW : Sub 0x1101 W := by first | assumption | exact sub_of (by assumption) (by decide)) :
    Keeps W q0 (drainSlice n cause s) := by
  unfold drainSlice
  repeat' (first
    | with_reducible assumption | exact sub_of (by assumption) (by decide) | with_reducible apply startDrain_keeps
    | with_reducible apply sliceRefused_keeps | with_reducible refine foldl_keeps _ _ _ ?_ ?_
    | with_reducible refine foldl_fst_keeps _ _ _ ?_ ?_ | intro _ _ _ | intro _
    | with_reducible refine keeps_ite _ _ _ ?_ ?_ | split | with_reducible refine keeps_fst ?_ (by assumption)
    | with_reducible refine keeps_fst2 ?_ (by assumption) | simp only [])

theorem releaseLocks_keeps {W : Nat} {q0 : State} (n : Nat) (s : State) (hk : Keeps W q0 s)
    (hW : Sub 0x1301 W := by first | assumption | exact sub_of (by assumption) (by decide)) :
    Keeps W q0 (releaseLocks n s) := by
  unfold releaseLocks
  repeat' (first
    | with_reducible assumption | exact sub_of (by assumption) (by decide) | with_reducible apply wr_keeps
    | with_reducible apply notify_keeps | with_reducible apply setSlice_keeps
    | with_reducible refine foldl_keeps _ _ _ ?_ ?_ | with_reducible refine foldl_fst_keeps _ _ _ ?_ ?_ | intro _ _ _
    | intro _ | with_reducible refine keeps_ite _ _ _ ?_ ?_ | split
    | with_reducible refine keeps_fst ?_ (by assumption) | with_reducible refine keeps_fst2 ?_ (by assumption)
    | simp only [] | with_reducible refine keeps_lit (by assumption) ?_)

theorem drainLine_keeps {W : Nat} {q0 : State} (n : Nat) (victim : Bool) (s : State) (e : Nat × SLine) (hk : Keeps W
    q0 s)
    (hW : Sub 0x200BFC01 W := by first | assumption | exact sub_of (by assumption) (by decide)) :
    Keeps W q0 (drainLine n victim s e) := by
  unfold drainLine
  repeat' (first
    | with_reducible assumption | exact sub_of (by assumption) (by decide)
    | with_reducible exact twf_tset _ _ _ _ (by assumption)
    | with_reducible refine keeps_chan (W := W) ?_ _ (by assumption) | with_reducible exact twf_nil _
    | with_reducible refine keeps_ok (W := W) ?_ (by assumption) | with_reducible apply recVisible_keeps
    | with_reducible apply recCorrected_keeps | with_reducible apply writeBack_keeps
    | with_reducible apply rowErrors_keeps | with_reducible apply rowLast_keeps
    | with_reducible refine foldl_keeps _ _ _ ?_ ?_ | with_reducible refine foldl_fst_keeps _ _ _ ?_ ?_ | intro _ _ _
    | intro _ | with_reducible refine keeps_ite _ _ _ ?_ ?_ | split
    | with_reducible refine keeps_fst ?_ (by assumption) | with_reducible refine keeps_fst2 ?_ (by assumption)
    | simp only [])

theorem noticeParts_keeps {W : Nat} {q0 : State} (n : Nat) (ts : List Nat) (s : State) (hk : Keeps W q0 s)
    (hW : Sub 0x1800 W := by first | assumption | exact sub_of (by assumption) (by decide)) :
    Keeps W q0 (noticeParts n ts s) := by
  unfold noticeParts
  repeat' (first
    | with_reducible assumption | exact sub_of (by assumption) (by decide) | with_reducible apply sealNotice_keeps
    | with_reducible refine foldl_keeps _ _ _ ?_ ?_ | with_reducible refine foldl_fst_keeps _ _ _ ?_ ?_ | intro _ _ _
    | intro _ | with_reducible refine keeps_ite _ _ _ ?_ ?_ | split
    | with_reducible refine keeps_fst ?_ (by assumption) | with_reducible refine keeps_fst2 ?_ (by assumption)
    | simp only [])

theorem drainWalk_keeps {W : Nat} {q0 : State} (n : Nat) (s : State) (hk : Keeps W q0 s)
    (hW : Sub 0x280BFF01 W := by first | assumption | exact sub_of (by assumption) (by decide)) :
    Keeps W q0 (drainWalk n s) := by
  unfold drainWalk
  repeat' (first
    | with_reducible assumption | exact sub_of (by assumption) (by decide)
    | with_reducible exact twf_tset _ _ _ _ (by assumption)
    | with_reducible refine keeps_chan (W := W) ?_ _ (by assumption) | with_reducible exact twf_nil _
    | with_reducible refine keeps_ok (W := W) ?_ (by assumption) | with_reducible apply addDue_keeps
    | with_reducible apply putSlice_keeps | with_reducible apply judgeDegraded_keeps
    | with_reducible apply releaseLocks_keeps | with_reducible apply drainLine_keeps
    | with_reducible apply noticeParts_keeps | with_reducible refine foldl_keeps _ _ _ ?_ ?_
    | with_reducible refine foldl_fst_keeps _ _ _ ?_ ?_ | intro _ _ _ | intro _
    | with_reducible refine keeps_ite _ _ _ ?_ ?_ | split | with_reducible refine keeps_fst ?_ (by assumption)
    | with_reducible refine keeps_fst2 ?_ (by assumption) | simp only [])

theorem countBuckets_keeps {W : Nat} {q0 : State} (s : State) (hk : Keeps W q0 s) (hW : Sub 0x1 W) : Keeps W q0
    (countBuckets s) := by
  unfold countBuckets
  with_reducible repeat' (first
    | assumption | apply wr_keeps | exact sub_of (by assumption) (by decide) | refine foldl_keeps _ _ _ ?_ ?_
    | intro _ _ _)

theorem newPartition_keeps {W : Nat} {q0 : State} (t lost : Nat) (s : State) (hk : Keeps W q0 s)
    (hW : Sub 0x82201 W := by first | assumption | exact sub_of (by assumption) (by decide)) :
    Keeps W q0 (newPartition t lost s).1 := by
  unfold newPartition
  repeat' (first
    | with_reducible assumption | exact sub_of (by assumption) (by decide) | with_reducible apply applyPart_keeps
    | with_reducible apply needClass_keeps | with_reducible refine foldl_keeps _ _ _ ?_ ?_
    | with_reducible refine foldl_fst_keeps _ _ _ ?_ ?_ | intro _ _ _ | intro _
    | with_reducible refine keeps_ite _ _ _ ?_ ?_ | split | with_reducible refine keeps_fst ?_ (by assumption)
    | with_reducible refine keeps_fst2 ?_ (by assumption) | simp only [])

theorem rehomeSealed_keeps {W : Nat} {q0 : State} (n t : Nat) (s : State) (hk : Keeps W q0 s)
    (hW : Sub 0x82201 W := by first | assumption | exact sub_of (by assumption) (by decide)) :
    Keeps W q0 (rehomeSealed n t s) := by
  unfold rehomeSealed
  repeat' (first
    | with_reducible assumption | exact sub_of (by assumption) (by decide) | with_reducible apply newPartition_keeps
    | with_reducible refine foldl_keeps _ _ _ ?_ ?_ | with_reducible refine foldl_fst_keeps _ _ _ ?_ ?_ | intro _ _ _
    | intro _ | with_reducible refine keeps_ite _ _ _ ?_ ?_ | split
    | with_reducible refine keeps_fst ?_ (by assumption) | with_reducible refine keeps_fst2 ?_ (by assumption)
    | simp only [] | with_reducible refine keeps_lit (by assumption) ?_)

theorem replanSlice_keeps {W : Nat} {q0 : State} (n t : Nat) (s : State) (hk : Keeps W q0 s)
    (hW : Sub 0xA00 W := by first | assumption | exact sub_of (by assumption) (by decide)) :
    Keeps W q0 (replanSlice n t s) := by
  unfold replanSlice
  repeat' (first
    | with_reducible assumption | exact sub_of (by assumption) (by decide) | with_reducible apply setTenant_keeps
    | with_reducible apply needClass_keeps | with_reducible refine foldl_keeps _ _ _ ?_ ?_
    | with_reducible refine foldl_fst_keeps _ _ _ ?_ ?_ | intro _ _ _ | intro _
    | with_reducible refine keeps_ite _ _ _ ?_ ?_ | split | with_reducible refine keeps_fst ?_ (by assumption)
    | with_reducible refine keeps_fst2 ?_ (by assumption) | simp only [])

theorem moveDirectory_keeps {W : Nat} {q0 : State} (n : Nat) (s : State) (hk : Keeps W q0 s)
    (hW : Sub 0x200BFD19 W := by first | assumption | exact sub_of (by assumption) (by decide)) :
    Keeps W q0 (moveDirectory n s) := by
  unfold moveDirectory
  repeat' (first
    | with_reducible assumption | exact sub_of (by assumption) (by decide)
    | with_reducible exact twf_tset _ _ _ _ (by assumption)
    | with_reducible refine keeps_chan (W := W) ?_ _ (by assumption) | with_reducible exact twf_nil _
    | with_reducible refine keeps_ok (W := W) ?_ (by assumption) | with_reducible apply setSlice_keeps
    | with_reducible apply putDir_keeps | with_reducible apply dirRoom_keeps
    | with_reducible refine foldl_keeps _ _ _ ?_ ?_ | with_reducible refine foldl_fst_keeps _ _ _ ?_ ?_ | intro _ _ _
    | intro _ | with_reducible refine keeps_ite _ _ _ ?_ ?_ | split
    | with_reducible refine keeps_fst ?_ (by assumption) | with_reducible refine keeps_fst2 ?_ (by assumption)
    | simp only [])

theorem forwardFlight_keeps {W : Nat} {q0 : State} (n : Nat) (p : Nat → Bool) (s : State) (hk : Keeps W q0 s)
    (hW : Sub 0x4101 W := by first | assumption | exact sub_of (by assumption) (by decide)) :
    Keeps W q0 (forwardFlight n p s) := by
  unfold forwardFlight
  repeat' (first
    | with_reducible assumption | exact sub_of (by assumption) (by decide) | with_reducible apply setSlice_keeps
    | with_reducible apply putSlice_keeps | with_reducible apply enterAmq_keeps
    | with_reducible refine foldl_keeps _ _ _ ?_ ?_ | with_reducible refine foldl_fst_keeps _ _ _ ?_ ?_ | intro _ _ _
    | intro _ | with_reducible refine keeps_ite _ _ _ ?_ ?_ | split
    | with_reducible refine keeps_fst ?_ (by assumption) | with_reducible refine keeps_fst2 ?_ (by assumption)
    | simp only [] | with_reducible refine keeps_lit (by assumption) ?_)

theorem switchBuckets_keeps {W : Nat} {q0 : State} (n : Nat) (s : State) (hk : Keeps W q0 s)
    (hW : Sub 0x200BFF19 W := by first | assumption | exact sub_of (by assumption) (by decide)) :
    Keeps W q0 (switchBuckets n s) := by
  unfold switchBuckets
  repeat' (first
    | with_reducible assumption | exact sub_of (by assumption) (by decide)
    | with_reducible exact twf_tset _ _ _ _ (by assumption)
    | with_reducible refine keeps_chan (W := W) ?_ _ (by assumption) | with_reducible exact twf_nil _
    | with_reducible refine keeps_ok (W := W) ?_ (by assumption) | with_reducible apply wr_keeps
    | with_reducible apply setSlice_keeps | with_reducible apply stageDone_keeps
    | with_reducible apply applyPart_keeps | with_reducible apply judgeDegraded_keeps
    | with_reducible apply noticeParts_keeps | with_reducible apply countBuckets_keeps
    | with_reducible apply rehomeSealed_keeps | with_reducible apply replanSlice_keeps
    | with_reducible apply moveDirectory_keeps | with_reducible apply forwardFlight_keeps
    | with_reducible refine foldl_keeps _ _ _ ?_ ?_ | with_reducible refine foldl_fst_keeps _ _ _ ?_ ?_ | intro _ _ _
    | intro _ | with_reducible refine keeps_ite _ _ _ ?_ ?_ | split
    | with_reducible refine keeps_fst ?_ (by assumption) | with_reducible refine keeps_fst2 ?_ (by assumption)
    | simp only [] | with_reducible refine keeps_lit (by assumption) ?_
    | (refine keeps_mem _ ?_ ?_ (sub_of (by assumption) (by decide))))

theorem handSlice_keeps {W : Nat} {q0 : State} (n : Nat) (s : State) (hk : Keeps W q0 s) (hW : Sub 0x1 W) : Keeps W
    q0 (handSlice n s) := by
  unfold handSlice
  with_reducible repeat' (first | assumption | apply wr_keeps | exact sub_of (by assumption) (by decide) | split)

theorem pickWays_keeps {W : Nat} {q0 : State} (k : Nat) (l : List Nat) (s : State) (hk : Keeps W q0 s) (hW : Sub
    0x20000000 W := by first | assumption | exact sub_of (by assumption) (by decide)) : Keeps W q0 (pickWays k l s).1
    := by
  induction k generalizing l s with
  | zero => exact hk
  | succ k ih =>
    unfold pickWays
    split
    · exact ih _ _ (freeNext_keeps _ hk)
    · exact hk

theorem reserveWays_keeps {W : Nat} {q0 : State} (t k : Nat) (a : State × List (Nat × Nat)) (n : Nat) (hk : Keeps W q0 a.1)
    (hW : Sub 0x20000001 W := by first | assumption | exact sub_of (by assumption) (by decide)) :
    Keeps W q0 (reserveWays t k a n).1 := by
  unfold reserveWays; dsimp only
  exact wr_keeps _ _ _ (wr_keeps _ _ _ (pickWays_keeps _ _ _ hk))

theorem preloadLine_keeps {W : Nat} {q0 : State} (i : Nat) (k : CLock) (a : State × List Nat) (line : Nat) (hk : Keeps W q0 a.1)
    (hW : Sub 0x200BFD19 W := by first | assumption | exact sub_of (by assumption) (by decide)) :
    Keeps W q0 (preloadLine i k a line).1 := by
  have h := currentLine_keeps (.mailbox i) line k.owner a.1 hk
  unfold preloadLine
  dsimp only
  generalize currentLine (.mailbox i) line k.owner a.1 = x at h
  split
  · split
    · exact intoWay_keeps _ _ _ _ _ (dropArr_keeps _ _ _ h)
    · exact h
  · exact hk

theorem cacheLock_keeps {W : Nat} {q0 : State} (i : Nat) (c : Bytes) (s : State) (hk : Keeps W q0 s)
    (hW : Sub 0x20001201 W := by first | assumption | exact sub_of (by assumption) (by decide)) :
    Keeps W q0 (cacheLock i c s) := by
  unfold cacheLock
  repeat' (first
    | with_reducible assumption | exact sub_of (by assumption) (by decide) | with_reducible apply stageDone_keeps
    | with_reducible apply reserveWays_keeps | with_reducible refine foldl_keeps _ _ _ ?_ ?_
    | with_reducible refine foldl_fst_keeps _ _ _ ?_ ?_ | intro _ _ _ | intro _
    | with_reducible refine keeps_ite _ _ _ ?_ ?_ | split | with_reducible refine keeps_fst ?_ (by assumption)
    | with_reducible refine keeps_fst2 ?_ (by assumption) | simp only []
    | with_reducible refine keeps_lit (by assumption) ?_)

theorem askLines_keeps {W : Nat} {q0 : State} (w : Reader) (t : Nat) (ls : List Nat) (s : State) (hk : Keeps W q0 s)
    (hW : Sub 0x200BFD19 W := by first | assumption | exact sub_of (by assumption) (by decide)) :
    Keeps W q0 (askLines w t ls s).1 := by
  unfold askLines
  refine foldl_fst_keeps _ _ _ hk fun a l ha => ?_
  have h := currentLine_keeps w l t a.1 ha
  generalize currentLine w l t a.1 = x at h
  rcases x with ⟨b, _ | _ | _⟩ <;> exact h

theorem preloadDone_keeps {W : Nat} {q0 : State} (i : Nat) (s : State) (hk : Keeps W q0 s)
    (hW : Sub 0x280BFF39 W := by first | assumption | exact sub_of (by assumption) (by decide)) :
    Keeps W q0 (preloadDone i s) := by
  unfold preloadDone
  repeat' (first
    | with_reducible assumption | exact sub_of (by assumption) (by decide)
    | with_reducible exact twf_tset _ _ _ _ (by assumption)
    | with_reducible refine keeps_chan (W := W) ?_ _ (by assumption) | with_reducible exact twf_nil _
    | with_reducible refine keeps_ok (W := W) ?_ (by assumption) | with_reducible apply addDue_keeps
    | with_reducible apply dropReads_keeps | with_reducible apply ncOpen_keeps
    | with_reducible apply preloadLine_keeps | with_reducible apply askLines_keeps
    | with_reducible refine foldl_keeps _ _ _ ?_ ?_ | with_reducible refine foldl_fst_keeps _ _ _ ?_ ?_ | intro _ _ _
    | intro _ | with_reducible refine keeps_ite _ _ _ ?_ ?_ | split
    | with_reducible refine keeps_fst ?_ (by assumption) | with_reducible refine keeps_fst2 ?_ (by assumption)
    | simp only [] | with_reducible refine keeps_lit (by assumption) ?_
    | (refine keeps_mem _ ?_ ?_ (sub_of (by assumption) (by decide))))

theorem dropLock_keeps {W : Nat} {q0 : State} (k : CLock) (s : State) (hk : Keeps W q0 s)
    (hW : Sub 0x301 W := by first | assumption | exact sub_of (by assumption) (by decide)) :
    Keeps W q0 (dropLock k s) := by
  unfold dropLock
  repeat' (first
    | with_reducible assumption | exact sub_of (by assumption) (by decide) | with_reducible apply wr_keeps
    | with_reducible apply setSlice_keeps | with_reducible apply putArr_keeps
    | with_reducible refine foldl_keeps _ _ _ ?_ ?_ | with_reducible refine foldl_fst_keeps _ _ _ ?_ ?_ | intro _ _ _
    | intro _ | with_reducible refine keeps_ite _ _ _ ?_ ?_ | split
    | with_reducible refine keeps_fst ?_ (by assumption) | with_reducible refine keeps_fst2 ?_ (by assumption)
    | simp only [] | with_reducible refine keeps_lit (by assumption) ?_)

theorem cacheUnlock_keeps {W : Nat} {q0 : State} (i : Nat) (c : Bytes) (s : State) (hk : Keeps W q0 s) (hW : Sub
    0x1301 W) : Keeps W q0 (cacheUnlock i c s) := by
  unfold cacheUnlock
  with_reducible repeat' (first
    | assumption | apply stageDone_keeps | apply dropLock_keeps | exact sub_of (by assumption) (by decide) | split
    | simp only [])

theorem cacheSlice_keeps {W : Nat} {q0 : State} (i : Nat) (c : Bytes) (s : State) (hk : Keeps W q0 s) (hW : Sub
    0x10001101 W) : Keeps W q0 (cacheSlice i c s) := by
  unfold cacheSlice
  with_reducible repeat' (first
    | assumption | apply stageDone_keeps | apply addStep_keeps | apply drainSlice_keeps | apply setSlice_keeps
    | exact sub_of (by assumption) (by decide) | split | simp only [])

theorem cacheStatus_keeps {W : Nat} {q0 : State} (i : Nat) (c : Bytes) (s : State) (hk : Keeps W q0 s) (hW : Sub
    0x1001 W) : Keeps W q0 (cacheStatus i c s) := by
  unfold cacheStatus
  with_reducible repeat' (first | assumption | apply stageDone_keeps)

/-! ## MemCmd -/

theorem memStatus_keeps {W : Nat} {q0 : State} (i : Nat) (a : Bytes) (s : State) (hk : Keeps W q0 s) (hW : Sub 0x1001
    W) : Keeps W q0 (memStatus i a s) := by
  unfold memStatus
  with_reducible repeat' (first | assumption | apply stageDone_keeps)

theorem memScrub_keeps {W : Nat} {q0 : State} (i : Nat) (a : Bytes) (s : State) (hk : Keeps W q0 s)
    (hW : Sub 0x1401 W := by first | assumption | exact sub_of (by assumption) (by decide)) :
    Keeps W q0 (memScrub i a s) := by
  unfold memScrub
  repeat' (first
    | with_reducible assumption | exact sub_of (by assumption) (by decide)
    | with_reducible exact twf_tset _ _ _ _ (by assumption)
    | with_reducible refine keeps_chan (W := W) ?_ _ (by assumption) | with_reducible exact twf_nil _
    | with_reducible refine keeps_ok (W := W) ?_ (by assumption) | with_reducible apply wr_keeps
    | with_reducible apply stageDone_keeps | with_reducible apply setMem_keeps
    | with_reducible refine foldl_keeps _ _ _ ?_ ?_ | with_reducible refine foldl_fst_keeps _ _ _ ?_ ?_ | intro _ _ _
    | intro _ | with_reducible refine keeps_ite _ _ _ ?_ ?_ | split
    | with_reducible refine keeps_fst ?_ (by assumption) | with_reducible refine keeps_fst2 ?_ (by assumption)
    | simp only [])

theorem scrubEnd_keeps {W : Nat} {q0 : State} (s : State) (hk : Keeps W q0 s) (hW : Sub 0x1401 W) : Keeps W q0
    (scrubEnd s) := by
  unfold scrubEnd
  with_reducible repeat' (first
    | assumption | apply notify_keeps | apply wr_keeps | apply setMem_keeps
    | exact sub_of (by assumption) (by decide) | refine keeps_ok (W := W) ?_ (by assumption)
    | refine foldl_keeps _ _ _ ?_ ?_ | split | exact twf_tset _ _ _ _ (by assumption) | exact twf_nil _
    | refine keeps_ok (W := W) ?_ (by assumption) | refine keeps_chan (W := W) ?_ _ (by assumption) | intro _ _ _
    | intro _)

theorem clearLine_keeps {W : Nat} {q0 : State} (t line : Nat) (s : State) (hk : Keeps W q0 s)
    (hW : Sub 0xA3D19 W := by first | assumption | exact sub_of (by assumption) (by decide)) :
    Keeps W q0 (clearLine t line s) := by
  unfold clearLine
  repeat' (first
    | with_reducible assumption | exact sub_of (by assumption) (by decide)
    | with_reducible exact twf_tset _ _ _ _ (by assumption)
    | with_reducible refine keeps_chan (W := W) ?_ _ (by assumption) | with_reducible exact twf_nil _
    | with_reducible refine keeps_ok (W := W) ?_ (by assumption) | with_reducible apply dramWrite_keeps
    | with_reducible apply refuseLine_keeps | with_reducible apply dropArr_keeps | with_reducible apply takeBack_keeps
    | with_reducible refine foldl_keeps _ _ _ ?_ ?_ | with_reducible refine foldl_fst_keeps _ _ _ ?_ ?_ | intro _ _ _
    | intro _ | with_reducible refine keeps_ite _ _ _ ?_ ?_ | split
    | with_reducible refine keeps_fst ?_ (by assumption) | with_reducible refine keeps_fst2 ?_ (by assumption)
    | simp only [])

theorem clearRange_keeps {W : Nat} {q0 : State} (t base size : Nat) (s : State) (hk : Keeps W q0 s) (hW : Sub 0xA3D19 W) : Keeps W q0 (clearRange t base size s) := by
  unfold clearRange
  with_reducible repeat' (first
    | assumption | apply clearLine_keeps | exact sub_of (by assumption) (by decide)
    | refine foldl_keeps _ _ _ ?_ ?_ | intro _ _ _)

theorem clearEnd_keeps {W : Nat} {q0 : State} (i cl base size t n upto : Nat) (s : State) (hk : Keeps W q0 s)
    (hW : Sub 0x8001001 W := by first | assumption | exact sub_of (by assumption) (by decide)) :
    Keeps W q0 (clearEnd i cl base size t n upto s) := by
  unfold clearEnd
  repeat' (first
    | with_reducible assumption | exact sub_of (by assumption) (by decide) | with_reducible apply addDue_keeps
    | with_reducible apply stageDone_keeps | with_reducible refine foldl_keeps _ _ _ ?_ ?_
    | with_reducible refine foldl_fst_keeps _ _ _ ?_ ?_ | intro _ _ _ | intro _
    | with_reducible refine keeps_ite _ _ _ ?_ ?_ | split | with_reducible refine keeps_fst ?_ (by assumption)
    | with_reducible refine keeps_fst2 ?_ (by assumption) | simp only [])

theorem memClear_keeps {W : Nat} {q0 : State} (i : Nat) (a : Bytes) (s : State) (hk : Keeps W q0 s)
    (hW : Sub 0x280B3D39 W := by first | assumption | exact sub_of (by assumption) (by decide)) :
    Keeps W q0 (memClear i a s) := by
  unfold memClear
  repeat' (first
    | with_reducible assumption | exact sub_of (by assumption) (by decide)
    | with_reducible exact twf_tset _ _ _ _ (by assumption)
    | with_reducible refine keeps_chan (W := W) ?_ _ (by assumption) | with_reducible exact twf_nil _
    | with_reducible refine keeps_ok (W := W) ?_ (by assumption) | with_reducible apply addDue_keeps
    | with_reducible apply dropReads_keeps | with_reducible apply stageDone_keeps | with_reducible apply ncOpen_keeps
    | with_reducible apply clearRange_keeps | with_reducible refine foldl_keeps _ _ _ ?_ ?_
    | with_reducible refine foldl_fst_keeps _ _ _ ?_ ?_ | intro _ _ _ | intro _
    | with_reducible refine keeps_ite _ _ _ ?_ ?_ | split | with_reducible refine keeps_fst ?_ (by assumption)
    | with_reducible refine keeps_fst2 ?_ (by assumption) | simp only [])

theorem memRepair_keeps {W : Nat} {q0 : State} (i : Nat) (a : Bytes) (s : State) (hk : Keeps W q0 s)
    (hW : Sub 0x1401 W := by first | assumption | exact sub_of (by assumption) (by decide)) :
    Keeps W q0 (memRepair i a s) := by
  unfold memRepair
  repeat' (first
    | with_reducible assumption | exact sub_of (by assumption) (by decide)
    | with_reducible exact twf_tset _ _ _ _ (by assumption)
    | with_reducible refine keeps_chan (W := W) ?_ _ (by assumption) | with_reducible exact twf_nil _
    | with_reducible refine keeps_ok (W := W) ?_ (by assumption) | with_reducible apply stageDone_keeps
    | with_reducible apply modChan_keeps | with_reducible apply listRow_keeps
    | with_reducible refine foldl_keeps _ _ _ ?_ ?_ | with_reducible refine foldl_fst_keeps _ _ _ ?_ ?_ | intro _ _ _
    | intro _ | with_reducible refine keeps_ite _ _ _ ?_ ?_ | split
    | with_reducible refine keeps_fst ?_ (by assumption) | with_reducible refine keeps_fst2 ?_ (by assumption)
    | simp only [])

theorem softRepairDone_keeps {W : Nat} {q0 : State} (i : Nat) (found : Bool) (s : State) (hk : Keeps W q0 s)
    (hW : Sub 0x8082401 W := by first | assumption | exact sub_of (by assumption) (by decide)) :
    Keeps W q0 (softRepairDone i found s) := by
  unfold softRepairDone
  repeat' (first
    | with_reducible assumption | exact sub_of (by assumption) (by decide)
    | with_reducible exact twf_tset _ _ _ _ (by assumption)
    | with_reducible refine keeps_chan (W := W) ?_ _ (by assumption) | with_reducible exact twf_nil _
    | with_reducible refine keeps_ok (W := W) ?_ (by assumption) | with_reducible apply bump_keeps
    | with_reducible apply addDue_keeps | with_reducible apply modChan_keeps | with_reducible apply markRow_keeps
    | with_reducible apply scrubCopies_keeps | with_reducible apply patrolTrigger_keeps
    | with_reducible refine foldl_keeps _ _ _ ?_ ?_ | with_reducible refine foldl_fst_keeps _ _ _ ?_ ?_ | intro _ _ _
    | intro _ | with_reducible refine keeps_ite _ _ _ ?_ ?_ | split
    | with_reducible refine keeps_fst ?_ (by assumption) | with_reducible refine keeps_fst2 ?_ (by assumption)
    | simp only [])

theorem memSpare_keeps {W : Nat} {q0 : State} (i : Nat) (a : Bytes) (s : State) (hk : Keeps W q0 s) (hW : Sub
    0x10001001 W) : Keeps W q0 (memSpare i a s) := by
  unfold memSpare
  with_reducible repeat' (first
    | assumption | apply stageDone_keeps | apply addStep_keeps | exact sub_of (by assumption) (by decide) | split
    | simp only [])

theorem memFlip_keeps {W : Nat} {q0 : State} (i : Nat) (a : Bytes) (s : State) (hk : Keeps W q0 s)
    (hW : Sub 0x1401 W := by first | assumption | exact sub_of (by assumption) (by decide)) :
    Keeps W q0 (memFlip i a s) := by
  unfold memFlip
  repeat' (first
    | with_reducible assumption | exact sub_of (by assumption) (by decide)
    | with_reducible exact twf_tset _ _ _ _ (by assumption)
    | with_reducible refine keeps_chan (W := W) ?_ _ (by assumption) | with_reducible exact twf_nil _
    | with_reducible refine keeps_ok (W := W) ?_ (by assumption) | with_reducible apply wr_keeps
    | with_reducible apply stageDone_keeps | with_reducible apply modChan_keeps
    | with_reducible refine foldl_keeps _ _ _ ?_ ?_ | with_reducible refine foldl_fst_keeps _ _ _ ?_ ?_ | intro _ _ _
    | intro _ | with_reducible refine keeps_ite _ _ _ ?_ ?_ | split
    | with_reducible refine keeps_fst ?_ (by assumption) | with_reducible refine keeps_fst2 ?_ (by assumption)
    | simp only [])

/-! ## Pair -/

theorem coldPred_keeps {W : Nat} {q0 : State} (core : Nat) (s : State) (hk : Keeps W q0 s) (hW : Sub 0x10 W) : Keeps
    W q0 (coldPred core s) := by
  unfold coldPred
  with_reducible repeat' (first | assumption | apply setCore_keeps)

theorem rekey_keeps {W : Nat} {q0 : State} (h : Nat) (s : State) (hk : Keeps W q0 s) (hW : Sub 0x8 W) : Keeps W q0
    (rekey h s) := by
  unfold rekey
  with_reducible repeat' (first | assumption | apply setHart_keeps)

theorem newSeed_keeps {W : Nat} {q0 : State} (h : Nat) (s : State) (hk : Keeps W q0 s) (hW : Sub 0x20000018 W) :
    Keeps W q0 (newSeed h s) := by
  unfold newSeed
  with_reducible repeat' (first
    | assumption | apply freeNext_keeps | apply setHart_keeps | apply rekey_keeps | apply coldPred_keeps
    | exact sub_of (by assumption) (by decide) | refine foldl_keeps _ _ _ ?_ ?_ | intro _ _ _)

theorem showHart_keeps {W : Nat} {q0 : State} (h : Nat) (s : State) (hk : Keeps W q0 s)
    (hW : Sub 0x1 W := by first | assumption | exact sub_of (by assumption) (by decide)) :
    Keeps W q0 (showHart h s) := by
  unfold showHart
  repeat' (first
    | with_reducible assumption | exact sub_of (by assumption) (by decide) | with_reducible apply wr_keeps
    | with_reducible apply wrB_keeps | with_reducible refine foldl_keeps _ _ _ ?_ ?_
    | with_reducible refine foldl_fst_keeps _ _ _ ?_ ?_ | intro _ _ _ | intro _
    | with_reducible refine keeps_ite _ _ _ ?_ ?_ | split | with_reducible refine keeps_fst ?_ (by assumption)
    | with_reducible refine keeps_fst2 ?_ (by assumption) | simp only [])

theorem freshCores_keeps {W : Nat} {q0 : State} (p : Nat) (s : State) (hk : Keeps W q0 s)
    (hW : Sub 0x10 W := by first | assumption | exact sub_of (by assumption) (by decide)) :
    Keeps W q0 (freshCores p s) := by
  unfold freshCores
  repeat' (first
    | with_reducible assumption | exact sub_of (by assumption) (by decide) | with_reducible apply setCore_keeps
    | with_reducible refine foldl_keeps _ _ _ ?_ ?_ | with_reducible refine foldl_fst_keeps _ _ _ ?_ ?_ | intro _ _ _
    | intro _ | with_reducible refine keeps_ite _ _ _ ?_ ?_ | split
    | with_reducible refine keeps_fst ?_ (by assumption) | with_reducible refine keeps_fst2 ?_ (by assumption)
    | simp only [])

theorem makeSpare_keeps {W : Nat} {q0 : State} (p : Nat) (s : State) (hk : Keeps W q0 s)
    (hW : Sub 0x31 W := by first | assumption | exact sub_of (by assumption) (by decide)) :
    Keeps W q0 (makeSpare p s) := by
  unfold makeSpare
  repeat' (first
    | with_reducible assumption | exact sub_of (by assumption) (by decide) | with_reducible apply wr_keeps
    | with_reducible apply modPair_keeps | with_reducible apply freshCores_keeps
    | with_reducible refine foldl_keeps _ _ _ ?_ ?_ | with_reducible refine foldl_fst_keeps _ _ _ ?_ ?_ | intro _ _ _
    | intro _ | with_reducible refine keeps_ite _ _ _ ?_ ?_ | split
    | with_reducible refine keeps_fst ?_ (by assumption) | with_reducible refine keeps_fst2 ?_ (by assumption)
    | simp only [])

theorem showPair_keeps {W : Nat} {q0 : State} (p : Nat) (s : State) (hk : Keeps W q0 s) (hW : Sub 0x419 W) : Keeps W q0
    (showPair p s) := by
  unfold showPair
  with_reducible repeat' (first
    | assumption | apply failed_keeps | apply wr_keeps | exact sub_of (by assumption) (by decide) | split
    | simp only [])

theorem showSlot_keeps {W : Nat} {q0 : State} (h : Nat) (s : State) (hk : Keeps W q0 s) (hW : Sub 0x419 W) : Keeps W q0
    (showSlot h s) := by
  unfold showSlot
  with_reducible repeat' (first
    | assumption | apply showPair_keeps | exact sub_of (by assumption) (by decide) | split)

theorem wakeFiles_keeps {W : Nat} {q0 : State} (h : Nat) (s : State) (hk : Keeps W q0 s)
    (hW : Sub 0x8 W := by first | assumption | exact sub_of (by assumption) (by decide)) :
    Keeps W q0 (wakeFiles h s) := by
  unfold wakeFiles
  repeat' (first
    | with_reducible assumption | exact sub_of (by assumption) (by decide) | with_reducible apply setHart_keeps
    | with_reducible refine foldl_keeps _ _ _ ?_ ?_ | with_reducible refine foldl_fst_keeps _ _ _ ?_ ?_ | intro _ _ _
    | intro _ | with_reducible refine keeps_ite _ _ _ ?_ ?_ | split
    | with_reducible refine keeps_fst ?_ (by assumption) | with_reducible refine keeps_fst2 ?_ (by assumption)
    | simp only [])

theorem reserveLibero_keeps {W : Nat} {q0 : State} (p : Nat) (s : State) (hk : Keeps W q0 s)
    (hW : Sub 0x31 W := by first | assumption | exact sub_of (by assumption) (by decide)) :
    Keeps W q0 (reserveLibero p s) := by
  unfold reserveLibero
  repeat' (first
    | with_reducible assumption | exact sub_of (by assumption) (by decide) | with_reducible apply wr_keeps
    | with_reducible apply modPair_keeps | with_reducible apply coldPred_keeps
    | with_reducible refine foldl_keeps _ _ _ ?_ ?_ | with_reducible refine foldl_fst_keeps _ _ _ ?_ ?_ | intro _ _ _
    | intro _ | with_reducible refine keeps_ite _ _ _ ?_ ?_ | split
    | with_reducible refine keeps_fst ?_ (by assumption) | with_reducible refine keeps_fst2 ?_ (by assumption)
    | simp only [])

theorem releaseLibero_keeps {W : Nat} {q0 : State} (p : Nat) (s : State) (hk : Keeps W q0 s)
    (hW : Sub 0x31 W := by first | assumption | exact sub_of (by assumption) (by decide)) :
    Keeps W q0 (releaseLibero p s) := by
  unfold releaseLibero
  repeat' (first
    | with_reducible assumption | exact sub_of (by assumption) (by decide) | with_reducible apply modPair_keeps
    | with_reducible apply makeSpare_keeps | with_reducible refine foldl_keeps _ _ _ ?_ ?_
    | with_reducible refine foldl_fst_keeps _ _ _ ?_ ?_ | intro _ _ _ | intro _
    | with_reducible refine keeps_ite _ _ _ ?_ ?_ | split | with_reducible refine keeps_fst ?_ (by assumption)
    | with_reducible refine keeps_fst2 ?_ (by assumption) | simp only [])

theorem noteSpare_keeps {W : Nat} {q0 : State} (p l : Nat) (s : State) (hk : Keeps W q0 s)
    (hW : Sub 0x1 W := by first | assumption | exact sub_of (by assumption) (by decide)) :
    Keeps W q0 (noteSpare p l s) := by
  unfold noteSpare
  repeat' (first
    | with_reducible assumption | exact sub_of (by assumption) (by decide) | with_reducible apply wr_keeps
    | with_reducible apply wrB_keeps | with_reducible refine foldl_keeps _ _ _ ?_ ?_
    | with_reducible refine foldl_fst_keeps _ _ _ ?_ ?_ | intro _ _ _ | intro _
    | with_reducible refine keeps_ite _ _ _ ?_ ?_ | split | with_reducible refine keeps_fst ?_ (by assumption)
    | with_reducible refine keeps_fst2 ?_ (by assumption) | simp only [])

theorem bindSlot_keeps {W : Nat} {q0 : State} (n p : Nat) (s : State) (hk : Keeps W q0 s)
    (hW : Sub 0x69 W := by first | assumption | exact sub_of (by assumption) (by decide)) :
    Keeps W q0 (bindSlot n p s) := by
  unfold bindSlot
  repeat' (first
    | with_reducible assumption | exact sub_of (by assumption) (by decide) | with_reducible apply wr_keeps
    | with_reducible apply setHart_keeps | with_reducible apply modPair_keeps
    | with_reducible refine foldl_keeps _ _ _ ?_ ?_ | with_reducible refine foldl_fst_keeps _ _ _ ?_ ?_ | intro _ _ _
    | intro _ | with_reducible refine keeps_ite _ _ _ ?_ ?_ | split
    | with_reducible refine keeps_fst ?_ (by assumption) | with_reducible refine keeps_fst2 ?_ (by assumption)
    | simp only [] | with_reducible refine keeps_lit (by assumption) ?_)

theorem rebindSlots_keeps {W : Nat} {q0 : State} (k : Nat) (s : State) (hk : Keeps W q0 s)
    (hW : Sub 0x69 W := by first | assumption | exact sub_of (by assumption) (by decide)) :
    Keeps W q0 (rebindSlots k s) := by
  induction k generalizing s with
  | zero => exact hk
  | succ k ih =>
    unfold rebindSlots
    repeat' (first
      | with_reducible assumption | exact sub_of (by assumption) (by decide) | with_reducible apply ih
      | with_reducible apply noteSpare_keeps | with_reducible apply bindSlot_keeps | split)

theorem unbindSlot_keeps {W : Nat} {q0 : State} (p : Nat) (s : State) (hk : Keeps W q0 s)
    (hW : Sub 0x69 W := by first | assumption | exact sub_of (by assumption) (by decide)) :
    Keeps W q0 (unbindSlot p s) := by
  unfold unbindSlot
  repeat' (first
    | with_reducible assumption | exact sub_of (by assumption) (by decide) | with_reducible apply wr_keeps
    | with_reducible apply rebindSlots_keeps | with_reducible refine foldl_keeps _ _ _ ?_ ?_
    | with_reducible refine foldl_fst_keeps _ _ _ ?_ ?_ | intro _ _ _ | intro _
    | with_reducible refine keeps_ite _ _ _ ?_ ?_ | split | with_reducible refine keeps_fst ?_ (by assumption)
    | with_reducible refine keeps_fst2 ?_ (by assumption) | simp only []
    | with_reducible refine keeps_lit (by assumption) ?_)

theorem drainTrips_keeps {W : Nat} {q0 : State} (core : Nat) (s : State) (hk : Keeps W q0 s)
    (hW : Sub 0x20080029 W := by first | assumption | exact sub_of (by assumption) (by decide)) :
    Keeps W q0 (drainTrips core s) := by
  unfold drainTrips
  split
  · exact presentPair_keeps _ _ _ (fun _ h => h) hk (sub_of hW (by decide))
  · exact hk

theorem drainCore_keeps {W : Nat} {q0 : State} (core : Nat) (s : State) (hk : Keeps W q0 s) (hW : Sub 0x200BFD19 W) :
    Keeps W q0 (drainCore core s).1 := by
  unfold drainCore
  with_reducible repeat' (first
    | assumption | apply dropL2_keeps | apply putDir_keeps | apply keepDirty_keeps
    | exact sub_of (by assumption) (by decide) | refine foldl_keeps _ _ _ ?_ ?_ | split | intro _ _ _)

theorem discardCore_keeps {W : Nat} {q0 : State} (core : Nat) (s : State) (hk : Keeps W q0 s) (hW : Sub 0x118 W) :
    Keeps W q0 (discardCore core s) := by
  unfold discardCore
  with_reducible repeat' (first
    | assumption | apply dropL2_keeps | apply putDir_keeps | exact sub_of (by assumption) (by decide)
    | refine foldl_keeps _ _ _ ?_ ?_ | split | intro _ _ _)

theorem drainBad_keeps {W : Nat} {q0 : State} (core : Nat) (bad : List Nat) (s : State) (hk : Keeps W q0 s) (hW : Sub 0x200BFD19 W) : Keeps W q0 (drainBad core bad s) := by
  unfold drainBad
  with_reducible repeat' (first
    | assumption | apply dropL2_keeps | apply putDir_keeps | apply writeHome_keeps | apply keepDirty_keeps
    | exact sub_of (by assumption) (by decide) | refine foldl_keeps _ _ _ ?_ ?_ | split | intro _ _ _)

theorem badLinesOf_keeps {W : Nat} {q0 : State} (core kind : Nat) (s : State) (hk : Keeps W q0 s)
    (hW : Sub 0x20000000 W := by first | assumption | exact sub_of (by assumption) (by decide)) :
    Keeps W q0 (badLinesOf core kind s).1 := by
  unfold badLinesOf
  repeat' (first
    | with_reducible assumption | exact sub_of (by assumption) (by decide) | with_reducible apply freeNext_keeps
    | with_reducible refine foldl_keeps _ _ _ ?_ ?_ | with_reducible refine foldl_fst_keeps _ _ _ ?_ ?_ | intro _ _ _
    | intro _ | with_reducible refine keeps_ite _ _ _ ?_ ?_ | split
    | with_reducible refine keeps_fst ?_ (by assumption) | with_reducible refine keeps_fst2 ?_ (by assumption)
    | simp only [])

theorem drainCompared_keeps {W : Nat} {q0 : State} (core : Nat) (s : State) (hk : Keeps W q0 s) (hW : Sub 0x200BFD19 W) : Keeps W q0 (drainCompared core s) := by
  unfold drainCompared
  with_reducible repeat' (first
    | assumption | apply dropL2_keeps | apply putDir_keeps | apply keepDirty_keeps | apply freeNext_keeps
    | apply writeHome_keeps | exact sub_of (by assumption) (by decide) | refine foldl_keeps _ _ _ ?_ ?_ | split
    | simp only [] | intro _ _ _)

theorem fenceHart_keeps {W : Nat} {q0 : State} (p cause det st : Nat) (s : State) (hk : Keeps W q0 s)
    (hW : Sub 0x883079 W := by first | assumption | exact sub_of (by assumption) (by decide)) :
    Keeps W q0 (fenceHart p cause det st s) := by
  unfold fenceHart
  repeat' (first
    | with_reducible assumption | exact sub_of (by assumption) (by decide) | with_reducible apply wr_keeps
    | with_reducible apply recVisible_keeps | with_reducible apply detectedAt_keeps | with_reducible apply event_keeps
    | with_reducible apply setHart_keeps | with_reducible apply modPair_keeps
    | with_reducible apply releaseLibero_keeps | with_reducible apply unbindSlot_keeps
    | with_reducible refine foldl_keeps _ _ _ ?_ ?_ | with_reducible refine foldl_fst_keeps _ _ _ ?_ ?_ | intro _ _ _
    | intro _ | with_reducible refine keeps_ite _ _ _ ?_ ?_ | split
    | with_reducible refine keeps_fst ?_ (by assumption) | with_reducible refine keeps_fst2 ?_ (by assumption)
    | simp only [])

theorem fenceHartDue_keeps {W : Nat} {q0 : State} (p cause det st : Nat) (s : State) (hk : Keeps W q0 s) (hW : Sub
    0x8000000 W) : Keeps W q0 (fenceHartDue p cause det st s) := by
  unfold fenceHartDue
  with_reducible repeat' (first
    | assumption | apply addDue_keeps)

theorem decideAs_keeps {W : Nat} {q0 : State} (p outcome beats : Nat) (s : State) (hk : Keeps W q0 s)
    (hW : Sub 0x280BFF39 W := by first | assumption | exact sub_of (by assumption) (by decide)) :
    Keeps W q0 (decideAs p outcome beats s) := by
  unfold decideAs
  repeat' (first
    | with_reducible assumption | exact sub_of (by assumption) (by decide)
    | with_reducible exact twf_tset _ _ _ _ (by assumption)
    | with_reducible refine keeps_chan (W := W) ?_ _ (by assumption) | with_reducible exact twf_nil _
    | with_reducible refine keeps_ok (W := W) ?_ (by assumption) | with_reducible apply wr_keeps
    | with_reducible apply bump_keeps | with_reducible apply addDue_keeps | with_reducible apply modPair_keeps
    | with_reducible apply serveReady_keeps | with_reducible apply dropOwed_keeps
    | with_reducible apply reserveLibero_keeps | with_reducible apply releaseLibero_keeps
    | with_reducible apply discardCore_keeps | with_reducible apply drainCompared_keeps
    | with_reducible apply fenceHartDue_keeps | with_reducible refine foldl_keeps _ _ _ ?_ ?_
    | with_reducible refine foldl_fst_keeps _ _ _ ?_ ?_ | intro _ _ _ | intro _
    | with_reducible refine keeps_ite _ _ _ ?_ ?_ | split | with_reducible refine keeps_fst ?_ (by assumption)
    | with_reducible refine keeps_fst2 ?_ (by assumption) | simp only [])

theorem decideStep_keeps {W : Nat} {q0 : State} (p step : Nat) (passA passB : Bool) (s : State) (hk : Keeps W q0 s)
    (hW : Sub 0x280BFF39 W := by first | assumption | exact sub_of (by assumption) (by decide)) :
    Keeps W q0 (decideStep p step passA passB s) := by
  unfold decideStep
  repeat' (first
    | with_reducible assumption | exact sub_of (by assumption) (by decide)
    | with_reducible exact twf_tset _ _ _ _ (by assumption)
    | with_reducible refine keeps_chan (W := W) ?_ _ (by assumption) | with_reducible exact twf_nil _
    | with_reducible refine keeps_ok (W := W) ?_ (by assumption) | with_reducible apply wr_keeps
    | with_reducible apply decideAs_keeps | with_reducible refine foldl_keeps _ _ _ ?_ ?_
    | with_reducible refine foldl_fst_keeps _ _ _ ?_ ?_ | intro _ _ _ | intro _
    | with_reducible refine keeps_ite _ _ _ ?_ ?_ | split | with_reducible refine keeps_fst ?_ (by assumption)
    | with_reducible refine keeps_fst2 ?_ (by assumption) | simp only [])

theorem decideFrom_keeps {W : Nat} {q0 : State} (p k step : Nat) (passA passB : Bool) (s : State) (hk : Keeps W q0
    s)
    (hW : Sub 0x280BFF39 W := by first | assumption | exact sub_of (by assumption) (by decide)) :
    Keeps W q0 (decideFrom p k step passA passB s) := by
  unfold decideFrom
  repeat' (first
    | with_reducible assumption | exact sub_of (by assumption) (by decide)
    | with_reducible exact twf_tset _ _ _ _ (by assumption)
    | with_reducible refine keeps_chan (W := W) ?_ _ (by assumption) | with_reducible exact twf_nil _
    | with_reducible refine keeps_ok (W := W) ?_ (by assumption) | with_reducible apply addDue_keeps
    | with_reducible apply decideStep_keeps | with_reducible refine foldl_keeps _ _ _ ?_ ?_
    | with_reducible refine foldl_fst_keeps _ _ _ ?_ ?_ | intro _ _ _ | intro _
    | with_reducible refine keeps_ite _ _ _ ?_ ?_ | split | with_reducible refine keeps_fst ?_ (by assumption)
    | with_reducible refine keeps_fst2 ?_ (by assumption) | simp only [])

theorem captureComplete_keeps {W : Nat} {q0 : State} (p : Nat) (s : State) (hk : Keeps W q0 s)
    (hW : Sub 0x280BFF39 W := by first | assumption | exact sub_of (by assumption) (by decide)) :
    Keeps W q0 (captureComplete p s) := by
  unfold captureComplete
  repeat' (first
    | with_reducible assumption | exact sub_of (by assumption) (by decide)
    | with_reducible exact twf_tset _ _ _ _ (by assumption)
    | with_reducible refine keeps_chan (W := W) ?_ _ (by assumption) | with_reducible exact twf_nil _
    | with_reducible refine keeps_ok (W := W) ?_ (by assumption) | with_reducible apply modPair_keeps
    | with_reducible apply decideFrom_keeps | with_reducible refine foldl_keeps _ _ _ ?_ ?_
    | with_reducible refine foldl_fst_keeps _ _ _ ?_ ?_ | intro _ _ _ | intro _
    | with_reducible refine keeps_ite _ _ _ ?_ ?_ | split | with_reducible refine keeps_fst ?_ (by assumption)
    | with_reducible refine keeps_fst2 ?_ (by assumption) | simp only [])

theorem survivorDrain_keeps {W : Nat} {q0 : State} (p : Nat) (s : State) (hk : Keeps W q0 s)
    (hW : Sub 0x280BFF39 W := by first | assumption | exact sub_of (by assumption) (by decide)) :
    Keeps W q0 (survivorDrain p s) := by
  unfold survivorDrain
  repeat' (first
    | with_reducible assumption | exact sub_of (by assumption) (by decide)
    | with_reducible exact twf_tset _ _ _ _ (by assumption)
    | with_reducible refine keeps_chan (W := W) ?_ _ (by assumption) | with_reducible exact twf_nil _
    | with_reducible refine keeps_ok (W := W) ?_ (by assumption) | with_reducible apply wr_keeps
    | with_reducible apply modPair_keeps | with_reducible apply serveReady_keeps | with_reducible apply dropOwed_keeps
    | with_reducible apply drainCore_keeps | with_reducible apply discardCore_keeps
    | with_reducible apply fenceHartDue_keeps | with_reducible refine foldl_keeps _ _ _ ?_ ?_
    | with_reducible refine foldl_fst_keeps _ _ _ ?_ ?_ | intro _ _ _ | intro _
    | with_reducible refine keeps_ite _ _ _ ?_ ?_ | split | with_reducible refine keeps_fst ?_ (by assumption)
    | with_reducible refine keeps_fst2 ?_ (by assumption) | simp only [])

theorem stateCopyDone_keeps {W : Nat} {q0 : State} (p : Nat) (ok : Bool) (s : State) (hk : Keeps W q0 s)
    (hW : Sub 0x8000020 W := by first | assumption | exact sub_of (by assumption) (by decide)) :
    Keeps W q0 (stateCopyDone p ok s) := by
  unfold stateCopyDone
  repeat' (first
    | with_reducible assumption | exact sub_of (by assumption) (by decide) | with_reducible apply modPair_keeps
    | with_reducible apply fenceHartDue_keeps | with_reducible refine foldl_keeps _ _ _ ?_ ?_
    | with_reducible refine foldl_fst_keeps _ _ _ ?_ ?_ | intro _ _ _ | intro _
    | with_reducible refine keeps_ite _ _ _ ?_ ?_ | split | with_reducible refine keeps_fst ?_ (by assumption)
    | with_reducible refine keeps_fst2 ?_ (by assumption) | simp only [])

theorem notParked_keeps {W : Nat} {q0 : State} (h mbx : Nat) (s : State) (hk : Keeps W q0 s)
    (hW : Sub 0x1001 W := by first | assumption | exact sub_of (by assumption) (by decide)) :
    Keeps W q0 (notParked h mbx s) := by
  unfold notParked
  repeat' (first
    | with_reducible assumption | exact sub_of (by assumption) (by decide) | with_reducible apply stageDone_keeps
    | with_reducible refine foldl_keeps _ _ _ ?_ ?_ | with_reducible refine foldl_fst_keeps _ _ _ ?_ ?_ | intro _ _ _
    | intro _ | with_reducible refine keeps_ite _ _ _ ?_ ?_ | split
    | with_reducible refine keeps_fst ?_ (by assumption) | with_reducible refine keeps_fst2 ?_ (by assumption)
    | simp only [])

theorem stopHart_keeps {W : Nat} {q0 : State} (h mbx : Nat) (s : State) (hk : Keeps W q0 s)
    (hW : Sub 0x8001029 W := by first | assumption | exact sub_of (by assumption) (by decide)) :
    Keeps W q0 (stopHart h mbx s) := by
  unfold stopHart
  repeat' (first
    | with_reducible assumption | exact sub_of (by assumption) (by decide) | with_reducible apply addDue_keeps
    | with_reducible apply setHart_keeps | with_reducible apply modPair_keeps | with_reducible apply notParked_keeps
    | with_reducible refine foldl_keeps _ _ _ ?_ ?_ | with_reducible refine foldl_fst_keeps _ _ _ ?_ ?_ | intro _ _ _
    | intro _ | with_reducible refine keeps_ite _ _ _ ?_ ?_ | split
    | with_reducible refine keeps_fst ?_ (by assumption) | with_reducible refine keeps_fst2 ?_ (by assumption)
    | simp only [])

theorem hartResume_keeps {W : Nat} {q0 : State} (p : Nat) (s : State) (hk : Keeps W q0 s)
    (hW : Sub 0x8883239 W := by first | assumption | exact sub_of (by assumption) (by decide)) :
    Keeps W q0 (hartResume p s) := by
  unfold hartResume
  repeat' (first
    | with_reducible assumption | exact sub_of (by assumption) (by decide) | with_reducible apply wr_keeps
    | with_reducible apply recContained_keeps | with_reducible apply detectedAt_keeps
    | with_reducible apply event_keeps | with_reducible apply setHart_keeps | with_reducible apply setPair_keeps
    | with_reducible apply needClass_keeps | with_reducible apply showHart_keeps
    | with_reducible apply freshCores_keeps | with_reducible apply wakeFiles_keeps
    | with_reducible apply noteSpare_keeps | with_reducible apply stopHart_keeps
    | with_reducible refine foldl_keeps _ _ _ ?_ ?_ | with_reducible refine foldl_fst_keeps _ _ _ ?_ ?_ | intro _ _ _
    | intro _ | with_reducible refine keeps_ite _ _ _ ?_ ?_ | split
    | with_reducible refine keeps_fst ?_ (by assumption) | with_reducible refine keeps_fst2 ?_ (by assumption)
    | simp only [])

theorem splitError_keeps {W : Nat} {q0 : State} (p core kind : Nat) (bad : List Nat) (s : State) (hk : Keeps W q0 s)
    (hW : Sub 0x208BFD19 W := by first | assumption | exact sub_of (by assumption) (by decide)) :
    Keeps W q0 (splitError p core kind bad s) := by
  unfold splitError
  repeat' (first
    | with_reducible assumption | exact sub_of (by assumption) (by decide)
    | with_reducible exact twf_tset _ _ _ _ (by assumption)
    | with_reducible refine keeps_chan (W := W) ?_ _ (by assumption) | with_reducible exact twf_nil _
    | with_reducible refine keeps_ok (W := W) ?_ (by assumption) | with_reducible apply wr_keeps
    | with_reducible apply recVisible_keeps | with_reducible apply event_keeps | with_reducible apply setHart_keeps
    | with_reducible apply showPair_keeps | with_reducible apply drainBad_keeps
    | with_reducible refine foldl_keeps _ _ _ ?_ ?_ | with_reducible refine foldl_fst_keeps _ _ _ ?_ ?_ | intro _ _ _
    | intro _ | with_reducible refine keeps_ite _ _ _ ?_ ?_ | split
    | with_reducible refine keeps_fst ?_ (by assumption) | with_reducible refine keeps_fst2 ?_ (by assumption)
    | simp only [])

theorem arrayFault_keeps {W : Nat} {q0 : State} (p core kind : Nat) (s : State) (hk : Keeps W q0 s)
    (hW : Sub 0x288BFD39 W := by first | assumption | exact sub_of (by assumption) (by decide)) :
    Keeps W q0 (arrayFault p core kind s) := by
  unfold arrayFault
  repeat' (first
    | with_reducible assumption | exact sub_of (by assumption) (by decide)
    | with_reducible exact twf_tset _ _ _ _ (by assumption)
    | with_reducible refine keeps_chan (W := W) ?_ _ (by assumption) | with_reducible exact twf_nil _
    | with_reducible refine keeps_ok (W := W) ?_ (by assumption) | with_reducible apply wr_keeps
    | with_reducible apply bump_keeps | with_reducible apply setHart_keeps | with_reducible apply modPair_keeps
    | with_reducible apply freeze_keeps | with_reducible apply drainBad_keeps | with_reducible apply badLinesOf_keeps
    | with_reducible apply fenceHartDue_keeps | with_reducible apply splitError_keeps
    | with_reducible refine foldl_keeps _ _ _ ?_ ?_ | with_reducible refine foldl_fst_keeps _ _ _ ?_ ?_ | intro _ _ _
    | intro _ | with_reducible refine keeps_ite _ _ _ ?_ ?_ | split
    | with_reducible refine keeps_fst ?_ (by assumption) | with_reducible refine keeps_fst2 ?_ (by assumption)
    | simp only [])

theorem applyMode_keeps {W : Nat} {q0 : State} (n m : Nat) (s : State) (hk : Keeps W q0 s)
    (hW : Sub 0x200BFD19 W := by first | assumption | exact sub_of (by assumption) (by decide)) :
    Keeps W q0 (applyMode n m s) := by
  unfold applyMode
  repeat' (first
    | with_reducible assumption | exact sub_of (by assumption) (by decide)
    | with_reducible exact twf_tset _ _ _ _ (by assumption)
    | with_reducible refine keeps_chan (W := W) ?_ _ (by assumption) | with_reducible exact twf_nil _
    | with_reducible refine keeps_ok (W := W) ?_ (by assumption) | with_reducible apply wr_keeps
    | with_reducible apply setHart_keeps | with_reducible apply setCore_keeps | with_reducible apply newSeed_keeps
    | with_reducible apply drainCore_keeps | with_reducible refine foldl_keeps _ _ _ ?_ ?_
    | with_reducible refine foldl_fst_keeps _ _ _ ?_ ?_ | intro _ _ _ | intro _
    | with_reducible refine keeps_ite _ _ _ ?_ ?_ | split | with_reducible refine keeps_fst ?_ (by assumption)
    | with_reducible refine keeps_fst2 ?_ (by assumption) | simp only [])

theorem resetDz_keeps {W : Nat} {q0 : State} (h : Nat) (s : State) (hk : Keeps W q0 s)
    (hW : Sub 0x1 W := by first | assumption | exact sub_of (by assumption) (by decide)) :
    Keeps W q0 (resetDz h s) := by
  unfold resetDz
  repeat' (first
    | with_reducible assumption | exact sub_of (by assumption) (by decide) | with_reducible apply wr_keeps
    | with_reducible refine foldl_keeps _ _ _ ?_ ?_ | with_reducible refine foldl_fst_keeps _ _ _ ?_ ?_ | intro _ _ _
    | intro _ | with_reducible refine keeps_ite _ _ _ ?_ ?_ | split
    | with_reducible refine keeps_fst ?_ (by assumption) | with_reducible refine keeps_fst2 ?_ (by assumption)
    | simp only [])

theorem startHart_keeps {W : Nat} {q0 : State} (h pc opaq : Nat) (s : State) (hk : Keeps W q0 s)
    (hW : Sub 0x419 W := by first | assumption | exact sub_of (by assumption) (by decide)) :
    Keeps W q0 (startHart h pc opaq s) := by
  unfold startHart
  repeat' (first
    | with_reducible assumption | exact sub_of (by assumption) (by decide) | with_reducible apply setHart_keeps
    | with_reducible apply rekey_keeps | with_reducible apply showHart_keeps | with_reducible apply showSlot_keeps
    | with_reducible apply resetDz_keeps | with_reducible refine foldl_keeps _ _ _ ?_ ?_
    | with_reducible refine foldl_fst_keeps _ _ _ ?_ ?_ | intro _ _ _ | intro _
    | with_reducible refine keeps_ite _ _ _ ?_ ?_ | split | with_reducible refine keeps_fst ?_ (by assumption)
    | with_reducible refine keeps_fst2 ?_ (by assumption) | simp only [])

theorem hartOffline_keeps {W : Nat} {q0 : State} (h : Nat) (s : State) (hk : Keeps W q0 s)
    (hW : Sub 0x439 W := by first | assumption | exact sub_of (by assumption) (by decide)) :
    Keeps W q0 (hartOffline h s) := by
  unfold hartOffline
  repeat' (first
    | with_reducible assumption | exact sub_of (by assumption) (by decide) | with_reducible apply setHart_keeps
    | with_reducible apply modPair_keeps | with_reducible apply showPair_keeps
    | with_reducible refine foldl_keeps _ _ _ ?_ ?_ | with_reducible refine foldl_fst_keeps _ _ _ ?_ ?_ | intro _ _ _
    | intro _ | with_reducible refine keeps_ite _ _ _ ?_ ?_ | split
    | with_reducible refine keeps_fst ?_ (by assumption) | with_reducible refine keeps_fst2 ?_ (by assumption)
    | simp only [])

theorem parkDrains_keeps {W : Nat} {q0 : State} (p : Nat) (s : State) (hk : Keeps W q0 s)
    (hW : Sub 0x280BFD39 W := by first | assumption | exact sub_of (by assumption) (by decide)) :
    Keeps W q0 (parkDrains p s) := by
  unfold parkDrains
  repeat' (first
    | with_reducible assumption | exact sub_of (by assumption) (by decide)
    | with_reducible exact twf_tset _ _ _ _ (by assumption)
    | with_reducible refine keeps_chan (W := W) ?_ _ (by assumption) | with_reducible exact twf_nil _
    | with_reducible refine keeps_ok (W := W) ?_ (by assumption) | with_reducible apply addDue_keeps
    | with_reducible apply modPair_keeps | with_reducible apply drainTrips_keeps
    | with_reducible apply drainCore_keeps | with_reducible apply notParked_keeps
    | with_reducible refine foldl_keeps _ _ _ ?_ ?_ | with_reducible refine foldl_fst_keeps _ _ _ ?_ ?_ | intro _ _ _
    | intro _ | with_reducible refine keeps_ite _ _ _ ?_ ?_ | split
    | with_reducible refine keeps_fst ?_ (by assumption) | with_reducible refine keeps_fst2 ?_ (by assumption)
    | simp only [])

theorem drainDone_keeps {W : Nat} {q0 : State} (p : Nat) (s : State) (hk : Keeps W q0 s) (hW : Sub 0x280BFF39 W) :
    Keeps W q0 (drainDone p s) := by
  unfold drainDone
  with_reducible repeat' (first
    | assumption | apply survivorDrain_keeps | apply parkDrains_keeps | exact sub_of (by assumption) (by decide)
    | split)

theorem coreMode_keeps {W : Nat} {q0 : State} (i : Nat) (c : Bytes) (s : State) (hk : Keeps W q0 s) (hW : Sub
    0x10001001 W) : Keeps W q0 (coreMode i c s) := by
  unfold coreMode
  with_reducible repeat' (first
    | assumption | apply stageDone_keeps | apply addStep_keeps | exact sub_of (by assumption) (by decide) | split
    | simp only [])

theorem coreStart_keeps {W : Nat} {q0 : State} (i : Nat) (c : Bytes) (s : State) (hk : Keeps W q0 s)
    (hW : Sub 0x18001001 W := by first | assumption | exact sub_of (by assumption) (by decide)) :
    Keeps W q0 (coreStart i c s) := by
  unfold coreStart
  repeat' (first
    | with_reducible assumption | exact sub_of (by assumption) (by decide) | with_reducible apply addDue_keeps
    | with_reducible apply addStep_keeps | with_reducible apply stageDone_keeps
    | with_reducible refine foldl_keeps _ _ _ ?_ ?_ | with_reducible refine foldl_fst_keeps _ _ _ ?_ ?_ | intro _ _ _
    | intro _ | with_reducible refine keeps_ite _ _ _ ?_ ?_ | split
    | with_reducible refine keeps_fst ?_ (by assumption) | with_reducible refine keeps_fst2 ?_ (by assumption)
    | simp only [])

theorem startFor_keeps {W : Nat} {q0 : State} (i h pc opaq : Nat) (own : Option Nat) (s : State) (hk : Keeps W q0 s)
    (hW : Sub 0x1419 W := by first | assumption | exact sub_of (by assumption) (by decide)) :
    Keeps W q0 (startFor i h pc opaq own s) := by
  unfold startFor
  repeat' (first
    | with_reducible assumption | exact sub_of (by assumption) (by decide)
    | with_reducible exact twf_tset _ _ _ _ (by assumption)
    | with_reducible refine keeps_chan (W := W) ?_ _ (by assumption) | with_reducible exact twf_nil _
    | with_reducible refine keeps_ok (W := W) ?_ (by assumption) | with_reducible apply stageDone_keeps
    | with_reducible apply startHart_keeps | with_reducible refine foldl_keeps _ _ _ ?_ ?_
    | with_reducible refine foldl_fst_keeps _ _ _ ?_ ?_ | intro _ _ _ | intro _
    | with_reducible refine keeps_ite _ _ _ ?_ ?_ | split | with_reducible refine keeps_fst ?_ (by assumption)
    | with_reducible refine keeps_fst2 ?_ (by assumption) | simp only [])

theorem corePark_keeps {W : Nat} {q0 : State} (i : Nat) (c : Bytes) (s : State) (hk : Keeps W q0 s) (hW : Sub
    0x10001801 W) : Keeps W q0 (corePark i c s) := by
  unfold corePark
  with_reducible repeat' (first
    | assumption | apply stageDone_keeps | apply addStep_keeps | apply stopHart_keeps | apply sealNotice_keeps
    | exact sub_of (by assumption) (by decide) | split | simp only [])

theorem coreStatus_keeps {W : Nat} {q0 : State} (i : Nat) (c : Bytes) (s : State) (hk : Keeps W q0 s) (hW : Sub
    0x1001 W) : Keeps W q0 (coreStatus i c s) := by
  unfold coreStatus
  with_reducible repeat' (first | assumption | apply stageDone_keeps)

theorem coreRequalify_keeps {W : Nat} {q0 : State} (i : Nat) (c : Bytes) (s : State) (hk : Keeps W q0 s) (hW : Sub
    0x1021 W) : Keeps W q0 (coreRequalify i c s) := by
  unfold coreRequalify
  with_reducible repeat' (first
    | assumption | apply stageDone_keeps | apply wr_keeps | apply modPair_keeps
    | exact sub_of (by assumption) (by decide) | split | simp only [])

theorem requalified_keeps {W : Nat} {q0 : State} (p i : Nat) (s : State) (hk : Keeps W q0 s)
    (hW : Sub 0x8000079 W := by first | assumption | exact sub_of (by assumption) (by decide)) :
    Keeps W q0 (requalified p i s) := by
  unfold requalified
  repeat' (first
    | with_reducible assumption | exact sub_of (by assumption) (by decide) | with_reducible apply wr_keeps
    | with_reducible apply addDue_keeps | with_reducible apply setHart_keeps | with_reducible apply modPair_keeps
    | with_reducible apply freshCores_keeps | with_reducible apply makeSpare_keeps
    | with_reducible apply rebindSlots_keeps | with_reducible refine foldl_keeps _ _ _ ?_ ?_
    | with_reducible refine foldl_fst_keeps _ _ _ ?_ ?_ | intro _ _ _ | intro _
    | with_reducible refine keeps_ite _ _ _ ?_ ?_ | split | with_reducible refine keeps_fst ?_ (by assumption)
    | with_reducible refine keeps_fst2 ?_ (by assumption) | simp only [])

theorem bistResult_keeps {W : Nat} {q0 : State} (p : Nat) (a b : Bool) (s : State) (hk : Keeps W q0 s)
    (hW : Sub 0x280BFF39 W := by first | assumption | exact sub_of (by assumption) (by decide)) :
    Keeps W q0 (bistResult p a b s) := by
  unfold bistResult
  repeat' (first
    | with_reducible assumption | exact sub_of (by assumption) (by decide)
    | with_reducible exact twf_tset _ _ _ _ (by assumption)
    | with_reducible refine keeps_chan (W := W) ?_ _ (by assumption) | with_reducible exact twf_nil _
    | with_reducible refine keeps_ok (W := W) ?_ (by assumption) | with_reducible apply wr_keeps
    | with_reducible apply decideFrom_keeps | with_reducible refine foldl_keeps _ _ _ ?_ ?_
    | with_reducible refine foldl_fst_keeps _ _ _ ?_ ?_ | intro _ _ _ | intro _
    | with_reducible refine keeps_ite _ _ _ ?_ ?_ | split | with_reducible refine keeps_fst ?_ (by assumption)
    | with_reducible refine keeps_fst2 ?_ (by assumption) | simp only [])

theorem marchResult_keeps {W : Nat} {q0 : State} (p : Nat) (a b : Bool) (s : State) (hk : Keeps W q0 s)
    (hW : Sub 0x280BFF79 W := by first | assumption | exact sub_of (by assumption) (by decide)) :
    Keeps W q0 (marchResult p a b s) := by
  unfold marchResult
  repeat' (first
    | with_reducible assumption | exact sub_of (by assumption) (by decide)
    | with_reducible exact twf_tset _ _ _ _ (by assumption)
    | with_reducible refine keeps_chan (W := W) ?_ _ (by assumption) | with_reducible exact twf_nil _
    | with_reducible refine keeps_ok (W := W) ?_ (by assumption) | with_reducible apply wr_keeps
    | with_reducible apply decideFrom_keeps | with_reducible apply requalified_keeps
    | with_reducible refine foldl_keeps _ _ _ ?_ ?_ | with_reducible refine foldl_fst_keeps _ _ _ ?_ ?_ | intro _ _ _
    | intro _ | with_reducible refine keeps_ite _ _ _ ?_ ?_ | split
    | with_reducible refine keeps_fst ?_ (by assumption) | with_reducible refine keeps_fst2 ?_ (by assumption)
    | simp only [])

theorem corePolicy_keeps {W : Nat} {q0 : State} (i : Nat) (c : Bytes) (s : State) (hk : Keeps W q0 s) (hW : Sub
    0x1081 W) : Keeps W q0 (corePolicy i c s) := by
  unfold corePolicy
  with_reducible repeat' (first
    | assumption | apply stageDone_keeps | exact sub_of (by assumption) (by decide)
    | refine keeps_lit (by assumption) ?_)

theorem injectB_keeps {W : Nat} {q0 : State} (p : Nat) (s : State) (hk : Keeps W q0 s)
    (hW : Sub 0x21 W := by first | assumption | exact sub_of (by assumption) (by decide)) :
    Keeps W q0 (injectB p s) := by
  unfold injectB
  repeat' (first
    | with_reducible assumption | exact sub_of (by assumption) (by decide) | with_reducible apply wr_keeps
    | with_reducible apply modPair_keeps | with_reducible refine foldl_keeps _ _ _ ?_ ?_
    | with_reducible refine foldl_fst_keeps _ _ _ ?_ ?_ | intro _ _ _ | intro _
    | with_reducible refine keeps_ite _ _ _ ?_ ?_ | split | with_reducible refine keeps_fst ?_ (by assumption)
    | with_reducible refine keeps_fst2 ?_ (by assumption) | simp only [])

/-! ## Hart -/

theorem wrsWait_keeps {W : Nat} {q0 : State} (h : Nat) (w : WrsWait) (s : State) (hk : Keeps W q0 s)
    (hW : Sub 0x8 W := by first | assumption | exact sub_of (by assumption) (by decide)) :
    Keeps W q0 (wrsWait h w s) := by
  unfold wrsWait
  repeat' (first
    | with_reducible assumption | exact sub_of (by assumption) (by decide) | with_reducible apply setHart_keeps
    | with_reducible apply countInst_keeps | with_reducible refine foldl_keeps _ _ _ ?_ ?_
    | with_reducible refine foldl_fst_keeps _ _ _ ?_ ?_ | intro _ _ _ | intro _
    | with_reducible refine keeps_ite _ _ _ ?_ ?_ | split | with_reducible refine keeps_fst ?_ (by assumption)
    | with_reducible refine keeps_fst2 ?_ (by assumption) | simp only [])

theorem wrsTimeout_keeps {W : Nat} {q0 : State} (h ns : Nat) (s : State) (hk : Keeps W q0 s) (hW : Sub 0x8 W) : Keeps
    W q0 (wrsTimeout h ns s) := by
  unfold wrsTimeout
  with_reducible repeat' (first
    | assumption | apply setHart_keeps | exact sub_of (by assumption) (by decide) | split | simp only [])

theorem judgeIdle_keeps {W : Nat} {q0 : State} (s : State) (hk : Keeps W q0 s) (hW : Sub 0x1 W) : Keeps W q0
    (judgeIdle s) := by
  unfold judgeIdle
  with_reducible repeat' (first | assumption | apply wr_keeps | exact sub_of (by assumption) (by decide) | split)

theorem wfi_keeps {W : Nat} {q0 : State} (h : Nat) (s : State) (hk : Keeps W q0 s)
    (hW : Sub 0x9 W := by first | assumption | exact sub_of (by assumption) (by decide)) :
    Keeps W q0 (wfi h s) := by
  unfold wfi
  repeat' (first
    | with_reducible assumption | exact sub_of (by assumption) (by decide) | with_reducible apply setHart_keeps
    | with_reducible apply countInst_keeps | with_reducible apply judgeIdle_keeps
    | with_reducible refine foldl_keeps _ _ _ ?_ ?_ | with_reducible refine foldl_fst_keeps _ _ _ ?_ ?_ | intro _ _ _
    | intro _ | with_reducible refine keeps_ite _ _ _ ?_ ?_ | split
    | with_reducible refine keeps_fst ?_ (by assumption) | with_reducible refine keeps_fst2 ?_ (by assumption)
    | simp only [])

theorem wakeHart_keeps {W : Nat} {q0 : State} (h : Nat) (s : State) (hk : Keeps W q0 s) (hW : Sub 0x9 W) : Keeps W q0
    (wakeHart h s) := by
  unfold wakeHart
  with_reducible repeat' (first
    | assumption | apply judgeIdle_keeps | apply setHart_keeps | apply wfi_keeps
    | exact sub_of (by assumption) (by decide) | split)

theorem takeInterrupt_keeps {W : Nat} {q0 : State} (h irq pc : Nat) (s : State) (hk : Keeps W q0 s)
    (hW : Sub 0x419 W := by first | assumption | exact sub_of (by assumption) (by decide)) :
    Keeps W q0 (takeInterrupt h irq pc s) := by
  unfold takeInterrupt
  repeat' (first
    | with_reducible assumption | exact sub_of (by assumption) (by decide)
    | with_reducible exact twf_tset _ _ _ _ (by assumption)
    | with_reducible refine keeps_chan (W := W) ?_ _ (by assumption) | with_reducible exact twf_nil _
    | with_reducible refine keeps_ok (W := W) ?_ (by assumption) | with_reducible apply setHart_keeps
    | with_reducible apply dropAccess_keeps | with_reducible apply raise_keeps | with_reducible apply wakeHart_keeps
    | with_reducible refine foldl_keeps _ _ _ ?_ ?_ | with_reducible refine foldl_fst_keeps _ _ _ ?_ ?_ | intro _ _ _
    | intro _ | with_reducible refine keeps_ite _ _ _ ?_ ?_ | split
    | with_reducible refine keeps_fst ?_ (by assumption) | with_reducible refine keeps_fst2 ?_ (by assumption)
    | simp only [])

theorem msiWrite_keeps {W : Nat} {q0 : State} (tag h file ident : Nat) (s : State) (hk : Keeps W q0 s) (hW : Sub
    0x82009 W) : Keeps W q0 (msiWrite tag h file ident s) := by
  unfold msiWrite
  with_reducible repeat' (first
    | assumption | apply setHart_keeps | apply wakeHart_keeps | apply recRefusal_keeps
    | exact sub_of (by assumption) (by decide) | split | simp only [])

theorem entropyFail_keeps {W : Nat} {q0 : State} (t : Nat) (s : State) (hk : Keeps W q0 s) (hW : Sub 0x82003 W) :
    Keeps W q0 (entropyFail t s) := by
  unfold entropyFail
  with_reducible repeat' (first
    | assumption | apply recContained_keeps | exact sub_of (by assumption) (by decide) | split
    | refine keeps_lit (by assumption) ?_)

theorem seedRead_keeps {W : Nat} {q0 : State} (h rd' : Nat) (ready : Bool) (s : State) (hk : Keeps W q0 s)
    (hW : Sub 0x20000418 W := by first | assumption | exact sub_of (by assumption) (by decide)) :
    Keeps W q0 (seedRead h rd' ready s) := by
  unfold seedRead
  repeat' (first
    | with_reducible assumption | exact sub_of (by assumption) (by decide)
    | with_reducible exact twf_tset _ _ _ _ (by assumption)
    | with_reducible refine keeps_chan (W := W) ?_ _ (by assumption) | with_reducible exact twf_nil _
    | with_reducible refine keeps_ok (W := W) ?_ (by assumption) | with_reducible apply freeNext_keeps
    | with_reducible apply setX_keeps | with_reducible apply countInst_keeps | with_reducible apply raiseInstr_keeps
    | with_reducible refine foldl_keeps _ _ _ ?_ ?_ | with_reducible refine foldl_fst_keeps _ _ _ ?_ ?_ | intro _ _ _
    | intro _ | with_reducible refine keeps_ite _ _ _ ?_ ?_ | split
    | with_reducible refine keeps_fst ?_ (by assumption) | with_reducible refine keeps_fst2 ?_ (by assumption)
    | simp only [])

theorem satpWrite_keeps {W : Nat} {q0 : State} (h c v : Nat) (s : State) (hk : Keeps W q0 s)
    (hW : Sub 0x8 W := by first | assumption | exact sub_of (by assumption) (by decide)) :
    Keeps W q0 (satpWrite h c v s) := by
  unfold satpWrite
  repeat' (first
    | with_reducible assumption | exact sub_of (by assumption) (by decide) | with_reducible apply setCsr_keeps
    | with_reducible refine foldl_keeps _ _ _ ?_ ?_ | with_reducible refine foldl_fst_keeps _ _ _ ?_ ?_ | intro _ _ _
    | intro _ | with_reducible refine keeps_ite _ _ _ ?_ ?_ | split
    | with_reducible refine keeps_fst ?_ (by assumption) | with_reducible refine keeps_fst2 ?_ (by assumption)
    | simp only [])

theorem hgatpWrite_keeps {W : Nat} {q0 : State} (h v : Nat) (s : State) (hk : Keeps W q0 s)
    (hW : Sub 0x8 W := by first | assumption | exact sub_of (by assumption) (by decide)) :
    Keeps W q0 (hgatpWrite h v s) := by
  unfold hgatpWrite
  repeat' (first
    | with_reducible assumption | exact sub_of (by assumption) (by decide) | with_reducible apply setCsr_keeps
    | with_reducible refine foldl_keeps _ _ _ ?_ ?_ | with_reducible refine foldl_fst_keeps _ _ _ ?_ ?_ | intro _ _ _
    | intro _ | with_reducible refine keeps_ite _ _ _ ?_ ?_ | split
    | with_reducible refine keeps_fst ?_ (by assumption) | with_reducible refine keeps_fst2 ?_ (by assumption)
    | simp only [])

theorem keyUpdate_keeps {W : Nat} {q0 : State} (h : Nat) (c : KeyCause) (s : State) (hk : Keeps W q0 s)
    (hW : Sub 0x8 W := by first | assumption | exact sub_of (by assumption) (by decide)) :
    Keeps W q0 (keyUpdate h c s) := by
  unfold keyUpdate
  repeat' (first
    | with_reducible assumption | exact sub_of (by assumption) (by decide) | with_reducible apply setHart_keeps
    | with_reducible apply countInst_keeps | with_reducible apply rekey_keeps | with_reducible apply satpWrite_keeps
    | with_reducible apply hgatpWrite_keeps | with_reducible refine foldl_keeps _ _ _ ?_ ?_
    | with_reducible refine foldl_fst_keeps _ _ _ ?_ ?_ | intro _ _ _ | intro _
    | with_reducible refine keeps_ite _ _ _ ?_ ?_ | split | with_reducible refine keeps_fst ?_ (by assumption)
    | with_reducible refine keeps_fst2 ?_ (by assumption) | simp only [])

theorem branchRetire_keeps {W : Nat} {q0 : State} (h pc len target kind : Nat) (taken : Bool) (s : State) (hk :
    Keeps W q0 s)
    (hW : Sub 0x20000418 W := by first | assumption | exact sub_of (by assumption) (by decide)) :
    Keeps W q0 (branchRetire h pc len target kind taken s) := by
  unfold branchRetire
  repeat' (first
    | with_reducible assumption | exact sub_of (by assumption) (by decide)
    | with_reducible exact twf_tset _ _ _ _ (by assumption)
    | with_reducible refine keeps_chan (W := W) ?_ _ (by assumption) | with_reducible exact twf_nil _
    | with_reducible refine keeps_ok (W := W) ?_ (by assumption) | with_reducible apply freeNext_keeps
    | with_reducible apply setCore_keeps | with_reducible apply countEvent_keeps
    | with_reducible apply countInst_keeps | with_reducible apply flush_keeps | with_reducible apply dropAccess_keeps
    | with_reducible refine foldl_keeps _ _ _ ?_ ?_ | with_reducible refine foldl_fst_keeps _ _ _ ?_ ?_ | intro _ _ _
    | intro _ | with_reducible refine keeps_ite _ _ _ ?_ ?_ | split
    | with_reducible refine keeps_fst ?_ (by assumption) | with_reducible refine keeps_fst2 ?_ (by assumption)
    | simp only [])

theorem usefulHalving_keeps {W : Nat} {q0 : State} (core : Nat) (s : State) (hk : Keeps W q0 s) (hW : Sub 0x10 W) :
    Keeps W q0 (usefulHalving core s) := by
  unfold usefulHalving
  with_reducible repeat' (first
    | assumption | apply setCore_keeps | exact sub_of (by assumption) (by decide) | split | simp only [])

theorem predClear_keeps {W : Nat} {q0 : State} (h : Nat) (s : State) (hk : Keeps W q0 s)
    (hW : Sub 0x20000418 W := by first | assumption | exact sub_of (by assumption) (by decide)) :
    Keeps W q0 (predClear h s) := by
  unfold predClear
  repeat' (first
    | with_reducible assumption | exact sub_of (by assumption) (by decide) | with_reducible apply countN_keeps
    | with_reducible apply countInst_keeps | with_reducible apply raiseInstr_keeps
    | with_reducible apply coldPred_keeps | with_reducible refine foldl_keeps _ _ _ ?_ ?_
    | with_reducible refine foldl_fst_keeps _ _ _ ?_ ?_ | intro _ _ _ | intro _
    | with_reducible refine keeps_ite _ _ _ ?_ ?_ | split | with_reducible refine keeps_fst ?_ (by assumption)
    | with_reducible refine keeps_fst2 ?_ (by assumption) | simp only [])

theorem csrM_keeps {W : Nat} {q0 : State} (h : Nat) (f : State → State) (s : State) (h_f : ∀ a, Keeps W q0 a → Keeps
    W q0 (f a)) (hk : Keeps W q0 s)
    (hW : Sub 0x20000418 W := by first | assumption | exact sub_of (by assumption) (by decide)) :
    Keeps W q0 (csrM h f s) := by
  unfold csrM
  repeat' (first
    | with_reducible assumption | exact sub_of (by assumption) (by decide) | with_reducible apply countInst_keeps
    | with_reducible apply raiseInstr_keeps | with_reducible apply h_f | with_reducible refine foldl_keeps _ _ _ ?_ ?_
    | with_reducible refine foldl_fst_keeps _ _ _ ?_ ?_ | intro _ _ _ | intro _
    | with_reducible refine keeps_ite _ _ _ ?_ ?_ | split | with_reducible refine keeps_fst ?_ (by assumption)
    | with_reducible refine keeps_fst2 ?_ (by assumption) | simp only [])

theorem dbypassOn_keeps {W : Nat} {q0 : State} (h : Nat) (a : State) (hk : Keeps W q0 a)
    (hW : Sub 0x200BFD39 W := by first | assumption | exact sub_of (by assumption) (by decide)) :
    Keeps W q0 (dbypassOn h a) := by
  unfold dbypassOn
  repeat' (first
    | with_reducible assumption | exact sub_of (by assumption) (by decide)
    | with_reducible exact twf_tset _ _ _ _ (by assumption)
    | with_reducible refine keeps_chan (W := W) ?_ _ (by assumption) | with_reducible exact twf_nil _
    | with_reducible refine keeps_ok (W := W) ?_ (by assumption) | with_reducible apply wr_keeps
    | with_reducible apply freeNext_keeps | with_reducible apply countN_keeps | with_reducible apply drainTrips_keeps
    | with_reducible apply drainCore_keeps | with_reducible refine foldl_keeps _ _ _ ?_ ?_
    | with_reducible refine foldl_fst_keeps _ _ _ ?_ ?_ | intro _ _ _ | intro _
    | with_reducible refine keeps_ite _ _ _ ?_ ?_ | split | with_reducible refine keeps_fst ?_ (by assumption)
    | with_reducible refine keeps_fst2 ?_ (by assumption) | simp only [])

theorem bypassSet_keeps {W : Nat} {q0 : State} (h : Nat) (s : State) (hk : Keeps W q0 s)
    (hW : Sub 0x200BFD39 W := by first | assumption | exact sub_of (by assumption) (by decide)) :
    Keeps W q0 (bypassSet h s) := by
  unfold bypassSet
  repeat' (first
    | with_reducible assumption | exact sub_of (by assumption) (by decide)
    | with_reducible exact twf_tset _ _ _ _ (by assumption)
    | with_reducible refine keeps_chan (W := W) ?_ _ (by assumption) | with_reducible exact twf_nil _
    | with_reducible refine keeps_ok (W := W) ?_ (by assumption) | with_reducible apply csrM_keeps
    | with_reducible apply dbypassOn_keeps | with_reducible refine foldl_keeps _ _ _ ?_ ?_
    | with_reducible refine foldl_fst_keeps _ _ _ ?_ ?_ | intro _ _ _ | intro _
    | with_reducible refine keeps_ite _ _ _ ?_ ?_ | split | with_reducible refine keeps_fst ?_ (by assumption)
    | with_reducible refine keeps_fst2 ?_ (by assumption) | simp only [])

theorem bypassClear_keeps {W : Nat} {q0 : State} (h : Nat) (s : State) (hk : Keeps W q0 s) (hW : Sub 0x20000419 W) : Keeps W
    q0 (bypassClear h s) := by
  unfold bypassClear
  with_reducible repeat' (first
    | assumption | apply csrM_keeps | apply wr_keeps | exact sub_of (by assumption) (by decide) | intro _ _ _
    | intro _)

theorem ibypassOn_keeps {W : Nat} {q0 : State} (h : Nat) (a : State) (hk : Keeps W q0 a)
    (hW : Sub 0x11 W := by first | assumption | exact sub_of (by assumption) (by decide)) :
    Keeps W q0 (ibypassOn h a) := by
  unfold ibypassOn
  repeat' (first
    | with_reducible assumption | exact sub_of (by assumption) (by decide) | with_reducible apply wr_keeps
    | with_reducible apply setCore_keeps | with_reducible refine foldl_keeps _ _ _ ?_ ?_
    | with_reducible refine foldl_fst_keeps _ _ _ ?_ ?_ | intro _ _ _ | intro _
    | with_reducible refine keeps_ite _ _ _ ?_ ?_ | split | with_reducible refine keeps_fst ?_ (by assumption)
    | with_reducible refine keeps_fst2 ?_ (by assumption) | simp only [])

theorem ibypassSet_keeps {W : Nat} {q0 : State} (h : Nat) (s : State) (hk : Keeps W q0 s)
    (hW : Sub 0x20000419 W := by first | assumption | exact sub_of (by assumption) (by decide)) :
    Keeps W q0 (ibypassSet h s) := by
  unfold ibypassSet
  repeat' (first
    | with_reducible assumption | exact sub_of (by assumption) (by decide) | with_reducible apply csrM_keeps
    | with_reducible apply ibypassOn_keeps | with_reducible refine foldl_keeps _ _ _ ?_ ?_
    | with_reducible refine foldl_fst_keeps _ _ _ ?_ ?_ | intro _ _ _ | intro _
    | with_reducible refine keeps_ite _ _ _ ?_ ?_ | split | with_reducible refine keeps_fst ?_ (by assumption)
    | with_reducible refine keeps_fst2 ?_ (by assumption) | simp only [])

theorem imsicClaim_keeps {W : Nat} {q0 : State} (h n : Nat) (s : State) (hk : Keeps W q0 s)
    (hW : Sub 0x8 W := by first | assumption | exact sub_of (by assumption) (by decide)) :
    Keeps W q0 (imsicClaim h n s) := by
  unfold imsicClaim
  repeat' (first
    | with_reducible assumption | exact sub_of (by assumption) (by decide) | with_reducible apply setHart_keeps
    | with_reducible refine foldl_keeps _ _ _ ?_ ?_ | with_reducible refine foldl_fst_keeps _ _ _ ?_ ?_ | intro _ _ _
    | intro _ | with_reducible refine keeps_ite _ _ _ ?_ ?_ | split
    | with_reducible refine keeps_fst ?_ (by assumption) | with_reducible refine keeps_fst2 ?_ (by assumption)
    | simp only [])

theorem csrStore_keeps {W : Nat} {q0 : State} (h n v : Nat) (s : State) (hk : Keeps W q0 s)
    (hW : Sub 0x200BFD39 W := by first | assumption | exact sub_of (by assumption) (by decide)) :
    Keeps W q0 (csrStore h n v s) := by
  unfold csrStore
  repeat' (first
    | with_reducible assumption | exact sub_of (by assumption) (by decide)
    | with_reducible exact twf_tset _ _ _ _ (by assumption)
    | with_reducible refine keeps_chan (W := W) ?_ _ (by assumption) | with_reducible exact twf_nil _
    | with_reducible refine keeps_ok (W := W) ?_ (by assumption) | with_reducible apply wr_keeps
    | with_reducible apply setCsr_keeps | with_reducible apply fieldStore_keeps | with_reducible apply rekey_keeps
    | with_reducible apply satpWrite_keeps | with_reducible apply hgatpWrite_keeps
    | with_reducible apply dbypassOn_keeps | with_reducible apply ibypassOn_keeps
    | with_reducible apply imsicClaim_keeps | with_reducible refine foldl_keeps _ _ _ ?_ ?_
    | with_reducible refine foldl_fst_keeps _ _ _ ?_ ?_ | intro _ _ _ | intro _
    | with_reducible refine keeps_ite _ _ _ ?_ ?_ | split | with_reducible refine keeps_fst ?_ (by assumption)
    | with_reducible refine keeps_fst2 ?_ (by assumption) | simp only [])

theorem csrWrite_keeps {W : Nat} {q0 : State} (h n v : Nat) (s : State) (hk : Keeps W q0 s)
    (hW : Sub 0x200BFD39 W := by first | assumption | exact sub_of (by assumption) (by decide)) :
    Keeps W q0 (csrWrite h n v s) := by
  unfold csrWrite
  repeat' (first
    | with_reducible assumption | exact sub_of (by assumption) (by decide)
    | with_reducible exact twf_tset _ _ _ _ (by assumption)
    | with_reducible refine keeps_chan (W := W) ?_ _ (by assumption) | with_reducible exact twf_nil _
    | with_reducible refine keeps_ok (W := W) ?_ (by assumption) | with_reducible apply countInst_keeps
    | with_reducible apply raiseInstr_keeps | with_reducible apply predClear_keeps
    | with_reducible apply csrStore_keeps | with_reducible refine foldl_keeps _ _ _ ?_ ?_
    | with_reducible refine foldl_fst_keeps _ _ _ ?_ ?_ | intro _ _ _ | intro _
    | with_reducible refine keeps_ite _ _ _ ?_ ?_ | split | with_reducible refine keeps_fst ?_ (by assumption)
    | with_reducible refine keeps_fst2 ?_ (by assumption) | simp only [])

theorem snoopInv_keeps {W : Nat} {q0 : State} (core line : Nat) (inFlight : Bool) (s : State) (hk : Keeps W q0 s)
    (hW : Sub 0x200BFD39 W := by first | assumption | exact sub_of (by assumption) (by decide)) :
    Keeps W q0 (snoopInv core line inFlight s) := by
  unfold snoopInv
  repeat' (first
    | with_reducible assumption | exact sub_of (by assumption) (by decide)
    | with_reducible exact twf_tset _ _ _ _ (by assumption)
    | with_reducible refine keeps_chan (W := W) ?_ _ (by assumption) | with_reducible exact twf_nil _
    | with_reducible refine keeps_ok (W := W) ?_ (by assumption) | with_reducible apply countEvent_keeps
    | with_reducible apply flush_keeps | with_reducible apply dropAccess_keeps | with_reducible apply l2Evict_keeps
    | with_reducible refine foldl_keeps _ _ _ ?_ ?_ | with_reducible refine foldl_fst_keeps _ _ _ ?_ ?_ | intro _ _ _
    | intro _ | with_reducible refine keeps_ite _ _ _ ?_ ?_ | split
    | with_reducible refine keeps_fst ?_ (by assumption) | with_reducible refine keeps_fst2 ?_ (by assumption)
    | simp only [])

end Sys2Proof.Machine
end

