-- ==== Sys2Proof/Laws/KeepsLinks.lean ====
section
/-! SUPPORT. Laws/KeepsLinks.lean: every operation on SERDES, DMA, tenancies, fabric and main cores keeps `Keeps`: it
    changes neither the queue nor the fuses, it keeps the
canonical forms, and it writes no part of State outside the set its lemma names. -/
set_option Elab.async false
namespace Sys2Proof.Machine

/-! ## Iommu -/

theorem setIom_keeps {W : Nat} {q0 : State} (g off n v : Nat) (s : State) (hk : Keeps W q0 s)
    (hW : Sub 0x20000 W := by first | assumption | exact sub_of (by assumption) (by decide)) :
    Keeps W q0 (setIom g off n v s) := by
  unfold setIom
  repeat' (first
    | with_reducible assumption | exact sub_of (by assumption) (by decide) | with_reducible apply modGroup_keeps
    | with_reducible refine foldl_keeps _ _ _ ?_ ?_ | with_reducible refine foldl_fst_keeps _ _ _ ?_ ?_ | intro _ _ _
    | intro _ | with_reducible refine keeps_ite _ _ _ ?_ ?_ | split
    | with_reducible refine keeps_fst ?_ (by assumption) | with_reducible refine keeps_fst2 ?_ (by assumption)
    | simp only [])

theorem iomFlag_keeps {W : Nat} {q0 : State} (g off i : Nat) (on : Bool) (s : State) (hk : Keeps W q0 s)
    (hW : Sub 0x20000 W := by first | assumption | exact sub_of (by assumption) (by decide)) :
    Keeps W q0 (iomFlag g off i on s) := by
  unfold iomFlag
  repeat' (first
    | with_reducible assumption | exact sub_of (by assumption) (by decide) | with_reducible apply setIom_keeps
    | with_reducible refine foldl_keeps _ _ _ ?_ ?_ | with_reducible refine foldl_fst_keeps _ _ _ ?_ ?_ | intro _ _ _
    | intro _ | with_reducible refine keeps_ite _ _ _ ?_ ?_ | split
    | with_reducible refine keeps_fst ?_ (by assumption) | with_reducible refine keeps_fst2 ?_ (by assumption)
    | simp only [])

theorem compWrite_keeps {W : Nat} {q0 : State} (g x v : Nat) (s : State) (hk : Keeps W q0 s)
    (hW : Sub 0x20000 W := by first | assumption | exact sub_of (by assumption) (by decide)) :
    Keeps W q0 (compWrite g x v s) := by
  unfold compWrite
  repeat' (first
    | with_reducible assumption | exact sub_of (by assumption) (by decide) | with_reducible apply modGroup_keeps
    | with_reducible refine foldl_keeps _ _ _ ?_ ?_ | with_reducible refine foldl_fst_keeps _ _ _ ?_ ?_ | intro _ _ _
    | intro _ | with_reducible refine keeps_ite _ _ _ ?_ ?_ | split
    | with_reducible refine keeps_fst ?_ (by assumption) | with_reducible refine keeps_fst2 ?_ (by assumption)
    | simp only [])

theorem iomInterrupt_keeps {W : Nat} {q0 : State} (g i : Nat) (s : State) (hk : Keeps W q0 s)
    (hW : Sub 0x20000 W := by first | assumption | exact sub_of (by assumption) (by decide)) :
    Keeps W q0 (iomInterrupt g i s) := by
  unfold iomInterrupt
  repeat' (first
    | with_reducible assumption | exact sub_of (by assumption) (by decide) | with_reducible apply modGroup_keeps
    | with_reducible apply iomFlag_keeps | with_reducible refine foldl_keeps _ _ _ ?_ ?_
    | with_reducible refine foldl_fst_keeps _ _ _ ?_ ?_ | intro _ _ _ | intro _
    | with_reducible refine keeps_ite _ _ _ ?_ ?_ | split | with_reducible refine keeps_fst ?_ (by assumption)
    | with_reducible refine keeps_fst2 ?_ (by assumption) | simp only [])

theorem iomRead_keeps {W : Nat} {q0 : State} (w : Reader) (tag pa n : Nat) (s : State) (hk : Keeps W q0 s)
    (hW : Sub 0x200BFD39 W := by first | assumption | exact sub_of (by assumption) (by decide)) :
    Keeps W q0 (iomRead w tag pa n s).1 := by
  unfold iomRead
  repeat' (first
    | with_reducible assumption | exact sub_of (by assumption) (by decide)
    | with_reducible exact twf_tset _ _ _ _ (by assumption)
    | with_reducible refine keeps_chan (W := W) ?_ _ (by assumption) | with_reducible exact twf_nil _
    | with_reducible refine keeps_ok (W := W) ?_ (by assumption) | with_reducible apply currentLine_keeps
    | with_reducible apply ncOpen_keeps | with_reducible refine foldl_keeps _ _ _ ?_ ?_
    | with_reducible refine foldl_fst_keeps _ _ _ ?_ ?_ | intro _ _ _ | intro _
    | with_reducible refine keeps_ite _ _ _ ?_ ?_ | split | with_reducible refine keeps_fst ?_ (by assumption)
    | with_reducible refine keeps_fst2 ?_ (by assumption) | simp only [])

theorem iomWrite_keeps {W : Nat} {q0 : State} (w : Reader) (tag pa n v : Nat) (s : State) (hk : Keeps W q0 s)
    (hW : Sub 0x200BFD39 W := by first | assumption | exact sub_of (by assumption) (by decide)) :
    Keeps W q0 (iomWrite w tag pa n v s).1 := by
  unfold iomWrite
  repeat' (first
    | with_reducible assumption | exact sub_of (by assumption) (by decide)
    | with_reducible exact twf_tset _ _ _ _ (by assumption)
    | with_reducible refine keeps_chan (W := W) ?_ _ (by assumption) | with_reducible exact twf_nil _
    | with_reducible refine keeps_ok (W := W) ?_ (by assumption) | with_reducible apply currentLine_keeps
    | with_reducible apply ncOpen_keeps | with_reducible apply writeAtHome_keeps
    | with_reducible refine foldl_keeps _ _ _ ?_ ?_ | with_reducible refine foldl_fst_keeps _ _ _ ?_ ?_ | intro _ _ _
    | intro _ | with_reducible refine keeps_ite _ _ _ ?_ ?_ | split
    | with_reducible refine keeps_fst ?_ (by assumption) | with_reducible refine keeps_fst2 ?_ (by assumption)
    | simp only [])

theorem iomCount_keeps {W : Nat} {q0 : State} (g ev : Nat) (q : DevReq) (gscid pscid : Nat) (s : State) (hk : Keeps
    W q0 s)
    (hW : Sub 0x20000 W := by first | assumption | exact sub_of (by assumption) (by decide)) :
    Keeps W q0 (iomCount g ev q gscid pscid s) := by
  unfold iomCount
  repeat' (first
    | with_reducible assumption | exact sub_of (by assumption) (by decide) | with_reducible apply setIom_keeps
    | with_reducible apply iomFlag_keeps | with_reducible apply iomInterrupt_keeps
    | with_reducible refine foldl_keeps _ _ _ ?_ ?_ | with_reducible refine foldl_fst_keeps _ _ _ ?_ ?_ | intro _ _ _
    | intro _ | with_reducible refine keeps_ite _ _ _ ?_ ?_ | split
    | with_reducible refine keeps_fst ?_ (by assumption) | with_reducible refine keeps_fst2 ?_ (by assumption)
    | simp only [])

theorem leaf_keeps {W : Nat} {q0 : State} (x : Stage) (l ea pte : Nat) (s : State) (hk : Keeps W q0 s)
    (hW : Sub 0x200BFD39 W := by first | assumption | exact sub_of (by assumption) (by decide)) :
    Keeps W q0 (leaf x l ea pte s).1 := by
  unfold leaf
  repeat' (first
    | with_reducible assumption | exact sub_of (by assumption) (by decide)
    | with_reducible exact twf_tset _ _ _ _ (by assumption)
    | with_reducible refine keeps_chan (W := W) ?_ _ (by assumption) | with_reducible exact twf_nil _
    | with_reducible refine keeps_ok (W := W) ?_ (by assumption) | with_reducible apply iomWrite_keeps
    | with_reducible refine foldl_keeps _ _ _ ?_ ?_ | with_reducible refine foldl_fst_keeps _ _ _ ?_ ?_ | intro _ _ _
    | intro _ | with_reducible refine keeps_ite _ _ _ ?_ ?_ | split
    | with_reducible refine keeps_fst ?_ (by assumption) | with_reducible refine keeps_fst2 ?_ (by assumption)
    | simp only [])

theorem walk_keeps {W : Nat} {q0 : State} (place : Nat → State → State × IomAns) (x : Stage) (top l a : Nat) (s : State)
    (h_place : ∀ a t, Keeps W q0 t → Keeps W q0 (place a t).1) (hk : Keeps W q0 s)
    (hW : Sub 0x200BFD39 W := by first | assumption | exact sub_of (by assumption) (by decide)) :
    Keeps W q0 (walk place x top l a s).1 := by
  induction l generalizing a s with
  | zero => exact hk
  | succ l ih =>
    unfold walk; dsimp only
    repeat' (first
      | with_reducible assumption | exact sub_of (by assumption) (by decide) | with_reducible apply ih
      | with_reducible apply leaf_keeps | with_reducible exact keeps_fst (iomRead_keeps _ _ _ _ _ (keeps_fst (h_place _ _ (by assumption)) (by assumption))) (by assumption)
      | with_reducible exact keeps_fst (h_place _ _ (by assumption)) (by assumption)
      | split)

theorem secondStage_keeps {W : Nat} {q0 : State} (hgatp : Nat) (x : Stage) (s : State) (hk : Keeps W q0 s)
    (hW : Sub 0x200BFD39 W := by first | assumption | exact sub_of (by assumption) (by decide)) :
    Keeps W q0 (secondStage hgatp x s).1 := by
  unfold secondStage
  repeat' (first
    | with_reducible assumption | exact sub_of (by assumption) (by decide)
    | with_reducible exact twf_tset _ _ _ _ (by assumption)
    | with_reducible refine keeps_chan (W := W) ?_ _ (by assumption) | with_reducible exact twf_nil _
    | with_reducible refine keeps_ok (W := W) ?_ (by assumption) | with_reducible apply walk_keeps
    | with_reducible refine foldl_keeps _ _ _ ?_ ?_ | with_reducible refine foldl_fst_keeps _ _ _ ?_ ?_ | intro _ _ _
    | intro _ | with_reducible refine keeps_ite _ _ _ ?_ ?_ | split
    | with_reducible refine keeps_fst ?_ (by assumption) | with_reducible refine keeps_fst2 ?_ (by assumption)
    | simp only [])

theorem firstStage_keeps {W : Nat} {q0 : State} (satp hgatp : Nat) (gade : Bool) (x : Stage) (s : State) (hk : Keeps
    W q0 s)
    (hW : Sub 0x200BFD39 W := by first | assumption | exact sub_of (by assumption) (by decide)) :
    Keeps W q0 (firstStage satp hgatp gade x s).1 := by
  unfold firstStage
  repeat' (first
    | with_reducible assumption | exact sub_of (by assumption) (by decide)
    | with_reducible exact twf_tset _ _ _ _ (by assumption)
    | with_reducible refine keeps_chan (W := W) ?_ _ (by assumption) | with_reducible exact twf_nil _
    | with_reducible refine keeps_ok (W := W) ?_ (by assumption) | with_reducible apply walk_keeps
    | with_reducible apply secondStage_keeps | with_reducible refine foldl_keeps _ _ _ ?_ ?_
    | with_reducible refine foldl_fst_keeps _ _ _ ?_ ?_ | intro _ _ _ | intro _
    | with_reducible refine keeps_ite _ _ _ ?_ ?_ | split | with_reducible refine keeps_fst ?_ (by assumption)
    | with_reducible refine keeps_fst2 ?_ (by assumption) | simp only [])

theorem readCtx_keeps {W : Nat} {q0 : State} (g tag pa : Nat) (own : Bool) (s : State) (hk : Keeps W q0 s)
    (hW : Sub 0x200BFD39 W := by first | assumption | exact sub_of (by assumption) (by decide)) :
    Keeps W q0 (readCtx g tag pa own s).1 := by
  unfold readCtx
  repeat' (first
    | with_reducible assumption | exact sub_of (by assumption) (by decide)
    | with_reducible exact twf_tset _ _ _ _ (by assumption)
    | with_reducible refine keeps_chan (W := W) ?_ _ (by assumption) | with_reducible exact twf_nil _
    | with_reducible refine keeps_ok (W := W) ?_ (by assumption) | with_reducible apply iomRead_keeps
    | with_reducible refine foldl_keeps _ _ _ ?_ ?_ | with_reducible refine foldl_fst_keeps _ _ _ ?_ ?_ | intro _ _ _
    | intro _ | with_reducible refine keeps_ite _ _ _ ?_ ?_ | split
    | with_reducible refine keeps_fst ?_ (by assumption) | with_reducible refine keeps_fst2 ?_ (by assumption)
    | simp only [])

theorem ddtWalk_keeps {W : Nat} {q0 : State} (g dev l a : Nat) (s : State) (hk : Keeps W q0 s)
    (hW : Sub 0x200BFD39 W := by first | assumption | exact sub_of (by assumption) (by decide)) :
    Keeps W q0 (ddtWalk g dev l a s).1 := by
  induction l generalizing a s with
  | zero => unfold ddtWalk; exact readCtx_keeps _ _ _ _ _ hk
  | succ l ih =>
    unfold ddtWalk
    repeat' (first
      | with_reducible assumption | with_reducible apply ih
      | with_reducible exact keeps_fst (iomRead_keeps _ _ _ _ _ (by assumption)) (by assumption) | split)

theorem readProc_keeps {W : Nat} {q0 : State} (c : DevCtx) (acc gpa : Nat) (s : State) (hk : Keeps W q0 s)
    (hW : Sub 0x200BFD39 W := by first | assumption | exact sub_of (by assumption) (by decide)) :
    Keeps W q0 (readProc c acc gpa s).1 := by
  unfold readProc
  repeat' (first
    | with_reducible assumption | exact sub_of (by assumption) (by decide)
    | with_reducible exact twf_tset _ _ _ _ (by assumption)
    | with_reducible refine keeps_chan (W := W) ?_ _ (by assumption) | with_reducible exact twf_nil _
    | with_reducible refine keeps_ok (W := W) ?_ (by assumption) | with_reducible apply iomRead_keeps
    | with_reducible apply secondStage_keeps | with_reducible refine foldl_keeps _ _ _ ?_ ?_
    | with_reducible refine foldl_fst_keeps _ _ _ ?_ ?_ | intro _ _ _ | intro _
    | with_reducible refine keeps_ite _ _ _ ?_ ?_ | split | with_reducible refine keeps_fst ?_ (by assumption)
    | with_reducible refine keeps_fst2 ?_ (by assumption) | simp only [])

theorem pdtWalk_keeps {W : Nat} {q0 : State} (c : DevCtx) (pid acc l a : Nat) (s : State) (hk : Keeps W q0 s)
    (hW : Sub 0x200BFD39 W := by first | assumption | exact sub_of (by assumption) (by decide)) :
    Keeps W q0 (pdtWalk c pid acc l a s).1 := by
  induction l generalizing a s with
  | zero =>
    unfold pdtWalk
    repeat' (first
      | with_reducible assumption
      | with_reducible exact keeps_fst (readProc_keeps _ _ _ _ (by assumption)) (by assumption) | split)
  | succ l ih =>
    unfold pdtWalk
    repeat' (first
      | with_reducible assumption | with_reducible apply ih
      | with_reducible exact keeps_fst (readProc_keeps _ _ _ _ (by assumption)) (by assumption) | split)

theorem msiTranslate_keeps {W : Nat} {q0 : State} (c : DevCtx) (acc gpa : Nat) (s : State) (hk : Keeps W q0 s)
    (hW : Sub 0x200BFD39 W := by first | assumption | exact sub_of (by assumption) (by decide)) :
    Keeps W q0 (msiTranslate c acc gpa s).1 := by
  unfold msiTranslate
  repeat' (first
    | with_reducible assumption | exact sub_of (by assumption) (by decide)
    | with_reducible exact twf_tset _ _ _ _ (by assumption)
    | with_reducible refine keeps_chan (W := W) ?_ _ (by assumption) | with_reducible exact twf_nil _
    | with_reducible refine keeps_ok (W := W) ?_ (by assumption) | with_reducible apply iomRead_keeps
    | with_reducible refine foldl_keeps _ _ _ ?_ ?_ | with_reducible refine foldl_fst_keeps _ _ _ ?_ ?_ | intro _ _ _
    | intro _ | with_reducible refine keeps_ite _ _ _ ?_ ?_ | split
    | with_reducible refine keeps_fst ?_ (by assumption) | with_reducible refine keeps_fst2 ?_ (by assumption)
    | simp only [])

theorem findCtx_keeps {W : Nat} {q0 : State} (g : Nat) (q : DevReq) (s : State) (hk : Keeps W q0 s)
    (hW : Sub 0x200BFD39 W := by first | assumption | exact sub_of (by assumption) (by decide)) :
    Keeps W q0 (findCtx g q s).1 := by
  unfold findCtx
  repeat' (first
    | with_reducible assumption | exact sub_of (by assumption) (by decide)
    | with_reducible exact twf_tset _ _ _ _ (by assumption)
    | with_reducible refine keeps_chan (W := W) ?_ _ (by assumption) | with_reducible exact twf_nil _
    | with_reducible refine keeps_ok (W := W) ?_ (by assumption) | with_reducible apply iomCount_keeps
    | with_reducible apply readCtx_keeps | with_reducible apply ddtWalk_keeps
    | with_reducible refine foldl_keeps _ _ _ ?_ ?_ | with_reducible refine foldl_fst_keeps _ _ _ ?_ ?_ | intro _ _ _
    | intro _ | with_reducible refine keeps_ite _ _ _ ?_ ?_ | split
    | with_reducible refine keeps_fst ?_ (by assumption) | with_reducible refine keeps_fst2 ?_ (by assumption)
    | simp only [])

theorem findProc_keeps {W : Nat} {q0 : State} (g : Nat) (c : DevCtx) (q : DevReq) (s : State) (hk : Keeps W q0 s)
    (hW : Sub 0x200BFD39 W := by first | assumption | exact sub_of (by assumption) (by decide)) :
    Keeps W q0 (findProc g c q s).1 := by
  unfold findProc
  repeat' (first
    | with_reducible assumption | exact sub_of (by assumption) (by decide)
    | with_reducible exact twf_tset _ _ _ _ (by assumption)
    | with_reducible refine keeps_chan (W := W) ?_ _ (by assumption) | with_reducible exact twf_nil _
    | with_reducible refine keeps_ok (W := W) ?_ (by assumption) | with_reducible apply iomCount_keeps
    | with_reducible apply pdtWalk_keeps | with_reducible refine foldl_keeps _ _ _ ?_ ?_
    | with_reducible refine foldl_fst_keeps _ _ _ ?_ ?_ | intro _ _ _ | intro _
    | with_reducible refine keeps_ite _ _ _ ?_ ?_ | split | with_reducible refine keeps_fst ?_ (by assumption)
    | with_reducible refine keeps_fst2 ?_ (by assumption) | simp only [])

theorem translateIn_keeps {W : Nat} {q0 : State} (g : Nat) (c : DevCtx) (q : DevReq) (s : State) (hk : Keeps W q0 s)
    (hW : Sub 0x200BFD39 W := by first | assumption | exact sub_of (by assumption) (by decide)) :
    Keeps W q0 (translateIn g c q s).1 := by
  unfold translateIn
  repeat' (first
    | with_reducible assumption | exact sub_of (by assumption) (by decide)
    | with_reducible exact twf_tset _ _ _ _ (by assumption)
    | with_reducible refine keeps_chan (W := W) ?_ _ (by assumption) | with_reducible exact twf_nil _
    | with_reducible refine keeps_ok (W := W) ?_ (by assumption) | with_reducible apply iomCount_keeps
    | with_reducible apply secondStage_keeps | with_reducible apply firstStage_keeps
    | with_reducible apply msiTranslate_keeps | with_reducible apply findProc_keeps
    | with_reducible refine foldl_keeps _ _ _ ?_ ?_ | with_reducible refine foldl_fst_keeps _ _ _ ?_ ?_ | intro _ _ _
    | intro _ | with_reducible refine keeps_ite _ _ _ ?_ ?_ | split
    | with_reducible refine keeps_fst ?_ (by assumption) | with_reducible refine keeps_fst2 ?_ (by assumption)
    | simp only [])

theorem pushQueue_keeps {W : Nat} {q0 : State} (g base csr irq n v : Nat) (s : State) (hk : Keeps W q0 s)
    (hW : Sub 0x200BFD39 W := by first | assumption | exact sub_of (by assumption) (by decide)) :
    Keeps W q0 (pushQueue g base csr irq n v s).1 := by
  unfold pushQueue
  repeat' (first
    | with_reducible assumption | exact sub_of (by assumption) (by decide)
    | with_reducible exact twf_tset _ _ _ _ (by assumption)
    | with_reducible refine keeps_chan (W := W) ?_ _ (by assumption) | with_reducible exact twf_nil _
    | with_reducible refine keeps_ok (W := W) ?_ (by assumption) | with_reducible apply setIom_keeps
    | with_reducible apply iomFlag_keeps | with_reducible apply iomInterrupt_keeps
    | with_reducible apply iomWrite_keeps | with_reducible refine foldl_keeps _ _ _ ?_ ?_
    | with_reducible refine foldl_fst_keeps _ _ _ ?_ ?_ | intro _ _ _ | intro _
    | with_reducible refine keeps_ite _ _ _ ?_ ?_ | split | with_reducible refine keeps_fst ?_ (by assumption)
    | with_reducible refine keeps_fst2 ?_ (by assumption) | simp only [])

theorem faultRecord_keeps {W : Nat} {q0 : State} (g cause val2 : Nat) (q : DevReq) (s : State) (hk : Keeps W q0 s)
    (hW : Sub 0x200BFD39 W := by first | assumption | exact sub_of (by assumption) (by decide)) :
    Keeps W q0 (faultRecord g cause val2 q s).1 := by
  unfold faultRecord
  repeat' (first
    | with_reducible assumption | exact sub_of (by assumption) (by decide)
    | with_reducible exact twf_tset _ _ _ _ (by assumption)
    | with_reducible refine keeps_chan (W := W) ?_ _ (by assumption) | with_reducible exact twf_nil _
    | with_reducible refine keeps_ok (W := W) ?_ (by assumption) | with_reducible apply pushQueue_keeps
    | with_reducible refine foldl_keeps _ _ _ ?_ ?_ | with_reducible refine foldl_fst_keeps _ _ _ ?_ ?_ | intro _ _ _
    | intro _ | with_reducible refine keeps_ite _ _ _ ?_ ?_ | split
    | with_reducible refine keeps_fst ?_ (by assumption) | with_reducible refine keeps_fst2 ?_ (by assumption)
    | simp only [])

theorem tellFault_keeps {W : Nat} {q0 : State} (g unit cause val2 : Nat) (dtf : Bool) (q : DevReq) (s : State) (hk :
    Keeps W q0 s)
    (hW : Sub 0x200BFD39 W := by first | assumption | exact sub_of (by assumption) (by decide)) :
    Keeps W q0 (tellFault g unit cause val2 dtf q s).1 := by
  unfold tellFault
  repeat' (first
    | with_reducible assumption | exact sub_of (by assumption) (by decide)
    | with_reducible exact twf_tset _ _ _ _ (by assumption)
    | with_reducible refine keeps_chan (W := W) ?_ _ (by assumption) | with_reducible exact twf_nil _
    | with_reducible refine keeps_ok (W := W) ?_ (by assumption) | with_reducible apply recVisible_keeps
    | with_reducible apply faultRecord_keeps | with_reducible refine foldl_keeps _ _ _ ?_ ?_
    | with_reducible refine foldl_fst_keeps _ _ _ ?_ ?_ | intro _ _ _ | intro _
    | with_reducible refine keeps_ite _ _ _ ?_ ?_ | split | with_reducible refine keeps_fst ?_ (by assumption)
    | with_reducible refine keeps_fst2 ?_ (by assumption) | simp only [])

theorem iomTry_keeps {W : Nat} {q0 : State} (g unit : Nat) (q : DevReq) (s : State) (hk : Keeps W q0 s)
    (hW : Sub 0x200BFD39 W := by first | assumption | exact sub_of (by assumption) (by decide)) :
    Keeps W q0 (iomTry g unit q s).1 := by
  unfold iomTry
  repeat' (first
    | with_reducible assumption | exact sub_of (by assumption) (by decide)
    | with_reducible exact twf_tset _ _ _ _ (by assumption)
    | with_reducible refine keeps_chan (W := W) ?_ _ (by assumption) | with_reducible exact twf_nil _
    | with_reducible refine keeps_ok (W := W) ?_ (by assumption) | with_reducible apply iomCount_keeps
    | with_reducible apply findCtx_keeps | with_reducible apply translateIn_keeps
    | with_reducible apply tellFault_keeps | with_reducible refine foldl_keeps _ _ _ ?_ ?_
    | with_reducible refine foldl_fst_keeps _ _ _ ?_ ?_ | intro _ _ _ | intro _
    | with_reducible refine keeps_ite _ _ _ ?_ ?_ | split | with_reducible refine keeps_fst ?_ (by assumption)
    | with_reducible refine keeps_fst2 ?_ (by assumption) | simp only [])

theorem iomTranslate_keeps {W : Nat} {q0 : State} (g unit : Nat) (q : DevReq) (s : State) (hk : Keeps W q0 s)
    (hW : Sub 0x200BFD39 W := by first | assumption | exact sub_of (by assumption) (by decide)) :
    Keeps W q0 (iomTranslate g unit q s).1 := by
  unfold iomTranslate
  repeat' (first
    | with_reducible assumption | exact sub_of (by assumption) (by decide)
    | with_reducible exact twf_tset _ _ _ _ (by assumption)
    | with_reducible refine keeps_chan (W := W) ?_ _ (by assumption) | with_reducible exact twf_nil _
    | with_reducible refine keeps_ok (W := W) ?_ (by assumption) | with_reducible apply dropReads_keeps
    | with_reducible apply iomTry_keeps | with_reducible refine foldl_keeps _ _ _ ?_ ?_
    | with_reducible refine foldl_fst_keeps _ _ _ ?_ ?_ | intro _ _ _ | intro _
    | with_reducible refine keeps_ite _ _ _ ?_ ?_ | split | with_reducible refine keeps_fst ?_ (by assumption)
    | with_reducible refine keeps_fst2 ?_ (by assumption) | simp only []
    | with_reducible refine keeps_lit (by assumption) ?_
    | (refine keeps_mem _ ?_ ?_ (sub_of (by assumption) (by decide))))

theorem pageTry_keeps {W : Nat} {q0 : State} (g : Nat) (q : DevReq) (s : State) (hk : Keeps W q0 s)
    (hW : Sub 0x200BFD39 W := by first | assumption | exact sub_of (by assumption) (by decide)) :
    Keeps W q0 (pageTry g q s).1 := by
  unfold pageTry
  repeat' (first
    | with_reducible assumption | exact sub_of (by assumption) (by decide)
    | with_reducible exact twf_tset _ _ _ _ (by assumption)
    | with_reducible refine keeps_chan (W := W) ?_ _ (by assumption) | with_reducible exact twf_nil _
    | with_reducible refine keeps_ok (W := W) ?_ (by assumption) | with_reducible apply findCtx_keeps
    | with_reducible apply pushQueue_keeps | with_reducible apply tellFault_keeps
    | with_reducible refine foldl_keeps _ _ _ ?_ ?_ | with_reducible refine foldl_fst_keeps _ _ _ ?_ ?_ | intro _ _ _
    | intro _ | with_reducible refine keeps_ite _ _ _ ?_ ?_ | split
    | with_reducible refine keeps_fst ?_ (by assumption) | with_reducible refine keeps_fst2 ?_ (by assumption)
    | simp only [])

theorem pageRequest_keeps {W : Nat} {q0 : State} (g : Nat) (q : DevReq) (s : State) (hk : Keeps W q0 s)
    (hW : Sub 0x200BFD39 W := by first | assumption | exact sub_of (by assumption) (by decide)) :
    Keeps W q0 (pageRequest g q s).1 := by
  unfold pageRequest
  repeat' (first
    | with_reducible assumption | exact sub_of (by assumption) (by decide)
    | with_reducible exact twf_tset _ _ _ _ (by assumption)
    | with_reducible refine keeps_chan (W := W) ?_ _ (by assumption) | with_reducible exact twf_nil _
    | with_reducible refine keeps_ok (W := W) ?_ (by assumption) | with_reducible apply dropReads_keeps
    | with_reducible apply pageTry_keeps | with_reducible refine foldl_keeps _ _ _ ?_ ?_
    | with_reducible refine foldl_fst_keeps _ _ _ ?_ ?_ | intro _ _ _ | intro _
    | with_reducible refine keeps_ite _ _ _ ?_ ?_ | split | with_reducible refine keeps_fst ?_ (by assumption)
    | with_reducible refine keeps_fst2 ?_ (by assumption) | simp only []
    | with_reducible refine keeps_lit (by assumption) ?_
    | (refine keeps_mem _ ?_ ?_ (sub_of (by assumption) (by decide))))

theorem iomCommand_keeps {W : Nat} {q0 : State} (g v : Nat) (s : State) (hk : Keeps W q0 s)
    (hW : Sub 0x200BFD39 W := by first | assumption | exact sub_of (by assumption) (by decide)) :
    Keeps W q0 (iomCommand g v s).1 := by
  unfold iomCommand
  repeat' (first
    | with_reducible assumption | exact sub_of (by assumption) (by decide)
    | with_reducible exact twf_tset _ _ _ _ (by assumption)
    | with_reducible refine keeps_chan (W := W) ?_ _ (by assumption) | with_reducible exact twf_nil _
    | with_reducible refine keeps_ok (W := W) ?_ (by assumption) | with_reducible apply modGroup_keeps
    | with_reducible apply iomWrite_keeps | with_reducible refine foldl_keeps _ _ _ ?_ ?_
    | with_reducible refine foldl_fst_keeps _ _ _ ?_ ?_ | intro _ _ _ | intro _
    | with_reducible refine keeps_ite _ _ _ ?_ ?_ | split | with_reducible refine keeps_fst ?_ (by assumption)
    | with_reducible refine keeps_fst2 ?_ (by assumption) | simp only [])

theorem runCommands_keeps {W : Nat} {q0 : State} (g n : Nat) (s : State) (hk : Keeps W q0 s)
    (hW : Sub 0x200BFD39 W := by first | assumption | exact sub_of (by assumption) (by decide)) :
    Keeps W q0 (runCommands g n s) := by
  induction n generalizing s with
  | zero => exact hk
  | succ n ih =>
    unfold runCommands; dsimp only
    repeat' (first
      | with_reducible assumption | exact sub_of (by assumption) (by decide) | with_reducible apply ih
      | with_reducible apply iomInterrupt_keeps | with_reducible apply iomFlag_keeps | with_reducible apply setIom_keeps
      | with_reducible apply dropReads_keeps
      | with_reducible exact keeps_fst (iomCommand_keeps _ _ _ (keeps_fst (iomRead_keeps _ _ _ _ _ (by assumption)) (by assumption))) (by assumption)
      | with_reducible exact keeps_fst (iomRead_keeps _ _ _ _ _ (by assumption)) (by assumption)
      | split)

theorem queuesBeat_keeps {W : Nat} {q0 : State} (s : State) (hk : Keeps W q0 s)
    (hW : Sub 0x200BFD39 W := by first | assumption | exact sub_of (by assumption) (by decide)) :
    Keeps W q0 (queuesBeat s) := by
  unfold queuesBeat
  repeat' (first
    | with_reducible assumption | exact sub_of (by assumption) (by decide)
    | with_reducible exact twf_tset _ _ _ _ (by assumption)
    | with_reducible refine keeps_chan (W := W) ?_ _ (by assumption) | with_reducible exact twf_nil _
    | with_reducible refine keeps_ok (W := W) ?_ (by assumption) | with_reducible apply runCommands_keeps
    | with_reducible refine foldl_keeps _ _ _ ?_ ?_ | with_reducible refine foldl_fst_keeps _ _ _ ?_ ?_ | intro _ _ _
    | intro _ | with_reducible refine keeps_ite _ _ _ ?_ ?_ | split
    | with_reducible refine keeps_fst ?_ (by assumption) | with_reducible refine keeps_fst2 ?_ (by assumption)
    | simp only [])

theorem switchQueue_keeps {W : Nat} {q0 : State} (g csr idx : Nat) (s : State) (hk : Keeps W q0 s)
    (hW : Sub 0x20000 W := by first | assumption | exact sub_of (by assumption) (by decide)) :
    Keeps W q0 (switchQueue g csr idx s) := by
  unfold switchQueue
  repeat' (first
    | with_reducible assumption | exact sub_of (by assumption) (by decide) | with_reducible apply setIom_keeps
    | with_reducible apply iomFlag_keeps | with_reducible refine foldl_keeps _ _ _ ?_ ?_
    | with_reducible refine foldl_fst_keeps _ _ _ ?_ ?_ | intro _ _ _ | intro _
    | with_reducible refine keeps_ite _ _ _ ?_ ?_ | split | with_reducible refine keeps_fst ?_ (by assumption)
    | with_reducible refine keeps_fst2 ?_ (by assumption) | simp only [])

theorem iomStore_keeps {W : Nat} {q0 : State} (g x v : Nat) (s : State) (hk : Keeps W q0 s)
    (hW : Sub 0x200BFD39 W := by first | assumption | exact sub_of (by assumption) (by decide)) :
    Keeps W q0 (iomStore g x v s) := by
  unfold iomStore
  repeat' (first
    | with_reducible assumption | exact sub_of (by assumption) (by decide)
    | with_reducible exact twf_tset _ _ _ _ (by assumption)
    | with_reducible refine keeps_chan (W := W) ?_ _ (by assumption) | with_reducible exact twf_nil _
    | with_reducible refine keeps_ok (W := W) ?_ (by assumption) | with_reducible apply setIom_keeps
    | with_reducible apply runCommands_keeps | with_reducible apply switchQueue_keeps
    | with_reducible refine foldl_keeps _ _ _ ?_ ?_ | with_reducible refine foldl_fst_keeps _ _ _ ?_ ?_ | intro _ _ _
    | intro _ | with_reducible refine keeps_ite _ _ _ ?_ ?_ | split
    | with_reducible refine keeps_fst ?_ (by assumption) | with_reducible refine keeps_fst2 ?_ (by assumption)
    | simp only [])

theorem fixedWrite_keeps {W : Nat} {q0 : State} (g x size v : Nat) (s : State) (hk : Keeps W q0 s)
    (hW : Sub 0x200BFD39 W := by first | assumption | exact sub_of (by assumption) (by decide)) :
    Keeps W q0 (fixedWrite g x size v s) := by
  unfold fixedWrite
  repeat' (first
    | with_reducible assumption | exact sub_of (by assumption) (by decide)
    | with_reducible exact twf_tset _ _ _ _ (by assumption)
    | with_reducible refine keeps_chan (W := W) ?_ _ (by assumption) | with_reducible exact twf_nil _
    | with_reducible refine keeps_ok (W := W) ?_ (by assumption) | with_reducible apply compWrite_keeps
    | with_reducible apply iomStore_keeps | with_reducible refine foldl_keeps _ _ _ ?_ ?_
    | with_reducible refine foldl_fst_keeps _ _ _ ?_ ?_ | intro _ _ _ | intro _
    | with_reducible refine keeps_ite _ _ _ ?_ ?_ | split | with_reducible refine keeps_fst ?_ (by assumption)
    | with_reducible refine keeps_fst2 ?_ (by assumption) | simp only [])

/-! ## Serdes -/

theorem portsReset_keeps {W : Nat} {q0 : State} (g : Nat) (s : State) (hk : Keeps W q0 s)
    (hW : Sub 0x20001 W := by first | assumption | exact sub_of (by assumption) (by decide)) :
    Keeps W q0 (portsReset g s) := by
  unfold portsReset
  repeat' (first
    | with_reducible assumption | exact sub_of (by assumption) (by decide) | with_reducible apply wr_keeps
    | with_reducible apply modGroup_keeps | with_reducible refine foldl_keeps _ _ _ ?_ ?_
    | with_reducible refine foldl_fst_keeps _ _ _ ?_ ?_ | intro _ _ _ | intro _
    | with_reducible refine keeps_ite _ _ _ ?_ ?_ | split | with_reducible refine keeps_fst ?_ (by assumption)
    | with_reducible refine keeps_fst2 ?_ (by assumption) | simp only [])

theorem setDma_keeps {W : Nat} {q0 : State} (d : Nat) (r : DmaCh) (s : State) (hk : Keeps W q0 s) (hW : Sub 0x40000 W
    := by first | assumption | exact sub_of (by assumption) (by decide)) : Keeps W q0 (setDma d r s) := by
  unfold setDma
  with_reducible repeat' (first
    | assumption | exact sub_of (by assumption) (by decide) | refine keeps_lit (by assumption) ?_)

theorem modDma_keeps {W : Nat} {q0 : State} (d : Nat) (f : DmaCh → DmaCh) (s : State) (hk : Keeps W q0 s) (hW : Sub
    0x40000 W := by first | assumption | exact sub_of (by assumption) (by decide)) : Keeps W q0 (modDma d f s) := by
  unfold modDma
  with_reducible repeat' (first | assumption | apply setDma_keeps)

theorem setDmaState_keeps {W : Nat} {q0 : State} (d v : Nat) (s : State) (hk : Keeps W q0 s) (hW : Sub 0x1 W) : Keeps
    W q0 (setDmaState d v s) := by
  unfold setDmaState
  with_reducible repeat' (first | assumption | apply wr_keeps)

theorem dmaError_keeps {W : Nat} {q0 : State} (d kind dir off addr : Nat) (ring : Bool) (s : State) (hk : Keeps W q0
    s) (hW : Sub 0xC2001 W := by first | assumption | exact sub_of (by assumption) (by decide)) : Keeps W q0
    (dmaError d kind dir off addr ring s) := by
  unfold dmaError
  with_reducible repeat' (first
    | assumption | apply wr_keeps | apply wrB_keeps | apply recContained_keeps | apply setDmaState_keeps
    | apply modDma_keeps | exact sub_of (by assumption) (by decide) | split)

theorem dmaRingFault_keeps {W : Nat} {q0 : State} (d kind dir : Nat) (s : State) (hk : Keeps W q0 s) (hW : Sub
    0xC2001 W) : Keeps W q0 (dmaRingFault d kind dir s) := by
  unfold dmaRingFault
  with_reducible repeat' (first
    | assumption | apply dmaError_keeps | apply setDmaState_keeps | apply wr_keeps | apply modDma_keeps
    | exact sub_of (by assumption) (by decide) | split)

theorem dmaLost_keeps {W : Nat} {q0 : State} (d kind off : Nat) (s : State) (hk : Keeps W q0 s)
    (hW : Sub 0xC2001 W := by first | assumption | exact sub_of (by assumption) (by decide)) :
    Keeps W q0 (dmaLost d kind off s) := by
  unfold dmaLost
  repeat' (first
    | with_reducible assumption | exact sub_of (by assumption) (by decide) | with_reducible apply dmaError_keeps
    | with_reducible apply dmaRingFault_keeps | with_reducible refine foldl_keeps _ _ _ ?_ ?_
    | with_reducible refine foldl_fst_keeps _ _ _ ?_ ?_ | intro _ _ _ | intro _
    | with_reducible refine keeps_ite _ _ _ ?_ ?_ | split | with_reducible refine keeps_fst ?_ (by assumption)
    | with_reducible refine keeps_fst2 ?_ (by assumption) | simp only [])

theorem deliverLoad_keeps {W : Nat} {q0 : State} (h r size : Nat) (signed : Bool) (v : Nat) (s : State) (hk : Keeps
    W q0 s)
    (hW : Sub 0x8 W := by first | assumption | exact sub_of (by assumption) (by decide)) :
    Keeps W q0 (deliverLoad h r size signed v s) := by
  unfold deliverLoad
  repeat' (first
    | with_reducible assumption | exact sub_of (by assumption) (by decide) | with_reducible apply setHart_keeps
    | with_reducible apply setX_keeps | with_reducible apply setF_keeps | with_reducible apply setVec_keeps
    | with_reducible refine foldl_keeps _ _ _ ?_ ?_ | with_reducible refine foldl_fst_keeps _ _ _ ?_ ?_ | intro _ _ _
    | intro _ | with_reducible refine keeps_ite _ _ _ ?_ ?_ | split
    | with_reducible refine keeps_fst ?_ (by assumption) | with_reducible refine keeps_fst2 ?_ (by assumption)
    | simp only [])

theorem deliverFarAtomic_keeps {W : Nat} {q0 : State} (h r size op line v : Nat) (s : State) (hk : Keeps W q0 s)
    (hW : Sub 0x8 W := by first | assumption | exact sub_of (by assumption) (by decide)) :
    Keeps W q0 (deliverFarAtomic h r size op line v s) := by
  unfold deliverFarAtomic
  repeat' (first
    | with_reducible assumption | exact sub_of (by assumption) (by decide) | with_reducible apply setHart_keeps
    | with_reducible apply setX_keeps | with_reducible refine foldl_keeps _ _ _ ?_ ?_
    | with_reducible refine foldl_fst_keeps _ _ _ ?_ ?_ | intro _ _ _ | intro _
    | with_reducible refine keeps_ite _ _ _ ?_ ?_ | split | with_reducible refine keeps_fst ?_ (by assumption)
    | with_reducible refine keeps_fst2 ?_ (by assumption) | simp only [])

theorem hartAnswer_keeps {W : Nat} {q0 : State} (o : Out) (h r size : Nat) (sg : Bool) (va : Nat) (more : Bool)
    (resp : Nat × Nat) (s : State) (hk : Keeps W q0 s)
    (hW : Sub 0x438 W := by first | assumption | exact sub_of (by assumption) (by decide)) :
    Keeps W q0 (hartAnswer o h r size sg va more resp s) := by
  unfold hartAnswer
  repeat' (first
    | with_reducible assumption | exact sub_of (by assumption) (by decide) | with_reducible apply raise_keeps
    | with_reducible apply endAccess_keeps | with_reducible apply dropRecord_keeps
    | with_reducible apply answerRecord_keeps | with_reducible apply deliverLoad_keeps
    | with_reducible apply deliverFarAtomic_keeps | with_reducible refine foldl_keeps _ _ _ ?_ ?_
    | with_reducible refine foldl_fst_keeps _ _ _ ?_ ?_ | intro _ _ _ | intro _
    | with_reducible refine keeps_ite _ _ _ ?_ ?_ | split | with_reducible refine keeps_fst ?_ (by assumption)
    | with_reducible refine keeps_fst2 ?_ (by assumption) | simp only [])

theorem grantDone_keeps {W : Nat} {q0 : State} (i cl g base count ten : Nat) (ok : Bool) (s : State) (hk : Keeps W
    q0 s)
    (hW : Sub 0x10001001 W := by first | assumption | exact sub_of (by assumption) (by decide)) :
    Keeps W q0 (grantDone i cl g base count ten ok s) := by
  unfold grantDone
  repeat' (first
    | with_reducible assumption | exact sub_of (by assumption) (by decide) | with_reducible apply addStep_keeps
    | with_reducible apply stageDone_keeps | with_reducible refine foldl_keeps _ _ _ ?_ ?_
    | with_reducible refine foldl_fst_keeps _ _ _ ?_ ?_ | intro _ _ _ | intro _
    | with_reducible refine keeps_ite _ _ _ ?_ ?_ | split | with_reducible refine keeps_fst ?_ (by assumption)
    | with_reducible refine keeps_fst2 ?_ (by assumption) | simp only [])

theorem takeAnswer_keeps {W : Nat} {q0 : State} (o : Out) (a : Ans) (s : State) (hk : Keeps W q0 s)
    (hW : Sub 0x300FFD39 W := by first | assumption | exact sub_of (by assumption) (by decide)) :
    Keeps W q0 (takeAnswer o a s) := by
  unfold takeAnswer
  repeat' (first
    | with_reducible assumption | exact sub_of (by assumption) (by decide)
    | with_reducible exact twf_tset _ _ _ _ (by assumption)
    | with_reducible refine keeps_chan (W := W) ?_ _ (by assumption) | with_reducible exact twf_nil _
    | with_reducible refine keeps_ok (W := W) ?_ (by assumption) | with_reducible apply modGroup_keeps
    | with_reducible apply finishTrk_keeps | with_reducible apply completeFill_keeps
    | with_reducible apply gotLine_keeps | with_reducible apply modDma_keeps | with_reducible apply dmaLost_keeps
    | with_reducible apply hartAnswer_keeps | with_reducible apply grantDone_keeps
    | with_reducible refine foldl_keeps _ _ _ ?_ ?_ | with_reducible refine foldl_fst_keeps _ _ _ ?_ ?_ | intro _ _ _
    | intro _ | with_reducible refine keeps_ite _ _ _ ?_ ?_ | split
    | with_reducible refine keeps_fst ?_ (by assumption) | with_reducible refine keeps_fst2 ?_ (by assumption)
    | simp only [] | with_reducible refine keeps_lit (by assumption) ?_
    | (refine keeps_mem _ ?_ ?_ (sub_of (by assumption) (by decide))))

theorem aerEvent_keeps {W : Nat} {q0 : State} (g n : Nat) (devs : List Nat) (s : State) (hk : Keeps W q0 s) (hW : Sub
    0x83001 W) : Keeps W q0 (aerEvent g n devs s) := by
  unfold aerEvent
  with_reducible repeat' (first
    | assumption | apply recContained_keeps | apply recTenant_keeps | exact sub_of (by assumption) (by decide)
    | refine foldl_keeps _ _ _ ?_ ?_ | intro _ _ _)

theorem endRoot_keeps {W : Nat} {q0 : State} (g n : Nat) (s : State) (hk : Keeps W q0 s) (hW : Sub 0x300FFD39 W) :
    Keeps W q0 (endRoot g n s) := by
  unfold endRoot
  with_reducible repeat' (first
    | assumption | apply takeAnswer_keeps | exact sub_of (by assumption) (by decide)
    | refine foldl_keeps _ _ _ ?_ ?_ | intro _ _ _)

theorem endHost_keeps {W : Nat} {q0 : State} (g n : Nat) (s : State) (hk : Keeps W q0 s)
    (hW : Sub 0x300FFD39 W := by first | assumption | exact sub_of (by assumption) (by decide)) :
    Keeps W q0 (endHost g n s) := by
  unfold endHost
  repeat' (first
    | with_reducible assumption | exact sub_of (by assumption) (by decide)
    | with_reducible exact twf_tset _ _ _ _ (by assumption)
    | with_reducible refine keeps_chan (W := W) ?_ _ (by assumption) | with_reducible exact twf_nil _
    | with_reducible refine keeps_ok (W := W) ?_ (by assumption) | with_reducible apply recVisible_keeps
    | with_reducible apply takeAnswer_keeps | with_reducible refine foldl_keeps _ _ _ ?_ ?_
    | with_reducible refine foldl_fst_keeps _ _ _ ?_ ?_ | intro _ _ _ | intro _
    | with_reducible refine keeps_ite _ _ _ ?_ ?_ | split | with_reducible refine keeps_fst ?_ (by assumption)
    | with_reducible refine keeps_fst2 ?_ (by assumption) | simp only [])

theorem endRequests_keeps {W : Nat} {q0 : State} (g n : Nat) (s : State) (hk : Keeps W q0 s) (hW : Sub 0x300FFD39 W)
    : Keeps W q0 (endRequests g n s) := by
  unfold endRequests
  with_reducible repeat' (first
    | assumption | apply endRoot_keeps | apply endHost_keeps | exact sub_of (by assumption) (by decide) | split)

theorem linkDown_keeps {W : Nat} {q0 : State} (g n : Nat) (s : State) (hk : Keeps W q0 s) (hW : Sub 0x300FFD39 W) :
    Keeps W q0 (linkDown g n s) := by
  unfold linkDown
  with_reducible repeat' (first
    | assumption | apply recContained_keeps | apply bump_keeps | apply wr_keeps | apply endRequests_keeps
    | apply modGroup_keeps | apply aerEvent_keeps | exact sub_of (by assumption) (by decide) | split)

theorem fencePort_keeps {W : Nat} {q0 : State} (g n : Nat) (s : State) (hk : Keeps W q0 s) (hW : Sub 0x300FFD39 W) :
    Keeps W q0 (fencePort g n s) := by
  unfold fencePort
  with_reducible repeat' (first
    | assumption | apply wr_keeps | apply endRequests_keeps | exact sub_of (by assumption) (by decide))

theorem laneFailure_keeps {W : Nat} {q0 : State} (g n : Nat) (lanes : List Nat) (s : State) (hk : Keeps W q0 s) (hW :
    Sub 0xA2001 W) : Keeps W q0 (laneFailure g n lanes s) := by
  unfold laneFailure
  with_reducible repeat' (first
    | assumption | apply recContained_keeps | apply wr_keeps | apply bump_keeps | apply modGroup_keeps
    | exact sub_of (by assumption) (by decide) | split)

theorem retrainDone_keeps {W : Nat} {q0 : State} (g n : Nat) (s : State) (hk : Keeps W q0 s)
    (hW : Sub 0x1 W := by first | assumption | exact sub_of (by assumption) (by decide)) :
    Keeps W q0 (retrainDone g n s) := by
  unfold retrainDone
  repeat' (first
    | with_reducible assumption | exact sub_of (by assumption) (by decide) | with_reducible apply wr_keeps
    | with_reducible apply bump_keeps | with_reducible refine foldl_keeps _ _ _ ?_ ?_
    | with_reducible refine foldl_fst_keeps _ _ _ ?_ ?_ | intro _ _ _ | intro _
    | with_reducible refine keeps_ite _ _ _ ?_ ?_ | split | with_reducible refine keeps_fst ?_ (by assumption)
    | with_reducible refine keeps_fst2 ?_ (by assumption) | simp only [])

theorem retrainTimeout_keeps {W : Nat} {q0 : State} (g n : Nat) (s : State) (hk : Keeps W q0 s) (hW : Sub 0x300FFD39 W) : Keeps W q0 (retrainTimeout g n s) := by
  unfold retrainTimeout
  with_reducible repeat' (first
    | assumption | apply linkDown_keeps | exact sub_of (by assumption) (by decide) | split)

theorem linkUp_keeps {W : Nat} {q0 : State} (g n width speed : Nat) (flit : Bool) (funcs : List FuncInfo) (s :
    State) (hk : Keeps W q0 s)
    (hW : Sub 0x20001 W := by first | assumption | exact sub_of (by assumption) (by decide)) :
    Keeps W q0 (linkUp g n width speed flit funcs s) := by
  unfold linkUp
  repeat' (first
    | with_reducible assumption | exact sub_of (by assumption) (by decide) | with_reducible apply wr_keeps
    | with_reducible apply wrB_keeps | with_reducible apply modGroup_keeps
    | with_reducible refine foldl_keeps _ _ _ ?_ ?_ | with_reducible refine foldl_fst_keeps _ _ _ ?_ ?_ | intro _ _ _
    | intro _ | with_reducible refine keeps_ite _ _ _ ?_ ?_ | split
    | with_reducible refine keeps_fst ?_ (by assumption) | with_reducible refine keeps_fst2 ?_ (by assumption)
    | simp only [])

theorem trainRetry_keeps {W : Nat} {q0 : State} (g n : Nat) (s : State) (hk : Keeps W q0 s) (hW : Sub 0x20001 W) :
    Keeps W q0 (trainRetry g n s) := by
  unfold trainRetry
  with_reducible repeat' (first
    | assumption | apply wr_keeps | apply modGroup_keeps | exact sub_of (by assumption) (by decide) | split
    | simp only [])

theorem releaseDpc_keeps {W : Nat} {q0 : State} (g n : Nat) (s : State) (hk : Keeps W q0 s) (hW : Sub 0x20001 W) :
    Keeps W q0 (releaseDpc g n s) := by
  unfold releaseDpc
  with_reducible repeat' (first
    | assumption | apply wr_keeps | apply modGroup_keeps | exact sub_of (by assumption) (by decide) | split)

theorem changeOwner_keeps {W : Nat} {q0 : State} (g first count ten : Nat) (s : State) (hk : Keeps W q0 s)
    (hW : Sub 0x20000 W := by first | assumption | exact sub_of (by assumption) (by decide)) :
    Keeps W q0 (changeOwner g first count ten s) := by
  unfold changeOwner
  repeat' (first
    | with_reducible assumption | exact sub_of (by assumption) (by decide) | with_reducible apply modGroup_keeps
    | with_reducible refine foldl_keeps _ _ _ ?_ ?_ | with_reducible refine foldl_fst_keeps _ _ _ ?_ ?_ | intro _ _ _
    | intro _ | with_reducible refine keeps_ite _ _ _ ?_ ?_ | split
    | with_reducible refine keeps_fst ?_ (by assumption) | with_reducible refine keeps_fst2 ?_ (by assumption)
    | simp only [])

theorem functionResetDone_keeps {W : Nat} {q0 : State} (g dev : Nat) (s : State) (hk : Keeps W q0 s)
    (hW : Sub 0x20000 W := by first | assumption | exact sub_of (by assumption) (by decide)) :
    Keeps W q0 (functionResetDone g dev s) := by
  unfold functionResetDone
  repeat' (first
    | with_reducible assumption | exact sub_of (by assumption) (by decide) | with_reducible apply modGroup_keeps
    | with_reducible refine foldl_keeps _ _ _ ?_ ?_ | with_reducible refine foldl_fst_keeps _ _ _ ?_ ?_ | intro _ _ _
    | intro _ | with_reducible refine keeps_ite _ _ _ ?_ ?_ | split
    | with_reducible refine keeps_fst ?_ (by assumption) | with_reducible refine keeps_fst2 ?_ (by assumption)
    | simp only [])

theorem closeDevices_keeps {W : Nat} {q0 : State} (t : Nat) (s : State) (hk : Keeps W q0 s) (hW : Sub 0x20400 W) :
    Keeps W q0 (closeDevices t s) := by
  unfold closeDevices
  with_reducible repeat' (first
    | assumption | apply changeOwner_keeps | apply modGroup_keeps | apply setMem_keeps
    | exact sub_of (by assumption) (by decide) | refine keeps_ok (W := W) ?_ (by assumption)
    | refine foldl_keeps _ _ _ ?_ ?_ | exact twf_tset _ _ _ _ (by assumption) | exact twf_nil _
    | refine keeps_ok (W := W) ?_ (by assumption) | refine keeps_chan (W := W) ?_ _ (by assumption) | intro _ _ _
    | intro _)

theorem refuseIo_keeps {W : Nat} {q0 : State} (g tag pa : Nat) (s : State) (hk : Keeps W q0 s)
    (hW : Sub 0x82801 W := by first | assumption | exact sub_of (by assumption) (by decide)) :
    Keeps W q0 (refuseIo g tag pa s) := by
  unfold refuseIo
  repeat' (first
    | with_reducible assumption | exact sub_of (by assumption) (by decide) | with_reducible apply bump_keeps
    | with_reducible apply refuseGranule_keeps | with_reducible refine foldl_keeps _ _ _ ?_ ?_
    | with_reducible refine foldl_fst_keeps _ _ _ ?_ ?_ | intro _ _ _ | intro _
    | with_reducible refine keeps_ite _ _ _ ?_ ?_ | split | with_reducible refine keeps_fst ?_ (by assumption)
    | with_reducible refine keeps_fst2 ?_ (by assumption) | simp only [])

theorem sendVector_keeps {W : Nat} {q0 : State} (g v : Nat) (s : State) (hk : Keeps W q0 s)
    (hW : Sub 0x20000 W := by first | assumption | exact sub_of (by assumption) (by decide)) :
    Keeps W q0 (sendVector g v s) := by
  unfold sendVector
  repeat' (first
    | with_reducible assumption | exact sub_of (by assumption) (by decide) | with_reducible apply modGroup_keeps
    | with_reducible refine foldl_keeps _ _ _ ?_ ?_ | with_reducible refine foldl_fst_keeps _ _ _ ?_ ?_ | intro _ _ _
    | intro _ | with_reducible refine keeps_ite _ _ _ ?_ ?_ | split
    | with_reducible refine keeps_fst ?_ (by assumption) | with_reducible refine keeps_fst2 ?_ (by assumption)
    | simp only [])

theorem signalWrite_keeps {W : Nat} {q0 : State} (g off size v : Nat) (s : State) (hk : Keeps W q0 s)
    (hW : Sub 0x20000 W := by first | assumption | exact sub_of (by assumption) (by decide)) :
    Keeps W q0 (signalWrite g off size v s) := by
  unfold signalWrite
  repeat' (first
    | with_reducible assumption | exact sub_of (by assumption) (by decide) | with_reducible apply sendVector_keeps
    | with_reducible refine foldl_keeps _ _ _ ?_ ?_ | with_reducible refine foldl_fst_keeps _ _ _ ?_ ?_ | intro _ _ _
    | intro _ | with_reducible refine keeps_ite _ _ _ ?_ ?_ | split
    | with_reducible refine keeps_fst ?_ (by assumption) | with_reducible refine keeps_fst2 ?_ (by assumption)
    | simp only [])

theorem bar0Store_keeps {W : Nat} {q0 : State} (g off v : Nat) (s : State) (hk : Keeps W q0 s)
    (hW : Sub 0x20000 W := by first | assumption | exact sub_of (by assumption) (by decide)) :
    Keeps W q0 (bar0Store g off v s) := by
  unfold bar0Store
  repeat' (first
    | with_reducible assumption | exact sub_of (by assumption) (by decide) | with_reducible apply modGroup_keeps
    | with_reducible refine foldl_keeps _ _ _ ?_ ?_ | with_reducible refine foldl_fst_keeps _ _ _ ?_ ?_ | intro _ _ _
    | intro _ | with_reducible refine keeps_ite _ _ _ ?_ ?_ | split
    | with_reducible refine keeps_fst ?_ (by assumption) | with_reducible refine keeps_fst2 ?_ (by assumption)
    | simp only [])

theorem sendPending_keeps {W : Nat} {q0 : State} (g : Nat) (s : State) (hk : Keeps W q0 s)
    (hW : Sub 0x20000 W := by first | assumption | exact sub_of (by assumption) (by decide)) :
    Keeps W q0 (sendPending g s) := by
  unfold sendPending
  repeat' (first
    | with_reducible assumption | exact sub_of (by assumption) (by decide) | with_reducible apply sendVector_keeps
    | with_reducible refine foldl_keeps _ _ _ ?_ ?_ | with_reducible refine foldl_fst_keeps _ _ _ ?_ ?_ | intro _ _ _
    | intro _ | with_reducible refine keeps_ite _ _ _ ?_ ?_ | split
    | with_reducible refine keeps_fst ?_ (by assumption) | with_reducible refine keeps_fst2 ?_ (by assumption)
    | simp only [])

theorem execSignalPage_keeps {W : Nat} {q0 : State} (h pa size v : Nat) (s : State) (hk : Keeps W q0 s)
    (hW : Sub 0xA2C19 W := by first | assumption | exact sub_of (by assumption) (by decide)) :
    Keeps W q0 (execSignalPage h pa size v s) := by
  unfold execSignalPage
  repeat' (first
    | with_reducible assumption | exact sub_of (by assumption) (by decide)
    | with_reducible exact twf_tset _ _ _ _ (by assumption)
    | with_reducible refine keeps_chan (W := W) ?_ _ (by assumption) | with_reducible exact twf_nil _
    | with_reducible refine keeps_ok (W := W) ?_ (by assumption) | with_reducible apply raise_keeps
    | with_reducible apply refuseIo_keeps | with_reducible apply signalWrite_keeps
    | with_reducible refine foldl_keeps _ _ _ ?_ ?_ | with_reducible refine foldl_fst_keeps _ _ _ ?_ ?_ | intro _ _ _
    | intro _ | with_reducible refine keeps_ite _ _ _ ?_ ?_ | split
    | with_reducible refine keeps_fst ?_ (by assumption) | with_reducible refine keeps_fst2 ?_ (by assumption)
    | simp only [])

theorem farAnswer_keeps {W : Nat} {q0 : State} (g status : Nat) (data : Bytes) (s : State) (hk : Keeps W q0 s) (hW :
    Sub 0x20000 W := by first | assumption | exact sub_of (by assumption) (by decide)) : Keeps W q0 (farAnswer g
    status data s) := by
  unfold farAnswer
  with_reducible repeat' (first | assumption | apply modGroup_keeps)

theorem ingressIo_keeps {W : Nat} {q0 : State} (g dev pa : Nat) (write : Bool) (size data p : Nat) (s : State) (w : IoAt) (hk : Keeps W q0 s)
    (hW : Sub 0x200BFD39 W := by first | assumption | exact sub_of (by assumption) (by decide)) :
    Keeps W q0 (ingressIo g dev pa write size data p s w) := by
  cases w <;> unfold ingressIo <;> try dsimp only
  all_goals try unfold ingressIo.ingressOut
  all_goals repeat' (first
    | with_reducible assumption | exact sub_of (by assumption) (by decide) | with_reducible apply freeNext_keeps
    | with_reducible apply sendOut_keeps
    | with_reducible apply fixedWrite_keeps
    | with_reducible apply refuseIo_keeps
    | with_reducible apply signalWrite_keeps
    | with_reducible apply farAnswer_keeps
    | intro _ _ | with_reducible refine keeps_ite _ _ _ ?_ ?_ | split | with_reducible refine keeps_fst ?_ (by assumption))

theorem ingressLine_keeps {W : Nat} {q0 : State} (g tag pa : Nat) (write : Bool) (size data : Nat) (s : State) (hk :
    Keeps W q0 s)
    (hW : Sub 0x200BFD39 W := by first | assumption | exact sub_of (by assumption) (by decide)) :
    Keeps W q0 (ingressLine g tag pa write size data s).1 := by
  unfold ingressLine
  repeat' (first
    | with_reducible assumption | exact sub_of (by assumption) (by decide)
    | with_reducible exact twf_tset _ _ _ _ (by assumption)
    | with_reducible refine keeps_chan (W := W) ?_ _ (by assumption) | with_reducible exact twf_nil _
    | with_reducible refine keeps_ok (W := W) ?_ (by assumption) | with_reducible apply dropRead_keeps
    | with_reducible apply currentLine_keeps | with_reducible apply ncOpen_keeps
    | with_reducible apply writeAtHome_keeps | with_reducible apply farAnswer_keeps
    | with_reducible refine foldl_keeps _ _ _ ?_ ?_ | with_reducible refine foldl_fst_keeps _ _ _ ?_ ?_ | intro _ _ _
    | intro _ | with_reducible refine keeps_ite _ _ _ ?_ ?_ | split
    | with_reducible refine keeps_fst ?_ (by assumption) | with_reducible refine keeps_fst2 ?_ (by assumption)
    | simp only [])

theorem ingressFar_keeps {W : Nat} {q0 : State} (g dev pa : Nat) (write : Bool) (size data to' : Nat) (s : State)
    (hk : Keeps W q0 s)
    (hW : Sub 0x200BFF39 W := by first | assumption | exact sub_of (by assumption) (by decide)) :
    Keeps W q0 (ingressFar g dev pa write size data to' s).1 := by
  unfold ingressFar
  repeat' (first
    | with_reducible assumption | exact sub_of (by assumption) (by decide)
    | with_reducible exact twf_tset _ _ _ _ (by assumption)
    | with_reducible refine keeps_chan (W := W) ?_ _ (by assumption) | with_reducible exact twf_nil _
    | with_reducible refine keeps_ok (W := W) ?_ (by assumption) | with_reducible apply dropRead_keeps
    | with_reducible apply sendOut_keeps | with_reducible apply flushLine_keeps
    | with_reducible apply currentLine_keeps | with_reducible apply ncOpen_keeps
    | with_reducible apply breakResv_keeps | with_reducible apply farAnswer_keeps
    | with_reducible refine foldl_keeps _ _ _ ?_ ?_ | with_reducible refine foldl_fst_keeps _ _ _ ?_ ?_ | intro _ _ _
    | intro _ | with_reducible refine keeps_ite _ _ _ ?_ ?_ | split
    | with_reducible refine keeps_fst ?_ (by assumption) | with_reducible refine keeps_fst2 ?_ (by assumption)
    | simp only [])

theorem ingressAt_keeps {W : Nat} {q0 : State} (g dev pa : Nat) (write : Bool) (size data : Nat) (s : State) (r : Region) (hk : Keeps W q0 s)
    (hW : Sub 0x200BFF39 W := by first | assumption | exact sub_of (by assumption) (by decide)) :
    Keeps W q0 (ingressAt g dev pa write size data s r).1 := by
  cases r <;> unfold ingressAt <;> try dsimp only
  all_goals repeat' (first
    | with_reducible assumption | exact sub_of (by assumption) (by decide) | with_reducible apply refuseGranule_keeps
    | with_reducible apply refuseLine_keeps
    | with_reducible apply farAnswer_keeps
    | with_reducible apply ingressIo_keeps
    | with_reducible apply ingressLine_keeps
    | with_reducible apply ingressFar_keeps
    | intro _ _ | with_reducible refine keeps_ite _ _ _ ?_ ?_ | split | with_reducible refine keeps_fst ?_ (by assumption))

theorem ingress_keeps {W : Nat} {q0 : State} (g dev pa : Nat) (write : Bool) (size data : Nat) (s : State) (hk :
    Keeps W q0 s)
    (hW : Sub 0x200BFF39 W := by first | assumption | exact sub_of (by assumption) (by decide)) :
    Keeps W q0 (ingress g dev pa write size data s).1 := by
  unfold ingress
  repeat' (first
    | with_reducible assumption | exact sub_of (by assumption) (by decide)
    | with_reducible exact twf_tset _ _ _ _ (by assumption)
    | with_reducible refine keeps_chan (W := W) ?_ _ (by assumption) | with_reducible exact twf_nil _
    | with_reducible refine keeps_ok (W := W) ?_ (by assumption) | with_reducible apply sendOut_keeps
    | with_reducible apply farAnswer_keeps | with_reducible apply ingressFar_keeps
    | with_reducible apply ingressAt_keeps | with_reducible refine foldl_keeps _ _ _ ?_ ?_
    | with_reducible refine foldl_fst_keeps _ _ _ ?_ ?_ | intro _ _ _ | intro _
    | with_reducible refine keeps_ite _ _ _ ?_ ?_ | split | with_reducible refine keeps_fst ?_ (by assumption)
    | with_reducible refine keeps_fst2 ?_ (by assumption) | simp only [])

theorem atsAnswer_keeps {W : Nat} {q0 : State} (g : Nat) (q : DevReq) (pa : Option Nat) (s : State) (hk : Keeps W q0
    s)
    (hW : Sub 0x20000 W := by first | assumption | exact sub_of (by assumption) (by decide)) :
    Keeps W q0 (atsAnswer g q pa s) := by
  unfold atsAnswer
  repeat' (first
    | with_reducible assumption | exact sub_of (by assumption) (by decide) | with_reducible apply farAnswer_keeps
    | with_reducible refine foldl_keeps _ _ _ ?_ ?_ | with_reducible refine foldl_fst_keeps _ _ _ ?_ ?_ | intro _ _ _
    | intro _ | with_reducible refine keeps_ite _ _ _ ?_ ?_ | split
    | with_reducible refine keeps_fst ?_ (by assumption) | with_reducible refine keeps_fst2 ?_ (by assumption)
    | simp only [])

theorem selfStore_keeps {W : Nat} {q0 : State} (g off v : Nat) (s : State) (hk : Keeps W q0 s)
    (hW : Sub 0x20000 W := by first | assumption | exact sub_of (by assumption) (by decide)) :
    Keeps W q0 (selfStore g off v s) := by
  unfold selfStore
  repeat' (first
    | with_reducible assumption | exact sub_of (by assumption) (by decide) | with_reducible apply modGroup_keeps
    | with_reducible refine foldl_keeps _ _ _ ?_ ?_ | with_reducible refine foldl_fst_keeps _ _ _ ?_ ?_ | intro _ _ _
    | intro _ | with_reducible refine keeps_ite _ _ _ ?_ ?_ | split
    | with_reducible refine keeps_fst ?_ (by assumption) | with_reducible refine keeps_fst2 ?_ (by assumption)
    | simp only [])

theorem dwordAccess_keeps {W : Nat} {q0 : State} (g : Nat) (q : DevReq) (read : State → Nat → Nat)
    (store : Nat → Nat → State → State) (s : State) (h_store : ∀ d v a, Keeps W q0 a → Keeps W q0 (store d v a))
    (hk : Keeps W q0 s)
    (hW : Sub 0x20000 W := by first | assumption | exact sub_of (by assumption) (by decide)) :
    Keeps W q0 (dwordAccess g q read store s) := by
  unfold dwordAccess; dsimp only
  split
  · split
    · exact h_store _ _ _ hk
    · exact h_store _ _ _ (h_store _ _ _ hk)
  · exact farAnswer_keeps _ _ _ _ hk (sub_of hW (by decide))

theorem ingressRequest_keeps {W : Nat} {q0 : State} (g n : Nat) (qq : DevReq) (s : State) (hk : Keeps W q0 s)
    (hW : Sub 0x200BFF39 W := by first | assumption | exact sub_of (by assumption) (by decide)) :
    Keeps W q0 (ingressRequest g n qq s) := by
  unfold ingressRequest
  repeat' (first
    | with_reducible assumption | exact sub_of (by assumption) (by decide)
    | with_reducible exact twf_tset _ _ _ _ (by assumption)
    | with_reducible refine keeps_chan (W := W) ?_ _ (by assumption) | with_reducible exact twf_nil _
    | with_reducible refine keeps_ok (W := W) ?_ (by assumption) | with_reducible apply modGroup_keeps
    | with_reducible apply iomTranslate_keeps | with_reducible apply pageRequest_keeps
    | with_reducible apply bar0Store_keeps | with_reducible apply sendPending_keeps
    | with_reducible apply farAnswer_keeps | with_reducible apply ingress_keeps | with_reducible apply atsAnswer_keeps
    | with_reducible apply selfStore_keeps | with_reducible apply dwordAccess_keeps
    | with_reducible apply selfStore_keeps | with_reducible apply bar0Store_keeps
    | with_reducible refine foldl_keeps _ _ _ ?_ ?_ | with_reducible refine foldl_fst_keeps _ _ _ ?_ ?_ | intro _ _ _
    | intro _ | with_reducible refine keeps_ite _ _ _ ?_ ?_ | split
    | with_reducible refine keeps_fst ?_ (by assumption) | with_reducible refine keeps_fst2 ?_ (by assumption)
    | simp only [] | with_reducible refine keeps_lit (by assumption) ?_
    | (refine keeps_mem _ ?_ ?_ (sub_of (by assumption) (by decide))))

theorem memDeviceRequest_keeps {W : Nat} {q0 : State} (g dpa : Nat) (write : Bool) (data : Nat) (s : State) (hk :
    Keeps W q0 s)
    (hW : Sub 0xA3C01 W := by first | assumption | exact sub_of (by assumption) (by decide)) :
    Keeps W q0 (memDeviceRequest g dpa write data s) := by
  unfold memDeviceRequest
  repeat' (first
    | with_reducible assumption | exact sub_of (by assumption) (by decide)
    | with_reducible exact twf_tset _ _ _ _ (by assumption)
    | with_reducible refine keeps_chan (W := W) ?_ _ (by assumption) | with_reducible exact twf_nil _
    | with_reducible refine keeps_ok (W := W) ?_ (by assumption) | with_reducible apply dramRequest_keeps
    | with_reducible apply farAnswer_keeps | with_reducible refine foldl_keeps _ _ _ ?_ ?_
    | with_reducible refine foldl_fst_keeps _ _ _ ?_ ?_ | intro _ _ _ | intro _
    | with_reducible refine keeps_ite _ _ _ ?_ ?_ | split | with_reducible refine keeps_fst ?_ (by assumption)
    | with_reducible refine keeps_fst2 ?_ (by assumption) | simp only [])

theorem rootCompletion_keeps {W : Nat} {q0 : State} (xid status data : Nat) (s : State) (hk : Keeps W q0 s)
    (hW : Sub 0x300FFD39 W := by first | assumption | exact sub_of (by assumption) (by decide)) :
    Keeps W q0 (rootCompletion xid status data s) := by
  unfold rootCompletion
  repeat' (first
    | with_reducible assumption | exact sub_of (by assumption) (by decide)
    | with_reducible exact twf_tset _ _ _ _ (by assumption)
    | with_reducible refine keeps_chan (W := W) ?_ _ (by assumption) | with_reducible exact twf_nil _
    | with_reducible refine keeps_ok (W := W) ?_ (by assumption) | with_reducible apply takeAnswer_keeps
    | with_reducible apply aerEvent_keeps | with_reducible refine foldl_keeps _ _ _ ?_ ?_
    | with_reducible refine foldl_fst_keeps _ _ _ ?_ ?_ | intro _ _ _ | intro _
    | with_reducible refine keeps_ite _ _ _ ?_ ?_ | split | with_reducible refine keeps_fst ?_ (by assumption)
    | with_reducible refine keeps_fst2 ?_ (by assumption) | simp only [])

theorem completionTimeout_keeps {W : Nat} {q0 : State} (xid ns : Nat) (s : State) (hk : Keeps W q0 s)
    (hW : Sub 0x300FFD39 W := by first | assumption | exact sub_of (by assumption) (by decide)) :
    Keeps W q0 (completionTimeout xid ns s) := by
  unfold completionTimeout
  repeat' (first
    | with_reducible assumption | exact sub_of (by assumption) (by decide)
    | with_reducible exact twf_tset _ _ _ _ (by assumption)
    | with_reducible refine keeps_chan (W := W) ?_ _ (by assumption) | with_reducible exact twf_nil _
    | with_reducible refine keeps_ok (W := W) ?_ (by assumption) | with_reducible apply takeAnswer_keeps
    | with_reducible apply aerEvent_keeps | with_reducible refine foldl_keeps _ _ _ ?_ ?_
    | with_reducible refine foldl_fst_keeps _ _ _ ?_ ?_ | intro _ _ _ | intro _
    | with_reducible refine keeps_ite _ _ _ ?_ ?_ | split | with_reducible refine keeps_fst ?_ (by assumption)
    | with_reducible refine keeps_fst2 ?_ (by assumption) | simp only [])

theorem cxlResponse_keeps {W : Nat} {q0 : State} (xid data : Nat) (poison : Bool) (s : State) (hk : Keeps W q0 s)
    (hW : Sub 0x300FFD39 W := by first | assumption | exact sub_of (by assumption) (by decide)) :
    Keeps W q0 (cxlResponse xid data poison s) := by
  unfold cxlResponse
  repeat' (first
    | with_reducible assumption | exact sub_of (by assumption) (by decide)
    | with_reducible exact twf_tset _ _ _ _ (by assumption)
    | with_reducible refine keeps_chan (W := W) ?_ _ (by assumption) | with_reducible exact twf_nil _
    | with_reducible refine keeps_ok (W := W) ?_ (by assumption) | with_reducible apply takeAnswer_keeps
    | with_reducible refine foldl_keeps _ _ _ ?_ ?_ | with_reducible refine foldl_fst_keeps _ _ _ ?_ ?_ | intro _ _ _
    | intro _ | with_reducible refine keeps_ite _ _ _ ?_ ?_ | split
    | with_reducible refine keeps_fst ?_ (by assumption) | with_reducible refine keeps_fst2 ?_ (by assumption)
    | simp only [])

theorem dvsecStore_keeps {W : Nat} {q0 : State} (off size v : Nat) (s : State) (hk : Keeps W q0 s)
    (hW : Sub 0x1 W := by first | assumption | exact sub_of (by assumption) (by decide)) :
    Keeps W q0 (dvsecStore off size v s) := by
  unfold dvsecStore
  repeat' (first
    | with_reducible assumption | exact sub_of (by assumption) (by decide) | with_reducible apply fieldStore_keeps
    | with_reducible refine foldl_keeps _ _ _ ?_ ?_ | with_reducible refine foldl_fst_keeps _ _ _ ?_ ?_ | intro _ _ _
    | intro _ | with_reducible refine keeps_ite _ _ _ ?_ ?_ | split
    | with_reducible refine keeps_fst ?_ (by assumption) | with_reducible refine keeps_fst2 ?_ (by assumption)
    | simp only [])

theorem ecamWrite_keeps {W : Nat} {q0 : State} (tag g dev off size v : Nat) (r : EcamReg) (s : State) (hk : Keeps W
    q0 s)
    (hW : Sub 0xA2001 W := by first | assumption | exact sub_of (by assumption) (by decide)) :
    Keeps W q0 (ecamWrite tag g dev off size v r s) := by
  unfold ecamWrite
  repeat' (first
    | with_reducible assumption | exact sub_of (by assumption) (by decide) | with_reducible apply refuseWindow_keeps
    | with_reducible apply modGroup_keeps | with_reducible apply releaseDpc_keeps
    | with_reducible apply dvsecStore_keeps | with_reducible refine foldl_keeps _ _ _ ?_ ?_
    | with_reducible refine foldl_fst_keeps _ _ _ ?_ ?_ | intro _ _ _ | intro _
    | with_reducible refine keeps_ite _ _ _ ?_ ?_ | split | with_reducible refine keeps_fst ?_ (by assumption)
    | with_reducible refine keeps_fst2 ?_ (by assumption) | simp only [])

theorem cxlMailbox_keeps {W : Nat} {q0 : State} (g status : Nat) (f : State → Bytes) (upd : Group → Group) (s :
    State) (hk : Keeps W q0 s) (hW : Sub 0x20000 W) : Keeps W q0 (cxlMailbox g status f upd s) := by
  unfold cxlMailbox
  with_reducible repeat' (first
    | assumption | apply farAnswer_keeps | apply modGroup_keeps | exact sub_of (by assumption) (by decide) | split)

theorem portStatusCmd_keeps {W : Nat} {q0 : State} (i : Nat) (c : Bytes) (s : State) (hk : Keeps W q0 s) (hW : Sub
    0x1001 W) : Keeps W q0 (portStatusCmd i c s) := by
  unfold portStatusCmd
  with_reducible repeat' (first | assumption | apply stageDone_keeps)

theorem takeRole_keeps {W : Nat} {q0 : State} (g n role : Nat) (s : State) (hk : Keeps W q0 s)
    (hW : Sub 0x300FFD39 W := by first | assumption | exact sub_of (by assumption) (by decide)) :
    Keeps W q0 (takeRole g n role s) := by
  unfold takeRole
  repeat' (first
    | with_reducible assumption | exact sub_of (by assumption) (by decide)
    | with_reducible exact twf_tset _ _ _ _ (by assumption)
    | with_reducible refine keeps_chan (W := W) ?_ _ (by assumption) | with_reducible exact twf_nil _
    | with_reducible refine keeps_ok (W := W) ?_ (by assumption) | with_reducible apply wr_keeps
    | with_reducible apply modGroup_keeps | with_reducible apply endRequests_keeps
    | with_reducible refine foldl_keeps _ _ _ ?_ ?_ | with_reducible refine foldl_fst_keeps _ _ _ ?_ ?_ | intro _ _ _
    | intro _ | with_reducible refine keeps_ite _ _ _ ?_ ?_ | split
    | with_reducible refine keeps_fst ?_ (by assumption) | with_reducible refine keeps_fst2 ?_ (by assumption)
    | simp only [])

theorem takeBif_keeps {W : Nat} {q0 : State} (g code : Nat) (s : State) (hk : Keeps W q0 s)
    (hW : Sub 0x1 W := by first | assumption | exact sub_of (by assumption) (by decide)) :
    Keeps W q0 (takeBif g code s) := by
  unfold takeBif
  repeat' (first
    | with_reducible assumption | exact sub_of (by assumption) (by decide) | with_reducible apply wr_keeps
    | with_reducible refine foldl_keeps _ _ _ ?_ ?_ | with_reducible refine foldl_fst_keeps _ _ _ ?_ ?_ | intro _ _ _
    | intro _ | with_reducible refine keeps_ite _ _ _ ?_ ?_ | split
    | with_reducible refine keeps_fst ?_ (by assumption) | with_reducible refine keeps_fst2 ?_ (by assumption)
    | simp only [])

theorem offWhenDisabled_keeps {W : Nat} {q0 : State} (g : Nat) (s : State) (hk : Keeps W q0 s)
    (hW : Sub 0x8000000 W := by first | assumption | exact sub_of (by assumption) (by decide)) :
    Keeps W q0 (offWhenDisabled g s) := by
  unfold offWhenDisabled
  repeat' (first
    | with_reducible assumption | exact sub_of (by assumption) (by decide) | with_reducible apply addDue_keeps
    | with_reducible refine foldl_keeps _ _ _ ?_ ?_ | with_reducible refine foldl_fst_keeps _ _ _ ?_ ?_ | intro _ _ _
    | intro _ | with_reducible refine keeps_ite _ _ _ ?_ ?_ | split
    | with_reducible refine keeps_fst ?_ (by assumption) | with_reducible refine keeps_fst2 ?_ (by assumption)
    | simp only [])

theorem applyConf_keeps {W : Nat} {q0 : State} (i cl g code : Nat) (roles : List Nat) (s : State) (hk : Keeps W q0
    s)
    (hW : Sub 0x380FFD39 W := by first | assumption | exact sub_of (by assumption) (by decide)) :
    Keeps W q0 (applyConf i cl g code roles s) := by
  unfold applyConf
  repeat' (first
    | with_reducible assumption | exact sub_of (by assumption) (by decide)
    | with_reducible exact twf_tset _ _ _ _ (by assumption)
    | with_reducible refine keeps_chan (W := W) ?_ _ (by assumption) | with_reducible exact twf_nil _
    | with_reducible refine keeps_ok (W := W) ?_ (by assumption) | with_reducible apply stageDone_keeps
    | with_reducible apply takeRole_keeps | with_reducible apply takeBif_keeps
    | with_reducible apply offWhenDisabled_keeps | with_reducible refine foldl_keeps _ _ _ ?_ ?_
    | with_reducible refine foldl_fst_keeps _ _ _ ?_ ?_ | intro _ _ _ | intro _
    | with_reducible refine keeps_ite _ _ _ ?_ ?_ | split | with_reducible refine keeps_fst ?_ (by assumption)
    | with_reducible refine keeps_fst2 ?_ (by assumption) | simp only [])

theorem portConfig_keeps {W : Nat} {q0 : State} (i : Nat) (c : Bytes) (s : State) (hk : Keeps W q0 s)
    (hW : Sub 0x18001001 W := by first | assumption | exact sub_of (by assumption) (by decide)) :
    Keeps W q0 (portConfig i c s) := by
  unfold portConfig
  repeat' (first
    | with_reducible assumption | exact sub_of (by assumption) (by decide) | with_reducible apply addDue_keeps
    | with_reducible apply addStep_keeps | with_reducible apply stageDone_keeps
    | with_reducible refine foldl_keeps _ _ _ ?_ ?_ | with_reducible refine foldl_fst_keeps _ _ _ ?_ ?_ | intro _ _ _
    | intro _ | with_reducible refine keeps_ite _ _ _ ?_ ?_ | split
    | with_reducible refine keeps_fst ?_ (by assumption) | with_reducible refine keeps_fst2 ?_ (by assumption)
    | simp only [])

theorem portAssign_keeps {W : Nat} {q0 : State} (i : Nat) (c : Bytes) (s : State) (hk : Keeps W q0 s)
    (hW : Sub 0x10021001 W := by first | assumption | exact sub_of (by assumption) (by decide)) :
    Keeps W q0 (portAssign i c s) := by
  unfold portAssign
  repeat' (first
    | with_reducible assumption | exact sub_of (by assumption) (by decide) | with_reducible apply addStep_keeps
    | with_reducible apply stageDone_keeps | with_reducible apply modGroup_keeps
    | with_reducible refine foldl_keeps _ _ _ ?_ ?_ | with_reducible refine foldl_fst_keeps _ _ _ ?_ ?_ | intro _ _ _
    | intro _ | with_reducible refine keeps_ite _ _ _ ?_ ?_ | split
    | with_reducible refine keeps_fst ?_ (by assumption) | with_reducible refine keeps_fst2 ?_ (by assumption)
    | simp only [])

theorem applyEp_keeps {W : Nat} {q0 : State} (g bar2 r : Nat) (en : Bool) (owner base : Nat) (s : State) (hk : Keeps
    W q0 s) (hW : Sub 0x20000 W) : Keeps W q0 (applyEp g bar2 r en owner base s) := by
  unfold applyEp
  with_reducible repeat' (first | assumption | apply modGroup_keeps)

theorem portEp_keeps {W : Nat} {q0 : State} (i : Nat) (c : Bytes) (s : State) (hk : Keeps W q0 s)
    (hW : Sub 0x10001001 W := by first | assumption | exact sub_of (by assumption) (by decide)) :
    Keeps W q0 (portEp i c s) := by
  unfold portEp
  repeat' (first
    | with_reducible assumption | exact sub_of (by assumption) (by decide) | with_reducible apply addStep_keeps
    | with_reducible apply stageDone_keeps | with_reducible refine foldl_keeps _ _ _ ?_ ?_
    | with_reducible refine foldl_fst_keeps _ _ _ ?_ ?_ | intro _ _ _ | intro _
    | with_reducible refine keeps_ite _ _ _ ?_ ?_ | split | with_reducible refine keeps_fst ?_ (by assumption)
    | with_reducible refine keeps_fst2 ?_ (by assumption) | simp only [])

theorem discardLines_keeps {W : Nat} {q0 : State} (p : Nat → Bool) (s : State) (hk : Keeps W q0 s) (hW : Sub 0x319 W)
    : Keeps W q0 (discardLines p s) := by
  unfold discardLines
  with_reducible repeat' (first
    | assumption | apply discardLine_keeps | exact sub_of (by assumption) (by decide)
    | refine foldl_keeps _ _ _ ?_ ?_ | intro _ _ _)

theorem cxlChange_keeps {W : Nat} {q0 : State} (g first count ten : Nat) (s : State) (hk : Keeps W q0 s)
    (hW : Sub 0x719 W := by first | assumption | exact sub_of (by assumption) (by decide)) :
    Keeps W q0 (cxlChange g first count ten s) := by
  unfold cxlChange
  repeat' (first
    | with_reducible assumption | exact sub_of (by assumption) (by decide)
    | with_reducible exact twf_tset _ _ _ _ (by assumption)
    | with_reducible refine keeps_chan (W := W) ?_ _ (by assumption) | with_reducible exact twf_nil _
    | with_reducible refine keeps_ok (W := W) ?_ (by assumption) | with_reducible apply setMem_keeps
    | with_reducible apply discardLines_keeps | with_reducible refine foldl_keeps _ _ _ ?_ ?_
    | with_reducible refine foldl_fst_keeps _ _ _ ?_ ?_ | intro _ _ _ | intro _
    | with_reducible refine keeps_ite _ _ _ ?_ ?_ | split | with_reducible refine keeps_fst ?_ (by assumption)
    | with_reducible refine keeps_fst2 ?_ (by assumption) | simp only [])

theorem portCxlgrant_keeps {W : Nat} {q0 : State} (i : Nat) (c : Bytes) (s : State) (hk : Keeps W q0 s)
    (hW : Sub 0x3001D001 W := by first | assumption | exact sub_of (by assumption) (by decide)) :
    Keeps W q0 (portCxlgrant i c s) := by
  unfold portCxlgrant
  repeat' (first
    | with_reducible assumption | exact sub_of (by assumption) (by decide) | with_reducible apply addStep_keeps
    | with_reducible apply stageDone_keeps | with_reducible apply sendOut_keeps
    | with_reducible refine foldl_keeps _ _ _ ?_ ?_ | with_reducible refine foldl_fst_keeps _ _ _ ?_ ?_ | intro _ _ _
    | intro _ | with_reducible refine keeps_ite _ _ _ ?_ ?_ | split
    | with_reducible refine keeps_fst ?_ (by assumption) | with_reducible refine keeps_fst2 ?_ (by assumption)
    | simp only [])

theorem groupBeat_keeps {W : Nat} {q0 : State} (g : Nat) (s : State) (hk : Keeps W q0 s)
    (hW : Sub 0x24000 W := by first | assumption | exact sub_of (by assumption) (by decide)) :
    Keeps W q0 (groupBeat g s) := by
  unfold groupBeat
  repeat' (first
    | with_reducible assumption | exact sub_of (by assumption) (by decide)
    | with_reducible apply functionResetDone_keeps | with_reducible refine foldl_keeps _ _ _ ?_ ?_
    | with_reducible refine foldl_fst_keeps _ _ _ ?_ ?_ | intro _ _ _ | intro _
    | with_reducible refine keeps_ite _ _ _ ?_ ?_ | split | with_reducible refine keeps_fst ?_ (by assumption)
    | with_reducible refine keeps_fst2 ?_ (by assumption) | simp only []
    | with_reducible refine keeps_lit (by assumption) ?_)

theorem groupsBeat_keeps {W : Nat} {q0 : State} (s : State) (hk : Keeps W q0 s)
    (hW : Sub 0x200BFD39 W := by first | assumption | exact sub_of (by assumption) (by decide)) :
    Keeps W q0 (groupsBeat s) := by
  unfold groupsBeat
  repeat' (first
    | with_reducible assumption | exact sub_of (by assumption) (by decide)
    | with_reducible exact twf_tset _ _ _ _ (by assumption)
    | with_reducible refine keeps_chan (W := W) ?_ _ (by assumption) | with_reducible exact twf_nil _
    | with_reducible refine keeps_ok (W := W) ?_ (by assumption) | with_reducible apply queuesBeat_keeps
    | with_reducible apply groupBeat_keeps | with_reducible refine foldl_keeps _ _ _ ?_ ?_
    | with_reducible refine foldl_fst_keeps _ _ _ ?_ ?_ | intro _ _ _ | intro _
    | with_reducible refine keeps_ite _ _ _ ?_ ?_ | split | with_reducible refine keeps_fst ?_ (by assumption)
    | with_reducible refine keeps_fst2 ?_ (by assumption) | simp only [])

/-! ## Dma -/

theorem dmaBy_keeps {W : Nat} {q0 : State} (tag d off : Nat) (f : State → State) (s : State) (h_f : ∀ a, Keeps W q0 a
    → Keeps W q0 (f a)) (hk : Keeps W q0 s) (hW : Sub 0x82001 W) : Keeps W q0 (dmaBy tag d off f s) := by
  unfold dmaBy
  with_reducible repeat' (first
    | assumption | apply refuseWindow_keeps | exact sub_of (by assumption) (by decide) | apply h_f | split)

theorem dmaRefused_keeps {W : Nat} {q0 : State} (d pa kind : Nat) (s : State) (hk : Keeps W q0 s)
    (hW : Sub 0x82801 W := by first | assumption | exact sub_of (by assumption) (by decide)) :
    Keeps W q0 (dmaRefused d pa kind s) := by
  unfold dmaRefused
  repeat' (first
    | with_reducible assumption | exact sub_of (by assumption) (by decide) | with_reducible apply refuseLine_keeps
    | with_reducible apply refuseIo_keeps | with_reducible refine foldl_keeps _ _ _ ?_ ?_
    | with_reducible refine foldl_fst_keeps _ _ _ ?_ ?_ | intro _ _ _ | intro _
    | with_reducible refine keeps_ite _ _ _ ?_ ?_ | split | with_reducible refine keeps_fst ?_ (by assumption)
    | with_reducible refine keeps_fst2 ?_ (by assumption) | simp only [])

theorem dmaLine_keeps {W : Nat} {q0 : State} (d pa : Nat) (tag : Nat) (s : State) (hk : Keeps W q0 s)
    (hW : Sub 0x200BFD39 W := by first | assumption | exact sub_of (by assumption) (by decide)) :
    Keeps W q0 (dmaLine d pa tag s).1 := by
  unfold dmaLine
  repeat' (first
    | with_reducible assumption | exact sub_of (by assumption) (by decide)
    | with_reducible exact twf_tset _ _ _ _ (by assumption)
    | with_reducible refine keeps_chan (W := W) ?_ _ (by assumption) | with_reducible exact twf_nil _
    | with_reducible refine keeps_ok (W := W) ?_ (by assumption) | with_reducible apply currentLine_keeps
    | with_reducible apply ncOpen_keeps | with_reducible refine foldl_keeps _ _ _ ?_ ?_
    | with_reducible refine foldl_fst_keeps _ _ _ ?_ ?_ | intro _ _ _ | intro _
    | with_reducible refine keeps_ite _ _ _ ?_ ?_ | split | with_reducible refine keeps_fst ?_ (by assumption)
    | with_reducible refine keeps_fst2 ?_ (by assumption) | simp only [])

theorem dmaAway_keeps {W : Nat} {q0 : State} (d pa n to' addr : Nat) (s : State) (hk : Keeps W q0 s)
    (hW : Sub 0x2005C001 W := by first | assumption | exact sub_of (by assumption) (by decide)) :
    Keeps W q0 (dmaAway d pa n to' addr s).1 := by
  unfold dmaAway
  repeat' (first
    | with_reducible assumption | exact sub_of (by assumption) (by decide) | with_reducible apply bump_keeps
    | with_reducible apply sendOut_keeps | with_reducible apply modDma_keeps
    | with_reducible refine foldl_keeps _ _ _ ?_ ?_ | with_reducible refine foldl_fst_keeps _ _ _ ?_ ?_ | intro _ _ _
    | intro _ | with_reducible refine keeps_ite _ _ _ ?_ ?_ | split
    | with_reducible refine keeps_fst ?_ (by assumption) | with_reducible refine keeps_fst2 ?_ (by assumption)
    | simp only [])

theorem dmaRead_keeps {W : Nat} {q0 : State} (d pa n : Nat) (open' : FarRead) (s : State) (hk : Keeps W q0 s)
    (hW : Sub 0x200FFD39 W := by first | assumption | exact sub_of (by assumption) (by decide)) :
    Keeps W q0 (dmaRead d pa n open' s).1 := by
  unfold dmaRead
  repeat' (first
    | with_reducible assumption | exact sub_of (by assumption) (by decide)
    | with_reducible exact twf_tset _ _ _ _ (by assumption)
    | with_reducible refine keeps_chan (W := W) ?_ _ (by assumption) | with_reducible exact twf_nil _
    | with_reducible refine keeps_ok (W := W) ?_ (by assumption) | with_reducible apply dmaRefused_keeps
    | with_reducible apply dmaLine_keeps | with_reducible apply dmaAway_keeps
    | with_reducible refine foldl_keeps _ _ _ ?_ ?_ | with_reducible refine foldl_fst_keeps _ _ _ ?_ ?_ | intro _ _ _
    | intro _ | with_reducible refine keeps_ite _ _ _ ?_ ?_ | split
    | with_reducible refine keeps_fst ?_ (by assumption) | with_reducible refine keeps_fst2 ?_ (by assumption)
    | simp only [])

theorem dmaNeeds_keeps {W : Nat} {q0 : State} (d : Nat) (w : DmaWr) (s : State) (hk : Keeps W q0 s)
    (hW : Sub 0x200BFD39 W := by first | assumption | exact sub_of (by assumption) (by decide)) :
    Keeps W q0 (dmaNeeds d w s).1 := by
  unfold dmaNeeds
  repeat' (first
    | with_reducible assumption | exact sub_of (by assumption) (by decide)
    | with_reducible exact twf_tset _ _ _ _ (by assumption)
    | with_reducible refine keeps_chan (W := W) ?_ _ (by assumption) | with_reducible exact twf_nil _
    | with_reducible refine keeps_ok (W := W) ?_ (by assumption) | with_reducible apply currentLine_keeps
    | with_reducible apply ncOpen_keeps | with_reducible refine foldl_keeps _ _ _ ?_ ?_
    | with_reducible refine foldl_fst_keeps _ _ _ ?_ ?_ | intro _ _ _ | intro _
    | with_reducible refine keeps_ite _ _ _ ?_ ?_ | split | with_reducible refine keeps_fst ?_ (by assumption)
    | with_reducible refine keeps_fst2 ?_ (by assumption) | simp only [])

theorem dmaPrepare_keeps {W : Nat} {q0 : State} (d : Nat) (l : List DmaWr) (s : State) (hk : Keeps W q0 s)
    (hW : Sub 0x200BFD39 W := by first | assumption | exact sub_of (by assumption) (by decide)) :
    Keeps W q0 (dmaPrepare d l s).1 := by
  induction l generalizing s with
  | nil => exact hk
  | cons w r ih =>
    unfold dmaPrepare
    have h := dmaNeeds_keeps d w s hk
    generalize dmaNeeds d w s = x at h
    rcases x with ⟨s1, _ | k⟩
    · exact h
    · have h2 := ih s1 h
      dsimp only
      generalize dmaPrepare d r s1 = y at h2
      rcases y with ⟨s2, _ | l⟩ <;> exact h2

theorem dmaWrite_keeps {W : Nat} {q0 : State} (d : Nat) (w : DmaWr) (old : Option Nat) (s : State) (hk : Keeps W q0
    s)
    (hW : Sub 0x200BFF39 W := by first | assumption | exact sub_of (by assumption) (by decide)) :
    Keeps W q0 (dmaWrite d w old s).1 := by
  unfold dmaWrite
  repeat' (first
    | with_reducible assumption | exact sub_of (by assumption) (by decide)
    | with_reducible exact twf_tset _ _ _ _ (by assumption)
    | with_reducible refine keeps_chan (W := W) ?_ _ (by assumption) | with_reducible exact twf_nil _
    | with_reducible refine keeps_ok (W := W) ?_ (by assumption) | with_reducible apply bump_keeps
    | with_reducible apply sendOut_keeps | with_reducible apply flushLine_keeps | with_reducible apply breakResv_keeps
    | with_reducible apply writeAtHome_keeps | with_reducible apply fixedWrite_keeps
    | with_reducible apply signalWrite_keeps | with_reducible apply dmaRefused_keeps
    | with_reducible refine foldl_keeps _ _ _ ?_ ?_ | with_reducible refine foldl_fst_keeps _ _ _ ?_ ?_ | intro _ _ _
    | intro _ | with_reducible refine keeps_ite _ _ _ ?_ ?_ | split
    | with_reducible refine keeps_fst ?_ (by assumption) | with_reducible refine keeps_fst2 ?_ (by assumption)
    | simp only [])

theorem dmaEndReads_keeps {W : Nat} {q0 : State} (d : Nat) (s : State) (hk : Keeps W q0 s)
    (hW : Sub 0x40400 W := by first | assumption | exact sub_of (by assumption) (by decide)) :
    Keeps W q0 (dmaEndReads d s) := by
  unfold dmaEndReads
  repeat' (first
    | with_reducible assumption | exact sub_of (by assumption) (by decide)
    | with_reducible exact twf_tset _ _ _ _ (by assumption)
    | with_reducible refine keeps_chan (W := W) ?_ _ (by assumption) | with_reducible exact twf_nil _
    | with_reducible refine keeps_ok (W := W) ?_ (by assumption) | with_reducible apply dropReads_keeps
    | with_reducible apply modDma_keeps | with_reducible refine foldl_keeps _ _ _ ?_ ?_
    | with_reducible refine foldl_fst_keeps _ _ _ ?_ ?_ | intro _ _ _ | intro _
    | with_reducible refine keeps_ite _ _ _ ?_ ?_ | split | with_reducible refine keeps_fst ?_ (by assumption)
    | with_reducible refine keeps_fst2 ?_ (by assumption) | simp only [])

theorem dmaSettle_keeps {W : Nat} {q0 : State} (d : Nat) (s : State) (hk : Keeps W q0 s) (hW : Sub 0x1 W) : Keeps W
    q0 (dmaSettle d s) := by
  unfold dmaSettle
  with_reducible repeat' (first | assumption | apply setDmaState_keeps)

theorem descFetched_keeps {W : Nat} {q0 : State} (d : Nat) (open' : FarRead) (s : State) (hk : Keeps W q0 s)
    (hW : Sub 0x200FFD39 W := by first | assumption | exact sub_of (by assumption) (by decide)) :
    Keeps W q0 (descFetched d open' s) := by
  unfold descFetched
  repeat' (first
    | with_reducible assumption | exact sub_of (by assumption) (by decide)
    | with_reducible exact twf_tset _ _ _ _ (by assumption)
    | with_reducible refine keeps_chan (W := W) ?_ _ (by assumption) | with_reducible exact twf_nil _
    | with_reducible refine keeps_ok (W := W) ?_ (by assumption) | with_reducible apply wr_keeps
    | with_reducible apply modDma_keeps | with_reducible apply dmaRingFault_keeps | with_reducible apply dmaRead_keeps
    | with_reducible apply dmaEndReads_keeps | with_reducible refine foldl_keeps _ _ _ ?_ ?_
    | with_reducible refine foldl_fst_keeps _ _ _ ?_ ?_ | intro _ _ _ | intro _
    | with_reducible refine keeps_ite _ _ _ ?_ ?_ | split | with_reducible refine keeps_fst ?_ (by assumption)
    | with_reducible refine keeps_fst2 ?_ (by assumption) | simp only [])

theorem dmaSpread_keeps {W : Nat} {q0 : State} (d : Nat) (l : List (DmaWr × Option Nat)) (i : Nat) (s : State) (hk : Keeps W q0 s)
    (hW : Sub 0x200BFF39 W := by first | assumption | exact sub_of (by assumption) (by decide)) :
    Keeps W q0 (dmaSpread d l i s).1 := by
  induction l generalizing i s with
  | nil => exact hk
  | cons e r ih =>
    obtain ⟨w, old⟩ := e
    unfold dmaSpread
    have h := dmaWrite_keeps d w old s hk
    generalize dmaWrite d w old s = x at h
    rcases x with ⟨s1, _ | k⟩
    · exact ih _ _ h
    · exact h

theorem readReturn_keeps {W : Nat} {q0 : State} (d n : Nat) (open' : FarRead) (s : State) (hk : Keeps W q0 s)
    (hW : Sub 0x200FFF39 W := by first | assumption | exact sub_of (by assumption) (by decide)) :
    Keeps W q0 (readReturn d n open' s) := by
  unfold readReturn
  repeat' (first
    | with_reducible assumption | exact sub_of (by assumption) (by decide)
    | with_reducible exact twf_tset _ _ _ _ (by assumption)
    | with_reducible refine keeps_chan (W := W) ?_ _ (by assumption) | with_reducible exact twf_nil _
    | with_reducible refine keeps_ok (W := W) ?_ (by assumption) | with_reducible apply wr_keeps
    | with_reducible apply modDma_keeps | with_reducible apply dmaError_keeps | with_reducible apply dmaRead_keeps
    | with_reducible apply dmaPrepare_keeps | with_reducible apply dmaEndReads_keeps
    | with_reducible apply dmaSpread_keeps | with_reducible refine foldl_keeps _ _ _ ?_ ?_
    | with_reducible refine foldl_fst_keeps _ _ _ ?_ ?_ | intro _ _ _ | intro _
    | with_reducible refine keeps_ite _ _ _ ?_ ?_ | split | with_reducible refine keeps_fst ?_ (by assumption)
    | with_reducible refine keeps_fst2 ?_ (by assumption) | simp only [])

theorem finishDesc_keeps {W : Nat} {q0 : State} (d : Nat) (q : Desc) (s : State) (hk : Keeps W q0 s)
    (hW : Sub 0x200FFF39 W := by first | assumption | exact sub_of (by assumption) (by decide)) :
    Keeps W q0 (finishDesc d q s) := by
  unfold finishDesc
  repeat' (first
    | with_reducible assumption | exact sub_of (by assumption) (by decide)
    | with_reducible exact twf_tset _ _ _ _ (by assumption)
    | with_reducible refine keeps_chan (W := W) ?_ _ (by assumption) | with_reducible exact twf_nil _
    | with_reducible refine keeps_ok (W := W) ?_ (by assumption) | with_reducible apply wr_keeps
    | with_reducible apply bump_keeps | with_reducible apply modDma_keeps | with_reducible apply setDmaState_keeps
    | with_reducible apply dmaRingFault_keeps | with_reducible apply dmaNeeds_keeps
    | with_reducible apply dmaWrite_keeps | with_reducible apply dmaEndReads_keeps
    | with_reducible apply dmaSettle_keeps | with_reducible refine foldl_keeps _ _ _ ?_ ?_
    | with_reducible refine foldl_fst_keeps _ _ _ ?_ ?_ | intro _ _ _ | intro _
    | with_reducible refine keeps_ite _ _ _ ?_ ?_ | split | with_reducible refine keeps_fst ?_ (by assumption)
    | with_reducible refine keeps_fst2 ?_ (by assumption) | simp only [])

theorem descComplete_keeps {W : Nat} {q0 : State} (d : Nat) (s : State) (hk : Keeps W q0 s)
    (hW : Sub 0x200FFF39 W := by first | assumption | exact sub_of (by assumption) (by decide)) :
    Keeps W q0 (descComplete d s) := by
  unfold descComplete
  repeat' (first
    | with_reducible assumption | exact sub_of (by assumption) (by decide)
    | with_reducible exact twf_tset _ _ _ _ (by assumption)
    | with_reducible refine keeps_chan (W := W) ?_ _ (by assumption) | with_reducible exact twf_nil _
    | with_reducible refine keeps_ok (W := W) ?_ (by assumption) | with_reducible apply finishDesc_keeps
    | with_reducible refine foldl_keeps _ _ _ ?_ ?_ | with_reducible refine foldl_fst_keeps _ _ _ ?_ ?_ | intro _ _ _
    | intro _ | with_reducible refine keeps_ite _ _ _ ?_ ?_ | split
    | with_reducible refine keeps_fst ?_ (by assumption) | with_reducible refine keeps_fst2 ?_ (by assumption)
    | simp only [])

theorem statusAck_keeps {W : Nat} {q0 : State} (d : Nat) (s : State) (hk : Keeps W q0 s)
    (hW : Sub 0x40000 W := by first | assumption | exact sub_of (by assumption) (by decide)) :
    Keeps W q0 (statusAck d s) := by
  unfold statusAck
  repeat' (first
    | with_reducible assumption | exact sub_of (by assumption) (by decide) | with_reducible apply modDma_keeps
    | with_reducible refine foldl_keeps _ _ _ ?_ ?_ | with_reducible refine foldl_fst_keeps _ _ _ ?_ ?_ | intro _ _ _
    | intro _ | with_reducible refine keeps_ite _ _ _ ?_ ?_ | split
    | with_reducible refine keeps_fst ?_ (by assumption) | with_reducible refine keeps_fst2 ?_ (by assumption)
    | simp only [])

theorem dmaEnable_keeps {W : Nat} {q0 : State} (d : Nat) (s : State) (hk : Keeps W q0 s) (hW : Sub 0x40001 W) : Keeps
    W q0 (dmaEnable d s) := by
  unfold dmaEnable
  with_reducible repeat' (first
    | assumption | apply dmaSettle_keeps | apply wr_keeps | apply modDma_keeps
    | exact sub_of (by assumption) (by decide) | split)

theorem dmaAbort_keeps {W : Nat} {q0 : State} (d : Nat) (s : State) (hk : Keeps W q0 s) (hW : Sub 0x40001 W) : Keeps
    W q0 (dmaAbort d s) := by
  unfold dmaAbort
  with_reducible repeat' (first
    | assumption | apply wr_keeps | apply modDma_keeps | exact sub_of (by assumption) (by decide) | split)

theorem dmaAbortDone_keeps {W : Nat} {q0 : State} (d : Nat) (s : State) (hk : Keeps W q0 s)
    (hW : Sub 0x40401 W := by first | assumption | exact sub_of (by assumption) (by decide)) :
    Keeps W q0 (dmaAbortDone d s) := by
  unfold dmaAbortDone
  repeat' (first
    | with_reducible assumption | exact sub_of (by assumption) (by decide)
    | with_reducible exact twf_tset _ _ _ _ (by assumption)
    | with_reducible refine keeps_chan (W := W) ?_ _ (by assumption) | with_reducible exact twf_nil _
    | with_reducible refine keeps_ok (W := W) ?_ (by assumption) | with_reducible apply wr_keeps
    | with_reducible apply modDma_keeps | with_reducible apply setDmaState_keeps
    | with_reducible apply dmaEndReads_keeps | with_reducible refine foldl_keeps _ _ _ ?_ ?_
    | with_reducible refine foldl_fst_keeps _ _ _ ?_ ?_ | intro _ _ _ | intro _
    | with_reducible refine keeps_ite _ _ _ ?_ ?_ | split | with_reducible refine keeps_fst ?_ (by assumption)
    | with_reducible refine keeps_fst2 ?_ (by assumption) | simp only [])

theorem dmaPause_keeps {W : Nat} {q0 : State} (d : Nat) (s : State) (hk : Keeps W q0 s) (hW : Sub 0x1 W) : Keeps W q0
    (dmaPause d s) := by
  unfold dmaPause
  with_reducible repeat' (first
    | assumption | apply wr_keeps | apply setDmaState_keeps | exact sub_of (by assumption) (by decide) | split)

theorem dmaPauseDone_keeps {W : Nat} {q0 : State} (d : Nat) (s : State) (hk : Keeps W q0 s) (hW : Sub 0x200FFF39 W) :
    Keeps W q0 (dmaPauseDone d s) := by
  unfold dmaPauseDone
  with_reducible repeat' (first
    | assumption | apply setDmaState_keeps | apply descComplete_keeps | exact sub_of (by assumption) (by decide)
    | split)

theorem dmaPauseClear_keeps {W : Nat} {q0 : State} (d : Nat) (s : State) (hk : Keeps W q0 s) (hW : Sub 0x1 W) : Keeps
    W q0 (dmaPauseClear d s) := by
  unfold dmaPauseClear
  with_reducible repeat' (first
    | assumption | apply wr_keeps | apply setDmaState_keeps | apply dmaSettle_keeps
    | exact sub_of (by assumption) (by decide) | split)

theorem dmaStop_keeps {W : Nat} {q0 : State} (d : Nat) (s : State) (hk : Keeps W q0 s) (hW : Sub 0x1 W) : Keeps W q0
    (dmaStop d s) := by
  unfold dmaStop
  with_reducible repeat' (first
    | assumption | apply wr_keeps | apply setDmaState_keeps | exact sub_of (by assumption) (by decide) | split)

theorem resumeRetry_keeps {W : Nat} {q0 : State} (d : Nat) (s : State) (hk : Keeps W q0 s) (hW : Sub 0x40001 W) :
    Keeps W q0 (resumeRetry d s) := by
  unfold resumeRetry
  with_reducible repeat' (first
    | assumption | apply setDmaState_keeps | apply modDma_keeps | exact sub_of (by assumption) (by decide) | split)

theorem resumeMarkBad_keeps {W : Nat} {q0 : State} (d : Nat) (s : State) (hk : Keeps W q0 s) (hW : Sub 0x200FFF39 W)
    : Keeps W q0 (resumeMarkBad d s) := by
  unfold resumeMarkBad
  with_reducible repeat' (first
    | assumption | apply setDmaState_keeps | apply finishDesc_keeps | apply modDma_keeps
    | exact sub_of (by assumption) (by decide) | split)

theorem resumeDisable_keeps {W : Nat} {q0 : State} (d : Nat) (s : State) (hk : Keeps W q0 s)
    (hW : Sub 0x40401 W := by first | assumption | exact sub_of (by assumption) (by decide)) :
    Keeps W q0 (resumeDisable d s) := by
  unfold resumeDisable
  repeat' (first
    | with_reducible assumption | exact sub_of (by assumption) (by decide)
    | with_reducible exact twf_tset _ _ _ _ (by assumption)
    | with_reducible refine keeps_chan (W := W) ?_ _ (by assumption) | with_reducible exact twf_nil _
    | with_reducible refine keeps_ok (W := W) ?_ (by assumption) | with_reducible apply wr_keeps
    | with_reducible apply modDma_keeps | with_reducible apply setDmaState_keeps
    | with_reducible apply dmaEndReads_keeps | with_reducible refine foldl_keeps _ _ _ ?_ ?_
    | with_reducible refine foldl_fst_keeps _ _ _ ?_ ?_ | intro _ _ _ | intro _
    | with_reducible refine keeps_ite _ _ _ ?_ ?_ | split | with_reducible refine keeps_fst ?_ (by assumption)
    | with_reducible refine keeps_fst2 ?_ (by assumption) | simp only [])

theorem tailWrite_keeps {W : Nat} {q0 : State} (d v : Nat) (s : State) (hk : Keeps W q0 s) (hW : Sub 0x1 W) : Keeps W
    q0 (tailWrite d v s) := by
  unfold tailWrite
  with_reducible repeat' (first
    | assumption | apply wr_keeps | apply dmaSettle_keeps | exact sub_of (by assumption) (by decide) | split)

theorem ctrlWrite_keeps {W : Nat} {q0 : State} (d v : Nat) (s : State) (hk : Keeps W q0 s) (hW : Sub 0x200FFF39 W) :
    Keeps W q0 (ctrlWrite d v s) := by
  unfold ctrlWrite
  with_reducible repeat' (first
    | assumption | apply wr_keeps | apply wrB_keeps | apply dmaEnable_keeps | apply dmaAbort_keeps
    | apply dmaPause_keeps | apply dmaPauseClear_keeps | apply dmaStop_keeps | apply resumeRetry_keeps
    | apply resumeMarkBad_keeps | apply resumeDisable_keeps | exact sub_of (by assumption) (by decide) | split
    | simp only [])

theorem dmaStore_keeps {W : Nat} {q0 : State} (d off v : Nat) (s : State) (hk : Keeps W q0 s) (hW : Sub 0x200FFF39 W)
    : Keeps W q0 (dmaStore d off v s) := by
  unfold dmaStore
  with_reducible repeat' (first
    | assumption | apply ctrlWrite_keeps | apply wr_keeps | apply tailWrite_keeps
    | exact sub_of (by assumption) (by decide) | split)

theorem dmaReset_keeps {W : Nat} {q0 : State} (s : State) (hk : Keeps W q0 s) (hW : Sub 0x1 W) : Keeps W q0 (dmaReset
    s) := by
  unfold dmaReset
  with_reducible repeat' (first
    | assumption | apply wrB_keeps | exact sub_of (by assumption) (by decide) | refine foldl_keeps _ _ _ ?_ ?_
    | intro _ _ _)

theorem dmaGive_keeps {W : Nat} {q0 : State} (d ten : Nat) (s : State) (hk : Keeps W q0 s) (hW : Sub 0x40001 W := by
    first | assumption | exact sub_of (by assumption) (by decide)) : Keeps W q0 (dmaGive d ten s) := by
  unfold dmaGive
  split
  · exact wr_keeps _ _ _ (setDma_keeps _ _ _ (keeps_regs _ hk (fun h => twf_filter _ _ _ (hk.2.1 h)) (sub_of hW (by decide))))
  · exact hk

theorem dmaSnapshot_keeps {W : Nat} {q0 : State} (b : Nat) (s : State) (d : Nat) (hk : Keeps W q0 s) (hW : Sub
    0x40001 W) : Keeps W q0 (dmaSnapshot b s d) := by
  unfold dmaSnapshot
  with_reducible repeat' (first
    | assumption | apply wr_keeps | apply setDma_keeps | exact sub_of (by assumption) (by decide))

theorem dmaAssign_keeps {W : Nat} {q0 : State} (i : Nat) (c : Bytes) (s : State) (hk : Keeps W q0 s) (hW : Sub
    0x10001001 W) : Keeps W q0 (dmaAssign i c s) := by
  unfold dmaAssign
  with_reducible repeat' (first
    | assumption | apply stageDone_keeps | apply addStep_keeps | exact sub_of (by assumption) (by decide) | split
    | simp only [])

theorem dmaStatusCmd_keeps {W : Nat} {q0 : State} (i : Nat) (c : Bytes) (s : State) (hk : Keeps W q0 s) (hW : Sub
    0x1001 W) : Keeps W q0 (dmaStatusCmd i c s) := by
  unfold dmaStatusCmd
  with_reducible repeat' (first
    | assumption | apply stageDone_keeps | exact sub_of (by assumption) (by decide) | split | simp only [])

/-! ## Tenancy -/

theorem modTenant_keeps {W : Nat} {q0 : State} (t : Nat) (f : Tenant → Tenant) (s : State) (hk : Keeps W q0 s) (hW :
    Sub 0x800 W) : Keeps W q0 (modTenant t f s) := by
  unfold modTenant
  with_reducible repeat' (first | assumption | apply setTenant_keeps)

theorem giveHart_keeps {W : Nat} {q0 : State} (h t : Nat) (s : State) (hk : Keeps W q0 s)
    (hW : Sub 0x200BFF19 W := by first | assumption | exact sub_of (by assumption) (by decide)) :
    Keeps W q0 (giveHart h t s) := by
  unfold giveHart
  repeat' (first
    | with_reducible assumption | exact sub_of (by assumption) (by decide)
    | with_reducible exact twf_tset _ _ _ _ (by assumption)
    | with_reducible refine keeps_chan (W := W) ?_ _ (by assumption) | with_reducible exact twf_nil _
    | with_reducible refine keeps_ok (W := W) ?_ (by assumption) | with_reducible apply setHart_keeps
    | with_reducible apply setCore_keeps | with_reducible apply setOwner_keeps | with_reducible apply needClass_keeps
    | with_reducible apply newSeed_keeps | with_reducible apply showHart_keeps | with_reducible apply drainCore_keeps
    | with_reducible refine foldl_keeps _ _ _ ?_ ?_ | with_reducible refine foldl_fst_keeps _ _ _ ?_ ?_ | intro _ _ _
    | intro _ | with_reducible refine keeps_ite _ _ _ ?_ ?_ | split
    | with_reducible refine keeps_fst ?_ (by assumption) | with_reducible refine keeps_fst2 ?_ (by assumption)
    | simp only [])

theorem assignHart_keeps {W : Nat} {q0 : State} (i h t : Nat) (s : State) (hk : Keeps W q0 s)
    (hW : Sub 0x200BFF19 W := by first | assumption | exact sub_of (by assumption) (by decide)) :
    Keeps W q0 (assignHart i h t s) := by
  unfold assignHart
  repeat' (first
    | with_reducible assumption | exact sub_of (by assumption) (by decide)
    | with_reducible exact twf_tset _ _ _ _ (by assumption)
    | with_reducible refine keeps_chan (W := W) ?_ _ (by assumption) | with_reducible exact twf_nil _
    | with_reducible refine keeps_ok (W := W) ?_ (by assumption) | with_reducible apply stageDone_keeps
    | with_reducible apply giveHart_keeps | with_reducible refine foldl_keeps _ _ _ ?_ ?_
    | with_reducible refine foldl_fst_keeps _ _ _ ?_ ?_ | intro _ _ _ | intro _
    | with_reducible refine keeps_ite _ _ _ ?_ ?_ | split | with_reducible refine keeps_fst ?_ (by assumption)
    | with_reducible refine keeps_fst2 ?_ (by assumption) | simp only [])

theorem tenantAssign_keeps {W : Nat} {q0 : State} (i : Nat) (c : Bytes) (s : State) (hk : Keeps W q0 s)
    (hW : Sub 0x10001801 W := by first | assumption | exact sub_of (by assumption) (by decide)) :
    Keeps W q0 (tenantAssign i c s) := by
  unfold tenantAssign
  repeat' (first
    | with_reducible assumption | exact sub_of (by assumption) (by decide) | with_reducible apply addStep_keeps
    | with_reducible apply stageDone_keeps | with_reducible apply sealNotice_keeps
    | with_reducible refine foldl_keeps _ _ _ ?_ ?_ | with_reducible refine foldl_fst_keeps _ _ _ ?_ ?_ | intro _ _ _
    | intro _ | with_reducible refine keeps_ite _ _ _ ?_ ?_ | split
    | with_reducible refine keeps_fst ?_ (by assumption) | with_reducible refine keeps_fst2 ?_ (by assumption)
    | simp only [])

theorem tenantStart_keeps {W : Nat} {q0 : State} (i : Nat) (c : Bytes) (s : State) (hk : Keeps W q0 s)
    (hW : Sub 0x10001001 W := by first | assumption | exact sub_of (by assumption) (by decide)) :
    Keeps W q0 (tenantStart i c s) := by
  unfold tenantStart
  repeat' (first
    | with_reducible assumption | exact sub_of (by assumption) (by decide) | with_reducible apply addStep_keeps
    | with_reducible apply stageDone_keeps | with_reducible refine foldl_keeps _ _ _ ?_ ?_
    | with_reducible refine foldl_fst_keeps _ _ _ ?_ ?_ | intro _ _ _ | intro _
    | with_reducible refine keeps_ite _ _ _ ?_ ?_ | split | with_reducible refine keeps_fst ?_ (by assumption)
    | with_reducible refine keeps_fst2 ?_ (by assumption) | simp only [])

theorem drawKey_keeps {W : Nat} {q0 : State} (t gen : Nat) (s : State) (hk : Keeps W q0 s) (hW : Sub 0x400 W) : Keeps
    W q0 (drawKey t gen s) := by
  unfold drawKey
  with_reducible repeat' (first
    | assumption | apply setMem_keeps | exact sub_of (by assumption) (by decide)
    | refine keeps_ok (W := W) ?_ (by assumption) | exact twf_tset _ _ _ _ (by assumption) | exact twf_nil _
    | refine keeps_ok (W := W) ?_ (by assumption) | refine keeps_chan (W := W) ?_ _ (by assumption) | intro _ _ _
    | intro _)

theorem eraseKeys_keeps {W : Nat} {q0 : State} (t : Nat) (s : State) (hk : Keeps W q0 s) (hW : Sub 0x400 W) : Keeps W
    q0 (eraseKeys t s) := by
  unfold eraseKeys
  with_reducible repeat' (first
    | assumption | apply setMem_keeps | exact sub_of (by assumption) (by decide)
    | refine keeps_ok (W := W) ?_ (by assumption) | exact twf_tset _ _ _ _ (by assumption) | exact twf_nil _
    | refine keeps_ok (W := W) ?_ (by assumption) | refine keeps_chan (W := W) ?_ _ (by assumption) | intro _ _ _
    | intro _)

theorem openTenant_keeps {W : Nat} {q0 : State} (t : Nat) (s : State) (hk : Keeps W q0 s) (hW : Sub 0xC00 W) : Keeps
    W q0 (openTenant t s) := by
  unfold openTenant
  with_reducible repeat' (first
    | assumption | apply setTenant_keeps | apply setMem_keeps | exact sub_of (by assumption) (by decide)
    | refine keeps_ok (W := W) ?_ (by assumption) | exact twf_tset _ _ _ _ (by assumption) | exact twf_nil _
    | refine keeps_ok (W := W) ?_ (by assumption) | refine keeps_chan (W := W) ?_ _ (by assumption) | intro _ _ _
    | intro _)

theorem tenantCreate_keeps {W : Nat} {q0 : State} (i : Nat) (c : Bytes) (s : State) (hk : Keeps W q0 s) (hW : Sub
    0x10001401 W) : Keeps W q0 (tenantCreate i c s) := by
  unfold tenantCreate
  with_reducible repeat' (first
    | assumption | apply stageDone_keeps | apply addStep_keeps | apply openTenant_keeps | apply drawKey_keeps
    | exact sub_of (by assumption) (by decide) | split | simp only [])

theorem grantApply_keeps {W : Nat} {q0 : State} (base count t : Nat) (s : State) (hk : Keeps W q0 s) (hW : Sub 0xA3F19 W) : Keeps W q0 (grantApply base count t s) := by
  unfold grantApply
  with_reducible repeat' (first
    | assumption | apply setMem_keeps | apply discardLines_keeps | apply clearRange_keeps
    | exact sub_of (by assumption) (by decide) | refine keeps_ok (W := W) ?_ (by assumption) | split
    | exact twf_tset _ _ _ _ (by assumption) | exact twf_nil _ | refine keeps_ok (W := W) ?_ (by assumption)
    | refine keeps_chan (W := W) ?_ _ (by assumption) | intro _ _ _ | intro _)

theorem tenantGrant_keeps {W : Nat} {q0 : State} (i : Nat) (c : Bytes) (s : State) (hk : Keeps W q0 s)
    (hW : Sub 0x38091429 W := by first | assumption | exact sub_of (by assumption) (by decide)) :
    Keeps W q0 (tenantGrant i c s) := by
  unfold tenantGrant
  repeat' (first
    | with_reducible assumption | exact sub_of (by assumption) (by decide)
    | with_reducible exact twf_tset _ _ _ _ (by assumption)
    | with_reducible refine keeps_chan (W := W) ?_ _ (by assumption) | with_reducible exact twf_nil _
    | with_reducible refine keeps_ok (W := W) ?_ (by assumption) | with_reducible apply addDue_keeps
    | with_reducible apply addStep_keeps | with_reducible apply dropReads_keeps | with_reducible apply stageDone_keeps
    | with_reducible apply ncOpen_keeps | with_reducible refine foldl_keeps _ _ _ ?_ ?_
    | with_reducible refine foldl_fst_keeps _ _ _ ?_ ?_ | intro _ _ _ | intro _
    | with_reducible refine keeps_ite _ _ _ ?_ ?_ | split | with_reducible refine keeps_fst ?_ (by assumption)
    | with_reducible refine keeps_fst2 ?_ (by assumption) | simp only [])

theorem loadLine_keeps {W : Nat} {q0 : State} (i t dst : Nat) (v : Seen) (a : State × List Nat) (hk : Keeps W q0
    a.1)
    (hW : Sub 0x200BFD19 W := by first | assumption | exact sub_of (by assumption) (by decide)) :
    Keeps W q0 (loadLine i t dst v a).1 := by
  unfold loadLine
  repeat' (first
    | with_reducible assumption | exact sub_of (by assumption) (by decide)
    | with_reducible exact twf_tset _ _ _ _ (by assumption)
    | with_reducible refine keeps_chan (W := W) ?_ _ (by assumption) | with_reducible exact twf_nil _
    | with_reducible refine keeps_ok (W := W) ?_ (by assumption) | with_reducible apply freeNext_keeps
    | with_reducible apply writeAtHome_keeps | with_reducible refine foldl_keeps _ _ _ ?_ ?_
    | with_reducible refine foldl_fst_keeps _ _ _ ?_ ?_ | intro _ _ _ | intro _
    | with_reducible refine keeps_ite _ _ _ ?_ ?_ | split | with_reducible refine keeps_fst ?_ (by assumption)
    | with_reducible refine keeps_fst2 ?_ (by assumption) | simp only [])

theorem tenantLoad_keeps {W : Nat} {q0 : State} (i : Nat) (c : Bytes) (s : State) (hk : Keeps W q0 s)
    (hW : Sub 0x380BFD39 W := by first | assumption | exact sub_of (by assumption) (by decide)) :
    Keeps W q0 (tenantLoad i c s) := by
  unfold tenantLoad
  repeat' (first
    | with_reducible assumption | exact sub_of (by assumption) (by decide)
    | with_reducible exact twf_tset _ _ _ _ (by assumption)
    | with_reducible refine keeps_chan (W := W) ?_ _ (by assumption) | with_reducible exact twf_nil _
    | with_reducible refine keeps_ok (W := W) ?_ (by assumption) | with_reducible apply addDue_keeps
    | with_reducible apply addStep_keeps | with_reducible apply dropReads_keeps | with_reducible apply stageDone_keeps
    | with_reducible apply currentLine_keeps | with_reducible apply ncOpen_keeps | with_reducible apply askLines_keeps
    | with_reducible apply loadLine_keeps | with_reducible refine foldl_keeps _ _ _ ?_ ?_
    | with_reducible refine foldl_fst_keeps _ _ _ ?_ ?_ | intro _ _ _ | intro _
    | with_reducible refine keeps_ite _ _ _ ?_ ?_ | split | with_reducible refine keeps_fst ?_ (by assumption)
    | with_reducible refine keeps_fst2 ?_ (by assumption) | simp only [])

theorem tenantSeal_keeps {W : Nat} {q0 : State} (i : Nat) (c : Bytes) (s : State) (hk : Keeps W q0 s)
    (hW : Sub 0x10001A01 W := by first | assumption | exact sub_of (by assumption) (by decide)) :
    Keeps W q0 (tenantSeal i c s) := by
  unfold tenantSeal
  repeat' (first
    | with_reducible assumption | exact sub_of (by assumption) (by decide) | with_reducible apply addStep_keeps
    | with_reducible apply stageDone_keeps | with_reducible apply holdClasses_keeps
    | with_reducible apply modTenant_keeps | with_reducible refine foldl_keeps _ _ _ ?_ ?_
    | with_reducible refine foldl_fst_keeps _ _ _ ?_ ?_ | intro _ _ _ | intro _
    | with_reducible refine keeps_ite _ _ _ ?_ ?_ | split | with_reducible refine keeps_fst ?_ (by assumption)
    | with_reducible refine keeps_fst2 ?_ (by assumption) | simp only [])

theorem holdHarts_keeps {W : Nat} {q0 : State} (t : Nat) (s : State) (hk : Keeps W q0 s)
    (hW : Sub 0x8000028 W := by first | assumption | exact sub_of (by assumption) (by decide)) :
    Keeps W q0 (holdHarts t s) := by
  unfold holdHarts
  repeat' (first
    | with_reducible assumption | exact sub_of (by assumption) (by decide) | with_reducible apply addDue_keeps
    | with_reducible apply setHart_keeps | with_reducible apply setPair_keeps
    | with_reducible refine foldl_keeps _ _ _ ?_ ?_ | with_reducible refine foldl_fst_keeps _ _ _ ?_ ?_ | intro _ _ _
    | intro _ | with_reducible refine keeps_ite _ _ _ ?_ ?_ | split
    | with_reducible refine keeps_fst ?_ (by assumption) | with_reducible refine keeps_fst2 ?_ (by assumption)
    | simp only [])

theorem dropStage_keeps {W : Nat} {q0 : State} (i : Nat) (s : State) (hk : Keeps W q0 s)
    (hW : Sub 0x8000000 W := by first | assumption | exact sub_of (by assumption) (by decide)) :
    Keeps W q0 (dropStage i s) := by
  unfold dropStage
  repeat' (first
    | with_reducible assumption | exact sub_of (by assumption) (by decide)
    | with_reducible refine foldl_keeps _ _ _ ?_ ?_ | with_reducible refine foldl_fst_keeps _ _ _ ?_ ?_ | intro _ _ _
    | intro _ | with_reducible refine keeps_ite _ _ _ ?_ ?_ | split
    | with_reducible refine keeps_fst ?_ (by assumption) | with_reducible refine keeps_fst2 ?_ (by assumption)
    | simp only [] | with_reducible refine keeps_lit (by assumption) ?_)

theorem sealAbandoned_keeps {W : Nat} {q0 : State} (t i : Nat) (s0 : State) (hk : Keeps W q0 s0)
    (hW : Sub 0x8001A01 W := by first | assumption | exact sub_of (by assumption) (by decide)) :
    Keeps W q0 (sealAbandoned t i s0) := by
  unfold sealAbandoned
  repeat' (first
    | with_reducible assumption | exact sub_of (by assumption) (by decide) | with_reducible apply stageDone_keeps
    | with_reducible apply dropClasses_keeps | with_reducible apply modTenant_keeps
    | with_reducible apply dropStage_keeps | with_reducible refine foldl_keeps _ _ _ ?_ ?_
    | with_reducible refine foldl_fst_keeps _ _ _ ?_ ?_ | intro _ _ _ | intro _
    | with_reducible refine keeps_ite _ _ _ ?_ ?_ | split | with_reducible refine keeps_fst ?_ (by assumption)
    | with_reducible refine keeps_fst2 ?_ (by assumption) | simp only [])

theorem sealStart_keeps {W : Nat} {q0 : State} (t i : Nat) (s : State) (hk : Keeps W q0 s)
    (hW : Sub 0x8001A29 W := by first | assumption | exact sub_of (by assumption) (by decide)) :
    Keeps W q0 (sealStart t i s) := by
  unfold sealStart
  repeat' (first
    | with_reducible assumption | exact sub_of (by assumption) (by decide) | with_reducible apply addDue_keeps
    | with_reducible apply modTenant_keeps | with_reducible apply holdHarts_keeps
    | with_reducible apply sealAbandoned_keeps | with_reducible refine foldl_keeps _ _ _ ?_ ?_
    | with_reducible refine foldl_fst_keeps _ _ _ ?_ ?_ | intro _ _ _ | intro _
    | with_reducible refine keeps_ite _ _ _ ?_ ?_ | split | with_reducible refine keeps_fst ?_ (by assumption)
    | with_reducible refine keeps_fst2 ?_ (by assumption) | simp only [])

theorem flushHeld_keeps {W : Nat} {q0 : State} (t n line : Nat) (s : State) (hk : Keeps W q0 s)
    (hW : Sub 0x200BFD01 W := by first | assumption | exact sub_of (by assumption) (by decide)) :
    Keeps W q0 (flushHeld t n line s) := by
  unfold flushHeld
  repeat' (first
    | with_reducible assumption | exact sub_of (by assumption) (by decide)
    | with_reducible exact twf_tset _ _ _ _ (by assumption)
    | with_reducible refine keeps_chan (W := W) ?_ _ (by assumption) | with_reducible exact twf_nil _
    | with_reducible refine keeps_ok (W := W) ?_ (by assumption) | with_reducible apply writeHome_keeps
    | with_reducible apply dropArr_keeps | with_reducible refine foldl_keeps _ _ _ ?_ ?_
    | with_reducible refine foldl_fst_keeps _ _ _ ?_ ?_ | intro _ _ _ | intro _
    | with_reducible refine keeps_ite _ _ _ ?_ ?_ | split | with_reducible refine keeps_fst ?_ (by assumption)
    | with_reducible refine keeps_fst2 ?_ (by assumption) | simp only [])

theorem drainTenant_keeps {W : Nat} {q0 : State} (t : Nat) (s : State) (hk : Keeps W q0 s)
    (hW : Sub 0x200BFD19 W := by first | assumption | exact sub_of (by assumption) (by decide)) :
    Keeps W q0 (drainTenant t s) := by
  unfold drainTenant
  repeat' (first
    | with_reducible assumption | exact sub_of (by assumption) (by decide)
    | with_reducible exact twf_tset _ _ _ _ (by assumption)
    | with_reducible refine keeps_chan (W := W) ?_ _ (by assumption) | with_reducible exact twf_nil _
    | with_reducible refine keeps_ok (W := W) ?_ (by assumption) | with_reducible apply readHeld_keeps
    | with_reducible apply drainCore_keeps | with_reducible apply flushHeld_keeps
    | with_reducible refine foldl_keeps _ _ _ ?_ ?_ | with_reducible refine foldl_fst_keeps _ _ _ ?_ ?_ | intro _ _ _
    | intro _ | with_reducible refine keeps_ite _ _ _ ?_ ?_ | split
    | with_reducible refine keeps_fst ?_ (by assumption) | with_reducible refine keeps_fst2 ?_ (by assumption)
    | simp only [])

theorem drainsTrip_keeps {W : Nat} {q0 : State} (t : Nat) (s : State) (hk : Keeps W q0 s)
    (hW : Sub 0x20080029 W := by first | assumption | exact sub_of (by assumption) (by decide)) :
    Keeps W q0 (drainsTrip t s) := by
  unfold drainsTrip
  repeat' (first
    | with_reducible assumption | exact sub_of (by assumption) (by decide) | with_reducible apply drainTrips_keeps
    | with_reducible refine foldl_keeps _ _ _ ?_ ?_ | with_reducible refine foldl_fst_keeps _ _ _ ?_ ?_ | intro _ _ _
    | intro _ | with_reducible refine keeps_ite _ _ _ ?_ ?_ | split
    | with_reducible refine keeps_fst ?_ (by assumption) | with_reducible refine keeps_fst2 ?_ (by assumption)
    | simp only [])

theorem rehomeFlight_keeps {W : Nat} {q0 : State} (t : Nat) (s : State) (hk : Keeps W q0 s)
    (hW : Sub 0x4101 W := by first | assumption | exact sub_of (by assumption) (by decide)) :
    Keeps W q0 (rehomeFlight t s) := by
  unfold rehomeFlight
  repeat' (first
    | with_reducible assumption | exact sub_of (by assumption) (by decide) | with_reducible apply setSlice_keeps
    | with_reducible apply putFabDir_keeps | with_reducible apply forwardFlight_keeps
    | with_reducible refine foldl_keeps _ _ _ ?_ ?_ | with_reducible refine foldl_fst_keeps _ _ _ ?_ ?_ | intro _ _ _
    | intro _ | with_reducible refine keeps_ite _ _ _ ?_ ?_ | split
    | with_reducible refine keeps_fst ?_ (by assumption) | with_reducible refine keeps_fst2 ?_ (by assumption)
    | simp only [])

theorem releaseHarts_keeps {W : Nat} {q0 : State} (t : Nat) (s : State) (hk : Keeps W q0 s)
    (hW : Sub 0x20000019 W := by first | assumption | exact sub_of (by assumption) (by decide)) :
    Keeps W q0 (releaseHarts t s) := by
  unfold releaseHarts
  repeat' (first
    | with_reducible assumption | exact sub_of (by assumption) (by decide) | with_reducible apply setHart_keeps
    | with_reducible apply newSeed_keeps | with_reducible apply showHart_keeps | with_reducible apply wakeFiles_keeps
    | with_reducible refine foldl_keeps _ _ _ ?_ ?_ | with_reducible refine foldl_fst_keeps _ _ _ ?_ ?_ | intro _ _ _
    | intro _ | with_reducible refine keeps_ite _ _ _ ?_ ?_ | split
    | with_reducible refine keeps_fst ?_ (by assumption) | with_reducible refine keeps_fst2 ?_ (by assumption)
    | simp only [])

theorem sealApply_keeps {W : Nat} {q0 : State} (t : Nat) (s : State) (hk : Keeps W q0 s)
    (hW : Sub 0x200BFF19 W := by first | assumption | exact sub_of (by assumption) (by decide)) :
    Keeps W q0 (sealApply t s) := by
  unfold sealApply
  repeat' (first
    | with_reducible assumption | exact sub_of (by assumption) (by decide)
    | with_reducible exact twf_tset _ _ _ _ (by assumption)
    | with_reducible refine keeps_chan (W := W) ?_ _ (by assumption) | with_reducible exact twf_nil _
    | with_reducible refine keeps_ok (W := W) ?_ (by assumption) | with_reducible apply modChan_keeps
    | with_reducible apply applyPart_keeps | with_reducible apply judgeDegraded_keeps
    | with_reducible apply modTenant_keeps | with_reducible apply drainTenant_keeps
    | with_reducible apply rehomeFlight_keeps | with_reducible apply releaseHarts_keeps
    | with_reducible refine foldl_keeps _ _ _ ?_ ?_ | with_reducible refine foldl_fst_keeps _ _ _ ?_ ?_ | intro _ _ _
    | intro _ | with_reducible refine keeps_ite _ _ _ ?_ ?_ | split
    | with_reducible refine keeps_fst ?_ (by assumption) | with_reducible refine keeps_fst2 ?_ (by assumption)
    | simp only [] | with_reducible refine keeps_lit (by assumption) ?_
    | (refine keeps_mem _ ?_ ?_ (sub_of (by assumption) (by decide))))

theorem sealDrainsDone_keeps {W : Nat} {q0 : State} (t : Nat) (s : State) (hk : Keeps W q0 s)
    (hW : Sub 0x280BFD39 W := by first | assumption | exact sub_of (by assumption) (by decide)) :
    Keeps W q0 (sealDrainsDone t s) := by
  unfold sealDrainsDone
  repeat' (first
    | with_reducible assumption | exact sub_of (by assumption) (by decide)
    | with_reducible exact twf_tset _ _ _ _ (by assumption)
    | with_reducible refine keeps_chan (W := W) ?_ _ (by assumption) | with_reducible exact twf_nil _
    | with_reducible refine keeps_ok (W := W) ?_ (by assumption) | with_reducible apply addDue_keeps
    | with_reducible apply holdHarts_keeps | with_reducible apply drainTenant_keeps
    | with_reducible apply drainsTrip_keeps | with_reducible refine foldl_keeps _ _ _ ?_ ?_
    | with_reducible refine foldl_fst_keeps _ _ _ ?_ ?_ | intro _ _ _ | intro _
    | with_reducible refine keeps_ite _ _ _ ?_ ?_ | split | with_reducible refine keeps_fst ?_ (by assumption)
    | with_reducible refine keeps_fst2 ?_ (by assumption) | simp only [])

theorem releaseSealed_keeps {W : Nat} {q0 : State} (t : Nat) (s : State) (hk : Keeps W q0 s) (hW : Sub 0x20093E01 W)
    : Keeps W q0 (releaseSealed t s) := by
  unfold releaseSealed
  with_reducible repeat' (first
    | assumption | apply releaseShares_keeps | apply applyPart_keeps | apply modChan_keeps
    | apply dropClasses_keeps | exact sub_of (by assumption) (by decide) | refine foldl_keeps _ _ _ ?_ ?_ | split
    | exact twf_tset _ _ _ _ (by assumption) | exact twf_nil _ | refine keeps_ok (W := W) ?_ (by assumption)
    | refine keeps_chan (W := W) ?_ _ (by assumption) | intro _ _ _ | intro _ | refine keeps_lit (by assumption) ?_)

theorem tenantUnseal_keeps {W : Nat} {q0 : State} (i : Nat) (c : Bytes) (s : State) (hk : Keeps W q0 s)
    (hW : Sub 0x10001001 W := by first | assumption | exact sub_of (by assumption) (by decide)) :
    Keeps W q0 (tenantUnseal i c s) := by
  unfold tenantUnseal
  repeat' (first
    | with_reducible assumption | exact sub_of (by assumption) (by decide) | with_reducible apply addStep_keeps
    | with_reducible apply stageDone_keeps | with_reducible refine foldl_keeps _ _ _ ?_ ?_
    | with_reducible refine foldl_fst_keeps _ _ _ ?_ ?_ | intro _ _ _ | intro _
    | with_reducible refine keeps_ite _ _ _ ?_ ?_ | split | with_reducible refine keeps_fst ?_ (by assumption)
    | with_reducible refine keeps_fst2 ?_ (by assumption) | simp only [])

theorem unsealAbandoned_keeps {W : Nat} {q0 : State} (t i : Nat) (s : State) (hk : Keeps W q0 s)
    (hW : Sub 0x8001801 W := by first | assumption | exact sub_of (by assumption) (by decide)) :
    Keeps W q0 (unsealAbandoned t i s) := by
  unfold unsealAbandoned
  repeat' (first
    | with_reducible assumption | exact sub_of (by assumption) (by decide) | with_reducible apply stageDone_keeps
    | with_reducible apply modTenant_keeps | with_reducible apply dropStage_keeps
    | with_reducible refine foldl_keeps _ _ _ ?_ ?_ | with_reducible refine foldl_fst_keeps _ _ _ ?_ ?_ | intro _ _ _
    | intro _ | with_reducible refine keeps_ite _ _ _ ?_ ?_ | split
    | with_reducible refine keeps_fst ?_ (by assumption) | with_reducible refine keeps_fst2 ?_ (by assumption)
    | simp only [])

theorem unsealStart_keeps {W : Nat} {q0 : State} (t i : Nat) (s : State) (hk : Keeps W q0 s)
    (hW : Sub 0x8001829 W := by first | assumption | exact sub_of (by assumption) (by decide)) :
    Keeps W q0 (unsealStart t i s) := by
  unfold unsealStart
  repeat' (first
    | with_reducible assumption | exact sub_of (by assumption) (by decide) | with_reducible apply addDue_keeps
    | with_reducible apply modTenant_keeps | with_reducible apply holdHarts_keeps
    | with_reducible apply unsealAbandoned_keeps | with_reducible refine foldl_keeps _ _ _ ?_ ?_
    | with_reducible refine foldl_fst_keeps _ _ _ ?_ ?_ | intro _ _ _ | intro _
    | with_reducible refine keeps_ite _ _ _ ?_ ?_ | split | with_reducible refine keeps_fst ?_ (by assumption)
    | with_reducible refine keeps_fst2 ?_ (by assumption) | simp only [])

theorem unsealApply_keeps {W : Nat} {q0 : State} (t : Nat) (s : State) (hk : Keeps W q0 s)
    (hW : Sub 0x200BFF19 W := by first | assumption | exact sub_of (by assumption) (by decide)) :
    Keeps W q0 (unsealApply t s) := by
  unfold unsealApply
  repeat' (first
    | with_reducible assumption | exact sub_of (by assumption) (by decide)
    | with_reducible exact twf_tset _ _ _ _ (by assumption)
    | with_reducible refine keeps_chan (W := W) ?_ _ (by assumption) | with_reducible exact twf_nil _
    | with_reducible refine keeps_ok (W := W) ?_ (by assumption) | with_reducible apply dropLock_keeps
    | with_reducible apply modTenant_keeps | with_reducible apply drainTenant_keeps
    | with_reducible apply rehomeFlight_keeps | with_reducible apply releaseHarts_keeps
    | with_reducible apply releaseSealed_keeps | with_reducible refine foldl_keeps _ _ _ ?_ ?_
    | with_reducible refine foldl_fst_keeps _ _ _ ?_ ?_ | intro _ _ _ | intro _
    | with_reducible refine keeps_ite _ _ _ ?_ ?_ | split | with_reducible refine keeps_fst ?_ (by assumption)
    | with_reducible refine keeps_fst2 ?_ (by assumption) | simp only [])

theorem unsealDrainDone_keeps {W : Nat} {q0 : State} (t : Nat) (s : State) (hk : Keeps W q0 s)
    (hW : Sub 0x280BFD39 W := by first | assumption | exact sub_of (by assumption) (by decide)) :
    Keeps W q0 (unsealDrainDone t s) := by
  unfold unsealDrainDone
  repeat' (first
    | with_reducible assumption | exact sub_of (by assumption) (by decide)
    | with_reducible exact twf_tset _ _ _ _ (by assumption)
    | with_reducible refine keeps_chan (W := W) ?_ _ (by assumption) | with_reducible exact twf_nil _
    | with_reducible refine keeps_ok (W := W) ?_ (by assumption) | with_reducible apply addDue_keeps
    | with_reducible apply holdHarts_keeps | with_reducible apply drainTenant_keeps
    | with_reducible apply drainsTrip_keeps | with_reducible refine foldl_keeps _ _ _ ?_ ?_
    | with_reducible refine foldl_fst_keeps _ _ _ ?_ ?_ | intro _ _ _ | intro _
    | with_reducible refine keeps_ite _ _ _ ?_ ?_ | split | with_reducible refine keeps_fst ?_ (by assumption)
    | with_reducible refine keeps_fst2 ?_ (by assumption) | simp only [])

theorem tenantRekey_keeps {W : Nat} {q0 : State} (i : Nat) (c : Bytes) (s : State) (hk : Keeps W q0 s) (hW : Sub
    0x10001401 W) : Keeps W q0 (tenantRekey i c s) := by
  unfold tenantRekey
  with_reducible repeat' (first
    | assumption | apply stageDone_keeps | apply addStep_keeps | apply rekeyCurrent_keeps | apply drawKey_keeps
    | exact sub_of (by assumption) (by decide) | split | simp only [])

theorem rekeyCurrent_keeps {W : Nat} {q0 : State} (t g : Nat) (s : State) (hk : Keeps W q0 s)
    (hW : Sub 0xC00 W := by first | assumption | exact sub_of (by assumption) (by decide)) :
    Keeps W q0 (rekeyCurrent t g s) := by
  unfold rekeyCurrent
  repeat' (first
    | with_reducible assumption | exact sub_of (by assumption) (by decide)
    | with_reducible exact twf_tset _ _ _ _ (by assumption)
    | with_reducible refine keeps_chan (W := W) ?_ _ (by assumption) | with_reducible exact twf_nil _
    | with_reducible refine keeps_ok (W := W) ?_ (by assumption) | with_reducible apply setMem_keeps
    | with_reducible apply modTenant_keeps | with_reducible refine foldl_keeps _ _ _ ?_ ?_
    | with_reducible refine foldl_fst_keeps _ _ _ ?_ ?_ | intro _ _ _ | intro _
    | with_reducible refine keeps_ite _ _ _ ?_ ?_ | split | with_reducible refine keeps_fst ?_ (by assumption)
    | with_reducible refine keeps_fst2 ?_ (by assumption) | simp only [])

theorem rekeyEnd_keeps {W : Nat} {q0 : State} (t : Nat) (s : State) (hk : Keeps W q0 s) (hW : Sub 0x1C00 W) : Keeps W
    q0 (rekeyEnd t s) := by
  unfold rekeyEnd
  with_reducible repeat' (first
    | assumption | apply setMem_keeps | apply modTenant_keeps | apply sealNotice_keeps | apply notify_keeps
    | exact sub_of (by assumption) (by decide) | refine keeps_ok (W := W) ?_ (by assumption) | split
    | exact twf_tset _ _ _ _ (by assumption) | exact twf_nil _ | refine keeps_ok (W := W) ?_ (by assumption)
    | refine keeps_chan (W := W) ?_ _ (by assumption) | intro _ _ _ | intro _)

theorem rekeySweepDone_keeps {W : Nat} {q0 : State} (t : Nat) (s : State) (hk : Keeps W q0 s) (hW : Sub 0x8000000 W)
    : Keeps W q0 (rekeySweepDone t s) := by
  unfold rekeySweepDone
  with_reducible repeat' (first
    | assumption | apply addDue_keeps | apply rekeyEnd_keeps | exact sub_of (by assumption) (by decide) | split)

theorem tenantClose_keeps {W : Nat} {q0 : State} (i : Nat) (c : Bytes) (s : State) (hk : Keeps W q0 s) (hW : Sub
    0x10001801 W) : Keeps W q0 (tenantClose i c s) := by
  unfold tenantClose
  with_reducible repeat' (first
    | assumption | apply stageDone_keeps | apply addStep_keeps | apply closeStart_keeps | apply sealNotice_keeps
    | apply notify_keeps | exact sub_of (by assumption) (by decide) | split | simp only [])

theorem dropTenantLines_keeps {W : Nat} {q0 : State} (t : Nat) (s : State) (hk : Keeps W q0 s) (hW : Sub 0x319 W) :
    Keeps W q0 (dropTenantLines t s) := by
  unfold dropTenantLines
  with_reducible repeat' (first
    | assumption | apply discardLine_keeps | exact sub_of (by assumption) (by decide)
    | refine foldl_keeps _ _ _ ?_ ?_ | intro _ _ _)

theorem abandon_keeps {W : Nat} {q0 : State} (t : Nat) (s : State) (hk : Keeps W q0 s)
    (hW : Sub 0x8001A01 W := by first | assumption | exact sub_of (by assumption) (by decide)) :
    Keeps W q0 (abandon t s) := by
  unfold abandon
  repeat' (first
    | with_reducible assumption | exact sub_of (by assumption) (by decide) | with_reducible apply sealAbandoned_keeps
    | with_reducible apply unsealAbandoned_keeps | with_reducible refine foldl_keeps _ _ _ ?_ ?_
    | with_reducible refine foldl_fst_keeps _ _ _ ?_ ?_ | intro _ _ _ | intro _
    | with_reducible refine keeps_ite _ _ _ ?_ ?_ | split | with_reducible refine keeps_fst ?_ (by assumption)
    | with_reducible refine keeps_fst2 ?_ (by assumption) | simp only [])

theorem closeStart_keeps {W : Nat} {q0 : State} (t i : Nat) (s : State) (hk : Keeps W q0 s)
    (hW : Sub 0x8041A29 W := by first | assumption | exact sub_of (by assumption) (by decide)) :
    Keeps W q0 (closeStart t i s) := by
  unfold closeStart
  repeat' (first
    | with_reducible assumption | exact sub_of (by assumption) (by decide) | with_reducible apply addDue_keeps
    | with_reducible apply stageDone_keeps | with_reducible apply stopHart_keeps | with_reducible apply dmaAbort_keeps
    | with_reducible apply modTenant_keeps | with_reducible apply abandon_keeps
    | with_reducible refine foldl_keeps _ _ _ ?_ ?_ | with_reducible refine foldl_fst_keeps _ _ _ ?_ ?_ | intro _ _ _
    | intro _ | with_reducible refine keeps_ite _ _ _ ?_ ?_ | split
    | with_reducible refine keeps_fst ?_ (by assumption) | with_reducible refine keeps_fst2 ?_ (by assumption)
    | simp only [])

theorem parkRunning_keeps {W : Nat} {q0 : State} (t : Nat) (s : State) (hk : Keeps W q0 s)
    (hW : Sub 0x8001029 W := by first | assumption | exact sub_of (by assumption) (by decide)) :
    Keeps W q0 (parkRunning t s) := by
  unfold parkRunning
  repeat' (first
    | with_reducible assumption | exact sub_of (by assumption) (by decide) | with_reducible apply stopHart_keeps
    | with_reducible refine foldl_keeps _ _ _ ?_ ?_ | with_reducible refine foldl_fst_keeps _ _ _ ?_ ?_ | intro _ _ _
    | intro _ | with_reducible refine keeps_ite _ _ _ ?_ ?_ | split
    | with_reducible refine keeps_fst ?_ (by assumption) | with_reducible refine keeps_fst2 ?_ (by assumption)
    | simp only [])

theorem dropPreload_keeps {W : Nat} {q0 : State} (t : Nat) (s : State) (hk : Keeps W q0 s)
    (hW : Sub 0x1701 W := by first | assumption | exact sub_of (by assumption) (by decide)) :
    Keeps W q0 (dropPreload t s) := by
  unfold dropPreload
  repeat' (first
    | with_reducible assumption | exact sub_of (by assumption) (by decide)
    | with_reducible exact twf_tset _ _ _ _ (by assumption)
    | with_reducible refine keeps_chan (W := W) ?_ _ (by assumption) | with_reducible exact twf_nil _
    | with_reducible refine keeps_ok (W := W) ?_ (by assumption) | with_reducible apply dropReads_keeps
    | with_reducible apply stageDone_keeps | with_reducible apply dropLock_keeps
    | with_reducible refine foldl_keeps _ _ _ ?_ ?_ | with_reducible refine foldl_fst_keeps _ _ _ ?_ ?_ | intro _ _ _
    | intro _ | with_reducible refine keeps_ite _ _ _ ?_ ?_ | split
    | with_reducible refine keeps_fst ?_ (by assumption) | with_reducible refine keeps_fst2 ?_ (by assumption)
    | simp only [] | with_reducible refine keeps_lit (by assumption) ?_
    | (refine keeps_mem _ ?_ ?_ (sub_of (by assumption) (by decide))))

theorem closeRelease_keeps {W : Nat} {q0 : State} (t : Nat) (s : State) (hk : Keeps W q0 s)
    (hW : Sub 0x280FFF39 W := by first | assumption | exact sub_of (by assumption) (by decide)) :
    Keeps W q0 (closeRelease t s) := by
  unfold closeRelease
  repeat' (first
    | with_reducible assumption | exact sub_of (by assumption) (by decide)
    | with_reducible exact twf_tset _ _ _ _ (by assumption)
    | with_reducible refine keeps_chan (W := W) ?_ _ (by assumption) | with_reducible exact twf_nil _
    | with_reducible refine keeps_ok (W := W) ?_ (by assumption) | with_reducible apply addDue_keeps
    | with_reducible apply setMem_keeps | with_reducible apply dropLock_keeps | with_reducible apply setDmaState_keeps
    | with_reducible apply closeDevices_keeps | with_reducible apply dmaGive_keeps
    | with_reducible apply modTenant_keeps | with_reducible apply giveHart_keeps
    | with_reducible apply rehomeFlight_keeps | with_reducible apply releaseSealed_keeps
    | with_reducible apply dropTenantLines_keeps | with_reducible apply parkRunning_keeps
    | with_reducible apply dropPreload_keeps | with_reducible refine foldl_keeps _ _ _ ?_ ?_
    | with_reducible refine foldl_fst_keeps _ _ _ ?_ ?_ | intro _ _ _ | intro _
    | with_reducible refine keeps_ite _ _ _ ?_ ?_ | split | with_reducible refine keeps_fst ?_ (by assumption)
    | with_reducible refine keeps_fst2 ?_ (by assumption) | simp only [])

theorem closeKeyErase_keeps {W : Nat} {q0 : State} (t : Nat) (s : State) (hk : Keeps W q0 s) (hW : Sub 0x8000000 W) :
    Keeps W q0 (closeKeyErase t s) := by
  unfold closeKeyErase
  with_reducible repeat' (first
    | assumption | apply addDue_keeps | apply keysErased_keeps | exact sub_of (by assumption) (by decide) | split
    | simp only [])

theorem keysErased_keeps {W : Nat} {q0 : State} (t : Nat) (s : State) (hk : Keeps W q0 s) (hW : Sub 0xC00 W) : Keeps
    W q0 (keysErased t s) := by
  unfold keysErased
  with_reducible repeat' (first
    | assumption | apply setTenant_keeps | apply eraseKeys_keeps | exact sub_of (by assumption) (by decide))

theorem tenantStatus_keeps {W : Nat} {q0 : State} (i : Nat) (c : Bytes) (s : State) (hk : Keeps W q0 s) (hW : Sub
    0x1001 W) : Keeps W q0 (tenantStatus i c s) := by
  unfold tenantStatus
  with_reducible repeat' (first | assumption | apply stageDone_keeps)

/-! ## Fabric -/

theorem modFab_keeps {W : Nat} {q0 : State} (f : Fabric → Fabric) (s : State) (hk : Keeps W q0 s) (hW : Sub 0x10000
    W) : Keeps W q0 (modFab f s) := by
  unfold modFab
  with_reducible repeat' (first | assumption | apply setFab_keeps)

theorem showIsolated_keeps {W : Nat} {q0 : State} (s : State) (hk : Keeps W q0 s)
    (hW : Sub 0x1 W := by first | assumption | exact sub_of (by assumption) (by decide)) :
    Keeps W q0 (showIsolated s) := by
  unfold showIsolated
  repeat' (first
    | with_reducible assumption | exact sub_of (by assumption) (by decide) | with_reducible apply wrB_keeps
    | with_reducible refine foldl_keeps _ _ _ ?_ ?_ | with_reducible refine foldl_fst_keeps _ _ _ ?_ ?_ | intro _ _ _
    | intro _ | with_reducible refine keeps_ite _ _ _ ?_ ?_ | split
    | with_reducible refine keeps_fst ?_ (by assumption) | with_reducible refine keeps_fst2 ?_ (by assumption)
    | simp only [])

theorem bringUp_keeps {W : Nat} {q0 : State} (k : Nat) (s : State) (hk : Keeps W q0 s)
    (hW : Sub 0x10001 W := by first | assumption | exact sub_of (by assumption) (by decide)) :
    Keeps W q0 (bringUp k s) := by
  unfold bringUp
  repeat' (first
    | with_reducible assumption | exact sub_of (by assumption) (by decide) | with_reducible apply wr_keeps
    | with_reducible apply modPort_keeps | with_reducible apply showIsolated_keeps
    | with_reducible refine foldl_keeps _ _ _ ?_ ?_ | with_reducible refine foldl_fst_keeps _ _ _ ?_ ?_ | intro _ _ _
    | intro _ | with_reducible refine keeps_ite _ _ _ ?_ ?_ | split
    | with_reducible refine keeps_fst ?_ (by assumption) | with_reducible refine keeps_fst2 ?_ (by assumption)
    | simp only [])

theorem goDown_keeps {W : Nat} {q0 : State} (k cause : Nat) (s : State) (hk : Keeps W q0 s)
    (hW : Sub 0x10001 W := by first | assumption | exact sub_of (by assumption) (by decide)) :
    Keeps W q0 (goDown k cause s) := by
  unfold goDown
  repeat' (first
    | with_reducible assumption | exact sub_of (by assumption) (by decide) | with_reducible apply wr_keeps
    | with_reducible apply modPort_keeps | with_reducible apply showIsolated_keeps
    | with_reducible refine foldl_keeps _ _ _ ?_ ?_ | with_reducible refine foldl_fst_keeps _ _ _ ?_ ?_ | intro _ _ _
    | intro _ | with_reducible refine keeps_ite _ _ _ ?_ ?_ | split
    | with_reducible refine keeps_fst ?_ (by assumption) | with_reducible refine keeps_fst2 ?_ (by assumption)
    | simp only [])

theorem isolatePort_keeps {W : Nat} {q0 : State} (k cause : Nat) (s : State) (hk : Keeps W q0 s) (hW : Sub 0x82001 W)
    : Keeps W q0 (isolatePort k cause s) := by
  unfold isolatePort
  with_reducible repeat' (first
    | assumption | apply recContained_keeps | apply wr_keeps | exact sub_of (by assumption) (by decide))

theorem startElection_keeps {W : Nat} {q0 : State} (e : Nat) (s : State) (hk : Keeps W q0 s)
    (hW : Sub 0x10001 W := by first | assumption | exact sub_of (by assumption) (by decide)) :
    Keeps W q0 (startElection e s) := by
  unfold startElection
  repeat' (first
    | with_reducible assumption | exact sub_of (by assumption) (by decide) | with_reducible apply wr_keeps
    | with_reducible apply bump_keeps | with_reducible apply modFab_keeps
    | with_reducible refine foldl_keeps _ _ _ ?_ ?_ | with_reducible refine foldl_fst_keeps _ _ _ ?_ ?_ | intro _ _ _
    | intro _ | with_reducible refine keeps_ite _ _ _ ?_ ?_ | split
    | with_reducible refine keeps_fst ?_ (by assumption) | with_reducible refine keeps_fst2 ?_ (by assumption)
    | simp only [])

theorem linkUp5_keeps {W : Nat} {q0 : State} (k : Nat) (s : State) (hk : Keeps W q0 s)
    (hW : Sub 0x10001 W := by first | assumption | exact sub_of (by assumption) (by decide)) :
    Keeps W q0 (linkUp5 k s) := by
  unfold linkUp5
  repeat' (first
    | with_reducible assumption | exact sub_of (by assumption) (by decide) | with_reducible apply wr_keeps
    | with_reducible apply modPort_keeps | with_reducible apply modFab_keeps
    | with_reducible apply startElection_keeps | with_reducible refine foldl_keeps _ _ _ ?_ ?_
    | with_reducible refine foldl_fst_keeps _ _ _ ?_ ?_ | intro _ _ _ | intro _
    | with_reducible refine keeps_ite _ _ _ ?_ ?_ | split | with_reducible refine keeps_fst ?_ (by assumption)
    | with_reducible refine keeps_fst2 ?_ (by assumption) | simp only [])

theorem sendKeying_keeps {W : Nat} {q0 : State} (k step : Nat) (s : State) (hk : Keeps W q0 s)
    (hW : Sub 0x10000 W := by first | assumption | exact sub_of (by assumption) (by decide)) :
    Keeps W q0 (sendKeying k step s) := by
  unfold sendKeying
  repeat' (first
    | with_reducible assumption | exact sub_of (by assumption) (by decide) | with_reducible apply putFlit_keeps
    | with_reducible refine foldl_keeps _ _ _ ?_ ?_ | with_reducible refine foldl_fst_keeps _ _ _ ?_ ?_ | intro _ _ _
    | intro _ | with_reducible refine keeps_ite _ _ _ ?_ ?_ | split
    | with_reducible refine keeps_fst ?_ (by assumption) | with_reducible refine keeps_fst2 ?_ (by assumption)
    | simp only [])

theorem stageDone5_keeps {W : Nat} {q0 : State} (k : Nat) (s : State) (hk : Keeps W q0 s)
    (hW : Sub 0x92001 W := by first | assumption | exact sub_of (by assumption) (by decide)) :
    Keeps W q0 (stageDone5 k s) := by
  unfold stageDone5
  repeat' (first
    | with_reducible assumption | exact sub_of (by assumption) (by decide) | with_reducible apply wr_keeps
    | with_reducible apply modPort_keeps | with_reducible apply isolatePort_keeps | with_reducible apply linkUp5_keeps
    | with_reducible apply sendKeying_keeps | with_reducible refine foldl_keeps _ _ _ ?_ ?_
    | with_reducible refine foldl_fst_keeps _ _ _ ?_ ?_ | intro _ _ _ | intro _
    | with_reducible refine keeps_ite _ _ _ ?_ ?_ | split | with_reducible refine keeps_fst ?_ (by assumption)
    | with_reducible refine keeps_fst2 ?_ (by assumption) | simp only [])

theorem stageTimeout5_keeps {W : Nat} {q0 : State} (k : Nat) (failed : Bool) (s : State) (hk : Keeps W q0 s) (hW :
    Sub 0x10001 W) : Keeps W q0 (stageTimeout5 k failed s) := by
  unfold stageTimeout5
  with_reducible repeat' (first
    | assumption | apply failed_keeps | apply goDown_keeps | exact sub_of (by assumption) (by decide) | split
    | simp only [])

theorem retryTimer5_keeps {W : Nat} {q0 : State} (k : Nat) (s : State) (hk : Keeps W q0 s)
    (hW : Sub 0x10001 W := by first | assumption | exact sub_of (by assumption) (by decide)) :
    Keeps W q0 (retryTimer5 k s) := by
  unfold retryTimer5
  repeat' (first
    | with_reducible assumption | exact sub_of (by assumption) (by decide) | with_reducible apply bringUp_keeps
    | with_reducible refine foldl_keeps _ _ _ ?_ ?_ | with_reducible refine foldl_fst_keeps _ _ _ ?_ ?_ | intro _ _ _
    | intro _ | with_reducible refine keeps_ite _ _ _ ?_ ?_ | split
    | with_reducible refine keeps_fst ?_ (by assumption) | with_reducible refine keeps_fst2 ?_ (by assumption)
    | simp only [])

theorem keyingFlit_keeps {W : Nat} {q0 : State} (k step : Nat) (ok : Bool) (s : State) (hk : Keeps W q0 s)
    (hW : Sub 0x92001 W := by first | assumption | exact sub_of (by assumption) (by decide)) :
    Keeps W q0 (keyingFlit k step ok s) := by
  unfold keyingFlit
  repeat' (first
    | with_reducible assumption | exact sub_of (by assumption) (by decide) | with_reducible apply modPort_keeps
    | with_reducible apply modFab_keeps | with_reducible apply goDown_keeps | with_reducible apply isolatePort_keeps
    | with_reducible apply sendKeying_keeps | with_reducible refine foldl_keeps _ _ _ ?_ ?_
    | with_reducible refine foldl_fst_keeps _ _ _ ?_ ?_ | intro _ _ _ | intro _
    | with_reducible refine keeps_ite _ _ _ ?_ ?_ | split | with_reducible refine keeps_fst ?_ (by assumption)
    | with_reducible refine keeps_fst2 ?_ (by assumption) | simp only [])

theorem linkRekey_keeps {W : Nat} {q0 : State} (k : Nat) (rx : Bool) (s : State) (hk : Keeps W q0 s) (hW : Sub
    0x10000 W) : Keeps W q0 (linkRekey k rx s) := by
  unfold linkRekey
  with_reducible repeat' (first
    | assumption | apply modFab_keeps | apply modPort_keeps | exact sub_of (by assumption) (by decide) | split
    | simp only [])

theorem unplaceShares_keeps {W : Nat} {q0 : State} (dev port : Nat) (s : State) (hk : Keeps W q0 s)
    (hW : Sub 0x11801 W := by first | assumption | exact sub_of (by assumption) (by decide)) :
    Keeps W q0 (unplaceShares dev port s) := by
  unfold unplaceShares
  repeat' (first
    | with_reducible assumption | exact sub_of (by assumption) (by decide) | with_reducible apply sealNotice_keeps
    | with_reducible apply dropSegsIf_keeps | with_reducible apply modFab_keeps
    | with_reducible refine foldl_keeps _ _ _ ?_ ?_ | with_reducible refine foldl_fst_keeps _ _ _ ?_ ?_ | intro _ _ _
    | intro _ | with_reducible refine keeps_ite _ _ _ ?_ ?_ | split
    | with_reducible refine keeps_fst ?_ (by assumption) | with_reducible refine keeps_fst2 ?_ (by assumption)
    | simp only [])

theorem floodNotice_keeps {W : Nat} {q0 : State} (but dev port b : Nat) (s : State) (hk : Keeps W q0 s)
    (hW : Sub 0x10000 W := by first | assumption | exact sub_of (by assumption) (by decide)) :
    Keeps W q0 (floodNotice but dev port b s) := by
  unfold floodNotice
  repeat' (first
    | with_reducible assumption | exact sub_of (by assumption) (by decide) | with_reducible apply putFlit_keeps
    | with_reducible refine foldl_keeps _ _ _ ?_ ?_ | with_reducible refine foldl_fst_keeps _ _ _ ?_ ?_ | intro _ _ _
    | intro _ | with_reducible refine keeps_ite _ _ _ ?_ ?_ | split
    | with_reducible refine keeps_fst ?_ (by assumption) | with_reducible refine keeps_fst2 ?_ (by assumption)
    | simp only [])

theorem recomputeNow_keeps {W : Nat} {q0 : State} (s : State) (hk : Keeps W q0 s)
    (hW : Sub 0x10001 W := by first | assumption | exact sub_of (by assumption) (by decide)) :
    Keeps W q0 (recomputeNow s) := by
  unfold recomputeNow
  repeat' (first
    | with_reducible assumption | exact sub_of (by assumption) (by decide) | with_reducible apply wr_keeps
    | with_reducible apply modFab_keeps | with_reducible refine foldl_keeps _ _ _ ?_ ?_
    | with_reducible refine foldl_fst_keeps _ _ _ ?_ ?_ | intro _ _ _ | intro _
    | with_reducible refine keeps_ite _ _ _ ?_ ?_ | split | with_reducible refine keeps_fst ?_ (by assumption)
    | with_reducible refine keeps_fst2 ?_ (by assumption) | simp only [])

theorem recompute_keeps {W : Nat} {q0 : State} (s : State) (hk : Keeps W q0 s)
    (hW : Sub 0x10001 W := by first | assumption | exact sub_of (by assumption) (by decide)) :
    Keeps W q0 (recompute s) := by
  unfold recompute
  repeat' (first
    | with_reducible assumption | exact sub_of (by assumption) (by decide) | with_reducible apply modFab_keeps
    | with_reducible apply recomputeNow_keeps | with_reducible refine foldl_keeps _ _ _ ?_ ?_
    | with_reducible refine foldl_fst_keeps _ _ _ ?_ ?_ | intro _ _ _ | intro _
    | with_reducible refine keeps_ite _ _ _ ?_ ?_ | split | with_reducible refine keeps_fst ?_ (by assumption)
    | with_reducible refine keeps_fst2 ?_ (by assumption) | simp only [])

theorem runAlone_keeps {W : Nat} {q0 : State} (s : State) (hk : Keeps W q0 s)
    (hW : Sub 0x10005 W := by first | assumption | exact sub_of (by assumption) (by decide)) :
    Keeps W q0 (runAlone s) := by
  unfold runAlone
  repeat' (first
    | with_reducible assumption | exact sub_of (by assumption) (by decide) | with_reducible apply wr_keeps
    | with_reducible apply ownCaptain_keeps | with_reducible apply modFab_keeps
    | with_reducible refine foldl_keeps _ _ _ ?_ ?_ | with_reducible refine foldl_fst_keeps _ _ _ ?_ ?_ | intro _ _ _
    | intro _ | with_reducible refine keeps_ite _ _ _ ?_ ?_ | split
    | with_reducible refine keeps_fst ?_ (by assumption) | with_reducible refine keeps_fst2 ?_ (by assumption)
    | simp only [])

theorem joinLost_keeps {W : Nat} {q0 : State} (s : State) (hk : Keeps W q0 s)
    (hW : Sub 0x10005 W := by first | assumption | exact sub_of (by assumption) (by decide)) :
    Keeps W q0 (joinLost s) := by
  unfold joinLost
  repeat' (first
    | with_reducible assumption | exact sub_of (by assumption) (by decide) | with_reducible apply runAlone_keeps
    | with_reducible refine foldl_keeps _ _ _ ?_ ?_ | with_reducible refine foldl_fst_keeps _ _ _ ?_ ?_ | intro _ _ _
    | intro _ | with_reducible refine keeps_ite _ _ _ ?_ ?_ | split
    | with_reducible refine keeps_fst ?_ (by assumption) | with_reducible refine keeps_fst2 ?_ (by assumption)
    | simp only [])

theorem reportAgain_keeps {W : Nat} {q0 : State} (s : State) (hk : Keeps W q0 s)
    (hW : Sub 0x20010000 W := by first | assumption | exact sub_of (by assumption) (by decide)) :
    Keeps W q0 (reportAgain s) := by
  unfold reportAgain
  repeat' (first
    | with_reducible assumption | exact sub_of (by assumption) (by decide) | with_reducible apply sendMsg_keeps
    | with_reducible refine foldl_keeps _ _ _ ?_ ?_ | with_reducible refine foldl_fst_keeps _ _ _ ?_ ?_ | intro _ _ _
    | intro _ | with_reducible refine keeps_ite _ _ _ ?_ ?_ | split
    | with_reducible refine keeps_fst ?_ (by assumption) | with_reducible refine keeps_fst2 ?_ (by assumption)
    | simp only [])

theorem dropReported_keeps {W : Nat} {q0 : State} (dev port : Nat) (s : State) (hk : Keeps W q0 s)
    (hW : Sub 0x10000 W := by first | assumption | exact sub_of (by assumption) (by decide)) :
    Keeps W q0 (dropReported dev port s) := by
  unfold dropReported
  repeat' (first
    | with_reducible assumption | exact sub_of (by assumption) (by decide) | with_reducible apply modFab_keeps
    | with_reducible refine foldl_keeps _ _ _ ?_ ?_ | with_reducible refine foldl_fst_keeps _ _ _ ?_ ?_ | intro _ _ _
    | intro _ | with_reducible refine keeps_ite _ _ _ ?_ ?_ | split
    | with_reducible refine keeps_fst ?_ (by assumption) | with_reducible refine keeps_fst2 ?_ (by assumption)
    | simp only [])

theorem linkFailed_keeps {W : Nat} {q0 : State} (k next : Nat) (s : State) (hk : Keeps W q0 s)
    (hW : Sub 0x20093805 W := by first | assumption | exact sub_of (by assumption) (by decide)) :
    Keeps W q0 (linkFailed k next s) := by
  unfold linkFailed
  repeat' (first
    | with_reducible assumption | exact sub_of (by assumption) (by decide) | with_reducible apply wr_keeps
    | with_reducible apply bump_keeps | with_reducible apply recContained_keeps | with_reducible apply modPort_keeps
    | with_reducible apply modFab_keeps | with_reducible apply unplaceShares_keeps
    | with_reducible apply floodNotice_keeps | with_reducible apply recompute_keeps
    | with_reducible apply joinLost_keeps | with_reducible apply reportAgain_keeps
    | with_reducible apply dropReported_keeps | with_reducible refine foldl_keeps _ _ _ ?_ ?_
    | with_reducible refine foldl_fst_keeps _ _ _ ?_ ?_ | intro _ _ _ | intro _
    | with_reducible refine keeps_ite _ _ _ ?_ ?_ | split | with_reducible refine keeps_fst ?_ (by assumption)
    | with_reducible refine keeps_fst2 ?_ (by assumption) | simp only [])

theorem laneFailure5_keeps {W : Nat} {q0 : State} (k lane : Nat) (s : State) (hk : Keeps W q0 s) (hW : Sub 0x20093805 W)
    : Keeps W q0 (laneFailure5 k lane s) := by
  unfold laneFailure5
  with_reducible repeat' (first
    | assumption | apply linkFailed_keeps | apply modPort_keeps | exact sub_of (by assumption) (by decide) | split
    | simp only [])

theorem retrainDone5_keeps {W : Nat} {q0 : State} (k : Nat) (s : State) (hk : Keeps W q0 s)
    (hW : Sub 0x20010001 W := by first | assumption | exact sub_of (by assumption) (by decide)) :
    Keeps W q0 (retrainDone5 k s) := by
  unfold retrainDone5
  repeat' (first
    | with_reducible assumption | exact sub_of (by assumption) (by decide) | with_reducible apply wr_keeps
    | with_reducible apply pumpWaiting_keeps | with_reducible apply linkUp5_keeps
    | with_reducible apply recompute_keeps | with_reducible apply reportAgain_keeps
    | with_reducible refine foldl_keeps _ _ _ ?_ ?_ | with_reducible refine foldl_fst_keeps _ _ _ ?_ ?_ | intro _ _ _
    | intro _ | with_reducible refine keeps_ite _ _ _ ?_ ?_ | split
    | with_reducible refine keeps_fst ?_ (by assumption) | with_reducible refine keeps_fst2 ?_ (by assumption)
    | simp only [])

theorem hearBest_keeps {W : Nat} {q0 : State} (k : Nat) (h : HelloMsg) (s : State) (hk : Keeps W q0 s) (hW : Sub
    0x10000 W) : Keeps W q0 (hearBest k h s) := by
  unfold hearBest
  with_reducible repeat' (first
    | assumption | apply setFab_keeps | exact sub_of (by assumption) (by decide) | split | simp only [])

theorem commitAgain_keeps {W : Nat} {q0 : State} (d : Nat) (s : State) (hk : Keeps W q0 s)
    (hW : Sub 0x20010000 W := by first | assumption | exact sub_of (by assumption) (by decide)) :
    Keeps W q0 (commitAgain d s) := by
  unfold commitAgain
  repeat' (first
    | with_reducible assumption | exact sub_of (by assumption) (by decide) | with_reducible apply freeNext_keeps
    | with_reducible apply sendMsg_keeps | with_reducible apply modFab_keeps
    | with_reducible refine foldl_keeps _ _ _ ?_ ?_ | with_reducible refine foldl_fst_keeps _ _ _ ?_ ?_ | intro _ _ _
    | intro _ | with_reducible refine keeps_ite _ _ _ ?_ ?_ | split
    | with_reducible refine keeps_fst ?_ (by assumption) | with_reducible refine keeps_fst2 ?_ (by assumption)
    | simp only [])

theorem helloLate_keeps {W : Nat} {q0 : State} (h : HelloMsg) (s : State) (hk : Keeps W q0 s)
    (hW : Sub 0x20010000 W := by first | assumption | exact sub_of (by assumption) (by decide)) :
    Keeps W q0 (helloLate h s) := by
  unfold helloLate
  repeat' (first
    | with_reducible assumption | exact sub_of (by assumption) (by decide) | with_reducible apply commitAgain_keeps
    | with_reducible refine foldl_keeps _ _ _ ?_ ?_ | with_reducible refine foldl_fst_keeps _ _ _ ?_ ?_ | intro _ _ _
    | intro _ | with_reducible refine keeps_ite _ _ _ ?_ ?_ | split
    | with_reducible refine keeps_fst ?_ (by assumption) | with_reducible refine keeps_fst2 ?_ (by assumption)
    | simp only [])

theorem linkNews_keeps {W : Nat} {q0 : State} (s : State) (hk : Keeps W q0 s)
    (hW : Sub 0x20010001 W := by first | assumption | exact sub_of (by assumption) (by decide)) :
    Keeps W q0 (linkNews s) := by
  unfold linkNews
  repeat' (first
    | with_reducible assumption | exact sub_of (by assumption) (by decide) | with_reducible apply recompute_keeps
    | with_reducible apply reportAgain_keeps | with_reducible refine foldl_keeps _ _ _ ?_ ?_
    | with_reducible refine foldl_fst_keeps _ _ _ ?_ ?_ | intro _ _ _ | intro _
    | with_reducible refine keeps_ite _ _ _ ?_ ?_ | split | with_reducible refine keeps_fst ?_ (by assumption)
    | with_reducible refine keeps_fst2 ?_ (by assumption) | simp only [])

theorem hello_keeps {W : Nat} {q0 : State} (k : Nat) (h : HelloMsg) (s : State) (hk : Keeps W q0 s)
    (hW : Sub 0x20092001 W := by first | assumption | exact sub_of (by assumption) (by decide)) :
    Keeps W q0 (hello k h s) := by
  unfold hello
  repeat' (first
    | with_reducible assumption | exact sub_of (by assumption) (by decide) | with_reducible apply wr_keeps
    | with_reducible apply wrB_keeps | with_reducible apply modPort_keeps | with_reducible apply isolatePort_keeps
    | with_reducible apply startElection_keeps | with_reducible apply hearBest_keeps
    | with_reducible apply helloLate_keeps | with_reducible apply linkNews_keeps
    | with_reducible refine foldl_keeps _ _ _ ?_ ?_ | with_reducible refine foldl_fst_keeps _ _ _ ?_ ?_ | intro _ _ _
    | intro _ | with_reducible refine keeps_ite _ _ _ ?_ ?_ | split
    | with_reducible refine keeps_fst ?_ (by assumption) | with_reducible refine keeps_fst2 ?_ (by assumption)
    | simp only [])

theorem sendHello_keeps {W : Nat} {q0 : State} (k : Nat) (s : State) (hk : Keeps W q0 s)
    (hW : Sub 0x10000 W := by first | assumption | exact sub_of (by assumption) (by decide)) :
    Keeps W q0 (sendHello k s) := by
  unfold sendHello
  repeat' (first
    | with_reducible assumption | exact sub_of (by assumption) (by decide) | with_reducible apply putFlit_keeps
    | with_reducible refine foldl_keeps _ _ _ ?_ ?_ | with_reducible refine foldl_fst_keeps _ _ _ ?_ ?_ | intro _ _ _
    | intro _ | with_reducible refine keeps_ite _ _ _ ?_ ?_ | split
    | with_reducible refine keeps_fst ?_ (by assumption) | with_reducible refine keeps_fst2 ?_ (by assumption)
    | simp only [])

theorem captainSettle_keeps {W : Nat} {q0 : State} (s : State) (hk : Keeps W q0 s)
    (hW : Sub 0x20010005 W := by first | assumption | exact sub_of (by assumption) (by decide)) :
    Keeps W q0 (captainSettle s) := by
  unfold captainSettle
  repeat' (first
    | with_reducible assumption | exact sub_of (by assumption) (by decide) | with_reducible apply wr_keeps
    | with_reducible apply realign_keeps | with_reducible apply ownCaptain_keeps | with_reducible apply sendMsg_keeps
    | with_reducible apply modFab_keeps | with_reducible apply runAlone_keeps
    | with_reducible refine foldl_keeps _ _ _ ?_ ?_ | with_reducible refine foldl_fst_keeps _ _ _ ?_ ?_ | intro _ _ _
    | intro _ | with_reducible refine keeps_ite _ _ _ ?_ ?_ | split
    | with_reducible refine keeps_fst ?_ (by assumption) | with_reducible refine keeps_fst2 ?_ (by assumption)
    | simp only [])

theorem joinReport_keeps {W : Nat} {q0 : State} (r : JoinRec) (s : State) (hk : Keeps W q0 s)
    (hW : Sub 0x10001 W := by first | assumption | exact sub_of (by assumption) (by decide)) :
    Keeps W q0 (joinReport r s) := by
  unfold joinReport
  repeat' (first
    | with_reducible assumption | exact sub_of (by assumption) (by decide) | with_reducible apply modFab_keeps
    | with_reducible apply recomputeNow_keeps | with_reducible refine foldl_keeps _ _ _ ?_ ?_
    | with_reducible refine foldl_fst_keeps _ _ _ ?_ ?_ | intro _ _ _ | intro _
    | with_reducible refine keeps_ite _ _ _ ?_ ?_ | split | with_reducible refine keeps_fst ?_ (by assumption)
    | with_reducible refine keeps_fst2 ?_ (by assumption) | simp only [])

theorem programPma_keeps {W : Nat} {q0 : State} (t : TablesMsg) (s : State) (hk : Keeps W q0 s)
    (hW : Sub 0x10000 W := by first | assumption | exact sub_of (by assumption) (by decide)) :
    Keeps W q0 (programPma t s) := by
  unfold programPma
  repeat' (first
    | with_reducible assumption | exact sub_of (by assumption) (by decide) | with_reducible apply modFab_keeps
    | with_reducible refine foldl_keeps _ _ _ ?_ ?_ | with_reducible refine foldl_fst_keeps _ _ _ ?_ ?_ | intro _ _ _
    | intro _ | with_reducible refine keeps_ite _ _ _ ?_ ?_ | split
    | with_reducible refine keeps_fst ?_ (by assumption) | with_reducible refine keeps_fst2 ?_ (by assumption)
    | simp only [])

theorem nameCommit_keeps {W : Nat} {q0 : State} (t : TablesMsg) (s : State) (hk : Keeps W q0 s)
    (hW : Sub 0x20010000 W := by first | assumption | exact sub_of (by assumption) (by decide)) :
    Keeps W q0 (nameCommit t s) := by
  unfold nameCommit
  repeat' (first
    | with_reducible assumption | exact sub_of (by assumption) (by decide) | with_reducible apply freeNext_keeps
    | with_reducible apply sendMsg_keeps | with_reducible apply modFab_keeps
    | with_reducible refine foldl_keeps _ _ _ ?_ ?_ | with_reducible refine foldl_fst_keeps _ _ _ ?_ ?_ | intro _ _ _
    | intro _ | with_reducible refine keeps_ite _ _ _ ?_ ?_ | split
    | with_reducible refine keeps_fst ?_ (by assumption) | with_reducible refine keeps_fst2 ?_ (by assumption)
    | simp only [])

theorem routesComputed_keeps {W : Nat} {q0 : State} (s : State) (hk : Keeps W q0 s)
    (hW : Sub 0x20010000 W := by first | assumption | exact sub_of (by assumption) (by decide)) :
    Keeps W q0 (routesComputed s) := by
  unfold routesComputed
  repeat' (first
    | with_reducible assumption | exact sub_of (by assumption) (by decide) | with_reducible apply sendMsg_keeps
    | with_reducible apply modFab_keeps | with_reducible apply programPma_keeps
    | with_reducible apply nameCommit_keeps | with_reducible refine foldl_keeps _ _ _ ?_ ?_
    | with_reducible refine foldl_fst_keeps _ _ _ ?_ ?_ | intro _ _ _ | intro _
    | with_reducible refine keeps_ite _ _ _ ?_ ?_ | split | with_reducible refine keeps_fst ?_ (by assumption)
    | with_reducible refine keeps_fst2 ?_ (by assumption) | simp only [])

theorem tablesIn_keeps {W : Nat} {q0 : State} (t : TablesMsg) (s : State) (hk : Keeps W q0 s)
    (hW : Sub 0x20010000 W := by first | assumption | exact sub_of (by assumption) (by decide)) :
    Keeps W q0 (tablesIn t s) := by
  unfold tablesIn
  repeat' (first
    | with_reducible assumption | exact sub_of (by assumption) (by decide) | with_reducible apply sendMsg_keeps
    | with_reducible apply modFab_keeps | with_reducible apply programPma_keeps
    | with_reducible refine foldl_keeps _ _ _ ?_ ?_ | with_reducible refine foldl_fst_keeps _ _ _ ?_ ?_ | intro _ _ _
    | intro _ | with_reducible refine keeps_ite _ _ _ ?_ ?_ | split
    | with_reducible refine keeps_fst ?_ (by assumption) | with_reducible refine keeps_fst2 ?_ (by assumption)
    | simp only [])

theorem tablesAck_keeps {W : Nat} {q0 : State} (dev epoch digest : Nat) (s : State) (hk : Keeps W q0 s)
    (hW : Sub 0x20010000 W := by first | assumption | exact sub_of (by assumption) (by decide)) :
    Keeps W q0 (tablesAck dev epoch digest s) := by
  unfold tablesAck
  repeat' (first
    | with_reducible assumption | exact sub_of (by assumption) (by decide) | with_reducible apply modFab_keeps
    | with_reducible apply commitAgain_keeps | with_reducible apply nameCommit_keeps
    | with_reducible refine foldl_keeps _ _ _ ?_ ?_ | with_reducible refine foldl_fst_keeps _ _ _ ?_ ?_ | intro _ _ _
    | intro _ | with_reducible refine keeps_ite _ _ _ ?_ ?_ | split
    | with_reducible refine keeps_fst ?_ (by assumption) | with_reducible refine keeps_fst2 ?_ (by assumption)
    | simp only [])

theorem commitIn_keeps {W : Nat} {q0 : State} (epoch b : Nat) (s : State) (hk : Keeps W q0 s) (hW : Sub 0x10000 W) :
    Keeps W q0 (commitIn epoch b s) := by
  unfold commitIn
  with_reducible repeat' (first | assumption | apply modFab_keeps | exact sub_of (by assumption) (by decide) | split)

theorem clearGrants_keeps {W : Nat} {q0 : State} (d : Nat) (s : State) (hk : Keeps W q0 s) (hW : Sub 0x1 W) : Keeps W
    q0 (clearGrants d s) := by
  unfold clearGrants
  with_reducible repeat' (first
    | assumption | apply wr_keeps | exact sub_of (by assumption) (by decide) | refine foldl_keeps _ _ _ ?_ ?_
    | intro _ _ _)

theorem grantBit_keeps {W : Nat} {q0 : State} (d t : Nat) (on : Bool) (s : State) (hk : Keeps W q0 s) (hW : Sub 0x1
    W) : Keeps W q0 (grantBit d t on s) := by
  unfold grantBit
  with_reducible repeat' (first
    | assumption | apply wr_keeps | exact sub_of (by assumption) (by decide) | split | simp only [])

theorem departLine_keeps {W : Nat} {q0 : State} (tag line : Nat) (s : State) (hk : Keeps W q0 s) (hW : Sub 0x83001 W)
    : Keeps W q0 (departLine tag line s) := by
  unfold departLine
  with_reducible repeat' (first | assumption | apply recVisible_keeps)

theorem grantFreed_keeps {W : Nat} {q0 : State} (n : Nat) (s : State) (hk : Keeps W q0 s)
    (hW : Sub 0x20010000 W := by first | assumption | exact sub_of (by assumption) (by decide)) :
    Keeps W q0 (grantFreed n s) := by
  induction n generalizing s with
  | zero => exact hk
  | succ n ih =>
    unfold grantFreed
    split
    · exact ih _ (sendPkt_keeps _ _ (modFab_keeps _ _ hk (sub_of hW (by decide))) (sub_of hW (by decide)))
    · exact hk

theorem lostMember_keeps {W : Nat} {q0 : State} (d : Nat) (s : State) (hk : Keeps W q0 s)
    (hW : Sub 0x200BFF19 W := by first | assumption | exact sub_of (by assumption) (by decide)) :
    Keeps W q0 (lostMember d s) := by
  unfold lostMember
  repeat' (first
    | with_reducible assumption | exact sub_of (by assumption) (by decide)
    | with_reducible exact twf_tset _ _ _ _ (by assumption)
    | with_reducible refine keeps_chan (W := W) ?_ _ (by assumption) | with_reducible exact twf_nil _
    | with_reducible refine keeps_ok (W := W) ?_ (by assumption) | with_reducible apply putFabDir_keeps
    | with_reducible apply writeHome_keeps | with_reducible apply discardLine_keeps
    | with_reducible apply modFab_keeps | with_reducible apply clearGrants_keeps
    | with_reducible apply departLine_keeps | with_reducible apply grantFreed_keeps
    | with_reducible refine foldl_keeps _ _ _ ?_ ?_ | with_reducible refine foldl_fst_keeps _ _ _ ?_ ?_ | intro _ _ _
    | intro _ | with_reducible refine keeps_ite _ _ _ ?_ ?_ | split
    | with_reducible refine keeps_fst ?_ (by assumption) | with_reducible refine keeps_fst2 ?_ (by assumption)
    | simp only [])

theorem admitGrants_keeps {W : Nat} {q0 : State} (l : List (Nat × Nat)) (d : Nat) (s : State) (hk : Keeps W q0 s)
    (hW : Sub 0x10001 W := by first | assumption | exact sub_of (by assumption) (by decide)) :
    Keeps W q0 (admitGrants l d s) := by
  unfold admitGrants
  repeat' (first
    | with_reducible assumption | exact sub_of (by assumption) (by decide) | with_reducible apply modFab_keeps
    | with_reducible apply clearGrants_keeps | with_reducible apply grantBit_keeps
    | with_reducible refine foldl_keeps _ _ _ ?_ ?_ | with_reducible refine foldl_fst_keeps _ _ _ ?_ ?_ | intro _ _ _
    | intro _ | with_reducible refine keeps_ite _ _ _ ?_ ?_ | split
    | with_reducible refine keeps_fst ?_ (by assumption) | with_reducible refine keeps_fst2 ?_ (by assumption)
    | simp only [])

theorem putRoutes_keeps {W : Nat} {q0 : State} (l : List Nat) (s : State) (hk : Keeps W q0 s) (hW : Sub 0x1 W) :
    Keeps W q0 (putRoutes l s) := by
  unfold putRoutes
  with_reducible repeat' (first
    | assumption | apply wr_keeps | exact sub_of (by assumption) (by decide) | refine foldl_keeps _ _ _ ?_ ?_
    | split | intro _ _ _)

theorem isolateOthers_keeps {W : Nat} {q0 : State} (t : TablesMsg) (s : State) (hk : Keeps W q0 s)
    (hW : Sub 0x82001 W := by first | assumption | exact sub_of (by assumption) (by decide)) :
    Keeps W q0 (isolateOthers t s) := by
  unfold isolateOthers
  repeat' (first
    | with_reducible assumption | exact sub_of (by assumption) (by decide) | with_reducible apply isolatePort_keeps
    | with_reducible refine foldl_keeps _ _ _ ?_ ?_ | with_reducible refine foldl_fst_keeps _ _ _ ?_ ?_ | intro _ _ _
    | intro _ | with_reducible refine keeps_ite _ _ _ ?_ ?_ | split
    | with_reducible refine keeps_fst ?_ (by assumption) | with_reducible refine keeps_fst2 ?_ (by assumption)
    | simp only [])

theorem applyTable_keeps {W : Nat} {q0 : State} (t : TablesMsg) (s : State) (hk : Keeps W q0 s)
    (hW : Sub 0x200BFF1D W := by first | assumption | exact sub_of (by assumption) (by decide)) :
    Keeps W q0 (applyTable t s) := by
  unfold applyTable
  repeat' (first
    | with_reducible assumption | exact sub_of (by assumption) (by decide)
    | with_reducible exact twf_tset _ _ _ _ (by assumption)
    | with_reducible refine keeps_chan (W := W) ?_ _ (by assumption) | with_reducible exact twf_nil _
    | with_reducible refine keeps_ok (W := W) ?_ (by assumption) | with_reducible apply wr_keeps
    | with_reducible apply wrB_keeps | with_reducible apply realign_keeps | with_reducible apply ownCaptain_keeps
    | with_reducible apply pumpWaiting_keeps | with_reducible apply modFab_keeps
    | with_reducible apply lostMember_keeps | with_reducible apply admitGrants_keeps
    | with_reducible apply putRoutes_keeps | with_reducible apply isolateOthers_keeps
    | with_reducible refine foldl_keeps _ _ _ ?_ ?_ | with_reducible refine foldl_fst_keeps _ _ _ ?_ ?_ | intro _ _ _
    | intro _ | with_reducible refine keeps_ite _ _ _ ?_ ?_ | split
    | with_reducible refine keeps_fst ?_ (by assumption) | with_reducible refine keeps_fst2 ?_ (by assumption)
    | simp only [])

theorem sendSegs_keeps {W : Nat} {q0 : State} (segs : List (Nat × ShareSeg)) (s : State) (hk : Keeps W q0 s)
    (hW : Sub 0x20010001 W := by first | assumption | exact sub_of (by assumption) (by decide)) :
    Keeps W q0 (sendSegs segs s) := by
  unfold sendSegs
  repeat' (first
    | with_reducible assumption | exact sub_of (by assumption) (by decide) | with_reducible apply putSeg_keeps
    | with_reducible apply sendMsg_keeps | with_reducible refine foldl_keeps _ _ _ ?_ ?_
    | with_reducible refine foldl_fst_keeps _ _ _ ?_ ?_ | intro _ _ _ | intro _
    | with_reducible refine keeps_ite _ _ _ ?_ ?_ | split | with_reducible refine keeps_fst ?_ (by assumption)
    | with_reducible refine keeps_fst2 ?_ (by assumption) | simp only [])

theorem unplacedHere_keeps {W : Nat} {q0 : State} (h : Share) (s : State) (hk : Keeps W q0 s)
    (hW : Sub 0x1800 W := by first | assumption | exact sub_of (by assumption) (by decide)) :
    Keeps W q0 (unplacedHere h s) := by
  unfold unplacedHere
  repeat' (first
    | with_reducible assumption | exact sub_of (by assumption) (by decide) | with_reducible apply sealNotice_keeps
    | with_reducible refine foldl_keeps _ _ _ ?_ ?_ | with_reducible refine foldl_fst_keeps _ _ _ ?_ ?_ | intro _ _ _
    | intro _ | with_reducible refine keeps_ite _ _ _ ?_ ?_ | split
    | with_reducible refine keeps_fst ?_ (by assumption) | with_reducible refine keeps_fst2 ?_ (by assumption)
    | simp only [])

theorem tellUnplaced_keeps {W : Nat} {q0 : State} (h : Share) (s : State) (hk : Keeps W q0 s)
    (hW : Sub 0x20011800 W := by first | assumption | exact sub_of (by assumption) (by decide)) :
    Keeps W q0 (tellUnplaced h s) := by
  unfold tellUnplaced
  repeat' (first
    | with_reducible assumption | exact sub_of (by assumption) (by decide) | with_reducible apply sendMsg_keeps
    | with_reducible apply unplacedHere_keeps | with_reducible refine foldl_keeps _ _ _ ?_ ?_
    | with_reducible refine foldl_fst_keeps _ _ _ ?_ ?_ | intro _ _ _ | intro _
    | with_reducible refine keeps_ite _ _ _ ?_ ?_ | split | with_reducible refine keeps_fst ?_ (by assumption)
    | with_reducible refine keeps_fst2 ?_ (by assumption) | simp only [])

theorem replaceShare_keeps {W : Nat} {q0 : State} (h : Share) (s : State) (hk : Keeps W q0 s)
    (hW : Sub 0x20011801 W := by first | assumption | exact sub_of (by assumption) (by decide)) :
    Keeps W q0 (replaceShare h s) := by
  unfold replaceShare
  repeat' (first
    | with_reducible assumption | exact sub_of (by assumption) (by decide) | with_reducible apply dropLanes_keeps
    | with_reducible apply modFab_keeps | with_reducible apply sendSegs_keeps
    | with_reducible apply tellUnplaced_keeps | with_reducible refine foldl_keeps _ _ _ ?_ ?_
    | with_reducible refine foldl_fst_keeps _ _ _ ?_ ?_ | intro _ _ _ | intro _
    | with_reducible refine keeps_ite _ _ _ ?_ ?_ | split | with_reducible refine keeps_fst ?_ (by assumption)
    | with_reducible refine keeps_fst2 ?_ (by assumption) | simp only [])

theorem replaceShares_keeps {W : Nat} {q0 : State} (s : State) (hk : Keeps W q0 s)
    (hW : Sub 0x20011801 W := by first | assumption | exact sub_of (by assumption) (by decide)) :
    Keeps W q0 (replaceShares s) := by
  unfold replaceShares
  repeat' (first
    | with_reducible assumption | exact sub_of (by assumption) (by decide) | with_reducible apply replaceShare_keeps
    | with_reducible refine foldl_keeps _ _ _ ?_ ?_ | with_reducible refine foldl_fst_keeps _ _ _ ?_ ?_ | intro _ _ _
    | intro _ | with_reducible refine keeps_ite _ _ _ ?_ ?_ | split
    | with_reducible refine keeps_fst ?_ (by assumption) | with_reducible refine keeps_fst2 ?_ (by assumption)
    | simp only [])

theorem askPlace_keeps {W : Nat} {q0 : State} (h : Share) (s : State) (hk : Keeps W q0 s)
    (hW : Sub 0x20010000 W := by first | assumption | exact sub_of (by assumption) (by decide)) :
    Keeps W q0 (askPlace h s) := by
  unfold askPlace
  repeat' (first
    | with_reducible assumption | exact sub_of (by assumption) (by decide) | with_reducible apply sendMsg_keeps
    | with_reducible refine foldl_keeps _ _ _ ?_ ?_ | with_reducible refine foldl_fst_keeps _ _ _ ?_ ?_ | intro _ _ _
    | intro _ | with_reducible refine keeps_ite _ _ _ ?_ ?_ | split
    | with_reducible refine keeps_fst ?_ (by assumption) | with_reducible refine keeps_fst2 ?_ (by assumption)
    | simp only [])

theorem askAgain_keeps {W : Nat} {q0 : State} (old : Nat) (s : State) (hk : Keeps W q0 s)
    (hW : Sub 0x20010000 W := by first | assumption | exact sub_of (by assumption) (by decide)) :
    Keeps W q0 (askAgain old s) := by
  unfold askAgain
  repeat' (first
    | with_reducible assumption | exact sub_of (by assumption) (by decide) | with_reducible apply modFab_keeps
    | with_reducible apply askPlace_keeps | with_reducible refine foldl_keeps _ _ _ ?_ ?_
    | with_reducible refine foldl_fst_keeps _ _ _ ?_ ?_ | intro _ _ _ | intro _
    | with_reducible refine keeps_ite _ _ _ ?_ ?_ | split | with_reducible refine keeps_fst ?_ (by assumption)
    | with_reducible refine keeps_fst2 ?_ (by assumption) | simp only [])

theorem commitMissed_keeps {W : Nat} {q0 : State} (s : State) (hk : Keeps W q0 s)
    (hW : Sub 0x20010000 W := by first | assumption | exact sub_of (by assumption) (by decide)) :
    Keeps W q0 (commitMissed s) := by
  unfold commitMissed
  repeat' (first
    | with_reducible assumption | exact sub_of (by assumption) (by decide) | with_reducible apply commitAgain_keeps
    | with_reducible refine foldl_keeps _ _ _ ?_ ?_ | with_reducible refine foldl_fst_keeps _ _ _ ?_ ?_ | intro _ _ _
    | intro _ | with_reducible refine keeps_ite _ _ _ ?_ ?_ | split
    | with_reducible refine keeps_fst ?_ (by assumption) | with_reducible refine keeps_fst2 ?_ (by assumption)
    | simp only [])

theorem tableSwitch_keeps {W : Nat} {q0 : State} (s : State) (hk : Keeps W q0 s)
    (hW : Sub 0x200BFF1D W := by first | assumption | exact sub_of (by assumption) (by decide)) :
    Keeps W q0 (tableSwitch s) := by
  unfold tableSwitch
  repeat' (first
    | with_reducible assumption | exact sub_of (by assumption) (by decide)
    | with_reducible exact twf_tset _ _ _ _ (by assumption)
    | with_reducible refine keeps_chan (W := W) ?_ _ (by assumption) | with_reducible exact twf_nil _
    | with_reducible refine keeps_ok (W := W) ?_ (by assumption) | with_reducible apply applyTable_keeps
    | with_reducible apply replaceShares_keeps | with_reducible apply askAgain_keeps
    | with_reducible apply commitMissed_keeps | with_reducible refine foldl_keeps _ _ _ ?_ ?_
    | with_reducible refine foldl_fst_keeps _ _ _ ?_ ?_ | intro _ _ _ | intro _
    | with_reducible refine keeps_ite _ _ _ ?_ ?_ | split | with_reducible refine keeps_fst ?_ (by assumption)
    | with_reducible refine keeps_fst2 ?_ (by assumption) | simp only [])

theorem graceEnd_keeps {W : Nat} {q0 : State} (s : State) (hk : Keeps W q0 s) (hW : Sub 0x10000 W) : Keeps W q0
    (graceEnd s) := by
  unfold graceEnd
  with_reducible repeat' (first | assumption | apply modFab_keeps | exact sub_of (by assumption) (by decide) | split)

theorem bankReady_keeps {W : Nat} {q0 : State} (s : State) (hk : Keeps W q0 s) (hW : Sub 0x10001 W) : Keeps W q0
    (bankReady s) := by
  unfold bankReady
  with_reducible repeat' (first
    | assumption | apply wr_keeps | apply modFab_keeps | exact sub_of (by assumption) (by decide) | split)

theorem bankSwitch_keeps {W : Nat} {q0 : State} (s : State) (hk : Keeps W q0 s) (hW : Sub 0x20010001 W) : Keeps W q0
    (bankSwitch s) := by
  unfold bankSwitch
  with_reducible repeat' (first
    | assumption | apply modFab_keeps | apply putRoutes_keeps | apply pumpWaiting_keeps | apply recompute_keeps
    | apply wr_keeps | apply bump_keeps | exact sub_of (by assumption) (by decide) | split)

theorem linkNotice_keeps {W : Nat} {q0 : State} (k dev port b : Nat) (s : State) (hk : Keeps W q0 s)
    (hW : Sub 0x11801 W := by first | assumption | exact sub_of (by assumption) (by decide)) :
    Keeps W q0 (linkNotice k dev port b s) := by
  unfold linkNotice
  repeat' (first
    | with_reducible assumption | exact sub_of (by assumption) (by decide) | with_reducible apply modFab_keeps
    | with_reducible apply unplaceShares_keeps | with_reducible apply floodNotice_keeps
    | with_reducible apply recompute_keeps | with_reducible apply dropReported_keeps
    | with_reducible refine foldl_keeps _ _ _ ?_ ?_ | with_reducible refine foldl_fst_keeps _ _ _ ?_ ?_ | intro _ _ _
    | intro _ | with_reducible refine keeps_ite _ _ _ ?_ ?_ | split
    | with_reducible refine keeps_fst ?_ (by assumption) | with_reducible refine keeps_fst2 ?_ (by assumption)
    | simp only [])

theorem markerLoss_keeps {W : Nat} {q0 : State} (s : State) (hk : Keeps W q0 s)
    (hW : Sub 0x10005 W := by first | assumption | exact sub_of (by assumption) (by decide)) :
    Keeps W q0 (markerLoss s) := by
  unfold markerLoss
  repeat' (first
    | with_reducible assumption | exact sub_of (by assumption) (by decide) | with_reducible apply realign_keeps
    | with_reducible apply startElection_keeps | with_reducible refine foldl_keeps _ _ _ ?_ ?_
    | with_reducible refine foldl_fst_keeps _ _ _ ?_ ?_ | intro _ _ _ | intro _
    | with_reducible refine keeps_ite _ _ _ ?_ ?_ | split | with_reducible refine keeps_fst ?_ (by assumption)
    | with_reducible refine keeps_fst2 ?_ (by assumption) | simp only []
    | with_reducible refine keeps_lit (by assumption) ?_)

theorem captainUnreachable_keeps {W : Nat} {q0 : State} (s : State) (hk : Keeps W q0 s) (hW : Sub 0x10001 W) : Keeps
    W q0 (captainUnreachable s) := by
  unfold captainUnreachable
  with_reducible repeat' (first
    | assumption | apply startElection_keeps | exact sub_of (by assumption) (by decide) | split)

theorem memberUnreachable_keeps {W : Nat} {q0 : State} (d : Nat) (s : State) (hk : Keeps W q0 s) (hW : Sub 0x10001 W)
    : Keeps W q0 (memberUnreachable d s) := by
  unfold memberUnreachable
  with_reducible repeat' (first
    | assumption | apply recompute_keeps | apply modFab_keeps | exact sub_of (by assumption) (by decide) | split)

theorem sendMarker_keeps {W : Nat} {q0 : State} (k : Nat) (s : State) (hk : Keeps W q0 s)
    (hW : Sub 0x20010000 W := by first | assumption | exact sub_of (by assumption) (by decide)) :
    Keeps W q0 (sendMarker k s) := by
  unfold sendMarker
  repeat' (first
    | with_reducible assumption | exact sub_of (by assumption) (by decide) | with_reducible apply freeNext_keeps
    | with_reducible apply modPort_keeps | with_reducible refine foldl_keeps _ _ _ ?_ ?_
    | with_reducible refine foldl_fst_keeps _ _ _ ?_ ?_ | intro _ _ _ | intro _
    | with_reducible refine keeps_ite _ _ _ ?_ ?_ | split | with_reducible refine keeps_fst ?_ (by assumption)
    | with_reducible refine keeps_fst2 ?_ (by assumption) | simp only [])

theorem beatMarker_keeps {W : Nat} {q0 : State} (k tRx : Nat) (m : Marker) (s : State) (hk : Keeps W q0 s)
    (hW : Sub 0x10005 W := by first | assumption | exact sub_of (by assumption) (by decide)) :
    Keeps W q0 (beatMarker k tRx m s) := by
  unfold beatMarker
  repeat' (first
    | with_reducible assumption | exact sub_of (by assumption) (by decide) | with_reducible apply wr_keeps
    | with_reducible apply modPort_keeps | with_reducible refine foldl_keeps _ _ _ ?_ ?_
    | with_reducible refine foldl_fst_keeps _ _ _ ?_ ?_ | intro _ _ _ | intro _
    | with_reducible refine keeps_ite _ _ _ ?_ ?_ | split | with_reducible refine keeps_fst ?_ (by assumption)
    | with_reducible refine keeps_fst2 ?_ (by assumption) | simp only []
    | with_reducible refine keeps_lit (by assumption) ?_)

theorem fabricBeat_keeps {W : Nat} {q0 : State} (s : State) (hk : Keeps W q0 s)
    (hW : Sub 0x20010000 W := by first | assumption | exact sub_of (by assumption) (by decide)) :
    Keeps W q0 (fabricBeat s) := by
  unfold fabricBeat
  repeat' (first
    | with_reducible assumption | exact sub_of (by assumption) (by decide) | with_reducible apply setFab_keeps
    | with_reducible apply modPort_keeps | with_reducible apply pumpWaiting_keeps | with_reducible apply modFab_keeps
    | with_reducible apply sendHello_keeps | with_reducible apply sendMarker_keeps
    | with_reducible refine foldl_keeps _ _ _ ?_ ?_ | with_reducible refine foldl_fst_keeps _ _ _ ?_ ?_ | intro _ _ _
    | intro _ | with_reducible refine keeps_ite _ _ _ ?_ ?_ | split
    | with_reducible refine keeps_fst ?_ (by assumption) | with_reducible refine keeps_fst2 ?_ (by assumption)
    | simp only [])

theorem answerTrk_keeps {W : Nat} {q0 : State} (p : Pkt) (kind op data : Nat) (s : State) (hk : Keeps W q0 s)
    (hW : Sub 0x20010400 W := by first | assumption | exact sub_of (by assumption) (by decide)) :
    Keeps W q0 (answerTrk p kind op data s) := by
  unfold answerTrk
  repeat' (first
    | with_reducible assumption | exact sub_of (by assumption) (by decide)
    | with_reducible exact twf_tset _ _ _ _ (by assumption)
    | with_reducible refine keeps_chan (W := W) ?_ _ (by assumption) | with_reducible exact twf_nil _
    | with_reducible refine keeps_ok (W := W) ?_ (by assumption) | with_reducible apply dropReads_keeps
    | with_reducible apply finishTrk_keeps | with_reducible refine foldl_keeps _ _ _ ?_ ?_
    | with_reducible refine foldl_fst_keeps _ _ _ ?_ ?_ | intro _ _ _ | intro _
    | with_reducible refine keeps_ite _ _ _ ?_ ?_ | split | with_reducible refine keeps_fst ?_ (by assumption)
    | with_reducible refine keeps_fst2 ?_ (by assumption) | simp only [])

theorem answerLine_keeps {W : Nat} {q0 : State} (p : Pkt) (v : Seen) (f : Nat → Nat) (s : State) (hk : Keeps W q0 s)
    (hW : Sub 0x20010400 W := by first | assumption | exact sub_of (by assumption) (by decide)) :
    Keeps W q0 (answerLine p v f s) := by
  unfold answerLine
  repeat' (first
    | with_reducible assumption | exact sub_of (by assumption) (by decide)
    | with_reducible exact twf_tset _ _ _ _ (by assumption)
    | with_reducible refine keeps_chan (W := W) ?_ _ (by assumption) | with_reducible exact twf_nil _
    | with_reducible refine keeps_ok (W := W) ?_ (by assumption) | with_reducible apply answerTrk_keeps
    | with_reducible refine foldl_keeps _ _ _ ?_ ?_ | with_reducible refine foldl_fst_keeps _ _ _ ?_ ?_ | intro _ _ _
    | intro _ | with_reducible refine keeps_ite _ _ _ ?_ ?_ | split
    | with_reducible refine keeps_fst ?_ (by assumption) | with_reducible refine keeps_fst2 ?_ (by assumption)
    | simp only [])

theorem askPort_keeps {W : Nat} {q0 : State} (p : Pkt) (line : Nat) (r : State × Seen) (hk : Keeps W q0 r.1)
    (hW : Sub 0x2001C000 W := by first | assumption | exact sub_of (by assumption) (by decide)) :
    Keeps W q0 (askPort p line r).1 := by
  unfold askPort
  repeat' (first
    | with_reducible assumption | exact sub_of (by assumption) (by decide) | with_reducible apply sendOut_keeps
    | with_reducible refine foldl_keeps _ _ _ ?_ ?_ | with_reducible refine foldl_fst_keeps _ _ _ ?_ ?_ | intro _ _ _
    | intro _ | with_reducible refine keeps_ite _ _ _ ?_ ?_ | split
    | with_reducible refine keeps_fst ?_ (by assumption) | with_reducible refine keeps_fst2 ?_ (by assumption)
    | simp only [])

theorem trkLine_keeps {W : Nat} {q0 : State} (p : Pkt) (line : Nat) (s : State) (hk : Keeps W q0 s)
    (hW : Sub 0x200BFD19 W := by first | assumption | exact sub_of (by assumption) (by decide)) :
    Keeps W q0 (trkLine p line s).1 := by
  unfold trkLine
  repeat' (first
    | with_reducible assumption | exact sub_of (by assumption) (by decide)
    | with_reducible exact twf_tset _ _ _ _ (by assumption)
    | with_reducible refine keeps_chan (W := W) ?_ _ (by assumption) | with_reducible exact twf_nil _
    | with_reducible refine keeps_ok (W := W) ?_ (by assumption) | with_reducible apply currentLine_keeps
    | with_reducible apply askPort_keeps | with_reducible refine foldl_keeps _ _ _ ?_ ?_
    | with_reducible refine foldl_fst_keeps _ _ _ ?_ ?_ | intro _ _ _ | intro _
    | with_reducible refine keeps_ite _ _ _ ?_ ?_ | split | with_reducible refine keeps_fst ?_ (by assumption)
    | with_reducible refine keeps_fst2 ?_ (by assumption) | simp only [])

theorem homeLine_keeps {W : Nat} {q0 : State} (p : Pkt) (n line : Nat) (excl : Bool) (s : State) (hk : Keeps W q0 s)
    (hW : Sub 0x200BFD19 W := by first | assumption | exact sub_of (by assumption) (by decide)) :
    Keeps W q0 (homeLine p n line excl s).1 := by
  have h := lookup_keeps n line p.tag 100000 excl 0 s hk (sub_of hW (by decide))
  unfold homeLine
  generalize lookup n line p.tag 100000 excl 0 s = x at h
  rcases x with ⟨s1, _ | y⟩
  · exact trkLine_keeps _ _ _ h (sub_of hW (by decide))
  · exact h

theorem performShared_keeps {W : Nat} {q0 : State} (p : Pkt) (n line : Nat) (s : State) (hk : Keeps W q0 s)
    (hW : Sub 0x200BFD19 W := by first | assumption | exact sub_of (by assumption) (by decide)) :
    Keeps W q0 (performShared p n line s) := by
  have h := homeLine_keeps p n line false s hk (sub_of hW (by decide))
  unfold performShared
  generalize homeLine p n line false s = x at h
  rcases x with ⟨s1, v⟩
  dsimp only at h ⊢
  split
  · exact answerLine_keeps _ _ _ _ (putFabDir_keeps _ _ _ _ h (sub_of hW (by decide))) (sub_of hW (by decide))
  · exact answerLine_keeps _ _ _ _ h (sub_of hW (by decide))

theorem performOwn_keeps {W : Nat} {q0 : State} (p : Pkt) (n line : Nat) (s : State) (hk : Keeps W q0 s)
    (hW : Sub 0x200BFD19 W := by first | assumption | exact sub_of (by assumption) (by decide)) :
    Keeps W q0 (performOwn p n line s) := by
  have h := homeLine_keeps p n line true s hk (sub_of hW (by decide))
  unfold performOwn
  generalize homeLine p n line true s = x at h
  rcases x with ⟨s1, v⟩
  dsimp only at h ⊢
  split
  · refine answerLine_keeps _ _ _ _ (putFabDir_keeps _ _ _ _ (breakResv_keeps _ _ _ (dropArr_keeps _ _ _ ?_
      (sub_of hW (by decide))) (sub_of hW (by decide))) (sub_of hW (by decide))) (sub_of hW (by decide))
    split
    · exact writeBack_keeps _ _ _ _ _ _ h (sub_of hW (by decide))
    · exact h
  · exact answerLine_keeps _ _ _ _ h (sub_of hW (by decide))

theorem performNc_keeps {W : Nat} {q0 : State} (p : Pkt) (line : Nat) (s : State) (hk : Keeps W q0 s)
    (hW : Sub 0x200BFD19 W := by first | assumption | exact sub_of (by assumption) (by decide)) :
    Keeps W q0 (performNc p line s) := by
  unfold performNc
  repeat' (first
    | with_reducible assumption | exact sub_of (by assumption) (by decide)
    | with_reducible exact twf_tset _ _ _ _ (by assumption)
    | with_reducible refine keeps_chan (W := W) ?_ _ (by assumption) | with_reducible exact twf_nil _
    | with_reducible refine keeps_ok (W := W) ?_ (by assumption) | with_reducible apply writeAtHome_keeps
    | with_reducible apply answerTrk_keeps | with_reducible apply trkLine_keeps
    | with_reducible refine foldl_keeps _ _ _ ?_ ?_ | with_reducible refine foldl_fst_keeps _ _ _ ?_ ?_ | intro _ _ _
    | intro _ | with_reducible refine keeps_ite _ _ _ ?_ ?_ | split
    | with_reducible refine keeps_fst ?_ (by assumption) | with_reducible refine keeps_fst2 ?_ (by assumption)
    | simp only [])

theorem takeResv_keeps {W : Nat} {q0 : State} (src line : Nat) (s : State) (hk : Keeps W q0 s)
    (hW : Sub 0x10000 W := by first | assumption | exact sub_of (by assumption) (by decide)) :
    Keeps W q0 (takeResv src line s) := by
  unfold takeResv
  repeat' (first
    | with_reducible assumption | exact sub_of (by assumption) (by decide) | with_reducible apply modFab_keeps
    | with_reducible refine foldl_keeps _ _ _ ?_ ?_ | with_reducible refine foldl_fst_keeps _ _ _ ?_ ?_ | intro _ _ _
    | intro _ | with_reducible refine keeps_ite _ _ _ ?_ ?_ | split
    | with_reducible refine keeps_fst ?_ (by assumption) | with_reducible refine keeps_fst2 ?_ (by assumption)
    | simp only [])

theorem performAtomic_keeps {W : Nat} {q0 : State} (p : Pkt) (line : Nat) (s : State) (hk : Keeps W q0 s)
    (hW : Sub 0x200BFD19 W := by first | assumption | exact sub_of (by assumption) (by decide)) :
    Keeps W q0 (performAtomic p line s) := by
  unfold performAtomic
  repeat' (first
    | with_reducible assumption | exact sub_of (by assumption) (by decide)
    | with_reducible exact twf_tset _ _ _ _ (by assumption)
    | with_reducible refine keeps_chan (W := W) ?_ _ (by assumption) | with_reducible exact twf_nil _
    | with_reducible refine keeps_ok (W := W) ?_ (by assumption) | with_reducible apply writeAtHome_keeps
    | with_reducible apply answerLine_keeps | with_reducible apply trkLine_keeps | with_reducible apply takeResv_keeps
    | with_reducible refine foldl_keeps _ _ _ ?_ ?_ | with_reducible refine foldl_fst_keeps _ _ _ ?_ ?_ | intro _ _ _
    | intro _ | with_reducible refine keeps_ite _ _ _ ?_ ?_ | split
    | with_reducible refine keeps_fst ?_ (by assumption) | with_reducible refine keeps_fst2 ?_ (by assumption)
    | simp only [])

theorem performEvict_keeps {W : Nat} {q0 : State} (p : Pkt) (n line : Nat) (s : State) (hk : Keeps W q0 s)
    (hW : Sub 0x20010500 W := by first | assumption | exact sub_of (by assumption) (by decide)) :
    Keeps W q0 (performEvict p n line s) := by
  unfold performEvict
  repeat' (first
    | with_reducible assumption | exact sub_of (by assumption) (by decide)
    | with_reducible exact twf_tset _ _ _ _ (by assumption)
    | with_reducible refine keeps_chan (W := W) ?_ _ (by assumption) | with_reducible exact twf_nil _
    | with_reducible refine keeps_ok (W := W) ?_ (by assumption) | with_reducible apply putFabDir_keeps
    | with_reducible apply answerTrk_keeps | with_reducible refine foldl_keeps _ _ _ ?_ ?_
    | with_reducible refine foldl_fst_keeps _ _ _ ?_ ?_ | intro _ _ _ | intro _
    | with_reducible refine keeps_ite _ _ _ ?_ ?_ | split | with_reducible refine keeps_fst ?_ (by assumption)
    | with_reducible refine keeps_fst2 ?_ (by assumption) | simp only [])

theorem performMaint_keeps {W : Nat} {q0 : State} (p : Pkt) (n line : Nat) (s : State) (hk : Keeps W q0 s)
    (hW : Sub 0x200BFF19 W := by first | assumption | exact sub_of (by assumption) (by decide)) :
    Keeps W q0 (performMaint p n line s) := by
  unfold performMaint
  repeat' (first
    | with_reducible assumption | exact sub_of (by assumption) (by decide)
    | with_reducible exact twf_tset _ _ _ _ (by assumption)
    | with_reducible refine keeps_chan (W := W) ?_ _ (by assumption) | with_reducible exact twf_nil _
    | with_reducible refine keeps_ok (W := W) ?_ (by assumption) | with_reducible apply cleanLine_keeps
    | with_reducible apply discardLine_keeps | with_reducible apply flushLine_keeps
    | with_reducible apply writeAtHome_keeps | with_reducible apply answerTrk_keeps
    | with_reducible refine foldl_keeps _ _ _ ?_ ?_ | with_reducible refine foldl_fst_keeps _ _ _ ?_ ?_ | intro _ _ _
    | intro _ | with_reducible refine keeps_ite _ _ _ ?_ ?_ | split
    | with_reducible refine keeps_fst ?_ (by assumption) | with_reducible refine keeps_fst2 ?_ (by assumption)
    | simp only [])

theorem performReq_keeps {W : Nat} {q0 : State} (p : Pkt) (s : State) (hk : Keeps W q0 s)
    (hW : Sub 0x200BFF39 W := by first | assumption | exact sub_of (by assumption) (by decide)) :
    Keeps W q0 (performReq p s) := by
  unfold performReq
  repeat' (first
    | with_reducible assumption | exact sub_of (by assumption) (by decide)
    | with_reducible exact twf_tset _ _ _ _ (by assumption)
    | with_reducible refine keeps_chan (W := W) ?_ _ (by assumption) | with_reducible exact twf_nil _
    | with_reducible refine keeps_ok (W := W) ?_ (by assumption) | with_reducible apply fabRoom_keeps
    | with_reducible apply writeBack_keeps | with_reducible apply answerTrk_keeps
    | with_reducible apply answerLine_keeps | with_reducible apply trkLine_keeps
    | with_reducible apply performShared_keeps | with_reducible apply performOwn_keeps
    | with_reducible apply performNc_keeps | with_reducible apply performAtomic_keeps
    | with_reducible apply performEvict_keeps | with_reducible apply performMaint_keeps
    | with_reducible refine foldl_keeps _ _ _ ?_ ?_ | with_reducible refine foldl_fst_keeps _ _ _ ?_ ?_ | intro _ _ _
    | intro _ | with_reducible refine keeps_ite _ _ _ ?_ ?_ | split
    | with_reducible refine keeps_fst ?_ (by assumption) | with_reducible refine keeps_fst2 ?_ (by assumption)
    | simp only [])

theorem serveIo_keeps {W : Nat} {q0 : State} (g : Nat) (p : Pkt) (s : State) (w : IoAt) (hk : Keeps W q0 s)
    (hW : Sub 0x200BFD39 W := by first | assumption | exact sub_of (by assumption) (by decide)) :
    Keeps W q0 (serveIo g p s w) := by
  cases w <;> unfold serveIo <;> try dsimp only
  all_goals try unfold serveIo.toPort
  all_goals repeat' (first
    | with_reducible assumption | exact sub_of (by assumption) (by decide) | with_reducible apply freeNext_keeps
    | with_reducible apply finishTrk_keeps
    | with_reducible apply sendOut_keeps
    | with_reducible apply fixedWrite_keeps
    | with_reducible apply signalWrite_keeps
    | intro _ _ | with_reducible refine keeps_ite _ _ _ ?_ ?_ | split | with_reducible refine keeps_fst ?_ (by assumption))

theorem serveLine_keeps {W : Nat} {q0 : State} (p : Pkt) (s : State) (hk : Keeps W q0 s)
    (hW : Sub 0x200BFF39 W := by first | assumption | exact sub_of (by assumption) (by decide)) :
    Keeps W q0 (serveLine p s) := by
  unfold serveLine
  repeat' (first
    | with_reducible assumption | exact sub_of (by assumption) (by decide)
    | with_reducible exact twf_tset _ _ _ _ (by assumption)
    | with_reducible refine keeps_chan (W := W) ?_ _ (by assumption) | with_reducible exact twf_nil _
    | with_reducible refine keeps_ok (W := W) ?_ (by assumption) | with_reducible apply clearWay_keeps
    | with_reducible apply countWait_keeps | with_reducible apply performReq_keeps
    | with_reducible refine foldl_keeps _ _ _ ?_ ?_ | with_reducible refine foldl_fst_keeps _ _ _ ?_ ?_ | intro _ _ _
    | intro _ | with_reducible refine keeps_ite _ _ _ ?_ ?_ | split
    | with_reducible refine keeps_fst ?_ (by assumption) | with_reducible refine keeps_fst2 ?_ (by assumption)
    | simp only [])

theorem serveAt_keeps {W : Nat} {q0 : State} (p : Pkt) (s : State) (w : Region) (hk : Keeps W q0 s)
    (hW : Sub 0x200BFF39 W := by first | assumption | exact sub_of (by assumption) (by decide)) :
    Keeps W q0 (serveAt p s w) := by
  cases w <;> unfold serveAt <;> try dsimp only
  all_goals repeat' (first
    | with_reducible assumption | exact sub_of (by assumption) (by decide) | with_reducible apply refuseWindow_keeps
    | with_reducible apply finishTrk_keeps
    | with_reducible apply serveIo_keeps
    | with_reducible apply serveLine_keeps
    | intro _ _ | with_reducible refine keeps_ite _ _ _ ?_ ?_ | split | with_reducible refine keeps_fst ?_ (by assumption))

theorem serveTrk_keeps {W : Nat} {q0 : State} (p : Pkt) (s : State) (hk : Keeps W q0 s) (hW : Sub 0x200BFF39 W := by
    first | assumption | exact sub_of (by assumption) (by decide)) : Keeps W q0 (serveTrk p s) := by
  unfold serveTrk; exact serveAt_keeps _ _ _ hk

theorem refusePkt_keeps {W : Nat} {q0 : State} (src pa tag : Nat) (s : State) (hk : Keeps W q0 s)
    (hW : Sub 0x82801 W := by first | assumption | exact sub_of (by assumption) (by decide)) :
    Keeps W q0 (refusePkt src pa tag s) := by
  unfold refusePkt
  repeat' (first
    | with_reducible assumption | exact sub_of (by assumption) (by decide) | with_reducible apply bump_keeps
    | with_reducible apply refuseGranule_keeps | with_reducible refine foldl_keeps _ _ _ ?_ ?_
    | with_reducible refine foldl_fst_keeps _ _ _ ?_ ?_ | intro _ _ _ | intro _
    | with_reducible refine keeps_ite _ _ _ ?_ ?_ | split | with_reducible refine keeps_fst ?_ (by assumption)
    | with_reducible refine keeps_fst2 ?_ (by assumption) | simp only [])

theorem refuseAns_keeps {W : Nat} {q0 : State} (src pa tag : Nat) (s : State) (hk : Keeps W q0 s)
    (hW : Sub 0x20092801 W := by first | assumption | exact sub_of (by assumption) (by decide)) :
    Keeps W q0 (refuseAns src pa tag s) := by
  unfold refuseAns
  repeat' (first
    | with_reducible assumption | exact sub_of (by assumption) (by decide) | with_reducible apply sendPkt_keeps
    | with_reducible apply refusePkt_keeps | with_reducible refine foldl_keeps _ _ _ ?_ ?_
    | with_reducible refine foldl_fst_keeps _ _ _ ?_ ?_ | intro _ _ _ | intro _
    | with_reducible refine keeps_ite _ _ _ ?_ ?_ | split | with_reducible refine keeps_fst ?_ (by assumption)
    | with_reducible refine keeps_fst2 ?_ (by assumption) | simp only [])

theorem refuseServe_keeps {W : Nat} {q0 : State} (p : Pkt) (s : State) (hk : Keeps W q0 s)
    (hW : Sub 0x82801 W := by first | assumption | exact sub_of (by assumption) (by decide)) :
    Keeps W q0 (refuseServe p s) := by
  unfold refuseServe
  repeat' (first
    | with_reducible assumption | exact sub_of (by assumption) (by decide) | with_reducible apply bump_keeps
    | with_reducible apply refuseGranule_keeps | with_reducible refine foldl_keeps _ _ _ ?_ ?_
    | with_reducible refine foldl_fst_keeps _ _ _ ?_ ?_ | intro _ _ _ | intro _
    | with_reducible refine keeps_ite _ _ _ ?_ ?_ | split | with_reducible refine keeps_fst ?_ (by assumption)
    | with_reducible refine keeps_fst2 ?_ (by assumption) | simp only [])

theorem fabRequest_keeps {W : Nat} {q0 : State} (p : Pkt) (s : State) (hk : Keeps W q0 s)
    (hW : Sub 0x200BFF39 W := by first | assumption | exact sub_of (by assumption) (by decide)) :
    Keeps W q0 (fabRequest p s) := by
  unfold fabRequest
  repeat' (first
    | with_reducible assumption | exact sub_of (by assumption) (by decide)
    | with_reducible exact twf_tset _ _ _ _ (by assumption)
    | with_reducible refine keeps_chan (W := W) ?_ _ (by assumption) | with_reducible exact twf_nil _
    | with_reducible refine keeps_ok (W := W) ?_ (by assumption) | with_reducible apply sendPkt_keeps
    | with_reducible apply finishTrk_keeps | with_reducible apply modFab_keeps | with_reducible apply serveTrk_keeps
    | with_reducible apply refusePkt_keeps | with_reducible apply refuseServe_keeps
    | with_reducible refine foldl_keeps _ _ _ ?_ ?_ | with_reducible refine foldl_fst_keeps _ _ _ ?_ ?_ | intro _ _ _
    | intro _ | with_reducible refine keeps_ite _ _ _ ?_ ?_ | split
    | with_reducible refine keeps_fst ?_ (by assumption) | with_reducible refine keeps_fst2 ?_ (by assumption)
    | simp only [])

theorem pumpTrks_keeps {W : Nat} {q0 : State} (f : Trk → Bool) (s : State) (hk : Keeps W q0 s)
    (hW : Sub 0x200BFF39 W := by first | assumption | exact sub_of (by assumption) (by decide)) :
    Keeps W q0 (pumpTrks f s) := by
  unfold pumpTrks
  repeat' (first
    | with_reducible assumption | exact sub_of (by assumption) (by decide)
    | with_reducible exact twf_tset _ _ _ _ (by assumption)
    | with_reducible refine keeps_chan (W := W) ?_ _ (by assumption) | with_reducible exact twf_nil _
    | with_reducible refine keeps_ok (W := W) ?_ (by assumption) | with_reducible apply serveTrk_keeps
    | with_reducible refine foldl_keeps _ _ _ ?_ ?_ | with_reducible refine foldl_fst_keeps _ _ _ ?_ ?_ | intro _ _ _
    | intro _ | with_reducible refine keeps_ite _ _ _ ?_ ?_ | split
    | with_reducible refine keeps_fst ?_ (by assumption) | with_reducible refine keeps_fst2 ?_ (by assumption)
    | simp only [])

theorem pumpLine_keeps {W : Nat} {q0 : State} (line : Nat) (s : State) (hk : Keeps W q0 s)
    (hW : Sub 0x200BFF39 W := by first | assumption | exact sub_of (by assumption) (by decide)) :
    Keeps W q0 (pumpLine line s) := by
  unfold pumpLine
  repeat' (first
    | with_reducible assumption | exact sub_of (by assumption) (by decide)
    | with_reducible exact twf_tset _ _ _ _ (by assumption)
    | with_reducible refine keeps_chan (W := W) ?_ _ (by assumption) | with_reducible exact twf_nil _
    | with_reducible refine keeps_ok (W := W) ?_ (by assumption) | with_reducible apply serveReady_keeps
    | with_reducible apply pumpTrks_keeps | with_reducible refine foldl_keeps _ _ _ ?_ ?_
    | with_reducible refine foldl_fst_keeps _ _ _ ?_ ?_ | intro _ _ _ | intro _
    | with_reducible refine keeps_ite _ _ _ ?_ ?_ | split | with_reducible refine keeps_fst ?_ (by assumption)
    | with_reducible refine keeps_fst2 ?_ (by assumption) | simp only [])

theorem snoopIn_keeps {W : Nat} {q0 : State} (p : Pkt) (inv : Bool) (s : State) (hk : Keeps W q0 s)
    (hW : Sub 0x200BFF39 W := by first | assumption | exact sub_of (by assumption) (by decide)) :
    Keeps W q0 (snoopIn p inv s) := by
  unfold snoopIn
  extract_lets line n none'
  split
  · exact sendPkt_keeps _ _ (refusePkt_keeps _ _ _ _ hk (sub_of hW (by decide))) (sub_of hW (by decide))
  split
  · exact sendPkt_keeps _ _ hk (sub_of hW (by decide))
  split
  · exact snoopTrips_keeps _ _ _ _ hk (sub_of hW (by decide))
  rename_i s' d r s0 a b q now s1 _ _ _
  have h : Keeps W q0 s' := readHeld_keeps n line s hk (sub_of hW (by decide))
  have h0 : Keeps W q0 s0 := setSlice_keeps _ _ _ h (sub_of hW (by decide))
  clear_value s' d
  have ha : Keeps W q0 a := by
    refine foldl_keeps _ _ _ h0 fun b c hb => ?_
    split
    · exact putL2_keeps _ _ _ _ hb (sub_of hW (by decide))
    · exact hb
  have hb : Keeps W q0 b := by
    clear_value a
    simp only [b]
    split
    · exact putDir_keeps _ _ _ _ ha (sub_of hW (by decide))
    · exact ha
  have h1 : Keeps W q0 s1 := by
    clear_value s0 a b
    simp only [s1]
    split
    · exact discardLine_keeps _ _ _ h0 (sub_of hW (by decide))
    · exact putSlice_keeps _ _ _ hb (sub_of hW (by decide))
  clear_value s1
  rcases d with _ | ⟨v, px⟩
  · exact sendPkt_keeps _ _ h1 (sub_of hW (by decide))
  · exact sendPkt_keeps _ _ h1 (sub_of hW (by decide))

theorem snoopAnswer_keeps {W : Nat} {q0 : State} (dev line : Nat) (d : Option (Nat × Bool)) (s : State) (hk : Keeps
    W q0 s)
    (hW : Sub 0x200BFF39 W := by first | assumption | exact sub_of (by assumption) (by decide)) :
    Keeps W q0 (snoopAnswer dev line d s) := by
  unfold snoopAnswer
  repeat' (first
    | with_reducible assumption | exact sub_of (by assumption) (by decide)
    | with_reducible exact twf_tset _ _ _ _ (by assumption)
    | with_reducible refine keeps_chan (W := W) ?_ _ (by assumption) | with_reducible exact twf_nil _
    | with_reducible refine keeps_ok (W := W) ?_ (by assumption) | with_reducible apply putFabDir_keeps
    | with_reducible apply writeBack_keeps | with_reducible apply dropArr_keeps | with_reducible apply modFab_keeps
    | with_reducible apply refuseAns_keeps | with_reducible apply pumpLine_keeps
    | with_reducible refine foldl_keeps _ _ _ ?_ ?_ | with_reducible refine foldl_fst_keeps _ _ _ ?_ ?_ | intro _ _ _
    | intro _ | with_reducible refine keeps_ite _ _ _ ?_ ?_ | split
    | with_reducible refine keeps_fst ?_ (by assumption) | with_reducible refine keeps_fst2 ?_ (by assumption)
    | simp only [])

theorem snoopResend_keeps {W : Nat} {q0 : State} (dev line : Nat) (s : State) (hk : Keeps W q0 s) (hW : Sub
    0x20010000 W) : Keeps W q0 (snoopResend dev line s) := by
  unfold snoopResend
  with_reducible repeat' (first
    | assumption | apply sendPkt_keeps | apply modFab_keeps | exact sub_of (by assumption) (by decide) | split)

theorem sendAck_keeps {W : Nat} {q0 : State} (src xid : Nat) (s : State) (hk : Keeps W q0 s) (hW : Sub 0x20010000 W)
    : Keeps W q0 (sendAck src xid s) := by
  unfold sendAck
  with_reducible repeat' (first | assumption | apply sendPkt_keeps)

theorem answered_keeps {W : Nat} {q0 : State} (src xid : Nat) (o : Out) (a : Ans) (s : State) (hk : Keeps W q0 s)
    (hW : Sub 0x300FFD39 W := by first | assumption | exact sub_of (by assumption) (by decide)) :
    Keeps W q0 (answered src xid o a s) := by
  unfold answered
  repeat' (first
    | with_reducible assumption | exact sub_of (by assumption) (by decide)
    | with_reducible exact twf_tset _ _ _ _ (by assumption)
    | with_reducible refine keeps_chan (W := W) ?_ _ (by assumption) | with_reducible exact twf_nil _
    | with_reducible refine keeps_ok (W := W) ?_ (by assumption) | with_reducible apply takeAnswer_keeps
    | with_reducible apply refuseAns_keeps | with_reducible apply sendAck_keeps
    | with_reducible refine foldl_keeps _ _ _ ?_ ?_ | with_reducible refine foldl_fst_keeps _ _ _ ?_ ?_ | intro _ _ _
    | intro _ | with_reducible refine keeps_ite _ _ _ ?_ ?_ | split
    | with_reducible refine keeps_fst ?_ (by assumption) | with_reducible refine keeps_fst2 ?_ (by assumption)
    | simp only [])

theorem dataIn_keeps {W : Nat} {q0 : State} (src xid : Nat) (a : Ans) (s : State) (hk : Keeps W q0 s)
    (hW : Sub 0x300FFD39 W := by first | assumption | exact sub_of (by assumption) (by decide)) :
    Keeps W q0 (dataIn src xid a s) := by
  unfold dataIn
  repeat' (first
    | with_reducible assumption | exact sub_of (by assumption) (by decide)
    | with_reducible exact twf_tset _ _ _ _ (by assumption)
    | with_reducible refine keeps_chan (W := W) ?_ _ (by assumption) | with_reducible exact twf_nil _
    | with_reducible refine keeps_ok (W := W) ?_ (by assumption) | with_reducible apply sendAck_keeps
    | with_reducible apply answered_keeps | with_reducible refine foldl_keeps _ _ _ ?_ ?_
    | with_reducible refine foldl_fst_keeps _ _ _ ?_ ?_ | intro _ _ _ | intro _
    | with_reducible refine keeps_ite _ _ _ ?_ ?_ | split | with_reducible refine keeps_fst ?_ (by assumption)
    | with_reducible refine keeps_fst2 ?_ (by assumption) | simp only [])

theorem ackIn_keeps {W : Nat} {q0 : State} (src xid : Nat) (completion : Bool) (s : State) (hk : Keeps W q0 s)
    (hW : Sub 0x300FFF39 W := by first | assumption | exact sub_of (by assumption) (by decide)) :
    Keeps W q0 (ackIn src xid completion s) := by
  unfold ackIn
  repeat' (first
    | with_reducible assumption | exact sub_of (by assumption) (by decide)
    | with_reducible exact twf_tset _ _ _ _ (by assumption)
    | with_reducible refine keeps_chan (W := W) ?_ _ (by assumption) | with_reducible exact twf_nil _
    | with_reducible refine keeps_ok (W := W) ?_ (by assumption) | with_reducible apply modFab_keeps
    | with_reducible apply grantFreed_keeps | with_reducible apply refuseAns_keeps
    | with_reducible apply pumpLine_keeps | with_reducible apply sendAck_keeps | with_reducible apply answered_keeps
    | with_reducible refine foldl_keeps _ _ _ ?_ ?_ | with_reducible refine foldl_fst_keeps _ _ _ ?_ ?_ | intro _ _ _
    | intro _ | with_reducible refine keeps_ite _ _ _ ?_ ?_ | split
    | with_reducible refine keeps_fst ?_ (by assumption) | with_reducible refine keeps_fst2 ?_ (by assumption)
    | simp only [])

theorem retryIn_keeps {W : Nat} {q0 : State} (src xid : Nat) (s : State) (hk : Keeps W q0 s)
    (hW : Sub 0x20096801 W := by first | assumption | exact sub_of (by assumption) (by decide)) :
    Keeps W q0 (retryIn src xid s) := by
  unfold retryIn
  repeat' (first
    | with_reducible assumption | exact sub_of (by assumption) (by decide) | with_reducible apply refuseAns_keeps
    | with_reducible refine foldl_keeps _ _ _ ?_ ?_ | with_reducible refine foldl_fst_keeps _ _ _ ?_ ?_ | intro _ _ _
    | intro _ | with_reducible refine keeps_ite _ _ _ ?_ ?_ | split
    | with_reducible refine keeps_fst ?_ (by assumption) | with_reducible refine keeps_fst2 ?_ (by assumption)
    | simp only [] | with_reducible refine keeps_lit (by assumption) ?_)

theorem grantIn_keeps {W : Nat} {q0 : State} (src xid : Nat) (s : State) (hk : Keeps W q0 s)
    (hW : Sub 0x20096801 W := by first | assumption | exact sub_of (by assumption) (by decide)) :
    Keeps W q0 (grantIn src xid s) := by
  unfold grantIn
  repeat' (first
    | with_reducible assumption | exact sub_of (by assumption) (by decide) | with_reducible apply sendPkt_keeps
    | with_reducible apply refuseAns_keeps | with_reducible refine foldl_keeps _ _ _ ?_ ?_
    | with_reducible refine foldl_fst_keeps _ _ _ ?_ ?_ | intro _ _ _ | intro _
    | with_reducible refine keeps_ite _ _ _ ?_ ?_ | split | with_reducible refine keeps_fst ?_ (by assumption)
    | with_reducible refine keeps_fst2 ?_ (by assumption) | simp only []
    | with_reducible refine keeps_lit (by assumption) ?_)

theorem outError_keeps {W : Nat} {q0 : State} (kind : Nat) (o : Out) (s : State) (hk : Keeps W q0 s)
    (hW : Sub 0x300FFD39 W := by first | assumption | exact sub_of (by assumption) (by decide)) :
    Keeps W q0 (outError kind o s) := by
  unfold outError
  repeat' (first
    | with_reducible assumption | exact sub_of (by assumption) (by decide)
    | with_reducible exact twf_tset _ _ _ _ (by assumption)
    | with_reducible refine keeps_chan (W := W) ?_ _ (by assumption) | with_reducible exact twf_nil _
    | with_reducible refine keeps_ok (W := W) ?_ (by assumption) | with_reducible apply bump_keeps
    | with_reducible apply recVisible_keeps | with_reducible apply takeAnswer_keeps
    | with_reducible refine foldl_keeps _ _ _ ?_ ?_ | with_reducible refine foldl_fst_keeps _ _ _ ?_ ?_ | intro _ _ _
    | intro _ | with_reducible refine keeps_ite _ _ _ ?_ ?_ | split
    | with_reducible refine keeps_fst ?_ (by assumption) | with_reducible refine keeps_fst2 ?_ (by assumption)
    | simp only [])

theorem errIn_keeps {W : Nat} {q0 : State} (src xid : Nat) (s : State) (hk : Keeps W q0 s)
    (hW : Sub 0x300FFD39 W := by first | assumption | exact sub_of (by assumption) (by decide)) :
    Keeps W q0 (errIn src xid s) := by
  unfold errIn
  repeat' (first
    | with_reducible assumption | exact sub_of (by assumption) (by decide)
    | with_reducible exact twf_tset _ _ _ _ (by assumption)
    | with_reducible refine keeps_chan (W := W) ?_ _ (by assumption) | with_reducible exact twf_nil _
    | with_reducible refine keeps_ok (W := W) ?_ (by assumption) | with_reducible apply sendAck_keeps
    | with_reducible apply answered_keeps | with_reducible refine foldl_keeps _ _ _ ?_ ?_
    | with_reducible refine foldl_fst_keeps _ _ _ ?_ ?_ | intro _ _ _ | intro _
    | with_reducible refine keeps_ite _ _ _ ?_ ?_ | split | with_reducible refine keeps_fst ?_ (by assumption)
    | with_reducible refine keeps_fst2 ?_ (by assumption) | simp only [])

theorem requestResend_keeps {W : Nat} {q0 : State} (xid : Nat) (s : State) (hk : Keeps W q0 s) (hW : Sub 0x20014000
    W) : Keeps W q0 (requestResend xid s) := by
  unfold requestResend
  with_reducible repeat' (first
    | assumption | apply sendPkt_keeps | exact sub_of (by assumption) (by decide) | split
    | refine keeps_lit (by assumption) ?_)

theorem requestError_keeps {W : Nat} {q0 : State} (xid : Nat) (s : State) (hk : Keeps W q0 s)
    (hW : Sub 0x300FFD39 W := by first | assumption | exact sub_of (by assumption) (by decide)) :
    Keeps W q0 (requestError xid s) := by
  unfold requestError
  repeat' (first
    | with_reducible assumption | exact sub_of (by assumption) (by decide)
    | with_reducible exact twf_tset _ _ _ _ (by assumption)
    | with_reducible refine keeps_chan (W := W) ?_ _ (by assumption) | with_reducible exact twf_nil _
    | with_reducible refine keeps_ok (W := W) ?_ (by assumption) | with_reducible apply outError_keeps
    | with_reducible refine foldl_keeps _ _ _ ?_ ?_ | with_reducible refine foldl_fst_keeps _ _ _ ?_ ?_ | intro _ _ _
    | intro _ | with_reducible refine keeps_ite _ _ _ ?_ ?_ | split
    | with_reducible refine keeps_fst ?_ (by assumption) | with_reducible refine keeps_fst2 ?_ (by assumption)
    | simp only [])

theorem deliverPkt_keeps {W : Nat} {q0 : State} (p : Pkt) (s : State) (hk : Keeps W q0 s) (hW : Sub 0x300FFF39 W) :
    Keeps W q0 (deliverPkt p s) := by
  unfold deliverPkt
  with_reducible repeat' (first
    | assumption | apply snoopIn_keeps | apply ackIn_keeps | apply retryIn_keeps | apply grantIn_keeps
    | apply errIn_keeps | apply snoopAnswer_keeps | apply dataIn_keeps | apply pageWrite_keeps
    | apply fabRequest_keeps | exact sub_of (by assumption) (by decide) | split)

theorem ackFlits_keeps {W : Nat} {q0 : State} (k upTo : Nat) (s : State) (hk : Keeps W q0 s) (hW : Sub 0x10000 W) :
    Keeps W q0 (ackFlits k upTo s) := by
  unfold ackFlits
  with_reducible repeat' (first | assumption | apply modPort_keeps)

theorem nakIn_keeps {W : Nat} {q0 : State} (k upTo : Nat) (s : State) (hk : Keeps W q0 s)
    (hW : Sub 0x10001 W := by first | assumption | exact sub_of (by assumption) (by decide)) :
    Keeps W q0 (nakIn k upTo s) := by
  unfold nakIn
  repeat' (first
    | with_reducible assumption | exact sub_of (by assumption) (by decide) | with_reducible apply bump_keeps
    | with_reducible apply modPort_keeps | with_reducible apply ackFlits_keeps
    | with_reducible refine foldl_keeps _ _ _ ?_ ?_ | with_reducible refine foldl_fst_keeps _ _ _ ?_ ?_ | intro _ _ _
    | intro _ | with_reducible refine keeps_ite _ _ _ ?_ ?_ | split
    | with_reducible refine keeps_fst ?_ (by assumption) | with_reducible refine keeps_fst2 ?_ (by assumption)
    | simp only [])

theorem asOrdinary_keeps {W : Nat} {q0 : State} (p : Pkt) (s : State) (hk : Keeps W q0 s)
    (hW : Sub 0x300FFF39 W := by first | assumption | exact sub_of (by assumption) (by decide)) :
    Keeps W q0 (asOrdinary p s) := by
  unfold asOrdinary
  repeat' (first
    | with_reducible assumption | exact sub_of (by assumption) (by decide)
    | with_reducible exact twf_tset _ _ _ _ (by assumption)
    | with_reducible refine keeps_chan (W := W) ?_ _ (by assumption) | with_reducible exact twf_nil _
    | with_reducible refine keeps_ok (W := W) ?_ (by assumption) | with_reducible apply routeOne_keeps
    | with_reducible apply deliverPkt_keeps | with_reducible refine foldl_keeps _ _ _ ?_ ?_
    | with_reducible refine foldl_fst_keeps _ _ _ ?_ ?_ | intro _ _ _ | intro _
    | with_reducible refine keeps_ite _ _ _ ?_ ?_ | split | with_reducible refine keeps_fst ?_ (by assumption)
    | with_reducible refine keeps_fst2 ?_ (by assumption) | simp only [])

theorem sealedFlit_keeps {W : Nat} {q0 : State} (k : Nat) (f : Flit) (s : State) (hk : Keeps W q0 s)
    (hW : Sub 0x300FFF39 W := by first | assumption | exact sub_of (by assumption) (by decide)) :
    Keeps W q0 (sealedFlit k f s) := by
  unfold sealedFlit
  repeat' (first
    | with_reducible assumption | exact sub_of (by assumption) (by decide)
    | with_reducible exact twf_tset _ _ _ _ (by assumption)
    | with_reducible refine keeps_chan (W := W) ?_ _ (by assumption) | with_reducible exact twf_nil _
    | with_reducible refine keeps_ok (W := W) ?_ (by assumption) | with_reducible apply sendInShare_keeps
    | with_reducible apply deliverPkt_keeps | with_reducible apply asOrdinary_keeps
    | with_reducible refine foldl_keeps _ _ _ ?_ ?_ | with_reducible refine foldl_fst_keeps _ _ _ ?_ ?_ | intro _ _ _
    | intro _ | with_reducible refine keeps_ite _ _ _ ?_ ?_ | split
    | with_reducible refine keeps_fst ?_ (by assumption) | with_reducible refine keeps_fst2 ?_ (by assumption)
    | simp only [])

theorem sendNak_keeps {W : Nat} {q0 : State} (k : Nat) (s : State) (hk : Keeps W q0 s)
    (hW : Sub 0x10000 W := by first | assumption | exact sub_of (by assumption) (by decide)) :
    Keeps W q0 (sendNak k s) := by
  unfold sendNak
  repeat' (first
    | with_reducible assumption | exact sub_of (by assumption) (by decide) | with_reducible apply modPort_keeps
    | with_reducible apply putFlit_keeps | with_reducible refine foldl_keeps _ _ _ ?_ ?_
    | with_reducible refine foldl_fst_keeps _ _ _ ?_ ?_ | intro _ _ _ | intro _
    | with_reducible refine keeps_ite _ _ _ ?_ ?_ | split | with_reducible refine keeps_fst ?_ (by assumption)
    | with_reducible refine keeps_fst2 ?_ (by assumption) | simp only [])

theorem badFlit_keeps {W : Nat} {q0 : State} (k : Nat) (s : State) (hk : Keeps W q0 s)
    (hW : Sub 0x10000 W := by first | assumption | exact sub_of (by assumption) (by decide)) :
    Keeps W q0 (badFlit k s) := by
  unfold badFlit
  repeat' (first
    | with_reducible assumption | exact sub_of (by assumption) (by decide) | with_reducible apply sendNak_keeps
    | with_reducible refine foldl_keeps _ _ _ ?_ ?_ | with_reducible refine foldl_fst_keeps _ _ _ ?_ ?_ | intro _ _ _
    | intro _ | with_reducible refine keeps_ite _ _ _ ?_ ?_ | split
    | with_reducible refine keeps_fst ?_ (by assumption) | with_reducible refine keeps_fst2 ?_ (by assumption)
    | simp only [])

theorem misplacedFlit_keeps {W : Nat} {q0 : State} (k : Nat) (f : Flit) (s : State) (hk : Keeps W q0 s)
    (hW : Sub 0x10000 W := by first | assumption | exact sub_of (by assumption) (by decide)) :
    Keeps W q0 (misplacedFlit k f s) := by
  unfold misplacedFlit
  repeat' (first
    | with_reducible assumption | exact sub_of (by assumption) (by decide) | with_reducible apply sendNak_keeps
    | with_reducible refine foldl_keeps _ _ _ ?_ ?_ | with_reducible refine foldl_fst_keeps _ _ _ ?_ ?_ | intro _ _ _
    | intro _ | with_reducible refine keeps_ite _ _ _ ?_ ?_ | split
    | with_reducible refine keeps_fst ?_ (by assumption) | with_reducible refine keeps_fst2 ?_ (by assumption)
    | simp only [])

theorem relayIn_keeps {W : Nat} {q0 : State} (k : Nat) (p : Pkt) (m : Msg) (s : State) (hk : Keeps W q0 s)
    (hW : Sub 0x300FFF39 W := by first | assumption | exact sub_of (by assumption) (by decide)) :
    Keeps W q0 (relayIn k p m s) := by
  unfold relayIn
  repeat' (first
    | with_reducible assumption | exact sub_of (by assumption) (by decide)
    | with_reducible exact twf_tset _ _ _ _ (by assumption)
    | with_reducible refine keeps_chan (W := W) ?_ _ (by assumption) | with_reducible exact twf_nil _
    | with_reducible refine keeps_ok (W := W) ?_ (by assumption) | with_reducible apply relayMsg_keeps
    | with_reducible apply modFab_keeps | with_reducible apply deliverPkt_keeps
    | with_reducible refine foldl_keeps _ _ _ ?_ ?_ | with_reducible refine foldl_fst_keeps _ _ _ ?_ ?_ | intro _ _ _
    | intro _ | with_reducible refine keeps_ite _ _ _ ?_ ?_ | split
    | with_reducible refine keeps_fst ?_ (by assumption) | with_reducible refine keeps_fst2 ?_ (by assumption)
    | simp only [])

theorem packetIn_keeps {W : Nat} {q0 : State} (k vc : Nat) (p : Pkt) (s : State) (hk : Keeps W q0 s)
    (hW : Sub 0x300FFF39 W := by first | assumption | exact sub_of (by assumption) (by decide)) :
    Keeps W q0 (packetIn k vc p s) := by
  unfold packetIn
  repeat' (first
    | with_reducible assumption | exact sub_of (by assumption) (by decide)
    | with_reducible exact twf_tset _ _ _ _ (by assumption)
    | with_reducible refine keeps_chan (W := W) ?_ _ (by assumption) | with_reducible exact twf_nil _
    | with_reducible refine keeps_ok (W := W) ?_ (by assumption) | with_reducible apply routeOne_keeps
    | with_reducible apply deliverPkt_keeps | with_reducible apply relayIn_keeps
    | with_reducible refine foldl_keeps _ _ _ ?_ ?_ | with_reducible refine foldl_fst_keeps _ _ _ ?_ ?_ | intro _ _ _
    | intro _ | with_reducible refine keeps_ite _ _ _ ?_ ?_ | split
    | with_reducible refine keeps_fst ?_ (by assumption) | with_reducible refine keeps_fst2 ?_ (by assumption)
    | simp only [])

theorem flitTaken_keeps {W : Nat} {q0 : State} (k : Nat) (f : Flit) (s : State) (hk : Keeps W q0 s)
    (hW : Sub 0x300FFF39 W := by first | assumption | exact sub_of (by assumption) (by decide)) :
    Keeps W q0 (flitTaken k f s) := by
  unfold flitTaken
  repeat' (first
    | with_reducible assumption | exact sub_of (by assumption) (by decide)
    | with_reducible exact twf_tset _ _ _ _ (by assumption)
    | with_reducible refine keeps_chan (W := W) ?_ _ (by assumption) | with_reducible exact twf_nil _
    | with_reducible refine keeps_ok (W := W) ?_ (by assumption) | with_reducible apply modPort_keeps
    | with_reducible apply pumpWaiting_keeps | with_reducible apply ackFlits_keeps | with_reducible apply nakIn_keeps
    | with_reducible apply sealedFlit_keeps | with_reducible apply packetIn_keeps
    | with_reducible refine foldl_keeps _ _ _ ?_ ?_ | with_reducible refine foldl_fst_keeps _ _ _ ?_ ?_ | intro _ _ _
    | intro _ | with_reducible refine keeps_ite _ _ _ ?_ ?_ | split
    | with_reducible refine keeps_fst ?_ (by assumption) | with_reducible refine keeps_fst2 ?_ (by assumption)
    | simp only [])

theorem flitReceived_keeps {W : Nat} {q0 : State} (k : Nat) (corrected uncorrectable tagOk : Bool) (f : Flit) (s :
    State) (hk : Keeps W q0 s)
    (hW : Sub 0x300FFF39 W := by first | assumption | exact sub_of (by assumption) (by decide)) :
    Keeps W q0 (flitReceived k corrected uncorrectable tagOk f s) := by
  unfold flitReceived
  repeat' (first
    | with_reducible assumption | exact sub_of (by assumption) (by decide)
    | with_reducible exact twf_tset _ _ _ _ (by assumption)
    | with_reducible refine keeps_chan (W := W) ?_ _ (by assumption) | with_reducible exact twf_nil _
    | with_reducible refine keeps_ok (W := W) ?_ (by assumption) | with_reducible apply bump_keeps
    | with_reducible apply modPort_keeps | with_reducible apply badFlit_keeps
    | with_reducible apply misplacedFlit_keeps | with_reducible apply flitTaken_keeps
    | with_reducible refine foldl_keeps _ _ _ ?_ ?_ | with_reducible refine foldl_fst_keeps _ _ _ ?_ ?_ | intro _ _ _
    | intro _ | with_reducible refine keeps_ite _ _ _ ?_ ?_ | split
    | with_reducible refine keeps_fst ?_ (by assumption) | with_reducible refine keeps_fst2 ?_ (by assumption)
    | simp only [])

theorem finishShare_keeps {W : Nat} {q0 : State} (q : ShareReq) (o b : Nat) (s : State) (hk : Keeps W q0 s) (hW : Sub
    0x11001 W) : Keeps W q0 (finishShare q o b s) := by
  unfold finishShare
  with_reducible repeat' (first
    | assumption | apply stageDone_keeps | apply modFab_keeps | exact sub_of (by assumption) (by decide))

theorem fabricShare_keeps {W : Nat} {q0 : State} (i : Nat) (c : Bytes) (s : State) (hk : Keeps W q0 s)
    (hW : Sub 0x30011001 W := by first | assumption | exact sub_of (by assumption) (by decide)) :
    Keeps W q0 (fabricShare i c s) := by
  unfold fabricShare
  repeat' (first
    | with_reducible assumption | exact sub_of (by assumption) (by decide) | with_reducible apply addStep_keeps
    | with_reducible apply stageDone_keeps | with_reducible apply sendMsg_keeps | with_reducible apply modFab_keeps
    | with_reducible refine foldl_keeps _ _ _ ?_ ?_ | with_reducible refine foldl_fst_keeps _ _ _ ?_ ?_ | intro _ _ _
    | intro _ | with_reducible refine keeps_ite _ _ _ ?_ ?_ | split
    | with_reducible refine keeps_fst ?_ (by assumption) | with_reducible refine keeps_fst2 ?_ (by assumption)
    | simp only [])

theorem placeFor_keeps {W : Nat} {q0 : State} (q : ShareReq) (s : State) (hk : Keeps W q0 s)
    (hW : Sub 0x20010001 W := by first | assumption | exact sub_of (by assumption) (by decide)) :
    Keeps W q0 (placeFor q s).1 := by
  unfold placeFor
  repeat' (first
    | with_reducible assumption | exact sub_of (by assumption) (by decide) | with_reducible apply modFab_keeps
    | with_reducible apply sendSegs_keeps | with_reducible refine foldl_keeps _ _ _ ?_ ?_
    | with_reducible refine foldl_fst_keeps _ _ _ ?_ ?_ | intro _ _ _ | intro _
    | with_reducible refine keeps_ite _ _ _ ?_ ?_ | split | with_reducible refine keeps_fst ?_ (by assumption)
    | with_reducible refine keeps_fst2 ?_ (by assumption) | simp only [])

theorem sealQuery_keeps {W : Nat} {q0 : State} (dev t : Nat) (reply isSealed' : Bool) (s : State) (hk : Keeps W q0
    s)
    (hW : Sub 0x20011001 W := by first | assumption | exact sub_of (by assumption) (by decide)) :
    Keeps W q0 (sealQuery dev t reply isSealed' s) := by
  unfold sealQuery
  repeat' (first
    | with_reducible assumption | exact sub_of (by assumption) (by decide) | with_reducible apply sendMsg_keeps
    | with_reducible apply modFab_keeps | with_reducible apply askPlace_keeps | with_reducible apply finishShare_keeps
    | with_reducible apply placeFor_keeps | with_reducible refine foldl_keeps _ _ _ ?_ ?_
    | with_reducible refine foldl_fst_keeps _ _ _ ?_ ?_ | intro _ _ _ | intro _
    | with_reducible refine keeps_ite _ _ _ ?_ ?_ | split | with_reducible refine keeps_fst ?_ (by assumption)
    | with_reducible refine keeps_fst2 ?_ (by assumption) | simp only [])

theorem placeHere_keeps {W : Nat} {q0 : State} (cap : Nat) (g : ShareSeg) (s : State) (hk : Keeps W q0 s)
    (hW : Sub 0x20010001 W := by first | assumption | exact sub_of (by assumption) (by decide)) :
    Keeps W q0 (placeHere cap g s) := by
  unfold placeHere
  repeat' (first
    | with_reducible assumption | exact sub_of (by assumption) (by decide) | with_reducible apply putSeg_keeps
    | with_reducible apply sendMsg_keeps | with_reducible refine foldl_keeps _ _ _ ?_ ?_
    | with_reducible refine foldl_fst_keeps _ _ _ ?_ ?_ | intro _ _ _ | intro _
    | with_reducible refine keeps_ite _ _ _ ?_ ?_ | split | with_reducible refine keeps_fst ?_ (by assumption)
    | with_reducible refine keeps_fst2 ?_ (by assumption) | simp only [])

theorem shareFrom_keeps {W : Nat} {q0 : State} (h : Share) (b : Nat) (s : State) (hk : Keeps W q0 s)
    (hW : Sub 0x8010000 W := by first | assumption | exact sub_of (by assumption) (by decide)) :
    Keeps W q0 (shareFrom h b s) := by
  unfold shareFrom
  repeat' (first
    | with_reducible assumption | exact sub_of (by assumption) (by decide) | with_reducible apply addDue_keeps
    | with_reducible apply modFab_keeps | with_reducible refine foldl_keeps _ _ _ ?_ ?_
    | with_reducible refine foldl_fst_keeps _ _ _ ?_ ?_ | intro _ _ _ | intro _
    | with_reducible refine keeps_ite _ _ _ ?_ ?_ | split | with_reducible refine keeps_fst ?_ (by assumption)
    | with_reducible refine keeps_fst2 ?_ (by assumption) | simp only [])

theorem nameStart_keeps {W : Nat} {q0 : State} (h : Share) (s : State) (hk : Keeps W q0 s)
    (hW : Sub 0x28010000 W := by first | assumption | exact sub_of (by assumption) (by decide)) :
    Keeps W q0 (nameStart h s) := by
  unfold nameStart
  repeat' (first
    | with_reducible assumption | exact sub_of (by assumption) (by decide) | with_reducible apply freeNext_keeps
    | with_reducible apply sendMsg_keeps | with_reducible apply shareFrom_keeps
    | with_reducible refine foldl_keeps _ _ _ ?_ ?_ | with_reducible refine foldl_fst_keeps _ _ _ ?_ ?_ | intro _ _ _
    | intro _ | with_reducible refine keeps_ite _ _ _ ?_ ?_ | split
    | with_reducible refine keeps_fst ?_ (by assumption) | with_reducible refine keeps_fst2 ?_ (by assumption)
    | simp only [])

theorem placeAsked_keeps {W : Nat} {q0 : State} (g : ShareSeg) (s : State) (hk : Keeps W q0 s)
    (hW : Sub 0x20010001 W := by first | assumption | exact sub_of (by assumption) (by decide)) :
    Keeps W q0 (placeAsked g s) := by
  unfold placeAsked
  repeat' (first
    | with_reducible assumption | exact sub_of (by assumption) (by decide) | with_reducible apply sendMsg_keeps
    | with_reducible apply modFab_keeps | with_reducible apply placeFor_keeps
    | with_reducible refine foldl_keeps _ _ _ ?_ ?_ | with_reducible refine foldl_fst_keeps _ _ _ ?_ ?_ | intro _ _ _
    | intro _ | with_reducible refine keeps_ite _ _ _ ?_ ?_ | split
    | with_reducible refine keeps_fst ?_ (by assumption) | with_reducible refine keeps_fst2 ?_ (by assumption)
    | simp only [])

theorem sharePlace_keeps {W : Nat} {q0 : State} (cap : Nat) (g : ShareSeg) (s : State) (hk : Keeps W q0 s)
    (hW : Sub 0x28010001 W := by first | assumption | exact sub_of (by assumption) (by decide)) :
    Keeps W q0 (sharePlace cap g s) := by
  unfold sharePlace
  repeat' (first
    | with_reducible assumption | exact sub_of (by assumption) (by decide) | with_reducible apply dropSegs_keeps
    | with_reducible apply placeHere_keeps | with_reducible apply shareFrom_keeps
    | with_reducible apply placeAsked_keeps | with_reducible refine foldl_keeps _ _ _ ?_ ?_
    | with_reducible refine foldl_fst_keeps _ _ _ ?_ ?_ | intro _ _ _ | intro _
    | with_reducible refine keeps_ite _ _ _ ?_ ?_ | split | with_reducible refine keeps_fst ?_ (by assumption)
    | with_reducible refine keeps_fst2 ?_ (by assumption) | simp only [])

theorem ownPlaced_keeps {W : Nat} {q0 : State} (q : ShareReq) (s : State) (hk : Keeps W q0 s)
    (hW : Sub 0x28011001 W := by first | assumption | exact sub_of (by assumption) (by decide)) :
    Keeps W q0 (ownPlaced q s) := by
  unfold ownPlaced
  repeat' (first
    | with_reducible assumption | exact sub_of (by assumption) (by decide) | with_reducible apply freeLanes_keeps
    | with_reducible apply finishShare_keeps | with_reducible apply nameStart_keeps
    | with_reducible refine foldl_keeps _ _ _ ?_ ?_ | with_reducible refine foldl_fst_keeps _ _ _ ?_ ?_ | intro _ _ _
    | intro _ | with_reducible refine keeps_ite _ _ _ ?_ ?_ | split
    | with_reducible refine keeps_fst ?_ (by assumption) | with_reducible refine keeps_fst2 ?_ (by assumption)
    | simp only [])

theorem otherPlaced_keeps {W : Nat} {q0 : State} (q : ShareReq) (s : State) (hk : Keeps W q0 s)
    (hW : Sub 0x28010001 W := by first | assumption | exact sub_of (by assumption) (by decide)) :
    Keeps W q0 (otherPlaced q s) := by
  unfold otherPlaced
  repeat' (first
    | with_reducible assumption | exact sub_of (by assumption) (by decide) | with_reducible apply sendMsg_keeps
    | with_reducible apply freeLanes_keeps | with_reducible apply modFab_keeps | with_reducible apply nameStart_keeps
    | with_reducible refine foldl_keeps _ _ _ ?_ ?_ | with_reducible refine foldl_fst_keeps _ _ _ ?_ ?_ | intro _ _ _
    | intro _ | with_reducible refine keeps_ite _ _ _ ?_ ?_ | split
    | with_reducible refine keeps_fst ?_ (by assumption) | with_reducible refine keeps_fst2 ?_ (by assumption)
    | simp only [])

theorem shareReleased_keeps {W : Nat} {q0 : State} (dev t peer : Nat) (s : State) (hk : Keeps W q0 s)
    (hW : Sub 0x28010001 W := by first | assumption | exact sub_of (by assumption) (by decide)) :
    Keeps W q0 (shareReleased dev t peer s) := by
  unfold shareReleased
  repeat' (first
    | with_reducible assumption | exact sub_of (by assumption) (by decide) | with_reducible apply addDue_keeps
    | with_reducible apply freeLanes_keeps | with_reducible refine foldl_keeps _ _ _ ?_ ?_
    | with_reducible refine foldl_fst_keeps _ _ _ ?_ ?_ | intro _ _ _ | intro _
    | with_reducible refine keeps_ite _ _ _ ?_ ?_ | split | with_reducible refine keeps_fst ?_ (by assumption)
    | with_reducible refine keeps_fst2 ?_ (by assumption) | simp only [])

theorem shareAckOther_keeps {W : Nat} {q0 : State} (dev t peer outcome : Nat) (s : State) (hk : Keeps W q0 s)
    (hW : Sub 0x28011801 W := by first | assumption | exact sub_of (by assumption) (by decide)) :
    Keeps W q0 (shareAckOther dev t peer outcome s) := by
  unfold shareAckOther
  repeat' (first
    | with_reducible assumption | exact sub_of (by assumption) (by decide) | with_reducible apply modFab_keeps
    | with_reducible apply unplacedHere_keeps | with_reducible apply otherPlaced_keeps
    | with_reducible refine foldl_keeps _ _ _ ?_ ?_ | with_reducible refine foldl_fst_keeps _ _ _ ?_ ?_ | intro _ _ _
    | intro _ | with_reducible refine keeps_ite _ _ _ ?_ ?_ | split
    | with_reducible refine keeps_fst ?_ (by assumption) | with_reducible refine keeps_fst2 ?_ (by assumption)
    | simp only [])

theorem shareAck_keeps {W : Nat} {q0 : State} (dev t peer outcome : Nat) (s : State) (hk : Keeps W q0 s)
    (hW : Sub 0x28011801 W := by first | assumption | exact sub_of (by assumption) (by decide)) :
    Keeps W q0 (shareAck dev t peer outcome s) := by
  unfold shareAck
  repeat' (first
    | with_reducible assumption | exact sub_of (by assumption) (by decide) | with_reducible apply modFab_keeps
    | with_reducible apply ownPlaced_keeps | with_reducible apply shareReleased_keeps
    | with_reducible apply shareAckOther_keeps | with_reducible refine foldl_keeps _ _ _ ?_ ?_
    | with_reducible refine foldl_fst_keeps _ _ _ ?_ ?_ | intro _ _ _ | intro _
    | with_reducible refine keeps_ite _ _ _ ?_ ?_ | split | with_reducible refine keeps_fst ?_ (by assumption)
    | with_reducible refine keeps_fst2 ?_ (by assumption) | simp only [])

theorem shareOn_keeps {W : Nat} {q0 : State} (h : Share) (s : State) (hk : Keeps W q0 s)
    (hW : Sub 0x10000 W := by first | assumption | exact sub_of (by assumption) (by decide)) :
    Keeps W q0 (shareOn h s) := by
  unfold shareOn
  repeat' (first
    | with_reducible assumption | exact sub_of (by assumption) (by decide) | with_reducible apply modFab_keeps
    | with_reducible refine foldl_keeps _ _ _ ?_ ?_ | with_reducible refine foldl_fst_keeps _ _ _ ?_ ?_ | intro _ _ _
    | intro _ | with_reducible refine keeps_ite _ _ _ ?_ ?_ | split
    | with_reducible refine keeps_fst ?_ (by assumption) | with_reducible refine keeps_fst2 ?_ (by assumption)
    | simp only [])

theorem shareOff_keeps {W : Nat} {q0 : State} (h : Share) (s : State) (hk : Keeps W q0 s)
    (hW : Sub 0x20011801 W := by first | assumption | exact sub_of (by assumption) (by decide)) :
    Keeps W q0 (shareOff h s) := by
  unfold shareOff
  repeat' (first
    | with_reducible assumption | exact sub_of (by assumption) (by decide) | with_reducible apply endShare_keeps
    | with_reducible refine foldl_keeps _ _ _ ?_ ?_ | with_reducible refine foldl_fst_keeps _ _ _ ?_ ?_ | intro _ _ _
    | intro _ | with_reducible refine keeps_ite _ _ _ ?_ ?_ | split
    | with_reducible refine keeps_fst ?_ (by assumption) | with_reducible refine keeps_fst2 ?_ (by assumption)
    | simp only [])

theorem fabricStatus_keeps {W : Nat} {q0 : State} (i : Nat) (x_ : Bytes) (s : State) (hk : Keeps W q0 s) (hW : Sub
    0x1001 W) : Keeps W q0 (fabricStatus i x_ s) := by
  unfold fabricStatus
  with_reducible repeat' (first | assumption | apply stageDone_keeps)

theorem fabricRoute_keeps {W : Nat} {q0 : State} (i : Nat) (c : Bytes) (s : State) (hk : Keeps W q0 s) (hW : Sub
    0x1001 W) : Keeps W q0 (fabricRoute i c s) := by
  unfold fabricRoute
  with_reducible repeat' (first | assumption | apply stageDone_keeps)

theorem fabricPort_keeps {W : Nat} {q0 : State} (i : Nat) (c : Bytes) (s : State) (hk : Keeps W q0 s) (hW : Sub
    0x10001001 W) : Keeps W q0 (fabricPort i c s) := by
  unfold fabricPort
  with_reducible repeat' (first
    | assumption | apply stageDone_keeps | apply addStep_keeps | exact sub_of (by assumption) (by decide) | split
    | simp only [])

theorem fabPortApply_keeps {W : Nat} {q0 : State} (i k a : Nat) (s : State) (hk : Keeps W q0 s)
    (hW : Sub 0x20093805 W := by first | assumption | exact sub_of (by assumption) (by decide)) :
    Keeps W q0 (fabPortApply i k a s) := by
  unfold fabPortApply
  repeat' (first
    | with_reducible assumption | exact sub_of (by assumption) (by decide) | with_reducible apply wr_keeps
    | with_reducible apply stageDone_keeps | with_reducible apply modPort_keeps
    | with_reducible apply showIsolated_keeps | with_reducible apply bringUp_keeps
    | with_reducible apply linkFailed_keeps | with_reducible refine foldl_keeps _ _ _ ?_ ?_
    | with_reducible refine foldl_fst_keeps _ _ _ ?_ ?_ | intro _ _ _ | intro _
    | with_reducible refine keeps_ite _ _ _ ?_ ?_ | split | with_reducible refine keeps_fst ?_ (by assumption)
    | with_reducible refine keeps_fst2 ?_ (by assumption) | simp only [])

theorem fabricGrant_keeps {W : Nat} {q0 : State} (i : Nat) (c : Bytes) (s : State) (hk : Keeps W q0 s) (hW : Sub
    0x8001001 W) : Keeps W q0 (fabricGrant i c s) := by
  unfold fabricGrant
  with_reducible repeat' (first
    | assumption | apply stageDone_keeps | apply addDue_keeps | exact sub_of (by assumption) (by decide))

theorem fabGrantApply_keeps {W : Nat} {q0 : State} (d t : Nat) (allow : Bool) (s : State) (hk : Keeps W q0 s) (hW :
    Sub 0x10001 W) : Keeps W q0 (fabGrantApply d t allow s) := by
  unfold fabGrantApply
  with_reducible repeat' (first
    | assumption | apply grantBit_keeps | apply modFab_keeps | exact sub_of (by assumption) (by decide) | split)

/-! ## MainCore -/

theorem noteCodes_keeps {W : Nat} {q0 : State} (h : Nat) (cs : List Nat) (s : State) (hk : Keeps W q0 s)
    (hW : Sub 0x8 W := by first | assumption | exact sub_of (by assumption) (by decide)) :
    Keeps W q0 (noteCodes h cs s) := by
  unfold noteCodes
  repeat' (first
    | with_reducible assumption | exact sub_of (by assumption) (by decide) | with_reducible apply setHart_keeps
    | with_reducible refine foldl_keeps _ _ _ ?_ ?_ | with_reducible refine foldl_fst_keeps _ _ _ ?_ ?_ | intro _ _ _
    | intro _ | with_reducible refine keeps_ite _ _ _ ?_ ?_ | split
    | with_reducible refine keeps_fst ?_ (by assumption) | with_reducible refine keeps_fst2 ?_ (by assumption)
    | simp only [])

theorem translate_keeps {W : Nat} {q0 : State} (h : Nat) (a : MemAcc) (s : State) (hk : Keeps W q0 s)
    (hW : Sub 0x20000018 W := by first | assumption | exact sub_of (by assumption) (by decide)) :
    Keeps W q0 (translate h a s) := by
  unfold translate
  repeat' (first
    | with_reducible assumption | exact sub_of (by assumption) (by decide) | with_reducible apply freeNext_keeps
    | with_reducible apply setCore_keeps | with_reducible apply noteCodes_keeps
    | with_reducible refine foldl_keeps _ _ _ ?_ ?_ | with_reducible refine foldl_fst_keeps _ _ _ ?_ ?_ | intro _ _ _
    | intro _ | with_reducible refine keeps_ite _ _ _ ?_ ?_ | split
    | with_reducible refine keeps_fst ?_ (by assumption) | with_reducible refine keeps_fst2 ?_ (by assumption)
    | simp only [])

theorem present_keeps {W : Nat} {q0 : State} (h : Nat) (a : MemAcc) (fp : Bool) (s : State) (hk : Keeps W q0 s)
    (hW : Sub 0x8 W := by first | assumption | exact sub_of (by assumption) (by decide)) :
    Keeps W q0 (present h a fp s) := by
  unfold present
  repeat' (first
    | with_reducible assumption | exact sub_of (by assumption) (by decide) | with_reducible apply setHart_keeps
    | with_reducible apply noteCodes_keeps | with_reducible refine foldl_keeps _ _ _ ?_ ?_
    | with_reducible refine foldl_fst_keeps _ _ _ ?_ ?_ | intro _ _ _ | intro _
    | with_reducible refine keeps_ite _ _ _ ?_ ?_ | split | with_reducible refine keeps_fst ?_ (by assumption)
    | with_reducible refine keeps_fst2 ?_ (by assumption) | simp only [])

theorem holdMiss_keeps {W : Nat} {q0 : State} (core line : Nat) (excl : Bool) (s : State) (hk : Keeps W q0 s)
    (hW : Sub 0x10 W := by first | assumption | exact sub_of (by assumption) (by decide)) :
    Keeps W q0 (holdMiss core line excl s) := by
  unfold holdMiss
  repeat' (first
    | with_reducible assumption | exact sub_of (by assumption) (by decide) | with_reducible apply setCore_keeps
    | with_reducible refine foldl_keeps _ _ _ ?_ ?_ | with_reducible refine foldl_fst_keeps _ _ _ ?_ ?_ | intro _ _ _
    | intro _ | with_reducible refine keeps_ite _ _ _ ?_ ?_ | split
    | with_reducible refine keeps_fst ?_ (by assumption) | with_reducible refine keeps_fst2 ?_ (by assumption)
    | simp only [])

theorem freeMiss_keeps {W : Nat} {q0 : State} (core line : Nat) (s : State) (hk : Keeps W q0 s)
    (hW : Sub 0x10 W := by first | assumption | exact sub_of (by assumption) (by decide)) :
    Keeps W q0 (freeMiss core line s) := by
  unfold freeMiss
  repeat' (first
    | with_reducible assumption | exact sub_of (by assumption) (by decide) | with_reducible apply setCore_keeps
    | with_reducible refine foldl_keeps _ _ _ ?_ ?_ | with_reducible refine foldl_fst_keeps _ _ _ ?_ ?_ | intro _ _ _
    | intro _ | with_reducible refine keeps_ite _ _ _ ?_ ?_ | split
    | with_reducible refine keeps_fst ?_ (by assumption) | with_reducible refine keeps_fst2 ?_ (by assumption)
    | simp only [])

theorem getLine_keeps {W : Nat} {q0 : State} (core tag line : Nat) (excl early : Bool) (s : State) (hk : Keeps W q0
    s)
    (hW : Sub 0x200BFD39 W := by first | assumption | exact sub_of (by assumption) (by decide)) :
    Keeps W q0 (getLine core tag line excl early s).1 := by
  unfold getLine
  repeat' (first
    | with_reducible assumption | exact sub_of (by assumption) (by decide)
    | with_reducible exact twf_tset _ _ _ _ (by assumption)
    | with_reducible refine keeps_chan (W := W) ?_ _ (by assumption) | with_reducible exact twf_nil _
    | with_reducible refine keeps_ok (W := W) ?_ (by assumption) | with_reducible apply setCore_keeps
    | with_reducible apply refuseLine_keeps | with_reducible apply sliceRequest_keeps
    | with_reducible apply holdMiss_keeps | with_reducible apply freeMiss_keeps
    | with_reducible refine foldl_keeps _ _ _ ?_ ?_ | with_reducible refine foldl_fst_keeps _ _ _ ?_ ?_ | intro _ _ _
    | intro _ | with_reducible refine keeps_ite _ _ _ ?_ ?_ | split
    | with_reducible refine keeps_fst ?_ (by assumption) | with_reducible refine keeps_fst2 ?_ (by assumption)
    | simp only [])

theorem hintLine_keeps {W : Nat} {q0 : State} (core tag line : Nat) (excl early : Bool) (s : State) (hk : Keeps W q0
    s)
    (hW : Sub 0x200BFD39 W := by first | assumption | exact sub_of (by assumption) (by decide)) :
    Keeps W q0 (hintLine core tag line excl early s) := by
  unfold hintLine
  repeat' (first
    | with_reducible assumption | exact sub_of (by assumption) (by decide)
    | with_reducible exact twf_tset _ _ _ _ (by assumption)
    | with_reducible refine keeps_chan (W := W) ?_ _ (by assumption) | with_reducible exact twf_nil _
    | with_reducible refine keeps_ok (W := W) ?_ (by assumption) | with_reducible apply setCore_keeps
    | with_reducible apply getLine_keeps | with_reducible refine foldl_keeps _ _ _ ?_ ?_
    | with_reducible refine foldl_fst_keeps _ _ _ ?_ ?_ | intro _ _ _ | intro _
    | with_reducible refine keeps_ite _ _ _ ?_ ?_ | split | with_reducible refine keeps_fst ?_ (by assumption)
    | with_reducible refine keeps_fst2 ?_ (by assumption) | simp only [])

theorem walkLines_keeps {W : Nat} {q0 : State} (h core tag : Nat) (early : Bool) (l : List Nat) (s : State) (hk : Keeps W q0 s)
    (hW : Sub 0x200BFD39 W := by first | assumption | exact sub_of (by assumption) (by decide)) :
    Keeps W q0 (walkLines h core tag early l s).1 := by
  induction l generalizing s with
  | nil => exact hk
  | cons pa r ih =>
    unfold walkLines; dsimp only
    split
    · exact hk
    · have hg := getLine_keeps core tag (lineOf pa) false early s hk
      generalize getLine core tag (lineOf pa) false early s = x at hg
      split
      · exact ih _ hg
      · exact hg

theorem walked_keeps {W : Nat} {q0 : State} (h : Nat) (a : MemAcc) (ac : Nat) (f : State → State) (s : State) (h_f :
    ∀ a, Keeps W q0 a → Keeps W q0 (f a)) (hk : Keeps W q0 s)
    (hW : Sub 0x200BFD39 W := by first | assumption | exact sub_of (by assumption) (by decide)) :
    Keeps W q0 (walked h a ac f s) := by
  unfold walked
  repeat' (first
    | with_reducible assumption | exact sub_of (by assumption) (by decide)
    | with_reducible exact twf_tset _ _ _ _ (by assumption)
    | with_reducible refine keeps_chan (W := W) ?_ _ (by assumption) | with_reducible exact twf_nil _
    | with_reducible refine keeps_ok (W := W) ?_ (by assumption) | with_reducible apply raise_keeps
    | with_reducible apply translate_keeps | with_reducible apply walkLines_keeps | with_reducible apply h_f
    | with_reducible refine foldl_keeps _ _ _ ?_ ?_ | with_reducible refine foldl_fst_keeps _ _ _ ?_ ?_ | intro _ _ _
    | intro _ | with_reducible refine keeps_ite _ _ _ ?_ ?_ | split
    | with_reducible refine keeps_fst ?_ (by assumption) | with_reducible refine keeps_fst2 ?_ (by assumption)
    | simp only [])

theorem putBytes_keeps {W : Nat} {q0 : State} (core tag line o n v : Nat) (s : State) (hk : Keeps W q0 s) (hW : Sub
    0x10 W := by first | assumption | exact sub_of (by assumption) (by decide)) : Keeps W q0 (putBytes core tag line
    o n v s) := by
  unfold putBytes
  with_reducible repeat' (first | assumption | apply putL2_keeps | exact sub_of (by assumption) (by decide) | split)

theorem meet_keeps {W : Nat} {q0 : State} (h core tag : Nat) (a : MemAcc) (s : State) (hk : Keeps W q0 s)
    (hW : Sub 0x8 W := by first | assumption | exact sub_of (by assumption) (by decide)) :
    Keeps W q0 (meet h core tag a s) := by
  unfold meet
  repeat' (first
    | with_reducible assumption | exact sub_of (by assumption) (by decide) | with_reducible apply countEvent_keeps
    | with_reducible apply noteCodes_keeps | with_reducible refine foldl_keeps _ _ _ ?_ ?_
    | with_reducible refine foldl_fst_keeps _ _ _ ?_ ?_ | intro _ _ _ | intro _
    | with_reducible refine keeps_ite _ _ _ ?_ ?_ | split | with_reducible refine keeps_fst ?_ (by assumption)
    | with_reducible refine keeps_fst2 ?_ (by assumption) | simp only [])

theorem fillFirst_keeps {W : Nat} {q0 : State} (core : Nat) (a : MemAcc) (s : State) (hk : Keeps W q0 s)
    (hW : Sub 0x20000010 W := by first | assumption | exact sub_of (by assumption) (by decide)) :
    Keeps W q0 (fillFirst core a s) := by
  unfold fillFirst
  repeat' (first
    | with_reducible assumption | exact sub_of (by assumption) (by decide) | with_reducible apply freeNext_keeps
    | with_reducible apply setCore_keeps | with_reducible refine foldl_keeps _ _ _ ?_ ?_
    | with_reducible refine foldl_fst_keeps _ _ _ ?_ ?_ | intro _ _ _ | intro _
    | with_reducible refine keeps_ite _ _ _ ?_ ?_ | split | with_reducible refine keeps_fst ?_ (by assumption)
    | with_reducible refine keeps_fst2 ?_ (by assumption) | simp only [])

theorem hwPrefetch_keeps {W : Nat} {q0 : State} (h : Nat) (a : MemAcc) (s : State) (hk : Keeps W q0 s)
    (hW : Sub 0x200BFD39 W := by first | assumption | exact sub_of (by assumption) (by decide)) :
    Keeps W q0 (hwPrefetch h a s) := by
  unfold hwPrefetch
  repeat' (first
    | with_reducible assumption | exact sub_of (by assumption) (by decide)
    | with_reducible exact twf_tset _ _ _ _ (by assumption)
    | with_reducible refine keeps_chan (W := W) ?_ _ (by assumption) | with_reducible exact twf_nil _
    | with_reducible refine keeps_ok (W := W) ?_ (by assumption) | with_reducible apply freeNext_keeps
    | with_reducible apply countEvent_keeps | with_reducible apply hintLine_keeps
    | with_reducible refine foldl_keeps _ _ _ ?_ ?_ | with_reducible refine foldl_fst_keeps _ _ _ ?_ ?_ | intro _ _ _
    | intro _ | with_reducible refine keeps_ite _ _ _ ?_ ?_ | split
    | with_reducible refine keeps_fst ?_ (by assumption) | with_reducible refine keeps_fst2 ?_ (by assumption)
    | simp only [])

theorem trainPrefetch_keeps {W : Nat} {q0 : State} (h : Nat) (a : MemAcc) (s : State) (hk : Keeps W q0 s)
    (hW : Sub 0x200BFD39 W := by first | assumption | exact sub_of (by assumption) (by decide)) :
    Keeps W q0 (trainPrefetch h a s) := by
  unfold trainPrefetch
  repeat' (first
    | with_reducible assumption | exact sub_of (by assumption) (by decide)
    | with_reducible exact twf_tset _ _ _ _ (by assumption)
    | with_reducible refine keeps_chan (W := W) ?_ _ (by assumption) | with_reducible exact twf_nil _
    | with_reducible refine keeps_ok (W := W) ?_ (by assumption) | with_reducible apply freeNext_keeps
    | with_reducible apply setCore_keeps | with_reducible apply hwPrefetch_keeps
    | with_reducible refine foldl_keeps _ _ _ ?_ ?_ | with_reducible refine foldl_fst_keeps _ _ _ ?_ ?_ | intro _ _ _
    | intro _ | with_reducible refine keeps_ite _ _ _ ?_ ?_ | split
    | with_reducible refine keeps_fst ?_ (by assumption) | with_reducible refine keeps_fst2 ?_ (by assumption)
    | simp only [])

theorem retire_keeps {W : Nat} {q0 : State} (h : Nat) (a : MemAcc) (s : State) (hk : Keeps W q0 s)
    (hW : Sub 0x200BFD39 W := by first | assumption | exact sub_of (by assumption) (by decide)) :
    Keeps W q0 (retire h a s) := by
  unfold retire
  repeat' (first
    | with_reducible assumption | exact sub_of (by assumption) (by decide)
    | with_reducible exact twf_tset _ _ _ _ (by assumption)
    | with_reducible refine keeps_chan (W := W) ?_ _ (by assumption) | with_reducible exact twf_nil _
    | with_reducible refine keeps_ok (W := W) ?_ (by assumption) | with_reducible apply endAccess_keeps
    | with_reducible apply trainPrefetch_keeps | with_reducible refine foldl_keeps _ _ _ ?_ ?_
    | with_reducible refine foldl_fst_keeps _ _ _ ?_ ?_ | intro _ _ _ | intro _
    | with_reducible refine keeps_ite _ _ _ ?_ ?_ | split | with_reducible refine keeps_fst ?_ (by assumption)
    | with_reducible refine keeps_fst2 ?_ (by assumption) | simp only [])

theorem refetch_keeps {W : Nat} {q0 : State} (h : Nat) (lines younger : List Nat) (s : State) (hk : Keeps W q0 s)
    (hW : Sub 0x418 W := by first | assumption | exact sub_of (by assumption) (by decide)) :
    Keeps W q0 (refetch h lines younger s) := by
  unfold refetch
  repeat' (first
    | with_reducible assumption | exact sub_of (by assumption) (by decide) | with_reducible apply countEvent_keeps
    | with_reducible apply flush_keeps | with_reducible refine foldl_keeps _ _ _ ?_ ?_
    | with_reducible refine foldl_fst_keeps _ _ _ ?_ ?_ | intro _ _ _ | intro _
    | with_reducible refine keeps_ite _ _ _ ?_ ?_ | split | with_reducible refine keeps_fst ?_ (by assumption)
    | with_reducible refine keeps_fst2 ?_ (by assumption) | simp only [])

theorem windowWrite_keeps {W : Nat} {q0 : State} (tag off size v : Nat) (s : State) (hk : Keeps W q0 s)
    (hW : Sub 0x200FFF39 W := by first | assumption | exact sub_of (by assumption) (by decide)) :
    Keeps W q0 (windowWrite tag off size v s) := by
  unfold windowWrite
  repeat' (first
    | with_reducible assumption | exact sub_of (by assumption) (by decide)
    | with_reducible exact twf_tset _ _ _ _ (by assumption)
    | with_reducible refine keeps_chan (W := W) ?_ _ (by assumption) | with_reducible exact twf_nil _
    | with_reducible refine keeps_ok (W := W) ?_ (by assumption) | with_reducible apply pageWrite_keeps
    | with_reducible apply ecamWrite_keeps | with_reducible apply dmaStore_keeps
    | with_reducible refine foldl_keeps _ _ _ ?_ ?_ | with_reducible refine foldl_fst_keeps _ _ _ ?_ ?_ | intro _ _ _
    | intro _ | with_reducible refine keeps_ite _ _ _ ?_ ?_ | split
    | with_reducible refine keeps_fst ?_ (by assumption) | with_reducible refine keeps_fst2 ?_ (by assumption)
    | simp only [])

theorem windowAccess_keeps {W : Nat} {q0 : State} (h off size r : Nat) (signed write : Bool) (v : Nat) (s : State)
    (hk : Keeps W q0 s)
    (hW : Sub 0x200FFF39 W := by first | assumption | exact sub_of (by assumption) (by decide)) :
    Keeps W q0 (windowAccess h off size r signed write v s) := by
  unfold windowAccess
  repeat' (first
    | with_reducible assumption | exact sub_of (by assumption) (by decide)
    | with_reducible exact twf_tset _ _ _ _ (by assumption)
    | with_reducible refine keeps_chan (W := W) ?_ _ (by assumption) | with_reducible exact twf_nil _
    | with_reducible refine keeps_ok (W := W) ?_ (by assumption) | with_reducible apply refuseWindow_keeps
    | with_reducible apply deliverLoad_keeps | with_reducible apply windowWrite_keeps
    | with_reducible refine foldl_keeps _ _ _ ?_ ?_ | with_reducible refine foldl_fst_keeps _ _ _ ?_ ?_ | intro _ _ _
    | intro _ | with_reducible refine keeps_ite _ _ _ ?_ ?_ | split
    | with_reducible refine keeps_fst ?_ (by assumption) | with_reducible refine keeps_fst2 ?_ (by assumption)
    | simp only [])

theorem controlWindow_keeps {W : Nat} {q0 : State} (h va off size r : Nat) (signed write : Bool) (v : Nat) (s :
    State) (hk : Keeps W q0 s)
    (hW : Sub 0x200FFF39 W := by first | assumption | exact sub_of (by assumption) (by decide)) :
    Keeps W q0 (controlWindow h va off size r signed write v s) := by
  unfold controlWindow
  repeat' (first
    | with_reducible assumption | exact sub_of (by assumption) (by decide)
    | with_reducible exact twf_tset _ _ _ _ (by assumption)
    | with_reducible refine keeps_chan (W := W) ?_ _ (by assumption) | with_reducible exact twf_nil _
    | with_reducible refine keeps_ok (W := W) ?_ (by assumption) | with_reducible apply dropAccess_keeps
    | with_reducible apply raise_keeps | with_reducible apply endAccess_keeps
    | with_reducible apply presentWrite_keeps | with_reducible apply windowAccess_keeps
    | with_reducible refine foldl_keeps _ _ _ ?_ ?_ | with_reducible refine foldl_fst_keeps _ _ _ ?_ ?_ | intro _ _ _
    | intro _ | with_reducible refine keeps_ite _ _ _ ?_ ?_ | split
    | with_reducible refine keeps_fst ?_ (by assumption) | with_reducible refine keeps_fst2 ?_ (by assumption)
    | simp only [])

theorem farAccess_keeps {W : Nat} {q0 : State} (h dev kind r : Nat) (a : MemAcc) (signed : Bool) (v op cmp : Nat) (s
    : State) (hk : Keeps W q0 s)
    (hW : Sub 0x2001C438 W := by first | assumption | exact sub_of (by assumption) (by decide)) :
    Keeps W q0 (farAccess h dev kind r a signed v op cmp s) := by
  unfold farAccess
  repeat' (first
    | with_reducible assumption | exact sub_of (by assumption) (by decide)
    | with_reducible exact twf_tset _ _ _ _ (by assumption)
    | with_reducible refine keeps_chan (W := W) ?_ _ (by assumption) | with_reducible exact twf_nil _
    | with_reducible refine keeps_ok (W := W) ?_ (by assumption) | with_reducible apply keepRecord_keeps
    | with_reducible apply sendOut_keeps | with_reducible apply hartAnswer_keeps
    | with_reducible refine foldl_keeps _ _ _ ?_ ?_ | with_reducible refine foldl_fst_keeps _ _ _ ?_ ?_ | intro _ _ _
    | intro _ | with_reducible refine keeps_ite _ _ _ ?_ ?_ | split
    | with_reducible refine keeps_fst ?_ (by assumption) | with_reducible refine keeps_fst2 ?_ (by assumption)
    | simp only [])

theorem ioLoadAt_keeps {W : Nat} {q0 : State} (h g r : Nat) (a : MemAcc) (signed : Bool) (s : State) (w : IoAt) (hk : Keeps W q0 s)
    (hW : Sub 0x2009EC39 W := by first | assumption | exact sub_of (by assumption) (by decide)) :
    Keeps W q0 (ioLoadAt h g r a signed s w) := by
  cases w <;> unfold ioLoadAt <;> try dsimp only
  all_goals repeat' (first
    | with_reducible assumption | exact sub_of (by assumption) (by decide) | with_reducible apply freeNext_keeps
    | with_reducible apply raise_keeps
    | with_reducible apply endAccess_keeps
    | with_reducible apply deliverLoad_keeps
    | with_reducible apply refuseIo_keeps
    | with_reducible apply farAccess_keeps
    | intro _ _ | with_reducible refine keeps_ite _ _ _ ?_ ?_ | split | with_reducible refine keeps_fst ?_ (by assumption))

theorem ioLoad_keeps {W : Nat} {q0 : State} (h g r : Nat) (a : MemAcc) (signed : Bool) (s : State) (hk : Keeps W q0
    s) (hW : Sub 0x2009EC39 W := by first | assumption | exact sub_of (by assumption) (by decide)) : Keeps W q0
    (ioLoad h g r a signed s) := by
  unfold ioLoad; exact ioLoadAt_keeps _ _ _ _ _ _ _ hk

theorem ioStoreAt_keeps {W : Nat} {q0 : State} (h g : Nat) (a : MemAcc) (v : Nat) (s : State) (w : IoAt) (hk : Keeps W q0 s)
    (hW : Sub 0x200BFD39 W := by first | assumption | exact sub_of (by assumption) (by decide)) :
    Keeps W q0 (ioStoreAt h g a v s w) := by
  cases w <;> unfold ioStoreAt <;> try dsimp only
  all_goals repeat' (first
    | with_reducible assumption | exact sub_of (by assumption) (by decide) | with_reducible apply raise_keeps
    | with_reducible apply endAccess_keeps
    | with_reducible apply presentWrite_keeps
    | with_reducible apply fixedWrite_keeps
    | with_reducible apply refuseIo_keeps
    | with_reducible apply signalWrite_keeps
    | with_reducible apply farAccess_keeps
    | intro _ _ | with_reducible refine keeps_ite _ _ _ ?_ ?_ | split | with_reducible refine keeps_fst ?_ (by assumption))

theorem ioStore_keeps {W : Nat} {q0 : State} (h g : Nat) (a : MemAcc) (v : Nat) (s : State) (hk : Keeps W q0 s) (hW :
    Sub 0x200BFD39 W := by first | assumption | exact sub_of (by assumption) (by decide)) : Keeps W q0 (ioStore h g a v
    s) := by
  unfold ioStore; exact ioStoreAt_keeps _ _ _ _ _ _ hk

theorem ncLoad_keeps {W : Nat} {q0 : State} (h r : Nat) (a : MemAcc) (signed : Bool) (s : State) (hk : Keeps W q0 s)
    (hW : Sub 0x200BFD39 W := by first | assumption | exact sub_of (by assumption) (by decide)) :
    Keeps W q0 (ncLoad h r a signed s) := by
  unfold ncLoad
  repeat' (first
    | with_reducible assumption | exact sub_of (by assumption) (by decide)
    | with_reducible exact twf_tset _ _ _ _ (by assumption)
    | with_reducible refine keeps_chan (W := W) ?_ _ (by assumption) | with_reducible exact twf_nil _
    | with_reducible refine keeps_ok (W := W) ?_ (by assumption) | with_reducible apply raise_keeps
    | with_reducible apply refuseLine_keeps | with_reducible apply currentLine_keeps
    | with_reducible apply ncOpen_keeps | with_reducible apply deliverLoad_keeps | with_reducible apply retire_keeps
    | with_reducible apply farAccess_keeps | with_reducible refine foldl_keeps _ _ _ ?_ ?_
    | with_reducible refine foldl_fst_keeps _ _ _ ?_ ?_ | intro _ _ _ | intro _
    | with_reducible refine keeps_ite _ _ _ ?_ ?_ | split | with_reducible refine keeps_fst ?_ (by assumption)
    | with_reducible refine keeps_fst2 ?_ (by assumption) | simp only [])

theorem ncStore_keeps {W : Nat} {q0 : State} (h : Nat) (a : MemAcc) (v : Nat) (younger : List Nat) (s : State) (hk :
    Keeps W q0 s)
    (hW : Sub 0x200BFF39 W := by first | assumption | exact sub_of (by assumption) (by decide)) :
    Keeps W q0 (ncStore h a v younger s) := by
  unfold ncStore
  repeat' (first
    | with_reducible assumption | exact sub_of (by assumption) (by decide)
    | with_reducible exact twf_tset _ _ _ _ (by assumption)
    | with_reducible refine keeps_chan (W := W) ?_ _ (by assumption) | with_reducible exact twf_nil _
    | with_reducible refine keeps_ok (W := W) ?_ (by assumption) | with_reducible apply raise_keeps
    | with_reducible apply presentWrite_keeps | with_reducible apply refuseLine_keeps
    | with_reducible apply flushLine_keeps | with_reducible apply currentLine_keeps
    | with_reducible apply ncOpen_keeps | with_reducible apply breakResv_keeps
    | with_reducible apply writeAtHome_keeps | with_reducible apply retire_keeps | with_reducible apply refetch_keeps
    | with_reducible apply farAccess_keeps | with_reducible refine foldl_keeps _ _ _ ?_ ?_
    | with_reducible refine foldl_fst_keeps _ _ _ ?_ ?_ | intro _ _ _ | intro _
    | with_reducible refine keeps_ite _ _ _ ?_ ?_ | split | with_reducible refine keeps_fst ?_ (by assumption)
    | with_reducible refine keeps_fst2 ?_ (by assumption) | simp only [])

theorem getLines_keeps {W : Nat} {q0 : State} (core tag : Nat) (excl early : Bool) (l : List (Nat × Nat)) (s : State)
    (hk : Keeps W q0 s) (hW : Sub 0x200BFD39 W := by first | assumption | exact sub_of (by assumption) (by decide)) :
    Keeps W q0 (getLines core tag excl early l s).1 := by
  induction l generalizing s with
  | nil => unfold getLines; exact hk
  | cons e r ih =>
    obtain ⟨pa, n⟩ := e
    unfold getLines; dsimp only
    split
    · exact ih _ (getLine_keeps _ _ _ _ _ _ hk)
    · exact getLine_keeps _ _ _ _ _ _ hk

theorem storeParts_keeps {W : Nat} {q0 : State} (core tag : Nat) (l : List (Nat × Nat)) (v : Nat) (s : State) (hk :
    Keeps W q0 s) (hW : Sub 0x10 W := by first | assumption | exact sub_of (by assumption) (by decide)) : Keeps W q0
    (storeParts core tag l v s) := by
  induction l generalizing v s with
  | nil => unfold storeParts; exact hk
  | cons e r ih => obtain ⟨pa, n⟩ := e; unfold storeParts; exact ih _ _ (putBytes_keeps _ _ _ _ _ _ _ hk)

theorem failed_keeps {W : Nat} {q0 : State} (h : Nat) (a : MemAcc) (ac : Nat) (i : Nat) (g : Got) (s : State) (hk :
    Keeps W q0 s) (hW : Sub 0x418 W := by first | assumption | exact sub_of (by assumption) (by decide)) : Keeps W q0
    (failed h a ac i g s) := by
  unfold failed
  with_reducible repeat' (first | assumption | apply raise_keeps | exact sub_of (by assumption) (by decide) | split)

theorem cachedLoad_keeps {W : Nat} {q0 : State} (h core : Nat) (a : MemAcc) (r : Nat) (signed : Bool) (s : State)
    (hk : Keeps W q0 s)
    (hW : Sub 0x200BFD39 W := by first | assumption | exact sub_of (by assumption) (by decide)) :
    Keeps W q0 (cachedLoad h core a r signed s) := by
  unfold cachedLoad
  repeat' (first
    | with_reducible assumption | exact sub_of (by assumption) (by decide)
    | with_reducible exact twf_tset _ _ _ _ (by assumption)
    | with_reducible refine keeps_chan (W := W) ?_ _ (by assumption) | with_reducible exact twf_nil _
    | with_reducible refine keeps_ok (W := W) ?_ (by assumption) | with_reducible apply deliverLoad_keeps
    | with_reducible apply meet_keeps | with_reducible apply fillFirst_keeps | with_reducible apply retire_keeps
    | with_reducible apply getLines_keeps | with_reducible apply failed_keeps
    | with_reducible refine foldl_keeps _ _ _ ?_ ?_ | with_reducible refine foldl_fst_keeps _ _ _ ?_ ?_ | intro _ _ _
    | intro _ | with_reducible refine keeps_ite _ _ _ ?_ ?_ | split
    | with_reducible refine keeps_fst ?_ (by assumption) | with_reducible refine keeps_fst2 ?_ (by assumption)
    | simp only [])

theorem loadAt_keeps {W : Nat} {q0 : State} (h : Nat) (a : MemAcc) (r : Nat) (signed : Bool) (s : State) (hk : Keeps
    W q0 s)
    (hW : Sub 0x200FFF39 W := by first | assumption | exact sub_of (by assumption) (by decide)) :
    Keeps W q0 (loadAt h a r signed s) := by
  unfold loadAt
  repeat' (first
    | with_reducible assumption | exact sub_of (by assumption) (by decide)
    | with_reducible exact twf_tset _ _ _ _ (by assumption)
    | with_reducible refine keeps_chan (W := W) ?_ _ (by assumption) | with_reducible exact twf_nil _
    | with_reducible refine keeps_ok (W := W) ?_ (by assumption) | with_reducible apply raise_keeps
    | with_reducible apply endAccess_keeps | with_reducible apply windowAccess_keeps
    | with_reducible apply farAccess_keeps | with_reducible apply ioLoad_keeps | with_reducible apply ncLoad_keeps
    | with_reducible apply cachedLoad_keeps | with_reducible refine foldl_keeps _ _ _ ?_ ?_
    | with_reducible refine foldl_fst_keeps _ _ _ ?_ ?_ | intro _ _ _ | intro _
    | with_reducible refine keeps_ite _ _ _ ?_ ?_ | split | with_reducible refine keeps_fst ?_ (by assumption)
    | with_reducible refine keeps_fst2 ?_ (by assumption) | simp only [])

theorem load_keeps {W : Nat} {q0 : State} (h : Nat) (a : MemAcc) (r : Nat) (signed : Bool) (s : State) (hk : Keeps W
    q0 s)
    (hW : Sub 0x200FFF39 W := by first | assumption | exact sub_of (by assumption) (by decide)) :
    Keeps W q0 (load h a r signed s) := by
  unfold load
  repeat' (first
    | with_reducible assumption | exact sub_of (by assumption) (by decide)
    | with_reducible exact twf_tset _ _ _ _ (by assumption)
    | with_reducible refine keeps_chan (W := W) ?_ _ (by assumption) | with_reducible exact twf_nil _
    | with_reducible refine keeps_ok (W := W) ?_ (by assumption) | with_reducible apply present_keeps
    | with_reducible apply walked_keeps | with_reducible apply loadAt_keeps
    | with_reducible refine foldl_keeps _ _ _ ?_ ?_ | with_reducible refine foldl_fst_keeps _ _ _ ?_ ?_ | intro _ _ _
    | intro _ | with_reducible refine keeps_ite _ _ _ ?_ ?_ | split
    | with_reducible refine keeps_fst ?_ (by assumption) | with_reducible refine keeps_fst2 ?_ (by assumption)
    | simp only [])

theorem cachedStore_keeps {W : Nat} {q0 : State} (h core : Nat) (a : MemAcc) (v : Nat) (younger : List Nat) (s :
    State) (hk : Keeps W q0 s)
    (hW : Sub 0x200BFD39 W := by first | assumption | exact sub_of (by assumption) (by decide)) :
    Keeps W q0 (cachedStore h core a v younger s) := by
  unfold cachedStore
  repeat' (first
    | with_reducible assumption | exact sub_of (by assumption) (by decide)
    | with_reducible exact twf_tset _ _ _ _ (by assumption)
    | with_reducible refine keeps_chan (W := W) ?_ _ (by assumption) | with_reducible exact twf_nil _
    | with_reducible refine keeps_ok (W := W) ?_ (by assumption) | with_reducible apply presentWrite_keeps
    | with_reducible apply breakResv_keeps | with_reducible apply meet_keeps | with_reducible apply fillFirst_keeps
    | with_reducible apply retire_keeps | with_reducible apply refetch_keeps | with_reducible apply getLines_keeps
    | with_reducible apply storeParts_keeps | with_reducible apply failed_keeps
    | with_reducible refine foldl_keeps _ _ _ ?_ ?_ | with_reducible refine foldl_fst_keeps _ _ _ ?_ ?_ | intro _ _ _
    | intro _ | with_reducible refine keeps_ite _ _ _ ?_ ?_ | split
    | with_reducible refine keeps_fst ?_ (by assumption) | with_reducible refine keeps_fst2 ?_ (by assumption)
    | simp only [])

theorem storeAt_keeps {W : Nat} {q0 : State} (h : Nat) (a : MemAcc) (v : Nat) (younger : List Nat) (s : State) (hk :
    Keeps W q0 s)
    (hW : Sub 0x200FFF39 W := by first | assumption | exact sub_of (by assumption) (by decide)) :
    Keeps W q0 (storeAt h a v younger s) := by
  unfold storeAt
  repeat' (first
    | with_reducible assumption | exact sub_of (by assumption) (by decide)
    | with_reducible exact twf_tset _ _ _ _ (by assumption)
    | with_reducible refine keeps_chan (W := W) ?_ _ (by assumption) | with_reducible exact twf_nil _
    | with_reducible refine keeps_ok (W := W) ?_ (by assumption) | with_reducible apply raise_keeps
    | with_reducible apply endAccess_keeps | with_reducible apply presentWrite_keeps
    | with_reducible apply windowAccess_keeps | with_reducible apply farAccess_keeps
    | with_reducible apply ioStore_keeps | with_reducible apply ncStore_keeps | with_reducible apply cachedStore_keeps
    | with_reducible refine foldl_keeps _ _ _ ?_ ?_ | with_reducible refine foldl_fst_keeps _ _ _ ?_ ?_ | intro _ _ _
    | intro _ | with_reducible refine keeps_ite _ _ _ ?_ ?_ | split
    | with_reducible refine keeps_fst ?_ (by assumption) | with_reducible refine keeps_fst2 ?_ (by assumption)
    | simp only [])

theorem store_keeps {W : Nat} {q0 : State} (h : Nat) (a : MemAcc) (v : Nat) (younger : List Nat) (s : State) (hk :
    Keeps W q0 s)
    (hW : Sub 0x200FFF39 W := by first | assumption | exact sub_of (by assumption) (by decide)) :
    Keeps W q0 (store h a v younger s) := by
  unfold store
  repeat' (first
    | with_reducible assumption | exact sub_of (by assumption) (by decide)
    | with_reducible exact twf_tset _ _ _ _ (by assumption)
    | with_reducible refine keeps_chan (W := W) ?_ _ (by assumption) | with_reducible exact twf_nil _
    | with_reducible refine keeps_ok (W := W) ?_ (by assumption) | with_reducible apply present_keeps
    | with_reducible apply walked_keeps | with_reducible apply storeAt_keeps
    | with_reducible refine foldl_keeps _ _ _ ?_ ?_ | with_reducible refine foldl_fst_keeps _ _ _ ?_ ?_ | intro _ _ _
    | intro _ | with_reducible refine keeps_ite _ _ _ ?_ ?_ | split
    | with_reducible refine keeps_fst ?_ (by assumption) | with_reducible refine keeps_fst2 ?_ (by assumption)
    | simp only [])

theorem deliverAmo_keeps {W : Nat} {q0 : State} (h r n v : Nat) (s : State) (hk : Keeps W q0 s) (hW : Sub 0x8 W) :
    Keeps W q0 (deliverAmo h r n v s) := by
  unfold deliverAmo
  with_reducible repeat' (first | assumption | apply setX_keeps | exact sub_of (by assumption) (by decide) | split)

theorem amoFinish_keeps {W : Nat} {q0 : State} (h : Nat) (op : AmoOp) (n old r line : Nat) (put : State → State) (s
    : State) (h_put : ∀ a, Keeps W q0 a → Keeps W q0 (put a)) (hk : Keeps W q0 s)
    (hW : Sub 0x10008 W := by first | assumption | exact sub_of (by assumption) (by decide)) :
    Keeps W q0 (amoFinish h op n old r line put s).1 := by
  unfold amoFinish
  repeat' (first
    | with_reducible assumption | exact sub_of (by assumption) (by decide) | with_reducible apply setHart_keeps
    | with_reducible apply setX_keeps | with_reducible apply breakResv_keeps | with_reducible apply deliverAmo_keeps
    | with_reducible apply h_put | with_reducible refine foldl_keeps _ _ _ ?_ ?_
    | with_reducible refine foldl_fst_keeps _ _ _ ?_ ?_ | intro _ _ _ | intro _
    | with_reducible refine keeps_ite _ _ _ ?_ ?_ | split | with_reducible refine keeps_fst ?_ (by assumption)
    | with_reducible refine keeps_fst2 ?_ (by assumption) | simp only [])

theorem amoDone_keeps {W : Nat} {q0 : State} (h : Nat) (a : MemAcc) (younger : List Nat) (x : State × Bool) (hk :
    Keeps W q0 x.1)
    (hW : Sub 0x200BFD39 W := by first | assumption | exact sub_of (by assumption) (by decide)) :
    Keeps W q0 (amoDone h a younger x) := by
  unfold amoDone
  repeat' (first
    | with_reducible assumption | exact sub_of (by assumption) (by decide)
    | with_reducible exact twf_tset _ _ _ _ (by assumption)
    | with_reducible refine keeps_chan (W := W) ?_ _ (by assumption) | with_reducible exact twf_nil _
    | with_reducible refine keeps_ok (W := W) ?_ (by assumption) | with_reducible apply retire_keeps
    | with_reducible apply refetch_keeps | with_reducible refine foldl_keeps _ _ _ ?_ ?_
    | with_reducible refine foldl_fst_keeps _ _ _ ?_ ?_ | intro _ _ _ | intro _
    | with_reducible refine keeps_ite _ _ _ ?_ ?_ | split | with_reducible refine keeps_fst ?_ (by assumption)
    | with_reducible refine keeps_fst2 ?_ (by assumption) | simp only [])

theorem presentAmo_keeps {W : Nat} {q0 : State} (h : Nat) (op : AmoOp) (f : State → State) (s : State) (h_f : ∀ a,
    Keeps W q0 a → Keeps W q0 (f a)) (hk : Keeps W q0 s)
    (hW : Sub 0x20080029 W := by first | assumption | exact sub_of (by assumption) (by decide)) :
    Keeps W q0 (presentAmo h op f s) := by
  unfold presentAmo
  repeat' (first
    | with_reducible assumption | exact sub_of (by assumption) (by decide) | with_reducible apply presentWrite_keeps
    | with_reducible apply h_f | with_reducible refine foldl_keeps _ _ _ ?_ ?_
    | with_reducible refine foldl_fst_keeps _ _ _ ?_ ?_ | intro _ _ _ | intro _
    | with_reducible refine keeps_ite _ _ _ ?_ ?_ | split | with_reducible refine keeps_fst ?_ (by assumption)
    | with_reducible refine keeps_fst2 ?_ (by assumption) | simp only [])

theorem amoFetch_keeps {W : Nat} {q0 : State} (h n tag : Nat) (a : MemAcc) (s : State) (hk : Keeps W q0 s)
    (hW : Sub 0x200BFD19 W := by first | assumption | exact sub_of (by assumption) (by decide)) :
    Keeps W q0 (amoFetch h n tag a s) := by
  unfold amoFetch
  repeat' (first
    | with_reducible assumption | exact sub_of (by assumption) (by decide)
    | with_reducible exact twf_tset _ _ _ _ (by assumption)
    | with_reducible refine keeps_chan (W := W) ?_ _ (by assumption) | with_reducible exact twf_nil _
    | with_reducible refine keeps_ok (W := W) ?_ (by assumption) | with_reducible apply setCore_keeps
    | with_reducible apply raise_keeps | with_reducible apply sendMiss_keeps
    | with_reducible refine foldl_keeps _ _ _ ?_ ?_ | with_reducible refine foldl_fst_keeps _ _ _ ?_ ?_ | intro _ _ _
    | intro _ | with_reducible refine keeps_ite _ _ _ ?_ ?_ | split
    | with_reducible refine keeps_fst ?_ (by assumption) | with_reducible refine keeps_fst2 ?_ (by assumption)
    | simp only [])

theorem amoAtHome_keeps {W : Nat} {q0 : State} (h : Nat) (a : MemAcc) (op : AmoOp) (v cmp r : Nat) (younger : List
    Nat) (s : State) (hk : Keeps W q0 s)
    (hW : Sub 0x200BFF39 W := by first | assumption | exact sub_of (by assumption) (by decide)) :
    Keeps W q0 (amoAtHome h a op v cmp r younger s) := by
  unfold amoAtHome
  repeat' (first
    | with_reducible assumption | exact sub_of (by assumption) (by decide)
    | with_reducible exact twf_tset _ _ _ _ (by assumption)
    | with_reducible refine keeps_chan (W := W) ?_ _ (by assumption) | with_reducible exact twf_nil _
    | with_reducible refine keeps_ok (W := W) ?_ (by assumption) | with_reducible apply setX_keeps
    | with_reducible apply raise_keeps | with_reducible apply endAccess_keeps | with_reducible apply refuseLine_keeps
    | with_reducible apply flushLine_keeps | with_reducible apply currentLine_keeps
    | with_reducible apply ncOpen_keeps | with_reducible apply writeAtHome_keeps | with_reducible apply refetch_keeps
    | with_reducible apply farAccess_keeps | with_reducible apply amoFinish_keeps | with_reducible apply amoDone_keeps
    | with_reducible apply presentAmo_keeps | with_reducible apply amoFetch_keeps
    | with_reducible refine foldl_keeps _ _ _ ?_ ?_ | with_reducible refine foldl_fst_keeps _ _ _ ?_ ?_ | intro _ _ _
    | intro _ | with_reducible refine keeps_ite _ _ _ ?_ ?_ | split
    | with_reducible refine keeps_fst ?_ (by assumption) | with_reducible refine keeps_fst2 ?_ (by assumption)
    | simp only [])

theorem amoCached_keeps {W : Nat} {q0 : State} (h core : Nat) (a : MemAcc) (op : AmoOp) (v cmp r : Nat)
    (younger : List Nat) (s : State) (hk : Keeps W q0 s)
    (hW : Sub 0x200BFD39 W := by first | assumption | exact sub_of (by assumption) (by decide)) :
    Keeps W q0 (amoCached h core a op v cmp r younger s) := by
  have hg := getLine_keeps core (ownerOf s h) (lineOf a.pa) true a.early _ (meet_keeps h core (ownerOf s h) a s hk)
  unfold amoCached
  dsimp only
  generalize getLine core (ownerOf s h) (lineOf a.pa) true a.early (meet h core (ownerOf s h) a s) = x at hg
  split
  · exact presentAmo_keeps _ _ _ _ (fun c hc => amoDone_keeps _ _ _ _ (amoFinish_keeps _ _ _ _ _ _ _ _ (fun b hb => putBytes_keeps _ _ _ _ _ _ _ hb (sub_of hW (by decide))) (fillFirst_keeps _ _ _ hc))) hg
  · exact failed_keeps _ _ _ _ _ _ hg

theorem amoAt_keeps {W : Nat} {q0 : State} (h : Nat) (a : MemAcc) (op : AmoOp) (v cmp r : Nat) (younger : List Nat)
    (s : State) (hk : Keeps W q0 s)
    (hW : Sub 0x200BFF39 W := by first | assumption | exact sub_of (by assumption) (by decide)) :
    Keeps W q0 (amoAt h a op v cmp r younger s) := by
  unfold amoAt
  repeat' (first
    | with_reducible assumption | exact sub_of (by assumption) (by decide)
    | with_reducible exact twf_tset _ _ _ _ (by assumption)
    | with_reducible refine keeps_chan (W := W) ?_ _ (by assumption) | with_reducible exact twf_nil _
    | with_reducible refine keeps_ok (W := W) ?_ (by assumption) | with_reducible apply raise_keeps
    | with_reducible apply amoAtHome_keeps | with_reducible apply amoCached_keeps
    | with_reducible refine foldl_keeps _ _ _ ?_ ?_ | with_reducible refine foldl_fst_keeps _ _ _ ?_ ?_ | intro _ _ _
    | intro _ | with_reducible refine keeps_ite _ _ _ ?_ ?_ | split
    | with_reducible refine keeps_fst ?_ (by assumption) | with_reducible refine keeps_fst2 ?_ (by assumption)
    | simp only [])

theorem amo_keeps {W : Nat} {q0 : State} (h : Nat) (a : MemAcc) (op : AmoOp) (v cmp r : Nat) (younger : List Nat) (s
    : State) (hk : Keeps W q0 s)
    (hW : Sub 0x200BFF39 W := by first | assumption | exact sub_of (by assumption) (by decide)) :
    Keeps W q0 (amo h a op v cmp r younger s) := by
  unfold amo
  repeat' (first
    | with_reducible assumption | exact sub_of (by assumption) (by decide)
    | with_reducible exact twf_tset _ _ _ _ (by assumption)
    | with_reducible refine keeps_chan (W := W) ?_ _ (by assumption) | with_reducible exact twf_nil _
    | with_reducible refine keeps_ok (W := W) ?_ (by assumption) | with_reducible apply present_keeps
    | with_reducible apply walked_keeps | with_reducible apply amoAt_keeps
    | with_reducible refine foldl_keeps _ _ _ ?_ ?_ | with_reducible refine foldl_fst_keeps _ _ _ ?_ ?_ | intro _ _ _
    | intro _ | with_reducible refine keeps_ite _ _ _ ?_ ?_ | split
    | with_reducible refine keeps_fst ?_ (by assumption) | with_reducible refine keeps_fst2 ?_ (by assumption)
    | simp only [])

theorem cbo_keeps {W : Nat} {q0 : State} (h va pa op : Nat) (s : State) (hk : Keeps W q0 s)
    (hW : Sub 0x2009ED19 W := by first | assumption | exact sub_of (by assumption) (by decide)) :
    Keeps W q0 (cbo h va pa op s) := by
  unfold cbo
  repeat' (first
    | with_reducible assumption | exact sub_of (by assumption) (by decide)
    | with_reducible exact twf_tset _ _ _ _ (by assumption)
    | with_reducible refine keeps_chan (W := W) ?_ _ (by assumption) | with_reducible exact twf_nil _
    | with_reducible refine keeps_ok (W := W) ?_ (by assumption) | with_reducible apply setHart_keeps
    | with_reducible apply raise_keeps | with_reducible apply refuseLine_keeps
    | with_reducible apply maintAccept_keeps | with_reducible refine foldl_keeps _ _ _ ?_ ?_
    | with_reducible refine foldl_fst_keeps _ _ _ ?_ ?_ | intro _ _ _ | intro _
    | with_reducible refine keeps_ite _ _ _ ?_ ?_ | split | with_reducible refine keeps_fst ?_ (by assumption)
    | with_reducible refine keeps_fst2 ?_ (by assumption) | simp only [])

theorem cboGated_keeps {W : Nat} {q0 : State} (h va pa op lo w : Nat) (s : State) (hk : Keeps W q0 s)
    (hW : Sub 0x2009ED19 W := by first | assumption | exact sub_of (by assumption) (by decide)) :
    Keeps W q0 (cboGated h va pa op lo w s) := by
  unfold cboGated
  repeat' (first
    | with_reducible assumption | exact sub_of (by assumption) (by decide) | with_reducible apply raiseInstr_keeps
    | with_reducible apply cbo_keeps | with_reducible refine foldl_keeps _ _ _ ?_ ?_
    | with_reducible refine foldl_fst_keeps _ _ _ ?_ ?_ | intro _ _ _ | intro _
    | with_reducible refine keeps_ite _ _ _ ?_ ?_ | split | with_reducible refine keeps_fst ?_ (by assumption)
    | with_reducible refine keeps_fst2 ?_ (by assumption) | simp only [])

theorem cboInval_keeps {W : Nat} {q0 : State} (h va pa : Nat) (s : State) (hk : Keeps W q0 s) (hW : Sub 0x2009ED19 W)
    : Keeps W q0 (cboInval h va pa s) := by
  unfold cboInval
  with_reducible repeat' (first | assumption | apply cboGated_keeps)

theorem zeroLine_keeps {W : Nat} {q0 : State} (core tag line : Nat) (s : State) (hk : Keeps W q0 s)
    (hW : Sub 0x200BFD19 W := by first | assumption | exact sub_of (by assumption) (by decide)) :
    Keeps W q0 (zeroLine core tag line s) := by
  unfold zeroLine
  repeat' (first
    | with_reducible assumption | exact sub_of (by assumption) (by decide)
    | with_reducible exact twf_tset _ _ _ _ (by assumption)
    | with_reducible refine keeps_chan (W := W) ?_ _ (by assumption) | with_reducible exact twf_nil _
    | with_reducible refine keeps_ok (W := W) ?_ (by assumption) | with_reducible apply setCore_keeps
    | with_reducible apply putL2_keeps | with_reducible apply grant_keeps | with_reducible apply dropCopies_keeps
    | with_reducible apply freeMiss_keeps | with_reducible refine foldl_keeps _ _ _ ?_ ?_
    | with_reducible refine foldl_fst_keeps _ _ _ ?_ ?_ | intro _ _ _ | intro _
    | with_reducible refine keeps_ite _ _ _ ?_ ?_ | split | with_reducible refine keeps_fst ?_ (by assumption)
    | with_reducible refine keeps_fst2 ?_ (by assumption) | simp only [])

theorem zeroed_keeps {W : Nat} {q0 : State} (h line : Nat) (younger : List Nat) (f : State → State) (s : State) (h_f
    : ∀ a, Keeps W q0 a → Keeps W q0 (f a)) (hk : Keeps W q0 s)
    (hW : Sub 0x20090439 W := by first | assumption | exact sub_of (by assumption) (by decide)) :
    Keeps W q0 (zeroed h line younger f s) := by
  unfold zeroed
  repeat' (first
    | with_reducible assumption | exact sub_of (by assumption) (by decide)
    | with_reducible exact twf_tset _ _ _ _ (by assumption)
    | with_reducible refine keeps_chan (W := W) ?_ _ (by assumption) | with_reducible exact twf_nil _
    | with_reducible refine keeps_ok (W := W) ?_ (by assumption) | with_reducible apply countEvent_keeps
    | with_reducible apply countInst_keeps | with_reducible apply dropReads_keeps
    | with_reducible apply presentWrite_keeps | with_reducible apply breakResv_keeps
    | with_reducible apply refetch_keeps | with_reducible apply h_f | with_reducible refine foldl_keeps _ _ _ ?_ ?_
    | with_reducible refine foldl_fst_keeps _ _ _ ?_ ?_ | intro _ _ _ | intro _
    | with_reducible refine keeps_ite _ _ _ ?_ ?_ | split | with_reducible refine keeps_fst ?_ (by assumption)
    | with_reducible refine keeps_fst2 ?_ (by assumption) | simp only [])

theorem zeroFar_keeps {W : Nat} {q0 : State} (h : Nat) (a : MemAcc) (younger : List Nat) (s : State) (hk : Keeps W
    q0 s)
    (hW : Sub 0x2009C739 W := by first | assumption | exact sub_of (by assumption) (by decide)) :
    Keeps W q0 (zeroFar h a younger s) := by
  unfold zeroFar
  repeat' (first
    | with_reducible assumption | exact sub_of (by assumption) (by decide)
    | with_reducible exact twf_tset _ _ _ _ (by assumption)
    | with_reducible refine keeps_chan (W := W) ?_ _ (by assumption) | with_reducible exact twf_nil _
    | with_reducible refine keeps_ok (W := W) ?_ (by assumption) | with_reducible apply setHart_keeps
    | with_reducible apply presentWrite_keeps | with_reducible apply discardLine_keeps
    | with_reducible apply breakResv_keeps | with_reducible apply refetch_keeps | with_reducible apply farAccess_keeps
    | with_reducible apply zeroed_keeps | with_reducible refine foldl_keeps _ _ _ ?_ ?_
    | with_reducible refine foldl_fst_keeps _ _ _ ?_ ?_ | intro _ _ _ | intro _
    | with_reducible refine keeps_ite _ _ _ ?_ ?_ | split | with_reducible refine keeps_fst ?_ (by assumption)
    | with_reducible refine keeps_fst2 ?_ (by assumption) | simp only [])

theorem zeroHome_keeps {W : Nat} {q0 : State} (h : Nat) (a : MemAcc) (younger : List Nat) (s : State) (hk : Keeps W
    q0 s)
    (hW : Sub 0x200BFF39 W := by first | assumption | exact sub_of (by assumption) (by decide)) :
    Keeps W q0 (zeroHome h a younger s) := by
  unfold zeroHome
  repeat' (first
    | with_reducible assumption | exact sub_of (by assumption) (by decide)
    | with_reducible exact twf_tset _ _ _ _ (by assumption)
    | with_reducible refine keeps_chan (W := W) ?_ _ (by assumption) | with_reducible exact twf_nil _
    | with_reducible refine keeps_ok (W := W) ?_ (by assumption) | with_reducible apply writeAtHome_keeps
    | with_reducible apply zeroed_keeps | with_reducible apply zeroFar_keeps
    | with_reducible refine foldl_keeps _ _ _ ?_ ?_ | with_reducible refine foldl_fst_keeps _ _ _ ?_ ?_ | intro _ _ _
    | intro _ | with_reducible refine keeps_ite _ _ _ ?_ ?_ | split
    | with_reducible refine keeps_fst ?_ (by assumption) | with_reducible refine keeps_fst2 ?_ (by assumption)
    | simp only [])

theorem cboZeroAt_keeps {W : Nat} {q0 : State} (h : Nat) (at_ : PageAt) (pa : Nat) (younger : List Nat) (s : State)
    (hk : Keeps W q0 s)
    (hW : Sub 0x200BFF39 W := by first | assumption | exact sub_of (by assumption) (by decide)) :
    Keeps W q0 (cboZeroAt h at_ pa younger s) := by
  unfold cboZeroAt
  repeat' (first
    | with_reducible assumption | exact sub_of (by assumption) (by decide)
    | with_reducible exact twf_tset _ _ _ _ (by assumption)
    | with_reducible refine keeps_chan (W := W) ?_ _ (by assumption) | with_reducible exact twf_nil _
    | with_reducible refine keeps_ok (W := W) ?_ (by assumption) | with_reducible apply raise_keeps
    | with_reducible apply refuseLine_keeps | with_reducible apply ncOpen_keeps | with_reducible apply holdMiss_keeps
    | with_reducible apply zeroLine_keeps | with_reducible apply zeroed_keeps | with_reducible apply zeroFar_keeps
    | with_reducible apply zeroHome_keeps | with_reducible refine foldl_keeps _ _ _ ?_ ?_
    | with_reducible refine foldl_fst_keeps _ _ _ ?_ ?_ | intro _ _ _ | intro _
    | with_reducible refine keeps_ite _ _ _ ?_ ?_ | split | with_reducible refine keeps_fst ?_ (by assumption)
    | with_reducible refine keeps_fst2 ?_ (by assumption) | simp only [])

theorem cboZero_keeps {W : Nat} {q0 : State} (h : Nat) (at_ : PageAt) (pa : Nat) (younger : List Nat) (s : State)
    (hk : Keeps W q0 s)
    (hW : Sub 0x200BFF39 W := by first | assumption | exact sub_of (by assumption) (by decide)) :
    Keeps W q0 (cboZero h at_ pa younger s) := by
  unfold cboZero
  repeat' (first
    | with_reducible assumption | exact sub_of (by assumption) (by decide)
    | with_reducible exact twf_tset _ _ _ _ (by assumption)
    | with_reducible refine keeps_chan (W := W) ?_ _ (by assumption) | with_reducible exact twf_nil _
    | with_reducible refine keeps_ok (W := W) ?_ (by assumption) | with_reducible apply raiseInstr_keeps
    | with_reducible apply cboZeroAt_keeps | with_reducible refine foldl_keeps _ _ _ ?_ ?_
    | with_reducible refine foldl_fst_keeps _ _ _ ?_ ?_ | intro _ _ _ | intro _
    | with_reducible refine keeps_ite _ _ _ ?_ ?_ | split | with_reducible refine keeps_fst ?_ (by assumption)
    | with_reducible refine keeps_fst2 ?_ (by assumption) | simp only [])

theorem fillFetch_keeps {W : Nat} {q0 : State} (core line : Nat) (s : State) (hk : Keeps W q0 s)
    (hW : Sub 0x20000010 W := by first | assumption | exact sub_of (by assumption) (by decide)) :
    Keeps W q0 (fillFetch core line s) := by
  unfold fillFetch
  repeat' (first
    | with_reducible assumption | exact sub_of (by assumption) (by decide) | with_reducible apply freeNext_keeps
    | with_reducible apply setCore_keeps | with_reducible refine foldl_keeps _ _ _ ?_ ?_
    | with_reducible refine foldl_fst_keeps _ _ _ ?_ ?_ | intro _ _ _ | intro _
    | with_reducible refine keeps_ite _ _ _ ?_ ?_ | split | with_reducible refine keeps_fst ?_ (by assumption)
    | with_reducible refine keeps_fst2 ?_ (by assumption) | simp only [])

theorem prefetch_keeps {W : Nat} {q0 : State} (h : Nat) (pa : PageAt) (kind : Nat) (faults : Bool) (s : State) (hk :
    Keeps W q0 s)
    (hW : Sub 0x200BFD39 W := by first | assumption | exact sub_of (by assumption) (by decide)) :
    Keeps W q0 (prefetch h pa kind faults s) := by
  unfold prefetch
  repeat' (first
    | with_reducible assumption | exact sub_of (by assumption) (by decide)
    | with_reducible exact twf_tset _ _ _ _ (by assumption)
    | with_reducible refine keeps_chan (W := W) ?_ _ (by assumption) | with_reducible exact twf_nil _
    | with_reducible refine keeps_ok (W := W) ?_ (by assumption) | with_reducible apply countInst_keeps
    | with_reducible apply hintLine_keeps | with_reducible apply fillFetch_keeps
    | with_reducible refine foldl_keeps _ _ _ ?_ ?_ | with_reducible refine foldl_fst_keeps _ _ _ ?_ ?_ | intro _ _ _
    | intro _ | with_reducible refine keeps_ite _ _ _ ?_ ?_ | split
    | with_reducible refine keeps_fst ?_ (by assumption) | with_reducible refine keeps_fst2 ?_ (by assumption)
    | simp only [])

theorem mbxStore_keeps {W : Nat} {q0 : State} (tag i off size v : Nat) (s : State) (hk : Keeps W q0 s)
    (hW : Sub 0x83001 W := by first | assumption | exact sub_of (by assumption) (by decide)) :
    Keeps W q0 (mbxStore tag i off size v s) := by
  unfold mbxStore
  repeat' (first
    | with_reducible assumption | exact sub_of (by assumption) (by decide) | with_reducible apply refuseWindow_keeps
    | with_reducible apply pageWrite_keeps | with_reducible refine foldl_keeps _ _ _ ?_ ?_
    | with_reducible refine foldl_fst_keeps _ _ _ ?_ ?_ | intro _ _ _ | intro _
    | with_reducible refine keeps_ite _ _ _ ?_ ?_ | split | with_reducible refine keeps_fst ?_ (by assumption)
    | with_reducible refine keeps_fst2 ?_ (by assumption) | simp only [])

end Sys2Proof.Machine
end

