-- ==== Sys2Proof/Laws/KeepsDevice.lean ====
section
/-! SUPPORT. Laws/KeepsDevice.lean: every operation on power, tests, Clerk, Assayer, start-up and boundaries keeps
    `Keeps`: it changes neither the queue nor the fuses, it keeps the
canonical forms, and it writes no part of State outside the set its lemma names. -/
set_option Elab.async false
namespace Sys2Proof.Machine

/-! ## Domain -/

theorem setDomain_keeps {W : Nat} {q0 : State} (d : Nat) (on : Bool) (s : State) (hk : Keeps W q0 s) (hW : Sub
    0x20000001 W := by first | assumption | exact sub_of (by assumption) (by decide)) : Keeps W q0 (setDomain d on s)
    := by
  unfold setDomain
  with_reducible repeat' (first
    | assumption | apply wr_keeps | apply freeNext_keeps | exact sub_of (by assumption) (by decide) | split)

theorem switchDomain_keeps {W : Nat} {q0 : State} (d : Nat) (on : Bool) (s : State) (hk : Keeps W q0 s) (hW : Sub
    0x20000001 W) : Keeps W q0 (switchDomain d on s) := by
  unfold switchDomain
  with_reducible repeat' (first
    | assumption | apply setDomain_keeps | exact sub_of (by assumption) (by decide) | split)

theorem fenceDomain_keeps {W : Nat} {q0 : State} (d : Nat) (s : State) (hk : Keeps W q0 s) (hW : Sub 0x1 W) : Keeps W
    q0 (fenceDomain d s) := by
  unfold fenceDomain
  with_reducible repeat' (first | assumption | apply wr_keeps)

theorem dueSwitch_keeps {W : Nat} {q0 : State} (d : Nat) (on : Bool) (s : State) (hk : Keeps W q0 s)
    (hW : Sub 0x28000001 W := by first | assumption | exact sub_of (by assumption) (by decide)) :
    Keeps W q0 (dueSwitch d on s) := by
  unfold dueSwitch
  repeat' (first
    | with_reducible assumption | exact sub_of (by assumption) (by decide) | with_reducible apply addDue_keeps
    | with_reducible apply switchDomain_keeps | with_reducible refine foldl_keeps _ _ _ ?_ ?_
    | with_reducible refine foldl_fst_keeps _ _ _ ?_ ?_ | intro _ _ _ | intro _
    | with_reducible refine keeps_ite _ _ _ ?_ ?_ | split | with_reducible refine keeps_fst ?_ (by assumption)
    | with_reducible refine keeps_fst2 ?_ (by assumption) | simp only [])

/-! ## Tests -/

theorem startTest_keeps {W : Nat} {q0 : State} (i cl kind target unit mode dur slack : Nat) (fields : List (Nat × Nat
    × Nat)) (testable : Bool) (s : State) (hk : Keeps W q0 s) (hW : Sub 0x11001001 W) : Keeps W q0 (startTest i cl
    kind target unit mode dur slack fields testable s) := by
  unfold startTest
  with_reducible repeat' (first
    | assumption | apply addStep_keeps | apply testStart_keeps | apply stageDone_keeps
    | exact sub_of (by assumption) (by decide) | split | refine keeps_lit (by assumption) ?_)

theorem testStart_keeps {W : Nat} {q0 : State} (id : Nat) (s : State) (hk : Keeps W q0 s)
    (hW : Sub 0x29000401 W := by first | assumption | exact sub_of (by assumption) (by decide)) :
    Keeps W q0 (testStart id s) := by
  unfold testStart
  repeat' (first
    | with_reducible assumption | exact sub_of (by assumption) (by decide)
    | with_reducible exact twf_tset _ _ _ _ (by assumption)
    | with_reducible refine keeps_chan (W := W) ?_ _ (by assumption) | with_reducible exact twf_nil _
    | with_reducible refine keeps_ok (W := W) ?_ (by assumption) | with_reducible apply wr_keeps
    | with_reducible apply startPatrol_keeps | with_reducible apply dueSwitch_keeps
    | with_reducible refine foldl_keeps _ _ _ ?_ ?_ | with_reducible refine foldl_fst_keeps _ _ _ ?_ ?_ | intro _ _ _
    | intro _ | with_reducible refine keeps_ite _ _ _ ?_ ?_ | split
    | with_reducible refine keeps_fst ?_ (by assumption) | with_reducible refine keeps_fst2 ?_ (by assumption)
    | simp only [] | with_reducible refine keeps_lit (by assumption) ?_
    | (refine keeps_mem _ ?_ ?_ (sub_of (by assumption) (by decide))))

theorem testLoopback_keeps {W : Nat} {q0 : State} (i : Nat) (c : Bytes) (s : State) (hk : Keeps W q0 s) (hW : Sub
    0x11001001 W) : Keeps W q0 (testLoopback i c s) := by
  unfold testLoopback
  with_reducible repeat' (first | assumption | apply startTest_keeps)

theorem testBist_keeps {W : Nat} {q0 : State} (i : Nat) (c : Bytes) (s : State) (hk : Keeps W q0 s) (hW : Sub
    0x11001001 W) : Keeps W q0 (testBist i c s) := by
  unfold testBist
  with_reducible repeat' (first | assumption | apply startTest_keeps)

theorem leaveTest_keeps {W : Nat} {q0 : State} (t : Test) (s : State) (hk : Keeps W q0 s)
    (hW : Sub 0x8000069 W := by first | assumption | exact sub_of (by assumption) (by decide)) :
    Keeps W q0 (leaveTest t s) := by
  unfold leaveTest
  repeat' (first
    | with_reducible assumption | exact sub_of (by assumption) (by decide) | with_reducible apply wr_keeps
    | with_reducible apply addDue_keeps | with_reducible apply rebindSlots_keeps
    | with_reducible apply unbindSlot_keeps | with_reducible refine foldl_keeps _ _ _ ?_ ?_
    | with_reducible refine foldl_fst_keeps _ _ _ ?_ ?_ | intro _ _ _ | intro _
    | with_reducible refine keeps_ite _ _ _ ?_ ?_ | split | with_reducible refine keeps_fst ?_ (by assumption)
    | with_reducible refine keeps_fst2 ?_ (by assumption) | simp only [])

theorem endTest_keeps {W : Nat} {q0 : State} (id : Nat) (t : Test) (s : State) (hk : Keeps W q0 s) (hW : Sub 0x29000069 W) : Keeps W q0 (endTest id t s) := by
  unfold endTest
  with_reducible repeat' (first
    | assumption | apply leaveTest_keeps | exact sub_of (by assumption) (by decide)
    | refine keeps_lit (by assumption) ?_)

theorem interruptTests_keeps {W : Nat} {q0 : State} (p : Nat × Nat → Bool) (s : State) (hk : Keeps W q0 s) (hW : Sub 0x29000069 W) : Keeps W q0 (interruptTests p s) := by
  unfold interruptTests
  with_reducible repeat' (first
    | assumption | apply endTest_keeps | exact sub_of (by assumption) (by decide) | refine foldl_keeps _ _ _ ?_ ?_
    | split | intro _ _ _)

theorem testEnd_keeps {W : Nat} {q0 : State} (id : Nat) (r : TestRep) (s : State) (hk : Keeps W q0 s)
    (hW : Sub 0x29000069 W := by first | assumption | exact sub_of (by assumption) (by decide)) :
    Keeps W q0 (testEnd id r s) := by
  unfold testEnd
  repeat' (first
    | with_reducible assumption | exact sub_of (by assumption) (by decide) | with_reducible apply endTest_keeps
    | with_reducible refine foldl_keeps _ _ _ ?_ ?_ | with_reducible refine foldl_fst_keeps _ _ _ ?_ ?_ | intro _ _ _
    | intro _ | with_reducible refine keeps_ite _ _ _ ?_ ?_ | split
    | with_reducible refine keeps_fst ?_ (by assumption) | with_reducible refine keeps_fst2 ?_ (by assumption)
    | simp only [])

theorem testStatus_keeps {W : Nat} {q0 : State} (i : Nat) (c : Bytes) (s : State) (hk : Keeps W q0 s) (hW : Sub
    0x1001001 W) : Keeps W q0 (testStatus i c s) := by
  unfold testStatus
  with_reducible repeat' (first
    | assumption | apply stageDone_keeps | exact sub_of (by assumption) (by decide) | split | simp only []
    | refine keeps_lit (by assumption) ?_)

theorem disarm_keeps {W : Nat} {q0 : State} (target unit : Nat) (s : State) (hk : Keeps W q0 s) (hW : Sub 0x2000520
    W) : Keeps W q0 (disarm target unit s) := by
  unfold disarm
  with_reducible repeat' (first
    | assumption | apply modPair_keeps | apply injectB_keeps | apply setSlice_keeps | apply modChan_keeps
    | exact sub_of (by assumption) (by decide) | split | exact twf_tset _ _ _ _ (by assumption) | exact twf_nil _
    | refine keeps_ok (W := W) ?_ (by assumption) | refine keeps_chan (W := W) ?_ _ (by assumption) | intro _ _ _
    | intro _ | refine keeps_lit (by assumption) ?_)

theorem testInject_keeps {W : Nat} {q0 : State} (i : Nat) (c : Bytes) (s : State) (hk : Keeps W q0 s) (hW : Sub
    0x2001521 W) : Keeps W q0 (testInject i c s) := by
  unfold testInject
  with_reducible repeat' (first
    | assumption | apply stageDone_keeps | apply disarm_keeps | apply modPair_keeps | apply injectB_keeps
    | exact sub_of (by assumption) (by decide) | split | simp only [] | refine keeps_lit (by assumption) ?_)

theorem llcInject_keeps {W : Nat} {q0 : State} (n kind : Nat) (s : State) (hk : Keeps W q0 s) (hW : Sub 0x2000100 W)
    : Keeps W q0 (llcInject n kind s) := by
  unfold llcInject
  with_reducible repeat' (first
    | assumption | apply setSlice_keeps | exact sub_of (by assumption) (by decide) | split
    | refine keeps_lit (by assumption) ?_)

theorem mcInject_keeps {W : Nat} {q0 : State} (c sub kind : Nat) (s : State) (hk : Keeps W q0 s) (hW : Sub 0x2000400
    W) : Keeps W q0 (mcInject c sub kind s) := by
  unfold mcInject
  with_reducible repeat' (first
    | assumption | apply modChan_keeps | exact sub_of (by assumption) (by decide) | split
    | exact twf_tset _ _ _ _ (by assumption) | exact twf_nil _ | refine keeps_ok (W := W) ?_ (by assumption)
    | refine keeps_chan (W := W) ?_ _ (by assumption) | intro _ _ _ | intro _ | refine keeps_lit (by assumption) ?_)

theorem injectionExpiry_keeps {W : Nat} {q0 : State} (target unit : Nat) (s : State) (hk : Keeps W q0 s) (hW : Sub
    0x2000520 W) : Keeps W q0 (injectionExpiry target unit s) := by
  unfold injectionExpiry
  with_reducible repeat' (first | assumption | apply disarm_keeps | exact sub_of (by assumption) (by decide) | split)

theorem loopbackFollow_keeps {W : Nat} {q0 : State} (k : Nat) (s : State) (hk : Keeps W q0 s) (hW : Sub 0x10001 W) :
    Keeps W q0 (loopbackFollow k s) := by
  unfold loopbackFollow
  with_reducible repeat' (first
    | assumption | apply wr_keeps | apply modPort_keeps | exact sub_of (by assumption) (by decide) | split)

theorem followStop_keeps {W : Nat} {q0 : State} (k : Nat) (s : State) (hk : Keeps W q0 s) (hW : Sub 0x10001 W) :
    Keeps W q0 (followStop k s) := by
  unfold followStop
  with_reducible repeat' (first | assumption | apply bringUp_keeps | exact sub_of (by assumption) (by decide) | split)

/-! ## Power -/

theorem setPower_keeps {W : Nat} {q0 : State} (p : Power) (s : State) (hk : Keeps W q0 s) (hW : Sub 0x4000000 W) :
    Keeps W q0 (setPower p s) := by
  unfold setPower
  with_reducible repeat' (first
    | assumption | exact sub_of (by assumption) (by decide) | refine keeps_lit (by assumption) ?_)

theorem takeReading_keeps {W : Nat} {q0 : State} (b : Nat) (s : State) (e : Nat × Int) (hk : Keeps W q0 s) (hW : Sub
    0x82003 W) : Keeps W q0 (takeReading b s e) := by
  unfold takeReading
  with_reducible repeat' (first
    | assumption | apply recContained_keeps | exact sub_of (by assumption) (by decide) | split | simp only []
    | refine keeps_lit (by assumption) ?_)

theorem thermRegs_keeps {W : Nat} {q0 : State} (b : Nat) (s : State) (hk : Keeps W q0 s) (hW : Sub 0x82001 W) : Keeps
    W q0 (thermRegs b s) := by
  unfold thermRegs
  with_reducible repeat' (first
    | assumption | apply wr_keeps | apply recContained_keeps | exact sub_of (by assumption) (by decide)
    | refine foldl_keeps _ _ _ ?_ ?_ | split | intro _ _ _)

theorem clockNotice_keeps {W : Nat} {q0 : State} (p : Nat) (s : State) (hk : Keeps W q0 s) (hW : Sub 0x1800 W) :
    Keeps W q0 (clockNotice p s) := by
  unfold clockNotice
  with_reducible repeat' (first
    | assumption | apply sealNotice_keeps | exact sub_of (by assumption) (by decide)
    | refine foldl_keeps _ _ _ ?_ ?_ | split | intro _ _ _)

theorem setClock_keeps {W : Nat} {q0 : State} (capS capR : Nat) (gated : List Nat) (s : State) (p : Nat) (hk : Keeps
    W q0 s)
    (hW : Sub 0x1821 W := by first | assumption | exact sub_of (by assumption) (by decide)) :
    Keeps W q0 (setClock capS capR gated s p) := by
  unfold setClock
  repeat' (first
    | with_reducible assumption | exact sub_of (by assumption) (by decide) | with_reducible apply wr_keeps
    | with_reducible apply bump_keeps | with_reducible apply modPair_keeps | with_reducible apply clockNotice_keeps
    | with_reducible refine foldl_keeps _ _ _ ?_ ?_ | with_reducible refine foldl_fst_keeps _ _ _ ?_ ?_ | intro _ _ _
    | intro _ | with_reducible refine keeps_ite _ _ _ ?_ ?_ | split
    | with_reducible refine keeps_fst ?_ (by assumption) | with_reducible refine keeps_fst2 ?_ (by assumption)
    | simp only [])

theorem clockBeat_keeps {W : Nat} {q0 : State} (inp : BeatIn) (s : State) (hk : Keeps W q0 s)
    (hW : Sub 0x1821 W := by first | assumption | exact sub_of (by assumption) (by decide)) :
    Keeps W q0 (clockBeat inp s) := by
  unfold clockBeat
  repeat' (first
    | with_reducible assumption | exact sub_of (by assumption) (by decide) | with_reducible apply wr_keeps
    | with_reducible apply bump_keeps | with_reducible apply wrB_keeps | with_reducible apply setClock_keeps
    | with_reducible refine foldl_keeps _ _ _ ?_ ?_ | with_reducible refine foldl_fst_keeps _ _ _ ?_ ?_ | intro _ _ _
    | intro _ | with_reducible refine keeps_ite _ _ _ ?_ ?_ | split
    | with_reducible refine keeps_fst ?_ (by assumption) | with_reducible refine keeps_fst2 ?_ (by assumption)
    | simp only [])

theorem halve_keeps {W : Nat} {q0 : State} (s : State) (p : Nat) (hk : Keeps W q0 s) (hW : Sub 0x21 W) : Keeps W q0
    (halve s p) := by
  unfold halve
  with_reducible repeat' (first
    | assumption | apply wr_keeps | apply modPair_keeps | exact sub_of (by assumption) (by decide) | split)

theorem inputLimit_keeps {W : Nat} {q0 : State} (iin ns : Nat) (s : State) (hk : Keeps W q0 s) (hW : Sub 0x21 W) :
    Keeps W q0 (inputLimit iin ns s) := by
  unfold inputLimit
  with_reducible repeat' (first
    | assumption | apply bump_keeps | apply halve_keeps | exact sub_of (by assumption) (by decide)
    | refine foldl_keeps _ _ _ ?_ ?_ | split | simp only [] | intro _ _ _)

theorem thermalHalving_keeps {W : Nat} {q0 : State} (p : Nat) (degC : Int) (s : State) (hk : Keeps W q0 s) (hW : Sub
    0x21 W) : Keeps W q0 (thermalHalving p degC s) := by
  unfold thermalHalving
  with_reducible repeat' (first
    | assumption | apply bump_keeps | apply halve_keeps | exact sub_of (by assumption) (by decide) | split
    | simp only [])

theorem countIdle_keeps {W : Nat} {q0 : State} (s : State) (p : Nat) (hk : Keeps W q0 s) (hW : Sub 0x20 W) : Keeps W
    q0 (countIdle s p) := by
  unfold countIdle
  with_reducible repeat' (first | assumption | apply modPair_keeps)

theorem gateStart_keeps {W : Nat} {q0 : State} (p : Nat) (s : State) (hk : Keeps W q0 s) (hW : Sub 0x20 W) : Keeps W
    q0 (gateStart p s) := by
  unfold gateStart
  with_reducible repeat' (first | assumption | apply modPair_keeps | exact sub_of (by assumption) (by decide) | split)

theorem gateDone_keeps {W : Nat} {q0 : State} (p : Nat) (s : State) (hk : Keeps W q0 s)
    (hW : Sub 0x280BFD39 W := by first | assumption | exact sub_of (by assumption) (by decide)) :
    Keeps W q0 (gateDone p s) := by
  unfold gateDone
  repeat' (first
    | with_reducible assumption | exact sub_of (by assumption) (by decide)
    | with_reducible exact twf_tset _ _ _ _ (by assumption)
    | with_reducible refine keeps_chan (W := W) ?_ _ (by assumption) | with_reducible exact twf_nil _
    | with_reducible refine keeps_ok (W := W) ?_ (by assumption) | with_reducible apply addDue_keeps
    | with_reducible apply modPair_keeps | with_reducible apply drainTrips_keeps
    | with_reducible apply drainCore_keeps | with_reducible refine foldl_keeps _ _ _ ?_ ?_
    | with_reducible refine foldl_fst_keeps _ _ _ ?_ ?_ | intro _ _ _ | intro _
    | with_reducible refine keeps_ite _ _ _ ?_ ?_ | split | with_reducible refine keeps_fst ?_ (by assumption)
    | with_reducible refine keeps_fst2 ?_ (by assumption) | simp only [])

theorem judgeDrowse_keeps {W : Nat} {q0 : State} (s : State) (hk : Keeps W q0 s) (hW : Sub 0x1 W) : Keeps W q0
    (judgeDrowse s) := by
  unfold judgeDrowse
  with_reducible repeat' (first
    | assumption | apply wr_keeps | exact sub_of (by assumption) (by decide) | split | simp only [])

theorem gateAbandon_keeps {W : Nat} {q0 : State} (s : State) (p : Nat) (hk : Keeps W q0 s) (hW : Sub 0x20 W) : Keeps
    W q0 (gateAbandon s p) := by
  unfold gateAbandon
  with_reducible repeat' (first | assumption | apply modPair_keeps | exact sub_of (by assumption) (by decide) | split)

theorem gatePair_keeps {W : Nat} {q0 : State} (p : Nat) (s : State) (hk : Keeps W q0 s) (hW : Sub 0x8000009 W) :
    Keeps W q0 (gatePair p s) := by
  unfold gatePair
  with_reducible repeat' (first
    | assumption | apply addDue_keeps | apply gatePair_keeps | apply setHart_keeps | apply judgeDrowse_keeps
    | apply wr_keeps | exact sub_of (by assumption) (by decide) | refine foldl_keeps _ _ _ ?_ ?_ | split
    | intro _ _ _)

theorem gatedWake_keeps {W : Nat} {q0 : State} (p : Nat) (s : State) (hk : Keeps W q0 s) (hW : Sub 0x8000020 W) :
    Keeps W q0 (gatedWake p s) := by
  unfold gatedWake
  with_reducible repeat' (first
    | assumption | apply addDue_keeps | apply ungate_keeps | apply modPair_keeps
    | exact sub_of (by assumption) (by decide) | split)

theorem ungate_keeps {W : Nat} {q0 : State} (p : Nat) (s : State) (hk : Keeps W q0 s)
    (hW : Sub 0x8000039 W := by first | assumption | exact sub_of (by assumption) (by decide)) :
    Keeps W q0 (ungate p s) := by
  unfold ungate
  repeat' (first
    | with_reducible assumption | exact sub_of (by assumption) (by decide) | with_reducible apply addDue_keeps
    | with_reducible apply setHart_keeps | with_reducible apply modPair_keeps | with_reducible apply rekey_keeps
    | with_reducible apply freshCores_keeps | with_reducible apply wakeHart_keeps
    | with_reducible apply judgeDrowse_keeps | with_reducible refine foldl_keeps _ _ _ ?_ ?_
    | with_reducible refine foldl_fst_keeps _ _ _ ?_ ?_ | intro _ _ _ | intro _
    | with_reducible refine keeps_ite _ _ _ ?_ ?_ | split | with_reducible refine keeps_fst ?_ (by assumption)
    | with_reducible refine keeps_fst2 ?_ (by assumption) | simp only [])

theorem beginSleep_keeps {W : Nat} {q0 : State} (mbx : Option Nat) (s : State) (hk : Keeps W q0 s) (hW : Sub
    0x4000001 W) : Keeps W q0 (beginSleep mbx s) := by
  unfold beginSleep
  with_reducible repeat' (first
    | assumption | apply wr_keeps | apply setPower_keeps | exact sub_of (by assumption) (by decide))

theorem powerDormant_keeps {W : Nat} {q0 : State} (i : Nat) (x_ : Bytes) (s : State) (hk : Keeps W q0 s) (hW : Sub
    0x4001001 W) : Keeps W q0 (powerDormant i x_ s) := by
  unfold powerDormant
  with_reducible repeat' (first
    | assumption | apply stageDone_keeps | apply beginSleep_keeps | exact sub_of (by assumption) (by decide)
    | split | simp only [])

theorem idleExpiry_keeps {W : Nat} {q0 : State} (s : State) (hk : Keeps W q0 s) (hW : Sub 0x4000001 W) : Keeps W q0
    (idleExpiry s) := by
  unfold idleExpiry
  with_reducible repeat' (first
    | assumption | apply beginSleep_keeps | exact sub_of (by assumption) (by decide) | split)

theorem sleepRequest_keeps {W : Nat} {q0 : State} (s : State) (hk : Keeps W q0 s)
    (hW : Sub 0x3D0FFD7D W := by first | assumption | exact sub_of (by assumption) (by decide)) :
    Keeps W q0 (sleepRequest s) := by
  unfold sleepRequest
  repeat' (first
    | with_reducible assumption | exact sub_of (by assumption) (by decide)
    | with_reducible exact twf_tset _ _ _ _ (by assumption)
    | with_reducible refine keeps_chan (W := W) ?_ _ (by assumption) | with_reducible exact twf_nil _
    | with_reducible refine keeps_ok (W := W) ?_ (by assumption) | with_reducible apply wr_keeps
    | with_reducible apply setHart_keeps | with_reducible apply modGroup_keeps | with_reducible apply modPort_keeps
    | with_reducible apply takeRole_keeps | with_reducible apply showIsolated_keeps
    | with_reducible apply linkFailed_keeps | with_reducible apply interruptTests_keeps
    | with_reducible apply setPower_keeps | with_reducible refine foldl_keeps _ _ _ ?_ ?_
    | with_reducible refine foldl_fst_keeps _ _ _ ?_ ?_ | intro _ _ _ | intro _
    | with_reducible refine keeps_ite _ _ _ ?_ ?_ | split | with_reducible refine keeps_fst ?_ (by assumption)
    | with_reducible refine keeps_fst2 ?_ (by assumption) | simp only [])

theorem retakePort_keeps {W : Nat} {q0 : State} (s : State) (g : Nat) (hk : Keeps W q0 s) (hW : Sub 0x300FFD39 W) :
    Keeps W q0 (retakePort s g) := by
  unfold retakePort
  with_reducible repeat' (first
    | assumption | apply takeBif_keeps | apply modGroup_keeps | apply takeRole_keeps
    | exact sub_of (by assumption) (by decide) | refine foldl_keeps _ _ _ ?_ ?_ | split | intro _ _ _)

theorem returnFab_keeps {W : Nat} {q0 : State} (s : State) (k : Nat) (hk : Keeps W q0 s) (hW : Sub 0x4010001 W) :
    Keeps W q0 (returnFab s k) := by
  unfold returnFab
  with_reducible repeat' (first
    | assumption | apply bringUp_keeps | apply modPort_keeps | apply setPower_keeps
    | exact sub_of (by assumption) (by decide) | split)

theorem resumeHarts_keeps {W : Nat} {q0 : State} (s : State) (hk : Keeps W q0 s) (hW : Sub 0x9 W) : Keeps W q0
    (resumeHarts s) := by
  unfold resumeHarts
  with_reducible repeat' (first
    | assumption | apply wakeHart_keeps | apply setHart_keeps | exact sub_of (by assumption) (by decide)
    | refine foldl_keeps _ _ _ ?_ ?_ | intro _ _ _)

theorem declineSleep_keeps {W : Nat} {q0 : State} (s : State) (hk : Keeps W q0 s) (hW : Sub 0x340FFD39 W) : Keeps W
    q0 (declineSleep s) := by
  unfold declineSleep
  with_reducible repeat' (first
    | assumption | apply retakePort_keeps | apply resumeHarts_keeps | apply returnFab_keeps | apply bump_keeps
    | apply wr_keeps | apply setPower_keeps | apply stageDone_keeps | exact sub_of (by assumption) (by decide)
    | refine foldl_keeps _ _ _ ?_ ?_ | split | simp only [] | intro _ _ _)

theorem emptySlice_keeps {W : Nat} {q0 : State} (s : State) (n : Nat) (hk : Keeps W q0 s)
    (hW : Sub 0x200BFD19 W := by first | assumption | exact sub_of (by assumption) (by decide)) :
    Keeps W q0 (emptySlice s n) := by
  unfold emptySlice
  repeat' (first
    | with_reducible assumption | exact sub_of (by assumption) (by decide)
    | with_reducible exact twf_tset _ _ _ _ (by assumption)
    | with_reducible refine keeps_chan (W := W) ?_ _ (by assumption) | with_reducible exact twf_nil _
    | with_reducible refine keeps_ok (W := W) ?_ (by assumption) | with_reducible apply putSlice_keeps
    | with_reducible apply dropArr_keeps | with_reducible apply cleanLine_keeps
    | with_reducible refine foldl_keeps _ _ _ ?_ ?_ | with_reducible refine foldl_fst_keeps _ _ _ ?_ ?_ | intro _ _ _
    | intro _ | with_reducible refine keeps_ite _ _ _ ?_ ?_ | split
    | with_reducible refine keeps_fst ?_ (by assumption) | with_reducible refine keeps_fst2 ?_ (by assumption)
    | simp only [])

theorem drainsDone_keeps {W : Nat} {q0 : State} (subNs phase : Nat) (s : State) (hk : Keeps W q0 s)
    (hW : Sub 0x240BFD1D W := by first | assumption | exact sub_of (by assumption) (by decide)) :
    Keeps W q0 (drainsDone subNs phase s) := by
  unfold drainsDone
  repeat' (first
    | with_reducible assumption | exact sub_of (by assumption) (by decide)
    | with_reducible exact twf_tset _ _ _ _ (by assumption)
    | with_reducible refine keeps_chan (W := W) ?_ _ (by assumption) | with_reducible exact twf_nil _
    | with_reducible refine keeps_ok (W := W) ?_ (by assumption) | with_reducible apply wr_keeps
    | with_reducible apply freeNext_keeps | with_reducible apply setHart_keeps | with_reducible apply setTime_keeps
    | with_reducible apply selfRefreshEnter_keeps | with_reducible apply drainCore_keeps
    | with_reducible apply setDomain_keeps | with_reducible apply setPower_keeps
    | with_reducible apply emptySlice_keeps | with_reducible refine foldl_keeps _ _ _ ?_ ?_
    | with_reducible refine foldl_fst_keeps _ _ _ ?_ ?_ | intro _ _ _ | intro _
    | with_reducible refine keeps_ite _ _ _ ?_ ?_ | split | with_reducible refine keeps_fst ?_ (by assumption)
    | with_reducible refine keeps_fst2 ?_ (by assumption) | simp only [])

theorem wakeMatch_keeps {W : Nat} {q0 : State} (tile addr : Nat) (s : State) (hk : Keeps W q0 s) (hW : Sub 0x4000001
    W) : Keeps W q0 (wakeMatch tile addr s) := by
  unfold wakeMatch
  with_reducible repeat' (first
    | assumption | apply wr_keeps | apply setPower_keeps | exact sub_of (by assumption) (by decide) | split)

theorem restoreTime_keeps {W : Nat} {q0 : State} (interval : Nat) (refA refB : Bool) (s : State) (hk : Keeps W q0 s)
    (hW : Sub 0x5 W) : Keeps W q0 (restoreTime interval refA refB s) := by
  unfold restoreTime
  with_reducible repeat' (first
    | assumption | apply wrB_keeps | apply wr_keeps | apply bump_keeps | apply setTime_keeps
    | exact sub_of (by assumption) (by decide))

theorem wakeReference_keeps {W : Nat} {q0 : State} (ticks phase : Nat) (refA refB : Bool) (s : State) (hk : Keeps W
    q0 s)
    (hW : Sub 0xC000005 W := by first | assumption | exact sub_of (by assumption) (by decide)) :
    Keeps W q0 (wakeReference ticks phase refA refB s) := by
  unfold wakeReference
  repeat' (first
    | with_reducible assumption | exact sub_of (by assumption) (by decide) | with_reducible apply wr_keeps
    | with_reducible apply addDue_keeps | with_reducible apply setPower_keeps | with_reducible apply restoreTime_keeps
    | with_reducible refine foldl_keeps _ _ _ ?_ ?_ | with_reducible refine foldl_fst_keeps _ _ _ ?_ ?_ | intro _ _ _
    | intro _ | with_reducible refine keeps_ite _ _ _ ?_ ?_ | split
    | with_reducible refine keeps_fst ?_ (by assumption) | with_reducible refine keeps_fst2 ?_ (by assumption)
    | simp only [])

theorem wakeComplete_keeps {W : Nat} {q0 : State} (badImages : List Nat) (wakeUs : Nat) (s : State) (hk : Keeps W q0
    s)
    (hW : Sub 0xC000001 W := by first | assumption | exact sub_of (by assumption) (by decide)) :
    Keeps W q0 (wakeComplete badImages wakeUs s) := by
  unfold wakeComplete
  repeat' (first
    | with_reducible assumption | exact sub_of (by assumption) (by decide) | with_reducible apply wr_keeps
    | with_reducible apply addDue_keeps | with_reducible apply setPower_keeps
    | with_reducible refine foldl_keeps _ _ _ ?_ ?_ | with_reducible refine foldl_fst_keeps _ _ _ ?_ ?_ | intro _ _ _
    | intro _ | with_reducible refine keeps_ite _ _ _ ?_ ?_ | split
    | with_reducible refine keeps_fst ?_ (by assumption) | with_reducible refine keeps_fst2 ?_ (by assumption)
    | simp only [])

theorem lostImage_keeps {W : Nat} {q0 : State} (s : State) (h : Nat) (hk : Keeps W q0 s) (hW : Sub 0x883009 W) :
    Keeps W q0 (lostImage s h) := by
  unfold lostImage
  with_reducible repeat' (first
    | assumption | apply event_keeps | apply recVisible_keeps | apply setHart_keeps
    | exact sub_of (by assumption) (by decide))

theorem wakeHarts_keeps {W : Nat} {q0 : State} (s : State) (hk : Keeps W q0 s) (hW : Sub 0x4883019 W) : Keeps W q0
    (wakeHarts s) := by
  unfold wakeHarts
  with_reducible repeat' (first
    | assumption | apply coldPred_keeps | apply lostImage_keeps | apply resumeHarts_keeps | apply setPower_keeps
    | apply wr_keeps | apply stageDone_keeps | exact sub_of (by assumption) (by decide)
    | refine foldl_keeps _ _ _ ?_ ?_ | split | simp only [] | intro _ _ _)

theorem sleepBoundary_keeps {W : Nat} {q0 : State} (s : State) (hk : Keeps W q0 s) (hW : Sub 0x348FFD39 W) : Keeps W
    q0 (sleepBoundary s) := by
  unfold sleepBoundary
  with_reducible repeat' (first
    | assumption | apply setPower_keeps | apply declineSleep_keeps | apply wakeHarts_keeps
    | exact sub_of (by assumption) (by decide) | split | simp only [])

theorem idleBeat_keeps {W : Nat} {q0 : State} (s : State) (hk : Keeps W q0 s) (hW : Sub 0x1 W) : Keeps W q0 (idleBeat
    s) := by
  unfold idleBeat
  with_reducible repeat' (first | assumption | apply wr_keeps | exact sub_of (by assumption) (by decide) | split)

theorem releasePads_keeps {W : Nat} {q0 : State} (mask : Nat) (s : State) (hk : Keeps W q0 s) (hW : Sub 0x340FFD39 W)
    : Keeps W q0 (releasePads mask s) := by
  unfold releasePads
  with_reducible repeat' (first
    | assumption | apply wr_keeps | apply retakePort_keeps | apply returnFab_keeps
    | exact sub_of (by assumption) (by decide) | refine foldl_keeps _ _ _ ?_ ?_ | intro _ _ _)

theorem padsWrite_keeps {W : Nat} {q0 : State} (mask : Nat) (s : State) (hk : Keeps W q0 s) (hW : Sub 0x8000000 W) :
    Keeps W q0 (padsWrite mask s) := by
  unfold padsWrite
  with_reducible repeat' (first | assumption | apply addDue_keeps)

theorem powerStatus_keeps {W : Nat} {q0 : State} (i : Nat) (x_ : Bytes) (s : State) (hk : Keeps W q0 s) (hW : Sub
    0x1001 W) : Keeps W q0 (powerStatus i x_ s) := by
  unfold powerStatus
  with_reducible repeat' (first | assumption | apply stageDone_keeps)

theorem powerState_keeps {W : Nat} {q0 : State} (i : Nat) (c : Bytes) (s : State) (hk : Keeps W q0 s) (hW : Sub
    0x4001001 W) : Keeps W q0 (powerState i c s) := by
  unfold powerState
  with_reducible repeat' (first
    | assumption | apply wr_keeps | apply setPower_keeps | apply stageDone_keeps
    | exact sub_of (by assumption) (by decide) | split | simp only [])

theorem closeMarker_keeps {W : Nat} {q0 : State} (okA okB : Bool) (s : State) (hk : Keeps W q0 s) (hW : Sub 0xC800000
    W) : Keeps W q0 (closeMarker okA okB s) := by
  unfold closeMarker
  with_reducible repeat' (first
    | assumption | apply addDue_keeps | apply setPower_keeps | exact sub_of (by assumption) (by decide) | split
    | refine keeps_lit (by assumption) ?_)

theorem powerDomain_keeps {W : Nat} {q0 : State} (i : Nat) (c : Bytes) (s : State) (hk : Keeps W q0 s) (hW : Sub
    0x10001001 W) : Keeps W q0 (powerDomain i c s) := by
  unfold powerDomain
  with_reducible repeat' (first
    | assumption | apply addStep_keeps | apply stageDone_keeps | exact sub_of (by assumption) (by decide) | split
    | simp only [])

theorem domainApply_keeps {W : Nat} {q0 : State} (i d a : Nat) (s : State) (hk : Keeps W q0 s)
    (hW : Sub 0x30001001 W := by first | assumption | exact sub_of (by assumption) (by decide)) :
    Keeps W q0 (domainApply i d a s) := by
  unfold domainApply
  repeat' (first
    | with_reducible assumption | exact sub_of (by assumption) (by decide) | with_reducible apply wr_keeps
    | with_reducible apply wrB_keeps | with_reducible apply addStep_keeps | with_reducible apply stageDone_keeps
    | with_reducible apply switchDomain_keeps | with_reducible refine foldl_keeps _ _ _ ?_ ?_
    | with_reducible refine foldl_fst_keeps _ _ _ ?_ ?_ | intro _ _ _ | intro _
    | with_reducible refine keeps_ite _ _ _ ?_ ?_ | split | with_reducible refine keeps_fst ?_ (by assumption)
    | with_reducible refine keeps_fst2 ?_ (by assumption) | simp only [])

theorem powerIdle_keeps {W : Nat} {q0 : State} (i : Nat) (c : Bytes) (s : State) (hk : Keeps W q0 s) (hW : Sub 0x1001
    W) : Keeps W q0 (powerIdle i c s) := by
  unfold powerIdle
  with_reducible repeat' (first
    | assumption | apply stageDone_keeps | apply wr_keeps | exact sub_of (by assumption) (by decide))

theorem powerTdp_keeps {W : Nat} {q0 : State} (i : Nat) (c : Bytes) (s : State) (hk : Keeps W q0 s) (hW : Sub 0x1001
    W) : Keeps W q0 (powerTdp i c s) := by
  unfold powerTdp
  with_reducible repeat' (first
    | assumption | apply wr_keeps | apply stageDone_keeps | exact sub_of (by assumption) (by decide))

theorem powerPads_keeps {W : Nat} {q0 : State} (i : Nat) (c : Bytes) (s : State) (hk : Keeps W q0 s) (hW : Sub
    0x8001001 W) : Keeps W q0 (powerPads i c s) := by
  unfold powerPads
  with_reducible repeat' (first
    | assumption | apply stageDone_keeps | apply addDue_keeps | exact sub_of (by assumption) (by decide))

/-! ## Window -/

theorem pairStore_keeps {W : Nat} {q0 : State} (p o w m : Nat) (s : State) (hk : Keeps W q0 s)
    (hW : Sub 0x8000021 W := by first | assumption | exact sub_of (by assumption) (by decide)) :
    Keeps W q0 (pairStore p o w m s) := by
  unfold pairStore
  repeat' (first
    | with_reducible assumption | exact sub_of (by assumption) (by decide) | with_reducible apply addDue_keeps
    | with_reducible apply injectB_keeps | with_reducible refine foldl_keeps _ _ _ ?_ ?_
    | with_reducible refine foldl_fst_keeps _ _ _ ?_ ?_ | intro _ _ _ | intro _
    | with_reducible refine keeps_ite _ _ _ ?_ ?_ | split | with_reducible refine keeps_fst ?_ (by assumption)
    | with_reducible refine keeps_fst2 ?_ (by assumption) | simp only [])

theorem llcInjectStore_keeps {W : Nat} {q0 : State} (n w m : Nat) (s : State) (hk : Keeps W q0 s) (hW : Sub 0x2000100
    W) : Keeps W q0 (llcInjectStore n w m s) := by
  unfold llcInjectStore
  with_reducible repeat' (first
    | assumption | apply llcInject_keeps | exact sub_of (by assumption) (by decide)
    | refine foldl_keeps _ _ _ ?_ ?_ | split | intro _ _ _)

theorem sealBlockStore_keeps {W : Nat} {q0 : State} (c e w m : Nat) (s : State) (hk : Keeps W q0 s)
    (hW : Sub 0x400 W := by first | assumption | exact sub_of (by assumption) (by decide)) :
    Keeps W q0 (sealBlockStore c e w m s) := by
  unfold sealBlockStore
  repeat' (first
    | with_reducible assumption | exact sub_of (by assumption) (by decide)
    | with_reducible exact twf_tset _ _ _ _ (by assumption)
    | with_reducible refine keeps_chan (W := W) ?_ _ (by assumption) | with_reducible exact twf_nil _
    | with_reducible refine keeps_ok (W := W) ?_ (by assumption) | with_reducible apply modChan_keeps
    | with_reducible refine foldl_keeps _ _ _ ?_ ?_ | with_reducible refine foldl_fst_keeps _ _ _ ?_ ?_ | intro _ _ _
    | intro _ | with_reducible refine keeps_ite _ _ _ ?_ ?_ | split
    | with_reducible refine keeps_fst ?_ (by assumption) | with_reducible refine keeps_fst2 ?_ (by assumption)
    | simp only [])

theorem mcStore_keeps {W : Nat} {q0 : State} (off w m : Nat) (s : State) (hk : Keeps W q0 s)
    (hW : Sub 0x8000401 W := by first | assumption | exact sub_of (by assumption) (by decide)) :
    Keeps W q0 (mcStore off w m s) := by
  unfold mcStore
  repeat' (first
    | with_reducible assumption | exact sub_of (by assumption) (by decide)
    | with_reducible exact twf_tset _ _ _ _ (by assumption)
    | with_reducible refine keeps_chan (W := W) ?_ _ (by assumption) | with_reducible exact twf_nil _
    | with_reducible refine keeps_ok (W := W) ?_ (by assumption) | with_reducible apply wr_keeps
    | with_reducible apply addDue_keeps | with_reducible apply fieldStore_keeps | with_reducible apply modChan_keeps
    | with_reducible refine foldl_keeps _ _ _ ?_ ?_ | with_reducible refine foldl_fst_keeps _ _ _ ?_ ?_ | intro _ _ _
    | intro _ | with_reducible refine keeps_ite _ _ _ ?_ ?_ | split
    | with_reducible refine keeps_fst ?_ (by assumption) | with_reducible refine keeps_fst2 ?_ (by assumption)
    | simp only [])

theorem regStore_keeps {W : Nat} {q0 : State} (off w m : Nat) (s : State) (hk : Keeps W q0 s)
    (hW : Sub 0x2A0FFF39 W := by first | assumption | exact sub_of (by assumption) (by decide)) :
    Keeps W q0 (regStore off w m s) := by
  unfold regStore
  repeat' (first
    | with_reducible assumption | exact sub_of (by assumption) (by decide)
    | with_reducible exact twf_tset _ _ _ _ (by assumption)
    | with_reducible refine keeps_chan (W := W) ?_ _ (by assumption) | with_reducible exact twf_nil _
    | with_reducible refine keeps_ok (W := W) ?_ (by assumption) | with_reducible apply addDue_keeps
    | with_reducible apply fieldStore_keeps | with_reducible apply aoSource_keeps
    | with_reducible apply applyPart_keeps | with_reducible apply dmaStore_keeps | with_reducible apply mcInject_keeps
    | with_reducible apply padsWrite_keeps | with_reducible apply pairStore_keeps
    | with_reducible apply llcInjectStore_keeps | with_reducible apply sealBlockStore_keeps
    | with_reducible apply mcStore_keeps | with_reducible refine foldl_keeps _ _ _ ?_ ?_
    | with_reducible refine foldl_fst_keeps _ _ _ ?_ ?_ | intro _ _ _ | intro _
    | with_reducible refine keeps_ite _ _ _ ?_ ?_ | split | with_reducible refine keeps_fst ?_ (by assumption)
    | with_reducible refine keeps_fst2 ?_ (by assumption) | simp only [])

theorem clerkRead_keeps {W : Nat} {q0 : State} (asr : Bool) (off size : Nat) (s : State) (hk : Keeps W q0 s)
    (hW : Sub 0x82001 W := by first | assumption | exact sub_of (by assumption) (by decide)) :
    Keeps W q0 (clerkRead asr off size s).1 := by
  unfold clerkRead
  repeat' (first
    | with_reducible assumption | exact sub_of (by assumption) (by decide) | with_reducible apply refuseWindow_keeps
    | with_reducible refine foldl_keeps _ _ _ ?_ ?_ | with_reducible refine foldl_fst_keeps _ _ _ ?_ ?_ | intro _ _ _
    | intro _ | with_reducible refine keeps_ite _ _ _ ?_ ?_ | split
    | with_reducible refine keeps_fst ?_ (by assumption) | with_reducible refine keeps_fst2 ?_ (by assumption)
    | simp only [])

theorem pagePoke_keeps {W : Nat} {q0 : State} (i o size v : Nat) (s : State) (hk : Keeps W q0 s)
    (hW : Sub 0x81001 W := by first | assumption | exact sub_of (by assumption) (by decide)) :
    Keeps W q0 (pagePoke i o size v s) := by
  unfold pagePoke
  repeat' (first
    | with_reducible assumption | exact sub_of (by assumption) (by decide) | with_reducible apply setMbx_keeps
    | with_reducible apply pageWrite_keeps | with_reducible refine foldl_keeps _ _ _ ?_ ?_
    | with_reducible refine foldl_fst_keeps _ _ _ ?_ ?_ | intro _ _ _ | intro _
    | with_reducible refine keeps_ite _ _ _ ?_ ?_ | split | with_reducible refine keeps_fst ?_ (by assumption)
    | with_reducible refine keeps_fst2 ?_ (by assumption) | simp only [])

theorem clerkWrite_keeps {W : Nat} {q0 : State} (asr : Bool) (x off size v : Nat) (s : State) (hk : Keeps W q0 s)
    (hW : Sub 0x2A0FFF39 W := by first | assumption | exact sub_of (by assumption) (by decide)) :
    Keeps W q0 (clerkWrite asr x off size v s) := by
  unfold clerkWrite
  repeat' (first
    | with_reducible assumption | exact sub_of (by assumption) (by decide)
    | with_reducible exact twf_tset _ _ _ _ (by assumption)
    | with_reducible refine keeps_chan (W := W) ?_ _ (by assumption) | with_reducible exact twf_nil _
    | with_reducible refine keeps_ok (W := W) ?_ (by assumption) | with_reducible apply refuseWindow_keeps
    | with_reducible apply ecamWrite_keeps | with_reducible apply regStore_keeps | with_reducible apply pagePoke_keeps
    | with_reducible refine foldl_keeps _ _ _ ?_ ?_ | with_reducible refine foldl_fst_keeps _ _ _ ?_ ?_ | intro _ _ _
    | intro _ | with_reducible refine keeps_ite _ _ _ ?_ ?_ | split
    | with_reducible refine keeps_fst ?_ (by assumption) | with_reducible refine keeps_fst2 ?_ (by assumption)
    | simp only [])

/-! ## Clerk -/

theorem tick_keeps {W : Nat} {q0 : State} (c n : Nat) (s : State) (hk : Keeps W q0 s) (hW : Sub 0x1 W) : Keeps W q0
    (tick c n s) := by
  unfold tick
  with_reducible repeat' (first | assumption | apply wr_keeps)

theorem clkTrap_keeps {W : Nat} {q0 : State} (c code tval : Nat) (s : State) (hk : Keeps W q0 s) (hW : Sub 0x80001 W
    := by first | assumption | exact sub_of (by assumption) (by decide)) : Keeps W q0 (clkTrap c code tval s) := by
  unfold clkTrap
  with_reducible repeat' (first
    | assumption | apply wr_keeps | apply wrB_keeps | apply tick_keeps | apply setClk_keeps | apply load_keeps
    | exact sub_of (by assumption) (by decide) | split)

theorem clkIssue_keeps {W : Nat} {q0 : State} (c : Nat) (m : Nat → Bool) (f : Nat → ClkCore → State → State) (s :
    State) (h_f : ∀ a0 a1 a2, Keeps W q0 a2 → Keeps W q0 (f a0 a1 a2)) (hk : Keeps W q0 s) (hW : Sub 0x80001 W := by
    first | assumption | exact sub_of (by assumption) (by decide)) : Keeps W q0 (clkIssue c m f s) := by
  unfold clkIssue
  with_reducible repeat' (first
    | assumption | apply clkTrap_keeps | apply modClk_keeps | exact sub_of (by assumption) (by decide) | apply h_f
    | split | simp only [])

theorem complete_keeps {W : Nat} {q0 : State} (c cost : Nat) (res ld : Option (Nat × Nat)) (s : State) (hk : Keeps W
    q0 s) (hW : Sub 0x80001 W := by first | assumption | exact sub_of (by assumption) (by decide)) : Keeps W q0
    (complete c cost res ld s) := by
  unfold complete
  with_reducible repeat' (first
    | assumption | apply tick_keeps | apply modClk_keeps | apply load_keeps
    | exact sub_of (by assumption) (by decide))

theorem aluOp_keeps {W : Nat} {q0 : State} (c fn wd wa wb : Nat) (f : Nat → Nat → Nat) (s : State) (hk : Keeps W q0
    s) (hW : Sub 0x80001 W) : Keeps W q0 (aluOp c fn wd wa wb f s) := by
  unfold aluOp
  with_reducible repeat' (first
    | assumption | apply clkIssue_keeps | apply complete_keeps | exact sub_of (by assumption) (by decide)
    | intro _ _ _ | intro _)

theorem shiftOp_keeps {W : Nat} {q0 : State} (c fn wd wa sh : Nat) (f : Nat → Nat) (s : State) (hk : Keeps W q0 s)
    (hW : Sub 0x80001 W) : Keeps W q0 (shiftOp c fn wd wa sh f s) := by
  unfold shiftOp
  with_reducible repeat' (first
    | assumption | apply clkIssue_keeps | apply complete_keeps | exact sub_of (by assumption) (by decide)
    | intro _ _ _ | intro _)

theorem immOp_keeps {W : Nat} {q0 : State} (c op wd wa imm : Nat) (f : Nat → Nat) (s : State) (hk : Keeps W q0 s) (hW
    : Sub 0x80001 W) : Keeps W q0 (immOp c op wd wa imm f s) := by
  unfold immOp
  with_reducible repeat' (first
    | assumption | apply clkIssue_keeps | apply complete_keeps | exact sub_of (by assumption) (by decide)
    | intro _ _ _ | intro _)

theorem tossEvent_keeps {W : Nat} {q0 : State} (e : Nat) (s : State) (hk : Keeps W q0 s) (hW : Sub 0x80001 W) : Keeps
    W q0 (tossEvent e s) := by
  unfold tossEvent
  with_reducible repeat' (first
    | assumption | apply clkIrq_keeps | apply wr_keeps | exact sub_of (by assumption) (by decide)
    | refine foldl_keeps _ _ _ ?_ ?_ | intro _ _ _)

theorem claim_keeps {W : Nat} {q0 : State} (x v : Nat) (s : State) (hk : Keeps W q0 s) (hW : Sub 0xA82001 W) : Keeps
    W q0 (claim x v s) := by
  unfold claim
  with_reducible repeat' (first
    | assumption | apply wr_keeps | apply event_keeps | apply recContained_keeps | apply tossEvent_keeps
    | exact sub_of (by assumption) (by decide) | refine foldl_keeps _ _ _ ?_ ?_ | split | intro _ _ _ | intro _
    | refine keeps_lit (by assumption) ?_)

theorem sendIpi_keeps {W : Nat} {q0 : State} (c mask : Nat) (s : State) (hk : Keeps W q0 s) (hW : Sub 0x80001 W) :
    Keeps W q0 (sendIpi c mask s) := by
  unfold sendIpi
  with_reducible repeat' (first
    | assumption | apply clkIrq_keeps | exact sub_of (by assumption) (by decide) | refine foldl_keeps _ _ _ ?_ ?_
    | split | intro _ _ _)

theorem localStore_keeps {W : Nat} {q0 : State} (c o v : Nat) (s : State) (hk : Keeps W q0 s) (hW : Sub 0xA82001 W :=
    by first | assumption | exact sub_of (by assumption) (by decide)) : Keeps W q0 (localStore c o v s) := by
  unfold localStore
  with_reducible repeat' (first
    | assumption | apply sendIpi_keeps | apply claim_keeps | apply fieldStore_keeps
    | exact sub_of (by assumption) (by decide) | refine foldl_keeps _ _ _ ?_ ?_ | split | intro _ _ _)

theorem clkStore_keeps {W : Nat} {q0 : State} (c a n v : Nat) (s b : State) (hk : Keeps W q0 s) (hb : clkStore c a n
    v s = some b) (hW : Sub 0xE82001 W := by first | assumption | exact sub_of (by assumption) (by decide)) : Keeps W
    q0 b := by
  unfold clkStore at hb
  repeat' (split at hb)
  all_goals first
    | (cases hb; done)
    | (injection hb with hb; subst hb; first
        | with_reducible exact modClk_keeps _ _ _ hk (sub_of hW (by decide))
        | with_reducible exact localStore_keeps _ _ _ _ hk (sub_of hW (by decide))
        | exact keeps_lit hW hk
        | (split
           · exact hk
           · exact keeps_lit hW hk))

theorem loadOp_keeps {W : Nat} {q0 : State} (c op wd wa imm n : Nat) (f : Nat → Nat) (s : State) (hk : Keeps W q0 s)
    (hW : Sub 0x80001 W) : Keeps W q0 (loadOp c op wd wa imm n f s) := by
  unfold loadOp
  with_reducible repeat' (first
    | assumption | apply clkIssue_keeps | apply clkTrap_keeps | apply complete_keeps
    | exact sub_of (by assumption) (by decide) | split | simp only [] | intro _ _ _ | intro _)

theorem storeOp_keeps {W : Nat} {q0 : State} (c op ws wa imm n : Nat) (s : State) (hk : Keeps W q0 s) (hW : Sub
    0xE82001 W := by first | assumption | exact sub_of (by assumption) (by decide)) : Keeps W q0 (storeOp c op ws wa
    imm n s) := by
  unfold storeOp
  refine clkIssue_keeps _ _ _ _ (fun _ r a ha => ?_) hk
  dsimp only
  split
  · exact clkTrap_keeps _ _ _ _ ha
  · split
    · rename_i b hb
      exact complete_keeps _ _ _ _ _ (clkStore_keeps _ _ _ _ _ _ ha hb)
    · exact clkTrap_keeps _ _ _ _ ha

theorem resolve_keeps {W : Nat} {q0 : State} (c a target : Nat) (taken guess an : Bool) (res : Option (Nat × Nat))
    (cost : Nat) (s : State) (hk : Keeps W q0 s) (hW : Sub 0x80001 W) : Keeps W q0 (resolve c a target taken guess an
    res cost s) := by
  unfold resolve
  with_reducible repeat' (first
    | assumption | apply modClk_keeps | apply load_keeps | apply tick_keeps
    | exact sub_of (by assumption) (by decide))

theorem onBranch_keeps {W : Nat} {q0 : State} (c : Nat) (m : Nat → Bool) (f : Nat → ClkCore → State → State) (s :
    State) (h_f : ∀ a0 a1 a2, Keeps W q0 a2 → Keeps W q0 (f a0 a1 a2)) (hk : Keeps W q0 s) (hW : Sub 0x80001 W) :
    Keeps W q0 (onBranch c m f s) := by
  unfold onBranch
  with_reducible repeat' (first
    | assumption | apply clkIssue_keeps | apply clkTrap_keeps | exact sub_of (by assumption) (by decide)
    | apply h_f | split | intro _ _ _ | intro _)

theorem condBranch_keeps {W : Nat} {q0 : State} (c k wa wb an hi off : Nat) (s : State) (hk : Keeps W q0 s) (hW : Sub
    0x80001 W) : Keeps W q0 (condBranch c k wa wb an hi off s) := by
  unfold condBranch
  with_reducible repeat' (first
    | assumption | apply onBranch_keeps | apply resolve_keeps | exact sub_of (by assumption) (by decide)
    | intro _ _ _ | intro _)

theorem jumpOp_keeps {W : Nat} {q0 : State} (c op off : Nat) (link : Bool) (s : State) (hk : Keeps W q0 s) (hW : Sub
    0x80001 W) : Keeps W q0 (jumpOp c op off link s) := by
  unfold jumpOp
  with_reducible repeat' (first
    | assumption | apply onBranch_keeps | apply resolve_keeps | exact sub_of (by assumption) (by decide)
    | intro _ _ _ | intro _)

theorem jumpReg_keeps {W : Nat} {q0 : State} (c op wd wa imm : Nat) (gate : Bool) (s : State) (hk : Keeps W q0 s) (hW
    : Sub 0x480001 W) : Keeps W q0 (jumpReg c op wd wa imm gate s) := by
  unfold jumpReg
  with_reducible repeat' (first
    | assumption | apply onBranch_keeps | apply clkTrap_keeps | apply resolve_keeps
    | exact sub_of (by assumption) (by decide) | split | simp only [] | intro _ _ _ | intro _
    | refine keeps_lit (by assumption) ?_)

theorem showOutst_keeps {W : Nat} {q0 : State} (c : Nat) (s : State) (hk : Keeps W q0 s) (hW : Sub 0x1 W) : Keeps W
    q0 (showOutst c s) := by
  unfold showOutst
  with_reducible repeat' (first | assumption | apply wr_keeps)

theorem mgmtOp_keeps {W : Nat} {q0 : State} (c op wd wa imm n : Nat) (write : Bool) (s : State) (hk : Keeps W q0 s)
    (hW : Sub 0x80001 W) : Keeps W q0 (mgmtOp c op wd wa imm n write s) := by
  unfold mgmtOp
  with_reducible repeat' (first
    | assumption | apply clkIssue_keeps | apply clkTrap_keeps | apply showOutst_keeps | apply complete_keeps
    | apply modClk_keeps | exact sub_of (by assumption) (by decide) | split | simp only [] | intro _ _ _ | intro _)

theorem modCplx_keeps {W : Nat} {q0 : State} (x : Nat) (f : Complex → Complex) (s : State) (hk : Keeps W q0 s) (hW :
    Sub 0x100000 W) : Keeps W q0 (modCplx x f s) := by
  unfold modCplx
  with_reducible repeat' (first
    | assumption | exact sub_of (by assumption) (by decide) | refine keeps_lit (by assumption) ?_)

theorem commonStore_keeps {W : Nat} {q0 : State} (x o n v : Nat) (s : State) (hk : Keeps W q0 s) (hW : Sub 0x100000
    W) : Keeps W q0 (commonStore x o n v s) := by
  unfold commonStore
  with_reducible repeat' (first
    | assumption | apply modCplx_keeps | apply store_keeps | exact sub_of (by assumption) (by decide) | split)

theorem mgmtPerform_keeps {W : Nat} {q0 : State} (c : Nat) (q : MReq) (s : State) (hk : Keeps W q0 s)
    (hW : Sub 0x2A1FFF39 W := by first | assumption | exact sub_of (by assumption) (by decide)) :
    Keeps W q0 (mgmtPerform c q s).1 := by
  have hr := fun b o n => clerkRead_keeps b o n s hk (sub_of hW (by decide))
  have hw := fun b x o n v => clerkWrite_keeps b x o n v s hk (sub_of hW (by decide))
  have hs := fun x o n v => commonStore_keeps x o n v s hk (sub_of hW (by decide))
  have hm := fun x f => modCplx_keeps x f s hk (sub_of hW (by decide))
  unfold mgmtPerform
  dsimp only
  split
  · split
    · with_reducible exact hs _ _ _ _
    · exact hk
  · split
    · with_reducible exact hm _ _
    · with_reducible exact hm _ _
  · split
    · with_reducible exact hw _ _ _ _ _
    · with_reducible exact hr _ _ _

theorem mgmtDeliver_keeps {W : Nat} {q0 : State} (c : Nat) (q : MReq) (v : Nat) (s : State) (hk : Keeps W q0 s) (hW :
    Sub 0x80000 W) : Keeps W q0 (mgmtDeliver c q v s) := by
  unfold mgmtDeliver
  with_reducible repeat' (first | assumption | apply modClk_keeps | exact sub_of (by assumption) (by decide) | split)

theorem dropReq_keeps {W : Nat} {q0 : State} (c : Nat) (q : MReq) (s : State) (hk : Keeps W q0 s) (hW : Sub 0x80001
    W) : Keeps W q0 (dropReq c q s) := by
  unfold dropReq
  with_reducible repeat' (first
    | assumption | apply showOutst_keeps | apply modClk_keeps | exact sub_of (by assumption) (by decide))

theorem mgmtError_keeps {W : Nat} {q0 : State} (c : Nat) (q : MReq) (s : State) (hk : Keeps W q0 s) (hW : Sub 0x80001
    W) : Keeps W q0 (mgmtError c q s) := by
  unfold mgmtError
  with_reducible repeat' (first
    | assumption | apply mgmtDeliver_keeps | apply dropReq_keeps | apply wr_keeps
    | exact sub_of (by assumption) (by decide) | split)

theorem mgmtResponse_keeps {W : Nat} {q0 : State} (c region : Nat) (s : State) (hk : Keeps W q0 s) (hW : Sub 0x2A1FFF39 W) : Keeps W q0 (mgmtResponse c region s) := by
  unfold mgmtResponse
  with_reducible repeat' (first
    | assumption | apply mgmtError_keeps | apply mgmtPerform_keeps | apply dropReq_keeps | apply mgmtDeliver_keeps
    | exact sub_of (by assumption) (by decide) | split)

theorem mgmtTimeout_keeps {W : Nat} {q0 : State} (c region : Nat) (s : State) (hk : Keeps W q0 s) (hW : Sub 0x80001
    W) : Keeps W q0 (mgmtTimeout c region s) := by
  unfold mgmtTimeout
  with_reducible repeat' (first
    | assumption | apply mgmtError_keeps | exact sub_of (by assumption) (by decide) | split)

theorem sysOp_keeps {W : Nat} {q0 : State} (c fn cost : Nat) (f : State → State) (s : State) (h_f : ∀ a, Keeps W q0 a
    → Keeps W q0 (f a)) (hk : Keeps W q0 s) (hW : Sub 0x80001 W) : Keeps W q0 (sysOp c fn cost f s) := by
  unfold sysOp
  with_reducible repeat' (first
    | assumption | apply clkIssue_keeps | apply complete_keeps | exact sub_of (by assumption) (by decide)
    | apply h_f | intro _ _ _ | intro _)

theorem waitOp_keeps {W : Nat} {q0 : State} (c : Nat) (s : State) (hk : Keeps W q0 s) (hW : Sub 0x80001 W) : Keeps W
    q0 (waitOp c s) := by
  unfold waitOp
  with_reducible repeat' (first
    | assumption | apply clkIssue_keeps | apply modClk_keeps | apply complete_keeps
    | exact sub_of (by assumption) (by decide) | intro _ _ _ | intro _)

theorem eretOp_keeps {W : Nat} {q0 : State} (c : Nat) (s : State) (hk : Keeps W q0 s) (hW : Sub 0x80001 W) : Keeps W
    q0 (eretOp c s) := by
  unfold eretOp
  with_reducible repeat' (first
    | assumption | apply clkIssue_keeps | apply wr_keeps | apply load_keeps | apply tick_keeps | apply modClk_keeps
    | exact sub_of (by assumption) (by decide) | intro _ _ _ | intro _)

theorem msyncOp_keeps {W : Nat} {q0 : State} (c : Nat) (s : State) (hk : Keeps W q0 s) (hW : Sub 0x80001 W) : Keeps W
    q0 (msyncOp c s) := by
  unfold msyncOp
  with_reducible repeat' (first
    | assumption | apply clkIssue_keeps | apply clkTrap_keeps | apply complete_keeps
    | exact sub_of (by assumption) (by decide) | split | intro _ _ _ | intro _)

theorem checkIn_keeps {W : Nat} {q0 : State} (c : Nat) (s : State) (hk : Keeps W q0 s) (hW : Sub 0x400001 W) : Keeps
    W q0 (checkIn c s) := by
  unfold checkIn
  with_reducible repeat' (first
    | assumption | apply wr_keeps | exact sub_of (by assumption) (by decide) | refine foldl_keeps _ _ _ ?_ ?_
    | split | intro _ _ _ | intro _ | refine keeps_lit (by assumption) ?_)

theorem trapOp_keeps {W : Nat} {q0 : State} (c sh : Nat) (s : State) (hk : Keeps W q0 s) (hW : Sub 0x80001 W) : Keeps
    W q0 (trapOp c sh s) := by
  unfold trapOp
  with_reducible repeat' (first
    | assumption | apply clkIssue_keeps | apply clkTrap_keeps | exact sub_of (by assumption) (by decide)
    | intro _ _ _ | intro _)

theorem interruptEntry_keeps {W : Nat} {q0 : State} (c code : Nat) (s : State) (hk : Keeps W q0 s) (hW : Sub 0x80001
    W) : Keeps W q0 (interruptEntry c code s) := by
  unfold interruptEntry
  with_reducible repeat' (first
    | assumption | apply wr_keeps | apply tick_keeps | apply setClk_keeps
    | exact sub_of (by assumption) (by decide) | split | simp only [])

theorem guardInterrupt_keeps {W : Nat} {q0 : State} (s : State) (hk : Keeps W q0 s) (hW : Sub 0x80001 W) : Keeps W q0
    (guardInterrupt s) := by
  unfold guardInterrupt
  with_reducible repeat' (first
    | assumption | apply clkIrq_keeps | apply wr_keeps | apply bump_keeps
    | exact sub_of (by assumption) (by decide) | refine foldl_keeps _ _ _ ?_ ?_ | split | intro _ _ _)

theorem releaseCore_keeps {W : Nat} {q0 : State} (c : Nat) (s : State) (hk : Keeps W q0 s) (hW : Sub 0x80001 W) :
    Keeps W q0 (releaseCore c s) := by
  unfold releaseCore
  with_reducible repeat' (first
    | assumption | apply wr_keeps | apply wrB_keeps | apply modClk_keeps | exact sub_of (by assumption) (by decide))

theorem holdCore_keeps {W : Nat} {q0 : State} (c : Nat) (keep : Bool) (s : State) (hk : Keeps W q0 s) (hW : Sub
    0x80000 W) : Keeps W q0 (holdCore c keep s) := by
  unfold holdCore
  with_reducible repeat' (first | assumption | apply modClk_keeps)

/-! ## Fence -/

theorem fenceEvent_keeps {W : Nat} {q0 : State} (kind unit cause : Nat) (s : State) (hk : Keeps W q0 s) (hW : Sub
    0x800000 W) : Keeps W q0 (fenceEvent kind unit cause s) := by
  unfold fenceEvent
  with_reducible repeat' (first | assumption | apply event_keeps)

theorem recSliceFault_keeps {W : Nat} {q0 : State} (n : Nat) (s : State) (f : Nat × Nat × List Nat) (hk : Keeps W q0
    s)
    (hW : Sub 0x83001 W := by first | assumption | exact sub_of (by assumption) (by decide)) :
    Keeps W q0 (recSliceFault n s f) := by
  unfold recSliceFault
  repeat' (first
    | with_reducible assumption | exact sub_of (by assumption) (by decide) | with_reducible apply recContained_keeps
    | with_reducible apply recVisible_keeps | with_reducible refine foldl_keeps _ _ _ ?_ ?_
    | with_reducible refine foldl_fst_keeps _ _ _ ?_ ?_ | intro _ _ _ | intro _
    | with_reducible refine keeps_ite _ _ _ ?_ ?_ | split | with_reducible refine keeps_fst ?_ (by assumption)
    | with_reducible refine keeps_fst2 ?_ (by assumption) | simp only [])

theorem fenceSlice_keeps {W : Nat} {q0 : State} (n : Nat) (s : State) (hk : Keeps W q0 s)
    (hW : Sub 0x29883169 W := by first | assumption | exact sub_of (by assumption) (by decide)) :
    Keeps W q0 (fenceSlice n s) := by
  unfold fenceSlice
  repeat' (first
    | with_reducible assumption | exact sub_of (by assumption) (by decide) | with_reducible apply setSlice_keeps
    | with_reducible apply drainSlice_keeps | with_reducible apply interruptTests_keeps
    | with_reducible apply fenceEvent_keeps | with_reducible apply recSliceFault_keeps
    | with_reducible refine foldl_keeps _ _ _ ?_ ?_ | with_reducible refine foldl_fst_keeps _ _ _ ?_ ?_ | intro _ _ _
    | intro _ | with_reducible refine keeps_ite _ _ _ ?_ ?_ | split
    | with_reducible refine keeps_fst ?_ (by assumption) | with_reducible refine keeps_fst2 ?_ (by assumption)
    | simp only [])

theorem failSlice_keeps {W : Nat} {q0 : State} (n : Nat) (s : State) (hk : Keeps W q0 s) (hW : Sub 0x800201 W) :
    Keeps W q0 (failSlice n s) := by
  unfold failSlice
  with_reducible repeat' (first
    | assumption | apply countBuckets_keeps | apply fenceEvent_keeps | apply wr_keeps
    | exact sub_of (by assumption) (by decide) | split | refine keeps_lit (by assumption) ?_)

theorem judgeQueues_keeps {W : Nat} {q0 : State} (c : Nat) (s : State) (hk : Keeps W q0 s)
    (hW : Sub 0x401 W := by first | assumption | exact sub_of (by assumption) (by decide)) :
    Keeps W q0 (judgeQueues c s) := by
  unfold judgeQueues
  repeat' (first
    | with_reducible assumption | exact sub_of (by assumption) (by decide)
    | with_reducible exact twf_tset _ _ _ _ (by assumption)
    | with_reducible refine keeps_chan (W := W) ?_ _ (by assumption) | with_reducible exact twf_nil _
    | with_reducible refine keeps_ok (W := W) ?_ (by assumption) | with_reducible apply judgePanic_keeps
    | with_reducible apply endDrain_keeps | with_reducible refine foldl_keeps _ _ _ ?_ ?_
    | with_reducible refine foldl_fst_keeps _ _ _ ?_ ?_ | intro _ _ _ | intro _
    | with_reducible refine keeps_ite _ _ _ ?_ ?_ | split | with_reducible refine keeps_fst ?_ (by assumption)
    | with_reducible refine keeps_fst2 ?_ (by assumption) | simp only [])

theorem degrade_keeps {W : Nat} {q0 : State} (c : Nat) (s : State) (hk : Keeps W q0 s)
    (hW : Sub 0x401 W := by first | assumption | exact sub_of (by assumption) (by decide)) :
    Keeps W q0 (degrade c s) := by
  unfold degrade
  repeat' (first
    | with_reducible assumption | exact sub_of (by assumption) (by decide)
    | with_reducible exact twf_tset _ _ _ _ (by assumption)
    | with_reducible refine keeps_chan (W := W) ?_ _ (by assumption) | with_reducible exact twf_nil _
    | with_reducible refine keeps_ok (W := W) ?_ (by assumption) | with_reducible apply wr_keeps
    | with_reducible apply patrolTrigger_keeps | with_reducible refine foldl_keeps _ _ _ ?_ ?_
    | with_reducible refine foldl_fst_keeps _ _ _ ?_ ?_ | intro _ _ _ | intro _
    | with_reducible refine keeps_ite _ _ _ ?_ ?_ | split | with_reducible refine keeps_fst ?_ (by assumption)
    | with_reducible refine keeps_fst2 ?_ (by assumption) | simp only [])

theorem moveLost_keeps {W : Nat} {q0 : State} (c : Nat) (s : State) (hk : Keeps W q0 s)
    (hW : Sub 0xA3401 W := by first | assumption | exact sub_of (by assumption) (by decide)) :
    Keeps W q0 (moveLost c s) := by
  unfold moveLost
  repeat' (first
    | with_reducible assumption | exact sub_of (by assumption) (by decide)
    | with_reducible exact twf_tset _ _ _ _ (by assumption)
    | with_reducible refine keeps_chan (W := W) ?_ _ (by assumption) | with_reducible exact twf_nil _
    | with_reducible refine keeps_ok (W := W) ?_ (by assumption) | with_reducible apply setChan_keeps
    | with_reducible apply lostLine_keeps | with_reducible apply enqueue_keeps | with_reducible apply deliver_keeps
    | with_reducible apply judgeQueues_keeps | with_reducible refine foldl_keeps _ _ _ ?_ ?_
    | with_reducible refine foldl_fst_keeps _ _ _ ?_ ?_ | intro _ _ _ | intro _
    | with_reducible refine keeps_ite _ _ _ ?_ ?_ | split | with_reducible refine keeps_fst ?_ (by assumption)
    | with_reducible refine keeps_fst2 ?_ (by assumption) | simp only [])

theorem loseFenced_keeps {W : Nat} {q0 : State} (c : Nat) (parts : List (Nat × Nat)) (s : State) (hk : Keeps W q0 s)
    (hW : Sub 0x401 W := by first | assumption | exact sub_of (by assumption) (by decide)) :
    Keeps W q0 (loseFenced c parts s) := by
  unfold loseFenced
  repeat' (first
    | with_reducible assumption | exact sub_of (by assumption) (by decide)
    | with_reducible exact twf_tset _ _ _ _ (by assumption)
    | with_reducible refine keeps_chan (W := W) ?_ _ (by assumption) | with_reducible exact twf_nil _
    | with_reducible refine keeps_ok (W := W) ?_ (by assumption) | with_reducible apply modChan_keeps
    | with_reducible apply noteLoss_keeps | with_reducible apply unserve_keeps | with_reducible apply handOver_keeps
    | with_reducible refine foldl_keeps _ _ _ ?_ ?_ | with_reducible refine foldl_fst_keeps _ _ _ ?_ ?_ | intro _ _ _
    | intro _ | with_reducible refine keeps_ite _ _ _ ?_ ?_ | split
    | with_reducible refine keeps_fst ?_ (by assumption) | with_reducible refine keeps_fst2 ?_ (by assumption)
    | simp only [])

theorem tellOwners_keeps {W : Nat} {q0 : State} (c rank : Nat) (parts : List (Nat × Nat)) (s : State) (hk : Keeps W q0 s)
    (hW : Sub 0x8001800 W := by first | assumption | exact sub_of (by assumption) (by decide)) :
    Keeps W q0 (tellOwners c rank parts s) := by
  have hd := fun b k act (y : State) (hy : Keeps W q0 y) => addDue_keeps b k act y hy (sub_of hW (by decide))
  unfold tellOwners
  dsimp only
  refine foldl_keeps _ _ _ (foldl_keeps _ _ _ hk fun a p ha => foldl_keeps _ _ _ ha fun y t hy => ?_)
    fun a t ha => sealNotice_keeps _ _ _ _ ha (sub_of hW (by decide))
  split
  · with_reducible exact hd _ _ _ _ hy
  · exact hy

theorem fenceNotice_keeps {W : Nat} {q0 : State} (c sub rank t first count : Nat) (s : State) (hk : Keeps W q0 s) (hW
    : Sub 0x1800 W) : Keeps W q0 (fenceNotice c sub rank t first count s) := by
  unfold fenceNotice
  with_reducible repeat' (first | assumption | apply sealNotice_keeps)

theorem fillAgain_keeps {W : Nat} {q0 : State} (c : Nat) (filling : Bool) (s : State) (hk : Keeps W q0 s) (hW : Sub 0x8820C01 W) : Keeps W q0 (fillAgain c filling s) := by
  unfold fillAgain
  with_reducible repeat' (first
    | assumption | apply wr_keeps | apply buildMap_keeps | exact sub_of (by assumption) (by decide) | split
    | simp only [])

theorem fenceChan_keeps {W : Nat} {q0 : State} (c : Nat) (s : State) (hk : Keeps W q0 s)
    (hW : Sub 0x298A3C69 W := by first | assumption | exact sub_of (by assumption) (by decide)) :
    Keeps W q0 (fenceChan c s) := by
  unfold fenceChan
  repeat' (first
    | with_reducible assumption | exact sub_of (by assumption) (by decide)
    | with_reducible exact twf_tset _ _ _ _ (by assumption)
    | with_reducible refine keeps_chan (W := W) ?_ _ (by assumption) | with_reducible exact twf_nil _
    | with_reducible refine keeps_ok (W := W) ?_ (by assumption) | with_reducible apply wr_keeps
    | with_reducible apply fenceDomain_keeps | with_reducible apply interruptTests_keeps
    | with_reducible apply fenceEvent_keeps | with_reducible apply degrade_keeps | with_reducible apply moveLost_keeps
    | with_reducible apply loseFenced_keeps | with_reducible apply tellOwners_keeps
    | with_reducible apply fillAgain_keeps | with_reducible refine foldl_keeps _ _ _ ?_ ?_
    | with_reducible refine foldl_fst_keeps _ _ _ ?_ ?_ | intro _ _ _ | intro _
    | with_reducible refine keeps_ite _ _ _ ?_ ?_ | split | with_reducible refine keeps_fst ?_ (by assumption)
    | with_reducible refine keeps_fst2 ?_ (by assumption) | simp only [])

theorem fenceRank_keeps {W : Nat} {q0 : State} (c r : Nat) (s : State) (hk : Keeps W q0 s)
    (hW : Sub 0x88A3C01 W := by first | assumption | exact sub_of (by assumption) (by decide)) :
    Keeps W q0 (fenceRank c r s) := by
  unfold fenceRank
  repeat' (first
    | with_reducible assumption | exact sub_of (by assumption) (by decide)
    | with_reducible exact twf_tset _ _ _ _ (by assumption)
    | with_reducible refine keeps_chan (W := W) ?_ _ (by assumption) | with_reducible exact twf_nil _
    | with_reducible refine keeps_ok (W := W) ?_ (by assumption) | with_reducible apply setChan_keeps
    | with_reducible apply fenceEvent_keeps | with_reducible apply degrade_keeps | with_reducible apply moveLost_keeps
    | with_reducible apply loseFenced_keeps | with_reducible apply tellOwners_keeps
    | with_reducible refine foldl_keeps _ _ _ ?_ ?_ | with_reducible refine foldl_fst_keeps _ _ _ ?_ ?_ | intro _ _ _
    | intro _ | with_reducible refine keeps_ite _ _ _ ?_ ?_ | split
    | with_reducible refine keeps_fst ?_ (by assumption) | with_reducible refine keeps_fst2 ?_ (by assumption)
    | simp only [])

theorem fenceSub_keeps {W : Nat} {q0 : State} (c b : Nat) (s : State) (hk : Keeps W q0 s)
    (hW : Sub 0x298A3C69 W := by first | assumption | exact sub_of (by assumption) (by decide)) :
    Keeps W q0 (fenceSub c b s) := by
  unfold fenceSub
  repeat' (first
    | with_reducible assumption | exact sub_of (by assumption) (by decide)
    | with_reducible exact twf_tset _ _ _ _ (by assumption)
    | with_reducible refine keeps_chan (W := W) ?_ _ (by assumption) | with_reducible exact twf_nil _
    | with_reducible refine keeps_ok (W := W) ?_ (by assumption) | with_reducible apply setChan_keeps
    | with_reducible apply fenceEvent_keeps | with_reducible apply degrade_keeps | with_reducible apply moveLost_keeps
    | with_reducible apply loseFenced_keeps | with_reducible apply tellOwners_keeps
    | with_reducible apply fenceChan_keeps | with_reducible refine foldl_keeps _ _ _ ?_ ?_
    | with_reducible refine foldl_fst_keeps _ _ _ ?_ ?_ | intro _ _ _ | intro _
    | with_reducible refine keeps_ite _ _ _ ?_ ?_ | split | with_reducible refine keeps_fst ?_ (by assumption)
    | with_reducible refine keeps_fst2 ?_ (by assumption) | simp only [])

theorem fenceSerdes_keeps {W : Nat} {q0 : State} (g n : Nat) (s : State) (hk : Keeps W q0 s) (hW : Sub 0x398FFD79 W)
    : Keeps W q0 (fenceSerdes g n s) := by
  unfold fenceSerdes
  with_reducible repeat' (first
    | assumption | apply fencePort_keeps | apply fenceDomain_keeps | apply interruptTests_keeps
    | apply fenceEvent_keeps | apply recContained_keeps | exact sub_of (by assumption) (by decide) | split)

theorem fenceFab_keeps {W : Nat} {q0 : State} (k : Nat) (s : State) (hk : Keeps W q0 s)
    (hW : Sub 0x2989386D W := by first | assumption | exact sub_of (by assumption) (by decide)) :
    Keeps W q0 (fenceFab k s) := by
  unfold fenceFab
  repeat' (first
    | with_reducible assumption | exact sub_of (by assumption) (by decide) | with_reducible apply wr_keeps
    | with_reducible apply recContained_keeps | with_reducible apply modPort_keeps
    | with_reducible apply showIsolated_keeps | with_reducible apply linkFailed_keeps
    | with_reducible apply switchDomain_keeps | with_reducible apply fenceDomain_keeps
    | with_reducible apply interruptTests_keeps | with_reducible apply fenceEvent_keeps
    | with_reducible refine foldl_keeps _ _ _ ?_ ?_ | with_reducible refine foldl_fst_keeps _ _ _ ?_ ?_ | intro _ _ _
    | intro _ | with_reducible refine keeps_ite _ _ _ ?_ ?_ | split
    | with_reducible refine keeps_fst ?_ (by assumption) | with_reducible refine keeps_fst2 ?_ (by assumption)
    | simp only [])

theorem fenceDma_keeps {W : Nat} {q0 : State} (d : Nat) (s : State) (hk : Keeps W q0 s) (hW : Sub 0x298C3069 W) :
    Keeps W q0 (fenceDma d s) := by
  unfold fenceDma
  with_reducible repeat' (first
    | assumption | apply fenceEvent_keeps | apply recContained_keeps | apply setDmaState_keeps
    | apply interruptTests_keeps | apply recVisible_keeps | apply dmaAbort_keeps
    | exact sub_of (by assumption) (by decide) | split)

theorem deviceFatal_keeps {W : Nat} {q0 : State} (s : State) (hk : Keeps W q0 s) (hW : Sub 0x800002 W) : Keeps W q0
    (deviceFatal s) := by
  unfold deviceFatal
  with_reducible repeat' (first
    | assumption | exact sub_of (by assumption) (by decide) | refine keeps_lit (by assumption) ?_)

theorem fenceComplex_keeps {W : Nat} {q0 : State} (x : Nat) (s : State) (hk : Keeps W q0 s) (hW : Sub 0x180001 W) :
    Keeps W q0 (fenceComplex x s) := by
  unfold fenceComplex
  with_reducible repeat' (first
    | assumption | apply fenceDomain_keeps | apply modCplx_keeps | apply holdCore_keeps
    | exact sub_of (by assumption) (by decide) | refine foldl_keeps _ _ _ ?_ ?_ | intro _ _ _)

theorem fenceHalf_keeps {W : Nat} {q0 : State} (t : Nat) (s : State) (hk : Keeps W q0 s) (hW : Sub 0x39BFFD7F W) :
    Keeps W q0 (fenceHalf t s) := by
  unfold fenceHalf
  with_reducible repeat' (first
    | assumption | apply fenceDomain_keeps | apply fenceChan_keeps | apply fenceSerdes_keeps | apply fenceFab_keeps
    | apply fenceDma_keeps | apply fenceEvent_keeps | apply recPlatform_keeps | apply fenceComplex_keeps
    | apply deviceFatal_keeps | exact sub_of (by assumption) (by decide) | refine foldl_keeps _ _ _ ?_ ?_ | split
    | simp only [] | intro _ _ _ | intro _ | refine keeps_lit (by assumption) ?_)

theorem fenceUnit_keeps {W : Nat} {q0 : State} (u : UnitRef) (s : State) (hk : Keeps W q0 s) (hW : Sub 0x39BFFF7F W)
    : Keeps W q0 (fenceUnit u s) := by
  unfold fenceUnit
  with_reducible repeat' (first
    | assumption | apply failSlice_keeps | apply fenceSlice_keeps | apply fenceRank_keeps | apply fenceSub_keeps
    | apply fenceChan_keeps | apply fenceSerdes_keeps | apply linkFailed_keeps | apply fenceFab_keeps
    | apply fenceDma_keeps | apply event_keeps | apply tossEvent_keeps | apply fenceHalf_keeps
    | exact sub_of (by assumption) (by decide) | split)

/-! ## Toss -/

theorem setToss_keeps {W : Nat} {q0 : State} (t : Toss) (s : State) (hk : Keeps W q0 s) (hW : Sub 0x200000 W) : Keeps
    W q0 (setToss t s) := by
  unfold setToss
  with_reducible repeat' (first
    | assumption | exact sub_of (by assumption) (by decide) | refine keeps_lit (by assumption) ?_)

theorem showBeat_keeps {W : Nat} {q0 : State} (x : Nat) (peer bridge pg : Bool) (misses : Nat) (s : State) (hk :
    Keeps W q0 s) (hW : Sub 0x1 W) : Keeps W q0 (showBeat x peer bridge pg misses s) := by
  unfold showBeat
  with_reducible repeat' (first
    | assumption | apply wr_keeps | apply wrB_keeps | exact sub_of (by assumption) (by decide)
    | refine foldl_keeps _ _ _ ?_ ?_ | intro _ _ _)

theorem applyMirror_keeps {W : Nat} {q0 : State} (h : Nat) (bridge : Bool) (s : State) (hk : Keeps W q0 s) (hW : Sub
    0x100000 W) : Keeps W q0 (applyMirror h bridge s) := by
  unfold applyMirror
  with_reducible repeat' (first
    | assumption | apply modCplx_keeps | apply store_keeps | exact sub_of (by assumption) (by decide) | split)

theorem sampleHearts_keeps {W : Nat} {q0 : State} (bridge pgN pgS : Bool) (s : State) (hk : Keeps W q0 s) (hW : Sub
    0x300001 W) : Keeps W q0 (sampleHearts bridge pgN pgS s) := by
  unfold sampleHearts
  with_reducible repeat' (first
    | assumption | apply wrB_keeps | apply setToss_keeps | apply applyMirror_keeps | apply showBeat_keeps
    | exact sub_of (by assumption) (by decide) | split)

theorem leaveForced_keeps {W : Nat} {q0 : State} (s : State) (hk : Keeps W q0 s) (hW : Sub 0x200001 W) : Keeps W q0
    (leaveForced s) := by
  unfold leaveForced
  with_reducible repeat' (first
    | assumption | apply wr_keeps | apply setToss_keeps | exact sub_of (by assumption) (by decide)
    | refine foldl_keeps _ _ _ ?_ ?_ | intro _ _ _)

theorem passAssayer_keeps {W : Nat} {q0 : State} (old new : Nat) (s : State) (hk : Keeps W q0 s) (hW : Sub 0x480001
    W) : Keeps W q0 (passAssayer old new s) := by
  unfold passAssayer
  with_reducible repeat' (first
    | assumption | apply releaseCore_keeps | apply holdCore_keeps | exact sub_of (by assumption) (by decide)
    | refine keeps_lit (by assumption) ?_)

theorem giveToken_keeps {W : Nat} {q0 : State} (t : Nat) (s : State) (hk : Keeps W q0 s) (hW : Sub 0xA00001 W) :
    Keeps W q0 (giveToken t s) := by
  unfold giveToken
  with_reducible repeat' (first
    | assumption | apply setToss_keeps | apply wrB_keeps | apply wr_keeps
    | exact sub_of (by assumption) (by decide) | refine foldl_keeps _ _ _ ?_ ?_ | intro _ _ _ | intro _
    | refine keeps_lit (by assumption) ?_)

theorem passToken_keeps {W : Nat} {q0 : State} (s : State) (hk : Keeps W q0 s) (hW : Sub 0xF82001 W) : Keeps W q0
    (passToken s) := by
  unfold passToken
  with_reducible repeat' (first
    | assumption | apply passAssayer_keeps | apply giveToken_keeps | apply fenceComplex_keeps | apply event_keeps
    | apply detectedAt_keeps | apply recContained_keeps | apply bump_keeps | apply tossEvent_keeps
    | exact sub_of (by assumption) (by decide) | split | intro _ _ _ | intro _)

theorem bridgeLost_keeps {W : Nat} {q0 : State} (s : State) (hk : Keeps W q0 s) (hW : Sub 0x8A82001 W) : Keeps W q0
    (bridgeLost s) := by
  unfold bridgeLost
  with_reducible repeat' (first
    | assumption | apply setToss_keeps | apply addDue_keeps | apply fenceHalf_keeps | apply event_keeps
    | apply recContained_keeps | apply tossEvent_keeps | exact sub_of (by assumption) (by decide) | split)

theorem peerPowerLost_keeps {W : Nat} {q0 : State} (s : State) (hk : Keeps W q0 s) (hW : Sub 0x8A00000 W) : Keeps W
    q0 (peerPowerLost s) := by
  unfold peerPowerLost
  with_reducible repeat' (first
    | assumption | apply addDue_keeps | apply fenceHalf_keeps | apply event_keeps | apply setToss_keeps
    | exact sub_of (by assumption) (by decide) | split)

/-! ## Assayer -/

theorem setAssayer_keeps {W : Nat} {q0 : State} (a : Assayer) (s : State) (hk : Keeps W q0 s) (hW : Sub 0x400000 W) :
    Keeps W q0 (setAssayer a s) := by
  unfold setAssayer
  with_reducible repeat' (first
    | assumption | exact sub_of (by assumption) (by decide) | refine keeps_lit (by assumption) ?_)

theorem modAssayer_keeps {W : Nat} {q0 : State} (f : Assayer → Assayer) (s : State) (hk : Keeps W q0 s) (hW : Sub
    0x400000 W) : Keeps W q0 (modAssayer f s) := by
  unfold modAssayer
  with_reducible repeat' (first | assumption | apply setAssayer_keeps)

theorem endHold_keeps {W : Nat} {q0 : State} (d : Nat) (s : State) (hk : Keeps W q0 s) (hW : Sub 0x400001 W) : Keeps
    W q0 (endHold d s) := by
  unfold endHold
  with_reducible repeat' (first
    | assumption | apply modAssayer_keeps | apply wr_keeps | exact sub_of (by assumption) (by decide) | split
    | simp only [])

theorem applyHolds_keeps {W : Nat} {q0 : State} (b : Nat) (l : List (Nat × Bool)) (s : State) (hk : Keeps W q0 s) (hW
    : Sub 0x400001 W) : Keeps W q0 (applyHolds b l s) := by
  unfold applyHolds
  with_reducible repeat' (first
    | assumption | apply modAssayer_keeps | apply wr_keeps | apply endHold_keeps
    | exact sub_of (by assumption) (by decide) | refine foldl_keeps _ _ _ ?_ ?_ | split | intro _ _ _)

theorem endHolds_keeps {W : Nat} {q0 : State} (s : State) (hk : Keeps W q0 s) (hW : Sub 0x400001 W) : Keeps W q0
    (endHolds s) := by
  unfold endHolds
  with_reducible repeat' (first
    | assumption | apply endHold_keeps | exact sub_of (by assumption) (by decide) | refine foldl_keeps _ _ _ ?_ ?_
    | intro _ _ _)

theorem holdLimit_keeps {W : Nat} {q0 : State} (s : State) (hk : Keeps W q0 s) (hW : Sub 0x482001 W) : Keeps W q0
    (holdLimit s) := by
  unfold holdLimit
  with_reducible repeat' (first
    | assumption | apply recContained_keeps | apply endHold_keeps | exact sub_of (by assumption) (by decide)
    | refine foldl_keeps _ _ _ ?_ ?_ | intro _ _ _)

theorem sampleAssayer_keeps {W : Nat} {q0 : State} (s : State) (hk : Keeps W q0 s) (hW : Sub 0x400001 W) : Keeps W q0
    (sampleAssayer s) := by
  unfold sampleAssayer
  with_reducible repeat' (first
    | assumption | apply wr_keeps | apply modAssayer_keeps | exact sub_of (by assumption) (by decide) | split)

theorem stopAssayerDma_keeps {W : Nat} {q0 : State} (s : State) (hk : Keeps W q0 s) (hW : Sub 0x1 W) : Keeps W q0
    (stopAssayerDma s) := by
  unfold stopAssayerDma
  with_reducible repeat' (first
    | assumption | apply dmaStop_keeps | exact sub_of (by assumption) (by decide) | refine foldl_keeps _ _ _ ?_ ?_
    | intro _ _ _)

theorem treatHung_keeps {W : Nat} {q0 : State} (cause : Nat) (s : State) (hk : Keeps W q0 s) (hW : Sub 0xC82001 W) :
    Keeps W q0 (treatHung cause s) := by
  unfold treatHung
  with_reducible repeat' (first
    | assumption | apply endHolds_keeps | apply stopAssayerDma_keeps | apply holdCore_keeps
    | apply recContained_keeps | apply event_keeps | apply modAssayer_keeps | apply spdm_keeps
    | exact sub_of (by assumption) (by decide))

theorem assayerHang_keeps {W : Nat} {q0 : State} (s : State) (hk : Keeps W q0 s) (hW : Sub 0xC82001 W) : Keeps W q0
    (assayerHang s) := by
  unfold assayerHang
  with_reducible repeat' (first
    | assumption | apply treatHung_keeps | exact sub_of (by assumption) (by decide) | split)

theorem closeOutage_keeps {W : Nat} {q0 : State} (s : State) (hk : Keeps W q0 s) (hW : Sub 0xC00000 W) : Keeps W q0
    (closeOutage s) := by
  unfold closeOutage
  with_reducible repeat' (first
    | assumption | apply event_keeps | apply modAssayer_keeps | exact sub_of (by assumption) (by decide) | split)

theorem standbyReady_keeps {W : Nat} {q0 : State} (s : State) (hk : Keeps W q0 s) (hW : Sub 0xC00000 W) : Keeps W q0
    (standbyReady s) := by
  unfold standbyReady
  with_reducible repeat' (first
    | assumption | apply closeOutage_keeps | apply modAssayer_keeps | exact sub_of (by assumption) (by decide)
    | split)

theorem standbyTimeout_keeps {W : Nat} {q0 : State} (s : State) (hk : Keeps W q0 s) (hW : Sub 0xC82001 W) : Keeps W
    q0 (standbyTimeout s) := by
  unfold standbyTimeout
  with_reducible repeat' (first
    | assumption | apply treatHung_keeps | apply modAssayer_keeps | exact sub_of (by assumption) (by decide) | split)

theorem acceptToken_keeps {W : Nat} {q0 : State} (t : Token) (s : State) (hk : Keeps W q0 s) (hW : Sub 0xC00000 W) :
    Keeps W q0 (acceptToken t s) := by
  unfold acceptToken
  with_reducible repeat' (first
    | assumption | apply modAssayer_keeps | apply event_keeps | exact sub_of (by assumption) (by decide) | split
    | refine keeps_lit (by assumption) ?_)

theorem tokenAccept_keeps {W : Nat} {q0 : State} (s : State) (hk : Keeps W q0 s) (hW : Sub 0xC00000 W) : Keeps W q0
    (tokenAccept s) := by
  unfold tokenAccept
  with_reducible repeat' (first
    | assumption | apply acceptToken_keeps | apply modAssayer_keeps | exact sub_of (by assumption) (by decide)
    | split)

theorem zeroizeKeys_keeps {W : Nat} {q0 : State} (s : State) (hk : Keeps W q0 s) (hW : Sub 0x20093C05 W) : Keeps W q0
    (zeroizeKeys s) := by
  unfold zeroizeKeys
  with_reducible repeat' (first
    | assumption | apply modPort_keeps | apply linkFailed_keeps | apply setMem_keeps
    | exact sub_of (by assumption) (by decide) | refine keeps_ok (W := W) ?_ (by assumption)
    | refine foldl_keeps _ _ _ ?_ ?_ | exact twf_tset _ _ _ _ (by assumption) | exact twf_nil _
    | refine keeps_ok (W := W) ?_ (by assumption) | refine keeps_chan (W := W) ?_ _ (by assumption) | intro _ _ _
    | intro _)

theorem applyEnables_keeps {W : Nat} {q0 : State} (s : State) (hk : Keeps W q0 s) (hW : Sub 0x20C93C05 W) : Keeps W q0
    (applyEnables s) := by
  unfold applyEnables
  with_reducible repeat' (first
    | assumption | apply setAssayer_keeps | apply modAssayer_keeps | apply zeroizeKeys_keeps | apply event_keeps
    | exact sub_of (by assumption) (by decide) | split | simp only [])

theorem zeroizeDone_keeps {W : Nat} {q0 : State} (s : State) (hk : Keeps W q0 s) (hW : Sub 0x400000 W) : Keeps W q0
    (zeroizeDone s) := by
  unfold zeroizeDone
  with_reducible repeat' (first
    | assumption | apply modAssayer_keeps | exact sub_of (by assumption) (by decide) | split)

theorem tapLoad_keeps {W : Nat} {q0 : State} (code : Nat) (need : Option Nat) (s : State) (hk : Keeps W q0 s) (hW :
    Sub 0x2 W) : Keeps W q0 (tapLoad code need s) := by
  unfold tapLoad
  with_reducible repeat' (first
    | assumption | exact sub_of (by assumption) (by decide) | refine keeps_lit (by assumption) ?_)

theorem tapPins_keeps {W : Nat} {q0 : State} (code : Nat) (s : State) (hk : Keeps W q0 s) (hW : Sub 0x800002 W) :
    Keeps W q0 (tapPins code s) := by
  unfold tapPins
  with_reducible repeat' (first
    | assumption | apply tapLoad_keeps | exact sub_of (by assumption) (by decide) | split
    | refine keeps_lit (by assumption) ?_)

/-! ## Inventory -/

theorem inventoryList_keeps {W : Nat} {q0 : State} (i : Nat) (s : State) (hk : Keeps W q0 s) (hW : Sub 0x1001 W) :
    Keeps W q0 (inventoryList i s) := by
  unfold inventoryList
  with_reducible repeat' (first | assumption | apply stageDone_keeps)

theorem timeGet_keeps {W : Nat} {q0 : State} (i : Nat) (s : State) (hk : Keeps W q0 s) (hW : Sub 0x1001 W) : Keeps W
    q0 (timeGet i s) := by
  unfold timeGet
  with_reducible repeat' (first | assumption | apply stageDone_keeps)

theorem timeSet_keeps {W : Nat} {q0 : State} (i : Nat) (c : Bytes) (s : State) (hk : Keeps W q0 s) (hW : Sub
    0x10001005 W) : Keeps W q0 (timeSet i c s) := by
  unfold timeSet
  with_reducible repeat' (first
    | assumption | apply stageDone_keeps | apply addStep_keeps | apply setTime_keeps
    | exact sub_of (by assumption) (by decide) | split | simp only [])

theorem setLog_keeps {W : Nat} {q0 : State} (i : Nat) (g : RasLog) (s : State) (hk : Keeps W q0 s) (hW : Sub 0x2000
    W) : Keeps W q0 (setLog i g s) := by
  unfold setLog
  with_reducible repeat' (first
    | assumption | exact sub_of (by assumption) (by decide) | refine keeps_lit (by assumption) ?_)

theorem rasRead_keeps {W : Nat} {q0 : State} (i : Nat) (c : Bytes) (s : State) (hk : Keeps W q0 s) (hW : Sub 0x3001
    W) : Keeps W q0 (rasRead i c s) := by
  unfold rasRead
  with_reducible repeat' (first
    | assumption | apply stageDone_keeps | apply setLog_keeps | exact sub_of (by assumption) (by decide))

/-! ## Daybook -/

theorem appendRecord_keeps {W : Nat} {q0 : State} (okA okB : Bool) (s : State) (hk : Keeps W q0 s) (hW : Sub 0x800000
    W) : Keeps W q0 (appendRecord okA okB s) := by
  unfold appendRecord
  with_reducible repeat' (first
    | assumption | apply event_keeps | exact sub_of (by assumption) (by decide) | split
    | refine keeps_lit (by assumption) ?_)

theorem commitSvn_keeps {W : Nat} {q0 : State} (s : State) (hk : Keeps W q0 s) (hW : Sub 0x800002 W) : Keeps W q0
    (commitSvn s) := by
  unfold commitSvn
  with_reducible repeat' (first
    | assumption | apply event_keeps | exact sub_of (by assumption) (by decide) | refine foldl_keeps _ _ _ ?_ ?_
    | split | simp only [] | intro _ _ _ | intro _ | refine keeps_lit (by assumption) ?_)

theorem writeBytes_keeps {W : Nat} {q0 : State} (i t base : Nat) (l : List Nat) (old : Nat) (s : State) (hk : Keeps
    W q0 s)
    (hW : Sub 0x200BFD19 W := by first | assumption | exact sub_of (by assumption) (by decide)) :
    Keeps W q0 (writeBytes i t base l old s) := by
  unfold writeBytes
  repeat' (first
    | with_reducible assumption | exact sub_of (by assumption) (by decide)
    | with_reducible exact twf_tset _ _ _ _ (by assumption)
    | with_reducible refine keeps_chan (W := W) ?_ _ (by assumption) | with_reducible exact twf_nil _
    | with_reducible refine keeps_ok (W := W) ?_ (by assumption) | with_reducible apply writeAtHome_keeps
    | with_reducible refine foldl_keeps _ _ _ ?_ ?_ | with_reducible refine foldl_fst_keeps _ _ _ ?_ ?_ | intro _ _ _
    | intro _ | with_reducible refine keeps_ite _ _ _ ?_ ?_ | split
    | with_reducible refine keeps_fst ?_ (by assumption) | with_reducible refine keeps_fst2 ?_ (by assumption)
    | simp only [])

theorem lastBytes_keeps {W : Nat} {q0 : State} (i t base n : Nat) (s : State) (hk : Keeps W q0 s)
    (hW : Sub 0x200BFD19 W := by first | assumption | exact sub_of (by assumption) (by decide)) :
    Keeps W q0 (lastBytes i t base n s).1 := by
  unfold lastBytes
  repeat' (first
    | with_reducible assumption | exact sub_of (by assumption) (by decide)
    | with_reducible exact twf_tset _ _ _ _ (by assumption)
    | with_reducible refine keeps_chan (W := W) ?_ _ (by assumption) | with_reducible exact twf_nil _
    | with_reducible refine keeps_ok (W := W) ?_ (by assumption) | with_reducible apply currentLine_keeps
    | with_reducible refine foldl_keeps _ _ _ ?_ ?_ | with_reducible refine foldl_fst_keeps _ _ _ ?_ ?_ | intro _ _ _
    | intro _ | with_reducible refine keeps_ite _ _ _ ?_ ?_ | split
    | with_reducible refine keeps_fst ?_ (by assumption) | with_reducible refine keeps_fst2 ?_ (by assumption)
    | simp only [])

theorem attest_keeps {W : Nat} {q0 : State} (i cl dst : Nat) (nonce : List Nat) (s : State) (hk : Keeps W q0 s)
    (hW : Sub 0x300BFD39 W := by first | assumption | exact sub_of (by assumption) (by decide)) :
    Keeps W q0 (attest i cl dst nonce s) := by
  unfold attest
  repeat' (first
    | with_reducible assumption | exact sub_of (by assumption) (by decide)
    | with_reducible exact twf_tset _ _ _ _ (by assumption)
    | with_reducible refine keeps_chan (W := W) ?_ _ (by assumption) | with_reducible exact twf_nil _
    | with_reducible refine keeps_ok (W := W) ?_ (by assumption) | with_reducible apply addStep_keeps
    | with_reducible apply dropReads_keeps | with_reducible apply stageDone_keeps | with_reducible apply ncOpen_keeps
    | with_reducible apply writeBytes_keeps | with_reducible apply lastBytes_keeps
    | with_reducible refine foldl_keeps _ _ _ ?_ ?_ | with_reducible refine foldl_fst_keeps _ _ _ ?_ ?_ | intro _ _ _
    | intro _ | with_reducible refine keeps_ite _ _ _ ?_ ?_ | split
    | with_reducible refine keeps_fst ?_ (by assumption) | with_reducible refine keeps_fst2 ?_ (by assumption)
    | simp only [])

theorem daybookAttest_keeps {W : Nat} {q0 : State} (i : Nat) (c : Bytes) (s : State) (hk : Keeps W q0 s) (hW : Sub
    0x10001001 W) : Keeps W q0 (daybookAttest i c s) := by
  unfold daybookAttest
  with_reducible repeat' (first
    | assumption | apply addStep_keeps | apply attest_keeps | apply stageDone_keeps
    | exact sub_of (by assumption) (by decide) | split | simp only [])

theorem daybookStatus_keeps {W : Nat} {q0 : State} (i : Nat) (s : State) (hk : Keeps W q0 s) (hW : Sub 0x1001 W) :
    Keeps W q0 (daybookStatus i s) := by
  unfold daybookStatus
  with_reducible repeat' (first | assumption | apply stageDone_keeps)

theorem daybookRead_keeps {W : Nat} {q0 : State} (i : Nat) (c : Bytes) (s : State) (hk : Keeps W q0 s) (hW : Sub
    0x1001 W) : Keeps W q0 (daybookRead i c s) := by
  unfold daybookRead
  with_reducible repeat' (first
    | assumption | apply stageDone_keeps | exact sub_of (by assumption) (by decide) | split)

theorem setSpdm_keeps {W : Nat} {q0 : State} (k : Nat) (x : Spdm) (s : State) (hk : Keeps W q0 s) (hW : Sub 0x400000
    W) : Keeps W q0 (setSpdm k x s) := by
  unfold setSpdm
  with_reducible repeat' (first
    | assumption | apply modAssayer_keeps)

theorem spdm_keeps {W : Nat} {q0 : State} (k need : Nat) (f : Spdm → Spdm) (s : State) (hk : Keeps W q0 s) (hW : Sub
    0x400000 W) : Keeps W q0 (spdm k need f s) := by
  unfold spdm
  with_reducible repeat' (first
    | assumption | apply setSpdm_keeps | exact sub_of (by assumption) (by decide) | split | simp only [])

/-! ## Startup -/

theorem modBoot_keeps {W : Nat} {q0 : State} (f : Boot → Boot) (s : State) (hk : Keeps W q0 s) (hW : Sub 0x800000 W)
    : Keeps W q0 (modBoot f s) := by
  unfold modBoot
  with_reducible repeat' (first
    | assumption | exact sub_of (by assumption) (by decide) | refine keeps_lit (by assumption) ?_)

theorem bootFail_keeps {W : Nat} {q0 : State} (code : Nat) (s : State) (hk : Keeps W q0 s) (hW : Sub 0x800000 W) :
    Keeps W q0 (bootFail code s) := by
  unfold bootFail
  with_reducible repeat' (first | assumption | apply modBoot_keeps)

theorem bootStop_keeps {W : Nat} {q0 : State} (code : Nat) (s : State) (hk : Keeps W q0 s) (hW : Sub 0x800000 W) :
    Keeps W q0 (bootStop code s) := by
  unfold bootStop
  with_reducible repeat' (first
    | assumption | apply modBoot_keeps | apply bootFail_keeps)

theorem setStep_keeps {W : Nat} {q0 : State} (n ms : Nat) (s : State) (hk : Keeps W q0 s) (hW : Sub 0x800000 W) :
    Keeps W q0 (setStep n ms s) := by
  unfold setStep
  with_reducible repeat' (first | assumption | apply modBoot_keeps)

theorem loadPower_keeps {W : Nat} {q0 : State} (s : State) (e : Nat × Nat) (hk : Keeps W q0 s) (hW : Sub 0x1 W) :
    Keeps W q0 (loadPower s e) := by
  unfold loadPower
  with_reducible repeat' (first | assumption | apply wr_keeps | exact sub_of (by assumption) (by decide) | split)

theorem applyBoard_keeps {W : Nat} {q0 : State} (b : Board) (s : State) (hk : Keeps W q0 s)
    (hW : Sub 0x81 W := by first | assumption | exact sub_of (by assumption) (by decide)) :
    Keeps W q0 (applyBoard b s) := by
  unfold applyBoard
  repeat' (first
    | with_reducible assumption | exact sub_of (by assumption) (by decide) | with_reducible apply wr_keeps
    | with_reducible apply wrB_keeps | with_reducible apply loadPower_keeps
    | with_reducible refine foldl_keeps _ _ _ ?_ ?_ | with_reducible refine foldl_fst_keeps _ _ _ ?_ ?_ | intro _ _ _
    | intro _ | with_reducible refine keeps_ite _ _ _ ?_ ?_ | split
    | with_reducible refine keeps_fst ?_ (by assumption) | with_reducible refine keeps_fst2 ?_ (by assumption)
    | simp only [] | with_reducible refine keeps_lit (by assumption) ?_)

theorem loadImage_keeps {W : Nat} {q0 : State} (f : Nat) (img : Image) (bad : List Nat) (s : State) (hk : Keeps W q0
    s)
    (hW : Sub 0xC80001 W := by first | assumption | exact sub_of (by assumption) (by decide)) :
    Keeps W q0 (loadImage f img bad s) := by
  unfold loadImage
  repeat' (first
    | with_reducible assumption | exact sub_of (by assumption) (by decide) | with_reducible apply modClk_keeps
    | with_reducible apply event_keeps | with_reducible apply releaseCore_keeps
    | with_reducible apply modAssayer_keeps | with_reducible apply acceptToken_keeps
    | with_reducible apply modBoot_keeps | with_reducible refine foldl_keeps _ _ _ ?_ ?_
    | with_reducible refine foldl_fst_keeps _ _ _ ?_ ?_ | intro _ _ _ | intro _
    | with_reducible refine keeps_ite _ _ _ ?_ ?_ | split | with_reducible refine keeps_fst ?_ (by assumption)
    | with_reducible refine keeps_fst2 ?_ (by assumption) | simp only [])

theorem bindAtReset_keeps {W : Nat} {q0 : State} (s : State) (n : Nat) (hk : Keeps W q0 s) (hW : Sub 0x69 W) : Keeps
    W q0 (bindAtReset s n) := by
  unfold bindAtReset
  with_reducible repeat' (first
    | assumption | apply wr_keeps | apply bindSlot_keeps | exact sub_of (by assumption) (by decide))

theorem initUnits_keeps {W : Nat} {q0 : State} (s : State) (hk : Keeps W q0 s)
    (hW : Sub 0x8020279 W := by first | assumption | exact sub_of (by assumption) (by decide)) :
    Keeps W q0 (initUnits s) := by
  unfold initUnits
  repeat' (first
    | with_reducible assumption | exact sub_of (by assumption) (by decide) | with_reducible apply wr_keeps
    | with_reducible apply addDue_keeps | with_reducible apply countBuckets_keeps
    | with_reducible apply makeSpare_keeps | with_reducible apply portsReset_keeps
    | with_reducible apply dmaReset_keeps | with_reducible apply bindAtReset_keeps
    | with_reducible refine foldl_keeps _ _ _ ?_ ?_ | with_reducible refine foldl_fst_keeps _ _ _ ?_ ?_ | intro _ _ _
    | intro _ | with_reducible refine keeps_ite _ _ _ ?_ ?_ | split
    | with_reducible refine keeps_fst ?_ (by assumption) | with_reducible refine keeps_fst2 ?_ (by assumption)
    | simp only [] | with_reducible refine keeps_lit (by assumption) ?_)

theorem beginTraining_keeps {W : Nat} {q0 : State} (ms : Nat) (s : State) (hk : Keeps W q0 s)
    (hW : Sub 0x88A06F9 W := by first | assumption | exact sub_of (by assumption) (by decide)) :
    Keeps W q0 (beginTraining ms s) := by
  unfold beginTraining
  repeat' (first
    | with_reducible assumption | exact sub_of (by assumption) (by decide)
    | with_reducible exact twf_tset _ _ _ _ (by assumption)
    | with_reducible refine keeps_chan (W := W) ?_ _ (by assumption) | with_reducible exact twf_nil _
    | with_reducible refine keeps_ok (W := W) ?_ (by assumption) | with_reducible apply setMem_keeps
    | with_reducible apply startTraining_keeps | with_reducible apply releaseCore_keeps
    | with_reducible apply setStep_keeps | with_reducible apply applyBoard_keeps
    | with_reducible apply initUnits_keeps | with_reducible refine foldl_keeps _ _ _ ?_ ?_
    | with_reducible refine foldl_fst_keeps _ _ _ ?_ ?_ | intro _ _ _ | intro _
    | with_reducible refine keeps_ite _ _ _ ?_ ?_ | split | with_reducible refine keeps_fst ?_ (by assumption)
    | with_reducible refine keeps_fst2 ?_ (by assumption) | simp only [])

theorem imageStep_keeps {W : Nat} {q0 : State} (ms : Nat) (a b : FlashRep) (bad : List Nat) (loaded : Bool) (s :
    State) (hk : Keeps W q0 s) (hW : Sub 0x8CA06F9 W) : Keeps W q0 (imageStep ms a b bad loaded s) := by
  unfold imageStep
  with_reducible repeat' (first
    | assumption | apply modBoot_keeps | apply loadImage_keeps | apply bootFail_keeps | apply event_keeps
    | apply bootStop_keeps | apply beginTraining_keeps | exact sub_of (by assumption) (by decide) | split
    | simp only [])

theorem upStep_keeps {W : Nat} {q0 : State} (ms : Nat) (s : State) (hk : Keeps W q0 s) (hW : Sub 0x20800001 W) :
    Keeps W q0 (upStep ms s) := by
  unfold upStep
  with_reducible repeat' (first
    | assumption | apply wr_keeps | apply setDomain_keeps | apply setStep_keeps | apply modBoot_keeps
    | exact sub_of (by assumption) (by decide) | refine foldl_keeps _ _ _ ?_ ?_ | split | intro _ _ _)

theorem fuseStep_keeps {W : Nat} {q0 : State} (ms code : Nat) (passN passS : Bool) (s : State) (hk : Keeps W q0 s)
    (hW : Sub 0x8B80001 W) : Keeps W q0 (fuseStep ms code passN passS s) := by
  unfold fuseStep
  with_reducible repeat' (first
    | assumption | apply bootStop_keeps | apply wr_keeps | apply fenceComplex_keeps | apply giveToken_keeps
    | apply tossEvent_keeps | apply event_keeps | apply addDue_keeps | apply setStep_keeps
    | exact sub_of (by assumption) (by decide) | refine foldl_keeps _ _ _ ?_ ?_ | split | simp only []
    | intro _ _ _)

theorem trainedStep_keeps {W : Nat} {q0 : State} (ms : Nat) (s : State) (hk : Keeps W q0 s) (hW : Sub 0x8820C01 W) :
    Keeps W q0 (trainedStep ms s) := by
  unfold trainedStep
  with_reducible repeat' (first
    | assumption | apply bootStop_keeps | apply setStep_keeps | apply buildMap_keeps
    | exact sub_of (by assumption) (by decide) | split)

theorem beginFabric_keeps {W : Nat} {q0 : State} (ms : Nat) (s : State) (hk : Keeps W q0 s) (hW : Sub 0x8810001 W) :
    Keeps W q0 (beginFabric ms s) := by
  unfold beginFabric
  with_reducible repeat' (first
    | assumption | apply addDue_keeps | apply bringUp_keeps | apply wr_keeps | apply setStep_keeps
    | apply modFab_keeps | exact sub_of (by assumption) (by decide) | refine foldl_keeps _ _ _ ?_ ?_ | intro _ _ _)

theorem filledStep_keeps {W : Nat} {q0 : State} (ms : Nat) (s : State) (hk : Keeps W q0 s) (hW : Sub 0x8810001 W) :
    Keeps W q0 (filledStep ms s) := by
  unfold filledStep
  with_reducible repeat' (first
    | assumption | apply bootStop_keeps | apply beginFabric_keeps | exact sub_of (by assumption) (by decide) | split)

theorem fabricStep_keeps {W : Nat} {q0 : State} (ms : Nat) (s : State) (hk : Keeps W q0 s) (hW : Sub 0x800000 W) :
    Keeps W q0 (fabricStep ms s) := by
  unfold fabricStep
  with_reducible repeat' (first | assumption | apply setStep_keeps | exact sub_of (by assumption) (by decide) | split)

theorem recordStep_keeps {W : Nat} {q0 : State} (ms : Nat) (okA okB : Bool) (s : State) (hk : Keeps W q0 s) (hW : Sub
    0x800002 W) : Keeps W q0 (recordStep ms okA okB s) := by
  unfold recordStep
  with_reducible repeat' (first
    | assumption | apply appendRecord_keeps | apply setStep_keeps | apply commitSvn_keeps | apply bootStop_keeps
    | apply bootFail_keeps | exact sub_of (by assumption) (by decide) | split)

theorem lockFresh_keeps {W : Nat} {q0 : State} (k : CLock) (bytes : List Nat) (a : State × List Nat) (x : Nat × Nat)
    (hk : Keeps W q0 a.1)
    (hW : Sub 0x200BFD19 W := by first | assumption | exact sub_of (by assumption) (by decide)) :
    Keeps W q0 (lockFresh k bytes a x).1 := by
  unfold lockFresh
  repeat' (first
    | with_reducible assumption | exact sub_of (by assumption) (by decide)
    | with_reducible exact twf_tset _ _ _ _ (by assumption)
    | with_reducible refine keeps_chan (W := W) ?_ _ (by assumption) | with_reducible exact twf_nil _
    | with_reducible refine keeps_ok (W := W) ?_ (by assumption) | with_reducible apply dropArr_keeps
    | with_reducible apply intoWay_keeps | with_reducible refine foldl_keeps _ _ _ ?_ ?_
    | with_reducible refine foldl_fst_keeps _ _ _ ?_ ?_ | intro _ _ _ | intro _
    | with_reducible refine keeps_ite _ _ _ ?_ ?_ | split | with_reducible refine keeps_fst ?_ (by assumption)
    | with_reducible refine keeps_fst2 ?_ (by assumption) | simp only [])

theorem platformLock_keeps {W : Nat} {q0 : State} (base size : Nat) (bytes : List Nat) (s : State) (hk : Keeps W q0
    s)
    (hW : Sub 0x200BFF19 W := by first | assumption | exact sub_of (by assumption) (by decide)) :
    Keeps W q0 (platformLock base size bytes s) := by
  unfold platformLock
  repeat' (first
    | with_reducible assumption | exact sub_of (by assumption) (by decide)
    | with_reducible exact twf_tset _ _ _ _ (by assumption)
    | with_reducible refine keeps_chan (W := W) ?_ _ (by assumption) | with_reducible exact twf_nil _
    | with_reducible refine keeps_ok (W := W) ?_ (by assumption) | with_reducible apply reserveWays_keeps
    | with_reducible apply lockFresh_keeps | with_reducible refine foldl_keeps _ _ _ ?_ ?_
    | with_reducible refine foldl_fst_keeps _ _ _ ?_ ?_ | intro _ _ _ | intro _
    | with_reducible refine keeps_ite _ _ _ ?_ ?_ | split | with_reducible refine keeps_fst ?_ (by assumption)
    | with_reducible refine keeps_fst2 ?_ (by assumption) | simp only []
    | with_reducible refine keeps_lit (by assumption) ?_
    | (refine keeps_mem _ ?_ ?_ (sub_of (by assumption) (by decide))))

theorem rejectPair_keeps {W : Nat} {q0 : State} (s : State) (p : Nat) (hk : Keeps W q0 s) (hW : Sub 0x882069 W) :
    Keeps W q0 (rejectPair s p) := by
  unfold rejectPair
  with_reducible repeat' (first
    | assumption | apply recContained_keeps | apply wr_keeps | apply bootFail_keeps | apply unbindSlot_keeps
    | exact sub_of (by assumption) (by decide) | split)

theorem releaseStep_keeps {W : Nat} {q0 : State} (ms : Nat) (digestOk : Bool) (rejected : List Nat) (s : State) (hk
    : Keeps W q0 s)
    (hW : Sub 0x288BFF79 W := by first | assumption | exact sub_of (by assumption) (by decide)) :
    Keeps W q0 (releaseStep ms digestOk rejected s) := by
  unfold releaseStep
  repeat' (first
    | with_reducible assumption | exact sub_of (by assumption) (by decide)
    | with_reducible exact twf_tset _ _ _ _ (by assumption)
    | with_reducible refine keeps_chan (W := W) ?_ _ (by assumption) | with_reducible exact twf_nil _
    | with_reducible refine keeps_ok (W := W) ?_ (by assumption) | with_reducible apply wr_keeps
    | with_reducible apply addDue_keeps | with_reducible apply writeBytes_keeps | with_reducible apply bootStop_keeps
    | with_reducible apply setStep_keeps | with_reducible apply platformLock_keeps
    | with_reducible apply rejectPair_keeps | with_reducible refine foldl_keeps _ _ _ ?_ ?_
    | with_reducible refine foldl_fst_keeps _ _ _ ?_ ?_ | intro _ _ _ | intro _
    | with_reducible refine keeps_ite _ _ _ ?_ ?_ | split | with_reducible refine keeps_fst ?_ (by assumption)
    | with_reducible refine keeps_fst2 ?_ (by assumption) | simp only [])

theorem stepComplete_keeps {W : Nat} {q0 : State} (ms : Nat) (r : StartRep) (s : State) (hk : Keeps W q0 s) (hW : Sub 0x28FBFFFB W) : Keeps W q0 (stepComplete ms r s) := by
  unfold stepComplete
  with_reducible repeat' (first
    | assumption | apply upStep_keeps | apply fuseStep_keeps | apply imageStep_keeps | apply trainedStep_keeps
    | apply filledStep_keeps | apply fabricStep_keeps | apply recordStep_keeps | apply releaseStep_keeps
    | exact sub_of (by assumption) (by decide) | split)

theorem trainTimeout_keeps {W : Nat} {q0 : State} (ms : Nat) (s : State) (hk : Keeps W q0 s) (hW : Sub 0x88A2C01 W) :
    Keeps W q0 (trainTimeout ms s) := by
  unfold trainTimeout
  with_reducible repeat' (first
    | assumption | apply trainedStep_keeps | apply leaveOut_keeps | exact sub_of (by assumption) (by decide)
    | refine foldl_keeps _ _ _ ?_ ?_ | intro _ _ _)

theorem fillTimeout_keeps {W : Nat} {q0 : State} (ms : Nat) (s : State) (hk : Keeps W q0 s) (hW : Sub 0x8820C01 W) :
    Keeps W q0 (fillTimeout ms s) := by
  unfold fillTimeout
  with_reducible repeat' (first
    | assumption | apply wr_keeps | apply bootStop_keeps | apply setStep_keeps | apply buildMap_keeps
    | exact sub_of (by assumption) (by decide) | refine foldl_keeps _ _ _ ?_ ?_ | split | simp only []
    | intro _ _ _)

theorem stepTimeout_keeps {W : Nat} {q0 : State} (ms : Nat) (s : State) (hk : Keeps W q0 s) (hW : Sub 0x88B2C07 W) :
    Keeps W q0 (stepTimeout ms s) := by
  unfold stepTimeout
  with_reducible repeat' (first
    | assumption | apply bootStop_keeps | apply trainTimeout_keeps | apply fillTimeout_keeps | apply setStep_keeps
    | apply bootFail_keeps | apply runAlone_keeps | apply recordStep_keeps
    | exact sub_of (by assumption) (by decide) | split)

theorem linkWaitExpiry_keeps {W : Nat} {q0 : State} (s : State) (hk : Keeps W q0 s) (hW : Sub 0x810005 W) : Keeps W
    q0 (linkWaitExpiry s) := by
  unfold linkWaitExpiry
  with_reducible repeat' (first
    | assumption | apply bootFail_keeps | apply runAlone_keeps | exact sub_of (by assumption) (by decide) | split)

/-! ## Package -/

theorem coldState_keeps {W : Nat} {q0 : State} (s : State) (hk : Keeps W q0 s)
    (hW : Sub 0x1FFFFFFF W := by first | assumption | exact sub_of (by assumption) (by decide)) : Keeps W q0
    (coldState s) := by
  refine ⟨hk.1, fun _ => rfl, fun _ => dramWf_keepRepair _, fun p hp => ?_⟩
  have h1 := hk.2.2.2 p hp
  cases p
  case freeCtr => exact h1
  all_goals exact absurd (sub_bit hW hp) (by decide)

theorem vinGood_keeps {W : Nat} {q0 : State} (resetLow : Bool) (s : State) (hk : Keeps W q0 s) (hW : Sub 0x1FFFFFFF
    W) : Keeps W q0 (vinGood resetLow s) := by
  unfold vinGood
  with_reducible repeat' (first
    | assumption | apply coldState_keeps | exact sub_of (by assumption) (by decide)
    | refine keeps_lit (by assumption) ?_)

theorem vinLost_keeps {W : Nat} {q0 : State} (s : State) (hk : Keeps W q0 s) (hW : Sub 0x1FFFFFFF W) : Keeps W q0
    (vinLost s) := by
  unfold vinLost
  with_reducible repeat' (first
    | assumption | apply coldState_keeps | apply vinGood_keeps | exact sub_of (by assumption) (by decide)
    | refine keeps_lit (by assumption) ?_)

theorem warmReset_keeps {W : Nat} {q0 : State} (s : State) (hk : Keeps W q0 s)
    (hW : Sub 0x3FFF5FFF W := by first | assumption | exact sub_of (by assumption) (by decide)) : Keeps W q0
    (warmReset s) := by
  have h1 : Keeps W q0 ((mbxIds s).foldl abandonMbx s) := foldl_keeps _ _ _ hk (fun a x ha => abandonMbx_keeps _ _ ha)
  unfold warmReset; dsimp only
  refine foldl_keeps _ _ _ (foldl_keeps _ _ _ (foldl_keeps _ _ _ ⟨hk.1, fun h => twf_filter _ _ _ (h1.2.1 h), fun _ => dramWf_keepRepair _, fun p hp => ?_⟩ (fun a x ha => wr_keeps _ _ _ ha)) (fun a x ha => setDomain_keeps _ _ _ ha)) (fun a x ha => ?_)
  · have h2 := hk.2.2.2 p hp
    cases p
    case freeCtr => exact h2
    case ras => exact h2
    case nextXid => exact h2
    all_goals exact absurd (sub_bit hW hp) (by decide)
  · split
    · exact wr_keeps _ _ _ ha
    · exact ha

theorem resetRise_keeps {W : Nat} {q0 : State} (lowNs : Nat) (s : State) (hk : Keeps W q0 s) (hW : Sub 0x3FFF5FFF W)
    : Keeps W q0 (resetRise lowNs s) := by
  unfold resetRise
  with_reducible repeat' (first
    | assumption | apply setStep_keeps | apply warmReset_keeps | apply freeNext_keeps
    | exact sub_of (by assumption) (by decide) | split | simp only [] | refine keeps_lit (by assumption) ?_)

theorem straps_keeps {W : Nat} {q0 : State} (l : List Nat) (s : State) (hk : Keeps W q0 s) (hW : Sub 0x20082003 W) :
    Keeps W q0 (straps l s) := by
  unfold straps
  with_reducible repeat' (first
    | assumption | apply freeNext_keeps | apply recContained_keeps | exact sub_of (by assumption) (by decide)
    | split | simp only [] | refine keeps_lit (by assumption) ?_)

theorem clearSecrets_keeps {W : Nat} {q0 : State} (s : State) (hk : Keeps W q0 s) (hW : Sub 0x90400 W) : Keeps W q0
    (clearSecrets s) := by
  unfold clearSecrets
  with_reducible repeat' (first
    | assumption | apply modPort_keeps | apply holdCore_keeps | apply setMem_keeps
    | exact sub_of (by assumption) (by decide) | refine keeps_ok (W := W) ?_ (by assumption)
    | refine foldl_keeps _ _ _ ?_ ?_ | exact twf_tset _ _ _ _ (by assumption) | exact twf_nil _
    | refine keeps_ok (W := W) ?_ (by assumption) | refine keeps_chan (W := W) ?_ _ (by assumption) | intro _ _ _
    | intro _)

theorem thermalTrip_keeps {W : Nat} {q0 : State} (n : Nat) (v : Int) (s : State) (hk : Keeps W q0 s) (hW : Sub
    0x20090403 W) : Keeps W q0 (thermalTrip n v s) := by
  unfold thermalTrip
  with_reducible repeat' (first
    | assumption | apply clearSecrets_keeps | apply setDomain_keeps | exact sub_of (by assumption) (by decide)
    | refine foldl_keeps _ _ _ ?_ ?_ | split | intro _ _ _ | intro _ | refine keeps_lit (by assumption) ?_)

theorem powerOff_keeps {W : Nat} {q0 : State} (s : State) (hk : Keeps W q0 s) (hW : Sub 0x1FFFFFFF W) : Keeps W q0
    (powerOff s) := by
  unfold powerOff
  with_reducible repeat' (first
    | assumption | apply coldState_keeps | exact sub_of (by assumption) (by decide) | split
    | refine keeps_lit (by assumption) ?_)

theorem setI3c_keeps {W : Nat} {q0 : State} (a : Nat × Nat × Bytes) (s : State) (hk : Keeps W q0 s) (hW : Sub 0x2 W)
    : Keeps W q0 (setI3c a s) := by
  unfold setI3c
  with_reducible repeat' (first
    | assumption | exact sub_of (by assumption) (by decide) | refine keeps_lit (by assumption) ?_)

theorem mctpRequest_keeps {W : Nat} {q0 : State} (code : Nat) (args : List Nat) (s : State) (hk : Keeps W q0 s) (hW :
    Sub 0x81003 W) : Keeps W q0 (mctpRequest code args s) := by
  unfold mctpRequest
  with_reducible repeat' (first
    | assumption | apply setI3c_keeps | apply doorbell_keeps | apply setMbx_keeps
    | exact sub_of (by assumption) (by decide) | split | simp only [] | refine keeps_lit (by assumption) ?_)

theorem i3cReturn_keeps {W : Nat} {q0 : State} (s : State) (hk : Keeps W q0 s) (hW : Sub 0x1003 W) : Keeps W q0
    (i3cReturn s) := by
  unfold i3cReturn
  with_reducible repeat' (first
    | assumption | apply ackResult_keeps | apply setMbx_keeps | apply setI3c_keeps
    | exact sub_of (by assumption) (by decide) | split | simp only [])

theorem i3cTimeout_keeps {W : Nat} {q0 : State} (sclLowMs packetMs : Nat) (complete : Bool) (s : State) (hk : Keeps W
    q0 s) (hW : Sub 0x2 W) : Keeps W q0 (i3cTimeout sclLowMs packetMs complete s) := by
  unfold i3cTimeout
  with_reducible repeat' (first
    | assumption | apply complete_keeps | exact sub_of (by assumption) (by decide) | split
    | refine keeps_lit (by assumption) ?_)

/-! ## Settle -/

theorem takeOne_keeps {W : Nat} {q0 : State} (b : Nat) (s : State) (i : Nat) (hk : Keeps W q0 s) (hW : Sub 0x1001 W)
    : Keeps W q0 (takeOne b s i) := by
  unfold takeOne
  with_reducible repeat' (first
    | assumption | apply wr_keeps | apply bump_keeps | apply setMbx_keeps | apply stageRefused_keeps
    | exact sub_of (by assumption) (by decide) | split | simp only [])

theorem takeAll_keeps {W : Nat} {q0 : State} (b : Nat) (s : State) (hk : Keeps W q0 s) (hW : Sub 0x1001 W) : Keeps W
    q0 (takeAll b s) := by
  unfold takeAll
  with_reducible repeat' (first
    | assumption | apply bump_keeps | apply wr_keeps | apply takeOne_keeps
    | exact sub_of (by assumption) (by decide) | refine foldl_keeps _ _ _ ?_ ?_ | split | intro _ _ _)

/-! ## Boundary -/

theorem tryAgain_keeps {W : Nat} {q0 : State} (i : Nat) (s : State) (hk : Keeps W q0 s)
    (hW : Sub 0x380BFD39 W := by first | assumption | exact sub_of (by assumption) (by decide)) :
    Keeps W q0 (tryAgain i s) := by
  unfold tryAgain
  repeat' (first
    | with_reducible assumption | exact sub_of (by assumption) (by decide)
    | with_reducible exact twf_tset _ _ _ _ (by assumption)
    | with_reducible refine keeps_chan (W := W) ?_ _ (by assumption) | with_reducible exact twf_nil _
    | with_reducible refine keeps_ok (W := W) ?_ (by assumption) | with_reducible apply memClear_keeps
    | with_reducible apply tenantGrant_keeps | with_reducible apply tenantLoad_keeps
    | with_reducible refine foldl_keeps _ _ _ ?_ ?_ | with_reducible refine foldl_fst_keeps _ _ _ ?_ ?_ | intro _ _ _
    | intro _ | with_reducible refine keeps_ite _ _ _ ?_ ?_ | split
    | with_reducible refine keeps_fst ?_ (by assumption) | with_reducible refine keeps_fst2 ?_ (by assumption)
    | simp only [])

theorem applyAct_keeps {W : Nat} {q0 : State} (s : State) (a : Act) (hk : Keeps W q0 s)
    (hW : Sub 0x3DFFFF7F W := by first | assumption | exact sub_of (by assumption) (by decide)) :
    Keeps W q0 (applyAct s a) := by
  unfold applyAct
  repeat' (first
    | with_reducible assumption | exact sub_of (by assumption) (by decide)
    | with_reducible exact twf_tset _ _ _ _ (by assumption)
    | with_reducible refine keeps_chan (W := W) ?_ _ (by assumption) | with_reducible exact twf_nil _
    | with_reducible refine keeps_ok (W := W) ?_ (by assumption) | with_reducible apply wr_keeps
    | with_reducible apply detectedAt_keeps | with_reducible apply stageDone_keeps
    | with_reducible apply rateReturn_keeps | with_reducible apply catchUpStart_keeps
    | with_reducible apply spareDevice_keeps | with_reducible apply deviceSpare_keeps
    | with_reducible apply putSeg_keeps | with_reducible apply drainSlice_keeps
    | with_reducible apply switchBuckets_keeps | with_reducible apply handSlice_keeps
    | with_reducible apply clearEnd_keeps | with_reducible apply fenceHart_keeps
    | with_reducible apply decideStep_keeps | with_reducible apply stopHart_keeps
    | with_reducible apply applyMode_keeps | with_reducible apply startHart_keeps
    | with_reducible apply hartOffline_keeps | with_reducible apply startFor_keeps
    | with_reducible apply changeOwner_keeps | with_reducible apply takeRole_keeps
    | with_reducible apply takeBif_keeps | with_reducible apply applyConf_keeps | with_reducible apply applyEp_keeps
    | with_reducible apply cxlChange_keeps | with_reducible apply dmaGive_keeps | with_reducible apply modTenant_keeps
    | with_reducible apply giveHart_keeps | with_reducible apply assignHart_keeps
    | with_reducible apply openTenant_keeps | with_reducible apply grantApply_keeps
    | with_reducible apply sealStart_keeps | with_reducible apply sealApply_keeps
    | with_reducible apply unsealStart_keeps | with_reducible apply unsealApply_keeps
    | with_reducible apply rekeyCurrent_keeps | with_reducible apply rekeyEnd_keeps
    | with_reducible apply closeStart_keeps | with_reducible apply closeRelease_keeps
    | with_reducible apply keysErased_keeps | with_reducible apply shareOn_keeps | with_reducible apply shareOff_keeps
    | with_reducible apply fabPortApply_keeps | with_reducible apply fabGrantApply_keeps
    | with_reducible apply dueSwitch_keeps | with_reducible apply testStart_keeps
    | with_reducible apply gatePair_keeps | with_reducible apply ungate_keeps | with_reducible apply releasePads_keeps
    | with_reducible apply domainApply_keeps | with_reducible apply fenceNotice_keeps
    | with_reducible apply fenceHalf_keeps | with_reducible apply fenceUnit_keeps
    | with_reducible apply passToken_keeps | with_reducible apply attest_keeps | with_reducible apply tryAgain_keeps
    | with_reducible refine foldl_keeps _ _ _ ?_ ?_ | with_reducible refine foldl_fst_keeps _ _ _ ?_ ?_ | intro _ _ _
    | intro _ | with_reducible refine keeps_ite _ _ _ ?_ ?_ | split
    | with_reducible refine keeps_fst ?_ (by assumption) | with_reducible refine keeps_fst2 ?_ (by assumption)
    | simp only [])

theorem applyDue_keeps {W : Nat} {q0 : State} (k : Nat) (s : State) (hk : Keeps W q0 s)
    (hW : Sub 0x3DFFFF7F W := by first | assumption | exact sub_of (by assumption) (by decide)) :
    Keeps W q0 (applyDue k s) := by
  unfold applyDue
  repeat' (first
    | with_reducible assumption | exact sub_of (by assumption) (by decide)
    | with_reducible exact twf_tset _ _ _ _ (by assumption)
    | with_reducible refine keeps_chan (W := W) ?_ _ (by assumption) | with_reducible exact twf_nil _
    | with_reducible refine keeps_ok (W := W) ?_ (by assumption) | with_reducible apply applyAct_keeps
    | with_reducible refine foldl_keeps _ _ _ ?_ ?_ | with_reducible refine foldl_fst_keeps _ _ _ ?_ ?_ | intro _ _ _
    | intro _ | with_reducible refine keeps_ite _ _ _ ?_ ?_ | split
    | with_reducible refine keeps_fst ?_ (by assumption) | with_reducible refine keeps_fst2 ?_ (by assumption)
    | simp only [] | with_reducible refine keeps_lit (by assumption) ?_
    | (refine keeps_mem _ ?_ ?_ (sub_of (by assumption) (by decide))))

theorem timers_keeps {W : Nat} {q0 : State} (s : State) (hk : Keeps W q0 s) (hW : Sub 0x9 W) : Keeps W q0 (timers s)
    := by
  unfold timers
  with_reducible repeat' (first
    | assumption | apply wakeHart_keeps | apply wakeFiles_keeps | exact sub_of (by assumption) (by decide)
    | refine foldl_keeps _ _ _ ?_ ?_ | split | intro _ _ _)

theorem stepTime_keeps {W : Nat} {q0 : State} (inp : BeatIn) (s : State) (hk : Keeps W q0 s)
    (hW : Sub 0x20E93C0D W := by first | assumption | exact sub_of (by assumption) (by decide)) :
    Keeps W q0 (stepTime inp s) := by
  unfold stepTime
  repeat' (first
    | with_reducible assumption | exact sub_of (by assumption) (by decide)
    | with_reducible exact twf_tset _ _ _ _ (by assumption)
    | with_reducible refine keeps_chan (W := W) ?_ _ (by assumption) | with_reducible exact twf_nil _
    | with_reducible refine keeps_ok (W := W) ?_ (by assumption) | with_reducible apply setTime_keeps
    | with_reducible apply refBoundary_keeps | with_reducible apply refWake_keeps
    | with_reducible apply holdoverBeat_keeps | with_reducible apply advanceTime_keeps
    | with_reducible apply alignBoundary_keeps | with_reducible apply copyCheck_keeps
    | with_reducible apply aoSource_keeps | with_reducible apply leaveForced_keeps
    | with_reducible apply applyEnables_keeps | with_reducible apply timers_keeps
    | with_reducible refine foldl_keeps _ _ _ ?_ ?_ | with_reducible refine foldl_fst_keeps _ _ _ ?_ ?_ | intro _ _ _
    | intro _ | with_reducible refine keeps_ite _ _ _ ?_ ?_ | split
    | with_reducible refine keeps_fst ?_ (by assumption) | with_reducible refine keeps_fst2 ?_ (by assumption)
    | simp only [])

theorem stepPower_keeps {W : Nat} {q0 : State} (inp : BeatIn) (s : State) (hk : Keeps W q0 s) (hW : Sub 0x3DFFFF7F W)
    : Keeps W q0 (stepPower inp s) := by
  unfold stepPower
  with_reducible repeat' (first
    | assumption | apply thermRegs_keeps | apply takeReading_keeps | apply gateAbandon_keeps
    | apply clockBeat_keeps | apply applyDue_keeps | exact sub_of (by assumption) (by decide)
    | refine foldl_keeps _ _ _ ?_ ?_ | intro _ _ _)

theorem newOwners_keeps {W : Nat} {q0 : State} (c : Nat) (s : State) (hk : Keeps W q0 s)
    (hW : Sub 0x401 W := by first | assumption | exact sub_of (by assumption) (by decide)) :
    Keeps W q0 (newOwners c s) := by
  unfold newOwners
  repeat' (first
    | with_reducible assumption | exact sub_of (by assumption) (by decide)
    | with_reducible exact twf_tset _ _ _ _ (by assumption)
    | with_reducible refine keeps_chan (W := W) ?_ _ (by assumption) | with_reducible exact twf_nil _
    | with_reducible refine keeps_ok (W := W) ?_ (by assumption) | with_reducible apply wr_keeps
    | with_reducible apply modChan_keeps | with_reducible apply setSealedQ_keeps | with_reducible apply putReq_keeps
    | with_reducible refine foldl_keeps _ _ _ ?_ ?_ | with_reducible refine foldl_fst_keeps _ _ _ ?_ ?_ | intro _ _ _
    | intro _ | with_reducible refine keeps_ite _ _ _ ?_ ?_ | split
    | with_reducible refine keeps_fst ?_ (by assumption) | with_reducible refine keeps_fst2 ?_ (by assumption)
    | simp only [])

theorem endWindows_keeps {W : Nat} {q0 : State} (c : Nat) (s : State) (hk : Keeps W q0 s)
    (hW : Sub 0x400 W := by first | assumption | exact sub_of (by assumption) (by decide)) :
    Keeps W q0 (endWindows c s) := by
  unfold endWindows
  repeat' (first
    | with_reducible assumption | exact sub_of (by assumption) (by decide)
    | with_reducible exact twf_tset _ _ _ _ (by assumption)
    | with_reducible refine keeps_chan (W := W) ?_ _ (by assumption) | with_reducible exact twf_nil _
    | with_reducible refine keeps_ok (W := W) ?_ (by assumption) | with_reducible apply modChan_keeps
    | with_reducible apply closeBoth_keeps | with_reducible refine foldl_keeps _ _ _ ?_ ?_
    | with_reducible refine foldl_fst_keeps _ _ _ ?_ ?_ | intro _ _ _ | intro _
    | with_reducible refine keeps_ite _ _ _ ?_ ?_ | split | with_reducible refine keeps_fst ?_ (by assumption)
    | with_reducible refine keeps_fst2 ?_ (by assumption) | simp only [])

theorem fillBeat_keeps {W : Nat} {q0 : State} (c : Nat) (s : State) (hk : Keeps W q0 s)
    (hW : Sub 0x1 W := by first | assumption | exact sub_of (by assumption) (by decide)) :
    Keeps W q0 (fillBeat c s) := by
  unfold fillBeat
  repeat' (first
    | with_reducible assumption | exact sub_of (by assumption) (by decide) | with_reducible apply wr_keeps
    | with_reducible refine foldl_keeps _ _ _ ?_ ?_ | with_reducible refine foldl_fst_keeps _ _ _ ?_ ?_ | intro _ _ _
    | intro _ | with_reducible refine keeps_ite _ _ _ ?_ ?_ | split
    | with_reducible refine keeps_fst ?_ (by assumption) | with_reducible refine keeps_fst2 ?_ (by assumption)
    | simp only [])

theorem startFrame_keeps {W : Nat} {q0 : State} (s : State) (c : Nat) (hk : Keeps W q0 s)
    (hW : Sub 0x1C01 W := by first | assumption | exact sub_of (by assumption) (by decide)) :
    Keeps W q0 (startFrame s c) := by
  unfold startFrame
  repeat' (first
    | with_reducible assumption | exact sub_of (by assumption) (by decide)
    | with_reducible exact twf_tset _ _ _ _ (by assumption)
    | with_reducible refine keeps_chan (W := W) ?_ _ (by assumption) | with_reducible exact twf_nil _
    | with_reducible refine keeps_ok (W := W) ?_ (by assumption) | with_reducible apply addLost_keeps
    | with_reducible apply setRem_keeps | with_reducible apply endEvents_keeps | with_reducible apply newOwners_keeps
    | with_reducible apply endWindows_keeps | with_reducible apply fillBeat_keeps
    | with_reducible refine foldl_keeps _ _ _ ?_ ?_ | with_reducible refine foldl_fst_keeps _ _ _ ?_ ?_ | intro _ _ _
    | intro _ | with_reducible refine keeps_ite _ _ _ ?_ ?_ | split
    | with_reducible refine keeps_fst ?_ (by assumption) | with_reducible refine keeps_fst2 ?_ (by assumption)
    | simp only [])

theorem summary_keeps {W : Nat} {q0 : State} (compared : List (Nat × Nat)) (was : List Nat) (s : State) (p : Nat)
    (hk : Keeps W q0 s)
    (hW : Sub 0x21 W := by first | assumption | exact sub_of (by assumption) (by decide)) :
    Keeps W q0 (summary compared was s p) := by
  unfold summary
  repeat' (first
    | with_reducible assumption | exact sub_of (by assumption) (by decide) | with_reducible apply wr_keeps
    | with_reducible apply setPair_keeps | with_reducible refine foldl_keeps _ _ _ ?_ ?_
    | with_reducible refine foldl_fst_keeps _ _ _ ?_ ?_ | intro _ _ _ | intro _
    | with_reducible refine keeps_ite _ _ _ ?_ ?_ | split | with_reducible refine keeps_fst ?_ (by assumption)
    | with_reducible refine keeps_fst2 ?_ (by assumption) | simp only [])

theorem stallBeat_keeps {W : Nat} {q0 : State} (h n : Nat) (s : State) (hk : Keeps W q0 s)
    (hW : Sub 0x20000008 W := by first | assumption | exact sub_of (by assumption) (by decide)) :
    Keeps W q0 (stallBeat h n s) := by
  unfold stallBeat
  repeat' (first
    | with_reducible assumption | exact sub_of (by assumption) (by decide) | with_reducible apply freeNext_keeps
    | with_reducible apply countN_keeps | with_reducible refine foldl_keeps _ _ _ ?_ ?_
    | with_reducible refine foldl_fst_keeps _ _ _ ?_ ?_ | intro _ _ _ | intro _
    | with_reducible refine keeps_ite _ _ _ ?_ ?_ | split | with_reducible refine keeps_fst ?_ (by assumption)
    | with_reducible refine keeps_fst2 ?_ (by assumption) | simp only [])

theorem cycleBeat_keeps {W : Nat} {q0 : State} (ran : List Nat) (s : State) (hk : Keeps W q0 s)
    (hW : Sub 0x20000008 W := by first | assumption | exact sub_of (by assumption) (by decide)) :
    Keeps W q0 (cycleBeat ran s) := by
  unfold cycleBeat
  repeat' (first
    | with_reducible assumption | exact sub_of (by assumption) (by decide) | with_reducible apply countCycles_keeps
    | with_reducible apply stallBeat_keeps | with_reducible refine foldl_keeps _ _ _ ?_ ?_
    | with_reducible refine foldl_fst_keeps _ _ _ ?_ ?_ | intro _ _ _ | intro _
    | with_reducible refine keeps_ite _ _ _ ?_ ?_ | split | with_reducible refine keeps_fst ?_ (by assumption)
    | with_reducible refine keeps_fst2 ?_ (by assumption) | simp only [])

theorem stepSample_keeps {W : Nat} {q0 : State} (inp : BeatIn) (was ran : List Nat) (s : State) (hk : Keeps W q0 s)
    (hW : Sub 0x3DFFFF7F W := by first | assumption | exact sub_of (by assumption) (by decide)) :
    Keeps W q0 (stepSample inp was ran s) := by
  unfold stepSample
  repeat' (first
    | with_reducible assumption | exact sub_of (by assumption) (by decide)
    | with_reducible exact twf_tset _ _ _ _ (by assumption)
    | with_reducible refine keeps_chan (W := W) ?_ _ (by assumption) | with_reducible exact twf_nil _
    | with_reducible refine keeps_ok (W := W) ?_ (by assumption) | with_reducible apply publishOne_keeps
    | with_reducible apply publishNotices_keeps | with_reducible apply sampleHearts_keeps
    | with_reducible apply sampleAssayer_keeps | with_reducible apply i3cReturn_keeps
    | with_reducible apply applyDue_keeps | with_reducible apply summary_keeps | with_reducible apply cycleBeat_keeps
    | with_reducible refine foldl_keeps _ _ _ ?_ ?_ | with_reducible refine foldl_fst_keeps _ _ _ ?_ ?_ | intro _ _ _
    | intro _ | with_reducible refine keeps_ite _ _ _ ?_ ?_ | split
    | with_reducible refine keeps_fst ?_ (by assumption) | with_reducible refine keeps_fst2 ?_ (by assumption)
    | simp only [])

theorem slicePulse_keeps {W : Nat} {q0 : State} (b : Nat) (s : State) (hk : Keeps W q0 s) (hW : Sub 0x80001 W) :
    Keeps W q0 (slicePulse b s) := by
  unfold slicePulse
  with_reducible repeat' (first
    | assumption | apply clkIrq_keeps | apply wr_keeps | exact sub_of (by assumption) (by decide)
    | refine foldl_keeps _ _ _ ?_ ?_ | split | intro _ _ _)

theorem stepSlice_keeps {W : Nat} {q0 : State} (s : State) (hk : Keeps W q0 s)
    (hW : Sub 0x3DFFFF7F W := by first | assumption | exact sub_of (by assumption) (by decide)) :
    Keeps W q0 (stepSlice s) := by
  unfold stepSlice
  repeat' (first
    | with_reducible assumption | exact sub_of (by assumption) (by decide)
    | with_reducible exact twf_tset _ _ _ _ (by assumption)
    | with_reducible refine keeps_chan (W := W) ?_ _ (by assumption) | with_reducible exact twf_nil _
    | with_reducible refine keeps_ok (W := W) ?_ (by assumption) | with_reducible apply placeNotices_keeps
    | with_reducible apply reserveLibero_keeps | with_reducible apply groupsBeat_keeps
    | with_reducible apply fabricBeat_keeps | with_reducible apply pumpTrks_keeps
    | with_reducible apply countIdle_keeps | with_reducible apply judgeDrowse_keeps
    | with_reducible apply idleBeat_keeps | with_reducible apply takeAll_keeps | with_reducible apply applyDue_keeps
    | with_reducible apply slicePulse_keeps | with_reducible refine foldl_keeps _ _ _ ?_ ?_
    | with_reducible refine foldl_fst_keeps _ _ _ ?_ ?_ | intro _ _ _ | intro _
    | with_reducible refine keeps_ite _ _ _ ?_ ?_ | split | with_reducible refine keeps_fst ?_ (by assumption)
    | with_reducible refine keeps_fst2 ?_ (by assumption) | simp only [])

theorem boundary_keeps {W : Nat} {q0 : State} (inp : BeatIn) (s : State) (hk : Keeps W q0 s)
    (hW : Sub 0x3DFFFF7F W := by first | assumption | exact sub_of (by assumption) (by decide)) :
    Keeps W q0 (boundary inp s) := by
  unfold boundary
  repeat' (first
    | with_reducible assumption | exact sub_of (by assumption) (by decide)
    | with_reducible exact twf_tset _ _ _ _ (by assumption)
    | with_reducible refine keeps_chan (W := W) ?_ _ (by assumption) | with_reducible exact twf_nil _
    | with_reducible refine keeps_ok (W := W) ?_ (by assumption) | with_reducible apply dmaSnapshot_keeps
    | with_reducible apply sleepBoundary_keeps | with_reducible apply judgeQueues_keeps
    | with_reducible apply applyHolds_keeps | with_reducible apply applyDue_keeps
    | with_reducible apply stepTime_keeps | with_reducible apply stepPower_keeps
    | with_reducible apply startFrame_keeps | with_reducible apply stepSample_keeps
    | with_reducible apply stepSlice_keeps | with_reducible refine foldl_keeps _ _ _ ?_ ?_
    | with_reducible refine foldl_fst_keeps _ _ _ ?_ ?_ | intro _ _ _ | intro _
    | with_reducible refine keeps_ite _ _ _ ?_ ?_ | split | with_reducible refine keeps_fst ?_ (by assumption)
    | with_reducible refine keeps_fst2 ?_ (by assumption) | simp only [])

theorem commandStep_keeps {W : Nat} {q0 : State} (i : Nat) (committed : Bool) (s : State) (hk : Keeps W q0 s)
    (hW : Sub 0x18401000 W := by first | assumption | exact sub_of (by assumption) (by decide)) :
    Keeps W q0 (commandStep i committed s) := by
  unfold commandStep
  repeat' (first
    | with_reducible assumption | exact sub_of (by assumption) (by decide) | with_reducible apply addDue_keeps
    | with_reducible apply stageRefused_keeps | with_reducible apply modAssayer_keeps
    | with_reducible refine foldl_keeps _ _ _ ?_ ?_ | with_reducible refine foldl_fst_keeps _ _ _ ?_ ?_ | intro _ _ _
    | intro _ | with_reducible refine keeps_ite _ _ _ ?_ ?_ | split
    | with_reducible refine keeps_fst ?_ (by assumption) | with_reducible refine keeps_fst2 ?_ (by assumption)
    | simp only [] | with_reducible refine keeps_lit (by assumption) ?_)

theorem refCycle_keeps {W : Nat} {q0 : State} (s : State) (hk : Keeps W q0 s)
    (hW : Sub 0xD W := by first | assumption | exact sub_of (by assumption) (by decide)) :
    Keeps W q0 (refCycle s) := by
  unfold refCycle
  repeat' (first
    | with_reducible assumption | exact sub_of (by assumption) (by decide) | with_reducible apply wr_keeps
    | with_reducible apply setTime_keeps | with_reducible apply timers_keeps
    | with_reducible refine foldl_keeps _ _ _ ?_ ?_ | with_reducible refine foldl_fst_keeps _ _ _ ?_ ?_ | intro _ _ _
    | intro _ | with_reducible refine keeps_ite _ _ _ ?_ ?_ | split
    | with_reducible refine keeps_fst ?_ (by assumption) | with_reducible refine keeps_fst2 ?_ (by assumption)
    | simp only [])

end Sys2Proof.Machine
end

