-- ==== Sys2Proof/Laws/KeepsExec.lean ====
section
/-! SUPPORT. Laws/KeepsExec.lean: every meaning answers a next state, and what it writes. -/
set_option Elab.async false
namespace Sys2Proof.Machine

/-- The outcome is a next state that q0 may reach by writing no part outside W. -/
def Runs (W : Nat) (q0 : State) (o : Host.Outcome State Fault Refusal) : Prop := ∃ t, o = .next t ∧ Keeps W q0 t

theorem runs_next {W : Nat} {q0 t : State} (h : Keeps W q0 t) : Runs W q0 (.next t) := ⟨t, rfl, h⟩

theorem runs_ite {W : Nat} {q0 : State} (c : Prop) [Decidable c] (a b : Host.Outcome State Fault Refusal)
    (ha : Runs W q0 a) (hb : Runs W q0 b) : Runs W q0 (if c then a else b) := by split <;> assumption

theorem execRefclkLoss_keeps {W : Nat} {q0 : State} (ref gapNs ppm : Nat) (s : State) (hk : Keeps W q0 s)
    (hW : Sub 0x82005 W := by first | assumption | exact sub_of (by assumption) (by decide)) :
    Runs W q0 (execRefclkLoss ref gapNs ppm s) := by
  unfold execRefclkLoss
  repeat' (first
    | with_reducible assumption | exact sub_of (by assumption) (by decide) | with_reducible apply runs_next
    | with_reducible refine runs_ite _ _ _ ?_ ?_ | with_reducible apply refclkLoss_keeps
    | with_reducible refine foldl_keeps _ _ _ ?_ ?_ | with_reducible refine foldl_fst_keeps _ _ _ ?_ ?_ | intro _ _ _
    | intro _ | with_reducible refine keeps_ite _ _ _ ?_ ?_ | split
    | with_reducible refine keeps_fst ?_ (by assumption) | with_reducible refine keeps_fst2 ?_ (by assumption)
    | simp only [])

theorem execRefclkRecovered_keeps {W : Nat} {q0 : State} (ref cycles : Nat) (s : State) (hk : Keeps W q0 s) (hW : Sub
    0x1 W) : Runs W q0 (execRefclkRecovered ref cycles s) := by
  unfold execRefclkRecovered
  with_reducible repeat' (first
    | assumption | exact sub_of (by assumption) (by decide) | apply runs_next | apply refclkRecovered_keeps)

theorem execRefPrefWrite_keeps {W : Nat} {q0 : State} (pref : Nat) (s : State) (hk : Keeps W q0 s) (hW : Sub 0x1 W) :
    Runs W q0 (execRefPrefWrite pref s) := by
  unfold execRefPrefWrite
  with_reducible repeat' (first
    | assumption | exact sub_of (by assumption) (by decide) | apply runs_next | apply wr_keeps)

theorem execXtal32Loss_keeps {W : Nat} {q0 : State} (gapNs : Nat) (s : State) (hk : Keeps W q0 s) (hW : Sub 0x3 W) :
    Runs W q0 (execXtal32Loss gapNs s) := by
  unfold execXtal32Loss
  with_reducible repeat' (first
    | assumption | exact sub_of (by assumption) (by decide) | apply runs_next | apply wr_keeps
    | refine runs_ite _ _ _ ?_ ?_ | refine keeps_ite _ _ _ ?_ ?_ | split | simp only []
    | refine keeps_lit (by assumption) ?_)

theorem execSlewDone_keeps {W : Nat} {q0 : State} (s : State) (hk : Keeps W q0 s) (hW : Sub 0x5 W) : Runs W q0
    (execSlewDone s) := by
  unfold execSlewDone
  with_reducible repeat' (first
    | assumption | exact sub_of (by assumption) (by decide) | apply runs_next | apply slewDone_keeps)

theorem execSensorRetire_keeps {W : Nat} {q0 : State} (sensor : Nat) (s : State) (hk : Keeps W q0 s) (hW : Sub
    0x82003 W) : Runs W q0 (execSensorRetire sensor s) := by
  unfold execSensorRetire
  with_reducible repeat' (first
    | assumption | exact sub_of (by assumption) (by decide) | apply runs_next | apply recContained_keeps
    | refine runs_ite _ _ _ ?_ ?_ | refine keeps_ite _ _ _ ?_ ?_ | split | simp only []
    | refine keeps_lit (by assumption) ?_)

theorem execDramRequest_keeps {W : Nat} {q0 : State} (c : Nat) (q : DAcc) (s : State) (hk : Keeps W q0 s) (hW : Sub
    0xA3C01 W) : Runs W q0 (execDramRequest c q s) := by
  unfold execDramRequest
  with_reducible repeat' (first
    | assumption | exact sub_of (by assumption) (by decide) | apply runs_next | apply dramRequest_keeps)

theorem execCommandOpportunity_keeps {W : Nat} {q0 : State} (c sub slot : Nat) (s : State) (hk : Keeps W q0 s) (hW :
    Sub 0x83C19 W) : Runs W q0 (execCommandOpportunity c sub slot s) := by
  unfold execCommandOpportunity
  with_reducible repeat' (first
    | assumption | exact sub_of (by assumption) (by decide) | apply runs_next | apply commandOpportunity_keeps)

theorem execRowIdleClose_keeps {W : Nat} {q0 : State} (c bank ns : Nat) (s : State) (hk : Keeps W q0 s) (hW : Sub
    0x400 W) : Runs W q0 (execRowIdleClose c bank ns s) := by
  unfold execRowIdleClose
  with_reducible repeat' (first
    | assumption | exact sub_of (by assumption) (by decide) | apply runs_next | apply setBank_keeps
    | refine runs_ite _ _ _ ?_ ?_ | refine keeps_ite _ _ _ ?_ ?_)

theorem execRtPortRequest_keeps {W : Nat} {q0 : State} (c : Nat) (q : DAcc) (s : State) (hk : Keeps W q0 s) (hW : Sub
    0xA3C01 W) : Runs W q0 (execRtPortRequest c q s) := by
  unfold execRtPortRequest
  with_reducible repeat' (first
    | assumption | exact sub_of (by assumption) (by decide) | apply runs_next | apply dramRequest_keeps)

theorem execRefreshOwed_keeps {W : Nat} {q0 : State} (c rank : Nat) (s : State) (hk : Keeps W q0 s) (hW : Sub 0x401
    W) : Runs W q0 (execRefreshOwed c rank s) := by
  unfold execRefreshOwed
  with_reducible repeat' (first
    | assumption | exact sub_of (by assumption) (by decide) | apply runs_next | apply refreshOwed_keeps)

theorem execClaimStart_keeps {W : Nat} {q0 : State} (c block : Nat) (s : State) (hk : Keeps W q0 s)
    (hW : Sub 0x400 W := by first | assumption | exact sub_of (by assumption) (by decide)) :
    Runs W q0 (execClaimStart c block s) := by
  unfold execClaimStart
  repeat' (first
    | with_reducible assumption | exact sub_of (by assumption) (by decide)
    | with_reducible exact twf_tset _ _ _ _ (by assumption)
    | with_reducible refine keeps_chan (W := W) ?_ _ (by assumption) | with_reducible exact twf_nil _
    | with_reducible refine keeps_ok (W := W) ?_ (by assumption) | with_reducible apply runs_next
    | with_reducible refine runs_ite _ _ _ ?_ ?_ | with_reducible apply closeRank_keeps
    | with_reducible refine foldl_keeps _ _ _ ?_ ?_ | with_reducible refine foldl_fst_keeps _ _ _ ?_ ?_ | intro _ _ _
    | intro _ | with_reducible refine keeps_ite _ _ _ ?_ ?_ | split
    | with_reducible refine keeps_fst ?_ (by assumption) | with_reducible refine keeps_fst2 ?_ (by assumption)
    | simp only [])

theorem execSealedSelection_keeps {W : Nat} {q0 : State} (c block : Nat) (s : State) (hk : Keeps W q0 s) (hW : Sub 0x83C19 W) : Runs W q0 (execSealedSelection c block s) := by
  unfold execSealedSelection
  with_reducible repeat' (first
    | assumption | exact sub_of (by assumption) (by decide) | apply runs_next | apply sealedSelection_keeps)

theorem execMr4Reading_keeps {W : Nat} {q0 : State} (c rank : Nat) (codes : List (Nat × Nat)) (s : State) (hk : Keeps
    W q0 s) (hW : Sub 0x82401 W) : Runs W q0 (execMr4Reading c rank codes s) := by
  unfold execMr4Reading
  with_reducible repeat' (first
    | assumption | exact sub_of (by assumption) (by decide) | apply runs_next | apply mr4Reading_keeps)

theorem execCatchUpStart_keeps {W : Nat} {q0 : State} (c rank : Nat) (s : State) (hk : Keeps W q0 s)
    (hW : Sub 0x8000000 W := by first | assumption | exact sub_of (by assumption) (by decide)) :
    Runs W q0 (execCatchUpStart c rank s) := by
  unfold execCatchUpStart
  repeat' (first
    | with_reducible assumption | exact sub_of (by assumption) (by decide) | with_reducible apply runs_next
    | with_reducible refine runs_ite _ _ _ ?_ ?_ | with_reducible apply addDue_keeps
    | with_reducible refine foldl_keeps _ _ _ ?_ ?_ | with_reducible refine foldl_fst_keeps _ _ _ ?_ ?_ | intro _ _ _
    | intro _ | with_reducible refine keeps_ite _ _ _ ?_ ?_ | split
    | with_reducible refine keeps_fst ?_ (by assumption) | with_reducible refine keeps_fst2 ?_ (by assumption)
    | simp only [])

theorem execCatchUpEnd_keeps {W : Nat} {q0 : State} (c rank slot : Nat) (s : State) (hk : Keeps W q0 s)
    (hW : Sub 0x401 W := by first | assumption | exact sub_of (by assumption) (by decide)) :
    Runs W q0 (execCatchUpEnd c rank slot s) := by
  unfold execCatchUpEnd
  repeat' (first
    | with_reducible assumption | exact sub_of (by assumption) (by decide)
    | with_reducible exact twf_tset _ _ _ _ (by assumption)
    | with_reducible refine keeps_chan (W := W) ?_ _ (by assumption) | with_reducible exact twf_nil _
    | with_reducible refine keeps_ok (W := W) ?_ (by assumption) | with_reducible apply runs_next
    | with_reducible refine runs_ite _ _ _ ?_ ?_ | with_reducible apply catchUpEnd_keeps
    | with_reducible refine foldl_keeps _ _ _ ?_ ?_ | with_reducible refine foldl_fst_keeps _ _ _ ?_ ?_ | intro _ _ _
    | intro _ | with_reducible refine keeps_ite _ _ _ ?_ ?_ | split
    | with_reducible refine keeps_fst ?_ (by assumption) | with_reducible refine keeps_fst2 ?_ (by assumption)
    | simp only [])

theorem execRefreshRateReturn_keeps {W : Nat} {q0 : State} (c rank : Nat) (s : State) (hk : Keeps W q0 s)
    (hW : Sub 0x8000000 W := by first | assumption | exact sub_of (by assumption) (by decide)) :
    Runs W q0 (execRefreshRateReturn c rank s) := by
  unfold execRefreshRateReturn
  repeat' (first
    | with_reducible assumption | exact sub_of (by assumption) (by decide) | with_reducible apply runs_next
    | with_reducible refine runs_ite _ _ _ ?_ ?_ | with_reducible apply addDue_keeps
    | with_reducible refine foldl_keeps _ _ _ ?_ ?_ | with_reducible refine foldl_fst_keeps _ _ _ ?_ ?_ | intro _ _ _
    | intro _ | with_reducible refine keeps_ite _ _ _ ?_ ?_ | split
    | with_reducible refine keeps_fst ?_ (by assumption) | with_reducible refine keeps_fst2 ?_ (by assumption)
    | simp only [])

theorem execDriftCheck_keeps {W : Nat} {q0 : State} (c rank : Nat) (change : Int) (s : State) (hk : Keeps W q0 s) (hW
    : Sub 0x82401 W) : Runs W q0 (execDriftCheck c rank change s) := by
  unfold execDriftCheck
  with_reducible repeat' (first
    | assumption | exact sub_of (by assumption) (by decide) | apply runs_next | apply driftCheck_keeps)

theorem execDramReadReturn_keeps {W : Nat} {q0 : State} (c sub : Nat) (errs : List (Nat × Nat)) (phases : List (Nat
    × Bool)) (s : State) (hk : Keeps W q0 s)
    (hW : Sub 0xA3401 W := by first | assumption | exact sub_of (by assumption) (by decide)) :
    Runs W q0 (execDramReadReturn c sub errs phases s) := by
  unfold execDramReadReturn
  repeat' (first
    | with_reducible assumption | exact sub_of (by assumption) (by decide)
    | with_reducible exact twf_tset _ _ _ _ (by assumption)
    | with_reducible refine keeps_chan (W := W) ?_ _ (by assumption) | with_reducible exact twf_nil _
    | with_reducible refine keeps_ok (W := W) ?_ (by assumption) | with_reducible apply runs_next
    | with_reducible refine runs_ite _ _ _ ?_ ?_ | with_reducible apply dramReadReturn_keeps
    | with_reducible refine foldl_keeps _ _ _ ?_ ?_ | with_reducible refine foldl_fst_keeps _ _ _ ?_ ?_ | intro _ _ _
    | intro _ | with_reducible refine keeps_ite _ _ _ ?_ ?_ | split
    | with_reducible refine keeps_fst ?_ (by assumption) | with_reducible refine keeps_fst2 ?_ (by assumption)
    | simp only [])

theorem execFlipExpiry_keeps {W : Nat} {q0 : State} (c : Nat) (s : State) (hk : Keeps W q0 s) (hW : Sub 0x1 W) : Runs
    W q0 (execFlipExpiry c s) := by
  unfold execFlipExpiry
  with_reducible repeat' (first
    | assumption | exact sub_of (by assumption) (by decide) | apply runs_next | apply wr_keeps
    | refine runs_ite _ _ _ ?_ ?_ | refine keeps_ite _ _ _ ?_ ?_)

theorem execDdr5Alert_keeps {W : Nat} {q0 : State} (c sub kind slot : Nat) (s : State) (hk : Keeps W q0 s)
    (hW : Sub 0x82C01 W := by first | assumption | exact sub_of (by assumption) (by decide)) :
    Runs W q0 (execDdr5Alert c sub kind slot s) := by
  unfold execDdr5Alert
  repeat' (first
    | with_reducible assumption | exact sub_of (by assumption) (by decide)
    | with_reducible exact twf_tset _ _ _ _ (by assumption)
    | with_reducible refine keeps_chan (W := W) ?_ _ (by assumption) | with_reducible exact twf_nil _
    | with_reducible refine keeps_ok (W := W) ?_ (by assumption) | with_reducible apply runs_next
    | with_reducible refine runs_ite _ _ _ ?_ ?_ | with_reducible apply ddr5Alert_keeps
    | with_reducible refine foldl_keeps _ _ _ ?_ ?_ | with_reducible refine foldl_fst_keeps _ _ _ ?_ ?_ | intro _ _ _
    | intro _ | with_reducible refine keeps_ite _ _ _ ?_ ?_ | split
    | with_reducible refine keeps_fst ?_ (by assumption) | with_reducible refine keeps_fst2 ?_ (by assumption)
    | simp only [])

theorem execAlertDeassertTimeout_keeps {W : Nat} {q0 : State} (c sub ns : Nat) (s : State) (hk : Keeps W q0 s) (hW :
    Sub 0x82401 W) : Runs W q0 (execAlertDeassertTimeout c sub ns s) := by
  unfold execAlertDeassertTimeout
  with_reducible repeat' (first
    | assumption | exact sub_of (by assumption) (by decide) | apply runs_next | apply stopSub_keeps
    | refine runs_ite _ _ _ ?_ ?_ | refine keeps_ite _ _ _ ?_ ?_)

theorem execRecoveryEnd_keeps {W : Nat} {q0 : State} (c sub slot : Nat) (s : State) (hk : Keeps W q0 s)
    (hW : Sub 0x401 W := by first | assumption | exact sub_of (by assumption) (by decide)) :
    Runs W q0 (execRecoveryEnd c sub slot s) := by
  unfold execRecoveryEnd
  repeat' (first
    | with_reducible assumption | exact sub_of (by assumption) (by decide)
    | with_reducible exact twf_tset _ _ _ _ (by assumption)
    | with_reducible refine keeps_chan (W := W) ?_ _ (by assumption) | with_reducible exact twf_nil _
    | with_reducible refine keeps_ok (W := W) ?_ (by assumption) | with_reducible apply runs_next
    | with_reducible refine runs_ite _ _ _ ?_ ?_ | with_reducible apply recoveryEnd_keeps
    | with_reducible refine foldl_keeps _ _ _ ?_ ?_ | with_reducible refine foldl_fst_keeps _ _ _ ?_ ?_ | intro _ _ _
    | intro _ | with_reducible refine keeps_ite _ _ _ ?_ ?_ | split
    | with_reducible refine keeps_fst ?_ (by assumption) | with_reducible refine keeps_fst2 ?_ (by assumption)
    | simp only [])

theorem execWriteCrcWindowPass_keeps {W : Nat} {q0 : State} (c sub : Nat) (s : State) (hk : Keeps W q0 s) (hW : Sub
    0x400 W) : Runs W q0 (execWriteCrcWindowPass c sub s) := by
  unfold execWriteCrcWindowPass
  with_reducible repeat' (first
    | assumption | exact sub_of (by assumption) (by decide) | apply runs_next | apply dropRetry_keeps | split)

theorem execSpareWindowClear_keeps {W : Nat} {q0 : State} (c : Nat) (s : State) (hk : Keeps W q0 s) (hW : Sub 0x401
    W) : Runs W q0 (execSpareWindowClear c s) := by
  unfold execSpareWindowClear
  with_reducible repeat' (first
    | assumption | exact sub_of (by assumption) (by decide) | apply runs_next | apply wr_keeps
    | apply modChan_keeps | refine runs_ite _ _ _ ?_ ?_ | refine keeps_ite _ _ _ ?_ ?_
    | refine foldl_keeps _ _ _ ?_ ?_ | intro _ _ _ | intro _)

theorem execPatrolLapEnd_keeps {W : Nat} {q0 : State} (c : Nat) (s : State) (hk : Keeps W q0 s)
    (hW : Sub 0x401 W := by first | assumption | exact sub_of (by assumption) (by decide)) :
    Runs W q0 (execPatrolLapEnd c s) := by
  unfold execPatrolLapEnd
  repeat' (first
    | with_reducible assumption | exact sub_of (by assumption) (by decide)
    | with_reducible exact twf_tset _ _ _ _ (by assumption)
    | with_reducible refine keeps_chan (W := W) ?_ _ (by assumption) | with_reducible exact twf_nil _
    | with_reducible refine keeps_ok (W := W) ?_ (by assumption) | with_reducible apply runs_next
    | with_reducible refine runs_ite _ _ _ ?_ ?_ | with_reducible apply wr_keeps | with_reducible apply bump_keeps
    | with_reducible apply modChan_keeps | with_reducible refine foldl_keeps _ _ _ ?_ ?_
    | with_reducible refine foldl_fst_keeps _ _ _ ?_ ?_ | intro _ _ _ | intro _
    | with_reducible refine keeps_ite _ _ _ ?_ ?_ | split | with_reducible refine keeps_fst ?_ (by assumption)
    | with_reducible refine keeps_fst2 ?_ (by assumption) | simp only [])

theorem execTrainingStepDone_keeps {W : Nat} {q0 : State} (c : Nat) (r : TrainRep) (s : State) (hk : Keeps W q0 s)
    (hW : Sub 0x20082401 W) : Runs W q0 (execTrainingStepDone c r s) := by
  unfold execTrainingStepDone
  with_reducible repeat' (first
    | assumption | exact sub_of (by assumption) (by decide) | apply runs_next | apply trainingStepDone_keeps)

theorem execTrainingTimeout_keeps {W : Nat} {q0 : State} (c : Nat) (s : State) (hk : Keeps W q0 s) (hW : Sub 0x82401 W) : Runs W q0 (execTrainingTimeout c s) := by
  unfold execTrainingTimeout
  with_reducible repeat' (first
    | assumption | exact sub_of (by assumption) (by decide) | apply runs_next | apply setSpeed_keeps
    | apply leaveOut_keeps | refine runs_ite _ _ _ ?_ ?_ | refine keeps_ite _ _ _ ?_ ?_)

theorem execFillComplete_keeps {W : Nat} {q0 : State} (c : Nat) (s : State) (hk : Keeps W q0 s) (hW : Sub 0x20000401 W) :
    Runs W q0 (execFillComplete c s) := by
  unfold execFillComplete
  with_reducible repeat' (first
    | assumption | exact sub_of (by assumption) (by decide) | apply runs_next | apply fillComplete_keeps)

theorem execSelfRefreshExit_keeps {W : Nat} {q0 : State} (c : Nat) (ok : Bool) (codes delays : List (Nat × Nat)) (s :
    State) (hk : Keeps W q0 s) (hW : Sub 0x82401 W) : Runs W q0 (execSelfRefreshExit c ok codes delays s) := by
  unfold execSelfRefreshExit
  with_reducible repeat' (first
    | assumption | exact sub_of (by assumption) (by decide) | apply runs_next | apply selfRefreshExit_keeps)

theorem execSliceRequest_keeps {W : Nat} {q0 : State} (core pa tag : Nat) (excl : Bool) (err : Nat) (s : State) (hk :
    Keeps W q0 s) (hW : Sub 0x200BFD39 W) : Runs W q0 (execSliceRequest core pa tag excl err s) := by
  unfold execSliceRequest
  with_reducible repeat' (first
    | assumption | exact sub_of (by assumption) (by decide) | apply runs_next | apply sliceRequest_keeps)

theorem execMaintenanceAccept_keeps {W : Nat} {q0 : State} (slice core line tag op : Nat) (s : State) (hk : Keeps W
    q0 s) (hW : Sub 0x2001C101 W) : Runs W q0 (execMaintenanceAccept slice core line tag op s) := by
  unfold execMaintenanceAccept
  with_reducible repeat' (first
    | assumption | exact sub_of (by assumption) (by decide) | apply runs_next | apply maintAccept_keeps)

theorem execL2Eviction_keeps {W : Nat} {q0 : State} (core line : Nat) (s : State) (hk : Keeps W q0 s) (hW : Sub 0x200BFD39 W) : Runs W q0 (execL2Eviction core line s) := by
  unfold execL2Eviction
  with_reducible repeat' (first
    | assumption | exact sub_of (by assumption) (by decide) | apply runs_next | apply l2Evict_keeps)

theorem execSliceDrainWalkDone_keeps {W : Nat} {q0 : State} (slice : Nat) (s : State) (hk : Keeps W q0 s) (hW : Sub 0x280BFF01 W) : Runs W q0 (execSliceDrainWalkDone slice s) := by
  unfold execSliceDrainWalkDone
  with_reducible repeat' (first
    | assumption | exact sub_of (by assumption) (by decide) | apply runs_next | apply drainWalk_keeps)

theorem execHandoverComplete_keeps {W : Nat} {q0 : State} (slice : Nat) (s : State) (hk : Keeps W q0 s) (hW : Sub
    0x8000000 W) : Runs W q0 (execHandoverComplete slice s) := by
  unfold execHandoverComplete
  with_reducible repeat' (first
    | assumption | exact sub_of (by assumption) (by decide) | apply runs_next | apply addDue_keeps
    | apply switchBuckets_keeps | refine runs_ite _ _ _ ?_ ?_ | refine keeps_ite _ _ _ ?_ ?_)

theorem execCacheLock_keeps {W : Nat} {q0 : State} (mbx : Nat) (s : State) (hk : Keeps W q0 s) (hW : Sub 0x20001201
    W) : Runs W q0 (execCacheLock mbx s) := by
  unfold execCacheLock
  with_reducible repeat' (first
    | assumption | exact sub_of (by assumption) (by decide) | apply runs_next | apply onCmd_keeps
    | apply cacheLock_keeps | intro _ _ _)

theorem execCachePreloadDone_keeps {W : Nat} {q0 : State} (mbx : Nat) (s : State) (hk : Keeps W q0 s) (hW : Sub 0x280BFF39 W) : Runs W q0 (execCachePreloadDone mbx s) := by
  unfold execCachePreloadDone
  with_reducible repeat' (first
    | assumption | exact sub_of (by assumption) (by decide) | apply runs_next | apply preloadDone_keeps)

theorem execCacheUnlock_keeps {W : Nat} {q0 : State} (mbx : Nat) (s : State) (hk : Keeps W q0 s) (hW : Sub 0x1301 W)
    : Runs W q0 (execCacheUnlock mbx s) := by
  unfold execCacheUnlock
  with_reducible repeat' (first
    | assumption | exact sub_of (by assumption) (by decide) | apply runs_next | apply onCmd_keeps
    | apply cacheUnlock_keeps | intro _ _ _)

theorem execCacheSlice_keeps {W : Nat} {q0 : State} (mbx : Nat) (s : State) (hk : Keeps W q0 s) (hW : Sub 0x10001101
    W) : Runs W q0 (execCacheSlice mbx s) := by
  unfold execCacheSlice
  with_reducible repeat' (first
    | assumption | exact sub_of (by assumption) (by decide) | apply runs_next | apply onCmd_keeps
    | apply cacheSlice_keeps | intro _ _ _)

theorem execCacheStatus_keeps {W : Nat} {q0 : State} (mbx : Nat) (s : State) (hk : Keeps W q0 s) (hW : Sub 0x1001 W)
    : Runs W q0 (execCacheStatus mbx s) := by
  unfold execCacheStatus
  with_reducible repeat' (first
    | assumption | exact sub_of (by assumption) (by decide) | apply runs_next | apply onCmd_keeps
    | apply cacheStatus_keeps | intro _ _ _)

theorem execMemStatus_keeps {W : Nat} {q0 : State} (mbx : Nat) (s : State) (hk : Keeps W q0 s) (hW : Sub 0x1001 W) :
    Runs W q0 (execMemStatus mbx s) := by
  unfold execMemStatus
  with_reducible repeat' (first
    | assumption | exact sub_of (by assumption) (by decide) | apply runs_next | apply onCmd_keeps
    | apply memStatus_keeps | intro _ _ _)

theorem execMemScrub_keeps {W : Nat} {q0 : State} (mbx : Nat) (s : State) (hk : Keeps W q0 s) (hW : Sub 0x1401 W) :
    Runs W q0 (execMemScrub mbx s) := by
  unfold execMemScrub
  with_reducible repeat' (first
    | assumption | exact sub_of (by assumption) (by decide) | apply runs_next | apply onCmd_keeps
    | apply memScrub_keeps | intro _ _ _)

theorem execRangeScrubEnd_keeps {W : Nat} {q0 : State} (s : State) (hk : Keeps W q0 s) (hW : Sub 0x1401 W) : Runs W
    q0 (execRangeScrubEnd s) := by
  unfold execRangeScrubEnd
  with_reducible repeat' (first
    | assumption | exact sub_of (by assumption) (by decide) | apply runs_next | apply scrubEnd_keeps)

theorem execMemClear_keeps {W : Nat} {q0 : State} (mbx : Nat) (s : State) (hk : Keeps W q0 s) (hW : Sub 0x280B3D39 W)
    : Runs W q0 (execMemClear mbx s) := by
  unfold execMemClear
  with_reducible repeat' (first
    | assumption | exact sub_of (by assumption) (by decide) | apply runs_next | apply onCmd_keeps
    | apply memClear_keeps | intro _ _ _)

theorem execMemRepair_keeps {W : Nat} {q0 : State} (mbx : Nat) (s : State) (hk : Keeps W q0 s) (hW : Sub 0x1401 W) :
    Runs W q0 (execMemRepair mbx s) := by
  unfold execMemRepair
  with_reducible repeat' (first
    | assumption | exact sub_of (by assumption) (by decide) | apply runs_next | apply onCmd_keeps
    | apply memRepair_keeps | intro _ _ _)

theorem execSoftRepairDone_keeps {W : Nat} {q0 : State} (mbx : Nat) (found : Bool) (s : State) (hk : Keeps W q0 s)
    (hW : Sub 0x8082401 W) : Runs W q0 (execSoftRepairDone mbx found s) := by
  unfold execSoftRepairDone
  with_reducible repeat' (first
    | assumption | exact sub_of (by assumption) (by decide) | apply runs_next | apply softRepairDone_keeps)

theorem execMemSpare_keeps {W : Nat} {q0 : State} (mbx : Nat) (s : State) (hk : Keeps W q0 s) (hW : Sub 0x10001001 W)
    : Runs W q0 (execMemSpare mbx s) := by
  unfold execMemSpare
  with_reducible repeat' (first
    | assumption | exact sub_of (by assumption) (by decide) | apply runs_next | apply onCmd_keeps
    | apply memSpare_keeps | intro _ _ _)

theorem execMemFlip_keeps {W : Nat} {q0 : State} (mbx : Nat) (s : State) (hk : Keeps W q0 s) (hW : Sub 0x1401 W) :
    Runs W q0 (execMemFlip mbx s) := by
  unfold execMemFlip
  with_reducible repeat' (first
    | assumption | exact sub_of (by assumption) (by decide) | apply runs_next | apply onCmd_keeps
    | apply memFlip_keeps | intro _ _ _)

theorem execComparatorMismatch_keeps {W : Nat} {q0 : State} (pair bus bit cause : Nat) (s : State) (hk : Keeps W q0
    s) (hW : Sub 0x80029 W) : Runs W q0 (execComparatorMismatch pair bus bit cause s) := by
  unfold execComparatorMismatch
  with_reducible repeat' (first
    | assumption | exact sub_of (by assumption) (by decide) | apply runs_next | apply freeze_keeps)

theorem execCoreArrayError_keeps {W : Nat} {q0 : State} (pair core kind : Nat) (s : State) (hk : Keeps W q0 s) (hW :
    Sub 0x288BFD39 W) : Runs W q0 (execCoreArrayError pair core kind s) := by
  unfold execCoreArrayError
  with_reducible repeat' (first
    | assumption | exact sub_of (by assumption) (by decide) | apply runs_next | apply arrayFault_keeps)

theorem execCaptureComplete_keeps {W : Nat} {q0 : State} (pair : Nat) (s : State) (hk : Keeps W q0 s) (hW : Sub 0x280BFF39 W) : Runs W q0 (execCaptureComplete pair s) := by
  unfold execCaptureComplete
  with_reducible repeat' (first
    | assumption | exact sub_of (by assumption) (by decide) | apply runs_next | apply captureComplete_keeps)

theorem execLogicBistResult_keeps {W : Nat} {q0 : State} (pair : Nat) (passA passB : Bool) (s : State) (hk : Keeps W
    q0 s) (hW : Sub 0x280BFF39 W) : Runs W q0 (execLogicBistResult pair passA passB s) := by
  unfold execLogicBistResult
  with_reducible repeat' (first
    | assumption | exact sub_of (by assumption) (by decide) | apply runs_next | apply bistResult_keeps)

theorem execArrayMarchResult_keeps {W : Nat} {q0 : State} (pair : Nat) (passA passB : Bool) (s : State) (hk : Keeps W
    q0 s) (hW : Sub 0x280BFF79 W) : Runs W q0 (execArrayMarchResult pair passA passB s) := by
  unfold execArrayMarchResult
  with_reducible repeat' (first
    | assumption | exact sub_of (by assumption) (by decide) | apply runs_next | apply marchResult_keeps)

theorem execSurvivorDrainDone_keeps {W : Nat} {q0 : State} (pair : Nat) (s : State) (hk : Keeps W q0 s) (hW : Sub 0x280BFF39 W) : Runs W q0 (execSurvivorDrainDone pair s) := by
  unfold execSurvivorDrainDone
  with_reducible repeat' (first
    | assumption | exact sub_of (by assumption) (by decide) | apply runs_next | apply drainDone_keeps)

theorem execStateCopyDone_keeps {W : Nat} {q0 : State} (pair : Nat) (digestOk : Bool) (s : State) (hk : Keeps W q0 s)
    (hW : Sub 0x8000020 W) : Runs W q0 (execStateCopyDone pair digestOk s) := by
  unfold execStateCopyDone
  with_reducible repeat' (first
    | assumption | exact sub_of (by assumption) (by decide) | apply runs_next | apply stateCopyDone_keeps)

theorem execHartResumeLibero_keeps {W : Nat} {q0 : State} (pair : Nat) (s : State) (hk : Keeps W q0 s) (hW : Sub 0x8883239 W) : Runs W q0 (execHartResumeLibero pair s) := by
  unfold execHartResumeLibero
  with_reducible repeat' (first
    | assumption | exact sub_of (by assumption) (by decide) | apply runs_next | apply hartResume_keeps)

theorem execSplitCoreError_keeps {W : Nat} {q0 : State} (pair core kind : Nat) (badLines : List Nat) (s : State) (hk
    : Keeps W q0 s) (hW : Sub 0x208BFD19 W) : Runs W q0 (execSplitCoreError pair core kind badLines s) := by
  unfold execSplitCoreError
  with_reducible repeat' (first
    | assumption | exact sub_of (by assumption) (by decide) | apply runs_next | apply splitError_keeps)

theorem execPairInjectB_keeps {W : Nat} {q0 : State} (pair : Nat) (s : State) (hk : Keeps W q0 s) (hW : Sub 0x21 W) :
    Runs W q0 (execPairInjectB pair s) := by
  unfold execPairInjectB
  with_reducible repeat' (first
    | assumption | exact sub_of (by assumption) (by decide) | apply runs_next | apply injectB_keeps)

theorem execPairModeWrite_keeps {W : Nat} {q0 : State} (pair mode : Nat) (s : State) (hk : Keeps W q0 s) (hW : Sub
    0x8000000 W) : Runs W q0 (execPairModeWrite pair mode s) := by
  unfold execPairModeWrite
  with_reducible repeat' (first
    | assumption | exact sub_of (by assumption) (by decide) | apply runs_next | apply addDue_keeps
    | refine runs_ite _ _ _ ?_ ?_ | refine keeps_ite _ _ _ ?_ ?_)

theorem execCoreMode_keeps {W : Nat} {q0 : State} (mbx : Nat) (s : State) (hk : Keeps W q0 s) (hW : Sub 0x10001001 W)
    : Runs W q0 (execCoreMode mbx s) := by
  unfold execCoreMode
  with_reducible repeat' (first
    | assumption | exact sub_of (by assumption) (by decide) | apply runs_next | apply onCmd_keeps
    | apply coreMode_keeps | intro _ _ _)

theorem execCoreStart_keeps {W : Nat} {q0 : State} (mbx : Nat) (s : State) (hk : Keeps W q0 s) (hW : Sub 0x18001001
    W) : Runs W q0 (execCoreStart mbx s) := by
  unfold execCoreStart
  with_reducible repeat' (first
    | assumption | exact sub_of (by assumption) (by decide) | apply runs_next | apply onCmd_keeps
    | apply coreStart_keeps | intro _ _ _)

theorem execCorePark_keeps {W : Nat} {q0 : State} (mbx : Nat) (s : State) (hk : Keeps W q0 s) (hW : Sub 0x10001801 W)
    : Runs W q0 (execCorePark mbx s) := by
  unfold execCorePark
  with_reducible repeat' (first
    | assumption | exact sub_of (by assumption) (by decide) | apply runs_next | apply onCmd_keeps
    | apply corePark_keeps | intro _ _ _)

theorem execCoreStatus_keeps {W : Nat} {q0 : State} (mbx : Nat) (s : State) (hk : Keeps W q0 s) (hW : Sub 0x1001 W) :
    Runs W q0 (execCoreStatus mbx s) := by
  unfold execCoreStatus
  with_reducible repeat' (first
    | assumption | exact sub_of (by assumption) (by decide) | apply runs_next | apply onCmd_keeps
    | apply coreStatus_keeps | intro _ _ _)

theorem execCoreRequalify_keeps {W : Nat} {q0 : State} (mbx : Nat) (s : State) (hk : Keeps W q0 s) (hW : Sub 0x1021
    W) : Runs W q0 (execCoreRequalify mbx s) := by
  unfold execCoreRequalify
  with_reducible repeat' (first
    | assumption | exact sub_of (by assumption) (by decide) | apply runs_next | apply onCmd_keeps
    | apply coreRequalify_keeps | intro _ _ _)

theorem execCorePolicy_keeps {W : Nat} {q0 : State} (mbx : Nat) (s : State) (hk : Keeps W q0 s) (hW : Sub 0x1081 W) :
    Runs W q0 (execCorePolicy mbx s) := by
  unfold execCorePolicy
  with_reducible repeat' (first
    | assumption | exact sub_of (by assumption) (by decide) | apply runs_next | apply onCmd_keeps
    | apply corePolicy_keeps | intro _ _ _)

theorem execEntropyHealthFail_keeps {W : Nat} {q0 : State} (tile : Nat) (s : State) (hk : Keeps W q0 s) (hW : Sub
    0x82003 W) : Runs W q0 (execEntropyHealthFail tile s) := by
  unfold execEntropyHealthFail
  with_reducible repeat' (first
    | assumption | exact sub_of (by assumption) (by decide) | apply runs_next | apply entropyFail_keeps)

theorem execWrsSto_keeps {W : Nat} {q0 : State} (h : Nat) (s : State) (hk : Keeps W q0 s) (hW : Sub 0x8 W) : Runs W
    q0 (execWrsSto h s) := by
  unfold execWrsSto
  with_reducible repeat' (first
    | assumption | exact sub_of (by assumption) (by decide) | apply runs_next | apply wrsWait_keeps)

theorem execWrsStoTimeout_keeps {W : Nat} {q0 : State} (h ns : Nat) (s : State) (hk : Keeps W q0 s) (hW : Sub 0x8 W)
    : Runs W q0 (execWrsStoTimeout h ns s) := by
  unfold execWrsStoTimeout
  with_reducible repeat' (first
    | assumption | exact sub_of (by assumption) (by decide) | apply runs_next | apply wrsTimeout_keeps)

theorem execWrsNto_keeps {W : Nat} {q0 : State} (h : Nat) (s : State) (hk : Keeps W q0 s) (hW : Sub 0x8 W) : Runs W
    q0 (execWrsNto h s) := by
  unfold execWrsNto
  with_reducible repeat' (first
    | assumption | exact sub_of (by assumption) (by decide) | apply runs_next | apply wrsWait_keeps)

theorem execSeedRead_keeps {W : Nat} {q0 : State} (h rd : Nat) (ready : Bool) (s : State) (hk : Keeps W q0 s) (hW :
    Sub 0x20000418 W) : Runs W q0 (execSeedRead h rd ready s) := by
  unfold execSeedRead
  with_reducible repeat' (first
    | assumption | exact sub_of (by assumption) (by decide) | apply runs_next | apply seedRead_keeps)

theorem execContextKeyUpdate_keeps {W : Nat} {q0 : State} (h : Nat) (c : KeyCause) (s : State) (hk : Keeps W q0 s)
    (hW : Sub 0x8 W) : Runs W q0 (execContextKeyUpdate h c s) := by
  unfold execContextKeyUpdate
  with_reducible repeat' (first
    | assumption | exact sub_of (by assumption) (by decide) | apply runs_next | apply keyUpdate_keeps)

theorem execBranchRetire_keeps {W : Nat} {q0 : State} (h pc len target kind : Nat) (taken : Bool) (s : State) (hk :
    Keeps W q0 s)
    (hW : Sub 0x20000418 W := by first | assumption | exact sub_of (by assumption) (by decide)) :
    Runs W q0 (execBranchRetire h pc len target kind taken s) := by
  unfold execBranchRetire
  repeat' (first
    | with_reducible assumption | exact sub_of (by assumption) (by decide) | with_reducible apply runs_next
    | with_reducible refine runs_ite _ _ _ ?_ ?_ | with_reducible apply branchRetire_keeps
    | with_reducible refine foldl_keeps _ _ _ ?_ ?_ | with_reducible refine foldl_fst_keeps _ _ _ ?_ ?_ | intro _ _ _
    | intro _ | with_reducible refine keeps_ite _ _ _ ?_ ?_ | split
    | with_reducible refine keeps_fst ?_ (by assumption) | with_reducible refine keeps_fst2 ?_ (by assumption)
    | simp only [])

theorem execUsefulHalving_keeps {W : Nat} {q0 : State} (core : Nat) (s : State) (hk : Keeps W q0 s) (hW : Sub 0x10 W)
    : Runs W q0 (execUsefulHalving core s) := by
  unfold execUsefulHalving
  with_reducible repeat' (first
    | assumption | exact sub_of (by assumption) (by decide) | apply runs_next | apply usefulHalving_keeps)

theorem execDzpredctlClear_keeps {W : Nat} {q0 : State} (h : Nat) (s : State) (hk : Keeps W q0 s) (hW : Sub 0x20000418 W) :
    Runs W q0 (execDzpredctlClear h s) := by
  unfold execDzpredctlClear
  with_reducible repeat' (first
    | assumption | exact sub_of (by assumption) (by decide) | apply runs_next | apply predClear_keeps)

theorem execDbypassSet_keeps {W : Nat} {q0 : State} (h : Nat) (s : State) (hk : Keeps W q0 s) (hW : Sub 0x200BFD39 W)
    : Runs W q0 (execDbypassSet h s) := by
  unfold execDbypassSet
  with_reducible repeat' (first
    | assumption | exact sub_of (by assumption) (by decide) | apply runs_next | apply bypassSet_keeps)

theorem execDbypassClear_keeps {W : Nat} {q0 : State} (h : Nat) (s : State) (hk : Keeps W q0 s) (hW : Sub 0x20000419 W) :
    Runs W q0 (execDbypassClear h s) := by
  unfold execDbypassClear
  with_reducible repeat' (first
    | assumption | exact sub_of (by assumption) (by decide) | apply runs_next | apply bypassClear_keeps)

theorem execIbypassSet_keeps {W : Nat} {q0 : State} (h : Nat) (s : State) (hk : Keeps W q0 s) (hW : Sub 0x20000419 W) :
    Runs W q0 (execIbypassSet h s) := by
  unfold execIbypassSet
  with_reducible repeat' (first
    | assumption | exact sub_of (by assumption) (by decide) | apply runs_next | apply ibypassSet_keeps)

theorem execCoreInterrupt_keeps {W : Nat} {q0 : State} (h irq pc : Nat) (s : State) (hk : Keeps W q0 s)
    (hW : Sub 0x419 W := by first | assumption | exact sub_of (by assumption) (by decide)) :
    Runs W q0 (execCoreInterrupt h irq pc s) := by
  unfold execCoreInterrupt
  repeat' (first
    | with_reducible assumption | exact sub_of (by assumption) (by decide) | with_reducible apply runs_next
    | with_reducible refine runs_ite _ _ _ ?_ ?_ | with_reducible apply takeInterrupt_keeps
    | with_reducible refine foldl_keeps _ _ _ ?_ ?_ | with_reducible refine foldl_fst_keeps _ _ _ ?_ ?_ | intro _ _ _
    | intro _ | with_reducible refine keeps_ite _ _ _ ?_ ?_ | split
    | with_reducible refine keeps_fst ?_ (by assumption) | with_reducible refine keeps_fst2 ?_ (by assumption)
    | simp only [])

theorem execSnoopInvalidation_keeps {W : Nat} {q0 : State} (core line : Nat) (inFlight : Bool) (s : State) (hk :
    Keeps W q0 s) (hW : Sub 0x200BFD39 W) : Runs W q0 (execSnoopInvalidation core line inFlight s) := by
  unfold execSnoopInvalidation
  with_reducible repeat' (first
    | assumption | exact sub_of (by assumption) (by decide) | apply runs_next | apply snoopInv_keeps)

theorem execMsiWrite_keeps {W : Nat} {q0 : State} (tag h file ident : Nat) (s : State) (hk : Keeps W q0 s) (hW : Sub
    0x82009 W) : Runs W q0 (execMsiWrite tag h file ident s) := by
  unfold execMsiWrite
  with_reducible repeat' (first
    | assumption | exact sub_of (by assumption) (by decide) | apply runs_next | apply msiWrite_keeps)

theorem execMainCoreWfi_keeps {W : Nat} {q0 : State} (h : Nat) (s : State) (hk : Keeps W q0 s) (hW : Sub 0x9 W) :
    Runs W q0 (execMainCoreWfi h s) := by
  unfold execMainCoreWfi
  with_reducible repeat' (first
    | assumption | exact sub_of (by assumption) (by decide) | apply runs_next | apply wfi_keeps)

theorem execFunctionResetDone_keeps {W : Nat} {q0 : State} (g dev : Nat) (s : State) (hk : Keeps W q0 s) (hW : Sub
    0x20000 W) : Runs W q0 (execFunctionResetDone g dev s) := by
  unfold execFunctionResetDone
  with_reducible repeat' (first
    | assumption | exact sub_of (by assumption) (by decide) | apply runs_next | apply functionResetDone_keeps)

theorem execSerdesLaneFailure_keeps {W : Nat} {q0 : State} (g n : Nat) (lanes : List Nat) (s : State) (hk : Keeps W
    q0 s) (hW : Sub 0xA2001 W) : Runs W q0 (execSerdesLaneFailure g n lanes s) := by
  unfold execSerdesLaneFailure
  with_reducible repeat' (first
    | assumption | exact sub_of (by assumption) (by decide) | apply runs_next | apply laneFailure_keeps)

theorem execPortRetrainDone_keeps {W : Nat} {q0 : State} (g n : Nat) (s : State) (hk : Keeps W q0 s) (hW : Sub 0x1 W)
    : Runs W q0 (execPortRetrainDone g n s) := by
  unfold execPortRetrainDone
  with_reducible repeat' (first
    | assumption | exact sub_of (by assumption) (by decide) | apply runs_next | apply retrainDone_keeps)

theorem execPortRetrainTimeout_keeps {W : Nat} {q0 : State} (g n : Nat) (s : State) (hk : Keeps W q0 s) (hW : Sub 0x300FFD39 W) : Runs W q0 (execPortRetrainTimeout g n s) := by
  unfold execPortRetrainTimeout
  with_reducible repeat' (first
    | assumption | exact sub_of (by assumption) (by decide) | apply runs_next | apply retrainTimeout_keeps)

theorem execSerdesLinkUp_keeps {W : Nat} {q0 : State} (g n width speed : Nat) (flit : Bool) (funcs : List FuncInfo)
    (s : State) (hk : Keeps W q0 s) (hW : Sub 0x20001 W) : Runs W q0 (execSerdesLinkUp g n width speed flit funcs s)
    := by
  unfold execSerdesLinkUp
  with_reducible repeat' (first
    | assumption | exact sub_of (by assumption) (by decide) | apply runs_next | apply linkUp_keeps)

theorem execSerdesLinkDown_keeps {W : Nat} {q0 : State} (g n : Nat) (s : State) (hk : Keeps W q0 s) (hW : Sub 0x300FFD39 W) : Runs W q0 (execSerdesLinkDown g n s) := by
  unfold execSerdesLinkDown
  with_reducible repeat' (first
    | assumption | exact sub_of (by assumption) (by decide) | apply runs_next | apply linkDown_keeps
    | refine runs_ite _ _ _ ?_ ?_ | refine keeps_ite _ _ _ ?_ ?_)

theorem execPortTrainRetry_keeps {W : Nat} {q0 : State} (g n : Nat) (s : State) (hk : Keeps W q0 s) (hW : Sub 0x20001
    W) : Runs W q0 (execPortTrainRetry g n s) := by
  unfold execPortTrainRetry
  with_reducible repeat' (first
    | assumption | exact sub_of (by assumption) (by decide) | apply runs_next | apply trainRetry_keeps)

theorem execSerdesIngressRequest_keeps {W : Nat} {q0 : State} (g n : Nat) (q : DevReq) (s : State) (hk : Keeps W q0
    s)
    (hW : Sub 0x200BFF39 W := by first | assumption | exact sub_of (by assumption) (by decide)) :
    Runs W q0 (execSerdesIngressRequest g n q s) := by
  unfold execSerdesIngressRequest
  repeat' (first
    | with_reducible assumption | exact sub_of (by assumption) (by decide)
    | with_reducible exact twf_tset _ _ _ _ (by assumption)
    | with_reducible refine keeps_chan (W := W) ?_ _ (by assumption) | with_reducible exact twf_nil _
    | with_reducible refine keeps_ok (W := W) ?_ (by assumption) | with_reducible apply runs_next
    | with_reducible refine runs_ite _ _ _ ?_ ?_ | with_reducible apply ingressRequest_keeps
    | with_reducible refine foldl_keeps _ _ _ ?_ ?_ | with_reducible refine foldl_fst_keeps _ _ _ ?_ ?_ | intro _ _ _
    | intro _ | with_reducible refine keeps_ite _ _ _ ?_ ?_ | split
    | with_reducible refine keeps_fst ?_ (by assumption) | with_reducible refine keeps_fst2 ?_ (by assumption)
    | simp only [])

theorem execRootPortCompletion_keeps {W : Nat} {q0 : State} (xid status data : Nat) (s : State) (hk : Keeps W q0 s)
    (hW : Sub 0x300FFD39 W) : Runs W q0 (execRootPortCompletion xid status data s) := by
  unfold execRootPortCompletion
  with_reducible repeat' (first
    | assumption | exact sub_of (by assumption) (by decide) | apply runs_next | apply rootCompletion_keeps)

theorem execCompletionTimeout_keeps {W : Nat} {q0 : State} (xid ns : Nat) (s : State) (hk : Keeps W q0 s) (hW : Sub 0x300FFD39 W) : Runs W q0 (execCompletionTimeout xid ns s) := by
  unfold execCompletionTimeout
  with_reducible repeat' (first
    | assumption | exact sub_of (by assumption) (by decide) | apply runs_next | apply completionTimeout_keeps)

theorem execEcamWrite_keeps {W : Nat} {q0 : State} (tag g dev off size v : Nat) (r : EcamReg) (s : State) (hk : Keeps
    W q0 s) (hW : Sub 0xA2001 W) : Runs W q0 (execEcamWrite tag g dev off size v r s) := by
  unfold execEcamWrite
  with_reducible repeat' (first
    | assumption | exact sub_of (by assumption) (by decide) | apply runs_next | apply ecamWrite_keeps)

theorem execCxlMemDeviceRequest_keeps {W : Nat} {q0 : State} (g dpa : Nat) (write : Bool) (data : Nat) (s : State)
    (hk : Keeps W q0 s) (hW : Sub 0xA3C01 W) : Runs W q0 (execCxlMemDeviceRequest g dpa write data s) := by
  unfold execCxlMemDeviceRequest
  with_reducible repeat' (first
    | assumption | exact sub_of (by assumption) (by decide) | apply runs_next | apply memDeviceRequest_keeps)

theorem execCxlMemResponse_keeps {W : Nat} {q0 : State} (xid data : Nat) (poison : Bool) (s : State) (hk : Keeps W q0
    s) (hW : Sub 0x300FFD39 W) : Runs W q0 (execCxlMemResponse xid data poison s) := by
  unfold execCxlMemResponse
  with_reducible repeat' (first
    | assumption | exact sub_of (by assumption) (by decide) | apply runs_next | apply cxlResponse_keeps)

theorem execIdentifyMemoryDevice_keeps {W : Nat} {q0 : State} (g : Nat) (s : State) (hk : Keeps W q0 s) (hW : Sub
    0x20000 W) : Runs W q0 (execIdentifyMemoryDevice g s) := by
  unfold execIdentifyMemoryDevice
  with_reducible repeat' (first
    | assumption | exact sub_of (by assumption) (by decide) | apply runs_next | apply cxlMailbox_keeps)

theorem execGetHealthInfo_keeps {W : Nat} {q0 : State} (g : Nat) (s : State) (hk : Keeps W q0 s)
    (hW : Sub 0x20020000 W := by first | assumption | exact sub_of (by assumption) (by decide)) :
    Runs W q0 (execGetHealthInfo g s) := by
  unfold execGetHealthInfo
  repeat' (first
    | with_reducible assumption | exact sub_of (by assumption) (by decide) | with_reducible apply runs_next
    | with_reducible refine runs_ite _ _ _ ?_ ?_ | with_reducible apply freeNext_keeps
    | with_reducible apply cxlMailbox_keeps | with_reducible refine foldl_keeps _ _ _ ?_ ?_
    | with_reducible refine foldl_fst_keeps _ _ _ ?_ ?_ | intro _ _ _ | intro _
    | with_reducible refine keeps_ite _ _ _ ?_ ?_ | split | with_reducible refine keeps_fst ?_ (by assumption)
    | with_reducible refine keeps_fst2 ?_ (by assumption) | simp only [])

theorem execGetEventRecords_keeps {W : Nat} {q0 : State} (g log : Nat) (s : State) (hk : Keeps W q0 s) (hW : Sub
    0x20000 W) : Runs W q0 (execGetEventRecords g log s) := by
  unfold execGetEventRecords
  with_reducible repeat' (first
    | assumption | exact sub_of (by assumption) (by decide) | apply runs_next | apply cxlMailbox_keeps)

theorem execClearEventRecords_keeps {W : Nat} {q0 : State} (g log : Nat) (handles : List Nat) (s : State) (hk : Keeps
    W q0 s) (hW : Sub 0x20000 W) : Runs W q0 (execClearEventRecords g log handles s) := by
  unfold execClearEventRecords
  with_reducible repeat' (first
    | assumption | exact sub_of (by assumption) (by decide) | apply runs_next | apply cxlMailbox_keeps)

theorem execGetPoisonList_keeps {W : Nat} {q0 : State} (g dpa len : Nat) (s : State) (hk : Keeps W q0 s) (hW : Sub
    0x20000 W) : Runs W q0 (execGetPoisonList g dpa len s) := by
  unfold execGetPoisonList
  with_reducible repeat' (first
    | assumption | exact sub_of (by assumption) (by decide) | apply runs_next | apply cxlMailbox_keeps)

theorem execGetSupportedLogs_keeps {W : Nat} {q0 : State} (g : Nat) (s : State) (hk : Keeps W q0 s) (hW : Sub 0x20000
    W) : Runs W q0 (execGetSupportedLogs g s) := by
  unfold execGetSupportedLogs
  with_reducible repeat' (first
    | assumption | exact sub_of (by assumption) (by decide) | apply runs_next | apply cxlMailbox_keeps)

theorem execGetLog_keeps {W : Nat} {q0 : State} (g log off len : Nat) (s : State) (hk : Keeps W q0 s) (hW : Sub
    0x20000 W) : Runs W q0 (execGetLog g log off len s) := by
  unfold execGetLog
  with_reducible repeat' (first
    | assumption | exact sub_of (by assumption) (by decide) | apply runs_next | apply cxlMailbox_keeps)

theorem execSetTimestamp_keeps {W : Nat} {q0 : State} (g v : Nat) (s : State) (hk : Keeps W q0 s) (hW : Sub 0x20000
    W) : Runs W q0 (execSetTimestamp g v s) := by
  unfold execSetTimestamp
  with_reducible repeat' (first
    | assumption | exact sub_of (by assumption) (by decide) | apply runs_next | apply cxlMailbox_keeps)

theorem execCxlUnsupportedOpcode_keeps {W : Nat} {q0 : State} (g op : Nat) (s : State) (hk : Keeps W q0 s) (hW : Sub
    0x20000 W) : Runs W q0 (execCxlUnsupportedOpcode g op s) := by
  unfold execCxlUnsupportedOpcode
  with_reducible repeat' (first
    | assumption | exact sub_of (by assumption) (by decide) | apply runs_next | apply cxlMailbox_keeps
    | refine runs_ite _ _ _ ?_ ?_ | refine keeps_ite _ _ _ ?_ ?_)

theorem execSignalPageWrite_keeps {W : Nat} {q0 : State} (h pa size v : Nat) (s : State) (hk : Keeps W q0 s) (hW :
    Sub 0xA2C19 W) : Runs W q0 (execSignalPageWrite h pa size v s) := by
  unfold execSignalPageWrite
  with_reducible repeat' (first
    | assumption | exact sub_of (by assumption) (by decide) | apply runs_next | apply execSignalPage_keeps)

theorem execPerstInput_keeps {W : Nat} {q0 : State} (g : Nat) (low : Bool) (s : State) (hk : Keeps W q0 s) (hW : Sub
    0x2 W) : Runs W q0 (execPerstInput g low s) := by
  unfold execPerstInput
  with_reducible repeat' (first
    | assumption | exact sub_of (by assumption) (by decide) | apply runs_next | refine runs_ite _ _ _ ?_ ?_
    | refine keeps_ite _ _ _ ?_ ?_ | split | simp only [] | refine keeps_lit (by assumption) ?_)

theorem execPortStatus_keeps {W : Nat} {q0 : State} (mbx : Nat) (s : State) (hk : Keeps W q0 s) (hW : Sub 0x1001 W) :
    Runs W q0 (execPortStatus mbx s) := by
  unfold execPortStatus
  with_reducible repeat' (first
    | assumption | exact sub_of (by assumption) (by decide) | apply runs_next | apply onCmd_keeps
    | apply portStatusCmd_keeps | intro _ _ _)

theorem execPortConfig_keeps {W : Nat} {q0 : State} (mbx : Nat) (s : State) (hk : Keeps W q0 s) (hW : Sub 0x18001001
    W) : Runs W q0 (execPortConfig mbx s) := by
  unfold execPortConfig
  with_reducible repeat' (first
    | assumption | exact sub_of (by assumption) (by decide) | apply runs_next | apply onCmd_keeps
    | apply portConfig_keeps | intro _ _ _)

theorem execPortAssign_keeps {W : Nat} {q0 : State} (mbx : Nat) (s : State) (hk : Keeps W q0 s) (hW : Sub 0x10021001
    W) : Runs W q0 (execPortAssign mbx s) := by
  unfold execPortAssign
  with_reducible repeat' (first
    | assumption | exact sub_of (by assumption) (by decide) | apply runs_next | apply onCmd_keeps
    | apply portAssign_keeps | intro _ _ _)

theorem execPortEp_keeps {W : Nat} {q0 : State} (mbx : Nat) (s : State) (hk : Keeps W q0 s) (hW : Sub 0x10001001 W) :
    Runs W q0 (execPortEp mbx s) := by
  unfold execPortEp
  with_reducible repeat' (first
    | assumption | exact sub_of (by assumption) (by decide) | apply runs_next | apply onCmd_keeps
    | apply portEp_keeps | intro _ _ _)

theorem execPortCxlgrant_keeps {W : Nat} {q0 : State} (mbx : Nat) (s : State) (hk : Keeps W q0 s) (hW : Sub 0x3001D001 W) : Runs W q0 (execPortCxlgrant mbx s) := by
  unfold execPortCxlgrant
  with_reducible repeat' (first
    | assumption | exact sub_of (by assumption) (by decide) | apply runs_next | apply onCmd_keeps
    | apply portCxlgrant_keeps | intro _ _ _)

theorem execDmaEnable_keeps {W : Nat} {q0 : State} (tag d : Nat) (s : State) (hk : Keeps W q0 s) (hW : Sub 0xC2001 W)
    : Runs W q0 (execDmaEnable tag d s) := by
  unfold execDmaEnable
  with_reducible repeat' (first
    | assumption | exact sub_of (by assumption) (by decide) | apply runs_next | apply dmaBy_keeps
    | apply dmaEnable_keeps | intro _ _ _ | intro _)

theorem execDmaAbort_keeps {W : Nat} {q0 : State} (tag d : Nat) (s : State) (hk : Keeps W q0 s) (hW : Sub 0xC2001 W)
    : Runs W q0 (execDmaAbort tag d s) := by
  unfold execDmaAbort
  with_reducible repeat' (first
    | assumption | exact sub_of (by assumption) (by decide) | apply runs_next | apply dmaBy_keeps
    | apply dmaAbort_keeps | intro _ _ _ | intro _)

theorem execDmaAbortDone_keeps {W : Nat} {q0 : State} (d : Nat) (s : State) (hk : Keeps W q0 s) (hW : Sub 0x40401 W)
    : Runs W q0 (execDmaAbortDone d s) := by
  unfold execDmaAbortDone
  with_reducible repeat' (first
    | assumption | exact sub_of (by assumption) (by decide) | apply runs_next | apply dmaAbortDone_keeps)

theorem execDmaPauseSet_keeps {W : Nat} {q0 : State} (tag d : Nat) (s : State) (hk : Keeps W q0 s) (hW : Sub 0x82001
    W) : Runs W q0 (execDmaPauseSet tag d s) := by
  unfold execDmaPauseSet
  with_reducible repeat' (first
    | assumption | exact sub_of (by assumption) (by decide) | apply runs_next | apply dmaBy_keeps
    | apply dmaPause_keeps | intro _ _ _ | intro _)

theorem execDmaPauseDone_keeps {W : Nat} {q0 : State} (d : Nat) (s : State) (hk : Keeps W q0 s) (hW : Sub 0x200FFF39 W) : Runs W q0 (execDmaPauseDone d s) := by
  unfold execDmaPauseDone
  with_reducible repeat' (first
    | assumption | exact sub_of (by assumption) (by decide) | apply runs_next | apply dmaPauseDone_keeps)

theorem execDmaPauseClear_keeps {W : Nat} {q0 : State} (tag d : Nat) (s : State) (hk : Keeps W q0 s) (hW : Sub
    0x82001 W) : Runs W q0 (execDmaPauseClear tag d s) := by
  unfold execDmaPauseClear
  with_reducible repeat' (first
    | assumption | exact sub_of (by assumption) (by decide) | apply runs_next | apply dmaBy_keeps
    | apply dmaPauseClear_keeps | intro _ _ _ | intro _)

theorem execDmaStop_keeps {W : Nat} {q0 : State} (tag d : Nat) (s : State) (hk : Keeps W q0 s) (hW : Sub 0x82001 W) :
    Runs W q0 (execDmaStop tag d s) := by
  unfold execDmaStop
  with_reducible repeat' (first
    | assumption | exact sub_of (by assumption) (by decide) | apply runs_next | apply dmaBy_keeps
    | apply dmaStop_keeps | intro _ _ _ | intro _)

theorem execDmaResumeRetry_keeps {W : Nat} {q0 : State} (tag d : Nat) (s : State) (hk : Keeps W q0 s) (hW : Sub
    0xC2001 W) : Runs W q0 (execDmaResumeRetry tag d s) := by
  unfold execDmaResumeRetry
  with_reducible repeat' (first
    | assumption | exact sub_of (by assumption) (by decide) | apply runs_next | apply dmaBy_keeps
    | apply resumeRetry_keeps | intro _ _ _ | intro _)

theorem execDmaResumeMarkBad_keeps {W : Nat} {q0 : State} (tag d : Nat) (s : State) (hk : Keeps W q0 s) (hW : Sub 0x200FFF39 W) : Runs W q0 (execDmaResumeMarkBad tag d s) := by
  unfold execDmaResumeMarkBad
  with_reducible repeat' (first
    | assumption | exact sub_of (by assumption) (by decide) | apply runs_next | apply dmaBy_keeps
    | apply resumeMarkBad_keeps | intro _ _ _ | intro _)

theorem execDmaResumeDisable_keeps {W : Nat} {q0 : State} (tag d : Nat) (s : State) (hk : Keeps W q0 s) (hW : Sub 0xC2401 W) : Runs W q0 (execDmaResumeDisable tag d s) := by
  unfold execDmaResumeDisable
  with_reducible repeat' (first
    | assumption | exact sub_of (by assumption) (by decide) | apply runs_next | apply dmaBy_keeps
    | apply resumeDisable_keeps | intro _ _ _ | intro _)

theorem execDmaTailWrite_keeps {W : Nat} {q0 : State} (tag d v : Nat) (s : State) (hk : Keeps W q0 s) (hW : Sub
    0x82001 W) : Runs W q0 (execDmaTailWrite tag d v s) := by
  unfold execDmaTailWrite
  with_reducible repeat' (first
    | assumption | exact sub_of (by assumption) (by decide) | apply runs_next | apply dmaBy_keeps
    | apply tailWrite_keeps | intro _ _ _ | intro _)

theorem execDescriptorFetched_keeps {W : Nat} {q0 : State} (d : Nat) (open' : FarRead) (s : State) (hk : Keeps W q0
    s)
    (hW : Sub 0x200FFD39 W := by first | assumption | exact sub_of (by assumption) (by decide)) :
    Runs W q0 (execDescriptorFetched d open' s) := by
  unfold execDescriptorFetched
  repeat' (first
    | with_reducible assumption | exact sub_of (by assumption) (by decide)
    | with_reducible exact twf_tset _ _ _ _ (by assumption)
    | with_reducible refine keeps_chan (W := W) ?_ _ (by assumption) | with_reducible exact twf_nil _
    | with_reducible refine keeps_ok (W := W) ?_ (by assumption) | with_reducible apply runs_next
    | with_reducible refine runs_ite _ _ _ ?_ ?_ | with_reducible apply descFetched_keeps
    | with_reducible refine foldl_keeps _ _ _ ?_ ?_ | with_reducible refine foldl_fst_keeps _ _ _ ?_ ?_ | intro _ _ _
    | intro _ | with_reducible refine keeps_ite _ _ _ ?_ ?_ | split
    | with_reducible refine keeps_fst ?_ (by assumption) | with_reducible refine keeps_fst2 ?_ (by assumption)
    | simp only [])

theorem execDmaReadReturn_keeps {W : Nat} {q0 : State} (d n : Nat) (open' : FarRead) (s : State) (hk : Keeps W q0 s)
    (hW : Sub 0x200FFF39 W := by first | assumption | exact sub_of (by assumption) (by decide)) :
    Runs W q0 (execDmaReadReturn d n open' s) := by
  unfold execDmaReadReturn
  repeat' (first
    | with_reducible assumption | exact sub_of (by assumption) (by decide)
    | with_reducible exact twf_tset _ _ _ _ (by assumption)
    | with_reducible refine keeps_chan (W := W) ?_ _ (by assumption) | with_reducible exact twf_nil _
    | with_reducible refine keeps_ok (W := W) ?_ (by assumption) | with_reducible apply runs_next
    | with_reducible refine runs_ite _ _ _ ?_ ?_ | with_reducible apply readReturn_keeps
    | with_reducible refine foldl_keeps _ _ _ ?_ ?_ | with_reducible refine foldl_fst_keeps _ _ _ ?_ ?_ | intro _ _ _
    | intro _ | with_reducible refine keeps_ite _ _ _ ?_ ?_ | split
    | with_reducible refine keeps_fst ?_ (by assumption) | with_reducible refine keeps_fst2 ?_ (by assumption)
    | simp only [])

theorem execDescriptorComplete_keeps {W : Nat} {q0 : State} (d : Nat) (s : State) (hk : Keeps W q0 s) (hW : Sub 0x200FFF39 W) : Runs W q0 (execDescriptorComplete d s) := by
  unfold execDescriptorComplete
  with_reducible repeat' (first
    | assumption | exact sub_of (by assumption) (by decide) | apply runs_next | apply descComplete_keeps)

theorem execStatusWriteAck_keeps {W : Nat} {q0 : State} (d : Nat) (s : State) (hk : Keeps W q0 s) (hW : Sub 0x40000
    W) : Runs W q0 (execStatusWriteAck d s) := by
  unfold execStatusWriteAck
  with_reducible repeat' (first
    | assumption | exact sub_of (by assumption) (by decide) | apply runs_next | apply statusAck_keeps)

theorem execDmaBusError_keeps {W : Nat} {q0 : State} (d kind dir off : Nat) (s : State) (hk : Keeps W q0 s) (hW : Sub
    0xC2001 W) : Runs W q0 (execDmaBusError d kind dir off s) := by
  unfold execDmaBusError
  with_reducible repeat' (first
    | assumption | exact sub_of (by assumption) (by decide) | apply runs_next | apply dmaError_keeps
    | refine runs_ite _ _ _ ?_ ?_ | refine keeps_ite _ _ _ ?_ ?_ | split)

theorem execDmaRingFault_keeps {W : Nat} {q0 : State} (d : Nat) (s : State) (hk : Keeps W q0 s) (hW : Sub 0xC2001 W)
    : Runs W q0 (execDmaRingFault d s) := by
  unfold execDmaRingFault
  with_reducible repeat' (first
    | assumption | exact sub_of (by assumption) (by decide) | apply runs_next | apply dmaRingFault_keeps
    | refine runs_ite _ _ _ ?_ ?_ | refine keeps_ite _ _ _ ?_ ?_)

theorem execDmaAssign_keeps {W : Nat} {q0 : State} (mbx : Nat) (s : State) (hk : Keeps W q0 s) (hW : Sub 0x10001001
    W) : Runs W q0 (execDmaAssign mbx s) := by
  unfold execDmaAssign
  with_reducible repeat' (first
    | assumption | exact sub_of (by assumption) (by decide) | apply runs_next | apply onCmd_keeps
    | apply dmaAssign_keeps | intro _ _ _)

theorem execDmaStatus_keeps {W : Nat} {q0 : State} (mbx : Nat) (s : State) (hk : Keeps W q0 s) (hW : Sub 0x1001 W) :
    Runs W q0 (execDmaStatus mbx s) := by
  unfold execDmaStatus
  with_reducible repeat' (first
    | assumption | exact sub_of (by assumption) (by decide) | apply runs_next | apply onCmd_keeps
    | apply dmaStatusCmd_keeps | intro _ _ _)

theorem execTenantCreate_keeps {W : Nat} {q0 : State} (mbx : Nat) (s : State) (hk : Keeps W q0 s) (hW : Sub
    0x10001401 W) : Runs W q0 (execTenantCreate mbx s) := by
  unfold execTenantCreate
  with_reducible repeat' (first
    | assumption | exact sub_of (by assumption) (by decide) | apply runs_next | apply onCmd_keeps
    | apply tenantCreate_keeps | intro _ _ _)

theorem execTenantGrant_keeps {W : Nat} {q0 : State} (mbx : Nat) (s : State) (hk : Keeps W q0 s) (hW : Sub 0x38091429 W) : Runs W q0 (execTenantGrant mbx s) := by
  unfold execTenantGrant
  with_reducible repeat' (first
    | assumption | exact sub_of (by assumption) (by decide) | apply runs_next | apply onCmd_keeps
    | apply tenantGrant_keeps | intro _ _ _)

theorem execTenantAssign_keeps {W : Nat} {q0 : State} (mbx : Nat) (s : State) (hk : Keeps W q0 s) (hW : Sub
    0x10001801 W) : Runs W q0 (execTenantAssign mbx s) := by
  unfold execTenantAssign
  with_reducible repeat' (first
    | assumption | exact sub_of (by assumption) (by decide) | apply runs_next | apply onCmd_keeps
    | apply tenantAssign_keeps | intro _ _ _)

theorem execTenantLoad_keeps {W : Nat} {q0 : State} (mbx : Nat) (s : State) (hk : Keeps W q0 s) (hW : Sub 0x380BFD39 W) : Runs W q0 (execTenantLoad mbx s) := by
  unfold execTenantLoad
  with_reducible repeat' (first
    | assumption | exact sub_of (by assumption) (by decide) | apply runs_next | apply onCmd_keeps
    | apply tenantLoad_keeps | intro _ _ _)

theorem execTenantSeal_keeps {W : Nat} {q0 : State} (mbx : Nat) (s : State) (hk : Keeps W q0 s) (hW : Sub 0x10001A01
    W) : Runs W q0 (execTenantSeal mbx s) := by
  unfold execTenantSeal
  with_reducible repeat' (first
    | assumption | exact sub_of (by assumption) (by decide) | apply runs_next | apply onCmd_keeps
    | apply tenantSeal_keeps | intro _ _ _)

theorem execTenantUnseal_keeps {W : Nat} {q0 : State} (mbx : Nat) (s : State) (hk : Keeps W q0 s) (hW : Sub
    0x10001801 W) : Runs W q0 (execTenantUnseal mbx s) := by
  unfold execTenantUnseal
  with_reducible repeat' (first
    | assumption | exact sub_of (by assumption) (by decide) | apply runs_next | apply onCmd_keeps
    | apply tenantUnseal_keeps | intro _ _ _)

theorem execTenantRekey_keeps {W : Nat} {q0 : State} (mbx : Nat) (s : State) (hk : Keeps W q0 s) (hW : Sub 0x10001401
    W) : Runs W q0 (execTenantRekey mbx s) := by
  unfold execTenantRekey
  with_reducible repeat' (first
    | assumption | exact sub_of (by assumption) (by decide) | apply runs_next | apply onCmd_keeps
    | apply tenantRekey_keeps | intro _ _ _)

theorem execTenantStart_keeps {W : Nat} {q0 : State} (mbx : Nat) (s : State) (hk : Keeps W q0 s) (hW : Sub 0x10001001
    W) : Runs W q0 (execTenantStart mbx s) := by
  unfold execTenantStart
  with_reducible repeat' (first
    | assumption | exact sub_of (by assumption) (by decide) | apply runs_next | apply onCmd_keeps
    | apply tenantStart_keeps | intro _ _ _)

theorem execTenantClose_keeps {W : Nat} {q0 : State} (mbx : Nat) (s : State) (hk : Keeps W q0 s) (hW : Sub 0x10001801
    W) : Runs W q0 (execTenantClose mbx s) := by
  unfold execTenantClose
  with_reducible repeat' (first
    | assumption | exact sub_of (by assumption) (by decide) | apply runs_next | apply onCmd_keeps
    | apply tenantClose_keeps | intro _ _ _)

theorem execTenantStatus_keeps {W : Nat} {q0 : State} (mbx : Nat) (s : State) (hk : Keeps W q0 s) (hW : Sub 0x1001 W)
    : Runs W q0 (execTenantStatus mbx s) := by
  unfold execTenantStatus
  with_reducible repeat' (first
    | assumption | exact sub_of (by assumption) (by decide) | apply runs_next | apply onCmd_keeps
    | apply tenantStatus_keeps | intro _ _ _)

theorem execSealDrainsDone_keeps {W : Nat} {q0 : State} (t : Nat) (s : State) (hk : Keeps W q0 s) (hW : Sub 0x280BFD39 W) : Runs W q0 (execSealDrainsDone t s) := by
  unfold execSealDrainsDone
  with_reducible repeat' (first
    | assumption | exact sub_of (by assumption) (by decide) | apply runs_next | apply sealDrainsDone_keeps)

theorem execUnsealDrainDone_keeps {W : Nat} {q0 : State} (t : Nat) (s : State) (hk : Keeps W q0 s) (hW : Sub 0x280BFD39 W) : Runs W q0 (execUnsealDrainDone t s) := by
  unfold execUnsealDrainDone
  with_reducible repeat' (first
    | assumption | exact sub_of (by assumption) (by decide) | apply runs_next | apply unsealDrainDone_keeps)

theorem execCloseKeyErase_keeps {W : Nat} {q0 : State} (t : Nat) (s : State) (hk : Keeps W q0 s) (hW : Sub 0x8000000
    W) : Runs W q0 (execCloseKeyErase t s) := by
  unfold execCloseKeyErase
  with_reducible repeat' (first
    | assumption | exact sub_of (by assumption) (by decide) | apply runs_next | apply closeKeyErase_keeps)

theorem execRekeySweepDone_keeps {W : Nat} {q0 : State} (t : Nat) (s : State) (hk : Keeps W q0 s) (hW : Sub 0x8000000
    W) : Runs W q0 (execRekeySweepDone t s) := by
  unfold execRekeySweepDone
  with_reducible repeat' (first
    | assumption | exact sub_of (by assumption) (by decide) | apply runs_next | apply rekeySweepDone_keeps)

theorem execLinkStageDone_keeps {W : Nat} {q0 : State} (k : Nat) (s : State) (hk : Keeps W q0 s) (hW : Sub 0x92001 W)
    : Runs W q0 (execLinkStageDone k s) := by
  unfold execLinkStageDone
  with_reducible repeat' (first
    | assumption | exact sub_of (by assumption) (by decide) | apply runs_next | apply stageDone5_keeps)

theorem execLinkStageTimeout_keeps {W : Nat} {q0 : State} (k : Nat) (failed : Bool) (s : State) (hk : Keeps W q0 s)
    (hW : Sub 0x10001 W) : Runs W q0 (execLinkStageTimeout k failed s) := by
  unfold execLinkStageTimeout
  with_reducible repeat' (first
    | assumption | exact sub_of (by assumption) (by decide) | apply runs_next | apply stageTimeout5_keeps)

theorem execLinkRetryTimer_keeps {W : Nat} {q0 : State} (k : Nat) (s : State) (hk : Keeps W q0 s) (hW : Sub 0x10001
    W) : Runs W q0 (execLinkRetryTimer k s) := by
  unfold execLinkRetryTimer
  with_reducible repeat' (first
    | assumption | exact sub_of (by assumption) (by decide) | apply runs_next | apply retryTimer5_keeps)

theorem execLinkRekey_keeps {W : Nat} {q0 : State} (k : Nat) (rx : Bool) (s : State) (hk : Keeps W q0 s) (hW : Sub
    0x10000 W) : Runs W q0 (execLinkRekey k rx s) := by
  unfold execLinkRekey
  with_reducible repeat' (first
    | assumption | exact sub_of (by assumption) (by decide) | apply runs_next | apply linkRekey_keeps)

theorem execKeyingFlit_keeps {W : Nat} {q0 : State} (k step : Nat) (ok : Bool) (s : State) (hk : Keeps W q0 s) (hW :
    Sub 0x92001 W) : Runs W q0 (execKeyingFlit k step ok s) := by
  unfold execKeyingFlit
  with_reducible repeat' (first
    | assumption | exact sub_of (by assumption) (by decide) | apply runs_next | apply keyingFlit_keeps)

theorem execFlitReceived_keeps {W : Nat} {q0 : State} (k : Nat) (corrected uncorrectable tagOk : Bool) (f : Flit) (s
    : State) (hk : Keeps W q0 s) (hW : Sub 0x300FFF39 W) : Runs W q0 (execFlitReceived k corrected uncorrectable
    tagOk f s) := by
  unfold execFlitReceived
  with_reducible repeat' (first
    | assumption | exact sub_of (by assumption) (by decide) | apply runs_next | apply flitReceived_keeps)

theorem execNakReceived_keeps {W : Nat} {q0 : State} (k ackSeq : Nat) (s : State) (hk : Keeps W q0 s) (hW : Sub
    0x10001 W) : Runs W q0 (execNakReceived k ackSeq s) := by
  unfold execNakReceived
  with_reducible repeat' (first
    | assumption | exact sub_of (by assumption) (by decide) | apply runs_next | apply nakIn_keeps)

theorem execReplayLimit_keeps {W : Nat} {q0 : State} (k : Nat) (s : State) (hk : Keeps W q0 s) (hW : Sub 0x20093805 W) :
    Runs W q0 (execReplayLimit k s) := by
  unfold execReplayLimit
  with_reducible repeat' (first
    | assumption | exact sub_of (by assumption) (by decide) | apply runs_next | apply linkFailed_keeps
    | refine runs_ite _ _ _ ?_ ?_ | refine keeps_ite _ _ _ ?_ ?_)

theorem execBlockLockLoss_keeps {W : Nat} {q0 : State} (k ns : Nat) (s : State) (hk : Keeps W q0 s) (hW : Sub 0x20093805 W) : Runs W q0 (execBlockLockLoss k ns s) := by
  unfold execBlockLockLoss
  with_reducible repeat' (first
    | assumption | exact sub_of (by assumption) (by decide) | apply runs_next | apply linkFailed_keeps
    | refine runs_ite _ _ _ ?_ ?_ | refine keeps_ite _ _ _ ?_ ?_)

theorem execCodewordTimeout_keeps {W : Nat} {q0 : State} (k ns : Nat) (s : State) (hk : Keeps W q0 s) (hW : Sub 0x20093805 W) : Runs W q0 (execCodewordTimeout k ns s) := by
  unfold execCodewordTimeout
  with_reducible repeat' (first
    | assumption | exact sub_of (by assumption) (by decide) | apply runs_next | apply linkFailed_keeps
    | refine runs_ite _ _ _ ?_ ?_ | refine keeps_ite _ _ _ ?_ ?_)

theorem execHelloTimeout_keeps {W : Nat} {q0 : State} (k : Nat) (s : State) (hk : Keeps W q0 s) (hW : Sub 0x20093805 W)
    : Runs W q0 (execHelloTimeout k s) := by
  unfold execHelloTimeout
  with_reducible repeat' (first
    | assumption | exact sub_of (by assumption) (by decide) | apply runs_next | apply linkFailed_keeps
    | refine runs_ite _ _ _ ?_ ?_ | refine keeps_ite _ _ _ ?_ ?_)

theorem execFabricLaneFailure_keeps {W : Nat} {q0 : State} (k lane : Nat) (s : State) (hk : Keeps W q0 s) (hW : Sub 0x20093805 W) : Runs W q0 (execFabricLaneFailure k lane s) := by
  unfold execFabricLaneFailure
  with_reducible repeat' (first
    | assumption | exact sub_of (by assumption) (by decide) | apply runs_next | apply laneFailure5_keeps)

theorem execFabricRetrainDone_keeps {W : Nat} {q0 : State} (k : Nat) (s : State) (hk : Keeps W q0 s) (hW : Sub 0x20010001 W) : Runs W q0 (execFabricRetrainDone k s) := by
  unfold execFabricRetrainDone
  with_reducible repeat' (first
    | assumption | exact sub_of (by assumption) (by decide) | apply runs_next | apply retrainDone5_keeps)

theorem execHello_keeps {W : Nat} {q0 : State} (k : Nat) (h : HelloMsg) (s : State) (hk : Keeps W q0 s) (hW : Sub 0x20092001 W) : Runs W q0 (execHello k h s) := by
  unfold execHello
  with_reducible repeat' (first
    | assumption | exact sub_of (by assumption) (by decide) | apply runs_next | apply hello_keeps)

theorem execCaptainSettle_keeps {W : Nat} {q0 : State} (s : State) (hk : Keeps W q0 s) (hW : Sub 0x20010005 W) : Runs
    W q0 (execCaptainSettle s) := by
  unfold execCaptainSettle
  with_reducible repeat' (first
    | assumption | exact sub_of (by assumption) (by decide) | apply runs_next | apply captainSettle_keeps)

theorem execLinkStateNotice_keeps {W : Nat} {q0 : State} (k dev port boundary : Nat) (s : State) (hk : Keeps W q0 s)
    (hW : Sub 0x11801 W) : Runs W q0 (execLinkStateNotice k dev port boundary s) := by
  unfold execLinkStateNotice
  with_reducible repeat' (first
    | assumption | exact sub_of (by assumption) (by decide) | apply runs_next | apply linkNotice_keeps)

theorem execFailureBankSwitch_keeps {W : Nat} {q0 : State} (s : State) (hk : Keeps W q0 s) (hW : Sub 0x20010001 W) :
    Runs W q0 (execFailureBankSwitch s) := by
  unfold execFailureBankSwitch
  with_reducible repeat' (first
    | assumption | exact sub_of (by assumption) (by decide) | apply runs_next | apply bankSwitch_keeps)

theorem execFailureBankReady_keeps {W : Nat} {q0 : State} (s : State) (hk : Keeps W q0 s) (hW : Sub 0x10001 W) : Runs
    W q0 (execFailureBankReady s) := by
  unfold execFailureBankReady
  with_reducible repeat' (first
    | assumption | exact sub_of (by assumption) (by decide) | apply runs_next | apply bankReady_keeps)

theorem execRouteTablesComputed_keeps {W : Nat} {q0 : State} (s : State) (hk : Keeps W q0 s) (hW : Sub 0x20010000 W)
    : Runs W q0 (execRouteTablesComputed s) := by
  unfold execRouteTablesComputed
  with_reducible repeat' (first
    | assumption | exact sub_of (by assumption) (by decide) | apply runs_next | apply routesComputed_keeps)

theorem execJoinReport_keeps {W : Nat} {q0 : State} (r : JoinRec) (s : State) (hk : Keeps W q0 s) (hW : Sub 0x10001 W) : Runs W q0 (execJoinReport r s) := by
  unfold execJoinReport
  with_reducible repeat' (first
    | assumption | exact sub_of (by assumption) (by decide) | apply runs_next | apply joinReport_keeps)

theorem execTables_keeps {W : Nat} {q0 : State} (t : TablesMsg) (s : State) (hk : Keeps W q0 s) (hW : Sub 0x20010000
    W) : Runs W q0 (execTables t s) := by
  unfold execTables
  with_reducible repeat' (first
    | assumption | exact sub_of (by assumption) (by decide) | apply runs_next | apply tablesIn_keeps)

theorem execTablesAck_keeps {W : Nat} {q0 : State} (dev epoch digest : Nat) (s : State) (hk : Keeps W q0 s) (hW : Sub
    0x20010000 W) : Runs W q0 (execTablesAck dev epoch digest s) := by
  unfold execTablesAck
  with_reducible repeat' (first
    | assumption | exact sub_of (by assumption) (by decide) | apply runs_next | apply tablesAck_keeps)

theorem execCommit_keeps {W : Nat} {q0 : State} (epoch boundary : Nat) (s : State) (hk : Keeps W q0 s) (hW : Sub
    0x10000 W) : Runs W q0 (execCommit epoch boundary s) := by
  unfold execCommit
  with_reducible repeat' (first
    | assumption | exact sub_of (by assumption) (by decide) | apply runs_next | apply commitIn_keeps)

theorem execTableSwitch_keeps {W : Nat} {q0 : State} (s : State) (hk : Keeps W q0 s) (hW : Sub 0x200BFF1D W) : Runs W
    q0 (execTableSwitch s) := by
  unfold execTableSwitch
  with_reducible repeat' (first
    | assumption | exact sub_of (by assumption) (by decide) | apply runs_next | apply tableSwitch_keeps)

theorem execEpochGraceEnd_keeps {W : Nat} {q0 : State} (s : State) (hk : Keeps W q0 s) (hW : Sub 0x10000 W) : Runs W
    q0 (execEpochGraceEnd s) := by
  unfold execEpochGraceEnd
  with_reducible repeat' (first
    | assumption | exact sub_of (by assumption) (by decide) | apply runs_next | apply graceEnd_keeps)

theorem execSharePlace_keeps {W : Nat} {q0 : State} (captain : Nat) (g : ShareSeg) (s : State) (hk : Keeps W q0 s)
    (hW : Sub 0x28010001 W) : Runs W q0 (execSharePlace captain g s) := by
  unfold execSharePlace
  with_reducible repeat' (first
    | assumption | exact sub_of (by assumption) (by decide) | apply runs_next | apply sharePlace_keeps)

theorem execShareAck_keeps {W : Nat} {q0 : State} (dev ten peer outcome : Nat) (s : State) (hk : Keeps W q0 s) (hW :
    Sub 0x28011801 W) : Runs W q0 (execShareAck dev ten peer outcome s) := by
  unfold execShareAck
  with_reducible repeat' (first
    | assumption | exact sub_of (by assumption) (by decide) | apply runs_next | apply shareAck_keeps)

theorem execSealQuery_keeps {W : Nat} {q0 : State} (dev ten : Nat) (reply isSealed : Bool) (s : State) (hk : Keeps W
    q0 s) (hW : Sub 0x20011001 W) : Runs W q0 (execSealQuery dev ten reply isSealed s) := by
  unfold execSealQuery
  with_reducible repeat' (first
    | assumption | exact sub_of (by assumption) (by decide) | apply runs_next | apply sealQuery_keeps)

theorem execBeatMarker_keeps {W : Nat} {q0 : State} (k tRx : Nat) (m : Marker) (s : State) (hk : Keeps W q0 s)
    (hW : Sub 0x10005 W := by first | assumption | exact sub_of (by assumption) (by decide)) :
    Runs W q0 (execBeatMarker k tRx m s) := by
  unfold execBeatMarker
  repeat' (first
    | with_reducible assumption | exact sub_of (by assumption) (by decide) | with_reducible apply runs_next
    | with_reducible refine runs_ite _ _ _ ?_ ?_ | with_reducible apply beatMarker_keeps
    | with_reducible refine foldl_keeps _ _ _ ?_ ?_ | with_reducible refine foldl_fst_keeps _ _ _ ?_ ?_ | intro _ _ _
    | intro _ | with_reducible refine keeps_ite _ _ _ ?_ ?_ | split
    | with_reducible refine keeps_fst ?_ (by assumption) | with_reducible refine keeps_fst2 ?_ (by assumption)
    | simp only [])

theorem execMarkerLoss_keeps {W : Nat} {q0 : State} (s : State) (hk : Keeps W q0 s) (hW : Sub 0x10005 W) : Runs W q0
    (execMarkerLoss s) := by
  unfold execMarkerLoss
  with_reducible repeat' (first
    | assumption | exact sub_of (by assumption) (by decide) | apply runs_next | apply markerLoss_keeps)

theorem execCaptainUnreachable_keeps {W : Nat} {q0 : State} (s : State) (hk : Keeps W q0 s) (hW : Sub 0x10001 W) :
    Runs W q0 (execCaptainUnreachable s) := by
  unfold execCaptainUnreachable
  with_reducible repeat' (first
    | assumption | exact sub_of (by assumption) (by decide) | apply runs_next | apply captainUnreachable_keeps)

theorem execMemberUnreachable_keeps {W : Nat} {q0 : State} (dev : Nat) (s : State) (hk : Keeps W q0 s) (hW : Sub
    0x10001 W) : Runs W q0 (execMemberUnreachable dev s) := by
  unfold execMemberUnreachable
  with_reducible repeat' (first
    | assumption | exact sub_of (by assumption) (by decide) | apply runs_next | apply memberUnreachable_keeps)

theorem execSliceFill_keeps {W : Nat} {q0 : State} (slice line : Nat) (s : State) (hk : Keeps W q0 s)
    (hW : Sub 0x200BFF39 W := by first | assumption | exact sub_of (by assumption) (by decide)) :
    Runs W q0 (execSliceFill slice line s) := by
  unfold execSliceFill
  repeat' (first
    | with_reducible assumption | exact sub_of (by assumption) (by decide)
    | with_reducible exact twf_tset _ _ _ _ (by assumption)
    | with_reducible refine keeps_chan (W := W) ?_ _ (by assumption) | with_reducible exact twf_nil _
    | with_reducible refine keeps_ok (W := W) ?_ (by assumption) | with_reducible apply runs_next
    | with_reducible refine runs_ite _ _ _ ?_ ?_ | with_reducible apply sliceFill_keeps
    | with_reducible apply pumpLine_keeps | with_reducible refine foldl_keeps _ _ _ ?_ ?_
    | with_reducible refine foldl_fst_keeps _ _ _ ?_ ?_ | intro _ _ _ | intro _
    | with_reducible refine keeps_ite _ _ _ ?_ ?_ | split | with_reducible refine keeps_fst ?_ (by assumption)
    | with_reducible refine keeps_fst2 ?_ (by assumption) | simp only [])

theorem execMaintenanceComplete_keeps {W : Nat} {q0 : State} (slice line : Nat) (s : State) (hk : Keeps W q0 s)
    (hW : Sub 0x200BFF39 W := by first | assumption | exact sub_of (by assumption) (by decide)) :
    Runs W q0 (execMaintenanceComplete slice line s) := by
  unfold execMaintenanceComplete
  repeat' (first
    | with_reducible assumption | exact sub_of (by assumption) (by decide)
    | with_reducible exact twf_tset _ _ _ _ (by assumption)
    | with_reducible refine keeps_chan (W := W) ?_ _ (by assumption) | with_reducible exact twf_nil _
    | with_reducible refine keeps_ok (W := W) ?_ (by assumption) | with_reducible apply runs_next
    | with_reducible refine runs_ite _ _ _ ?_ ?_ | with_reducible apply maintComplete_keeps
    | with_reducible apply pumpLine_keeps | with_reducible refine foldl_keeps _ _ _ ?_ ?_
    | with_reducible refine foldl_fst_keeps _ _ _ ?_ ?_ | intro _ _ _ | intro _
    | with_reducible refine keeps_ite _ _ _ ?_ ?_ | split | with_reducible refine keeps_fst ?_ (by assumption)
    | with_reducible refine keeps_fst2 ?_ (by assumption) | simp only [])

theorem execRdShared_keeps {W : Nat} {q0 : State} (p : Pkt) (s : State) (hk : Keeps W q0 s) (hW : Sub 0x200BFF39 W) :
    Runs W q0 (execRdShared p s) := by
  unfold execRdShared
  with_reducible repeat' (first
    | assumption | exact sub_of (by assumption) (by decide) | apply runs_next | apply fabRequest_keeps)

theorem execRdOwn_keeps {W : Nat} {q0 : State} (p : Pkt) (s : State) (hk : Keeps W q0 s) (hW : Sub 0x200BFF39 W) :
    Runs W q0 (execRdOwn p s) := by
  unfold execRdOwn
  with_reducible repeat' (first
    | assumption | exact sub_of (by assumption) (by decide) | apply runs_next | apply fabRequest_keeps)

theorem execRdNc_keeps {W : Nat} {q0 : State} (p : Pkt) (s : State) (hk : Keeps W q0 s) (hW : Sub 0x200BFF39 W) :
    Runs W q0 (execRdNc p s) := by
  unfold execRdNc
  with_reducible repeat' (first
    | assumption | exact sub_of (by assumption) (by decide) | apply runs_next | apply fabRequest_keeps)

theorem execWrNc_keeps {W : Nat} {q0 : State} (p : Pkt) (s : State) (hk : Keeps W q0 s) (hW : Sub 0x200BFF39 W) :
    Runs W q0 (execWrNc p s) := by
  unfold execWrNc
  with_reducible repeat' (first
    | assumption | exact sub_of (by assumption) (by decide) | apply runs_next | apply fabRequest_keeps)

theorem execWrLine_keeps {W : Nat} {q0 : State} (p : Pkt) (s : State) (hk : Keeps W q0 s) (hW : Sub 0x200BFF39 W) :
    Runs W q0 (execWrLine p s) := by
  unfold execWrLine
  with_reducible repeat' (first
    | assumption | exact sub_of (by assumption) (by decide) | apply runs_next | apply fabRequest_keeps)

theorem execEvict_keeps {W : Nat} {q0 : State} (p : Pkt) (s : State) (hk : Keeps W q0 s) (hW : Sub 0x200BFF39 W) :
    Runs W q0 (execEvict p s) := by
  unfold execEvict
  with_reducible repeat' (first
    | assumption | exact sub_of (by assumption) (by decide) | apply runs_next | apply fabRequest_keeps)

theorem execMaint_keeps {W : Nat} {q0 : State} (p : Pkt) (s : State) (hk : Keeps W q0 s) (hW : Sub 0x200BFF39 W) :
    Runs W q0 (execMaint p s) := by
  unfold execMaint
  with_reducible repeat' (first
    | assumption | exact sub_of (by assumption) (by decide) | apply runs_next | apply fabRequest_keeps)

theorem execAtomic_keeps {W : Nat} {q0 : State} (p : Pkt) (s : State) (hk : Keeps W q0 s) (hW : Sub 0x200BFF39 W) :
    Runs W q0 (execAtomic p s) := by
  unfold execAtomic
  with_reducible repeat' (first
    | assumption | exact sub_of (by assumption) (by decide) | apply runs_next | apply fabRequest_keeps)

theorem execSnpInv_keeps {W : Nat} {q0 : State} (p : Pkt) (s : State) (hk : Keeps W q0 s) (hW : Sub 0x200BFF39 W) :
    Runs W q0 (execSnpInv p s) := by
  unfold execSnpInv
  with_reducible repeat' (first
    | assumption | exact sub_of (by assumption) (by decide) | apply runs_next | apply snoopIn_keeps)

theorem execSnpShare_keeps {W : Nat} {q0 : State} (p : Pkt) (s : State) (hk : Keeps W q0 s) (hW : Sub 0x200BFF39 W) :
    Runs W q0 (execSnpShare p s) := by
  unfold execSnpShare
  with_reducible repeat' (first
    | assumption | exact sub_of (by assumption) (by decide) | apply runs_next | apply snoopIn_keeps)

theorem execAck_keeps {W : Nat} {q0 : State} (src xid : Nat) (completion : Bool) (s : State) (hk : Keeps W q0 s) (hW
    : Sub 0x300FFF39 W) : Runs W q0 (execAck src xid completion s) := by
  unfold execAck
  with_reducible repeat' (first
    | assumption | exact sub_of (by assumption) (by decide) | apply runs_next | apply ackIn_keeps)

theorem execRetry_keeps {W : Nat} {q0 : State} (src xid : Nat) (s : State) (hk : Keeps W q0 s) (hW : Sub 0x20096801 W) :
    Runs W q0 (execRetry src xid s) := by
  unfold execRetry
  with_reducible repeat' (first
    | assumption | exact sub_of (by assumption) (by decide) | apply runs_next | apply retryIn_keeps)

theorem execGrant_keeps {W : Nat} {q0 : State} (src xid : Nat) (s : State) (hk : Keeps W q0 s) (hW : Sub 0x20096801 W) : Runs W q0 (execGrant src xid s) := by
  unfold execGrant
  with_reducible repeat' (first
    | assumption | exact sub_of (by assumption) (by decide) | apply runs_next | apply grantIn_keeps)

theorem execErr_keeps {W : Nat} {q0 : State} (src xid : Nat) (s : State) (hk : Keeps W q0 s) (hW : Sub 0x300FFD39 W)
    : Runs W q0 (execErr src xid s) := by
  unfold execErr
  with_reducible repeat' (first
    | assumption | exact sub_of (by assumption) (by decide) | apply runs_next | apply errIn_keeps)

theorem execSnpRsp_keeps {W : Nat} {q0 : State} (src line : Nat) (s : State) (hk : Keeps W q0 s) (hW : Sub 0x200BFF39 W) : Runs W q0 (execSnpRsp src line s) := by
  unfold execSnpRsp
  with_reducible repeat' (first
    | assumption | exact sub_of (by assumption) (by decide) | apply runs_next | apply snoopAnswer_keeps)

theorem execData_keeps {W : Nat} {q0 : State} (src xid data : Nat) (s : State) (hk : Keeps W q0 s) (hW : Sub 0x300FFD39 W) : Runs W q0 (execData src xid data s) := by
  unfold execData
  with_reducible repeat' (first
    | assumption | exact sub_of (by assumption) (by decide) | apply runs_next | apply dataIn_keeps)

theorem execPoisonData_keeps {W : Nat} {q0 : State} (src xid : Nat) (s : State) (hk : Keeps W q0 s) (hW : Sub 0x300FFD39 W) : Runs W q0 (execPoisonData src xid s) := by
  unfold execPoisonData
  with_reducible repeat' (first
    | assumption | exact sub_of (by assumption) (by decide) | apply runs_next | apply dataIn_keeps)

theorem execSnpData_keeps {W : Nat} {q0 : State} (src line data : Nat) (poison : Bool) (s : State) (hk : Keeps W q0
    s) (hW : Sub 0x200BFF39 W) : Runs W q0 (execSnpData src line data poison s) := by
  unfold execSnpData
  with_reducible repeat' (first
    | assumption | exact sub_of (by assumption) (by decide) | apply runs_next | apply snoopAnswer_keeps)

theorem execRequestResendTimeout_keeps {W : Nat} {q0 : State} (xid : Nat) (s : State) (hk : Keeps W q0 s) (hW : Sub
    0x20014000 W) : Runs W q0 (execRequestResendTimeout xid s) := by
  unfold execRequestResendTimeout
  with_reducible repeat' (first
    | assumption | exact sub_of (by assumption) (by decide) | apply runs_next | apply requestResend_keeps)

theorem execSnoopResendTimeout_keeps {W : Nat} {q0 : State} (dev line : Nat) (s : State) (hk : Keeps W q0 s) (hW :
    Sub 0x20010000 W) : Runs W q0 (execSnoopResendTimeout dev line s) := by
  unfold execSnoopResendTimeout
  with_reducible repeat' (first
    | assumption | exact sub_of (by assumption) (by decide) | apply runs_next | apply snoopResend_keeps)

theorem execRequestErrorTimeout_keeps {W : Nat} {q0 : State} (xid : Nat) (s : State) (hk : Keeps W q0 s) (hW : Sub 0x300FFD39 W) : Runs W q0 (execRequestErrorTimeout xid s) := by
  unfold execRequestErrorTimeout
  with_reducible repeat' (first
    | assumption | exact sub_of (by assumption) (by decide) | apply runs_next | apply requestError_keeps)

theorem execFabricStatus_keeps {W : Nat} {q0 : State} (mbx : Nat) (s : State) (hk : Keeps W q0 s) (hW : Sub 0x1001 W)
    : Runs W q0 (execFabricStatus mbx s) := by
  unfold execFabricStatus
  with_reducible repeat' (first
    | assumption | exact sub_of (by assumption) (by decide) | apply runs_next | apply onCmd_keeps
    | apply fabricStatus_keeps | intro _ _ _)

theorem execFabricRoute_keeps {W : Nat} {q0 : State} (mbx : Nat) (s : State) (hk : Keeps W q0 s) (hW : Sub 0x1001 W)
    : Runs W q0 (execFabricRoute mbx s) := by
  unfold execFabricRoute
  with_reducible repeat' (first
    | assumption | exact sub_of (by assumption) (by decide) | apply runs_next | apply onCmd_keeps
    | apply fabricRoute_keeps | intro _ _ _)

theorem execFabricPort_keeps {W : Nat} {q0 : State} (mbx : Nat) (s : State) (hk : Keeps W q0 s) (hW : Sub 0x10001001
    W) : Runs W q0 (execFabricPort mbx s) := by
  unfold execFabricPort
  with_reducible repeat' (first
    | assumption | exact sub_of (by assumption) (by decide) | apply runs_next | apply onCmd_keeps
    | apply fabricPort_keeps | intro _ _ _)

theorem execFabricGrant_keeps {W : Nat} {q0 : State} (mbx : Nat) (s : State) (hk : Keeps W q0 s) (hW : Sub 0x8001001
    W) : Runs W q0 (execFabricGrant mbx s) := by
  unfold execFabricGrant
  with_reducible repeat' (first
    | assumption | exact sub_of (by assumption) (by decide) | apply runs_next | apply onCmd_keeps
    | apply fabricGrant_keeps | intro _ _ _)

theorem execFabricShare_keeps {W : Nat} {q0 : State} (mbx : Nat) (s : State) (hk : Keeps W q0 s) (hW : Sub 0x30011001
    W) : Runs W q0 (execFabricShare mbx s) := by
  unfold execFabricShare
  with_reducible repeat' (first
    | assumption | exact sub_of (by assumption) (by decide) | apply runs_next | apply onCmd_keeps
    | apply fabricShare_keeps | intro _ _ _)

theorem execMainCoreLoad_keeps {W : Nat} {q0 : State} (h : Nat) (a : MemAcc) (rd : Nat) (signed : Bool) (s : State)
    (hk : Keeps W q0 s) (hW : Sub 0x200FFF39 W) : Runs W q0 (execMainCoreLoad h a rd signed s) := by
  unfold execMainCoreLoad
  with_reducible repeat' (first
    | assumption | exact sub_of (by assumption) (by decide) | apply runs_next | apply load_keeps)

theorem execMainCoreStore_keeps {W : Nat} {q0 : State} (h : Nat) (a : MemAcc) (v : Nat) (younger : List Nat) (s :
    State) (hk : Keeps W q0 s) (hW : Sub 0x200FFF39 W) : Runs W q0 (execMainCoreStore h a v younger s) := by
  unfold execMainCoreStore
  with_reducible repeat' (first
    | assumption | exact sub_of (by assumption) (by decide) | apply runs_next | apply store_keeps)

theorem execMainCoreAmo_keeps {W : Nat} {q0 : State} (h : Nat) (a : MemAcc) (op : AmoOp) (v cmp rd : Nat) (younger :
    List Nat) (s : State) (hk : Keeps W q0 s) (hW : Sub 0x200BFF39 W) : Runs W q0 (execMainCoreAmo h a op v cmp rd
    younger s) := by
  unfold execMainCoreAmo
  with_reducible repeat' (first
    | assumption | exact sub_of (by assumption) (by decide) | apply runs_next | apply amo_keeps)

theorem execControlWindowAccess_keeps {W : Nat} {q0 : State} (h va off size rd : Nat) (signed write : Bool) (v : Nat)
    (s : State) (hk : Keeps W q0 s) (hW : Sub 0x200FFF39 W) : Runs W q0 (execControlWindowAccess h va off size rd
    signed write v s) := by
  unfold execControlWindowAccess
  with_reducible repeat' (first
    | assumption | exact sub_of (by assumption) (by decide) | apply runs_next | apply controlWindow_keeps)

theorem execCboClean_keeps {W : Nat} {q0 : State} (h va pa : Nat) (s : State) (hk : Keeps W q0 s) (hW : Sub 0x2009ED19 W) : Runs W q0 (execCboClean h va pa s) := by
  unfold execCboClean
  with_reducible repeat' (first
    | assumption | exact sub_of (by assumption) (by decide) | apply runs_next | apply cboGated_keeps)

theorem execCboFlush_keeps {W : Nat} {q0 : State} (h va pa : Nat) (s : State) (hk : Keeps W q0 s) (hW : Sub 0x2009ED19 W) : Runs W q0 (execCboFlush h va pa s) := by
  unfold execCboFlush
  with_reducible repeat' (first
    | assumption | exact sub_of (by assumption) (by decide) | apply runs_next | apply cboGated_keeps)

theorem execCboInval_keeps {W : Nat} {q0 : State} (h va pa : Nat) (s : State) (hk : Keeps W q0 s) (hW : Sub 0x2009ED19 W) : Runs W q0 (execCboInval h va pa s) := by
  unfold execCboInval
  with_reducible repeat' (first
    | assumption | exact sub_of (by assumption) (by decide) | apply runs_next | apply cboInval_keeps)

theorem execCboZero_keeps {W : Nat} {q0 : State} (h : Nat) (va : PageAt) (pa : Nat) (younger : List Nat) (s : State)
    (hk : Keeps W q0 s)
    (hW : Sub 0x200BFF39 W := by first | assumption | exact sub_of (by assumption) (by decide)) :
    Runs W q0 (execCboZero h va pa younger s) := by
  unfold execCboZero
  repeat' (first
    | with_reducible assumption | exact sub_of (by assumption) (by decide)
    | with_reducible exact twf_tset _ _ _ _ (by assumption)
    | with_reducible refine keeps_chan (W := W) ?_ _ (by assumption) | with_reducible exact twf_nil _
    | with_reducible refine keeps_ok (W := W) ?_ (by assumption) | with_reducible apply runs_next
    | with_reducible refine runs_ite _ _ _ ?_ ?_ | with_reducible apply cboZero_keeps
    | with_reducible refine foldl_keeps _ _ _ ?_ ?_ | with_reducible refine foldl_fst_keeps _ _ _ ?_ ?_ | intro _ _ _
    | intro _ | with_reducible refine keeps_ite _ _ _ ?_ ?_ | split
    | with_reducible refine keeps_fst ?_ (by assumption) | with_reducible refine keeps_fst2 ?_ (by assumption)
    | simp only [])

theorem execPrefetchHint_keeps {W : Nat} {q0 : State} (h : Nat) (pa : PageAt) (kind : Nat) (faults : Bool) (s :
    State) (hk : Keeps W q0 s)
    (hW : Sub 0x200BFD39 W := by first | assumption | exact sub_of (by assumption) (by decide)) :
    Runs W q0 (execPrefetchHint h pa kind faults s) := by
  unfold execPrefetchHint
  repeat' (first
    | with_reducible assumption | exact sub_of (by assumption) (by decide)
    | with_reducible exact twf_tset _ _ _ _ (by assumption)
    | with_reducible refine keeps_chan (W := W) ?_ _ (by assumption) | with_reducible exact twf_nil _
    | with_reducible refine keeps_ok (W := W) ?_ (by assumption) | with_reducible apply runs_next
    | with_reducible refine runs_ite _ _ _ ?_ ?_ | with_reducible apply prefetch_keeps
    | with_reducible refine foldl_keeps _ _ _ ?_ ?_ | with_reducible refine foldl_fst_keeps _ _ _ ?_ ?_ | intro _ _ _
    | intro _ | with_reducible refine keeps_ite _ _ _ ?_ ?_ | split
    | with_reducible refine keeps_fst ?_ (by assumption) | with_reducible refine keeps_fst2 ?_ (by assumption)
    | simp only [])

theorem execDoorbell_keeps {W : Nat} {q0 : State} (tag mbx : Nat) (s : State) (hk : Keeps W q0 s) (hW : Sub 0x83001
    W) : Runs W q0 (execDoorbell tag mbx s) := by
  unfold execDoorbell
  with_reducible repeat' (first
    | assumption | exact sub_of (by assumption) (by decide) | apply runs_next | apply mbxStore_keeps)

theorem execResultAck_keeps {W : Nat} {q0 : State} (tag mbx size v : Nat) (s : State) (hk : Keeps W q0 s) (hW : Sub
    0x83001 W) : Runs W q0 (execResultAck tag mbx size v s) := by
  unfold execResultAck
  with_reducible repeat' (first
    | assumption | exact sub_of (by assumption) (by decide) | apply runs_next | apply mbxStore_keeps)

theorem execNoticeAck_keeps {W : Nat} {q0 : State} (tag mbx size v : Nat) (s : State) (hk : Keeps W q0 s) (hW : Sub
    0x83001 W) : Runs W q0 (execNoticeAck tag mbx size v s) := by
  unfold execNoticeAck
  with_reducible repeat' (first
    | assumption | exact sub_of (by assumption) (by decide) | apply runs_next | apply mbxStore_keeps)

theorem execLlcInjectDataCe_keeps {W : Nat} {q0 : State} (slice : Nat) (s : State) (hk : Keeps W q0 s) (hW : Sub
    0x2000100 W) : Runs W q0 (execLlcInjectDataCe slice s) := by
  unfold execLlcInjectDataCe
  with_reducible repeat' (first
    | assumption | exact sub_of (by assumption) (by decide) | apply runs_next | apply llcInject_keeps)

theorem execLlcInjectDataUe_keeps {W : Nat} {q0 : State} (slice : Nat) (s : State) (hk : Keeps W q0 s) (hW : Sub
    0x2000100 W) : Runs W q0 (execLlcInjectDataUe slice s) := by
  unfold execLlcInjectDataUe
  with_reducible repeat' (first
    | assumption | exact sub_of (by assumption) (by decide) | apply runs_next | apply llcInject_keeps)

theorem execLlcInjectTagPar_keeps {W : Nat} {q0 : State} (slice : Nat) (s : State) (hk : Keeps W q0 s) (hW : Sub
    0x2000100 W) : Runs W q0 (execLlcInjectTagPar slice s) := by
  unfold execLlcInjectTagPar
  with_reducible repeat' (first
    | assumption | exact sub_of (by assumption) (by decide) | apply runs_next | apply llcInject_keeps)

theorem execMcInjectCaParity_keeps {W : Nat} {q0 : State} (c sub : Nat) (s : State) (hk : Keeps W q0 s) (hW : Sub
    0x2000400 W) : Runs W q0 (execMcInjectCaParity c sub s) := by
  unfold execMcInjectCaParity
  with_reducible repeat' (first
    | assumption | exact sub_of (by assumption) (by decide) | apply runs_next | apply mcInject_keeps)

theorem execMcInjectWcrc_keeps {W : Nat} {q0 : State} (c sub : Nat) (s : State) (hk : Keeps W q0 s) (hW : Sub
    0x2000400 W) : Runs W q0 (execMcInjectWcrc c sub s) := by
  unfold execMcInjectWcrc
  with_reducible repeat' (first
    | assumption | exact sub_of (by assumption) (by decide) | apply runs_next | apply mcInject_keeps)

theorem execTestEnd_keeps {W : Nat} {q0 : State} (id : Nat) (r : TestRep) (s : State) (hk : Keeps W q0 s) (hW : Sub 0x29000069 W) : Runs W q0 (execTestEnd id r s) := by
  unfold execTestEnd
  with_reducible repeat' (first
    | assumption | exact sub_of (by assumption) (by decide) | apply runs_next | apply testEnd_keeps)

theorem execLoopbackFollow_keeps {W : Nat} {q0 : State} (k : Nat) (s : State) (hk : Keeps W q0 s) (hW : Sub 0x10001
    W) : Runs W q0 (execLoopbackFollow k s) := by
  unfold execLoopbackFollow
  with_reducible repeat' (first
    | assumption | exact sub_of (by assumption) (by decide) | apply runs_next | apply loopbackFollow_keeps)

theorem execInjectionExpiry_keeps {W : Nat} {q0 : State} (target unit : Nat) (s : State) (hk : Keeps W q0 s) (hW :
    Sub 0x2000520 W) : Runs W q0 (execInjectionExpiry target unit s) := by
  unfold execInjectionExpiry
  with_reducible repeat' (first
    | assumption | exact sub_of (by assumption) (by decide) | apply runs_next | apply injectionExpiry_keeps)

theorem execTestLoopback_keeps {W : Nat} {q0 : State} (mbx : Nat) (s : State) (hk : Keeps W q0 s) (hW : Sub
    0x11001001 W) : Runs W q0 (execTestLoopback mbx s) := by
  unfold execTestLoopback
  with_reducible repeat' (first
    | assumption | exact sub_of (by assumption) (by decide) | apply runs_next | apply onCmd_keeps
    | apply testLoopback_keeps | intro _ _ _)

theorem execTestBist_keeps {W : Nat} {q0 : State} (mbx : Nat) (s : State) (hk : Keeps W q0 s) (hW : Sub 0x11001001 W)
    : Runs W q0 (execTestBist mbx s) := by
  unfold execTestBist
  with_reducible repeat' (first
    | assumption | exact sub_of (by assumption) (by decide) | apply runs_next | apply onCmd_keeps
    | apply testBist_keeps | intro _ _ _)

theorem execTestInject_keeps {W : Nat} {q0 : State} (mbx : Nat) (s : State) (hk : Keeps W q0 s) (hW : Sub 0x2001521
    W) : Runs W q0 (execTestInject mbx s) := by
  unfold execTestInject
  with_reducible repeat' (first
    | assumption | exact sub_of (by assumption) (by decide) | apply runs_next | apply onCmd_keeps
    | apply testInject_keeps | intro _ _ _)

theorem execTestStatus_keeps {W : Nat} {q0 : State} (mbx : Nat) (s : State) (hk : Keeps W q0 s) (hW : Sub 0x1001001
    W) : Runs W q0 (execTestStatus mbx s) := by
  unfold execTestStatus
  with_reducible repeat' (first
    | assumption | exact sub_of (by assumption) (by decide) | apply runs_next | apply onCmd_keeps
    | apply testStatus_keeps | intro _ _ _)

theorem execLoopbackRequestStop_keeps {W : Nat} {q0 : State} (k : Nat) (s : State) (hk : Keeps W q0 s) (hW : Sub
    0x10001 W) : Runs W q0 (execLoopbackRequestStop k s) := by
  unfold execLoopbackRequestStop
  with_reducible repeat' (first
    | assumption | exact sub_of (by assumption) (by decide) | apply runs_next | apply followStop_keeps)

theorem execInputCurrentLimit_keeps {W : Nat} {q0 : State} (iin ns : Nat) (s : State) (hk : Keeps W q0 s) (hW : Sub
    0x21 W) : Runs W q0 (execInputCurrentLimit iin ns s) := by
  unfold execInputCurrentLimit
  with_reducible repeat' (first
    | assumption | exact sub_of (by assumption) (by decide) | apply runs_next | apply inputLimit_keeps)

theorem execThermalHalving_keeps {W : Nat} {q0 : State} (pair : Nat) (degC : Int) (s : State) (hk : Keeps W q0 s) (hW
    : Sub 0x21 W) : Runs W q0 (execThermalHalving pair degC s) := by
  unfold execThermalHalving
  with_reducible repeat' (first
    | assumption | exact sub_of (by assumption) (by decide) | apply runs_next | apply thermalHalving_keeps)

theorem execCloseMarkerWritten_keeps {W : Nat} {q0 : State} (okA okB : Bool) (s : State) (hk : Keeps W q0 s) (hW :
    Sub 0xC800000 W) : Runs W q0 (execCloseMarkerWritten okA okB s) := by
  unfold execCloseMarkerWritten
  with_reducible repeat' (first
    | assumption | exact sub_of (by assumption) (by decide) | apply runs_next | apply closeMarker_keeps)

theorem execDrowseGateStart_keeps {W : Nat} {q0 : State} (pair : Nat) (s : State) (hk : Keeps W q0 s) (hW : Sub 0x20
    W) : Runs W q0 (execDrowseGateStart pair s) := by
  unfold execDrowseGateStart
  with_reducible repeat' (first
    | assumption | exact sub_of (by assumption) (by decide) | apply runs_next | apply gateStart_keeps)

theorem execDrowseGateDone_keeps {W : Nat} {q0 : State} (pair : Nat) (s : State) (hk : Keeps W q0 s) (hW : Sub 0x280BFD39 W) : Runs W q0 (execDrowseGateDone pair s) := by
  unfold execDrowseGateDone
  with_reducible repeat' (first
    | assumption | exact sub_of (by assumption) (by decide) | apply runs_next | apply gateDone_keeps)

theorem execGatedPairWake_keeps {W : Nat} {q0 : State} (pair : Nat) (s : State) (hk : Keeps W q0 s) (hW : Sub
    0x8000020 W) : Runs W q0 (execGatedPairWake pair s) := by
  unfold execGatedPairWake
  with_reducible repeat' (first
    | assumption | exact sub_of (by assumption) (by decide) | apply runs_next | apply gatedWake_keeps)

theorem execIdleTimerExpiry_keeps {W : Nat} {q0 : State} (s : State) (hk : Keeps W q0 s) (hW : Sub 0x4000001 W) :
    Runs W q0 (execIdleTimerExpiry s) := by
  unfold execIdleTimerExpiry
  with_reducible repeat' (first
    | assumption | exact sub_of (by assumption) (by decide) | apply runs_next | apply idleExpiry_keeps)

theorem execSleepRequest_keeps {W : Nat} {q0 : State} (s : State) (hk : Keeps W q0 s) (hW : Sub 0x3D0FFD7D W) : Runs
    W q0 (execSleepRequest s) := by
  unfold execSleepRequest
  with_reducible repeat' (first
    | assumption | exact sub_of (by assumption) (by decide) | apply runs_next | apply sleepRequest_keeps)

theorem execDormantDrainsDone_keeps {W : Nat} {q0 : State} (subNs phase : Nat) (s : State) (hk : Keeps W q0 s)
    (hW : Sub 0x240BFD1D W := by first | assumption | exact sub_of (by assumption) (by decide)) :
    Runs W q0 (execDormantDrainsDone subNs phase s) := by
  unfold execDormantDrainsDone
  repeat' (first
    | with_reducible assumption | exact sub_of (by assumption) (by decide)
    | with_reducible exact twf_tset _ _ _ _ (by assumption)
    | with_reducible refine keeps_chan (W := W) ?_ _ (by assumption) | with_reducible exact twf_nil _
    | with_reducible refine keeps_ok (W := W) ?_ (by assumption) | with_reducible apply runs_next
    | with_reducible refine runs_ite _ _ _ ?_ ?_ | with_reducible apply drainsDone_keeps
    | with_reducible refine foldl_keeps _ _ _ ?_ ?_ | with_reducible refine foldl_fst_keeps _ _ _ ?_ ?_ | intro _ _ _
    | intro _ | with_reducible refine keeps_ite _ _ _ ?_ ?_ | split
    | with_reducible refine keeps_fst ?_ (by assumption) | with_reducible refine keeps_fst2 ?_ (by assumption)
    | simp only [])

theorem execI3cWakeMatch_keeps {W : Nat} {q0 : State} (tile addr : Nat) (s : State) (hk : Keeps W q0 s) (hW : Sub
    0x4000001 W) : Runs W q0 (execI3cWakeMatch tile addr s) := by
  unfold execI3cWakeMatch
  with_reducible repeat' (first
    | assumption | exact sub_of (by assumption) (by decide) | apply runs_next | apply wakeMatch_keeps)

theorem execWakeReferenceGood_keeps {W : Nat} {q0 : State} (ticks phase : Nat) (refA refB : Bool) (s : State) (hk :
    Keeps W q0 s)
    (hW : Sub 0xC000005 W := by first | assumption | exact sub_of (by assumption) (by decide)) :
    Runs W q0 (execWakeReferenceGood ticks phase refA refB s) := by
  unfold execWakeReferenceGood
  repeat' (first
    | with_reducible assumption | exact sub_of (by assumption) (by decide) | with_reducible apply runs_next
    | with_reducible refine runs_ite _ _ _ ?_ ?_ | with_reducible apply wakeReference_keeps
    | with_reducible refine foldl_keeps _ _ _ ?_ ?_ | with_reducible refine foldl_fst_keeps _ _ _ ?_ ?_ | intro _ _ _
    | intro _ | with_reducible refine keeps_ite _ _ _ ?_ ?_ | split
    | with_reducible refine keeps_fst ?_ (by assumption) | with_reducible refine keeps_fst2 ?_ (by assumption)
    | simp only [])

theorem execWakeComplete_keeps {W : Nat} {q0 : State} (badImages : List Nat) (wakeUs : Nat) (s : State) (hk : Keeps W
    q0 s) (hW : Sub 0x2C000001 W) : Runs W q0 (execWakeComplete badImages wakeUs s) := by
  unfold execWakeComplete
  with_reducible repeat' (first
    | assumption | exact sub_of (by assumption) (by decide) | apply runs_next | apply wakeComplete_keeps)

theorem execPwrPadsRelease_keeps {W : Nat} {q0 : State} (mask : Nat) (s : State) (hk : Keeps W q0 s) (hW : Sub
    0x8000000 W) : Runs W q0 (execPwrPadsRelease mask s) := by
  unfold execPwrPadsRelease
  with_reducible repeat' (first
    | assumption | exact sub_of (by assumption) (by decide) | apply runs_next | apply padsWrite_keeps)

theorem execPowerStatus_keeps {W : Nat} {q0 : State} (mbx : Nat) (s : State) (hk : Keeps W q0 s) (hW : Sub 0x1001 W)
    : Runs W q0 (execPowerStatus mbx s) := by
  unfold execPowerStatus
  with_reducible repeat' (first
    | assumption | exact sub_of (by assumption) (by decide) | apply runs_next | apply onCmd_keeps
    | apply powerStatus_keeps | intro _ _ _)

theorem execPowerState_keeps {W : Nat} {q0 : State} (mbx : Nat) (s : State) (hk : Keeps W q0 s) (hW : Sub 0x4001001
    W) : Runs W q0 (execPowerState mbx s) := by
  unfold execPowerState
  with_reducible repeat' (first
    | assumption | exact sub_of (by assumption) (by decide) | apply runs_next | apply onCmd_keeps
    | apply powerState_keeps | intro _ _ _)

theorem execPowerDomain_keeps {W : Nat} {q0 : State} (mbx : Nat) (s : State) (hk : Keeps W q0 s) (hW : Sub 0x10001001
    W) : Runs W q0 (execPowerDomain mbx s) := by
  unfold execPowerDomain
  with_reducible repeat' (first
    | assumption | exact sub_of (by assumption) (by decide) | apply runs_next | apply onCmd_keeps
    | apply powerDomain_keeps | intro _ _ _)

theorem execPowerDormant_keeps {W : Nat} {q0 : State} (mbx : Nat) (s : State) (hk : Keeps W q0 s) (hW : Sub 0x4001001
    W) : Runs W q0 (execPowerDormant mbx s) := by
  unfold execPowerDormant
  with_reducible repeat' (first
    | assumption | exact sub_of (by assumption) (by decide) | apply runs_next | apply onCmd_keeps
    | apply powerDormant_keeps | intro _ _ _)

theorem execPowerIdle_keeps {W : Nat} {q0 : State} (mbx : Nat) (s : State) (hk : Keeps W q0 s) (hW : Sub 0x1001 W) :
    Runs W q0 (execPowerIdle mbx s) := by
  unfold execPowerIdle
  with_reducible repeat' (first
    | assumption | exact sub_of (by assumption) (by decide) | apply runs_next | apply onCmd_keeps
    | apply powerIdle_keeps | intro _ _ _)

theorem execPowerTdp_keeps {W : Nat} {q0 : State} (mbx : Nat) (s : State) (hk : Keeps W q0 s) (hW : Sub 0x1001 W) :
    Runs W q0 (execPowerTdp mbx s) := by
  unfold execPowerTdp
  with_reducible repeat' (first
    | assumption | exact sub_of (by assumption) (by decide) | apply runs_next | apply onCmd_keeps
    | apply powerTdp_keeps | intro _ _ _)

theorem execPowerPads_keeps {W : Nat} {q0 : State} (mbx : Nat) (s : State) (hk : Keeps W q0 s) (hW : Sub 0x8001001 W)
    : Runs W q0 (execPowerPads mbx s) := by
  unfold execPowerPads
  with_reducible repeat' (first
    | assumption | exact sub_of (by assumption) (by decide) | apply runs_next | apply onCmd_keeps
    | apply powerPads_keeps | intro _ _ _)

theorem execRegisterWrite_keeps {W : Nat} {q0 : State} (asr : Bool) (off size v : Nat) (s : State) (hk : Keeps W q0
    s)
    (hW : Sub 0x2A0FFF39 W := by first | assumption | exact sub_of (by assumption) (by decide)) :
    Runs W q0 (execRegisterWrite asr off size v s) := by
  unfold execRegisterWrite
  repeat' (first
    | with_reducible assumption | exact sub_of (by assumption) (by decide)
    | with_reducible exact twf_tset _ _ _ _ (by assumption)
    | with_reducible refine keeps_chan (W := W) ?_ _ (by assumption) | with_reducible exact twf_nil _
    | with_reducible refine keeps_ok (W := W) ?_ (by assumption) | with_reducible apply runs_next
    | with_reducible refine runs_ite _ _ _ ?_ ?_ | with_reducible apply csrWrite_keeps
    | with_reducible apply clerkWrite_keeps | with_reducible refine foldl_keeps _ _ _ ?_ ?_
    | with_reducible refine foldl_fst_keeps _ _ _ ?_ ?_ | intro _ _ _ | intro _
    | with_reducible refine keeps_ite _ _ _ ?_ ?_ | split | with_reducible refine keeps_fst ?_ (by assumption)
    | with_reducible refine keeps_fst2 ?_ (by assumption) | simp only [])

theorem execGuardInterrupt_keeps {W : Nat} {q0 : State} (s : State) (hk : Keeps W q0 s) (hW : Sub 0x80001 W) : Runs W
    q0 (execGuardInterrupt s) := by
  unfold execGuardInterrupt
  with_reducible repeat' (first
    | assumption | exact sub_of (by assumption) (by decide) | apply runs_next | apply guardInterrupt_keeps)

theorem execClerkClaim_keeps {W : Nat} {q0 : State} (x v : Nat) (s : State) (hk : Keeps W q0 s) (hW : Sub 0xA82001 W)
    : Runs W q0 (execClerkClaim x v s) := by
  unfold execClerkClaim
  with_reducible repeat' (first
    | assumption | exact sub_of (by assumption) (by decide) | apply runs_next | apply claim_keeps
    | refine runs_ite _ _ _ ?_ ?_ | refine keeps_ite _ _ _ ?_ ?_)

theorem execClerkSramUe_keeps {W : Nat} {q0 : State} (c : Nat) (s : State) (hk : Keeps W q0 s) (hW : Sub 0x80000 W) :
    Runs W q0 (execClerkSramUe c s) := by
  unfold execClerkSramUe
  with_reducible repeat' (first
    | assumption | exact sub_of (by assumption) (by decide) | apply runs_next | apply modClk_keeps
    | refine runs_ite _ _ _ ?_ ?_ | refine keeps_ite _ _ _ ?_ ?_)

theorem execClerkInterruptEntry_keeps {W : Nat} {q0 : State} (c code : Nat) (s : State) (hk : Keeps W q0 s) (hW : Sub
    0x80001 W) : Runs W q0 (execClerkInterruptEntry c code s) := by
  unfold execClerkInterruptEntry
  with_reducible repeat' (first
    | assumption | exact sub_of (by assumption) (by decide) | apply runs_next | apply interruptEntry_keeps)

theorem execMgmtResponse_keeps {W : Nat} {q0 : State} (c region : Nat) (s : State) (hk : Keeps W q0 s) (hW : Sub 0x2A1FFF39 W) : Runs W q0 (execMgmtResponse c region s) := by
  unfold execMgmtResponse
  with_reducible repeat' (first
    | assumption | exact sub_of (by assumption) (by decide) | apply runs_next | apply mgmtResponse_keeps)

theorem execMgmtTimeout_keeps {W : Nat} {q0 : State} (c region : Nat) (s : State) (hk : Keeps W q0 s) (hW : Sub
    0x80001 W) : Runs W q0 (execMgmtTimeout c region s) := by
  unfold execMgmtTimeout
  with_reducible repeat' (first
    | assumption | exact sub_of (by assumption) (by decide) | apply runs_next | apply mgmtTimeout_keeps)

theorem execClerkIpiSend_keeps {W : Nat} {q0 : State} (c mask : Nat) (s : State) (hk : Keeps W q0 s) (hW : Sub
    0x80001 W) : Runs W q0 (execClerkIpiSend c mask s) := by
  unfold execClerkIpiSend
  with_reducible repeat' (first
    | assumption | exact sub_of (by assumption) (by decide) | apply runs_next | apply sendIpi_keeps
    | refine runs_ite _ _ _ ?_ ?_ | refine keeps_ite _ _ _ ?_ ?_)

theorem execSll_keeps {W : Nat} {q0 : State} (c wd wa sh : Nat) (s : State) (hk : Keeps W q0 s) (hW : Sub 0x80001 W)
    : Runs W q0 (execSll c wd wa sh s) := by
  unfold execSll
  with_reducible repeat' (first
    | assumption | exact sub_of (by assumption) (by decide) | apply runs_next | apply shiftOp_keeps)

theorem execSrl_keeps {W : Nat} {q0 : State} (c wd wa sh : Nat) (s : State) (hk : Keeps W q0 s) (hW : Sub 0x80001 W)
    : Runs W q0 (execSrl c wd wa sh s) := by
  unfold execSrl
  with_reducible repeat' (first
    | assumption | exact sub_of (by assumption) (by decide) | apply runs_next | apply shiftOp_keeps)

theorem execSra_keeps {W : Nat} {q0 : State} (c wd wa sh : Nat) (s : State) (hk : Keeps W q0 s) (hW : Sub 0x80001 W)
    : Runs W q0 (execSra c wd wa sh s) := by
  unfold execSra
  with_reducible repeat' (first
    | assumption | exact sub_of (by assumption) (by decide) | apply runs_next | apply shiftOp_keeps)

theorem execSllv_keeps {W : Nat} {q0 : State} (c wd wa wb : Nat) (s : State) (hk : Keeps W q0 s) (hW : Sub 0x80001 W)
    : Runs W q0 (execSllv c wd wa wb s) := by
  unfold execSllv
  with_reducible repeat' (first
    | assumption | exact sub_of (by assumption) (by decide) | apply runs_next | apply aluOp_keeps)

theorem execSrlv_keeps {W : Nat} {q0 : State} (c wd wa wb : Nat) (s : State) (hk : Keeps W q0 s) (hW : Sub 0x80001 W)
    : Runs W q0 (execSrlv c wd wa wb s) := by
  unfold execSrlv
  with_reducible repeat' (first
    | assumption | exact sub_of (by assumption) (by decide) | apply runs_next | apply aluOp_keeps)

theorem execSrav_keeps {W : Nat} {q0 : State} (c wd wa wb : Nat) (s : State) (hk : Keeps W q0 s) (hW : Sub 0x80001 W)
    : Runs W q0 (execSrav c wd wa wb s) := by
  unfold execSrav
  with_reducible repeat' (first
    | assumption | exact sub_of (by assumption) (by decide) | apply runs_next | apply aluOp_keeps)

theorem execAdd_keeps {W : Nat} {q0 : State} (c wd wa wb : Nat) (s : State) (hk : Keeps W q0 s) (hW : Sub 0x80001 W)
    : Runs W q0 (execAdd c wd wa wb s) := by
  unfold execAdd
  with_reducible repeat' (first
    | assumption | exact sub_of (by assumption) (by decide) | apply runs_next | apply aluOp_keeps)

theorem execSub_keeps {W : Nat} {q0 : State} (c wd wa wb : Nat) (s : State) (hk : Keeps W q0 s) (hW : Sub 0x80001 W)
    : Runs W q0 (execSub c wd wa wb s) := by
  unfold execSub
  with_reducible repeat' (first
    | assumption | exact sub_of (by assumption) (by decide) | apply runs_next | apply aluOp_keeps)

theorem execAnd_keeps {W : Nat} {q0 : State} (c wd wa wb : Nat) (s : State) (hk : Keeps W q0 s) (hW : Sub 0x80001 W)
    : Runs W q0 (execAnd c wd wa wb s) := by
  unfold execAnd
  with_reducible repeat' (first
    | assumption | exact sub_of (by assumption) (by decide) | apply runs_next | apply aluOp_keeps)

theorem execOr_keeps {W : Nat} {q0 : State} (c wd wa wb : Nat) (s : State) (hk : Keeps W q0 s) (hW : Sub 0x80001 W) :
    Runs W q0 (execOr c wd wa wb s) := by
  unfold execOr
  with_reducible repeat' (first
    | assumption | exact sub_of (by assumption) (by decide) | apply runs_next | apply aluOp_keeps)

theorem execXor_keeps {W : Nat} {q0 : State} (c wd wa wb : Nat) (s : State) (hk : Keeps W q0 s) (hW : Sub 0x80001 W)
    : Runs W q0 (execXor c wd wa wb s) := by
  unfold execXor
  with_reducible repeat' (first
    | assumption | exact sub_of (by assumption) (by decide) | apply runs_next | apply aluOp_keeps)

theorem execNor_keeps {W : Nat} {q0 : State} (c wd wa wb : Nat) (s : State) (hk : Keeps W q0 s) (hW : Sub 0x80001 W)
    : Runs W q0 (execNor c wd wa wb s) := by
  unfold execNor
  with_reducible repeat' (first
    | assumption | exact sub_of (by assumption) (by decide) | apply runs_next | apply aluOp_keeps)

theorem execSlt_keeps {W : Nat} {q0 : State} (c wd wa wb : Nat) (s : State) (hk : Keeps W q0 s) (hW : Sub 0x80001 W)
    : Runs W q0 (execSlt c wd wa wb s) := by
  unfold execSlt
  with_reducible repeat' (first
    | assumption | exact sub_of (by assumption) (by decide) | apply runs_next | apply aluOp_keeps)

theorem execSltu_keeps {W : Nat} {q0 : State} (c wd wa wb : Nat) (s : State) (hk : Keeps W q0 s) (hW : Sub 0x80001 W)
    : Runs W q0 (execSltu c wd wa wb s) := by
  unfold execSltu
  with_reducible repeat' (first
    | assumption | exact sub_of (by assumption) (by decide) | apply runs_next | apply aluOp_keeps)

theorem execMul_keeps {W : Nat} {q0 : State} (c wd wa wb : Nat) (s : State) (hk : Keeps W q0 s) (hW : Sub 0x80001 W)
    : Runs W q0 (execMul c wd wa wb s) := by
  unfold execMul
  with_reducible repeat' (first
    | assumption | exact sub_of (by assumption) (by decide) | apply runs_next | apply aluOp_keeps)

theorem execMulh_keeps {W : Nat} {q0 : State} (c wd wa wb : Nat) (s : State) (hk : Keeps W q0 s) (hW : Sub 0x80001 W)
    : Runs W q0 (execMulh c wd wa wb s) := by
  unfold execMulh
  with_reducible repeat' (first
    | assumption | exact sub_of (by assumption) (by decide) | apply runs_next | apply aluOp_keeps)

theorem execMulhu_keeps {W : Nat} {q0 : State} (c wd wa wb : Nat) (s : State) (hk : Keeps W q0 s) (hW : Sub 0x80001
    W) : Runs W q0 (execMulhu c wd wa wb s) := by
  unfold execMulhu
  with_reducible repeat' (first
    | assumption | exact sub_of (by assumption) (by decide) | apply runs_next | apply aluOp_keeps)

theorem execClz_keeps {W : Nat} {q0 : State} (c wd wa : Nat) (s : State) (hk : Keeps W q0 s) (hW : Sub 0x80001 W) :
    Runs W q0 (execClz c wd wa s) := by
  unfold execClz
  with_reducible repeat' (first
    | assumption | exact sub_of (by assumption) (by decide) | apply runs_next | apply clkIssue_keeps
    | apply complete_keeps | intro _ _ _ | intro _)

theorem execAddi_keeps {W : Nat} {q0 : State} (c wd wa imm : Nat) (s : State) (hk : Keeps W q0 s) (hW : Sub 0x80001
    W) : Runs W q0 (execAddi c wd wa imm s) := by
  unfold execAddi
  with_reducible repeat' (first
    | assumption | exact sub_of (by assumption) (by decide) | apply runs_next | apply immOp_keeps)

theorem execAndi_keeps {W : Nat} {q0 : State} (c wd wa imm : Nat) (s : State) (hk : Keeps W q0 s) (hW : Sub 0x80001
    W) : Runs W q0 (execAndi c wd wa imm s) := by
  unfold execAndi
  with_reducible repeat' (first
    | assumption | exact sub_of (by assumption) (by decide) | apply runs_next | apply immOp_keeps)

theorem execOri_keeps {W : Nat} {q0 : State} (c wd wa imm : Nat) (s : State) (hk : Keeps W q0 s) (hW : Sub 0x80001 W)
    : Runs W q0 (execOri c wd wa imm s) := by
  unfold execOri
  with_reducible repeat' (first
    | assumption | exact sub_of (by assumption) (by decide) | apply runs_next | apply immOp_keeps)

theorem execXori_keeps {W : Nat} {q0 : State} (c wd wa imm : Nat) (s : State) (hk : Keeps W q0 s) (hW : Sub 0x80001
    W) : Runs W q0 (execXori c wd wa imm s) := by
  unfold execXori
  with_reducible repeat' (first
    | assumption | exact sub_of (by assumption) (by decide) | apply runs_next | apply immOp_keeps)

theorem execSlti_keeps {W : Nat} {q0 : State} (c wd wa imm : Nat) (s : State) (hk : Keeps W q0 s) (hW : Sub 0x80001
    W) : Runs W q0 (execSlti c wd wa imm s) := by
  unfold execSlti
  with_reducible repeat' (first
    | assumption | exact sub_of (by assumption) (by decide) | apply runs_next | apply immOp_keeps)

theorem execSltiu_keeps {W : Nat} {q0 : State} (c wd wa imm : Nat) (s : State) (hk : Keeps W q0 s) (hW : Sub 0x80001
    W) : Runs W q0 (execSltiu c wd wa imm s) := by
  unfold execSltiu
  with_reducible repeat' (first
    | assumption | exact sub_of (by assumption) (by decide) | apply runs_next | apply immOp_keeps)

theorem execLui_keeps {W : Nat} {q0 : State} (c wd imm : Nat) (s : State) (hk : Keeps W q0 s) (hW : Sub 0x80001 W) :
    Runs W q0 (execLui c wd imm s) := by
  unfold execLui
  with_reducible repeat' (first
    | assumption | exact sub_of (by assumption) (by decide) | apply runs_next | apply clkIssue_keeps
    | apply complete_keeps | intro _ _ _ | intro _)

theorem execLw_keeps {W : Nat} {q0 : State} (c wd wa imm : Nat) (s : State) (hk : Keeps W q0 s) (hW : Sub 0x80001 W)
    : Runs W q0 (execLw c wd wa imm s) := by
  unfold execLw
  with_reducible repeat' (first
    | assumption | exact sub_of (by assumption) (by decide) | apply runs_next | apply loadOp_keeps)

theorem execLh_keeps {W : Nat} {q0 : State} (c wd wa imm : Nat) (s : State) (hk : Keeps W q0 s) (hW : Sub 0x80001 W)
    : Runs W q0 (execLh c wd wa imm s) := by
  unfold execLh
  with_reducible repeat' (first
    | assumption | exact sub_of (by assumption) (by decide) | apply runs_next | apply loadOp_keeps)

theorem execLhu_keeps {W : Nat} {q0 : State} (c wd wa imm : Nat) (s : State) (hk : Keeps W q0 s) (hW : Sub 0x80001 W)
    : Runs W q0 (execLhu c wd wa imm s) := by
  unfold execLhu
  with_reducible repeat' (first
    | assumption | exact sub_of (by assumption) (by decide) | apply runs_next | apply loadOp_keeps)

theorem execLb_keeps {W : Nat} {q0 : State} (c wd wa imm : Nat) (s : State) (hk : Keeps W q0 s) (hW : Sub 0x80001 W)
    : Runs W q0 (execLb c wd wa imm s) := by
  unfold execLb
  with_reducible repeat' (first
    | assumption | exact sub_of (by assumption) (by decide) | apply runs_next | apply loadOp_keeps)

theorem execLbu_keeps {W : Nat} {q0 : State} (c wd wa imm : Nat) (s : State) (hk : Keeps W q0 s) (hW : Sub 0x80001 W)
    : Runs W q0 (execLbu c wd wa imm s) := by
  unfold execLbu
  with_reducible repeat' (first
    | assumption | exact sub_of (by assumption) (by decide) | apply runs_next | apply loadOp_keeps)

theorem execSw_keeps {W : Nat} {q0 : State} (c wd wa imm : Nat) (s : State) (hk : Keeps W q0 s) (hW : Sub 0xE82001 W)
    : Runs W q0 (execSw c wd wa imm s) := by
  unfold execSw
  with_reducible repeat' (first
    | assumption | exact sub_of (by assumption) (by decide) | apply runs_next | apply storeOp_keeps)

theorem execSh_keeps {W : Nat} {q0 : State} (c wd wa imm : Nat) (s : State) (hk : Keeps W q0 s) (hW : Sub 0xE82001 W)
    : Runs W q0 (execSh c wd wa imm s) := by
  unfold execSh
  with_reducible repeat' (first
    | assumption | exact sub_of (by assumption) (by decide) | apply runs_next | apply storeOp_keeps)

theorem execSb_keeps {W : Nat} {q0 : State} (c wd wa imm : Nat) (s : State) (hk : Keeps W q0 s) (hW : Sub 0xE82001 W)
    : Runs W q0 (execSb c wd wa imm s) := by
  unfold execSb
  with_reducible repeat' (first
    | assumption | exact sub_of (by assumption) (by decide) | apply runs_next | apply storeOp_keeps)

theorem execBeq_keeps {W : Nat} {q0 : State} (c wa wb an hi off : Nat) (s : State) (hk : Keeps W q0 s) (hW : Sub
    0x80001 W) : Runs W q0 (execBeq c wa wb an hi off s) := by
  unfold execBeq
  with_reducible repeat' (first
    | assumption | exact sub_of (by assumption) (by decide) | apply runs_next | apply condBranch_keeps)

theorem execBne_keeps {W : Nat} {q0 : State} (c wa wb an hi off : Nat) (s : State) (hk : Keeps W q0 s) (hW : Sub
    0x80001 W) : Runs W q0 (execBne c wa wb an hi off s) := by
  unfold execBne
  with_reducible repeat' (first
    | assumption | exact sub_of (by assumption) (by decide) | apply runs_next | apply condBranch_keeps)

theorem execBlt_keeps {W : Nat} {q0 : State} (c wa wb an hi off : Nat) (s : State) (hk : Keeps W q0 s) (hW : Sub
    0x80001 W) : Runs W q0 (execBlt c wa wb an hi off s) := by
  unfold execBlt
  with_reducible repeat' (first
    | assumption | exact sub_of (by assumption) (by decide) | apply runs_next | apply condBranch_keeps)

theorem execBge_keeps {W : Nat} {q0 : State} (c wa wb an hi off : Nat) (s : State) (hk : Keeps W q0 s) (hW : Sub
    0x80001 W) : Runs W q0 (execBge c wa wb an hi off s) := by
  unfold execBge
  with_reducible repeat' (first
    | assumption | exact sub_of (by assumption) (by decide) | apply runs_next | apply condBranch_keeps)

theorem execBltu_keeps {W : Nat} {q0 : State} (c wa wb an hi off : Nat) (s : State) (hk : Keeps W q0 s) (hW : Sub
    0x80001 W) : Runs W q0 (execBltu c wa wb an hi off s) := by
  unfold execBltu
  with_reducible repeat' (first
    | assumption | exact sub_of (by assumption) (by decide) | apply runs_next | apply condBranch_keeps)

theorem execBgeu_keeps {W : Nat} {q0 : State} (c wa wb an hi off : Nat) (s : State) (hk : Keeps W q0 s) (hW : Sub
    0x80001 W) : Runs W q0 (execBgeu c wa wb an hi off s) := by
  unfold execBgeu
  with_reducible repeat' (first
    | assumption | exact sub_of (by assumption) (by decide) | apply runs_next | apply condBranch_keeps)

theorem execJ_keeps {W : Nat} {q0 : State} (c off : Nat) (s : State) (hk : Keeps W q0 s) (hW : Sub 0x80001 W) : Runs
    W q0 (execJ c off s) := by
  unfold execJ
  with_reducible repeat' (first
    | assumption | exact sub_of (by assumption) (by decide) | apply runs_next | apply jumpOp_keeps)

theorem execJal_keeps {W : Nat} {q0 : State} (c off : Nat) (s : State) (hk : Keeps W q0 s) (hW : Sub 0x80001 W) :
    Runs W q0 (execJal c off s) := by
  unfold execJal
  with_reducible repeat' (first
    | assumption | exact sub_of (by assumption) (by decide) | apply runs_next | apply jumpOp_keeps)

theorem execJalr_keeps {W : Nat} {q0 : State} (c wd wa imm : Nat) (s : State) (hk : Keeps W q0 s) (hW : Sub 0x480001
    W) : Runs W q0 (execJalr c wd wa imm s) := by
  unfold execJalr
  with_reducible repeat' (first
    | assumption | exact sub_of (by assumption) (by decide) | apply runs_next | apply jumpReg_keeps)

theorem execJalg_keeps {W : Nat} {q0 : State} (c wd wa imm : Nat) (s : State) (hk : Keeps W q0 s) (hW : Sub 0x480001
    W) : Runs W q0 (execJalg c wd wa imm s) := by
  unfold execJalg
  with_reducible repeat' (first
    | assumption | exact sub_of (by assumption) (by decide) | apply runs_next | apply jumpReg_keeps)

theorem execMld_keeps {W : Nat} {q0 : State} (c wd wa imm : Nat) (s : State) (hk : Keeps W q0 s) (hW : Sub 0x80001 W)
    : Runs W q0 (execMld c wd wa imm s) := by
  unfold execMld
  with_reducible repeat' (first
    | assumption | exact sub_of (by assumption) (by decide) | apply runs_next | apply mgmtOp_keeps)

theorem execMst_keeps {W : Nat} {q0 : State} (c wd wa imm : Nat) (s : State) (hk : Keeps W q0 s) (hW : Sub 0x80001 W)
    : Runs W q0 (execMst c wd wa imm s) := by
  unfold execMst
  with_reducible repeat' (first
    | assumption | exact sub_of (by assumption) (by decide) | apply runs_next | apply mgmtOp_keeps)

theorem execMldd_keeps {W : Nat} {q0 : State} (c wd wa imm : Nat) (s : State) (hk : Keeps W q0 s) (hW : Sub 0x80001
    W) : Runs W q0 (execMldd c wd wa imm s) := by
  unfold execMldd
  with_reducible repeat' (first
    | assumption | exact sub_of (by assumption) (by decide) | apply runs_next | apply mgmtOp_keeps)

theorem execMstd_keeps {W : Nat} {q0 : State} (c wd wa imm : Nat) (s : State) (hk : Keeps W q0 s) (hW : Sub 0x80001
    W) : Runs W q0 (execMstd c wd wa imm s) := by
  unfold execMstd
  with_reducible repeat' (first
    | assumption | exact sub_of (by assumption) (by decide) | apply runs_next | apply mgmtOp_keeps)

theorem execWait_keeps {W : Nat} {q0 : State} (c : Nat) (s : State) (hk : Keeps W q0 s) (hW : Sub 0x80001 W) : Runs W
    q0 (execWait c s) := by
  unfold execWait
  with_reducible repeat' (first
    | assumption | exact sub_of (by assumption) (by decide) | apply runs_next | apply waitOp_keeps)

theorem execEret_keeps {W : Nat} {q0 : State} (c : Nat) (s : State) (hk : Keeps W q0 s) (hW : Sub 0x80001 W) : Runs W
    q0 (execEret c s) := by
  unfold execEret
  with_reducible repeat' (first
    | assumption | exact sub_of (by assumption) (by decide) | apply runs_next | apply eretOp_keeps)

theorem execMsync_keeps {W : Nat} {q0 : State} (c : Nat) (s : State) (hk : Keeps W q0 s) (hW : Sub 0x80001 W) : Runs
    W q0 (execMsync c s) := by
  unfold execMsync
  with_reducible repeat' (first
    | assumption | exact sub_of (by assumption) (by decide) | apply runs_next | apply msyncOp_keeps)

theorem execCheckin_keeps {W : Nat} {q0 : State} (c : Nat) (s : State) (hk : Keeps W q0 s) (hW : Sub 0x480001 W) :
    Runs W q0 (execCheckin c s) := by
  unfold execCheckin
  with_reducible repeat' (first
    | assumption | exact sub_of (by assumption) (by decide) | apply runs_next | apply sysOp_keeps
    | apply checkIn_keeps | intro _ _ _ | intro _)

theorem execTrap_keeps {W : Nat} {q0 : State} (c sh : Nat) (s : State) (hk : Keeps W q0 s) (hW : Sub 0x80001 W) :
    Runs W q0 (execTrap c sh s) := by
  unfold execTrap
  with_reducible repeat' (first
    | assumption | exact sub_of (by assumption) (by decide) | apply runs_next | apply trapOp_keeps)

theorem execGate_keeps {W : Nat} {q0 : State} (c : Nat) (s : State) (hk : Keeps W q0 s) (hW : Sub 0x80001 W) : Runs W
    q0 (execGate c s) := by
  unfold execGate
  with_reducible repeat' (first
    | assumption | exact sub_of (by assumption) (by decide) | apply runs_next | apply sysOp_keeps | intro _ _ _
    | intro _ | dsimp only [id])

theorem execDi_keeps {W : Nat} {q0 : State} (c : Nat) (s : State) (hk : Keeps W q0 s) (hW : Sub 0x80001 W) : Runs W
    q0 (execDi c s) := by
  unfold execDi
  with_reducible repeat' (first
    | assumption | exact sub_of (by assumption) (by decide) | apply runs_next | apply sysOp_keeps | apply wr_keeps
    | intro _ _ _ | intro _)

theorem execEi_keeps {W : Nat} {q0 : State} (c : Nat) (s : State) (hk : Keeps W q0 s) (hW : Sub 0x80001 W) : Runs W
    q0 (execEi c s) := by
  unfold execEi
  with_reducible repeat' (first
    | assumption | exact sub_of (by assumption) (by decide) | apply runs_next | apply sysOp_keeps | apply wr_keeps
    | intro _ _ _ | intro _)

theorem execBridgeLost_keeps {W : Nat} {q0 : State} (s : State) (hk : Keeps W q0 s) (hW : Sub 0x8A82001 W) : Runs W
    q0 (execBridgeLost s) := by
  unfold execBridgeLost
  with_reducible repeat' (first
    | assumption | exact sub_of (by assumption) (by decide) | apply runs_next | apply bridgeLost_keeps)

theorem execPeerPowerLost_keeps {W : Nat} {q0 : State} (s : State) (hk : Keeps W q0 s) (hW : Sub 0x8A00000 W) : Runs
    W q0 (execPeerPowerLost s) := by
  unfold execPeerPowerLost
  with_reducible repeat' (first
    | assumption | exact sub_of (by assumption) (by decide) | apply runs_next | apply peerPowerLost_keeps)

theorem execAssayerHang_keeps {W : Nat} {q0 : State} (s : State) (hk : Keeps W q0 s) (hW : Sub 0xC82001 W) : Runs W
    q0 (execAssayerHang s) := by
  unfold execAssayerHang
  with_reducible repeat' (first
    | assumption | exact sub_of (by assumption) (by decide) | apply runs_next | apply assayerHang_keeps)

theorem execHoldLimit_keeps {W : Nat} {q0 : State} (s : State) (hk : Keeps W q0 s) (hW : Sub 0x482001 W) : Runs W q0
    (execHoldLimit s) := by
  unfold execHoldLimit
  with_reducible repeat' (first
    | assumption | exact sub_of (by assumption) (by decide) | apply runs_next | apply holdLimit_keeps)

theorem execStandbyReady_keeps {W : Nat} {q0 : State} (s : State) (hk : Keeps W q0 s) (hW : Sub 0xC00000 W) : Runs W
    q0 (execStandbyReady s) := by
  unfold execStandbyReady
  with_reducible repeat' (first
    | assumption | exact sub_of (by assumption) (by decide) | apply runs_next | apply standbyReady_keeps)

theorem execStandbyTimeout_keeps {W : Nat} {q0 : State} (s : State) (hk : Keeps W q0 s) (hW : Sub 0xC82001 W) : Runs
    W q0 (execStandbyTimeout s) := by
  unfold execStandbyTimeout
  with_reducible repeat' (first
    | assumption | exact sub_of (by assumption) (by decide) | apply runs_next | apply standbyTimeout_keeps)

theorem execDebugTokenAccept_keeps {W : Nat} {q0 : State} (s : State) (hk : Keeps W q0 s) (hW : Sub 0xC00000 W) :
    Runs W q0 (execDebugTokenAccept s) := by
  unfold execDebugTokenAccept
  with_reducible repeat' (first
    | assumption | exact sub_of (by assumption) (by decide) | apply runs_next | apply tokenAccept_keeps)

theorem execZeroizeDone_keeps {W : Nat} {q0 : State} (s : State) (hk : Keeps W q0 s) (hW : Sub 0x400000 W) : Runs W
    q0 (execZeroizeDone s) := by
  unfold execZeroizeDone
  with_reducible repeat' (first
    | assumption | exact sub_of (by assumption) (by decide) | apply runs_next | apply zeroizeDone_keeps)

theorem execIdcode_keeps {W : Nat} {q0 : State} (s : State) (hk : Keeps W q0 s) (hW : Sub 0x2 W) : Runs W q0
    (execIdcode s) := by
  unfold execIdcode
  with_reducible repeat' (first
    | assumption | exact sub_of (by assumption) (by decide) | apply runs_next | apply tapLoad_keeps)

theorem execSamplePreload_keeps {W : Nat} {q0 : State} (s : State) (hk : Keeps W q0 s) (hW : Sub 0x2 W) : Runs W q0
    (execSamplePreload s) := by
  unfold execSamplePreload
  with_reducible repeat' (first
    | assumption | exact sub_of (by assumption) (by decide) | apply runs_next | apply tapLoad_keeps)

theorem execExtest_keeps {W : Nat} {q0 : State} (s : State) (hk : Keeps W q0 s) (hW : Sub 0x800002 W) : Runs W q0
    (execExtest s) := by
  unfold execExtest
  with_reducible repeat' (first
    | assumption | exact sub_of (by assumption) (by decide) | apply runs_next | apply tapPins_keeps)

theorem execClamp_keeps {W : Nat} {q0 : State} (s : State) (hk : Keeps W q0 s) (hW : Sub 0x800002 W) : Runs W q0
    (execClamp s) := by
  unfold execClamp
  with_reducible repeat' (first
    | assumption | exact sub_of (by assumption) (by decide) | apply runs_next | apply tapPins_keeps)

theorem execHighz_keeps {W : Nat} {q0 : State} (s : State) (hk : Keeps W q0 s) (hW : Sub 0x800002 W) : Runs W q0
    (execHighz s) := by
  unfold execHighz
  with_reducible repeat' (first
    | assumption | exact sub_of (by assumption) (by decide) | apply runs_next | apply tapPins_keeps)

theorem execDzToken_keeps {W : Nat} {q0 : State} (t : Token) (s : State) (hk : Keeps W q0 s) (hW : Sub 0x400002 W) :
    Runs W q0 (execDzToken t s) := by
  unfold execDzToken
  with_reducible repeat' (first
    | assumption | exact sub_of (by assumption) (by decide) | apply runs_next | apply modAssayer_keeps
    | apply tapLoad_keeps)

theorem execDzMbx_keeps {W : Nat} {q0 : State} (off size v : Nat) (s : State) (hk : Keeps W q0 s) (hW : Sub 0x81003
    W) : Runs W q0 (execDzMbx off size v s) := by
  unfold execDzMbx
  with_reducible repeat' (first
    | assumption | exact sub_of (by assumption) (by decide) | apply runs_next | apply tapLoad_keeps
    | apply pageWrite_keeps | refine runs_ite _ _ _ ?_ ?_ | refine keeps_ite _ _ _ ?_ ?_)

theorem execDzDebug_keeps {W : Nat} {q0 : State} (s : State) (hk : Keeps W q0 s) (hW : Sub 0x2 W) : Runs W q0
    (execDzDebug s) := by
  unfold execDzDebug
  with_reducible repeat' (first
    | assumption | exact sub_of (by assumption) (by decide) | apply runs_next | apply tapLoad_keeps)

theorem execDzAssayer_keeps {W : Nat} {q0 : State} (s : State) (hk : Keeps W q0 s) (hW : Sub 0x2 W) : Runs W q0
    (execDzAssayer s) := by
  unfold execDzAssayer
  with_reducible repeat' (first
    | assumption | exact sub_of (by assumption) (by decide) | apply runs_next | apply tapLoad_keeps)

theorem execBypass_keeps {W : Nat} {q0 : State} (s : State) (hk : Keeps W q0 s) (hW : Sub 0x2 W) : Runs W q0
    (execBypass s) := by
  unfold execBypass
  with_reducible repeat' (first
    | assumption | exact sub_of (by assumption) (by decide) | apply runs_next | apply tapLoad_keeps)

theorem execInventoryList_keeps {W : Nat} {q0 : State} (mbx : Nat) (s : State) (hk : Keeps W q0 s) (hW : Sub 0x1001
    W) : Runs W q0 (execInventoryList mbx s) := by
  unfold execInventoryList
  with_reducible repeat' (first
    | assumption | exact sub_of (by assumption) (by decide) | apply runs_next | apply onCmd_keeps
    | apply inventoryList_keeps | intro _ _ _)

theorem execTimeGet_keeps {W : Nat} {q0 : State} (mbx : Nat) (s : State) (hk : Keeps W q0 s) (hW : Sub 0x1001 W) :
    Runs W q0 (execTimeGet mbx s) := by
  unfold execTimeGet
  with_reducible repeat' (first
    | assumption | exact sub_of (by assumption) (by decide) | apply runs_next | apply onCmd_keeps
    | apply timeGet_keeps | intro _ _ _)

theorem execTimeSet_keeps {W : Nat} {q0 : State} (mbx : Nat) (s : State) (hk : Keeps W q0 s) (hW : Sub 0x10001005 W)
    : Runs W q0 (execTimeSet mbx s) := by
  unfold execTimeSet
  with_reducible repeat' (first
    | assumption | exact sub_of (by assumption) (by decide) | apply runs_next | apply onCmd_keeps
    | apply timeSet_keeps | intro _ _ _)

theorem execRasRead_keeps {W : Nat} {q0 : State} (mbx : Nat) (s : State) (hk : Keeps W q0 s) (hW : Sub 0x3001 W) :
    Runs W q0 (execRasRead mbx s) := by
  unfold execRasRead
  with_reducible repeat' (first
    | assumption | exact sub_of (by assumption) (by decide) | apply runs_next | apply onCmd_keeps
    | apply rasRead_keeps | intro _ _ _)

theorem execDaybookStatus_keeps {W : Nat} {q0 : State} (mbx : Nat) (s : State) (hk : Keeps W q0 s) (hW : Sub 0x1001
    W) : Runs W q0 (execDaybookStatus mbx s) := by
  unfold execDaybookStatus
  with_reducible repeat' (first
    | assumption | exact sub_of (by assumption) (by decide) | apply runs_next | apply onCmd_keeps
    | apply daybookStatus_keeps | intro _ _ _)

theorem execDaybookRead_keeps {W : Nat} {q0 : State} (mbx : Nat) (s : State) (hk : Keeps W q0 s) (hW : Sub 0x1001 W)
    : Runs W q0 (execDaybookRead mbx s) := by
  unfold execDaybookRead
  with_reducible repeat' (first
    | assumption | exact sub_of (by assumption) (by decide) | apply runs_next | apply onCmd_keeps
    | apply daybookRead_keeps | intro _ _ _)

theorem execDaybookAttest_keeps {W : Nat} {q0 : State} (mbx : Nat) (s : State) (hk : Keeps W q0 s) (hW : Sub
    0x10001001 W) : Runs W q0 (execDaybookAttest mbx s) := by
  unfold execDaybookAttest
  with_reducible repeat' (first
    | assumption | exact sub_of (by assumption) (by decide) | apply runs_next | apply onCmd_keeps
    | apply daybookAttest_keeps | intro _ _ _)

theorem execGetVersion_keeps {W : Nat} {q0 : State} (conn : Nat) (s : State) (hk : Keeps W q0 s) (hW : Sub 0x400000
    W) : Runs W q0 (execGetVersion conn s) := by
  unfold execGetVersion
  with_reducible repeat' (first
    | assumption | exact sub_of (by assumption) (by decide) | apply runs_next | apply spdm_keeps)

theorem execGetCapabilities_keeps {W : Nat} {q0 : State} (conn : Nat) (s : State) (hk : Keeps W q0 s) (hW : Sub
    0x400000 W) : Runs W q0 (execGetCapabilities conn s) := by
  unfold execGetCapabilities
  with_reducible repeat' (first
    | assumption | exact sub_of (by assumption) (by decide) | apply runs_next | apply spdm_keeps)

theorem execNegotiateAlgorithms_keeps {W : Nat} {q0 : State} (conn : Nat) (offered : Bool) (s : State) (hk : Keeps W
    q0 s) (hW : Sub 0x400000 W) : Runs W q0 (execNegotiateAlgorithms conn offered s) := by
  unfold execNegotiateAlgorithms
  with_reducible repeat' (first
    | assumption | exact sub_of (by assumption) (by decide) | apply runs_next | apply spdm_keeps)

theorem execGetDigests_keeps {W : Nat} {q0 : State} (conn : Nat) (s : State) (hk : Keeps W q0 s) (hW : Sub 0x400000
    W) : Runs W q0 (execGetDigests conn s) := by
  unfold execGetDigests
  with_reducible repeat' (first
    | assumption | exact sub_of (by assumption) (by decide) | apply runs_next | apply spdm_keeps)

theorem execGetCertificate_keeps {W : Nat} {q0 : State} (conn slot off len : Nat) (s : State) (hk : Keeps W q0 s) (hW
    : Sub 0x400000 W) : Runs W q0 (execGetCertificate conn slot off len s) := by
  unfold execGetCertificate
  with_reducible repeat' (first
    | assumption | exact sub_of (by assumption) (by decide) | apply runs_next | apply spdm_keeps)

theorem execChallenge_keeps {W : Nat} {q0 : State} (conn slot nonce : Nat) (s : State) (hk : Keeps W q0 s) (hW : Sub
    0x400000 W) : Runs W q0 (execChallenge conn slot nonce s) := by
  unfold execChallenge
  with_reducible repeat' (first
    | assumption | exact sub_of (by assumption) (by decide) | apply runs_next | apply spdm_keeps)

theorem execGetMeasurements_keeps {W : Nat} {q0 : State} (conn index nonce : Nat) (s : State) (hk : Keeps W q0 s) (hW
    : Sub 0x400000 W) : Runs W q0 (execGetMeasurements conn index nonce s) := by
  unfold execGetMeasurements
  with_reducible repeat' (first
    | assumption | exact sub_of (by assumption) (by decide) | apply runs_next | apply spdm_keeps)

theorem execKeyExchange_keeps {W : Nat} {q0 : State} (conn slot secret : Nat) (s : State) (hk : Keeps W q0 s) (hW :
    Sub 0x20400000 W) : Runs W q0 (execKeyExchange conn slot secret s) := by
  unfold execKeyExchange
  with_reducible repeat' (first
    | assumption | exact sub_of (by assumption) (by decide) | apply runs_next | apply spdm_keeps
    | apply freeNext_keeps)

theorem execFinish_keeps {W : Nat} {q0 : State} (conn session : Nat) (ok : Bool) (s : State) (hk : Keeps W q0 s) (hW
    : Sub 0x400000 W) : Runs W q0 (execFinish conn session ok s) := by
  unfold execFinish
  with_reducible repeat' (first
    | assumption | exact sub_of (by assumption) (by decide) | apply runs_next | apply spdm_keeps)

theorem execEndSession_keeps {W : Nat} {q0 : State} (conn session : Nat) (s : State) (hk : Keeps W q0 s) (hW : Sub
    0x400000 W) : Runs W q0 (execEndSession conn session s) := by
  unfold execEndSession
  with_reducible repeat' (first
    | assumption | exact sub_of (by assumption) (by decide) | apply runs_next | apply spdm_keeps)

theorem execVendorDefinedRequest_keeps {W : Nat} {q0 : State} (conn vendor counter off len : Nat) (s : State) (hk :
    Keeps W q0 s) (hW : Sub 0x400000 W) : Runs W q0 (execVendorDefinedRequest conn vendor counter off len s) := by
  unfold execVendorDefinedRequest
  with_reducible repeat' (first
    | assumption | exact sub_of (by assumption) (by decide) | apply runs_next | apply spdm_keeps)

theorem execStartupStepComplete_keeps {W : Nat} {q0 : State} (ms : Nat) (r : StartRep) (s : State) (hk : Keeps W q0
    s) (hW : Sub 0x28FBFFFB W) : Runs W q0 (execStartupStepComplete ms r s) := by
  unfold execStartupStepComplete
  with_reducible repeat' (first
    | assumption | exact sub_of (by assumption) (by decide) | apply runs_next | apply stepComplete_keeps)

theorem execStartupStepTimeout_keeps {W : Nat} {q0 : State} (ms : Nat) (s : State) (hk : Keeps W q0 s) (hW : Sub 0x88B2C07 W) : Runs W q0 (execStartupStepTimeout ms s) := by
  unfold execStartupStepTimeout
  with_reducible repeat' (first
    | assumption | exact sub_of (by assumption) (by decide) | apply runs_next | apply stepTimeout_keeps)

theorem execLinkWaitExpiry_keeps {W : Nat} {q0 : State} (s : State) (hk : Keeps W q0 s) (hW : Sub 0x810005 W) : Runs
    W q0 (execLinkWaitExpiry s) := by
  unfold execLinkWaitExpiry
  with_reducible repeat' (first
    | assumption | exact sub_of (by assumption) (by decide) | apply runs_next | apply linkWaitExpiry_keeps)

theorem execFlashReadTimeout_keeps {W : Nat} {q0 : State} (flash ms : Nat) (s : State) (hk : Keeps W q0 s) (hW : Sub
    0x800000 W) : Runs W q0 (execFlashReadTimeout flash ms s) := by
  unfold execFlashReadTimeout
  with_reducible repeat' (first
    | assumption | exact sub_of (by assumption) (by decide) | apply runs_next | apply modBoot_keeps
    | refine runs_ite _ _ _ ?_ ?_ | refine keeps_ite _ _ _ ?_ ?_)

theorem execVinGood_keeps {W : Nat} {q0 : State} (mv : Nat) (resetLow : Bool) (s : State) (hk : Keeps W q0 s) (hW :
    Sub 0x1FFFFFFF W) : Runs W q0 (execVinGood mv resetLow s) := by
  unfold execVinGood
  with_reducible repeat' (first
    | assumption | exact sub_of (by assumption) (by decide) | apply runs_next | apply vinGood_keeps
    | refine runs_ite _ _ _ ?_ ?_ | refine keeps_ite _ _ _ ?_ ?_)

theorem execVinLost_keeps {W : Nat} {q0 : State} (mv ns : Nat) (s : State) (hk : Keeps W q0 s) (hW : Sub 0x1FFFFFFF
    W) : Runs W q0 (execVinLost mv ns s) := by
  unfold execVinLost
  with_reducible repeat' (first
    | assumption | exact sub_of (by assumption) (by decide) | apply runs_next | apply vinLost_keeps
    | refine runs_ite _ _ _ ?_ ?_ | refine keeps_ite _ _ _ ?_ ?_)

theorem execStrapsSampled_keeps {W : Nat} {q0 : State} (samples : List Nat) (s : State) (hk : Keeps W q0 s) (hW : Sub
    0x20082003 W) : Runs W q0 (execStrapsSampled samples s) := by
  unfold execStrapsSampled
  with_reducible repeat' (first
    | assumption | exact sub_of (by assumption) (by decide) | apply runs_next | apply straps_keeps)

theorem execResetNRise_keeps {W : Nat} {q0 : State} (lowNs : Nat) (s : State) (hk : Keeps W q0 s) (hW : Sub
    0x3FFF5FFF W) : Runs W q0 (execResetNRise lowNs s) := by
  unfold execResetNRise
  with_reducible repeat' (first
    | assumption | exact sub_of (by assumption) (by decide) | apply runs_next | apply resetRise_keeps)

theorem execThermalTrip_keeps {W : Nat} {q0 : State} (sensor : Nat) (degC : Int) (s : State) (hk : Keeps W q0 s) (hW
    : Sub 0x20090403 W) : Runs W q0 (execThermalTrip sensor degC s) := by
  unfold execThermalTrip
  with_reducible repeat' (first
    | assumption | exact sub_of (by assumption) (by decide) | apply runs_next | apply thermalTrip_keeps)

theorem execPowerOff_keeps {W : Nat} {q0 : State} (s : State) (hk : Keeps W q0 s) (hW : Sub 0x1FFFFFFF W) : Runs W q0
    (execPowerOff s) := by
  unfold execPowerOff
  with_reducible repeat' (first
    | assumption | exact sub_of (by assumption) (by decide) | apply runs_next | apply powerOff_keeps)

theorem execMctpRequest_keeps {W : Nat} {q0 : State} (code : Nat) (args : List Nat) (s : State) (hk : Keeps W q0 s)
    (hW : Sub 0x81003 W) : Runs W q0 (execMctpRequest code args s) := by
  unfold execMctpRequest
  with_reducible repeat' (first
    | assumption | exact sub_of (by assumption) (by decide) | apply runs_next | apply mctpRequest_keeps)

theorem execI3cTransferTimeout_keeps {W : Nat} {q0 : State} (sclLowMs packetMs : Nat) (complete : Bool) (s : State)
    (hk : Keeps W q0 s) (hW : Sub 0x2 W) : Runs W q0 (execI3cTransferTimeout sclLowMs packetMs complete s) := by
  unfold execI3cTransferTimeout
  with_reducible repeat' (first
    | assumption | exact sub_of (by assumption) (by decide) | apply runs_next | apply i3cTimeout_keeps)

theorem execBeatBoundary_keeps {W : Nat} {q0 : State} (b : BeatIn) (s : State) (hk : Keeps W q0 s) (hW : Sub
    0x3DFFFF7F W) : Runs W q0 (execBeatBoundary b s) := by
  unfold execBeatBoundary
  with_reducible repeat' (first
    | assumption | exact sub_of (by assumption) (by decide) | apply runs_next | apply boundary_keeps)

theorem execCommandStep_keeps {W : Nat} {q0 : State} (mbx : Nat) (committed : Bool) (s : State) (hk : Keeps W q0 s)
    (hW : Sub 0x3DFFFF7B W) : Runs W q0 (execCommandStep mbx committed s) := by
  unfold execCommandStep
  with_reducible repeat' (first
    | assumption | exact sub_of (by assumption) (by decide) | apply runs_next | apply commandStep_keeps)

theorem execTokenPass_keeps {W : Nat} {q0 : State} (s : State) (hk : Keeps W q0 s)
    (hW : Sub 0x8000000 W := by first | assumption | exact sub_of (by assumption) (by decide)) :
    Runs W q0 (execTokenPass s) := by
  unfold execTokenPass
  repeat' (first
    | with_reducible assumption | exact sub_of (by assumption) (by decide) | with_reducible apply runs_next
    | with_reducible refine runs_ite _ _ _ ?_ ?_ | with_reducible apply addDue_keeps
    | with_reducible refine foldl_keeps _ _ _ ?_ ?_ | with_reducible refine foldl_fst_keeps _ _ _ ?_ ?_ | intro _ _ _
    | intro _ | with_reducible refine keeps_ite _ _ _ ?_ ?_ | split
    | with_reducible refine keeps_fst ?_ (by assumption) | with_reducible refine keeps_fst2 ?_ (by assumption)
    | simp only [])

theorem execFence_keeps {W : Nat} {q0 : State} (u : UnitRef) (s : State) (hk : Keeps W q0 s)
    (hW : Sub 0x8000000 W := by first | assumption | exact sub_of (by assumption) (by decide)) :
    Runs W q0 (execFence u s) := by
  unfold execFence
  repeat' (first
    | with_reducible assumption | exact sub_of (by assumption) (by decide) | with_reducible apply runs_next
    | with_reducible refine runs_ite _ _ _ ?_ ?_ | with_reducible apply addDue_keeps
    | with_reducible refine foldl_keeps _ _ _ ?_ ?_ | with_reducible refine foldl_fst_keeps _ _ _ ?_ ?_ | intro _ _ _
    | intro _ | with_reducible refine keeps_ite _ _ _ ?_ ?_ | split
    | with_reducible refine keeps_fst ?_ (by assumption) | with_reducible refine keeps_fst2 ?_ (by assumption)
    | simp only [])

theorem execDeviceSpare_keeps {W : Nat} {q0 : State} (c rank sub : Nat) (s : State) (hk : Keeps W q0 s)
    (hW : Sub 0x8000000 W := by first | assumption | exact sub_of (by assumption) (by decide)) :
    Runs W q0 (execDeviceSpare c rank sub s) := by
  unfold execDeviceSpare
  repeat' (first
    | with_reducible assumption | exact sub_of (by assumption) (by decide) | with_reducible apply runs_next
    | with_reducible refine runs_ite _ _ _ ?_ ?_ | with_reducible apply addDue_keeps
    | with_reducible refine foldl_keeps _ _ _ ?_ ?_ | with_reducible refine foldl_fst_keeps _ _ _ ?_ ?_ | intro _ _ _
    | intro _ | with_reducible refine keeps_ite _ _ _ ?_ ?_ | split
    | with_reducible refine keeps_fst ?_ (by assumption) | with_reducible refine keeps_fst2 ?_ (by assumption)
    | simp only [])

end Sys2Proof.Machine
end

