-- ==== Sys2Proof/Laws/PerInstr.lean ====
section
/-! SUPPORT. Laws/PerInstr.lean: for each command, well-formedness is exactly that each operand lies below its kind's limit. -/
set_option Elab.async false
namespace Sys2Proof.Laws.Command

/-- A command is well formed if and only if each of its operands lies below the limit of its kind. -/
def Statement (i : Instr) : Prop := i.wf = true ↔ ∀ o ∈ operandsOf i, o.2 < o.1.limit

theorem every (i : Instr) : Statement i := by
  unfold Statement Instr.wf operandOk
  rw [List.all_eq_true]
  exact ⟨fun h o ho => of_decide_eq_true (h o ho), fun h o ho => decide_eq_true (h o ho)⟩

theorem vinGood (mv : Nat) (resetLow : Bool) : Statement (.vinGood mv resetLow) := every _
theorem vinLost (mv : Nat) (ns : Nat) : Statement (.vinLost mv ns) := every _
theorem strapsSampled (samples : List Nat) : Statement (.strapsSampled samples) := every _
theorem resetNRise (lowNs : Nat) : Statement (.resetNRise lowNs) := every _
theorem startupStepComplete (ms : Nat) (r : StartRep) : Statement (.startupStepComplete ms r) := every _
theorem startupStepTimeout (ms : Nat) : Statement (.startupStepTimeout ms) := every _
theorem flashReadTimeout (flash : Nat) (ms : Nat) : Statement (.flashReadTimeout flash ms) := every _
theorem trainingStepDone (c : Nat) (r : TrainRep) : Statement (.trainingStepDone c r) := every _
theorem trainingTimeout (c : Nat) : Statement (.trainingTimeout c) := every _
theorem fillComplete (c : Nat) : Statement (.fillComplete c) := every _
theorem linkWaitExpiry : Statement (.linkWaitExpiry) := every _
theorem beatBoundary (b : BeatIn) : Statement (.beatBoundary b) := every _
theorem slewDone : Statement (.slewDone) := every _
theorem sensorRetire (sensor : Nat) : Statement (.sensorRetire sensor) := every _
theorem commandStep (mbx : Nat) (committed : Bool) : Statement (.commandStep mbx committed) := every _
theorem fence (u : UnitRef) : Statement (.fence u) := every _
theorem guardInterrupt : Statement (.guardInterrupt) := every _
theorem refclkLoss (ref : Nat) (gapNs : Nat) (ppm : Nat) : Statement (.refclkLoss ref gapNs ppm) := every _
theorem refclkRecovered (ref : Nat) (cycles : Nat) : Statement (.refclkRecovered ref cycles) := every _
theorem refPrefWrite (pref : Nat) : Statement (.refPrefWrite pref) := every _
theorem xtal32Loss (gapNs : Nat) : Statement (.xtal32Loss gapNs) := every _
theorem thermalTrip (sensor : Nat) (degC : Int) : Statement (.thermalTrip sensor degC) := every _
theorem inputCurrentLimit (iin : Nat) (ns : Nat) : Statement (.inputCurrentLimit iin ns) := every _
theorem thermalHalving (pair : Nat) (degC : Int) : Statement (.thermalHalving pair degC) := every _
theorem entropyHealthFail (tile : Nat) : Statement (.entropyHealthFail tile) := every _
theorem mainCoreLoad (h : Nat) (a : MemAcc) (rd : Nat) (signed : Bool) : Statement (.mainCoreLoad h a rd signed) := every _
theorem mainCoreStore (h : Nat) (a : MemAcc) (v : Nat) (younger : List Nat) : Statement (.mainCoreStore h a v younger) := every _
theorem mainCoreAmo (h : Nat) (a : MemAcc) (op : AmoOp) (v : Nat) (cmp : Nat) (rd : Nat) (younger : List Nat) : Statement (.mainCoreAmo h a op v cmp rd younger) := every _
theorem controlWindowAccess (h : Nat) (va : Nat) (off : Nat) (size : Nat) (rd : Nat) (signed : Bool) (write : Bool) (v : Nat) : Statement (.controlWindowAccess h va off size rd signed write v) := every _
theorem signalPageWrite (h : Nat) (pa : Nat) (size : Nat) (v : Nat) : Statement (.signalPageWrite h pa size v) := every _
theorem cboClean (h : Nat) (va : Nat) (pa : Nat) : Statement (.cboClean h va pa) := every _
theorem cboFlush (h : Nat) (va : Nat) (pa : Nat) : Statement (.cboFlush h va pa) := every _
theorem cboInval (h : Nat) (va : Nat) (pa : Nat) : Statement (.cboInval h va pa) := every _
theorem cboZero (h : Nat) (va : PageAt) (pa : Nat) (younger : List Nat) : Statement (.cboZero h va pa younger) := every _
theorem prefetchHint (h : Nat) (pa : PageAt) (kind : Nat) (faults : Bool) : Statement (.prefetchHint h pa kind faults) := every _
theorem wrsSto (h : Nat) : Statement (.wrsSto h) := every _
theorem wrsStoTimeout (h : Nat) (ns : Nat) : Statement (.wrsStoTimeout h ns) := every _
theorem wrsNto (h : Nat) : Statement (.wrsNto h) := every _
theorem seedRead (h : Nat) (rd : Nat) (ready : Bool) : Statement (.seedRead h rd ready) := every _
theorem contextKeyUpdate (h : Nat) (c : KeyCause) : Statement (.contextKeyUpdate h c) := every _
theorem branchRetire (h : Nat) (pc : Nat) (len : Nat) (target : Nat) (kind : Nat) (taken : Bool) : Statement (.branchRetire h pc len target kind taken) := every _
theorem usefulHalving (core : Nat) : Statement (.usefulHalving core) := every _
theorem dzpredctlClear (h : Nat) : Statement (.dzpredctlClear h) := every _
theorem dbypassSet (h : Nat) : Statement (.dbypassSet h) := every _
theorem dbypassClear (h : Nat) : Statement (.dbypassClear h) := every _
theorem ibypassSet (h : Nat) : Statement (.ibypassSet h) := every _
theorem coreInterrupt (h : Nat) (irq : Nat) (pc : Nat) : Statement (.coreInterrupt h irq pc) := every _
theorem snoopInvalidation (core : Nat) (line : Nat) (inFlight : Bool) : Statement (.snoopInvalidation core line inFlight) := every _
theorem msiWrite (tag : Nat) (h : Nat) (file : Nat) (ident : Nat) : Statement (.msiWrite tag h file ident) := every _
theorem comparatorMismatch (pair : Nat) (bus : Nat) (bit : Nat) (cause : Nat) : Statement (.comparatorMismatch pair bus bit cause) := every _
theorem coreArrayError (pair : Nat) (core : Nat) (kind : Nat) : Statement (.coreArrayError pair core kind) := every _
theorem captureComplete (pair : Nat) : Statement (.captureComplete pair) := every _
theorem logicBistResult (pair : Nat) (passA : Bool) (passB : Bool) : Statement (.logicBistResult pair passA passB) := every _
theorem arrayMarchResult (pair : Nat) (passA : Bool) (passB : Bool) : Statement (.arrayMarchResult pair passA passB) := every _
theorem survivorDrainDone (pair : Nat) : Statement (.survivorDrainDone pair) := every _
theorem stateCopyDone (pair : Nat) (digestOk : Bool) : Statement (.stateCopyDone pair digestOk) := every _
theorem hartResumeLibero (pair : Nat) : Statement (.hartResumeLibero pair) := every _
theorem splitCoreError (pair : Nat) (core : Nat) (kind : Nat) (badLines : List Nat) : Statement (.splitCoreError pair core kind badLines) := every _
theorem pairInjectB (pair : Nat) : Statement (.pairInjectB pair) := every _
theorem pairModeWrite (pair : Nat) (mode : Nat) : Statement (.pairModeWrite pair mode) := every _
theorem sliceRequest (core : Nat) (pa : Nat) (tag : Nat) (excl : Bool) (err : Nat) : Statement (.sliceRequest core pa tag excl err) := every _
theorem sliceFill (slice : Nat) (line : Nat) : Statement (.sliceFill slice line) := every _
theorem maintenanceAccept (slice : Nat) (core : Nat) (line : Nat) (tag : Nat) (op : Nat) : Statement (.maintenanceAccept slice core line tag op) := every _
theorem maintenanceComplete (slice : Nat) (line : Nat) : Statement (.maintenanceComplete slice line) := every _
theorem l2Eviction (core : Nat) (line : Nat) : Statement (.l2Eviction core line) := every _
theorem sliceDrainWalkDone (slice : Nat) : Statement (.sliceDrainWalkDone slice) := every _
theorem handoverComplete (slice : Nat) : Statement (.handoverComplete slice) := every _
theorem cachePreloadDone (mbx : Nat) : Statement (.cachePreloadDone mbx) := every _
theorem llcInjectDataCe (slice : Nat) : Statement (.llcInjectDataCe slice) := every _
theorem llcInjectDataUe (slice : Nat) : Statement (.llcInjectDataUe slice) := every _
theorem llcInjectTagPar (slice : Nat) : Statement (.llcInjectTagPar slice) := every _
theorem dramRequest (c : Nat) (q : DAcc) : Statement (.dramRequest c q) := every _
theorem commandOpportunity (c : Nat) (sub : Nat) (slot : Nat) : Statement (.commandOpportunity c sub slot) := every _
theorem rowIdleClose (c : Nat) (bank : Nat) (ns : Nat) : Statement (.rowIdleClose c bank ns) := every _
theorem rtPortRequest (c : Nat) (q : DAcc) : Statement (.rtPortRequest c q) := every _
theorem refreshOwed (c : Nat) (rank : Nat) : Statement (.refreshOwed c rank) := every _
theorem claimStart (c : Nat) (block : Nat) : Statement (.claimStart c block) := every _
theorem sealedSelection (c : Nat) (block : Nat) : Statement (.sealedSelection c block) := every _
theorem mr4Reading (c : Nat) (rank : Nat) (codes : List (Nat × Nat)) : Statement (.mr4Reading c rank codes) := every _
theorem catchUpStart (c : Nat) (rank : Nat) : Statement (.catchUpStart c rank) := every _
theorem catchUpEnd (c : Nat) (rank : Nat) (slot : Nat) : Statement (.catchUpEnd c rank slot) := every _
theorem refreshRateReturn (c : Nat) (rank : Nat) : Statement (.refreshRateReturn c rank) := every _
theorem driftCheck (c : Nat) (rank : Nat) (change : Int) : Statement (.driftCheck c rank change) := every _
theorem dramReadReturn (c : Nat) (sub : Nat) (errs : List (Nat × Nat)) (phases : List (Nat × Bool)) : Statement (.dramReadReturn c sub errs phases) := every _
theorem flipExpiry (c : Nat) : Statement (.flipExpiry c) := every _
theorem ddr5Alert (c : Nat) (sub : Nat) (kind : Nat) (slot : Nat) : Statement (.ddr5Alert c sub kind slot) := every _
theorem alertDeassertTimeout (c : Nat) (sub : Nat) (ns : Nat) : Statement (.alertDeassertTimeout c sub ns) := every _
theorem recoveryEnd (c : Nat) (sub : Nat) (slot : Nat) : Statement (.recoveryEnd c sub slot) := every _
theorem writeCrcWindowPass (c : Nat) (sub : Nat) : Statement (.writeCrcWindowPass c sub) := every _
theorem mcInjectCaParity (c : Nat) (sub : Nat) : Statement (.mcInjectCaParity c sub) := every _
theorem mcInjectWcrc (c : Nat) (sub : Nat) : Statement (.mcInjectWcrc c sub) := every _
theorem spareWindowClear (c : Nat) : Statement (.spareWindowClear c) := every _
theorem deviceSpare (c : Nat) (rank : Nat) (sub : Nat) : Statement (.deviceSpare c rank sub) := every _
theorem patrolLapEnd (c : Nat) : Statement (.patrolLapEnd c) := every _
theorem rangeScrubEnd : Statement (.rangeScrubEnd) := every _
theorem softRepairDone (mbx : Nat) (found : Bool) : Statement (.softRepairDone mbx found) := every _
theorem selfRefreshExit (c : Nat) (ok : Bool) (codes : List (Nat × Nat)) (delays : List (Nat × Nat)) : Statement (.selfRefreshExit c ok codes delays) := every _
theorem sealDrainsDone (t : Nat) : Statement (.sealDrainsDone t) := every _
theorem unsealDrainDone (t : Nat) : Statement (.unsealDrainDone t) := every _
theorem closeKeyErase (t : Nat) : Statement (.closeKeyErase t) := every _
theorem rekeySweepDone (t : Nat) : Statement (.rekeySweepDone t) := every _
theorem functionResetDone (g : Nat) (dev : Nat) : Statement (.functionResetDone g dev) := every _
theorem linkStageDone (k : Nat) : Statement (.linkStageDone k) := every _
theorem linkStageTimeout (k : Nat) (failed : Bool) : Statement (.linkStageTimeout k failed) := every _
theorem linkRetryTimer (k : Nat) : Statement (.linkRetryTimer k) := every _
theorem linkRekey (k : Nat) (rx : Bool) : Statement (.linkRekey k rx) := every _
theorem keyingFlit (k : Nat) (step : Nat) (ok : Bool) : Statement (.keyingFlit k step ok) := every _
theorem flitReceived (k : Nat) (corrected : Bool) (uncorrectable : Bool) (tagOk : Bool) (f : Flit) : Statement (.flitReceived k corrected uncorrectable tagOk f) := every _
theorem nakReceived (k : Nat) (ackSeq : Nat) : Statement (.nakReceived k ackSeq) := every _
theorem replayLimit (k : Nat) : Statement (.replayLimit k) := every _
theorem blockLockLoss (k : Nat) (ns : Nat) : Statement (.blockLockLoss k ns) := every _
theorem codewordTimeout (k : Nat) (ns : Nat) : Statement (.codewordTimeout k ns) := every _
theorem helloTimeout (k : Nat) : Statement (.helloTimeout k) := every _
theorem fabricLaneFailure (k : Nat) (lane : Nat) : Statement (.fabricLaneFailure k lane) := every _
theorem fabricRetrainDone (k : Nat) : Statement (.fabricRetrainDone k) := every _
theorem hello (k : Nat) (h : HelloMsg) : Statement (.hello k h) := every _
theorem captainSettle : Statement (.captainSettle) := every _
theorem linkStateNotice (k : Nat) (dev : Nat) (port : Nat) (boundary : Nat) : Statement (.linkStateNotice k dev port boundary) := every _
theorem failureBankSwitch : Statement (.failureBankSwitch) := every _
theorem failureBankReady : Statement (.failureBankReady) := every _
theorem routeTablesComputed : Statement (.routeTablesComputed) := every _
theorem joinReport (r : JoinRec) : Statement (.joinReport r) := every _
theorem tables (t : TablesMsg) : Statement (.tables t) := every _
theorem tablesAck (dev : Nat) (epoch : Nat) (digest : Nat) : Statement (.tablesAck dev epoch digest) := every _
theorem commit (epoch : Nat) (boundary : Nat) : Statement (.commit epoch boundary) := every _
theorem tableSwitch : Statement (.tableSwitch) := every _
theorem epochGraceEnd : Statement (.epochGraceEnd) := every _
theorem sharePlace (captain : Nat) (g : ShareSeg) : Statement (.sharePlace captain g) := every _
theorem shareAck (dev : Nat) (ten : Nat) (peer : Nat) (outcome : Nat) : Statement (.shareAck dev ten peer outcome) := every _
theorem sealQuery (dev : Nat) (ten : Nat) (reply : Bool) (isSealed : Bool) : Statement (.sealQuery dev ten reply isSealed) := every _
theorem beatMarker (k : Nat) (tRx : Nat) (m : Marker) : Statement (.beatMarker k tRx m) := every _
theorem markerLoss : Statement (.markerLoss) := every _
theorem captainUnreachable : Statement (.captainUnreachable) := every _
theorem memberUnreachable (dev : Nat) : Statement (.memberUnreachable dev) := every _
theorem rdShared (p : Pkt) : Statement (.rdShared p) := every _
theorem rdOwn (p : Pkt) : Statement (.rdOwn p) := every _
theorem rdNc (p : Pkt) : Statement (.rdNc p) := every _
theorem wrNc (p : Pkt) : Statement (.wrNc p) := every _
theorem wrLine (p : Pkt) : Statement (.wrLine p) := every _
theorem evict (p : Pkt) : Statement (.evict p) := every _
theorem maint (p : Pkt) : Statement (.maint p) := every _
theorem atomic (p : Pkt) : Statement (.atomic p) := every _
theorem snpInv (p : Pkt) : Statement (.snpInv p) := every _
theorem snpShare (p : Pkt) : Statement (.snpShare p) := every _
theorem ack (src : Nat) (xid : Nat) (completion : Bool) : Statement (.ack src xid completion) := every _
theorem retry (src : Nat) (xid : Nat) : Statement (.retry src xid) := every _
theorem grant (src : Nat) (xid : Nat) : Statement (.grant src xid) := every _
theorem err (src : Nat) (xid : Nat) : Statement (.err src xid) := every _
theorem snpRsp (src : Nat) (line : Nat) : Statement (.snpRsp src line) := every _
theorem data (src : Nat) (xid : Nat) (data : Nat) : Statement (.data src xid data) := every _
theorem poisonData (src : Nat) (xid : Nat) : Statement (.poisonData src xid) := every _
theorem snpData (src : Nat) (line : Nat) (data : Nat) (poison : Bool) : Statement (.snpData src line data poison) := every _
theorem requestResendTimeout (xid : Nat) : Statement (.requestResendTimeout xid) := every _
theorem snoopResendTimeout (dev : Nat) (line : Nat) : Statement (.snoopResendTimeout dev line) := every _
theorem requestErrorTimeout (xid : Nat) : Statement (.requestErrorTimeout xid) := every _
theorem serdesLaneFailure (g : Nat) (n : Nat) (lanes : List Nat) : Statement (.serdesLaneFailure g n lanes) := every _
theorem portRetrainDone (g : Nat) (n : Nat) : Statement (.portRetrainDone g n) := every _
theorem portRetrainTimeout (g : Nat) (n : Nat) : Statement (.portRetrainTimeout g n) := every _
theorem serdesLinkUp (g : Nat) (n : Nat) (width : Nat) (speed : Nat) (flit : Bool) (funcs : List FuncInfo) : Statement (.serdesLinkUp g n width speed flit funcs) := every _
theorem serdesLinkDown (g : Nat) (n : Nat) : Statement (.serdesLinkDown g n) := every _
theorem portTrainRetry (g : Nat) (n : Nat) : Statement (.portTrainRetry g n) := every _
theorem serdesIngressRequest (g : Nat) (n : Nat) (q : DevReq) : Statement (.serdesIngressRequest g n q) := every _
theorem rootPortCompletion (xid : Nat) (status : Nat) (data : Nat) : Statement (.rootPortCompletion xid status data) := every _
theorem completionTimeout (xid : Nat) (ns : Nat) : Statement (.completionTimeout xid ns) := every _
theorem ecamWrite (tag : Nat) (g : Nat) (dev : Nat) (off : Nat) (size : Nat) (v : Nat) (r : EcamReg) : Statement (.ecamWrite tag g dev off size v r) := every _
theorem cxlMemDeviceRequest (g : Nat) (dpa : Nat) (write : Bool) (data : Nat) : Statement (.cxlMemDeviceRequest g dpa write data) := every _
theorem identifyMemoryDevice (g : Nat) : Statement (.identifyMemoryDevice g) := every _
theorem getHealthInfo (g : Nat) : Statement (.getHealthInfo g) := every _
theorem getEventRecords (g : Nat) (log : Nat) : Statement (.getEventRecords g log) := every _
theorem clearEventRecords (g : Nat) (log : Nat) (handles : List Nat) : Statement (.clearEventRecords g log handles) := every _
theorem getPoisonList (g : Nat) (dpa : Nat) (len : Nat) : Statement (.getPoisonList g dpa len) := every _
theorem getSupportedLogs (g : Nat) : Statement (.getSupportedLogs g) := every _
theorem getLog (g : Nat) (log : Nat) (off : Nat) (len : Nat) : Statement (.getLog g log off len) := every _
theorem setTimestamp (g : Nat) (v : Nat) : Statement (.setTimestamp g v) := every _
theorem cxlUnsupportedOpcode (g : Nat) (op : Nat) : Statement (.cxlUnsupportedOpcode g op) := every _
theorem dmaEnable (tag : Nat) (d : Nat) : Statement (.dmaEnable tag d) := every _
theorem dmaAbort (tag : Nat) (d : Nat) : Statement (.dmaAbort tag d) := every _
theorem dmaAbortDone (d : Nat) : Statement (.dmaAbortDone d) := every _
theorem dmaPauseSet (tag : Nat) (d : Nat) : Statement (.dmaPauseSet tag d) := every _
theorem dmaPauseDone (d : Nat) : Statement (.dmaPauseDone d) := every _
theorem dmaPauseClear (tag : Nat) (d : Nat) : Statement (.dmaPauseClear tag d) := every _
theorem dmaStop (tag : Nat) (d : Nat) : Statement (.dmaStop tag d) := every _
theorem dmaResumeRetry (tag : Nat) (d : Nat) : Statement (.dmaResumeRetry tag d) := every _
theorem dmaResumeMarkBad (tag : Nat) (d : Nat) : Statement (.dmaResumeMarkBad tag d) := every _
theorem dmaResumeDisable (tag : Nat) (d : Nat) : Statement (.dmaResumeDisable tag d) := every _
theorem dmaTailWrite (tag : Nat) (d : Nat) (v : Nat) : Statement (.dmaTailWrite tag d v) := every _
theorem descriptorFetched (d : Nat) (far : FarRead) : Statement (.descriptorFetched d far) := every _
theorem dmaReadReturn (d : Nat) (n : Nat) (far : FarRead) : Statement (.dmaReadReturn d n far) := every _
theorem descriptorComplete (d : Nat) : Statement (.descriptorComplete d) := every _
theorem statusWriteAck (d : Nat) : Statement (.statusWriteAck d) := every _
theorem dmaBusError (d : Nat) (kind : Nat) (dir : Nat) (off : Nat) : Statement (.dmaBusError d kind dir off) := every _
theorem dmaRingFault (d : Nat) : Statement (.dmaRingFault d) := every _
theorem doorbell (tag : Nat) (mbx : Nat) : Statement (.doorbell tag mbx) := every _
theorem resultAck (tag : Nat) (mbx : Nat) (size : Nat) (v : Nat) : Statement (.resultAck tag mbx size v) := every _
theorem noticeAck (tag : Nat) (mbx : Nat) (size : Nat) (v : Nat) : Statement (.noticeAck tag mbx size v) := every _
theorem mctpRequest (code : Nat) (args : List Nat) : Statement (.mctpRequest code args) := every _
theorem i3cTransferTimeout (sclLowMs : Nat) (packetMs : Nat) (complete : Bool) : Statement (.i3cTransferTimeout sclLowMs packetMs complete) := every _
theorem clerkClaim (x : Nat) (v : Nat) : Statement (.clerkClaim x v) := every _
theorem tokenPass : Statement (.tokenPass) := every _
theorem bridgeLost : Statement (.bridgeLost) := every _
theorem peerPowerLost : Statement (.peerPowerLost) := every _
theorem clerkSramUe (c : Nat) : Statement (.clerkSramUe c) := every _
theorem clerkInterruptEntry (c : Nat) (code : Nat) : Statement (.clerkInterruptEntry c code) := every _
theorem mgmtResponse (c : Nat) (region : Nat) : Statement (.mgmtResponse c region) := every _
theorem mgmtTimeout (c : Nat) (region : Nat) : Statement (.mgmtTimeout c region) := every _
theorem clerkIpiSend (c : Nat) (mask : Nat) : Statement (.clerkIpiSend c mask) := every _
theorem sll (c : Nat) (wd : Nat) (wa : Nat) (sh : Nat) : Statement (.sll c wd wa sh) := every _
theorem srl (c : Nat) (wd : Nat) (wa : Nat) (sh : Nat) : Statement (.srl c wd wa sh) := every _
theorem sra (c : Nat) (wd : Nat) (wa : Nat) (sh : Nat) : Statement (.sra c wd wa sh) := every _
theorem sllv (c : Nat) (wd : Nat) (wa : Nat) (wb : Nat) : Statement (.sllv c wd wa wb) := every _
theorem srlv (c : Nat) (wd : Nat) (wa : Nat) (wb : Nat) : Statement (.srlv c wd wa wb) := every _
theorem srav (c : Nat) (wd : Nat) (wa : Nat) (wb : Nat) : Statement (.srav c wd wa wb) := every _
theorem add (c : Nat) (wd : Nat) (wa : Nat) (wb : Nat) : Statement (.add c wd wa wb) := every _
theorem sub (c : Nat) (wd : Nat) (wa : Nat) (wb : Nat) : Statement (.sub c wd wa wb) := every _
theorem and (c : Nat) (wd : Nat) (wa : Nat) (wb : Nat) : Statement (.and c wd wa wb) := every _
theorem or (c : Nat) (wd : Nat) (wa : Nat) (wb : Nat) : Statement (.or c wd wa wb) := every _
theorem xor (c : Nat) (wd : Nat) (wa : Nat) (wb : Nat) : Statement (.xor c wd wa wb) := every _
theorem nor (c : Nat) (wd : Nat) (wa : Nat) (wb : Nat) : Statement (.nor c wd wa wb) := every _
theorem slt (c : Nat) (wd : Nat) (wa : Nat) (wb : Nat) : Statement (.slt c wd wa wb) := every _
theorem sltu (c : Nat) (wd : Nat) (wa : Nat) (wb : Nat) : Statement (.sltu c wd wa wb) := every _
theorem mul (c : Nat) (wd : Nat) (wa : Nat) (wb : Nat) : Statement (.mul c wd wa wb) := every _
theorem mulh (c : Nat) (wd : Nat) (wa : Nat) (wb : Nat) : Statement (.mulh c wd wa wb) := every _
theorem mulhu (c : Nat) (wd : Nat) (wa : Nat) (wb : Nat) : Statement (.mulhu c wd wa wb) := every _
theorem clz (c : Nat) (wd : Nat) (wa : Nat) : Statement (.clz c wd wa) := every _
theorem addi (c : Nat) (wd : Nat) (wa : Nat) (imm : Nat) : Statement (.addi c wd wa imm) := every _
theorem andi (c : Nat) (wd : Nat) (wa : Nat) (imm : Nat) : Statement (.andi c wd wa imm) := every _
theorem ori (c : Nat) (wd : Nat) (wa : Nat) (imm : Nat) : Statement (.ori c wd wa imm) := every _
theorem xori (c : Nat) (wd : Nat) (wa : Nat) (imm : Nat) : Statement (.xori c wd wa imm) := every _
theorem slti (c : Nat) (wd : Nat) (wa : Nat) (imm : Nat) : Statement (.slti c wd wa imm) := every _
theorem sltiu (c : Nat) (wd : Nat) (wa : Nat) (imm : Nat) : Statement (.sltiu c wd wa imm) := every _
theorem lui (c : Nat) (wd : Nat) (imm : Nat) : Statement (.lui c wd imm) := every _
theorem lw (c : Nat) (wd : Nat) (wa : Nat) (imm : Nat) : Statement (.lw c wd wa imm) := every _
theorem lh (c : Nat) (wd : Nat) (wa : Nat) (imm : Nat) : Statement (.lh c wd wa imm) := every _
theorem lhu (c : Nat) (wd : Nat) (wa : Nat) (imm : Nat) : Statement (.lhu c wd wa imm) := every _
theorem lb (c : Nat) (wd : Nat) (wa : Nat) (imm : Nat) : Statement (.lb c wd wa imm) := every _
theorem lbu (c : Nat) (wd : Nat) (wa : Nat) (imm : Nat) : Statement (.lbu c wd wa imm) := every _
theorem sw (c : Nat) (wd : Nat) (wa : Nat) (imm : Nat) : Statement (.sw c wd wa imm) := every _
theorem sh (c : Nat) (wd : Nat) (wa : Nat) (imm : Nat) : Statement (.sh c wd wa imm) := every _
theorem sb (c : Nat) (wd : Nat) (wa : Nat) (imm : Nat) : Statement (.sb c wd wa imm) := every _
theorem beq (c : Nat) (wa : Nat) (wb : Nat) (an : Nat) (hi : Nat) (off : Nat) : Statement (.beq c wa wb an hi off) := every _
theorem bne (c : Nat) (wa : Nat) (wb : Nat) (an : Nat) (hi : Nat) (off : Nat) : Statement (.bne c wa wb an hi off) := every _
theorem blt (c : Nat) (wa : Nat) (wb : Nat) (an : Nat) (hi : Nat) (off : Nat) : Statement (.blt c wa wb an hi off) := every _
theorem bge (c : Nat) (wa : Nat) (wb : Nat) (an : Nat) (hi : Nat) (off : Nat) : Statement (.bge c wa wb an hi off) := every _
theorem bltu (c : Nat) (wa : Nat) (wb : Nat) (an : Nat) (hi : Nat) (off : Nat) : Statement (.bltu c wa wb an hi off) := every _
theorem bgeu (c : Nat) (wa : Nat) (wb : Nat) (an : Nat) (hi : Nat) (off : Nat) : Statement (.bgeu c wa wb an hi off) := every _
theorem j (c : Nat) (off : Nat) : Statement (.j c off) := every _
theorem jal (c : Nat) (off : Nat) : Statement (.jal c off) := every _
theorem jalr (c : Nat) (wd : Nat) (wa : Nat) (imm : Nat) : Statement (.jalr c wd wa imm) := every _
theorem jalg (c : Nat) (wd : Nat) (wa : Nat) (imm : Nat) : Statement (.jalg c wd wa imm) := every _
theorem mld (c : Nat) (wd : Nat) (wa : Nat) (imm : Nat) : Statement (.mld c wd wa imm) := every _
theorem mst (c : Nat) (wd : Nat) (wa : Nat) (imm : Nat) : Statement (.mst c wd wa imm) := every _
theorem mldd (c : Nat) (wd : Nat) (wa : Nat) (imm : Nat) : Statement (.mldd c wd wa imm) := every _
theorem mstd (c : Nat) (wd : Nat) (wa : Nat) (imm : Nat) : Statement (.mstd c wd wa imm) := every _
theorem wait (c : Nat) : Statement (.wait c) := every _
theorem eret (c : Nat) : Statement (.eret c) := every _
theorem msync (c : Nat) : Statement (.msync c) := every _
theorem checkin (c : Nat) : Statement (.checkin c) := every _
theorem trap (c : Nat) (sh : Nat) : Statement (.trap c sh) := every _
theorem gate (c : Nat) : Statement (.gate c) := every _
theorem di (c : Nat) : Statement (.di c) := every _
theorem ei (c : Nat) : Statement (.ei c) := every _
theorem assayerHang : Statement (.assayerHang) := every _
theorem holdLimit : Statement (.holdLimit) := every _
theorem standbyReady : Statement (.standbyReady) := every _
theorem standbyTimeout : Statement (.standbyTimeout) := every _
theorem debugTokenAccept : Statement (.debugTokenAccept) := every _
theorem zeroizeDone : Statement (.zeroizeDone) := every _
theorem closeMarkerWritten (okA : Bool) (okB : Bool) : Statement (.closeMarkerWritten okA okB) := every _
theorem powerOff : Statement (.powerOff) := every _
theorem getVersion (conn : Nat) : Statement (.getVersion conn) := every _
theorem getCapabilities (conn : Nat) : Statement (.getCapabilities conn) := every _
theorem negotiateAlgorithms (conn : Nat) (offered : Bool) : Statement (.negotiateAlgorithms conn offered) := every _
theorem getDigests (conn : Nat) : Statement (.getDigests conn) := every _
theorem getCertificate (conn : Nat) (slot : Nat) (off : Nat) (len : Nat) : Statement (.getCertificate conn slot off len) := every _
theorem challenge (conn : Nat) (slot : Nat) (nonce : Nat) : Statement (.challenge conn slot nonce) := every _
theorem getMeasurements (conn : Nat) (index : Nat) (nonce : Nat) : Statement (.getMeasurements conn index nonce) := every _
theorem keyExchange (conn : Nat) (slot : Nat) (secret : Nat) : Statement (.keyExchange conn slot secret) := every _
theorem finish (conn : Nat) (session : Nat) (ok : Bool) : Statement (.finish conn session ok) := every _
theorem endSession (conn : Nat) (session : Nat) : Statement (.endSession conn session) := every _
theorem vendorDefinedRequest (conn : Nat) (vendor : Nat) (counter : Nat) (off : Nat) (len : Nat) : Statement (.vendorDefinedRequest conn vendor counter off len) := every _
theorem idcode : Statement (.idcode) := every _
theorem samplePreload : Statement (.samplePreload) := every _
theorem extest : Statement (.extest) := every _
theorem clamp : Statement (.clamp) := every _
theorem highz : Statement (.highz) := every _
theorem dzToken (t : Token) : Statement (.dzToken t) := every _
theorem dzMbx (off : Nat) (size : Nat) (v : Nat) : Statement (.dzMbx off size v) := every _
theorem dzDebug : Statement (.dzDebug) := every _
theorem dzAssayer : Statement (.dzAssayer) := every _
theorem bypass : Statement (.bypass) := every _
theorem drowseGateStart (pair : Nat) : Statement (.drowseGateStart pair) := every _
theorem drowseGateDone (pair : Nat) : Statement (.drowseGateDone pair) := every _
theorem gatedPairWake (pair : Nat) : Statement (.gatedPairWake pair) := every _
theorem idleTimerExpiry : Statement (.idleTimerExpiry) := every _
theorem sleepRequest : Statement (.sleepRequest) := every _
theorem dormantDrainsDone (subNs : Nat) (phase : Nat) : Statement (.dormantDrainsDone subNs phase) := every _
theorem i3cWakeMatch (tile : Nat) (addr : Nat) : Statement (.i3cWakeMatch tile addr) := every _
theorem wakeReferenceGood (ticks : Nat) (phase : Nat) (refA : Bool) (refB : Bool) : Statement (.wakeReferenceGood ticks phase refA refB) := every _
theorem wakeComplete (badImages : List Nat) (wakeUs : Nat) : Statement (.wakeComplete badImages wakeUs) := every _
theorem pwrPadsRelease (mask : Nat) : Statement (.pwrPadsRelease mask) := every _
theorem testEnd (id : Nat) (r : TestRep) : Statement (.testEnd id r) := every _
theorem loopbackFollow (k : Nat) : Statement (.loopbackFollow k) := every _
theorem injectionExpiry (target : Nat) (unit : Nat) : Statement (.injectionExpiry target unit) := every _
theorem registerWrite (asr : Bool) (off : Nat) (size : Nat) (v : Nat) : Statement (.registerWrite asr off size v) := every _
theorem inventoryList (mbx : Nat) : Statement (.inventoryList mbx) := every _
theorem powerStatus (mbx : Nat) : Statement (.powerStatus mbx) := every _
theorem powerState (mbx : Nat) : Statement (.powerState mbx) := every _
theorem powerDomain (mbx : Nat) : Statement (.powerDomain mbx) := every _
theorem powerDormant (mbx : Nat) : Statement (.powerDormant mbx) := every _
theorem powerIdle (mbx : Nat) : Statement (.powerIdle mbx) := every _
theorem powerTdp (mbx : Nat) : Statement (.powerTdp mbx) := every _
theorem powerPads (mbx : Nat) : Statement (.powerPads mbx) := every _
theorem tenantCreate (mbx : Nat) : Statement (.tenantCreate mbx) := every _
theorem tenantGrant (mbx : Nat) : Statement (.tenantGrant mbx) := every _
theorem tenantAssign (mbx : Nat) : Statement (.tenantAssign mbx) := every _
theorem tenantLoad (mbx : Nat) : Statement (.tenantLoad mbx) := every _
theorem tenantSeal (mbx : Nat) : Statement (.tenantSeal mbx) := every _
theorem tenantUnseal (mbx : Nat) : Statement (.tenantUnseal mbx) := every _
theorem tenantRekey (mbx : Nat) : Statement (.tenantRekey mbx) := every _
theorem tenantStart (mbx : Nat) : Statement (.tenantStart mbx) := every _
theorem tenantClose (mbx : Nat) : Statement (.tenantClose mbx) := every _
theorem tenantStatus (mbx : Nat) : Statement (.tenantStatus mbx) := every _
theorem coreMode (mbx : Nat) : Statement (.coreMode mbx) := every _
theorem coreStart (mbx : Nat) : Statement (.coreStart mbx) := every _
theorem corePark (mbx : Nat) : Statement (.corePark mbx) := every _
theorem coreStatus (mbx : Nat) : Statement (.coreStatus mbx) := every _
theorem coreRequalify (mbx : Nat) : Statement (.coreRequalify mbx) := every _
theorem corePolicy (mbx : Nat) : Statement (.corePolicy mbx) := every _
theorem memStatus (mbx : Nat) : Statement (.memStatus mbx) := every _
theorem memScrub (mbx : Nat) : Statement (.memScrub mbx) := every _
theorem memClear (mbx : Nat) : Statement (.memClear mbx) := every _
theorem memRepair (mbx : Nat) : Statement (.memRepair mbx) := every _
theorem memSpare (mbx : Nat) : Statement (.memSpare mbx) := every _
theorem memFlip (mbx : Nat) : Statement (.memFlip mbx) := every _
theorem cacheLock (mbx : Nat) : Statement (.cacheLock mbx) := every _
theorem cacheUnlock (mbx : Nat) : Statement (.cacheUnlock mbx) := every _
theorem cacheSlice (mbx : Nat) : Statement (.cacheSlice mbx) := every _
theorem cacheStatus (mbx : Nat) : Statement (.cacheStatus mbx) := every _
theorem fabricStatus (mbx : Nat) : Statement (.fabricStatus mbx) := every _
theorem fabricRoute (mbx : Nat) : Statement (.fabricRoute mbx) := every _
theorem fabricPort (mbx : Nat) : Statement (.fabricPort mbx) := every _
theorem fabricGrant (mbx : Nat) : Statement (.fabricGrant mbx) := every _
theorem fabricShare (mbx : Nat) : Statement (.fabricShare mbx) := every _
theorem portStatus (mbx : Nat) : Statement (.portStatus mbx) := every _
theorem portConfig (mbx : Nat) : Statement (.portConfig mbx) := every _
theorem portAssign (mbx : Nat) : Statement (.portAssign mbx) := every _
theorem portEp (mbx : Nat) : Statement (.portEp mbx) := every _
theorem portCxlgrant (mbx : Nat) : Statement (.portCxlgrant mbx) := every _
theorem dmaAssign (mbx : Nat) : Statement (.dmaAssign mbx) := every _
theorem dmaStatus (mbx : Nat) : Statement (.dmaStatus mbx) := every _
theorem rasRead (mbx : Nat) : Statement (.rasRead mbx) := every _
theorem timeGet (mbx : Nat) : Statement (.timeGet mbx) := every _
theorem timeSet (mbx : Nat) : Statement (.timeSet mbx) := every _
theorem daybookStatus (mbx : Nat) : Statement (.daybookStatus mbx) := every _
theorem daybookRead (mbx : Nat) : Statement (.daybookRead mbx) := every _
theorem daybookAttest (mbx : Nat) : Statement (.daybookAttest mbx) := every _
theorem testLoopback (mbx : Nat) : Statement (.testLoopback mbx) := every _
theorem testBist (mbx : Nat) : Statement (.testBist mbx) := every _
theorem testInject (mbx : Nat) : Statement (.testInject mbx) := every _
theorem testStatus (mbx : Nat) : Statement (.testStatus mbx) := every _
theorem mainCoreWfi (h : Nat) : Statement (.mainCoreWfi h) := every _
theorem cxlMemResponse (xid : Nat) (data : Nat) (poison : Bool) : Statement (.cxlMemResponse xid data poison) := every _
theorem loopbackRequestStop (k : Nat) : Statement (.loopbackRequestStop k) := every _
theorem perstInput (g : Nat) (low : Bool) : Statement (.perstInput g low) := every _

end Sys2Proof.Laws.Command
end

