-- ==== Sys2Proof/Laws/State.lean ====
section
/-! SUPPORT. Laws/State.lean: what each update leaves of every field of State, so that no proof unfolds an update. -/
set_option Elab.async false
namespace Sys2Proof.Machine

@[simp] theorem wr_chip (f : Fld) (v : Nat) (s : State) : (wr f v s).chip = s.chip := rfl
@[simp] theorem wr_time (f : Fld) (v : Nat) (s : State) : (wr f v s).time = s.time := rfl
@[simp] theorem wr_harts (f : Fld) (v : Nat) (s : State) : (wr f v s).harts = s.harts := rfl
@[simp] theorem wr_cores (f : Fld) (v : Nat) (s : State) : (wr f v s).cores = s.cores := rfl
@[simp] theorem wr_pairs (f : Fld) (v : Nat) (s : State) : (wr f v s).pairs = s.pairs := rfl
@[simp] theorem wr_slots (f : Fld) (v : Nat) (s : State) : (wr f v s).slots = s.slots := rfl
@[simp] theorem wr_policy (f : Fld) (v : Nat) (s : State) : (wr f v s).policy = s.policy := rfl
@[simp] theorem wr_slices (f : Fld) (v : Nat) (s : State) : (wr f v s).slices = s.slices := rfl
@[simp] theorem wr_mesh (f : Fld) (v : Nat) (s : State) : (wr f v s).mesh = s.mesh := rfl
@[simp] theorem wr_mem (f : Fld) (v : Nat) (s : State) : (wr f v s).mem = s.mem := rfl
@[simp] theorem wr_tenants (f : Fld) (v : Nat) (s : State) : (wr f v s).tenants = s.tenants := rfl
@[simp] theorem wr_mbx (f : Fld) (v : Nat) (s : State) : (wr f v s).mbx = s.mbx := rfl
@[simp] theorem wr_ras (f : Fld) (v : Nat) (s : State) : (wr f v s).ras = s.ras := rfl
@[simp] theorem wr_outs (f : Fld) (v : Nat) (s : State) : (wr f v s).outs = s.outs := rfl
@[simp] theorem wr_nextXid (f : Fld) (v : Nat) (s : State) : (wr f v s).nextXid = s.nextXid := rfl
@[simp] theorem wr_fabric (f : Fld) (v : Nat) (s : State) : (wr f v s).fabric = s.fabric := rfl
@[simp] theorem wr_groups (f : Fld) (v : Nat) (s : State) : (wr f v s).groups = s.groups := rfl
@[simp] theorem wr_dma (f : Fld) (v : Nat) (s : State) : (wr f v s).dma = s.dma := rfl
@[simp] theorem wr_clerk (f : Fld) (v : Nat) (s : State) : (wr f v s).clerk = s.clerk := rfl
@[simp] theorem wr_cplx (f : Fld) (v : Nat) (s : State) : (wr f v s).cplx = s.cplx := rfl
@[simp] theorem wr_toss (f : Fld) (v : Nat) (s : State) : (wr f v s).toss = s.toss := rfl
@[simp] theorem wr_assayer (f : Fld) (v : Nat) (s : State) : (wr f v s).assayer = s.assayer := rfl
@[simp] theorem wr_boot (f : Fld) (v : Nat) (s : State) : (wr f v s).boot = s.boot := rfl
@[simp] theorem wr_tests (f : Fld) (v : Nat) (s : State) : (wr f v s).tests = s.tests := rfl
@[simp] theorem wr_armed (f : Fld) (v : Nat) (s : State) : (wr f v s).armed = s.armed := rfl
@[simp] theorem wr_power (f : Fld) (v : Nat) (s : State) : (wr f v s).power = s.power := rfl
@[simp] theorem wr_due (f : Fld) (v : Nat) (s : State) : (wr f v s).due = s.due := rfl
@[simp] theorem wr_journal (f : Fld) (v : Nat) (s : State) : (wr f v s).journal = s.journal := rfl
@[simp] theorem wr_freeCtr (f : Fld) (v : Nat) (s : State) : (wr f v s).freeCtr = s.freeCtr := rfl
@[simp] theorem wr_pending (f : Fld) (v : Nat) (s : State) : (wr f v s).pending = s.pending := rfl
theorem wr_regs (f : Fld) (v : Nat) (s : State) : (wr f v s).regs = tset 0 s.regs (fkey f) ((v % 2 ^ f.w) ^^^ f.rst) := rfl

@[simp] theorem freeNext_regs (s : State) : (freeNext s).regs = s.regs := rfl
@[simp] theorem freeNext_chip (s : State) : (freeNext s).chip = s.chip := rfl
@[simp] theorem freeNext_time (s : State) : (freeNext s).time = s.time := rfl
@[simp] theorem freeNext_harts (s : State) : (freeNext s).harts = s.harts := rfl
@[simp] theorem freeNext_cores (s : State) : (freeNext s).cores = s.cores := rfl
@[simp] theorem freeNext_pairs (s : State) : (freeNext s).pairs = s.pairs := rfl
@[simp] theorem freeNext_slots (s : State) : (freeNext s).slots = s.slots := rfl
@[simp] theorem freeNext_policy (s : State) : (freeNext s).policy = s.policy := rfl
@[simp] theorem freeNext_slices (s : State) : (freeNext s).slices = s.slices := rfl
@[simp] theorem freeNext_mesh (s : State) : (freeNext s).mesh = s.mesh := rfl
@[simp] theorem freeNext_mem (s : State) : (freeNext s).mem = s.mem := rfl
@[simp] theorem freeNext_tenants (s : State) : (freeNext s).tenants = s.tenants := rfl
@[simp] theorem freeNext_mbx (s : State) : (freeNext s).mbx = s.mbx := rfl
@[simp] theorem freeNext_ras (s : State) : (freeNext s).ras = s.ras := rfl
@[simp] theorem freeNext_outs (s : State) : (freeNext s).outs = s.outs := rfl
@[simp] theorem freeNext_nextXid (s : State) : (freeNext s).nextXid = s.nextXid := rfl
@[simp] theorem freeNext_fabric (s : State) : (freeNext s).fabric = s.fabric := rfl
@[simp] theorem freeNext_groups (s : State) : (freeNext s).groups = s.groups := rfl
@[simp] theorem freeNext_dma (s : State) : (freeNext s).dma = s.dma := rfl
@[simp] theorem freeNext_clerk (s : State) : (freeNext s).clerk = s.clerk := rfl
@[simp] theorem freeNext_cplx (s : State) : (freeNext s).cplx = s.cplx := rfl
@[simp] theorem freeNext_toss (s : State) : (freeNext s).toss = s.toss := rfl
@[simp] theorem freeNext_assayer (s : State) : (freeNext s).assayer = s.assayer := rfl
@[simp] theorem freeNext_boot (s : State) : (freeNext s).boot = s.boot := rfl
@[simp] theorem freeNext_tests (s : State) : (freeNext s).tests = s.tests := rfl
@[simp] theorem freeNext_armed (s : State) : (freeNext s).armed = s.armed := rfl
@[simp] theorem freeNext_power (s : State) : (freeNext s).power = s.power := rfl
@[simp] theorem freeNext_due (s : State) : (freeNext s).due = s.due := rfl
@[simp] theorem freeNext_journal (s : State) : (freeNext s).journal = s.journal := rfl
@[simp] theorem freeNext_pending (s : State) : (freeNext s).pending = s.pending := rfl
@[simp] theorem freeNext_freeCtr (s : State) : (freeNext s).freeCtr = s.freeCtr + 1 := rfl
@[simp] theorem rd_freeNext (s : State) (q : Fld) : rd (freeNext s) q = rd s q := rfl

@[simp] theorem addDue_regs (b k : Nat) (a : Act) (s : State) : (addDue b k a s).regs = s.regs := rfl
@[simp] theorem addDue_chip (b k : Nat) (a : Act) (s : State) : (addDue b k a s).chip = s.chip := rfl
@[simp] theorem addDue_time (b k : Nat) (a : Act) (s : State) : (addDue b k a s).time = s.time := rfl
@[simp] theorem addDue_harts (b k : Nat) (a : Act) (s : State) : (addDue b k a s).harts = s.harts := rfl
@[simp] theorem addDue_cores (b k : Nat) (a : Act) (s : State) : (addDue b k a s).cores = s.cores := rfl
@[simp] theorem addDue_pairs (b k : Nat) (a : Act) (s : State) : (addDue b k a s).pairs = s.pairs := rfl
@[simp] theorem addDue_slots (b k : Nat) (a : Act) (s : State) : (addDue b k a s).slots = s.slots := rfl
@[simp] theorem addDue_policy (b k : Nat) (a : Act) (s : State) : (addDue b k a s).policy = s.policy := rfl
@[simp] theorem addDue_slices (b k : Nat) (a : Act) (s : State) : (addDue b k a s).slices = s.slices := rfl
@[simp] theorem addDue_mesh (b k : Nat) (a : Act) (s : State) : (addDue b k a s).mesh = s.mesh := rfl
@[simp] theorem addDue_mem (b k : Nat) (a : Act) (s : State) : (addDue b k a s).mem = s.mem := rfl
@[simp] theorem addDue_tenants (b k : Nat) (a : Act) (s : State) : (addDue b k a s).tenants = s.tenants := rfl
@[simp] theorem addDue_mbx (b k : Nat) (a : Act) (s : State) : (addDue b k a s).mbx = s.mbx := rfl
@[simp] theorem addDue_ras (b k : Nat) (a : Act) (s : State) : (addDue b k a s).ras = s.ras := rfl
@[simp] theorem addDue_outs (b k : Nat) (a : Act) (s : State) : (addDue b k a s).outs = s.outs := rfl
@[simp] theorem addDue_nextXid (b k : Nat) (a : Act) (s : State) : (addDue b k a s).nextXid = s.nextXid := rfl
@[simp] theorem addDue_fabric (b k : Nat) (a : Act) (s : State) : (addDue b k a s).fabric = s.fabric := rfl
@[simp] theorem addDue_groups (b k : Nat) (a : Act) (s : State) : (addDue b k a s).groups = s.groups := rfl
@[simp] theorem addDue_dma (b k : Nat) (a : Act) (s : State) : (addDue b k a s).dma = s.dma := rfl
@[simp] theorem addDue_clerk (b k : Nat) (a : Act) (s : State) : (addDue b k a s).clerk = s.clerk := rfl
@[simp] theorem addDue_cplx (b k : Nat) (a : Act) (s : State) : (addDue b k a s).cplx = s.cplx := rfl
@[simp] theorem addDue_toss (b k : Nat) (a : Act) (s : State) : (addDue b k a s).toss = s.toss := rfl
@[simp] theorem addDue_assayer (b k : Nat) (a : Act) (s : State) : (addDue b k a s).assayer = s.assayer := rfl
@[simp] theorem addDue_boot (b k : Nat) (a : Act) (s : State) : (addDue b k a s).boot = s.boot := rfl
@[simp] theorem addDue_tests (b k : Nat) (a : Act) (s : State) : (addDue b k a s).tests = s.tests := rfl
@[simp] theorem addDue_armed (b k : Nat) (a : Act) (s : State) : (addDue b k a s).armed = s.armed := rfl
@[simp] theorem addDue_power (b k : Nat) (a : Act) (s : State) : (addDue b k a s).power = s.power := rfl
@[simp] theorem addDue_journal (b k : Nat) (a : Act) (s : State) : (addDue b k a s).journal = s.journal := rfl
@[simp] theorem addDue_freeCtr (b k : Nat) (a : Act) (s : State) : (addDue b k a s).freeCtr = s.freeCtr := rfl
@[simp] theorem addDue_pending (b k : Nat) (a : Act) (s : State) : (addDue b k a s).pending = s.pending := rfl
@[simp] theorem addDue_due (b k : Nat) (a : Act) (s : State) : (addDue b k a s).due = s.due ++ [⟨b, k, a⟩] := rfl
@[simp] theorem rd_addDue (b k : Nat) (a : Act) (s : State) (q : Fld) : rd (addDue b k a s) q = rd s q := rfl

@[simp] theorem addStep_regs (i b : Nat) (a : Act) (s : State) : (addStep i b a s).regs = s.regs := rfl
@[simp] theorem addStep_chip (i b : Nat) (a : Act) (s : State) : (addStep i b a s).chip = s.chip := rfl
@[simp] theorem addStep_time (i b : Nat) (a : Act) (s : State) : (addStep i b a s).time = s.time := rfl
@[simp] theorem addStep_harts (i b : Nat) (a : Act) (s : State) : (addStep i b a s).harts = s.harts := rfl
@[simp] theorem addStep_cores (i b : Nat) (a : Act) (s : State) : (addStep i b a s).cores = s.cores := rfl
@[simp] theorem addStep_pairs (i b : Nat) (a : Act) (s : State) : (addStep i b a s).pairs = s.pairs := rfl
@[simp] theorem addStep_slots (i b : Nat) (a : Act) (s : State) : (addStep i b a s).slots = s.slots := rfl
@[simp] theorem addStep_policy (i b : Nat) (a : Act) (s : State) : (addStep i b a s).policy = s.policy := rfl
@[simp] theorem addStep_slices (i b : Nat) (a : Act) (s : State) : (addStep i b a s).slices = s.slices := rfl
@[simp] theorem addStep_mesh (i b : Nat) (a : Act) (s : State) : (addStep i b a s).mesh = s.mesh := rfl
@[simp] theorem addStep_mem (i b : Nat) (a : Act) (s : State) : (addStep i b a s).mem = s.mem := rfl
@[simp] theorem addStep_tenants (i b : Nat) (a : Act) (s : State) : (addStep i b a s).tenants = s.tenants := rfl
@[simp] theorem addStep_mbx (i b : Nat) (a : Act) (s : State) : (addStep i b a s).mbx = s.mbx := rfl
@[simp] theorem addStep_ras (i b : Nat) (a : Act) (s : State) : (addStep i b a s).ras = s.ras := rfl
@[simp] theorem addStep_outs (i b : Nat) (a : Act) (s : State) : (addStep i b a s).outs = s.outs := rfl
@[simp] theorem addStep_nextXid (i b : Nat) (a : Act) (s : State) : (addStep i b a s).nextXid = s.nextXid := rfl
@[simp] theorem addStep_fabric (i b : Nat) (a : Act) (s : State) : (addStep i b a s).fabric = s.fabric := rfl
@[simp] theorem addStep_groups (i b : Nat) (a : Act) (s : State) : (addStep i b a s).groups = s.groups := rfl
@[simp] theorem addStep_dma (i b : Nat) (a : Act) (s : State) : (addStep i b a s).dma = s.dma := rfl
@[simp] theorem addStep_clerk (i b : Nat) (a : Act) (s : State) : (addStep i b a s).clerk = s.clerk := rfl
@[simp] theorem addStep_cplx (i b : Nat) (a : Act) (s : State) : (addStep i b a s).cplx = s.cplx := rfl
@[simp] theorem addStep_toss (i b : Nat) (a : Act) (s : State) : (addStep i b a s).toss = s.toss := rfl
@[simp] theorem addStep_assayer (i b : Nat) (a : Act) (s : State) : (addStep i b a s).assayer = s.assayer := rfl
@[simp] theorem addStep_boot (i b : Nat) (a : Act) (s : State) : (addStep i b a s).boot = s.boot := rfl
@[simp] theorem addStep_tests (i b : Nat) (a : Act) (s : State) : (addStep i b a s).tests = s.tests := rfl
@[simp] theorem addStep_armed (i b : Nat) (a : Act) (s : State) : (addStep i b a s).armed = s.armed := rfl
@[simp] theorem addStep_power (i b : Nat) (a : Act) (s : State) : (addStep i b a s).power = s.power := rfl
@[simp] theorem addStep_due (i b : Nat) (a : Act) (s : State) : (addStep i b a s).due = s.due := rfl
@[simp] theorem addStep_freeCtr (i b : Nat) (a : Act) (s : State) : (addStep i b a s).freeCtr = s.freeCtr := rfl
@[simp] theorem addStep_pending (i b : Nat) (a : Act) (s : State) : (addStep i b a s).pending = s.pending := rfl
@[simp] theorem addStep_journal (i b : Nat) (a : Act) (s : State) : (addStep i b a s).journal = s.journal ++ [⟨i, b, a⟩] := rfl
@[simp] theorem rd_addStep (i b : Nat) (a : Act) (s : State) (q : Fld) : rd (addStep i b a s) q = rd s q := rfl

@[simp] theorem setClk_regs (c : Nat) (r : ClkCore) (s : State) : (setClk c r s).regs = s.regs := rfl
@[simp] theorem setClk_chip (c : Nat) (r : ClkCore) (s : State) : (setClk c r s).chip = s.chip := rfl
@[simp] theorem setClk_time (c : Nat) (r : ClkCore) (s : State) : (setClk c r s).time = s.time := rfl
@[simp] theorem setClk_harts (c : Nat) (r : ClkCore) (s : State) : (setClk c r s).harts = s.harts := rfl
@[simp] theorem setClk_cores (c : Nat) (r : ClkCore) (s : State) : (setClk c r s).cores = s.cores := rfl
@[simp] theorem setClk_pairs (c : Nat) (r : ClkCore) (s : State) : (setClk c r s).pairs = s.pairs := rfl
@[simp] theorem setClk_slots (c : Nat) (r : ClkCore) (s : State) : (setClk c r s).slots = s.slots := rfl
@[simp] theorem setClk_policy (c : Nat) (r : ClkCore) (s : State) : (setClk c r s).policy = s.policy := rfl
@[simp] theorem setClk_slices (c : Nat) (r : ClkCore) (s : State) : (setClk c r s).slices = s.slices := rfl
@[simp] theorem setClk_mesh (c : Nat) (r : ClkCore) (s : State) : (setClk c r s).mesh = s.mesh := rfl
@[simp] theorem setClk_mem (c : Nat) (r : ClkCore) (s : State) : (setClk c r s).mem = s.mem := rfl
@[simp] theorem setClk_tenants (c : Nat) (r : ClkCore) (s : State) : (setClk c r s).tenants = s.tenants := rfl
@[simp] theorem setClk_mbx (c : Nat) (r : ClkCore) (s : State) : (setClk c r s).mbx = s.mbx := rfl
@[simp] theorem setClk_ras (c : Nat) (r : ClkCore) (s : State) : (setClk c r s).ras = s.ras := rfl
@[simp] theorem setClk_outs (c : Nat) (r : ClkCore) (s : State) : (setClk c r s).outs = s.outs := rfl
@[simp] theorem setClk_nextXid (c : Nat) (r : ClkCore) (s : State) : (setClk c r s).nextXid = s.nextXid := rfl
@[simp] theorem setClk_fabric (c : Nat) (r : ClkCore) (s : State) : (setClk c r s).fabric = s.fabric := rfl
@[simp] theorem setClk_groups (c : Nat) (r : ClkCore) (s : State) : (setClk c r s).groups = s.groups := rfl
@[simp] theorem setClk_dma (c : Nat) (r : ClkCore) (s : State) : (setClk c r s).dma = s.dma := rfl
@[simp] theorem setClk_cplx (c : Nat) (r : ClkCore) (s : State) : (setClk c r s).cplx = s.cplx := rfl
@[simp] theorem setClk_toss (c : Nat) (r : ClkCore) (s : State) : (setClk c r s).toss = s.toss := rfl
@[simp] theorem setClk_assayer (c : Nat) (r : ClkCore) (s : State) : (setClk c r s).assayer = s.assayer := rfl
@[simp] theorem setClk_boot (c : Nat) (r : ClkCore) (s : State) : (setClk c r s).boot = s.boot := rfl
@[simp] theorem setClk_tests (c : Nat) (r : ClkCore) (s : State) : (setClk c r s).tests = s.tests := rfl
@[simp] theorem setClk_armed (c : Nat) (r : ClkCore) (s : State) : (setClk c r s).armed = s.armed := rfl
@[simp] theorem setClk_power (c : Nat) (r : ClkCore) (s : State) : (setClk c r s).power = s.power := rfl
@[simp] theorem setClk_due (c : Nat) (r : ClkCore) (s : State) : (setClk c r s).due = s.due := rfl
@[simp] theorem setClk_journal (c : Nat) (r : ClkCore) (s : State) : (setClk c r s).journal = s.journal := rfl
@[simp] theorem setClk_freeCtr (c : Nat) (r : ClkCore) (s : State) : (setClk c r s).freeCtr = s.freeCtr := rfl
@[simp] theorem setClk_pending (c : Nat) (r : ClkCore) (s : State) : (setClk c r s).pending = s.pending := rfl
@[simp] theorem rd_setClk (c : Nat) (r : ClkCore) (s : State) (q : Fld) : rd (setClk c r s) q = rd s q := rfl

@[simp] theorem setMbx_regs (i : Nat) (m : Mbx) (s : State) : (setMbx i m s).regs = s.regs := rfl
@[simp] theorem setMbx_chip (i : Nat) (m : Mbx) (s : State) : (setMbx i m s).chip = s.chip := rfl
@[simp] theorem setMbx_time (i : Nat) (m : Mbx) (s : State) : (setMbx i m s).time = s.time := rfl
@[simp] theorem setMbx_harts (i : Nat) (m : Mbx) (s : State) : (setMbx i m s).harts = s.harts := rfl
@[simp] theorem setMbx_cores (i : Nat) (m : Mbx) (s : State) : (setMbx i m s).cores = s.cores := rfl
@[simp] theorem setMbx_pairs (i : Nat) (m : Mbx) (s : State) : (setMbx i m s).pairs = s.pairs := rfl
@[simp] theorem setMbx_slots (i : Nat) (m : Mbx) (s : State) : (setMbx i m s).slots = s.slots := rfl
@[simp] theorem setMbx_policy (i : Nat) (m : Mbx) (s : State) : (setMbx i m s).policy = s.policy := rfl
@[simp] theorem setMbx_slices (i : Nat) (m : Mbx) (s : State) : (setMbx i m s).slices = s.slices := rfl
@[simp] theorem setMbx_mesh (i : Nat) (m : Mbx) (s : State) : (setMbx i m s).mesh = s.mesh := rfl
@[simp] theorem setMbx_mem (i : Nat) (m : Mbx) (s : State) : (setMbx i m s).mem = s.mem := rfl
@[simp] theorem setMbx_tenants (i : Nat) (m : Mbx) (s : State) : (setMbx i m s).tenants = s.tenants := rfl
@[simp] theorem setMbx_ras (i : Nat) (m : Mbx) (s : State) : (setMbx i m s).ras = s.ras := rfl
@[simp] theorem setMbx_outs (i : Nat) (m : Mbx) (s : State) : (setMbx i m s).outs = s.outs := rfl
@[simp] theorem setMbx_nextXid (i : Nat) (m : Mbx) (s : State) : (setMbx i m s).nextXid = s.nextXid := rfl
@[simp] theorem setMbx_fabric (i : Nat) (m : Mbx) (s : State) : (setMbx i m s).fabric = s.fabric := rfl
@[simp] theorem setMbx_groups (i : Nat) (m : Mbx) (s : State) : (setMbx i m s).groups = s.groups := rfl
@[simp] theorem setMbx_dma (i : Nat) (m : Mbx) (s : State) : (setMbx i m s).dma = s.dma := rfl
@[simp] theorem setMbx_clerk (i : Nat) (m : Mbx) (s : State) : (setMbx i m s).clerk = s.clerk := rfl
@[simp] theorem setMbx_cplx (i : Nat) (m : Mbx) (s : State) : (setMbx i m s).cplx = s.cplx := rfl
@[simp] theorem setMbx_toss (i : Nat) (m : Mbx) (s : State) : (setMbx i m s).toss = s.toss := rfl
@[simp] theorem setMbx_assayer (i : Nat) (m : Mbx) (s : State) : (setMbx i m s).assayer = s.assayer := rfl
@[simp] theorem setMbx_boot (i : Nat) (m : Mbx) (s : State) : (setMbx i m s).boot = s.boot := rfl
@[simp] theorem setMbx_tests (i : Nat) (m : Mbx) (s : State) : (setMbx i m s).tests = s.tests := rfl
@[simp] theorem setMbx_armed (i : Nat) (m : Mbx) (s : State) : (setMbx i m s).armed = s.armed := rfl
@[simp] theorem setMbx_power (i : Nat) (m : Mbx) (s : State) : (setMbx i m s).power = s.power := rfl
@[simp] theorem setMbx_due (i : Nat) (m : Mbx) (s : State) : (setMbx i m s).due = s.due := rfl
@[simp] theorem setMbx_journal (i : Nat) (m : Mbx) (s : State) : (setMbx i m s).journal = s.journal := rfl
@[simp] theorem setMbx_freeCtr (i : Nat) (m : Mbx) (s : State) : (setMbx i m s).freeCtr = s.freeCtr := rfl
@[simp] theorem setMbx_pending (i : Nat) (m : Mbx) (s : State) : (setMbx i m s).pending = s.pending := rfl
@[simp] theorem rd_setMbx (i : Nat) (m : Mbx) (s : State) (q : Fld) : rd (setMbx i m s) q = rd s q := rfl

@[simp] theorem setHart_regs (h : Nat) (r : Hart) (s : State) : (setHart h r s).regs = s.regs := rfl
@[simp] theorem setHart_chip (h : Nat) (r : Hart) (s : State) : (setHart h r s).chip = s.chip := rfl
@[simp] theorem setHart_time (h : Nat) (r : Hart) (s : State) : (setHart h r s).time = s.time := rfl
@[simp] theorem setHart_cores (h : Nat) (r : Hart) (s : State) : (setHart h r s).cores = s.cores := rfl
@[simp] theorem setHart_pairs (h : Nat) (r : Hart) (s : State) : (setHart h r s).pairs = s.pairs := rfl
@[simp] theorem setHart_slots (h : Nat) (r : Hart) (s : State) : (setHart h r s).slots = s.slots := rfl
@[simp] theorem setHart_policy (h : Nat) (r : Hart) (s : State) : (setHart h r s).policy = s.policy := rfl
@[simp] theorem setHart_slices (h : Nat) (r : Hart) (s : State) : (setHart h r s).slices = s.slices := rfl
@[simp] theorem setHart_mesh (h : Nat) (r : Hart) (s : State) : (setHart h r s).mesh = s.mesh := rfl
@[simp] theorem setHart_mem (h : Nat) (r : Hart) (s : State) : (setHart h r s).mem = s.mem := rfl
@[simp] theorem setHart_tenants (h : Nat) (r : Hart) (s : State) : (setHart h r s).tenants = s.tenants := rfl
@[simp] theorem setHart_mbx (h : Nat) (r : Hart) (s : State) : (setHart h r s).mbx = s.mbx := rfl
@[simp] theorem setHart_ras (h : Nat) (r : Hart) (s : State) : (setHart h r s).ras = s.ras := rfl
@[simp] theorem setHart_outs (h : Nat) (r : Hart) (s : State) : (setHart h r s).outs = s.outs := rfl
@[simp] theorem setHart_nextXid (h : Nat) (r : Hart) (s : State) : (setHart h r s).nextXid = s.nextXid := rfl
@[simp] theorem setHart_fabric (h : Nat) (r : Hart) (s : State) : (setHart h r s).fabric = s.fabric := rfl
@[simp] theorem setHart_groups (h : Nat) (r : Hart) (s : State) : (setHart h r s).groups = s.groups := rfl
@[simp] theorem setHart_dma (h : Nat) (r : Hart) (s : State) : (setHart h r s).dma = s.dma := rfl
@[simp] theorem setHart_clerk (h : Nat) (r : Hart) (s : State) : (setHart h r s).clerk = s.clerk := rfl
@[simp] theorem setHart_cplx (h : Nat) (r : Hart) (s : State) : (setHart h r s).cplx = s.cplx := rfl
@[simp] theorem setHart_toss (h : Nat) (r : Hart) (s : State) : (setHart h r s).toss = s.toss := rfl
@[simp] theorem setHart_assayer (h : Nat) (r : Hart) (s : State) : (setHart h r s).assayer = s.assayer := rfl
@[simp] theorem setHart_boot (h : Nat) (r : Hart) (s : State) : (setHart h r s).boot = s.boot := rfl
@[simp] theorem setHart_tests (h : Nat) (r : Hart) (s : State) : (setHart h r s).tests = s.tests := rfl
@[simp] theorem setHart_armed (h : Nat) (r : Hart) (s : State) : (setHart h r s).armed = s.armed := rfl
@[simp] theorem setHart_power (h : Nat) (r : Hart) (s : State) : (setHart h r s).power = s.power := rfl
@[simp] theorem setHart_due (h : Nat) (r : Hart) (s : State) : (setHart h r s).due = s.due := rfl
@[simp] theorem setHart_journal (h : Nat) (r : Hart) (s : State) : (setHart h r s).journal = s.journal := rfl
@[simp] theorem setHart_freeCtr (h : Nat) (r : Hart) (s : State) : (setHart h r s).freeCtr = s.freeCtr := rfl
@[simp] theorem setHart_pending (h : Nat) (r : Hart) (s : State) : (setHart h r s).pending = s.pending := rfl
@[simp] theorem rd_setHart (h : Nat) (r : Hart) (s : State) (q : Fld) : rd (setHart h r s) q = rd s q := rfl

@[simp] theorem setCore_regs (c : Nat) (r : Core) (s : State) : (setCore c r s).regs = s.regs := rfl
@[simp] theorem setCore_chip (c : Nat) (r : Core) (s : State) : (setCore c r s).chip = s.chip := rfl
@[simp] theorem setCore_time (c : Nat) (r : Core) (s : State) : (setCore c r s).time = s.time := rfl
@[simp] theorem setCore_harts (c : Nat) (r : Core) (s : State) : (setCore c r s).harts = s.harts := rfl
@[simp] theorem setCore_pairs (c : Nat) (r : Core) (s : State) : (setCore c r s).pairs = s.pairs := rfl
@[simp] theorem setCore_slots (c : Nat) (r : Core) (s : State) : (setCore c r s).slots = s.slots := rfl
@[simp] theorem setCore_policy (c : Nat) (r : Core) (s : State) : (setCore c r s).policy = s.policy := rfl
@[simp] theorem setCore_slices (c : Nat) (r : Core) (s : State) : (setCore c r s).slices = s.slices := rfl
@[simp] theorem setCore_mesh (c : Nat) (r : Core) (s : State) : (setCore c r s).mesh = s.mesh := rfl
@[simp] theorem setCore_mem (c : Nat) (r : Core) (s : State) : (setCore c r s).mem = s.mem := rfl
@[simp] theorem setCore_tenants (c : Nat) (r : Core) (s : State) : (setCore c r s).tenants = s.tenants := rfl
@[simp] theorem setCore_mbx (c : Nat) (r : Core) (s : State) : (setCore c r s).mbx = s.mbx := rfl
@[simp] theorem setCore_ras (c : Nat) (r : Core) (s : State) : (setCore c r s).ras = s.ras := rfl
@[simp] theorem setCore_outs (c : Nat) (r : Core) (s : State) : (setCore c r s).outs = s.outs := rfl
@[simp] theorem setCore_nextXid (c : Nat) (r : Core) (s : State) : (setCore c r s).nextXid = s.nextXid := rfl
@[simp] theorem setCore_fabric (c : Nat) (r : Core) (s : State) : (setCore c r s).fabric = s.fabric := rfl
@[simp] theorem setCore_groups (c : Nat) (r : Core) (s : State) : (setCore c r s).groups = s.groups := rfl
@[simp] theorem setCore_dma (c : Nat) (r : Core) (s : State) : (setCore c r s).dma = s.dma := rfl
@[simp] theorem setCore_clerk (c : Nat) (r : Core) (s : State) : (setCore c r s).clerk = s.clerk := rfl
@[simp] theorem setCore_cplx (c : Nat) (r : Core) (s : State) : (setCore c r s).cplx = s.cplx := rfl
@[simp] theorem setCore_toss (c : Nat) (r : Core) (s : State) : (setCore c r s).toss = s.toss := rfl
@[simp] theorem setCore_assayer (c : Nat) (r : Core) (s : State) : (setCore c r s).assayer = s.assayer := rfl
@[simp] theorem setCore_boot (c : Nat) (r : Core) (s : State) : (setCore c r s).boot = s.boot := rfl
@[simp] theorem setCore_tests (c : Nat) (r : Core) (s : State) : (setCore c r s).tests = s.tests := rfl
@[simp] theorem setCore_armed (c : Nat) (r : Core) (s : State) : (setCore c r s).armed = s.armed := rfl
@[simp] theorem setCore_power (c : Nat) (r : Core) (s : State) : (setCore c r s).power = s.power := rfl
@[simp] theorem setCore_due (c : Nat) (r : Core) (s : State) : (setCore c r s).due = s.due := rfl
@[simp] theorem setCore_journal (c : Nat) (r : Core) (s : State) : (setCore c r s).journal = s.journal := rfl
@[simp] theorem setCore_freeCtr (c : Nat) (r : Core) (s : State) : (setCore c r s).freeCtr = s.freeCtr := rfl
@[simp] theorem setCore_pending (c : Nat) (r : Core) (s : State) : (setCore c r s).pending = s.pending := rfl
@[simp] theorem rd_setCore (c : Nat) (r : Core) (s : State) (q : Fld) : rd (setCore c r s) q = rd s q := rfl

@[simp] theorem setPair_regs (p : Nat) (r : Pair) (s : State) : (setPair p r s).regs = s.regs := rfl
@[simp] theorem setPair_chip (p : Nat) (r : Pair) (s : State) : (setPair p r s).chip = s.chip := rfl
@[simp] theorem setPair_time (p : Nat) (r : Pair) (s : State) : (setPair p r s).time = s.time := rfl
@[simp] theorem setPair_harts (p : Nat) (r : Pair) (s : State) : (setPair p r s).harts = s.harts := rfl
@[simp] theorem setPair_cores (p : Nat) (r : Pair) (s : State) : (setPair p r s).cores = s.cores := rfl
@[simp] theorem setPair_slots (p : Nat) (r : Pair) (s : State) : (setPair p r s).slots = s.slots := rfl
@[simp] theorem setPair_policy (p : Nat) (r : Pair) (s : State) : (setPair p r s).policy = s.policy := rfl
@[simp] theorem setPair_slices (p : Nat) (r : Pair) (s : State) : (setPair p r s).slices = s.slices := rfl
@[simp] theorem setPair_mesh (p : Nat) (r : Pair) (s : State) : (setPair p r s).mesh = s.mesh := rfl
@[simp] theorem setPair_mem (p : Nat) (r : Pair) (s : State) : (setPair p r s).mem = s.mem := rfl
@[simp] theorem setPair_tenants (p : Nat) (r : Pair) (s : State) : (setPair p r s).tenants = s.tenants := rfl
@[simp] theorem setPair_mbx (p : Nat) (r : Pair) (s : State) : (setPair p r s).mbx = s.mbx := rfl
@[simp] theorem setPair_ras (p : Nat) (r : Pair) (s : State) : (setPair p r s).ras = s.ras := rfl
@[simp] theorem setPair_outs (p : Nat) (r : Pair) (s : State) : (setPair p r s).outs = s.outs := rfl
@[simp] theorem setPair_nextXid (p : Nat) (r : Pair) (s : State) : (setPair p r s).nextXid = s.nextXid := rfl
@[simp] theorem setPair_fabric (p : Nat) (r : Pair) (s : State) : (setPair p r s).fabric = s.fabric := rfl
@[simp] theorem setPair_groups (p : Nat) (r : Pair) (s : State) : (setPair p r s).groups = s.groups := rfl
@[simp] theorem setPair_dma (p : Nat) (r : Pair) (s : State) : (setPair p r s).dma = s.dma := rfl
@[simp] theorem setPair_clerk (p : Nat) (r : Pair) (s : State) : (setPair p r s).clerk = s.clerk := rfl
@[simp] theorem setPair_cplx (p : Nat) (r : Pair) (s : State) : (setPair p r s).cplx = s.cplx := rfl
@[simp] theorem setPair_toss (p : Nat) (r : Pair) (s : State) : (setPair p r s).toss = s.toss := rfl
@[simp] theorem setPair_assayer (p : Nat) (r : Pair) (s : State) : (setPair p r s).assayer = s.assayer := rfl
@[simp] theorem setPair_boot (p : Nat) (r : Pair) (s : State) : (setPair p r s).boot = s.boot := rfl
@[simp] theorem setPair_tests (p : Nat) (r : Pair) (s : State) : (setPair p r s).tests = s.tests := rfl
@[simp] theorem setPair_armed (p : Nat) (r : Pair) (s : State) : (setPair p r s).armed = s.armed := rfl
@[simp] theorem setPair_power (p : Nat) (r : Pair) (s : State) : (setPair p r s).power = s.power := rfl
@[simp] theorem setPair_due (p : Nat) (r : Pair) (s : State) : (setPair p r s).due = s.due := rfl
@[simp] theorem setPair_journal (p : Nat) (r : Pair) (s : State) : (setPair p r s).journal = s.journal := rfl
@[simp] theorem setPair_freeCtr (p : Nat) (r : Pair) (s : State) : (setPair p r s).freeCtr = s.freeCtr := rfl
@[simp] theorem setPair_pending (p : Nat) (r : Pair) (s : State) : (setPair p r s).pending = s.pending := rfl
@[simp] theorem rd_setPair (p : Nat) (r : Pair) (s : State) (q : Fld) : rd (setPair p r s) q = rd s q := rfl

@[simp] theorem setSlice_regs (n : Nat) (r : Slice) (s : State) : (setSlice n r s).regs = s.regs := rfl
@[simp] theorem setSlice_chip (n : Nat) (r : Slice) (s : State) : (setSlice n r s).chip = s.chip := rfl
@[simp] theorem setSlice_time (n : Nat) (r : Slice) (s : State) : (setSlice n r s).time = s.time := rfl
@[simp] theorem setSlice_harts (n : Nat) (r : Slice) (s : State) : (setSlice n r s).harts = s.harts := rfl
@[simp] theorem setSlice_cores (n : Nat) (r : Slice) (s : State) : (setSlice n r s).cores = s.cores := rfl
@[simp] theorem setSlice_pairs (n : Nat) (r : Slice) (s : State) : (setSlice n r s).pairs = s.pairs := rfl
@[simp] theorem setSlice_slots (n : Nat) (r : Slice) (s : State) : (setSlice n r s).slots = s.slots := rfl
@[simp] theorem setSlice_policy (n : Nat) (r : Slice) (s : State) : (setSlice n r s).policy = s.policy := rfl
@[simp] theorem setSlice_mesh (n : Nat) (r : Slice) (s : State) : (setSlice n r s).mesh = s.mesh := rfl
@[simp] theorem setSlice_mem (n : Nat) (r : Slice) (s : State) : (setSlice n r s).mem = s.mem := rfl
@[simp] theorem setSlice_tenants (n : Nat) (r : Slice) (s : State) : (setSlice n r s).tenants = s.tenants := rfl
@[simp] theorem setSlice_mbx (n : Nat) (r : Slice) (s : State) : (setSlice n r s).mbx = s.mbx := rfl
@[simp] theorem setSlice_ras (n : Nat) (r : Slice) (s : State) : (setSlice n r s).ras = s.ras := rfl
@[simp] theorem setSlice_outs (n : Nat) (r : Slice) (s : State) : (setSlice n r s).outs = s.outs := rfl
@[simp] theorem setSlice_nextXid (n : Nat) (r : Slice) (s : State) : (setSlice n r s).nextXid = s.nextXid := rfl
@[simp] theorem setSlice_fabric (n : Nat) (r : Slice) (s : State) : (setSlice n r s).fabric = s.fabric := rfl
@[simp] theorem setSlice_groups (n : Nat) (r : Slice) (s : State) : (setSlice n r s).groups = s.groups := rfl
@[simp] theorem setSlice_dma (n : Nat) (r : Slice) (s : State) : (setSlice n r s).dma = s.dma := rfl
@[simp] theorem setSlice_clerk (n : Nat) (r : Slice) (s : State) : (setSlice n r s).clerk = s.clerk := rfl
@[simp] theorem setSlice_cplx (n : Nat) (r : Slice) (s : State) : (setSlice n r s).cplx = s.cplx := rfl
@[simp] theorem setSlice_toss (n : Nat) (r : Slice) (s : State) : (setSlice n r s).toss = s.toss := rfl
@[simp] theorem setSlice_assayer (n : Nat) (r : Slice) (s : State) : (setSlice n r s).assayer = s.assayer := rfl
@[simp] theorem setSlice_boot (n : Nat) (r : Slice) (s : State) : (setSlice n r s).boot = s.boot := rfl
@[simp] theorem setSlice_tests (n : Nat) (r : Slice) (s : State) : (setSlice n r s).tests = s.tests := rfl
@[simp] theorem setSlice_armed (n : Nat) (r : Slice) (s : State) : (setSlice n r s).armed = s.armed := rfl
@[simp] theorem setSlice_power (n : Nat) (r : Slice) (s : State) : (setSlice n r s).power = s.power := rfl
@[simp] theorem setSlice_due (n : Nat) (r : Slice) (s : State) : (setSlice n r s).due = s.due := rfl
@[simp] theorem setSlice_journal (n : Nat) (r : Slice) (s : State) : (setSlice n r s).journal = s.journal := rfl
@[simp] theorem setSlice_freeCtr (n : Nat) (r : Slice) (s : State) : (setSlice n r s).freeCtr = s.freeCtr := rfl
@[simp] theorem setSlice_pending (n : Nat) (r : Slice) (s : State) : (setSlice n r s).pending = s.pending := rfl
@[simp] theorem rd_setSlice (n : Nat) (r : Slice) (s : State) (q : Fld) : rd (setSlice n r s) q = rd s q := rfl

@[simp] theorem setMem_regs (m : Mem) (s : State) : (setMem m s).regs = s.regs := rfl
@[simp] theorem setMem_chip (m : Mem) (s : State) : (setMem m s).chip = s.chip := rfl
@[simp] theorem setMem_time (m : Mem) (s : State) : (setMem m s).time = s.time := rfl
@[simp] theorem setMem_harts (m : Mem) (s : State) : (setMem m s).harts = s.harts := rfl
@[simp] theorem setMem_cores (m : Mem) (s : State) : (setMem m s).cores = s.cores := rfl
@[simp] theorem setMem_pairs (m : Mem) (s : State) : (setMem m s).pairs = s.pairs := rfl
@[simp] theorem setMem_slots (m : Mem) (s : State) : (setMem m s).slots = s.slots := rfl
@[simp] theorem setMem_policy (m : Mem) (s : State) : (setMem m s).policy = s.policy := rfl
@[simp] theorem setMem_slices (m : Mem) (s : State) : (setMem m s).slices = s.slices := rfl
@[simp] theorem setMem_mesh (m : Mem) (s : State) : (setMem m s).mesh = s.mesh := rfl
@[simp] theorem setMem_tenants (m : Mem) (s : State) : (setMem m s).tenants = s.tenants := rfl
@[simp] theorem setMem_mbx (m : Mem) (s : State) : (setMem m s).mbx = s.mbx := rfl
@[simp] theorem setMem_ras (m : Mem) (s : State) : (setMem m s).ras = s.ras := rfl
@[simp] theorem setMem_outs (m : Mem) (s : State) : (setMem m s).outs = s.outs := rfl
@[simp] theorem setMem_nextXid (m : Mem) (s : State) : (setMem m s).nextXid = s.nextXid := rfl
@[simp] theorem setMem_fabric (m : Mem) (s : State) : (setMem m s).fabric = s.fabric := rfl
@[simp] theorem setMem_groups (m : Mem) (s : State) : (setMem m s).groups = s.groups := rfl
@[simp] theorem setMem_dma (m : Mem) (s : State) : (setMem m s).dma = s.dma := rfl
@[simp] theorem setMem_clerk (m : Mem) (s : State) : (setMem m s).clerk = s.clerk := rfl
@[simp] theorem setMem_cplx (m : Mem) (s : State) : (setMem m s).cplx = s.cplx := rfl
@[simp] theorem setMem_toss (m : Mem) (s : State) : (setMem m s).toss = s.toss := rfl
@[simp] theorem setMem_assayer (m : Mem) (s : State) : (setMem m s).assayer = s.assayer := rfl
@[simp] theorem setMem_boot (m : Mem) (s : State) : (setMem m s).boot = s.boot := rfl
@[simp] theorem setMem_tests (m : Mem) (s : State) : (setMem m s).tests = s.tests := rfl
@[simp] theorem setMem_armed (m : Mem) (s : State) : (setMem m s).armed = s.armed := rfl
@[simp] theorem setMem_power (m : Mem) (s : State) : (setMem m s).power = s.power := rfl
@[simp] theorem setMem_due (m : Mem) (s : State) : (setMem m s).due = s.due := rfl
@[simp] theorem setMem_journal (m : Mem) (s : State) : (setMem m s).journal = s.journal := rfl
@[simp] theorem setMem_freeCtr (m : Mem) (s : State) : (setMem m s).freeCtr = s.freeCtr := rfl
@[simp] theorem setMem_pending (m : Mem) (s : State) : (setMem m s).pending = s.pending := rfl
@[simp] theorem setMem_mem (m : Mem) (s : State) : (setMem m s).mem = m := rfl
@[simp] theorem rd_setMem (m : Mem) (s : State) (q : Fld) : rd (setMem m s) q = rd s q := rfl

@[simp] theorem setChan_regs (c : Nat) (r : Chan) (s : State) : (setChan c r s).regs = s.regs := rfl
@[simp] theorem setChan_chip (c : Nat) (r : Chan) (s : State) : (setChan c r s).chip = s.chip := rfl
@[simp] theorem setChan_time (c : Nat) (r : Chan) (s : State) : (setChan c r s).time = s.time := rfl
@[simp] theorem setChan_harts (c : Nat) (r : Chan) (s : State) : (setChan c r s).harts = s.harts := rfl
@[simp] theorem setChan_cores (c : Nat) (r : Chan) (s : State) : (setChan c r s).cores = s.cores := rfl
@[simp] theorem setChan_pairs (c : Nat) (r : Chan) (s : State) : (setChan c r s).pairs = s.pairs := rfl
@[simp] theorem setChan_slots (c : Nat) (r : Chan) (s : State) : (setChan c r s).slots = s.slots := rfl
@[simp] theorem setChan_policy (c : Nat) (r : Chan) (s : State) : (setChan c r s).policy = s.policy := rfl
@[simp] theorem setChan_slices (c : Nat) (r : Chan) (s : State) : (setChan c r s).slices = s.slices := rfl
@[simp] theorem setChan_mesh (c : Nat) (r : Chan) (s : State) : (setChan c r s).mesh = s.mesh := rfl
@[simp] theorem setChan_tenants (c : Nat) (r : Chan) (s : State) : (setChan c r s).tenants = s.tenants := rfl
@[simp] theorem setChan_mbx (c : Nat) (r : Chan) (s : State) : (setChan c r s).mbx = s.mbx := rfl
@[simp] theorem setChan_ras (c : Nat) (r : Chan) (s : State) : (setChan c r s).ras = s.ras := rfl
@[simp] theorem setChan_outs (c : Nat) (r : Chan) (s : State) : (setChan c r s).outs = s.outs := rfl
@[simp] theorem setChan_nextXid (c : Nat) (r : Chan) (s : State) : (setChan c r s).nextXid = s.nextXid := rfl
@[simp] theorem setChan_fabric (c : Nat) (r : Chan) (s : State) : (setChan c r s).fabric = s.fabric := rfl
@[simp] theorem setChan_groups (c : Nat) (r : Chan) (s : State) : (setChan c r s).groups = s.groups := rfl
@[simp] theorem setChan_dma (c : Nat) (r : Chan) (s : State) : (setChan c r s).dma = s.dma := rfl
@[simp] theorem setChan_clerk (c : Nat) (r : Chan) (s : State) : (setChan c r s).clerk = s.clerk := rfl
@[simp] theorem setChan_cplx (c : Nat) (r : Chan) (s : State) : (setChan c r s).cplx = s.cplx := rfl
@[simp] theorem setChan_toss (c : Nat) (r : Chan) (s : State) : (setChan c r s).toss = s.toss := rfl
@[simp] theorem setChan_assayer (c : Nat) (r : Chan) (s : State) : (setChan c r s).assayer = s.assayer := rfl
@[simp] theorem setChan_boot (c : Nat) (r : Chan) (s : State) : (setChan c r s).boot = s.boot := rfl
@[simp] theorem setChan_tests (c : Nat) (r : Chan) (s : State) : (setChan c r s).tests = s.tests := rfl
@[simp] theorem setChan_armed (c : Nat) (r : Chan) (s : State) : (setChan c r s).armed = s.armed := rfl
@[simp] theorem setChan_power (c : Nat) (r : Chan) (s : State) : (setChan c r s).power = s.power := rfl
@[simp] theorem setChan_due (c : Nat) (r : Chan) (s : State) : (setChan c r s).due = s.due := rfl
@[simp] theorem setChan_journal (c : Nat) (r : Chan) (s : State) : (setChan c r s).journal = s.journal := rfl
@[simp] theorem setChan_freeCtr (c : Nat) (r : Chan) (s : State) : (setChan c r s).freeCtr = s.freeCtr := rfl
@[simp] theorem setChan_pending (c : Nat) (r : Chan) (s : State) : (setChan c r s).pending = s.pending := rfl
theorem setChan_mem (c : Nat) (r : Chan) (s : State) : (setChan c r s).mem = { s.mem with chans := tset {} s.mem.chans c r } := rfl
@[simp] theorem rd_setChan (c : Nat) (r : Chan) (s : State) (q : Fld) : rd (setChan c r s) q = rd s q := rfl

@[simp] theorem setTenant_regs (t : Nat) (r : Tenant) (s : State) : (setTenant t r s).regs = s.regs := rfl
@[simp] theorem setTenant_chip (t : Nat) (r : Tenant) (s : State) : (setTenant t r s).chip = s.chip := rfl
@[simp] theorem setTenant_time (t : Nat) (r : Tenant) (s : State) : (setTenant t r s).time = s.time := rfl
@[simp] theorem setTenant_harts (t : Nat) (r : Tenant) (s : State) : (setTenant t r s).harts = s.harts := rfl
@[simp] theorem setTenant_cores (t : Nat) (r : Tenant) (s : State) : (setTenant t r s).cores = s.cores := rfl
@[simp] theorem setTenant_pairs (t : Nat) (r : Tenant) (s : State) : (setTenant t r s).pairs = s.pairs := rfl
@[simp] theorem setTenant_slots (t : Nat) (r : Tenant) (s : State) : (setTenant t r s).slots = s.slots := rfl
@[simp] theorem setTenant_policy (t : Nat) (r : Tenant) (s : State) : (setTenant t r s).policy = s.policy := rfl
@[simp] theorem setTenant_slices (t : Nat) (r : Tenant) (s : State) : (setTenant t r s).slices = s.slices := rfl
@[simp] theorem setTenant_mesh (t : Nat) (r : Tenant) (s : State) : (setTenant t r s).mesh = s.mesh := rfl
@[simp] theorem setTenant_mem (t : Nat) (r : Tenant) (s : State) : (setTenant t r s).mem = s.mem := rfl
@[simp] theorem setTenant_mbx (t : Nat) (r : Tenant) (s : State) : (setTenant t r s).mbx = s.mbx := rfl
@[simp] theorem setTenant_ras (t : Nat) (r : Tenant) (s : State) : (setTenant t r s).ras = s.ras := rfl
@[simp] theorem setTenant_outs (t : Nat) (r : Tenant) (s : State) : (setTenant t r s).outs = s.outs := rfl
@[simp] theorem setTenant_nextXid (t : Nat) (r : Tenant) (s : State) : (setTenant t r s).nextXid = s.nextXid := rfl
@[simp] theorem setTenant_fabric (t : Nat) (r : Tenant) (s : State) : (setTenant t r s).fabric = s.fabric := rfl
@[simp] theorem setTenant_groups (t : Nat) (r : Tenant) (s : State) : (setTenant t r s).groups = s.groups := rfl
@[simp] theorem setTenant_dma (t : Nat) (r : Tenant) (s : State) : (setTenant t r s).dma = s.dma := rfl
@[simp] theorem setTenant_clerk (t : Nat) (r : Tenant) (s : State) : (setTenant t r s).clerk = s.clerk := rfl
@[simp] theorem setTenant_cplx (t : Nat) (r : Tenant) (s : State) : (setTenant t r s).cplx = s.cplx := rfl
@[simp] theorem setTenant_toss (t : Nat) (r : Tenant) (s : State) : (setTenant t r s).toss = s.toss := rfl
@[simp] theorem setTenant_assayer (t : Nat) (r : Tenant) (s : State) : (setTenant t r s).assayer = s.assayer := rfl
@[simp] theorem setTenant_boot (t : Nat) (r : Tenant) (s : State) : (setTenant t r s).boot = s.boot := rfl
@[simp] theorem setTenant_tests (t : Nat) (r : Tenant) (s : State) : (setTenant t r s).tests = s.tests := rfl
@[simp] theorem setTenant_armed (t : Nat) (r : Tenant) (s : State) : (setTenant t r s).armed = s.armed := rfl
@[simp] theorem setTenant_power (t : Nat) (r : Tenant) (s : State) : (setTenant t r s).power = s.power := rfl
@[simp] theorem setTenant_due (t : Nat) (r : Tenant) (s : State) : (setTenant t r s).due = s.due := rfl
@[simp] theorem setTenant_journal (t : Nat) (r : Tenant) (s : State) : (setTenant t r s).journal = s.journal := rfl
@[simp] theorem setTenant_freeCtr (t : Nat) (r : Tenant) (s : State) : (setTenant t r s).freeCtr = s.freeCtr := rfl
@[simp] theorem setTenant_pending (t : Nat) (r : Tenant) (s : State) : (setTenant t r s).pending = s.pending := rfl
@[simp] theorem rd_setTenant (t : Nat) (r : Tenant) (s : State) (q : Fld) : rd (setTenant t r s) q = rd s q := rfl

@[simp] theorem setDma_regs (d : Nat) (r : DmaCh) (s : State) : (setDma d r s).regs = s.regs := rfl
@[simp] theorem setDma_chip (d : Nat) (r : DmaCh) (s : State) : (setDma d r s).chip = s.chip := rfl
@[simp] theorem setDma_time (d : Nat) (r : DmaCh) (s : State) : (setDma d r s).time = s.time := rfl
@[simp] theorem setDma_harts (d : Nat) (r : DmaCh) (s : State) : (setDma d r s).harts = s.harts := rfl
@[simp] theorem setDma_cores (d : Nat) (r : DmaCh) (s : State) : (setDma d r s).cores = s.cores := rfl
@[simp] theorem setDma_pairs (d : Nat) (r : DmaCh) (s : State) : (setDma d r s).pairs = s.pairs := rfl
@[simp] theorem setDma_slots (d : Nat) (r : DmaCh) (s : State) : (setDma d r s).slots = s.slots := rfl
@[simp] theorem setDma_policy (d : Nat) (r : DmaCh) (s : State) : (setDma d r s).policy = s.policy := rfl
@[simp] theorem setDma_slices (d : Nat) (r : DmaCh) (s : State) : (setDma d r s).slices = s.slices := rfl
@[simp] theorem setDma_mesh (d : Nat) (r : DmaCh) (s : State) : (setDma d r s).mesh = s.mesh := rfl
@[simp] theorem setDma_mem (d : Nat) (r : DmaCh) (s : State) : (setDma d r s).mem = s.mem := rfl
@[simp] theorem setDma_tenants (d : Nat) (r : DmaCh) (s : State) : (setDma d r s).tenants = s.tenants := rfl
@[simp] theorem setDma_mbx (d : Nat) (r : DmaCh) (s : State) : (setDma d r s).mbx = s.mbx := rfl
@[simp] theorem setDma_ras (d : Nat) (r : DmaCh) (s : State) : (setDma d r s).ras = s.ras := rfl
@[simp] theorem setDma_outs (d : Nat) (r : DmaCh) (s : State) : (setDma d r s).outs = s.outs := rfl
@[simp] theorem setDma_nextXid (d : Nat) (r : DmaCh) (s : State) : (setDma d r s).nextXid = s.nextXid := rfl
@[simp] theorem setDma_fabric (d : Nat) (r : DmaCh) (s : State) : (setDma d r s).fabric = s.fabric := rfl
@[simp] theorem setDma_groups (d : Nat) (r : DmaCh) (s : State) : (setDma d r s).groups = s.groups := rfl
@[simp] theorem setDma_clerk (d : Nat) (r : DmaCh) (s : State) : (setDma d r s).clerk = s.clerk := rfl
@[simp] theorem setDma_cplx (d : Nat) (r : DmaCh) (s : State) : (setDma d r s).cplx = s.cplx := rfl
@[simp] theorem setDma_toss (d : Nat) (r : DmaCh) (s : State) : (setDma d r s).toss = s.toss := rfl
@[simp] theorem setDma_assayer (d : Nat) (r : DmaCh) (s : State) : (setDma d r s).assayer = s.assayer := rfl
@[simp] theorem setDma_boot (d : Nat) (r : DmaCh) (s : State) : (setDma d r s).boot = s.boot := rfl
@[simp] theorem setDma_tests (d : Nat) (r : DmaCh) (s : State) : (setDma d r s).tests = s.tests := rfl
@[simp] theorem setDma_armed (d : Nat) (r : DmaCh) (s : State) : (setDma d r s).armed = s.armed := rfl
@[simp] theorem setDma_power (d : Nat) (r : DmaCh) (s : State) : (setDma d r s).power = s.power := rfl
@[simp] theorem setDma_due (d : Nat) (r : DmaCh) (s : State) : (setDma d r s).due = s.due := rfl
@[simp] theorem setDma_journal (d : Nat) (r : DmaCh) (s : State) : (setDma d r s).journal = s.journal := rfl
@[simp] theorem setDma_freeCtr (d : Nat) (r : DmaCh) (s : State) : (setDma d r s).freeCtr = s.freeCtr := rfl
@[simp] theorem setDma_pending (d : Nat) (r : DmaCh) (s : State) : (setDma d r s).pending = s.pending := rfl
@[simp] theorem rd_setDma (d : Nat) (r : DmaCh) (s : State) (q : Fld) : rd (setDma d r s) q = rd s q := rfl

@[simp] theorem setGroup_regs (g : Nat) (r : Group) (s : State) : (setGroup g r s).regs = s.regs := rfl
@[simp] theorem setGroup_chip (g : Nat) (r : Group) (s : State) : (setGroup g r s).chip = s.chip := rfl
@[simp] theorem setGroup_time (g : Nat) (r : Group) (s : State) : (setGroup g r s).time = s.time := rfl
@[simp] theorem setGroup_harts (g : Nat) (r : Group) (s : State) : (setGroup g r s).harts = s.harts := rfl
@[simp] theorem setGroup_cores (g : Nat) (r : Group) (s : State) : (setGroup g r s).cores = s.cores := rfl
@[simp] theorem setGroup_pairs (g : Nat) (r : Group) (s : State) : (setGroup g r s).pairs = s.pairs := rfl
@[simp] theorem setGroup_slots (g : Nat) (r : Group) (s : State) : (setGroup g r s).slots = s.slots := rfl
@[simp] theorem setGroup_policy (g : Nat) (r : Group) (s : State) : (setGroup g r s).policy = s.policy := rfl
@[simp] theorem setGroup_slices (g : Nat) (r : Group) (s : State) : (setGroup g r s).slices = s.slices := rfl
@[simp] theorem setGroup_mesh (g : Nat) (r : Group) (s : State) : (setGroup g r s).mesh = s.mesh := rfl
@[simp] theorem setGroup_mem (g : Nat) (r : Group) (s : State) : (setGroup g r s).mem = s.mem := rfl
@[simp] theorem setGroup_tenants (g : Nat) (r : Group) (s : State) : (setGroup g r s).tenants = s.tenants := rfl
@[simp] theorem setGroup_mbx (g : Nat) (r : Group) (s : State) : (setGroup g r s).mbx = s.mbx := rfl
@[simp] theorem setGroup_ras (g : Nat) (r : Group) (s : State) : (setGroup g r s).ras = s.ras := rfl
@[simp] theorem setGroup_outs (g : Nat) (r : Group) (s : State) : (setGroup g r s).outs = s.outs := rfl
@[simp] theorem setGroup_nextXid (g : Nat) (r : Group) (s : State) : (setGroup g r s).nextXid = s.nextXid := rfl
@[simp] theorem setGroup_fabric (g : Nat) (r : Group) (s : State) : (setGroup g r s).fabric = s.fabric := rfl
@[simp] theorem setGroup_dma (g : Nat) (r : Group) (s : State) : (setGroup g r s).dma = s.dma := rfl
@[simp] theorem setGroup_clerk (g : Nat) (r : Group) (s : State) : (setGroup g r s).clerk = s.clerk := rfl
@[simp] theorem setGroup_cplx (g : Nat) (r : Group) (s : State) : (setGroup g r s).cplx = s.cplx := rfl
@[simp] theorem setGroup_toss (g : Nat) (r : Group) (s : State) : (setGroup g r s).toss = s.toss := rfl
@[simp] theorem setGroup_assayer (g : Nat) (r : Group) (s : State) : (setGroup g r s).assayer = s.assayer := rfl
@[simp] theorem setGroup_boot (g : Nat) (r : Group) (s : State) : (setGroup g r s).boot = s.boot := rfl
@[simp] theorem setGroup_tests (g : Nat) (r : Group) (s : State) : (setGroup g r s).tests = s.tests := rfl
@[simp] theorem setGroup_armed (g : Nat) (r : Group) (s : State) : (setGroup g r s).armed = s.armed := rfl
@[simp] theorem setGroup_power (g : Nat) (r : Group) (s : State) : (setGroup g r s).power = s.power := rfl
@[simp] theorem setGroup_due (g : Nat) (r : Group) (s : State) : (setGroup g r s).due = s.due := rfl
@[simp] theorem setGroup_journal (g : Nat) (r : Group) (s : State) : (setGroup g r s).journal = s.journal := rfl
@[simp] theorem setGroup_freeCtr (g : Nat) (r : Group) (s : State) : (setGroup g r s).freeCtr = s.freeCtr := rfl
@[simp] theorem setGroup_pending (g : Nat) (r : Group) (s : State) : (setGroup g r s).pending = s.pending := rfl
@[simp] theorem rd_setGroup (g : Nat) (r : Group) (s : State) (q : Fld) : rd (setGroup g r s) q = rd s q := rfl

@[simp] theorem setFab_regs (f : Fabric) (s : State) : (setFab f s).regs = s.regs := rfl
@[simp] theorem setFab_chip (f : Fabric) (s : State) : (setFab f s).chip = s.chip := rfl
@[simp] theorem setFab_time (f : Fabric) (s : State) : (setFab f s).time = s.time := rfl
@[simp] theorem setFab_harts (f : Fabric) (s : State) : (setFab f s).harts = s.harts := rfl
@[simp] theorem setFab_cores (f : Fabric) (s : State) : (setFab f s).cores = s.cores := rfl
@[simp] theorem setFab_pairs (f : Fabric) (s : State) : (setFab f s).pairs = s.pairs := rfl
@[simp] theorem setFab_slots (f : Fabric) (s : State) : (setFab f s).slots = s.slots := rfl
@[simp] theorem setFab_policy (f : Fabric) (s : State) : (setFab f s).policy = s.policy := rfl
@[simp] theorem setFab_slices (f : Fabric) (s : State) : (setFab f s).slices = s.slices := rfl
@[simp] theorem setFab_mesh (f : Fabric) (s : State) : (setFab f s).mesh = s.mesh := rfl
@[simp] theorem setFab_mem (f : Fabric) (s : State) : (setFab f s).mem = s.mem := rfl
@[simp] theorem setFab_tenants (f : Fabric) (s : State) : (setFab f s).tenants = s.tenants := rfl
@[simp] theorem setFab_mbx (f : Fabric) (s : State) : (setFab f s).mbx = s.mbx := rfl
@[simp] theorem setFab_ras (f : Fabric) (s : State) : (setFab f s).ras = s.ras := rfl
@[simp] theorem setFab_outs (f : Fabric) (s : State) : (setFab f s).outs = s.outs := rfl
@[simp] theorem setFab_nextXid (f : Fabric) (s : State) : (setFab f s).nextXid = s.nextXid := rfl
@[simp] theorem setFab_groups (f : Fabric) (s : State) : (setFab f s).groups = s.groups := rfl
@[simp] theorem setFab_dma (f : Fabric) (s : State) : (setFab f s).dma = s.dma := rfl
@[simp] theorem setFab_clerk (f : Fabric) (s : State) : (setFab f s).clerk = s.clerk := rfl
@[simp] theorem setFab_cplx (f : Fabric) (s : State) : (setFab f s).cplx = s.cplx := rfl
@[simp] theorem setFab_toss (f : Fabric) (s : State) : (setFab f s).toss = s.toss := rfl
@[simp] theorem setFab_assayer (f : Fabric) (s : State) : (setFab f s).assayer = s.assayer := rfl
@[simp] theorem setFab_boot (f : Fabric) (s : State) : (setFab f s).boot = s.boot := rfl
@[simp] theorem setFab_tests (f : Fabric) (s : State) : (setFab f s).tests = s.tests := rfl
@[simp] theorem setFab_armed (f : Fabric) (s : State) : (setFab f s).armed = s.armed := rfl
@[simp] theorem setFab_power (f : Fabric) (s : State) : (setFab f s).power = s.power := rfl
@[simp] theorem setFab_due (f : Fabric) (s : State) : (setFab f s).due = s.due := rfl
@[simp] theorem setFab_journal (f : Fabric) (s : State) : (setFab f s).journal = s.journal := rfl
@[simp] theorem setFab_freeCtr (f : Fabric) (s : State) : (setFab f s).freeCtr = s.freeCtr := rfl
@[simp] theorem setFab_pending (f : Fabric) (s : State) : (setFab f s).pending = s.pending := rfl
@[simp] theorem setFab_fabric (f : Fabric) (s : State) : (setFab f s).fabric = f := rfl
@[simp] theorem rd_setFab (f : Fabric) (s : State) (q : Fld) : rd (setFab f s) q = rd s q := rfl

@[simp] theorem setTime_regs (t : TimeSt) (s : State) : (setTime t s).regs = s.regs := rfl
@[simp] theorem setTime_chip (t : TimeSt) (s : State) : (setTime t s).chip = s.chip := rfl
@[simp] theorem setTime_harts (t : TimeSt) (s : State) : (setTime t s).harts = s.harts := rfl
@[simp] theorem setTime_cores (t : TimeSt) (s : State) : (setTime t s).cores = s.cores := rfl
@[simp] theorem setTime_pairs (t : TimeSt) (s : State) : (setTime t s).pairs = s.pairs := rfl
@[simp] theorem setTime_slots (t : TimeSt) (s : State) : (setTime t s).slots = s.slots := rfl
@[simp] theorem setTime_policy (t : TimeSt) (s : State) : (setTime t s).policy = s.policy := rfl
@[simp] theorem setTime_slices (t : TimeSt) (s : State) : (setTime t s).slices = s.slices := rfl
@[simp] theorem setTime_mesh (t : TimeSt) (s : State) : (setTime t s).mesh = s.mesh := rfl
@[simp] theorem setTime_mem (t : TimeSt) (s : State) : (setTime t s).mem = s.mem := rfl
@[simp] theorem setTime_tenants (t : TimeSt) (s : State) : (setTime t s).tenants = s.tenants := rfl
@[simp] theorem setTime_mbx (t : TimeSt) (s : State) : (setTime t s).mbx = s.mbx := rfl
@[simp] theorem setTime_ras (t : TimeSt) (s : State) : (setTime t s).ras = s.ras := rfl
@[simp] theorem setTime_outs (t : TimeSt) (s : State) : (setTime t s).outs = s.outs := rfl
@[simp] theorem setTime_nextXid (t : TimeSt) (s : State) : (setTime t s).nextXid = s.nextXid := rfl
@[simp] theorem setTime_fabric (t : TimeSt) (s : State) : (setTime t s).fabric = s.fabric := rfl
@[simp] theorem setTime_groups (t : TimeSt) (s : State) : (setTime t s).groups = s.groups := rfl
@[simp] theorem setTime_dma (t : TimeSt) (s : State) : (setTime t s).dma = s.dma := rfl
@[simp] theorem setTime_clerk (t : TimeSt) (s : State) : (setTime t s).clerk = s.clerk := rfl
@[simp] theorem setTime_cplx (t : TimeSt) (s : State) : (setTime t s).cplx = s.cplx := rfl
@[simp] theorem setTime_toss (t : TimeSt) (s : State) : (setTime t s).toss = s.toss := rfl
@[simp] theorem setTime_assayer (t : TimeSt) (s : State) : (setTime t s).assayer = s.assayer := rfl
@[simp] theorem setTime_boot (t : TimeSt) (s : State) : (setTime t s).boot = s.boot := rfl
@[simp] theorem setTime_tests (t : TimeSt) (s : State) : (setTime t s).tests = s.tests := rfl
@[simp] theorem setTime_armed (t : TimeSt) (s : State) : (setTime t s).armed = s.armed := rfl
@[simp] theorem setTime_power (t : TimeSt) (s : State) : (setTime t s).power = s.power := rfl
@[simp] theorem setTime_due (t : TimeSt) (s : State) : (setTime t s).due = s.due := rfl
@[simp] theorem setTime_journal (t : TimeSt) (s : State) : (setTime t s).journal = s.journal := rfl
@[simp] theorem setTime_freeCtr (t : TimeSt) (s : State) : (setTime t s).freeCtr = s.freeCtr := rfl
@[simp] theorem setTime_pending (t : TimeSt) (s : State) : (setTime t s).pending = s.pending := rfl
@[simp] theorem setTime_time (t : TimeSt) (s : State) : (setTime t s).time = t := rfl
@[simp] theorem rd_setTime (t : TimeSt) (s : State) (q : Fld) : rd (setTime t s) q = rd s q := rfl

@[simp] theorem setToss_regs (t : Toss) (s : State) : (setToss t s).regs = s.regs := rfl
@[simp] theorem setToss_chip (t : Toss) (s : State) : (setToss t s).chip = s.chip := rfl
@[simp] theorem setToss_time (t : Toss) (s : State) : (setToss t s).time = s.time := rfl
@[simp] theorem setToss_harts (t : Toss) (s : State) : (setToss t s).harts = s.harts := rfl
@[simp] theorem setToss_cores (t : Toss) (s : State) : (setToss t s).cores = s.cores := rfl
@[simp] theorem setToss_pairs (t : Toss) (s : State) : (setToss t s).pairs = s.pairs := rfl
@[simp] theorem setToss_slots (t : Toss) (s : State) : (setToss t s).slots = s.slots := rfl
@[simp] theorem setToss_policy (t : Toss) (s : State) : (setToss t s).policy = s.policy := rfl
@[simp] theorem setToss_slices (t : Toss) (s : State) : (setToss t s).slices = s.slices := rfl
@[simp] theorem setToss_mesh (t : Toss) (s : State) : (setToss t s).mesh = s.mesh := rfl
@[simp] theorem setToss_mem (t : Toss) (s : State) : (setToss t s).mem = s.mem := rfl
@[simp] theorem setToss_tenants (t : Toss) (s : State) : (setToss t s).tenants = s.tenants := rfl
@[simp] theorem setToss_mbx (t : Toss) (s : State) : (setToss t s).mbx = s.mbx := rfl
@[simp] theorem setToss_ras (t : Toss) (s : State) : (setToss t s).ras = s.ras := rfl
@[simp] theorem setToss_outs (t : Toss) (s : State) : (setToss t s).outs = s.outs := rfl
@[simp] theorem setToss_nextXid (t : Toss) (s : State) : (setToss t s).nextXid = s.nextXid := rfl
@[simp] theorem setToss_fabric (t : Toss) (s : State) : (setToss t s).fabric = s.fabric := rfl
@[simp] theorem setToss_groups (t : Toss) (s : State) : (setToss t s).groups = s.groups := rfl
@[simp] theorem setToss_dma (t : Toss) (s : State) : (setToss t s).dma = s.dma := rfl
@[simp] theorem setToss_clerk (t : Toss) (s : State) : (setToss t s).clerk = s.clerk := rfl
@[simp] theorem setToss_cplx (t : Toss) (s : State) : (setToss t s).cplx = s.cplx := rfl
@[simp] theorem setToss_assayer (t : Toss) (s : State) : (setToss t s).assayer = s.assayer := rfl
@[simp] theorem setToss_boot (t : Toss) (s : State) : (setToss t s).boot = s.boot := rfl
@[simp] theorem setToss_tests (t : Toss) (s : State) : (setToss t s).tests = s.tests := rfl
@[simp] theorem setToss_armed (t : Toss) (s : State) : (setToss t s).armed = s.armed := rfl
@[simp] theorem setToss_power (t : Toss) (s : State) : (setToss t s).power = s.power := rfl
@[simp] theorem setToss_due (t : Toss) (s : State) : (setToss t s).due = s.due := rfl
@[simp] theorem setToss_journal (t : Toss) (s : State) : (setToss t s).journal = s.journal := rfl
@[simp] theorem setToss_freeCtr (t : Toss) (s : State) : (setToss t s).freeCtr = s.freeCtr := rfl
@[simp] theorem setToss_pending (t : Toss) (s : State) : (setToss t s).pending = s.pending := rfl
@[simp] theorem setToss_toss (t : Toss) (s : State) : (setToss t s).toss = t := rfl
@[simp] theorem rd_setToss (t : Toss) (s : State) (q : Fld) : rd (setToss t s) q = rd s q := rfl

@[simp] theorem setAssayer_regs (a : Assayer) (s : State) : (setAssayer a s).regs = s.regs := rfl
@[simp] theorem setAssayer_chip (a : Assayer) (s : State) : (setAssayer a s).chip = s.chip := rfl
@[simp] theorem setAssayer_time (a : Assayer) (s : State) : (setAssayer a s).time = s.time := rfl
@[simp] theorem setAssayer_harts (a : Assayer) (s : State) : (setAssayer a s).harts = s.harts := rfl
@[simp] theorem setAssayer_cores (a : Assayer) (s : State) : (setAssayer a s).cores = s.cores := rfl
@[simp] theorem setAssayer_pairs (a : Assayer) (s : State) : (setAssayer a s).pairs = s.pairs := rfl
@[simp] theorem setAssayer_slots (a : Assayer) (s : State) : (setAssayer a s).slots = s.slots := rfl
@[simp] theorem setAssayer_policy (a : Assayer) (s : State) : (setAssayer a s).policy = s.policy := rfl
@[simp] theorem setAssayer_slices (a : Assayer) (s : State) : (setAssayer a s).slices = s.slices := rfl
@[simp] theorem setAssayer_mesh (a : Assayer) (s : State) : (setAssayer a s).mesh = s.mesh := rfl
@[simp] theorem setAssayer_mem (a : Assayer) (s : State) : (setAssayer a s).mem = s.mem := rfl
@[simp] theorem setAssayer_tenants (a : Assayer) (s : State) : (setAssayer a s).tenants = s.tenants := rfl
@[simp] theorem setAssayer_mbx (a : Assayer) (s : State) : (setAssayer a s).mbx = s.mbx := rfl
@[simp] theorem setAssayer_ras (a : Assayer) (s : State) : (setAssayer a s).ras = s.ras := rfl
@[simp] theorem setAssayer_outs (a : Assayer) (s : State) : (setAssayer a s).outs = s.outs := rfl
@[simp] theorem setAssayer_nextXid (a : Assayer) (s : State) : (setAssayer a s).nextXid = s.nextXid := rfl
@[simp] theorem setAssayer_fabric (a : Assayer) (s : State) : (setAssayer a s).fabric = s.fabric := rfl
@[simp] theorem setAssayer_groups (a : Assayer) (s : State) : (setAssayer a s).groups = s.groups := rfl
@[simp] theorem setAssayer_dma (a : Assayer) (s : State) : (setAssayer a s).dma = s.dma := rfl
@[simp] theorem setAssayer_clerk (a : Assayer) (s : State) : (setAssayer a s).clerk = s.clerk := rfl
@[simp] theorem setAssayer_cplx (a : Assayer) (s : State) : (setAssayer a s).cplx = s.cplx := rfl
@[simp] theorem setAssayer_toss (a : Assayer) (s : State) : (setAssayer a s).toss = s.toss := rfl
@[simp] theorem setAssayer_boot (a : Assayer) (s : State) : (setAssayer a s).boot = s.boot := rfl
@[simp] theorem setAssayer_tests (a : Assayer) (s : State) : (setAssayer a s).tests = s.tests := rfl
@[simp] theorem setAssayer_armed (a : Assayer) (s : State) : (setAssayer a s).armed = s.armed := rfl
@[simp] theorem setAssayer_power (a : Assayer) (s : State) : (setAssayer a s).power = s.power := rfl
@[simp] theorem setAssayer_due (a : Assayer) (s : State) : (setAssayer a s).due = s.due := rfl
@[simp] theorem setAssayer_journal (a : Assayer) (s : State) : (setAssayer a s).journal = s.journal := rfl
@[simp] theorem setAssayer_freeCtr (a : Assayer) (s : State) : (setAssayer a s).freeCtr = s.freeCtr := rfl
@[simp] theorem setAssayer_pending (a : Assayer) (s : State) : (setAssayer a s).pending = s.pending := rfl
@[simp] theorem setAssayer_assayer (a : Assayer) (s : State) : (setAssayer a s).assayer = a := rfl
@[simp] theorem rd_setAssayer (a : Assayer) (s : State) (q : Fld) : rd (setAssayer a s) q = rd s q := rfl

@[simp] theorem setPower_regs (p : Power) (s : State) : (setPower p s).regs = s.regs := rfl
@[simp] theorem setPower_chip (p : Power) (s : State) : (setPower p s).chip = s.chip := rfl
@[simp] theorem setPower_time (p : Power) (s : State) : (setPower p s).time = s.time := rfl
@[simp] theorem setPower_harts (p : Power) (s : State) : (setPower p s).harts = s.harts := rfl
@[simp] theorem setPower_cores (p : Power) (s : State) : (setPower p s).cores = s.cores := rfl
@[simp] theorem setPower_pairs (p : Power) (s : State) : (setPower p s).pairs = s.pairs := rfl
@[simp] theorem setPower_slots (p : Power) (s : State) : (setPower p s).slots = s.slots := rfl
@[simp] theorem setPower_policy (p : Power) (s : State) : (setPower p s).policy = s.policy := rfl
@[simp] theorem setPower_slices (p : Power) (s : State) : (setPower p s).slices = s.slices := rfl
@[simp] theorem setPower_mesh (p : Power) (s : State) : (setPower p s).mesh = s.mesh := rfl
@[simp] theorem setPower_mem (p : Power) (s : State) : (setPower p s).mem = s.mem := rfl
@[simp] theorem setPower_tenants (p : Power) (s : State) : (setPower p s).tenants = s.tenants := rfl
@[simp] theorem setPower_mbx (p : Power) (s : State) : (setPower p s).mbx = s.mbx := rfl
@[simp] theorem setPower_ras (p : Power) (s : State) : (setPower p s).ras = s.ras := rfl
@[simp] theorem setPower_outs (p : Power) (s : State) : (setPower p s).outs = s.outs := rfl
@[simp] theorem setPower_nextXid (p : Power) (s : State) : (setPower p s).nextXid = s.nextXid := rfl
@[simp] theorem setPower_fabric (p : Power) (s : State) : (setPower p s).fabric = s.fabric := rfl
@[simp] theorem setPower_groups (p : Power) (s : State) : (setPower p s).groups = s.groups := rfl
@[simp] theorem setPower_dma (p : Power) (s : State) : (setPower p s).dma = s.dma := rfl
@[simp] theorem setPower_clerk (p : Power) (s : State) : (setPower p s).clerk = s.clerk := rfl
@[simp] theorem setPower_cplx (p : Power) (s : State) : (setPower p s).cplx = s.cplx := rfl
@[simp] theorem setPower_toss (p : Power) (s : State) : (setPower p s).toss = s.toss := rfl
@[simp] theorem setPower_assayer (p : Power) (s : State) : (setPower p s).assayer = s.assayer := rfl
@[simp] theorem setPower_boot (p : Power) (s : State) : (setPower p s).boot = s.boot := rfl
@[simp] theorem setPower_tests (p : Power) (s : State) : (setPower p s).tests = s.tests := rfl
@[simp] theorem setPower_armed (p : Power) (s : State) : (setPower p s).armed = s.armed := rfl
@[simp] theorem setPower_due (p : Power) (s : State) : (setPower p s).due = s.due := rfl
@[simp] theorem setPower_journal (p : Power) (s : State) : (setPower p s).journal = s.journal := rfl
@[simp] theorem setPower_freeCtr (p : Power) (s : State) : (setPower p s).freeCtr = s.freeCtr := rfl
@[simp] theorem setPower_pending (p : Power) (s : State) : (setPower p s).pending = s.pending := rfl
@[simp] theorem setPower_power (p : Power) (s : State) : (setPower p s).power = p := rfl
@[simp] theorem rd_setPower (p : Power) (s : State) (q : Fld) : rd (setPower p s) q = rd s q := rfl

@[simp] theorem modCplx_regs (x : Nat) (f : Complex → Complex) (s : State) : (modCplx x f s).regs = s.regs := rfl
@[simp] theorem modCplx_chip (x : Nat) (f : Complex → Complex) (s : State) : (modCplx x f s).chip = s.chip := rfl
@[simp] theorem modCplx_time (x : Nat) (f : Complex → Complex) (s : State) : (modCplx x f s).time = s.time := rfl
@[simp] theorem modCplx_harts (x : Nat) (f : Complex → Complex) (s : State) : (modCplx x f s).harts = s.harts := rfl
@[simp] theorem modCplx_cores (x : Nat) (f : Complex → Complex) (s : State) : (modCplx x f s).cores = s.cores := rfl
@[simp] theorem modCplx_pairs (x : Nat) (f : Complex → Complex) (s : State) : (modCplx x f s).pairs = s.pairs := rfl
@[simp] theorem modCplx_slots (x : Nat) (f : Complex → Complex) (s : State) : (modCplx x f s).slots = s.slots := rfl
@[simp] theorem modCplx_policy (x : Nat) (f : Complex → Complex) (s : State) : (modCplx x f s).policy = s.policy := rfl
@[simp] theorem modCplx_slices (x : Nat) (f : Complex → Complex) (s : State) : (modCplx x f s).slices = s.slices := rfl
@[simp] theorem modCplx_mesh (x : Nat) (f : Complex → Complex) (s : State) : (modCplx x f s).mesh = s.mesh := rfl
@[simp] theorem modCplx_mem (x : Nat) (f : Complex → Complex) (s : State) : (modCplx x f s).mem = s.mem := rfl
@[simp] theorem modCplx_tenants (x : Nat) (f : Complex → Complex) (s : State) : (modCplx x f s).tenants = s.tenants := rfl
@[simp] theorem modCplx_mbx (x : Nat) (f : Complex → Complex) (s : State) : (modCplx x f s).mbx = s.mbx := rfl
@[simp] theorem modCplx_ras (x : Nat) (f : Complex → Complex) (s : State) : (modCplx x f s).ras = s.ras := rfl
@[simp] theorem modCplx_outs (x : Nat) (f : Complex → Complex) (s : State) : (modCplx x f s).outs = s.outs := rfl
@[simp] theorem modCplx_nextXid (x : Nat) (f : Complex → Complex) (s : State) : (modCplx x f s).nextXid = s.nextXid := rfl
@[simp] theorem modCplx_fabric (x : Nat) (f : Complex → Complex) (s : State) : (modCplx x f s).fabric = s.fabric := rfl
@[simp] theorem modCplx_groups (x : Nat) (f : Complex → Complex) (s : State) : (modCplx x f s).groups = s.groups := rfl
@[simp] theorem modCplx_dma (x : Nat) (f : Complex → Complex) (s : State) : (modCplx x f s).dma = s.dma := rfl
@[simp] theorem modCplx_clerk (x : Nat) (f : Complex → Complex) (s : State) : (modCplx x f s).clerk = s.clerk := rfl
@[simp] theorem modCplx_toss (x : Nat) (f : Complex → Complex) (s : State) : (modCplx x f s).toss = s.toss := rfl
@[simp] theorem modCplx_assayer (x : Nat) (f : Complex → Complex) (s : State) : (modCplx x f s).assayer = s.assayer := rfl
@[simp] theorem modCplx_boot (x : Nat) (f : Complex → Complex) (s : State) : (modCplx x f s).boot = s.boot := rfl
@[simp] theorem modCplx_tests (x : Nat) (f : Complex → Complex) (s : State) : (modCplx x f s).tests = s.tests := rfl
@[simp] theorem modCplx_armed (x : Nat) (f : Complex → Complex) (s : State) : (modCplx x f s).armed = s.armed := rfl
@[simp] theorem modCplx_power (x : Nat) (f : Complex → Complex) (s : State) : (modCplx x f s).power = s.power := rfl
@[simp] theorem modCplx_due (x : Nat) (f : Complex → Complex) (s : State) : (modCplx x f s).due = s.due := rfl
@[simp] theorem modCplx_journal (x : Nat) (f : Complex → Complex) (s : State) : (modCplx x f s).journal = s.journal := rfl
@[simp] theorem modCplx_freeCtr (x : Nat) (f : Complex → Complex) (s : State) : (modCplx x f s).freeCtr = s.freeCtr := rfl
@[simp] theorem modCplx_pending (x : Nat) (f : Complex → Complex) (s : State) : (modCplx x f s).pending = s.pending := rfl
theorem modCplx_cplx (x : Nat) (f : Complex → Complex) (s : State) : (modCplx x f s).cplx = tset {} s.cplx x (f (cplxOf s x)) := rfl
@[simp] theorem rd_modCplx (x : Nat) (f : Complex → Complex) (s : State) (q : Fld) : rd (modCplx x f s) q = rd s q := rfl

@[simp] theorem modBoot_regs (f : Boot → Boot) (s : State) : (modBoot f s).regs = s.regs := rfl
@[simp] theorem modBoot_chip (f : Boot → Boot) (s : State) : (modBoot f s).chip = s.chip := rfl
@[simp] theorem modBoot_time (f : Boot → Boot) (s : State) : (modBoot f s).time = s.time := rfl
@[simp] theorem modBoot_harts (f : Boot → Boot) (s : State) : (modBoot f s).harts = s.harts := rfl
@[simp] theorem modBoot_cores (f : Boot → Boot) (s : State) : (modBoot f s).cores = s.cores := rfl
@[simp] theorem modBoot_pairs (f : Boot → Boot) (s : State) : (modBoot f s).pairs = s.pairs := rfl
@[simp] theorem modBoot_slots (f : Boot → Boot) (s : State) : (modBoot f s).slots = s.slots := rfl
@[simp] theorem modBoot_policy (f : Boot → Boot) (s : State) : (modBoot f s).policy = s.policy := rfl
@[simp] theorem modBoot_slices (f : Boot → Boot) (s : State) : (modBoot f s).slices = s.slices := rfl
@[simp] theorem modBoot_mesh (f : Boot → Boot) (s : State) : (modBoot f s).mesh = s.mesh := rfl
@[simp] theorem modBoot_mem (f : Boot → Boot) (s : State) : (modBoot f s).mem = s.mem := rfl
@[simp] theorem modBoot_tenants (f : Boot → Boot) (s : State) : (modBoot f s).tenants = s.tenants := rfl
@[simp] theorem modBoot_mbx (f : Boot → Boot) (s : State) : (modBoot f s).mbx = s.mbx := rfl
@[simp] theorem modBoot_ras (f : Boot → Boot) (s : State) : (modBoot f s).ras = s.ras := rfl
@[simp] theorem modBoot_outs (f : Boot → Boot) (s : State) : (modBoot f s).outs = s.outs := rfl
@[simp] theorem modBoot_nextXid (f : Boot → Boot) (s : State) : (modBoot f s).nextXid = s.nextXid := rfl
@[simp] theorem modBoot_fabric (f : Boot → Boot) (s : State) : (modBoot f s).fabric = s.fabric := rfl
@[simp] theorem modBoot_groups (f : Boot → Boot) (s : State) : (modBoot f s).groups = s.groups := rfl
@[simp] theorem modBoot_dma (f : Boot → Boot) (s : State) : (modBoot f s).dma = s.dma := rfl
@[simp] theorem modBoot_clerk (f : Boot → Boot) (s : State) : (modBoot f s).clerk = s.clerk := rfl
@[simp] theorem modBoot_cplx (f : Boot → Boot) (s : State) : (modBoot f s).cplx = s.cplx := rfl
@[simp] theorem modBoot_toss (f : Boot → Boot) (s : State) : (modBoot f s).toss = s.toss := rfl
@[simp] theorem modBoot_assayer (f : Boot → Boot) (s : State) : (modBoot f s).assayer = s.assayer := rfl
@[simp] theorem modBoot_tests (f : Boot → Boot) (s : State) : (modBoot f s).tests = s.tests := rfl
@[simp] theorem modBoot_armed (f : Boot → Boot) (s : State) : (modBoot f s).armed = s.armed := rfl
@[simp] theorem modBoot_power (f : Boot → Boot) (s : State) : (modBoot f s).power = s.power := rfl
@[simp] theorem modBoot_due (f : Boot → Boot) (s : State) : (modBoot f s).due = s.due := rfl
@[simp] theorem modBoot_journal (f : Boot → Boot) (s : State) : (modBoot f s).journal = s.journal := rfl
@[simp] theorem modBoot_freeCtr (f : Boot → Boot) (s : State) : (modBoot f s).freeCtr = s.freeCtr := rfl
@[simp] theorem modBoot_pending (f : Boot → Boot) (s : State) : (modBoot f s).pending = s.pending := rfl
@[simp] theorem modBoot_boot (f : Boot → Boot) (s : State) : (modBoot f s).boot = f s.boot := rfl
@[simp] theorem rd_modBoot (f : Boot → Boot) (s : State) (q : Fld) : rd (modBoot f s) q = rd s q := rfl

@[simp] theorem setClk_clkOf_same (c : Nat) (r : ClkCore) (s : State) : clkOf (setClk c r s) c = r := tget_tset_same _ _ _ _
theorem setClk_clkOf_ne (c : Nat) (r : ClkCore) (s : State) (j : Nat) (hj : j ≠ c) : clkOf (setClk c r s) j = clkOf s j := tget_tset_ne _ _ _ _ _ hj
@[simp] theorem wr_clkOf (f : Fld) (v : Nat) (s : State) (j : Nat) : clkOf (wr f v s) j = clkOf s j := rfl
@[simp] theorem freeNext_clkOf (s : State) (j : Nat) : clkOf (freeNext s) j = clkOf s j := rfl
@[simp] theorem addDue_clkOf (b k : Nat) (a : Act) (s : State) (j : Nat) : clkOf (addDue b k a s) j = clkOf s j := rfl
@[simp] theorem addStep_clkOf (i b : Nat) (a : Act) (s : State) (j : Nat) : clkOf (addStep i b a s) j = clkOf s j := rfl
@[simp] theorem setMbx_clkOf (i : Nat) (m : Mbx) (s : State) (j : Nat) : clkOf (setMbx i m s) j = clkOf s j := rfl
@[simp] theorem setHart_clkOf (h : Nat) (r : Hart) (s : State) (j : Nat) : clkOf (setHart h r s) j = clkOf s j := rfl
@[simp] theorem setCore_clkOf (c : Nat) (r : Core) (s : State) (j : Nat) : clkOf (setCore c r s) j = clkOf s j := rfl
@[simp] theorem setPair_clkOf (p : Nat) (r : Pair) (s : State) (j : Nat) : clkOf (setPair p r s) j = clkOf s j := rfl
@[simp] theorem setSlice_clkOf (n : Nat) (r : Slice) (s : State) (j : Nat) : clkOf (setSlice n r s) j = clkOf s j := rfl
@[simp] theorem setMem_clkOf (m : Mem) (s : State) (j : Nat) : clkOf (setMem m s) j = clkOf s j := rfl
@[simp] theorem setChan_clkOf (c : Nat) (r : Chan) (s : State) (j : Nat) : clkOf (setChan c r s) j = clkOf s j := rfl
@[simp] theorem setTenant_clkOf (t : Nat) (r : Tenant) (s : State) (j : Nat) : clkOf (setTenant t r s) j = clkOf s j := rfl
@[simp] theorem setDma_clkOf (d : Nat) (r : DmaCh) (s : State) (j : Nat) : clkOf (setDma d r s) j = clkOf s j := rfl
@[simp] theorem setGroup_clkOf (g : Nat) (r : Group) (s : State) (j : Nat) : clkOf (setGroup g r s) j = clkOf s j := rfl
@[simp] theorem setFab_clkOf (f : Fabric) (s : State) (j : Nat) : clkOf (setFab f s) j = clkOf s j := rfl
@[simp] theorem setTime_clkOf (t : TimeSt) (s : State) (j : Nat) : clkOf (setTime t s) j = clkOf s j := rfl
@[simp] theorem setToss_clkOf (t : Toss) (s : State) (j : Nat) : clkOf (setToss t s) j = clkOf s j := rfl
@[simp] theorem setAssayer_clkOf (a : Assayer) (s : State) (j : Nat) : clkOf (setAssayer a s) j = clkOf s j := rfl
@[simp] theorem setPower_clkOf (p : Power) (s : State) (j : Nat) : clkOf (setPower p s) j = clkOf s j := rfl
@[simp] theorem modCplx_clkOf (x : Nat) (f : Complex → Complex) (s : State) (j : Nat) : clkOf (modCplx x f s) j = clkOf s j := rfl
@[simp] theorem modBoot_clkOf (f : Boot → Boot) (s : State) (j : Nat) : clkOf (modBoot f s) j = clkOf s j := rfl

@[simp] theorem setMbx_mbxOf_same (i : Nat) (m : Mbx) (s : State) : mbxOf (setMbx i m s) i = m := tget_tset_same _ _ _ _
theorem setMbx_mbxOf_ne (i : Nat) (m : Mbx) (s : State) (j : Nat) (hj : j ≠ i) : mbxOf (setMbx i m s) j = mbxOf s j := tget_tset_ne _ _ _ _ _ hj
@[simp] theorem wr_mbxOf (f : Fld) (v : Nat) (s : State) (j : Nat) : mbxOf (wr f v s) j = mbxOf s j := rfl
@[simp] theorem freeNext_mbxOf (s : State) (j : Nat) : mbxOf (freeNext s) j = mbxOf s j := rfl
@[simp] theorem addDue_mbxOf (b k : Nat) (a : Act) (s : State) (j : Nat) : mbxOf (addDue b k a s) j = mbxOf s j := rfl
@[simp] theorem addStep_mbxOf (i b : Nat) (a : Act) (s : State) (j : Nat) : mbxOf (addStep i b a s) j = mbxOf s j := rfl
@[simp] theorem setClk_mbxOf (c : Nat) (r : ClkCore) (s : State) (j : Nat) : mbxOf (setClk c r s) j = mbxOf s j := rfl
@[simp] theorem setHart_mbxOf (h : Nat) (r : Hart) (s : State) (j : Nat) : mbxOf (setHart h r s) j = mbxOf s j := rfl
@[simp] theorem setCore_mbxOf (c : Nat) (r : Core) (s : State) (j : Nat) : mbxOf (setCore c r s) j = mbxOf s j := rfl
@[simp] theorem setPair_mbxOf (p : Nat) (r : Pair) (s : State) (j : Nat) : mbxOf (setPair p r s) j = mbxOf s j := rfl
@[simp] theorem setSlice_mbxOf (n : Nat) (r : Slice) (s : State) (j : Nat) : mbxOf (setSlice n r s) j = mbxOf s j := rfl
@[simp] theorem setMem_mbxOf (m : Mem) (s : State) (j : Nat) : mbxOf (setMem m s) j = mbxOf s j := rfl
@[simp] theorem setChan_mbxOf (c : Nat) (r : Chan) (s : State) (j : Nat) : mbxOf (setChan c r s) j = mbxOf s j := rfl
@[simp] theorem setTenant_mbxOf (t : Nat) (r : Tenant) (s : State) (j : Nat) : mbxOf (setTenant t r s) j = mbxOf s j := rfl
@[simp] theorem setDma_mbxOf (d : Nat) (r : DmaCh) (s : State) (j : Nat) : mbxOf (setDma d r s) j = mbxOf s j := rfl
@[simp] theorem setGroup_mbxOf (g : Nat) (r : Group) (s : State) (j : Nat) : mbxOf (setGroup g r s) j = mbxOf s j := rfl
@[simp] theorem setFab_mbxOf (f : Fabric) (s : State) (j : Nat) : mbxOf (setFab f s) j = mbxOf s j := rfl
@[simp] theorem setTime_mbxOf (t : TimeSt) (s : State) (j : Nat) : mbxOf (setTime t s) j = mbxOf s j := rfl
@[simp] theorem setToss_mbxOf (t : Toss) (s : State) (j : Nat) : mbxOf (setToss t s) j = mbxOf s j := rfl
@[simp] theorem setAssayer_mbxOf (a : Assayer) (s : State) (j : Nat) : mbxOf (setAssayer a s) j = mbxOf s j := rfl
@[simp] theorem setPower_mbxOf (p : Power) (s : State) (j : Nat) : mbxOf (setPower p s) j = mbxOf s j := rfl
@[simp] theorem modCplx_mbxOf (x : Nat) (f : Complex → Complex) (s : State) (j : Nat) : mbxOf (modCplx x f s) j = mbxOf s j := rfl
@[simp] theorem modBoot_mbxOf (f : Boot → Boot) (s : State) (j : Nat) : mbxOf (modBoot f s) j = mbxOf s j := rfl

@[simp] theorem setHart_hartOf_same (h : Nat) (r : Hart) (s : State) : hartOf (setHart h r s) h = r := tget_tset_same _ _ _ _
theorem setHart_hartOf_ne (h : Nat) (r : Hart) (s : State) (j : Nat) (hj : j ≠ h) : hartOf (setHart h r s) j = hartOf s j := tget_tset_ne _ _ _ _ _ hj
@[simp] theorem wr_hartOf (f : Fld) (v : Nat) (s : State) (j : Nat) : hartOf (wr f v s) j = hartOf s j := rfl
@[simp] theorem freeNext_hartOf (s : State) (j : Nat) : hartOf (freeNext s) j = hartOf s j := rfl
@[simp] theorem addDue_hartOf (b k : Nat) (a : Act) (s : State) (j : Nat) : hartOf (addDue b k a s) j = hartOf s j := rfl
@[simp] theorem addStep_hartOf (i b : Nat) (a : Act) (s : State) (j : Nat) : hartOf (addStep i b a s) j = hartOf s j := rfl
@[simp] theorem setClk_hartOf (c : Nat) (r : ClkCore) (s : State) (j : Nat) : hartOf (setClk c r s) j = hartOf s j := rfl
@[simp] theorem setMbx_hartOf (i : Nat) (m : Mbx) (s : State) (j : Nat) : hartOf (setMbx i m s) j = hartOf s j := rfl
@[simp] theorem setCore_hartOf (c : Nat) (r : Core) (s : State) (j : Nat) : hartOf (setCore c r s) j = hartOf s j := rfl
@[simp] theorem setPair_hartOf (p : Nat) (r : Pair) (s : State) (j : Nat) : hartOf (setPair p r s) j = hartOf s j := rfl
@[simp] theorem setSlice_hartOf (n : Nat) (r : Slice) (s : State) (j : Nat) : hartOf (setSlice n r s) j = hartOf s j := rfl
@[simp] theorem setMem_hartOf (m : Mem) (s : State) (j : Nat) : hartOf (setMem m s) j = hartOf s j := rfl
@[simp] theorem setChan_hartOf (c : Nat) (r : Chan) (s : State) (j : Nat) : hartOf (setChan c r s) j = hartOf s j := rfl
@[simp] theorem setTenant_hartOf (t : Nat) (r : Tenant) (s : State) (j : Nat) : hartOf (setTenant t r s) j = hartOf s j := rfl
@[simp] theorem setDma_hartOf (d : Nat) (r : DmaCh) (s : State) (j : Nat) : hartOf (setDma d r s) j = hartOf s j := rfl
@[simp] theorem setGroup_hartOf (g : Nat) (r : Group) (s : State) (j : Nat) : hartOf (setGroup g r s) j = hartOf s j := rfl
@[simp] theorem setFab_hartOf (f : Fabric) (s : State) (j : Nat) : hartOf (setFab f s) j = hartOf s j := rfl
@[simp] theorem setTime_hartOf (t : TimeSt) (s : State) (j : Nat) : hartOf (setTime t s) j = hartOf s j := rfl
@[simp] theorem setToss_hartOf (t : Toss) (s : State) (j : Nat) : hartOf (setToss t s) j = hartOf s j := rfl
@[simp] theorem setAssayer_hartOf (a : Assayer) (s : State) (j : Nat) : hartOf (setAssayer a s) j = hartOf s j := rfl
@[simp] theorem setPower_hartOf (p : Power) (s : State) (j : Nat) : hartOf (setPower p s) j = hartOf s j := rfl
@[simp] theorem modCplx_hartOf (x : Nat) (f : Complex → Complex) (s : State) (j : Nat) : hartOf (modCplx x f s) j = hartOf s j := rfl
@[simp] theorem modBoot_hartOf (f : Boot → Boot) (s : State) (j : Nat) : hartOf (modBoot f s) j = hartOf s j := rfl

@[simp] theorem setCore_coreOf_same (c : Nat) (r : Core) (s : State) : coreOf (setCore c r s) c = r := tget_tset_same _ _ _ _
theorem setCore_coreOf_ne (c : Nat) (r : Core) (s : State) (j : Nat) (hj : j ≠ c) : coreOf (setCore c r s) j = coreOf s j := tget_tset_ne _ _ _ _ _ hj
@[simp] theorem wr_coreOf (f : Fld) (v : Nat) (s : State) (j : Nat) : coreOf (wr f v s) j = coreOf s j := rfl
@[simp] theorem freeNext_coreOf (s : State) (j : Nat) : coreOf (freeNext s) j = coreOf s j := rfl
@[simp] theorem addDue_coreOf (b k : Nat) (a : Act) (s : State) (j : Nat) : coreOf (addDue b k a s) j = coreOf s j := rfl
@[simp] theorem addStep_coreOf (i b : Nat) (a : Act) (s : State) (j : Nat) : coreOf (addStep i b a s) j = coreOf s j := rfl
@[simp] theorem setClk_coreOf (c : Nat) (r : ClkCore) (s : State) (j : Nat) : coreOf (setClk c r s) j = coreOf s j := rfl
@[simp] theorem setMbx_coreOf (i : Nat) (m : Mbx) (s : State) (j : Nat) : coreOf (setMbx i m s) j = coreOf s j := rfl
@[simp] theorem setHart_coreOf (h : Nat) (r : Hart) (s : State) (j : Nat) : coreOf (setHart h r s) j = coreOf s j := rfl
@[simp] theorem setPair_coreOf (p : Nat) (r : Pair) (s : State) (j : Nat) : coreOf (setPair p r s) j = coreOf s j := rfl
@[simp] theorem setSlice_coreOf (n : Nat) (r : Slice) (s : State) (j : Nat) : coreOf (setSlice n r s) j = coreOf s j := rfl
@[simp] theorem setMem_coreOf (m : Mem) (s : State) (j : Nat) : coreOf (setMem m s) j = coreOf s j := rfl
@[simp] theorem setChan_coreOf (c : Nat) (r : Chan) (s : State) (j : Nat) : coreOf (setChan c r s) j = coreOf s j := rfl
@[simp] theorem setTenant_coreOf (t : Nat) (r : Tenant) (s : State) (j : Nat) : coreOf (setTenant t r s) j = coreOf s j := rfl
@[simp] theorem setDma_coreOf (d : Nat) (r : DmaCh) (s : State) (j : Nat) : coreOf (setDma d r s) j = coreOf s j := rfl
@[simp] theorem setGroup_coreOf (g : Nat) (r : Group) (s : State) (j : Nat) : coreOf (setGroup g r s) j = coreOf s j := rfl
@[simp] theorem setFab_coreOf (f : Fabric) (s : State) (j : Nat) : coreOf (setFab f s) j = coreOf s j := rfl
@[simp] theorem setTime_coreOf (t : TimeSt) (s : State) (j : Nat) : coreOf (setTime t s) j = coreOf s j := rfl
@[simp] theorem setToss_coreOf (t : Toss) (s : State) (j : Nat) : coreOf (setToss t s) j = coreOf s j := rfl
@[simp] theorem setAssayer_coreOf (a : Assayer) (s : State) (j : Nat) : coreOf (setAssayer a s) j = coreOf s j := rfl
@[simp] theorem setPower_coreOf (p : Power) (s : State) (j : Nat) : coreOf (setPower p s) j = coreOf s j := rfl
@[simp] theorem modCplx_coreOf (x : Nat) (f : Complex → Complex) (s : State) (j : Nat) : coreOf (modCplx x f s) j = coreOf s j := rfl
@[simp] theorem modBoot_coreOf (f : Boot → Boot) (s : State) (j : Nat) : coreOf (modBoot f s) j = coreOf s j := rfl

@[simp] theorem setPair_pairOf_same (p : Nat) (r : Pair) (s : State) : pairOf (setPair p r s) p = r := tget_tset_same _ _ _ _
theorem setPair_pairOf_ne (p : Nat) (r : Pair) (s : State) (j : Nat) (hj : j ≠ p) : pairOf (setPair p r s) j = pairOf s j := tget_tset_ne _ _ _ _ _ hj
@[simp] theorem wr_pairOf (f : Fld) (v : Nat) (s : State) (j : Nat) : pairOf (wr f v s) j = pairOf s j := rfl
@[simp] theorem freeNext_pairOf (s : State) (j : Nat) : pairOf (freeNext s) j = pairOf s j := rfl
@[simp] theorem addDue_pairOf (b k : Nat) (a : Act) (s : State) (j : Nat) : pairOf (addDue b k a s) j = pairOf s j := rfl
@[simp] theorem addStep_pairOf (i b : Nat) (a : Act) (s : State) (j : Nat) : pairOf (addStep i b a s) j = pairOf s j := rfl
@[simp] theorem setClk_pairOf (c : Nat) (r : ClkCore) (s : State) (j : Nat) : pairOf (setClk c r s) j = pairOf s j := rfl
@[simp] theorem setMbx_pairOf (i : Nat) (m : Mbx) (s : State) (j : Nat) : pairOf (setMbx i m s) j = pairOf s j := rfl
@[simp] theorem setHart_pairOf (h : Nat) (r : Hart) (s : State) (j : Nat) : pairOf (setHart h r s) j = pairOf s j := rfl
@[simp] theorem setCore_pairOf (c : Nat) (r : Core) (s : State) (j : Nat) : pairOf (setCore c r s) j = pairOf s j := rfl
@[simp] theorem setSlice_pairOf (n : Nat) (r : Slice) (s : State) (j : Nat) : pairOf (setSlice n r s) j = pairOf s j := rfl
@[simp] theorem setMem_pairOf (m : Mem) (s : State) (j : Nat) : pairOf (setMem m s) j = pairOf s j := rfl
@[simp] theorem setChan_pairOf (c : Nat) (r : Chan) (s : State) (j : Nat) : pairOf (setChan c r s) j = pairOf s j := rfl
@[simp] theorem setTenant_pairOf (t : Nat) (r : Tenant) (s : State) (j : Nat) : pairOf (setTenant t r s) j = pairOf s j := rfl
@[simp] theorem setDma_pairOf (d : Nat) (r : DmaCh) (s : State) (j : Nat) : pairOf (setDma d r s) j = pairOf s j := rfl
@[simp] theorem setGroup_pairOf (g : Nat) (r : Group) (s : State) (j : Nat) : pairOf (setGroup g r s) j = pairOf s j := rfl
@[simp] theorem setFab_pairOf (f : Fabric) (s : State) (j : Nat) : pairOf (setFab f s) j = pairOf s j := rfl
@[simp] theorem setTime_pairOf (t : TimeSt) (s : State) (j : Nat) : pairOf (setTime t s) j = pairOf s j := rfl
@[simp] theorem setToss_pairOf (t : Toss) (s : State) (j : Nat) : pairOf (setToss t s) j = pairOf s j := rfl
@[simp] theorem setAssayer_pairOf (a : Assayer) (s : State) (j : Nat) : pairOf (setAssayer a s) j = pairOf s j := rfl
@[simp] theorem setPower_pairOf (p : Power) (s : State) (j : Nat) : pairOf (setPower p s) j = pairOf s j := rfl
@[simp] theorem modCplx_pairOf (x : Nat) (f : Complex → Complex) (s : State) (j : Nat) : pairOf (modCplx x f s) j = pairOf s j := rfl
@[simp] theorem modBoot_pairOf (f : Boot → Boot) (s : State) (j : Nat) : pairOf (modBoot f s) j = pairOf s j := rfl

@[simp] theorem setSlice_sliceOf_same (n : Nat) (r : Slice) (s : State) : sliceOf (setSlice n r s) n = r := tget_tset_same _ _ _ _
theorem setSlice_sliceOf_ne (n : Nat) (r : Slice) (s : State) (j : Nat) (hj : j ≠ n) : sliceOf (setSlice n r s) j = sliceOf s j := tget_tset_ne _ _ _ _ _ hj
@[simp] theorem wr_sliceOf (f : Fld) (v : Nat) (s : State) (j : Nat) : sliceOf (wr f v s) j = sliceOf s j := rfl
@[simp] theorem freeNext_sliceOf (s : State) (j : Nat) : sliceOf (freeNext s) j = sliceOf s j := rfl
@[simp] theorem addDue_sliceOf (b k : Nat) (a : Act) (s : State) (j : Nat) : sliceOf (addDue b k a s) j = sliceOf s j := rfl
@[simp] theorem addStep_sliceOf (i b : Nat) (a : Act) (s : State) (j : Nat) : sliceOf (addStep i b a s) j = sliceOf s j := rfl
@[simp] theorem setClk_sliceOf (c : Nat) (r : ClkCore) (s : State) (j : Nat) : sliceOf (setClk c r s) j = sliceOf s j := rfl
@[simp] theorem setMbx_sliceOf (i : Nat) (m : Mbx) (s : State) (j : Nat) : sliceOf (setMbx i m s) j = sliceOf s j := rfl
@[simp] theorem setHart_sliceOf (h : Nat) (r : Hart) (s : State) (j : Nat) : sliceOf (setHart h r s) j = sliceOf s j := rfl
@[simp] theorem setCore_sliceOf (c : Nat) (r : Core) (s : State) (j : Nat) : sliceOf (setCore c r s) j = sliceOf s j := rfl
@[simp] theorem setPair_sliceOf (p : Nat) (r : Pair) (s : State) (j : Nat) : sliceOf (setPair p r s) j = sliceOf s j := rfl
@[simp] theorem setMem_sliceOf (m : Mem) (s : State) (j : Nat) : sliceOf (setMem m s) j = sliceOf s j := rfl
@[simp] theorem setChan_sliceOf (c : Nat) (r : Chan) (s : State) (j : Nat) : sliceOf (setChan c r s) j = sliceOf s j := rfl
@[simp] theorem setTenant_sliceOf (t : Nat) (r : Tenant) (s : State) (j : Nat) : sliceOf (setTenant t r s) j = sliceOf s j := rfl
@[simp] theorem setDma_sliceOf (d : Nat) (r : DmaCh) (s : State) (j : Nat) : sliceOf (setDma d r s) j = sliceOf s j := rfl
@[simp] theorem setGroup_sliceOf (g : Nat) (r : Group) (s : State) (j : Nat) : sliceOf (setGroup g r s) j = sliceOf s j := rfl
@[simp] theorem setFab_sliceOf (f : Fabric) (s : State) (j : Nat) : sliceOf (setFab f s) j = sliceOf s j := rfl
@[simp] theorem setTime_sliceOf (t : TimeSt) (s : State) (j : Nat) : sliceOf (setTime t s) j = sliceOf s j := rfl
@[simp] theorem setToss_sliceOf (t : Toss) (s : State) (j : Nat) : sliceOf (setToss t s) j = sliceOf s j := rfl
@[simp] theorem setAssayer_sliceOf (a : Assayer) (s : State) (j : Nat) : sliceOf (setAssayer a s) j = sliceOf s j := rfl
@[simp] theorem setPower_sliceOf (p : Power) (s : State) (j : Nat) : sliceOf (setPower p s) j = sliceOf s j := rfl
@[simp] theorem modCplx_sliceOf (x : Nat) (f : Complex → Complex) (s : State) (j : Nat) : sliceOf (modCplx x f s) j = sliceOf s j := rfl
@[simp] theorem modBoot_sliceOf (f : Boot → Boot) (s : State) (j : Nat) : sliceOf (modBoot f s) j = sliceOf s j := rfl

@[simp] theorem setChan_chanOf_same (c : Nat) (r : Chan) (s : State) : chanOf (setChan c r s) c = r := tget_tset_same _ _ _ _
theorem setChan_chanOf_ne (c : Nat) (r : Chan) (s : State) (j : Nat) (hj : j ≠ c) : chanOf (setChan c r s) j = chanOf s j := tget_tset_ne _ _ _ _ _ hj
@[simp] theorem wr_chanOf (f : Fld) (v : Nat) (s : State) (j : Nat) : chanOf (wr f v s) j = chanOf s j := rfl
@[simp] theorem freeNext_chanOf (s : State) (j : Nat) : chanOf (freeNext s) j = chanOf s j := rfl
@[simp] theorem addDue_chanOf (b k : Nat) (a : Act) (s : State) (j : Nat) : chanOf (addDue b k a s) j = chanOf s j := rfl
@[simp] theorem addStep_chanOf (i b : Nat) (a : Act) (s : State) (j : Nat) : chanOf (addStep i b a s) j = chanOf s j := rfl
@[simp] theorem setClk_chanOf (c : Nat) (r : ClkCore) (s : State) (j : Nat) : chanOf (setClk c r s) j = chanOf s j := rfl
@[simp] theorem setMbx_chanOf (i : Nat) (m : Mbx) (s : State) (j : Nat) : chanOf (setMbx i m s) j = chanOf s j := rfl
@[simp] theorem setHart_chanOf (h : Nat) (r : Hart) (s : State) (j : Nat) : chanOf (setHart h r s) j = chanOf s j := rfl
@[simp] theorem setCore_chanOf (c : Nat) (r : Core) (s : State) (j : Nat) : chanOf (setCore c r s) j = chanOf s j := rfl
@[simp] theorem setPair_chanOf (p : Nat) (r : Pair) (s : State) (j : Nat) : chanOf (setPair p r s) j = chanOf s j := rfl
@[simp] theorem setSlice_chanOf (n : Nat) (r : Slice) (s : State) (j : Nat) : chanOf (setSlice n r s) j = chanOf s j := rfl
@[simp] theorem setTenant_chanOf (t : Nat) (r : Tenant) (s : State) (j : Nat) : chanOf (setTenant t r s) j = chanOf s j := rfl
@[simp] theorem setDma_chanOf (d : Nat) (r : DmaCh) (s : State) (j : Nat) : chanOf (setDma d r s) j = chanOf s j := rfl
@[simp] theorem setGroup_chanOf (g : Nat) (r : Group) (s : State) (j : Nat) : chanOf (setGroup g r s) j = chanOf s j := rfl
@[simp] theorem setFab_chanOf (f : Fabric) (s : State) (j : Nat) : chanOf (setFab f s) j = chanOf s j := rfl
@[simp] theorem setTime_chanOf (t : TimeSt) (s : State) (j : Nat) : chanOf (setTime t s) j = chanOf s j := rfl
@[simp] theorem setToss_chanOf (t : Toss) (s : State) (j : Nat) : chanOf (setToss t s) j = chanOf s j := rfl
@[simp] theorem setAssayer_chanOf (a : Assayer) (s : State) (j : Nat) : chanOf (setAssayer a s) j = chanOf s j := rfl
@[simp] theorem setPower_chanOf (p : Power) (s : State) (j : Nat) : chanOf (setPower p s) j = chanOf s j := rfl
@[simp] theorem modCplx_chanOf (x : Nat) (f : Complex → Complex) (s : State) (j : Nat) : chanOf (modCplx x f s) j = chanOf s j := rfl
@[simp] theorem modBoot_chanOf (f : Boot → Boot) (s : State) (j : Nat) : chanOf (modBoot f s) j = chanOf s j := rfl

@[simp] theorem setTenant_tenantOf_same (t : Nat) (r : Tenant) (s : State) : tenantOf (setTenant t r s) t = r := tget_tset_same _ _ _ _
theorem setTenant_tenantOf_ne (t : Nat) (r : Tenant) (s : State) (j : Nat) (hj : j ≠ t) : tenantOf (setTenant t r s) j = tenantOf s j := tget_tset_ne _ _ _ _ _ hj
@[simp] theorem wr_tenantOf (f : Fld) (v : Nat) (s : State) (j : Nat) : tenantOf (wr f v s) j = tenantOf s j := rfl
@[simp] theorem freeNext_tenantOf (s : State) (j : Nat) : tenantOf (freeNext s) j = tenantOf s j := rfl
@[simp] theorem addDue_tenantOf (b k : Nat) (a : Act) (s : State) (j : Nat) : tenantOf (addDue b k a s) j = tenantOf s j := rfl
@[simp] theorem addStep_tenantOf (i b : Nat) (a : Act) (s : State) (j : Nat) : tenantOf (addStep i b a s) j = tenantOf s j := rfl
@[simp] theorem setClk_tenantOf (c : Nat) (r : ClkCore) (s : State) (j : Nat) : tenantOf (setClk c r s) j = tenantOf s j := rfl
@[simp] theorem setMbx_tenantOf (i : Nat) (m : Mbx) (s : State) (j : Nat) : tenantOf (setMbx i m s) j = tenantOf s j := rfl
@[simp] theorem setHart_tenantOf (h : Nat) (r : Hart) (s : State) (j : Nat) : tenantOf (setHart h r s) j = tenantOf s j := rfl
@[simp] theorem setCore_tenantOf (c : Nat) (r : Core) (s : State) (j : Nat) : tenantOf (setCore c r s) j = tenantOf s j := rfl
@[simp] theorem setPair_tenantOf (p : Nat) (r : Pair) (s : State) (j : Nat) : tenantOf (setPair p r s) j = tenantOf s j := rfl
@[simp] theorem setSlice_tenantOf (n : Nat) (r : Slice) (s : State) (j : Nat) : tenantOf (setSlice n r s) j = tenantOf s j := rfl
@[simp] theorem setMem_tenantOf (m : Mem) (s : State) (j : Nat) : tenantOf (setMem m s) j = tenantOf s j := rfl
@[simp] theorem setChan_tenantOf (c : Nat) (r : Chan) (s : State) (j : Nat) : tenantOf (setChan c r s) j = tenantOf s j := rfl
@[simp] theorem setDma_tenantOf (d : Nat) (r : DmaCh) (s : State) (j : Nat) : tenantOf (setDma d r s) j = tenantOf s j := rfl
@[simp] theorem setGroup_tenantOf (g : Nat) (r : Group) (s : State) (j : Nat) : tenantOf (setGroup g r s) j = tenantOf s j := rfl
@[simp] theorem setFab_tenantOf (f : Fabric) (s : State) (j : Nat) : tenantOf (setFab f s) j = tenantOf s j := rfl
@[simp] theorem setTime_tenantOf (t : TimeSt) (s : State) (j : Nat) : tenantOf (setTime t s) j = tenantOf s j := rfl
@[simp] theorem setToss_tenantOf (t : Toss) (s : State) (j : Nat) : tenantOf (setToss t s) j = tenantOf s j := rfl
@[simp] theorem setAssayer_tenantOf (a : Assayer) (s : State) (j : Nat) : tenantOf (setAssayer a s) j = tenantOf s j := rfl
@[simp] theorem setPower_tenantOf (p : Power) (s : State) (j : Nat) : tenantOf (setPower p s) j = tenantOf s j := rfl
@[simp] theorem modCplx_tenantOf (x : Nat) (f : Complex → Complex) (s : State) (j : Nat) : tenantOf (modCplx x f s) j = tenantOf s j := rfl
@[simp] theorem modBoot_tenantOf (f : Boot → Boot) (s : State) (j : Nat) : tenantOf (modBoot f s) j = tenantOf s j := rfl

@[simp] theorem setDma_dmaOf_same (d : Nat) (r : DmaCh) (s : State) : dmaOf (setDma d r s) d = r := tget_tset_same _ _ _ _
theorem setDma_dmaOf_ne (d : Nat) (r : DmaCh) (s : State) (j : Nat) (hj : j ≠ d) : dmaOf (setDma d r s) j = dmaOf s j := tget_tset_ne _ _ _ _ _ hj
@[simp] theorem wr_dmaOf (f : Fld) (v : Nat) (s : State) (j : Nat) : dmaOf (wr f v s) j = dmaOf s j := rfl
@[simp] theorem freeNext_dmaOf (s : State) (j : Nat) : dmaOf (freeNext s) j = dmaOf s j := rfl
@[simp] theorem addDue_dmaOf (b k : Nat) (a : Act) (s : State) (j : Nat) : dmaOf (addDue b k a s) j = dmaOf s j := rfl
@[simp] theorem addStep_dmaOf (i b : Nat) (a : Act) (s : State) (j : Nat) : dmaOf (addStep i b a s) j = dmaOf s j := rfl
@[simp] theorem setClk_dmaOf (c : Nat) (r : ClkCore) (s : State) (j : Nat) : dmaOf (setClk c r s) j = dmaOf s j := rfl
@[simp] theorem setMbx_dmaOf (i : Nat) (m : Mbx) (s : State) (j : Nat) : dmaOf (setMbx i m s) j = dmaOf s j := rfl
@[simp] theorem setHart_dmaOf (h : Nat) (r : Hart) (s : State) (j : Nat) : dmaOf (setHart h r s) j = dmaOf s j := rfl
@[simp] theorem setCore_dmaOf (c : Nat) (r : Core) (s : State) (j : Nat) : dmaOf (setCore c r s) j = dmaOf s j := rfl
@[simp] theorem setPair_dmaOf (p : Nat) (r : Pair) (s : State) (j : Nat) : dmaOf (setPair p r s) j = dmaOf s j := rfl
@[simp] theorem setSlice_dmaOf (n : Nat) (r : Slice) (s : State) (j : Nat) : dmaOf (setSlice n r s) j = dmaOf s j := rfl
@[simp] theorem setMem_dmaOf (m : Mem) (s : State) (j : Nat) : dmaOf (setMem m s) j = dmaOf s j := rfl
@[simp] theorem setChan_dmaOf (c : Nat) (r : Chan) (s : State) (j : Nat) : dmaOf (setChan c r s) j = dmaOf s j := rfl
@[simp] theorem setTenant_dmaOf (t : Nat) (r : Tenant) (s : State) (j : Nat) : dmaOf (setTenant t r s) j = dmaOf s j := rfl
@[simp] theorem setGroup_dmaOf (g : Nat) (r : Group) (s : State) (j : Nat) : dmaOf (setGroup g r s) j = dmaOf s j := rfl
@[simp] theorem setFab_dmaOf (f : Fabric) (s : State) (j : Nat) : dmaOf (setFab f s) j = dmaOf s j := rfl
@[simp] theorem setTime_dmaOf (t : TimeSt) (s : State) (j : Nat) : dmaOf (setTime t s) j = dmaOf s j := rfl
@[simp] theorem setToss_dmaOf (t : Toss) (s : State) (j : Nat) : dmaOf (setToss t s) j = dmaOf s j := rfl
@[simp] theorem setAssayer_dmaOf (a : Assayer) (s : State) (j : Nat) : dmaOf (setAssayer a s) j = dmaOf s j := rfl
@[simp] theorem setPower_dmaOf (p : Power) (s : State) (j : Nat) : dmaOf (setPower p s) j = dmaOf s j := rfl
@[simp] theorem modCplx_dmaOf (x : Nat) (f : Complex → Complex) (s : State) (j : Nat) : dmaOf (modCplx x f s) j = dmaOf s j := rfl
@[simp] theorem modBoot_dmaOf (f : Boot → Boot) (s : State) (j : Nat) : dmaOf (modBoot f s) j = dmaOf s j := rfl

@[simp] theorem setGroup_groupOf_same (g : Nat) (r : Group) (s : State) : groupOf (setGroup g r s) g = r := tget_tset_same _ _ _ _
theorem setGroup_groupOf_ne (g : Nat) (r : Group) (s : State) (j : Nat) (hj : j ≠ g) : groupOf (setGroup g r s) j = groupOf s j := tget_tset_ne _ _ _ _ _ hj
@[simp] theorem wr_groupOf (f : Fld) (v : Nat) (s : State) (j : Nat) : groupOf (wr f v s) j = groupOf s j := rfl
@[simp] theorem freeNext_groupOf (s : State) (j : Nat) : groupOf (freeNext s) j = groupOf s j := rfl
@[simp] theorem addDue_groupOf (b k : Nat) (a : Act) (s : State) (j : Nat) : groupOf (addDue b k a s) j = groupOf s j := rfl
@[simp] theorem addStep_groupOf (i b : Nat) (a : Act) (s : State) (j : Nat) : groupOf (addStep i b a s) j = groupOf s j := rfl
@[simp] theorem setClk_groupOf (c : Nat) (r : ClkCore) (s : State) (j : Nat) : groupOf (setClk c r s) j = groupOf s j := rfl
@[simp] theorem setMbx_groupOf (i : Nat) (m : Mbx) (s : State) (j : Nat) : groupOf (setMbx i m s) j = groupOf s j := rfl
@[simp] theorem setHart_groupOf (h : Nat) (r : Hart) (s : State) (j : Nat) : groupOf (setHart h r s) j = groupOf s j := rfl
@[simp] theorem setCore_groupOf (c : Nat) (r : Core) (s : State) (j : Nat) : groupOf (setCore c r s) j = groupOf s j := rfl
@[simp] theorem setPair_groupOf (p : Nat) (r : Pair) (s : State) (j : Nat) : groupOf (setPair p r s) j = groupOf s j := rfl
@[simp] theorem setSlice_groupOf (n : Nat) (r : Slice) (s : State) (j : Nat) : groupOf (setSlice n r s) j = groupOf s j := rfl
@[simp] theorem setMem_groupOf (m : Mem) (s : State) (j : Nat) : groupOf (setMem m s) j = groupOf s j := rfl
@[simp] theorem setChan_groupOf (c : Nat) (r : Chan) (s : State) (j : Nat) : groupOf (setChan c r s) j = groupOf s j := rfl
@[simp] theorem setTenant_groupOf (t : Nat) (r : Tenant) (s : State) (j : Nat) : groupOf (setTenant t r s) j = groupOf s j := rfl
@[simp] theorem setDma_groupOf (d : Nat) (r : DmaCh) (s : State) (j : Nat) : groupOf (setDma d r s) j = groupOf s j := rfl
@[simp] theorem setFab_groupOf (f : Fabric) (s : State) (j : Nat) : groupOf (setFab f s) j = groupOf s j := rfl
@[simp] theorem setTime_groupOf (t : TimeSt) (s : State) (j : Nat) : groupOf (setTime t s) j = groupOf s j := rfl
@[simp] theorem setToss_groupOf (t : Toss) (s : State) (j : Nat) : groupOf (setToss t s) j = groupOf s j := rfl
@[simp] theorem setAssayer_groupOf (a : Assayer) (s : State) (j : Nat) : groupOf (setAssayer a s) j = groupOf s j := rfl
@[simp] theorem setPower_groupOf (p : Power) (s : State) (j : Nat) : groupOf (setPower p s) j = groupOf s j := rfl
@[simp] theorem modCplx_groupOf (x : Nat) (f : Complex → Complex) (s : State) (j : Nat) : groupOf (modCplx x f s) j = groupOf s j := rfl
@[simp] theorem modBoot_groupOf (f : Boot → Boot) (s : State) (j : Nat) : groupOf (modBoot f s) j = groupOf s j := rfl

end Sys2Proof.Machine
end

