-- ==== Sys2Proof/Laws/Regs.lean ====
section
/-! SUPPORT. Laws/Regs.lean: what a register field reads after a register field is written. -/
set_option Elab.async false
namespace Sys2Proof.Machine

/-- A field written reads as the value, cut to its width. -/
@[simp] theorem rd_wr_same (f : Fld) (v : Nat) (s : State) : rd (wr f v s) f = v % 2 ^ f.w := by
  unfold rd
  rw [wr_regs, tget_tset_same, Nat.xor_assoc, Nat.xor_self, Nat.xor_zero]

/-- A field with another place reads as before. -/
theorem rd_wr_ne (f g : Fld) (v : Nat) (s : State) (h : fkey g ≠ fkey f) : rd (wr f v s) g = rd s g := by
  unfold rd
  rw [wr_regs, tget_tset_ne _ _ _ _ _ h]

/-- Two fields at one place with one reset value are read alike. -/
theorem rd_wr (f g : Fld) (v : Nat) (s : State) (h : g.rst = f.rst) :
    rd (wr f v s) g = if fkey g = fkey f then v % 2 ^ f.w else rd s g := by
  split
  · unfold rd
    rw [wr_regs, h]
    rw [show fkey g = fkey f by assumption, tget_tset_same, Nat.xor_assoc, Nat.xor_self, Nat.xor_zero]
  · exact rd_wr_ne f g v s (by assumption)

/-- A counter adds and saturates at its width. -/
@[simp] theorem rd_bump_same (f : Fld) (n : Nat) (s : State) : rd (bump f n s) f = min (rd s f + n) (2 ^ f.w - 1) := by
  unfold bump
  rw [rd_wr_same]
  exact Nat.mod_eq_of_lt (by have := Nat.two_pow_pos f.w; omega)

theorem rd_bump_ne (f g : Fld) (n : Nat) (s : State) (h : fkey g ≠ fkey f) : rd (bump f n s) g = rd s g :=
  rd_wr_ne f g _ s h

@[simp] theorem rdB_wrB_same (f : Fld) (b : Bool) (s : State) (h : f.w = 1) : rdB (wrB f b s) f = b := by
  unfold rdB wrB
  rw [rd_wr_same, h]
  cases b <;> rfl

/-- At reset every register field reads its reset value. -/
@[simp] theorem rd_reset (f : Fld) : rd State.reset f = f.rst := by
  unfold rd
  show (0 : Nat) ^^^ f.rst = f.rst
  exact Nat.zero_xor f.rst

end Sys2Proof.Machine
end

