-- ==== Sys2Proof/Laws/Records.lean ====
section
/-! SUPPORT. Laws/Records.lean: what placing a record or raising an interrupt does to the registers, to the platform log and to
everything else. -/
set_option Elab.async false
namespace Sys2Proof.Machine

/-- Two slot classes share no slot of any link (R134). -/
theorem slotOnLink_inj {r q h : Nat} (hr : r < 64) (hq : q < 64) (e : slotOnLink r h = slotOnLink q h) : r = q := by
  simp only [slotOnLink] at e; omega

theorem rd_clkIrq (code val : Nat) (s : State) (c : Nat) (f : Fld) (h : fkey f ≠ fkey (clerkIpPending c)) :
    rd (clkIrq code val s c) f = rd s f := by
  unfold clkIrq
  split
  · rw [rd_wr_ne _ _ _ _ h]; rfl
  · rfl

theorem clkIrq_ras (code val : Nat) (s : State) (c : Nat) : (clkIrq code val s c).ras = s.ras := by
  unfold clkIrq; split <;> rfl
theorem clkIrq_chip (code val : Nat) (s : State) (c : Nat) : (clkIrq code val s c).chip = s.chip := by
  unfold clkIrq; split <;> rfl
theorem clkIrq_boot (code val : Nat) (s : State) (c : Nat) : (clkIrq code val s c).boot = s.boot := by
  unfold clkIrq; split <;> rfl
theorem clkIrq_due (code val : Nat) (s : State) (c : Nat) : (clkIrq code val s c).due = s.due := by
  unfold clkIrq; split <;> rfl
theorem clkIrq_time (code val : Nat) (s : State) (c : Nat) : (clkIrq code val s c).time = s.time := by
  unfold clkIrq; split <;> rfl
theorem clkIrq_toss (code val : Nat) (s : State) (c : Nat) : (clkIrq code val s c).toss = s.toss := by
  unfold clkIrq; split <;> rfl
theorem clkIrq_dma (code val : Nat) (s : State) (c : Nat) : (clkIrq code val s c).dma = s.dma := by
  unfold clkIrq; split <;> rfl
theorem clkIrq_fabric (code val : Nat) (s : State) (c : Nat) : (clkIrq code val s c).fabric = s.fabric := by
  unfold clkIrq; split <;> rfl
theorem clkIrq_mbx (code val : Nat) (s : State) (c : Nat) : (clkIrq code val s c).mbx = s.mbx := by
  unfold clkIrq; split <;> rfl
theorem clkIrq_mem (code val : Nat) (s : State) (c : Nat) : (clkIrq code val s c).mem = s.mem := by
  unfold clkIrq; split <;> rfl
theorem clkIrq_assayer (code val : Nat) (s : State) (c : Nat) : (clkIrq code val s c).assayer = s.assayer := by
  unfold clkIrq; split <;> rfl

/-- A property that one interrupt keeps, interrupts to a list of cores keep. -/
theorem foldl_clkIrq {α : Type} (g : State → α) (code val : Nat) (l : List Nat)
    (h : ∀ (s : State) (c : Nat), c ∈ l → g (clkIrq code val s c) = g s) (s : State) : g (l.foldl (clkIrq code val) s) = g s := by
  induction l generalizing s with
  | nil => rfl
  | cons c r ih =>
    rw [List.foldl_cons, ih (fun s c hc => h s c (List.mem_cons_of_mem _ hc)), h s c List.mem_cons_self]

/-- The fields that hold the pending interrupts of the eight Clerk cores. -/
theorem rd_recPlatform (sl cls kind unit cause ten addr : Nat) (detail : List Nat) (s : State) (f : Fld)
    (h : ∀ c ∈ clerkCores, fkey f ≠ fkey (clerkIpPending c)) :
    rd (recPlatform sl cls kind unit cause ten addr detail s) f = rd s f := by
  unfold recPlatform
  rw [foldl_clkIrq (fun s => rd s f) 4 kind clerkCores (fun s c hc => rd_clkIrq _ _ _ _ _ (h c hc))]
  simp only [rd]

theorem recPlatform_ras (sl cls kind unit cause ten addr : Nat) (detail : List Nat) (s : State) :
    (recPlatform sl cls kind unit cause ten addr detail s).ras = { s.ras with
      platform := logAdd 1024 s.ras.platform ⟨0, beat s, cls, kind, unit, cause, ten, addr, detail, sl⟩ } := by
  unfold recPlatform
  rw [foldl_clkIrq (fun s => s.ras) 4 kind clerkCores (fun s c _ => clkIrq_ras _ _ s c)]

/-- The newest record of a ring is the one just added. -/
theorem logAdd_last (g : RasLog) (r : RasRec) : (logAdd 1024 g r).recs.getLast? = some { r with seq := g.next } := by
  unfold logAdd
  simp only []
  rw [List.getLast?_drop]
  simp

/-- A record that recPlatform places is the newest record of the log. -/
theorem recPlatform_recordedIn (sl cls kind unit cause ten addr : Nat) (detail : List Nat) (s s0 : State)
    (hr : s.ras.platform.next = s0.ras.platform.next) (hb : beat s = beat s0) :
    recordedIn cls kind unit cause s0 (recPlatform sl cls kind unit cause ten addr detail s) := by
  refine ⟨⟨s.ras.platform.next, beat s, cls, kind, unit, cause, ten, addr, detail, sl⟩, ?_, hr, hb, rfl, rfl, rfl, rfl⟩
  rw [recPlatform_ras]
  exact logAdd_last _ _

end Sys2Proof.Machine
end

