-- ==== Sys2Proof/Tests/Slice0.lean ====
section
/-! SUPPORT. Tests/Slice0.lean: well-formedness refuses one ill-formed command for each kind of operand; for each statement, states
and operands that meet what its clauses ask; and single steps whose results come from the spec. -/
set_option Elab.async false
namespace Sys2Proof.Tests
open Sys2Proof Sys2Proof.Machine

/-! ## Well-formedness -/

theorem test_wf_units : (Instr.wf (.wrsSto 256) || Instr.wf (.pairInjectB 136) || Instr.wf (.usefulHalving 272) ||
    Instr.wf (.coreArrayError 0 2 0) || Instr.wf (.sliceFill 128 0) || Instr.wf (.entropyHealthFail 8) ||
    Instr.wf (.fillComplete 16) || Instr.wf (.recoveryEnd 0 2 0) || Instr.wf (.refreshOwed 0 2) || Instr.wf (.claimStart 0 64) ||
    Instr.wf (.powerStatus 260) || Instr.wf (.doorbell 514 0) || Instr.wf (.sealDrainsDone 257) || Instr.wf (.flashReadTimeout 2 10) ||
    Instr.wf (.refclkLoss 2 200 0)) = false := by decide
theorem test_wf_links : (Instr.wf (.replayLimit 6) || Instr.wf (.memberUnreachable 64) || Instr.wf (.fabricLaneFailure 0 8) ||
    Instr.wf (.getHealthInfo 8) || Instr.wf (.portRetrainDone 0 4) || Instr.wf (.functionResetDone 0 65536) ||
    Instr.wf (.statusWriteAck 64) || Instr.wf (.clerkClaim 2 1)) = false := by decide
theorem test_wf_fields : (Instr.wf (.wait 10) || Instr.wf (.add 0 32 0 0) || Instr.wf (.seedRead 0 32 true) ||
    Instr.wf (.sll 0 1 1 32) || Instr.wf (.lui 0 1 65536) || Instr.wf (.beq 0 0 0 0 0 16384) || Instr.wf (.j 0 67108864) ||
    Instr.wf (.beq 0 0 0 2 0 0)) = false := by decide
theorem test_wf_accepts : (Instr.wf (.add 9 31 31 31) && Instr.wf (.beq 0 0 0 1 1 16383) && Instr.wf (.powerStatus 259)) = true := by
  decide

/-! ## States that the tests are about -/

/-- Reset with register fields set. -/
def fs (l : List (Fld × Nat)) (s : State) : State := l.foldl (fun a e => wr e.1 e.2 a) s

/-- The state a command answers. -/
def after (i : Instr) (s : State) : State :=
  match exec i s with
  | .next t => t
  | .fault _ => s
  | .refused _ => s

/-- Clerk core c about to issue word w at address 0x100, its registers w1 = x and w2 = y. -/
def atWord (c w x y : Nat) : State :=
  setClk c { st := .running, w := [(1, x), (2, y)], fetch := [(0x100, some w)], path := 0x104 } State.reset

/-- Mailbox i holds a taken command with this code and these argument bytes. -/
def tk (i code : Nat) (args : List (Nat × Nat × Nat)) (s : State) : State :=
  setMbx i { copy := mkBytes ((0, 4, code) :: args.map fun e => (0x10 + e.1, e.2.1, e.2.2)), phase := .ready, latched := 0 }
    (fs [(mbxStatState i, 2), (mbxSeqSeq i, 1)] s)

/-- A DIMM of two ranks. -/
def dimm : DimmSpd := ⟨2, 0, 1, 64, [4800], 32000, 17500, 30000, 16000, 16000, 16000, 295000⟩

/-- Channel 0 in service under a map of 4 GB, slice 0 the home of every line. -/
def withMem : State :=
  { fs [(mcStatusState 0, 3), (mcDimmRanks 0, 2), (mcDimmSpeed 0, 4800), (llcStatusState 0, 1)] State.reset with
    mem := { chans := [(0, { dimm := some dimm, trained := true })], map := [⟨0, 2 ^ 32, [0]⟩], locked := true }, mesh := { base := [0] } }

/-- Hart 0 runs on pair 0, whose slot 0 is in checked mode. -/
def withHart : State :=
  setHart 0 { st := .running, pc := 0x1000, priv := .m, x := [(1, 5)] }
    (fs [(pairStatusSlotValid 0, 1), (pairStatusSlot 0, 0), (pairStatusState 0, 3), (pairCtrlMode 0, 1), (pwrDomainState 0, 2)] withMem)

/-! ## What the clauses of the statements ask can be met -/

/-- A beat is running, at the given time of it. -/
def inBeat (sub : Nat) : State := { State.reset with time := { State.reset.time with started := true, sub } }
theorem hyp_StepRunsTheFrontCommand : ({ State.reset with pending := [.tokenPass] } : State).pending = .tokenPass :: [] ∧
    State.reset.pending = [] ∧ State.reset.time.started = false ∧ (inBeat 0).pending = [] ∧ beatRuns (inBeat 0) = true ∧
    (inBeat 980).time.sub + 10 < beatGain (inBeat 980) ∧ beatGain (inBeat 990) ≤ (inBeat 990).time.sub + 10 ∧
    now (inBeat 980) + 10 < 2 ^ 64 := by decide +kernel
theorem hyp_StepKeepsStoredTables : Memory.wf withMem = true ∧ step withMem = .next withMem := ⟨by decide +kernel, rfl⟩
theorem hyp_StepKeepsFuses : step withMem = .next withMem := rfl

def warm : State := { State.reset with boot := { State.reset.boot with step := 4 } }
theorem hyp_SupplyAndResetInputs : ({ State.reset with chip := { State.reset.chip with vinGood := false } } : State).chip.vinGood = false ∧
    State.reset.chip.vinGood = true ∧ (setPower { offBeat := some 0 } State.reset).power.offBeat = some 0 ∧
    0 ≤ beat State.reset ∧ warm.chip.off = false ∧ warm.boot.step ≠ 1 := by decide +kernel

/-- Start-up at step n, and an image with every component once. -/
def boot (n : Nat) (s : State) : State := { s with boot := { s.boot with step := n } }
def goodImage : FlashRep := { image := { comps := [{ id := 1 }, { id := 2 }, { id := 3 }, { id := 4 }, { id := 5 }, { id := 6 }] } }
theorem hyp_StartupStepsFollowInOrder : imageCheck (boot 3 withMem) goodImage = 0 ∧ goodImage.image.token = none ∧
    imageCheck (boot 3 withMem) {} ≠ 0 ∧ (boot 3 withMem).boot.headOk = false ∧ (boot 3 withMem).boot.hold = false ∧
    (boot 1 withMem).chip.resetN = true ∧
    ({ boot 1 withMem with chip := { withMem.chip with resetN := false } } : State).chip.resetN = false ∧
    (∀ n ∈ [1, 2, 3, 4, 5, 6, 7, 8], starting (boot n withMem) = true ∧ (boot n withMem).boot.step = n) ∧
    (boot 1 withMem).boot.upDone = false ∧ trainingDone (boot 4 withMem) = true ∧ mapChans (boot 4 withMem) ≠ [] ∧
    fillingChans (boot 5 withMem) = [] ∧ (∃ c ∈ mapChans (boot 5 withMem), rd (boot 5 withMem) (mcStatusState c) = 3) ∧
    settled (boot 6 (fs [(fabStateState, 5)] withMem)) = true ∧ (boot 7 withMem).boot.board.recordReq = true ∧
    mapChans (fs ((List.range 16).map fun c => (mcStatusState c, 6)) (boot 4 withMem)) = [] ∧
    (∀ c ∈ mapChans (boot 5 State.reset), rd (boot 5 State.reset) (mcStatusState c) ≠ 3) := by decide +kernel
def lw : State := fs [(fabStateState, 2)] { boot 6 State.reset with fabric := { State.reset.fabric with began := 0 } }
theorem hyp_StartupTimeoutsStrapsAndCloseMarker : starting (boot 2 State.reset) = true ∧
    (boot 2 State.reset).boot.elapsed + stepLimitMs (boot 2 State.reset) ≤ 15 ∧ stepLimitMs (boot 3 State.reset) = 500 ∧
    (boot 3 State.reset).boot.hold = false ∧ 0 < stepLimitMs (boot 8 State.reset) ∧ upPorts lw = [] ∧ rd lw fabStateState = 2 ∧
    rd (fs [(clkBeatBeat, 200000)] lw) fabCtrlLinkWaitMs * 1000 ≤ beat (fs [(clkBeatBeat, 200000)] lw) - lw.fabric.began ∧
    State.reset.chip.strapsDone = false ∧ (setPower { offMbx := some 0 } State.reset).power.offMbx = some 0 := by decide +kernel

def refs (dormant : Bool) (sel a b hold : Nat) : State :=
  setTime { dormant } (fs [(clkStatusRefaOk, a), (clkStatusRefbOk, b), (clkStatusRefSel, sel), (clkStatusHoldover, hold)] State.reset)
theorem hyp_ReferenceClocks : rdB (refs true 0 1 1 0) (refOk 0) = true ∧ (refs true 0 1 1 0).time.dormant = true ∧
    rd (refs false 1 1 1 0) clkStatusRefSel ≠ 0 ∧ rd (refs false 0 1 1 0) clkStatusRefSel = 0 ∧
    rdB (refs false 0 1 1 0) (refOk 1) = true ∧ rdB (refs false 0 1 0 0) (refOk 1) = false ∧
    rdB (refs false 0 1 0 0) clkStatusHoldover = false ∧ rdB (fs [(clkStatusSlewing, 1)] State.reset) clkStatusSlewing = true ∧
    rd (fs [(clkStatusSlewing, 1)] State.reset) clkSlewRemainLeadNs = 0 ∧
    rd (fs [(clkSlewRemainLeadNs, 10)] State.reset) clkSlewRemainLeadNs ≠ 0 ∧
    (setTime { wakeRefs := true } (refs false 0 1 1 0)).time.wakeRefs = true ∧ (refs false 0 1 0 1).time.wakeRefs = false ∧
    rdB (refs false 0 1 0 1) clkStatusHoldover = true := by decide +kernel

def hot : State := fs [(pwrDomainState 3, 2), (pwrDomainFreq 3, 26), (pwrCtrlTThrottle, 95)] State.reset
def bad16 : State := { State.reset with chip := { State.reset.chip with sensors := [(7, { badRuns := 16 })] } }
theorem hyp_SensorsAndPowerLimits : 16 ≤ (sensorOf bad16 7).badRuns ∧ (sensorOf bad16 7).retired = false ∧
    (sensorOf State.reset 7).badRuns < 16 ∧ tilePresent State.reset 7 = true ∧ 7 ∉ State.reset.chip.entropyDead ∧
    readingOk (sensorOf State.reset 5) 125 = true ∧ 3 ∈ pairsOn hot ∧ (pairOf hot 3).halved = false ∧ serveSealed hot 3 = false ∧
    domOn hot 3 = true ∧ (rd hot pwrCtrlTThrottle : Int) + 10 < 106 ∧ 4 ∉ pairsOn hot := by decide +kernel

def dueAt (l : List Due) : State := { fs [(clkBeatBeat, 7)] State.reset with due := l }
def due2 : State := { fs [(clkBeatBeat, 7)] State.reset with journal := [⟨3, 7, .mode 0 1⟩, ⟨4, 7, .mode 1 1⟩] }
theorem hyp_BoundariesAndCommandSteps : State.reset.time.dormant = false ∧ State.reset.chip.vinGood = true ∧
    State.reset.chip.off = false ∧ (refs true 0 1 1 0).time.dormant = true ∧ refGood (refs false 0 1 0 0) = true ∧
    refGood (refs false 0 0 0 0) = false ∧ (refs false 0 0 0 0).time.started = false ∧
    (dueAt [⟨7, 1, .tokenPass⟩]).due = [⟨7, 1, .tokenPass⟩] ∧ 7 ≤ beat (dueAt []) ∧
    (dueAt [⟨7, 2, .mode 0 1⟩, ⟨6, 2, .fence (.hart 0)⟩]).due.length = 2 ∧ dueSteps State.reset 3 = [] ∧
    dueSteps due2 3 = [⟨3, 7, .mode 0 1⟩] ∧ due2.assayer.abandon = false ∧
    (gateOf (argCode (mbxOf (tk 3 0x0305 [] due2) 3).copy)).isSome = true ∧
    dueSteps (tk 3 0x0305 [] due2) 3 ≠ [] ∧ clkLive (atWord 2 0 0 0) 2 = true ∧ clkLive State.reset 2 = false := by decide +kernel

def slew (ph : Nat) : State := setTime { started := true, slewPhase := ph } (fs [(clkStatusSlewing, 1), (clkSlewRemainLeadNs, 50)] State.reset)
theorem hyp_BeatAndPlatformTimeAdvance : beat State.reset < 2 ^ 64 - 1 ∧ nextTime State.reset < 2 ^ 64 ∧
    State.reset.time.started = false ∧ (slew 99).time.started = true ∧ (slew 99).time.setNext = none ∧
    rdB (slew 99) clkStatusSlewing = true ∧ nextTime (slew 99) < 2 ^ 64 ∧ rd (slew 99) clkSlewRemainLeadNs < 2 ^ 64 ∧
    (slew 0).time.slewPhase ≠ 99 ∧ (setTime { started := true, setNext := some 5000 } State.reset).time.setNext = some 5000 := by
  decide +kernel

theorem clkAt_atWord (c w x y : Nat) : clkAt (atWord c w x y) c 0x100 w := by
  have h : clkOf (atWord c w x y) c = { st := .running, w := [(1, x), (2, y)], fetch := [(0x100, some w)], path := 0x104 } := by
    simp [atWord, clkOf, setClk, State.reset, tget, tset, tput]
  exact ⟨by rw [h], [], by rw [h]⟩

/-- A word of format A, I or B (Table 12.3). -/
def wordA (op d a b sh fn : Nat) : Nat := op * 2 ^ 26 + d * 2 ^ 21 + a * 2 ^ 16 + b * 2 ^ 11 + sh * 2 ^ 6 + fn
def wordI (op d a imm : Nat) : Nat := op * 2 ^ 26 + d * 2 ^ 21 + a * 2 ^ 16 + imm

theorem hyp_ClerkArithmeticInstructions : (∀ fn ∈ [0x4, 0x5, 0x6, 0x10, 0x11, 0x12, 0x13, 0x14, 0x15, 0x16, 0x17, 0x18, 0x19, 0x1a],
      isAlu fn 31 1 2 (wordA 0 31 1 2 0 fn) = true) ∧
    (∀ fn ∈ [0, 1, 2], isShift fn 3 1 31 (wordA 0 3 1 0 31 fn) = true) ∧ fieldFn (wordA 0 3 1 0 0 0x1B) = 0x1B ∧
    (∀ op ∈ [1, 2, 3, 4, 5, 6], isImm op 3 1 0xFFFF (wordI op 3 1 0xFFFF) = true) ∧ opOf (wordI 7 3 0 5) = 7 := by decide +kernel
theorem hyp_ClerkLoadsAndStores : (∀ op ∈ [8, 9, 10, 11, 12, 13, 14, 15], isImm op 3 1 4 (wordI op 3 1 4) = true) ∧
    effAddr (clkOf (atWord 0 0 1 0) 0) 1 4 % 4 ≠ 0 ∧ effAddr (clkOf (atWord 0 0 1 0) 0) 1 4 % 2 ≠ 0 ∧
    effAddr (clkOf (atWord 0 0 8 0) 0) 1 4 = 12 ∧ clkLoad (atWord 0 0 8 0) 0 12 4 = some 0 ∧
    clkLoad (atWord 0 0 8 0) 0 0x50000 4 = none ∧ clkLoad (atWord 0 0 8 0) 0 0x50000 1 = none ∧ 12 < sramSize 0 ∧
    sramSize 0 ≤ 0x40000 ∧ (clkStore 0 0x40000 4 0 (atWord 0 0 8 0)).isSome = true ∧
    clkStore 0 0x50000 4 0 (atWord 0 0 8 0) = none := by
  refine ⟨?_, ?_, ?_, ?_, ?_, ?_, ?_, ?_, ?_, ?_, rfl⟩ <;> decide +kernel
theorem hyp_ClerkBranchesAndJumps : (∀ op ∈ [0x10, 0x11, 0x12, 0x13, 0x14, 0x15],
      isB op 1 2 1 1 16383 (op * 2 ^ 26 + 2 ^ 21 + 2 * 2 ^ 16 + 2 ^ 15 + 2 ^ 14 + 16383) = true) ∧
    isJ 0x16 3 (0x16 * 2 ^ 26 + 3) = true ∧ isJ 0x17 3 (0x17 * 2 ^ 26 + 3) = true ∧ isImm 0x18 31 1 4 (wordI 0x18 31 1 4) = true ∧
    isImm 0x19 31 1 4 (wordI 0x19 31 1 4) = true ∧ (clkOf (atWord 0 0 8 0) 0).slot = none ∧
    effAddr (clkOf (atWord 0 0 8 0) 0) 1 4 % 4 = 0 ∧ effAddr (clkOf (atWord 0 0 9 0) 0) 1 4 % 4 ≠ 0 ∧
    fetchWord 0 { (clkOf (atWord 0 0 8 0) 0) with sram := putLE [] 12 4 0x78000005 } 12 = some 0x78000005 ∧
    fetchWord 0 (clkOf (atWord 0 0 8 0) 0) 12 ≠ some 0x78000005 ∧
    (clkOf (modClk 0 (fun q => { q with slot := some ⟨0xFC, 0x200, true⟩ }) (atWord 0 0 8 0)) 0).slot ≠ none := by decide +kernel

/-- Core 0 with outstanding accesses. -/
def outst (l : List MReq) : State := modClk 0 (fun q => { q with outst := l }) (atWord 0 0 0x108000 0)
def mr (region addr : Nat) (write : Bool) : MReq := ⟨region, addr, 4, write, 5, 3, 0⟩
theorem hyp_ClerkManagementAccessesAndResponses : (∀ op ∈ [0x1A, 0x1B, 0x1C, 0x1D], isImm op 4 1 8 (wordI op 4 1 8) = true) ∧
    mgmtRegion 0 0x108008 8 true = some 0 ∧ mgmtRegion 0 0x50000 4 false = none ∧ mgmtRegion 0 0x100000 4 true = none ∧
    (outst []).clerk ≠ [] ∧ (clkOf (outst []) 0).outst.length < 8 ∧ 8 ≤ (clkOf (outst (List.replicate 8 (mr 0 0x108000 false))) 0).outst.length ∧
    oldestReq (outst [mr 0 0x108000 false]) 0 0 = some (mr 0 0x108000 false) ∧
    oldestReq (outst [mr 0 0x108000 true]) 0 0 = some (mr 0 0x108000 true) ∧
    oldestReq (outst [mr 1 0x120004 false]) 0 1 = some (mr 1 0x120004 false) ∧
    oldestReq (outst [mr 1 0x120004 true]) 0 1 = some (mr 1 0x120004 true) ∧
    oldestReq (outst [mr 2 0x80300000 false]) 0 2 = some (mr 2 0x80300000 false) ∧
    offFenced (fs [(mcStatusState 0, 5)] (outst [mr 2 0x80300000 false])) (apertureOff (outst []) 0 0x80300000) = true ∧
    clkNow (outst []) 0 < (mr 0 0x108000 false).issued + 180 ∧
    (mr 0 0x108000 false).issued + 180 ≤ clkNow (fs [(clkBeatBeat, 1)] (outst [mr 0 0x108000 false])) 0 := by decide +kernel
theorem hyp_ClerkSystemInstructionsAndTraps : (∀ fn ∈ [0, 1, 2, 3, 4, 5, 6, 7], isSys fn (wordA 0x1E 0 0 0 0 fn) = true) ∧
    fieldSh (wordA 0x1E 0 0 0 9 4) = 9 ∧ rdB (fs [(clerkCauseBd 0, 1), (clerkCauseTaken 0, 1)] (atWord 0 0 0 0)) (clerkCauseBd 0) = true ∧
    rdB (atWord 0 0 0 0) (clerkCauseBd 0) = false ∧ (clkOf (outst [mr 0 0x108000 false]) 0).outst ≠ [] ∧
    (clkOf (outst []) 0).outst = [] ∧ rdB (fs [(clerkMstatErr 0, 1)] (outst [])) (clerkMstatErr 0) = true ∧
    definedWord 0x3 = false ∧ definedWord 0xFC000000 = false ∧ (clkOf (setClk 0 { st := .running, fetch := [(0x50000, none)] }
      State.reset) 0).fetch = (0x50000, none) :: [] := by decide +kernel
def live (l : List (Fld × Nat)) : State := fs l (atWord 0 0 0 0)
def toss (h miss : Nat) : State := setToss { holder := some h, misses := [(h, miss)] } State.reset
theorem hyp_ClerkInterruptsAndClaims : clkLive (live []) 0 = true ∧
    rdB (live [(clerkStatusIe 0, 1), (clerkIpPending 0, 1), (clerkIeEnable 0, 127)]) (clerkStatusIe 0) = true ∧
    inMask (clkPending (live [(clerkStatusIe 0, 1), (clerkIpPending 0, 64), (clerkIeEnable 0, 127)]) 0) 6 = true ∧
    (clkOf (live []) 0).slot = none ∧ (clkOf (live []) 0).load = none ∧ (clkOf (live []) 0).outst = [] ∧
    rdB (live []) (clerkStatusIe 0) = false ∧ inMask (15 % 16) 3 = true ∧ inMask (7 % 16) 3 = false ∧
    (toss 0 2).toss.holder = some 0 ∧ (cplxOf (toss 0 2) 1).fenced = false ∧ (toss 0 2).toss.pass = none ∧
    2 ≤ tget 0 (toss 0 2).toss.misses 0 ∧ tget 0 (toss 0 1).toss.misses 0 < 2 ∧ (3 % 2 = 1) ∧
    rdB (fs [(clerkTossForcedJunior 4, 1)] (toss 0 0)) (clerkTossForcedJunior (4 * 1)) = true := by decide +kernel

/-- Core 0 holds line 2 in a given state. -/
def l2 (st : Mesi) (s : State) : State := setCore 0 { l2 := [(2, ⟨0, st, false, 0x1122334455667788⟩)] } s
def acc : MemAcc := { va := 0x80, pa := 0x80, size := 8 }
theorem hyp_MainCoreAccessesAndCacheBlocks : hartRuns withHart 0 = true ∧ regionOf (offOf acc.pa) = .dram ∧
    bypassed (l2 .m withHart) 0 acc = false ∧ coreOfHart withHart 0 = some 0 ∧ acc.size ≤ 64 - acc.pa % 64 ∧
    l2Of (l2 .e withHart) 0 (lineOf acc.pa) = some ⟨0, .e, false, 0x1122334455667788⟩ ∧ ownerOf withHart 0 = 0 ∧
    accessFault (l2 .m withHart) 0 acc 4 5 false false = none ∧ accessFault (l2 .m withHart) 0 acc 6 7 false false = none ∧
    accessFault (l2 .m withHart) 0 acc 6 7 true false = none ∧ accessFault (l2 .m withHart) 0 acc 4 5 true true = none ∧
    accessFault (l2 .m withHart) 0 acc 6 7 true true = none ∧
    accessFault withHart 0 { acc with fault1 := some 13 } 4 5 false false = some (13, 0x80) ∧
    accessFault withHart 0 { acc with fault1 := some 15 } 6 7 false false = some (15, 0x80) ∧
    (hartOf (setHart 0 { hartOf withHart 0 with resv := some 2 } withHart) 0).resv = some (lineOf acc.pa) ∧
    envFault withHart 0 6 1 = none ∧ envFault (setHart 0 { hartOf withHart 0 with priv := .u } withHart) 0 7 1 = some 2 ∧
    isMain 0x80 = true ∧ populated withHart 0x80 = true ∧ mayReach withHart 0 (lineOf 0x80) = true ∧
    ownLine withHart (lineOf 0x80) = true ∧ (sliceOf withHart (homeSlice withHart 0 (lineOf 0x80))).amq.length < 48 ∧
    rdB withHart (dzcachectlDbypass 0) = false ∧ (l2Of (l2 .m withHart) 0 (lineOf acc.pa)).isSome = true ∧
    l2Of withHart 0 (lineOf acc.pa) = none ∧ ({ acc with early := true } : MemAcc).early = true ∧
    coreFrozen withHart 0 = false ∧ (sliceOf withHart (homeSlice withHart 0 (lineOf acc.pa))).outside = [] ∧
    amqRoom withHart 0 0 [] = true := by decide +kernel
/-- Neither prefetcher of hart 0 is enabled, and no output of its pair is to be inverted. -/
theorem hyp_MainCoreAccesses_quiet :
    quiet (fs [(dzprefetchL1StrideEn 0, 0), (dzprefetchL2StreamEn 0, 0)] withHart) 0 ∧ noInvert withHart 0 := by
  refine ⟨⟨by decide +kernel, by decide +kernel⟩, fun p _ => ?_⟩
  by_cases h : p = 0 <;> simp [invertArmed, pairOf, withHart, withMem, setHart, fs, wr, State.reset, tget, h]
theorem hyp_ControlWindowAndRegisterWrites : 0x10028 % 8 = 0 ∧ clerkOnly pwrIdleIdleBeats = true ∧ fieldsAt (0x10028 / 8 * 8) ≠ [] ∧
    chanPresent withHart 0 = true ∧ windowReach withHart 0 0x01000000 true = true ∧ windowReach withHart 0 0x0 false = true ∧ windowReach withHart 0 0x20000 false = false ∧
    windowReach withHart 0 0x0 true = false ∧ 2 % 4 ≠ 0 := by decide +kernel
def hpriv (p : Priv) : State := setHart 0 { hartOf withHart 0 with priv := p, resv := some 2 } withHart
theorem hyp_WaitsSeedsKeysAndBranches : hartRuns (hpriv .m) 0 = true ∧ (hartOf (hpriv .m) 0).resv.isSome = true ∧
    irqPending (hpriv .m) 0 = false ∧ twEnds (hpriv .m) 0 = false ∧ (hartOf withHart 0).resv = none ∧
    (hartOf (setHart 0 { hartOf withHart 0 with wrs := .sto } withHart) 0).wrs = .sto ∧
    irqPending (setHart 0 { hartOf withHart 0 with pend := [1], enab := [1] } withHart) 0 = true ∧
    pairOfHart withHart 0 = some 0 ∧ pairTile 0 ∉ withHart.chip.entropyDead ∧ 262144 ≤ (coreOf (setCore 5 { retired := 262144 } State.reset) 5).retired ∧
    (coreOf State.reset 5).retired < 262144 ∧ coresOfHart withHart 0 ≠ [] ∧
    legalMode (8 * 2 ^ 60) = true ∧ legalMode (7 * 2 ^ 60) = false ∧ provider 0 0x1000 {} = 0 ∧ predicted 0 0x1000 {} = false ∧
    pairTile 0 ∈ ({ withHart with chip := { withHart.chip with entropyDead := [0] } } : State).chip.entropyDead := by decide +kernel
theorem hyp_BypassInterruptsAndSnoops : (hartOf (hpriv .vs) 0).priv = .vs ∧ (hartOf (hpriv .vu) 0).priv = .vu ∧
    hartRuns (hpriv .u) 0 = true ∧ rdB (hpriv .m) (dzcachectlDbypass 0) = false ∧
    1 ∈ (hartOf (setHart 0 { hartOf withHart 0 with pend := [1], enab := [1] } withHart) 0).pend ∧
    1 ∉ (hartOf withHart 0).pend ∧ 0 < hartCount withHart ∧ ownerOf withHart 0 = 0 ∧
    (hartOf (setHart 0 { hartOf withHart 0 with st := .frozen } withHart) 0).st = .frozen ∧ 5 ≠ ownerOf withHart 0 ∧
    (hartOf withHart 0).access = none ∧
    (hartOf (setHart 0 { hartOf withHart 0 with access := some { pc := 0x1000, elem := some 2 } } withHart) 0).access.isSome = true ∧
    coreFrozen withHart 0 = false ∧ coreFrozen (fs [(pairStatusState 0, 5)] withHart) 0 = true := by decide +kernel

/-! ## Checked pairs -/

def pr (st : Nat) (p : Pair) : State := setPair 0 p (fs [(pairStatusState 0, st), (pairDecisionStep 0, 1)] withHart)
theorem hyp_PairErrorsFreezeOrFence : rd (pr 3 {}) (pairStatusState 0) = 3 ∧ rd (pr 4 { survivor := some 1 }) (pairStatusState 0) = 4 ∧
    (pairOf (pr 4 { survivor := some 1 }) 0).survivor = some 1 ∧ (pairOf (pr 3 { injectB := some 5 }) 0).injectB.isSome = true ∧
    rd (fs [(pairStatusState 0, 2), (pairCtrlMode 0, 0)] withHart) (pairStatusState 0) = 2 ∧
    hartOfCore (fs [(pairCtrlMode 0, 0)] withHart) 0 1 = some 1 ∧ (hartOf withHart 1).st ≠ .fenced ∧
    rdB withHart (pairStatusSlotValid 0) = true ∧ (pairOf (pr 3 { invert := true }) 0).invert = true := by decide +kernel
theorem hyp_DecisionAndSparingSequences : rd (pr 5 {}) (pairStatusState 0) = 5 ∧ (pairOf (pr 5 {}) 0).libero ≠ some 0 ∧
    latched (fs [(errFld 0 0 8, 1)] (pr 5 {})) 0 0 = true ∧ latched (pr 5 {}) 0 0 = latched (pr 5 {}) 0 1 ∧
    latched (fs [(errFld 0 0 8, 1)] (pr 5 {})) 0 (1 - 0) = false ∧ rd (pr 6 {}) (pairStatusState 0) = 6 ∧
    (pairOf (pr 5 {}) 0).images = [] ∧ beat (pr 5 {}) < rd (pr 5 {}) (pairCmpBeatBeat 0) + 3 ∧
    rd (pr 5 {}) (pairCmpBeatBeat 0) + 180 ≤ beat (fs [(clkBeatBeat, 180)] (pr 5 {})) ∧ (pairOf (pr 8 {}) 0).resumeAt = none ∧
    rd (pr 6 {}) (pairDecisionStep 0) = 1 ∧ rd (pr 6 {}) (pairDecisionOutcome 0) = 0 ∧
    rd (fs [(pairDecisionStep 0, 2)] (pr 6 {})) (pairDecisionStep 0) = 2 ∧ (pairOf (pr 6 {}) 0).reqMbx = none ∧
    (pairOf (pr 7 { doomed := true }) 0).doomed = true ∧ rd (pr 7 {}) (pairStatusState 0) = 7 ∧ rd (pr 8 {}) (pairStatusState 0) = 8 ∧
    (pairOf (pr 8 { digestBad := 1 }) 0).digestBad = 1 ∧ (pairOf (pr 8 { resumeAt := some 0, libero := some 16 }) 0).resumeAt = some 0 ∧
    0 ≤ beat (pr 8 {}) ∧ (pairOf (pr 8 { resumeAt := some 0, libero := some 16 }) 0).libero = some 16 ∧ beat (pr 8 {}) < 9 := by
  decide +kernel
def off0 : State := setHart 0 {} withHart
theorem hyp_CoreCommands : (∀ c ∈ [0x0401, 0x0402, 0x0403, 0x0404, 0x0405, 0x0406], (takenCmd (tk 0 c [] withHart) 0 c).isSome = true) ∧
    pairOfSlot withHart 0 = some 0 ∧ pairOfSlot withHart 1 = none ∧ slotOffline withHart 0 = false ∧ slotOffline off0 0 = true ∧
    merged withHart 1 = true ∧ merged off0 0 = false ∧ (hartOf off0 0).st = .offline ∧ domState off0 0 = 2 ∧ coreFailed off0 0 = false ∧
    isSealed off0 (ownerOf off0 0) = false ∧ rd (pr 0xB {}) (pairStatusState 0) = 0xB := by decide +kernel

/-! ## Slices, fences and channels -/

/-- Slice 0 holds line 2 as given. -/
def sl (r : Slice) : State := setSlice 0 r withMem
def line2 : SLine := { tag := 0, way := 0, dirty := true, locked := false, poison := false, data := 7 }
theorem hyp_SliceRequestsAndFills : homeSlice withMem 0 2 = 0 ∧ opWaits (sl { amq := [⟨2, 0, 1, 0⟩] }) 0 2 = true ∧
    opWaits (sl {}) 0 2 = false ∧ wayClear (sl {}) 0 2 true none = true ∧ (sliceOf (sl { amq := [⟨2, 0, 1, 0⟩] }) 0).amq.length < 48 ∧
    dirOf (sl {}) 0 2 = none ∧ (arrOf (sl { lines := [(2, line2)] }) 0 2).or (vicOf (sl {}) 0 2) = some line2 ∧
    ownLine withMem 2 = true ∧ arrOf (sl {}) 0 2 = none ∧ vicOf (sl {}) 0 2 = none ∧ filling (sl {}) 0 2 = false ∧
    (sliceOf (sl {}) 0).fills.length < 64 ∧ mayReach withMem 0 2 = true ∧ ownDram withMem 2 = true ∧
    (coord withMem (2 % 2 ^ 40 * 64)).isSome = true ∧ mayReach withMem 5 2 = false ∧ ownDram withMem (2 ^ 40 + 2) = false ∧
    mayReach withMem 0 (2 ^ 40 + 2) = true ∧ tget none ({ withMem.mem with arrived := [(2, some (0, 9, true))] } : Mem).arrived (2 % 2 ^ 40) =
      some (0, 9, true) ∧
    (sliceOf (sl { fills := [⟨2, 0, 0, false⟩] }) 0).fills.find? (fun f => f.line == 2) = some ⟨2, 0, 0, false⟩ ∧
    (sliceOf (sl {}) 0).dir = [] ∧ rd withMem (llcStatusState 0) = 1 ∧ tget 0 (sliceOf (sl {}) 0).parked 2 = 0 ∧
    ((eligible (fs [(llcWaysSharedMask 0, 3)] withMem) 0 0).find? (fun w => (occupant withMem 0 2 w).isNone)).isSome = true ∧
    coreFrozen withMem 5 = false ∧ coreFrozen (fs [(pairStatusState 0, 5)] withMem) 0 = true ∧
    filling (sl { fills := [⟨2, 0, 0, false⟩] }) 0 2 = true ∧ (sliceOf (sl {}) 0).outside = [] ∧ (sliceOf (sl {}) 0).amq = [] ∧
    amqRoom (sl {}) 0 0 (sliceOf (sl {}) 0).amq = true ∧ (⟨2, 5, 4, 0⟩ : AmqEnt) ∉ (sliceOf (sl {}) 0).amq ∧ line2.err = 0 ∧
    line2.tagErr = false ∧ ownLine withMem 2 = true ∧ missRoom (sl {}) 0 0 = true ∧
    missRoom (sl { fills := (List.range 64).map fun k => ⟨100 + k, 0, 0, false⟩ }) 0 0 = false ∧
    tget none ({ withMem.mem with arrived := [(2, some (0, 0, true))] } : Mem).arrived 2 = some (0, 0, true) ∧
    tget none withMem.mem.arrived 2 = none := by
  decide +kernel
def amq1 : AmqEnt := ⟨2, 0, 1, 0⟩
def ce (kind : Nat) : State := { State.reset with armed := [(armKey 2 0, some ⟨kind, 0, 0⟩)] }
theorem hyp_SliceMaintenanceAndRemoval : ownLine (sl {}) 2 = true ∧ ownLine (sl {}) (2 ^ 40 + 2) = false ∧
    (sliceOf (sl { amq := [amq1] }) 0).amq.find? (fun e => e.line == 2 && (e.op == 1 || e.op == 2 || e.op == 3)) = some amq1 ∧
    maintAnswered withMem 2 = true ∧ wayClear (sl {}) 0 2 (amq1.op != 1) none = true ∧ isReq amq1 = false ∧ filling (sl { amq := [amq1] }) 0 2 = false ∧
    (hartOf (setHart 0 { hartOf withHart 0 with cbo := some 2 } withHart) 0).cbo = some 2 ∧ hartOfCore withHart 0 0 = some 0 ∧ homeWaits (sl {}) 2 = false ∧
    arrOf (sl { lines := [(2, line2)] }) 0 2 = some line2 ∧ line2.dirty = true ∧ opWaits (sl {}) 0 2 = false ∧
    l2Of (l2 .m withHart) 0 2 = some ⟨0, .m, false, 0x1122334455667788⟩ ∧ l2Of withHart 0 2 = none ∧
    rd (fs [(llcStatusState 127, 2)] withMem) (llcStatusState 127) = 2 ∧ (sliceOf withMem 127).lastOne = false ∧
    (sliceOf (sl { lastOne := true }) 0).lastOne = true ∧ rd (fs [(llcStatusState 0, 3)] withMem) (llcStatusState 0) = 3 ∧
    ({ withMem with mesh := { preload := [(4, ⟨4, 0, 0, 4096, 1, [], [0], []⟩)] } } : State).mesh.preload.find? (fun e => e.1 == 4) =
      some (4, ⟨4, 0, 0, 4096, 1, [], [0], []⟩) ∧
    isArmed (ce 0) 2 0 0 = some ⟨0, 0, 0⟩ ∧ isArmed (ce 2) 2 0 2 = some ⟨2, 0, 0⟩ ∧ isArmed (ce 2) 2 0 1 = none := by decide +kernel
def locks (n : Nat) : State := { withMem with mesh := { withMem.mesh with locks := (List.range n).map fun k => ⟨0, k, 0, 4096, 1, [2], [0], [(0, 1)]⟩ } }
theorem hyp_CacheCommands : (∀ c ∈ [0x0601, 0x0602, 0x0603, 0x0604], (takenCmd (tk 0 c [] withMem) 0 c).isSome = true) ∧
    ownsRange withMem 0 0 4096 = true ∧ ownsRange withMem 5 0 4096 = false ∧ 8 ≤ (locksOf (locks 8) 0).length ∧
    (locksOf (locks 7) 0).length < 8 ∧ ((locksOf (locks 8) 0).find? fun k => k.id == min 7 7).isSome = true ∧
    (locksOf (locks 0) 0).find? (fun k => k.id == min 7 0) = none ∧ homeSlice (locks 1) 0 2 < 128 ∧ (∀ k ∈ (locks 1).mesh.locks, ∀ e ∈ k.held, e.1 < 128) ∧
    rd withMem (llcStatusState 1) ≠ 1 ∧ lastSlice withMem 0 = true ∧ rd withMem (llcStatusState 0) = 1 ∧
    lastSlice (fs [(llcStatusState 1, 1)] withMem) 0 = false := by decide +kernel

def downs4 : State := setGroup 0 { downs := [(0, 0), (0, 0), (0, 0), (0, 0)] } (fs [(portStatusState (portBase 0 0), 3)] State.reset)
def fails4 : State := setFab { State.reset.fabric with ports := [(0, { fails := [0, 0, 0, 0] })] } State.reset
theorem hyp_FencesOfUnits : runningTests withMem = [] ∧ withMem.boot.step ≠ 9 ∧ rd withMem (llcStatusState 0) = 1 ∧
    (sliceOf (sl { fault := [(5, 3, [])] }) 0).fault = (5, 3, []) :: [] ∧ rd withMem (llcStatusFenced 0) = 0 ∧
    chanPresent withMem 0 = true ∧ rd withMem (mcStatusState 0) = 3 ∧ 1 < ranksOf withMem 0 ∧ 1 ∉ (chanOf withMem 0).fencedRanks ∧
    (chanOf withMem 0).fencedSubs = [] ∧ groupPresent downs4 0 = true ∧ 4 ≤ recentDowns downs4 0 0 ∧ portState downs4 0 0 = 3 ∧
    fabPortPresent State.reset 0 = true ∧ portState5 (fs [(fabPortStatusState 0, 4)] State.reset) 0 = 4 ∧ 4 ≤ recentFails fails4 0 ∧
    (fportOf fails4 0).fenced = false ∧ dmaState (fs [(dmaStatusState 3, 3)] State.reset) 3 = 3 ∧ (dmaOf State.reset 3).aborting = false ∧
    dmaPriv 28 = true ∧ dmaPriv 27 = false ∧ halfFenced State.reset 1 = false ∧
    halfFenced (fs [(pwrDomainFenced 180, 1)] State.reset) 0 = true ∧ (toss 0 0).toss.pass = none := by decide +kernel

/-- Channel 0 as given, under the registers given. -/
def ch (l : List (Fld × Nat)) (r : Chan) : State := setChan 0 { r with dimm := some dimm } (fs l withMem)
def eye : Nat := 2 ^ 60 - 2 ^ 20
theorem hyp_TrainingFillAndSelfRefresh : rd (ch [(mcStatusState 0, 1), (mcStatusStep 0, 4)] {}) (mcStatusState 0) = 1 ∧
    (chanOf (ch [(mcStatusState 0, 1), (mcStatusStep 0, 4)] {}) 0).trained = false ∧ rd (ch [(mcStatusStep 0, 6)] {}) (mcStatusStep 0) = 6 ∧
    rd (ch [(mcStatusStep 0, 1)] {}) (mcStatusStep 0) = 1 ∧ spdOf [] [] = none ∧
    spdOf [1, 4, 1, 2, 0, 1, 64, 32000, 17500, 30000, 16000, 16000, 16000, 295000] [4800, 5600, 6400] ≠ none ∧
    rd (ch [(mcStatusStep 0, 7)] {}) (mcStatusStep 0) ∈ [2, 3, 5, 7] ∧ rd withMem (mcDimmRanks 0) ≤ 2 ∧
    (∀ late, nibbleOf late 2 [] 39 = none) ∧
    (∀ n ∈ List.range 40, ∀ late, (nibbleOf late 2 (List.replicate 40 eye) n).isSome = true) ∧
    (∀ late, nibbleOf late 2 (List.replicate 40 eye) 0 = nibbleOf false 2 (List.replicate 40 eye) 0) ∧
    rd (ch [(mcStatusStep 0, 8)] {}) (mcStatusStep 0) = 8 ∧ (chanOf (ch [] {}) 0).dimm = some dimm ∧
    (gridBlocks (gridLen dimm 4800) 2)[0]? ≠ none ∧ chanPresent withMem 0 = true ∧ withMem.mem.speed = 0 ∧
    ({ withMem.mem with speed := 4800 } : Mem).speed ≠ 0 ∧ trainingChans withMem = [] ∧ trainLimitMs 4 * 1000 < beat (fs [(clkBeatBeat, 10000000)] withMem) - 0 ∧
    rd (ch [(mcStatusState 0, 2)] {}) (mcStatusState 0) = 2 ∧ rd (ch [(mcStatusState 0, 4)] {}) (mcStatusState 0) = 4 := by
  decide +kernel

def dq (cls : Nat) (write : Bool) : DAcc := { pa := 0x80, tag := 0, write, cls }
def rq (write : Bool) : DReq := { line := 2, tag := 0, write, cls := 1 }
/-- Tenancy 0 under key 0, generation 0. -/
def keyed (s : State) : State := { s with mem := { s.mem with keys := [(0, { gen0 := some 0, cur := some 0 })] } }
def blk (l : List (Fld × Nat)) (r : Chan) : State := ch ([(mcSealBlockValid 0 63, 1), (mcSealBlockOwner 0 63, 7), (mcSealBlockSlotEn 0 63, 5)] ++ l) r
theorem hyp_DramRequestsAndCommands : (coord withMem (0x80 % 2 ^ 46)).isSome = true ∧ 0 ∈ copies withMem 0 ∧
    granuleOk withMem 0x80 5 false = false ∧ granuleOk withMem 0x80 0 false = true ∧ (coord withMem 0x80).any (partFenced withMem 0 ·) = false ∧
    isSealed withMem 0 = false ∧ ((queueOf withMem 0 0).filter fun r => r.write == false).length < 64 ∧ (rtOf withMem 0 1).length < 64 ∧
    rd (fs [(panicLevel 1 0, 0)] withMem) (panicLevel 1 0) < (rtOf withMem 0 1).length + 1 ∧
    (coord withMem 0x80).all (fun k => (copies (fs [(mcStatusState 0, 5)] withMem) k.chan).all fun x => partFenced (fs [(mcStatusState 0, 5)] withMem) x k) = true ∧
    recovering withMem 0 0 = false ∧ pickShared (ch [] { queue := [(0, [rq false])] }) 0 0 0 = some (rq false) ∧
    pickShared (ch [] { queue := [(0, [rq true])] }) 0 0 0 = some (rq true) ∧ mirrored withMem 0 = false ∧
    (keyEnt (keyed withMem) 0).cur = some 0 ∧ rdB withMem (mcFlipCtrlArmed 0) = false ∧ 0 ∉ (chanOf withMem 0).stopped ∧
    rd withMem (mcSchedCtrlIdleClose 0) ≤ 65535 ∧ rdB (blk [] {}) (mcSealBlockValid 0 63) = true ∧
    rd (blk [] {}) (mcSealBlockOwner 0 63) = 7 ∧ rd withMem (mcSealBlockOwner 0 63) = 0 ∧
    (List.range 2).all (fun r => fencedAt (blk [] { fencedRanks := [0, 1] }) 0 1 r) = true ∧ partnerServes (blk [] {}) 0 1 0 = false ∧
    (List.range 2).all (fun r => !fencedAt (blk [] {}) 0 1 r && !catchingUp (blk [] {}) 0 r) = true ∧ sweepOn (blk [] {}) 7 0 1 0 = false ∧
    (sealedOf (blk [] { sealedQ := [(1 * 512 + 7, [{ rq false with tag := 7 }])] }) 0 1 7).filter
      (fun q => (coord (blk [] {}) (q.line * 64)).any fun k => k.rank == 0) = { rq false with tag := 7 } :: [] := by decide +kernel
theorem hyp_DramRequests_slots : (chanOf withMem 0).refreshing = [] ∧ catchingUp withMem 0 0 = false ∧ outsideOf withMem 0 0 = [] ∧
    0 ∉ (chanOf withMem 0).fencedSubs ∧ (coord withMem ((rq false).line * 64)).any (fun k => k.chan == 0 && k.sub == 0) = true ∧
    (keyed withMem).mem.map = withMem.mem.map ∧ ownedIn (blk [] {}) 0 63 (blockFrame (blk [] {}) 0 63 (rd (blk [] {}) (mcSlotGridPre 0))) = true ∧
    ownedIn withMem 0 63 (blockFrame withMem 0 63 (rd withMem (mcSlotGridPre 0))) = false ∧
    64 ≤ ((queueOf (ch [] { queue := [(0, List.replicate 64 (rq false))] }) 0 0).filter fun r => r.write == false).length ∧
    rd (blk [] {}) (mcStatusState 0) = 3 ∧ (chanOf (blk [] {}) 0).wholeFrom ≤ blockFrame (blk [] {}) 0 63 (selSlots (blk [] {}) 0) ∧
    fencedAt (blk [] {}) 0 1 1 = false ∧ meetsCatchUp (blk [] {}) 0 63 0 1 = false ∧ meetsRecovery (blk [] {}) 0 63 0 = false ∧
    meetsCatchUp (blk [] { catchUps := [(1, some ⟨0, 8, 8, 0, 0, 0⟩)] }) 0 63 0 1 = true ∧ mirrored (blk [] {}) 0 = false ∧
    meetsRecovery (blk [] { recov := [(1, some ⟨0, 0⟩)] }) 0 63 0 = true ∧
    (sealedOf (blk [] { sealedQ := [(1 * 512 + 7, [{ rq false with tag := 7 }])] }) 0 1 7).filter
      (fun q => inOrder (blk [] {}) q && (coord (blk [] {}) (q.line * 64)).any fun k => k.rank == 0) = { rq false with tag := 7 } :: [] := by
  decide +kernel

def fl (r : Chan) : State := keyed (ch [] { r with flight := [(0, [rq false])] })
theorem hyp_DramReadReturns : flightOf (fl {}) 0 0 = rq false :: [] ∧ (coord (fl {}) (2 * 64)).isSome = true ∧
    (coord (fl {}) (2 * 64)).any (partFenced (fl {}) 0 ·) = false ∧ (rq false).dest ≠ 2 ∧ (rq false).fwd = false ∧
    checkLine (fl {}).mem.keys 0 {} none [] = .clean ∧ checkLine (fl {}).mem.keys 0 {} none [(3, 1)] = .corrected 3 ∧
    checkLine (fl {}).mem.keys 0 { poison := true } none [] = .stored ∧ checkLine (fl {}).mem.keys 0 {} none [(3, 1), (4, 2)] = .uncorr ∧
    checkLine (fl {}).mem.keys 0 { key := 9 } none [] = .integrity ∧ ROut.uncorr.bad = true ∧ ROut.integrity.bad = true ∧
    (tget [] (chanOf (ch [] { retry := [(0, [rq true])] }) 0).retry 0).find? (·.write) = some (rq true) ∧
    (tget [] (chanOf (fl {}) 0).retry 0).find? (·.write) = none ∧ mirrored (fl {}) 0 = false ∧ (rq false).reread < 2 ∧
    isSealed (fl {}) (rq false).tag = false ∧ 2 ≤ ({ rq false with reread := 2 } : DReq).reread ∧ (chanOf (fl {}) 0).rdDue = [] := by
  decide +kernel
theorem hyp_RefreshAlertsAndRecovery : rd withMem (mcStatusState 0) = 3 ∧ 1 < ranksOf withMem 0 ∧ catchingUp withMem 0 1 = false ∧
    min 8 (rd withMem (refOwed 0 1) + remOf withMem 0 1 / tRefi withMem 0 1) = 0 ∧
    min 8 (rd (fs [(refOwed 0 1, 4)] withMem) (refOwed 0 1) + 0) = 4 ∧ queuedFor withMem 0 1 < 8 ∧
    8 ≤ queuedFor (ch [] { queue := [(0, List.replicate 8 (rq false))] }) 0 0 ∧ 1 ∈ (chanOf (ch [] { catchDue := [1] }) 0).catchDue ∧
    tget none (chanOf (ch [] { catchUps := [(1, some ⟨0, 8, 8, 0, 0, 0⟩)] }) 0).catchUps 1 = some ⟨0, 8, 8, 0, 0, 0⟩ ∧ rd withMem (refOwed 0 1) ≤ 8 ∧
    1 ∈ (chanOf (ch [] { returnDue := [1] }) 0).returnDue ∧ rdB (fs [(refDoubled 0 1, 1)] withMem) (refDoubled 0 1) = true ∧
    rdB withMem (refDoubled 0 1) = false ∧ rd (fs [(mcDriftCtrlThreshold 0, 2)] withMem) (mcDriftCtrlThreshold 0) ≤ (2 - tget 0 (chanOf withMem 0).drift 1).natAbs ∧
    rd (fs [(mcDriftCtrlAlarmSteps 0, 8)] withMem) (mcDriftCtrlAlarmSteps 0) ≤ (-8 : Int).natAbs ∧ rdB withMem (mcDriftStatusAlarm 0) = false ∧
    0 ∉ (chanOf withMem 0).stopped ∧ tget none (chanOf (ch [] { recov := [(0, some ⟨0, 2⟩)] }) 0).recov 0 = some ⟨0, 2⟩ ∧
    recovering (ch [] { recov := [(0, some ⟨0, 2⟩)] }) 0 0 = true ∧
    isArmed { State.reset with armed := [(armKey 3 0, some ⟨0, 1, 0⟩)] } 3 0 0 = some ⟨0, 1, 0⟩ ∧
    isArmed { State.reset with armed := [(armKey 3 0, some ⟨1, 0, 0⟩)] } 3 0 1 = some ⟨1, 0, 0⟩ ∧ isArmed State.reset 3 0 0 = none := by
  decide +kernel
/-- Rank 1 of channel 0 has had its refresh window; a catch-up and a recovery have ended in slot 5. -/
def quietCh (l : List (Fld × Nat)) : State := ch l { refreshing := [1], catchPast := [(1, some 5)], recovPast := [(0, some 5)] }
theorem hyp_RefreshAlertsAndRecovery_ends : 1 ∈ (chanOf (quietCh []) 0).refreshing ∧ 1 ∉ (chanOf withMem 0).refreshing ∧
    driftDue (quietCh []) 0 1 = true ∧ driftDue withMem 0 1 = false ∧ tget none (chanOf (quietCh []) 0).catchPast 1 = some 5 ∧
    claimedBefore (quietCh []) 0 5 (fun _ x => x == 1) = false ∧ tget none (chanOf (quietCh []) 0).recovPast 0 = some 5 ∧
    claimedBefore (quietCh []) 0 5 (fun x _ => x == 0) = false ∧ ranksOf withMem 0 ≤ 2 ∧ recovering withMem 0 0 = false ∧
    1 ∉ (chanOf withMem 0).catchDue := by decide +kernel
theorem hyp_SparingPatrolAndScrub : rdB (fs [(mcFlipCtrlArmed 0, 1)] withMem) (mcFlipCtrlArmed 0) = true ∧
    (chanOf withMem 0).flipBeat + 1000000 ≤ beat (fs [(clkBeatBeat, 1000000)] withMem) ∧ beat withMem < (chanOf withMem 0).flipBeat + 1000000 ∧
    beat withMem % max 1 (rd withMem (mcSpareCtrlWindowBeats 0)) = 0 ∧ beat (fs [(clkBeatBeat, 1), (mcSpareCtrlWindowBeats 0, 5)] withMem) %
      max 1 (rd (fs [(mcSpareCtrlWindowBeats 0, 5)] withMem) (mcSpareCtrlWindowBeats 0)) ≠ 0 ∧
    tget 0 (chanOf (ch [] { spareDue := [(3, 10)] }) 0).spareDue (1 * 2 + 1) = 9 + 1 ∧ sparedDev withMem 0 1 1 = none ∧
    rd withMem (mcSpareStatusSpared 0) < 2 ^ 20 ∧ rdB (fs [(mcPatrolRunning 0, 1)] withMem) (mcPatrolRunning 0) = true ∧
    rdB withMem (mcPatrolRunning 0) = false ∧ rd (fs [(mcPatrolReason 0, 1)] withMem) (mcPatrolReason 0) = 1 ∧
    4096 / 64 ≤ (⟨0, 4096, 0, 0, 64, 64, 0, 0, 0⟩ : Scrub).next ∧ withMem.mem.scrub = none ∧
    (mbxOf (setMbx 0 { (mbxOf (tk 0 0x0504 [] withMem) 0) with phase := .started } (tk 0 0x0504 [] withMem)) 0).phase = .started ∧
    rd (tk 0 0x0504 [] withMem) (mbxStatState 0) = 2 ∧ (coord withMem (clampPa withMem 0)).any (fun k => decide (k.chan < 16)) = true ∧
    (mbxOf withMem 0).phase ≠ .started := by decide +kernel
def sealed7 (s : State) : State := setTenant 7 { st := .isSealed } s
theorem hyp_MemoryCommands : (∀ c ∈ [0x0501, 0x0502, 0x0503, 0x0504, 0x0505, 0x0506], (takenCmd (tk 0 c [] withMem) 0 c).isSome = true) ∧
    isSealed (sealed7 withMem) 7 = true ∧ holdsSealed { sealed7 withMem with mem := { withMem.mem with granules := [(0, 7)] } } 0 0 4096 = true ∧
    holdsSealed withMem 0 0 4096 = false ∧ isSealed withMem 0 = false ∧ coord withMem (2 ^ 33) = none ∧ subOwned withMem 0 0 = false ∧
    (coord withMem 0).any (rowListed withMem 0 ·) = false ∧
    (coord withMem 0).any (fun k => rowListed (ch [] { repair := [⟨k.sub, k.rank, rowKey k, false⟩] }) 0 k) = true ∧
    (chanOf withMem 0).repair.length < 64 ∧ (sparedDev (fs [(mcSpareStatusSpared 0, 2 ^ 20 - 1)] withMem) 0 0 0).isSome = true ∧
    sparedDev withMem 0 0 0 = none ∧ (locate withMem (clampPa withMem 0)).isSome = true := by decide +kernel

/-! ## Tenancies, links and requests -/

def opened5 (s : State) : State := setTenant 5 { st := .opened } s
theorem hyp_TenantResourceCommands : (∀ c ∈ [0x0301, 0x0302, 0x0303, 0x0304, 0x0308], (takenCmd (tk 0 c [] withMem) 0 c).isSome = true) ∧
    (tenantOf withMem 5).st = .free ∧ (tenantOf (opened5 withMem) 5).st = .opened ∧ grantOutcome (opened5 withMem) 0 (2 ^ 21) 5 = 0 ∧
    grantOutcome withMem 0 (2 ^ 21) 5 = 2 ∧ merged withHart 1 = true ∧ merged off0 0 = false ∧ (hartOf withHart 0).st ≠ .offline ∧
    slotSplit off0 (0 / 2) = false ∧ rangeOwned (opened5 withMem) 0 0 4096 = true ∧
    rangeOwned { opened5 withMem with mem := { withMem.mem with granules := [(1, 5)] } } 5 (2 ^ 21) 4096 = true ∧
    rangeOwned withMem 5 0 4096 = false ∧ ownerOf off0 0 = 0 ∧ ownerOf off0 0 ≠ 5 ∧ pairOfHart off0 0 = some 0 := by decide +kernel
def ready7 : State := setTenant 7 { st := .opened } withMem
theorem hyp_TenantSealCommands : (∀ c ∈ [0x0305, 0x0306, 0x0307, 0x0309, 0x030A], (takenCmd (tk 7 c [] withMem) 7 c).isSome = true) ∧
    sealPlan withMem 7 2 1 1 1 0 = .inl 1 ∧ isSealed (sealed7 withMem) 7 = true ∧ isSealed withMem 7 = false ∧
    (tenantOf (sealed7 withMem) 7).st = .isSealed ∧ (tenantOf ready7 7).st = .opened ∧ (tenantOf ready7 7).sweep = none ∧
    (tenantOf (setTenant 7 { st := .opened, sweep := some { old := 0 } } withMem) 7).sweep.isSome = true ∧
    (tenantOf (setTenant 7 { st := .closing } withMem) 7).st = .closing ∧ (tenantOf ready7 7).st ≠ .free := by decide +kernel
theorem hyp_TenancySequencesEnd : (tenantOf (setTenant 7 { st := .sealing } withMem) 7).st = .sealing ∧
    (tenantOf (setTenant 7 { unsealing := true } withMem) 7).unsealing = true ∧ (tenantOf withMem 7).unsealing = false ∧
    (tenantOf (setTenant 7 { st := .closing, released := true } withMem) 7).released = true ∧ writeWaits withMem 7 = false ∧
    writeWaits (ch [] { queue := [(0, [{ rq true with tag := 7 }])] }) 7 = true ∧ sweepLine withMem 7 0 = none ∧
    (tenantOf withMem 7).sweep = none := by decide +kernel

def port (st : Nat) (p : FabPort) : State := setFab { State.reset.fabric with ports := [(5, p)] } (fs [(fabPortStatusState 5, st)] State.reset)
theorem hyp_LinksComeUpAndAreKeyed : portState5 (port 2 {}) 5 = 2 ∧ (fportOf (port 2 {}) 5).follow = false ∧ State.reset.assayer.hung = false ∧
    (setAssayer { hung := true } (port 2 {})).assayer.hung = true ∧ (∀ n ∈ [0, 1, 2], n ∈ (fportOf (port 3 { proved := [0, 1, 2] }) 5).proved) ∧
    100000 ≤ beat (fs [(clkBeatBeat, 100000)] (port 1 {})) - (fportOf (port 1 {}) 5).began ∧ beat (port 1 {}) - (fportOf (port 1 {}) 5).began < 20000 ∧
    rdB (fs [(fabPortCtrlEnable 5, 1)] (port 6 {})) (fabPortCtrlEnable 5) = true ∧ (fportOf (port 6 {}) 5).fenced = false ∧ (fportOf (port 6 {}) 5).oos = false ∧
    portUp (port 4 {}) 5 = true ∧ 2 ^ 40 ≤ (fportOf (port 4 { cntTx := 2 ^ 40, cntRx := 2 ^ 40 }) 5).cntRx ∧
    (fportOf (port 4 {}) 5).cntTx < 2 ^ 40 ∧ (fportOf (port 2 { follow := true }) 5).follow = true := by decide +kernel
theorem hyp_LinkFailuresAndFlits : portState5 (port 4 {}) 5 = 4 ∧ 8 ≤ (fportOf (port 4 { again := 8, quiet := 4 }) 5).again ∧
    4 ≤ (fportOf (port 4 { again := 8, quiet := 4 }) 5).quiet ∧ rdB (port 4 {}) (fabPortStatusWidth 5) = false ∧
    rdB (fs [(fabPortStatusWidth 5, 1)] (port 4 { half := 1 })) (fabPortStatusWidth 5) = true ∧ 7 / 4 = (fportOf (port 4 { half := 1 }) 5).half ∧
    3 / 4 ≠ (fportOf (port 4 { half := 1 }) 5).half ∧ (fportOf (port 4 {}) 5).again < 8 ∧ portState5 (port 8 {}) 5 = 8 ∧
    (⟨4095, 0, false, false, 3, 7, [], [], 0⟩ : Flit).seq ≠ (fportOf (port 4 {}) 5).seqRx ∧
    (⟨4095, 0, false, false, 3, 7, [], [], 0⟩ : Flit).seq = (fportOf (port 4 { seqRx := 4095 }) 5).seqRx ∧
    (fportOf (port 4 {}) 5).retry.findIdx? (fun f => f.seq == 4) = none ∧
    (fportOf (port 4 { retry := [{ seq := 4, kind := 0, vc := 0 }] }) 5).retry.findIdx? (fun f => f.seq == 4) = some 0 ∧ portUp (port 3 {}) 5 = false := by
  decide +kernel

def hi (uid best : Nat) : HelloMsg := ⟨uid, best, 0, 0, 0, 2, false, false, true, 1, 1, 0⟩
def elect : State := fs [(fabStateState, 3)] { port 4 {} with fabric := { (port 4 {}).fabric with best := some 9, stable := 64 } }
def cap (st : Nat) (f : Fabric) : State := fs [(fabIdCaptain, 1), (fabIdMember, 1), (fabStateState, st)] { State.reset with fabric := f }
theorem hyp_DiscoveryAndElection : portUp (port 4 {}) 5 = true ∧ (hi 0 0).uid = State.reset.chip.uid ∧ (hi 8 4).uid ≠ State.reset.chip.uid ∧
    settled elect = false ∧ (hi 8 4).epoch ≤ elect.fabric.epoch ∧ rd elect fabStateState = 3 ∧ elect.fabric.best = some 9 ∧ (hi 8 4).bestUid < 9 ∧
    (hi 8 4).bestUid ≠ 2 ^ 64 - 1 ∧ 64 ≤ elect.fabric.stable ∧ State.reset.fabric.best = none ∧ State.reset.fabric.stable < 64 ∧
    rdB (cap 4 {}) fabIdCaptain = true ∧ rd (cap 4 {}) fabStateState = 4 ∧ (cap 4 {}).fabric.table = none ∧
    8 ≤ (setTime { noMarker := 8 } State.reset).time.noMarker ∧ rdB (fs [(fabIdMember, 1)] State.reset) fabIdMember = true ∧
    8 ≤ (cap 5 { noCap := 8 }).fabric.noCap ∧ 1000 ≤ tget 0 (cap 5 { noRoute := [(63, 1000)], admitted := [63] }).fabric.noRoute 63 ∧
    63 ∈ (cap 5 { noRoute := [(63, 1000)], admitted := [63] }).fabric.admitted ∧ tget 0 State.reset.fabric.noRoute 63 < 1000 := by decide +kernel
/-- A captain whose own report is the only one. -/
def lone : State := cap 4 { joins := [{ uid := State.reset.chip.uid }] }
theorem hyp_DiscoveryAndElection_ids :
    withinReach (lone.fabric.joins.map fun j => if j.uid = lone.chip.uid then ownJoin lone else j) lone.chip.uid = [ownJoin lone] ∧
    (assignIds [] [ownJoin lone]).find? (fun e => e.2 == lone.chip.uid) = some (0, lone.chip.uid) := by
  refine ⟨by decide +kernel, ?_⟩
  have h : (ownJoin lone).fixedId = none ∧ (ownJoin lone).prevId = none ∧ (ownJoin lone).uid = lone.chip.uid := by decide +kernel
  have z : (List.range 64).find? (fun _ => true) = some 0 := rfl
  simp [assignIds, takeIds, h, z]
def tb : TablesMsg := ⟨2, 0, 0, [(0, 0), (1, 8)], [⟨0, 0, 1, 0, false⟩], [5, 6], [], []⟩
theorem hyp_RouteTablesAndMarkers : rdB State.reset fabIdCaptain = false ∧ rd State.reset fabIdEpoch < tb.epoch ∧ tb.devId < 64 ∧
    (cap 4 { staged := some tb }).fabric.staged = some tb ∧ tb.members.any (fun e => e.1 == 1) = true ∧
    (∀ e ∈ tb.members, e.1 = 1 ∨ e.1 ∈ (cap 4 { acked := [0] }).fabric.acked) ∧ (∃ e ∈ tb.members, e.1 ≠ 1 ∧ e.1 ∉ (cap 4 {}).fabric.acked) ∧
    (cap 4 { commit := some 0 }).fabric.commit = some 0 ∧ 0 ≤ capBeatNow (cap 4 {}) ∧ capBeatNow (cap 4 {}) < 1 ∧
    (∀ e ∈ tb.members, e.1 < 64) ∧ (∀ d ∈ [1], d ≠ tb.devId ∧ d ∈ tb.members.map (·.1)) ∧
    (cap 5 { prev := some (1, [], 0) }).fabric.prev = some (1, [], 0) ∧ 0 + 2 ≤ beat (fs [(clkBeatBeat, 2)] State.reset) ∧
    linkAt tb 1 0 = some ⟨0, 0, 1, 0, false⟩ ∧ rd (cap 5 {}) fabStateState = 5 ∧ tb.topo[0]? = some ⟨0, 0, 1, 0, false⟩ ∧
    (cap 5 { swDue := [(8, 0)] }).fabric.swDue.find? (fun e => e.2 ≤ capBeatNow (cap 5 {})) = some (8, 0) ∧
    tb.topo.findIdx? (fun l => (l.a == 8 / 8 && l.pa == 8 % 8) || (l.b == 8 / 8 && l.pb == 8 % 8)) = some 0 ∧
    rdB (fs [(fabStateBankReady, 1)] State.reset) fabStateBankReady = true ∧ tfind [(0, [1])] 0 = some [1] ∧
    (cap 5 { parent := some 5 }).fabric.parent = some 5 ∧ 5 ∈ upPorts (port 4 {}) ∧ (10 ≤ 10) ∧ portUp (port 3 {}) 5 = false ∧
    (cap 4 { staged := some tb }).fabric.commit = none ∧ State.reset.fabric.swDue = [] := by decide +kernel
def seg (inP outP : Nat) : ShareSeg := ⟨7, 0, 1, inP, outP, 410, [3], 0⟩
def share : Share := ⟨7, 0, 1, 1, true⟩
def asked (s : Option Bool) (l : List Nat) : Fabric := { outCmd := some ⟨7, share, 0, s, l, 1, 0⟩ }
theorem hyp_SealedShares : (∀ q ∈ (seg 5 5).pos, tget 0 (fportOf State.reset 5).held (flitPos State.reset 5 410 q) = 0) ∧
    (fportOf State.reset 5).held.length + (seg 5 5).pos.length ≤ 128 ∧ (seg 5 5).ten ≠ 0 ∧
    tget 0 (fportOf (port 4 { held := [(6, 9)] }) 5).held (flitPos (port 4 {}) 5 410 3) ≠ 0 ∧ isSealed (sealed7 State.reset) 7 = true ∧
    (seg 6 6).outP = 6 ∧ State.reset.fabric.shares = [] ∧
    (({ shares := [share] } : Fabric).shares.find? (fun h => h.ten == 7 && ((h.a == 1 && h.d == myId State.reset) || (h.d == 1 && h.a == myId State.reset)))) =
      some share ∧ (asked (some true) [1]).outCmd = some ⟨7, share, 0, some true, [1], 1, 0⟩ ∧
    (asked none []).outCmd = some ⟨7, share, 0, none, [], 1, 0⟩ ∧ rdB State.reset fabIdCaptain = false := by decide +kernel

def pk (kind : Nat) : Pkt := { dest := 0, src := 1, kind, xid := 4, pa := 0x80 }
def home (l : Slice) : State := setSlice 0 l (fs [(fabGrantMask 1 0, 1)] withMem)
theorem hyp_FabricRequestsAtTheHome : granted State.reset 1 5 = false ∧ (pk 1).mgmt = false ∧ granted (home {}) 1 0 = true ∧
    trkOf (home {}) 1 4 = none ∧ trackerFree (home {}) 1 = true ∧
    trackerFree { home {} with fabric := { trackers := List.replicate 2080 ⟨pk 1, none⟩ } } 1 = false ∧
    (∀ k ∈ [1, 2, 3, 4, 5, 6, 7, 8], canServe (home {}) (pk k) = true ∧ wayClear (home {}) 0 2 (needExcl (pk k)) (mayKeep (pk k)) = true) ∧
    regionOf (offOf 0x80) = .dram ∧ dirOf (home {}) 0 2 = none ∧ arrOf (home { lines := [(2, line2)] }) 0 2 = some line2 ∧
    line2.tag = (pk 1).tag ∧ line2.err = 0 ∧ line2.tagErr = false ∧ line2.poison = false ∧ (fabDirOf (home { fabDir := [(2, ⟨0, false, [1]⟩)] }) 0 2).isSome = true ∧
    wayClear (home { fabDir := [(2, ⟨0, false, [1]⟩)] }) 0 2 (needExcl (pk 2)) (mayKeep (pk 2)) = true := by
  decide +kernel
def out1 (o : Out) : State := { withHart with outs := [o] }
def hartOut (dev kind : Nat) : Out := { xid := 3, dev, kind, pa := 2 ^ 46 + 0x80, tag := 0, origin := .hart 0 5 8 false 0x80 false }
theorem hyp_FabricAnswersAndSnoops : outTo (out1 (hartOut 1 3)) 1 3 = some (hartOut 1 3) ∧ isRead (hartOut 1 3) = true ∧
    isRead (hartOut 1 4) = false ∧ outTo withHart 1 3 = none ∧ (∀ n, (sliceOf withHart n).amq = []) ∧
    trkOf { withHart with fabric := { trackers := [⟨pk 1, some (pk 0x30)⟩] } } 1 4 = some ⟨pk 1, some (pk 0x30)⟩ ∧
    (∀ x ∈ [(⟨pk 1, some (pk 0x30)⟩ : Trk)], x.resp.isSome = true) ∧ outOf (out1 (hartOut 1 3)) 3 = some (hartOut 1 3) ∧
    (hartOut 1 3).sent + (hartOut 1 3).gap ≤ beat (fs [(clkBeatBeat, 4)] withHart) ∧ beat withHart < (hartOut 1 3).sent + (hartOut 1 3).gap ∧
    (hartOut 1 3).first + 16384 ≤ beat (fs [(clkBeatBeat, 16384)] withHart) ∧ hasRoute withHart (myId withHart) = true ∧ (hartOf withHart 0).st = .running ∧ (hartOut 1 3).held = false ∧
    ({ hartOut 1 3 with held := true } : Out).held = true ∧ (hartOut 1 3).dev < 64 ∧ heldByFrozen withHart 0 2 true = false ∧
    heldByFrozen (setSlice 0 { dir := [(2, ⟨0, true, [0]⟩)] } (fs [(pairStatusState 0, 5)] withHart)) 0 2 true = true ∧
    requested withHart 2 = false ∧ requested (out1 { hartOut 1 2 with pa := 0x80 }) 2 = true ∧
    [(⟨1, 2, true, 0, 0⟩ : Snp)].find? (fun q => q.dev == 1 && q.line == 2) = some ⟨1, 2, true, 0, 0⟩ ∧
    (⟨1, 2, true, 0, 0⟩ : Snp).sent + 4 ≤ beat (fs [(clkBeatBeat, 4)] withHart) := by
  refine ⟨by decide +kernel, by decide +kernel, by decide +kernel, by decide +kernel, fun n => rfl, by decide +kernel⟩
theorem hyp_FabricCommands : (∀ c ∈ [0x0701, 0x0702, 0x0703, 0x0704, 0x0705], (takenCmd (tk 0 c [] withMem) 0 c).isSome = true) ∧
    (fportOf (port 6 { oos := true }) 5).oos = true ∧ (fportOf (port 6 {}) 5).oos = false ∧ min 63 1 ≠ myId State.reset ∧
    min 63 0 = myId State.reset ∧ (sharesHere State.reset 7).find? (fun h => h.a == 1 || h.d == 1) = none ∧
    (sharesHere { State.reset with fabric := { shares := [share] } } 7).find? (fun h => h.a == 1 || h.d == 1) = some share ∧
    isSealed (sealed7 State.reset) 7 = true ∧ hasRoute State.reset 1 = false ∧ hasRoute (fs [(fabRouteEntry 1, 2 ^ 27)] State.reset) 1 = true ∧
    8 ≤ (sharesHere { State.reset with fabric := { shares := List.replicate 8 share } } 7).length := by decide +kernel

/-! ## SERDES groups, DMA, mailboxes and the rest -/

def sp (st role : Nat) : State := fs [(portStatusState (portBase 7 3), st), (portStatusState (portBase 7 0), st), (portStatusRole (portBase 7 0), role),
  (portStatusRole (portBase 7 3), role)] State.reset
theorem hyp_SerdesLinksTrainAndFail : portState (sp 2 1) 7 3 = 2 ∧ portState (sp 3 1) 7 3 = 3 ∧ portState (sp 4 1) 7 3 = 4 ∧
    beat (sp 4 1) ≤ tget 0 (groupOf (sp 4 1) 7).began 3 + 20 ∧ tget 0 (groupOf (sp 4 1) 7).began 3 + 20 ≤ beat (fs [(clkBeatBeat, 20)] (sp 4 1)) ∧
    portOuts State.reset 7 = [] ∧ portRole (sp 3 1) 7 3 = 1 ∧ portRole (sp 3 0) 7 3 ≠ 1 ∧ portState (sp 5 0) 7 3 = 5 ∧
    tget 0 (groupOf (sp 2 1) 7).began 3 + 100000 ≤ beat (fs [(clkBeatBeat, 100000)] (sp 2 1)) ∧
    beat (sp 2 1) < tget 0 (groupOf (sp 2 1) 7).began 3 + 100000 ∧ portRole (sp 3 2) 7 0 = 2 ∧ portRole (sp 3 4) 7 0 = 4 := by decide +kernel
def ing : State := fs [(portStatusState (portBase 7 3), 3), (portStatusRole (portBase 7 0), 1)] withMem
theorem hyp_SerdesTraffic : portState (sp 2 1) 7 3 ≠ 3 ∧ isMemDevice (sp 3 4) 7 = true ∧ portState ing 7 3 = 3 ∧ isMemDevice ing 7 = false ∧
    8 ∈ (groupOf (setGroup 7 { resetting := [8] } ing) 7).resetting ∧ 8 ∉ (groupOf ing 7).resetting ∧
    tget 0 (groupOf ing 7).ctx 8 = 0 ∧ tget 0 (groupOf (setGroup 7 { ctx := [(8, 1)] } ing) 7).ctx 8 ≠ 0 ∧ ownLine ing (lineOf 0x80) = true ∧
    (coord ing (offOf 0x80)).isSome = true ∧ granuleOk ing (offOf 0x80) (devTenancy ing 7 8) false = true ∧
    granuleOk { ing with mem := { ing.mem with granules := [(0, 5)] } } (offOf 0x80) (devTenancy ing 7 8) false = false ∧
    (currentLine (.ingress 7) (lineOf 0x80) (devTenancy ing 7 8) (modGroup 7 (fun q => { q with cached := (8 :: q.cached).eraseDups })
      (setSlice 0 { lines := [(2, line2)] } ing))).2 = .data 7 false ∧
    groupPresent ing 7 = true ∧ ecamProtected ing 7 8 .command = false ∧ isInbound ing 7 8 = false ∧ 8 ≠ 0xF8 ∧
    portState (sp 5 1) 7 (24 / 8) = 5 ∧ 24 / 8 ∈ (groupOf (setGroup 7 { dpc := [3] } (sp 5 1)) 7).dpc ∧
    regionOf (offOf 0x240000000000) = .io 0 ∧ homeOf 0x240000000000 = rd State.reset fabIdDeviceId ∧ outOf ing 3 = none ∧
    outOf (out1 (hartOut 71 3)) 3 = some (hartOut 71 3) ∧ 64 ≤ (hartOut 71 3).dev ∧ isRead (hartOut 71 3) = true ∧
    regionOf (offOf 0x040000000000) = .cxl := by decide +kernel
/-- An untranslated read of line 2 by function 8. -/
def inReq : DevReq := { dev := 8, iova := 0x80, write := false, size := 8, data := 0 }
/-- Group 7 with its IOMMU in mode Bare; and with region 0 of its endpoint open to tenancy 0. -/
def bare : State := modGroup 7 (fun x => { x with page := putLE [] 16 8 1, resetting := [9] }) ing
def endp : State := modGroup 0 (fun x => { x with outRegs := [(0, { enable := true })] }) (fs [(portStatusRole (portBase 0 0), 2)] withHart)
def sig0 : Nat := winBase 0 + 0x2000000000 - 4096
theorem hyp_SerdesTraffic_requests : (inboundReq bare 7 inReq).dev ∉ (groupOf bare 7).resetting ∧
    (inboundReq bare 7 { inReq with dev := 9 }).dev ∈ (groupOf bare 7).resetting ∧ inReq.kind ≠ 3 ∧ isEndpoint bare 7 = false ∧
    isMemDevice bare 7 = false ∧ portState bare 7 3 = 3 ∧ iomReg ing 7 16 8 % 16 = 0 ∧ iomBit ing 7 76 16 = false ∧
    iomReg bare 7 16 8 % 16 = 1 ∧ iomReach ing 0 (2 ^ 44) = false ∧
    ncClear (modGroup 7 (fun x => { x with cached := (8 :: x.cached).eraseDups }) (iomCount 7 1 inReq 0 0 bare)) 0 2 false = true ∧
    regionOf (offOf 0x0) = .dram ∧ regionOf (offOf 0x3FF000000000) = .control ∧
    isDvsec (0x80000000 + 0 * 0x10000000 + ecamOff 8 0x404) 4 = false ∧
    (∃ o ∈ [0x100, 0x200, 0x400, 0x404, 0x408, 0x40C], isDvsec (0x80000000 + 0 * 0x10000000 + ecamOff 0 o) 4 = true) ∧
    isInbound endp 0 (0xFF * 256 + 1) = true ∧ regionOf (offOf sig0) = .io 0 ∧ ioAt endp 0 (ownerOf endp 0) sig0 4 = .signal 0 0 ∧
    ioAt endp 0 5 sig0 4 = .refused ∧ hartRuns endp 0 = true ∧ timeoutNs endp 7 (outPort endp 7 (hartOut 71 3)) ≤ 10000000 ∧
    (hartOut 71 8).kind = 8 ∧ ({ hartOut 71 3 with origin := .port 7 8, pa := 0x040000000000 } : Out).origin = .port 7 8 := by
  decide +kernel
def lend : State := { fs [(portStatusState (portBase 0 0), 3), (portStatusRole (portBase 0 0), 4)] withMem with
  mem := { withMem.mem with lent := [(0, (0, 2 ^ 30, 0))] } }
theorem hyp_CxlMemoryDevice : lentOf lend 0 = some (0, 2 ^ 30, 0) ∧ portState lend 0 0 = 3 ∧ isMemDevice lend 0 = true ∧ 0x80 < 2 ^ 30 ∧
    (coord lend (0 + 0x80)).isSome = true ∧ lentOf withMem 0 = none ∧ 0xFFFF ∉ cxlOpcodes ∧ isMemDevice withMem 0 = false := by decide +kernel
theorem hyp_PortCommands : (∀ c ∈ [0x0801, 0x0802, 0x0803, 0x0804, 0x0805], (takenCmd (tk 0 c [] withMem) 0 c).isSome = true) ∧
    configOutcome withMem 0 (bifOf withMem 0) [0, 0, 0, 0] = 0 ∧ configOutcome withMem 0 (bifOf withMem 0) [4, 0, 0, 0] ≠ 0 ∧
    serdesOn (fs [(pwrDomainState 160, 2)] withMem) 0 = true ∧ funcPresent withMem 0 8 = false ∧
    funcPresent (setGroup 0 { funcs := [⟨8, 0, [], true⟩] } withMem) 0 8 = true ∧ isSealed withMem 0 = false ∧
    devTenancy withMem 0 8 = 0 ∧ isEndpoint withMem 0 = false ∧ isEndpoint (fs [(portStatusRole (portBase 0 0), 2)] withMem) 0 = true ∧
    (tenantOf (opened5 withMem) (min 256 5)).st = .opened ∧ cxlOutcome withMem 0 0x040000000000 1 5 = 2 := by decide +kernel

/-- DMA channel d as given. -/
def dma (d st : Nat) (r : DmaCh) : State := setDma d r (fs [(dmaStatusState d, st)] (keyed withMem))
def desc (len : Nat) : Desc := ⟨0x1000, true, false, 0, 0, len, 0x80, 0x100⟩
/-- Its status, without an error. -/
def stat : DmaWr := ⟨statusOff, (desc 64).at' + 0x18, 8, statusWord (desc 64) none⟩
/-- The home slice holds the line of the descriptor, the source's and the destination's. -/
def lineAt7 (x : Nat) : Nat × SLine := (x / 64, { tag := 0, way := 0, dirty := true, locked := false, poison := false, data := 7 })
def hot4 (s : State) : State := setSlice 0 { lines := [lineAt7 0x80, lineAt7 0x100, lineAt7 0x1000] } s
theorem hyp_DmaChannels : dmaReach (dma 3 1 {}) 5 3 = false ∧ dmaReach (dma 3 1 {}) 0 3 = true ∧ dmaReach (dma 28 1 {}) 512 28 = true ∧
    dmaState (dma 3 1 {}) 3 = 1 ∧ rdB (dma 3 1 {}) (pwrDomainFenced (180 + dmaTile 3)) = false ∧ dmaState (dma 63 6 {}) 63 = 6 ∧
    dmaPriv 63 = true ∧ rdB (dma 63 6 {}) (dmaCtrlStop 63) = false ∧ dmaWaits (dma 3 3 {}) 3 = false ∧
    dmaWaits { dma 3 3 {} with outs := [{ hartOut 1 4 with origin := .dma 3 0 }] } 3 = true ∧ (dmaOf (dma 63 6 { desc := some (desc 64) }) 63).desc = some (desc 64) ∧
    (dmaNeeds 63 stat (setDmaState 63 3 (dma 63 6 { desc := some (desc 64) }))).2 = none ∧
    (dmaOf (dma 3 3 { aborting := true }) 3).aborting = true ∧ dmaState (dma 3 4 {}) 3 = 4 ∧ ringEmpty (fs [(dmaTailTail 3, 1)] (dma 3 3 {})) 3 = false ∧
    (dmaOf (dma 3 3 { desc := some (desc 64) }) 3).done < (desc 64).len ∧
    (dmaOf (dma 3 3 { desc := some (desc 64), done := 64 }) 3).done = (desc 64).len ∧
    (dmaOf (dma 3 3 { desc := some (desc 64), bad := some (1, 0, 0) }) 3).bad ≠ none ∧ (dmaOf (dma 3 3 { msiDue := true }) 3).msiDue = true ∧
    (∀ c ∈ [0x0901, 0x0902], (takenCmd (tk 0 c [] withMem) 0 c).isSome = true) ∧ rd withMem (dmaStatusOwner 3) ≠ 7 ∧
    isSealed withMem (rd withMem (dmaStatusOwner 3)) = false := by decide +kernel
theorem hyp_PrivilegedDmaChannelsStop : dmaPriv 63 = true ∧ dmaReach (dma 63 8 {}) 513 63 = true ∧ dmaState (dma 63 8 {}) 63 = 8 ∧
    dmaState (dma 63 9 {}) 63 = 9 ∧ (dmaOf (dma 63 8 { desc := some (desc 64), done := 64 }) 63).done = (desc 64).len ∧
    (dmaNeeds 63 stat (dma 63 8 { desc := some (desc 64), done := 64 })).2 = none ∧
    (dmaOf (dma 63 8 { desc := some (desc 64) }) 63).bad = none ∧ 63 < (desc 64).len ∧ dmaWaits (dma 63 8 { desc := some (desc 64) }) 63 = false ∧
    rdB (fs [(dmaCtrlStop 63, 1)] (dma 63 6 { desc := some (desc 64) })) (dmaCtrlStop 63) = true := by decide +kernel

def mb (st : Nat) (m : Mbx) : State :=
  setMbx 259 m (fs [(mbxStatState 259, st)] (setToss { holder := some 1 } (setAssayer { enables := 1 } (atWord 4 0 0 0))))
theorem hyp_MailboxFieldsAndTheToken : (5 : Nat) ≠ 259 ∧ enabled (mb 0 {}) 0 = true ∧ enabled State.reset 0 = false ∧ rd (mb 0 {}) (mbxStatState 259) = 0 ∧ rd (mb 3 {}) (mbxStatState 259) = 3 ∧
    rd (mb 1 {}) (mbxStatState 259) = 1 ∧ (mb 0 {}).toss.holder = some 1 ∧ clkLive (mb 0 {}) 4 = true ∧ 4 ∈ complexCores 1 ∧
    (mbxOf (mb 3 { res := { seq := 6 } }) 259).res.seq = 6 ∧ (mbxOf (mb 0 { produced := 4 }) 259).produced < 5 ∧
    3 < (mbxOf (mb 0 { produced := 9, effAck := 4 }) 259).effAck ∧ targetUp State.reset = false ∧ clerkServes State.reset = false ∧ clerkServes (boot 4 (mb 0 {})) = true ∧
    (mbxOf (mb 0 {}) 257).i3cBusy = false ∧ (mbxOf (setMbx 257 { i3cBusy := true } (mb 0 {})) 257).i3cBusy = true ∧
    targetUp (boot 2 { State.reset with chip := { State.reset.chip with strapsDone := true } }) = true ∧
    (setToss { pass := some (1, 0, 2), holder := some 0 } State.reset).toss.holder = some (1 - 1) ∧ State.reset.toss.pass = none ∧
    2 ≤ (setToss { holder := some 1, bridge := 2, northOk := false } State.reset).toss.bridge ∧ State.reset.toss.bridge < 2 ∧
    1 ∈ (setToss { holder := some 1, pgLow := [1], misses := [(1, 1)] } State.reset).toss.pgLow := by decide +kernel
def asr (a : Assayer) : State := setAssayer a (fs [(clkBeatBeat, 2000)] { State.reset with boot := { State.reset.boot with headOk := true } })
theorem hyp_AssayerDebugAndTap : 1000 ≤ (asr { absent := 1000 }).assayer.absent ∧ (asr {}).assayer.hung = false ∧ (asr {}).assayer.absent < 1000 ∧
    (183, 1) ∈ (asr { holds := [(183, 1)] }).assayer.holds ∧ 1 + 1999 ≤ beat (asr {}) ∧ beat (asr {}) ≤ 0 + 2000 ∧ 0 + 2000 ≤ beat (asr {}) ∧
    (asr { taking := some 0 }).assayer.taking = some 0 ∧ (asr {}).boot.headOk = true ∧
    tokenGood (asr { tile := some 0 }) ⟨0, 15, 1, true, true, 0⟩ = true ∧ tokenGood (asr { tile := some 0 }) ⟨0, 15, 2, true, true, 0⟩ = false ∧
    beat (asr {}) ≤ 1900 + 100 ∧ enabled (asr { enables := 15 }) 0 = true ∧ enabled (asr {}) 1 = false ∧ enabled (asr { enables := 15 }) 1 = true ∧
    (asr {}).boot.step ≤ 3 ∧ 0x10 ≤ 0x3F8 ∧ rd (asr {}) (mbxStatState 259) = 0 := by decide +kernel
theorem hyp_SpdmResponder : groupPresent State.reset (8 - 1) = true ∧ State.reset.assayer.tile = none ∧ (asr { tile := some 0 }).assayer.tile ≠ none ∧
    (asr { tile := some 0, taking := some 0 }).assayer.taking ≠ none ∧ (spdmOf State.reset 0).stage = 0 ∧
    (spdmOf (setSpdm 8 { stage := 3, session := some 4, finished := true } State.reset) 8).stage = 3 ∧
    (spdmOf (setSpdm 8 { stage := 3, session := some 4, finished := true } State.reset) 8).session = some 4 ∧
    (spdmOf (setSpdm 8 { stage := 2 } State.reset) 8).stage < 3 := by decide +kernel
def day : State := { State.reset with boot := { State.reset.boot with dayA := [(1, ⟨1, 0, [1, 2, 3]⟩)], dayB := [(1, ⟨1, 0, [1, 2, 3]⟩)] } }
theorem hyp_ReportingCommands : (∀ c ∈ [0x0101, 0x0A01, 0x0B01, 0x0B02, 0x0C01, 0x0C02, 0x0C03], (takenCmd (tk 0 c [] withMem) 0 c).isSome = true) ∧
    0 ≤ nextTime State.reset ∧ nextTime State.reset < 5000 ∧ nearestRecord State.reset.boot 5 = none ∧
    nearestRecord day.boot 5 = some ⟨1, 0, [1, 2, 3]⟩ ∧ servedBy day.boot ⟨1, 0, [1, 2, 3]⟩ ≠ 2 ∧
    servedBy { day.boot with readA := false, readB := false } ⟨1, 0, [1, 2, 3]⟩ = 2 ∧ 0 + 3 ≤ ([1, 2, 3] : List Nat).length ∧
    rangeOwned withMem (callerOf 0) 0 0x4000 = true ∧ rangeOwned withMem (callerOf 5) 0 0x4000 = false := by decide +kernel
def tst (k : Test) : State := { State.reset with tests := [(7, some k)] }
theorem hyp_TestCommands : tget none State.reset.tests 7 = none ∧ tget none (tst ⟨2, 3, 0, 1, 0, 0, none, 0, 0, 0, 0, [], false, 0, []⟩).tests 7 =
      some ⟨2, 3, 0, 1, 0, 0, none, 0, 0, 0, 0, [], false, 0, []⟩ ∧ 0 + 0 ≤ beat State.reset ∧
    tget none ({ State.reset with armed := [(armKey 1 3, some ⟨0, 0, 0⟩)] } : State).armed (armKey 1 3) = some ⟨0, 0, 0⟩ ∧
    (0 : Nat) + 1000000 ≤ beat (fs [(clkBeatBeat, 1000000)] State.reset) ∧
    (∀ c ∈ [0x0D01, 0x0D02, 0x0D03, 0x0D04], (takenCmd (tk 0 c [] withMem) 0 c).isSome = true) ∧
    testAdmit withMem 2 3 15 (bistTestable (fs [(mcStatusState 15, 5)] withMem) 3 15 1) = (0, 0) ∧
    (testAdmit withMem 2 3 0 (bistTestable withMem 3 0 1)).1 = 1 ∧ (testAdmit withMem 1 4 1 true).1 = 0 ∧ injectOutcome withMem 2 0 0 = 0 ∧
    injectOutcome withMem 2 1 0 ≠ 0 := by decide +kernel
def drowsy : State := setPair 0 { idleBeats := 1000 } (setHart 0 { hartOf withHart 0 with wfi := true, pend := [1], enab := [1] }
  (fs [(pwrCtrlDrowse, 1)] withHart))
def zz (p : Power) : State := setPower p (fs [(clkBeatBeat, 5), (pwrWakeEnable, 1)] State.reset)
theorem hyp_DrowseAndDormant : mayGate drowsy 0 = true ∧ (pairOf drowsy 0).gating = false ∧ mayGate State.reset 0 = false ∧
    (pairOf (setPair 0 { gating := true } drowsy) 0).saved = false ∧ domState (fs [(pwrDomainState 0, 3)] drowsy) 0 = 3 ∧
    pairWaked drowsy 0 = true ∧ (pairOf drowsy 0).restoreAt = none ∧ pairWaked State.reset 0 = false ∧
    rd (fs [(pwrIdleIdleBeats, 1000), (pwrIdleCount, 1000)] State.reset) pwrIdleIdleBeats = 1000 ∧
    rd (fs [(pwrIdleIdleBeats, 1000), (pwrIdleCount, 1000)] State.reset) pwrIdleCount = 1000 ∧
    (zz { sleep := .asked, entryB := 4 }).power.entryB < beat (zz {}) ∧ anyHeld (zz {}) = false ∧ runningTests (zz {}) = [] ∧ (zz {}).outs = [] ∧ upPorts (zz {}) = [] ∧
    anyHeld (fs [(pwrDomainHeld 183, 1)] State.reset) = true ∧ doorbell257 (zz {}) = false ∧
    doorbell257 (fs [(mbxStatState 257, 1)] State.reset) = true ∧ (zz { sleep := .asleep }).power.wakeSrc = 0 ∧
    rdB (zz {}) pwrWakeEnable = true ∧ rd (zz {}) pwrWakeAddr ≠ 0x7E ∧ rd (zz {}) pwrWakeLatched = 0 ∧
    rdB (fs [(pwrWakeLatched, 1)] (zz {})) pwrWakeLatched = true ∧ (zz {}).time.tEntry + 5000 < 2 ^ 64 ∧
    (zz {}).time.bLast + ((zz {}).time.tEntry + 5000 - (zz {}).time.tLast) / 1000 < 2 ^ 64 ∧
    (∀ c ∈ presentChans (zz {}), rd (zz {}) (mcStatusState c) ≠ 4) := by decide +kernel
theorem hyp_PowerCommands : (∀ c ∈ [0x0201, 0x0202, 0x0203, 0x0204, 0x0205, 0x0206, 0x0207], (takenCmd (tk 0 c [] withMem) 0 c).isSome = true) ∧
    arg ((takenCmd (tk 0 0x0202 [(0, 1, 2), (4, 4, 0x4F464621)] withMem) 0 0x0202).getD []) 4 4 = 0x4F464621 ∧
    domainOutcome withMem 152 0 = 0 ∧ (List.range 4).any (fun a => domainOutcome withMem 183 a != 0) = true ∧
    sleepOutcome State.reset = 0 ∧ sleepOutcome (dma 3 3 {}) = 5 := by decide +kernel
theorem hyp_RegistersOfAbsentUnits : offAbsent { State.reset with chip := { State.reset.chip with variant := .d9_128e } } 0x187FF8 = true ∧
    offAbsent { State.reset with chip := { State.reset.chip with variant := .d9_128e } } 0x360000 = true ∧ 0x187FF8 % 8 = 0 ∧
    offAbsent { State.reset with chip := { State.reset.chip with variant := .d9_128e } } 0x187000 = true ∧ mayReachWindow false { State.reset with chip := { State.reset.chip with variant := .d9_128e } } 0x187000 = true ∧ clerkOnly pwrIdleIdleBeats = true ∧
    fieldsAt (0x10028 / 8 * 8) ≠ [] ∧ chanPresent State.reset 0 = true := by decide +kernel

/-! ## Single steps, their results from the rules and tables named -/

/-- R314: arithmetic wraps; ADD w3, w1, w2 is op 0, fn 0x10 (Table 12.5). -/
theorem test_add_wraps : regW (clkOf (after (.add 0 3 1 2) (atWord 0 0x00611010 0xFFFFFFFF 2)) 0) 3 = 1 := by decide +kernel
/-- Table 12.5: SRA w3, w1, 31 copies the sign. -/
theorem test_sra_sign : regW (clkOf (after (.sra 0 3 1 31) (atWord 0 0x006107C2 0x80000000 0)) 0) 3 = 0xFFFFFFFF := by decide +kernel
/-- Table 12.5: SUB w1, w1, w2 reads its sources before it writes. -/
theorem test_sub_same : regW (clkOf (after (.sub 0 1 1 2) (atWord 0 0x00211011 5 7)) 0) 1 = 0xFFFFFFFE := by decide +kernel
/-- R313: w0 stays 0. -/
theorem test_w0 : regW (clkOf (after (.add 0 0 1 2) (atWord 0 0x00011010 5 7)) 0) 0 = 0 := by decide +kernel
/-- R317: LB w3, w1, 0 extends the sign, and the value waits for the next instruction. -/
theorem test_lb : (clkOf (after (.lb 0 3 1 0) (modClk 0 (fun q => { q with sram := [(8, 0x80)] }) (atWord 0 0x2C610000 8 0))) 0).load =
    some (3, 0xFFFFFF80) := by decide +kernel
/-- R318: SH w2, w1, 2 stores two bytes, least significant first. -/
theorem test_sh : (clkOf (after (.sh 0 2 1 2) (atWord 0 0x38410002 8 0xABCD)) 0).sram = [(10, 0xCD), (11, 0xAB)] := by decide +kernel
/-- R319: JAL +2 from 0x100 leaves 0x108 in w31 and a delay slot whose branch goes to 0x108. -/
theorem test_jal : regW (clkOf (after (.jal 0 2) (atWord 0 0x5C000002 0 0)) 0) 31 = 0x108 ∧
    (clkOf (after (.jal 0 2) (atWord 0 0x5C000002 0 0)) 0).slot = some ⟨0x100, 0x108, true⟩ := by decide +kernel
/-- R322, R323: TRAP 9 is exception 20 with value 9; EPC is its own address and fetch goes to vector + 20 * 0x40. -/
theorem test_trap : rd (after (.trap 0 9) (atWord 0 0x78000244 0 0)) (clerkCauseCode 0) = 20 ∧
    rd (after (.trap 0 9) (atWord 0 0x78000244 0 0)) (clerkTvalValue 0) = 9 ∧
    rd (after (.trap 0 9) (atWord 0 0x78000244 0 0)) (clerkEpcEpc 0) = 0x100 ∧
    ((clkOf (after (.trap 0 9) (atWord 0 0x78000244 0 0)) 0).fetch.head?.map (·.1)) =
      some (rd State.reset (clerkVectorBase 0) * 4096 + 0x500) := by decide +kernel
/-- R314: a word without a meaning is exception 16 with the word. -/
theorem test_illegal : rd (after (.add 0 1 1 1) (atWord 0 0xFC000000 0 0)) (clerkCauseCode 0) = 16 ∧
    rd (after (.add 0 1 1 1) (atWord 0 0xFC000000 0 0)) (clerkTvalValue 0) = 0xFC000000 := by decide +kernel

/-- Neither prefetcher of hart 0 is enabled. -/
def calm (s : State) : State := fs [(dzprefetchL1StrideEn 0, 0), (dzprefetchL2StreamEn 0, 0)] s
/-- A load of 8 bytes that the L2 holds reaches its register. -/
theorem test_load : tget 0 (hartOf (after (.mainCoreLoad 0 acc 5 false) (calm (l2 .e withHart))) 0).x 5 = 0x1122334455667788 := by decide +kernel
/-- AMOADD of 4 bytes returns the old word sign-extended and leaves the sum in the line, which is modified. -/
theorem test_amo : tget 0 (hartOf (after (.mainCoreAmo 0 { acc with size := 4 } .add 1 0 5 []) (calm (l2 .e withHart))) 0).x 5 = 0x55667788 ∧
    (l2Of (after (.mainCoreAmo 0 { acc with size := 4 } .add 1 0 5 []) (calm (l2 .e withHart))) 0 2) =
      some ⟨0, .m, false, 0x1122334455667789⟩ := by decide +kernel
/-- R88: a mismatch freezes the pair (state 5) and its hart. -/
theorem test_mismatch : rd (after (.comparatorMismatch 0 2 77 0) (pr 3 {})) (pairStatusState 0) = 5 ∧
    (hartOf (after (.comparatorMismatch 0 2 77 0) (pr 3 {})) 0).st = .frozen := by decide +kernel
/-- R180 to R183: one device in error is corrected, counted and written back. -/
theorem test_corrected : rd (after (.dramReadReturn 0 0 [(3, 1)] []) (fl {})) (mcEccCountCorrected 0) = 1 ∧
    rd (after (.dramReadReturn 0 0 [(3, 1)] []) (fl {})) (mcEccLastDevice 0) = 3 := by decide +kernel
/-- R32: the first boundary is beat 0, the next one beat 1 at 1,000 ns. -/
theorem test_beats : beat (advanceTime State.reset) = 0 ∧ now (advanceTime (advanceTime State.reset)) = 1000 := by decide +kernel
/-- R336, R337: a doorbell at an idle mailbox makes it Latched and counts the sequence number. -/
theorem test_doorbell : rd (after (.doorbell 259 259) (mb 0 {})) (mbxStatState 259) = 1 ∧
    rd (after (.doorbell 259 259) (mb 0 {})) (mbxSeqSeq 259) = 1 := by decide +kernel
/-- power.idle (chapter 15, R345): idle_beats 5 is clamped to 1,000, and an address of 3 to 0x08. -/
theorem test_idle_clamps : rd (after (.powerIdle 0) (tk 0 0x0205 [(0, 4, 5), (4, 1, 3), (5, 1, 1)] withMem)) pwrIdleIdleBeats = 1000 ∧
    rd (after (.powerIdle 0) (tk 0 0x0205 [(0, 4, 5), (4, 1, 3), (5, 1, 1)] withMem)) pwrWakeAddr = 8 ∧
    ((mbxOf (after (.powerIdle 0) (tk 0 0x0205 [(0, 4, 5), (4, 1, 3), (5, 1, 1)] withMem)) 0).staged.map (·.2.clamped)) = some 2 := by
  decide +kernel
/-- R228: a neighbour with this device's own identity isolates the port (state 5, cause 6). -/
theorem test_own_uid : rd (after (.hello 5 (hi 0 0)) (port 4 {})) (fabPortStatusState 5) = 5 ∧
    rd (after (.hello 5 (hi 0 0)) (port 4 {})) (fabPortStatusCause 5) = 6 := by decide +kernel
/-- Chapter 11: a tail away from the head sets an enabled, idle channel running. -/
theorem test_tail : dmaState (after (.dmaTailWrite 0 3 1) (dma 3 2 {})) 3 = 3 ∧ dmaState (after (.dmaTailWrite 0 3 0) (dma 3 2 {})) 3 = 2 := by
  decide +kernel
/-- R437: BYPASS is instruction 0xFF, and DZ_ASSAYER acts as BYPASS without its enable. -/
theorem test_tap : (after .idcode State.reset).chip.tapIr = 1 ∧ (after .dzAssayer State.reset).chip.tapIr = 0xFF := by decide +kernel
/-- R8: a register of an absent pair reads as 0 and its writes are discarded. -/
theorem test_absent : windowRead { State.reset with chip := { State.reset.chip with variant := .d9_128e } } 0x187000 8 = 0 := by decide +kernel
/-- The command at the front is taken, and the queue's rest stays. -/
theorem test_step_front : step { State.reset with pending := [.idcode, .bypass] } =
    exec .idcode { State.reset with pending := [.bypass] } := rfl
/-- No word spells a command, so the state stays as it is. -/
theorem test_no_word : decodeTableWord 32 0x78000005 = none := rfl

/-! ## What the wider clauses ask -/

/-- Hart 0 with line 2 at its home slice; device 1's memory known; the memory another tenancy's. -/
def slH (l : SLine) : State := setSlice 0 { lines := [(2, l)] } withHart
def mayFar : State := { withHart with fabric := { withHart.fabric with pma := 2, extents := [(1, { dram := [(0, 2 ^ 32)] })] } }
def other5 : State := { withHart with mem := { withHart.mem with granules := [(0, 5)] } }
/-- Hart 0 meets the access, translated. -/
def met (s : State) (a : MemAcc) : State := translate 0 a (present 0 a false s)
/-- A non-cacheable access; one to a given address of 4 bytes; one to device 1's memory. -/
def nc : MemAcc := { acc with pbmt := 1 }
def at4 (pa : Nat) : MemAcc := { acc with pa := pa, va := pa, size := 4 }
def far1 : MemAcc := { nc with pa := 2 ^ 46 + 0x80, va := 2 ^ 46 + 0x80 }
/-- Hart 0's pair has an output to invert. -/
def inv0 : State := setPair 0 { invert := true } (l2 .m withHart)
/-- Port 0 of group 0 is a root port and up. -/
def rooted : State := fs [(portStatusState (portBase 0 0), 3), (portStatusRole (portBase 0 0), 1)] withHart
theorem hyp_MainCoreAccesses_here : invertArmed inv0 0 = true ∧ pairOfHart inv0 0 = some 0 ∧
    l2Of inv0 0 2 = some ⟨0, .m, false, 0x1122334455667788⟩ ∧ accessFault inv0 0 acc 6 7 false false = none ∧
    accessFault inv0 0 acc 6 7 true true = none ∧ (64 - 64) / 32 * acc.size % 32 + acc.size ≤ 32 ∧
    accessFault withHart 0 { acc with fault1 := some 13, vector := true, elem := 3 } 4 5 false false = some (13, 0x80) ∧
    (getLines 0 0 false false (partsOf acc) (meet 0 0 0 acc (met (l2 .m withHart) acc))).2.2 = none ∧
    (getLines 0 0 false false (partsOf acc) (meet 0 0 0 acc (met (setCore 0 { badFills := [2] } withHart) acc))).2.2 = some (0, .poison) ∧
    (getLine 0 0 2 true false (meet 0 0 0 acc (met (l2 .m withHart) acc))).2 = .line 0x1122334455667788 ∧
    (getLine 0 0 2 true false (meet 0 0 0 acc (met (setCore 0 { badFills := [2] } withHart) acc))).2 = .poison := by decide +kernel
theorem hyp_MainCoreAccesses_home : bypassed (met withHart nc) 0 nc = true ∧ nc.early = false ∧ mayReach (met (slH line2) nc) 0 2 = true ∧
    ncClear (met (slH line2) nc) 0 2 false = true ∧ ncClear (met (slH line2) nc) 0 2 true = true ∧ ownDram (met (slH line2) nc) 2 = true ∧
    (currentLine (.hart 0) 2 0 (met (slH line2) nc)).2 = .data 7 false ∧
    (currentLine (.hart 0) 2 0 (met (slH { line2 with poison := true }) nc)).2 = .data 7 true ∧ (currentLine (.hart 0) 2 0 (met withHart nc)).2 = .wait ∧ accessFault (met (slH line2) nc) 0 nc 4 5 false false = none ∧
    accessFault (met (slH line2) nc) 0 nc 6 7 true false = none ∧ accessFault (met other5 nc) 0 nc 4 5 false false = none ∧
    mayReach (met other5 nc) 0 2 = false ∧ ncClear (met (setSlice 0 { fills := [⟨2, 0, 0, false⟩] } withHart) nc) 0 2 false = false ∧
    accessFault (met withHart { nc with early := true }) 0 { nc with early := true } 4 5 false false = none := by decide +kernel
theorem hyp_MainCoreAccesses_far : (∀ b ∈ [false, true], accessFault (met mayFar far1) 0 far1 4 5 b b = none ∧
      accessFault (met mayFar far1) 0 far1 6 7 b b = none) ∧ isMain far1.pa = true ∧ ownDram (met mayFar far1) (lineOf far1.pa) = false ∧
    ownLine (met mayFar far1) (lineOf far1.pa) = false ∧ mayReach (met mayFar far1) 0 (lineOf far1.pa) = true ∧
    ncClear (met mayFar far1) 0 (lineOf far1.pa) true = true ∧ lineCached (met mayFar far1) (homeSlice (met mayFar far1) 0 (lineOf far1.pa)) (lineOf far1.pa) = false ∧
    far1.pbmt ≠ 2 ∧ ({ far1 with pbmt := 2 } : MemAcc).pbmt = 2 ∧ (hartOf mayFar 0).resv ≠ some (lineOf far1.pa) ∧
    (hartOf (setHart 0 { hartOf mayFar 0 with resv := some (lineOf far1.pa) } mayFar) 0).resv = some (lineOf far1.pa) := by decide +kernel
/-- Port 0 of group 0 is a host port whose decoder 0 is committed for the first 256 MB of the window. -/
def hdmPage : Bytes := putLE (putLE (putLE [] (hdmAt + 0x14) 4 0x400) (hdmAt + 0x18) 4 0x10000000) (hdmAt + 0x20) 4 0x400
def hdm0 : State := modGroup 0 (fun x => { x with page := hdmPage }) (fs [(portStatusRole (portBase 0 0), 3)] withHart)
theorem hyp_MainCoreAccesses_window : populated hdm0 0x040000000000 = true ∧ isMain 0x040000000000 = true ∧
    ownLine hdm0 (lineOf 0x040000000000) = true ∧ 64 ≤ outDev hdm0 (lineOf 0x040000000000) ∧ ownDram hdm0 (lineOf 0x040000000000) = false ∧
    (currentLine (.hart 0) (lineOf 0x040000000000) 0 hdm0).2 = .far := by decide +kernel
theorem hyp_MainCoreAccesses_devices : (ioAt (met withHart (at4 (winBase 0 + fixedBase))) 0 0 (winBase 0 + fixedBase) 4) = .page 0 ∧
    accessFault (met withHart (at4 (winBase 0 + fixedBase))) 0 (at4 (winBase 0 + fixedBase)) 4 5 false false = none ∧
    regionOf (offOf (winBase 0 + fixedBase)) = .io 0 ∧ homeOf (winBase 0 + fixedBase) = myId withHart ∧
    ioAt (met rooted (at4 (winBase 0 + 0x1000))) 0 0 (winBase 0 + 0x1000) 4 = .port 0 ∧
    accessFault (met rooted (at4 (winBase 0 + 0x1000))) 0 (at4 (winBase 0 + 0x1000)) 4 5 false false = none ∧
    recorded (met rooted (at4 (winBase 0 + 0x1000))) 0 (winBase 0 + 0x1000) 4 3 0 = none ∧
    regionOf (offOf 0x3FF000000000) = .control ∧ accessFault (met withHart (at4 0x3FF000000000)) 0 (at4 0x3FF000000000) 4 5 false false = none ∧
    accessFault (met mayFar (at4 (2 ^ 46 + 0x3FF000000000))) 0 (at4 (2 ^ 46 + 0x3FF000000000)) 4 5 false false = none ∧
    homeOf (2 ^ 46 + 0x3FF000000000) ≠ myId (met mayFar (at4 (2 ^ 46 + 0x3FF000000000))) := by decide +kernel
theorem hyp_CacheBlocks : envFault withHart 0 6 1 = none ∧ envFault withHart 0 4 2 = none ∧ envFault withHart 0 7 1 = none ∧
    (∀ e ∈ [(6, 1), (4, 2), (7, 1)], envFault (hpriv .u) 0 e.1 e.2 = some 2) ∧ populated withHart (2 ^ 36) = false ∧
    populated withHart (0x80 / 64 * 64) = true ∧ populated other5 (0x80 / 64 * 64) = true ∧ mayReach other5 0 2 = false ∧ sealedCopy withHart 0 2 0 = false ∧
    ncClear withHart 0 2 true = true ∧ dirOf withHart 0 2 = none ∧ ((sliceOf withHart 0).dir.filter fun e => dirSetOf e.1 == dirSetOf 2 && e.1 != 2).length < 16 ∧
    l2Of (setCore 0 { l2 := [(2 ^ 40 + 2, ⟨0, .e, false, 5⟩)] } mayFar) 0 (2 ^ 40 + 2) = some ⟨0, .e, false, 5⟩ ∧
    populated mayFar (far1.pa / 64 * 64) = true ∧ (getLine 0 0 2 true false (setSlice 0 { fills := [⟨2, 0, 0, false⟩] } withHart)).2 = .wait ∧
    rdB (fs [(dzcachectlDbypass 0, 1)] withHart) (dzcachectlDbypass 0) = true ∧
    l2Of (hintLine 0 0 2 false false other5) 0 2 = none ∧ 2 ∉ (coreOf (l2 .e withHart) 0).badFills ∧ noRoute mayFar (2 ^ 46 + 0x80) = true := by decide +kernel
theorem hyp_WindowStoresAndPairs : windowReach inv0 (ownerOf inv0 0) 0x01000000 true = true ∧ windowReach withHart 5 0 true = false ∧
    (pairOf (pr 8 { resumeAt := some 0, libero := some 16 }) 0).parks = [] ∧
    (List.range 136).all (fun q => q == 0 || rdB (pr 8 {}) (pairStatusSlotValid q) == false) = true ∧ (pairOf withHart 0).invert = false ∧
    rd inv0 (pairStatusState 0) = 3 ∧ 0 / 2 < 136 := by decide +kernel
/-- Core A of pair 0 has failed. -/
def cfail : State := fs [(pairStatusCoreAFailed 0, 1)] off0
theorem hyp_CoreCommands_outcomes : slotOffline cfail 0 = true ∧ rdB cfail (pairStatusCoreAFailed 0) = true ∧
    rdB off0 (pairStatusCoreAFailed 0) = false ∧ rdB off0 (pairStatusCoreBFailed 0) = false ∧ pairOfHart withHart 4 = none ∧ merged withHart 4 = false ∧
    coreFailed withHart 0 = false ∧ merged withHart 0 = false ∧ (hartOf withHart 0).st ≠ .fenced ∧ pairOfHart off0 0 ≠ none ∧
    failedSplit withHart 0 = false ∧ rd withHart (pairStatusState 0) ≠ 0xC ∧ rd withHart (pwrDomainState 0) ≠ 1 ∧
    rd (fs [(pwrDomainState 0, 1)] off0) (pwrDomainState 0) = 1 := by decide +kernel
/-- Slice 0 waits for line 2, which another tenancy holds. -/
def held5 : State := sl { lines := [(2, { line2 with tag := 5 })] }
def filling2 : State := setSlice 0 { fills := [⟨2, 5, 0, false⟩] } withMem
theorem hyp_SliceRequests_others : otherTag held5 0 2 0 = true ∧ wayClear held5 0 2 (false || otherTag held5 0 2 0) none = true ∧
    mayReach filling2 5 2 = false ∧ (sliceOf filling2 0).fills.find? (fun f => f.line == 2) = some ⟨2, 5, 0, false⟩ ∧ (sliceOf filling2 0).amq = [] ∧
    2 ∉ (coreOf filling2 0).hints ∧ 2 ∈ (coreOf (setCore 0 { hints := [2] } filling2) 0).hints ∧ errRow (some line2) = 0 ∧
    ownLine withMem (2 ^ 40 + 2) = false ∧ preloadHeld withMem ⟨4, 0, 0, 4096, 1, [], [0], []⟩ = [] ∧
    preloadHeld filling2 ⟨4, 0, 0, 4096, 1, [2], [0], []⟩ ≠ [] ∧ isArmed (ce 1) 2 0 1 = some ⟨1, 0, 0⟩ ∧ isArmed (ce 0) 2 0 2 = none ∧
    isArmed (ce 2) 2 0 0 = none ∧ invertArmed inv0 (0 / 2) = true ∧ coreFrozen inv0 0 = false := by decide +kernel
theorem hyp_Dram_others : (∀ r ∈ waitingAt withMem 0 0, r.raw = none ∨ r.line ≠ 2) ∧ sealedPath withMem 0 0 (rq false) = false ∧ (rq true).raw = none ∧
    (chanOf (ch [] { lostDue := [(0, 7, 3)] }) 0).lostDue = [(0, 7, 3)] ∧ (0 : Nat) < beat (fs [(clkBeatBeat, 1)] withMem) ∧
    (tenantOf withMem 7).lost < 2 ^ 32 ∧ (rq false).origin = none ∧ (rq false).tried = false ∧ tget 0 (chanOf (ch [] { rdDue := [(3, 2)] }) 0).rdDue 3 = 2 ∧
    mirrored (fs [(mcMirrorPartner 0, 1), (mcMirrorEnabled 0, 1)] withMem) 0 = true ∧ partFenced withMem 1 ⟨0, 0, 0, 0, 0, 0, 0, 0⟩ = false ∧
    (chanOf (ch [] { accrued := [1] }) 0).accrued.contains 1 = true ∧ tget 0 (chanOf (ch [] { mr4At := [(1, 1)] }) 0).mr4At 1 = 1 ∧
    mr4Due (ch [] { mr4At := [(1, 1)] }) 0 1 = false ∧ mr4Due withMem 0 1 = true ∧ lapCovered (fs [(mcPatrolRunning 0, 1)] withMem) 0 = true ∧
    (boot 9 withMem).boot.step = 9 ∧ 1 ∉ (chanOf withMem 0).returnDue ∧ (chanOf withMem 0).catchDue = [] := by decide +kernel
theorem hyp_MemoryCommands_others : clearHeld withMem 0 0 4096 = [] ∧ clearHeld filling2 0 0 4096 ≠ [] ∧ (mbxOf (tk 0 0x0503 [] withMem) 0).phase = .ready ∧
    (0x85 : Nat) ≤ 0xFE ∧ min 9 0x0A = 9 ∧ (chanOf withMem 0).repair.any (·.names ⟨0, 0, 0, 0, 0, 0, 0, 0⟩) = false := by decide +kernel
theorem hyp_Tenancies_others : rangeHeld withMem 0 0 4096 true = [] ∧ rangeHeld filling2 0 0 4096 true ≠ [] ∧ loadHeld (opened5 withMem) 5 0 0 4096 = [] ∧
    loadHeld filling2 5 0 0 4096 ≠ [] ∧ (hartOf off0 0).st = .offline ∧ allHeld (setTenant 7 { st := .sealing } withHart) 7 = true ∧
    allHeld withHart 0 = false ∧ sparingIn (pr 7 {}) 0 = true ∧ sparingIn withHart 7 = false ∧
    (tenantOf (setTenant 7 { st := .isSealed, unsealing := true } withMem) 7).unsealing = true := by decide +kernel

/-- A captain whose table holds two members; eight shares of tenancy 7, whose partition at slice 0 is sealed. -/
def capT : State := cap 5 { table := some tb }
def full7 : State := fs [(llcStatusState 0, 1), (llcPartSealed 0 7, 1)] { withMem with fabric := { shares := List.replicate 8 share } }
theorem hyp_Fabric_others : (placeShare capT share).isSome = true ∧ dirWaysLeft capT 7 = true ∧ dirWaysLeft full7 7 = false ∧
    (∀ x ∈ capT.fabric.segs, ¬ (x.ten = 7 ∧ x.a = 0 ∧ x.d = 1)) ∧ (∀ x ∈ capT.fabric.shares, keyOfShare x ≠ shareKey 7 0 1) ∧
    (seg 7 5).inP = 7 ∧ (sharesHere capT 7).length < 8 ∧ tget 0 capT.fabric.recommit 1 ≤ capBeatNow capT ∧ capT.fabric.staged = none ∧
    rd (cap 1 {}) fabStateState = 1 ∧ rdB (cap 1 {}) fabIdCaptain = true ∧ assayerBack (fs [(fabPortStatusCause 5, 5)] (port 5 {})) 5 = true ∧
    (fportOf (port 4 {}) 5).retry.length < 1024 ∧ rd (fs [(fabStateState, 3)] (port 2 {})) fabStateState = 3 ∧
    capT.fabric.outCmd = none ∧ capT.fabric.placing = [] ∧ tget none [(7, some share)] 7 = some share := by decide +kernel
/-- Line 2 is at the home slice alone. -/
def homeL : State := home { lines := [(2, line2)] }
theorem hyp_FabricRequests_held : (∀ k ∈ [1, 2, 3, 4, 5, 6, 7, 8], homeHolds homeL (pk k) 0 2 line2) ∧ (fabRoom 0 2 0 homeL).2 = true ∧
    admits homeL { pk 1 with tag := 5 } = false ∧ canServe homeL { pk 1 with pa := 2 ^ 40 } = false ∧ (1, 2) ∉ homeL.fabric.resvs ∧
    (1, 2) ∈ ({ resvs := [(1, 2)] } : Fabric).resvs ∧ wayClear (home { fabDir := [(2, ⟨0, true, [2]⟩)] }) 0 2 (needExcl (pk 2)) (mayKeep (pk 2)) = false ∧
    granted (home {}) 1 0 = true ∧ granted withHart 1 0 = false ∧ (hartOut 1 4).kind = 4 := by
  refine ⟨fun k hk => ?_, by decide +kernel⟩
  have h : ∀ k ∈ [1, 2, 3, 4, 5, 6, 7, 8], trkOf homeL 1 4 = none ∧ trackerFree homeL 1 = true ∧ admits homeL (pk k) = true ∧
    canServe homeL (pk k) = true ∧ wayClear homeL 0 2 (needExcl (pk k)) (mayKeep (pk k)) = true := by decide +kernel
  obtain ⟨a, b, c, d, e⟩ := h k hk
  exact ⟨a, b, c, d, by simp only [pk]; decide +kernel, by simp only [pk]; decide +kernel, e, by simp only [pk]; decide +kernel⟩
def lent3 : State := { fs [(portStatusState (portBase 7 0), 3), (portStatusRole (portBase 7 0), 4)] withMem with
  mem := { withMem.mem with lent := [(7, (0, 0x1000, 5))] } }
theorem hyp_SerdesTraffic_window : decoded ing (offOf 0x040000000000) = false ∧ decoded hdm0 (offOf 0x040000000000) = true := by
  decide +kernel
theorem hyp_Serdes_others : regionOf (offOf 0x040000000000) = .cxl ∧
    lentOf lent3 7 = some (0, 0x1000, 5) ∧ isMemDevice lent3 7 = true ∧ portState lent3 7 0 = 3 ∧ (0x1000 : Nat) ≤ 0x2000 ∧
    dmaAt withMem 3 (2 ^ 46) 32 = .far 1 0x400000000000 ∧ noRoute withMem (2 ^ 46) = true ∧ regionOf (offOf 0x3FF000000000) = .control ∧
    ncClear ing 0 2 true = true := by decide +kernel
/-- R176: the multiplication of the field, and the substitution of a byte, by the standard's own examples (FIPS 197, 4.2 and 5.1.1). -/
theorem test_aes_byte : gfMul 0x57 0x83 = 0xC1 ∧ subByte 0x53 = 0xED := by decide +kernel
/-- R176: the standard's example of AES-256 (FIPS 197, C.3), both ways; byte 0 is the least significant one here. -/
theorem test_aes256 : aes256 0x1F1E1D1C1B1A191817161514131211100F0E0D0C0B0A09080706050403020100 0xFFEEDDCCBBAA99887766554433221100 =
      0x8960494B9049FCEABF456751CAB7A28E ∧
    aes256Inv 0x1F1E1D1C1B1A191817161514131211100F0E0D0C0B0A09080706050403020100 0x8960494B9049FCEABF456751CAB7A28E =
      0xFFEEDDCCBBAA99887766554433221100 := by decide +kernel
/-- R109: an inverted output is presented at the store, which freezes the hart instead of writing. -/
theorem test_inverted : (hartOf (after (.mainCoreStore 0 acc 9 []) (calm inv0)) 0).st = .frozen ∧
    l2Of (after (.mainCoreStore 0 acc 9 []) (calm inv0)) 0 2 = some ⟨0, .m, false, 0x1122334455667788⟩ := by decide +kernel
/-- R31: page 259 takes no doorbell while debug is not enabled. -/
theorem test_doorbell_debug : rd (after (.doorbell 259 259) (setAssayer {} (mb 0 {}))) (mbxStatState 259) = 0 := by decide +kernel

/-! ## What the clauses on waiting, walks, PMP and bypasses ask -/

/-- Hart 0 in U-mode, core 0 as given; an access that reads one page-table entry. -/
def umode (l : Core) : State := setCore 0 l (hpriv .u)
def walk1 (pa : Nat) : MemAcc := { acc with walk := [pa] }
/-- A load of hart 0 is with device 1. -/
def asking : State := out1 (hartOut 1 3)
/-- Line 2 at its home slice for a sealed tenancy. -/
def sealed5 : State := setTenant 5 { st := .isSealed } (slH { line2 with tag := 5 })
/-- Region 0 of endpoint 0 is open to tenancy 0, at a base of the host's. -/
def hostAt : State := modGroup 0 (fun x => { x with outRegs := [(0, { enable := true, base := 0x10000 })] }) (fs [(portStatusRole (portBase 0 0), 2)] withHart)
theorem hyp_MainCoreAccesses_walks : noWalk withHart 0 acc ∧ noWalk withHart 0 (walk1 0x80) ∧ walker (hpriv .u) 0 (walk1 0x80) = some 0 ∧
    (walkLines 0 0 0 false [0x80] (umode { l2 := [(2, ⟨0, .e, false, 5⟩)] })).2 = none ∧ (walkLines 0 0 0 false [0x80] (hpriv .u)).2 = some .wait ∧
    (walkLines 0 0 0 false [0x80] (umode { badFills := [2] })).2 = some .poison ∧ (walkLines 0 0 0 false [2 ^ 36] (hpriv .u)).2 = some .refused := by
  exact ⟨.inr rfl, .inl (by decide +kernel), by decide +kernel⟩
theorem hyp_MainCoreAccesses_waits : hartWaits withHart 0 = false ∧ hartWaits asking 0 = true ∧ portOuts withHart 0 = [] ∧
    ioAt hostAt 0 0 (winBase 0 + 0x1000) 4 = .host 0x11000 ∧ homeOf (winBase 0 + 0x1000) = myId hostAt ∧
    recorded hostAt 0 0x11000 4 3 0 = none ∧ recorded asking 0 0x11000 4 3 0 = none ∧ ioAt rooted 0 0 (winBase 0 + 0x1000) 4 = .port 0 := by
  decide +kernel
theorem hyp_CacheBlocks_pages : pmpDenies withHart 0 0x80 64 true false = false ∧ pmpDenies withHart 0 0x80 64 false true = false ∧
    (∀ p ∈ [(true, false), (false, true)], pmpDenies (hpriv .u) 0 0x80 64 p.1 p.2 = true) ∧ byPage withHart 0 0 = false ∧ byPage withHart 0 2 = true ∧
    byPage withHart 0 1 = true ∧ hitOf withHart 0 0 2 true = none ∧ (hitOf (l2 .e withHart) 0 0 2 true).isSome = true ∧ sealedCopy sealed5 0 2 0 = true ∧
    sealedCopy withHart 0 2 0 = false ∧ ncClear withHart 0 2 true = true ∧ ncClear sealed5 0 2 true = true ∧ ownLine withHart 2 = true ∧
    ownLine mayFar (2 ^ 40 + 2) = false ∧ (sliceOf mayFar (homeSlice mayFar 0 (2 ^ 40 + 2))).owned = [] ∧ ncClear mayFar 0 (2 ^ 40 + 2) true = true ∧
    2 ^ 40 + 2 ∈ (sliceOf (setSlice 0 { owned := [2 ^ 40 + 2] } mayFar) (homeSlice mayFar 0 (2 ^ 40 + 2))).owned ∧ mayReach sealed5 0 2 = true ∧
    hintBypassed withHart 0 0 0 = false ∧ hintBypassed withHart 0 1 0 = true ∧ hintBypassed withHart 0 1 2 = true ∧ hintBypassed withHart 0 0 2 = false ∧
    pmpDenies withHart 0 0x80 1 true false = false ∧ pmpDenies (hpriv .u) 0 0x80 1 true false = true ∧ ({ addr := 0x80, early := true } : PageAt).early = true := by
  decide +kernel
theorem hyp_ControlWindow_masks : assayerMask (0x180050 / 8 * 8) ((256 ^ 4 - 1) * 256 ^ (0x180050 % 8)) = 0 ∧
    fieldsAt (0x180050 / 8 * 8) ≠ [] ∧ fieldsAt (0x180018 / 8 * 8) ≠ [] ∧ (∀ f ∈ fieldsAt (0x180018 / 8 * 8), clerkOnly f = false) := by
  decide +kernel
theorem hyp_WaitsSeeds_faults : seedFault withHart 0 = none ∧ seedFault (hpriv .u) 0 = some 2 ∧ seedFault (hpriv .s) 0 = some 2 ∧
    mispredicted 0 0x1000 0x2000 1 true {} = true ∧ coresOfHart withHart 0 = [0, 1] ∧ pairOfHart withHart 0 = some 0 := by decide +kernel
theorem hyp_Bypass_compared : (hartOf inv0 0).priv = .m ∧ rdB inv0 (dzcachectlDbypass 0) = false ∧ pairOfHart inv0 0 = some 0 ∧ invertArmed inv0 0 = true ∧
    0 = 2 * rd inv0 (pairStatusSlot 0) ∧ 0 ∈ coresOfHart inv0 0 ∧ (coreOf inv0 0).l2.any (fun e => e.2.st == .m) = true ∧
    (hartOf (setHart 0 { hartOf withHart 0 with access := some { pc := 0x1000, elem := none, early := true } } withHart) 0).access.any (·.early) = true := by decide +kernel
theorem hyp_CoreCommands_bounds : underRequal off0 0 = false ∧ underRequal (fs [(pairStatusState 0, 0xD)] off0) 0 = true ∧ (hartOf off0 0).fencedAt = none ∧
    (hartOf (setHart 0 { fencedAt := some (beat withHart) } withHart) 0).fencedAt = some (beat withHart) ∧ (hartOf withHart 0).fencedAt ≠ some (beat withHart) := by
  decide +kernel

/-! ## Slices, channels and mailboxes: what is looked at again -/

theorem hyp_Slice_pumps : withMem.fabric.trackers = [] ∧ (∀ m ∈ presentSlices withMem, nextReady withMem m = none) ∧
    (askLines (.mailbox 4) 0 [2] (sl { lines := [(2, line2)] })).2 = true ∧ (askLines (.mailbox 4) 0 [2] withMem).2 = false ∧
    (sliceOf (sl { walkMbx := some 0 }) 0).walkMbx = some 0 ∧ rd (sl { walkMbx := some 0 }) (llcStatusState 0) = 1 ∧ lastSlice (sl { walkMbx := some 0 }) 0 = true ∧
    rd (fs [(llcStatusState 0, 4)] (sl { walkMbx := some 0 })) (llcStatusState 0) ≠ 1 ∧
    lastSlice (fs [(llcStatusState 1, 1)] (sl { walkMbx := some 0 })) 0 = false := by decide +kernel
/-- A read for the reader at the home; the upper channel's read beside the lower's. -/
def rqHome : DReq := { rq false with dest := 1, who := some (.hart 0) }
def homeRd (r : DReq) : State :=
  let s := keyed (ch [] { flight := [(0, [r])] })
  { s with mem := { s.mem with reads := [⟨.hart 0, 2, 0, none⟩] } }
theorem hyp_DramReadReturns_readers : flightOf (homeRd rqHome) 0 0 = [rqHome] ∧ dataWaits (homeRd rqHome) 2 = false ∧
    (⟨.hart 0, 2, 0, none⟩ : HomeRd) ∈ (homeRd rqHome).mem.reads ∧ rqHome.who = some (.hart 0) ∧ rqHome.twin = false ∧ rqHome.origin = none ∧
    (coord (homeRd rqHome) (2 * 64)).any (partFenced (homeRd rqHome) 0 ·) = false ∧ lineAt (homeRd rqHome) 0 2 = {} ∧
    sparedDev (homeRd rqHome) 0 0 0 = none ∧ checkLine (homeRd rqHome).mem.keys 0 {} none [] = .clean ∧
    checkLine (homeRd rqHome).mem.keys 0 { poison := true } none [] = .stored ∧ ({ rqHome with twin := true } : DReq).twin = true ∧
    (coord withMem (2 * 64)).all (fixBarred withMem 0 2 ·) = false ∧ countsLoss withMem 0 = true ∧
    countsLoss (fs [(mcMirrorPartner 1, 0), (mcMirrorEnabled 1, 1)] withMem) 1 = false ∧ rd withMem (mcMirrorPartner 1) ≠ 1 := by decide +kernel
theorem hyp_Ranks_out : rankOut withMem 0 1 = false ∧ rankOut (ch [] { fencedRanks := [1] }) 0 1 = true ∧ rankOut (fs [(mcStatusState 0, 5)] withMem) 0 1 = true ∧
    rd (fs [(mcStatusState 0, 2)] withMem) (mcStatusState 0) = 2 ∧ clearWaits withMem 0 4096 5 = false ∧
    clearWaits (ch [] { queue := [(0, [rq true])] }) 0 4096 5 = true ∧ clearWaits (ch [] { queue := [(0, [{ rq true with seq := 5 }])] }) 0 4096 5 = false := by
  decide +kernel
theorem hyp_Tenancies_drains : sparingIn (drainsTrip 0 (pr 5 {})) 0 = true ∧ sparingIn (drainsTrip 7 withMem) 7 = false ∧
    (tenantOf withMem 7).st ≠ .opened ∧ isSealed withMem 7 = false ∧ (askLines (.mailbox 0) 0 (rangeLines 0 64) withMem).2 = false ∧
    (askLines (.mailbox 0) 0 (rangeLines 0x80 64) (sl { lines := [(2, line2)] })).2 = true ∧ inSparing (drainTrips 0 (pr 5 {})) 0 = true ∧
    inSparing (drainTrips 0 drowsy) 0 = false := by decide +kernel

/-! ## Links, elections, shares and answers -/

/-- A flit of kind 3 with a sequence number. -/
def fl3 (seq : Nat) : Flit := ⟨seq, 0, false, false, 3, 7, [], [], 0⟩
theorem hyp_LinkFlits_kinds : (fportOf (port 4 { nak := true }) 5).nak = true ∧ (fportOf (port 4 {}) 5).nak = false ∧
    2048 ≤ ((fl3 4095).seq + 4096 - (fportOf (port 4 {}) 5).seqRx) % 4096 ∧ ((fl3 1).seq + 4096 - (fportOf (port 4 {}) 5).seqRx) % 4096 < 2048 ∧
    (fl3 1).kind ≠ 0 ∧ (fl3 1).kind ≠ 5 ∧ (fl3 0).seq = (fportOf (port 4 {}) 5).seqRx ∧ portState5 (port 3 {}) 5 = 3 ∧ ({ fl3 0 with kind := 5 } : Flit).kind = 5 ∧
    portState5 (port 6 {}) 5 ≠ 4 ∧ portState5 (port 6 {}) 5 ≠ 3 := by decide +kernel
/-- A neighbour whose captain no longer stands, at a new epoch. -/
def hiNew : HelloMsg := { hi 8 4 with epoch := 7 }
theorem hyp_Election_called : callsElection elect hiNew = true ∧ hiNew.captain = 0 ∧ hiNew.uid ≠ elect.chip.uid ∧ portUp elect 5 = true ∧
    (hi 8 4).captain = rd State.reset fabCaptainUidUid ∨ hiNew.captain = 0 := by decide +kernel
/-- The part of the share at its own ends, with a boundary named. -/
def segAt (b : Nat) : ShareSeg := { seg 7 7 with start := b }
theorem hyp_Shares_started : (segAt 9).inP = 7 ∧ (segAt 9).pos ≠ [] ∧ (segAt 9).start ≠ 0 ∧ (segAt 0).start = 0 ∧ State.reset.fabric.outCmd = none ∧
    keyOfShare share = shareKey (segAt 9).ten (segAt 9).a (segAt 9).d ∧ ([1] : List Nat).erase 1 = [] ∧ rdB capT fabIdCaptain = true ∧
    share.a = 0 ∧ myId State.reset = 0 ∧ share.d ≠ myId State.reset ∧ rdB (port 4 {}) fabIdCaptain = false := by decide +kernel
/-- Device 1 is granted tenancy 0; a window of port 0 answers for CXL.mem. -/
def grant1 (s : State) : State := fs [(fabGrantMask 1 0, 1)] s
theorem hyp_Answers_granted : granted (grant1 asking) 1 0 = true ∧ granted asking 1 0 = false ∧ outTo (grant1 asking) 1 3 = some (hartOut 1 3) ∧
    (hartOut 1 3).origin = .hart 0 5 8 false 0x80 false ∧ ({ hartOut 1 4 with origin := .evict 0 } : Out).origin = .evict 0 ∧
    granted { grant1 withHart with fabric := { trackers := [⟨pk 1, none⟩] } } 1 0 = true ∧
    trkOf { withHart with fabric := { trackers := [⟨pk 1, none⟩] } } 1 4 = some ⟨pk 1, none⟩ ∧ errRow (none : Option SLine) ≤ 1 ∧
    errRow (some { line2 with err := 1 }) ≤ 1 ∧ arrOf (slH { line2 with err := 2 }) 0 2 = some { line2 with err := 2 } ∧ dirOf (slH { line2 with err := 2 }) 0 2 = none := by
  decide +kernel
theorem hyp_Home_waits : homeWaits homeL 2 = false ∧ homeWaits (ch [] { queue := [(0, [rq true])] }) 2 = true ∧
    ({ line2 with dirty := false } : SLine).dirty = false ∧ regionOf (offOf 0x040000000000) = .cxl ∧ lineBusy homeL 0 2 = false ∧
    lineBusy filling2 0 2 = true ∧ canServe (grant1 hdm0) { pk 3 with pa := 0x040000000000 } = true ∧
    admits (grant1 hdm0) { pk 3 with pa := 0x040000000000 } = true ∧ readOf hdm0 (.tracker 1 4) (lineOf 0x040000000000 % 2 ^ 40) 0 = none ∧ hdm0.outs = [] := by
  decide +kernel

/-! ## Ports, DMA and tests -/

def grp (x : Group) (s : State) : State := setGroup 7 x s
theorem hyp_Serdes_widths : widthCap (sp 2 1) 7 0 ≠ 0 ∧ widthCap (fs [(portLanesFailed (portBase 7 0), 0xFFFF)] (sp 2 1)) 7 0 = 0 ∧
    0 ∈ (groupOf (grp { fresh := [0] } (sp 2 1)) 7).fresh ∧ 0 ∉ (groupOf (sp 2 1) 7).fresh ∧ tget 0 (groupOf (grp { widths := [(3, 4)] } (sp 4 1)) 7).widths 3 ≠ 0 ∧
    tget 0 (groupOf (sp 4 1) 7).widths 3 = 0 := by decide +kernel
/-- Port 0 of group 0 is an endpoint's, up. -/
def epUp (x : Group) : State := setGroup 0 x (fs [(portStatusState (portBase 0 0), 3), (portStatusRole (portBase 0 0), 2)] withHart)
def q45 (kind iova : Nat) : DevReq := { dev := 8, iova, write := false, size := 4, data := 0, kind }
theorem hyp_SerdesTraffic_kinds : portState (epUp {}) 0 0 = 3 ∧ isEndpoint (epUp {}) 0 = true ∧ isMemDevice (epUp {}) 0 = false ∧
    (groupOf (epUp {}) 0).msixPend = [] ∧ (q45 4 12).iova = 16 * 0 + 12 ∧ 0x10000 ≤ (q45 4 0x10000).iova ∧ isMemDevice ing 7 = false ∧ isEndpoint ing 7 = false ∧
    portState rooted 0 0 = 3 ∧ portRole rooted 0 0 = 1 ∧ isMemDevice rooted 0 = false ∧ (q45 4 0).kind ≠ 6 ∧
    vecOpen (epUp { bar0 := putLE [] 12 4 1 }) 0 0 = true ∧ vecOpen (epUp {}) 0 0 = false ∧ cfgPresent ing 7 0 = true ∧ portFunc ing 7 0 = true ∧
    cfgPresent ing 7 8 = false ∧ iomReg ing 7 16 8 % 16 = 0 ∧ iomBit ing 7 76 16 = false ∧ (0 : Nat) ≠ 0xF8 ∧
    homeOf (2 ^ 46 + 0x80) < 64 ∧ ncClear ing 0 (2 ^ 40 + 2) true = true ∧ lineCached ing (homeSlice ing 0 (2 ^ 40 + 2)) (2 ^ 40 + 2) = false ∧
    ncClear (setSlice 0 { fills := [⟨2, 0, 0, false⟩] } ing) 0 2 true = false ∧ portAt (met endp acc) 0 sig0 < 4 ∧
    postedOut (out1 (hartOut 71 4)) (hartOut 71 4) = true ∧ isRead (hartOut 71 4) = false ∧ isEndpoint (out1 (hartOut 71 4)) 7 = false := by
  decide +kernel
/-- A function found below port 1 of group 0. -/
def below : State := setGroup 0 { funcs := [⟨8, 0, [], true⟩] } (fs [(pwrDomainState 160, 2)] withMem)
/-- Port 0 of group 0 is disabled. -/
def idle1 (s : State) : State := fs [(portStatusState (portBase 0 0), 1)] s
theorem hyp_PortCommands_more : serdesOn withMem 0 = false ∧ serdesOn below 0 = true ∧ (cutAssigns 8 1 (groupOf below 0).assigns).length ≤ 256 ∧
    devTenancy below 0 8 = 0 ∧ ctxOwned below 0 0x1000 = true ∧ ctxOwned other5 0 0x1000 = false ∧ funcPresent below 0 8 = true ∧
    configOutcome below 0 (bifOf below 0) [0, 0, 0, 0] = 0 ∧ configOutcome (idle1 below) 0 (bifOf below 0) [1, 0, 0, 0] = 0 ∧ serdesOn (idle1 below) 0 = true ∧
    configOutcome below 0 (bifOf below 0) [1, 0, 0, 0] ≠ 0 ∧
    configOutcome (idle1 withMem) 0 (bifOf withMem 0) [1, 0, 0, 0] = 0 ∧ serdesOn (idle1 withMem) 0 = false ∧ hasHostPort hdm0 0 = true ∧ clampGroupTo hdm0 (hasHostPort hdm0) 7 = 0 ∧
    clampGroupTo (epUp {}) (isEndpoint (epUp {})) 7 = 0 ∧ cxlOutcome hdm0 0 0x040000000000 1 0 = 0 ∧ cxlOutcome (opened5 hdm0) 0 0x040000000000 1 5 = 0 := by decide +kernel
theorem hyp_Dma_reads : (dmaRead 3 (descAt (dma 3 3 {}) 3) 32 (.data 0) (dma 3 3 {})).2 = .wait ∧
    (dmaRead 3 0x1000 32 (.data 0) (hot4 (dma 3 3 {}))).2 = .val 7 ∧ (dmaRead 3 0x4000000000 32 (.data 0) (dma 3 3 {})).2 = .err 1 ∧
    dmaAt (dma 3 3 {}) 3 (2 ^ 46 + 0x80) 32 = .far 1 (2 ^ 46 + 0x80) ∧ ncClear (dma 3 3 {}) 0 (2 ^ 40 + 2) false = true ∧
    noRoute (dma 3 3 {}) (2 ^ 46 + 0x80) = true ∧ noRoute (fs [(fabRouteEntry 1, 2 ^ 27)] (dma 3 3 {})) (2 ^ 46 + 0x80) = false ∧
    dmaStuck (dma 3 3 {}) 3 1 (2 ^ 46 + 0x80) 3 32 = false ∧ (dmaOf (dma 3 3 { far := [⟨2 ^ 46 + 0x80, 32, some (0, 5)⟩] }) 3).far = [⟨2 ^ 46 + 0x80, 32, some (0, 5)⟩] ∧
    (dmaNeeds 63 stat (hot4 (dma 63 8 { desc := some (desc 64), done := 64 }))).2 = some (some 7) ∧
    (dmaWrite 63 stat (some 7) (dmaEndReads 63 (hot4 (dma 63 8 { desc := some (desc 64), done := 64 })))).2 = none ∧
    (dmaNeeds 63 stat (setDmaState 63 8 (hot4 (dma 63 6 { desc := some (desc 64) })))).2 = some (some 7) ∧
    (dmaPrepare 3 (dmaChunks (desc 64) 3 0 64 5) (dma 3 3 { desc := some (desc 64) })).2 = some [none] ∧
    (dmaPrepare 3 (dmaChunks (desc 32) 3 0 32 5) (dma 3 3 { desc := some (desc 32) })).2 = none ∧
    (dmaSpread 3 ((dmaChunks (desc 64) 3 0 64 5).zip [none]) 0 (dma 3 3 {})).2 = (64, none) ∧
    (dmaSpread 3 ((dmaChunks { desc 64 with dst := 0x4000000000 } 3 0 64 5).zip [none]) 0 (dma 3 3 {})).2 = (0, some 1) := by decide +kernel
def tstOf (target mode : Nat) (l : List Nat) : Test := ⟨2, target, 0, mode, 0, 0, none, 0, 0, 0, 0, [], false, 0, l⟩
theorem hyp_Tests_end : tget none (tst (tstOf 3 1 [144])).tests 7 = some (tstOf 3 1 [144]) ∧ ((tst (tstOf 3 1 [144])).tests.map (·.1)).Nodup ∧
    (∀ j e, (j, some e) ∈ (tst (tstOf 3 1 [144])).tests → j = 7) ∧ tget none (tst (tstOf 3 4 [])).tests 7 = some (tstOf 3 4 []) ∧
    rd (fs [(mcPatrolReason 0, 2)] (tst (tstOf 3 4 []))) (mcPatrolReason 0) = 2 ∧ rd (tst (tstOf 3 4 [])) (mcPatrolRunning 0) = 0 := by
  refine ⟨by decide +kernel, by decide +kernel, fun j e h => ?_, by decide +kernel, by decide +kernel, by decide +kernel⟩
  simp only [tst, List.mem_singleton, Prod.mk.injEq] at h
  exact h.1
theorem hyp_Dormant_bounds : (zz { sleep := .asleep, entryB := 0 }).power.entryB + 1001 ≤ beat (fs [(clkBeatBeat, 1001)] (zz {})) ∧
    beat (zz {}) < (zz { sleep := .asleep, entryB := 4 }).power.entryB + 1001 ∧ (zz { sleep := .waking }).power.resumeAt = none ∧
    (zz { resumeAt := some 9 }).power.resumeAt ≠ none ∧ domOn (zz { wasOn := [3] }) 3 = false := by decide +kernel

end Sys2Proof.Tests
end

section
/-! Registers of absent units (R8): a register of 8 bytes lies wholly inside one unit's block, no absent unit's block meets the
mailbox pages or the keys of the CSRs, and every read and write of the window asks for the unit before it acts. -/
namespace Sys2Proof.Machine

/-! ## The register that holds an offset -/

theorem le_word_iff {b : Nat} (hb : 8 ∣ b) (off : Nat) : b ≤ off / 8 * 8 ↔ b ≤ off := by omega

theorem word_lt_iff {b : Nat} (hb : 8 ∣ b) (off : Nat) : off / 8 * 8 < b ↔ off < b := by omega

theorem word_sub_div {b u : Nat} (hb : 8 ∣ b) (hu : 8 ∣ u) (off : Nat) : (off / 8 * 8 - b) / u = (off - b) / u := by
  obtain ⟨j, rfl⟩ := hb
  obtain ⟨k, rfl⟩ := hu
  have hword : (off / 8 * 8 - 8 * j) / 8 = (off - 8 * j) / 8 := by omega
  rw [← Nat.div_div_eq_div_mul, ← Nat.div_div_eq_div_mul, hword]

/-- The bounds of the blocks and the sizes of the units in them are multiples of 8. -/
theorem offAbsent_word (s : State) (off : Nat) : offAbsent s (off / 8 * 8) = offAbsent s off := by
  simp (disch := decide) only [offAbsent, le_word_iff, word_lt_iff, word_sub_div]

/-! ## Where the blocks of absent units lie -/

/-- The blocks that `offAbsent` looks at: PWR_DOMAIN, the units' registers and the groups' configuration space. -/
theorem offAbsent_block {s : State} {off : Nat} (h : offAbsent s off = true) :
    (0x10100 ≤ off ∧ off < 0x106C0) ∨ (0x100000 ≤ off ∧ off < 0x407000) ∨ (0x80000000 ≤ off ∧ off < 0x100000000) := by
  by_contra hout
  have hnone : offAbsent s off = false := by
    unfold offAbsent
    iterate 7 rw [if_neg (by omega)]
  exact Bool.false_ne_true (hnone.symm.trans h)

theorem offAbsent_not_page {s : State} {off : Nat} (h : offAbsent s off = true) :
    ¬(0x01000000 ≤ off ∧ off < 0x01104000) := by
  have hblock := offAbsent_block h
  omega

theorem groupPresent_of_offAbsent {s : State} {off : Nat} (h : offAbsent s off = true) (hcfg : 0x80000000 ≤ off) :
    groupPresent s ((off - 0x80000000) / 0x10000000) = false := by
  have hblock := offAbsent_block h
  unfold offAbsent at h
  iterate 6 rw [if_neg (by omega)] at h
  rw [if_pos (by omega)] at h
  simpa using h

/-! ## Reads -/

theorem regPart_of_offAbsent {s : State} {off : Nat} (h : offAbsent s off = true) (size : Nat) : regPart s off size = 0 := by
  have hreg : regRead s (off / 8 * 8) = 0 := if_pos ((offAbsent_word s off).trans h)
  simp [regPart, hreg]

theorem windowRead_of_offAbsent {s : State} {off : Nat} (h : offAbsent s off = true) (size : Nat) :
    windowRead s off size = 0 := by
  unfold windowRead
  rw [if_neg (offAbsent_not_page h)]
  split
  case isTrue hcfg => exact if_pos (groupPresent_of_offAbsent h hcfg)
  case isFalse => exact regPart_of_offAbsent h size

theorem clerkRead_of_reach {asr : Bool} {s : State} {off : Nat} (hr : mayReachWindow asr s off = true) (size : Nat) :
    clerkRead asr off size s = (s, windowRead s off size) := if_pos hr

theorem clerkRead_of_not_reach {asr : Bool} {s : State} {off : Nat} (hr : ¬mayReachWindow asr s off = true) (size : Nat) :
    clerkRead asr off size s = (refuseWindow 0 off s, 0) := if_neg hr

theorem clerkRead_value_of_offAbsent {s : State} {off : Nat} (h : offAbsent s off = true) (asr : Bool) (size : Nat) :
    (clerkRead asr off size s).2 = 0 := by
  by_cases hr : mayReachWindow asr s off = true
  · rw [clerkRead_of_reach hr, windowRead_of_offAbsent h]
  · rw [clerkRead_of_not_reach hr]

/-! ## Writes -/

theorem regStore_of_offAbsent {s : State} {off : Nat} (h : offAbsent s off = true) (w m : Nat) : regStore off w m s = s :=
  if_pos h

/-- Configuration space of an absent group. -/
theorem ecamWrite_of_not_groupPresent {s : State} {g : Nat} (h : groupPresent s g = false) (dev off size v : Nat) (r : EcamReg) :
    ecamWrite 0 g dev off size v r s = s := by
  simp [ecamWrite, h]

theorem clerkWrite_of_offAbsent {asr : Bool} {s : State} {off : Nat} (h : offAbsent s off = true)
    (hr : mayReachWindow asr s off = true) (x size v : Nat) : clerkWrite asr x off size v s = s := by
  unfold clerkWrite
  rw [if_neg (by simp [hr]), if_neg (offAbsent_not_page h)]
  split
  case isTrue hcfg => exact ecamWrite_of_not_groupPresent (groupPresent_of_offAbsent h hcfg) ..
  case isFalse =>
    have hstore := regStore_of_offAbsent ((offAbsent_word s off).trans h)
    simp only [hstore, ite_self]

theorem exec_registerWrite (asr : Bool) (off size v : Nat) (s : State) :
    exec (.registerWrite asr off size v) s = execRegisterWrite asr off size v s := rfl

/-- REGISTER_WRITE of 4 or 8 aligned bytes below the keys of the CSRs is the store of the senior Clerk or the Assayer. -/
theorem exec_registerWrite_window {asr : Bool} {off size : Nat} (hlt : off < 0x200000000) (hsize : size = 4 ∨ size = 8)
    (halign : off % size = 0) (v : Nat) (s : State) :
    exec (.registerWrite asr off size v) s = .next (clerkWrite asr (seniorTile s) off size v s) := by
  have hkey : isCsrKey off = false := by simpa [isCsrKey] using hlt
  simp [exec_registerWrite, execRegisterWrite, hkey, hsize, halign]

theorem exec_registerWrite_of_offAbsent {asr : Bool} {s : State} {off size : Nat} (h : offAbsent s off = true)
    (hsize : size = 4 ∨ size = 8) (halign : off % size = 0) (hr : mayReachWindow asr s off = true) (v : Nat) :
    exec (.registerWrite asr off size v) s = .next s := by
  have hblock := offAbsent_block h
  rw [exec_registerWrite_window (by omega) hsize halign, clerkWrite_of_offAbsent h hr]

/-- Settles O60: a read or a write of the window finds the unit absent before it reaches a register. -/
theorem registersOfAbsentUnits : Obligations.RegistersOfAbsentUnits := by
  intro s off size habsent hsize halign
  refine ⟨windowRead_of_offAbsent habsent size, fun asr => ⟨clerkRead_value_of_offAbsent habsent asr size, fun hr => ⟨?_, fun v => ?_⟩⟩⟩
  · rw [clerkRead_of_reach hr, windowRead_of_offAbsent habsent]
  · exact exec_registerWrite_of_offAbsent habsent hsize halign hr v

end Sys2Proof.Machine
end

section
/-! The beat number and platform time (R32, R46, R47, R51): what one boundary makes of them, what the resets leave of them, and the
state in which the lead of a slew is not kept. -/
namespace Sys2Proof.Machine

/-! ## One boundary -/

theorem slewDrop_of_not_slewing {s : State} (h : rdB s clkStatusSlewing = false) : slewDrop s = 0 := by
  simp [slewDrop, h]

theorem slewDrop_of_phase_ne {s : State} (h : s.time.slewPhase ≠ 99) : slewDrop s = 0 := by
  simp [slewDrop, h]

theorem slewDrop_of_slewing {s : State} (h : rdB s clkStatusSlewing = true) (hphase : s.time.slewPhase = 99) :
    slewDrop s = min 10 (rd s clkSlewRemainLeadNs) := by
  simp [slewDrop, h, hphase]

theorem nextTime_eq (s : State) : nextTime s = now s - s.time.sub + (1000 - slewDrop s) + s.time.lengthen := by
  simp only [nextTime, beatGain, Nat.add_assoc]

theorem beat_wr_ne {f : Fld} (h : fkey clkBeatBeat ≠ fkey f) (v : Nat) (s : State) : beat (wr f v s) = beat s :=
  rd_wr_ne f clkBeatBeat v s h

theorem now_wr_ne {f : Fld} (h : fkey clkTimeTimeNs ≠ fkey f) (v : Nat) (s : State) : now (wr f v s) = now s :=
  rd_wr_ne f clkTimeTimeNs v s h

@[simp] theorem beat_wr_clkBeatBeat (v : Nat) (s : State) : beat (wr clkBeatBeat v s) = v % 2 ^ 64 := rd_wr_same ..

@[simp] theorem now_wr_clkTimeTimeNs (v : Nat) (s : State) : now (wr clkTimeTimeNs v s) = v % 2 ^ 64 := rd_wr_same ..

/-- The first boundary (R32, R46). -/
theorem advanceTime_of_not_started {s : State} (h : s.time.started = false) :
    advanceTime s = wr clkBeatBeat 0 (wr clkTimeTimeNs 0
      (setTime { s.time with started := true, sub := 0, setNext := none } s)) := by
  simp [advanceTime, h]

theorem beat_advanceTime_of_not_started {s : State} (h : s.time.started = false) : beat (advanceTime s) = 0 := by
  simp [advanceTime_of_not_started h]

theorem now_advanceTime_of_not_started {s : State} (h : s.time.started = false) : now (advanceTime s) = 0 := by
  rw [advanceTime_of_not_started h, now_wr_ne (by decide), now_wr_clkTimeTimeNs, Nat.zero_mod]

theorem started_advanceTime_of_not_started {s : State} (h : s.time.started = false) :
    (advanceTime s).time.started = true := by
  rw [advanceTime_of_not_started h]
  rfl

/-- The time record after a later boundary: the setting, the lengthening and the move of the phase adjuster are used up. -/
def beatPassed (s : State) : TimeSt :=
  { s.time with
    sub := 0, setNext := none, lengthen := 0, adjust := 0
    capBeat := s.time.capBeat + 1, capTime := s.time.capTime + 1000
    slewPhase := if rdB s clkStatusSlewing then (s.time.slewPhase + 1) % 100 else 0 }

/-- A later boundary (R32, R47). -/
theorem advanceTime_of_started {s : State} (h : s.time.started = true) :
    advanceTime s = wr clkSlewRemainLeadNs (rd s clkSlewRemainLeadNs - slewDrop s) (wr clkBeatBeat (beat s + 1)
      (wr clkTimeTimeNs (max (s.time.setNext.getD 0) (nextTime s)) (setTime (beatPassed s) (portClocks s)))) := by
  have hmax : (match s.time.setNext with | some x => if nextTime s < x then x else nextTime s | none => nextTime s) =
      max (s.time.setNext.getD 0) (nextTime s) := by
    cases s.time.setNext with
    | none => simp
    | some x => simp only [Option.getD_some]; split <;> omega
  unfold advanceTime
  rw [if_pos h, ← hmax]
  rfl

theorem beat_advanceTime {s : State} (h : s.time.started = true) : beat (advanceTime s) = (beat s + 1) % 2 ^ 64 := by
  rw [advanceTime_of_started h, beat_wr_ne (by decide), beat_wr_clkBeatBeat]

theorem now_advanceTime {s : State} (h : s.time.started = true) :
    now (advanceTime s) = max (s.time.setNext.getD 0) (nextTime s) % 2 ^ 64 := by
  rw [advanceTime_of_started h, now_wr_ne (by decide), now_wr_ne (by decide), now_wr_clkTimeTimeNs]

/-- The lead after a boundary, cut to the 64 bits of its field. -/
theorem lead_advanceTime {s : State} (h : s.time.started = true) :
    rd (advanceTime s) clkSlewRemainLeadNs = (rd s clkSlewRemainLeadNs - slewDrop s) % 2 ^ 64 := by
  rw [advanceTime_of_started h, rd_wr_same]
  rfl

theorem sub_advanceTime {s : State} (h : s.time.started = true) : (advanceTime s).time.sub = 0 := by
  rw [advanceTime_of_started h]
  rfl

theorem now_advanceTime_of_setNext_none {s : State} (h : s.time.started = true) (hset : s.time.setNext = none)
    (hnext : nextTime s < 2 ^ 64) :
    now (advanceTime s) = now s - s.time.sub + (1000 - slewDrop s) + s.time.lengthen := by
  rw [now_advanceTime h, hset, Option.getD_none, Nat.zero_max, Nat.mod_eq_of_lt hnext, nextTime_eq]

theorem now_advanceTime_of_setNext {s : State} {v : Nat} (h : s.time.started = true) (hset : s.time.setNext = some v)
    (hnext : nextTime s < 2 ^ 64) (hv : v < 2 ^ 64) : now (advanceTime s) = max v (nextTime s) := by
  rw [now_advanceTime h, hset, Option.getD_some, Nat.mod_eq_of_lt (max_lt hv hnext)]

/-! ## The resets (R46) -/

/-- The CLK_ block holds every field of the window below 0x10000 (R53). -/
abbrev inClk (f : Fld) : Prop := fkey f / 64 < 0x10000

/-- t has the CLK_ fields and the time record of s. -/
structure SameClk (s t : State) : Prop where
  time : t.time = s.time
  regs : ∀ f, inClk f → rd t f = rd s f

theorem SameClk.refl (s : State) : SameClk s s := ⟨rfl, fun _ _ => rfl⟩

theorem SameClk.of_eq {s t u : State} (h : SameClk s t) (htime : u.time = t.time) (hregs : u.regs = t.regs) : SameClk s u :=
  ⟨htime.trans h.time, fun f hf => by rw [← h.regs f hf, rd, rd, hregs]⟩

theorem SameClk.wr {s t : State} (h : SameClk s t) {f : Fld} (hf : ¬inClk f) (v : Nat) : SameClk s (wr f v t) := by
  refine ⟨h.time, fun q hq => ?_⟩
  have hne : fkey q ≠ fkey f := fun heq => hf (by rwa [inClk, ← heq])
  rw [rd_wr_ne f q v t hne, h.regs q hq]

theorem SameClk.foldl {α : Type} {s t : State} (h : SameClk s t) {f : State → α → State} {l : List α}
    (hf : ∀ y, SameClk s y → ∀ a ∈ l, SameClk s (f y a)) : SameClk s (l.foldl f t) :=
  List.foldlRecOn l f h hf

theorem not_inClk_mbxStatState (i : Nat) : ¬inClk (mbxStatState i) := by
  simp only [inClk, fkey, mbxStatState]
  omega

theorem not_inClk_mbxStatAbandoned (i : Nat) : ¬inClk (mbxStatAbandoned i) := by
  simp only [inClk, fkey, mbxStatAbandoned]
  omega

theorem not_inClk_pwrDomain (d : Nat) :
    ¬inClk (pwrDomainState d) ∧ ¬inClk (pwrDomainHeld d) ∧ ¬inClk (pwrDomainMv d) ∧ ¬inClk (pwrDomainFreq d) := by
  simp only [inClk, fkey, pwrDomainState, pwrDomainMv, pwrDomainFreq, pwrDomainHeld]
  omega

theorem SameClk.abandonMbx {s t : State} (h : SameClk s t) (i : Nat) : SameClk s (abandonMbx t i) := by
  have hcount : SameClk s (if rd t (mbxStatState i) = 1 ∨ rd t (mbxStatState i) = 2 then
      bump (mbxStatAbandoned i) 1 t else t) := by
    split
    · exact h.wr (not_inClk_mbxStatAbandoned i) _
    · exact h
  exact (hcount.of_eq (setMbx_time i {} _) (setMbx_regs i {} _)).wr (not_inClk_mbxStatState i) 0

theorem SameClk.setDomain {s t : State} (h : SameClk s t) (d : Nat) (on : Bool) : SameClk s (setDomain d on t) := by
  obtain ⟨hstate, -, hmv, hfreq⟩ := not_inClk_pwrDomain d
  unfold Machine.setDomain
  split
  · split
    · exact ((h.of_eq (freeNext_time t) (freeNext_regs t)).wr hmv _).wr hstate _
    · exact ((h.wr hfreq _).wr hmv _).wr hstate _
  · exact h

/-- Dropping entries of other keys does not change what a key reads. -/
theorem tget_filter {α : Type} (d : α) (p : Nat → Bool) {k : Nat} (hk : p k = true) (t : Table α) :
    tget d (t.filter fun e => p e.1) k = tget d t k := by
  induction t with
  | nil => rfl
  | cons e r ih =>
    obtain ⟨j, v⟩ := e
    by_cases hjk : j = k
    · simp [hjk, hk, tget]
    · cases hj : p j <;> simp [hj, tget, hjk, ih]

theorem stickyKey_of_inClk {f : Fld} (h : inClk f) : stickyKey (fkey f) = true := by
  simp [stickyKey, show fkey f / 64 < 0x10000 from h]

/-- What a warm reset does to the power domains: those of `off` are off, those of `on` on, those of `held` held. -/
theorem SameClk.resetDomains (t : State) (off on held : List Nat) :
    SameClk t (held.foldl (fun y d => if d < 184 then Machine.wr (pwrDomainHeld d) 1 y else y)
      (on.foldl (fun y d => Machine.setDomain d true y)
        (off.foldl (fun y d => Machine.wr (pwrDomainState d) 1 y) t))) := by
  have hoff := (SameClk.refl t).foldl (l := off) fun _ hy d _ => hy.wr (not_inClk_pwrDomain d).1 1
  have hon := hoff.foldl (l := on) fun _ hy d _ => hy.setDomain d true
  refine hon.foldl fun y hy d _ => ?_
  obtain ⟨-, hheld, -⟩ := not_inClk_pwrDomain d
  split
  · exact hy.wr hheld 1
  · exact hy

/-- A warm reset keeps every CLK_ field, and whether the first boundary has passed. -/
theorem warmReset_clk (s : State) :
    (warmReset s).time.started = s.time.started ∧ ∀ f, inClk f → rd (warmReset s) f = rd s f := by
  have hmbx : SameClk s ((mbxIds s).foldl abandonMbx s) :=
    (SameClk.refl s).foldl fun _ hy i _ => hy.abandonMbx i
  refine ⟨(congrArg TimeSt.started (SameClk.resetDomains _ _ _ _).time).trans rfl, fun f hf => ?_⟩
  calc rd (warmReset s) f
      = tget 0 (((mbxIds s).foldl abandonMbx s).regs.filter fun e => stickyKey e.1) (fkey f) ^^^ f.rst :=
        (SameClk.resetDomains _ _ _ _).regs f hf
    _ = rd ((mbxIds s).foldl abandonMbx s) f := by rw [tget_filter 0 stickyKey (stickyKey_of_inClk hf)]; rfl
    _ = rd s f := hmbx.regs f hf

/-- RESET_N low for 2 µs or more, after step 1, is a warm reset. -/
theorem exec_resetNRise {s : State} {lowNs : Nat} (hlow : 2000 ≤ lowNs) (hvin : s.chip.vinGood = true)
    (hoff : s.chip.off = false) (hstep : s.boot.step ≠ 1) : exec (.resetNRise lowNs) s = .next (warmReset s) := by
  show Host.Outcome.next (resetRise lowNs s) = _
  simp [resetRise, hvin, hoff, hstep, hlow, show ¬lowNs < 500 by omega]

/-- VIN at 1.7 V or more is a cold reset. -/
theorem exec_vinGood {s : State} {mv : Nat} (hmv : 1700 ≤ mv) (hvin : s.chip.vinGood = false) (low : Bool) :
    exec (.vinGood mv low) s = .next (vinGood low s) := by
  show Host.Outcome.next (if 1700 ≤ mv ∧ s.chip.vinGood = false then vinGood low s else s) = _
  rw [if_pos ⟨hmv, hvin⟩]

theorem rd_vinGood (low : Bool) (s : State) (f : Fld) : rd (vinGood low s) f = f.rst := rd_reset f

/-! ## The statement -/

/-- Every clause of O12 holds of a state whose lead fits the 64 bits of CLK_SLEW_REMAIN, as a lead stored by `wr` does. -/
theorem beatAndPlatformTime_of_lead_lt {s : State} (hbeat : beat s < 2 ^ 64 - 1) (hnext : nextTime s < 2 ^ 64)
    (hlead : rd s clkSlewRemainLeadNs < 2 ^ 64) :
    (s.time.started = false → beat (advanceTime s) = 0 ∧ now (advanceTime s) = 0 ∧ (advanceTime s).time.started = true) ∧
    (s.time.started = true → beat (advanceTime s) = beat s + 1 ∧ (advanceTime s).time.sub = 0 ∧
      (s.time.setNext = none → rdB s clkStatusSlewing = false →
        now (advanceTime s) = now s - s.time.sub + 1000 + s.time.lengthen) ∧
      (s.time.setNext = none → rdB s clkStatusSlewing = true → s.time.slewPhase ≠ 99 →
        now (advanceTime s) = now s - s.time.sub + 1000 + s.time.lengthen ∧
        rd (advanceTime s) clkSlewRemainLeadNs = rd s clkSlewRemainLeadNs) ∧
      (s.time.setNext = none → rdB s clkStatusSlewing = true → s.time.slewPhase = 99 →
        now (advanceTime s) = now s - s.time.sub + (1000 - min 10 (rd s clkSlewRemainLeadNs)) + s.time.lengthen ∧
        rd (advanceTime s) clkSlewRemainLeadNs = rd s clkSlewRemainLeadNs - 10) ∧
      (∀ v, s.time.setNext = some v → v < 2 ^ 64 → now (advanceTime s) = max v (nextTime s))) ∧
    (∀ mv low, 1700 ≤ mv → s.chip.vinGood = false → ∃ t, exec (.vinGood mv low) s = .next t ∧ now t = 0 ∧
      t.time.started = false) ∧
    (∀ lowNs, 2000 ≤ lowNs → s.chip.vinGood = true → s.chip.off = false → s.boot.step ≠ 1 →
      ∃ t, exec (.resetNRise lowNs) s = .next t ∧ now t = now s ∧ beat t = beat s ∧
        t.time.started = s.time.started) := by
  refine ⟨fun h => ⟨beat_advanceTime_of_not_started h, now_advanceTime_of_not_started h,
    started_advanceTime_of_not_started h⟩, fun h => ?_, fun mv low hmv hvin => ?_, fun lowNs hlow hvin hoff hstep => ?_⟩
  · have hnow := fun hset => now_advanceTime_of_setNext_none h hset hnext
    refine ⟨?_, sub_advanceTime h, fun hset hslew => ?_, fun hset _ hphase => ?_, fun hset hslew hphase => ?_,
      fun v hset hv => now_advanceTime_of_setNext h hset hnext hv⟩
    · rw [beat_advanceTime h, Nat.mod_eq_of_lt (by omega)]
    · rw [hnow hset, slewDrop_of_not_slewing hslew]
    · rw [hnow hset, lead_advanceTime h, slewDrop_of_phase_ne hphase]
      exact ⟨rfl, Nat.mod_eq_of_lt hlead⟩
    · rw [hnow hset, lead_advanceTime h, slewDrop_of_slewing hslew hphase]
      exact ⟨rfl, by omega⟩
  · exact ⟨_, exec_vinGood hmv hvin low, rd_vinGood low s clkTimeTimeNs, rfl⟩
  · obtain ⟨hstarted, hkeep⟩ := warmReset_clk s
    exact ⟨_, exec_resetNRise hlow hvin hoff hstep, hkeep clkTimeTimeNs (by decide), hkeep clkBeatBeat (by decide),
      hstarted⟩

/-- A slew is under way, and CLK_SLEW_REMAIN, a field of 64 bits, lists a lead of 2^64 ns. -/
def leadTooWide : State :=
  { State.reset with
    regs := [(fkey clkStatusSlewing, 1), (fkey clkSlewRemainLeadNs, 2 ^ 64)]
    time := { started := true } }

theorem lead_leadTooWide : rd leadTooWide clkSlewRemainLeadNs = 2 ^ 64 := by decide +kernel

/-- The tables of `leadTooWide` are in canonical form, and the state meets the hypotheses of O12 and of its slewing clauses. -/
theorem leadTooWide_meets : Memory.wf leadTooWide = true ∧ beat leadTooWide < 2 ^ 64 - 1 ∧ nextTime leadTooWide < 2 ^ 64 ∧
    rdB leadTooWide clkStatusSlewing = true := by decide +kernel

/-- Off the beat on which a slew takes 10 ns, the boundary still writes the lead back, and the write cuts it to 64 bits. -/
theorem lead_advanceTime_leadTooWide : rd (advanceTime leadTooWide) clkSlewRemainLeadNs = 0 := by
  rw [lead_advanceTime rfl, slewDrop_of_phase_ne (by decide), lead_leadTooWide]
  rfl

/-- Refutes O12: the statement bounds the beat number and platform time by their fields but not the lead of a slew; a lead of
2^64 ns does not fit CLK_SLEW_REMAIN, and the boundary that should keep it leaves 0. With the lead bounded too every clause
holds (`beatAndPlatformTime_of_lead_lt`). -/
theorem not_beatAndPlatformTimeAdvance : ¬ Obligations.BeatAndPlatformTimeAdvance := by
  intro h
  obtain ⟨-, hbeat, hnext, hslew⟩ := leadTooWide_meets
  obtain ⟨-, hlater, -⟩ := h leadTooWide hbeat hnext
  obtain ⟨-, -, -, hkept, -⟩ := hlater rfl
  obtain ⟨-, hsame⟩ := hkept rfl hslew (by decide)
  rw [lead_advanceTime_leadTooWide, lead_leadTooWide] at hsame
  exact absurd hsame (by decide)

end Sys2Proof.Machine
end

section
/-! Stopping a privileged DMA channel (R305): what a stop, the end of a descriptor, a halt (R302) and a resume make of the channel's
state and of DMA_CTRL.stop. -/
namespace Sys2Proof.Machine

/-! ## The fields of a channel's page -/

theorem dmaBase_bounds {d : Nat} (hd : d < 64) : 0x500000 ≤ dmaBase d ∧ dmaBase d < 0x540000 := by
  unfold dmaBase
  omega

theorem fkey_ne_of_off_lt {f g : Fld} (hlo : g.lo < 64) (hoff : g.off < f.off) : fkey g ≠ fkey f := by
  unfold fkey
  omega

theorem dmaCtrlStop_lo_lt (d : Nat) : (dmaCtrlStop d).lo < 64 := by
  simp [dmaCtrlStop]

theorem dmaStatusState_lo_lt (d : Nat) : (dmaStatusState d).lo < 64 := by
  simp [dmaStatusState]

theorem dmaCtrlStop_ne_dmaStatusState (d : Nat) : fkey (dmaCtrlStop d) ≠ fkey (dmaStatusState d) :=
  fkey_ne_of_off_lt (dmaCtrlStop_lo_lt d) (Nat.add_lt_add_left (by decide) _)

theorem dmaStatusState_ne_dmaHeadHead (d : Nat) : fkey (dmaStatusState d) ≠ fkey (dmaHeadHead d) :=
  fkey_ne_of_off_lt (dmaStatusState_lo_lt d) (Nat.add_lt_add_left (by decide) _)

/-- The pending interrupts of a Clerk core lie above every channel's page. -/
theorem fkey_ne_clerkIpPending {f : Fld} (hlo : f.lo < 64) (hoff : f.off < 0x100000000) (c : Nat) :
    fkey f ≠ fkey (clerkIpPending c) :=
  fkey_ne_of_off_lt hlo (Nat.lt_of_lt_of_le hoff (by simp only [clerkIpPending]; omega))

theorem dmaState_setDmaState {v : Nat} (hv : v < 16) (d : Nat) (s : State) : dmaState (setDmaState d v s) d = v :=
  (rd_wr_same (dmaStatusState d) v s).trans (Nat.mod_eq_of_lt hv)

theorem rd_setDmaState_ne {d : Nat} {f : Fld} (hf : fkey f ≠ fkey (dmaStatusState d)) (v : Nat) (s : State) :
    rd (setDmaState d v s) f = rd s f :=
  rd_wr_ne _ _ _ _ hf

theorem rd_modDma (d : Nat) (g : DmaCh → DmaCh) (s : State) (f : Fld) : rd (modDma d g s) f = rd s f := rfl

theorem dmaOf_modDma (d : Nat) (g : DmaCh → DmaCh) (s : State) : dmaOf (modDma d g s) d = g (dmaOf s d) :=
  setDma_dmaOf_same ..

/-- A party that reaches the channel's page writes it. -/
theorem dmaBy_of_dmaReach {tag d : Nat} {s : State} (hd : d < 64) (hreach : dmaReach s tag d = true) (off : Nat)
    (f : State → State) : dmaBy tag d off f s = f s := by
  simp [dmaBy, dmaPresent, hd, hreach]

/-! ## Pause and stop -/

theorem dmaPause_of_dmaPriv {d : Nat} (hpriv : dmaPriv d = true) (s : State) : dmaPause d s = s := if_pos hpriv

theorem dmaPauseClear_of_dmaPriv {d : Nat} (hpriv : dmaPriv d = true) (s : State) : dmaPauseClear d s = s := if_pos hpriv

/-- The state that a stop of a privileged channel leads to: stopping with a descriptor in progress, stopped without one. -/
def stateOnStop (s : State) (d : Nat) : Nat :=
  if dmaState s d = 3 then (if (dmaOf s d).desc.isSome then 8 else 9) else if dmaState s d = 2 then 9 else dmaState s d

/-- A stop sets DMA_CTRL.stop, and moves an active or idle channel to its state on a stop. -/
theorem dmaStop_of_dmaPriv {d : Nat} (hpriv : dmaPriv d = true) (s : State) :
    dmaStop d s = if dmaState s d = 3 ∨ dmaState s d = 2 then setDmaState d (stateOnStop s d) (wr (dmaCtrlStop d) 1 s)
      else wr (dmaCtrlStop d) 1 s := by
  unfold dmaStop stateOnStop
  rw [if_pos hpriv]
  by_cases hactive : dmaState s d = 3
  · simp only [hactive, if_true, true_or]
  · by_cases hidle : dmaState s d = 2
    · simp [hidle]
    · simp [hactive, hidle]

theorem dmaState_dmaStop {d : Nat} (hpriv : dmaPriv d = true) (s : State) : dmaState (dmaStop d s) d = stateOnStop s d := by
  rw [dmaStop_of_dmaPriv hpriv]
  split
  case isTrue hruns =>
    refine dmaState_setDmaState ?_ d _
    obtain hactive | hidle := hruns
    · rw [stateOnStop, if_pos hactive]
      split <;> decide
    · simp [stateOnStop, hidle]
  case isFalse hstays =>
    obtain ⟨hactive, hidle⟩ := not_or.1 hstays
    rw [stateOnStop, if_neg hactive, if_neg hidle]
    exact rd_wr_ne _ _ _ _ (dmaCtrlStop_ne_dmaStatusState d).symm

theorem rd_dmaStop_stop {d : Nat} (hpriv : dmaPriv d = true) (s : State) : rd (dmaStop d s) (dmaCtrlStop d) = 1 := by
  have hset : rd (wr (dmaCtrlStop d) 1 s) (dmaCtrlStop d) = 1 := rd_wr_same (dmaCtrlStop d) 1 s
  rw [dmaStop_of_dmaPriv hpriv]
  split
  · rw [rd_setDmaState_ne (dmaCtrlStop_ne_dmaStatusState d), hset]
  · exact hset

theorem dmaStop_otherFields {d : Nat} (hpriv : dmaPriv d = true) (s : State) :
    otherFields [dmaCtrlStop d, dmaStatusState d] s (dmaStop d s) := by
  intro f hf
  have hstop : rd (wr (dmaCtrlStop d) 1 s) f = rd s f := rd_wr_ne _ _ _ _ (hf _ (by simp))
  rw [dmaStop_of_dmaPriv hpriv]
  split
  · rw [rd_setDmaState_ne (hf _ (by simp)), hstop]
  · exact hstop

theorem dmaStop_dma {d : Nat} (hpriv : dmaPriv d = true) (s : State) : (dmaStop d s).dma = s.dma := by
  rw [dmaStop_of_dmaPriv hpriv]
  split <;> rfl

/-! ## The end of a descriptor, and the fetch of the next -/

/-- The write of a descriptor's status word (R300). -/
def statusWrite (q : Desc) (bad : Option (Nat × Nat × Nat)) : DmaWr := ⟨statusOff, q.at' + 0x18, 8, statusWord q bad⟩

/-- The channel of s once its descriptor q has ended in s1: a BAD one is counted, and DMA_HEAD goes on. -/
def headPast (d : Nat) (q : Desc) (s s1 : State) : State :=
  wr (dmaHeadHead d) ((headOf s d + 1) % ringSize s d)
    (modDma d (fun c => { c with desc := none, done := 0, bad := none, msiDue := c.msiDue || q.irq })
      (if (dmaOf s d).bad.isSome then bump (dmaStatusBadCount d) 1 s1 else s1))

theorem headPast_desc (d : Nat) (q : Desc) (s s1 : State) : (dmaOf (headPast d q s s1) d).desc = none := by
  rw [headPast, wr_dmaOf, dmaOf_modDma]

theorem headPast_mem (d : Nat) (q : Desc) (s s1 : State) : (headPast d q s s1).mem = s1.mem := by
  unfold headPast
  split <;> rfl

theorem headPast_slices (d : Nat) (q : Desc) (s s1 : State) : (headPast d q s s1).slices = s1.slices := by
  unfold headPast
  split <;> rfl

theorem rd_headPast_head (d : Nat) (q : Desc) (s s1 : State) :
    rd (headPast d q s s1) (dmaHeadHead d) = (headOf s d + 1) % ringSize s d % 2 ^ 16 :=
  rd_wr_same (dmaHeadHead d) ..

/-- A stopping channel stops when the status of its descriptor is written. -/
theorem finishDesc_of_stopping {d : Nat} {q : Desc} {s s0 s1 : State} {old : Option Nat} (hstate : dmaState s d = 8)
    (hneeds : dmaNeeds d (statusWrite q (dmaOf s d).bad) s = (s0, some old))
    (hwrite : dmaWrite d (statusWrite q (dmaOf s d).bad) old (dmaEndReads d s0) = (s1, none)) :
    finishDesc d q s = setDmaState d 9 (headPast d q s s1) := by
  rw [statusWrite] at hneeds hwrite
  simp only [finishDesc, hneeds, hwrite, hstate, if_true, headPast]

/-- A descriptor whose every byte is written, or that is BAD, ends when no write of its channel is awaited. -/
theorem descComplete_of_ended {d : Nat} {q : Desc} {s : State} (hstate : dmaState s d = 8) (hdesc : (dmaOf s d).desc = some q)
    (haborting : (dmaOf s d).aborting = false) (hended : (dmaOf s d).done = q.len ∨ (dmaOf s d).bad ≠ none)
    (hwaits : dmaWaits s d = false) : descComplete d s = finishDesc d q s := by
  rw [← Option.isSome_iff_ne_none] at hended
  simp [descComplete, hdesc, haborting, hstate, hwaits, hended]

theorem descFetched_of_not_active {d : Nat} {s : State} (hstate : dmaState s d ≠ 3) (far : FarRead) : descFetched d far s = s :=
  if_neg fun h => hstate h.1

/-! ## Halt and resume -/

/-- What a privileged channel latches as it halts (R302). -/
def haltLatched (d kind dir off addr : Nat) (ring : Bool) (s : State) : State :=
  setDmaState d 6 (wr (dmaErrAddrAddr d) addr (modDma d (fun r => { r with bad := some (kind, dir, off) })
    (wr (dmaErrKind d) kind (wr (dmaErrDir d) dir (wrB (dmaErrRing d) ring (wr (dmaErrBeat d) (beat s) s))))))

theorem dmaError_of_dmaPriv {d : Nat} (hpriv : dmaPriv d = true) (kind dir off addr : Nat) (ring : Bool) (s : State) :
    dmaError d kind dir off addr ring s =
      recContained (nextSlice s) 6 d 0x0601 0 [] (haltLatched d kind dir off addr ring s) := if_pos hpriv

/-- A halt changes no field that lies before the channel's DMA_STATUS. -/
theorem rd_haltLatched {d : Nat} {f : Fld} (hlo : f.lo < 64) (hoff : f.off < dmaBase d + 8) (kind dir off addr : Nat)
    (ring : Bool) (s : State) : rd (haltLatched d kind dir off addr ring s) f = rd s f := by
  have hwr : ∀ g : Fld, dmaBase d + 8 ≤ g.off → ∀ v t, rd (wr g v t) f = rd t f := fun g hg v t =>
    rd_wr_ne _ _ _ _ (fkey_ne_of_off_lt hlo (Nat.lt_of_lt_of_le hoff hg))
  have herr : dmaBase d + 8 ≤ dmaBase d + 0x50 := Nat.add_le_add_left (by decide) _
  rw [haltLatched, setDmaState, hwr (dmaStatusState d) (Nat.le_refl _),
    hwr (dmaErrAddrAddr d) (Nat.add_le_add_left (by decide) _), rd_modDma, hwr (dmaErrKind d) herr, hwr (dmaErrDir d) herr, wrB,
    hwr (dmaErrRing d) herr, hwr (dmaErrBeat d) herr]

theorem haltLatched_bad (d kind dir off addr : Nat) (ring : Bool) (s : State) :
    (dmaOf (haltLatched d kind dir off addr ring s) d).bad = some (kind, dir, off) := by
  rw [haltLatched, setDmaState, wr_dmaOf, wr_dmaOf, dmaOf_modDma]

/-- A record of a contained error leaves every field but the pending interrupts of the Clerk cores. -/
theorem rd_recContained {f : Fld} (hlo : f.lo < 64) (hoff : f.off < 0x100000000) (sl kind unit cause addr : Nat)
    (detail : List Nat) (s : State) : rd (recContained sl kind unit cause addr detail s) f = rd s f :=
  rd_recPlatform _ _ _ _ _ _ _ _ _ _ fun c _ => fkey_ne_clerkIpPending hlo hoff c

theorem recContained_dma (sl kind unit cause addr : Nat) (detail : List Nat) (s : State) :
    (recContained sl kind unit cause addr detail s).dma = s.dma := by
  rw [recContained, recPlatform, foldl_clkIrq State.dma _ _ _ fun s c _ => clkIrq_dma _ _ s c]

/-- A bus error halts a privileged channel, keeps its DMA_CTRL.stop and is recorded as contained. -/
theorem dmaError_halts {d : Nat} (hd : d < 64) (hpriv : dmaPriv d = true) (kind dir off addr : Nat) (ring : Bool) (s : State) :
    dmaState (dmaError d kind dir off addr ring s) d = 6 ∧
      rd (dmaError d kind dir off addr ring s) (dmaCtrlStop d) = rd s (dmaCtrlStop d) ∧
      (dmaOf (dmaError d kind dir off addr ring s) d).bad = some (kind, dir, off) ∧
      recordedIn 2 6 d 0x0601 s (dmaError d kind dir off addr ring s) := by
  obtain ⟨hlow, hhigh⟩ := dmaBase_bounds hd
  have hpage : ∀ x, x < 0x1000 → dmaBase d + x < 0x100000000 := fun x hx => by omega
  have hbeat : beat (haltLatched d kind dir off addr ring s) = beat s :=
    rd_haltLatched (by decide) (show 0 < dmaBase d + 8 by omega) ..
  rw [dmaError_of_dmaPriv hpriv]
  refine ⟨?_, ?_, ?_, recPlatform_recordedIn _ _ _ _ _ _ _ _ _ _ rfl hbeat⟩
  · rw [dmaState, rd_recContained (dmaStatusState_lo_lt d) (hpage 8 (by decide))]
    exact dmaState_setDmaState (by decide) d _
  · rw [rd_recContained (dmaCtrlStop_lo_lt d) (hpage 0 (by decide))]
    exact rd_haltLatched (dmaCtrlStop_lo_lt d) (Nat.add_lt_add_left (by decide) _) ..
  · rw [dmaOf, recContained_dma]
    exact haltLatched_bad ..

theorem exec_dmaBusError {d : Nat} {q : Desc} {s : State} {off : Nat} (hdesc : (dmaOf s d).desc = some q)
    (hbad : (dmaOf s d).bad = none) (haborting : (dmaOf s d).aborting = false) (hoff : off < q.len) (kind dir : Nat) :
    exec (.dmaBusError d kind dir off) s = .next (dmaError d kind dir off
      (if dir = 0 then dmaAddr q.src q.srcLog off else dmaAddr q.dst q.dstLog off) false s) := by
  show execDmaBusError d kind dir off s = _
  simp [execDmaBusError, hdesc, hbad, haborting, hoff]

theorem resumeRetry_of_stop {d : Nat} {s : State} (hpriv : dmaPriv d = true) (hstate : dmaState s d = 6)
    (hstop : rdB s (dmaCtrlStop d) = true) :
    resumeRetry d s = setDmaState d 8 (modDma d (fun r => { r with bad := none }) s) := by
  simp only [resumeRetry, hpriv, hstate, hstop, and_self, if_true]

theorem resumeMarkBad_of_stop {d : Nat} {q : Desc} {s : State} (hpriv : dmaPriv d = true) (hstate : dmaState s d = 6)
    (hstop : rdB s (dmaCtrlStop d) = true) (hdesc : (dmaOf s d).desc = some q) :
    resumeMarkBad d s = finishDesc d q (setDmaState d 8 s) := by
  simp only [resumeMarkBad, hpriv, hstate, hstop, hdesc, and_self, if_true]

/-! ## The statement -/

/-- Settles O52: a stop lets the descriptor in progress end, and a halt before then keeps DMA_CTRL.stop for the resume. -/
theorem privilegedDmaChannelsStop : Obligations.PrivilegedDmaChannelsStop := by
  intro s d tag hd hpriv hreach
  have hby := dmaBy_of_dmaReach hd hreach 0
  refine ⟨⟨?_, ?_⟩, ⟨dmaStop d s, ?_, rd_dmaStop_stop hpriv s, dmaStop_dma hpriv s, dmaStop_otherFields hpriv s, ?_⟩, ?_,
    fun far hstate => ?_, fun q kind dir off _ hdesc hbad haborting hoff => ?_, fun hstate hstop => ⟨?_, ?_⟩⟩
  · exact congrArg Host.Outcome.next ((hby _).trans (dmaPause_of_dmaPriv hpriv s))
  · exact congrArg Host.Outcome.next ((hby _).trans (dmaPauseClear_of_dmaPriv hpriv s))
  · exact congrArg Host.Outcome.next (hby _)
  · rw [dmaState_dmaStop hpriv, stateOnStop]
    refine ⟨fun hactive hdesc => ?_, fun hactive hdesc => ?_, fun hidle => ?_, fun hidle hactive => ?_⟩
    · rw [if_pos hactive, if_pos (Option.isSome_iff_ne_none.2 hdesc)]
    · rw [if_pos hactive, hdesc]
      rfl
    · rw [hidle]
      rfl
    · rw [if_neg hactive, if_neg hidle]
  · rintro q w s0 old s1 hstate hdesc haborting hended hwaits rfl hneeds hwrite
    have hdone := (descComplete_of_ended hstate hdesc haborting hended hwaits).trans
      (finishDesc_of_stopping hstate hneeds hwrite)
    refine ⟨_, congrArg Host.Outcome.next hdone, dmaState_setDmaState (by decide) d _, headPast_desc d q s s1, ?_,
      headPast_mem d q s s1, headPast_slices d q s s1⟩
    rw [rd_setDmaState_ne (dmaStatusState_ne_dmaHeadHead d).symm, rd_headPast_head]
  · exact congrArg Host.Outcome.next (descFetched_of_not_active (by omega) far)
  · exact ⟨_, exec_dmaBusError hdesc hbad haborting hoff kind dir, dmaError_halts hd hpriv ..⟩
  · refine ⟨_, congrArg Host.Outcome.next ((hby _).trans (resumeRetry_of_stop hpriv hstate hstop)),
      dmaState_setDmaState (by decide) d _, ?_, ?_⟩ <;> rw [setDmaState, wr_dmaOf, dmaOf_modDma]
  · rintro q w s0 old s1 hdesc rfl hneeds hwrite
    have hstopping : dmaState (setDmaState d 8 s) d = 8 := dmaState_setDmaState (by decide) d s
    have hdone := (resumeMarkBad_of_stop hpriv hstate hstop hdesc).trans (finishDesc_of_stopping hstopping hneeds hwrite)
    exact ⟨_, congrArg Host.Outcome.next ((hby _).trans hdone), dmaState_setDmaState (by decide) d _, headPast_desc ..,
      headPast_mem d q _ s1⟩

end Sys2Proof.Machine
end

section
/-! What every command and every step keeps (R2, R379): each meaning writes only the parts its row may touch, so the fuses, the
queue and the canonical form of the stored tables follow for a step. -/
set_option Elab.async false
namespace Sys2Proof.Machine

/-! ## Sets of parts as lists and as numbers -/

/-- The number of a list of parts, a bit for each. -/
def partsNum (l : List Part) : Nat := l.foldr (fun p W => 2 ^ p.num ||| W) 0

theorem num_inj {p q : Part} (h : p.num = q.num) : p = q := by
  cases p <;> cases q <;> first | rfl | exact absurd h (by decide)

theorem testBit_partsNum {p : Part} {l : List Part} (hp : p ∉ l) : (partsNum l).testBit p.num = false := by
  induction l with
  | nil => exact Nat.zero_testBit _
  | cons q r ih =>
    obtain ⟨hpq, hr⟩ := List.ne_and_not_mem_of_not_mem_cons hp
    have hnum : q.num ≠ p.num := fun h => hpq (num_inj h.symm)
    rw [partsNum, List.foldr_cons, Nat.testBit_or, Nat.testBit_two_pow_of_ne hnum, Bool.false_or]
    exact ih hr

/-- The outcome is a next state with the queue, the fuses, the canonical forms of s and with every part that is not listed. -/
def WritesOnly (l : List Part) (s : State) (o : Host.Outcome State Fault Refusal) : Prop :=
  ∃ t, o = .next t ∧ fixedOf t = fixedOf s ∧ (Memory.wf s = true → Memory.wf t = true) ∧ ∀ p, p ∉ l → samePart p s t

theorem wf_of_keeps {W : Nat} {s t : State} (h : Keeps W s t) (hwf : Memory.wf s = true) : Memory.wf t = true := by
  obtain ⟨-, hregs, hdram, -⟩ := h
  unfold Memory.wf at hwf ⊢
  rw [Bool.and_eq_true] at hwf ⊢
  exact ⟨hregs hwf.1, hdram hwf.2⟩

theorem writesOnly {W : Nat} {l : List Part} {s : State} {o : Host.Outcome State Fault Refusal} (h : Runs W s o)
    (hl : partsNum l = W) : WritesOnly l s o := by
  obtain ⟨t, ho, hkeeps⟩ := h
  obtain ⟨hfixed, -, -, hparts⟩ := id hkeeps
  exact ⟨t, ho, hfixed, wf_of_keeps hkeeps, fun p hp => hparts p (hl ▸ testBit_partsNum hp)⟩

theorem fusedOf_of_fixedOf {s t : State} (h : fixedOf t = fixedOf s) : fusedOf t = fusedOf s := congrArg Prod.snd h

/-! ## One command, one step -/

/-- Every command completes and writes only the parts that `touched` lists for it: one case for each constructor. -/
theorem exec_writesOnly (i : Instr) (s : State) : WritesOnly (touched i) s (exec i s) :=
  match i with
  | .vinGood .. => writesOnly (execVinGood_keeps (hk := keeps_refl _ s) (hW := Nat.or_self _) ..) rfl
  | .vinLost .. => writesOnly (execVinLost_keeps (hk := keeps_refl _ s) (hW := Nat.or_self _) ..) rfl
  | .strapsSampled .. => writesOnly (execStrapsSampled_keeps (hk := keeps_refl _ s) (hW := Nat.or_self _) ..) rfl
  | .resetNRise .. => writesOnly (execResetNRise_keeps (hk := keeps_refl _ s) (hW := Nat.or_self _) ..) rfl
  | .startupStepComplete .. => writesOnly (execStartupStepComplete_keeps (hk := keeps_refl _ s) (hW := Nat.or_self _) ..) rfl
  | .startupStepTimeout .. => writesOnly (execStartupStepTimeout_keeps (hk := keeps_refl _ s) (hW := Nat.or_self _) ..) rfl
  | .flashReadTimeout .. => writesOnly (execFlashReadTimeout_keeps (hk := keeps_refl _ s) (hW := Nat.or_self _) ..) rfl
  | .trainingStepDone .. => writesOnly (execTrainingStepDone_keeps (hk := keeps_refl _ s) (hW := Nat.or_self _) ..) rfl
  | .trainingTimeout .. => writesOnly (execTrainingTimeout_keeps (hk := keeps_refl _ s) (hW := Nat.or_self _) ..) rfl
  | .fillComplete .. => writesOnly (execFillComplete_keeps (hk := keeps_refl _ s) (hW := Nat.or_self _) ..) rfl
  | .linkWaitExpiry => writesOnly (execLinkWaitExpiry_keeps (hk := keeps_refl _ s) (hW := Nat.or_self _) ..) rfl
  | .beatBoundary .. => writesOnly (execBeatBoundary_keeps (hk := keeps_refl _ s) (hW := Nat.or_self _) ..) rfl
  | .slewDone => writesOnly (execSlewDone_keeps (hk := keeps_refl _ s) (hW := Nat.or_self _) ..) rfl
  | .sensorRetire .. => writesOnly (execSensorRetire_keeps (hk := keeps_refl _ s) (hW := Nat.or_self _) ..) rfl
  | .commandStep .. => writesOnly (execCommandStep_keeps (hk := keeps_refl _ s) (hW := Nat.or_self _) ..) rfl
  | .fence .. => writesOnly (execFence_keeps (hk := keeps_refl _ s) (hW := Nat.or_self _) ..) rfl
  | .guardInterrupt => writesOnly (execGuardInterrupt_keeps (hk := keeps_refl _ s) (hW := Nat.or_self _) ..) rfl
  | .refclkLoss .. => writesOnly (execRefclkLoss_keeps (hk := keeps_refl _ s) (hW := Nat.or_self _) ..) rfl
  | .refclkRecovered .. => writesOnly (execRefclkRecovered_keeps (hk := keeps_refl _ s) (hW := Nat.or_self _) ..) rfl
  | .refPrefWrite .. => writesOnly (execRefPrefWrite_keeps (hk := keeps_refl _ s) (hW := Nat.or_self _) ..) rfl
  | .xtal32Loss .. => writesOnly (execXtal32Loss_keeps (hk := keeps_refl _ s) (hW := Nat.or_self _) ..) rfl
  | .thermalTrip .. => writesOnly (execThermalTrip_keeps (hk := keeps_refl _ s) (hW := Nat.or_self _) ..) rfl
  | .inputCurrentLimit .. => writesOnly (execInputCurrentLimit_keeps (hk := keeps_refl _ s) (hW := Nat.or_self _) ..) rfl
  | .thermalHalving .. => writesOnly (execThermalHalving_keeps (hk := keeps_refl _ s) (hW := Nat.or_self _) ..) rfl
  | .entropyHealthFail .. => writesOnly (execEntropyHealthFail_keeps (hk := keeps_refl _ s) (hW := Nat.or_self _) ..) rfl
  | .mainCoreLoad .. => writesOnly (execMainCoreLoad_keeps (hk := keeps_refl _ s) (hW := Nat.or_self _) ..) rfl
  | .mainCoreStore .. => writesOnly (execMainCoreStore_keeps (hk := keeps_refl _ s) (hW := Nat.or_self _) ..) rfl
  | .mainCoreAmo .. => writesOnly (execMainCoreAmo_keeps (hk := keeps_refl _ s) (hW := Nat.or_self _) ..) rfl
  | .controlWindowAccess .. => writesOnly (execControlWindowAccess_keeps (hk := keeps_refl _ s) (hW := Nat.or_self _) ..) rfl
  | .signalPageWrite .. => writesOnly (execSignalPageWrite_keeps (hk := keeps_refl _ s) (hW := Nat.or_self _) ..) rfl
  | .cboClean .. => writesOnly (execCboClean_keeps (hk := keeps_refl _ s) (hW := Nat.or_self _) ..) rfl
  | .cboFlush .. => writesOnly (execCboFlush_keeps (hk := keeps_refl _ s) (hW := Nat.or_self _) ..) rfl
  | .cboInval .. => writesOnly (execCboInval_keeps (hk := keeps_refl _ s) (hW := Nat.or_self _) ..) rfl
  | .cboZero .. => writesOnly (execCboZero_keeps (hk := keeps_refl _ s) (hW := Nat.or_self _) ..) rfl
  | .prefetchHint .. => writesOnly (execPrefetchHint_keeps (hk := keeps_refl _ s) (hW := Nat.or_self _) ..) rfl
  | .wrsSto .. => writesOnly (execWrsSto_keeps (hk := keeps_refl _ s) (hW := Nat.or_self _) ..) rfl
  | .wrsStoTimeout .. => writesOnly (execWrsStoTimeout_keeps (hk := keeps_refl _ s) (hW := Nat.or_self _) ..) rfl
  | .wrsNto .. => writesOnly (execWrsNto_keeps (hk := keeps_refl _ s) (hW := Nat.or_self _) ..) rfl
  | .seedRead .. => writesOnly (execSeedRead_keeps (hk := keeps_refl _ s) (hW := Nat.or_self _) ..) rfl
  | .contextKeyUpdate .. => writesOnly (execContextKeyUpdate_keeps (hk := keeps_refl _ s) (hW := Nat.or_self _) ..) rfl
  | .branchRetire .. => writesOnly (execBranchRetire_keeps (hk := keeps_refl _ s) (hW := Nat.or_self _) ..) rfl
  | .usefulHalving .. => writesOnly (execUsefulHalving_keeps (hk := keeps_refl _ s) (hW := Nat.or_self _) ..) rfl
  | .dzpredctlClear .. => writesOnly (execDzpredctlClear_keeps (hk := keeps_refl _ s) (hW := Nat.or_self _) ..) rfl
  | .dbypassSet .. => writesOnly (execDbypassSet_keeps (hk := keeps_refl _ s) (hW := Nat.or_self _) ..) rfl
  | .dbypassClear .. => writesOnly (execDbypassClear_keeps (hk := keeps_refl _ s) (hW := Nat.or_self _) ..) rfl
  | .ibypassSet .. => writesOnly (execIbypassSet_keeps (hk := keeps_refl _ s) (hW := Nat.or_self _) ..) rfl
  | .coreInterrupt .. => writesOnly (execCoreInterrupt_keeps (hk := keeps_refl _ s) (hW := Nat.or_self _) ..) rfl
  | .snoopInvalidation .. => writesOnly (execSnoopInvalidation_keeps (hk := keeps_refl _ s) (hW := Nat.or_self _) ..) rfl
  | .msiWrite .. => writesOnly (execMsiWrite_keeps (hk := keeps_refl _ s) (hW := Nat.or_self _) ..) rfl
  | .comparatorMismatch .. => writesOnly (execComparatorMismatch_keeps (hk := keeps_refl _ s) (hW := Nat.or_self _) ..) rfl
  | .coreArrayError .. => writesOnly (execCoreArrayError_keeps (hk := keeps_refl _ s) (hW := Nat.or_self _) ..) rfl
  | .captureComplete .. => writesOnly (execCaptureComplete_keeps (hk := keeps_refl _ s) (hW := Nat.or_self _) ..) rfl
  | .logicBistResult .. => writesOnly (execLogicBistResult_keeps (hk := keeps_refl _ s) (hW := Nat.or_self _) ..) rfl
  | .arrayMarchResult .. => writesOnly (execArrayMarchResult_keeps (hk := keeps_refl _ s) (hW := Nat.or_self _) ..) rfl
  | .survivorDrainDone .. => writesOnly (execSurvivorDrainDone_keeps (hk := keeps_refl _ s) (hW := Nat.or_self _) ..) rfl
  | .stateCopyDone .. => writesOnly (execStateCopyDone_keeps (hk := keeps_refl _ s) (hW := Nat.or_self _) ..) rfl
  | .hartResumeLibero .. => writesOnly (execHartResumeLibero_keeps (hk := keeps_refl _ s) (hW := Nat.or_self _) ..) rfl
  | .splitCoreError .. => writesOnly (execSplitCoreError_keeps (hk := keeps_refl _ s) (hW := Nat.or_self _) ..) rfl
  | .pairInjectB .. => writesOnly (execPairInjectB_keeps (hk := keeps_refl _ s) (hW := Nat.or_self _) ..) rfl
  | .pairModeWrite .. => writesOnly (execPairModeWrite_keeps (hk := keeps_refl _ s) (hW := Nat.or_self _) ..) rfl
  | .sliceRequest .. => writesOnly (execSliceRequest_keeps (hk := keeps_refl _ s) (hW := Nat.or_self _) ..) rfl
  | .sliceFill .. => writesOnly (execSliceFill_keeps (hk := keeps_refl _ s) (hW := Nat.or_self _) ..) rfl
  | .maintenanceAccept .. => writesOnly (execMaintenanceAccept_keeps (hk := keeps_refl _ s) (hW := Nat.or_self _) ..) rfl
  | .maintenanceComplete .. => writesOnly (execMaintenanceComplete_keeps (hk := keeps_refl _ s) (hW := Nat.or_self _) ..) rfl
  | .l2Eviction .. => writesOnly (execL2Eviction_keeps (hk := keeps_refl _ s) (hW := Nat.or_self _) ..) rfl
  | .sliceDrainWalkDone .. => writesOnly (execSliceDrainWalkDone_keeps (hk := keeps_refl _ s) (hW := Nat.or_self _) ..) rfl
  | .handoverComplete .. => writesOnly (execHandoverComplete_keeps (hk := keeps_refl _ s) (hW := Nat.or_self _) ..) rfl
  | .cachePreloadDone .. => writesOnly (execCachePreloadDone_keeps (hk := keeps_refl _ s) (hW := Nat.or_self _) ..) rfl
  | .llcInjectDataCe .. => writesOnly (execLlcInjectDataCe_keeps (hk := keeps_refl _ s) (hW := Nat.or_self _) ..) rfl
  | .llcInjectDataUe .. => writesOnly (execLlcInjectDataUe_keeps (hk := keeps_refl _ s) (hW := Nat.or_self _) ..) rfl
  | .llcInjectTagPar .. => writesOnly (execLlcInjectTagPar_keeps (hk := keeps_refl _ s) (hW := Nat.or_self _) ..) rfl
  | .dramRequest .. => writesOnly (execDramRequest_keeps (hk := keeps_refl _ s) (hW := Nat.or_self _) ..) rfl
  | .commandOpportunity .. => writesOnly (execCommandOpportunity_keeps (hk := keeps_refl _ s) (hW := Nat.or_self _) ..) rfl
  | .rowIdleClose .. => writesOnly (execRowIdleClose_keeps (hk := keeps_refl _ s) (hW := Nat.or_self _) ..) rfl
  | .rtPortRequest .. => writesOnly (execRtPortRequest_keeps (hk := keeps_refl _ s) (hW := Nat.or_self _) ..) rfl
  | .refreshOwed .. => writesOnly (execRefreshOwed_keeps (hk := keeps_refl _ s) (hW := Nat.or_self _) ..) rfl
  | .claimStart .. => writesOnly (execClaimStart_keeps (hk := keeps_refl _ s) (hW := Nat.or_self _) ..) rfl
  | .sealedSelection .. => writesOnly (execSealedSelection_keeps (hk := keeps_refl _ s) (hW := Nat.or_self _) ..) rfl
  | .mr4Reading .. => writesOnly (execMr4Reading_keeps (hk := keeps_refl _ s) (hW := Nat.or_self _) ..) rfl
  | .catchUpStart .. => writesOnly (execCatchUpStart_keeps (hk := keeps_refl _ s) (hW := Nat.or_self _) ..) rfl
  | .catchUpEnd .. => writesOnly (execCatchUpEnd_keeps (hk := keeps_refl _ s) (hW := Nat.or_self _) ..) rfl
  | .refreshRateReturn .. => writesOnly (execRefreshRateReturn_keeps (hk := keeps_refl _ s) (hW := Nat.or_self _) ..) rfl
  | .driftCheck .. => writesOnly (execDriftCheck_keeps (hk := keeps_refl _ s) (hW := Nat.or_self _) ..) rfl
  | .dramReadReturn .. => writesOnly (execDramReadReturn_keeps (hk := keeps_refl _ s) (hW := Nat.or_self _) ..) rfl
  | .flipExpiry .. => writesOnly (execFlipExpiry_keeps (hk := keeps_refl _ s) (hW := Nat.or_self _) ..) rfl
  | .ddr5Alert .. => writesOnly (execDdr5Alert_keeps (hk := keeps_refl _ s) (hW := Nat.or_self _) ..) rfl
  | .alertDeassertTimeout .. => writesOnly (execAlertDeassertTimeout_keeps (hk := keeps_refl _ s) (hW := Nat.or_self _) ..) rfl
  | .recoveryEnd .. => writesOnly (execRecoveryEnd_keeps (hk := keeps_refl _ s) (hW := Nat.or_self _) ..) rfl
  | .writeCrcWindowPass .. => writesOnly (execWriteCrcWindowPass_keeps (hk := keeps_refl _ s) (hW := Nat.or_self _) ..) rfl
  | .mcInjectCaParity .. => writesOnly (execMcInjectCaParity_keeps (hk := keeps_refl _ s) (hW := Nat.or_self _) ..) rfl
  | .mcInjectWcrc .. => writesOnly (execMcInjectWcrc_keeps (hk := keeps_refl _ s) (hW := Nat.or_self _) ..) rfl
  | .spareWindowClear .. => writesOnly (execSpareWindowClear_keeps (hk := keeps_refl _ s) (hW := Nat.or_self _) ..) rfl
  | .deviceSpare .. => writesOnly (execDeviceSpare_keeps (hk := keeps_refl _ s) (hW := Nat.or_self _) ..) rfl
  | .patrolLapEnd .. => writesOnly (execPatrolLapEnd_keeps (hk := keeps_refl _ s) (hW := Nat.or_self _) ..) rfl
  | .rangeScrubEnd => writesOnly (execRangeScrubEnd_keeps (hk := keeps_refl _ s) (hW := Nat.or_self _) ..) rfl
  | .softRepairDone .. => writesOnly (execSoftRepairDone_keeps (hk := keeps_refl _ s) (hW := Nat.or_self _) ..) rfl
  | .selfRefreshExit .. => writesOnly (execSelfRefreshExit_keeps (hk := keeps_refl _ s) (hW := Nat.or_self _) ..) rfl
  | .sealDrainsDone .. => writesOnly (execSealDrainsDone_keeps (hk := keeps_refl _ s) (hW := Nat.or_self _) ..) rfl
  | .unsealDrainDone .. => writesOnly (execUnsealDrainDone_keeps (hk := keeps_refl _ s) (hW := Nat.or_self _) ..) rfl
  | .closeKeyErase .. => writesOnly (execCloseKeyErase_keeps (hk := keeps_refl _ s) (hW := Nat.or_self _) ..) rfl
  | .rekeySweepDone .. => writesOnly (execRekeySweepDone_keeps (hk := keeps_refl _ s) (hW := Nat.or_self _) ..) rfl
  | .functionResetDone .. => writesOnly (execFunctionResetDone_keeps (hk := keeps_refl _ s) (hW := Nat.or_self _) ..) rfl
  | .linkStageDone .. => writesOnly (execLinkStageDone_keeps (hk := keeps_refl _ s) (hW := Nat.or_self _) ..) rfl
  | .linkStageTimeout .. => writesOnly (execLinkStageTimeout_keeps (hk := keeps_refl _ s) (hW := Nat.or_self _) ..) rfl
  | .linkRetryTimer .. => writesOnly (execLinkRetryTimer_keeps (hk := keeps_refl _ s) (hW := Nat.or_self _) ..) rfl
  | .linkRekey .. => writesOnly (execLinkRekey_keeps (hk := keeps_refl _ s) (hW := Nat.or_self _) ..) rfl
  | .keyingFlit .. => writesOnly (execKeyingFlit_keeps (hk := keeps_refl _ s) (hW := Nat.or_self _) ..) rfl
  | .flitReceived .. => writesOnly (execFlitReceived_keeps (hk := keeps_refl _ s) (hW := Nat.or_self _) ..) rfl
  | .nakReceived .. => writesOnly (execNakReceived_keeps (hk := keeps_refl _ s) (hW := Nat.or_self _) ..) rfl
  | .replayLimit .. => writesOnly (execReplayLimit_keeps (hk := keeps_refl _ s) (hW := Nat.or_self _) ..) rfl
  | .blockLockLoss .. => writesOnly (execBlockLockLoss_keeps (hk := keeps_refl _ s) (hW := Nat.or_self _) ..) rfl
  | .codewordTimeout .. => writesOnly (execCodewordTimeout_keeps (hk := keeps_refl _ s) (hW := Nat.or_self _) ..) rfl
  | .helloTimeout .. => writesOnly (execHelloTimeout_keeps (hk := keeps_refl _ s) (hW := Nat.or_self _) ..) rfl
  | .fabricLaneFailure .. => writesOnly (execFabricLaneFailure_keeps (hk := keeps_refl _ s) (hW := Nat.or_self _) ..) rfl
  | .fabricRetrainDone .. => writesOnly (execFabricRetrainDone_keeps (hk := keeps_refl _ s) (hW := Nat.or_self _) ..) rfl
  | .hello .. => writesOnly (execHello_keeps (hk := keeps_refl _ s) (hW := Nat.or_self _) ..) rfl
  | .captainSettle => writesOnly (execCaptainSettle_keeps (hk := keeps_refl _ s) (hW := Nat.or_self _) ..) rfl
  | .linkStateNotice .. => writesOnly (execLinkStateNotice_keeps (hk := keeps_refl _ s) (hW := Nat.or_self _) ..) rfl
  | .failureBankSwitch => writesOnly (execFailureBankSwitch_keeps (hk := keeps_refl _ s) (hW := Nat.or_self _) ..) rfl
  | .failureBankReady => writesOnly (execFailureBankReady_keeps (hk := keeps_refl _ s) (hW := Nat.or_self _) ..) rfl
  | .routeTablesComputed => writesOnly (execRouteTablesComputed_keeps (hk := keeps_refl _ s) (hW := Nat.or_self _) ..) rfl
  | .joinReport .. => writesOnly (execJoinReport_keeps (hk := keeps_refl _ s) (hW := Nat.or_self _) ..) rfl
  | .tables .. => writesOnly (execTables_keeps (hk := keeps_refl _ s) (hW := Nat.or_self _) ..) rfl
  | .tablesAck .. => writesOnly (execTablesAck_keeps (hk := keeps_refl _ s) (hW := Nat.or_self _) ..) rfl
  | .commit .. => writesOnly (execCommit_keeps (hk := keeps_refl _ s) (hW := Nat.or_self _) ..) rfl
  | .tableSwitch => writesOnly (execTableSwitch_keeps (hk := keeps_refl _ s) (hW := Nat.or_self _) ..) rfl
  | .epochGraceEnd => writesOnly (execEpochGraceEnd_keeps (hk := keeps_refl _ s) (hW := Nat.or_self _) ..) rfl
  | .sharePlace .. => writesOnly (execSharePlace_keeps (hk := keeps_refl _ s) (hW := Nat.or_self _) ..) rfl
  | .shareAck .. => writesOnly (execShareAck_keeps (hk := keeps_refl _ s) (hW := Nat.or_self _) ..) rfl
  | .sealQuery .. => writesOnly (execSealQuery_keeps (hk := keeps_refl _ s) (hW := Nat.or_self _) ..) rfl
  | .beatMarker .. => writesOnly (execBeatMarker_keeps (hk := keeps_refl _ s) (hW := Nat.or_self _) ..) rfl
  | .markerLoss => writesOnly (execMarkerLoss_keeps (hk := keeps_refl _ s) (hW := Nat.or_self _) ..) rfl
  | .captainUnreachable => writesOnly (execCaptainUnreachable_keeps (hk := keeps_refl _ s) (hW := Nat.or_self _) ..) rfl
  | .memberUnreachable .. => writesOnly (execMemberUnreachable_keeps (hk := keeps_refl _ s) (hW := Nat.or_self _) ..) rfl
  | .rdShared .. => writesOnly (execRdShared_keeps (hk := keeps_refl _ s) (hW := Nat.or_self _) ..) rfl
  | .rdOwn .. => writesOnly (execRdOwn_keeps (hk := keeps_refl _ s) (hW := Nat.or_self _) ..) rfl
  | .rdNc .. => writesOnly (execRdNc_keeps (hk := keeps_refl _ s) (hW := Nat.or_self _) ..) rfl
  | .wrNc .. => writesOnly (execWrNc_keeps (hk := keeps_refl _ s) (hW := Nat.or_self _) ..) rfl
  | .wrLine .. => writesOnly (execWrLine_keeps (hk := keeps_refl _ s) (hW := Nat.or_self _) ..) rfl
  | .evict .. => writesOnly (execEvict_keeps (hk := keeps_refl _ s) (hW := Nat.or_self _) ..) rfl
  | .maint .. => writesOnly (execMaint_keeps (hk := keeps_refl _ s) (hW := Nat.or_self _) ..) rfl
  | .atomic .. => writesOnly (execAtomic_keeps (hk := keeps_refl _ s) (hW := Nat.or_self _) ..) rfl
  | .snpInv .. => writesOnly (execSnpInv_keeps (hk := keeps_refl _ s) (hW := Nat.or_self _) ..) rfl
  | .snpShare .. => writesOnly (execSnpShare_keeps (hk := keeps_refl _ s) (hW := Nat.or_self _) ..) rfl
  | .ack .. => writesOnly (execAck_keeps (hk := keeps_refl _ s) (hW := Nat.or_self _) ..) rfl
  | .retry .. => writesOnly (execRetry_keeps (hk := keeps_refl _ s) (hW := Nat.or_self _) ..) rfl
  | .grant .. => writesOnly (execGrant_keeps (hk := keeps_refl _ s) (hW := Nat.or_self _) ..) rfl
  | .err .. => writesOnly (execErr_keeps (hk := keeps_refl _ s) (hW := Nat.or_self _) ..) rfl
  | .snpRsp .. => writesOnly (execSnpRsp_keeps (hk := keeps_refl _ s) (hW := Nat.or_self _) ..) rfl
  | .data .. => writesOnly (execData_keeps (hk := keeps_refl _ s) (hW := Nat.or_self _) ..) rfl
  | .poisonData .. => writesOnly (execPoisonData_keeps (hk := keeps_refl _ s) (hW := Nat.or_self _) ..) rfl
  | .snpData .. => writesOnly (execSnpData_keeps (hk := keeps_refl _ s) (hW := Nat.or_self _) ..) rfl
  | .requestResendTimeout .. => writesOnly (execRequestResendTimeout_keeps (hk := keeps_refl _ s) (hW := Nat.or_self _) ..) rfl
  | .snoopResendTimeout .. => writesOnly (execSnoopResendTimeout_keeps (hk := keeps_refl _ s) (hW := Nat.or_self _) ..) rfl
  | .requestErrorTimeout .. => writesOnly (execRequestErrorTimeout_keeps (hk := keeps_refl _ s) (hW := Nat.or_self _) ..) rfl
  | .serdesLaneFailure .. => writesOnly (execSerdesLaneFailure_keeps (hk := keeps_refl _ s) (hW := Nat.or_self _) ..) rfl
  | .portRetrainDone .. => writesOnly (execPortRetrainDone_keeps (hk := keeps_refl _ s) (hW := Nat.or_self _) ..) rfl
  | .portRetrainTimeout .. => writesOnly (execPortRetrainTimeout_keeps (hk := keeps_refl _ s) (hW := Nat.or_self _) ..) rfl
  | .serdesLinkUp .. => writesOnly (execSerdesLinkUp_keeps (hk := keeps_refl _ s) (hW := Nat.or_self _) ..) rfl
  | .serdesLinkDown .. => writesOnly (execSerdesLinkDown_keeps (hk := keeps_refl _ s) (hW := Nat.or_self _) ..) rfl
  | .portTrainRetry .. => writesOnly (execPortTrainRetry_keeps (hk := keeps_refl _ s) (hW := Nat.or_self _) ..) rfl
  | .serdesIngressRequest .. => writesOnly (execSerdesIngressRequest_keeps (hk := keeps_refl _ s) (hW := Nat.or_self _) ..) rfl
  | .rootPortCompletion .. => writesOnly (execRootPortCompletion_keeps (hk := keeps_refl _ s) (hW := Nat.or_self _) ..) rfl
  | .completionTimeout .. => writesOnly (execCompletionTimeout_keeps (hk := keeps_refl _ s) (hW := Nat.or_self _) ..) rfl
  | .ecamWrite .. => writesOnly (execEcamWrite_keeps (hk := keeps_refl _ s) (hW := Nat.or_self _) ..) rfl
  | .cxlMemDeviceRequest .. => writesOnly (execCxlMemDeviceRequest_keeps (hk := keeps_refl _ s) (hW := Nat.or_self _) ..) rfl
  | .identifyMemoryDevice .. => writesOnly (execIdentifyMemoryDevice_keeps (hk := keeps_refl _ s) (hW := Nat.or_self _) ..) rfl
  | .getHealthInfo .. => writesOnly (execGetHealthInfo_keeps (hk := keeps_refl _ s) (hW := Nat.or_self _) ..) rfl
  | .getEventRecords .. => writesOnly (execGetEventRecords_keeps (hk := keeps_refl _ s) (hW := Nat.or_self _) ..) rfl
  | .clearEventRecords .. => writesOnly (execClearEventRecords_keeps (hk := keeps_refl _ s) (hW := Nat.or_self _) ..) rfl
  | .getPoisonList .. => writesOnly (execGetPoisonList_keeps (hk := keeps_refl _ s) (hW := Nat.or_self _) ..) rfl
  | .getSupportedLogs .. => writesOnly (execGetSupportedLogs_keeps (hk := keeps_refl _ s) (hW := Nat.or_self _) ..) rfl
  | .getLog .. => writesOnly (execGetLog_keeps (hk := keeps_refl _ s) (hW := Nat.or_self _) ..) rfl
  | .setTimestamp .. => writesOnly (execSetTimestamp_keeps (hk := keeps_refl _ s) (hW := Nat.or_self _) ..) rfl
  | .cxlUnsupportedOpcode .. => writesOnly (execCxlUnsupportedOpcode_keeps (hk := keeps_refl _ s) (hW := Nat.or_self _) ..) rfl
  | .dmaEnable .. => writesOnly (execDmaEnable_keeps (hk := keeps_refl _ s) (hW := Nat.or_self _) ..) rfl
  | .dmaAbort .. => writesOnly (execDmaAbort_keeps (hk := keeps_refl _ s) (hW := Nat.or_self _) ..) rfl
  | .dmaAbortDone .. => writesOnly (execDmaAbortDone_keeps (hk := keeps_refl _ s) (hW := Nat.or_self _) ..) rfl
  | .dmaPauseSet .. => writesOnly (execDmaPauseSet_keeps (hk := keeps_refl _ s) (hW := Nat.or_self _) ..) rfl
  | .dmaPauseDone .. => writesOnly (execDmaPauseDone_keeps (hk := keeps_refl _ s) (hW := Nat.or_self _) ..) rfl
  | .dmaPauseClear .. => writesOnly (execDmaPauseClear_keeps (hk := keeps_refl _ s) (hW := Nat.or_self _) ..) rfl
  | .dmaStop .. => writesOnly (execDmaStop_keeps (hk := keeps_refl _ s) (hW := Nat.or_self _) ..) rfl
  | .dmaResumeRetry .. => writesOnly (execDmaResumeRetry_keeps (hk := keeps_refl _ s) (hW := Nat.or_self _) ..) rfl
  | .dmaResumeMarkBad .. => writesOnly (execDmaResumeMarkBad_keeps (hk := keeps_refl _ s) (hW := Nat.or_self _) ..) rfl
  | .dmaResumeDisable .. => writesOnly (execDmaResumeDisable_keeps (hk := keeps_refl _ s) (hW := Nat.or_self _) ..) rfl
  | .dmaTailWrite .. => writesOnly (execDmaTailWrite_keeps (hk := keeps_refl _ s) (hW := Nat.or_self _) ..) rfl
  | .descriptorFetched .. => writesOnly (execDescriptorFetched_keeps (hk := keeps_refl _ s) (hW := Nat.or_self _) ..) rfl
  | .dmaReadReturn .. => writesOnly (execDmaReadReturn_keeps (hk := keeps_refl _ s) (hW := Nat.or_self _) ..) rfl
  | .descriptorComplete .. => writesOnly (execDescriptorComplete_keeps (hk := keeps_refl _ s) (hW := Nat.or_self _) ..) rfl
  | .statusWriteAck .. => writesOnly (execStatusWriteAck_keeps (hk := keeps_refl _ s) (hW := Nat.or_self _) ..) rfl
  | .dmaBusError .. => writesOnly (execDmaBusError_keeps (hk := keeps_refl _ s) (hW := Nat.or_self _) ..) rfl
  | .dmaRingFault .. => writesOnly (execDmaRingFault_keeps (hk := keeps_refl _ s) (hW := Nat.or_self _) ..) rfl
  | .doorbell .. => writesOnly (execDoorbell_keeps (hk := keeps_refl _ s) (hW := Nat.or_self _) ..) rfl
  | .resultAck .. => writesOnly (execResultAck_keeps (hk := keeps_refl _ s) (hW := Nat.or_self _) ..) rfl
  | .noticeAck .. => writesOnly (execNoticeAck_keeps (hk := keeps_refl _ s) (hW := Nat.or_self _) ..) rfl
  | .mctpRequest .. => writesOnly (execMctpRequest_keeps (hk := keeps_refl _ s) (hW := Nat.or_self _) ..) rfl
  | .i3cTransferTimeout .. => writesOnly (execI3cTransferTimeout_keeps (hk := keeps_refl _ s) (hW := Nat.or_self _) ..) rfl
  | .clerkClaim .. => writesOnly (execClerkClaim_keeps (hk := keeps_refl _ s) (hW := Nat.or_self _) ..) rfl
  | .tokenPass => writesOnly (execTokenPass_keeps (hk := keeps_refl _ s) (hW := Nat.or_self _) ..) rfl
  | .bridgeLost => writesOnly (execBridgeLost_keeps (hk := keeps_refl _ s) (hW := Nat.or_self _) ..) rfl
  | .peerPowerLost => writesOnly (execPeerPowerLost_keeps (hk := keeps_refl _ s) (hW := Nat.or_self _) ..) rfl
  | .clerkSramUe .. => writesOnly (execClerkSramUe_keeps (hk := keeps_refl _ s) (hW := Nat.or_self _) ..) rfl
  | .clerkInterruptEntry .. => writesOnly (execClerkInterruptEntry_keeps (hk := keeps_refl _ s) (hW := Nat.or_self _) ..) rfl
  | .mgmtResponse .. => writesOnly (execMgmtResponse_keeps (hk := keeps_refl _ s) (hW := Nat.or_self _) ..) rfl
  | .mgmtTimeout .. => writesOnly (execMgmtTimeout_keeps (hk := keeps_refl _ s) (hW := Nat.or_self _) ..) rfl
  | .clerkIpiSend .. => writesOnly (execClerkIpiSend_keeps (hk := keeps_refl _ s) (hW := Nat.or_self _) ..) rfl
  | .sll .. => writesOnly (execSll_keeps (hk := keeps_refl _ s) (hW := Nat.or_self _) ..) rfl
  | .srl .. => writesOnly (execSrl_keeps (hk := keeps_refl _ s) (hW := Nat.or_self _) ..) rfl
  | .sra .. => writesOnly (execSra_keeps (hk := keeps_refl _ s) (hW := Nat.or_self _) ..) rfl
  | .sllv .. => writesOnly (execSllv_keeps (hk := keeps_refl _ s) (hW := Nat.or_self _) ..) rfl
  | .srlv .. => writesOnly (execSrlv_keeps (hk := keeps_refl _ s) (hW := Nat.or_self _) ..) rfl
  | .srav .. => writesOnly (execSrav_keeps (hk := keeps_refl _ s) (hW := Nat.or_self _) ..) rfl
  | .add .. => writesOnly (execAdd_keeps (hk := keeps_refl _ s) (hW := Nat.or_self _) ..) rfl
  | .sub .. => writesOnly (execSub_keeps (hk := keeps_refl _ s) (hW := Nat.or_self _) ..) rfl
  | .and .. => writesOnly (execAnd_keeps (hk := keeps_refl _ s) (hW := Nat.or_self _) ..) rfl
  | .or .. => writesOnly (execOr_keeps (hk := keeps_refl _ s) (hW := Nat.or_self _) ..) rfl
  | .xor .. => writesOnly (execXor_keeps (hk := keeps_refl _ s) (hW := Nat.or_self _) ..) rfl
  | .nor .. => writesOnly (execNor_keeps (hk := keeps_refl _ s) (hW := Nat.or_self _) ..) rfl
  | .slt .. => writesOnly (execSlt_keeps (hk := keeps_refl _ s) (hW := Nat.or_self _) ..) rfl
  | .sltu .. => writesOnly (execSltu_keeps (hk := keeps_refl _ s) (hW := Nat.or_self _) ..) rfl
  | .mul .. => writesOnly (execMul_keeps (hk := keeps_refl _ s) (hW := Nat.or_self _) ..) rfl
  | .mulh .. => writesOnly (execMulh_keeps (hk := keeps_refl _ s) (hW := Nat.or_self _) ..) rfl
  | .mulhu .. => writesOnly (execMulhu_keeps (hk := keeps_refl _ s) (hW := Nat.or_self _) ..) rfl
  | .clz .. => writesOnly (execClz_keeps (hk := keeps_refl _ s) (hW := Nat.or_self _) ..) rfl
  | .addi .. => writesOnly (execAddi_keeps (hk := keeps_refl _ s) (hW := Nat.or_self _) ..) rfl
  | .andi .. => writesOnly (execAndi_keeps (hk := keeps_refl _ s) (hW := Nat.or_self _) ..) rfl
  | .ori .. => writesOnly (execOri_keeps (hk := keeps_refl _ s) (hW := Nat.or_self _) ..) rfl
  | .xori .. => writesOnly (execXori_keeps (hk := keeps_refl _ s) (hW := Nat.or_self _) ..) rfl
  | .slti .. => writesOnly (execSlti_keeps (hk := keeps_refl _ s) (hW := Nat.or_self _) ..) rfl
  | .sltiu .. => writesOnly (execSltiu_keeps (hk := keeps_refl _ s) (hW := Nat.or_self _) ..) rfl
  | .lui .. => writesOnly (execLui_keeps (hk := keeps_refl _ s) (hW := Nat.or_self _) ..) rfl
  | .lw .. => writesOnly (execLw_keeps (hk := keeps_refl _ s) (hW := Nat.or_self _) ..) rfl
  | .lh .. => writesOnly (execLh_keeps (hk := keeps_refl _ s) (hW := Nat.or_self _) ..) rfl
  | .lhu .. => writesOnly (execLhu_keeps (hk := keeps_refl _ s) (hW := Nat.or_self _) ..) rfl
  | .lb .. => writesOnly (execLb_keeps (hk := keeps_refl _ s) (hW := Nat.or_self _) ..) rfl
  | .lbu .. => writesOnly (execLbu_keeps (hk := keeps_refl _ s) (hW := Nat.or_self _) ..) rfl
  | .sw .. => writesOnly (execSw_keeps (hk := keeps_refl _ s) (hW := Nat.or_self _) ..) rfl
  | .sh .. => writesOnly (execSh_keeps (hk := keeps_refl _ s) (hW := Nat.or_self _) ..) rfl
  | .sb .. => writesOnly (execSb_keeps (hk := keeps_refl _ s) (hW := Nat.or_self _) ..) rfl
  | .beq .. => writesOnly (execBeq_keeps (hk := keeps_refl _ s) (hW := Nat.or_self _) ..) rfl
  | .bne .. => writesOnly (execBne_keeps (hk := keeps_refl _ s) (hW := Nat.or_self _) ..) rfl
  | .blt .. => writesOnly (execBlt_keeps (hk := keeps_refl _ s) (hW := Nat.or_self _) ..) rfl
  | .bge .. => writesOnly (execBge_keeps (hk := keeps_refl _ s) (hW := Nat.or_self _) ..) rfl
  | .bltu .. => writesOnly (execBltu_keeps (hk := keeps_refl _ s) (hW := Nat.or_self _) ..) rfl
  | .bgeu .. => writesOnly (execBgeu_keeps (hk := keeps_refl _ s) (hW := Nat.or_self _) ..) rfl
  | .j .. => writesOnly (execJ_keeps (hk := keeps_refl _ s) (hW := Nat.or_self _) ..) rfl
  | .jal .. => writesOnly (execJal_keeps (hk := keeps_refl _ s) (hW := Nat.or_self _) ..) rfl
  | .jalr .. => writesOnly (execJalr_keeps (hk := keeps_refl _ s) (hW := Nat.or_self _) ..) rfl
  | .jalg .. => writesOnly (execJalg_keeps (hk := keeps_refl _ s) (hW := Nat.or_self _) ..) rfl
  | .mld .. => writesOnly (execMld_keeps (hk := keeps_refl _ s) (hW := Nat.or_self _) ..) rfl
  | .mst .. => writesOnly (execMst_keeps (hk := keeps_refl _ s) (hW := Nat.or_self _) ..) rfl
  | .mldd .. => writesOnly (execMldd_keeps (hk := keeps_refl _ s) (hW := Nat.or_self _) ..) rfl
  | .mstd .. => writesOnly (execMstd_keeps (hk := keeps_refl _ s) (hW := Nat.or_self _) ..) rfl
  | .wait .. => writesOnly (execWait_keeps (hk := keeps_refl _ s) (hW := Nat.or_self _) ..) rfl
  | .eret .. => writesOnly (execEret_keeps (hk := keeps_refl _ s) (hW := Nat.or_self _) ..) rfl
  | .msync .. => writesOnly (execMsync_keeps (hk := keeps_refl _ s) (hW := Nat.or_self _) ..) rfl
  | .checkin .. => writesOnly (execCheckin_keeps (hk := keeps_refl _ s) (hW := Nat.or_self _) ..) rfl
  | .trap .. => writesOnly (execTrap_keeps (hk := keeps_refl _ s) (hW := Nat.or_self _) ..) rfl
  | .gate .. => writesOnly (execGate_keeps (hk := keeps_refl _ s) (hW := Nat.or_self _) ..) rfl
  | .di .. => writesOnly (execDi_keeps (hk := keeps_refl _ s) (hW := Nat.or_self _) ..) rfl
  | .ei .. => writesOnly (execEi_keeps (hk := keeps_refl _ s) (hW := Nat.or_self _) ..) rfl
  | .assayerHang => writesOnly (execAssayerHang_keeps (hk := keeps_refl _ s) (hW := Nat.or_self _) ..) rfl
  | .holdLimit => writesOnly (execHoldLimit_keeps (hk := keeps_refl _ s) (hW := Nat.or_self _) ..) rfl
  | .standbyReady => writesOnly (execStandbyReady_keeps (hk := keeps_refl _ s) (hW := Nat.or_self _) ..) rfl
  | .standbyTimeout => writesOnly (execStandbyTimeout_keeps (hk := keeps_refl _ s) (hW := Nat.or_self _) ..) rfl
  | .debugTokenAccept => writesOnly (execDebugTokenAccept_keeps (hk := keeps_refl _ s) (hW := Nat.or_self _) ..) rfl
  | .zeroizeDone => writesOnly (execZeroizeDone_keeps (hk := keeps_refl _ s) (hW := Nat.or_self _) ..) rfl
  | .closeMarkerWritten .. => writesOnly (execCloseMarkerWritten_keeps (hk := keeps_refl _ s) (hW := Nat.or_self _) ..) rfl
  | .powerOff => writesOnly (execPowerOff_keeps (hk := keeps_refl _ s) (hW := Nat.or_self _) ..) rfl
  | .getVersion .. => writesOnly (execGetVersion_keeps (hk := keeps_refl _ s) (hW := Nat.or_self _) ..) rfl
  | .getCapabilities .. => writesOnly (execGetCapabilities_keeps (hk := keeps_refl _ s) (hW := Nat.or_self _) ..) rfl
  | .negotiateAlgorithms .. => writesOnly (execNegotiateAlgorithms_keeps (hk := keeps_refl _ s) (hW := Nat.or_self _) ..) rfl
  | .getDigests .. => writesOnly (execGetDigests_keeps (hk := keeps_refl _ s) (hW := Nat.or_self _) ..) rfl
  | .getCertificate .. => writesOnly (execGetCertificate_keeps (hk := keeps_refl _ s) (hW := Nat.or_self _) ..) rfl
  | .challenge .. => writesOnly (execChallenge_keeps (hk := keeps_refl _ s) (hW := Nat.or_self _) ..) rfl
  | .getMeasurements .. => writesOnly (execGetMeasurements_keeps (hk := keeps_refl _ s) (hW := Nat.or_self _) ..) rfl
  | .keyExchange .. => writesOnly (execKeyExchange_keeps (hk := keeps_refl _ s) (hW := Nat.or_self _) ..) rfl
  | .finish .. => writesOnly (execFinish_keeps (hk := keeps_refl _ s) (hW := Nat.or_self _) ..) rfl
  | .endSession .. => writesOnly (execEndSession_keeps (hk := keeps_refl _ s) (hW := Nat.or_self _) ..) rfl
  | .vendorDefinedRequest .. => writesOnly (execVendorDefinedRequest_keeps (hk := keeps_refl _ s) (hW := Nat.or_self _) ..) rfl
  | .idcode => writesOnly (execIdcode_keeps (hk := keeps_refl _ s) (hW := Nat.or_self _) ..) rfl
  | .samplePreload => writesOnly (execSamplePreload_keeps (hk := keeps_refl _ s) (hW := Nat.or_self _) ..) rfl
  | .extest => writesOnly (execExtest_keeps (hk := keeps_refl _ s) (hW := Nat.or_self _) ..) rfl
  | .clamp => writesOnly (execClamp_keeps (hk := keeps_refl _ s) (hW := Nat.or_self _) ..) rfl
  | .highz => writesOnly (execHighz_keeps (hk := keeps_refl _ s) (hW := Nat.or_self _) ..) rfl
  | .dzToken .. => writesOnly (execDzToken_keeps (hk := keeps_refl _ s) (hW := Nat.or_self _) ..) rfl
  | .dzMbx .. => writesOnly (execDzMbx_keeps (hk := keeps_refl _ s) (hW := Nat.or_self _) ..) rfl
  | .dzDebug => writesOnly (execDzDebug_keeps (hk := keeps_refl _ s) (hW := Nat.or_self _) ..) rfl
  | .dzAssayer => writesOnly (execDzAssayer_keeps (hk := keeps_refl _ s) (hW := Nat.or_self _) ..) rfl
  | .bypass => writesOnly (execBypass_keeps (hk := keeps_refl _ s) (hW := Nat.or_self _) ..) rfl
  | .drowseGateStart .. => writesOnly (execDrowseGateStart_keeps (hk := keeps_refl _ s) (hW := Nat.or_self _) ..) rfl
  | .drowseGateDone .. => writesOnly (execDrowseGateDone_keeps (hk := keeps_refl _ s) (hW := Nat.or_self _) ..) rfl
  | .gatedPairWake .. => writesOnly (execGatedPairWake_keeps (hk := keeps_refl _ s) (hW := Nat.or_self _) ..) rfl
  | .idleTimerExpiry => writesOnly (execIdleTimerExpiry_keeps (hk := keeps_refl _ s) (hW := Nat.or_self _) ..) rfl
  | .sleepRequest => writesOnly (execSleepRequest_keeps (hk := keeps_refl _ s) (hW := Nat.or_self _) ..) rfl
  | .dormantDrainsDone .. => writesOnly (execDormantDrainsDone_keeps (hk := keeps_refl _ s) (hW := Nat.or_self _) ..) rfl
  | .i3cWakeMatch .. => writesOnly (execI3cWakeMatch_keeps (hk := keeps_refl _ s) (hW := Nat.or_self _) ..) rfl
  | .wakeReferenceGood .. => writesOnly (execWakeReferenceGood_keeps (hk := keeps_refl _ s) (hW := Nat.or_self _) ..) rfl
  | .wakeComplete .. => writesOnly (execWakeComplete_keeps (hk := keeps_refl _ s) (hW := Nat.or_self _) ..) rfl
  | .pwrPadsRelease .. => writesOnly (execPwrPadsRelease_keeps (hk := keeps_refl _ s) (hW := Nat.or_self _) ..) rfl
  | .testEnd .. => writesOnly (execTestEnd_keeps (hk := keeps_refl _ s) (hW := Nat.or_self _) ..) rfl
  | .loopbackFollow .. => writesOnly (execLoopbackFollow_keeps (hk := keeps_refl _ s) (hW := Nat.or_self _) ..) rfl
  | .injectionExpiry .. => writesOnly (execInjectionExpiry_keeps (hk := keeps_refl _ s) (hW := Nat.or_self _) ..) rfl
  | .registerWrite .. => writesOnly (execRegisterWrite_keeps (hk := keeps_refl _ s) (hW := Nat.or_self _) ..) rfl
  | .inventoryList .. => writesOnly (execInventoryList_keeps (hk := keeps_refl _ s) (hW := Nat.or_self _) ..) rfl
  | .powerStatus .. => writesOnly (execPowerStatus_keeps (hk := keeps_refl _ s) (hW := Nat.or_self _) ..) rfl
  | .powerState .. => writesOnly (execPowerState_keeps (hk := keeps_refl _ s) (hW := Nat.or_self _) ..) rfl
  | .powerDomain .. => writesOnly (execPowerDomain_keeps (hk := keeps_refl _ s) (hW := Nat.or_self _) ..) rfl
  | .powerDormant .. => writesOnly (execPowerDormant_keeps (hk := keeps_refl _ s) (hW := Nat.or_self _) ..) rfl
  | .powerIdle .. => writesOnly (execPowerIdle_keeps (hk := keeps_refl _ s) (hW := Nat.or_self _) ..) rfl
  | .powerTdp .. => writesOnly (execPowerTdp_keeps (hk := keeps_refl _ s) (hW := Nat.or_self _) ..) rfl
  | .powerPads .. => writesOnly (execPowerPads_keeps (hk := keeps_refl _ s) (hW := Nat.or_self _) ..) rfl
  | .tenantCreate .. => writesOnly (execTenantCreate_keeps (hk := keeps_refl _ s) (hW := Nat.or_self _) ..) rfl
  | .tenantGrant .. => writesOnly (execTenantGrant_keeps (hk := keeps_refl _ s) (hW := Nat.or_self _) ..) rfl
  | .tenantAssign .. => writesOnly (execTenantAssign_keeps (hk := keeps_refl _ s) (hW := Nat.or_self _) ..) rfl
  | .tenantLoad .. => writesOnly (execTenantLoad_keeps (hk := keeps_refl _ s) (hW := Nat.or_self _) ..) rfl
  | .tenantSeal .. => writesOnly (execTenantSeal_keeps (hk := keeps_refl _ s) (hW := Nat.or_self _) ..) rfl
  | .tenantUnseal .. => writesOnly (execTenantUnseal_keeps (hk := keeps_refl _ s) (hW := Nat.or_self _) ..) rfl
  | .tenantRekey .. => writesOnly (execTenantRekey_keeps (hk := keeps_refl _ s) (hW := Nat.or_self _) ..) rfl
  | .tenantStart .. => writesOnly (execTenantStart_keeps (hk := keeps_refl _ s) (hW := Nat.or_self _) ..) rfl
  | .tenantClose .. => writesOnly (execTenantClose_keeps (hk := keeps_refl _ s) (hW := Nat.or_self _) ..) rfl
  | .tenantStatus .. => writesOnly (execTenantStatus_keeps (hk := keeps_refl _ s) (hW := Nat.or_self _) ..) rfl
  | .coreMode .. => writesOnly (execCoreMode_keeps (hk := keeps_refl _ s) (hW := Nat.or_self _) ..) rfl
  | .coreStart .. => writesOnly (execCoreStart_keeps (hk := keeps_refl _ s) (hW := Nat.or_self _) ..) rfl
  | .corePark .. => writesOnly (execCorePark_keeps (hk := keeps_refl _ s) (hW := Nat.or_self _) ..) rfl
  | .coreStatus .. => writesOnly (execCoreStatus_keeps (hk := keeps_refl _ s) (hW := Nat.or_self _) ..) rfl
  | .coreRequalify .. => writesOnly (execCoreRequalify_keeps (hk := keeps_refl _ s) (hW := Nat.or_self _) ..) rfl
  | .corePolicy .. => writesOnly (execCorePolicy_keeps (hk := keeps_refl _ s) (hW := Nat.or_self _) ..) rfl
  | .memStatus .. => writesOnly (execMemStatus_keeps (hk := keeps_refl _ s) (hW := Nat.or_self _) ..) rfl
  | .memScrub .. => writesOnly (execMemScrub_keeps (hk := keeps_refl _ s) (hW := Nat.or_self _) ..) rfl
  | .memClear .. => writesOnly (execMemClear_keeps (hk := keeps_refl _ s) (hW := Nat.or_self _) ..) rfl
  | .memRepair .. => writesOnly (execMemRepair_keeps (hk := keeps_refl _ s) (hW := Nat.or_self _) ..) rfl
  | .memSpare .. => writesOnly (execMemSpare_keeps (hk := keeps_refl _ s) (hW := Nat.or_self _) ..) rfl
  | .memFlip .. => writesOnly (execMemFlip_keeps (hk := keeps_refl _ s) (hW := Nat.or_self _) ..) rfl
  | .cacheLock .. => writesOnly (execCacheLock_keeps (hk := keeps_refl _ s) (hW := Nat.or_self _) ..) rfl
  | .cacheUnlock .. => writesOnly (execCacheUnlock_keeps (hk := keeps_refl _ s) (hW := Nat.or_self _) ..) rfl
  | .cacheSlice .. => writesOnly (execCacheSlice_keeps (hk := keeps_refl _ s) (hW := Nat.or_self _) ..) rfl
  | .cacheStatus .. => writesOnly (execCacheStatus_keeps (hk := keeps_refl _ s) (hW := Nat.or_self _) ..) rfl
  | .fabricStatus .. => writesOnly (execFabricStatus_keeps (hk := keeps_refl _ s) (hW := Nat.or_self _) ..) rfl
  | .fabricRoute .. => writesOnly (execFabricRoute_keeps (hk := keeps_refl _ s) (hW := Nat.or_self _) ..) rfl
  | .fabricPort .. => writesOnly (execFabricPort_keeps (hk := keeps_refl _ s) (hW := Nat.or_self _) ..) rfl
  | .fabricGrant .. => writesOnly (execFabricGrant_keeps (hk := keeps_refl _ s) (hW := Nat.or_self _) ..) rfl
  | .fabricShare .. => writesOnly (execFabricShare_keeps (hk := keeps_refl _ s) (hW := Nat.or_self _) ..) rfl
  | .portStatus .. => writesOnly (execPortStatus_keeps (hk := keeps_refl _ s) (hW := Nat.or_self _) ..) rfl
  | .portConfig .. => writesOnly (execPortConfig_keeps (hk := keeps_refl _ s) (hW := Nat.or_self _) ..) rfl
  | .portAssign .. => writesOnly (execPortAssign_keeps (hk := keeps_refl _ s) (hW := Nat.or_self _) ..) rfl
  | .portEp .. => writesOnly (execPortEp_keeps (hk := keeps_refl _ s) (hW := Nat.or_self _) ..) rfl
  | .portCxlgrant .. => writesOnly (execPortCxlgrant_keeps (hk := keeps_refl _ s) (hW := Nat.or_self _) ..) rfl
  | .dmaAssign .. => writesOnly (execDmaAssign_keeps (hk := keeps_refl _ s) (hW := Nat.or_self _) ..) rfl
  | .dmaStatus .. => writesOnly (execDmaStatus_keeps (hk := keeps_refl _ s) (hW := Nat.or_self _) ..) rfl
  | .rasRead .. => writesOnly (execRasRead_keeps (hk := keeps_refl _ s) (hW := Nat.or_self _) ..) rfl
  | .timeGet .. => writesOnly (execTimeGet_keeps (hk := keeps_refl _ s) (hW := Nat.or_self _) ..) rfl
  | .timeSet .. => writesOnly (execTimeSet_keeps (hk := keeps_refl _ s) (hW := Nat.or_self _) ..) rfl
  | .daybookStatus .. => writesOnly (execDaybookStatus_keeps (hk := keeps_refl _ s) (hW := Nat.or_self _) ..) rfl
  | .daybookRead .. => writesOnly (execDaybookRead_keeps (hk := keeps_refl _ s) (hW := Nat.or_self _) ..) rfl
  | .daybookAttest .. => writesOnly (execDaybookAttest_keeps (hk := keeps_refl _ s) (hW := Nat.or_self _) ..) rfl
  | .testLoopback .. => writesOnly (execTestLoopback_keeps (hk := keeps_refl _ s) (hW := Nat.or_self _) ..) rfl
  | .testBist .. => writesOnly (execTestBist_keeps (hk := keeps_refl _ s) (hW := Nat.or_self _) ..) rfl
  | .testInject .. => writesOnly (execTestInject_keeps (hk := keeps_refl _ s) (hW := Nat.or_self _) ..) rfl
  | .testStatus .. => writesOnly (execTestStatus_keeps (hk := keeps_refl _ s) (hW := Nat.or_self _) ..) rfl
  | .mainCoreWfi .. => writesOnly (execMainCoreWfi_keeps (hk := keeps_refl _ s) (hW := Nat.or_self _) ..) rfl
  | .cxlMemResponse .. => writesOnly (execCxlMemResponse_keeps (hk := keeps_refl _ s) (hW := Nat.or_self _) ..) rfl
  | .loopbackRequestStop .. => writesOnly (execLoopbackRequestStop_keeps (hk := keeps_refl _ s) (hW := Nat.or_self _) ..) rfl
  | .perstInput .. => writesOnly (execPerstInput_keeps (hk := keeps_refl _ s) (hW := Nat.or_self _) ..) rfl

/-- A reference cycle writes registers, the time record and harts. -/
theorem refCycle_writesOnly (s : State) : WritesOnly [.regs, .time, .harts] s (.next (refCycle s)) :=
  writesOnly ⟨_, rfl, refCycle_keeps s (keeps_refl _ s) (Nat.or_self _)⟩ rfl

theorem step_of_pending_nil {s : State} (h : s.pending = []) : step s = .next (refCycle s) := by simp [step, h]

theorem step_of_pending_cons {s : State} {i : Instr} {rest : List Instr} (h : s.pending = i :: rest) :
    step s = exec i { s with pending := rest } := by simp [step, h]

/-- A step answers a state with the fuses and the canonical forms of the state before. -/
theorem step_keeps {s t : State} (h : step s = .next t) :
    fusedOf t = fusedOf s ∧ (Memory.wf s = true → Memory.wf t = true) := by
  cases hpend : s.pending with
  | nil =>
    obtain ⟨u, hu, hfixed, hwf, -⟩ := refCycle_writesOnly s
    rw [step_of_pending_nil hpend, hu, Host.Outcome.next.injEq] at h
    subst h
    exact ⟨fusedOf_of_fixedOf hfixed, hwf⟩
  | cons i rest =>
    obtain ⟨u, hu, hfixed, hwf, -⟩ := exec_writesOnly i { s with pending := rest }
    rw [step_of_pending_cons hpend, hu, Host.Outcome.next.injEq] at h
    subst h
    exact ⟨congrArg Prod.snd hfixed, hwf⟩

/-- Settles O2: each constructor's meaning writes within `touched`. -/
theorem commandsCompleteWithinTheirParts : Obligations.CommandsCompleteWithinTheirParts := by
  intro i s
  obtain ⟨t, ht, hfixed, -, hparts⟩ := exec_writesOnly i s
  exact ⟨t, ht, congrArg Prod.fst hfixed, fusedOf_of_fixedOf hfixed, hparts⟩

/-- Settles O3: every command and the idle reference cycle keep the canonical forms. -/
theorem stepKeepsStoredTables : Obligations.StepKeepsStoredTables := fun _ _ hwf h => (step_keeps h).2 hwf

/-- Settles O4: no command and no reference cycle writes a fuse. -/
theorem stepKeepsFuses : Obligations.StepKeepsFuses := fun _ _ h => (step_keeps h).1

/-! ## The idle step (R45; log entry 1) -/

theorem refCycle_of_idle {s : State} (h : beatRuns s = false ∨ s.time.started = false ∨ beatGain s ≤ s.time.sub + 10) :
    refCycle s = s := by
  refine if_neg fun ⟨hrun, hstart, hgain⟩ => ?_
  rcases h with h | h | h
  · simp [h] at hrun
  · simp [h] at hstart
  · omega

theorem SameClk.setHart {s t : State} (h : SameClk s t) (n : Nat) (r : Hart) : SameClk s (setHart n r t) := h.of_eq rfl rfl

theorem SameClk.judgeIdle {s t : State} (h : SameClk s t) : SameClk s (judgeIdle t) := by
  have hout : ¬inClk pwrStatusPkgState := by decide
  unfold Machine.judgeIdle
  split
  · exact h.wr hout 1
  · split
    · exact h.wr hout 0
    · exact h

theorem SameClk.wakeHart {s t : State} (h : SameClk s t) (n : Nat) : SameClk s (wakeHart n t) := by
  unfold Machine.wakeHart
  split
  · exact (h.setHart n _).judgeIdle
  · exact h

/-- Timers that are raised write no CLK_ register. -/
theorem timers_sameClk (s : State) : SameClk s (timers s) := by
  refine (SameClk.refl s).foldl fun t ht e _ => ?_
  split
  · exact (ht.setHart e.1 _).wakeHart e.1
  · exact (ht.setHart e.1 _).wakeHart e.1
  · exact ht

theorem refCycle_of_running {s : State} (hrun : beatRuns s = true) (hstart : s.time.started = true)
    (hgain : s.time.sub + 10 < beatGain s) :
    refCycle s = timers (wr clkTimeTimeNs (now s + 10) (setTime { s.time with sub := s.time.sub + 10 } s)) :=
  if_pos ⟨hrun, hstart, hgain⟩

/-- Settles O1: `step` takes the queue's front, and the idle reference cycle writes CLK_TIME and what the timers wake. -/
theorem stepRunsTheFrontCommand : Obligations.StepRunsTheFrontCommand := by
  intro s
  refine ⟨fun i rest => step_of_pending_cons, step_of_pending_nil, fun hpend hidle => ?_,
    fun hpend hrun hstart hgain hnow => ?_⟩
  · rw [step_of_pending_nil hpend, refCycle_of_idle hidle]
  · obtain ⟨t, ht, hfixed, -, hparts⟩ := refCycle_writesOnly s
    obtain ⟨-, hclk⟩ := timers_sameClk (wr clkTimeTimeNs (now s + 10) (setTime { s.time with sub := s.time.sub + 10 } s))
    have hcycle : t = timers _ := (Host.Outcome.next.inj ht).symm.trans (refCycle_of_running hrun hstart hgain)
    refine ⟨t, (step_of_pending_nil hpend).trans ht, ?_, ?_, (congrArg Prod.fst hfixed).trans hpend,
      hparts .mem (by decide), hparts .slices (by decide), hparts .outs (by decide)⟩
    · rw [hcycle]
      exact (hclk clkTimeTimeNs (by decide)).trans ((now_wr_clkTimeTimeNs _ _).trans (Nat.mod_eq_of_lt hnow))
    · rw [hcycle]
      exact (hclk clkBeatBeat (by decide)).trans (beat_wr_ne (by decide) _ _)

/-- Settles O5: the register file at reset lists no exception to the reset values. -/
theorem resetRegistersReadTheirResetValues : Obligations.ResetRegistersReadTheirResetValues :=
  ⟨rfl, rd_reset, rfl⟩

end Sys2Proof.Machine
end

section
/-! Start-up (R373 to R384, R447): what the end and the timeout of each step make of the boot record, of the token and of what is
due. -/
set_option Elab.async false
namespace Sys2Proof.Machine

/-! ## What an operation leaves alone -/

/-- A part outside the set that an operation writes is as it was. -/
theorem Keeps.part {W : Nat} {s t : State} (h : Keeps W s t) (p : Part) (hp : W.testBit p.num = false) : samePart p s t := by
  obtain ⟨-, -, -, hparts⟩ := h
  exact hparts p hp

/-- What every step of a fold leaves alone, the fold leaves alone. -/
theorem foldl_fixes {α β : Type} (g : State → β) {f : State → α → State} (hf : ∀ y a, g (f y a) = g y) (l : List α)
    (s : State) : g (l.foldl f s) = g s :=
  List.foldlRecOn (motive := fun y => g y = g s) l f rfl fun y hy a _ => (hf y a).trans hy

/-- Events enter the journal of the boot record and leave its progress alone. -/
structure SameProgress (b c : Boot) : Prop where
  step : c.step = b.step
  stopped : c.stopped = b.stopped
  hold : c.hold = b.hold
  headOk : c.headOk = b.headOk

theorem SameProgress.refl (b : Boot) : SameProgress b b := ⟨rfl, rfl, rfl, rfl⟩

theorem event_progress (kind : Nat) (detail : List Nat) (s : State) : SameProgress s.boot (event kind detail s).boot := by
  simp only [event]
  split <;> exact ⟨rfl, rfl, rfl, rfl⟩

theorem SameProgress.event {b : Boot} {s : State} (h : SameProgress b s.boot) (kind : Nat) (detail : List Nat) :
    SameProgress b (event kind detail s).boot := by
  obtain ⟨hstep, hstopped, hhold, hhead⟩ := event_progress kind detail s
  exact ⟨hstep.trans h.step, hstopped.trans h.stopped, hhold.trans h.hold, hhead.trans h.headOk⟩

theorem event_toss (kind : Nat) (detail : List Nat) (s : State) : (event kind detail s).toss = s.toss := by
  simp only [event]
  split <;> rfl

/-! ## The boot record at the end of a step -/

theorem boot_setStep (n ms : Nat) (s : State) :
    (setStep n ms s).boot = { s.boot with step := n, elapsed := min (2 ^ 32 - 1) ms } := rfl

theorem elapsed_setStep {n ms : Nat} (h : ms < 2 ^ 32) (s : State) : (setStep n ms s).boot.elapsed = ms := by
  rw [boot_setStep]
  exact Nat.min_eq_right (by omega)

theorem stopped_bootStop (code : Nat) (s : State) :
    (bootStop code s).boot.stopped = true ∧ (bootStop code s).boot.code = code := ⟨rfl, rfl⟩

theorem stopped_of_starting {s : State} (h : starting s = true) : s.boot.stopped = false := by
  simp only [starting, Bool.and_eq_true, Bool.not_eq_true'] at h
  obtain ⟨⟨-, hstopped⟩, -⟩ := h
  exact hstopped

theorem exec_startupStepComplete (ms : Nat) (r : StartRep) (s : State) :
    exec (.startupStepComplete ms r) s = .next (stepComplete ms r s) := rfl

/-! ## Steps 1 and 2 -/

/-- Step 1 writes power registers only before it ends. -/
theorem upStep_boot (ms : Nat) (s : State) : ∃ y : State, y.boot = s.boot ∧
    upStep ms s = if s.chip.resetN then setStep 2 ms y else modBoot (fun b => { b with upDone := true }) y := by
  refine ⟨_, ?_, rfl⟩
  refine (foldl_fixes State.boot (fun a d => ?_) _ _).trans (foldl_fixes State.boot (fun a d => ?_) _ s)
  · exact (setDomain_keeps d true a (keeps_refl _ a) (Nat.or_self _)).part .boot rfl
  · rfl

theorem toss_giveToken (t : Nat) (s : State) : (giveToken t s).toss.holder = some t :=
  congrArg Toss.holder (foldl_fixes State.toss (fun _ _ => rfl) clerkCores _)

/-- A self-check that passes: the token is with the preferred complex, and step 3 begins (R310, Table 12.11). -/
theorem fuseStep_of_pass {ms : Nat} {passN passS : Bool} {s : State}
    (hpass : (if s.chip.tossPref % 2 = 0 then passN else passS) = true) :
    ∃ y : State, fuseStep ms 0 passN passS s = setStep 3 ms y ∧ y.toss.holder = some (s.chip.tossPref % 2) := by
  refine ⟨_, by simp only [fuseStep, hpass, if_true]; rfl, ?_⟩
  rw [foldl_fixes State.toss (f := fun a d => addDue (beat s + 1) 4 (.switch d true) a) (fun _ _ => rfl)]
  exact toss_giveToken _ _

/-- A step 2 that fails stops with its code of Table 14.6. -/
theorem fuseStep_fails (ms code : Nat) (passN passS : Bool) (s : State) :
    (code = 1 → (fuseStep ms code passN passS s).boot.stopped = true ∧ (fuseStep ms code passN passS s).boot.code = 0x21) ∧
    (code = 2 → (fuseStep ms code passN passS s).boot.stopped = true ∧ (fuseStep ms code passN passS s).boot.code = 0x22) ∧
    (code = 0 → passN = false → passS = false →
      (fuseStep ms code passN passS s).boot.stopped = true ∧ (fuseStep ms code passN passS s).boot.code = 0x23) := by
  refine ⟨?_, ?_, ?_⟩
  · rintro rfl
    exact stopped_bootStop 0x21 s
  · rintro rfl
    exact stopped_bootStop 0x22 s
  · rintro rfl rfl rfl
    simp only [fuseStep, ite_self]
    exact stopped_bootStop 0x23 _

/-! ## Step 3 -/

theorem foldl_event_progress (l : List Nat) (s : State) :
    SameProgress s.boot (l.foldl (fun a k => event 13 [k] a) s).boot :=
  List.foldlRecOn (motive := fun y : State => SameProgress s.boot y.boot) l _ (.refl _) fun _ hy k _ => hy.event 13 [k]

/-- An image without a debug token that loads finds the head, and neither stops nor holds start-up. -/
theorem loadImage_progress {f : Nat} {img : Image} (htoken : img.token = none) (bad : List Nat) (s : State) :
    SameProgress { s.boot with headOk := true } (loadImage f img bad s).boot := by
  have hclk : ∀ (l : List Nat) (m : Table Nat) (y : State),
      (l.foldl (fun a c => modClk c (fun r => { r with sram := m }) a) y).boot = y.boot := fun l m y => by
    refine foldl_fixes State.boot (fun _ _ => ?_) l y
    rfl
  simp only [loadImage, htoken]
  have hkeys := foldl_event_progress (boardIn s img.board).2
    (modAssayer (fun a => { a with tile := some (s.toss.holder.getD 0), aliasUp := true }) (releaseCore (8 + s.toss.holder.getD 0)
      (clerkCores.foldl (fun a c => modClk c (fun r => { r with sram := sramOf img.clerkFw }) a)
        ([8, 9].foldl (fun a c => modClk c (fun r => { r with sram := sramOf img.asFw }) a)
          (modBoot (fun b => { b with
            flash := f, image := img, board := (boardIn s img.board).1, headOk := true
            head := (findHead s.boot bad).map fun r => (r.counter, Config.sha384 r.bytes)
            counter := ((findHead s.boot bad).map fun r => r.counter + 1).getD 1 }) s)))))
  obtain ⟨hstep, hstopped, hhold, hhead⟩ := hkeys
  have hboot : ∀ (y : State) (n : Nat) (g : Assayer → Assayer), (modAssayer g (releaseCore n y)).boot = y.boot :=
    fun _ _ _ => rfl
  rw [hboot, hclk, hclk] at hstep hstopped hhold hhead
  exact ⟨hstep, hstopped, hhold, hhead⟩

/-- Step 4 begins: the units and the training of the channels leave the boot record alone. -/
theorem boot_beginTraining (ms : Nat) (s : State) : (beginTraining ms s).boot = (setStep 4 ms s).boot := by
  have hboard : ∀ y : State, (applyBoard s.boot.board y).boot = y.boot := fun y =>
    (applyBoard_keeps _ y (keeps_refl _ y) (Nat.or_self _)).part .boot rfl
  have hunits : ∀ y : State, (initUnits y).boot = y.boot := fun y =>
    (initUnits_keeps y (keeps_refl _ y) (Nat.or_self _)).part .boot rfl
  refine (foldl_fixes State.boot (fun a c => ?_) _ _).trans
    ((foldl_fixes State.boot (fun a c => ?_) _ _).trans ((hunits _).trans (hboard _)))
  · exact (startTraining_keeps c 1 a (keeps_refl _ a) (Nat.or_self _)).part .boot rfl
  · rfl

/-- Step 3 ends with an image of flash A that passes every check (R374). -/
theorem imageStep_of_pass {ms : Nat} {a b : FlashRep} {bad : List Nat} {s : State} (hhead : s.boot.headOk = false)
    (hhold : s.boot.hold = false) (hstopped : s.boot.stopped = false) (htoken : a.image.token = none)
    (ha : imageCheck s a = 0) :
    (imageStep ms a b bad true s).boot.step = 4 ∧ (imageStep ms a b bad true s).boot.elapsed = min (2 ^ 32 - 1) ms ∧
      (imageStep ms a b bad true s).boot.headOk = true := by
  have himage : imageStep ms a b bad true s = beginTraining ms (loadImage 0 a.image bad
      (modBoot (fun x => { x with readA := true }) s)) := by
    obtain ⟨-, hstop, hheld, -⟩ := loadImage_progress (f := 0) htoken bad (modBoot (fun x => { x with readA := true }) s)
    have hno : (loadImage 0 a.image bad (modBoot (fun x => { x with readA := true }) s)).boot.stopped = false :=
      hstop.trans hstopped
    have hgo : (loadImage 0 a.image bad (modBoot (fun x => { x with readA := true }) s)).boot.hold = false :=
      hheld.trans hhold
    simp only [imageStep, hhead, ha]
    simp [hno, hgo]
  obtain ⟨-, -, -, hfound⟩ := loadImage_progress (f := 0) htoken bad (modBoot (fun x => { x with readA := true }) s)
  rw [himage, boot_beginTraining]
  exact ⟨rfl, rfl, hfound⟩

/-- Step 3 stops where neither flash passes (Table 14.6). -/
theorem imageStep_of_fail {ms : Nat} {a b : FlashRep} {bad : List Nat} {loaded : Bool} {s : State}
    (hhead : s.boot.headOk = false) (ha : imageCheck s a ≠ 0) (hb : imageCheck s b ≠ 0) :
    (imageStep ms a b bad loaded s).boot.stopped = true ∧
      (imageStep ms a b bad loaded s).boot.code = 0x38 + imageCheck s b := by
  simp [imageStep, hhead, ha, hb, bootStop, bootFail, modBoot]

/-! ## Steps 5 to 8 -/

theorem rd_fabState_beginFabric (ms : Nat) (s : State) : rd (beginFabric ms s) fabStateState = 2 :=
  rd_wr_same fabStateState 2 _

theorem releaseStep_of_digest (ms : Nat) (s : State) : (releaseStep ms true [] s).boot.step = 9 ∧
    ∃ pc opq, (⟨beat s + 1, 5, .startHart 0 pc opq⟩ : Due) ∈ (releaseStep ms true [] s).due := by
  refine ⟨?_, _, _, List.mem_append_right _ (List.mem_singleton_self _)⟩
  exact congrArg Boot.step ((writeBytes_keeps 0 0 _ _ 0 _ (keeps_refl _ _) (Nat.or_self _)).part .boot rfl)

/-- Settles O7: a step that ends well ends in `setStep` of the next one, and a failure in `bootStop` with its code. -/
theorem startupStepsFollowInOrder : Obligations.StartupStepsFollowInOrder := by
  intro s ms hstart hms
  have hrun : ∀ (r : StartRep) (y : State), stepComplete ms r s = y → exec (.startupStepComplete ms r) s = .next y :=
    fun r y h => congrArg Host.Outcome.next h
  refine ⟨fun hstep hup hlow => ?_, fun hstep hup hlow => ?_, fun passN passS hstep hpass => ?_,
    fun code passN passS hstep => ?_, fun a b bad hstep hhead hhold htoken ha => ?_,
    fun a b bad loaded hstep hhead ha hb => ?_, fun hstep hdone hmap => ?_, fun hstep hdone hmap => ?_,
    fun hstep hfill hready => ?_, fun hstep hfill hready => ?_, fun hstep hset => ?_, fun okA okB hstep hok => ?_,
    fun hstep hreq => ?_, fun hstep => ?_, fun rejected hstep => ?_⟩
  · obtain ⟨y, -, hy⟩ := upStep_boot ms s
    refine ⟨setStep 2 ms y, hrun _ _ ?_, rfl, elapsed_setStep hms y⟩
    simp [stepComplete, hstart, hstep, hup, hy, hlow]
  · obtain ⟨y, hboot, hy⟩ := upStep_boot ms s
    refine ⟨modBoot (fun b => { b with upDone := true }) y, hrun _ _ ?_, (congrArg Boot.step hboot).trans hstep, rfl⟩
    simp [stepComplete, hstart, hstep, hup, hy, hlow]
  · obtain ⟨y, hy, htoss⟩ := fuseStep_of_pass (ms := ms) hpass
    exact ⟨setStep 3 ms y, hrun _ _ (by simp [stepComplete, hstart, hstep, hy]), rfl, elapsed_setStep hms y, htoss⟩
  · exact ⟨_, hrun _ _ (by simp only [stepComplete, hstart, hstep]; rfl), fuseStep_fails ms code passN passS s⟩
  · obtain ⟨hnext, helapsed, hfound⟩ := imageStep_of_pass (ms := ms) (b := b) (bad := bad) hhead hhold
      (stopped_of_starting hstart) htoken ha
    exact ⟨_, hrun _ _ (by simp only [stepComplete, hstart, hstep]; rfl), hnext,
      helapsed.trans (Nat.min_eq_right (by omega)), hfound⟩
  · exact ⟨_, hrun _ _ (by simp only [stepComplete, hstart, hstep]; rfl), imageStep_of_fail hhead ha hb⟩
  · exact ⟨setStep 5 ms (buildMap s), hrun _ _ (by simp [stepComplete, hstart, hstep, trainedStep, hdone, hmap]), rfl,
      elapsed_setStep hms _⟩
  · exact ⟨bootStop 0x40 s, hrun _ _ (by simp [stepComplete, hstart, hstep, trainedStep, hdone, hmap]), rfl, rfl⟩
  · refine ⟨beginFabric ms s, hrun _ _ ?_, rfl, elapsed_setStep hms _, rd_fabState_beginFabric ms s⟩
    obtain ⟨c, hc, hstate⟩ := hready
    have hany : ¬∀ x ∈ mapChans s, ¬rd s (mcStatusState x) = 3 := fun h => h c hc hstate
    simp [stepComplete, hstart, hstep, filledStep, hfill, hany]
  · refine ⟨bootStop 0x50 s, hrun _ _ ?_, rfl, rfl⟩
    simp only [stepComplete, hstart, hstep, filledStep, hfill]
    simp
    exact fun c hc h => absurd h (hready c hc)
  · exact ⟨setStep 7 ms s, hrun _ _ (by simp [stepComplete, hstart, hstep, fabricStep, hset]), rfl, elapsed_setStep hms s⟩
  · refine ⟨setStep 8 ms (commitSvn (appendRecord okA okB s)), hrun _ _ ?_, rfl, elapsed_setStep hms _⟩
    simp [stepComplete, hstart, hstep, recordStep, hok]
  · exact ⟨bootStop 0x70 (appendRecord false false s), hrun _ _ (by simp [stepComplete, hstart, hstep, recordStep, hreq]),
      rfl, rfl⟩
  · exact ⟨_, hrun _ _ (by simp only [stepComplete, hstart, hstep]; rfl), releaseStep_of_digest ms s⟩
  · exact ⟨bootStop 0x80 s, hrun _ _ (by simp [stepComplete, hstart, hstep, releaseStep]), rfl, rfl⟩

/-! ## Timeouts, straps and the close marker -/

theorem stepTimeout_of_due {s : State} {ms : Nat} (hstart : starting s = true) (hdue : s.boot.elapsed + stepLimitMs s ≤ ms) :
    (s.boot.step = 2 → stepTimeout ms s = bootStop 0x21 s) ∧
    (s.boot.step = 3 → s.boot.hold = false → stepTimeout ms s = bootStop 0x30 s) ∧
    (s.boot.step = 8 → stepTimeout ms s = bootStop 0x80 s) := by
  have hlate : ¬(starting s = false ∨ ms < s.boot.elapsed + stepLimitMs s) := by simp [hstart, hdue]
  refine ⟨fun h => ?_, fun h hhold => ?_, fun h => ?_⟩
  · simp [stepTimeout, if_neg hlate, h]
  · simp [stepTimeout, if_neg hlate, h, hhold]
  · simp [stepTimeout, if_neg hlate, h]

theorem linkWaitExpiry_of_due {s : State} (hstep : s.boot.step = 6) (hstate : rd s fabStateState = 2) (hup : upPorts s = [])
    (hdue : rd s fabCtrlLinkWaitMs * 1000 ≤ beat s - s.fabric.began) : linkWaitExpiry s = bootFail 0x60 (runAlone s) :=
  if_pos ⟨hstep, hstate, hup, hdue⟩

/-- Running alone leaves the boot record as it is. -/
theorem boot_runAlone (s : State) : (runAlone s).boot = s.boot :=
  (runAlone_keeps s (keeps_refl _ s) (Nat.or_self _)).part .boot rfl

/-- The straps have been read: the level of the sideband. -/
def strapsRead (mv : Nat) (s : State) : State := { s with chip := { s.chip with i3cMv := mv, strapsDone := true } }

theorem straps_replicate {s : State} (hvin : s.chip.vinGood = true) (hoff : s.chip.off = false)
    (hdone : s.chip.strapsDone = false) (v : Nat) : straps (List.replicate 16 v) s =
      match strapMv v with
      | some mv => strapsRead mv s
      | none => recContained (nextSlice s) (freeVal 256 s) 0 (freeVal (2 ^ 16) (freeNext s)) 0 []
          (strapsRead 1800 (freeNext (freeNext s))) := by
  have hall : (List.replicate 16 v).all (· == v) = true := by simp
  have hhead : (List.replicate 16 v).head?.getD 0 = v := rfl
  rw [straps, if_neg (by simp [hvin, hoff, hdone])]
  simp only [hhead, hall, if_true]
  cases strapMv v <;> rfl

theorem strapMv_of_le {v : Nat} (h : 2 ≤ v) : strapMv v = none := by
  obtain ⟨n, rfl⟩ := Nat.exists_eq_add_of_le' h
  rfl

theorem chip_recContained (sl kind unit cause addr : Nat) (detail : List Nat) (s : State) :
    (recContained sl kind unit cause addr detail s).chip = s.chip :=
  foldl_clkIrq State.chip _ _ _ (fun y c _ => clkIrq_chip _ _ y c) _

theorem recContained_recordedIn {s t : State} (sl kind unit cause addr : Nat) (detail : List Nat)
    (hlog : t.ras.platform.next = s.ras.platform.next) (hbeat : beat t = beat s) :
    recordedIn 2 kind unit cause s (recContained sl kind unit cause addr detail t) :=
  recPlatform_recordedIn _ _ _ _ _ _ _ _ _ _ hlog hbeat

/-- Straps of a used value set the level; the others leave the default and a record (R447). -/
theorem straps_agree {s : State} (hvin : s.chip.vinGood = true) (hoff : s.chip.off = false)
    (hdone : s.chip.strapsDone = false) (v : Nat) :
    (straps (List.replicate 16 v) s).chip.strapsDone = true ∧
      (straps (List.replicate 16 v) s).chip.i3cMv = (if v = 1 then 1200 else 1800) ∧
      (v < 2 → samePart .ras s (straps (List.replicate 16 v) s)) ∧
      (2 ≤ v → ∃ kind cause, recordedIn 2 (kind % 256) 0 (cause % 65536) s (straps (List.replicate 16 v) s)) := by
  rw [straps_replicate hvin hoff hdone]
  rcases Nat.lt_or_ge v 2 with hv | hv
  · obtain rfl | rfl : v = 0 ∨ v = 1 := by omega
    · exact ⟨rfl, rfl, fun _ => rfl, fun h => absurd h (by decide)⟩
    · exact ⟨rfl, rfl, fun _ => rfl, fun h => absurd h (by decide)⟩
  · rw [strapMv_of_le hv]
    simp only [chip_recContained]
    exact ⟨rfl, (if_neg (by omega)).symm, fun h => absurd h (by omega),
      fun _ => ⟨_, _, recContained_recordedIn _ _ _ _ _ _ rfl rfl⟩⟩

/-- Settles O8: each event's one branch, with the step's code, the level of the straps or the close marker's entry. -/
theorem startupTimeoutsStrapsAndCloseMarker : Obligations.StartupTimeoutsStrapsAndCloseMarker := by
  intro s
  refine ⟨fun ms hstart hdue => ?_, fun ms hearly => ?_, fun ms flash hms hflash => ?_,
    fun hstep hstate hup _ hdue => ?_, fun v hvin hoff hdone => ?_, fun i okA okB hmbx => ?_⟩
  · obtain ⟨h2, h3, h8⟩ := stepTimeout_of_due hstart hdue
    refine ⟨stepTimeout ms s, rfl, fun h => ?_, fun h hhold => ?_, fun h => ?_⟩
    · rw [h2 h]
      exact stopped_bootStop 0x21 s
    · rw [h3 h hhold]
      exact stopped_bootStop 0x30 s
    · rw [h8 h]
      exact stopped_bootStop 0x80 s
  · exact congrArg Host.Outcome.next (if_pos (Or.inr hearly))
  · refine ⟨_, congrArg Host.Outcome.next (if_pos ⟨hms, hflash⟩), ?_⟩
    obtain rfl | rfl : flash = 0 ∨ flash = 1 := by omega
    · simp [modBoot]
    · simp [modBoot]
  · refine ⟨_, congrArg Host.Outcome.next (linkWaitExpiry_of_due hstep hstate hup hdue), rfl, ?_⟩
    exact (congrArg Boot.stopped (boot_runAlone s) : (runAlone s).boot.stopped = s.boot.stopped)
  · exact ⟨_, rfl, straps_agree hvin hoff hdone v⟩
  · refine ⟨closeMarker okA okB s, rfl, ?_⟩
    simp only [closeMarker, hmbx]
    refine ⟨rfl, rfl, ?_, _, _, List.mem_append_right _ (List.mem_singleton_self _)⟩
    cases okA <;> cases okB <;> simp

end Sys2Proof.Machine
end

section
/-! Which register fields an operation leaves as they were: rules for `otherFields`, for each way a state is changed. -/
set_option Elab.async false
namespace Sys2Proof.Machine

theorem otherFields_refl (l : List Fld) (s : State) : otherFields l s s := fun _ _ => rfl

theorem otherFields.of_regs {l : List Fld} {s t u : State} (h : otherFields l s t) (hregs : u.regs = t.regs) :
    otherFields l s u := fun f hf => by rw [← h f hf, rd, rd, hregs]

theorem otherFields.wr {l : List Fld} {s t : State} (h : otherFields l s t) {g : Fld} (hg : g ∈ l) (v : Nat) :
    otherFields l s (wr g v t) := fun f hf => (rd_wr_ne g f v t (hf g hg)).trans (h f hf)

theorem otherFields.wrB {l : List Fld} {s t : State} (h : otherFields l s t) {g : Fld} (hg : g ∈ l) (b : Bool) :
    otherFields l s (wrB g b t) := h.wr hg _

theorem otherFields.bump {l : List Fld} {s t : State} (h : otherFields l s t) {g : Fld} (hg : g ∈ l) (n : Nat) :
    otherFields l s (bump g n t) := h.wr hg _

theorem otherFields.mono {l m : List Fld} {s t : State} (h : otherFields l s t) (hlm : ∀ f ∈ l, f ∈ m) :
    otherFields m s t := fun f hf => h f fun g hg => hf g (hlm g hg)

theorem otherFields.trans {l : List Fld} {s t u : State} (h : otherFields l s t) (k : otherFields l t u) :
    otherFields l s u := fun f hf => (k f hf).trans (h f hf)

theorem otherFields.foldl {α : Type} {l : List Fld} {s t : State} (h : otherFields l s t) {f : State → α → State} {r : List α}
    (hf : ∀ y, otherFields l s y → ∀ a ∈ r, otherFields l s (f y a)) : otherFields l s (r.foldl f t) :=
  List.foldlRecOn (motive := fun y => otherFields l s y) r f h hf

/-- A record raises interrupts and writes nothing else into the register file. -/
theorem otherFields.recPlatform {l : List Fld} {s t : State} (h : otherFields l s t) (hl : ∀ f ∈ irqFields, f ∈ l)
    (sl cls kind unit cause ten addr : Nat) (detail : List Nat) :
    otherFields l s (recPlatform sl cls kind unit cause ten addr detail t) := fun f hf => by
  rw [rd_recPlatform _ _ _ _ _ _ _ _ _ _ fun c hc => hf _ (hl _ (List.mem_map_of_mem hc))]
  exact h f hf

theorem otherFields.recContained {l : List Fld} {s t : State} (h : otherFields l s t) (hl : ∀ f ∈ irqFields, f ∈ l)
    (sl kind unit cause addr : Nat) (detail : List Nat) : otherFields l s (recContained sl kind unit cause addr detail t) :=
  h.recPlatform hl _ _ _ _ _ _ _ _

/-- A field below the Clerk cores' blocks shows no pending interrupt. -/
theorem fkey_ne_irq {f : Fld} (hlo : f.lo < 64) (hoff : f.off < 0x100000000) : ∀ c ∈ clerkCores, fkey f ≠ fkey (clerkIpPending c) :=
  fun c _ => fkey_ne_clerkIpPending hlo hoff c

theorem recordedIn.of_ras {cls kind unit cause : Nat} {s t u : State} (h : recordedIn cls kind unit cause s t)
    (hras : u.ras = t.ras) : recordedIn cls kind unit cause s u := by
  rw [recordedIn, hras]
  exact h

theorem ras_recContained (sl kind unit cause addr : Nat) (detail : List Nat) (s : State) :
    (recContained sl kind unit cause addr detail s).ras = { s.ras with
      platform := logAdd 1024 s.ras.platform ⟨0, beat s, 2, kind, unit, cause, 0, addr, detail, sl⟩ } := recPlatform_ras ..

theorem next_recContained (sl kind unit cause addr : Nat) (detail : List Nat) (s : State) :
    (recContained sl kind unit cause addr detail s).ras.platform.next = s.ras.platform.next + 1 := by
  rw [ras_recContained]
  rfl

end Sys2Proof.Machine
end

section
/-! Reference clocks, sensors and the power limits (R34, R35, R395, R397, R411, R412). -/
set_option Elab.async false
namespace Sys2Proof.Machine

/-! ## Reference clocks -/

theorem refOk_ne {r : Nat} (h : r < 2) : fkey (refOk (1 - r)) ≠ fkey (refOk r) := by
  obtain rfl | rfl : r = 0 ∨ r = 1 := by omega
  all_goals decide

theorem refOk_mem (r : Nat) : refOk r = clkStatusRefaOk ∨ refOk r = clkStatusRefbOk := by
  unfold refOk
  split
  · exact .inl rfl
  · exact .inr rfl

/-- The ok bit of a reference is none of the fields that a loss of it may write besides, and stands in the CLK_ block. -/
theorem refOk_apart (r : Nat) : fkey (refOk r) ≠ fkey clkStatusRefSel ∧ fkey (refOk r) ≠ fkey clkStatusHoldover ∧
    (refOk r).lo < 64 ∧ (refOk r).off < 0x100000000 := by
  rcases refOk_mem r with h | h <;> rw [h] <;> decide

theorem rd_recContained_refOk (r sl kind unit cause addr : Nat) (detail : List Nat) (s : State) :
    rd (recContained sl kind unit cause addr detail s) (refOk r) = rd s (refOk r) := by
  obtain ⟨-, -, hlo, hoff⟩ := refOk_apart r
  exact rd_recContained hlo hoff ..

/-- The state after a reference's ok bit has been cleared and the record placed. -/
def refDown (r : Nat) (s : State) : State := recContained (nextSlice s) 10 r 0x0A01 0 [] (wr (refOk r) 0 s)

theorem refclkLoss_of_loss {r gap ppm : Nat} {s : State} (hr : r < 2) (hloss : 200 ≤ gap ∨ 300 < ppm)
    (hok : rdB s (refOk r) = true) : refclkLoss r gap ppm s =
      if s.time.dormant ∨ s.time.wakeRefs then wr (refOk r) 0 s else refLost (nextSlice s) r (wr (refOk r) 0 s) :=
  if_pos ⟨hr, hloss, hok⟩

theorem rdB_wr_ne {f g : Fld} (h : fkey g ≠ fkey f) (v : Nat) (s : State) : rdB (wr f v s) g = rdB s g := by
  rw [rdB, rdB, rd_wr_ne f g v s h]

theorem refLost_eq {r : Nat} (hr : r < 2) (s : State) : refLost (nextSlice s) r (wr (refOk r) 0 s) =
    if rdB s (refOk (1 - r)) then wr clkStatusRefSel (1 - r) (refDown r s)
    else if rdB s clkStatusHoldover then refDown r s else enterHoldover (nextSlice s) (refDown r s) := by
  obtain ⟨-, hhold, -, -⟩ := refOk_apart r
  rw [refLost, rdB_wr_ne (refOk_ne hr), rdB_wr_ne hhold.symm]
  rfl

theorem refDown_recordedIn (r : Nat) (s : State) : recordedIn 2 10 r 0x0A01 s (refDown r s) := by
  have hne : fkey clkBeatBeat ≠ fkey (refOk r) := by rcases refOk_mem r with h | h <;> rw [h] <;> decide
  exact recContained_recordedIn _ _ _ _ _ _ rfl (beat_wr_ne hne 0 s)

/-- A field of the CLK_ block other than the ok bit reads after the record as before. -/
theorem rd_refDown {r : Nat} {f : Fld} (hf : fkey f ≠ fkey (refOk r)) (hlo : f.lo < 64) (hoff : f.off < 0x100000000)
    (s : State) : rd (refDown r s) f = rd s f := by
  rw [refDown, rd_recContained hlo hoff, rd_wr_ne _ _ _ _ hf]

theorem rd_refDown_refOk (r : Nat) (s : State) : rd (refDown r s) (refOk r) = 0 := by
  rw [refDown, rd_recContained_refOk, rd_wr_same, Nat.zero_mod]

theorem rd_enterHoldover {f : Fld} (hf : fkey f ≠ fkey clkStatusHoldover) (hlo : f.lo < 64) (hoff : f.off < 0x100000000)
    (sl : Nat) (s : State) : rd (enterHoldover sl s) f = rd s f := by
  rw [enterHoldover, rd_recContained hlo hoff, rd_wr_ne _ _ _ _ hf]
  rfl

theorem rdB_enterHoldover (sl : Nat) (s : State) : rdB (enterHoldover sl s) clkStatusHoldover = true := by
  rw [rdB, enterHoldover, rd_recContained (by decide) (by decide), rd_wr_same]
  rfl

theorem next_enterHoldover (sl : Nat) (s : State) :
    (enterHoldover sl s).ras.platform.next = s.ras.platform.next + 1 := by
  rw [enterHoldover, next_recContained]
  rfl

theorem time_recContained (sl kind unit cause addr : Nat) (detail : List Nat) (s : State) :
    (recContained sl kind unit cause addr detail s).time = s.time :=
  foldl_clkIrq State.time _ _ _ (fun y c _ => clkIrq_time _ _ y c) _

/-- The fields that the loss of a reference may write. -/
def refLossFields (r : Nat) : List Fld := [refOk r, clkStatusRefSel, clkStatusHoldover] ++ irqFields

theorem refOk_mem_loss (r : Nat) : refOk r ∈ refLossFields r := List.mem_cons_self

theorem refSel_mem_loss (r : Nat) : clkStatusRefSel ∈ refLossFields r := List.mem_cons_of_mem _ List.mem_cons_self

theorem holdover_mem_loss (r : Nat) : clkStatusHoldover ∈ refLossFields r :=
  List.mem_cons_of_mem _ (List.mem_cons_of_mem _ List.mem_cons_self)

theorem irqFields_refLoss (r : Nat) : ∀ f ∈ irqFields, f ∈ refLossFields r := fun _ hf => List.mem_append_right _ hf

theorem refDown_otherFields (r : Nat) (s : State) : otherFields (refLossFields r) s (refDown r s) :=
  ((otherFields_refl _ s).wr (refOk_mem_loss r) 0).recContained (irqFields_refLoss r) _ _ _ _ _ _

theorem enterHoldover_otherFields (r : Nat) (s : State) :
    otherFields (refLossFields r) s (enterHoldover (nextSlice s) (refDown r s)) := by
  unfold enterHoldover
  refine otherFields.recContained (otherFields.wr ?_ (holdover_mem_loss r) 1) (irqFields_refLoss r) _ _ _ _ _ _
  exact (refDown_otherFields r s).of_regs (setTime_regs _ _)

theorem time_enterHoldover (sl : Nat) (s : State) : (enterHoldover sl s).time = { s.time with holdBeats := 0 } := by
  rw [enterHoldover, time_recContained]
  rfl

/-- A loss outside Dormant and its wake while the other reference is good: the generator runs from that one (R34). -/
theorem refLost_of_other {r : Nat} (hr : r < 2) {s : State} (hgood : rdB s (refOk (1 - r)) = true) :
    refLost (nextSlice s) r (wr (refOk r) 0 s) = wr clkStatusRefSel (1 - r) (refDown r s) := by
  rw [refLost_eq hr, hgood, if_pos rfl]

/-- The same in holdover already. -/
theorem refLost_of_holdover {r : Nat} (hr : r < 2) {s : State} (hbad : rdB s (refOk (1 - r)) = false)
    (hhold : rdB s clkStatusHoldover = true) : refLost (nextSlice s) r (wr (refOk r) 0 s) = refDown r s := by
  rw [refLost_eq hr, hbad, hhold, if_neg (by decide), if_pos rfl]

/-- The same with neither: holdover begins. -/
theorem refLost_of_last {r : Nat} (hr : r < 2) {s : State} (hbad : rdB s (refOk (1 - r)) = false)
    (hhold : rdB s clkStatusHoldover = false) :
    refLost (nextSlice s) r (wr (refOk r) 0 s) = enterHoldover (nextSlice s) (refDown r s) := by
  rw [refLost_eq hr, hbad, hhold, if_neg (by decide), if_neg (by decide)]

/-- What a loss outside Dormant and its wake leaves, in each of the three cases. -/
theorem refLost_spec {r : Nat} (hr : r < 2) (s : State) :
    ∃ t, refLost (nextSlice s) r (wr (refOk r) 0 s) = t ∧
    rd t (refOk r) = 0 ∧ rd t (refOk (1 - r)) = rd s (refOk (1 - r)) ∧ otherFields (refLossFields r) s t ∧
    (rdB s (refOk (1 - r)) = true →
      rd t clkStatusRefSel = 1 - r ∧ rd t clkStatusHoldover = rd s clkStatusHoldover ∧ recordedIn 2 10 r 0x0A01 s t) ∧
    (rdB s (refOk (1 - r)) = false → rd t clkStatusRefSel = rd s clkStatusRefSel ∧ rdB t clkStatusHoldover = true ∧
      (rdB s clkStatusHoldover = true → recordedIn 2 10 r 0x0A01 s t) ∧
      (rdB s clkStatusHoldover = false → t.time.holdBeats = 0 ∧ t.ras.platform.next = s.ras.platform.next + 2)) := by
  obtain ⟨hsel, hhold, hlo, hoff⟩ := refOk_apart r
  obtain ⟨hsel', hhold', hlo', hoff'⟩ := refOk_apart (1 - r)
  have hother : rd (refDown r s) (refOk (1 - r)) = rd s (refOk (1 - r)) := rd_refDown (refOk_ne hr) hlo' hoff' s
  have hselKept : rd (refDown r s) clkStatusRefSel = rd s clkStatusRefSel := rd_refDown hsel.symm (by decide) (by decide) s
  have hholdKept : rd (refDown r s) clkStatusHoldover = rd s clkStatusHoldover :=
    rd_refDown hhold.symm (by decide) (by decide) s
  cases hgood : rdB s (refOk (1 - r)) with
  | true =>
    refine ⟨_, refLost_of_other hr hgood, ?_, ?_, (refDown_otherFields r s).wr (refSel_mem_loss r) _,
      fun _ => ⟨?_, ?_, (refDown_recordedIn r s).of_ras (wr_ras _ _ _)⟩, nofun⟩
    · rw [rd_wr_ne _ _ _ _ hsel, rd_refDown_refOk]
    · rw [rd_wr_ne _ _ _ _ hsel', hother]
    · rw [rd_wr_same]
      exact Nat.mod_eq_of_lt (show 1 - r < 2 ^ 1 by omega)
    · rw [rd_wr_ne _ _ _ _ (by decide), hholdKept]
  | false =>
    cases hwas : rdB s clkStatusHoldover with
    | true =>
      exact ⟨_, refLost_of_holdover hr hgood hwas, rd_refDown_refOk r s, hother, refDown_otherFields r s, nofun, fun _ =>
        ⟨hselKept, by rw [rdB, hholdKept]; exact hwas, fun _ => refDown_recordedIn r s, nofun⟩⟩
    | false =>
      refine ⟨_, refLost_of_last hr hgood hwas, ?_, ?_, enterHoldover_otherFields r s, nofun, fun _ =>
        ⟨?_, rdB_enterHoldover _ _, nofun, fun _ => ⟨?_, ?_⟩⟩⟩
      · rw [rd_enterHoldover hhold hlo hoff, rd_refDown_refOk]
      · rw [rd_enterHoldover hhold' hlo' hoff', hother]
      · rw [rd_enterHoldover (by decide) (by decide) (by decide), hselKept]
      · rw [time_enterHoldover]
      · rw [next_enterHoldover, refDown, next_recContained]
        rfl

/-- Settles O9. -/
theorem referenceClocks : Obligations.ReferenceClocks := by
  intro s
  refine ⟨fun r gap ppm hr hloss hok => ?_, fun r gap ppm hgap hppm => ?_, fun r cycles hr hc => ?_,
    fun r cycles hc => ?_, fun v => ?_, fun gap hgap => ?_, fun hslew hlead => ?_, fun hlead => ?_⟩
  · refine ⟨_, congrArg Host.Outcome.next (refclkLoss_of_loss hr hloss hok), ?_⟩
    by_cases hdorm : s.time.dormant ∨ s.time.wakeRefs
    · rw [if_pos hdorm]
      refine ⟨by rw [rd_wr_same, Nat.zero_mod], rd_wr_ne _ _ _ _ (refOk_ne hr),
        (otherFields_refl _ s).wr (refOk_mem_loss r) 0, fun _ =>
          ⟨(otherFields_refl _ s).wr List.mem_cons_self 0, rfl, rfl, rfl⟩,
        fun hd hw => ?_, fun hd hw => ?_⟩
      · simp [hd, hw] at hdorm
      · simp [hd, hw] at hdorm
    · rw [if_neg hdorm]
      obtain ⟨t, ht, hzero, hother, hfields, hgood, hbad⟩ := refLost_spec hr s
      rw [ht]
      exact ⟨hzero, hother, hfields, fun h => absurd h hdorm, fun _ _ => hgood, fun _ _ => hbad⟩
  · refine congrArg Host.Outcome.next (if_neg ?_)
    rintro ⟨-, h | h, -⟩ <;> omega
  · exact ⟨_, congrArg Host.Outcome.next (if_pos ⟨hr, hc⟩), by
      rcases refOk_mem r with h | h <;> rw [h, rd_wr_same] <;> rfl, (otherFields_refl _ s).wr List.mem_cons_self 1⟩
  · exact congrArg Host.Outcome.next (if_neg fun ⟨_, h⟩ => by omega)
  · exact ⟨_, rfl, rd_wr_same _ _ _, (otherFields_refl _ s).wr List.mem_cons_self v⟩
  · exact ⟨_, congrArg Host.Outcome.next (if_pos hgap), rd_wr_same _ _ _, rfl,
      ((otherFields_refl _ s).of_regs rfl).wr List.mem_cons_self 0⟩
  · exact ⟨_, congrArg Host.Outcome.next (if_pos ⟨hslew, hlead⟩), rd_wr_same _ _ _, rfl,
      ((otherFields_refl _ s).of_regs rfl).wr List.mem_cons_self 0⟩
  · exact congrArg Host.Outcome.next (if_neg fun ⟨_, h⟩ => hlead h)

/-! ## Sensors -/

/-- Settled by the outcome alone: a command that answers t leaves the fuses. -/
theorem fusedOf_exec {i : Instr} {s t : State} (h : exec i s = .next t) : fusedOf t = fusedOf s := by
  obtain ⟨u, hu, hfixed, -, -⟩ := exec_writesOnly i s
  obtain rfl : u = t := Host.Outcome.next.inj (hu.symm.trans h)
  exact fusedOf_of_fixedOf hfixed

theorem recContained_irqOnly (sl kind unit cause addr : Nat) (detail : List Nat) {s t : State} (h : t.regs = s.regs) :
    otherFields irqFields s (recContained sl kind unit cause addr detail t) :=
  otherFields.recContained ((otherFields_refl _ s).of_regs h) (fun _ hf => hf) _ _ _ _ _ _

theorem beat_of_regs {s t : State} (h : t.regs = s.regs) : beat t = beat s := by rw [beat, beat, rd, rd, h]

/-- The sensor counts no longer (R411). -/
def sensorOut (n : Nat) (s : State) : State :=
  { s with chip := { s.chip with sensors := tset {} s.chip.sensors n { sensorOf s n with retired := true } } }

theorem exec_sensorRetire_of_bad {n : Nat} {s : State} (hbad : 16 ≤ (sensorOf s n).badRuns)
    (hin : (sensorOf s n).retired = false) :
    exec (.sensorRetire n) s = .next (recContained (nextSlice s) 10 n 0x0A04 0 [] (sensorOut n s)) :=
  congrArg Host.Outcome.next (if_pos ⟨hbad, hin⟩)

theorem sensorOf_recContained (sl kind unit cause addr : Nat) (detail : List Nat) (n m : Nat) (s : State) :
    sensorOf (recContained sl kind unit cause addr detail (sensorOut n s)) m =
      if m = n then { sensorOf s n with retired := true } else sensorOf s m := by
  rw [sensorOf, chip_recContained]
  exact tget_tset _ _ _ _ _

/-! ## The halvings (R395, R397) -/

theorem fkey_pwrDomain_ne {d e : Nat} (h : d ≠ e) : fkey (pwrDomainFreq d) ≠ fkey (pwrDomainFreq e) := by
  simp only [fkey, pwrDomainFreq]
  omega

theorem halve_same {s : State} {p : Nat} (h : (pairOf s p).halved = false) :
    (pairOf (halve s p) p).halved = true ∧ rd (halve s p) (pwrDomainFreq p) = rd s (pwrDomainFreq p) / 2 % 64 := by
  rw [halve, if_neg (by simp [h])]
  exact ⟨congrArg Pair.halved (setPair_pairOf_same p _ s), rd_wr_same _ _ _⟩

theorem halve_of_halved {s : State} {p : Nat} (h : (pairOf s p).halved = true) : halve s p = s := if_pos h

theorem halve_ne {s : State} {p q : Nat} (h : q ≠ p) :
    pairOf (halve s p) q = pairOf s q ∧ rd (halve s p) (pwrDomainFreq q) = rd s (pwrDomainFreq q) := by
  unfold halve
  split
  · exact ⟨rfl, rfl⟩
  · exact ⟨setPair_pairOf_ne p _ s q h, rd_wr_ne _ _ _ _ (fkey_pwrDomain_ne h)⟩

theorem halve_otherFields (p : Nat) (s : State) : otherFields [pwrDomainFreq p] s (halve s p) := by
  unfold halve
  split
  · exact otherFields_refl _ s
  · exact ((otherFields_refl _ s).of_regs (setPair_regs _ _ _)).wr List.mem_cons_self _

/-- A pair that is not listed, or is halved already, stays as it is while the listed ones are halved. -/
theorem foldl_halve_keeps {l : List Nat} {s : State} {q : Nat} (h : q ∉ l ∨ (pairOf s q).halved = true) :
    pairOf (l.foldl halve s) q = pairOf s q ∧ rd (l.foldl halve s) (pwrDomainFreq q) = rd s (pwrDomainFreq q) := by
  induction l generalizing s with
  | nil => exact ⟨rfl, rfl⟩
  | cons p r ih =>
    rw [List.foldl_cons]
    by_cases hqp : q = p
    · subst hqp
      have hhalved : (pairOf s q).halved = true := h.resolve_left fun hq => hq List.mem_cons_self
      rw [halve_of_halved hhalved]
      exact ih (.inr hhalved)
    · obtain ⟨hpair, hfreq⟩ := halve_ne (s := s) hqp
      have hrest : q ∉ r ∨ (pairOf (halve s p) q).halved = true := by
        rw [hpair]
        exact h.imp_left fun hq hr => hq (List.mem_cons_of_mem _ hr)
      rw [(ih hrest).1, (ih hrest).2]
      exact ⟨hpair, hfreq⟩

theorem foldl_halve_mem {l : List Nat} {s : State} {q : Nat} (hq : q ∈ l) (h : (pairOf s q).halved = false) :
    (pairOf (l.foldl halve s) q).halved = true ∧
      rd (l.foldl halve s) (pwrDomainFreq q) = rd s (pwrDomainFreq q) / 2 % 64 := by
  induction l generalizing s with
  | nil => exact absurd hq List.not_mem_nil
  | cons p r ih =>
    rw [List.foldl_cons]
    by_cases hqp : q = p
    · subst hqp
      obtain ⟨hhalved, hfreq⟩ := halve_same h
      obtain ⟨hpair, hkept⟩ := foldl_halve_keeps (l := r) (.inr hhalved)
      exact ⟨by rw [hpair, hhalved], hkept.trans hfreq⟩
    · obtain ⟨hpair, hfreq⟩ := halve_ne (s := s) hqp
      obtain ⟨hhalved, hdone⟩ := ih ((List.mem_cons.1 hq).resolve_left hqp) (by rw [hpair, h])
      exact ⟨hhalved, by rw [hdone, hfreq]⟩

/-- The event counters of PWR_LIMIT stand below the frequencies of the domains. -/
theorem rd_halve_limit {f : Fld} (hf : fkey f < 0x10100 * 64) (p : Nat) (s : State) : rd (halve s p) f = rd s f := by
  refine halve_otherFields p s f fun g hg => ?_
  rw [List.mem_singleton.1 hg]
  simp only [fkey, pwrDomainFreq] at hf ⊢
  omega

theorem rd_foldl_halve_limit {f : Fld} (hf : fkey f < 0x10100 * 64) (l : List Nat) (s : State) :
    rd (l.foldl halve s) f = rd s f :=
  foldl_fixes (fun y => rd y f) (fun y p => rd_halve_limit hf p y) l s

/-- The pairs that an excess of input current of ns halves. -/
def overCurrent (ns : Nat) (s : State) : List Nat :=
  (pairsOn s).filter fun p => (!serveSealed s p || decide (2200 ≤ ns)) && !(pairOf s p).halved

theorem mem_overCurrent {ns : Nat} {s : State} {p : Nat} : p ∈ overCurrent ns s ↔
    p ∈ pairsOn s ∧ (serveSealed s p = false ∨ 2200 ≤ ns) ∧ (pairOf s p).halved = false := by
  simp [overCurrent]

theorem inputLimit_eq {iin ns : Nat} (hiin : 6200 < iin) (hns : 200 ≤ ns) (s : State) : inputLimit iin ns s =
    if overCurrent ns s = [] then s else bump pwrLimitCurrentEvents 1 ((overCurrent ns s).foldl halve s) :=
  if_pos ⟨hiin, hns⟩

theorem inputLimit_mem {iin ns p : Nat} {s : State} (hiin : 6200 < iin) (hns : 200 ≤ ns) (hp : p ∈ overCurrent ns s) :
    (pairOf (inputLimit iin ns s) p).halved = true ∧
      rd (inputLimit iin ns s) (pwrDomainFreq p) = rd s (pwrDomainFreq p) / 2 % 64 ∧
      counted pwrLimitCurrentEvents 1 s (inputLimit iin ns s) := by
  obtain ⟨-, -, hnot⟩ := mem_overCurrent.1 hp
  obtain ⟨hhalved, hfreq⟩ := foldl_halve_mem hp hnot
  have hne : fkey (pwrDomainFreq p) ≠ fkey pwrLimitCurrentEvents := by simp only [fkey, pwrDomainFreq, pwrLimitCurrentEvents]; omega
  rw [inputLimit_eq hiin hns, if_neg (List.ne_nil_of_mem hp)]
  refine ⟨hhalved, (rd_bump_ne _ _ _ _ hne).trans hfreq, ?_⟩
  rw [counted, rd_bump_same, rd_foldl_halve_limit (by decide)]

theorem inputLimit_not_mem {iin ns p : Nat} {s : State} (hiin : 6200 < iin) (hns : 200 ≤ ns)
    (hp : p ∉ overCurrent ns s) : pairOf (inputLimit iin ns s) p = pairOf s p ∧
      rd (inputLimit iin ns s) (pwrDomainFreq p) = rd s (pwrDomainFreq p) := by
  obtain ⟨hpair, hfreq⟩ := foldl_halve_keeps (s := s) (.inl hp)
  have hne : fkey (pwrDomainFreq p) ≠ fkey pwrLimitCurrentEvents := by simp only [fkey, pwrDomainFreq, pwrLimitCurrentEvents]; omega
  rw [inputLimit_eq hiin hns]
  split
  · exact ⟨rfl, rfl⟩
  · exact ⟨hpair, (rd_bump_ne _ _ _ _ hne).trans hfreq⟩

/-! ## The thermal trip (R412) -/

theorem setDomain_ne {d e : Nat} (h : d ≠ e) (y : State) : domHeld (setDomain e false y) d = domHeld y d ∧
    rd (setDomain e false y) (pwrDomainState d) = rd y (pwrDomainState d) := by
  have hheld : ∀ g ∈ [pwrDomainState e, pwrDomainMv e, pwrDomainFreq e], fkey (pwrDomainHeld d) ≠ fkey g ∧
      fkey (pwrDomainState d) ≠ fkey g := by
    simp only [List.mem_cons, List.not_mem_nil, or_false, forall_eq_or_imp, forall_eq, fkey, pwrDomainHeld, pwrDomainState,
      pwrDomainMv, pwrDomainFreq]
    omega
  have hfields : otherFields [pwrDomainState e, pwrDomainMv e, pwrDomainFreq e] y (setDomain e false y) := by
    unfold setDomain
    split
    · simp only [Bool.false_eq_true, if_false]
      refine otherFields.wr (otherFields.wr (otherFields.wr (otherFields_refl _ y) ?_ _) ?_ _) ?_ _ <;> simp
    · exact otherFields_refl _ y
  exact ⟨by rw [domHeld, rdB, hfields _ fun g hg => (hheld g hg).1]; rfl, hfields _ fun g hg => (hheld g hg).2⟩

theorem setDomain_off_same {d : Nat} {y : State} (h : domainPresent y d = true) :
    domHeld (setDomain d false y) d = domHeld y d ∧
      rd (setDomain d false y) (pwrDomainState d) = if domHeld y d = true then 4 else 1 := by
  have hmv : fkey (pwrDomainHeld d) ≠ fkey (pwrDomainMv d) := by simp only [fkey, pwrDomainHeld, pwrDomainMv]; omega
  have hfreq : fkey (pwrDomainHeld d) ≠ fkey (pwrDomainFreq d) := by simp only [fkey, pwrDomainHeld, pwrDomainFreq]; omega
  have hstate : fkey (pwrDomainHeld d) ≠ fkey (pwrDomainState d) := by simp only [fkey, pwrDomainHeld, pwrDomainState]; omega
  rw [setDomain, if_pos h]
  simp only [Bool.false_eq_true, if_false]
  refine ⟨?_, ?_⟩
  · rw [domHeld, rdB_wr_ne hstate, rdB_wr_ne hmv, rdB_wr_ne hfreq]
    rfl
  · rw [rd_wr_same]
    split <;> rfl

theorem setDomain_chip (d : Nat) (on : Bool) (s : State) : (setDomain d on s).chip = s.chip :=
  (setDomain_keeps d on s (keeps_refl _ s) (Nat.or_self _)).part .chip rfl

theorem domainPresent_of_chip {s t : State} (h : t.chip = s.chip) (d : Nat) : domainPresent t d = domainPresent s d := by
  have hv : vOf t = vOf s := congrArg Chip.variant h
  simp only [domainPresent, pairPresent, tilePresent, chanPresent, groupPresent, fabPortPresent, hv]

/-- A present domain that is listed, or is off already, is off once the listed ones have been switched off. -/
theorem foldl_setDomain_off {l : List Nat} {s : State} {d : Nat} (hpres : domainPresent s d = true)
    (h : d ∈ l ∨ rd s (pwrDomainState d) = if domHeld s d = true then 4 else 1) :
    rd (l.foldl (fun a d => setDomain d false a) s) (pwrDomainState d) = if domHeld s d = true then 4 else 1 := by
  induction l generalizing s with
  | nil => exact h.resolve_left List.not_mem_nil
  | cons e r ih =>
    have hpres' : domainPresent (setDomain e false s) d = true :=
      (domainPresent_of_chip (setDomain_chip e false s) d).trans hpres
    rw [List.foldl_cons]
    by_cases hde : d = e
    · subst hde
      obtain ⟨hheld, hoff⟩ := setDomain_off_same hpres
      rw [ih hpres' (.inr (by rw [hheld]; exact hoff)), hheld]
    · obtain ⟨hheld, hsame⟩ := setDomain_ne hde s
      rw [ih hpres' (by rw [hheld, hsame]; exact h.imp_left fun hd => (List.mem_cons.1 hd).resolve_left hde), hheld]

theorem modPort_fportOf_same (k : Nat) (f : FabPort → FabPort) (s : State) : fportOf (modPort k f s) k = f (fportOf s k) :=
  tget_tset_same _ _ _ _

theorem modPort_fportOf_ne {k j : Nat} (f : FabPort → FabPort) (s : State) (h : j ≠ k) :
    fportOf (modPort k f s) j = fportOf s j := tget_tset_ne _ _ _ _ _ h

/-- A fabric port's keys are forgotten. -/
def noKeys (p : FabPort) : FabPort := { p with keyTx := none, keyRx := none, proved := [] }

theorem foldl_noKeys {l : List Nat} {s : State} {k : Nat}
    (h : k ∈ l ∨ ((fportOf s k).keyTx = none ∧ (fportOf s k).keyRx = none)) :
    (fportOf (l.foldl (fun a k => modPort k noKeys a) s) k).keyTx = none ∧
      (fportOf (l.foldl (fun a k => modPort k noKeys a) s) k).keyRx = none := by
  induction l generalizing s with
  | nil => exact h.resolve_left List.not_mem_nil
  | cons j r ih =>
    rw [List.foldl_cons]
    refine ih ?_
    by_cases hkj : k = j
    · subst hkj
      right
      rw [modPort_fportOf_same]
      exact ⟨rfl, rfl⟩
    · rw [modPort_fportOf_ne _ _ hkj]
      exact h.imp_left fun hk => (List.mem_cons.1 hk).resolve_left hkj

/-- What the trip clears before the domains switch off. -/
theorem clearSecrets_spec (s : State) : (clearSecrets s).mem.keys = [] ∧ (clkOf (clearSecrets s) 8).sram = [] ∧
    (clkOf (clearSecrets s) 9).sram = [] ∧ (clearSecrets s).regs = s.regs ∧ (clearSecrets s).chip = s.chip ∧
    ∀ k ∈ presentFabPorts s, (fportOf (clearSecrets s) k).keyTx = none ∧ (fportOf (clearSecrets s) k).keyRx = none := by
  refine ⟨rfl, ?_, ?_, ?_, ?_, fun k hk => foldl_noKeys (.inl hk)⟩
  · exact congrArg ClkCore.sram (setClk_clkOf_same 8 _ _)
  · exact congrArg ClkCore.sram ((setClk_clkOf_ne 8 _ _ 9 (by decide)).trans (setClk_clkOf_same 9 _ _))
  · exact foldl_fixes State.regs (fun y k => setFab_regs _ y) _ s
  · exact foldl_fixes State.chip (fun y k => setFab_chip _ y) _ s

/-- The listed domains are switched off. -/
def switchOff (l : List Nat) (s : State) : State := l.foldl (fun a d => setDomain d false a) s

theorem switchOff_keeps (l : List Nat) (s : State) : Keeps 0x20000001 s (switchOff l s) :=
  foldl_keeps _ l s (keeps_refl _ s) fun y d h => setDomain_keeps d false y h (Nat.or_self _)

/-- The device is tripped, fatal and off. -/
def tripped (y : State) : State := { y with chip := { y.chip with thermTrip := true, fatal := true, off := true } }

theorem exec_thermalTrip_of_hot {n : Nat} {v : Int} {s : State} (hv : 125 ≤ v) (hok : readingOk (sensorOf s n) v = true)
    (hvin : s.chip.vinGood = true) (hoff : s.chip.off = false) :
    exec (.thermalTrip n v) s = .next (tripped (switchOff (List.range 182) (clearSecrets s))) :=
  congrArg Host.Outcome.next (if_pos ⟨hv, hok, hvin, hoff⟩)

/-- Switching domains off touches registers only, and what the trip has cleared stays cleared. -/
theorem switchOff_clearSecrets (l : List Nat) (s : State) : (switchOff l (clearSecrets s)).mem.keys = [] ∧
    (clkOf (switchOff l (clearSecrets s)) 8).sram = [] ∧ (clkOf (switchOff l (clearSecrets s)) 9).sram = [] ∧
    (∀ d ∈ l, domainPresent s d = true →
      rd (switchOff l (clearSecrets s)) (pwrDomainState d) = if domHeld s d = true then 4 else 1) ∧
    ∀ k ∈ presentFabPorts s, (fportOf (switchOff l (clearSecrets s)) k).keyTx = none ∧
      (fportOf (switchOff l (clearSecrets s)) k).keyRx = none := by
  obtain ⟨hkeys, hnorth, hsouth, hregs, hchip, hports⟩ := clearSecrets_spec s
  have hkeep := switchOff_keeps l (clearSecrets s)
  have hmem : (switchOff l (clearSecrets s)).mem = (clearSecrets s).mem := hkeep.part .mem rfl
  have hclerk : (switchOff l (clearSecrets s)).clerk = (clearSecrets s).clerk := hkeep.part .clerk rfl
  have hfabric : (switchOff l (clearSecrets s)).fabric = (clearSecrets s).fabric := hkeep.part .fabric rfl
  refine ⟨by rw [hmem, hkeys], by rw [clkOf, hclerk]; exact hnorth, by rw [clkOf, hclerk]; exact hsouth,
    fun d hd hpres => ?_, fun k hk => by rw [fportOf, hfabric]; exact hports k hk⟩
  have hheld : domHeld (clearSecrets s) d = domHeld s d := by rw [domHeld, domHeld, rdB, rdB, rd, rd, hregs]
  rw [← hheld]
  exact foldl_setDomain_off ((domainPresent_of_chip hchip d).trans hpres) (.inl hd)

/-- Settles O10: each event's one branch; the halvings and the trip go through their folds pair by pair and domain by domain. -/
theorem sensorsAndPowerLimits : Obligations.SensorsAndPowerLimits := by
  intro s
  refine ⟨fun n hbad hin => ?_, fun n hfew => ?_, fun x hpres hin => ?_, fun n v hv hok hvin hoff => ?_, fun n v hv => ?_,
    fun iin ns hiin hns => ?_, fun p v hon hp hv hnot => ?_⟩
  · refine ⟨_, exec_sensorRetire_of_bad hbad hin, ?_, recContained_recordedIn _ _ _ _ _ _ rfl rfl, fun m hm => ?_,
      recContained_irqOnly _ _ _ _ _ _ rfl⟩
    · rw [sensorOf_recContained, if_pos rfl]
    · rw [sensorOf_recContained, if_neg hm]
  · exact congrArg Host.Outcome.next (if_neg fun ⟨h, _⟩ => Nat.not_le.2 hfew h)
  · refine ⟨_, congrArg Host.Outcome.next (if_pos ⟨hpres, by simpa using hin⟩), ?_,
      recContained_recordedIn _ _ _ _ _ _ rfl rfl, recContained_irqOnly _ _ _ _ _ _ rfl⟩
    exact congrArg Chip.entropyDead (chip_recContained _ _ _ _ _ _ _)
  · have hexec := exec_thermalTrip_of_hot hv hok hvin hoff
    obtain ⟨hkeys, hnorth, hsouth, hdomains, hports⟩ := switchOff_clearSecrets (List.range 182) s
    have hfused := fusedOf_exec hexec
    generalize switchOff (List.range 182) (clearSecrets s) = y at *
    exact ⟨_, hexec, rfl, rfl, rfl, hkeys, hnorth, hsouth, fun d hd => hdomains d (List.mem_range.2 hd), hports, hfused⟩
  · exact congrArg Host.Outcome.next (if_neg fun ⟨h, _⟩ => by omega)
  · refine ⟨_, rfl, fun p hp hnot hopen => inputLimit_mem hiin hns (mem_overCurrent.2 ⟨hp, hopen, hnot⟩),
      fun p hp => inputLimit_not_mem hiin hns fun hmem => ?_⟩
    obtain ⟨hon, hopen, hnot⟩ := mem_overCurrent.1 hmem
    rcases hp with hhalved | hoff | ⟨hsealed, hshort⟩
    · simp [hnot] at hhalved
    · exact hoff hon
    · rcases hopen with h | h
      · simp [hsealed] at h
      · omega
  · obtain ⟨hhalved, hfreq⟩ := halve_same hnot
    have hne : fkey (pwrDomainFreq p) ≠ fkey pwrLimitThermalEvents := by
      simp only [fkey, pwrDomainFreq, pwrLimitThermalEvents]
      omega
    refine ⟨_, congrArg Host.Outcome.next (if_pos ⟨hon, hp, hv, hnot⟩), hhalved, (rd_bump_ne _ _ _ _ hne).trans hfreq, ?_,
      ((halve_otherFields p s).mono (by simp)).bump (by simp) 1, fun q hq => (halve_ne hq).1⟩
    rw [counted, rd_bump_same, rd_halve_limit (by decide)]

end Sys2Proof.Machine
end

section
/-! Beat boundaries and the steps of commands (R40, R346, R347): what is due at one step of a boundary, and what a command leaves for
the next one. -/
set_option Elab.async false
namespace Sys2Proof.Machine

/-! ## Folds that act on one unit after another -/

/-- What a fold over distinct units makes of one of them is what that unit's own step makes of it. -/
theorem foldl_at {β : Type} (g : State → β) {f : State → Nat → State} {c : Nat} (hne : ∀ y a, a ≠ c → g (f y a) = g y)
    {l : List Nat} (hl : l.Nodup) (hc : c ∈ l) (s : State) : ∃ y, g y = g s ∧ g (l.foldl f s) = g (f y c) := by
  induction l generalizing s with
  | nil => exact absurd hc List.not_mem_nil
  | cons a r ih =>
    obtain ⟨har, hr⟩ := List.nodup_cons.1 hl
    rw [List.foldl_cons]
    by_cases hac : a = c
    · subst hac
      exact ⟨s, rfl, List.foldlRecOn (motive := fun y => g y = g (f s a)) r f rfl fun y hy b hb =>
        (hne y b fun h => har (h ▸ hb)).trans hy⟩
    · obtain ⟨y, hy, hfold⟩ := ih hr ((List.mem_cons.1 hc).resolve_left (Ne.symm hac)) (f s a)
      exact ⟨y, hy.trans (hne s a hac), hfold⟩

/-! ## What is due at a step -/

theorem unitKind_lt (u : UnitRef) : unitKind u < 12 := by
  unfold unitKind
  split <;> decide

theorem actRank_lt (a : Act) : actRank a < 12 := by
  unfold actRank
  split
  · decide
  · exact unitKind_lt _
  all_goals decide

/-- An action with its rank among the k first ones, as a list. -/
def rankedBelow (k : Nat) (d : Due) : List Due := if actRank d.act < k then [d] else []

theorem rankedBelow_succ (k : Nat) (d : Due) :
    rankedBelow (k + 1) d = rankedBelow k d ++ if actRank d.act = k then [d] else [] := by
  unfold rankedBelow
  rcases Nat.lt_trichotomy (actRank d.act) k with h | h | h
  · simp [h, h.ne, Nat.lt_succ_of_lt h]
  · simp [h]
  · simp [h.ne', Nat.not_lt.2 h.le, show ¬actRank d.act < k + 1 by omega]

theorem filter_rank_one (d : Due) (r : Nat) :
    ([d].filter fun x => actRank x.act == r) = if actRank d.act = r then [d] else [] := by
  simp [List.filter_cons]

theorem flatMap_rank_one (d : Due) (k : Nat) :
    ((List.range k).flatMap fun r => [d].filter fun x => actRank x.act == r) = rankedBelow k d := by
  induction k with
  | zero => rfl
  | succ k ih =>
    rw [List.range_succ, List.flatMap_append, ih, rankedBelow_succ, List.flatMap_singleton, filter_rank_one]

/-- Two actions due at one step act in the order of their ranks, and of one rank in their own order. -/
theorem flatMap_rank_two (d e : Due) (k : Nat) :
    ((List.range k).flatMap fun r => [d, e].filter fun x => actRank x.act == r) =
      if actRank e.act < actRank d.act then rankedBelow k e ++ rankedBelow k d else rankedBelow k d ++ rankedBelow k e := by
  induction k with
  | zero => simp [rankedBelow]
  | succ k ih =>
    have hfilter : ([d, e].filter fun x => actRank x.act == k) =
        (if actRank d.act = k then [d] else []) ++ if actRank e.act = k then [e] else [] := by
      rw [← filter_rank_one, ← filter_rank_one, ← List.filter_append]
      rfl
    rw [List.range_succ, List.flatMap_append, ih, rankedBelow_succ, rankedBelow_succ, List.flatMap_singleton, hfilter]
    unfold rankedBelow
    by_cases hd : actRank d.act = k
    · by_cases he : actRank e.act = k
      · simp [hd, he]
      · simp only [hd, he]
        split_ifs <;> simp_all
    · by_cases he : actRank e.act = k
      · simp only [hd, he]
        split_ifs <;> simp_all
        omega
      · simp [hd, he]

theorem applyDue_one {s : State} {d : Due} {k : Nat} (hdue : s.due = [d]) (hstep : d.step = k) (hbeat : d.beat ≤ beat s) :
    applyDue k s = applyAct { s with due := [] } d.act := by
  have hnow : (s.due.filter fun x => x.step == k && decide (x.beat ≤ beat s)) = [d] := by simp [hdue, hstep, hbeat]
  have hrest : (s.due.filter fun x => !(x.step == k && decide (x.beat ≤ beat s))) = [] := by simp [hdue, hstep, hbeat]
  simp only [applyDue, hnow, hrest, flatMap_rank_one, rankedBelow, actRank_lt, if_true]
  rfl

theorem applyDue_two {s : State} {d e : Due} {k : Nat} (hdue : s.due = [d, e]) (hd : d.step = k) (he : e.step = k)
    (hdb : d.beat ≤ beat s) (heb : e.beat ≤ beat s) : applyDue k s =
      if actRank e.act < actRank d.act then applyAct (applyAct { s with due := [] } e.act) d.act
      else applyAct (applyAct { s with due := [] } d.act) e.act := by
  have hnow : (s.due.filter fun x => x.step == k && decide (x.beat ≤ beat s)) = [d, e] := by simp [hdue, hd, he, hdb, heb]
  have hrest : (s.due.filter fun x => !(x.step == k && decide (x.beat ≤ beat s))) = [] := by simp [hdue, hd, he, hdb, heb]
  simp only [applyDue, hnow, hrest, flatMap_rank_two, rankedBelow, actRank_lt, if_true]
  split <;> rfl

/-! ## The boundary -/

theorem boundary_of_not_runs {s : State} (h : beatRuns s = false) (b : BeatIn) : boundary b s = s := if_neg (by simp [h])

theorem beatRuns_eq_false {s : State} (h : s.time.dormant = true ∨ s.chip.vinGood = false ∨ s.chip.off = true ∨
    (s.time.started = false ∧ refGood s = false)) : beatRuns s = false := by
  rcases h with h | h | h | ⟨h, hr⟩
  · simp [beatRuns, h]
  · simp [beatRuns, h]
  · simp [beatRuns, h]
  · simp [beatRuns, h, hr]

theorem beatRuns_eq_true {s : State} (hdorm : s.time.dormant = false) (hvin : s.chip.vinGood = true)
    (hoff : s.chip.off = false) (hstart : s.time.started = true ∨ refGood s = true) : beatRuns s = true := by
  rcases hstart with h | h
  · simp [beatRuns, hdorm, hvin, hoff, h]
  · simp [beatRuns, hdorm, hvin, hoff, h]

/-! ## The steps of a command -/

theorem dueSteps_of_journal {s t : State} {i : Nat} (hbeat : beat t = beat s)
    (h : ∀ j ∈ t.journal, j.mbx = i → beat s + 1 < j.beat) : dueSteps t i = [] := by
  rw [dueSteps, List.filter_eq_nil_iff]
  intro j hj hdue
  simp only [Bool.and_eq_true, beq_iff_eq, decide_eq_true_eq] at hdue
  obtain ⟨hmbx, hle⟩ := hdue
  have := h j hj hmbx
  omega

/-- The steps that a command does not take at the next boundary. -/
def laterSteps (s : State) (i : Nat) : List JStep := s.journal.filter fun j => !(j.mbx == i && decide (j.beat ≤ beat s + 1))

theorem beat_lt_of_laterSteps {s : State} {i : Nat} {j : JStep} (hj : j ∈ laterSteps s i) (hmbx : j.mbx = i) :
    beat s + 1 < j.beat := by
  obtain ⟨-, hlate⟩ := List.mem_filter.1 hj
  simpa [hmbx] using hlate

theorem length_laterSteps (s : State) (i : Nat) : (laterSteps s i).length + (dueSteps s i).length = s.journal.length := by
  rw [Nat.add_comm]
  exact (List.length_eq_length_filter_add _).symm

theorem laterSteps_of_dueSteps_nil {s : State} {i : Nat} (h : dueSteps s i = []) : laterSteps s i = s.journal := by
  rw [dueSteps, List.filter_eq_nil_iff] at h
  exact List.filter_eq_self.2 fun j hj => by simpa [imp_iff_not_or] using h j hj

/-- Steps staged again name the boundary after the next. -/
def stagedAgain (s : State) (j : JStep) : JStep := { j with beat := beat s + 2 }

theorem commandStep_of_uncommitted {s : State} {i : Nat} (h : s.assayer.abandon = false) : commandStep i false s =
    { s with journal := laterSteps s i ++ (dueSteps s i).map (stagedAgain s) } := by
  by_cases hnone : dueSteps s i = []
  · have hlater := laterSteps_of_dueSteps_nil hnone
    simp [commandStep, hnone, hlater]
  · simp [commandStep, hnone, h, laterSteps, stagedAgain]

theorem foldl_addDue (b : Nat) (l : List JStep) (s : State) : l.foldl (fun a j => addDue b (actStep j.act) j.act a) s =
    { s with due := s.due ++ l.map fun j => ⟨b, actStep j.act, j.act⟩ } := by
  induction l generalizing s with
  | nil => simp
  | cons j r ih =>
    rw [List.foldl_cons, ih]
    simp [addDue]

theorem commandStep_of_committed {s : State} {i : Nat} (h : s.assayer.abandon = false) : commandStep i true s =
    { s with journal := laterSteps s i
             due := s.due ++ (dueSteps s i).map fun j => ⟨beat s + 1, actStep j.act, j.act⟩ } := by
  by_cases hnone : dueSteps s i = []
  · have hlater := laterSteps_of_dueSteps_nil hnone
    simp [commandStep, hnone, hlater]
  · simp only [commandStep, hnone, h, if_false, if_true, false_and, Bool.false_eq_true, foldl_addDue]
    rfl

theorem commandStep_of_abandoned {s : State} {i : Nat} (c : Bool) (h : s.assayer.abandon = true)
    (hgate : (gateOf (argCode (mbxOf s i).copy)).isSome = true) (hdue : dueSteps s i ≠ []) : commandStep i c s =
      stageRefused i 5 (modAssayer (fun a => { a with abandon := false })
        { s with journal := s.journal.filter fun j => j.mbx != i }) := by
  rw [commandStep, if_neg hdue, if_pos ⟨h, hgate⟩]

/-! ## The guard interrupt (R326) -/

/-- Clerk cycle 1,350 at one core. -/
def guardCore (a : State) (c : Nat) : State :=
  if clkLive a c then
    let b := clkIrq 1 0 (wr (clerkSliceCycle c) (max 1350 (rd a (clerkSliceCycle c))) a) c
    if (clkOf a c).st = ClkSt.waiting then b else bump (clerkSliceOverruns c) 1 b
  else a

/-- What the guard interrupt reads and writes of a core. -/
def guardView (c : Nat) (s : State) : ClkCore × Nat × Nat × Nat :=
  (clkOf s c, rd s (clerkIpPending c), rd s (clerkSliceCycle c), rd s (clerkSliceOverruns c))

theorem clkOf_clkIrq_ne {a c : Nat} (h : c ≠ a) (code val : Nat) (s : State) : clkOf (clkIrq code val s a) c = clkOf s c := by
  unfold clkIrq
  split
  · exact setClk_clkOf_ne a _ s c h
  · rfl

/-- The registers of different Clerk cores stand in different blocks. -/
theorem clerkFields_ne {a c : Nat} (h : a ≠ c) {f g : Fld}
    (hf : f ∈ [clerkIpPending c, clerkSliceCycle c, clerkSliceOverruns c])
    (hg : g ∈ [clerkIpPending a, clerkSliceCycle a, clerkSliceOverruns a]) : fkey f ≠ fkey g := by
  simp only [List.mem_cons, List.not_mem_nil, or_false] at hf hg
  rcases hf with rfl | rfl | rfl <;> rcases hg with rfl | rfl | rfl <;>
    simp only [fkey, clerkIpPending, clerkSliceCycle, clerkSliceOverruns] <;> omega

theorem guardCore_otherFields (s : State) (a : Nat) :
    otherFields [clerkIpPending a, clerkSliceCycle a, clerkSliceOverruns a] s (guardCore s a) := by
  have hirq : otherFields [clerkIpPending a, clerkSliceCycle a, clerkSliceOverruns a] s
      (clkIrq 1 0 (wr (clerkSliceCycle a) (max 1350 (rd s (clerkSliceCycle a))) s) a) := fun f hf => by
    rw [rd_clkIrq _ _ _ _ _ (hf _ List.mem_cons_self)]
    exact (otherFields_refl _ s).wr (by simp) _ f hf
  unfold guardCore
  split
  · simp only []
    split
    · exact hirq
    · exact hirq.bump (by simp) 1
  · exact otherFields_refl _ s

theorem clkOf_guardCore_ne {a c : Nat} (h : c ≠ a) (s : State) : clkOf (guardCore s a) c = clkOf s c := by
  have hirq := clkOf_clkIrq_ne h 1 0 (wr (clerkSliceCycle a) (max 1350 (rd s (clerkSliceCycle a))) s)
  unfold guardCore
  split
  · simp only []
    split
    · exact hirq
    · exact hirq
  · rfl

theorem guardView_guardCore_ne (c : Nat) (s : State) (a : Nat) (h : a ≠ c) : guardView c (guardCore s a) = guardView c s := by
  have hread : ∀ f ∈ [clerkIpPending c, clerkSliceCycle c, clerkSliceOverruns c], rd (guardCore s a) f = rd s f :=
    fun f hf => guardCore_otherFields s a f fun g hg => clerkFields_ne h hf hg
  rw [guardView, guardView, clkOf_guardCore_ne h.symm, hread _ (by simp), hread _ (by simp), hread _ (by simp)]

theorem guardCore_of_not_live {s : State} {c : Nat} (h : clkLive s c = false) : guardCore s c = s := if_neg (by simp [h])

/-- A live core: interrupt 1 pends, the cycle count stands at 1,350 or above, and a core not in WAIT has overrun. -/
theorem guardCore_of_live {s : State} {c : Nat} (h : clkLive s c = true) :
    rd (guardCore s c) (clerkIpPending c) = (rd s (clerkIpPending c) ||| 2) % 2 ^ (clerkIpPending c).w ∧
    rd (guardCore s c) (clerkSliceCycle c) = max 1350 (rd s (clerkSliceCycle c)) % 2 ^ (clerkSliceCycle c).w ∧
    rd (guardCore s c) (clerkSliceOverruns c) = if (clkOf s c).st = .waiting then rd s (clerkSliceOverruns c)
      else min (rd s (clerkSliceOverruns c) + 1) (2 ^ (clerkSliceOverruns c).w - 1) := by
  have hps : fkey (clerkIpPending c) ≠ fkey (clerkSliceCycle c) := by simp only [fkey, clerkIpPending, clerkSliceCycle]; omega
  have hpo : fkey (clerkIpPending c) ≠ fkey (clerkSliceOverruns c) := by
    simp only [fkey, clerkIpPending, clerkSliceOverruns]
    omega
  have hso : fkey (clerkSliceCycle c) ≠ fkey (clerkSliceOverruns c) := by
    simp only [fkey, clerkSliceCycle, clerkSliceOverruns]
    omega
  have hirq : ∃ y, clkIrq 1 0 (wr (clerkSliceCycle c) (max 1350 (rd s (clerkSliceCycle c))) s) c =
      wr (clerkIpPending c) (rd s (clerkIpPending c) ||| 2) y ∧
      y.regs = (wr (clerkSliceCycle c) (max 1350 (rd s (clerkSliceCycle c))) s).regs :=
    ⟨modClk c (fun r => { r with why := tset 0 r.why 1 0 }) (wr (clerkSliceCycle c) (max 1350 (rd s (clerkSliceCycle c))) s),
      (if_pos h).trans (by rw [rd_wr_ne _ _ _ _ hps, Nat.pow_one]), rfl⟩
  obtain ⟨y, hy, hregs⟩ := hirq
  have hread : ∀ f, fkey f ≠ fkey (clerkIpPending c) → rd (wr (clerkIpPending c) (rd s (clerkIpPending c) ||| 2) y) f =
      rd (wr (clerkSliceCycle c) (max 1350 (rd s (clerkSliceCycle c))) s) f := fun f hf => by
    rw [rd_wr_ne _ _ _ _ hf, rd, rd, hregs]
  rw [guardCore, if_pos h]
  simp only [hy]
  split
  · exact ⟨rd_wr_same _ _ _, by rw [hread _ hps.symm, rd_wr_same], by rw [hread _ hpo.symm, rd_wr_ne _ _ _ _ hso.symm]⟩
  · exact ⟨by rw [rd_bump_ne _ _ _ _ hpo, rd_wr_same], by rw [rd_bump_ne _ _ _ _ hso, hread _ hps.symm, rd_wr_same],
      by rw [rd_bump_same, hread _ hpo.symm, rd_wr_ne _ _ _ _ hso.symm]⟩

theorem guardInterrupt_eq (s : State) : guardInterrupt s = (clerkCores ++ [8, 9]).foldl guardCore s := rfl

/-- The guard interrupt does at each core what it does at that core alone. -/
theorem guardView_guardInterrupt {c : Nat} (hc : c < 10) (s : State) :
    ∃ y, guardView c y = guardView c s ∧ guardView c (guardInterrupt s) = guardView c (guardCore y c) := by
  have hmem : c ∈ clerkCores ++ [8, 9] := by
    simp only [clerkCores, List.cons_append, List.nil_append, List.mem_cons, List.not_mem_nil, or_false]
    omega
  rw [guardInterrupt_eq]
  exact foldl_at (guardView c) (guardView_guardCore_ne c) (by decide) hmem s

theorem guardInterrupt_at {c : Nat} (hc : c < 10) (s : State) :
    (clkLive s c = true →
      rd (guardInterrupt s) (clerkIpPending c) = (rd s (clerkIpPending c) ||| 2) % 2 ^ (clerkIpPending c).w ∧
      rd (guardInterrupt s) (clerkSliceCycle c) = max 1350 (rd s (clerkSliceCycle c)) % 2 ^ (clerkSliceCycle c).w ∧
      ((clkOf s c).st = .running → counted (clerkSliceOverruns c) 1 s (guardInterrupt s)) ∧
      ((clkOf s c).st = .waiting → rd (guardInterrupt s) (clerkSliceOverruns c) = rd s (clerkSliceOverruns c))) ∧
    (clkLive s c = false → clkOf (guardInterrupt s) c = clkOf s c ∧
      rd (guardInterrupt s) (clerkIpPending c) = rd s (clerkIpPending c) ∧
      rd (guardInterrupt s) (clerkSliceCycle c) = rd s (clerkSliceCycle c)) := by
  obtain ⟨y, hy, hfold⟩ := guardView_guardInterrupt hc s
  simp only [guardView, Prod.mk.injEq] at hy hfold
  obtain ⟨hclk, hpend, hcycle, hover⟩ := hy
  obtain ⟨hclk', hpend', hcycle', hover'⟩ := hfold
  rw [counted, hclk', hpend', hcycle', hover']
  have hlive : clkLive y c = clkLive s c := by rw [clkLive, clkLive, hclk]
  refine ⟨fun h => ?_, fun h => ?_⟩
  · obtain ⟨hp, hs, ho⟩ := guardCore_of_live (hlive.trans h)
    rw [hp, hs, ho, hpend, hcycle, hover, hclk]
    refine ⟨rfl, rfl, fun hrun => ?_, fun hwait => ?_⟩
    · rw [hrun, if_neg (by decide)]
    · rw [hwait, if_pos rfl]
  · rw [guardCore_of_not_live (hlive.trans h)]
    exact ⟨hclk, hpend, hcycle⟩

/-- Settles O11: the boundary is the composition of its steps, a step's due actions fold in the order of their ranks, and a
command's steps are split by their beat. -/
theorem boundariesAndCommandSteps : Obligations.BoundariesAndCommandSteps := by
  refine ⟨fun s b => ⟨fun h => ?_, fun hdorm hvin hoff hstart => ?_, fun d k hdue hk hbeat => ?_,
    fun d e k hdue hd he hdb heb => ?_⟩, fun s => ⟨fun i c hnone => ?_, fun i habandon => ?_, fun i habandon => ?_,
    fun i c habandon hgate hdue => ?_, ?_⟩⟩
  · exact congrArg Host.Outcome.next (boundary_of_not_runs (beatRuns_eq_false h) b)
  · exact ⟨_, _, _, _, _, _, _, rfl, rfl, rfl, rfl, rfl, rfl, rfl,
      congrArg Host.Outcome.next (if_pos (beatRuns_eq_true hdorm hvin hoff hstart))⟩
  · exact applyDue_one hdue hk hbeat
  · exact applyDue_two hdue hd he hdb heb
  · exact congrArg Host.Outcome.next (if_pos hnone)
  · refine ⟨_, congrArg Host.Outcome.next (commandStep_of_uncommitted habandon), fun j hj => ?_, ?_, rfl, rfl, ?_⟩
    · exact List.mem_append_right _ (List.mem_map.2 ⟨j, hj, rfl⟩)
    · refine dueSteps_of_journal (s := s) rfl fun j hj hmbx => ?_
      rcases List.mem_append.1 hj with h | h
      · exact beat_lt_of_laterSteps h hmbx
      · obtain ⟨k, -, rfl⟩ := List.mem_map.1 h
        exact Nat.lt_succ_self _
    · rw [List.length_append, List.length_map]
      exact length_laterSteps s i
  · exact ⟨_, congrArg Host.Outcome.next (commandStep_of_committed habandon),
      dueSteps_of_journal (s := s) rfl fun j hj hmbx => beat_lt_of_laterSteps hj hmbx, rfl, rfl, rfl, rfl, rfl⟩
  · refine ⟨_, congrArg Host.Outcome.next (commandStep_of_abandoned c habandon hgate hdue), rfl, fun j hj => ?_,
      congrArg Mbx.staged (setMbx_mbxOf_same _ _ _)⟩
    simpa using (List.mem_filter.1 hj).2
  · exact ⟨_, rfl, fun c hc => guardInterrupt_at hc s⟩

end Sys2Proof.Machine
end

section
/-! The Clerk core (R315 to R323): what fetch, the completion of an instruction, a trap and a resolved branch make of a core. -/
set_option Elab.async false
namespace Sys2Proof.Machine

/-! ## Places of the fields of a core's block -/

/-- The block of core c, in the key of its first bit. -/
def clkBlock (c : Nat) : Nat := 0x4000000000 + c * 0x4000

@[simp] theorem fkey_clerkStatusIe (c : Nat) : fkey (clerkStatusIe c) = clkBlock c + 256 := by
  simp only [fkey, clerkStatusIe, clkBlock]
  omega

@[simp] theorem fkey_clerkStatusPie (c : Nat) : fkey (clerkStatusPie c) = clkBlock c + 257 := by
  simp only [fkey, clerkStatusPie, clkBlock]
  omega

@[simp] theorem fkey_clerkEpcEpc (c : Nat) : fkey (clerkEpcEpc c) = clkBlock c + 512 := by
  simp only [fkey, clerkEpcEpc, clkBlock]
  omega

@[simp] theorem fkey_clerkCauseCode (c : Nat) : fkey (clerkCauseCode c) = clkBlock c + 768 := by
  simp only [fkey, clerkCauseCode, clkBlock]
  omega

@[simp] theorem fkey_clerkCauseBd (c : Nat) : fkey (clerkCauseBd c) = clkBlock c + 773 := by
  simp only [fkey, clerkCauseBd, clkBlock]
  omega

@[simp] theorem fkey_clerkCauseTaken (c : Nat) : fkey (clerkCauseTaken c) = clkBlock c + 774 := by
  simp only [fkey, clerkCauseTaken, clkBlock]
  omega

@[simp] theorem fkey_clerkCauseInterrupt (c : Nat) : fkey (clerkCauseInterrupt c) = clkBlock c + 775 := by
  simp only [fkey, clerkCauseInterrupt, clkBlock]
  omega

@[simp] theorem fkey_clerkBtargetTarget (c : Nat) : fkey (clerkBtargetTarget c) = clkBlock c + 1024 := by
  simp only [fkey, clerkBtargetTarget, clkBlock]
  omega

@[simp] theorem fkey_clerkTvalValue (c : Nat) : fkey (clerkTvalValue c) = clkBlock c + 1280 := by
  simp only [fkey, clerkTvalValue, clkBlock]
  omega

@[simp] theorem fkey_clerkVectorBase (c : Nat) : fkey (clerkVectorBase c) = clkBlock c + 1548 := by
  simp only [fkey, clerkVectorBase, clkBlock]
  omega

@[simp] theorem fkey_clerkIpPending (c : Nat) : fkey (clerkIpPending c) = clkBlock c + 2048 := by
  simp only [fkey, clerkIpPending, clkBlock]
  omega

@[simp] theorem fkey_clerkSliceCycle (c : Nat) : fkey (clerkSliceCycle c) = clkBlock c + 2304 := by
  simp only [fkey, clerkSliceCycle, clkBlock]
  omega

@[simp] theorem fkey_clerkSliceOverruns (c : Nat) : fkey (clerkSliceOverruns c) = clkBlock c + 2320 := by
  simp only [fkey, clerkSliceOverruns, clkBlock]
  omega

@[simp] theorem fkey_clerkMstatOutstanding (c : Nat) : fkey (clerkMstatOutstanding c) = clkBlock c + 3584 := by
  simp only [fkey, clerkMstatOutstanding, clkBlock]
  omega

@[simp] theorem fkey_clerkMstatErr (c : Nat) : fkey (clerkMstatErr c) = clkBlock c + 3588 := by
  simp only [fkey, clerkMstatErr, clkBlock]
  omega

@[simp] theorem fkey_clerkMerrAddress (c : Nat) : fkey (clerkMerrAddress c) = clkBlock c + 3840 := by
  simp only [fkey, clerkMerrAddress, clkBlock]
  omega

@[simp] theorem fkey_clerkTossClaim (c : Nat) : fkey (clerkTossClaim c) = clkBlock c + 4353 := by
  simp only [fkey, clerkTossClaim, clkBlock]
  omega

@[simp] theorem fkey_clerkTossForcedJunior (c : Nat) : fkey (clerkTossForcedJunior c) = clkBlock c + 4354 := by
  simp only [fkey, clerkTossForcedJunior, clkBlock]
  omega

@[simp] theorem fkey_clerkTossEvent (c : Nat) : fkey (clerkTossEvent c) = clkBlock c + 4360 := by
  simp only [fkey, clerkTossEvent, clkBlock]
  omega

/-! ## A core's record -/

theorem clkOf_modClk_same (c : Nat) (f : ClkCore → ClkCore) (s : State) : clkOf (modClk c f s) c = f (clkOf s c) :=
  setClk_clkOf_same c _ s

theorem clkOf_modClk_ne {c k : Nat} (h : k ≠ c) (f : ClkCore → ClkCore) (s : State) : clkOf (modClk c f s) k = clkOf s k :=
  setClk_clkOf_ne c _ s k h

/-- r with more words fetched: only the fetch path of the core moves. -/
def refetched (r : ClkCore) (f : List (Nat × Option Nat)) (p : Nat) (a : Option Nat) : ClkCore :=
  { r with fetch := f, path := p, ahead := a }

theorem fetchNext_eq (c : Nat) (r : ClkCore) : ∃ p a, fetchNext c r = refetched r (r.fetch ++ [(r.path, fetchWord c r r.path)]) p a := by
  unfold fetchNext
  cases r.ahead with
  | some t => exact ⟨_, _, rfl⟩
  | none => exact ⟨_, _, rfl⟩

/-- Refilling the buffer only appends to what has been fetched. -/
theorem refill_eq (c n : Nat) (r : ClkCore) : ∃ more p a, refill c n r = refetched r (r.fetch ++ more) p a := by
  induction n generalizing r with
  | zero => exact ⟨[], r.path, r.ahead, by simp [refill, refetched]⟩
  | succ n ih =>
    unfold refill
    split
    · obtain ⟨p, a, hnext⟩ := fetchNext_eq c r
      obtain ⟨more, q, b, hmore⟩ := ih (fetchNext c r)
      refine ⟨(r.path, fetchWord c r r.path) :: more, q, b, ?_⟩
      rw [hmore, hnext]
      simp [refetched]
    · exact ⟨[], r.path, r.ahead, by simp [refetched]⟩

/-- Fetch restarts at a and, where a target is given, goes on there. -/
theorem restart_eq (c a : Nat) (t : Option Nat) (r : ClkCore) : ∃ f p b, restart c a t r = refetched r f p b ∧
    f.head?.map (·.1) = some (a % 2 ^ 32) ∧ ∀ x, t = some x → (f.map (·.1)).take 2 = [a % 2 ^ 32, x] := by
  have hfirst : ∃ p b, restart c a t r = refill c 2 (refetched r [(a % 2 ^ 32, fetchWord c r (a % 2 ^ 32))] p b) ∧
      ∀ x, t = some x → p = x := by
    unfold restart
    cases t with
    | none => exact ⟨_, _, rfl, nofun⟩
    | some x => exact ⟨x, none, rfl, fun _ h => Option.some.inj h⟩
  obtain ⟨p, b, hfirst, hpath⟩ := hfirst
  obtain ⟨q, d, hsecond⟩ := fetchNext_eq c (refetched r [(a % 2 ^ 32, fetchWord c r (a % 2 ^ 32))] p b)
  have hrest : restart c a t r = refill c 1 (fetchNext c (refetched r [(a % 2 ^ 32, fetchWord c r (a % 2 ^ 32))] p b)) := hfirst
  obtain ⟨more, e, g, hmore⟩ := refill_eq c 1 (fetchNext c (refetched r [(a % 2 ^ 32, fetchWord c r (a % 2 ^ 32))] p b))
  rw [hmore, hsecond] at hrest
  refine ⟨_, e, g, hrest, rfl, fun x hx => ?_⟩
  rw [← hpath x hx]
  rfl

/-! ## Registers of a core -/

theorem tget_putW {i : Nat} (hi : i ≠ 0) (w : Table Nat) (d v : Nat) :
    tget 0 (putW w d v) i = if i = d then v % 2 ^ 32 else tget 0 w i := by
  unfold putW
  split
  · next hd => rw [if_neg (by omega)]
  · exact tget_tset _ _ _ _ _

theorem regsAfter_of_w {c : Nat} {res : Option (Nat × Nat)} {s t : State}
    (h : (clkOf t c).w = putOpt (putOpt (clkOf s c).w (clkOf s c).load) res) : regsAfter c res s t := by
  have hpend : ∀ i, i ≠ 0 → tget 0 (putOpt (clkOf s c).w (clkOf s c).load) i = regsAfter.pendingOr c s i := by
    intro i hi
    unfold regsAfter.pendingOr regW putOpt
    cases (clkOf s c).load with
    | none => simp [hi]
    | some e => simp [hi, tget_putW hi]
  intro i hi
  rw [regW, if_neg hi, h, ← hpend i hi]
  cases res with
  | none => rfl
  | some e => exact tget_putW hi _ _ _

/-! ## Cycles -/

theorem rd_tick_same (c n : Nat) (s : State) : rd (tick c n s) (clerkSliceCycle c) = min 1499 (rd s (clerkSliceCycle c) + n) := by
  rw [tick, rd_wr_same]
  exact Nat.mod_eq_of_lt (Nat.lt_of_le_of_lt (Nat.min_le_left _ _) (show (1499 : Nat) < 2 ^ 12 by decide))

theorem otherFields.tick {l : List Fld} {s t : State} (h : otherFields l s t) {c : Nat} (hc : clerkSliceCycle c ∈ l) (n : Nat) :
    otherFields l s (tick c n t) := h.wr hc _

/-! ## Issue -/

/-- The core's record and the registers as the instruction in the latch finds them: y may differ from s in what the core's SRAM
and its outstanding accesses hold. -/
structure Issued (c : Nat) (s y : State) : Prop where
  core : ∃ m o, clkOf y c = { clkOf s c with sram := m, outst := o }
  others : otherCores c s y
  regs : y.regs = s.regs

theorem Issued.of_clkOf {c : Nat} {s y : State} (h : ∀ k, clkOf y k = clkOf s k) (hregs : y.regs = s.regs) : Issued c s y :=
  ⟨⟨_, _, h c⟩, fun k _ => h k, hregs⟩

theorem rd_of_regs {s y : State} (h : y.regs = s.regs) (f : Fld) : rd y f = rd s f := by rw [rd, rd, h]

/-- The state in which the instruction in the latch acts. -/
def issuing (c : Nat) (s : State) : State := modClk c (fun q => { q with st := .running }) s

theorem clkOf_issuing {c : Nat} {s : State} (h : (clkOf s c).st = .running) (k : Nat) : clkOf (issuing c s) k = clkOf s k := by
  by_cases hk : k = c
  · subst hk
    rw [issuing, clkOf_modClk_same, ← h]
  · exact clkOf_modClk_ne hk _ s

theorem issuing_regs (c : Nat) (s : State) : (issuing c s).regs = s.regs := rfl

theorem issued_issuing {c : Nat} {s : State} (h : (clkOf s c).st = .running) : Issued c s (issuing c s) :=
  .of_clkOf (clkOf_issuing h) (issuing_regs c s)

theorem clkIssue_of_match {s : State} {c a w : Nat} (hat : clkAt s c a w) (hdef : definedWord w = true) {m : Nat → Bool}
    (hm : m w = true) (f : Nat → ClkCore → State → State) : clkIssue c m f s = f a (clkOf s c) (issuing c s) := by
  obtain ⟨hrun, rest, hfetch⟩ := hat
  simp only [clkIssue, hrun, true_or, if_true, hfetch, hdef, Bool.true_eq_false, if_false, hm]
  rfl

/-! ## Completion -/

/-- The core's record after an instruction, before its buffer is filled again. -/
def afterInstr (res ld : Option (Nat × Nat)) (r : ClkCore) : ClkCore :=
  { r with w := putOpt (putOpt r.w r.load) res, load := ld, fetch := r.fetch.tail, slot := none }

/-- An instruction that completes retires, and leaves the SRAM and the accesses that its own effect has left (R315 to R317). -/
theorem complete_retires {c cost : Nat} {res ld : Option (Nat × Nat)} {s y : State} (h : Issued c s y) :
    retires c cost res ld s (complete c cost res ld y) ∧ (clkOf (complete c cost res ld y) c).sram = (clkOf y c).sram ∧
      (clkOf (complete c cost res ld y) c).outst = (clkOf y c).outst ∧
      otherFields [clerkSliceCycle c] s (complete c cost res ld y) := by
  obtain ⟨⟨m, o, hcore⟩, hothers, hregs⟩ := h
  obtain ⟨more, p, a, hrefill⟩ := refill_eq c 3 (afterInstr res ld (clkOf y c))
  have hself : clkOf (complete c cost res ld y) c =
      refetched (afterInstr res ld (clkOf y c)) ((clkOf y c).fetch.tail ++ more) p a := by
    show clkOf (modClk c (fun r => refill c 3 (afterInstr res ld r)) y) c = _
    rw [clkOf_modClk_same, hrefill]
    rfl
  have hread : rd (complete c cost res ld y) (clerkSliceCycle c) = min 1499 (rd s (clerkSliceCycle c) + cost) := by
    rw [complete, rd_tick_same, ← rd_of_regs hregs]
    rfl
  refine ⟨⟨regsAfter_of_w ?_, ?_, ?_, ?_, hread, fun k hk => ?_⟩, ?_, ?_, ?_⟩
  · rw [hself, hcore]
    rfl
  · rw [hself]
    rfl
  · rw [hself]
    rfl
  · rw [hself, hcore]
    exact List.prefix_append _ _
  · rw [← hothers k hk]
    exact clkOf_modClk_ne hk (fun r => refill c 3 (afterInstr res ld r)) y
  · rw [hself]
    rfl
  · rw [hself]
    rfl
  · exact otherFields.tick ((otherFields_refl _ s).of_regs hregs) List.mem_cons_self cost

/-- The same for an instruction that leaves the SRAM and the accesses alone. -/
theorem complete_local {c cost : Nat} {res ld : Option (Nat × Nat)} {s : State} (h : (clkOf s c).st = .running) :
    retires c cost res ld s (complete c cost res ld (issuing c s)) ∧ sameLocal c s (complete c cost res ld (issuing c s)) := by
  obtain ⟨hret, hsram, houtst, hfields⟩ := complete_retires (cost := cost) (res := res) (ld := ld) (issued_issuing h)
  rw [clkOf_issuing h] at hsram houtst
  exact ⟨hret, hsram, houtst, hfields⟩

/-! ## Traps (R322, R323) -/

/-- The fields that an exception writes. -/
def trapFields (c : Nat) : List Fld :=
  [clerkCauseCode c, clerkCauseInterrupt c, clerkCauseBd c, clerkCauseTaken c, clerkTvalValue c, clerkStatusIe c,
    clerkStatusPie c, clerkEpcEpc c, clerkBtargetTarget c, clerkSliceCycle c]

/-- The registers that every exception saves. -/
def trapBase (c code tval epc : Nat) (bd : Bool) (s : State) : State :=
  wr (clerkEpcEpc c) epc (wr (clerkCauseCode c) code (wrB (clerkCauseBd c) bd (wr (clerkCauseInterrupt c) 0
    (wr (clerkTvalValue c) tval (wr (clerkStatusPie c) (rd s (clerkStatusIe c)) (wr (clerkStatusIe c) 0 s))))))

/-- The registers that an exception of the core with record r saves. -/
def trapSave (c code tval : Nat) (r : ClkCore) (s : State) : State :=
  match r.slot with
  | some q => wr (clerkBtargetTarget c) q.target (wrB (clerkCauseTaken c) q.taken (trapBase c code tval q.br true s))
  | none => wr (clerkCauseTaken c) 0 (trapBase c code tval ((r.fetch.head?.map (·.1)).getD 0) false s)

/-- The core's record when its handler starts at base. -/
def trapCore (c base code : Nat) (r : ClkCore) : ClkCore :=
  restart c (base * 4096 + code * 0x40) none { r with w := putOpt r.w r.load, load := none, slot := none, st := .running }

theorem clkTrap_eq (c code tval : Nat) (s : State) : clkTrap c code tval s =
    tick c 3 (setClk c (trapCore c (rd s (clerkVectorBase c)) code (clkOf s c)) (trapSave c code tval (clkOf s c) s)) := by
  unfold clkTrap trapSave trapBase trapCore
  cases hslot : (clkOf s c).slot with
  | none => simp only [hslot]; rfl
  | some q => simp only [hslot]; rfl

theorem trapBase_otherFields (c code tval epc : Nat) (bd : Bool) (s : State) :
    otherFields (trapFields c) s (trapBase c code tval epc bd s) := by
  refine otherFields.wr (otherFields.wr (otherFields.wrB (otherFields.wr (otherFields.wr (otherFields.wr (otherFields.wr
    (otherFields_refl _ s) ?_ _) ?_ _) ?_ _) ?_ _) ?_ _) ?_ _) ?_ _ <;> simp [trapFields]

theorem trapSave_otherFields (c code tval : Nat) (r : ClkCore) (s : State) :
    otherFields (trapFields c) s (trapSave c code tval r s) := by
  unfold trapSave
  split
  · exact otherFields.wr (otherFields.wrB (trapBase_otherFields _ _ _ _ _ _) (by simp [trapFields]) _) (by simp [trapFields]) _
  · exact otherFields.wr (trapBase_otherFields _ _ _ _ _ _) (by simp [trapFields]) _

theorem rd_trapSave (c code tval : Nat) (r : ClkCore) (s : State) :
    rd (trapSave c code tval r s) (clerkCauseCode c) = code % 2 ^ 5 ∧ rd (trapSave c code tval r s) (clerkCauseInterrupt c) = 0 ∧
    rd (trapSave c code tval r s) (clerkTvalValue c) = tval % 2 ^ 32 ∧ rd (trapSave c code tval r s) (clerkStatusIe c) = 0 ∧
    rd (trapSave c code tval r s) (clerkStatusPie c) = rd s (clerkStatusIe c) % 2 ∧
    rd (trapSave c code tval r s) (clerkSliceCycle c) = rd s (clerkSliceCycle c) := by
  unfold trapSave
  split
  all_goals
    simp only [trapBase, wrB]
    refine ⟨?_, ?_, ?_, ?_, ?_, ?_⟩
    all_goals simp [rd_wr_ne]
    all_goals rfl

/-- Where an exception says it was taken: in a delay slot the branch and where it goes. -/
theorem rd_trapSave_slot (c code tval : Nat) (r : ClkCore) (s : State) :
    match r.slot with
      | some q => rd (trapSave c code tval r s) (clerkEpcEpc c) = q.br % 2 ^ 32 ∧ rd (trapSave c code tval r s) (clerkCauseBd c) = 1 ∧
          rd (trapSave c code tval r s) (clerkCauseTaken c) = q.taken.toNat ∧
          rd (trapSave c code tval r s) (clerkBtargetTarget c) = q.target % 2 ^ 32
      | none => rd (trapSave c code tval r s) (clerkCauseBd c) = 0 ∧
          ∀ e, r.fetch.head? = some e → rd (trapSave c code tval r s) (clerkEpcEpc c) = e.1 % 2 ^ 32 := by
  unfold trapSave
  cases r.slot with
  | none =>
    simp only [trapBase, wrB]
    refine ⟨?_, fun e he => ?_⟩
    · simp [rd_wr_ne]
    · simp [rd_wr_ne, he]
      rfl
  | some q =>
    simp only [trapBase, wrB]
    refine ⟨?_, ?_, ?_, ?_⟩
    · simp [rd_wr_ne]
      rfl
    · simp [rd_wr_ne]
      exact Nat.one_pos
    · rw [rd_wr_ne _ _ _ _ (by simp), rd_wr_same]
      cases q.taken <;> rfl
    · simp
      rfl

/-- An exception in a state that shows the cores and the registers of s. -/
theorem trapped_clkTrap {c code tval : Nat} {s y : State} (hcode : code < 32) (hcores : ∀ k, clkOf y k = clkOf s k)
    (hregs : y.regs = s.regs) : trapped c code tval s (clkTrap c code tval y) := by
  have hrd : ∀ f, rd y f = rd s f := rd_of_regs hregs
  rw [clkTrap_eq, hcores c, hrd]
  have hbase := fun f h => (trapSave_otherFields c code tval (clkOf s c) y f h).trans (hrd f)
  obtain ⟨hcause, hint, htval, hie, hpie, hcycle⟩ := rd_trapSave c code tval (clkOf s c) y
  have hslot := rd_trapSave_slot c code tval (clkOf s c) y
  generalize hz : trapSave c code tval (clkOf s c) y = z at *
  have hzk : ∀ k, clkOf z k = clkOf s k := by
    intro k
    rw [← hcores k, ← hz]
    unfold trapSave
    split <;> simp [trapBase, wrB]
  obtain ⟨f, p, b, hrestart, hhead, -⟩ := restart_eq c (rd s (clerkVectorBase c) * 4096 + code * 0x40) none
    { clkOf s c with w := putOpt (clkOf s c).w (clkOf s c).load, load := none, slot := none, st := .running }
  have hself : clkOf (tick c 3 (setClk c (trapCore c (rd s (clerkVectorBase c)) code (clkOf s c)) z)) c = _ :=
    (setClk_clkOf_same c _ z).trans hrestart
  have hread : ∀ g, fkey (clerkSliceCycle c) ≠ fkey g →
      rd (tick c 3 (setClk c (trapCore c (rd s (clerkVectorBase c)) code (clkOf s c)) z)) g = rd z g :=
    fun g hg => rd_wr_ne _ _ _ _ hg.symm
  refine ⟨?_, ?_, ?_, ?_, ?_, ?_, ?_, ?_, ?_, ?_, ?_, ?_, ?_, ?_, ?_, ?_⟩
  · rw [hread _ (by simp), hcause]
    exact Nat.mod_eq_of_lt hcode
  · rw [hread _ (by simp), hint]
  · rw [hread _ (by simp), htval]
  · rw [hread _ (by simp), hie]
  · rw [hread _ (by simp), hpie, hrd]
  · cases hs : (clkOf s c).slot with
    | none =>
      rw [hs] at hslot
      obtain ⟨hbd, hepc⟩ := hslot
      exact ⟨(hread _ (by simp)).trans hbd, fun e he => (hread _ (by simp)).trans (hepc e he)⟩
    | some q =>
      rw [hs] at hslot
      obtain ⟨hepc, hbd, htaken, htarget⟩ := hslot
      exact ⟨(hread _ (by simp)).trans hepc, (hread _ (by simp)).trans hbd, (hread _ (by simp)).trans htaken,
        (hread _ (by simp)).trans htarget⟩
  · rw [hself]
    exact hhead
  · refine regsAfter_of_w ?_
    rw [hself]
    rfl
  · rw [hself]
    rfl
  · rw [hself]
    rfl
  · rw [hself]
    rfl
  · rw [hself]
    rfl
  · rw [hself]
    rfl
  · show rd (tick c 3 _) _ = _
    rw [rd_tick_same, ← hrd (clerkSliceCycle c), ← hcycle]
    rfl
  · intro k hk
    rw [← hzk k]
    exact setClk_clkOf_ne c _ z k hk
  · intro g hg
    rw [hread _ (fun h => hg _ (by simp) h.symm)]
    exact hbase g hg

/-! ## Which words issue -/

theorem isAlu_op {fn wd wa wb w : Nat} (h : isAlu fn wd wa wb w = true) : opOf w = 0 ∧ fieldFn w = fn := by
  simp only [isAlu, Bool.and_eq_true, beq_iff_eq] at h
  obtain ⟨⟨⟨⟨hop, hfn⟩, -⟩, -⟩, -⟩ := h
  exact ⟨hop, hfn⟩

theorem isShift_op {fn wd wa sh w : Nat} (h : isShift fn wd wa sh w = true) : opOf w = 0 ∧ fieldFn w = fn := by
  simp only [isShift, Bool.and_eq_true, beq_iff_eq] at h
  obtain ⟨⟨⟨⟨hop, hfn⟩, -⟩, -⟩, -⟩ := h
  exact ⟨hop, hfn⟩

theorem isImm_op {op wd wa imm w : Nat} (h : isImm op wd wa imm w = true) : opOf w = op := by
  simp only [isImm, Bool.and_eq_true, beq_iff_eq] at h
  obtain ⟨⟨⟨hop, -⟩, -⟩, -⟩ := h
  exact hop

theorem isB_op {op wa wb an hi off w : Nat} (h : isB op wa wb an hi off w = true) : opOf w = op := by
  simp only [isB, Bool.and_eq_true, beq_iff_eq] at h
  obtain ⟨⟨⟨⟨⟨hop, -⟩, -⟩, -⟩, -⟩, -⟩ := h
  exact hop

theorem isJ_op {op off w : Nat} (h : isJ op off w = true) : opOf w = op := by
  simp only [isJ, Bool.and_eq_true, beq_iff_eq] at h
  exact h.1

/-- The function codes of Table 12.5 that opcode 0 defines. -/
def definedFn (fn : Nat) : Bool := [0, 1, 2, 4, 5, 6].contains fn || (decide (0x10 ≤ fn) && decide (fn ≤ 0x1B))

theorem definedWord_fn {w : Nat} (hop : opOf w = 0) (hfn : definedFn (fieldFn w) = true) : definedWord w = true := by
  rw [definedWord, if_pos hop]
  exact hfn

theorem definedWord_op {w : Nat} (hne : opOf w ≠ 0) (hlt : opOf w < 0x1E) : definedWord w = true := by
  rw [definedWord, if_neg hne, if_neg (by omega)]
  exact decide_eq_true hlt

end Sys2Proof.Machine
end

section
/-! The Clerk core's instructions (O13, O14, O15). -/
set_option Elab.async false
namespace Sys2Proof.Machine

/-! ## ALU, shift, immediate (Tables 12.4 and 12.5) -/

/-- An instruction that only writes a register completes as its function says. -/
theorem issue_result {s : State} {c a w : Nat} (hat : clkAt s c a w) (hdef : definedWord w = true) {m : Nat → Bool}
    (hm : m w = true) (res : ClkCore → Option (Nat × Nat)) {x : Option (Nat × Nat)} (hx : res (clkOf s c) = x) :
    sameLocal c s (clkIssue c m (fun _ r => complete c 1 (res r) none) s) ∧
      retires c 1 x none s (clkIssue c m (fun _ r => complete c 1 (res r) none) s) := by
  subst hx
  obtain ⟨hret, hlocal⟩ := complete_local (cost := 1) (res := res (clkOf s c)) (ld := none) hat.1
  rw [clkIssue_of_match hat hdef hm]
  exact ⟨hlocal, hret⟩

theorem aluOp_result {s : State} {c a w : Nat} (hat : clkAt s c a w) {fn wd wa wb : Nat} (hm : isAlu fn wd wa wb w = true)
    (hfn : definedFn fn = true) (f : Nat → Nat → Nat) {v : Nat} (hv : f (regW (clkOf s c) wa) (regW (clkOf s c) wb) = v) :
    sameLocal c s (aluOp c fn wd wa wb f s) ∧ retires c 1 (some (wd, v)) none s (aluOp c fn wd wa wb f s) :=
  have ⟨hop, hf⟩ := isAlu_op hm
  issue_result hat (definedWord_fn hop (hf ▸ hfn)) hm (fun r => some (wd, f (regW r wa) (regW r wb))) (by rw [hv])

theorem shiftOp_result {s : State} {c a w : Nat} (hat : clkAt s c a w) {fn wd wa sh : Nat} (hm : isShift fn wd wa sh w = true)
    (hfn : definedFn fn = true) (f : Nat → Nat) :
    sameLocal c s (shiftOp c fn wd wa sh f s) ∧
      retires c 1 (some (wd, f (regW (clkOf s c) wa))) none s (shiftOp c fn wd wa sh f s) :=
  have ⟨hop, hf⟩ := isShift_op hm
  issue_result hat (definedWord_fn hop (hf ▸ hfn)) hm (fun r => some (wd, f (regW r wa))) rfl

theorem isImm_defined {op wd wa imm w : Nat} (h : isImm op wd wa imm w = true) (hne : op ≠ 0) (hlt : op < 0x1E) :
    definedWord w = true := by
  have hop := isImm_op h
  exact definedWord_op (by omega) (by omega)

theorem immOp_result {s : State} {c a w : Nat} (hat : clkAt s c a w) {op wd wa imm : Nat} (hm : isImm op wd wa imm w = true)
    (hne : op ≠ 0) (hlt : op < 0x1E) (f : Nat → Nat) {v : Nat} (hv : f (regW (clkOf s c) wa) = v) :
    sameLocal c s (immOp c op wd wa imm f s) ∧ retires c 1 (some (wd, v)) none s (immOp c op wd wa imm f s) :=
  issue_result hat (isImm_defined hm hne hlt) hm (fun r => some (wd, f (regW r wa))) (by rw [hv])

theorem decide_toNat (p : Prop) [Decidable p] : (decide p).toNat = if p then 1 else 0 := by
  by_cases hp : p <;> simp [hp]

/-- Settles O13: each instruction is an issue whose result is its function of the registers. -/
theorem clerkArithmeticInstructions : Obligations.ClerkArithmeticInstructions := by
  unfold Obligations.ClerkArithmeticInstructions
  refine ⟨fun s c a w hat => ⟨?_, ?_, ?_, ?_, ?_, ?_, ?_, ?_, ?_, ?_, ?_, ?_, ?_, ?_⟩,
    fun s c a w hat => ⟨?_, ?_, ?_, ?_, ?_, ?_, ?_, ?_, ?_, ?_, ?_⟩⟩
  · exact fun wd wa wb hm => ⟨_, rfl, aluOp_result hat hm rfl _ rfl⟩
  · exact fun wd wa wb hm => ⟨_, rfl, aluOp_result hat hm rfl _ rfl⟩
  · exact fun wd wa wb hm => ⟨_, rfl, aluOp_result hat hm rfl _ rfl⟩
  · exact fun wd wa wb hm => ⟨_, rfl, aluOp_result hat hm rfl _ rfl⟩
  · exact fun wd wa wb hm => ⟨_, rfl, aluOp_result hat hm rfl _ rfl⟩
  · exact fun wd wa wb hm => ⟨_, rfl, aluOp_result hat hm rfl _ rfl⟩
  · exact fun wd wa wb hm => ⟨_, rfl, aluOp_result hat hm rfl _ rfl⟩
  · exact fun wd wa wb hm => ⟨_, rfl, aluOp_result hat hm rfl _ rfl⟩
  · exact fun wd wa wb hm => ⟨_, rfl, aluOp_result hat hm rfl _ rfl⟩
  · exact fun wd wa wb hm => ⟨_, rfl, aluOp_result hat hm rfl _ (decide_toNat _)⟩
  · exact fun wd wa wb hm => ⟨_, rfl, aluOp_result hat hm rfl _ (decide_toNat _)⟩
  · exact fun wd wa wb hm => ⟨_, rfl, aluOp_result hat hm rfl _ rfl⟩
  · exact fun wd wa wb hm => ⟨_, rfl, aluOp_result hat hm rfl _ rfl⟩
  · exact fun wd wa wb hm => ⟨_, rfl, aluOp_result hat hm rfl _ rfl⟩
  · exact fun wd wa sh hm => ⟨_, rfl, shiftOp_result hat hm rfl _⟩
  · exact fun wd wa sh hm => ⟨_, rfl, shiftOp_result hat hm rfl _⟩
  · exact fun wd wa sh hm => ⟨_, rfl, shiftOp_result hat hm rfl _⟩
  · intro wd wa hop hfn hd ha
    exact ⟨_, rfl, issue_result hat (definedWord_fn hop (hfn ▸ rfl)) (by simp [hop, hfn, hd, ha])
      (fun r => some (wd, clz (regW r wa))) rfl⟩
  · exact fun wd wa imm hm => ⟨_, rfl, immOp_result hat hm (by decide) (by decide) _ rfl⟩
  · exact fun wd wa imm hm => ⟨_, rfl, immOp_result hat hm (by decide) (by decide) _ rfl⟩
  · exact fun wd wa imm hm => ⟨_, rfl, immOp_result hat hm (by decide) (by decide) _ rfl⟩
  · exact fun wd wa imm hm => ⟨_, rfl, immOp_result hat hm (by decide) (by decide) _ rfl⟩
  · exact fun wd wa imm hm => ⟨_, rfl, immOp_result hat hm (by decide) (by decide) _ (decide_toNat _)⟩
  · exact fun wd wa imm hm => ⟨_, rfl, immOp_result hat hm (by decide) (by decide) _ (decide_toNat _)⟩
  · intro wd imm hop hd himm
    exact ⟨_, rfl, issue_result hat (definedWord_op (by omega) (by omega)) (by simp [hop, hd, himm])
      (fun _ => some (wd, imm * 2 ^ 16)) rfl⟩

/-! ## Loads and stores -/

theorem offAbsent_of_le {off : Nat} (h : 0x100000000 ≤ off) (s : State) : offAbsent s off = false := by
  unfold offAbsent
  repeat rw [if_neg (by omega)]

/-- A core's local registers read as their fields do: none of them stands in a unit that may be absent. -/
theorem regRead_of_regs {s y : State} (h : y.regs = s.regs) {off : Nat} (hoff : 0x100000000 ≤ off) :
    regRead y off = regRead s off := by
  have hrd : rd y = rd s := funext (rd_of_regs h)
  rw [regRead, regRead, offAbsent_of_le hoff, offAbsent_of_le hoff, hrd]

theorem le_localOff (c o : Nat) : 0x100000000 ≤ localOff c o := by
  unfold localOff
  omega

theorem clkLoad_of_same {s y : State} {c : Nat} (hcore : clkOf y c = clkOf s c) (hregs : y.regs = s.regs)
    (hassayer : y.assayer = s.assayer) (x n : Nat) : clkLoad y c x n = clkLoad s c x n := by
  simp only [clkLoad, hcore, hassayer, regRead_of_regs hregs (le_localOff _ _)]

/-- Whether a store finds a place depends on its address and width alone. -/
theorem clkStore_none_of_none {c x n v : Nat} {s : State} (h : clkStore c x n v s = none) (y : State) :
    clkStore c x n v y = none := by
  unfold clkStore at h ⊢
  split_ifs at h ⊢ <;> trivial

theorem clkStore_sram {c x n v : Nat} (h : x < sramSize c) (s : State) :
    clkStore c x n v s = some (modClk c (fun r => { r with sram := putLE r.sram x n (v % 256 ^ n) }) s) := by
  rw [clkStore, if_pos h]

theorem tget_putLE (b : Bytes) (off n v y : Nat) :
    tget 0 (putLE b off n v) y = if off ≤ y ∧ y < off + n then v / 256 ^ (y - off) % 256 else tget 0 b y := by
  induction n generalizing b off v with
  | zero => rw [putLE, if_neg (by omega)]
  | succ n ih =>
    rw [putLE, ih, tget_tset]
    by_cases hy : y = off
    · subst hy
      rw [if_neg (by omega), if_pos rfl, if_pos (by omega)]
      simp
    · by_cases hin : off + 1 ≤ y ∧ y < off + 1 + n
      · have hdist : y - off = y - (off + 1) + 1 := by omega
        rw [if_pos hin, if_pos (by omega), hdist, Nat.pow_succ', Nat.div_div_eq_div_mul]
      · rw [if_neg hin, if_neg hy, if_neg (by omega)]

theorem mod_pow_digit {v n k : Nat} (h : k < n) : v % 256 ^ n / 256 ^ k % 256 = v / 256 ^ k % 256 := by
  obtain ⟨d, rfl⟩ : ∃ d, n = k + 1 + d := ⟨n - (k + 1), by omega⟩
  rw [Nat.pow_add, Nat.pow_succ, Nat.mul_assoc, Nat.mod_mul_right_div_self, Nat.mod_mul_right_mod]

/-- A load as its address and what it finds say. -/
theorem loadOp_done {s : State} {c a w : Nat} (hat : clkAt s c a w) {op wd wa imm n : Nat} (hm : isImm op wd wa imm w = true)
    (hne : op ≠ 0) (hlt : op < 0x1E) (f : Nat → Nat) :
    (effAddr (clkOf s c) wa imm % n ≠ 0 → trapped c 17 (effAddr (clkOf s c) wa imm) s (loadOp c op wd wa imm n f s)) ∧
    (effAddr (clkOf s c) wa imm % n = 0 → clkLoad s c (effAddr (clkOf s c) wa imm) n = none →
      trapped c 18 (effAddr (clkOf s c) wa imm) s (loadOp c op wd wa imm n f s)) ∧
    (∀ v, effAddr (clkOf s c) wa imm % n = 0 → clkLoad s c (effAddr (clkOf s c) wa imm) n = some v →
      retires c 2 none (some (wd, f v)) s (loadOp c op wd wa imm n f s) ∧ sameLocal c s (loadOp c op wd wa imm n f s)) := by
  have hcores := clkOf_issuing hat.1
  have hload := clkLoad_of_same (hcores c) (issuing_regs c s) rfl
  rw [loadOp, clkIssue_of_match hat (isImm_defined hm hne hlt) hm]
  simp only [hload]
  refine ⟨fun hmis => ?_, fun hal hnone => ?_, fun v hal hsome => ?_⟩
  · rw [if_pos hmis]
    exact trapped_clkTrap (by decide) hcores (issuing_regs c s)
  · rw [if_neg (not_not.2 hal), hnone]
    exact trapped_clkTrap (by decide) hcores (issuing_regs c s)
  · rw [if_neg (not_not.2 hal), hsome]
    exact complete_local hat.1

/-- A store as its address says. -/
theorem storeOp_done {s : State} {c a w : Nat} (hat : clkAt s c a w) {op ws wa imm n : Nat} (hm : isImm op ws wa imm w = true)
    (hne : op ≠ 0) (hlt : op < 0x1E) :
    (effAddr (clkOf s c) wa imm % n ≠ 0 → trapped c 17 (effAddr (clkOf s c) wa imm) s (storeOp c op ws wa imm n s)) ∧
    (effAddr (clkOf s c) wa imm % n = 0 → effAddr (clkOf s c) wa imm < sramSize c →
      sramStored c (effAddr (clkOf s c) wa imm) n (regW (clkOf s c) ws) s (storeOp c op ws wa imm n s) ∧
      retires c 2 none none s (storeOp c op ws wa imm n s) ∧
      (clkOf (storeOp c op ws wa imm n s) c).outst = (clkOf s c).outst ∧
      otherFields [clerkSliceCycle c] s (storeOp c op ws wa imm n s)) ∧
    (∀ b, effAddr (clkOf s c) wa imm % n = 0 → sramSize c ≤ effAddr (clkOf s c) wa imm →
      clkStore c (effAddr (clkOf s c) wa imm) n (regW (clkOf s c) ws) (issuing c s) = some b →
      storeOp c op ws wa imm n s = complete c 2 none none b) ∧
    (effAddr (clkOf s c) wa imm % n = 0 → clkStore c (effAddr (clkOf s c) wa imm) n (regW (clkOf s c) ws) s = none →
      trapped c 18 (effAddr (clkOf s c) wa imm) s (storeOp c op ws wa imm n s)) := by
  have hcores := clkOf_issuing hat.1
  rw [storeOp, clkIssue_of_match hat (isImm_defined hm hne hlt) hm]
  simp only []
  generalize effAddr (clkOf s c) wa imm = x
  generalize regW (clkOf s c) ws = v
  refine ⟨fun hmis => ?_, fun hal hin => ?_, fun b hal _ hb => ?_, fun hal hnone => ?_⟩
  · rw [if_pos hmis]
    exact trapped_clkTrap (by decide) hcores (issuing_regs c s)
  · rw [if_neg (not_not.2 hal), clkStore_sram hin]
    have hself := clkOf_modClk_same c (fun r => { r with sram := putLE r.sram x n (v % 256 ^ n) }) (issuing c s)
    rw [hcores c] at hself
    obtain ⟨hret, hsram, houtst, hfields⟩ := complete_retires (cost := 2) (res := none) (ld := none)
      (y := modClk c (fun r => { r with sram := putLE r.sram x n (v % 256 ^ n) }) (issuing c s))
      ⟨⟨_, (clkOf s c).outst, hself⟩, fun k hk => (clkOf_modClk_ne hk _ _).trans (hcores k), issuing_regs c s⟩
    rw [hself] at hsram houtst
    refine ⟨fun y => ?_, hret, houtst, hfields⟩
    rw [hsram, tget_putLE]
    split
    · next hy => exact mod_pow_digit (by omega)
    · rfl
  · rw [if_neg (not_not.2 hal), hb]
  · rw [if_neg (not_not.2 hal), clkStore_none_of_none hnone]
    exact trapped_clkTrap (by decide) hcores (issuing_regs c s)

/-- Settles O14: a load or store as its address says, for every width. -/
theorem clerkLoadsAndStores : Obligations.ClerkLoadsAndStores := by
  unfold Obligations.ClerkLoadsAndStores
  refine ⟨fun s c a w hat => ⟨?_, ?_, ?_, ?_, ?_⟩, fun s c a w hat => ⟨?_, ?_, ?_⟩⟩
  · exact fun wd wa imm hm => ⟨_, rfl, loadOp_done hat hm (by decide) (by decide) id⟩
  · exact fun wd wa imm hm => ⟨_, rfl, loadOp_done hat hm (by decide) (by decide) (sx 16)⟩
  · exact fun wd wa imm hm => ⟨_, rfl, loadOp_done hat hm (by decide) (by decide) id⟩
  · intro wd wa imm hm
    obtain ⟨-, hnone, hsome⟩ := loadOp_done (n := 1) hat hm (by decide) (by decide) (sx 8)
    exact ⟨_, rfl, hnone (Nat.mod_one _), fun v => hsome v (Nat.mod_one _)⟩
  · intro wd wa imm hm
    obtain ⟨-, hnone, hsome⟩ := loadOp_done (n := 1) hat hm (by decide) (by decide) id
    exact ⟨_, rfl, hnone (Nat.mod_one _), fun v => hsome v (Nat.mod_one _)⟩
  · exact fun ws wa imm hm => ⟨_, rfl, storeOp_done hat hm (by decide) (by decide)⟩
  · exact fun ws wa imm hm => ⟨_, rfl, storeOp_done hat hm (by decide) (by decide)⟩
  · intro ws wa imm hm
    obtain ⟨-, hsram, helse, hnone⟩ := storeOp_done (n := 1) hat hm (by decide) (by decide)
    exact ⟨_, rfl, hsram (Nat.mod_one _), fun b => helse b (Nat.mod_one _), hnone (Nat.mod_one _)⟩

/-! ## Branches and jumps (R319, R320, R362) -/

/-- The core's record when the branch at a is resolved, before fetch goes on. -/
def branchCore (a target : Nat) (taken an : Bool) (res : Option (Nat × Nat)) (r : ClkCore) : ClkCore :=
  { r with w := putOpt (putOpt r.w r.load) res, load := none, slot := if an && !taken then none else some ⟨a, target, taken⟩ }

/-- The record when its fetch has gone on. -/
def resolvedCore (c a target : Nat) (taken guess an : Bool) (res : Option (Nat × Nat)) (r : ClkCore) : ClkCore :=
  if taken = guess then refill c 3 { branchCore a target taken an res r with
    fetch := if an && !taken then r.fetch.tail.tail else r.fetch.tail }
  else if taken then restart c (a + 4) (some target) (branchCore a target taken an res r)
  else restart c (if an && !taken then a + 8 else a + 4) none (branchCore a target taken an res r)

theorem resolve_eq (c a target : Nat) (taken guess an : Bool) (res : Option (Nat × Nat)) (cost : Nat) (s : State) :
    resolve c a target taken guess an res cost s =
      tick c (cost + (an && !taken).toNat) (modClk c (resolvedCore c a target taken guess an res) s) := rfl

/-- Where fetch goes on when a branch is resolved, and that nothing else of the record moves. -/
theorem resolvedCore_eq (c a target : Nat) (taken guess an : Bool) (res : Option (Nat × Nat)) (r : ClkCore) :
    ∃ f p b, resolvedCore c a target taken guess an res r = refetched (branchCore a target taken an res r) f p b ∧
      (taken = guess → (if an && !taken then r.fetch.tail.tail else r.fetch.tail) <+: f) ∧
      (taken = true → guess = false → (f.map (·.1)).take 2 = [(a + 4) % 2 ^ 32, target]) ∧
      (taken = false → guess = true → f.head?.map (·.1) = some ((if an then a + 8 else a + 4) % 2 ^ 32)) := by
  unfold resolvedCore
  by_cases hguess : taken = guess
  · rw [if_pos hguess]
    subst hguess
    obtain ⟨more, p, b, hrefill⟩ := refill_eq c 3 { branchCore a target taken an res r with
      fetch := if an && !taken then r.fetch.tail.tail else r.fetch.tail }
    exact ⟨_, p, b, hrefill, fun _ => List.prefix_append _ _, fun ht hf => absurd (ht.symm.trans hf) (by decide),
      fun ht hf => absurd (ht.symm.trans hf) (by decide)⟩
  · rw [if_neg hguess]
    cases taken with
    | true =>
      obtain ⟨f, p, b, hrestart, -, hfirst⟩ := restart_eq c (a + 4) (some target) (branchCore a target true an res r)
      exact ⟨f, p, b, by simpa using hrestart, fun h => absurd h hguess, fun _ _ => hfirst target rfl, nofun⟩
    | false =>
      obtain ⟨f, p, b, hrestart, hhead, -⟩ := restart_eq c (if an then a + 8 else a + 4) none (branchCore a target false an res r)
      refine ⟨f, p, b, by simpa using hrestart, fun h => absurd h hguess, nofun, fun _ _ => hhead⟩

/-- A branch that is resolved at a running core. -/
theorem branched_resolve {c : Nat} {s : State} (hrun : (clkOf s c).st = .running) (a target : Nat) (taken guess an : Bool)
    (res : Option (Nat × Nat)) (cost : Nat) :
    branched c a target taken guess an res cost s (resolve c a target taken guess an res cost (issuing c s)) := by
  obtain ⟨f, p, b, hcore, hright, htaken, hnot⟩ := resolvedCore_eq c a target taken guess an res (clkOf s c)
  have hself : clkOf (resolve c a target taken guess an res cost (issuing c s)) c =
      refetched (branchCore a target taken an res (clkOf s c)) f p b := by
    rw [← hcore, ← clkOf_issuing hrun c]
    exact clkOf_modClk_same c (resolvedCore c a target taken guess an res) (issuing c s)
  refine ⟨regsAfter_of_w ?_, ?_, ?_, ?_, ?_, ?_, ?_, fun k hk => ?_, ?_, ?_, ?_⟩
  · rw [hself]
    rfl
  · rw [hself]
    rfl
  · rw [hself]
    rfl
  · rw [hself]
    exact hright
  · rw [hself]
    exact htaken
  · rw [hself]
    exact hnot
  · rw [resolve_eq]
    exact rd_tick_same c _ _
  · rw [← clkOf_issuing hrun k]
    exact clkOf_modClk_ne hk (resolvedCore c a target taken guess an res) (issuing c s)
  · rw [hself]
    rfl
  · rw [hself]
    rfl
  · rw [resolve_eq]
    exact otherFields.tick ((otherFields_refl _ s).of_regs (issuing_regs c s)) List.mem_cons_self _

theorem onBranch_free {s : State} {c a w : Nat} (hat : clkAt s c a w) (hslot : (clkOf s c).slot = none)
    (hdef : definedWord w = true) {m : Nat → Bool} (hm : m w = true) (f : Nat → ClkCore → State → State) :
    onBranch c m f s = f a (clkOf s c) (issuing c s) := by
  rw [onBranch, clkIssue_of_match hat hdef hm]
  simp [hslot]

theorem onBranch_in_slot {s : State} {c a w : Nat} (hat : clkAt s c a w) (hslot : (clkOf s c).slot ≠ none)
    (hdef : definedWord w = true) {m : Nat → Bool} (hm : m w = true) (f : Nat → ClkCore → State → State) :
    trapped c 16 w s (onBranch c m f s) := by
  obtain ⟨hrun, rest, hfetch⟩ := id hat
  have hsome : (clkOf s c).slot.isSome = true := Option.isSome_iff_ne_none.2 hslot
  rw [onBranch, clkIssue_of_match hat hdef hm]
  simp only [hsome, if_true, hfetch, List.head?_cons, Option.bind_some, Option.getD_some]
  exact trapped_clkTrap (by decide) (clkOf_issuing hrun) (issuing_regs c s)

theorem isB_defined {k wa wb an hi off w : Nat} (h : isB (0x10 + k) wa wb an hi off w = true) (hk : k < 6) :
    definedWord w = true := by
  have hop := isB_op h
  exact definedWord_op (by omega) (by omega)

theorem isJ_defined {op off w : Nat} (h : isJ op off w = true) (hne : op ≠ 0) (hlt : op < 0x1E) : definedWord w = true := by
  have hop := isJ_op h
  exact definedWord_op (by omega) (by omega)

theorem condBranch_done {s : State} {c a w : Nat} (hat : clkAt s c a w) (hslot : (clkOf s c).slot = none)
    {k wa wb an hi off : Nat} (hm : isB (0x10 + k) wa wb an hi off w = true) (hk : k < 6) {taken : Bool}
    (htaken : clkCond k (regW (clkOf s c) wa) (regW (clkOf s c) wb) = taken) :
    branchDone c a an hi off taken s (condBranch c k wa wb an hi off s) := by
  subst htaken
  rw [condBranch, onBranch_free hat hslot (isB_defined hm hk) hm, branchDone]
  simp only [beq_iff_eq]
  exact branched_resolve hat.1 _ _ _ _ _ _ _

theorem condBranch_in_slot {s : State} {c a w : Nat} (hat : clkAt s c a w) (hslot : (clkOf s c).slot ≠ none)
    {k wa wb an hi off : Nat} (hm : isB (0x10 + k) wa wb an hi off w = true) (hk : k < 6) :
    trapped c 16 w s (condBranch c k wa wb an hi off s) :=
  onBranch_in_slot hat hslot (isB_defined hm hk) hm _

/-- What a jump to a register does with its target. -/
theorem jumpReg_done {s : State} {c a w : Nat} (hat : clkAt s c a w) (hslot : (clkOf s c).slot = none)
    {op wd wa imm : Nat} (hm : isImm op wd wa imm w = true) (hne : op ≠ 0) (hlt : op < 0x1E) (gate : Bool) :
    (effAddr (clkOf s c) wa imm % 4 ≠ 0 → trapped c 17 (effAddr (clkOf s c) wa imm) s (jumpReg c op wd wa imm gate s)) ∧
    (effAddr (clkOf s c) wa imm % 4 = 0 →
      (gate = true → fetchWord c (clkOf s c) (effAddr (clkOf s c) wa imm) = some 0x78000005) →
      branched c a (effAddr (clkOf s c) wa imm) true false false (some (wd, a + 8)) 3 s (jumpReg c op wd wa imm gate s)) ∧
    (effAddr (clkOf s c) wa imm % 4 = 0 → gate = true →
      fetchWord c (clkOf s c) (effAddr (clkOf s c) wa imm) ≠ some 0x78000005 →
      trapped c 19 (effAddr (clkOf s c) wa imm) s (jumpReg c op wd wa imm gate s) ∧
        (isAssayerCore c = true → (jumpReg c op wd wa imm gate s).assayer.abandon = true)) := by
  have hcores := clkOf_issuing hat.1
  rw [jumpReg, onBranch_free hat hslot (isImm_defined hm hne hlt) hm]
  simp only []
  generalize effAddr (clkOf s c) wa imm = x
  refine ⟨fun hmis => ?_, fun hal hgate => ?_, fun hal hgate hbad => ?_⟩
  · rw [if_pos hmis]
    exact trapped_clkTrap (by decide) hcores (issuing_regs c s)
  · rw [if_neg (not_not.2 hal), if_neg (fun h => h.2 (hgate h.1))]
    exact branched_resolve hat.1 _ _ _ _ _ _ _
  · rw [if_neg (not_not.2 hal), if_pos ⟨hgate, hbad⟩]
    constructor
    · refine trapped_clkTrap (by decide) (fun k => ?_) ?_
      · rw [← hcores k]
        split <;> rfl
      · split <;> rfl
    · intro hassayer
      rw [if_pos hassayer]
      have hkeep := (clkTrap_keeps c 19 x _ (keeps_refl _ { issuing c s with assayer := { (issuing c s).assayer with abandon := true } })
        (Nat.or_self _)).part .assayer rfl
      exact congrArg Assayer.abandon hkeep

/-- Settles O15: a branch resolves at its own issue, and traps in a delay slot. -/
theorem clerkBranchesAndJumps : Obligations.ClerkBranchesAndJumps := by
  unfold Obligations.ClerkBranchesAndJumps
  refine ⟨fun s c a w wa wb an hi off hat => ⟨?_, ?_, ?_, ?_, ?_, ?_, ?_⟩,
    fun s c a w hat => ⟨?_, ?_, ?_, ?_, ?_, ?_, ?_, ?_⟩⟩
  · exact fun hslot hm => ⟨_, rfl, condBranch_done hat hslot (k := 0) hm (by decide) rfl⟩
  · exact fun hslot hm => ⟨_, rfl, condBranch_done hat hslot (k := 1) hm (by decide) (by simp [clkCond, bne, beq_eq_decide])⟩
  · exact fun hslot hm => ⟨_, rfl, condBranch_done hat hslot (k := 2) hm (by decide) rfl⟩
  · exact fun hslot hm => ⟨_, rfl, condBranch_done hat hslot (k := 3) hm (by decide) rfl⟩
  · exact fun hslot hm => ⟨_, rfl, condBranch_done hat hslot (k := 4) hm (by decide) rfl⟩
  · exact fun hslot hm => ⟨_, rfl, condBranch_done hat hslot (k := 5) hm (by decide) rfl⟩
  · intro i op hslot hi hm
    simp only [List.mem_cons, List.not_mem_nil, or_false, Prod.mk.injEq] at hi
    obtain ⟨rfl, rfl⟩ | ⟨rfl, rfl⟩ | ⟨rfl, rfl⟩ | ⟨rfl, rfl⟩ | ⟨rfl, rfl⟩ | ⟨rfl, rfl⟩ := hi
    · exact ⟨_, rfl, condBranch_in_slot hat hslot (k := 0) hm (by decide)⟩
    · exact ⟨_, rfl, condBranch_in_slot hat hslot (k := 1) hm (by decide)⟩
    · exact ⟨_, rfl, condBranch_in_slot hat hslot (k := 2) hm (by decide)⟩
    · exact ⟨_, rfl, condBranch_in_slot hat hslot (k := 3) hm (by decide)⟩
    · exact ⟨_, rfl, condBranch_in_slot hat hslot (k := 4) hm (by decide)⟩
    · exact ⟨_, rfl, condBranch_in_slot hat hslot (k := 5) hm (by decide)⟩
  · intro off hslot hm
    refine ⟨_, rfl, ?_⟩
    rw [jumpOp, onBranch_free hat hslot (isJ_defined hm (by decide) (by decide)) hm]
    exact branched_resolve hat.1 _ _ _ _ _ _ _
  · intro off hslot hm
    refine ⟨_, rfl, ?_⟩
    rw [jumpOp, onBranch_free hat hslot (isJ_defined hm (by decide) (by decide)) hm]
    exact branched_resolve hat.1 _ _ _ _ _ _ _
  · intro wd wa imm hslot hm hal
    exact ⟨_, rfl, (jumpReg_done hat hslot hm (by decide) (by decide) false).2.1 hal nofun⟩
  · intro wd wa imm hslot hm hal hgate
    exact ⟨_, rfl, (jumpReg_done hat hslot hm (by decide) (by decide) true).2.1 hal fun _ => hgate⟩
  · exact fun wd wa imm hslot hm hmis => ⟨_, rfl, (jumpReg_done hat hslot hm (by decide) (by decide) false).1 hmis⟩
  · exact fun wd wa imm hslot hm hmis => ⟨_, rfl, (jumpReg_done hat hslot hm (by decide) (by decide) true).1 hmis⟩
  · exact fun wd wa imm hslot hm hal hbad =>
      ⟨_, rfl, (jumpReg_done hat hslot hm (by decide) (by decide) true).2.2 hal rfl hbad⟩
  · rintro off wd wa imm i hslot (⟨rfl, hm⟩ | ⟨rfl, hm⟩ | ⟨rfl, hm⟩ | ⟨rfl, hm⟩)
    · exact ⟨_, rfl, onBranch_in_slot hat hslot (isJ_defined hm (by decide) (by decide)) hm _⟩
    · exact ⟨_, rfl, onBranch_in_slot hat hslot (isJ_defined hm (by decide) (by decide)) hm _⟩
    · exact ⟨_, rfl, onBranch_in_slot hat hslot (isImm_defined hm (by decide) (by decide)) hm _⟩
    · exact ⟨_, rfl, onBranch_in_slot hat hslot (isImm_defined hm (by decide) (by decide)) hm _⟩

end Sys2Proof.Machine
end

section
/-! The Clerk core's management accesses, its interrupts and the claims of the Toss (O16, O18). -/
set_option Elab.async false
namespace Sys2Proof.Machine

/-! ## Management accesses (R321) -/

/-- The request that a management access of register d at address x makes. -/
def mgmtReq (s : State) (c g x n d : Nat) (write : Bool) : MReq :=
  { region := g, addr := x, size := n, write := write,
    val := if write then (if n = 8 then regW (clkOf s c) d + 2 ^ 32 * regW (clkOf s c) ((d + 1) % 32) else regW (clkOf s c) d) else 0,
    reg := d, issued := clkNow s c }

theorem clkNow_of_regs {s t : State} (h : t.regs = s.regs) (c : Nat) : clkNow t c = clkNow s c := by
  rw [clkNow, clkNow, beat_of_regs h, rd_of_regs h]

/-- What a management access does at a core that runs, by its address. -/
theorem mgmtOp_eq {s : State} {c a w : Nat} (hat : clkAt s c a w) {op wd wa imm n : Nat} (hm : isImm op wd wa imm w = true)
    (hne : op ≠ 0) (hlt : op < 0x1E) (write : Bool) : mgmtOp c op wd wa imm n write s =
      if effAddr (clkOf s c) wa imm % n ≠ 0 then clkTrap c 17 (effAddr (clkOf s c) wa imm) (issuing c s)
      else match mgmtRegion c (effAddr (clkOf s c) wa imm) n write with
        | none => clkTrap c 18 (effAddr (clkOf s c) wa imm) (issuing c s)
        | some g => if 8 ≤ (clkOf s c).outst.length then issuing c s
          else showOutst c (complete c 1 none none (modClk c (fun y =>
            { y with outst := y.outst ++ [mgmtReq s c g (effAddr (clkOf s c) wa imm) n wd write] }) (issuing c s))) := by
  rw [mgmtOp, clkIssue_of_match hat (isImm_defined hm hne hlt) hm]
  simp only [clkNow_of_regs (issuing_regs c s)]
  rfl

theorem mgmtOp_issued {s : State} {c a w : Nat} (hat : clkAt s c a w) {op wd wa imm n g : Nat} (hm : isImm op wd wa imm w = true)
    (hne : op ≠ 0) (hlt : op < 0x1E) {write : Bool} (hal : effAddr (clkOf s c) wa imm % n = 0)
    (hregion : mgmtRegion c (effAddr (clkOf s c) wa imm) n write = some g) (hroom : (clkOf s c).outst.length < 8) :
    mgmtIssued c (mgmtReq s c g (effAddr (clkOf s c) wa imm) n wd write) s (mgmtOp c op wd wa imm n write s) := by
  rw [mgmtOp_eq hat hm hne hlt, if_neg (not_not.2 hal), hregion]
  simp only []
  rw [if_neg (by omega)]
  generalize mgmtReq s c g (effAddr (clkOf s c) wa imm) n wd write = q
  have hself := clkOf_modClk_same c (fun y => { y with outst := y.outst ++ [q] }) (issuing c s)
  rw [clkOf_issuing hat.1 c] at hself
  obtain ⟨⟨hregs, hload, hslot, hfetch, hcycles, hothers⟩, hsram, houtst, hfields⟩ :=
    complete_retires (cost := 1) (res := none) (ld := none)
      (y := modClk c (fun y => { y with outst := y.outst ++ [q] }) (issuing c s))
      ⟨⟨(clkOf s c).sram, _, hself⟩, fun k hk => (clkOf_modClk_ne hk _ _).trans (clkOf_issuing hat.1 k), issuing_regs c s⟩
  rw [hself] at hsram houtst
  generalize complete c 1 none none (modClk c (fun y => { y with outst := y.outst ++ [q] }) (issuing c s)) = z at *
  refine ⟨⟨hregs, hload, hslot, hfetch, ?_, hothers⟩, hsram, houtst, ?_, ?_⟩
  · exact (rd_wr_ne _ _ _ _ (by simp)).trans hcycles
  · rw [showOutst, rd_wr_same, houtst, List.length_append]
    exact Nat.mod_eq_of_lt (show (clkOf s c).outst.length + 1 < 16 by omega)
  · exact (hfields.mono fun f hf => List.mem_cons.2 (.inl (List.mem_singleton.1 hf))).wr
      (List.mem_cons_of_mem _ List.mem_cons_self) _

theorem mgmtOp_not_issued {s : State} {c a w : Nat} (hat : clkAt s c a w) {op wd wa imm n : Nat}
    (hm : isImm op wd wa imm w = true) (hne : op ≠ 0) (hlt : op < 0x1E) (write : Bool) :
    (effAddr (clkOf s c) wa imm % n ≠ 0 → trapped c 17 (effAddr (clkOf s c) wa imm) s (mgmtOp c op wd wa imm n write s)) ∧
    (effAddr (clkOf s c) wa imm % n = 0 → mgmtRegion c (effAddr (clkOf s c) wa imm) n write = none →
      trapped c 18 (effAddr (clkOf s c) wa imm) s (mgmtOp c op wd wa imm n write s)) ∧
    (∀ g, effAddr (clkOf s c) wa imm % n = 0 → mgmtRegion c (effAddr (clkOf s c) wa imm) n write = some g →
      8 ≤ (clkOf s c).outst.length → clkOf (mgmtOp c op wd wa imm n write s) c = clkOf s c ∧
        otherCores c s (mgmtOp c op wd wa imm n write s) ∧ samePart .regs s (mgmtOp c op wd wa imm n write s)) := by
  have hcores := clkOf_issuing hat.1
  rw [mgmtOp_eq hat hm hne hlt]
  refine ⟨fun hmis => ?_, fun hal hnone => ?_, fun g hal hsome hfull => ?_⟩
  · rw [if_pos hmis]
    exact trapped_clkTrap (by decide) hcores (issuing_regs c s)
  · rw [if_neg (not_not.2 hal), hnone]
    exact trapped_clkTrap (by decide) hcores (issuing_regs c s)
  · rw [if_neg (not_not.2 hal), hsome]
    simp only [if_pos hfull]
    exact ⟨hcores c, fun k _ => hcores k, issuing_regs c s⟩

/-! ## Responses -/

theorem clkOf_dropReq (c : Nat) (q : MReq) (s : State) :
    clkOf (dropReq c q s) c = { clkOf s c with outst := (clkOf s c).outst.erase q } :=
  clkOf_modClk_same c (fun r => { r with outst := r.outst.erase q }) s

theorem dropReq_cplx (c : Nat) (q : MReq) (s : State) : (dropReq c q s).cplx = s.cplx := rfl

theorem dropReq_otherFields (c : Nat) (q : MReq) (s : State) : otherFields [clerkMstatOutstanding c] s (dropReq c q s) :=
  otherFields.wr ((otherFields_refl _ s).of_regs rfl) List.mem_cons_self _

theorem mgmtDeliver_store {q : MReq} (h : q.write = true) (c v : Nat) (s : State) : mgmtDeliver c q v s = s := if_pos h

theorem mgmtDeliver_regs (c : Nat) (q : MReq) (v : Nat) (s : State) : (mgmtDeliver c q v s).regs = s.regs := by
  unfold mgmtDeliver
  split <;> rfl

theorem mgmtDeliver_cplxOf (c : Nat) (q : MReq) (v : Nat) (s : State) (x : Nat) :
    cplxOf (mgmtDeliver c q v s) x = cplxOf s x := by
  unfold mgmtDeliver
  split <;> rfl

theorem mgmtDeliver_outst (c : Nat) (q : MReq) (v : Nat) (s : State) :
    (clkOf (mgmtDeliver c q v s) c).outst = (clkOf s c).outst := by
  unfold mgmtDeliver
  split
  · rfl
  · rw [clkOf_modClk_same]

theorem mgmtDeliver_load {q : MReq} (hload : q.write = false) (hsize : q.size = 4) (c v : Nat) (s : State) {i : Nat} (hi : i ≠ 0) :
    regW (clkOf (mgmtDeliver c q v s) c) i = if i = q.reg then v % 2 ^ 32 else regW (clkOf s c) i := by
  rw [mgmtDeliver, if_neg (by simp [hload]), clkOf_modClk_same, regW, if_neg hi]
  simp only [hsize]
  rw [if_neg (by decide), tget_putW hi, regW, if_neg hi]

theorem mgmtResponse_of_oldest {s : State} {c : Nat} {q : MReq} (hq : oldestReq s c q.region = some q) :
    mgmtResponse c q.region s = if q.region = 2 ∧ offFenced s (apertureOff s c q.addr) then mgmtError c q s
      else mgmtDeliver c q (mgmtPerform c q (dropReq c q s)).2 (mgmtPerform c q (dropReq c q s)).1 := by
  rw [mgmtResponse, hq]

theorem cplxOf_modCplx_same (x : Nat) (f : Complex → Complex) (s : State) : cplxOf (modCplx x f s) x = f (cplxOf s x) :=
  tget_tset_same ({} : Complex) s.cplx x _

theorem cplxOf_modCplx_ne {x y : Nat} (h : y ≠ x) (f : Complex → Complex) (s : State) : cplxOf (modCplx x f s) y = cplxOf s y :=
  tget_tset_ne ({} : Complex) s.cplx x y _ h

theorem commonStore_store (x o n v : Nat) (s : State) :
    (cplxOf (commonStore x o n v s) x).store = putLE (cplxOf s x).store o n (v % 256 ^ n) := by
  simp only [commonStore]
  split
  · rw [cplxOf_modCplx_same, cplxOf_modCplx_same]
  · rw [cplxOf_modCplx_same]

theorem commonStore_other {x y : Nat} (h : y ≠ x) (o n v : Nat) (s : State) :
    cplxOf (commonStore x o n v s) y = cplxOf s y := by
  simp only [commonStore]
  split
  · rw [cplxOf_modCplx_ne h, cplxOf_modCplx_ne h]
  · exact cplxOf_modCplx_ne h _ s

theorem commonStore_regs (x o n v : Nat) (s : State) : (commonStore x o n v s).regs = s.regs := by
  simp only [commonStore]
  split <;> rfl

theorem commonStore_clkOf (x o n v : Nat) (s : State) (k : Nat) : clkOf (commonStore x o n v s) k = clkOf s k := by
  simp only [commonStore]
  split <;> rfl

/-- What a request that fails leaves (R321): the first failing address is kept, and a load brings 0. -/
theorem mgmtError_done (s : State) (c : Nat) (q : MReq) :
    (clkOf (mgmtError c q s) c).outst = (clkOf s c).outst.erase q ∧ rdB (mgmtError c q s) (clerkMstatErr c) = true ∧
      (rdB s (clerkMstatErr c) = false → rd (mgmtError c q s) (clerkMerrAddress c) = q.addr % 2 ^ 32) ∧
      (rdB s (clerkMstatErr c) = true → rd (mgmtError c q s) (clerkMerrAddress c) = rd s (clerkMerrAddress c)) ∧
      (q.size = 4 → q.write = false → q.reg ≠ 0 → regW (clkOf (mgmtError c q s) c) q.reg = 0) := by
  have hfields : otherFields [clerkMstatOutstanding c] s (mgmtDeliver c q 0 (dropReq c q s)) :=
    (dropReq_otherFields c q s).of_regs (mgmtDeliver_regs c q 0 _)
  have houtst := mgmtDeliver_outst c q 0 (dropReq c q s)
  rw [clkOf_dropReq] at houtst
  have hzero : q.size = 4 → q.write = false → q.reg ≠ 0 → regW (clkOf (mgmtDeliver c q 0 (dropReq c q s)) c) q.reg = 0 := by
    intro hsize hload hreg
    rw [mgmtDeliver_load hload hsize c 0 _ hreg, if_pos rfl, Nat.zero_mod]
  simp only [mgmtError]
  generalize mgmtDeliver c q 0 (dropReq c q s) = z at *
  by_cases herr : rdB s (clerkMstatErr c) = true
  · rw [if_pos herr]
    refine ⟨houtst, ?_, fun h => ?_, fun _ => ?_, hzero⟩
    · rw [rdB, hfields _ (by simp)]
      exact herr
    · exact absurd (herr.symm.trans h) (by decide)
    · exact hfields _ (by simp)
  · rw [if_neg herr]
    refine ⟨houtst, ?_, fun _ => ?_, fun h => absurd h herr, hzero⟩
    · rw [rdB, rd_wr_same]
      rfl
    · rw [rd_wr_ne _ _ _ _ (by simp), rd_wr_same]
      rfl

theorem mgmtTimeout_of_oldest {s : State} {c : Nat} {q : MReq} (hq : oldestReq s c q.region = some q) :
    mgmtTimeout c q.region s = if q.issued + 180 ≤ clkNow s c then mgmtError c q s else s := by
  rw [mgmtTimeout, hq]

/-- Settles O16: each access by its address, each response by its region. -/
theorem clerkManagementAccessesAndResponses : Obligations.ClerkManagementAccessesAndResponses := by
  unfold Obligations.ClerkManagementAccessesAndResponses
  refine ⟨fun s c a w wd wa imm hat => ⟨?_, ?_, ?_, ?_, ?_⟩, fun s c q hq => ⟨?_, ?_, ?_, ?_, ?_, ?_, ?_⟩⟩
  · exact fun g hm hal hregion hroom => ⟨_, rfl, mgmtOp_issued hat hm (by decide) (by decide) hal hregion hroom⟩
  · exact fun g hm hal hregion hroom => ⟨_, rfl, mgmtOp_issued hat hm (by decide) (by decide) hal hregion hroom⟩
  · exact fun g hm hal hregion hroom => ⟨_, rfl, mgmtOp_issued hat hm (by decide) (by decide) hal hregion hroom⟩
  · exact fun g hm hal hregion hroom => ⟨_, rfl, mgmtOp_issued hat hm (by decide) (by decide) hal hregion hroom⟩
  · intro i op n write hi hm
    simp only [List.mem_cons, List.not_mem_nil, or_false, Prod.mk.injEq] at hi
    obtain ⟨rfl, rfl, rfl, rfl⟩ | ⟨rfl, rfl, rfl, rfl⟩ | ⟨rfl, rfl, rfl, rfl⟩ | ⟨rfl, rfl, rfl, rfl⟩ := hi
    · exact ⟨_, rfl, mgmtOp_not_issued hat hm (by decide) (by decide) false⟩
    · exact ⟨_, rfl, mgmtOp_not_issued hat hm (by decide) (by decide) true⟩
    · exact ⟨_, rfl, mgmtOp_not_issued hat hm (by decide) (by decide) false⟩
    · exact ⟨_, rfl, mgmtOp_not_issued hat hm (by decide) (by decide) true⟩
  · intro hregion hload hsize
    have hresponse := mgmtResponse_of_oldest hq
    rw [hregion, if_neg (by omega), mgmtPerform, hregion] at hresponse
    simp only [hload, Bool.false_eq_true, if_false] at hresponse
    refine ⟨_, congrArg Host.Outcome.next hresponse, ?_, fun i hi => ?_, ?_, ?_⟩
    · rw [mgmtDeliver_outst, clkOf_dropReq]
    · rw [mgmtDeliver_load hload hsize c _ _ hi, clkOf_dropReq, hsize]
      rfl
    · simp only [samePart, mgmtDeliver, hload, Bool.false_eq_true, if_false]
      rfl
    · exact (dropReq_otherFields c q s).of_regs (mgmtDeliver_regs c q _ _)
  · intro hregion hstore
    have hresponse := mgmtResponse_of_oldest hq
    rw [hregion, if_neg (by omega), mgmtPerform, hregion, mgmtDeliver_store hstore] at hresponse
    simp only [hstore, if_true] at hresponse
    refine ⟨_, congrArg Host.Outcome.next hresponse, ?_, ?_, fun x hx => ?_, ?_⟩
    · rw [commonStore_clkOf, clkOf_dropReq]
    · exact commonStore_store _ _ _ _ _
    · exact commonStore_other hx _ _ _ _
    · exact (dropReq_otherFields c q s).of_regs (commonStore_regs _ _ _ _ _)
  · intro hregion hload hsize
    have hresponse := mgmtResponse_of_oldest hq
    rw [hregion, if_neg (by omega), mgmtPerform, hregion] at hresponse
    simp only [hload, Bool.false_eq_true, if_false] at hresponse
    refine ⟨_, congrArg Host.Outcome.next hresponse, fun i hi => ?_, ?_⟩
    · rw [mgmtDeliver_load hload hsize c _ _ hi, modCplx_clkOf, clkOf_dropReq]
      rfl
    · rw [mgmtDeliver_cplxOf, cplxOf_modCplx_same]
      exact tget_tset_same 0 (cplxOf (dropReq c q s) (complexOf c)).sem ((q.addr - 0x120000) / 4) 1
  · intro hregion hstore
    have hresponse := mgmtResponse_of_oldest hq
    rw [hregion, if_neg (by omega), mgmtPerform, hregion, mgmtDeliver_store hstore] at hresponse
    simp only [hstore, if_true] at hresponse
    refine ⟨_, congrArg Host.Outcome.next hresponse, ?_⟩
    rw [cplxOf_modCplx_same]
    exact tget_tset_same (0 : Nat) _ _ _
  · intro hregion hfenced hsize
    have hresponse := mgmtResponse_of_oldest hq
    rw [if_pos ⟨hregion, hfenced⟩, hregion] at hresponse
    obtain ⟨houtst, herr, hfirst, -, hzero⟩ := mgmtError_done s c q
    exact ⟨_, congrArg Host.Outcome.next hresponse, houtst, herr, hfirst, hzero hsize⟩
  · intro hearly
    refine congrArg Host.Outcome.next ?_
    rw [mgmtTimeout_of_oldest hq, if_neg (by omega)]
  · intro hlate hsize
    have htimeout := mgmtTimeout_of_oldest hq
    rw [if_pos hlate] at htimeout
    obtain ⟨houtst, herr, hfirst, hkept, hzero⟩ := mgmtError_done s c q
    exact ⟨_, congrArg Host.Outcome.next htimeout, houtst, herr, hfirst, hkept, hzero hsize⟩

/-! ## Interrupts (R324, R330) -/

theorem clkBlock_inj {a c j : Nat} (h : a ≠ c) : clkBlock a + j ≠ clkBlock c + j := by
  simp only [clkBlock]
  omega

/-- The registers that an interrupt saves. -/
def entrySave (c code : Nat) (r : ClkCore) (s : State) : State :=
  wr (clerkEpcEpc c) ((r.fetch.head?.map (·.1)).getD 0) (wr (clerkCauseCode c) code (wr (clerkCauseBd c) 0 (wr (clerkCauseTaken c) 0
    (wr (clerkCauseInterrupt c) 1 (wr (clerkTvalValue c) (tget 0 r.why code) (wr (clerkStatusPie c) 1 (wr (clerkStatusIe c) 0 s)))))))

theorem interruptEntry_of_ready {s : State} {c code : Nat} (h : clkLive s c = true ∧ rdB s (clerkStatusIe c) = true ∧ code < 7 ∧
    inMask (clkPending s c) code = true ∧ (clkOf s c).slot.isNone = true ∧ (clkOf s c).load.isNone = true ∧
      (clkOf s c).outst = []) : interruptEntry c code s = tick c 3 (setClk c (restart c (rd s (clerkVectorBase c) * 4096 + code * 0x40)
        none { clkOf s c with st := .running }) (entrySave c code (clkOf s c) s)) := by
  rw [interruptEntry, if_pos h]
  rfl

/-- What a core shows when it has taken an interrupt. -/
theorem interruptEntry_done {s : State} {c code : Nat} (hcode : code < 7) :
    let t := tick c 3 (setClk c (restart c (rd s (clerkVectorBase c) * 4096 + code * 0x40) none { clkOf s c with st := .running })
      (entrySave c code (clkOf s c) s))
    rd t (clerkCauseCode c) = code ∧
    rd t (clerkCauseInterrupt c) = 1 ∧ rd t (clerkCauseBd c) = 0 ∧ rd t (clerkStatusIe c) = 0 ∧
    rd t (clerkStatusPie c) = 1 ∧ rd t (clerkTvalValue c) = tget 0 (clkOf s c).why code % 2 ^ 32 ∧
    (∀ e, (clkOf s c).fetch.head? = some e → rd t (clerkEpcEpc c) = e.1 % 2 ^ 32) ∧
    (clkOf t c).fetch.head?.map (·.1) = some ((rd s (clerkVectorBase c) * 4096 + code * 0x40) % 2 ^ 32) ∧
    (clkOf t c).st = .running ∧ (clkOf t c).w = (clkOf s c).w ∧ tookCycles c 3 s t ∧ otherCores c s t := by
  intro t
  obtain ⟨f, p, b, hrestart, hhead, -⟩ := restart_eq c (rd s (clerkVectorBase c) * 4096 + code * 0x40) none
    { clkOf s c with st := .running }
  have hself : clkOf t c = _ := (setClk_clkOf_same c _ (entrySave c code (clkOf s c) s)).trans hrestart
  have hread : ∀ g, fkey (clerkSliceCycle c) ≠ fkey g → rd t g = rd (entrySave c code (clkOf s c) s) g :=
    fun g hg => rd_wr_ne _ _ _ _ hg.symm
  have hcores : ∀ k, clkOf (entrySave c code (clkOf s c) s) k = clkOf s k := fun k => by simp [entrySave]
  refine ⟨?_, ?_, ?_, ?_, ?_, ?_, fun e he => ?_, ?_, ?_, ?_, ?_, fun k hk => ?_⟩
  · rw [hread _ (by simp)]
    simp [entrySave, rd_wr_ne]
    exact Nat.mod_eq_of_lt (Nat.lt_trans hcode (show 7 < 2 ^ 5 by decide))
  · rw [hread _ (by simp)]
    simp [entrySave, rd_wr_ne]
    exact Nat.one_pos
  · rw [hread _ (by simp)]
    simp [entrySave, rd_wr_ne]
  · rw [hread _ (by simp)]
    simp [entrySave, rd_wr_ne]
  · rw [hread _ (by simp)]
    simp [entrySave, rd_wr_ne]
    exact Nat.one_pos
  · rw [hread _ (by simp)]
    simp [entrySave, rd_wr_ne]
    rfl
  · rw [hread _ (by simp)]
    simp [entrySave, rd_wr_ne, he]
    rfl
  · rw [hself]
    exact hhead
  · rw [hself]
    rfl
  · rw [hself]
    rfl
  · refine (rd_tick_same c 3 _).trans ?_
    congr 2
    show rd (entrySave c code (clkOf s c) s) _ = _
    simp [entrySave, rd_wr_ne]
  · rw [← hcores k]
    exact setClk_clkOf_ne c _ _ k hk

theorem interruptEntry_of_not_ready {s : State} {c code : Nat} (h : rdB s (clerkStatusIe c) = false ∨ (clkOf s c).slot ≠ none ∨
    (clkOf s c).load ≠ none ∨ (clkOf s c).outst ≠ []) : interruptEntry c code s = s := by
  rw [interruptEntry]
  refine if_neg ?_
  rintro ⟨-, hie, -, -, hslot, hload, houtst⟩
  obtain h | h | h | h := h
  · exact absurd (hie.symm.trans h) (by decide)
  · exact h (Option.isNone_iff_eq_none.1 hslot)
  · exact h (Option.isNone_iff_eq_none.1 hload)
  · exact h houtst

theorem clkIrq_of_live {s : State} {c : Nat} (h : clkLive s c = true) (code val : Nat) : clkIrq code val s c =
    wr (clerkIpPending c) (rd s (clerkIpPending c) ||| 2 ^ code) (modClk c (fun r => { r with why := tset 0 r.why code val }) s) :=
  if_pos h

theorem clkIrq_of_dead {s : State} {c : Nat} (h : clkLive s c = false) (code val : Nat) : clkIrq code val s c = s := by
  rw [clkIrq, if_neg (by simp [h])]

/-- A core's record and its pending interrupts: what an IPI may write of it. -/
def irqView (c : Nat) (s : State) : ClkCore × Nat := (clkOf s c, rd s (clerkIpPending c))

theorem irqView_clkIrq_ne {a c : Nat} (h : a ≠ c) (code val : Nat) (s : State) :
    irqView c (clkIrq code val s a) = irqView c s := by
  refine Prod.ext (clkOf_clkIrq_ne h.symm code val s) (rd_clkIrq _ _ _ _ _ ?_)
  simp only [fkey_clerkIpPending]
  exact clkBlock_inj h.symm

theorem irqView_clkIrq_congr {c : Nat} {y s : State} (h : irqView c y = irqView c s) (code val : Nat) :
    irqView c (clkIrq code val y c) = irqView c (clkIrq code val s c) := by
  obtain ⟨hcore, hpending⟩ := Prod.mk.inj h
  have hlive : clkLive y c = clkLive s c := by rw [clkLive, clkLive, hcore]
  cases hs : clkLive s c with
  | true =>
    rw [clkIrq_of_live (hlive.trans hs), clkIrq_of_live hs]
    refine Prod.ext ?_ ?_
    · simp only [irqView, wr_clkOf, clkOf_modClk_same, hcore]
    · simp only [irqView, rd_wr_same, hpending]
  | false =>
    rw [clkIrq_of_dead (hlive.trans hs), clkIrq_of_dead hs]
    exact h

/-- An IPI to the cores of a mask reaches each of its complex's cores that the mask names, once. -/
theorem irqView_sendIpi {c : Nat} (hc : c < 8) (mask : Nat) (s : State) {k : Nat} (hk : k < 4) :
    irqView (complexOf c * 4 + k) (sendIpi c mask s) =
      if inMask mask k = true then irqView (complexOf c * 4 + k) (clkIrq 5 (c % 4) s (complexOf c * 4 + k))
      else irqView (complexOf c * 4 + k) s := by
  rw [sendIpi, if_neg (by simp [isAssayerCore]; omega)]
  have hother : ∀ y j, j ≠ k → irqView (complexOf c * 4 + k) (clkIrq 5 (c % 4) y (complexOf c * 4 + j)) =
      irqView (complexOf c * 4 + k) y := fun y j hj => irqView_clkIrq_ne (by omega) _ _ _
  split
  · next hin =>
    obtain ⟨y, hy, hfold⟩ := foldl_at (irqView (complexOf c * 4 + k)) hother
      (List.Nodup.filter (inMask mask) List.nodup_range)
      (List.mem_filter.2 ⟨List.mem_range.2 hk, hin⟩) s
    exact hfold.trans (irqView_clkIrq_congr hy _ _)
  · next hout =>
    refine List.foldlRecOn (motive := fun y => irqView (complexOf c * 4 + k) y = irqView (complexOf c * 4 + k) s) _ _ rfl
      fun y hy j hj => (hother y j ?_).trans hy
    rintro rfl
    exact hout (List.mem_filter.1 hj).2

/-! ## Claims of the Toss (R330) -/

/-- A field of each core of complex x written with v. -/
def showAll (x : Nat) (f : Nat → Fld) (v : Nat) (s : State) : State := (complexCores x).foldl (fun y c => wr (f c) v y) s

theorem showAll_keeps_part {α : Type} (g : State → α) (hg : ∀ f v y, g (wr f v y) = g y) (x : Nat) (f : Nat → Fld) (v : Nat)
    (s : State) : g (showAll x f v s) = g s := foldl_fixes g (f := fun y c => wr (f c) v y) (fun y c => hg (f c) v y) _ s

theorem rd_showAll_ne {g : Fld} {f : Nat → Fld} (h : ∀ c, fkey g ≠ fkey (f c)) (x v : Nat) (s : State) :
    rd (showAll x f v s) g = rd s g :=
  foldl_fixes (fun y => rd y g) (f := fun y c => wr (f c) v y) (fun y c => rd_wr_ne (f c) g v y (h c)) _ s

theorem complexCores_nodup (x : Nat) : (complexCores x).Nodup := by simp [complexCores]

theorem rd_showAll_mem {x c : Nat} (hc : c ∈ complexCores x) {f : Nat → Fld} (hf : ∀ a b, a ≠ b → fkey (f a) ≠ fkey (f b))
    (v : Nat) (s : State) : rd (showAll x f v s) (f c) = v % 2 ^ (f c).w := by
  obtain ⟨y, -, hfold⟩ := foldl_at (fun y => rd y (f c)) (f := fun y a => wr (f a) v y)
    (fun y a ha => rd_wr_ne _ _ _ _ (hf _ _ (Ne.symm ha))) (complexCores_nodup x) hc s
  exact hfold.trans (rd_wr_same (f c) v y)

theorem claim_eq (x v : Nat) (s : State) : claim x v s =
    if v % 2 = 0 then
      if rdB s (clerkTossForcedJunior (4 * x)) then { showAll x clerkTossClaim (v % 2) s with
        toss := { (showAll x clerkTossClaim (v % 2) s).toss with unforce := x :: (showAll x clerkTossClaim (v % 2) s).toss.unforce } }
      else showAll x clerkTossClaim (v % 2) s
    else match s.toss.holder with
      | none => showAll x clerkTossClaim (v % 2) s
      | some h =>
        if h = x ∨ (cplxOf s x).fenced ∨ s.toss.pass.isSome then showAll x clerkTossClaim (v % 2) s
        else if 2 ≤ tget 0 s.toss.misses h then { showAll x clerkTossClaim (v % 2) s with
          toss := { (showAll x clerkTossClaim (v % 2) s).toss with pass := some (x, beat s + 1, 2) } }
        else event 7 [x] (recContained (nextSlice s) 7 x 0x0702 0 []
          (tossEvent 3 (showAll x clerkTossForcedJunior 1 (showAll x clerkTossClaim (v % 2) s)))) := rfl

theorem tossEvent_keeps_part {α : Type} (g : State → α) (hg : ∀ f v y, g (wr f v y) = g y)
    (hirq : ∀ y c, g (clkIrq 6 3 y c) = g y) (s : State) : g (tossEvent 3 s) = g s :=
  foldl_fixes g (f := fun a c => clkIrq 6 3 (wr (clerkTossEvent c) 3 a) c) (fun y c => (hirq _ c).trans (hg _ _ _)) _ s

theorem rd_tossEvent {g : Fld} (hevent : ∀ c, fkey g ≠ fkey (clerkTossEvent c)) (hpending : ∀ c, fkey g ≠ fkey (clerkIpPending c))
    (s : State) : rd (tossEvent 3 s) g = rd s g :=
  foldl_fixes (fun y => rd y g) (f := fun a c => clkIrq 6 3 (wr (clerkTossEvent c) 3 a) c)
    (fun y c => (rd_clkIrq _ _ _ _ _ (hpending c)).trans (rd_wr_ne _ _ _ _ (hevent c))) _ s

theorem event_regs (kind : Nat) (detail : List Nat) (s : State) : (event kind detail s).regs = s.regs := by
  simp only [event]
  split <;> rfl

theorem event_ras (kind : Nat) (detail : List Nat) (s : State) : (event kind detail s).ras = s.ras := by
  simp only [event]
  split <;> rfl

theorem toss_recContained (sl kind unit cause addr : Nat) (detail : List Nat) (s : State) :
    (recContained sl kind unit cause addr detail s).toss = s.toss :=
  foldl_clkIrq State.toss _ _ _ (fun y c _ => clkIrq_toss _ _ y c) _

/-- A claim that forces its complex to be the junior: what is shown of it, and the record. -/
theorem claim_forced {x h : Nat} {v : Nat} {s : State} (hv : v % 2 = 1) (hholder : s.toss.holder = some h) (hne : h ≠ x)
    (hfenced : (cplxOf s x).fenced = false) (hpass : s.toss.pass = none) (hmiss : tget 0 s.toss.misses h < 2) :
    (claim x v s).toss.pass = none ∧ (∀ c ∈ complexCores x, rd (claim x v s) (clerkTossClaim c) = 1) ∧
      (∀ c ∈ complexCores x, rd (claim x v s) (clerkTossForcedJunior c) = 1) ∧ recordedIn 2 7 x 0x0702 s (claim x v s) := by
  rw [claim_eq, if_neg (by omega), hholder]
  simp only [hne, hfenced, hpass, Option.isSome_none, Bool.false_eq_true, or_self, if_false]
  rw [if_neg (by omega)]
  have hread : ∀ g, (∀ c, fkey g ≠ fkey (clerkTossEvent c)) → (∀ c, fkey g ≠ fkey (clerkIpPending c)) →
      rd (event 7 [x] (recContained (nextSlice s) 7 x 0x0702 0 []
          (tossEvent 3 (showAll x clerkTossForcedJunior 1 (showAll x clerkTossClaim (v % 2) s))))) g =
        rd (showAll x clerkTossForcedJunior 1 (showAll x clerkTossClaim (v % 2) s)) g := fun g hevent hpending => by
    rw [rd_of_regs (event_regs 7 [x] _), recContained, rd_recPlatform _ _ _ _ _ _ _ _ _ _ fun c _ => hpending c,
      rd_tossEvent hevent hpending]
  refine ⟨?_, fun c hc => ?_, fun c hc => ?_, ?_⟩
  · rw [event_toss, toss_recContained, tossEvent_keeps_part State.toss wr_toss (fun _ _ => clkIrq_toss _ _ _ _),
      showAll_keeps_part State.toss wr_toss, showAll_keeps_part State.toss wr_toss]
    exact hpass
  · rw [hread _ (fun a => by simp [clkBlock]; omega)
      (fun a => by simp [clkBlock]; omega),
      rd_showAll_ne (fun a => by simp [clkBlock]; omega),
      rd_showAll_mem hc (fun a b hab => by simp [clkBlock, hab]), hv]
    rfl
  · rw [hread _ (fun a => by simp [clkBlock]; omega)
      (fun a => by simp [clkBlock]; omega),
      rd_showAll_mem hc (fun a b hab => by simp [clkBlock, hab])]
    rfl
  · have hras : ∀ y, (showAll x clerkTossForcedJunior 1 (showAll x clerkTossClaim 1 y)).ras = y.ras := fun y => by
      rw [showAll_keeps_part State.ras wr_ras, showAll_keeps_part State.ras wr_ras]
    refine recordedIn.of_ras (recContained_recordedIn (t := tossEvent 3 (showAll x clerkTossForcedJunior 1
      (showAll x clerkTossClaim (v % 2) s))) _ _ _ _ _ _ ?_ ?_) (event_ras _ _ _)
    · rw [tossEvent_keeps_part State.ras wr_ras (fun _ _ => clkIrq_ras _ _ _ _), hv, hras]
    · rw [beat, rd_tossEvent, rd_showAll_ne, rd_showAll_ne]
      · rfl
      all_goals exact fun c => Nat.ne_of_lt (by simp [clkBlock, show fkey clkBeatBeat = 0 from rfl])

theorem rd_tossClaim_showAll {x v : Nat} (hv : v < 2) (s : State) :
    ∀ c ∈ complexCores x, rd (showAll x clerkTossClaim v s) (clerkTossClaim c) = v :=
  fun _ hc => (rd_showAll_mem hc (fun a b hab => by simp [clkBlock, hab]) v s).trans (Nat.mod_eq_of_lt hv)

theorem rd_withToss (q : Toss) (s : State) (f : Fld) : rd { s with toss := q } f = rd s f := rfl

/-- Settles O18: an interrupt enters with its cause saved, an IPI reaches the cores its mask names, a claim by what is held. -/
theorem clerkInterruptsAndClaims : Obligations.ClerkInterruptsAndClaims := by
  unfold Obligations.ClerkInterruptsAndClaims
  refine fun s => ⟨?_, ?_, ?_, ?_, ?_, ?_, ?_⟩
  · intro c code hlive hie hcode hmask hslot hload houtst
    refine ⟨_, congrArg Host.Outcome.next (interruptEntry_of_ready ⟨hlive, hie, hcode, hmask, ?_, ?_, houtst⟩),
      interruptEntry_done hcode⟩
    · rw [hslot]
      rfl
    · rw [hload]
      rfl
  · exact fun c code h => congrArg Host.Outcome.next (interruptEntry_of_not_ready h)
  · intro c mask hc
    refine ⟨_, congrArg Host.Outcome.next (if_pos hc), fun k hk => ⟨fun hin hlive => ?_, fun hnot => ?_⟩⟩
    · have hview := irqView_sendIpi hc (mask % 16) s hk
      rw [if_pos hin, clkIrq_of_live hlive] at hview
      obtain ⟨hcore, hpending⟩ := Prod.mk.inj hview
      rw [rd_wr_same] at hpending
      rw [wr_clkOf, clkOf_modClk_same] at hcore
      refine ⟨hpending, ?_⟩
      rw [hcore]
      exact tget_tset_same _ _ _ _
    · have hview := irqView_sendIpi hc (mask % 16) s hk
      have hsame : irqView (complexOf c * 4 + k) (sendIpi c (mask % 16) s) = irqView (complexOf c * 4 + k) s := by
        obtain hout | hdead := hnot
        · rwa [if_neg (by simp [hout])] at hview
        · rwa [clkIrq_of_dead hdead, ite_self] at hview
      exact Prod.mk.inj hsame
  · intro c hlive
    refine ⟨_, congrArg Host.Outcome.next (if_pos hlive), ?_, ?_, fun k hk => clkOf_modClk_ne hk _ s, rfl⟩
    · rw [clkOf_modClk_same]
    · rw [clkOf_modClk_same]
  · intro x h v hx hv hholder hne hfenced hpass
    refine ⟨_, congrArg Host.Outcome.next (if_pos hx), ?_, fun hmiss => ?_, fun hmiss => ?_⟩
    · by_cases hmiss : tget 0 s.toss.misses h < 2
      · obtain ⟨-, hclaim, -, -⟩ := claim_forced hv hholder hne hfenced hpass hmiss
        exact hclaim
      · intro c hc
        rw [claim_eq, if_neg (by omega), hholder]
        simp only [hne, hfenced, hpass, Option.isSome_none, Bool.false_eq_true, or_self, if_false]
        rw [if_pos (by omega), rd_withToss, hv]
        exact rd_tossClaim_showAll Nat.one_lt_two s c hc
    · rw [claim_eq, if_neg (by omega), hholder]
      simp only [hne, hfenced, hpass, Option.isSome_none, Bool.false_eq_true, or_self, if_false, if_pos hmiss]
    · obtain ⟨hnone, -, hforced, hrec⟩ := claim_forced hv hholder hne hfenced hpass hmiss
      exact ⟨hnone, hforced, hrec⟩
  · intro x v hx hv hholder
    refine ⟨_, congrArg Host.Outcome.next (if_pos hx), ?_⟩
    rw [claim_eq, if_neg (by omega), hholder]
    simp only [true_or, if_true]
    exact ⟨showAll_keeps_part State.toss wr_toss _ _ _ _, showAll_keeps_part State.ras wr_ras _ _ _ _,
      showAll_keeps_part State.boot wr_boot _ _ _ _⟩
  · intro x v hx hv
    refine ⟨_, congrArg Host.Outcome.next (if_pos hx), fun c hc => ?_, fun hforced => ?_⟩
    · have hshow := rd_tossClaim_showAll Nat.two_pos s c hc
      rw [claim_eq, if_pos hv, hv]
      split
      · exact (rd_withToss _ _ _).trans hshow
      · exact hshow
    · rw [claim_eq, if_pos hv, if_pos hforced]
      exact List.mem_cons_self

end Sys2Proof.Machine
end

section
/-! Commands of a mailbox: what a taken one leaves when it is answered at once, or goes on (R339 to R341). -/
set_option Elab.async false
namespace Sys2Proof.Machine

/-- The state in which a taken command is carried out. -/
def started (i : Nat) (s : State) : State := setMbx i { mbxOf s i with phase := .started } s

theorem onCmd_of_taken {s : State} {i code : Nat} {c : Bytes} (h : takenAs s i code c) (f : Bytes → State → State) :
    onCmd i code f s = f c (started i s) := by
  rw [takenAs] at h
  rw [onCmd, h]
  rfl

/-- The copied command is that of the mailbox. -/
theorem copy_of_taken {s : State} {i code : Nat} {c : Bytes} (h : takenAs s i code c) : (mbxOf s i).copy = c := by
  unfold takenAs takenCmd at h
  simp only [] at h
  split at h
  · exact Option.some.inj h
  · exact absurd h nofun

theorem mbxOf_started (i : Nat) (s : State) : mbxOf (started i s) i = { mbxOf s i with phase := .started } :=
  setMbx_mbxOf_same i _ s

theorem rd_started (i : Nat) (s : State) (f : Fld) : rd (started i s) f = rd s f := rfl

theorem beat_started (i : Nat) (s : State) : beat (started i s) = beat s := rfl

theorem goesOn_started (i : Nat) (s : State) : goesOn (started i s) i := by
  rw [goesOn, mbxOf_started]

theorem goesOn_of_mbx {t u : State} {i : Nat} (h : goesOn t i) (hmbx : mbxOf u i = mbxOf t i) : goesOn u i := by
  rw [goesOn, hmbx]
  exact h

theorem stageDone_mbxOf (i cl : Nat) (data : Bytes) (y : State) : mbxOf (stageDone i cl data y) i = { mbxOf y i with
    phase := .staged
    staged := some (beat y, ⟨2, min cl 0xFFFF, argCode (mbxOf y i).copy, rd y (mbxSeqSeq i), (mbxOf y i).taken, 0, data⟩) } := by
  simp only [stageDone]
  split
  · exact setMbx_mbxOf_same _ _ _
  · exact setMbx_mbxOf_same _ _ _

/-- A result staged in a state that shows the mailbox's command, its number and the beat as s does. -/
theorem doneIn_stageDone {s y : State} {i : Nat} (cl : Nat) (data : Bytes) (hcopy : (mbxOf y i).copy = (mbxOf s i).copy)
    (htaken : (mbxOf y i).taken = (mbxOf s i).taken) (hseq : rd y (mbxSeqSeq i) = rd s (mbxSeqSeq i)) (hbeat : beat y = beat s) :
    doneIn s (stageDone i cl data y) i cl data := by
  rw [doneIn, stageDone_mbxOf, hcopy, htaken, hseq, hbeat]
  exact ⟨rfl, rfl⟩

/-- A result staged at once. -/
theorem doneIn_started (s : State) (i cl : Nat) (data : Bytes) : doneIn s (stageDone i cl data (started i s)) i cl data :=
  doneIn_stageDone cl data (by rw [mbxOf_started]) (by rw [mbxOf_started]) rfl rfl

theorem doneIn.of_mbx {s t u : State} {i cl : Nat} {data : Bytes} (h : doneIn s t i cl data) (hmbx : mbxOf u i = mbxOf t i) :
    doneIn s u i cl data := by
  rw [doneIn, hmbx]
  exact h

/-- A part of the state that neither the mailboxes nor the registers hold is kept by a result. -/
theorem stageDone_keeps_part {α : Type} (g : State → α) (hmbx : ∀ i m y, g (setMbx i m y) = g y)
    (hregs : ∀ f v y, g (wr f v y) = g y) (i cl : Nat) (data : Bytes) (s : State) : g (stageDone i cl data s) = g s := by
  simp only [stageDone]
  split
  · exact hmbx _ _ _
  · exact (hregs _ _ _).trans (hmbx _ _ _)

end Sys2Proof.Machine
end

section
/-! What sending a packet may move (R245, R252, R256). -/
set_option Elab.async false
namespace Sys2Proof.Machine

/-- t is s but for what the ports of the fabric hold, the packets that wait and the next free choice. -/
def SentFrom (s t : State) : Prop :=
  ∃ ports waiting ctr, t = { s with fabric := { s.fabric with ports := ports, waiting := waiting }, freeCtr := ctr }

theorem SentFrom.refl (s : State) : SentFrom s s := ⟨s.fabric.ports, s.fabric.waiting, s.freeCtr, rfl⟩

theorem SentFrom.trans {s t u : State} (h : SentFrom s t) (k : SentFrom t u) : SentFrom s u := by
  obtain ⟨p, w, n, rfl⟩ := h
  obtain ⟨q, v, m, rfl⟩ := k
  exact ⟨q, v, m, rfl⟩

theorem SentFrom.modPort (k : Nat) (f : FabPort → FabPort) (s : State) : SentFrom s (modPort k f s) :=
  ⟨_, s.fabric.waiting, s.freeCtr, rfl⟩

theorem SentFrom.waitPkt (p : Pkt) (s : State) : SentFrom s (waitPkt p s) := ⟨s.fabric.ports, _, s.freeCtr, rfl⟩

theorem SentFrom.freeNext (s : State) : SentFrom s (freeNext s) := ⟨s.fabric.ports, s.fabric.waiting, _, rfl⟩

theorem SentFrom.txFlit (k kind vc pos : Nat) (l : List Pkt) (s : State) : SentFrom s (txFlit k kind vc pos l s) :=
  ⟨_, s.fabric.waiting, s.freeCtr, rfl⟩

theorem SentFrom.putOut (k : Nat) (p : Pkt) (s : State) : SentFrom s (putOut k p s) :=
  (SentFrom.modPort k _ s).trans (.txFlit _ _ _ _ _ _)

theorem SentFrom.routeOne (p : Pkt) (s : State) : SentFrom s (routeOne p s) := by
  unfold Machine.routeOne
  split
  · exact .refl s
  · simp only []
    repeat' split
    all_goals first | exact .putOut _ _ s | exact .waitPkt _ s

theorem SentFrom.relayMsg (p : Pkt) (m : Msg) (s : State) : SentFrom s (relayMsg p m s) := by
  unfold Machine.relayMsg
  repeat' split
  · exact .putOut _ _ s
  · exact .waitPkt _ s
  · exact .waitPkt _ s

theorem SentFrom.sendInShare (g : ShareSeg) (q : Nat) (l : List Pkt) (s : State) : SentFrom s (sendInShare g q l s) := by
  unfold Machine.sendInShare
  split
  · exact .txFlit _ _ _ _ _ s
  · exact List.foldlRecOn (motive := SentFrom s) l _ (.refl s) fun y hy p _ => hy.trans (.waitPkt _ y)

theorem SentFrom.sendAnyPos (g : ShareSeg) (p : Pkt) (s : State) : SentFrom s (sendAnyPos g p s) := by
  unfold Machine.sendAnyPos
  simp only []
  split
  · exact (SentFrom.freeNext s).trans (.sendInShare _ _ _ _)
  · exact .waitPkt _ s

theorem SentFrom.sendPkt (p : Pkt) (s : State) : SentFrom s (sendPkt p s) := by
  unfold Machine.sendPkt
  simp only []
  split
  · exact .sendAnyPos _ _ s
  · split
    · exact .routeOne _ s
    · split
      · exact .relayMsg _ _ s
      · split
        · exact .refl s
        · exact .waitPkt _ s

theorem SentFrom.sendMsg (d : Nat) (m : Msg) (s : State) : SentFrom s (sendMsg d m s) := .sendPkt _ s

/-- A part that none of these is keeps. -/
theorem SentFrom.part {α : Type} {s t : State} (h : SentFrom s t) (g : State → α)
    (hg : ∀ p w n, g { s with fabric := { s.fabric with ports := p, waiting := w }, freeCtr := n } = g s) : g t = g s := by
  obtain ⟨p, w, n, rfl⟩ := h
  exact hg p w n

end Sys2Proof.Machine
end

section
/-! Commands of the fabric (O46). -/
set_option Elab.async false
namespace Sys2Proof.Machine

/-- The share that fabric.share asks for. -/
def shareAsked (i : Nat) (c : Bytes) (s : State) : ShareReq :=
  ⟨i, ⟨clampR 1 256 (arg c 0 2), myId s, clampMember s (arg c 2 1), clampR 1 32 (arg c 3 1), true⟩,
    chg (arg c 0 2) (clampR 1 256 (arg c 0 2)) + chg (arg c 2 1) (clampMember s (arg c 2 1)) +
      chg (arg c 3 1) (clampR 1 32 (arg c 3 1)) + chg (arg c 4 1) (clampEnum 2 0 (arg c 4 1)),
    none, [], (pathOf s (myId s) (clampMember s (arg c 2 1))).length, 0⟩

/-- What fabric.share does with share request q. -/
def answerShare (i : Nat) (q : ShareReq) (rel : Nat) (s : State) : State :=
  if rel = 1 then
    match (sharesHere s q.share.ten).find? fun h => h.a == q.share.d || h.d == q.share.d with
    | some h => addStep i (beat s + 1) (.stage i q.clamped (shareResult q 1 q.hops (beat s + 1) true))
        (addStep i (beat s + 1) (.shareOff h) (started i s))
    | none => stageDone i q.clamped (shareResult q 5 q.hops 0 (rel == 1)) (started i s)
  else if isSealed s q.share.ten = false then stageDone i q.clamped (shareResult q 2 q.hops 0 (rel == 1)) (started i s)
  else if hasRoute s q.share.d = false ∨ q.share.d = myId s then
    stageDone i q.clamped (shareResult q 4 q.hops 0 (rel == 1)) (started i s)
  else if 8 ≤ (sharesHere s q.share.ten).length then
    stageDone i q.clamped (shareResult q 6 q.hops 0 (rel == 1)) (started i s)
  else sendMsg q.share.d (.sealQuery q.share.ten false false) (modFab (fun f => { f with outCmd := some q }) (started i s))

theorem fabricShare_started (i : Nat) (c : Bytes) (s : State) :
    fabricShare i c (started i s) = answerShare i (shareAsked i c s) (clampEnum 2 0 (arg c 4 1)) s := rfl

/-- The branches of fabric.share. -/
theorem answerShare_done (i : Nat) (q : ShareReq) (rel : Nat) (s : State) :
    (rel = 1 → (sharesHere s q.share.ten).find? (fun h => h.a == q.share.d || h.d == q.share.d) = none →
      doneIn s (answerShare i q rel s) i q.clamped (shareResult q 5 q.hops 0 true)) ∧
    (∀ h, rel = 1 → (sharesHere s q.share.ten).find? (fun h => h.a == q.share.d || h.d == q.share.d) = some h →
      goesOn (answerShare i q rel s) i ∧ (answerShare i q rel s).journal = s.journal ++ [⟨i, beat s + 1, .shareOff h⟩,
        ⟨i, beat s + 1, .stage i q.clamped (shareResult q 1 q.hops (beat s + 1) true)⟩]) ∧
    (rel = 0 → isSealed s q.share.ten = false →
      doneIn s (answerShare i q rel s) i q.clamped (shareResult q 2 q.hops 0 false)) ∧
    (rel = 0 → isSealed s q.share.ten = true → hasRoute s q.share.d = false ∨ q.share.d = myId s →
      doneIn s (answerShare i q rel s) i q.clamped (shareResult q 4 q.hops 0 false)) ∧
    (rel = 0 → isSealed s q.share.ten = true → hasRoute s q.share.d = true → q.share.d ≠ myId s →
      8 ≤ (sharesHere s q.share.ten).length →
      doneIn s (answerShare i q rel s) i q.clamped (shareResult q 6 q.hops 0 false)) ∧
    (rel = 0 → isSealed s q.share.ten = true → hasRoute s q.share.d = true → q.share.d ≠ myId s →
      (sharesHere s q.share.ten).length < 8 → goesOn (answerShare i q rel s) i ∧
        (answerShare i q rel s).fabric.outCmd = some q ∧ samePart .journal s (answerShare i q rel s)) := by
  unfold answerShare
  refine ⟨fun hrel hnone => ?_, fun h hrel hsome => ?_, fun hrel hopen => ?_, fun hrel hsealed hroute => ?_,
    fun hrel hsealed hroute hme hfull => ?_, fun hrel hsealed hroute hme hroom => ?_⟩
  all_goals subst hrel
  · rw [if_pos rfl, hnone]
    exact doneIn_started s i _ _
  · rw [if_pos rfl, hsome]
    exact ⟨goesOn_of_mbx (goesOn_started i s) rfl, List.append_assoc _ _ _⟩
  · rw [if_neg (by decide), if_pos hopen]
    exact doneIn_started s i _ _
  · rw [if_neg (by decide), if_neg (by simp [hsealed]), if_pos hroute]
    exact doneIn_started s i _ _
  · rw [if_neg (by decide), if_neg (by simp [hsealed]), if_neg (by simp [hroute, hme]), if_pos hfull]
    exact doneIn_started s i _ _
  · rw [if_neg (by decide), if_neg (by simp [hsealed]), if_neg (by simp [hroute, hme]), if_neg (by omega)]
    have hsent := SentFrom.sendMsg q.share.d (.sealQuery q.share.ten false false)
      (modFab (fun f => { f with outCmd := some q }) (started i s))
    exact ⟨goesOn_of_mbx (goesOn_started i s) (hsent.part (fun y => mbxOf y i) fun _ _ _ => rfl),
      hsent.part (fun y => y.fabric.outCmd) fun _ _ _ => rfl, hsent.part State.journal fun _ _ _ => rfl⟩

/-- Settles O46: each command's branches, one result or one deferred step for each. -/
theorem fabricCommands : Obligations.FabricCommands := by
  unfold Obligations.FabricCommands
  refine fun s i c hi => ⟨fun h => ?_, fun h => ?_, fun h => ?_, fun h => ?_, fun h => ?_⟩
  · exact ⟨_, congrArg Host.Outcome.next (onCmd_of_taken h (fabricStatus i)), doneIn_started s i _ _⟩
  · exact ⟨_, _, rfl, congrArg Host.Outcome.next (onCmd_of_taken h (fabricRoute i)), doneIn_started s i _ _⟩
  · refine ⟨_, _, _, _, rfl, rfl, rfl, congrArg Host.Outcome.next (onCmd_of_taken h (fabricPort i)), ?_⟩
    unfold fabricPort
    simp only []
    rw [show clampUnit 6 (fabPortPresent (started i s)) (arg c 0 1) = clampUnit 6 (fabPortPresent s) (arg c 0 1) from rfl]
    generalize clampUnit 6 (fabPortPresent s) (arg c 0 1) = k
    generalize clampEnum 3 0 (arg c 1 1) = a
    refine ⟨fun ha => ?_, fun ha hoos => ?_, fun ha hoos => ?_, fun hgo => ?_⟩
    · subst ha
      rw [if_pos (.inl rfl)]
      exact doneIn_started s i _ _
    · subst ha
      rw [if_pos (.inr (.inl ⟨rfl, hoos⟩))]
      exact doneIn_started s i _ _
    · subst ha
      rw [if_pos (.inr (.inr ⟨rfl, hoos⟩))]
      exact doneIn_started s i _ _
    · rw [if_neg ?_]
      · exact ⟨goesOn_of_mbx (goesOn_started i s) rfl, rfl⟩
      · rintro (ha | ⟨ha, hoos⟩ | ⟨ha, hoos⟩)
        · omega
        · obtain ⟨-, hno⟩ | ⟨hother, -⟩ := hgo
          · exact absurd (hno.symm.trans hoos) (by decide)
          · omega
        · obtain ⟨hother, -⟩ | ⟨-, hyes⟩ := hgo
          · omega
          · exact absurd (hoos.symm.trans hyes) (by decide)
  · refine ⟨_, if min 63 (arg c 0 1) = myId s then (if min 63 (arg c 0 1) = 63 then 62 else min 63 (arg c 0 1) + 1)
      else min 63 (arg c 0 1), _, _, rfl, rfl, congrArg Host.Outcome.next (onCmd_of_taken h (fabricGrant i)), ?_, ?_,
      fun hne => if_neg hne, ?_, ?_⟩
    · generalize min 63 (arg c 0 1) = d
      split
      · split <;> omega
      · next hne => exact .inl hne
    · have hd : min 63 (arg c 0 1) < 64 := by omega
      generalize min 63 (arg c 0 1) = d at hd
      split
      · split <;> omega
      · exact hd
    · exact stageDone_keeps_part State.due setMbx_due wr_due _ _ _ _
    · exact doneIn_stageDone _ _ (by rw [addDue_mbxOf, mbxOf_started]) (by rw [addDue_mbxOf, mbxOf_started]) rfl rfl
  · exact ⟨_, _, _, _, _, _, shareAsked i c s, rfl, rfl, rfl, rfl, rfl, rfl,
      congrArg Host.Outcome.next (onCmd_of_taken h (fabricShare i)), answerShare_done i (shareAsked i c s) _ s⟩

end Sys2Proof.Machine
end

section
/-! core.start for a mailbox number beyond the 260 there are (O25). -/
set_option Elab.async false
namespace Sys2Proof.Machine

/-- A mailbox number whose sequence register, were it one, would stand where hart 0's dzcachectl does. -/
def strayMbx : Nat := (0x200003e00 - 0xF03000) / 8

/-- Hart 0 of pair 0 is offline in slot 0, and its data-cache bypass is set. -/
def strayState : State :=
  wr (dzcachectlDbypass 0) 1 (wr (pairStatusSlotValid 0) 1 State.reset)

/-- Refutes O25: mailbox numbers are not bounded there, and the start of a hart resets its dzcachectl, which the result then reads as
the number of its command. -/
theorem not_coreCommands : ¬ Obligations.CoreCommands := by
  unfold Obligations.CoreCommands
  intro h
  obtain ⟨-, -, hstart, -⟩ := h strayState strayMbx []
  obtain ⟨-, -, -, -, -, -, -, -, hstaged⟩ := hstart 0 0 0 _ (by decide +kernel) (by decide +kernel) (by decide +kernel)
    (by decide +kernel) (by decide +kernel) rfl
  have hbefore : rd strayState (mbxSeqSeq strayMbx) = 1 := by decide +kernel
  have hafter : (mbxOf (applyAct strayState (.cmdStart strayMbx 0 0 0 none)) strayMbx).staged.map (·.2.seq) = some 0 := by
    decide +kernel
  rw [hstaged, Option.map_some, Option.some.injEq] at hafter
  exact absurd (hbefore.symm.trans hafter) (by decide)

end Sys2Proof.Machine
end

section
/-! Register contents that no write leaves: the statements take any state, so a field may hold more than its bits. -/
set_option Elab.async false
namespace Sys2Proof.Machine

/-- s with field f reading as v, whatever the field's width. -/
def rawReg (f : Fld) (v : Nat) (s : State) : State := { s with regs := tset 0 s.regs (fkey f) (v ^^^ f.rst) }

theorem rd_rawReg_same (f : Fld) (v : Nat) (s : State) : rd (rawReg f v s) f = v := by
  rw [rd, rawReg, tget_tset_same, Nat.xor_assoc, Nat.xor_self, Nat.xor_zero]

theorem rd_rawReg_ne {f g : Fld} (h : fkey g ≠ fkey f) (v : Nat) (s : State) : rd (rawReg f v s) g = rd s g := by
  rw [rd, rawReg, tget_tset_ne _ _ _ _ _ h, rd]

end Sys2Proof.Machine
end

section
/-! A pair's slot as a register that holds more than its field's width (O24). -/
set_option Elab.async false
namespace Sys2Proof.Machine

/-- Pair 0 is to resume on Libero 1; its slot register holds 200, which no write leaves in its seven bits. -/
def wideSlot : State := setPair 0 { resumeAt := some 0, libero := some 1 } (rawReg (pairStatusSlot 0) 200 State.reset)

theorem slot_wideSlot : rd wideSlot (pairStatusSlot 0) = 200 := rd_rawReg_same (pairStatusSlot 0) 200 State.reset

/-- No pair of that state is bound to a slot. -/
theorem slotValid_wideSlot (q : Nat) : rdB wideSlot (pairStatusSlotValid q) = false := by
  have hne : fkey (pairStatusSlotValid q) ≠ fkey (pairStatusSlot 0) := by
    simp only [fkey, pairStatusSlotValid, pairStatusSlot]
    omega
  have hread : rd wideSlot (pairStatusSlotValid q) = 0 := (rd_rawReg_ne hne 200 State.reset).trans (rd_reset _)
  rw [rdB, hread]
  rfl

/-- Refutes O24: it takes any register contents, and a slot number wider than its field is cut when the Libero takes it: that
takes slot 72, so no pair runs hart 400, whose pair number stays as it was. -/
theorem not_decisionAndSparingSequences : ¬ Obligations.DecisionAndSparingSequences := by
  unfold Obligations.DecisionAndSparingSequences
  rintro ⟨-, h⟩
  obtain ⟨-, -, hresume, -⟩ := h wideSlot 0 (by decide)
  obtain ⟨t, ht, -, -, -, -, -, -, -, -, hid, -⟩ := hresume 0 1 (by decide +kernel) (Nat.zero_le _) (by decide +kernel) (by decide)
    (by decide) (by decide +kernel) fun q _ hvalid => absurd ((slotValid_wideSlot q).symm.trans hvalid) (by decide)
  obtain rfl : hartResume 0 wideSlot = t := Host.Outcome.next.inj ht
  rw [slot_wideSlot] at hid
  have hstays : rd (hartResume 0 wideSlot) (dzpairPairId 400) = 0 := by decide +kernel
  exact absurd (hstays.symm.trans hid) (by decide)

end Sys2Proof.Machine
end

section
/-! A count of refreshes owed as a register that holds more than its field's width (O33). -/
set_option Elab.async false
namespace Sys2Proof.Machine

/-- Channel 0 serves; its rank 0 shows 100 refreshes owed, which no write leaves in the field, and has nothing to accrue. -/
def wideOwed : State :=
  rawReg (refOwed 0 0) 100 (setChan 0 { accrued := [0] } (wr (mcStatusState 0) 3 State.reset))

/-- Refutes O33: it takes any register contents, and a count wider than its field is cut when one is taken from it. One refresh
of a hundred starts, and the field takes what its bits hold of the rest. -/
theorem not_refreshAlertsAndRecovery : ¬ Obligations.RefreshAlertsAndRecovery := by
  unfold Obligations.RefreshAlertsAndRecovery
  rintro ⟨h, -⟩
  obtain ⟨hrefresh, -⟩ := h wideOwed 0 0 _ _ (by decide) (by decide) rfl rfl
  obtain ⟨t, ht, -, -, -, howed, -⟩ := hrefresh (by decide +kernel) (by decide +kernel) (by decide +kernel) (by decide +kernel)
  obtain rfl : refreshOwed 0 0 wideOwed = t := Host.Outcome.next.inj ht
  obtain ⟨hleft, -⟩ := howed (by decide +kernel) (by decide +kernel)
  have howed : rd wideOwed (refOwed 0 0) = 100 := rd_rawReg_same _ _ _
  rw [howed] at hleft
  exact absurd hleft (by decide +kernel)

end Sys2Proof.Machine
end

section
/-! The SPDM responder (R385): which answer a request gets by the stage of its connection. -/
set_option Elab.async false
namespace Sys2Proof.Machine

@[simp] theorem spdmOf_setSpdm_same (k : Nat) (x : Spdm) (s : State) : spdmOf (setSpdm k x s) k = x :=
  tget_tset_same _ _ _ _

theorem spdmOf_setSpdm_ne {k j : Nat} (h : j ≠ k) (x : Spdm) (s : State) : spdmOf (setSpdm k x s) j = spdmOf s j :=
  tget_tset_ne _ _ _ _ _ h

/-- A connection exists: over I3C, or over a group that is present. -/
def connected (s : State) (k : Nat) : Prop := k < 9 ∧ (k = 0 ∨ groupPresent s (k - 1) = true)

theorem connected_iff (s : State) (k : Nat) :
    connected s k ↔ ¬ (9 ≤ k ∨ (1 ≤ k ∧ groupPresent s (k - 1) = false)) := by
  cases h : groupPresent s (k - 1)
  all_goals simp [connected, h]

section
variable {s : State} {k need : Nat} (f : Spdm → Spdm)

theorem spdm_unconnected (h : ¬ connected s k) : spdm k need f s = s :=
  if_pos (Decidable.not_not.1 (mt (connected_iff s k).2 h))

theorem spdm_absent (hc : connected s k) (h : s.assayer.hung = true ∨ s.assayer.tile = none) :
    spdm k need f s = setSpdm k { spdmOf s k with answer := none } s :=
  (if_neg ((connected_iff s k).1 hc)).trans (if_pos (h.imp id Option.isNone_iff_eq_none.2))

section
variable (hc : connected s k) (hung : s.assayer.hung = false) (htile : s.assayer.tile ≠ none)
include hc hung htile

theorem spdm_busy (h : s.assayer.taking ≠ none) :
    spdm k need f s = setSpdm k { spdmOf s k with answer := some (.error 0x03) } s := by
  have hhere : ¬ (s.assayer.hung = true ∨ s.assayer.tile.isNone = true) := by simp [hung, htile]
  rw [spdm, if_neg ((connected_iff s k).1 hc), if_neg hhere, if_pos (Option.isSome_iff_ne_none.2 h)]
  rfl

theorem spdm_at_stage (h : s.assayer.taking = none) (hst : need ≤ (spdmOf s k).stage) :
    spdm k need f s = setSpdm k (f (spdmOf s k)) s := by
  have hhere : ¬ (s.assayer.hung = true ∨ s.assayer.tile.isNone = true) := by simp [hung, htile]
  rw [spdm, if_neg ((connected_iff s k).1 hc), if_neg hhere, if_neg (by simp [h]), if_neg (Nat.not_lt.2 hst)]

theorem spdm_too_early (h : s.assayer.taking = none) (hst : (spdmOf s k).stage < need) :
    spdmOf (spdm k need f s) k = { spdmOf s k with answer := some (.error 0x04) } := by
  have hhere : ¬ (s.assayer.hung = true ∨ s.assayer.tile.isNone = true) := by simp [hung, htile]
  rw [spdm, if_neg ((connected_iff s k).1 hc), if_neg hhere, if_neg (by simp [h]), if_pos hst, spdmOf_setSpdm_same]
  rfl

end
end

/-- Every request is answered through the responder, on a state whose connections and Assayer are those it found. -/
theorem spdm_of_request (k : Nat) (i : Instr) (s : State) (hi : i ∈ [Instr.getVersion k, .getCapabilities k,
    .negotiateAlgorithms k true, .getDigests k, .getCertificate k 0 0 64, .challenge k 0 0, .getMeasurements k 1 0,
    .keyExchange k 0 0, .finish k 0 true, .endSession k 0, .vendorDefinedRequest k 0x1F9D 0 0 64]) :
    ∃ need f u, exec i s = .next (spdm k need f u) ∧ u.assayer = s.assayer ∧ u.chip = s.chip := by
  simp only [List.mem_cons, List.not_mem_nil, or_false] at hi
  rcases hi with rfl | rfl | rfl | rfl | rfl | rfl | rfl | rfl | rfl | rfl | rfl
  all_goals exact ⟨_, _, _, rfl, rfl, rfl⟩

theorem connected_of_chip {s u : State} {k : Nat} (hchip : u.chip = s.chip) (h : connected s k) : connected u k := by
  unfold connected groupPresent vOf at *
  rwa [hchip]

/-- A request that needs stage 3 finds it missing. -/
theorem spdm_of_early {k : Nat} {i : Instr} (s : State) (hi : i ∈ [Instr.getDigests k, .getCertificate k 0 0 64, .challenge k 0 0,
    .getMeasurements k 1 0, .finish k 0 true, .endSession k 0, .vendorDefinedRequest k 0x1F9D 0 0 64]) :
    ∃ f, exec i s = .next (spdm k 3 f s) := by
  simp only [List.mem_cons, List.not_mem_nil, or_false] at hi
  rcases hi with rfl | rfl | rfl | rfl | rfl | rfl | rfl
  all_goals exact ⟨_, rfl⟩

/-- Settles O55: each request is `spdm` of its own answer, which the connection's stage decides. -/
theorem spdmResponder : Obligations.SpdmResponder := by
  unfold Obligations.SpdmResponder
  intro s k
  refine ⟨fun h => ?_, fun hk hpres => ?_⟩
  · have hun : ¬ connected s k := fun hc => (connected_iff s k).1 hc h
    exact ⟨congrArg Host.Outcome.next (spdm_unconnected _ hun), congrArg Host.Outcome.next (spdm_unconnected _ hun)⟩
  · have hc : connected s k := ⟨hk, hpres⟩
    refine ⟨fun h i hi => ?_, fun hung htile htake i hi => ?_, fun hung htile htake => ?_⟩
    · obtain ⟨need, f, u, hex, hasr, hchip⟩ := spdm_of_request k i s hi
      refine ⟨_, hex, ?_⟩
      rw [spdm_absent f (connected_of_chip hchip hc) (hasr ▸ h), spdmOf_setSpdm_same, spdmOf, hasr]
      rfl
    · obtain ⟨need, f, u, hex, hasr, hchip⟩ := spdm_of_request k i s (by
        simp only [List.mem_cons, List.not_mem_nil, or_false] at hi ⊢
        tauto)
      refine ⟨_, hex, ?_⟩
      rw [spdm_busy f (connected_of_chip hchip hc) (hasr ▸ hung) (hasr ▸ htile) (hasr ▸ htake), spdmOf_setSpdm_same, spdmOf, hasr]
      rfl
    · have served := fun {need : Nat} (f : Spdm → Spdm) => spdm_at_stage (need := need) f hc hung htile htake
      have early := fun {need : Nat} (f : Spdm → Spdm) => spdm_too_early (need := need) f hc hung htile htake
      refine ⟨⟨_, rfl, ?_⟩, fun h0 => ⟨_, rfl, early _ (by omega)⟩, fun h1 => ⟨_, rfl, ?_⟩, fun h2 => ⟨⟨_, rfl, ?_⟩, ⟨_, rfl, ?_⟩⟩,
        fun h3 i hi => ?_, fun h3 => ?_⟩
      · rw [served _ (Nat.zero_le _), spdmOf_setSpdm_same]
        exact ⟨rfl, rfl, rfl, fun j hj => spdmOf_setSpdm_ne hj _ s⟩
      · rw [served _ h1, spdmOf_setSpdm_same]
        exact ⟨rfl, rfl⟩
      · rw [served _ h2, spdmOf_setSpdm_same]
        exact ⟨rfl, rfl⟩
      · rw [served _ h2, spdmOf_setSpdm_same]
        rfl
      · obtain ⟨f, hex⟩ := spdm_of_early s hi
        exact ⟨_, hex, early f h3⟩
      · refine ⟨⟨_, rfl, ?_⟩, fun slot off len => ⟨_, rfl, ?_⟩, fun nonce => ⟨_, rfl, ?_⟩, fun index nonce => ⟨_, rfl, ?_⟩,
          fun secret => ?_, fun n hn => ⟨⟨_, rfl, ?_⟩, ⟨_, rfl, ?_⟩, fun hfin => ⟨_, rfl, ?_⟩⟩, fun vendor counter off len => ⟨_, rfl, ?_⟩⟩
        · rw [served _ h3, spdmOf_setSpdm_same]
          rfl
        · rw [served _ h3, spdmOf_setSpdm_same]
          rfl
        · rw [served _ h3, spdmOf_setSpdm_same]
          rfl
        · rw [served _ h3, spdmOf_setSpdm_same]
          refine ⟨fun he => ?_, fun he => ⟨Config.sign (aliasKey s 1) (bytesOf 32 nonce ++ [index]), ?_⟩⟩
          · rw [if_pos he]
            rfl
          · rw [if_neg he]
            rfl
        · refine ⟨_, freeVal (2 ^ 32) s, Config.sign (aliasKey s 1) (bytesOf 96 secret), rfl, Nat.mod_lt _ (by decide), ?_⟩
          have hst : 3 ≤ (spdmOf (freeNext s) k).stage := h3
          rw [spdm_at_stage (s := freeNext s) _ (connected_of_chip rfl hc) hung htile htake hst, spdmOf_setSpdm_same]
          exact ⟨rfl, rfl, rfl⟩
        · rw [served _ h3, spdmOf_setSpdm_same, if_pos ⟨hn, rfl⟩]
          exact ⟨rfl, rfl⟩
        · rw [served _ h3, spdmOf_setSpdm_same, if_neg (by simp)]
          exact ⟨rfl, rfl⟩
        · rw [served _ h3, spdmOf_setSpdm_same, if_pos ⟨hn, hfin⟩]
          exact ⟨rfl, rfl⟩
        · rw [served _ h3, spdmOf_setSpdm_same]
          rfl

end Sys2Proof.Machine
end

section
/-! The Assayer (R361 to R372, R437, R438): holds, hang, standby, debug tokens, zeroization and the TAP. -/
set_option Elab.async false
namespace Sys2Proof.Machine

/-! ## Folds and tables -/

/-- What one element of a fold brings about, and every step keeps, holds at its end. -/
theorem foldl_reaches {α : Type} {P : State → Prop} {f : State → α → State} {a : α} {l : List α} (hkeep : ∀ y b, P y → P (f y b))
    (hset : ∀ y, P (f y a)) (ha : a ∈ l) (s : State) : P (l.foldl f s) := by
  induction l generalizing s with
  | nil => exact absurd ha List.not_mem_nil
  | cons b r ih =>
    obtain rfl | hr := List.mem_cons.1 ha
    · exact List.foldlRecOn (motive := P) r f (hset s) fun y hy c _ => hkeep y c hy
    · exact ih hr (f s b)

/-- A key that stands nowhere in a table has the default value. -/
theorem tget_of_notMem {α : Type} (d : α) {t : Table α} {k : Nat} (h : k ∉ t.map (·.1)) : tget d t k = d := by
  induction t with
  | nil => rfl
  | cons e r ih =>
    obtain ⟨j, v⟩ := e
    simp only [List.map_cons, List.mem_cons, not_or] at h
    rw [tget, if_neg (Ne.symm h.1), ih h.2]

/-! ## Holds (R368, R369) -/

/-- The state in which the hold of d is no longer kept. -/
def holdDropped (d : Nat) (s : State) : State := modAssayer (fun a => { a with holds := tset 0 a.holds d 0 }) s

theorem endHold_eq (d : Nat) (s : State) : endHold d s = if d < 184 then
      (if domState s d = 4 then wr (pwrDomainState d) 1 (wr (pwrDomainHeld d) 0 (holdDropped d s))
        else wr (pwrDomainHeld d) 0 (holdDropped d s))
    else holdDropped d s := rfl

theorem endHold_assayer (d : Nat) (s : State) : (endHold d s).assayer = (holdDropped d s).assayer := by
  rw [endHold_eq]
  generalize holdDropped d s = u
  split
  · split <;> rfl
  · rfl

theorem tget_holds_endHold (d e : Nat) (s : State) :
    tget 0 (endHold d s).assayer.holds e = if e = d then 0 else tget 0 s.assayer.holds e := by
  rw [endHold_assayer]
  exact tget_tset (0 : Nat) s.assayer.holds d e 0

theorem rd_endHold_ne {f : Fld} {d : Nat} (hne : d < 184 → fkey f ≠ fkey (pwrDomainState d) ∧ fkey f ≠ fkey (pwrDomainHeld d))
    (s : State) : rd (endHold d s) f = rd s f := by
  rw [endHold_eq]
  split
  case isTrue hd =>
    obtain ⟨hstate, hheld⟩ := hne hd
    have hkept : rd (wr (pwrDomainHeld d) 0 (holdDropped d s)) f = rd s f := rd_wr_ne _ _ _ _ hheld
    split
    · rw [rd_wr_ne _ _ _ _ hstate, hkept]
    · exact hkept
  case isFalse => rfl

theorem fkey_pwrDomainHeld_ne_state (d e : Nat) : fkey (pwrDomainHeld d) ≠ fkey (pwrDomainState e) := by
  simp only [fkey, pwrDomainHeld, pwrDomainState]
  omega

theorem fkey_pwrDomainHeld_ne {d e : Nat} (h : d ≠ e) : fkey (pwrDomainHeld d) ≠ fkey (pwrDomainHeld e) := by
  simp only [fkey, pwrDomainHeld]
  omega

theorem rd_endHold_held {d : Nat} (hd : d < 184) (s : State) : rd (endHold d s) (pwrDomainHeld d) = 0 := by
  rw [endHold_eq, if_pos hd]
  split
  · rw [rd_wr_ne _ _ _ _ (fkey_pwrDomainHeld_ne_state d d), rd_wr_same]
    rfl
  · rw [rd_wr_same]
    rfl

theorem rd_endHold_held_of_zero {d e : Nat} {s : State} (h : rd s (pwrDomainHeld d) = 0) : rd (endHold e s) (pwrDomainHeld d) = 0 := by
  by_cases hde : d = e
  · subst hde
    by_cases hd : d < 184
    · exact rd_endHold_held hd s
    · rw [endHold_eq, if_neg hd]
      exact h
  · rw [rd_endHold_ne (fun _ => ⟨fkey_pwrDomainHeld_ne_state d e, fkey_pwrDomainHeld_ne hde⟩), h]

theorem assayer_recContained (sl kind unit cause addr : Nat) (detail : List Nat) (s : State) :
    (recContained sl kind unit cause addr detail s).assayer = s.assayer :=
  foldl_clkIrq State.assayer _ _ _ (fun y c _ => clkIrq_assayer _ _ y c) _

/-- Every hold ends. -/
theorem tget_holds_endHolds (d : Nat) (s : State) : tget 0 (endHolds s).assayer.holds d = 0 := by
  by_cases hd : d ∈ s.assayer.holds.map (·.1)
  · refine foldl_reaches (P := fun y : State => tget 0 y.assayer.holds d = 0) (fun y b hy => ?_) (fun y => ?_) hd s
    · rw [tget_holds_endHold, hy, ite_self]
    · rw [tget_holds_endHold, if_pos rfl]
  · refine List.foldlRecOn (motive := fun y : State => tget 0 y.assayer.holds d = 0) _ _ (tget_of_notMem 0 hd) fun y hy b _ => ?_
    rw [tget_holds_endHold, hy, ite_self]

theorem rd_endHolds {f : Fld} (hne : ∀ d < 184, fkey f ≠ fkey (pwrDomainState d) ∧ fkey f ≠ fkey (pwrDomainHeld d)) (s : State) :
    rd (endHolds s) f = rd s f :=
  foldl_fixes (fun y => rd y f) (f := fun a d => endHold d a) (fun y d => rd_endHold_ne (hne d) y) _ s

/-- Each record counts. -/
theorem platform_next_recContained (sl kind unit cause addr : Nat) (detail : List Nat) (s : State) :
    (recContained sl kind unit cause addr detail s).ras.platform.next = s.ras.platform.next + 1 := by
  rw [recContained, recPlatform_ras]
  rfl

theorem endHold_ras (d : Nat) (s : State) : (endHold d s).ras = s.ras :=
  (endHold_keeps d s (keeps_refl _ s) (Nat.or_self _)).part .ras rfl

/-- A hold of the limit ends with its record. -/
def limitHold (s : State) (a : State) (e : Nat × Nat) : State :=
  recContained (nextSlice s) 8 (assayerTile s) 0x0802 0 [] (endHold e.1 a)

theorem tget_holds_limitHold (s a : State) (e : Nat × Nat) (d : Nat) :
    tget 0 (limitHold s a e).assayer.holds d = if d = e.1 then 0 else tget 0 a.assayer.holds d := by
  rw [limitHold, assayer_recContained, tget_holds_endHold]

theorem rd_limitHold_held (s a : State) (e : Nat × Nat) (d : Nat) (hd : d < 184) :
    rd (limitHold s a e) (pwrDomainHeld d) = rd (endHold e.1 a) (pwrDomainHeld d) :=
  rd_recContained (f := pwrDomainHeld d) (by decide : 3 < 64) (by simp only [pwrDomainHeld]; omega) ..

theorem platform_next_limitHold (s a : State) (e : Nat × Nat) :
    (limitHold s a e).ras.platform.next = a.ras.platform.next + 1 := by
  rw [limitHold, platform_next_recContained, endHold_ras]

theorem platform_next_foldl_limitHold (s : State) (l : List (Nat × Nat)) (a : State) :
    (l.foldl (limitHold s) a).ras.platform.next = a.ras.platform.next + l.length := by
  induction l generalizing a with
  | nil => rfl
  | cons e r ih =>
    rw [List.foldl_cons, ih, platform_next_limitHold, List.length_cons]
    omega

theorem holdLimit_eq (s : State) : holdLimit s = (s.assayer.holds.filter fun e => decide (e.2 + 1999 ≤ beat s)).foldl (limitHold s) s :=
  rfl

theorem holdLimit_ends {s : State} {d k : Nat} (h : (d, k) ∈ s.assayer.holds) (hk : k + 1999 ≤ beat s) :
    tget 0 (holdLimit s).assayer.holds d = 0 ∧ (d < 184 → rd (holdLimit s) (pwrDomainHeld d) = 0) := by
  have hmem : (d, k) ∈ s.assayer.holds.filter fun e => decide (e.2 + 1999 ≤ beat s) := List.mem_filter.2 ⟨h, decide_eq_true hk⟩
  refine ⟨?_, fun hd => ?_⟩
  · refine foldl_reaches (P := fun y : State => tget 0 y.assayer.holds d = 0) (f := limitHold s) (fun y b hy => ?_) (fun y => ?_) hmem s
    · rw [tget_holds_limitHold, hy, ite_self]
    · rw [tget_holds_limitHold, if_pos rfl]
  · refine foldl_reaches (P := fun y => rd y (pwrDomainHeld d) = 0) (f := limitHold s) (fun y b hy => ?_) (fun y => ?_) hmem s
    · rw [rd_limitHold_held s y b d hd]
      exact rd_endHold_held_of_zero hy
    · rw [rd_limitHold_held s y _ d hd]
      exact rd_endHold_held hd y

/-! ## Hang (R371) -/

/-- An interrupt leaves a core that is in reset as it was. -/
theorem clkOf_clkIrq_dead {s : State} {c : Nat} (h : clkLive s c = false) (code val d : Nat) :
    clkOf (clkIrq code val s d) c = clkOf s c := by
  by_cases hd : c = d
  · rw [← hd, clkIrq_of_dead h]
  · exact clkOf_clkIrq_ne hd code val s

theorem clkOf_recContained_dead {s : State} {c : Nat} (h : clkLive s c = false) (sl kind unit cause addr : Nat) (detail : List Nat) :
    clkOf (recContained sl kind unit cause addr detail s) c = clkOf s c := by
  have hirqs : ∀ u : State, clkOf u c = clkOf s c → clkOf (clerkCores.foldl (clkIrq 4 kind) u) c = clkOf s c := fun u hu =>
    List.foldlRecOn (motive := fun y => clkOf y c = clkOf s c) clerkCores _ hu fun y hy d _ =>
      (clkOf_clkIrq_dead ((congrArg (fun r : ClkCore => r.st == .running || r.st == .waiting) hy).trans h) _ _ d).trans hy
  rw [recContained, recPlatform]
  refine hirqs _ ?_
  simp only [clkOf]

/-- The Assayer's own record once it is treated as hung. -/
def hungRecord (cause : Nat) (s : State) (a : Assayer) : Assayer :=
  { a with hung := true, taking := none, gates := [], window := [], spdm := [], outage := some (beat s, cause) }

/-- The state of a hung Assayer before it is recorded. -/
def hungState (cause : Nat) (s : State) : State :=
  event 3 [beat s, 0, cause] (modAssayer (hungRecord cause s)
    (endHolds (stopAssayerDma (holdCore (8 + assayerTile s) false s))))

theorem treatHung_eq (cause : Nat) (s : State) : treatHung cause s =
    recContained (nextSlice s) 8 (assayerTile s) 0x0801 0 [] (hungState cause s) := by
  unfold treatHung hungState hungRecord
  rfl

theorem assayer_event (kind : Nat) (detail : List Nat) (s : State) : (event kind detail s).assayer = s.assayer :=
  (event_keeps kind detail s (keeps_refl _ s) (Nat.or_self _)).part .assayer rfl

theorem clerk_event (kind : Nat) (detail : List Nat) (s : State) : (event kind detail s).clerk = s.clerk :=
  (event_keeps kind detail s (keeps_refl _ s) (Nat.or_self _)).part .clerk rfl

theorem assayer_hungState (cause : Nat) (s : State) : (hungState cause s).assayer =
    hungRecord cause s (endHolds (stopAssayerDma (holdCore (8 + assayerTile s) false s))).assayer :=
  assayer_event _ _ _

theorem clkOf_hungState (cause : Nat) (s : State) : clkOf (hungState cause s) (8 + assayerTile s) = { sram := [] } := by
  have hdma := (stopAssayerDma_keeps (holdCore (8 + assayerTile s) false s) (keeps_refl _ _) (Nat.or_self _)).part .clerk rfl
  have hholds := (endHolds_keeps (stopAssayerDma (holdCore (8 + assayerTile s) false s)) (keeps_refl _ _) (Nat.or_self _)).part .clerk rfl
  have hclerk : (hungState cause s).clerk = (holdCore (8 + assayerTile s) false s).clerk :=
    (clerk_event _ _ _).trans (hholds.trans hdma)
  rw [clkOf, hclerk]
  exact clkOf_modClk_same _ _ s

theorem rd_event (kind : Nat) (detail : List Nat) (s : State) (f : Fld) : rd (event kind detail s) f = rd s f :=
  rd_of_regs (event_regs kind detail s) f

theorem fkey_dmaCtrlStop_ne {d e : Nat} (h : d ≠ e) : fkey (dmaCtrlStop d) ≠ fkey (dmaCtrlStop e) := by
  simp only [fkey, dmaCtrlStop, dmaBase]
  omega

theorem fkey_dmaCtrlStop_ne_status (d e : Nat) : fkey (dmaCtrlStop d) ≠ fkey (dmaStatusState e) := by
  simp only [fkey, dmaCtrlStop, dmaStatusState, dmaBase]
  omega

/-- A stop that is set stays set. -/
theorem rd_dmaStop_stop_of_set {d e : Nat} {s : State} (h : rd s (dmaCtrlStop d) = 1) : rd (dmaStop e s) (dmaCtrlStop d) = 1 := by
  cases hpriv : dmaPriv e
  case false => rwa [dmaStop, if_neg (by simp [hpriv])]
  case true =>
    by_cases hde : d = e
    · rw [hde]
      exact rd_dmaStop_stop hpriv s
    · refine (dmaStop_otherFields hpriv s _ ?_).trans h
      simp [fkey_dmaCtrlStop_ne hde, fkey_dmaCtrlStop_ne_status]

theorem rd_stopAssayerDma {d : Nat} (hd : d ∈ [30, 31, 62, 63]) (s : State) : rd (stopAssayerDma s) (dmaCtrlStop d) = 1 := by
  have hpriv : ∀ e ∈ [30, 31, 62, 63], dmaPriv e = true := by decide
  exact foldl_reaches (P := fun y => rd y (dmaCtrlStop d) = 1) (f := fun a e => dmaStop e a) (fun y e hy => rd_dmaStop_stop_of_set hy)
    (fun y => rd_dmaStop_stop (hpriv d hd) y) hd s

theorem rd_treatHung_stop {d : Nat} (hd : d ∈ [30, 31, 62, 63]) (cause : Nat) (s : State) :
    rd (treatHung cause s) (dmaCtrlStop d) = 1 := by
  have hoff : 0x500000 ≤ (dmaCtrlStop d).off ∧ (dmaCtrlStop d).off < 0x100000000 := by
    simp only [List.mem_cons, List.not_mem_nil, or_false] at hd
    rcases hd with rfl | rfl | rfl | rfl
    all_goals decide
  rw [treatHung_eq, rd_recContained (f := dmaCtrlStop d) (by decide : 2 < 64) hoff.2, hungState, rd_event]
  refine (rd_endHolds (fun e he => ?_) _).trans (rd_stopAssayerDma hd _)
  obtain ⟨hlow, -⟩ := hoff
  constructor
  all_goals simp only [fkey, pwrDomainState, pwrDomainHeld]
  all_goals omega

theorem assayer_treatHung (cause : Nat) (s : State) : (treatHung cause s).assayer = (hungState cause s).assayer := by
  rw [treatHung_eq, assayer_recContained]

theorem treatHung_recordedIn (cause : Nat) (s : State) : recordedIn 2 8 (assayerTile s) 0x0801 s (treatHung cause s) := by
  have hkeeps := endHolds_keeps (stopAssayerDma (holdCore (8 + assayerTile s) false s)) (keeps_refl _ _) (Nat.or_self _)
  have hdma := stopAssayerDma_keeps (holdCore (8 + assayerTile s) false s) (keeps_refl _ _) (Nat.or_self _)
  have hras : (hungState cause s).ras = s.ras := (event_ras _ _ _).trans ((hkeeps.part .ras rfl).trans (hdma.part .ras rfl))
  rw [treatHung_eq]
  refine recContained_recordedIn _ _ _ _ _ _ (congrArg (·.platform.next) hras) ?_
  rw [beat, hungState, rd_event]
  refine (rd_endHolds (fun e he => ?_) _).trans ?_
  · constructor
    all_goals simp only [fkey, pwrDomainState, pwrDomainHeld, clkBeatBeat]
    all_goals omega
  · refine foldl_fixes (fun y => rd y clkBeatBeat) (f := fun a d => dmaStop d a) (fun y d => ?_) _ _
    cases hpriv : dmaPriv d
    case false => rw [dmaStop, if_neg (by simp [hpriv])]
    case true =>
      refine dmaStop_otherFields hpriv y _ ?_
      simp only [List.forall_mem_cons, fkey, dmaCtrlStop, dmaStatusState, dmaBase, clkBeatBeat]
      refine ⟨by omega, by omega, nofun⟩

/-- What a hang leaves: the Assayer's own record, its core in reset, its holds ended. -/
theorem treatHung_assayer (cause : Nat) (s : State) : (treatHung cause s).assayer.hung = true ∧
    (treatHung cause s).assayer.taking = none ∧ (treatHung cause s).assayer.gates = [] ∧
    (treatHung cause s).assayer.outage = some (beat s, cause) ∧ ∀ d, tget 0 (treatHung cause s).assayer.holds d = 0 := by
  rw [assayer_treatHung, assayer_hungState]
  exact ⟨rfl, rfl, rfl, rfl, fun d => tget_holds_endHolds d _⟩

theorem clkOf_treatHung (cause : Nat) (s : State) : clkOf (treatHung cause s) (8 + assayerTile s) = { sram := [] } := by
  rw [treatHung_eq, clkOf_recContained_dead (by rw [clkLive, clkOf_hungState]; rfl), clkOf_hungState]

/-! ## Debug tokens (R366) -/

theorem assayer_closeOutage (s : State) : (closeOutage s).assayer = { s.assayer with outage := none } := by
  unfold closeOutage
  split
  · exact assayer_event _ _ _
  case h_2 hnone => rw [← hnone]

theorem acceptToken_of_good {k : Token} {s : State} (h : tokenGood s k = true) :
    (acceptToken k s).assayer = { s.assayer with wanted := s.assayer.wanted ||| (k.enables % 16 &&& tokenMask s) } ∧
      (acceptToken k s).boot.hold = (s.boot.hold || (k.hold && decide (s.boot.step ≤ 3))) := by
  rw [acceptToken, if_pos h]
  refine ⟨assayer_event _ _ _, ?_⟩
  unfold event
  simp only []
  split <;> rfl

theorem tokenAccept_eq {k : Token} {s : State} (h : s.assayer.token = some k) (hhead : s.boot.headOk = true) :
    tokenAccept s = acceptToken k (modAssayer (fun a => { a with token := none }) s) := by
  simp only [tokenAccept, h, hhead, if_true]

/-! ## The TAP (R437, R438) -/

theorem tapPins_pinsTaken (code : Nat) (s : State) : pinsTaken code s (tapPins code s) := by
  unfold tapPins
  split
  case isTrue hopen =>
    obtain ⟨hen, hstep⟩ := hopen
    have hen' : enabled { s with boot := { s.boot with hold := true } } 1 = true := hen
    refine ⟨fun p hchip hboot => ?_, fun _ _ => ⟨?_, rfl, rfl⟩, fun hshut => ?_⟩
    · cases p <;> first | exact absurd rfl hchip | exact absurd rfl hboot | rfl
    · simp only [tapLoad, hen', if_true]
    · obtain hdis | hlate := hshut
      · exact absurd (hdis.symm.trans hen) nofun
      · omega
  case isFalse hshut =>
    refine ⟨fun p hchip hboot => ?_, fun hen hstep => absurd ⟨hen, hstep⟩ hshut, fun _ => ⟨rfl, rfl⟩⟩
    cases p <;> first | exact absurd rfl hchip | rfl

theorem tapLoad_parts (code : Nat) (need : Option Nat) (s : State) : ∀ p, p ≠ .chip → samePart p s (tapLoad code need s) :=
  fun p hp => (tapLoad_keeps code need s (keeps_refl _ s) (Nat.or_self _)).part p (by cases p <;> first | exact absurd rfl hp | rfl)

theorem dzMbx_of_enabled {off size v : Nat} {s : State} (hen : enabled s 0 = true) (hoff : off < 0x1000)
    (hsize : size = 4 ∨ size = 8) (halign : off % size = 0) :
    exec (.dzMbx off size v) s = .next (pageWrite 259 off size v (tapLoad 0x11 (some 0) s)) := by
  have hir : (tapLoad 0x11 (some 0) s).chip.tapIr = 0x11 := by simp only [tapLoad, hen, if_true]
  exact congrArg Host.Outcome.next (if_pos ⟨hir, hoff, hsize, halign⟩)

/-- A doorbell of an idle mailbox sets its state, and the interrupts it raises leave that alone. -/
theorem rd_doorbell_state {i : Nat} (hi : i < 260) {s : State} (h : rd s (mbxStatState i) = 0) :
    rd (doorbell i s) (mbxStatState i) = 1 := by
  have hset : ∀ u, rd (wr (mbxStatState i) 1 u) (mbxStatState i) = 1 := fun u => rd_wr_same _ _ _
  simp only [doorbell, h, true_or, if_true]
  split
  · refine (foldl_clkIrq (fun y => rd y (mbxStatState i)) 2 i _ (fun y c _ => rd_clkIrq _ _ _ _ _ ?_) _).trans (hset _)
    exact fkey_ne_clerkIpPending (by decide : 0 < 64) (by simp only [mbxStatState]; omega) c
  · exact hset _

/-- Settles O54: each event of the Assayer, of its standby and of the TAP by the one function that carries it out. -/
theorem assayerDebugAndTap : Obligations.AssayerDebugAndTap := by
  unfold Obligations.AssayerDebugAndTap
  intro s
  refine ⟨fun habs hung => ⟨treatHung 1 s, congrArg Host.Outcome.next (if_pos ⟨habs, hung⟩), ?_⟩,
    fun h => congrArg Host.Outcome.next (if_neg ?_), ⟨holdLimit s, rfl, fun d k h hk => holdLimit_ends h hk, ?_⟩, fun h => ?_,
    fun j hj hle => ?_, fun j hj hlt => ?_, fun j hj hle => ?_, fun j hj hlt => ?_, fun h => ⟨?_, ?_⟩, fun k hk hhead => ?_,
    fun h => ?_, fun b hb hle => ?_, fun h => ?_, ⟨_, rfl, rfl, tapLoad_parts _ _ s⟩, ⟨_, rfl, rfl, tapLoad_parts _ _ s⟩,
    ⟨_, rfl, rfl, tapLoad_parts _ _ s⟩, ⟨_, rfl, rfl, tapLoad_parts _ _ s⟩, ⟨_, rfl, rfl, tapLoad_parts _ _ s⟩,
    ⟨_, rfl, tapPins_pinsTaken _ s⟩, ⟨_, rfl, tapPins_pinsTaken _ s⟩, ⟨_, rfl, tapPins_pinsTaken _ s⟩,
    fun k => ⟨_, rfl, rfl, rfl, fun p hchip hasr => ?_⟩, fun off size v hdis => ?_, fun off size v hen hlo hhi hsize halign => ?_,
    fun size v hen hsize hidle => ?_⟩
  · obtain ⟨hhung, htaking, hgates, houtage, hholds⟩ := treatHung_assayer 1 s
    have hclk := clkOf_treatHung 1 s
    exact ⟨hhung, htaking, hgates, houtage, congrArg ClkCore.sram hclk, congrArg ClkCore.st hclk, hholds,
      fun d hd => rd_treatHung_stop hd 1 s, treatHung_recordedIn 1 s⟩
  · rintro ⟨habs, hung⟩
    obtain hlow | hhung := h
    · omega
    · exact absurd (hhung.symm.trans hung) nofun
  · rw [holdLimit_eq, platform_next_foldl_limitHold]
  · have hnone : (s.assayer.holds.filter fun e => decide (e.2 + 1999 ≤ beat s)) = [] :=
      List.filter_eq_nil_iff.2 fun e he => by simpa using h e.1 e.2 he
    exact congrArg Host.Outcome.next ((holdLimit_eq s).trans (by rw [hnone]; rfl))
  · have hex : standbyReady s = closeOutage (modAssayer (fun a => { a with taking := none, absent := 0, aliasUp := true }) s) := by
      simp only [standbyReady, hj, hle, if_true]
    refine ⟨_, congrArg Host.Outcome.next hex, ?_⟩
    rw [assayer_closeOutage]
    exact ⟨rfl, rfl, rfl, rfl, rfl, (closeOutage_keeps _ (keeps_refl _ _) (Nat.or_self _)).part .regs rfl⟩
  · exact congrArg Host.Outcome.next (by simp only [standbyReady, hj]; exact if_neg (by omega))
  · cases hout : s.assayer.outage with
    | none =>
      have hex : standbyTimeout s = treatHung 2 s := by simp only [standbyTimeout, hj, hle, if_true, hout]
      obtain ⟨hhung, htaking, -, houtage, -⟩ := treatHung_assayer 2 s
      exact ⟨_, congrArg Host.Outcome.next hex, hhung, htaking, houtage, treatHung_recordedIn 2 s⟩
    | some o =>
      have hex : standbyTimeout s = modAssayer (fun x => { x with outage := some o }) (treatHung 2 s) := by
        simp only [standbyTimeout, hj, hle, if_true, hout]
      obtain ⟨hhung, htaking, -, -, -⟩ := treatHung_assayer 2 s
      have hrec := treatHung_recordedIn 2 s
      refine ⟨_, congrArg Host.Outcome.next hex, ?_⟩
      generalize treatHung 2 s = u at hhung htaking hrec
      exact ⟨hhung, htaking, rfl, hrec⟩
  · exact congrArg Host.Outcome.next (by simp only [standbyTimeout, hj]; exact if_neg (by omega))
  · exact congrArg Host.Outcome.next (by simp only [standbyReady, h])
  · exact congrArg Host.Outcome.next (by simp only [standbyTimeout, h])
  · refine ⟨_, congrArg Host.Outcome.next (tokenAccept_eq hk hhead), ?_⟩
    cases hgood : tokenGood s k with
    | true =>
      obtain ⟨hasr, hhold⟩ := acceptToken_of_good (s := modAssayer (fun a => { a with token := none }) s) hgood
      rw [hasr]
      exact ⟨rfl, rfl, fun _ => ⟨rfl, hhold⟩, nofun⟩
    | false =>
      have hbad : tokenGood (modAssayer (fun a => { a with token := none }) s) k = false := hgood
      rw [acceptToken, hbad, if_neg nofun]
      refine ⟨rfl, rfl, nofun, fun _ => ⟨rfl, fun p hp => ?_⟩⟩
      cases p <;> first | exact absurd rfl hp | rfl
  · refine congrArg Host.Outcome.next ?_
    obtain hnone | hhead := h
    · simp only [tokenAccept, hnone]
    · simp only [tokenAccept, hhead]
      split <;> rfl
  · have hex : zeroizeDone s = modAssayer (fun a => { a with zeroing := none, zeroed := true, aliasUp := true, debugAlias := true }) s := by
      simp only [zeroizeDone, hb, hle, if_true]
    refine ⟨_, congrArg Host.Outcome.next hex, rfl, rfl, rfl, rfl, fun p hp => ?_⟩
    cases p <;> first | exact absurd rfl hp | rfl
  · exact congrArg Host.Outcome.next (by simp only [zeroizeDone, h])
  · cases p <;> first | exact absurd rfl hchip | exact absurd rfl hasr | rfl
  · have hir : (tapLoad 0x11 (some 0) s).chip.tapIr = 0xFF := by simp [tapLoad, hdis]
    exact ⟨_, congrArg Host.Outcome.next (if_neg (by rw [hir]; exact fun h => absurd h.1 (by decide))), hir, tapLoad_parts _ _ s⟩
  · have hir : (tapLoad 0x11 (some 0) s).chip.tapIr = 0x11 := by simp only [tapLoad, hen, if_true]
    refine ⟨_, dzMbx_of_enabled hen (by omega) hsize halign, ?_⟩
    rw [pageWrite, if_pos hhi]
    simp only [hlo, or_true, if_true]
    refine ⟨hir, ?_, fun p hchip hmbx => ?_⟩
    · rw [setMbx_mbxOf_same]
      rfl
    · cases p <;> first | exact absurd rfl hchip | exact absurd rfl hmbx | rfl
  · refine ⟨_, dzMbx_of_enabled hen (by omega) hsize (by obtain rfl | rfl := hsize <;> rfl), ?_⟩
    rw [pageWrite, if_neg (by omega), if_pos (by omega)]
    exact rd_doorbell_state (by omega) hidle

end Sys2Proof.Machine
end

section
/-! The CXL memory-device role and its mailbox (R284, R285). -/
set_option Elab.async false
namespace Sys2Proof.Machine

/-- The device's mailbox answers in its group's record. -/
theorem groupOf_cxlMailbox {s : State} {g : Nat} (h : isMemDevice s g = true) (status : Nat) (f : State → Bytes) (upd : Group → Group) :
    groupOf (cxlMailbox g status f upd s) g = { upd (groupOf s g) with ans := some ⟨status, f s⟩ } := by
  rw [cxlMailbox, if_pos h, farAnswer, modGroup, setGroup_groupOf_same, modGroup, setGroup_groupOf_same]

theorem cxlMailbox_of_other {s : State} {g : Nat} (h : isMemDevice s g = false) (status : Nat) (f : State → Bytes) (upd : Group → Group) :
    cxlMailbox g status f upd s = s := if_neg (by simp [h])

theorem memDeviceRequest_inRange {s : State} {g dpa base size x : Nat} {k : Coord} (hlent : lentOf s g = some (base, size, x))
    (hstate : portState s g 0 = 3) (hdev : isMemDevice s g = true) (hin : dpa < size) (hk : coord s (base + dpa) = some k)
    (w : Bool) (data : Nat) : memDeviceRequest g dpa w data s =
      dramRequest k.chan { pa := rd s fabIdDeviceId * 2 ^ 46 + (base + dpa), tag := x, write := w, data := data,
                           cls := 0, dest := 2, port := 1 } s := by
  simp only [memDeviceRequest, hlent, hstate, hdev, hk, Nat.not_le.2 hin, and_false, if_false, and_self, if_true]

/-- Settles O49: requests to the lent range, and each opcode of the device's mailbox. -/
theorem cxlMemoryDevice : Obligations.CxlMemoryDevice := by
  unfold Obligations.CxlMemoryDevice
  intro s g
  refine ⟨fun dpa w data base size x k hlent hstate hdev hin hk => ?_, fun dpa w data base size x hlent hstate hdev hout => ?_,
    fun dpa w data h => congrArg Host.Outcome.next ?_, fun hdev => ?_, fun hother i hi => ?_, fun dev => ⟨_, rfl, fun x => ?_⟩⟩
  · exact ⟨_, congrArg Host.Outcome.next (memDeviceRequest_inRange hlent hstate hdev hin hk w data), rfl⟩
  · refine congrArg Host.Outcome.next ?_
    simp only [memDeviceRequest, hlent, hstate, hdev, hout, and_self, if_true]
  · obtain hnone | hstate := h
    · simp only [memDeviceRequest, hnone]
    · unfold memDeviceRequest
      split
      · rw [if_neg fun h => hstate h.1, if_neg fun h => hstate h.1]
      · rfl
  · refine ⟨⟨_, rfl, ?_⟩, ⟨freeNext (cxlMailbox g 0 (fun a => putLE [] 0 18 (freeVal (2 ^ 144) a)) id s), freeVal (2 ^ 144) s,
        congrArg Host.Outcome.next (if_pos hdev), ?_⟩, fun log => ⟨_, rfl, ?_⟩,
      fun handles => ⟨_, rfl, ?_⟩, fun dpa len => ⟨_, rfl, ?_⟩, ⟨_, rfl, ?_⟩, fun log off len hlog => ⟨_, rfl, ?_⟩,
      fun v => ⟨_, rfl, ?_⟩, fun op hop => ⟨_, congrArg Host.Outcome.next (if_neg (by simpa using hop)), ?_⟩⟩
    · rw [groupOf_cxlMailbox hdev]
    · exact congrArg Group.ans (groupOf_cxlMailbox hdev 0 _ id)
    · rw [groupOf_cxlMailbox hdev]
      exact ⟨rfl, rfl⟩
    · rw [groupOf_cxlMailbox hdev, if_pos rfl]
      refine ⟨rfl, fun hnil => if_pos hnil, fun hsome e => ?_⟩
      rw [if_neg hsome]
      simp
    · rw [groupOf_cxlMailbox hdev]
    · rw [groupOf_cxlMailbox hdev]
      rfl
    · rw [groupOf_cxlMailbox hdev, if_neg hlog]
    · rw [groupOf_cxlMailbox hdev]
      exact ⟨rfl, rfl, rfl⟩
    · rw [groupOf_cxlMailbox hdev]
  · have hkept := cxlMailbox_of_other hother
    simp only [List.mem_cons, List.not_mem_nil, or_false] at hi
    rcases hi with rfl | rfl | rfl | rfl | rfl | rfl | rfl | rfl
    case inr.inl => exact congrArg Host.Outcome.next (if_neg (by simp [hother]))
    all_goals exact congrArg Host.Outcome.next (hkept _ _ _)
  · rw [functionResetDone, modGroup, setGroup_groupOf_same]
    simp

end Sys2Proof.Machine
end

section
/-! Commands that report (R356 to R358, R386, R387): the bytes of a result, and what each command answers. -/
set_option Elab.async false
namespace Sys2Proof.Machine

/-! ## Fields of a result -/

theorem getLE_of_digits {b : Bytes} {off n v : Nat} (h : ∀ k < n, tget 0 b (off + k) = v / 256 ^ k % 256) :
    getLE b off n = v % 256 ^ n := by
  induction n generalizing off v with
  | zero => rw [getLE, Nat.pow_zero, Nat.mod_one]
  | succ n ih =>
    have hrest : getLE b (off + 1) n = v / 256 % 256 ^ n := ih fun k hk => by
      rw [Nat.add_assoc, h (1 + k) (by omega), Nat.pow_add, Nat.pow_one, Nat.div_div_eq_div_mul]
    have hfirst := h 0 (by omega)
    rw [Nat.add_zero, Nat.pow_zero, Nat.div_one] at hfirst
    rw [getLE, hfirst, hrest, Nat.mod_mod, Nat.pow_succ, Nat.mul_comm (256 ^ n), Nat.mod_mul]

/-- A later field of a result leaves the bytes outside it alone. -/
theorem tget_foldl_putLE {l : List (Nat × Nat × Nat)} {y : Nat} (h : ∀ e ∈ l, y < e.1 ∨ e.1 + e.2.1 ≤ y) (b : Bytes) :
    tget 0 (l.foldl (fun b e => putLE b e.1 e.2.1 e.2.2) b) y = tget 0 b y := by
  induction l generalizing b with
  | nil => rfl
  | cons e r ih =>
    have hout := h e List.mem_cons_self
    rw [List.foldl_cons, ih fun x hx => h x (List.mem_cons_of_mem e hx), tget_putLE, if_neg (by omega)]

/-- A field of a result that no later one overlaps reads its value, cut to its bytes. -/
theorem getLE_mkBytes (pre : List (Nat × Nat × Nat)) {post : List (Nat × Nat × Nat)} {off n v : Nat}
    (h : ∀ e ∈ post, off + n ≤ e.1 ∨ e.1 + e.2.1 ≤ off) : getLE (mkBytes (pre ++ (off, n, v) :: post)) off n = v % 256 ^ n := by
  refine getLE_of_digits fun k hk => ?_
  have hlate : ∀ e ∈ post, off + k < e.1 ∨ e.1 + e.2.1 ≤ off + k := fun e he => by
    have := h e he
    omega
  rw [mkBytes, List.foldl_append, List.foldl_cons, tget_foldl_putLE hlate]
  simp only [tget_putLE]
  rw [if_pos ⟨Nat.le_add_right off k, Nat.add_lt_add_left hk off⟩, Nat.add_sub_cancel_left]

/-! ## inventory.list -/

/-- The fields of an inventory below its units. -/
def inventoryHead (s : State) : List (Nat × Nat × Nat) :=
  [(0, 1, variantCode (vOf s)), (1, 1, invFlags s), (2, 1, (freeLiberos s).length), (3, 1, 2 ^ tiles (vOf s) - 1),
   (4, 2, reasons s), (6, 1, if rdB s fabIdMember then myId s else 0), (7, 1, s.chip.stepping)]

/-- What an inventory says of each unit. -/
def inventoryUnits (s : State) : List (Nat × Nat × Nat) :=
  nibbles 0x08 ((List.range 136).map fun p => if pairPresent s p then rd s (pairStatusState p) else 0) ++
    nibbles 0x50 ((List.range 128).map fun n => if slicePresent s n then rd s (llcStatusState n) else 0) ++
    ((presentChans s).map fun c => (0x90 + c, 1, chanByte s c)) ++
    ((presentGroups s).flatMap fun g =>
      [(0xA0 + 8 * g, 1, 1), (0xA1 + 8 * g, 1, bifOf s g)] ++ ((portsOf s g).map fun n => (0xA2 + 8 * g + n, 1, portRole s g n))) ++
    ((presentFabPorts s).map fun k => (0xE0 + k, 1, rd s (fabPortStatusState k) % 16 + 16 * (rdB s (fabPortStatusWidth k)).toNat))

/-- The fields of an inventory above its units. -/
def inventoryTail (s : State) : List (Nat × Nat × Nat) :=
  [(0xE6, 1, if vOf s == .d9_128c || vOf s == .d9_128e then 0 else 1), (0xE8, 2, hartCount s), (0xEA, 2, (startedHarts s).length),
   (0xEC, 2, (checkedSlots s).length), (0xEE, 2, (splitSlots s).length), (0xF0, 8, dimmBytes s),
   (0xF8, 8, mappedBytes s), (0x100, 8, (s.mem.lent.map fun e => e.2.2.1).sum)]

theorem inventoryList_eq (i : Nat) (s : State) :
    inventoryList i s = stageDone i 0 (mkBytes (inventoryHead s ++ (inventoryUnits s ++ inventoryTail s))) s := by
  simp only [inventoryList, inventoryHead, inventoryUnits, inventoryTail, List.append_assoc]

theorem portsOf_lt {s : State} {g n : Nat} (h : n ∈ portsOf s g) : n < 4 := by
  have hall : ∀ b, ∀ e ∈ bifPorts b, e.1 < 4 := fun b => by
    unfold bifPorts
    split
    all_goals decide
  obtain ⟨e, he, rfl⟩ := List.mem_map.1 h
  exact hall _ e he

theorem numsBelow_lt {n k : Nat} {p : Nat → Bool} (h : k ∈ numsBelow n p) : k < n :=
  List.mem_range.1 (List.mem_filter.1 h).1

/-- The units' bytes stand between 8 and 0xE6. -/
theorem inventoryUnits_within {s : State} {e : Nat × Nat × Nat} (h : e ∈ inventoryUnits s) : 8 ≤ e.1 ∧ e.1 + e.2.1 ≤ 0xE6 := by
  simp only [inventoryUnits, nibbles, List.mem_append, List.mem_map, List.mem_flatMap, List.length_map, List.length_range] at h
  rcases h with (((⟨i, hi, rfl⟩ | ⟨i, hi, rfl⟩) | ⟨c, hc, rfl⟩) | ⟨g, hg, hport⟩) | ⟨k, hk, rfl⟩
  · have := List.mem_range.1 hi
    constructor <;> simp only <;> omega
  · have := List.mem_range.1 hi
    constructor <;> simp only <;> omega
  · have := numsBelow_lt hc
    constructor <;> simp only <;> omega
  · have := numsBelow_lt hg
    rcases hport with hpair | ⟨n, hn, rfl⟩
    · simp only [List.mem_cons, List.not_mem_nil, or_false] at hpair
      obtain rfl | rfl := hpair
      all_goals constructor <;> simp only <;> omega
    · have := portsOf_lt hn
      constructor <;> simp only <;> omega
  · have := numsBelow_lt hk
    constructor <;> simp only <;> omega

/-- A field of the head reads its value. -/
theorem getLE_inventory_head {s : State} {pre post : List (Nat × Nat × Nat)} {off n v : Nat}
    (h : inventoryHead s = pre ++ (off, n, v) :: post) (hin : off + n ≤ 8) (hpost : ∀ e ∈ post, off + n ≤ e.1) :
    getLE (mkBytes (inventoryHead s ++ (inventoryUnits s ++ inventoryTail s))) off n = v % 256 ^ n := by
  rw [h, List.append_assoc, List.cons_append]
  refine getLE_mkBytes pre fun e he => Or.inl ?_
  rcases List.mem_append.1 he with he | he
  · exact hpost e he
  · rcases List.mem_append.1 he with he | he
    · have := (inventoryUnits_within he).1
      omega
    · have htail : ∀ e ∈ inventoryTail s, 8 ≤ e.1 := by simp [inventoryTail]
      have := htail e he
      omega

/-- A field of the tail reads its value. -/
theorem getLE_inventory_tail {s : State} {pre post : List (Nat × Nat × Nat)} {off n v : Nat}
    (h : inventoryTail s = pre ++ (off, n, v) :: post) (hpost : ∀ e ∈ post, off + n ≤ e.1) :
    getLE (mkBytes (inventoryHead s ++ (inventoryUnits s ++ inventoryTail s))) off n = v % 256 ^ n := by
  rw [h, ← List.append_assoc, ← List.append_assoc]
  exact getLE_mkBytes _ fun e he => Or.inl (hpost e he)

/-! ## ras.read -/

theorem logOf_setLog (i : Nat) (g : RasLog) (s : State) : logOf (setLog i g s) i = g := by
  unfold logOf setLog
  split
  · exact tget_tset_same _ _ _ _
  · rfl

theorem setLog_mbxOf (i j : Nat) (g : RasLog) (s : State) : mbxOf (setLog i g s) j = mbxOf s j := rfl

theorem logOf_stageDone (i j cl : Nat) (data : Bytes) (s : State) : logOf (stageDone i cl data s) j = logOf s j := by
  rw [logOf, stageDone_keeps_part State.ras (fun _ _ _ => rfl) (fun _ _ _ => rfl)]
  rfl

/-! ## time.set, daybook.status, daybook.read -/

theorem stageDone_zero_parts (i : Nat) (data : Bytes) (s : State) : ∀ p, p ≠ .mbx → samePart p s (stageDone i 0 data (started i s)) :=
  fun p hp => by cases p <;> first | exact absurd rfl hp | rfl

/-- The fields of daybook.status. -/
def daybookFields (s : State) : List (Nat × Nat × Nat) :=
  [(0, 8, statusWord14 s.boot), (8, 8, if 7 < s.boot.step ∨ s.boot.onA ∨ s.boot.onB then s.boot.counter else 0),
   (0x10, 8, (allRecords s.boot).foldl (fun m r => if m = 0 ∨ r.counter < m then r.counter else m) 0),
   (0x18, 48, headDigest s), (0x48, 1, assayerState s),
   (0x49, 1, s.boot.readA.toNat + 2 * s.boot.readB.toNat + 4 * (s.boot.flash % 2) + 8 * s.boot.onA.toNat + 16 * s.boot.onB.toNat),
   (0x4A, 1, enablesNow s % 16 + 16 * ((s.assayer.everSet ||| enablesNow s) % 16)), (0x4B, 1, s.assayer.holds.length),
   (0x4C, 4, (openEvents s).length), (0x50, 8, (s.assayer.outage.map (·.1)).getD 0)]

theorem daybookStatus_eq (i : Nat) (s : State) : daybookStatus i s = stageDone i 0 (mkBytes (daybookFields s)) s := rfl

theorem getLE_daybookFields {s : State} (pre : List (Nat × Nat × Nat)) {post : List (Nat × Nat × Nat)} {off n v : Nat}
    (h : daybookFields s = pre ++ (off, n, v) :: post) (hpost : ∀ e ∈ post, off + n ≤ e.1) :
    getLE (mkBytes (daybookFields s)) off n = v % 256 ^ n := by
  rw [h]
  exact getLE_mkBytes pre fun e he => Or.inl (hpost e he)

theorem assayerState_lt (s : State) : assayerState s < 256 := by
  unfold assayerState
  repeat' split
  all_goals decide

/-! ## What each command answers -/

section
variable {s : State} {i : Nat} {c : Bytes}

theorem inventoryList_reports (h : takenAs s i 0x0101 c) : ∃ t data, exec (.inventoryList i) s = .next t ∧ doneIn s t i 0 data ∧
    getLE data 0 1 = variantCode (vOf s) ∧ getLE data 1 1 = invFlags s % 256 ∧ getLE data 2 1 = (freeLiberos s).length % 256 ∧
    getLE data 4 2 = reasons s % 65536 ∧ getLE data 0xE8 2 = hartCount s % 65536 ∧ getLE data 0xF0 8 = dimmBytes s % 2 ^ 64 ∧
    getLE data 0xF8 8 = mappedBytes s % 2 ^ 64 ∧ ∀ p, p ≠ .mbx → samePart p s t := by
  have hex := (onCmd_of_taken h fun _ => inventoryList i).trans (inventoryList_eq i (started i s))
  refine ⟨_, _, congrArg Host.Outcome.next hex, doneIn_started s i 0 _, ?_, ?_, ?_, ?_, ?_, ?_, ?_, stageDone_zero_parts i _ s⟩
  · refine (getLE_inventory_head (pre := []) rfl (by omega) (by simp)).trans ?_
    show variantCode (vOf s) % 256 = variantCode (vOf s)
    cases vOf s <;> rfl
  · exact getLE_inventory_head (pre := [_]) rfl (by omega) (by simp)
  · exact getLE_inventory_head (pre := [_, _]) rfl (by omega) (by simp)
  · exact getLE_inventory_head (pre := [_, _, _, _]) rfl (by omega) (by simp)
  · exact getLE_inventory_tail (pre := [_]) rfl (by simp)
  · exact getLE_inventory_tail (pre := [_, _, _, _, _]) rfl (by simp)
  · exact getLE_inventory_tail (pre := [_, _, _, _, _, _]) rfl (by simp)

theorem timeSet_late (h : takenAs s i 0x0B02 c) (hle : min timeMax (arg c 0 8 / 10 * 10) ≤ nextTime s) :
    exec (.timeSet i) s = .next (stageDone i (chg (arg c 0 8) (nextTime s)) (mkBytes [(0, 8, nextTime s), (8, 1, 1)]) (started i s)) :=
  congrArg Host.Outcome.next ((onCmd_of_taken h (timeSet i)).trans (if_pos hle))

theorem timeSet_ahead (h : takenAs s i 0x0B02 c) (hlt : ¬ min timeMax (arg c 0 8 / 10 * 10) ≤ nextTime s) :
    exec (.timeSet i) s = .next (addStep i (beat s + 1) (.stage i (chg (arg c 0 8) (min timeMax (arg c 0 8 / 10 * 10)))
        (mkBytes [(0, 8, min timeMax (arg c 0 8 / 10 * 10)), (0x10, 8, beat s + 1)]))
      (setTime { s.time with setNext := some (min timeMax (arg c 0 8 / 10 * 10)) } (started i s))) :=
  congrArg Host.Outcome.next ((onCmd_of_taken h (timeSet i)).trans (if_neg hlt))

theorem rd_stageDone_ne {f : Fld} {i : Nat} (h : fkey f ≠ fkey (mbxCountClamps i)) (cl : Nat) (data : Bytes) (s : State) :
    rd (stageDone i cl data s) f = rd s f := by
  simp only [stageDone]
  split
  · rfl
  · rw [rd_bump_ne _ _ _ _ h]
    rfl

theorem stageDone_time (i cl : Nat) (data : Bytes) (s : State) : (stageDone i cl data s).time = s.time :=
  stageDone_keeps_part State.time (fun _ _ _ => rfl) (fun _ _ _ => rfl) i cl data s

theorem daybookStatus_reports (h : takenAs s i 0x0C01 c) : ∃ t data, exec (.daybookStatus i) s = .next t ∧ doneIn s t i 0 data ∧
    getLE data 0 8 = statusWord14 s.boot % 2 ^ 64 ∧ getLE data 0x18 48 = headDigest s % 2 ^ 384 ∧
    getLE data 0x48 1 = assayerState s ∧ getLE data 0x4C 4 = (openEvents s).length % 2 ^ 32 ∧
    getLE data 0x50 8 = (s.assayer.outage.map (·.1)).getD 0 % 2 ^ 64 ∧ ∀ p, p ≠ .mbx → samePart p s t := by
  have hex := (onCmd_of_taken h fun _ => daybookStatus i).trans (daybookStatus_eq i (started i s))
  refine ⟨_, _, congrArg Host.Outcome.next hex, doneIn_started s i 0 _, ?_, ?_, ?_, ?_, ?_, stageDone_zero_parts i _ s⟩
  · exact getLE_daybookFields [] rfl (by simp)
  · exact getLE_daybookFields [_, _, _] rfl (by simp)
  · exact (getLE_daybookFields [_, _, _, _] rfl (by simp)).trans (Nat.mod_eq_of_lt (assayerState_lt s))
  · exact getLE_daybookFields [_, _, _, _, _, _, _, _] rfl (by simp)
  · exact getLE_daybookFields [_, _, _, _, _, _, _, _, _] rfl (by simp)

theorem rasRead_reports (h : takenAs s i 0x0A01 c) : ∃ t w n lim old cur, ∃ out : List RasRec, w = arg c 0 8 ∧
    n = clampR 1 14 (arg c 8 1) ∧ lim = readLimit s (logOf s i) ∧
    old = (match readableRecs s (logOf s i) with | r :: _ => r.seq | [] => lim) ∧
    cur = (if w = 0 then old else clampR old lim w) ∧
    out = ((readableRecs s (logOf s i)).filter fun r => decide (cur ≤ r.seq)).take n ∧ exec (.rasRead i) s = .next t ∧
    (logOf t i).recs = (logOf s i).recs ∧ (∀ r ∈ out, r.seq ∈ (logOf t i).read) ∧
    doneIn s t i ((if w = 0 then 0 else chg w cur) + chg (arg c 8 1) n)
      (mkBytes ([(0, 8, cur), (8, 8, cur + out.length), (0x10, 1, out.length), (0x18, 8, (logOf s i).lost)] ++
        (out.zipIdx.flatMap fun (r, j) => recBytes (0x40 + 0x40 * j) r))) := by
  refine ⟨_, _, _, _, _, _, _, rfl, rfl, rfl, rfl, rfl, rfl, congrArg Host.Outcome.next (onCmd_of_taken h (rasRead i)), ?_, ?_, ?_⟩
  · rw [rasRead, logOf_stageDone, logOf_setLog]
    rfl
  · intro r hr
    rw [rasRead, logOf_stageDone, logOf_setLog]
    exact List.mem_append_right _ (List.mem_map_of_mem hr)
  · exact doneIn_stageDone _ _ (by rw [setLog_mbxOf, mbxOf_started]) (by rw [setLog_mbxOf, mbxOf_started]) rfl rfl

/-- The part of record r that daybook.read returns: its offset, and its length. -/
def readOff (r : DayRec) (c : Bytes) : Nat := min (r.bytes.length - 1) (arg c 8 4)
def readLen (r : DayRec) (c : Bytes) : Nat := min (clampR 1 896 (arg c 0xC 2)) (r.bytes.length - readOff r c)
def readData (o : Nat) (r : DayRec) (c : Bytes) : List Nat := if o = 2 then [] else (r.bytes.drop (readOff r c)).take (readLen r c)
def readClamps (r : DayRec) (c : Bytes) : Nat :=
  (if arg c 0 8 = 0 then 0 else chg (arg c 0 8) r.counter) + chg (arg c 8 4) (readOff r c) + chg (arg c 0xC 2) (readLen r c)

theorem daybookRead_none (h : takenAs s i 0x0C02 c) (hnear : nearestRecord s.boot (arg c 0 8) = none) :
    exec (.daybookRead i) s = .next (stageDone i 0 (mkBytes [(0x12, 1, if s.boot.readA ∨ s.boot.readB then 0 else 2)]) (started i s)) := by
  have hnear' : nearestRecord (started i s).boot (arg c 0 8) = none := hnear
  refine congrArg Host.Outcome.next ((onCmd_of_taken h (daybookRead i)).trans ?_)
  rw [daybookRead, hnear']
  rfl

theorem daybookRead_some (h : takenAs s i 0x0C02 c) {r : DayRec} (hnear : nearestRecord s.boot (arg c 0 8) = some r) :
    exec (.daybookRead i) s = .next (stageDone i (readClamps r c) (mkBytes ([(0, 8, r.counter), (8, 4, readOff r c),
      (0xC, 4, r.bytes.length), (0x10, 2, (readData (servedBy s.boot r) r c).length), (0x12, 1, servedBy s.boot r)] ++
      ((readData (servedBy s.boot r) r c).zipIdx.map fun (x, j) => (0x20 + j, 1, x)))) (started i s)) := by
  have hnear' : nearestRecord (started i s).boot (arg c 0 8) = some r := hnear
  refine congrArg Host.Outcome.next ((onCmd_of_taken h (daybookRead i)).trans ?_)
  rw [daybookRead, hnear']
  rfl

theorem stageDone_sameFlash (i cl : Nat) (data : Bytes) (s : State) : sameFlash s (stageDone i cl data (started i s)) := by
  have hboot := stageDone_keeps_part State.boot (fun _ _ _ => rfl) (fun _ _ _ => rfl) i cl data (started i s)
  exact ⟨congrArg Boot.dayA hboot, congrArg Boot.dayB hboot, congrArg Boot.journal hboot⟩

/-- A request within the record is served as it stands. -/
theorem readData_within {o : Nat} {r : DayRec} {c : Bytes} (ho : o ≠ 2) (hoff : arg c 8 4 < r.bytes.length) (hlo : 1 ≤ arg c 0xC 2)
    (hhi : arg c 0xC 2 ≤ 896) (hend : arg c 8 4 + arg c 0xC 2 ≤ r.bytes.length) :
    readOff r c = arg c 8 4 ∧ readData o r c = (r.bytes.drop (arg c 8 4)).take (arg c 0xC 2) ∧
      (readData o r c).length = arg c 0xC 2 := by
  have hro : readOff r c = arg c 8 4 := Nat.min_eq_right (by omega)
  have hcl : clampR 1 896 (arg c 0xC 2) = arg c 0xC 2 := by rw [clampR, if_neg (by omega), if_neg (by omega)]
  have hlen : readLen r c = arg c 0xC 2 := by
    rw [readLen, hcl, hro]
    exact Nat.min_eq_left (by omega)
  have hdata : readData o r c = (r.bytes.drop (arg c 8 4)).take (arg c 0xC 2) := by rw [readData, if_neg ho, hro, hlen]
  refine ⟨hro, hdata, ?_⟩
  rw [hdata, List.length_take, List.length_drop]
  exact Nat.min_eq_left (by omega)

theorem daybookRead_reports (h : takenAs s i 0x0C02 c) : ∃ t, exec (.daybookRead i) s = .next t ∧ sameFlash s t ∧
    (nearestRecord s.boot (arg c 0 8) = none →
      doneIn s t i 0 (mkBytes [(0x12, 1, if s.boot.readA ∨ s.boot.readB then 0 else 2)])) ∧
    (∀ r, nearestRecord s.boot (arg c 0 8) = some r → servedBy s.boot r = 2 → ∃ cl off, doneIn s t i cl
      (mkBytes [(0, 8, r.counter), (8, 4, off), (0xC, 4, r.bytes.length), (0x10, 2, 0), (0x12, 1, 2)])) ∧
    (∀ r, nearestRecord s.boot (arg c 0 8) = some r → servedBy s.boot r ≠ 2 → arg c 8 4 < r.bytes.length →
      1 ≤ arg c 0xC 2 → arg c 0xC 2 ≤ 896 → arg c 8 4 + arg c 0xC 2 ≤ r.bytes.length → ∃ cl, doneIn s t i cl
      (mkBytes ([(0, 8, r.counter), (8, 4, arg c 8 4), (0xC, 4, r.bytes.length), (0x10, 2, arg c 0xC 2),
        (0x12, 1, servedBy s.boot r)] ++
        ((r.bytes.drop (arg c 8 4)).take (arg c 0xC 2)).zipIdx.map fun (x, j) => (0x20 + j, 1, x)))) := by
  cases hnear : nearestRecord s.boot (arg c 0 8) with
  | none => exact ⟨_, daybookRead_none h hnear, stageDone_sameFlash i _ _ s, fun _ => doneIn_started s i 0 _, nofun, nofun⟩
  | some r =>
    refine ⟨_, daybookRead_some h hnear, stageDone_sameFlash i _ _ s, nofun, fun r' hr' h2 => ?_, fun r' hr' h2 hoff hlo hhi hend => ?_⟩
    all_goals obtain rfl := Option.some.inj hr'
    · refine ⟨readClamps r c, readOff r c, ?_⟩
      rw [h2]
      exact doneIn_started s i _ _
    · obtain ⟨hro, hdata, hlen⟩ := readData_within h2 hoff hlo hhi hend
      refine ⟨readClamps r c, ?_⟩
      rw [hlen, hdata, hro]
      exact doneIn_started s i _ _

/-- What is answered to daybook.attest: the range it names must be the caller's. -/
theorem daybookAttest_refused (h : takenAs s i 0x0C03 c) (hown : rangeOwned s (callerOf i) (roundDown 4096 (arg c 0x48 8)) 0x4000 = false) :
    exec (.daybookAttest i) s = .next (stageDone i (chg (arg c 0x40 1) (clampR 16 64 (arg c 0x40 1)) +
      chg (arg c 0x48 8) (roundDown 4096 (arg c 0x48 8))) (mkBytes [(0, 8, roundDown 4096 (arg c 0x48 8)),
        (8, 1, clampR 16 64 (arg c 0x40 1)), (9, 1, 1)]) (started i s)) := by
  have hown' : ¬ rangeOwned (started i s) (callerOf i) (roundDown 4096 (arg c 0x48 8)) 0x4000 = true := by
    rw [show rangeOwned (started i s) = rangeOwned s from rfl, hown]
    nofun
  exact congrArg Host.Outcome.next ((onCmd_of_taken h (daybookAttest i)).trans (if_neg hown'))

theorem daybookAttest_begins (h : takenAs s i 0x0C03 c) (hown : rangeOwned s (callerOf i) (roundDown 4096 (arg c 0x48 8)) 0x4000 = true) :
    exec (.daybookAttest i) s = .next (addStep i (beat s + 1) (.attest i (chg (arg c 0x40 1) (clampR 16 64 (arg c 0x40 1)) +
      chg (arg c 0x48 8) (roundDown 4096 (arg c 0x48 8))) (roundDown 4096 (arg c 0x48 8))
      ((List.range (clampR 16 64 (arg c 0x40 1))).map fun j => arg c j 1)) (started i s)) :=
  congrArg Host.Outcome.next ((onCmd_of_taken h (daybookAttest i)).trans (if_pos hown))

end

/-- Settles O56: each report is one staged result, whose fields are read back from its bytes. -/
theorem reportingCommands : Obligations.ReportingCommands := by
  unfold Obligations.ReportingCommands
  intro s i c hi
  refine ⟨inventoryList_reports, fun h => ?_, fun h => ?_, rasRead_reports, daybookStatus_reports, daybookRead_reports, fun h => ?_⟩
  · exact ⟨_, congrArg Host.Outcome.next (onCmd_of_taken h fun _ => timeGet i), stageDone_zero_parts i _ s, doneIn_started s i 0 _⟩
  · by_cases hle : min timeMax (arg c 0 8 / 10 * 10) ≤ nextTime s
    · refine ⟨_, _, _, rfl, rfl, timeSet_late h hle, ?_, fun _ => ⟨?_, doneIn_started s i _ _⟩, fun hlt => absurd hlt (Nat.not_lt.2 hle)⟩
      · refine rd_stageDone_ne ?_ _ _ _
        simp only [fkey, clkTimeTimeNs, mbxCountClamps]
        omega
      · rw [stageDone_time]
        rfl
    · exact ⟨_, _, _, rfl, rfl, timeSet_ahead h hle, rfl, fun h => absurd h hle,
        fun _ => ⟨goesOn_of_mbx (goesOn_started i s) rfl, rfl, rfl⟩⟩
  · cases hown : rangeOwned s (callerOf i) (roundDown 4096 (arg c 0x48 8)) 0x4000 with
    | false =>
      refine ⟨_, _, _, _, rfl, rfl, rfl, daybookAttest_refused h hown, ?_, fun _ => doneIn_started s i _ _, fun h => ?_⟩
      · exact stageDone_keeps_part State.mem (fun _ _ _ => rfl) (fun _ _ _ => rfl) _ _ _ _
      · exact absurd (hown.symm.trans h) nofun
    | true =>
      exact ⟨_, _, _, _, rfl, rfl, rfl, daybookAttest_begins h hown, rfl, fun h => absurd (hown.symm.trans h) nofun,
        fun _ => ⟨goesOn_of_mbx (goesOn_started i s) rfl, rfl⟩⟩

end Sys2Proof.Machine
end

section
/-! Tests (R430): the domains of a test that ends stay on where a stale entry of the table still shows it running. -/
set_option Elab.async false
namespace Sys2Proof.Machine

/-- A march of slice 0 that is over, and for which the slice's domain was switched on. -/
def marchOver : Test := { kind := 2, target := 2, unit := 0, mode := 1, start := 0, dur := 0, switched := [136] }

/-- Its entry stands behind that of a higher number, so that its end is entered in front of both and the old entry stays. -/
def outOfOrderTests : State := { State.reset with tests := [(5, none), (2, some marchOver)] }

/-- Refutes O57: the clause on the domains of an ended test asks that no other test runs and that no number stands twice in the
table, but not that the table is in order. With its entry behind that of number 5 the march of slice 0 stands in the table once more
after it has ended, still running, and keeps its domain on. -/
theorem not_testCommands : ¬ Obligations.TestCommands := by
  unfold Obligations.TestCommands
  intro h
  obtain ⟨-, -, -, hdomains, -⟩ := h outOfOrderTests
  obtain ⟨t, ht, -, hdue⟩ := hdomains 2 {} marchOver (by decide +kernel) rfl rfl (by decide) (by decide) (by decide +kernel)
    (by simp [outOfOrderTests]) (by decide +kernel)
  obtain rfl := Host.Outcome.next.inj ht
  have hnone : (testEnd 2 {} outOfOrderTests).due = [] := by decide +kernel
  exact absurd (hnone.symm.trans hdue) (by decide +kernel)

end Sys2Proof.Machine
end

section
/-! A table's grants (R242): a grant of a tenancy number beyond the mask's words reaches another register. -/
set_option Elab.async false
namespace Sys2Proof.Machine

/-- A table whose member 1 is granted to tenancy 20160: word 315 of its mask is where the route entry of device 0 stands. -/
def farGrant : TablesMsg :=
  { epoch := 1, devId := 0, captain := 0, members := [(1, 5)], topo := [], routes := [0], grants := [(1, 20160)] }

/-- The table is staged, and its commit beat has come. -/
def farGrantStaged : State := modFab (fun f => { f with staged := some farGrant, commit := some 0 }) State.reset

/-- Refutes O42: the switch to a table leaves each route entry as the table gives it only where the table's grants name tenancies that
the masks have; it asks for members below 64 and says nothing of the grants. -/
theorem not_routeTablesAndMarkers : ¬ Obligations.RouteTablesAndMarkers := by
  unfold Obligations.RouteTablesAndMarkers
  intro h
  obtain ⟨-, -, -, -, -, -, hswitch, -⟩ := h farGrantStaged
  obtain ⟨t, ht, -, -, -, -, -, hroutes, -⟩ := hswitch farGrant 0 rfl rfl (Nat.zero_le _) (by decide) (by decide +kernel)
  obtain rfl := Host.Outcome.next.inj ht
  have hentry : rd (tableSwitch farGrantStaged) (fabRouteEntry 0) = 1 := by decide +kernel
  exact absurd (hentry.symm.trans (hroutes 0 0 (by decide) rfl)) (by decide)

end Sys2Proof.Machine
end

section
/-! A snoop that meets an uncorrectable error in a dirty line (R127, R250): what its write-back is refused for is recorded first. -/
set_option Elab.async false
namespace Sys2Proof.Machine

/-- Slice 0 holds line 0, dirty and with an uncorrectable error, under tenancy 1, to which the line's granule does not belong. -/
def strayDirty : State :=
  setSlice 0 { lines := [(0, { tag := 1, way := 0, dirty := true, locked := false, poison := false, data := 0, err := 2 })] } State.reset

/-- A snoop of line 0 under the management marker. -/
def strayProbe : Pkt := { dest := 0, src := 1, kind := 0x10, mgmt := true }

/-- Refutes O45: the record of the line's error is the first that a snoop places only where the poison written home is not refused. The
line of `strayDirty` stands under a tenancy that does not own its granule, so the refusal is recorded before it. -/
theorem not_fabricAnswersAndSnoops : ¬ Obligations.FabricAnswersAndSnoops := by
  unfold Obligations.FabricAnswersAndSnoops
  rintro ⟨-, h⟩
  obtain ⟨-, -, herror, -⟩ := h strayDirty strayProbe 0 0 0 (by decide +kernel) (by decide +kernel)
  obtain ⟨t, ht, -, -, r, hlast, hseq, -⟩ := herror _ (.snpInv strayProbe) (Or.inl rfl) (by decide +kernel) (by decide +kernel) rfl
    (by decide +kernel) rfl rfl rfl
  obtain rfl : snoopIn strayProbe true strayDirty = t := Host.Outcome.next.inj ht
  have hlater : (snoopIn strayProbe true strayDirty).ras.platform.recs.getLast?.map (·.seq) ≠
      some strayDirty.ras.platform.next := by decide +kernel
  exact hlater (by rw [hlast, Option.map_some, hseq])

end Sys2Proof.Machine
end

section
/-! A link that fails at a device which then runs alone (R236), its device ID wider than the field's six bits. -/
set_option Elab.async false
namespace Sys2Proof.Machine

/-- A joining device with port 0 up alone, which holds device ID 71: the route entry of that number lies at the place of port 0's
FABPORT_LAST_FAIL. -/
def wideId : State :=
  modFab (fun f => { f with idHeld := true })
    (rawReg fabIdDeviceId 71 (wr fabStateState 3 (wr (fabPortStatusState 0) 4 State.reset)))

/-- Refutes O40: it takes any register contents, and at a device of a six-bit ID no more the route entry that running alone writes
replaces the beat of the failure. -/
theorem not_linkFailuresAndFlits : ¬ Obligations.LinkFailuresAndFlits := by
  unfold Obligations.LinkFailuresAndFlits
  intro h
  obtain ⟨hfail, -⟩ := h wideId 0 (by decide)
  obtain ⟨hloss, -⟩ := hfail (by decide +kernel)
  obtain ⟨t, ht, -, -, hbeat, -⟩ := hloss (.blockLockLoss 0 100) 100 (Or.inl ⟨rfl, Nat.le_refl _⟩)
  obtain rfl : linkFailed 0 6 wideId = t := Host.Outcome.next.inj ht
  have hentry : rd (linkFailed 0 6 wideId) (fabPortLastFailBeat 0) = 6 * 299593 + 2 ^ 27 := by decide +kernel
  exact absurd (hentry.symm.trans hbeat) (by decide +kernel)

end Sys2Proof.Machine
end

section
/-! Links that come up, are keyed and go down (R228 to R230, R434): what each of these steps leaves of the port. -/
set_option Elab.async false
namespace Sys2Proof.Machine

theorem fportOf_wr (f : Fld) (v k : Nat) (s : State) : fportOf (wr f v s) k = fportOf s k := rfl

theorem fportOf_showIsolated (k : Nat) (s : State) : fportOf (showIsolated s) k = fportOf s k := fportOf_wr _ _ _ _

theorem rd_showIsolated {f : Fld} (h : fkey f ≠ fkey fabStateIsolated) (s : State) : rd (showIsolated s) f = rd s f :=
  rd_wr_ne _ _ _ _ h

theorem portState_bringUp (k : Nat) (s : State) : portState5 (bringUp k s) k = 2 := by
  rw [portState5, bringUp, rd_showIsolated (by simp only [fkey, fabPortStatusState, fabStateIsolated]; omega), rd_wr_same]
  rfl

theorem fportOf_bringUp (k : Nat) (s : State) : fportOf (bringUp k s) k =
    { fails := (fportOf s k).fails, held := (fportOf s k).held, began := beat s,
      owed := (List.range 6).map fun v => (v, Config.vcRoom v) } := by
  rw [bringUp, fportOf_showIsolated, fportOf_wr, fportOf_wr, fportOf_wr, modPort_fportOf_same]

theorem portState_goDown (k cause : Nat) (s : State) : portState5 (goDown k cause s) k = 1 := by
  rw [portState5, goDown, rd_showIsolated (by simp only [fkey, fabPortStatusState, fabStateIsolated]; omega), rd_wr_same]
  rfl

theorem cause_goDown (k : Nat) {cause : Nat} (h : cause < 8) (s : State) :
    rd (goDown k cause s) (fabPortStatusCause k) = cause := by
  rw [goDown, rd_showIsolated (by simp only [fkey, fabPortStatusCause, fabStateIsolated]; omega),
    rd_wr_ne _ _ _ _ (by simp only [fkey, fabPortStatusCause, fabPortStatusState]; omega), rd_wr_same]
  exact Nat.mod_eq_of_lt h

theorem fportOf_goDown (k cause : Nat) (s : State) : fportOf (goDown k cause s) k =
    { fportOf s k with began := beat s, keyTx := none, keyRx := none, proved := [] } := by
  rw [goDown, fportOf_showIsolated, fportOf_wr, fportOf_wr, fportOf_wr, modPort_fportOf_same]

/-- A port held isolated shows it, with the cause, and a contained error is recorded. -/
theorem isolatePort_spec {k : Nat} (hk : k < 6) {cause : Nat} (h : cause < 8) (s : State) :
    portState5 (isolatePort k cause s) k = 5 ∧ rd (isolatePort k cause s) (fabPortStatusCause k) = cause ∧
      rd (isolatePort k cause s) fabStateIsolated = 1 ∧ recordedIn 2 5 k 0x0504 s (isolatePort k cause s) := by
  unfold isolatePort
  refine ⟨?_, ?_, ?_, recContained_recordedIn _ _ _ _ _ _ rfl ?_⟩
  · rw [portState5, rd_recContained (by decide : (0 : Nat) < 64) (by simp only [fabPortStatusState]; omega), rd_wr_same]
    rfl
  · rw [rd_recContained (by decide : (5 : Nat) < 64) (by simp only [fabPortStatusCause]; omega),
      rd_wr_ne _ _ _ _ (by simp only [fkey, fabPortStatusCause, fabPortStatusState]; omega), rd_wr_same]
    exact Nat.mod_eq_of_lt h
  · rw [rd_recContained (by decide) (by decide),
      rd_wr_ne _ _ _ _ (by simp only [fkey, fabStateIsolated, fabPortStatusState]; omega),
      rd_wr_ne _ _ _ _ (by simp only [fkey, fabStateIsolated, fabPortStatusCause]; omega), rd_wr_same]
    rfl
  · rw [beat, rd_wr_ne _ _ _ _ (by simp only [fkey, clkBeatBeat, fabPortStatusState]; omega),
      rd_wr_ne _ _ _ _ (by simp only [fkey, clkBeatBeat, fabPortStatusCause]; omega),
      rd_wr_ne _ _ _ _ (by decide), beat]

theorem portState_putFlit (k j : Nat) (f : TxFlit) (s : State) : portState5 (putFlit j f s) k = portState5 s k := rfl

theorem fportOf_sendKeying (k step : Nat) (s : State) :
    fportOf (sendKeying k step s) k = flitOut (fportOf s k) { seq := 0, kind := 5, vc := 7, step := some step } :=
  modPort_fportOf_same k _ s

/-- A stage that ends in training begins keying, unless the Assayer is hung. -/
theorem stageDone5_training {k : Nat} {s : State} (hstate : portState5 s k = 2) (hfollow : (fportOf s k).follow = false) :
    stageDone5 k s = if s.assayer.hung then isolatePort k 5 s
      else sendKeying k 0 (wr (fabPortStatusState k) 3 (modPort k (fun p => { p with began := beat s, proved := [] }) s)) := by
  rw [stageDone5, if_neg (by simp [hfollow]), if_pos hstate]

/-- With all three parts of keying proved the link is up. -/
theorem stageDone5_keyed {k : Nat} {s : State} (hstate : portState5 s k = 3) (hfollow : (fportOf s k).follow = false)
    (hproved : ∀ n, n < 3 → n ∈ (fportOf s k).proved) : stageDone5 k s = linkUp5 k s := by
  rw [stageDone5, if_neg (by simp [hfollow]), if_neg (by rw [hstate]; decide),
    if_pos ⟨hstate, by simp [hproved 0 (by decide), hproved 1 (by decide), hproved 2 (by decide)]⟩]

/-- What counts the elections of an electing device, and its state. -/
theorem startElection_state (e : Nat) (s : State) : rd (startElection e s) fabStateState = 3 := by
  rw [startElection, rd_bump_ne _ _ _ _ (by decide), rd_wr_same]
  rfl

theorem startElection_counted (e : Nat) {s t : State} (h : rd t fabEventsElections = rd s fabEventsElections) :
    counted fabEventsElections 1 s (startElection e t) := by
  rw [counted, startElection, rd_bump_same, rd_wr_ne _ _ _ _ (by decide), rd_wr_ne _ _ _ _ (by decide), ← h]
  rfl

theorem rd_startElection {f : Fld} (h1 : fkey f ≠ fkey fabEventsElections) (h2 : fkey f ≠ fkey fabStateState)
    (h3 : fkey f ≠ fkey fabStateConvergeBeats) (e : Nat) (s : State) : rd (startElection e s) f = rd s f := by
  rw [startElection, rd_bump_ne _ _ _ _ h1, rd_wr_ne _ _ _ _ h2, rd_wr_ne _ _ _ _ h3]
  rfl

theorem linkUp5_spec (k : Nat) (s : State) : portState5 (linkUp5 k s) k = 4 ∧
    (rd s fabStateState = 2 → rd (linkUp5 k s) fabStateState = 3 ∧ counted fabEventsElections 1 s (linkUp5 k s)) ∧
    (rd s fabStateState ≠ 2 → rd (linkUp5 k s) fabStateState = rd s fabStateState) ∧
    (rd s fabStateState ≠ 2 → (linkUp5 k s).fabric.began = beat s) := by
  have hup : ∀ y, portState5 (wr (fabPortStatusState k) 4 y) k = 4 := fun y => rd_wr_same _ _ _
  unfold linkUp5
  by_cases hwait : rd s fabStateState = 2
  · simp only []
    rw [if_pos hwait]
    refine ⟨?_, fun _ => ⟨startElection_state _ _, startElection_counted _ ?_⟩, fun h => absurd hwait h, fun h => absurd hwait h⟩
    · rw [portState5, rd_startElection (by simp only [fkey, fabPortStatusState, fabEventsElections]; omega)
        (by simp only [fkey, fabPortStatusState, fabStateState]; omega)
        (by simp only [fkey, fabPortStatusState, fabStateConvergeBeats]; omega)]
      exact hup _
    · exact rd_wr_ne (fabPortStatusState k) _ _ _ (by simp only [fkey, fabPortStatusState, fabEventsElections]; omega)
  · simp only []
    rw [if_neg hwait]
    exact ⟨hup _, fun h => absurd h hwait,
      fun _ => rd_wr_ne (fabPortStatusState k) _ _ _ (by simp only [fkey, fabPortStatusState, fabStateState]; omega), fun _ => rfl⟩

theorem stageTimeout5_failed {k x : Nat} {s : State}
    (h : (portState5 s k = 2 ∧ (fportOf s k).follow = false ∧ x = 0) ∨ (portState5 s k = 3 ∧ x = 4)) :
    stageTimeout5 k true s = goDown k x s := by
  unfold stageTimeout5
  obtain ⟨hstate, hfollow, rfl⟩ | ⟨hstate, rfl⟩ := h
  · rw [if_pos ⟨hstate, hfollow, .inl rfl⟩]
  · rw [if_neg (by rw [hstate]; simp), if_pos ⟨hstate, .inl rfl⟩]

theorem stageTimeout5_early {k : Nat} {s : State} (h : beat s - (fportOf s k).began < 20000) :
    stageTimeout5 k false s = s := by
  simp only [stageTimeout5]
  rw [if_neg (by simp; omega), if_neg (by simp; omega)]

/-- A port that has proved a part of keying. -/
def provedPart (n : Nat) (q : FabPort) : FabPort := { q with proved := (n :: q.proved).eraseDups }

/-- A port that has proved the last part: it is keyed under key n, and hears under the next. -/
def keyedPort (n : Nat) (q : FabPort) : FabPort :=
  { provedPart 2 q with keyTx := some n, keyRx := some (n + 1), cntTx := 0, cntRx := 0 }

section Keying
variable {k : Nat} {s : State} (hstate : portState5 s k = 3) (hhung : s.assayer.hung = false)
include hstate hhung

/-- The first part of keying succeeds. -/
theorem keyingFlit_first : keyingFlit k 0 true s = sendKeying k 1 (modPort k (provedPart 0) s) := by
  unfold keyingFlit
  rw [if_pos ⟨hstate, by decide, rfl⟩, if_neg (by simp [hhung]), if_neg (by decide), if_neg (by decide)]
  rfl

/-- The first part of keying fails. -/
theorem keyingFlit_failed : keyingFlit k 0 false s = goDown k 4 s := by
  unfold keyingFlit
  rw [if_pos ⟨hstate, by decide, rfl⟩, if_neg (by simp [hhung]), if_pos rfl, if_neg (by decide)]

/-- The owner's key is another. -/
theorem keyingFlit_foreign (h0 : 0 ∈ (fportOf s k).proved) : keyingFlit k 1 false s = isolatePort k 1 s := by
  unfold keyingFlit
  rw [if_pos ⟨hstate, by decide, by simp [List.range_succ, h0]⟩, if_neg (by simp [hhung]), if_pos rfl, if_pos rfl]

/-- The last part of keying succeeds. -/
theorem keyingFlit_last (h0 : 0 ∈ (fportOf s k).proved) (h1 : 1 ∈ (fportOf s k).proved) : keyingFlit k 2 true s =
    modFab (fun f => { f with nextKey := s.fabric.nextKey + 2 }) (modPort k (keyedPort s.fabric.nextKey) s) := by
  unfold keyingFlit
  rw [if_pos ⟨hstate, by decide, by simp [List.range_succ, h0, h1]⟩, if_neg (by simp [hhung]), if_neg (by decide), if_pos rfl]
  rfl

end Keying

theorem fportOf_keyed (k : Nat) (f : Nat) (g : FabPort → FabPort) (s : State) :
    fportOf (modFab (fun x => { x with nextKey := f }) (modPort k g s)) k = g (fportOf s k) := modPort_fportOf_same k g s

theorem keyingFlit_spec {k : Nat} (hk : k < 6) {s : State} (hstate : portState5 s k = 3) (hhung : s.assayer.hung = false) :
    (∃ t g, exec (.keyingFlit k 0 true) s = .next t ∧ 0 ∈ (fportOf t k).proved ∧ portState5 t k = 3 ∧
      (fportOf t k).sent = (fportOf s k).sent ++ [g] ∧ g.kind = 5 ∧ g.step = some 1) ∧
    (∃ t, exec (.keyingFlit k 0 false) s = .next t ∧ portState5 t k = 1 ∧ rd t (fabPortStatusCause k) = 4) ∧
    (0 ∈ (fportOf s k).proved → ∃ t, exec (.keyingFlit k 1 false) s = .next t ∧ portState5 t k = 5 ∧
      rd t (fabPortStatusCause k) = 1 ∧ recordedIn 2 5 k 0x0504 s t) ∧
    (0 ∈ (fportOf s k).proved → 1 ∈ (fportOf s k).proved → ∃ t, exec (.keyingFlit k 2 true) s = .next t ∧
      2 ∈ (fportOf t k).proved ∧ (fportOf t k).keyTx = some s.fabric.nextKey ∧
      (fportOf t k).keyRx = some (s.fabric.nextKey + 1) ∧ t.fabric.nextKey = s.fabric.nextKey + 2 ∧
      (fportOf t k).cntTx = 0 ∧ (fportOf t k).cntRx = 0) := by
  have hmem : ∀ n q, n ∈ (provedPart n q).proved := fun n q => by simp [provedPart]
  refine ⟨⟨_, stampFlit (provedPart 0 (fportOf s k)) 
        { seq := (fportOf s k).seqTx, kind := 5, vc := 7, step := some 1 },
      congrArg Host.Outcome.next (keyingFlit_first hstate hhung), ?_⟩,
    ⟨_, congrArg Host.Outcome.next (keyingFlit_failed hstate hhung), portState_goDown k 4 s, cause_goDown k (by decide) s⟩,
    fun h0 => ⟨_, congrArg Host.Outcome.next (keyingFlit_foreign hstate hhung h0), ?_⟩,
    fun h0 h1 => ⟨_, congrArg Host.Outcome.next (keyingFlit_last hstate hhung h0 h1), ?_⟩⟩
  · rw [fportOf_sendKeying, modPort_fportOf_same]
    exact ⟨hmem 0 _, hstate, rfl, rfl, rfl⟩
  · obtain ⟨hst, hcause, -, hrec⟩ := isolatePort_spec hk (by decide : 1 < 8) s
    exact ⟨hst, hcause, hrec⟩
  · rw [fportOf_keyed]
    exact ⟨hmem 2 _, rfl, rfl, rfl, rfl, rfl⟩

/-- Rekeying a direction that has carried 2^40 flits. -/
theorem linkRekey_eq {k : Nat} {s : State} (hup : portUp s k = true) (hhung : s.assayer.hung = false) {rx : Bool}
    (hfull : 2 ^ 40 ≤ (if rx then (fportOf s k).cntRx else (fportOf s k).cntTx)) : linkRekey k rx s =
    modFab (fun f => { f with nextKey := s.fabric.nextKey + 1 }) (modPort k (fun q =>
      if rx then { q with keyRx := some s.fabric.nextKey, cntRx := 0 }
      else { q with keyTx := some s.fabric.nextKey, cntTx := 0 }) s) := by
  unfold linkRekey
  exact if_pos ⟨hup, hhung, hfull⟩

theorem linkRekey_spec {k : Nat} {s : State} (hup : portUp s k = true) (hhung : s.assayer.hung = false) :
    (2 ^ 40 ≤ (fportOf s k).cntTx → ∃ t, exec (.linkRekey k false) s = .next t ∧
      (fportOf t k).keyTx = some s.fabric.nextKey ∧ (fportOf t k).cntTx = 0 ∧ (fportOf t k).keyRx = (fportOf s k).keyRx ∧
      t.fabric.nextKey = s.fabric.nextKey + 1) ∧
    (2 ^ 40 ≤ (fportOf s k).cntRx → ∃ t, exec (.linkRekey k true) s = .next t ∧
      (fportOf t k).keyRx = some s.fabric.nextKey ∧ (fportOf t k).cntRx = 0 ∧ (fportOf t k).keyTx = (fportOf s k).keyTx ∧
      t.fabric.nextKey = s.fabric.nextKey + 1) ∧
    ((fportOf s k).cntTx < 2 ^ 40 → exec (.linkRekey k false) s = .next s) := by
  refine ⟨fun h => ⟨_, congrArg Host.Outcome.next (linkRekey_eq (rx := false) hup hhung h), ?_⟩,
    fun h => ⟨_, congrArg Host.Outcome.next (linkRekey_eq (rx := true) hup hhung h), ?_⟩,
    fun h => congrArg Host.Outcome.next (if_neg (fun hall => absurd hall.2.2 (by simpa using h)))⟩
  · rw [fportOf_keyed]
    exact ⟨rfl, rfl, rfl, rfl⟩
  · rw [fportOf_keyed]
    exact ⟨rfl, rfl, rfl, rfl⟩

theorem retryTimer5_of_due {k : Nat} {s : State} (hstate : portState5 s k = 1 ∨ portState5 s k = 6 ∨ assayerBack s k = true)
    (hwait : 100000 ≤ beat s - (fportOf s k).began) (hon : rdB s (fabPortCtrlEnable k) = true)
    (hoos : (fportOf s k).oos = false) (hfen : (fportOf s k).fenced = false) : retryTimer5 k s = bringUp k s :=
  if_pos ⟨hstate, hwait, hon, hoos, hfen⟩

theorem linkStageDone_training {k : Nat} (hk : k < 6) {s : State} (hstate : portState5 s k = 2)
    (hfollow : (fportOf s k).follow = false) : ∃ t, exec (.linkStageDone k) s = .next t ∧
      (s.assayer.hung = false → portState5 t k = 3 ∧ (fportOf t k).proved = [] ∧ (fportOf t k).began = beat s ∧
        samePart .ras s t) ∧
      (s.assayer.hung = true → portState5 t k = 5 ∧ rd t (fabPortStatusCause k) = 5 ∧ rd t fabStateIsolated = 1 ∧
        recordedIn 2 5 k 0x0504 s t) := by
  refine ⟨_, congrArg Host.Outcome.next (stageDone5_training hstate hfollow), fun hhung => ?_, fun hhung => ?_⟩
  · rw [if_neg (by simp [hhung]), fportOf_sendKeying, fportOf_wr, modPort_fportOf_same]
    exact ⟨rd_wr_same _ _ _, rfl, rfl, rfl⟩
  · rw [if_pos hhung]
    exact isolatePort_spec hk (by decide) s

theorem loopbackFollow_spec (k : Nat) (s : State) :
    (portState5 s k = 1 ∨ portState5 s k = 2 ∨ portState5 s k = 6 → ∃ t, exec (.loopbackFollow k) s = .next t ∧
      portState5 t k = 2 ∧ (fportOf t k).follow = true ∧ otherFields [fabPortStatusState k] s t) ∧
    (portState5 s k = 4 → exec (.loopbackFollow k) s = .next s) ∧
    ((fportOf s k).follow = true → ∃ t, exec (.loopbackRequestStop k) s = .next t ∧ portState5 t k = 2 ∧
      (fportOf t k).follow = false) ∧
    ((fportOf s k).follow = false → exec (.loopbackRequestStop k) s = .next s) := by
  refine ⟨fun h => ⟨_, congrArg Host.Outcome.next (if_pos h), rd_wr_same _ _ _, ?_, ?_⟩,
    fun h => congrArg Host.Outcome.next (if_neg (by omega)), fun h => ⟨_, congrArg Host.Outcome.next (if_pos h), ?_⟩,
    fun h => congrArg Host.Outcome.next (if_neg (by simp [h]))⟩
  · rw [fportOf_wr, modPort_fportOf_same]
  · exact ((otherFields_refl _ s).of_regs rfl).wr List.mem_cons_self 2
  · rw [fportOf_bringUp]
    exact ⟨portState_bringUp k s, rfl⟩

/-- Settles O39: stage by stage, from the equation of each event. -/
theorem linksComeUpAndAreKeyed : Obligations.LinksComeUpAndAreKeyed := by
  unfold Obligations.LinksComeUpAndAreKeyed
  refine fun s k hk => ⟨linkStageDone_training hk, fun hstate hfollow hproved => ⟨_,
      congrArg Host.Outcome.next (stageDone5_keyed hstate hfollow hproved), linkUp5_spec k s⟩, fun x hx => ?_,
    fun h => congrArg Host.Outcome.next (stageTimeout5_early h), fun hstate hwait hon hoos hfen => ?_,
    fun h => congrArg Host.Outcome.next (if_neg fun hall => by omega), keyingFlit_spec hk, linkRekey_spec, loopbackFollow_spec k s⟩
  · refine ⟨_, congrArg Host.Outcome.next (stageTimeout5_failed hx), portState_goDown k x s, cause_goDown k ?_ s, ?_⟩
    · omega
    · rw [fportOf_goDown]
      exact ⟨rfl, rfl, rfl⟩
  · exact ⟨_, congrArg Host.Outcome.next (retryTimer5_of_due hstate hwait hon hoos hfen), portState_bringUp k s,
      by rw [fportOf_bringUp]⟩

end Sys2Proof.Machine
end

section
/-! What sending a packet leaves of each port (R234, R255): all but what is sent, its numbers and its credits. -/
set_option Elab.async false
namespace Sys2Proof.Machine

section PortView
variable {α : Type} (g : FabPort → α) (hflit : ∀ p f, g (flitOut p f) = g p) (hcredits : ∀ p c, g { p with credits := c } = g p)

theorem view_modPort {f : FabPort → FabPort} (hf : ∀ p, g (f p) = g p) (j : Nat) (s : State) (k : Nat) :
    g (fportOf (modPort j f s) k) = g (fportOf s k) := by
  by_cases h : k = j
  · rw [h, modPort_fportOf_same, hf]
  · rw [modPort_fportOf_ne f s h]

include hflit

theorem view_putFlit (j : Nat) (f : TxFlit) (s : State) (k : Nat) : g (fportOf (putFlit j f s) k) = g (fportOf s k) :=
  view_modPort g (fun p => hflit p f) j s k

theorem view_sendInShare (h : ShareSeg) (q : Nat) (l : List Pkt) (s : State) (k : Nat) :
    g (fportOf (sendInShare h q l s) k) = g (fportOf s k) := by
  unfold sendInShare
  split
  · exact view_putFlit g hflit _ _ s k
  · refine foldl_fixes (fun y => g (fportOf y k)) ?_ l s
    exact fun _ _ => rfl

include hcredits

theorem view_putOut (j : Nat) (p : Pkt) (s : State) (k : Nat) : g (fportOf (putOut j p s) k) = g (fportOf s k) := by
  refine (view_putFlit g hflit _ _ _ _).trans (view_modPort g ?_ _ _ _)
  exact fun q => hcredits q _

theorem view_routeOne (p : Pkt) (s : State) (k : Nat) : g (fportOf (routeOne p s) k) = g (fportOf s k) := by
  unfold routeOne
  split
  · rfl
  · simp only []
    repeat' split
    all_goals first | exact view_putOut g hflit hcredits _ _ s k | rfl

theorem view_relayMsg (p : Pkt) (m : Msg) (s : State) (k : Nat) : g (fportOf (relayMsg p m s) k) = g (fportOf s k) := by
  unfold relayMsg
  repeat' split
  · exact view_putOut g hflit hcredits _ _ s k
  · rfl
  · rfl

theorem view_sendPkt (p : Pkt) (s : State) (k : Nat) : g (fportOf (sendPkt p s) k) = g (fportOf s k) := by
  unfold sendPkt
  simp only []
  split
  · unfold sendAnyPos
    simp only []
    split
    · exact view_sendInShare g hflit _ _ _ (freeNext s) k
    · rfl
  · split
    · exact view_routeOne g hflit hcredits _ s k
    · split
      · exact view_relayMsg g hflit hcredits _ _ s k
      · split
        · rfl
        · rfl

end PortView

/-- What a port holds of its neighbour's hellos, and of the positions reserved on it. -/
def portHeard (p : FabPort) : Option HelloMsg × Nat × Table Nat := (p.hello, p.quiet, p.held)

theorem portHeard_flitOut (p : FabPort) (f : TxFlit) : portHeard (flitOut p f) = portHeard p := by
  unfold flitOut
  simp only []
  split
  · rfl
  · rfl

theorem portHeard_sendMsg (d : Nat) (m : Msg) (s : State) (k : Nat) :
    portHeard (fportOf (sendMsg d m s) k) = portHeard (fportOf s k) :=
  view_sendPkt portHeard portHeard_flitOut (fun _ _ => rfl) _ s k

theorem SentFrom.foldl {β : Type} (d : β → Nat) (m : β → Msg) (l : List β) (s : State) :
    SentFrom s (l.foldl (fun a x => Machine.sendMsg (d x) (m x) a) s) :=
  List.foldlRecOn (motive := SentFrom s) l _ (.refl s) fun y hy x _ => hy.trans (.sendMsg (d x) (m x) y)

theorem regs_sendMsg (d : Nat) (m : Msg) (s : State) : (sendMsg d m s).regs = s.regs :=
  (SentFrom.sendMsg d m s).part State.regs fun _ _ _ => rfl

theorem rd_sendMsg (d : Nat) (m : Msg) (s : State) (f : Fld) : rd (sendMsg d m s) f = rd s f := rd_of_regs (regs_sendMsg d m s) f

end Sys2Proof.Machine
end

section
/-! Discovery and election (R234 to R243, R259, R260). -/
set_option Elab.async false
namespace Sys2Proof.Machine

/-- What of the election state a beat's reports to the captain do not touch (R235): the best unique ID heard, and from where. -/
def bestOf (f : Fabric) : Option Nat × Nat × Option Nat × Nat := (f.best, f.bestHops, f.parent, f.stable)

/-- t follows from s by messages sent and a new computation of the captain's: hellos, best unique ID and registers but FAB_STATE.state
are as before. -/
structure Reported (s t : State) : Prop where
  hello : ∀ k, portHeard (fportOf t k) = portHeard (fportOf s k)
  best : bestOf t.fabric = bestOf s.fabric
  regs : otherFields [fabStateState] s t

theorem Reported.refl (s : State) : Reported s s := ⟨fun _ => rfl, rfl, otherFields_refl _ s⟩

theorem Reported.trans {s t u : State} (h : Reported s t) (k : Reported t u) : Reported s u :=
  ⟨fun n => (k.hello n).trans (h.hello n), k.best.trans h.best, h.regs.trans k.regs⟩

theorem Reported.sendMsg (d : Nat) (m : Msg) (s : State) : Reported s (sendMsg d m s) :=
  ⟨portHeard_sendMsg d m s, (SentFrom.sendMsg d m s).part (fun y => bestOf y.fabric) fun _ _ _ => rfl,
    (otherFields_refl _ s).of_regs (regs_sendMsg d m s)⟩

theorem Reported.commitAgain (d : Nat) (s : State) : Reported s (commitAgain d s) := by
  unfold Machine.commitAgain
  split
  · refine Reported.trans ?_ (.sendMsg _ _ _)
    exact ⟨fun _ => rfl, rfl, (otherFields_refl _ s).of_regs rfl⟩
  · exact .refl s

theorem Reported.helloLate (h : HelloMsg) (s : State) : Reported s (helloLate h s) := by
  unfold Machine.helloLate
  split
  · split
    · exact .commitAgain _ s
    · exact .refl s
  · exact .refl s

theorem Reported.recompute (s : State) : Reported s (recompute s) := by
  unfold Machine.recompute
  split
  · exact .refl s
  · split
    · exact ⟨fun _ => rfl, rfl, ((otherFields_refl _ s).of_regs rfl).wr List.mem_cons_self 7⟩
    · exact ⟨fun _ => rfl, rfl, (otherFields_refl _ s).of_regs rfl⟩

theorem Reported.reportAgain (s : State) : Reported s (reportAgain s) := by
  unfold Machine.reportAgain
  split
  · exact .refl s
  · split
    · exact .sendMsg _ _ s
    · split
      · exact .sendMsg _ _ s
      · exact .refl s

theorem Reported.linkNews (s : State) : Reported s (linkNews s) := by
  unfold Machine.linkNews
  split
  · exact (Reported.recompute s).trans (.reportAgain _)
  · exact .refl s

/-- What a hello shows of the neighbour (R234). -/
def heardFrom (k : Nat) (h : HelloMsg) (s : State) : State :=
  wr (fabPortNbUidUid k) h.uid (wr (fabPortStatusNbPort k) h.port (wrB (fabPortStatusNbValid k) h.idHeld
    (wr (fabPortStatusNbId k) h.devId (modPort k (fun p => { p with hello := some h, quiet := 0 }) s))))

theorem rd_heardFrom {k : Nat} {f : Fld} (hf : f.off < 0x401000 ∧ f.lo < 64) (h : HelloMsg) (s : State) :
    rd (heardFrom k h s) f = rd s f := by
  obtain ⟨hoff, hlo⟩ := hf
  rw [heardFrom, rd_wr_ne _ _ _ _ (by simp only [fkey, fabPortNbUidUid]; omega),
    rd_wr_ne _ _ _ _ (by simp only [fkey, fabPortStatusNbPort]; omega), wrB,
    rd_wr_ne _ _ _ _ (by simp only [fkey, fabPortStatusNbValid]; omega),
    rd_wr_ne _ _ _ _ (by simp only [fkey, fabPortStatusNbId]; omega)]
  rfl

theorem heardFrom_shows (k : Nat) (h : HelloMsg) (s : State) : (fportOf (heardFrom k h s) k).hello = some h ∧
    (fportOf (heardFrom k h s) k).quiet = 0 ∧
    rd (heardFrom k h s) (fabPortNbUidUid k) = h.uid % 2 ^ 64 ∧ rd (heardFrom k h s) (fabPortStatusNbPort k) = h.port % 8 ∧
    rd (heardFrom k h s) (fabPortStatusNbId k) = h.devId % 64 := by
  have hport : fportOf (heardFrom k h s) k = { fportOf s k with hello := some h, quiet := 0 } := by
    simp only [heardFrom, wrB, fportOf_wr, modPort_fportOf_same]
  refine ⟨by rw [hport], by rw [hport], rd_wr_same _ _ _, ?_, ?_⟩
  · rw [heardFrom, rd_wr_ne _ _ _ _ (by simp only [fkey, fabPortNbUidUid, fabPortStatusNbPort]; omega), rd_wr_same]
    rfl
  · rw [heardFrom, rd_wr_ne _ _ _ _ (by simp only [fkey, fabPortNbUidUid, fabPortStatusNbId]; omega),
      rd_wr_ne _ _ _ _ (by simp only [fkey, fabPortStatusNbPort, fabPortStatusNbId]; omega), wrB,
      rd_wr_ne _ _ _ _ (by simp only [fkey, fabPortStatusNbValid, fabPortStatusNbId]; omega), rd_wr_same]
    rfl

theorem hearBest_regs (k : Nat) (h : HelloMsg) (s : State) : (hearBest k h s).regs = s.regs := by
  unfold hearBest
  simp only []
  repeat' split
  all_goals rfl

theorem hearBest_fabric (k : Nat) (h : HelloMsg) (s : State) : (hearBest k h s).fabric.epoch = s.fabric.epoch ∧
    (hearBest k h s).fabric.staged = s.fabric.staged ∧ ∀ j, fportOf (hearBest k h s) j = fportOf s j := by
  unfold hearBest
  simp only []
  repeat' split
  all_goals exact ⟨rfl, rfl, fun _ => rfl⟩

theorem hearBest_lower {k b : Nat} {h : HelloMsg} {s : State} (hstate : rd s fabStateState = 3) (hepoch : h.epoch = s.fabric.epoch)
    (hbest : s.fabric.best = some b) (hlt : h.bestUid < b) (hreal : h.bestUid ≠ 2 ^ 64 - 1) :
    bestOf (hearBest k h s).fabric = (some h.bestUid, h.bestHops + 1, some k, 0) := by
  unfold hearBest
  rw [if_pos ⟨hstate, hepoch, hreal⟩]
  simp only [hbest]
  rw [if_pos hlt]
  rfl

theorem hearBest_of_settled {k : Nat} {h : HelloMsg} {s : State} (hstate : rd s fabStateState ≠ 3) : hearBest k h s = s := by
  unfold hearBest
  exact if_neg fun hall => hstate hall.1

/-- What an accepted hello that calls for no election does next. -/
def hearLate (k : Nat) (h : HelloMsg) (first : Bool) (s : State) : State :=
  if first then linkNews (helloLate h (hearBest k h s)) else helloLate h (hearBest k h s)

/-- The branches of HELLO on a port that is up. -/
theorem hello_eq {k : Nat} {s : State} (hup : portUp s k = true) (h : HelloMsg) : hello k h s =
    if h.uid = s.chip.uid then isolatePort k 6 (heardFrom k h s)
    else if settled s ∧ h.captain ≠ 0 ∧ h.captain ≠ rd s fabCaptainUidUid then
      (if h.members &&& myMembers s = 0 then startElection (max h.epoch s.fabric.epoch + 1) (heardFrom k h s)
        else isolatePort k 2 (heardFrom k h s))
    else if callsElection s h then hearBest k h (startElection h.epoch (heardFrom k h s))
    else hearLate k h (fportOf s k).hello.isNone (heardFrom k h s) := by
  rw [hello, if_pos hup]
  rfl

theorem not_foreign {s : State} {h : HelloMsg} (hcap : settled s = false ∨ h.captain = 0 ∨ h.captain = rd s fabCaptainUidUid) :
    ¬ (settled s = true ∧ h.captain ≠ 0 ∧ h.captain ≠ rd s fabCaptainUidUid) := by
  rintro ⟨hset, hzero, hother⟩
  obtain h1 | h1 | h1 := hcap
  · exact absurd (hset.symm.trans h1) (by decide)
  · exact hzero h1
  · exact hother h1

theorem hello_late {k : Nat} {s : State} (hup : portUp s k = true) {h : HelloMsg} (huid : h.uid ≠ s.chip.uid)
    (hcap : settled s = false ∨ h.captain = 0 ∨ h.captain = rd s fabCaptainUidUid) (hepoch : h.epoch ≤ s.fabric.epoch) :
    hello k h s = hearLate k h (fportOf s k).hello.isNone (heardFrom k h s) := by
  rw [hello_eq hup, if_neg huid, if_neg (not_foreign hcap), if_neg]
  simp [callsElection, Nat.not_lt.mpr hepoch]

theorem hello_calls {k : Nat} {s : State} (hup : portUp s k = true) {h : HelloMsg} (huid : h.uid ≠ s.chip.uid)
    (hcalls : callsElection s h = true) (hcap : settled s = false ∨ h.captain = 0 ∨ h.captain = rd s fabCaptainUidUid) :
    hello k h s = hearBest k h (startElection h.epoch (heardFrom k h s)) := by
  rw [hello_eq hup, if_neg huid, if_neg (not_foreign hcap), if_pos hcalls]

theorem hearLate_reported (k : Nat) (h : HelloMsg) (first : Bool) (s : State) : Reported (hearBest k h s) (hearLate k h first s) := by
  unfold hearLate
  split
  · exact (Reported.helloLate h _).trans (.linkNews _)
  · exact .helloLate h _

theorem hello_late_spec {k : Nat} {s : State} (hup : portUp s k = true) {h : HelloMsg} (huid : h.uid ≠ s.chip.uid)
    (hcap : settled s = false ∨ h.captain = 0 ∨ h.captain = rd s fabCaptainUidUid) (hepoch : h.epoch ≤ s.fabric.epoch) :
    ∃ t, exec (.hello k h) s = .next t ∧ (fportOf t k).hello = some h ∧ (fportOf t k).quiet = 0 ∧
      rd t (fabPortNbUidUid k) = h.uid % 2 ^ 64 ∧ rd t (fabPortStatusNbPort k) = h.port % 8 ∧
      rd t (fabPortStatusNbId k) = h.devId % 64 ∧
      (∀ b, rd s fabStateState = 3 → h.epoch = s.fabric.epoch → s.fabric.best = some b → h.bestUid < b →
        h.bestUid ≠ 2 ^ 64 - 1 → t.fabric.best = some h.bestUid ∧ t.fabric.bestHops = h.bestHops + 1 ∧
        t.fabric.parent = some k ∧ t.fabric.stable = 0) ∧
      (rd s fabStateState ≠ 3 → t.fabric.best = s.fabric.best ∧ t.fabric.parent = s.fabric.parent) := by
  refine ⟨_, congrArg Host.Outcome.next (hello_late hup huid hcap hepoch), ?_⟩
  obtain ⟨hmsg, hquiet, huidr, hport, hid⟩ := heardFrom_shows k h s
  obtain ⟨-, -, hkept⟩ := hearBest_fabric k h (heardFrom k h s)
  have hrep := hearLate_reported k h (fportOf s k).hello.isNone (heardFrom k h s)
  have hstate : rd (heardFrom k h s) fabStateState = rd s fabStateState := rd_heardFrom (by decide) h s
  have hregs := hearBest_regs k h (heardFrom k h s)
  have hview := hrep.hello k
  rw [hkept] at hview
  generalize hearLate k h (fportOf s k).hello.isNone (heardFrom k h s) = t at hrep hview ⊢
  refine ⟨(congrArg (·.1) hview).trans hmsg, (congrArg (·.2.1) hview).trans hquiet, ?_, ?_, ?_, fun b h3 hep hb hlt hreal => ?_, fun hne => ?_⟩
  · rw [hrep.regs _ (by simp [fkey, fabPortNbUidUid, fabStateState]; omega), rd_of_regs hregs, huidr]
  · rw [hrep.regs _ (by simp [fkey, fabPortStatusNbPort, fabStateState]; omega), rd_of_regs hregs, hport]
  · rw [hrep.regs _ (by simp [fkey, fabPortStatusNbId, fabStateState]; omega), rd_of_regs hregs, hid]
  · have hlow := hrep.best.trans (hearBest_lower (k := k) (hstate.trans h3) hep hb hlt hreal)
    exact ⟨congrArg (·.1) hlow, congrArg (·.2.1) hlow, congrArg (·.2.2.1) hlow, congrArg (·.2.2.2) hlow⟩
  · have hsame := hrep.best
    rw [hearBest_of_settled (by rw [hstate]; exact hne)] at hsame
    exact ⟨congrArg (·.1) hsame, congrArg (·.2.2.1) hsame⟩

theorem hello_calls_spec {k : Nat} {s : State} (hup : portUp s k = true) {h : HelloMsg} (huid : h.uid ≠ s.chip.uid)
    (hcalls : callsElection s h = true) (hcap : settled s = false ∨ h.captain = 0 ∨ h.captain = rd s fabCaptainUidUid) :
    ∃ t, exec (.hello k h) s = .next t ∧ rd t fabStateState = 3 ∧ t.fabric.epoch = h.epoch ∧ t.fabric.staged = none ∧
      counted fabEventsElections 1 s t := by
  refine ⟨_, congrArg Host.Outcome.next (hello_calls hup huid hcalls hcap), ?_⟩
  obtain ⟨hepoch, hstaged, -⟩ := hearBest_fabric k h (startElection h.epoch (heardFrom k h s))
  have hregs := hearBest_regs k h (startElection h.epoch (heardFrom k h s))
  refine ⟨?_, hepoch, hstaged, ?_⟩
  · rw [rd_of_regs hregs, startElection_state]
  · rw [counted, rd_of_regs hregs]
    exact startElection_counted h.epoch (rd_heardFrom (by decide) h s)

/-- A record placed after writes that neither the log nor the beat shows. -/
theorem recordedIn.of_before {cls kind unit cause : Nat} {s y t : State} (h : recordedIn cls kind unit cause y t)
    (hras : y.ras = s.ras) (hbeat : beat y = beat s) : recordedIn cls kind unit cause s t := by
  rw [recordedIn, ← hras, ← hbeat]
  exact h

theorem hello_own_spec {k : Nat} (hk : k < 6) {s : State} (hup : portUp s k = true) {h : HelloMsg} (huid : h.uid = s.chip.uid) :
    ∃ t, exec (.hello k h) s = .next t ∧ portState5 t k = 5 ∧ rd t (fabPortStatusCause k) = 6 ∧ recordedIn 2 5 k 0x0504 s t := by
  refine ⟨_, congrArg Host.Outcome.next ((hello_eq hup h).trans (if_pos huid)), ?_⟩
  obtain ⟨hst, hcause, -, hrec⟩ := isolatePort_spec hk (by decide : 6 < 8) (heardFrom k h s)
  exact ⟨hst, hcause, hrec.of_before rfl (rd_heardFrom (by decide) h s)⟩

/-! ### The captain settles (R235, R239) -/

theorem runAlone_shows (s : State) : rd (runAlone s) fabStateState = 1 ∧ rd (runAlone s) fabIdCaptain = 1 ∧
    rd (runAlone s) fabIdMember = 0 ∧ rd (runAlone s) fabIdMembers = 1 ∧ rd (runAlone s) clkStatusCaptain = 1 ∧
    (runAlone s).fabric.idHeld = true ∧ (runAlone s).fabric.table = none := by
  unfold runAlone
  simp (disch := decide) only [rd_wr_same, rd_wr_ne]
  exact ⟨rfl, rfl, rfl, rfl, rfl, rfl, rfl⟩

theorem rd_realign {f : Fld} (h : fkey f ≠ fkey clkStatusFabAligned) (s : State) : rd (realign s) f = rd s f :=
  rd_wr_ne _ _ _ _ h

theorem rd_ownCaptain {f : Fld} (hf : 0x10000 ≤ f.off) (s : State) : rd (ownCaptain s) f = rd s f := by
  have hne : ∀ g : Fld, g.off < 0x1000 → g.lo < 64 → fkey f ≠ fkey g := fun g hoff hlo => by
    unfold fkey
    omega
  rw [ownCaptain, rd_wr_ne _ _ _ _ (hne _ (by decide) (by decide)), stopSlew, rd_wr_ne _ _ _ _ (hne _ (by decide) (by decide)),
    rd_wr_ne _ _ _ _ (hne _ (by decide) (by decide))]
  exact rd_realign (hne _ (by decide) (by decide)) s

theorem rd_modFab (f : Fabric → Fabric) (s : State) (g : Fld) : rd (modFab f s) g = rd s g := rfl

/-- The registers of a device that has found its captain b. -/
def foundCaptain (b : Nat) (s : State) : State :=
  wr fabStateState 4 (wr fabCaptainUidUid b (wr fabStateHops (min 15 s.fabric.bestHops) s))

theorem captainSettle_spec {s : State} (hstate : rd s fabStateState = 3) (hstable : 64 ≤ s.fabric.stable) :
    ∃ t, exec .captainSettle s = .next t ∧
      (s.fabric.best = none → rd t fabStateState = 1 ∧ rd t fabIdCaptain = 1 ∧ rd t fabIdMember = 0 ∧ rd t fabIdMembers = 1 ∧
        rd t clkStatusCaptain = 1 ∧ t.fabric.idHeld = true ∧ t.fabric.table = none) ∧
      (∀ b, s.fabric.best = some b → rd t fabStateState = 4 ∧ rd t fabCaptainUidUid = b % 2 ^ 64 ∧
        rd t fabIdCaptain = (if b = s.chip.uid then 1 else 0) ∧
        (b = s.chip.uid → ∃ j, t.fabric.joins = [j] ∧ j.uid = s.chip.uid)) := by
  refine ⟨_, congrArg Host.Outcome.next (if_pos ⟨hstate, hstable⟩), ?_⟩
  cases hbest : s.fabric.best with
  | none => exact ⟨fun _ => runAlone_shows s, fun b hb => absurd hb nofun⟩
  | some b =>
    refine ⟨nofun, fun c hc => ?_⟩
    obtain rfl := Option.some.inj hc
    have h4 : rd (foundCaptain b s) fabStateState = 4 := rd_wr_same _ _ _
    have hu : rd (foundCaptain b s) fabCaptainUidUid = b % 2 ^ 64 :=
      (rd_wr_ne _ _ _ _ (by decide)).trans (rd_wr_same _ _ _)
    by_cases hown : b = s.chip.uid
    · simp only []
      rw [if_pos hown, if_pos hown]
      refine ⟨?_, ?_, rd_wr_same fabIdCaptain 1 _, fun _ => ⟨_, rfl, rfl⟩⟩
      · exact (rd_modFab _ _ _).trans <| (rd_wr_ne fabIdCaptain _ _ _ (by decide)).trans ((rd_ownCaptain (by decide) _).trans h4)
      · exact (rd_modFab _ _ _).trans <| (rd_wr_ne fabIdCaptain _ _ _ (by decide)).trans ((rd_ownCaptain (by decide) _).trans hu)
    · simp only []
      rw [if_neg hown, if_neg hown]
      simp only [rd_sendMsg]
      refine ⟨?_, ?_, rd_wr_same _ _ _, fun h => absurd h hown⟩
      · rw [rd_wr_ne _ _ _ _ (by decide), rd_wr_ne _ _ _ _ (by decide), rd_realign (by decide)]
        exact h4
      · rw [rd_wr_ne _ _ _ _ (by decide), rd_wr_ne _ _ _ _ (by decide), rd_realign (by decide)]
        exact hu

/-! ### Reports and tables of the captain (R236, R240 to R243) -/

/-- The reports with r in the place of an earlier one of its device. -/
def joinedBy (r : JoinRec) (s : State) : State :=
  modFab (fun f => { f with joins := f.joins.filter (fun j => j.uid != r.uid) ++ [r] }) s

theorem joinReport_collects {r : JoinRec} {s : State} (hcap : rdB s fabIdCaptain = true)
    (hstate : rd s fabStateState = 4 ∨ rd s fabStateState = 7) : joinReport r s = joinedBy r s :=
  if_pos ⟨hcap, hstate⟩

theorem joinReport_restarts {r : JoinRec} {s : State} (hcap : rdB s fabIdCaptain = true)
    (hstate : rd s fabStateState = 1 ∨ rd s fabStateState = 5 ∨ rd s fabStateState = 6) :
    joinReport r s = recomputeNow (joinedBy r s) := by
  have hset : settled s = true := by
    obtain h | h | h := hstate <;> simp [settled, h]
  exact (if_neg fun h => by omega).trans (if_pos ⟨hcap, hset⟩)

theorem recomputeNow_shows (s : State) : rd (recomputeNow s) fabStateState = 7 ∧ (recomputeNow s).fabric.acked = [] ∧
    (recomputeNow s).fabric.commit = none := ⟨rd_wr_same _ _ _, rfl, rfl⟩

/-- Without a table in force no reported device is left out as unreachable. -/
theorem membersNow_none {s : State} (h : s.fabric.table = none) : membersNow s = [] := by
  unfold membersNow
  rw [h]

/-- The table that the captain d stages for itself. -/
def ownTable (l : List JoinRec) (d : Nat) (s : State) : TablesMsg :=
  { tablesFor (max s.fabric.epoch (rd s fabIdEpoch + 1)) d (assignIds [] l) (idTopo l (assignIds [] l)) d with
    extents := (assignIds [] l).filterMap fun x => (l.find? fun j => j.uid == x.2).map fun j => (x.1, j.extent) }

/-- The captain d has staged its own table and sent the others theirs. -/
def tablesSent (l : List JoinRec) (d : Nat) (s : State) : State :=
  ((assignIds [] l).filter fun x => x.1 != d).foldl (fun a x =>
      sendMsg x.1 (.tables { tablesFor (max s.fabric.epoch (rd s fabIdEpoch + 1)) d (assignIds [] l)
        (idTopo l (assignIds [] l)) x.1 with extents := (ownTable l d s).extents }) a)
    (programPma (ownTable l d s) (modFab (fun f => { f with staged := some (ownTable l d s), acked := [d], commit := none }) s))

theorem routesComputed_eq {l : List JoinRec} {d u : Nat} {s : State} (hcap : rdB s fabIdCaptain = true)
    (hstate : rd s fabStateState = 4) (htable : s.fabric.table = none) (hl : l = withinReach (reports s) s.chip.uid)
    (hfind : (assignIds [] l).find? (fun e => e.2 == s.chip.uid) = some (d, u)) :
    routesComputed s = nameCommit (ownTable l d s) (tablesSent l d s) := by
  have hall : (withinReach (reports s) s.chip.uid).filter (fun j => s.fabric.unreach.all fun d =>
      ((membersNow s).find? fun e => e.1 == d).map (·.2) != some j.uid) = l := by
    rw [membersNow_none htable, hl]
    exact List.filter_eq_self.mpr fun j _ => List.all_eq_true.mpr fun d _ => rfl
  unfold routesComputed
  rw [if_pos ⟨hcap, .inl hstate⟩]
  simp only []
  rw [hall, membersNow_none htable, hfind]
  rfl

theorem tablesSent_fabric (l : List JoinRec) (d : Nat) (s : State) :
    (tablesSent l d s).fabric.staged = some (ownTable l d s) ∧ (tablesSent l d s).fabric.acked = [d] ∧
      (tablesSent l d s).fabric.commit = none ∧ (tablesSent l d s).fabric.epoch = s.fabric.epoch ∧
      (tablesSent l d s).regs = s.regs := by
  have hsent : SentFrom (programPma (ownTable l d s)
      (modFab (fun f => { f with staged := some (ownTable l d s), acked := [d], commit := none }) s)) (tablesSent l d s) :=
    SentFrom.foldl _ _ _ _
  exact ⟨hsent.part (·.fabric.staged) fun _ _ _ => rfl, hsent.part (·.fabric.acked) fun _ _ _ => rfl,
    hsent.part (·.fabric.commit) fun _ _ _ => rfl, hsent.part (·.fabric.epoch) fun _ _ _ => rfl,
    hsent.part State.regs fun _ _ _ => rfl⟩

/-- The state in which the captain has named the commit beat of a staged table. -/
def commitNamed (s : State) : State := freeNext (modFab (fun f => { f with commit := some (commitBeat s) }) s)

theorem nameCommit_waits {t : TablesMsg} {s : State} {e : Nat × Nat} (he : e ∈ t.members) (hnot : e.1 ∉ s.fabric.acked) :
    nameCommit t s = s := by
  unfold nameCommit
  refine if_neg fun hall => hnot ?_
  simpa using List.all_eq_true.mp hall e he

theorem nameCommit_fabric (t : TablesMsg) (s : State) : (nameCommit t s).fabric.staged = s.fabric.staged ∧
    (nameCommit t s).fabric.acked = s.fabric.acked ∧ (nameCommit t s).fabric.epoch = s.fabric.epoch ∧
    ((∀ e ∈ t.members, e.1 ∈ s.fabric.acked) → (nameCommit t s).fabric.commit = some (commitBeat s)) := by
  have hsent : SentFrom (commitNamed s) (((t.members.filter fun e => e.1 != t.devId).foldl
      (fun a e => sendMsg e.1 (.commit t.epoch (commitBeat s)) a) (commitNamed s))) := SentFrom.foldl _ _ _ _
  unfold nameCommit
  split
  · exact ⟨hsent.part (·.fabric.staged) fun _ _ _ => rfl, hsent.part (·.fabric.acked) fun _ _ _ => rfl,
      hsent.part (·.fabric.epoch) fun _ _ _ => rfl, fun _ => hsent.part (·.fabric.commit) fun _ _ _ => rfl⟩
  · next hnot =>
    refine ⟨rfl, rfl, rfl, fun hall => absurd ?_ hnot⟩
    exact List.all_eq_true.mpr fun e he => by simpa using hall e he

theorem commitBeat_ge {s t : State} (h : t.regs = s.regs) : capBeatNow s + 100 ≤ commitBeat t := by
  rw [commitBeat, capBeatNow, capBeatNow, beat_of_regs h, rd_of_regs h]
  omega

theorem routesComputed_spec {l : List JoinRec} {d u : Nat} {s : State} (hcap : rdB s fabIdCaptain = true)
    (hstate : rd s fabStateState = 4) (htable : s.fabric.table = none) (hl : l = withinReach (reports s) s.chip.uid)
    (hfind : (assignIds [] l).find? (fun e => e.2 == s.chip.uid) = some (d, u)) : ∃ t, exec .routeTablesComputed s = .next t ∧
      t.fabric.staged = some { tablesFor (max s.fabric.epoch (rd s fabIdEpoch + 1)) d (assignIds [] l)
          (idTopo l (assignIds [] l)) d with
        extents := (assignIds [] l).filterMap fun x => (l.find? fun j => j.uid == x.2).map fun j => (x.1, j.extent) } ∧
      t.fabric.acked = [d] ∧ ((∃ e ∈ assignIds [] l, e.1 ≠ d) → t.fabric.commit = none) ∧
      ((∀ e ∈ assignIds [] l, e.1 = d) → ∃ b, t.fabric.commit = some b ∧ capBeatNow s + 100 ≤ b) ∧
      t.fabric.epoch = s.fabric.epoch := by
  refine ⟨_, congrArg Host.Outcome.next (routesComputed_eq hcap hstate htable hl hfind), ?_⟩
  obtain ⟨hstaged, hacked, hcommit, hepoch, hregs⟩ := tablesSent_fabric l d s
  obtain ⟨hstaged', hacked', hepoch', hnamed⟩ := nameCommit_fabric (ownTable l d s) (tablesSent l d s)
  rw [hacked] at hnamed
  refine ⟨hstaged'.trans hstaged, hacked'.trans hacked, ?_, fun hall => ⟨_, hnamed ?_, commitBeat_ge hregs⟩, hepoch'.trans hepoch⟩
  · rintro ⟨e, he, hne⟩
    rw [nameCommit_waits (e := e) he (by rw [hacked]; simpa using hne), hcommit]
  · exact fun e he => by simpa using hall e he

/-! ### Loss of the captain and of members (R43, R259, R260) -/

theorem markerLoss_spec {s : State} (hno : 8 ≤ s.time.noMarker) (hmember : rdB s fabIdMember = true)
    (hcap : rdB s fabIdCaptain = false) : ∃ t, exec .markerLoss s = .next t ∧
      rd t fabStateState = 3 ∧ rd t clkStatusFabAligned = 0 ∧ t.fabric.epoch = s.fabric.epoch + 1 ∧ t.time.capKnown = false ∧
      counted fabEventsElections 1 s t := by
  refine ⟨_, congrArg Host.Outcome.next (if_pos ⟨hno, hmember, hcap⟩), startElection_state _ _, ?_, rfl, rfl,
    startElection_counted _ (rd_realign (by decide) _)⟩
  rw [rd_startElection (by decide) (by decide) (by decide)]
  exact rd_wr_same _ _ _

theorem captainUnreachable_spec {s : State} (hno : 8 ≤ s.fabric.noCap) (hmember : rdB s fabIdMember = true) :
    ∃ t, exec .captainUnreachable s = .next t ∧ rd t fabStateState = 3 ∧
      t.fabric.epoch = s.fabric.epoch + 1 ∧ t.fabric.noCap = 0 ∧ counted fabEventsElections 1 s t ∧
      t.fabric.best = (if rdB s fabCtrlCaptainEligible = true then some s.chip.uid else none) :=
  ⟨_, congrArg Host.Outcome.next (if_pos ⟨hno, hmember⟩), startElection_state _ _, rfl, rfl, startElection_counted _ rfl, rfl⟩

/-- A member that no route reaches any more is marked so. -/
def markedUnreachable (d : Nat) (s : State) : State := modFab (fun f => { f with unreach := (d :: f.unreach).eraseDups }) s

theorem recompute_unreach (s : State) : (recompute s).fabric.unreach = s.fabric.unreach := by
  unfold recompute
  repeat' split
  all_goals rfl

theorem recompute_captain {s : State} (hcap : rdB s fabIdCaptain = true) (hmember : rdB s fabIdMember = true) :
    rd (recompute s) fabStateState = 7 := by
  unfold recompute
  rw [if_neg (by simp [hmember]), if_pos hcap]
  exact (recomputeNow_shows s).1

theorem memberUnreachable_spec {d : Nat} {s : State} (hlong : 1000 ≤ tget 0 s.fabric.noRoute d) (hin : d ∈ s.fabric.admitted) :
    ∃ t, exec (.memberUnreachable d) s = .next t ∧ d ∈ t.fabric.unreach ∧
      (rdB s fabIdCaptain = true → rdB s fabIdMember = true → rd t fabStateState = 7) := by
  refine ⟨_, congrArg Host.Outcome.next (if_pos ⟨hlong, List.contains_iff_mem.mpr hin⟩), ?_,
    fun hcap hmember => recompute_captain (s := markedUnreachable d s) hcap hmember⟩
  rw [recompute_unreach]
  exact List.mem_eraseDups.mpr List.mem_cons_self

/-- Settles O41: event by event. -/
theorem discoveryAndElection : Obligations.DiscoveryAndElection := by
  unfold Obligations.DiscoveryAndElection
  refine fun s => ⟨fun k h hk hup huid => hello_own_spec hk hup huid,
    fun k h _ hup huid hcap hepoch => hello_late_spec hup huid hcap hepoch,
    fun k h _ hup huid hcalls hcap => hello_calls_spec hup huid hcalls hcap,
    fun k h hdown => congrArg Host.Outcome.next (if_neg (by simp [hdown])), captainSettle_spec,
    fun h => congrArg Host.Outcome.next (if_neg fun hall => by omega),
    fun r hcap hstate => ⟨_, congrArg Host.Outcome.next (joinReport_collects hcap hstate), rfl, rfl⟩,
    fun r hcap hstate => ⟨_, congrArg Host.Outcome.next (joinReport_restarts hcap hstate), rfl, recomputeNow_shows _⟩,
    fun r hcap => ⟨?_, congrArg Host.Outcome.next (if_neg (by simp [hcap]))⟩,
    fun l d u hcap hstate htable hl hfind => routesComputed_spec hcap hstate htable hl hfind, markerLoss_spec,
    fun h => congrArg Host.Outcome.next (if_neg fun hall => by omega), captainUnreachable_spec,
    fun h => congrArg Host.Outcome.next (if_neg fun hall => by omega), fun d hlong hin => memberUnreachable_spec hlong hin,
    fun d h => congrArg Host.Outcome.next (if_neg fun hall => by omega)⟩
  exact congrArg Host.Outcome.next ((if_neg (by simp [hcap])).trans (if_neg (by simp [hcap])))

end Sys2Proof.Machine
end

section
/-! Sealed shares: a device's part, the boundary at which a share takes effect, and the outcomes (R255, R256). -/
set_option Elab.async false
namespace Sys2Proof.Machine

theorem dropSegsIf_none {mine : ShareSeg → Bool} {s : State} (h : ∀ g ∈ s.fabric.segs, mine g = false) : dropSegsIf mine s = s := by
  have hgone : s.fabric.segs.filter mine = [] := List.filter_eq_nil_iff.mpr fun g hg => by simp [h g hg]
  have hkept : s.fabric.segs.filter (fun g => !mine g) = s.fabric.segs := List.filter_eq_self.mpr fun g hg => by simp [h g hg]
  unfold dropSegsIf
  simp only [hgone, hkept]
  rfl

/-- A part that neither a port nor a register holds is as before when positions are marked. -/
theorem markSeg_part {α : Type} (v : State → α) (hports : ∀ p y, v { y with fabric := { y.fabric with ports := p } } = v y)
    (hregs : ∀ f x y, v (wr f x y) = v y) (g : ShareSeg) (t : Nat) (s : State) :
    v (if g.outP < 6 then showShare g.outP (markPos g t s) else s) = v s := by
  split
  · exact (hregs _ _ _).trans ((hregs _ _ _).trans (hports _ s))
  · rfl

theorem dropSegsIf_part {α : Type} (v : State → α) (hports : ∀ p y, v { y with fabric := { y.fabric with ports := p } } = v y)
    (hregs : ∀ f x y, v (wr f x y) = v y) (mine : ShareSeg → Bool) (s : State) :
    v (dropSegsIf mine s) = v (setFab { s.fabric with segs := s.fabric.segs.filter fun g => !mine g } s) :=
  foldl_fixes v (fun y g => markSeg_part v hports hregs g 0 y) _ _

theorem dropSegs_segs (t a d : Nat) (s : State) : (dropSegs t a d s).fabric.segs = s.fabric.segs.filter fun g =>
    !(g.ten == t && ((g.a == a && g.d == d) || (g.a == d && g.d == a))) :=
  dropSegsIf_part (·.fabric.segs) (fun _ _ => rfl) (fun _ _ _ => rfl) _ s

theorem dropSegs_due (t a d : Nat) (s : State) : (dropSegs t a d s).due = s.due :=
  dropSegsIf_part State.due (fun _ _ => rfl) (fun _ _ _ => rfl) _ s

theorem putSeg_part {α : Type} (v : State → α) (hports : ∀ p y, v { y with fabric := { y.fabric with ports := p } } = v y)
    (hsegs : ∀ l y, v { y with fabric := { y.fabric with segs := l } } = v y)
    (hregs : ∀ f x y, v (wr f x y) = v y) (g : ShareSeg) (s : State) : v (putSeg g s) = v s := by
  unfold putSeg
  refine (markSeg_part v hports hregs g _ _).trans ((hsegs _ _).trans ?_)
  exact (dropSegsIf_part v hports hregs _ s).trans (hsegs _ s)

/-- No segment of g's direction is held. -/
def FreshSeg (s : State) (g : ShareSeg) : Prop := ∀ x ∈ s.fabric.segs, ¬ (x.ten = g.ten ∧ x.a = g.a ∧ x.d = g.d)

theorem FreshSeg.drop {s : State} {g : ShareSeg} (h : FreshSeg s g) :
    dropSegsIf (fun x => x.ten == g.ten && x.a == g.a && x.d == g.d) s = s :=
  dropSegsIf_none fun x hx => by
    have := h x hx
    simp only [Bool.and_eq_false_imp, Bool.and_eq_true, beq_iff_eq, beq_eq_false_iff_ne]
    exact fun h1 h2 => this ⟨h1.1, h1.2, h2⟩

theorem putSeg_fresh {s : State} {g : ShareSeg} (h : FreshSeg s g) (hout : g.outP < 6) : putSeg g s =
    showShare g.outP (markPos g g.ten (setFab { s.fabric with segs := s.fabric.segs ++ [g] } s)) := by
  unfold putSeg
  rw [h.drop]
  exact if_pos hout

theorem putSeg_segs {s : State} {g : ShareSeg} (h : FreshSeg s g) (hout : g.outP < 6) :
    (putSeg g s).fabric.segs = s.fabric.segs ++ [g] := by
  rw [putSeg_fresh h hout]
  rfl

theorem putSeg_due (g : ShareSeg) (s : State) : (putSeg g s).due = s.due :=
  putSeg_part State.due (fun _ _ => rfl) (fun _ _ => rfl) (fun _ _ _ => rfl) g s

theorem tget_foldl_mark (p : Nat → Nat) {t : Nat} {l : List Nat} {h : Table Nat} {x : Nat} (hx : x ∈ l ∨ tget 0 h (p x) = t) :
    tget 0 (l.foldl (fun a q => tset 0 a (p q) t) h) (p x) = t := by
  induction l generalizing h with
  | nil => exact hx.resolve_left nofun
  | cons q l ih =>
    refine ih ?_
    by_cases hq : p x = p q
    · exact .inr (by rw [hq, tget_tset_same])
    · rw [tget_tset_ne _ _ _ _ _ hq]
      obtain hmem | heq := hx
      · obtain rfl | hl := List.mem_cons.mp hmem
        · exact absurd rfl hq
        · exact .inl hl
      · exact .inr heq

theorem putSeg_held {s : State} {g : ShareSeg} (h : FreshSeg s g) (hout : g.outP < 6) {q : Nat} (hq : q ∈ g.pos) :
    tget 0 (fportOf (putSeg g s) g.outP).held (flitPos s g.outP g.wheel q) = g.ten := by
  rw [putSeg_fresh h hout, showShare, fportOf_wr, fportOf_wr, markPos, modPort_fportOf_same]
  exact tget_foldl_mark (fun x => flitPos s g.outP g.wheel x) (.inl hq)

/-- What a device answers to its part of a share that fits. -/
theorem placeRefused_path {s : State} {g : ShareSeg} (hout : g.outP < 6) (hin : g.inP < 6) (hfresh : FreshSeg s g)
    (hfree : ∀ q ∈ g.pos, tget 0 (fportOf s g.outP).held (flitPos s g.outP g.wheel q) = 0)
    (hroom : (fportOf s g.outP).held.length + g.pos.length ≤ 128) : placeRefused s g = 0 := by
  have hend : ¬ (g.outP = 6 ∨ g.inP = 6) := by omega
  unfold placeRefused
  simp only [hfresh.drop]
  rw [if_neg fun h => hend h.1, if_neg fun h => hend h.1, if_neg]
  rintro (h | h | h)
  · simp only [Bool.and_eq_true, List.any_eq_true, bne_iff_ne] at h
    obtain ⟨-, q, hq, hne⟩ := h
    exact hne (hfree q hq)
  · simp only [Bool.and_eq_true, decide_eq_true_eq] at h
    split at h <;> omega
  · exact hend h.1

theorem placeRefused_clash {s : State} {g : ShareSeg} {q : Nat} (hout : g.outP < 6) (hin : g.inP < 6) (hfresh : FreshSeg s g)
    (hq : q ∈ g.pos) (hheld : tget 0 (fportOf s g.outP).held (flitPos s g.outP g.wheel q) ≠ 0) : placeRefused s g = 3 := by
  have hend : ¬ (g.outP = 6 ∨ g.inP = 6) := by omega
  unfold placeRefused
  simp only [hfresh.drop]
  rw [if_neg fun h => hend h.1, if_neg fun h => hend h.1, if_pos]
  refine .inl ?_
  simp only [Bool.and_eq_true, List.any_eq_true, bne_iff_ne, decide_eq_true_eq]
  exact ⟨hout, q, hq, hheld⟩

theorem placeRefused_end {s : State} {g : ShareSeg} (hout : g.outP < 6) (hin : g.inP = 6) (hsealed : isSealed s g.ten = true)
    (hfresh : FreshSeg s g) (hfree : ∀ q ∈ g.pos, tget 0 (fportOf s g.outP).held (flitPos s g.outP g.wheel q) = 0)
    (hroom : (fportOf s g.outP).held.length + g.pos.length ≤ 128) (hfew : (sharesHere s g.ten).length < 8)
    (hways : dirWaysLeft s g.ten = true) : placeRefused s g = 0 := by
  unfold placeRefused
  simp only [hfresh.drop]
  have hothers := List.length_filter_le (fun h => keyOfShare h != shareKey g.ten g.a g.d) (sharesHere s g.ten)
  rw [if_neg (by simp [hsealed]), if_neg fun h => by omega, if_neg]
  rintro (h | h | h)
  · simp only [Bool.and_eq_true, List.any_eq_true, bne_iff_ne] at h
    obtain ⟨-, q, hq, hne⟩ := h
    exact hne (hfree q hq)
  · simp only [Bool.and_eq_true, decide_eq_true_eq] at h
    split at h <;> omega
  · exact absurd (h.2.2.symm.trans hways) (by decide)

theorem isSealed_dropSegsIf (mine : ShareSeg → Bool) (s : State) (t : Nat) : isSealed (dropSegsIf mine s) t = isSealed s t :=
  dropSegsIf_part (fun y => isSealed y t) (fun _ _ => rfl) (fun _ _ _ => rfl) mine s

theorem placeRefused_open {s : State} {g : ShareSeg} (hend : g.outP = 6 ∨ g.inP = 6) (hopen : isSealed s g.ten = false) :
    placeRefused s g = 2 := by
  unfold placeRefused
  exact if_pos ⟨hend, (isSealed_dropSegsIf _ s _).trans hopen⟩

/-- The acknowledgement that a device sends for its part g of a share. -/
def segAck (cap : Nat) (g : ShareSeg) (o : Nat) : Msg := .shareAck g.ten (if g.a = cap then g.d else g.a) o

theorem sharePlace_here {cap o : Nat} {g : ShareSeg} {s : State} (hin : g.inP ≠ 7) (ho : placeRefused s g = o) :
    sharePlace cap g s = sendMsg cap (segAck cap g o) (if o = 0 then putSeg g s else s) := by
  rw [sharePlace, if_neg hin, placeHere, ho]
  rfl

theorem sharePlace_refused {cap o : Nat} {g : ShareSeg} {s : State} (hin : g.inP ≠ 7) (ho : placeRefused s g = o) (hne : o ≠ 0) :
    ∃ t, exec (.sharePlace cap g) s = .next t ∧ t.fabric.segs = s.fabric.segs ∧ samePart .due s t := by
  refine ⟨_, congrArg Host.Outcome.next (sharePlace_here hin ho), ?_⟩
  rw [if_neg hne]
  exact ⟨(SentFrom.sendMsg _ _ s).part (·.fabric.segs) fun _ _ _ => rfl, (SentFrom.sendMsg _ _ s).part State.due fun _ _ _ => rfl⟩

theorem sharePlace_taken {cap : Nat} {g : ShareSeg} {s : State} (hin : g.inP ≠ 7) (hout : g.outP < 6) (hfresh : FreshSeg s g)
    (ho : placeRefused s g = 0) : ∃ t, exec (.sharePlace cap g) s = .next t ∧ t.fabric.segs = s.fabric.segs ++ [g] ∧
      samePart .due s t ∧ ∀ q ∈ g.pos, tget 0 (fportOf t g.outP).held (flitPos s g.outP g.wheel q) = g.ten := by
  refine ⟨_, congrArg Host.Outcome.next (sharePlace_here hin ho), ?_⟩
  rw [if_pos rfl]
  have hsent := SentFrom.sendMsg cap (segAck cap g 0) (putSeg g s)
  refine ⟨(hsent.part (·.fabric.segs) fun _ _ _ => rfl).trans (putSeg_segs hfresh hout),
    (hsent.part State.due fun _ _ _ => rfl).trans (putSeg_due g s), fun q hq => ?_⟩
  have hheld : (fportOf (sendMsg cap (segAck cap g 0) (putSeg g s)) g.outP).held = (fportOf (putSeg g s) g.outP).held :=
    congrArg (·.2.2) (portHeard_sendMsg cap (segAck cap g 0) (putSeg g s) g.outP)
  rw [hheld]
  exact putSeg_held hfresh hout hq

/-! ### The boundary at which a share takes effect (R255) -/

/-- The boundary of this device's numbering at which a share of boundary b of the captain's takes effect. -/
def startAt (b : Nat) (s : State) : Nat := max (beat s + 1) (b + rd s clkFabBeatOffsetOffset)

theorem shareFrom_other {h : Share} {b : Nat} {s : State} (hother : ∀ q ∈ s.fabric.outCmd, keyOfShare q.share ≠ keyOfShare h) :
    shareFrom h b s = addDue (startAt b s) 5 (.shareOn h []) s := by
  unfold shareFrom
  simp only []
  split
  · next q hq => exact if_neg (hother q hq)
  · rfl

theorem shareFrom_own {h : Share} {b : Nat} {q : ShareReq} {s : State} (hq : s.fabric.outCmd = some q)
    (hkey : keyOfShare q.share = keyOfShare h) : shareFrom h b s =
      addDue (startAt b s) 9 (.stage q.mbx q.clamped (shareResult q 0 q.hops (startAt b s) false))
        (modFab (fun f => { f with outCmd := none }) (addDue (startAt b s) 5 (.shareOn h []) s)) := by
  unfold shareFrom
  simp only [hq]
  exact if_pos hkey

theorem sharePlace_start {cap : Nat} {g : ShareSeg} {s : State} (hin : g.inP = 7) (hpos : g.pos ≠ []) (hstart : g.start ≠ 0) :
    sharePlace cap g s = shareFrom (shareOf g) g.start s := by
  rw [sharePlace, if_pos hin, if_neg hpos, if_pos hstart]

theorem sharePlace_drop {cap : Nat} {g : ShareSeg} {s : State} (hin : g.inP = 7) (hpos : g.pos = []) :
    sharePlace cap g s = dropSegs g.ten g.a g.d s := by
  rw [sharePlace, if_pos hin, if_pos hpos]

/-! ### The captain places a share -/

/-- What sending the segments of a share leaves as it was. -/
theorem sendSegs_part {α : Type} (v : State → α)
    (hfab : ∀ p w l n y, v { y with fabric := { y.fabric with ports := p, waiting := w, segs := l }, freeCtr := n } = v y)
    (hregs : ∀ f x y, v (wr f x y) = v y) (segs : List (Nat × ShareSeg)) (s : State) : v (sendSegs segs s) = v s := by
  refine foldl_fixes v (fun y x => ?_) segs s
  split
  · exact putSeg_part v (fun p y => hfab p _ _ _ y) (fun l y => hfab _ _ l _ y) hregs _ y
  · exact (SentFrom.sendMsg _ _ y).part v fun p w n => hfab p w _ n y

theorem placeFor_some {q : ShareReq} {u : List (Nat × Nat × Nat × Nat)} {segs : List (Nat × ShareSeg)} {s : State}
    (h : placeShare s q.share = some (u, segs)) : placeFor q s =
      (sendSegs segs (modFab (fun f => { f with lanesOf := u, book := f.book ++ [q.share] }) s),
        some { q with sealedAt := some true, awaited := (segs.map (·.1)).filter (· != myId s) }) := by
  rw [placeFor, h]

/-- The captain's book with a share placed. -/
theorem sendSegs_booked (u : List (Nat × Nat × Nat × Nat)) (h : Share) (segs : List (Nat × ShareSeg)) (s : State) :
    (sendSegs segs (modFab (fun f => { f with lanesOf := u, book := f.book ++ [h] }) s)).fabric.lanesOf = u ∧
      (sendSegs segs (modFab (fun f => { f with lanesOf := u, book := f.book ++ [h] }) s)).fabric.book = s.fabric.book ++ [h] ∧
      (sendSegs segs (modFab (fun f => { f with lanesOf := u, book := f.book ++ [h] }) s)).fabric.placing = s.fabric.placing :=
  ⟨sendSegs_part (·.fabric.lanesOf) (fun _ _ _ _ _ => rfl) (fun _ _ _ => rfl) _ _,
    sendSegs_part (·.fabric.book) (fun _ _ _ _ _ => rfl) (fun _ _ _ => rfl) _ _,
    sendSegs_part (·.fabric.placing) (fun _ _ _ _ _ => rfl) (fun _ _ _ => rfl) _ _⟩

theorem sharePlace_asked {cap : Nat} {g : ShareSeg} {h : Share} {u : List (Nat × Nat × Nat × Nat)} {segs : List (Nat × ShareSeg)}
    {s : State} (hin : g.inP = 7) (hpos : g.pos ≠ []) (hstart : g.start = 0) (hcap : rdB s fabIdCaptain = true)
    (hh : h = ⟨g.ten, g.a, g.d, g.pos.length, true⟩) (hplace : placeShare s h = some (u, segs)) :
    ∃ t, exec (.sharePlace cap g) s = .next t ∧ t.fabric.lanesOf = u ∧
      t.fabric.book = s.fabric.book ++ [h] ∧ ∃ q, t.fabric.placing = s.fabric.placing ++ [q] ∧ q.share = h := by
  subst hh
  have heq : sharePlace cap g s = placeAsked g s := by
    rw [sharePlace, if_pos hin, if_neg hpos, if_neg (by simp [hstart]), if_pos hcap]
  rw [placeAsked, placeFor_some (q := { mbx := 260, share := shareOf g }) hplace] at heq
  obtain ⟨hlanes, hbook, hplacing⟩ := sendSegs_booked u (shareOf g) segs s
  exact ⟨_, congrArg Host.Outcome.next heq, hlanes, hbook, _, congrArg (· ++ [_]) hplacing, rfl⟩

/-! ### The outcomes (R255) -/

theorem finishShare_spec {q : ShareReq} {o b : Nat} {s y : State} (hout : mbxOf y q.mbx = mbxOf s q.mbx)
    (hseq : rd y (mbxSeqSeq q.mbx) = rd s (mbxSeqSeq q.mbx)) (hbeat : beat y = beat s) :
    (finishShare q o b y).fabric.outCmd = none ∧ (finishShare q o b y).due = y.due ∧
      doneIn s (finishShare q o b y) q.mbx q.clamped (shareResult q o q.hops b false) := by
  refine ⟨?_, ?_, ?_⟩
  · exact stageDone_keeps_part (·.fabric.outCmd) (fun _ _ _ => rfl) (fun _ _ _ => rfl) _ _ _ _
  · exact stageDone_keeps_part State.due (fun _ _ _ => rfl) (fun _ _ _ => rfl) _ _ _ _
  · exact doneIn_stageDone _ _ (congrArg Mbx.copy hout) (congrArg Mbx.taken hout) hseq hbeat

/-- A field of no port's block stands as it did when segments are dropped. -/
theorem rd_dropSegsIf {f : Fld} (hf : f.lo < 64 ∧ (f.off < 0x401000 ∨ 0x407000 ≤ f.off)) (mine : ShareSeg → Bool) (s : State) :
    rd (dropSegsIf mine s) f = rd s f := by
  obtain ⟨hlo, hoff⟩ := hf
  refine foldl_fixes (fun y => rd y f) (fun y g => ?_) _ _
  split
  · next hout =>
    rw [showShare, rd_wr_ne _ _ _ _ (by simp only [fkey, fabPortShareReserved]; omega),
      rd_wr_ne _ _ _ _ (by simp only [fkey, fabPortShareShares]; omega)]
    rfl
  · rfl

theorem rd_freeLanes {f : Fld} (hf : f.lo < 64 ∧ (f.off < 0x401000 ∨ 0x407000 ≤ f.off)) (t a d : Nat) (s : State) :
    rd (freeLanes t a d s) f = rd s f := by
  unfold freeLanes dropLanes
  simp only []
  exact (foldl_fixes (fun y => rd y f) (fun y x => rd_sendMsg _ _ y f) _ _).trans (rd_dropSegsIf hf _ _)

theorem freeLanes_part {α : Type} (v : State → α)
    (hfab : ∀ p w l u k n y,
      v { y with fabric := { y.fabric with ports := p, waiting := w, segs := l, lanesOf := u, book := k }, freeCtr := n } = v y)
    (hregs : ∀ f x y, v (wr f x y) = v y) (t a d : Nat) (s : State) : v (freeLanes t a d s) = v s := by
  unfold freeLanes dropLanes
  simp only []
  refine (foldl_fixes v (fun y x => (SentFrom.sendMsg _ _ y).part v fun p w n => hfab p w _ _ _ n y) _ _).trans ?_
  refine (dropSegsIf_part v (fun p y => hfab p _ _ _ _ _ y) hregs _ _).trans ?_
  exact hfab _ _ _ _ _ _ s

/-- An answer that ends the command's wait. -/
theorem shareAck_last {d o : Nat} {q : ShareReq} {s : State} (hq : s.fabric.outCmd = some q) (hplaced : q.sealedAt = some true)
    (hlast : q.awaited.erase d = []) (ho : o ≠ 1) :
    shareAck d q.share.ten q.share.d o s = ownPlaced (ackShare d o q) s := by
  rw [shareAck, if_neg ho, hq]
  simp only []
  rw [if_pos ⟨trivial, trivial, hplaced⟩, if_pos (by simp [ackShare, hlast])]

theorem shareAck_fails {d o : Nat} {q : ShareReq} {s : State} (hq : s.fabric.outCmd = some q) (hplaced : q.sealedAt = some true)
    (hlast : q.awaited.erase d = []) (hgood : q.outcome = 0) (hfail : o ≠ 0) (ho : o ≠ 1) (hmbx : q.mbx < 260) :
    ∃ t, exec (.shareAck d q.share.ten q.share.d o) s = .next t ∧ t.fabric.outCmd = none ∧ samePart .due s t ∧
      doneIn s t q.mbx q.clamped (shareResult q o q.hops 0 false) := by
  have hout : (ackShare d o q).outcome = o := if_pos hgood
  refine ⟨_, congrArg Host.Outcome.next (shareAck_last hq hplaced hlast ho), ?_⟩
  rw [ownPlaced, hout, if_pos hfail]
  have hseq : (mbxSeqSeq q.mbx).lo < 64 ∧ ((mbxSeqSeq q.mbx).off < 0x401000 ∨ 0x407000 ≤ (mbxSeqSeq q.mbx).off) :=
    ⟨(by decide : (0 : Nat) < 64), .inr (by unfold mbxSeqSeq; simp only []; omega)⟩
  split
  · obtain ⟨hnone, hdue, hdone⟩ := finishShare_spec (q := ackShare d o q) (o := o) (b := 0) (s := s)
      (y := freeLanes q.share.ten q.share.a q.share.d s)
      (freeLanes_part (fun y => mbxOf y q.mbx) (fun _ _ _ _ _ _ _ => rfl) (fun _ _ _ => rfl) _ _ _ s)
      (rd_freeLanes hseq _ _ _ s) (rd_freeLanes ⟨by decide, .inl (by decide)⟩ _ _ _ s)
    exact ⟨hnone, hdue.trans (freeLanes_part State.due (fun _ _ _ _ _ _ _ => rfl) (fun _ _ _ => rfl) _ _ _ s), hdone⟩
  · exact finishShare_spec (q := ackShare d o q) rfl rfl rfl

theorem nameStart_own {h : Share} {q : ShareReq} {s : State} (hq : s.fabric.outCmd = some q) (hkey : keyOfShare q.share = keyOfShare h)
    (ha : h.a = myId s) (hd : h.d ≠ myId s) : ∃ n b, capBeatNow s < n ∧ b = startAt n s ∧ (nameStart h s).fabric.outCmd = none ∧
      (nameStart h s).due = s.due ++ [⟨b, 5, .shareOn h []⟩, ⟨b, 9, .stage q.mbx q.clamped (shareResult q 0 q.hops b false)⟩] := by
  refine ⟨capBeatNow s + 1 + freeVal 4000 s, _, by omega, rfl, ?_⟩
  have hown : shareFrom h (capBeatNow s + 1 + freeVal 4000 s) (freeNext s) = _ := shareFrom_own (s := freeNext s) hq hkey
  unfold nameStart
  simp only [List.foldl_cons, List.foldl_nil]
  rw [if_pos ha, if_neg hd, hown]
  have hsent := SentFrom.sendMsg h.d
    (.sharePlace ⟨h.ten, h.a, h.d, 7, 7, 820, List.range h.k, capBeatNow s + 1 + freeVal 4000 s⟩)
    (addDue (startAt (capBeatNow s + 1 + freeVal 4000 s) (freeNext s)) 9
      (.stage q.mbx q.clamped (shareResult q 0 q.hops (startAt (capBeatNow s + 1 + freeVal 4000 s) (freeNext s)) false))
      (modFab (fun f => { f with outCmd := none })
        (addDue (startAt (capBeatNow s + 1 + freeVal 4000 s) (freeNext s)) 5 (.shareOn h []) (freeNext s))))
  exact ⟨hsent.part (·.fabric.outCmd) fun _ _ _ => rfl,
    (hsent.part State.due fun _ _ _ => rfl).trans (List.append_assoc _ _ _)⟩

theorem shareAck_captain {d : Nat} {q : ShareReq} {s : State} (hq : s.fabric.outCmd = some q) (hplaced : q.sealedAt = some true)
    (hlast : q.awaited.erase d = []) (hgood : q.outcome = 0) (hcap : rdB s fabIdCaptain = true) (ha : q.share.a = myId s)
    (hd : q.share.d ≠ myId s) :
    ∃ t n b, exec (.shareAck d q.share.ten q.share.d 0) s = .next t ∧ t.fabric.outCmd = none ∧ capBeatNow s < n ∧
      b = max (beat s + 1) (n + rd s clkFabBeatOffsetOffset) ∧
      t.due = s.due ++ [⟨b, 5, .shareOn q.share []⟩, ⟨b, 9, .stage q.mbx q.clamped (shareResult q 0 q.hops b false)⟩] := by
  have hout : (ackShare d 0 q).outcome = 0 := if_pos hgood
  obtain ⟨n, b, hn, hb, hnone, hdue⟩ := nameStart_own hq rfl ha hd
  refine ⟨_, n, b, congrArg Host.Outcome.next ((shareAck_last hq hplaced hlast (by decide)).trans ?_), hnone, hn, hb, hdue⟩
  rw [ownPlaced, hout, if_neg (by decide), if_pos hcap]
  rfl

theorem shareAck_member {d : Nat} {q : ShareReq} {s : State} (hq : s.fabric.outCmd = some q) (hplaced : q.sealedAt = some true)
    (hlast : q.awaited.erase d = []) (hgood : q.outcome = 0) (hcap : rdB s fabIdCaptain = false) :
    shareAck d q.share.ten q.share.d 0 s = s := by
  have hout : (ackShare d 0 q).outcome = 0 := if_pos hgood
  rw [shareAck_last hq hplaced hlast (by decide), ownPlaced, hout, if_neg (by decide), if_neg (by simp [hcap])]

theorem shareAck_released {d x : Nat} {h : Share} {s : State} (hcap : rdB s fabIdCaptain = false)
    (hfind : s.fabric.shares.find? (fun h => keyOfShare h == shareKey x d (myId s)) = some h) :
    shareAck d x (myId s) 1 s = addDue (beat s + 1) 5 (.shareOff h) s := by
  rw [shareAck, if_pos rfl, shareReleased]
  simp only [hcap, beq_self_eq_true, Bool.and_true, hfind]
  rfl

theorem shareAck_idle {d x peer : Nat} {s : State} (hnone : s.fabric.outCmd = none) (hplacing : s.fabric.placing = []) :
    shareAck d x peer 0 s = s := by
  rw [shareAck, if_neg (by decide), hnone]
  simp only [shareAckOther, hplacing, List.find?_nil]
  split
  · exact if_neg fun h => absurd h.1 (by decide)
  · rfl

/-- The answer of the other end of the share that a command asks for. -/
theorem sealQuery_answer {q : ShareReq} {s : State} (hq : s.fabric.outCmd = some q) (hasked : q.sealedAt = none) (on : Bool) :
    sealQuery q.share.d q.share.ten true on s =
      if on = false then finishShare q 2 0 s
      else if dirWaysLeft s q.share.ten = false then finishShare q 3 0 s
      else if rdB s fabIdCaptain then
        (match (placeFor q s).2 with
          | some q1 => modFab (fun f => { f with outCmd := some q1 }) (placeFor q s).1
          | none => finishShare q 3 0 (placeFor q s).1)
      else askPlace q.share (modFab (fun f => { f with outCmd := some { q with sealedAt := some true } }) s) := by
  rw [sealQuery, if_neg (by decide), hq]
  simp only []
  rw [if_pos ⟨trivial, trivial, by rw [hasked]; rfl⟩] <;> rfl

theorem sealQuery_placed {q : ShareReq} {u : List (Nat × Nat × Nat × Nat)} {segs : List (Nat × ShareSeg)} {s : State}
    (hq : s.fabric.outCmd = some q) (hasked : q.sealedAt = none) (hcap : rdB s fabIdCaptain = true)
    (hways : dirWaysLeft s q.share.ten = true) (hplace : placeShare s q.share = some (u, segs)) :
    ∃ t, exec (.sealQuery q.share.d q.share.ten true true) s = .next t ∧
      t.fabric.lanesOf = u ∧ t.fabric.book = s.fabric.book ++ [q.share] ∧
      t.fabric.outCmd = some { q with sealedAt := some true, awaited := (segs.map (·.1)).filter (· != myId s) } := by
  have heq := sealQuery_answer hq hasked true
  rw [if_neg (by decide), if_neg (by simp [hways]), if_pos hcap, placeFor_some hplace] at heq
  obtain ⟨hlanes, hbook, -⟩ := sendSegs_booked u q.share segs s
  exact ⟨_, congrArg Host.Outcome.next heq, hlanes, hbook, rfl⟩

theorem sealQuery_asks {q : ShareReq} {s : State} (hq : s.fabric.outCmd = some q) (hasked : q.sealedAt = none)
    (hcap : rdB s fabIdCaptain = false) (hways : dirWaysLeft s q.share.ten = true) :
    ∃ t, exec (.sealQuery q.share.d q.share.ten true true) s = .next t ∧
      t.fabric.outCmd = some { q with sealedAt := some true } ∧ samePart .mbx s t := by
  have heq := sealQuery_answer hq hasked true
  rw [if_neg (by decide), if_neg (by simp [hways]), if_neg (by simp [hcap])] at heq
  have hsent := SentFrom.sendMsg (captainId s)
    (.sharePlace ⟨q.share.ten, q.share.a, q.share.d, 7, 7, 820, List.range q.share.k, 0⟩)
    (modFab (fun f => { f with outCmd := some { q with sealedAt := some true } }) s)
  exact ⟨_, congrArg Host.Outcome.next heq, hsent.part (·.fabric.outCmd) fun _ _ _ => rfl, hsent.part State.mbx fun _ _ _ => rfl⟩

theorem sealQuery_fails {q : ShareReq} {s : State} (hq : s.fabric.outCmd = some q) (hasked : q.sealedAt = none) :
    (dirWaysLeft s q.share.ten = false → ∃ t, exec (.sealQuery q.share.d q.share.ten true true) s = .next t ∧
      t.fabric.outCmd = none ∧ doneIn s t q.mbx q.clamped (shareResult q 3 q.hops 0 false)) ∧
    (∃ t, exec (.sealQuery q.share.d q.share.ten true false) s = .next t ∧
      t.fabric.outCmd = none ∧ doneIn s t q.mbx q.clamped (shareResult q 2 q.hops 0 false)) := by
  refine ⟨fun hways => ⟨_, congrArg Host.Outcome.next ((sealQuery_answer hq hasked true).trans
      ((if_neg (by decide)).trans (if_pos hways))), ?_⟩,
    ⟨_, congrArg Host.Outcome.next ((sealQuery_answer hq hasked false).trans (if_pos rfl)), ?_⟩⟩
  · obtain ⟨hnone, -, hdone⟩ := finishShare_spec (q := q) (o := 3) (b := 0) (s := s) (y := s) rfl rfl rfl
    exact ⟨hnone, hdone⟩
  · obtain ⟨hnone, -, hdone⟩ := finishShare_spec (q := q) (o := 2) (b := 0) (s := s) (y := s) rfl rfl rfl
    exact ⟨hnone, hdone⟩

/-- Settles O43: message by message. -/
theorem sealedShares : Obligations.SealedShares := by
  unfold Obligations.SealedShares
  refine fun s => ⟨fun cap g hout hin hfresh hfree hroom => ?_, fun cap g q hout hin hfresh hq hheld =>
      sharePlace_refused (by omega) (placeRefused_clash hout hin hfresh hq hheld) (by decide),
    fun cap g hout hin hsealed hfresh hfree hroom hfew hways _ => ?_,
    fun cap g b hin hpos hstart hb hother => ?_, fun cap g b q hin hpos hstart hb hq hkey => ?_,
    fun cap g hend hin hopen => sharePlace_refused hin (placeRefused_open hend hopen) (by decide),
    fun cap g hin hpos => ⟨_, congrArg Host.Outcome.next (sharePlace_drop hin hpos), dropSegs_segs _ _ _ s, dropSegs_due _ _ _ s⟩,
    fun cap g h u segs hin hpos hstart hcap hh hplace => sharePlace_asked hin hpos hstart hcap hh hplace,
    fun d x h hcap hfind => congrArg Host.Outcome.next (shareAck_released hcap hfind),
    fun d q hq hplaced hlast hgood hcap ha hd => shareAck_captain hq hplaced hlast hgood hcap ha hd,
    fun d q hq hplaced hlast hgood hcap => congrArg Host.Outcome.next (shareAck_member hq hplaced hlast hgood hcap),
    fun d q o hq hplaced hlast hgood hfail ho hmbx => shareAck_fails hq hplaced hlast hgood hfail ho hmbx,
    fun hnone hplacing d x peer => ⟨congrArg Host.Outcome.next (shareAck_idle hnone hplacing), fun b => ?_⟩,
    fun d x b => rfl, fun q hq hasked _ hways => (sealQuery_fails hq hasked).1 hways,
    fun q hq hasked _ => (sealQuery_fails hq hasked).2,
    fun q u segs hq hasked hcap hways hplace => sealQuery_placed hq hasked hcap hways hplace,
    fun q hq hasked hcap hways => sealQuery_asks hq hasked hcap hways⟩
  · obtain ⟨t, ht, hsegs, hdue, hheld⟩ := sharePlace_taken (cap := cap) (by omega) hout hfresh
      (placeRefused_path hout hin hfresh hfree hroom)
    exact ⟨t, ht, hsegs, hdue, fun _ => hheld⟩
  · obtain ⟨t, ht, hsegs, hdue, -⟩ := sharePlace_taken (cap := cap) (by omega) hout hfresh
      (placeRefused_end hout hin hsealed hfresh hfree hroom hfew hways)
    exact ⟨t, ht, hsegs, hdue⟩
  · subst hb
    exact congrArg Host.Outcome.next ((sharePlace_start hin hpos hstart).trans (shareFrom_other hother))
  · subst hb
    exact ⟨_, congrArg Host.Outcome.next ((sharePlace_start hin hpos hstart).trans (shareFrom_own hq hkey)), rfl,
      List.append_assoc _ _ _⟩
  · show Host.Outcome.next (sealQuery d x true b s) = .next s
    rw [sealQuery, if_neg (by decide), hnone]

end Sys2Proof.Machine
end

section
/-! The links of the SERDES ports: training, lane failures, retraining, link down, and the PERST inputs (R287 to R290, R445). -/
set_option Elab.async false
namespace Sys2Proof.Machine

theorem goodWidth_le (first w failed : Nat) : goodWidth first w failed ≤ w := by
  unfold goodWidth
  cases hfind : ((([1, 2, 4].map fun k => w / k).filter (0 < ·)).find? fun v =>
    (List.range (w / v)).any fun i => (List.range v).all fun j => !inMask failed (first + i * v + j)) with
  | none => exact Nat.zero_le _
  | some v =>
    obtain ⟨k, -, rfl⟩ := List.mem_map.mp (List.mem_filter.mp (List.mem_of_find?_eq_some hfind)).1
    exact Nat.div_le_self _ _

theorem bifPorts_le : ∀ b, ∀ e ∈ bifPorts b, e.2 ≤ 16
  | 0 | 1 | 2 | 3 => by decide
  | _ + 4 => (by decide : ∀ e ∈ bifPorts 4, e.2 ≤ 16)

theorem portWidth_le (s : State) (g n : Nat) : portWidth s g n ≤ 16 := by
  unfold portWidth
  cases hfind : (bifPorts (bifOf s g)).find? fun e => e.1 == n with
  | none => exact Nat.zero_le _
  | some e => exact bifPorts_le _ e (List.mem_of_find?_eq_some hfind)

/-- A width fits its field of PORT_STATUS. -/
theorem widthCap_le (s : State) (g n : Nat) : widthCap s g n ≤ 16 := by
  unfold widthCap
  split
  · exact portWidth_le s g n
  · exact (goodWidth_le _ _ _).trans (portWidth_le s g n)

theorem recContained_groupOf (sl kind unit cause addr : Nat) (detail : List Nat) (s : State) (g : Nat) :
    groupOf (recContained sl kind unit cause addr detail s) g = groupOf s g :=
  congrArg (fun m => tget ({} : Group) m g)
    ((recContained_keeps sl kind unit cause addr detail s (keeps_refl _ s) (Nat.or_self _)).part .groups rfl)

theorem recContained_outs (sl kind unit cause addr : Nat) (detail : List Nat) (s : State) :
    (recContained sl kind unit cause addr detail s).outs = s.outs :=
  (recContained_keeps sl kind unit cause addr detail s (keeps_refl _ s) (Nat.or_self _)).part .outs rfl

theorem recContained_tenants (sl kind unit cause addr : Nat) (detail : List Nat) (s : State) :
    (recContained sl kind unit cause addr detail s).tenants = s.tenants :=
  (recContained_keeps sl kind unit cause addr detail s (keeps_refl _ s) (Nat.or_self _)).part .tenants rfl

/-- The place of a port's registers. -/
theorem portBase_lt {g n : Nat} (hg : g < 8) (hn : n < 4) : portBase g n + 0x418 < 0x100000000 := by
  unfold portBase
  omega

/-- A tenancy's record leaves the platform's log and every register. -/
theorem recTenant_part {α : Type} (v : State → α)
    (hv : ∀ y x m, v { y with ras := { y.ras with tenants := x }, mbx := m } = v y)
    (sl kind unit cause t addr : Nat) (detail : List Nat) (s : State) : v (recTenant sl kind unit cause t addr detail s) = v s :=
  hv s _ _

/-- An AER or DPC event is the platform's record, and records of tenancies beside it. -/
theorem aerEvent_part {α : Type} (v : State → α)
    (hv : ∀ y x m, v { y with ras := { y.ras with tenants := x }, mbx := m } = v y) (g n : Nat) (devs : List Nat) (s : State) :
    v (aerEvent g n devs s) = v (recContained (nextSlice s) 4 (portUnit g n) 0x0403 0 [] s) :=
  foldl_fixes v (fun y _ => recTenant_part v hv _ _ _ _ _ _ _ y) _ _

theorem endRequests_idle {s : State} {g n : Nat} (h : portOuts s g = []) : endRequests g n s = s := by
  unfold endRequests endRoot endHost
  rw [h]
  split
  · rfl
  · split <;> rfl

/-- What a link that goes down leaves in its group. -/
def downGroup (s : State) (g n : Nat) (q : Group) : Group :=
  { q with downs := q.downs ++ [(n, beat s)], began := tset 0 q.began n (beat s),
           dpc := if portRole s g n = 1 then (n :: q.dpc).eraseDups else q.dpc }

/-- The registers of a port that goes down with no request outstanding. -/
def downRegs (g n : Nat) (s : State) : State :=
  bump (portErrLinkDowns (portBase g n)) 1 (wr (portStatusState (portBase g n)) 5 (wr (portStatusWidth (portBase g n)) 0 s))

/-- A link down as its chapter records it, before the event of a root port. -/
def downRecorded (g n : Nat) (s : State) : State :=
  modGroup g (downGroup s g n) (recContained (nextSlice s) 4 (portUnit g n) 0x0402 0 [] (downRegs g n s))

theorem linkDown_idle {s : State} {g n : Nat} (h : portOuts s g = []) : linkDown g n s =
    if portRole s g n = 1 then aerEvent g n (funcsBelow s g n) (downRecorded g n s) else downRecorded g n s := by
  unfold linkDown
  rw [endRequests_idle h]
  rfl

section
variable {g n : Nat} (s : State)

theorem downRegs_ras : (downRegs g n s).ras = s.ras := rfl

theorem portState_downRegs : portState (downRegs g n s) g n = 5 := by
  unfold portState downRegs
  rw [rd_bump_ne _ _ _ _ (by simp only [fkey, portStatusState, portErrLinkDowns]; omega), rd_wr_same]
  rfl

theorem width_downRegs : rd (downRegs g n s) (portStatusWidth (portBase g n)) = 0 := by
  unfold downRegs
  rw [rd_bump_ne _ _ _ _ (by simp only [fkey, portStatusWidth, portErrLinkDowns]; omega),
    rd_wr_ne _ _ _ _ (by simp only [fkey, portStatusWidth, portStatusState]; omega), rd_wr_same]
  rfl

theorem counted_downRegs : counted (portErrLinkDowns (portBase g n)) 1 s (downRegs g n s) := by
  unfold counted downRegs
  rw [rd_bump_same, rd_wr_ne _ _ _ _ (by simp only [fkey, portErrLinkDowns, portStatusState]; omega),
    rd_wr_ne _ _ _ _ (by simp only [fkey, portErrLinkDowns, portStatusWidth]; omega)]

theorem beat_downRegs (hg : g < 8) (hn : n < 4) : beat (downRegs g n s) = beat s := by
  unfold beat downRegs
  rw [rd_bump_ne _ _ _ _ (by simp only [fkey, clkBeatBeat, portErrLinkDowns, portBase]; omega),
    rd_wr_ne _ _ _ _ (by simp only [fkey, clkBeatBeat, portStatusState, portBase]; omega),
    rd_wr_ne _ _ _ _ (by simp only [fkey, clkBeatBeat, portStatusWidth, portBase]; omega)]

theorem downRecorded_recordedIn (hg : g < 8) (hn : n < 4) : recordedIn 2 4 (portUnit g n) 0x0402 s (downRecorded g n s) :=
  (recContained_recordedIn _ _ _ _ _ _ (congrArg (fun r : Ras => r.platform.next) (downRegs_ras s)) (beat_downRegs s hg hn)).of_ras
    (setGroup_ras _ _ _)

/-- A register field of the port shows what the link down wrote. -/
theorem rd_downRecorded {f : Fld} (hlo : f.lo < 64) (hoff : f.off < 0x100000000) :
    rd (downRecorded g n s) f = rd (downRegs g n s) f :=
  (rd_of_regs (setGroup_regs _ _ _) f).trans (rd_recContained hlo hoff _ _ _ _ _ _ _)

theorem groupOf_downRecorded : groupOf (downRecorded g n s) g = downGroup s g n (groupOf s g) := by
  unfold downRecorded modGroup
  rw [setGroup_groupOf_same, recContained_groupOf, downRegs, bump, wr_groupOf, wr_groupOf, wr_groupOf]

theorem outs_downRecorded : (downRecorded g n s).outs = s.outs :=
  (setGroup_outs _ _ _).trans (recContained_outs _ _ _ _ _ _ (downRegs g n s))

/-- The event of a root port leaves what the link down wrote. -/
theorem linkDown_part {α : Type} (v : State → α)
    (hv : ∀ y x m, v { y with ras := { y.ras with tenants := x }, mbx := m } = v y)
    (hrec : ∀ sl kind unit cause addr detail y, v (recContained sl kind unit cause addr detail y) = v y)
    (h : portOuts s g = []) : v (linkDown g n s) = v (downRecorded g n s) := by
  rw [linkDown_idle h]
  split
  · exact (aerEvent_part v hv _ _ _ _).trans (hrec _ _ _ _ _ _ _)
  · rfl

theorem rd_linkDown {f : Fld} (hlo : f.lo < 64) (hoff : f.off < 0x100000000) (h : portOuts s g = []) :
    rd (linkDown g n s) f = rd (downRegs g n s) f :=
  (linkDown_part s (fun y => rd y f) (fun _ _ _ => rfl) (fun _ _ _ _ _ _ _ => rd_recContained hlo hoff _ _ _ _ _ _ _) h).trans
    (rd_downRecorded s hlo hoff)

theorem groupOf_linkDown (h : portOuts s g = []) : groupOf (linkDown g n s) g = downGroup s g n (groupOf s g) :=
  (linkDown_part s (groupOf · g) (fun _ _ _ => rfl) (fun _ _ _ _ _ _ y => recContained_groupOf _ _ _ _ _ _ y g) h).trans
    (groupOf_downRecorded s)

theorem next_linkDown_root (hrole : portRole s g n = 1) (h : portOuts s g = []) :
    (linkDown g n s).ras.platform.next = s.ras.platform.next + 2 := by
  rw [linkDown_idle h, if_pos hrole, aerEvent_part (·.ras.platform.next) (fun _ _ _ => rfl), platform_next_recContained]
  have hdown : (downRecorded g n s).ras.platform.next = s.ras.platform.next + 1 := by
    rw [downRecorded, modGroup, setGroup_ras, platform_next_recContained, downRegs_ras]
  rw [hdown]

/-- A link goes down with no request outstanding (R288). -/
theorem linkDown_spec (hg : g < 8) (hn : n < 4) (h : portOuts s g = []) :
    portState (linkDown g n s) g n = 5 ∧ rd (linkDown g n s) (portStatusWidth (portBase g n)) = 0 ∧
      counted (portErrLinkDowns (portBase g n)) 1 s (linkDown g n s) ∧
      (groupOf (linkDown g n s) g).downs = (groupOf s g).downs ++ [(n, beat s)] ∧ samePart .outs s (linkDown g n s) ∧
      (portRole s g n ≠ 1 → recordedIn 2 4 (portUnit g n) 0x0402 s (linkDown g n s)) ∧
      (portRole s g n = 1 → n ∈ (groupOf (linkDown g n s) g).dpc ∧
        (linkDown g n s).ras.platform.next = s.ras.platform.next + 2) := by
  have hb := portBase_lt hg hn
  have hgroup := groupOf_linkDown (n := n) s h
  refine ⟨?_, ?_, ?_, ?_, ?_, fun hrole => ?_, fun hrole => ⟨?_, next_linkDown_root s hrole h⟩⟩
  · exact (rd_linkDown s (by decide : 4 < 64) (by simp only [portStatusState]; omega) h).trans (portState_downRegs s)
  · exact (rd_linkDown s (by decide : 8 < 64) (by simp only [portStatusWidth]; omega) h).trans (width_downRegs s)
  · exact (rd_linkDown s (by decide : 8 < 64) (by simp only [portErrLinkDowns]; omega) h).trans (counted_downRegs s)
  · rw [hgroup]
    rfl
  · exact (linkDown_part s (·.outs) (fun _ _ _ => rfl) recContained_outs h).trans (outs_downRecorded s)
  · rw [linkDown_idle h, if_neg hrole]
    exact downRecorded_recordedIn s hg hn
  · rw [hgroup]
    unfold downGroup
    simp [hrole]

/-- What failed lanes leave for the retraining. -/
def failedGroup (s : State) (g n : Nat) (lanes : List Nat) (q : Group) : Group :=
  { q with began := tset 0 q.began n (beat s),
           widths := tset 0 q.widths n (goodWidth (4 * n) (portWidth s g n) (rd s (portLanesFailed (portBase g n)) ||| maskOf lanes)) }

/-- The registers of a port some lanes of which fail. -/
def failedRegs (g n : Nat) (lanes : List Nat) (s : State) : State :=
  wr (portStatusState (portBase g n)) 4
    (wr (portLanesFailed (portBase g n)) (rd s (portLanesFailed (portBase g n)) ||| maskOf lanes)
      (bump (portErrLaneFailures (portBase g n)) lanes.length (modGroup g (failedGroup s g n lanes) s)))

theorem laneFailure_eq {lanes : List Nat} (h : portState s g n = 3) : laneFailure g n lanes s =
    recContained (nextSlice s) 4 (portUnit g n) 0x0401 0 [] (failedRegs g n lanes s) :=
  if_pos h

/-- Lanes of a port that is up fail: it retrains (R287). -/
theorem laneFailure_spec (hg : g < 8) (hn : n < 4) (lanes : List Nat) (h : portState s g n = 3) :
    portState (laneFailure g n lanes s) g n = 4 ∧
      rd (laneFailure g n lanes s) (portLanesFailed (portBase g n)) =
        (rd s (portLanesFailed (portBase g n)) ||| maskOf lanes) % 2 ^ 16 ∧
      counted (portErrLaneFailures (portBase g n)) lanes.length s (laneFailure g n lanes s) ∧
      recordedIn 2 4 (portUnit g n) 0x0401 s (laneFailure g n lanes s) ∧
      samePart .tenants s (laneFailure g n lanes s) ∧ samePart .outs s (laneFailure g n lanes s) := by
  have hb := portBase_lt hg hn
  rw [laneFailure_eq s h]
  refine ⟨?_, ?_, ?_, recContained_recordedIn _ _ _ _ _ _ rfl ?_, recContained_tenants _ _ _ _ _ _ (failedRegs g n lanes s),
    recContained_outs _ _ _ _ _ _ (failedRegs g n lanes s)⟩
  · refine (rd_recContained (by decide : 4 < 64) (by simp only [portStatusState]; omega) _ _ _ _ _ _ _).trans ?_
    exact rd_wr_same _ _ _
  · refine (rd_recContained (by decide : 0 < 64) (by simp only [portLanesFailed]; omega) _ _ _ _ _ _ _).trans ?_
    unfold failedRegs
    rw [rd_wr_ne _ _ _ _ (by simp only [fkey, portStatusState, portLanesFailed]; omega), rd_wr_same]
    rfl
  · refine (rd_recContained (by decide : 0 < 64) (by simp only [portErrLaneFailures]; omega) _ _ _ _ _ _ _).trans ?_
    unfold failedRegs
    rw [rd_wr_ne _ _ _ _ (by simp only [fkey, portStatusState, portErrLaneFailures]; omega),
      rd_wr_ne _ _ _ _ (by simp only [fkey, portLanesFailed, portErrLaneFailures]; omega), rd_bump_same]
    rfl
  · unfold beat failedRegs
    rw [rd_wr_ne _ _ _ _ (by simp only [fkey, clkBeatBeat, portStatusState, portBase]; omega),
      rd_wr_ne _ _ _ _ (by simp only [fkey, clkBeatBeat, portLanesFailed, portBase]; omega),
      rd_bump_ne _ _ _ _ (by simp only [fkey, clkBeatBeat, portErrLaneFailures, portBase]; omega)]
    rfl

/-- A retraining that ends in time brings the port up at its lower width (R287). -/
theorem retrainDone_spec (h : portState s g n = 4) (hbeat : beat s ≤ tget 0 (groupOf s g).began n + 20)
    (hwidth : tget 0 (groupOf s g).widths n ≠ 0) :
    portState (retrainDone g n s) g n = 3 ∧ rd (retrainDone g n s) (portStatusDegraded (portBase g n)) = 1 ∧
      counted (portErrReplays (portBase g n)) 1 s (retrainDone g n s) ∧
      rd (retrainDone g n s) (portStatusWidth (portBase g n)) = tget 0 (groupOf s g).widths n % 32 ∧
      otherFields [portStatusState (portBase g n), portStatusDegraded (portBase g n), portStatusWidth (portBase g n),
        portErrReplays (portBase g n)] s (retrainDone g n s) := by
  have hdone : retrainDone g n s = wr (portStatusState (portBase g n)) 3 (wr (portStatusDegraded (portBase g n)) 1
      (wr (portStatusWidth (portBase g n)) (tget 0 (groupOf s g).widths n) (bump (portErrReplays (portBase g n)) 1 s))) :=
    if_pos ⟨h, hbeat, hwidth⟩
  rw [hdone]
  have hsame := otherFields_refl [portStatusState (portBase g n), portStatusDegraded (portBase g n), portStatusWidth (portBase g n),
    portErrReplays (portBase g n)] s
  refine ⟨rd_wr_same _ _ _, ?_, ?_, ?_, (((hsame.bump ?_ _).wr ?_ _).wr ?_ _).wr ?_ _⟩
  · rw [rd_wr_ne _ _ _ _ (by simp only [fkey, portStatusState, portStatusDegraded]; omega), rd_wr_same]
    rfl
  · unfold counted
    rw [rd_wr_ne _ _ _ _ (by simp only [fkey, portStatusState, portErrReplays]; omega),
      rd_wr_ne _ _ _ _ (by simp only [fkey, portStatusDegraded, portErrReplays]; omega),
      rd_wr_ne _ _ _ _ (by simp only [fkey, portStatusWidth, portErrReplays]; omega), rd_bump_same]
  · rw [rd_wr_ne _ _ _ _ (by simp only [fkey, portStatusState, portStatusWidth]; omega),
      rd_wr_ne _ _ _ _ (by simp only [fkey, portStatusDegraded, portStatusWidth]; omega), rd_wr_same]
    rfl
  all_goals simp

end

/-- What a link that comes up leaves in its group. -/
def upGroup (s : State) (g n : Nat) (funcs : List FuncInfo) (q : Group) : Group :=
  { q with bar2 := if isEndpoint s g then q.bar2Set else q.bar2, fresh := q.fresh.filter (· != n),
           presence := if portRole s g n = 1 then (n :: q.presence).eraseDups else q.presence,
           config := q.config.filter fun e => !((q.funcs.filter (fun f => f.port == n) ++ funcs).any fun f => f.dev == e.1 / 4096),
           funcs := q.funcs.filter (fun f => f.port != n) ++ (funcs.map fun f => { f with port := n }) }

/-- A port that port.config or a reset left fresh starts without failed lanes (R287). -/
def upLanes (g n : Nat) (fresh : Bool) (s : State) : State :=
  if fresh then wr (portStatusDegraded (portBase g n)) 0 (wr (portLanesFailed (portBase g n)) 0 s) else s

theorem linkUp_eq {s : State} {g n : Nat} (width speed : Nat) (flit : Bool) (funcs : List FuncInfo) (h : portState s g n = 2)
    (hcap : widthCap s g n ≠ 0) : linkUp g n width speed flit funcs s =
      wr (portStatusState (portBase g n)) 3 (wr (portStatusWidth (portBase g n)) (min width (widthCap s g n))
        (wr (portStatusSpeed (portBase g n)) (min 6 speed) (wrB (portStatusFlit (portBase g n)) flit
          (upLanes g n ((groupOf s g).fresh.contains n) (modGroup g (upGroup s g n funcs) s))))) :=
  if_pos ⟨h, hcap⟩

theorem upLanes_groupOf (g n : Nat) (b : Bool) (s : State) : groupOf (upLanes g n b s) g = groupOf s g := by
  cases b <;> rfl

theorem rd_upLanes_ne {f : Fld} (g n : Nat) (b : Bool) (s : State) (hd : fkey f ≠ fkey (portStatusDegraded (portBase g n)))
    (hl : fkey f ≠ fkey (portLanesFailed (portBase g n))) : rd (upLanes g n b s) f = rd s f := by
  cases b
  · rfl
  · exact (rd_wr_ne _ _ _ _ hd).trans (rd_wr_ne _ _ _ _ hl)

theorem rd_upLanes_fresh (g n : Nat) (s : State) : rd (upLanes g n true s) (portStatusDegraded (portBase g n)) = 0 ∧
    rd (upLanes g n true s) (portLanesFailed (portBase g n)) = 0 := by
  refine ⟨rd_wr_same _ _ _, ?_⟩
  exact (rd_wr_ne _ _ _ _ (by simp only [fkey, portLanesFailed, portStatusDegraded]; omega)).trans (rd_wr_same _ _ _)

section
variable {s : State} {g n : Nat} (width speed : Nat) (flit : Bool) (funcs : List FuncInfo) (h : portState s g n = 2)
  (hcap : widthCap s g n ≠ 0)
include h hcap

theorem groupOf_linkUp : groupOf (linkUp g n width speed flit funcs s) g = upGroup s g n funcs (groupOf s g) := by
  rw [linkUp_eq width speed flit funcs h hcap, wr_groupOf, wr_groupOf, wr_groupOf, wrB, wr_groupOf, upLanes_groupOf, modGroup,
    setGroup_groupOf_same]

/-- A field that the link's coming up does not write, the lanes' apart. -/
theorem rd_linkUp_ne {f : Fld} (hstate : fkey f ≠ fkey (portStatusState (portBase g n)))
    (hwidth : fkey f ≠ fkey (portStatusWidth (portBase g n))) (hspeed : fkey f ≠ fkey (portStatusSpeed (portBase g n)))
    (hflit : fkey f ≠ fkey (portStatusFlit (portBase g n))) : rd (linkUp g n width speed flit funcs s) f =
      rd (upLanes g n ((groupOf s g).fresh.contains n) (modGroup g (upGroup s g n funcs) s)) f := by
  rw [linkUp_eq width speed flit funcs h hcap, rd_wr_ne _ _ _ _ hstate, rd_wr_ne _ _ _ _ hwidth, rd_wr_ne _ _ _ _ hspeed, wrB,
    rd_wr_ne _ _ _ _ hflit]

theorem status_linkUp : portState (linkUp g n width speed flit funcs s) g n = 3 ∧
    rd (linkUp g n width speed flit funcs s) (portStatusWidth (portBase g n)) = min width (widthCap s g n) ∧
    rd (linkUp g n width speed flit funcs s) (portStatusSpeed (portBase g n)) = min 6 speed ∧
    rd (linkUp g n width speed flit funcs s) (portStatusFlit (portBase g n)) = flit.toNat := by
  have hw := widthCap_le s g n
  rw [linkUp_eq width speed flit funcs h hcap]
  refine ⟨rd_wr_same _ _ _, ?_, ?_, ?_⟩
  · rw [rd_wr_ne _ _ _ _ (by simp only [fkey, portStatusWidth, portStatusState]; omega), rd_wr_same]
    exact Nat.mod_eq_of_lt (by simp only [portStatusWidth]; omega)
  · rw [rd_wr_ne _ _ _ _ (by simp only [fkey, portStatusSpeed, portStatusState]; omega),
      rd_wr_ne _ _ _ _ (by simp only [fkey, portStatusSpeed, portStatusWidth]; omega), rd_wr_same]
    exact Nat.mod_eq_of_lt (by simp only [portStatusSpeed]; omega)
  · rw [rd_wr_ne _ _ _ _ (by simp only [fkey, portStatusFlit, portStatusState]; omega),
      rd_wr_ne _ _ _ _ (by simp only [fkey, portStatusFlit, portStatusWidth]; omega),
      rd_wr_ne _ _ _ _ (by simp only [fkey, portStatusFlit, portStatusSpeed]; omega), wrB, rd_wr_same]
    cases flit <;> rfl

theorem lanes_linkUp :
    rd (linkUp g n width speed flit funcs s) (portStatusDegraded (portBase g n)) =
        rd (upLanes g n ((groupOf s g).fresh.contains n) (modGroup g (upGroup s g n funcs) s)) (portStatusDegraded (portBase g n)) ∧
      rd (linkUp g n width speed flit funcs s) (portLanesFailed (portBase g n)) =
        rd (upLanes g n ((groupOf s g).fresh.contains n) (modGroup g (upGroup s g n funcs) s)) (portLanesFailed (portBase g n)) := by
  constructor <;> apply rd_linkUp_ne width speed flit funcs h hcap <;>
    simp only [fkey, portStatusDegraded, portLanesFailed, portStatusState, portStatusWidth, portStatusSpeed, portStatusFlit] <;> omega

/-- A training port's link comes up (R287, R290). -/
theorem linkUp_spec : portState (linkUp g n width speed flit funcs s) g n = 3 ∧
    rd (linkUp g n width speed flit funcs s) (portStatusWidth (portBase g n)) = min width (widthCap s g n) ∧
    rd (linkUp g n width speed flit funcs s) (portStatusSpeed (portBase g n)) = min 6 speed ∧
    rd (linkUp g n width speed flit funcs s) (portStatusFlit (portBase g n)) = flit.toNat ∧
    (n ∈ (groupOf s g).fresh → rd (linkUp g n width speed flit funcs s) (portStatusDegraded (portBase g n)) = 0 ∧
      rd (linkUp g n width speed flit funcs s) (portLanesFailed (portBase g n)) = 0) ∧
    (n ∉ (groupOf s g).fresh → rd (linkUp g n width speed flit funcs s) (portStatusDegraded (portBase g n)) =
        rd s (portStatusDegraded (portBase g n)) ∧
      rd (linkUp g n width speed flit funcs s) (portLanesFailed (portBase g n)) = rd s (portLanesFailed (portBase g n))) ∧
    n ∉ (groupOf (linkUp g n width speed flit funcs s) g).fresh ∧
    (portRole s g n = 1 → n ∈ (groupOf (linkUp g n width speed flit funcs s) g).presence) ∧
    (groupOf (linkUp g n width speed flit funcs s) g).funcs =
      (groupOf s g).funcs.filter (fun f => f.port != n) ++ (funcs.map fun f => { f with port := n }) ∧
    portRole (linkUp g n width speed flit funcs s) g n = portRole s g n := by
  obtain ⟨hstate, hwidth, hspeed, hflit⟩ := status_linkUp width speed flit funcs h hcap
  obtain ⟨hdeg, hlanes⟩ := lanes_linkUp width speed flit funcs h hcap
  have hgroup := groupOf_linkUp width speed flit funcs h hcap
  refine ⟨hstate, hwidth, hspeed, hflit, fun hfresh => ?_, fun hfresh => ?_, ?_, fun hrole => ?_, ?_, ?_⟩
  · rw [hdeg, hlanes, List.contains_iff_mem.mpr hfresh]
    exact rd_upLanes_fresh g n _
  · have hno : (groupOf s g).fresh.contains n = false := by simpa using hfresh
    rw [hdeg, hlanes, hno]
    exact ⟨rfl, rfl⟩
  · rw [hgroup]
    simp [upGroup]
  · rw [hgroup]
    simp [upGroup, hrole]
  · rw [hgroup]
    rfl
  · unfold portRole
    rw [rd_linkUp_ne width speed flit funcs h hcap, rd_upLanes_ne]
    · rfl
    all_goals simp only [fkey, portStatusRole, portStatusDegraded, portLanesFailed, portStatusState, portStatusWidth, portStatusSpeed, portStatusFlit]; omega

end

/-- Training begins again (R290). -/
theorem trainRetry_spec {s : State} {g n : Nat} (hstate : portState s g n = 2 ∨ (portState s g n = 5 ∧ portRole s g n ≠ 1))
    (hbeat : tget 0 (groupOf s g).began n + 100000 ≤ beat s) :
    portState (trainRetry g n s) g n = 2 ∧ tget 0 (groupOf (trainRetry g n s) g).began n = beat s ∧
      otherFields [portStatusState (portBase g n)] s (trainRetry g n s) := by
  have hretry : trainRetry g n s = wr (portStatusState (portBase g n)) 2
      (modGroup g (fun q => { q with began := tset 0 q.began n (beat s) }) s) := if_pos ⟨hbeat, hstate⟩
  rw [hretry]
  refine ⟨rd_wr_same _ _ _, ?_, ((otherFields_refl _ s).of_regs (setGroup_regs _ _ _)).wr (by simp) _⟩
  rw [wr_groupOf, modGroup, setGroup_groupOf_same, tget_tset_same]

theorem trainRetry_idle {s : State} {g n : Nat}
    (h : beat s < tget 0 (groupOf s g).began n + 100000 ∨ (portState s g n = 5 ∧ portRole s g n = 1)) : trainRetry g n s = s :=
  if_neg fun ⟨hbeat, hstate⟩ => by
    rcases h with h | ⟨h5, hrole⟩
    · omega
    · rcases hstate with h2 | ⟨-, hno⟩
      · omega
      · exact hno hrole

/-- Settles O47: each event of a port is one step of Table 10.8. -/
theorem serdesLinksTrainAndFail : Obligations.SerdesLinksTrainAndFail := by
  unfold Obligations.SerdesLinksTrainAndFail
  intro s g n hg hn
  refine ⟨fun width speed flit funcs h hcap => ⟨_, rfl, linkUp_spec width speed flit funcs h hcap⟩,
    fun width speed flit funcs h => congrArg Host.Outcome.next (if_neg fun hc => ?_),
    fun lanes h => ⟨_, rfl, laneFailure_spec s hg hn lanes h⟩,
    fun _ hwidth => congrArg Host.Outcome.next (if_neg fun hc => hc.2.2 hwidth),
    fun h hbeat hwidth => ⟨_, rfl, retrainDone_spec s h hbeat hwidth⟩,
    fun h => ⟨congrArg Host.Outcome.next (if_neg fun hc => h hc.1), congrArg Host.Outcome.next (if_neg fun hc => h hc.1)⟩,
    fun h => congrArg Host.Outcome.next (if_neg h), fun i hidle hi => ⟨linkDown g n s, ?_, linkDown_spec s hg hn hidle⟩,
    fun hstate hbeat => ⟨_, rfl, trainRetry_spec hstate hbeat⟩, fun h => congrArg Host.Outcome.next (trainRetry_idle h),
    fun low hrole => ⟨_, congrArg Host.Outcome.next (if_pos hrole), ?_, fun k hk => ?_, fun p hp => ?_⟩,
    fun low h2 h4 => congrArg Host.Outcome.next (if_neg fun hc => hc.elim h2 h4)⟩
  · exact h.elim (fun h => h hc.1) (fun h => hc.2 h)
  · rcases hi with ⟨rfl, h3⟩ | ⟨rfl, h4, hbeat⟩
    · exact congrArg Host.Outcome.next (if_pos h3)
    · exact congrArg Host.Outcome.next (if_pos ⟨h4, hbeat⟩)
  · cases low <;> simp
  · cases low <;> simp [hk]
  · cases p
    case chip => exact absurd rfl hp
    all_goals rfl

end Sys2Proof.Machine
end

section
/-! Commands of the SERDES ports: their results and the steps they leave (R273, R275, R279 to R281, R291, R293). -/
set_option Elab.async false
namespace Sys2Proof.Machine

theorem groups_stageDone (i cl : Nat) (data : Bytes) (s : State) : (stageDone i cl data s).groups = s.groups :=
  stageDone_keeps_part State.groups setMbx_groups wr_groups i cl data s

theorem journal_stageDone (i cl : Nat) (data : Bytes) (s : State) : (stageDone i cl data s).journal = s.journal :=
  stageDone_keeps_part State.journal setMbx_journal wr_journal i cl data s

theorem mem_stageDone (i cl : Nat) (data : Bytes) (s : State) : (stageDone i cl data s).mem = s.mem :=
  stageDone_keeps_part State.mem setMbx_mem wr_mem i cl data s

/-! ### port.config -/

/-- The roles of a bifurcation's ports that port.config asks for. -/
def confRoles (c : Bytes) (code : Nat) : List Nat :=
  (List.range 4).map fun n => if inBif code n then clampEnum 5 0 (arg c (2 + n) 1) else 0

section
variable (s : State) (i : Nat) (c : Bytes) {g code : Nat} (hg : clampGroup s (arg c 0 1) = g)
  (hcode : clampEnum 5 (bifOf s g) (arg c 1 1) = code)
include hg hcode

theorem portConfig_refused (h : configOutcome s g code (confRoles c code) ≠ 0) : ∃ cl, portConfig i c (started i s) =
    stageDone i cl (confResult g code (confRoles c code) (configOutcome s g code (confRoles c code)) 0) (started i s) := by
  subst hg hcode
  exact ⟨_, if_pos h⟩

theorem portConfig_switches (h : configOutcome s g code (confRoles c code) = 0)
    (hon : (confRoles c code).any (· != 0) ∧ serdesOn s g = false) : ∃ cl, portConfig i c (started i s) =
    addStep i (beat s + 2) (.portConf i cl g code (confRoles c code)) (addDue (beat s + 1) 4 (.switch (160 + g) true) (started i s)) := by
  subst hg hcode
  exact ⟨_, (if_neg (not_not_intro h)).trans (if_pos hon)⟩

theorem portConfig_waits (h : configOutcome s g code (confRoles c code) = 0)
    (hon : ¬ ((confRoles c code).any (· != 0) ∧ serdesOn s g = false)) : ∃ cl, portConfig i c (started i s) =
    addStep i (beat s + 1) (.portConf i cl g code (confRoles c code)) (started i s) := by
  subst hg hcode
  exact ⟨_, (if_neg (not_not_intro h)).trans (if_neg hon)⟩

end

theorem offWhenDisabled_regs (g : Nat) (s : State) : (offWhenDisabled g s).regs = s.regs := by
  unfold offWhenDisabled
  split <;> rfl

/-- A refused configuration moves no port. -/
theorem portState_applyConf_refused {s : State} {i : Nat} (hi : i < 260) {cl g code : Nat} {roles : List Nat} (n : Nat)
    (h : configOutcome s g code roles ≠ 0) : portState (applyConf i cl g code roles s) g n = portState s g n := by
  have hconf : applyConf i cl g code roles s =
      offWhenDisabled g (stageDone i cl (confResult g code roles (configOutcome s g code roles) 0) s) := if_pos h
  rw [hconf, portState, rd_of_regs (offWhenDisabled_regs _ _)]
  exact rd_stageDone_ne (by simp only [fkey, portStatusState, portBase, mbxCountClamps]; omega) _ _ _

/-! ### port.assign on one function -/

/-- The result of port.assign. -/
def assignResult (g act dev n o t b : Nat) : Bytes :=
  mkBytes [(0, 1, g), (1, 1, act), (2, 2, dev), (4, 1, n), (5, 1, o), (6, 2, t), (8, 8, b)]

/-- The tenancy that a mailbox may assign to. -/
def assignTo (i : Nat) (c : Bytes) : Nat := if 1 ≤ i ∧ i ≤ 256 then i else min 256 (arg c 6 2)

theorem clampR_pos (v : Nat) : 1 ≤ clampR 1 8 v := by
  unfold clampR
  split
  · exact Nat.le_refl _
  · split <;> omega

/-- port.assign on its operands: group g, action act, functions dev to dev + n - 1, tenancy t and context address dc. -/
def assignOn (i cl g act dev n t dc : Nat) (s : State) : State :=
  let devs := (List.range n).map (dev + ·)
  let fin := fun o => stageDone i cl (assignResult g act dev n o t 0)
  if devs.any (fun d => !funcPresent s g d) then fin 1 s
  else if act = 0 then
    if isSealed s t ∨ devs.any (fun d => isSealed s (devTenancy s g d) && devTenancy s g d != t) then fin 2 s
    else if t ≠ 0 ∧ ((tenantOf s t).st = .free ∨ (tenantOf s t).st = .closing) then fin 3 s
    else if 256 < (cutAssigns dev n (groupOf s g).assigns).length + (if t = 0 then 0 else 1) then fin 5 s
    else if t ≠ 0 ∧ devs.any (fun d => (funcOf s g d).any fun f => !f.flr && !aloneBelow s g f) then fin 7 s
    else addStep i (beat s + 1) (.stage i cl (assignResult g act dev n 0 t (beat s + 1)))
      (addStep i (beat s + 1) (.portOwner g dev n t) s)
  else if devs.any (fun d => devTenancy s g d != t) then fin 4 s
  else if act = 1 then
    if devs.any (fun d => !ctxOwned s t (dc + 64 * (d - dev))) then fin 6 s
    else addStep i (beat s + 1) (.stage i cl (assignResult g act dev n 0 t (beat s + 1)))
      (modGroup g (fun q => { q with ctx := devs.foldl (fun x d => tset 0 x d (dc + 64 * (d - dev) + 1)) q.ctx }) s)
  else addStep i (beat s + 1) (.stage i cl (assignResult g act dev n 0 t (beat s + 1)))
    (modGroup g (fun q => { q with cached := q.cached.filter fun d => !devs.contains d }) s)

theorem portAssign_eq (i : Nat) (c : Bytes) (s : State) : ∃ cl, portAssign i c s =
    assignOn i cl (clampGroup s (arg c 0 1)) (clampEnum 3 0 (arg c 1 1)) (arg c 2 2) (clampR 1 8 (arg c 4 1)) (assignTo i c)
      (roundDown 64 (arg c 8 8)) s := ⟨_, rfl⟩

theorem any_single (p : Nat → Bool) (dev : Nat) : ((List.range 1).map (dev + ·)).any p = p dev :=
  Bool.or_false _

section
variable (s : State) (i cl g act dev n t dc : Nat)

theorem assignOn_absent (hn : 1 ≤ n) (hno : funcPresent s g dev = false) :
    assignOn i cl g act dev n t dc s = stageDone i cl (assignResult g act dev n 1 t 0) s :=
  if_pos (List.any_eq_true.mpr ⟨dev + 0, List.mem_map_of_mem (List.mem_range.mpr hn), (congrArg (!·) hno : _)⟩)

variable {s g dev t} (hfunc : funcPresent s g dev = true)
include hfunc

/-- The function is given back to the platform. -/
theorem assignOn_back (hopen : isSealed s (devTenancy s g dev) = false)
    (hroom : (cutAssigns dev 1 (groupOf s g).assigns).length ≤ 256) : assignOn i cl g 0 dev 1 0 dc s =
      addStep i (beat s + 1) (.stage i cl (assignResult g 0 dev 1 0 0 (beat s + 1)))
        (addStep i (beat s + 1) (.portOwner g dev 1 0) s) := by
  unfold assignOn
  simp only [any_single]
  have hzero : isSealed s 0 = false := rfl
  rw [if_neg (by simp [hfunc]), if_pos trivial, if_neg (by simp [hzero, hopen]), if_neg (by simp), if_neg (by simpa using hroom),
    if_neg (by simp)]

/-- Its translations are no longer cached. -/
theorem assignOn_uncache (hten : devTenancy s g dev = t) : assignOn i cl g 2 dev 1 t dc s =
    addStep i (beat s + 1) (.stage i cl (assignResult g 2 dev 1 0 t (beat s + 1)))
      (modGroup g (fun q => { q with cached := q.cached.filter fun d => !List.contains [dev + 0] d }) s) := by
  unfold assignOn
  simp only [any_single]
  rw [if_neg (by simp [hfunc]), if_neg (by decide), if_neg (by simp [hten]), if_neg (by decide)]
  rfl

/-- Its context table is at a place of its tenancy. -/
theorem assignOn_ctx (hten : devTenancy s g dev = t) (howned : ctxOwned s t dc = true) : assignOn i cl g 1 dev 1 t dc s =
    addStep i (beat s + 1) (.stage i cl (assignResult g 1 dev 1 0 t (beat s + 1)))
      (modGroup g (fun q => { q with ctx := tset 0 q.ctx dev (dc + 64 * (dev - dev) + 1) }) s) := by
  unfold assignOn
  simp only [any_single]
  rw [if_neg (by simp [hfunc]), if_neg (by decide), if_neg (by simp [hten]), if_pos trivial, if_neg (by simp [howned])]
  rfl

theorem assignOn_foreignCtx (hten : devTenancy s g dev = t) (howned : ctxOwned s t dc = false) :
    assignOn i cl g 1 dev 1 t dc s = stageDone i cl (assignResult g 1 dev 1 6 t 0) s := by
  unfold assignOn
  simp only [any_single]
  rw [if_neg (by simp [hfunc]), if_neg (by decide), if_neg (by simp [hten]), if_pos trivial, if_pos (by simp [howned])]

end

/-- The clauses of port.assign. -/
theorem portAssign_spec (s : State) (i : Nat) (c : Bytes) {g a x : Nat} (hg : clampGroup s (arg c 0 1) = g)
    (ha : clampEnum 3 0 (arg c 1 1) = a) (hx : assignTo i c = x) :
    (funcPresent s g (arg c 2 2) = false → samePart .groups s (portAssign i c (started i s)) ∧
      samePart .journal s (portAssign i c (started i s)) ∧
      ∃ cl, doneIn s (portAssign i c (started i s)) i cl (assignResult g a (arg c 2 2) (clampR 1 8 (arg c 4 1)) 1 x 0)) ∧
    (a = 0 → arg c 4 1 = 1 → funcPresent s g (arg c 2 2) = true → isSealed s x = false →
      isSealed s (devTenancy s g (arg c 2 2)) = false → x = 0 →
      (cutAssigns (arg c 2 2) 1 (groupOf s g).assigns).length ≤ 256 → goesOn (portAssign i c (started i s)) i ∧
        samePart .groups s (portAssign i c (started i s)) ∧
        (⟨i, beat s + 1, .portOwner g (arg c 2 2) 1 0⟩ : JStep) ∈ (portAssign i c (started i s)).journal) ∧
    (a = 2 → arg c 4 1 = 1 → funcPresent s g (arg c 2 2) = true → devTenancy s g (arg c 2 2) = x →
      goesOn (portAssign i c (started i s)) i ∧ arg c 2 2 ∉ (groupOf (portAssign i c (started i s)) g).cached) ∧
    (∀ a8, a = 1 → arg c 4 1 = 1 → funcPresent s g (arg c 2 2) = true → devTenancy s g (arg c 2 2) = x →
      a8 = roundDown 64 (arg c 8 8) → (ctxOwned s x a8 = true → goesOn (portAssign i c (started i s)) i ∧
        tget 0 (groupOf (portAssign i c (started i s)) g).ctx (arg c 2 2) = a8 + 1) ∧
      (ctxOwned s x a8 = false → samePart .groups s (portAssign i c (started i s)) ∧
        ∃ cl, doneIn s (portAssign i c (started i s)) i cl (assignResult g 1 (arg c 2 2) 1 6 x 0))) := by
  obtain ⟨cl, heq⟩ := portAssign_eq i c (started i s)
  have hg' : clampGroup (started i s) (arg c 0 1) = g := hg
  rw [heq, hg', ha, hx]
  have hone : clampR 1 8 1 = 1 := rfl
  refine ⟨fun hno => ?_, fun ha0 hn hfunc hopen hdopen hx0 hroom => ?_, fun ha2 hn hfunc hten => ?_,
    fun a8 ha1 hn hfunc hten ha8 => ⟨fun howned => ?_, fun howned => ?_⟩⟩
  · rw [assignOn_absent (started i s) _ _ _ _ _ _ _ _ (clampR_pos _) hno]
    exact ⟨groups_stageDone _ _ _ _, journal_stageDone _ _ _ _, cl, doneIn_started s i _ _⟩
  · subst ha0 hx0
    rw [hn, hone, assignOn_back (s := started i s) i cl _ hfunc hdopen hroom]
    refine ⟨goesOn_of_mbx (goesOn_started i s) rfl, rfl, ?_⟩
    rw [addStep_journal, addStep_journal]
    exact List.mem_append_left _ (List.mem_append_right _ (List.mem_singleton_self _))
  · subst ha2
    rw [hn, hone, assignOn_uncache (s := started i s) i cl _ hfunc hten]
    refine ⟨goesOn_of_mbx (goesOn_started i s) rfl, ?_⟩
    rw [addStep_groupOf, modGroup, setGroup_groupOf_same]
    simp
  · subst ha1 ha8
    rw [hn, hone, assignOn_ctx (s := started i s) i cl _ hfunc hten howned]
    refine ⟨goesOn_of_mbx (goesOn_started i s) rfl, ?_⟩
    rw [addStep_groupOf, modGroup, setGroup_groupOf_same, tget_tset_same, Nat.sub_self]
  · subst ha1 ha8
    rw [hn, hone, assignOn_foreignCtx (s := started i s) i cl _ hfunc hten howned]
    exact ⟨groups_stageDone _ _ _ _, cl, doneIn_started s i _ _⟩

/-! ### port.ep and port.cxlgrant -/

theorem portEp_other (s : State) (i : Nat) (c : Bytes) (h : isEndpoint s (clampGroupTo s (isEndpoint s) (arg c 0 1)) = false) :
    ∃ cl, portEp i c (started i s) = stageDone i cl (mkBytes [(0, 1, clampGroupTo s (isEndpoint s) (arg c 0 1)),
      (1, 1, clampBar2 (arg c 1 1)), (2, 1, clampRegion (arg c 2 1)), (3, 1, clampEnum 2 0 (arg c 3 1)), (4, 2, min 256 (arg c 4 2)),
      (6, 1, 1), (8, 8, roundDown 4096 (arg c 8 8))]) (started i s) :=
  ⟨_, if_pos h⟩

theorem portEp_open (s : State) (i : Nat) (c : Bytes) (h : isEndpoint s (clampGroupTo s (isEndpoint s) (arg c 0 1)) = true)
    (hopen : (tenantOf s (min 256 (arg c 4 2))).st = .opened) :
    ∃ cl data, portEp i c (started i s) = addStep i (beat s + 1) (.stage i cl data) (addStep i (beat s + 1)
      (.portEp (clampGroupTo s (isEndpoint s) (arg c 0 1)) (clampBar2 (arg c 1 1)) (clampRegion (arg c 2 1))
        (clampEnum 2 0 (arg c 3 1) == 1) (min 256 (arg c 4 2)) (roundDown 4096 (arg c 8 8))) (started i s)) := by
  have hgood : ¬ (clampRegion (arg c 2 1) ≠ 0xFF ∧ min 256 (arg c 4 2) ≠ 0 ∧
      (tenantOf (started i s) (min 256 (arg c 4 2))).st ≠ .opened) := fun hbad => hbad.2.2 hopen
  have hnot : ¬ isEndpoint (started i s) (clampGroupTo (started i s) (isEndpoint (started i s)) (arg c 0 1)) = false :=
    fun hno => absurd (h.symm.trans hno) (by decide)
  unfold portEp
  simp only []
  rw [if_neg hnot, if_neg hgood, if_neg hgood]
  exact ⟨_, _, rfl⟩

/-- port.cxlgrant on its operands: group g, its region from lo, base, size and tenancy t. -/
def cxlGrantOn (i cl g lo base size t : Nat) (s : State) : State :=
  if cxlOutcome s g base (size / 2 ^ 30) t ≠ 0 then
    stageDone i cl (grantResult g (cxlOutcome s g base (size / 2 ^ 30) t) t 0 base size 0) s
  else if t = 0 then addStep i (beat s + 1) (.stage i cl (grantResult g 0 t (size / 2 ^ 30) base size (beat s + 1)))
    (addStep i (beat s + 1) (.cxlGrant g ((base - lo) / 2 ^ 30) (size / 2 ^ 30) t) s)
  else sendOut { xid := 0, dev := 64 + g, kind := 5, pa := paOf s base, tag := 0, size := size,
                 origin := .grant i cl g base (size / 2 ^ 30) t } s

/-- The base of port.cxlgrant in a group's region from lo. -/
def grantBase (c : Bytes) (lo : Nat) : Nat := roundDown (2 ^ 30) (clampR lo (lo + 0x040000000000 - 2 ^ 30) (arg c 8 8))

/-- The size of port.cxlgrant from its base. -/
def grantSize (c : Bytes) (lo : Nat) : Nat :=
  min (clampR (2 ^ 30) (2 ^ 42) (roundUp (2 ^ 30) (arg c 0x10 8))) (lo + 0x040000000000 - grantBase c lo)

theorem portCxlgrant_eq (i : Nat) (c : Bytes) (s : State) {g lo : Nat} (hg : clampGroupTo s (hasHostPort s) (arg c 0 1) = g)
    (hlo : 0x040000000000 + g * 0x040000000000 = lo) : ∃ cl, portCxlgrant i c s =
      cxlGrantOn i cl g lo (grantBase c lo) (grantSize c lo) (min 256 (arg c 0x18 2)) s := by
  subst hg hlo
  exact ⟨_, rfl⟩

/-- The clauses of port.cxlgrant. -/
theorem cxlGrantOn_spec (s : State) (i cl g lo base size t : Nat) :
    samePart .mem s (cxlGrantOn i cl g lo base size t (started i s)) ∧
    (cxlOutcome s g base (size / 2 ^ 30) t ≠ 0 → samePart .journal s (cxlGrantOn i cl g lo base size t (started i s)) ∧
      doneIn s (cxlGrantOn i cl g lo base size t (started i s)) i cl
        (grantResult g (cxlOutcome s g base (size / 2 ^ 30) t) t 0 base size 0)) ∧
    (cxlOutcome s g base (size / 2 ^ 30) t = 0 → t = 0 → goesOn (cxlGrantOn i cl g lo base size t (started i s)) i ∧
      samePart .outs s (cxlGrantOn i cl g lo base size t (started i s)) ∧
      (⟨i, beat s + 1, .cxlGrant g ((base - lo) / 2 ^ 30) (size / 2 ^ 30) t⟩ : JStep) ∈
        (cxlGrantOn i cl g lo base size t (started i s)).journal) ∧
    (cxlOutcome s g base (size / 2 ^ 30) t = 0 → t ≠ 0 → goesOn (cxlGrantOn i cl g lo base size t (started i s)) i ∧
      samePart .journal s (cxlGrantOn i cl g lo base size t (started i s)) ∧
      ∃ w, (cxlGrantOn i cl g lo base size t (started i s)).outs = s.outs ++ [w] ∧ w.kind = 5 ∧ w.dev = 64 + g ∧
        w.pa = paOf s base ∧ w.size = size ∧ w.data = 0 ∧ w.origin = .grant i cl g base (size / 2 ^ 30) t) := by
  have hout : cxlOutcome (started i s) g base (size / 2 ^ 30) t = cxlOutcome s g base (size / 2 ^ 30) t := rfl
  unfold cxlGrantOn
  rw [hout]
  by_cases ho : cxlOutcome s g base (size / 2 ^ 30) t = 0
  · rw [if_neg (not_not_intro ho)]
    by_cases ht : t = 0
    · rw [if_pos ht]
      refine ⟨rfl, fun h => absurd ho h, fun _ _ => ⟨goesOn_of_mbx (goesOn_started i s) rfl, rfl, ?_⟩, fun _ h => absurd ht h⟩
      rw [addStep_journal, addStep_journal]
      exact List.mem_append_left _ (List.mem_append_right _ (List.mem_singleton_self _))
    · rw [if_neg ht, sendOut]
      simp only []
      rw [if_neg (by omega)]
      exact ⟨rfl, fun h => absurd ho h, fun _ h => absurd h ht,
        fun _ _ => ⟨goesOn_of_mbx (goesOn_started i s) rfl, rfl, _, rfl, rfl, rfl, rfl, rfl, rfl, rfl⟩⟩
  · rw [if_pos ho]
    exact ⟨mem_stageDone _ _ _ _, fun _ => ⟨journal_stageDone _ _ _ _, doneIn_started s i _ _⟩, fun h => absurd h ho,
      fun h => absurd h ho⟩

theorem portConfig_spec (s : State) {i : Nat} (hi : i < 260) (c : Bytes) {g code : Nat} (hg : clampGroup s (arg c 0 1) = g)
    (hcode : clampEnum 5 (bifOf s g) (arg c 1 1) = code) {roles : List Nat} (hroles : confRoles c code = roles) :
    (configOutcome s g code roles ≠ 0 → samePart .journal s (portConfig i c (started i s)) ∧
      samePart .groups s (portConfig i c (started i s)) ∧ ∃ cl, doneIn s (portConfig i c (started i s)) i cl
        (confResult g code roles (configOutcome s g code roles) 0)) ∧
    (configOutcome s g code roles = 0 → (∀ r ∈ roles, r = 0) ∨ serdesOn s g = true →
      goesOn (portConfig i c (started i s)) i ∧ samePart .due s (portConfig i c (started i s)) ∧
      ∃ cl, (portConfig i c (started i s)).journal = s.journal ++ [⟨i, beat s + 1, .portConf i cl g code roles⟩]) ∧
    (configOutcome s g code roles = 0 → (∃ r ∈ roles, r ≠ 0) → serdesOn s g = false →
      goesOn (portConfig i c (started i s)) i ∧
      (portConfig i c (started i s)).due = s.due ++ [⟨beat s + 1, 4, .switch (160 + g) true⟩] ∧
      ∃ cl, (portConfig i c (started i s)).journal = s.journal ++ [⟨i, beat s + 2, .portConf i cl g code roles⟩]) ∧
    (∀ cl n, n < 4 → configOutcome s g code roles ≠ 0 → portState (applyConf i cl g code roles s) g n = portState s g n) := by
  subst hroles
  refine ⟨fun ho => ?_, fun ho hon => ?_, fun ho hany hoff => ?_, fun cl n _ ho => portState_applyConf_refused hi n ho⟩
  · obtain ⟨cl, heq⟩ := portConfig_refused s i c hg hcode ho
    rw [heq]
    exact ⟨journal_stageDone _ _ _ _, groups_stageDone _ _ _ _, cl, doneIn_started s i _ _⟩
  · obtain ⟨cl, heq⟩ := portConfig_waits s i c hg hcode ho fun ⟨hany, hoff⟩ => by
      obtain ⟨r, hr, hne⟩ := List.any_eq_true.mp hany
      rcases hon with hzero | hon
      · rw [hzero r hr] at hne
        exact absurd hne (by decide)
      · exact absurd (hon.symm.trans hoff) (by decide)
    rw [heq]
    exact ⟨goesOn_of_mbx (goesOn_started i s) rfl, rfl, cl, rfl⟩
  · obtain ⟨cl, heq⟩ := portConfig_switches s i c hg hcode ho
      ⟨by obtain ⟨r, hr, hne⟩ := hany; exact List.any_eq_true.mpr ⟨r, hr, by simpa using hne⟩, hoff⟩
    rw [heq]
    exact ⟨goesOn_of_mbx (goesOn_started i s) rfl, rfl, cl, rfl⟩

/-- Settles O50: each command's branches, one result or the steps it leaves. -/
theorem portCommands : Obligations.PortCommands := by
  unfold Obligations.PortCommands
  refine fun s i c hi => ⟨fun h => ?_, fun h => ?_, fun h => ?_, fun h => ?_, fun h => ?_⟩
  · exact ⟨_, _, _, rfl, rfl, congrArg Host.Outcome.next (onCmd_of_taken h (portStatusCmd i)), groups_stageDone _ _ _ _,
      doneIn_started s i _ _⟩
  · exact ⟨_, _, _, _, rfl, rfl, rfl, congrArg Host.Outcome.next (onCmd_of_taken h (portConfig i)),
      portConfig_spec s hi c rfl rfl rfl⟩
  · exact ⟨_, _, _, _, rfl, rfl, rfl, congrArg Host.Outcome.next (onCmd_of_taken h (portAssign i)),
      portAssign_spec s i c rfl rfl rfl⟩
  · refine ⟨_, _, _, _, rfl, rfl, rfl, congrArg Host.Outcome.next (onCmd_of_taken h (portEp i)), fun hend => ?_,
      fun hend hopen => ?_⟩
    · obtain ⟨cl, heq⟩ := portEp_other s i c hend
      rw [heq]
      exact ⟨journal_stageDone _ _ _ _, cl, doneIn_started s i _ _⟩
    · obtain ⟨cl, data, heq⟩ := portEp_open s i c hend hopen
      rw [heq]
      refine ⟨goesOn_of_mbx (goesOn_started i s) rfl, rfl, ?_⟩
      rw [addStep_journal, addStep_journal]
      exact List.mem_append_left _ (List.mem_append_right _ (List.mem_singleton_self _))
  · refine ⟨_, clampGroupTo s (hasHostPort s) (arg c 0 1), _, grantBase c _, grantSize c _, _, _, rfl, rfl, rfl, rfl, rfl, rfl,
      congrArg Host.Outcome.next (onCmd_of_taken h (portCxlgrant i)), ?_⟩
    obtain ⟨cl, heq⟩ := portCxlgrant_eq i c (started i s)
      (rfl : clampGroupTo (started i s) (hasHostPort (started i s)) (arg c 0 1) = clampGroupTo s (hasHostPort s) (arg c 0 1)) rfl
    rw [heq]
    obtain ⟨hmem, hno, hback, hgive⟩ := cxlGrantOn_spec s i cl (clampGroupTo s (hasHostPort s) (arg c 0 1)) _
      (grantBase c _) (grantSize c _) (min 256 (arg c 0x18 2))
    refine ⟨hmem, fun ho => ⟨(hno ho).1, cl, (hno ho).2⟩, hback, fun ho ht => ?_⟩
    obtain ⟨hgo, hsteps, w, hw⟩ := hgive ho ht
    exact ⟨hgo, hsteps, w, cl, hw⟩

end Sys2Proof.Machine
end

section
/-! The fields of a mailbox, requests over I3C, and the passing of the token (R30, R328, R329, R332, R336, R337, R349, R352). -/
set_option Elab.async false
namespace Sys2Proof.Machine

/-! ### Stores to a mailbox -/

theorem mbxStore_refused {s : State} {tag i : Nat} (off size v : Nat) (h : tag ≠ i ∨ (i = 259 ∧ enabled s 0 = false)) :
    mbxStore tag i off size v s = refuseWindow tag (pageOff i off) s := by
  refine if_neg ?_
  rcases h with h | ⟨rfl, h⟩
  · simp [ownsMbx, h]
  · simp [h]

theorem mbxStore_owner {s : State} {i : Nat} (off size v : Nat) (hi : i < 260) (h : i = 259 → enabled s 0 = true) :
    mbxStore i i off size v s = pageWrite i off size v s := by
  refine if_pos ?_
  by_cases h259 : i = 259
  · simp [ownsMbx, hi, h h259]
  · simp [ownsMbx, hi, h259]

/-- A store to another party's mailbox leaves a record and nothing else (R30). -/
theorem refuseWindow_spec (s : State) (tag off : Nat) : recordedIn 5 11 0 0x0B01 s (refuseWindow tag off s) ∧
    samePart .mbx s (refuseWindow tag off s) ∧ otherFields irqFields s (refuseWindow tag off s) := by
  rw [refuseWindow, recRefusal]
  refine ⟨recPlatform_recordedIn _ _ _ _ _ _ _ _ _ _ rfl rfl,
    (recPlatform_keeps (nextSlice s) 5 11 0 0x0B01 tag off [] s (keeps_refl _ s) (Nat.or_self _)).part .mbx rfl, ?_⟩
  exact (otherFields_refl irqFields s).recPlatform (fun _ h => h) _ _ _ _ _ _ _ _

/-- A mailbox whose command a doorbell copies. -/
def rung (i : Nat) (s : State) : State :=
  wr (mbxStatState i) 1 (wr (mbxSeqSeq i) (rd s (mbxSeqSeq i) + 1)
    (setMbx i { mbxOf s i with copy := (mbxOf s i).cmd, latched := beat s, phase := .none, res := {} } s))

/-- The holder's Clerk cores are told of a doorbell. -/
def tellHolder (i : Nat) (s : State) : State :=
  match s.toss.holder with
  | some x => (complexCores x).foldl (clkIrq 2 i) s
  | none => s

theorem doorbell_free {s : State} {i : Nat} (h : rd s (mbxStatState i) = 0 ∨ rd s (mbxStatState i) = 3) :
    doorbell i s = tellHolder i (rung i s) :=
  if_pos h

theorem doorbell_busy {s : State} {i : Nat} (h : rd s (mbxStatState i) = 1 ∨ rd s (mbxStatState i) = 2) :
    doorbell i s = bump (mbxStatDropped i) 1 s :=
  if_neg (by omega)

theorem tellHolder_part {α : Type} (v : State → α) (hirq : ∀ i y c, v (clkIrq 2 i y c) = v y) (i : Nat) (s : State) :
    v (tellHolder i s) = v s := by
  unfold tellHolder
  split
  · exact foldl_clkIrq v _ _ _ (fun y c _ => hirq i y c) _
  · rfl

theorem mbxOf_tellHolder (i k : Nat) (s : State) : mbxOf (tellHolder i s) k = mbxOf s k :=
  tellHolder_part (mbxOf · k) (fun i y c => congrArg (fun m => tget ({} : Mbx) m k) (clkIrq_mbx 2 i y c)) i s

theorem rd_tellHolder {f : Fld} (hlo : f.lo < 64) (hoff : f.off < 0x100000000) (i : Nat) (s : State) :
    rd (tellHolder i s) f = rd s f :=
  tellHolder_part (rd · f) (fun i y c => rd_clkIrq 2 i y c f (fkey_ne_clerkIpPending hlo hoff c)) i s

theorem mbxOf_rung_same (i : Nat) (s : State) : mbxOf (rung i s) i =
    { mbxOf s i with copy := (mbxOf s i).cmd, latched := beat s, phase := .none, res := {} } := by
  rw [rung, wr_mbxOf, wr_mbxOf, setMbx_mbxOf_same]

theorem mbxOf_rung_ne {i k : Nat} (h : k ≠ i) (s : State) : mbxOf (rung i s) k = mbxOf s k := by
  rw [rung, wr_mbxOf, wr_mbxOf, setMbx_mbxOf_ne _ _ _ _ h]

theorem rd_rung_state (i : Nat) (s : State) : rd (rung i s) (mbxStatState i) = 1 := rd_wr_same _ _ _

theorem rd_rung_seq {i : Nat} (hi : i < 260) (s : State) : rd (rung i s) (mbxSeqSeq i) = (rd s (mbxSeqSeq i) + 1) % 2 ^ 64 := by
  rw [rung, rd_wr_ne _ _ _ _ (by simp only [fkey, mbxSeqSeq, mbxStatState]; omega), rd_wr_same]
  rfl

theorem otherFields_rung (i : Nat) (s : State) : otherFields [mbxStatState i, mbxSeqSeq i] s (rung i s) :=
  (((otherFields_refl _ s).of_regs (setMbx_regs _ _ _)).wr (by simp) _).wr (by simp) _

theorem mem_complexCores {x c : Nat} (hx : x < 2) (hc : c ∈ complexCores x) : c ∈ clerkCores := by
  unfold complexCores at hc
  obtain rfl | rfl : x = 0 ∨ x = 1 := by omega
  all_goals fin_cases hc <;> decide

theorem otherFields_tellHolder {s : State} {x : Nat} (i : Nat) (hholder : s.toss.holder = some x) (hx : x < 2) {l : List Fld} {q : State}
    (h : otherFields l q s) (hl : ∀ f ∈ irqFields, f ∈ l) : otherFields l q (tellHolder i s) := by
  unfold tellHolder
  rw [hholder]
  refine h.foldl fun y hy c hc f hf => (rd_clkIrq _ _ _ _ _ (hf _ (hl _ ?_))).trans (hy f hf)
  exact List.mem_map_of_mem (mem_complexCores hx hc)

theorem inMask_or_bit (v k w : Nat) (h : k < w) : inMask ((v ||| 2 ^ k) % 2 ^ w) k = true := by
  have hbit : inMask ((v ||| 2 ^ k) % 2 ^ w) k = ((v ||| 2 ^ k) % 2 ^ w).testBit k := by
    rw [Nat.testBit_eq_decide_div_mod_eq]
    exact Bool.beq_eq_decide_eq _ _
  rw [hbit, Nat.testBit_mod_two_pow, Nat.testBit_or, Nat.testBit_two_pow_self]
  simp [h]

/-- Each live core of the holder's complex has the doorbell's interrupt pending. -/
theorem tellHolder_pending {s : State} {x c : Nat} (i : Nat) (hholder : s.toss.holder = some x) (hc : c ∈ complexCores x)
    (hlive : clkLive s c = true) : inMask (rd (tellHolder i s) (clerkIpPending c)) 2 = true := by
  unfold tellHolder
  rw [hholder]
  obtain ⟨y, hy, hfold⟩ := foldl_at (irqView c) (f := clkIrq 2 i) (fun y a ha => irqView_clkIrq_ne ha 2 i y)
    (complexCores_nodup x) hc s
  have hpending := (Prod.mk.inj (hfold.trans (irqView_clkIrq_congr hy 2 i))).2
  rw [clkIrq_of_live hlive] at hpending
  show inMask (rd ((complexCores x).foldl (clkIrq 2 i) s) (clerkIpPending c)) 2 = true
  rw [hpending, rd_wr_same]
  exact inMask_or_bit _ 2 7 (by decide)

section
variable {s : State} {i : Nat} (hi : i < 260) (h : rd s (mbxStatState i) = 0 ∨ rd s (mbxStatState i) = 3)
include hi h

/-- A doorbell at an Idle or Complete mailbox latches its command (R337). -/
theorem doorbell_latches : rd (doorbell i s) (mbxStatState i) = 1 ∧
    rd (doorbell i s) (mbxSeqSeq i) = (rd s (mbxSeqSeq i) + 1) % 2 ^ 64 ∧
    mbxOf (doorbell i s) i = { mbxOf s i with copy := (mbxOf s i).cmd, latched := beat s, phase := .none, res := {} } ∧
    (∀ k, k ≠ i → mbxOf (doorbell i s) k = mbxOf s k) := by
  rw [doorbell_free h]
  refine ⟨(rd_tellHolder (by decide : 0 < 64) (by simp only [mbxStatState]; omega) i _).trans (rd_rung_state i s),
    (rd_tellHolder (by decide : 0 < 64) (by simp only [mbxSeqSeq]; omega) i _).trans (rd_rung_seq hi s),
    (mbxOf_tellHolder i i _).trans (mbxOf_rung_same i s), fun k hk => (mbxOf_tellHolder i k _).trans (mbxOf_rung_ne hk s)⟩

end

/-- A doorbell by the mailbox's owner: the field keeps what reached it. -/
theorem pageWrite_doorbell (i : Nat) (s : State) : pageWrite i 0x400 8 0 s =
    doorbell i (setMbx i { mbxOf s i with cmd := putLE (mbxOf s i).cmd 0x400 8 0 } s) :=
  (if_neg (by decide)).trans (if_pos (by decide))

theorem pageWrite_ack (i size v : Nat) (s : State) : pageWrite i 0x408 size v s = ackResult i size v s :=
  (if_neg (by decide)).trans ((if_neg (by decide)).trans (if_pos rfl))

theorem pageWrite_notice (i size v : Nat) (s : State) : pageWrite i 0x410 size v s = ackNotice i size v s :=
  (if_neg (by decide)).trans ((if_neg (by decide)).trans ((if_neg (by decide)).trans (if_pos rfl)))

section
variable (s : State) (i : Nat)

/-- The mailbox with the doorbell's field written. -/
def rangFrom (i : Nat) (s : State) : State := setMbx i { mbxOf s i with cmd := putLE (mbxOf s i).cmd 0x400 8 0 } s

theorem mbxOf_rangFrom : mbxOf (rangFrom i s) i = { mbxOf s i with cmd := putLE (mbxOf s i).cmd 0x400 8 0 } :=
  setMbx_mbxOf_same _ _ _

variable (hi : i < 260) (h : rd s (mbxStatState i) = 0 ∨ rd s (mbxStatState i) = 3)
include hi h

/-- The owner's doorbell (R336, R337). -/
theorem ownDoorbell_spec : rd (doorbell i (rangFrom i s)) (mbxStatState i) = 1 ∧
    rd (doorbell i (rangFrom i s)) (mbxSeqSeq i) = (rd s (mbxSeqSeq i) + 1) % 2 ^ 64 ∧
    (mbxOf (doorbell i (rangFrom i s)) i).copy = putLE (mbxOf s i).cmd 0x400 8 0 ∧
    (mbxOf (doorbell i (rangFrom i s)) i).latched = beat s ∧ (mbxOf (doorbell i (rangFrom i s)) i).res = {} ∧
    (∀ k, k ≠ i → mbxOf (doorbell i (rangFrom i s)) k = mbxOf s k) ∧
    (s.toss.holder = none → otherFields [mbxStatState i, mbxSeqSeq i] s (doorbell i (rangFrom i s))) ∧
    ∀ x, s.toss.holder = some x → x < 2 →
      otherFields ([mbxStatState i, mbxSeqSeq i] ++ irqFields) s (doorbell i (rangFrom i s)) ∧
      ∀ c ∈ complexCores x, clkLive s c = true → inMask (rd (doorbell i (rangFrom i s)) (clerkIpPending c)) 2 = true := by
  obtain ⟨hstate, hseq, hmbx, hothers⟩ := doorbell_latches (s := rangFrom i s) hi h
  rw [mbxOf_rangFrom] at hmbx
  have hregs : otherFields [mbxStatState i, mbxSeqSeq i] s (rung i (rangFrom i s)) :=
    ((otherFields_refl _ s).of_regs (setMbx_regs _ _ _)).trans (otherFields_rung i _)
  refine ⟨hstate, hseq, ?_, ?_, ?_, fun k hk => (hothers k hk).trans (setMbx_mbxOf_ne _ _ _ _ hk), fun hnone => ?_,
    fun x hx hlt => ⟨?_, fun c hc hlive => ?_⟩⟩
  · rw [hmbx]
  · rw [hmbx]
    rfl
  · rw [hmbx]
  · rw [doorbell_free (s := rangFrom i s) h, tellHolder]
    have hnone' : (rung i (rangFrom i s)).toss.holder = none := hnone
    rw [hnone']
    exact hregs
  · rw [doorbell_free (s := rangFrom i s) h]
    exact otherFields_tellHolder (s := rung i (rangFrom i s)) i hx hlt (hregs.mono fun f hf => List.mem_append_left _ hf)
      fun f hf => List.mem_append_right _ hf
  · rw [doorbell_free (s := rangFrom i s) h]
    exact tellHolder_pending (s := rung i (rangFrom i s)) i hx hc hlive

end

/-- A doorbell at a mailbox whose command is under way is counted (R337). -/
theorem ownDoorbell_dropped {s : State} {i : Nat} (h : rd s (mbxStatState i) = 1 ∨ rd s (mbxStatState i) = 2) :
    counted (mbxStatDropped i) 1 s (doorbell i (rangFrom i s)) ∧ otherFields [mbxStatDropped i] s (doorbell i (rangFrom i s)) ∧
      (mbxOf (doorbell i (rangFrom i s)) i).copy = (mbxOf s i).copy ∧
      (mbxOf (doorbell i (rangFrom i s)) i).phase = (mbxOf s i).phase := by
  have hmbx : mbxOf (bump (mbxStatDropped i) 1 (rangFrom i s)) i = mbxOf (rangFrom i s) i := rfl
  rw [doorbell_busy (s := rangFrom i s) h, hmbx, mbxOf_rangFrom]
  exact ⟨rd_bump_same _ _ _, ((otherFields_refl _ s).of_regs (setMbx_regs _ _ _)).bump (by simp) _, rfl, rfl⟩

/-- The published sequence number ends Complete (R337). -/
theorem ackResult_taken {s : State} {i v : Nat} (hstate : rd s (mbxStatState i) = 3) (hv : v = (mbxOf s i).res.seq) :
    rd (ackResult i 8 v s) (mbxStatState i) = 0 ∧ (mbxOf (ackResult i 8 v s) i).res = {} ∧
      otherFields [mbxStatState i] s (ackResult i 8 v s) := by
  have hack : ackResult i 8 v s = wr (mbxStatState i) 0
      (setMbx i { mbxOf s i with cmd := putLE (mbxOf s i).cmd 0x408 8 v, res := {} } s) := by
    unfold ackResult
    rw [if_pos rfl, if_pos ⟨hstate, hv⟩]
  rw [hack, wr_mbxOf, setMbx_mbxOf_same]
  exact ⟨rd_wr_same _ _ _, rfl, ((otherFields_refl _ s).of_regs (setMbx_regs _ _ _)).wr (by simp) _⟩

theorem ackResult_ignored {s : State} {i v : Nat} (h : rd s (mbxStatState i) ≠ 3 ∨ v ≠ (mbxOf s i).res.seq) :
    (mbxOf (ackResult i 8 v s) i).res = (mbxOf s i).res ∧ samePart .regs s (ackResult i 8 v s) := by
  have hack : ackResult i 8 v s = setMbx i { mbxOf s i with cmd := putLE (mbxOf s i).cmd 0x408 8 v } s := by
    unfold ackResult
    rw [if_pos rfl, if_neg fun hc => h.elim (absurd hc.1) (absurd hc.2)]
  rw [hack, setMbx_mbxOf_same]
  exact ⟨rfl, setMbx_regs _ _ _⟩

/-- A store of 4 bytes to an acknowledgement field does nothing (R336). -/
theorem ackResult_narrow (i v : Nat) (s : State) : ackResult i 4 v s = s := by
  unfold ackResult
  rw [if_neg (by decide)]

theorem ackNotice_narrow (i v : Nat) (s : State) : ackNotice i 4 v s = s := by
  unfold ackNotice
  rw [if_neg (by decide)]

theorem ackNotice_spec (s : State) (i v : Nat) : samePart .regs s (ackNotice i 8 v s) ∧
    (mbxOf (ackNotice i 8 v s) i).effAck = (if (mbxOf s i).produced < v then (mbxOf s i).produced else if v < (mbxOf s i).effAck
      then (mbxOf s i).effAck else v) ∧ (mbxOf (ackNotice i 8 v s) i).entries = (mbxOf s i).entries := by
  have hack : ackNotice i 8 v s = setMbx i { mbxOf s i with effAck := if (mbxOf s i).produced < v then (mbxOf s i).produced
      else if v < (mbxOf s i).effAck then (mbxOf s i).effAck else v } s := by
    unfold ackNotice
    rw [if_pos rfl]
  rw [hack, setMbx_mbxOf_same]
  exact ⟨setMbx_regs _ _ _, rfl, rfl⟩

/-! ### Requests over I3C -/

/-- The command area that an I3C request writes. -/
def i3cArea (code : Nat) (args : List Nat) (m : Mbx) : Bytes :=
  (args.take 0x3F0).zipIdx.foldl (fun (b : Bytes) (e : Nat × Nat) => tset 0 b (0x10 + e.2) (e.1 % 256)) (putLE m.cmd 0 4 code)

/-- The code stands below the arguments. -/
theorem argCode_i3cArea (code : Nat) (args : List Nat) (m : Mbx) : argCode (i3cArea code args m) = code % 2 ^ 32 := by
  have hlow : ∀ y < 4, tget 0 (i3cArea code args m) y = tget 0 (putLE m.cmd 0 4 code) y := fun y hy =>
    List.foldlRecOn (motive := fun b => tget 0 b y = tget 0 (putLE m.cmd 0 4 code) y) _ _ rfl fun b hb e _ =>
      (tget_tset_ne _ _ _ _ _ (by omega)).trans hb
  refine getLE_of_digits fun k hk => ?_
  rw [Nat.zero_add, hlow k hk, tget_putLE, if_pos ⟨Nat.zero_le _, by omega⟩]
  rfl

/-- Mailbox 257 with an I3C request written into its page. -/
def i3cAsked (code : Nat) (args : List Nat) (s : State) : State :=
  setMbx 257 { mbxOf s 257 with cmd := i3cArea code args (mbxOf s 257), i3cBusy := true }
    { s with chip := { s.chip with i3cAns := none } }

theorem mctpRequest_eq (code : Nat) (args : List Nat) (s : State) : Machine.mctpRequest code args s =
    if targetUp s = false then s
    else if clerkServes s = false then
      setI3c (5, 0, mkBytes [(0x800, 1, 5), (0x804, 4, code), (0x840, 8, statusWord14 s.boot)]) s
    else if (mbxOf s 257).i3cBusy then setI3c (1, rd s (mbxSeqSeq 257),
      mkBytes [(0x800, 1, 1), (0x804, 4, argCode (mbxOf s 257).copy), (0x808, 8, rd s (mbxSeqSeq 257))]) s
    else doorbell 257 (i3cAsked code args s) := rfl

theorem setI3c_others (a : Nat × Nat × Bytes) (s : State) : ∀ p, p ≠ .chip → samePart p s (setI3c a s) := by
  intro p hp
  cases p
  case chip => exact absurd rfl hp
  all_goals rfl

theorem mctpRequest_free {s : State} (code : Nat) (args : List Nat) (hup : targetUp s = true) (hserves : clerkServes s = true)
    (hbusy : (mbxOf s 257).i3cBusy = false) (h : rd s (mbxStatState 257) = 0 ∨ rd s (mbxStatState 257) = 3) :
    rd (Machine.mctpRequest code args s) (mbxStatState 257) = 1 ∧
      rd (Machine.mctpRequest code args s) (mbxSeqSeq 257) = (rd s (mbxSeqSeq 257) + 1) % 2 ^ 64 ∧
      argCode (mbxOf (Machine.mctpRequest code args s) 257).copy = code % 2 ^ 32 ∧
      (mbxOf (Machine.mctpRequest code args s) 257).i3cBusy = true ∧ (Machine.mctpRequest code args s).chip.i3cAns = none := by
  rw [mctpRequest_eq, if_neg (by simp [hup]), if_neg (by simp [hserves]), if_neg (by simp [hbusy])]
  obtain ⟨hstate, hseq, hmbx, -⟩ := doorbell_latches (s := i3cAsked code args s) (i := 257) (by decide) h
  have hcmd : mbxOf (i3cAsked code args s) 257 =
      { mbxOf s 257 with cmd := i3cArea code args (mbxOf s 257), i3cBusy := true } := setMbx_mbxOf_same _ _ _
  rw [hcmd] at hmbx
  refine ⟨hstate, hseq, ?_, ?_, ?_⟩
  · rw [hmbx]
    exact argCode_i3cArea code args _
  · rw [hmbx]
  · rw [doorbell_free (s := i3cAsked code args s) h]
    exact tellHolder_part (·.chip.i3cAns) (fun i y c => congrArg Chip.i3cAns (clkIrq_chip 2 i y c)) 257 _

/-! ### The token -/

theorem tossEvent_part {α : Type} (v : State → α) (e : Nat) (hwr : ∀ c y, v (wr (clerkTossEvent c) e y) = v y)
    (hirq : ∀ y c, v (clkIrq 6 e y c) = v y) (s : State) : v (tossEvent e s) = v s :=
  foldl_fixes v (f := fun a c => clkIrq 6 e (wr (clerkTossEvent c) e a) c) (fun y c => (hirq _ c).trans (hwr c y)) _ s

theorem rd_tossEvent_ne {f : Fld} (hevent : ∀ c, fkey f ≠ fkey (clerkTossEvent c)) (hpending : ∀ c, fkey f ≠ fkey (clerkIpPending c))
    (e : Nat) (s : State) : rd (tossEvent e s) f = rd s f :=
  tossEvent_part (rd · f) e (fun c y => rd_wr_ne _ _ _ _ (hevent c)) (fun y c => rd_clkIrq _ _ _ _ _ (hpending c)) s

/-- The token, the complexes and the Assayer after the pass, before it is told. -/
def tokenMoved (x : Nat) (s : State) : State := passAssayer (1 - x) x (giveToken x (fenceComplex (1 - x) s))

/-- How a pass is told: the event on every core, the count and the record. -/
def tokenTold (x e : Nat) (s y : State) : State :=
  event 14 [x] (detectedAt (beat s - 1) (recContained (beat s) 7 (1 - x) 0x0701 0 []) (bump mbxGlobalFailovers 1 (tossEvent e y)))

theorem passToken_eq {s : State} {x b e : Nat} (hpass : s.toss.pass = some (x, b, e)) (hb : b ≤ beat s) (hx : x < 2) :
    passToken s = tokenTold x e s (tokenMoved x s) := by
  unfold passToken
  rw [hpass]
  exact if_pos ⟨hb, hx⟩

theorem tokenTold_part {α : Type} (v : State → α) (hboot : ∀ y b, v { y with boot := b } = v y)
    (hras : ∀ y r, v { y with ras := r } = v y) (hwr : ∀ f z y, v (wr f z y) = v y) (hirq : ∀ k z y c, v (clkIrq k z y c) = v y)
    (x e : Nat) (s y : State) : v (tokenTold x e s y) = v y := by
  have hevent : ∀ z, v (event 14 [x] z) = v z := fun z => by
    unfold event
    simp only []
    split <;> exact hboot _ _
  refine (hevent _).trans ((hras _ _).trans ?_)
  refine (foldl_clkIrq v _ _ _ (fun z c _ => hirq _ _ z c) _).trans ((hras _ _).trans ((hwr _ _ _).trans ?_))
  exact tossEvent_part v e (fun c z => hwr _ _ z) (fun z c => hirq _ _ z c) y

theorem rd_detectedAt (m : Nat) (g : State → State) (s : State) (f : Fld) : rd (detectedAt m g s) f = rd (g s) f := rfl

theorem rd_tokenTold_from {f : Fld} (hpending : ∀ c, fkey f ≠ fkey (clerkIpPending c)) (x e : Nat) (s y : State) :
    rd (tokenTold x e s y) f = rd (bump mbxGlobalFailovers 1 (tossEvent e y)) f := by
  rw [tokenTold, rd_event, rd_detectedAt]
  exact rd_recPlatform _ _ _ _ _ _ _ _ _ _ fun c _ => hpending c

theorem rd_tokenTold {f : Fld} (hpending : ∀ c, fkey f ≠ fkey (clerkIpPending c)) (hevent : ∀ c, fkey f ≠ fkey (clerkTossEvent c))
    (hcount : fkey f ≠ fkey mbxGlobalFailovers) (x e : Nat) (s y : State) : rd (tokenTold x e s y) f = rd y f :=
  (rd_tokenTold_from hpending x e s y).trans ((rd_bump_ne _ _ _ _ hcount).trans (rd_tossEvent_ne hevent hpending e y))

/-- The cores of the new Assayer and the old one are not those that the token's registers stand for. -/
theorem rd_passAssayer {f : Fld} {x : Nat} (h : fkey f ≠ fkey (clerkIdCore (8 + x)) ∧ fkey f ≠ fkey (clerkIdTile (8 + x)) ∧
    fkey f ≠ fkey (clerkIdAssayer (8 + x)) ∧ fkey f ≠ fkey (clerkStatusIe (8 + x))) (old : Nat) (s : State) :
    rd (passAssayer old x s) f = rd s f := by
  obtain ⟨hcore, htile, hass, hie⟩ := h
  refine (rd_wr_ne _ _ _ _ hcore).trans ((rd_wr_ne _ _ _ _ htile).trans ((rd_wr_ne _ _ _ _ hass).trans ((rd_wr_ne _ _ _ _ hie).trans ?_)))
  rfl

/-- Every core shows whether it is of the holder's complex. -/
def showSenior (x : Nat) (s : State) : State := clerkCores.foldl (fun a c => wrB (clerkTossSenior c) (c / 4 == x) a) s

theorem giveToken_eq (x : Nat) (s : State) : giveToken x s = wr clkStatusBeatMaster x (wr mbxGlobalSenior x
    { showSenior x (setToss { s.toss with holder := some x, pass := none } s) with
      boot := { (showSenior x (setToss { s.toss with holder := some x, pass := none } s)).boot with tile := x } }) := rfl

theorem showSenior_part {α : Type} (v : State → α) (hwr : ∀ f z y, v (wr f z y) = v y) (x : Nat) (s : State) :
    v (showSenior x s) = v s :=
  foldl_fixes v (f := fun a c => wrB (clerkTossSenior c) (c / 4 == x) a) (fun y c => hwr _ _ y) _ s

theorem fkey_clerkTossSenior_ne {a c : Nat} (h : a ≠ c) : fkey (clerkTossSenior a) ≠ fkey (clerkTossSenior c) := by
  simp only [fkey, clerkTossSenior]
  omega

theorem rd_showSenior {c : Nat} (hc : c < 8) (x : Nat) (s : State) :
    rd (showSenior x s) (clerkTossSenior c) = if c / 4 = x then 1 else 0 := by
  have hmem : c ∈ clerkCores := by
    simp only [clerkCores, List.mem_cons, List.not_mem_nil]
    omega
  obtain ⟨y, -, hfold⟩ := foldl_at (rd · (clerkTossSenior c)) (f := fun a c => wrB (clerkTossSenior c) (c / 4 == x) a)
    (fun y a ha => rd_wr_ne _ _ _ _ (fkey_clerkTossSenior_ne ha.symm)) (by decide : clerkCores.Nodup) hmem s
  refine hfold.trans ((rd_wr_same _ _ _).trans ?_)
  by_cases hx : c / 4 = x
  · rw [if_pos hx, beq_iff_eq.mpr hx]
    rfl
  · rw [if_neg hx, beq_eq_false_iff_ne.mpr hx]
    rfl

theorem rd_holdCores (x : Nat) (s : State) (f : Fld) : rd ((complexCores x).foldl (fun a c => holdCore c true a) s) f = rd s f :=
  foldl_fixes (rd · f) (f := fun a c => holdCore c true a) (fun _ _ => rfl) _ s

theorem toss_holdCores (x : Nat) (s : State) : ((complexCores x).foldl (fun a c => holdCore c true a) s).toss = s.toss :=
  foldl_fixes State.toss (f := fun a c => holdCore c true a) (fun _ _ => rfl) _ s

theorem rd_fenceComplex {f : Fld} {x : Nat} (h : fkey f ≠ fkey (pwrDomainFenced (176 + x))) (s : State) :
    rd (fenceComplex x s) f = rd s f :=
  (rd_wr_ne _ _ _ _ h).trans (rd_holdCores x s f)

theorem cplxOf_fenceComplex (x : Nat) (s : State) : (cplxOf (fenceComplex x s) x).fenced = true := by
  rw [cplxOf]
  show (tget ({} : Complex) (tset {} _ x { cplxOf _ x with fenced := true, fwd := [] }) x).fenced = true
  rw [tget_tset_same]

theorem cplx_giveToken (x : Nat) (s : State) : (giveToken x s).cplx = s.cplx := by
  have htold := showSenior_part State.cplx wr_cplx x (setToss { s.toss with holder := some x, pass := none } s)
  rw [giveToken_eq, wr_cplx, wr_cplx]
  generalize showSenior x (setToss { s.toss with holder := some x, pass := none } s) = y at htold ⊢
  exact htold

theorem giveToken_toss (x : Nat) (s : State) : (giveToken x s).toss = { s.toss with holder := some x, pass := none } := by
  have htold := showSenior_part State.toss wr_toss x (setToss { s.toss with holder := some x, pass := none } s)
  rw [giveToken_eq, wr_toss, wr_toss]
  generalize showSenior x (setToss { s.toss with holder := some x, pass := none } s) = y at htold ⊢
  exact htold

/-- What the moved token shows. -/
theorem tokenMoved_spec (x : Nat) (s : State) : (tokenMoved x s).toss.holder = some x ∧ (tokenMoved x s).toss.pass = none ∧
    (cplxOf (tokenMoved x s) (1 - x)).fenced = true ∧ (tokenMoved x s).assayer.tile = some x ∧
    (tokenMoved x s).assayer.hung = false := by
  have htoss : (tokenMoved x s).toss = (giveToken x (fenceComplex (1 - x) s)).toss := rfl
  have hcplx : (tokenMoved x s).cplx = (giveToken x (fenceComplex (1 - x) s)).cplx := rfl
  rw [htoss, cplxOf, hcplx, giveToken_toss, cplx_giveToken]
  exact ⟨rfl, rfl, cplxOf_fenceComplex _ s, rfl, rfl⟩

section
variable {x : Nat} (hx : x < 2) (s : State)
include hx

theorem rd_tokenMoved_token {f : Fld} (hlo : f.lo < 64) (hoff : f.off < 0x100000000) :
    rd (tokenMoved x s) f = rd (giveToken x (fenceComplex (1 - x) s)) f :=
  rd_passAssayer (by simp only [fkey, clerkIdCore, clerkIdTile, clerkIdAssayer, clerkStatusIe]; omega) _ _

theorem rd_tokenMoved_senior : rd (tokenMoved x s) mbxGlobalSenior = x := by
  refine (rd_tokenMoved_token hx s (by decide) (by decide)).trans ?_
  rw [giveToken_eq, rd_wr_ne _ _ _ _ (by decide), rd_wr_same]
  exact Nat.mod_eq_of_lt hx

theorem rd_tokenMoved_master : rd (tokenMoved x s) clkStatusBeatMaster = x := by
  refine (rd_tokenMoved_token hx s (by decide) (by decide)).trans ?_
  rw [giveToken_eq, rd_wr_same]
  exact Nat.mod_eq_of_lt hx

theorem rd_tokenMoved_core {c : Nat} (hc : c < 8) : rd (tokenMoved x s) (clerkTossSenior c) = if c / 4 = x then 1 else 0 := by
  refine (rd_passAssayer ?_ _ _).trans ?_
  · simp only [fkey, clerkTossSenior, clerkIdCore, clerkIdTile, clerkIdAssayer, clerkStatusIe]
    omega
  · rw [giveToken_eq, rd_wr_ne _ _ _ _ (by simp only [fkey, clerkTossSenior, clkStatusBeatMaster]; omega),
      rd_wr_ne _ _ _ _ (by simp only [fkey, clerkTossSenior, mbxGlobalSenior]; omega)]
    exact rd_showSenior hc x _

/-- A field that the pass does not write. -/
theorem rd_tokenMoved_failovers : rd (tokenMoved x s) mbxGlobalFailovers = rd s mbxGlobalFailovers := by
  refine (rd_tokenMoved_token hx s (by decide) (by decide)).trans ?_
  rw [giveToken_eq, rd_wr_ne _ _ _ _ (by decide), rd_wr_ne _ _ _ _ (by decide)]
  refine (foldl_fixes (rd · mbxGlobalFailovers) (f := fun a c => wrB (clerkTossSenior c) (c / 4 == x) a)
    (fun y c => rd_wr_ne _ _ _ _ ?_) _ _).trans ?_
  · simp only [fkey, clerkTossSenior, mbxGlobalFailovers]
    omega
  · refine rd_fenceComplex ?_ s
    simp only [fkey, pwrDomainFenced, mbxGlobalFailovers]
    omega

theorem beat_tokenMoved : beat (giveToken x (fenceComplex (1 - x) s)) = beat s := by
  unfold beat
  rw [giveToken_eq, rd_wr_ne _ _ _ _ (by decide), rd_wr_ne _ _ _ _ (by decide)]
  refine (foldl_fixes (rd · clkBeatBeat) (f := fun a c => wrB (clerkTossSenior c) (c / 4 == x) a)
    (fun y c => rd_wr_ne _ _ _ _ ?_) _ _).trans ?_
  · simp only [fkey, clerkTossSenior, clkBeatBeat]
    omega
  · refine rd_fenceComplex ?_ s
    simp only [fkey, pwrDomainFenced, clkBeatBeat]
    omega

end

/-- A pass of the token is a failover in every respect (R328, R372). -/
theorem passToken_spec {s : State} {x b e : Nat} (hpass : s.toss.pass = some (x, b, e)) (hb : b ≤ beat s) (hx : x < 2) :
    (passToken s).toss.holder = some x ∧ (passToken s).toss.pass = none ∧ rd (passToken s) mbxGlobalSenior = x ∧
      rd (passToken s) clkStatusBeatMaster = x ∧ counted mbxGlobalFailovers 1 s (passToken s) ∧
      (cplxOf (passToken s) (1 - x)).fenced = true ∧ (passToken s).assayer.tile = some x ∧
      (passToken s).assayer.taking = some (beat s) ∧ (passToken s).assayer.hung = false ∧
      (∀ c, c < 8 → rd (passToken s) (clerkTossSenior c) = (if c / 4 = x then 1 else 0)) := by
  have hpending : ∀ {f : Fld}, f.lo < 64 → f.off < 0x100000000 → ∀ c, fkey f ≠ fkey (clerkIpPending c) :=
    fun hlo hoff c => fkey_ne_clerkIpPending hlo hoff c
  have hevent : ∀ {f : Fld}, f.lo < 64 → f.off < 0x100000000 → ∀ c, fkey f ≠ fkey (clerkTossEvent c) := fun hlo hoff c => by
    simp only [fkey, clerkTossEvent]
    omega
  obtain ⟨hholder, hnone, hfenced, htile, hhung⟩ := tokenMoved_spec x s
  have htoss : (tokenTold x e s (tokenMoved x s)).toss = (tokenMoved x s).toss :=
    tokenTold_part State.toss (fun _ _ => rfl) (fun _ _ => rfl) wr_toss clkIrq_toss x e s _
  have hcplx : (tokenTold x e s (tokenMoved x s)).cplx = (tokenMoved x s).cplx :=
    tokenTold_part State.cplx (fun _ _ => rfl) (fun _ _ => rfl) wr_cplx
      (fun k z y c => (clkIrq_keeps k z y c (keeps_refl _ y) (Nat.or_self _)).part .cplx rfl) x e s _
  have hass : (tokenTold x e s (tokenMoved x s)).assayer = (tokenMoved x s).assayer :=
    tokenTold_part State.assayer (fun _ _ => rfl) (fun _ _ => rfl) wr_assayer clkIrq_assayer x e s _
  rw [passToken_eq hpass hb hx]
  refine ⟨?_, ?_, ?_, ?_, ?_, ?_, ?_, ?_, ?_, fun c hc => ?_⟩
  · rw [htoss, hholder]
  · rw [htoss, hnone]
  · rw [rd_tokenTold (hpending (by decide) (by decide)) (hevent (by decide) (by decide)) (by decide), rd_tokenMoved_senior hx]
  · rw [rd_tokenTold (hpending (by decide) (by decide)) (hevent (by decide) (by decide)) (by decide), rd_tokenMoved_master hx]
  · rw [counted, rd_tokenTold_from (hpending (by decide) (by decide)), rd_bump_same,
      rd_tossEvent_ne (hevent (by decide) (by decide)) (hpending (by decide) (by decide)), rd_tokenMoved_failovers hx]
  · rw [cplxOf, hcplx]
    exact hfenced
  · rw [hass, htile]
  · rw [hass, ← beat_tokenMoved hx s]
    rfl
  · rw [hass, hhung]
  · rw [rd_tokenTold (fun d => ?_) (fun d => ?_) ?_, rd_tokenMoved_core hx s hc]
    all_goals
      simp only [fkey, clerkTossSenior, clerkIpPending, clerkTossEvent, mbxGlobalFailovers]
      omega

/-! ### Loss of the bridge and of a half -/

/-- The bridge is dead, and the record of it. -/
theorem bridgeLost_eq {s : State} {x y : Nat} (hholder : s.toss.holder = some x) (hbridge : 2 ≤ s.toss.bridge)
    (hpg : s.toss.pgLow = []) (hdead : s.toss.dead = false) (hy : y = if s.toss.northOk then 0 else x) :
    Machine.bridgeLost s = addDue (beat s + 1) 2 (.fenceHalf (1 - y)) (event 8 [1 - y]
      (recContained (nextSlice s) 9 2 0x0901 0 [] (tossEvent 4
        (setToss { s.toss with dead := true, pass := if y = x then s.toss.pass else some (y, beat s + 1, 4) } s)))) := by
  subst hy
  unfold Machine.bridgeLost
  rw [hholder]
  exact if_pos ⟨hbridge, hpg, hdead⟩

/-- A part that neither the journal nor the records nor the cores' registers hold, as the bridge's loss leaves it. -/
theorem lossTold_part {α : Type} (v : State → α) (hboot : ∀ y b, v { y with boot := b } = v y)
    (hras : ∀ y r, v { y with ras := r } = v y) (hwr : ∀ f z y, v (wr f z y) = v y) (hirq : ∀ k z y c, v (clkIrq k z y c) = v y)
    (y sl e : Nat) (s : State) : v (event 8 [y] (recContained sl 9 2 0x0901 0 [] (tossEvent e s))) = v s := by
  have hevent : ∀ z, v (event 8 [y] z) = v z := fun z => by
    unfold event
    simp only []
    split <;> exact hboot _ _
  refine (hevent _).trans ((foldl_clkIrq v _ _ _ (fun z c _ => hirq _ _ z c) _).trans ((hras _ _).trans ?_))
  exact tossEvent_part v e (fun c z => hwr _ _ z) (fun z c => hirq _ _ z c) s

theorem tossEvent_ras (e : Nat) (s : State) : (tossEvent e s).ras = s.ras :=
  tossEvent_part State.ras e (fun _ _ => wr_ras _ _ _) (fun y c => clkIrq_ras _ _ y c) s

theorem beat_tossEvent (e : Nat) (s : State) : beat (tossEvent e s) = beat s := by
  refine rd_tossEvent_ne (fun c => ?_) (fun c => fkey_ne_clerkIpPending (by decide) (by decide) c) e s
  simp only [fkey, clkBeatBeat, clerkTossEvent]
  omega

/-- The bridge heartbeat is lost with both power-goods reported (R332). -/
theorem bridgeLost_spec {s : State} {x y : Nat} (hholder : s.toss.holder = some x) (hbridge : 2 ≤ s.toss.bridge)
    (hpg : s.toss.pgLow = []) (hdead : s.toss.dead = false) (hy : y = if s.toss.northOk then 0 else x) :
    (Machine.bridgeLost s).toss.dead = true ∧ (y = x → (Machine.bridgeLost s).toss.pass = s.toss.pass) ∧
      (y ≠ x → (Machine.bridgeLost s).toss.pass = some (y, beat s + 1, 4)) ∧
      (Machine.bridgeLost s).due = s.due ++ [⟨beat s + 1, 2, .fenceHalf (1 - y)⟩] ∧
      recordedIn 2 9 2 0x0901 s (Machine.bridgeLost s) ∧ (Machine.bridgeLost s).toss.holder = s.toss.holder := by
  have htoss := lossTold_part State.toss (fun _ _ => rfl) (fun _ _ => rfl) wr_toss clkIrq_toss (1 - y) (nextSlice s) 4
    (setToss { s.toss with dead := true, pass := if y = x then s.toss.pass else some (y, beat s + 1, 4) } s)
  have hdue := lossTold_part State.due (fun _ _ => rfl) (fun _ _ => rfl) wr_due clkIrq_due (1 - y) (nextSlice s) 4
    (setToss { s.toss with dead := true, pass := if y = x then s.toss.pass else some (y, beat s + 1, 4) } s)
  rw [bridgeLost_eq hholder hbridge hpg hdead hy, addDue_toss, addDue_due, htoss, hdue]
  refine ⟨rfl, fun h => if_pos h, fun h => if_neg h, rfl, ?_, rfl⟩
  have hrec : recordedIn 2 9 2 0x0901 s (recContained (nextSlice s) 9 2 0x0901 0 [] (tossEvent 4
      (setToss { s.toss with dead := true, pass := if y = x then s.toss.pass else some (y, beat s + 1, 4) } s))) :=
    recContained_recordedIn _ _ _ _ _ _ (by rw [tossEvent_ras]; rfl) (beat_tossEvent _ _)
  exact hrec.of_ras ((addDue_ras _ _ _ _).trans (event_ras _ _ _))

theorem bridgeLost_idle {s : State} (h : s.toss.bridge < 2 ∨ s.toss.pgLow ≠ []) : Machine.bridgeLost s = s := by
  unfold Machine.bridgeLost
  split
  · exact if_neg fun hc => h.elim (fun hb => by omega) fun hp => hp hc.2.1
  · rfl

theorem event_part {α : Type} (v : State → α) (hboot : ∀ y b, v { y with boot := b } = v y) (kind : Nat) (detail : List Nat)
    (s : State) : v (event kind detail s) = v s := by
  unfold event
  simp only []
  split <;> exact hboot _ _

/-- The holder's power-good and heartbeat are both lost (R329). -/
theorem peerPowerLost_spec {s : State} {x : Nat} (hholder : s.toss.holder = some x) (hpg : x ∈ s.toss.pgLow)
    (hmiss : 1 ≤ tget 0 s.toss.misses x) (hpass : s.toss.pass = none) :
    (Machine.peerPowerLost s).toss.pass = some (1 - x, beat s + 1, 6) ∧
      (Machine.peerPowerLost s).due = s.due ++ [⟨beat s + 1, 2, .fenceHalf x⟩] ∧ samePart .regs s (Machine.peerPowerLost s) ∧
      (Machine.peerPowerLost s).toss.holder = some x := by
  have hlost : Machine.peerPowerLost s = addDue (beat s + 1) 2 (.fenceHalf x)
      (event 8 [x] (setToss { s.toss with pass := some (1 - x, beat s + 1, 6) } s)) := by
    unfold Machine.peerPowerLost
    rw [hholder]
    exact if_pos ⟨List.contains_iff_mem.mpr hpg, hmiss, by rw [hpass]; rfl⟩
  rw [hlost, addDue_toss, addDue_due, event_part State.toss (fun _ _ => rfl), event_part State.due (fun _ _ => rfl)]
  exact ⟨rfl, rfl, (addDue_regs _ _ _ _).trans (event_regs _ _ _), hholder⟩

theorem peerPowerLost_idle {s : State} {x : Nat} (hholder : s.toss.holder = some x) (hpg : x ∉ s.toss.pgLow) :
    Machine.peerPowerLost s = s := by
  unfold Machine.peerPowerLost
  rw [hholder]
  exact if_neg fun hc => hpg (List.contains_iff_mem.mp hc.1)

theorem i3cTimeout_spec {scl pkt : Nat} {ok : Bool} (h : 25 < scl ∨ (100 < pkt ∧ ok = false)) (s : State) :
    (i3cTimeout scl pkt ok s).chip.i3cAns = none ∧ ∀ p, p ≠ .chip → samePart p s (i3cTimeout scl pkt ok s) := by
  have htimeout : i3cTimeout scl pkt ok s = { s with chip := { s.chip with i3cAns := none } } := if_pos h
  rw [htimeout]
  refine ⟨rfl, fun p hp => ?_⟩
  cases p
  case chip => exact absurd rfl hp
  all_goals rfl

theorem addDue_others (b k : Nat) (a : Act) (s : State) : ∀ p, p ≠ .due → samePart p s (addDue b k a s) := by
  intro p hp
  cases p
  case due => exact absurd rfl hp
  all_goals rfl

/-- Settles O53: the stores to a mailbox by the party that owns it and by another, the I3C target, and the token. -/
theorem mailboxFieldsAndTheToken : Obligations.MailboxFieldsAndTheToken := by
  unfold Obligations.MailboxFieldsAndTheToken
  refine fun s => ⟨fun tag i size v _ hother c hc => ?_, fun i hi hen hstate => ?_, fun i hi hen hstate => ?_,
    fun i v hi hen hstate hv => ?_, fun i v hi hen h => ?_, fun i v hi hen => ⟨?_, ?_⟩, fun i v hi hen => ?_,
    fun code args hdown => ?_, fun code args hup hno => ?_, fun code args hup hserves hbusy => ?_,
    fun code args hup hserves hbusy hfree => ⟨_, rfl, mctpRequest_free code args hup hserves hbusy hfree⟩,
    fun scl pkt ok h => ⟨_, rfl, i3cTimeout_spec h s⟩, fun scl pkt h => congrArg Host.Outcome.next (if_neg ?_),
    fun x b e hpass hb hx _ => ⟨_, rfl, passToken_spec hpass hb hx⟩, fun hpass => ⟨_, congrArg Host.Outcome.next (if_pos ?_), rfl,
      addDue_others _ _ _ s⟩, fun hpass => congrArg Host.Outcome.next (if_neg ?_),
    fun x y hholder _ hbridge hpg hdead hy => ⟨_, rfl, bridgeLost_spec hholder hbridge hpg hdead hy⟩,
    fun h => congrArg Host.Outcome.next (bridgeLost_idle h),
    fun x hholder hpg hmiss hpass => ⟨_, rfl, peerPowerLost_spec hholder hpg hmiss hpass⟩,
    fun x hholder hpg => congrArg Host.Outcome.next (peerPowerLost_idle hholder hpg)⟩
  · rcases List.mem_cons.1 hc with rfl | hc
    · exact ⟨_, congrArg Host.Outcome.next (mbxStore_refused _ _ _ hother), refuseWindow_spec s _ _⟩
    · rcases List.mem_cons.1 hc with rfl | hc
      · exact ⟨_, congrArg Host.Outcome.next (mbxStore_refused _ _ _ hother), refuseWindow_spec s _ _⟩
      · obtain rfl := List.mem_singleton.1 hc
        exact ⟨_, congrArg Host.Outcome.next (mbxStore_refused _ _ _ hother), refuseWindow_spec s _ _⟩
  · exact ⟨_, congrArg Host.Outcome.next ((mbxStore_owner _ _ _ hi hen).trans (pageWrite_doorbell i s)),
      ownDoorbell_spec s i hi hstate⟩
  · exact ⟨_, congrArg Host.Outcome.next ((mbxStore_owner _ _ _ hi hen).trans (pageWrite_doorbell i s)), ownDoorbell_dropped hstate⟩
  · exact ⟨_, congrArg Host.Outcome.next ((mbxStore_owner _ _ _ hi hen).trans (pageWrite_ack i 8 v s)), ackResult_taken hstate hv⟩
  · exact ⟨_, congrArg Host.Outcome.next ((mbxStore_owner _ _ _ hi hen).trans (pageWrite_ack i 8 v s)), ackResult_ignored h⟩
  · exact congrArg Host.Outcome.next ((mbxStore_owner _ _ _ hi hen).trans ((pageWrite_ack i 4 v s).trans (ackResult_narrow i v s)))
  · exact congrArg Host.Outcome.next ((mbxStore_owner _ _ _ hi hen).trans ((pageWrite_notice i 4 v s).trans (ackNotice_narrow i v s)))
  · exact ⟨_, congrArg Host.Outcome.next ((mbxStore_owner _ _ _ hi hen).trans (pageWrite_notice i 8 v s)), ackNotice_spec s i v⟩
  · exact congrArg Host.Outcome.next (if_pos hdown)
  · refine ⟨_, congrArg Host.Outcome.next (((mctpRequest_eq code args s).trans (if_neg (by simp [hup]))).trans (if_pos hno)), rfl,
      setI3c_others _ s⟩
  · refine ⟨_, _, congrArg Host.Outcome.next (((mctpRequest_eq code args s).trans (if_neg (by simp [hup]))).trans
      ((if_neg (by simp [hserves])).trans (if_pos hbusy))), rfl, setI3c_others _ s⟩
  · simp [h]
  · cases hp : s.toss.pass with
    | none => exact absurd hp hpass
    | some p => rfl
  · rw [hpass]
    decide

end Sys2Proof.Machine
end

section
/-! What moving lines among the caches and to their homes writes of the registers: nothing below the slices' blocks, nothing at the
start of a page, and no count of recalls. -/
set_option Elab.async false
namespace Sys2Proof.Machine

/-- Every register field below the slices' blocks reads in t as in s: the clocks, the power domains and the pairs; so do the first
field of every page, where the slices have their state, and that at which they count the lines recalled from their victim caches. -/
def LowKept (s t : State) : Prop :=
  ∀ f : Fld, fkey f < 0x8000000 ∨ fkey f % 0x40000 = 0 ∨ fkey f % 0x40000 = 0x820 → rd t f = rd s f

theorem LowKept.rd_eq {s t : State} (h : LowKept s t) {f : Fld} (hf : fkey f < 0x8000000) : rd t f = rd s f := h f (.inl hf)

theorem LowKept.rd_start {s t : State} (h : LowKept s t) {f : Fld} (hf : fkey f % 0x40000 = 0) : rd t f = rd s f := h f (.inr (.inl hf))

theorem LowKept.recalls {s t : State} (h : LowKept s t) (n : Nat) : rd t (llcVictimRecalls n) = rd s (llcVictimRecalls n) :=
  h _ (.inr (.inr (by simp only [fkey, llcVictimRecalls]; omega)))

theorem LowKept.refl (s : State) : LowKept s s := fun _ _ => rfl

theorem LowKept.trans {s t u : State} (h : LowKept s t) (k : LowKept t u) : LowKept s u := fun f hf => (k f hf).trans (h f hf)

theorem LowKept.of_regs {s t : State} (h : t.regs = s.regs) : LowKept s t := fun f _ => rd_of_regs h f

theorem LowKept.wr {g : Fld} (hg : 0x8000000 ≤ fkey g ∧ fkey g % 0x40000 ≠ 0 ∧ fkey g % 0x40000 ≠ 0x820) (v : Nat) (s : State) : LowKept s (wr g v s) :=
  fun f hf => rd_wr_ne g f v s (by omega)

theorem LowKept.bump {g : Fld} (hg : 0x8000000 ≤ fkey g ∧ fkey g % 0x40000 ≠ 0 ∧ fkey g % 0x40000 ≠ 0x820) (n : Nat) (s : State) : LowKept s (bump g n s) := .wr hg _ s

theorem LowKept.ite {p : Prop} [Decidable p] {s t u : State} (ht : LowKept s t) (hu : LowKept s u) :
    LowKept s (if p then t else u) := by
  split
  · exact ht
  · exact hu

theorem LowKept.foldl {α : Type} {f : State → α → State} (hf : ∀ y a, LowKept y (f y a)) (l : List α) (s : State) :
    LowKept s (l.foldl f s) :=
  List.foldlRecOn (motive := LowKept s) l f (.refl s) fun y hy a _ => hy.trans (hf y a)

theorem LowKept.clkIrq (code val : Nat) (s : State) (c : Nat) : LowKept s (clkIrq code val s c) := fun f hf => by
  refine rd_clkIrq code val s c f ?_
  rw [fkey_clerkIpPending]
  unfold clkBlock
  omega

theorem LowKept.recPlatform (sl cls kind unit cause ten addr : Nat) (detail : List Nat) (s : State) :
    LowKept s (recPlatform sl cls kind unit cause ten addr detail s) := by
  refine .trans ?_ (.foldl (fun y c => .clkIrq 4 kind y c) clerkCores _)
  exact .of_regs rfl

theorem LowKept.recTenant (sl kind unit cause t addr : Nat) (detail : List Nat) (s : State) :
    LowKept s (recTenant sl kind unit cause t addr detail s) := .of_regs rfl

theorem LowKept.recContained (sl kind unit cause addr : Nat) (detail : List Nat) (s : State) :
    LowKept s (recContained sl kind unit cause addr detail s) := .recPlatform _ _ _ _ _ _ _ _ s

theorem LowKept.recVisible (sl kind unit cause : Nat) (ts : List Nat) (addr : Nat) (detail : List Nat) (uT : Nat) (dT : List Nat)
    (s : State) : LowKept s (recVisible sl kind unit cause ts addr detail uT dT s) := by
  unfold Machine.recVisible
  simp only []
  have htold : LowKept s ((ts.eraseDups.filter (· != 0)).foldl (fun a t => Machine.recTenant sl kind uT cause t addr dT a) s) :=
    .foldl (fun y t => .recTenant sl kind uT cause t addr dT y) _ s
  split
  all_goals exact htold.trans (.recPlatform _ _ _ _ _ _ _ _ _)

theorem LowKept.recCorrected (sl kind unit cause addr : Nat) (s : State) : LowKept s (recCorrected sl kind unit cause addr s) := by
  unfold Machine.recCorrected
  simp only []
  refine .ite (.trans ?_ (.recPlatform _ _ _ _ _ _ _ _ _)) ?_
  all_goals exact .of_regs rfl

/-! ### The memory's queues -/

theorem LowKept.judgePanic (c port : Nat) (s : State) : LowKept s (judgePanic c port s) := by
  have hflag : 0x8000000 ≤ fkey (panicFlag port c) ∧ fkey (panicFlag port c) % 0x40000 ≠ 0 ∧
      fkey (panicFlag port c) % 0x40000 ≠ 0x820 := by
    unfold panicFlag
    split
    all_goals
      simp only [fkey, mcRtStatusPanicFab, mcRtStatusPanicCxl]
      omega
  have hcount : 0x8000000 ≤ fkey (panicCount port c) ∧ fkey (panicCount port c) % 0x40000 ≠ 0 ∧
      fkey (panicCount port c) % 0x40000 ≠ 0x820 := by
    unfold panicCount
    split
    all_goals
      simp only [fkey, mcRtStatusPanicsFab, mcRtStatusPanicsCxl]
      omega
  unfold Machine.judgePanic
  simp only []
  split
  · split
    · exact .wr hflag 0 s
    · exact .refl s
  · split
    · exact .trans (.wr hflag 1 s) (.bump hcount 1 _)
    · exact .refl s

theorem LowKept.judgeDrain (c sub : Nat) (s : State) : LowKept s (judgeDrain c sub s) := by
  unfold Machine.judgeDrain
  split <;> exact .of_regs rfl

theorem LowKept.endDrain (c sub : Nat) (s : State) : LowKept s (endDrain c sub s) := by
  unfold Machine.endDrain
  split <;> exact .of_regs rfl

theorem LowKept.putReq (c sub : Nat) (q : DReq) (s : State) : LowKept s (putReq c sub q s) := by
  unfold Machine.putReq
  split
  · exact .of_regs rfl
  · split
    · refine .trans ?_ (.judgePanic _ _ _)
      exact .of_regs rfl
    · refine .trans ?_ (.judgeDrain _ _ _)
      exact .of_regs rfl

theorem LowKept.admitOutside (c sub : Nat) (s : State) : LowKept s (admitOutside c sub s) := by
  refine .foldl (fun y q => ?_) _ s
  split
  · refine .trans ?_ (.putReq _ _ _ _)
    exact .of_regs rfl
  · exact .refl y

theorem unqueue_sealed_regs (b : Bool) (c sub : Nat) (q : DReq) (s : State) :
    (if b then setSealedQ c sub q.tag ((sealedOf s c sub q.tag).erase q) s else s).regs = s.regs := by
  cases b <;> rfl

theorem LowKept.unqueue (c sub : Nat) (q : DReq) (s : State) : LowKept s (unqueue c sub q s) := by
  unfold Machine.unqueue
  simp only []
  have hregs := unqueue_sealed_regs (sealedPath s c sub q) c sub q
    (setOutside c sub ((outsideOf (setQueue c sub ((queueOf s c sub).erase q) s) c sub).erase q)
      (setQueue c sub ((queueOf s c sub).erase q) s))
  generalize (if sealedPath s c sub q = true then _ else _) = y at hregs ⊢
  have hy : LowKept s y := .of_regs hregs
  split
  · refine .trans ?_ (.judgePanic _ _ _)
    exact hy.trans (.of_regs rfl)
  · exact hy

theorem LowKept.dequeue (c sub : Nat) (q : DReq) (s : State) : LowKept s (dequeue c sub q s) :=
  .trans (.unqueue c sub q s) (.trans (.endDrain c sub _) (.admitOutside c sub _))

theorem LowKept.dropFixes (line : Nat) (s : State) : LowKept s (dropFixes line s) := by
  unfold Machine.dropFixes
  split
  · exact .foldl (fun y c => .foldl (fun z q => .dequeue _ _ q z) _ y) _ s
  · exact .refl s

theorem LowKept.enqueue (c sub : Nat) (q : DReq) (s : State) : LowKept s (enqueue c sub q s) := by
  unfold Machine.enqueue
  simp only []
  split
  · refine .trans ?_ (.putReq _ _ _ _)
    exact .of_regs rfl
  · exact .of_regs rfl

theorem LowKept.deliver (q : DReq) (v : Option Nat) (s : State) : LowKept s (deliver q v s) := by
  unfold Machine.deliver
  split
  · exact .refl s
  · split
    · exact .of_regs rfl
    · split
      · unfold deliverLent
        split <;> exact .of_regs rfl
      · exact .of_regs rfl

theorem LowKept.takeReq (k : Coord) (q : DReq) (s : State) : LowKept s (takeReq k q s) := by
  unfold Machine.takeReq
  simp only []
  split
  · have hlost : LowKept s (lostLine (nextSlice s) k.chan q.line q.tag s) := by
      unfold lostLine readRecord
      exact .recVisible _ _ _ _ _ _ _ _ _ s
    split
    · exact hlost
    · exact hlost.trans (.deliver q none _)
  · refine .trans ?_ (.enqueue _ _ _ _)
    split
    · refine .trans (.dropFixes q.line s) (.of_regs ?_)
      exact setMem_regs _ _
    · exact .refl s

theorem LowKept.dramWrite (how : WrHow) (line tag data : Nat) (poison : Bool) (s : State) :
    LowKept s (dramWrite how line tag data poison s) := by
  unfold Machine.dramWrite
  split
  · exact .takeReq _ _ s
  · exact .refl s

/-! ### Packets and refusals -/

theorem LowKept.sendPkt (p : Pkt) (s : State) : LowKept s (sendPkt p s) :=
  .of_regs ((SentFrom.sendPkt p s).part State.regs fun _ _ _ => rfl)

theorem LowKept.sendOut (o : Out) (s : State) : LowKept s (sendOut o s) := by
  unfold Machine.sendOut
  simp only []
  split
  · refine .trans ?_ (.sendPkt _ _)
    exact .of_regs rfl
  · exact .of_regs rfl

theorem LowKept.refuseGranule (kind unit pa tag : Nat) (s : State) : LowKept s (refuseGranule kind unit pa tag s) := by
  unfold Machine.refuseGranule recRefusal
  simp only []
  refine .trans ?_ (.recPlatform _ _ _ _ _ _ _ _ _)
  exact .of_regs rfl

theorem LowKept.refuseLine (pa tag : Nat) (s : State) : LowKept s (refuseLine pa tag s) := by
  unfold Machine.refuseLine
  simp only []
  split
  · exact .refuseGranule _ _ _ _ s
  · refine .trans (.refuseGranule _ _ _ _ s) (.bump ?_ 1 _)
    simp only [fkey, portRefusedRefused, portBase]
    omega

theorem LowKept.writeBack (how : WrHow) (tag line data : Nat) (poison : Bool) (s : State) :
    LowKept s (writeBack how tag line data poison s) := by
  unfold Machine.writeBack
  split
  · split
    · exact .dramWrite _ _ _ _ _ s
    · exact .refuseLine _ _ s
  · exact .sendOut _ s

/-! ### Slices -/

theorem LowKept.putSlice (n : Nat) (r : Slice) (s : State) : LowKept s (putSlice n r s) := by
  have hset : LowKept s (setSlice n r s) := .of_regs (setSlice_regs n r s)
  unfold Machine.putSlice
  simp only []
  refine .ite (.trans (.trans (.trans (.trans hset (.wr ?_ _ _)) (.wr ?_ _ _)) (.wr ?_ _ _)) (.wr ?_ _ _))
    (.trans (.trans hset (.wr ?_ _ _)) (.wr ?_ _ _))
  all_goals
    simp only [fkey, llcVictimOccupancy, llcAmqOccupancy, llcDrainLinesLeft, llcDrainVictimsLeft]
    omega

theorem LowKept.rowErrors (n row : Nat) (s : State) : LowKept s (rowErrors n row s) := by
  unfold Machine.rowErrors
  refine .ite (.ite (.bump ?_ _ s) (.bump ?_ _ s)) (.ite (.bump ?_ _ s) (.bump ?_ _ s))
  all_goals
    simp only [fkey, llcErrCountDataCe, llcErrCountDataUe, llcErrCountTagErr, llcErrCountDirErr]
    omega

theorem LowKept.rowLast (n row line way tag : Nat) (s : State) : LowKept s (rowLast n row line way tag s) := by
  refine .trans (.trans (.trans (.trans (.wr ?_ _ s) (.wr ?_ _ _)) (.wr ?_ _ _)) (.wr ?_ _ _)) (.wr ?_ _ _)
  all_goals
    simp only [fkey, llcErrLastSet, llcErrLastWay, llcErrLastTenancy, llcErrLastKind, llcErrLastBeat]
    omega

end Sys2Proof.Machine
end

section
/-! What stands of the mailboxes while lines move: a command stays where it is. -/
set_option Elab.async false
namespace Sys2Proof.Machine

/-- A notice enters the queue of its mailbox alone. -/
theorem notify_phase (x kind i : Nat) (payload : List (Nat × Nat × Nat)) (s : State) :
    (mbxOf (notify x kind payload s) i).phase = (mbxOf s i).phase := by
  by_cases h : i = x
  · subst h
    have hbox : mbxOf (notify i kind payload s) i = _ := setMbx_mbxOf_same _ _ _
    rw [hbox]
  · exact congrArg Mbx.phase (setMbx_mbxOf_ne _ _ _ _ h)

/-- No mailbox's command changes its phase. -/
def PhaseKept (s t : State) : Prop := ∀ i, (mbxOf t i).phase = (mbxOf s i).phase

variable {s t u : State}

theorem PhaseKept.refl (s : State) : PhaseKept s s := fun _ => rfl

theorem PhaseKept.trans (h : PhaseKept s t) (k : PhaseKept t u) : PhaseKept s u := fun i => (k i).trans (h i)

theorem PhaseKept.of_mbx (h : t.mbx = s.mbx) : PhaseKept s t := fun i => by rw [mbxOf, mbxOf, h]

theorem PhaseKept.ite (p : Prop) [Decidable p] (ht : PhaseKept s t) (hu : PhaseKept s u) : PhaseKept s (if p then t else u) := by
  split
  · exact ht
  · exact hu

theorem PhaseKept.recTenant (sl kind unit cause x addr : Nat) (detail : List Nat) (s : State) :
    PhaseKept s (Machine.recTenant sl kind unit cause x addr detail s) := fun _ => notify_phase _ _ _ _ _

theorem PhaseKept.recPlatform (sl cls kind unit cause ten addr : Nat) (detail : List Nat) (s : State) :
    PhaseKept s (Machine.recPlatform sl cls kind unit cause ten addr detail s) :=
  .of_mbx ((recPlatform_keeps sl cls kind unit cause ten addr detail s (keeps_refl _ s) (Nat.or_self _)).part .mbx rfl)

theorem PhaseKept.recVisible (sl kind unit cause : Nat) (ts : List Nat) (addr : Nat) (detail : List Nat) (uT : Nat) (dT : List Nat)
    (s : State) : PhaseKept s (Machine.recVisible sl kind unit cause ts addr detail uT dT s) := by
  unfold Machine.recVisible
  dsimp only
  have hfold : PhaseKept s ((ts.eraseDups.filter (· != 0)).foldl (fun a x => Machine.recTenant sl kind uT cause x addr dT a) s) :=
    List.foldlRecOn (motive := fun y => PhaseKept s y) _ _ (.refl s) fun y hy x _ => hy.trans (.recTenant _ _ _ _ _ _ _ _)
  split <;> exact hfold.trans (.recPlatform _ _ _ _ _ _ _ _ _)

theorem takeReq_write (k : Coord) {q : DReq} (hq : q.write = true) (s : State) : takeReq k q s =
    if (copies s k.chan).all fun x => partFenced s x k then lostLine (nextSlice s) k.chan q.line q.tag s
    else enqueue (takingChan (forgetReads q.line (dropFixes q.line s)) k q) k.sub q (forgetReads q.line (dropFixes q.line s)) := by
  unfold takeReq
  simp only [hq, if_true]

theorem PhaseKept.takeReq (k : Coord) {q : DReq} (hq : q.write = true) (s : State) : PhaseKept s (Machine.takeReq k q s) := by
  rw [takeReq_write k hq]
  split
  · unfold lostLine readRecord
    exact .recVisible _ _ _ _ _ _ _ _ _ _
  · have hdrop : (forgetReads q.line (dropFixes q.line s)).mbx = s.mbx :=
      (dropFixes_keeps q.line s (keeps_refl _ s) (Nat.or_self _)).part .mbx rfl
    generalize forgetReads q.line (dropFixes q.line s) = y at hdrop
    exact .of_mbx (((enqueue_keeps _ _ _ y (keeps_refl _ y) (Nat.or_self _)).part .mbx rfl).trans hdrop)

theorem PhaseKept.dramWrite (how : WrHow) (line tag data : Nat) (poison : Bool) (s : State) :
    PhaseKept s (Machine.dramWrite how line tag data poison s) := by
  unfold Machine.dramWrite
  split
  · exact .takeReq _ rfl s
  · exact .refl s

theorem PhaseKept.writeBack (how : WrHow) (tag line data : Nat) (poison : Bool) (s : State) :
    PhaseKept s (writeBack how tag line data poison s) := by
  unfold Machine.writeBack
  refine .ite _ (.ite _ (.dramWrite _ _ _ _ _ s) (.of_mbx ?_)) (.of_mbx ?_)
  · exact (refuseLine_keeps _ tag s (keeps_refl _ s) (Nat.or_self _)).part .mbx rfl
  · exact (sendOut_keeps _ s (keeps_refl _ s) (Nat.or_self _)).part .mbx rfl

end Sys2Proof.Machine
end

section
/-! What moving lines among the caches and to their homes leaves of a core and of a hart: lines leave an L2, and reservations end. -/
set_option Elab.async false
namespace Sys2Proof.Machine

/-- t is s after lines moved: the registers below the slices' blocks stand, a hart may have lost its reservation, a core some of its
lines. -/
structure CacheMoved (s t : State) : Prop where
  low : LowKept s t
  hart : ∀ h, hartOf t h = hartOf s h ∨ hartOf t h = { hartOf s h with resv := none, wrs := .none }
  core : ∀ c, ∃ l2 l1i l1d, coreOf t c = { coreOf s c with l2 := l2, l1i := l1i, l1d := l1d } ∧ ∀ e ∈ l2, e ∈ (coreOf s c).l2
  pairs : t.pairs = s.pairs
  phase : PhaseKept s t

theorem CacheMoved.of_parts {s t : State} (hlow : LowKept s t) (hharts : t.harts = s.harts) (hcores : t.cores = s.cores)
    (hpairs : t.pairs = s.pairs) (hphase : PhaseKept s t) : CacheMoved s t where
  low := hlow
  hart h := .inl (by rw [hartOf, hartOf, hharts])
  core c := ⟨(coreOf s c).l2, (coreOf s c).l1i, (coreOf s c).l1d, by rw [coreOf, coreOf, hcores], fun _ he => he⟩
  pairs := hpairs
  phase := hphase

theorem CacheMoved.refl (s : State) : CacheMoved s s := .of_parts (.refl s) rfl rfl rfl (.refl s)

theorem CacheMoved.trans {s t u : State} (h : CacheMoved s t) (k : CacheMoved t u) : CacheMoved s u where
  low := h.low.trans k.low
  hart j := by
    rcases h.hart j with h1 | h1 <;> rcases k.hart j with k1 | k1
    · exact .inl (k1.trans h1)
    · exact .inr (k1.trans (by rw [h1]))
    · exact .inr (k1.trans h1)
    · exact .inr (k1.trans (by rw [h1]))
  core c := by
    obtain ⟨l, i, d, hc, hl⟩ := h.core c
    obtain ⟨l', i', d', kc, kl⟩ := k.core c
    refine ⟨l', i', d', by rw [kc, hc], fun e he => ?_⟩
    have hmem := kl e he
    rw [hc] at hmem
    exact hl e hmem
  pairs := k.pairs.trans h.pairs
  phase := h.phase.trans k.phase

theorem CacheMoved.ite {p : Prop} [Decidable p] {s t u : State} (ht : CacheMoved s t) (hu : CacheMoved s u) :
    CacheMoved s (if p then t else u) := by
  split
  · exact ht
  · exact hu

theorem CacheMoved.foldl {α : Type} {f : State → α → State} (hf : ∀ y a, CacheMoved y (f y a)) (l : List α) (s : State) :
    CacheMoved s (l.foldl f s) :=
  List.foldlRecOn (motive := CacheMoved s) l f (.refl s) fun y hy a _ => hy.trans (hf y a)

theorem tfind_eq_none {α : Type} {l : Table α} {k : Nat} : tfind l k = none ↔ ∀ e ∈ l, e.1 ≠ k := by
  induction l with
  | nil => simp [tfind]
  | cons e r ih =>
    rw [tfind, List.forall_mem_cons]
    by_cases hk : e.1 = k
    · simp [hk]
    · simp [hk, ih]

/-- No line enters an L2. -/
theorem CacheMoved.l2Of_none {s t : State} (h : CacheMoved s t) {c line : Nat} (hnone : l2Of s c line = none) :
    l2Of t c line = none := by
  obtain ⟨l, i, d, hc, hl⟩ := h.core c
  rw [l2Of, hc]
  exact tfind_eq_none.mpr fun e he => tfind_eq_none.mp hnone e (hl e he)

/-! ### Each operation moves lines only so -/

theorem CacheMoved.setSlice (n : Nat) (r : Slice) (s : State) : CacheMoved s (setSlice n r s) :=
  .of_parts (.of_regs (setSlice_regs n r s)) (setSlice_harts n r s) (setSlice_cores n r s) (setSlice_pairs n r s) (.of_mbx (setSlice_mbx n r s))

theorem CacheMoved.freeNext (s : State) : CacheMoved s (freeNext s) :=
  .of_parts (.of_regs (freeNext_regs s)) (freeNext_harts s) (freeNext_cores s) (freeNext_pairs s) (.of_mbx (freeNext_mbx s))

theorem CacheMoved.putSlice (n : Nat) (r : Slice) (s : State) : CacheMoved s (putSlice n r s) := by
  have hk := putSlice_keeps n r s (keeps_refl _ s) (Nat.or_self _)
  exact .of_parts (.putSlice n r s) (hk.part .harts rfl) (hk.part .cores rfl) (hk.part .pairs rfl) (.of_mbx (hk.part .mbx rfl))

theorem CacheMoved.writeHome (tag line data : Nat) (poison : Bool) (s : State) : CacheMoved s (writeHome tag line data poison s) := by
  have hk := writeBack_keeps .plain tag line data poison s (keeps_refl _ s) (Nat.or_self _)
  exact .of_parts (.writeBack .plain tag line data poison s) (hk.part .harts rfl) (hk.part .cores rfl) (hk.part .pairs rfl) (.writeBack _ _ _ _ _ _)

theorem CacheMoved.sendOut (o : Out) (s : State) : CacheMoved s (sendOut o s) := by
  have hk := sendOut_keeps o s (keeps_refl _ s) (Nat.or_self _)
  exact .of_parts (.sendOut o s) (hk.part .harts rfl) (hk.part .cores rfl) (hk.part .pairs rfl) (.of_mbx (hk.part .mbx rfl))

theorem CacheMoved.recContained (sl kind unit cause addr : Nat) (detail : List Nat) (s : State) :
    CacheMoved s (recContained sl kind unit cause addr detail s) := by
  have hk := recContained_keeps sl kind unit cause addr detail s (keeps_refl _ s) (Nat.or_self _)
  exact .of_parts (.recContained _ _ _ _ _ _ s) (hk.part .harts rfl) (hk.part .cores rfl) (hk.part .pairs rfl) (.of_mbx (hk.part .mbx rfl))

theorem CacheMoved.recCorrected (sl kind unit cause addr : Nat) (s : State) :
    CacheMoved s (recCorrected sl kind unit cause addr s) := by
  have hk := recCorrected_keeps sl kind unit cause addr s (keeps_refl _ s) (Nat.or_self _)
  exact .of_parts (.recCorrected _ _ _ _ _ s) (hk.part .harts rfl) (hk.part .cores rfl) (hk.part .pairs rfl) (.of_mbx (hk.part .mbx rfl))

theorem CacheMoved.recVisible (sl kind unit cause : Nat) (ts : List Nat) (addr : Nat) (detail : List Nat) (uT : Nat) (dT : List Nat)
    (s : State) : CacheMoved s (recVisible sl kind unit cause ts addr detail uT dT s) := by
  have hk := recVisible_keeps sl kind unit cause ts addr detail uT dT s (keeps_refl _ s) (Nat.or_self _)
  exact .of_parts (.recVisible _ _ _ _ _ _ _ _ _ s) (hk.part .harts rfl) (hk.part .cores rfl) (hk.part .pairs rfl) (.recVisible _ _ _ _ _ _ _ _ _ _)

theorem CacheMoved.putArr (n line : Nat) (l : SLine) (s : State) : CacheMoved s (putArr n line l s) := .putSlice n _ s

theorem CacheMoved.dropArr (n line : Nat) (s : State) : CacheMoved s (dropArr n line s) := .putSlice n _ s

theorem CacheMoved.putDir (n line : Nat) (e : DirEnt) (s : State) : CacheMoved s (putDir n line e s) := .setSlice n _ s

theorem CacheMoved.sliceFault (n row way : Nat) (ts : List Nat) (s : State) : CacheMoved s (sliceFault n row way ts s) :=
  .setSlice n _ s

theorem CacheMoved.armErrors (n : Nat) (l : SLine) (s : State) : CacheMoved s (armErrors n l s).1 := by
  unfold Machine.armErrors
  simp only []
  split
  · exact .setSlice n _ s
  · exact .refl s

theorem CacheMoved.evictNotice (n line tag : Nat) (s : State) : CacheMoved s (evictNotice n line tag s) := by
  unfold Machine.evictNotice
  exact .ite (.refl s) (.sendOut _ s)

theorem mem_of_mem_tdel {α : Type} {l : Table α} {k : Nat} {e : Nat × α} (h : e ∈ tdel l k) : e ∈ l ∧ e.1 ≠ k := by
  induction l with
  | nil => exact absurd h List.not_mem_nil
  | cons a r ih =>
    obtain ⟨j, u⟩ := a
    rw [tdel] at h
    by_cases hj : j = k
    · rw [if_pos hj] at h
      exact ⟨List.mem_cons_of_mem _ (ih h).1, (ih h).2⟩
    · rw [if_neg hj] at h
      rcases List.mem_cons.1 h with rfl | h
      · exact ⟨List.mem_cons_self, hj⟩
      · exact ⟨List.mem_cons_of_mem _ (ih h).1, (ih h).2⟩

/-- A core without a line. -/
def withoutLine (line : Nat) (c : Core) : Core :=
  { c with l2 := tdel c.l2 line, l1i := c.l1i.filter (· != line), l1d := c.l1d.filter (· != line) }

/-- The reservation that a line's leaving ends. -/
def endResv (core line : Nat) (s : State) : State :=
  match hartOfCore s (core / 2) (core % 2) with
  | some h => if (hartOf s h).resv = some line then setHart h { hartOf s h with resv := none, wrs := .none } s else s
  | none => s

theorem dropL2_eq (core line : Nat) (s : State) :
    dropL2 core line s = endResv core line (setCore core (withoutLine line (coreOf s core)) s) := rfl

theorem CacheMoved.setHart (h : Nat) (s : State) :
    CacheMoved s (setHart h { hartOf s h with resv := none, wrs := .none } s) where
  low := .of_regs (setHart_regs _ _ _)
  hart j := by
    by_cases hj : j = h
    · subst hj
      exact .inr (setHart_hartOf_same _ _ _)
    · exact .inl (setHart_hartOf_ne _ _ _ _ hj)
  core c := ⟨(coreOf s c).l2, (coreOf s c).l1i, (coreOf s c).l1d, rfl, fun _ he => he⟩
  pairs := setHart_pairs _ _ _
  phase := .of_mbx (setHart_mbx _ _ _)

theorem CacheMoved.endResv (core line : Nat) (s : State) : CacheMoved s (endResv core line s) := by
  unfold Machine.endResv
  split
  · exact .ite (.setHart _ s) (.refl s)
  · exact .refl s

theorem CacheMoved.setCore (core line : Nat) (s : State) :
    CacheMoved s (setCore core (withoutLine line (coreOf s core)) s) where
  low := .of_regs (setCore_regs _ _ _)
  hart _ := .inl rfl
  core c := by
    by_cases hc : c = core
    · subst hc
      exact ⟨_, _, _, setCore_coreOf_same _ _ _, fun e he => (mem_of_mem_tdel he).1⟩
    · exact ⟨_, _, _, setCore_coreOf_ne _ _ _ _ hc, fun _ he => he⟩
  pairs := setCore_pairs _ _ _
  phase := .of_mbx (setCore_mbx _ _ _)

theorem CacheMoved.dropL2 (core line : Nat) (s : State) : CacheMoved s (dropL2 core line s) := by
  rw [dropL2_eq]
  exact .trans (.setCore core line s) (.endResv core line _)

theorem CacheMoved.takeBack (n line : Nat) (keep : Option Nat) (s : State) : CacheMoved s (takeBack n line keep s).1 := by
  unfold Machine.takeBack
  split
  · exact .refl s
  · simp only []
    have hdrop := fun l => CacheMoved.foldl (fun y c => .dropL2 c line y) l s
    exact (hdrop _).trans (.putDir n line _ _)

theorem CacheMoved.backInvalidate (n set : Nat) (s : State) : CacheMoved s (backInvalidate n set s) := by
  refine .foldl (fun y e => ?_) _ s
  have hback := CacheMoved.takeBack n e.1 none y
  generalize Machine.takeBack n e.1 none y = b at hback ⊢
  obtain ⟨b, d⟩ := b
  cases d with
  | none => exact hback
  | some v => exact hback.trans (.trans (.dropArr n e.1 b) (.writeHome _ _ _ _ _))

theorem CacheMoved.correctLine (n line : Nat) (s : State) : CacheMoved s (correctLine n line s) := by
  unfold Machine.correctLine
  split
  · exact .putArr n line _ s
  · exact .setSlice n _ s

theorem CacheMoved.rowMet (n row0 row line way tag : Nat) (s : State) :
    CacheMoved s (rowLast n row line way tag (rowErrors n row0 s)) := by
  refine .trans (.of_parts (.rowErrors n row0 s) ?_ ?_ ?_ (.of_mbx ?_)) (.of_parts (.rowLast n row line way tag _) rfl rfl rfl (.of_mbx rfl))
  all_goals
    unfold rowErrors
    split_ifs <;> rfl

/-- What an array error of a row does beside its count and the record of the last one, from state y; s is the state of the lookup. -/
def rowAct (n line row way : Nat) (l : SLine) (s y : State) : State :=
  match row with
  | 1 => Machine.recCorrected (nextSlice s) 2 n 0x0201 0 (Machine.correctLine n line y)
  | 2 => Machine.recContained (nextSlice s) 2 n 0x0202 0 [way] (Machine.dropArr n line y)
  | 3 => Machine.recVisible (nextSlice s) 2 n 0x0203 [l.tag] (line * 64) [way] n [way]
      (Machine.writeHome l.tag line 0 true (Machine.dropArr n line y))
  | 4 => Machine.recContained (nextSlice s) 2 n 0x0204 0 [way] (Machine.dropArr n line y)
  | 5 => Machine.sliceFault n 5 way [l.tag] (Machine.dropArr n line y)
  | 6 => Machine.recCorrected (nextSlice s) 2 n 0x0206 0 y
  | 7 =>
    Machine.sliceFault n 7 way (if ((partTenants s n).filter fun t => inMask (rd s (llcPartWayMask n t)) way).isEmpty then
      liveTenants s |>.filter (fun t => !isSealed s t) else (partTenants s n).filter fun t => inMask (rd s (llcPartWayMask n t)) way)
      (Machine.dropArr n line y)
  | 8 => Machine.recCorrected (nextSlice s) 2 n 0x0208 0 y
  | 9 => if lastSlice s n ∧ rd s (llcStatusState n) = 2 then Machine.backInvalidate n (dirSetOf line) y
    else Machine.sliceFault n 9 0 [] (Machine.backInvalidate n (dirSetOf line) y)
  | _ => s

theorem arrayError_eq (n line tag row : Nat) (s : State) : ∃ l way, arrayError n line tag row s =
    rowAct n line (rowOf row l.dirty) way l s
      (rowLast n (rowOf row l.dirty) line way l.tag (rowErrors n (rowOf row l.dirty) s)) :=
  ⟨_, _, rfl⟩

theorem CacheMoved.rowAct (n line row way : Nat) (l : SLine) {s y : State} (h : CacheMoved s y) :
    CacheMoved s (rowAct n line row way l s y) := by
  have hdrop : CacheMoved s (Machine.dropArr n line y) := h.trans (.dropArr n line y)
  unfold Machine.rowAct
  split
  · exact (h.trans (.correctLine n line y)).trans (.recCorrected _ _ _ _ _ _)
  · exact hdrop.trans (.recContained _ _ _ _ _ _ _)
  · exact (hdrop.trans (.writeHome _ _ _ _ _)).trans (.recVisible _ _ _ _ _ _ _ _ _ _)
  · exact hdrop.trans (.recContained _ _ _ _ _ _ _)
  · exact hdrop.trans (.sliceFault _ _ _ _ _)
  · exact h.trans (.recCorrected _ _ _ _ _ _)
  · exact hdrop.trans (.sliceFault _ _ _ _ _)
  · exact h.trans (.recCorrected _ _ _ _ _ _)
  · have hback := h.trans (.backInvalidate n (dirSetOf line) y)
    exact .ite hback (hback.trans (.sliceFault _ _ _ _ _))
  · exact .refl s

theorem CacheMoved.arrayError (n line tag row : Nat) (s : State) : CacheMoved s (arrayError n line tag row s) := by
  obtain ⟨l, way, heq⟩ := arrayError_eq n line tag row s
  rw [heq]
  exact .rowAct n line _ way l (.rowMet n _ _ line way l.tag s)

theorem CacheMoved.readHeld (n line : Nat) (s : State) : CacheMoved s (readHeld n line s) := by
  unfold Machine.readHeld
  simp only []
  split
  · exact .refl s
  · exact .arrayError _ _ _ _ s

theorem CacheMoved.ageVictim (n : Nat) (s : State) : CacheMoved s (ageVictim n s) := by
  unfold Machine.ageVictim
  split
  · refine .ite (.refl s) ?_
    simp only []
    split
    · refine .ite (.trans ?_ (.writeHome _ _ _ _ _)) (.trans ?_ (.evictNotice _ _ _ _))
      all_goals exact (CacheMoved.readHeld n _ s).trans (.putSlice n _ _)
    · exact .readHeld n _ s
  · exact .refl s

theorem CacheMoved.toVictim (n line : Nat) (l : SLine) (s : State) : CacheMoved s (toVictim n line l s) :=
  .trans (.ageVictim n s) (.putSlice n _ _)

theorem CacheMoved.displace (n line : Nat) (l : SLine) (s : State) : CacheMoved s (displace n line l s) :=
  .trans (.dropArr n line s) (.ite (.ite (.writeHome _ _ _ _ _) (.refl _)) (.toVictim _ _ _ _))

/-- The line in the way that another is to take is read. -/
def readOccupant (n line w : Nat) (s : State) : State :=
  match occupant s n line w with
  | some (k, _) => Machine.readHeld n k s
  | none => s

/-- It leaves its way. -/
def moveOccupant (n line w : Nat) (s : State) : State :=
  match occupant s n line w with
  | some (k, o) => Machine.displace n k o s
  | none => s

theorem intoWay_eq (n line w : Nat) (l : SLine) (s : State) : intoWay n line w l s =
    Machine.putArr n line (Machine.armErrors n { l with way := w } (moveOccupant n line w (readOccupant n line w s))).2
      (Machine.armErrors n { l with way := w } (moveOccupant n line w (readOccupant n line w s))).1 := rfl

theorem CacheMoved.readOccupant (n line w : Nat) (s : State) : CacheMoved s (readOccupant n line w s) := by
  unfold Machine.readOccupant
  split
  · exact .readHeld _ _ s
  · exact .refl s

theorem CacheMoved.moveOccupant (n line w : Nat) (s : State) : CacheMoved s (moveOccupant n line w s) := by
  unfold Machine.moveOccupant
  split
  · exact .displace _ _ _ s
  · exact .refl s

theorem CacheMoved.intoWay (n line w : Nat) (l : SLine) (s : State) : CacheMoved s (intoWay n line w l s) := by
  rw [intoWay_eq]
  exact (((CacheMoved.readOccupant n line w s).trans (.moveOccupant n line w _)).trans (.armErrors n _ _)).trans (.putArr n line _ _)

theorem CacheMoved.writeThrough (n line : Nat) (l : SLine) (s : State) :
    CacheMoved s (if l.dirty then Machine.writeHome l.tag line l.data l.poison (Machine.dropArr n line s) else s) :=
  .ite (.trans (.dropArr n line s) (.writeHome _ _ _ _ _)) (.refl s)

theorem CacheMoved.placeLine (n line : Nat) (l : SLine) (s : State) : CacheMoved s (placeLine n line l s) := by
  unfold Machine.placeLine
  split
  · exact (CacheMoved.armErrors n _ s).trans (.putArr n line _ _)
  · simp only []
    refine .ite (.writeThrough n line l s) ?_
    split
    · exact .intoWay _ _ _ _ s
    · split
      · exact .intoWay _ _ _ _ s
      · split
        · exact .trans (.freeNext s) (.intoWay _ _ _ _ _)
        · exact .writeThrough n line l s

theorem CacheMoved.keepDirty (n line tag : Nat) (d : Option (Nat × Bool)) (s : State) : CacheMoved s (keepDirty n line tag d s) := by
  unfold Machine.keepDirty
  split
  · exact .placeLine _ _ _ s
  · exact .refl s

/-- A core leaves a line's directory entry. -/
def leaveDir (core line : Nat) (tag : Nat) (s : State) : State :=
  match dirOf s (homeSlice s tag line) line with
  | some d => Machine.putDir (homeSlice s tag line) line { d with cores := d.cores.filter (· != core) } s
  | none => s

theorem CacheMoved.leaveDir (core line tag : Nat) (s : State) : CacheMoved s (leaveDir core line tag s) := by
  unfold Machine.leaveDir
  split
  · exact .putDir _ _ _ s
  · exact .refl s

/-- A line of a core's L2 is given up by a drain. -/
def drainOne (core : Nat) (bad : List Nat) (s : State) (e : Nat × CLine) : State :=
  if e.2.st = .m then
    (if bad.contains e.1 then Machine.writeHome e.2.tag e.1 0 true (Machine.dropL2 core e.1 (leaveDir core e.1 e.2.tag s))
    else Machine.keepDirty (homeSlice s e.2.tag e.1) e.1 e.2.tag (some (e.2.data, e.2.poison))
      (Machine.dropL2 core e.1 (leaveDir core e.1 e.2.tag s)))
  else Machine.dropL2 core e.1 (leaveDir core e.1 e.2.tag s)

theorem drainBad_eq (core : Nat) (bad : List Nat) (s : State) : drainBad core bad s = (coreOf s core).l2.foldl (drainOne core bad) s := rfl

theorem drainCore_eq (core : Nat) (s : State) : (drainCore core s).1 = (coreOf s core).l2.foldl (drainOne core []) s := rfl

theorem CacheMoved.drainOne (core : Nat) (bad : List Nat) (s : State) (e : Nat × CLine) : CacheMoved s (drainOne core bad s e) := by
  have hdrop := CacheMoved.trans (.leaveDir core e.1 e.2.tag s) (.dropL2 core e.1 _)
  exact .ite (.ite (hdrop.trans (.writeHome _ _ _ _ _)) (hdrop.trans (.keepDirty _ _ _ _ _))) hdrop

/-- A drained line is no longer in its core. -/
theorem drainOne_gone (core : Nat) (bad : List Nat) (s : State) (e : Nat × CLine) : l2Of (drainOne core bad s e) core e.1 = none := by
  have hgone : l2Of (Machine.dropL2 core e.1 (Machine.leaveDir core e.1 e.2.tag s)) core e.1 = none := by
    rw [dropL2_eq]
    refine (CacheMoved.endResv core e.1 _).l2Of_none ?_
    rw [l2Of, setCore_coreOf_same]
    exact tfind_eq_none.mpr fun a ha => (mem_of_mem_tdel ha).2
  unfold Machine.drainOne
  split
  · split
    · exact (CacheMoved.writeHome _ _ _ _ _).l2Of_none hgone
    · exact (CacheMoved.keepDirty _ _ _ _ _).l2Of_none hgone
  · exact hgone

theorem CacheMoved.drainBad (core : Nat) (bad : List Nat) (s : State) : CacheMoved s (drainBad core bad s) := by
  rw [drainBad_eq]
  exact .foldl (fun y e => .drainOne core bad y e) _ s

/-- A drain leaves no line in the L2. -/
theorem drainBad_l2 (core : Nat) (bad : List Nat) (s : State) : (coreOf (drainBad core bad s) core).l2 = [] := by
  have hnone : ∀ e ∈ (coreOf s core).l2, l2Of (drainBad core bad s) core e.1 = none := fun e he => by
    rw [drainBad_eq]
    exact foldl_reaches (P := fun y => l2Of y core e.1 = none)
      (fun y b hy => (CacheMoved.drainOne core bad y b).l2Of_none hy) (fun y => drainOne_gone core bad y e) he s
  obtain ⟨l, i, d, hc, hl⟩ := (CacheMoved.drainBad core bad s).core core
  refine List.eq_nil_iff_forall_not_mem.mpr fun e he => ?_
  have hmem : e ∈ (coreOf s core).l2 := hl e (by rw [hc] at he; exact he)
  exact tfind_eq_none.mp (hnone e hmem) e he rfl

end Sys2Proof.Machine
end

section
/-! Errors of checked pairs and of split cores: the freeze, the latch and the fence (R84, R88, R91, R105, R108, R109, R436). -/
set_option Elab.async false
namespace Sys2Proof.Machine

theorem fkey_errFld (p core kind : Nat) : fkey (errFld p core kind) =
    (0x100000 + p * 0x1000 + (if core = 0 then 0x30 else 0x38)) * 64 + min kind 8 := by
  match kind with
  | 0 | 1 | 2 | 3 | 4 | 5 | 6 | 7 =>
    unfold errFld
    simp only []
    split <;> rfl
  | k + 8 =>
    unfold errFld
    simp only []
    rw [Nat.min_eq_right (Nat.le_add_left _ _)]
    split <;> rfl

theorem errFld_w (p core kind : Nat) : (errFld p core kind).w = 1 := by
  match kind with
  | 0 | 1 | 2 | 3 | 4 | 5 | 6 | 7 =>
    unfold errFld
    simp only []
    split <;> rfl
  | k + 8 =>
    unfold errFld
    simp only []
    split <;> rfl

theorem fkey_failedFld (p core : Nat) : fkey (failedFld p core) =
    (0x100000 + p * 0x1000) * 64 + (if core = 0 then 12 else 13) := by
  unfold failedFld
  split <;> rfl

theorem failedFld_w (p core : Nat) : (failedFld p core).w = 1 := by
  unfold failedFld
  split <;> rfl

theorem rd_wr_one {f : Fld} (h : f.w = 1) (s : State) : rd (wr f 1 s) f = 1 := by
  rw [rd_wr_same, h]
  rfl

/-! ### The freeze of a pair -/

/-- What a freeze leaves of its pair's sequence. -/
def frozenPair (q : Pair) : Pair :=
  { q with libero := none, survivor := none, doomed := false, single := false, images := [], inbound := [], digestBad := 0, resumeAt := none }

/-- The hart of a pair that freezes stops, and its reservation ends. -/
def frozenHart (p : Nat) (s : State) : State :=
  setHart (2 * rd s (pairStatusSlot p)) { hartOf s (2 * rd s (pairStatusSlot p)) with st := .frozen, resv := none, wrs := .none } s

/-- A pair that freezes, before the Clerk cores are told. -/
def frozenRegs (p bus bit cause : Nat) (s : State) : State :=
  wr (pairStatusState p) 5 (wr (pairCmpStatusMismatch p) 1 (wr (pairCmpStatusBus p) bus (wr (pairCmpStatusBit p) bit
    (wr (pairCmpStatusCause p) cause (wr (pairCmpBeatBeat p) (beat s) (bump (pairCountMismatches p) 1
      (wr (pairDecisionStep p) 0 (wr (pairDecisionOutcome p) 0 (wr (pairDecisionPass p) 0
        (modPair p frozenPair (frozenHart p s)))))))))))

section
variable {p : Nat} (bus bit cause : Nat) {s : State} (h : rd s (pairStatusState p) = 3)
include h

theorem freeze_eq : freeze p bus bit cause s = clerkCores.foldl (clkIrq 3 p) (frozenRegs p bus bit cause s) := if_pos h

theorem rd_freeze {f : Fld} (hf : fkey f < 0x8000000) : rd (freeze p bus bit cause s) f = rd (frozenRegs p bus bit cause s) f := by
  rw [freeze_eq bus bit cause h]
  exact LowKept.foldl (fun y c => .clkIrq 3 p y c) clerkCores _ f (.inl hf)

theorem freeze_part {α : Type} (v : State → α) (hv : ∀ y c, v (clkIrq 3 p y c) = v y) :
    v (freeze p bus bit cause s) = v (frozenRegs p bus bit cause s) := by
  rw [freeze_eq bus bit cause h]
  exact foldl_clkIrq v _ _ _ (fun y c _ => hv y c) _

theorem hartOf_freeze (k : Nat) : hartOf (freeze p bus bit cause s) k = hartOf (frozenHart p s) k :=
  freeze_part bus bit cause h (hartOf · k) fun y c => congrArg (fun m => tget ({} : Hart) m k)
    ((clkIrq_keeps 3 p y c (keeps_refl _ y) (Nat.or_self _)).part .harts rfl)

theorem pairOf_freeze : pairOf (freeze p bus bit cause s) p = frozenPair (pairOf s p) := by
  refine (freeze_part bus bit cause h (pairOf · p) fun y c => congrArg (fun m => tget ({} : Pair) m p)
    ((clkIrq_keeps 3 p y c (keeps_refl _ y) (Nat.or_self _)).part .pairs rfl)).trans ?_
  exact tget_tset_same _ _ _ _

end

/-- What a freeze shows in the pair's block, where the place of the field is below the slices'. -/
theorem rd_frozenRegs_ne {p : Nat} {f : Fld} (bus bit cause : Nat) (s : State)
    (h : ∀ g ∈ [pairStatusState p, pairCmpStatusMismatch p, pairCmpStatusBus p, pairCmpStatusBit p, pairCmpStatusCause p,
      pairCmpBeatBeat p, pairCountMismatches p, pairDecisionStep p, pairDecisionOutcome p, pairDecisionPass p], fkey f ≠ fkey g) :
    rd (frozenRegs p bus bit cause s) f = rd s f := by
  simp only [List.forall_mem_cons, List.not_mem_nil, false_implies, implies_true, and_true] at h
  obtain ⟨h1, h2, h3, h4, h5, h6, h7, h8, h9, h10⟩ := h
  unfold frozenRegs
  rw [rd_wr_ne _ _ _ _ h1, rd_wr_ne _ _ _ _ h2, rd_wr_ne _ _ _ _ h3, rd_wr_ne _ _ _ _ h4, rd_wr_ne _ _ _ _ h5,
    rd_wr_ne _ _ _ _ h6, rd_bump_ne _ _ _ _ h7, rd_wr_ne _ _ _ _ h8, rd_wr_ne _ _ _ _ h9, rd_wr_ne _ _ _ _ h10]
  rfl

theorem rd_frozenRegs (p bus bit cause : Nat) (s : State) : rd (frozenRegs p bus bit cause s) (pairStatusState p) = 5 ∧
    rd (frozenRegs p bus bit cause s) (pairCmpStatusMismatch p) = 1 ∧
    rd (frozenRegs p bus bit cause s) (pairCmpStatusBus p) = bus % 8 ∧
    rd (frozenRegs p bus bit cause s) (pairCmpStatusBit p) = bit % 512 ∧
    rd (frozenRegs p bus bit cause s) (pairCmpStatusCause p) = cause % 8 ∧
    rd (frozenRegs p bus bit cause s) (pairCmpBeatBeat p) = beat s % 2 ^ 64 ∧
    counted (pairCountMismatches p) 1 s (frozenRegs p bus bit cause s) := by
  unfold frozenRegs counted
  refine ⟨rd_wr_same _ _ _, ?_, ?_, ?_, ?_, ?_, ?_⟩
  · rw [rd_wr_ne _ _ _ _ (by simp only [fkey, pairStatusState, pairCmpStatusMismatch]; omega), rd_wr_same]
    rfl
  · rw [rd_wr_ne _ _ _ _ (by simp only [fkey, pairStatusState, pairCmpStatusBus]; omega),
      rd_wr_ne _ _ _ _ (by simp only [fkey, pairCmpStatusMismatch, pairCmpStatusBus]; omega), rd_wr_same]
    rfl
  · rw [rd_wr_ne _ _ _ _ (by simp only [fkey, pairStatusState, pairCmpStatusBit]; omega),
      rd_wr_ne _ _ _ _ (by simp only [fkey, pairCmpStatusMismatch, pairCmpStatusBit]; omega),
      rd_wr_ne _ _ _ _ (by simp only [fkey, pairCmpStatusBus, pairCmpStatusBit]; omega), rd_wr_same]
    rfl
  · rw [rd_wr_ne _ _ _ _ (by simp only [fkey, pairStatusState, pairCmpStatusCause]; omega),
      rd_wr_ne _ _ _ _ (by simp only [fkey, pairCmpStatusMismatch, pairCmpStatusCause]; omega),
      rd_wr_ne _ _ _ _ (by simp only [fkey, pairCmpStatusBus, pairCmpStatusCause]; omega),
      rd_wr_ne _ _ _ _ (by simp only [fkey, pairCmpStatusBit, pairCmpStatusCause]; omega), rd_wr_same]
    rfl
  · rw [rd_wr_ne _ _ _ _ (by simp only [fkey, pairStatusState, pairCmpBeatBeat]; omega),
      rd_wr_ne _ _ _ _ (by simp only [fkey, pairCmpStatusMismatch, pairCmpBeatBeat]; omega),
      rd_wr_ne _ _ _ _ (by simp only [fkey, pairCmpStatusBus, pairCmpBeatBeat]; omega),
      rd_wr_ne _ _ _ _ (by simp only [fkey, pairCmpStatusBit, pairCmpBeatBeat]; omega),
      rd_wr_ne _ _ _ _ (by simp only [fkey, pairCmpStatusCause, pairCmpBeatBeat]; omega), rd_wr_same]
    rfl
  · rw [rd_wr_ne _ _ _ _ (by simp only [fkey, pairStatusState, pairCountMismatches]; omega),
      rd_wr_ne _ _ _ _ (by simp only [fkey, pairCmpStatusMismatch, pairCountMismatches]; omega),
      rd_wr_ne _ _ _ _ (by simp only [fkey, pairCmpStatusBus, pairCountMismatches]; omega),
      rd_wr_ne _ _ _ _ (by simp only [fkey, pairCmpStatusBit, pairCountMismatches]; omega),
      rd_wr_ne _ _ _ _ (by simp only [fkey, pairCmpStatusCause, pairCountMismatches]; omega),
      rd_wr_ne _ _ _ _ (by simp only [fkey, pairCmpBeatBeat, pairCountMismatches]; omega), rd_bump_same,
      rd_wr_ne _ _ _ _ (by simp only [fkey, pairDecisionStep, pairCountMismatches]; omega),
      rd_wr_ne _ _ _ _ (by simp only [fkey, pairDecisionOutcome, pairCountMismatches]; omega),
      rd_wr_ne _ _ _ _ (by simp only [fkey, pairDecisionPass, pairCountMismatches]; omega)]
    rfl

/-- The place of a field of a pair's block. -/
theorem pair_low {p off lo : Nat} (hp : p < 136) (hoff : off ≤ 0x50) (hlo : lo < 64) :
    (0x100000 + p * 0x1000 + off) * 64 + lo < 0x8000000 := by omega

/-- A checked pair freezes: its block, its hart, and no other hart (R91). -/
theorem freeze_spec {p : Nat} (hp : p < 136) (bus bit cause : Nat) {s : State} (h : rd s (pairStatusState p) = 3) :
    rd (freeze p bus bit cause s) (pairStatusState p) = 5 ∧ rd (freeze p bus bit cause s) (pairCmpStatusMismatch p) = 1 ∧
      rd (freeze p bus bit cause s) (pairCmpStatusBus p) = bus % 8 ∧ rd (freeze p bus bit cause s) (pairCmpStatusBit p) = bit % 512 ∧
      rd (freeze p bus bit cause s) (pairCmpStatusCause p) = cause % 8 ∧
      rd (freeze p bus bit cause s) (pairCmpBeatBeat p) = beat s % 2 ^ 64 ∧
      counted (pairCountMismatches p) 1 s (freeze p bus bit cause s) ∧
      (hartOf (freeze p bus bit cause s) (2 * rd s (pairStatusSlot p))).st = .frozen ∧
      (hartOf (freeze p bus bit cause s) (2 * rd s (pairStatusSlot p))).resv = none ∧
      (hartOf (freeze p bus bit cause s) (2 * rd s (pairStatusSlot p))).x = (hartOf s (2 * rd s (pairStatusSlot p))).x ∧
      otherHarts (2 * rd s (pairStatusSlot p)) s (freeze p bus bit cause s) := by
  obtain ⟨hstate, hmis, hbus, hbit, hcause, hbeat, hcount⟩ := rd_frozenRegs p bus bit cause s
  have hrd : ∀ f : Fld, fkey f < 0x8000000 → rd (freeze p bus bit cause s) f = rd (frozenRegs p bus bit cause s) f :=
    fun f hf => rd_freeze bus bit cause h hf
  have hhart : hartOf (freeze p bus bit cause s) (2 * rd s (pairStatusSlot p)) =
      { hartOf s (2 * rd s (pairStatusSlot p)) with st := .frozen, resv := none, wrs := .none } :=
    (hartOf_freeze bus bit cause h _).trans (setHart_hartOf_same _ _ _)
  refine ⟨(hrd _ ?_).trans hstate, (hrd _ ?_).trans hmis, (hrd _ ?_).trans hbus, (hrd _ ?_).trans hbit, (hrd _ ?_).trans hcause,
    (hrd _ ?_).trans hbeat, (hrd _ ?_).trans hcount, ?_, ?_, ?_, fun k hk => ?_⟩
  case refine_8 => rw [hhart]
  case refine_9 => rw [hhart]
  case refine_10 => rw [hhart]
  case refine_11 => exact (hartOf_freeze bus bit cause h k).trans (setHart_hartOf_ne _ _ _ _ hk)
  all_goals
    simp only [fkey, pairStatusState, pairCmpStatusMismatch, pairCmpStatusBus, pairCmpStatusBit, pairCmpStatusCause, pairCmpBeatBeat,
      pairCountMismatches]
    omega

/-! ### What a comparator sees of a write -/

/-- The pair of a hart is one of the 136. -/
theorem pairOfHart_lt {s : State} {h p : Nat} (hp : pairOfHart s h = some p) : p < 136 := by
  unfold pairOfHart pairOfSlot at hp
  exact List.mem_range.mp (List.mem_of_find?_eq_some hp)

theorem presentWrite_armed {s : State} {h p : Nat} (g : State → State) (hp : pairOfHart s h = some p) (harmed : invertArmed s p = true) :
    presentWrite h g s = freeNext (freeze p 1 (freeVal 288 s) 1 (modPair p (fun q => { q with invert := false }) s)) := by
  unfold presentWrite
  rw [hp]
  exact if_pos harmed

theorem presentPair_unarmed {s : State} {p : Nat} (g : State → State) (h : invertArmed s p = false) : presentPair p g s = g s :=
  if_neg (by simp [h])

/-- An inverted bit that is presented freezes the pair, and what would have been written is not (R109). -/
theorem presentPair_comparedBad {s : State} {p : Nat} (g : State → State) (hp : p < 136) (harmed : invertArmed s p = true) :
    rd (presentPair p g s) (pairStatusState p) = 5 ∧ rd (presentPair p g s) (pairCmpStatusBus p) = 1 ∧
      (pairOf (presentPair p g s) p).invert = false ∧
      (hartOf (presentPair p g s) (2 * rd s (pairStatusSlot p))).st = .frozen ∧ sameL2 s (presentPair p g s) ∧
      samePart .slices s (presentPair p g s) ∧ samePart .mem s (presentPair p g s) ∧ samePart .outs s (presentPair p g s) := by
  have hstate : rd (modPair p (fun q => { q with invert := false }) s) (pairStatusState p) = 3 := by
    simp only [invertArmed, Bool.and_eq_true, beq_iff_eq] at harmed
    exact harmed.2
  have hpres : presentPair p g s = freeNext (freeze p 1 (freeVal 288 s) 1 (modPair p (fun q => { q with invert := false }) s)) :=
    if_pos harmed
  rw [hpres]
  generalize freeVal 288 s = bit
  obtain ⟨hst, -, hbus, -, -, -, -, hhart, -, -, -⟩ := freeze_spec hp 1 bit 1 hstate
  have hk := freeze_keeps p 1 bit 1 (modPair p (fun q => { q with invert := false }) s) (keeps_refl _ _) (Nat.or_self _)
  refine ⟨hst, hbus, ?_, hhart, fun c line => ?_, hk.part .slices rfl, hk.part .mem rfl, hk.part .outs rfl⟩
  · have hpair := pairOf_freeze 1 bit 1 hstate
    have hmod : pairOf (modPair p (fun q => { q with invert := false }) s) p = { pairOf s p with invert := false } :=
      tget_tset_same _ _ _ _
    show (pairOf (freeze p 1 bit 1 (modPair p (fun q => { q with invert := false }) s)) p).invert = false
    rw [hpair, hmod]
    rfl
  · exact congrArg (fun m => tfind (tget ({} : Core) m c).l2 line) (hk.part .cores rfl)

/-! ### Errors of the arrays -/

/-- The lines whose loss an array error brings are chosen by the next free choices alone. -/
theorem badLinesOf_parts (core kind : Nat) (s : State) : ∀ g : Part, g ≠ .freeCtr → samePart g s (badLinesOf core kind s).1 := by
  intro g hg
  unfold badLinesOf
  split
  · refine List.foldlRecOn (motive := fun y : State × List Nat => samePart g s y.1) _ _ (by cases g <;> rfl) fun y hy e _ => ?_
    cases g
    case freeCtr => exact absurd rfl hg
    all_goals exact hy
  · cases g <;> rfl

/-- An array error of a core whose pair neither is checked nor split is latched, and no more. -/
theorem arrayFault_eq (p core : Nat) {kind : Nat} (hk : kind ≤ 8) (s : State) : ∃ bad, arrayFault p core kind s =
    (if rd s (pairStatusState p) = 3 then freeze p 0 0 (if core = 0 then 2 else 3) (wr (errFld p core kind) 1 s)
    else if rd s (pairStatusState p) = 2 then splitError p core kind bad (badLinesOf (2 * p + core) kind (wr (errFld p core kind) 1 s)).1
    else if rd s (pairStatusState p) = 4 ∧ (pairOf s p).survivor = some core then
      fenceHartDue p 0x0105 (beat s) 0xB (setHart (2 * rd s (pairStatusSlot p))
        { hartOf (badLinesOf (2 * p + core) kind (wr (errFld p core kind) 1 s)).1 (2 * rd s (pairStatusSlot p)) with st := .frozen }
        (wr (failedFld p core) 1 (drainBad (2 * p + core) bad (badLinesOf (2 * p + core) kind (wr (errFld p core kind) 1 s)).1)))
    else wr (errFld p core kind) 1 s) :=
  ⟨(badLinesOf (2 * p + core) kind (wr (errFld p core kind) 1 s)).2, if_neg (by omega)⟩

/-- The hart of a split core in error as it is fenced. -/
def splitFenced (p core kind : Nat) (bad : List Nat) (h : Nat) (s : State) : State :=
  setHart h { blankHart (hartOf (drainBad (p * 2 + core) bad (wr (errFld p core kind) 1 (wr (failedFld p core) 1 s))) h) with
      st := .fenced, fencedAt := some (beat s) }
    (drainBad (p * 2 + core) bad (wr (errFld p core kind) 1 (wr (failedFld p core) 1 s)))

theorem splitError_eq {p core kind h : Nat} (bad : List Nat) {s : State} (hstate : rd s (pairStatusState p) = 2) (hk : kind ≤ 8)
    (hh : hartOfCore s p core = some h) (hst : (hartOf s h).st ≠ .fenced) : splitError p core kind bad s =
      event 2 [1, p, 0x0105] (showPair p (recVisible (nextSlice s) 1 p 0x0105 [ownerOf s h] 0 (hartDetail h) h []
        (splitFenced p core kind bad h s))) := by
  unfold splitError
  rw [if_pos ⟨hstate, hk⟩, hh]
  exact if_neg hst

theorem showPair_part {α : Type} (v : State → α) (p : Nat) (hv : ∀ x y, v (wr (pairStatusState p) x y) = v y) (s : State) :
    v (showPair p s) = v s := by
  unfold showPair
  simp only []
  split
  · split
    · exact hv _ _
    · rfl
  · rfl

/-- How the fence of a split core's hart is told leaves a part that neither a record nor the pair's state shows. -/
theorem splitTold_part {α : Type} (v : State → α) (p h : Nat) (s y : State) (hboot : ∀ z b, v { z with boot := b } = v z)
    (hstate : ∀ x z, v (wr (pairStatusState p) x z) = v z)
    (hrec : ∀ sl ts uT z, v (recVisible sl 1 p 0x0105 ts 0 (hartDetail h) uT [] z) = v z) :
    v (event 2 [1, p, 0x0105] (showPair p (recVisible (nextSlice s) 1 p 0x0105 [ownerOf s h] 0 (hartDetail h) h [] y))) = v y :=
  (event_part v hboot _ _ _).trans ((showPair_part v p hstate _).trans (hrec _ _ _ _))

/-- The hart of a split core in error is fenced, its core drained and marked (R88, R105, R108). -/
theorem splitError_spec {p core kind h : Nat} (hp : p < 136) (hc : core < 2) (bad : List Nat) {s : State}
    (hstate : rd s (pairStatusState p) = 2) (hk : kind ≤ 8) (hh : hartOfCore s p core = some h) (hst : (hartOf s h).st ≠ .fenced) :
    (hartOf (splitError p core kind bad s) h).st = .fenced ∧ rd (splitError p core kind bad s) (errFld p core kind) = 1 ∧
      rd (splitError p core kind bad s) (failedFld p core) = 1 ∧ (coreOf (splitError p core kind bad s) (p * 2 + core)).l2 = [] := by
  have hmoved := CacheMoved.drainBad (p * 2 + core) bad (wr (errFld p core kind) 1 (wr (failedFld p core) 1 s))
  have herr := fkey_errFld p core kind
  have hfail := fkey_failedFld p core
  have hvis := fun sl ts uT z => CacheMoved.recVisible sl 1 p 0x0105 ts 0 (hartDetail h) uT [] z
  have hparts := fun sl ts uT z => recVisible_keeps sl 1 p 0x0105 ts 0 (hartDetail h) uT [] z (keeps_refl _ z) (Nat.or_self _)
  have hrd : ∀ f : Fld, fkey f < 0x8000000 → fkey f ≠ fkey (pairStatusState p) → rd (splitError p core kind bad s) f =
      rd (wr (errFld p core kind) 1 (wr (failedFld p core) 1 s)) f := fun f hf hne => by
    rw [splitError_eq bad hstate hk hh hst]
    refine (splitTold_part (rd · f) p h s _ (fun _ _ => rfl) (fun x z => rd_wr_ne _ _ _ _ hne)
      fun sl ts uT z => (hvis sl ts uT z).low.rd_eq hf).trans ?_
    exact hmoved.low.rd_eq hf
  refine ⟨?_, (hrd _ ?_ ?_).trans (rd_wr_one (errFld_w p core kind) _), (hrd _ ?_ ?_).trans ?_, ?_⟩
  · rw [splitError_eq bad hstate hk hh hst, splitTold_part (hartOf · h) p h s _ (fun _ _ => rfl) (fun x z => rfl)
      fun sl ts uT z => congrArg (fun m => tget ({} : Hart) m h) ((hparts sl ts uT z).part .harts rfl), splitFenced,
      setHart_hartOf_same]
  · rw [herr]
    split <;> omega
  · rw [herr]
    simp only [fkey, pairStatusState]
    split <;> omega
  · rw [hfail]
    split <;> omega
  · rw [hfail]
    simp only [fkey, pairStatusState]
    split <;> omega
  · rw [rd_wr_ne _ _ _ _ (by rw [herr, hfail]; split <;> omega)]
    exact rd_wr_one (failedFld_w p core) s
  · rw [splitError_eq bad hstate hk hh hst, splitTold_part (fun y => (coreOf y (p * 2 + core)).l2) p h s _ (fun _ _ => rfl)
      (fun x z => rfl) fun sl ts uT z => congrArg (fun m => (tget ({} : Core) m (p * 2 + core)).l2) ((hparts sl ts uT z).part .cores rfl)]
    exact drainBad_l2 _ _ _

/-- An array error is latched; it freezes a checked pair, and marks the survivor of one whose sparing has ended in its drain. -/
theorem arrayFault_latched {p core kind : Nat} (hp : p < 136) (hc : core < 2) (hk : kind ≤ 8) {s : State}
    (hne : rd s (pairStatusState p) ≠ 2) : rd (arrayFault p core kind s) (errFld p core kind) = 1 ∧
      (rd s (pairStatusState p) = 3 → rd (arrayFault p core kind s) (pairStatusState p) = 5 ∧
        rd (arrayFault p core kind s) (pairCmpStatusCause p) = 2 + core) ∧
      (rd s (pairStatusState p) = 4 → (pairOf s p).survivor = some core → rd (arrayFault p core kind s) (failedFld p core) = 1 ∧
        (hartOf (arrayFault p core kind s) (2 * rd s (pairStatusSlot p))).st = .frozen ∧
        (⟨beat s + 1, 2, .fenceHart p 0x0105 (beat s) 0xB⟩ : Due) ∈ (arrayFault p core kind s).due) := by
  have herr := fkey_errFld p core kind
  have hfail := fkey_failedFld p core
  have hone := rd_wr_one (errFld_w p core kind) s
  obtain ⟨bad, heq⟩ := arrayFault_eq p core hk s
  by_cases h3 : rd s (pairStatusState p) = 3
  · rw [heq, if_pos h3]
    have hstate : rd (wr (errFld p core kind) 1 s) (pairStatusState p) = 3 := by
      rw [rd_wr_ne _ _ _ _ (by rw [herr]; simp only [fkey, pairStatusState]; split <;> omega), h3]
    obtain ⟨hst, -, -, -, hcause, -⟩ := freeze_spec hp 0 0 (if core = 0 then 2 else 3) hstate
    refine ⟨?_, fun _ => ⟨hst, hcause.trans ?_⟩, fun h4 => by omega⟩
    · rw [rd_freeze 0 0 _ hstate (by rw [herr]; split <;> omega), rd_frozenRegs_ne, hone]
      simp only [List.forall_mem_cons, List.not_mem_nil, false_implies, implies_true, and_true, herr]
      simp only [fkey, pairStatusState, pairCmpStatusMismatch, pairCmpStatusBus, pairCmpStatusBit, pairCmpStatusCause, pairCmpBeatBeat,
        pairCountMismatches, pairDecisionStep, pairDecisionOutcome, pairDecisionPass]
      split <;> omega
    · obtain rfl | rfl : core = 0 ∨ core = 1 := by omega
      all_goals rfl
  · by_cases h4 : rd s (pairStatusState p) = 4 ∧ (pairOf s p).survivor = some core
    · rw [heq, if_neg h3, if_neg hne, if_pos h4]
      have hbad := badLinesOf_parts (2 * p + core) kind (wr (errFld p core kind) 1 s) .regs (by decide)
      generalize (badLinesOf (2 * p + core) kind (wr (errFld p core kind) 1 s)).1 = y at hbad ⊢
      have hmoved := CacheMoved.drainBad (2 * p + core) bad y
      have hlow : ∀ f : Fld, fkey f < 0x8000000 → rd (drainBad (2 * p + core) bad y) f = rd (wr (errFld p core kind) 1 s) f :=
        fun f hf => (hmoved.low.rd_eq hf).trans (rd_of_regs hbad f)
      have hdue : (drainBad (2 * p + core) bad y).due = y.due :=
        (drainBad_keeps (2 * p + core) bad y (keeps_refl _ y) (Nat.or_self _)).part .due rfl
      generalize drainBad (2 * p + core) bad y = z at hlow hdue ⊢
      refine ⟨?_, fun h => absurd h h3, fun _ _ => ⟨?_, ?_, ?_⟩⟩
      · show rd (wr (failedFld p core) 1 z) (errFld p core kind) = 1
        rw [rd_wr_ne _ _ _ _ (by rw [herr, hfail]; split <;> omega), hlow _ (by rw [herr]; split <;> omega), hone]
      · exact rd_wr_one (failedFld_w p core) z
      · rw [fenceHartDue, addDue_hartOf, setHart_hartOf_same]
      · have hbeat : beat (wr (failedFld p core) 1 z) = beat s := by
          unfold beat
          rw [rd_wr_ne _ _ _ _ (by rw [hfail]; simp only [fkey, clkBeatBeat]; split <;> omega), hlow _ (by decide),
            rd_wr_ne _ _ _ _ (by rw [herr]; simp only [fkey, clkBeatBeat]; split <;> omega)]
        refine List.mem_append_right _ (List.mem_singleton.mpr ?_)
        rw [← hbeat]
        rfl
    · rw [heq, if_neg h3, if_neg hne, if_neg h4]
      exact ⟨hone, fun h => absurd h h3, fun h hs => absurd ⟨h, hs⟩ h4⟩

/-- Which hart a core runs is read of the pair's block. -/
theorem hartOfCore_congr {s t : State} {p : Nat} (hp : p < 136) (core kind : Nat) (h : t.regs = (wr (errFld p core kind) 1 s).regs) :
    hartOfCore t p core = hartOfCore s p core := by
  have hrd : ∀ f : Fld, fkey f ≠ fkey (errFld p core kind) → rd t f = rd s f := fun f hf =>
    (rd_of_regs h f).trans (rd_wr_ne _ _ _ _ hf)
  have herr := fkey_errFld p core kind
  unfold hartOfCore rdB
  rw [hrd (pairStatusSlotValid p) ?_, hrd (pairStatusSlot p) ?_, hrd (pairCtrlMode p) ?_]
  all_goals
    rw [herr]
    simp only [fkey, pairStatusSlotValid, pairStatusSlot, pairCtrlMode]
    split <;> omega

theorem arrayFault_split {p core kind h : Nat} (hp : p < 136) (hc : core < 2) (hk : kind ≤ 8) {s : State}
    (h2 : rd s (pairStatusState p) = 2) (hh : hartOfCore s p core = some h) (hst : (hartOf s h).st ≠ .fenced) :
    (hartOf (arrayFault p core kind s) h).st = .fenced := by
  obtain ⟨bad, heq⟩ := arrayFault_eq p core hk s
  rw [heq, if_neg (by omega), if_pos h2]
  have hregs := badLinesOf_parts (2 * p + core) kind (wr (errFld p core kind) 1 s) .regs (by decide)
  have hharts := badLinesOf_parts (2 * p + core) kind (wr (errFld p core kind) 1 s) .harts (by decide)
  generalize (badLinesOf (2 * p + core) kind (wr (errFld p core kind) 1 s)).1 = y at hregs hharts ⊢
  refine (splitError_spec hp hc bad ?_ hk ((hartOfCore_congr hp core kind hregs).trans hh) ?_).1
  · rw [rd_of_regs hregs, rd_wr_ne _ _ _ _ ?_, h2]
    rw [fkey_errFld]
    simp only [fkey, pairStatusState]
    split <;> omega
  · have hhart : hartOf y h = hartOf s h := congrArg (fun m => tget ({} : Hart) m h) hharts
    rw [hhart]
    exact hst

/-- A corrected error is counted (R105). -/
theorem arrayFault_corrected {kind : Nat} (p core : Nat) (hk : 8 < kind) (s : State) :
    counted (if core = 0 then pairErrlatACorrected p else pairErrlatBCorrected p) 1 s (arrayFault p core kind s) ∧
      samePart .harts s (arrayFault p core kind s) := by
  unfold arrayFault
  rw [if_pos hk]
  exact ⟨rd_bump_same _ _ _, rfl⟩

theorem injectB_spec {p : Nat} {s : State} (h : (pairOf s p).injectB.isSome = true) :
    rd (injectB p s) (pairErrlatBTest p) = 1 ∧ (pairOf (injectB p s) p).injectB = none ∧ (pairOf (injectB p s) p).invert = true ∧
      otherFields [pairErrlatBTest p] s (injectB p s) := by
  have hinject : injectB p s = wr (pairErrlatBTest p) 1 (modPair p (fun q => { q with injectB := none, invert := true }) s) := if_pos h
  have hpair : pairOf (injectB p s) p = { pairOf s p with injectB := none, invert := true } := by
    rw [hinject]
    exact tget_tset_same _ _ _ _
  rw [hpair, hinject]
  exact ⟨rd_wr_same _ _ _, rfl, rfl, ((otherFields_refl _ s).of_regs rfl).wr (by simp) _⟩

/-- Settles O23: a mismatch freezes, an array error is latched and freezes or fences, and a presented inverted bit freezes. -/
theorem pairErrorsFreezeOrFence : Obligations.PairErrorsFreezeOrFence := by
  unfold Obligations.PairErrorsFreezeOrFence
  refine fun s p hp => ⟨fun bus bit cause h => ⟨_, rfl, freeze_spec hp bus bit cause h⟩,
    fun bus bit cause h => congrArg Host.Outcome.next (if_neg h),
    fun core kind hc hk hne => ⟨_, rfl, arrayFault_latched hp hc hk hne⟩,
    fun core kind h hc hk h2 hh hst => ⟨_, rfl, arrayFault_split hp hc hk h2 hh hst⟩,
    fun core kind hk => ⟨_, rfl, arrayFault_corrected p core hk s⟩, fun h => ⟨_, rfl, injectB_spec h⟩,
    fun h g hh hinv hstate q hq => ?_, fun h g hh hno => ?_,
    fun core kind bad h hc hk h2 hh hst => ⟨_, rfl, splitError_spec hp hc bad h2 hk hh hst⟩,
    fun m hvalid hm => ⟨_, congrArg Host.Outcome.next (if_pos ⟨hvalid, hm⟩), rfl⟩⟩
  · obtain rfl : p = q := Option.some.inj (hh.symm.trans hq)
    have harmed : invertArmed s p = true := by simp [invertArmed, hinv, hstate]
    have hpres : presentWrite h g s = presentPair p g s := by
      unfold presentWrite
      rw [hh]
    rw [hpres]
    exact presentPair_comparedBad g hp harmed
  · have hpres : presentWrite h g s = presentPair p g s := by
      unfold presentWrite
      rw [hh]
    rw [hpres]
    refine presentPair_unarmed g ?_
    rcases hno with hno | hno
    · simp [invertArmed, hno]
    · simp [invertArmed, hno]

end Sys2Proof.Machine
end

section
/-! What counting an event or a retired instruction changes of a hart: its counters, and the overflow that may become pending (R79). -/
set_option Elab.async false
namespace Sys2Proof.Machine

/-- r is hart q after events were counted: its counters moved, and nothing that was pending is lost. -/
def CountedHart (q r : Hart) : Prop :=
  ∃ csr pend, r = { q with csr := csr, pend := pend } ∧ (∀ n, counterCsr n = false → tget 0 csr n = tget 0 q.csr n) ∧
    ∀ x ∈ q.pend, x ∈ pend

theorem CountedHart.refl (q : Hart) : CountedHart q q := ⟨q.csr, q.pend, rfl, fun _ _ => rfl, fun _ h => h⟩

theorem CountedHart.trans {q r u : Hart} (h : CountedHart q r) (k : CountedHart r u) : CountedHart q u := by
  obtain ⟨csr, pend, rfl, hcsr, hpend⟩ := h
  obtain ⟨csr', pend', rfl, hcsr', hpend'⟩ := k
  exact ⟨csr', pend', rfl, fun n hn => (hcsr' n hn).trans (hcsr n hn), fun x hx => hpend' x (hpend x hx)⟩

/-- t is s with events counted at hart h. -/
structure HartCounted (h : Nat) (s t : State) : Prop where
  hart : CountedHart (hartOf s h) (hartOf t h)
  others : otherHarts h s t
  rest : ∃ m, t = { s with harts := m }

theorem HartCounted.refl (h : Nat) (s : State) : HartCounted h s s := ⟨.refl _, fun _ _ => rfl, s.harts, rfl⟩

theorem HartCounted.trans {h : Nat} {s t u : State} (a : HartCounted h s t) (b : HartCounted h t u) : HartCounted h s u := by
  obtain ⟨m, ht⟩ := a.rest
  obtain ⟨n, hu⟩ := b.rest
  exact ⟨a.hart.trans b.hart, fun k hk => (b.others k hk).trans (a.others k hk), n, by rw [hu, ht]⟩

/-- A part of the state other than the harts stands. -/
theorem HartCounted.part {α : Type} {h : Nat} {s t : State} (a : HartCounted h s t) (v : State → α)
    (hv : ∀ y m, v { y with harts := m } = v y) : v t = v s := by
  obtain ⟨m, rfl⟩ := a.rest
  exact hv s m

theorem HartCounted.setHart {h : Nat} {s : State} {r : Hart} (hr : CountedHart (hartOf s h) r) : HartCounted h s (setHart h r s) where
  hart := by rw [setHart_hartOf_same]; exact hr
  others k hk := setHart_hartOf_ne _ _ _ _ hk
  rest := ⟨_, rfl⟩

theorem HartCounted.setCsr {n : Nat} (hn : counterCsr n = true) (h v : Nat) (s : State) : HartCounted h s (setCsr h n v s) := by
  refine .setHart ⟨_, (hartOf s h).pend, rfl, fun k hk => tget_tset_ne _ _ _ _ _ ?_, fun _ hx => hx⟩
  rintro rfl
  exact absurd (hn.symm.trans hk) (by decide)

theorem counterCsr_count {k : Nat} (hk : k < 16) : counterCsr (0xB03 + k) = true ∧ counterCsr (0x323 + k) = true := by
  simp only [counterCsr, Bool.or_eq_true, Bool.and_eq_true, decide_eq_true_eq]
  omega

theorem HartCounted.overflow {k : Nat} (hk : k < 16) (h : Nat) (s : State) : HartCounted h s (overflow h k s) := by
  unfold Machine.overflow
  simp only []
  split
  · exact .refl h s
  · have hcsr := HartCounted.setCsr (counterCsr_count hk).2 h (csrOf s h (0x323 + k) + 2 ^ 63) s
    refine hcsr.trans (.setHart ⟨(hartOf _ h).csr, _, rfl, fun _ _ => rfl, fun x hx => ?_⟩)
    exact List.mem_eraseDups.mpr (List.mem_append_left _ hx)

theorem HartCounted.countN (h code n : Nat) (s : State) : HartCounted h s (countN h code n s) := by
  unfold Machine.countN
  split
  · exact .refl h s
  · refine List.foldlRecOn (motive := HartCounted h s) _ _ (.refl h s) fun y hy k hk => hy.trans ?_
    have hk16 : k < 16 := List.mem_range.mp hk
    simp only []
    split
    · have hcount : HartCounted h y (addCsr h (0xB03 + k) n y).1 := .setCsr (counterCsr_count hk16).1 h _ y
      split
      · exact hcount.trans (.overflow hk16 h _)
      · exact hcount
    · exact .refl h y

theorem HartCounted.countEvent (h code : Nat) (s : State) : HartCounted h s (countEvent h code s) := .countN h code 1 s

theorem HartCounted.countInst (h : Nat) (s : State) : HartCounted h s (countInst h s) := by
  have hevent := HartCounted.countEvent h 0x0010 s
  unfold Machine.countInst
  simp only []
  split
  · exact hevent
  · exact hevent.trans (.setCsr (by decide) h _ _)

/-- What the statements call the rest of a hart stands, its waits apart. -/
theorem CountedHart.rest {q r : Hart} (h : CountedHart q r) : r.pc = q.pc ∧ r.priv = q.priv ∧ r.x = q.x ∧ r.fp = q.fp ∧ r.vec = q.vec ∧
    r.resv = q.resv ∧ r.exc = q.exc ∧ r.wrs = q.wrs ∧ r.wfi = q.wfi ∧ r.access = q.access := by
  obtain ⟨csr, pend, rfl, -, -⟩ := h
  exact ⟨rfl, rfl, rfl, rfl, rfl, rfl, rfl, rfl, rfl, rfl⟩

theorem HartCounted.csrsKept {h : Nat} {s t : State} (a : HartCounted h s t) : csrsKept h s t := fun n hn => by
  obtain ⟨csr, pend, hr, hcsr, -⟩ := a.hart
  rw [hr]
  exact hcsr n hn

theorem HartCounted.hartRest {h : Nat} {s t : State} (a : HartCounted h s t) : hartRest h s t := by
  obtain ⟨hpc, hpriv, -, hfp, hvec, hresv, hexc, -⟩ := a.hart.rest
  exact ⟨hpc, hpriv, hfp, hvec, hresv, hexc, a.csrsKept⟩

/-- A CSR reads what its own number and the PMP configuration hold. -/
theorem csrOf_congr {h m : Nat} {s t : State} (hchip : t.chip = s.chip)
    (hm : tget 0 (hartOf t h).csr m = tget 0 (hartOf s h).csr m)
    (hcfg : ∀ k < 64, tget 0 (hartOf t h).csr (0x3A0 + k / 8 * 2) = tget 0 (hartOf s h).csr (0x3A0 + k / 8 * 2)) :
    csrOf t h m = csrOf s h m := by
  have hgrain : ∀ v, pmpGrain (hartOf t h) m v = pmpGrain (hartOf s h) m v := fun v => by
    unfold pmpGrain
    by_cases hr : 0x3B0 ≤ m ∧ m < 0x3F0
    · rw [if_pos hr, if_pos hr, pmpMode, pmpMode, hcfg (m - 0x3B0) (by omega)]
    · rw [if_neg hr, if_neg hr]
  unfold csrOf
  rw [hchip, hm, hgrain]

theorem counterCsr_cfg {k : Nat} (hk : k < 64) : counterCsr (0x3A0 + k / 8 * 2) = false := by
  simp only [counterCsr, Bool.or_eq_false_iff, Bool.and_eq_false_iff, decide_eq_false_iff_not]
  omega

/-- A CSR that is no counter reads as before. -/
theorem csrOf_of_kept {h m : Nat} {s t : State} (hchip : t.chip = s.chip) (hkept : csrsKept h s t) (hm : counterCsr m = false) :
    csrOf t h m = csrOf s h m :=
  csrOf_congr hchip (hkept m hm) fun _ hk => hkept _ (counterCsr_cfg hk)

/-! ### Discarding what was begun ahead, and an exception (R64, R66, R73) -/

/-- t is s with what hart h's cores had begun ahead of it discarded. -/
structure Flushed (h : Nat) (s t : State) : Prop where
  hart : CountedHart (hartOf s h) (hartOf t h)
  others : otherHarts h s t
  rest : ∃ m c r d, t = { s with harts := m, cores := c, mem := { s.mem with reads := r, held := d } }
  core : ∀ c, ∃ q b i, coreOf t c = { coreOf s c with missQ := q, badFills := b, hints := i }

theorem Flushed.refl (h : Nat) (s : State) : Flushed h s s :=
  ⟨.refl _, fun _ _ => rfl, ⟨s.harts, s.cores, s.mem.reads, s.mem.held, rfl⟩, fun c => ⟨_, _, _, rfl⟩⟩

theorem Flushed.trans {h : Nat} {s t u : State} (a : Flushed h s t) (b : Flushed h t u) : Flushed h s u where
  hart := a.hart.trans b.hart
  others k hk := (b.others k hk).trans (a.others k hk)
  rest := by
    obtain ⟨m, c, r, d, ht⟩ := a.rest
    obtain ⟨m', c', r', d', hu⟩ := b.rest
    exact ⟨m', c', r', d', by rw [hu, ht]⟩
  core c := by
    obtain ⟨q, x, i, hc⟩ := a.core c
    obtain ⟨q', x', i', hc'⟩ := b.core c
    exact ⟨q', x', i', by rw [hc', hc]⟩

theorem Flushed.of_counted {h : Nat} {s t : State} (a : HartCounted h s t) : Flushed h s t where
  hart := a.hart
  others := a.others
  rest := by
    obtain ⟨m, ht⟩ := a.rest
    exact ⟨m, s.cores, s.mem.reads, s.mem.held, ht⟩
  core c := ⟨_, _, _, a.part (coreOf · c) fun _ _ => rfl⟩

/-- A part of the state other than the harts, the cores and what the homes keep for readers stands. -/
theorem Flushed.part {α : Type} {h : Nat} {s t : State} (a : Flushed h s t) (v : State → α)
    (hv : ∀ y m c r d, v { y with harts := m, cores := c, mem := { y.mem with reads := r, held := d } } = v y) : v t = v s := by
  obtain ⟨m, c, r, d, rfl⟩ := a.rest
  exact hv s m c r d

theorem Flushed.dropReads (h : Nat) (s : State) : Flushed h s (dropReads (.hart h) s) :=
  ⟨.refl _, fun _ _ => rfl, ⟨s.harts, s.cores, _, _, rfl⟩, fun c => ⟨_, _, _, rfl⟩⟩

/-- What core c had begun ahead is discarded. -/
def squashCore (h : Nat) (s : State) (c : Nat) : State :=
  Machine.countN h 0x0103 (coreOf s c).missQ.length (setCore c { coreOf s c with
    missQ := [], badFills := [], hints := ((coreOf s c).hints ++ awaited s c).eraseDups } s)

theorem squash_eq (h : Nat) (s : State) :
    squash h s = (coresOfHart s h).foldl (squashCore h) (Machine.dropReads (.hart h) s) := rfl

theorem Flushed.squashCore (h : Nat) (s : State) (c : Nat) : Flushed h s (squashCore h s c) := by
  refine Flushed.trans ?_ (.of_counted (.countN _ _ _ _))
  refine ⟨.refl _, fun _ _ => rfl, ⟨s.harts, _, s.mem.reads, s.mem.held, rfl⟩, fun k => ?_⟩
  by_cases hk : k = c
  · subst hk
    exact ⟨_, _, _, setCore_coreOf_same _ _ _⟩
  · exact ⟨_, _, _, setCore_coreOf_ne _ _ _ _ hk⟩

theorem squashCore_missQ (h : Nat) (s : State) (c : Nat) : (coreOf (squashCore h s c) c).missQ = [] := by
  unfold squashCore
  rw [(HartCounted.countN h 0x0103 (coreOf s c).missQ.length _).part (coreOf · c) fun _ _ => rfl, setCore_coreOf_same]

theorem squashCore_missQ_ne {h k c : Nat} (hk : k ≠ c) (s : State) : (coreOf (squashCore h s c) k).missQ = (coreOf s k).missQ := by
  unfold squashCore
  rw [(HartCounted.countN h 0x0103 (coreOf s c).missQ.length _).part (coreOf · k) fun _ _ => rfl, setCore_coreOf_ne _ _ _ _ hk]

theorem Flushed.squash (h : Nat) (s : State) : Flushed h s (squash h s) := by
  rw [squash_eq]
  exact List.foldlRecOn (motive := Flushed h s) _ _ (.dropReads h s) fun y hy c _ => hy.trans (.squashCore h y c)

theorem squash_missQ {h c : Nat} {s : State} (hc : c ∈ coresOfHart s h) : (coreOf (squash h s) c).missQ = [] := by
  rw [squash_eq]
  refine foldl_reaches (P := fun y : State => (coreOf y c).missQ = []) (fun y b hy => ?_) (fun y => squashCore_missQ h y c) hc _
  by_cases hb : c = b
  · subst hb
    exact squashCore_missQ h y c
  · rw [squashCore_missQ_ne hb, hy]

theorem Flushed.flush (h : Nat) (s : State) : Flushed h s (flush h s) :=
  (Flushed.squash h s).trans (.of_counted (.countEvent h 0x0104 _))

theorem flush_missQ {h c : Nat} {s : State} (hc : c ∈ coresOfHart s h) : (coreOf (flush h s) c).missQ = [] := by
  unfold Machine.flush
  rw [(HartCounted.countEvent h 0x0104 (Machine.squash h s)).part (coreOf · c) fun _ _ => rfl]
  exact squash_missQ hc

/-- An exception: the flush, and the hart that takes it. -/
theorem raise_eq (h cause tval : Nat) (s : State) : raise h cause tval s = nameElem h ((hartOf (Machine.flush h s) h).access.bind (·.elem))
    (Machine.setHart h { hartOf (Machine.flush h s) h with exc := some ⟨cause, tval, (hartOf (Machine.flush h s) h).pc⟩, access := none }
      (Machine.flush h s)) := rfl

theorem nameElem_part {α : Type} (v : State → α) (hv : ∀ y m, v { y with harts := m } = v y) (h : Nat) (e : Option Nat) (s : State) :
    v (nameElem h e s) = v s := by
  cases e with
  | none => rfl
  | some n => exact hv s _

theorem nameElem_others (h : Nat) (e : Option Nat) (s : State) : otherHarts h s (nameElem h e s) := by
  cases e with
  | none => exact fun _ _ => rfl
  | some n => exact fun k hk => setHart_hartOf_ne _ _ _ _ hk

theorem nameElem_hart (h : Nat) (e : Option Nat) (s : State) : ∃ csr, hartOf (nameElem h e s) h = { hartOf s h with csr := csr } ∧
    (∀ n, n ≠ 0x008 → tget 0 csr n = tget 0 (hartOf s h).csr n) ∧ ∀ n, e = some n → tget 0 csr 0x008 = n % 2 ^ 64 := by
  cases e with
  | none => exact ⟨_, rfl, fun _ _ => rfl, fun _ hn => absurd hn nofun⟩
  | some n =>
    refine ⟨_, setHart_hartOf_same _ _ _, fun k hk => tget_tset_ne _ _ _ _ _ hk, fun m hm => ?_⟩
    rw [Option.some.inj hm]
    exact tget_tset_same _ _ _ _

/-- The hart that takes an exception. -/
theorem raise_hart (h cause tval : Nat) (s : State) : ∃ csr pend, hartOf (raise h cause tval s) h =
    { hartOf s h with csr := csr, pend := pend, exc := some ⟨cause, tval, (hartOf s h).pc⟩, access := none } ∧
    (∀ n, counterCsr n = false → n ≠ 0x008 → tget 0 csr n = tget 0 (hartOf s h).csr n) ∧ (∀ x ∈ (hartOf s h).pend, x ∈ pend) ∧
    ∀ x e, (hartOf s h).access = some x → x.elem = some e → tget 0 csr 0x008 = e % 2 ^ 64 := by
  obtain ⟨csr, pend, hflush, hcsr, hpend⟩ := (Flushed.flush h s).hart
  rw [raise_eq]
  obtain ⟨csr', hname, hkept, helem⟩ := nameElem_hart h ((hartOf (Machine.flush h s) h).access.bind (·.elem)) (Machine.setHart h
    { hartOf (Machine.flush h s) h with exc := some ⟨cause, tval, (hartOf (Machine.flush h s) h).pc⟩, access := none } (Machine.flush h s))
  rw [setHart_hartOf_same] at hname hkept
  refine ⟨csr', pend, ?_, fun n hn h8 => ?_, hpend, fun x e hx he => helem e ?_⟩
  · rw [hname, hflush]
  · rw [hkept n h8, hflush]
    exact hcsr n hn
  · rw [hflush]
    show ((hartOf s h).access.bind (·.elem)) = some e
    rw [hx]
    exact he

/-- A part of the state other than the harts, the cores and what the homes keep for readers stands. -/
theorem raise_part {α : Type} (v : State → α)
    (hv : ∀ y m c r d, v { y with harts := m, cores := c, mem := { y.mem with reads := r, held := d } } = v y) (h cause tval : Nat)
    (s : State) : v (raise h cause tval s) = v s := by
  rw [raise_eq]
  refine (nameElem_part v (fun y m => hv y m y.cores y.mem.reads y.mem.held) h _ _).trans ?_
  exact (hv (Machine.flush h s) _ _ _ _).trans ((Flushed.flush h s).part v hv)

theorem raise_core (h cause tval : Nat) (s : State) (c : Nat) : coreOf (raise h cause tval s) c = coreOf (Machine.flush h s) c := by
  rw [raise_eq]
  exact nameElem_part (coreOf · c) (fun _ _ => rfl) h _ _

/-- The exception is raised, as the statements observe it (R73). -/
theorem raise_raised (h cause tval : Nat) (s : State) : raised h (hartOf s h).pc cause tval s (raise h cause tval s) := by
  obtain ⟨csr, pend, hhart, hcsr, -, -⟩ := raise_hart h cause tval s
  have hcore := raise_core h cause tval s
  have hf := Flushed.flush h s
  unfold raised
  rw [hhart]
  refine ⟨rfl, rfl, rfl, rfl, rfl, hcsr, fun k hk => ?_, fun c line => ?_, fun c => ?_, fun c hc => ?_,
    raise_part State.slices (fun _ _ _ _ _ => rfl) h cause tval s, ?_, raise_part State.outs (fun _ _ _ _ _ => rfl) h cause tval s⟩
  · rw [raise_eq]
    exact (nameElem_others h _ _ k hk).trans ((setHart_hartOf_ne _ _ _ _ hk).trans (hf.others k hk))
  · obtain ⟨q, b, i, hc⟩ := hf.core c
    rw [l2Of, hcore, hc]
    rfl
  · obtain ⟨q, b, i, hc⟩ := hf.core c
    rw [hcore, hc]
  · rw [hcore]
    exact flush_missQ hc
  · have hmem := raise_part (fun y => { y.mem with reads := [], held := [] }) (fun _ _ _ _ _ => rfl) h cause tval s
    unfold dramKept
    have hm : ∀ m : Mem, m = { ({ m with reads := [], held := [] } : Mem) with reads := m.reads, held := m.held } := fun _ => rfl
    rw [hm (raise h cause tval s).mem]
    exact congrArg (fun m : Mem => { m with reads := (raise h cause tval s).mem.reads, held := (raise h cause tval s).mem.held }) hmem

theorem raise_regs (h cause tval : Nat) (s : State) : (raise h cause tval s).regs = s.regs :=
  raise_part State.regs (fun _ _ _ _ _ => rfl) h cause tval s

/-- An instruction that raises an exception with a value of its own. -/
theorem raiseInstr_raised (h cause : Nat) (s : State) : ∃ v, raised h (hartOf s h).pc cause v s (raiseInstr h cause s) ∧
    samePart .regs s (raiseInstr h cause s) :=
  ⟨_, raise_raised h cause _ (freeNext s), raise_regs h cause _ (freeNext s)⟩

end Sys2Proof.Machine
end

section
/-! Waits, seed reads, context keys and the training of branches at a hart (R55, R57, R61, R64). -/
set_option Elab.async false
namespace Sys2Proof.Machine

/-! ### Waits -/

/-- A hart with a wait or an idle mark set is as the statements call its rest. -/
theorem HartCounted.hartRest_setHart {h : Nat} {s t : State} (a : HartCounted h s t) (w : WrsWait) (i : Bool) :
    Machine.hartRest h s (Machine.setHart h { hartOf t h with wrs := w, wfi := i } t) ∧
      otherHarts h s (Machine.setHart h { hartOf t h with wrs := w, wfi := i } t) := by
  obtain ⟨hpc, hpriv, hfp, hvec, hresv, hexc, hcsr⟩ := a.hartRest
  refine ⟨?_, fun k hk => (setHart_hartOf_ne _ _ _ _ hk).trans (a.others k hk)⟩
  unfold Machine.hartRest hartKept Machine.csrsKept
  rw [setHart_hartOf_same]
  exact ⟨hpc, hpriv, hfp, hvec, hresv, hexc, hcsr⟩

/-- The instruction counted, where the hart runs. -/
def retiredAt (h : Nat) (s : State) : State := if hartRuns s h then countInst h s else s

theorem HartCounted.retiredAt (h : Nat) (s : State) : HartCounted h s (retiredAt h s) := by
  unfold Machine.retiredAt
  split
  · exact .countInst h s
  · exact .refl h s

theorem wrsWait_taken {h : Nat} {w : WrsWait} {s : State} (hruns : hartRuns s h = true) (hresv : (hartOf s h).resv.isSome = true)
    (hirq : irqPending s h = false) (htw : w = .sto ∨ twEnds s h = false) :
    wrsWait h w s = setHart h { hartOf (retiredAt h s) h with wrs := w } (retiredAt h s) := by
  have hr : (hartOf (retiredAt h s) h).resv.isSome = true := by
    rw [(HartCounted.retiredAt h s).hartRest.2.2.2.2.1]
    exact hresv
  exact if_pos ⟨hruns, hr, hirq, htw⟩

theorem wrsWait_no_reservation {h : Nat} {w : WrsWait} {s : State} (hresv : (hartOf s h).resv = none) :
    wrsWait h w s = retiredAt h s := by
  refine if_neg fun ⟨_, hr, _⟩ => ?_
  have hkept : (hartOf (retiredAt h s) h).resv = (hartOf s h).resv := (HartCounted.retiredAt h s).hartRest.2.2.2.2.1
  exact absurd (hkept ▸ hr : (hartOf s h).resv.isSome = true) (by rw [hresv]; decide)

/-- A wait begins, whatever its limit. -/
theorem wrsWait_spec {h : Nat} {w : WrsWait} {s : State} (hruns : hartRuns s h = true) (hresv : (hartOf s h).resv.isSome = true)
    (hirq : irqPending s h = false) (htw : w = .sto ∨ twEnds s h = false) :
    (hartOf (wrsWait h w s) h).wrs = w ∧ (hartOf (wrsWait h w s) h).x = (hartOf s h).x ∧ hartRest h s (wrsWait h w s) ∧
      otherHarts h s (wrsWait h w s) := by
  rw [wrsWait_taken hruns hresv hirq htw]
  have hcounted := HartCounted.retiredAt h s
  have hset := hcounted.hartRest_setHart w (hartOf (retiredAt h s) h).wfi
  obtain ⟨-, -, hx, -⟩ := hcounted.hart.rest
  rw [setHart_hartOf_same]
  exact ⟨rfl, hx, hset.1, hset.2⟩

theorem wrsWait_idle {h : Nat} {w : WrsWait} {s : State} (hresv : (hartOf s h).resv = none) :
    (hartOf (wrsWait h w s) h).wrs = (hartOf s h).wrs ∧ (hartOf (wrsWait h w s) h).x = (hartOf s h).x ∧
      hartRest h s (wrsWait h w s) ∧ otherHarts h s (wrsWait h w s) := by
  rw [wrsWait_no_reservation hresv]
  have hcounted := HartCounted.retiredAt h s
  obtain ⟨-, -, hx, -, -, -, -, hwrs, -, -⟩ := hcounted.hart.rest
  exact ⟨hwrs, hx, hcounted.hartRest, hcounted.others⟩

theorem wrsTimeout_spec {h ns : Nat} {s : State} (hwrs : (hartOf s h).wrs = .sto) (hns : 1000 ≤ ns) :
    (hartOf (wrsTimeout h ns s) h).wrs = .none ∧ otherHarts h s (wrsTimeout h ns s) := by
  have hout : wrsTimeout h ns s = setHart h { hartOf s h with wrs := .none } s := if_pos ⟨hwrs, hns⟩
  rw [hout, setHart_hartOf_same]
  exact ⟨rfl, fun k hk => setHart_hartOf_ne _ _ _ _ hk⟩

theorem judgeIdle_harts (s : State) : (judgeIdle s).harts = s.harts := by
  unfold judgeIdle
  split
  · rfl
  · split <;> rfl

theorem hartOf_congr {s t : State} (hh : t.harts = s.harts) (k : Nat) : hartOf t k = hartOf s k := by
  rw [hartOf, hh]
  rfl

theorem wfi_waits {h : Nat} {s : State} (hruns : hartRuns s h = true) (hirq : irqPending s h = false) :
    (hartOf (wfi h s) h).wfi = true ∧ hartRest h s (wfi h s) ∧ otherHarts h s (wfi h s) := by
  have hout : wfi h s = judgeIdle (setHart h { hartOf (retiredAt h s) h with wfi := true } (retiredAt h s)) := if_pos ⟨hruns, hirq⟩
  have hset := (HartCounted.retiredAt h s).hartRest_setHart (hartOf (retiredAt h s) h).wrs true
  have hof : ∀ k, hartOf (wfi h s) k = hartOf (setHart h { hartOf (retiredAt h s) h with wfi := true } (retiredAt h s)) k :=
    hout ▸ fun k => hartOf_congr (judgeIdle_harts _) k
  refine ⟨?_, ?_, fun k hk => (hof k).trans (hset.2 k hk)⟩
  · rw [hof, setHart_hartOf_same]
  · unfold hartRest hartKept csrsKept
    rw [hof]
    exact hset.1

theorem wfi_pending {h : Nat} {s : State} (hirq : irqPending s h = true) : wfi h s = retiredAt h s :=
  if_neg fun hc => absurd (hirq.symm.trans hc.2) (by decide)

/-! ### The seed CSR -/

/-- The read of seed of a hart that may read it, in a tile whose source is p's. -/
def seedOf (h r p : Nat) (b : Bool) (s : State) : State :=
  if s.chip.entropyDead.contains (pairTile p) then setX h r (3 * 2 ^ 30) s
  else if b then setX h r (2 * 2 ^ 30 + freeVal 65536 s) (freeNext s)
  else setX h r (2 ^ 30) s

theorem seedRead_of_fault {h c : Nat} {s : State} (hruns : hartRuns s h = true) (hf : seedFault s h = some c) (r : Nat) (b : Bool) :
    seedRead h r b s = raiseInstr h c s := by
  unfold seedRead
  rw [if_pos hruns, hf]

theorem seedRead_of_pair {h p : Nat} {s : State} (hruns : hartRuns s h = true) (hf : seedFault s h = none)
    (hp : pairOfHart s h = some p) (r : Nat) (b : Bool) : seedRead h r b s = countInst h (seedOf h r p b s) := by
  unfold seedRead seedOf
  rw [if_pos hruns, hf, hp]

theorem gotX_setX (h r v : Nat) (s : State) : gotX h r v s (setX h r v s) := by
  intro i hi
  unfold setX
  by_cases hr : r = 0
  · subst hr
    rw [if_pos rfl, if_neg hi]
  · rw [if_neg hr]
    simp only []
    rw [setHart_hartOf_same]
    by_cases hir : i = r
    · subst hir
      rw [if_pos rfl]
      exact tget_tset_same _ _ _ _
    · rw [if_neg hir]
      exact tget_tset_ne _ _ _ _ _ hir

theorem HartCounted.gotX {h r v : Nat} {s t u : State} (a : HartCounted h t u) (hg : Machine.gotX h r v s t) : Machine.gotX h r v s u := by
  obtain ⟨-, -, hx, -⟩ := a.hart.rest
  intro i hi
  rw [hx]
  exact hg i hi

theorem setX_freeCtr (h r v : Nat) (s : State) : (setX h r v s).freeCtr = s.freeCtr := by
  unfold setX
  split <;> rfl

/-! ### Context keys -/

/-- The key is what the context after the change gives; the rest of the hart stands. -/
theorem rekey_hart (h : Nat) (s : State) : hartOf (rekey h s) h = { hartOf s h with ckey := contextKey s h } := setHart_hartOf_same _ _ _

theorem rekey_others (h : Nat) (s : State) : otherHarts h s (rekey h s) := fun _ hk => setHart_hartOf_ne _ _ _ _ hk

theorem csrOf_rekey (h n : Nat) (s : State) : csrOf (rekey h s) h n = csrOf s h n :=
  csrOf_congr rfl (by rw [rekey_hart]) fun _ _ => by rw [rekey_hart]

theorem contextKey_rekey (h : Nat) (s : State) : contextKey (rekey h s) h = contextKey s h := by
  unfold contextKey
  simp only [csrOf_rekey]
  rw [rekey_hart]

theorem rekey_ckey (h : Nat) (s : State) : (hartOf (rekey h s) h).ckey = contextKey (rekey h s) h := by
  rw [contextKey_rekey, rekey_hart]

theorem csrOf_setCsr_ne {h n m : Nat} (hm : m ≠ n) (hn : n < 0x3A0 ∨ 0x3B0 ≤ n) (v : Nat) (s : State) :
    csrOf (setCsr h n v s) h m = csrOf s h m := by
  have hread : ∀ k, k ≠ n → tget 0 (hartOf (setCsr h n v s) h).csr k = tget 0 (hartOf s h).csr k := fun k hk => by
    rw [setCsr]
    rw [setHart_hartOf_same]
    exact tget_tset_ne _ _ _ _ _ hk
  exact csrOf_congr rfl (hread m hm) fun k hk => hread _ (by omega)

theorem csrOf_setCsr_same {h n : Nat} (hn : n = 0x180 ∨ n = 0x280 ∨ n = 0x680) (v : Nat) (s : State) :
    csrOf (setCsr h n v s) h n = v % 2 ^ 64 := by
  have hread : tget 0 (hartOf (setCsr h n v s) h).csr n = v % 2 ^ 64 := by
    rw [setCsr]
    rw [setHart_hartOf_same]
    exact tget_tset_same _ _ _ _
  unfold csrOf
  rw [hread]
  obtain rfl | rfl | rfl := hn <;> rfl

theorem setCsr_others (h n v : Nat) (s : State) : otherHarts h s (setCsr h n v s) := fun _ hk => setHart_hartOf_ne _ _ _ _ hk

/-- The value that hgatp takes. -/
def hgatpValue (h v : Nat) (s : State) : Nat :=
  (if legalMode v then v / 2 ^ 60 % 16 else csrOf s h 0x680 / 2 ^ 60 % 16) * 2 ^ 60 + v / 2 ^ 44 % 2 ^ 14 * 2 ^ 44 + v % 2 ^ 44 / 4 * 4

theorem hgatpWrite_eq (h v : Nat) (s : State) : hgatpWrite h v s = setCsr h 0x680 (hgatpValue h v s) s := rfl

/-- A write of a context CSR that counts as an instruction: the CSR holds its new value and every other one stands. -/
theorem keyWrite_spec {h n v : Nat} (hn : n = 0x180 ∨ n = 0x280 ∨ n = 0x680) (s : State) :
    csrOf (rekey h (countInst h (setCsr h n v s))) h n = v % 2 ^ 64 ∧
      (∀ m, m ≠ n → counterCsr m = false → csrOf (rekey h (countInst h (setCsr h n v s))) h m = csrOf s h m) ∧
      otherHarts h s (rekey h (countInst h (setCsr h n v s))) := by
  have hcounted := HartCounted.countInst h (setCsr h n v s)
  have hchip : (countInst h (setCsr h n v s)).chip = (setCsr h n v s).chip := hcounted.part State.chip fun _ _ => rfl
  have hcsr := hcounted.csrsKept
  have hothers := hcounted.others
  generalize countInst h (setCsr h n v s) = t at hchip hcsr hothers
  refine ⟨?_, fun m hm hcm => ?_, fun k hk => ?_⟩
  · rw [csrOf_rekey, csrOf_of_kept hchip hcsr (by obtain rfl | rfl | rfl := hn <;> decide), csrOf_setCsr_same hn]
  · rw [csrOf_rekey, csrOf_of_kept hchip hcsr hcm, csrOf_setCsr_ne hm (by omega)]
  · exact (rekey_others h t k hk).trans ((hothers k hk).trans (setCsr_others h n v s k hk))

/-- A write that the mode keeps out counts as an instruction and changes no such CSR. -/
theorem keyKept_spec (h : Nat) (s : State) :
    (∀ m, counterCsr m = false → csrOf (rekey h (countInst h s)) h m = csrOf s h m) ∧ otherHarts h s (rekey h (countInst h s)) := by
  have hcounted := HartCounted.countInst h s
  have hchip : (countInst h s).chip = s.chip := hcounted.part State.chip fun _ _ => rfl
  refine ⟨fun m hm => ?_, fun k hk => (rekey_others h _ k hk).trans (hcounted.others k hk)⟩
  rw [csrOf_rekey]
  exact csrOf_of_kept hchip hcounted.csrsKept hm

theorem keyUpdate_satp {h n v : Nat} {c : KeyCause} {s : State} (hruns : hartRuns s h = true)
    (hc : (n, c) ∈ [(0x180, KeyCause.satp v), (0x280, .vsatp v)]) :
    keyUpdate h c s = rekey h (countInst h (satpWrite h n v s)) ∧ (n = 0x180 ∨ n = 0x280 ∨ n = 0x680) := by
  simp only [List.mem_cons, List.not_mem_nil, or_false, Prod.mk.injEq] at hc
  obtain ⟨rfl, rfl⟩ | ⟨rfl, rfl⟩ := hc
  · exact ⟨if_pos hruns, .inl rfl⟩
  · exact ⟨if_pos hruns, .inr (.inl rfl)⟩

theorem keyUpdate_satp_spec {h n v : Nat} {c : KeyCause} {s : State} (hruns : hartRuns s h = true)
    (hc : (n, c) ∈ [(0x180, KeyCause.satp v), (0x280, .vsatp v)]) :
    csrOf (keyUpdate h c s) h n = (if legalMode v = true then v % 2 ^ 64 else csrOf s h n) ∧
      (hartOf (keyUpdate h c s) h).ckey = contextKey (keyUpdate h c s) h ∧
      (∀ m, m ≠ n → counterCsr m = false → csrOf (keyUpdate h c s) h m = csrOf s h m) ∧ otherHarts h s (keyUpdate h c s) := by
  obtain ⟨hout, hn⟩ := keyUpdate_satp hruns hc
  rw [hout]
  unfold satpWrite
  by_cases hl : legalMode v = true
  · rw [if_pos hl, if_pos hl]
    obtain ⟨hsame, hne, hoth⟩ := keyWrite_spec (v := v) hn s
    exact ⟨hsame, rekey_ckey h _, hne, hoth⟩
  · rw [if_neg hl, if_neg hl]
    obtain ⟨hall, hoth⟩ := keyKept_spec h s
    exact ⟨hall n (by obtain rfl | rfl | rfl := hn <;> decide), rekey_ckey h _, fun m _ => hall m, hoth⟩

theorem keyUpdate_hgatp_spec {h v : Nat} {s : State} (hruns : hartRuns s h = true) :
    csrOf (keyUpdate h (.hgatp v) s) h 0x680 / 2 ^ 60 % 16 =
        (if legalMode v = true then v / 2 ^ 60 % 16 else csrOf s h 0x680 / 2 ^ 60 % 16) ∧
      csrOf (keyUpdate h (.hgatp v) s) h 0x680 / 2 ^ 44 % 2 ^ 16 = v / 2 ^ 44 % 2 ^ 14 ∧
      csrOf (keyUpdate h (.hgatp v) s) h 0x680 % 2 ^ 44 = v % 2 ^ 44 / 4 * 4 ∧
      (hartOf (keyUpdate h (.hgatp v) s) h).ckey = contextKey (keyUpdate h (.hgatp v) s) h ∧
      (∀ m, m ≠ 0x680 → counterCsr m = false → csrOf (keyUpdate h (.hgatp v) s) h m = csrOf s h m) ∧
      otherHarts h s (keyUpdate h (.hgatp v) s) := by
  have hout : keyUpdate h (.hgatp v) s = rekey h (countInst h (setCsr h 0x680 (hgatpValue h v s) s)) := if_pos hruns
  obtain ⟨hsame, hne, hoth⟩ := keyWrite_spec (h := h) (n := 0x680) (v := hgatpValue h v s) (.inr (.inr rfl)) s
  have hckey := rekey_ckey h (countInst h (setCsr h 0x680 (hgatpValue h v s) s))
  rw [← hout] at hsame hne hoth hckey
  have hmode : (if legalMode v = true then v / 2 ^ 60 % 16 else csrOf s h 0x680 / 2 ^ 60 % 16) < 16 := by split <;> omega
  have hv : hgatpValue h v s = (if legalMode v = true then v / 2 ^ 60 % 16 else csrOf s h 0x680 / 2 ^ 60 % 16) * 2 ^ 60 +
      v / 2 ^ 44 % 2 ^ 14 * 2 ^ 44 + v % 2 ^ 44 / 4 * 4 := rfl
  rw [hsame, hv]
  generalize (if legalMode v = true then v / 2 ^ 60 % 16 else csrOf s h 0x680 / 2 ^ 60 % 16) = mode at hmode
  exact ⟨by omega, by omega, by omega, hckey, hne, hoth⟩

theorem keyUpdate_trap_spec {h p : Nat} {s : State} (hruns : hartRuns s h = true) :
    (hartOf (keyUpdate h (.trap p) s) h).priv = privOf p ∧
      (hartOf (keyUpdate h (.trap p) s) h).ckey = contextKey (keyUpdate h (.trap p) s) h ∧
      (hartOf (keyUpdate h (.trap p) s) h).csr = (hartOf s h).csr ∧ otherHarts h s (keyUpdate h (.trap p) s) := by
  have hout : keyUpdate h (.trap p) s = rekey h (setHart h { hartOf s h with priv := privOf p } s) := if_pos hruns
  rw [hout]
  refine ⟨?_, rekey_ckey h _, ?_, fun k hk => (rekey_others h _ k hk).trans (setHart_hartOf_ne _ _ _ _ hk)⟩
  · rw [rekey_hart, setHart_hartOf_same]
  · rw [rekey_hart, setHart_hartOf_same]

theorem keyUpdate_xret_spec {h p : Nat} {s : State} (hruns : hartRuns s h = true) :
    (hartOf (keyUpdate h (.xret p) s) h).priv = privOf p ∧
      (hartOf (keyUpdate h (.xret p) s) h).ckey = contextKey (keyUpdate h (.xret p) s) h ∧ otherHarts h s (keyUpdate h (.xret p) s) := by
  have hout : keyUpdate h (.xret p) s =
    rekey h (setHart h { hartOf (countInst h s) h with priv := privOf p } (countInst h s)) := if_pos hruns
  rw [hout]
  refine ⟨?_, rekey_ckey h _, fun k hk => (rekey_others h _ k hk).trans ((setHart_hartOf_ne _ _ _ _ hk).trans
    ((HartCounted.countInst h s).others k hk))⟩
  rw [rekey_hart, setHart_hartOf_same]

/-! ### Branches and jumps -/

theorem coresOfHart_nodup (s : State) (h : Nat) : (coresOfHart s h).Nodup := by
  unfold coresOfHart
  cases pairOfHart s h with
  | none => exact List.nodup_nil
  | some p =>
    simp only []
    by_cases hs : slotSplit s (h / 2) = true
    · rw [if_pos hs]
      exact List.nodup_singleton _
    · rw [if_neg hs]
      split
      · cases coreOfHart s h with
        | none => exact List.nodup_nil
        | some c => exact List.nodup_singleton _
      · simp

/-- Core c takes what f makes of its branch state. -/
def trainCoreAt (f : Core → Core) (s : State) (c : Nat) : State := setCore c (f (coreOf s c)) s

/-- Every core of hart h trained. -/
def trained (f : Core → Core) (h : Nat) (s : State) : State := (coresOfHart s h).foldl (trainCoreAt f) (freeNext s)

theorem trained_core {h c : Nat} {s : State} (f : Core → Core) (hc : c ∈ coresOfHart s h) :
    coreOf (trained f h s) c = f (coreOf s c) := by
  obtain ⟨y, hy, ht⟩ := foldl_at (fun y => coreOf y c) (f := trainCoreAt f)
    (fun y a hac => setCore_coreOf_ne _ _ _ _ (Ne.symm hac)) (coresOfHart_nodup s h) hc (freeNext s)
  refine ht.trans ((setCore_coreOf_same _ _ _).trans ?_)
  rw [hy]
  rfl

theorem trained_core_ne {h c : Nat} {s : State} (f : Core → Core) (hc : c ∉ coresOfHart s h) :
    coreOf (trained f h s) c = coreOf s c :=
  List.foldlRecOn (motive := fun y => coreOf y c = coreOf s c) _ _ rfl fun y hy a ha =>
    (setCore_coreOf_ne _ _ _ _ (ne_of_mem_of_not_mem ha hc).symm).trans hy

/-- A part of the state other than the cores and the free choices stands. -/
theorem trained_part {α : Type} (v : State → α) (hv : ∀ y m, v { y with cores := m } = v y)
    (hfree : ∀ y, v (freeNext y) = v y) (f : Core → Core) (h : Nat) (s : State) : v (trained f h s) = v s :=
  (foldl_fixes v (fun y c => hv y _) _ _).trans (hfree s)

/-- What a retired branch or jump changes of a core. -/
def branchTrain (h pc len tg k : Nat) (tk : Bool) (s : State) : Core → Core :=
  trainBranch (hartOf s h).ckey pc len tg k (freeVal (2 ^ 640) s) (tk || k != 0)

/-- The cores trained, and the events of a branch or jump counted as it retires. -/
def branchCounted (h pc len tg k : Nat) (tk : Bool) (s : State) : State :=
  countInst h (if k = 0 then countEvent h 0x0011 (trained (branchTrain h pc len tg k tk s) h s)
    else trained (branchTrain h pc len tg k tk s) h s)

/-- The event of a misprediction counted. -/
def branchTold (h pc len tg k : Nat) (tk : Bool) (s : State) : State :=
  if k = 0 then countEvent h 0x0012 (branchCounted h pc len tg k tk s)
  else if 3 ≤ k then countEvent h 0x001E (branchCounted h pc len tg k tk s) else branchCounted h pc len tg k tk s

/-- The branch was mispredicted at the first core of the hart. -/
def branchMissed (h pc tg k : Nat) (tk : Bool) (s : State) : Bool :=
  (coresOfHart s h).head?.elim false fun c => mispredicted (hartOf s h).ckey pc tg k tk (coreOf s c).pred

theorem branchRetire_eq {h : Nat} {s : State} (hruns : hartRuns s h = true) (pc len tg k : Nat) (tk : Bool) :
    branchRetire h pc len tg k tk s = if branchMissed h pc tg k tk s then
      dropAccess h (flush h (branchTold h pc len tg k tk s)) else branchCounted h pc len tg k tk s :=
  if_pos hruns

theorem HartCounted.branchCounted (h pc len tg k : Nat) (tk : Bool) (s : State) :
    HartCounted h (trained (branchTrain h pc len tg k tk s) h s) (branchCounted h pc len tg k tk s) := by
  unfold Machine.branchCounted
  split
  · exact (HartCounted.countEvent _ _ _).trans (.countInst _ _)
  · exact .countInst _ _

theorem HartCounted.branchTold (h pc len tg k : Nat) (tk : Bool) (s : State) :
    HartCounted h (trained (branchTrain h pc len tg k tk s) h s) (branchTold h pc len tg k tk s) := by
  refine (HartCounted.branchCounted h pc len tg k tk s).trans ?_
  unfold Machine.branchTold
  split
  · exact .countEvent _ _ _
  · split
    · exact .countEvent _ _ _
    · exact .refl _ _

/-- A core after the branch is as its training left it, what it had begun ahead apart. -/
theorem branchRetire_core {h : Nat} {s : State} (hruns : hartRuns s h = true) (pc len tg k : Nat) (tk : Bool) (c : Nat) :
    ∃ q b i, coreOf (branchRetire h pc len tg k tk s) c =
      { coreOf (trained (branchTrain h pc len tg k tk s) h s) c with missQ := q, badFills := b, hints := i } := by
  rw [branchRetire_eq hruns]
  split
  · obtain ⟨q, b, i, hc⟩ := (Flushed.flush h (branchTold h pc len tg k tk s)).core c
    have htold := (HartCounted.branchTold h pc len tg k tk s).part (coreOf · c) fun _ _ => rfl
    exact ⟨q, b, i, hc.trans (by rw [htold])⟩
  · exact ⟨_, _, _, (HartCounted.branchCounted h pc len tg k tk s).part (coreOf · c) fun _ _ => rfl⟩

/-- A core of the hart after the branch: its predictor and its count are as training makes them. -/
theorem branchRetire_trained {h c : Nat} {s : State} (hruns : hartRuns s h = true) (pc len tg k : Nat) (tk : Bool)
    (hc : c ∈ coresOfHart s h) :
    (coreOf (branchRetire h pc len tg k tk s) c).pred = (branchTrain h pc len tg k tk s (coreOf s c)).pred ∧
      (coreOf (branchRetire h pc len tg k tk s) c).retired = (branchTrain h pc len tg k tk s (coreOf s c)).retired := by
  obtain ⟨q, b, i, hcore⟩ := branchRetire_core hruns pc len tg k tk c
  rw [hcore, trained_core _ hc]
  exact ⟨rfl, rfl⟩

theorem branchRetire_regs {h : Nat} {s : State} (hruns : hartRuns s h = true) (pc len tg k : Nat) (tk : Bool) :
    (branchRetire h pc len tg k tk s).regs = s.regs := by
  have htrained : (trained (branchTrain h pc len tg k tk s) h s).regs = s.regs :=
    trained_part State.regs (fun _ _ => rfl) (fun _ => rfl) _ _ _
  rw [branchRetire_eq hruns]
  split
  · exact ((Flushed.flush h (branchTold h pc len tg k tk s)).part State.regs fun _ _ _ _ _ => rfl).trans
      (((HartCounted.branchTold h pc len tg k tk s).part State.regs fun _ _ => rfl).trans htrained)
  · exact ((HartCounted.branchCounted h pc len tg k tk s).part State.regs fun _ _ => rfl).trans htrained

theorem trainBranch_l2 (key pc len tg k fr : Nat) (tk : Bool) (c : Core) : (trainBranch key pc len tg k fr tk c).l2 = c.l2 := by
  unfold trainBranch
  simp only []
  split <;> rfl

theorem branchRetire_sameL2 {h : Nat} {s : State} (hruns : hartRuns s h = true) (pc len tg k : Nat) (tk : Bool) :
    sameL2 s (branchRetire h pc len tg k tk s) := by
  intro c line
  obtain ⟨q, b, i, hcore⟩ := branchRetire_core hruns pc len tg k tk c
  have hl2 : (coreOf (branchRetire h pc len tg k tk s) c).l2 = (coreOf s c).l2 := by
    rw [hcore]
    show (coreOf (trained (branchTrain h pc len tg k tk s) h s) c).l2 = (coreOf s c).l2
    by_cases hc : c ∈ coresOfHart s h
    · rw [trained_core _ hc]
      exact trainBranch_l2 _ _ _ _ _ _ _ _
    · rw [trained_core_ne _ hc]
  rw [l2Of, hl2]
  rfl

/-- A mispredicted branch discards what follows it (R64, R66). -/
theorem branchRetire_missed {h : Nat} {s : State} (hruns : hartRuns s h = true) {pc tg k : Nat} {tk : Bool} (len : Nat)
    (hmiss : branchMissed h pc tg k tk s = true) :
    (hartOf (branchRetire h pc len tg k tk s) h).access = none ∧
      (hartOf (branchRetire h pc len tg k tk s) h).x = (hartOf s h).x ∧
      ∀ d ∈ coresOfHart s h, (coreOf (branchRetire h pc len tg k tk s) d).missQ = [] := by
  rw [branchRetire_eq hruns, if_pos hmiss]
  have htold := HartCounted.branchTold h pc len tg k tk s
  have hcores : coresOfHart (branchTold h pc len tg k tk s) h = coresOfHart s h :=
    (htold.part (coresOfHart · h) fun _ _ => rfl).trans (trained_part (coresOfHart · h) (fun _ _ => rfl) (fun _ => rfl) _ _ _)
  have hhart := (Flushed.flush h (branchTold h pc len tg k tk s)).hart
  refine ⟨?_, ?_, fun d hd => ?_⟩
  · exact congrArg Hart.access (setHart_hartOf_same _ _ _)
  · obtain ⟨-, -, hx, -⟩ := (htold.hart.trans hhart).rest
    refine (congrArg Hart.x (setHart_hartOf_same _ _ _)).trans (hx.trans ?_)
    exact congrArg Hart.x (trained_part (hartOf · h) (fun _ _ => rfl) (fun _ => rfl) _ _ _)
  · exact flush_missQ (hcores ▸ hd)

/-! ### What training does to a core's predictor -/

theorem trainBtb_same (key pc tg kind k : Nat) (p : Pred) : (trainBtb key pc tg kind k p).t0 = p.t0 ∧
    (trainBtb key pc tg kind k p).tagged = p.tagged ∧ (trainBtb key pc tg kind k p).ras = p.ras ∧
    (trainBtb key pc tg kind k p).targets = p.targets ∧ (trainBtb key pc tg kind k p).ghist = p.ghist :=
  ⟨rfl, rfl, rfl, rfl, rfl⟩

/-- The way of the main BTB that a retired target is written to. -/
def btbWay (key pc k : Nat) (p : Pred) : Nat :=
  ((List.range 8).find? fun w => (tget none p.btb ((pc / 2 ^^^ key) % 1024 * 8 + w)).any fun e => e.tag == (pc / 2 ^^^ key) / 1024).getD
    (((List.range 8).find? fun w => (tget none p.btb ((pc / 2 ^^^ key) % 1024 * 8 + w)).isNone).getD (k % 8))

theorem find_range_getD_lt {n d : Nat} (hd : d < n) (q : Nat → Bool) : ((List.range n).find? q).getD d < n := by
  cases hf : (List.range n).find? q with
  | none => exact hd
  | some w => exact List.mem_range.mp (List.mem_of_find?_eq_some hf)

theorem btbWay_lt (key pc k : Nat) (p : Pred) : btbWay key pc k p < 8 :=
  find_range_getD_lt (find_range_getD_lt (by omega) _) _

theorem trainBtb_written (key pc tg kind k : Nat) (p : Pred) : ∃ w, w < 8 ∧
    tget none (trainBtb key pc tg kind k p).btb ((pc / 2 ^^^ key) % 1024 * 8 + w) = some ⟨(pc / 2 ^^^ key) / 1024, tg, kind, 0⟩ := by
  refine ⟨btbWay key pc k p, btbWay_lt _ _ _ _, ?_⟩
  have hbtb : (trainBtb key pc tg kind k p).btb = tset none p.btb ((pc / 2 ^^^ key) % 1024 * 8 + btbWay key pc k p)
    (some ⟨(pc / 2 ^^^ key) / 1024, tg, kind, 0⟩) := rfl
  rw [hbtb]
  exact tget_tset_same _ _ _ _

/-- The stack is all that a call or return changes of the predictor here. -/
theorem trainStack_same (pc len kind : Nat) (p : Pred) : (trainStack pc len kind p).t0 = p.t0 ∧
    (trainStack pc len kind p).btb = p.btb ∧ (trainStack pc len kind p).targets = p.targets ∧
    (trainStack pc len kind p).ghist = p.ghist ∧ (trainStack pc len kind p).tagged = p.tagged :=
  ⟨rfl, rfl, rfl, rfl, rfl⟩

theorem allocate_same (key pc i : Nat) (tk : Bool) (p : Pred) : (allocate key pc i tk p).t0 = p.t0 ∧
    (allocate key pc i tk p).btb = p.btb ∧ (allocate key pc i tk p).ras = p.ras := by
  unfold allocate
  simp only []
  split <;> exact ⟨rfl, rfl, rfl⟩

theorem trainProvider_same (key pc : Nat) (tk : Bool) (p : Pred) : (trainProvider key pc tk p).btb = p.btb ∧
    (trainProvider key pc tk p).ras = p.ras := by
  unfold trainProvider
  simp only []
  split <;> exact ⟨rfl, rfl⟩

/-- The tables of a core after a conditional branch, its history apart. -/
def coreTables (key pc tg : Nat) (tk : Bool) (p : Pred) : Pred :=
  if mispredicted key pc tg 0 tk p && decide (provider key pc p < 6) then
    allocate key pc (provider key pc p) tk { trainProvider key pc tk p with ghist := p.ghist, phist := p.phist }
  else trainProvider key pc tk p

theorem trainCore_eq (key pc tg fr : Nat) (tk : Bool) (c : Core) : trainCore key pc tg fr tk c =
    { c with
      retired := c.retired + 1
      pred := { coreTables key pc tg tk c.pred with ghist := (c.pred.ghist * 2 + tk.toNat) % 2 ^ 640, phist := fr } } := rfl

theorem coreTables_same (key pc tg : Nat) (tk : Bool) (p : Pred) : (coreTables key pc tg tk p).t0 = (trainProvider key pc tk p).t0 ∧
    (coreTables key pc tg tk p).btb = p.btb ∧ (coreTables key pc tg tk p).ras = p.ras := by
  obtain ⟨hbtb, hras⟩ := trainProvider_same key pc tk p
  unfold coreTables
  split
  · obtain ⟨ht0, hbtb', hras'⟩ := allocate_same key pc (provider key pc p) tk
      { trainProvider key pc tk p with ghist := p.ghist, phist := p.phist }
    exact ⟨ht0, hbtb'.trans hbtb, hras'.trans hras⟩
  · exact ⟨rfl, hbtb, hras⟩

/-- Where no tagged table gives the prediction, the base counter moves towards the outcome. -/
theorem baseCtr_trainProvider {key pc : Nat} {p : Pred} (hp : provider key pc p = 0) (tk : Bool) :
    baseCtr key pc (trainProvider key pc tk p) = if tk = true then min 3 (baseCtr key pc p + 1) else baseCtr key pc p - 1 := by
  unfold trainProvider
  simp only []
  rw [if_pos hp, baseCtr]
  simp only []
  rw [tget_tset_same, Nat.xor_assoc, Nat.xor_self, Nat.xor_zero]

/-- A conditional branch in one core. -/
theorem trainBranch_zero (key pc len tg fr : Nat) (tk : Bool) (c : Core) : trainBranch key pc len tg 0 fr tk c =
    { trainCore key pc tg fr tk c with
      pred := if tk then trainBtb key pc tg 0 fr (trainStack pc len 0 (trainCore key pc tg fr tk c).pred)
        else trainStack pc len 0 (trainCore key pc tg fr tk c).pred } := rfl

theorem trainBranch_zero_spec (key pc len tg fr : Nat) (tk : Bool) (c : Core) :
    (trainBranch key pc len tg 0 fr tk c).retired = c.retired + 1 ∧
      (trainBranch key pc len tg 0 fr tk c).pred.ghist = (c.pred.ghist * 2 + tk.toNat) % 2 ^ 640 ∧
      (tk = true → ∃ w, w < 8 ∧ tget none (trainBranch key pc len tg 0 fr tk c).pred.btb ((pc / 2 ^^^ key) % 1024 * 8 + w) =
        some ⟨(pc / 2 ^^^ key) / 1024, tg, 0, 0⟩) ∧
      (tk = false → (trainBranch key pc len tg 0 fr tk c).pred.btb = c.pred.btb) ∧
      (trainBranch key pc len tg 0 fr tk c).pred.ras = c.pred.ras ∧
      (provider key pc c.pred = 0 → baseCtr key pc (trainBranch key pc len tg 0 fr tk c).pred =
        if tk = true then min 3 (baseCtr key pc c.pred + 1) else baseCtr key pc c.pred - 1) := by
  obtain ⟨ht0, hbtb, hras⟩ := coreTables_same key pc tg tk c.pred
  have hbase : ∀ q : Pred, q.t0 = (coreTables key pc tg tk c.pred).t0 → provider key pc c.pred = 0 →
      baseCtr key pc q = if tk = true then min 3 (baseCtr key pc c.pred + 1) else baseCtr key pc c.pred - 1 := fun q hq hp => by
    rw [← baseCtr_trainProvider hp tk, baseCtr, baseCtr, hq, ht0]
  rw [trainBranch_zero, trainCore_eq]
  generalize (c.pred.ghist * 2 + tk.toNat) % 2 ^ 640 = g
  cases tk with
  | true => exact ⟨rfl, rfl, fun _ => trainBtb_written _ _ _ _ _ _, fun hf => absurd hf (by decide), hras, hbase _ rfl⟩
  | false => exact ⟨rfl, rfl, fun hf => absurd hf (by decide), fun _ => hbtb, hras, hbase _ rfl⟩

/-- A jump, call or return in one core: the counters and the history stand; the stack and the targets are their own. -/
theorem trainBranch_jump_spec {k : Nat} (hk : k ≠ 0) (key pc len tg fr : Nat) (c : Core) :
    (trainBranch key pc len tg k fr true c).retired = c.retired ∧
      (trainBranch key pc len tg k fr true c).pred.t0 = c.pred.t0 ∧
      (trainBranch key pc len tg k fr true c).pred.ghist = c.pred.ghist ∧
      (trainBranch key pc len tg k fr true c).pred.ras =
        (if k = 2 ∨ k = 5 then ((pc + len) :: c.pred.ras).take 48 else if k = 3 then c.pred.ras.drop 1 else c.pred.ras) ∧
      (k = 4 ∨ k = 5 → (trainBranch key pc len tg k fr true c).pred.targets = (tg :: c.pred.targets).take 32) := by
  unfold trainBranch
  simp only []
  rw [if_neg hk]
  by_cases hi : k = 4 ∨ k = 5
  · rw [if_pos hi]
    exact ⟨rfl, rfl, rfl, rfl, fun _ => rfl⟩
  · rw [if_neg hi]
    exact ⟨rfl, rfl, rfl, rfl, fun hc => absurd hc hi⟩

theorem branchTrain_jump {k : Nat} (hk : k ≠ 0) (h pc len tg : Nat) (tk : Bool) (s : State) :
    branchTrain h pc len tg k tk s = trainBranch (hartOf s h).ckey pc len tg k (freeVal (2 ^ 640) s) true := by
  unfold branchTrain
  rw [bne_iff_ne.mpr hk, Bool.or_true]

theorem branchTrain_cond (h pc len tg : Nat) (tk : Bool) (s : State) :
    branchTrain h pc len tg 0 tk s = trainBranch (hartOf s h).ckey pc len tg 0 (freeVal (2 ^ 640) s) tk := by
  unfold branchTrain
  rw [bne_self_eq_false, Bool.or_false]

/-- A jump, call or return retires: what its cores' predictors hold. -/
theorem branchRetire_jump {h k : Nat} {s : State} (hruns : hartRuns s h = true) (hk : k ≠ 0) (pc len tg : Nat) (tk : Bool) {c : Nat}
    (hc : c ∈ coresOfHart s h) :
    (coreOf (branchRetire h pc len tg k tk s) c).retired = (coreOf s c).retired ∧
      (coreOf (branchRetire h pc len tg k tk s) c).pred.t0 = (coreOf s c).pred.t0 ∧
      (coreOf (branchRetire h pc len tg k tk s) c).pred.ghist = (coreOf s c).pred.ghist ∧
      (coreOf (branchRetire h pc len tg k tk s) c).pred.ras =
        (if k = 2 ∨ k = 5 then ((pc + len) :: (coreOf s c).pred.ras).take 48
          else if k = 3 then (coreOf s c).pred.ras.drop 1 else (coreOf s c).pred.ras) ∧
      (k = 4 ∨ k = 5 → (coreOf (branchRetire h pc len tg k tk s) c).pred.targets = (tg :: (coreOf s c).pred.targets).take 32) := by
  obtain ⟨hpred, hret⟩ := branchRetire_trained hruns pc len tg k tk hc
  rw [hpred, hret, branchTrain_jump hk]
  exact trainBranch_jump_spec hk _ _ _ _ _ _

/-! ### Useful counters -/

/-- Every useful counter halved; an entry that is then as an unlisted one is not listed. -/
def halvedEntries (t : Table PredEnt) : Table PredEnt :=
  (t.map fun e => (e.1, { e.2 with useful := e.2.useful / 2 })).filter fun e => decide (e.2 ≠ {})

theorem usefulHalving_due {c : Nat} {s : State} (hc : 262144 ≤ (coreOf s c).retired) : usefulHalving c s =
    setCore c { coreOf s c with retired := (coreOf s c).retired - 262144,
                                pred := { (coreOf s c).pred with tagged := halvedEntries (coreOf s c).pred.tagged } } s := if_pos hc

theorem mem_halvedEntries {t : Table PredEnt} {k : Nat} {e : PredEnt} (hm : (k, e) ∈ t)
    (hne : (⟨e.valid, e.tag, e.ctr, e.useful / 2⟩ : PredEnt) ≠ ⟨false, 0, 0, 0⟩) :
    (k, ⟨e.valid, e.tag, e.ctr, e.useful / 2⟩) ∈ halvedEntries t :=
  List.mem_filter.mpr ⟨List.mem_map.mpr ⟨(k, e), hm, rfl⟩, decide_eq_true hne⟩

/-! ### The obligation -/

/-- Settles O21: each instruction's effect on its hart, its cores and their predictors, case by case of the model's functions. -/
theorem waitsSeedsKeysAndBranches : Obligations.WaitsSeedsKeysAndBranches := by
  unfold Obligations.WaitsSeedsKeysAndBranches
  intro s h
  refine ⟨fun hruns hresv hirq => ⟨_, rfl, wrsWait_spec hruns hresv hirq (.inl rfl)⟩,
    fun hruns hresv hirq htw => ⟨_, rfl, wrsWait_spec hruns hresv hirq (.inr htw)⟩, fun hresv i hi => ?_,
    fun ns hwrs hns => ⟨_, rfl, wrsTimeout_spec hwrs hns⟩, fun ns hns => ?_, fun hruns hirq => ⟨_, rfl, wfi_waits hruns hirq⟩,
    fun hruns hirq => ?_, fun c r b hruns hf => ?_, fun p r hruns hf hp => ⟨fun hd b => ?_, fun hd => ?_, fun hd => ?_⟩,
    fun hruns => ⟨fun p => ⟨_, rfl, keyUpdate_trap_spec hruns⟩, fun p => ⟨_, rfl, keyUpdate_xret_spec hruns⟩,
      fun v n c hc => ⟨_, rfl, keyUpdate_satp_spec hruns hc⟩, fun v => ⟨_, rfl, keyUpdate_hgatp_spec hruns⟩⟩,
    fun pc len tg tk hruns => ⟨_, rfl, branchRetire_sameL2 hruns _ _ _ _ _, branchRetire_regs hruns _ _ _ _ _, fun c hc => ?_⟩,
    fun pc len tg tk hruns => ⟨_, rfl, fun c hc => ?_⟩, fun pc len tg tk hruns => ⟨_, rfl, fun c hc => ?_⟩,
    fun pc len tg tk hruns => ⟨_, rfl, branchRetire_sameL2 hruns _ _ _ _ _, fun c hc => ?_⟩,
    fun pc len tg tk hruns => ⟨_, rfl, branchRetire_sameL2 hruns _ _ _ _ _, fun c hc => ?_⟩,
    fun pc len tg tk hruns => ⟨_, rfl, branchRetire_sameL2 hruns _ _ _ _ _, fun c hc => ?_⟩,
    fun pc len tg k tk c cs hruns hcs hm => ⟨_, rfl, branchRetire_missed hruns len ?_⟩, fun c hc => ⟨_, rfl, ?_⟩, fun c hc => ?_⟩
  · simp only [List.mem_cons, List.not_mem_nil, or_false] at hi
    obtain rfl | rfl := hi
    · exact ⟨_, rfl, wrsWait_idle hresv⟩
    · exact ⟨_, rfl, wrsWait_idle hresv⟩
  · exact congrArg Host.Outcome.next (if_neg fun hc => absurd hc.2 (by omega))
  · refine ⟨_, rfl, ?_⟩
    rw [wfi_pending hirq]
    have hcounted := HartCounted.retiredAt h s
    obtain ⟨-, -, hx, -, -, -, -, -, hwfi, -⟩ := hcounted.hart.rest
    exact ⟨hwfi, hx, hcounted.hartRest, hcounted.others, hcounted.part State.regs fun _ _ => rfl⟩
  · obtain ⟨v, hraised, hregs⟩ := raiseInstr_raised h c s
    exact ⟨_, v, congrArg Host.Outcome.next (seedRead_of_fault hruns hf r b), hraised, hregs⟩
  · refine ⟨_, congrArg Host.Outcome.next (seedRead_of_pair hruns hf hp r b), (HartCounted.countInst h _).gotX ?_⟩
    rw [seedOf, if_pos (List.contains_iff_mem.mpr hd)]
    exact gotX_setX h r _ s
  · refine ⟨_, congrArg Host.Outcome.next (seedRead_of_pair hruns hf hp r false), (HartCounted.countInst h _).gotX ?_⟩
    rw [seedOf, if_neg (mt List.contains_iff_mem.mp hd), if_neg (by decide)]
    exact gotX_setX h r _ s
  · have hout : seedOf h r p true s = setX h r (2 * 2 ^ 30 + freeVal 65536 s) (freeNext s) := by
      rw [seedOf, if_neg (mt List.contains_iff_mem.mp hd), if_pos rfl]
    refine ⟨_, freeVal 65536 s, Nat.mod_lt _ (by decide), congrArg Host.Outcome.next (seedRead_of_pair hruns hf hp r true),
      (HartCounted.countInst h _).gotX ?_, ?_⟩
    · rw [hout]
      exact gotX_setX h r _ (freeNext s)
    · rw [(HartCounted.countInst h (seedOf h r p true s)).part State.freeCtr fun _ _ => rfl, hout, setX_freeCtr]
      rfl
  · obtain ⟨hpred, hret⟩ := branchRetire_trained hruns pc len tg 0 tk hc
    rw [hpred, hret, branchTrain_cond]
    obtain ⟨hretired, hghist, htaken, hnot, hras, hbase⟩ :=
      trainBranch_zero_spec (hartOf s h).ckey pc len tg (freeVal (2 ^ 640) s) tk (coreOf s c)
    exact ⟨hretired, hghist, htaken, hnot, hras, fun hp _ => hbase hp⟩
  · obtain ⟨hret, ht0, -, hras, -⟩ := branchRetire_jump hruns (k := 2) (by decide) pc len tg tk hc
    exact ⟨hras, ht0, hret⟩
  · obtain ⟨hret, -, -, hras, -⟩ := branchRetire_jump hruns (k := 3) (by decide) pc len tg tk hc
    exact ⟨hras, hret⟩
  · obtain ⟨hret, ht0, hghist, hras, -⟩ := branchRetire_jump hruns (k := 1) (by decide) pc len tg tk hc
    exact ⟨hras, hret, hghist, ht0⟩
  · obtain ⟨hret, -, -, hras, htargets⟩ := branchRetire_jump hruns (k := 4) (by decide) pc len tg tk hc
    exact ⟨htargets (.inl rfl), hras, hret⟩
  · obtain ⟨hret, -, -, hras, htargets⟩ := branchRetire_jump hruns (k := 5) (by decide) pc len tg tk hc
    exact ⟨htargets (.inr rfl), hras, hret⟩
  · rw [branchMissed, hcs]
    exact hm
  · rw [usefulHalving_due hc]
    refine ⟨by rw [setCore_coreOf_same], fun d hd => setCore_coreOf_ne _ _ _ _ hd, fun k e hm hne => ?_⟩
    rw [setCore_coreOf_same]
    exact mem_halvedEntries hm hne
  · exact congrArg Host.Outcome.next (if_neg (by omega))

end Sys2Proof.Machine
end

section
/-! The drain of a surviving core whose number is beyond its pair's two (O22). -/
set_option Elab.async false
namespace Sys2Proof.Machine

/-- Hart 0 runs in machine mode on pair 0, of which one core survives; the survivor is numbered 2, which is core 2, of pair 1. That pair
is checked, names slot 0 without being bound to it, has an inverted output armed, and its core 2 holds a dirty line. -/
def straySurvivor : State := wr (pairStatusSlotValid 0) 1 (wr (pairStatusState 0) 4 (wr (pairStatusState 1) 3
  (setHart 0 { st := .running, priv := .m } (setPair 0 { survivor := some 2 } (setPair 1 { invert := true }
    (setCore 2 { l2 := [(0, ⟨0, .m, false, 0⟩)] } State.reset))))))

/-- Hart 0 runs in machine mode with its bypass clear, and pair 0, on which it runs, has no inverted output armed. The core it counts
as its own is core 2, whose drain trips pair 1's armed fault. -/
theorem straySurvivor_spec : (pairOfHart straySurvivor 0 = some 0 ∧ invertArmed straySurvivor 0 = false ∧
      hartRuns straySurvivor 0 = true ∧ (hartOf straySurvivor 0).priv = .m ∧ rd straySurvivor (dzcachectlDbypass 0) = 0) ∧
    coresOfHart straySurvivor 0 = [2] ∧ invertArmed straySurvivor 1 = true ∧ rd straySurvivor (pairStatusSlot 1) = 0 ∧
      (coreOf straySurvivor 2).l2.any (fun e => e.2.st == .m) = true := by
  decide +kernel

/-- The pair that the hart runs on has no inverted output armed. -/
theorem noInvert_straySurvivor : noInvert straySurvivor 0 := fun p hp => by
  obtain ⟨⟨hpair, hnone, -⟩, -⟩ := straySurvivor_spec
  obtain rfl : 0 = p := Option.some.inj (hpair.symm.trans hp)
  exact hnone

/-- A frozen hart does not run. -/
theorem hartRuns_of_frozen {s : State} {h : Nat} (hst : (hartOf s h).st = .frozen) : hartRuns s h = false := by
  rw [hartRuns, hst]
  rfl

/-- A register of no pair and no pending interrupt reads the same when an armed fault freezes a pair. -/
theorem rd_presentPair {f : Fld} (hclk : ∀ c, fkey f ≠ fkey (clerkIpPending c)) {p : Nat}
    (hne : ∀ g ∈ [pairStatusState p, pairCmpStatusMismatch p, pairCmpStatusBus p, pairCmpStatusBit p, pairCmpStatusCause p,
      pairCmpBeatBeat p, pairCountMismatches p, pairDecisionStep p, pairDecisionOutcome p, pairDecisionPass p], fkey f ≠ fkey g)
    {s : State} (harmed : invertArmed s p = true) (g : State → State) : rd (presentPair p g s) f = rd s f := by
  have hstate : rd (modPair p (fun q => { q with invert := false }) s) (pairStatusState p) = 3 := by
    simp only [invertArmed, Bool.and_eq_true, beq_iff_eq] at harmed
    exact harmed.2
  have hpres : presentPair p g s = freeNext (freeze p 1 (freeVal 288 s) 1 (modPair p (fun q => { q with invert := false }) s)) :=
    if_pos harmed
  rw [hpres]
  generalize freeVal 288 s = bit
  refine (freeze_part 1 bit 1 hstate (rd · f) fun y c => rd_clkIrq 3 p y c f (hclk c)).trans ?_
  exact rd_frozenRegs_ne 1 bit 1 _ hne

/-- The drain meets pair 1's armed fault, and nothing else happens. -/
theorem dbypassOn_straySurvivor : dbypassOn 0 straySurvivor = presentPair 1 id straySurvivor := by
  obtain ⟨⟨-, -, -, -, hclear⟩, hcores, harmed, hslot, hdirty⟩ := straySurvivor_spec
  have htrip : drainTrips 2 straySurvivor = presentPair 1 id straySurvivor := if_pos ⟨harmed, hdirty⟩
  obtain ⟨-, -, -, hfrozen, -⟩ := presentPair_comparedBad id (by decide : 1 < 136) harmed
  rw [hslot] at hfrozen
  have hfold : ([2].foldl (fun b c => drainTrips c b) straySurvivor) = presentPair 1 id straySurvivor := htrip
  have hruns : hartRuns ([2].foldl (fun b c => drainTrips c b) straySurvivor) 0 = false := hfold ▸ hartRuns_of_frozen hfrozen
  unfold dbypassOn
  rw [if_neg (by simp [rdB, hclear]), hcores]
  exact (if_pos hruns).trans hfold

/-- The drain freezes hart 0, and the bypass is not set. -/
theorem dbypass_straySurvivor : rd (bypassSet 0 straySurvivor) (dzcachectlDbypass 0) = 0 := by
  obtain ⟨⟨-, -, hruns, hpriv, hclear⟩, -, harmed, -⟩ := straySurvivor_spec
  have hset : bypassSet 0 straySurvivor = countInst 0 (dbypassOn 0 straySurvivor) := by
    unfold bypassSet csrM
    rw [if_pos hruns, if_pos hpriv]
  rw [hset, (HartCounted.countInst 0 _).part (rd · (dzcachectlDbypass 0)) fun _ _ => rfl, dbypassOn_straySurvivor, ← hclear]
  refine rd_presentPair (fun c => ?_) (by decide) harmed id
  simp only [fkey, dzcachectlDbypass, clerkIpPending]
  omega

/-- Refutes O22: a survivor numbered beyond its pair's two cores is a core of the next pair, whose armed fault stops the write of the
bypass though the hart's own pair has none armed. -/
theorem not_bypassInterruptsAndSnoops : ¬ Obligations.BypassInterruptsAndSnoops := by
  unfold Obligations.BypassInterruptsAndSnoops
  intro h
  obtain ⟨-, -, -, -, hbypass, -⟩ := h straySurvivor 0 (by decide)
  obtain ⟨⟨-, -, hruns, hpriv, hclear⟩, -⟩ := straySurvivor_spec
  obtain ⟨t, ht, hset, -⟩ := hbypass hruns hpriv (by simp [rdB, hclear]) noInvert_straySurvivor
  obtain rfl : bypassSet 0 straySurvivor = t := Host.Outcome.next.inj ht
  exact absurd (dbypass_straySurvivor.symm.trans hset) (by decide)

end Sys2Proof.Machine
end

section
/-! What an operation on the slices of the cache alone may move: their own registers and what they hold (R110). -/
set_option Elab.async false
namespace Sys2Proof.Machine

/-- t is s but for what the slices hold and their registers, of the 128 slices there are. -/
structure SlicesMoved (s t : State) : Prop where
  regs : ∀ f : Fld, fkey f < 0x8000000 ∨ 0xA000000 ≤ fkey f → rd t f = rd s f
  rest : ∃ r m, t = { s with regs := r, slices := m }

theorem SlicesMoved.refl (s : State) : SlicesMoved s s := ⟨fun _ _ => rfl, s.regs, s.slices, rfl⟩

theorem SlicesMoved.trans {s t u : State} (h : SlicesMoved s t) (k : SlicesMoved t u) : SlicesMoved s u := by
  refine ⟨fun f hf => (k.regs f hf).trans (h.regs f hf), ?_⟩
  obtain ⟨r, m, ht⟩ := h.rest
  obtain ⟨r', m', hu⟩ := k.rest
  exact ⟨r', m', by rw [hu, ht]⟩

/-- A part of the state other than the registers and the slices stands. -/
theorem SlicesMoved.part {α : Type} {s t : State} (h : SlicesMoved s t) (v : State → α)
    (hv : ∀ y r m, v { y with regs := r, slices := m } = v y) : v t = v s := by
  obtain ⟨r, m, ht⟩ := h.rest
  rw [ht]
  exact hv s r m

theorem SlicesMoved.beat {s t : State} (h : SlicesMoved s t) : beat t = beat s := h.regs clkBeatBeat (.inl (by decide))

theorem SlicesMoved.setSlice (n : Nat) (r : Slice) (s : State) : SlicesMoved s (setSlice n r s) := ⟨fun _ _ => rfl, s.regs, _, rfl⟩

/-- A register of slice n, which has 128 at most. -/
theorem SlicesMoved.wr {n : Nat} (hn : n < 128) {g : Fld} (hoff : 0x200000 + n * 0x1000 ≤ g.off) (hend : g.off < 0x200000 + n * 0x1000 + 0x1000)
    (hlo : g.lo < 64) (v : Nat) (s : State) : SlicesMoved s (wr g v s) := by
  refine ⟨fun f hf => rd_wr_ne _ _ _ _ fun heq => ?_, _, s.slices, rfl⟩
  rw [heq] at hf
  unfold fkey at hf
  omega

theorem SlicesMoved.ite {p : Prop} [Decidable p] {s t u : State} (ht : SlicesMoved s t) (hu : SlicesMoved s u) :
    SlicesMoved s (if p then t else u) := by
  split
  · exact ht
  · exact hu

theorem SlicesMoved.putSlice {n : Nat} (hn : n < 128) (r : Slice) (s : State) : SlicesMoved s (putSlice n r s) := by
  have hput : SlicesMoved s (Machine.wr (llcVictimOccupancy n) r.victims.length (Machine.wr (llcAmqOccupancy n) r.amq.length
      (Machine.setSlice n r s))) := by
    refine .trans (.trans (.setSlice n r s) (.wr hn ?_ ?_ (by simp [llcAmqOccupancy]) _ _)) (.wr hn ?_ ?_ (by simp [llcVictimOccupancy]) _ _)
    all_goals simp only [llcAmqOccupancy, llcVictimOccupancy]; omega
  unfold Machine.putSlice
  simp only []
  split
  · refine hput.trans (.trans (.wr hn ?_ ?_ (by simp [llcDrainVictimsLeft]) _ _) (.wr hn ?_ ?_ (by simp [llcDrainLinesLeft]) _ _))
    all_goals simp only [llcDrainLinesLeft, llcDrainVictimsLeft]; omega
  · exact hput

theorem SlicesMoved.lockedMask {n : Nat} (hn : n < 128) (v : Nat) (s : State) : SlicesMoved s (Machine.wr (llcWaysLockedMask n) v s) :=
  .wr hn (by simp only [llcWaysLockedMask]; omega) (by simp only [llcWaysLockedMask]; omega) (by simp [llcWaysLockedMask]) v s

theorem SlicesMoved.lockedWays {n t : Nat} (hn : n < 128) (ht : t < 257) (v : Nat) (s : State) :
    SlicesMoved s (Machine.wr (llcPartLockedWays n t) v s) :=
  .wr hn (by simp only [llcPartLockedWays]; omega) (by simp only [llcPartLockedWays]; omega) (by simp [llcPartLockedWays]) v s

theorem SlicesMoved.homeSlice {s t : State} (h : SlicesMoved s t) (x line : Nat) : homeSlice t x line = homeSlice s x line :=
  h.part (fun y => Machine.homeSlice y x line) fun _ _ _ => rfl

end Sys2Proof.Machine
end

section
/-! cache.lock, cache.unlock, cache.slice and cache.status (O28; R123, R124, R128, R138). -/
set_option Elab.async false
namespace Sys2Proof.Machine

/-! ### cache.unlock -/

/-- The lock's hold of one line ends. -/
def unlockLine (k : CLock) (s : State) (line : Nat) : State :=
  match arrOf s (homeSlice s k.owner line) line with
  | some l => if inMask (lockMask k (homeSlice s k.owner line)) l.way then
      putArr (homeSlice s k.owner line) line { l with locked := false } s else s
  | none => if inMask (lockMask k (homeSlice s k.owner line)) (tget 0 (sliceOf s (homeSlice s k.owner line)).parked line - 1) then
      setSlice (homeSlice s k.owner line) { sliceOf s (homeSlice s k.owner line) with
        parked := tset 0 (sliceOf s (homeSlice s k.owner line)).parked line 0 } s
    else s

/-- The lock's ways of one slice are released. -/
def unlockWays (k : CLock) (s : State) (e : Nat × Nat) : State :=
  wr (llcWaysLockedMask e.1) (rd s (llcWaysLockedMask e.1) &&& (0xFFFFFF - e.2))
    (wr (llcPartLockedWays e.1 k.owner) (rd s (llcPartLockedWays e.1 k.owner) &&& (0xFFFFFF - e.2)) s)

theorem dropLock_eq (k : CLock) (s : State) : dropLock k s =
    k.held.foldl (unlockWays k) (k.lines.foldl (unlockLine k) { s with mesh := { s.mesh with locks := s.mesh.locks.erase k } }) := rfl

theorem SlicesMoved.unlockLine {k : CLock} {line : Nat} {s : State} (hn : Machine.homeSlice s k.owner line < 128) :
    SlicesMoved s (unlockLine k s line) := by
  unfold Machine.unlockLine
  split
  · exact .ite (.putSlice hn _ s) (.refl s)
  · exact .ite (.setSlice _ _ s) (.refl s)

theorem SlicesMoved.unlockWays {k : CLock} {e : Nat × Nat} (he : e.1 < 128) (ho : k.owner < 257) (s : State) :
    SlicesMoved s (unlockWays k s e) :=
  .trans (.lockedWays he ho _ s) (.lockedMask he _ _)

theorem SlicesMoved.dropLock {k : CLock} {s : State} (hheld : ∀ e ∈ k.held, e.1 < 128)
    (hlines : ∀ l ∈ k.lines, Machine.homeSlice s k.owner l < 128) (ho : k.owner < 257) :
    SlicesMoved { s with mesh := { s.mesh with locks := s.mesh.locks.erase k } } (dropLock k s) := by
  rw [dropLock_eq]
  have hfold := List.foldlRecOn (motive := SlicesMoved { s with mesh := { s.mesh with locks := s.mesh.locks.erase k } })
    k.lines (Machine.unlockLine k) (.refl _) fun y hy l hl => hy.trans (.unlockLine ((hy.homeSlice k.owner l).trans_lt (hlines l hl)))
  exact List.foldlRecOn (motive := SlicesMoved _) k.held (Machine.unlockWays k) hfold fun y hy e he => hy.trans (.unlockWays (hheld e he) ho y)

theorem fkey_mbxSeqSeq (i : Nat) : 0xA000000 ≤ fkey (mbxSeqSeq i) := by
  simp only [fkey, mbxSeqSeq]
  omega

theorem cacheUnlock_found {i : Nat} {c : Bytes} {s : State} {k : CLock}
    (hk : (locksOf s i).find? (fun k => k.id == min 7 (arg c 0 1)) = some k) :
    cacheUnlock i c (started i s) =
      stageDone i (chg (arg c 0 1) (min 7 (arg c 0 1))) (mkBytes [(0, 1, min 7 (arg c 0 1))]) (dropLock k (started i s)) := by
  have hfind : (locksOf (started i s) i).find? (fun k => k.id == min 7 (arg c 0 1)) = some k := hk
  unfold cacheUnlock
  simp only []
  rw [hfind]

theorem cacheUnlock_none {i : Nat} {c : Bytes} {s : State}
    (hk : (locksOf s i).find? (fun k => k.id == min 7 (arg c 0 1)) = none) :
    cacheUnlock i c (started i s) =
      stageDone i (chg (arg c 0 1) (min 7 (arg c 0 1))) (mkBytes [(0, 1, min 7 (arg c 0 1)), (1, 1, 1)]) (started i s) := by
  have hfind : (locksOf (started i s) i).find? (fun k => k.id == min 7 (arg c 0 1)) = none := hk
  unfold cacheUnlock
  simp only []
  rw [hfind]

theorem mesh_stageDone (i cl : Nat) (data : Bytes) (s : State) : (stageDone i cl data s).mesh = s.mesh :=
  stageDone_keeps_part State.mesh setMbx_mesh wr_mesh i cl data s

theorem slices_stageDone (i cl : Nat) (data : Bytes) (s : State) : (stageDone i cl data s).slices = s.slices :=
  stageDone_keeps_part State.slices setMbx_slices wr_slices i cl data s

theorem cacheUnlock_spec {i : Nat} {c : Bytes} {s : State} {k : CLock}
    (hk : (locksOf s i).find? (fun k => k.id == min 7 (arg c 0 1)) = some k) (hheld : ∀ e ∈ k.held, e.1 < 128)
    (hlines : ∀ l ∈ k.lines, homeSlice s k.owner l < 128) (ho : k.owner < 257) :
    doneIn s (cacheUnlock i c (started i s)) i (chg (arg c 0 1) (min 7 (arg c 0 1))) (mkBytes [(0, 1, min 7 (arg c 0 1))]) ∧
      (cacheUnlock i c (started i s)).mesh.locks = s.mesh.locks.erase k := by
  have hmoved := SlicesMoved.dropLock (s := started i s) hheld hlines ho
  have hmbx : mbxOf (dropLock k (started i s)) i = { mbxOf s i with phase := .started } :=
    (hmoved.part (mbxOf · i) fun _ _ _ => rfl).trans (mbxOf_started i s)
  have hmesh := hmoved.part State.mesh fun _ _ _ => rfl
  have hseq := hmoved.regs (mbxSeqSeq i) (.inr (fkey_mbxSeqSeq i))
  have hbeat := hmoved.beat
  rw [cacheUnlock_found hk, mesh_stageDone, hmesh]
  exact ⟨doneIn_stageDone _ _ (by rw [hmbx]) (by rw [hmbx]) hseq hbeat, rfl⟩

/-! ### cache.lock -/

/-- What cache.lock reads of its command: base, size, slices, the limit of its ways and its ways. -/
def lockBase (c : Bytes) : Nat := roundDown 4096 (arg c 0 8)
def lockSize (c : Bytes) : Nat := clampR 4096 0x40000000 (roundUp 4096 (arg c 8 8))
def lockSlices (s : State) (i : Nat) (c : Bytes) : List Nat := ((rangeLines (lockBase c) (lockSize c)).map (homeSlice s i)).eraseDups
def lockMost (s : State) (i : Nat) (c : Bytes) : Nat := ((lockSlices s i c).map (lockLimit s i)).foldl min 24
def lockWays (s : State) (i : Nat) (c : Bytes) : Nat := clampR (min 1 (lockMost s i c)) (lockMost s i c) (arg c 0x10 1)
def lockClamps (s : State) (i : Nat) (c : Bytes) : Nat :=
  chg (arg c 0 8) (lockBase c) + chg (arg c 8 8) (lockSize c) + chg (arg c 0x10 1) (lockWays s i c)

/-- Ways reserved in every slice of the range. -/
def lockReserved (s : State) (i : Nat) (c : Bytes) : State × List (Nat × Nat) :=
  (lockSlices s i c).foldl (reserveWays i (lockWays s i c)) (s, [])

/-- The range begins its preload. -/
def lockBegun (s : State) (i : Nat) (c : Bytes) : State :=
  { (lockReserved s i c).1 with
    mesh := { (lockReserved s i c).1.mesh with
      preload := (lockReserved s i c).1.mesh.preload ++ [(i, { owner := i, id := freeLockId s i, base := lockBase c, size := lockSize c
                                                               ways := lockWays s i c, lines := [], slices := lockSlices s i c
                                                               held := (lockReserved s i c).2 })] } }

theorem cacheLock_eq (i : Nat) (c : Bytes) (s : State) : cacheLock i c s =
    if ownsRange s i (lockBase c) (lockSize c) = false then stageDone i (lockClamps s i c)
      (mkBytes [(0, 8, lockBase c), (8, 8, lockSize c), (0x10, 1, lockWays s i c), (0x11, 1, 1)]) s
    else if 8 ≤ (locksOf s i).length then stageDone i (lockClamps s i c)
      (mkBytes [(0, 8, lockBase c), (8, 8, lockSize c), (0x10, 1, lockWays s i c), (0x11, 1, 2)]) s
    else lockBegun s i c := rfl

/-- Every slice of the range has its entry, in their order. -/
theorem reserve_slices (i w : Nat) (l : List Nat) (a : State × List (Nat × Nat)) :
    (l.foldl (reserveWays i w) a).2.map Prod.fst = a.2.map Prod.fst ++ l := by
  induction l generalizing a with
  | nil => exact (List.append_nil _).symm
  | cons n r ih =>
    rw [List.foldl_cons, ih (reserveWays i w a n)]
    simp [reserveWays]

/-- Reserving ways moves registers and the free choices alone. -/
theorem lockReserved_part (s : State) (i : Nat) (c : Bytes) (p : Part) (hregs : p ≠ .regs) (hfree : p ≠ .freeCtr) :
    samePart p s (lockReserved s i c).1 := by
  have hkeeps : Keeps 0x20000001 s (lockReserved s i c).1 :=
    List.foldlRecOn (motive := fun a => Keeps 0x20000001 s a.1) (lockSlices s i c) (reserveWays i (lockWays s i c))
      (keeps_refl _ s) fun a ha n _ => reserveWays_keeps _ _ _ _ ha (Nat.or_self _)
  refine hkeeps.part p ?_
  cases p with
  | regs => exact absurd rfl hregs
  | freeCtr => exact absurd rfl hfree
  | _ => decide

theorem lockBegun_spec (s : State) (i : Nat) (c : Bytes) : goesOn (lockBegun (started i s) i c) i ∧
    (lockBegun (started i s) i c).mesh.locks = s.mesh.locks ∧ ∃ held, held.map Prod.fst = lockSlices s i c ∧
      (lockBegun (started i s) i c).mesh.preload = s.mesh.preload ++
        [(i, ⟨i, freeLockId s i, lockBase c, lockSize c, lockWays s i c, [], lockSlices s i c, held⟩)] := by
  have hmbx : (lockReserved (started i s) i c).1.mbx = (started i s).mbx := lockReserved_part (started i s) i c .mbx nofun nofun
  have hmesh : (lockReserved (started i s) i c).1.mesh = s.mesh := lockReserved_part (started i s) i c .mesh nofun nofun
  have hbox : mbxOf (lockBegun (started i s) i c) i = mbxOf (started i s) i := congrArg (fun m => tget ({} : Mbx) m i) hmbx
  have hlocks : (lockReserved (started i s) i c).1.mesh.locks = s.mesh.locks := by rw [hmesh]
  refine ⟨goesOn_of_mbx (goesOn_started i s) hbox, hlocks, (lockReserved (started i s) i c).2, reserve_slices _ _ _ _, ?_⟩
  exact congrArg (fun m : Mesh => m.preload ++ [(i, (⟨i, freeLockId s i, lockBase c, lockSize c, lockWays s i c, [], lockSlices s i c,
    (lockReserved (started i s) i c).2⟩ : CLock))]) hmesh

theorem cacheLock_spec {i : Nat} {c : Bytes} {s : State} :
    (ownsRange s i (lockBase c) (lockSize c) = false →
        doneIn s (cacheLock i c (started i s)) i (lockClamps s i c)
          (mkBytes [(0, 8, lockBase c), (8, 8, lockSize c), (0x10, 1, lockWays s i c), (0x11, 1, 1)]) ∧
        samePart .mesh s (cacheLock i c (started i s))) ∧
      (ownsRange s i (lockBase c) (lockSize c) = true → 8 ≤ (locksOf s i).length →
        doneIn s (cacheLock i c (started i s)) i (lockClamps s i c)
          (mkBytes [(0, 8, lockBase c), (8, 8, lockSize c), (0x10, 1, lockWays s i c), (0x11, 1, 2)]) ∧
        samePart .mesh s (cacheLock i c (started i s))) ∧
      (ownsRange s i (lockBase c) (lockSize c) = true → (locksOf s i).length < 8 → goesOn (cacheLock i c (started i s)) i ∧
        (cacheLock i c (started i s)).mesh.locks = s.mesh.locks ∧ ∃ held, held.map Prod.fst = lockSlices s i c ∧
        (cacheLock i c (started i s)).mesh.preload = s.mesh.preload ++
          [(i, ⟨i, freeLockId s i, lockBase c, lockSize c, lockWays s i c, [], lockSlices s i c, held⟩)]) := by
  have howns : ownsRange (started i s) i (lockBase c) (lockSize c) = ownsRange s i (lockBase c) (lockSize c) := rfl
  have hlocks : locksOf (started i s) i = locksOf s i := rfl
  rw [cacheLock_eq, howns, hlocks]
  refine ⟨fun ho => ?_, fun ho h8 => ?_, fun ho h8 => ?_⟩
  · rw [if_pos ho]
    exact ⟨doneIn_started s i _ _, mesh_stageDone _ _ _ _⟩
  · rw [if_neg (by rw [ho]; decide), if_pos h8]
    exact ⟨doneIn_started s i _ _, mesh_stageDone _ _ _ _⟩
  · rw [if_neg (by rw [ho]; decide), if_neg (by omega)]
    exact lockBegun_spec s i c

/-! ### cache.slice and the drain that it asks for -/

theorem cacheSlice_eq (i : Nat) (c : Bytes) (s : State) : cacheSlice i c s =
    if rd s (llcStatusState (clampUnit 128 (slicePresent s) (arg c 0 1))) ≠ 1 then
      stageDone i (chg (arg c 0 1) (clampUnit 128 (slicePresent s) (arg c 0 1)))
        (mkBytes [(0, 1, clampUnit 128 (slicePresent s) (arg c 0 1)), (1, 1, 1)]) s
    else if lastSlice s (clampUnit 128 (slicePresent s) (arg c 0 1)) then
      stageDone i (chg (arg c 0 1) (clampUnit 128 (slicePresent s) (arg c 0 1)))
        (mkBytes [(0, 1, clampUnit 128 (slicePresent s) (arg c 0 1)), (1, 1, 2)]) s
    else addStep i (beat s + 1) (.drainSlice (clampUnit 128 (slicePresent s) (arg c 0 1)) 1)
      (setSlice (clampUnit 128 (slicePresent s) (arg c 0 1))
        { sliceOf s (clampUnit 128 (slicePresent s) (arg c 0 1)) with walkMbx := some i } s) := rfl

theorem cacheSlice_spec {i n : Nat} {c : Bytes} {s : State} (hn : clampUnit 128 (slicePresent s) (arg c 0 1) = n) :
    samePart .mesh s (cacheSlice i c (started i s)) ∧
      (rd s (llcStatusState n) ≠ 1 → doneIn s (cacheSlice i c (started i s)) i (chg (arg c 0 1) n) (mkBytes [(0, 1, n), (1, 1, 1)])) ∧
      (rd s (llcStatusState n) = 1 → lastSlice s n = true →
        doneIn s (cacheSlice i c (started i s)) i (chg (arg c 0 1) n) (mkBytes [(0, 1, n), (1, 1, 2)])) ∧
      (rd s (llcStatusState n) = 1 → lastSlice s n = false → goesOn (cacheSlice i c (started i s)) i ∧
        (cacheSlice i c (started i s)).journal = s.journal ++ [⟨i, beat s + 1, .drainSlice n 1⟩] ∧
        (sliceOf (cacheSlice i c (started i s)) n).walkMbx = some i) := by
  have hclamp : clampUnit 128 (slicePresent (started i s)) (arg c 0 1) = n := hn
  have hstate : rd (started i s) (llcStatusState n) = rd s (llcStatusState n) := rfl
  have hlast : lastSlice (started i s) n = lastSlice s n := rfl
  rw [cacheSlice_eq, hclamp, hstate, hlast]
  by_cases h1 : rd s (llcStatusState n) = 1
  · rw [if_neg (not_not_intro h1)]
    by_cases hl : lastSlice s n = true
    · rw [if_pos hl]
      exact ⟨mesh_stageDone _ _ _ _, fun h => absurd h1 h, fun _ _ => doneIn_started s i _ _, fun _ hf => absurd (hl.symm.trans hf) (by decide)⟩
    · rw [if_neg hl]
      refine ⟨rfl, fun h => absurd h1 h, fun _ ht => absurd ht hl, fun _ _ => ⟨goesOn_started i s, rfl, ?_⟩⟩
      exact congrArg Slice.walkMbx (setSlice_sliceOf_same n { sliceOf (started i s) n with walkMbx := some i } (started i s))
  · rw [if_pos h1]
    exact ⟨mesh_stageDone _ _ _ _, fun _ => doneIn_started s i _ _, fun h => absurd h h1, fun h => absurd h h1⟩

theorem drainSlice_asked {i n : Nat} {s : State} (hw : (sliceOf s n).walkMbx = some i) : drainSlice n 1 s =
    if rd s (llcStatusState n) ≠ 1 then sliceRefused n i 1 s
    else if lastSlice s n then sliceRefused n i 2 s else startDrain n 1 s := by
  unfold drainSlice
  rw [if_pos rfl, hw]

theorem sliceRefused_doneIn (n i outcome : Nat) (s : State) :
    doneIn s (sliceRefused n i outcome s) i (chg (arg (mbxOf s i).copy 0 1) n) (mkBytes [(0, 1, n), (1, 1, outcome)]) :=
  doneIn_stageDone _ _ rfl rfl rfl rfl

theorem startDrain_state {n : Nat} (cause : Nat) {s : State} (h : rd s (llcStatusState n) = 1) :
    rd (startDrain n cause s) (llcStatusState n) = 2 := by
  rw [startDrain, if_pos h, rd_wr_same]
  rfl

/-! ### The obligation -/

/-- Settles O28: each command's cases, and the drain that cache.slice asks for. -/
theorem cacheCommands : Obligations.CacheCommands := by
  unfold Obligations.CacheCommands
  intro s i c _
  refine ⟨fun h => ⟨_, _, _, _, _, _, _, rfl, rfl, rfl, rfl, rfl, rfl, congrArg Host.Outcome.next (onCmd_of_taken h _), cacheLock_spec⟩,
    fun h => ⟨_, congrArg Host.Outcome.next (onCmd_of_taken h _), fun hk => ?_,
      fun k hk hheld hlines ho => cacheUnlock_spec hk hheld hlines ho⟩,
    fun h => ⟨_, _, _, rfl, rfl, congrArg Host.Outcome.next (onCmd_of_taken h _), cacheSlice_spec rfl⟩, fun n hw => ?_,
    fun h => ⟨_, _, rfl, congrArg Host.Outcome.next (onCmd_of_taken h _), slices_stageDone _ _ _ _, doneIn_started s i _ _⟩⟩
  · rw [cacheUnlock_none hk]
    exact ⟨doneIn_started s i _ _, mesh_stageDone _ _ _ _⟩
  · have hact : applyAct s (.drainSlice n 1) = drainSlice n 1 s := rfl
    rw [hact, drainSlice_asked hw]
    refine ⟨fun h1 => ?_, fun h1 hl => ?_, fun h1 hl _ => ?_⟩
    · rw [if_pos h1]
      exact sliceRefused_doneIn n i 1 s
    · rw [if_neg (not_not_intro h1), if_pos hl]
      exact sliceRefused_doneIn n i 2 s
    · rw [if_neg (not_not_intro h1), if_neg (by rw [hl]; decide)]
      exact startDrain_state 1 h1

end Sys2Proof.Machine
end

section
/-! The fence of a link at a device which then runs alone (R236), its device ID wider than the field's six bits (O29). -/
set_option Elab.async false
namespace Sys2Proof.Machine

/-- A joining device with port 0 up alone, which holds device ID 64: the route entry of that number lies at the place of port 0's
FABPORT_STATUS. -/
def wideLink : State :=
  modFab (fun f => { f with idHeld := true })
    (rawReg fabIdDeviceId 64 (wr fabStateState 3 (wr (fabPortStatusState 0) 4 State.reset)))

/-- Refutes O29: it takes any register contents, and at a device whose ID has more than six bits the route entry that running alone
writes replaces the state of the port whose link is fenced. -/
theorem not_fencesOfUnits : ¬ Obligations.FencesOfUnits := by
  unfold Obligations.FencesOfUnits
  intro h
  obtain ⟨-, hfence⟩ := h wideLink
  obtain ⟨-, -, -, -, -, -, -, hlink, -⟩ := hfence (by decide +kernel)
  obtain ⟨t, rfl, hstate, -⟩ := hlink 0 (by decide +kernel) (by decide +kernel)
  have hentry : portState5 (applyAct wideLink (.fence (.link 0))) 0 = 6 * 299593 + 2 ^ 27 := by decide +kernel
  exact absurd (hentry.symm.trans hstate) (by decide)

end Sys2Proof.Machine
end

section
/-! The move of a nibble's read delay where the register holds more than its seven bits (O32). -/
set_option Elab.async false
namespace Sys2Proof.Machine

/-- A DIMM of 64 GB with two ranks. -/
def someDimm : DimmSpd :=
  { ranks := 2, stack := 0, density := 1, capGb := 64, speeds := [4800], tRAS := 32000, tCWL := 16000, tWR := 30000, tRP := 16000
    tRCD := 16000, tCL := 16000, tRFC := 295000 }

/-- A shared read of line 0. -/
def someRead : DReq := { line := 0, tag := 0, write := false, cls := 1 }

/-- Channel 0 serves the map and has that read in flight; the read delay of its nibble 0 holds 200, which no write leaves in its
seven bits. -/
def wideDelay : State := rawReg (mcNibbleRdDelay 0 0) 200 { State.reset with
  mem := { chans := [(0, { dimm := some someDimm, flight := [(0, [someRead])] })], map := [⟨0, 2 ^ 32, [0]⟩] } }

theorem delay_wideDelay : rd wideDelay (mcNibbleRdDelay 0 0) = 200 := rd_rawReg_same _ _ _

/-- Refutes O32: it takes any register contents, and where no move is due a delay wider than its field stays as it is. -/
theorem not_dramReadReturns : ¬ Obligations.DramReadReturns := by
  unfold Obligations.DramReadReturns
  rintro ⟨-, -, h⟩
  obtain ⟨-, -, -, -, -, -, hmove, -⟩ := h wideDelay 0 0 [] someRead [] (coordIn someDimm 0 0 0) _ (by decide) (by decide +kernel)
    (by decide +kernel) (by decide +kernel) (by decide) (by decide) rfl rfl rfl rfl
  obtain ⟨hdelay, -⟩ := hmove 0 0 (by decide) rfl (by decide +kernel)
  have hstays : rd (moveDelays 0 0 wideDelay) (mcNibbleRdDelay 0 0) = 200 := by decide +kernel
  rw [hstays, delay_wideDelay] at hdelay
  exact absurd hdelay (by decide +kernel)

end Sys2Proof.Machine
end

section
/-! What a slice holds when lines leave it (R127, R218). -/
set_option Elab.async false
namespace Sys2Proof.Machine

/-- Every line that a slice of t holds, the same slice of s held, under the same tenancy. -/
def LinesShrink (s t : State) : Prop :=
  ∀ m, ∀ e ∈ (sliceOf t m).lines, ∃ o ∈ (sliceOf s m).lines, o.1 = e.1 ∧ o.2.tag = e.2.tag

theorem LinesShrink.refl (s : State) : LinesShrink s s := fun _ e he => ⟨e, he, rfl, rfl⟩

theorem LinesShrink.trans {s t u : State} (h : LinesShrink s t) (k : LinesShrink t u) : LinesShrink s u := fun m e he => by
  obtain ⟨o, ho, hkey, htag⟩ := k m e he
  obtain ⟨p, hp, hkey', htag'⟩ := h m o ho
  exact ⟨p, hp, hkey'.trans hkey, htag'.trans htag⟩

theorem LinesShrink.of_slices {s t : State} (h : t.slices = s.slices) : LinesShrink s t := fun m e he =>
  ⟨e, by rw [sliceOf, h] at he; exact he, rfl, rfl⟩

theorem LinesShrink.setSlice {n : Nat} {r : Slice} {s : State}
    (h : ∀ e ∈ r.lines, ∃ o ∈ (sliceOf s n).lines, o.1 = e.1 ∧ o.2.tag = e.2.tag) : LinesShrink s (setSlice n r s) := fun m e he => by
  by_cases hm : m = n
  · subst hm
    rw [setSlice_sliceOf_same] at he
    exact h e he
  · rw [setSlice_sliceOf_ne _ _ _ _ hm] at he
    exact ⟨e, he, rfl, rfl⟩

theorem putSlice_slices (n : Nat) (r : Slice) (s : State) : (putSlice n r s).slices = (setSlice n r s).slices := by
  unfold putSlice
  simp only []
  split <;> rfl

theorem LinesShrink.putSlice {n : Nat} {r : Slice} {s : State}
    (h : ∀ e ∈ r.lines, ∃ o ∈ (sliceOf s n).lines, o.1 = e.1 ∧ o.2.tag = e.2.tag) : LinesShrink s (putSlice n r s) :=
  .trans (.setSlice h) (.of_slices (putSlice_slices n r s))

theorem LinesShrink.dropArr (n line : Nat) (s : State) : LinesShrink s (dropArr n line s) :=
  .putSlice fun e he => ⟨e, (mem_of_mem_tdel he).1, rfl, rfl⟩

theorem mem_of_tfind {α : Type} {l : Table α} {k : Nat} {v : α} (h : tfind l k = some v) : (k, v) ∈ l := by
  induction l with
  | nil => exact absurd h nofun
  | cons x r ih =>
    obtain ⟨j, u⟩ := x
    unfold tfind at h
    split at h
    · rename_i hjk
      rw [hjk, Option.some.inj h]
      exact List.mem_cons_self
    · exact List.mem_cons_of_mem _ (ih h)

/-- A line that the slice holds is stored again. -/
theorem LinesShrink.putArr {n line : Nat} {o l : SLine} {s : State} (ho : arrOf s n line = some o) (htag : l.tag = o.tag) :
    LinesShrink s (putArr n line l s) :=
  .putSlice fun e he => by
    obtain rfl | he := mem_tput _ _ _ _ he
    · exact ⟨(line, o), mem_of_tfind ho, rfl, htag.symm⟩
    · exact ⟨e, he, rfl, rfl⟩

theorem LinesShrink.correctLine (n line : Nat) (s : State) : LinesShrink s (correctLine n line s) := by
  unfold Machine.correctLine
  split
  · rename_i x hx
    exact .putArr hx rfl
  · exact .setSlice fun e he => ⟨e, he, rfl, rfl⟩

theorem LinesShrink.sliceFault (n row way : Nat) (ts : List Nat) (s : State) : LinesShrink s (sliceFault n row way ts s) :=
  .setSlice fun e he => ⟨e, he, rfl, rfl⟩

theorem writeHome_slices (tag line data : Nat) (poison : Bool) (s : State) : (writeHome tag line data poison s).slices = s.slices :=
  (writeHome_keeps tag line data poison s (keeps_refl _ s) (Nat.or_self _)).part .slices rfl

theorem recVisible_slices (sl kind unit cause : Nat) (ts : List Nat) (addr : Nat) (detail : List Nat) (uT : Nat) (dT : List Nat)
    (s : State) : (recVisible sl kind unit cause ts addr detail uT dT s).slices = s.slices :=
  (recVisible_keeps sl kind unit cause ts addr detail uT dT s (keeps_refl _ s) (Nat.or_self _)).part .slices rfl

theorem recContained_slices (sl kind unit cause addr : Nat) (detail : List Nat) (s : State) :
    (recContained sl kind unit cause addr detail s).slices = s.slices :=
  (recContained_keeps sl kind unit cause addr detail s (keeps_refl _ s) (Nat.or_self _)).part .slices rfl

theorem recCorrected_slices (sl kind unit cause addr : Nat) (s : State) : (recCorrected sl kind unit cause addr s).slices = s.slices :=
  (recCorrected_keeps sl kind unit cause addr s (keeps_refl _ s) (Nat.or_self _)).part .slices rfl

theorem rowMet_slices (n row0 row line way tag : Nat) (s : State) :
    (rowLast n row line way tag (rowErrors n row0 s)).slices = s.slices := by
  unfold rowErrors
  split_ifs <;> rfl

/-- An error of the data or the tag array of a slice, the rows up to 5 of Table 5.2, puts no line into it. -/
theorem LinesShrink.rowAct {n line row way : Nat} {l : SLine} {s y : State} (h : LinesShrink s y) (hrow : row ≤ 5) :
    LinesShrink s (rowAct n line row way l s y) := by
  have hdrop : LinesShrink s (Machine.dropArr n line y) := h.trans (.dropArr n line y)
  unfold Machine.rowAct
  split
  · exact (h.trans (.correctLine n line y)).trans (.of_slices (recCorrected_slices _ _ _ _ _ _))
  · exact hdrop.trans (.of_slices (recContained_slices _ _ _ _ _ _ _))
  · exact (hdrop.trans (.of_slices (writeHome_slices _ _ _ _ _))).trans (.of_slices (recVisible_slices _ _ _ _ _ _ _ _ _ _))
  · exact hdrop.trans (.of_slices (recContained_slices _ _ _ _ _ _ _))
  · exact hdrop.trans (.sliceFault _ _ _ _ _)
  · exact absurd hrow (by decide)
  · exact absurd hrow (by decide)
  · exact absurd hrow (by decide)
  · exact absurd hrow (by decide)
  · exact .refl s

theorem errRow_le (l : Option SLine) : errRow l ≤ 4 := by
  unfold errRow
  split
  · split_ifs <;> decide
  · decide

theorem rowOf_le {row : Nat} (h : row ≤ 4) (dirty : Bool) : rowOf row dirty ≤ 5 := by
  unfold rowOf
  split_ifs <;> omega

theorem LinesShrink.readHeld (n line : Nat) (s : State) : LinesShrink s (readHeld n line s) := by
  have hrow := errRow_le ((arrOf s n line).or (vicOf s n line))
  unfold Machine.readHeld
  simp only []
  generalize errRow ((arrOf s n line).or (vicOf s n line)) = row at hrow
  generalize ((((arrOf s n line).or (vicOf s n line)).map (·.tag)).getD 0) = tag
  split
  · exact .refl s
  · obtain ⟨l, way, heq⟩ := arrayError_eq n line tag row s
    rw [heq]
    exact .rowAct (.of_slices (rowMet_slices n _ _ line way l.tag s)) (rowOf_le hrow _)

theorem LinesShrink.flushHeld (x n line : Nat) (s : State) : LinesShrink s (flushHeld x n line s) := by
  unfold Machine.flushHeld
  split
  · rename_i l _
    refine LinesShrink.trans ?_ (.dropArr n line _)
    split
    · exact .of_slices (writeHome_slices _ _ _ _ _)
    · exact .refl s
  · exact .refl s

/-- A flushed line is no longer in its slice. -/
theorem flushHeld_gone (x n line : Nat) (s : State) : ∀ e ∈ (sliceOf (flushHeld x n line s) n).lines, e.1 ≠ line := by
  intro e he
  unfold flushHeld at he
  split at he
  · rw [sliceOf, dropArr, putSlice_slices] at he
    have hline := (congrArg (fun r : Slice => e ∈ r.lines) (setSlice_sliceOf_same n _ _)).mp he
    exact (mem_of_mem_tdel hline).2
  · rename_i hnone
    have harr : tfind (sliceOf s n).lines line = none := (Option.or_eq_none_iff.mp hnone).1
    exact tfind_eq_none.mp harr e he

/-- One line of the tenancy read and flushed. -/
def drainHeldLine (x n : Nat) (s : State) (line : Nat) : State := flushHeld x n line (readHeld n line s)

theorem LinesShrink.drainHeldLine (x n line : Nat) (s : State) : LinesShrink s (drainHeldLine x n s line) :=
  (LinesShrink.readHeld n line s).trans (.flushHeld x n line _)

/-- The lines that slice n holds of the tenancy. -/
def heldLines (x n : Nat) (s : State) : List Nat :=
  (((sliceOf s n).lines ++ (sliceOf s n).victims).filter fun e => e.2.tag == x).map (·.1)

/-- Slice n drained of the tenancy's lines. -/
def drainOf (x : Nat) (s : State) (n : Nat) : State := (heldLines x n s).foldl (drainHeldLine x n) s

theorem LinesShrink.drainOf (x n : Nat) (s : State) : LinesShrink s (drainOf x s n) :=
  List.foldlRecOn (motive := LinesShrink s) _ _ (.refl s) fun y hy line _ => hy.trans (.drainHeldLine x n line y)

/-- No line of the tenancy is in the slice. -/
def NoneOf (x n : Nat) (s : State) : Prop := ∀ e ∈ (sliceOf s n).lines, e.2.tag ≠ x

theorem NoneOf.shrink {x n : Nat} {s t : State} (h : NoneOf x n s) (k : LinesShrink s t) : NoneOf x n t := fun e he => by
  obtain ⟨o, ho, -, htag⟩ := k n e he
  exact htag ▸ h o ho

theorem drainOf_none (x n : Nat) (s : State) : NoneOf x n (drainOf x s n) := by
  intro e he htag
  obtain ⟨o, ho, hkey, hotag⟩ := LinesShrink.drainOf x n s n e he
  have hmem : e.1 ∈ heldLines x n s :=
    List.mem_map.mpr ⟨o, List.mem_filter.mpr ⟨List.mem_append_left _ ho, beq_iff_eq.mpr (hotag.trans htag)⟩, hkey⟩
  have hgone : ∀ d ∈ (sliceOf (drainOf x s n) n).lines, d.1 ≠ e.1 :=
    foldl_reaches (P := fun y : State => ∀ d ∈ (sliceOf y n).lines, d.1 ≠ e.1) (f := drainHeldLine x n) (fun y line hy d hd => by
      obtain ⟨c, hc, hck, -⟩ := LinesShrink.drainHeldLine x n line y n d hd
      exact hck ▸ hy c hc) (fun y => flushHeld_gone x n e.1 _) hmem s
  exact hgone e he rfl

/-- The caches of the tenancy's harts drained. -/
def drainHarts (x : Nat) (s : State) : State :=
  (hartsOf s x).foldl (fun a h => (coresOfHart a h).foldl (fun b c => (drainCore c b).1) a) s

theorem drainTenant_eq (x : Nat) (s : State) :
    drainTenant x s = (presentSlices (drainHarts x s)).foldl (drainOf x) (drainHarts x s) := rfl

theorem drainHarts_chip (x : Nat) (s : State) : (drainHarts x s).chip = s.chip :=
  foldl_fixes State.chip (fun y h => foldl_fixes State.chip (fun z c => by
    exact (drainCore_keeps c z (keeps_refl _ z) (Nat.or_self _)).part .chip rfl) _ _) _ _

/-- The drains leave no line of the tenancy in a slice. -/
theorem drainTenant_none {x n : Nat} {s : State} (hn : n ∈ presentSlices s) : NoneOf x n (drainTenant x s) := by
  have hpresent : presentSlices (drainHarts x s) = presentSlices s := by
    unfold presentSlices slicePresent vOf
    rw [drainHarts_chip]
  rw [drainTenant_eq, hpresent]
  exact foldl_reaches (P := NoneOf x n) (fun y m hy => hy.shrink (.drainOf x m y)) (fun y => drainOf_none x n y) hn _

end Sys2Proof.Machine
end

section
/-! The ends of sealing, unsealing, closing, rekeying and function resets (O38; R212, R213, R218, R220, R274). -/
set_option Elab.async false
namespace Sys2Proof.Machine

theorem drainTenant_due (x : Nat) (s : State) : (drainTenant x s).due = s.due :=
  (drainTenant_keeps x s (keeps_refl _ s) (Nat.or_self _)).part .due rfl

/-! ### Holding the harts -/

/-- One hart of a tenancy held. -/
def holdHart (b : Nat) (s : State) (h : Nat) : State :=
  match (hartOf s h).st, pairOfHart s h with
  | .running, _ => setHart h { hartOf s h with st := .stopped } s
  | .gated, some p => if (pairOf s p).restoreAt.isSome then s
      else addDue (b + 4) 5 (.ungate p) (addDue (b + 1) 4 (.switch p true) (setPair p { pairOf s p with restoreAt := some (b + 4) } s))
  | _, _ => s

theorem holdHarts_eq (x : Nat) (s : State) : holdHarts x s = (hartsOf s x).foldl (holdHart (beat s)) s := rfl

theorem holdHart_st (b : Nat) (s : State) (h k : Nat) : (hartOf (holdHart b s h) k).st ≠ .running ∨
    ((hartOf (holdHart b s h) k).st = (hartOf s k).st ∧ k ≠ h) := by
  by_cases hrun : (hartOf s h).st = .running
  · have hout : holdHart b s h = setHart h { hartOf s h with st := .stopped } s := by
      unfold holdHart
      rw [hrun]
    rw [hout]
    by_cases hk : k = h
    · subst hk
      rw [setHart_hartOf_same]
      exact .inl nofun
    · rw [setHart_hartOf_ne _ _ _ _ hk]
      exact .inr ⟨rfl, hk⟩
  · have hsame : hartOf (holdHart b s h) k = hartOf s k := by
      unfold holdHart
      split
      · rename_i hr
        exact absurd hr hrun
      · split <;> rfl
      · rfl
    rw [hsame]
    by_cases hk : k = h
    · subst hk
      exact .inl hrun
    · exact .inr ⟨rfl, hk⟩

/-- No hart of the list runs once it is held. -/
theorem holdHarts_stopped {x h : Nat} {s : State} (hh : h ∈ hartsOf s x) : (hartOf (holdHarts x s) h).st ≠ .running := by
  rw [holdHarts_eq]
  refine foldl_reaches (P := fun y : State => (hartOf y h).st ≠ .running) (fun y k hy => ?_) (fun y => ?_) hh s
  · obtain hst | ⟨hst, -⟩ := holdHart_st _ y k h
    · exact hst
    · exact hst ▸ hy
  · obtain hst | ⟨-, hne⟩ := holdHart_st _ y h h
    · exact hst
    · exact absurd rfl hne

theorem holdHarts_part (x : Nat) (s : State) (p : Part) (hh : p ≠ .harts) (hp : p ≠ .pairs) (hd : p ≠ .due) :
    samePart p s (holdHarts x s) :=
  (holdHarts_keeps x s (keeps_refl _ s) (Nat.or_self _)).part p (by cases p <;> first | rfl | contradiction)

theorem holdHarts_tenantOf (x y : Nat) (s : State) : tenantOf (holdHarts x s) y = tenantOf s y :=
  congrArg (fun m => tget ({} : Tenant) m y) (holdHarts_part x s .tenants nofun nofun nofun)

/-! ### Seals and unseals begun -/

theorem modTenant_tenantOf_same (x : Nat) (f : Tenant → Tenant) (s : State) : tenantOf (modTenant x f s) x = f (tenantOf s x) :=
  tget_tset_same _ _ _ _

/-- The seal begins: the tenancy's harts are held. -/
theorem sealStart_opened {x j : Nat} {s : State} (hst : (tenantOf s x).st = .opened) (hsp : sparingIn s x = false) :
    sealStart x j s = holdHarts x (modTenant x (fun r => { r with st := .sealing, mbx := j }) s) := by
  unfold sealStart
  rw [if_neg (not_not_intro hst), if_neg (by rw [hsp]; decide)]

theorem sealStart_waits {x j : Nat} {s : State} (hst : (tenantOf s x).st = .opened) (hsp : sparingIn s x = true) :
    sealStart x j s = { s with due := s.due ++ [⟨beat s + 1, 5, .sealStart x j⟩] } := by
  unfold sealStart
  rw [if_neg (not_not_intro hst), if_pos hsp]
  rfl

theorem unsealStart_sealed {x j : Nat} {s : State} (hst : isSealed s x = true) (hsp : sparingIn s x = false) :
    unsealStart x j s = holdHarts x (modTenant x (fun r => { r with unsealing := true, mbx := j }) s) := by
  unfold unsealStart
  rw [if_neg (by rw [hst]; decide), if_neg (by rw [hsp]; decide)]

/-- A void result is not due. -/
theorem dropStage_due {j : Nat} {s : State} {d : Due} (hd : d ∈ (dropStage j s).due) (k : Nat) (b : Bytes) :
    d.act ≠ .stage j k b := by
  intro hact
  have hkept := (List.mem_filter.mp hd).2
  rw [hact] at hkept
  exact absurd hkept (by simp)

theorem stageDone_due (i cl : Nat) (data : Bytes) (s : State) : (stageDone i cl data s).due = s.due :=
  stageDone_keeps_part State.due (fun _ _ _ => rfl) (fun _ _ _ => rfl) i cl data s

theorem stageDone_tenants (i cl : Nat) (data : Bytes) (s : State) : (stageDone i cl data s).tenants = s.tenants :=
  stageDone_keeps_part State.tenants (fun _ _ _ => rfl) (fun _ _ _ => rfl) i cl data s

/-- The reservations of an abandoned seal are released. -/
def sealDropped (x j : Nat) (s : State) : State :=
  modTenant x (fun r => { r with plan := {} }) (dropClasses x (dropStage j s))

theorem sealAbandoned_eq (x j : Nat) (s : State) : ∃ cl data, sealAbandoned x j s = stageDone j cl data (sealDropped x j s) :=
  ⟨_, _, rfl⟩

theorem sealAbandoned_spec (x j : Nat) (s : State) : (tenantOf (sealAbandoned x j s) x).plan = {} ∧
    ∀ d ∈ (sealAbandoned x j s).due, ∀ k b, d.act ≠ .stage j k b := by
  obtain ⟨cl, data, heq⟩ := sealAbandoned_eq x j s
  rw [heq, tenantOf, stageDone_tenants, stageDone_due]
  exact ⟨congrArg Tenant.plan (modTenant_tenantOf_same x _ (dropClasses x (dropStage j s))), fun d hd k b => dropStage_due hd k b⟩

theorem unsealAbandoned_eq (x j : Nat) (s : State) : unsealAbandoned x j s =
    stageDone j (chg (arg (mbxOf s j).copy 0 2) x) (mkBytes [(0, 2, x), (2, 1, 1)])
      (modTenant x (fun r => { r with unsealing := false }) (dropStage j s)) := rfl

theorem unsealAbandoned_spec (x j : Nat) (s : State) :
    doneIn s (unsealAbandoned x j s) j (chg (arg (mbxOf s j).copy 0 2) x) (mkBytes [(0, 2, x), (2, 1, 1)]) ∧
      ∀ d ∈ (unsealAbandoned x j s).due, ∀ k b, d.act ≠ .stage j k b := by
  rw [unsealAbandoned_eq]
  refine ⟨doneIn_stageDone _ _ rfl rfl rfl rfl, fun d hd k b => ?_⟩
  rw [stageDone_due] at hd
  exact dropStage_due hd k b

/-! ### The drains done -/

theorem sealDrainsDone_trip {x : Nat} {s : State} (hst : (tenantOf s x).st = .sealing) (hheld : allHeld s x = true)
    (htrip : sparingIn (drainsTrip x s) x = true) : sealDrainsDone x s = drainsTrip x s := by
  unfold sealDrainsDone
  simp only []
  rw [if_pos ⟨hst, hheld, htrip⟩]

/-- The result of a seal that ends, for mailbox i. -/
def sealResult (x : Nat) (s : State) : Act :=
  .stage (tenantOf s x).mbx (chg (arg (mbxOf s (tenantOf s x).mbx).copy 0 2) x +
      chg (arg (mbxOf s (tenantOf s x).mbx).copy 2 1) (tenantOf s x).quota +
      chg (arg (mbxOf s (tenantOf s x).mbx).copy 3 1) (tenantOf s x).nSlices +
      chg (arg (mbxOf s (tenantOf s x).mbx).copy 4 1) (tenantOf s x).ways +
      chg (arg (mbxOf s (tenantOf s x).mbx).copy 5 1) (tenantOf s x).classes)
    (mkBytes [(0, 2, x), (2, 1, (tenantOf s x).quota), (3, 1, (tenantOf s x).nSlices), (4, 1, (tenantOf s x).ways),
      (5, 1, (tenantOf s x).classes), (7, 1, (((tenantOf s x).plan.blocks.map fun e => e.1 / 64).eraseDups).length),
      (8, 8, (tenantOf s x).entry), (0x10, 8, beat s + 1)])

theorem sealDrainsDone_ends {x : Nat} {s : State} (hst : (tenantOf s x).st = .sealing) (hheld : allHeld s x = true)
    (htrip : sparingIn (drainsTrip x s) x = false) : sealDrainsDone x s =
      addDue (beat s + 1) 9 (sealResult x s) (addDue (beat s + 1) 5 (.sealApply x) (drainTenant x s)) := by
  unfold sealDrainsDone
  simp only []
  rw [if_neg fun hc => absurd (htrip.symm.trans hc.2.2) (by decide), if_pos ⟨hst, hheld⟩]
  rfl

theorem sealDrainsDone_holds {x : Nat} {s : State} (hst : (tenantOf s x).st = .sealing) (hheld : allHeld s x = false) :
    sealDrainsDone x s = holdHarts x s := by
  unfold sealDrainsDone
  simp only []
  rw [if_neg fun hc => absurd (hheld.symm.trans hc.2.1) (by decide), if_neg fun hc => absurd (hheld.symm.trans hc.2) (by decide),
    if_pos hst]

theorem sealDrainsDone_other {x : Nat} {s : State} (hst : (tenantOf s x).st ≠ .sealing) : sealDrainsDone x s = s := by
  unfold sealDrainsDone
  simp only []
  rw [if_neg fun hc => hst hc.1, if_neg fun hc => hst hc.1, if_neg hst]

/-- The result of an unseal that ends. -/
def unsealResult (x : Nat) (s : State) : Act :=
  .stage (tenantOf s x).mbx (chg (arg (mbxOf s (tenantOf s x).mbx).copy 0 2) x) (mkBytes [(0, 2, x), (8, 8, beat s + 1)])

section
variable {x : Nat} {s : State} (hun : (tenantOf s x).unsealing = true) (hst : (tenantOf s x).st = .isSealed)
include hun hst

theorem unsealDrainDone_trip (hheld : allHeld s x = true) (htrip : sparingIn (drainsTrip x s) x = true) :
    unsealDrainDone x s = drainsTrip x s := by
  unfold unsealDrainDone
  rw [if_pos ⟨hun, hst, hheld, htrip⟩]

theorem unsealDrainDone_ends (hheld : allHeld s x = true) (htrip : sparingIn (drainsTrip x s) x = false) : unsealDrainDone x s =
    addDue (beat s + 1) 9 (unsealResult x s) (addDue (beat s + 1) 5 (.unsealApply x) (drainTenant x s)) := by
  unfold unsealDrainDone
  simp only []
  rw [if_neg fun hc => absurd (htrip.symm.trans hc.2.2.2) (by decide), if_pos ⟨hun, hst, hheld⟩]
  rfl

theorem unsealDrainDone_holds (hheld : allHeld s x = false) : unsealDrainDone x s = holdHarts x s := by
  unfold unsealDrainDone
  simp only []
  rw [if_neg fun hc => absurd (hheld.symm.trans hc.2.2.1) (by decide), if_neg fun hc => absurd (hheld.symm.trans hc.2.2) (by decide),
    if_pos ⟨hun, hst⟩]

end

theorem unsealDrainDone_other {x : Nat} {s : State} (h : (tenantOf s x).unsealing = false ∨ (tenantOf s x).st ≠ .isSealed) :
    unsealDrainDone x s = s := by
  have hno : ¬ ((tenantOf s x).unsealing = true ∧ (tenantOf s x).st = .isSealed) := fun ⟨hun, hst⟩ =>
    h.elim (fun hf => absurd (hf.symm.trans hun) (by decide)) fun hf => hf hst
  unfold unsealDrainDone
  simp only []
  rw [if_neg fun hc => hno ⟨hc.1, hc.2.1⟩, if_neg fun hc => hno ⟨hc.1, hc.2.1⟩, if_neg hno]

/-- Two actions put off, over the drains. -/
theorem drained_due (x : Nat) (s : State) (a b : Act) :
    (addDue (beat s + 1) 9 a (addDue (beat s + 1) 5 b (drainTenant x s))).due =
      s.due ++ [⟨beat s + 1, 5, b⟩, ⟨beat s + 1, 9, a⟩] := by
  refine (List.append_assoc _ _ _).trans ?_
  rw [drainTenant_due]
  rfl

/-! ### Closing and rekeying -/

theorem closeStart_again {x j : Nat} {s : State} (h : (tenantOf s x).st = .closing ∨ (tenantOf s x).st = .free) :
    closeStart x j s = stageDone j (chg (arg (mbxOf s j).copy 0 2) x) (mkBytes [(0, 2, x), (2, 1, 1)]) s := by
  unfold closeStart
  simp only []
  rw [if_pos h]

theorem closeStart_waits {x j : Nat} {s : State} (h : (tenantOf s x).st = .opened ∨ (tenantOf s x).st = .isSealed)
    (hsp : sparingIn s x = true) : closeStart x j s = { s with due := s.due ++ [⟨beat s + 1, 5, .closeStart x j⟩] } := by
  have hno : ¬ ((tenantOf s x).st = .closing ∨ (tenantOf s x).st = .free) := by
    obtain h | h := h <;> rw [h] <;> decide
  unfold closeStart
  simp only []
  rw [if_neg hno, if_pos hsp]
  rfl

theorem closeKeyErase_ends {x : Nat} {s : State} (hst : (tenantOf s x).st = .closing) (hrel : (tenantOf s x).released = true)
    (hw : writeWaits s x = false) : closeKeyErase x s = { s with due := s.due ++ [⟨beat s + 1, 5, .keysErased x⟩,
      ⟨beat s + 1, 9, .stage (tenantOf s x).mbx (chg (arg (mbxOf s (tenantOf s x).mbx).copy 0 2) x)
        (mkBytes [(0, 2, x), (4, 4, (tenantOf s x).gone), (8, 8, beat s + 1)])⟩] } := by
  unfold closeKeyErase
  simp only []
  rw [if_pos ⟨hst, hrel, hw⟩]
  exact congrArg (fun l => { s with due := l }) (List.append_assoc _ _ _)

theorem rekeySweepDone_ends {x : Nat} {w : Sweep} {s : State} (hsweep : (tenantOf s x).sweep = some w)
    (hline : sweepLine s x w.next = none) :
    rekeySweepDone x s = { s with due := s.due ++ [⟨beat s + 1, 5, .rekeyEnd x⟩] } := by
  unfold rekeySweepDone
  rw [hsweep]
  simp only []
  rw [hline, if_pos Option.isNone_none]
  rfl

theorem rekeySweepDone_none {x : Nat} {s : State} (hsweep : (tenantOf s x).sweep = none) : rekeySweepDone x s = s := by
  unfold rekeySweepDone
  rw [hsweep]

/-! ### The obligation -/

/-- Settles O38: each sequence's end, case by case; a drain leaves a slice only lines that it held before, and each of the tenancy's
is flushed. -/
theorem tenancySequencesEnd : Obligations.TenancySequencesEnd := by
  unfold Obligations.TenancySequencesEnd
  rintro s x i cl rfl
  refine ⟨fun hst hheld htrip => congrArg Host.Outcome.next (sealDrainsDone_trip hst hheld htrip),
    fun hun hst hheld htrip => congrArg Host.Outcome.next (unsealDrainDone_trip hun hst hheld htrip), fun hst hheld htrip hcl => ?_,
    fun hst hheld => congrArg Host.Outcome.next (sealDrainsDone_holds hst hheld), ?_,
    fun hst => congrArg Host.Outcome.next (sealDrainsDone_other hst), fun hun hst hheld htrip => ?_,
    fun hun hst hheld => congrArg Host.Outcome.next (unsealDrainDone_holds hun hst hheld),
    fun h => congrArg Host.Outcome.next (unsealDrainDone_other h), fun j hst hsp => ⟨_, rfl, ?_⟩,
    fun j hst hsp => sealStart_waits hst hsp, fun j hst hsp => ⟨_, rfl, ?_⟩, fun j hst => ?_, fun j hst => ⟨_, rfl, ?_⟩,
    fun j hst => ⟨_, rfl, ?_⟩, fun j hst hsp => closeStart_waits hst hsp,
    fun hst hrel hw => congrArg Host.Outcome.next (closeKeyErase_ends hst hrel hw),
    fun hw => congrArg Host.Outcome.next (if_neg fun hc => absurd (hw.symm.trans hc.2.2) (by decide)),
    fun w hsweep hline => congrArg Host.Outcome.next (rekeySweepDone_ends hsweep hline),
    fun hsweep => congrArg Host.Outcome.next (rekeySweepDone_none hsweep), fun g dev => ⟨_, rfl, ?_⟩⟩
  · subst hcl
    refine ⟨_, congrArg Host.Outcome.next (sealDrainsDone_ends hst hheld htrip), fun n hn e he => drainTenant_none hn e he, ?_⟩
    exact drained_due x s _ _
  · rintro t rfl
    exact ⟨holdHarts_part x s .tenants nofun nofun nofun, holdHarts_part x s .mem nofun nofun nofun,
      holdHarts_part x s .slices nofun nofun nofun, fun h hh => holdHarts_stopped hh⟩
  · refine ⟨_, congrArg Host.Outcome.next (unsealDrainDone_ends hun hst hheld htrip), fun n hn e he => drainTenant_none hn e he, ?_⟩
    exact drained_due x s _ _
  · have hact : applyAct s (.sealStart x j) = sealStart x j s := rfl
    rw [hact, sealStart_opened hst hsp, holdHarts_tenantOf, modTenant_tenantOf_same]
    exact ⟨rfl, rfl, fun h hh => holdHarts_stopped hh⟩
  · have hact : applyAct s (.unsealStart x j) = unsealStart x j s := rfl
    rw [hact, unsealStart_sealed hst hsp, holdHarts_tenantOf, modTenant_tenantOf_same]
    exact ⟨rfl, rfl, fun h hh => holdHarts_stopped hh⟩
  · have hact : applyAct s (.sealStart x j) = sealAbandoned x j s := if_pos hst
    rw [hact]
    exact sealAbandoned_spec x j s
  · have hact : applyAct s (.unsealStart x j) = unsealAbandoned x j s := if_pos hst
    rw [hact]
    exact unsealAbandoned_spec x j s
  · have hact : applyAct s (.closeStart x j) = closeStart x j s := rfl
    rw [hact, closeStart_again hst]
    exact ⟨stageDone_tenants _ _ _ _, doneIn_stageDone _ _ rfl rfl rfl rfl⟩
  · have hgroup : groupOf (functionResetDone g dev s) g = _ := tget_tset_same _ _ _ _
    refine ⟨?_, ?_, fun k hk => tget_tset_ne _ _ _ _ _ hk⟩
    · rw [hgroup]
    · rw [hgroup]

end Sys2Proof.Machine
end

section
/-! tenant.seal, tenant.unseal, tenant.rekey, tenant.close and tenant.status (O37; R212 to R220, R227). -/
set_option Elab.async false
namespace Sys2Proof.Machine

/-! ### The plan of a seal does not look at a mailbox -/

theorem takeBlocks_started (i : Nat) (s : State) (c ranks want role : Nat) (l : List Nat) :
    takeBlocks (started i s) c ranks want role l = takeBlocks s c ranks want role l := by
  induction want generalizing role l with
  | zero => rfl
  | succ k ih =>
    unfold takeBlocks
    simp only [rd_started]
    cases (l.find? fun n => rd s (mcSealBlockRole c n) == role).or l.head? with
    | none => rfl
    | some n => exact congrArg (n :: ·) (ih _ _)

theorem placeBlocks_started (i : Nat) (s : State) (c sub n : Nat) : placeBlocks (started i s) c sub n = placeBlocks s c sub n := by
  unfold placeBlocks
  simp only [takeBlocks_started]
  rfl

theorem placeQuota_started (i : Nat) (s : State) (x q : Nat) : placeQuota (started i s) x q = placeQuota s x q := by
  unfold placeQuota
  simp only [placeBlocks_started]
  rfl

theorem sealPlan_started (i : Nat) (s : State) (x q k w r entry : Nat) :
    sealPlan (started i s) x q k w r entry = sealPlan s x q k w r entry := by
  unfold sealPlan
  rw [placeQuota_started]
  rfl

/-! ### tenant.seal -/

/-- What tenant.seal reads of its command: quota, slices, ways, classes and entry. -/
def sealQuota (s : State) (c : Bytes) : Nat := clampR 2 (maxQuota s) (arg c 2 1 + arg c 2 1 % 2)
def sealSlices (c : Bytes) : Nat := clampR 1 16 (arg c 3 1)
def sealWays (c : Bytes) : Nat := clampR 1 22 (arg c 4 1)
def sealClasses (c : Bytes) : Nat := clampR 1 4 (arg c 5 1)
def sealEntry (c : Bytes) : Nat := arg c 8 8 / 2 * 2
def sealClamps (s : State) (i : Nat) (c : Bytes) : Nat :=
  chg (arg c 0 2) (tenField i (arg c 0 2)) + chg (arg c 2 1) (sealQuota s c) + chg (arg c 3 1) (sealSlices c) +
    chg (arg c 4 1) (sealWays c) + chg (arg c 5 1) (sealClasses c)

/-- The plan for the command, or the outcome that refuses it. -/
def sealAsked (s : State) (i : Nat) (c : Bytes) : Nat ⊕ SealPlan :=
  sealPlan s (tenField i (arg c 0 2)) (sealQuota s c) (sealSlices c) (sealWays c) (sealClasses c) (sealEntry c)

/-- The classes of a plan held. -/
def classesHeld (i : Nat) (c : Bytes) (p : SealPlan) (s : State) : State :=
  p.classes.foldl (fun a x => holdClasses (x / 64) (tenField i (arg c 0 2)) [x % 64] a) s

/-- The tenancy takes the plan. -/
def planned (s : State) (i : Nat) (c : Bytes) (p : SealPlan) (x : Tenant) : Tenant :=
  { x with plan := p, quota := sealQuota s c, nSlices := sealSlices c, ways := sealWays c, classes := sealClasses c
           entry := sealEntry c, mbx := i }

theorem tenantSeal_refused {i o : Nat} {c : Bytes} {s : State} (h : sealAsked s i c = .inl o) : tenantSeal i c s =
    stageDone i (sealClamps s i c) (mkBytes [(0, 2, tenField i (arg c 0 2)), (2, 1, sealQuota s c), (3, 1, sealSlices c),
      (4, 1, sealWays c), (5, 1, sealClasses c), (6, 1, o), (8, 8, sealEntry c)]) s := by
  unfold tenantSeal
  simp only []
  rw [sealAsked, sealQuota, sealSlices, sealWays, sealClasses, sealEntry] at h
  rw [h] <;> rfl

theorem tenantSeal_planned {i : Nat} {c : Bytes} {p : SealPlan} {s : State} (h : sealAsked s i c = .inr p) : tenantSeal i c s =
    addStep i (beat s + 1) (.sealStart (tenField i (arg c 0 2)) i)
      (modTenant (tenField i (arg c 0 2)) (planned s i c p) (classesHeld i c p s)) := by
  unfold tenantSeal
  simp only []
  rw [sealAsked, sealQuota, sealSlices, sealWays, sealClasses, sealEntry] at h
  rw [h] <;> rfl

/-- Holding classes moves the mesh alone. -/
theorem classesHeld_part {α : Type} (v : State → α) (hv : ∀ y m, v { y with mesh := m } = v y) (i : Nat) (c : Bytes) (p : SealPlan)
    (s : State) : v (classesHeld i c p s) = v s :=
  foldl_fixes v (fun y a => hv y _) _ _

theorem modTenant_tenantOf_ne {x y : Nat} (h : y ≠ x) (f : Tenant → Tenant) (s : State) :
    tenantOf (modTenant x f s) y = tenantOf s y := tget_tset_ne _ _ _ _ _ h

/-- A planned seal goes on. -/
theorem tenantSeal_goesOn {i : Nat} {c : Bytes} {p : SealPlan} {s : State} (h : sealAsked s i c = .inr p) :
    goesOn (tenantSeal i c (started i s)) i ∧
      (tenantSeal i c (started i s)).journal = s.journal ++ [⟨i, beat s + 1, .sealStart (tenField i (arg c 0 2)) i⟩] ∧
      tenantOf (tenantSeal i c (started i s)) (tenField i (arg c 0 2)) = planned s i c p (tenantOf s (tenField i (arg c 0 2))) ∧
      ∀ y, y ≠ tenField i (arg c 0 2) → tenantOf (tenantSeal i c (started i s)) y = tenantOf s y := by
  have hasked : sealAsked (started i s) i c = .inr p := (sealPlan_started i s _ _ _ _ _ _).trans h
  have hjournal := classesHeld_part State.journal (fun _ _ => rfl) i c p (started i s)
  have hmbx := classesHeld_part (mbxOf · i) (fun _ _ => rfl) i c p (started i s)
  have hten : ∀ y, tenantOf (classesHeld i c p (started i s)) y = tenantOf s y := fun y =>
    classesHeld_part (tenantOf · y) (fun _ _ => rfl) i c p (started i s)
  rw [tenantSeal_planned hasked]
  generalize classesHeld i c p (started i s) = u at hjournal hmbx hten
  refine ⟨goesOn_of_mbx (goesOn_started i s) hmbx, congrArg (· ++ _) hjournal, ?_, fun y hy => ?_⟩
  · exact (modTenant_tenantOf_same _ _ u).trans (congrArg (planned s i c p) (hten _))
  · exact (modTenant_tenantOf_ne hy _ u).trans (hten y)

/-! ### tenant.unseal, tenant.rekey, tenant.close -/

theorem tenants_stageDone_started (i cl : Nat) (data : Bytes) (s : State) :
    (stageDone i cl data (started i s)).tenants = s.tenants := stageDone_tenants i cl data (started i s)

theorem tenantRekey_eq (i : Nat) (c : Bytes) (s : State) : tenantRekey i c s =
    if (tenantOf s (tenField i (arg c 0 2))).st ≠ .opened ∧ (tenantOf s (tenField i (arg c 0 2))).st ≠ .isSealed then
      stageDone i (chg (arg c 0 2) (tenField i (arg c 0 2))) (mkBytes [(0, 2, tenField i (arg c 0 2)), (2, 1, 2)]) s
    else if (tenantOf s (tenField i (arg c 0 2))).st = .isSealed ∧ i = 0 then
      stageDone i (chg (arg c 0 2) (tenField i (arg c 0 2))) (mkBytes [(0, 2, tenField i (arg c 0 2)), (2, 1, 3)]) s
    else if (tenantOf s (tenField i (arg c 0 2))).sweep.isSome then
      stageDone i (chg (arg c 0 2) (tenField i (arg c 0 2))) (mkBytes [(0, 2, tenField i (arg c 0 2)), (2, 1, 1)]) s
    else
      addStep i (beat s + 1) (.stage i (chg (arg c 0 2) (tenField i (arg c 0 2)))
          (mkBytes [(0, 2, tenField i (arg c 0 2)), (3, 1, 1 - (keyEnt s (tenField i (arg c 0 2))).cur.getD 1), (8, 8, beat s + 1)]))
        (addStep i (beat s + 1) (.rekeyCurrent (tenField i (arg c 0 2)) (1 - (keyEnt s (tenField i (arg c 0 2))).cur.getD 1))
          (drawKey (tenField i (arg c 0 2)) (1 - (keyEnt s (tenField i (arg c 0 2))).cur.getD 1) s)) := rfl

theorem tenantSeal_spec {i : Nat} {c : Bytes} {s : State} :
    (∀ o, sealAsked s i c = .inl o → samePart .tenants s (tenantSeal i c (started i s)) ∧
        doneIn s (tenantSeal i c (started i s)) i (sealClamps s i c) (mkBytes [(0, 2, tenField i (arg c 0 2)), (2, 1, sealQuota s c),
          (3, 1, sealSlices c), (4, 1, sealWays c), (5, 1, sealClasses c), (6, 1, o), (8, 8, sealEntry c)])) := by
  intro o h
  have hasked : sealAsked (started i s) i c = .inl o := (sealPlan_started i s _ _ _ _ _ _).trans h
  rw [tenantSeal_refused hasked]
  exact ⟨stageDone_tenants _ _ _ _, doneIn_started s i _ _⟩

theorem keyGen_drawKey (x : Nat) {g : Nat} (hg : g = 0 ∨ g = 1) (s : State) :
    keyGen (keyEnt (drawKey x g s) x) g = some s.mem.nextKey ∧ (keyEnt (drawKey x g s) x).cur = (keyEnt s x).cur := by
  have hent : keyEnt (drawKey x g s) x =
      (if g = 0 then { keyEnt s x with gen0 := some s.mem.nextKey } else { keyEnt s x with gen1 := some s.mem.nextKey }) :=
    tget_tset_same _ _ _ _
  rw [hent]
  obtain rfl | rfl := hg <;> exact ⟨rfl, rfl⟩

theorem tenantRekey_spec (i : Nat) (c : Bytes) (s : State) (x cl : Nat) (hx : x = tenField i (arg c 0 2)) (hcl : cl = chg (arg c 0 2) x) :
    ((tenantOf s x).st ≠ .opened → (tenantOf s x).st ≠ .isSealed →
        doneIn s (tenantRekey i c (started i s)) i cl (mkBytes [(0, 2, x), (2, 1, 2)]) ∧ samePart .mem s (tenantRekey i c (started i s))) ∧
      ((tenantOf s x).st = .isSealed → i = 0 →
        doneIn s (tenantRekey i c (started i s)) i cl (mkBytes [(0, 2, x), (2, 1, 3)]) ∧ samePart .mem s (tenantRekey i c (started i s))) ∧
      ((tenantOf s x).st = .opened → (tenantOf s x).sweep.isSome = true →
        doneIn s (tenantRekey i c (started i s)) i cl (mkBytes [(0, 2, x), (2, 1, 1)]) ∧ samePart .mem s (tenantRekey i c (started i s))) ∧
      ∀ g, (tenantOf s x).st = .opened → (tenantOf s x).sweep = none → g = 1 - (keyEnt s x).cur.getD 1 →
        goesOn (tenantRekey i c (started i s)) i ∧ keyGen (keyEnt (tenantRekey i c (started i s)) x) g = some s.mem.nextKey ∧
        (keyEnt (tenantRekey i c (started i s)) x).cur = (keyEnt s x).cur ∧
        (tenantRekey i c (started i s)).journal = s.journal ++ [⟨i, beat s + 1, .rekeyCurrent x g⟩,
          ⟨i, beat s + 1, .stage i cl (mkBytes [(0, 2, x), (3, 1, g), (8, 8, beat s + 1)])⟩] := by
  subst hcl hx
  have hten : ∀ y, tenantOf (started i s) y = tenantOf s y := fun _ => rfl
  have hkey : ∀ y, keyEnt (started i s) y = keyEnt s y := fun _ => rfl
  rw [tenantRekey_eq, hten, hkey]
  generalize tenField i (arg c 0 2) = x
  refine ⟨fun ho hs => ?_, fun hs hi => ?_, fun ho hsw => ?_, fun g ho hsw hg => ?_⟩
  · rw [if_pos ⟨ho, hs⟩]
    exact ⟨doneIn_started s i _ _, mem_stageDone _ _ _ _⟩
  · rw [if_neg fun hc => hc.2 hs, if_pos ⟨hs, hi⟩]
    exact ⟨doneIn_started s i _ _, mem_stageDone _ _ _ _⟩
  · rw [if_neg fun hc => hc.1 ho, if_neg (by rw [ho]; exact fun hc => absurd hc.1 nofun), if_pos hsw]
    exact ⟨doneIn_started s i _ _, mem_stageDone _ _ _ _⟩
  · rw [if_neg fun hc => hc.1 ho, if_neg (by rw [ho]; exact fun hc => absurd hc.1 nofun), if_neg (by rw [hsw]; decide), ← hg]
    obtain ⟨hgen, hcur⟩ := keyGen_drawKey x (g := g) (by omega) (started i s)
    exact ⟨goesOn_started i s, hgen, hcur, List.append_assoc _ _ _⟩

theorem mbxOf_sealNotice (x kind : Nat) (payload : List (Nat × Nat × Nat)) (s : State) :
    mbxOf (sealNotice x kind payload s) x = { mbxOf s x with queue := (mbxOf s x).queue ++ [⟨kind, 0, 0, mkBytes payload⟩] } :=
  setMbx_mbxOf_same _ _ _

theorem queue_started (i x : Nat) (s : State) : (mbxOf (started i s) x).queue = (mbxOf s x).queue := by
  by_cases h : x = i
  · subst h
    rw [mbxOf_started]
  · exact congrArg Mbx.queue (setMbx_mbxOf_ne _ _ _ _ h)

/-- A notice told to a tenancy's mailbox, sealed or not. -/
def toldClose (x : Nat) (s : State) : State :=
  if (tenantOf s x).st = .isSealed then sealNotice x 0x0007 [(0x18, 2, x)] s else notify x 0x0007 [(0x18, 2, x)] s

theorem tenantClose_eq (i : Nat) (c : Bytes) (s : State) : tenantClose i c s =
    if (tenantOf s (tenField i (arg c 0 2))).st = .free ∨ (tenantOf s (tenField i (arg c 0 2))).st = .closing then
      stageDone i (chg (arg c 0 2) (tenField i (arg c 0 2))) (mkBytes [(0, 2, tenField i (arg c 0 2)), (2, 1, 1)]) s
    else toldClose (tenField i (arg c 0 2)) (addStep i (beat s + 1) (.closeStart (tenField i (arg c 0 2)) i) s) := rfl

theorem toldClose_spec (x i : Nat) (s : State) : (mbxOf (toldClose x s) i).phase = (mbxOf s i).phase ∧
    (toldClose x s).journal = s.journal ∧
    (mbxOf (toldClose x s) x).queue = (mbxOf s x).queue ++ [⟨7, 0, 0, mkBytes [(0x18, 2, x)]⟩] := by
  unfold toldClose
  split
  · exact ⟨notify_phase _ _ _ _ _, rfl, by rw [mbxOf_sealNotice]⟩
  · exact ⟨notify_phase _ _ _ _ _, rfl, congrArg Mbx.queue (setMbx_mbxOf_same _ _ _)⟩

theorem tenantClose_goesOn {i x : Nat} {c : Bytes} {s : State} (hx : x = tenField i (arg c 0 2)) (hf : (tenantOf s x).st ≠ .free)
    (hc : (tenantOf s x).st ≠ .closing) : goesOn (tenantClose i c (started i s)) i ∧
      (tenantClose i c (started i s)).journal = s.journal ++ [⟨i, beat s + 1, .closeStart x i⟩] ∧
      (mbxOf (tenantClose i c (started i s)) x).queue = (mbxOf s x).queue ++ [⟨7, 0, 0, mkBytes [(0x18, 2, x)]⟩] := by
  subst hx
  have hten : ∀ y, tenantOf (started i s) y = tenantOf s y := fun _ => rfl
  rw [tenantClose_eq, hten, if_neg fun h => h.elim hf hc]
  generalize tenField i (arg c 0 2) = x
  obtain ⟨hphase, hjournal, hqueue⟩ := toldClose_spec x i (addStep i (beat (started i s) + 1) (.closeStart x i) (started i s))
  refine ⟨hphase.trans (goesOn_started i s), hjournal, hqueue.trans (congrArg (· ++ _) (queue_started i x s))⟩

/-! ### The obligation -/

/-- Settles O37: each command's outcome, or the steps that it leaves for the next boundary. -/
theorem tenantSealCommands : Obligations.TenantSealCommands := by
  unfold Obligations.TenantSealCommands
  intro s i c _
  refine ⟨fun h => ⟨_, _, _, _, _, _, _, _, rfl, rfl, rfl, rfl, rfl, rfl, rfl, congrArg Host.Outcome.next (onCmd_of_taken h _),
      tenantSeal_spec, fun p hp => ?_⟩,
    fun h => ⟨_, _, _, rfl, rfl, congrArg Host.Outcome.next (onCmd_of_taken h _), fun hs => ?_, fun hs => ?_⟩,
    fun h => ⟨_, _, _, rfl, rfl, congrArg Host.Outcome.next (onCmd_of_taken h _), tenantRekey_spec i c s _ _ rfl rfl⟩,
    fun h => ⟨_, _, _, rfl, rfl, congrArg Host.Outcome.next (onCmd_of_taken h _), fun hs => ?_,
      fun hf hc => tenantClose_goesOn rfl hf hc⟩,
    fun h => ⟨_, _, _, _, _, rfl, rfl, rfl, rfl, congrArg Host.Outcome.next (onCmd_of_taken h _), stageDone_tenants _ _ _ _,
      mem_stageDone _ _ _ _, ?_⟩⟩
  · obtain ⟨hgoes, hjournal, hten, hothers⟩ := tenantSeal_goesOn hp
    rw [hten]
    exact ⟨hgoes, hjournal, rfl, rfl, rfl, rfl, rfl, rfl, rfl, rfl, hothers⟩
  · have hout : tenantUnseal i c (started i s) = _ := if_pos hs
    rw [hout]
    exact doneIn_started s i _ _
  · have hout : tenantUnseal i c (started i s) = _ := if_neg (by rw [show isSealed (started i s) _ = _ from hs]; decide)
    rw [hout]
    exact ⟨goesOn_started i s, rfl, rfl⟩
  · have hout : tenantClose i c (started i s) = _ := if_pos hs
    rw [hout]
    exact doneIn_started s i _ _
  · unfold tenantStatus
    simp only [beq_iff_eq]
    exact doneIn_started s i _ _

end Sys2Proof.Machine
end

section
/-! Memory: what treating a line writes into the register file, and sparing, patrol laps, range scrubs and soft repairs (O34) -/
set_option Elab.async false
namespace Sys2Proof.Machine
open Host Sys2Proof

/-! ## The record of a channel -/

@[simp] theorem chanOf_modChan_same (c : Nat) (f : Chan → Chan) (s : State) : chanOf (modChan c f s) c = f (chanOf s c) :=
  setChan_chanOf_same _ _ _

theorem chanOf_modChan_ne (c : Nat) (f : Chan → Chan) (s : State) {j : Nat} (h : j ≠ c) : chanOf (modChan c f s) j = chanOf s j :=
  setChan_chanOf_ne _ _ _ _ h

@[simp] theorem rd_modChan (c : Nat) (f : Chan → Chan) (s : State) (g : Fld) : rd (modChan c f s) g = rd s g := rfl

@[simp] theorem chan_ras (c : Nat) (f : Chan → Chan) (s : State) : (modChan c f s).ras = s.ras := rfl

/-! ## The fields that treating a line leaves alone -/

/-- The first bits of the fields that checking, correcting, poisoning and queueing a line may write. -/
def treatLo : List Nat := [0, 16, 32, 33, 40, 44, 47, 48]

/-- t holds the register fields of s, but for those that begin at a bit of `treatLo`. -/
def TreatKept (s t : State) : Prop := ∀ f : Fld, f.lo < 64 → f.lo ∉ treatLo → rd t f = rd s f

theorem TreatKept.refl (s : State) : TreatKept s s := fun _ _ _ => rfl

variable {s t u : State}

theorem TreatKept.of_regs (h : TreatKept s t) (hregs : u.regs = t.regs) : TreatKept s u :=
  fun f hlo hf => (rd_of_regs hregs f).trans (h f hlo hf)

theorem TreatKept.wr (h : TreatKept s t) {g : Fld} (hg : treatLo.contains g.lo = true) (v : Nat) : TreatKept s (Machine.wr g v t) :=
  fun f hlo hf => by
    rw [List.contains_iff_mem] at hg
    have hg64 : g.lo < 64 := by simp [treatLo] at hg; omega
    have hne : f.lo ≠ g.lo := fun he => hf (he ▸ hg)
    exact (rd_wr_ne g f v t (by simp only [fkey]; omega)).trans (h f hlo hf)

theorem TreatKept.bump (h : TreatKept s t) {g : Fld} (hg : treatLo.contains g.lo = true) (n : Nat) : TreatKept s (Machine.bump g n t) :=
  h.wr hg _

theorem TreatKept.modChan (h : TreatKept s t) (c : Nat) (f : Chan → Chan) : TreatKept s (Machine.modChan c f t) := h.of_regs rfl

theorem TreatKept.setChan (h : TreatKept s t) (c : Nat) (r : Chan) : TreatKept s (Machine.setChan c r t) := h.of_regs rfl

theorem TreatKept.setMem (h : TreatKept s t) (m : Mem) : TreatKept s (Machine.setMem m t) := h.of_regs rfl

theorem TreatKept.ite (p : Prop) [Decidable p] (ht : TreatKept s t) (hu : TreatKept s u) : TreatKept s (if p then t else u) := by
  split
  · exact ht
  · exact hu

theorem TreatKept.foldl {α : Type} {f : State → α → State} (hf : ∀ y a, TreatKept s y → TreatKept s (f y a)) (l : List α)
    (h : TreatKept s t) : TreatKept s (l.foldl f t) :=
  List.foldlRecOn (motive := fun y => TreatKept s y) l f h fun y hy a _ => hf y a hy

theorem TreatKept.recPlatform (h : TreatKept s t) (sl cls kind unit cause ten addr : Nat) (detail : List Nat) :
    TreatKept s (Machine.recPlatform sl cls kind unit cause ten addr detail t) := by
  unfold Machine.recPlatform
  refine TreatKept.foldl (fun y c hy => ?_) _ (h.of_regs rfl)
  unfold clkIrq
  split
  · exact (hy.of_regs rfl).wr rfl _
  · exact hy

theorem TreatKept.recCorrected (h : TreatKept s t) (sl kind unit cause addr : Nat) :
    TreatKept s (Machine.recCorrected sl kind unit cause addr t) := by
  have hras : ∀ r, TreatKept s { t with ras := r } := fun r => h.of_regs rfl
  unfold Machine.recCorrected
  exact .ite _ ((hras _).recPlatform _ _ _ _ _ _ _ _) (hras _)

theorem TreatKept.judgePanic (h : TreatKept s t) (c port : Nat) : TreatKept s (Machine.judgePanic c port t) := by
  have hflag : treatLo.contains (panicFlag port c).lo = true := by unfold panicFlag; split <;> rfl
  have hcount : treatLo.contains (panicCount port c).lo = true := by unfold panicCount; split <;> rfl
  unfold Machine.judgePanic
  dsimp only
  split
  · split
    · exact h.wr hflag _
    · exact h
  · split
    · exact (h.wr hflag _).bump hcount _
    · exact h

theorem TreatKept.putReq (h : TreatKept s t) (c sub : Nat) (q : DReq) : TreatKept s (Machine.putReq c sub q t) := by
  unfold Machine.putReq
  have hrt : ∀ l, TreatKept s (setRt c q.port l t) := fun l => h.modChan _ _
  refine .ite _ (h.modChan _ _) (.ite _ ((hrt _).judgePanic _ _) ?_)
  have hq : TreatKept s (setQueue c sub (queueOf t c sub ++ [q]) t) := h.modChan _ _
  generalize setQueue c sub _ t = y at hq
  unfold judgeDrain
  exact .ite _ (hq.modChan _ _) hq

theorem TreatKept.enqueue (h : TreatKept s t) (c sub : Nat) (q : DReq) : TreatKept s (Machine.enqueue c sub q t) := by
  unfold Machine.enqueue
  exact .ite _ ((h.setMem _).putReq _ _ _) ((h.setMem _).modChan _ _)

theorem TreatKept.unqueue (h : TreatKept s t) (c sub : Nat) (q : DReq) : TreatKept s (Machine.unqueue c sub q t) := by
  have hout : TreatKept s (setOutside c sub ((outsideOf (setQueue c sub ((queueOf t c sub).erase q) t) c sub).erase q)
      (setQueue c sub ((queueOf t c sub).erase q) t)) := TreatKept.modChan (h.modChan _ _) _ _
  unfold Machine.unqueue
  revert hout
  dsimp only
  generalize setOutside c sub _ (setQueue c sub _ t) = y
  intro hy
  have hsealed : TreatKept s (if sealedPath t c sub q then setSealedQ c sub q.tag ((sealedOf y c sub q.tag).erase q) y else y) :=
    .ite _ (hy.modChan _ _) hy
  generalize (if sealedPath t c sub q then setSealedQ c sub q.tag ((sealedOf y c sub q.tag).erase q) y else y) = z at hsealed
  exact .ite _ ((hsealed.modChan _ _).judgePanic _ _) hsealed

theorem TreatKept.dequeue (h : TreatKept s t) (c sub : Nat) (q : DReq) : TreatKept s (Machine.dequeue c sub q t) := by
  have hend : TreatKept s (endDrain c sub (Machine.unqueue c sub q t)) := by
    unfold endDrain
    exact .ite _ ((h.unqueue c sub q).modChan _ _) (h.unqueue c sub q)
  unfold Machine.dequeue admitOutside
  exact TreatKept.foldl (fun y r hy => .ite _ (TreatKept.putReq (hy.modChan _ _) _ _ _) hy) _ hend

theorem TreatKept.dropFixes (h : TreatKept s t) (line : Nat) : TreatKept s (Machine.dropFixes line t) := by
  unfold Machine.dropFixes
  split
  · exact TreatKept.foldl (fun y c hy => TreatKept.foldl (fun z q hz => hz.dequeue _ _ _) _ hy) _ h
  · exact h

theorem TreatKept.listRow (h : TreatKept s t) (c : Nat) (k : Coord) : TreatKept s (Machine.listRow c k t) := by
  unfold Machine.listRow
  dsimp only
  split
  · exact h
  · exact (h.setChan _ _).wr rfl _

theorem TreatKept.eccLast (h : TreatKept s t) (c line device kind : Nat) (k : Coord) :
    TreatKept s (Machine.eccLast c line device kind k t) := by
  unfold Machine.eccLast
  exact (((((h.wr rfl _).wr rfl _).wr rfl _).wr rfl _).wr rfl _).wr rfl _

theorem TreatKept.storePoison (h : TreatKept s t) (sl c line : Nat) (k : Coord) :
    TreatKept s (Machine.storePoison sl c line k t) := by
  unfold Machine.storePoison recContained
  exact (((TreatKept.modChan h _ _).bump rfl _).eccLast _ _ _ _ _).recPlatform _ _ _ _ _ _ _ _

theorem TreatKept.fixWrite (h : TreatKept s t) (c line : Nat) (l : DLine) : TreatKept s (Machine.fixWrite c line l t) := by
  unfold Machine.fixWrite
  split
  · split
    · exact h
    · exact h.enqueue _ _ _
  · exact h

theorem TreatKept.fixPoison (h : TreatKept s t) (c line : Nat) : TreatKept s (Machine.fixPoison c line t) := by
  unfold Machine.fixPoison
  split
  · split
    · exact h
    · exact h.enqueue _ _ _
  · exact h

/-- The device is due for sparing when its count has reached the threshold and is the highest of its half rank (R191). -/
def spareCounted (c d : Nat) (k : Coord) (y : State) : State :=
  let n := k.rank * 20 + k.sub * 10 + d
  let e := k.rank * 2 + k.sub
  if rdB y (mcSpareCtrlAuto c) ∧ rd y (mcSpareCtrlThreshold c) ≤ rd y (mcDevCeWindow c n) ∧ (sparedDev y c k.rank k.sub).isNone then
    let r := chanOf y c
    let cur := tget 0 r.spareDue e
    let better := cur = 0 ∨ rd y (mcDevCeWindow c (k.rank * 20 + k.sub * 10 + (cur - 1))) < rd y (mcDevCeWindow c n)
      ∨ (rd y (mcDevCeWindow c (k.rank * 20 + k.sub * 10 + (cur - 1))) = rd y (mcDevCeWindow c n) ∧ d < cur - 1)
    if better then setChan c { r with spareDue := tset 0 r.spareDue e (d + 1) } y else y
  else y

/-- The row's corrections of the device are counted; at the fourth the row is listed (R198). -/
def rowCounted (c d : Nat) (k : Coord) (y : State) : State :=
  let rk := ((rowKey k * 2 + k.sub) * 2 + k.rank) * 16 + d
  let r := chanOf y c
  let cnt := tget 0 r.rowCorr rk + 1
  let z := setChan c { r with rowCorr := tset 0 r.rowCorr rk cnt } y
  if cnt = 4 then listRow c k z else z

theorem countCorrection_eq (sl c line d : Nat) (k : Coord) (s : State) : countCorrection sl c line d k s =
    rowCounted c d k (spareCounted c d k (recCorrected sl 3 c 0x0301 0 (eccLast c line d 1 k (bump (mcEccCountCorrected c) 1
      (bump (mcDevCeWindow c (k.rank * 20 + k.sub * 10 + d)) 1 (bump (mcDevCeTotal c (k.rank * 20 + k.sub * 10 + d)) 1 s)))))) :=
  rfl

theorem TreatKept.spareCounted (h : TreatKept s t) (c d : Nat) (k : Coord) : TreatKept s (Machine.spareCounted c d k t) :=
  .ite _ (.ite _ (h.setChan _ _) h) h

theorem TreatKept.rowCounted (h : TreatKept s t) (c d : Nat) (k : Coord) : TreatKept s (Machine.rowCounted c d k t) := by
  unfold Machine.rowCounted
  have hset : ∀ r, TreatKept s (Machine.setChan c r t) := fun r => h.setChan c r
  exact .ite _ ((hset _).listRow c k) (hset _)

theorem TreatKept.countCorrection (h : TreatKept s t) (sl c line d : Nat) (k : Coord) :
    TreatKept s (Machine.countCorrection sl c line d k t) := by
  rw [countCorrection_eq]
  exact ((((((h.bump rfl _).bump rfl _).bump rfl _).eccLast _ _ _ _ _).recCorrected _ _ _ _ _).spareCounted _ _ _).rowCounted _ _ _

theorem TreatKept.scrubCount (h : TreatKept s t) (sl c line : Nat) (k : Coord) :
    TreatKept s (Machine.scrubCount sl c line k t) := by
  unfold Machine.scrubCount
  split
  · exact h.countCorrection _ _ _ _ _
  · exact h.countCorrection _ _ _ _ _
  · exact h

theorem TreatKept.scrubCopies (h : TreatKept s t) (chs : List Nat) (now : Bool) (sl line : Nat) :
    TreatKept s (Machine.scrubCopies chs now sl line t).1 := by
  unfold Machine.scrubCopies
  split
  · exact h
  dsimp only
  refine List.foldlRecOn (motive := fun (x : State × Nat) => TreatKept s x.1) _ _ h fun x hx c _ => ?_
  have hput : ∀ l (y : State), TreatKept s y →
      TreatKept s (if now then setLine c line l (Machine.dropFixes line y) else Machine.fixWrite c line l y) := fun l y hy =>
    .ite _ ((hy.dropFixes line).modChan _ _) (hy.fixWrite _ _ _)
  split
  · exact hx
  · exact hx
  · exact hput _ _ (hx.scrubCount _ _ _ _)
  · split
    · exact hput _ _ hx
    · exact (TreatKept.foldl (fun y d hy => .ite _ ((hy.dropFixes line).storePoison _ _ _ _) (hy.fixPoison _ _)) _ hx).listRow _ _

/-! ## O34 -/

theorem flipExpires {c : Nat} (harmed : rdB s (mcFlipCtrlArmed c) = true) (hold : (chanOf s c).flipBeat + 1000000 ≤ beat s) :
    ∃ t, exec (.flipExpiry c) s = .next t ∧ rd t (mcFlipCtrlArmed c) = 0 ∧ otherFields [mcFlipCtrlArmed c] s t := by
  refine ⟨wr (mcFlipCtrlArmed c) 0 s, ?_, by rw [rd_wr_same, Nat.zero_mod], (otherFields_refl _ s).wr (by simp) _⟩
  simp only [exec, execFlipExpiry, if_pos (And.intro harmed hold)]

theorem flipExpiry_early {c : Nat} (h : beat s < (chanOf s c).flipBeat + 1000000) : exec (.flipExpiry c) s = .next s := by
  simp only [exec, execFlipExpiry, if_neg (fun hh : _ ∧ _ => Nat.not_lt_of_le hh.2 h)]

theorem spareWindowClears {c : Nat} (h : beat s % max 1 (rd s (mcSpareCtrlWindowBeats c)) = 0) :
    ∃ t, exec (.spareWindowClear c) s = .next t ∧
      (∀ n, n < 40 → rd t (mcDevCeWindow c n) = 0 ∧ rd t (mcDevCeTotal c n) = rd s (mcDevCeTotal c n)) ∧
      (chanOf t c).rowCorr = [] ∧ (chanOf t c).lines = (chanOf s c).lines := by
  refine ⟨(List.range 40).foldl (fun a n => wr (mcDevCeWindow c n) 0 a) (modChan c (fun r => { r with rowCorr := [] }) s),
    by simp only [exec, execSpareWindowClear, if_pos h], ?_, ?_⟩
  · intro n hn
    constructor
    · refine foldl_reaches (P := fun y => rd y (mcDevCeWindow c n) = 0) (a := n) (fun y m hy => ?_)
        (fun y => by rw [rd_wr_same, Nat.zero_mod]) (List.mem_range.2 hn) _
      by_cases hm : m = n
      · rw [hm, rd_wr_same, Nat.zero_mod]
      · rw [rd_wr_ne _ _ _ _ (by simp only [fkey, mcDevCeWindow]; omega)]
        exact hy
    · rw [foldl_fixes (fun y => rd y (mcDevCeTotal c n)) fun y m => rd_wr_ne _ _ _ _
        (by simp only [fkey, mcDevCeWindow, mcDevCeTotal]; omega)]
      exact rd_modChan _ _ _ _
  · have hchan : chanOf ((List.range 40).foldl (fun a n => wr (mcDevCeWindow c n) 0 a)
        (modChan c (fun r => { r with rowCorr := [] }) s)) c = { chanOf s c with rowCorr := [] } :=
      (foldl_fixes (fun y => chanOf y c) (fun y m => wr_chanOf _ _ _ _) _ _).trans (chanOf_modChan_same _ _ _)
    rw [hchan]
    exact ⟨rfl, rfl⟩

theorem spareWindow_later {c : Nat} (h : beat s % max 1 (rd s (mcSpareCtrlWindowBeats c)) ≠ 0) :
    exec (.spareWindowClear c) s = .next s := by
  simp only [exec, execSpareWindowClear, if_neg h]

/-- SPARE_STATUS with device d entered for half rank e. -/
def withSpared (v e d : Nat) : Nat := v + (16 + d) * 2 ^ (5 * e) - v / 2 ^ (5 * e) % 32 * 2 ^ (5 * e)

/-- The device that five bits of SPARE_STATUS name. -/
def sparedAt (v e : Nat) : Option Nat :=
  if v / 2 ^ (5 * e) % 32 / 16 % 2 = 1 then some (v / 2 ^ (5 * e) % 32 % 16) else none

theorem sparedDev_eq (s : State) (c rank sub : Nat) : sparedDev s c rank sub = sparedAt (rd s (mcSpareStatusSpared c)) (rank * 2 + sub) :=
  rfl

theorem withSpared_lt {v e d : Nat} (hv : v < 2 ^ 20) (he : e < 4) (hd : d < 10) : withSpared v e d < 2 ^ 20 := by
  unfold withSpared
  interval_cases e <;> omega

theorem sparedAt_withSpared_same {v e d : Nat} (hd : d < 10) (he : e < 4) : sparedAt (withSpared v e d) e = some d := by
  have h : withSpared v e d / 2 ^ (5 * e) % 32 = 16 + d := by
    unfold withSpared
    interval_cases e <;> omega
  rw [sparedAt, h, if_pos (by omega)]
  congr 1
  omega

theorem sparedAt_withSpared_ne {v e d j : Nat} (hd : d < 10) (he : e < 4) (hj : j < 4) (hne : j ≠ e) :
    sparedAt (withSpared v e d) j = sparedAt v j := by
  have h : withSpared v e d / 2 ^ (5 * j) % 32 = v / 2 ^ (5 * j) % 32 := by
    unfold withSpared
    interval_cases e <;> interval_cases j <;> omega
  rw [sparedAt, sparedAt, h]

/-- A trigger of the patrol, as a read of the register file: the patrol runs for its reason. -/
theorem rd_patrolTrigger (c reason : Nat) (s : State) (f : Fld) (h1 : fkey f ≠ fkey (mcPatrolRunning c))
    (h2 : fkey f ≠ fkey (mcPatrolReason c)) : rd (patrolTrigger c reason s) f = rd s f := by
  unfold patrolTrigger
  dsimp only
  rw [rd_wr_ne _ _ _ _ h1, rd_wr_ne _ _ _ _ h2]
  exact rd_of_regs rfl f

theorem patrolTrigger_reason (c reason : Nat) (s : State) : rd (patrolTrigger c reason s) (mcPatrolReason c) = reason % 4 := by
  unfold patrolTrigger
  dsimp only
  rw [rd_wr_ne _ _ _ _ (by simp only [fkey, mcPatrolRunning, mcPatrolReason]; omega), rd_wr_same]
  rfl

theorem patrolTrigger_running (c reason : Nat) (s : State) : rd (patrolTrigger c reason s) (mcPatrolRunning c) = 1 := by
  unfold patrolTrigger
  exact rd_wr_same _ _ _

theorem patrolTrigger_patrolAt (c reason : Nat) (s : State) : (chanOf (patrolTrigger c reason s) c).patrolAt = [] := by
  unfold patrolTrigger
  dsimp only
  rw [wr_chanOf, wr_chanOf, chanOf_modChan_same]

theorem patrolTrigger_ras (c reason : Nat) (s : State) : (patrolTrigger c reason s).ras = s.ras := by
  unfold patrolTrigger
  dsimp only
  rw [wr_ras, wr_ras, chan_ras]

/-- The state in which a due device is spared and recorded, before the patrol is triggered. -/
def sparedState (c rank sub d : Nat) (s : State) : State :=
  recContained (beat s) 3 c 0x0307 0 [rank, sub, d]
    (wr (mcSpareStatusSpared c) (withSpared (rd s (mcSpareStatusSpared c)) (rank * 2 + sub) d) s)

theorem applyAct_deviceSpare (s : State) (c rank sub : Nat) : applyAct s (.deviceSpare c rank sub) = deviceSpare c rank sub s := rfl

theorem deviceSpare_eq {c rank sub d : Nat} (hdue : tget 0 (chanOf s c).spareDue (rank * 2 + sub) = d + 1)
    (hfree : sparedDev s c rank sub = none) : deviceSpare c rank sub s =
      modChan c (fun r => { r with spareDue := tset 0 r.spareDue (rank * 2 + sub) 0 })
        (patrolTrigger c 3 (sparedState c rank sub d s)) := by
  have hn : ¬(d + 1 = 0) := by omega
  unfold deviceSpare spareDevice
  dsimp only
  rw [hdue, if_neg hn, hfree, if_neg (by decide)]
  rfl

theorem deviceSpared {c rank sub d : Nat} (hc : c < 16) (hrank : rank < 2) (hsub : sub < 2) (hd : d < 10)
    (hdue : tget 0 (chanOf s c).spareDue (rank * 2 + sub) = d + 1) (hfree : sparedDev s c rank sub = none)
    (hv : rd s (mcSpareStatusSpared c) < 2 ^ 20) :
    ∃ t, t = applyAct s (.deviceSpare c rank sub) ∧ sparedDev t c rank sub = some d ∧
        (∀ r b, r < 2 → b < 2 → (r, b) ≠ (rank, sub) → sparedDev t c r b = sparedDev s c r b) ∧
        tget 0 (chanOf t c).spareDue (rank * 2 + sub) = 0 ∧ rd t (mcPatrolRunning c) = 1 ∧ rd t (mcPatrolReason c) = 3 ∧
        (chanOf t c).patrolAt = [] ∧ recordedIn 2 3 c 0x0307 s t := by
  have hspared : rd (sparedState c rank sub d s) (mcSpareStatusSpared c) =
      withSpared (rd s (mcSpareStatusSpared c)) (rank * 2 + sub) d := by
    unfold sparedState
    rw [rd_recContained (by simp [mcSpareStatusSpared]) (by simp only [mcSpareStatusSpared]; omega), rd_wr_same]
    exact Nat.mod_eq_of_lt (withSpared_lt hv (by omega) hd)
  have hreads : ∀ r b, sparedDev (modChan c (fun r => { r with spareDue := tset 0 r.spareDue (rank * 2 + sub) 0 })
      (patrolTrigger c 3 (sparedState c rank sub d s))) c r b =
        sparedAt (withSpared (rd s (mcSpareStatusSpared c)) (rank * 2 + sub) d) (r * 2 + b) := by
    intro r b
    rw [sparedDev_eq, rd_modChan,
      rd_patrolTrigger _ _ _ _ (by simp only [fkey, mcPatrolRunning, mcSpareStatusSpared]; omega)
        (by simp only [fkey, mcPatrolReason, mcSpareStatusSpared]; omega), hspared]
  refine ⟨_, rfl, ?_⟩
  rw [applyAct_deviceSpare, deviceSpare_eq hdue hfree]
  refine ⟨?_, ?_, ?_, ?_, ?_, ?_, ?_⟩
  · rw [hreads, sparedAt_withSpared_same hd (by omega)]
  · intro r b hr hb hne
    rw [hreads, sparedAt_withSpared_ne hd (by omega) (by omega), sparedDev_eq]
    intro he
    exact hne (by rw [show r = rank by omega, show b = sub by omega])
  · rw [chanOf_modChan_same]
    dsimp only
    rw [tget_tset_same]
  · rw [rd_modChan, patrolTrigger_running]
  · rw [rd_modChan, patrolTrigger_reason]
  · rw [chanOf_modChan_same]
    dsimp only
    rw [patrolTrigger_patrolAt]
  · have hrec : recordedIn 2 3 c 0x0307 s (sparedState c rank sub d s) := by
      unfold sparedState
      exact recContained_recordedIn _ _ _ _ _ _ (by rw [wr_ras])
        (rd_wr_ne _ _ _ _ (by simp only [fkey, mcSpareStatusSpared, clkBeatBeat]; omega))
    refine hrec.of_ras ?_
    rw [chan_ras, patrolTrigger_ras]

theorem deviceSpare_idle {c rank sub : Nat} (h : tget 0 (chanOf s c).spareDue (rank * 2 + sub) = 0) :
    applyAct s (.deviceSpare c rank sub) = s := by
  rw [applyAct_deviceSpare]
  unfold deviceSpare
  dsimp only
  rw [h, if_pos rfl]

/-- The registers after a lap of the patrol (R194). -/
def lapRegs (c : Nat) (s : State) : State :=
  let y := bump (mcPatrolLaps c) 1 (wr (mcPatrolLapBeats c) (beat s - (chanOf s c).patrolBegan) s)
  if s.boot.step = 9 then wr (mcPatrolRunning c) 0 (wr (mcPatrolReason c) 0 y) else wr (mcPatrolReason c) 1 y

theorem patrolLapEnds {c : Nat} (hon : rdB s (mcPatrolRunning c) = true) (hcov : lapCovered s c = true) :
    ∃ t, exec (.patrolLapEnd c) s = .next t ∧ counted (mcPatrolLaps c) 1 s t ∧
      rd t (mcPatrolLapBeats c) = (beat s - (chanOf s c).patrolBegan) % 2 ^ 32 ∧ (chanOf t c).patrolAt = [] ∧
      (chanOf t c).patrolPos = (chanOf s c).patrolPos ∧
      (s.boot.step ≠ 9 → rdB t (mcPatrolRunning c) = true ∧ rd t (mcPatrolReason c) = 1) ∧
      (s.boot.step = 9 → rd t (mcPatrolRunning c) = 0 ∧ rd t (mcPatrolReason c) = 0) := by
  have hrun : fkey (mcPatrolRunning c) ≠ fkey (mcPatrolReason c) ∧ fkey (mcPatrolRunning c) ≠ fkey (mcPatrolLaps c) ∧
      fkey (mcPatrolRunning c) ≠ fkey (mcPatrolLapBeats c) := by
    simp only [fkey, mcPatrolRunning, mcPatrolReason, mcPatrolLaps, mcPatrolLapBeats]; omega
  have hlap : fkey (mcPatrolLaps c) ≠ fkey (mcPatrolReason c) ∧ fkey (mcPatrolLaps c) ≠ fkey (mcPatrolRunning c) ∧
      fkey (mcPatrolLaps c) ≠ fkey (mcPatrolLapBeats c) := by
    simp only [fkey, mcPatrolRunning, mcPatrolReason, mcPatrolLaps, mcPatrolLapBeats]; omega
  have hbeats : fkey (mcPatrolLapBeats c) ≠ fkey (mcPatrolReason c) ∧ fkey (mcPatrolLapBeats c) ≠ fkey (mcPatrolRunning c) ∧
      fkey (mcPatrolLapBeats c) ≠ fkey (mcPatrolLaps c) := by
    simp only [fkey, mcPatrolRunning, mcPatrolReason, mcPatrolLaps, mcPatrolLapBeats]; omega
  obtain ⟨hrun1, hrun2, hrun3⟩ := hrun
  obtain ⟨hlap1, hlap2, hlap3⟩ := hlap
  obtain ⟨hb1, hb2, hb3⟩ := hbeats
  have hchan : chanOf (lapRegs c s) c = chanOf s c := by
    unfold lapRegs
    split <;> rfl
  refine ⟨modChan c (fun r => { r with patrolAt := [], patrolBegan := beat s }) (lapRegs c s), ?_, ?_⟩
  · simp only [exec, execPatrolLapEnd, if_pos (And.intro hon hcov)]
    rfl
  rw [chanOf_modChan_same, hchan]
  simp only [rdB, rd_modChan, counted]
  refine ⟨?_, ?_, trivial, trivial, fun hstep => ?_, fun hstep => ?_⟩
  · unfold lapRegs
    dsimp only
    split
    · rw [rd_wr_ne _ _ _ _ hlap2, rd_wr_ne _ _ _ _ hlap1, rd_bump_same, rd_wr_ne _ _ _ _ hlap3]
    · rw [rd_wr_ne _ _ _ _ hlap1, rd_bump_same, rd_wr_ne _ _ _ _ hlap3]
  · unfold lapRegs
    dsimp only
    split
    · rw [rd_wr_ne _ _ _ _ hb2, rd_wr_ne _ _ _ _ hb1, rd_bump_ne _ _ _ _ hb3, rd_wr_same]
      rfl
    · rw [rd_wr_ne _ _ _ _ hb1, rd_bump_ne _ _ _ _ hb3, rd_wr_same]
      rfl
  · unfold lapRegs
    dsimp only
    rw [if_neg hstep, rd_wr_same, rd_wr_ne _ _ _ _ hrun1, rd_bump_ne _ _ _ _ hrun2, rd_wr_ne _ _ _ _ hrun3]
    exact ⟨hon, rfl⟩
  · unfold lapRegs
    dsimp only
    rw [if_pos hstep, rd_wr_same, rd_wr_ne _ _ _ _ hrun1.symm, rd_wr_same]
    exact ⟨rfl, rfl⟩

theorem patrolLapEnd_open {c : Nat} (h : rdB s (mcPatrolRunning c) = false ∨ lapCovered s c = false) :
    exec (.patrolLapEnd c) s = .next s := by
  have hn : ¬(rdB s (mcPatrolRunning c) = true ∧ lapCovered s c = true) := fun ⟨h1, h2⟩ => by simp [h1, h2] at h
  simp only [exec, execPatrolLapEnd, if_neg hn]

/-- The state in which a range scrub has ended, before its notice. -/
def scrubStopped (s : State) : State :=
  (presentChans s).foldl (fun b c => wr (mcScrubActive c) 0 b) (setMem { s.mem with scrub := none } s)

theorem scrubEnd_eq {w : Scrub} (hw : s.mem.scrub = some w) (hdone : w.size / 64 ≤ w.next) : scrubEnd s =
    notify 0 0x000A [(0x18, 8, paOf s w.base), (0x20, 8, w.size), (0x28, 8, w.lines), (0x30, 4, w.corr),
      (0x34, 4, w.poisoned), (0x38, 4, w.found), (0x3C, 4, beat s + 1 - w.began)] (scrubStopped s) := by
  unfold scrubEnd scrubStopped
  rw [hw]
  dsimp only
  rw [if_pos hdone]

theorem scrubStopped_keeps_part {β : Type} (g : State → β) (hg : ∀ y f v, g (wr f v y) = g y) (s : State) :
    g (scrubStopped s) = g (setMem { s.mem with scrub := none } s) :=
  foldl_fixes g (fun y _ => hg y _ _) _ _

theorem rangeScrubEnds {w : Scrub} (hw : s.mem.scrub = some w) (hdone : w.size / 64 ≤ w.next) :
    ∃ t, exec .rangeScrubEnd s = .next t ∧ t.mem.scrub = none ∧ (∀ x ∈ presentChans s, rd t (mcScrubActive x) = 0) ∧
      (mbxOf t 0).queue = (mbxOf s 0).queue ++ [⟨0x000A, 0, 0, mkBytes [(0x18, 8, paOf s w.base), (0x20, 8, w.size),
        (0x28, 8, w.lines), (0x30, 4, w.corr), (0x34, 4, w.poisoned), (0x38, 4, w.found), (0x3C, 4, beat s + 1 - w.began)]⟩] := by
  have hmem : (scrubStopped s).mem = { s.mem with scrub := none } := scrubStopped_keeps_part State.mem (fun _ _ _ => rfl) s
  have hmbx : mbxOf (scrubStopped s) 0 = mbxOf s 0 := scrubStopped_keeps_part (fun y => mbxOf y 0) (fun _ _ _ => rfl) s
  have hoff : ∀ x ∈ presentChans s, rd (scrubStopped s) (mcScrubActive x) = 0 := fun x hx =>
    foldl_reaches (P := fun y => rd y (mcScrubActive x) = 0) (a := x)
      (fun y c hy => by
        by_cases hc : c = x
        · rw [hc, rd_wr_same, Nat.zero_mod]
        · rw [rd_wr_ne _ _ _ _ (by simp only [fkey, mcScrubActive]; omega)]
          exact hy)
      (fun y => by rw [rd_wr_same, Nat.zero_mod]) hx _
  refine ⟨scrubEnd s, rfl, ?_⟩
  rw [scrubEnd_eq hw hdone]
  generalize hy : scrubStopped s = y at hmem hmbx hoff
  refine ⟨?_, fun x hx => (rd_of_regs (setMbx_regs _ _ _) _).trans (hoff x hx), ?_⟩
  · unfold notify
    dsimp only
    rw [setMbx_mem, hmem]
  · unfold notify
    dsimp only
    rw [setMbx_mbxOf_same, hmbx]

theorem rangeScrubEnd_idle (h : s.mem.scrub = none) : exec .rangeScrubEnd s = .next s := by
  simp only [exec, execRangeScrubEnd, scrubEnd, h]

/-! ### Soft repairs (R199) -/

/-- The half rank of the repaired row leaves the repair; a row whose repair went well is read through, and the bad lines are counted. -/
def repairScrub (k : Coord) (found : Bool) (s : State) : State × Nat :=
  let y := modChan k.chan (fun r => { r with repairing := r.repairing.erase (k.sub * 2 + k.rank) }) s
  if found then (rowLines s k.chan k).foldl (fun (x : State × Nat) l =>
    ((scrubCopies (copies s k.chan) true (nextSlice s) l x.1).1,
      if (scrubCopies (copies s k.chan) true (nextSlice s) l x.1).2 = 2 then x.2 + 1 else x.2)) (y, 0) else (y, 0)

/-- What the repair of the row leaves, before its last step is staged. -/
def repaired (k : Coord) (found : Bool) (s : State) : State :=
  if found then patrolTrigger k.chan 3 (bump (mcRepairSoft k.chan) 1 (repairScrub k found s).1)
  else markRow k.chan k (repairScrub k found s).1

theorem softRepairDone_eq {i : Nat} {a : Bytes} {found : Bool} {k : Coord} (hph : (mbxOf s i).phase = .started)
    (ha : (mbxOf s i).copy = a) (hcode : argCode a = 0x0504) (hst : rd s (mbxStatState i) = 2)
    (hk : coord s (clampPa s (arg a 0 8)) = some k) : softRepairDone i found s =
      addDue (beat s + 1) 9 (.stage i (chg (arg a 0 8) (paOf s (clampPa s (arg a 0 8))) + chg (arg a 8 1) (clampEnum 2 0 (arg a 8 1)))
        (mkBytes [(0, 8, paOf s (clampPa s (arg a 0 8))), (8, 1, 1), (9, 1, if found then 1 else 4), (0xA, 1, (repairScrub k found s).2),
          (0x10, 8, beat s + 1)])) (repaired k found s) := by
  unfold softRepairDone
  dsimp only
  rw [ha, if_pos ⟨hph, hcode, hst⟩, hk]
  rfl

theorem softRepairDone_refused {i : Nat} {found : Bool} (h : (mbxOf s i).phase ≠ .started) :
    exec (.softRepairDone i found) s = .next s := by
  have hn : ¬((mbxOf s i).phase = .started ∧ argCode (mbxOf s i).copy = 0x0504 ∧ rd s (mbxStatState i) = 2) := fun hh => h hh.1
  simp only [exec, execSoftRepairDone, softRepairDone, if_neg hn]

theorem treatKept_repairScrub (k : Coord) (found : Bool) (s : State) : TreatKept s (repairScrub k found s).1 := by
  have h0 := (TreatKept.refl s).modChan k.chan (fun r => { r with repairing := r.repairing.erase (k.sub * 2 + k.rank) })
  unfold repairScrub
  dsimp only
  split
  · exact List.foldlRecOn (motive := fun (x : State × Nat) => TreatKept s x.1) _ _ h0 fun x hx l _ => hx.scrubCopies _ _ _ _
  · exact h0

theorem repairScrub_due (k : Coord) (found : Bool) (s : State) : (repairScrub k found s).1.due = s.due := by
  unfold repairScrub
  dsimp only
  split
  · refine List.foldlRecOn (motive := fun (x : State × Nat) => x.1.due = s.due) _ _ rfl fun x hx l _ => ?_
    exact ((scrubCopies_keeps _ _ _ _ x.1 (keeps_refl _ x.1) (Nat.or_self _)).part .due rfl).trans hx
  · rfl

theorem repaired_due (k : Coord) (found : Bool) (s : State) : (repaired k found s).due = s.due := by
  have hdue := repairScrub_due k found s
  unfold repaired
  split
  · exact ((patrolTrigger_keeps _ _ _ (keeps_refl _ _) (Nat.or_self _)).part .due rfl).trans hdue
  · exact ((markRow_keeps _ _ _ (keeps_refl _ _) (Nat.or_self _)).part .due rfl).trans hdue

theorem repaired_well {k : Coord} {t : State} (ht : t.regs = (repaired k true s).regs) :
    counted (mcRepairSoft k.chan) 1 s t ∧ rd t (mcPatrolReason k.chan) = 3 := by
  have hsoft : rd (repairScrub k true s).1 (mcRepairSoft k.chan) = rd s (mcRepairSoft k.chan) :=
    treatKept_repairScrub k true s _ (by simp [mcRepairSoft]) (by simp [mcRepairSoft, treatLo])
  rw [counted, rd_of_regs ht, rd_of_regs ht, repaired, if_pos rfl]
  constructor
  · rw [rd_patrolTrigger _ _ _ _ (by simp only [fkey, mcRepairSoft, mcPatrolRunning]; omega)
      (by simp only [fkey, mcRepairSoft, mcPatrolReason]; omega), rd_bump_same, hsoft]
  · rw [patrolTrigger_reason]

/-- A row that is listed, or that finds room in the list, stands in it afterwards (R198). -/
theorem listRow_names {c : Nat} {k : Coord} {s : State}
    (h : (chanOf s c).repair.any (·.names k) = true ∨ (chanOf s c).repair.length < 64) :
    (chanOf (listRow c k s) c).repair.any (·.names k) = true ∧ (chanOf (listRow c k s) c).repairing = (chanOf s c).repairing := by
  unfold listRow
  dsimp only
  split
  case isTrue hin =>
    have hn : ¬64 ≤ (chanOf s c).repair.length ∨ (chanOf s c).repair.any (·.names k) = true := by
      rcases h with h | h
      · exact .inr h
      · exact .inl (by omega)
    simp only [Bool.or_eq_true, decide_eq_true_eq] at hin
    exact ⟨hin.elim id fun h64 => hn.resolve_left (not_not.2 h64), rfl⟩
  case isFalse =>
    rw [wr_chanOf, setChan_chanOf_same]
    refine ⟨?_, rfl⟩
    rw [List.any_append, Bool.or_eq_true]
    exact .inr (by simp [RepRow.names])

theorem markRow_marks {c : Nat} {k : Coord} {s : State}
    (h : (chanOf s c).repair.any (·.names k) = true ∨ (chanOf s c).repair.length < 64) :
    (∀ r ∈ (chanOf (markRow c k s) c).repair, r.names k = true → r.bad = true) ∧
      (chanOf (markRow c k s) c).repair.any (·.names k) = true ∧
      rd (markRow c k s) (mcRepairUnrepairable c) = ((chanOf (markRow c k s) c).repair.filter (·.bad)).length % 128 ∧
      (chanOf (markRow c k s) c).repairing = (chanOf s c).repairing := by
  obtain ⟨hany, hrep⟩ := listRow_names h
  unfold markRow
  dsimp only
  rw [wr_chanOf, chanOf_modChan_same, rd_wr_same]
  refine ⟨?_, ?_, rfl, hrep⟩
  · intro r hr hname
    obtain ⟨x, hx, rfl⟩ := List.mem_map.1 hr
    by_cases hxk : x.names k = true
    · rw [if_pos hxk]
    · rw [if_neg hxk] at hname
      exact absurd hname hxk
  · obtain ⟨x, hx, hxk⟩ := List.any_eq_true.1 hany
    refine List.any_eq_true.2 ⟨_, List.mem_map_of_mem hx, ?_⟩
    rw [if_pos hxk]
    exact hxk

theorem softRepairEnds {i : Nat} {a : Bytes} {found : Bool} {k : Coord} {cl : Nat} (hph : (mbxOf s i).phase = .started)
    (ha : (mbxOf s i).copy = a) (hcode : argCode a = 0x0504) (hst : rd s (mbxStatState i) = 2)
    (hk : coord s (clampPa s (arg a 0 8)) = some k)
    (hcl : cl = chg (arg a 0 8) (paOf s (clampPa s (arg a 0 8))) + chg (arg a 8 1) (clampEnum 2 0 (arg a 8 1))) :
    ∃ t bad, exec (.softRepairDone i found) s = .next t ∧ (found = false → bad = 0) ∧
      t.due = s.due ++ [⟨beat s + 1, 9, .stage i cl (mkBytes [(0, 8, paOf s (clampPa s (arg a 0 8))), (8, 1, 1),
        (9, 1, if found then 1 else 4), (0xA, 1, bad), (0x10, 8, beat s + 1)])⟩] ∧
      (found = true → counted (mcRepairSoft k.chan) 1 s t ∧ rd t (mcPatrolReason k.chan) = 3) ∧
      (found = false → ((chanOf s k.chan).repair.any (·.names k) = true ∨ (chanOf s k.chan).repair.length < 64) →
        (∀ r ∈ (chanOf t k.chan).repair, r.names k = true → r.bad = true) ∧
        (chanOf t k.chan).repair.any (·.names k) = true ∧
        rd t (mcRepairUnrepairable k.chan) = ((chanOf t k.chan).repair.filter (·.bad)).length % 128 ∧
        (chanOf t k.chan).repairing = (chanOf s k.chan).repairing.erase (k.sub * 2 + k.rank)) := by
  subst hcl
  refine ⟨softRepairDone i found s, (repairScrub k found s).2, rfl, ?_⟩
  rw [softRepairDone_eq hph ha hcode hst hk]
  refine ⟨?_, ?_, ?_, ?_⟩
  · rintro rfl
    rfl
  · rw [addDue, repaired_due]
  · rintro rfl
    exact repaired_well rfl
  · rintro rfl hroom
    have h := markRow_marks (c := k.chan) (k := k)
      (s := modChan k.chan (fun r => { r with repairing := r.repairing.erase (k.sub * 2 + k.rank) }) s)
      (by rw [chanOf_modChan_same]; exact hroom)
    rw [chanOf_modChan_same] at h
    exact h

/-- Settles O34, one lemma for each command and outcome; treating the lines of a repaired row leaves the count of soft repairs alone. -/
theorem sparingPatrolAndScrub : Obligations.SparingPatrolAndScrub := by
  unfold Obligations.SparingPatrolAndScrub
  intro s c hc
  exact ⟨flipExpires, flipExpiry_early, spareWindowClears, spareWindow_later,
    fun _ _ _ hrank hsub hd hdue hfree hv => deviceSpared hc hrank hsub hd hdue hfree hv, fun _ _ h => deviceSpare_idle h,
    fun _ _ => rfl, patrolLapEnds, patrolLapEnd_open, fun _ hw hdone => rangeScrubEnds hw hdone, rangeScrubEnd_idle,
    fun _ _ _ _ _ hph ha hcode hst hk _ hcl => softRepairEnds hph ha hcode hst hk hcl, fun _ _ h => softRepairDone_refused h⟩

end Sys2Proof.Machine
end

section
/-! The mem.* commands (O35). -/
set_option Elab.async false
namespace Sys2Proof.Machine
open Host Sys2Proof

variable {s : State} {i : Nat} {a : Bytes}

/-! ## Taking the command leaves what the commands read -/

theorem clampPa_started (i : Nat) (s : State) : clampPa (started i s) = clampPa s := rfl
theorem paOf_started (i : Nat) (s : State) : paOf (started i s) = paOf s := rfl
theorem coord_started (i : Nat) (s : State) : coord (started i s) = coord s := rfl
theorem locate_started (i : Nat) (s : State) : locate (started i s) = locate s := rfl
theorem mapEnd_started (i : Nat) (s : State) : mapEnd (started i s) = mapEnd s := rfl
theorem rangeChans_started (i : Nat) (s : State) : rangeChans (started i s) = rangeChans s := rfl
theorem presentChans_started (i : Nat) (s : State) : presentChans (started i s) = presentChans s := rfl
theorem holdsSealed_started (i : Nat) (s : State) : holdsSealed (started i s) = holdsSealed s := rfl
theorem isSealed_started (i : Nat) (s : State) : isSealed (started i s) = isSealed s := rfl
theorem clearHeld_started (i : Nat) (s : State) : clearHeld (started i s) = clearHeld s := rfl
theorem granuleOwner_started (i : Nat) (s : State) : granuleOwner (started i s) = granuleOwner s := rfl
theorem sparedDev_started (i : Nat) (s : State) : sparedDev (started i s) = sparedDev s := rfl
theorem ranksOf_started (i : Nat) (s : State) : ranksOf (started i s) = ranksOf s := rfl
theorem chanPresent_started (i : Nat) (s : State) : chanPresent (started i s) = chanPresent s := rfl
theorem subOwned_started (i : Nat) (s : State) : subOwned (started i s) = subOwned s := rfl
theorem rowListed_started (i : Nat) (s : State) : rowListed (started i s) = rowListed s := rfl
theorem mirrorCode_started (i : Nat) (s : State) : mirrorCode (started i s) = mirrorCode s := rfl

/-! ## mem.status and mem.scrub -/

/-- The half ranks of a channel with a spared device, one bit each. -/
def sparedMask (b : Nat → Bool) : Nat := (List.range 4).foldl (fun m e => if b e then m + 2 ^ e else m) 0

theorem sparedMask_spec (b : Nat → Bool) : (∀ e, e < 4 → inMask (sparedMask b) e = b e) ∧ sparedMask b < 16 := by
  have hmask : sparedMask b = (b 0).toNat + 2 * (b 1).toNat + 4 * (b 2).toNat + 8 * (b 3).toNat := by
    simp only [sparedMask, List.range, List.range.loop, List.foldl]
    cases b 0 <;> cases b 1 <;> cases b 2 <;> cases b 3 <;> rfl
  have hbit : ∀ x : Bool, x.toNat < 2 := fun x => by cases x <;> decide
  have hdigit : ∀ x : Bool, (x.toNat == 1) = x := fun x => by cases x <;> rfl
  have h0 := hbit (b 0); have h1 := hbit (b 1); have h2 := hbit (b 2); have h3 := hbit (b 3)
  refine ⟨fun e he => ?_, by omega⟩
  have hdiv : sparedMask b / 2 ^ e % 2 = (b e).toNat := by
    rw [hmask]
    interval_cases e <;> omega
  rw [inMask, hdiv, hdigit]

theorem memStatus_spec (h : takenAs s i 0x0501 a) : ∃ t c spared, c = clampUnit 16 (chanPresent s) (arg a 0 1) ∧
    exec (.memStatus i) s = .next t ∧
    (∀ e, e < 4 → inMask spared e = (sparedDev s c (e / 2) (e % 2)).isSome) ∧ spared < 16 ∧
    doneIn s t i (chg (arg a 0 1) c) (mkBytes [(0, 1, c), (1, 1, rd s (mcStatusState c)), (2, 1, mirrorCode s c),
      (3, 1, spared), (4, 1, rd s (mcRepairListed c)), (5, 1, rd s (mcPatrolReason c)),
      (8, 2, rd s (mcEccCountCorrected c)), (10, 2, rd s (mcEccCountUncorrectable c)),
      (12, 2, rd s (mcEccCountIntegrity c)), (14, 2, rd s (mcEccCountPoisonWritten c)),
      (0x10, 4, rd s (mcPatrolLapBeats c)), (0x14, 4, rd s (mcFillTimeBeats c)),
      (0x18, 8, (s.mem.scrub.map (·.lines)).getD 0)]) := by
  obtain ⟨hbits, hlt⟩ := sparedMask_spec fun e => (sparedDev s (clampUnit 16 (chanPresent s) (arg a 0 1)) (e / 2) (e % 2)).isSome
  exact ⟨_, _, _, rfl, congrArg Host.Outcome.next (onCmd_of_taken h _), hbits, hlt, doneIn_started s i _ _⟩

/-- A range scrub begins: the channels of its range show it, and no channel has read a line yet (R196). -/
def scrubBegun (w : Scrub) (s : State) : State :=
  (presentChans s).foldl (fun b c => wr (mcScrubActive c) ((rangeChans s w.base w.size).contains c).toNat (wr (mcScrubLinesDone c) 0 b))
    (setMem { s.mem with scrub := some w } s)

theorem scrubBegun_part {β : Type} (g : State → β) (hg : ∀ y f v, g (wr f v y) = g y) (w : Scrub) (s : State) :
    g (scrubBegun w s) = g (setMem { s.mem with scrub := some w } s) :=
  foldl_fixes g (fun _ _ => (hg _ _ _).trans (hg _ _ _)) _ _

theorem rd_scrubBegun_ne (w : Scrub) (s : State) {f : Fld} (h1 : ∀ c ∈ presentChans s, fkey f ≠ fkey (mcScrubActive c))
    (h2 : ∀ c ∈ presentChans s, fkey f ≠ fkey (mcScrubLinesDone c)) : rd (scrubBegun w s) f = rd s f :=
  List.foldlRecOn (motive := fun y => rd y f = rd s f) _ _ (rd_of_regs rfl f) fun _ hy c hc =>
    (rd_wr_ne _ _ _ _ (h1 c hc)).trans ((rd_wr_ne _ _ _ _ (h2 c hc)).trans hy)

theorem rd_scrubBegun (w : Scrub) {s : State} {c : Nat} (hc : c ∈ presentChans s) :
    rd (scrubBegun w s) (mcScrubActive c) = ((rangeChans s w.base w.size).contains c).toNat ∧
      rd (scrubBegun w s) (mcScrubLinesDone c) = 0 := by
  have hbit : ∀ x : Bool, x.toNat % 2 ^ 1 = x.toNat := fun x => by cases x <;> rfl
  refine foldl_reaches (P := fun y => rd y (mcScrubActive c) = ((rangeChans s w.base w.size).contains c).toNat ∧
    rd y (mcScrubLinesDone c) = 0) (a := c) (fun y x hy => ?_) (fun y => ?_) hc _
  · by_cases hx : x = c
    · subst hx
      rw [rd_wr_same, rd_wr_ne _ _ _ _ (by simp only [fkey, mcScrubActive, mcScrubLinesDone]; omega), rd_wr_same]
      exact ⟨hbit _, Nat.zero_mod _⟩
    · rw [rd_wr_ne _ _ _ _ (by simp only [fkey, mcScrubActive]; omega),
        rd_wr_ne _ _ _ _ (by simp only [fkey, mcScrubActive, mcScrubLinesDone]; omega),
        rd_wr_ne _ _ _ _ (by simp only [fkey, mcScrubActive, mcScrubLinesDone]; omega),
        rd_wr_ne _ _ _ _ (by simp only [fkey, mcScrubLinesDone]; omega)]
      exact hy
  · rw [rd_wr_same, rd_wr_ne _ _ _ _ (by simp only [fkey, mcScrubActive, mcScrubLinesDone]; omega), rd_wr_same]
    exact ⟨hbit _, Nat.zero_mod _⟩

theorem presentChans_lt {c : Nat} (hc : c ∈ presentChans s) : c < 16 :=
  List.mem_range.1 (List.mem_filter.1 hc).1

theorem memScrub_begins (h : s.mem.scrub = none) {base size cl : Nat} (hb : base = roundDown 4096 (clampPa s (arg a 0 8)))
    (hz : size = clampR 4096 (mapEnd s - base) (roundUp 4096 (arg a 8 8)))
    (hcl : cl = chg (arg a 0 8) (paOf s base) + chg (arg a 8 8) size) : memScrub i a (started i s) =
      stageDone i cl (mkBytes [(0, 8, paOf s base), (8, 8, size), (0x18, 8, beat s + 1)])
        (scrubBegun { base := base, size := size, began := beat s + 1, since := beat s + 1 } (started i s)) := by
  unfold memScrub
  dsimp only
  rw [show (started i s).mem.scrub = s.mem.scrub from rfl, h, if_neg (by decide)]
  simp only [clampPa_started, paOf_started, mapEnd_started, beat_started]
  rw [← hb, ← hz, ← hcl]
  unfold scrubBegun
  rfl

/-- The pass's first result, and its channels (R196, R201). -/
theorem scrubBegun_result (hi : i < 260) (w : Scrub) (cl : Nat) (data : Bytes) :
    doneIn s (stageDone i cl data (scrubBegun w (started i s))) i cl data ∧
      (stageDone i cl data (scrubBegun w (started i s))).mem.scrub = some w ∧
      ∀ c ∈ presentChans s, rd (stageDone i cl data (scrubBegun w (started i s))) (mcScrubActive c) =
          ((rangeChans s w.base w.size).contains c).toNat ∧
        rd (stageDone i cl data (scrubBegun w (started i s))) (mcScrubLinesDone c) = 0 := by
  have hbox : mbxOf (scrubBegun w (started i s)) i = mbxOf (started i s) i :=
    scrubBegun_part (fun y => mbxOf y i) (fun _ _ _ => rfl) w _
  have hread : ∀ {f : Fld}, f.off < 0x200000 ∨ 0xF00000 ≤ f.off → f.lo < 64 → rd (scrubBegun w (started i s)) f = rd s f := by
    intro f hoff hlo
    refine rd_scrubBegun_ne _ _ (fun c hc => ?_) (fun c hc => ?_)
    · have : c < 16 := presentChans_lt hc
      simp only [fkey, mcScrubActive]
      omega
    · have : c < 16 := presentChans_lt hc
      simp only [fkey, mcScrubLinesDone]
      omega
  refine ⟨doneIn_stageDone _ _ (by rw [hbox, mbxOf_started]) (by rw [hbox, mbxOf_started])
    (hread (.inr (by simp only [mbxSeqSeq]; omega)) (by simp [mbxSeqSeq])) (hread (.inl (by decide)) (by decide)), ?_, fun c hc => ?_⟩
  · rw [mem_stageDone, scrubBegun_part State.mem (fun _ _ _ => rfl)]
    rfl
  · have hclamps : ∀ f : Fld, f.off < 0x400000 → f.lo < 64 → fkey f ≠ fkey (mbxCountClamps i) := fun f hoff hlo => by
      simp only [fkey, mbxCountClamps]
      omega
    have hc16 : c < 16 := presentChans_lt hc
    rw [rd_stageDone_ne (hclamps _ (by simp only [mcScrubActive]; omega) (by simp [mcScrubActive])),
      rd_stageDone_ne (hclamps _ (by simp only [mcScrubLinesDone]; omega) (by simp [mcScrubLinesDone]))]
    exact rd_scrubBegun w (s := started i s) hc

theorem memScrub_spec (hi : i < 260) (h : takenAs s i 0x0502 a) : ∃ t base size cl, base = roundDown 4096 (clampPa s (arg a 0 8)) ∧
    size = clampR 4096 (mapEnd s - base) (roundUp 4096 (arg a 8 8)) ∧
    cl = chg (arg a 0 8) (paOf s base) + chg (arg a 8 8) size ∧ exec (.memScrub i) s = .next t ∧
    (s.mem.scrub.isSome = true → doneIn s t i cl (mkBytes [(0, 8, paOf s base), (8, 8, size), (0x10, 1, 1)]) ∧
      samePart .mem s t) ∧
    (s.mem.scrub = none → doneIn s t i cl (mkBytes [(0, 8, paOf s base), (8, 8, size), (0x18, 8, beat s + 1)]) ∧
      t.mem.scrub = some { base, size, began := beat s + 1, since := beat s + 1 } ∧
      ∀ c ∈ presentChans s, rd t (mcScrubActive c) = ((rangeChans s base size).contains c).toNat ∧
        rd t (mcScrubLinesDone c) = 0) := by
  refine ⟨_, _, _, _, rfl, rfl, rfl, congrArg Host.Outcome.next (onCmd_of_taken h _), fun hon => ?_, fun hoff => ?_⟩
  · unfold memScrub
    dsimp only
    rw [show (started i s).mem = s.mem from rfl, if_pos hon]
    exact ⟨doneIn_started s i _ _, (mem_stageDone _ _ _ _).trans rfl⟩
  · rw [memScrub_begins hoff rfl rfl rfl]
    exact scrubBegun_result hi _ _ _

/-! ## mem.clear -/

variable {t u : State}

theorem PhaseKept.clearLine (x line : Nat) (s : State) : PhaseKept s (Machine.clearLine x line s) := by
  unfold Machine.clearLine
  refine .ite _ (.trans (.of_mbx ?_) (.dramWrite _ _ _ _ _ _)) (.of_mbx ?_)
  · exact ((dropArr_keeps _ _ _ (keeps_refl _ _) (Nat.or_self _)).part .mbx rfl).trans
      ((takeBack_keeps _ _ _ s (keeps_refl _ s) (Nat.or_self _)).part .mbx rfl)
  · exact (refuseLine_keeps _ _ s (keeps_refl _ s) (Nat.or_self _)).part .mbx rfl

theorem PhaseKept.clearRange (x base size : Nat) (s : State) : PhaseKept s (Machine.clearRange x base size s) :=
  List.foldlRecOn (motive := fun y => PhaseKept s y) _ _ (.refl s) fun y hy l _ => hy.trans (.clearLine x l y)

theorem PhaseKept.goesOn (h : PhaseKept s t) {i : Nat} (hs : Machine.goesOn s i) : Machine.goesOn t i := (h i).trans hs

theorem dramKept.ncOpen (h : dramKept s t) (w : Reader) (tag line : Nat) (excl : Bool) :
    dramKept s (Machine.ncOpen w tag line excl t) := by
  have hway : (clearWay (homeSlice t tag line) line (ncExcl t tag line excl) none t).mem = t.mem :=
    (clearWay_keeps _ _ _ _ t (keeps_refl _ t) (Nat.or_self _)).part .mem rfl
  unfold Machine.ncOpen countWait
  dsimp only
  generalize clearWay (homeSlice t tag line) line (ncExcl t tag line excl) none t = y at hway
  unfold dramKept at h ⊢
  split
  · rw [bump, wr_mem, setMem_mem, hway, h]
  · rw [hway]
    exact h

/-- The tenancy that mem.clear of mailbox i clears under. -/
def clearTen (i : Nat) (a : Bytes) : Nat := if 1 ≤ i ∧ i ≤ 256 then i else min 256 (arg a 0x10 2)

/-- The range that mem.clear asks for, cut at the end of the map (log entry 42). -/
def clearBase (s : State) (a : Bytes) : Nat := roundDown 4096 (clampPa s (arg a 0 8))

def clearSize (s : State) (a : Bytes) : Nat :=
  min (clampR 4096 0x40000000 (roundUp 4096 (arg a 8 8))) (max 4096 (mapEnd s - clearBase s a))

/-- The values of mem.clear that were clamped. -/
def clearClamps (s : State) (i : Nat) (a : Bytes) : Nat :=
  chg (arg a 0 8) (paOf s (clearBase s a)) + chg (arg a 8 8) (clearSize s a) + chg (arg a 0x10 2) (clearTen i a)

/-- The state in which the range is cleared. -/
def rangeCleared (i : Nat) (a : Bytes) (s : State) : State :=
  clearRange (clearTen i a) (paOf s (clearBase s a)) (clearSize s a) (dropReads (.mailbox i) s)

theorem memClear_eq (i : Nat) (a : Bytes) (s : State) : memClear i a (started i s) =
    if (isSealed s (clearTen i a) && i != clearTen i a) || holdsSealed s i (clearBase s a) (clearSize s a) then
      stageDone i (clearClamps s i a)
        (mkBytes [(0, 8, paOf s (clearBase s a)), (8, 8, clearSize s a), (0x10, 2, clearTen i a), (0x12, 1, 1)]) (started i s)
    else if clearHeld s (clearTen i a) (paOf s (clearBase s a)) (clearSize s a) ≠ [] then
      addDue (beat s + 1) 9 (.tryAgain i) ((clearHeld s (clearTen i a) (paOf s (clearBase s a)) (clearSize s a)).foldl
        (fun y l => ncOpen (.mailbox i) (clearTen i a) l true y) (started i s))
    else addDue (beat s + 1) 9 (.clearEnd i (clearClamps s i a) (clearBase s a) (clearSize s a) (clearTen i a)
        ((rangeLines (clearBase s a) (clearSize s a)).filter fun l => granuleOwner s (l * 64) == clearTen i a &&
          (coord s (l * 64)).isSome).length (rangeCleared i a (started i s)).mem.nextReq) (rangeCleared i a (started i s)) :=
  rfl

/-- What the asking for copies that hold a range up leaves: the mailbox goes on, and nothing but waits is entered. -/
theorem clearAsked (ls : List Nat) (x : Nat) (s : State) :
    (ls.foldl (fun y l => ncOpen (.mailbox i) x l true y) (started i s)).mbx = (started i s).mbx ∧
      (ls.foldl (fun y l => ncOpen (.mailbox i) x l true y) (started i s)).due = s.due ∧
      dramKept s (ls.foldl (fun y l => ncOpen (.mailbox i) x l true y) (started i s)) := by
  have h0 : (started i s).due = s.due ∧ dramKept s (started i s) := ⟨rfl, rfl⟩
  refine List.foldlRecOn (motive := fun y => y.mbx = (started i s).mbx ∧ y.due = s.due ∧ dramKept s y) _ _ ⟨rfl, h0⟩ ?_
  rintro y ⟨hmbx, hdue, hmem⟩ l -
  have hkeeps := ncOpen_keeps (.mailbox i) x l true y (keeps_refl _ y) (Nat.or_self _)
  exact ⟨(hkeeps.part .mbx rfl).trans hmbx, (hkeeps.part .due rfl).trans hdue, hmem.ncOpen _ _ _ _⟩

theorem clear_allowed {ten base size : Nat} (h1 : isSealed s ten = false ∨ i = ten) (h2 : holdsSealed s i base size = false) :
    ¬((isSealed s ten && i != ten) || holdsSealed s i base size) = true := by
  rw [h2]
  rcases h1 with h1 | h1
  · simp [h1]
  · simp [← h1]

theorem clear_barred {ten base size : Nat} (h : (isSealed s ten = true ∧ i ≠ ten) ∨ holdsSealed s i base size = true) :
    ((isSealed s ten && i != ten) || holdsSealed s i base size) = true := by simpa using h

theorem rangeCleared_spec (i : Nat) (a : Bytes) (s : State) : PhaseKept (started i s) (rangeCleared i a (started i s)) ∧
    (rangeCleared i a (started i s)).due = s.due := by
  have hbase : PhaseKept (started i s) (dropReads (.mailbox i) (started i s)) := .of_mbx rfl
  have hdue : (dropReads (.mailbox i) (started i s)).due = s.due := rfl
  unfold rangeCleared
  generalize dropReads (.mailbox i) (started i s) = y at hbase hdue
  exact ⟨hbase.trans (.clearRange _ _ _ y),
    ((clearRange_keeps _ _ _ y (keeps_refl _ y) (Nat.or_self _)).part .due rfl).trans hdue⟩

theorem memClear_spec (h : takenAs s i 0x0503 a) : ∃ t base size ten cl, base = roundDown 4096 (clampPa s (arg a 0 8)) ∧
    size = min (clampR 4096 0x40000000 (roundUp 4096 (arg a 8 8))) (max 4096 (mapEnd s - base)) ∧
    ten = (if 1 ≤ i ∧ i ≤ 256 then i else min 256 (arg a 0x10 2)) ∧
    cl = chg (arg a 0 8) (paOf s base) + chg (arg a 8 8) size + chg (arg a 0x10 2) ten ∧ exec (.memClear i) s = .next t ∧
    ((isSealed s ten = true ∧ i ≠ ten) ∨ holdsSealed s i base size = true →
      doneIn s t i cl (mkBytes [(0, 8, paOf s base), (8, 8, size), (0x10, 2, ten), (0x12, 1, 1)]) ∧ samePart .mem s t) ∧
    ((isSealed s ten = false ∨ i = ten) → holdsSealed s i base size = false → clearHeld s ten (paOf s base) size ≠ [] →
      goesOn t i ∧ t.due = s.due ++ [⟨beat s + 1, 9, .tryAgain i⟩] ∧ dramKept s t) ∧
    ((isSealed s ten = false ∨ i = ten) → holdsSealed s i base size = false → clearHeld s ten (paOf s base) size = [] →
      goesOn t i ∧ ∃ n,
      n = ((rangeLines base size).filter fun l => granuleOwner s (l * 64) == ten && (coord s (l * 64)).isSome).length ∧
      t.due = s.due ++ [⟨beat s + 1, 9, .clearEnd i cl base size ten n t.mem.nextReq⟩]) := by
  refine ⟨memClear i a (started i s), clearBase s a, clearSize s a, clearTen i a, clearClamps s i a, rfl, rfl, rfl, rfl,
    congrArg Host.Outcome.next (onCmd_of_taken h _), ?_⟩
  rw [memClear_eq]
  refine ⟨fun hr => ?_, fun h1 h2 h3 => ?_, fun h1 h2 h3 => ?_⟩
  · rw [if_pos (clear_barred hr)]
    exact ⟨doneIn_started s i _ _, (mem_stageDone _ _ _ _).trans rfl⟩
  · rw [if_neg (clear_allowed h1 h2), if_pos h3]
    generalize clearHeld s _ _ _ = ls
    obtain ⟨hmbx, hdue, hmem⟩ := clearAsked (i := i) ls (clearTen i a) s
    generalize ls.foldl _ (started i s) = y at hmbx hdue hmem
    refine ⟨?_, by rw [addDue, hdue], hmem⟩
    exact (PhaseKept.of_mbx hmbx).goesOn (goesOn_started i s)
  · rw [if_neg (clear_allowed h1 h2), if_neg (not_not.2 h3)]
    obtain ⟨hphase, hdue⟩ := rangeCleared_spec i a s
    generalize rangeCleared i a (started i s) = y at hphase hdue
    refine ⟨hphase.goesOn (goesOn_started i s), _, rfl, ?_⟩
    rw [addDue, hdue]

theorem clearEnd_spec (s : State) (i cl base size ten n upto : Nat) :
    (clearWaits s base size upto = false → doneIn s (applyAct s (.clearEnd i cl base size ten n upto)) i cl
      (mkBytes [(0, 8, paOf s base), (8, 8, size), (0x10, 2, ten), (0x14, 4, n), (0x18, 8, beat s)])) ∧
    (clearWaits s base size upto = true → applyAct s (.clearEnd i cl base size ten n upto) =
      { s with due := s.due ++ [⟨beat s + 1, 9, .clearEnd i cl base size ten n upto⟩] }) := by
  have happly : applyAct s (.clearEnd i cl base size ten n upto) = clearEnd i cl base size ten n upto s := rfl
  rw [happly, clearEnd]
  constructor
  · intro h
    rw [h, if_neg (by decide)]
    exact doneIn_stageDone _ _ rfl rfl rfl rfl
  · intro h
    rw [h, if_pos rfl]
    rfl

/-! ## mem.repair, mem.spare and mem.flip -/

/-- What mem.repair answers at once: outcome 3 where the line has no place or the list is full, 2 where a repair was asked for, 0
where the row is listed. -/
theorem memRepair_eq (i : Nat) (a : Bytes) (s : State) : memRepair i a (started i s) =
    match coord s (clampPa s (arg a 0 8)) with
    | none => stageDone i (chg (arg a 0 8) (paOf s (clampPa s (arg a 0 8))) + chg (arg a 8 1) (clampEnum 2 0 (arg a 8 1)))
        (mkBytes [(0, 8, paOf s (clampPa s (arg a 0 8))), (8, 1, clampEnum 2 0 (arg a 8 1)), (9, 1, 3), (0x10, 8, beat s)]) (started i s)
    | some k =>
      if clampEnum 2 0 (arg a 8 1) = 1 ∧ subOwned s k.chan k.sub = false then
        modChan k.chan (fun r => { r with repairing := (k.sub * 2 + k.rank) :: r.repairing }) (started i s)
      else stageDone i (chg (arg a 0 8) (paOf s (clampPa s (arg a 0 8))) + chg (arg a 8 1) (clampEnum 2 0 (arg a 8 1)))
        (mkBytes [(0, 8, paOf s (clampPa s (arg a 0 8))), (8, 1, clampEnum 2 0 (arg a 8 1)),
          (9, 1, if (chanOf s k.chan).repair.length = 64 ∧ rowListed s k.chan k = false then 3
            else if clampEnum 2 0 (arg a 8 1) = 1 then 2 else 0), (0x10, 8, beat s)]) (listRow k.chan k (started i s)) := by
  unfold memRepair
  rfl

theorem listRow_mbx (c : Nat) (k : Coord) (s : State) : (listRow c k s).mbx = s.mbx :=
  (listRow_keeps c k s (keeps_refl _ s) (Nat.or_self _)).part .mbx rfl

theorem listRow_full {c : Nat} {k : Coord} {s : State} (h : rowListed s c k = true) : listRow c k s = s := by
  have hn : (chanOf s c).repair.any (·.names k) = true := h
  unfold listRow
  dsimp only
  rw [hn, Bool.true_or, if_pos rfl]

theorem listRow_room {c : Nat} {k : Coord} {s : State} (h : rowListed s c k = false) (hlen : (chanOf s c).repair.length < 64) :
    listRow c k s = wr (mcRepairListed c) ((chanOf s c).repair.length + 1)
      (setChan c { chanOf s c with repair := (chanOf s c).repair ++ [⟨k.sub, k.rank, rowKey k, false⟩] } s) := by
  have hn : (chanOf s c).repair.any (·.names k) = false := h
  have h64 : ¬64 ≤ (chanOf s c).repair.length := by omega
  unfold listRow
  dsimp only
  rw [hn, Bool.false_or, decide_eq_false h64, if_neg (by decide)]

theorem memRepair_spec (hi : i < 260) (h : takenAs s i 0x0504 a) : ∃ t off mode cl, off = clampPa s (arg a 0 8) ∧
    mode = clampEnum 2 0 (arg a 8 1) ∧ cl = chg (arg a 0 8) (paOf s off) + chg (arg a 8 1) mode ∧ exec (.memRepair i) s = .next t ∧
    (coord s off = none → doneIn s t i cl (mkBytes [(0, 8, paOf s off), (8, 1, mode), (9, 1, 3), (0x10, 8, beat s)])) ∧
    (∀ k, coord s off = some k → mode = 1 → subOwned s k.chan k.sub = false → goesOn t i ∧
      (chanOf t k.chan).repairing = (k.sub * 2 + k.rank) :: (chanOf s k.chan).repairing ∧ underRepair t k.chan k.sub k.rank = true ∧
      ∀ l, lineAt t k.chan l = lineAt s k.chan l) ∧
    (∀ k, coord s off = some k → k.chan < 16 → mode = 0 → rowListed s k.chan k = true →
      doneIn s t i cl (mkBytes [(0, 8, paOf s off), (8, 1, 0), (9, 1, 0), (0x10, 8, beat s)]) ∧ samePart .mem s t) ∧
    (∀ k, coord s off = some k → k.chan < 16 → mode = 0 → rowListed s k.chan k = false →
      (chanOf s k.chan).repair.length < 64 →
      doneIn s t i cl (mkBytes [(0, 8, paOf s off), (8, 1, 0), (9, 1, 0), (0x10, 8, beat s)]) ∧
      (chanOf t k.chan).repair = (chanOf s k.chan).repair ++ [⟨k.sub, k.rank, rowKey k, false⟩] ∧
      rd t (mcRepairListed k.chan) = (chanOf s k.chan).repair.length + 1) := by
  refine ⟨memRepair i a (started i s), _, _, _, rfl, rfl, rfl, congrArg Host.Outcome.next (onCmd_of_taken h _), ?_⟩
  rw [memRepair_eq]
  generalize clampPa s (arg a 0 8) = off
  generalize clampEnum 2 0 (arg a 8 1) = mode
  refine ⟨fun hk => ?_, fun k hk hmode hown => ?_, fun k hk hc hmode hlist => ?_, fun k hk hc hmode hlist hlen => ?_⟩
  · rw [hk]
    exact doneIn_started s i _ _
  · rw [hk]
    dsimp only
    rw [if_pos ⟨hmode, hown⟩]
    refine ⟨(PhaseKept.of_mbx rfl).goesOn (goesOn_started i s), ?_, ?_, fun l => ?_⟩
    · rw [chanOf_modChan_same]
      rfl
    · rw [underRepair, chanOf_modChan_same]
      simp
    · rw [lineAt, chanOf_modChan_same]
      rfl
  · rw [hk]
    dsimp only
    have hfull : ¬((chanOf s k.chan).repair.length = 64 ∧ rowListed s k.chan k = false) := fun hh => by simp [hlist] at hh
    rw [if_neg (fun hh : mode = 1 ∧ _ => by omega), if_neg hfull, if_neg (by omega), hmode, listRow_full (s := started i s) hlist]
    exact ⟨doneIn_started s i _ _, (mem_stageDone _ _ _ _).trans rfl⟩
  · rw [hk]
    dsimp only
    have hfull : ¬((chanOf s k.chan).repair.length = 64 ∧ rowListed s k.chan k = false) := fun hh => by omega
    rw [if_neg (fun hh : mode = 1 ∧ _ => by omega), if_neg hfull, if_neg (by omega), hmode,
      listRow_room (s := started i s) hlist hlen]
    generalize hy : setChan k.chan _ (started i s) = y
    have hregs : y.regs = s.regs := by rw [← hy]; rfl
    have hmbx : mbxOf y i = mbxOf (started i s) i := by rw [← hy, setChan_mbxOf]
    have hchan : (chanOf y k.chan).repair = (chanOf s k.chan).repair ++ [⟨k.sub, k.rank, rowKey k, false⟩] := by
      rw [← hy, setChan_chanOf_same]
      rfl
    refine ⟨doneIn_stageDone _ _ (by rw [wr_mbxOf, hmbx, mbxOf_started]) (by rw [wr_mbxOf, hmbx, mbxOf_started]) ?_ ?_, ?_, ?_⟩
    · rw [rd_wr_ne _ _ _ _ (by simp only [fkey, mbxSeqSeq, mcRepairListed]; omega), rd_of_regs hregs]
    · rw [beat, rd_wr_ne _ _ _ _ (by simp only [fkey, clkBeatBeat, mcRepairListed]; omega), rd_of_regs hregs, beat]
    · rw [chanOf, mem_stageDone, ← chanOf, wr_chanOf, hchan]
    · rw [rd_stageDone_ne (by simp only [fkey, mbxCountClamps, mcRepairListed]; omega), rd_wr_same]
      exact Nat.mod_eq_of_lt (show _ < 128 from by change (chanOf s k.chan).repair.length + 1 < 128; omega)

theorem memSpare_spec (h : takenAs s i 0x0505 a) : ∃ t c rank sub d cl, c = clampUnit 16 (chanPresent s) (arg a 0 1) ∧
    rank = min (ranksOf s c - 1) (arg a 1 1) ∧ sub = min 1 (arg a 2 1) ∧ d = min 9 (arg a 3 1) ∧
    cl = chg (arg a 0 1) c + chg (arg a 1 1) rank + chg (arg a 2 1) sub + chg (arg a 3 1) d ∧
    exec (.memSpare i) s = .next t ∧
    ((sparedDev s c rank sub).isSome = true →
      doneIn s t i cl (mkBytes [(0, 1, c), (1, 1, rank), (2, 1, sub), (3, 1, d), (4, 1, 1)])) ∧
    (sparedDev s c rank sub = none → goesOn t i ∧ t.journal = s.journal ++ [⟨i, beat s + 1, .spare c rank sub d⟩,
      ⟨i, beat s + 1, .stage i cl (mkBytes [(0, 1, c), (1, 1, rank), (2, 1, sub), (3, 1, d), (8, 8, beat s + 1)])⟩]) := by
  refine ⟨memSpare i a (started i s), _, _, _, _, _, rfl, rfl, rfl, rfl, rfl, congrArg Host.Outcome.next (onCmd_of_taken h _),
    fun hon => ?_, fun hoff => ?_⟩
  · unfold memSpare
    dsimp only
    rw [chanPresent_started, ranksOf_started, sparedDev_started, if_pos hon]
    exact doneIn_started s i _ _
  · unfold memSpare
    dsimp only
    rw [chanPresent_started, ranksOf_started, sparedDev_started, hoff, if_neg (by decide)]
    refine ⟨(PhaseKept.of_mbx rfl).goesOn (goesOn_started i s), ?_⟩
    simp only [addStep, List.append_assoc]
    rfl

/-- The flip mask of a channel, as mem.flip writes it (R191). -/
def flipArmed (c da db line pa pb : Nat) (y : State) : State :=
  wr (mcFlipCtrlArmed c) 1 (wr (mcFlipCtrlDeviceA c) da (wr (mcFlipCtrlDeviceB c) db
    (wr (mcFlipLineLine c) line (wr (mcFlipPatAPattern c) pa (wr (mcFlipPatBPattern c) pb
      (modChan c (fun r => { r with flipBeat := beat y }) y))))))

theorem rd_flipArmed_ne {c : Nat} (da db line pa pb : Nat) (y : State) {f : Fld} (hlo : f.lo < 64)
    (hoff : f.off < 0x300458 + c * 0x10000 ∨ 0x300470 + c * 0x10000 < f.off) : rd (flipArmed c da db line pa pb y) f = rd y f := by
  unfold flipArmed
  rw [rd_wr_ne _ _ _ _ (by simp only [fkey, mcFlipCtrlArmed]; omega), rd_wr_ne _ _ _ _ (by simp only [fkey, mcFlipCtrlDeviceA]; omega),
    rd_wr_ne _ _ _ _ (by simp only [fkey, mcFlipCtrlDeviceB]; omega), rd_wr_ne _ _ _ _ (by simp only [fkey, mcFlipLineLine]; omega),
    rd_wr_ne _ _ _ _ (by simp only [fkey, mcFlipPatAPattern]; omega), rd_wr_ne _ _ _ _ (by simp only [fkey, mcFlipPatBPattern]; omega),
    rd_modChan]

theorem rd_flipArmed {c da db : Nat} (hda : da < 16) (hdb : db < 16) (line pa pb : Nat) (y : State) :
    rd (flipArmed c da db line pa pb y) (mcFlipCtrlArmed c) = 1 ∧ rd (flipArmed c da db line pa pb y) (mcFlipCtrlDeviceA c) = da ∧
      rd (flipArmed c da db line pa pb y) (mcFlipCtrlDeviceB c) = db ∧
      rd (flipArmed c da db line pa pb y) (mcFlipLineLine c) = line % 2 ^ 40 ∧
      rd (flipArmed c da db line pa pb y) (mcFlipPatAPattern c) = pa % 2 ^ 64 ∧
      rd (flipArmed c da db line pa pb y) (mcFlipPatBPattern c) = pb % 2 ^ 64 := by
  unfold flipArmed
  refine ⟨rd_wr_same _ _ _, ?_, ?_, ?_, ?_, ?_⟩
  · rw [rd_wr_ne _ _ _ _ (by simp only [fkey, mcFlipCtrlArmed, mcFlipCtrlDeviceA]; omega), rd_wr_same]
    exact Nat.mod_eq_of_lt hda
  · rw [rd_wr_ne _ _ _ _ (by simp only [fkey, mcFlipCtrlArmed, mcFlipCtrlDeviceB]; omega),
      rd_wr_ne _ _ _ _ (by simp only [fkey, mcFlipCtrlDeviceA, mcFlipCtrlDeviceB]; omega), rd_wr_same]
    exact Nat.mod_eq_of_lt hdb
  · rw [rd_wr_ne _ _ _ _ (by simp only [fkey, mcFlipCtrlArmed, mcFlipLineLine]; omega),
      rd_wr_ne _ _ _ _ (by simp only [fkey, mcFlipCtrlDeviceA, mcFlipLineLine]; omega),
      rd_wr_ne _ _ _ _ (by simp only [fkey, mcFlipCtrlDeviceB, mcFlipLineLine]; omega), rd_wr_same]
    rfl
  · rw [rd_wr_ne _ _ _ _ (by simp only [fkey, mcFlipCtrlArmed, mcFlipPatAPattern]; omega),
      rd_wr_ne _ _ _ _ (by simp only [fkey, mcFlipCtrlDeviceA, mcFlipPatAPattern]; omega),
      rd_wr_ne _ _ _ _ (by simp only [fkey, mcFlipCtrlDeviceB, mcFlipPatAPattern]; omega),
      rd_wr_ne _ _ _ _ (by simp only [fkey, mcFlipLineLine, mcFlipPatAPattern]; omega), rd_wr_same]
    rfl
  · rw [rd_wr_ne _ _ _ _ (by simp only [fkey, mcFlipCtrlArmed, mcFlipPatBPattern]; omega),
      rd_wr_ne _ _ _ _ (by simp only [fkey, mcFlipCtrlDeviceA, mcFlipPatBPattern]; omega),
      rd_wr_ne _ _ _ _ (by simp only [fkey, mcFlipCtrlDeviceB, mcFlipPatBPattern]; omega),
      rd_wr_ne _ _ _ _ (by simp only [fkey, mcFlipLineLine, mcFlipPatBPattern]; omega),
      rd_wr_ne _ _ _ _ (by simp only [fkey, mcFlipPatAPattern, mcFlipPatBPattern]; omega), rd_wr_same]
    rfl

theorem chanOf_flipArmed (c da db line pa pb : Nat) (y : State) :
    (chanOf (flipArmed c da db line pa pb y) c).flipBeat = beat y := by
  unfold flipArmed
  rw [wr_chanOf, wr_chanOf, wr_chanOf, wr_chanOf, wr_chanOf, wr_chanOf, chanOf_modChan_same]

theorem mbxOf_flipArmed (c da db line pa pb j : Nat) (y : State) : mbxOf (flipArmed c da db line pa pb y) j = mbxOf y j := rfl

/-- The second device of the mask and its pattern: one named twice is flipped once, by both patterns (R191). -/
theorem memFlip_eq {c b da db pat : Nat} (hloc : locate s (clampPa s (arg a 0 8)) = some (c, b)) (hda : da = min 9 (arg a 8 1))
    (hdb : db = (if 0x85 ≤ arg a 9 1 ∨ min 9 (arg a 9 1) = da then 0xF else min 9 (arg a 9 1)))
    (hpat : pat = (if arg a 9 1 < 0x85 ∧ min 9 (arg a 9 1) = da then arg a 0x10 8 ^^^ arg a 0x18 8 else arg a 0x10 8)) :
    memFlip i a (started i s) = stageDone i (chg (arg a 0 8) (paOf s (clampPa s (arg a 0 8))) + chg (arg a 8 1) da +
        chg (arg a 9 1) (if db = 0xF then 0xFF else db))
      (mkBytes [(0, 8, paOf s (clampPa s (arg a 0 8))), (8, 1, da), (9, 1, if db = 0xF then 0xFF else db),
        (0xA, 1, rd s (mcFlipCtrlArmed c)), (0x10, 1, c)])
      (flipArmed c da db (clampPa s (arg a 0 8) / 64) pat (arg a 0x18 8) (started i s)) := by
  have hsame : ((if 0x85 ≤ arg a 9 1 then 0xF else min 9 (arg a 9 1)) = min 9 (arg a 8 1)) ↔
      arg a 9 1 < 0x85 ∧ min 9 (arg a 9 1) = da := by
    subst hda
    split <;> omega
  have hdb' : db = (if arg a 9 1 < 0x85 ∧ min 9 (arg a 9 1) = da then 0xF else if 0x85 ≤ arg a 9 1 then 0xF else min 9 (arg a 9 1)) := by
    subst hdb
    by_cases h1 : 0x85 ≤ arg a 9 1
    · simp [h1]
    · by_cases h2 : min 9 (arg a 9 1) = da
      · rw [if_pos (.inr h2), if_pos ⟨by omega, h2⟩]
      · rw [if_neg (by simp [h1, h2]), if_neg (fun hh => h2 hh.2), if_neg h1]
  unfold memFlip
  dsimp only
  rw [clampPa_started, paOf_started, locate_started, hloc]
  dsimp only
  simp only [hsame]
  rw [← hda, ← hpat, ← hdb', rd_started]
  rfl

theorem memFlip_spec (hi : i < 260) (h : takenAs s i 0x0506 a) {c b da db out pat : Nat}
    (hloc : locate s (clampPa s (arg a 0 8)) = some (c, b)) (hc : c < 16) (hda : da = min 9 (arg a 8 1))
    (hdb : db = (if 0x85 ≤ arg a 9 1 ∨ min 9 (arg a 9 1) = da then 0xF else min 9 (arg a 9 1)))
    (hout : out = (if db = 0xF then 0xFF else db))
    (hpat : pat = (if arg a 9 1 < 0x85 ∧ min 9 (arg a 9 1) = da then arg a 0x10 8 ^^^ arg a 0x18 8 else arg a 0x10 8)) :
    ∃ t, exec (.memFlip i) s = .next t ∧
      rd t (mcFlipCtrlArmed c) = 1 ∧ rd t (mcFlipCtrlDeviceA c) = da ∧ rd t (mcFlipCtrlDeviceB c) = db ∧
      rd t (mcFlipLineLine c) = clampPa s (arg a 0 8) / 64 % 2 ^ 40 ∧ rd t (mcFlipPatAPattern c) = pat % 2 ^ 64 ∧
      rd t (mcFlipPatBPattern c) = arg a 0x18 8 % 2 ^ 64 ∧ (chanOf t c).flipBeat = beat s ∧
      doneIn s t i (chg (arg a 0 8) (paOf s (clampPa s (arg a 0 8))) + chg (arg a 8 1) da + chg (arg a 9 1) out)
        (mkBytes [(0, 8, paOf s (clampPa s (arg a 0 8))), (8, 1, da), (9, 1, out), (0xA, 1, rd s (mcFlipCtrlArmed c)),
          (0x10, 1, c)]) := by
  have hda16 : da < 16 := by omega
  have hdb16 : db < 16 := by
    rw [hdb]
    split <;> omega
  refine ⟨memFlip i a (started i s), congrArg Host.Outcome.next (onCmd_of_taken h _), ?_⟩
  rw [memFlip_eq hloc hda hdb hpat, ← hout]
  generalize clampPa s (arg a 0 8) = off
  obtain ⟨h1, h2, h3, h4, h5, h6⟩ := rd_flipArmed (c := c) hda16 hdb16 (off / 64) pat (arg a 0x18 8) (started i s)
  have hbeat := chanOf_flipArmed c da db (off / 64) pat (arg a 0x18 8) (started i s)
  have hseq := rd_flipArmed_ne da db (off / 64) pat (arg a 0x18 8) (started i s) (f := mbxSeqSeq i) (c := c) (by simp [mbxSeqSeq])
    (by simp only [mbxSeqSeq]; omega)
  have hnow := rd_flipArmed_ne da db (off / 64) pat (arg a 0x18 8) (started i s) (f := clkBeatBeat) (c := c) (by decide)
    (by simp only [clkBeatBeat]; omega)
  have hbox := mbxOf_flipArmed c da db (off / 64) pat (arg a 0x18 8) i (started i s)
  generalize flipArmed c da db (off / 64) pat (arg a 0x18 8) (started i s) = y at *
  refine ⟨?_, ?_, ?_, ?_, ?_, ?_, ?_, ?_⟩
  · rw [rd_stageDone_ne (by simp only [fkey, mbxCountClamps, mcFlipCtrlArmed]; omega), h1]
  · rw [rd_stageDone_ne (by simp only [fkey, mbxCountClamps, mcFlipCtrlDeviceA]; omega), h2]
  · rw [rd_stageDone_ne (by simp only [fkey, mbxCountClamps, mcFlipCtrlDeviceB]; omega), h3]
  · rw [rd_stageDone_ne (by simp only [fkey, mbxCountClamps, mcFlipLineLine]; omega), h4]
  · rw [rd_stageDone_ne (by simp only [fkey, mbxCountClamps, mcFlipPatAPattern]; omega), h5]
  · rw [rd_stageDone_ne (by simp only [fkey, mbxCountClamps, mcFlipPatBPattern]; omega), h6]
  · rw [chanOf, mem_stageDone, ← chanOf, hbeat, beat_started]
  · exact doneIn_stageDone _ _ (by rw [hbox, mbxOf_started]) (by rw [hbox, mbxOf_started]) (hseq.trans (rd_started _ _ _))
      (hnow.trans (rd_started _ _ _))

/-- Settles O35, one lemma for each command. -/
theorem memoryCommands : Obligations.MemoryCommands := by
  unfold Obligations.MemoryCommands
  intro s i a hi
  exact ⟨memStatus_spec, memScrub_spec hi, memClear_spec, fun cl base size ten n upto => clearEnd_spec s i cl base size ten n upto,
    memRepair_spec hi, memSpare_spec, fun h _ _ _ _ _ _ hloc hc hda hdb hout hpat => memFlip_spec hi h hloc hc hda hdb hout hpat⟩

end Sys2Proof.Machine
end

section
/-! Training of a channel, its fill and the exit from self-refresh (O30). -/
set_option Elab.async false
namespace Sys2Proof.Machine
open Host Sys2Proof

variable {s : State} {c : Nat}

/-- A property that a fold's steps keep, and that the step of one member brings about, holds after the fold. -/
theorem foldl_reaches_mem {α : Type} {P : State → Prop} {f : State → α → State} {x : α} {l : List α}
    (hkeep : ∀ b ∈ l, ∀ y, P y → P (f y b)) (hset : ∀ y, P (f y x)) (hx : x ∈ l) (s : State) : P (l.foldl f s) := by
  induction l generalizing s with
  | nil => exact absurd hx List.not_mem_nil
  | cons b r ih =>
    obtain rfl | hr := List.mem_cons.1 hx
    · exact List.foldlRecOn (motive := P) r f (hset s) fun y hy a ha => hkeep a (List.mem_cons_of_mem _ ha) y hy
    · exact ih (fun a ha => hkeep a (List.mem_cons_of_mem _ ha)) hr (f s b)

/-- Fields that begin at different bits are apart, whatever their registers. -/
theorem rd_wr_of_lo {f g : Fld} {v : Nat} {s : State} (h : (f.lo != g.lo && decide (f.lo < 64) && decide (g.lo < 64)) = true) :
    rd (wr f v s) g = rd s g := by
  simp only [Bool.and_eq_true, bne_iff_ne, decide_eq_true_eq] at h
  exact rd_wr_ne _ _ _ _ (by simp only [fkey]; omega)

/-! ## Leaving a channel out, and the one speed (R140) -/

theorem leaveOut_spec (hc : c < 16) (code : Nat) (s : State) : rd (leaveOut c code s) (mcStatusState c) = 6 ∧
    rd (leaveOut c code s) (mcStatusFailCode c) = code % 256 ∧ recordedIn 2 3 c 0x030A s (leaveOut c code s) ∧
    rd (leaveOut c code s) (mcTrainTimeBeats c) = (beat s - (chanOf s c).trainStart) % 2 ^ 32 := by
  unfold leaveOut
  refine ⟨?_, ?_, ?_, ?_⟩
  · rw [rd_recContained (by simp [mcStatusState]) (by simp only [mcStatusState]; omega),
      rd_wr_ne _ _ _ _ (by simp only [fkey, mcStatusState, mcTrainTimeBeats]; omega), rd_wr_same]
    rfl
  · rw [rd_recContained (by simp [mcStatusFailCode]) (by simp only [mcStatusFailCode]; omega),
      rd_wr_ne _ _ _ _ (by simp only [fkey, mcStatusFailCode, mcTrainTimeBeats]; omega),
      rd_wr_ne _ _ _ _ (by simp only [fkey, mcStatusFailCode, mcStatusState]; omega), rd_wr_same]
    rfl
  · refine recContained_recordedIn _ _ _ _ _ _ ?_ ?_
    · rw [wr_ras, wr_ras, wr_ras]
    · rw [beat_wr_ne (by simp only [fkey, clkBeatBeat, mcTrainTimeBeats]; omega),
        beat_wr_ne (by simp only [fkey, clkBeatBeat, mcStatusState]; omega),
        beat_wr_ne (by simp only [fkey, clkBeatBeat, mcStatusFailCode]; omega)]
  · rw [rd_recContained (by simp [mcTrainTimeBeats]) (by simp only [mcTrainTimeBeats]; omega), rd_wr_same]
    rfl

theorem rd_leaveOut_ne (c code : Nat) (s : State) {f : Fld} (hlo : f.lo < 64) (hoff : f.off < 0x100000000)
    (h1 : fkey f ≠ fkey (mcTrainTimeBeats c)) (h2 : fkey f ≠ fkey (mcStatusState c)) (h3 : fkey f ≠ fkey (mcStatusFailCode c)) :
    rd (leaveOut c code s) f = rd s f := by
  unfold leaveOut
  rw [rd_recContained hlo hoff, rd_wr_ne _ _ _ _ h1, rd_wr_ne _ _ _ _ h2, rd_wr_ne _ _ _ _ h3]

/-- Settling the speed writes the speed of the channels in training. -/
theorem rd_setSpeed_ne {f : Fld} (h : ∀ x, fkey f ≠ fkey (mcDimmSpeed x)) (s : State) : rd (setSpeed s) f = rd s f := by
  unfold setSpeed
  split
  · exact (foldl_fixes (fun y => rd y f) (fun y x => rd_wr_ne _ _ _ _ (h x)) _ _).trans (rd_of_regs rfl f)
  · rfl

theorem setSpeed_ras (s : State) : (setSpeed s).ras = s.ras := by
  unfold setSpeed
  split
  · exact foldl_fixes State.ras (fun y x => wr_ras _ _ _) _ _
  · rfl

theorem setSpeed_chans (s : State) (x : Nat) : chanOf (setSpeed s) x = chanOf s x := by
  unfold setSpeed
  split
  · exact foldl_fixes (fun y => chanOf y x) (fun y z => wr_chanOf _ _ _ _) _ _
  · rfl

/-- The one speed depends on the channels in training, their DIMMs and the board alone. -/
theorem commonSpeed_congr {t : State} (hchips : t.chip = s.chip) (hboot : t.boot = s.boot)
    (hstate : ∀ x, rd t (mcStatusState x) = rd s (mcStatusState x)) (hchan : ∀ x, chanOf t x = chanOf s x) :
    commonSpeed t = commonSpeed s := by
  have hvariant : vOf t = vOf s := by rw [vOf, vOf, hchips]
  have hpresent : presentChans t = presentChans s := by
    unfold presentChans chanPresent
    rw [hvariant]
  have htraining : trainingChans t = trainingChans s := by
    unfold trainingChans
    rw [hpresent]
    simp only [hstate]
  unfold commonSpeed
  rw [hboot, htraining]
  simp only [hchan]
/-- A failed step leaves the channel out, and the speed is settled for the others (R140). -/
theorem trainingFails (hc : c < 16) (code : Nat) (s : State) : rd (setSpeed (leaveOut c code s)) (mcStatusState c) = 6 ∧
    rd (setSpeed (leaveOut c code s)) (mcStatusFailCode c) = code % 256 ∧ recordedIn 2 3 c 0x030A s (setSpeed (leaveOut c code s)) ∧
    rd (setSpeed (leaveOut c code s)) (mcTrainTimeBeats c) = (beat s - (chanOf s c).trainStart) % 2 ^ 32 := by
  obtain ⟨hstate, hcode, hrec, htime⟩ := leaveOut_spec hc code s
  refine ⟨?_, ?_, hrec.of_ras (setSpeed_ras _), ?_⟩
  · rw [rd_setSpeed_ne fun x => by simp only [fkey, mcStatusState, mcDimmSpeed]; omega]
    exact hstate
  · rw [rd_setSpeed_ne fun x => by simp only [fkey, mcStatusFailCode, mcDimmSpeed]; omega]
    exact hcode
  · rw [rd_setSpeed_ne fun x => by simp only [fkey, mcTrainTimeBeats, mcDimmSpeed]; omega]
    exact htime

/-! ## Steps (R144) -/

section
variable (htrain : rd s (mcStatusState c) = 1) (hopen : (chanOf s c).trained = false)
include htrain hopen

theorem trainingStepDone_open : ¬(rd s (mcStatusState c) ≠ 1 ∨ (chanOf s c).trained = true) := by
  rw [htrain, hopen]
  simp

theorem trainingStepDone_fail : exec (.trainingStepDone c .fail) s = .next (setSpeed (leaveOut c (trainCode (rd s (mcStatusStep c))) s)) := by
  simp only [exec, execTrainingStepDone, trainingStepDone, if_neg (trainingStepDone_open htrain hopen)]

theorem trainingPoint (hstep : rd s (mcStatusStep c) = 4 ∨ rd s (mcStatusStep c) = 6) : ∃ t,
    exec (.trainingStepDone c .point) s = .next t ∧ counted (mcStatusProgress c) 1 s t ∧ otherFields [mcStatusProgress c] s t := by
  refine ⟨bump (mcStatusProgress c) 1 s, ?_, rd_bump_same _ _ _, (otherFields_refl _ s).bump (by simp) _⟩
  simp only [exec, execTrainingStepDone, trainingStepDone, if_neg (trainingStepDone_open htrain hopen), if_pos hstep]

/-! ### The SPD (R139) -/

theorem spdAbsent (hc : c < 16) (hstep : rd s (mcStatusStep c) = 1) (f v : List Nat) : ∃ t,
    exec (.trainingStepDone c (.spd false f v)) s = .next t ∧ rd t (mcStatusState c) = 6 ∧ rd t (mcStatusFailCode c) = 1 := by
  obtain ⟨hstate, hcode, -, -⟩ := trainingFails hc 1 s
  refine ⟨_, ?_, hstate, hcode⟩
  simp only [exec, execTrainingStepDone, trainingStepDone, if_neg (trainingStepDone_open htrain hopen),
    if_neg (not_not.2 hstep), if_true]

theorem spdRefused (hc : c < 16) (hstep : rd s (mcStatusStep c) = 1) {f v : List Nat} (hspd : spdOf f v = none) : ∃ t,
    exec (.trainingStepDone c (.spd true f v)) s = .next t ∧ rd t (mcStatusState c) = 6 ∧ rd t (mcStatusFailCode c) = 2 := by
  obtain ⟨hstate, hcode, -, -⟩ := trainingFails hc 2 s
  refine ⟨_, ?_, hstate, hcode⟩
  have hpresent : ¬(true = false) := by decide
  simp only [exec, execTrainingStepDone, trainingStepDone, if_neg (trainingStepDone_open htrain hopen),
    if_neg (not_not.2 hstep), if_neg hpresent, hspd]

end

/-- The DIMM of the SPD shows in MC_DIMM. -/
def dimmShown (c : Nat) (d : DimmSpd) (s : State) : State :=
  wr (mcDimmRanks c) d.ranks (wr (mcDimmStack c) d.stack (wr (mcDimmDensity c) d.density
    (wr (mcDimmCapacityGb c) d.capGb (modChan c (fun x => { x with dimm := some d }) s))))

/-- Capacity of an organization in GB (Table 6.1). -/
def dimmCap (d : DimmSpd) : Nat := (if d.density = 1 then 32 else if d.density = 2 then 48 else 64) * d.ranks * 2 ^ chipBits d.stack

theorem dimmTop_eq (d : DimmSpd) : dimmTop d = if d.density < 1 ∨ 3 < d.density ∨ d.capGb ≠ dimmCap d then none
    else if (d.ranks = 1 ∨ d.ranks = 2) ∧ d.stack = 0 then some 8000
    else if d.ranks = 2 ∧ d.stack = 1 then some 6400
    else if d.ranks = 2 ∧ d.stack = 2 ∧ d.density = 1 then some 5600
    else none := rfl

theorem dimmCap_le {d : DimmSpd} (hr : d.ranks ≤ 2) : dimmCap d ≤ 512 := by
  have hdens : (if d.density = 1 then 32 else if d.density = 2 then 48 else 64) ≤ 64 := by
    split
    · decide
    split <;> decide
  have hstack : 2 ^ chipBits d.stack ≤ 4 := by
    unfold chipBits
    split
    · decide
    split <;> decide
  exact Nat.mul_le_mul (Nat.mul_le_mul hdens hr) hstack

/-- A DIMM of Table 6.1 has one rank or two, and at most 512 GB. -/
theorem spdOf_bounds {f v : List Nat} {d : DimmSpd} (h : spdOf f v = some d) : d.ranks < 4 ∧ d.capGb < 4096 := by
  have htop : (dimmTop d).isSome = true := by
    unfold spdOf at h
    split at h
    · dsimp only at h
      split at h
      next hd => exact Option.some.inj h ▸ hd.2.2.2.1
      next => exact absurd h nofun
    · exact absurd h nofun
  have hranks : d.capGb = dimmCap d ∧ d.ranks ≤ 2 := by
    rw [dimmTop_eq] at htop
    by_cases hbad : d.density < 1 ∨ 3 < d.density ∨ d.capGb ≠ dimmCap d
    · rw [if_pos hbad] at htop
      exact absurd htop nofun
    rw [if_neg hbad] at htop
    refine ⟨not_not.1 (not_or.1 (not_or.1 hbad).2).2, ?_⟩
    by_contra hr
    rw [if_neg (fun hh => by omega), if_neg (fun hh => by omega), if_neg (fun hh => by omega)] at htop
    exact absurd htop nofun
  have hcap := dimmCap_le hranks.2
  omega

theorem commonSpeed_le (s : State) : commonSpeed s ≤ 8000 := by
  unfold commonSpeed
  dsimp only
  cases hf : listedSpeeds.find? _ with
  | none => simp
  | some v =>
    have hmem := List.mem_of_find?_eq_some hf
    simp only [listedSpeeds, List.mem_cons, List.not_mem_nil, or_false] at hmem
    simp only [Option.getD_some]
    omega

theorem dimmShown_keeps {f : Fld} (h1 : fkey f ≠ fkey (mcDimmRanks c)) (h2 : fkey f ≠ fkey (mcDimmStack c))
    (h3 : fkey f ≠ fkey (mcDimmDensity c)) (h4 : fkey f ≠ fkey (mcDimmCapacityGb c)) (d : DimmSpd) (s : State) :
    rd (dimmShown c d s) f = rd s f := by
  unfold dimmShown
  rw [rd_wr_ne _ _ _ _ h1, rd_wr_ne _ _ _ _ h2, rd_wr_ne _ _ _ _ h3, rd_wr_ne _ _ _ _ h4, rd_modChan]

theorem rd_dimmShown {d : DimmSpd} (hr : d.ranks < 4) (hcap : d.capGb < 4096) (s : State) :
    rd (dimmShown c d s) (mcDimmRanks c) = d.ranks ∧ rd (dimmShown c d s) (mcDimmCapacityGb c) = d.capGb := by
  unfold dimmShown
  constructor
  · rw [rd_wr_same]
    exact Nat.mod_eq_of_lt hr
  · rw [rd_wr_ne _ _ _ _ (by simp only [fkey, mcDimmCapacityGb, mcDimmRanks]; omega),
      rd_wr_ne _ _ _ _ (by simp only [fkey, mcDimmCapacityGb, mcDimmStack]; omega),
      rd_wr_ne _ _ _ _ (by simp only [fkey, mcDimmCapacityGb, mcDimmDensity]; omega), rd_wr_same]
    exact Nat.mod_eq_of_lt hcap

/-- The next step begins: its number, and no sweep point yet. -/
theorem rd_nextStep {c : Nat} {s : State} (h : rd s (mcStatusStep c) < 15) :
    rd (nextStep c s) (mcStatusStep c) = rd s (mcStatusStep c) + 1 ∧ rd (nextStep c s) (mcStatusProgress c) = 0 := by
  unfold nextStep
  constructor
  · rw [rd_wr_same]
    exact Nat.mod_eq_of_lt (show _ < 16 by omega)
  · rw [rd_wr_ne _ _ _ _ (by simp only [fkey, mcStatusStep, mcStatusProgress]; omega), rd_wr_same]
    rfl

theorem rd_nextStep_ne {f : Fld} (h1 : fkey f ≠ fkey (mcStatusStep c)) (h2 : fkey f ≠ fkey (mcStatusProgress c)) (s : State) :
    rd (nextStep c s) f = rd s f := by
  unfold nextStep
  rw [rd_wr_ne _ _ _ _ h1, rd_wr_ne _ _ _ _ h2, rd_modChan]

/-- The state in which the SPD of a channel has been taken, before the speed is settled. -/
def spdTaken (c : Nat) (d : DimmSpd) (s : State) : State := nextStep c (dimmShown c d s)

theorem spdTaken_chan (c : Nat) (d : DimmSpd) (s : State) : (chanOf (spdTaken c d s) c).dimm = some d := by
  unfold spdTaken nextStep dimmShown
  rw [wr_chanOf, wr_chanOf, chanOf_modChan_same, wr_chanOf, wr_chanOf, wr_chanOf, wr_chanOf, chanOf_modChan_same]

theorem rd_spdTaken_ne {f : Fld} (h : ∀ g ∈ [mcStatusStep c, mcStatusProgress c, mcDimmRanks c, mcDimmStack c, mcDimmDensity c,
    mcDimmCapacityGb c], fkey f ≠ fkey g) (d : DimmSpd) (s : State) : rd (spdTaken c d s) f = rd s f := by
  unfold spdTaken
  rw [rd_nextStep_ne (h _ (by simp)) (h _ (by simp)),
    dimmShown_keeps (h _ (by simp)) (h _ (by simp)) (h _ (by simp)) (h _ (by simp))]

theorem trainingChans_spdTaken (c : Nat) (d : DimmSpd) (s : State) : trainingChans (spdTaken c d s) = trainingChans s := by
  have hstate : ∀ x, rd (spdTaken c d s) (mcStatusState x) = rd s (mcStatusState x) := fun x =>
    rd_spdTaken_ne (by
      simp only [List.forall_mem_cons, List.not_mem_nil, false_implies, implies_true, and_true, fkey, mcStatusState, mcStatusStep,
        mcStatusProgress, mcDimmRanks, mcDimmStack, mcDimmDensity, mcDimmCapacityGb]
      omega) d s
  unfold trainingChans
  simp only [hstate]
  rfl

/-- The speed is settled once every channel in training has given its SPD (R140). -/
theorem setSpeed_settles {y : State} (h0 : y.mem.speed = 0) (hall : ∀ x ∈ trainingChans y, rd y (mcStatusStep x) ≠ 1)
    (hc : c ∈ trainingChans y) : rd (setSpeed y) (mcDimmSpeed c) = commonSpeed (setSpeed y) ∧
      (setSpeed y).mem.speed = commonSpeed (setSpeed y) := by
  have hif : y.mem.speed = 0 ∧ ((trainingChans y).all fun x => rd y (mcStatusStep x) != 1) = true :=
    ⟨h0, List.all_eq_true.2 fun x hx => by simpa using hall x hx⟩
  have heq : setSpeed y = (trainingChans y).foldl (fun a x => wr (mcDimmSpeed x) (commonSpeed y) a)
      (setMem { y.mem with speed := commonSpeed y } y) := by
    unfold setSpeed
    rw [if_pos hif]
  have hspeed : commonSpeed (setSpeed y) = commonSpeed y := by
    refine commonSpeed_congr ?_ ?_ (fun x => ?_) (fun x => setSpeed_chans _ _)
    · exact (setSpeed_keeps y (keeps_refl _ y) (Nat.or_self _)).part .chip rfl
    · exact (setSpeed_keeps y (keeps_refl _ y) (Nat.or_self _)).part .boot rfl
    · exact rd_setSpeed_ne (fun z => by simp only [fkey, mcStatusState, mcDimmSpeed]; omega) y
  have hlt : commonSpeed y % 2 ^ 16 = commonSpeed y := Nat.mod_eq_of_lt (by have := commonSpeed_le y; omega)
  rw [hspeed, heq]
  constructor
  · refine foldl_reaches_mem (P := fun a => rd a (mcDimmSpeed c) = commonSpeed y) (fun b _ a ha => ?_)
      (fun a => by rw [rd_wr_same]; exact hlt) hc _
    by_cases hb : b = c
    · rw [hb, rd_wr_same]
      exact hlt
    · rw [rd_wr_ne _ _ _ _ (by simp only [fkey, mcDimmSpeed]; omega)]
      exact ha
  · rw [foldl_fixes (fun a => a.mem.speed) fun a x => congrArg Mem.speed (wr_mem _ _ _)]
    rfl

section
variable (htrain : rd s (mcStatusState c) = 1) (hopen : (chanOf s c).trained = false)
include htrain hopen

theorem spdTakes (hc : c < 16) (hstep : rd s (mcStatusStep c) = 1) {f v : List Nat} {d : DimmSpd} (hspd : spdOf f v = some d) : ∃ t,
    exec (.trainingStepDone c (.spd true f v)) s = .next t ∧
      rd t (mcStatusStep c) = 2 ∧ rd t (mcStatusProgress c) = 0 ∧ (chanOf t c).dimm = some d ∧
      rd t (mcDimmRanks c) = d.ranks ∧ rd t (mcDimmCapacityGb c) = d.capGb ∧
      (chanPresent s c = true → s.mem.speed = 0 → (∀ x ∈ trainingChans s, x ≠ c → rd s (mcStatusStep x) ≠ 1) →
        rd t (mcDimmSpeed c) = commonSpeed t ∧ t.mem.speed = commonSpeed t) ∧
      (s.mem.speed ≠ 0 → rd t (mcDimmSpeed c) = rd s (mcDimmSpeed c)) := by
  have hpresent : ¬(true = false) := by decide
  have hex : exec (.trainingStepDone c (.spd true f v)) s = .next (setSpeed (spdTaken c d s)) := by
    simp only [exec, execTrainingStepDone, trainingStepDone, if_neg (trainingStepDone_open htrain hopen),
      if_neg (not_not.2 hstep), if_neg hpresent, hspd]
    rfl
  have hshown : rd (dimmShown c d s) (mcStatusStep c) = 1 := by
    rw [dimmShown_keeps (by simp only [fkey, mcStatusStep, mcDimmRanks]; omega) (by simp only [fkey, mcStatusStep, mcDimmStack]; omega)
      (by simp only [fkey, mcStatusStep, mcDimmDensity]; omega) (by simp only [fkey, mcStatusStep, mcDimmCapacityGb]; omega), hstep]
  obtain ⟨hnext, hprog⟩ := rd_nextStep (c := c) (s := dimmShown c d s) (by omega)
  obtain ⟨hranks, hcap⟩ := rd_dimmShown (c := c) (spdOf_bounds hspd).1 (spdOf_bounds hspd).2 s
  refine ⟨_, hex, ?_, ?_, ?_, ?_, ?_, fun hhere hspeed hothers => ?_, fun hspeed => ?_⟩
  · rw [rd_setSpeed_ne fun x => by simp only [fkey, mcStatusStep, mcDimmSpeed]; omega]
    exact hnext.trans (by rw [hshown])
  · rw [rd_setSpeed_ne fun x => by simp only [fkey, mcStatusProgress, mcDimmSpeed]; omega]
    exact hprog
  · rw [setSpeed_chans, spdTaken_chan]
  · rw [rd_setSpeed_ne fun x => by simp only [fkey, mcDimmRanks, mcDimmSpeed]; omega, spdTaken,
      rd_nextStep_ne (by simp only [fkey, mcDimmRanks, mcStatusStep]; omega) (by simp only [fkey, mcDimmRanks, mcStatusProgress]; omega)]
    exact hranks
  · rw [rd_setSpeed_ne fun x => by simp only [fkey, mcDimmCapacityGb, mcDimmSpeed]; omega, spdTaken,
      rd_nextStep_ne (by simp only [fkey, mcDimmCapacityGb, mcStatusStep]; omega)
        (by simp only [fkey, mcDimmCapacityGb, mcStatusProgress]; omega)]
    exact hcap
  · have hmine : c ∈ trainingChans s :=
      List.mem_filter.2 ⟨List.mem_filter.2 ⟨List.mem_range.2 hc, hhere⟩, by rw [htrain]; rfl⟩
    refine setSpeed_settles hspeed (fun x hx => ?_) (by rw [trainingChans_spdTaken]; exact hmine)
    rw [trainingChans_spdTaken] at hx
    by_cases hxc : x = c
    · rw [hxc, spdTaken, hnext, hshown]
      decide
    · rw [rd_spdTaken_ne (by
        simp only [List.forall_mem_cons, List.not_mem_nil, false_implies, implies_true, and_true, fkey, mcStatusStep,
          mcStatusProgress, mcDimmRanks, mcDimmStack, mcDimmDensity, mcDimmCapacityGb]
        omega)]
      exact hothers x hx hxc
  · have hkept : setSpeed (spdTaken c d s) = spdTaken c d s := by
      unfold setSpeed
      exact if_neg fun hh => hspeed hh.1
    rw [hkept, rd_spdTaken_ne (by
      simp only [List.forall_mem_cons, List.not_mem_nil, false_implies, implies_true, and_true, fkey, mcStatusStep,
        mcStatusProgress, mcDimmRanks, mcDimmStack, mcDimmDensity, mcDimmCapacityGb, mcDimmSpeed]
      omega)]

theorem stepPasses (bad : List Nat) (hstep : rd s (mcStatusStep c) ∈ [2, 3, 5, 7]) : ∃ t,
    exec (.trainingStepDone c (.ok bad)) s = .next t ∧ rd t (mcStatusStep c) = rd s (mcStatusStep c) + 1 ∧
      rd t (mcStatusProgress c) = 0 ∧ rd t (mcStatusState c) = 1 := by
  have hcases : rd s (mcStatusStep c) = 2 ∨ rd s (mcStatusStep c) = 3 ∨ rd s (mcStatusStep c) = 5 ∨ rd s (mcStatusStep c) = 7 := by
    simpa using hstep
  obtain ⟨hnext, hprog⟩ := rd_nextStep (c := c) (s := s) (by omega)
  refine ⟨nextStep c s, ?_, hnext, hprog, ?_⟩
  · simp only [exec, execTrainingStepDone, trainingStepDone, if_neg (trainingStepDone_open htrain hopen), if_pos hcases]
  · rw [rd_nextStep_ne (by simp only [fkey, mcStatusState, mcStatusStep]; omega)
      (by simp only [fkey, mcStatusState, mcStatusProgress]; omega), htrain]

end

/-! ### The sweeps (R145) -/

/-- Of two equally long runs of a sweep, which one counts. -/
def sweepLate (s : State) : Bool := freeVal 2 s == 1

/-- The delay and the eye of a nibble. -/
def nibbleSwept (c step : Nat) (late : Bool) (ranks : Nat) (eyes : List Nat) (y : State) (n : Nat) : State :=
  match nibbleOf late ranks eyes n with
  | some (d, w) =>
    if step = 4 then wr (mcNibbleRdDelay c n) d (wr (mcNibbleRdWidth c n) w y)
    else wr (mcNibbleWrDelay c n) d (wr (mcNibbleWrWidth c n) w y)
  | none => y

/-- The delays that a sweep with no bad nibble leaves. -/
def sweepDone (c step : Nat) (eyes : List Nat) (s : State) : State :=
  (List.range (20 * rd s (mcDimmRanks c))).foldl (nibbleSwept c step (sweepLate s) (rd s (mcDimmRanks c)) eyes) (freeNext s)

theorem applySweep_eq (c step : Nat) (eyes : List Nat) (s : State) : applySweep c step eyes s =
    if (List.range (20 * rd s (mcDimmRanks c))).all fun n => (nibbleOf (sweepLate s) (rd s (mcDimmRanks c)) eyes n).isSome then
      nextStep c (sweepDone c step eyes s)
    else leaveOut c 0x0A (wr (mcStatusProgress c) 128 (freeNext s)) := rfl

theorem rd_nibbleSwept_ne (step : Nat) (late : Bool) (ranks : Nat) (eyes : List Nat) (y : State) (n : Nat) {f : Fld}
    (h1 : fkey f ≠ fkey (mcNibbleRdDelay c n)) (h2 : fkey f ≠ fkey (mcNibbleRdWidth c n))
    (h3 : fkey f ≠ fkey (mcNibbleWrDelay c n)) (h4 : fkey f ≠ fkey (mcNibbleWrWidth c n)) :
    rd (nibbleSwept c step late ranks eyes y n) f = rd y f := by
  unfold nibbleSwept
  split
  · split
    · rw [rd_wr_ne _ _ _ _ h1, rd_wr_ne _ _ _ _ h2]
    · rw [rd_wr_ne _ _ _ _ h3, rd_wr_ne _ _ _ _ h4]
  · rfl

/-- A field of the channel's status is none of its nibbles'. -/
theorem status_ne_nibble {f : Fld} (hoff : f.off = 0x300000 + c * 0x10000) (hlo : f.lo < 64) (n : Nat) :
    fkey f ≠ fkey (mcNibbleRdDelay c n) ∧ fkey f ≠ fkey (mcNibbleRdWidth c n) ∧ fkey f ≠ fkey (mcNibbleWrDelay c n) ∧
      fkey f ≠ fkey (mcNibbleWrWidth c n) := by
  simp only [fkey, mcNibbleRdDelay, mcNibbleRdWidth, mcNibbleWrDelay, mcNibbleWrWidth, hoff]
  omega

theorem rd_sweepDone_status (step : Nat) (eyes : List Nat) (s : State) {f : Fld} (hoff : f.off = 0x300000 + c * 0x10000)
    (hlo : f.lo < 64) : rd (sweepDone c step eyes s) f = rd s f := by
  refine (foldl_fixes (fun y => rd y f) (fun y n => ?_) _ _).trans (rd_of_regs rfl f)
  obtain ⟨h1, h2, h3, h4⟩ := status_ne_nibble (c := c) hoff hlo n
  exact rd_nibbleSwept_ne _ _ _ _ _ _ h1 h2 h3 h4

/-- What a sweep of reads or of writes writes for a nibble. -/
theorem rd_sweepDone (step : Nat) (eyes : List Nat) {s : State} {n d w : Nat} (hn : n < 20 * rd s (mcDimmRanks c))
    (hnib : nibbleOf (sweepLate s) (rd s (mcDimmRanks c)) eyes n = some (d, w)) :
    (step = 4 → rd (sweepDone c step eyes s) (mcNibbleRdDelay c n) = d % 128 ∧
      rd (sweepDone c step eyes s) (mcNibbleRdWidth c n) = w % 128) ∧
    (step ≠ 4 → rd (sweepDone c step eyes s) (mcNibbleWrDelay c n) = d % 128 ∧
      rd (sweepDone c step eyes s) (mcNibbleWrWidth c n) = w % 128) := by
  constructor
  · intro hstep
    have hset : ∀ y, rd (nibbleSwept c step (sweepLate s) (rd s (mcDimmRanks c)) eyes y n) (mcNibbleRdDelay c n) = d % 128 ∧
        rd (nibbleSwept c step (sweepLate s) (rd s (mcDimmRanks c)) eyes y n) (mcNibbleRdWidth c n) = w % 128 := fun y => by
      unfold nibbleSwept
      rw [hnib]
      dsimp only
      rw [if_pos hstep, rd_wr_same, rd_wr_ne _ _ _ _ (by simp only [fkey, mcNibbleRdDelay, mcNibbleRdWidth]; omega), rd_wr_same]
      exact ⟨rfl, rfl⟩
    refine foldl_reaches (P := fun y => rd y (mcNibbleRdDelay c n) = d % 128 ∧ rd y (mcNibbleRdWidth c n) = w % 128) (a := n)
      (fun y m hy => ?_) hset (List.mem_range.2 hn) _
    by_cases hm : m = n
    · exact hm ▸ hset y
    · refine ⟨(rd_nibbleSwept_ne _ _ _ _ _ _ ?_ ?_ ?_ ?_).trans hy.1, (rd_nibbleSwept_ne _ _ _ _ _ _ ?_ ?_ ?_ ?_).trans hy.2⟩ <;>
        (simp only [fkey, mcNibbleRdDelay, mcNibbleRdWidth, mcNibbleWrDelay, mcNibbleWrWidth]; omega)
  · intro hstep
    have hset : ∀ y, rd (nibbleSwept c step (sweepLate s) (rd s (mcDimmRanks c)) eyes y n) (mcNibbleWrDelay c n) = d % 128 ∧
        rd (nibbleSwept c step (sweepLate s) (rd s (mcDimmRanks c)) eyes y n) (mcNibbleWrWidth c n) = w % 128 := fun y => by
      unfold nibbleSwept
      rw [hnib]
      dsimp only
      rw [if_neg hstep, rd_wr_same, rd_wr_ne _ _ _ _ (by simp only [fkey, mcNibbleWrDelay, mcNibbleWrWidth]; omega), rd_wr_same]
      exact ⟨rfl, rfl⟩
    refine foldl_reaches (P := fun y => rd y (mcNibbleWrDelay c n) = d % 128 ∧ rd y (mcNibbleWrWidth c n) = w % 128) (a := n)
      (fun y m hy => ?_) hset (List.mem_range.2 hn) _
    by_cases hm : m = n
    · exact hm ▸ hset y
    · refine ⟨(rd_nibbleSwept_ne _ _ _ _ _ _ ?_ ?_ ?_ ?_).trans hy.1, (rd_nibbleSwept_ne _ _ _ _ _ _ ?_ ?_ ?_ ?_).trans hy.2⟩ <;>
        (simp only [fkey, mcNibbleRdDelay, mcNibbleRdWidth, mcNibbleWrDelay, mcNibbleWrWidth]; omega)

theorem sweepEnds (hc : c < 16) (htrain : rd s (mcStatusState c) = 1) (hopen : (chanOf s c).trained = false) (eyes : List Nat)
    (hstep : rd s (mcStatusStep c) = 4 ∨ rd s (mcStatusStep c) = 6) :
    ∃ t, exec (.trainingStepDone c (.sweep eyes)) s = .next t ∧
      ((∃ n, n < 20 * rd s (mcDimmRanks c) ∧ ∀ late, nibbleOf late (rd s (mcDimmRanks c)) eyes n = none) →
        rd t (mcStatusState c) = 6 ∧ rd t (mcStatusFailCode c) = 0x0A ∧ rd t (mcStatusProgress c) = 128) ∧
      ((∀ n, n < 20 * rd s (mcDimmRanks c) → ∀ late, (nibbleOf late (rd s (mcDimmRanks c)) eyes n).isSome = true) →
        rd t (mcStatusStep c) = rd s (mcStatusStep c) + 1 ∧ rd t (mcStatusState c) = 1 ∧ rd t (mcStatusProgress c) = 0 ∧
        ∀ n d w, n < 20 * rd s (mcDimmRanks c) → (∀ late, nibbleOf late (rd s (mcDimmRanks c)) eyes n = some (d, w)) →
          (rd s (mcStatusStep c) = 4 → rd t (mcNibbleRdDelay c n) = d % 128 ∧ rd t (mcNibbleRdWidth c n) = w % 128) ∧
          (rd s (mcStatusStep c) = 6 → rd t (mcNibbleWrDelay c n) = d % 128 ∧ rd t (mcNibbleWrWidth c n) = w % 128)) := by
  refine ⟨applySweep c (rd s (mcStatusStep c)) eyes s, ?_, ?_, ?_⟩
  · simp only [exec, execTrainingStepDone, trainingStepDone, if_neg (trainingStepDone_open htrain hopen), if_pos hstep]
  · rintro ⟨n, hn, hnone⟩
    have hbad : ¬((List.range (20 * rd s (mcDimmRanks c))).all fun n =>
        (nibbleOf (sweepLate s) (rd s (mcDimmRanks c)) eyes n).isSome) = true := fun hall => by
      have := List.all_eq_true.1 hall n (List.mem_range.2 hn)
      rw [hnone] at this
      exact absurd this nofun
    rw [applySweep_eq, if_neg hbad]
    obtain ⟨hstate, hcode, -, -⟩ := leaveOut_spec hc 0x0A (wr (mcStatusProgress c) 128 (freeNext s))
    refine ⟨hstate, hcode, ?_⟩
    rw [rd_leaveOut_ne _ _ _ (by simp [mcStatusProgress]) (by simp only [mcStatusProgress]; omega)
      (by simp only [fkey, mcStatusProgress, mcTrainTimeBeats]; omega) (by simp only [fkey, mcStatusProgress, mcStatusState]; omega)
      (by simp only [fkey, mcStatusProgress, mcStatusFailCode]; omega), rd_wr_same]
    rfl
  · intro hgood
    have hall : ((List.range (20 * rd s (mcDimmRanks c))).all fun n =>
        (nibbleOf (sweepLate s) (rd s (mcDimmRanks c)) eyes n).isSome) = true :=
      List.all_eq_true.2 fun n hn => hgood n (List.mem_range.1 hn) _
    rw [applySweep_eq, if_pos hall]
    have hat : rd (sweepDone c (rd s (mcStatusStep c)) eyes s) (mcStatusStep c) = rd s (mcStatusStep c) :=
      rd_sweepDone_status _ _ _ rfl (by simp [mcStatusStep])
    obtain ⟨hnext, hprog⟩ := rd_nextStep (c := c) (s := sweepDone c (rd s (mcStatusStep c)) eyes s) (by omega)
    refine ⟨hnext.trans (by rw [hat]), ?_, hprog, fun n d w hn hnib => ?_⟩
    · rw [rd_nextStep_ne (by simp only [fkey, mcStatusState, mcStatusStep]; omega)
        (by simp only [fkey, mcStatusState, mcStatusProgress]; omega), rd_sweepDone_status _ _ _ rfl (by simp [mcStatusState]), htrain]
    · obtain ⟨hread, hwrite⟩ := rd_sweepDone (c := c) (rd s (mcStatusStep c)) eyes hn (hnib _)
      have hstatus : ∀ g ∈ [mcNibbleRdDelay c n, mcNibbleRdWidth c n, mcNibbleWrDelay c n, mcNibbleWrWidth c n],
          rd (nextStep c (sweepDone c (rd s (mcStatusStep c)) eyes s)) g = rd (sweepDone c (rd s (mcStatusStep c)) eyes s) g :=
        fun g hg => by
          obtain ⟨h1, h2, h3, h4⟩ := status_ne_nibble (c := c) (f := mcStatusStep c) rfl (by simp [mcStatusStep]) n
          obtain ⟨k1, k2, k3, k4⟩ := status_ne_nibble (c := c) (f := mcStatusProgress c) rfl (by simp [mcStatusProgress]) n
          simp only [List.mem_cons, List.not_mem_nil, or_false] at hg
          rcases hg with rfl | rfl | rfl | rfl
          · exact rd_nextStep_ne h1.symm k1.symm _
          · exact rd_nextStep_ne h2.symm k2.symm _
          · exact rd_nextStep_ne h3.symm k3.symm _
          · exact rd_nextStep_ne h4.symm k4.symm _
      rw [hstatus _ (by simp), hstatus _ (by simp), hstatus _ (by simp), hstatus _ (by simp)]
      exact ⟨hread, fun h6 => hwrite (by omega)⟩

/-! ### The grid (R153, R154) -/

/-- One block of the grid in MC_SEAL_BLOCK. -/
def blockWritten (c n : Nat) (x : Nat × Nat) (y : State) : State :=
  wr (mcSealBlockPosition c n) x.1 (wr (mcSealBlockRole c n) x.2 (wr (mcSealBlockValid c n) 1 y))

/-- MC_SEAL_BLOCK n shows the block. -/
def BlockShown (c n : Nat) (x : Nat × Nat) (y : State) : Prop :=
  rd y (mcSealBlockPosition c n) = x.1 % 512 ∧ rd y (mcSealBlockRole c n) = x.2 % 2 ∧ rd y (mcSealBlockValid c n) = 1

theorem blockShown_written (c n : Nat) (x : Nat × Nat) (y : State) : BlockShown c n x (blockWritten c n x y) := by
  unfold BlockShown blockWritten
  refine ⟨?_, ?_, ?_⟩
  · rw [rd_wr_same]
    rfl
  · rw [rd_wr_ne _ _ _ _ (by simp only [fkey, mcSealBlockPosition, mcSealBlockRole]; omega), rd_wr_same]
    rfl
  · rw [rd_wr_ne _ _ _ _ (by simp only [fkey, mcSealBlockPosition, mcSealBlockValid]; omega),
      rd_wr_ne _ _ _ _ (by simp only [fkey, mcSealBlockRole, mcSealBlockValid]; omega), rd_wr_same]
    rfl

theorem rd_blockWritten_ne {n : Nat} (x : Nat × Nat) (y : State) {f : Fld} (h : f.off ≠ 0x301000 + c * 0x10000 + n * 8)
    (hlo : f.lo < 64) : rd (blockWritten c n x y) f = rd y f := by
  unfold blockWritten
  rw [rd_wr_ne _ _ _ _ (by simp only [fkey, mcSealBlockPosition]; omega), rd_wr_ne _ _ _ _ (by simp only [fkey, mcSealBlockRole]; omega),
    rd_wr_ne _ _ _ _ (by simp only [fkey, mcSealBlockValid]; omega)]

theorem BlockShown.written_ne {n m : Nat} {x z : Nat × Nat} {y : State} (h : BlockShown c n x y) (hne : m ≠ n) :
    BlockShown c n x (blockWritten c m z y) := by
  obtain ⟨h1, h2, h3⟩ := h
  refine ⟨?_, ?_, ?_⟩
  · rw [rd_blockWritten_ne _ _ (by simp only [mcSealBlockPosition]; omega) (by simp [mcSealBlockPosition]), h1]
  · rw [rd_blockWritten_ne _ _ (by simp only [mcSealBlockRole]; omega) (by simp [mcSealBlockRole]), h2]
  · rw [rd_blockWritten_ne _ _ (by simp only [mcSealBlockValid]; omega) (by simp [mcSealBlockValid]), h3]

theorem BlockShown.of_rd {n : Nat} {x : Nat × Nat} {y z : State} (h : BlockShown c n x y)
    (hrd : ∀ f : Fld, f.off = 0x301000 + c * 0x10000 + n * 8 → f.lo < 64 → rd z f = rd y f) : BlockShown c n x z := by
  obtain ⟨h1, h2, h3⟩ := h
  exact ⟨(hrd _ (by simp only [mcSealBlockPosition]; omega) (by simp [mcSealBlockPosition])).trans h1,
    (hrd _ (by simp only [mcSealBlockRole]; omega) (by simp [mcSealBlockRole])).trans h2,
    (hrd _ (by simp only [mcSealBlockValid]; omega) (by simp [mcSealBlockValid])).trans h3⟩

/-- A block of the grid, for both subchannels. -/
def blockPair (c : Nat) (y : State) (e : (Nat × Nat) × Nat) : State :=
  [e.2, e.2 + 32].foldl (fun b n => blockWritten c n e.1 b) y

theorem rd_blockPair_ne (c : Nat) (e : (Nat × Nat) × Nat) (y : State) {f : Fld} (hlo : f.lo < 64)
    (h : f.off < 0x301000 + c * 0x10000) : rd (blockPair c y e) f = rd y f := by
  simp only [blockPair, List.foldl]
  rw [rd_blockWritten_ne _ _ (by omega) hlo, rd_blockWritten_ne _ _ (by omega) hlo]

/-- The blocks of a list of at most 32 all show, in both subchannels. -/
theorem blocksShown {bl : List (Nat × Nat)} (hlen : bl.length ≤ 32) {i : Nat} {x : Nat × Nat} (hx : bl[i]? = some x) {n : Nat}
    (hn : n = i ∨ n = i + 32) (y : State) : BlockShown c n x (bl.zipIdx.foldl (blockPair c) y) := by
  have hi : i < bl.length := (List.getElem?_eq_some_iff.1 hx).1
  have hset : ∀ z, BlockShown c n x (blockPair c z (x, i)) := fun z => by
    simp only [blockPair, List.foldl]
    rcases hn with rfl | rfl
    · exact (blockShown_written c n x z).written_ne (by omega)
    · exact blockShown_written _ _ _ _
  refine foldl_reaches_mem (P := BlockShown c n x) (x := (x, i)) (fun e he z hz => ?_) hset
    (List.mem_zipIdx_iff_getElem?.2 hx) y
  have hex : bl[e.2]? = some e.1 := List.mem_zipIdx_iff_getElem?.1 he
  have hei : e.2 < bl.length := (List.getElem?_eq_some_iff.1 hex).1
  by_cases hie : e.2 = i
  · have hexi : e = (x, i) := Prod.ext (Option.some.inj (by rw [← hex, hie, hx])) hie
    rw [hexi]
    exact hset z
  · simp only [blockPair, List.foldl]
    exact (hz.written_ne (by omega)).written_ne (by omega)

/-- The lengths of the grid as MC_SLOT_GRID and MC_SEL_LEAD show them. -/
def gridShown (c : Nat) (d : DimmSpd) (v n : Nat) (s : State) : State :=
  wr (mcSlotGridSlots c) (gridLen d v).slots (wr (mcSlotGridPre c) (gridLen d v).pre (wr (mcSlotGridPost c) (gridLen d v).post
    (wr (mcSlotGridSpacing c) (gridLen d v).spacing (wr (mcSlotGridWindow c) (gridLen d v).window (wr (mcSlotGridBlocks c) n
      (wr (mcSelLeadSelLeadPs c) (selLeadPs d v (freeVal 2 s == 1)) (freeNext s)))))))

theorem reportGrid_eq (c : Nat) (d : DimmSpd) (s : State) : reportGrid c d s =
    (gridBlocks (gridLen d (rd s (mcDimmSpeed c))) d.ranks).zipIdx.foldl (blockPair c)
      (gridShown c d (rd s (mcDimmSpeed c)) (gridBlocks (gridLen d (rd s (mcDimmSpeed c))) d.ranks).length s) := rfl

theorem gridBlocks_length (g : GridLen) (ranks : Nat) : (gridBlocks g ranks).length ≤ 32 := by
  unfold gridBlocks
  exact List.length_take_le _ _

theorem rd_gridShown_ne (d : DimmSpd) (v n : Nat) (s : State) {f : Fld} (hlo : f.lo < 64)
    (h : f.off < 0x300010 + c * 0x10000 ∨ 0x300018 + c * 0x10000 < f.off) : rd (gridShown c d v n s) f = rd s f := by
  unfold gridShown
  rw [rd_wr_ne _ _ _ _ (by simp only [fkey, mcSlotGridSlots]; omega), rd_wr_ne _ _ _ _ (by simp only [fkey, mcSlotGridPre]; omega),
    rd_wr_ne _ _ _ _ (by simp only [fkey, mcSlotGridPost]; omega), rd_wr_ne _ _ _ _ (by simp only [fkey, mcSlotGridSpacing]; omega),
    rd_wr_ne _ _ _ _ (by simp only [fkey, mcSlotGridWindow]; omega), rd_wr_ne _ _ _ _ (by simp only [fkey, mcSlotGridBlocks]; omega),
    rd_wr_ne _ _ _ _ (by simp only [fkey, mcSelLeadSelLeadPs]; omega)]
  exact rd_of_regs rfl f

theorem rd_gridShown (c : Nat) (d : DimmSpd) (v : Nat) {n : Nat} (hn : n ≤ 32) (s : State) :
    rd (gridShown c d v n s) (mcSlotGridSlots c) = (gridLen d v).slots % 1024 ∧
      rd (gridShown c d v n s) (mcSlotGridPre c) = (gridLen d v).pre % 128 ∧
      rd (gridShown c d v n s) (mcSlotGridPost c) = (gridLen d v).post % 128 ∧
      rd (gridShown c d v n s) (mcSlotGridSpacing c) = (gridLen d v).spacing % 128 ∧
      rd (gridShown c d v n s) (mcSlotGridWindow c) = (gridLen d v).window % 256 ∧
      rd (gridShown c d v n s) (mcSlotGridBlocks c) = n := by
  unfold gridShown
  refine ⟨?_, ?_, ?_, ?_, ?_, ?_⟩
  · rw [rd_wr_same]
    rfl
  · rw [rd_wr_of_lo (by rfl), rd_wr_same]
    rfl
  · rw [rd_wr_of_lo (by rfl), rd_wr_of_lo (by rfl), rd_wr_same]
    rfl
  · rw [rd_wr_of_lo (by rfl), rd_wr_of_lo (by rfl), rd_wr_of_lo (by rfl), rd_wr_same]
    rfl
  · rw [rd_wr_of_lo (by rfl), rd_wr_of_lo (by rfl), rd_wr_of_lo (by rfl), rd_wr_of_lo (by rfl), rd_wr_same]
    rfl
  · rw [rd_wr_of_lo (by rfl), rd_wr_of_lo (by rfl), rd_wr_of_lo (by rfl), rd_wr_of_lo (by rfl), rd_wr_of_lo (by rfl), rd_wr_same]
    exact Nat.mod_eq_of_lt (show n < 64 by omega)

/-- The repairs before the fill write the counts of MC_REPAIR. -/
theorem rd_startRepairs_ne (bad : List Nat) (s : State) {f : Fld} (hlo : f.lo < 64) (h : f.off ≠ 0x300430 + c * 0x10000) :
    rd (startRepairs c bad s) f = rd s f := by
  have hR : ∀ g : Fld, g.off = 0x300000 + c * 0x10000 + 0x430 → g.lo < 64 → fkey f ≠ fkey g := fun g hg hglo => by
    simp only [fkey, hg]
    omega
  unfold startRepairs
  dsimp only
  rw [rd_wr_ne _ _ _ _ (hR _ rfl (by simp [mcRepairListed])), rd_wr_ne _ _ _ _ (hR _ rfl (by simp [mcRepairUnrepairable])), rd_modChan]
  split
  · rw [rd_bump_ne _ _ _ _ (hR _ rfl (by simp [mcRepairHard]))]
  · rw [rd_bump_ne _ _ _ _ (hR _ rfl (by simp [mcRepairSoft]))]

theorem startRepairs_trained (bad : List Nat) (s : State) : (chanOf (startRepairs c bad s) c).trained = (chanOf s c).trained := by
  unfold startRepairs
  dsimp only
  rw [wr_chanOf, wr_chanOf, chanOf_modChan_same]
  split <;> rfl

theorem reportGrid_chan (c x : Nat) (d : DimmSpd) (s : State) : chanOf (reportGrid c d s) x = chanOf s x := by
  have hmem : (reportGrid c d s).mem = s.mem := (reportGrid_keeps c d s (keeps_refl _ s) (Nat.or_self _)).part .mem rfl
  rw [chanOf, chanOf, hmem]

/-- The state in which the last step has ended, before its grid is reported. -/
def lastStepEnded (c : Nat) (s : State) : State :=
  wr (mcTrainTimeBeats c) (beat s - (chanOf s c).trainStart) (modChan c (fun x => { x with trained := true }) s)

theorem gridReported (htrain : rd s (mcStatusState c) = 1) (hopen : (chanOf s c).trained = false) (bad : List Nat) {d : DimmSpd}
    (hstep : rd s (mcStatusStep c) = 8) (hd : (chanOf s c).dimm = some d) : ∃ t g,
      exec (.trainingStepDone c (.ok bad)) s = .next t ∧ g = gridLen d (rd s (mcDimmSpeed c)) ∧ (chanOf t c).trained = true ∧
      rd t (mcStatusState c) = (if s.mem.locked then 3 else 1) ∧ rd t (mcSlotGridSlots c) = g.slots % 1024 ∧
      rd t (mcSlotGridPre c) = g.pre % 128 ∧ rd t (mcSlotGridPost c) = g.post % 128 ∧
      rd t (mcSlotGridSpacing c) = g.spacing % 128 ∧ rd t (mcSlotGridWindow c) = g.window % 256 ∧
      rd t (mcSlotGridBlocks c) = (gridBlocks g d.ranks).length ∧
      ∀ i x, (gridBlocks g d.ranks)[i]? = some x → ∀ n ∈ [i, i + 32], rd t (mcSealBlockPosition c n) = x.1 % 512 ∧
        rd t (mcSealBlockRole c n) = x.2 % 2 ∧ rd t (mcSealBlockValid c n) = 1 := by
  have hspeed : rd (lastStepEnded c s) (mcDimmSpeed c) = rd s (mcDimmSpeed c) := by
    unfold lastStepEnded
    rw [rd_wr_ne _ _ _ _ (by simp only [fkey, mcDimmSpeed, mcTrainTimeBeats]; omega), rd_modChan]
  have htrained : (chanOf (lastStepEnded c s) c).trained = true := by
    unfold lastStepEnded
    rw [wr_chanOf, chanOf_modChan_same]
  have hstate : rd (lastStepEnded c s) (mcStatusState c) = 1 := by
    unfold lastStepEnded
    rw [rd_wr_ne _ _ _ _ (by simp only [fkey, mcStatusState, mcTrainTimeBeats]; omega), rd_modChan, htrain]
  have hex : exec (.trainingStepDone c (.ok bad)) s = .next (if s.mem.locked then
      wr (mcStatusState c) 3 (startRepairs c bad (reportGrid c d (lastStepEnded c s)))
      else startRepairs c bad (reportGrid c d (lastStepEnded c s))) := by
    have hn : ¬(8 = 2 ∨ 8 = 3 ∨ 8 = 5 ∨ 8 = 7) := by decide
    simp only [exec, execTrainingStepDone, trainingStepDone, if_neg (trainingStepDone_open htrain hopen), hstep, if_neg hn, hd, if_true]
    rfl
  have hgrid : ∀ f : Fld, f.lo < 64 → f.off < 0x301000 + c * 0x10000 → f.off ≠ 0x300430 + c * 0x10000 →
      rd (startRepairs c bad (reportGrid c d (lastStepEnded c s))) f = rd (gridShown c d (rd s (mcDimmSpeed c))
        (gridBlocks (gridLen d (rd s (mcDimmSpeed c))) d.ranks).length (lastStepEnded c s)) f := fun f hlo hoff hrep => by
    rw [rd_startRepairs_ne _ _ hlo hrep, reportGrid_eq, hspeed]
    exact foldl_fixes (fun y => rd y f) (fun y e => rd_blockPair_ne c e y hlo hoff) _ _
  have hlast : ∀ f : Fld, f.lo < 64 → fkey f ≠ fkey (mcStatusState c) → rd (if s.mem.locked then
      wr (mcStatusState c) 3 (startRepairs c bad (reportGrid c d (lastStepEnded c s)))
      else startRepairs c bad (reportGrid c d (lastStepEnded c s))) f =
        rd (startRepairs c bad (reportGrid c d (lastStepEnded c s))) f := fun f hlo hne => by
    split
    · exact rd_wr_ne _ _ _ _ hne
    · rfl
  obtain ⟨h1, h2, h3, h4, h5, h6⟩ := rd_gridShown c d (rd s (mcDimmSpeed c)) (gridBlocks_length (gridLen d (rd s (mcDimmSpeed c))) d.ranks)
    (lastStepEnded c s)
  refine ⟨_, _, hex, rfl, ?_, ?_, ?_, ?_, ?_, ?_, ?_, ?_, fun i x hx n hn => ?_⟩
  · split
    · rw [wr_chanOf, startRepairs_trained, reportGrid_chan, htrained]
    · rw [startRepairs_trained, reportGrid_chan, htrained]
  · split
    · exact rd_wr_same _ _ _
    · rw [hgrid _ (by simp [mcStatusState]) (by simp only [mcStatusState]; omega) (by simp only [mcStatusState]; omega),
        rd_gridShown_ne _ _ _ _ (by simp [mcStatusState]) (by simp only [mcStatusState]; omega), hstate]
  · rw [hlast _ (by simp [mcSlotGridSlots]) (by simp only [fkey, mcSlotGridSlots, mcStatusState]; omega),
      hgrid _ (by simp [mcSlotGridSlots]) (by simp only [mcSlotGridSlots]; omega) (by simp only [mcSlotGridSlots]; omega), h1]
  · rw [hlast _ (by simp [mcSlotGridPre]) (by simp only [fkey, mcSlotGridPre, mcStatusState]; omega),
      hgrid _ (by simp [mcSlotGridPre]) (by simp only [mcSlotGridPre]; omega) (by simp only [mcSlotGridPre]; omega), h2]
  · rw [hlast _ (by simp [mcSlotGridPost]) (by simp only [fkey, mcSlotGridPost, mcStatusState]; omega),
      hgrid _ (by simp [mcSlotGridPost]) (by simp only [mcSlotGridPost]; omega) (by simp only [mcSlotGridPost]; omega), h3]
  · rw [hlast _ (by simp [mcSlotGridSpacing]) (by simp only [fkey, mcSlotGridSpacing, mcStatusState]; omega),
      hgrid _ (by simp [mcSlotGridSpacing]) (by simp only [mcSlotGridSpacing]; omega) (by simp only [mcSlotGridSpacing]; omega), h4]
  · rw [hlast _ (by simp [mcSlotGridWindow]) (by simp only [fkey, mcSlotGridWindow, mcStatusState]; omega),
      hgrid _ (by simp [mcSlotGridWindow]) (by simp only [mcSlotGridWindow]; omega) (by simp only [mcSlotGridWindow]; omega), h5]
  · rw [hlast _ (by simp [mcSlotGridBlocks]) (by simp only [fkey, mcSlotGridBlocks, mcStatusState]; omega),
      hgrid _ (by simp [mcSlotGridBlocks]) (by simp only [mcSlotGridBlocks]; omega) (by simp only [mcSlotGridBlocks]; omega), h6]
  · have hblock : BlockShown c n x (reportGrid c d (lastStepEnded c s)) := by
      rw [reportGrid_eq, hspeed]
      exact blocksShown (gridBlocks_length _ _) hx (by simpa using hn) _
    refine hblock.of_rd fun f hoff hlo => ?_
    rw [hlast f hlo (by simp only [fkey, mcStatusState, hoff]; omega), rd_startRepairs_ne _ _ hlo (by omega)]

/-! ### Timeouts (R144) -/

theorem trainingTimesOut (hc : c < 16) (htrain : rd s (mcStatusState c) = 1) (hopen : (chanOf s c).trained = false)
    (hlate : trainLimitMs (rd s (mcStatusStep c)) * 1000 < beat s - (chanOf s c).stepStart) : ∃ t,
    exec (.trainingTimeout c) s = .next t ∧ rd t (mcStatusState c) = 6 ∧
      rd t (mcStatusFailCode c) = trainCode (rd s (mcStatusStep c)) % 256 ∧ recordedIn 2 3 c 0x030A s t := by
  obtain ⟨hstate, hcode, hrec, -⟩ := trainingFails hc (trainCode (rd s (mcStatusStep c))) s
  refine ⟨_, ?_, hstate, hcode, hrec⟩
  simp only [exec, execTrainingTimeout, if_pos (And.intro htrain (And.intro hopen hlate))]

theorem trainingTimeout_early (h : beat s - (chanOf s c).stepStart ≤ trainLimitMs (rd s (mcStatusStep c)) * 1000) :
    exec (.trainingTimeout c) s = .next s := by
  have hn : ¬(rd s (mcStatusState c) = 1 ∧ (chanOf s c).trained = false ∧
      trainLimitMs (rd s (mcStatusStep c)) * 1000 < beat s - (chanOf s c).stepStart) := fun hh => Nat.not_lt_of_le h hh.2.2
  simp only [exec, execTrainingTimeout, if_neg hn]

theorem training_over (r : TrainRep) (h : rd s (mcStatusState c) ≠ 1) :
    exec (.trainingStepDone c r) s = .next s ∧ exec (.trainingTimeout c) s = .next s := by
  have hn : ¬(rd s (mcStatusState c) = 1 ∧ (chanOf s c).trained = false ∧
      trainLimitMs (rd s (mcStatusStep c)) * 1000 < beat s - (chanOf s c).stepStart) := fun hh => h hh.1
  constructor
  · simp only [exec, execTrainingStepDone, trainingStepDone]
    rw [if_pos (Or.inl h)]
  · simp only [exec, execTrainingTimeout, if_neg hn]

/-! ## The fill (R195, R198) -/

/-- The fields that the end of the fill writes. -/
def fillFields (c : Nat) : List Fld := [mcStatusState c, mcFillLinesDone c, mcFillTimeBeats c, mcPatrolRunning c, mcPatrolReason c,
  mcPredStatsHits c, mcPredStatsMisses c]

theorem otherFields_fillPredict (c : Nat) (s : State) : otherFields (fillFields c) s (fillPredict c s) := fun f hf => by
  unfold fillPredict
  dsimp only
  rw [rd_freeNext, rd_bump_ne _ _ _ _ (hf _ (by simp [fillFields])), rd_bump_ne _ _ _ _ (hf _ (by simp [fillFields])), rd_modChan]

theorem fillPredict_lines (c : Nat) (s : State) : (chanOf (fillPredict c s) c).lines = (chanOf s c).lines := by
  unfold fillPredict
  dsimp only
  rw [freeNext_chanOf, bump, wr_chanOf, bump, wr_chanOf, chanOf_modChan_same]

theorem fillCompletes (h : rd s (mcStatusState c) = 2) : ∃ t, exec (.fillComplete c) s = .next t ∧ rd t (mcStatusState c) = 3 ∧
    rd t (mcFillLinesDone c) = chanLines s c % 2 ^ 40 ∧
    rd t (mcFillTimeBeats c) = (beat s - (chanOf s c).fillBegan) % 2 ^ 32 ∧ rd t (mcPatrolRunning c) = 1 ∧
    rd t (mcPatrolReason c) = 1 ∧ (∀ line, lineAt t c line = {}) ∧ otherFields [mcStatusState c, mcFillLinesDone c,
      mcFillTimeBeats c, mcPatrolRunning c, mcPatrolReason c, mcPredStatsHits c, mcPredStatsMisses c] s t := by
  have hex : exec (.fillComplete c) s = .next (startPatrol c 1 (wr (mcStatusState c) 3 (wr (mcFillTimeBeats c)
      (beat s - (chanOf s c).fillBegan) (wr (mcFillLinesDone c) (chanLines s c)
        (fillPredict c (modChan c (fun x => { x with lines := [] }) s)))))) := by
    simp only [exec, execFillComplete, fillComplete, if_pos h]
  have hpred := (((otherFields_refl (fillFields c) s).of_regs (u := modChan c (fun x => { x with lines := [] }) s) rfl).trans
    (otherFields_fillPredict c _))
  have hlines : (chanOf (fillPredict c (modChan c (fun x => { x with lines := [] }) s)) c).lines = [] := by
    rw [fillPredict_lines, chanOf_modChan_same]
  refine ⟨_, hex, ?_⟩
  generalize fillPredict c (modChan c (fun x => { x with lines := [] }) s) = y at hpred hlines
  unfold startPatrol
  refine ⟨?_, ?_, ?_, rd_wr_same _ _ _, ?_, fun line => ?_, ?_⟩
  · rw [rd_wr_ne _ _ _ _ (by simp only [fkey, mcStatusState, mcPatrolRunning]; omega),
      rd_wr_ne _ _ _ _ (by simp only [fkey, mcStatusState, mcPatrolReason]; omega), rd_modChan, rd_wr_same]
    rfl
  · rw [rd_wr_ne _ _ _ _ (by simp only [fkey, mcFillLinesDone, mcPatrolRunning]; omega),
      rd_wr_ne _ _ _ _ (by simp only [fkey, mcFillLinesDone, mcPatrolReason]; omega), rd_modChan,
      rd_wr_ne _ _ _ _ (by simp only [fkey, mcFillLinesDone, mcStatusState]; omega),
      rd_wr_ne _ _ _ _ (by simp only [fkey, mcFillLinesDone, mcFillTimeBeats]; omega), rd_wr_same]
    rfl
  · rw [rd_wr_ne _ _ _ _ (by simp only [fkey, mcFillTimeBeats, mcPatrolRunning]; omega),
      rd_wr_ne _ _ _ _ (by simp only [fkey, mcFillTimeBeats, mcPatrolReason]; omega), rd_modChan,
      rd_wr_ne _ _ _ _ (by simp only [fkey, mcFillTimeBeats, mcStatusState]; omega), rd_wr_same]
    rfl
  · rw [rd_wr_ne _ _ _ _ (by simp only [fkey, mcPatrolRunning, mcPatrolReason]; omega), rd_wr_same]
    rfl
  · rw [lineAt, wr_chanOf, wr_chanOf, chanOf_modChan_same]
    dsimp only
    rw [wr_chanOf, wr_chanOf, wr_chanOf, hlines]
    rfl
  · exact (((((hpred.wr (g := mcFillLinesDone c) (by simp [fillFields]) _).wr (g := mcFillTimeBeats c) (by simp [fillFields]) _).wr
      (g := mcStatusState c) (by simp [fillFields]) 3).of_regs (u := modChan c _ _) rfl).wr (g := mcPatrolReason c)
      (by simp [fillFields]) 1).wr (g := mcPatrolRunning c) (by simp [fillFields]) 1

theorem fillComplete_idle (h : rd s (mcStatusState c) ≠ 2) : exec (.fillComplete c) s = .next s := by
  simp only [exec, execFillComplete, fillComplete, if_neg h]

/-! ## Exit from self-refresh (R172) -/

/-- Two channel records that agree in what the rates read at an exit leave alone. -/
def ExitKept (a b : Chan) : Prop :=
  b.banks = a.banks ∧ b.catchUps = a.catchUps ∧ b.wholeFrom = a.wholeFrom ∧ b.lines = a.lines

theorem chanOf_recContained (sl kind unit cause addr : Nat) (detail : List Nat) (s : State) (x : Nat) :
    chanOf (recContained sl kind unit cause addr detail s) x = chanOf s x := by
  have hmem : (recContained sl kind unit cause addr detail s).mem = s.mem :=
    (recContained_keeps _ _ _ _ _ _ s (keeps_refl _ s) (Nat.or_self _)).part .mem rfl
  rw [chanOf, chanOf, hmem]

theorem exitKept_exitRate (c : Nat) (s : State) (r : Nat × Nat × Nat) : ExitKept (chanOf s c) (chanOf (exitRate c s r) c) := by
  have hrates : ExitKept (chanOf s c) (chanOf (wr (refOwed c r.1) 0 (setRem c r.1 0 (wr (refRate c r.1) r.2.1
      (wrB (refDoubled c r.1) (decide (r.2.2 < 1000)) s)))) c) := by
    rw [wr_chanOf, setRem, chanOf_modChan_same]
    exact ⟨rfl, rfl, rfl, rfl⟩
  unfold exitRate
  dsimp only
  generalize wr (refOwed c r.1) 0 _ = y at hrates
  have hbeyond : ∀ l : Chan → List Nat, ExitKept (chanOf s c) (chanOf (modChan c (fun x => { x with beyond := l x }) y) c) := fun l => by
    rw [chanOf_modChan_same]
    exact hrates
  split
  · split
    · exact hrates
    · rw [chanOf_recContained]
      exact hbeyond fun x => r.1 :: x.beyond
  · exact hbeyond fun x => x.beyond.filter (· != r.1)

/-- What the exit clears, before the rates read are entered. -/
def awake (c : Nat) (s : State) : State :=
  modChan c (fun x => { x with banks := [], catchDue := [], returnDue := [], refreshing := [], closed := [],
                               catchUps := [], chosen := [], rdDue := [], mr4At := [], wholeFrom := beat s + 1 }) s

/-- The state once the rates read hold. -/
def ratesRead (c : Nat) (codes : List (Nat × Nat)) (s : State) : State :=
  (codes.zipIdx.map fun (x, i) => (i, x)).foldl (exitRate c) (awake c s)

theorem ratesRead_chan (c : Nat) (codes : List (Nat × Nat)) (s : State) : (chanOf (ratesRead c codes s) c).banks = [] ∧
    (chanOf (ratesRead c codes s) c).catchUps = [] ∧ (chanOf (ratesRead c codes s) c).wholeFrom = beat s + 1 ∧
    (chanOf (ratesRead c codes s) c).lines = (chanOf s c).lines := by
  refine List.foldlRecOn (motive := fun y => (chanOf y c).banks = [] ∧ (chanOf y c).catchUps = [] ∧
    (chanOf y c).wholeFrom = beat s + 1 ∧ (chanOf y c).lines = (chanOf s c).lines) _ _ ?_ ?_
  · unfold awake
    rw [chanOf_modChan_same]
    exact ⟨rfl, rfl, rfl, rfl⟩
  · rintro y ⟨hbanks, hups, hwhole, hlines⟩ r -
    obtain ⟨h1, h2, h3, h4⟩ := exitKept_exitRate c y r
    exact ⟨h1.trans hbanks, h2.trans hups, h3.trans hwhole, h4.trans hlines⟩

/-- The delays of one nibble after the recentring. -/
def delaysSet (c : Nat) (y : State) (e : (Nat × Nat) × Nat) : State :=
  wr (mcNibbleRdDelay c e.2) e.1.1 (wr (mcNibbleWrDelay c e.2) e.1.2 y)

theorem selfRefreshExits (h : rd s (mcStatusState c) = 4) (codes delays : List (Nat × Nat)) :
    (∃ t, exec (.selfRefreshExit c true codes delays) s = .next t ∧ rd t (mcStatusState c) = 3 ∧ (chanOf t c).banks = [] ∧
      (chanOf t c).catchUps = [] ∧ (chanOf t c).wholeFrom = beat s + 1) ∧
    (∃ t, exec (.selfRefreshExit c false codes delays) s = .next t ∧ rd t (mcStatusState c) = 1 ∧ rd t (mcStatusStep c) = 2 ∧
      (chanOf t c).trained = false ∧ (chanOf t c).lines = (chanOf s c).lines ∧ (chanOf t c).catchUps = []) := by
  obtain ⟨hbanks, hups, hwhole, hlines⟩ := ratesRead_chan c codes s
  constructor
  · refine ⟨wr (mcStatusState c) 3 (delays.zipIdx.foldl (delaysSet c) (ratesRead c codes s)), ?_, rd_wr_same _ _ _, ?_⟩
    · simp only [exec, execSelfRefreshExit, selfRefreshExit, if_pos h, if_true]
      rfl
    · have hchan : chanOf (delays.zipIdx.foldl (delaysSet c) (ratesRead c codes s)) c = chanOf (ratesRead c codes s) c :=
        foldl_fixes (fun y => chanOf y c) (fun y e => (wr_chanOf _ _ _ _).trans (wr_chanOf _ _ _ _)) _ _
      rw [wr_chanOf, hchan]
      exact ⟨hbanks, hups, hwhole⟩
  · refine ⟨startTraining c 2 (ratesRead c codes s), ?_, rd_wr_same _ _ _, ?_, ?_, ?_, ?_⟩
    · simp only [exec, execSelfRefreshExit, selfRefreshExit, if_pos h]
      rfl
    · unfold startTraining
      rw [rd_wr_ne _ _ _ _ (by simp only [fkey, mcStatusStep, mcStatusState]; omega),
        rd_wr_ne _ _ _ _ (by simp only [fkey, mcStatusStep, mcStatusFailCode]; omega), rd_wr_same]
      rfl
    · unfold startTraining
      rw [wr_chanOf, wr_chanOf, wr_chanOf, wr_chanOf, wr_chanOf, chanOf_modChan_same]
    · unfold startTraining
      rw [wr_chanOf, wr_chanOf, wr_chanOf, wr_chanOf, wr_chanOf, chanOf_modChan_same]
      exact hlines
    · unfold startTraining
      rw [wr_chanOf, wr_chanOf, wr_chanOf, wr_chanOf, wr_chanOf, chanOf_modChan_same]
      exact hups

theorem selfRefreshExit_idle (h : rd s (mcStatusState c) ≠ 4) (ok : Bool) (codes delays : List (Nat × Nat)) :
    exec (.selfRefreshExit c ok codes delays) s = .next s := by
  simp only [exec, execSelfRefreshExit, selfRefreshExit, if_neg h]

/-- Settles O30, one lemma for each outcome of a training step, of the fill and of the exit from self-refresh. -/
theorem trainingFillAndSelfRefresh : Obligations.TrainingFillAndSelfRefresh := by
  unfold Obligations.TrainingFillAndSelfRefresh
  intro s c hc
  refine ⟨fun htrain hopen => ⟨?_, trainingPoint htrain hopen, fun hstep f v => ⟨spdAbsent htrain hopen hc hstep f v,
      fun hspd => spdRefused htrain hopen hc hstep hspd, fun d hspd => spdTakes htrain hopen hc hstep hspd⟩,
    fun bad hstep => stepPasses htrain hopen bad hstep, fun eyes hstep _ => sweepEnds hc htrain hopen eyes hstep,
    fun bad d hstep hd => gridReported htrain hopen bad hstep hd, trainingTimesOut hc htrain hopen, trainingTimeout_early⟩,
    fun r h => training_over r h, fillCompletes, fillComplete_idle, fun codes delays h => selfRefreshExits h codes delays,
    fun ok codes delays h => selfRefreshExit_idle h ok codes delays⟩
  obtain ⟨hstate, hcode, hrec, htime⟩ := trainingFails hc (trainCode (rd s (mcStatusStep c))) s
  exact ⟨_, trainingStepDone_fail htrain hopen, hstate, hcode, hrec, htime⟩

end Sys2Proof.Machine
end

section
/-! Drowse and Dormant (O58). -/
set_option Elab.async false
namespace Sys2Proof.Machine
open Host Sys2Proof

variable {s : State}

/-! ## Drowse (R400, R401) -/

@[simp] theorem pairOf_modPair_same (p : Nat) (f : Pair → Pair) (s : State) : pairOf (modPair p f s) p = f (pairOf s p) :=
  setPair_pairOf_same _ _ _

theorem modPair_otherParts (p : Nat) (f : Pair → Pair) (s : State) : ∀ q, q ≠ .pairs → samePart q s (modPair p f s) := by
  intro q hq
  cases q <;> first | exact absurd rfl hq | rfl

theorem gateStarts {p : Nat} (hmay : mayGate s p = true) (hidle : (pairOf s p).gating = false) : ∃ t,
    exec (.drowseGateStart p) s = .next t ∧ (pairOf t p).gating = true ∧ (pairOf t p).saved = (pairOf s p).saved ∧
      ∀ q, q ≠ .pairs → samePart q s t := by
  refine ⟨modPair p (fun q => { q with gating := true }) s, ?_, ?_, ?_, modPair_otherParts _ _ _⟩
  · simp only [exec, execDrowseGateStart, gateStart, if_pos (And.intro hmay hidle)]
  · rw [pairOf_modPair_same]
  · rw [pairOf_modPair_same]

theorem gateStart_barred {p : Nat} (h : mayGate s p = false) : exec (.drowseGateStart p) s = .next s := by
  have hn : ¬(mayGate s p = true ∧ (pairOf s p).gating = false) := fun hh => by simp [h] at hh
  simp only [exec, execDrowseGateStart, gateStart, if_neg hn]

/-- The drain of a core, as the beat sees it. -/
theorem beat_drainTrips (n : Nat) (s : State) : beat (drainTrips n s) = beat s := by
  unfold drainTrips
  split
  case isTrue h =>
    exact rd_presentPair (fkey_ne_clerkIpPending (by decide) (by decide)) (by
      simp only [List.forall_mem_cons, List.not_mem_nil, false_implies, implies_true, and_true, fkey, clkBeatBeat, pairStatusState,
        pairCmpStatusMismatch, pairCmpStatusBus, pairCmpStatusBit, pairCmpStatusCause, pairCmpBeatBeat, pairCountMismatches,
        pairDecisionStep, pairDecisionOutcome, pairDecisionPass]
      omega) h.1 _
  case isFalse => rfl

section
variable {p : Nat} (hgating : (pairOf s p).gating = true) (hsaved : (pairOf s p).saved = false)
include hgating hsaved

theorem gateSaves {u : State} (hu : u = drainTrips (2 * p) s) (hgo : inSparing u p = false) : ∃ t,
    exec (.drowseGateDone p) s = .next t ∧ (pairOf t p).saved = true ∧ (⟨beat s + 1, 4, .gatePair p⟩ : Due) ∈ t.due := by
  have hex : exec (.drowseGateDone p) s = .next (addDue (beat u + 1) 4 (.gatePair p) (modPair p (fun q => { q with saved := true })
      (drainCore (2 * p + 1) (drainCore (2 * p) u).1).1)) := by
    simp only [exec, execDrowseGateDone, gateDone]
    rw [if_pos ⟨hgating, hsaved⟩, ← hu, if_neg (by rw [hgo]; decide)]
  refine ⟨_, hex, ?_, ?_⟩
  · rw [addDue_pairOf, pairOf_modPair_same]
  · rw [hu, beat_drainTrips]
    exact List.mem_append_right _ (List.mem_singleton.2 rfl)

theorem gateFrozen {u : State} (hu : u = drainTrips (2 * p) s) (hfrozen : inSparing u p = true) :
    exec (.drowseGateDone p) s = .next (modPair p (fun q => { q with gating := false }) u) := by
  simp only [exec, execDrowseGateDone, gateDone]
  rw [if_pos ⟨hgating, hsaved⟩, ← hu, if_pos hfrozen]

end

theorem gateDone_abandoned {p : Nat} (h : (pairOf s p).gating = false) : exec (.drowseGateDone p) s = .next s := by
  have hn : ¬((pairOf s p).gating = true ∧ (pairOf s p).saved = false) := fun hh => by simp [h] at hh
  simp only [exec, execDrowseGateDone, gateDone, if_neg hn]

theorem gatedPairWakes {p : Nat} (hoff : domState s p = 3) (hwaked : pairWaked s p = true) (hfirst : (pairOf s p).restoreAt = none) :
    ∃ t, exec (.gatedPairWake p) s = .next t ∧ (pairOf t p).restoreAt = some (beat s + 4) ∧
      t.due = s.due ++ [⟨beat s + 1, 4, .switch p true⟩, ⟨beat s + 4, 5, .ungate p⟩] ∧ samePart .regs s t := by
  have hex : exec (.gatedPairWake p) s = .next (addDue (beat s + 4) 5 (.ungate p) (addDue (beat s + 1) 4 (.switch p true)
      (modPair p (fun q => { q with restoreAt := some (beat s + 4) }) s))) := by
    simp only [exec, execGatedPairWake, gatedWake]
    rw [if_pos ⟨hoff, hwaked, by rw [hfirst]; rfl⟩]
  refine ⟨_, hex, ?_, ?_, rfl⟩
  · rw [addDue_pairOf, addDue_pairOf, pairOf_modPair_same]
  · simp only [addDue, List.append_assoc]
    rfl

theorem gatedPairWake_idle {p : Nat} (h : pairWaked s p = false) : exec (.gatedPairWake p) s = .next s := by
  have hn : ¬(domState s p = 3 ∧ pairWaked s p = true ∧ (pairOf s p).restoreAt.isNone = true) := fun hh => by simp [h] at hh
  simp only [exec, execGatedPairWake, gatedWake, if_neg hn]

/-! ## The sleep request (R402 to R405, R410) -/

theorem idleTimerAsks (h0 : rd s pwrIdleIdleBeats ≠ 0) (hcount : rd s pwrIdleIdleBeats ≤ rd s pwrIdleCount)
    (hmay : sleepOutcome s = 0) (hawake : s.power.sleep = .none) : ∃ t, exec .idleTimerExpiry s = .next t ∧ t.power.sleep = .asked ∧
      t.power.entryB = beat s ∧ t.power.mbx = none ∧ rd t pwrStatusPkgState = 3 ∧ rd t pwrStatusLastEntry = 2 ∧
      otherFields [pwrStatusPkgState, pwrStatusLastEntry] s t := by
  refine ⟨beginSleep none s, ?_, rfl, rfl, rfl, rd_wr_same _ _ _, ?_, ?_⟩
  · simp only [exec, execIdleTimerExpiry, idleExpiry]
    rw [if_pos ⟨h0, hcount, hmay, hawake⟩]
  · unfold beginSleep
    rw [rd_wr_ne _ _ _ _ (by decide), rd_wr_same]
    rfl
  · unfold beginSleep
    exact (((otherFields_refl _ s).of_regs rfl).wr (by simp) _).wr (by simp) _

theorem idleTimer_waits (h : rd s pwrIdleIdleBeats = 0 ∨ sleepOutcome s ≠ 0) : exec .idleTimerExpiry s = .next s := by
  have hn : ¬(rd s pwrIdleIdleBeats ≠ 0 ∧ rd s pwrIdleIdleBeats ≤ rd s pwrIdleCount ∧ sleepOutcome s = 0 ∧ s.power.sleep = .none) :=
    fun hh => h.elim hh.1 fun h2 => h2 hh.2.2.1
  simp only [exec, execIdleTimerExpiry, idleExpiry, if_neg hn]

theorem sleepRequest_waits (h : s.power.sleep ≠ .asked ∨ anyHeld s = true) : exec .sleepRequest s = .next s := by
  have hn : ¬(s.power.sleep = .asked ∧ s.power.entryB < beat s ∧ anyHeld s = false) :=
    fun hh => h.elim (fun h1 => h1 hh.1) fun h2 => by simp [hh.2.2] at h2
  simp only [exec, execSleepRequest, sleepRequest, if_neg hn]

/-- The harts that the sleep request stops. -/
def runningHarts (s : State) : List Nat := (startedHarts s).filter fun h => (hartOf s h).st == .running

/-- The fabric ports that it takes out of service. -/
def sleepPorts (s : State) : List Nat := (presentFabPorts s).filter fun k => (fportOf s k).oos == false && (fportOf s k).fenced == false

/-- The harts stop. -/
def hartsStopped (s : State) : State := (runningHarts s).foldl (fun a h => setHart h { hartOf a h with st := .stopped } a) s

/-- A SERDES group keeps its bifurcation and roles, and its ports take role 0 (R405). -/
def groupReleased (a : State) (g : Nat) : State :=
  (portsOf (modGroup g (fun q => { q with kept := some (bifOf a g, (List.range 4).map fun n => portRole a g n) }) a) g).foldl
    (fun x n => takeRole g n 0 x) (modGroup g (fun q => { q with kept := some (bifOf a g, (List.range 4).map fun n => portRole a g n) }) a)

/-- A fabric port goes out of service. -/
def fabReleased (a : State) (k : Nat) : State :=
  modPort k (fun q => { q with oos := true }) (wr (fabPortStatusState k) 7 (linkFailed k 7 a))

/-- The state in which the request has been carried out, before the power record says so. -/
def allReleased (s : State) : State :=
  (sleepPorts s).foldl fabReleased ((presentGroups s).foldl groupReleased (hartsStopped s))

theorem sleepRequest_eq (hasked : s.power.sleep = .asked) (hlater : s.power.entryB < beat s) (hheld : anyHeld s = false)
    (htests : runningTests s = []) : sleepRequest s = setPower { (allReleased s).power with
      sleep := .asleep, entryB := beat s - 1, stopped := runningHarts s, ports := sleepPorts s } (showIsolated (allReleased s)) := by
  have hint : interruptTests (fun _ => true) s = s := by
    unfold interruptTests
    rw [htests]
    rfl
  unfold sleepRequest
  rw [if_pos ⟨hasked, hlater, hheld⟩, hint]
  rfl

/-- A port with no request outstanding takes role 0: only the registers and its group's record change. -/
theorem takeRole_idle {β : Type} (v : State → β) (hregs : ∀ f x y, v (wr f x y) = v y) (hgroup : ∀ g q y, v (modGroup g q y) = v y)
    {y : State} (houts : y.outs = []) (g n : Nat) : v (takeRole g n 0 y) = v y := by
  have hport : portOuts y g = [] := by
    unfold portOuts
    rw [houts]
    rfl
  unfold takeRole
  dsimp only
  rw [endRequests_idle hport]
  split
  · rfl
  · rw [if_pos rfl, hregs, hregs, hregs, hregs, hgroup]

theorem takeRole_idle_rd {y : State} (houts : y.outs = []) (g n : Nat) {f : Fld} (hlo : f.lo < 64) (hoff : f.off < 0x80000000) :
    rd (takeRole g n 0 y) f = rd y f := by
  have hport : portOuts y g = [] := by
    unfold portOuts
    rw [houts]
    rfl
  have hbase : 0x80000000 ≤ portBase g n := by unfold portBase; omega
  unfold takeRole
  dsimp only
  rw [endRequests_idle hport]
  split
  · rfl
  · rw [if_pos rfl, rd_wr_ne _ _ _ _ (by simp only [fkey, portStatusState]; omega), rd_wr_ne _ _ _ _ (by simp only [fkey, portStatusRole]; omega),
      rd_wr_ne _ _ _ _ (by simp only [fkey, portStatusWidth]; omega), rd_wr_ne _ _ _ _ (by simp only [fkey, portStatusDegraded]; omega)]
    exact rd_of_regs rfl f

/-- What the release of the groups keeps while no request is outstanding: the harts, the fabric's record and the registers below the
ports' blocks. -/
structure ReleaseKept (s t : State) : Prop where
  outs : t.outs = []
  harts : t.harts = s.harts
  fabric : t.fabric = s.fabric
  regs : ∀ f : Fld, f.lo < 64 → f.off < 0x80000000 → rd t f = rd s f

theorem ReleaseKept.groupReleased {t : State} (h : ReleaseKept s t) (g : Nat) : ReleaseKept s (Machine.groupReleased t g) := by
  have hkept : ReleaseKept s (modGroup g (fun q => { q with kept := some (bifOf t g, (List.range 4).map fun n => portRole t g n) }) t) :=
    ⟨h.outs, h.harts, h.fabric, fun f hlo hoff => (rd_of_regs rfl f).trans (h.regs f hlo hoff)⟩
  unfold Machine.groupReleased
  refine List.foldlRecOn (motive := fun y => ReleaseKept s y) _ _ hkept ?_
  rintro y ⟨houts, hharts, hfab, hregs⟩ n -
  exact ⟨(takeRole_idle State.outs (fun _ _ _ => rfl) (fun _ _ _ => rfl) houts g n).trans houts,
    (takeRole_idle State.harts (fun _ _ _ => rfl) (fun _ _ _ => rfl) houts g n).trans hharts,
    (takeRole_idle State.fabric (fun _ _ _ => rfl) (fun _ _ _ => rfl) houts g n).trans hfab,
    fun f hlo hoff => (takeRole_idle_rd houts g n hlo hoff).trans (hregs f hlo hoff)⟩

theorem groupsReleased (houts : s.outs = []) :
    ReleaseKept (hartsStopped s) ((presentGroups s).foldl Machine.groupReleased (hartsStopped s)) := by
  have hsame : ∀ {β : Type} (v : State → β), (∀ h r y, v (setHart h r y) = v y) → v (hartsStopped s) = v s := fun v hv =>
    foldl_fixes v (fun _ _ => hv _ _ _) _ _
  refine List.foldlRecOn (motive := fun y => ReleaseKept (hartsStopped s) y) _ _ ⟨?_, rfl, rfl, fun _ _ _ => rfl⟩
    fun y hy g _ => hy.groupReleased g
  rw [hsame State.outs fun _ _ _ => rfl, houts]

theorem rd_hartsStopped (s : State) (f : Fld) : rd (hartsStopped s) f = rd s f :=
  foldl_fixes (fun y => rd y f) (fun _ _ => rd_of_regs (setHart_regs _ _ _) f) _ _

/-- A stopped hart keeps its registers and stands where it stood. -/
def StoppedAs (a b : Hart) : Prop := b.st = .stopped ∧ b.x = a.x ∧ b.pc = a.pc

theorem hartsStopped_spec {h : Nat} (hh : h ∈ runningHarts s) : StoppedAs (hartOf s h) (hartOf (hartsStopped s) h) := by
  have hkept : ∀ (l : List Nat) (y : State), (hartOf (l.foldl (fun a h => setHart h { hartOf a h with st := .stopped } a) y) h).x =
      (hartOf y h).x ∧ (hartOf (l.foldl (fun a h => setHart h { hartOf a h with st := .stopped } a) y) h).pc = (hartOf y h).pc := by
    intro l y
    refine List.foldlRecOn (motive := fun z => (hartOf z h).x = (hartOf y h).x ∧ (hartOf z h).pc = (hartOf y h).pc) _ _ ⟨rfl, rfl⟩ ?_
    rintro z ⟨hx, hpc⟩ k -
    by_cases hk : h = k
    · subst hk
      rw [setHart_hartOf_same]
      exact ⟨hx, hpc⟩
    · rw [setHart_hartOf_ne _ _ _ _ hk]
      exact ⟨hx, hpc⟩
  have hst : (hartOf (hartsStopped s) h).st = .stopped :=
    foldl_reaches (P := fun z => (hartOf z h).st = .stopped) (a := h) (fun z k hz => by
      by_cases hk : h = k
      · subst hk
        rw [setHart_hartOf_same]
      · rw [setHart_hartOf_ne _ _ _ _ hk]
        exact hz) (fun z => by rw [setHart_hartOf_same]) hh _
  obtain ⟨hx, hpc⟩ := hkept (runningHarts s) s
  exact ⟨hst, hx, hpc⟩

theorem linkFailed_down {k : Nat} {y : State} (h : portState5 y k ≠ 4) (next : Nat) : linkFailed k next y = y := by
  unfold linkFailed
  exact if_neg h

theorem fabReleased_down {k : Nat} {y : State} (h : portState5 y k ≠ 4) : fabReleased y k =
    modPort k (fun q => { q with oos := true }) (wr (fabPortStatusState k) 7 y) := by
  unfold fabReleased
  rw [linkFailed_down h]

/-- While no link is up, taking ports out of service writes their state and their records alone. -/
theorem portsReleased {ks : List Nat} {y : State} (hdown : ∀ k ∈ ks, portState5 y k ≠ 4) :
    (ks.foldl fabReleased y).harts = y.harts ∧
      (∀ k, portState5 y k ≠ 4 → portState5 (ks.foldl fabReleased y) k ≠ 4) ∧
      ∀ k ∈ ks, rd (ks.foldl fabReleased y) (fabPortStatusState k) = 7 ∧ (fportOf (ks.foldl fabReleased y) k).oos = true := by
  induction ks using List.reverseRecOn with
  | nil => exact ⟨rfl, fun _ h => h, fun k hk => absurd hk List.not_mem_nil⟩
  | append_singleton ks j ih =>
    obtain ⟨hharts, hkept, hset⟩ := ih fun k hk => hdown k (List.mem_append_left _ hk)
    have hj : portState5 (ks.foldl fabReleased y) j ≠ 4 := hkept j (hdown j (List.mem_append_right _ (List.mem_singleton.2 rfl)))
    rw [List.foldl_append, List.foldl_cons, List.foldl_nil, fabReleased_down hj]
    generalize ks.foldl fabReleased y = z at *
    have hread : ∀ k, rd (modPort j (fun q => { q with oos := true }) (wr (fabPortStatusState j) 7 z)) (fabPortStatusState k) =
        if k = j then 7 else rd z (fabPortStatusState k) := fun k => by
      refine (rd_of_regs rfl _).trans (?_ : rd (wr (fabPortStatusState j) 7 z) _ = _)
      split
      case isTrue hkj => rw [hkj, rd_wr_same]; rfl
      case isFalse hkj => exact rd_wr_ne _ _ _ _ (by simp only [fkey, fabPortStatusState]; omega)
    refine ⟨hharts, fun k hk => ?_, fun k hk => ?_⟩
    · unfold portState5 at *
      rw [hread]
      split
      · decide
      · exact hkept k hk
    · rw [hread]
      by_cases hkj : k = j
      · rw [if_pos hkj, hkj, modPort_fportOf_same]
        exact ⟨rfl, rfl⟩
      · rw [if_neg hkj, modPort_fportOf_ne _ _ hkj]
        have hmem : k ∈ ks := (List.mem_append.1 hk).resolve_right fun h => hkj (List.mem_singleton.1 h)
        exact hset k hmem

theorem sleepRequestGranted (hasked : s.power.sleep = .asked) (hlater : s.power.entryB < beat s) (hheld : anyHeld s = false)
    (houts : s.outs = []) (hdown : upPorts s = []) (htests : runningTests s = []) :
    ∃ t, exec .sleepRequest s = .next t ∧ t.power.sleep = .asleep ∧ t.power.entryB = beat s - 1 ∧
      t.power.stopped = (startedHarts s).filter (fun h => (hartOf s h).st == .running) ∧
      (∀ h ∈ t.power.stopped, (hartOf t h).st = .stopped ∧ (hartOf t h).x = (hartOf s h).x ∧
        (hartOf t h).pc = (hartOf s h).pc) ∧
      (∀ k ∈ t.power.ports, rd t (fabPortStatusState k) = 7 ∧ (fportOf t k).oos = true) := by
  have hkept := groupsReleased houts
  have hports : ∀ k ∈ sleepPorts s, portState5 ((presentGroups s).foldl groupReleased (hartsStopped s)) k ≠ 4 := fun k hk => by
    have hpresent : k ∈ presentFabPorts s := (List.mem_filter.1 hk).1
    have hk6 : k < 6 := List.mem_range.1 (List.mem_filter.1 hpresent).1
    unfold portState5
    rw [hkept.regs _ (by simp [fabPortStatusState]) (by simp only [fabPortStatusState]; omega), rd_hartsStopped]
    intro h4
    have hup : k ∈ upPorts s := List.mem_filter.2 ⟨hpresent, by simpa [portUp] using h4⟩
    rw [hdown] at hup
    exact List.not_mem_nil hup
  obtain ⟨hharts, -, hset⟩ := portsReleased hports
  refine ⟨sleepRequest s, rfl, ?_⟩
  rw [sleepRequest_eq hasked hlater hheld htests]
  refine ⟨rfl, rfl, rfl, fun h hh => ?_, fun k hk => ?_⟩
  · have hsame : (showIsolated (allReleased s)).harts = (hartsStopped s).harts := hharts.trans hkept.harts
    have hhart : hartOf (setPower { (allReleased s).power with sleep := .asleep, entryB := beat s - 1, stopped := runningHarts s,
                                                               ports := sleepPorts s } (showIsolated (allReleased s))) h =
        hartOf (hartsStopped s) h := hartOf_congr hsame h
    rw [hhart]
    exact hartsStopped_spec hh
  · obtain ⟨hstate, hoos⟩ := hset k hk
    refine ⟨(rd_of_regs rfl _).trans ((?_ : rd (showIsolated (allReleased s)) _ = _)), hoos⟩
    unfold showIsolated wrB
    rw [rd_wr_ne _ _ _ _ (by simp only [fkey, fabPortStatusState, fabStateIsolated]; omega)]
    exact hstate

/-! ## The end of the drains (R48, Table 15.4) -/

theorem nodup_eraseDups (l : List Nat) : l.eraseDups.Nodup := by
  generalize hn : l.length = n
  induction n using Nat.strongRecOn generalizing l with
  | ind n ih =>
    cases l with
    | nil => exact List.nodup_nil
    | cons a r =>
      rw [List.eraseDups_cons, List.nodup_cons]
      have hlen : (r.filter fun b => !b == a).length < n := by
        have := List.length_filter_le (fun b => !b == a) r
        rw [List.length_cons] at hn
        omega
      refine ⟨fun ha => ?_, ih _ hlen _ rfl⟩
      have hmem := List.mem_filter.1 (List.mem_eraseDups.1 ha)
      simp at hmem

theorem maskOf_lt {l : List Nat} {n : Nat} (h : ∀ k ∈ l, k < n) : maskOf l < 2 ^ n := by
  have hfold : ∀ (r : List Nat) (m : Nat), r.foldl (fun m w => m + 2 ^ w) m = m + (r.map fun w => 2 ^ w).sum := by
    intro r
    induction r with
    | nil => intro m; simp
    | cons a r ih => intro m; rw [List.foldl_cons, ih, List.map_cons, List.sum_cons, Nat.add_assoc]
  rw [maskOf, hfold, Nat.zero_add, ← List.sum_toFinset _ (nodup_eraseDups l)]
  exact Nat.geomSum_lt (Nat.le_refl 2) fun k hk => h k (List.mem_eraseDups.1 (List.mem_toFinset.1 hk))

theorem allPads_lt (s : State) : allPads s < 2 ^ 33 := by
  refine maskOf_lt fun k hk => ?_
  simp only [List.mem_append, List.mem_map, List.mem_cons, List.not_mem_nil, or_false] at hk
  rcases hk with ((hk | ⟨g, hg, rfl⟩) | ⟨k, hk, rfl⟩) | hk
  · have : k < 16 := presentChans_lt hk
    omega
  · have : g < 8 := List.mem_range.1 (List.mem_filter.1 hg).1
    omega
  · have : k < 6 := List.mem_range.1 (List.mem_filter.1 hk).1
    omega
  · omega

/-- The state in which the cores, the slices and the channels are drained, and the trim of the oscillator stands (R48). -/
def drained (s : State) : State :=
  (presentChans s).foldl (fun a c => selfRefreshEnter c a)
    (wr clkRcTrimPeriodFs (freeVal (2 ^ 32) ((presentSlices s).foldl emptySlice
      ((presentPairs s).foldl (fun a p => (drainCore (2 * p + 1) (drainCore (2 * p) a).1).1) s)))
      (freeNext ((presentSlices s).foldl emptySlice
        ((presentPairs s).foldl (fun a p => (drainCore (2 * p + 1) (drainCore (2 * p) a).1).1) s))))

/-- The images of the stopped harts are saved. -/
def imagesSaved (s y : State) : State := s.power.stopped.foldl (fun a h => setHart h { hartOf a h with st := .saved } a) y

/-- Cycle L: the time of the entry, from which the oscillator counts. -/
def atCycleL (ns phase : Nat) (s y : State) : State :=
  setTime { y.time with tEntry := now s - s.time.sub + ns, tLast := now s - s.time.sub, bLast := beat s
                        oscPhase := phase, dormant := true } y

/-- The domains of s that are on, switched off. -/
def domainsOff (s y : State) : State := ((List.range 182).filter (domOn s)).foldl (fun a d => setDomain d false a) y

theorem drainsDone_eq {ns phase : Nat} (h : s.power.sleep = .asleep ∧ s.power.wakeSrc = 0 ∧ doorbell257 s = false ∧
    s.power.entryB + 1001 ≤ beat s) : drainsDone ns phase s =
      wr pwrPadsHeld (allPads s) (wr pwrWakeTimeEntryBeats (beat s - s.power.entryB) (setPower
        { (domainsOff s (atCycleL ns phase s (imagesSaved s (drained s)))).power with
          sleep := .latched, wasOn := (List.range 182).filter (domOn s), lastB := beat s }
        (domainsOff s (atCycleL ns phase s (imagesSaved s (drained s)))))) := by
  unfold drainsDone
  rw [if_pos h]
  rfl

theorem domainsOff_part {β : Type} (v : State → β) (hregs : ∀ f x y, v (wr f x y) = v y) (s y : State) :
    v (domainsOff s y) = v y :=
  foldl_fixes v (fun z d => by
    unfold setDomain
    split
    · rw [if_neg (by decide), hregs, hregs, hregs]
    · rfl) _ _

theorem imagesSaved_chip (s y : State) : (imagesSaved s y).chip = y.chip :=
  foldl_fixes State.chip (fun z _ => setHart_chip _ _ z) _ _

theorem imagesSaved_st {h : Nat} (hh : h ∈ s.power.stopped) (y : State) : (hartOf (imagesSaved s y) h).st = .saved :=
  foldl_reaches (P := fun z => (hartOf z h).st = .saved) (a := h) (fun z k hz => by
    by_cases hk : h = k
    · subst hk
      rw [setHart_hartOf_same]
    · rw [setHart_hartOf_ne _ _ _ _ hk]
      exact hz) (fun z => by rw [setHart_hartOf_same]) hh _

theorem domOn_domainsOff {y : State} (hchip : y.chip = s.chip) {d : Nat} (hd : d < 182) (hon : domOn s d = true)
    (hpresent : domainPresent s d = true) : domOn (domainsOff s y) d = false := by
  have hmem : d ∈ (List.range 182).filter (domOn s) := List.mem_filter.2 ⟨List.mem_range.2 hd, hon⟩
  have hoff := foldl_setDomain_off ((domainPresent_of_chip hchip d).trans hpresent) (.inl hmem)
  rw [domOn, domState, domainsOff, hoff]
  split <;> rfl

theorem drained_chip (s : State) : (drained s).chip = s.chip := by
  have hcores : ((presentPairs s).foldl (fun a p => (drainCore (2 * p + 1) (drainCore (2 * p) a).1).1) s).chip = s.chip :=
    foldl_fixes State.chip (fun y p => ((drainCore_keeps _ _ (keeps_refl _ _) (Nat.or_self _)).part .chip rfl).trans
      ((drainCore_keeps _ y (keeps_refl _ y) (Nat.or_self _)).part .chip rfl)) _ _
  have hslices : ∀ y : State, ((presentSlices s).foldl emptySlice y).chip = y.chip := fun y =>
    foldl_fixes State.chip (fun z n => (emptySlice_keeps z n (keeps_refl _ z) (Nat.or_self _)).part .chip rfl) _ _
  have hchans : ∀ y : State, ((presentChans s).foldl (fun a c => selfRefreshEnter c a) y).chip = y.chip := fun y =>
    foldl_fixes State.chip (fun z c => (selfRefreshEnter_keeps c z (keeps_refl _ z) (Nat.or_self _)).part .chip rfl) _ _
  unfold drained
  rw [hchans, wr_chip, freeNext_chip, hslices, hcores]

theorem dormantEntered {ns phase : Nat} (hasleep : s.power.sleep = .asleep) (hsrc : s.power.wakeSrc = 0)
    (hbell : doorbell257 s = false) (hlate : s.power.entryB + 1001 ≤ beat s) :
    ∃ t, exec (.dormantDrainsDone ns phase) s = .next t ∧ t.power.sleep = .latched ∧ t.power.lastB = beat s ∧
      t.time.dormant = true ∧ t.time.bLast = beat s ∧ t.time.tLast = now s - s.time.sub ∧
      t.time.tEntry = now s - s.time.sub + ns ∧ t.time.oscPhase = phase ∧ rd t pwrPadsHeld = allPads s ∧
      (∀ h ∈ s.power.stopped, (hartOf t h).st = .saved) ∧
      (∀ d, d < 182 → domOn s d = true → domainPresent s d = true → domOn t d = false) := by
  refine ⟨drainsDone ns phase s, rfl, ?_⟩
  rw [drainsDone_eq ⟨hasleep, hsrc, hbell, hlate⟩]
  have htime : (domainsOff s (atCycleL ns phase s (imagesSaved s (drained s)))).time = (atCycleL ns phase s (imagesSaved s (drained s))).time :=
    domainsOff_part State.time (fun _ _ _ => rfl) s _
  have hharts : (domainsOff s (atCycleL ns phase s (imagesSaved s (drained s)))).harts = (imagesSaved s (drained s)).harts :=
    domainsOff_part State.harts (fun _ _ _ => rfl) s _
  have hchip : (atCycleL ns phase s (imagesSaved s (drained s))).chip = s.chip :=
    (imagesSaved_chip s (drained s)).trans (drained_chip s)
  have hoff := fun d hd hon hp => domOn_domainsOff hchip (d := d) hd hon hp
  have hsaved := fun h (hh : h ∈ s.power.stopped) => imagesSaved_st hh (drained s)
  generalize domainsOff s (atCycleL ns phase s (imagesSaved s (drained s))) = y at *
  generalize imagesSaved s (drained s) = z at *
  refine ⟨rfl, rfl, congrArg TimeSt.dormant htime, congrArg TimeSt.bLast htime, congrArg TimeSt.tLast htime,
    congrArg TimeSt.tEntry htime, congrArg TimeSt.oscPhase htime, ?_, fun h hh => ?_, fun d hd hon hp => ?_⟩
  · rw [rd_wr_same]
    exact Nat.mod_eq_of_lt (allPads_lt s)
  · rw [wr_hartOf, wr_hartOf, setPower_hartOf, hartOf_congr hharts]
    exact hsaved h hh
  · rw [domOn, domState, rd_wr_ne _ _ _ _ (by simp only [fkey, pwrDomainState, pwrPadsHeld]; omega),
      rd_wr_ne _ _ _ _ (by simp only [fkey, pwrDomainState, pwrWakeTimeEntryBeats]; omega)]
    exact hoff d hd hon hp

theorem drainsDone_waits {ns phase : Nat} (h : s.power.sleep ≠ .asleep ∨ s.power.wakeSrc ≠ 0 ∨ doorbell257 s = true ∨
    beat s < s.power.entryB + 1001) : exec (.dormantDrainsDone ns phase) s = .next s := by
  have hn : ¬(s.power.sleep = .asleep ∧ s.power.wakeSrc = 0 ∧ doorbell257 s = false ∧ s.power.entryB + 1001 ≤ beat s) := by
    rintro ⟨h1, h2, h3, h4⟩
    rcases h with h | h | h | h
    · exact h h1
    · exact h h2
    · simp [h3] at h
    · omega
  simp only [exec, execDormantDrainsDone, drainsDone, if_neg hn]

/-! ## Wakes (R48 to R50, R406, R408) -/

theorem i3cWakes {tile addr : Nat} (hsleep : s.power.sleep = .asleep ∨ s.power.sleep = .latched) (hen : rdB s pwrWakeEnable = true)
    (haddr : addr = rd s pwrWakeAddr) (hcast : addr ≠ 0x7E) (hfirst : rd s pwrWakeLatched = 0) :
    ∃ t, exec (.i3cWakeMatch tile addr) s = .next t ∧ rd t pwrWakeLatched = 1 ∧
      rd t pwrWakeTile = tile % 2 ∧ otherFields [pwrWakeLatched, pwrWakeTile] s t ∧ t.power.sleep = s.power.sleep ∧
      (s.power.sleep = .asleep → t.power.wakeSrc = 1) := by
  have hregs : (wakeMatch tile addr s).regs = (wr pwrWakeLatched 1 (wr pwrWakeTile (tile % 2) s)).regs := by
    unfold wakeMatch
    rw [if_pos ⟨hsleep, hen, haddr, hcast, hfirst⟩]
    dsimp only
    split <;> rfl
  refine ⟨wakeMatch tile addr s, rfl, ?_, ?_, ?_, ?_, fun hasleep => ?_⟩
  · rw [rd_of_regs hregs, rd_wr_same]
    rfl
  · rw [rd_of_regs hregs, rd_wr_ne _ _ _ _ (by decide), rd_wr_same]
    exact Nat.mod_eq_of_lt (Nat.mod_lt _ (by decide))
  · exact (((otherFields_refl _ s).wr (g := pwrWakeTile) (by simp) (tile % 2)).wr (g := pwrWakeLatched) (by simp) 1).of_regs hregs
  · unfold wakeMatch
    rw [if_pos ⟨hsleep, hen, haddr, hcast, hfirst⟩]
    dsimp only
    split <;> rfl
  · unfold wakeMatch
    rw [if_pos ⟨hsleep, hen, haddr, hcast, hfirst⟩]
    dsimp only
    rw [if_pos hasleep]
    rfl

theorem i3cWake_other {tile addr : Nat} (h : addr ≠ rd s pwrWakeAddr) : exec (.i3cWakeMatch tile addr) s = .next s := by
  have hn : ¬((s.power.sleep = .asleep ∨ s.power.sleep = .latched) ∧ rdB s pwrWakeEnable = true ∧ addr = rd s pwrWakeAddr ∧
      addr ≠ 0x7E ∧ rd s pwrWakeLatched = 0) := fun hh => h hh.2.2.1
  simp only [exec, execI3cWakeMatch, wakeMatch, if_neg hn]

/-- The reference fields after Dormant. -/
def refsBack (a b : Bool) (s : State) : State :=
  wrB clkStatusRefaOk a (wrB clkStatusRefbOk b (wr clkStatusRefSel
    (if (if rd s clkCtrlRefPref = 0 then a else b) then rd s clkCtrlRefPref else 1 - rd s clkCtrlRefPref) s))

/-- The time and the beat after Dormant, with its interval, its uncertainty and its count (R48, R49). -/
def timeBack (e : Nat) (s y : State) : State :=
  wr clkBeatBeat (s.time.bLast + (s.time.tEntry + e - s.time.tLast) / 1000) (wr clkTimeTimeNs (s.time.tEntry + e)
    (wr clkWakeIntervalIntervalNs e (wr clkWakeUncertUncertNs (wakeUncert s e)
      (bump clkUncertTotalTotalNs (wakeUncert s e) (bump clkWakeCountWakes 1 y)))))

theorem restoreTime_eq (i : Nat) (a b : Bool) (s : State) : restoreTime i a b s =
    setTime { (timeBack (i / 10 * 10) s (refsBack a b s)).time with
      sub := s.time.tEntry + i / 10 * 10 - s.time.tLast - (s.time.tEntry + i / 10 * 10 - s.time.tLast) / 1000 * 1000
      dormant := false, wakeRefs := true } (timeBack (i / 10 * 10) s (refsBack a b s)) := rfl

theorem rd_refsBack (a b : Bool) (s : State) : rd (refsBack a b s) clkStatusRefaOk = a.toNat ∧
    rd (refsBack a b s) clkStatusRefbOk = b.toNat ∧
    ∀ f, fkey f ≠ fkey clkStatusRefaOk → fkey f ≠ fkey clkStatusRefbOk → fkey f ≠ fkey clkStatusRefSel → rd (refsBack a b s) f = rd s f := by
  have hbit : ∀ x : Bool, x.toNat % 2 ^ 1 = x.toNat := fun x => by cases x <;> rfl
  unfold refsBack wrB
  refine ⟨?_, ?_, fun f h1 h2 h3 => ?_⟩
  · rw [rd_wr_same]
    exact hbit a
  · rw [rd_wr_ne _ _ _ _ (by decide), rd_wr_same]
    exact hbit b
  · rw [rd_wr_ne _ _ _ _ h1, rd_wr_ne _ _ _ _ h2, rd_wr_ne _ _ _ _ h3]

/-- The fields of the wake's time. -/
def wakeFields : List Fld := [clkBeatBeat, clkTimeTimeNs, clkWakeIntervalIntervalNs, clkWakeUncertUncertNs, clkUncertTotalTotalNs,
  clkWakeCountWakes]

theorem otherFields_timeBack (e : Nat) (s y : State) : otherFields wakeFields y (timeBack e s y) := by
  unfold timeBack
  exact ((((((otherFields_refl _ y).bump (by simp [wakeFields]) _).bump (by simp [wakeFields]) _).wr (by simp [wakeFields]) _).wr
    (by simp [wakeFields]) _).wr (by simp [wakeFields]) _).wr (by simp [wakeFields]) _

theorem rd_timeBack {e : Nat} (s y : State) (ht : s.time.tEntry + e < 2 ^ 64)
    (hb : s.time.bLast + (s.time.tEntry + e - s.time.tLast) / 1000 < 2 ^ 64) :
    now (timeBack e s y) = s.time.tEntry + e ∧ beat (timeBack e s y) = s.time.bLast + (s.time.tEntry + e - s.time.tLast) / 1000 ∧
      counted clkUncertTotalTotalNs (wakeUncert s e) y (timeBack e s y) ∧ counted clkWakeCountWakes 1 y (timeBack e s y) := by
  unfold timeBack now beat counted
  refine ⟨?_, ?_, ?_, ?_⟩
  · rw [rd_wr_ne _ _ _ _ (by decide), rd_wr_same]
    exact Nat.mod_eq_of_lt ht
  · rw [rd_wr_same]
    exact Nat.mod_eq_of_lt hb
  · rw [rd_wr_ne _ _ _ _ (by decide), rd_wr_ne _ _ _ _ (by decide), rd_wr_ne _ _ _ _ (by decide), rd_wr_ne _ _ _ _ (by decide),
      rd_bump_same, rd_bump_ne _ _ _ _ (by decide)]
  · rw [rd_wr_ne _ _ _ _ (by decide), rd_wr_ne _ _ _ _ (by decide), rd_wr_ne _ _ _ _ (by decide), rd_wr_ne _ _ _ _ (by decide),
      rd_bump_ne _ _ _ _ (by decide), rd_bump_same]

/-- Hubs, Clerks, Assayers and channels are to be switched on at the next boundary. -/
def hubsOn (s y : State) : State :=
  ([180, 181, 176, 177, 178, 179] ++ (List.range 16).map (144 + ·)).foldl (fun a d =>
    if s.power.wasOn.contains d then addDue (beat y + 1) 4 (.switch d true) a else a) y

/-- The pads of the channels and of the hubs are released. -/
def padsBack (y : State) : State :=
  wr pwrPadsHeld (rd y pwrPadsHeld - rd y pwrPadsHeld % 2 ^ 16 - (rd y pwrPadsHeld / 2 ^ 30 % 8) * 2 ^ 30) (wr pwrStatusPkgState 4
    (setPower { y.power with sleep := .waking } y))

theorem wakeReference_eq {ticks phase : Nat} {a b : Bool} (hdormant : s.time.dormant = true) (hgood : a = true ∨ b = true)
    (hlatched : s.power.sleep = .latched) (hwake : rdB s pwrWakeLatched = true) : wakeReference ticks phase a b s =
      padsBack (hubsOn s (restoreTime (oscInterval ticks phase s) a b s)) := by
  have hn : ¬(s.time.dormant = false ∨ (a = false ∧ b = false)) := by
    rw [hdormant]
    rintro (h | ⟨rfl, rfl⟩)
    · exact absurd h nofun
    · exact hgood.elim nofun nofun
  unfold wakeReference
  dsimp only
  rw [if_neg hn, if_pos ⟨hlatched, hwake⟩]
  rfl

theorem hubsOn_part {β : Type} (v : State → β) (hv : ∀ b k a y, v (addDue b k a y) = v y) (s y : State) : v (hubsOn s y) = v y :=
  foldl_fixes v (fun z d => by
    split
    · exact hv _ _ _ _
    · rfl) _ _

theorem wakeReferenceReturns {ticks phase : Nat} {a b : Bool} {e u : Nat} (hdormant : s.time.dormant = true) (hgood : a = true ∨ b = true)
    (hlatched : s.power.sleep = .latched) (hwake : rdB s pwrWakeLatched = true)
    (he : e = (s.time.oscPhase * 10 + ticks * oscPeriod s / 1000000 - phase * 10) / 10 * 10) (hu : u = wakeUncert s e)
    (ht : s.time.tEntry + e < 2 ^ 64) (hb : s.time.bLast + (s.time.tEntry + e - s.time.tLast) / 1000 < 2 ^ 64) :
    ∃ t, exec (.wakeReferenceGood ticks phase a b) s = .next t ∧ t.time.dormant = false ∧ t.time.wakeRefs = true ∧
      t.power.sleep = .waking ∧ now t = s.time.tEntry + e ∧ beat t = s.time.bLast + (s.time.tEntry + e - s.time.tLast) / 1000 ∧
      rd t clkStatusRefaOk = a.toNat ∧ rd t clkStatusRefbOk = b.toNat ∧ rd t pwrStatusPkgState = 4 ∧
      counted clkUncertTotalTotalNs u s t ∧ counted clkWakeCountWakes 1 s t := by
  rw [show exec (.wakeReferenceGood ticks phase a b) s = .next (wakeReference ticks phase a b s) from rfl,
    wakeReference_eq hdormant hgood hlatched hwake, restoreTime_eq]
  have hint : oscInterval ticks phase s / 10 * 10 = e := by rw [he, oscInterval]
  rw [hint]
  obtain ⟨hrefa, hrefb, hrefs⟩ := rd_refsBack a b s
  obtain ⟨hnow, hbeat, huncert, hwakes⟩ := rd_timeBack s (refsBack a b s) ht hb
  have hother := otherFields_timeBack e s (refsBack a b s)
  have hqa := (hother clkStatusRefaOk (by decide)).trans hrefa
  have hqb := (hother clkStatusRefbOk (by decide)).trans hrefb
  rw [counted, hrefs _ (by decide) (by decide) (by decide)] at huncert hwakes
  generalize timeBack e s (refsBack a b s) = y at *
  generalize hz : setTime _ y = z
  have hzregs : z.regs = y.regs := by rw [← hz]; rfl
  have hztime : z.time.dormant = false ∧ z.time.wakeRefs = true := by rw [← hz]; exact ⟨rfl, rfl⟩
  have hhubs : (hubsOn s z).regs = y.regs := (hubsOn_part State.regs (fun _ _ _ _ => rfl) s z).trans hzregs
  have htime : (hubsOn s z).time = z.time := hubsOn_part State.time (fun _ _ _ _ => rfl) s z
  generalize hubsOn s z = w at hhubs htime
  have hread : ∀ f, fkey f ≠ fkey pwrPadsHeld → fkey f ≠ fkey pwrStatusPkgState → rd (padsBack w) f = rd y f := fun f h1 h2 => by
    unfold padsBack
    rw [rd_wr_ne _ _ _ _ h1, rd_wr_ne _ _ _ _ h2]
    exact rd_of_regs hhubs f
  have hpads : (padsBack w).time = z.time ∧ (padsBack w).power.sleep = .waking := by
    unfold padsBack
    rw [wr_time, wr_time, wr_power, wr_power]
    exact ⟨htime, rfl⟩
  have hpkg : rd (padsBack w) pwrStatusPkgState = 4 := by
    unfold padsBack
    rw [rd_wr_ne _ _ _ _ (by decide), rd_wr_same]
    rfl
  generalize padsBack w = t at *
  rw [← hpads.1] at hztime
  refine ⟨t, rfl, hztime.1, hztime.2, hpads.2, ?_, ?_, ?_, ?_, hpkg, ?_, ?_⟩
  · exact (hread _ (by decide) (by decide)).trans hnow
  · exact (hread _ (by decide) (by decide)).trans hbeat
  · exact (hread _ (by decide) (by decide)).trans hqa
  · exact (hread _ (by decide) (by decide)).trans hqb
  · rw [counted, hread _ (by decide) (by decide), hu]
    exact huncert
  · rw [counted, hread _ (by decide) (by decide)]
    exact hwakes

theorem wakeReference_waits {ticks phase : Nat} {a b : Bool} (h : s.time.dormant = false ∨ (a = false ∧ b = false)) :
    exec (.wakeReferenceGood ticks phase a b) s = .next s := by
  simp only [exec, execWakeReferenceGood, wakeReference, if_pos h]

/-- The domains that were on are to be switched on at the next boundary. -/
def wasOnSwitched (s : State) : State :=
  s.power.wasOn.reverse.foldl (fun a d => if domOn a d then a else addDue (beat s + 1) 4 (.switch d true) a) s

theorem wasOnSwitched_part {β : Type} (v : State → β) (hv : ∀ b k a y, v (addDue b k a y) = v y) (s : State) :
    v (wasOnSwitched s) = v s :=
  foldl_fixes v (fun z d => by
    split
    · rfl
    · exact hv _ _ _ _) _ _

theorem wasOnSwitched_due {d : Nat} (hd : d ∈ s.power.wasOn) (hoff : domOn s d = false) :
    (⟨beat s + 1, 4, .switch d true⟩ : Due) ∈ (wasOnSwitched s).due := by
  have hregs : ∀ z : State, z.regs = s.regs → domOn z d = false := fun z hz => by
    rw [domOn, domState, rd_of_regs hz]
    exact hoff
  have hboth : (wasOnSwitched s).regs = s.regs → (⟨beat s + 1, 4, .switch d true⟩ : Due) ∈ (wasOnSwitched s).due :=
    foldl_reaches (P := fun z => z.regs = s.regs → (⟨beat s + 1, 4, .switch d true⟩ : Due) ∈ z.due) (a := d)
      (fun z e hz => by
        split
        · exact hz
        · exact fun hr => List.mem_append_left _ (hz hr))
      (fun z => by
        split
        case isTrue hon =>
          intro hr
          rw [hregs z hr] at hon
          exact absurd hon nofun
        case isFalse => exact fun _ => List.mem_append_right _ (List.mem_singleton.2 rfl))
      (List.mem_reverse.2 hd) s
  exact hboth (wasOnSwitched_part State.regs (fun _ _ _ _ => rfl) s)

theorem wakeCompletes {bad : List Nat} {us : Nat} (hwaking : s.power.sleep = .waking) (hfirst : s.power.resumeAt = none)
    (hchans : ∀ c ∈ presentChans s, rd s (mcStatusState c) ≠ 4) :
    ∃ t, exec (.wakeComplete bad us) s = .next t ∧ t.power.resumeAt = some (beat s + 1) ∧ t.power.bad = bad ∧
      rd t pwrWakeTimeWakeUs = us % 2 ^ 32 ∧ t.power.sleep = .waking ∧ otherFields [pwrWakeTimeWakeUs] s t ∧
      ∀ d ∈ s.power.wasOn, domOn s d = false → (⟨beat s + 1, 4, .switch d true⟩ : Due) ∈ t.due := by
  have hall : ((presentChans s).all fun c => rd s (mcStatusState c) != 4) = true :=
    List.all_eq_true.2 fun c hc => by simpa using hchans c hc
  have hex : exec (.wakeComplete bad us) s = .next (wr pwrWakeTimeWakeUs us (setPower { (wasOnSwitched s).power with
      resumeAt := some (beat s + 1), bad := bad } (wasOnSwitched s))) := by
    simp only [exec, execWakeComplete, wakeComplete]
    rw [if_pos ⟨hwaking, by rw [hfirst]; rfl, hall⟩]
    rfl
  have hpower : (wasOnSwitched s).power = s.power := wasOnSwitched_part State.power (fun _ _ _ _ => rfl) s
  have hregs : (wasOnSwitched s).regs = s.regs := wasOnSwitched_part State.regs (fun _ _ _ _ => rfl) s
  refine ⟨_, hex, rfl, rfl, rd_wr_same _ _ _, ?_, ?_, fun d hd hoff => wasOnSwitched_due hd hoff⟩
  · exact (congrArg Power.sleep hpower).trans hwaking
  · exact ((otherFields_refl _ s).of_regs (u := setPower _ (wasOnSwitched s)) hregs).wr (by simp) _

theorem wakeComplete_waits {bad : List Nat} {us : Nat} (h : s.power.sleep ≠ .waking ∨ s.power.resumeAt ≠ none) :
    exec (.wakeComplete bad us) s = .next s := by
  have hn : ¬(s.power.sleep = .waking ∧ s.power.resumeAt.isNone = true ∧
      ((presentChans s).all fun c => rd s (mcStatusState c) != 4) = true) := fun hh =>
    h.elim (fun h1 => h1 hh.1) fun h2 => h2 (Option.isNone_iff_eq_none.1 hh.2.1)
  simp only [exec, execWakeComplete, wakeComplete, if_neg hn]

theorem padsReleaseStaged (mask : Nat) (s : State) : ∃ t, exec (.pwrPadsRelease mask) s = .next t ∧
    t.due = s.due ++ [⟨beat s + 1, 4, .pads (mask % 2 ^ 33)⟩] ∧ ∀ p, p ≠ .due → samePart p s t :=
  ⟨addDue (beat s + 1) 4 (.pads (mask % 2 ^ 33)) s, rfl, rfl, fun p hp => by cases p <;> first | exact absurd rfl hp | rfl⟩

/-- Settles O58, one lemma for each command and outcome. -/
theorem drowseAndDormant : Obligations.DrowseAndDormant := by
  unfold Obligations.DrowseAndDormant
  intro s
  exact ⟨fun _ => gateStarts, fun _ => gateStart_barred, fun _ _ h1 h2 => gateSaves h1 h2, fun _ _ h1 h2 => gateFrozen h1 h2,
    fun _ => gateDone_abandoned, fun _ => gatedPairWakes, fun _ => gatedPairWake_idle, idleTimerAsks, idleTimer_waits,
    sleepRequestGranted, sleepRequest_waits, fun _ _ => dormantEntered, fun _ _ => drainsDone_waits, fun _ _ => i3cWakes,
    fun _ _ => i3cWake_other, fun _ _ _ _ _ _ => wakeReferenceReturns, fun _ _ _ _ => wakeReference_waits,
    fun _ _ => wakeCompletes, fun _ _ => wakeComplete_waits, fun mask => padsReleaseStaged mask s⟩

end Sys2Proof.Machine
end

section
/-! The DMA channels: control, descriptors, reads and writes, errors, and the dma.* commands (R294 to R310). -/
set_option Elab.async false
namespace Sys2Proof.Machine
open Host Sys2Proof

/-! ### Two fields of one channel's page -/

theorem page_ne {d a b la lb wa wb ra rb : Nat} {ka kb : Acc} (h : la < 64 ∧ lb < 64 ∧ (a ≠ b ∨ la ≠ lb)) :
    fkey (Fld.mk (dmaBase d + a) la wa ra ka) ≠ fkey (Fld.mk (dmaBase d + b) lb wb rb kb) := by
  simp only [fkey]
  omega

/-- A write of another field of the channel's page leaves a field's value. -/
theorem rd_wr_page {d a b la lb wa wb ra rb : Nat} {ka kb : Acc} (h : la < 64 ∧ lb < 64 ∧ (a ≠ b ∨ la ≠ lb)) (v : Nat)
    (s : State) : rd (wr (Fld.mk (dmaBase d + b) lb wb rb kb) v s) (Fld.mk (dmaBase d + a) la wa ra ka) =
      rd s (Fld.mk (dmaBase d + a) la wa ra ka) :=
  rd_wr_ne _ _ _ _ (page_ne h)

theorem dmaOf_modDma_ne {d k : Nat} (h : k ≠ d) (g : DmaCh → DmaCh) (s : State) : dmaOf (modDma d g s) k = dmaOf s k :=
  setDma_dmaOf_ne d _ s k h

/-- A party that does not reach the channel's page is refused. -/
theorem dmaBy_refused {s : State} {tag d : Nat} (hd : d < 64) (h : dmaReach s tag d = false) (off : Nat) (f : State → State) :
    dmaBy tag d off f s = refuseWindow tag (dmaBase d + off) s := by
  simp [dmaBy, dmaPresent, hd, h]

theorem dmaBy_refused_spec {s : State} {tag d : Nat} (hd : d < 64) (h : dmaReach s tag d = false) (off : Nat)
    (f : State → State) : recordedIn 5 11 0 0x0B01 s (dmaBy tag d off f s) ∧ samePart .dma s (dmaBy tag d off f s) ∧
      otherFields irqFields s (dmaBy tag d off f s) := by
  rw [dmaBy_refused hd h]
  obtain ⟨hrec, -, hregs⟩ := refuseWindow_spec s tag (dmaBase d + off)
  exact ⟨hrec, (refuseWindow_keeps tag _ s (keeps_refl _ s) (Nat.or_self _)).part .dma rfl, hregs⟩

/-! ### A channel settles, and its reads end -/

theorem dmaState_dmaSettle (d : Nat) (s : State) : dmaState (dmaSettle d s) d = if ringEmpty s d then 2 else 3 := by
  refine dmaState_setDmaState ?_ d s
  split <;> omega

/-- The ring's place depends on registers other than those that a control write sets. -/
theorem ringEmpty_of_rd {s t : State} {d : Nat} (hlog : rd t (dmaCtrlRingLog2 d) = rd s (dmaCtrlRingLog2 d))
    (hhead : rd t (dmaHeadHead d) = rd s (dmaHeadHead d)) (htail : rd t (dmaTailTail d) = rd s (dmaTailTail d)) :
    ringEmpty t d = ringEmpty s d := by
  unfold ringEmpty headOf ringSize
  rw [hlog, hhead, htail]

theorem dmaEndReads_regs (d : Nat) (s : State) : (dmaEndReads d s).regs = s.regs := rfl

theorem dmaEndReads_kept (d : Nat) (s : State) : dramKept s (dmaEndReads d s) := rfl

theorem dmaOf_dmaEndReads (d : Nat) (s : State) : dmaOf (dmaEndReads d s) d = { dmaOf s d with far := [] } :=
  dmaOf_modDma d (fun r => { r with far := [] }) s

theorem dmaOf_dmaEndReads_ne {d k : Nat} (h : k ≠ d) (s : State) : dmaOf (dmaEndReads d s) k = dmaOf s k :=
  dmaOf_modDma_ne h (fun r => { r with far := [] }) s

/-! ### Errors -/

/-- What an error latches in the channel's registers (Table 11.2). -/
def errLatched (d kind dir : Nat) (ring : Bool) (s : State) : State :=
  wr (dmaErrKind d) kind (wr (dmaErrDir d) dir (wrB (dmaErrRing d) ring (wr (dmaErrBeat d) (beat s) s)))

/-- An ordinary channel's descriptor becomes BAD. -/
theorem dmaError_ordinary {d : Nat} (hpriv : dmaPriv d = false) (kind dir off addr : Nat) (ring : Bool) (s : State) :
    dmaError d kind dir off addr ring s =
      modDma d (fun r => { r with bad := some (kind, dir, off) }) (errLatched d kind dir ring s) :=
  if_neg (by simp [hpriv])

theorem haltLatched_eq (d kind dir off addr : Nat) (ring : Bool) (s : State) : haltLatched d kind dir off addr ring s =
    setDmaState d 6 (wr (dmaErrAddrAddr d) addr
      (modDma d (fun r => { r with bad := some (kind, dir, off) }) (errLatched d kind dir ring s))) := rfl

theorem rd_errLatched_kind (d kind dir : Nat) (ring : Bool) (s : State) :
    rd (errLatched d kind dir ring s) (dmaErrKind d) = kind % 16 := rd_wr_same (dmaErrKind d) ..

theorem rd_errLatched_dir (d kind dir : Nat) (ring : Bool) (s : State) :
    rd (errLatched d kind dir ring s) (dmaErrDir d) = dir % 2 :=
  (rd_wr_page (by decide) ..).trans (rd_wr_same (dmaErrDir d) ..)

theorem rd_errLatched_ring (d kind dir : Nat) (ring : Bool) (s : State) :
    rd (errLatched d kind dir ring s) (dmaErrRing d) = ring.toNat := by
  refine (rd_wr_page (by decide) ..).trans ((rd_wr_page (by decide) ..).trans ((rd_wr_same (dmaErrRing d) ..).trans ?_))
  cases ring <;> rfl

theorem rd_errLatched_beat (d kind dir : Nat) (ring : Bool) (s : State) :
    rd (errLatched d kind dir ring s) (dmaErrBeat d) = beat s % 2 ^ 32 :=
  (rd_wr_page (by decide) ..).trans ((rd_wr_page (by decide) ..).trans
    ((rd_wr_page (by decide) ..).trans (rd_wr_same (dmaErrBeat d) ..)))

theorem dmaState_errLatched (d kind dir : Nat) (ring : Bool) (s : State) :
    dmaState (errLatched d kind dir ring s) d = dmaState s d :=
  (rd_wr_page (by decide) ..).trans ((rd_wr_page (by decide) ..).trans
    ((rd_wr_page (by decide) ..).trans (rd_wr_page (by decide) ..)))

theorem dmaOf_errLatched (d kind dir : Nat) (ring : Bool) (s : State) : dmaOf (errLatched d kind dir ring s) d = dmaOf s d :=
  rfl

/-- An error's latches stand alike in an ordinary and in a privileged channel. -/
theorem rd_dmaError {d : Nat} (hd : d < 64) {lo w r : Nat} {k : Acc} (hlo : lo < 64) (kind dir off addr : Nat)
    (ring : Bool) (s : State) : rd (dmaError d kind dir off addr ring s) (Fld.mk (dmaBase d + 0x50) lo w r k) =
      rd (errLatched d kind dir ring s) (Fld.mk (dmaBase d + 0x50) lo w r k) := by
  have hoff := (dmaBase_bounds hd).2
  cases hpriv : dmaPriv d with
  | false => rw [dmaError_ordinary hpriv, rd_modDma]
  | true =>
    rw [dmaError_of_dmaPriv hpriv, rd_recContained hlo (show dmaBase d + 0x50 < 0x100000000 by omega), haltLatched_eq,
      rd_setDmaState_ne (page_ne ⟨hlo, by decide, Or.inl (by decide)⟩)]
    exact rd_wr_page ⟨hlo, by decide, Or.inl (by decide)⟩ ..

theorem dmaOf_dmaError (d kind dir off addr : Nat) (ring : Bool) (s : State) :
    dmaOf (dmaError d kind dir off addr ring s) d = { dmaOf s d with bad := some (kind, dir, off) } := by
  cases hpriv : dmaPriv d with
  | false => rw [dmaError_ordinary hpriv, dmaOf_modDma, dmaOf_errLatched]
  | true =>
    rw [dmaError_of_dmaPriv hpriv, dmaOf, recContained_dma]
    refine Eq.trans (b := dmaOf (haltLatched d kind dir off addr ring s) d) rfl ?_
    rw [haltLatched, setDmaState, wr_dmaOf, wr_dmaOf, dmaOf_modDma]
    rfl

/-- The registers of Table 11.2 after an error. -/
theorem dmaError_latches {d : Nat} (hd : d < 64) (kind dir off addr : Nat) (ring : Bool) (s : State) :
    rd (dmaError d kind dir off addr ring s) (dmaErrKind d) = kind % 16 ∧
      rd (dmaError d kind dir off addr ring s) (dmaErrDir d) = dir % 2 ∧
      rd (dmaError d kind dir off addr ring s) (dmaErrRing d) = ring.toNat ∧
      rd (dmaError d kind dir off addr ring s) (dmaErrBeat d) = beat s % 2 ^ 32 :=
  ⟨(rd_dmaError hd (by decide) ..).trans (rd_errLatched_kind ..), (rd_dmaError hd (by decide) ..).trans (rd_errLatched_dir ..),
   (rd_dmaError hd (by decide) ..).trans (rd_errLatched_ring ..), (rd_dmaError hd (by decide) ..).trans (rd_errLatched_beat ..)⟩

theorem dmaState_dmaError_ordinary {d : Nat} (hpriv : dmaPriv d = false) (kind dir off addr : Nat) (ring : Bool) (s : State) :
    dmaState (dmaError d kind dir off addr ring s) d = dmaState s d := by
  rw [dmaError_ordinary hpriv]
  exact dmaState_errLatched ..

/-- The registers of an ordinary channel whose ring has failed. -/
def ringLatched (d kind dir : Nat) (s : State) : State :=
  setDmaState d 7 (wr (dmaErrKind d) kind (wr (dmaErrDir d) dir (wr (dmaErrRing d) 1 (wr (dmaErrBeat d) (beat s)
    (wr (dmaErrAddrAddr d) (descAt s d) s)))))

/-- The MSI that a ring fault sends where the channel's interrupts are enabled. -/
def faultMsi (s : State) (d : Nat) : List (Nat × Nat) :=
  if rdB s (dmaCtrlIrqEn d) then [(rd s (dmaMsiAddrAddr d) / 8 * 8, rd s (dmaMsiDataData d))] else []

/-- A failed fetch or status write of an ordinary channel ends its descriptor (R303). -/
theorem dmaRingFault_ordinary {d : Nat} (hpriv : dmaPriv d = false) (kind dir : Nat) (s : State) :
    dmaRingFault d kind dir s = modDma d (fun r => { r with desc := none, bad := none, done := 0, msis := r.msis ++ faultMsi s d })
      (ringLatched d kind dir s) := by
  refine (if_neg (by simp [hpriv])).trans ?_
  unfold faultMsi
  split
  · rfl
  · simp only [List.append_nil]
    rfl

theorem dmaRingFault_spec {d : Nat} (hpriv : dmaPriv d = false) (kind dir : Nat) (s : State) :
    dmaState (dmaRingFault d kind dir s) d = 7 ∧ rd (dmaRingFault d kind dir s) (dmaErrKind d) = kind % 16 ∧
      rd (dmaRingFault d kind dir s) (dmaErrDir d) = dir % 2 ∧ rd (dmaRingFault d kind dir s) (dmaErrRing d) = 1 ∧
      (dmaOf (dmaRingFault d kind dir s) d).desc = none ∧
      (dmaOf (dmaRingFault d kind dir s) d).msis = (dmaOf s d).msis ++ faultMsi s d := by
  rw [dmaRingFault_ordinary hpriv, dmaOf_modDma]
  exact ⟨dmaState_setDmaState (by decide) d _,
    (rd_wr_page (by decide) ..).trans (rd_wr_same (dmaErrKind d) ..),
    (rd_wr_page (by decide) ..).trans ((rd_wr_page (by decide) ..).trans (rd_wr_same (dmaErrDir d) ..)),
    (rd_wr_page (by decide) ..).trans ((rd_wr_page (by decide) ..).trans ((rd_wr_page (by decide) ..).trans
      (rd_wr_same (dmaErrRing d) ..))), rfl, rfl⟩

/-! ### Control (R304 to R307) -/

theorem dmaEnable_of_ready {s : State} {d : Nat} (hst : dmaState s d = 1) (hf : rdB s (pwrDomainFenced (180 + dmaTile d)) = false) :
    dmaEnable d s = dmaSettle d (wr (dmaCtrlEnable d) 1 (modDma d (fun r => { msis := r.msis, bytes := r.bytes }) s)) :=
  if_pos ⟨hst, by simp [hf]⟩

theorem dmaEnable_idle {s : State} {d : Nat} (h : dmaState s d ≠ 1 ∨ rdB s (pwrDomainFenced (180 + dmaTile d)) = true) :
    dmaEnable d s = s := by
  refine if_neg fun ⟨hst, hf⟩ => ?_
  rcases h with h | h
  · exact h hst
  · exact hf h

/-- A settled channel: its registers but its state are as before. -/
theorem dmaSettle_otherFields {l : List Fld} {s t : State} {d : Nat} (h : otherFields l s t) (hst : dmaStatusState d ∈ l) :
    otherFields l s (dmaSettle d t) := h.wr hst _

theorem dmaEnable_spec {s : State} {d : Nat} (hst : dmaState s d = 1) (hf : rdB s (pwrDomainFenced (180 + dmaTile d)) = false) :
    dmaState (dmaEnable d s) d = (if ringEmpty s d then 2 else 3) ∧ rd (dmaEnable d s) (dmaCtrlEnable d) = 1 ∧
      (dmaOf (dmaEnable d s) d).desc = none ∧ (dmaOf (dmaEnable d s) d).total = 0 ∧
      (∀ k, k ≠ d → dmaOf (dmaEnable d s) k = dmaOf s k) ∧
      otherFields [dmaStatusState d, dmaCtrlEnable d] s (dmaEnable d s) := by
  rw [dmaEnable_of_ready hst hf]
  have hch : dmaOf (dmaSettle d (wr (dmaCtrlEnable d) 1 (modDma d (fun r => { msis := r.msis, bytes := r.bytes }) s))) d =
      { msis := (dmaOf s d).msis, bytes := (dmaOf s d).bytes } :=
    dmaOf_modDma d (fun r => { msis := r.msis, bytes := r.bytes }) s
  refine ⟨?_, (rd_wr_page (by decide) ..).trans (rd_wr_same (dmaCtrlEnable d) ..), by rw [hch], by rw [hch],
    fun k hk => dmaOf_modDma_ne hk (fun r => { msis := r.msis, bytes := r.bytes }) s, ?_⟩
  · have hring : ringEmpty (wr (dmaCtrlEnable d) 1 (modDma d (fun r => { msis := r.msis, bytes := r.bytes }) s)) d =
        ringEmpty s d :=
      ringEmpty_of_rd (rd_wr_page (by decide) ..) (rd_wr_page (by decide) ..) (rd_wr_page (by decide) ..)
    rw [dmaState_dmaSettle, hring]
  · refine dmaSettle_otherFields (.wr ?_ (by simp) 1) (by simp)
    exact (otherFields_refl _ s).of_regs rfl

theorem dmaAbort_of_off {s : State} {d : Nat} (h : dmaState s d = 0 ∨ dmaState s d = 1) :
    dmaAbort d s = wr (dmaCtrlEnable d) 0 s := if_neg (by omega)

theorem dmaAbort_of_on {s : State} {d : Nat} (h0 : dmaState s d ≠ 0) (h1 : dmaState s d ≠ 1) :
    dmaAbort d s = wr (dmaCtrlEnable d) 0 (modDma d (fun r => { r with aborting := true, msiDue := false }) s) := if_pos ⟨h1, h0⟩

theorem dmaAbort_spec (s : State) (d : Nat) : rd (dmaAbort d s) (dmaCtrlEnable d) = 0 ∧
    otherFields [dmaCtrlEnable d] s (dmaAbort d s) ∧
    (dmaState s d = 0 ∨ dmaState s d = 1 → samePart .dma s (dmaAbort d s)) ∧
    (dmaState s d ≠ 0 → dmaState s d ≠ 1 → (dmaOf (dmaAbort d s) d).aborting = true ∧
      (dmaOf (dmaAbort d s) d).msiDue = false ∧ (dmaOf (dmaAbort d s) d).desc = (dmaOf s d).desc) := by
  refine ⟨?_, ?_, fun h => by rw [dmaAbort_of_off h]; rfl, fun h0 h1 => ?_⟩
  · unfold dmaAbort
    split <;> exact rd_wr_same (dmaCtrlEnable d) ..
  · unfold dmaAbort
    split
    · refine .wr ?_ (by simp) 0
      exact (otherFields_refl _ s).of_regs rfl
    · exact (otherFields_refl _ s).wr (by simp) 0
  · rw [dmaAbort_of_on h0 h1, wr_dmaOf, dmaOf_modDma]
    exact ⟨rfl, rfl, rfl⟩

theorem tailWrite_idle {s : State} {d : Nat} (h : dmaState s d = 2) (v : Nat) :
    tailWrite d v s = dmaSettle d (wr (dmaTailTail d) v s) := if_pos h

theorem tailWrite_other {s : State} {d : Nat} (h : dmaState s d ≠ 2) (v : Nat) :
    tailWrite d v s = wr (dmaTailTail d) v s := if_neg h

theorem ringEmpty_tail (d v : Nat) (s : State) :
    ringEmpty (wr (dmaTailTail d) v s) d = (headOf s d == v % 2 ^ 16 % ringSize s d) := by
  have hlog : rd (wr (dmaTailTail d) v s) (dmaCtrlRingLog2 d) = rd s (dmaCtrlRingLog2 d) := rd_wr_page (by decide) ..
  have hhead : rd (wr (dmaTailTail d) v s) (dmaHeadHead d) = rd s (dmaHeadHead d) := rd_wr_page (by decide) ..
  unfold ringEmpty headOf ringSize
  rw [hlog, hhead, rd_wr_same]
  rfl

theorem tailWrite_spec (s : State) (d v : Nat) : rd (tailWrite d v s) (dmaTailTail d) = v % 2 ^ 16 ∧
    samePart .dma s (tailWrite d v s) ∧ otherFields [dmaTailTail d, dmaStatusState d] s (tailWrite d v s) ∧
    (dmaState s d ≠ 2 → dmaState (tailWrite d v s) d = dmaState s d) ∧
    (dmaState s d = 2 → dmaState (tailWrite d v s) d = (if headOf s d = v % 2 ^ 16 % ringSize s d then 2 else 3)) := by
  by_cases h : dmaState s d = 2
  · rw [tailWrite_idle h]
    refine ⟨(rd_wr_page (by decide) ..).trans (rd_wr_same (dmaTailTail d) ..), rfl,
      dmaSettle_otherFields (.wr (otherFields_refl _ s) (by simp) v) (by simp), fun hn => absurd h hn, fun _ => ?_⟩
    simp only [dmaState_dmaSettle, ringEmpty_tail, beq_iff_eq]
  · rw [tailWrite_other h]
    exact ⟨rd_wr_same (dmaTailTail d) .., rfl, .wr (otherFields_refl _ s) (by simp) v,
      fun _ => rd_wr_page (by decide) .., fun he => absurd he h⟩

/-- The state that a pause leads to. -/
def stateOnPause (s : State) (d : Nat) : Nat :=
  if dmaState s d = 3 then 4 else if dmaState s d = 2 then 5 else dmaState s d

theorem dmaPause_spec {d : Nat} (hpriv : dmaPriv d = false) (s : State) : rd (dmaPause d s) (dmaCtrlPause d) = 1 ∧
    samePart .dma s (dmaPause d s) ∧ otherFields [dmaCtrlPause d, dmaStatusState d] s (dmaPause d s) ∧
    dmaState (dmaPause d s) d = stateOnPause s d := by
  have hset : rd (wr (dmaCtrlPause d) 1 s) (dmaCtrlPause d) = 1 := rd_wr_same (dmaCtrlPause d) 1 s
  have hother : otherFields [dmaCtrlPause d, dmaStatusState d] s (wr (dmaCtrlPause d) 1 s) :=
    .wr (otherFields_refl _ s) (by simp) 1
  rw [show dmaPause d s = if dmaState s d = 3 then setDmaState d 4 (wr (dmaCtrlPause d) 1 s) else if dmaState s d = 2
    then setDmaState d 5 (wr (dmaCtrlPause d) 1 s) else wr (dmaCtrlPause d) 1 s from if_neg (by simp [hpriv]), stateOnPause]
  split
  · exact ⟨(rd_wr_page (by decide) ..).trans hset, rfl, .wr hother (by simp) 4, dmaState_setDmaState (by decide) d _⟩
  · split
    · exact ⟨(rd_wr_page (by decide) ..).trans hset, rfl, .wr hother (by simp) 5, dmaState_setDmaState (by decide) d _⟩
    · exact ⟨hset, rfl, hother, rd_wr_page (by decide) ..⟩

/-- The state that the end of a pause leads to. -/
def stateOnGo (s : State) (d : Nat) : Nat :=
  if dmaState s d = 4 ∨ dmaState s d = 5 then (if (dmaOf s d).desc.isSome then 3 else if ringEmpty s d then 2 else 3)
  else dmaState s d

theorem dmaPauseClear_spec {d : Nat} (hpriv : dmaPriv d = false) (s : State) : rd (dmaPauseClear d s) (dmaCtrlPause d) = 0 ∧
    samePart .dma s (dmaPauseClear d s) ∧ otherFields [dmaCtrlPause d, dmaStatusState d] s (dmaPauseClear d s) ∧
    dmaState (dmaPauseClear d s) d = stateOnGo s d := by
  have hset : rd (wr (dmaCtrlPause d) 0 s) (dmaCtrlPause d) = 0 := rd_wr_same (dmaCtrlPause d) 0 s
  have hother : otherFields [dmaCtrlPause d, dmaStatusState d] s (wr (dmaCtrlPause d) 0 s) :=
    .wr (otherFields_refl _ s) (by simp) 0
  have hring : ringEmpty (wr (dmaCtrlPause d) 0 s) d = ringEmpty s d :=
    ringEmpty_of_rd (rd_wr_page (by decide) ..) (rd_wr_page (by decide) ..) (rd_wr_page (by decide) ..)
  rw [show dmaPauseClear d s = if dmaState s d = 4 ∨ dmaState s d = 5 then (if (dmaOf s d).desc.isSome
    then setDmaState d 3 (wr (dmaCtrlPause d) 0 s) else dmaSettle d (wr (dmaCtrlPause d) 0 s)) else wr (dmaCtrlPause d) 0 s
    from if_neg (by simp [hpriv]), stateOnGo]
  split
  · split
    · exact ⟨(rd_wr_page (by decide) ..).trans hset, rfl, .wr hother (by simp) 3, dmaState_setDmaState (by decide) d _⟩
    · refine ⟨(rd_wr_page (by decide) ..).trans hset, rfl, dmaSettle_otherFields hother (by simp), ?_⟩
      rw [dmaState_dmaSettle, hring]
  · exact ⟨hset, rfl, hother, rd_wr_page (by decide) ..⟩

/-! ### Resumes of a halted privileged channel (R302) -/

theorem resumeRetry_of_run {d : Nat} {s : State} (hpriv : dmaPriv d = true) (hst : dmaState s d = 6)
    (hstop : rdB s (dmaCtrlStop d) = false) :
    resumeRetry d s = setDmaState d 3 (modDma d (fun r => { r with bad := none }) s) := by
  simp only [resumeRetry, hpriv, hst, hstop, and_self, if_true, Bool.false_eq_true, if_false]

theorem resumeMarkBad_of_run {d : Nat} {q : Desc} {s : State} (hpriv : dmaPriv d = true) (hst : dmaState s d = 6)
    (hstop : rdB s (dmaCtrlStop d) = false) (hdesc : (dmaOf s d).desc = some q) :
    resumeMarkBad d s = finishDesc d q (setDmaState d 3 s) := by
  simp only [resumeMarkBad, hpriv, hst, hstop, hdesc, and_self, if_true, Bool.false_eq_true, if_false]

/-- A channel whose descriptor is dropped and whose drain is over. -/
def chEnded (d : Nat) (f : Fld) (s : State) : State :=
  setDmaState d 1 (wr f 0 (wr (dmaCtrlStop d) 0
    (modDma d (fun r => { msis := r.msis, bytes := r.bytes, total := r.total }) (dmaEndReads d s))))

theorem resumeDisable_eq {d : Nat} {s : State} (hpriv : dmaPriv d = true) (hst : dmaState s d = 6) :
    resumeDisable d s = chEnded d (dmaCtrlEnable d) s := if_pos ⟨hpriv, hst⟩

theorem dmaAbortDone_eq {d : Nat} {s : State} (h : (dmaOf s d).aborting = true) :
    dmaAbortDone d s = chEnded d (dmaCtrlPause d) s := if_pos h

theorem dmaOf_chEnded (d : Nat) (f : Fld) (s : State) : dmaOf (chEnded d f s) d =
    { msis := (dmaOf s d).msis, bytes := (dmaOf s d).bytes, total := (dmaOf s d).total } := by
  refine (dmaOf_modDma d (fun r => { msis := r.msis, bytes := r.bytes, total := r.total }) (dmaEndReads d s)).trans ?_
  rw [dmaOf_dmaEndReads]

theorem dmaOf_chEnded_ne {d k : Nat} (h : k ≠ d) (f : Fld) (s : State) : dmaOf (chEnded d f s) k = dmaOf s k :=
  (dmaOf_modDma_ne h (fun r => { msis := r.msis, bytes := r.bytes, total := r.total }) (dmaEndReads d s)).trans
    (dmaOf_dmaEndReads_ne h s)

theorem dmaState_chEnded (d : Nat) (f : Fld) (s : State) : dmaState (chEnded d f s) d = 1 :=
  dmaState_setDmaState (by decide) d _

/-! ### A descriptor ends -/

/-- A channel that goes on settles when the status of its descriptor is written. -/
theorem finishDesc_of_going {d : Nat} {q : Desc} {s s0 s1 : State} {old : Option Nat} (hstate : dmaState s d = 3)
    (hneeds : dmaNeeds d (statusWrite q (dmaOf s d).bad) s = (s0, some old))
    (hwrite : dmaWrite d (statusWrite q (dmaOf s d).bad) old (dmaEndReads d s0) = (s1, none)) :
    finishDesc d q s = dmaSettle d (headPast d q s s1) := by
  rw [statusWrite] at hneeds hwrite
  simp only [finishDesc, hneeds, hwrite, hstate, headPast]
  rfl

theorem finishDesc_of_waiting {d : Nat} {q : Desc} {s s0 : State}
    (hneeds : dmaNeeds d (statusWrite q (dmaOf s d).bad) s = (s0, none)) : finishDesc d q s = s0 := by
  rw [statusWrite] at hneeds
  simp only [finishDesc, hneeds]

theorem dmaOf_headPast (d : Nat) (q : Desc) (s s1 : State) : dmaOf (headPast d q s s1) d =
    { dmaOf s1 d with desc := none, done := 0, bad := none, msiDue := (dmaOf s1 d).msiDue || q.irq } := by
  rw [headPast, wr_dmaOf, dmaOf_modDma]
  split <;> rfl

theorem rd_headPast_bad (d : Nat) (q : Desc) (s s1 : State) : rd (headPast d q s s1) (dmaStatusBadCount d) =
    if (dmaOf s d).bad.isSome then min (rd s1 (dmaStatusBadCount d) + 1) (2 ^ 32 - 1) else rd s1 (dmaStatusBadCount d) := by
  refine Eq.trans (b := rd (if (dmaOf s d).bad.isSome then bump (dmaStatusBadCount d) 1 s1 else s1) (dmaStatusBadCount d))
    (rd_wr_page (by decide) ..) ?_
  split
  · exact rd_bump_same (dmaStatusBadCount d) 1 s1
  · rfl

theorem descComplete_of_due {d : Nat} {q : Desc} {s : State} (hdesc : (dmaOf s d).desc = some q)
    (haborting : (dmaOf s d).aborting = false) (hst : dmaState s d = 3)
    (hended : (dmaOf s d).done = q.len ∨ (dmaOf s d).bad ≠ none) (hwaits : dmaWaits s d = false) :
    descComplete d s = finishDesc d q s := by
  rw [← Option.isSome_iff_ne_none] at hended
  simp [descComplete, hdesc, haborting, hst, hwaits, hended]

theorem descComplete_unended {d : Nat} {q : Desc} {s : State} (hdesc : (dmaOf s d).desc = some q)
    (hdone : (dmaOf s d).done ≠ q.len) (hbad : (dmaOf s d).bad = none) : descComplete d s = s := by
  simp [descComplete, hdesc, hdone, hbad]

theorem descComplete_none {d : Nat} {s : State} (hdesc : (dmaOf s d).desc = none) : descComplete d s = s := by
  simp [descComplete, hdesc]

theorem descComplete_of_waits {d : Nat} {s : State} (hwaits : dmaWaits s d = true) : descComplete d s = s := by
  unfold descComplete
  cases hdesc : (dmaOf s d).desc <;> simp [hdesc, hwaits]

theorem dmaPauseDone_of_kept {d : Nat} {s : State} (hst : dmaState s d = 4) (h : descComplete d s = s) :
    dmaPauseDone d s = setDmaState d 5 s :=
  (if_pos hst).trans (by rw [h])

/-! ### Fetches and reads (R297, R298) -/

theorem descFetched_wait {d : Nat} {far : FarRead} {s s1 : State} (hst : dmaState s d = 3) (hdesc : (dmaOf s d).desc = none)
    (hring : ringEmpty s d = false) (hab : (dmaOf s d).aborting = false) (hread : dmaRead d (descAt s d) 32 far s = (s1, .wait)) :
    descFetched d far s = s1 := by
  refine (if_pos ⟨hst, by simp [hdesc], hring, hab⟩).trans ?_
  rw [hread]

theorem descFetched_err {d k : Nat} {far : FarRead} {s s1 : State} (hst : dmaState s d = 3) (hdesc : (dmaOf s d).desc = none)
    (hring : ringEmpty s d = false) (hab : (dmaOf s d).aborting = false) (hread : dmaRead d (descAt s d) 32 far s = (s1, .err k)) :
    descFetched d far s = dmaRingFault d k 0 (dmaEndReads d s1) := by
  refine (if_pos ⟨hst, by simp [hdesc], hring, hab⟩).trans ?_
  rw [hread]

/-- The channel once its descriptor q has been fetched. -/
def chFetched (d : Nat) (q : Desc) (s : State) : State :=
  wr (dmaCurSrcSrc d) q.src (wr (dmaCurDstDst d) q.dst (wr (dmaCurRemainRemain d) (min q.len (2 ^ 31 - 1))
    (modDma d (fun r => { r with desc := some q, done := 0, bad := if badDesc q then some (6, 0, 0) else none })
      (dmaEndReads d s))))

theorem descFetched_val {d x : Nat} {far : FarRead} {s s1 : State} (hst : dmaState s d = 3) (hdesc : (dmaOf s d).desc = none)
    (hring : ringEmpty s d = false) (hab : (dmaOf s d).aborting = false) (hread : dmaRead d (descAt s d) 32 far s = (s1, .val x)) :
    descFetched d far s = chFetched d (decodeDesc (descAt s d) x) s1 := by
  refine (if_pos ⟨hst, by simp [hdesc], hring, hab⟩).trans ?_
  rw [hread]
  rfl

theorem dmaOf_chFetched (d : Nat) (q : Desc) (s : State) : (dmaOf (chFetched d q s) d).desc = some q ∧
    (dmaOf (chFetched d q s) d).done = 0 ∧
    (dmaOf (chFetched d q s) d).bad = (if badDesc q then some (6, 0, 0) else none) := by
  rw [chFetched, wr_dmaOf, wr_dmaOf, wr_dmaOf, dmaOf_modDma]
  exact ⟨rfl, rfl, rfl⟩

theorem rd_chFetched (d : Nat) (q : Desc) (s : State) : rd (chFetched d q s) (dmaCurSrcSrc d) = q.src % 2 ^ 64 ∧
    rd (chFetched d q s) (dmaCurDstDst d) = q.dst % 2 ^ 64 :=
  ⟨rd_wr_same (dmaCurSrcSrc d) .., (rd_wr_page (by decide) ..).trans (rd_wr_same (dmaCurDstDst d) ..)⟩

/-- A read that leaves this device without being under way finds no route, or goes out. -/
theorem dmaAway_new {d pa n to' a : Nat} {s : State} (hfar : (dmaOf s d).far = []) (hstuck : dmaStuck s d to' a 3 n = false) :
    dmaAway d pa n to' a s = if noRoute s pa then (bump fabEventsErrors 1 s, .err 4) else
      (sendOut (dmaOut s d to' a 3 n 0 (.dmaRd d pa n)) (modDma d (fun r => { r with far := r.far ++ [{ addr := pa, n := n }] }) s),
        .wait) := by
  unfold dmaAway
  rw [hfar, hstuck]
  rfl

theorem dmaAway_noRoute {d pa n to' a : Nat} {s : State} (hfar : (dmaOf s d).far = []) (hroute : noRoute s pa = true) :
    dmaAway d pa n to' a s = (bump fabEventsErrors 1 s, .err 4) := by
  unfold dmaAway
  rw [hfar, hroute]
  rfl

theorem dmaAway_answered {d pa n to' a k v : Nat} {s : State} (hfar : (dmaOf s d).far = [⟨pa, n, some (k, v)⟩]) :
    dmaAway d pa n to' a s = (s, if k = 0 then .val (v % 2 ^ (8 * n)) else .err k) := by
  unfold dmaAway
  rw [hfar]
  simp only [List.find?, beq_self_eq_true, Bool.and_self]
  cases k <;> rfl

/-- A line without a copy on this device is read elsewhere. -/
theorem dmaLine_far {d pa tag : Nat} {s : State} (hnc : ncClear s tag (lineOf pa) false = true)
    (hown : ownDram s (lineOf pa) = false) (hcached : lineCached s (homeSlice s tag (lineOf pa)) (lineOf pa) = false) :
    dmaLine d pa tag s = (s, .far) := by
  simp [dmaLine, hnc, hown, hcached]

theorem dmaRead_far {d pa n to' a : Nat} {far : FarRead} {s : State} (hat : dmaAt s d pa n = .far to' a)
    (hnc : ncClear s (dmaTag s d) (lineOf pa) false = true) (hown : ownDram s (lineOf pa) = false)
    (hcached : lineCached s (homeSlice s (dmaTag s d) (lineOf pa)) (lineOf pa) = false) :
    dmaRead d pa n far s = dmaAway d pa n to' a s := by
  unfold dmaRead
  rw [hat]
  dsimp only
  split
  · rfl
  · rw [dmaLine_far hnc hown hcached]

theorem dmaRead_away {d pa n to' a : Nat} {far : FarRead} {s : State} (hat : dmaAt s d pa n = .far to' a)
    (hfar : (dmaOf s d).far ≠ []) : dmaRead d pa n far s = dmaAway d pa n to' a s := by
  unfold dmaRead
  rw [hat]
  exact if_pos (Or.inr hfar)

theorem sendPkt_outs (p : Pkt) (s : State) : (sendPkt p s).outs = s.outs :=
  (SentFrom.sendPkt p s).part State.outs (fun _ _ _ => rfl)

theorem outs_sendOut (o : Out) (s : State) :
    (sendOut o s).outs = s.outs ++ [{ o with xid := s.nextXid, sent := beat s, first := beat s }] := by
  unfold sendOut
  simp only []
  split
  · rw [sendPkt_outs]
  · rfl

section
variable {d n : Nat} {far : FarRead} {q : Desc} {s s0 s1 s2 : State}

/-- A descriptor whose next bytes are to be read. -/
def Reading (s : State) (d : Nat) (q : Desc) : Prop :=
  (dmaOf s d).desc = some q ∧ (dmaOf s d).bad = none ∧ (dmaOf s d).aborting = false ∧ (dmaOf s d).done < q.len ∧
    (dmaState s d = 3 ∨ dmaState s d = 4 ∨ dmaState s d = 8)

/-- Where the next read begins, and how many bytes it takes of those that have arrived. -/
def readFrom (s : State) (d : Nat) (q : Desc) : Nat := dmaAddr q.src q.srcLog (dmaOf s d).done
def chunkLen (s : State) (d n : Nat) (q : Desc) : Nat :=
  min (min n (q.len - (dmaOf s d).done)) (64 - readFrom s d q % 64)

/-- The writes of the bytes read. -/
def readWrites (s : State) (d n x : Nat) (q : Desc) : List DmaWr := dmaChunks q 3 (dmaOf s d).done (chunkLen s d n q) x

/-- The channel once the bytes up to i are written. -/
def chMoved (d i : Nat) (q : Desc) (s s2 : State) : State :=
  wr (dmaCurSrcSrc d) (dmaAddr q.src q.srcLog i) (wr (dmaCurDstDst d) (dmaAddr q.dst q.dstLog i)
    (wr (dmaCurRemainRemain d) (q.len - i) (modDma d (fun c => { c with
      done := i, bytes := c.bytes + (i - (dmaOf s d).done), total := c.total + (i - (dmaOf s d).done) }) s2)))

/-- What becomes of the read, once it has been answered. -/
def readGot (d n : Nat) (q : Desc) (s : State) (g : State × DmaGot) : State :=
  match g with
  | (s1, .wait) => s1
  | (s1, .err k) => dmaError d k 0 (dmaOf s d).done (readFrom s d q) false (dmaEndReads d s1)
  | (s1, .val x) => match dmaPrepare d (readWrites s d n x q) s1 with
    | (s2, none) => s2
    | (s2, some olds) =>
      let (s3, i, e) := dmaSpread d ((readWrites s d n x q).zip olds) (dmaOf s d).done (dmaEndReads d s2)
      match e with
      | some k => dmaError d k 1 i (dmaAddr q.dst q.dstLog i) false (chMoved d i q s s3)
      | none => chMoved d i q s s3

theorem readReturn_eq (h : Reading s d q) :
    readReturn d n far s = readGot d n q s (dmaRead d (readFrom s d q) (chunkLen s d n q) far s) := by
  obtain ⟨hdesc, hbad, hab, hlt, hst⟩ := h
  have hrun : ¬ ((dmaOf s d).bad.isSome = true ∨ (dmaOf s d).aborting = true ∨ q.len ≤ (dmaOf s d).done ∨
      (dmaState s d ≠ 3 ∧ dmaState s d ≠ 4 ∧ dmaState s d ≠ 8)) := by
    rw [hbad, hab]
    rintro (h | h | h | ⟨h3, h4, h8⟩)
    · cases h
    · cases h
    · omega
    · omega
  unfold readReturn
  dsimp only
  rw [hdesc]
  exact (if_neg hrun).trans rfl

theorem readReturn_wait (h : Reading s d q) (hread : dmaRead d (readFrom s d q) (chunkLen s d n q) far s = (s1, .wait)) :
    readReturn d n far s = s1 := by
  rw [readReturn_eq h, hread]
  rfl

theorem readReturn_err {k : Nat} (h : Reading s d q)
    (hread : dmaRead d (readFrom s d q) (chunkLen s d n q) far s = (s1, .err k)) :
    readReturn d n far s = dmaError d k 0 (dmaOf s d).done (readFrom s d q) false (dmaEndReads d s1) := by
  rw [readReturn_eq h, hread]
  rfl

theorem readReturn_unprepared {x : Nat} (h : Reading s d q)
    (hread : dmaRead d (readFrom s d q) (chunkLen s d n q) far s = (s1, .val x))
    (hprep : dmaPrepare d (readWrites s d n x q) s1 = (s2, none)) : readReturn d n far s = s2 := by
  rw [readReturn_eq h, hread, readGot, hprep]

theorem readReturn_failed {x k j : Nat} {olds : List (Option Nat)} (h : Reading s d q)
    (hread : dmaRead d (readFrom s d q) (chunkLen s d n q) far s = (s1, .val x))
    (hprep : dmaPrepare d (readWrites s d n x q) s1 = (s0, some olds))
    (hspread : dmaSpread d ((readWrites s d n x q).zip olds) (dmaOf s d).done (dmaEndReads d s0) = (s2, k, some j)) :
    readReturn d n far s = dmaError d j 1 k (dmaAddr q.dst q.dstLog k) false (chMoved d k q s s2) := by
  rw [readReturn_eq h, hread, readGot, hprep]
  dsimp only
  rw [hspread]

theorem readReturn_moved {x k : Nat} {olds : List (Option Nat)} (h : Reading s d q)
    (hread : dmaRead d (readFrom s d q) (chunkLen s d n q) far s = (s1, .val x))
    (hprep : dmaPrepare d (readWrites s d n x q) s1 = (s0, some olds))
    (hspread : dmaSpread d ((readWrites s d n x q).zip olds) (dmaOf s d).done (dmaEndReads d s0) = (s2, k, none)) :
    readReturn d n far s = chMoved d k q s s2 := by
  rw [readReturn_eq h, hread, readGot, hprep]
  dsimp only
  rw [hspread]

theorem dmaOf_chMoved (k : Nat) : dmaOf (chMoved d k q s s2) d = { dmaOf s2 d with
    done := k, bytes := (dmaOf s2 d).bytes + (k - (dmaOf s d).done), total := (dmaOf s2 d).total + (k - (dmaOf s d).done) } := by
  rw [chMoved, wr_dmaOf, wr_dmaOf, wr_dmaOf, dmaOf_modDma]

theorem rd_chMoved (k : Nat) : rd (chMoved d k q s s2) (dmaCurRemainRemain d) = (q.len - k) % 2 ^ 31 ∧
    rd (chMoved d k q s s2) (dmaCurSrcSrc d) = dmaAddr q.src q.srcLog k % 2 ^ 64 ∧
    rd (chMoved d k q s s2) (dmaCurDstDst d) = dmaAddr q.dst q.dstLog k % 2 ^ 64 :=
  ⟨(rd_wr_page (by decide) ..).trans ((rd_wr_page (by decide) ..).trans (rd_wr_same (dmaCurRemainRemain d) ..)),
   rd_wr_same (dmaCurSrcSrc d) .., (rd_wr_page (by decide) ..).trans (rd_wr_same (dmaCurDstDst d) ..)⟩

end

/-- Byte i of a region that wraps around 2 ^ k bytes (R298). -/
theorem dmaAddr_wraps (a k i : Nat) : (k = 0 → dmaAddr a k i = a + i) ∧ (k ≠ 0 → dmaAddr a k i / 2 ^ k = a / 2 ^ k ∧
    dmaAddr a k i % 2 ^ k = (a + i) % 2 ^ k) := by
  have hpos : 0 < 2 ^ k := Nat.two_pow_pos k
  refine ⟨fun h => if_pos h, fun h => ?_⟩
  rw [dmaAddr, if_neg h, Nat.mul_comm]
  exact ⟨by rw [Nat.mul_add_div hpos, Nat.div_eq_of_lt (Nat.mod_lt _ hpos), Nat.add_zero],
    by rw [Nat.mul_add_mod, Nat.mod_mod]⟩

/-! ### Errors from elsewhere -/

theorem refuseAns_dma (src pa tag : Nat) (s : State) : (refuseAns src pa tag s).dma = s.dma :=
  (refuseAns_keeps src pa tag s (keeps_refl _ s) (Nat.or_self _)).part .dma rfl

theorem refuseAns_outs (src pa tag : Nat) (s : State) : (refuseAns src pa tag s).outs = s.outs :=
  (refuseAns_keeps src pa tag s (keeps_refl _ s) (Nat.or_self _)).part .outs rfl

theorem takeAnswer_dma {o : Out} {d off : Nat} (h : o.origin = .dma d off) (k : Nat) (hk : k ≠ 0) (s : State) :
    takeAnswer o (.err k) s = dmaLost d k off { s with outs := s.outs.filter fun x => x.xid != o.xid } := by
  unfold takeAnswer
  rw [h]
  exact if_neg hk

theorem dmaLost_eq {d off : Nat} {q : Desc} {s : State} (k : Nat) (hoff : off ≠ statusOff) (hdesc : (dmaOf s d).desc = some q)
    (hbad : (dmaOf s d).bad = none) : dmaLost d k off s = dmaError d k 1 off (rd s (dmaCurDstDst d)) false s := by
  unfold dmaLost
  simp [hoff, hdesc, hbad]

/-- A write that its home has refused makes an ordinary channel's descriptor BAD (R301). -/
theorem errIn_dma {s : State} {d src xid off : Nat} {q : Desc} {o : Out} (hd : d < 64)
    (hdesc : (dmaOf s d).desc = some q) (hbad : (dmaOf s d).bad = none) (hout : outTo s src xid = some o)
    (horigin : o.origin = .dma d off) (hoff : off ≠ statusOff) :
    (dmaOf (errIn src xid s) d).bad = some (1, 1, off) ∧ rd (errIn src xid s) (dmaErrKind d) = 1 ∧
      rd (errIn src xid s) (dmaErrDir d) = 1 ∧ rd (errIn src xid s) (dmaErrRing d) = 0 ∧
      (errIn src xid s).outs = s.outs.filter (fun x => x.xid != o.xid) := by
  obtain ⟨y, heq, hdma, houts⟩ : ∃ y, errIn src xid s = sendAck src xid (takeAnswer o (.err 1) y) ∧ y.dma = s.dma ∧
      y.outs = s.outs := by
    unfold errIn answered
    rw [hout]
    dsimp only
    split
    · exact ⟨s, rfl, rfl, rfl⟩
    · exact ⟨_, rfl, refuseAns_dma .., refuseAns_outs ..⟩
  have hch : dmaOf y d = dmaOf s d := by rw [dmaOf, dmaOf, hdma]
  rw [heq, takeAnswer_dma horigin 1 (by decide)]
  generalize hz : ({ y with outs := y.outs.filter fun x => x.xid != o.xid } : State) = z
  have hzch : dmaOf z d = dmaOf s d := by rw [← hz, ← hch]; rfl
  have hzouts : z.outs = s.outs.filter fun x => x.xid != o.xid := by rw [← hz, ← houts]
  rw [dmaLost_eq 1 hoff (by rw [hzch, hdesc]) (by rw [hzch, hbad])]
  generalize hw : dmaError d 1 1 off (rd z (dmaCurDstDst d)) false z = w
  have hwbad : (dmaOf w d).bad = some (1, 1, off) := by rw [← hw, dmaOf_dmaError]
  obtain ⟨hkind, hdir, hring, -⟩ := dmaError_latches hd 1 1 off (rd z (dmaCurDstDst d)) false z
  rw [hw] at hkind hdir hring
  have hwouts : w.outs = z.outs := by
    rw [← hw]
    exact (dmaError_keeps d 1 1 off _ false z (keeps_refl _ z) (Nat.or_self _)).part .outs rfl
  have hsent := SentFrom.sendPkt { dest := src, src := 0, kind := 0x20, op := 4, xid := xid } w
  have hsch : dmaOf (sendAck src xid w) d = dmaOf w d := hsent.part (dmaOf · d) (fun _ _ _ => rfl)
  have hsrd : ∀ f, rd (sendAck src xid w) f = rd w f := fun f => hsent.part (rd · f) (fun _ _ _ => rfl)
  have hsouts : (sendAck src xid w).outs = w.outs := hsent.part State.outs (fun _ _ _ => rfl)
  exact ⟨by rw [hsch, hwbad], by rw [hsrd, hkind], by rw [hsrd, hdir], by rw [hsrd, hring]; rfl, by rw [hsouts, hwouts, hzouts]⟩

/-! ### dma.assign and dma.status (R295, R296, R310) -/

/-- The answer of dma.assign. -/
def assignAnswer (e k x o b : Nat) : Bytes := mkBytes [(0, 1, e), (1, 1, k), (2, 2, x), (4, 1, o), (8, 8, b)]

/-- dma.assign of channel k of engine e to tenancy x. -/
theorem dmaAssign_started {i e k x : Nat} {c : Bytes} {s : State} (he : e = min 1 (arg c 0 1)) (hk : k = min 27 (arg c 1 1))
    (hx : x = if 1 ≤ i ∧ i ≤ 256 then 0 else min 256 (arg c 2 2)) {cl : Nat}
    (hcl : cl = chg (arg c 0 1) e + chg (arg c 1 1) k + chg (arg c 2 2) x) :
    dmaAssign i c (started i s) =
      if 1 ≤ i ∧ i ≤ 256 ∧ rd s (dmaStatusOwner (e * 32 + k)) ≠ i then stageDone i cl (assignAnswer e k x 4 0) (started i s)
      else if dmaState s (e * 32 + k) ≠ 1 then stageDone i cl (assignAnswer e k x 1 0) (started i s)
      else if x ≠ 0 ∧ ((tenantOf s x).st = .free ∨ (tenantOf s x).st = .closing) then
        stageDone i cl (assignAnswer e k x 2 0) (started i s)
      else if isSealed s (rd s (dmaStatusOwner (e * 32 + k))) ∧ rd s (dmaStatusOwner (e * 32 + k)) ≠ x ∧
          i ≠ rd s (dmaStatusOwner (e * 32 + k)) then stageDone i cl (assignAnswer e k x 3 0) (started i s)
      else addStep i (beat s + 1) (.stage i cl (assignAnswer e k x 0 (beat s + 1)))
        (addStep i (beat s + 1) (.dmaOwner (e * 32 + k) x) (started i s)) := by
  subst he hk hcl hx
  rfl

theorem dma_stageDone (i cl : Nat) (data : Bytes) (s : State) : (stageDone i cl data s).dma = s.dma :=
  stageDone_keeps_part State.dma setMbx_dma wr_dma i cl data s

theorem dmaAssign_spec {i e k x cl : Nat} {c : Bytes} {s : State} (he : e = min 1 (arg c 0 1)) (hk : k = min 27 (arg c 1 1))
    (hx : x = if 1 ≤ i ∧ i ≤ 256 then 0 else min 256 (arg c 2 2))
    (hcl : cl = chg (arg c 0 1) e + chg (arg c 1 1) k + chg (arg c 2 2) x) :
    (dmaAssign i c (started i s)).dma = s.dma ∧
    (1 ≤ i → i ≤ 256 → rd s (dmaStatusOwner (e * 32 + k)) ≠ i →
      doneIn s (dmaAssign i c (started i s)) i cl (assignAnswer e k x 4 0)) ∧
    (i = 0 ∨ 256 < i ∨ rd s (dmaStatusOwner (e * 32 + k)) = i → dmaState s (e * 32 + k) ≠ 1 →
      doneIn s (dmaAssign i c (started i s)) i cl (assignAnswer e k x 1 0)) ∧
    (i = 0 ∨ 256 < i ∨ rd s (dmaStatusOwner (e * 32 + k)) = i → dmaState s (e * 32 + k) = 1 →
      x = 0 ∨ (tenantOf s x).st = .opened → isSealed s (rd s (dmaStatusOwner (e * 32 + k))) = false →
      goesOn (dmaAssign i c (started i s)) i ∧ (dmaAssign i c (started i s)).journal = s.journal ++
        [⟨i, beat s + 1, .dmaOwner (e * 32 + k) x⟩, ⟨i, beat s + 1, .stage i cl (assignAnswer e k x 0 (beat s + 1))⟩]) := by
  rw [dmaAssign_started he hk hx hcl]
  generalize e * 32 + k = d
  have hown : i = 0 ∨ 256 < i ∨ rd s (dmaStatusOwner d) = i → ¬ (1 ≤ i ∧ i ≤ 256 ∧ rd s (dmaStatusOwner d) ≠ i) := by
    rintro (h | h | h) ⟨h1, h2, h3⟩
    · omega
    · omega
    · exact h3 h
  refine ⟨?_, fun h1 h2 h3 => ?_, fun h hst => ?_, fun h hst hx hseal => ?_⟩
  · split
    · exact dma_stageDone ..
    · split
      · exact dma_stageDone ..
      · split
        · exact dma_stageDone ..
        · split
          · exact dma_stageDone ..
          · rfl
  · rw [if_pos ⟨h1, h2, h3⟩]
    exact doneIn_started s i _ _
  · rw [if_neg (hown h), if_pos hst]
    exact doneIn_started s i _ _
  · have hopen : ¬ (x ≠ 0 ∧ ((tenantOf s x).st = .free ∨ (tenantOf s x).st = .closing)) := by
      rintro ⟨h0, h⟩
      rcases hx with hx | hx
      · exact h0 hx
      · rw [hx] at h
        rcases h with h | h <;> cases h
    rw [if_neg (hown h), if_neg (not_not.2 hst), if_neg hopen, if_neg (by simp [hseal])]
    refine ⟨goesOn_of_mbx (goesOn_started i s) rfl, ?_⟩
    rw [addStep_journal, addStep_journal, List.append_assoc]
    rfl

/-- The answer of dma.status on a channel that the caller may see. -/
def statusAnswer (s : State) (e k d : Nat) : Bytes :=
  mkBytes [(0, 1, e), (1, 1, k), (2, 1, rd s (dmaSnapStateState d)), (4, 2, rd s (dmaStatusOwner d)),
    (6, 2, rd s (dmaSnapStateHead d)), (8, 4, rd s (dmaStatusBadCount d)), (0x10, 8, rd s (dmaSnapTotalTotal d)),
    (0x18, 8, rd s (dmaSnapBeatBeat d))]

theorem dmaStatusCmd_started {i e k cl : Nat} {c : Bytes} {s : State} (he : e = min 1 (arg c 0 1)) (hk : k = min 31 (arg c 1 1))
    (hcl : cl = chg (arg c 0 1) e + chg (arg c 1 1) k) : dmaStatusCmd i c (started i s) =
      if 1 ≤ i ∧ i ≤ 256 ∧ (dmaPriv (e * 32 + k) ∨ rd s (dmaStatusOwner (e * 32 + k)) ≠ i) then
        stageDone i cl (mkBytes [(0, 1, e), (1, 1, k), (2, 1, 0xFF)]) (started i s)
      else stageDone i cl (statusAnswer s e k (e * 32 + k)) (started i s) := by
  subst he hk hcl
  rfl

/-! ### The statement -/

/-- What a party that reaches the channel's page does there. -/
theorem dmaPage_spec {s : State} {d tag : Nat} (hd : d < 64) (hreach : dmaReach s tag d = true) :
    (dmaState s d = 1 → rdB s (pwrDomainFenced (180 + dmaTile d)) = false → ∃ t, exec (.dmaEnable tag d) s = .next t ∧
        dmaState t d = (if ringEmpty s d then 2 else 3) ∧ rd t (dmaCtrlEnable d) = 1 ∧ (dmaOf t d).desc = none ∧
        (dmaOf t d).total = 0 ∧ (∀ k, k ≠ d → dmaOf t k = dmaOf s k) ∧
        otherFields [dmaStatusState d, dmaCtrlEnable d] s t) ∧
      (dmaState s d ≠ 1 ∨ rdB s (pwrDomainFenced (180 + dmaTile d)) = true → exec (.dmaEnable tag d) s = .next s) ∧
      (∃ t, exec (.dmaAbort tag d) s = .next t ∧ rd t (dmaCtrlEnable d) = 0 ∧ otherFields [dmaCtrlEnable d] s t ∧
        (dmaState s d = 0 ∨ dmaState s d = 1 → samePart .dma s t) ∧
        (dmaState s d ≠ 0 → dmaState s d ≠ 1 → (dmaOf t d).aborting = true ∧ (dmaOf t d).msiDue = false ∧
          (dmaOf t d).desc = (dmaOf s d).desc)) ∧
      (∀ v, ∃ t, exec (.dmaTailWrite tag d v) s = .next t ∧ rd t (dmaTailTail d) = v % 2 ^ 16 ∧ samePart .dma s t ∧
        otherFields [dmaTailTail d, dmaStatusState d] s t ∧
        (dmaState s d ≠ 2 → dmaState t d = dmaState s d) ∧
        (dmaState s d = 2 → dmaState t d = (if headOf s d = v % 2 ^ 16 % ringSize s d then 2 else 3))) := by
  have hby := fun off f => dmaBy_of_dmaReach (f := f) hd hreach off
  refine ⟨fun hst hf => ⟨_, congrArg Host.Outcome.next (hby 0 _), dmaEnable_spec hst hf⟩,
    fun h => congrArg Host.Outcome.next ((hby 0 _).trans (dmaEnable_idle h)),
    ⟨_, congrArg Host.Outcome.next (hby 0 _), dmaAbort_spec s d⟩,
    fun v => ⟨_, congrArg Host.Outcome.next (hby 0x20 _), tailWrite_spec s d v⟩⟩

/-- An ordinary channel pauses, and has neither a stop nor a resume. -/
theorem dmaPage_ordinary {s : State} {d tag : Nat} (hd : d < 64) (hreach : dmaReach s tag d = true) (hpriv : dmaPriv d = false) :
    (∃ t, exec (.dmaPauseSet tag d) s = .next t ∧ rd t (dmaCtrlPause d) = 1 ∧ samePart .dma s t ∧
          otherFields [dmaCtrlPause d, dmaStatusState d] s t ∧
          (dmaState s d = 3 → dmaState t d = 4) ∧ (dmaState s d = 2 → dmaState t d = 5) ∧
          (dmaState s d ≠ 2 → dmaState s d ≠ 3 → dmaState t d = dmaState s d)) ∧
        (∃ t, exec (.dmaPauseClear tag d) s = .next t ∧ rd t (dmaCtrlPause d) = 0 ∧ samePart .dma s t ∧
          otherFields [dmaCtrlPause d, dmaStatusState d] s t ∧
          (dmaState s d = 4 ∨ dmaState s d = 5 → (dmaOf s d).desc ≠ none → dmaState t d = 3) ∧
          (dmaState s d = 4 ∨ dmaState s d = 5 → (dmaOf s d).desc = none →
            dmaState t d = (if ringEmpty s d then 2 else 3)) ∧
          (dmaState s d ≠ 4 → dmaState s d ≠ 5 → dmaState t d = dmaState s d)) ∧
        exec (.dmaStop tag d) s = .next s ∧ exec (.dmaResumeRetry tag d) s = .next s := by
  have hby := fun f => dmaBy_of_dmaReach (f := f) hd hreach 0
  obtain ⟨hp, hpdma, hpregs, hpst⟩ := dmaPause_spec hpriv s
  obtain ⟨hc, hcdma, hcregs, hcst⟩ := dmaPauseClear_spec hpriv s
  refine ⟨⟨_, congrArg Host.Outcome.next (hby _), hp, hpdma, hpregs, fun h => ?_, fun h => ?_, fun h2 h3 => ?_⟩,
    ⟨_, congrArg Host.Outcome.next (hby _), hc, hcdma, hcregs, fun h hq => ?_, fun h hq => ?_, fun h4 h5 => ?_⟩,
    congrArg Host.Outcome.next ((hby _).trans (if_neg (by simp [hpriv]))),
    congrArg Host.Outcome.next ((hby _).trans (if_neg (by simp [hpriv])))⟩
  · rw [hpst, stateOnPause, if_pos h]
  · rw [hpst, stateOnPause, h]
    rfl
  · rw [hpst, stateOnPause, if_neg h3, if_neg h2]
  · rw [hcst, stateOnGo, if_pos h, if_pos (Option.isSome_iff_ne_none.2 hq)]
  · rw [hcst, stateOnGo, if_pos h, hq]
    rfl
  · rw [hcst, stateOnGo, if_neg (by omega)]

/-- A halted privileged channel resumes. -/
theorem dmaPage_halted {s : State} {d tag : Nat} (hd : d < 64) (hreach : dmaReach s tag d = true) (hpriv : dmaPriv d = true)
    (hst : dmaState s d = 6) :
    (rdB s (dmaCtrlStop d) = false → ∃ t, exec (.dmaResumeRetry tag d) s = .next t ∧ dmaState t d = 3 ∧
          (dmaOf t d).bad = none ∧ (dmaOf t d).desc = (dmaOf s d).desc ∧ (dmaOf t d).done = (dmaOf s d).done) ∧
        (∃ t, exec (.dmaResumeDisable tag d) s = .next t ∧ dmaState t d = 1 ∧ rd t (dmaCtrlEnable d) = 0 ∧
          rd t (dmaCtrlStop d) = 0 ∧ rd t (dmaHeadHead d) = rd s (dmaHeadHead d) ∧ (dmaOf t d).desc = none) ∧
        (∀ q w s0, (dmaOf s d).desc = some q → rdB s (dmaCtrlStop d) = false → w = (⟨statusOff, q.at' + 0x18, 8, statusWord q (dmaOf s d).bad⟩ : DmaWr) →
          dmaNeeds d w (setDmaState d 3 s) = (s0, none) → exec (.dmaResumeMarkBad tag d) s = .next s0) ∧
        (∀ q w s0 old s1, (dmaOf s d).desc = some q → rdB s (dmaCtrlStop d) = false → w = (⟨statusOff, q.at' + 0x18, 8, statusWord q (dmaOf s d).bad⟩ : DmaWr) →
          dmaNeeds d w (setDmaState d 3 s) = (s0, some old) → dmaWrite d w old (dmaEndReads d s0) = (s1, none) →
          ∃ t, exec (.dmaResumeMarkBad tag d) s = .next t ∧ (dmaOf t d).desc = none ∧ (dmaOf t d).bad = none ∧
            rd t (dmaHeadHead d) = (headOf s d + 1) % ringSize s d % 2 ^ 16 ∧ samePart .mem s1 t) := by
  have hby := fun f => dmaBy_of_dmaReach (f := f) hd hreach 0
  have hrun : dmaState (setDmaState d 3 s) d = 3 := dmaState_setDmaState (by decide) d s
  have hhead : rd (setDmaState d 3 s) (dmaHeadHead d) = rd s (dmaHeadHead d) := rd_wr_page (by decide) ..
  have hlog : rd (setDmaState d 3 s) (dmaCtrlRingLog2 d) = rd s (dmaCtrlRingLog2 d) := rd_wr_page (by decide) ..
  refine ⟨fun hstop => ⟨_, congrArg Host.Outcome.next ((hby _).trans (resumeRetry_of_run hpriv hst hstop)),
      dmaState_setDmaState (by decide) d _, ?_⟩, ⟨_, congrArg Host.Outcome.next ((hby _).trans (resumeDisable_eq hpriv hst)),
      dmaState_chEnded .., (rd_wr_page (by decide) ..).trans (rd_wr_same (dmaCtrlEnable d) ..),
      (rd_wr_page (by decide) ..).trans ((rd_wr_page (by decide) ..).trans (rd_wr_same (dmaCtrlStop d) ..)),
      (rd_wr_page (by decide) ..).trans ((rd_wr_page (by decide) ..).trans (rd_wr_page (by decide) ..)), by rw [dmaOf_chEnded]⟩,
    ?_, ?_⟩
  · rw [setDmaState, wr_dmaOf, dmaOf_modDma]
    exact ⟨rfl, rfl, rfl⟩
  · rintro q w s0 hdesc hstop rfl hneeds
    exact congrArg Host.Outcome.next ((hby _).trans ((resumeMarkBad_of_run hpriv hst hstop hdesc).trans
      (finishDesc_of_waiting hneeds)))
  · rintro q w s0 old s1 hdesc hstop rfl hneeds hwrite
    refine ⟨_, congrArg Host.Outcome.next ((hby _).trans ((resumeMarkBad_of_run hpriv hst hstop hdesc).trans
      (finishDesc_of_going hrun hneeds hwrite))), ?_, ?_, ?_, headPast_mem d q _ s1⟩
    · rw [dmaSettle, setDmaState, wr_dmaOf, dmaOf_headPast]
    · rw [dmaSettle, setDmaState, wr_dmaOf, dmaOf_headPast]
    · rw [dmaSettle, rd_setDmaState_ne (dmaStatusState_ne_dmaHeadHead d).symm, rd_headPast_head, headOf, ringSize, hhead, hlog]
      rfl

/-- An abort ends with the writes in progress, and a pause with the drain. -/
theorem dmaDrains_spec {s : State} {d : Nat} :
    ((dmaOf s d).aborting = true → ∃ t, exec (.dmaAbortDone d) s = .next t ∧ dmaState t d = 1 ∧ rd t (dmaCtrlPause d) = 0 ∧
      rd t (dmaCtrlStop d) = 0 ∧ (dmaOf t d).aborting = false ∧ (dmaOf t d).desc = none ∧
      (∀ k, k ≠ d → dmaOf t k = dmaOf s k)) ∧
    ((dmaOf s d).aborting = false → exec (.dmaAbortDone d) s = .next s) ∧
    (dmaState s d = 4 → (dmaOf s d).desc = none → ∃ t, exec (.dmaPauseDone d) s = .next t ∧ dmaState t d = 5 ∧
      samePart .dma s t ∧ samePart .mem s t ∧ otherFields [dmaStatusState d] s t) ∧
    (∀ q, dmaState s d = 4 → (dmaOf s d).desc = some q → (dmaOf s d).done ≠ q.len → (dmaOf s d).bad = none →
      ∃ t, exec (.dmaPauseDone d) s = .next t ∧ dmaState t d = 5 ∧ samePart .dma s t ∧ samePart .mem s t ∧
        otherFields [dmaStatusState d] s t) ∧
    (dmaState s d ≠ 4 → exec (.dmaPauseDone d) s = .next s) := by
  have hpaused : dmaState (setDmaState d 5 s) d = 5 ∧ samePart .dma s (setDmaState d 5 s) ∧
      samePart .mem s (setDmaState d 5 s) ∧ otherFields [dmaStatusState d] s (setDmaState d 5 s) :=
    ⟨dmaState_setDmaState (by decide) d s, rfl, rfl, (otherFields_refl _ s).wr (by simp) 5⟩
  refine ⟨fun h => ⟨_, congrArg Host.Outcome.next (dmaAbortDone_eq h), dmaState_chEnded ..,
      (rd_wr_page (by decide) ..).trans (rd_wr_same (dmaCtrlPause d) ..),
      (rd_wr_page (by decide) ..).trans ((rd_wr_page (by decide) ..).trans (rd_wr_same (dmaCtrlStop d) ..)),
      by rw [dmaOf_chEnded], by rw [dmaOf_chEnded], fun k hk => dmaOf_chEnded_ne hk _ s⟩,
    fun h => congrArg Host.Outcome.next (if_neg (by simp [h])),
    fun hst hdesc => ⟨_, congrArg Host.Outcome.next (dmaPauseDone_of_kept hst (descComplete_none hdesc)), hpaused⟩,
    fun q hst hdesc hdone hbad => ⟨_, congrArg Host.Outcome.next
      (dmaPauseDone_of_kept hst (descComplete_unended hdesc hdone hbad)), hpaused⟩,
    fun hst => congrArg Host.Outcome.next (if_neg hst)⟩

/-- The fetch of the descriptor at DMA_HEAD (R297, R299, R303). -/
theorem descriptorFetched_spec {s : State} {d : Nat} (far : FarRead) (hd : d < 64) (hst : dmaState s d = 3)
    (hdesc : (dmaOf s d).desc = none) (hring : ringEmpty s d = false) (hab : (dmaOf s d).aborting = false) :
    (∀ s1, dmaRead d (descAt s d) 32 far s = (s1, .wait) → exec (.descriptorFetched d far) s = .next s1) ∧
      (∀ s1 x, dmaRead d (descAt s d) 32 far s = (s1, .val x) → ∃ t, exec (.descriptorFetched d far) s = .next t ∧
        (dmaOf t d).desc = some (decodeDesc (descAt s d) x) ∧ (dmaOf t d).done = 0 ∧
        (dmaOf t d).bad = (if badDesc (decodeDesc (descAt s d) x) then some (6, 0, 0) else none) ∧
        rd t (dmaCurSrcSrc d) = x / 2 ^ 64 % 2 ^ 64 ∧ rd t (dmaCurDstDst d) = x / 2 ^ 128 % 2 ^ 64 ∧ dramKept s1 t) ∧
      (∀ s1 k, dmaRead d (descAt s d) 32 far s = (s1, .err k) → dmaPriv d = false →
        ∃ t, exec (.descriptorFetched d far) s = .next t ∧ dmaState t d = 7 ∧ rd t (dmaErrKind d) = k % 16 ∧
          rd t (dmaErrDir d) = 0 ∧ rd t (dmaErrRing d) = 1 ∧ (dmaOf t d).desc = none) ∧
      (∀ s1 k, dmaRead d (descAt s d) 32 far s = (s1, .err k) → dmaPriv d = true →
        ∃ t, exec (.descriptorFetched d far) s = .next t ∧ dmaState t d = 6 ∧ recordedIn 2 6 d 0x0601 s1 t) := by
  refine ⟨fun s1 hread => congrArg Host.Outcome.next (descFetched_wait hst hdesc hring hab hread), fun s1 x hread => ?_,
    fun s1 k hread hpriv => ?_, fun s1 k hread hpriv => ?_⟩
  · obtain ⟨hq, hdone, hbad⟩ := dmaOf_chFetched d (decodeDesc (descAt s d) x) s1
    obtain ⟨hsrc, hdst⟩ := rd_chFetched d (decodeDesc (descAt s d) x) s1
    exact ⟨_, congrArg Host.Outcome.next (descFetched_val hst hdesc hring hab hread), hq, hdone, hbad,
      hsrc.trans (Nat.mod_mod _ _), hdst.trans (Nat.mod_mod _ _), rfl⟩
  · obtain ⟨hstate, hkind, hdir, hlatch, hq, -⟩ := dmaRingFault_spec hpriv k 0 (dmaEndReads d s1)
    exact ⟨_, congrArg Host.Outcome.next (descFetched_err hst hdesc hring hab hread), hstate, hkind, hdir, hlatch, hq⟩
  · have hfault : dmaRingFault d k 0 (dmaEndReads d s1) =
        dmaError d k 0 0 (descAt (dmaEndReads d s1) d) true (dmaEndReads d s1) := if_pos hpriv
    obtain ⟨hstate, -, -, hrec⟩ := dmaError_halts hd hpriv k 0 0 (descAt (dmaEndReads d s1) d) true (dmaEndReads d s1)
    exact ⟨_, congrArg Host.Outcome.next ((descFetched_err hst hdesc hring hab hread).trans hfault), hstate, hrec⟩

/-- The end of a descriptor (R300, R301). -/
theorem descriptorComplete_spec {s s0 s1 : State} {d : Nat} {q : Desc} {old : Option Nat} (hdesc : (dmaOf s d).desc = some q)
    (hab : (dmaOf s d).aborting = false) (hst : dmaState s d = 3) (hended : (dmaOf s d).done = q.len ∨ (dmaOf s d).bad ≠ none)
    (hwaits : dmaWaits s d = false) (hneeds : dmaNeeds d (statusWrite q (dmaOf s d).bad) s = (s0, some old))
    (hwrite : dmaWrite d (statusWrite q (dmaOf s d).bad) old (dmaEndReads d s0) = (s1, none)) :
    ∃ t, exec (.descriptorComplete d) s = .next t ∧ (dmaOf t d).desc = none ∧ (dmaOf t d).bad = none ∧
        rd t (dmaHeadHead d) = (headOf s d + 1) % ringSize s d % 2 ^ 16 ∧ samePart .mem s1 t ∧
        (dmaOf t d).msiDue = ((dmaOf s1 d).msiDue || q.irq) ∧
        ((dmaOf s d).bad ≠ none → counted (dmaStatusBadCount d) 1 s1 t) ∧
        ((dmaOf s d).bad = none → rd t (dmaStatusBadCount d) = rd s1 (dmaStatusBadCount d)) := by
  have hdone := (descComplete_of_due hdesc hab hst hended hwaits).trans (finishDesc_of_going hst hneeds hwrite)
  have hch : dmaOf (dmaSettle d (headPast d q s s1)) d = _ := (wr_dmaOf ..).trans (dmaOf_headPast d q s s1)
  have hcount : rd (dmaSettle d (headPast d q s s1)) (dmaStatusBadCount d) = _ :=
    (rd_wr_page (by decide) ..).trans (rd_headPast_bad d q s s1)
  refine ⟨_, congrArg Host.Outcome.next hdone, by rw [hch], by rw [hch], ?_, headPast_mem d q s s1, by rw [hch],
    fun h => ?_, fun h => ?_⟩
  · rw [dmaSettle, rd_setDmaState_ne (dmaStatusState_ne_dmaHeadHead d).symm, rd_headPast_head]
  · rw [counted, hcount, if_pos (Option.isSome_iff_ne_none.2 h)]
    rfl
  · rw [hcount, h]
    rfl

/-- The MSI of a descriptor whose status write is acknowledged. -/
theorem statusAck_spec {s : State} {d : Nat} (hdue : (dmaOf s d).msiDue = true) (hwaits : dmaWaits s d = false) :
    (dmaOf (statusAck d s) d).msiDue = false ∧
      (dmaOf (statusAck d s) d).msis = (dmaOf s d).msis ++ [(rd s (dmaMsiAddrAddr d) / 8 * 8, rd s (dmaMsiDataData d))] ∧
      ∀ p, p ≠ .dma → samePart p s (statusAck d s) := by
  rw [show statusAck d s = modDma d (fun r => { r with
      msiDue := false, msis := r.msis ++ [(rd s (dmaMsiAddrAddr d) / 8 * 8, rd s (dmaMsiDataData d))] }) s
    from if_pos ⟨hdue, hwaits⟩, dmaOf_modDma]
  refine ⟨rfl, rfl, fun p hp => ?_⟩
  cases p with
  | dma => exact absurd rfl hp
  | _ => rfl

/-- A bus error leaves an ordinary channel running, with its descriptor BAD (R301). -/
theorem dmaBusError_spec {s : State} {d off : Nat} {q : Desc} (k dir : Nat) (hd : d < 64) (hpriv : dmaPriv d = false)
    (hdesc : (dmaOf s d).desc = some q) (hbad : (dmaOf s d).bad = none) (hab : (dmaOf s d).aborting = false) (hoff : off < q.len) :
    ∃ t, exec (.dmaBusError d k dir off) s = .next t ∧
        (dmaOf t d).bad = some (k, dir, off) ∧ dmaState t d = dmaState s d ∧ rd t (dmaErrKind d) = k % 16 ∧
        rd t (dmaErrDir d) = dir % 2 ∧ rd t (dmaErrRing d) = 0 ∧ rd t (dmaErrBeat d) = beat s % 2 ^ 32 ∧ samePart .ras s t := by
  refine ⟨_, exec_dmaBusError hdesc hbad hab hoff k dir, ?_⟩
  generalize (if dir = 0 then dmaAddr q.src q.srcLog off else dmaAddr q.dst q.dstLog off) = a
  obtain ⟨hkind, hdir, hring, hbeat⟩ := dmaError_latches hd k dir off a false s
  refine ⟨by rw [dmaOf_dmaError], dmaState_dmaError_ordinary hpriv .., hkind, hdir, hring, hbeat, ?_⟩
  rw [dmaError_ordinary hpriv]
  rfl

theorem dmaBusError_idle {s : State} {d : Nat} (k dir off : Nat) (h : (dmaOf s d).desc = none ∨ (dmaOf s d).bad ≠ none) :
    exec (.dmaBusError d k dir off) s = .next s := by
  show execDmaBusError d k dir off s = _
  unfold execDmaBusError
  cases hdesc : (dmaOf s d).desc with
  | none => rfl
  | some q =>
    have hbad : (dmaOf s d).bad ≠ none := h.resolve_left (by simp [hdesc])
    simp [hbad]

/-- Read data that is written, or that an error ends (R298, R301). -/
theorem dmaReadReturn_spec {s : State} {d n : Nat} (far : FarRead) {q : Desc} (hd : d < 64) (h : Reading s d q) :
    (∀ s1, dmaRead d (readFrom s d q) (chunkLen s d n q) far s = (s1, .wait) → exec (.dmaReadReturn d n far) s = .next s1) ∧
      (∀ s1 x s2, dmaRead d (readFrom s d q) (chunkLen s d n q) far s = (s1, .val x) →
        dmaPrepare d (readWrites s d n x q) s1 = (s2, none) → exec (.dmaReadReturn d n far) s = .next s2) ∧
      (∀ s1 x s0 olds s2 k j, dmaRead d (readFrom s d q) (chunkLen s d n q) far s = (s1, .val x) →
        dmaPrepare d (readWrites s d n x q) s1 = (s0, some olds) →
        dmaSpread d ((readWrites s d n x q).zip olds) (dmaOf s d).done (dmaEndReads d s0) = (s2, k, some j) →
        ∃ t, exec (.dmaReadReturn d n far) s = .next t ∧ (dmaOf t d).done = k ∧ (dmaOf t d).bad = some (j, 1, k) ∧
          rd t (dmaErrKind d) = j % 16 ∧ rd t (dmaErrDir d) = 1 ∧ (dmaPriv d = true → dmaState t d = 6)) ∧
      (∀ s1 x s0 olds s2 k, dmaRead d (readFrom s d q) (chunkLen s d n q) far s = (s1, .val x) →
        dmaPrepare d (readWrites s d n x q) s1 = (s0, some olds) →
        dmaSpread d ((readWrites s d n x q).zip olds) (dmaOf s d).done (dmaEndReads d s0) = (s2, k, none) →
        ∃ t, exec (.dmaReadReturn d n far) s = .next t ∧ (dmaOf t d).done = k ∧ (dmaOf t d).bad = (dmaOf s2 d).bad ∧
          rd t (dmaCurRemainRemain d) = (q.len - k) % 2 ^ 31 ∧ rd t (dmaCurSrcSrc d) = dmaAddr q.src q.srcLog k % 2 ^ 64 ∧
          rd t (dmaCurDstDst d) = dmaAddr q.dst q.dstLog k % 2 ^ 64 ∧
          (dmaOf t d).total = (dmaOf s2 d).total + (k - (dmaOf s d).done) ∧ samePart .mem s2 t ∧ samePart .outs s2 t) ∧
      (∀ s1 k, dmaRead d (readFrom s d q) (chunkLen s d n q) far s = (s1, .err k) →
        ∃ t, exec (.dmaReadReturn d n far) s = .next t ∧
        (dmaOf t d).bad = some (k, 0, (dmaOf s d).done) ∧ rd t (dmaErrKind d) = k % 16 ∧ rd t (dmaErrDir d) = 0 ∧
        (dmaPriv d = true → dmaState t d = 6)) := by
  refine ⟨fun s1 hread => congrArg Host.Outcome.next (readReturn_wait h hread),
    fun s1 x s2 hread hprep => congrArg Host.Outcome.next (readReturn_unprepared h hread hprep),
    fun s1 x s0 olds s2 k j hread hprep hspread => ?_, fun s1 x s0 olds s2 k hread hprep hspread => ?_, fun s1 k hread => ?_⟩
  · obtain ⟨hkind, hdir, -, -⟩ := dmaError_latches hd j 1 k (dmaAddr q.dst q.dstLog k) false (chMoved d k q s s2)
    refine ⟨_, congrArg Host.Outcome.next (readReturn_failed h hread hprep hspread), ?_, ?_, hkind, hdir,
      fun hpriv => (dmaError_halts hd hpriv ..).1⟩
    · rw [dmaOf_dmaError, dmaOf_chMoved]
    · rw [dmaOf_dmaError]
  · obtain ⟨hremain, hsrc, hdst⟩ := rd_chMoved (d := d) (q := q) (s := s) (s2 := s2) k
    exact ⟨_, congrArg Host.Outcome.next (readReturn_moved h hread hprep hspread), by rw [dmaOf_chMoved],
      by rw [dmaOf_chMoved], hremain, hsrc, hdst, by rw [dmaOf_chMoved], rfl, rfl⟩
  · obtain ⟨hkind, hdir, -, -⟩ := dmaError_latches hd k 0 (dmaOf s d).done (readFrom s d q) false (dmaEndReads d s1)
    exact ⟨_, congrArg Host.Outcome.next (readReturn_err h hread), by rw [dmaOf_dmaError], hkind, hdir,
      fun hpriv => (dmaError_halts hd hpriv ..).1⟩

/-- Settles O51: each event of a channel is one branch of its function, and the page's registers are distinct. -/
theorem dmaChannels : Obligations.DmaChannels := by
  unfold Obligations.DmaChannels
  refine ⟨fun s d hd => ⟨fun tag v hreach i hi => ?_, fun tag hreach => ?_, ?_⟩, fun s => ⟨?_, ?_, ?_, ?_, ?_, dmaAddr_wraps,
    ?_, ?_, ?_, ?_, ?_, ?_, ?_, ?_, ?_, ?_, ?_, ?_⟩⟩
  · simp only [List.mem_cons, List.not_mem_nil, or_false] at hi
    rcases hi with rfl | rfl | rfl | rfl | rfl | rfl | rfl | rfl | rfl <;>
      exact ⟨_, rfl, dmaBy_refused_spec hd hreach _ _⟩
  · obtain ⟨henable, hidle, habort, htail⟩ := dmaPage_spec hd hreach
    exact ⟨henable, hidle, habort, htail, dmaPage_ordinary hd hreach, dmaPage_halted hd hreach⟩
  · exact dmaDrains_spec
  · exact fun d far hd hst hdesc hring hab => descriptorFetched_spec far hd hst hdesc hring hab
  · refine fun d pa n far to' a hat hfar hnc hown hcached => ⟨fun hroute => ?_, fun hroute hstuck => ?_⟩
    · rw [dmaRead_far hat hnc hown hcached, dmaAway_noRoute hfar hroute]
    · rw [dmaRead_far hat hnc hown hcached, dmaAway_new hfar hstuck, hroute]
      exact ⟨_, _, rfl, outs_sendOut _ _, rfl, rfl, rfl, rfl, rfl, rfl, rfl⟩
  · intro d pa n far to' a v k hat hfar
    rw [dmaRead_away hat (by simp [hfar]), dmaAway_answered hfar]
  · exact fun d far hst => congrArg Host.Outcome.next (descFetched_of_not_active hst far)
  · rintro d n far q a m hd hdesc hbad hab hlt hst rfl rfl
    obtain ⟨hwait, hprep, hfail, hmove, herr⟩ := dmaReadReturn_spec (n := n) far hd ⟨hdesc, hbad, hab, hlt, hst⟩
    refine ⟨hwait, hprep, ?_, ?_, herr⟩
    · rintro s1 x ws s0 olds s2 k j hread rfl
      exact hfail s1 x s0 olds s2 k j hread
    · rintro s1 x ws s0 olds s2 k hread rfl
      exact hmove s1 x s0 olds s2 k hread
  · rintro d q w s0 - hdesc hab hst hended hwaits rfl hneeds
    exact congrArg Host.Outcome.next ((descComplete_of_due hdesc hab hst hended hwaits).trans (finishDesc_of_waiting hneeds))
  · rintro d q w s0 old s1 - hdesc hab hst hended hwaits rfl hneeds hwrite
    exact descriptorComplete_spec hdesc hab hst hended hwaits hneeds hwrite
  · exact fun d q hdesc hdone hbad => congrArg Host.Outcome.next (descComplete_unended hdesc hdone hbad)
  · exact fun d hwaits => ⟨congrArg Host.Outcome.next (descComplete_of_waits hwaits),
      congrArg Host.Outcome.next (if_neg (by simp [hwaits]))⟩
  · exact fun d q src xid o off hd _ hdesc hbad hout horigin hoff => ⟨_, rfl, errIn_dma hd hdesc hbad hout horigin hoff⟩
  · exact fun d hdue hwaits => ⟨_, rfl, statusAck_spec hdue hwaits⟩
  · exact fun d hdue => congrArg Host.Outcome.next (if_neg (by simp [hdue]))
  · exact fun d q k dir off hd hpriv hdesc hbad hab hoff => dmaBusError_spec k dir hd hpriv hdesc hbad hab hoff
  · exact fun d k dir off h => dmaBusError_idle k dir off h
  · intro d hd hpriv hst
    have hdirection : (if (dmaOf s d).desc.isSome then 1 else 0) % 2 = (dmaOf s d).desc.isSome.toNat := by
      cases (dmaOf s d).desc.isSome <;> rfl
    obtain ⟨hstate, hkind, hdir, hlatch, hq, hmsi⟩ :=
      dmaRingFault_spec hpriv 5 (if (dmaOf s d).desc.isSome then 1 else 0) s
    exact ⟨_, congrArg Host.Outcome.next (if_pos hst), hstate, hkind, hlatch, hdir.trans hdirection, hq, hmsi⟩
  · intro i c hi htaken
    have hcmd := onCmd_of_taken htaken (dmaAssign i)
    refine ⟨_, _, _, _, _, _, rfl, rfl, rfl, rfl, rfl, congrArg Host.Outcome.next hcmd, ?_⟩
    exact dmaAssign_spec rfl rfl rfl rfl
  · intro i c hi htaken
    have hcmd := onCmd_of_taken htaken (dmaStatusCmd i)
    refine ⟨_, _, _, _, _, rfl, rfl, rfl, rfl, congrArg Host.Outcome.next hcmd, fun h1 h2 h => ?_, fun h => ?_⟩
    · rw [dmaStatusCmd_started rfl rfl rfl, if_pos ⟨h1, h2, h⟩]
      exact doneIn_started s i _ _
    · rw [dmaStatusCmd_started rfl rfl rfl, if_neg (by omega)]
      exact doneIn_started s i _ _

end Sys2Proof.Machine
end

section
/-! Requests of other devices at the home of their line (R244, R248 to R253). -/
set_option Elab.async false
namespace Sys2Proof.Machine
open Host Sys2Proof

/-! ### Tables -/

theorem tfind_tput_same {α : Type} (t : Table α) (k : Nat) (v : α) : tfind (tput t k v) k = some v := by
  induction t with
  | nil => simp [tput, tfind]
  | cons e r ih =>
    obtain ⟨j, u⟩ := e
    unfold tput
    split
    · simp [tfind]
    · split
      · simp [tfind]
      · next h1 h2 =>
        rw [tfind, if_neg (fun h => h2 h.symm), ih]

theorem tfind_tdel_same {α : Type} (t : Table α) (k : Nat) : tfind (tdel t k) k = none :=
  tfind_eq_none.2 fun _ he => (mem_of_mem_tdel he).2

/-! ### Trackers -/

/-- The request has taken a tracker. -/
def tracked (q : Pkt) (s : State) : State := modFab (fun f => { f with trackers := f.trackers ++ [⟨q, none⟩] }) s

theorem trackers_tracked (q : Pkt) (s : State) : (tracked q s).fabric.trackers = s.fabric.trackers ++ [⟨q, none⟩] := rfl

/-- Answering the only tracker of a request keeps the answer in it. -/
theorem finishTrk_trackers {q : Pkt} {s y : State} (hnew : trkOf s q.src q.xid = none)
    (hy : y.fabric.trackers = s.fabric.trackers ++ [⟨q, none⟩]) (kind op data : Nat) :
    answeredTrk q (respPkt q kind op data) s (finishTrk q kind op data y) := by
  have hsent : (finishTrk q kind op data y).fabric.trackers = y.fabric.trackers.map fun t =>
      if t.req.src = q.src ∧ t.req.xid = q.xid then { t with resp := some (respPkt q kind op data) } else t :=
    (SentFrom.sendPkt _ _).part (fun z => z.fabric.trackers) (fun _ _ _ => rfl)
  have hold : s.fabric.trackers.map (fun t => if t.req.src = q.src ∧ t.req.xid = q.xid
      then { t with resp := some (respPkt q kind op data) } else t) = s.fabric.trackers := by
    refine (List.map_congr_left fun t ht => ?_).trans (List.map_id _)
    have := List.find?_eq_none.1 hnew t ht
    exact if_neg (by simpa using this)
  rw [answeredTrk, hsent, hy, List.map_append, hold, List.map_singleton, if_pos ⟨rfl, rfl⟩]

theorem finishTrk_part (p : Part) (hfab : p ≠ .fabric) (hfree : p ≠ .freeCtr) (q : Pkt) (kind op data : Nat) (s : State) :
    samePart p s (finishTrk q kind op data s) := by
  have hk := finishTrk_keeps q kind op data s (keeps_refl _ s) (Nat.or_self _)
  cases p with
  | fabric => exact absurd rfl hfab
  | freeCtr => exact absurd rfl hfree
  | _ => exact hk.part _ rfl

theorem rd_finishTrk (q : Pkt) (kind op data : Nat) (s : State) (f : Fld) : rd (finishTrk q kind op data s) f = rd s f :=
  rd_of_regs (finishTrk_part .regs (by decide) (by decide) q kind op data s) f

theorem resvs_finishTrk (q : Pkt) (kind op data : Nat) (s : State) :
    (finishTrk q kind op data s).fabric.resvs = s.fabric.resvs :=
  (SentFrom.sendPkt _ _).part (fun z => z.fabric.resvs) (fun _ _ _ => rfl)

/-- An answer whose reads of the line are over. -/
theorem answerTrk_spec {q : Pkt} {s y : State} (hnew : trkOf s q.src q.xid = none)
    (hy : y.fabric.trackers = s.fabric.trackers ++ [⟨q, none⟩]) (kind op data : Nat) :
    answeredTrk q (respPkt q kind op data) s (answerTrk q kind op data y) ∧
      (answerTrk q kind op data y).slices = y.slices ∧ (answerTrk q kind op data y).harts = y.harts ∧
      (answerTrk q kind op data y).fabric.resvs = y.fabric.resvs ∧ dramKept y (answerTrk q kind op data y) := by
  have hmem : (answerTrk q kind op data y).mem = (dropReads (pktReader q) y).mem :=
    finishTrk_part .mem (by decide) (by decide) q kind op data (dropReads (pktReader q) y)
  refine ⟨finishTrk_trackers (y := dropReads (pktReader q) y) hnew hy kind op data,
    finishTrk_part .slices (by decide) (by decide) q kind op data (dropReads (pktReader q) y),
    finishTrk_part .harts (by decide) (by decide) q kind op data (dropReads (pktReader q) y),
    resvs_finishTrk q kind op data (dropReads (pktReader q) y), ?_⟩
  rw [dramKept, hmem]
  rfl

theorem arrOf_of_slices {s t : State} (h : t.slices = s.slices) (n line : Nat) : arrOf t n line = arrOf s n line := by
  rw [arrOf, arrOf, sliceOf, sliceOf, h]

theorem vicOf_of_slices {s t : State} (h : t.slices = s.slices) (n line : Nat) : vicOf t n line = vicOf s n line := by
  rw [vicOf, vicOf, sliceOf, sliceOf, h]

theorem fabDirOf_of_slices {s t : State} (h : t.slices = s.slices) (n line : Nat) : fabDirOf t n line = fabDirOf s n line := by
  rw [fabDirOf, fabDirOf, sliceOf, sliceOf, h]

/-! ### A line that the home slice holds alone, under the request's tag and without an error -/

structure HeldAt (s : State) (n line tag : Nat) (l : SLine) : Prop where
  home : n = homeSlice s tag line
  arr : arrOf s n line = some l
  dir : dirOf s n line = none
  tag : l.tag = tag
  err : l.err = 0
  tagErr : l.tagErr = false

section
variable {s : State} {n line tag : Nat} {l : SLine}

theorem HeldAt.sealedCopy (h : HeldAt s n line tag l) : sealedCopy s n line tag = false := by
  simp [Machine.sealedCopy, h.arr, h.dir, h.tag]

theorem HeldAt.takeOver (h : HeldAt s n line tag l) : takeOver n line tag s = s := by
  have hother : otherTag s n line tag = false := by simp [otherTag, h.arr, h.dir, h.tag]
  simp [Machine.takeOver, hother, h.arr, h.dir, h.tag]

theorem HeldAt.readHeld (h : HeldAt s n line tag l) : readHeld n line s = s := by
  have hrow : errRow ((arrOf s n line).or (vicOf s n line)) = 0 := by simp [errRow, h.arr, h.err, h.tagErr]
  unfold Machine.readHeld
  dsimp only
  rw [hrow]
  rfl

theorem HeldAt.recallVictim (h : HeldAt s n line tag l) : recallVictim n line s = s := by
  unfold Machine.recallVictim
  rw [h.arr]

theorem HeldAt.heldData (h : HeldAt s n line tag l) : heldData s n line = some (l.data, l.poison) := by
  simp [Machine.heldData, h.arr]

theorem takeBack_of_dir (hdir : dirOf s n line = none) (keep : Option Nat) : takeBack n line keep s = (s, none) := by
  unfold takeBack
  rw [hdir]

/-- The current contents of the line are the slice's. -/
theorem HeldAt.currentLine (h : HeldAt s n line tag l) (w : Reader) : currentLine w line tag s = (s, .data l.data l.poison) := by
  unfold Machine.currentLine
  dsimp only
  rw [← h.home, h.sealedCopy, if_neg Bool.false_ne_true, h.takeOver, h.readHeld, h.dir, h.heldData, h.recallVictim]
  rfl

theorem HeldAt.lookup (h : HeldAt s n line tag l) (core : Nat) (excl : Bool) :
    lookup n line tag core excl 0 s = (s, some (l.data, l.poison)) := by
  unfold Machine.lookup
  simp only [ne_eq, not_true_eq_false, if_false]
  rw [h.takeOver, h.readHeld, takeBack_of_dir h.dir, h.dir]
  simp only [ite_self]
  rw [h.heldData, h.recallVictim]
  rfl

theorem HeldAt.trkLine {q : Pkt} (h : HeldAt s n line q.tag l) : trkLine q line s = (s, .data l.data l.poison) := by
  rw [Machine.trkLine, h.currentLine]
  rfl

theorem HeldAt.homeLine {q : Pkt} (h : HeldAt s n line q.tag l) (excl : Bool) :
    homeLine q n line excl s = (s, .data l.data l.poison) := by
  unfold Machine.homeLine
  rw [h.lookup]

/-- A write at the home of such a line stays in the slice. -/
theorem HeldAt.writeAtHome (h : HeldAt s n line tag l) (w : Reader) (d : Nat) : writeAtHome w line tag d s =
    putArr n line { l with data := d, dirty := true, poison := false } (breakResv w.asHart line s) := by
  unfold Machine.writeAtHome
  dsimp only
  rw [← h.home, h.sealedCopy, if_neg Bool.false_ne_true, h.takeOver, h.sealedCopy, if_neg Bool.false_ne_true, takeBack_of_dir h.dir, h.arr]

end

theorem slices_putSlice (n : Nat) (r : Slice) (s : State) : sliceOf (putSlice n r s) n = r := by
  rw [sliceOf, putSlice_slices]
  exact setSlice_sliceOf_same n r s

theorem arrOf_putArr (n line : Nat) (l : SLine) (s : State) : arrOf (putArr n line l s) n line = some l := by
  rw [arrOf, putArr, slices_putSlice]
  exact tfind_tput_same _ _ _

theorem arrOf_dropArr (n line : Nat) (s : State) : arrOf (dropArr n line s) n line = none := by
  rw [arrOf, dropArr, slices_putSlice]
  exact tfind_tdel_same _ _

theorem vicOf_dropArr (n line : Nat) (s : State) : vicOf (dropArr n line s) n line = none := by
  rw [vicOf, dropArr, slices_putSlice, Option.map_eq_none_iff, List.find?_eq_none]
  intro e he
  have := (List.mem_filter.1 he).2
  simpa using this

theorem fabric_putSlice (n : Nat) (r : Slice) (s : State) : (putSlice n r s).fabric = s.fabric := by
  unfold putSlice
  split <;> rfl

theorem harts_putSlice (n : Nat) (r : Slice) (s : State) : (putSlice n r s).harts = s.harts := by
  unfold putSlice
  split <;> rfl

theorem sendOut_fabric (o : Out) (s : State) : (sendOut o s).fabric.trackers = s.fabric.trackers := by
  unfold sendOut
  simp only []
  split
  · exact (SentFrom.sendPkt _ _).part (fun z => z.fabric.trackers) (fun _ _ _ => rfl)
  · rfl

/-- A write-back leaves the trackers. -/
theorem trackers_writeBack (how : WrHow) (tag line data : Nat) (poison : Bool) (s : State) :
    (writeBack how tag line data poison s).fabric.trackers = s.fabric.trackers := by
  unfold writeBack
  split
  · split
    · exact congrArg Fabric.trackers ((dramWrite_keeps how _ tag data poison s (keeps_refl _ s) (Nat.or_self _)).part .fabric rfl)
    · exact congrArg Fabric.trackers ((refuseLine_keeps _ tag s (keeps_refl _ s) (Nat.or_self _)).part .fabric rfl)
  · exact sendOut_fabric _ s

theorem writeBack_part (p : Part) (hp : p = .harts ∨ p = .slices) (how : WrHow) (tag line data : Nat) (poison : Bool) (s : State) :
    samePart p s (writeBack how tag line data poison s) := by
  have hk := writeBack_keeps how tag line data poison s (keeps_refl _ s) (Nat.or_self _)
  rcases hp with rfl | rfl
  · exact hk.part .harts rfl
  · exact hk.part .slices rfl

/-! ### What becomes of a request up to its home slice -/

theorem bump_ras (f : Fld) (n : Nat) (s : State) : (bump f n s).ras = s.ras := rfl
theorem bump_fabric (f : Fld) (n : Nat) (s : State) : (bump f n s).fabric = s.fabric := rfl
theorem bump_tenantOf (f : Fld) (n : Nat) (s : State) (t : Nat) : tenantOf (bump f n s) t = tenantOf s t := rfl

/-- A packet whose tag is refused leaves a record, a count, and one more refused request of its tenancy. -/
theorem refuseGranule_spec (unit pa tag : Nat) (s : State) :
    recordedIn 5 5 unit 0x0B02 s (refuseGranule 5 unit pa tag s) ∧
      (tenantOf (refuseGranule 5 unit pa tag s) tag).refused = (tenantOf s tag).refused + 1 ∧
      (refuseGranule 5 unit pa tag s).fabric = s.fabric ∧
      ∀ f : Fld, f.lo < 64 → f.off < 0x100000000 → rd (refuseGranule 5 unit pa tag s) f = rd s f := by
  generalize hy : setTenant tag { tenantOf s tag with refused := (tenantOf s tag).refused + 1 } s = y
  have heq : refuseGranule 5 unit pa tag s = recPlatform (nextSlice s) 5 5 unit 0x0B02 tag pa [] y := by rw [← hy]; rfl
  have hregs : y.regs = s.regs := by rw [← hy]; rfl
  have hras : y.ras = s.ras := by rw [← hy]; rfl
  have hten : (tenantOf y tag).refused = (tenantOf s tag).refused + 1 := by rw [← hy, setTenant_tenantOf_same]
  have hk := recPlatform_keeps (nextSlice s) 5 5 unit 0x0B02 tag pa [] y (keeps_refl _ y) (Nat.or_self _)
  have htenants : (recPlatform (nextSlice s) 5 5 unit 0x0B02 tag pa [] y).tenants = y.tenants := hk.part .tenants rfl
  have hfab : (recPlatform (nextSlice s) 5 5 unit 0x0B02 tag pa [] y).fabric = y.fabric := hk.part .fabric rfl
  rw [heq]
  refine ⟨recPlatform_recordedIn _ _ _ _ _ _ _ _ _ _ (by rw [hras]) (beat_of_regs hregs), ?_, hfab.trans (by rw [← hy]; rfl),
    fun f hlo hoff => ?_⟩
  · rw [tenantOf, htenants]
    exact hten
  · rw [rd_recPlatform _ _ _ _ _ _ _ _ _ _ fun c _ => fkey_ne_clerkIpPending hlo hoff c]
    exact rd_of_regs hregs f

/-- What the refusal of a tracked request leaves: y is the state that its record leaves. -/
theorem refused_spec {q : Pkt} {s y : State} (hnew : trkOf s q.src q.xid = none)
    (hrec : recordedIn 5 5 (portToward s q.src) 0x0B02 s y) (hten : (tenantOf y q.tag).refused = (tenantOf s q.tag).refused + 1)
    (hfab : y.fabric.trackers = s.fabric.trackers ++ [⟨q, none⟩]) (hmem : y.mem = s.mem) (hslices : y.slices = s.slices) :
    recordedIn 5 5 (portToward s q.src) 0x0B02 s (finishTrk q 0x20 3 0 y) ∧
      (finishTrk q 0x20 3 0 y).fabric.trackers = s.fabric.trackers ++ [⟨q, some (respPkt q 0x20 3 0)⟩] ∧
      samePart .mem s (finishTrk q 0x20 3 0 y) ∧ samePart .slices s (finishTrk q 0x20 3 0 y) ∧
      (tenantOf (finishTrk q 0x20 3 0 y) q.tag).refused = (tenantOf s q.tag).refused + 1 := by
  have htenants : (finishTrk q 0x20 3 0 y).tenants = y.tenants := finishTrk_part .tenants (by decide) (by decide) q _ _ _ y
  refine ⟨hrec.of_ras (finishTrk_part .ras (by decide) (by decide) q _ _ _ y), finishTrk_trackers hnew hfab _ _ _,
    (finishTrk_part .mem (by decide) (by decide) q _ _ _ y).trans hmem,
    (finishTrk_part .slices (by decide) (by decide) q _ _ _ y).trans hslices, ?_⟩
  rw [tenantOf, htenants]
  exact hten

/-- What the home cannot serve is recorded, and a port's refusal is counted there. -/
theorem refuseServe_eq (q : Pkt) (s : State) : refuseServe q s = refuseGranule 5 (portToward s q.src) q.pa q.tag s ∨
    ∃ f, refuseServe q s = bump f 1 (refuseGranule 5 (portToward s q.src) q.pa q.tag s) := by
  unfold refuseServe
  dsimp only
  split
  · split
    · exact .inr ⟨_, rfl⟩
    · exact .inl rfl
  · split
    · exact .inr ⟨_, rfl⟩
    · exact .inl rfl
  · exact .inl rfl

theorem refuseServe_spec (q : Pkt) (s : State) : recordedIn 5 5 (portToward s q.src) 0x0B02 s (refuseServe q s) ∧
    (tenantOf (refuseServe q s) q.tag).refused = (tenantOf s q.tag).refused + 1 ∧ (refuseServe q s).fabric = s.fabric := by
  obtain ⟨hrec, hten, hfab, -⟩ := refuseGranule_spec (portToward s q.src) q.pa q.tag s
  rcases refuseServe_eq q s with h | ⟨f, h⟩
  · rw [h]
    exact ⟨hrec, hten, hfab⟩
  · rw [h]
    exact ⟨hrec.of_ras (bump_ras ..), by rw [bump_tenantOf, hten], (bump_fabric ..).trans hfab⟩

theorem refuseServe_part (p : Part) (hp : p = .mem ∨ p = .slices) (q : Pkt) (s : State) : samePart p s (refuseServe q s) := by
  have hk := refuseServe_keeps q s (keeps_refl _ s) (Nat.or_self _)
  rcases hp with rfl | rfl
  · exact hk.part .mem rfl
  · exact hk.part .slices rfl

theorem clampPort_le (s : State) (g n : Nat) : clampPort s g n ≤ 3 := by
  unfold clampPort
  cases h : (((portsOf s g).filter fun p => p ≤ min 3 n).reverse.head?) with
  | none => exact Nat.zero_le 3
  | some p =>
    have := (List.mem_filter.1 (List.mem_reverse.1 (List.mem_of_head? h))).2
    have hle : p ≤ min 3 n := by simpa using this
    exact hle.trans (Nat.min_le_left 3 n)

theorem portAt_le (s : State) (g pa : Nat) : portAt s g pa ≤ 3 := by
  unfold portAt
  split
  · exact Nat.zero_le 3
  · exact clampPort_le s g _

theorem io_lt {pa g : Nat} (h : regionOf pa = .io g) : g < 8 := by
  unfold regionOf at h
  split at h
  · cases h
  · split at h
    · cases h
    · split at h
      · cases h
        omega
      · split at h <;> cases h

/-- A request that a port of the home refuses counts at the port (R272). -/
theorem refuseServe_counted {q : Pkt} {s : State} {g : Nat} (hreg : regionOf (offOf q.pa) = .io g)
    (hat : ioAt s g q.tag q.pa q.size = .refused) :
    counted (portRefusedRefused (portBase g (portAt s g q.pa))) 1 s (refuseServe q s) := by
  have heq : refuseServe q s = bump (portRefusedRefused (portBase g (portAt s g q.pa))) 1
      (refuseGranule 5 (portToward s q.src) q.pa q.tag s) := by
    unfold refuseServe
    dsimp only
    rw [hreg]
    exact if_pos hat
  have hport := portAt_le s g q.pa
  have hg := io_lt hreg
  obtain ⟨-, -, -, hrd⟩ := refuseGranule_spec (portToward s q.src) q.pa q.tag s
  rw [counted, heq, rd_bump_same, hrd _ (by decide : 0 < 64)]
  show 0x80000000 + g * 0x10000000 + portAt s g q.pa * 0x8000 + 0x418 < 0x100000000
  omega

theorem refusePkt_spec (src pa tag : Nat) (s : State) : recordedIn 5 5 (portToward s src) 0x0B02 s (refusePkt src pa tag s) ∧
    (tenantOf (refusePkt src pa tag s) tag).refused = (tenantOf s tag).refused + 1 ∧
    (refusePkt src pa tag s).fabric = s.fabric ∧ counted fabEventsRefused 1 s (refusePkt src pa tag s) := by
  obtain ⟨hrec, hten, hfab, hrd⟩ := refuseGranule_spec (portToward s src) pa tag s
  have hcount : rd s fabEventsRefused = rd (refuseGranule 5 (portToward s src) pa tag s) fabEventsRefused :=
    (hrd fabEventsRefused (by decide) (by decide)).symm
  rw [refusePkt]
  refine ⟨hrec.of_ras (bump_ras ..), by rw [bump_tenantOf, hten], (bump_fabric ..).trans hfab, ?_⟩
  rw [counted, rd_bump_same, hcount]

theorem refusePkt_part (p : Part) (hp : p = .mem ∨ p = .slices) (src pa tag : Nat) (s : State) :
    samePart p s (refusePkt src pa tag s) := by
  have hk := refusePkt_keeps src pa tag s (keeps_refl _ s) (Nat.or_self _)
  rcases hp with rfl | rfl
  · exact hk.part .mem rfl
  · exact hk.part .slices rfl

section
variable {q : Pkt} {s : State}

theorem fabRequest_answered {k : Trk} {r : Pkt} (hk : trkOf s q.src q.xid = some k) (hr : k.resp = some r) :
    fabRequest q s = sendPkt r s := by
  unfold fabRequest
  rw [hk]
  dsimp only
  rw [hr]

theorem fabRequest_pending {k : Trk} (hk : trkOf s q.src q.xid = some k) (hr : k.resp = none) : fabRequest q s = s := by
  unfold fabRequest
  rw [hk]
  dsimp only
  rw [hr]

theorem fabRequest_starved (hnew : trkOf s q.src q.xid = none) (hfull : trackerFree s q.src = false) : fabRequest q s =
    sendPkt (respPkt q 0x20 1 0) (modFab (fun f => { f with starved := f.starved ++ [(q.src, q.xid)] }) s) := by
  unfold fabRequest
  rw [hnew]
  exact if_pos hfull

theorem fabRequest_refused (hnew : trkOf s q.src q.xid = none) (hfree : trackerFree s q.src = true) (had : admits s q = false) :
    fabRequest q s = finishTrk q 0x20 3 0 (refusePkt q.src q.pa q.tag (tracked q s)) := by
  unfold fabRequest
  rw [hnew]
  exact (if_neg (by simp [hfree])).trans (if_pos had)

theorem fabRequest_unserved (hnew : trkOf s q.src q.xid = none) (hfree : trackerFree s q.src = true) (had : admits s q = true)
    (hserve : canServe s q = false) : fabRequest q s = finishTrk q 0x20 3 0 (refuseServe q (tracked q s)) := by
  unfold fabRequest
  rw [hnew]
  exact (if_neg (by simp [hfree])).trans ((if_neg (by simp [had])).trans (if_pos hserve))

theorem fabRequest_served (hnew : trkOf s q.src q.xid = none) (hfree : trackerFree s q.src = true) (had : admits s q = true)
    (hserve : canServe s q = true) : fabRequest q s = serveAt q (tracked q s) (regionOf (offOf q.pa)) := by
  unfold fabRequest
  rw [hnew]
  exact (if_neg (by simp [hfree])).trans ((if_neg (by simp [had])).trans (if_neg (by simp [hserve])))

theorem serveAt_line (h : regionOf (offOf q.pa) = .dram ∨ regionOf (offOf q.pa) = .cxl) :
    serveAt q s (regionOf (offOf q.pa)) = serveLine q s := by
  rcases h with h | h <;> rw [h] <;> rfl

theorem serveLine_written (h : q.kind = 5 ∨ q.kind = 6) : serveLine q s = performReq q s := if_pos h

theorem serveLine_busy (h5 : q.kind ≠ 5) (h6 : q.kind ≠ 6) (hbusy : lineBusy s q.tag (lineOf q.pa) = true) :
    serveLine q s = countWait (pktReader q) q.tag (lineOf q.pa) s :=
  (if_neg (by omega)).trans (if_pos hbusy)

theorem serveLine_clear (h5 : q.kind ≠ 5) (h6 : q.kind ≠ 6) (hbusy : lineBusy s q.tag (lineOf q.pa) = false)
    (hway : wayClear s (homeSlice s q.tag (lineOf q.pa)) (lineOf q.pa) (needExcl q) (mayKeep q) = true) :
    serveLine q s = performReq q s :=
  (if_neg (by omega)).trans ((if_neg (by simp [hbusy])).trans (if_pos hway))

theorem serveLine_blocked (h5 : q.kind ≠ 5) (h6 : q.kind ≠ 6) (hbusy : lineBusy s q.tag (lineOf q.pa) = false)
    (hway : wayClear s (homeSlice s q.tag (lineOf q.pa)) (lineOf q.pa) (needExcl q) (mayKeep q) = false) :
    serveLine q s = clearWay (homeSlice s q.tag (lineOf q.pa)) (lineOf q.pa) (needExcl q) (mayKeep q) s :=
  (if_neg (by omega)).trans ((if_neg (by simp [hbusy])).trans (if_neg (by simp [hway])))

end

/-- Every request of another device is taken in this way. -/
theorem homeTakes_of {i : Instr} {q : Pkt} {s : State} (hi : exec i s = .next (fabRequest q s)) : homeTakes i q s := by
  refine ⟨fun k r hk hr => by rw [hi, fabRequest_answered hk hr], fun k hk hr => by rw [hi, fabRequest_pending hk hr],
    fun hnew hfull => ?_, fun hnew hfree => ⟨fun hgr hmg => ?_, fun had hserve => ?_, fun had hserve => ⟨fun hreg => ?_,
      fun g hreg => ?_, fun hreg => ?_⟩⟩⟩
  · have hsent := SentFrom.sendPkt (respPkt q 0x20 1 0)
      (modFab (fun f => { f with starved := f.starved ++ [(q.src, q.xid)] }) s)
    refine ⟨_, hi.trans (congrArg Host.Outcome.next (fabRequest_starved hnew hfull)),
      hsent.part (fun z => z.fabric.starved) (fun _ _ _ => rfl), hsent.part (fun z => z.fabric.trackers) (fun _ _ _ => rfl),
      hsent.part State.mem (fun _ _ _ => rfl), hsent.part State.slices (fun _ _ _ => rfl)⟩
  · obtain ⟨hrec, hten, hfab, hcount⟩ := refusePkt_spec q.src q.pa q.tag (tracked q s)
    obtain ⟨hrec', htrk, hmem, hslices, hten'⟩ := refused_spec (y := refusePkt q.src q.pa q.tag (tracked q s)) hnew hrec hten
      (by rw [hfab]; rfl) (refusePkt_part .mem (.inl rfl) _ _ _ _) (refusePkt_part .slices (.inr rfl) _ _ _ _)
    have had : admits s q = false := by simp [admits, hgr, hmg]
    refine ⟨_, hi.trans (congrArg Host.Outcome.next (fabRequest_refused hnew hfree had)), ?_, hrec', htrk, hmem, hslices, hten'⟩
    rw [counted, rd_finishTrk]
    exact hcount
  · obtain ⟨hrec, hten, hfab⟩ := refuseServe_spec q (tracked q s)
    obtain ⟨hrec', htrk, hmem, hslices, hten'⟩ := refused_spec (y := refuseServe q (tracked q s)) hnew hrec hten
      (by rw [hfab]; rfl) (refuseServe_part .mem (.inl rfl) _ _) (refuseServe_part .slices (.inr rfl) _ _)
    refine ⟨_, hi.trans (congrArg Host.Outcome.next (fabRequest_unserved hnew hfree had hserve)), hrec', htrk, hmem, hslices,
      hten', fun g hreg hat => ?_⟩
    rw [counted, rd_finishTrk]
    exact refuseServe_counted (s := tracked q s) hreg hat
  · have heq : exec i s = .next (serveLine q (tracked q s)) := by
      rw [hi, fabRequest_served hnew hfree had hserve, serveAt_line hreg]
    exact ⟨fun h => heq.trans (congrArg Host.Outcome.next (serveLine_written h)),
      fun h5 h6 hbusy => heq.trans (congrArg Host.Outcome.next (serveLine_busy (s := tracked q s) h5 h6 hbusy)),
      fun h5 h6 hbusy hway => heq.trans (congrArg Host.Outcome.next (serveLine_clear (s := tracked q s) h5 h6 hbusy hway)),
      fun h5 h6 hbusy hway => heq.trans (congrArg Host.Outcome.next (serveLine_blocked (s := tracked q s) h5 h6 hbusy hway))⟩
  · rw [hi, fabRequest_served hnew hfree had hserve, hreg]
    rfl
  · have hk := refuseWindow_keeps q.tag (offOf q.pa - 0x3FF000000000) (tracked q s) (keeps_refl _ (tracked q s)) (Nat.or_self _)
    have hfab : (refuseWindow q.tag (offOf q.pa - 0x3FF000000000) (tracked q s)).fabric = (tracked q s).fabric :=
      hk.part .fabric rfl
    refine ⟨_, hi.trans (congrArg Host.Outcome.next ((fabRequest_served hnew hfree had hserve).trans (by rw [hreg]; rfl))), ?_, ?_,
      finishTrk_trackers (y := refuseWindow q.tag (offOf q.pa - 0x3FF000000000) (tracked q s)) hnew (by rw [hfab]; rfl) _ 0 0⟩
    · exact (finishTrk_part .mem (by decide) (by decide) q _ 0 0 _).trans (hk.part .mem rfl)
    · exact (finishTrk_part .slices (by decide) (by decide) q _ 0 0 _).trans (hk.part .slices rfl)

/-! ### Reservations -/

/-- The reservation of one hart ends. -/
def endReserved (s : State) (e : Nat × Hart) : State := setHart e.1 { hartOf s e.1 with resv := none, wrs := .none } s

theorem resv_endReserved (s : State) (e : Nat × Hart) (h : Nat) :
    (hartOf (endReserved s e) h).resv = if e.1 = h then none else (hartOf s h).resv := by
  unfold endReserved
  split
  · next heq => rw [heq, setHart_hartOf_same]
  · next hne => rw [setHart_hartOf_ne _ _ _ _ (fun h => hne h.symm)]

theorem resv_foldl_endReserved (l : List (Nat × Hart)) (s : State) (h : Nat) :
    (hartOf (l.foldl endReserved s) h).resv = if h ∈ l.map (·.1) then none else (hartOf s h).resv := by
  induction l generalizing s with
  | nil => rfl
  | cons e r ih =>
    rw [List.foldl_cons, ih, resv_endReserved]
    by_cases hr : h ∈ r.map (·.1)
    · simp [hr]
    · by_cases he : e.1 = h
      · simp [he]
      · have hne : ¬ h = e.1 := fun hc => he hc.symm
        simp [hr, he, hne]

theorem tget_default_or_mem {α : Type} (d : α) (t : Table α) (k : Nat) : tget d t k = d ∨ (k, tget d t k) ∈ t := by
  induction t with
  | nil => exact .inl rfl
  | cons e r ih =>
    obtain ⟨j, v⟩ := e
    unfold tget
    split
    · next h => exact .inr (by simp [h])
    · exact ih.imp_right (List.mem_cons_of_mem _)

/-- The state in which no other device's reservation of the line stands. -/
def resvsEnded (line : Nat) (s : State) : State := setFab { s.fabric with resvs := s.fabric.resvs.filter fun e => e.2 != line } s

theorem breakResv_eq (w : Option Nat) (line : Nat) (s : State) : breakResv w line s =
    (s.harts.filter fun e => some e.1 != w && e.2.resv == some line).foldl endReserved (resvsEnded line s) := rfl

theorem breakResv_part {α : Type} (v : State → α) (hv : ∀ h r s, v (setHart h r s) = v s) (w : Option Nat) (line : Nat) (s : State) :
    v (breakResv w line s) = v (resvsEnded line s) := by
  rw [breakResv_eq]
  exact foldl_fixes v (fun y (e : Nat × Hart) => hv e.1 _ y) _ _

/-- No hart keeps a reservation of a line that another device takes. -/
theorem resv_breakResv (line : Nat) (s : State) (h : Nat) : (hartOf (breakResv none line s) h).resv ≠ some line := by
  rw [breakResv_eq, resv_foldl_endReserved]
  split
  · simp
  · next hmem =>
    intro hresv
    have hthis : (hartOf s h).resv = some line := hresv
    rcases tget_default_or_mem ({} : Hart) s.harts h with hd | hin
    · rw [hartOf, hd] at hthis
      cases hthis
    · refine hmem (List.mem_map.2 ⟨(h, hartOf s h), List.mem_filter.2 ⟨hin, ?_⟩, rfl⟩)
      simp [hthis]

/-! ### What the home slice does with a request of a line that it holds -/

section
variable {q : Pkt} {s : State} {n line : Nat} {l : SLine}

/-- A request that the home admits and serves, of a line that its slice holds alone, is performed at once. -/
theorem fabRequest_held (hline : line = lineOf q.pa) (hn : n = homeSlice s q.tag line) (h : homeHolds s q n line l) :
    fabRequest q s = performReq q (tracked q s) ∧ HeldAt (tracked q s) n line q.tag l ∧ trkOf s q.src q.xid = none ∧
      l.poison = false := by
  obtain ⟨hnew, hfree, had, hserve, hreg, hbusy, hway, hdir, harr, htag, herr, hterr, hpoison⟩ := h
  subst hline hn
  refine ⟨?_, ⟨rfl, harr, hdir, htag, herr, hterr⟩, hnew, hpoison⟩
  rw [fabRequest_served hnew hfree had hserve, serveAt_line (.inl hreg)]
  by_cases h56 : q.kind = 5 ∨ q.kind = 6
  · exact serveLine_written h56
  · exact serveLine_clear (s := tracked q s) (by omega) (by omega) hbusy hway

theorem fabDirOf_putFabDir {e : FabEnt} (he : e.devs ≠ []) (n line : Nat) (s : State) :
    fabDirOf (putFabDir n line e s) n line = some e := by
  have hdevs : e.devs.isEmpty = false := by simpa using he
  rw [fabDirOf, putFabDir, setSlice_sliceOf_same, hdevs]
  exact tfind_tput_same _ _ _

/-- The entries that compete with a line of the tenancy for the ways of its set. -/
def fabSame (s : State) (n line tag : Nat) : List (Nat × FabEnt) :=
  let shared := fun (t : Nat) => s.fabric.shares.any fun h => h.ten == t && rdB s (llcPartSealed n t)
  (sliceOf s n).fabDir.filter fun e =>
    Config.fabSet e.1 % 4096 == Config.fabSet line % 4096 && (if shared tag then e.2.tag == tag else !shared e.2.tag)

/-- Room is asked of a holder of one of them. -/
def roomAsked (n line tag : Nat) (s : State) : State × Bool :=
  match (fabSame s n line tag)[freeVal (fabSame s n line tag).length s]? with
  | some (k, _) => (clearWay n k true none (freeNext s), false)
  | none => (s, false)

theorem fabRoom_eq (n line tag : Nat) (s : State) : fabRoom n line tag s =
    if (fabDirOf s n line).isSome then (s, true)
    else if (fabSame s n line tag).length < fabWays s n tag then (s, true) else roomAsked n line tag s := rfl

theorem roomAsked_snd (n line tag : Nat) (s : State) : (roomAsked n line tag s).2 = false := by
  unfold roomAsked
  split <;> rfl

/-- Where room is left, a request that has taken its tracker finds it. -/
theorem fabRoom_tracked (h : (fabRoom n line q.tag s).2 = true) : fabRoom n line q.tag (tracked q s) = (tracked q s, true) := by
  rw [fabRoom_eq] at h ⊢
  by_cases h1 : (fabDirOf s n line).isSome = true
  · exact if_pos h1
  · rw [if_neg h1] at h
    by_cases h2 : (fabSame s n line q.tag).length < fabWays s n q.tag
    · exact (if_neg h1).trans (if_pos h2)
    · rw [if_neg h2, roomAsked_snd] at h
      cases h

/-- What a request of kind k does at slice n, the home of its line. -/
def homeReq (k : Nat) (q : Pkt) (n line : Nat) (s : State) : State :=
  match k with
  | 1 => if (fabRoom n line q.tag s).2 then performShared q n line (fabRoom n line q.tag s).1 else (fabRoom n line q.tag s).1
  | 2 => if (fabRoom n line q.tag s).2 then performOwn q n line (fabRoom n line q.tag s).1 else (fabRoom n line q.tag s).1
  | 3 => answerLine q (trkLine q line s).2 (fun d => lineGet d (q.pa % 64) q.size) (trkLine q line s).1
  | 4 => performNc q line s
  | 5 => answerTrk q 0x20 0 0 (writeBack (if q.removal then .removal else .fabric) q.tag line q.data q.poison s)
  | 6 => performEvict q n line s
  | 7 => performMaint q n line s
  | _ => performAtomic q line s

theorem performReq_of_kind {k : Nat} (hk : q.kind = k) :
    performReq q s = homeReq k q (homeSlice s q.tag (lineOf q.pa)) (lineOf q.pa) s := by
  subst hk
  rfl

theorem answerLine_data (d : Nat) (f : Nat → Nat) : answerLine q (.data d false) f s = answerTrk q 0x30 0 (f d) s := rfl

/-- The directory entry of a line that one more device shares. -/
def sharerEnt (q : Pkt) (n line : Nat) (s : State) : FabEnt :=
  ⟨q.tag, false, (q.src :: ((fabDirOf s n line).map (·.devs)).getD []).eraseDups⟩

/-- A shared read adds the device to the line's sharers. -/
theorem performShared_held (h : HeldAt s n line q.tag l) (hpoison : l.poison = false) :
    performShared q n line s = answerTrk q 0x30 0 l.data (putFabDir n line (sharerEnt q n line s) s) := by
  unfold performShared
  rw [h.homeLine, hpoison]
  dsimp only
  rw [show sharerEnt q n line s = ⟨q.tag, false, (q.src :: ((fabDirOf s n line).map (·.devs)).getD []).eraseDups⟩ from rfl]
  rw [answerLine_data, id]

/-- The state in which the home's own copy of a line has gone, written back where it is dirty. -/
def homeGone (tag n line : Nat) (l : SLine) (s : State) : State :=
  breakResv none line (dropArr n line (if l.dirty then writeBack .fabric tag line l.data false s else s))

/-- A read for ownership makes the device the line's owner. -/
theorem performOwn_held (h : HeldAt s n line q.tag l) (hpoison : l.poison = false) : performOwn q n line s =
    answerTrk q 0x30 0 l.data (putFabDir n line ⟨q.tag, true, [q.src]⟩ (homeGone q.tag n line l s)) := by
  unfold performOwn homeGone
  rw [h.homeLine, hpoison]
  dsimp only
  rw [h.arr, Option.some_or, Option.any_some, answerLine_data, id]

theorem homeReq_shared (hroom : fabRoom n line q.tag s = (s, true)) : homeReq 1 q n line s = performShared q n line s := by
  show (if (fabRoom n line q.tag s).2 then performShared q n line (fabRoom n line q.tag s).1
    else (fabRoom n line q.tag s).1) = _
  rw [hroom]
  exact if_pos rfl

theorem homeReq_own (hroom : fabRoom n line q.tag s = (s, true)) : homeReq 2 q n line s = performOwn q n line s := by
  show (if (fabRoom n line q.tag s).2 then performOwn q n line (fabRoom n line q.tag s).1
    else (fabRoom n line q.tag s).1) = _
  rw [hroom]
  exact if_pos rfl

theorem performReq_read (hk : q.kind = 3) (h : HeldAt s (homeSlice s q.tag (lineOf q.pa)) (lineOf q.pa) q.tag l)
    (hpoison : l.poison = false) : performReq q s = answerTrk q 0x30 0 (lineGet l.data (q.pa % 64) q.size) s := by
  refine (performReq_of_kind hk).trans ?_
  show answerLine q (trkLine q (lineOf q.pa) s).2 (fun d => lineGet d (q.pa % 64) q.size) (trkLine q (lineOf q.pa) s).1 = _
  rw [h.trkLine, hpoison, answerLine_data]

/-- The line that a write of part or all of it leaves. -/
def ncData (q : Pkt) (l : SLine) : Nat :=
  if q.be = 0 ∧ q.size = 64 then q.data
  else linePut l.data (q.pa % 64) q.size (mergeBytes (lineGet l.data (q.pa % 64) q.size) q.data q.be q.size)

theorem performReq_write (hk : q.kind = 4) (h : HeldAt s (homeSlice s q.tag (lineOf q.pa)) (lineOf q.pa) q.tag l)
    (hpoison : l.poison = false) : performReq q s = answerTrk q 0x20 0 0
      (putArr (homeSlice s q.tag (lineOf q.pa)) (lineOf q.pa) { l with data := ncData q l, dirty := true, poison := false }
        (breakResv (pktReader q).asHart (lineOf q.pa) s)) := by
  refine (performReq_of_kind hk).trans ?_
  show performNc q (lineOf q.pa) s = _
  unfold performNc ncData
  dsimp only
  split
  · rw [h.writeAtHome]
  · rw [h.trkLine, hpoison]
    dsimp only
    rw [h.writeAtHome]

theorem performReq_line (hk : q.kind = 5) : performReq q s = answerTrk q 0x20 0 0
    (writeBack (if q.removal then .removal else .fabric) q.tag (lineOf q.pa) q.data q.poison s) :=
  performReq_of_kind hk

theorem performReq_evict (hk : q.kind = 6) : performReq q s = performEvict q (homeSlice s q.tag (lineOf q.pa)) (lineOf q.pa) s :=
  performReq_of_kind hk

theorem performReq_maint (hk : q.kind = 7) : performReq q s = performMaint q (homeSlice s q.tag (lineOf q.pa)) (lineOf q.pa) s :=
  performReq_of_kind hk

theorem performReq_atomic (hk : q.kind = 8) : performReq q s = performAtomic q (lineOf q.pa) s :=
  performReq_of_kind hk

/-- A line that an eviction names loses the device among its holders. -/
def evicted (q : Pkt) (n line : Nat) (s : State) : State :=
  match fabDirOf s n line with
  | some e => putFabDir n line { e with devs := e.devs.filter (· != q.src) } s
  | none => s

theorem performEvict_eq : performEvict q n line s = answerTrk q 0x20 0 0 (evicted q n line s) := rfl

theorem lines_putFabDir (e : FabEnt) : (sliceOf (putFabDir n line e s) n).lines = (sliceOf s n).lines := by
  rw [putFabDir, setSlice_sliceOf_same]

theorem evicted_spec : (evicted q n line s).mem = s.mem ∧ (evicted q n line s).fabric = s.fabric ∧
    (sliceOf (evicted q n line s) n).lines = (sliceOf s n).lines ∧
    ∀ e, fabDirOf (evicted q n line s) n line = some e → q.src ∉ e.devs := by
  unfold evicted
  split
  · next e he =>
    refine ⟨rfl, rfl, lines_putFabDir _, fun f hf => ?_⟩
    have hout : q.src ∉ e.devs.filter (· != q.src) := fun h => by simpa using (List.mem_filter.1 h).2
    by_cases hdevs : e.devs.filter (· != q.src) = []
    · have hgone : fabDirOf (putFabDir n line { e with devs := e.devs.filter (· != q.src) } s) n line = none := by
        rw [fabDirOf, putFabDir, setSlice_sliceOf_same, hdevs]
        exact tfind_tdel_same _ _
      rw [hgone] at hf
      cases hf
    · rw [fabDirOf_putFabDir hdevs] at hf
      cases hf
      exact hout
  · next he =>
    refine ⟨rfl, rfl, rfl, fun f hf => ?_⟩
    rw [he] at hf
    cases hf

/-! ### Cache maintenance at the home -/

/-- A line that the home slice has written back. -/
def cleaned (n line : Nat) (l : SLine) (s : State) : State :=
  if l.dirty then writeHome l.tag line l.data l.poison (putArr n line { l with dirty := false } s) else s

theorem HeldAt.cleanLine {tag : Nat} (h : HeldAt s n line tag l) : cleanLine n line s = cleaned n line l s := by
  unfold Machine.cleanLine
  dsimp only
  rw [h.readHeld, h.dir, h.arr]
  rfl

theorem arrOf_cleaned (harr : arrOf s n line = some l) : arrOf (cleaned n line l s) n line = some { l with dirty := false } := by
  unfold cleaned
  split
  · rw [arrOf_of_slices (writeHome_slices ..), arrOf_putArr]
  · next hclean =>
    have : l.dirty = false := by simpa using hclean
    rw [harr, ← this]

theorem trackers_cleaned : (cleaned n line l s).fabric.trackers = s.fabric.trackers := by
  unfold cleaned
  split
  · rw [writeHome, trackers_writeBack, putArr, fabric_putSlice]
  · rfl

theorem dirOf_putSlice (r : Slice) (s : State) : dirOf (putSlice n r s) n line = tfind r.dir line := by
  rw [dirOf, slices_putSlice]

theorem dirOf_cleaned (hdir : dirOf s n line = none) : dirOf (cleaned n line l s) n line = none := by
  unfold cleaned
  split
  · have hsl : (writeHome l.tag line l.data l.poison (putArr n line { l with dirty := false } s)).slices =
        (putArr n line { l with dirty := false } s).slices := writeHome_slices ..
    rw [dirOf, sliceOf, hsl]
    exact (dirOf_putSlice _ s).trans hdir
  · exact hdir

theorem discardLine_of_dir (hdir : dirOf s n line = none) : discardLine n line s = dropArr n line s := by
  unfold discardLine dropCopies
  rw [takeBack_of_dir hdir, hdir]
  rfl

/-- A slice's counts stand at three places of its page; every other field is kept. -/
theorem rd_putSlice {f : Fld} (hlo : f.lo < 64) (hoff : f.off % 0x1000 ≠ 0x18 ∧ f.off % 0x1000 ≠ 0x20 ∧ f.off % 0x1000 ≠ 0x28)
    (n : Nat) (r : Slice) (s : State) : rd (putSlice n r s) f = rd s f := by
  obtain ⟨h18, h20, h28⟩ := hoff
  have h1 : fkey f ≠ fkey (llcAmqOccupancy n) := by simp only [fkey, llcAmqOccupancy]; omega
  have h2 : fkey f ≠ fkey (llcVictimOccupancy n) := by simp only [fkey, llcVictimOccupancy]; omega
  have h3 : fkey f ≠ fkey (llcDrainVictimsLeft n) := by simp only [fkey, llcDrainVictimsLeft]; omega
  have h4 : fkey f ≠ fkey (llcDrainLinesLeft n) := by simp only [fkey, llcDrainLinesLeft]; omega
  unfold putSlice
  dsimp only
  split
  · rw [rd_wr_ne _ _ _ _ h4, rd_wr_ne _ _ _ _ h3, rd_wr_ne _ _ _ _ h2, rd_wr_ne _ _ _ _ h1, rd_of_regs (setSlice_regs n _ s)]
  · rw [rd_wr_ne _ _ _ _ h2, rd_wr_ne _ _ _ _ h1, rd_of_regs (setSlice_regs n _ s)]

theorem rd_dropArr {f : Fld} (hlo : f.lo < 64) (hoff : f.off % 0x1000 ≠ 0x18 ∧ f.off % 0x1000 ≠ 0x20 ∧ f.off % 0x1000 ≠ 0x28) :
    rd (dropArr n line s) f = rd s f := rd_putSlice hlo hoff n _ s

theorem writeWaiting_putSlice (n : Nat) (r : Slice) (s : State) (x : Nat) : writeWaiting (putSlice n r s) x = writeWaiting s x := by
  have hcopies : ∀ c, copies (putSlice n r s) c = copies s c := fun c => by
    have hoff : (mcMirrorEnabled c).off % 0x1000 = 0x400 := by simp only [mcMirrorEnabled]; omega
    rw [copies, copies, mirrored, mirrored, rdB, rdB, rd_putSlice (show 0 < 64 by decide) (by omega)]
  obtain ⟨regs, slices, h⟩ : ∃ regs slices, putSlice n r s = { s with regs := regs, slices := slices } := by
    unfold putSlice
    dsimp only
    split <;> exact ⟨_, _, rfl⟩
  rw [h] at hcopies ⊢
  have hcoord : coord { s with regs := regs, slices := slices } (x * 64) = coord s (x * 64) := rfl
  unfold writeWaiting lineReqs
  rw [hcoord]
  cases coord s (x * 64) with
  | none => rfl
  | some k =>
    dsimp only
    rw [hcopies]
    rfl

theorem homeWaits_dropArr : homeWaits (dropArr n line s) line = homeWaits s line := by
  have hown : ownDram (dropArr n line s) line = ownDram s line := by
    rw [ownDram, ownDram, ownLine, ownLine, rd_dropArr (show 0 < 64 by decide) (by decide)]
  have houts : (dropArr n line s).outs = s.outs := (dropArr_keeps n line s (keeps_refl _ s) (Nat.or_self _)).part .outs rfl
  rw [homeWaits, homeWaits, hown, dropArr, writeWaiting_putSlice, ← dropArr, houts]

theorem vicOf_of_putSlice (r : Slice) (hv : ∀ e ∈ r.victims, e.1 ≠ line) : vicOf (putSlice n r s) n line = none := by
  rw [vicOf, slices_putSlice, Option.map_eq_none_iff, List.find?_eq_none]
  intro e he
  simpa using hv e he

theorem dirOf_dropArr : dirOf (dropArr n line s) n line = dirOf s n line := by
  rw [dropArr, dirOf_putSlice]
  rfl

theorem homeSlice_dropArr (tag : Nat) : homeSlice (dropArr n line s) tag line = homeSlice s tag line := by
  obtain ⟨regs, slices, h⟩ : ∃ regs slices, dropArr n line s = { s with regs := regs, slices := slices } := by
    unfold dropArr putSlice
    dsimp only
    split <;> exact ⟨_, _, rfl⟩
  rw [h]
  rfl

section
variable {tag : Nat} (harr : arrOf s n line = none) (hvic : vicOf s n line = none) (hdir : dirOf s n line = none)
include harr hvic hdir

theorem sealedCopy_absent : sealedCopy s n line tag = false := by
  simp [sealedCopy, harr, hvic, hdir]

theorem takeOver_absent : takeOver n line tag s = s := by
  have hother : otherTag s n line tag = false := by simp [otherTag, harr, hvic, hdir]
  simp [takeOver, hother, harr, hvic, hdir]

/-- The contents of a line that no cache on this device holds are those of its home's memory. -/
theorem currentLine_absent (hn : homeSlice s tag line = n) (w : Reader) : currentLine w line tag s = homeRead w line tag s := by
  have hheld : readHeld n line s = s := by simp [readHeld, errRow, harr, hvic]
  unfold currentLine
  dsimp only
  rw [hn, sealedCopy_absent harr hvic hdir, if_neg Bool.false_ne_true, takeOver_absent harr hvic hdir, hheld, hdir, heldData, harr,
    hvic]
  rfl

end

/-- A write at the home of a line that no cache on this device holds goes to memory. -/
theorem writeAtHome_absent {tag : Nat} (hn : homeSlice s tag line = n) (harr : arrOf s n line = none) (hvic : vicOf s n line = none)
    (hdir : dirOf s n line = none) (w : Reader) (d : Nat) : writeAtHome w line tag d s =
      writeBack w.how tag line d false (dropArr n line (breakResv w.asHart line s)) := by
  have hcopy : sealedCopy s n line tag = false := sealedCopy_absent harr hvic hdir
  have htake : takeOver n line tag s = s := takeOver_absent harr hvic hdir
  unfold writeAtHome
  dsimp only
  rw [hn, hcopy, if_neg Bool.false_ne_true, htake, hcopy, if_neg Bool.false_ne_true, takeBack_of_dir hdir, harr]

/-- What an operation of maintenance leaves at the home slice. -/
def maintained (q : Pkt) (n line : Nat) (l : SLine) (s : State) : State :=
  if q.op = 1 then cleaned n line l s else if q.op = 2 then dropArr n line (cleaned n line l s)
  else if q.op = 4 then writeBack (pktReader q).how q.tag line 0 false
    (dropArr n line (breakResv (pktReader q).asHart line (dropArr n line s)))
  else dropArr n line s

theorem performMaint_held (h : HeldAt s n line q.tag l) : performMaint q n line s =
    if (q.op = 1 ∨ q.op = 2) ∧ homeWaits (maintained q n line l s) line then maintained q n line l s
    else answerTrk q 0x20 0 0 (maintained q n line l s) := by
  have hzero : writeAtHome (pktReader q) line q.tag 0 (dropArr n line s) = writeBack (pktReader q).how q.tag line 0 false
      (dropArr n line (breakResv (pktReader q).asHart line (dropArr n line s))) :=
    writeAtHome_absent ((homeSlice_dropArr q.tag).trans h.home.symm) (arrOf_dropArr n line s) (vicOf_dropArr n line s)
      (dirOf_dropArr.trans h.dir) _ 0
  unfold performMaint maintained
  dsimp only
  rw [flushLine, h.cleanLine, discardLine_of_dir h.dir, discardLine_of_dir (dirOf_cleaned h.dir), hzero]

theorem breakResv_slices (w : Option Nat) : (breakResv w line s).slices = s.slices :=
  breakResv_part State.slices (fun _ _ _ => rfl) w line s

theorem breakResv_trackers (w : Option Nat) : (breakResv w line s).fabric.trackers = s.fabric.trackers :=
  breakResv_part (fun z => z.fabric.trackers) (fun _ _ _ => rfl) w line s

theorem breakResv_resvs (w : Option Nat) : (breakResv w line s).fabric.resvs = s.fabric.resvs.filter fun e => e.2 != line :=
  breakResv_part (fun z => z.fabric.resvs) (fun _ _ _ => rfl) w line s

theorem trackers_dropArr : (dropArr n line s).fabric.trackers = s.fabric.trackers := by
  rw [dropArr, fabric_putSlice]

theorem maintained_trackers : (maintained q n line l s).fabric.trackers = s.fabric.trackers := by
  unfold maintained
  split
  · exact trackers_cleaned
  · split
    · rw [trackers_dropArr, trackers_cleaned]
    · split
      · rw [trackers_writeBack, trackers_dropArr, breakResv_trackers, trackers_dropArr]
      · exact trackers_dropArr

theorem maintained_gone (h1 : q.op ≠ 1) : arrOf (maintained q n line l s) n line = none ∧
    vicOf (maintained q n line l s) n line = none := by
  unfold maintained
  rw [if_neg h1]
  split
  · exact ⟨arrOf_dropArr .., vicOf_dropArr ..⟩
  · split
    · have hsl := writeBack_part .slices (.inr rfl) (pktReader q).how q.tag line 0 false
        (dropArr n line (breakResv (pktReader q).asHart line (dropArr n line s)))
      exact ⟨(arrOf_of_slices hsl n line).trans (arrOf_dropArr ..), (vicOf_of_slices hsl n line).trans (vicOf_dropArr ..)⟩
    · exact ⟨arrOf_dropArr .., vicOf_dropArr ..⟩

/-- With a clean line nothing more is awaited than before. -/
theorem homeWaits_maintained (hop : q.op = 1 ∨ q.op = 2) (hclean : l.dirty = false) :
    homeWaits (maintained q n line l s) line = homeWaits s line := by
  have hc : cleaned n line l s = s := by
    unfold cleaned
    rw [hclean]
    rfl
  unfold maintained
  rw [hc]
  split
  · rfl
  · next h1 =>
    rw [if_pos (hop.resolve_left h1), homeWaits_dropArr]

/-! ### Atomic operations at the home -/

/-- The line that an atomic operation which stores leaves. -/
def amoData (q : Pkt) (l : SLine) : Nat := linePut l.data (q.pa % 64) q.size
  (amoStore (amoOf q.op) q.size (lineGet l.data (q.pa % 64) q.size) q.data q.cmp)

theorem performAtomic_held (h : HeldAt s n line q.tag l) (hpoison : l.poison = false) : performAtomic q line s =
    if q.op = 0 then answerTrk q 0x30 0 (lineGet l.data (q.pa % 64) q.size) (takeResv q.src line s)
    else if q.op = 1 ∧ s.fabric.resvs.contains (q.src, line) = false then answerTrk q 0x30 0 1 s
    else answerTrk q 0x30 0 (if q.op = 1 then 0 else lineGet l.data (q.pa % 64) q.size)
      (putArr n line { l with data := amoData q l, dirty := true, poison := false }
        (breakResv (pktReader q).asHart line s)) := by
  unfold performAtomic amoData
  rw [h.trkLine, hpoison]
  dsimp only
  rw [h.writeAtHome, answerLine_data, answerLine_data, answerLine_data, id, id, id]

/-! ### The statement -/

/-- The request is performed at slice n as its kind says. -/
theorem request_held {k : Nat} (hline : line = lineOf q.pa) (hn : n = homeSlice s q.tag line) (hk : q.kind = k)
    (h : homeHolds s q n line l) : fabRequest q s = homeReq k q n line (tracked q s) ∧ HeldAt (tracked q s) n line q.tag l ∧
      trkOf s q.src q.xid = none ∧ l.poison = false := by
  obtain ⟨heq, hheld, hnew, hpoison⟩ := fabRequest_held hline hn h
  refine ⟨heq.trans ((performReq_of_kind hk).trans ?_), hheld, hnew, hpoison⟩
  subst hline hn
  rfl

theorem shared_spec (hline : line = lineOf q.pa) (hn : n = homeSlice s q.tag line) (hk : q.kind = 1)
    (h : homeHolds s q n line l) (hroom : (fabRoom n line q.tag s).2 = true) :
    ∃ devs, answeredTrk q (respPkt q 0x30 0 l.data) s (fabRequest q s) ∧
      fabDirOf (fabRequest q s) n line = some ⟨q.tag, false, devs⟩ ∧ q.src ∈ devs := by
  obtain ⟨heq, hheld, hnew, hpoison⟩ := request_held hline hn hk h
  obtain ⟨y, hy⟩ : ∃ y, putFabDir n line (sharerEnt q n line (tracked q s)) (tracked q s) = y := ⟨_, rfl⟩
  rw [heq, homeReq_shared (fabRoom_tracked hroom), performShared_held hheld hpoison, hy]
  obtain ⟨hans, hslices, -⟩ := answerTrk_spec (y := y) hnew (by rw [← hy]; rfl) 0x30 0 l.data
  have hin : q.src ∈ (sharerEnt q n line (tracked q s)).devs := List.mem_eraseDups.2 List.mem_cons_self
  refine ⟨(sharerEnt q n line (tracked q s)).devs, hans, (fabDirOf_of_slices hslices _ _).trans ?_, hin⟩
  rw [← hy]
  exact fabDirOf_putFabDir (List.ne_nil_of_mem hin) _ _ _

theorem homeGone_trackers (tag : Nat) : (homeGone tag n line l s).fabric.trackers = s.fabric.trackers := by
  rw [homeGone, breakResv_trackers, trackers_dropArr]
  split
  · exact trackers_writeBack ..
  · rfl

theorem own_spec (hline : line = lineOf q.pa) (hn : n = homeSlice s q.tag line) (hk : q.kind = 2)
    (h : homeHolds s q n line l) (hroom : (fabRoom n line q.tag s).2 = true) :
    answeredTrk q (respPkt q 0x30 0 l.data) s (fabRequest q s) ∧
      fabDirOf (fabRequest q s) n line = some ⟨q.tag, true, [q.src]⟩ ∧ arrOf (fabRequest q s) n line = none ∧
      vicOf (fabRequest q s) n line = none ∧
      ∀ h, h ∈ s.harts.map (·.1) → (hartOf (fabRequest q s) h).resv ≠ some line := by
  obtain ⟨heq, hheld, hnew, hpoison⟩ := request_held hline hn hk h
  obtain ⟨z, hz⟩ : ∃ z, homeGone q.tag n line l (tracked q s) = z := ⟨_, rfl⟩
  obtain ⟨y, hy⟩ : ∃ y, putFabDir n line ⟨q.tag, true, [q.src]⟩ z = y := ⟨_, rfl⟩
  rw [heq, homeReq_own (fabRoom_tracked hroom), performOwn_held hheld hpoison, hz, hy]
  have htrk : z.fabric.trackers = s.fabric.trackers ++ [⟨q, none⟩] := by
    rw [← hz, homeGone_trackers]
    rfl
  obtain ⟨hans, hslices, hharts, -⟩ := answerTrk_spec (y := y) hnew (by rw [← hy]; exact htrk) 0x30 0 l.data
  have harr : arrOf y n line = arrOf z n line ∧ vicOf y n line = vicOf z n line := by
    rw [← hy, arrOf, arrOf, vicOf, vicOf, putFabDir, setSlice_sliceOf_same]
    exact ⟨rfl, rfl⟩
  have hgone : arrOf z n line = none ∧ vicOf z n line = none := by
    rw [← hz, homeGone]
    exact ⟨(arrOf_of_slices (breakResv_slices _) _ _).trans (arrOf_dropArr ..),
      (vicOf_of_slices (breakResv_slices _) _ _).trans (vicOf_dropArr ..)⟩
  refine ⟨hans, (fabDirOf_of_slices hslices _ _).trans (by rw [← hy]; exact fabDirOf_putFabDir (by simp) _ _ _),
    (arrOf_of_slices hslices _ _).trans (harr.1.trans hgone.1), (vicOf_of_slices hslices _ _).trans (harr.2.trans hgone.2),
    fun k _ => ?_⟩
  have hsame : hartOf (answerTrk q 0x30 0 l.data y) k = hartOf z k := by
    rw [hartOf, hartOf, hharts, ← hy]
    rfl
  rw [hsame, ← hz]
  exact resv_breakResv line _ k

theorem read_spec (hline : line = lineOf q.pa) (hn : n = homeSlice s q.tag line) (hk : q.kind = 3)
    (h : homeHolds s q n line l) : samePart .slices s (fabRequest q s) ∧
      answeredTrk q (respPkt q 0x30 0 (lineGet l.data (q.pa % 64) q.size)) s (fabRequest q s) := by
  obtain ⟨-, hheld, hnew, hpoison⟩ := request_held hline hn hk h
  obtain ⟨heq, -⟩ := fabRequest_held hline hn h
  subst hline hn
  rw [heq, performReq_read hk hheld hpoison]
  obtain ⟨hans, hslices, -⟩ := answerTrk_spec (y := tracked q s) hnew rfl 0x30 0 (lineGet l.data (q.pa % 64) q.size)
  exact ⟨hslices, hans⟩

theorem write_spec (hline : line = lineOf q.pa) (hn : n = homeSlice s q.tag line) (hk : q.kind = 4)
    (h : homeHolds s q n line l) :
    arrOf (fabRequest q s) n line = some { l with data := ncData q l, dirty := true, poison := false } ∧
      answeredTrk q (respPkt q 0x20 0 0) s (fabRequest q s) := by
  obtain ⟨-, hheld, hnew, hpoison⟩ := request_held hline hn hk h
  obtain ⟨heq, -⟩ := fabRequest_held hline hn h
  subst hline hn
  obtain ⟨y, hy⟩ : ∃ y, putArr (homeSlice s q.tag (lineOf q.pa)) (lineOf q.pa)
      { l with data := ncData q l, dirty := true, poison := false }
      (breakResv (pktReader q).asHart (lineOf q.pa) (tracked q s)) = y := ⟨_, rfl⟩
  have hperf : performReq q (tracked q s) = answerTrk q 0x20 0 0 y := hy ▸ performReq_write hk hheld hpoison
  have htrk : y.fabric.trackers = s.fabric.trackers ++ [⟨q, none⟩] := by
    rw [← hy, putArr, fabric_putSlice, breakResv_trackers]
    rfl
  obtain ⟨hans, hslices, -⟩ := answerTrk_spec (y := y) hnew htrk 0x20 0 0
  rw [heq, hperf]
  exact ⟨(arrOf_of_slices hslices _ _).trans (by rw [← hy]; exact arrOf_putArr ..), hans⟩

theorem line_spec (hline : line = lineOf q.pa) (hn : n = homeSlice s q.tag line) (hk : q.kind = 5)
    (h : homeHolds s q n line l) :
    samePart .slices s (fabRequest q s) ∧ answeredTrk q (respPkt q 0x20 0 0) s (fabRequest q s) := by
  obtain ⟨heq, -, hnew, -⟩ := fabRequest_held hline hn h
  rw [heq, performReq_line hk]
  obtain ⟨y, hy⟩ : ∃ y, writeBack (if q.removal then .removal else .fabric) q.tag (lineOf q.pa) q.data q.poison (tracked q s) = y :=
    ⟨_, rfl⟩
  have htrk : y.fabric.trackers = s.fabric.trackers ++ [⟨q, none⟩] := by
    rw [← hy, trackers_writeBack]
    rfl
  obtain ⟨hans, hslices, -⟩ := answerTrk_spec (y := y) hnew htrk 0x20 0 0
  rw [hy]
  exact ⟨hslices.trans (by rw [← hy]; exact writeBack_part .slices (.inr rfl) ..), hans⟩

theorem evict_spec (hline : line = lineOf q.pa) (hn : n = homeSlice s q.tag line) (hk : q.kind = 6)
    (h : homeHolds s q n line l) : answeredTrk q (respPkt q 0x20 0 0) s (fabRequest q s) ∧ dramKept s (fabRequest q s) ∧
      (sliceOf (fabRequest q s) n).lines = (sliceOf s n).lines ∧
      ∀ e, fabDirOf (fabRequest q s) n line = some e → q.src ∉ e.devs := by
  obtain ⟨heq, -, hnew, -⟩ := request_held hline hn hk h
  obtain ⟨hmem, hfab, hlines, hout⟩ := evicted_spec (q := q) (s := tracked q s) (n := n) (line := line)
  obtain ⟨y, hy⟩ : ∃ y, evicted q n line (tracked q s) = y := ⟨_, rfl⟩
  rw [hy] at hmem hfab hlines hout
  have hperf : homeReq 6 q n line (tracked q s) = answerTrk q 0x20 0 0 y := hy ▸ performEvict_eq
  rw [heq, hperf]
  obtain ⟨hans, hslices, -, -, hkept⟩ := answerTrk_spec (y := y) hnew (by rw [hfab]; rfl) 0x20 0 0
  refine ⟨hans, ?_, ?_, ?_⟩
  · rw [dramKept, hkept, hmem]
    rfl
  · rw [sliceOf, hslices]
    exact hlines
  · rw [fabDirOf_of_slices hslices]
    exact hout

theorem maint_spec (hline : line = lineOf q.pa) (hn : n = homeSlice s q.tag line) (hk : q.kind = 7)
    (h : homeHolds s q n line l) :
    (q.op ≠ 1 → q.op ≠ 2 → answeredTrk q (respPkt q 0x20 0 0) s (fabRequest q s)) ∧
      (q.op = 1 ∨ q.op = 2 → l.dirty = false → homeWaits s line = false →
        answeredTrk q (respPkt q 0x20 0 0) s (fabRequest q s)) ∧
      (q.op = 1 ∨ q.op = 2 → l.dirty = false → homeWaits s line = true →
        (fabRequest q s).fabric.trackers = s.fabric.trackers ++ [⟨q, none⟩]) ∧
      (q.op = 1 → arrOf (fabRequest q s) n line = some { l with dirty := false }) ∧
      (q.op ≠ 1 → arrOf (fabRequest q s) n line = none ∧ vicOf (fabRequest q s) n line = none) := by
  obtain ⟨heq, hheld, hnew, -⟩ := request_held hline hn hk h
  have hperf : homeReq 7 q n line (tracked q s) = _ := performMaint_held hheld
  have htrk : (maintained q n line l (tracked q s)).fabric.trackers = s.fabric.trackers ++ [⟨q, none⟩] := maintained_trackers
  have hwait : q.op = 1 ∨ q.op = 2 → l.dirty = false →
      homeWaits (maintained q n line l (tracked q s)) line = homeWaits s line := fun hop hclean =>
    homeWaits_maintained hop hclean
  have hone : q.op = 1 → arrOf (maintained q n line l (tracked q s)) n line = some { l with dirty := false } := fun h1 => by
    rw [maintained, if_pos h1]
    exact arrOf_cleaned hheld.arr
  have hgone := fun h1 : q.op ≠ 1 => maintained_gone (l := l) (n := n) (line := line) (s := tracked q s) h1
  rw [heq, hperf]
  generalize maintained q n line l (tracked q s) = y at *
  obtain ⟨hans, hslices, -⟩ := answerTrk_spec (y := y) hnew htrk 0x20 0 0
  refine ⟨fun h1 h2 => ?_, fun hop hclean hw => ?_, fun hop hclean hw => ?_, fun h1 => ?_, fun h1 => ?_⟩
  · rw [if_neg (by simp [h1, h2])]
    exact hans
  · rw [if_neg (by simp [hwait hop hclean, hw])]
    exact hans
  · rw [if_pos ⟨hop, (hwait hop hclean).trans hw⟩]
    exact htrk
  · split
    · exact hone h1
    · exact (arrOf_of_slices hslices _ _).trans (hone h1)
  · split
    · exact hgone h1
    · exact ⟨(arrOf_of_slices hslices _ _).trans (hgone h1).1, (vicOf_of_slices hslices _ _).trans (hgone h1).2⟩

theorem resvs_takeResv (src : Nat) : (src, line) ∈ (takeResv src line s).fabric.resvs := List.mem_cons_self

theorem atomic_spec (hline : line = lineOf q.pa) (hn : n = homeSlice s q.tag line) (hk : q.kind = 8)
    (h : homeHolds s q n line l) :
    (q.op = 0 → answeredTrk q (respPkt q 0x30 0 (lineGet l.data (q.pa % 64) q.size)) s (fabRequest q s) ∧
        (q.src, line) ∈ (fabRequest q s).fabric.resvs ∧ samePart .slices s (fabRequest q s)) ∧
      (q.op = 1 → (q.src, line) ∉ s.fabric.resvs → answeredTrk q (respPkt q 0x30 0 1) s (fabRequest q s) ∧
        samePart .slices s (fabRequest q s)) ∧
      (q.op = 1 → (q.src, line) ∈ s.fabric.resvs →
        answeredTrk q (respPkt q 0x30 0 0) s (fabRequest q s) ∧ (∀ e ∈ (fabRequest q s).fabric.resvs, e.2 ≠ line) ∧
        ∃ r, arrOf (fabRequest q s) n line = some r ∧ r.dirty = true ∧ r.data = amoData q l) ∧
      (q.op ≠ 0 → q.op ≠ 1 → answeredTrk q (respPkt q 0x30 0 (lineGet l.data (q.pa % 64) q.size)) s (fabRequest q s) ∧
        (∀ e ∈ (fabRequest q s).fabric.resvs, e.2 ≠ line) ∧
        ∃ r, arrOf (fabRequest q s) n line = some r ∧ r.dirty = true ∧ r.data = amoData q l) := by
  obtain ⟨heq, hheld, hnew, hpoison⟩ := request_held hline hn hk h
  have hperf : homeReq 8 q n line (tracked q s) = _ := performAtomic_held hheld hpoison
  obtain ⟨y, hy⟩ : ∃ y, putArr n line { l with data := amoData q l, dirty := true, poison := false }
      (breakResv (pktReader q).asHart line (tracked q s)) = y := ⟨_, rfl⟩
  have htrk : y.fabric.trackers = s.fabric.trackers ++ [⟨q, none⟩] := by
    rw [← hy, putArr, fabric_putSlice, breakResv_trackers]
    rfl
  have hresvs : ∀ e ∈ y.fabric.resvs, e.2 ≠ line := fun e he => by
    rw [← hy, putArr, fabric_putSlice, breakResv_resvs] at he
    simpa using (List.mem_filter.1 he).2
  have harr : arrOf y n line = some { l with data := amoData q l, dirty := true, poison := false } := by
    rw [← hy]
    exact arrOf_putArr ..
  have hstored : ∀ v, answeredTrk q (respPkt q 0x30 0 v) s (answerTrk q 0x30 0 v y) ∧
      (∀ e ∈ (answerTrk q 0x30 0 v y).fabric.resvs, e.2 ≠ line) ∧
      ∃ r, arrOf (answerTrk q 0x30 0 v y) n line = some r ∧ r.dirty = true ∧ r.data = amoData q l := fun v => by
    obtain ⟨hans, hslices, -, hkept, -⟩ := answerTrk_spec (y := y) hnew htrk 0x30 0 v
    exact ⟨hans, by rw [hkept]; exact hresvs, _, (arrOf_of_slices hslices _ _).trans harr, rfl, rfl⟩
  rw [hy] at hperf
  rw [heq, hperf]
  refine ⟨fun h0 => ?_, fun h1 hno => ?_, fun h1 hin => ?_, fun h0 h1 => ?_⟩
  · rw [if_pos h0]
    obtain ⟨hans, hslices, -, hkept, -⟩ := answerTrk_spec (y := takeResv q.src line (tracked q s)) hnew rfl 0x30 0
      (lineGet l.data (q.pa % 64) q.size)
    exact ⟨hans, by rw [hkept]; exact resvs_takeResv _, hslices⟩
  · have hc : s.fabric.resvs.contains (q.src, line) = false := by simpa using hno
    rw [if_neg (by omega), if_pos ⟨h1, hc⟩]
    obtain ⟨hans, hslices, -⟩ := answerTrk_spec (y := tracked q s) hnew rfl 0x30 0 1
    exact ⟨hans, hslices⟩
  · have hc : (tracked q s).fabric.resvs.contains (q.src, line) = true := List.contains_iff_mem.2 hin
    rw [if_neg (by omega), if_neg (by rw [hc]; simp), if_pos h1]
    exact hstored 0
  · rw [if_neg h0, if_neg (by simp [h1]), if_neg h1]
    exact hstored _

/-- The read of a line that a CXL.mem port holds. -/
def portRead (q : Pkt) (line : Nat) (s : State) : Out :=
  { xid := 0, dev := outDev s line, kind := 3, pa := line * 64, tag := q.tag, origin := .tracker q.src q.xid }

theorem askPort_new (h : ∀ o ∈ s.outs, o.origin ≠ .tracker q.src q.xid) :
    askPort q line (s, .far) = (sendOut (portRead q line s) s, .wait) := by
  have hnone : (s.outs.any fun o => o.origin == .tracker q.src q.xid) = false := List.any_eq_false.2 fun o ho => by
    simpa using h o ho
  show ((if s.outs.any fun o => o.origin == .tracker q.src q.xid then s else sendOut (portRead q line s) s), Seen.wait) = _
  rw [hnone, if_neg Bool.false_ne_true]

theorem homeRead_far {w : Reader} {tag : Nat} (hread : readOf s w (line % 2 ^ 40) tag = none) (hown : ownDram s line = false) :
    homeRead w line tag s = (s, .far) := by
  unfold homeRead
  rw [hread, ite_self, hown]
  rfl

/-- A line of a CXL.mem port that no cache holds is asked for at the port (R281). -/
theorem portRead_spec (hline : line = lineOf q.pa) (hn : n = homeSlice s q.tag line) (hk : q.kind = 3)
    (hnew : trkOf s q.src q.xid = none) (hfree : trackerFree s q.src = true) (had : admits s q = true)
    (hserve : canServe s q = true) (hreg : regionOf (offOf q.pa) = .cxl) (hown : ownDram s line = false)
    (hbusy : lineBusy s q.tag line = false) (hway : wayClear s n line false none = true) (harr : arrOf s n line = none)
    (hvic : vicOf s n line = none) (hdir : dirOf s n line = none) (hread : readOf s (pktReader q) (line % 2 ^ 40) q.tag = none)
    (houts : ∀ o ∈ s.outs, o.origin ≠ .tracker q.src q.xid) :
    ∃ o, (fabRequest q s).outs = s.outs ++ [o] ∧ o.xid = s.nextXid ∧ o.kind = 3 ∧ o.dev = outDev s line ∧
        o.pa = line * 64 ∧ o.tag = q.tag ∧ o.origin = .tracker q.src q.xid ∧
        (fabRequest q s).fabric.trackers = s.fabric.trackers ++ [⟨q, none⟩] ∧ samePart .mem s (fabRequest q s) ∧
        samePart .slices s (fabRequest q s) := by
  have hexcl : needExcl q = false ∧ mayKeep q = none := by simp [needExcl, mayKeep, hk]
  have hserved : fabRequest q s = performReq q (tracked q s) := by
    rw [fabRequest_served hnew hfree had hserve, serveAt_line (.inr hreg)]
    refine serveLine_clear (s := tracked q s) (by omega) (by omega) (hline ▸ hbusy) ?_
    rw [hexcl.1, hexcl.2, ← hline]
    exact hn ▸ hway
  have hfar : homeRead (pktReader q) line q.tag (tracked q s) = (tracked q s, .far) :=
    homeRead_far (s := tracked q s) hread hown
  have htrk : trkLine q line (tracked q s) = (sendOut (portRead q line (tracked q s)) (tracked q s), .wait) := by
    rw [trkLine, currentLine_absent (s := tracked q s) harr hvic hdir hn.symm, hfar]
    exact askPort_new (s := tracked q s) houts
  have hperf : performReq q (tracked q s) = sendOut (portRead q line (tracked q s)) (tracked q s) := by
    refine (performReq_of_kind hk).trans ?_
    show answerLine q (trkLine q (lineOf q.pa) (tracked q s)).2 _ (trkLine q (lineOf q.pa) (tracked q s)).1 = _
    rw [← hline, htrk]
    rfl
  have hkeep := sendOut_keeps (portRead q line (tracked q s)) (tracked q s) (keeps_refl _ _) (Nat.or_self _)
  rw [hserved, hperf]
  exact ⟨_, outs_sendOut _ _, rfl, rfl, rfl, rfl, rfl, rfl, sendOut_fabric _ _, hkeep.part .mem rfl, hkeep.part .slices rfl⟩

end

/-- Settles O44: a request reaches its home slice by the rules of its tracker, and what the slice holds decides its answer. -/
theorem fabricRequestsAtTheHome : Obligations.FabricRequestsAtTheHome := by
  unfold Obligations.FabricRequestsAtTheHome
  intro s p line n hline hn
  refine ⟨homeTakes_of rfl, homeTakes_of rfl, homeTakes_of rfl, homeTakes_of rfl, homeTakes_of rfl, homeTakes_of rfl,
    homeTakes_of rfl, homeTakes_of rfl, ?_, ?_, ?_, ?_, ?_, ?_, ?_, ?_, ?_⟩
  · rintro q l rfl hholds hroom
    obtain ⟨devs, hans, hdir, hin⟩ := shared_spec (q := { p with kind := 1 }) hline hn rfl hholds hroom
    exact ⟨_, devs, rfl, hans, hdir, hin⟩
  · rintro q l rfl hholds hroom
    exact ⟨_, rfl, own_spec (q := { p with kind := 2 }) hline hn rfl hholds hroom⟩
  · rintro q l rfl hholds
    exact ⟨_, rfl, read_spec (q := { p with kind := 3 }) hline hn rfl hholds⟩
  · rintro q l d rfl hholds rfl
    exact ⟨_, rfl, write_spec (q := { p with kind := 4 }) hline hn rfl hholds⟩
  · rintro q l rfl hholds
    exact ⟨_, rfl, line_spec (q := { p with kind := 5 }) hline hn rfl hholds⟩
  · rintro q l rfl hholds
    exact ⟨_, rfl, evict_spec (q := { p with kind := 6 }) hline hn rfl hholds⟩
  · rintro q l rfl hholds
    exact ⟨_, rfl, maint_spec (q := { p with kind := 7 }) hline hn rfl hholds⟩
  · rintro q rfl hnew hfree had hserve hreg hown hbusy hway harr hvic hdir hread houts
    obtain ⟨o, h⟩ := portRead_spec (q := { p with kind := 3 }) hline hn rfl hnew hfree had hserve hreg hown hbusy hway harr hvic
      hdir hread houts
    exact ⟨_, o, rfl, h⟩
  · rintro q l old rfl hholds rfl
    obtain ⟨hlr, hfail, hsc, hamo⟩ := atomic_spec (q := { p with kind := 8 }) hline hn rfl hholds
    exact ⟨fun h => ⟨_, rfl, hlr h⟩, fun h hno => ⟨_, rfl, hfail h hno⟩, fun h hin => ⟨_, rfl, hsc h hin⟩,
      fun h0 h1 => ⟨_, rfl, hamo h0 h1⟩⟩

end Sys2Proof.Machine
end

section
/-! The IOMMU's registers and translation (R270, R271), as far as SERDES_INGRESS_REQUEST depends on them (O48). -/
set_option Elab.async false
namespace Sys2Proof.Machine

/-! ### What counting an event leaves -/

/-- The event counters of group g's IOMMU moved: nothing but the group's registers from offset 84 on and its list of MSIs. -/
structure IomCounted (g : Nat) (s t : State) : Prop where
  state : ∃ gs, t = { s with groups := gs }
  group : ∃ page msis, groupOf t g = { groupOf s g with page := page, msis := msis }
  low : ∀ k < 84, tget 0 (groupOf t g).page k = tget 0 (groupOf s g).page k

theorem IomCounted.refl (g : Nat) (s : State) : IomCounted g s s where
  state := ⟨s.groups, rfl⟩
  group := ⟨_, _, rfl⟩
  low := fun _ _ => rfl

theorem IomCounted.trans {g : Nat} {s t u : State} (h : IomCounted g s t) (k : IomCounted g t u) : IomCounted g s u where
  state := by
    obtain ⟨gs, rfl⟩ := h.state
    obtain ⟨hs, rfl⟩ := k.state
    exact ⟨hs, rfl⟩
  group := by
    obtain ⟨p, m, hp⟩ := h.group
    obtain ⟨p', m', hp'⟩ := k.group
    exact ⟨p', m', by rw [hp', hp]⟩
  low := fun i hi => (k.low i hi).trans (h.low i hi)

theorem IomCounted.ite {p : Prop} [Decidable p] {g : Nat} {s t u : State} (ht : IomCounted g s t) (hu : IomCounted g s u) :
    IomCounted g s (if p then t else u) := by
  split
  · exact ht
  · exact hu

theorem groupOf_modGroup (g : Nat) (f : Group → Group) (s : State) : groupOf (modGroup g f s) g = f (groupOf s g) := by
  rw [groupOf, modGroup, setGroup, tget_tset_same]

theorem IomCounted.setIom {off : Nat} (hoff : 84 ≤ off) (g n v : Nat) (s : State) : IomCounted g s (setIom g off n v s) where
  state := ⟨_, rfl⟩
  group := ⟨_, _, groupOf_modGroup g _ s⟩
  low := fun k hk => by rw [Machine.setIom, groupOf_modGroup, tget_putLE, if_neg (by omega)]

theorem IomCounted.iomFlag {off : Nat} (hoff : 84 ≤ off) (g i : Nat) (on : Bool) (s : State) : IomCounted g s (iomFlag g off i on s) :=
  .setIom hoff g 4 _ s

theorem IomCounted.iomInterrupt (g i : Nat) (s : State) : IomCounted g s (iomInterrupt g i s) := by
  have hflag : IomCounted g s (Machine.iomFlag g 84 i true s) := .iomFlag (Nat.le_refl _) g i true s
  have hmsi (e : Nat) (y : State) : IomCounted g y
      (modGroup g (fun q => { q with msis := q.msis ++ [(getLE q.page e 8, getLE q.page (e + 8) 4)] }) y) :=
    ⟨⟨_, rfl⟩, ⟨_, _, groupOf_modGroup g _ y⟩, fun k _ => by rw [groupOf_modGroup]⟩
  unfold Machine.iomInterrupt
  split
  · exact .refl g s
  · dsimp only
    split
    · exact hflag
    · exact hflag.trans (hmsi _ _)

theorem IomCounted.iomCount (g ev : Nat) (q : DevReq) (gscid pscid : Nat) (s : State) :
    IomCounted g s (iomCount g ev q gscid pscid s) := by
  unfold Machine.iomCount
  refine List.foldlRecOn (motive := IomCounted g s) (List.range 8) _ (.refl g s) fun a ha i _ => ha.trans ?_
  have hval (v : Nat) : IomCounted g a (Machine.setIom g (104 + 8 * i) 8 v a) := .setIom (by omega) g 8 v a
  have hcfg (v : Nat) (y : State) : IomCounted g y (Machine.setIom g (352 + 8 * i) 8 v y) := .setIom (by omega) g 8 v y
  have htold (y : State) : IomCounted g y (Machine.iomInterrupt g 2 (Machine.iomFlag g 88 (i + 1) true y)) :=
    (IomCounted.iomFlag (by decide) g (i + 1) true y).trans (.iomInterrupt g 2 _)
  refine .ite (.ite ?_ (hval _)) (.refl g a)
  exact .trans (.trans (hval _) (hcfg _ _)) (htold _)

theorem getLE_congr {b c : Bytes} {off n : Nat} (h : ∀ k, off ≤ k → k < off + n → tget 0 b k = tget 0 c k) :
    getLE b off n = getLE c off n := by
  induction n generalizing off with
  | zero => rfl
  | succ n ih => rw [getLE, getLE, h off (Nat.le_refl _) (by omega), ih fun k hk hn => h k (by omega) (by omega)]

theorem IomCounted.iomReg {g : Nat} {s t : State} (h : IomCounted g s t) {off n : Nat} (hle : off + n ≤ 84) :
    iomReg t g off n = iomReg s g off n :=
  getLE_congr fun k _ hk => h.low k (by omega)

theorem IomCounted.iomBit {g : Nat} {s t : State} (h : IomCounted g s t) {off i : Nat} (hle : off + 4 ≤ 84) :
    iomBit t g off i = iomBit s g off i := by rw [Machine.iomBit, h.iomReg hle, Machine.iomBit]

theorem IomCounted.ctx {g : Nat} {s t : State} (h : IomCounted g s t) : (groupOf t g).ctx = (groupOf s g).ctx := by
  obtain ⟨_, _, hg⟩ := h.group
  rw [hg]

theorem IomCounted.devTenancy {g : Nat} {s t : State} (h : IomCounted g s t) (dev : Nat) :
    devTenancy t g dev = devTenancy s g dev := by
  obtain ⟨_, _, hg⟩ := h.group
  rw [Machine.devTenancy, hg, Machine.devTenancy]

theorem IomCounted.part {g : Nat} {s t : State} (h : IomCounted g s t) {p : Part} (hp : p ≠ .groups) : samePart p s t := by
  obtain ⟨gs, rfl⟩ := h.state
  cases p <;> first | rfl | exact absurd rfl hp

/-! ### How the translation of a request ends -/

variable {s : State} {g : Nat} {r : DevReq}

/-- Without a context of its own a request under ddtp.mode 0 is told of fault 256; with the fault queue off that leaves no record. -/
theorem iomTry_off (hctx : tget 0 (groupOf s g).ctx r.dev = 0) (hmode : iomReg s g 16 8 % 16 = 0) (hq : iomBit s g 76 16 = false)
    (unit : Nat) : iomTry g unit r s = (iomCount g (r.kind + 1) r 0 0 s, .fault 256 0) := by
  have hc := IomCounted.iomCount g (r.kind + 1) r 0 0 s
  generalize hs1 : iomCount g (r.kind + 1) r 0 0 s = s1 at hc
  have hctx1 : tget 0 (groupOf s1 g).ctx r.dev = 0 := by rw [hc.ctx, hctx]
  have hmode1 : bits (iomReg s1 g 16 8) 3 0 = 0 := by rw [hc.iomReg (by decide), bits, Nat.pow_zero, Nat.div_one]; exact hmode
  have hfind : findCtx g r s1 = (s1, .fault 256) := by
    unfold findCtx
    dsimp only
    rw [if_neg (not_not_intro hctx1), if_pos hmode1]
  have hpush : faultRecord g 256 0 r s1 = (s1, true) := by
    unfold faultRecord pushQueue
    exact if_pos (Or.inl ((hc.iomBit (by decide)).trans hq))
  have htell : tellFault g unit 256 0 false r s1 = (s1, true) := by
    unfold tellFault
    dsimp only
    rw [if_neg (not_not_intro hctx1), if_neg (fun h => absurd h.1 (by decide)), hpush]
  unfold iomTry
  rw [hs1, hfind]
  dsimp only
  rw [htell]
  exact congrArg (Prod.mk _) (if_pos rfl)

/-- Without a context of its own an untranslated request under ddtp.mode 1 goes to the address that it names. -/
theorem iomTry_bare (hctx : tget 0 (groupOf s g).ctx r.dev = 0) (hmode : iomReg s g 16 8 % 16 = 1) (hkind : r.kind = 0) (unit : Nat) :
    iomTry g unit r s = (iomCount g 1 r 0 0 s, .ok r.iova) := by
  have hc := IomCounted.iomCount g 1 r 0 0 s
  generalize hs1 : iomCount g 1 r 0 0 s = s1 at hc
  have hctx1 : tget 0 (groupOf s1 g).ctx r.dev = 0 := by rw [hc.ctx, hctx]
  have hmode1 : bits (iomReg s1 g 16 8) 3 0 = 1 := by rw [hc.iomReg (by decide), bits, Nat.pow_zero, Nat.div_one]; exact hmode
  have hfind : findCtx g r s1 = (s1, .got none) := by
    unfold findCtx
    dsimp only
    rw [if_neg (not_not_intro hctx1), if_neg (by rw [hmode1]; decide), if_pos hmode1, if_pos hkind]
  unfold iomTry
  rw [hkind, Nat.zero_add, hs1, hfind]

/-- A context that its tenancy does not reach is told of as fault 257, in the tenancy's record. -/
theorem iomTry_unreached (hctx : tget 0 (groupOf s g).ctx r.dev ≠ 0)
    (hreach : iomReach s (devTenancy s g r.dev) (tget 0 (groupOf s g).ctx r.dev - 1) = false) (unit : Nat) : ∃ y, IomCounted g s y ∧
      iomTry g unit r s = (recVisible (nextSlice y) 4 unit 0x0404 [devTenancy s g r.dev] 0 [] unit (bytesOf 8 257 ++ bytesOf 8 r.iova) y,
        .fault 257 0) := by
  have hc := IomCounted.iomCount g (r.kind + 1) r 0 0 s
  generalize hs1 : iomCount g (r.kind + 1) r 0 0 s = s1 at hc
  have hd := IomCounted.iomCount g 5 r 0 0 s1
  generalize hs2 : iomCount g 5 r 0 0 s1 = s2 at hd
  have h2 := hc.trans hd
  have hreach2 : iomReach s2 (devTenancy s1 g r.dev) (tget 0 (groupOf s1 g).ctx r.dev - 1) = false := by
    rw [hc.devTenancy, hc.ctx]
    obtain ⟨_, rfl⟩ := h2.state
    exact hreach
  have hread : readCtx g (devTenancy s1 g r.dev) (tget 0 (groupOf s1 g).ctx r.dev - 1) true s2 = (s2, .fault 257) := by
    unfold readCtx iomRead
    rw [if_neg (by rw [hreach2]; decide)]
  have hfind : findCtx g r s1 = (s2, .fault 257) := by
    unfold findCtx
    dsimp only
    rw [if_pos (by rw [hc.ctx]; exact hctx), hs2, hread]
  have htell : tellFault g unit 257 0 false r s2 =
      (recVisible (nextSlice s2) 4 unit 0x0404 [devTenancy s g r.dev] 0 [] unit (bytesOf 8 257 ++ bytesOf 8 r.iova) s2, true) := by
    unfold tellFault
    dsimp only
    rw [h2.devTenancy, if_pos (by rw [h2.ctx]; exact hctx)]
  refine ⟨s2, h2, ?_⟩
  generalize recVisible (nextSlice s2) 4 unit 0x0404 [devTenancy s g r.dev] 0 [] unit (bytesOf 8 257 ++ bytesOf 8 r.iova) s2 = z at htell ⊢
  unfold iomTry
  rw [hs1, hfind]
  dsimp only
  rw [htell]
  exact congrArg (Prod.mk _) (if_pos rfl)

end Sys2Proof.Machine
end

section
/-! The requests that reach a SERDES group from outside (R269 to R282), by what they ask (O48). -/
set_option Elab.async false
namespace Sys2Proof.Machine

variable {s : State} {g n : Nat} {q r : DevReq}

/-! ### Requests that are not translated -/

theorem ingressRequest_off (h : portState s g n ≠ 3 ∨ (isMemDevice s g = true ∧ q.kind ≠ 5)) : ingressRequest g n q s = s := by
  unfold ingressRequest
  dsimp only
  rw [if_neg (by rintro ⟨hup, hkind, -⟩; exact h.elim (· hup) (·.2 hkind)),
    if_neg (by rintro ⟨hup, hmem⟩; exact h.elim (· hup) fun h => by rw [h.1] at hmem; cases hmem)]

theorem ingressRequest_self (hup : portState s g n = 3) (hkind : q.kind = 5) (hrole : isEndpoint s g = true ∨ isMemDevice s g = true) :
    ingressRequest g n q s = dwordAccess g q (fun a => selfDword a g) (selfStore g) s :=
  if_pos ⟨hup, hkind, hrole⟩

theorem ingressRequest_bar (hup : portState s g n = 3) (hmem : isMemDevice s g = false) (hep : isEndpoint s g = true)
    (hkind : q.kind = 4) : ingressRequest g n q s = if 0x10000 ≤ q.iova then farAnswer g 1 [] s
      else sendPending g (dwordAccess g q (fun a => bar0Dword a g) (bar0Store g) s) := by
  unfold ingressRequest
  dsimp only
  rw [if_neg (by rw [hkind]; rintro ⟨-, h, -⟩; exact absurd h (by decide)), if_pos ⟨hup, hmem⟩, if_pos ⟨hkind, hep⟩]

theorem ingressRequest_time (hup : portState s g n = 3) (hmem : isMemDevice s g = false) (hkind : q.kind = 6)
    (hrole : portRole s g n = 1) : ingressRequest g n q s = farAnswer g 0 (putLE [] 0 8 (now s)) s := by
  unfold ingressRequest
  dsimp only
  rw [if_neg (by rw [hkind]; rintro ⟨-, h, -⟩; exact absurd h (by decide)), if_pos ⟨hup, hmem⟩,
    if_neg (by rw [hkind]; rintro ⟨h, -⟩; exact absurd h (by decide)), if_pos ⟨hkind, hrole⟩]

theorem ingressRequest_refused (hup : portState s g n = 3) (hmem : isMemDevice s g = false) (hep : isEndpoint s g = false)
    (hkind : 4 ≤ q.kind) (hrole : q.kind ≠ 6 ∨ portRole s g n ≠ 1) : ingressRequest g n q s = farAnswer g 1 [] s := by
  unfold ingressRequest
  dsimp only
  rw [if_neg (by rw [hep, hmem]; rintro ⟨-, -, h⟩; simp at h), if_pos ⟨hup, hmem⟩,
    if_neg (by rw [hep]; rintro ⟨-, h⟩; cases h), if_neg (by rintro ⟨hk, hr⟩; exact hrole.elim (· hk) (· hr)), if_pos hkind]

theorem inboundReq_same (s : State) (g : Nat) (q : DevReq) : (inboundReq s g q).kind = q.kind ∧
    (inboundReq s g q).size = q.size ∧ (inboundReq s g q).write = q.write := by
  unfold inboundReq
  split <;> exact ⟨rfl, rfl, rfl⟩

theorem ingressRequest_resetting (hup : portState s g n = 3) (hmem : isMemDevice s g = false) (hkind : q.kind < 4)
    (hreset : (inboundReq s g q).dev ∈ (groupOf s g).resetting) : ingressRequest g n q s = farAnswer g 1 [] s := by
  unfold ingressRequest
  dsimp only
  rw [if_neg (by rintro ⟨-, h, -⟩; omega), if_pos ⟨hup, hmem⟩, if_neg (by rintro ⟨h, -⟩; omega), if_neg (by rintro ⟨h, -⟩; omega),
    if_neg (by omega), if_pos (List.contains_iff_mem.2 hreset)]

/-! ### Requests that the IOMMU translates -/

/-- A request that is not done has left no trace in the groups. -/
def ended (s : State) (a : State × Bool) : State := if a.2 then a.1 else { a.1 with groups := s.groups }

/-- What becomes of a request whose translation ended so. -/
def translated (g : Nat) (r : DevReq) (s : State) : State × IomAns → State
  | (s1, .ok pa) =>
    let s2 := modGroup g (fun x => { x with cached := (r.dev :: x.cached).eraseDups }) s1
    if r.kind = 2 then atsAnswer g r (some pa) s2
    else ended s (ingress g r.dev pa r.write r.size r.data s2)
  | (s1, .fault k _) => if r.kind = 2 ∧ isPageFault k then atsAnswer g r none s1 else farAnswer g 1 [] s1
  | (s1, .wait) => s1

theorem ingressRequest_translated (hr : r = inboundReq s g q) (hup : portState s g n = 3) (hmem : isMemDevice s g = false)
    (hreset : r.dev ∉ (groupOf s g).resetting) (hkind : r.kind < 3) (hep : isEndpoint s g = false ∨ r.dev < 0xFF08) :
    ingressRequest g n q s = translated g r s (iomTranslate g (portUnit g n) r s) := by
  obtain ⟨hk, -⟩ := inboundReq_same s g q
  rw [← hr] at hk
  unfold ingressRequest
  dsimp only
  rw [← hr, if_neg (by rintro ⟨-, h, -⟩; omega), if_pos ⟨hup, hmem⟩, if_neg (by rintro ⟨h, -⟩; omega), if_neg (by rintro ⟨h, -⟩; omega),
    if_neg (by omega), if_neg (fun h => hreset (List.contains_iff_mem.1 h)),
    if_neg (by rintro ⟨h, hd⟩; rw [h] at hep; exact hep.elim (fun h => by cases h) (fun h => by omega)), if_neg (by omega)]
  rfl

/-- A fault that is no page fault refuses the request. -/
theorem translated_fault {s1 : State} {k v : Nat} (hk : isPageFault k = false) :
    translated g r s (s1, .fault k v) = farAnswer g 1 [] s1 :=
  if_neg (by rw [hk]; rintro ⟨-, h⟩; cases h)

theorem iomTranslate_of_ended {s1 : State} {unit : Nat} {a : IomAns} (h : iomTry g unit r s = (s1, a)) (ha : a ≠ .wait) :
    iomTranslate g unit r s = (dropReads (.iommu g) s1, a) := by
  unfold iomTranslate
  rw [h]
  cases a with
  | ok pa => rfl
  | fault k v => rfl
  | wait => exact absurd rfl ha

/-! ### What they are answered -/

theorem farAnswer_ans (g c : Nat) (d : Bytes) (s : State) : (groupOf (farAnswer g c d s) g).ans = some ⟨c, d⟩ := by
  rw [farAnswer, groupOf_modGroup]

theorem farAnswer_part {p : Part} (hp : p ≠ .groups) (g c : Nat) (d : Bytes) (s : State) : samePart p s (farAnswer g c d s) := by
  cases p <;> first | rfl | exact absurd rfl hp

/-- A read of a whole doubleword is answered with it. -/
theorem dwordAccess_read (hwrite : q.write = false) (hsize : q.size = 4) (halign : q.iova % 4 = 0) (read : State → Nat → Nat)
    (store : Nat → Nat → State → State) (hlt : read s q.iova < 2 ^ 32) :
    dwordAccess g q read store s = farAnswer g 0 (putLE [] 0 4 (read s q.iova)) s := by
  have hat : q.iova / 4 * 4 = q.iova := by omega
  have hval : (read s q.iova + read s (q.iova + 4) * 2 ^ 32) / 256 ^ 0 % 256 ^ 4 = read s q.iova := by
    rw [Nat.pow_zero, Nat.div_one]
    exact (Nat.add_mul_mod_self_right _ _ _).trans (Nat.mod_eq_of_lt hlt)
  unfold dwordAccess
  dsimp only
  rw [hwrite, hsize, hat, halign, hval]
  rfl

theorem selfDword_zero (s : State) (g : Nat) : selfDword s g 0 = 0x1F9D + (if isEndpoint s g then 0xD911 else 0xD912) * 2 ^ 16 := rfl

theorem getLE_lt (b : Bytes) (off n : Nat) : getLE b off n < 256 ^ n := by
  induction n generalizing off with
  | zero => exact Nat.one_pos
  | succ n ih =>
    have hrest := ih (off + 1)
    rw [getLE, Nat.pow_succ]
    omega

/-- With no vector pending none is sent. -/
theorem sendPending_none (h : (groupOf s g).msixPend = []) : sendPending g s = s := by
  rw [sendPending, h]
  rfl

theorem ingress_id (hup : portState s g n = 3) (hkind : q.kind = 5) (hrole : isEndpoint s g = true ∨ isMemDevice s g = true)
    (hwrite : q.write = false) (hat : q.iova = 0) (hsize : q.size = 4) : ∃ t, exec (.serdesIngressRequest g n q) s = .next t ∧
      (groupOf t g).ans = some ⟨0, putLE [] 0 4 (0x1F9D + (if isEndpoint s g then 0xD911 else 0xD912) * 2 ^ 16)⟩ ∧
      ∀ p, p ≠ .groups → samePart p s t := by
  refine ⟨_, congrArg Host.Outcome.next (ingressRequest_self hup hkind hrole), ?_⟩
  have hlt : selfDword s g q.iova < 2 ^ 32 := by
    rw [hat, selfDword_zero]
    split <;> decide
  rw [dwordAccess_read hwrite hsize (by rw [hat]) _ _ hlt, hat, selfDword_zero]
  exact ⟨farAnswer_ans _ _ _ _, fun p hp => farAnswer_part hp _ _ _ _⟩

theorem ingress_vector {v : Nat} (hup : portState s g n = 3) (hmem : isMemDevice s g = false) (hep : isEndpoint s g = true)
    (hkind : q.kind = 4) (hwrite : q.write = false) (hat : q.iova = 16 * v + 12) (hv : v < 16) (hsize : q.size = 4)
    (hpend : (groupOf s g).msixPend = []) : ∃ t, exec (.serdesIngressRequest g n q) s = .next t ∧
      (groupOf t g).ans = some ⟨0, putLE [] 0 4 (getLE (groupOf s g).bar0 (16 * v + 12) 4 ^^^ 1)⟩ ∧
      ∀ p, p ≠ .groups → samePart p s t := by
  have hdword : bar0Dword s g q.iova = getLE (groupOf s g).bar0 (16 * v + 12) 4 ^^^ 1 := by
    rw [bar0Dword, if_pos (by omega), if_pos (by omega), hat]
  have hlt : bar0Dword s g q.iova < 2 ^ 32 := by
    rw [hdword]
    exact Nat.xor_lt_two_pow (getLE_lt _ _ 4) (by decide)
  have hreq := ingressRequest_bar hup hmem hep hkind
  rw [if_neg (by omega), dwordAccess_read hwrite hsize (by omega) _ _ hlt, hdword,
    sendPending_none (by rw [farAnswer, groupOf_modGroup]; exact hpend)] at hreq
  exact ⟨_, congrArg Host.Outcome.next hreq, farAnswer_ans _ _ _ _, fun p hp => farAnswer_part hp _ _ _ _⟩

/-! ### Faults of the translation -/

theorem ingress_fault (hr : r = inboundReq s g q) (hup : portState s g n = 3) (hmem : isMemDevice s g = false)
    (hreset : r.dev ∉ (groupOf s g).resetting) (hkind : r.kind < 3) (hep : isEndpoint s g = false ∨ r.dev < 0xFF08) {s1 : State}
    {k v : Nat} (htry : iomTry g (portUnit g n) r s = (s1, .fault k v)) (hk : isPageFault k = false) :
    exec (.serdesIngressRequest g n q) s = .next (farAnswer g 1 [] (dropReads (.iommu g) s1)) := by
  refine congrArg Host.Outcome.next ((ingressRequest_translated hr hup hmem hreset hkind hep).trans ?_)
  rw [iomTranslate_of_ended htry (by simp), translated_fault hk]

theorem ingress_noDirectory (hr : r = inboundReq s g q) (hup : portState s g n = 3) (hmem : isMemDevice s g = false)
    (hreset : r.dev ∉ (groupOf s g).resetting) (hkind : r.kind < 3) (hep : isEndpoint s g = false ∨ r.dev < 0xFF08)
    (hctx : tget 0 (groupOf s g).ctx r.dev = 0) (hmode : iomReg s g 16 8 % 16 = 0) (hq : iomBit s g 76 16 = false) :
    ∃ t, exec (.serdesIngressRequest g n q) s = .next t ∧ (groupOf t g).ans = some ⟨1, []⟩ ∧ dramKept s t ∧
      ∀ p, p ≠ .groups → p ≠ .mem → samePart p s t := by
  refine ⟨_, ingress_fault hr hup hmem hreset hkind hep (iomTry_off hctx hmode hq _) rfl, farAnswer_ans _ _ _ _, ?_⟩
  obtain ⟨gs, hgs⟩ := (IomCounted.iomCount g (r.kind + 1) r 0 0 s).state
  rw [hgs]
  exact ⟨rfl, fun p hg hm => by cases p <;> first | rfl | exact absurd rfl hg | exact absurd rfl hm⟩

/-- A visible event's platform record is the only one there: the tenancies' stand in their own logs. -/
theorem recVisible_recordedIn (sl kind unit cause : Nat) (ts : List Nat) (addr : Nat) (detail : List Nat) (uT : Nat) (dT : List Nat)
    (s : State) : recordedIn 3 kind unit cause s (recVisible sl kind unit cause ts addr detail uT dT s) := by
  have htold (l : List Nat) : (l.foldl (fun a t => recTenant sl kind uT cause t addr dT a) s).ras.platform = s.ras.platform ∧
      (l.foldl (fun a t => recTenant sl kind uT cause t addr dT a) s).regs = s.regs :=
    ⟨foldl_fixes (·.ras.platform) (f := fun a t => recTenant sl kind uT cause t addr dT a) (fun _ _ => rfl) l s,
      foldl_fixes (·.regs) (f := fun a t => recTenant sl kind uT cause t addr dT a) (fun _ _ => rfl) l s⟩
  obtain ⟨hplatform, hregs⟩ := htold (ts.eraseDups.filter (· != 0))
  unfold recVisible
  dsimp only
  split <;> exact recPlatform_recordedIn _ _ _ _ _ _ _ _ _ _ (by rw [hplatform]) (beat_of_regs hregs)

theorem dramKept_dropReads {y : State} (h : y.mem = s.mem) (w : Reader) : dramKept s (dropReads w y) := by
  unfold dramKept
  rw [← h]
  rfl

theorem ingress_ownContext (hr : r = inboundReq s g q) (hup : portState s g n = 3) (hmem : isMemDevice s g = false)
    (hreset : r.dev ∉ (groupOf s g).resetting) (hkind : r.kind < 3) (hep : isEndpoint s g = false ∨ r.dev < 0xFF08)
    (hctx : tget 0 (groupOf s g).ctx r.dev ≠ 0)
    (hreach : iomReach s (devTenancy s g r.dev) (tget 0 (groupOf s g).ctx r.dev - 1) = false) :
    ∃ t, exec (.serdesIngressRequest g n q) s = .next t ∧ (groupOf t g).ans = some ⟨1, []⟩ ∧ dramKept s t ∧
      samePart .slices s t ∧ samePart .outs s t ∧ recordedIn 3 4 (portUnit g n) 0x0404 s t := by
  obtain ⟨y, hy, htry⟩ := iomTry_unreached hctx hreach (portUnit g n)
  refine ⟨_, ingress_fault hr hup hmem hreset hkind hep htry rfl, farAnswer_ans _ _ _ _, ?_⟩
  obtain ⟨gs, rfl⟩ := hy.state
  generalize hz : recVisible _ _ _ _ _ _ _ _ _ _ = z
  have hrec : recordedIn 3 4 (portUnit g n) 0x0404 { s with groups := gs } z := hz ▸ recVisible_recordedIn _ _ _ _ _ _ _ _ _ _
  have hk := hz ▸ recVisible_keeps _ _ _ _ _ _ _ _ _ _ (keeps_refl _ { s with groups := gs }) (Nat.or_self _)
  have hmem : z.mem = s.mem := hk.part .mem rfl
  have hslices : z.slices = s.slices := hk.part .slices rfl
  have houts : z.outs = s.outs := hk.part .outs rfl
  exact ⟨dramKept_dropReads hmem _, hslices, houts, hrec⟩

/-! ### Requests that go to the address that they name -/

/-- The state in which an untranslated request reaches its address: its event is counted, and its device's translation is cached. -/
def bareAt (g : Nat) (r : DevReq) (s : State) : State :=
  modGroup g (fun x => { x with cached := (r.dev :: x.cached).eraseDups }) (dropReads (.iommu g) (iomCount g 1 r 0 0 s))

/-- What the ingress path looks at stands there as before. -/
structure IngressReads (g : Nat) (s t : State) : Prop where
  state : ∃ gs rs hs, t = { s with groups := gs, mem := { s.mem with reads := rs, held := hs } }
  assigns : (groupOf t g).assigns = (groupOf s g).assigns

theorem bareAt_reads (g : Nat) (r : DevReq) (s : State) : IngressReads g s (bareAt g r s) := by
  have hc := IomCounted.iomCount g 1 r 0 0 s
  obtain ⟨page, msis, hg⟩ := hc.group
  obtain ⟨gs, hgs⟩ := hc.state
  refine ⟨?_, ?_⟩
  · rw [bareAt, hgs]
    exact ⟨_, _, _, rfl⟩
  · rw [bareAt, groupOf_modGroup]
    show (groupOf (iomCount g 1 r 0 0 s) g).assigns = _
    rw [hg]

section
variable {t : State}

theorem IngressReads.devTenancy (h : IngressReads g s t) (dev : Nat) : devTenancy t g dev = devTenancy s g dev := by
  rw [Machine.devTenancy, h.assigns, Machine.devTenancy]

theorem IngressReads.ownLine (h : IngressReads g s t) (line : Nat) : ownLine t line = ownLine s line := by
  obtain ⟨_, _, _, rfl⟩ := h.state
  rfl

theorem IngressReads.coord (h : IngressReads g s t) (off : Nat) : coord t off = coord s off := by
  obtain ⟨_, _, _, rfl⟩ := h.state
  rfl

theorem IngressReads.granuleOk (h : IngressReads g s t) (off tag : Nat) (mgmt : Bool) :
    granuleOk t off tag mgmt = granuleOk s off tag mgmt := by
  obtain ⟨_, _, _, rfl⟩ := h.state
  rfl

end

theorem ingress_bare (hr : r = inboundReq s g q) (hup : portState s g n = 3) (hmem : isMemDevice s g = false)
    (hreset : r.dev ∉ (groupOf s g).resetting) (hkind : r.kind = 0) (hep : isEndpoint s g = false ∨ r.dev < 0xFF08)
    (hctx : tget 0 (groupOf s g).ctx r.dev = 0) (hmode : iomReg s g 16 8 % 16 = 1) {t : State} {done : Bool}
    (hat : ingress g r.dev r.iova r.write r.size r.data (bareAt g r s) = (t, done)) :
    exec (.serdesIngressRequest g n q) s = .next (ended s (t, done)) := by
  refine congrArg Host.Outcome.next ((ingressRequest_translated hr hup hmem hreset (by omega) hep).trans ?_)
  rw [iomTranslate_of_ended (iomTry_bare hctx hmode hkind _) (by simp)]
  rw [← hat]
  exact if_neg (by omega)

section
variable {dev pa size data : Nat} {write : Bool}

theorem ingress_control (h : regionOf (offOf pa) = .control) (s : State) :
    ingress g dev pa write size data s = (farAnswer g 1 [] s, true) := if_pos h

theorem ingress_own (hreg : regionOf (offOf pa) ≠ .control) (hown : ownLine s (lineOf pa) = true) :
    ingress g dev pa write size data s = ingressAt g dev pa write size data s (regionOf (offOf pa)) := by
  unfold ingress
  rw [if_neg hreg, if_pos hown]

theorem ingress_farLine (hreg : regionOf (offOf pa) = .dram ∨ regionOf (offOf pa) = .cxl) (hown : ownLine s (lineOf pa) = false) :
    ingress g dev pa write size data s = ingressFar g dev pa write size data (homeOf pa) s := by
  unfold ingress
  rw [if_neg (by rcases hreg with h | h <;> rw [h] <;> simp), if_neg (by rw [hown]; decide)]
  rcases hreg with h | h <;> rw [h]

theorem ingress_farOther (hreg : regionOf (offOf pa) ≠ .control) (hdram : regionOf (offOf pa) ≠ .dram)
    (hcxl : regionOf (offOf pa) ≠ .cxl) (hown : ownLine s (lineOf pa) = false) : ingress g dev pa write size data s =
      (sendOut { xid := 0, dev := homeOf pa, kind := if write then 4 else 3, pa := pa, tag := devTenancy s g dev, size := size,
                 data := data, origin := .port g dev } s, true) := by
  unfold ingress
  rw [if_neg hreg, if_neg (by rw [hown]; decide)]
  split
  · exact absurd ‹_› hdram
  · exact absurd ‹_› hcxl
  · rfl

/-- A request for a line of another device that no slice here holds is sent to its home; a write ends the reservations of the line. -/
theorem ingressFar_sent {home : Nat} (hhome : home < 64) (hnc : ncClear s (devTenancy s g dev) (lineOf pa) write = true)
    (hcached : lineCached s (homeSlice s (devTenancy s g dev) (lineOf pa)) (lineOf pa) = false) :
    ingressFar g dev pa write size data home s = (dropRead (.ingress g) (lineOf pa)
      (sendOut { xid := 0, dev := home, kind := if write then 4 else 3, pa := pa, tag := devTenancy s g dev, size := size,
                 data := data, origin := .port g dev } (if write then breakResv none (lineOf pa) s else s)), true) := by
  unfold ingressFar
  dsimp only
  rw [if_neg (by rw [hnc]; decide), if_neg (by omega)]
  cases write with
  | true => rw [if_pos rfl, hcached]; rfl
  | false => rw [if_neg (by decide), if_pos hcached]; rfl

theorem ingressAt_cxlUndecoded (h : decoded s (offOf pa) = false) :
    ingressAt g dev pa write size data s .cxl = (farAnswer g 1 [] s, true) := if_pos h

theorem ingressAt_refused (hcoord : (coord s (offOf pa)).isSome = true) (hok : granuleOk s (offOf pa) (devTenancy s g dev) false = false) :
    ingressAt g dev pa write size data s .dram =
      (farAnswer g 1 [] (refuseGranule 4 (portUnit g 0) pa (devTenancy s g dev) s), true) := by
  unfold ingressAt
  dsimp only
  rw [if_neg (by rw [Option.isNone_eq_false_iff.2 hcoord]; decide), if_pos hok]

theorem ingressAt_line (hcoord : (coord s (offOf pa)).isSome = true) (hok : granuleOk s (offOf pa) (devTenancy s g dev) false = true) :
    ingressAt g dev pa write size data s .dram = ingressLine g (devTenancy s g dev) pa write size data s := by
  unfold ingressAt
  dsimp only
  rw [if_neg (by rw [Option.isNone_eq_false_iff.2 hcoord]; decide), if_neg (by rw [hok]; decide)]

variable {tag : Nat}

theorem ingressLine_held (hnc : ncClear s tag (lineOf pa) write = false) :
    ingressLine g tag pa write size data s = (ncOpen (.ingress g) tag (lineOf pa) write s, false) := if_pos hnc

theorem ingressLine_whole (hnc : ncClear s tag (lineOf pa) write = true) (hwrite : write = true) (hsize : size = 64)
    (halign : pa % 64 = 0) : ingressLine g tag pa write size data s =
      (dropRead (.ingress g) (lineOf pa) (writeAtHome (.ingress g) (lineOf pa) tag data s), true) := by
  unfold ingressLine
  dsimp only
  rw [if_neg (by rw [hnc]; decide), if_pos ⟨hwrite, hsize, halign⟩]

theorem ingressLine_read {s1 : State} {v : Nat} (hwrite : write = false) (hnc : ncClear s tag (lineOf pa) write = true)
    (hline : currentLine (.ingress g) (lineOf pa) tag s = (s1, .data v false)) :
    ingressLine g tag pa write size data s =
      (dropRead (.ingress g) (lineOf pa) (farAnswer g 0 (putLE [] 0 size (lineGet v (pa % 64) size)) s1), true) := by
  unfold ingressLine
  dsimp only
  rw [if_neg (by rw [hnc]; decide), if_neg (by rw [hwrite]; rintro ⟨h, -⟩; cases h), hline, hwrite]
  rfl

theorem ingressLine_partial {s1 : State} {v : Nat} (hwrite : write = true) (hnc : ncClear s tag (lineOf pa) write = true)
    (hpart : size ≠ 64 ∨ pa % 64 ≠ 0) (hline : currentLine (.ingress g) (lineOf pa) tag s = (s1, .data v false)) :
    ingressLine g tag pa write size data s = (dropRead (.ingress g) (lineOf pa)
      (writeAtHome (.ingress g) (lineOf pa) tag (linePut v (pa % 64) size data) s1), true) := by
  unfold ingressLine
  dsimp only
  rw [if_neg (by rw [hnc]; decide), if_neg (by rintro ⟨-, h64, h0⟩; exact hpart.elim (· h64) (· h0)), hline, hwrite]
  rfl

end

/-- A request goes untranslated to the address that it names (R270): to a line of this device's DRAM under its tag, to a port or device
that answers for the address, or nowhere. -/
theorem ingress_bare_spec (hr : r = inboundReq s g q) (hup : portState s g n = 3) (hmem : isMemDevice s g = false)
    (hreset : r.dev ∉ (groupOf s g).resetting) (hkind : r.kind = 0) (hep : isEndpoint s g = false ∨ r.dev < 0xFF08)
    (hctx : tget 0 (groupOf s g).ctx r.dev = 0) (hmode : iomReg s g 16 8 % 16 = 1) {s2 : State} (hs2 : s2 = bareAt g r s) :
    (∀ o, ownLine s (lineOf r.iova) = false → regionOf (offOf r.iova) = .dram ∨ regionOf (offOf r.iova) = .cxl →
      homeOf r.iova < 64 → ncClear s2 (devTenancy s g r.dev) (lineOf r.iova) r.write = true →
      lineCached s2 (homeSlice s2 (devTenancy s g r.dev) (lineOf r.iova)) (lineOf r.iova) = false →
      o = ({ xid := 0, dev := homeOf r.iova, kind := if r.write then 4 else 3, pa := r.iova, tag := devTenancy s g r.dev,
             size := r.size, data := r.data, origin := .port g r.dev } : Out) →
      exec (.serdesIngressRequest g n q) s = .next (dropRead (.ingress g) (lineOf r.iova)
        (sendOut o (if r.write then breakResv none (lineOf r.iova) s2 else s2)))) ∧
    (ownLine s (lineOf r.iova) = false → regionOf (offOf r.iova) ≠ .control → regionOf (offOf r.iova) ≠ .dram →
      regionOf (offOf r.iova) ≠ .cxl →
      exec (.serdesIngressRequest g n q) s = .next (sendOut { xid := 0, dev := homeOf r.iova
                                                              kind := if r.write then 4 else 3, pa := r.iova
                                                              tag := devTenancy s g r.dev, size := r.size
                                                              data := r.data, origin := .port g r.dev } s2)) ∧
    (regionOf (offOf r.iova) = .control → exec (.serdesIngressRequest g n q) s = .next (farAnswer g 1 [] s2)) ∧
    (ownLine s (lineOf r.iova) = true → regionOf (offOf r.iova) = .cxl → decoded s2 (offOf r.iova) = false →
      exec (.serdesIngressRequest g n q) s = .next (farAnswer g 1 [] s2)) ∧
    (ownLine s (lineOf r.iova) = true → regionOf (offOf r.iova) = .dram → (coord s (offOf r.iova)).isSome = true →
      (granuleOk s (offOf r.iova) (devTenancy s g r.dev) false = false →
        exec (.serdesIngressRequest g n q) s = .next (farAnswer g 1 []
          (refuseGranule 4 (portUnit g 0) r.iova (devTenancy s g r.dev) s2))) ∧
      (granuleOk s (offOf r.iova) (devTenancy s g r.dev) false = true →
        ncClear s2 (devTenancy s g r.dev) (lineOf r.iova) r.write = true → r.write = true → r.size = 64 → r.iova % 64 = 0 →
        exec (.serdesIngressRequest g n q) s = .next (dropRead (.ingress g) (lineOf r.iova)
          (writeAtHome (.ingress g) (lineOf r.iova) (devTenancy s g r.dev) r.data s2))) ∧
      (granuleOk s (offOf r.iova) (devTenancy s g r.dev) false = true →
        ncClear s2 (devTenancy s g r.dev) (lineOf r.iova) r.write = false → exec (.serdesIngressRequest g n q) s =
          .next { ncOpen (.ingress g) (devTenancy s g r.dev) (lineOf r.iova) r.write s2 with groups := s.groups }) ∧
      (∀ s1 v, granuleOk s (offOf r.iova) (devTenancy s g r.dev) false = true →
        ncClear s2 (devTenancy s g r.dev) (lineOf r.iova) r.write = true →
        currentLine (.ingress g) (lineOf r.iova) (devTenancy s g r.dev) s2 = (s1, .data v false) →
        (r.write = false → ∃ t, exec (.serdesIngressRequest g n q) s = .next t ∧
          (groupOf t g).ans = some ⟨0, putLE [] 0 r.size (lineGet v (r.iova % 64) r.size)⟩ ∧ dramKept s1 t ∧
          samePart .slices s1 t) ∧
        (r.write = true → r.size ≠ 64 ∨ r.iova % 64 ≠ 0 → exec (.serdesIngressRequest g n q) s =
          .next (dropRead (.ingress g) (lineOf r.iova) (writeAtHome (.ingress g) (lineOf r.iova) (devTenancy s g r.dev)
            (linePut v (r.iova % 64) r.size r.data) s1))))) := by
  have hreads : IngressReads g s s2 := hs2 ▸ bareAt_reads g r s
  have hgo {t : State} (hat : ingress g r.dev r.iova r.write r.size r.data s2 = (t, true)) :
      exec (.serdesIngressRequest g n q) s = .next t :=
    (ingress_bare hr hup hmem hreset hkind hep hctx hmode (hs2 ▸ hat)).trans (congrArg _ (if_pos rfl))
  have hheld {t : State} (hat : ingress g r.dev r.iova r.write r.size r.data s2 = (t, false)) :
      exec (.serdesIngressRequest g n q) s = .next { t with groups := s.groups } :=
    (ingress_bare hr hup hmem hreset hkind hep hctx hmode (hs2 ▸ hat)).trans (congrArg _ (if_neg (by simp)))
  have hten := hreads.devTenancy r.dev
  have hown := hreads.ownLine (lineOf r.iova)
  refine ⟨fun o hfar hreg hhome hnc hcached ho => ?_, fun hfar hc hd hx => ?_, fun hreg => hgo (ingress_control hreg s2),
    fun hline hreg hdec => ?_, fun hline hreg hcoord => ?_⟩
  · rw [← hten] at hnc hcached ho
    exact ho ▸ hgo ((ingress_farLine hreg (hown.trans hfar)).trans (ingressFar_sent hhome hnc hcached))
  · exact hten ▸ hgo (ingress_farOther hc hd hx (hown.trans hfar))
  · refine hgo ((ingress_own (by rw [hreg]; simp) (hown.trans hline)).trans ?_)
    rw [hreg]
    exact ingressAt_cxlUndecoded hdec
  · have hat : ingress g r.dev r.iova r.write r.size r.data s2 = ingressAt g r.dev r.iova r.write r.size r.data s2 .dram := by
      rw [ingress_own (by rw [hreg]; simp) (hown.trans hline), hreg]
    have hcoord2 : (coord s2 (offOf r.iova)).isSome = true := by rw [hreads.coord, hcoord]
    rw [← hten, ← hreads.granuleOk]
    refine ⟨fun hok => hgo (hat.trans (ingressAt_refused hcoord2 hok)), fun hok hnc hwrite hsize halign => ?_, fun hok hnc => ?_,
      fun s1 v hok hnc hcur => ⟨fun hwrite => ?_, fun hwrite hpart => ?_⟩⟩
    · exact hgo (hat.trans ((ingressAt_line hcoord2 hok).trans (ingressLine_whole hnc hwrite hsize halign)))
    · exact hheld (hat.trans ((ingressAt_line hcoord2 hok).trans (ingressLine_held hnc)))
    · refine ⟨_, hgo (hat.trans ((ingressAt_line hcoord2 hok).trans (ingressLine_read hwrite hnc hcur))), ?_, rfl, rfl⟩
      exact farAnswer_ans _ _ _ _
    · exact hgo (hat.trans ((ingressAt_line hcoord2 hok).trans (ingressLine_partial hwrite hnc hpart hcur)))

end Sys2Proof.Machine
end

section
/-! Stores to the configuration space of a group's functions (R267, R269, R273, O48). -/
set_option Elab.async false
namespace Sys2Proof.Machine

variable {s : State} {g dev off size v : Nat} {r : EcamReg}

theorem ecamWrite_refused {tag : Nat} (h : tag ≠ 0) : ecamWrite tag g dev off size v r s =
    refuseWindow tag (0x80000000 + g * 0x10000000 + ecamOff dev off) s := if_pos h

theorem ecamWrite_absent (h : groupPresent s g = false) : ecamWrite 0 g dev off size v r s = s := by
  unfold ecamWrite
  dsimp only
  rw [if_neg (fun h => h rfl), if_pos h]

theorem ecamWrite_dvsec (hg : groupPresent s g = true) (h : isDvsec (0x80000000 + g * 0x10000000 + ecamOff dev off) size = true) :
    ecamWrite 0 g dev off size v r s = dvsecStore (0x80000000 + g * 0x10000000 + ecamOff dev off) size v s := by
  unfold ecamWrite
  dsimp only
  rw [if_neg (fun h => h rfl), if_neg (by rw [hg]; decide), if_pos h]

theorem ecamWrite_discarded (hd : isDvsec (0x80000000 + g * 0x10000000 + ecamOff dev off) size = false)
    (h : ecamProtected s g dev r = true ∨ dev ∈ (groupOf s g).resetting ∨ isInbound s g dev = true ∨ cfgPresent s g dev = false ∨
      (dev = 0xF8 ∧ r = .bar 0)) : ecamWrite 0 g dev off size v r s = s := by
  by_cases hg : groupPresent s g = true
  · unfold ecamWrite
    dsimp only
    rw [if_neg (fun h => h rfl), if_neg (by rw [hg]; decide), if_neg (by rw [hd]; decide)]
    simp only [List.contains_iff_mem]
    split
    · rfl
    · split
      · rfl
      · rename_i hother hbar
        tauto
  · exact ecamWrite_absent (Bool.eq_false_iff.2 hg)

/-- What is kept of the bytes: how they differ from what the function holds before anything is written. -/
def ecamValue (g dev off size v : Nat) : Nat := v % 256 ^ size ^^^ (cfgFree g dev off / 256 ^ (off % 4) % 256 ^ size)

/-- The bytes are in the function's configuration space. -/
def ecamStored (g dev off size v : Nat) (s : State) : State :=
  modGroup g (fun q => { q with config := putLE q.config (ecamOff dev off) size (ecamValue g dev off size v) }) s

/-- A function's BAR i takes the bytes that are stored there. -/
def barMoved (dev off size v i : Nat) (f : FuncInfo) : FuncInfo :=
  if f.dev = dev then { f with bars := f.bars.zipIdx.map fun (b, j) => if j = i then (ecamWrite.barBase off size v b.1, b.2) else b }
  else f

/-- What follows from the store. -/
def ecamFollow (g dev off size v : Nat) (s : State) : EcamReg → State → State
  | .bar i, y => modGroup g (fun q => { q with funcs := q.funcs.map (barMoved dev off size v i) }) y
  | .devControl2 ns, y => if portFunc s g dev then modGroup g (fun q => { q with cto := tset 0 q.cto (dev / 8) (ecamWrite.ctoLegal ns) }) y else y
  | .dpcRelease, y => releaseDpc g (dev / 8) y
  | _, y => y

theorem ecamWrite_stored (hg : groupPresent s g = true) (hprot : ecamProtected s g dev r = false)
    (hreset : dev ∉ (groupOf s g).resetting) (hin : isInbound s g dev = false) (hcfg : cfgPresent s g dev = true)
    (hbar : dev ≠ 0xF8 ∨ r ≠ .bar 0) (hd : isDvsec (0x80000000 + g * 0x10000000 + ecamOff dev off) size = false) :
    ecamWrite 0 g dev off size v r s = ecamFollow g dev off size v s r (ecamStored g dev off size v s) := by
  unfold ecamWrite
  dsimp only
  rw [if_neg (fun h => h rfl), if_neg (by rw [hg]; decide), if_neg (by rw [hd]; decide),
    if_neg (by simp [hprot, hreset, hin, hcfg]), if_neg (by rintro ⟨h, hr⟩; exact hbar.elim (· h) (· hr))]
  cases r <;> rfl

theorem ecamFollow_config (y : State) : (groupOf (ecamFollow g dev off size v s r y) g).config = (groupOf y g).config := by
  cases r with
  | bar i => rw [ecamFollow, groupOf_modGroup]
  | devControl2 ns =>
    rw [ecamFollow]
    split
    · rw [groupOf_modGroup]
    · rfl
  | dpcRelease =>
    rw [ecamFollow, releaseDpc]
    split
    · rw [wr_groupOf, groupOf_modGroup]
    · rfl
  | _ => rfl

/-- A port in DPC goes back to detection. -/
theorem releaseDpc_of_held {m : Nat} (hst : portState s g m = 5) (hdpc : m ∈ (groupOf s g).dpc) :
    portState (releaseDpc g m s) g m = 2 ∧ m ∉ (groupOf (releaseDpc g m s) g).dpc := by
  have hrel : releaseDpc g m s = wr (portStatusState (portBase g m)) 2
      (modGroup g (fun q => { q with dpc := q.dpc.filter (· != m), began := tset 0 q.began m (beat s) }) s) :=
    if_pos ⟨hst, List.contains_iff_mem.2 hdpc⟩
  refine ⟨?_, ?_⟩
  · rw [hrel, portState, rd_wr_same]
    rfl
  · rw [hrel]
    rw [wr_groupOf, groupOf_modGroup]
    simp

theorem ecamWrite_spec (hg : groupPresent s g = true) (hprot : ecamProtected s g dev r = false)
    (hreset : dev ∉ (groupOf s g).resetting) (hin : isInbound s g dev = false) (hcfg : cfgPresent s g dev = true)
    (hbar : dev ≠ 0xF8 ∨ r ≠ .bar 0) (hd : isDvsec (0x80000000 + g * 0x10000000 + ecamOff dev off) size = false) :
    ∃ t, exec (.ecamWrite 0 g dev off size v r) s = .next t ∧
      (groupOf t g).config = putLE (groupOf s g).config (ecamOff dev off) size
        (v % 256 ^ size ^^^ (cfgFree g dev off / 256 ^ (off % 4) % 256 ^ size)) ∧
      (∀ ns, r = .devControl2 ns → portFunc s g dev = true →
        tget 0 (groupOf t g).cto (dev / 8) = if ns < 50000 ∨ 64000000000 < ns then 0 else ns) ∧
      (r = .dpcRelease → dev / 8 < 4 → g < 8 → portState s g (dev / 8) = 5 → dev / 8 ∈ (groupOf s g).dpc →
        portState t g (dev / 8) = 2 ∧ dev / 8 ∉ (groupOf t g).dpc) := by
  refine ⟨_, congrArg Host.Outcome.next (ecamWrite_stored hg hprot hreset hin hcfg hbar hd), ?_, fun ns hr hport => ?_,
    fun hr _ _ hst hdpc => ?_⟩
  · rw [ecamFollow_config, ecamStored, groupOf_modGroup]
    rfl
  · rw [hr, ecamFollow, if_pos hport, groupOf_modGroup, tget_tset_same]
    rfl
  · rw [hr, ecamFollow]
    refine releaseDpc_of_held hst ?_
    rw [ecamStored, groupOf_modGroup]
    exact hdpc

theorem ecamWrite_dvsec_parts (hd : isDvsec (0x80000000 + g * 0x10000000 + ecamOff dev off) size = true) :
    ∃ t, exec (.ecamWrite 0 g dev off size v r) s = .next t ∧ ∀ p, p ≠ .regs → samePart p s t := by
  by_cases hg : groupPresent s g = true
  · refine ⟨_, congrArg Host.Outcome.next (ecamWrite_dvsec hg hd), fun p hp => ?_⟩
    exact (dvsecStore_keeps _ size v s (keeps_refl _ s) (Nat.or_self _)).part p (by cases p <;> first | rfl | exact absurd rfl hp)
  · exact ⟨s, congrArg Host.Outcome.next (ecamWrite_absent (Bool.eq_false_iff.2 hg)), fun p _ => by cases p <;> rfl⟩

theorem ecamWrite_refused_spec {tag : Nat} (h : tag ≠ 0) : ∃ t, exec (.ecamWrite tag g dev off size v r) s = .next t ∧
    recordedIn 5 11 0 0x0B01 s t ∧ samePart .groups s t ∧ otherFields irqFields s t := by
  obtain ⟨hrec, -, hother⟩ := refuseWindow_spec s tag (0x80000000 + g * 0x10000000 + ecamOff dev off)
  exact ⟨_, congrArg Host.Outcome.next (ecamWrite_refused h), hrec,
    (refuseWindow_keeps tag _ s (keeps_refl _ s) (Nat.or_self _)).part .groups rfl, hother⟩

/-! ### The signal page (R280) -/

theorem sendVector_open (h : vecOpen s g v = true) : (∀ p, p ≠ .groups → samePart p s (sendVector g v s)) ∧
    tget 0 (groupOf (sendVector g v s) g).msix v = tget 0 (groupOf s g).msix v + 1 := by
  rw [sendVector, if_pos h]
  refine ⟨fun p hp => by cases p <;> first | rfl | exact absurd rfl hp, ?_⟩
  rw [groupOf_modGroup, tget_tset_same]

theorem sendVector_masked (h : vecOpen s g v = false) : (∀ p, p ≠ .groups → samePart p s (sendVector g v s)) ∧
    v ∈ (groupOf (sendVector g v s) g).msixPend ∧ (groupOf (sendVector g v s) g).msix = (groupOf s g).msix := by
  rw [sendVector, if_neg (by rw [h]; decide)]
  refine ⟨fun p hp => by cases p <;> first | rfl | exact absurd rfl hp, ?_⟩
  rw [groupOf_modGroup]
  exact ⟨List.mem_eraseDups.2 List.mem_cons_self, rfl⟩

theorem signalPage_sent {h pa x : Nat} (hreg : regionOf (offOf pa) = .io g) (hhome : homeOf pa = rd s fabIdDeviceId)
    (hruns : hartRuns s h = true) (hat : ioAt s g (ownerOf s h) pa size = .signal x 0) (hsize : size = 4) (hv : v < 16) :
    exec (.signalPageWrite h pa size v) s = .next (sendVector g v s) := by
  refine congrArg Host.Outcome.next ?_
  have hval : v % 2 ^ 32 = v := Nat.mod_eq_of_lt (by omega)
  unfold execSignalPage
  rw [hreg]
  dsimp only
  rw [if_pos ⟨hhome, hruns⟩, hat]
  dsimp only
  rw [signalWrite, hval, if_pos ⟨rfl, hsize, hv⟩]

theorem signalPage_refused {h pa : Nat} (hreg : regionOf (offOf pa) = .io g) (hhome : homeOf pa = rd s fabIdDeviceId)
    (hruns : hartRuns s h = true) (hat : ioAt s g (ownerOf s h) pa size = .refused) :
    exec (.signalPageWrite h pa size v) s = .next (raise h 7 pa (refuseIo g (ownerOf s h) pa s)) := by
  refine congrArg Host.Outcome.next ?_
  unfold execSignalPage
  rw [hreg]
  dsimp only
  rw [if_pos ⟨hhome, hruns⟩, hat]

end Sys2Proof.Machine
end

section
/-! Which cores a hart runs on is read from the low registers and the pairs alone. -/
set_option Elab.async false
namespace Sys2Proof.Machine

theorem fkey_pairStatus_lt {p : Nat} (hp : p < 136) : fkey (pairStatusState p) < 0x8000000 ∧ fkey (pairStatusSlotValid p) < 0x8000000 ∧
    fkey (pairStatusSlot p) < 0x8000000 ∧ fkey (pairCtrlMode p) < 0x8000000 := by
  simp only [fkey, pairStatusState, pairStatusSlotValid, pairStatusSlot, pairCtrlMode]
  omega

variable {s t : State} (hlow : LowKept s t)

include hlow in
theorem LowKept.pairOfSlot (n : Nat) : pairOfSlot t n = pairOfSlot s n := by
  refine List.find?_congr fun p hp => ?_
  obtain ⟨-, hvalid, hslot, -⟩ := fkey_pairStatus_lt (List.mem_range.1 hp)
  rw [rdB, hlow.rd_eq hvalid, hlow.rd_eq hslot, rdB]

include hlow in
theorem LowKept.pairOfHart (h : Nat) : pairOfHart t h = pairOfHart s h := LowKept.pairOfSlot hlow _

include hlow in
theorem LowKept.slotSplit (n : Nat) : slotSplit t n = slotSplit s n := by
  unfold Machine.slotSplit
  rw [LowKept.pairOfSlot hlow]
  split
  · rename_i p hp
    obtain ⟨-, -, -, hmode⟩ := fkey_pairStatus_lt (List.mem_range.1 (List.mem_of_find?_eq_some hp))
    rw [hlow.rd_eq hmode]
  · rfl

include hlow in
theorem LowKept.coreOfHart (hpairs : t.pairs = s.pairs) (h : Nat) : coreOfHart t h = coreOfHart s h := by
  unfold Machine.coreOfHart merged
  rw [LowKept.pairOfHart hlow, LowKept.slotSplit hlow]
  split
  · rfl
  · split
    · rename_i p hp
      have hpair : pairOf t p = pairOf s p := by rw [pairOf, hpairs, pairOf]
      obtain ⟨hstate, -⟩ := fkey_pairStatus_lt (pairOfHart_lt hp)
      rw [hpair, hlow.rd_eq hstate]
    · rfl

include hlow in
theorem LowKept.coresOfHart (hpairs : t.pairs = s.pairs) (h : Nat) : coresOfHart t h = coresOfHart s h := by
  unfold Machine.coresOfHart
  rw [LowKept.pairOfHart hlow, LowKept.slotSplit hlow, LowKept.coreOfHart hlow hpairs]
  split
  · rename_i p hp
    obtain ⟨hstate, -⟩ := fkey_pairStatus_lt (pairOfHart_lt hp)
    rw [hlow.rd_eq hstate]
  · rfl

/-- An exception raised in a state with the same harts, cores and memory is one raised in s. -/
theorem raised.of_parts {s y t : State} (hlow : LowKept s y) (hharts : y.harts = s.harts) (hcores : y.cores = s.cores)
    (hpairs : y.pairs = s.pairs) (hslices : y.slices = s.slices) (hmem : y.mem = s.mem) (houts : y.outs = s.outs)
    {h pc cause tval : Nat} (hr : raised h pc cause tval y t) : raised h pc cause tval s t := by
  have hhart (k : Nat) : hartOf y k = hartOf s k := hartOf_congr hharts k
  have hcore (c : Nat) : coreOf y c = coreOf s c := by rw [coreOf, hcores, coreOf]
  have hl2 (c line : Nat) : l2Of y c line = l2Of s c line := by rw [l2Of, hcore, l2Of]
  obtain ⟨hexc, hx, hfp, hvec, hresv, hcsr, hothers, hsame, hpred, hmiss, hsl, hdram, hout⟩ := hr
  simp only [hhart] at hx hfp hvec hresv hcsr
  refine ⟨hexc, hx, hfp, hvec, hresv, hcsr, fun k hk => (hothers k hk).trans (hhart k), fun c line => (hsame c line).trans (hl2 c line),
    fun c => (hpred c).trans (by rw [hcore]), ?_, ?_, ?_, ?_⟩
  · rwa [LowKept.coresOfHart hlow hpairs] at hmiss
  · exact Eq.trans hsl hslices
  · unfold dramKept at hdram ⊢
    rw [← hmem]
    exact hdram
  · exact Eq.trans hout houts

section
variable {s : State} {g tag pa : Nat}

/-- A refused access leaves its record, and only the Clerk's pending interrupts change among the registers. -/
theorem refuseGranule_told (kind unit pa tag : Nat) (s : State) : recordedIn 5 kind unit 0x0B02 s (refuseGranule kind unit pa tag s) ∧
    ∀ f : Fld, (∀ c, fkey f ≠ fkey (clerkIpPending c)) → rd (refuseGranule kind unit pa tag s) f = rd s f := by
  obtain ⟨y, hy⟩ : ∃ y, y = setTenant tag { tenantOf s tag with refused := (tenantOf s tag).refused + 1 } s := ⟨_, rfl⟩
  have heq : refuseGranule kind unit pa tag s = recPlatform (nextSlice s) 5 kind unit 0x0B02 tag pa [] y := by rw [hy]; rfl
  have hregs : y.regs = s.regs := by rw [hy]; rfl
  have hras : y.ras = s.ras := by rw [hy]; rfl
  rw [heq]
  refine ⟨recPlatform_recordedIn _ _ _ _ _ _ _ _ _ _ (by rw [hras]) (beat_of_regs hregs), fun f hf => ?_⟩
  rw [rd_recPlatform _ _ _ _ _ _ _ _ _ _ fun c _ => hf c]
  exact rd_of_regs hregs f

/-- A refused access to a group's window leaves its record and a count of the port, and touches no hart, core or line. -/
theorem refuseIo_spec (hg : g < 8) : recordedIn 5 4 (portUnit g (portAt s g pa)) 0x0B02 s (refuseIo g tag pa s) ∧
    counted (portRefusedRefused (portBase g (portAt s g pa))) 1 s (refuseIo g tag pa s) ∧ LowKept s (refuseIo g tag pa s) := by
  have hport := portAt_le s g pa
  obtain ⟨hrec, hrd⟩ := refuseGranule_told 4 (portUnit g (portAt s g pa)) pa tag s
  have hkey : fkey (portRefusedRefused (portBase g (portAt s g pa))) < 0x100000000 * 64 ∧
      0x8000000 ≤ fkey (portRefusedRefused (portBase g (portAt s g pa))) ∧
      fkey (portRefusedRefused (portBase g (portAt s g pa))) % 0x40000 ≠ 0 ∧
      fkey (portRefusedRefused (portBase g (portAt s g pa))) % 0x40000 ≠ 0x820 := by
    simp only [fkey, portRefusedRefused, portBase]
    omega
  have hirq (c : Nat) : fkey (portRefusedRefused (portBase g (portAt s g pa))) ≠ fkey (clerkIpPending c) := by
    have hclerk : 0x100000000 * 64 ≤ fkey (clerkIpPending c) := by simp only [fkey, clerkIpPending]; omega
    omega
  rw [refuseIo]
  refine ⟨hrec.of_ras (bump_ras ..), ?_, (LowKept.refuseGranule _ _ _ _ s).trans (.bump hkey.2 _ _)⟩
  rw [counted, rd_bump_same, hrd _ hirq]

theorem signalPage_refused_spec {h size v : Nat} (hreg : regionOf (offOf pa) = .io g) (hhome : homeOf pa = rd s fabIdDeviceId)
    (hruns : hartRuns s h = true) (hat : ioAt s g (ownerOf s h) pa size = .refused) :
    ∃ t, exec (.signalPageWrite h pa size v) s = .next t ∧
      raised h (hartOf s h).pc 7 pa s t ∧ samePart .groups s t ∧ recordedIn 5 4 (portUnit g (portAt s g pa)) 0x0B02 s t ∧
      counted (portRefusedRefused (portBase g (portAt s g pa))) 1 s t := by
  refine ⟨_, signalPage_refused hreg hhome hruns hat, ?_⟩
  obtain ⟨hrec, hcount, hlow⟩ := refuseIo_spec (s := s) (tag := ownerOf s h) (pa := pa) (io_lt hreg)
  have hk := refuseIo_keeps g (ownerOf s h) pa s (keeps_refl _ s) (Nat.or_self _)
  generalize refuseIo g (ownerOf s h) pa s = y at *
  have hraised := raise_raised h 7 pa y
  have hregs := raise_regs h 7 pa y
  have hkr := raise_keeps h 7 pa y (keeps_refl _ y) (Nat.or_self _)
  have hras : (raise h 7 pa y).ras = y.ras := hkr.part .ras rfl
  have hgroups : (raise h 7 pa y).groups = y.groups := hkr.part .groups rfl
  have hpc : (hartOf y h).pc = (hartOf s h).pc := by rw [hartOf_congr (hk.part .harts rfl)]
  rw [hpc] at hraised
  refine ⟨raised.of_parts hlow (hk.part .harts rfl) (hk.part .cores rfl) (hk.part .pairs rfl) (hk.part .slices rfl) (hk.part .mem rfl)
    (hk.part .outs rfl) hraised, hgroups.trans (hk.part .groups rfl), hrec.of_ras hras, ?_⟩
  rw [counted, rd_of_regs hregs]
  exact hcount

end

end Sys2Proof.Machine
end

section
/-! The end of a hart's access, and the answers to its requests (R67, R87, R277). -/
set_option Elab.async false
namespace Sys2Proof.Machine

/-- t is s with an access of hart h ended: its events are counted, and what it read of memory is forgotten. -/
structure AccessEnded (h : Nat) (s t : State) : Prop where
  hart : ∃ csr pend access, hartOf t h = { hartOf s h with csr := csr, pend := pend, access := access } ∧
    ∀ n, counterCsr n = false → tget 0 csr n = tget 0 (hartOf s h).csr n
  others : otherHarts h s t
  rest : ∃ m rs hs, t = { s with harts := m, mem := { s.mem with reads := rs, held := hs } }

theorem AccessEnded.trans {h : Nat} {s t u : State} (a : AccessEnded h s t) (b : AccessEnded h t u) : AccessEnded h s u where
  hart := by
    obtain ⟨c, p, x, ht, hc⟩ := a.hart
    obtain ⟨c', p', x', hu, hc'⟩ := b.hart
    refine ⟨c', p', x', by rw [hu, ht], fun n hn => (hc' n hn).trans ?_⟩
    rw [ht]
    exact hc n hn
  others := fun k hk => (b.others k hk).trans (a.others k hk)
  rest := by
    obtain ⟨m, rs, hs, rfl⟩ := a.rest
    obtain ⟨m', rs', hs', rfl⟩ := b.rest
    exact ⟨m', rs', hs', rfl⟩

theorem AccessEnded.of_counted {h : Nat} {s t : State} (a : HartCounted h s t) : AccessEnded h s t where
  hart := by
    obtain ⟨c, p, ht, hc, -⟩ := a.hart
    exact ⟨c, p, _, ht, hc⟩
  others := a.others
  rest := by
    obtain ⟨m, rfl⟩ := a.rest
    exact ⟨m, s.mem.reads, s.mem.held, rfl⟩

theorem AccessEnded.setAccess (h : Nat) (s : State) (x : Option Access) :
    AccessEnded h s (setHart h { hartOf s h with access := x } s) where
  hart := ⟨_, _, x, setHart_hartOf_same _ _ _, fun _ _ => rfl⟩
  others := fun _ hk => setHart_hartOf_ne _ _ _ _ hk
  rest := ⟨_, _, _, rfl⟩

theorem AccessEnded.dropReads (h : Nat) (s : State) : AccessEnded h s (dropReads (.hart h) s) where
  hart := ⟨_, _, _, rfl, fun _ _ => rfl⟩
  others := fun _ _ => rfl
  rest := ⟨_, _, _, rfl⟩

theorem AccessEnded.endAccess (h : Nat) (more : Bool) (s : State) : AccessEnded h s (endAccess h more s) := by
  unfold Machine.endAccess
  dsimp only
  split
  · exact (AccessEnded.setAccess h s _).trans (.dropReads h _)
  · refine List.foldlRecOn (motive := AccessEnded h s) _ _ ?_ fun y hy c _ => hy.trans (.of_counted (.countEvent h c y))
    exact ((AccessEnded.setAccess h s none).trans (.dropReads h _)).trans (.of_counted (.countInst h _))

theorem AccessEnded.part {α : Type} {h : Nat} {s t : State} (a : AccessEnded h s t) (v : State → α)
    (hv : ∀ y m rs hs, v { y with harts := m, mem := { y.mem with reads := rs, held := hs } } = v y) : v t = v s := by
  obtain ⟨m, rs, hs, rfl⟩ := a.rest
  exact hv s m rs hs

/-! ### A load's value -/

/-- A load of an integer register leaves its value there, and what it delivered. -/
theorem deliverLoad_x {h r size v : Nat} {sg : Bool} {s : State} (hr : r < 32) : deliverLoad h r size sg v s =
    setX h r (extend size sg v) (setHart h { hartOf s h with loaded := v % 2 ^ (8 * size) } s) := if_pos hr

theorem setX_loaded (h r v : Nat) (s : State) : (hartOf (setX h r v s) h).loaded = (hartOf s h).loaded := by
  unfold setX
  split
  · rfl
  · simp only []
    rw [setHart_hartOf_same]

theorem setX_others (h r v : Nat) (s : State) : otherHarts h s (setX h r v s) := fun k hk => by
  unfold setX
  split
  · rfl
  · exact setHart_hartOf_ne _ _ _ _ hk

theorem setX_part {α : Type} (v : State → α) (hv : ∀ y m, v { y with harts := m } = v y) (h r x : Nat) (s : State) :
    v (setX h r x s) = v s := by
  unfold setX
  split
  · rfl
  · exact hv s _

theorem deliverLoad_x_spec {h r size v : Nat} {sg : Bool} {s : State} (hr : r < 32) :
    gotX h r (extend size sg v) s (deliverLoad h r size sg v s) ∧
      (hartOf (deliverLoad h r size sg v s) h).loaded = v % 2 ^ (8 * size) ∧ otherHarts h s (deliverLoad h r size sg v s) ∧
      ∃ m, deliverLoad h r size sg v s = { s with harts := m } := by
  rw [deliverLoad_x hr]
  have hx : (hartOf (setHart h { hartOf s h with loaded := v % 2 ^ (8 * size) } s) h).x = (hartOf s h).x := by rw [setHart_hartOf_same]
  refine ⟨fun i hi => ?_, ?_, fun k hk => (setX_others h r _ _ k hk).trans (setHart_hartOf_ne _ _ _ _ hk), ?_⟩
  · rw [gotX_setX h r _ _ i hi, hx]
  · rw [setX_loaded, setHart_hartOf_same]
  · unfold setX
    split
    · exact ⟨_, rfl⟩
    · exact ⟨_, rfl⟩

/-! ### Answers to a hart's requests -/

theorem dropRecord_pairs (h : Nat) (s : State) : ∃ ps, dropRecord h s = { s with pairs := ps } := by
  unfold dropRecord
  split
  · exact ⟨_, rfl⟩
  · exact ⟨s.pairs, rfl⟩

/-- The request is no longer outstanding. -/
def unsent (o : Out) (s : State) : State := { s with outs := s.outs.filter fun x => x.xid != o.xid }

variable {s : State} {o : Out} {xid h r size va : Nat} {sg more : Bool}

theorem takeAnswer_hart (ho : o.origin = .hart h r size sg va more) (a : Ans) : takeAnswer o a s =
    hartAnswer o h r size sg va more (match a with
      | .data v => (0, v)
      | .refused => (if o.kind = 4 ∨ o.kind = 8 then 7 else 5, 0)
      | .poison | .err _ => (19, 0)) (unsent o s) := by
  unfold takeAnswer
  dsimp only
  rw [ho]
  cases a <;> rfl

theorem hartAnswer_value (hst : (hartOf s h).st = .running) (h4 : o.kind ≠ 4) (h8 : o.kind ≠ 8) (v : Nat) :
    hartAnswer o h r size sg va more (0, v) s = endAccess h more (deliverLoad h r size sg v (dropRecord h s)) := by
  unfold hartAnswer
  rw [hst]
  dsimp only
  rw [if_neg (fun h => h rfl), if_neg h4, if_neg h8]

theorem hartAnswer_fault (hst : (hartOf s h).st = .running) {c : Nat} (hc : c ≠ 0) (v : Nat) :
    hartAnswer o h r size sg va more (c, v) s = raise h c va (dropRecord h s) := by
  unfold hartAnswer
  rw [hst]
  dsimp only
  rw [if_pos hc]

/-- A load's data: its register takes it, the hart goes on, and no other hart changes. -/
theorem takeAnswer_load (ho : o.origin = .hart h r size sg va more) (hst : (hartOf s h).st = .running) (hr : r < 32)
    (h4 : o.kind ≠ 4) (h8 : o.kind ≠ 8) (v : Nat) : gotX h r (extend size sg v) s (takeAnswer o (.data v) s) ∧
      (hartOf (takeAnswer o (.data v) s) h).loaded = v % 2 ^ (8 * size) ∧
      (takeAnswer o (.data v) s).outs = s.outs.filter (fun x => x.xid != o.xid) ∧ otherHarts h s (takeAnswer o (.data v) s) ∧
      samePart .ras s (takeAnswer o (.data v) s) := by
  obtain ⟨ps, hps⟩ := dropRecord_pairs h (unsent o s)
  have heq : takeAnswer o (.data v) s = endAccess h more (deliverLoad h r size sg v { unsent o s with pairs := ps }) := by
    rw [takeAnswer_hart ho, ← hps]
    exact hartAnswer_value (s := unsent o s) hst h4 h8 v
  rw [heq]
  obtain ⟨hx, hloaded, hothers, m, hm⟩ := deliverLoad_x_spec (h := h) (size := size) (v := v) (sg := sg)
    (s := { unsent o s with pairs := ps }) hr
  have hend := AccessEnded.endAccess h more (deliverLoad h r size sg v { unsent o s with pairs := ps })
  obtain ⟨csr, pend, access, hhart, -⟩ := hend.hart
  refine ⟨fun i hi => ?_, ?_, ?_, fun k hk => (hend.others k hk).trans (hothers k hk), ?_⟩
  · rw [hhart]
    exact hx i hi
  · rw [hhart]
    exact hloaded
  · refine (hend.part (·.outs) fun _ _ _ _ => rfl).trans ?_
    rw [hm]
    rfl
  · refine (hend.part (·.ras) fun _ _ _ _ => rfl).trans ?_
    rw [hm]
    rfl

/-- An answer that is no data: the hart's access raises its exception. -/
theorem takeAnswer_fault (ho : o.origin = .hart h r size sg va more) (hst : (hartOf s h).st = .running) {a : Ans} {c : Nat}
    (ha : (a = .refused ∧ c = if o.kind = 4 ∨ o.kind = 8 then 7 else 5) ∨ (a = .poison ∧ c = 19)) :
    (hartOf (takeAnswer o a s) h).exc = some ⟨c, va, (hartOf s h).pc⟩ ∧ (hartOf (takeAnswer o a s) h).x = (hartOf s h).x ∧
      otherHarts h s (takeAnswer o a s) ∧ (takeAnswer o a s).outs = s.outs.filter (fun x => x.xid != o.xid) ∧
      (takeAnswer o a s).ras = s.ras ∧ (takeAnswer o a s).regs = s.regs := by
  obtain ⟨ps, hps⟩ := dropRecord_pairs h (unsent o s)
  have hc : c ≠ 0 := by rcases ha with ⟨-, rfl⟩ | ⟨-, rfl⟩ <;> [(split <;> decide); decide]
  have heq : takeAnswer o a s = raise h c va { unsent o s with pairs := ps } := by
    rcases ha with ⟨rfl, rfl⟩ | ⟨rfl, rfl⟩
    · rw [takeAnswer_hart ho, ← hps]
      exact hartAnswer_fault (s := unsent o s) hst hc 0
    · rw [takeAnswer_hart ho, ← hps]
      exact hartAnswer_fault (s := unsent o s) hst hc 0
  obtain ⟨hexc, hx, -, -, -, -, hothers, -, -, -, -, -, houts⟩ := raise_raised h c va { unsent o s with pairs := ps }
  rw [heq]
  exact ⟨hexc, hx, hothers, houts, (raise_keeps h c va _ (keeps_refl _ _) (Nat.or_self _)).part .ras rfl, raise_regs h c va _⟩

/-! ### Completions of a root port's end (R277, R278) -/

theorem aerEvent_recorded {y : State} (g n : Nat) (devs : List Nat) (hras : y.ras = s.ras) (hregs : y.regs = s.regs) :
    recordedIn 2 4 (portUnit g n) 0x0403 s (aerEvent g n devs y) := by
  have hrec : recordedIn 2 4 (portUnit g n) 0x0403 s (recContained (nextSlice y) 4 (portUnit g n) 0x0403 0 [] y) :=
    recContained_recordedIn _ _ _ _ _ _ (by rw [hras]) (beat_of_regs hregs)
  have hlog := aerEvent_part (·.ras.platform) (fun _ _ _ => rfl) g n devs y
  unfold recordedIn at hrec ⊢
  rw [hlog]
  exact hrec

theorem aerEvent_keepsPart {p : Part} (hp : p ≠ .regs ∧ p ≠ .ras ∧ p ≠ .mbx ∧ p ≠ .clerk) (g n : Nat) (devs : List Nat) (y : State) :
    samePart p y (aerEvent g n devs y) := by
  refine (aerEvent_keeps g n devs y (keeps_refl _ y) (Nat.or_self _)).part p ?_
  obtain ⟨hregs, hras, hmbx, hclerk⟩ := hp
  cases p <;> first | rfl | contradiction

end Sys2Proof.Machine
end

section
/-! ROOT_PORT_COMPLETION, COMPLETION_TIMEOUT and CXL_MEM_RESPONSE (R277, R278, R282), and the family's statement (O48). -/
set_option Elab.async false
namespace Sys2Proof.Machine

variable {s : State} {o : Out} {xid h r size va : Nat} {sg more : Bool}

/-- The answer a to a request that a port's error ends, and the error's event. -/
def erred (o : Out) (a : Ans) (s : State) : State :=
  aerEvent (o.dev - 64) (outPort s (o.dev - 64) o) (funcsAt s (o.dev - 64) o.pa) (takeAnswer o a s)

/-- The answer that a completion's status gives. -/
def statusAns (status : Nat) : Ans := if status = 3 then .poison else .refused

theorem completions_unknown (hxid : outOf s xid = none) (status data ns : Nat) (poison : Bool) :
    exec (.rootPortCompletion xid status data) s = .next s ∧ exec (.completionTimeout xid ns) s = .next s ∧
      exec (.cxlMemResponse xid data poison) s = .next s := by
  refine ⟨congrArg Host.Outcome.next ?_, congrArg Host.Outcome.next ?_, congrArg Host.Outcome.next ?_⟩
  · rw [rootCompletion, hxid]
  · rw [Machine.completionTimeout, hxid]
  · rw [cxlResponse, hxid]

theorem rootCompletion_data (hxid : outOf s xid = some o) (hdev : 64 ≤ o.dev) (hread : isRead o = true) (data : Nat) :
    rootCompletion xid 0 data s = takeAnswer o (.data data) s := by
  unfold rootCompletion
  rw [hxid]
  dsimp only
  rw [if_pos ⟨hdev, Or.inl hread⟩, if_pos rfl]

theorem rootCompletion_erred (hxid : outOf s xid = some o) (hdev : 64 ≤ o.dev) {status : Nat} (hst : status ≠ 0)
    (hend : isRead o = true ∨ postedOut s o = true) (data : Nat) : rootCompletion xid status data s = erred o (statusAns status) s := by
  unfold rootCompletion
  rw [hxid]
  dsimp only
  rw [if_pos ⟨hdev, hend.imp_right (⟨·, hst⟩)⟩, if_neg hst, statusAns]
  split <;> rfl

theorem rootCompletion_posted (hxid : outOf s xid = some o) (hread : isRead o = false) (data : Nat) :
    rootCompletion xid 0 data s = s := by
  unfold rootCompletion
  rw [hxid]
  dsimp only
  exact if_neg (by rw [hread]; simp)

theorem timeout_erred (hxid : outOf s xid = some o) (hdev : 64 ≤ o.dev) (hread : isRead o = true) {ns : Nat}
    (hns : timeoutNs s (o.dev - 64) (outPort s (o.dev - 64) o) ≤ ns) : completionTimeout xid ns s = erred o .poison s := by
  unfold Machine.completionTimeout
  rw [hxid]
  exact if_pos ⟨hdev, hread, hns⟩

theorem timeout_unmet (hxid : outOf s xid = some o) {ns : Nat}
    (hns : isRead o = false ∨ ns < timeoutNs s (o.dev - 64) (outPort s (o.dev - 64) o)) : completionTimeout xid ns s = s := by
  unfold Machine.completionTimeout
  rw [hxid]
  refine if_neg ?_
  rintro ⟨-, hr, hle⟩
  rcases hns with h | h
  · rw [h] at hr
    cases hr
  · exact absurd h (Nat.not_lt.2 hle)

/-- A load that a port's error ends. -/
theorem erred_hart (ho : o.origin = .hart h r size sg va more) (hst : (hartOf s h).st = .running) {a : Ans} {c : Nat}
    (ha : (a = .refused ∧ c = if o.kind = 4 ∨ o.kind = 8 then 7 else 5) ∨ (a = .poison ∧ c = 19)) :
    (hartOf (erred o a s) h).exc = some ⟨c, va, (hartOf s h).pc⟩ ∧ (hartOf (erred o a s) h).x = (hartOf s h).x ∧
      otherHarts h s (erred o a s) ∧ (erred o a s).outs = s.outs.filter (fun x => x.xid != o.xid) ∧
      recordedIn 2 4 (portUnit (o.dev - 64) (outPort s (o.dev - 64) o)) 0x0403 s (erred o a s) := by
  obtain ⟨hexc, hx, hothers, houts, hras, hregs⟩ := takeAnswer_fault ho hst ha
  have hrec := aerEvent_recorded (s := s) (o.dev - 64) (outPort s (o.dev - 64) o) (funcsAt s (o.dev - 64) o.pa) hras hregs
  have hh : (erred o a s).harts = (takeAnswer o a s).harts := aerEvent_keepsPart (p := .harts) (by simp) _ _ _ _
  have ho' : (erred o a s).outs = (takeAnswer o a s).outs := aerEvent_keepsPart (p := .outs) (by simp) _ _ _ _
  refine ⟨by rw [hartOf_congr hh, hexc], by rw [hartOf_congr hh, hx], fun k hk => by rw [hartOf_congr hh, hothers k hk],
    ho'.trans houts, hrec⟩

theorem takeAnswer_unawaited (ho : o.origin = .none) (a : Ans) : takeAnswer o a s = unsent o s := by
  unfold takeAnswer
  dsimp only
  rw [ho]
  rfl

/-- A posted write that a port's error ends. -/
theorem erred_posted (ho : o.origin = .none) (a : Ans) : (erred o a s).outs = s.outs.filter (fun x => x.xid != o.xid) ∧
    recordedIn 2 4 (portUnit (o.dev - 64) (outPort s (o.dev - 64) o)) 0x0403 s (erred o a s) := by
  have hsent := takeAnswer_unawaited (s := s) ho a
  refine ⟨?_, aerEvent_recorded _ _ _ (by rw [hsent]; rfl) (by rw [hsent]; rfl)⟩
  refine Eq.trans (aerEvent_keepsPart (p := .outs) (by simp) _ _ _ _) ?_
  rw [hsent]
  rfl

theorem cxlResponse_other (hxid : outOf s xid = some o) (hout : o.dev < 64 ∨ isEndpoint s (o.dev - 64) = true ∨
    regionOf (offOf o.pa) ≠ .cxl) (data : Nat) (poison : Bool) : cxlResponse xid data poison s = s := by
  unfold cxlResponse
  rw [hxid]
  refine if_neg ?_
  simp only [cxlOut, Bool.and_eq_true, decide_eq_true_eq, Bool.not_eq_true', beq_iff_eq]
  rintro ⟨⟨hdev, hep⟩, hreg⟩
  rcases hout with h | h | h
  · omega
  · rw [h] at hep
    cases hep
  · exact h hreg

theorem cxlResponse_port {g d : Nat} (hxid : outOf s xid = some o) (ho : o.origin = .port g d) (hdev : 64 ≤ o.dev)
    (hep : isEndpoint s (o.dev - 64) = false) (hreg : regionOf (offOf o.pa) = .cxl) (data : Nat) (poison : Bool) :
    ∃ t, exec (.cxlMemResponse xid data poison) s = .next t ∧ t.outs = s.outs.filter (fun x => x.xid != o.xid) ∧
      (groupOf t g).ans = some (if poison then ⟨2, []⟩ else ⟨0, putLE [] 0 o.size data⟩) ∧
      ∀ p, p ≠ .outs → p ≠ .groups → samePart p s t := by
  have hcxl : cxlOut s o = true := by simp [cxlOut, hdev, hep, hreg]
  have hans : takeAnswer o (if poison then .poison else .data data) s = modGroup g (fun q => { q with
      ans := some (if poison then ⟨2, []⟩ else ⟨0, putLE [] 0 o.size data⟩) }) (unsent o s) := by
    unfold takeAnswer
    dsimp only
    rw [ho]
    cases poison <;> rfl
  have heq : cxlResponse xid data poison s = takeAnswer o (if poison then .poison else .data data) s := by
    unfold cxlResponse
    rw [hxid]
    exact if_pos hcxl
  refine ⟨_, congrArg Host.Outcome.next (heq.trans hans), rfl, by rw [groupOf_modGroup], fun p hp hg => ?_⟩
  cases p <;> first | rfl | exact absurd rfl hp | exact absurd rfl hg

/-- Settles O48: a request from outside is answered in its group, refused, or translated and carried to its address; an answer from
outside ends the request that it answers. -/
theorem serdesTraffic : Obligations.SerdesTraffic := by
  unfold Obligations.SerdesTraffic
  intro s
  refine ⟨fun g n q h => congrArg Host.Outcome.next (ingressRequest_off h),
    fun g n q hup hkind hrole hwrite hat hsize => ingress_id hup hkind hrole hwrite hat hsize,
    fun g n q v hup hmem hep hkind hwrite hat hv hsize hpend => ingress_vector hup hmem hep hkind hwrite hat hv hsize hpend,
    fun g n q hup hmem hep hkind hfar => congrArg Host.Outcome.next ((ingressRequest_bar hup hmem hep hkind).trans (if_pos hfar)),
    fun g n q hup hmem hep hkind hrole => congrArg Host.Outcome.next (ingressRequest_refused hup hmem hep hkind hrole),
    fun g n q hup hmem hkind hrole => congrArg Host.Outcome.next (ingressRequest_time hup hmem hkind hrole),
    fun g n q hup hmem hkind hreset => ⟨_, congrArg Host.Outcome.next (ingressRequest_resetting hup hmem hkind hreset),
      farAnswer_ans _ _ _ _, fun p hp => farAnswer_part hp _ _ _ _⟩,
    fun g n q r hr hup hmem hreset hkind hep => ⟨fun hctx hmode hq => ingress_noDirectory hr hup hmem hreset hkind hep hctx hmode hq,
      fun hctx hreach => ingress_ownContext hr hup hmem hreset hkind hep hctx hreach,
      fun s2 hctx hmode hkind hs2 => ingress_bare_spec hr hup hmem hreset hkind hep hctx hmode hs2⟩,
    fun tag g dev off size v r htag => ecamWrite_refused_spec htag,
    fun g dev off size v r hg => congrArg Host.Outcome.next (ecamWrite_absent hg),
    fun g dev off size v r hd => ecamWrite_dvsec_parts hd,
    fun g dev off size v r hd h => congrArg Host.Outcome.next (ecamWrite_discarded hd h),
    fun g dev off size v r hg hprot hreset hin hcfg hbar hd => ecamWrite_spec hg hprot hreset hin hcfg hbar hd,
    fun h pa size v g r hreg hhome hruns hat hsize hv => ?_,
    fun h pa size v g hreg hhome hruns hat => signalPage_refused_spec hreg hhome hruns hat,
    fun xid status data ns poison hxid => completions_unknown hxid status data ns poison,
    fun xid o h r size sg va more hxid ho hdev hread hst => ?_, fun xid o data hxid hdev hread => ?_,
    fun xid o data poison hxid hout => congrArg Host.Outcome.next (cxlResponse_other hxid hout data poison),
    fun xid o g d data poison hxid ho hdev hep hreg => cxlResponse_port hxid ho hdev hep hreg data poison⟩
  · refine ⟨_, signalPage_sent hreg hhome hruns hat hsize hv, ?_, fun hopen => (sendVector_open hopen).2,
      fun hmask => (sendVector_masked hmask).2⟩
    cases hvec : vecOpen s g v with
    | true => exact (sendVector_open hvec).1
    | false => exact (sendVector_masked hvec).1
  · have h4 : o.kind ≠ 4 := fun h4 => by simp [isRead, h4] at hread
    refine ⟨fun data hr h8 => ⟨_, congrArg Host.Outcome.next (rootCompletion_data hxid hdev hread data),
      takeAnswer_load ho hst hr h4 h8 data⟩, fun i ns data hi => ?_, fun data status hstatus => ?_,
      fun ns hns => congrArg Host.Outcome.next (timeout_unmet hxid (Or.inr hns))⟩
    · obtain ⟨hexc, hx, hothers, houts, hrec⟩ := erred_hart ho hst (Or.inr ⟨rfl, rfl⟩)
      refine ⟨erred o .poison s, ?_, hexc, hx, hothers, houts, hrec⟩
      rcases hi with rfl | ⟨hns, rfl⟩
      · exact congrArg Host.Outcome.next (rootCompletion_erred hxid hdev (by decide) (Or.inl hread) data)
      · exact congrArg Host.Outcome.next (timeout_erred hxid hdev hread hns)
    · have hcause : (if o.kind = 8 then 7 else 5) = if o.kind = 4 ∨ o.kind = 8 then 7 else 5 := by simp only [h4, false_or]
      have hans : statusAns status = .refused := if_neg (by omega)
      obtain ⟨hexc, hx, hothers, houts, hrec⟩ := erred_hart ho hst (Or.inl ⟨rfl, hcause⟩)
      exact ⟨_, congrArg Host.Outcome.next ((rootCompletion_erred hxid hdev (by omega) (Or.inl hread) data).trans (by rw [hans])),
        hexc, hx, hothers, houts, hrec⟩
  · refine ⟨congrArg Host.Outcome.next (rootCompletion_posted hxid hread data),
      fun ns => congrArg Host.Outcome.next (timeout_unmet hxid (Or.inl hread)), fun status hstatus hposted ho => ?_⟩
    exact ⟨_, congrArg Host.Outcome.next (rootCompletion_erred hxid hdev hstatus (Or.inr hposted) data), erred_posted ho _⟩

end Sys2Proof.Machine
end

section
/-! What placing, cleaning and discarding lines leaves of a slice's queue and of its directory (R120, R125). -/
set_option Elab.async false
namespace Sys2Proof.Machine

/-- The queue of a slice, what waits outside it, its fills in flight and the lines it owns. -/
def queueOfSlice (r : Slice) : List AmqEnt × List AmqEnt × List Fill × List Nat := (r.amq, r.outside, r.fills, r.owned)

/-- The queue and the fills of slice n and its directory are those of s. -/
structure QueueKept (n : Nat) (s t : State) : Prop where
  queue : queueOfSlice (sliceOf t n) = queueOfSlice (sliceOf s n)
  dir : (sliceOf t n).dir = (sliceOf s n).dir

theorem amq_of_queue {q r : Slice} (h : queueOfSlice q = queueOfSlice r) : q.amq = r.amq := congrArg (·.1) h

theorem outside_of_queue {q r : Slice} (h : queueOfSlice q = queueOfSlice r) : q.outside = r.outside := congrArg (·.2.1) h

theorem fills_of_queue {q r : Slice} (h : queueOfSlice q = queueOfSlice r) : q.fills = r.fills := congrArg (·.2.2.1) h

theorem owned_of_queue {q r : Slice} (h : queueOfSlice q = queueOfSlice r) : q.owned = r.owned := congrArg (·.2.2.2) h

theorem QueueKept.amq {n : Nat} {s t : State} (h : QueueKept n s t) : (sliceOf t n).amq = (sliceOf s n).amq := amq_of_queue h.queue

theorem QueueKept.outside {n : Nat} {s t : State} (h : QueueKept n s t) : (sliceOf t n).outside = (sliceOf s n).outside :=
  outside_of_queue h.queue

theorem QueueKept.refl (n : Nat) (s : State) : QueueKept n s s := ⟨rfl, rfl⟩

theorem QueueKept.trans {n : Nat} {s t u : State} (h : QueueKept n s t) (k : QueueKept n t u) : QueueKept n s u :=
  ⟨k.queue.trans h.queue, k.dir.trans h.dir⟩

theorem QueueKept.of_slices {n : Nat} {s t : State} (h : t.slices = s.slices) : QueueKept n s t := by
  have hsl : sliceOf t n = sliceOf s n := by rw [sliceOf, h, sliceOf]
  exact ⟨by rw [hsl], by rw [hsl]⟩

theorem QueueKept.ite {n : Nat} {p : Prop} [Decidable p] {s t u : State} (ht : QueueKept n s t) (hu : QueueKept n s u) :
    QueueKept n s (if p then t else u) := by
  split
  · exact ht
  · exact hu

theorem QueueKept.setSlice {n : Nat} {r : Slice} {s : State} (hq : queueOfSlice r = queueOfSlice (sliceOf s n))
    (hd : r.dir = (sliceOf s n).dir) : QueueKept n s (setSlice n r s) := by
  constructor
  all_goals rw [setSlice_sliceOf_same]
  · exact hq
  · exact hd

theorem QueueKept.putSlice {n : Nat} {r : Slice} {s : State} (hq : queueOfSlice r = queueOfSlice (sliceOf s n))
    (hd : r.dir = (sliceOf s n).dir) : QueueKept n s (putSlice n r s) :=
  .trans (.setSlice hq hd) (.of_slices (putSlice_slices n r s))

theorem QueueKept.putArr (n line : Nat) (l : SLine) (s : State) : QueueKept n s (putArr n line l s) := .putSlice rfl rfl

theorem QueueKept.dropArr (n line : Nat) (s : State) : QueueKept n s (dropArr n line s) := .putSlice rfl rfl

theorem QueueKept.writeHome (n tag line data : Nat) (poison : Bool) (s : State) : QueueKept n s (writeHome tag line data poison s) :=
  .of_slices (writeHome_slices tag line data poison s)

theorem QueueKept.correctLine (n line : Nat) (s : State) : QueueKept n s (correctLine n line s) := by
  unfold Machine.correctLine
  split
  · exact .putArr n line _ s
  · exact .setSlice rfl rfl

theorem QueueKept.armErrors (n : Nat) (l : SLine) (s : State) : QueueKept n s (armErrors n l s).1 := by
  unfold Machine.armErrors
  simp only []
  split
  · exact .setSlice rfl rfl
  · exact .refl n s

/-- An error of the data or the tag array, the rows up to 5 of Table 5.2, leaves the directory. -/
theorem QueueKept.rowAct {n line row way : Nat} {l : SLine} {s y : State} (h : QueueKept n s y) (hrow : row ≤ 5) :
    QueueKept n s (rowAct n line row way l s y) := by
  have hdrop : QueueKept n s (Machine.dropArr n line y) := h.trans (.dropArr n line y)
  unfold Machine.rowAct
  split
  · exact (h.trans (.correctLine n line y)).trans (.of_slices (recCorrected_slices _ _ _ _ _ _))
  · exact hdrop.trans (.of_slices (recContained_slices _ _ _ _ _ _ _))
  · exact (hdrop.trans (.writeHome n _ _ _ _ _)).trans (.of_slices (recVisible_slices _ _ _ _ _ _ _ _ _ _))
  · exact hdrop.trans (.of_slices (recContained_slices _ _ _ _ _ _ _))
  · exact hdrop.trans (.setSlice rfl rfl)
  · exact absurd hrow (by decide)
  · exact absurd hrow (by decide)
  · exact absurd hrow (by decide)
  · exact absurd hrow (by decide)
  · exact .refl n s

theorem QueueKept.readHeld (n line : Nat) (s : State) : QueueKept n s (readHeld n line s) := by
  have hrow := errRow_le ((arrOf s n line).or (vicOf s n line))
  unfold Machine.readHeld
  simp only []
  generalize errRow ((arrOf s n line).or (vicOf s n line)) = row at hrow
  generalize ((((arrOf s n line).or (vicOf s n line)).map (·.tag)).getD 0) = tag
  split
  · exact .refl n s
  · obtain ⟨l, way, heq⟩ := arrayError_eq n line tag row s
    rw [heq]
    exact .rowAct (.of_slices (rowMet_slices n _ _ line way l.tag s)) (rowOf_le hrow _)

theorem evictNotice_slices (n line tag : Nat) (s : State) : (evictNotice n line tag s).slices = s.slices :=
  (evictNotice_keeps n line tag s (keeps_refl _ s) (Nat.or_self _)).part .slices rfl

theorem QueueKept.ageVictim (n : Nat) (s : State) : QueueKept n s (ageVictim n s) := by
  unfold Machine.ageVictim
  split
  · refine .ite (.refl n s) ?_
    simp only []
    split
    · refine .ite (.trans ?_ (.writeHome n _ _ _ _ _)) (.trans ?_ (.of_slices (evictNotice_slices _ _ _ _)))
      all_goals
        refine (QueueKept.readHeld n _ s).trans (.putSlice ?_ ?_)
        all_goals rfl
    · exact .readHeld n _ s
  · exact .refl n s

theorem QueueKept.toVictim (n line : Nat) (l : SLine) (s : State) : QueueKept n s (toVictim n line l s) :=
  .trans (.ageVictim n s) (.putSlice rfl rfl)

theorem QueueKept.displace (n line : Nat) (l : SLine) (s : State) : QueueKept n s (displace n line l s) :=
  .trans (.dropArr n line s) (.ite (.ite (.writeHome n _ _ _ _ _) (.refl n _)) (.toVictim _ _ _ _))

theorem QueueKept.readOccupant (n line w : Nat) (s : State) : QueueKept n s (readOccupant n line w s) := by
  unfold Machine.readOccupant
  split
  · exact .readHeld _ _ s
  · exact .refl n s

theorem QueueKept.moveOccupant (n line w : Nat) (s : State) : QueueKept n s (moveOccupant n line w s) := by
  unfold Machine.moveOccupant
  split
  · exact .displace _ _ _ s
  · exact .refl n s

theorem QueueKept.intoWay (n line w : Nat) (l : SLine) (s : State) : QueueKept n s (intoWay n line w l s) := by
  rw [intoWay_eq]
  exact (((QueueKept.readOccupant n line w s).trans (.moveOccupant n line w _)).trans (.armErrors n _ _)).trans (.putArr n line _ _)

theorem QueueKept.writeThrough (n line : Nat) (l : SLine) (s : State) :
    QueueKept n s (if l.dirty then Machine.writeHome l.tag line l.data l.poison (Machine.dropArr n line s) else s) :=
  .ite (.trans (.dropArr n line s) (.writeHome n _ _ _ _ _)) (.refl n s)

theorem QueueKept.placeLine (n line : Nat) (l : SLine) (s : State) : QueueKept n s (placeLine n line l s) := by
  unfold Machine.placeLine
  split
  · exact (QueueKept.armErrors n _ s).trans (.putArr n line _ _)
  · simp only []
    refine .ite (.writeThrough n line l s) ?_
    split
    · exact .intoWay _ _ _ _ s
    · split
      · exact .intoWay _ _ _ _ s
      · split
        · refine .trans ?_ (.intoWay _ _ _ _ _)
          exact .of_slices rfl
        · exact .writeThrough n line l s

theorem QueueKept.foldl {α : Type} {n : Nat} {f : State → α → State} (hf : ∀ y a, QueueKept n y (f y a)) (l : List α) (s : State) :
    QueueKept n s (l.foldl f s) :=
  List.foldlRecOn (motive := QueueKept n s) l f (.refl n s) fun y hy a _ => hy.trans (hf y a)

theorem QueueKept.cleanLine (n line : Nat) (s : State) : QueueKept n s (cleanLine n line s) := by
  unfold Machine.cleanLine
  dsimp only
  refine .trans (.readHeld n line s) ?_
  generalize Machine.readHeld n line s = y
  split
  · refine .trans ?_ (.writeHome n _ _ _ _ _)
    split
    on_goal 1 => refine .trans ?_ (.putArr n line _ _)
    on_goal 2 => refine .trans ?_ (.dropArr n line _)
    all_goals
      refine .foldl (fun z c => ?_) _ y
      split
      · exact .of_slices rfl
      · exact .refl n z
  · split
    · exact .ite (.trans (.putArr n line _ _) (.writeHome n _ _ _ _ _)) (.refl n y)
    · split
      · refine .ite (.trans (.putSlice ?_ ?_) (.writeHome n _ _ _ _ _)) (.refl n y)
        all_goals rfl
      · exact .refl n y

/-! ### Registers and harts -/

/-- Registers below the slices' blocks and those of a page's start are kept, and no hart's wait for a cache-block operation ends. -/
structure WaitsKept (s t : State) : Prop where
  low : LowKept s t
  cbo : ∀ h, (hartOf t h).cbo = (hartOf s h).cbo

theorem WaitsKept.of_moved {s t : State} (h : CacheMoved s t) : WaitsKept s t :=
  ⟨h.low, fun k => by rcases h.hart k with hk | hk <;> rw [hk]⟩

theorem WaitsKept.refl (s : State) : WaitsKept s s := ⟨.refl s, fun _ => rfl⟩

theorem WaitsKept.trans {s t u : State} (h : WaitsKept s t) (k : WaitsKept t u) : WaitsKept s u :=
  ⟨h.low.trans k.low, fun j => (k.cbo j).trans (h.cbo j)⟩

theorem WaitsKept.ite {p : Prop} [Decidable p] {s t u : State} (ht : WaitsKept s t) (hu : WaitsKept s u) :
    WaitsKept s (if p then t else u) := by
  split
  · exact ht
  · exact hu

theorem WaitsKept.foldl {α : Type} {f : State → α → State} (hf : ∀ y a, WaitsKept y (f y a)) (l : List α) (s : State) :
    WaitsKept s (l.foldl f s) :=
  List.foldlRecOn (motive := WaitsKept s) l f (.refl s) fun y hy a _ => hy.trans (hf y a)

theorem WaitsKept.cleanLine (n line : Nat) (s : State) : WaitsKept s (cleanLine n line s) := by
  unfold Machine.cleanLine
  dsimp only
  refine .trans (.of_moved (.readHeld n line s)) ?_
  generalize Machine.readHeld n line s = y
  split
  · refine .trans ?_ (.of_moved (.writeHome _ _ _ _ _))
    split
    on_goal 1 => refine .trans ?_ (.of_moved (.putArr n line _ _))
    on_goal 2 => refine .trans ?_ (.of_moved (.dropArr n line _))
    all_goals
      refine .foldl (fun z c => ?_) _ y
      split
      · exact ⟨.of_regs rfl, fun _ => rfl⟩
      · exact .refl z
  · split
    · exact .ite (.of_moved (.trans (.putArr n line _ _) (.writeHome _ _ _ _ _))) (.refl y)
    · split
      · exact .ite (.of_moved (.trans (.putSlice _ _ _) (.writeHome _ _ _ _ _))) (.refl y)
      · exact .refl y

theorem LowKept.inSparing {s t : State} (h : LowKept s t) (p : Nat) : inSparing t p = inSparing s p := by
  rw [Machine.inSparing, h.rd_start (by simp only [fkey, pairStatusState]; omega), Machine.inSparing]

theorem LowKept.coreFrozen {s t : State} (h : LowKept s t) (c : Nat) : coreFrozen t c = coreFrozen s c := LowKept.inSparing h _

theorem LowKept.hartOfCore {s t : State} (h : LowKept s t) {p : Nat} (hp : p < 136) (k : Nat) : hartOfCore t p k = hartOfCore s p k := by
  obtain ⟨-, hvalid, hslot, hmode⟩ := fkey_pairStatus_lt hp
  unfold Machine.hartOfCore rdB
  rw [h.rd_eq hvalid, h.rd_eq hslot, h.rd_eq hmode]

end Sys2Proof.Machine
end

section
/-! The end of a maintenance operation (R60, R125, R126). -/
set_option Elab.async false
namespace Sys2Proof.Machine

variable {s : State} {n line : Nat} {e : AmqEnt}

theorem putSlice_rest (n : Nat) (r : Slice) (s : State) : ∃ regs slices, putSlice n r s = { s with regs := regs, slices := slices } := by
  unfold putSlice
  dsimp only
  split <;> exact ⟨_, _, rfl⟩

theorem amqAdmit_of_empty (h : (sliceOf s n).outside = []) : amqAdmit n s = putSlice n (sliceOf s n) s := by
  unfold amqAdmit
  generalize sliceOf s n = r at h ⊢
  obtain ⟨⟩ := r
  dsimp only at h ⊢
  rw [h]
  rfl

theorem nextReady_of_noReq (h : ∀ x ∈ (sliceOf s n).amq, isReq x = false) : nextReady s n = none := by
  unfold nextReady
  rw [Option.map_eq_none_iff, List.find?_eq_none]
  intro x hx
  simp [h x.1 (List.fst_mem_of_mem_zipIdx hx)]

theorem serveReady_of_none (k : Nat) (h : nextReady s n = none) : serveReady n k s = s := by
  cases k with
  | zero => rfl
  | succ k => rw [serveReady, h]

theorem cboDone_rest (core line : Nat) (s : State) : ∃ m, cboDone core line s = { s with harts := m } := by
  unfold cboDone
  split
  · next h _ =>
    dsimp only
    split
    · obtain ⟨m, hm⟩ := ((HartCounted.countInst h (setHart h { hartOf s h with cbo := none } s)).trans (.countEvent h 0x001D _)).rest
      exact ⟨m, hm⟩
    · exact ⟨s.harts, rfl⟩
  · exact ⟨s.harts, rfl⟩

theorem cboDone_cbo {core h : Nat} (hh : hartOfCore s (core / 2) (core % 2) = some h) (hc : (hartOf s h).cbo = some line) :
    (hartOf (cboDone core line s) h).cbo = none := by
  obtain ⟨csr, pend, hout, -⟩ :=
    ((HartCounted.countInst h (setHart h { hartOf s h with cbo := none } s)).trans (.countEvent h 0x001D _)).hart
  unfold cboDone
  rw [hh]
  dsimp only
  rw [if_pos hc, hout, setHart_hartOf_same]

/-- What an operation does to the copies of its line. -/
def opActed (n line : Nat) (e : AmqEnt) (s : State) : State :=
  if e.op = 1 then cleanLine n line s else if e.op = 2 then flushLine n line s else discardLine n line s

/-- The operation leaves the queue, and its core is told. -/
def opEnded (n line : Nat) (e : AmqEnt) (s : State) : State :=
  cboDone e.core line (amqAdmit n (putSlice n { sliceOf s n with amq := (sliceOf s n).amq.erase e } s))

theorem maintComplete_of_clear (hfind : (sliceOf s n).amq.find? (fun e => e.line == line && (e.op == 1 || e.op == 2 || e.op == 3)) = some e)
    (hfill : filling s n line = false) (hans : maintAnswered s line = true) (hway : wayClear s n line (e.op != 1) none = true) :
    maintComplete n line s = if e.op = 1 ∧ homeWaits (opActed n line e s) line then opActed n line e s
      else serveReady n 48 (opEnded n line e (opActed n line e s)) := by
  unfold maintComplete
  dsimp only
  rw [hfind]
  dsimp only
  rw [if_neg (by simp [hfill, hans]), if_neg (by simp [hway])]
  rfl

section
variable (hout : (sliceOf s n).outside = [])
include hout

theorem opEnded_eq : opEnded n line e s = cboDone e.core line
    (putSlice n { sliceOf s n with amq := (sliceOf s n).amq.erase e } (putSlice n { sliceOf s n with amq := (sliceOf s n).amq.erase e } s)) := by
  have hsl := slices_putSlice n { sliceOf s n with amq := (sliceOf s n).amq.erase e } s
  rw [opEnded, amqAdmit_of_empty (by rw [hsl]; exact hout), hsl]

theorem sliceOf_opEnded : sliceOf (opEnded n line e s) n = { sliceOf s n with amq := (sliceOf s n).amq.erase e } := by
  rw [opEnded_eq hout]
  obtain ⟨m, hm⟩ := cboDone_rest e.core line
    (putSlice n { sliceOf s n with amq := (sliceOf s n).amq.erase e } (putSlice n { sliceOf s n with amq := (sliceOf s n).amq.erase e } s))
  rw [hm]
  exact slices_putSlice n _ _

theorem opEnded_rest : ∃ regs slices harts, opEnded n line e s = { s with regs := regs, slices := slices, harts := harts } := by
  rw [opEnded_eq hout]
  obtain ⟨m, hm⟩ := cboDone_rest e.core line
    (putSlice n { sliceOf s n with amq := (sliceOf s n).amq.erase e } (putSlice n { sliceOf s n with amq := (sliceOf s n).amq.erase e } s))
  obtain ⟨regs, slices, h1⟩ := putSlice_rest n { sliceOf s n with amq := (sliceOf s n).amq.erase e } s
  obtain ⟨regs', slices', h2⟩ := putSlice_rest n { sliceOf s n with amq := (sliceOf s n).amq.erase e }
    { s with regs := regs, slices := slices }
  rw [hm, h1, h2]
  exact ⟨_, _, _, rfl⟩

theorem writeWaiting_opEnded (x : Nat) : writeWaiting (opEnded n line e s) x = writeWaiting s x := by
  rw [opEnded_eq hout]
  generalize hr : ({ sliceOf s n with amq := (sliceOf s n).amq.erase e } : Slice) = r
  obtain ⟨m, hm⟩ := cboDone_rest e.core line (putSlice n r (putSlice n r s))
  rw [hm]
  refine Eq.trans ?_ ((writeWaiting_putSlice n r (putSlice n r s) x).trans (writeWaiting_putSlice n r s x))
  generalize putSlice n r (putSlice n r s) = y
  rfl

theorem opEnded_cbo {h : Nat} (hcore : e.core < 272) (hh : hartOfCore s (e.core / 2) (e.core % 2) = some h)
    (hc : (hartOf s h).cbo = some line) : (hartOf (opEnded n line e s) h).cbo = none := by
  rw [opEnded_eq hout]
  generalize hr : ({ sliceOf s n with amq := (sliceOf s n).amq.erase e } : Slice) = r
  have hlow : LowKept s (putSlice n r (putSlice n r s)) := (LowKept.putSlice n r s).trans (.putSlice n r _)
  refine cboDone_cbo ((LowKept.hartOfCore hlow (by omega) _).trans hh) ?_
  rw [hartOf_congr ((harts_putSlice n r _).trans (harts_putSlice n r s)), hc]

/-- A queue that holds operations only serves none after one of them has ended. -/
theorem serveReady_opEnded (hno : ∀ x ∈ (sliceOf s n).amq, isReq x = false) (k : Nat) :
    serveReady n k (opEnded n line e s) = opEnded n line e s := by
  refine serveReady_of_none k (nextReady_of_noReq fun x hx => ?_)
  rw [sliceOf_opEnded hout] at hx
  exact hno x (List.mem_of_mem_erase hx)

end

/-! ### Flush and discard -/

/-- No core that the directory of a line names is frozen: a discard drops every copy. -/
theorem discardLine_of_clear (h : ∀ d, dirOf s n line = some d → d.cores.any (coreFrozen s) = false) :
    discardLine n line s = dropCopies n line s := by
  refine if_neg ?_
  cases hd : dirOf s n line with
  | none => simp
  | some d =>
    rw [Option.any_some, h d hd]
    decide

/-- The copies of a line that cores hold go, and with them its place in the directory. -/
def dropCores (line : Nat) (cores : List Nat) (s : State) : State := cores.foldl (fun a c => dropL2 c line a) s

theorem takeBack_all {d : DirEnt} (hd : dirOf s n line = some d) :
    (takeBack n line none s).1 = putDir n line { d with cores := [] } (dropCores line d.cores s) := by
  have hall : (d.cores.filter fun c => some c != none) = d.cores := List.filter_eq_self.2 fun _ _ => rfl
  have hnone : (d.cores.filter fun c => some c == none) = [] := List.filter_eq_nil_iff.2 fun _ _ => by simp
  unfold takeBack
  rw [hd]
  dsimp only
  rw [hall, hnone]
  rfl

theorem l2Of_dropL2 (core line : Nat) (s : State) : l2Of (dropL2 core line s) core line = none := by
  rw [dropL2_eq]
  refine (CacheMoved.endResv core line _).l2Of_none ?_
  rw [l2Of, setCore_coreOf_same]
  exact tfind_tdel_same _ _

theorem l2Of_dropCores {cores : List Nat} {c : Nat} (hc : c ∈ cores) (s : State) : l2Of (dropCores line cores s) c line = none :=
  foldl_reaches_mem (P := fun z => l2Of z c line = none) (fun a _ y hy => (CacheMoved.dropL2 a line y).l2Of_none hy)
    (fun y => l2Of_dropL2 c line y) hc s

theorem dirOf_takeBack : dirOf (takeBack n line none s).1 n line = none := by
  cases hd : dirOf s n line with
  | none => rw [takeBack_of_dir hd, hd]
  | some d =>
    rw [takeBack_all hd, dirOf, putDir, setSlice_sliceOf_same]
    exact tfind_tdel_same _ _

theorem l2Of_takeBack {d : DirEnt} (hd : dirOf s n line = some d) {c : Nat} (hc : c ∈ d.cores) :
    l2Of (takeBack n line none s).1 c line = none := by
  rw [takeBack_all hd]
  exact (CacheMoved.putDir n line _ _).l2Of_none (l2Of_dropCores hc s)

theorem takeBack_slice : (sliceOf (takeBack n line none s).1 n).amq = (sliceOf s n).amq ∧
    (sliceOf (takeBack n line none s).1 n).outside = (sliceOf s n).outside := by
  cases hd : dirOf s n line with
  | none =>
    rw [takeBack_of_dir hd]
    exact ⟨rfl, rfl⟩
  | some d =>
    have hsl : (dropCores line d.cores s).slices = s.slices :=
      foldl_fixes State.slices (fun y c => (dropL2_keeps c line y (keeps_refl _ y) (Nat.or_self _)).part .slices rfl) d.cores s
    rw [takeBack_all hd, putDir, setSlice_sliceOf_same]
    dsimp only
    rw [sliceOf, hsl, sliceOf]
    exact ⟨rfl, rfl⟩


section
variable (s n line)

theorem sliceOf_dropCopies : (sliceOf (dropCopies n line s) n).amq = (sliceOf s n).amq ∧
    (sliceOf (dropCopies n line s) n).outside = (sliceOf s n).outside := by
  obtain ⟨hamq, hout⟩ := takeBack_slice (s := s) (n := n) (line := line)
  have hdrop := QueueKept.dropArr n line (takeBack n line none s).1
  exact ⟨hdrop.amq.trans hamq, hdrop.outside.trans hout⟩

/-- No copy of a line that is dropped is left in the slice, its directory or the cores that this named. -/
theorem dropCopies_gone : arrOf (dropCopies n line s) n line = none ∧ vicOf (dropCopies n line s) n line = none ∧
    dirOf (dropCopies n line s) n line = none ∧
    ∀ d, dirOf s n line = some d → ∀ c ∈ d.cores, l2Of (dropCopies n line s) c line = none := by
  refine ⟨arrOf_dropArr n line _, vicOf_dropArr n line _, ?_, fun d hd c hc => ?_⟩
  · rw [dropCopies, dirOf_dropArr]
    exact dirOf_takeBack
  · exact (CacheMoved.dropArr n line _).l2Of_none (l2Of_takeBack hd hc)

end

/-- A flush or a discard whose way is clear drops every copy of its line, after it has cleaned the line or at once. -/
theorem opActed_drops (hop : e.op ≠ 1) (hway : wayClear s n line (e.op != 1) none = true) :
    ∃ y, QueueKept n s y ∧ WaitsKept s y ∧ opActed n line e s = dropCopies n line y := by
  have hfree : ∀ d, dirOf s n line = some d → d.cores.any (coreFrozen s) = false := fun d hd => by
    simp only [wayClear, heldByFrozen, Bool.and_eq_true] at hway
    rw [show tfind (sliceOf s n).dir line = some d from hd] at hway
    simp only [bne_iff_ne.2 hop, Bool.or_true, Bool.true_and, Bool.not_eq_true'] at hway
    rw [List.any_eq_false] at hway ⊢
    exact fun c hc hfrozen => hway.2 c hc (by simp [coreHolds, hfrozen])
  have hdiscard (y : State) (hq : QueueKept n s y) (hw : WaitsKept s y) : discardLine n line y = dropCopies n line y :=
    discardLine_of_clear fun d hd => by
      rw [dirOf, hq.dir] at hd
      rw [← hfree d hd]
      exact congrArg d.cores.any (funext (LowKept.coreFrozen hw.low))
  rw [opActed, if_neg hop]
  by_cases h2 : e.op = 2
  · rw [if_pos h2, flushLine]
    exact ⟨_, .cleanLine n line s, .cleanLine n line s, hdiscard _ (.cleanLine n line s) (.cleanLine n line s)⟩
  · rw [if_neg h2]
    exact ⟨s, .refl n s, .refl s, hdiscard s (.refl n s) (.refl s)⟩

/-! ### Clean -/

theorem ownLine_putSlice (n : Nat) (r : Slice) (s : State) (x : Nat) : ownLine (putSlice n r s) x = ownLine s x := by
  rw [ownLine, ownLine, rd_putSlice (by decide) (by decide)]

theorem ownDram_putArr (l : SLine) (x : Nat) : ownDram (putArr n line l s) x = ownDram s x := by
  rw [ownDram, ownDram, putArr, ownLine_putSlice]

theorem outDev_putArr (l : SLine) (x : Nat) : outDev (putArr n line l s) x = outDev s x := by
  rw [outDev, outDev, putArr, ownLine_putSlice]

theorem outs_putArr (l : SLine) : (putArr n line l s).outs = s.outs :=
  (putArr_keeps n line l s (keeps_refl _ s) (Nat.or_self _)).part .outs rfl

section
variable {l : SLine} (hdir : dirOf s n line = none) (harr : arrOf s n line = some l) (hrow : errRow (some l) = 0)
include hdir harr hrow

/-- A line that only the slice's array holds, without an error, is cleaned by its write-back. -/
theorem cleanLine_of_held : cleanLine n line s = cleaned n line l s := by
  have hread : readHeld n line s = s := by
    unfold readHeld
    dsimp only
    rw [harr, Option.some_or, hrow]
    rfl
  unfold cleanLine
  dsimp only
  rw [hread, hdir, harr]
  rfl

theorem opActed_clean (hop : e.op = 1) : opActed n line e s = cleaned n line l s := by
  rw [opActed, if_pos hop, cleanLine_of_held hdir harr hrow]

end

theorem QueueKept.cleaned (n line : Nat) (l : SLine) (s : State) : QueueKept n s (cleaned n line l s) :=
  .ite (.trans (.putArr n line _ s) (.writeHome n _ _ _ _ _)) (.refl n s)

/-- The write-back of a line with another home is a request to it, which is not answered yet. -/
theorem cleaned_far {l : SLine} (hd : l.dirty = true) (hown : ownLine s line = false) :
    homeWaits (cleaned n line l s) line = true ∧ ∃ o, (cleaned n line l s).outs = s.outs ++ [o] ∧ o.kind = 5 ∧
      o.dev = outDev s line ∧ o.pa = line * 64 ∧ o.data = l.data ∧ o.tag = l.tag := by
  have hdram : ownDram s line = false := by simp [ownDram, hown]
  have heq : cleaned n line l s = sendOut { xid := 0, dev := outDev s line, kind := 5, pa := line * 64, tag := l.tag, data := l.data, poison := l.poison, removal := false }
      (putArr n line { l with dirty := false } s) := by
    rw [Machine.cleaned, if_pos hd, writeHome, writeBack, ownDram_putArr, hdram, outDev_putArr]
    rfl
  have houts := outs_sendOut { xid := 0, dev := outDev s line, kind := 5, pa := line * 64, tag := l.tag, data := l.data, poison := l.poison, removal := false }
      (putArr n line { l with dirty := false } s)
  rw [← heq, outs_putArr] at houts
  have hlow : ownDram (cleaned n line l s) line = false := by
    have hkept : rd (cleaned n line l s) fabIdDeviceId = rd s fabIdDeviceId := by
      rw [heq]
      refine ((LowKept.sendOut _ _).rd_start (by decide)).trans ?_
      rw [putArr, rd_putSlice (by decide) (by decide)]
    rw [ownDram, ownLine, hkept]
    exact hdram
  refine ⟨?_, _, houts, rfl, rfl, rfl, rfl, rfl⟩
  rw [homeWaits, hlow, houts]
  simp

section
variable (hfind : (sliceOf s n).amq.find? (fun e => e.line == line && (e.op == 1 || e.op == 2 || e.op == 3)) = some e)
  (hfill : filling s n line = false) (hans : maintAnswered s line = true) (hway : wayClear s n line (e.op != 1) none = true)
  (hno : ∀ x ∈ (sliceOf s n).amq, isReq x = false) (hout : (sliceOf s n).outside = [])
include hfind hfill hans hway hno hout

/-- Where the line's home holds the data after the operation, it leaves the queue. -/
theorem maintComplete_ends (hq : (sliceOf (opActed n line e s) n).amq = (sliceOf s n).amq)
    (ho : (sliceOf (opActed n line e s) n).outside = (sliceOf s n).outside)
    (hhome : e.op = 1 → homeWaits (opActed n line e s) line = false) :
    maintComplete n line s = opEnded n line e (opActed n line e s) := by
  rw [maintComplete_of_clear hfind hfill hans hway, if_neg (fun h => by rw [hhome h.1] at h; exact absurd h.2 (by decide))]
  exact serveReady_opEnded (by rw [ho]; exact hout) (by rw [hq]; exact hno) 48

theorem maintComplete_drops (hcore : e.core < 272) (hop : e.op ≠ 1) : ∃ t, maintComplete n line s = t ∧
    (sliceOf t n).amq = (sliceOf s n).amq.erase e ∧ arrOf t n line = none ∧ vicOf t n line = none ∧ dirOf t n line = none ∧
    (∀ d, dirOf s n line = some d → ∀ c ∈ d.cores, l2Of t c line = none) ∧
    (∀ h, hartOfCore s (e.core / 2) (e.core % 2) = some h → (hartOf s h).cbo = some line → (hartOf t h).cbo = none) := by
  obtain ⟨y, hq, hw, hacted⟩ := opActed_drops hop hway
  obtain ⟨hamq, hside⟩ := sliceOf_dropCopies y n line
  have hamq' := hamq.trans hq.amq
  have hside' := hside.trans hq.outside
  obtain ⟨harr, hvic, hdir, hl2⟩ := dropCopies_gone y n line
  have hmoved : CacheMoved y (dropCopies n line y) := (CacheMoved.takeBack n line none y).trans (.dropArr n line _)
  have hwaits : WaitsKept s (dropCopies n line y) := hw.trans (.of_moved hmoved)
  refine ⟨_, maintComplete_ends hfind hfill hans hway hno hout (by rw [hacted]; exact hamq') (by rw [hacted]; exact hside')
    fun h => absurd h hop, ?_⟩
  rw [hacted]
  generalize dropCopies n line y = z at *
  have hempty : (sliceOf z n).outside = [] := hside'.trans hout
  have hsl := sliceOf_opEnded (line := line) (e := e) hempty
  refine ⟨?_, ?_, ?_, ?_, fun d hd c hc => ?_, fun h hh hc => ?_⟩
  · rw [hsl, hamq']
  · rw [arrOf, hsl]
    exact harr
  · rw [vicOf, hsl]
    exact hvic
  · rw [dirOf, hsl]
    exact hdir
  · obtain ⟨regs, slices, harts, hrest⟩ := opEnded_rest (line := line) (e := e) hempty
    rw [hrest]
    exact hl2 d (by rw [dirOf, hq.dir]; exact hd) c hc
  · refine opEnded_cbo hempty hcore ((LowKept.hartOfCore hwaits.low (by omega) _).trans hh) ?_
    rw [hwaits.cbo, hc]

variable {l : SLine} (hop : e.op = 1) (hdir : dirOf s n line = none) (harr : arrOf s n line = some l) (hrow : errRow (some l) = 0)
include hop hdir harr hrow

omit hno hout in
theorem maintComplete_cleansFar (hd : l.dirty = true) (hown : ownLine s line = false) : ∃ t, maintComplete n line s = t ∧
    (sliceOf t n).amq = (sliceOf s n).amq ∧ arrOf t n line = some { l with dirty := false } ∧
    ∃ o, t.outs = s.outs ++ [o] ∧ o.kind = 5 ∧ o.dev = outDev s line ∧ o.pa = line * 64 ∧ o.data = l.data ∧ o.tag = l.tag := by
  have hacted := opActed_clean hdir harr hrow hop
  obtain ⟨hwaits, ho⟩ := cleaned_far (n := n) hd hown
  refine ⟨_, maintComplete_of_clear hfind hfill hans hway, ?_⟩
  rw [hacted, if_pos ⟨hop, hwaits⟩]
  exact ⟨(QueueKept.cleaned n line l s).amq, arrOf_cleaned harr, ho⟩

theorem maintComplete_cleansOwn (hown : ownDram s line = true) : ∃ t, maintComplete n line s = t ∧
    arrOf t n line = some { l with dirty := false } ∧
    (sliceOf t n).amq = (if writeWaiting t (line % 2 ^ 40) then (sliceOf s n).amq else (sliceOf s n).amq.erase e) := by
  have hacted := opActed_clean hdir harr hrow hop
  have hq := QueueKept.cleaned n line l s
  have hlow : homeWaits (cleaned n line l s) line = writeWaiting (cleaned n line l s) (line % 2 ^ 40) := by
    have hkept : LowKept s (cleaned n line l s) :=
      .ite (.trans (.putSlice n _ s) (CacheMoved.writeHome _ _ _ _ _).low) (.refl s)
    have hdram : ownDram (cleaned n line l s) line = true := by
      rw [ownDram, ownLine, hkept.rd_start (by decide)]
      exact hown
    rw [homeWaits, if_pos hdram]
  cases hw : writeWaiting (cleaned n line l s) (line % 2 ^ 40) with
  | true =>
    refine ⟨_, maintComplete_of_clear hfind hfill hans hway, ?_⟩
    rw [hacted, if_pos ⟨hop, hlow.trans hw⟩, hw]
    exact ⟨arrOf_cleaned harr, hq.amq⟩
  | false =>
    have hempty := hq.outside.trans hout
    refine ⟨_, maintComplete_ends hfind hfill hans hway hno hout (by rw [hacted]; exact hq.amq) (by rw [hacted]; exact hq.outside)
      (fun _ => by rw [hacted, hlow, hw]), ?_⟩
    rw [hacted, writeWaiting_opEnded hempty, hw, arrOf, sliceOf_opEnded hempty, hq.amq]
    exact ⟨arrOf_cleaned harr, rfl⟩

theorem maintComplete_clean (hd : l.dirty = false) (hhome : homeWaits s line = false) : ∃ t, maintComplete n line s = t ∧
    (sliceOf t n).amq = (sliceOf s n).amq.erase e ∧ arrOf t n line = some l ∧ samePart .mem s t ∧ samePart .outs s t := by
  have hacted : opActed n line e s = s := by
    rw [opActed_clean hdir harr hrow hop, cleaned, hd]
    rfl
  refine ⟨_, maintComplete_ends hfind hfill hans hway hno hout (by rw [hacted]) (by rw [hacted]) (fun _ => by rw [hacted, hhome]), ?_⟩
  rw [hacted]
  refine ⟨by rw [sliceOf_opEnded hout], ?_, ?_⟩
  · rw [arrOf, sliceOf_opEnded hout]
    exact harr
  · obtain ⟨regs, slices, harts, hrest⟩ := opEnded_rest (line := line) (e := e) hout
    rw [hrest]
    exact ⟨rfl, rfl⟩

end

theorem maintComplete_idle (h : opWaits s n line = false) : maintComplete n line s = s := by
  have hnone : (sliceOf s n).amq.find? (fun e => e.line == line && (e.op == 1 || e.op == 2 || e.op == 3)) = none :=
    List.find?_eq_none.2 (by simpa only [opWaits, List.any_eq_false] using h)
  unfold maintComplete
  dsimp only
  rw [hnone]

/-! ### Acceptance -/

theorem maintAccept_own {core tag op : Nat} (h1 : 1 ≤ op) (h3 : op ≤ 3) (hfree : coreFrozen s core = false) :
    maintAccept n core line tag op s = if ownLine s line then enterAmq n ⟨line, core, op, tag⟩ (filling s n line || opWaits s n line) s
      else sendOut { xid := 0, dev := outDev s line, kind := 7, pa := line * 64, tag := tag, op := op, origin := .maint n core }
        (enterAmq n ⟨line, core, op, tag⟩ (filling s n line || opWaits s n line) s) :=
  if_pos ⟨by omega, hfree⟩

theorem maintAccept_refused {core tag op : Nat} (h : op = 0 ∨ 3 < op ∨ coreFrozen s core = true) :
    maintAccept n core line tag op s = s := by
  refine if_neg fun hc => ?_
  obtain ⟨hop, hfree⟩ := hc
  rcases h with h | h | h
  · omega
  · omega
  · rw [h] at hfree
    cases hfree

/-- An operation for which the queue has room is its last. -/
theorem enterAmq_room (hnew : isReq e = true → e ∉ (sliceOf s n).amq) (hout : (sliceOf s n).outside = []) (hroom : amqRoom s n e.tag (sliceOf s n).amq = true)
    (waits : Bool) : sliceOf (enterAmq n e waits s) n = { sliceOf s n with amq := (sliceOf s n).amq ++ [e] } ∧
    ∃ regs slices, enterAmq n e waits s = { s with regs := regs, slices := slices } := by
  have hin : enterAmq n e waits s = if waits then bump (llcAmqWaits n) 1 (putSlice n { sliceOf s n with amq := (sliceOf s n).amq ++ [e] } s)
      else putSlice n { sliceOf s n with amq := (sliceOf s n).amq ++ [e] } s := by
    unfold enterAmq
    dsimp only
    rw [if_neg (c := isReq e = true ∧ _) (fun h => by simpa [hout, hnew h.1] using h.2), if_pos (c := amqRoom s n e.tag (sliceOf s n).amq = true ∧ _)
      ⟨hroom, by rw [hout]; rfl⟩]
  have hsl := slices_putSlice n { sliceOf s n with amq := (sliceOf s n).amq ++ [e] } s
  obtain ⟨regs, slices, hrest⟩ := putSlice_rest n { sliceOf s n with amq := (sliceOf s n).amq ++ [e] } s
  rw [hin]
  rw [hrest] at hsl ⊢
  split
  · exact ⟨hsl, _, _, rfl⟩
  · exact ⟨hsl, _, _, rfl⟩

theorem maintAccept_enters {core tag op : Nat} (h1 : 1 ≤ op) (h3 : op ≤ 3) (hfree : coreFrozen s core = false)
    (hout : (sliceOf s n).outside = []) (hroom : amqRoom s n tag (sliceOf s n).amq = true) :
    ∃ t, maintAccept n core line tag op s = t ∧
      (sliceOf t n).amq = (sliceOf s n).amq ++ [⟨line, core, op, tag⟩] ∧ (sliceOf t n).lines = (sliceOf s n).lines ∧
      samePart .cores s t ∧ samePart .mem s t ∧ (ownLine s line = true → t.outs = s.outs) ∧
      (ownLine s line = false → ∃ o, t.outs = s.outs ++ [o] ∧ o.kind = 7 ∧ o.dev = outDev s line ∧ o.pa = line * 64 ∧
        o.tag = tag ∧ o.op = op ∧ o.origin = .maint n core) := by
  have hop : isReq ⟨line, core, op, tag⟩ = false := by
    have h0 : op ≠ 0 := by omega
    have h4 : op ≠ 4 := by omega
    simp [isReq, h0, h4]
  obtain ⟨hsl, regs, slices, hrest⟩ := enterAmq_room (e := ⟨line, core, op, tag⟩)
    (fun h => by rw [hop] at h; cases h) hout hroom (filling s n line || opWaits s n line)
  refine ⟨_, maintAccept_own h1 h3 hfree, ?_⟩
  rw [hrest] at hsl ⊢
  by_cases hown : ownLine s line = true
  · rw [if_pos hown]
    exact ⟨by rw [hsl], by rw [hsl], rfl, rfl, fun _ => rfl, fun h => by rw [hown] at h; cases h⟩
  · rw [if_neg hown]
    generalize ho : ({ xid := 0, dev := outDev s line, kind := 7, pa := line * 64, tag := tag, op := op, origin := .maint n core } : Out) = o
    obtain ⟨y, hy⟩ : ∃ y, y = ({ s with regs := regs, slices := slices } : State) := ⟨_, rfl⟩
    have hk := sendOut_keeps o y (keeps_refl _ y) (Nat.or_self _)
    have hsame : sliceOf (sendOut o y) n = sliceOf y n := by rw [sliceOf, hk.part .slices rfl, sliceOf]
    have houts := outs_sendOut o y
    have hcores : (sendOut o y).cores = y.cores := hk.part .cores rfl
    have hmem : (sendOut o y).mem = y.mem := hk.part .mem rfl
    rw [← hy] at hsl ⊢
    refine ⟨by rw [hsame, hsl], by rw [hsame, hsl], hcores.trans (by rw [hy]), hmem.trans (by rw [hy]), fun h => absurd h hown,
      fun _ => ⟨_, houts.trans (by rw [hy]), ?_⟩⟩
    rw [← ho]
    exact ⟨rfl, rfl, rfl, rfl, rfl, rfl⟩

end Sys2Proof.Machine
end

section
/-! A line that an L2 evicts (R111). -/
set_option Elab.async false
namespace Sys2Proof.Machine

variable {s : State} {core line : Nat} {l : CLine}

/-- A core gives up a line, and leaves its directory entry. -/
def evictedFrom (core line tag : Nat) (s : State) : State := leaveDir core line tag (dropL2 core line s)

theorem slices_dropL2 (core line : Nat) (s : State) : (dropL2 core line s).slices = s.slices :=
  (dropL2_keeps core line s (keeps_refl _ s) (Nat.or_self _)).part .slices rfl

theorem leaveDir_dir (tag : Nat) (y : State) : ∀ e, dirOf (leaveDir core line tag y) (homeSlice y tag line) line = some e →
    core ∉ e.cores := by
  intro e he
  unfold leaveDir at he
  generalize homeSlice y tag line = n at he
  split at he
  · next d hd =>
    rw [dirOf, putDir, setSlice_sliceOf_same] at he
    dsimp only at he
    split at he
    · rw [tfind_tdel_same] at he
      cases he
    · rw [tfind_tput_same] at he
      cases he
      exact fun hmem => by simpa using (List.mem_filter.1 hmem).2
  · next hd =>
    rw [hd] at he
    cases he

theorem arrOf_leaveDir (tag m k : Nat) (y : State) : arrOf (leaveDir core line tag y) m k = arrOf y m k := by
  unfold leaveDir
  split
  · by_cases hm : m = homeSlice y tag line
    · rw [hm, arrOf, putDir, setSlice_sliceOf_same, arrOf]
    · rw [arrOf, putDir, setSlice_sliceOf_ne _ _ _ _ hm, arrOf]
  · rfl

theorem dropL2_rest (core line : Nat) (s : State) : ∃ harts cores, dropL2 core line s = { s with harts := harts, cores := cores } := by
  rw [dropL2_eq]
  unfold endResv
  split
  · split
    · exact ⟨_, _, rfl⟩
    · exact ⟨s.harts, _, rfl⟩
  · exact ⟨s.harts, _, rfl⟩

theorem homeSlice_dropL2 (tag : Nat) : homeSlice (dropL2 core line s) tag line = homeSlice s tag line := by
  obtain ⟨harts, cores, h⟩ := dropL2_rest core line s
  rw [h]
  rfl

theorem leaveDir_rest (tag : Nat) (y : State) : ∃ slices, leaveDir core line tag y = { y with slices := slices } := by
  unfold leaveDir
  split
  · exact ⟨_, rfl⟩
  · exact ⟨y.slices, rfl⟩

/-- What an evicted line leaves: it is gone from its core and from its directory entry, and the slices' lines stand. -/
theorem evictedFrom_spec (tag : Nat) : l2Of (evictedFrom core line tag s) core line = none ∧
    (∀ e, dirOf (evictedFrom core line tag s) (homeSlice s tag line) line = some e → core ∉ e.cores) ∧
    (∀ m k, arrOf (evictedFrom core line tag s) m k = arrOf s m k) ∧ samePart .mem s (evictedFrom core line tag s) ∧
    samePart .outs s (evictedFrom core line tag s) := by
  obtain ⟨slices, hleave⟩ := leaveDir_rest (core := core) (line := line) tag (dropL2 core line s)
  obtain ⟨harts, cores, hdrop⟩ := dropL2_rest core line s
  refine ⟨(CacheMoved.leaveDir core line tag _).l2Of_none (l2Of_dropL2 core line s), ?_, fun m k => ?_, ?_⟩
  · rw [← homeSlice_dropL2 tag]
    exact leaveDir_dir tag _
  · exact (arrOf_leaveDir tag m k _).trans (arrOf_of_slices (slices_dropL2 core line s) m k)
  · rw [evictedFrom, hleave, hdrop]
    exact ⟨rfl, rfl⟩

theorem l2Evict_eq (hl : l2Of s core line = some l) (hfree : coreFrozen s core = false) : l2Evict core line s =
    if l.st = .m then presentPair (core / 2)
      (fun _ => keepDirty (homeSlice s l.tag line) line l.tag (some (l.data, l.poison)) (evictedFrom core line l.tag s)) s
    else evictedFrom core line l.tag s := by
  unfold l2Evict
  rw [hfree, if_neg Bool.false_ne_true, hl]
  unfold evictedFrom leaveDir
  rw [homeSlice_dropL2] <;> rfl

/-- Dirty data of a line that the slice holds takes the held line's way. -/
theorem placeLine_held {n : Nat} {o x : SLine} {y : State} (h : arrOf y n line = some o) :
    ∃ r, arrOf (placeLine n line x y) n line = some r ∧ r.tag = x.tag ∧ r.way = o.way ∧ r.dirty = x.dirty ∧ r.data = x.data ∧
      r.poison = x.poison := by
  unfold placeLine
  rw [h]
  dsimp only
  refine ⟨_, arrOf_putArr n line _ _, ?_⟩
  unfold armErrors
  dsimp only
  split
  · exact ⟨rfl, rfl, rfl, rfl, rfl⟩
  · exact ⟨rfl, rfl, rfl, rfl, rfl⟩

theorem l2Evict_clean (hl : l2Of s core line = some l) (hfree : coreFrozen s core = false)
    (hst : l.st ≠ .m ∨ invertArmed s (core / 2) = false) : ∃ t, l2Evict core line s = t ∧ l2Of t core line = none ∧
      (∀ e, dirOf t (homeSlice s l.tag line) line = some e → core ∉ e.cores) ∧
      (l.st ≠ .m → (∀ m k, arrOf t m k = arrOf s m k) ∧ samePart .mem s t ∧ samePart .outs s t) ∧
      (∀ o, l.st = .m → arrOf s (homeSlice s l.tag line) line = some o →
        ∃ r, arrOf t (homeSlice s l.tag line) line = some r ∧ r.tag = l.tag ∧ r.way = o.way ∧ r.dirty = true ∧
          r.data = l.data ∧ r.poison = l.poison) := by
  obtain ⟨hgone, hdir, harr, hmem, houts⟩ := evictedFrom_spec (s := s) (core := core) (line := line) l.tag
  refine ⟨_, l2Evict_eq hl hfree, ?_⟩
  by_cases hm : l.st = .m
  · rw [if_pos hm, presentPair_unarmed _ (hst.resolve_left (fun h => h hm)), keepDirty]
    have hq := QueueKept.placeLine (homeSlice s l.tag line) line
      { tag := l.tag, way := 0, dirty := true, locked := false, poison := l.poison, data := l.data } (evictedFrom core line l.tag s)
    refine ⟨(CacheMoved.placeLine _ _ _ _).l2Of_none hgone, fun e he => hdir e ?_, fun h => absurd hm h, fun o _ ho => ?_⟩
    · rw [dirOf, hq.dir] at he
      exact he
    · exact placeLine_held ((harr _ _).trans ho)
  · rw [if_neg hm]
    exact ⟨hgone, hdir, fun _ => ⟨harr, hmem, houts⟩, fun _ h => absurd h hm⟩

theorem l2Evict_presents (hl : l2Of s core line = some l) (hfree : coreFrozen s core = false) (hm : l.st = .m)
    (harmed : invertArmed s (core / 2) = true) (hp : core / 2 < 136) : ∃ t, l2Evict core line s = t ∧
      rd t (pairStatusState (core / 2)) = 5 ∧ rd t (pairCmpStatusBus (core / 2)) = 1 ∧ sameL2 s t ∧ samePart .slices s t ∧
      samePart .mem s t := by
  refine ⟨_, l2Evict_eq hl hfree, ?_⟩
  rw [if_pos hm]
  obtain ⟨hst, hbus, -, -, hl2, hsl, hmem, -⟩ := presentPair_comparedBad
    (fun _ => keepDirty (homeSlice s l.tag line) line l.tag (some (l.data, l.poison)) (evictedFrom core line l.tag s)) hp harmed
  exact ⟨hst, hbus, hl2, hsl, hmem⟩

theorem l2Evict_none (h : l2Of s core line = none ∨ coreFrozen s core = true) : l2Evict core line s = s := by
  unfold l2Evict
  have hnone : (if coreFrozen s core = true then none else l2Of s core line) = none := by
    rcases h with h | h
    · rw [h, ite_self]
    · rw [h, if_pos rfl]
  rw [hnone]

end Sys2Proof.Machine
end

section
/-! The removal of a slice, the preload of a lock and armed injections (R123, R128, R436). -/
set_option Elab.async false
namespace Sys2Proof.Machine

variable {s : State} {n : Nat}

/-- The counts of an array error that a walk meets. -/
def drainMet (n row way : Nat) (e : Nat × SLine) (s : State) : State :=
  if row = 0 then s else rowLast n row e.1 way e.2.tag (rowErrors n row s)

/-- Its record. -/
def drainTold (n row way sl : Nat) (e : Nat × SLine) (y : State) : State :=
  match row with
  | 1 => recCorrected sl 2 n 0x0201 0 y
  | 3 => recVisible sl 2 n 0x0203 [e.2.tag] (e.1 * 64) [way] n [way] y
  | 5 => recVisible sl 2 n 0x0205 [e.2.tag] 0 [way] n [way] y
  | _ => y

theorem drainLine_eq (n : Nat) (victim : Bool) (s : State) (e : Nat × SLine) : ∃ row way y,
    y = drainTold n row way (nextSlice s) e (drainMet n row way e s) ∧ drainLine n victim s e =
      if e.2.dirty = false then s
      else if e.2.tagErr then y else writeBack .removal e.2.tag e.1 e.2.data (e.2.poison || e.2.err == 2) y :=
  ⟨rowOf (errRow (some e.2)) true, if victim then 0x1F else e.2.way, _, rfl, rfl⟩

theorem LowKept.drainLine (n : Nat) (victim : Bool) (s : State) (e : Nat × SLine) : LowKept s (drainLine n victim s e) := by
  obtain ⟨row, way, y, hy, heq⟩ := drainLine_eq n victim s e
  have hmet : LowKept s (drainMet n row way e s) := .ite (.refl s) (.trans (.rowErrors n row s) (.rowLast _ _ _ _ _ _))
  have htold : LowKept s y := by
    rw [hy]
    unfold drainTold
    split
    · exact hmet.trans (.recCorrected _ _ _ _ _ _)
    · exact hmet.trans (.recVisible _ _ _ _ _ _ _ _ _ _)
    · exact hmet.trans (.recVisible _ _ _ _ _ _ _ _ _ _)
    · exact hmet
  rw [heq]
  exact .ite (.refl s) (.ite htold (htold.trans (.writeBack _ _ _ _ _ _)))

/-- Every line and victim of the slice has been written back. -/
def walkedOut (n : Nat) (s : State) : State :=
  (sliceOf s n).victims.foldl (drainLine n true) ((sliceOf s n).lines.foldl (drainLine n false) s)

theorem LowKept.walkedOut (n : Nat) (s : State) : LowKept s (walkedOut n s) :=
  .trans (.foldl (fun y e => .drainLine n false y e) _ s) (.foldl (fun y e => .drainLine n true y e) _ _)

theorem walkedOut_due (n : Nat) (s : State) : (walkedOut n s).due = s.due := by
  have h (v : Bool) (y : State) (e : Nat × SLine) : (drainLine n v y e).due = y.due :=
    (drainLine_keeps n v y e (keeps_refl _ y) (Nat.or_self _)).part .due rfl
  exact (foldl_fixes State.due (h true) _ _).trans (foldl_fixes State.due (h false) _ s)

/-- An emptied slice. -/
def emptied (n : Nat) (s : State) : State :=
  putSlice n { sliceOf (walkedOut n s) n with lines := [], victims := [], walkLines := (sliceOf s n).walked } (walkedOut n s)

theorem emptied_counts (h2 : rd s (llcStatusState n) = 2) : rd (emptied n s) (llcDrainLinesLeft n) = 0 ∧
    rd (emptied n s) (llcDrainVictimsLeft n) = 0 ∧ rd (emptied n s) (llcStatusState n) = 2 := by
  have hst : rd (walkedOut n s) (llcStatusState n) = 2 :=
    ((LowKept.walkedOut n s).rd_start (by simp only [fkey, llcStatusState]; omega)).trans h2
  have hkept : rd (emptied n s) (llcStatusState n) = 2 :=
    ((LowKept.putSlice n _ _).rd_start (by simp only [fkey, llcStatusState]; omega)).trans hst
  refine ⟨?_, ?_, hkept⟩
  all_goals
    unfold emptied putSlice
    dsimp only
    rw [if_pos hst]
  · exact rd_wr_same _ _ _
  · rw [rd_wr_ne _ _ _ _ (by simp only [fkey, llcDrainLinesLeft, llcDrainVictimsLeft]; omega), rd_wr_same]
    rfl

/-- The notice of a lock that loses its ways in slice n. -/
def lockLost (n : Nat) (a : State) (k : CLock) : State :=
  notify k.owner 0x0009 [(0x18, 1, k.id), (0x19, 1, n)] (wr (llcPartLockedWays n k.owner) 0 a)

/-- The locks, held or being loaded, that stand in slice n. -/
def locksHit (n : Nat) (y : State) : List CLock := (y.mesh.locks ++ y.mesh.preload.map (·.2)).filter fun k => k.slices.contains n

/-- A lock without slice n. -/
def lockWithout (n : Nat) (k : CLock) : CLock :=
  { k with slices := k.slices.filter (· != n), held := k.held.filter (fun e => e.1 != n) }

/-- The locks that are left. -/
def locksLeft (n : Nat) (y : State) : List CLock :=
  (y.mesh.locks.map fun k => { k with
    slices := k.slices.filter (· != n), held := k.held.filter (fun e => e.1 != n), lines := k.lines.filter fun l => homeSlice y k.owner l != n }).filter fun k =>
      !k.slices.isEmpty

/-- The locks have lost slice n, and their owners have been told. -/
def lockLosses (n : Nat) (y : State) : State :=
  (locksHit n y).foldl (lockLost n)
    { y with mesh := { y.mesh with locks := locksLeft n y, preload := y.mesh.preload.map fun e => (e.1, lockWithout n e.2) } }

theorem releaseLocks_eq (n : Nat) (y : State) : releaseLocks n y = wr (llcWaysLockedMask n) 0
    (wr (llcDrainLocksReleased n) (locksHit n y).length (setSlice n { sliceOf (lockLosses n y) n with parked := [], released := min 255 ((sliceOf (lockLosses n y) n).released + (locksHit n y).length) }
      (lockLosses n y))) := rfl

theorem locksLeft_spec : ∀ k ∈ locksLeft n s, n ∉ k.slices := fun k hk => by
  obtain ⟨j, -, rfl⟩ := List.mem_map.1 (List.mem_filter.1 hk).1
  exact fun h => by simpa using (List.mem_filter.1 h).2

theorem lockLosses_fixes {α : Type} (g : State → α) (hm : ∀ y m, g { y with mesh := m } = g y)
    (hl : ∀ y k, g (lockLost n y k) = g y) (y : State) : g (lockLosses n y) = g y :=
  (foldl_fixes g hl _ _).trans (hm y _)

theorem lockLosses_locks (y : State) : (lockLosses n y).mesh.locks = locksLeft n y :=
  foldl_fixes (f := lockLost n) (fun z : State => z.mesh.locks) (fun _ _ => rfl) (locksHit n y) _

theorem rd_releaseLocks {f : Fld} (hpart : ∀ t, fkey f ≠ fkey (llcPartLockedWays n t))
    (hmask : fkey f ≠ fkey (llcWaysLockedMask n)) (hdrain : fkey f ≠ fkey (llcDrainLocksReleased n)) (y : State) :
    rd (releaseLocks n y) f = rd y f := by
  rw [releaseLocks_eq, rd_wr_ne _ _ _ _ hmask, rd_wr_ne _ _ _ _ hdrain, rd_of_regs (setSlice_regs n _ _)]
  exact lockLosses_fixes (fun z => rd z f) (fun _ _ => rfl) (fun z k => rd_wr_ne _ _ _ _ (hpart k.owner)) y

theorem sliceOf_releaseLocks (y : State) : (sliceOf (releaseLocks n y) n).lines = (sliceOf y n).lines ∧
    (sliceOf (releaseLocks n y) n).victims = (sliceOf y n).victims ∧ (sliceOf (releaseLocks n y) n).parked = [] := by
  have hsl : sliceOf (lockLosses n y) n = sliceOf y n :=
    lockLosses_fixes (fun z => sliceOf z n) (fun _ _ => rfl) (fun _ _ => rfl) y
  rw [releaseLocks_eq, wr_sliceOf, wr_sliceOf, setSlice_sliceOf_same, hsl]
  exact ⟨rfl, rfl, rfl⟩

theorem due_releaseLocks (y : State) : (releaseLocks n y).due = y.due := by
  rw [releaseLocks_eq]
  exact lockLosses_fixes State.due (fun _ _ => rfl) (fun _ _ => rfl) y

theorem locks_releaseLocks (y : State) : (releaseLocks n y).mesh.locks = locksLeft n y := by
  rw [releaseLocks_eq]
  exact lockLosses_locks y

/-- What the end of a walk leaves of the slice. -/
theorem walkEnded (h2 : rd s (llcStatusState n) = 2) : (sliceOf (releaseLocks n (emptied n s)) n).lines = [] ∧
    (sliceOf (releaseLocks n (emptied n s)) n).victims = [] ∧ (sliceOf (releaseLocks n (emptied n s)) n).parked = [] ∧
    rd (releaseLocks n (emptied n s)) (llcDrainLinesLeft n) = 0 ∧ rd (releaseLocks n (emptied n s)) (llcDrainVictimsLeft n) = 0 ∧
    rd (releaseLocks n (emptied n s)) (llcWaysLockedMask n) = 0 ∧ rd (releaseLocks n (emptied n s)) (llcStatusState n) = 2 ∧
    (∀ k ∈ (releaseLocks n (emptied n s)).mesh.locks, n ∉ k.slices) ∧ (releaseLocks n (emptied n s)).due = s.due := by
  obtain ⟨hlines, hvictims, hparked⟩ := sliceOf_releaseLocks (n := n) (emptied n s)
  obtain ⟨hl, hv, hst⟩ := emptied_counts h2
  have hsl : sliceOf (emptied n s) n = _ := slices_putSlice n _ _
  have hdue : (emptied n s).due = s.due :=
    ((putSlice_keeps n _ (walkedOut n s) (keeps_refl _ _) (Nat.or_self _)).part .due rfl).trans (walkedOut_due n s)
  refine ⟨hlines.trans (by rw [hsl]), hvictims.trans (by rw [hsl]), hparked, ?_, ?_, ?_, ?_, ?_, (due_releaseLocks _).trans hdue⟩
  · rw [rd_releaseLocks _ _ _, hl]
    all_goals
      intros
      simp only [fkey, llcDrainLinesLeft, llcPartLockedWays, llcWaysLockedMask, llcDrainLocksReleased]
      omega
  · rw [rd_releaseLocks _ _ _, hv]
    all_goals
      intros
      simp only [fkey, llcDrainVictimsLeft, llcPartLockedWays, llcWaysLockedMask, llcDrainLocksReleased]
      omega
  · rw [releaseLocks_eq, rd_wr_same]
    rfl
  · rw [rd_releaseLocks _ _ _, hst]
    all_goals
      intros
      simp only [fkey, llcStatusState, llcPartLockedWays, llcWaysLockedMask, llcDrainLocksReleased]
      omega
  · rw [locks_releaseLocks]
    exact locksLeft_spec

/-- The tenancies with ways in the slice are told of its removal. -/
def toldOfRemoval (n : Nat) (s y : State) : State :=
  noticeParts n ((partTenants s n).filter (isSealed s)) ((y.tenants.map (·.1)).foldl (fun a t => judgeDegraded t a) y)

theorem drainWalk_eq (h2 : rd s (llcStatusState n) = 2) : drainWalk n s =
    if (sliceOf s n).lastOne then toldOfRemoval n s (releaseLocks n (emptied n s))
    else addDue (beat s + 1) 2 (.handSlice n) (releaseLocks n (emptied n s)) := if_pos h2

/-- Only tenancies and mailboxes differ. -/
def MailKept (s t : State) : Prop := ∃ tenants mbx, t = { s with tenants := tenants, mbx := mbx }

theorem MailKept.foldl {α : Type} {f : State → α → State} (hf : ∀ y a, MailKept y (f y a)) (l : List α) (s : State) :
    MailKept s (l.foldl f s) :=
  List.foldlRecOn (motive := MailKept s) l f ⟨s.tenants, s.mbx, rfl⟩ fun y hy a _ => by
    obtain ⟨tenants, mbx, rfl⟩ := hy
    obtain ⟨tenants', mbx', h⟩ := hf { s with tenants := tenants, mbx := mbx } a
    exact ⟨tenants', mbx', h⟩

theorem toldOfRemoval_rest (s y : State) : MailKept y (toldOfRemoval n s y) := by
  have hjudged : MailKept y ((y.tenants.map (·.1)).foldl (fun a t => judgeDegraded t a) y) := .foldl (fun z t => by
    unfold judgeDegraded
    dsimp only
    split
    · exact ⟨_, z.mbx, rfl⟩
    · exact ⟨z.tenants, z.mbx, rfl⟩) _ y
  obtain ⟨tenants, mbx, h⟩ := hjudged
  rw [toldOfRemoval, h]
  obtain ⟨tenants', mbx', h'⟩ : MailKept { y with tenants := tenants, mbx := mbx }
    (noticeParts n ((partTenants s n).filter (isSealed s)) { y with tenants := tenants, mbx := mbx }) :=
    .foldl (fun z t => ⟨_, _, rfl⟩) _ _
  exact ⟨tenants', mbx', h'⟩

theorem drainWalk_spec (h2 : rd s (llcStatusState n) = 2) : ∃ t, drainWalk n s = t ∧ (sliceOf t n).lines = [] ∧
    (sliceOf t n).victims = [] ∧ (sliceOf t n).parked = [] ∧ rd t (llcDrainLinesLeft n) = 0 ∧
    rd t (llcDrainVictimsLeft n) = 0 ∧ rd t (llcWaysLockedMask n) = 0 ∧ rd t (llcStatusState n) = 2 ∧
    (∀ k ∈ t.mesh.locks, n ∉ k.slices) ∧
    ((sliceOf s n).lastOne = false → t.due = s.due ++ [⟨beat s + 1, 2, .handSlice n⟩]) ∧
    ((sliceOf s n).lastOne = true → t.due = s.due) := by
  obtain ⟨hlines, hvictims, hparked, hl, hv, hmask, hst, hlocks, hdue⟩ := walkEnded h2
  refine ⟨_, drainWalk_eq h2, ?_⟩
  generalize releaseLocks n (emptied n s) = y at *
  by_cases hlast : (sliceOf s n).lastOne = true
  · rw [if_pos hlast]
    obtain ⟨tenants, mbx, hrest⟩ := toldOfRemoval_rest (n := n) s y
    rw [hrest]
    exact ⟨hlines, hvictims, hparked, hl, hv, hmask, hst, hlocks, fun h => (by rw [hlast] at h; cases h), fun _ => hdue⟩
  · rw [if_neg hlast]
    have hdue' : (addDue (beat s + 1) 2 (.handSlice n) y).due = s.due ++ [⟨beat s + 1, 2, .handSlice n⟩] := by rw [← hdue]; rfl
    exact ⟨hlines, hvictims, hparked, hl, hv, hmask, hst, hlocks, fun _ => hdue', fun h => absurd h hlast⟩

/-! ### The preload of a lock -/

variable {i j : Nat} {k : CLock}

/-- The lines of a lock that its preload is to bring into the reserved ways. -/
def preloadWanted (s : State) (k : CLock) : List Nat := (rangeLines k.base k.size).filter fun l => (preloadWay s k l).isSome

/-- The lock is held, with the lines that were placed, and its result is on its way. -/
def preloadEnded (i : Nat) (k : CLock) (placed : List Nat) (s y : State) : State :=
  addDue (beat s + 1) 9 (.stage i
    (chg (arg (mbxOf s i).copy 0 8) k.base + chg (arg (mbxOf s i).copy 8 8) k.size + chg (arg (mbxOf s i).copy 0x10 1) k.ways)
    (mkBytes [(0, 8, k.base), (8, 8, k.size), (0x10, 1, k.ways), (0x12, 1, k.id), (0x14, 4, placed.length),
      (0x18, 4, k.size / 64 - placed.length)]))
    { dropReads (.mailbox i) y with mesh := { y.mesh with
      preload := y.mesh.preload.filter fun e => e.1 != i, locks := y.mesh.locks ++ [{ k with lines := placed }] } }

section
variable (hfind : s.mesh.preload.find? (fun e => e.1 == i) = some (j, k))
include hfind

theorem preloadDone_held (h : preloadHeld s k ≠ []) :
    preloadDone i s = (preloadHeld s k).foldl (fun a l => ncOpen (.mailbox i) k.owner l false a) s := by
  unfold preloadDone
  rw [hfind]
  exact if_pos h

theorem preloadDone_asks (h : preloadHeld s k = []) {s0 : State} {ready : Bool}
    (hask : askLines (.mailbox i) k.owner (preloadWanted s k) s = (s0, ready)) : preloadDone i s = if ready = false then s0
      else preloadEnded i k ((rangeLines k.base k.size).foldl (preloadLine i k) (s0, [])).2 s
        ((rangeLines k.base k.size).foldl (preloadLine i k) (s0, [])).1 := by
  unfold preloadDone
  rw [hfind]
  dsimp only
  rw [if_neg (not_not_intro h), ← preloadWanted, hask]
  rfl

end

theorem preloadDone_none (h : s.mesh.preload.find? (fun e => e.1 == i) = none) : preloadDone i s = s := by
  unfold preloadDone
  rw [h]

/-- The preload places lines of its range only, and touches neither the mesh nor what is due. -/
theorem preloadLines_spec (L : List Nat) (a : State × List Nat) (ls : List Nat) (hls : ∀ l ∈ ls, l ∈ L) (ha : ∀ l ∈ a.2, l ∈ L) :
    (ls.foldl (preloadLine i k) a).1.mesh = a.1.mesh ∧ (ls.foldl (preloadLine i k) a).1.due = a.1.due ∧
      ∀ l ∈ (ls.foldl (preloadLine i k) a).2, l ∈ L := by
  refine List.foldlRecOn (motive := fun b : State × List Nat => b.1.mesh = a.1.mesh ∧ b.1.due = a.1.due ∧ ∀ l ∈ b.2, l ∈ L)
    ls _ ⟨rfl, rfl, ha⟩ fun b hb l hl => ?_
  obtain ⟨hmesh, hdue, hin⟩ := hb
  have hk := preloadLine_keeps i k b l (keeps_refl _ b.1) (Nat.or_self _)
  refine ⟨(hk.part .mesh rfl).trans hmesh, (hk.part .due rfl).trans hdue, ?_⟩
  have hcons : ∀ x ∈ l :: b.2, x ∈ L := fun x hx => by
    rcases List.mem_cons.1 hx with rfl | hx
    · exact hls x hl
    · exact hin x hx
  unfold preloadLine
  dsimp only
  split
  · split
    · exact hcons
    · exact hin
  · exact hin

theorem preloadDone_ends (hfind : s.mesh.preload.find? (fun e => e.1 == i) = some (j, k)) (h : preloadHeld s k = []) {s0 : State}
    (hask : askLines (.mailbox i) k.owner (preloadWanted s k) s = (s0, true)) : ∃ t placed, preloadDone i s = t ∧
      t.mesh.preload = s.mesh.preload.filter (fun e => e.1 != i) ∧ t.mesh.locks = s.mesh.locks ++ [{ k with lines := placed }] ∧
      (∀ l ∈ placed, l ∈ rangeLines k.base k.size) ∧
      t.due = s.due ++ [⟨beat s + 1, 9, .stage i
        (chg (arg (mbxOf s i).copy 0 8) k.base + chg (arg (mbxOf s i).copy 8 8) k.size + chg (arg (mbxOf s i).copy 0x10 1) k.ways)
        (mkBytes [(0, 8, k.base), (8, 8, k.size), (0x10, 1, k.ways), (0x12, 1, k.id), (0x14, 4, placed.length),
          (0x18, 4, k.size / 64 - placed.length)])⟩] := by
  have hkept := askLines_keeps (.mailbox i) k.owner (preloadWanted s k) s (keeps_refl _ s) (Nat.or_self _)
  rw [hask] at hkept
  obtain ⟨hmesh, hdue, hin⟩ := preloadLines_spec (i := i) (k := k) (rangeLines k.base k.size) (s0, []) _ (fun _ h => h)
    (fun _ h => absurd h List.not_mem_nil)
  refine ⟨_, ((rangeLines k.base k.size).foldl (preloadLine i k) (s0, [])).2, preloadDone_asks hfind h hask, ?_⟩
  rw [if_neg (by decide)]
  generalize (rangeLines k.base k.size).foldl (preloadLine i k) (s0, []) = a at hmesh hdue hin ⊢
  have hmesh' : a.1.mesh = s.mesh := hmesh.trans (hkept.part .mesh rfl)
  have hdue' : a.1.due = s.due := hdue.trans (hkept.part .due rfl)
  refine ⟨?_, ?_, hin, ?_⟩
  · rw [← hmesh']
    rfl
  · rw [← hmesh']
    rfl
  · rw [← hdue']
    rfl

/-! ### Armed injections -/

/-- A slice with an injection of a kind taken. -/
def injected (kind : Nat) (r : Slice) : Slice :=
  match kind with
  | 0 => { r with injCe := true }
  | 1 => { r with injUe := true }
  | _ => { r with injTag := true }

theorem llcInject_none {kind : Nat} (h : isArmed s 2 n kind = none) : llcInject n kind s = s := by
  unfold llcInject
  rw [h]

theorem llcInject_armed {kind : Nat} {a : Arm} (h : isArmed s 2 n kind = some a) : ∃ t, llcInject n kind s = t ∧
    sliceOf t n = injected kind (sliceOf s n) ∧ (∀ m, m ≠ n → sliceOf t m = sliceOf s m) ∧
    tget none t.armed (armKey 2 n) = some ⟨3, 0, a.beat⟩ ∧ samePart .regs s t := by
  have heq : llcInject n kind s =
      setSlice n (injected kind (sliceOf s n)) { s with armed := tset none s.armed (armKey 2 n) (some ⟨3, 0, a.beat⟩) } := by
    unfold llcInject
    rw [h]
    rfl
  refine ⟨_, heq, setSlice_sliceOf_same _ _ _, fun m hm => setSlice_sliceOf_ne _ _ _ _ hm, ?_, rfl⟩
  exact (congrArg (fun m => tget none m (armKey 2 n)) (setSlice_armed ..)).trans (tget_tset_same none s.armed (armKey 2 n) (some ⟨3, 0, a.beat⟩))

/-- Settles O27. -/
theorem sliceMaintenanceAndRemoval : Obligations.SliceMaintenanceAndRemoval := by
  refine ⟨fun s n core line tag op => ⟨?_, ?_, ?_, ?_, ?_, ?_, ?_⟩, fun s n hn => ⟨?_, ?_, ?_, ?_, ?_, ?_, ?_, ?_, ?_, ?_, ?_, ?_, ?_, ?_⟩⟩
  · intro h1 h3 hfree hout hroom
    obtain ⟨t, rfl, h⟩ := maintAccept_enters (line := line) h1 h3 hfree hout hroom
    exact ⟨_, rfl, h⟩
  · exact fun h => congrArg Host.Outcome.next (maintAccept_refused h)
  · intro e hfind hn hcore hfill hans hway hno hout
    refine ⟨fun hop => ?_, fun l hop hdir harr hrow hd hown => ?_, fun l hop hdir harr hrow hd hown => ?_,
      fun l hop hdir harr hrow hd hhome => ?_⟩
    · obtain ⟨t, rfl, h⟩ := maintComplete_drops hfind hfill hans hway hno hout hcore hop
      exact ⟨_, rfl, h⟩
    · obtain ⟨t, rfl, h⟩ := maintComplete_cleansFar hfind hfill hans hway hop hdir harr hrow hd hown
      exact ⟨_, rfl, h⟩
    · obtain ⟨t, rfl, h⟩ := maintComplete_cleansOwn hfind hfill hans hway hno hout hop hdir harr hrow hown
      exact ⟨_, rfl, h⟩
    · obtain ⟨t, rfl, h⟩ := maintComplete_clean hfind hfill hans hway hno hout hop hdir harr hrow hd hhome
      exact ⟨_, rfl, h⟩
  · exact fun h => congrArg (fun y => Host.Outcome.next (pumpLine line y)) (maintComplete_idle h)
  · intro l hl hfree hst
    obtain ⟨t, rfl, h⟩ := l2Evict_clean hl hfree hst
    exact ⟨_, rfl, h⟩
  · intro l hl hfree hm harmed hp
    obtain ⟨t, rfl, h⟩ := l2Evict_presents hl hfree hm harmed hp
    exact ⟨_, rfl, h⟩
  · exact fun h => congrArg Host.Outcome.next (l2Evict_none h)
  · intro h2
    obtain ⟨t, rfl, h⟩ := drainWalk_spec h2
    exact ⟨_, rfl, h⟩
  · exact fun h => congrArg Host.Outcome.next (if_neg h)
  · exact fun h => congrArg Host.Outcome.next (if_pos h)
  · exact fun h => congrArg Host.Outcome.next (if_neg h)
  · exact fun i j k hfind h => congrArg Host.Outcome.next (preloadDone_held hfind h)
  · exact fun i j k s0 hfind h hask => congrArg Host.Outcome.next (preloadDone_asks hfind h hask)
  · intro i j k s0 hfind h hask
    obtain ⟨t, placed, rfl, hend⟩ := preloadDone_ends hfind h hask
    exact ⟨_, placed, rfl, hend⟩
  · exact fun i h => congrArg Host.Outcome.next (preloadDone_none h)
  · exact fun h => congrArg Host.Outcome.next (llcInject_none h)
  · intro a h
    obtain ⟨t, rfl, hend⟩ := llcInject_armed h
    exact ⟨_, rfl, hend⟩
  · exact fun h => congrArg Host.Outcome.next (llcInject_none h)
  · intro a h
    obtain ⟨t, rfl, hend⟩ := llcInject_armed h
    exact ⟨_, rfl, hend⟩
  · exact fun h => congrArg Host.Outcome.next (llcInject_none h)
  · intro a h
    obtain ⟨t, rfl, hend⟩ := llcInject_armed h
    exact ⟨_, rfl, hend⟩

end Sys2Proof.Machine
end

section
/-! Requests to a slice and arriving fills (R113, R120, R122, R125). -/
set_option Elab.async false
namespace Sys2Proof.Machine

variable {s : State} {n line tag core : Nat} {excl : Bool}

/-! ### What the slice finds of a line that no core holds -/

/-- What slice n holds of a line, in its array or its victim cache, is h: under the request's tag and without an error; the directory
names no core. -/
structure Found (s : State) (n line tag : Nat) (h : Option SLine) : Prop where
  held : (arrOf s n line).or (vicOf s n line) = h
  dir : dirOf s n line = none
  tag : ∀ l, h = some l → l.tag = tag
  err : errRow h = 0

section
variable {h : Option SLine} (hf : Found s n line tag h)
include hf

theorem Found.sealedCopy : sealedCopy s n line tag = false := by
  rw [Machine.sealedCopy, hf.held, hf.dir]
  cases h with
  | none => rfl
  | some l => simp [hf.tag l rfl]

theorem Found.otherTag : otherTag s n line tag = false := by
  rw [Machine.otherTag, hf.held, hf.dir]
  cases h with
  | none => rfl
  | some l => simp [hf.tag l rfl]

theorem Found.takeOver : takeOver n line tag s = s := by
  have hsame : (h.filter fun l => l.tag != tag) = none := by
    cases h with
    | none => rfl
    | some l => simp [hf.tag l rfl]
  unfold Machine.takeOver
  rw [hf.otherTag, if_neg Bool.false_ne_true]
  dsimp only
  rw [hf.held, hsame, hf.dir]
  exact if_pos ⟨rfl, rfl⟩

theorem Found.readHeld : readHeld n line s = s := by
  unfold Machine.readHeld
  dsimp only
  rw [hf.held, hf.err]
  rfl

theorem Found.lookup (core : Nat) (excl : Bool) :
    lookup n line tag core excl 0 s = (recallVictim n line s, h.map fun l => (l.data, l.poison)) := by
  unfold Machine.lookup
  simp only [ne_eq, not_true_eq_false, if_false]
  rw [hf.takeOver, hf.readHeld, takeBack_of_dir hf.dir, hf.dir]
  simp only [ite_self]
  rw [heldData, hf.held]
  rfl

end

theorem serveRequest_hit {l : SLine} (hf : Found s n line tag (some l)) (hmay : excl = false ∨ ownLine s line = true) :
    serveRequest n core line tag excl 0 s = fillCore n line tag core excl l.data l.poison (recallVictim n line s) := by
  have hmust : (excl && !ownLine s line && !(sliceOf s n).owned.contains line) = false := by
    rcases hmay with h | h <;> simp [h]
  unfold serveRequest
  rw [hf.sealedCopy, if_neg Bool.false_ne_true, hf.lookup]
  dsimp only
  rw [hmust]
  rfl

theorem recallVictim_absent (h : vicOf s n line = none) : recallVictim n line s = s := by
  unfold recallVictim
  rw [h]
  cases arrOf s n line <;> rfl

theorem serveRequest_miss (hf : Found s n line tag none) : serveRequest n core line tag excl 0 s = sendMiss n line tag core excl s := by
  unfold serveRequest
  rw [hf.sealedCopy, if_neg Bool.false_ne_true, hf.lookup, recallVictim_absent (Option.or_eq_none_iff.1 hf.held).2]
  rfl

/-! ### The directory and the core -/

theorem dirOf_putDir {e : DirEnt} (h : e.cores ≠ []) (s : State) : dirOf (putDir n line e s) n line = some e := by
  rw [dirOf, putDir, setSlice_sliceOf_same]
  dsimp only
  rw [if_neg (by simpa using h)]
  exact tfind_tput_same _ _ _

theorem CacheMoved.dirRoom (n line : Nat) (s : State) : CacheMoved s (dirRoom n line s) := by
  unfold Machine.dirRoom
  dsimp only
  split
  · exact .refl s
  · split
    · exact .trans (.trans (.freeNext s) (.takeBack _ _ _ _)) (.keepDirty _ _ _ _ _)
    · exact .refl s

theorem CacheMoved.grant (n line tag core : Nat) (excl : Bool) (s : State) : CacheMoved s (grant n line tag core excl s) := by
  unfold Machine.grant
  dsimp only
  have hroom : CacheMoved s (if (dirOf s n line).isSome then s else Machine.dirRoom n line s) := .ite (.refl s) (.dirRoom n line s)
  generalize (if (dirOf s n line).isSome then s else Machine.dirRoom n line s) = y at hroom ⊢
  split
  · exact hroom.trans (.putDir _ _ _ _)
  · exact hroom.trans (.putDir _ _ _ _)

theorem queue_takeBack (n k : Nat) (s : State) : queueOfSlice (sliceOf (takeBack n k none s).1 n) = queueOfSlice (sliceOf s n) := by
  cases hd : dirOf s n k with
  | none => rw [takeBack_of_dir hd]
  | some d =>
    have hsl : (dropCores k d.cores s).slices = s.slices := foldl_fixes State.slices (fun y c => slices_dropL2 c k y) d.cores s
    rw [takeBack_all hd, putDir, setSlice_sliceOf_same, sliceOf, hsl, sliceOf]
    rfl

theorem QueueKept.keepDirty (n line tag : Nat) (d : Option (Nat × Bool)) (s : State) : QueueKept n s (keepDirty n line tag d s) := by
  unfold Machine.keepDirty
  split
  · exact .placeLine _ _ _ s
  · exact .refl n s

theorem queue_dirRoom (n line : Nat) (s : State) : queueOfSlice (sliceOf (dirRoom n line s) n) = queueOfSlice (sliceOf s n) := by
  unfold dirRoom
  dsimp only
  split
  · rfl
  · split
    · exact (QueueKept.keepDirty n _ _ _ _).queue.trans (queue_takeBack n _ _)
    · rfl

theorem queue_putDir (e : DirEnt) (s : State) : queueOfSlice (sliceOf (putDir n line e s) n) = queueOfSlice (sliceOf s n) := by
  rw [putDir, setSlice_sliceOf_same]
  rfl

theorem queue_grant (n line tag core : Nat) (excl : Bool) (s : State) :
    queueOfSlice (sliceOf (grant n line tag core excl s) n) = queueOfSlice (sliceOf s n) := by
  unfold grant
  dsimp only
  have hroom : queueOfSlice (sliceOf (if (dirOf s n line).isSome then s else dirRoom n line s) n) = queueOfSlice (sliceOf s n) := by
    split
    · rfl
    · exact queue_dirRoom n line s
  generalize (if (dirOf s n line).isSome then s else dirRoom n line s) = y at hroom ⊢
  split
  · exact (queue_putDir _ y).trans hroom
  · exact (queue_putDir _ y).trans hroom

/-- The directory names the core that a line reaches. -/
theorem dirOf_grant (n line tag core : Nat) (excl : Bool) (s : State) :
    ∃ cores, dirOf (grant n line tag core excl s) n line = some ⟨tag, excl, cores⟩ ∧ core ∈ cores := by
  unfold grant
  dsimp only
  generalize (if (dirOf s n line).isSome then s else dirRoom n line s) = y
  split
  · next e _ =>
    have hmem : core ∈ (if excl then [core] else if e.cores.contains core then e.cores else core :: e.cores) := by
      split_ifs with hx hc
      · exact List.mem_singleton.2 rfl
      · simpa using hc
      · exact List.mem_cons_self
    exact ⟨_, dirOf_putDir (List.ne_nil_of_mem hmem) y, hmem⟩
  · exact ⟨_, dirOf_putDir (List.cons_ne_nil _ _) y, List.mem_singleton.2 rfl⟩

theorem l2Of_putL2 (l : CLine) (s : State) : l2Of (putL2 core line l s) core line = some l := by
  rw [l2Of, putL2, setCore_coreOf_same]
  exact tfind_tput_same _ _ _

/-- A line reaches a core that is not frozen, and the directory names it. -/
theorem fillCore_spec (hcore : core < 272) (hfree : coreFrozen s core = false) (d : Nat) (p : Bool) :
    l2Of (fillCore n line tag core excl d p s) core line = some ⟨tag, if excl then .e else .s, p, d⟩ ∧
    (∃ cores, dirOf (fillCore n line tag core excl d p s) n line = some ⟨tag, excl, cores⟩ ∧ core ∈ cores) ∧
    LowKept s (fillCore n line tag core excl d p s) ∧
    queueOfSlice (sliceOf (fillCore n line tag core excl d p s) n) = queueOfSlice (sliceOf s n) := by
  have heq : fillCore n line tag core excl d p s =
      putL2 core line { tag := tag, st := if excl then .e else .s, poison := p, data := d } (grant n line tag core excl s) := by
    unfold fillCore
    rw [if_neg (by unfold noCore; omega), if_neg (by rw [hfree]; decide)]
  rw [heq]
  refine ⟨l2Of_putL2 _ _, dirOf_grant n line tag core excl s, (CacheMoved.grant n line tag core excl s).low.trans (.of_regs rfl), ?_⟩
  exact queue_grant n line tag core excl s

/-! ### A hit -/

/-- A line recalled from the victim cache, after it has been counted. -/
def recalled (n line : Nat) (l : SLine) (y : State) : State :=
  if rd y (llcStatusState n) = 1 then placeLine n line l (dropArr n line y) else y

theorem recallVictim_eq {l : SLine} (harr : arrOf s n line = none) (hvic : vicOf s n line = some l) :
    recallVictim n line s = recalled n line l (bump (llcVictimRecalls n) 1 s) := by
  unfold recallVictim
  rw [harr, hvic]
  rfl

theorem CacheMoved.recalled (n line : Nat) (l : SLine) (y : State) : CacheMoved y (recalled n line l y) :=
  .ite (.trans (.dropArr n line y) (.placeLine _ _ _ _)) (.refl y)

theorem recallVictim_held {l : SLine} (h : arrOf s n line = some l) : recallVictim n line s = s := by
  unfold recallVictim
  rw [h]

theorem coreFrozen_bump (n core : Nat) (s : State) : coreFrozen (bump (llcVictimRecalls n) 1 s) core = coreFrozen s core := by
  rw [coreFrozen, coreFrozen, inSparing, inSparing, rd_bump_ne _ _ _ _ (by simp only [fkey, pairStatusState, llcVictimRecalls]; omega)]

theorem recallVictim_spec {l : SLine} (hheld : (arrOf s n line).or (vicOf s n line) = some l) :
    coreFrozen (recallVictim n line s) core = coreFrozen s core ∧
    (arrOf s n line = none → counted (llcVictimRecalls n) 1 s (recallVictim n line s)) := by
  cases harr : arrOf s n line with
  | some o =>
    rw [recallVictim_held harr]
    exact ⟨rfl, fun h => by cases h⟩
  | none =>
    rw [harr, Option.none_or] at hheld
    rw [recallVictim_eq harr hheld]
    have hlow := (CacheMoved.recalled n line l (bump (llcVictimRecalls n) 1 s)).low
    refine ⟨(LowKept.coreFrozen hlow core).trans (coreFrozen_bump n core s), fun _ => ?_⟩
    rw [counted, hlow.recalls]
    exact rd_bump_same _ _ _

/-! ### Requests -/

theorem clearWay_of_clear {who : Option Nat} (h : wayClear s n line excl who = true) : clearWay n line excl who s = s := by
  simp only [wayClear, Bool.and_eq_true, List.isEmpty_iff, Bool.not_eq_true'] at h
  obtain ⟨hway, hheld⟩ := h
  have htrips : snoopTrips n line excl s = s := by
    unfold snoopTrips
    unfold heldByFrozen at hheld
    cases hd : tfind (sliceOf s n).dir line with
    | none => rfl
    | some e =>
      rw [hd] at hheld
      dsimp only at hheld ⊢
      by_cases hx : (e.excl || excl) = true
      · rw [hx, Bool.true_and, List.any_eq_false] at hheld
        have hnone : (e.cores.filter fun c => outputTrips s c line) = [] :=
          List.filter_eq_nil_iff.2 fun c hc hout => hheld c hc (by simp [coreHolds, hout])
        rw [if_pos hx, hnone]
        rfl
      · exact if_neg hx
  unfold clearWay
  rw [hway, htrips]
  rfl

section
variable (hn : n = homeSlice s tag line)
include hn

theorem sliceRequest_refused (hfree : coreFrozen s core = false) (hmay : mayReach s tag line = false) (err : Nat) :
    sliceRequest core line tag excl err s = refuseLine (line * 64) tag s := by
  unfold sliceRequest
  rw [hfree, if_neg Bool.false_ne_true, if_pos hmay]

theorem sliceRequest_waits (hfree : coreFrozen s core = false) (hmay : mayReach s tag line = true)
    (hbusy : opWaits s n line = true ∨ filling s n line = true) (hway : wayClear s n line (excl || otherTag s n line tag) none = true)
    (err : Nat) : sliceRequest core line tag excl err s =
      enterAmq n ⟨line, core, if excl then 4 else 0, tag⟩ (opWaits s n line || filling s n line) s := by
  unfold sliceRequest
  dsimp only
  rw [hfree, if_neg Bool.false_ne_true, hmay, if_neg (by decide), ← hn, if_pos (hbusy.elim .inl fun h => .inr (.inl h)),
    clearWay_of_clear hway]

theorem sliceRequest_served (hfree : coreFrozen s core = false) (hmay : mayReach s tag line = true)
    (hop : opWaits s n line = false) (hfill : filling s n line = false)
    (hway : wayClear s n line (excl || otherTag s n line tag) none = true) (err : Nat) :
    sliceRequest core line tag excl err s = serveRequest n core line tag excl err s := by
  unfold sliceRequest
  dsimp only
  rw [hfree, if_neg Bool.false_ne_true, hmay, if_neg (by decide), ← hn, hop, hfill, hway, if_neg (by decide)]

end

/-- A miss without a buffer waits in the queue. -/
theorem sendMiss_waits (hroom : missRoom s n tag = false) : sendMiss n line tag core excl s =
    enterAmq n ⟨line, core, if excl then 4 else 0, tag⟩ false s := if_pos hroom

/-- A miss has taken a buffer. -/
def missTaken (n line tag core : Nat) (excl : Bool) (s : State) : State :=
  setSlice n { sliceOf s n with fills := (sliceOf s n).fills ++ [⟨line, core, tag, excl⟩], owned := if excl then (sliceOf s n).owned else (sliceOf s n).owned.filter (· != line) } s

theorem sendMiss_own (hroom : missRoom s n tag = true) (hown : ownDram s line = true) : samePart .cores s (sendMiss n line tag core excl s) ∧
    (sliceOf (sendMiss n line tag core excl s) n).fills = (sliceOf s n).fills ++ [⟨line, core, tag, excl⟩] ∧
    samePart .outs s (sendMiss n line tag core excl s) := by
  have hfills : (sliceOf (missTaken n line tag core excl s) n).fills = (sliceOf s n).fills ++ [⟨line, core, tag, excl⟩] := by
    rw [missTaken, setSlice_sliceOf_same]
  have heq : sendMiss n line tag core excl s = missTaken n line tag core excl s ∨ ∃ c a,
      sendMiss n line tag core excl s = dramRequest c a (missTaken n line tag core excl s) := by
    unfold sendMiss
    dsimp only
    rw [hroom, if_neg (by decide), hown, if_pos rfl]
    cases coord s (line % 2 ^ 40 * 64) with
    | none => exact .inl rfl
    | some k => exact .inr ⟨_, _, rfl⟩
  rcases heq with heq | ⟨c, a, heq⟩
  · rw [heq]
    exact ⟨rfl, hfills, rfl⟩
  · have hk := dramRequest_keeps c a (missTaken n line tag core excl s) (keeps_refl _ _) (Nat.or_self _)
    rw [heq]
    refine ⟨(hk.part .cores rfl).trans rfl, ?_, (hk.part .outs rfl).trans rfl⟩
    rw [sliceOf, hk.part .slices rfl]
    exact hfills

theorem sendMiss_far (hroom : missRoom s n tag = true) (hown : ownDram s line = false) : samePart .cores s (sendMiss n line tag core excl s) ∧
    (sliceOf (sendMiss n line tag core excl s) n).fills = (sliceOf s n).fills ++ [⟨line, core, tag, excl⟩] ∧
    ∃ o, (sendMiss n line tag core excl s).outs = s.outs ++ [o] ∧ o.xid = s.nextXid ∧ o.dev = outDev s line ∧
      o.kind = (if excl then 2 else 1) ∧ o.pa = line * 64 ∧ o.tag = tag ∧ o.origin = .slice n core excl := by
  have hfills : (sliceOf (missTaken n line tag core excl s) n).fills = (sliceOf s n).fills ++ [⟨line, core, tag, excl⟩] := by
    rw [missTaken, setSlice_sliceOf_same]
  obtain ⟨o, ho⟩ : ∃ o : Out, o = { xid := 0, dev := outDev s line, kind := if excl then 2 else 1, pa := line * 64, tag := tag, origin := .slice n core excl } :=
    ⟨_, rfl⟩
  have heq : sendMiss n line tag core excl s = sendOut o (missTaken n line tag core excl s) := by
    unfold sendMiss
    dsimp only
    rw [hroom, if_neg (by decide), hown, if_neg (by decide), ho]
    rfl
  have hk := sendOut_keeps o (missTaken n line tag core excl s) (keeps_refl _ _) (Nat.or_self _)
  rw [heq]
  refine ⟨(hk.part .cores rfl).trans rfl, ?_, _, outs_sendOut o _, ?_⟩
  · rw [sliceOf, hk.part .slices rfl]
    exact hfills
  · rw [ho]
    exact ⟨rfl, rfl, rfl, rfl, rfl, rfl⟩

/-- A request for which the queue has room waits in it. -/
theorem enterAmq_waits {e : AmqEnt} (hnew : e ∉ (sliceOf s n).amq) (hout : (sliceOf s n).outside = [])
    (hroom : amqRoom s n e.tag (sliceOf s n).amq = true) (waits : Bool) :
    (sliceOf (enterAmq n e waits s) n).amq = (sliceOf s n).amq ++ [e] ∧
    (sliceOf (enterAmq n e waits s) n).lines = (sliceOf s n).lines ∧ (sliceOf (enterAmq n e waits s) n).fills = (sliceOf s n).fills ∧
    samePart .cores s (enterAmq n e waits s) ∧ samePart .mem s (enterAmq n e waits s) ∧ samePart .outs s (enterAmq n e waits s) := by
  obtain ⟨hsl, regs, slices, hrest⟩ := enterAmq_room (fun _ => hnew) hout hroom waits
  rw [hsl, hrest]
  exact ⟨rfl, rfl, rfl, rfl, rfl, rfl⟩

end Sys2Proof.Machine
end

section
/-! Data that arrives for a slice (R114, R206). -/
set_option Elab.async false
namespace Sys2Proof.Machine

variable {s : State} {n line : Nat} {f : Fill}

/-- A fill leaves the slice's buffers; data of another device's line that comes in state O is the device's to write. -/
def fillTaken (n line : Nat) (f : Fill) (p : Bool) (s : State) : State :=
  setSlice n { sliceOf s n with fills := (sliceOf s n).fills.erase f, owned := (if f.excl ∧ p = false ∧ ownLine s line = false then line :: (sliceOf s n).owned else (sliceOf s n).owned).eraseDups } s

/-- A poisoned fill ends at its core: a prefetch hint is forgotten, and another reader's line is bad. -/
def badFill (line : Nat) (c : Core) : Core :=
  { c with badFills := if c.hints.contains line then c.badFills else (line :: c.badFills).eraseDups, hints := c.hints.filter (· != line) }

/-- Clean data of a fill. -/
def filledLine (f : Fill) (d : Nat) : SLine := { tag := f.tag, way := 0, dirty := false, locked := false, poison := false, data := d }

/-- What a fill leaves, before the requests that waited for it are served. -/
def filled (n line d : Nat) (p : Bool) (f : Fill) (s : State) : State :=
  if p then setCore f.core (badFill line (coreOf (fillTaken n line f p s) f.core)) (fillTaken n line f p s)
  else if mayReach (fillTaken n line f p s) f.tag line = false then fillTaken n line f p s
  else fillCore n line f.tag f.core f.excl d false (placeLine n line (filledLine f d) (fillTaken n line f p s))

/-- The data of a line has been taken from memory's answers. -/
def arrivedTaken (line : Nat) (s : State) : State :=
  setMem { s.mem with arrived := tset none s.mem.arrived (line % 2 ^ 40) none } s

section
variable (hfind : (sliceOf s n).fills.find? (fun f => f.line == line) = some f)
include hfind

theorem completeFill_eq (d : Nat) (p : Bool) : completeFill n line d p s = serveReady n 48 (filled n line d p f s) := by
  unfold completeFill
  dsimp only
  rw [hfind]
  rfl

theorem sliceFill_eq {tg d : Nat} {p : Bool} (harr : tget none s.mem.arrived (line % 2 ^ 40) = some (tg, d, p)) :
    sliceFill n line s = serveReady n 48 (filled n line d p f (arrivedTaken line s)) := by
  have hfill : filling s n line = true := by
    rw [filling, List.any_eq_true]
    exact ⟨f, List.mem_of_find?_eq_some hfind, by simpa using List.find?_some hfind⟩
  unfold sliceFill
  rw [harr]
  dsimp only
  rw [if_pos hfill]
  exact completeFill_eq (s := arrivedTaken line s) hfind d p

end

theorem sliceFill_idle (h : filling s n line = false ∨ tget none s.mem.arrived (line % 2 ^ 40) = none) : sliceFill n line s = s := by
  unfold sliceFill
  split
  · next hx =>
    rcases h with h | h
    · rw [h, if_neg Bool.false_ne_true]
    · rw [hx] at h
      cases h
  · rfl

theorem sliceOf_fillTaken (p : Bool) : sliceOf (fillTaken n line f p s) n = { sliceOf s n with fills := (sliceOf s n).fills.erase f, owned := (if f.excl ∧ p = false ∧ ownLine s line = false then line :: (sliceOf s n).owned else (sliceOf s n).owned).eraseDups } :=
  setSlice_sliceOf_same n _ s

/-- With an empty queue no request is served after a fill. -/
theorem serveReady_filled {t : State} (h : queueOfSlice (sliceOf t n) = queueOfSlice (sliceOf (fillTaken n line f p s) n))
    (hempty : (sliceOf s n).amq = []) (k : Nat) : serveReady n k t = t := by
  refine serveReady_of_none k (nextReady_of_noReq fun x hx => ?_)
  rw [amq_of_queue h, sliceOf_fillTaken, hempty] at hx
  exact absurd hx List.not_mem_nil

theorem filled_of_may {d : Nat} (hmay : mayReach s f.tag line = true) : filled n line d false f s =
    fillCore n line f.tag f.core f.excl d false (placeLine n line (filledLine f d) (fillTaken n line f false s)) := by
  have hsame : mayReach (fillTaken n line f false s) f.tag line = mayReach s f.tag line := rfl
  unfold filled
  rw [if_neg Bool.false_ne_true, hsame, hmay, if_neg (by decide)]

theorem placed_low (d : Nat) : LowKept s (placeLine n line (filledLine f d) (fillTaken n line f false s)) :=
  ((CacheMoved.setSlice n _ s).trans (.placeLine n line (filledLine f d) _)).low

/-- A fill that its request may reach: the line stands in the slice and reaches the core. -/
theorem filled_reaches {d : Nat} (hcore : f.core < 272) (hfree : coreFrozen s f.core = false) (hmay : mayReach s f.tag line = true) :
    l2Of (filled n line d false f s) f.core line = some ⟨f.tag, if f.excl then .e else .s, false, d⟩ ∧
    (∃ cores, dirOf (filled n line d false f s) n line = some ⟨f.tag, f.excl, cores⟩ ∧ f.core ∈ cores) ∧
    queueOfSlice (sliceOf (filled n line d false f s) n) = queueOfSlice (sliceOf (fillTaken n line f false s) n) := by
  have hq := (QueueKept.placeLine n line (filledLine f d) (fillTaken n line f false s)).queue
  obtain ⟨hl2, hdir, -, hkept⟩ := fillCore_spec (n := n) (line := line) (tag := f.tag) (excl := f.excl) hcore
    ((LowKept.coreFrozen (placed_low d) f.core).trans hfree) d false
  rw [filled_of_may hmay]
  exact ⟨hl2, hdir, hkept.trans hq⟩

/-- A line that takes a free way. -/
theorem placeLine_free {y : State} {l : SLine} {w : Nat} (harr : arrOf y n line = none) (hst : rd y (llcStatusState n) = 1)
    (hpark : tget 0 (sliceOf y n).parked line = 0) (hway : (eligible y n l.tag).find? (fun w => (occupant y n line w).isNone) = some w) :
    ∃ r, arrOf (placeLine n line l y) n line = some r ∧ r.tag = l.tag ∧ r.way = w ∧ r.data = l.data ∧ r.dirty = l.dirty ∧
      r.poison = l.poison := by
  have hkept : keptWay y n line l.tag = 0 := by rw [keptWay, hpark, ite_self]
  have hfree : occupant y n line w = none := by simpa using List.find?_some hway
  have heq : placeLine n line l y = intoWay n line w l y := by
    unfold placeLine
    rw [harr]
    dsimp only
    rw [hst, if_neg (by decide), hkept]
    dsimp only
    rw [hway]
  have hread : moveOccupant n line w (readOccupant n line w y) = y := by
    unfold readOccupant
    rw [hfree]
    unfold moveOccupant
    rw [hfree]
  rw [heq, intoWay_eq, hread]
  refine ⟨_, arrOf_putArr n line _ _, ?_⟩
  unfold armErrors
  dsimp only
  split
  · exact ⟨rfl, rfl, rfl, rfl, rfl⟩
  · exact ⟨rfl, rfl, rfl, rfl, rfl⟩

/-- In a slice whose directory is empty a line reaches a core without moving another. -/
theorem arrOf_fillCore {y : State} {tag core : Nat} {excl : Bool} (hdir : (sliceOf y n).dir = []) (hcore : core < 272)
    (hfree : coreFrozen y core = false) (d : Nat) (p : Bool) : arrOf (fillCore n line tag core excl d p y) n line = arrOf y n line := by
  have hroom : dirRoom n line y = y := by
    unfold dirRoom
    dsimp only
    rw [hdir, List.filter_nil]
    exact if_pos (by decide)
  have hput (e : DirEnt) : arrOf (putDir n line e y) n line = arrOf y n line := by
    rw [arrOf, putDir, setSlice_sliceOf_same, arrOf]
  have hgrant : arrOf (grant n line tag core excl y) n line = arrOf y n line := by
    unfold grant
    rw [hroom, ite_self]
    dsimp only
    split
    · exact hput _
    · exact hput _
  unfold fillCore
  rw [if_neg (by unfold noCore; omega), if_neg (by rw [hfree]; decide)]
  exact hgrant

theorem sliceFill_reaches {tg d : Nat} (harr : tget none s.mem.arrived (line % 2 ^ 40) = some (tg, d, false)) (hcore : f.core < 272)
    (hfree : coreFrozen s f.core = false) (hfind : (sliceOf s n).fills.find? (fun f => f.line == line) = some f)
    (hempty : (sliceOf s n).amq = []) (hmay : mayReach s f.tag line = true) : ∃ t, sliceFill n line s = t ∧
      (sliceOf t n).fills = (sliceOf s n).fills.erase f ∧ l2Of t f.core line = some ⟨f.tag, if f.excl then .e else .s, false, d⟩ ∧
      (∃ cores, dirOf t n line = some ⟨f.tag, f.excl, cores⟩ ∧ f.core ∈ cores) ∧
      (f.excl = true → ownLine s line = false → line ∈ (sliceOf t n).owned) ∧
      (∀ w, (sliceOf s n).dir = [] → arrOf s n line = none → rd s (llcStatusState n) = 1 → tget 0 (sliceOf s n).parked line = 0 →
        (eligible s n f.tag).find? (fun w => (occupant s n line w).isNone) = some w →
        ∃ l, arrOf t n line = some l ∧ l.tag = f.tag ∧ l.way = w ∧ l.data = d ∧ l.dirty = false ∧ l.poison = false) := by
  obtain ⟨hl2, hdir, hq⟩ := filled_reaches (s := arrivedTaken line s) (n := n) (line := line) (d := d) hcore hfree hmay
  have hserve := serveReady_filled (s := arrivedTaken line s) hq hempty 48
  refine ⟨_, (sliceFill_eq hfind harr).trans hserve, ?_, hl2, hdir, fun hx hown => ?_, fun w hd ha hst hpark hway => ?_⟩
  · rw [fills_of_queue hq, sliceOf_fillTaken]
    rfl
  · rw [owned_of_queue hq, sliceOf_fillTaken]
    dsimp only
    rw [if_pos ⟨hx, rfl, hown⟩]
    exact List.mem_eraseDups.2 List.mem_cons_self
  · obtain ⟨y, hy⟩ : ∃ y, y = fillTaken n line f false (arrivedTaken line s) := ⟨_, rfl⟩
    have hsl : sliceOf y n = _ := hy ▸ sliceOf_fillTaken (s := arrivedTaken line s) (n := n) (line := line) (f := f) false
    have helig : eligible y n f.tag = eligible s n f.tag := by rw [hy]; rfl
    have hocc (x : Nat) : occupant y n line x = occupant s n line x := by rw [occupant, hsl]; rfl
    have hst' : rd y (llcStatusState n) = 1 := by rw [hy]; exact hst
    obtain ⟨l, hl, htag, hw, hdata, hdirty, hpoison⟩ := placeLine_free (y := y) (l := filledLine f d) (by rw [arrOf, hsl]; exact ha) hst'
      (by rw [hsl]; exact hpark) (by simp only [hocc]; rw [show (filledLine f d).tag = f.tag from rfl, helig]; exact hway)
    refine ⟨l, ?_, htag, hw, hdata, hdirty, hpoison⟩
    have hplaced : (sliceOf (placeLine n line (filledLine f d) y) n).dir = [] := by
      rw [(QueueKept.placeLine n line (filledLine f d) y).dir, hsl]
      exact hd
    have hfrozen : coreFrozen (placeLine n line (filledLine f d) y) f.core = false := by
      rw [hy]
      exact (LowKept.coreFrozen (placed_low (s := arrivedTaken line s) d) f.core).trans hfree
    rw [filled_of_may (s := arrivedTaken line s) hmay, ← hy, arrOf_fillCore hplaced hcore hfrozen]
    exact hl

/-- A poisoned fill allocates nothing. -/
theorem sliceFill_poisoned {tg d : Nat} (harr : tget none s.mem.arrived (line % 2 ^ 40) = some (tg, d, true))
    (hfind : (sliceOf s n).fills.find? (fun f => f.line == line) = some f) (hempty : (sliceOf s n).amq = []) :
    ∃ t, sliceFill n line s = t ∧ (sliceOf t n).fills = (sliceOf s n).fills.erase f ∧ (sliceOf t n).lines = (sliceOf s n).lines ∧
      (line ∉ (coreOf s f.core).hints → line ∈ (coreOf t f.core).badFills) ∧
      (line ∈ (coreOf s f.core).hints → (coreOf t f.core).badFills = (coreOf s f.core).badFills ∧ line ∉ (coreOf t f.core).hints) ∧
      (∀ c, (coreOf t c).l2 = (coreOf s c).l2) ∧ samePart .regs s t := by
  obtain ⟨y, hy⟩ : ∃ y, y = fillTaken n line f true (arrivedTaken line s) := ⟨_, rfl⟩
  have hcores : y.cores = s.cores := by rw [hy]; rfl
  have hregs : y.regs = s.regs := by rw [hy]; rfl
  have hsl : sliceOf y n = _ := hy ▸ sliceOf_fillTaken (s := arrivedTaken line s) (n := n) (line := line) (f := f) true
  have hcore (c : Nat) : coreOf y c = coreOf s c := by rw [coreOf, hcores, coreOf]
  have heq : filled n line d true f (arrivedTaken line s) = setCore f.core (badFill line (coreOf y f.core)) y := by rw [hy]; rfl
  have hserve := serveReady_filled (s := arrivedTaken line s) (n := n) (line := line) (f := f) (p := true)
    (t := setCore f.core (badFill line (coreOf y f.core)) y) (by rw [← hy]; rfl) hempty 48
  refine ⟨setCore f.core (badFill line (coreOf y f.core)) y, (sliceFill_eq hfind harr).trans (by rw [heq]; exact hserve), ?_, ?_, fun hh => ?_, fun hh => ?_, fun c => ?_, hregs⟩
  · exact (congrArg Slice.fills hsl).trans rfl
  · exact (congrArg Slice.lines hsl).trans rfl
  · rw [setCore_coreOf_same, hcore, badFill]
    dsimp only
    rw [if_neg (by simpa using hh)]
    exact List.mem_eraseDups.2 List.mem_cons_self
  · rw [setCore_coreOf_same, hcore, badFill]
    dsimp only
    rw [if_pos (by simpa using hh)]
    exact ⟨rfl, fun hmem => by simpa using (List.mem_filter.1 hmem).2⟩
  · by_cases hc : c = f.core
    · rw [hc, setCore_coreOf_same, hcore]
      rfl
    · rw [setCore_coreOf_ne _ _ _ _ hc, hcore]

/-- A fill that its request may no longer reach goes nowhere. -/
theorem sliceFill_barred {tg d : Nat} (harr : tget none s.mem.arrived (line % 2 ^ 40) = some (tg, d, false))
    (hmay : mayReach s f.tag line = false) (hfind : (sliceOf s n).fills.find? (fun f => f.line == line) = some f)
    (hempty : (sliceOf s n).amq = []) : ∃ t, sliceFill n line s = t ∧ (sliceOf t n).fills = (sliceOf s n).fills.erase f ∧
      (sliceOf t n).lines = (sliceOf s n).lines ∧ samePart .cores s t ∧ samePart .regs s t := by
  have hsame : mayReach (fillTaken n line f false (arrivedTaken line s)) f.tag line = mayReach s f.tag line := rfl
  have heq : filled n line d false f (arrivedTaken line s) = fillTaken n line f false (arrivedTaken line s) := by
    unfold filled
    rw [if_neg Bool.false_ne_true, hsame, if_pos hmay]
  have hserve := serveReady_filled (s := arrivedTaken line s) (n := n) (line := line) (f := f) (p := false) rfl hempty 48
  have hsl := sliceOf_fillTaken (s := arrivedTaken line s) (n := n) (line := line) (f := f) false
  refine ⟨fillTaken n line f false (arrivedTaken line s), (sliceFill_eq hfind harr).trans (by rw [heq]; exact hserve), ?_, ?_, rfl, rfl⟩
  · exact (congrArg Slice.fills hsl).trans rfl
  · exact (congrArg Slice.lines hsl).trans rfl

/-! ### What waited for the line -/

theorem pumpTrks_none {g : Trk → Bool} (h : ∀ x ∈ s.fabric.trackers, x.resp = none → g x = false) : pumpTrks g s = s := by
  have hnone : (s.fabric.trackers.filter fun t => t.resp.isNone && g t) = [] := List.filter_eq_nil_iff.2 fun x hx => by
    cases hr : x.resp with
    | none => simp [h x hx hr]
    | some r => simp
  rw [pumpTrks, hnone]
  rfl

theorem pumpLine_idle (htrk : ∀ x ∈ s.fabric.trackers, x.resp ≠ none ∨ (lineOf x.req.pa ≠ line ∧
      Config.fabSet (lineOf x.req.pa) % 4096 ≠ Config.fabSet line % 4096)) (hready : ∀ m ∈ presentSlices s, nextReady s m = none) :
    pumpLine line s = s := by
  have hline : pumpTrks (fun t => lineOf t.req.pa == line) s = s :=
    pumpTrks_none fun x hx hr => by simpa using ((htrk x hx).resolve_left (fun h => h hr)).1
  have hset : pumpTrks (fun t => lineOf t.req.pa != line && Config.fabSet (lineOf t.req.pa) % 4096 == Config.fabSet line % 4096) s = s :=
    pumpTrks_none fun x hx hr => by simp [((htrk x hx).resolve_left (fun h => h hr)).2]
  unfold pumpLine
  dsimp only
  rw [hline, hset]
  exact List.foldlRecOn (motive := fun y => y = s) _ _ rfl fun y hy m hm => by rw [hy]; exact serveReady_of_none 48 (hready m hm)

/-- Settles O26. -/
theorem sliceRequestsAndFills : Obligations.SliceRequestsAndFills := by
  rintro s core pa tag n line excl rfl hn hlt hcore
  refine ⟨?_, ?_, ?_, ?_, ?_, ?_, ?_, ?_, ?_, ?_, ?_, ?_⟩
  · exact fun h => congrArg Host.Outcome.next (if_pos h)
  · intro hfree hmay
    have hk := refuseLine_keeps (lineOf pa * 64) tag s (keeps_refl _ s) (Nat.or_self _)
    exact ⟨_, congrArg Host.Outcome.next (sliceRequest_refused hn hfree hmay 0), hk.part .slices rfl, hk.part .cores rfl,
      hk.part .outs rfl, hk.part .mem rfl⟩
  · intro hfree hmay hbusy hway hout hroom hnew
    obtain ⟨hamq, hlines, -, hcores, hmem, houts⟩ := enterAmq_waits hnew hout hroom (opWaits s n (lineOf pa) || filling s n (lineOf pa))
    exact ⟨_, congrArg Host.Outcome.next (sliceRequest_waits hn hfree hmay hbusy hway 0), hamq, hlines, hcores, hmem, houts⟩
  · intro l hfree hmay hop hfill hway hdir hheld htag herr htagErr hown
    have hf : Found s n (lineOf pa) tag (some l) :=
      ⟨hheld, hdir, fun _ h => by cases h; exact htag, by simp [errRow, herr, htagErr]⟩
    obtain ⟨hfrozen, hcount⟩ := recallVictim_spec (core := core) hheld
    obtain ⟨hl2, hnamed, hlow, -⟩ := fillCore_spec (n := n) (line := lineOf pa) (tag := tag) (excl := excl) hcore
      (hfrozen.trans hfree) l.data l.poison
    refine ⟨_, congrArg Host.Outcome.next ((sliceRequest_served hn hfree hmay hop hfill hway 0).trans (serveRequest_hit hf hown)),
      hl2, hnamed, fun harr => ?_⟩
    have := hcount harr
    rw [counted] at this ⊢
    rw [hlow.recalls, this]
  · intro hfree hmay hop hfill hway hdir harr hvic hroom
    have hf : Found s n (lineOf pa) tag none := ⟨by rw [harr, hvic]; rfl, hdir, fun _ h => (by cases h), rfl⟩
    have heq := (sliceRequest_served (core := core) hn hfree hmay hop hfill hway 0).trans (serveRequest_miss hf)
    by_cases hown : ownDram s (lineOf pa) = true
    · obtain ⟨hcores, hfills, houts⟩ := sendMiss_own (core := core) (excl := excl) hroom hown
      exact ⟨_, congrArg Host.Outcome.next heq, hcores, hfills, fun _ => houts, fun h => by rw [hown] at h; cases h⟩
    · have hfar : ownDram s (lineOf pa) = false := by simpa using hown
      obtain ⟨hcores, hfills, hsent⟩ := sendMiss_far (core := core) (excl := excl) hroom hfar
      exact ⟨_, congrArg Host.Outcome.next heq, hcores, hfills, fun h => absurd h hown, fun _ => hsent⟩
  · rintro l hroom hfree hmay hop hfill hway hdir hheld hout hamqRoom rfl hnew
    have hf : Found s n (lineOf pa) tag none := ⟨hheld, hdir, fun _ h => (by cases h), rfl⟩
    obtain ⟨hamq, -, hfills, hcores, hmem, houts⟩ := enterAmq_waits hnew hout hamqRoom false
    exact ⟨_, congrArg Host.Outcome.next ((sliceRequest_served hn hfree hmay hop hfill hway 0).trans
      ((serveRequest_miss hf).trans (sendMiss_waits hroom))), hamq, hfills, hcores, hmem, houts⟩
  · intro m f tg d harr hm hfc hfree hfind hempty hmay
    obtain ⟨t, rfl, h⟩ := sliceFill_reaches harr hfc hfree hfind hempty hmay
    exact ⟨_, rfl, h⟩
  · intro m f tg d harr hfind hempty
    obtain ⟨t, rfl, h⟩ := sliceFill_poisoned harr hfind hempty
    exact ⟨_, rfl, h⟩
  · intro m f tg d harr hmay hfind hempty
    obtain ⟨t, rfl, h⟩ := sliceFill_barred harr hmay hfind hempty
    exact ⟨_, rfl, h⟩
  · exact fun m h => congrArg (fun y => Host.Outcome.next (pumpLine (lineOf pa) y)) (sliceFill_idle (.inl h))
  · exact fun m h => congrArg (fun y => Host.Outcome.next (pumpLine (lineOf pa) y)) (sliceFill_idle (.inr h))
  · exact fun htrk hready => pumpLine_idle htrk hready

end Sys2Proof.Machine
end

section
/-! The mailboxes do not steer what becomes of lines and of their reads: in a state that differs in its mailboxes only, the same lines
move and the same reads are awaited. -/
set_option Elab.async false
namespace Sys2Proof.Machine

/-- A state with other mailboxes. -/
def withMail (m : Table Mbx) (s : State) : State := { s with mbx := m }

/-- Two states that differ in their mailboxes only. -/
def MailApart (s t : State) : Prop := ∃ m, t = withMail m s

variable {s t y z : State}

theorem MailApart.refl (s : State) : MailApart s s := ⟨s.mbx, rfl⟩

/-- What does not read the mailboxes is the same in both. -/
theorem MailApart.read {α : Type} (h : MailApart s t) (g : State → α) (hg : ∀ m, g (withMail m s) = g s) : g t = g s := by
  obtain ⟨m, rfl⟩ := h
  exact hg m

theorem MailApart.ite {p : Prop} [Decidable p] {y' z' : State} (hy : MailApart y y') (hz : MailApart z z') :
    MailApart (if p then y else z) (if p then y' else z') := by
  split
  · exact hy
  · exact hz

theorem MailApart.foldl {α : Type} {f g : State → α → State} (hf : ∀ y z a, MailApart y z → MailApart (f y a) (g z a)) (l : List α)
    (h : MailApart s t) : MailApart (l.foldl f s) (l.foldl g t) := by
  induction l generalizing s t with
  | nil => exact h
  | cons a r ih => exact ih (hf s t a h)

theorem MailApart.wr (h : MailApart s t) (f : Fld) (v : Nat) : MailApart (wr f v s) (wr f v t) := by
  obtain ⟨m, rfl⟩ := h
  exact ⟨m, rfl⟩

theorem MailApart.bump (h : MailApart s t) (f : Fld) (n : Nat) : MailApart (bump f n s) (bump f n t) := by
  obtain ⟨m, rfl⟩ := h
  exact ⟨m, rfl⟩

/-! ### Records -/

theorem MailApart.clkIrq (h : MailApart s t) (code val c : Nat) : MailApart (clkIrq code val s c) (clkIrq code val t c) := by
  obtain ⟨m, rfl⟩ := h
  exact .ite ⟨m, rfl⟩ ⟨m, rfl⟩

theorem MailApart.recPlatform (h : MailApart s t) (sl cls kind unit cause ten addr : Nat) (detail : List Nat) :
    MailApart (recPlatform sl cls kind unit cause ten addr detail s) (recPlatform sl cls kind unit cause ten addr detail t) := by
  obtain ⟨m, rfl⟩ := h
  exact .foldl (fun _ _ c hc => hc.clkIrq 4 kind c) clerkCores ⟨m, rfl⟩

theorem MailApart.recTenant (h : MailApart s t) (sl kind unit cause x addr : Nat) (detail : List Nat) :
    MailApart (recTenant sl kind unit cause x addr detail s) (recTenant sl kind unit cause x addr detail t) := by
  obtain ⟨m, rfl⟩ := h
  exact ⟨_, rfl⟩

theorem MailApart.recVisible (h : MailApart s t) (sl kind unit cause : Nat) (ts : List Nat) (addr : Nat) (detail : List Nat) (uT : Nat)
    (dT : List Nat) :
    MailApart (recVisible sl kind unit cause ts addr detail uT dT s) (recVisible sl kind unit cause ts addr detail uT dT t) := by
  have htold := MailApart.foldl (fun _ _ x hx => hx.recTenant sl kind uT cause x addr dT) (ts.eraseDups.filter (· != 0)) h
  unfold Machine.recVisible
  dsimp only
  generalize ts.eraseDups = l at htold ⊢
  rcases l with _ | ⟨a, _ | ⟨b, r⟩⟩
  · exact htold.recPlatform _ _ _ _ _ _ _ _
  · exact htold.recPlatform _ _ _ _ _ _ _ _
  · exact htold.recPlatform _ _ _ _ _ _ _ _

theorem MailApart.recCorrected (h : MailApart s t) (sl kind unit cause addr : Nat) :
    MailApart (recCorrected sl kind unit cause addr s) (recCorrected sl kind unit cause addr t) := by
  obtain ⟨m, rfl⟩ := h
  unfold Machine.recCorrected
  exact .ite (.recPlatform ⟨m, rfl⟩ _ _ _ _ _ _ _ _) ⟨m, rfl⟩

/-! ### The memory's queues -/

theorem MailApart.judgePanic (h : MailApart s t) (c port : Nat) : MailApart (judgePanic c port s) (judgePanic c port t) := by
  obtain ⟨m, rfl⟩ := h
  exact .ite (.ite ⟨m, rfl⟩ ⟨m, rfl⟩) (.ite ⟨m, rfl⟩ ⟨m, rfl⟩)

theorem MailApart.judgeDrain (h : MailApart s t) (c sub : Nat) : MailApart (judgeDrain c sub s) (judgeDrain c sub t) := by
  obtain ⟨m, rfl⟩ := h
  exact .ite ⟨m, rfl⟩ ⟨m, rfl⟩

theorem MailApart.endDrain (h : MailApart s t) (c sub : Nat) : MailApart (endDrain c sub s) (endDrain c sub t) := by
  obtain ⟨m, rfl⟩ := h
  exact .ite ⟨m, rfl⟩ ⟨m, rfl⟩

theorem MailApart.putReq (h : MailApart s t) (c sub : Nat) (q : DReq) : MailApart (putReq c sub q s) (putReq c sub q t) := by
  obtain ⟨m, rfl⟩ := h
  exact .ite ⟨m, rfl⟩ (.ite (.judgePanic ⟨m, rfl⟩ c q.port) (.judgeDrain ⟨m, rfl⟩ c sub))

theorem MailApart.admitOutside (h : MailApart s t) (c sub : Nat) : MailApart (admitOutside c sub s) (admitOutside c sub t) := by
  have hout : outsideOf t c sub = outsideOf s c sub := h.read (outsideOf · c sub) fun _ => rfl
  unfold Machine.admitOutside
  rw [hout]
  refine .foldl (fun y z q hyz => ?_) _ h
  obtain ⟨m, rfl⟩ := hyz
  exact .ite (.putReq ⟨m, rfl⟩ c sub q) ⟨m, rfl⟩

/-- A request leaves the queue of its subchannel and its places outside it. -/
def leftQueue (c sub : Nat) (q : DReq) (s : State) : State :=
  setOutside c sub ((outsideOf (setQueue c sub ((queueOf s c sub).erase q) s) c sub).erase q) (setQueue c sub ((queueOf s c sub).erase q) s)

/-- It leaves its tenancy's queue, where it stood in one. -/
def leftSealed (b : Bool) (c sub : Nat) (q : DReq) (s : State) : State :=
  if b then setSealedQ c sub q.tag ((sealedOf s c sub q.tag).erase q) s else s

/-- It leaves its real-time port's queue. -/
def leftRt (c : Nat) (q : DReq) (s : State) : State :=
  if q.cls = 0 then judgePanic c q.port (setRt c q.port ((rtOf s c q.port).erase q) s) else s

theorem unqueue_eq (c sub : Nat) (q : DReq) (s : State) :
    unqueue c sub q s = leftRt c q (leftSealed (sealedPath s c sub q) c sub q (leftQueue c sub q s)) := rfl

theorem MailApart.leftQueue (h : MailApart s t) (c sub : Nat) (q : DReq) : MailApart (leftQueue c sub q s) (leftQueue c sub q t) := by
  obtain ⟨m, rfl⟩ := h
  exact ⟨m, rfl⟩

theorem MailApart.leftSealed (h : MailApart s t) (b : Bool) (c sub : Nat) (q : DReq) :
    MailApart (leftSealed b c sub q s) (leftSealed b c sub q t) := by
  obtain ⟨m, rfl⟩ := h
  exact .ite ⟨m, rfl⟩ ⟨m, rfl⟩

theorem MailApart.leftRt (h : MailApart s t) (c : Nat) (q : DReq) : MailApart (leftRt c q s) (leftRt c q t) := by
  obtain ⟨m, rfl⟩ := h
  exact .ite (.judgePanic ⟨m, rfl⟩ c q.port) ⟨m, rfl⟩

theorem MailApart.unqueue (h : MailApart s t) (c sub : Nat) (q : DReq) : MailApart (unqueue c sub q s) (unqueue c sub q t) := by
  have hpath : sealedPath t c sub q = sealedPath s c sub q := h.read (sealedPath · c sub q) fun _ => rfl
  rw [unqueue_eq, unqueue_eq, hpath]
  exact ((h.leftQueue c sub q).leftSealed _ c sub q).leftRt c q

theorem MailApart.dequeue (h : MailApart s t) (c sub : Nat) (q : DReq) : MailApart (dequeue c sub q s) (dequeue c sub q t) :=
  ((h.unqueue c sub q).endDrain c sub).admitOutside c sub

theorem MailApart.dropFixes (h : MailApart s t) (line : Nat) : MailApart (dropFixes line s) (dropFixes line t) := by
  have hcoord : coord t (line * 64) = coord s (line * 64) := h.read (coord · (line * 64)) fun _ => rfl
  unfold Machine.dropFixes
  rw [hcoord]
  cases coord s (line * 64) with
  | none => exact h
  | some k =>
    have hcopies : copies t k.chan = copies s k.chan := h.read (copies · k.chan) fun _ => rfl
    dsimp only
    rw [hcopies]
    refine .foldl (fun y z c hyz => ?_) _ h
    have hwait : waitingAt z c k.sub = waitingAt y c k.sub := hyz.read (waitingAt · c k.sub) fun _ => rfl
    rw [hwait]
    exact .foldl (fun _ _ q hq => hq.dequeue c k.sub q) _ hyz

theorem MailApart.enqueue (h : MailApart s t) (c sub : Nat) (q : DReq) : MailApart (enqueue c sub q s) (enqueue c sub q t) := by
  obtain ⟨m, rfl⟩ := h
  exact .ite (.putReq ⟨m, rfl⟩ c sub _) ⟨m, rfl⟩

theorem MailApart.deliver (h : MailApart s t) (q : DReq) (v : Option Nat) : MailApart (deliver q v s) (deliver q v t) := by
  obtain ⟨m, rfl⟩ := h
  refine .ite ⟨m, rfl⟩ (.ite ⟨m, rfl⟩ (.ite ?_ ⟨m, rfl⟩))
  have hlent : (withMail m s).mem.lent = s.mem.lent := rfl
  unfold deliverLent
  rw [hlent]
  cases s.mem.lent.find? fun e => e.2.1 ≤ q.line * 64 && q.line * 64 < e.2.1 + e.2.2.1 with
  | none => exact ⟨m, rfl⟩
  | some e =>
    cases v with
    | none => exact ⟨m, rfl⟩
    | some d => exact ⟨m, rfl⟩

theorem MailApart.lostLine (h : MailApart s t) (sl c line tag : Nat) : MailApart (lostLine sl c line tag s) (lostLine sl c line tag t) := by
  have hpa : ownPa t line = ownPa s line := h.read (ownPa · line) fun _ => rfl
  unfold Machine.lostLine readRecord
  rw [hpa]
  exact h.recVisible _ _ _ _ _ _ _ _ _

/-- What a write makes of the corrections and the reads that stand for its line. -/
def writeTaken (q : DReq) (s : State) : State :=
  if q.write then Machine.forgetReads q.line (Machine.dropFixes q.line s) else s

/-- A request that no copy of its channel takes. -/
def lostReq (k : Coord) (q : DReq) (s : State) : State :=
  if q.write then Machine.lostLine (nextSlice s) k.chan q.line q.tag s
  else Machine.deliver q none (Machine.lostLine (nextSlice s) k.chan q.line q.tag s)

theorem takeReq_eq (k : Coord) (q : DReq) (s : State) : takeReq k q s =
    if (copies s k.chan).all fun x => partFenced s x k then lostReq k q s
    else enqueue (takingChan (writeTaken q s) k q) k.sub q (writeTaken q s) := rfl

theorem MailApart.lostReq (h : MailApart s t) (k : Coord) (q : DReq) : MailApart (lostReq k q s) (lostReq k q t) := by
  have hsl : nextSlice t = nextSlice s := h.read nextSlice fun _ => rfl
  unfold Machine.lostReq
  rw [hsl]
  exact .ite (h.lostLine _ _ _ _) ((h.lostLine _ _ _ _).deliver q none)

theorem MailApart.writeTaken (h : MailApart s t) (q : DReq) : MailApart (writeTaken q s) (writeTaken q t) := by
  refine .ite ?_ h
  obtain ⟨m, hm⟩ := h.dropFixes q.line
  rw [hm]
  exact ⟨m, rfl⟩

theorem MailApart.takeReq (h : MailApart s t) (k : Coord) (q : DReq) : MailApart (takeReq k q s) (takeReq k q t) := by
  have hfenced : ((copies t k.chan).all fun x => partFenced t x k) = (copies s k.chan).all fun x => partFenced s x k :=
    h.read (fun u => (copies u k.chan).all fun x => partFenced u x k) fun _ => rfl
  have hkept := h.writeTaken q
  have htaking : takingChan (Machine.writeTaken q t) k q = takingChan (Machine.writeTaken q s) k q :=
    hkept.read (takingChan · k q) fun _ => rfl
  rw [takeReq_eq, takeReq_eq, hfenced, htaking]
  exact .ite (h.lostReq k q) (hkept.enqueue _ _ _)

theorem MailApart.dramWrite (h : MailApart s t) (how : WrHow) (line tag data : Nat) (poison : Bool) :
    MailApart (dramWrite how line tag data poison s) (dramWrite how line tag data poison t) := by
  have hcoord : coord t (line * 64) = coord s (line * 64) := h.read (coord · (line * 64)) fun _ => rfl
  have hbeat : beat t = beat s := h.read beat fun _ => rfl
  unfold Machine.dramWrite
  rw [hcoord, hbeat]
  cases coord s (line * 64) with
  | none => exact h
  | some k => exact h.takeReq k _

theorem MailApart.askRead (h : MailApart s t) (w : Reader) (line tag : Nat) : MailApart (askRead w line tag s) (askRead w line tag t) := by
  obtain ⟨m, rfl⟩ := h
  have hcoord : coord (withMail m s) (line * 64) = coord s (line * 64) := rfl
  unfold Machine.askRead
  rw [hcoord]
  cases coord s (line * 64) with
  | none => exact ⟨m, rfl⟩
  | some k => exact .takeReq ⟨m, rfl⟩ k _

/-! ### Packets and refusals -/

theorem MailApart.freeNext (h : MailApart s t) : MailApart (freeNext s) (freeNext t) := by
  obtain ⟨m, rfl⟩ := h
  exact ⟨m, rfl⟩

theorem MailApart.waitPkt (h : MailApart s t) (p : Pkt) : MailApart (waitPkt p s) (waitPkt p t) := by
  obtain ⟨m, rfl⟩ := h
  exact ⟨m, rfl⟩

theorem MailApart.putOut (h : MailApart s t) (k : Nat) (p : Pkt) : MailApart (putOut k p s) (putOut k p t) := by
  obtain ⟨m, rfl⟩ := h
  exact ⟨m, rfl⟩

theorem MailApart.sendInShare (h : MailApart s t) (g : ShareSeg) (q : Nat) (l : List Pkt) :
    MailApart (sendInShare g q l s) (sendInShare g q l t) := by
  have hwait := MailApart.foldl (fun _ _ p hp => hp.waitPkt { p with vc := 6 }) l h
  obtain ⟨m, rfl⟩ := h
  exact .ite ⟨m, rfl⟩ hwait

theorem MailApart.sendAnyPos (h : MailApart s t) (g : ShareSeg) (p : Pkt) : MailApart (sendAnyPos g p s) (sendAnyPos g p t) := by
  have hpos : (g.pos.filter (posFree t g))[freeVal (g.pos.filter (posFree t g)).length t]? =
      (g.pos.filter (posFree s g))[freeVal (g.pos.filter (posFree s g)).length s]? :=
    h.read (fun u => (g.pos.filter (posFree u g))[freeVal (g.pos.filter (posFree u g)).length u]?) fun _ => rfl
  unfold Machine.sendAnyPos
  dsimp only
  rw [hpos]
  cases (g.pos.filter (posFree s g))[freeVal (g.pos.filter (posFree s g)).length s]? with
  | none => exact h.waitPkt _
  | some q => exact h.freeNext.sendInShare _ _ _

theorem bestPort_withMail (m : Table Mbx) (s : State) (vc : Nat) (l : List Nat) : bestPort (withMail m s) vc l = bestPort s vc l := by
  induction l with
  | nil => rfl
  | cons k r ih =>
    rw [bestPort, bestPort, ih]
    rfl

/-- A packet takes its next hop, or waits. -/
def sendHop (p : Pkt) (h : Option (Nat × Pkt)) (s : State) : State :=
  match h with
  | some (k, q) => if canSend s k q.vc then Machine.putOut k q s else Machine.waitPkt p s
  | none => Machine.waitPkt p s

/-- A packet of a table entry. -/
def routeBy (p : Pkt) (e : Nat) (s : State) : State :=
  if 4 ≤ p.vc then sendHop p (escHop s e p.esc p) s
  else
    match bestPort s p.vc (([0, 1, 2].map (entryPort e)).filter fun k => canSend s k p.vc) with
    | some k => Machine.putOut k p s
    | none => sendHop p (escHop s e 0 p) s

theorem routeOne_eq (p : Pkt) (s : State) : routeOne p s = match entryFor s p with
    | none => s
    | some e => routeBy p e s := by
  unfold routeOne
  cases entryFor s p <;> rfl

theorem MailApart.sendHop (h : MailApart s t) (p : Pkt) (x : Option (Nat × Pkt)) : MailApart (sendHop p x s) (sendHop p x t) := by
  cases x with
  | none => exact h.waitPkt p
  | some x =>
    obtain ⟨m, rfl⟩ := h
    exact .ite (.putOut ⟨m, rfl⟩ _ _) ⟨m, rfl⟩

theorem MailApart.routeBy (h : MailApart s t) (p : Pkt) (e : Nat) : MailApart (routeBy p e s) (routeBy p e t) := by
  have hbest : bestPort t p.vc (([0, 1, 2].map (entryPort e)).filter fun k => canSend t k p.vc) =
      bestPort s p.vc (([0, 1, 2].map (entryPort e)).filter fun k => canSend s k p.vc) :=
    h.read (fun u => bestPort u p.vc (([0, 1, 2].map (entryPort e)).filter fun k => canSend u k p.vc))
      fun m => bestPort_withMail m s _ _
  have hesc (st : Nat) : escHop t e st p = escHop s e st p := h.read (escHop · e st p) fun _ => rfl
  unfold Machine.routeBy
  rw [hbest, hesc, hesc]
  refine .ite (h.sendHop p _) ?_
  cases bestPort s p.vc (([0, 1, 2].map (entryPort e)).filter fun k => canSend s k p.vc) with
  | none => exact h.sendHop p _
  | some k => exact h.putOut k p

theorem MailApart.routeOne (h : MailApart s t) (p : Pkt) : MailApart (routeOne p s) (routeOne p t) := by
  have hentry : entryFor t p = entryFor s p := h.read (entryFor · p) fun _ => rfl
  rw [routeOne_eq, routeOne_eq, hentry]
  cases entryFor s p with
  | none => exact h
  | some e => exact h.routeBy p e

theorem MailApart.relayMsg (h : MailApart s t) (p : Pkt) (x : Msg) : MailApart (relayMsg p x s) (relayMsg p x t) := by
  have hport : relayPort t p.dest x = relayPort s p.dest x := h.read (relayPort · p.dest x) fun _ => rfl
  unfold Machine.relayMsg
  rw [hport]
  cases relayPort s p.dest x with
  | none => exact h.waitPkt p
  | some k =>
    obtain ⟨m, rfl⟩ := h
    exact .ite (.putOut ⟨m, rfl⟩ _ _) ⟨m, rfl⟩

/-- A packet that stands in no share. -/
def sendOpen (p : Pkt) (s : State) : State :=
  if hasRoute s p.dest then Machine.routeOne p s
  else match p.msg with
    | some m => Machine.relayMsg p m s
    | none => if p.kind < 0x10 then s else Machine.waitPkt p s

/-- A packet as its device sends it. -/
def stamped (p : Pkt) (s : State) : Pkt := { p with src := myId s, epoch := rd s fabIdEpoch, vc := pktVc p.kind, esc := 0 }

/-- The share in which a packet goes. -/
def shareFor (p : Pkt) (s : State) : Option ShareSeg := if p.mgmt || p.removal then none else shareSeg s p.tag p.dest

theorem sendPkt_eq (p : Pkt) (s : State) : sendPkt p s = match shareFor (stamped p s) s with
    | some g => sendAnyPos g (stamped p s) s
    | none => sendOpen (stamped p s) s := by
  unfold sendPkt shareFor stamped
  dsimp only
  generalize (if (p.mgmt || p.removal) = true then none else shareSeg s p.tag p.dest) = x
  cases x <;> rfl

theorem MailApart.sendOpen (h : MailApart s t) (p : Pkt) : MailApart (sendOpen p s) (sendOpen p t) := by
  have hroute : hasRoute t p.dest = hasRoute s p.dest := h.read (hasRoute · p.dest) fun _ => rfl
  unfold Machine.sendOpen
  rw [hroute]
  refine .ite (h.routeOne p) ?_
  cases p.msg with
  | none => exact .ite h (h.waitPkt p)
  | some x => exact h.relayMsg p x

theorem MailApart.sendPkt (h : MailApart s t) (p : Pkt) : MailApart (sendPkt p s) (sendPkt p t) := by
  have hstamp : stamped p t = stamped p s := h.read (stamped p) fun _ => rfl
  have hshare : shareFor (stamped p s) t = shareFor (stamped p s) s := h.read (shareFor (stamped p s)) fun _ => rfl
  rw [sendPkt_eq, sendPkt_eq, hstamp, hshare]
  cases shareFor (stamped p s) s with
  | none => exact h.sendOpen _
  | some g => exact h.sendAnyPos g _

theorem MailApart.sendOut (h : MailApart s t) (o : Out) : MailApart (sendOut o s) (sendOut o t) := by
  obtain ⟨m, rfl⟩ := h
  exact .ite (.sendPkt ⟨m, rfl⟩ _) ⟨m, rfl⟩

theorem MailApart.refuseGranule (h : MailApart s t) (kind unit pa tag : Nat) :
    MailApart (refuseGranule kind unit pa tag s) (refuseGranule kind unit pa tag t) := by
  have hten : tenantOf t tag = tenantOf s tag := h.read (tenantOf · tag) fun _ => rfl
  have hsl : nextSlice t = nextSlice s := h.read nextSlice fun _ => rfl
  unfold Machine.refuseGranule recRefusal
  dsimp only
  rw [hten, hsl]
  have hset : MailApart (setTenant tag { tenantOf s tag with refused := (tenantOf s tag).refused + 1 } s)
      (setTenant tag { tenantOf s tag with refused := (tenantOf s tag).refused + 1 } t) := by
    obtain ⟨m, rfl⟩ := h
    exact ⟨m, rfl⟩
  exact hset.recPlatform _ _ _ _ _ _ _ _

theorem MailApart.refuseLine (h : MailApart s t) (pa tag : Nat) : MailApart (refuseLine pa tag s) (refuseLine pa tag t) := by
  have hchan : (coord t (offOf pa)).elim 0 (·.chan) = (coord s (offOf pa)).elim 0 (·.chan) :=
    h.read (fun u => (coord u (offOf pa)).elim 0 (·.chan)) fun _ => rfl
  have hport (g : Nat) : hdmPort t g (offOf pa) = hdmPort s g (offOf pa) := h.read (hdmPort · g (offOf pa)) fun _ => rfl
  unfold Machine.refuseLine
  dsimp only
  rw [hchan, hport]
  split
  · exact h.refuseGranule _ _ _ _
  · exact (h.refuseGranule _ _ _ _).bump _ _

theorem MailApart.writeBack (h : MailApart s t) (how : WrHow) (tag line data : Nat) (poison : Bool) :
    MailApart (writeBack how tag line data poison s) (writeBack how tag line data poison t) := by
  have hown : ownDram t line = ownDram s line := h.read (ownDram · line) fun _ => rfl
  have hgran : granuleOk t (line % 2 ^ 40 * 64) tag false = granuleOk s (line % 2 ^ 40 * 64) tag false :=
    h.read (granuleOk · (line % 2 ^ 40 * 64) tag false) fun _ => rfl
  have hdev : outDev t line = outDev s line := h.read (outDev · line) fun _ => rfl
  unfold Machine.writeBack
  rw [hown, hgran, hdev]
  exact .ite (.ite (h.dramWrite _ _ _ _ _) (h.refuseLine _ _)) (h.sendOut _)

theorem MailApart.writeHome (h : MailApart s t) (tag line data : Nat) (poison : Bool) :
    MailApart (writeHome tag line data poison s) (writeHome tag line data poison t) := h.writeBack _ _ _ _ _

/-! ### Slices -/

theorem MailApart.setSlice (h : MailApart s t) (n : Nat) (r : Slice) : MailApart (setSlice n r s) (setSlice n r t) := by
  obtain ⟨m, rfl⟩ := h
  exact ⟨m, rfl⟩

theorem MailApart.sliceOf_eq (h : MailApart s t) (n : Nat) : sliceOf t n = sliceOf s n := h.read (sliceOf · n) fun _ => rfl

theorem MailApart.arrOf_eq (h : MailApart s t) (n line : Nat) : arrOf t n line = arrOf s n line := h.read (arrOf · n line) fun _ => rfl

theorem MailApart.vicOf_eq (h : MailApart s t) (n line : Nat) : vicOf t n line = vicOf s n line := h.read (vicOf · n line) fun _ => rfl

theorem MailApart.dirOf_eq (h : MailApart s t) (n line : Nat) : dirOf t n line = dirOf s n line := h.read (dirOf · n line) fun _ => rfl

theorem MailApart.putSlice (h : MailApart s t) (n : Nat) (r : Slice) : MailApart (putSlice n r s) (putSlice n r t) := by
  obtain ⟨m, rfl⟩ := h
  exact .ite ⟨m, rfl⟩ ⟨m, rfl⟩

theorem MailApart.putArr (h : MailApart s t) (n line : Nat) (l : SLine) : MailApart (putArr n line l s) (putArr n line l t) := by
  unfold Machine.putArr
  rw [h.sliceOf_eq]
  exact h.putSlice n _

theorem MailApart.dropArr (h : MailApart s t) (n line : Nat) : MailApart (dropArr n line s) (dropArr n line t) := by
  unfold Machine.dropArr
  rw [h.sliceOf_eq]
  exact h.putSlice n _

theorem MailApart.putDir (h : MailApart s t) (n line : Nat) (e : DirEnt) : MailApart (putDir n line e s) (putDir n line e t) := by
  unfold Machine.putDir
  rw [h.sliceOf_eq]
  exact h.setSlice n _

theorem MailApart.sliceFault (h : MailApart s t) (n row way : Nat) (ts : List Nat) :
    MailApart (sliceFault n row way ts s) (sliceFault n row way ts t) := by
  unfold Machine.sliceFault
  rw [h.sliceOf_eq]
  exact h.setSlice n _

theorem MailApart.correctLine (h : MailApart s t) (n line : Nat) : MailApart (correctLine n line s) (correctLine n line t) := by
  unfold Machine.correctLine
  rw [h.arrOf_eq, h.sliceOf_eq]
  cases arrOf s n line with
  | none => exact h.setSlice n _
  | some x => exact h.putArr n line _

theorem MailApart.rowErrors (h : MailApart s t) (n row : Nat) : MailApart (rowErrors n row s) (rowErrors n row t) :=
  .ite (.ite (h.bump _ 1) (h.bump _ 1)) (.ite (h.bump _ 1) (h.bump _ 1))

theorem MailApart.rowLast (h : MailApart s t) (n row line way tag : Nat) :
    MailApart (rowLast n row line way tag s) (rowLast n row line way tag t) := by
  obtain ⟨m, rfl⟩ := h
  exact ⟨m, rfl⟩

theorem MailApart.evictNotice (h : MailApart s t) (n line tag : Nat) : MailApart (evictNotice n line tag s) (evictNotice n line tag t) := by
  have hown : ownLine t line = ownLine s line := h.read (ownLine · line) fun _ => rfl
  have hdev : outDev t line = outDev s line := h.read (outDev · line) fun _ => rfl
  unfold Machine.evictNotice
  rw [hown, h.sliceOf_eq, hdev]
  exact .ite h (h.sendOut _)

/-! ### Cores -/

theorem MailApart.dropL2 (h : MailApart s t) (core line : Nat) : MailApart (dropL2 core line s) (dropL2 core line t) := by
  have hset : MailApart (setCore core (withoutLine line (coreOf s core)) s) (setCore core (withoutLine line (coreOf t core)) t) := by
    obtain ⟨m, rfl⟩ := h
    exact ⟨m, rfl⟩
  rw [dropL2_eq, dropL2_eq]
  generalize setCore core (withoutLine line (coreOf s core)) s = y at hset ⊢
  obtain ⟨m, hm⟩ := hset
  rw [hm]
  have hhart : hartOfCore (withMail m y) (core / 2) (core % 2) = hartOfCore y (core / 2) (core % 2) := rfl
  unfold endResv
  rw [hhart]
  cases hartOfCore y (core / 2) (core % 2) with
  | none => exact ⟨m, rfl⟩
  | some k => exact .ite ⟨m, rfl⟩ ⟨m, rfl⟩

/-- The states of two results differ in their mailboxes only, and what else they tell is the same. -/
def MailApart.Pair {α : Type} (a b : State × α) : Prop := MailApart a.1 b.1 ∧ b.2 = a.2

theorem MailApart.dirtyIn_eq (h : MailApart s t) (line : Nat) (cores : List Nat) : dirtyIn t line cores = dirtyIn s line cores :=
  h.read (dirtyIn · line cores) fun _ => rfl

theorem MailApart.takeBack (h : MailApart s t) (n line : Nat) (keep : Option Nat) :
    MailApart.Pair (takeBack n line keep s) (takeBack n line keep t) := by
  unfold Machine.takeBack
  rw [h.dirOf_eq]
  cases dirOf s n line with
  | none => exact ⟨h, rfl⟩
  | some e =>
    dsimp only
    rw [h.dirtyIn_eq]
    exact ⟨(MailApart.foldl (fun _ _ c hc => hc.dropL2 c line) _ h).putDir n line _, rfl⟩

/-- A line that the directory's error takes back goes home with what a core had written. -/
def backOne (n : Nat) (e : Nat × DirEnt) (b : State × Option (Nat × Bool)) : State :=
  match b.2 with
  | some x => Machine.writeHome e.2.tag e.1 x.1 x.2 (Machine.dropArr n e.1 b.1)
  | none => b.1

theorem backInvalidate_eq (n set : Nat) (s : State) : backInvalidate n set s =
    ((sliceOf s n).dir.filter fun e => dirSetOf e.1 == set && !e.2.cores.any (coreHolds s e.1)).foldl
      (fun a e => backOne n e (Machine.takeBack n e.1 none a)) s := by
  unfold backInvalidate
  refine List.foldl_ext _ _ _ fun a e _ => ?_
  obtain ⟨b, d⟩ := Machine.takeBack n e.1 none a
  cases d <;> rfl

theorem MailApart.backOne {a b : State × Option (Nat × Bool)} (h : MailApart.Pair a b) (n : Nat) (e : Nat × DirEnt) :
    MailApart (backOne n e a) (backOne n e b) := by
  obtain ⟨hs, hd⟩ := h
  unfold Machine.backOne
  rw [hd]
  cases a.2 with
  | none => exact hs
  | some x => exact (hs.dropArr n e.1).writeHome _ _ _ _

theorem MailApart.backInvalidate (h : MailApart s t) (n set : Nat) : MailApart (backInvalidate n set s) (backInvalidate n set t) := by
  have hlist : ((sliceOf t n).dir.filter fun e => dirSetOf e.1 == set && !e.2.cores.any (coreHolds t e.1)) =
      (sliceOf s n).dir.filter fun e => dirSetOf e.1 == set && !e.2.cores.any (coreHolds s e.1) :=
    h.read (fun u => (sliceOf u n).dir.filter fun e => dirSetOf e.1 == set && !e.2.cores.any (coreHolds u e.1)) fun _ => rfl
  rw [backInvalidate_eq, backInvalidate_eq, hlist]
  exact .foldl (fun _ _ e he => .backOne (he.takeBack n e.1 none) n e) _ h

/-! ### Array errors -/

/-- The line that an array error meets, and its way. -/
def errLine (n line tag : Nat) (s : State) : SLine :=
  ((arrOf s n line).or (vicOf s n line)).getD { tag := tag, way := 0, dirty := false, locked := false, poison := false, data := 0 }

def errWay (n line : Nat) (s : State) : Nat :=
  match arrOf s n line with
  | some x => x.way
  | none => if (vicOf s n line).isSome then 0x1F else 0

theorem arrayError_of (n line tag row : Nat) (s : State) : arrayError n line tag row s =
    rowAct n line (rowOf row (errLine n line tag s).dirty) (errWay n line s) (errLine n line tag s) s
      (Machine.rowLast n (rowOf row (errLine n line tag s).dirty) line (errWay n line s) (errLine n line tag s).tag
        (Machine.rowErrors n (rowOf row (errLine n line tag s).dirty) s)) := rfl

theorem MailApart.rowAct (h : MailApart s t) (hy : MailApart y z) (n line row way : Nat) (l : SLine) :
    MailApart (rowAct n line row way l s y) (rowAct n line row way l t z) := by
  have hsl : nextSlice t = nextSlice s := h.read nextSlice fun _ => rfl
  have hpart : ((partTenants t n).filter fun x => inMask (rd t (llcPartWayMask n x)) way) =
      (partTenants s n).filter fun x => inMask (rd s (llcPartWayMask n x)) way :=
    h.read (fun u => (partTenants u n).filter fun x => inMask (rd u (llcPartWayMask n x)) way) fun _ => rfl
  have hlive : ((liveTenants t).filter fun x => !isSealed t x) = (liveTenants s).filter fun x => !isSealed s x :=
    h.read (fun u => (liveTenants u).filter fun x => !isSealed u x) fun _ => rfl
  have hlast : (lastSlice t n ∧ rd t (llcStatusState n) = 2) = (lastSlice s n ∧ rd s (llcStatusState n) = 2) :=
    h.read (fun u => (lastSlice u n ∧ rd u (llcStatusState n) = 2 : Prop)) fun _ => rfl
  have hdrop := hy.dropArr n line
  unfold Machine.rowAct
  split
  · rw [hsl]
    exact (hy.correctLine n line).recCorrected _ _ _ _ _
  · rw [hsl]
    exact hdrop.recPlatform _ _ _ _ _ _ _ _
  · rw [hsl]
    exact (hdrop.writeHome _ _ _ _).recVisible _ _ _ _ _ _ _ _ _
  · rw [hsl]
    exact hdrop.recPlatform _ _ _ _ _ _ _ _
  · exact hdrop.sliceFault _ _ _ _
  · rw [hsl]
    exact hy.recCorrected _ _ _ _ _
  · rw [hpart, hlive]
    exact hdrop.sliceFault _ _ _ _
  · rw [hsl]
    exact hy.recCorrected _ _ _ _ _
  · simp only [hlast]
    exact .ite (hy.backInvalidate _ _) ((hy.backInvalidate _ _).sliceFault _ _ _ _)
  · exact h

theorem MailApart.arrayError (h : MailApart s t) (n line tag row : Nat) :
    MailApart (arrayError n line tag row s) (arrayError n line tag row t) := by
  have hline : errLine n line tag t = errLine n line tag s := by rw [errLine, errLine, h.arrOf_eq, h.vicOf_eq]
  have hway : errWay n line t = errWay n line s := by rw [errWay, errWay, h.arrOf_eq, h.vicOf_eq]
  rw [arrayError_of, arrayError_of, hline, hway]
  exact h.rowAct ((h.rowErrors n _).rowLast n _ line _ _) n line _ _ _

theorem MailApart.readHeld (h : MailApart s t) (n line : Nat) : MailApart (readHeld n line s) (readHeld n line t) := by
  unfold Machine.readHeld
  dsimp only
  rw [h.arrOf_eq, h.vicOf_eq]
  generalize errRow ((arrOf s n line).or (vicOf s n line)) = row
  cases row with
  | zero => exact h
  | succ k => exact h.arrayError _ _ _ _

/-! ### Placing a line -/

theorem MailApart.armErrors (h : MailApart s t) (n : Nat) (l : SLine) : MailApart.Pair (armErrors n l s) (armErrors n l t) := by
  unfold Machine.armErrors
  dsimp only
  rw [h.sliceOf_eq]
  split
  · exact ⟨h.setSlice n _, rfl⟩
  · exact ⟨h, rfl⟩

/-- The oldest victim, read, leaves. -/
def victimGone (n line0 : Nat) (y : State) : State :=
  match vicOf y n line0 with
  | some l0 =>
    if l0.dirty then Machine.writeHome l0.tag line0 l0.data l0.poison
      (Machine.putSlice n { sliceOf y n with victims := (sliceOf y n).victims.filter fun e => e.1 != line0 } y)
    else Machine.evictNotice n line0 l0.tag
      (Machine.putSlice n { sliceOf y n with victims := (sliceOf y n).victims.filter fun e => e.1 != line0 } y)
  | none => y

theorem MailApart.victimGone (h : MailApart s t) (n line0 : Nat) : MailApart (victimGone n line0 s) (victimGone n line0 t) := by
  unfold Machine.victimGone
  rw [h.vicOf_eq, h.sliceOf_eq]
  cases vicOf s n line0 with
  | none => exact h
  | some l => exact .ite ((h.putSlice n _).writeHome _ _ _ _) ((h.putSlice n _).evictNotice _ _ _)

theorem ageVictim_eq (n : Nat) (s : State) : ageVictim n s = match (sliceOf s n).victims.head? with
    | some e => if (sliceOf s n).victims.length < 64 then s else victimGone n e.1 (Machine.readHeld n e.1 s)
    | none => s := by
  unfold ageVictim
  cases (sliceOf s n).victims with
  | nil => rfl
  | cons e r => rfl

theorem MailApart.ageVictim (h : MailApart s t) (n : Nat) : MailApart (ageVictim n s) (ageVictim n t) := by
  rw [ageVictim_eq, ageVictim_eq, h.sliceOf_eq]
  cases (sliceOf s n).victims.head? with
  | none => exact h
  | some e => exact .ite h ((h.readHeld n e.1).victimGone n e.1)

theorem MailApart.toVictim (h : MailApart s t) (n line : Nat) (l : SLine) : MailApart (toVictim n line l s) (toVictim n line l t) := by
  have hage := h.ageVictim n
  unfold Machine.toVictim
  dsimp only
  rw [hage.sliceOf_eq]
  exact hage.putSlice n _

theorem MailApart.displace (h : MailApart s t) (n line : Nat) (l : SLine) : MailApart (displace n line l s) (displace n line l t) := by
  have hcond : (isSealed t l.tag ∨ sealedWay t n l.way) = (isSealed s l.tag ∨ sealedWay s n l.way) :=
    h.read (fun u => (isSealed u l.tag ∨ sealedWay u n l.way : Prop)) fun _ => rfl
  have hdrop := h.dropArr n line
  unfold Machine.displace
  simp only [hcond]
  exact .ite (.ite (hdrop.writeHome _ _ _ _) hdrop) (hdrop.toVictim n line l)

theorem MailApart.occupant_eq (h : MailApart s t) (n line w : Nat) : occupant t n line w = occupant s n line w :=
  h.read (occupant · n line w) fun _ => rfl

theorem MailApart.readOccupant (h : MailApart s t) (n line w : Nat) : MailApart (readOccupant n line w s) (readOccupant n line w t) := by
  unfold Machine.readOccupant
  rw [h.occupant_eq]
  cases occupant s n line w with
  | none => exact h
  | some e => exact h.readHeld n e.1

theorem MailApart.moveOccupant (h : MailApart s t) (n line w : Nat) : MailApart (moveOccupant n line w s) (moveOccupant n line w t) := by
  unfold Machine.moveOccupant
  rw [h.occupant_eq]
  cases occupant s n line w with
  | none => exact h
  | some e => exact h.displace n e.1 e.2

theorem MailApart.intoWay (h : MailApart s t) (n line w : Nat) (l : SLine) : MailApart (intoWay n line w l s) (intoWay n line w l t) := by
  obtain ⟨hs, hl⟩ := ((h.readOccupant n line w).moveOccupant n line w).armErrors n { l with way := w }
  rw [intoWay_eq, intoWay_eq, hl]
  exact hs.putArr n line _

theorem MailApart.writeThrough (h : MailApart s t) (n line : Nat) (l : SLine) :
    MailApart (if l.dirty then Machine.writeHome l.tag line l.data l.poison (Machine.dropArr n line s) else s)
      (if l.dirty then Machine.writeHome l.tag line l.data l.poison (Machine.dropArr n line t) else t) :=
  .ite ((h.dropArr n line).writeHome _ _ _ _) h

theorem MailApart.placeLine (h : MailApart s t) (n line : Nat) (l : SLine) : MailApart (placeLine n line l s) (placeLine n line l t) := by
  have hst : rd t (llcStatusState n) = rd s (llcStatusState n) := h.read (rd · (llcStatusState n)) fun _ => rfl
  have hkept : keptWay t n line l.tag = keptWay s n line l.tag := h.read (keptWay · n line l.tag) fun _ => rfl
  have helig : eligible t n l.tag = eligible s n l.tag := h.read (eligible · n l.tag) fun _ => rfl
  have hfree (k : Nat) : freeVal k t = freeVal k s := h.read (freeVal k) fun _ => rfl
  unfold Machine.placeLine
  dsimp only
  rw [h.arrOf_eq, hst, hkept, helig, hfree]
  simp only [h.occupant_eq]
  cases arrOf s n line with
  | some o =>
    obtain ⟨hs, hl⟩ := h.armErrors n { l with way := o.way, locked := o.locked }
    dsimp only
    rw [hl]
    exact hs.putArr n line _
  | none =>
    refine .ite (h.writeThrough n line l) ?_
    cases keptWay s n line l.tag with
    | succ w => exact h.intoWay _ _ _ _
    | zero =>
      dsimp only
      cases (eligible s n l.tag).find? fun w => (occupant s n line w).isNone with
      | some w => exact h.intoWay _ _ _ _
      | none =>
        dsimp only
        cases (eligible s n l.tag)[freeVal (eligible s n l.tag).length s]? with
        | some w => exact h.freeNext.intoWay _ _ _ _
        | none => exact h.writeThrough n line l

theorem MailApart.recallVictim (h : MailApart s t) (n line : Nat) : MailApart (recallVictim n line s) (recallVictim n line t) := by
  have hb := h.bump (llcVictimRecalls n) 1
  unfold Machine.recallVictim
  rw [h.arrOf_eq, h.vicOf_eq]
  cases arrOf s n line with
  | some o => exact h
  | none =>
    cases vicOf s n line with
    | none => exact h
    | some l =>
      dsimp only
      rw [hb.read (rd · (llcStatusState n)) fun _ => rfl]
      exact .ite ((hb.dropArr n line).placeLine n line l) hb

/-! ### A line as a reader finds it -/

/-- The copies of a line that stand under another tag than a request's, and the directory's entry under another. -/
def otherHeld (n line tag : Nat) (s : State) : Option SLine := ((arrOf s n line).or (vicOf s n line)).filter fun l => l.tag != tag

def otherDir (n line tag : Nat) (s : State) : Option DirEnt := (dirOf s n line).filter fun e => e.tag != tag

/-- The tag under which the copies that are taken over stood. -/
def otherOwner (d : Option DirEnt) (l : Option SLine) (tag : Nat) : Nat :=
  match d, l with
  | some e, _ => e.tag
  | none, some l => l.tag
  | none, none => tag

/-- What was written of the line goes home. -/
def takenHome (line tag : Nat) (d : Option DirEnt) (l : Option SLine) (v : Option (Nat × Bool)) (s : State) : State :=
  match v, l with
  | some (v, p), _ => Machine.writeHome (otherOwner d l tag) line v p s
  | none, some l => if l.dirty then Machine.writeHome l.tag line l.data l.poison s else s
  | none, none => s

/-- Copies under another tag are taken over, after the slice's has been read. -/
def tookOver (n line tag : Nat) (s : State) : State :=
  if (otherHeld n line tag s).isNone ∧ (otherDir n line tag s).isNone then s
  else takenHome line tag (otherDir n line tag s) (otherHeld n line tag s) (Machine.takeBack n line none s).2
    (Machine.dropArr n line (Machine.takeBack n line none s).1)

theorem takeOver_eq (n line tag : Nat) (s : State) :
    takeOver n line tag s = tookOver n line tag (if otherTag s n line tag then Machine.readHeld n line s else s) := by
  unfold takeOver tookOver takenHome otherHeld otherDir
  dsimp only
  generalize (if otherTag s n line tag then Machine.readHeld n line s else s) = y
  generalize ((arrOf y n line).or (vicOf y n line)).filter (fun l => l.tag != tag) = l
  generalize (dirOf y n line).filter (fun e => e.tag != tag) = d
  obtain ⟨b, v⟩ := Machine.takeBack n line none y
  cases v <;> cases l <;> cases d <;> rfl

theorem MailApart.takenHome (h : MailApart s t) (line tag : Nat) (d : Option DirEnt) (l : Option SLine) (v : Option (Nat × Bool)) :
    MailApart (takenHome line tag d l v s) (takenHome line tag d l v t) := by
  unfold Machine.takenHome
  cases v with
  | some x => exact h.writeHome _ _ _ _
  | none =>
    cases l with
    | some l => exact .ite (h.writeHome _ _ _ _) h
    | none => exact h

theorem MailApart.tookOver (h : MailApart s t) (n line tag : Nat) : MailApart (tookOver n line tag s) (tookOver n line tag t) := by
  have hheld : otherHeld n line tag t = otherHeld n line tag s := h.read (otherHeld n line tag) fun _ => rfl
  have hdir : otherDir n line tag t = otherDir n line tag s := h.read (otherDir n line tag) fun _ => rfl
  obtain ⟨hs, hd⟩ := h.takeBack n line none
  unfold Machine.tookOver
  rw [hheld, hdir, hd]
  exact .ite h ((hs.dropArr n line).takenHome _ _ _ _ _)

theorem MailApart.takeOver (h : MailApart s t) (n line tag : Nat) : MailApart (takeOver n line tag s) (takeOver n line tag t) := by
  have hother : otherTag t n line tag = otherTag s n line tag := h.read (otherTag · n line tag) fun _ => rfl
  rw [takeOver_eq, takeOver_eq, hother]
  exact (MailApart.ite (h.readHeld n line) h).tookOver n line tag

theorem MailApart.homeRead (h : MailApart s t) (w : Reader) (line tag : Nat) :
    MailApart.Pair (homeRead w line tag s) (homeRead w line tag t) := by
  have hasked : (if ownLine t line then readOf t w (line % 2 ^ 40) tag else none) =
      (if ownLine s line then readOf s w (line % 2 ^ 40) tag else none) :=
    h.read (fun u => if ownLine u line then readOf u w (line % 2 ^ 40) tag else none) fun _ => rfl
  have hown : ownDram t line = ownDram s line := h.read (ownDram · line) fun _ => rfl
  unfold Machine.homeRead
  rw [hasked, hown]
  cases (if ownLine s line then readOf s w (line % 2 ^ 40) tag else none) with
  | some r => exact ⟨h, rfl⟩
  | none =>
    dsimp only
    split
    · exact ⟨h.askRead w _ tag, rfl⟩
    · exact ⟨h, rfl⟩

/-- What the caches of this device hold of a line. -/
def cachedData (s : State) (n line : Nat) : Option (Nat × Bool) :=
  (dirtyIn s line (((dirOf s n line).map (·.cores)).getD [])).or (heldData s n line)

/-- A reader finds what the caches hold, or reads at the line's home. -/
def foundLine (w : Reader) (n line tag : Nat) (s : State) : State × Seen :=
  (cachedData s n line).elim (Machine.homeRead w line tag s) fun x => (Machine.recallVictim n line s, .data x.1 x.2)

theorem currentLine_eq (w : Reader) (line tag : Nat) (s : State) : currentLine w line tag s =
    if sealedCopy s (homeSlice s tag line) line tag then Machine.homeRead w line tag s
    else foundLine w (homeSlice s tag line) line tag
      (Machine.readHeld (homeSlice s tag line) line (Machine.takeOver (homeSlice s tag line) line tag s)) := by
  unfold currentLine foundLine cachedData
  dsimp only
  generalize Machine.readHeld (homeSlice s tag line) line (Machine.takeOver (homeSlice s tag line) line tag s) = y
  generalize (dirtyIn y line (((dirOf y (homeSlice s tag line) line).map (·.cores)).getD [])).or
    (heldData y (homeSlice s tag line) line) = d
  cases d <;> rfl

theorem MailApart.foundLine (h : MailApart s t) (w : Reader) (n line tag : Nat) :
    MailApart.Pair (foundLine w n line tag s) (foundLine w n line tag t) := by
  have hdata : cachedData t n line = cachedData s n line := h.read (cachedData · n line) fun _ => rfl
  unfold Machine.foundLine
  rw [hdata]
  cases cachedData s n line with
  | some x => exact ⟨h.recallVictim n line, rfl⟩
  | none => exact h.homeRead w line tag

theorem MailApart.currentLine (h : MailApart s t) (w : Reader) (line tag : Nat) :
    MailApart.Pair (currentLine w line tag s) (currentLine w line tag t) := by
  have hhome : homeSlice t tag line = homeSlice s tag line := h.read (homeSlice · tag line) fun _ => rfl
  have hsealed (n : Nat) : sealedCopy t n line tag = sealedCopy s n line tag := h.read (sealedCopy · n line tag) fun _ => rfl
  rw [currentLine_eq, currentLine_eq, hhome, hsealed]
  split
  · exact h.homeRead w line tag
  · exact ((h.takeOver _ line tag).readHeld _ line).foundLine w _ line tag

/-- Whether a line is known. -/
def known : Seen → Bool
  | .wait => false
  | _ => true

theorem askLines_eq (w : Reader) (x : Nat) (ls : List Nat) (s : State) : askLines w x ls s =
    ls.foldl (fun a l => ((Machine.currentLine w l x a.1).1, if known (Machine.currentLine w l x a.1).2 then a.2 else false)) (s, true) := by
  unfold askLines
  refine List.foldl_ext _ _ _ fun a l _ => ?_
  obtain ⟨b, v⟩ := Machine.currentLine w l x a.1
  cases v <;> rfl

/-- The same lines are known. -/
theorem MailApart.askLines (h : MailApart s t) (w : Reader) (x : Nat) (ls : List Nat) :
    MailApart.Pair (askLines w x ls s) (askLines w x ls t) := by
  rw [askLines_eq, askLines_eq]
  suffices hall : ∀ (a b : State × Bool), MailApart.Pair a b → MailApart.Pair
      (ls.foldl (fun a l => ((Machine.currentLine w l x a.1).1, if known (Machine.currentLine w l x a.1).2 then a.2 else false)) a)
      (ls.foldl (fun a l => ((Machine.currentLine w l x a.1).1, if known (Machine.currentLine w l x a.1).2 then a.2 else false)) b) from
    hall _ _ ⟨h, rfl⟩
  intro a b hab
  induction ls generalizing a b with
  | nil => exact hab
  | cons l r ih =>
    obtain ⟨hs, hb⟩ := hab
    obtain ⟨hcur, hseen⟩ := hs.currentLine w l x
    exact ih _ _ ⟨hcur, by dsimp only; rw [hseen, hb]⟩

end Sys2Proof.Machine
end

section
/-! tenant.create, tenant.grant, tenant.assign, tenant.load and tenant.start (O36; R203, R204, R208, R211, R221). -/
set_option Elab.async false
namespace Sys2Proof.Machine

variable {s t : State} {i : Nat} {c : Bytes}

/-! ### A reader's lines leave every command where it is -/

theorem PhaseKept.foldl {α : Type} {f : State → α → State} (hf : ∀ y a, PhaseKept y (f y a)) (l : List α) (s : State) :
    PhaseKept s (l.foldl f s) :=
  List.foldlRecOn (motive := PhaseKept s) l f (.refl s) fun y hy a _ => hy.trans (hf y a)

theorem PhaseKept.takenReq (k : Coord) (q : DReq) (s : State) : PhaseKept s (Machine.takeReq k q s) := by
  have hlost : PhaseKept s (lostLine (nextSlice s) k.chan q.line q.tag s) := by
    unfold lostLine readRecord
    exact .recVisible _ _ _ _ _ _ _ _ _ s
  rw [takeReq_eq, lostReq]
  refine .ite _ (.ite _ hlost (hlost.trans (.of_mbx ?_))) ?_
  · exact (deliver_keeps q none _ (keeps_refl _ _) (Nat.or_self _)).part .mbx rfl
  · have hdrop : (writeTaken q s).mbx = s.mbx := by
      unfold writeTaken
      split
      · exact (dropFixes_keeps q.line s (keeps_refl _ s) (Nat.or_self _)).part .mbx rfl
      · rfl
    exact .of_mbx (((enqueue_keeps _ _ _ _ (keeps_refl _ _) (Nat.or_self _)).part .mbx rfl).trans hdrop)

theorem PhaseKept.homeRead (w : Reader) (line tag : Nat) (s : State) : PhaseKept s (Machine.homeRead w line tag s).1 := by
  unfold Machine.homeRead
  split
  · exact .refl s
  · split
    · unfold askRead
      split
      · refine .trans (.of_mbx ?_) (.takenReq _ _ _)
        exact setMem_mbx _ _
      · exact .refl s
    · exact .refl s

theorem PhaseKept.tookOver (n line tag : Nat) (s : State) : PhaseKept s (Machine.tookOver n line tag s) := by
  have hdrop : PhaseKept s (Machine.dropArr n line (Machine.takeBack n line none s).1) :=
    ((CacheMoved.takeBack n line none s).trans (.dropArr n line _)).phase
  unfold Machine.tookOver takenHome
  refine .ite _ (.refl s) (hdrop.trans ?_)
  split
  · exact .writeBack _ _ _ _ _ _
  · exact .ite _ (.writeBack _ _ _ _ _ _) (.refl _)
  · exact .refl _

theorem PhaseKept.takeOver (n line tag : Nat) (s : State) : PhaseKept s (Machine.takeOver n line tag s) := by
  rw [takeOver_eq]
  exact .trans (.ite _ (CacheMoved.readHeld n line s).phase (.refl s)) (.tookOver n line tag _)

theorem PhaseKept.recallVictim (n line : Nat) (s : State) : PhaseKept s (Machine.recallVictim n line s) := by
  cases harr : arrOf s n line with
  | some o =>
    rw [recallVictim_held harr]
    exact .refl s
  | none =>
    cases hvic : vicOf s n line with
    | none =>
      rw [recallVictim_absent hvic]
      exact .refl s
    | some l =>
      rw [recallVictim_eq harr hvic]
      exact .trans (.of_mbx (wr_mbx _ _ _)) (CacheMoved.recalled n line l _).phase

theorem PhaseKept.currentLine (w : Reader) (line tag : Nat) (s : State) : PhaseKept s (Machine.currentLine w line tag s).1 := by
  rw [currentLine_eq]
  split
  · exact .homeRead w line tag s
  · have hread : PhaseKept s (readHeld (homeSlice s tag line) line (Machine.takeOver (homeSlice s tag line) line tag s)) :=
      .trans (.takeOver _ line tag s) (CacheMoved.readHeld _ line _).phase
    refine hread.trans ?_
    unfold foundLine
    generalize cachedData _ _ _ = d
    cases d with
    | some x => exact .recallVictim _ line _
    | none => exact .homeRead w line tag _

theorem PhaseKept.askLines (w : Reader) (x : Nat) (ls : List Nat) (s : State) : PhaseKept s (Machine.askLines w x ls s).1 := by
  rw [askLines_eq]
  exact List.foldlRecOn (motive := fun a : State × Bool => PhaseKept s a.1) ls _ (.refl s)
    fun a ha l _ => ha.trans (.currentLine w l x a.1)

theorem PhaseKept.writeAtHome (w : Reader) (line tag d : Nat) (s : State) : PhaseKept s (Machine.writeAtHome w line tag d s) := by
  unfold Machine.writeAtHome
  dsimp only
  have hover : PhaseKept s (if sealedCopy s (homeSlice s tag line) line tag then s
      else Machine.takeOver (homeSlice s tag line) line tag s) := .ite _ (.refl s) (.takeOver _ line tag s)
  generalize (if sealedCopy s (homeSlice s tag line) line tag = true then s
    else Machine.takeOver (homeSlice s tag line) line tag s) = y at hover ⊢
  have hbroken : PhaseKept s (breakResv w.asHart line (Machine.takeBack (homeSlice s tag line) line none y).1) :=
    (hover.trans (CacheMoved.takeBack (homeSlice s tag line) line none y).phase).trans
      (.of_mbx ((breakResv_keeps w.asHart line _ (keeps_refl _ _) (Nat.or_self _)).part .mbx rfl))
  split
  · exact hbroken.trans (CacheMoved.putArr _ line _ _).phase
  · exact (hbroken.trans (CacheMoved.dropArr _ line _).phase).trans (.writeBack _ _ _ _ _ _)

theorem PhaseKept.loadLine (i x dst : Nat) (v : Seen) (a : State × List Nat) : PhaseKept a.1 (Machine.loadLine i x dst v a).1 := by
  unfold Machine.loadLine
  split
  · exact .writeAtHome _ _ _ _ a.1
  · exact .of_mbx (freeNext_mbx a.1)

theorem PhaseKept.ncOpen (w : Reader) (tag line : Nat) (excl : Bool) (s : State) : PhaseKept s (Machine.ncOpen w tag line excl s) :=
  .of_mbx ((ncOpen_keeps w tag line excl s (keeps_refl _ s) (Nat.or_self _)).part .mbx rfl)

/-! ### tenant.create -/

theorem tenantCreate_goesOn (hfree : (tenantOf s (tenField i (arg c 0 2))).st = .free) : tenantCreate i c (started i s) =
    addStep i (beat s + 1) (.stage i (chg (arg c 0 2) (tenField i (arg c 0 2)))
      (mkBytes [(0, 2, tenField i (arg c 0 2)), (8, 8, beat s + 1)]))
      (addStep i (beat s + 1) (.openTenant (tenField i (arg c 0 2))) (drawKey (tenField i (arg c 0 2)) 0 (started i s))) :=
  if_neg (not_not_intro hfree)

theorem keyEnt_drawKey (x : Nat) (s : State) : keyEnt (drawKey x 0 s) x = { keyEnt s x with gen0 := some s.mem.nextKey } := by
  rw [keyEnt, drawKey, setMem_mem]
  exact tget_tset_same {} s.mem.keys x { keyEnt s x with gen0 := some s.mem.nextKey }

/-! ### tenant.grant -/

/-- What tenant.grant reads of its command. -/
def granuleBase (s : State) (c : Bytes) : Nat := roundDown (2 ^ 21) (clampPa s (roundDown (2 ^ 21) (arg c 0 8)))
def granuleSize (c : Bytes) : Nat := clampR (2 ^ 21) (2 ^ 40) (roundUp (2 ^ 21) (arg c 8 8))
def granuleTen (c : Bytes) : Nat := min 256 (arg c 0x10 2)
def granuleClamps (s : State) (c : Bytes) : Nat :=
  chg (arg c 0 8) (paOf s (granuleBase s c)) + chg (arg c 8 8) (granuleSize c) + chg (arg c 0x10 2) (granuleTen c)
def granuleResult (s : State) (c : Bytes) (o n b : Nat) : Bytes :=
  mkBytes [(0, 8, paOf s (granuleBase s c)), (8, 8, granuleSize c), (0x10, 2, granuleTen c), (0x12, 1, o), (0x14, 4, n), (0x18, 8, b)]

/-- The lines of the range that something holds up. -/
def granuleHeld (s : State) (c : Bytes) : List Nat :=
  if granuleTen c = 0 then [] else rangeHeld s 0 (paOf s (granuleBase s c)) (granuleSize c) true

theorem tenantGrant_eq (i : Nat) (c : Bytes) (s : State) : tenantGrant i c s =
    if grantOutcome s (granuleBase s c) (granuleSize c) (granuleTen c) ≠ 0 then
      stageDone i (granuleClamps s c) (granuleResult s c (grantOutcome s (granuleBase s c) (granuleSize c) (granuleTen c)) 0 0) s
    else if granuleHeld s c ≠ [] then
      addDue (beat s + 1) 9 (.tryAgain i) ((granuleHeld s c).foldl (fun a l => ncOpen (.mailbox i) 0 l true a) s)
    else addStep i (beat s + 1) (.stage i (granuleClamps s c) (granuleResult s c 0 (granuleSize c / 2 ^ 21) (beat s + 1)))
      (addStep i (beat s + 1) (.grant (granuleBase s c) (granuleSize c / 2 ^ 21) (granuleTen c)) (dropReads (.mailbox i) s)) := rfl

theorem granuleBase_started (i : Nat) (c : Bytes) (s : State) : granuleBase (started i s) c = granuleBase s c := rfl
theorem granuleClamps_started (i : Nat) (c : Bytes) (s : State) : granuleClamps (started i s) c = granuleClamps s c := rfl
theorem granuleHeld_started (i : Nat) (c : Bytes) (s : State) : granuleHeld (started i s) c = granuleHeld s c := rfl
theorem granuleResult_started (i : Nat) (c : Bytes) (s : State) : granuleResult (started i s) c = granuleResult s c := rfl
theorem grantOutcome_started (i : Nat) (s : State) : grantOutcome (started i s) = grantOutcome s := rfl

/-- The requests that hold a range up are snooped or counted; nothing else of the command goes on. -/
theorem held_spec {α : Type} {f : State → α → State} (hf : ∀ y a, ∃ w x l b, f y a = ncOpen w x l b y) (l : List α) (s : State) :
    PhaseKept s (l.foldl f s) ∧ (l.foldl f s).journal = s.journal ∧ (l.foldl f s).due = s.due ∧
      (l.foldl f s).tenants = s.tenants ∧ dramKept s (l.foldl f s) := by
  have hone (y : State) (a : α) : PhaseKept y (f y a) ∧ (f y a).journal = y.journal ∧ (f y a).due = y.due ∧
      (f y a).tenants = y.tenants := by
    obtain ⟨w, x, l, b, h⟩ := hf y a
    have hk := ncOpen_keeps w x l b y (keeps_refl _ y) (Nat.or_self _)
    rw [h]
    exact ⟨.ncOpen _ _ _ _ y, hk.part .journal rfl, hk.part .due rfl, hk.part .tenants rfl⟩
  refine ⟨.foldl (fun y a => (hone y a).1) l s, foldl_fixes State.journal (fun y a => (hone y a).2.1) l s,
    foldl_fixes State.due (fun y a => (hone y a).2.2.1) l s, foldl_fixes State.tenants (fun y a => (hone y a).2.2.2) l s, ?_⟩
  refine List.foldlRecOn (motive := dramKept s) l f rfl fun y hy a _ => ?_
  obtain ⟨w, x, l, b, h⟩ := hf y a
  rw [h]
  exact hy.ncOpen w x l b

theorem tenantGrant_spec (h : takenAs s i 0x0302 c) : ∃ t, exec (.tenantGrant i) s = .next t ∧
    (grantOutcome s (granuleBase s c) (granuleSize c) (granuleTen c) ≠ 0 → doneIn s t i (granuleClamps s c)
      (granuleResult s c (grantOutcome s (granuleBase s c) (granuleSize c) (granuleTen c)) 0 0)) ∧
    (grantOutcome s (granuleBase s c) (granuleSize c) (granuleTen c) = 0 → granuleTen c ≠ 0 →
      rangeHeld s 0 (paOf s (granuleBase s c)) (granuleSize c) true ≠ [] → goesOn t i ∧ t.journal = s.journal ∧
        t.due = s.due ++ [⟨beat s + 1, 9, .tryAgain i⟩] ∧ dramKept s t) ∧
    (grantOutcome s (granuleBase s c) (granuleSize c) (granuleTen c) = 0 →
      granuleTen c = 0 ∨ rangeHeld s 0 (paOf s (granuleBase s c)) (granuleSize c) true = [] → goesOn t i ∧
        t.journal = s.journal ++ [⟨i, beat s + 1, .grant (granuleBase s c) (granuleSize c / 2 ^ 21) (granuleTen c)⟩,
          ⟨i, beat s + 1, .stage i (granuleClamps s c) (granuleResult s c 0 (granuleSize c / 2 ^ 21) (beat s + 1))⟩]) := by
  refine ⟨_, congrArg Host.Outcome.next (onCmd_of_taken h _), ?_, ?_, ?_⟩
  all_goals rw [tenantGrant_eq, granuleBase_started, granuleClamps_started, granuleHeld_started, granuleResult_started,
    grantOutcome_started, beat_started]
  · intro ho
    rw [if_pos ho]
    exact doneIn_started s i _ _
  · intro ho hx hheld
    rw [if_neg (not_not_intro ho), if_pos (by rw [granuleHeld, if_neg hx]; exact hheld)]
    obtain ⟨hphase, hjournal, hdue, -, hdram⟩ := held_spec (f := fun a l => ncOpen (.mailbox i) 0 l true a)
      (fun _ _ => ⟨_, _, _, _, rfl⟩) (granuleHeld s c) (started i s)
    generalize (granuleHeld s c).foldl (fun a l => ncOpen (.mailbox i) 0 l true a) (started i s) = y at hphase hjournal hdue hdram ⊢
    refine ⟨?_, hjournal, ?_, hdram⟩
    · exact hphase.goesOn (goesOn_started i s)
    · exact (addDue_due _ _ _ y).trans (by rw [hdue]; rfl)
  · intro ho hclear
    have hnone : granuleHeld s c = [] := by
      unfold granuleHeld
      rcases hclear with hx | hx
      · exact if_pos hx
      · rw [hx, ite_self]
    rw [if_neg (not_not_intro ho), if_neg (not_not_intro hnone)]
    exact ⟨goesOn_started i s, List.append_assoc _ _ _⟩

/-! ### tenant.assign -/

/-- A hart of a split slot may not leave a sealed tenancy its sibling (R209). -/
def siblingBars (s : State) (h x : Nat) : Bool :=
  slotSplit s (h / 2) && (let o := ownerOf s (h / 2 * 2 + (1 - h % 2)); o != x && (isSealed s o || isSealed s x))

/-- The hart's tile has no slot class for a sealed tenancy. -/
def classless (s : State) (h x : Nat) : Bool :=
  isSealed s x && (pairOfHart s h).any fun p =>
    (classesAt s (pairTile p)).all (fun y => y / 64 != x) && (freeClasses s (pairTile p)).isEmpty

def assignClamps (c : Bytes) (h x : Nat) : Nat := chg (arg c 0 2) h + chg (arg c 2 2) x

def handOverResult (h x o b : Nat) : Bytes := mkBytes [(0, 2, h), (2, 2, x), (4, 1, o), (8, 8, b)]

/-- The step is staged, and a sealed tenancy that loses the hart is told. -/
def assignBegun (i h x : Nat) (s : State) : State :=
  if isSealed s (ownerOf s h) ∧ ownerOf s h ≠ x then
    sealNotice (ownerOf s h) 0x0002 [(0x18, 2, h), (0x1A, 1, 2), (0x20, 8, beat s + 1)] (addStep i (beat s + 1) (.assignHart i h x) s)
  else addStep i (beat s + 1) (.assignHart i h x) s

section
variable {h x : Nat} (hh : h = clampHart s (arg c 0 2)) (hx : x = min 256 (arg c 2 2))
include hh hx

theorem tenantAssign_eq : tenantAssign i c (started i s) =
    if merged (started i s) h then stageDone i (assignClamps c h x) (handOverResult h x 2 0) (started i s)
    else if (hartOf (started i s) h).st ≠ .offline then stageDone i (assignClamps c h x) (handOverResult h x 1 0) (started i s)
    else if x ≠ 0 ∧ ((tenantOf (started i s) x).st = .free ∨ (tenantOf (started i s) x).st = .closing) then
      stageDone i (assignClamps c h x) (handOverResult h x 3 0) (started i s)
    else if siblingBars (started i s) h x then stageDone i (assignClamps c h x) (handOverResult h x 4 0) (started i s)
    else if classless (started i s) h x then stageDone i (assignClamps c h x) (handOverResult h x 5 0) (started i s)
    else assignBegun i h x (started i s) := by
  subst hh hx
  rfl

variable (hmerged : merged s h = false)
include hmerged

theorem tenantAssign_running (hst : (hartOf s h).st ≠ .offline) :
    tenantAssign i c (started i s) = stageDone i (assignClamps c h x) (handOverResult h x 1 0) (started i s) := by
  have hm : merged (started i s) h = false := hmerged
  rw [tenantAssign_eq hh hx, hm, if_neg Bool.false_ne_true]
  exact if_pos hst

variable (hoff : (hartOf s h).st = .offline)
include hoff

theorem tenantAssign_free (h0 : x ≠ 0) (hfree : (tenantOf s x).st = .free) :
    tenantAssign i c (started i s) = stageDone i (assignClamps c h x) (handOverResult h x 3 0) (started i s) := by
  have hm : merged (started i s) h = false := hmerged
  rw [tenantAssign_eq hh hx, hm, if_neg Bool.false_ne_true]
  exact (if_neg (not_not_intro hoff)).trans (if_pos ⟨h0, .inl hfree⟩)

theorem tenantAssign_begins (hten : x = 0 ∨ (tenantOf s x).st = .opened) (hsplit : slotSplit s (h / 2) = false) :
    tenantAssign i c (started i s) = assignBegun i h x (started i s) := by
  have hm : merged (started i s) h = false := hmerged
  have hlive : ¬(x ≠ 0 ∧ ((tenantOf (started i s) x).st = .free ∨ (tenantOf (started i s) x).st = .closing)) := fun hc => by
    rcases hten with h0 | hopen
    · exact hc.1 h0
    · have hst : (tenantOf (started i s) x).st = .opened := hopen
      rw [hst] at hc
      rcases hc.2 with h1 | h1 <;> cases h1
  have hunsealed : isSealed (started i s) x = false := by
    rw [isSealed_started]
    rcases hten with h0 | hopen
    · simp [isSealed, h0]
    · simp [isSealed, hopen]
  have hsib : siblingBars (started i s) h x = false := by
    rw [siblingBars, show slotSplit (started i s) (h / 2) = false from hsplit]
    rfl
  have hclass : classless (started i s) h x = false := by
    rw [classless, hunsealed]
    rfl
  rw [tenantAssign_eq hh hx, hm, if_neg Bool.false_ne_true, if_neg hlive, hsib, if_neg Bool.false_ne_true, hclass,
    if_neg Bool.false_ne_true]
  exact if_neg (not_not_intro hoff)

end

theorem assignBegun_spec (i h x : Nat) (s : State) : PhaseKept s (assignBegun i h x s) ∧
    (assignBegun i h x s).journal = s.journal ++ [⟨i, beat s + 1, .assignHart i h x⟩] := by
  unfold assignBegun
  split
  · exact ⟨fun j => notify_phase _ _ _ _ _, rfl⟩
  · exact ⟨.of_mbx rfl, rfl⟩

/-! ### tenant.load -/

/-- What tenant.load reads of its command. -/
def loadSrc (c : Bytes) : Nat := roundDown 4096 (arg c 0 8)
def loadDst (c : Bytes) : Nat := roundDown 4096 (arg c 8 8)
def loadSize (c : Bytes) : Nat := clampR 4096 (2 ^ 30) (roundUp 4096 (arg c 0x10 8))
def loadTen (c : Bytes) : Nat := clampR 1 256 (arg c 0x18 2)
def loadClamps (c : Bytes) : Nat :=
  chg (arg c 0 8) (loadSrc c) + chg (arg c 8 8) (loadDst c) + chg (arg c 0x10 8) (loadSize c) + chg (arg c 0x18 2) (loadTen c)
def loadResult (c : Bytes) (o b : Nat) : Bytes :=
  mkBytes [(0, 8, loadSrc c), (8, 8, loadDst c), (0x10, 8, loadSize c), (0x18, 2, loadTen c), (0x1A, 1, o), (0x20, 8, b)]

/-- The lines of the source are asked for. -/
def loadAsked (i : Nat) (c : Bytes) (s : State) : State × Bool :=
  askLines (.mailbox i) 0 (rangeLines (loadSrc c) (loadSize c)) s

/-- The image's lines, as they were read, are written; its bytes. -/
def loadMoved (i : Nat) (c : Bytes) (y : State) : State × List Nat :=
  ((rangeLines (loadSrc c) (loadSize c)).map fun l => (currentLine (.mailbox i) l 0 y).2).zipIdx.foldl
    (fun a e => loadLine i (loadTen c) (loadDst c + e.2 * 64) e.1 a) (dropReads (.mailbox i) y, [])

/-- The measurement that a load extends by an image (R211). -/
def loadMeasured (c : Bytes) (m : Nat) (img : List Nat) : Nat :=
  extendMeas m (bytesOf 48 (Config.sha384 img) ++ bytesOf 8 (loadDst c) ++ bytesOf 8 (loadSize c) ++ bytesOf 4 (arg c 0x1C 4))

/-- The load of an image that has been read. -/
def loadEnded (i : Nat) (c : Bytes) (s y : State) : State :=
  addStep i (beat s + 1) (.stage i (loadClamps c) (loadResult c 0 (beat s + 1)))
    (addStep i (beat s + 1) (.measure (loadTen c) (loadMeasured c (tenantOf s (loadTen c)).meas (loadMoved i c y).2)) (loadMoved i c y).1)

/-- What holds the copy up is snooped or counted. -/
def loadWaited (i : Nat) (c : Bytes) (s : State) : State :=
  (loadHeld s (loadTen c) (loadSrc c) (loadDst c) (loadSize c)).foldl (fun a e => ncOpen (.mailbox i) e.1 e.2.1 e.2.2 a) s

theorem tenantLoad_eq (i : Nat) (c : Bytes) (s : State) : tenantLoad i c s =
    if (tenantOf s (loadTen c)).st ≠ .opened then stageDone i (loadClamps c) (loadResult c 1 0) s
    else if rangeOwned s 0 (loadSrc c) (loadSize c) = false ∨ rangeOwned s (loadTen c) (loadDst c) (loadSize c) = false then
      stageDone i (loadClamps c) (loadResult c 2 0) s
    else if loadHeld s (loadTen c) (loadSrc c) (loadDst c) (loadSize c) ≠ [] then addDue (beat s + 1) 9 (.tryAgain i) (loadWaited i c s)
    else if (loadAsked i c s).2 = false then addDue (beat s + 1) 9 (.tryAgain i) (loadAsked i c s).1
    else loadEnded i c s (loadAsked i c s).1 := rfl

theorem loadAsked_kept (i : Nat) (c : Bytes) (s : State) : PhaseKept s (loadAsked i c s).1 ∧ (loadAsked i c s).1.due = s.due ∧
    (loadAsked i c s).1.journal = s.journal := by
  have hk := askLines_keeps (.mailbox i) 0 (rangeLines (loadSrc c) (loadSize c)) s (keeps_refl _ s) (Nat.or_self _)
  exact ⟨.askLines _ _ _ s, hk.part .due rfl, hk.part .journal rfl⟩

theorem loadMoved_kept (i : Nat) (c : Bytes) (y : State) : PhaseKept y (loadMoved i c y).1 ∧ (loadMoved i c y).1.journal = y.journal := by
  refine List.foldlRecOn (motive := fun a : State × List Nat => PhaseKept y a.1 ∧ a.1.journal = y.journal) _ _
    ⟨.of_mbx rfl, rfl⟩ fun a ha e _ => ?_
  have hk := loadLine_keeps i (loadTen c) (loadDst c + e.2 * 64) e.1 a (keeps_refl _ a.1) (Nat.or_self _)
  exact ⟨ha.1.trans (.loadLine _ _ _ _ a), (hk.part .journal rfl).trans ha.2⟩

/-- A command that has begun asks for the same lines. -/
theorem loadAsked_started (i : Nat) (c : Bytes) (s : State) : (loadAsked i c (started i s)).2 = (loadAsked i c s).2 :=
  (MailApart.askLines (s := s) ⟨_, rfl⟩ _ _ _).2

theorem tenantOf_started (i : Nat) (s : State) : tenantOf (started i s) = tenantOf s := rfl
theorem rangeOwned_started (i : Nat) (s : State) : rangeOwned (started i s) = rangeOwned s := rfl
theorem loadHeld_started (i : Nat) (s : State) : loadHeld (started i s) = loadHeld s := rfl

theorem tenantLoad_spec (h : takenAs s i 0x0304 c) : ∃ t, exec (.tenantLoad i) s = .next t ∧
    ((tenantOf s (loadTen c)).st ≠ .opened → doneIn s t i (loadClamps c) (loadResult c 1 0) ∧ samePart .mem s t) ∧
    ((tenantOf s (loadTen c)).st = .opened →
      rangeOwned s 0 (loadSrc c) (loadSize c) = false ∨ rangeOwned s (loadTen c) (loadDst c) (loadSize c) = false →
      doneIn s t i (loadClamps c) (loadResult c 2 0) ∧ samePart .mem s t) ∧
    ((tenantOf s (loadTen c)).st = .opened → rangeOwned s 0 (loadSrc c) (loadSize c) = true →
      rangeOwned s (loadTen c) (loadDst c) (loadSize c) = true → loadHeld s (loadTen c) (loadSrc c) (loadDst c) (loadSize c) ≠ [] →
      goesOn t i ∧ t.due = s.due ++ [⟨beat s + 1, 9, .tryAgain i⟩] ∧ dramKept s t ∧ samePart .tenants s t) ∧
    ((tenantOf s (loadTen c)).st = .opened → rangeOwned s 0 (loadSrc c) (loadSize c) = true →
      rangeOwned s (loadTen c) (loadDst c) (loadSize c) = true → loadHeld s (loadTen c) (loadSrc c) (loadDst c) (loadSize c) = [] →
      ((loadAsked i c s).2 = false → goesOn t i ∧ t.due = s.due ++ [⟨beat s + 1, 9, .tryAgain i⟩] ∧ t.journal = s.journal) ∧
      ((loadAsked i c s).2 = true → goesOn t i ∧ ∃ img, t.journal = s.journal ++
        [⟨i, beat s + 1, .measure (loadTen c) (loadMeasured c (tenantOf s (loadTen c)).meas img)⟩,
          ⟨i, beat s + 1, .stage i (loadClamps c) (loadResult c 0 (beat s + 1))⟩])) := by
  refine ⟨_, congrArg Host.Outcome.next (onCmd_of_taken h _), ?_, ?_, ?_, ?_⟩
  all_goals rw [tenantLoad_eq, tenantOf_started, rangeOwned_started, loadHeld_started, beat_started, loadAsked_started]
  · intro hst
    rw [if_pos hst]
    exact ⟨doneIn_started s i _ _, (mem_stageDone _ _ _ _).trans rfl⟩
  · intro hst hown
    rw [if_neg (not_not_intro hst), if_pos hown]
    exact ⟨doneIn_started s i _ _, (mem_stageDone _ _ _ _).trans rfl⟩
  · intro hst hsrc hdst hheld
    rw [if_neg (not_not_intro hst), if_neg (by rw [hsrc, hdst]; decide), if_pos hheld]
    obtain ⟨hphase, -, hdue, hten, hdram⟩ := held_spec (f := fun a (e : Nat × Nat × Bool) => ncOpen (.mailbox i) e.1 e.2.1 e.2.2 a)
      (fun _ _ => ⟨_, _, _, _, rfl⟩) (loadHeld s (loadTen c) (loadSrc c) (loadDst c) (loadSize c)) (started i s)
    have heq : loadWaited i c (started i s) = (loadHeld s (loadTen c) (loadSrc c) (loadDst c) (loadSize c)).foldl
        (fun a (e : Nat × Nat × Bool) => ncOpen (.mailbox i) e.1 e.2.1 e.2.2 a) (started i s) := rfl
    rw [← heq] at hphase hdue hten hdram
    generalize loadWaited i c (started i s) = y at hphase hdue hten hdram ⊢
    refine ⟨?_, ?_, hdram, hten⟩
    · exact hphase.goesOn (goesOn_started i s)
    · exact (addDue_due _ _ _ y).trans (by rw [hdue]; rfl)
  · intro hst hsrc hdst hheld
    obtain ⟨hphase, hdue, hjournal⟩ := loadAsked_kept i c (started i s)
    rw [if_neg (not_not_intro hst), if_neg (by rw [hsrc, hdst]; decide), if_neg (not_not_intro hheld)]
    generalize (loadAsked i c (started i s)).1 = y at hphase hdue hjournal ⊢
    refine ⟨fun hask => ?_, fun hask => ?_⟩
    · rw [if_pos hask]
      refine ⟨?_, (addDue_due _ _ _ y).trans (by rw [hdue]; rfl), hjournal⟩
      exact hphase.goesOn (goesOn_started i s)
    · rw [if_neg (by rw [hask]; decide)]
      obtain ⟨hmoved, hkept⟩ := loadMoved_kept i c y
      refine ⟨?_, (loadMoved i c y).2, ?_⟩
      · exact (hphase.trans hmoved).goesOn (goesOn_started i s)
      · rw [loadEnded]
        generalize loadMoved i c y = b at hkept ⊢
        have hb : b.1.journal = s.journal := hkept.trans hjournal
        rw [← hb]
        exact List.append_assoc _ _ _

/-! ### tenant.start -/

def startResult (h o : Nat) : Bytes := mkBytes [(0, 2, h), (2, 1, o)]

theorem tenantStart_eq {h : Nat} (hh : h = clampHart s (arg c 0 2)) : tenantStart i c (started i s) =
    if merged (started i s) h then stageDone i (chg (arg c 0 2) h) (startResult h 2) (started i s)
    else if ownerOf (started i s) h ≠ i then stageDone i (chg (arg c 0 2) h) (startResult h 3) (started i s)
    else if (hartOf (started i s) h).st ≠ .offline ∨ (pairOfHart (started i s) h).isNone then
      stageDone i (chg (arg c 0 2) h) (startResult h 1) (started i s)
    else addStep i (beat s + 1) (.cmdStart i h (arg c 8 8) (arg c 0x10 8) (some i)) (started i s) := by
  subst hh
  rfl

/-! ### The commands -/

theorem tenantCreate_spec (h : takenAs s i 0x0301 c) : ∃ t x cl, x = tenField i (arg c 0 2) ∧ cl = chg (arg c 0 2) x ∧
    exec (.tenantCreate i) s = .next t ∧
    ((tenantOf s x).st ≠ .free → doneIn s t i cl (mkBytes [(0, 2, x), (2, 1, 1)]) ∧ samePart .mem s t) ∧
    ((tenantOf s x).st = .free → goesOn t i ∧ keyEnt t x = { keyEnt s x with gen0 := some s.mem.nextKey } ∧
      t.mem.nextKey = s.mem.nextKey + 1 ∧ t.journal = s.journal ++ [⟨i, beat s + 1, .openTenant x⟩,
        ⟨i, beat s + 1, .stage i cl (mkBytes [(0, 2, x), (8, 8, beat s + 1)])⟩]) := by
  refine ⟨tenantCreate i c (started i s), tenField i (arg c 0 2), _, rfl, rfl, congrArg Host.Outcome.next (onCmd_of_taken h _), ?_, ?_⟩
  · intro hst
    rw [tenantCreate, if_pos (show (tenantOf (started i s) (tenField i (arg c 0 2))).st ≠ .free from hst)]
    exact ⟨doneIn_started s i _ _, (mem_stageDone _ _ _ _).trans rfl⟩
  · intro hst
    rw [tenantCreate_goesOn hst]
    refine ⟨?_, ?_, rfl, List.append_assoc _ _ _⟩
    · exact goesOn_of_mbx (goesOn_started i s) rfl
    · exact keyEnt_drawKey _ (started i s)

theorem tenantAssign_spec (h : takenAs s i 0x0303 c) : ∃ t h x cl, h = clampHart s (arg c 0 2) ∧ x = min 256 (arg c 2 2) ∧
    cl = chg (arg c 0 2) h + chg (arg c 2 2) x ∧ exec (.tenantAssign i) s = .next t ∧
    (merged s h = true → doneIn s t i cl (mkBytes [(0, 2, h), (2, 2, x), (4, 1, 2), (8, 8, 0)])) ∧
    (merged s h = false → (hartOf s h).st ≠ .offline →
      doneIn s t i cl (mkBytes [(0, 2, h), (2, 2, x), (4, 1, 1), (8, 8, 0)])) ∧
    (merged s h = false → (hartOf s h).st = .offline → x ≠ 0 → (tenantOf s x).st = .free →
      doneIn s t i cl (mkBytes [(0, 2, h), (2, 2, x), (4, 1, 3), (8, 8, 0)])) ∧
    (merged s h = false → (hartOf s h).st = .offline → x = 0 ∨ (tenantOf s x).st = .opened → slotSplit s (h / 2) = false →
      goesOn t i ∧ t.journal = s.journal ++ [⟨i, beat s + 1, .assignHart i h x⟩]) := by
  refine ⟨tenantAssign i c (started i s), clampHart s (arg c 0 2), min 256 (arg c 2 2), _, rfl, rfl, rfl,
    congrArg Host.Outcome.next (onCmd_of_taken h _), ?_, ?_, ?_, ?_⟩
  · intro hmerged
    rw [tenantAssign_eq rfl rfl, if_pos (show merged (started i s) _ = true from hmerged)]
    exact doneIn_started s i _ _
  · intro hmerged hst
    rw [tenantAssign_running rfl rfl hmerged hst]
    exact doneIn_started s i _ _
  · intro hmerged hoff h0 hfree
    rw [tenantAssign_free rfl rfl hmerged hoff h0 hfree]
    exact doneIn_started s i _ _
  · intro hmerged hoff hten hsplit
    rw [tenantAssign_begins rfl rfl hmerged hoff hten hsplit]
    obtain ⟨hphase, hjournal⟩ := assignBegun_spec i (clampHart s (arg c 0 2)) (min 256 (arg c 2 2)) (started i s)
    exact ⟨hphase.goesOn (goesOn_started i s), hjournal⟩

/-- The hart that is still offline at the boundary changes hands; another keeps its owner. -/
theorem assignHart_spec (i h x cl : Nat) (s : State) (hcl : cl = chg (arg (mbxOf s i).copy 0 2) h + chg (arg (mbxOf s i).copy 2 2) x) :
    ((hartOf s h).st = .offline → (hartOf s h).fencedAt ≠ some (beat s) → applyAct s (.assignHart i h x) = stageDone i cl
      (mkBytes [(0, 2, h), (2, 2, x), (4, 1, 0), (8, 8, beat s)]) (giveHart h x s)) ∧
    ((hartOf s h).st ≠ .offline ∨ (hartOf s h).fencedAt = some (beat s) → ∃ t, t = applyAct s (.assignHart i h x) ∧ samePart .harts s t ∧
      doneIn s t i cl (mkBytes [(0, 2, h), (2, 2, x), (4, 1, 1), (8, 8, 0)])) := by
  have heq : applyAct s (.assignHart i h x) = assignHart i h x s := rfl
  subst hcl
  refine ⟨fun hoff hunfenced => ?_, fun hbusy => ⟨_, rfl, ?_⟩⟩
  · rw [heq, assignHart]
    exact if_pos ⟨hoff, hunfenced⟩
  · rw [heq, assignHart, if_neg (fun hc => hbusy.elim (· hc.1) hc.2)]
    exact ⟨stageDone_keeps_part State.harts (fun _ _ _ => rfl) (fun _ _ _ => rfl) _ _ _ _, doneIn_stageDone _ _ rfl rfl rfl rfl⟩

theorem tenantStart_spec (h : takenAs s i 0x0308 c) : ∃ t h cl, h = clampHart s (arg c 0 2) ∧ cl = chg (arg c 0 2) h ∧
    exec (.tenantStart i) s = .next t ∧
    (merged s h = true → doneIn s t i cl (mkBytes [(0, 2, h), (2, 1, 2)])) ∧
    (merged s h = false → ownerOf s h ≠ i → doneIn s t i cl (mkBytes [(0, 2, h), (2, 1, 3)])) ∧
    (merged s h = false → ownerOf s h = i → (hartOf s h).st ≠ .offline ∨ pairOfHart s h = none →
      doneIn s t i cl (mkBytes [(0, 2, h), (2, 1, 1)])) ∧
    (∀ p, merged s h = false → ownerOf s h = i → (hartOf s h).st = .offline → pairOfHart s h = some p → goesOn t i ∧
      t.journal = s.journal ++ [⟨i, beat s + 1, .cmdStart i h (arg c 8 8) (arg c 0x10 8) (some i)⟩]) := by
  refine ⟨tenantStart i c (started i s), clampHart s (arg c 0 2), _, rfl, rfl, congrArg Host.Outcome.next (onCmd_of_taken h _),
    ?_, ?_, ?_, ?_⟩
  all_goals
    generalize hhart : clampHart s (arg c 0 2) = k
    rw [tenantStart_eq hhart.symm, show merged (started i s) k = merged s k from rfl, show ownerOf (started i s) k = ownerOf s k from rfl,
      show hartOf (started i s) k = hartOf s k from rfl, show pairOfHart (started i s) k = pairOfHart s k from rfl]
  · intro hmerged
    rw [if_pos hmerged]
    exact doneIn_started s i _ _
  · intro hmerged howner
    rw [hmerged, if_neg Bool.false_ne_true, if_pos howner]
    exact doneIn_started s i _ _
  · intro hmerged howner hbusy
    rw [hmerged, if_neg Bool.false_ne_true, if_neg (not_not_intro howner), if_pos (hbusy.imp id fun hp => by rw [hp]; rfl)]
    exact doneIn_started s i _ _
  · intro p hmerged howner hoff hp
    rw [hmerged, if_neg Bool.false_ne_true, if_neg (not_not_intro howner),
      if_neg (fun hc => hc.elim (fun hst => hst hoff) fun hnone => by rw [hp] at hnone; cases hnone)]
    exact ⟨goesOn_of_mbx (goesOn_started i s) rfl, rfl⟩

/-- Settles O36: the outcome of each command, or the steps that it leaves for the next boundary. -/
theorem tenantResourceCommands : Obligations.TenantResourceCommands := by
  unfold Obligations.TenantResourceCommands
  intro s i c _
  refine ⟨tenantCreate_spec, fun h => ?_, tenantAssign_spec, fun h x cl hcl => assignHart_spec i h x cl s hcl, fun h => ?_,
    tenantStart_spec⟩
  · obtain ⟨t, hexec, hrefused, hheld, hgranted⟩ := tenantGrant_spec h
    exact ⟨t, granuleBase s c, granuleSize c, granuleTen c, granuleClamps s c, _, rfl, rfl, rfl, rfl, rfl, hexec, hrefused, hheld,
      hgranted⟩
  · obtain ⟨t, hexec, hclosed, hforeign, hheld, hasked⟩ := tenantLoad_spec h
    refine ⟨t, loadSrc c, loadDst c, loadSize c, loadTen c, loadClamps c, rfl, rfl, rfl, rfl, rfl, hexec, hclosed, hforeign, hheld,
      fun s0 hst hsrc hdst hclear hask => (hasked hst hsrc hdst hclear).1 ?_, fun s0 hst hsrc hdst hclear hask =>
      (hasked hst hsrc hdst hclear).2 ?_⟩
    all_goals
      have heq : loadAsked i c s = (s0, _) := hask
      rw [heq]

end Sys2Proof.Machine
end

section
/-! A write whose address and whose line lie in two ranges of the map (O31). -/
set_option Elab.async false
namespace Sys2Proof.Machine

/-- A marker for line 0 that waits in the fabric's real-time buffer. -/
def someFix : DReq := { line := 0, tag := 0, write := true, cls := 0, poison := true, raw := some DLine.marker }

/-- A map that is cut inside line 0: its first half lies on channel 0, whose real-time buffer is in panic and holds that marker; its
second half lies on channel 1. -/
def cutLine : State := wr (mcRtStatusPanicFab 0) 1 { State.reset with
  mem := { chans := [(0, { dimm := some someDimm, rt := [(0, [someFix])] }), (1, { dimm := some someDimm })],
           map := [⟨0, 32, [0]⟩, ⟨32, 4096, [1]⟩] } }

/-- A write of the second half. -/
def secondHalf : DAcc := { pa := 32, tag := 0, write := true }

/-- The write drops the marker of its line, which lies on channel 0, and that buffer leaves panic. -/
theorem panic_cutLine : rd (dramRequest 1 secondHalf cutLine) (mcRtStatusPanicFab 0) = 0 := by decide +kernel

/-- Refutes O31: it takes any map, and where a range ends inside a line the write of one channel changes the registers of another. -/
theorem not_dramRequestsAndCommands : ¬ Obligations.DramRequestsAndCommands := by
  unfold Obligations.DramRequestsAndCommands
  intro h
  obtain ⟨harrives, -⟩ := h cutLine 1 (by decide)
  obtain ⟨-, hplain, -⟩ := harrives secondHalf (coordIn someDimm 1 0 0) (by decide +kernel) (by decide +kernel)
  obtain ⟨t, ht, hregs, -⟩ := hplain (by decide +kernel) (by decide +kernel) (by decide +kernel) (by decide +kernel) rfl (by decide)
    (fun _ => by decide +kernel)
  obtain rfl : dramRequest 1 secondHalf cutLine = t := Host.Outcome.next.inj ht
  have hpanic : rd cutLine (mcRtStatusPanicFab 0) = 1 := by decide +kernel
  have hsame : rd (dramRequest 1 secondHalf cutLine) (mcRtStatusPanicFab 0) = rd cutLine (mcRtStatusPanicFab 0) := rd_of_regs hregs _
  rw [panic_cutLine, hpanic] at hsame
  exact absurd hsame (by decide)

end Sys2Proof.Machine
end

section
/-! How a presented access of a main core goes on: the equations of loads, stores and atomics (O19; R59, R66 to R73, R78, R87). -/
set_option Elab.async false
namespace Sys2Proof.Machine

variable {s p0 p s1 : State} {h : Nat} {a : MemAcc} {r : Nat} {sg : Bool} {v : Nat} {y : List Nat}

/-! ### From the instruction to its access -/

/-- An access without an exception has no exception of its translation. -/
theorem fault1_of_accessFault {ls ac : Nat} {amo lrsc : Bool} (h0 : accessFault p h a ls ac amo lrsc = none) : a.fault1 = none := by
  cases hf : a.fault1 with
  | none => rfl
  | some c => simp [accessFault, partFault, hf] at h0

theorem walked_of_noWalk (ac : Nat) (f : State → State) (hwalk : noWalk p0 h a) :
    walked h a ac f p0 = f (if a.fault1.isSome then p0 else translate h a p0) := by
  unfold walked
  rcases hwalk with hw | hw
  · rw [hw]
  · rw [hw]
    cases walker p0 h a <;> rfl

theorem walked_goesOn {ls ac x : Nat} {amo lrsc : Bool} (f : State → State) (hp : p = translate h a p0) (hwalk : noWalk p0 h a)
    (hfault : accessFault p h a ls ac amo lrsc = none) : walked h a x f p0 = f p := by
  rw [walked_of_noWalk x f hwalk, fault1_of_accessFault hfault, hp]
  rfl

section
variable {core : Nat} {g : Option Got} (ac : Nat) (f : State → State) (hwalker : walker p0 h a = some core)
  (hlines : walkLines h core (ownerOf p0 h) a.early a.walk p0 = (s1, g))
include hwalker hlines

theorem walked_found (hg : g = none) : walked h a ac f p0 = f (if a.fault1.isSome then s1 else translate h a s1) := by
  subst hg
  simp only [walked, hwalker, hlines]

theorem walked_waits (hg : g = some .wait) : walked h a ac f p0 = s1 := by
  subst hg
  simp only [walked, hwalker, hlines]

theorem walked_poisoned (hg : g = some .poison) : walked h a ac f p0 = raise h 19 a.va s1 := by
  subst hg
  simp only [walked, hwalker, hlines]

theorem walked_refused (hg : g = some .refused) : walked h a ac f p0 = raise h ac a.va s1 := by
  subst hg
  simp only [walked, hwalker, hlines]

end

section
variable (hruns : hartRuns s h = true) (hsize : a.size ≠ 0)
include hruns hsize

theorem load_walked : exec (.mainCoreLoad h a r sg) s =
    .next (walked h a 5 (loadAt h a r sg) (present h a (decide (32 ≤ r ∧ r < 64)) s)) :=
  congrArg Host.Outcome.next (if_neg (fun hc => hc.elim (fun hf => by rw [hruns] at hf; cases hf) hsize))

theorem store_walked : exec (.mainCoreStore h a v y) s = .next (walked h a 7 (storeAt h a v y) (present h a a.fp s)) :=
  congrArg Host.Outcome.next (if_neg (fun hc => hc.elim (fun hf => by rw [hruns] at hf; cases hf) hsize))

theorem amo_walked {op : AmoOp} {cmp : Nat} : exec (.mainCoreAmo h a op v cmp r y) s =
    .next (walked h a (if op = .lr then 5 else 7) (amoAt h a op v cmp r y) (present h a false s)) :=
  congrArg Host.Outcome.next (if_neg (fun hc => hc.elim (fun hf => by rw [hruns] at hf; cases hf) hsize))

end

/-! ### Requests to other devices and to ports -/

theorem keepRecord_rest (h : Nat) (x : SideEff) (s : State) : ∃ ps, keepRecord h x s = { s with pairs := ps } := by
  unfold keepRecord
  split
  · split
    · exact ⟨_, rfl⟩
    · exact ⟨_, rfl⟩
  · exact ⟨_, rfl⟩

section
variable {dev kind op cmp : Nat}

/-- A request that its hart waits for. -/
theorem farAccess_asks (hdev : 64 ≤ dev) (hposted : posted kind a = false) (hmay : mayAsk p h dev)
    (hfree : ∀ q, recorded p h a.pa a.size kind v ≠ some q) :
    askedFor dev kind a.pa (ownerOf p h) (.hart h r a.size sg a.va a.more) p (farAccess h dev kind r a sg v op cmp p) := by
  have hnone : recorded p h a.pa a.size kind v = none := Option.eq_none_iff_forall_ne_some.mpr hfree
  obtain ⟨ps, hkeep⟩ := keepRecord_rest h { addr := a.pa, data := v, size := a.size, kind := kind, resp := none } p
  have hlocal : ¬dev < 64 := by omega
  have heq : farAccess h dev kind r a sg v op cmp p = sendOut { xid := 0, dev := dev, kind := kind, pa := a.pa, tag := ownerOf p h, size := a.size, data := v, op := op, cmp := cmp, origin := .hart h r a.size sg a.va a.more }
      { p with pairs := ps } := by
    simp [farAccess, hposted, hmay.1, hmay.2 hdev, hnone, hkeep]
  rw [heq, sendOut]
  dsimp only
  rw [if_neg hlocal]
  exact ⟨⟨_, rfl, rfl, rfl, rfl, rfl, rfl, rfl⟩, rfl, rfl, rfl⟩

/-- A posted one, with its data. -/
theorem farAccess_posts (hdev : 64 ≤ dev) (hposted : posted kind a = true) :
    askedFor dev kind a.pa (ownerOf p h) .none p (farAccess h dev kind r a sg v op cmp p) ∧
    ∀ o ∈ (farAccess h dev kind r a sg v op cmp p).outs, o ∉ p.outs → o.data = v := by
  have hlocal : ¬dev < 64 := by omega
  have heq : farAccess h dev kind r a sg v op cmp p = sendOut { xid := 0, dev := dev, kind := kind, pa := a.pa, tag := ownerOf p h, size := a.size, data := v, op := op, cmp := cmp, origin := .none } p := by
    simp [farAccess, hposted]
  rw [heq, sendOut]
  dsimp only
  rw [if_neg hlocal]
  refine ⟨⟨⟨_, rfl, rfl, rfl, rfl, rfl, rfl, rfl⟩, rfl, rfl, rfl⟩, fun o ho hnew => ?_⟩
  rcases List.mem_append.mp ho with hold | hone
  · exact absurd hold hnew
  · rw [List.mem_singleton.mp hone]

theorem farAccess_waits (hposted : posted kind a = false) (hw : hartWaits p h = true) : farAccess h dev kind r a sg v op cmp p = p := by
  simp [farAccess, hposted, hw]

end

/-! ### Loads -/

section
variable (hfault : accessFault p h a 4 5 false false = none)
include hfault

theorem loadAt_cached {core : Nat} (hmain : isMain a.pa = true) (hby : bypassed p h a = false) (hcore : coreOfHart p h = some core) :
    loadAt h a r sg p = cachedLoad h core a r sg p := by
  unfold isMain at hmain
  cases hreg : regionOf (offOf a.pa) <;> simp_all [loadAt]

theorem loadAt_bypassed (hmain : isMain a.pa = true) (hby : bypassed p h a = true) : loadAt h a r sg p = ncLoad h r a sg p := by
  unfold isMain at hmain
  cases hreg : regionOf (offOf a.pa) <;> simp_all [loadAt]

theorem loadAt_io {g : Nat} (hreg : regionOf (offOf a.pa) = .io g) (hearly : a.early = false) (hhome : homeOf a.pa = myId p) :
    loadAt h a r sg p = ioLoadAt h g r a sg p (ioAt p g (ownerOf p h) a.pa a.size) := by
  simp [loadAt, hfault, hreg, hearly, hhome, ioLoad]

theorem loadAt_control (hreg : regionOf (offOf a.pa) = .control) (hearly : a.early = false) (hhome : homeOf a.pa = myId p) :
    loadAt h a r sg p = endAccess h a.more (windowAccess h (offOf a.pa - 0x3FF000000000) a.size r sg false 0 p) := by
  simp [loadAt, hfault, hreg, hearly, hhome]

theorem loadAt_far {g : Nat} (hreg : regionOf (offOf a.pa) = .control ∨ regionOf (offOf a.pa) = .io g) (hearly : a.early = false)
    (hhome : homeOf a.pa ≠ myId p) : loadAt h a r sg p = farAccess h (homeOf a.pa) 3 r a sg 0 0 0 p := by
  rcases hreg with hreg | hreg <;> simp [loadAt, hfault, hreg, hearly, hhome]

/-- An access that is not cached waits until it is the oldest. -/
theorem loadAt_early (hnc : isMain a.pa = false ∨ bypassed p h a = true) (hearly : a.early = true) : loadAt h a r sg p = p := by
  unfold isMain at hnc
  cases hreg : regionOf (offOf a.pa) <;> simp_all [loadAt, ncLoad]

end

section
variable {tag line : Nat} (htag : tag = ownerOf p h) (hline : line = lineOf a.pa) (hearly : a.early = false)
include htag hline hearly

theorem ncLoad_refused (hreach : mayReach p tag line = false) : ncLoad h r a sg p = raise h 5 a.va (refuseLine a.pa tag p) := by
  subst htag hline
  simp [ncLoad, hearly, hreach]

variable (hreach : mayReach p tag line = true)
include hreach

theorem ncLoad_held (hclear : ncClear p tag line false = false) : ncLoad h r a sg p = ncOpen (.hart h) tag line false p := by
  subst htag hline
  simp [ncLoad, hearly, hreach, hclear]

variable (hclear : ncClear p tag line false = true)
include hclear

theorem ncLoad_reads {x : Nat} (hcur : currentLine (.hart h) line tag p = (s1, .data x false)) :
    ncLoad h r a sg p = retire h a (deliverLoad h r a.size sg (lineGet x (a.pa % 64) a.size) s1) := by
  subst htag hline
  simp [ncLoad, hearly, hreach, hclear, hcur]

theorem ncLoad_poisoned {x : Nat} (hcur : currentLine (.hart h) line tag p = (s1, .data x true)) :
    ncLoad h r a sg p = raise h 19 a.va s1 := by
  subst htag hline
  simp [ncLoad, hearly, hreach, hclear, hcur]

theorem ncLoad_waits (hcur : currentLine (.hart h) line tag p = (s1, .wait)) : ncLoad h r a sg p = s1 := by
  subst htag hline
  simp [ncLoad, hearly, hreach, hclear, hcur]

theorem ncLoad_far (hcur : currentLine (.hart h) line tag p = (s1, .far)) :
    ncLoad h r a sg p = farAccess h (outDev p line) 3 r a sg 0 0 0 s1 := by
  subst htag hline
  simp [ncLoad, hearly, hreach, hclear, hcur]

end

theorem cachedLoad_found {core : Nat} {ds : List Nat}
    (hl : getLines core (ownerOf p h) false a.early (partsOf a) (meet h core (ownerOf p h) a p) = (s1, ds, none)) :
    cachedLoad h core a r sg p = retire h a (fillFirst core a (deliverLoad h r a.size sg (joinParts (partsOf a) ds) s1)) := by
  simp only [cachedLoad, hl]

theorem cachedLoad_failed {core i : Nat} {g : Got} {ds : List Nat}
    (hl : getLines core (ownerOf p h) false a.early (partsOf a) (meet h core (ownerOf p h) a p) = (s1, ds, some (i, g))) :
    cachedLoad h core a r sg p = failed h a 5 i g s1 := by
  simp only [cachedLoad, hl]

/-! ### Stores -/

section
variable (hfault : accessFault p h a 6 7 false false = none)
include hfault

theorem storeAt_cached {core : Nat} (hmain : isMain a.pa = true) (hby : bypassed p h a = false) (hcore : coreOfHart p h = some core) :
    storeAt h a v y p = cachedStore h core a v y p := by
  unfold isMain at hmain
  cases hreg : regionOf (offOf a.pa) <;> simp_all [storeAt]

theorem storeAt_bypassed (hmain : isMain a.pa = true) (hby : bypassed p h a = true) : storeAt h a v y p = ncStore h a v y p := by
  unfold isMain at hmain
  cases hreg : regionOf (offOf a.pa) <;> simp_all [storeAt]

theorem storeAt_io {g : Nat} (hreg : regionOf (offOf a.pa) = .io g) (hearly : a.early = false) (hhome : homeOf a.pa = myId p) :
    storeAt h a v y p = ioStoreAt h g a v p (ioAt p g (ownerOf p h) a.pa a.size) := by
  simp [storeAt, hfault, hreg, hearly, hhome, ioStore]

theorem storeAt_control (hreg : regionOf (offOf a.pa) = .control) (hearly : a.early = false) (hhome : homeOf a.pa = myId p) :
    storeAt h a v y p = presentWrite h (fun b => endAccess h a.more
      (windowAccess h (offOf a.pa - 0x3FF000000000) a.size 0 false true v b)) p := by
  simp [storeAt, hfault, hreg, hearly, hhome]

theorem storeAt_far {g : Nat} (hreg : regionOf (offOf a.pa) = .control ∨ regionOf (offOf a.pa) = .io g) (hearly : a.early = false)
    (hhome : homeOf a.pa ≠ myId p) :
    storeAt h a v y p = presentWrite h (fun b => endAccess h a.more (farAccess h (homeOf a.pa) 4 0 a false v 0 0 b)) p := by
  rcases hreg with hreg | hreg <;> simp [storeAt, hfault, hreg, hearly, hhome]

theorem storeAt_early (hnc : isMain a.pa = false ∨ bypassed p h a = true) (hearly : a.early = true) : storeAt h a v y p = p := by
  unfold isMain at hnc
  cases hreg : regionOf (offOf a.pa) <;> simp_all [storeAt, ncStore]

end

section
variable {tag line : Nat} (htag : tag = ownerOf p h) (hline : line = lineOf a.pa) (hearly : a.early = false)
include htag hline hearly

theorem ncStore_refused (hreach : mayReach p tag line = false) : ncStore h a v y p = raise h 7 a.va (refuseLine a.pa tag p) := by
  subst htag hline
  simp [ncStore, hearly, hreach]

variable (hreach : mayReach p tag line = true)
include hreach

theorem ncStore_held (hclear : ncClear p tag line true = false) : ncStore h a v y p = ncOpen (.hart h) tag line true p := by
  subst htag hline
  simp [ncStore, hearly, hreach, hclear]

variable (hclear : ncClear p tag line true = true)
include hclear

section
variable (hown : ownDram p line = true)
include hown

theorem ncStore_writes {x : Nat} (hcur : currentLine (.hart h) line tag p = (s1, .data x false)) : ncStore h a v y p =
    presentWrite h (fun b => retire h a (refetch h [line] y
      (writeAtHome (.hart h) line tag (linePut x (a.pa % 64) a.size v) b))) s1 := by
  subst htag hline
  simp [ncStore, hearly, hreach, hclear, hown, hcur]

theorem ncStore_poisoned {x : Nat} (hcur : currentLine (.hart h) line tag p = (s1, .data x true)) :
    ncStore h a v y p = raise h 19 a.va s1 := by
  subst htag hline
  simp [ncStore, hearly, hreach, hclear, hown, hcur]

theorem ncStore_waits (hcur : currentLine (.hart h) line tag p = (s1, .wait)) : ncStore h a v y p = s1 := by
  subst htag hline
  simp [ncStore, hearly, hreach, hclear, hown, hcur]

end

section
variable {n : Nat} (hn : n = homeSlice p tag line) (hown : ownDram p line = false) (hwaits : hartWaits p h = false)
include hn hown hwaits

/-- A store to another home is posted, and done with its request. -/
theorem ncStore_posts (hpage : a.pbmt ≠ 2) : ncStore h a v y p = presentWrite h (fun b => retire h a (refetch h [line] y
    (farAccess h (outDev b line) 4 0 a false v 0 0 (breakResv (some h) line (flushLine n line b))))) p := by
  have hposted : posted 4 a = true := by simp [posted, hpage]
  subst htag hline hn
  simp [ncStore, hearly, hreach, hclear, hown, hwaits, hposted]

/-- One under page type IO is awaited. -/
theorem ncStore_asks (hmain : isMain a.pa = true) (hpage : a.pbmt = 2) : ncStore h a v y p = presentWrite h (fun b =>
    refetch h [line] y (farAccess h (outDev b line) 4 0 a false v 0 0 (breakResv (some h) line (flushLine n line b)))) p := by
  have hposted : posted 4 a = false := by simp [posted, hpage, hmain]
  subst htag hline hn
  simp [ncStore, hearly, hreach, hclear, hown, hwaits, hposted]

end

end

theorem cachedStore_found {core : Nat} {ds : List Nat}
    (hl : getLines core (ownerOf p h) true a.early (partsOf a) (meet h core (ownerOf p h) a p) = (s1, ds, none)) :
    cachedStore h core a v y p = presentWrite h (fun b => retire h a (refetch h ((partsOf a).map fun x => lineOf x.1) y
      (fillFirst core a (((partsOf a).map fun x => lineOf x.1).foldl (fun x l => breakResv (some h) l x)
        (storeParts core (ownerOf p h) (partsOf a) v b))))) s1 := by
  simp only [cachedStore, hl]

theorem cachedStore_failed {core i : Nat} {g : Got} {ds : List Nat}
    (hl : getLines core (ownerOf p h) true a.early (partsOf a) (meet h core (ownerOf p h) a p) = (s1, ds, some (i, g))) :
    cachedStore h core a v y p = failed h a 7 i g s1 := by
  simp only [cachedStore, hl]

theorem presentWrite_clear {f : State → State} (hclear : noInvert p h) : presentWrite h f p = f p := by
  unfold presentWrite
  split
  next q hq => exact presentPair_unarmed f (hclear q hq)
  next => rfl

/-! ### Atomics -/

section
variable {op : AmoOp} {cmp : Nat}

section
variable (hmain : isMain a.pa = true)
  (hfault : accessFault p h a (if op = .lr then 4 else 6) (if op = .lr then 5 else 7) true (op == .lr || op == .sc) = none)
include hmain hfault

theorem amoAt_cached {core : Nat} (hby : bypassed p h a = false) (hcore : coreOfHart p h = some core) :
    amoAt h a op v cmp r y p = amoCached h core a op v cmp r y p := by
  simp [amoAt, hfault, hmain, hby, hcore]

theorem amoAt_bypassed (hby : bypassed p h a = true) : amoAt h a op v cmp r y p = amoAtHome h a op v cmp r y p := by
  simp [amoAt, hfault, hmain, hby]

end

theorem amoCached_found {core d : Nat}
    (hl : getLine core (ownerOf p h) (lineOf a.pa) true a.early (meet h core (ownerOf p h) a p) = (s1, .line d)) :
    amoCached h core a op v cmp r y p = presentAmo h op (fun b => amoDone h a y
      (amoFinish h op a.size (lineGet d (a.pa % 64) a.size) r (lineOf a.pa) (putBytes core (ownerOf p h) (lineOf a.pa) (a.pa % 64) a.size
        (amoStore op a.size (lineGet d (a.pa % 64) a.size) v cmp)) (fillFirst core a b))) s1 := by
  simp only [amoCached, hl]

theorem amoCached_failed {core : Nat} {g : Got} (hg : ∀ d, g ≠ .line d)
    (hl : getLine core (ownerOf p h) (lineOf a.pa) true a.early (meet h core (ownerOf p h) a p) = (s1, g)) :
    amoCached h core a op v cmp r y p = failed h a (if op = .lr then 5 else 7) 0 g s1 := by
  cases g with
  | line d => exact absurd rfl (hg d)
  | wait => simp only [amoCached, hl]
  | refused => simp only [amoCached, hl]
  | poison => simp only [amoCached, hl]

theorem amoAtHome_early (hearly : a.early = true) : amoAtHome h a op v cmp r y p = p := by
  simp [amoAtHome, hearly]

section
variable {tag line : Nat} (htag : tag = ownerOf p h) (hline : line = lineOf a.pa) (hearly : a.early = false)
include htag hline hearly

theorem amoAtHome_refused (hreach : mayReach p tag line = false) : amoAtHome h a op v cmp r y p =
    raise h (if op = .lr then 5 else 7) a.va (refuseLine a.pa tag p) := by
  subst htag hline
  simp [amoAtHome, hearly, hreach]

variable (hreach : mayReach p tag line = true)
include hreach

theorem amoAtHome_held (hclear : ncClear p tag line true = false) : amoAtHome h a op v cmp r y p = ncOpen (.hart h) tag line true p := by
  subst htag hline
  simp [amoAtHome, hearly, hreach, hclear]

variable (hclear : ncClear p tag line true = true)
include hclear

section
variable (hown : ownLine p line = true)
include hown

theorem amoAtHome_performs {x : Nat} (hcur : currentLine (.hart h) line tag p = (s1, .data x false)) :
    amoAtHome h a op v cmp r y p = presentAmo h op (fun b => amoDone h a y
      (amoFinish h op a.size (lineGet x (a.pa % 64) a.size) r line (writeAtHome (.hart h) line tag (linePut x (a.pa % 64) a.size
        (amoStore op a.size (lineGet x (a.pa % 64) a.size) v cmp))) b)) s1 := by
  subst htag hline
  simp [amoAtHome, hearly, hreach, hclear, hown, hcur]

theorem amoAtHome_poisoned {x : Nat} (hcur : currentLine (.hart h) line tag p = (s1, .data x true)) :
    amoAtHome h a op v cmp r y p = raise h 19 a.va s1 := by
  subst htag hline
  simp [amoAtHome, hearly, hreach, hclear, hown, hcur]

theorem amoAtHome_waits (hcur : currentLine (.hart h) line tag p = (s1, .wait)) : amoAtHome h a op v cmp r y p = s1 := by
  subst htag hline
  simp [amoAtHome, hearly, hreach, hclear, hown, hcur]

theorem amoAtHome_fetches {n : Nat} (hn : n = homeSlice p tag line) (hcur : currentLine (.hart h) line tag p = (s1, .far)) :
    amoAtHome h a op v cmp r y p = amoFetch h n tag a s1 := by
  subst htag hline hn
  simp [amoAtHome, hearly, hreach, hclear, hown, hcur]

end

section
variable {n : Nat} (hn : n = homeSlice p tag line) (hown : ownLine p line = false) (hwaits : hartWaits p h = false)
include hn hown hwaits

theorem amoAtHome_asks (hlr : op ≠ .lr) (hheld : op ≠ .sc ∨ (hartOf p h).resv = some line) : amoAtHome h a op v cmp r y p =
    presentWrite h (fun b => refetch h [line] y (farAccess h (outDev b line) 8 r a true v (amoCode op) cmp (flushLine n line b))) p := by
  have hfails : ¬(op = .sc ∧ (hartOf p h).resv ≠ some line) := fun hc => hheld.elim (· hc.1) hc.2
  subst htag hline hn
  simp only [amoAtHome, hearly, hreach, hclear, hown, hwaits, hfails, presentAmo, hlr, Bool.false_eq_true, reduceCtorEq, if_false]

theorem amoAtHome_reserves (hlr : op = .lr) : amoAtHome h a op v cmp r y p =
    farAccess h (outDev p line) 8 r a true v (amoCode op) cmp (flushLine n line p) := by
  subst htag hline hn hlr
  simp [amoAtHome, hearly, hreach, hclear, hown, hwaits, presentAmo]

theorem amoAtHome_unreserved (hsc : op = .sc) (hheld : (hartOf p h).resv ≠ some line) : amoAtHome h a op v cmp r y p =
    endAccess h a.more (setX h r 1 p) := by
  subst htag hline hn hsc
  simp [amoAtHome, hearly, hreach, hclear, hown, hwaits, hheld]

end

end

end

end Sys2Proof.Machine
end

section
/-! What an access of a hart leaves besides its data: counts, notes, translations and free values (O19; R64 to R67, R74). -/
set_option Elab.async false
namespace Sys2Proof.Machine

/-! ### The steps of an access -/

/-- t is s with a step of an access of hart h taken that moves no data: of the hart what is counted and noted has changed, of the cores
neither L2 nor predictor, and what the homes keep for readers and the free values. -/
structure AccessStep (h : Nat) (s t : State) : Prop where
  hart : ∃ csr pend access, hartOf t h = { hartOf s h with csr := csr, pend := pend, access := access } ∧
    ∀ n, counterCsr n = false → tget 0 csr n = tget 0 (hartOf s h).csr n
  others : otherHarts h s t
  core : ∀ c, (coreOf t c).l2 = (coreOf s c).l2 ∧ (coreOf t c).pred = (coreOf s c).pred
  rest : ∃ m k f rs hs, t = { s with harts := m, cores := k, freeCtr := f, mem := { s.mem with reads := rs, held := hs } }

variable {h : Nat} {s t u : State}

theorem AccessStep.trans (a : AccessStep h s t) (b : AccessStep h t u) : AccessStep h s u where
  hart := by
    obtain ⟨c, p, x, ht, hc⟩ := a.hart
    obtain ⟨c', p', x', hu, hc'⟩ := b.hart
    refine ⟨c', p', x', by rw [hu, ht], fun n hn => (hc' n hn).trans ?_⟩
    rw [ht]
    exact hc n hn
  others := fun k hk => (b.others k hk).trans (a.others k hk)
  core := fun c => ⟨(b.core c).1.trans (a.core c).1, (b.core c).2.trans (a.core c).2⟩
  rest := by
    obtain ⟨m, k, f, rs, hs, rfl⟩ := a.rest
    obtain ⟨m', k', f', rs', hs', rfl⟩ := b.rest
    exact ⟨m', k', f', rs', hs', rfl⟩

theorem AccessStep.of_ended (a : AccessEnded h s t) : AccessStep h s t where
  hart := a.hart
  others := a.others
  core := fun c => by
    obtain ⟨m, rs, hs, rfl⟩ := a.rest
    exact ⟨rfl, rfl⟩
  rest := by
    obtain ⟨m, rs, hs, rfl⟩ := a.rest
    exact ⟨m, s.cores, s.freeCtr, rs, hs, rfl⟩

theorem AccessStep.refl (h : Nat) (s : State) : AccessStep h s s := .of_ended (.of_counted (.refl h s))

theorem AccessStep.of_counted (a : HartCounted h s t) : AccessStep h s t := .of_ended (.of_counted a)

theorem AccessStep.of_flushed (a : Flushed h s t) : AccessStep h s t where
  hart := by
    obtain ⟨csr, pend, hq, hcsr, -⟩ := a.hart
    exact ⟨csr, pend, _, hq, hcsr⟩
  others := a.others
  core := fun c => by
    obtain ⟨q, b, i, hc⟩ := a.core c
    rw [hc]
    exact ⟨rfl, rfl⟩
  rest := by
    obtain ⟨m, k, rs, hs, rfl⟩ := a.rest
    exact ⟨m, k, s.freeCtr, rs, hs, rfl⟩

theorem AccessStep.ite {p : Prop} [Decidable p] (ht : AccessStep h s t) (hu : AccessStep h s u) : AccessStep h s (if p then t else u) := by
  split
  · exact ht
  · exact hu

theorem AccessStep.freeNext (h : Nat) (s : State) : AccessStep h s (freeNext s) where
  hart := ⟨_, _, _, rfl, fun _ _ => rfl⟩
  others := fun _ _ => rfl
  core := fun _ => ⟨rfl, rfl⟩
  rest := ⟨_, _, _, _, _, rfl⟩

/-- A core's TLBs, first-level caches and queues may change. -/
theorem AccessStep.setCore (h core : Nat) {r : Core} (hl2 : r.l2 = (coreOf s core).l2) (hpred : r.pred = (coreOf s core).pred) :
    AccessStep h s (setCore core r s) where
  hart := ⟨_, _, _, rfl, fun _ _ => rfl⟩
  others := fun _ _ => rfl
  core := fun c => by
    by_cases hc : c = core
    · rw [hc, setCore_coreOf_same]
      exact ⟨hl2, hpred⟩
    · rw [setCore_coreOf_ne _ _ _ _ hc]
      exact ⟨rfl, rfl⟩
  rest := ⟨_, _, _, _, _, rfl⟩

theorem AccessStep.noteCodes (h : Nat) (cs : List Nat) (s : State) : AccessStep h s (noteCodes h cs s) := .of_ended (.setAccess h s _)

theorem holdData_kept (k walk : Nat) (e : Option (Nat × Nat)) (c : Core) : (holdData k walk e c).l2 = c.l2 ∧ (holdData k walk e c).pred = c.pred := by
  cases e <;> exact ⟨rfl, rfl⟩

theorem holdFetch_kept (k : Nat) (e : Option Nat) (c : Core) : (holdFetch k e c).l2 = c.l2 ∧ (holdFetch k e c).pred = c.pred := by
  cases e <;> exact ⟨rfl, rfl⟩

theorem AccessStep.translate (h : Nat) (a : MemAcc) (s : State) : AccessStep h s (translate h a s) := by
  unfold Machine.translate
  split
  next core _ =>
    refine ((AccessStep.setCore h core ?_ ?_).trans (.noteCodes h _ _)).trans (.freeNext h _)
    · exact (holdFetch_kept _ _ _).1.trans (holdData_kept _ _ _ _).1
    · exact (holdFetch_kept _ _ _).2.trans (holdData_kept _ _ _ _).2
  next => exact .refl h s

theorem AccessStep.meet (h core tag : Nat) (a : MemAcc) (s : State) : AccessStep h s (meet h core tag a s) := by
  refine .trans ?_ (.noteCodes h _ _)
  refine (AccessStep.ite ?_ (.refl h s)).trans (.of_counted (.countEvent h 0x0101 _))
  exact .of_counted (.countEvent h 0x0102 s)

theorem AccessStep.fillFirst (h core : Nat) (a : MemAcc) (s : State) : AccessStep h s (fillFirst core a s) := by
  unfold Machine.fillFirst
  refine .trans ?_ (.freeNext h _)
  exact .setCore h core rfl rfl

theorem AccessStep.endAccess (h : Nat) (more : Bool) (s : State) : AccessStep h s (endAccess h more s) := .of_ended (.endAccess h more s)

theorem AccessStep.refetch (h : Nat) (lines younger : List Nat) (s : State) : AccessStep h s (refetch h lines younger s) :=
  .ite ((AccessStep.of_flushed (.flush h s)).trans (.of_counted (.countEvent h 0x0018 _))) (.refl h s)

theorem AccessStep.holdMiss (h core line : Nat) (excl : Bool) (s : State) : AccessStep h s (holdMiss core line excl s) := by
  unfold Machine.holdMiss
  exact .ite (.refl h s) (.setCore h core rfl rfl)

/-! ### What they keep -/

/-- A part of the state other than the harts, the cores, the free values and what the homes keep for readers stands. -/
theorem AccessStep.part {α : Type} (a : AccessStep h s t) (v : State → α)
    (hv : ∀ y m k f rs hs, v { y with harts := m, cores := k, freeCtr := f, mem := { y.mem with reads := rs, held := hs } } = v y) :
    v t = v s := by
  obtain ⟨m, k, f, rs, hs, rfl⟩ := a.rest
  exact hv s m k f rs hs

theorem AccessStep.regs (a : AccessStep h s t) : t.regs = s.regs := a.part State.regs fun _ _ _ _ _ _ => rfl

theorem AccessStep.l2Of (a : AccessStep h s t) (c line : Nat) : l2Of t c line = l2Of s c line := by
  rw [Machine.l2Of, (a.core c).1, Machine.l2Of]

theorem AccessStep.dramKept (a : AccessStep h s t) : dramKept s t := by
  obtain ⟨m, k, f, rs, hs, rfl⟩ := a.rest
  exact rfl

theorem AccessStep.x (a : AccessStep h s t) : (hartOf t h).x = (hartOf s h).x := by
  obtain ⟨csr, pend, access, ht, -⟩ := a.hart
  rw [ht]

theorem AccessStep.pc (a : AccessStep h s t) : (hartOf t h).pc = (hartOf s h).pc := by
  obtain ⟨csr, pend, access, ht, -⟩ := a.hart
  rw [ht]

theorem AccessStep.fp (a : AccessStep h s t) : (hartOf t h).fp = (hartOf s h).fp := by
  obtain ⟨csr, pend, access, ht, -⟩ := a.hart
  rw [ht]

theorem AccessStep.vec (a : AccessStep h s t) : (hartOf t h).vec = (hartOf s h).vec := by
  obtain ⟨csr, pend, access, ht, -⟩ := a.hart
  rw [ht]

theorem AccessStep.resv (a : AccessStep h s t) : (hartOf t h).resv = (hartOf s h).resv := by
  obtain ⟨csr, pend, access, ht, -⟩ := a.hart
  rw [ht]

theorem AccessStep.hartKept (a : AccessStep h s t) : hartKept h s t := by
  obtain ⟨csr, pend, access, ht, hc⟩ := a.hart
  unfold Machine.hartKept csrsKept
  rw [ht]
  exact ⟨rfl, rfl, rfl, rfl, rfl, hc⟩

/-- What a hart has got stays, and what it holds of the access. -/
theorem AccessStep.gotX {y : State} {r v : Nat} (a : AccessStep h t u) (hg : gotX h r v y t) : Machine.gotX h r v y u := fun i hi => by
  rw [a.x]
  exact hg i hi

/-! ### The hart at the access's instruction -/

def atPc (h pc : Nat) (s : State) : State := setHart h { hartOf s h with pc := pc } s

theorem hartOf_atPc (h pc : Nat) (s : State) : hartOf (atPc h pc s) h = { hartOf s h with pc := pc } := setHart_hartOf_same _ _ _

theorem atPc_others (h pc : Nat) (s : State) : otherHarts h s (atPc h pc s) := fun _ hk => setHart_hartOf_ne _ _ _ _ hk

theorem AccessStep.setPc (h pc : Nat) (x : Option Access) (s : State) :
    AccessStep h (atPc h pc s) (setHart h { hartOf s h with pc := pc, access := x } s) where
  hart := ⟨(hartOf s h).csr, (hartOf s h).pend, x, by rw [setHart_hartOf_same, hartOf_atPc], fun _ _ => by rw [hartOf_atPc]⟩
  others := fun k hk => (setHart_hartOf_ne _ _ _ _ hk).trans (atPc_others h pc s k hk).symm
  core := fun _ => ⟨rfl, rfl⟩
  rest := ⟨_, s.cores, s.freeCtr, s.mem.reads, s.mem.held, rfl⟩

theorem AccessStep.present (h : Nat) (a : MemAcc) (fp : Bool) (s : State) : AccessStep h (atPc h a.pc s) (present h a fp s) :=
  (AccessStep.setPc h a.pc _ s).trans (.noteCodes h _ _)

section
variable {pc : Nat} (a : AccessStep h (atPc h pc s) t)
include a

theorem AccessStep.started_regs : t.regs = s.regs := a.regs

theorem AccessStep.started_low : LowKept s t := .of_regs a.regs

theorem AccessStep.started_others : otherHarts h s t := fun k hk => (a.others k hk).trans (atPc_others h pc s k hk)

theorem AccessStep.started_hartKept : Machine.hartKept h s t := by
  have hk := a.hartKept
  simpa only [Machine.hartKept, csrsKept, hartOf_atPc] using hk

theorem AccessStep.started_x : (hartOf t h).x = (hartOf s h).x := by
  rw [a.x, hartOf_atPc]

theorem AccessStep.started_pc : (hartOf t h).pc = pc := by
  rw [a.pc, hartOf_atPc]

theorem AccessStep.started_l2 (c line : Nat) : Machine.l2Of t c line = Machine.l2Of s c line := a.l2Of c line

theorem AccessStep.started_pairs : t.pairs = s.pairs := a.part State.pairs fun _ _ _ _ _ _ => rfl

theorem AccessStep.started_csrOf {n : Nat} (hn : counterCsr n = false) : csrOf t h n = csrOf s h n := by
  obtain ⟨-, -, -, -, -, hcsr⟩ := a.started_hartKept
  exact csrOf_of_kept (a.part State.chip fun _ _ _ _ _ _ => rfl) hcsr hn

theorem AccessStep.started_coreOfHart : coreOfHart t h = coreOfHart s h := a.started_low.coreOfHart a.started_pairs h

theorem AccessStep.started_coresOfHart : coresOfHart t h = coresOfHart s h := a.started_low.coresOfHart a.started_pairs h

theorem AccessStep.started_pairOfHart : pairOfHart t h = pairOfHart s h := a.started_low.pairOfHart h

theorem AccessStep.started_ownerOf : ownerOf t h = ownerOf s h := by
  have hhart : (hartOf t h).owner = (hartOf s h).owner := by
    obtain ⟨csr, pend, access, ht, -⟩ := a.hart
    rw [ht, hartOf_atPc]
  unfold ownerOf
  rw [a.started_pairOfHart, a.started_low.slotSplit, hhart]
  cases pairOfHart s h with
  | none => rfl
  | some p =>
    dsimp only
    rw [rd_of_regs a.started_regs, rd_of_regs a.started_regs]

theorem AccessStep.started_bypassed (x : MemAcc) : bypassed t h x = bypassed s h x := by
  rw [bypassed, byPage, rdB, rd_of_regs a.started_regs]
  rfl

theorem AccessStep.started_invert (p : Nat) : invertArmed t p = invertArmed s p := by
  rw [invertArmed, pairOf, a.started_pairs, rd_of_regs a.started_regs]
  rfl

/-! ### Its exception, if it has one -/

theorem AccessStep.started_dataMode : dataMode t h = dataMode s h := by
  obtain ⟨hpriv, -⟩ := a.started_hartKept
  unfold dataMode
  rw [hpriv, a.started_csrOf (by decide)]

theorem AccessStep.started_pmpCfg {k : Nat} (hk : k < 64) : pmpCfg t h k = pmpCfg s h k := by
  rw [pmpCfg, a.started_csrOf (counterCsr_cfg hk), pmpCfg]

theorem AccessStep.started_pmpRange {k : Nat} (hk : k < 64) : pmpRange t h k = pmpRange s h k := by
  have hcsr (n : Nat) (hn : 0x3AF ≤ n ∧ n < 0x3F0) : csrOf t h n = csrOf s h n := a.started_csrOf (by
    simp only [counterCsr, Bool.or_eq_false_iff, Bool.and_eq_false_iff, decide_eq_false_iff_not]
    omega)
  unfold pmpRange
  rw [a.started_pmpCfg hk, hcsr _ (by omega), hcsr _ (by omega)]

theorem AccessStep.started_pmpDenies (pa n : Nat) (read write : Bool) : pmpDenies t h pa n read write = pmpDenies s h pa n read write := by
  have hsec (k : Nat) : secBit t h k = secBit s h k := by rw [secBit, a.started_csrOf (by decide), secBit]
  have hhit (l : List Nat) (hl : ∀ k ∈ l, k < 64) (g : Nat → Nat × Nat → Option (Nat × Bool)) :
      (l.findSome? fun k => (pmpRange t h k).bind (g k)) = l.findSome? fun k => (pmpRange s h k).bind (g k) := by
    induction l with
    | nil => rfl
    | cons k l ih =>
      rw [List.findSome?_cons, List.findSome?_cons, a.started_pmpRange (hl k List.mem_cons_self), ih fun j hj => hl j (List.mem_cons_of_mem _ hj)]
  have hfound := hhit (List.range 64) (fun k hk => List.mem_range.mp hk)
    (fun k x => if x.1 < pa + n ∧ pa < x.2 then some (k, decide (x.1 ≤ pa) && decide (pa + n ≤ x.2)) else none)
  unfold pmpDenies
  simp only [a.started_dataMode, hsec, hfound]
  split
  next k whole hk =>
    obtain ⟨j, hj, hjk⟩ := List.exists_of_findSome?_eq_some hk
    obtain ⟨x, -, hx⟩ := Option.bind_eq_some_iff.mp hjk
    have hlt : k < 64 := by
      split at hx
      · obtain ⟨rfl, -⟩ := Prod.mk.inj (Option.some.inj hx)
        exact List.mem_range.mp hj
      · cases hx
    rw [a.started_pmpCfg hlt]
  next => rfl

theorem AccessStep.started_populated (pa : Nat) : populated t pa = populated s pa := a.part (populated · pa) fun _ _ _ _ _ _ => rfl

theorem AccessStep.started_attrFault (x : MemAcc) (pa pbmt ls ac : Nat) (amo lrsc : Bool) :
    attrFault t h x pa pbmt ls ac amo lrsc = attrFault s h x pa pbmt ls ac amo lrsc :=
  a.part (fun y => attrFault y h x pa pbmt ls ac amo lrsc) fun _ _ _ _ _ _ => rfl

theorem AccessStep.started_partFault (x : MemAcc) (ls ac : Nat) (amo lrsc : Bool) (fault : Option Nat) (pa n pbmt : Nat) :
    partFault t h x ls ac amo lrsc fault pa n pbmt = partFault s h x ls ac amo lrsc fault pa n pbmt := by
  unfold partFault
  rw [a.started_populated, a.started_pmpDenies, a.started_attrFault]

theorem AccessStep.started_accessFault (x : MemAcc) (ls ac : Nat) (amo lrsc : Bool) :
    accessFault t h x ls ac amo lrsc = accessFault s h x ls ac amo lrsc := by
  unfold accessFault
  simp only [a.started_partFault]

theorem AccessStep.started_noWalk {x : MemAcc} (hcore : ∀ c, (coreOf t c).l2tlb = (coreOf s c).l2tlb) (hw : noWalk s h x) :
    noWalk t h x := by
  have hspace (p : Priv) : spaceOf t h p = spaceOf s h p := by
    unfold spaceOf
    rw [a.started_csrOf (by decide), a.started_csrOf (by decide), a.started_csrOf (by decide)]
  have hentry : tlbEntry t h x = tlbEntry s h x := by
    unfold tlbEntry pageKey
    rw [a.started_dataMode, hspace]
  have hwalker : walker t h x = walker s h x := by
    unfold walker
    rw [a.started_coreOfHart, hentry]
    cases coreOfHart s h with
    | none => rfl
    | some c =>
      cases tlbEntry s h x with
      | none => rfl
      | some e =>
        dsimp only
        rw [hcore, rdB, rd_of_regs a.started_regs, rdB]
  rcases hw with hw | hw
  · exact .inl (hwalker.trans hw)
  · exact .inr hw

end

end Sys2Proof.Machine
end

section
/-! Accesses of a main core that its own L2 answers, and those that raise an exception or wait early (O19; R66 to R74, R109). -/
set_option Elab.async false
namespace Sys2Proof.Machine

variable {s t u m : State} {h core : Nat} {a : MemAcc} {l : CLine}

/-! ### The access at the core -/

/-- The access presented, translated and met, its line in the core. -/
def metAt (h core : Nat) (a : MemAcc) (fp : Bool) (s : State) : State :=
  meet h core (ownerOf s h) a (translate h a (present h a fp s))

theorem step_translated (h : Nat) (a : MemAcc) (fp : Bool) (s : State) :
    AccessStep h (atPc h a.pc s) (translate h a (present h a fp s)) := (AccessStep.present h a fp s).trans (.translate h a _)

theorem step_metAt (h core : Nat) (a : MemAcc) (fp : Bool) (s : State) : AccessStep h (atPc h a.pc s) (metAt h core a fp s) :=
  (step_translated h a fp s).trans (.meet h core _ a _)

theorem translated_mem (h : Nat) (a : MemAcc) (fp : Bool) (s : State) : (translate h a (present h a fp s)).mem = s.mem :=
  ((translate_keeps h a _ (keeps_refl _ _) (Nat.or_self _)).part .mem rfl).trans
    ((present_keeps h a fp s (keeps_refl _ s) (Nat.or_self _)).part .mem rfl)

theorem metAt_mem (h core : Nat) (a : MemAcc) (fp : Bool) (s : State) : (metAt h core a fp s).mem = s.mem :=
  ((meet_keeps h core _ a _ (keeps_refl _ _) (Nat.or_self _)).part .mem rfl).trans (translated_mem h a fp s)

theorem noWalk_present (fp : Bool) (hw : noWalk s h a) : noWalk (present h a fp s) h a :=
  (AccessStep.present h a fp s).started_noWalk (fun _ => rfl) hw

theorem partsOf_one (h1 : a.size ≤ 64 - a.pa % 64) : partsOf a = [(a.pa, a.size)] := if_pos h1

theorem getLine_hit {tag line : Nat} {excl early : Bool} (hl : l2Of m core line = some l) (htag : l.tag = tag)
    (hst : excl = true → l.st ≠ .s) (hpoison : l.poison = false) : getLine core tag line excl early m = (m, .line l.data) := by
  have hhit : hitOf m core tag line excl = some l := by
    rw [hitOf, hl, htag.symm]
    cases excl with
    | false => simp
    | true => simp [hst rfl]
  unfold getLine
  rw [hhit]
  simp [gotHit, hpoison]

theorem getLines_hit {tag pa n : Nat} {excl early : Bool} (hl : l2Of m core (lineOf pa) = some l) (htag : l.tag = tag)
    (hst : excl = true → l.st ≠ .s) (hpoison : l.poison = false) :
    getLines core tag excl early [(pa, n)] m = (m, [l.data], none) := by
  simp only [getLines, getLine_hit hl htag hst hpoison, Option.map_none]

/-- An access of a line that its core holds: where it goes on. -/
theorem hit_facts (fp : Bool) (hit : l2Hit s h a core l) :
    bypassed (translate h a (present h a fp s)) h a = false ∧ coreOfHart (translate h a (present h a fp s)) h = some core ∧
    ownerOf (translate h a (present h a fp s)) h = ownerOf s h ∧ l2Of (metAt h core a fp s) core (lineOf a.pa) = some l := by
  obtain ⟨-, -, -, -, hby, hcore, -, hl, -, -⟩ := hit
  have ht := step_translated h a fp s
  exact ⟨(ht.started_bypassed a).trans hby, ht.started_coreOfHart.trans hcore, ht.started_ownerOf,
    ((step_metAt h core a fp s).started_l2 core _).trans hl⟩

/-! ### What a step of an access leaves around the data it moves -/

theorem dramKept.trans (a : dramKept s t) (b : dramKept t u) : dramKept s u := by
  unfold dramKept at a b ⊢
  rw [b, a]

theorem hartKept.trans (a : hartKept h s t) (b : hartKept h t u) : hartKept h s u := by
  obtain ⟨hpriv, hfp, hvec, hresv, hexc, hcsr⟩ := a
  obtain ⟨hpriv', hfp', hvec', hresv', hexc', hcsr'⟩ := b
  exact ⟨hpriv'.trans hpriv, hfp'.trans hfp, hvec'.trans hvec, hresv'.trans hresv, hexc'.trans hexc, fun n hn => (hcsr' n hn).trans (hcsr n hn)⟩

/-- An access that changes its own hart alone. -/
theorem AccessStep.around {pc : Nat} (a : AccessStep h (atPc h pc s) m) (ht : ∃ k, t = { m with harts := k }) (hothers : otherHarts h m t)
    (b : AccessStep h t u) : otherHarts h s u ∧ sameL2 s u ∧ samePart .regs s u ∧ samePart .slices s u ∧ Machine.dramKept s u ∧
      samePart .outs s u := by
  obtain ⟨k, rfl⟩ := ht
  have hmem : Machine.dramKept s m := a.dramKept
  exact ⟨fun j hj => (b.others j hj).trans ((hothers j hj).trans (a.started_others j hj)), fun c n => (b.l2Of c n).trans (a.l2Of c n),
    b.regs.trans a.regs, (b.part State.slices fun _ _ _ _ _ _ => rfl).trans (a.part State.slices fun _ _ _ _ _ _ => rfl),
    hmem.trans b.dramKept, (b.part State.outs fun _ _ _ _ _ _ => rfl).trans (a.part State.outs fun _ _ _ _ _ _ => rfl)⟩

theorem trainPrefetch_quiet (hquiet : quiet s h) (hregs : u.regs = s.regs) : trainPrefetch h a u = u := by
  obtain ⟨h1, h2⟩ := hquiet
  refine if_neg ?_
  rw [rdB, rd_of_regs hregs, rdB, rd_of_regs hregs, ← rdB, ← rdB, h1, h2]
  decide

/-! ### Loads -/

theorem load_performed {r : Nat} {sg : Bool} (hit : l2Hit s h a core l) (hfault : accessFault s h a 4 5 false false = none) : ∃ m u,
    AccessStep h (atPc h a.pc s) m ∧ AccessStep h (deliverLoad h r a.size sg (lineGet l.data (a.pa % 64) a.size) m) u ∧
    exec (.mainCoreLoad h a r sg) s = .next (trainPrefetch h a u) := by
  obtain ⟨hruns, hsize, hwalk, hmain, -, -, hone, -, htag, hpoison⟩ := id hit
  have ht := step_translated h a (decide (32 ≤ r ∧ r < 64)) s
  obtain ⟨hby, hcore, howner, hl⟩ := hit_facts (decide (32 ≤ r ∧ r < 64)) hit
  have hfault' := (ht.started_accessFault a 4 5 false false).trans hfault
  refine ⟨metAt h core a (decide (32 ≤ r ∧ r < 64)) s, _, step_metAt _ _ _ _ _, (AccessStep.fillFirst h core a _).trans (.endAccess h a.more _), ?_⟩
  rw [load_walked hruns hsize, walked_goesOn _ rfl (noWalk_present _ hwalk) hfault', loadAt_cached hfault' hmain hby hcore,
    cachedLoad_found (ds := [l.data]) (s1 := metAt h core a (decide (32 ≤ r ∧ r < 64)) s)]
  · rw [partsOf_one hone]
    simp only [joinParts, Nat.zero_mul, Nat.add_zero]
    rfl
  · rw [partsOf_one hone, howner]
    exact getLines_hit hl htag nofun hpoison

theorem setX_hart (h r v : Nat) (s : State) : ∃ x, hartOf (setX h r v s) h = { hartOf s h with x := x } := by
  unfold setX
  split
  · exact ⟨_, rfl⟩
  · exact ⟨_, setHart_hartOf_same _ _ _⟩

theorem setX_only (h r v : Nat) (s : State) : ∃ k, setX h r v s = { s with harts := k } := by
  unfold setX
  split
  · exact ⟨_, rfl⟩
  · exact ⟨_, rfl⟩

theorem hartKept_setX (h r v : Nat) (s : State) : hartKept h s (setX h r v s) := by
  obtain ⟨x, hx⟩ := setX_hart h r v s
  unfold hartKept csrsKept
  rw [hx]
  exact ⟨rfl, rfl, rfl, rfl, rfl, fun _ _ => rfl⟩

theorem setX_pc (h r v : Nat) (s : State) : (hartOf (setX h r v s) h).pc = (hartOf s h).pc := by
  obtain ⟨x, hx⟩ := setX_hart h r v s
  rw [hx]

theorem gotX.of_x {r v : Nat} (hg : gotX h r v m t) (hx : (hartOf m h).x = (hartOf s h).x) : gotX h r v s t := by
  unfold gotX at hg ⊢
  rwa [hx] at hg

/-- What a load has delivered stands with its hart. -/
def withLoaded (h v : Nat) (s : State) : State := setHart h { hartOf s h with loaded := v } s

theorem hartOf_withLoaded (h v : Nat) (s : State) : hartOf (withLoaded h v s) h = { hartOf s h with loaded := v } := setHart_hartOf_same _ _ _

theorem withLoaded_others (h v : Nat) (s : State) : otherHarts h s (withLoaded h v s) := fun _ hk => setHart_hartOf_ne _ _ _ _ hk

theorem hartKept_withLoaded (h v : Nat) (s : State) : hartKept h s (withLoaded h v s) := by
  unfold hartKept csrsKept
  rw [hartOf_withLoaded]
  exact ⟨rfl, rfl, rfl, rfl, rfl, fun _ _ => rfl⟩

/-- A register with an element of n bits put at a power of two. -/
def elementPut (old sh n x : Nat) : Nat := old - old / sh % 2 ^ n * sh + x % 2 ^ n * sh

/-- It reads back there. -/
theorem elementPut_reads (old n x : Nat) {sh : Nat} (hsh : 0 < sh) : elementPut old sh n x / sh % 2 ^ n = x % 2 ^ n := by
  have hrest : old / sh - old / sh % 2 ^ n = 2 ^ n * (old / sh / 2 ^ n) := by
    have := Nat.div_add_mod (old / sh) (2 ^ n)
    omega
  rw [elementPut, Nat.add_mul_div_right _ _ hsh, Nat.mul_comm (old / sh % 2 ^ n), Nat.sub_mul_div, hrest, Nat.mul_add_mod, Nat.mod_mod]

section
variable (hit : l2Hit s h a core l) (hfault : accessFault s h a 4 5 false false = none) (r : Nat) (sg : Bool)
include hit hfault

theorem load_integer (hr : r < 32) : ∃ t u, exec (.mainCoreLoad h a r sg) s = .next t ∧ t = trainPrefetch h a u ∧ (quiet s h → t = u) ∧
    gotX h r (extend a.size sg (lineGet l.data (a.pa % 64) a.size)) s u ∧ (hartOf u h).pc = a.pc ∧ hartKept h s u ∧
    otherHarts h s u ∧ sameL2 s u ∧ samePart .regs s u ∧ samePart .slices s u ∧ dramKept s u ∧ samePart .outs s u := by
  obtain ⟨m, u, hm, hu, hexec⟩ := load_performed (r := r) (sg := sg) hit hfault
  have hdel : deliverLoad h r a.size sg (lineGet l.data (a.pa % 64) a.size) m =
      setX h r (extend a.size sg (lineGet l.data (a.pa % 64) a.size)) (withLoaded h (lineGet l.data (a.pa % 64) a.size % 2 ^ (8 * a.size)) m) := if_pos hr
  rw [hdel] at hu
  generalize lineGet l.data (a.pa % 64) a.size % 2 ^ (8 * a.size) = w at hu
  have haround := hm.around (setX_only h r _ (withLoaded h w m) |>.imp fun k hk => by rw [hk]; rfl)
    (fun k hk => (setX_others h r _ _ k hk).trans (withLoaded_others h w m k hk)) hu
  refine ⟨_, u, hexec, rfl, fun hq => trainPrefetch_quiet hq haround.2.2.1, hu.gotX ((gotX_setX h r _ _).of_x ?_), ?_, ?_, haround⟩
  · rw [hartOf_withLoaded]
    exact hm.started_x
  · rw [hu.pc, setX_pc, hartOf_withLoaded]
    exact hm.started_pc
  · exact (hm.started_hartKept.trans (hartKept_withLoaded h w m)).trans ((hartKept_setX h r _ _).trans hu.hartKept)

theorem load_float (hlo : 32 ≤ r) (hhi : r < 64) : ∃ t u, exec (.mainCoreLoad h a r sg) s = .next t ∧ t = trainPrefetch h a u ∧
    (quiet s h → t = u) ∧
    (∀ i, tget 0 (hartOf u h).fp i = if i = r - 32 then
      lineGet l.data (a.pa % 64) a.size % 2 ^ (8 * a.size) + (2 ^ 64 - 2 ^ (8 * a.size)) else tget 0 (hartOf s h).fp i) ∧
    (hartOf u h).x = (hartOf s h).x ∧ (hartOf u h).vec = (hartOf s h).vec ∧ otherHarts h s u ∧ sameL2 s u ∧
    samePart .regs s u ∧ dramKept s u := by
  obtain ⟨m, u, hm, hu, hexec⟩ := load_performed (r := r) (sg := sg) hit hfault
  have hdel : deliverLoad h r a.size sg (lineGet l.data (a.pa % 64) a.size) m =
      setF h (r - 32) a.size (lineGet l.data (a.pa % 64) a.size) (withLoaded h (lineGet l.data (a.pa % 64) a.size % 2 ^ (8 * a.size)) m) :=
    (if_neg (by omega)).trans (if_pos hhi)
  rw [hdel] at hu
  generalize lineGet l.data (a.pa % 64) a.size = v at hu ⊢
  have hhart : hartOf (setF h (r - 32) a.size v (withLoaded h (v % 2 ^ (8 * a.size)) m)) h = { hartOf m h with
      loaded := v % 2 ^ (8 * a.size), fp := tset 0 (hartOf m h).fp (r - 32) (v % 2 ^ (8 * a.size) + (2 ^ 64 - 2 ^ (8 * a.size))) } := by
    rw [setF, setHart_hartOf_same, hartOf_withLoaded]
  have honly : ∃ k, setF h (r - 32) a.size v (withLoaded h (v % 2 ^ (8 * a.size)) m) = { m with harts := k } := ⟨_, rfl⟩
  obtain ⟨hothers, hl2, hregs, -, hdram, -⟩ := hm.around honly
    (fun k hk => (setHart_hartOf_ne _ _ _ _ hk).trans (withLoaded_others h _ m k hk)) hu
  obtain ⟨-, hfp, hvec, -⟩ := hm.started_hartKept
  refine ⟨_, u, hexec, rfl, fun hq => trainPrefetch_quiet hq hregs, fun i => ?_, ?_, ?_, hothers, hl2, hregs, hdram⟩
  · rw [hu.fp, hhart, ← hfp]
    split
    next hi => rw [hi, tget_tset_same]
    next hi => exact tget_tset_ne _ _ _ _ _ hi
  · rw [hu.x, hhart]
    exact hm.started_x
  · rw [hu.vec, hhart]
    exact hvec

theorem load_element (hr : 64 ≤ r) : ∃ t u,
    exec (.mainCoreLoad h a r sg) s = .next t ∧ t = trainPrefetch h a u ∧ (quiet s h → t = u) ∧
    tget 0 (hartOf u h).vec (r % 32 + (r - 64) / 32 * a.size / 32) / 2 ^ (8 * ((r - 64) / 32 * a.size % 32)) % 2 ^ (8 * a.size) =
      lineGet l.data (a.pa % 64) a.size ∧
    (∀ k, k ≠ r % 32 + (r - 64) / 32 * a.size / 32 → tget 0 (hartOf u h).vec k = tget 0 (hartOf s h).vec k) ∧
    (hartOf u h).x = (hartOf s h).x ∧ (hartOf u h).fp = (hartOf s h).fp ∧ otherHarts h s u ∧ sameL2 s u ∧
    samePart .regs s u ∧ dramKept s u := by
  obtain ⟨m, u, hm, hu, hexec⟩ := load_performed (r := r) (sg := sg) hit hfault
  have hdel : deliverLoad h r a.size sg (lineGet l.data (a.pa % 64) a.size) m =
      setVec h (r % 32) ((r - 64) / 32) a.size (lineGet l.data (a.pa % 64) a.size)
        (withLoaded h (lineGet l.data (a.pa % 64) a.size % 2 ^ (8 * a.size)) m) :=
    (if_neg (by omega)).trans (if_neg (by omega))
  rw [hdel] at hu
  have hlt : lineGet l.data (a.pa % 64) a.size % 2 ^ (8 * a.size) = lineGet l.data (a.pa % 64) a.size := Nat.mod_mod _ _
  generalize lineGet l.data (a.pa % 64) a.size = v at hu hlt ⊢
  generalize (r - 64) / 32 = e at hu ⊢
  have hhart : hartOf (setVec h (r % 32) e a.size v (withLoaded h (v % 2 ^ (8 * a.size)) m)) h = { hartOf m h with
      loaded := v % 2 ^ (8 * a.size), vec := tset 0 (hartOf m h).vec (r % 32 + e * a.size / 32) (elementPut (tget 0 (hartOf m h).vec (r % 32 + e * a.size / 32)) (2 ^ (8 * (e * a.size % 32))) (8 * a.size) v) } := by
    rw [setVec, setHart_hartOf_same, hartOf_withLoaded]
    rfl
  have honly : ∃ k, setVec h (r % 32) e a.size v (withLoaded h (v % 2 ^ (8 * a.size)) m) = { m with harts := k } := ⟨_, rfl⟩
  obtain ⟨hothers, hl2, hregs, -, hdram, -⟩ := hm.around honly
    (fun k hk => (setHart_hartOf_ne _ _ _ _ hk).trans (withLoaded_others h _ m k hk)) hu
  obtain ⟨-, hfp, hvec, -⟩ := hm.started_hartKept
  refine ⟨_, u, hexec, rfl, fun hq => trainPrefetch_quiet hq hregs, ?_, fun k hk => ?_, ?_, ?_, hothers, hl2, hregs, hdram⟩
  · rw [hu.vec, hhart, tget_tset_same, elementPut_reads _ _ _ (Nat.two_pow_pos _)]
    exact hlt
  · rw [hu.vec, hhart, ← hvec]
    exact tget_tset_ne _ _ _ _ _ hk
  · rw [hu.x, hhart]
    exact hm.started_x
  · rw [hu.fp, hhart]
    exact hfp

end

/-! ### Exceptions -/

/-- The element that the access of a hart stands at. -/
def elementAt (s : State) (h : Nat) : Option Nat := (hartOf s h).access.bind (·.elem)

theorem elementAt_noteCodes (h : Nat) (cs : List Nat) (s : State) : elementAt (noteCodes h cs s) h = elementAt s h := by
  rw [elementAt, noteCodes, setHart_hartOf_same, elementAt]
  cases (hartOf s h).access <;> rfl

theorem elementAt_present (h : Nat) (a : MemAcc) (fp : Bool) (s : State) :
    elementAt (present h a fp s) h = if a.vector then some a.elem else none := by
  rw [present, elementAt_noteCodes, elementAt, setHart_hartOf_same]
  rfl

theorem elementAt_translate (h : Nat) (a : MemAcc) (s : State) : elementAt (translate h a s) h = elementAt s h := by
  unfold translate
  split
  · exact elementAt_noteCodes h _ _
  · rfl

/-- An exception of a vector access names its element in vstart; another leaves it. -/
theorem raise_vstart (h cause tval : Nat) (s : State) : tget 0 (hartOf (raise h cause tval s) h).csr 0x008 =
    ((elementAt s h).map (· % 2 ^ 64)).getD (tget 0 (hartOf s h).csr 0x008) := by
  obtain ⟨csr, pend, hflush, hcsr, -⟩ := (Flushed.flush h s).hart
  have helem : (hartOf (flush h s) h).access.bind (·.elem) = elementAt s h := by rw [hflush, elementAt]
  rw [raise_eq, helem]
  cases elementAt s h with
  | none =>
    rw [nameElem, setHart_hartOf_same, hflush]
    exact hcsr 0x008 (by decide)
  | some n =>
    rw [nameElem, setCsr, setHart_hartOf_same]
    exact tget_tset_same _ _ _ _

/-- An exception raised after steps of its access. -/
theorem AccessStep.raised {pc c x : Nat} (b : AccessStep h (atPc h pc s) u) (hr : raised h pc c x u t) : Machine.raised h pc c x s t := by
  obtain ⟨hexc, hx, hfp, hvec, hresv, hcsr, hothers, hl2, hpred, hmiss, hslices, hdram, houts⟩ := hr
  obtain ⟨-, hfp', hvec', hresv', -, hcsr'⟩ := b.started_hartKept
  have hmem : Machine.dramKept s u := b.dramKept
  refine ⟨hexc, hx.trans b.started_x, hfp.trans hfp', hvec.trans hvec', hresv.trans hresv', fun n hn h8 => (hcsr n hn h8).trans (hcsr' n hn),
    fun k hk => (hothers k hk).trans (b.started_others k hk), fun k n => (hl2 k n).trans (b.started_l2 k n),
    fun k => (hpred k).trans (b.core k).2, fun k hk => hmiss k (by rwa [b.started_coresOfHart]), ?_, hmem.trans hdram, ?_⟩
  · exact Eq.trans hslices (b.part State.slices fun _ _ _ _ _ _ => rfl)
  · exact Eq.trans houts (b.part State.outs fun _ _ _ _ _ _ => rfl)

/-- The access as its exception finds it: translated, where its own fetch has not faulted. -/
def faultedAt (h : Nat) (a : MemAcc) (fp : Bool) (s : State) : State :=
  if a.fault1.isSome then present h a fp s else translate h a (present h a fp s)

theorem step_faultedAt (h : Nat) (a : MemAcc) (fp : Bool) (s : State) : AccessStep h (atPc h a.pc s) (faultedAt h a fp s) :=
  .ite (.present h a fp s) (step_translated h a fp s)

theorem fault_raised (c x : Nat) (fp : Bool) (s : State) : raised h a.pc c x s (raise h c x (faultedAt h a fp s)) ∧
    samePart .regs s (raise h c x (faultedAt h a fp s)) ∧
    tget 0 (hartOf (raise h c x (faultedAt h a fp s)) h).csr 0x008 =
      if a.vector = true then a.elem % 2 ^ 64 else tget 0 (hartOf s h).csr 0x008 := by
  have hstep := step_faultedAt h a fp s
  have hraise := raise_raised h c x (faultedAt h a fp s)
  rw [hstep.started_pc] at hraise
  refine ⟨hstep.raised hraise, (raise_regs h c x _).trans hstep.regs, ?_⟩
  obtain ⟨-, -, -, -, -, hcsr⟩ := hstep.started_hartKept
  have helem : elementAt (faultedAt h a fp s) h = if a.vector then some a.elem else none := by
    unfold faultedAt
    split
    · exact elementAt_present h a fp s
    · exact (elementAt_translate h a _).trans (elementAt_present h a fp s)
  rw [raise_vstart, helem]
  cases a.vector with
  | true => rfl
  | false => exact hcsr 0x008 (by decide)

section
variable {c x : Nat} (hruns : hartRuns s h = true) (hsize : a.size ≠ 0) (hwalk : noWalk s h a)
include hruns hsize hwalk

theorem load_faults {r : Nat} {sg : Bool} (hfault : accessFault s h a 4 5 false false = some (c, x)) :
    exec (.mainCoreLoad h a r sg) s = .next (raise h c x (faultedAt h a (decide (32 ≤ r ∧ r < 64)) s)) := by
  have hthere := ((step_faultedAt h a (decide (32 ≤ r ∧ r < 64)) s).started_accessFault a 4 5 false false).trans hfault
  rw [load_walked hruns hsize, walked_of_noWalk _ _ (noWalk_present _ hwalk)]
  unfold loadAt
  rw [← faultedAt, hthere]

theorem store_faults {v : Nat} {y : List Nat} (hfault : accessFault s h a 6 7 false false = some (c, x)) :
    exec (.mainCoreStore h a v y) s = .next (raise h c x (faultedAt h a a.fp s)) := by
  have hthere := ((step_faultedAt h a a.fp s).started_accessFault a 6 7 false false).trans hfault
  rw [store_walked hruns hsize, walked_of_noWalk _ _ (noWalk_present _ hwalk)]
  unfold storeAt
  rw [← faultedAt, hthere]

theorem amo_faults {op : AmoOp} {v cmp r : Nat} {y : List Nat}
    (hfault : accessFault s h a (if op = .lr then 4 else 6) (if op = .lr then 5 else 7) true (op == .lr || op == .sc) = some (c, x)) :
    exec (.mainCoreAmo h a op v cmp r y) s = .next (raise h c x (faultedAt h a false s)) := by
  have hthere := ((step_faultedAt h a false s).started_accessFault a _ _ true _).trans hfault
  rw [amo_walked hruns hsize, walked_of_noWalk _ _ (noWalk_present _ hwalk)]
  unfold amoAt
  dsimp only
  rw [← faultedAt, hthere]

end

/-! ### A miss that is early -/

theorem holdMiss_mem (core line : Nat) (excl : Bool) (s : State) : ∃ e, (line, e) ∈ (coreOf (holdMiss core line excl s) core).missQ := by
  unfold holdMiss
  dsimp only
  split
  next hany =>
    obtain ⟨e, he, hline⟩ := List.any_eq_true.mp hany
    exact ⟨e.2, by rw [← eq_of_beq hline]; exact he⟩
  next =>
    rw [setCore_coreOf_same]
    exact ⟨excl, List.mem_append_right _ (List.mem_singleton.mpr rfl)⟩

theorem load_early {r : Nat} {sg : Bool} (hruns : hartRuns s h = true) (hsize : a.size ≠ 0) (hwalk : noWalk s h a)
    (hmain : isMain a.pa = true) (hby : bypassed s h a = false) (hcore : coreOfHart s h = some core) (hone : a.size ≤ 64 - a.pa % 64)
    (hmiss : l2Of s core (lineOf a.pa) = none) (hearly : a.early = true) (hfault : accessFault s h a 4 5 false false = none) :
    exec (.mainCoreLoad h a r sg) s = .next (holdMiss core (lineOf a.pa) false (metAt h core a (decide (32 ≤ r ∧ r < 64)) s)) := by
  have ht := step_translated h a (decide (32 ≤ r ∧ r < 64)) s
  have hfault' := (ht.started_accessFault a 4 5 false false).trans hfault
  have hnone : hitOf (metAt h core a (decide (32 ≤ r ∧ r < 64)) s) core (ownerOf s h) (lineOf a.pa) false = none := by
    rw [hitOf, (step_metAt h core a _ s).started_l2, hmiss]
    rfl
  have hget : getLine core (ownerOf s h) (lineOf a.pa) false a.early (metAt h core a (decide (32 ≤ r ∧ r < 64)) s) =
      (holdMiss core (lineOf a.pa) false (metAt h core a (decide (32 ≤ r ∧ r < 64)) s), .wait) := by
    unfold getLine
    rw [hnone, hearly]
    rfl
  rw [load_walked hruns hsize, walked_goesOn _ rfl (noWalk_present _ hwalk) hfault',
    loadAt_cached hfault' hmain ((ht.started_bypassed a).trans hby) (ht.started_coreOfHart.trans hcore),
    cachedLoad_failed (ds := []) (i := 0) (g := .wait) (s1 := holdMiss core (lineOf a.pa) false (metAt h core a (decide (32 ≤ r ∧ r < 64)) s))]
  · rfl
  · rw [partsOf_one hone, ht.started_ownerOf]
    simp only [getLines]
    rw [← metAt, hget]

theorem load_waits_early {r : Nat} {sg : Bool} (hruns : hartRuns s h = true) (hsize : a.size ≠ 0) (hwalk : noWalk s h a)
    (hmain : isMain a.pa = true) (hby : bypassed s h a = false) (hcore : coreOfHart s h = some core) (hone : a.size ≤ 64 - a.pa % 64)
    (hmiss : l2Of s core (lineOf a.pa) = none) (hearly : a.early = true) (hfault : accessFault s h a 4 5 false false = none) :
    ∃ t, exec (.mainCoreLoad h a r sg) s = .next t ∧ (∃ e, (lineOf a.pa, e) ∈ (coreOf t core).missQ) ∧ (hartOf t h).x = (hartOf s h).x ∧
      hartKept h s t ∧ sameL2 s t ∧ samePart .regs s t ∧ samePart .slices s t ∧ samePart .mem s t ∧ samePart .outs s t := by
  have hstep := (step_metAt h core a (decide (32 ≤ r ∧ r < 64)) s).trans (.holdMiss h core (lineOf a.pa) false _)
  have hmem : (holdMiss core (lineOf a.pa) false (metAt h core a (decide (32 ≤ r ∧ r < 64)) s)).mem = s.mem :=
    ((holdMiss_keeps core _ false _ (keeps_refl _ _) (Nat.or_self _)).part .mem rfl).trans (metAt_mem h core a _ s)
  exact ⟨_, load_early hruns hsize hwalk hmain hby hcore hone hmiss hearly hfault, holdMiss_mem _ _ _ _, hstep.started_x, hstep.started_hartKept,
    hstep.started_l2, hstep.regs, hstep.part State.slices fun _ _ _ _ _ _ => rfl, hmem, hstep.part State.outs fun _ _ _ _ _ _ => rfl⟩

end Sys2Proof.Machine
end

section
/-! Stores and atomics of a main core that its own L2 answers (O19; R54, R55, R70, R72, R109). -/
set_option Elab.async false
namespace Sys2Proof.Machine

variable {s t u m : State} {h core line : Nat} {a : MemAcc} {l : CLine}

/-! ### A line written in its core -/

theorem tfind_tput_ne {α : Type} (q : Table α) (k : Nat) (v : α) {j : Nat} (hj : j ≠ k) : tfind (tput q k v) j = tfind q j := by
  induction q with
  | nil => simp [tput, tfind, hj.symm]
  | cons e r ih =>
    obtain ⟨i, w⟩ := e
    unfold tput
    split
    · simp [tfind, hj.symm]
    · split
      · next hki => subst hki; simp [tfind, hj.symm]
      · simp [tfind, ih]

theorem l2Of_putL2_ne {c n : Nat} (l : CLine) (s : State) (hne : c ≠ core ∨ n ≠ line) : l2Of (putL2 core line l s) c n = l2Of s c n := by
  by_cases hc : c = core
  · have hn : n ≠ line := hne.resolve_left (not_not_intro hc)
    rw [hc, l2Of, putL2, setCore_coreOf_same]
    exact tfind_tput_ne _ _ _ hn
  · rw [l2Of, putL2, setCore_coreOf_ne _ _ _ _ hc, l2Of]

/-- t is s with the line written in a core, and every other hart's reservation of it ended. -/
structure LineWritten (h core line : Nat) (l : CLine) (s t : State) : Prop where
  hart : hartOf t h = hartOf s h
  resv : ∀ k, k ≠ h → (hartOf s k).resv = some line → (hartOf t k).resv = none
  held : l2Of t core line = some l
  lines : ∀ c n, c ≠ core ∨ n ≠ line → l2Of t c n = l2Of s c n
  rest : ∃ m k f, t = { s with harts := m, cores := k, fabric := f }

theorem hartOf_breakResv_own (h line : Nat) (s : State) : hartOf (breakResv (some h) line s) h = hartOf s h := by
  rw [breakResv_eq]
  refine List.foldlRecOn (motive := fun y => hartOf y h = hartOf s h) _ _ rfl fun y hy e he => ?_
  have hne : e.1 ≠ h := by
    have hf := (List.mem_filter.mp he).2
    simp at hf
    exact hf.1
  exact (setHart_hartOf_ne _ _ _ _ hne.symm).trans hy

theorem resv_breakResv_other {k : Nat} (hk : k ≠ h) (hresv : (hartOf s k).resv = some line) :
    (hartOf (breakResv (some h) line s) k).resv = none := by
  rw [breakResv_eq, resv_foldl_endReserved]
  refine if_pos ?_
  rcases tget_default_or_mem ({} : Hart) s.harts k with hd | hin
  · rw [hartOf, hd] at hresv
    cases hresv
  · refine List.mem_map.2 ⟨(k, hartOf s k), List.mem_filter.2 ⟨hin, ?_⟩, rfl⟩
    simp [hresv, hk]

theorem breakResv_only (h line : Nat) (s : State) : ∃ k f, breakResv (some h) line s = { s with harts := k, fabric := f } := by
  rw [breakResv_eq]
  refine List.foldlRecOn (motive := fun y : State => ∃ k f, y = { s with harts := k, fabric := f }) _ _
    ⟨s.harts, _, rfl⟩ fun y hy e _ => ?_
  obtain ⟨k, f, rfl⟩ := hy
  exact ⟨_, _, rfl⟩

theorem lineWritten_breakResv (h core line : Nat) (l : CLine) (s : State) :
    LineWritten h core line l s (breakResv (some h) line (putL2 core line l s)) where
  hart := hartOf_breakResv_own h line _
  resv := fun k hk hresv => resv_breakResv_other hk hresv
  held := by
    obtain ⟨k, f, heq⟩ := breakResv_only h line (putL2 core line l s)
    rw [heq]
    exact l2Of_putL2 l s
  lines := fun c n hne => by
    obtain ⟨k, f, heq⟩ := breakResv_only h line (putL2 core line l s)
    rw [heq]
    exact l2Of_putL2_ne l s hne
  rest := by
    obtain ⟨k, f, heq⟩ := breakResv_only h line (putL2 core line l s)
    rw [heq]
    exact ⟨k, _, f, rfl⟩

theorem putBytes_hit {tag o n v : Nat} (hl : l2Of m core line = some l) (htag : l.tag = tag) : putBytes core tag line o n v m =
    putL2 core line { l with st := .m, data := linePut l.data o n v } m := by
  subst htag
  unfold putBytes
  rw [hl]

/-- What a write leaves beside its line and its hart. -/
theorem LineWritten.around {pc : Nat} {l' : CLine} (w : LineWritten h core line l' m t) (a : AccessStep h (atPc h pc s) m) {t' : State}
    (ht : ∃ k, t' = { t with harts := k }) (b : AccessStep h t' u) : l2Of u core line = some l' ∧
      (∀ c n, c ≠ core ∨ n ≠ line → l2Of u c n = l2Of s c n) ∧ samePart .regs s u ∧ samePart .slices s u ∧ dramKept s u ∧
      samePart .outs s u := by
  have hmem : dramKept s m := a.dramKept
  obtain ⟨j, rfl⟩ := ht
  have hline : l2Of { t with harts := j } core line = some l' := w.held
  have hlines (c n : Nat) (hn : c ≠ core ∨ n ≠ line) : l2Of { t with harts := j } c n = l2Of m c n := w.lines c n hn
  obtain ⟨m', k, f, rfl⟩ := w.rest
  exact ⟨(b.l2Of core line).trans hline, fun c n hn => (b.l2Of c n).trans ((hlines c n hn).trans (a.started_l2 c n)), b.regs.trans a.regs,
    (b.part State.slices fun _ _ _ _ _ _ => rfl).trans (a.part State.slices fun _ _ _ _ _ _ => rfl), hmem.trans b.dramKept,
    (b.part State.outs fun _ _ _ _ _ _ => rfl).trans (a.part State.outs fun _ _ _ _ _ _ => rfl)⟩

/-! ### Stores -/

theorem AccessStep.started_noInvert {pc : Nat} (b : AccessStep h (atPc h pc s) m) (hclear : noInvert s h) : noInvert m h :=
  fun p hp => (b.started_invert p).trans (hclear p (b.started_pairOfHart ▸ hp))

/-- A store presents its data with its line in the core. -/
theorem store_presents {v : Nat} {y : List Nat} (hit : l2Hit s h a core l) (hst : l.st ≠ .s)
    (hfault : accessFault s h a 6 7 false false = none) : exec (.mainCoreStore h a v y) s =
    .next (presentWrite h (fun b => retire h a (refetch h [lineOf a.pa] y (fillFirst core a
      (breakResv (some h) (lineOf a.pa) (putBytes core (ownerOf s h) (lineOf a.pa) (a.pa % 64) a.size v b))))) (metAt h core a a.fp s)) := by
  obtain ⟨hruns, hsize, hwalk, hmain, -, -, hone, -, htag, hpoison⟩ := id hit
  have ht := step_translated h a a.fp s
  obtain ⟨hby, hcore, howner, hl⟩ := hit_facts a.fp hit
  have hfault' := (ht.started_accessFault a 6 7 false false).trans hfault
  rw [store_walked hruns hsize, walked_goesOn _ rfl (noWalk_present _ hwalk) hfault', storeAt_cached hfault' hmain hby hcore,
    cachedStore_found (ds := [l.data]) (s1 := metAt h core a a.fp s)]
  · rw [partsOf_one hone, howner]
    rfl
  · rw [partsOf_one hone, howner]
    exact getLines_hit hl htag (fun _ => hst) hpoison

theorem store_performed {v : Nat} {y : List Nat} (hit : l2Hit s h a core l) (hst : l.st ≠ .s) (hclear : noInvert s h)
    (hfault : accessFault s h a 6 7 false false = none) : ∃ m t u, AccessStep h (atPc h a.pc s) m ∧
    LineWritten h core (lineOf a.pa) { l with st := .m, data := linePut l.data (a.pa % 64) a.size v } m t ∧ AccessStep h t u ∧
    exec (.mainCoreStore h a v y) s = .next (trainPrefetch h a u) := by
  have hm := step_metAt h core a a.fp s
  obtain ⟨-, -, -, hl⟩ := hit_facts a.fp hit
  obtain ⟨-, -, -, -, -, -, -, -, htag, -⟩ := id hit
  refine ⟨_, _, _, hm, lineWritten_breakResv _ _ _ _ _, ((AccessStep.fillFirst h core a _).trans (.refetch h [lineOf a.pa] y _)).trans
    (.endAccess h a.more _), ?_⟩
  rw [store_presents hit hst hfault, presentWrite_clear (hm.started_noInvert hclear), putBytes_hit hl htag]
  rfl

theorem store_writes {v : Nat} {y : List Nat} (hit : l2Hit s h a core l) (hst : l.st ≠ .s) (hclear : noInvert s h)
    (hfault : accessFault s h a 6 7 false false = none) :
    ∃ t u, exec (.mainCoreStore h a v y) s = .next t ∧ t = trainPrefetch h a u ∧ (quiet s h → t = u) ∧
      l2Of u core (lineOf a.pa) = some { l with st := .m, data := linePut l.data (a.pa % 64) a.size v } ∧
      (∀ c n, c ≠ core ∨ n ≠ lineOf a.pa → l2Of u c n = l2Of s c n) ∧
      (∀ k, k ≠ h → (hartOf s k).resv = some (lineOf a.pa) → (hartOf u k).resv = none) ∧
      (hartOf u h).x = (hartOf s h).x ∧ (hartOf u h).pc = a.pc ∧ hartKept h s u ∧ samePart .regs s u ∧ samePart .slices s u ∧
      dramKept s u ∧ samePart .outs s u := by
  obtain ⟨m, t, u, hm, hw, hu, hexec⟩ := store_performed (v := v) (y := y) hit hst hclear hfault
  obtain ⟨hline, hlines, hregs, hslices, hdram, houts⟩ := hw.around hm ⟨_, rfl⟩ hu
  refine ⟨_, u, hexec, rfl, fun hq => trainPrefetch_quiet hq hregs, hline, hlines, fun k hk hresv => ?_, ?_, ?_, ?_, hregs, hslices, hdram,
    houts⟩
  · rw [hu.others k hk]
    exact hw.resv k hk ((congrArg Hart.resv (hm.started_others k hk)).trans hresv)
  · rw [hu.x, hw.hart, hm.started_x]
  · rw [hu.pc, hw.hart, hm.started_pc]
  · have hkept := hu.hartKept
    unfold hartKept csrsKept at hkept
    rw [hw.hart] at hkept
    exact hm.started_hartKept.trans hkept

/-! ### What the comparator finds -/

theorem AccessStep.comparedBad {pc : Nat} (b : AccessStep h (atPc h pc s) m) (hmem : m.mem = s.mem) {p : Nat}
    (hp : pairOfHart s h = some p) (harmed : invertArmed s p = true) (f : State → State) : comparedBad h s (presentWrite h f m) := by
  have hpres : presentWrite h f m = presentPair p f m := by
    unfold presentWrite
    rw [b.started_pairOfHart, hp]
  rw [hpres]
  intro q hq
  obtain rfl : p = q := Option.some.inj (hp.symm.trans hq)
  obtain ⟨hst, hbus, hinv, hhart, hl2, hslices, hmem', houts⟩ :=
    presentPair_comparedBad f (pairOfHart_lt hp) ((b.started_invert p).trans harmed)
  rw [rd_of_regs b.regs] at hhart
  have hmem2 : (presentPair p f m).mem = m.mem := hmem'
  exact ⟨hst, hbus, hinv, hhart, fun c n => (hl2 c n).trans (b.started_l2 c n),
    Eq.trans hslices (b.part State.slices fun _ _ _ _ _ _ => rfl), hmem2.trans hmem,
    Eq.trans houts (b.part State.outs fun _ _ _ _ _ _ => rfl)⟩

/-! ### Atomics -/

section
variable {op : AmoOp} {v cmp r : Nat} {y : List Nat}

theorem amo_presents (hit : l2Hit s h a core l) (hst : l.st ≠ .s)
    (hfault : accessFault s h a (if op = .lr then 4 else 6) (if op = .lr then 5 else 7) true (op == .lr || op == .sc) = none) :
    exec (.mainCoreAmo h a op v cmp r y) s = .next (presentAmo h op (fun b => amoDone h a y
      (amoFinish h op a.size (lineGet l.data (a.pa % 64) a.size) r (lineOf a.pa) (putBytes core (ownerOf s h) (lineOf a.pa) (a.pa % 64) a.size
        (amoStore op a.size (lineGet l.data (a.pa % 64) a.size) v cmp)) (fillFirst core a b))) (metAt h core a false s)) := by
  obtain ⟨hruns, hsize, hwalk, hmain, -, -, -, -, htag, hpoison⟩ := id hit
  have ht := step_translated h a false s
  obtain ⟨hby, hcore, howner, hl⟩ := hit_facts false hit
  have hfault' := (ht.started_accessFault a _ _ true _).trans hfault
  rw [amo_walked hruns hsize, walked_goesOn _ rfl (noWalk_present _ hwalk) hfault', amoAt_cached hmain hfault' hby hcore,
    amoCached_found (d := l.data) (s1 := metAt h core a false s)]
  · rw [howner]
  · rw [howner]
    exact getLine_hit hl htag (fun _ => hst) hpoison

/-- An atomic's place in the core, its line there and filled into the L1D. -/
def amoAtCore (h core : Nat) (a : MemAcc) (s : State) : State := fillFirst core a (metAt h core a false s)

theorem step_amoAtCore (h core : Nat) (a : MemAcc) (s : State) : AccessStep h (atPc h a.pc s) (amoAtCore h core a s) :=
  (step_metAt h core a false s).trans (.fillFirst h core a _)

theorem amo_presents_clear (hit : l2Hit s h a core l) (hst : l.st ≠ .s) (hclear : op ≠ .lr → noInvert s h)
    (hfault : accessFault s h a (if op = .lr then 4 else 6) (if op = .lr then 5 else 7) true (op == .lr || op == .sc) = none) :
    exec (.mainCoreAmo h a op v cmp r y) s = .next (amoDone h a y
      (amoFinish h op a.size (lineGet l.data (a.pa % 64) a.size) r (lineOf a.pa) (putBytes core (ownerOf s h) (lineOf a.pa) (a.pa % 64) a.size
        (amoStore op a.size (lineGet l.data (a.pa % 64) a.size) v cmp)) (amoAtCore h core a s))) := by
  rw [amo_presents hit hst hfault, presentAmo]
  by_cases hop : op = .lr
  · rw [if_pos hop]
    rfl
  · rw [if_neg hop, presentWrite_clear ((step_metAt h core a false s).started_noInvert (hclear hop))]
    rfl

theorem putBytes_atCore (hit : l2Hit s h a core l) (w : Nat) :
    putBytes core (ownerOf s h) (lineOf a.pa) (a.pa % 64) a.size w (amoAtCore h core a s) =
      putL2 core (lineOf a.pa) { l with st := .m, data := linePut l.data (a.pa % 64) a.size w } (amoAtCore h core a s) := by
  obtain ⟨-, -, -, -, -, -, -, hl, htag, -⟩ := id hit
  exact putBytes_hit (((step_amoAtCore h core a s).started_l2 core _).trans hl) htag

theorem amoFinish_stores (hlr : op ≠ .lr) (hsc : op ≠ .sc) (n old line : Nat) (put : State → State) (s : State) :
    amoFinish h op n old r line put s = (deliverAmo h r n old (breakResv (some h) line (put s)), true) := by
  unfold amoFinish
  dsimp only
  split
  · exact absurd rfl hlr
  · exact absurd rfl hsc
  · rfl

theorem step_amoDone (h : Nat) (a : MemAcc) (y : List Nat) (x : State × Bool) :
    ∃ u, AccessStep h x.1 u ∧ amoDone h a y x = trainPrefetch h a u := by
  refine ⟨endAccess h a.more (if x.2 then refetch h [lineOf a.pa] y x.1 else x.1), ?_, rfl⟩
  exact (AccessStep.ite (.refetch h _ _ _) (.refl h _)).trans (.endAccess h a.more _)

theorem deliverAmo_only (h r n v : Nat) (s : State) : ∃ k, deliverAmo h r n v s = { s with harts := k } := by
  unfold deliverAmo
  split
  · split
    · exact ⟨_, rfl⟩
    · obtain ⟨k, hk⟩ := setX_only h r v s
      obtain ⟨j, hj⟩ := setX_only h (r + 1) (v / 2 ^ 64) (setX h r v s)
      exact ⟨j, by rw [hj, hk]⟩
  · exact setX_only h r _ s

/-- What an atomic leaves of a line it writes, before its own hart has the old value. -/
theorem amo_performed (hit : l2Hit s h a core l) (hst : l.st ≠ .s) (hlr : op ≠ .lr) (hsc : op ≠ .sc) (hclear : noInvert s h)
    (hfault : accessFault s h a 6 7 true false = none) : ∃ m t u, AccessStep h (atPc h a.pc s) m ∧
    LineWritten h core (lineOf a.pa) ⟨l.tag, .m, l.poison, linePut l.data (a.pa % 64) a.size
      (amoStore op a.size (lineGet l.data (a.pa % 64) a.size) v cmp)⟩ m t ∧
    AccessStep h (deliverAmo h r a.size (lineGet l.data (a.pa % 64) a.size) t) u ∧
    exec (.mainCoreAmo h a op v cmp r y) s = .next (trainPrefetch h a u) := by
  have hfault' : accessFault s h a (if op = .lr then 4 else 6) (if op = .lr then 5 else 7) true (op == .lr || op == .sc) = none := by
    have hkind : (op == .lr || op == .sc) = false := by
      revert hlr hsc
      cases op <;> decide
    rw [if_neg hlr, if_neg hlr, hkind]
    exact hfault
  have hexec := amo_presents_clear (v := v) (cmp := cmp) (r := r) (y := y) hit hst (fun _ => hclear) hfault'
  rw [amoFinish_stores hlr hsc, putBytes_atCore hit] at hexec
  obtain ⟨u, hu, hdone⟩ := step_amoDone h a y (deliverAmo h r a.size (lineGet l.data (a.pa % 64) a.size)
    (breakResv (some h) (lineOf a.pa) (putL2 core (lineOf a.pa) { l with st := .m, data := linePut l.data (a.pa % 64) a.size (amoStore op a.size (lineGet l.data (a.pa % 64) a.size) v cmp) } (amoAtCore h core a s))), true)
  rw [hdone] at hexec
  exact ⟨_, _, u, step_amoAtCore h core a s, lineWritten_breakResv _ _ _ _ _, hu, hexec⟩

theorem amo_word (hit : l2Hit s h a core l) (hst : l.st ≠ .s) (hlr : op ≠ .lr) (hsc : op ≠ .sc) (hsize : a.size = 4 ∨ a.size = 8)
    (hclear : noInvert s h) (hfault : accessFault s h a 6 7 true false = none) :
    ∃ t u, exec (.mainCoreAmo h a op v cmp r y) s = .next t ∧ t = trainPrefetch h a u ∧ (quiet s h → t = u) ∧
      gotX h r (sext a.size (lineGet l.data (a.pa % 64) a.size)) s u ∧
      l2Of u core (lineOf a.pa) = some ⟨l.tag, .m, l.poison, linePut l.data (a.pa % 64) a.size
        (amoStore op a.size (lineGet l.data (a.pa % 64) a.size) v cmp)⟩ ∧
      (∀ c n, c ≠ core ∨ n ≠ lineOf a.pa → l2Of u c n = l2Of s c n) ∧ samePart .regs s u ∧ dramKept s u := by
  obtain ⟨m, t, u, hm, hw, hu, hexec⟩ := amo_performed (v := v) (cmp := cmp) (r := r) (y := y) hit hst hlr hsc hclear hfault
  obtain ⟨hline, hlines, hregs, -, hdram, -⟩ := hw.around hm (deliverAmo_only h r _ _ t) hu
  have hdeliver : deliverAmo h r a.size (lineGet l.data (a.pa % 64) a.size) t = setX h r (sext a.size (lineGet l.data (a.pa % 64) a.size)) t :=
    if_neg (by omega)
  rw [hdeliver] at hu
  refine ⟨_, u, hexec, rfl, fun hq => trainPrefetch_quiet hq hregs, hu.gotX ((gotX_setX h r _ t).of_x ?_), hline, hlines, hregs, hdram⟩
  rw [hw.hart]
  exact hm.started_x

theorem amo_pair (hit : l2Hit s h a core l) (hst : l.st ≠ .s) (hlr : op ≠ .lr) (hsc : op ≠ .sc) (hsize : a.size = 16)
    (hclear : noInvert s h) (hfault : accessFault s h a 6 7 true false = none) :
    ∃ t u, exec (.mainCoreAmo h a op v cmp r y) s = .next t ∧ t = trainPrefetch h a u ∧ (quiet s h → t = u) ∧
      l2Of u core (lineOf a.pa) = some ⟨l.tag, .m, l.poison, linePut l.data (a.pa % 64) 16
        (amoStore op 16 (lineGet l.data (a.pa % 64) 16) v cmp)⟩ ∧
      (∀ i, i ≠ 0 → tget 0 (hartOf u h).x i = if r = 0 then tget 0 (hartOf s h).x i
        else if i = r then lineGet l.data (a.pa % 64) 16 % 2 ^ 64
        else if i = r + 1 then lineGet l.data (a.pa % 64) 16 / 2 ^ 64 % 2 ^ 64 else tget 0 (hartOf s h).x i) := by
  obtain ⟨m, t, u, hm, hw, hu, hexec⟩ := amo_performed (v := v) (cmp := cmp) (r := r) (y := y) hit hst hlr hsc hclear hfault
  obtain ⟨hline, -, hregs, -⟩ := hw.around hm (deliverAmo_only h r _ _ t) hu
  rw [hsize] at hline hu
  refine ⟨_, u, hexec, rfl, fun hq => trainPrefetch_quiet hq hregs, hline, fun i hi => ?_⟩
  have hx : (hartOf t h).x = (hartOf s h).x := by rw [hw.hart, hm.started_x]
  rw [hu.x]
  unfold deliverAmo
  rw [if_pos rfl]
  by_cases hr : r = 0
  · rw [if_pos hr, if_pos hr, hx]
  · rw [if_neg hr, if_neg hr, gotX_setX h (r + 1) _ _ i hi, gotX_setX h r _ _ i hi, hx]
    split_ifs <;> omega

/-- A reservation of the hart, taken or ended. -/
def withResv (h : Nat) (x : Option Nat) (b : Bool) (s : State) : State := setHart h { hartOf s h with resv := x, resvAtSlice := b } s

theorem hartOf_withResv (h : Nat) (x : Option Nat) (b : Bool) (s : State) :
    hartOf (withResv h x b s) h = { hartOf s h with resv := x, resvAtSlice := b } := setHart_hartOf_same _ _ _

theorem setX_resv (h r v : Nat) (s : State) : (hartOf (setX h r v s) h).resv = (hartOf s h).resv := by
  obtain ⟨x, hx⟩ := setX_hart h r v s
  rw [hx]

theorem amo_lr (hit : l2Hit s h a core l) (hst : l.st ≠ .s) (hsize : a.size = 4 ∨ a.size = 8)
    (hfault : accessFault s h a 4 5 true true = none) :
    ∃ t u, exec (.mainCoreAmo h a .lr v cmp r y) s = .next t ∧ t = trainPrefetch h a u ∧ (quiet s h → t = u) ∧
      (hartOf u h).resv = some (lineOf a.pa) ∧
      gotX h r (sext a.size (lineGet l.data (a.pa % 64) a.size)) s u ∧ sameL2 s u := by
  have hexec := amo_presents_clear (op := .lr) (v := v) (cmp := cmp) (r := r) (y := y) hit hst (fun hc => absurd rfl hc) hfault
  have hm := step_amoAtCore h core a s
  generalize amoAtCore h core a s = m at hexec hm
  generalize hresv : rdB m (dzcachectlDbypass h) = b
  have hfinish : amoFinish h .lr a.size (lineGet l.data (a.pa % 64) a.size) r (lineOf a.pa) (putBytes core (ownerOf s h) (lineOf a.pa) (a.pa % 64) a.size
        (amoStore .lr a.size (lineGet l.data (a.pa % 64) a.size) v cmp)) m =
      (setX h r (sext a.size (lineGet l.data (a.pa % 64) a.size)) (withResv h (some (lineOf a.pa)) b m), false) := by
    rw [← hresv]
    exact congrArg (·, false) (if_neg (by omega))
  rw [hfinish] at hexec
  obtain ⟨u, hu, hdone⟩ := step_amoDone h a y (setX h r (sext a.size (lineGet l.data (a.pa % 64) a.size)) (withResv h (some (lineOf a.pa)) b m), false)
  rw [hdone] at hexec
  have honly : ∃ k, setX h r (sext a.size (lineGet l.data (a.pa % 64) a.size)) (withResv h (some (lineOf a.pa)) b m) = { m with harts := k } :=
    (setX_only h r _ _).imp fun k hk => by rw [hk]; rfl
  obtain ⟨-, hl2, hregs, -⟩ := hm.around honly (fun k hk => (setX_others h r _ _ k hk).trans (setHart_hartOf_ne _ _ _ _ hk)) hu
  refine ⟨_, u, hexec, rfl, fun hq => trainPrefetch_quiet hq hregs, ?_, hu.gotX ((gotX_setX h r _ _).of_x ?_), hl2⟩
  · rw [hu.resv, setX_resv, hartOf_withResv]
  · rw [hartOf_withResv]
    exact hm.started_x

/-- A conditional store succeeds under its reservation alone, which it ends. -/
theorem amo_sc (hit : l2Hit s h a core l) (hst : l.st ≠ .s) (hclear : noInvert s h) (hfault : accessFault s h a 6 7 true true = none) :
    ∃ t u, exec (.mainCoreAmo h a .sc v cmp r y) s = .next t ∧ t = trainPrefetch h a u ∧ (quiet s h → t = u) ∧
      (hartOf u h).resv = none ∧
      ((hartOf s h).resv = some (lineOf a.pa) → gotX h r 0 s u ∧ l2Of u core (lineOf a.pa) = some { l with
        st := .m, data := linePut l.data (a.pa % 64) a.size (amoStore .sc a.size (lineGet l.data (a.pa % 64) a.size) v cmp) }) ∧
      ((hartOf s h).resv ≠ some (lineOf a.pa) → gotX h r 1 s u ∧ sameL2 s u) := by
  have hexec := amo_presents_clear (op := .sc) (v := v) (cmp := cmp) (r := r) (y := y) hit hst (fun _ => hclear) hfault
  have hm := step_amoAtCore h core a s
  have hput := putBytes_atCore hit (amoStore .sc a.size (lineGet l.data (a.pa % 64) a.size) v cmp)
  have hheld : (hartOf (amoAtCore h core a s) h).resv = (hartOf s h).resv := by
    obtain ⟨-, -, -, hresv, -⟩ := hm.started_hartKept
    exact hresv
  generalize amoAtCore h core a s = m at hexec hm hput hheld
  generalize putBytes core (ownerOf s h) (lineOf a.pa) (a.pa % 64) a.size
    (amoStore .sc a.size (lineGet l.data (a.pa % 64) a.size) v cmp) = put at hexec hput
  by_cases hres : (hartOf s h).resv = some (lineOf a.pa)
  · have hw := lineWritten_breakResv h core (lineOf a.pa) { l with st := .m, data := linePut l.data (a.pa % 64) a.size (amoStore .sc a.size (lineGet l.data (a.pa % 64) a.size) v cmp) } m
    rw [← hput] at hw
    have hfinish : amoFinish h .sc a.size (lineGet l.data (a.pa % 64) a.size) r (lineOf a.pa) put m =
        (setX h r 0 (withResv h none (hartOf (breakResv (some h) (lineOf a.pa) (put m)) h).resvAtSlice (breakResv (some h) (lineOf a.pa) (put m))), true) := by
      simp only [amoFinish, hheld, hres, beq_self_eq_true, if_true]
      rfl
    rw [hfinish] at hexec
    generalize breakResv (some h) (lineOf a.pa) (put m) = t at hexec hw
    generalize (hartOf t h).resvAtSlice = b at hexec
    obtain ⟨u, hu, hdone⟩ := step_amoDone h a y (setX h r 0 (withResv h none b t), true)
    rw [hdone] at hexec
    obtain ⟨hline, -, hregs, -⟩ := hw.around hm ((setX_only h r 0 (withResv h none b t)).imp fun k hk => by rw [hk]; rfl) hu
    refine ⟨_, u, hexec, rfl, fun hq => trainPrefetch_quiet hq hregs, ?_, fun _ => ⟨hu.gotX ((gotX_setX h r 0 _).of_x ?_), hline⟩,
      fun hc => absurd hres hc⟩
    · rw [hu.resv, setX_resv, hartOf_withResv]
    · rw [hartOf_withResv]
      exact (congrArg Hart.x hw.hart).trans hm.started_x
  · have hfinish : amoFinish h .sc a.size (lineGet l.data (a.pa % 64) a.size) r (lineOf a.pa) put m =
        (setX h r 1 (withResv h none (hartOf m h).resvAtSlice m), false) := by
      simp only [amoFinish, hheld, beq_eq_false_iff_ne.mpr hres, Bool.false_eq_true, if_false]
      rfl
    rw [hfinish] at hexec
    generalize (hartOf m h).resvAtSlice = b at hexec
    obtain ⟨u, hu, hdone⟩ := step_amoDone h a y (setX h r 1 (withResv h none b m), false)
    rw [hdone] at hexec
    have honly : ∃ k, setX h r 1 (withResv h none b m) = { m with harts := k } := (setX_only h r _ _).imp fun k hk => by rw [hk]; rfl
    obtain ⟨-, hl2, hregs, -⟩ := hm.around honly (fun k hk => (setX_others h r _ _ k hk).trans (setHart_hartOf_ne _ _ _ _ hk)) hu
    refine ⟨_, u, hexec, rfl, fun hq => trainPrefetch_quiet hq hregs, ?_, fun hc => absurd hc hres,
      fun _ => ⟨hu.gotX ((gotX_setX h r 1 _).of_x ?_), hl2⟩⟩
    · rw [hu.resv, setX_resv, hartOf_withResv]
    · rw [hartOf_withResv]
      exact hm.started_x

end

end Sys2Proof.Machine
end

section
/-! Cache-block operations and prefetch hints of a hart (O19; R60, R68, R70, R125, R179). -/
set_option Elab.async false
namespace Sys2Proof.Machine

variable {s t u : State} {h core line n tag op va pa : Nat} {y : List Nat}

/-! ### An operation enters the home slice's queue -/

section
variable {e : AmqEnt} (hop : isReq e = false) (waits : Bool)
include hop

/-- A maintenance operation that is queued or waits outside: the slice's lines stand, and nothing but its queue changes. -/
theorem enterAmq_maint : (sliceOf (enterAmq n e waits s) n).lines = (sliceOf s n).lines ∧
    (∃ regs slices, enterAmq n e waits s = { s with regs := regs, slices := slices }) ∧
    (amqRoom s n e.tag (sliceOf s n).amq = true → (∀ x ∈ (sliceOf s n).outside, sameShare s n e.tag x.tag = false) →
      (sliceOf (enterAmq n e waits s) n).amq = (sliceOf s n).amq ++ [e] ∧
      (sliceOf (enterAmq n e waits s) n).outside = (sliceOf s n).outside) ∧
    (amqRoom s n e.tag (sliceOf s n).amq = false →
      (sliceOf (enterAmq n e waits s) n).amq = (sliceOf s n).amq ∧
      (sliceOf (enterAmq n e waits s) n).outside = (sliceOf s n).outside ++ [e]) := by
  obtain ⟨z, hz⟩ : ∃ z, z = if amqRoom s n e.tag (sliceOf s n).amq ∧ ((sliceOf s n).outside.all fun x => !sameShare s n e.tag x.tag)
      then putSlice n { sliceOf s n with amq := (sliceOf s n).amq ++ [e] } s
      else setSlice n { sliceOf s n with outside := (sliceOf s n).outside ++ [e] } s := ⟨_, rfl⟩
  have hin : enterAmq n e waits s = if waits then bump (llcAmqWaits n) 1 z else z := by
    rw [hz, enterAmq]
    exact if_neg (fun hc => by rw [hop] at hc; exact absurd hc.1 (by decide))
  have hsl : sliceOf (enterAmq n e waits s) n = sliceOf z n := by
    rw [hin]
    split <;> rfl
  have hfull (hn : ¬(amqRoom s n e.tag (sliceOf s n).amq ∧ ((sliceOf s n).outside.all fun x => !sameShare s n e.tag x.tag) = true)) :
      sliceOf z n = { sliceOf s n with outside := (sliceOf s n).outside ++ [e] } := by
    rw [hz, if_neg hn, setSlice_sliceOf_same]
  have hroom (hp : amqRoom s n e.tag (sliceOf s n).amq ∧ ((sliceOf s n).outside.all fun x => !sameShare s n e.tag x.tag) = true) :
      sliceOf z n = { sliceOf s n with amq := (sliceOf s n).amq ++ [e] } := by
    rw [hz, if_pos hp, slices_putSlice]
  have hrest : ∃ regs slices, z = { s with regs := regs, slices := slices } := by
    rw [hz]
    split
    · exact putSlice_rest n _ s
    · exact ⟨_, _, rfl⟩
  refine ⟨?_, ?_, fun hr hshare => ?_, fun hr => ?_⟩
  · by_cases hp : amqRoom s n e.tag (sliceOf s n).amq ∧ ((sliceOf s n).outside.all fun x => !sameShare s n e.tag x.tag) = true
    · rw [hsl, hroom hp]
    · rw [hsl, hfull hp]
  · obtain ⟨regs, slices, hz'⟩ := hrest
    rw [hin, hz']
    split
    · exact ⟨_, _, rfl⟩
    · exact ⟨_, _, rfl⟩
  · have hall : ((sliceOf s n).outside.all fun x => !sameShare s n e.tag x.tag) = true := List.all_eq_true.mpr fun x hx => by rw [hshare x hx]; rfl
    rw [hsl, hroom ⟨hr, hall⟩]
    exact ⟨rfl, rfl⟩
  · rw [hsl, hfull (fun hc => by rw [hr] at hc; exact absurd hc.1 (by decide))]
    exact ⟨rfl, rfl⟩

end

/-- The hart waits for its operation on a line. -/
def cboWaiting (h line : Nat) (s y : State) : State := setHart h { hartOf s h with cbo := some line } y

theorem cboWaiting_spec (h line : Nat) {s y : State} (hharts : y.harts = s.harts) : (hartOf (cboWaiting h line s y) h).cbo = some line ∧
    hartRuns (cboWaiting h line s y) h = false ∧ (hartOf (cboWaiting h line s y) h).x = (hartOf s h).x ∧
    hartRest h s (cboWaiting h line s y) ∧ otherHarts h s (cboWaiting h line s y) := by
  have hown : hartOf (cboWaiting h line s y) h = { hartOf s h with cbo := some line } := setHart_hartOf_same _ _ _
  refine ⟨by rw [hown], ?_, by rw [hown], ?_, fun k hk => (setHart_hartOf_ne _ _ _ _ hk).trans (hartOf_congr hharts k)⟩
  · have hawaits : awaits (cboWaiting h line s y) h = true := by
      rw [awaits, hown]
      rfl
    rw [hartRuns, hawaits]
    simp
  · unfold hartRest hartKept csrsKept
    rw [hown]
    exact ⟨rfl, rfl, rfl, rfl, rfl, rfl, fun _ _ => rfl⟩

theorem cboTaken_accepted (hlo : 1 ≤ op) (hhi : op ≤ 3) (hfree : coreFrozen s core = false) :
    cboTaken h n ⟨line, core, op, tag⟩ s (cboWaiting h line s (maintAccept n core line tag op s)) := by
  have hop : isReq ⟨line, core, op, tag⟩ = false := by
    have h0 : op ≠ 0 := by omega
    have h4 : op ≠ 4 := by omega
    simp [isReq, h0, h4]
  obtain ⟨hlines, ⟨regs, slices, hz⟩, hroom, hfull⟩ := enterAmq_maint (s := s) (n := n) hop (filling s n line || opWaits s n line)
  have hk := maintAccept_own (n := n) (line := line) (tag := tag) hlo hhi hfree
  generalize enterAmq n ⟨line, core, op, tag⟩ (filling s n line || opWaits s n line) s = z at hlines hz hroom hfull hk
  by_cases hown : ownLine s line = true
  · rw [if_pos hown] at hk
    rw [hk]
    have hharts : z.harts = s.harts := by rw [hz]
    obtain ⟨hcbo, hruns, hx, hrest, hothers⟩ := cboWaiting_spec h line hharts
    have hmem : z.mem = s.mem := by rw [hz]
    have houts : z.outs = s.outs := by rw [hz]
    exact ⟨hcbo, hruns, hx, hrest, hothers, hlines, hmem, hroom, hfull, fun _ => houts, fun hc => by rw [hown] at hc; cases hc⟩
  · rw [if_neg hown] at hk
    generalize ho : ({ xid := 0, dev := outDev s line, kind := 7, pa := line * 64, tag := tag, op := op, origin := .maint n core } : Out) = o at hk
    have hkeep := sendOut_keeps o z (keeps_refl _ z) (Nat.or_self _)
    have hsame : sliceOf (sendOut o z) n = sliceOf z n := by rw [sliceOf, hkeep.part .slices rfl, sliceOf]
    have houts := outs_sendOut o z
    have hharts : (sendOut o z).harts = s.harts := Eq.trans (hkeep.part .harts rfl) (by rw [hz])
    have hmem : (sendOut o z).mem = s.mem := Eq.trans (hkeep.part .mem rfl) (by rw [hz])
    rw [hk]
    generalize sendOut o z = w at hsame houts hharts hmem
    rw [← hsame] at hlines hroom hfull
    obtain ⟨hcbo, hruns, hx, hrest, hothers⟩ := cboWaiting_spec h line hharts
    refine ⟨hcbo, hruns, hx, hrest, hothers, hlines, hmem, hroom, hfull, fun hc => absurd hc hown, fun _ => ⟨_, Eq.trans houts (by rw [hz]), ?_⟩⟩
    rw [← ho]
    exact ⟨rfl, rfl, rfl, rfl, rfl, rfl⟩

/-! ### cbo.clean, cbo.flush and cbo.inval -/

theorem cboGated_on {lo w : Nat} (hruns : hartRuns s h = true) (henv : envFault s h lo w = none) : cboGated h va pa op lo w s = cbo h va pa op s := by
  unfold cboGated
  rw [if_pos hruns, henv]

theorem cboGated_fault {lo w c : Nat} (hruns : hartRuns s h = true) (henv : envFault s h lo w = some c) :
    cboGated h va pa op lo w s = raiseInstr h c s := by
  unfold cboGated
  rw [if_pos hruns, henv]

/-- The block may be neither read nor written. -/
def cboDenied (s : State) (h pa : Nat) : Bool := pmpDenies s h (pa / 64 * 64) 64 true false && pmpDenies s h (pa / 64 * 64) 64 false true

theorem cbo_denied (hno : isMain pa = false ∨ populated s (pa / 64 * 64) = false ∨ cboDenied s h pa = true) :
    cbo h va pa op s = raise h 7 va s := by
  unfold cbo
  dsimp only
  by_cases hreach : isMain pa = false ∨ populated s (pa / 64 * 64) = false
  · rw [if_pos hreach]
  · have hdenied : cboDenied s h pa = true := by
      rcases hno with h1 | h1 | h1
      · exact absurd (.inl h1) hreach
      · exact absurd (.inr h1) hreach
      · exact h1
    rw [if_neg hreach]
    exact if_pos hdenied

section
variable (hmain : isMain pa = true) (hpop : populated s (pa / 64 * 64) = true)
include hmain hpop

theorem cbo_allowed_place : ¬(isMain pa = false ∨ populated s (pa / 64 * 64) = false) := by
  rw [hmain, hpop]
  decide

variable (hno : cboDenied s h pa = false) (htag : tag = ownerOf s h) (hline : line = lineOf pa)
include hno htag hline

theorem cbo_refused (hreach : mayReach s tag line = false) : cbo h va pa op s = raise h 7 va (refuseLine pa tag s) := by
  subst htag hline
  unfold cbo
  dsimp only
  rw [if_neg (cbo_allowed_place hmain hpop), ← cboDenied, hno, if_neg Bool.false_ne_true]
  exact if_pos hreach

theorem cbo_taken (hn : n = homeSlice s tag line) (hreach : mayReach s tag line = true) (hcore : coreOfHart s h = some core)
    (hfree : coreFrozen s core = false) (hlo : 1 ≤ op) (hhi : op ≤ 3) :
    ∃ t, cbo h va pa op s = t ∧ cboTaken h n ⟨line, core, op, tag⟩ s t := by
  refine ⟨_, ?_, cboTaken_accepted hlo hhi hfree⟩
  subst htag hline hn
  unfold cbo
  dsimp only
  rw [if_neg (cbo_allowed_place hmain hpop), ← cboDenied, hno, if_neg Bool.false_ne_true,
    if_neg (by rw [hreach]; decide), hcore]
  rfl

end

theorem exec_cboInval (hruns : hartRuns s h = true) (henv : envFault s h 4 2 = none) :
    exec (.cboInval h va pa) s = .next (cbo h va pa (if (envBits s h 4 2).contains 1 then 2 else 3) s) :=
  congrArg Host.Outcome.next (cboGated_on hruns henv)

/-! ### cbo.zero -/

section
variable {pt : PageAt} (hruns : hartRuns s h = true)
include hruns

theorem exec_cboZero (henv : envFault s h 7 1 = none) : exec (.cboZero h pt pa y) s = .next (cboZeroAt h pt pa y s) := by
  refine congrArg Host.Outcome.next ?_
  unfold cboZero
  rw [if_pos hruns, henv]

theorem cboZero_fault {c : Nat} (henv : envFault s h 7 1 = some c) : exec (.cboZero h pt pa y) s = .next (raiseInstr h c s) := by
  refine congrArg Host.Outcome.next ?_
  unfold cboZero
  rw [if_pos hruns, henv]

end

/-- The access of a cbo.zero. -/
def zeroAcc (pt : PageAt) (pa : Nat) : MemAcc := { cboAcc pt.addr pa with pbmt := pt.pbmt }

theorem lineOf_zeroAcc (pt : PageAt) (pa : Nat) : lineOf (zeroAcc pt pa).pa = lineOf pa := by
  have hpa : (zeroAcc pt pa).pa = pa / 64 * 64 := rfl
  rw [hpa, lineOf, lineOf]
  omega

theorem isMain_zeroAcc (pt : PageAt) (pa : Nat) : isMain (zeroAcc pt pa).pa = isMain pa := by
  have hpa : (zeroAcc pt pa).pa = pa / 64 * 64 := rfl
  have hoff : offOf (pa / 64 * 64) = offOf pa / 64 * 64 := by
    rw [offOf, offOf]
    omega
  have hreg (x : Nat) : isMain x = decide (offOf x < 0x240000000000) := by
    unfold isMain regionOf
    split_ifs <;> simp <;> omega
  rw [hpa, hreg, hreg, hoff, decide_eq_decide]
  omega

section
variable {pt : PageAt}

theorem cboZeroAt_denied (hno : isMain pa = false ∨ populated s (pa / 64 * 64) = false ∨ pmpDenies s h (pa / 64 * 64) 64 false true = true) :
    cboZeroAt h pt pa y s = raise h 7 pt.addr s := if_pos hno

variable (hmain : isMain pa = true) (hpop : populated s (pa / 64 * 64) = true) (hno : pmpDenies s h (pa / 64 * 64) 64 false true = false)
include hmain hpop hno

theorem cboZero_allowed_place :
    ¬(isMain pa = false ∨ populated s (zeroAcc pt pa).pa = false ∨ pmpDenies s h (zeroAcc pt pa).pa 64 false true = true) := by
  rw [hmain, show populated s (zeroAcc pt pa).pa = true from hpop, show pmpDenies s h (zeroAcc pt pa).pa 64 false true = false from hno]
  decide

variable (htag : tag = ownerOf s h) (hline : line = lineOf pa)
include htag hline

theorem cboZeroAt_refused (hreach : mayReach s tag line = false) : cboZeroAt h pt pa y s = raise h 7 pt.addr (refuseLine pa tag s) := by
  subst htag hline
  exact (if_neg (cboZero_allowed_place (pt := pt) hmain hpop hno)).trans (if_pos hreach)

variable (hreach : mayReach s tag line = true) (hcore : coreOfHart s h = some core)
include hreach hcore

/-- A cbo.zero that may write its line. -/
theorem cboZeroAt_goesOn : cboZeroAt h pt pa y s =
    if pt.early = true ∧ (byPage s h pt.pbmt = true ∨ (hitOf s core tag line true).isNone = true) then
      (if byPage s h pt.pbmt then s else holdMiss core line true s)
    else if ncClear s tag line true = false then ncOpen (.hart h) tag line true s
    else if byPage s h pt.pbmt = true ∨ sealedCopy s (homeSlice s tag line) line tag = true then zeroHome h (zeroAcc pt pa) y s
    else if ownLine s line = true ∨ (sliceOf s (homeSlice s tag line)).owned.contains line = true then
      zeroed h line y (zeroLine core tag line) s
    else zeroFar h (zeroAcc pt pa) y s := by
  subst htag hline
  refine (if_neg (cboZero_allowed_place (pt := pt) hmain hpop hno)).trans ((if_neg (by rw [hreach]; decide)).trans ?_)
  rw [hcore]
  rfl

theorem cboZeroAt_away (hearly : pt.early = true) (hby : byPage s h pt.pbmt = true) : cboZeroAt h pt pa y s = s := by
  rw [cboZeroAt_goesOn hmain hpop hno htag hline hreach hcore, if_pos ⟨hearly, .inl hby⟩, if_pos hby]

theorem cboZeroAt_early (hearly : pt.early = true) (hby : byPage s h pt.pbmt = false) (hmiss : hitOf s core tag line true = none) :
    cboZeroAt h pt pa y s = holdMiss core line true s := by
  rw [cboZeroAt_goesOn hmain hpop hno htag hline hreach hcore, if_pos ⟨hearly, .inr (by rw [hmiss]; rfl)⟩, hby,
    if_neg Bool.false_ne_true]

variable (hn : n = homeSlice s tag line)
include hn

section
variable (hgo : pt.early = false ∨ (byPage s h pt.pbmt = false ∧ hitOf s core tag line true ≠ none))
include hgo

theorem cboZeroAt_now : cboZeroAt h pt pa y s = if ncClear s tag line true = false then ncOpen (.hart h) tag line true s
    else if byPage s h pt.pbmt = true ∨ sealedCopy s n line tag = true then zeroHome h (zeroAcc pt pa) y s
    else if ownLine s line = true ∨ (sliceOf s n).owned.contains line = true then zeroed h line y (zeroLine core tag line) s
    else zeroFar h (zeroAcc pt pa) y s := by
  rw [cboZeroAt_goesOn hmain hpop hno htag hline hreach hcore, ← hn]
  refine if_neg fun hc => ?_
  obtain ⟨hearly, haway⟩ := hc
  rcases hgo with hlate | ⟨hby, hhit⟩
  · rw [hlate] at hearly
    cases hearly
  · rcases haway with h1 | h1
    · rw [hby] at h1
      cases h1
    · exact hhit (Option.isNone_iff_eq_none.mp h1)

theorem cboZeroAt_held (hclear : ncClear s tag line true = false) : cboZeroAt h pt pa y s = ncOpen (.hart h) tag line true s := by
  rw [cboZeroAt_now hmain hpop hno htag hline hreach hcore hn hgo, if_pos hclear]

variable (hclear : ncClear s tag line true = true)
include hclear

theorem cboZeroAt_core (hby : byPage s h pt.pbmt = false) (hsealed : sealedCopy s n line tag = false)
    (hown : ownLine s line = true ∨ line ∈ (sliceOf s n).owned) : cboZeroAt h pt pa y s = zeroed h line y (zeroLine core tag line) s := by
  rw [cboZeroAt_now hmain hpop hno htag hline hreach hcore hn hgo, if_neg (by rw [hclear]; decide), if_neg (by rw [hby, hsealed]; decide),
    if_pos (hown.imp_right List.contains_iff_mem.mpr)]

theorem cboZeroAt_home (haway : byPage s h pt.pbmt = true ∨ sealedCopy s n line tag = true) (hown : ownDram s line = true) :
    cboZeroAt h pt pa y s = zeroed h line y (writeAtHome (.hart h) line tag 0) s := by
  rw [cboZeroAt_now hmain hpop hno htag hline hreach hcore hn hgo, if_neg (by rw [hclear]; decide), if_pos haway, zeroHome, lineOf_zeroAcc,
    ← hline, ← htag, if_pos hown]

/-- Zeros for a line whose home they have to be sent to. -/
theorem cboZeroAt_far (hfar : ((byPage s h pt.pbmt = true ∨ sealedCopy s n line tag = true) ∧ ownDram s line = false) ∨
    (ownLine s line = false ∧ line ∉ (sliceOf s n).owned)) : cboZeroAt h pt pa y s = zeroFar h (zeroAcc pt pa) y s := by
  have hdram : ownDram s line = false := by
    rcases hfar with ⟨-, h1⟩ | ⟨h1, -⟩
    · exact h1
    · rw [ownDram, h1]
      rfl
  rw [cboZeroAt_now hmain hpop hno htag hline hreach hcore hn hgo, if_neg (by rw [hclear]; decide)]
  by_cases haway : byPage s h pt.pbmt = true ∨ sealedCopy s n line tag = true
  · rw [if_pos haway, zeroHome, lineOf_zeroAcc, ← hline, hdram, if_neg Bool.false_ne_true]
  · obtain ⟨hown, howned⟩ := hfar.resolve_left fun hc => haway hc.1
    rw [if_neg haway, if_neg fun hc => hc.elim (fun h1 => by rw [hown] at h1; cases h1) fun h1 => howned (List.contains_iff_mem.mp h1)]

end

end

/-! ### Zeros that are sent -/

section
variable {pt : PageAt} (hmain : isMain pa = true) (htag : tag = ownerOf s h) (hline : line = lineOf pa) (hn : n = homeSlice s tag line)
include hmain htag hline hn

omit hmain in
theorem zeroFar_posts (hpage : pt.pbmt ≠ 2) : zeroFar h (zeroAcc pt pa) y s = zeroed h line y (fun b =>
    farAccess h (outDev b line) 4 0 (zeroAcc pt pa) false 0 0 0 (discardLine n line b)) s := by
  have hposted : posted 4 (zeroAcc pt pa) = true := by simp [posted, zeroAcc, hpage]
  subst hn htag hline
  unfold zeroFar
  dsimp only
  rw [if_pos hposted, lineOf_zeroAcc]

omit htag hline hn in
theorem zeroFar_waits (hpage : pt.pbmt = 2) (hwaits : hartWaits s h = true) : zeroFar h (zeroAcc pt pa) y s = s := by
  have hposted : posted 4 (zeroAcc pt pa) = false := by
    rw [posted, isMain_zeroAcc, hmain]
    simp [zeroAcc, hpage]
  unfold zeroFar
  dsimp only
  rw [hposted, if_neg Bool.false_ne_true, if_pos hwaits]

/-- The access of an instruction whose line is zeroed elsewhere. -/
def zeroNoted (h : Nat) (b : State) : State := setHart h { hartOf b h with access := some ⟨(hartOf b h).pc, none, [0x001D], false⟩ } b

theorem zeroFar_asks (hpage : pt.pbmt = 2) (hwaits : hartWaits s h = false) (hclear : noInvert s h) : zeroFar h (zeroAcc pt pa) y s =
    refetch h [line] y (farAccess h (outDev (breakResv (some h) line (zeroNoted h s)) line) 4 0 (zeroAcc pt pa) false 0 0 0
      (discardLine n line (breakResv (some h) line (zeroNoted h s)))) := by
  have hposted : posted 4 (zeroAcc pt pa) = false := by
    rw [posted, isMain_zeroAcc, hmain]
    simp [zeroAcc, hpage]
  subst hn htag hline
  unfold zeroFar
  dsimp only
  rw [hposted, if_neg Bool.false_ne_true, hwaits, if_neg Bool.false_ne_true, presentWrite_clear hclear, lineOf_zeroAcc]
  rfl

end

/-! ### The registers of a hart that waits for its zeros -/

theorem CacheMoved.x (a : CacheMoved s t) (k : Nat) : (hartOf t k).x = (hartOf s k).x := by
  rcases a.hart k with hk | hk
  · rw [hk]
  · rw [hk]

theorem CacheMoved.dropCopies (n line : Nat) (s : State) : CacheMoved s (dropCopies n line s) := (CacheMoved.takeBack n line none s).trans (.dropArr n line _)

theorem discardLine_x (n line : Nat) (s : State) (k : Nat) : (hartOf (discardLine n line s) k).x = (hartOf s k).x := by
  unfold discardLine
  split
  · rfl
  · exact (CacheMoved.dropCopies n line s).x k

theorem hartAnswer_x {o : Out} {r size va : Nat} {sg more : Bool} {resp : Nat × Nat} (hkind : o.kind = 4) :
    (hartOf (hartAnswer o h r size sg va more resp s) h).x = (hartOf s h).x := by
  obtain ⟨ps, hrec⟩ := dropRecord_pairs h s
  unfold hartAnswer
  split
  · unfold answerRecord
    split <;> rfl
  · rfl
  · rfl
  · dsimp only
    rw [hkind, if_pos rfl, hrec]
    split
    · obtain ⟨-, hx, -⟩ := raise_raised h resp.1 va { s with pairs := ps }
      exact hx
    · exact (AccessStep.endAccess h more { s with pairs := ps }).x

theorem farAccess_x {dev v opc cmp : Nat} {a : MemAcc} {sg : Bool} {r : Nat} :
    (hartOf (farAccess h dev 4 r a sg v opc cmp s) h).x = (hartOf s h).x := by
  have hsend (o : Out) (z : State) : hartOf (sendOut o z) h = hartOf z h :=
    hartOf_congr ((sendOut_keeps o z (keeps_refl _ z) (Nat.or_self _)).part .harts rfl) h
  unfold farAccess
  dsimp only
  split
  · rw [hsend]
  · split
    · rfl
    · split
      · split
        · exact hartAnswer_x rfl
        · rfl
      · obtain ⟨ps, hkeep⟩ := keepRecord_rest h { addr := a.pa, data := v, size := a.size, kind := 4, resp := none } s
        rw [hsend, hkeep]
        rfl

theorem zeroFar_x {pt : PageAt} (hmain : isMain pa = true) (hpage : pt.pbmt = 2) (hwaits : hartWaits s h = false) (hclear : noInvert s h) :
    (hartOf (zeroFar h (zeroAcc pt pa) y s) h).x = (hartOf s h).x := by
  rw [zeroFar_asks hmain rfl rfl rfl hpage hwaits hclear, (AccessStep.refetch h _ y _).x, farAccess_x, discardLine_x, hartOf_breakResv_own,
    zeroNoted, setHart_hartOf_same]

/-! ### Zeros that a core takes for itself -/

/-- The core has no miss and no hint of the line left. -/
def untracked (core line : Nat) (s : State) : State :=
  setCore core { coreOf (freeMiss core line s) core with badFills := (coreOf (freeMiss core line s) core).badFills.filter (· != line) }
    (freeMiss core line s)

theorem step_untracked (h core line : Nat) (s : State) : AccessStep h s (untracked core line s) := by
  refine .trans ?_ (.setCore h core rfl rfl)
  exact .setCore h core rfl rfl

/-- The line's other copies are gone, and the directory names the core. -/
def zeroGranted (core tag line : Nat) (s : State) : State :=
  grant (homeSlice s tag line) line tag core true (dropCopies (homeSlice s tag line) line (untracked core line s))

theorem zeroed_core (hclear : noInvert s h) : ∃ t, LineWritten h core line ⟨tag, .m, false, 0⟩ (zeroGranted core tag line s) t ∧
    AccessStep h t (zeroed h line y (zeroLine core tag line) s) := by
  refine ⟨_, lineWritten_breakResv h core line ⟨tag, .m, false, 0⟩ (zeroGranted core tag line s), ?_⟩
  have hcount := AccessStep.refetch h [line] y (breakResv (some h) line (putL2 core line ⟨tag, .m, false, 0⟩ (zeroGranted core tag line s)))
  rw [zeroed, presentWrite_clear hclear]
  exact ((hcount.trans (.of_counted (.countInst h _))).trans (.of_counted (.countEvent h 0x001D _))).trans (.of_ended (.dropReads h _))

theorem zeroGranted_x (core tag line : Nat) (s : State) (k : Nat) : (hartOf (zeroGranted core tag line s) k).x = (hartOf s k).x :=
  ((CacheMoved.dropCopies _ line (untracked core line s)).trans (.grant _ line tag core true _)).x k

/-- In a directory that has room for the line nothing else moves. -/
theorem zeroGranted_room (hdir : dirOf s (homeSlice s tag line) line = none) (hroom : ((sliceOf s (homeSlice s tag line)).dir.filter fun e =>
    dirSetOf e.1 == dirSetOf line && e.1 != line).length < 16) :
    ∃ regs slices, zeroGranted core tag line s = { untracked core line s with regs := regs, slices := slices } := by
  unfold zeroGranted
  generalize homeSlice s tag line = n at hdir hroom ⊢
  have hdir1 : dirOf (untracked core line s) n line = none := hdir
  have hdrop : dropCopies n line (untracked core line s) = dropArr n line (untracked core line s) := by
    rw [dropCopies, takeBack_of_dir hdir1]
  have hdirs : (sliceOf (dropArr n line (untracked core line s)) n).dir = (sliceOf s n).dir := by
    rw [dropArr, slices_putSlice]
    rfl
  obtain ⟨regs, slices, hrest⟩ := putSlice_rest n (sliceOf (dropArr n line (untracked core line s)) n) (untracked core line s)
  have harr : dropArr n line (untracked core line s) = { untracked core line s with regs := regs, slices := slices } := by
    rw [← hrest, dropArr, slices_putSlice]
  have hnone : dirOf (dropArr n line (untracked core line s)) n line = none := by rw [dirOf, hdirs]; exact hdir
  have hsame : dirRoom n line (dropArr n line (untracked core line s)) = dropArr n line (untracked core line s) := by
    unfold dirRoom
    dsimp only
    rw [hdirs]
    exact if_pos hroom
  rw [hdrop]
  unfold grant
  dsimp only
  rw [hnone, Option.isSome_none, if_neg Bool.false_ne_true, hsame, hnone]
  dsimp only
  rw [putDir, harr]
  exact ⟨_, _, rfl⟩

theorem dramKept.of_mem (hmem : t.mem = s.mem) : dramKept s t := by
  unfold dramKept
  rw [hmem]

theorem cboZero_writes (hclear : noInvert s h) : l2Of (zeroed h line y (zeroLine core tag line) s) core line = some ⟨tag, .m, false, 0⟩ ∧
    (hartOf (zeroed h line y (zeroLine core tag line) s) h).x = (hartOf s h).x ∧
    (dirOf s (homeSlice s tag line) line = none → ((sliceOf s (homeSlice s tag line)).dir.filter fun e =>
      dirSetOf e.1 == dirSetOf line && e.1 != line).length < 16 → dramKept s (zeroed h line y (zeroLine core tag line) s) ∧
      ∀ c k, c ≠ core ∨ k ≠ line → l2Of (zeroed h line y (zeroLine core tag line) s) c k = l2Of s c k) := by
  obtain ⟨t, hw, hstep⟩ := zeroed_core (core := core) (tag := tag) (line := line) (y := y) hclear
  generalize zeroed h line y (zeroLine core tag line) s = u at hstep ⊢
  refine ⟨(hstep.l2Of core line).trans hw.held, ?_, fun hdir hroom => ?_⟩
  · rw [hstep.x, hw.hart, zeroGranted_x]
  · have hun := step_untracked h core line s
    obtain ⟨regs, slices, hg⟩ := zeroGranted_room (core := core) hdir hroom
    have hl2 (c k : Nat) : l2Of (zeroGranted core tag line s) c k = l2Of s c k := by
      rw [hg]
      exact hun.l2Of c k
    refine ⟨?_, fun c k hne => (hstep.l2Of c k).trans ((hw.lines c k hne).trans (hl2 c k))⟩
    have hmem : dramKept s (untracked core line s) := hun.dramKept
    have hmem2 : (zeroGranted core tag line s).mem = (untracked core line s).mem := by rw [hg]
    obtain ⟨m, k, f, rfl⟩ := hw.rest
    refine hmem.trans (dramKept.trans ?_ hstep.dramKept)
    exact .of_mem hmem2

/-! ### Hints -/

section
variable {q : PageAt} {k : Nat} {b : Bool}

/-- A hint retires once it is no longer early. -/
def hintDone (h : Nat) (q : PageAt) (s : State) : State := if q.early then s else countInst h s

theorem prefetch_dropped (hruns : hartRuns s h = true) (hdrop : b = true ∨ isMain q.addr = false ∨ hintBypassed s h q.pbmt k = true ∨
    populated s q.addr = false ∨ pmpDenies s h q.addr 1 (k == 0) (k == 1) = true ∨ mayReach s (ownerOf s h) (lineOf q.addr) = false) :
    exec (.prefetchHint h q k b) s = .next (hintDone h q s) :=
  congrArg Host.Outcome.next ((if_neg (by rw [hruns]; decide)).trans (if_pos hdrop))

variable (hruns : hartRuns s h = true) (hmain : isMain q.addr = true) (hby : hintBypassed s h q.pbmt k = false)
  (hpop : populated s q.addr = true) (hpmp : pmpDenies s h q.addr 1 (k == 0) (k == 1) = false) (htag : tag = ownerOf s h)
  (hline : line = lineOf q.addr) (hreach : mayReach s tag line = true) (hcore : coreOfHart s h = some core)
include hruns hmain hby hpop hpmp htag hline hreach hcore

theorem prefetch_asks : exec (.prefetchHint h q k false) s = .next (hintDone h q
    (if k = 2 ∧ (l2Of (hintLine core tag line (k == 1) q.early s) core line).isSome = true then
      fillFetch core line (hintLine core tag line (k == 1) q.early s) else hintLine core tag line (k == 1) q.early s)) := by
  have hkept : ¬(false = true ∨ isMain q.addr = false ∨ hintBypassed s h q.pbmt k = true ∨ populated s q.addr = false ∨
      pmpDenies s h q.addr 1 (k == 0) (k == 1) = true ∨ mayReach s (ownerOf s h) (lineOf q.addr) = false) := by
    rw [← hline, ← htag, hmain, hby, hpop, hpmp, hreach]
    decide
  refine congrArg Host.Outcome.next ((if_neg (by rw [hruns]; decide)).trans ((if_neg hkept).trans ?_))
  rw [hcore, ← hline, ← htag]
  rfl

theorem prefetch_missing (hmiss : k ≠ 2 ∨ l2Of (hintLine core tag line false q.early s) core line = none) :
    exec (.prefetchHint h q k false) s = .next (hintDone h q (hintLine core tag line (k == 1) q.early s)) := by
  rw [prefetch_asks hruns hmain hby hpop hpmp htag hline hreach hcore]
  refine congrArg (Host.Outcome.next <| hintDone h q ·) (if_neg fun hc => ?_)
  obtain ⟨h2, hsome⟩ := hc
  have hnone := hmiss.resolve_left (not_not_intro h2)
  rw [h2, show ((2 : Nat) == 1) = false from rfl, hnone] at hsome
  cases hsome

end

theorem hintLine_held {l : CLine} {early : Bool} (hl : l2Of s core line = some l) (htag : l.tag = tag)
    (hgood : line ∉ (coreOf s core).badFills) : hintLine core tag line false early s = s := by
  have hbad : (coreOf s core).badFills.contains line = false := by simpa using hgood
  have hhit : hitOf s core tag line false = some l := by
    rw [hitOf, hl, htag.symm]
    simp
  have hget : getLine core tag line false early s = (s, gotHit l) := by
    unfold getLine
    rw [hhit]
  have hnow : gotHit l ≠ .wait := by
    unfold gotHit
    split <;> nofun
  unfold hintLine
  dsimp only
  rw [hbad, if_neg Bool.false_ne_true, hget]
  exact if_neg fun hc => hnow hc.1

theorem mem_joinPlaces (n k x : Nat) (l : List Nat) : x ∈ joinPlaces n k x l := by
  unfold joinPlaces
  split
  next hc => simpa using hc
  next =>
    split
    · exact List.mem_cons_self
    · exact List.mem_cons_self

/-- A fetch hint for a line of the L2 brings it into the L1I. -/
theorem hintDone_fillFetch (h : Nat) (q : PageAt) (core line : Nat) (s : State) :
    line ∈ (coreOf (hintDone h q (fillFetch core line s)) core).l1i ∧ sameL2 s (hintDone h q (fillFetch core line s)) ∧
      samePart .slices s (hintDone h q (fillFetch core line s)) ∧ samePart .mem s (hintDone h q (fillFetch core line s)) := by
  have hfill : AccessStep h s (fillFetch core line s) := by
    refine (AccessStep.freeNext h s).trans (.setCore h core ?_ ?_)
    · rfl
    · rfl
  have hdone : HartCounted h (fillFetch core line s) (hintDone h q (fillFetch core line s)) := by
    unfold hintDone
    split
    · exact .refl h _
    · exact .countInst h _
  have hl1i : (coreOf (fillFetch core line s) core).l1i = joinPlaces 1024 (Config.freeNat s.freeCtr) line (coreOf s core).l1i := by
    rw [fillFetch, setCore_coreOf_same]
  refine ⟨?_, fun c n => (AccessStep.of_counted hdone).l2Of c n |>.trans (hfill.l2Of c n), hdone.part State.slices fun _ _ => rfl,
    hdone.part State.mem fun _ _ => rfl⟩
  rw [hdone.part (coreOf · core) fun _ _ => rfl, hl1i]
  exact mem_joinPlaces _ _ _ _

end Sys2Proof.Machine
end

section
/-! Loads, stores, atomics, cache-block operations and hints of a hart: the statement (O19). -/
set_option Elab.async false
namespace Sys2Proof.Machine

variable {s p0 p s1 : State} {h core r v : Nat} {a : MemAcc} {l : CLine} {sg : Bool} {y : List Nat}

/-! ### The comparator of a store and of an atomic -/

theorem store_compared {q : Nat} (hit : l2Hit s h a core l) (hst : l.st ≠ .s) (hp : pairOfHart s h = some q) (harmed : invertArmed s q = true)
    (hfault : accessFault s h a 6 7 false false = none) : ∃ t, exec (.mainCoreStore h a v y) s = .next t ∧ comparedBad h s t :=
  ⟨_, store_presents hit hst hfault, (step_metAt h core a a.fp s).comparedBad (metAt_mem h core a a.fp s) hp harmed _⟩

theorem amo_compared {op : AmoOp} {cmp q : Nat} (hit : l2Hit s h a core l) (hst : l.st ≠ .s) (hlr : op ≠ .lr)
    (hp : pairOfHart s h = some q) (harmed : invertArmed s q = true) (hfault : accessFault s h a 6 7 true (op == .sc) = none) :
    ∃ t, exec (.mainCoreAmo h a op v cmp r y) s = .next t ∧ comparedBad h s t := by
  have hkind : (op == .lr || op == .sc) = (op == .sc) := by
    revert hlr
    cases op <;> decide
  have hexec := amo_presents (v := v) (cmp := cmp) (r := r) (y := y) hit hst (by rw [if_neg hlr, if_neg hlr, hkind]; exact hfault)
  rw [presentAmo, if_neg hlr] at hexec
  exact ⟨_, hexec, (step_metAt h core a false s).comparedBad (metAt_mem h core a false s) hp harmed _⟩

theorem posted_io {g : Nat} (hreg : regionOf (offOf a.pa) = .io g) : posted 4 a = true := by
  rw [posted, isMain, hreg]
  simp

/-! ### The statement -/

/-- Settles O19: accesses that the core answers, by the layer of a hart's accesses; those that stand translated, by what
`walked_goesOn` leaves of each command and one lemma for each way a line is reached; operations on cache blocks and hints, by theirs. -/
theorem mainCoreAccessesAndCacheBlocks : Obligations.MainCoreAccessesAndCacheBlocks := by
  unfold Obligations.MainCoreAccessesAndCacheBlocks
  refine ⟨⟨?_, ?_⟩, ?_⟩
  · intro s h a
    refine ⟨fun core l r sg hit hr hf => load_integer hit hf r sg hr, fun core l r sg hit hlo hhi _ hf => load_float hit hf r sg hlo hhi,
      fun core l r sg hit hr _ _ hf => load_element hit hf r sg hr, ?_,
      fun core l v y hit hst hclear hf => store_writes hit hst hclear hf,
      fun core l v y q hit hst hq harmed hf => store_compared hit hst hq harmed hf, ?_,
      fun core l op v cmp r y hit hst hlr hsc hsize hclear hf => amo_word hit hst hlr hsc hsize hclear hf,
      fun core l op v cmp r y hit hst hlr hsc hsize hclear hf => amo_pair hit hst hlr hsc hsize hclear hf,
      fun core l op v cmp r y q hit hst hlr hq harmed hf => amo_compared hit hst hlr hq harmed hf,
      fun core l v cmp r y hit hst hsize hf => amo_lr hit hst hsize hf,
      fun core l v cmp r y hit hst hclear hf => amo_sc hit hst hclear hf, ?_,
      fun core r sg hruns hsize hwalk hmain hby hcore hone hmiss hearly hf => load_waits_early hruns hsize hwalk hmain hby hcore hone hmiss hearly hf⟩
    · intro c x r sg hruns hsize hwalk hf
      exact ⟨_, load_faults hruns hsize hwalk hf, fault_raised c x _ s⟩
    · intro c x v y hruns hsize hwalk hf
      exact ⟨_, store_faults hruns hsize hwalk hf, fault_raised c x _ s⟩
    · intro c x op v cmp r y hruns hsize hwalk hf
      obtain ⟨hraised, hregs, -⟩ := fault_raised (h := h) (a := a) c x false s
      exact ⟨_, amo_faults hruns hsize hwalk hf, hraised, hregs⟩
  · intro s p0 p h a tag line n hruns hsize hp htag hline hn
    subst htag hline hn
    refine ⟨?_, ?_, ?_, ?_, ?_, ?_⟩
    · intro r sg core s1 h0 hw
      rw [load_walked hruns hsize, ← h0]
      exact ⟨fun hl => congrArg _ (walked_found 5 _ hw hl rfl), fun hl => congrArg _ (walked_waits 5 _ hw hl rfl),
        fun hl => congrArg _ (walked_poisoned 5 _ hw hl rfl), fun hl => congrArg _ (walked_refused 5 _ hw hl rfl)⟩
    · intro v y core s1 h0 hw hl
      rw [store_walked hruns hsize, ← h0]
      exact congrArg _ (walked_found 7 _ hw hl rfl)
    · intro op v cmp r y core s1 h0 hw hl
      rw [amo_walked hruns hsize, ← h0]
      exact congrArg _ (walked_found _ _ hw hl rfl)
    · intro r sg h0 hwalk hf
      rw [load_walked hruns hsize, ← h0, walked_goesOn _ hp hwalk hf]
      refine ⟨fun core s1 ds hmain hby hcore hl => congrArg _ ((loadAt_cached hf hmain hby hcore).trans (cachedLoad_found hl)),
        fun core s1 ds i g hmain hby hcore hl => congrArg _ ((loadAt_cached hf hmain hby hcore).trans (cachedLoad_failed hl)),
        fun s1 x hmain hby hearly hreach hclear hcur =>
          congrArg _ ((loadAt_bypassed hf hmain hby).trans (ncLoad_reads rfl rfl hearly hreach hclear hcur)),
        fun s1 x hmain hby hearly hreach hclear hcur =>
          congrArg _ ((loadAt_bypassed hf hmain hby).trans (ncLoad_poisoned rfl rfl hearly hreach hclear hcur)),
        fun s1 hmain hby hearly hreach hclear hcur =>
          congrArg _ ((loadAt_bypassed hf hmain hby).trans (ncLoad_waits rfl rfl hearly hreach hclear hcur)),
        fun s1 hmain hby hearly hreach hclear hcur =>
          ⟨congrArg _ ((loadAt_bypassed hf hmain hby).trans (ncLoad_far rfl rfl hearly hreach hclear hcur)),
            fun howner hmay hfree hdev => howner ▸ farAccess_asks hdev rfl hmay hfree⟩,
        fun hmain hby hearly hreach => congrArg _ ((loadAt_bypassed hf hmain hby).trans (ncLoad_refused rfl rfl hearly hreach)),
        fun hmain hby hearly hreach hclear =>
          congrArg _ ((loadAt_bypassed hf hmain hby).trans (ncLoad_held rfl rfl hearly hreach hclear)),
        fun g hreg hearly hhome => congrArg _ (loadAt_io hf hreg hearly hhome),
        fun g x hreg hearly hhome hat => congrArg _ ((loadAt_io hf hreg hearly hhome).trans (congrArg (ioLoadAt h g r a sg p) hat)),
        fun g x hreg hearly hhome hat hmay hfree =>
          ⟨_, congrArg _ ((loadAt_io hf hreg hearly hhome).trans (congrArg (ioLoadAt h g r a sg p) hat)),
            farAccess_asks (by omega) rfl hmay hfree⟩,
        fun g x hreg hearly hhome hat hmay hfree =>
          ⟨_, congrArg _ ((loadAt_io hf hreg hearly hhome).trans (congrArg (ioLoadAt h g r a sg p) hat)),
            farAccess_asks (a := { a with pa := x, pbmt := 0 }) (by omega) rfl hmay hfree⟩,
        fun g x hreg hearly hhome hat hw => congrArg _ ((loadAt_io hf hreg hearly hhome).trans
          ((congrArg (ioLoadAt h g r a sg p) hat).trans
            (farAccess_waits (a := a) (dev := 64 + g) (kind := 3) (r := r) (sg := sg) (v := 0) (op := 0) (cmp := 0) rfl hw))),
        fun hreg hearly hhome => congrArg _ (loadAt_control hf hreg hearly hhome),
        fun g hreg hearly hhome => congrArg _ (loadAt_far hf hreg hearly hhome),
        fun hnc hearly => congrArg _ (loadAt_early hf hnc hearly)⟩
    · intro v y h0 hwalk hf
      rw [store_walked hruns hsize, ← h0, walked_goesOn _ hp hwalk hf]
      refine ⟨fun core s1 ds hmain hby hcore hl => congrArg _ ((storeAt_cached hf hmain hby hcore).trans (cachedStore_found hl)),
        fun core s1 ds i g hmain hby hcore hl => congrArg _ ((storeAt_cached hf hmain hby hcore).trans (cachedStore_failed hl)),
        fun s1 x hmain hby hearly hreach hclear hown hcur =>
          congrArg _ ((storeAt_bypassed hf hmain hby).trans (ncStore_writes rfl rfl hearly hreach hclear hown hcur)),
        fun s1 d hmain hby hearly hreach hclear hown hcur =>
          ⟨fun x hd => congrArg _ ((storeAt_bypassed hf hmain hby).trans
            (ncStore_poisoned rfl rfl hearly hreach hclear hown (hcur.trans (congrArg _ hd)))),
          fun hd => congrArg _ ((storeAt_bypassed hf hmain hby).trans
            (ncStore_waits rfl rfl hearly hreach hclear hown (hcur.trans (congrArg _ hd))))⟩,
        fun hmain hby hearly hreach hclear hown hwaits hpage => congrArg _ ((storeAt_bypassed hf hmain hby).trans
          (ncStore_posts rfl rfl hearly hreach hclear rfl hown hwaits hpage)),
        fun hmain hby hearly hreach hclear hown hwaits hpage => congrArg _ ((storeAt_bypassed hf hmain hby).trans
          (ncStore_asks rfl rfl hearly hreach hclear rfl hown hwaits hmain hpage)),
        fun hmain hby hearly hreach => congrArg _ ((storeAt_bypassed hf hmain hby).trans (ncStore_refused rfl rfl hearly hreach)),
        fun hmain hby hearly hreach hclear =>
          congrArg _ ((storeAt_bypassed hf hmain hby).trans (ncStore_held rfl rfl hearly hreach hclear)),
        fun g hreg hearly hhome => congrArg _ (storeAt_io hf hreg hearly hhome),
        fun g x hreg hearly hhome hat hclear => ⟨_, _, congrArg _ ((storeAt_io hf hreg hearly hhome).trans
          ((congrArg (ioStoreAt h g a v p) hat).trans (presentWrite_clear hclear))), rfl,
          farAccess_posts (by omega) (posted_io hreg)⟩,
        fun g x hreg hearly hhome hat hclear => ⟨_, _, congrArg _ ((storeAt_io hf hreg hearly hhome).trans
          ((congrArg (ioStoreAt h g a v p) hat).trans (presentWrite_clear hclear))), rfl,
          farAccess_posts (a := { a with pa := x, pbmt := 0 }) (by omega) rfl⟩,
        fun hreg hearly hhome => congrArg _ (storeAt_control hf hreg hearly hhome),
        fun g hreg hearly hhome => congrArg _ (storeAt_far hf hreg hearly hhome),
        fun hnc hearly => congrArg _ (storeAt_early hf hnc hearly)⟩
    · intro op v cmp r y h0 hwalk hmain hf
      rw [amo_walked hruns hsize, ← h0, walked_goesOn _ hp hwalk hf]
      refine ⟨fun core s1 d hby hcore hl => congrArg _ ((amoAt_cached hmain hf hby hcore).trans (amoCached_found hl)),
        fun core s1 g hby hcore hg hl => congrArg _ ((amoAt_cached hmain hf hby hcore).trans (amoCached_failed hg hl)),
        fun s1 x hby hearly hreach hclear hown hcur => congrArg _ ((amoAt_bypassed hmain hf hby).trans
          (amoAtHome_performs rfl rfl hearly hreach hclear hown hcur)),
        fun s1 hby hearly hreach hclear hown hcur => congrArg _ ((amoAt_bypassed hmain hf hby).trans
          (amoAtHome_fetches rfl rfl hearly hreach hclear hown rfl hcur)),
        fun s1 hby hearly hreach hclear hown hcur => congrArg _ ((amoAt_bypassed hmain hf hby).trans
          (amoAtHome_waits rfl rfl hearly hreach hclear hown hcur)),
        fun s1 x hby hearly hreach hclear hown hcur => congrArg _ ((amoAt_bypassed hmain hf hby).trans
          (amoAtHome_poisoned rfl rfl hearly hreach hclear hown hcur)),
        fun hby hearly hreach hclear hown hwaits hlr hheld => congrArg _ ((amoAt_bypassed hmain hf hby).trans
          (amoAtHome_asks rfl rfl hearly hreach hclear rfl hown hwaits hlr hheld)),
        fun hby hearly hreach hclear hown hwaits hlr => congrArg _ ((amoAt_bypassed hmain hf hby).trans
          (amoAtHome_reserves rfl rfl hearly hreach hclear rfl hown hwaits hlr)),
        fun hby hearly hreach hclear hown hwaits hsc hheld => congrArg _ ((amoAt_bypassed hmain hf hby).trans
          (amoAtHome_unreserved rfl rfl hearly hreach hclear rfl hown hwaits hsc hheld)),
        fun hby hearly hreach => congrArg _ ((amoAt_bypassed hmain hf hby).trans (amoAtHome_refused rfl rfl hearly hreach)),
        fun hby hearly hreach hclear => congrArg _ ((amoAt_bypassed hmain hf hby).trans (amoAtHome_held rfl rfl hearly hreach hclear)),
        fun hby hearly => congrArg _ ((amoAt_bypassed hmain hf hby).trans (amoAtHome_early hearly))⟩
  · intro s h va pa tag line n pt no noW hruns htag hline hn hnoW hno
    subst hno hnoW
    refine ⟨fun core henv hmain hpop hallow hreach hcore hfree => ?_, fun core henv hmain hpop hallow hreach hcore hfree => ?_,
      fun core henv hmain hpop hallow hreach hcore hfree => ?_, fun c henv => ?_, fun c henv => ?_, fun c henv => ?_,
      fun hbad => ⟨fun henv => ?_, fun henv => ?_, fun henv => ?_⟩, fun y hbad henv => ?_,
      fun hmain hpop hallow hreach => ⟨fun henv => ?_, fun henv => ?_, fun henv => ?_⟩, fun y hmain hpop hallow hreach henv => ?_,
      fun core y henv hmain hpop hallow hreach hcore => ?_, fun c y henv => ?_, fun q k b hq hdrop => ?_,
      fun q core k hq hmain hby hpop hpmp hreach hcore => ?_⟩
    · obtain ⟨t, ht, htaken⟩ := cbo_taken (va := va) hmain hpop hallow htag hline hn hreach hcore hfree (le_refl 1) (by decide)
      exact ⟨t, congrArg Host.Outcome.next ((cboGated_on hruns henv).trans ht), htaken⟩
    · obtain ⟨t, ht, htaken⟩ := cbo_taken (va := va) hmain hpop hallow htag hline hn hreach hcore hfree one_le_two (by decide)
      exact ⟨t, congrArg Host.Outcome.next ((cboGated_on hruns henv).trans ht), htaken⟩
    · obtain ⟨t, ht, htaken⟩ := cbo_taken (va := va) (op := if (envBits s h 4 2).contains 1 then 2 else 3) hmain hpop hallow htag hline hn
        hreach hcore hfree (by split <;> decide) (by split <;> decide)
      exact ⟨t, (exec_cboInval hruns henv).trans (congrArg Host.Outcome.next ht), htaken⟩
    · obtain ⟨v, hraised⟩ := raiseInstr_raised h c s
      exact ⟨_, v, congrArg Host.Outcome.next (cboGated_fault hruns henv), hraised⟩
    · obtain ⟨v, hraised⟩ := raiseInstr_raised h c s
      exact ⟨_, v, congrArg Host.Outcome.next (cboGated_fault hruns henv), hraised⟩
    · obtain ⟨v, hraised⟩ := raiseInstr_raised h c s
      exact ⟨_, v, congrArg Host.Outcome.next (cboGated_fault hruns henv), hraised⟩
    · exact ⟨_, congrArg Host.Outcome.next ((cboGated_on hruns henv).trans (cbo_denied hbad)), raise_raised h 7 va s⟩
    · exact ⟨_, congrArg Host.Outcome.next ((cboGated_on hruns henv).trans (cbo_denied hbad)), raise_raised h 7 va s⟩
    · exact ⟨_, congrArg Host.Outcome.next ((cboGated_on hruns henv).trans (cbo_denied hbad)), raise_raised h 7 va s⟩
    · exact ⟨_, (exec_cboZero hruns henv).trans (congrArg _ (cboZeroAt_denied hbad)), raise_raised h 7 pt.addr s⟩
    · exact congrArg Host.Outcome.next ((cboGated_on hruns henv).trans (cbo_refused hmain hpop hallow htag hline hreach))
    · exact congrArg Host.Outcome.next ((cboGated_on hruns henv).trans (cbo_refused hmain hpop hallow htag hline hreach))
    · exact congrArg Host.Outcome.next ((cboGated_on hruns henv).trans (cbo_refused hmain hpop hallow htag hline hreach))
    · exact (exec_cboZero hruns henv).trans (congrArg _ (cboZeroAt_refused hmain hpop hallow htag hline hreach))
    · rw [exec_cboZero hruns henv]
      refine ⟨fun hby hgo hclear hown hopen hsealed => ?_,
        fun hearly hby => congrArg _ (cboZeroAt_away hmain hpop hallow htag hline hreach hcore hearly hby),
        fun hearly hby hmiss => congrArg _ (cboZeroAt_early hmain hpop hallow htag hline hreach hcore hearly hby hmiss),
        fun hearly hheld => congrArg _ (cboZeroAt_held hmain hpop hallow htag hline hreach hcore hn (.inl hearly) hheld),
        fun hearly hopen haway hown =>
          congrArg _ (cboZeroAt_home hmain hpop hallow htag hline hreach hcore hn (.inl hearly) hopen haway hown),
        fun hearly hopen hfar => ?_⟩
      · have hnow := cboZeroAt_core (y := y) hmain hpop hallow htag hline hreach hcore hn (hgo.imp_right fun hhit => ⟨hby, hhit⟩) hopen hby
          hsealed hown
        have hwritten := cboZero_writes (core := core) (tag := tag) (line := line) (y := y) hclear
        rw [← hn] at hwritten
        exact ⟨_, congrArg _ hnow, hwritten⟩
      · rw [cboZeroAt_far hmain hpop hallow htag hline hreach hcore hn (.inl hearly) hopen hfar]
        refine ⟨fun hpage => congrArg _ (zeroFar_posts htag hline hn hpage), fun hpage hwaits => congrArg _ (zeroFar_waits hmain hpage hwaits),
          fun hpage hask hclear => ⟨_, rfl, ?_⟩⟩
        obtain ⟨hwaits, -⟩ := hask
        exact zeroFar_x hmain hpage hwaits hclear
    · obtain ⟨v, hraised, -⟩ := raiseInstr_raised h c s
      exact ⟨_, v, cboZero_fault hruns henv, hraised⟩
    · subst hq htag hline
      rw [prefetch_dropped hruns hdrop, hintDone]
      exact ⟨fun hearly => congrArg _ (if_pos hearly), fun hearly => congrArg _ (if_neg (by rw [hearly]; decide))⟩
    · subst hq
      refine ⟨fun hmiss => prefetch_missing hruns hmain hby hpop hpmp htag hline hreach hcore hmiss, fun l hk hl hltag hgood => ?_⟩
      subst hk
      have hasks := prefetch_asks hruns hmain hby hpop hpmp htag hline hreach hcore
      rw [show ((2 : Nat) == 1) = false from rfl, hintLine_held hl hltag hgood, if_pos ⟨rfl, by rw [hl]; rfl⟩] at hasks
      exact ⟨_, hasks, hintDone_fillFetch h q core line s⟩

end Sys2Proof.Machine
end
